-- ==== Sys2Proof/Word.lean ====
section
/-!
DEFINITION. The byte and word types of the model.
-/
namespace Sys2Proof

/-- One byte. -/
abbrev Byte := BitVec 8

/-- A sequence of bytes, the lowest address first. -/
abbrev Bytes := List Byte

/-- The data of an Onbusyn register or local word. -/
abbrev Word := BitVec 64

end Sys2Proof
end

