-- ==== Sys2Proof/Syntax.lean ====
section
/-!
DEFINITION. The commands of the block: one constructor of `Instr` per row of spec/opcode_table.json, and the operand
types they carry. An operand holds what its sender chooses or what another agent returns; the device's own state is in
`Machine.State`.
-/
namespace Sys2Proof

/-- The roles of Table 3.7 (R79), the least first. -/
inductive Role where
  | tenant | manager | operator
deriving DecidableEq, Repr

/-- Where a command packet came from, and so where its reply goes (R79, R94, R496). -/
inductive Chan where
  /-- Queue pair `qp` of function `fn`. -/
  | host (fn qp : Nat)
  /-- SPDM session `sess` of the management network. -/
  | mgmt (sess : Nat)
  /-- The troupe head reached through link `peer`, as its forwarded command `fwd`, sent by the session `origin` of `role`; `fan` tells
  whether member records are wanted, and `hops` how many troupe levels it has crossed (Table 5.30). -/
  | head (peer fwd : Nat) (role : Role) (origin : Nat) (fan : Bool) (hops : Nat)
deriving DecidableEq, Repr

/-- The 64-byte header of a command packet (Table 3.1); the opcode is the constructor that carries it. `readOk` tells
whether the read of pointer parameters returned no error (R70), `sqOk` and `cqOk` whether the read of its submission slots and the write
of its reply into the completion queue return none (R65). -/
structure Hdr where
  chan : Chan := .host 0 0
  flags : Nat := 0
  session : Nat := 0
  hostTag : Nat := 0
  pathLen : Nat := 0
  version : Nat := 2
  rsv : Nat := 0
  path : List Nat := [0, 0, 0, 0, 0, 0, 0, 0]
  unit : Nat := 0
  paramLen : Nat := 0
  paramPtr : Nat := 0
  memberBuf : Nat := 0
  memberLen : Nat := 0
  crc : Nat := 0
  readOk : Bool := true
  sqOk : Bool := true
  cqOk : Bool := true
deriving DecidableEq, Repr

/-- A command packet whose opcode has no row of its own: an opcode that is not defined, or one of a customer module's class (R100). -/
structure OtherCmd where
  opcode : Nat := 0xF000
  hdr : Hdr := {}
  params : Bytes := []
deriving DecidableEq, Repr

/-- A write of SQ_TAIL: the index, and a packet of an opcode without a row that stands at the queue's head and that the DXL9 fetches once
the write has been taken (R63, R100). -/
structure TailWrite where
  idx : Nat := 0
  other : Option OtherCmd := none
deriving DecidableEq, Repr

/-- What an accelerator sends upstream (R302, R303). -/
inductive Upstream where
  | read | write | msi
deriving DecidableEq, Repr

/-- A function of an accelerator as enumeration finds it (R302): the sizes of its memory BARs, by BAR, 0 where it has none, and the code of the
largest payload it supports. -/
structure AccelFn where
  bars : List Nat := []
  mps : Nat := 0
deriving DecidableEq, Repr

/-- An access to a BAR (R27): function, BAR index, offset, bytes, write or read, and the value written. -/
structure Access where
  fn : Nat := 0
  bar : Nat := 0
  off : Nat := 0
  size : Nat := 8
  wr : Bool := true
  val : Nat := 0
  /-- The data of a BAR2 write. -/
  data : Bytes := []
deriving DecidableEq, Repr

/-- An NVMe command (R103): its controller, submission queue (0 = admin) and the fields of its entry; `data` is what
the controller reads from the host memory it names, and `dataOk` whether that read returned no error. -/
structure NvmeCmd where
  fn : Nat := 0
  sqid : Nat := 0
  cid : Nat := 0
  nsid : Nat := 0
  psdt : Nat := 0
  prp1 : Nat := 0
  prp2 : Nat := 0
  cdw10 : Nat := 0
  cdw11 : Nat := 0
  cdw12 : Nat := 0
  cdw13 : Nat := 0
  cdw14 : Nat := 0
  cdw15 : Nat := 0
  data : Bytes := []
  dataOk : Bool := true
deriving DecidableEq, Repr

/-- An NVMe command whose opcode is not in Table 4.1 (R103). -/
structure OtherNvme where
  opcode : Nat := 0x7F
  cmd : NvmeCmd := {}
deriving DecidableEq, Repr

/-- A write of a submission queue doorbell: the index, and an entry of an opcode without a row that stands at the queue's head and that the
controller fetches once the write has been taken (R102, R103). -/
structure NvmeBell where
  idx : Nat := 0
  other : Option OtherNvme := none
deriving DecidableEq, Repr

/-- An RDMA packet as received (R135 to R149): the fields of its headers and its payload. -/
structure RdmaPkt where
  qpn : Nat := 0
  psn : Nat := 0
  msn : Nat := 0
  opcode : Nat := 0
  ackReq : Bool := false
  rkey : Nat := 0
  addr : Nat := 0
  total : Nat := 0
  offset : Nat := 0
  payload : Bytes := []
  /-- Acknowledge: 0 ACK, 1 NAK sequence, 2 NAK access, 3 NAK other; with the cumulative PSN in `psn`. -/
  syndrome : Nat := 0
  bitmap : List Nat := []
  ecn : Bool := false
  fenced : Bool := false
  /-- RECOVER (R141): epoch, next expected PSN, proposed PSN, next expected MSN, ACKED. -/
  epoch : Nat := 0
  newPsn : Nat := 0
  acked : Bool := false
  crcOk : Bool := true
deriving DecidableEq, Repr

/-- A motion vector entry of a cell as the codec layer derives it (Table 7.11); an MPEG-2 vector is in half samples. -/
structure MvIn where
  x0 : Int := 0
  y0 : Int := 0
  x1 : Int := 0
  y1 : Int := 0
  dt0 : Int := 0
  dt1 : Int := 0
  pred : Nat := 0
  fsel : Nat := 0
deriving DecidableEq, Repr

/-- A cell as the codec layer found it (Tables 7.10 and 7.11): one vector entry for the whole cell, two with FIELD_MV, or sixteen. -/
structure CellIn where
  kind : Nat := 0
  qp : Nat := 0
  tsize : Nat := 0
  flags : Nat := 0
  ipred : Nat := 0xFF
  cbp : Nat := 0
  mvs : List MvIn := []
deriving DecidableEq, Repr

/-- A coded transform block (R205): component, size T, position in samples of its component (of its transform unit where T exceeds the
cell), which of two blocks one above the other in such a unit, and its coefficients (u, v, value) after scaling or inverse quantisation,
before saturation. -/
structure BlockIn where
  comp : Nat := 0
  size : Nat := 8
  x : Nat := 0
  y : Nat := 0
  part : Nat := 0
  /-- In a cell with FLAGS.FIELD: 0 of the top field, 1 of the bottom field (R206). -/
  parity : Nat := 0
  coefs : List (Nat × Nat × Int) := []
deriving DecidableEq, Repr

/-- A picture that a shuttle finished decoding (R188 to R211): what the codec layer found and produced, in decode order. -/
structure Picture where
  codec : Nat := 2
  /-- Place of its profile in Table 7.1's list for the codec; 255 = another. -/
  profile : Nat := 0
  /-- Ten times its level; for MPEG-2 1 Low, 2 Main, 3 High 1440, 4 High. -/
  level : Nat := 0
  /-- MVC, SVC or multi-layer HEVC (R189). -/
  layered : Bool := false
  ptype : Nat := 0
  struct : Nat := 0
  chroma : Nat := 1
  depth : Nat := 8
  isRef : Bool := true
  qp : Nat := 0
  codedW : Nat := 16
  codedH : Nat := 16
  crop : List Nat := [0, 0, 0, 0]
  /-- It follows a sequence header (R190). -/
  seqHdr : Bool := false
  /-- An AV1 key frame, or an HEVC or VVC IRAP picture (R190). -/
  key : Bool := false
  /-- An H.264, HEVC or VVC IDR, or an HEVC BLA picture (R190). -/
  idr : Bool := false
  /-- A VVC GDR picture (R190). -/
  gdr : Bool := false
  /-- recovery_frame_cnt of its recovery point SEI (R190). -/
  recovery : Option Nat := none
  /-- closed_gop of its MPEG-2 GOP (R190). -/
  closedGop : Bool := false
  /-- The top field comes first in time (Table 7.9). -/
  topFirst : Bool := true
  /-- The second field of the pair whose first field came before it (R204). -/
  second : Bool := false
  /-- Damaged cells, by index in raster order (R209). -/
  bad : List Nat := []
  /-- The input of the picture is gone (R199, R214). -/
  lost : Bool := false
  /-- DECODE_NUM of the pictures that it predicts from (R210). -/
  refs : List Nat := []
  /-- Pictures that wait for their turn and whose turn has come with this one, itself included (R203, R207). -/
  turn : Nat := 1
  pts : Nat := 0
  /-- Presentation time of the second record of a split frame. -/
  pts2 : Nat := 0
  srcOff : Nat := 0
  srcEnd : Nat := 0
  /-- Continuity errors in the input (R209). -/
  discont : Nat := 0
  /-- Reconstructed Y, Cb and Cr of the coded picture, rows without padding. -/
  planes : List Bytes := []
  /-- In coefficient mode: the cells in raster order, and the coded transform blocks. -/
  cellsIn : List CellIn := []
  blocks : List BlockIn := []
  /-- The reconstructed Y, Cb and Cr of an anchor (R207). -/
  anchor : List Bytes := []
  cycles : Nat := 0
deriving DecidableEq, Repr

/-- An audio codec frame that was decoded (R208). -/
structure AudioFrame where
  track : Nat := 0
  codec : Nat := 5
  rate : Nat := 48000
  count : Nat := 0
  bad : Bool := false
  pts : Nat := 0
  srcOff : Nat := 0
  srcEnd : Nat := 0
  discont : Nat := 0
  cycles : Nat := 0
  /-- Samples or mel frames of each channel in the codec's channel order, as the track's OUTPUT, DOWNMIX and RATE ask. -/
  planes : List Bytes := []
deriving DecidableEq, Repr

/-- A caption text or subtitle image whose end is known (R208). -/
structure Caption where
  /-- 1 = CEA-608, 2 = CEA-708, 3 = teletext, 4 = DVB subtitle. -/
  service : Nat := 1
  channel : Nat := 1
  page : Nat := 0
  pts : Nat := 0
  endPts : Nat := 0
  text : Bytes := []
  /-- CEA-608: the displayed characters in UTF-8, each with whether its parity was right (R208). -/
  chars : List (Bytes × Bool) := []
  x : Nat := 0
  y : Nat := 0
  w : Nat := 0
  h : Nat := 0
  /-- RGBA plane of a subtitle image. -/
  image : Bytes := []
  srcOff : Nat := 0
  srcEnd : Nat := 0
deriving DecidableEq, Repr

/-- A window through which a latch is reached (R310). -/
inductive Window where
  /-- The full block in the owner's BAR0; the latch number is the function's own. -/
  | bar0 (fn : Nat)
  /-- The posting window in the owner's BAR4. -/
  | bar4 (fn : Nat)
  /-- The posting window of the feed port that accelerator `a` reaches. -/
  | feed (a : Nat)
deriving DecidableEq, Repr

/-- The event of Table 12.2 behind a detected error. -/
inductive ErrCause where
  /-- A buffer, SRAM or local-memory error not corrected. -/
  | memory
  /-- The excess of R340. -/
  | corrected
  /-- A charge under R239, R241 or R266. -/
  | charge
  /-- A slice overrun (R261). -/
  | overrun
  /-- A failed in-field test (R358). -/
  | test
  /-- A slice that passed its second parse (R209). -/
  | reparse
  /-- A watchdog expiry (R400). -/
  | watchdog
  /-- A double-computation disagreement (R181). -/
  | mismatch
  /-- An uncorrectable burst (R352). -/
  | uncorrectable
  /-- A burst that failed its interface check after 4 retries (R338). -/
  | linkCrc
  /-- An error in the on-die trace buffers not corrected (R338). -/
  | trace
deriving DecidableEq, Repr

/-- What an uncorrectable line of GDDR7 holds (R127, R355): the spec lays out neither the device reserve nor the write
buffer, so the event names the object. -/
inductive BurstObj where
  /-- Nothing that an owner would miss. -/
  | none
  /-- The image of a loaded Tapestry program. -/
  | prog (handle : Nat)
  /-- A copy of the running stagehand image. -/
  | image
  /-- A tag block of a backing's remote block. -/
  | tag (ctrl nsid back rblk : Nat)
  /-- A journal entry: the command of a queue pair with this host tag. -/
  | journal (qp tag : Nat)
  /-- The intermission record of a scope. -/
  | inter (scope : Nat)
  /-- A dirty block of the write buffer, by entry number. -/
  | block (seq : Nat)
  /-- A context of the context store. -/
  | ctx (number : Nat)
deriving DecidableEq, Repr

/-- A mesh or die-to-die link (R338): its router and port as DETAIL has them, and the replays that it needed in the last 1 s. -/
structure MeshLink where
  routerPort : Nat := 0
  replays : Nat := 0
deriving DecidableEq, Repr

/-- What a sensor returned (R482, R483). -/
inductive Reading where
  | value (v : Int)
  /-- A reading outside the physical range, or none for ten periods. -/
  | bad
deriving DecidableEq, Repr

/-- The levels of the strap pins as sampled (R549). -/
structure Straps where
  prov : Bool := false
  rstScope : Bool := true
  i3c : Nat := 3
  test : Bool := false
deriving DecidableEq, Repr

/-- FP32 results that a core's fault changed: element index and the pattern it left. -/
abbrev Upsets := List (Nat × Nat)

/-- The commands of the block, one per row of spec/opcode_table.json. -/
inductive Instr where
  /-- REGISTER_WRITE (R27). -/
  | registerWrite (a : Access)
  /-- BAR2_ACCESS (R33). -/
  | bar2Access (a : Access)
  /-- SET_PARTITIONS (R30). -/
  | setPartitions (h : Hdr) (p : Bytes)
  /-- SET_CUE_SOURCE (R37). -/
  | setCueSource (h : Hdr) (p : Bytes)
  /-- POSITION_FRAME (R45). -/
  | positionFrame (frame : Nat) (codeOk : Bool)
  /-- EPOCH_FRAME (R40). -/
  | epochFrame (frame : Nat) (codeOk : Bool)
  /-- ETH_CUE_FRAME (R42). -/
  | ethCueFrame (frame : Bytes)
  /-- CUE_SW_POS_WRITE (R43). -/
  | cueSwPosWrite (a : Access)
  /-- CUE_INTERPOLATE (R44). -/
  | cueInterpolate (ticks : Nat)
  /-- CUE_HOLDOVER_TIMEOUT (R47). -/
  | cueHoldoverTimeout
  /-- CUE_HOLD_EXPIRY (R48). -/
  | cueHoldExpiry
  /-- CUE_FRAME_EMIT (R41). -/
  | cueFrameEmit
  /-- PATH_DELAY_ECHO (R41). -/
  | pathDelayEcho
  /-- ECHO_READ_RESPONSE (R149). -/
  | echoReadResponse
  /-- CUE_EVENT_SET (R52). -/
  | cueEventSet (h : Hdr) (p : Bytes)
  /-- CUE_EVENT_CLEAR (R55). -/
  | cueEventClear (h : Hdr) (p : Bytes)
  /-- CUE_EVENT_FIRE (R54). -/
  | cueEventFire
  /-- PTM_EXCHANGE (R58). -/
  | ptmExchange (hostNs : Nat)
  /-- SQ_TAIL_WRITE (R63). -/
  | sqTailWrite (fn : Nat) (qp : Nat) (val : TailWrite)
  /-- CQ_HEAD_WRITE (R65). -/
  | cqHeadWrite (fn : Nat) (qp : Nat) (val : Nat)
  /-- CMD_CTRL_EN_SET (R97). -/
  | cmdCtrlEnSet (fn : Nat)
  /-- CMD_CTRL_EN_CLEAR (R83). -/
  | cmdCtrlEnClear (fn : Nat)
  /-- NOP (R79). -/
  | nop (h : Hdr) (p : Bytes)
  /-- OPEN_SESSION (R80). -/
  | openSession (h : Hdr) (p : Bytes)
  /-- CLOSE_SESSION (R83). -/
  | closeSession (h : Hdr) (p : Bytes)
  /-- SET_ROLE_KEY (R82). -/
  | setRoleKey (h : Hdr) (p : Bytes)
  /-- CREATE_QUEUE_PAIR (R98). -/
  | createQueuePair (h : Hdr) (p : Bytes)
  /-- DELETE_QUEUE_PAIR (R98). -/
  | deleteQueuePair (h : Hdr) (p : Bytes)
  /-- INTERMISSION_BEGIN (R86). -/
  | intermissionBegin (h : Hdr) (p : Bytes)
  /-- INTERMISSION_DRAINED (R86). -/
  | intermissionDrained (scope : Nat)
  /-- DRAIN_LIMIT_EXPIRY (R87). -/
  | drainLimitExpiry (scope : Nat)
  /-- INTERMISSION_END (R89). -/
  | intermissionEnd (h : Hdr) (p : Bytes)
  /-- INTERMISSION_AT_REACHED (R90). -/
  | intermissionAtReached (scope : Nat)
  /-- GET_STATE (R77). -/
  | getState (h : Hdr) (p : Bytes)
  /-- ABORT (R99). -/
  | abort (h : Hdr) (p : Bytes)
  /-- LOCKOUT_EXPIRY (R81). -/
  | lockoutExpiry (fn : Nat)
  /-- FORWARDED_COMMAND (R149). -/
  | forwardedCommand (member : Nat) (entry : Bytes) (params : Bytes) (readOk : Bool) (data : Bytes)
  /-- TROUPE_MEMBER_REPLY (R94). -/
  | troupeMemberReply (member : Nat) (entry : Bytes)
  /-- TROUPE_TIMEOUT (R94). -/
  | troupeTimeout (fwd : Nat)
  /-- NVME_CC_ENABLE (R102). -/
  | nvmeCcEnable (fn : Nat) (cc : Nat)
  /-- NVME_CC_DISABLE (R123). -/
  | nvmeCcDisable (fn : Nat) (cc : Nat)
  /-- NVME_SHUTDOWN (R123). -/
  | nvmeShutdown (fn : Nat) (cc : Nat)
  /-- NVME_SQ_DOORBELL (R102). -/
  | nvmeSqDoorbell (fn : Nat) (qid : Nat) (val : NvmeBell)
  /-- NVME_CQ_DOORBELL (R102). -/
  | nvmeCqDoorbell (fn : Nat) (qid : Nat) (val : Nat)
  /-- DELETE_IO_SQ (R103). -/
  | deleteIoSq (n : NvmeCmd)
  /-- CREATE_IO_SQ (R105). -/
  | createIoSq (n : NvmeCmd)
  /-- GET_LOG_PAGE (R103). -/
  | getLogPage (n : NvmeCmd)
  /-- DELETE_IO_CQ (R103). -/
  | deleteIoCq (n : NvmeCmd)
  /-- CREATE_IO_CQ (R105). -/
  | createIoCq (n : NvmeCmd)
  /-- IDENTIFY (R104). -/
  | identify (n : NvmeCmd)
  /-- NVME_ABORT (R128). -/
  | nvmeAbort (n : NvmeCmd)
  /-- SET_FEATURES (R105). -/
  | setFeatures (n : NvmeCmd)
  /-- GET_FEATURES (R104). -/
  | getFeatures (n : NvmeCmd)
  /-- ASYNC_EVENT_REQUEST (R103). -/
  | asyncEventRequest (n : NvmeCmd)
  /-- FLUSH (R121). -/
  | flush (n : NvmeCmd)
  /-- WRITE (R116). -/
  | write (n : NvmeCmd)
  /-- READ (R118). -/
  | read (n : NvmeCmd)
  /-- WRITE_ZEROES (R114). -/
  | writeZeroes (n : NvmeCmd)
  /-- DATASET_MANAGEMENT (R103). -/
  | datasetManagement (n : NvmeCmd)
  /-- WRITE_BUFFER_ADMIT (R116). -/
  | writeBufferAdmit
  /-- WB_DRAIN_START (R117). -/
  | wbDrainStart
  /-- WB_DRAIN_COMPLETE (R117). -/
  | wbDrainComplete (cid : Nat) (status : Nat)
  /-- REMOTE_READ_COMPLETE (R118). -/
  | remoteReadComplete (cid : Nat) (data : Bytes)
  /-- REMOTE_COMMAND_FAIL (R112). -/
  | remoteCommandFail (cid : Nat) (status : Nat)
  /-- CONNECT_TARGET (R108). -/
  | connectTarget (h : Hdr) (p : Bytes)
  /-- TARGET_ASSOCIATED (R108). -/
  | targetAssociated (target : Nat)
  /-- DISCONNECT_TARGET (R108). -/
  | disconnectTarget (h : Hdr) (p : Bytes)
  /-- ATTACH_NAMESPACE (R109). -/
  | attachNamespace (h : Hdr) (p : Bytes) (data : Bytes)
  /-- DETACH_NAMESPACE (R113). -/
  | detachNamespace (h : Hdr) (p : Bytes)
  /-- SET_NS_MODE (R122). -/
  | setNsMode (h : Hdr) (p : Bytes)
  /-- SET_WB_QUOTA (R115). -/
  | setWbQuota (h : Hdr) (p : Bytes)
  /-- GET_NS_STATUS (R107). -/
  | getNsStatus (h : Hdr) (p : Bytes)
  /-- DISCARD_DIRTY (R126). -/
  | discardDirty (h : Hdr) (p : Bytes)
  /-- LINK_UP (R133). -/
  | linkUp (port : Nat)
  /-- LINK_DOWN (R133). -/
  | linkDown (port : Nat)
  /-- FEC_DEGRADE (R132). -/
  | fecDegrade (port : Nat) (corrected : Nat)
  /-- FRAME_RECEIVED (R152). -/
  | frameReceived (port : Nat) (frame : Bytes) (own : Bool) (uncorr : Nat)
  /-- FRAME_RECIRCULATE (R158). -/
  | frameRecirculate (unit : Nat)
  /-- RDMA_WRITE_RECEIVED (R137). -/
  | rdmaWriteReceived (pkt : RdmaPkt)
  /-- RDMA_READ_REQUEST (R137). -/
  | rdmaReadRequest (pkt : RdmaPkt)
  /-- RDMA_READ_RESPONSE (R143). -/
  | rdmaReadResponse (pkt : RdmaPkt)
  /-- ACK_RECEIVED (R145). -/
  | ackReceived (pkt : RdmaPkt)
  /-- CNP_RECEIVED (R136). -/
  | cnpReceived (qpn : Nat)
  /-- QP_ACK_TIMEOUT (R145). -/
  | qpAckTimeout (qpn : Nat)
  /-- SPRAY_ACK_TIMER (R145). -/
  | sprayAckTimer (qpn : Nat)
  /-- QP_RECOVERY_START (R141). -/
  | qpRecoveryStart (qpn : Nat)
  /-- RECOVER_SEND_TIMER (R141). -/
  | recoverSendTimer (qpn : Nat)
  /-- RECOVER_RECEIVED (R141). -/
  | recoverReceived (pkt : RdmaPkt)
  /-- RECOVERY_ATTEMPT_TIMEOUT (R141). -/
  | recoveryAttemptTimeout (qpn : Nat)
  /-- RECOVERY_RETRY (R141). -/
  | recoveryRetry (qpn : Nat)
  /-- PATH_DOWN (R146). -/
  | pathDown (qpn : Nat) (path : Nat)
  /-- PATH_PROBE (R146). -/
  | pathProbe (qpn : Nat) (path : Nat) (answered : Bool)
  /-- NET_EVQ_HEAD_WRITE (R147). -/
  | netEvqHeadWrite (val : Nat)
  /-- CM_REQ_RECEIVED (R150). -/
  | cmReqReceived (src : Bytes) (req : Bytes)
  /-- CM_REP_RECEIVED (R150). -/
  | cmRepReceived (member : Nat) (rep : Bytes)
  /-- SET_PORT_MODE (R134). -/
  | setPortMode (h : Hdr) (p : Bytes)
  /-- GET_PORT_STATUS (R165). -/
  | getPortStatus (h : Hdr) (p : Bytes)
  /-- CREATE_QP (R139). -/
  | createQp (h : Hdr) (p : Bytes)
  /-- MODIFY_QP (R140). -/
  | modifyQp (h : Hdr) (p : Bytes)
  /-- DESTROY_QP (R140). -/
  | destroyQp (h : Hdr) (p : Bytes)
  /-- QUERY_QP (R139). -/
  | queryQp (h : Hdr) (p : Bytes)
  /-- SET_EVENT_QUEUE (R147). -/
  | setEventQueue (h : Hdr) (p : Bytes)
  /-- REGISTER_REGION (R137). -/
  | registerRegion (h : Hdr) (p : Bytes)
  /-- DEREGISTER_REGION (R137). -/
  | deregisterRegion (h : Hdr) (p : Bytes)
  /-- TROUPE_ADD_MEMBER (R148). -/
  | troupeAddMember (h : Hdr) (p : Bytes)
  /-- TROUPE_REMOVE_MEMBER (R148). -/
  | troupeRemoveMember (h : Hdr) (p : Bytes)
  /-- SET_CONTEXT_RESERVE (R162). -/
  | setContextReserve (h : Hdr) (p : Bytes)
  /-- HED_LOAD_GRAPH (R153). -/
  | hedLoadGraph (h : Hdr) (p : Bytes)
  /-- HED_SET_TABLE (R156). -/
  | hedSetTable (h : Hdr) (p : Bytes)
  /-- HED_ADD_ENTRY (R157). -/
  | hedAddEntry (h : Hdr) (p : Bytes)
  /-- HED_DEL_ENTRY (R157). -/
  | hedDelEntry (h : Hdr) (p : Bytes)
  /-- SET_PACKET_RING (R159). -/
  | setPacketRing (h : Hdr) (p : Bytes)
  /-- FLOW_AGE_EXPIRY (R161). -/
  | flowAgeExpiry (ctx : Nat)
  /-- CONTEXT_ERROR (R164). -/
  | contextError (ctx : Nat)
  /-- CIP_ASSIGN_PAGES (R169). -/
  | cipAssignPages (h : Hdr) (p : Bytes)
  /-- CIP_LOAD_KEY (R173). -/
  | cipLoadKey (h : Hdr) (p : Bytes)
  /-- CIP_CLEAR_PAGE (R172). -/
  | cipClearPage (h : Hdr) (p : Bytes)
  /-- CIP_CRYPT (R180). -/
  | cipCrypt (h : Hdr) (p : Bytes)
  /-- CIPHER_UNIT_DONE (R181). -/
  | cipherUnitDone (unit : Nat) (agree : Bool)
  /-- ESP_LANE_TIMEOUT (R178). -/
  | espLaneTimeout (page : Nat)
  /-- DRBG_RESEED (R182). -/
  | drbgReseed (lane : Nat)
  /-- SHU_OPEN_STREAM (R192). -/
  | shuOpenStream (h : Hdr) (p : Bytes)
  /-- SHU_CLOSE_STREAM (R200). -/
  | shuCloseStream (h : Hdr) (p : Bytes)
  /-- SHU_FEED (R213). -/
  | shuFeed (h : Hdr) (p : Bytes)
  /-- SHU_GET_STREAM (R196). -/
  | shuGetStream (h : Hdr) (p : Bytes)
  /-- SHU_SET_POLICY (R211). -/
  | shuSetPolicy (h : Hdr) (p : Bytes)
  /-- SHU_RETURN_OUTPUT (R202). -/
  | shuReturnOutput (h : Hdr) (p : Bytes)
  /-- SHU_SET_MEL (R215). -/
  | shuSetMel (h : Hdr) (p : Bytes)
  /-- STREAM_INPUT_READ (R195). -/
  | streamInputRead (stream : Nat) (data : Bytes) (ok : Bool)
  /-- PICTURE_DECODED (R201). -/
  | pictureDecoded (stream : Nat) (pic : Picture)
  /-- AUDIO_FRAME_DECODED (R208). -/
  | audioFrameDecoded (stream : Nat) (aud : AudioFrame)
  /-- CAPTION_CHANGE (R208). -/
  | captionChange (stream : Nat) (cap : Caption)
  /-- SLICE_REPARSE_DONE (R209). -/
  | sliceReparseDone (stream : Nat) (first : Nat) (ok : Bool)
  /-- CONTAINER_TIMEOUT (R194). -/
  | containerTimeout (stream : Nat)
  /-- TAP_LOAD_PROGRAM (R249). -/
  | tapLoadProgram (h : Hdr) (p : Bytes)
  /-- TAP_UNLOAD_PROGRAM (R272). -/
  | tapUnloadProgram (h : Hdr) (p : Bytes)
  /-- TAP_RUN (R253). -/
  | tapRun (h : Hdr) (p : Bytes)
  /-- TAP_BIND_QUEUE (R255). -/
  | tapBindQueue (h : Hdr) (p : Bytes)
  /-- TAP_UNBIND_QUEUE (R258). -/
  | tapUnbindQueue (h : Hdr) (p : Bytes)
  /-- TAP_GET_QUEUE (R272). -/
  | tapGetQueue (h : Hdr) (p : Bytes)
  /-- TAP_SET_POLICY (R272). -/
  | tapSetPolicy (h : Hdr) (p : Bytes)
  /-- QUEUE_WAIT_EXPIRY (R255). -/
  | queueWaitExpiry (queue : Nat)
  /-- SLICE_COMPLETE (R262). -/
  | sliceComplete (core : Nat) (cycles : Nat) (upsets : Upsets)
  /-- SLICE_OVERRUN (R261). -/
  | sliceOverrun (core : Nat)
  /-- CORE_JOIN (R264). -/
  | coreJoin (core : Nat)
  /-- LOOM_OPEN_JOB (R276). -/
  | loomOpenJob (h : Hdr) (p : Bytes)
  /-- LOOM_CLOSE_JOB (R299). -/
  | loomCloseJob (h : Hdr) (p : Bytes)
  /-- LOOM_ADD_WARP (R277). -/
  | loomAddWarp (h : Hdr) (p : Bytes)
  /-- LOOM_SET_LAYOUT (R291). -/
  | loomSetLayout (h : Hdr) (p : Bytes)
  /-- LOOM_START (R286). -/
  | loomStart (h : Hdr) (p : Bytes)
  /-- LOOM_GET_CURSOR (R298). -/
  | loomGetCursor (h : Hdr) (p : Bytes)
  /-- LOOM_SET_CURSOR (R298). -/
  | loomSetCursor (h : Hdr) (p : Bytes)
  /-- LOOM_GET_ORDER (R281). -/
  | loomGetOrder (h : Hdr) (p : Bytes)
  /-- LOOM_GET_JOB (R299). -/
  | loomGetJob (h : Hdr) (p : Bytes)
  /-- LOOM_SET_SHARE (R283). -/
  | loomSetShare (h : Hdr) (p : Bytes)
  /-- LOOM_FETCH_START (R285). -/
  | loomFetchStart (job : Nat)
  /-- INDEX_ENTRY_READ (R285). -/
  | indexEntryRead (job : Nat) (warp : Nat) (abs : Nat) (entry : Bytes)
  /-- SAMPLE_PAYLOAD_READ (R280). -/
  | samplePayloadRead (job : Nat) (warp : Nat) (abs : Nat) (data : Bytes)
  /-- SAMPLE_ADMIT (R292). -/
  | sampleAdmit (job : Nat) (warp : Nat) (block : Bytes) (src : Nat)
  /-- EXCHANGE_NOTICE (R288). -/
  | exchangeNotice (job : Nat) (entry : Bytes)
  /-- RESCUE_FETCH (R290). -/
  | rescueFetch (job : Nat) (warp : Nat) (abs : Nat)
  /-- WEAVE_CLOSE (R286). -/
  | weaveClose (job : Nat) (consumer : Nat)
  /-- FEED_SET_PORT (R301). -/
  | feedSetPort (h : Hdr) (p : Bytes)
  /-- FEED_ADMIT (R308). -/
  | feedAdmit (h : Hdr) (p : Bytes)
  /-- FEED_RELEASE (R307). -/
  | feedRelease (h : Hdr) (p : Bytes)
  /-- LATCH_ASSIGN (R310). -/
  | latchAssign (h : Hdr) (p : Bytes)
  /-- FEED_CREATE_RING (R313). -/
  | feedCreateRing (h : Hdr) (p : Bytes)
  /-- FEED_DESTROY_RING (R314). -/
  | feedDestroyRing (h : Hdr) (p : Bytes)
  /-- FEED_RESET_RING (R318). -/
  | feedResetRing (h : Hdr) (p : Bytes)
  /-- FEED_GET_RING (R336). -/
  | feedGetRing (h : Hdr) (p : Bytes)
  /-- FEED_JOIN (R335). -/
  | feedJoin (h : Hdr) (p : Bytes)
  /-- ACCEL_PRESENCE (R305). -/
  | accelPresence (accel : Nat)
  /-- ACCEL_ENUMERATED (R304). -/
  | accelEnumerated (accel : Nat) (ok : Bool) (funcs : List AccelFn) (speed : Nat) (width : Nat) (vendor : Nat) (device : Nat)
  /-- LINK_TRAINING_TIMEOUT (R304). -/
  | linkTrainingTimeout (accel : Nat)
  /-- ACCEL_RETRY_TIMER (R304). -/
  | accelRetryTimer (accel : Nat)
  /-- ACCEL_DEPARTED (R306). -/
  | accelDeparted (accel : Nat)
  /-- LATCH_ADD (R311). -/
  | latchAdd (w : Window) (latch : Nat) (size : Nat) (val : Nat)
  /-- LATCH_POST (R312). -/
  | latchPost (w : Window) (latch : Nat) (size : Nat) (val : Nat)
  /-- LATCH_VAL_WRITE (R311). -/
  | latchValWrite (a : Access)
  /-- LATCH_THRESH_WRITE (R311). -/
  | latchThreshWrite (a : Access)
  /-- LATCH_CFG_WRITE (R311). -/
  | latchCfgWrite (a : Access)
  /-- UPSTREAM_ACCESS (R303). -/
  | upstreamAccess (accel : Nat) (addr : Nat) (size : Nat) (kind : Upstream)
  /-- DELIVERY_ISSUE (R316). -/
  | deliveryIssue (ring : Nat)
  /-- DELIVERY_LANDED (R320). -/
  | deliveryLanded (ring : Nat) (n : Nat)
  /-- GEN_READ_RESPONSE (R328). -/
  | genReadResponse (ring : Nat) (n : Nat) (gen : Nat)
  /-- RING_RESET_READ_DONE (R318). -/
  | ringResetReadDone (ring : Nat)
  /-- CREDIT_MAILBOX_ENTRY (R327). -/
  | creditMailboxEntry (rkey : Nat) (entry : Bytes)
  /-- LAYOUT_NOTICE (R331). -/
  | layoutNotice (job : Nat) (entry : Bytes)
  /-- LAYOUT_ROUND_TIMEOUT (R331). -/
  | layoutRoundTimeout (job : Nat) (ring : Nat)
  /-- LAYOUT_REPROPOSE (R331). -/
  | layoutRepropose (job : Nat) (ring : Nat)
  /-- DETECTED_ERROR (R344). -/
  | detectedError (unit : Nat) (cause : ErrCause) (op : Nat) (detail : Nat)
  /-- CORRECTED_ERROR (R340). -/
  | correctedError (unit : Nat) (count : Nat) (byRetry : Bool)
  /-- MESH_DEGRADED (R338). -/
  | meshDegraded (link : MeshLink)
  /-- PATROL_SCRUB (R339). -/
  | patrolScrub (channel : Nat) (corrected : Nat)
  /-- UNCORRECTABLE_BURST (R352). -/
  | uncorrectableBurst (addr : Nat) (channel : Nat) (link : Bool) (both : Bool) (obj : BurstObj)
  /-- PARTITION_RESET_END (R352). -/
  | partitionResetEnd (part : Nat) (bad : List Nat)
  /-- CHANNEL_REMOVED (R350). -/
  | channelRemoved
  /-- RECORD_COALESCE_EXPIRY (R362). -/
  | recordCoalesceExpiry (unit : Nat) (code : Nat) (op : Nat)
  /-- IFT_DUE (R356). -/
  | iftDue (core : Nat)
  /-- IFT_COMPLETE (R358). -/
  | iftComplete (core : Nat) (passed : Bool) (pattern : Nat)
  /-- RAS_SET_ERROR_RING (R363). -/
  | rasSetErrorRing (h : Hdr) (p : Bytes)
  /-- RAS_ERROR_HEAD (R363). -/
  | rasErrorHead (h : Hdr) (p : Bytes)
  /-- RAS_GET_UNIT (R365). -/
  | rasGetUnit (h : Hdr) (p : Bytes)
  /-- RAS_FENCE_UNIT (R351). -/
  | rasFenceUnit (h : Hdr) (p : Bytes)
  /-- RAS_SET_TEST (R365). -/
  | rasSetTest (h : Hdr) (p : Bytes)
  /-- CKP_SET_JOB (R368). -/
  | ckpSetJob (h : Hdr) (p : Bytes)
  /-- CKP_SET_SHARDS (R369). -/
  | ckpSetShards (h : Hdr) (p : Bytes)
  /-- CKP_SET_TRIGGER (R372). -/
  | ckpSetTrigger (h : Hdr) (p : Bytes)
  /-- CKP_CAPTURE (R376). -/
  | ckpCapture (h : Hdr) (p : Bytes)
  /-- CKP_GET_JOB (R390). -/
  | ckpGetJob (h : Hdr) (p : Bytes)
  /-- CKP_RESTORE (R386). -/
  | ckpRestore (h : Hdr) (p : Bytes)
  /-- CKP_SET_SIGNERS (R382). -/
  | ckpSetSigners (h : Hdr) (p : Bytes)
  /-- CKP_CLOSE_JOB (R390). -/
  | ckpCloseJob (h : Hdr) (p : Bytes)
  /-- CKP_READ_BANK (R390). -/
  | ckpReadBank (h : Hdr) (p : Bytes)
  /-- CAPTURE_DECISION (R374). -/
  | captureDecision (job : Nat)
  /-- BANK_ZERO_ACK (R374). -/
  | bankZeroAck (job : Nat)
  /-- CAPTURE_START (R377). -/
  | captureStart (job : Nat)
  /-- SHARD_COPIED (R377). -/
  | shardCopied (job : Nat) (index : Nat) (data : Bytes) (ok : Bool)
  /-- SHARD_STORED (R378). -/
  | shardStored (job : Nat) (index : Nat)
  /-- CAPTURE_COMMIT (R381). -/
  | captureCommit (job : Nat)
  /-- PB_WRITE_FAIL (R379). -/
  | pbWriteFail (job : Nat) (status : Nat)
  /-- CHECKPOINT_NOTICE (R383). -/
  | checkpointNotice (job : Nat) (entry : Bytes)
  /-- DRAIN_COMPLETE (R384). -/
  | drainComplete (job : Nat)
  /-- RESTORE_SHARD_READ (R387). -/
  | restoreShardRead (job : Nat) (index : Nat) (data : Bytes) (remote : Bool)
  /-- STG_LOAD_GO (R394). -/
  | stgLoadGo (a : Access)
  /-- STG_LOAD_DONE (R395). -/
  | stgLoadDone (image : Bytes) (readOk : Bool)
  /-- WATCHDOG_EXPIRY (R400). -/
  | watchdogExpiry (core : Nat)
  /-- STAGEHAND_RESTARTED (R71). -/
  | stagehandRestarted (core : Nat)
  /-- FW_GET_INFO (R410). -/
  | fwGetInfo (h : Hdr) (p : Bytes)
  /-- FW_STAGE (R403). -/
  | fwStage (h : Hdr) (p : Bytes)
  /-- FW_VERIFY (R403). -/
  | fwVerify (h : Hdr) (p : Bytes)
  /-- FW_ACTIVATE (R404). -/
  | fwActivate (h : Hdr) (p : Bytes)
  /-- HANDOVER_CLEARANCE (R404). -/
  | handoverClearance
  /-- ACTIVATE_DEFER_TIMEOUT (R404). -/
  | activateDeferTimeout
  /-- HANDOVER_QUIESCED (R405). -/
  | handoverQuiesced
  /-- HANDOVER_QUIESCE_TIMEOUT (R406). -/
  | handoverQuiesceTimeout
  /-- HANDOVER_RESUMED (R405). -/
  | handoverResumed
  /-- TRIAL_EXPIRY (R407). -/
  | trialExpiry
  /-- FW_COMMIT (R407). -/
  | fwCommit (h : Hdr) (p : Bytes)
  /-- FW_ROLLBACK (R407). -/
  | fwRollback (h : Hdr) (p : Bytes)
  /-- FW_LOAD_MODULE (R408). -/
  | fwLoadModule (h : Hdr) (p : Bytes)
  /-- FW_UNLOAD_MODULE (R409). -/
  | fwUnloadModule (h : Hdr) (p : Bytes)
  /-- FW_SET_MODULE_KEY (R408). -/
  | fwSetModuleKey (h : Hdr) (p : Bytes)
  /-- ADD (R414). -/
  | add (core : Nat) (rd : Nat) (ra : Nat) (rb : Nat)
  /-- SUB (R414). -/
  | sub (core : Nat) (rd : Nat) (ra : Nat) (rb : Nat)
  /-- AND (R419). -/
  | andR (core : Nat) (rd : Nat) (ra : Nat) (rb : Nat)
  /-- OR (R419). -/
  | orR (core : Nat) (rd : Nat) (ra : Nat) (rb : Nat)
  /-- XOR (R419). -/
  | xorR (core : Nat) (rd : Nat) (ra : Nat) (rb : Nat)
  /-- SHL (R419). -/
  | shl (core : Nat) (rd : Nat) (ra : Nat) (rb : Nat)
  /-- SHR (R419). -/
  | shr (core : Nat) (rd : Nat) (ra : Nat) (rb : Nat)
  /-- SAR (R419). -/
  | sar (core : Nat) (rd : Nat) (ra : Nat) (rb : Nat)
  /-- MUL (R419). -/
  | mul (core : Nat) (rd : Nat) (ra : Nat) (rb : Nat)
  /-- MULHU (R419). -/
  | mulhu (core : Nat) (rd : Nat) (ra : Nat) (rb : Nat)
  /-- DIVU (R419). -/
  | divu (core : Nat) (rd : Nat) (ra : Nat) (rb : Nat)
  /-- REMU (R419). -/
  | remu (core : Nat) (rd : Nat) (ra : Nat) (rb : Nat)
  /-- MINU (R419). -/
  | minu (core : Nat) (rd : Nat) (ra : Nat) (rb : Nat)
  /-- MAXU (R419). -/
  | maxu (core : Nat) (rd : Nat) (ra : Nat) (rb : Nat)
  /-- MOV (R414). -/
  | movR (core : Nat) (rd : Nat) (ra : Nat)
  /-- SLTU (R419). -/
  | sltu (core : Nat) (rd : Nat) (ra : Nat) (rb : Nat)
  /-- ADDI (R414). -/
  | addi (core : Nat) (rd : Nat) (ra : Nat) (imm : Nat)
  /-- ANDI (R419). -/
  | andi (core : Nat) (rd : Nat) (ra : Nat) (imm : Nat)
  /-- ORI (R419). -/
  | ori (core : Nat) (rd : Nat) (ra : Nat) (imm : Nat)
  /-- XORI (R419). -/
  | xori (core : Nat) (rd : Nat) (ra : Nat) (imm : Nat)
  /-- SHIFTI_SHL (R419). -/
  | shiftiShl (core : Nat) (rd : Nat) (ra : Nat) (amount : Nat)
  /-- SHIFTI_SHR (R419). -/
  | shiftiShr (core : Nat) (rd : Nat) (ra : Nat) (amount : Nat)
  /-- SHIFTI_SAR (R419). -/
  | shiftiSar (core : Nat) (rd : Nat) (ra : Nat) (amount : Nat)
  /-- MOVZ (R419). -/
  | movz (core : Nat) (rd : Nat) (k : Nat) (imm : Nat)
  /-- MOVK (R419). -/
  | movk (core : Nat) (rd : Nat) (k : Nat) (imm : Nat)
  /-- LD64 (R417). -/
  | ld64 (core : Nat) (rd : Nat) (ra : Nat) (imm : Nat)
  /-- LD32U (R417). -/
  | ld32u (core : Nat) (rd : Nat) (ra : Nat) (imm : Nat)
  /-- LD16U (R417). -/
  | ld16u (core : Nat) (rd : Nat) (ra : Nat) (imm : Nat)
  /-- LD8U (R417). -/
  | ld8u (core : Nat) (rd : Nat) (ra : Nat) (imm : Nat)
  /-- ST64 (R417). -/
  | st64 (core : Nat) (rs : Nat) (ra : Nat) (imm : Nat)
  /-- ST32 (R417). -/
  | st32 (core : Nat) (rs : Nat) (ra : Nat) (imm : Nat)
  /-- ST16 (R417). -/
  | st16 (core : Nat) (rs : Nat) (ra : Nat) (imm : Nat)
  /-- ST8 (R417). -/
  | st8 (core : Nat) (rs : Nat) (ra : Nat) (imm : Nat)
  /-- BEQ (R414). -/
  | beq (core : Nat) (rs : Nat) (ra : Nat) (imm : Nat)
  /-- BNE (R414). -/
  | bne (core : Nat) (rs : Nat) (ra : Nat) (imm : Nat)
  /-- BLT (R414). -/
  | blt (core : Nat) (rs : Nat) (ra : Nat) (imm : Nat)
  /-- BGE (R414). -/
  | bge (core : Nat) (rs : Nat) (ra : Nat) (imm : Nat)
  /-- BLTU (R414). -/
  | bltu (core : Nat) (rs : Nat) (ra : Nat) (imm : Nat)
  /-- BGEU (R414). -/
  | bgeu (core : Nat) (rs : Nat) (ra : Nat) (imm : Nat)
  /-- JAL (R419). -/
  | jal (core : Nat) (imm : Nat)
  /-- JR (R419). -/
  | jr (core : Nat) (rd : Nat) (ra : Nat)
  /-- LOOP (R422). -/
  | loop (core : Nat) (level : Nat) (rc : Nat) (fin : Nat)
  /-- LOOPI (R422). -/
  | loopi (core : Nat) (level : Nat) (count : Nat) (fin : Nat)
  /-- CSRR (R419). -/
  | csrr (core : Nat) (rd : Nat) (imm : Nat)
  /-- CSRW (R419). -/
  | csrw (core : Nat) (rs : Nat) (imm : Nat)
  /-- TAG (R415). -/
  | tagR (core : Nat) (rd : Nat) (ra : Nat)
  /-- RETAG (R416). -/
  | retag (core : Nat) (rd : Nat) (ra : Nat) (tag : Nat)
  /-- TRAP (R431). -/
  | trap (core : Nat) (imm : Nat)
  /-- TRET (R431). -/
  | tret (core : Nat) (cls : Nat)
  /-- ADR (R419). -/
  | adr (core : Nat) (rd : Nat) (imm : Nat)
  /-- WAIT (R421). -/
  | wait (core : Nat) (rd : Nat) (rb : Nat)
  /-- WAIT_RETURN (R421). -/
  | waitReturn (core : Nat)
  /-- SHA256_INIT (R426). -/
  | sha256Init (core : Nat)
  /-- SHA256_UPD (R426). -/
  | sha256Upd (core : Nat) (ra : Nat) (rb : Nat)
  /-- SHA256_FIN (R426). -/
  | sha256Fin (core : Nat) (ra : Nat)
  /-- CRC32C (R426). -/
  | crc32c (core : Nat) (rd : Nat) (ra : Nat) (rb : Nat)
  /-- CRC64 (R426). -/
  | crc64 (core : Nat) (rd : Nat) (ra : Nat) (rb : Nat)
  /-- WALK (R429). -/
  | walk (core : Nat) (rd : Nat) (ra : Nat) (rb : Nat)
  /-- CTX_RD (R426). -/
  | ctxRd (core : Nat) (ra : Nat) (rb : Nat)
  /-- CTX_WR (R426). -/
  | ctxWr (core : Nat) (ra : Nat) (rb : Nat)
  /-- CTX_PIN (R426). -/
  | ctxPin (core : Nat) (ra : Nat)
  /-- CTX_UNPIN (R426). -/
  | ctxUnpin (core : Nat) (ra : Nat)
  /-- CB_RAISE (R426). -/
  | cbRaise (core : Nat) (ra : Nat)
  /-- CB_PEND (R444). -/
  | cbPend (core : Nat) (rd : Nat)
  /-- CB_DONE (R445). -/
  | cbDone (core : Nat) (ra : Nat)
  /-- LT_READ (R426). -/
  | ltRead (core : Nat) (rd : Nat) (ra : Nat)
  /-- LT_ADD (R311). -/
  | ltAdd (core : Nat) (ra : Nat) (rb : Nat)
  /-- LT_THRESH (R426). -/
  | ltThresh (core : Nat) (ra : Nat) (rb : Nat)
  /-- DMA_COPY (R427). -/
  | dmaCopy (core : Nat) (rd : Nat) (ra : Nat) (host : Bytes) (err : Nat)
  /-- DMA_WIN (R428). -/
  | dmaWin (core : Nat) (rd : Nat) (ra : Nat)
  /-- MODULE_BUDGET_EXPIRY (R433). -/
  | moduleBudgetExpiry (core : Nat)
  /-- CALL_ASSIGN (R437). -/
  | callAssign (h : Hdr) (p : Bytes)
  /-- CALL_MASK_SET (R438). -/
  | callMaskSet (a : Access)
  /-- CALL_MASK_CLR (R438). -/
  | callMaskClr (a : Access)
  /-- CALL_PEND_SET (R439). -/
  | callPendSet (a : Access)
  /-- CALL_PEND_CLR (R439). -/
  | callPendClr (a : Access)
  /-- CALL_V_TAKE (R444). -/
  | callVTake (fn : Nat) (vec : Nat)
  /-- CALL_V_DONE (R445). -/
  | callVDone (fn : Nat) (vec : Nat) (src : Nat)
  /-- MODERATION_EXPIRY (R448). -/
  | moderationExpiry (fn : Nat) (vec : Nat)
  /-- MSIX_UNMASK (R449). -/
  | msixUnmask (fn : Nat) (vec : Nat)
  /-- FLR (R457). -/
  | flr (fn : Nat)
  /-- FLR_COMPLETE (R457). -/
  | flrComplete (fn : Nat)
  /-- VF_ENABLE_SET (R453). -/
  | vfEnableSet (num : Nat)
  /-- VF_ENABLE_CLEAR (R459). -/
  | vfEnableClear
  /-- BAR_RESIZE (R455). -/
  | barResize (vf : Bool) (size : Nat)
  /-- MBOX_SEQ_WRITE (R463). -/
  | mboxSeqWrite (a : Access)
  /-- MBOX_ACK_WRITE (R464). -/
  | mboxAckWrite (a : Access)
  /-- VF_SET_RESOURCES (R460). -/
  | vfSetResources (h : Hdr) (p : Bytes)
  /-- VF_GET_RESOURCES (R475). -/
  | vfGetResources (h : Hdr) (p : Bytes)
  /-- VF_SET_MBOX (R464). -/
  | vfSetMbox (h : Hdr) (p : Bytes)
  /-- VF_TRACK_START (R465). -/
  | vfTrackStart (h : Hdr) (p : Bytes)
  /-- VF_TRACK_SYNC (R466). -/
  | vfTrackSync (h : Hdr) (p : Bytes)
  /-- VF_TRACK_STOP (R466). -/
  | vfTrackStop (h : Hdr) (p : Bytes)
  /-- VF_FREEZE (R467). -/
  | vfFreeze (h : Hdr) (p : Bytes)
  /-- VF_FROZEN (R467). -/
  | vfFrozen (vf : Nat)
  /-- VF_FREEZE_DRAIN_LIMIT (R467). -/
  | vfFreezeDrainLimit (vf : Nat)
  /-- VF_SAVE_PRECOPY (R469). -/
  | vfSavePrecopy (h : Hdr) (p : Bytes)
  /-- VF_SAVE_FINAL (R469). -/
  | vfSaveFinal (h : Hdr) (p : Bytes)
  /-- VF_RESTORE (R471). -/
  | vfRestore (h : Hdr) (p : Bytes) (data : Bytes)
  /-- VF_RESUME (R473). -/
  | vfResume (h : Hdr) (p : Bytes)
  /-- VF_SET_MIG_KEY (R470). -/
  | vfSetMigKey (h : Hdr) (p : Bytes)
  /-- SM_BOOT (R478). -/
  | smBoot
  /-- SM_WATCHDOG_EXPIRY (R479). -/
  | smWatchdogExpiry
  /-- SENSOR_SAMPLE (R482). -/
  | sensorSample (index : Nat) (reading : Reading)
  /-- STORE_BANK_COMPARE (R489). -/
  | storeBankCompare (same : Bool)
  /-- GET_VERSION (R493). -/
  | getVersion (medium : Nat) (req : Bytes)
  /-- GET_CAPABILITIES (R493). -/
  | getCapabilities (medium : Nat) (req : Bytes)
  /-- NEGOTIATE_ALGORITHMS (R493). -/
  | negotiateAlgorithms (medium : Nat) (req : Bytes)
  /-- GET_DIGESTS (R493). -/
  | getDigests (medium : Nat) (req : Bytes)
  /-- GET_CERTIFICATE (R493). -/
  | getCertificate (medium : Nat) (req : Bytes)
  /-- CHALLENGE (R493). -/
  | challenge (medium : Nat) (req : Bytes)
  /-- GET_MEASUREMENTS (R494). -/
  | getMeasurements (medium : Nat) (req : Bytes)
  /-- KEY_EXCHANGE (R493). -/
  | keyExchange (medium : Nat) (req : Bytes)
  /-- FINISH (R493). -/
  | finish (medium : Nat) (sess : Nat) (req : Bytes)
  /-- KEY_UPDATE (R493). -/
  | keyUpdate (medium : Nat) (sess : Nat) (req : Bytes)
  /-- END_SESSION (R493). -/
  | endSession (medium : Nat) (sess : Nat) (req : Bytes)
  /-- MCTP_CONTROL (R496). -/
  | mctpControl (medium : Nat) (req : Bytes)
  /-- MGMT_COMMAND (R496). -/
  | mgmtCommand (sess : Nat) (packet : Bytes) (data : Bytes)
  /-- MGMT_SCAN_REQUEST (R518). -/
  | mgmtScanRequest (sess : Nat) (req : Bytes)
  /-- PLDM_BASE (R498). -/
  | pldmBase (medium : Nat) (req : Bytes)
  /-- PLDM_PLATFORM (R498). -/
  | pldmPlatform (medium : Nat) (req : Bytes)
  /-- PLDM_FRU (R498). -/
  | pldmFru (medium : Nat) (req : Bytes)
  /-- PLDM_FIRMWARE_UPDATE (R500). -/
  | pldmFirmwareUpdate (medium : Nat) (sess : Nat) (req : Bytes)
  /-- SET_EVENT_RECEIVER (R499). -/
  | setEventReceiver (medium : Nat) (eid : Nat)
  /-- HEALTH_RESEND_TIMER (R499). -/
  | healthResendTimer (acked : Bool)
  /-- ACTIVATE_FIRMWARE (R501). -/
  | activateFirmware (medium : Nat) (sess : Nat) (req : Bytes)
  /-- SM_ACTIVATE_CLEARANCE (R501). -/
  | smActivateClearance
  /-- SM_ACTIVATE_TIMEOUT (R501). -/
  | smActivateTimeout
  /-- SM_FW_CONFIRM (R502). -/
  | smFwConfirm
  /-- SM_TRIAL_TIMEOUT (R502). -/
  | smTrialTimeout
  /-- SM_READ_LOG (R503). -/
  | smReadLog (h : Hdr) (p : Bytes)
  /-- SM_SET_OPERATOR_KEY (R503). -/
  | smSetOperatorKey (h : Hdr) (p : Bytes)
  /-- SM_SET_THRESHOLD (R503). -/
  | smSetThreshold (h : Hdr) (p : Bytes)
  /-- SM_SET_FW_KEY (R503). -/
  | smSetFwKey (h : Hdr) (p : Bytes)
  /-- SM_SET_MGMT (R503). -/
  | smSetMgmt (h : Hdr) (p : Bytes)
  /-- MGMT_CONFIG_APPLY (R503). -/
  | mgmtConfigApply
  /-- OBS_SET_SNAP_AREA (R507). -/
  | obsSetSnapArea (h : Hdr) (p : Bytes)
  /-- OBS_SNAP_HEAD (R507). -/
  | obsSnapHead (h : Hdr) (p : Bytes)
  /-- OBS_SET_COUNTER (R509). -/
  | obsSetCounter (h : Hdr) (p : Bytes)
  /-- OBS_TRACE_CFG (R511). -/
  | obsTraceCfg (h : Hdr) (p : Bytes)
  /-- OBS_TRACE_START (R512). -/
  | obsTraceStart (h : Hdr) (p : Bytes)
  /-- OBS_TRACE_STOP (R514). -/
  | obsTraceStop (h : Hdr) (p : Bytes)
  /-- OBS_TRIGGER (R513). -/
  | obsTrigger (h : Hdr) (p : Bytes)
  /-- OBS_TRACE_READ (R514). -/
  | obsTraceRead (h : Hdr) (p : Bytes)
  /-- OBS_TABLEAU (R515). -/
  | obsTableau (h : Hdr) (p : Bytes)
  /-- OBS_CLEAR_COUNTERS (R521). -/
  | obsClearCounters (h : Hdr) (p : Bytes)
  /-- TABLEAU_STOPPED (R517). -/
  | tableauStopped
  /-- JTAG_ACCESS (R518). -/
  | jtagAccess (space : Nat) (addr : Nat) (len : Nat)
  /-- POWER_CONTROL_TICK (R527). -/
  | powerControlTick
  /-- THERMAL_CAP_STEP (R530). -/
  | thermalCapStep
  /-- PWR_SET_CAP (R529). -/
  | pwrSetCap (h : Hdr) (p : Bytes)
  /-- PWR_SET_CONFIG (R529). -/
  | pwrSetConfig (h : Hdr) (p : Bytes)
  /-- EPR_N_LOW (R531). -/
  | eprNLow
  /-- EPR_N_HIGH (R531). -/
  | eprNHigh
  /-- EPR_HOLD_EXPIRY (R531). -/
  | eprHoldExpiry
  /-- AON_POWER_UP (R551). -/
  | aonPowerUp (straps : Straps)
  /-- AON_POWER_OFF (R554). -/
  | aonPowerOff
  /-- INPUT_OUT_OF_RANGE (R554). -/
  | inputOutOfRange
  /-- INPUT_RESTORED (R554). -/
  | inputRestored
  /-- PWR_EN_HIGH (R551). -/
  | pwrEnHigh
  /-- PWR_EN_LOW (R553). -/
  | pwrEnLow
  /-- MAIN_POWER_UP (R551). -/
  | mainPowerUp
  /-- MAIN_DOMAIN_READY (R543). -/
  | mainDomainReady
  /-- SYS_RST_ASSERT (R556). -/
  | sysRstAssert
  /-- SYS_RST_RELEASE (R556). -/
  | sysRstRelease
  /-- HP_PERST_ASSERT (R556). -/
  | hpPerstAssert
  /-- PERST_RESET_HOLD_EXPIRY (R556). -/
  | perstResetHoldExpiry
  /-- HP_PERST_RELEASE (R551). -/
  | hpPerstRelease
  /-- TABLEAU_N_FALL (R544). -/
  | tableauNFall
  /-- HANDOVER_STEP4_TIMEOUT (R407). -/
  | handoverStep4Timeout
  /-- STO_TARGET_UNREACHABLE (R108). -/
  | stoTargetUnreachable (target : Nat)
  /-- REJ_RECEIVED (R150). -/
  | rejReceived (member : Nat)
  /-- RTU_RECEIVED (R150). -/
  | rtuReceived (member : Nat)
  /-- NET_PEER_UNREACHABLE (R148). -/
  | netPeerUnreachable (member : Nat)
  /-- HOST_LINK_UP (R552). -/
  | hostLinkUp
  /-- DYNAMIC_ADDRESS_ASSIGNED (R495). -/
  | dynamicAddressAssigned (addr : Nat)
  /-- ALERT_N_ASSERT (R546). -/
  | alertNAssert
deriving DecidableEq, Repr

end Sys2Proof
end

