-- ==== Sys2Proof/Decode.lean ====
section
/-!
DEFINITION. The command that a word spells. No row of spec/opcode_table.json gives bits: commands reach the block as
accesses, packets, pins and events, never as words of one encoding.
-/
namespace Sys2Proof

/-- The command spelt by a word of `nbits` bits: none, since no row gives bits. -/
def decodeTableWord (_nbits _w : Nat) : Option Instr := none

end Sys2Proof
end

