-- ==== Sys2Proof/Config.lean ====
section
/-!
DEFINITION. What the spec leaves open and what an implementation fixes, as constants without a body: a claim about one
holds whatever it is.
-/
namespace Sys2Proof.Config

/-- A value the spec leaves open, numbered by `State.free` (log entry 3). -/
opaque freeNat : Nat → Nat

/-- Bytes the spec leaves open, numbered by `State.free`, as many as asked (log entry 3). -/
opaque freeBytes : Nat → Nat → Bytes

/-- The 8-byte Device Serial Number of the factory record (R488). -/
opaque serial : Nat

/-- Whether a P-256 signature verifies over a digest under a public key (R392, R393, R382); the arithmetic of ECDSA is
a standard's (log entry 5). -/
opaque ecdsaVerify : Bytes → Bytes → Bytes → Bool

/-- The signature of the device key over a digest (R382, R492). -/
opaque ecdsaSign : Bytes → Bytes

/-- The device key's public half, x then y (R381, R492). -/
opaque devKey : Bytes

/-- AES-GCM (R173): key, nonce, additional data and plaintext give ciphertext and tag (log entry 5). -/
opaque gcmSeal : Bytes → Bytes → Bytes → Bytes → Bytes × Bytes

/-- AES-GCM opened: the plaintext, none when the tag does not match. -/
opaque gcmOpen : Bytes → Bytes → Bytes → Bytes → Bytes → Option Bytes

/-- Whether the input of a stream so far holds the PMT, header partition or moov box of a program (R194): container, program, every byte
from the first on; the containers are standards' (log entry 5). -/
opaque holdsProgram : Nat → Nat → Bytes → Bool

/-- Whether the program that those bytes hold lacks a selected PID or track (Table 7.6). -/
opaque lacksTrack : Nat → Nat → Bytes → List Nat → Bool

/-- Whether the average of two samples whose sum is odd is rounded up when a field is line-doubled (Table 7.9). -/
opaque bobUp : Nat → Nat → Bool

/-- The table functions inside their domains, FP32 to FP32 (R234, Table 8.6); their results lie within a relative error
of 2^-20 of the exact function, and no more is stated of them (log entry 19). -/
opaque gelu : Nat → Nat
opaque silu : Nat → Nat
opaque expTab : Nat → Nat
opaque recipTab : Nat → Nat
opaque rsqrtTab : Nat → Nat

/-- The Tapestry clock in MHz that holds a power cap in W (R528, Table 9.14). -/
opaque capClock : Nat → Nat

/-- A fresh 64-bit seed from the entropy source, by the number of the draw (R230). -/
opaque entropy : Nat → Nat

/-- A key digest of the factory record: 0 the Nolounel firmware digest fused in the east wing (R478), 3 the stagehand
firmware key digest (Table 18.6). -/
opaque factoryDigest : Nat → Bytes

/-- WARN_HI, CRIT_HI, WARN_LO and CRIT_LO of a sensor in the factory record (Table 18.6); those of sensor 64 are stated
(R554). -/
opaque factoryThr : Nat → Int × Int × Int × Int

/-- The minimum SVNs of the factory record: 4 of the stagehand image, 5 of the stage manager (Table 18.6). -/
opaque factorySvn : Nat → Nat

/-- Whether a firmware bank's P-256 signature verifies against a key whose SHA-256 is the digest given (R478); the spec gives
the image no layout (log entry 33). -/
opaque smImageSigned : Bytes → Bytes → Bool

/-- The SVN of a firmware bank's image (R478). -/
opaque smImageSvn : Bytes → Nat

/-- The certificate chain of SPDM slot 0 (R492). -/
opaque certChain : Bytes

/-- Whether the proof of possession in a FINISH request is right for a session (DSP0274); its keys are a standard's. -/
opaque spdmFinishOk : Nat → Bytes → Bool

/-- The endpoint ID of the management lane that a body of item 8 gives (R495); the spec gives the body no layout. -/
opaque mgmtEid : Bytes → Nat

/-- A field of a module image, by its place in the table of R408: 0 CLASS, 1 LEAST_ROLE, 2 MOD_ABI, 3 LEN, 4 RESIDENT,
5 CP_MASK, 6 AREA_KIB, 7 BUDGET_US; the spec gives their offsets nowhere (log entry 31). -/
opaque moduleField : Nat → Bytes → Nat

/-- Whether a byte of a space of the Tableau's read-out lies in the key store or in a lane's key registers, which read 0 (R171); the spec
lays out no such space (log entry 3). -/
opaque keyScanned : Nat → Nat → Bool

/-- The bits of the NVMe CAP register that neither the spec nor the values of Table 4.2 give (R102, R104; log entry 3). -/
opaque nvmeCapRest : Nat

end Sys2Proof.Config
end

