-- ==== Sys2Proof/Machine/Crc.lean ====
section
/-!
DEFINITION. Bytes as little-endian numbers, and the check codes and hash that the spec names: CRC-8 (R39), CRC-32C
(R69, R360), CRC-64 (R201) and SHA-256 (R393, R426).
-/
namespace Sys2Proof.Machine

/-- The little-endian number of a list of bytes (R13). -/
def leNat : Bytes → Nat
  | [] => 0
  | b :: t => b.toNat + 256 * leNat t

/-- The `n` bytes of a number, little-endian. -/
def leBytes : Nat → Nat → Bytes
  | 0, _ => []
  | n + 1, v => BitVec.ofNat 8 v :: leBytes n (v / 256)

/-- The `n` bytes of a number, big-endian: network header fields (R13). -/
def beBytes (n v : Nat) : Bytes := (leBytes n v).reverse

/-- The big-endian number of a list of bytes. -/
def beNat (b : Bytes) : Nat := leNat b.reverse

/-- Field of `n` bytes at offset `off`; bytes beyond the end read 0. -/
def fld (b : Bytes) (off n : Nat) : Nat := leNat ((b.drop off).take n)

/-- Big-endian field of `n` bytes at offset `off`. -/
def fldBE (b : Bytes) (off n : Nat) : Nat := beNat ((b.drop off).take n)

/-- Bytes `off` to `off + n - 1`. -/
def sub (b : Bytes) (off n : Nat) : Bytes := (b.drop off).take n

/-- Bits `[lo + w - 1 : lo]` of a number. -/
def bits (v lo w : Nat) : Nat := v / 2 ^ lo % 2 ^ w

/-- Bit `i` of a number. -/
def bit (v i : Nat) : Bool := v.testBit i

/-- The number of a flag. -/
def b2n (b : Bool) : Nat := if b then 1 else 0

/-- `n` zero bytes. -/
def zeros (n : Nat) : Bytes := List.replicate n 0

/-- `b` as exactly `n` bytes: cut, or filled with zeros. -/
def padTo (n : Nat) (b : Bytes) : Bytes := (b.take n) ++ zeros (n - b.length)

/-- A signed number of `w` bits. -/
def signed (w v : Nat) : Int := if v % 2 ^ w < 2 ^ (w - 1) then (v % 2 ^ w : Nat) else (v % 2 ^ w : Nat) - 2 ^ w

/-- The `w`-bit pattern of a signed number. -/
def unsigned (w : Nat) (v : Int) : Nat := (v % 2 ^ w).toNat

/-- The smaller of a count and its saturation limit. -/
def satu (limit v : Nat) : Nat := if limit < v then limit else v

/-- One bit of a reflected CRC of polynomial `poly`. -/
def crcBit (poly c : Nat) : Nat := if c % 2 = 1 then (c / 2) ^^^ poly else c / 2

/-- One byte into a reflected CRC register. -/
def crcByte (poly : Nat) (c : Nat) (b : Byte) : Nat :=
  let x := c ^^^ b.toNat
  crcBit poly (crcBit poly (crcBit poly (crcBit poly (crcBit poly (crcBit poly (crcBit poly (crcBit poly x)))))))

/-- CRC-32C continued from the check `seed` of earlier bytes; 0 begins a new check (Table 15.6). -/
def crc32cFrom (seed : Nat) (b : Bytes) : Nat :=
  (b.foldl (crcByte 0x82F63B78) (seed ^^^ 0xFFFFFFFF)) ^^^ 0xFFFFFFFF

/-- CRC-32C of a string of bytes. -/
def crc32c (b : Bytes) : Nat := crc32cFrom 0 b

/-- CRC-64 ECMA-182 in reflected form (R201), continued from the check of earlier bytes. -/
def crc64From (seed : Nat) (b : Bytes) : Nat :=
  (b.foldl (crcByte 0xC96C5795D7870F42) (seed ^^^ 0xFFFFFFFFFFFFFFFF)) ^^^ 0xFFFFFFFFFFFFFFFF

/-- CRC-64 of a string of bytes (R201). -/
def crc64 (b : Bytes) : Nat := crc64From 0 b

/-- One bit of CRC-8 with polynomial 0x07, most significant bit first (R39). -/
def crc8Bit (c : Nat) : Nat := if 128 ≤ c then ((2 * c) ^^^ 0x107) % 256 else 2 * c

/-- CRC-8 of the bytes of a number, most significant first (R39). -/
def crc8 (b : Bytes) : Nat :=
  b.foldl (fun c x =>
    let y := c ^^^ x.toNat
    crc8Bit (crc8Bit (crc8Bit (crc8Bit (crc8Bit (crc8Bit (crc8Bit (crc8Bit y)))))))) 0

/-- The largest number of at most `n` bits above `r` whose `k`-th power does not exceed a bound, found bit by bit from the top. -/
def rootBelow (k bound : Nat) : Nat → Nat → Nat
  | 0, r => r
  | n + 1, r => rootBelow k bound n (if (r + 2 ^ n) ^ k ≤ bound then r + 2 ^ n else r)

/-- The first 32 bits after the point of the `k`-th root of a number below 512. -/
def rootFraction (k p : Nat) : Nat := rootBelow k (p * 2 ^ (32 * k)) 37 0 % 4294967296

/-- The primes below a limit up to 324: those that no smaller number from 2 to 17 divides. -/
def primesBelow (limit : Nat) : List Nat :=
  ((List.range limit).drop 2).filter (fun p => (((List.range 18).drop 2).filter (fun d => decide (d < p))).all (fun d => p % d != 0))

/-- The round constants of SHA-256: the cube roots of the first 64 primes. -/
def shaK : List Nat := (primesBelow 312).map (rootFraction 3)

/-- The starting words of SHA-256: the square roots of the first eight primes. -/
def shaStart : List Nat := (primesBelow 20).map (rootFraction 2)

/-- A 32-bit rotation right. -/
def rotr (x n : Nat) : Nat := (x / 2 ^ n + x * 2 ^ (32 - n)) % 4294967296

/-- The message schedule of SHA-256: 48 further words after the 16 of the block, the newest first. -/
def shaSched : Nat → List Nat → List Nat
  | 0, w => w
  | n + 1, w =>
    let w15 := w.getD 14 0
    let w2 := w.getD 1 0
    let s0 := rotr w15 7 ^^^ rotr w15 18 ^^^ (w15 / 8)
    let s1 := rotr w2 17 ^^^ rotr w2 19 ^^^ (w2 / 1024)
    shaSched n ((w.getD 15 0 + s0 + w.getD 6 0 + s1) % 4294967296 :: w)

/-- The eight working words of SHA-256. -/
structure ShaRegs where
  a : Nat
  b : Nat
  c : Nat
  d : Nat
  e : Nat
  f : Nat
  g : Nat
  h : Nat
deriving DecidableEq, Repr

/-- One round of SHA-256. -/
def shaRound (r : ShaRegs) (kw : Nat × Nat) : ShaRegs :=
  let s1 := rotr r.e 6 ^^^ rotr r.e 11 ^^^ rotr r.e 25
  let ch := (r.e &&& r.f) ^^^ ((r.e ^^^ 0xFFFFFFFF) &&& r.g)
  let t1 := r.h + s1 + ch + kw.1 + kw.2
  let s0 := rotr r.a 2 ^^^ rotr r.a 13 ^^^ rotr r.a 22
  let mj := (r.a &&& r.b) ^^^ (r.a &&& r.c) ^^^ (r.b &&& r.c)
  { a := (t1 + s0 + mj) % 4294967296, b := r.a, c := r.b, d := r.c, e := (r.d + t1) % 4294967296, f := r.e,
    g := r.f, h := r.g }

/-- One block of SHA-256 with the round constants given. -/
def shaBlock (ks : List Nat) (r : ShaRegs) (w : List Nat) : ShaRegs :=
  let q := (ks.zip (shaSched 48 w.reverse).reverse).foldl shaRound r
  let m := 4294967296
  { a := (r.a + q.a) % m, b := (r.b + q.b) % m, c := (r.c + q.c) % m, d := (r.d + q.d) % m, e := (r.e + q.e) % m,
    f := (r.f + q.f) % m, g := (r.g + q.g) % m, h := (r.h + q.h) % m }

/-- The words of a block, most significant byte first. -/
def shaWords (b : Bytes) : Nat → List Nat
  | 0 => []
  | n + 1 => fldBE b 0 4 :: shaWords (b.drop 4) n

/-- The blocks of a padded message. -/
def shaBlocks (ks : List Nat) : Nat → Bytes → ShaRegs → ShaRegs
  | 0, _, r => r
  | n + 1, b, r => shaBlocks ks n (b.drop 64) (shaBlock ks r (shaWords b 16))

/-- SHA-256 of a string of bytes. -/
def sha256 (b : Bytes) : Bytes :=
  let n := b.length
  let pad := (119 - n % 64) % 64
  let m := b ++ [0x80] ++ zeros pad ++ beBytes 8 (8 * n)
  let w := fun i => shaStart.getD i 0
  let r := shaBlocks shaK (m.length / 64) m { a := w 0, b := w 1, c := w 2, d := w 3, e := w 4, f := w 5, g := w 6, h := w 7 }
  beBytes 4 r.a ++ beBytes 4 r.b ++ beBytes 4 r.c ++ beBytes 4 r.d ++ beBytes 4 r.e ++ beBytes 4 r.f ++
    beBytes 4 r.g ++ beBytes 4 r.h

end Sys2Proof.Machine
end

