-- ==== Sys2Proof/Machine/State.lean ====
section
/-!
DEFINITION. The machine's state as plain data. One structure per block of the spec; a field's docstring names the rule
of spec/ that gives it. A field's default value is its value in `State.reset`: the always-on domain has just powered
up, the stage manager has not booted and the main domain is unpowered, with every register at its Reset column.
-/
namespace Sys2Proof.Machine

/-- The parts of Table 0.1 (R3). -/
inductive Part where
  | a64 | x64 | a48
deriving DecidableEq, Repr

/-- The phases of the main domain (R551, R553, R556). -/
inductive MainPhase where
  | off | reset | init | ready
deriving DecidableEq, Repr

/-- The cue sources (R37). -/
inductive CueSrc where
  | none | serial | eth | software
deriving DecidableEq, Repr

/-- The cue states (R46). -/
inductive CueState where
  | none | acquiring | locked | holdover | lost
deriving DecidableEq, Repr

/-- The states of an intermission (R86, R90). -/
inductive InterPhase where
  | draining | intermission | restarting
deriving DecidableEq, Repr

/-- What an outstanding NVMe command waits for (R88, R116, R118, R120, R121, R128): the end of an intermission or of a
partition reset, space in the write buffer, remote reads, or acknowledgements of the backing. -/
inductive NvmeWait where
  | held | space | read | ack | flush | other
deriving DecidableEq, Repr

/-- What a remote command does (R117, R118, R176). -/
inductive RemKind where
  | read | drain | tagRead | tagWrite
deriving DecidableEq, Repr

/-- The states of a namespace (R111). -/
inductive NsState where
  | online | backingDown | writeFailed | detaching
deriving DecidableEq, Repr

/-- What completes when an RDMA message is acknowledged (R145). -/
inductive TxOp where
  | other
  | fwd (id : Nat)
  | reply (id : Nat)
  | cueFrame
  | remoteIo (cid : Nat)
  | delivery (ring n : Nat)
  | notice
  | echo (member : Nat)
  | genRead (ring n : Nat)
  | resetRead (ring : Nat)
  | rescue (job n : Nat)
  | params (id : Nat)
  | notify
deriving DecidableEq, Repr

/-- The states of an RDMA queue pair (R139). -/
inductive QpState where
  | reset | init | rtr | rts | error | recovering
deriving DecidableEq, Repr

/-- Who uses an RDMA queue pair (R148, R108, R288, R326). -/
inductive QpOwner where
  | manager
  | troupeCtrl (member : Nat)
  | troupeData (member : Nat)
  | target (h : Nat)
  | exchange (job rank : Nat)
deriving DecidableEq, Repr

/-- Who registered a region (R137, R150, R288, R327, R330, R383). -/
inductive RegionOwner where
  | host
  | troupe (member : Nat)
  | exchange (job : Nat)
  | layout (job : Nat)
  | credit (ring : Nat)
  | checkpoint (job : Nat)
deriving DecidableEq, Repr

/-- The states of a key page (R172). -/
inductive KpState where
  | empty | ready | exhausted | zeroising
deriving DecidableEq, Repr

/-- What a unit of a cipher lane belongs to (R167, R174, R178, R180). -/
inductive CipUse where
  | esp
  | seal (cid blk : Nat)
  | open_ (cid blk : Nat)
  | tls (id : Nat)
deriving DecidableEq, Repr

/-- What leaves the device (the model's own record of its outputs). -/
inductive OutKind where
  /-- A 32-byte reply in a completion queue: a = function, b = queue pair, c = entry index (R67). -/
  | reply
  /-- A reply returned over the management network: a = SPDM session (R496). -/
  | mgmtReply
  /-- Bytes written to host memory: a = function, b = address. -/
  | hostWrite
  /-- A read of host memory: a = function, b = address, c = length. -/
  | hostRead
  /-- Data returned to a host read of a BAR: a = function, b = offset, c = value (R27, R33). -/
  | barRead
  /-- A host access answered with Unsupported Request: a = function, b = address (R457). -/
  | unsupported
  /-- An NVMe completion: a = controller, b = queue, c = status (R103). -/
  | nvmeCqe
  /-- An MSI-X message: a = function, b = vector, c = data (R449). -/
  | msix
  /-- An RDMA packet or message: a = QPN, b = PSN or MSN, c = code of its kind (R135). -/
  | rdma
  /-- A message of connection management: a = kind (1 REQ, 2 REP, 3 RTU, 4 REJ), b = member (R150). -/
  | cm
  /-- A command sent to a remote subsystem: a = target, b = command code, c = command identifier (R118). -/
  | remoteIo
  /-- A frame sent on an Ethernet port: a = port. -/
  | frame
  /-- A write into accelerator memory: a = accelerator, b = BAR, c = offset (R315). -/
  | accWrite
  /-- A write into accelerator memory in VC0: the first 4 KiB of a class-0 delivery; a, b, c as `accWrite` (R322). -/
  | accWriteVc0
  /-- The configuration of a function of an accelerator: a = accelerator, b = function, c = bus number (R302). -/
  | accConfig
  /-- A read of accelerator memory: a = accelerator, b = BAR, c = offset (R318, R376). -/
  | accRead
  /-- A write into the prompt book: a = job handle, b = offset (R376). -/
  | pbWrite
  /-- A read of the prompt book: a = job handle, b = offset, c = length (R387). -/
  | pbRead
  /-- A read of a namespace by an internal reader: a = NSID, b = byte offset, c = length (R124). -/
  | intRead
  /-- A write to a namespace by an internal writer: a = NSID, b = byte offset, c = length (R384). -/
  | intWrite
  /-- A message of the management network: a = medium, b = MCTP type (R496). -/
  | mctp
  /-- A message on the PCIe data object exchange (R493). -/
  | doe
  /-- Bytes scanned out of the Tableau: a = space, b = address (R518). -/
  | scan
  /-- A frame or message answered to an accelerator: a = accelerator, c = value (R303, R310). -/
  | accReply
deriving DecidableEq, Repr

/-- 32 zero bytes: a role key never set (R82). -/
abbrev zeros32 : List Byte := List.replicate 32 0

/-- The high half of one 64-bit register, held for a write or latched by a read, for one function (R27) (01_module_and_dies.md). -/
structure HeldWord where
  /-- R27; the function that wrote or read it (256 stands for the management side) (9 bits). -/
  fn : Nat := 0
  /-- R27; BAR0 offset of the register (32 bits). -/
  off : Nat := 0
  /-- R27 (32 bits). -/
  val : Nat := 0
deriving DecidableEq, Repr

/-- Identity, partitions and the access latches of BAR0 (01_module_and_dies.md). -/
structure Glb where
  /-- R3 Table 0.1; which of the three parts this is (part code). -/
  part : Part := .a64
  /-- R29 Table 1.12 GLB_BAR2_BASE.BASE_GIB (6 bits). -/
  bar2Base : Nat := 0
  /-- R30 Table 1.13 trace spill size (MiB). -/
  traceMib : Nat := 256
  /-- R30 Table 1.13 checkpoint staging size; default of the 64 GiB parts (MiB). -/
  ckpMib : Nat := 16384
  /-- R30 Table 1.13 staging size; default of the 64 GiB parts (MiB). -/
  stagingMib : Nat := 8192
  /-- R454 R455 BAR2 size (GiB). -/
  bar2Gib : Nat := 16
  /-- R455 BAR2 size that the next memory access takes (GiB). -/
  bar2Next : Nat := 16
  /-- R454 R455 VF BAR2 size (MiB). -/
  vfBar2Mib : Nat := 256
  /-- R455 VF BAR2 size that the next memory access takes (MiB). -/
  vfBar2Next : Nat := 256
  /-- R27 high words held for a write (one per register and function). -/
  heldHi : List HeldWord := []
  /-- R27 high words latched by a low read (one per register and function). -/
  latchedHi : List HeldWord := []
deriving DecidableEq, Repr

/-- The always-on domain: device time, straps, pins, the phase of the main domain (21_signals_and_power_up.md). -/
structure Aon where
  /-- R15 R551 the always-on domain is powered (1 bit). -/
  powered : Bool := true
  /-- R58 CUE_TIME device time (64 bits, ns). -/
  time : Nat := 0
  /-- R58 the next PTM exchange sets device time (1 bit). -/
  ptmSetNext : Bool := true
  /-- R58 how long device time still holds (ns). -/
  ptmHold : Nat := 0
  /-- R58 offset still to be slewed out (ns). -/
  ptmSlew : Int := 0
  /-- R551 R555 phase of the main domain (enum). -/
  mainPhase : MainPhase := .off
  /-- R540 PWR_EN, pulled down (pin). -/
  pwrEn : Bool := false
  /-- R540 SYS_RST_N, pulled up (pin). -/
  sysRstN : Bool := true
  /-- R540 HP_PERST_N, pulled up (pin). -/
  hpPerstN : Bool := true
  /-- R540 EPR_N, pulled up (pin). -/
  eprN : Bool := true
  /-- R545 (pin THERMTRIP_N low). -/
  thermTrip : Bool := false
  /-- R554 P1 lies within 40-60 V (1 bit). -/
  inputOk : Bool := true
  /-- R554 the input range removed the main domain (1 bit). -/
  inputRemoved : Bool := false
  /-- R553 when the rails were removed (ns). -/
  railsRemovedAt : Option Nat := none
  /-- R549 R550 GLB_STRAP.PROV; sampled; DESIGN CHOICE pins open (1 bit). -/
  strapProv : Bool := false
  /-- R549 R550 GLB_STRAP.HOST_RST_SCOPE; sampled; DESIGN CHOICE pins open (1 bit). -/
  strapRstScope : Bool := true
  /-- R549 R550 GLB_STRAP.I3C_SA; sampled; DESIGN CHOICE pins open (2 bits). -/
  strapI3c : Nat := 3
  /-- R549 R550 GLB_STRAP.TEST; sampled; DESIGN CHOICE pins open (1 bit). -/
  strapTest : Bool := false
  /-- R550 GLB_RESET.CAUSE (3 bits). -/
  resetCause : Nat := 1
  /-- R550 GLB_RESET.COLD (16 bits). -/
  cold : Nat := 0
  /-- R550 the main domain has started once since always-on power-up (1 bit). -/
  started : Bool := false
  /-- R550 cause the next main-domain start reports (3 bits). -/
  nextCause : Nat := 1
  /-- R556 when a PERST cold reset's 1 ms hold ends (ns). -/
  resetHold : Option Nat := none
  /-- R551 the host link is up (1 bit). -/
  hostLink : Bool := false
  /-- R551 configuration requests are served (1 bit). -/
  cfgReady : Bool := false
  /-- R515 the Tableau holds (1 bit). -/
  tableau : Bool := false
  /-- R517 every domain has stopped (1 bit). -/
  tabStopped : Bool := false
  /-- R519 OBS_TAB_LAST.CAUSE, kept across cold reset (3 bits). -/
  tabCause : Nat := 0
  /-- R519 OBS_TAB_LAST.TRIGGER (3 bits). -/
  tabTrigger : Nat := 0
  /-- R519 OBS_TAB_LAST.COUNT (16 bits). -/
  tabCount : Nat := 0
  /-- R519 cause of the Tableau in progress (3 bits). -/
  curTabCause : Nat := 0
  /-- R519 trigger index of the Tableau in progress (3 bits). -/
  curTabTrigger : Nat := 0
  /-- R518 the bytes the last JTAG operation scanned out; model's own (bytes). -/
  jtagOut : List Nat := []
  /-- R517 by how much the stage manager's own time is ahead of device time, which a Tableau freezes (ns). -/
  smLead : Nat := 0
deriving DecidableEq, Repr

/-- One entry of the cue event table (Table 2.6) (02_cue_time.md). -/
structure CueEvent where
  /-- R52 owning function (8 bits). -/
  fn : Nat := 0
  /-- R52 0 position, 1 device time (8 bits). -/
  kind : Nat := 0
  /-- R51 (8 bits). -/
  genPolicy : Nat := 0
  /-- R52 (8 bits). -/
  action : Nat := 0
  /-- R52 absolute phase or ns (64 bits). -/
  target : Nat := 0
  /-- R52 steps or µs (32 bits). -/
  period : Nat := 0
  /-- R52 (32 bits). -/
  actTarget : Nat := 0
  /-- R52 (64 bits). -/
  actValue : Nat := 0
  /-- R51 the first target, absolute phase or ns (64 bits). -/
  first : Nat := 0
  /-- R54 it re-armed at a target already passed (1 bit). -/
  caught : Bool := false
deriving DecidableEq, Repr

/-- One lead that a Loom job registers (R57, R286) (02_cue_time.md). -/
structure CueLead where
  /-- R286 (7 bits). -/
  job : Nat := 0
  /-- R57 (phases). -/
  lead : Nat := 0
  /-- R286 (µs). -/
  pipeUs : Nat := 0
  /-- R286 (phases). -/
  cutPh : Nat := 0
deriving DecidableEq, Repr

/-- The cue block (02_cue_time.md). -/
structure Cue where
  /-- R37 CUE_CFG.SRC (2 bits). -/
  src : CueSrc := .none
  /-- R46 CUE_STAT.STATE (3 bits). -/
  st : CueState := .none
  /-- R44 CUE_POS.STEP and PHASE (56 bits, absolute phase). -/
  pos : Nat := 0
  /-- R49 CUE_GEN (8 bits). -/
  gen : Nat := 0
  /-- R49 CUE_STAT.FIELD_GEN (8 bits). -/
  fieldGen : Nat := 0
  /-- R44 CUE_STAT.HOLD (1 bit). -/
  hold : Bool := false
  /-- R48 CUE_STAT.LOST_EV (1 bit). -/
  lostEv : Bool := false
  /-- R50 CUE_STAT.GEN_EV (1 bit). -/
  genEv : Bool := false
  /-- R45 CUE_STAT.JUMP (1 bit). -/
  jump : Bool := false
  /-- R57 CUE_STAT.LEAD_SHORT (1 bit). -/
  leadShort : Bool := false
  /-- R60 CUE_CFG.HOLD_US (16 bits). -/
  holdUs : Nat := 100
  /-- R60 CUE_CFG.JUMP_PH (16 bits). -/
  jumpPh : Nat := 4096
  /-- R60 CUE_CFG.MAX_UNC (16 bits). -/
  maxUnc : Nat := 2000
  /-- R57 CUE_STEP.LAST_NS (32 bits). -/
  lastNs : Nat := 0
  /-- R57 CUE_STEP.MEAN_NS (32 bits). -/
  meanNs : Nat := 0
  /-- R57 the last 16 measured step lengths (up to 16). -/
  stepHist : List Nat := []
  /-- R57 device time at the entry into the step in progress, none when it is not measured (ns). -/
  stepEntry : Option Nat := none
  /-- R39 CUE_ERR_CNT.CRC (16 bits). -/
  errCrc : Nat := 0
  /-- R45 CUE_ERR_CNT.BACK (16 bits). -/
  errBack : Nat := 0
  /-- R49 CUE_ERR_CNT.GEN (16 bits). -/
  errGen : Nat := 0
  /-- R42 CUE_ERR_CNT.UNC (16 bits). -/
  errUnc : Nat := 0
  /-- R44 rate history (up to 16 (absolute phase, arrival ns), oldest first). -/
  hist : List (Nat × Nat) := []
  /-- R40 step high part of the current generation (16 bits). -/
  stepHigh : Option Nat := none
  /-- R40 forward wraps of STEP_L counted while the step high part is not known (16 bits). -/
  stepCarry : Nat := 0
  /-- R40 STEP_L of the last accepted frame (24 bits). -/
  lastStepL : Nat := 0
  /-- R40 kept EPOCH frames ((GEN, STEP_H)). -/
  keptEpoch : List (Nat × Nat) := []
  /-- R49 the next valid frame or write is the first after SET_CUE_SOURCE (1 bit). -/
  firstDue : Bool := false
  /-- R47 consecutive valid POSITION frames (count). -/
  consec : Nat := 0
  /-- R45 consecutive discards behind JUMP_PH (count). -/
  backRun : Nat := 0
  /-- R47 time of the last valid frame (ns). -/
  lastValid : Nat := 0
  /-- R47 time of entry into HOLDOVER (ns). -/
  holdSince : Nat := 0
  /-- R41 hop count of the last ETH frame (8 bits). -/
  hops : Nat := 0
  /-- R41 accumulated uncertainty of the last ETH frame (32 bits, ns). -/
  unc : Nat := 0
  /-- R41 the last round-trip measurements (up to 64). -/
  rtt : List Nat := []
  /-- R41 when the echo read in flight was issued (ns). -/
  echoSent : Option Nat := none
  /-- R41 when the last cue frames were written to the members (ns). -/
  emitAt : Nat := 0
  /-- R41 when the last echo read was issued (ns). -/
  echoAt : Nat := 0
  /-- R57 registered leads (one per started job). -/
  leads : List CueLead := []
  /-- R52 the function entries of the cue event table (4,096 entries by index). -/
  events : List (Nat × CueEvent) := []
deriving DecidableEq, Repr

/-- One command queue pair (03_command_protocol.md). -/
structure QPair where
  /-- R98 SQ_BASE (64 bits). -/
  sqBase : Nat := 0
  /-- R98 CQ_BASE (64 bits). -/
  cqBase : Nat := 0
  /-- R62 (6-16). -/
  sqLog2 : Nat := 6
  /-- R62 (6-16). -/
  cqLog2 : Nat := 6
  /-- R67 (11 bits). -/
  vector : Nat := 0
  /-- R561 (0-2). -/
  prio : Nat := 0
  /-- R561 home stagehand (4 bits). -/
  home : Nat := 0
  /-- R63 the DXL9's head (slot index). -/
  head : Nat := 0
  /-- R64 SQ_TAIL in force (slot index). -/
  tail : Nat := 0
  /-- R67 next entry to write (entry index). -/
  cqTail : Nat := 0
  /-- R64 CQ_HEAD in force (entry index). -/
  cqHead : Nat := 0
  /-- R67 phase of the current pass (1 bit). -/
  phase : Bool := true
  /-- R66 completion entries reserved for fetched commands (count). -/
  resv : Nat := 0
  /-- R66 replies written and not yet consumed (count). -/
  unread : Nat := 0
  /-- R65 ERROR state (1 bit). -/
  err : Bool := false
  /-- R63 the command at the head is not wholly covered by SQ_TAIL (1 bit). -/
  part : Bool := false
deriving DecidableEq, Repr

/-- The CMD registers and session state of one function (03_command_protocol.md). -/
structure FnCmd where
  /-- R97 CMD_CTRL.EN (1 bit). -/
  en : Bool := false
  /-- R97 CMD_STAT.RDY (1 bit). -/
  rdy : Bool := false
  /-- R65 CMD_STAT.QERR (1 bit). -/
  qerr : Bool := false
  /-- R96 CMD_QERR.QP (16 bits). -/
  qerrQp : Nat := 0
  /-- R96 CMD_QERR.REASON (8 bits). -/
  qerrReason : Nat := 0
  /-- R96 CMD_AQ_SQ.BASE (bits [63:12]). -/
  aqSq : Nat := 0
  /-- R96 CMD_AQ_CQ.BASE (bits [63:12]). -/
  aqCq : Nat := 0
  /-- R96 CMD_AQ_CFG.SQ_LOG2 (5 bits). -/
  aqSqLog2 : Nat := 6
  /-- R96 CMD_AQ_CFG.CQ_LOG2 (5 bits). -/
  aqCqLog2 : Nat := 6
  /-- R96 CMD_AQ_CFG.VECTOR (11 bits). -/
  aqVec : Nat := 0
  /-- R80 handles issued on the function (counter). -/
  issued : Nat := 0
  /-- R81 consecutive wrong keys (count). -/
  wrong : Nat := 0
  /-- R81 end of the OPEN_SESSION lock (ns). -/
  lockUntil : Option Nat := none
  /-- R76 the function's error counter; width not given (counter). -/
  errs : Nat := 0
  /-- R82 tenant role key, never set (32 bytes). -/
  tenantKey : List (BitVec 8) := zeros32
deriving DecidableEq, Repr

/-- One open session (03_command_protocol.md). -/
structure Session where
  /-- R79 (function, 256 = management side). -/
  fn : Nat := 0
  /-- R79 (32 bits). -/
  handle : Nat := 0
  /-- R79 (enum). -/
  role : Role := .tenant
  /-- R497 the SPDM session that carried the open (management side) (SPDM session id). -/
  spdm : Nat := 0
deriving DecidableEq, Repr

/-- One staged setting of an intermission (03_command_protocol.md). -/
structure Staged where
  /-- R88 (16 bits). -/
  opcode : Nat := 0
  /-- R88 (32 bits). -/
  unit : Nat := 0
  /-- R88 (function). -/
  fn : Nat := 0
  /-- R88 (bytes). -/
  params : List (BitVec 8) := []
deriving DecidableEq, Repr

/-- One intermission record (03_command_protocol.md). -/
structure Inter where
  /-- R85 (unit ID). -/
  scope : Nat := 0
  /-- R85 (function of the holder). -/
  fn : Nat := 0
  /-- R85 (session of the holder). -/
  handle : Nat := 0
  /-- R86 R90 (enum). -/
  ph : InterPhase := .draining
  /-- R88 (list, in order). -/
  staged : List Staged := []
  /-- R90 AT step of INTERMISSION_END (40 bits). -/
  at_ : Nat := 0
  /-- R87 when DRAIN_LIMIT_US passes (ns). -/
  drainBy : Option Nat := none
  /-- R87 when the drain began (ns). -/
  started : Nat := 0
deriving DecidableEq, Repr

/-- Who sends a command: its role, the function whose objects it may name, and the session as a holder of intermissions (R79, R84). -/
structure Caller where
  /-- R79 (enum). -/
  role : Role := .tenant
  /-- R84 (function). -/
  fn : Nat := 0
  /-- R79 (function, 256 = management side, 257 = troupe head). -/
  hfn : Nat := 0
  /-- R79 (32 bits). -/
  handle : Nat := 0
deriving DecidableEq, Repr

/-- A command fetched and not yet started, or held as work of a scope (03_command_protocol.md). -/
structure FetchedCmd where
  /-- R68 R99 (16 bits). -/
  opcode : Nat := 0
  /-- R69 (64 bytes). -/
  hdr : Hdr := {}
  /-- R398 the replay area's copy (bytes). -/
  params : List (BitVec 8) := []
  /-- R73 SQ_HEAD of its reply (16 bits). -/
  sqHead : Nat := 0
  /-- R88 data-path work held by an intermission on the scope (unit ID of a scope). -/
  held : Option Nat := none
  /-- R83 R88 who sent a held command, which has passed the checks of steps 1 to 8. -/
  caller : Caller := {}
  /-- R71 (1 bit). -/
  replayed : Bool := false
  /-- R73 its queue pair was deleted with its function's interface: no reply is written (1 bit). -/
  mute : Bool := false
deriving DecidableEq, Repr

/-- A command whose reply waits (journal stage WAITING) (03_command_protocol.md). -/
structure WaitCmd where
  /-- R399 (16 bits). -/
  opcode : Nat := 0
  /-- R69 (64 bytes). -/
  hdr : Hdr := {}
  /-- R399 (key of the object waited for). -/
  kind : Nat := 0
  /-- R399 a value the reply needs (number). -/
  aux : Nat := 0
  /-- R398 (bytes). -/
  params : List (BitVec 8) := []
  /-- R73 SQ_HEAD of its reply (16 bits). -/
  sqHead : Nat := 0
  /-- R77 STATE judged at the check (8 bits). -/
  stateCode : Nat := 1
  /-- R508 snapshot entry reserved for the command ((entry address, ENTRY, offset)). -/
  snap : Option (Nat × Nat × Nat) := none
  /-- R71 (1 bit). -/
  replayed : Bool := false
  /-- R254 replay attached to the work in progress (1 bit). -/
  attached : Bool := false
  /-- R73 its queue pair was deleted with its function's interface: no reply is written (1 bit). -/
  mute : Bool := false
deriving DecidableEq, Repr

/-- One journal entry of a stagehand (14_stagehands.md). -/
structure JEntry where
  /-- R397 the stagehand (4 bits). -/
  home : Nat := 0
  /-- R397 its place in the journal (0-511). -/
  slot : Nat := 0
  /-- R397 offset of the parameters in the replay area (22 bits). -/
  off : Nat := 0
  /-- R397 (16 bits). -/
  opcode : Nat := 0
  /-- R397 (64 bytes). -/
  hdr : Hdr := {}
  /-- R397 slot of the submission queue that held the header (16 bits). -/
  sqSlot : Nat := 0
deriving DecidableEq, Repr

/-- One member reply of a fan-out (03_command_protocol.md). -/
structure FwdReply where
  /-- R95 Table 3.12 (8 member IDs). -/
  path : List Nat := []
  /-- R95 the member's reply (32 bytes, empty = no reply arrived). -/
  rep : List (BitVec 8) := []
deriving DecidableEq, Repr

/-- A command forwarded to members and not yet answered (03_command_protocol.md). -/
structure Fanout where
  /-- R150 FWD_ID (64 bits). -/
  id : Nat := 0
  /-- R94 (16 bits). -/
  opcode : Nat := 0
  /-- R94 (64 bytes). -/
  hdr : Hdr := {}
  /-- R94 fans out (1 bit). -/
  fan : Bool := false
  /-- R94 (member IDs not yet replied). -/
  members : List Nat := []
  /-- R95 (list, in arrival order). -/
  replies : List FwdReply := []
  /-- R94 when CMD_TROUPE.TIMEOUT_MS passes (ns). -/
  by_ : Nat := 0
  /-- R94 (8 bits). -/
  stateCode : Nat := 0
  /-- R73 SQ_HEAD of its reply (16 bits). -/
  sqHead : Nat := 0
  /-- R150 MEMBER_OVF (1 bit). -/
  ovf : Bool := false
  /-- R149 region of the pointer parameters, 0 = none (32 bits). -/
  rkey : Nat := 0
  /-- R149 R398 where the device reserve holds the pointer parameters (64 bits). -/
  base : Nat := 0
  /-- R71 (1 bit). -/
  replayed : Bool := false
  /-- R73 its queue pair was deleted with its function's interface: no reply is written (1 bit). -/
  mute : Bool := false
deriving DecidableEq, Repr

/-- The command block (03_command_protocol.md). -/
structure Cmd where
  /-- R96 (per function 0-255, 256 management). -/
  fns : List (Nat × FnCmd) := []
  /-- R62 queue pairs (key fn x 65,536 + index). -/
  qps : List (Nat × QPair) := []
  /-- R79 R80 open sessions (list). -/
  sessions : List Session := []
  /-- R85 R91 intermission records (list). -/
  inters : List Inter := []
  /-- R68 R397 (journal stage ACCEPTED). -/
  fetched : List FetchedCmd := []
  /-- R397 R399 (journal stage WAITING). -/
  waiting : List WaitCmd := []
  /-- R94 (list). -/
  fanouts : List Fanout := []
  /-- R397 entries written at the fetch; those whose command is answered are free (list, in order of writing). -/
  entries : List JEntry := []
  /-- R561 normal commands that a stagehand has fetched since its last background one (0-4, per stagehand). -/
  turns : List (Nat × Nat) := []
  /-- R150 (64 bits). -/
  nextFwd : Nat := 0
  /-- R94 CMD_TROUPE.TIMEOUT_MS (16 bits). -/
  troupeMs : Nat := 10
  /-- R94 R150 sessions of outer heads that hold an intermission here ((originating session, scope)). -/
  memberSess : List (Nat × Nat) := []
deriving DecidableEq, Repr

/-- One NVMe I/O queue (04_storage_front.md). -/
structure QueueRec where
  /-- R105 completion queue (1 bit). -/
  cq : Bool := false
  /-- R105 (16 bits). -/
  qid : Nat := 0
  /-- R105 (64 bits). -/
  base : Nat := 0
  /-- R104 (entries). -/
  size : Nat := 0
  /-- R102 (16 bits). -/
  head : Nat := 0
  /-- R102 (16 bits). -/
  tail : Nat := 0
  /-- R105 completion queue of a submission queue (16 bits). -/
  cqid : Nat := 0
  /-- R105 (16 bits). -/
  vector : Nat := 0
  /-- R105 interrupts enabled (1 bit). -/
  ien : Bool := true
  /-- R102 (1 bit). -/
  phase : Bool := true
deriving DecidableEq, Repr

/-- An NVMe command outstanding (04_storage_front.md). -/
structure NvmeOp where
  /-- R106 (controller). -/
  fn : Nat := 0
  /-- R103 (64 bytes). -/
  cmd : NvmeCmd := {}
  /-- R116 R118 R128 what it waits for (enum). -/
  kind : NvmeWait := .other
  /-- R118 parts of a read that are outstanding (remote command identifiers). -/
  parts : List Nat := []
  /-- R128 data has begun to reach host memory (1 bit). -/
  started : Bool := false
  /-- R120 R121 writes whose acknowledgement it waits for (write numbers). -/
  need : List Nat := []
  /-- R116 order of arrival; of a read R119 the next entry of the buffer when it was admitted (counter). -/
  order : Nat := 0
deriving DecidableEq, Repr

/-- One NVMe controller (04_storage_front.md). -/
structure Ctrl where
  /-- R102 CC.EN (1 bit). -/
  en : Bool := false
  /-- R102 CC as last written (32 bits). -/
  cc : Nat := 0
  /-- R123 CC.SHN (2 bits). -/
  shn : Nat := 0
  /-- R102 CSTS.RDY (1 bit). -/
  rdy : Bool := false
  /-- R123 CSTS.SHST (2 bits). -/
  shst : Nat := 0
  /-- R102 AQA (32 bits). -/
  aqa : Nat := 0
  /-- R102 ASQ (64 bits). -/
  asq : Nat := 0
  /-- R102 ACQ (64 bits). -/
  acq : Nat := 0
  /-- R102 INTMS, INTMC mask (32 bits). -/
  intms : Nat := 0
  /-- R105 I/O queue pairs granted (count). -/
  grant : Nat := 0
  /-- R102 R105 admin (0) and I/O queues (list). -/
  queues : List QueueRec := []
  /-- R128 outstanding commands (list). -/
  ops : List NvmeOp := []
  /-- R103 Asynchronous Event Requests held (CIDs, up to 4). -/
  aers : List Nat := []
  /-- R111 R126 asynchronous events not yet reported (Dword 0 of each). -/
  aerPend : List Nat := []
  /-- R111 types reported whose log page has not been read (event types). -/
  aerMask : List Nat := []
  /-- R102 completions that wait for room ((queue, 16 bytes)). -/
  cqeWait : List (Nat × List (BitVec 8)) := []
  /-- R105 contexts of the granted queue pairs (context numbers). -/
  grantCtx : List Nat := []
  /-- R105 Arbitration feature (32 bits). -/
  arb : Nat := 0
  /-- R105 Interrupt Coalescing feature (32 bits). -/
  coal : Nat := 0
  /-- R105 Asynchronous Event Configuration feature (32 bits). -/
  aec : Nat := 0
  /-- R111 Changed Namespace List (NSIDs). -/
  changed : List Nat := []
  /-- R103 Error Information entries (count). -/
  errLog : Nat := 0
  /-- R115 write-buffer quota (MiB). -/
  quotaMib : Nat := 0
deriving DecidableEq, Repr

/-- One backing namespace (04_storage_front.md). -/
structure Backing where
  /-- R109 (handle). -/
  target : Nat := 0
  /-- R109 (32 bits). -/
  rnsid : Nat := 0
  /-- R109 capacity (LBAs). -/
  blocks : Nat := 0
deriving DecidableEq, Repr

/-- One attached namespace (04_storage_front.md). -/
structure Ns where
  /-- R106 (controller). -/
  ctrl : Nat := 0
  /-- R109 (1-64). -/
  nsid : Nat := 0
  /-- R120 (0 native, 1 DXL5). -/
  mode : Nat := 0
  /-- R109 (16-24). -/
  stripeLog2 : Nat := 16
  /-- R109 (0 = 512 B, 1 = 4 KiB). -/
  lbaFmt : Nat := 0
  /-- R174 (16 bits). -/
  keyPage : Nat := 65535
  /-- R109 (1-8). -/
  backs : List Backing := []
  /-- R109 (local LBAs). -/
  capacity : Nat := 0
  /-- R111 (enum). -/
  st : NsState := .online
  /-- R126 lost blocks (local block numbers). -/
  lost : List Nat := []
  /-- R111 backings with no live queue (backing indexes). -/
  downBacks : List Nat := []
deriving DecidableEq, Repr

/-- One 4 KiB block of the write buffer (04_storage_front.md). -/
structure WbBlock where
  /-- R115 (controller). -/
  ctrl : Nat := 0
  /-- R116 (NSID). -/
  nsid : Nat := 0
  /-- R114 (4 KiB block number). -/
  blk : Nat := 0
  /-- R116 (entry order). -/
  seq : Nat := 0
  /-- R116 R120 R121 the writes whose data it holds (write numbers). -/
  writes : List Nat := []
  /-- R117 when it became dirty (ns). -/
  since : Nat := 0
  /-- R114 (1 bit). -/
  dirty : Bool := true
  /-- R114 zero extent (0 data, 1 zeroes, 2 deallocated). -/
  zero : Nat := 0
  /-- R117 sectors whose drain write is issued (8 bits). -/
  pend : Nat := 0
  /-- R126 its drain write failed non-retryably (1 bit). -/
  stuck : Bool := false
  /-- R114 valid 512-byte sectors (8 bits). -/
  mask : Nat := 0
  /-- R114 (4,096 bytes). -/
  data : List (BitVec 8) := []
  /-- R114 last use of a clean block (order). -/
  used : Nat := 0
deriving DecidableEq, Repr

/-- One NVMe-oF association (04_storage_front.md). -/
structure Target where
  /-- R107 (8 bits). -/
  addrType : Nat := 4
  /-- R107 (16 bytes). -/
  addr : List (BitVec 8) := []
  /-- R107 (16 bits). -/
  svc : Nat := 0
  /-- R108 (1-64). -/
  ioq : Nat := 0
  /-- R108 queues live (1 bit). -/
  live : Bool := false
  /-- R108 (RDMA queue pairs). -/
  qpns : List Nat := []
deriving DecidableEq, Repr

/-- A reader or writer of a namespace inside the device (04_storage_front.md). -/
inductive IntUse where
  | index (job warp abs : Nat)
  | payload (job warp abs : Nat)
  | stream (n : Nat)
  | shard (job index : Nat)
  | drain (job : Nat)
deriving DecidableEq, Repr

/-- One remote NVMe-oF command outstanding (04_storage_front.md). -/
structure Remote where
  /-- R118 (counter). -/
  cid : Nat := 0
  /-- R117 R118 R176 what it does (enum). -/
  kind : RemKind := .read
  /-- R106 (controller). -/
  ctrl : Nat := 0
  /-- R109 (NSID). -/
  nsid : Nat := 0
  /-- R109 (backing index). -/
  back : Nat := 0
  /-- R118 (first local 512-byte sector). -/
  first : Nat := 0
  /-- R118 (sectors). -/
  count : Nat := 0
  /-- R109 (first remote block). -/
  rblk : Nat := 0
  /-- R118 the NVMe read it is a part of ((controller, queue, CID)). -/
  op : Option (Nat × Nat × Nat) := none
  /-- R176 tag blocks fetched with the data (remote block numbers). -/
  tblks : List Nat := []
  /-- R117 what a drain write carries ((block entry order, sector mask)). -/
  seqs : List (Nat × Nat) := []
  /-- R167 units at the cipher lanes (count). -/
  units : Nat := 0
  /-- R175 blocks sealed or opened ((local block, bytes)). -/
  buf : List (Nat × List (BitVec 8)) := []
  /-- R177 it reads a block once more, after a failure on this lane (lane). -/
  retry : Option Nat := none
  /-- R177 blocks that failed, and where ((local block, lane)). -/
  badLanes : List (Nat × Nat) := []
  /-- R112 issued to a live queue (1 bit). -/
  sent : Bool := true
  /-- R112 issued before, so that another issue is a reissue (1 bit). -/
  issued : Bool := false
  /-- R124 the internal read it is a part of (enum). -/
  int : Option IntUse := none
  /-- R176 tag blocks of its blocks (remote block numbers). -/
  tags : List Nat := []
  /-- R119 next entry of the buffer when its read was admitted (counter). -/
  after : Nat := 0
  /-- R112 the remote queue that carried it last (QPN). -/
  queue : Option Nat := none
  /-- R176 tag blocks that came with its data ((remote block, 4,096 bytes)). -/
  tagData : List (Nat × List (BitVec 8)) := []
deriving DecidableEq, Repr

/-- One command of an internal writer (04_storage_front.md). -/
inductive IntStep where
  | write (off : Nat) (fua : Bool) (data : List (BitVec 8))
  | flush
deriving DecidableEq, Repr

/-- An internal read or write in progress (04_storage_front.md). -/
structure IntOp where
  /-- R124 whose it is (enum). -/
  use : IntUse := .stream 0
  /-- R106 (controller). -/
  ctrl : Nat := 0
  /-- R109 (NSID). -/
  nsid : Nat := 0
  /-- R118 first byte of a read (64 bits). -/
  off : Nat := 0
  /-- R118 bytes of a read (64 bits). -/
  len : Nat := 0
  /-- R88 a read that its controller has not yet admitted (1 bit). -/
  waits : Bool := false
  /-- R118 sectors read, from the buffer and from the backing ((sector, 512 bytes)). -/
  got : List (Nat × List (BitVec 8)) := []
  /-- R118 parts of a read that are outstanding (remote command identifiers). -/
  parts : List Nat := []
  /-- R125 status with which a read ended (15 bits). -/
  fail : Option Nat := none
  /-- R119 next entry of the buffer when a read was admitted (counter). -/
  after : Nat := 0
  /-- R124 commands of a writer that have not begun (list). -/
  todo : List IntStep := []
  /-- R120 R121 writes whose acknowledgement a writer waits for (write numbers). -/
  need : List Nat := []
  /-- R116 a writer's next write waits for space (1 bit). -/
  space : Bool := false
deriving DecidableEq, Repr

/-- The storage front end (04_storage_front.md). -/
structure Sto where
  /-- R102 R115 (per function). -/
  ctrls : List (Nat × Ctrl) := [(0, { quotaMib := 4096 })]
  /-- R108 (up to 1,024). -/
  targets : List (Nat × Target) := []
  /-- R109 (list). -/
  nss : List Ns := []
  /-- R114 (up to 2,097,152). -/
  wbuf : List WbBlock := []
  /-- R116 order of entry (counter). -/
  nextSeq : Nat := 0
  /-- R118 remote command identifiers (counter). -/
  nextCid : Nat := 0
  /-- R129 STO_WB_CFG.HI_PCT (8 bits). -/
  hiPct : Nat := 75
  /-- R129 STO_WB_CFG.LO_PCT (8 bits). -/
  loPct : Nat := 25
  /-- R129 STO_WB_CFG.AGE_MS (16 bits). -/
  ageMs : Nat := 50
  /-- R126 STO_WB_STAT.WFAIL (1 bit). -/
  wfail : Bool := false
  /-- R129 STO_ERR_CNT.XFER (16 bits). -/
  errXfer : Nat := 0
  /-- R129 STO_ERR_CNT.REMOTE (16 bits). -/
  errRemote : Nat := 0
  /-- R129 STO_ERR_CNT.REISSUE (16 bits). -/
  errReissue : Nat := 0
  /-- R129 STO_ERR_CNT.LOST (16 bits). -/
  errLost : Nat := 0
  /-- R122 native to DXL5 changes waiting for dirty data ((controller, NSID)). -/
  modeWait : List (Nat × Nat) := []
  /-- R118 remote commands outstanding (list). -/
  remotes : List Remote := []
  /-- R116 order of arrival of commands (counter). -/
  nextOp : Nat := 0
  /-- R124 reads and writes of the device's own (list). -/
  ints : List IntOp := []
deriving DecidableEq, Repr

/-- A packet that waits at a port whose link partner has paused its priority (05_network_and_heddle.md). -/
structure HeldPkt where
  /-- R133 (priority 0-7). -/
  prio : Nat := 0
  /-- R139 its queue pair (QPN). -/
  qpn : Nat := 0
  /-- R135 (24 bits). -/
  psn : Nat := 0
  /-- R142 opcode, path and port (29 bits). -/
  code : Nat := 0
  /-- R135 length of its frame (bytes). -/
  size : Nat := 0
  /-- R135 what follows its BTH (bytes). -/
  data : List (BitVec 8) := []
deriving DecidableEq, Repr

/-- One Ethernet port (05_network_and_heddle.md). -/
structure Port where
  /-- R133 NET_PORT_STAT.STATE (8 bits). -/
  st : Nat := 0x11
  /-- R166 NET_PORT_STAT.UP_EV (1 bit). -/
  upEv : Bool := false
  /-- R166 NET_PORT_STAT.DOWN_EV (1 bit). -/
  downEv : Bool := false
  /-- R132 NET_PORT_STAT.FEC_DEG (1 bit). -/
  fecDeg : Bool := false
  /-- R132 NET_PORT_STAT.UNCORR (32 bits). -/
  uncorr : Nat := 0
  /-- R132 corrected codewords of the current 1 ms (count). -/
  corr : Nat := 0
  /-- R350 priority flow control asserted on all priorities (1 bit). -/
  paused : Bool := false
  /-- R133 until when the link partner has paused a priority ((priority 0-7, ns)). -/
  pause : List (Nat × Nat) := []
  /-- R133 packets that wait for the end of a pause (list, in order). -/
  held : List HeldPkt := []
deriving DecidableEq, Repr

/-- One record of a message being reassembled (05_network_and_heddle.md). -/
structure RxMsg where
  /-- R143 (24 bits). -/
  msn : Nat := 0
  /-- R143 (32 bits). -/
  total : Nat := 0
  /-- R143 (bytes). -/
  count : Nat := 0
  /-- R138 (address of the message's first byte). -/
  addr : Nat := 0
  /-- R137 (32 bits). -/
  rkey : Nat := 0
deriving DecidableEq, Repr

/-- One message sent and not yet wholly acknowledged (05_network_and_heddle.md). -/
structure TxMsg where
  /-- R145 (24 bits). -/
  msn : Nat := 0
  /-- R145 (PSN). -/
  first : Nat := 0
  /-- R145 (PSN). -/
  last : Nat := 0
  /-- R145 (1 bit). -/
  fenced : Bool := false
  /-- R145 what completes when it is acknowledged (enum). -/
  op : TxOp := .other
  /-- R135 an RDMA READ (1 bit). -/
  rd : Bool := false
  /-- R142 (remote address). -/
  addr : Nat := 0
  /-- R137 (32 bits). -/
  rkey : Nat := 0
  /-- R136 (bytes). -/
  len : Nat := 0
  /-- R145 (bytes written, or bytes a READ has returned). -/
  data : List (BitVec 8) := []
  /-- R145 false while it waits for its turn (1 bit). -/
  sent : Bool := true
  /-- R143 READ responses that have arrived (packet indexes). -/
  got : List Nat := []
  /-- R143 packets sent so far (count). -/
  out : Nat := 0
deriving DecidableEq, Repr

/-- One RDMA queue pair (05_network_and_heddle.md). -/
structure Qp where
  /-- R139 Table 5.5 (enum). -/
  st : QpState := .reset
  /-- R163 (1 bit). -/
  pinned : Bool := false
  /-- R140 (1-64). -/
  paths : Nat := 1
  /-- R140 (3-5). -/
  mtu : Nat := 0
  /-- R141 (1 bit). -/
  autoRec : Bool := false
  /-- R136 (1 bit). -/
  ecn : Bool := false
  /-- R140 (24 bits). -/
  destQpn : Nat := 0
  /-- R140 next expected PSN (24 bits). -/
  rqPsn : Nat := 0
  /-- R139 next send PSN (24 bits). -/
  sqPsn : Nat := 0
  /-- R140 (5 bits). -/
  timeout : Nat := 0
  /-- R140 (3 bits). -/
  retry : Nat := 0
  /-- R140 retransmissions made (count). -/
  retries : Nat := 0
  /-- R140 (16 bits). -/
  portMask : Nat := 0
  /-- R140 (16 bytes). -/
  dest : List (BitVec 8) := []
  /-- R140 (8 bits). -/
  addrType : Nat := 4
  /-- R140 (6 bits). -/
  dscp : Nat := 0
  /-- R148 who uses it (enum). -/
  owner : QpOwner := .manager
  /-- R143 (received PSNs in the window). -/
  bitmap : List Nat := []
  /-- R143 (up to 8). -/
  rx : List RxMsg := []
  /-- R144 next MSN to signal (24 bits). -/
  rxMsn : Nat := 0
  /-- R145 (messages in flight). -/
  tx : List TxMsg := []
  /-- R142 next MSN to send (24 bits). -/
  txMsn : Nat := 0
  /-- R145 cumulative PSN acknowledged (24 bits). -/
  acked : Nat := 0
  /-- R145 missing PSNs (PSNs). -/
  missing : List Nat := []
  /-- R136 RDMA READs outstanding (0-16). -/
  reads : Nat := 0
  /-- R136 (1/65,536ths of full rate). -/
  rate : Nat := 65536
  /-- R136 when the last CNP was returned (ns). -/
  cnpAt : Option Nat := none
  /-- R146 (path numbers). -/
  downPaths : List Nat := []
  /-- R141 entry into ERROR (ns). -/
  errAt : Nat := 0
  /-- R141 recovery attempt (0-3). -/
  attempt : Nat := 0
  /-- R141 start of the attempt (ns). -/
  attemptAt : Nat := 0
  /-- R141 recoveries since RTS from RESET (32 bits). -/
  epoch : Nat := 0
  /-- R141 this end has sent an ACKED RECOVER (1 bit). -/
  sentAcked : Bool := false
  /-- R141 the PSN it proposes (24 bits). -/
  newPsn : Nat := 0
  /-- R141 recovery has failed for good (1 bit). -/
  given : Bool := false
  /-- R143 R162 the contexts it holds (context numbers). -/
  ctxs : List Nat := []
  /-- R142 round-robin over the paths (path number). -/
  nextPath : Nat := 0
  /-- R111 R141 a recovery attempt has failed since RTS (1 bit). -/
  failed : Bool := false
  /-- R141 this end holds an ACKED RECOVER of the peer (1 bit). -/
  gotAcked : Bool := false
  /-- R141 RCVD_MSN of the peer (24 bits). -/
  peerMsn : Nat := 0
  /-- R136 when the rate was halved last (ns). -/
  rateAt : Nat := 0
deriving DecidableEq, Repr

/-- One registered region or mailbox (05_network_and_heddle.md). -/
structure Region where
  /-- R137 (GDDR7 address). -/
  base : Nat := 0
  /-- R137 (bytes). -/
  len : Nat := 0
  /-- R137 (1 bit). -/
  write : Bool := false
  /-- R137 (1 bit). -/
  read : Bool := false
  /-- R137 (1 bit). -/
  mbox : Bool := false
  /-- R138 (6-13). -/
  entryLog2 : Nat := 0
  /-- R138 (16 bits). -/
  action : Nat := 0
  /-- R138 previous sequence word (64 bits). -/
  seq : Nat := 0
  /-- R150 R288 R327 R330 R383 who registered it (enum). -/
  owner : RegionOwner := .host
  /-- R137 being deregistered (1 bit). -/
  closing : Bool := false
deriving DecidableEq, Repr

/-- One direct troupe member (or the head, seen from a member) (05_network_and_heddle.md). -/
structure Member where
  /-- R148 (16 bits). -/
  id : Nat := 0
  /-- R148 (8 bits). -/
  addrType : Nat := 4
  /-- R148 (16 bytes). -/
  addr : List (BitVec 8) := []
  /-- R148 (QPN). -/
  ctrlQp : Nat := 0
  /-- R148 (QPN). -/
  dataQp : Nat := 0
  /-- R150 the peer's control region rkey (32 bits). -/
  peerRkey : Nat := 0
  /-- R150 the peer's data queue pair (QPN). -/
  peerData : Nat := 0
  /-- R150 own control region (rkey). -/
  region : Nat := 0
  /-- R150 connected (1 bit). -/
  live : Bool := false
  /-- R151 not unreachable (1 bit). -/
  reached : Bool := true
  /-- R150 the peer is this device's head (1 bit). -/
  isHead : Bool := false
  /-- R150 forwarded commands in flight (0-8). -/
  inflight : Nat := 0
  /-- R150 cue mailbox sequence sent (64 bits). -/
  cueSeq : Nat := 0
  /-- R150 command mailbox sequence sent (64 bits). -/
  cmdSeq : Nat := 0
  /-- R150 reply mailbox sequence sent (64 bits). -/
  rplySeq : Nat := 0
  /-- R148 being removed (1 bit). -/
  removing : Bool := false
  /-- R150 forwarded commands that wait for room ((FWD_ID, entry) in order). -/
  queue : List (Nat × List (BitVec 8)) := []
  /-- R138 R150 last command-mailbox sequence word taken (64 bits). -/
  cmdIn : Nat := 0
  /-- R138 R150 last reply-mailbox sequence word taken (64 bits). -/
  rplyIn : Nat := 0
  /-- R138 R150 last cue-mailbox sequence word taken (64 bits). -/
  cueIn : Nat := 0
  /-- R150 the MEMBER_ID that the head gave this device (16 bits). -/
  given : Nat := 0
deriving DecidableEq, Repr

/-- A host ring: network events, packets, error records, snapshots (05_network_and_heddle.md). -/
structure Ring where
  /-- R147 R159 R363 R507 (host address). -/
  base : Nat := 0
  /-- R147 (4-16). -/
  log2 : Nat := 6
  /-- R147 (11 bits). -/
  vector : Nat := 0
  /-- R147 consumer's head (index). -/
  head : Nat := 0
  /-- R147 next entry to write (index). -/
  tail : Nat := 0
  /-- R147 entries written and not returned (entries). -/
  count : Nat := 0
  /-- R147 (1 bit). -/
  phase : Bool := true
deriving DecidableEq, Repr

/-- Ethernet ports, queue pairs, regions and troupe links (05_network_and_heddle.md). -/
structure Net where
  /-- R131 NET_CFG.MODE (2 bits). -/
  mode : Nat := 0
  /-- R133 NET_CFG.PFC_EN (1 bit). -/
  pfcEn : Bool := true
  /-- R132 NET_CFG.FEC_DEG (16 bits). -/
  fecLimit : Nat := 1000
  /-- R131 (16 ports). -/
  ports : List (Nat × Port) := []
  /-- R135 NET_ERR_CNT.BAD_OP (13 bits). -/
  badOp : Nat := 0
  /-- R137 NET_ERR_CNT.ACCESS (13 bits). -/
  access : Nat := 0
  /-- R138 NET_ERR_CNT.MBOX (13 bits). -/
  mbox : Nat := 0
  /-- R143 NET_ERR_CNT.DUP (13 bits). -/
  dup : Nat := 0
  /-- R147 NET_ERR_CNT.EVQ_DROP (12 bits). -/
  evqDrop : Nat := 0
  /-- R135 unreliable datagrams dropped; width not given (counter). -/
  udDrop : Nat := 0
  /-- R147 network event ring (ring record). -/
  evq : Option Ring := none
  /-- R139 (up to 65,536 by index). -/
  qps : List (Nat × Qp) := []
  /-- R137 (up to 4,096 by rkey). -/
  regions : List (Nat × Region) := []
  /-- R137 R141 next rkey, never 0 (32 bits). -/
  nextRkey : Nat := 1
  /-- R148 (up to 1,024). -/
  members : List Member := []
  /-- R147 time of the last LEARN_FAIL record (ns). -/
  learnAt : Option Nat := none
  /-- R147 failures since the last LEARN_FAIL record (count). -/
  learnCnt : Nat := 0
deriving DecidableEq, Repr

/-- One parse-graph node (Table 5.11) (05_network_and_heddle.md). -/
structure GNode where
  /-- R153 (16 bits). -/
  selOff : Nat := 0
  /-- R153 (8 bits). -/
  selWidth : Nat := 0
  /-- R153 (8 bits). -/
  lenMode : Nat := 0
  /-- R153 (16 bits). -/
  lenOff : Nat := 0
  /-- R153 (8 bits). -/
  lenWidth : Nat := 1
  /-- R153 (8 bits). -/
  lenMul : Nat := 0
  /-- R153 (16 bits). -/
  lenAdd : Nat := 0
  /-- R153 (8 bits). -/
  layer : Nat := 255
  /-- R153 (8 bits). -/
  next : Nat := 255
  /-- R153 (1 bit). -/
  noadv : Bool := false
deriving DecidableEq, Repr

/-- One transition (Table 5.12) (05_network_and_heddle.md). -/
structure GTrans where
  /-- R153 (8 bits). -/
  node : Nat := 0
  /-- R153 (8 bits). -/
  next : Nat := 0
  /-- R153 (32 bits). -/
  value : Nat := 0
  /-- R153 (32 bits). -/
  mask : Nat := 0
deriving DecidableEq, Repr

/-- One action record (Table 5.15) (05_network_and_heddle.md). -/
structure HAction where
  /-- R156 (8 bits). -/
  ops : Nat := 0
  /-- R156 (8 bits). -/
  next : Nat := 255
  /-- R156 (8 bits). -/
  userOff : Nat := 50
  /-- R156 (8 bits). -/
  userLen : Nat := 1
  /-- R156 (32 bits). -/
  dest : Nat := 0
  /-- R156 (8 bytes). -/
  value : List (BitVec 8) := []
  /-- R156 (16 bits). -/
  counter : Nat := 0
deriving DecidableEq, Repr

/-- One match-table entry (05_network_and_heddle.md). -/
structure HEntry where
  /-- R157 (32 bits). -/
  prio : Nat := 0
  /-- R157 (40 bytes). -/
  key : List (BitVec 8) := []
  /-- R157 (40 bytes). -/
  mask : List (BitVec 8) := []
  /-- R156 context of an exact entry (context number). -/
  ctx : Nat := 0
  /-- R157 (record). -/
  act : HAction := {}
deriving DecidableEq, Repr

/-- One match table (05_network_and_heddle.md). -/
structure HTable where
  /-- R156 (0-4). -/
  kind : Nat := 0
  /-- R156 (1-4 (source, offset, length)). -/
  keys : List (Nat × Nat × Nat) := []
  /-- R156 (entries). -/
  size : Nat := 0
  /-- R156 (record). -/
  miss : HAction := {}
  /-- R157 (list). -/
  entries : List HEntry := []
deriving DecidableEq, Repr

/-- One flow context (05_network_and_heddle.md). -/
structure Flow where
  /-- R161 (context number). -/
  ctx : Nat := 0
  /-- R161 (table). -/
  table : Nat := 0
  /-- R161 (the symmetric 5-tuple). -/
  key : List (BitVec 8) := []
  /-- R161 the action stored (record). -/
  act : HAction := {}
  /-- R161 direction of the first frame (count). -/
  frames : Nat := 0
  /-- R161 direction of the first frame (count). -/
  bytes : Nat := 0
  /-- R161 reverse direction (count). -/
  framesBack : Nat := 0
  /-- R161 reverse direction (count). -/
  bytesBack : Nat := 0
  /-- R161 (ns). -/
  first : Nat := 0
  /-- R161 (ns). -/
  last : Nat := 0
  /-- R161 the lower endpoint is the source of the first frame (1 bit). -/
  aSrc : Bool := true
deriving DecidableEq, Repr

/-- The Heddle (05_network_and_heddle.md). -/
structure Hed where
  /-- R153 the loaded graph, empty = HED_STAT.BUILTIN (1-256). -/
  nodes : List GNode := []
  /-- R153 (up to 4,096). -/
  trans : List GTrans := []
  /-- R156 (16). -/
  tables : List (Nat × HTable) := []
  /-- R161 (list). -/
  flows : List Flow := []
  /-- R156 (65,536 (frames, bytes)). -/
  counters : List (Nat × Nat × Nat) := []
  /-- R159 host packet rings (256). -/
  rings : List (Nat × Ring) := []
  /-- R159 frames dropped for a full ring; width not given (counter). -/
  ringDrop : Nat := 0
  /-- R160 HED_CFG.SEED (32 bits). -/
  seed : Nat := 0
  /-- R161 HED_CFG.AGE_S (16 bits). -/
  ageS : Nat := 60
  /-- R161 HED_STAT.LEARN_FAIL (1 bit). -/
  learnFail : Bool := false
  /-- R166 HED_ERR_CNT.PARSE_EXC (16 bits). -/
  cParse : Nat := 0
  /-- R158 HED_ERR_CNT.NO_DEST (16 bits). -/
  cNoDest : Nat := 0
  /-- R161 HED_ERR_CNT.LEARN_FAIL (16 bits). -/
  cLearn : Nat := 0
  /-- R158 HED_ERR_CNT.RECIRC_DROP (16 bits). -/
  cRecirc : Nat := 0
  /-- R158 R170 R178 decrypted frames that recirculate ((unit, port, function of the key page, frame)). -/
  recirc : List (Nat × Nat × Nat × List (BitVec 8)) := []
  /-- R88 frames that an intermission holds ((port, frame) in order). -/
  held : List (Nat × List (BitVec 8)) := []
deriving DecidableEq, Repr

/-- The context store (05_network_and_heddle.md). -/
structure Ctx where
  /-- R162 contexts in use (context number -> kind). -/
  kinds : List (Nat × Nat) := []
  /-- R162 (kind -> COUNT). -/
  reserve : List (Nat × Nat) := []
  /-- R163 (up to 16,384). -/
  pinned : List Nat := []
  /-- R162 NET_CTX_STAT.LOW (1 bit). -/
  low : Bool := false
  /-- R162 contents that cp3 reads and writes (256 bytes each). -/
  data : List (Nat × List (BitVec 8)) := []
  /-- R164 contexts with an uncorrectable error (context numbers). -/
  bad : List Nat := []
  /-- R163 contexts in the cache beside the pinned ones, the latest used first (context numbers). -/
  cache : List Nat := []
deriving DecidableEq, Repr

/-- One key page (06_cipher_engine.md). -/
structure KeyPage where
  /-- R172 CIP_KP_STAT.STATE (2 bits). -/
  st : KpState := .empty
  /-- R187 CIP_KP_STAT.MODE (3 bits). -/
  mode : Nat := 0
  /-- R187 (1 bit). -/
  key256 : Bool := false
  /-- R178 (1 bit). -/
  esn : Bool := false
  /-- R178 (1 bit). -/
  tunnel : Bool := false
  /-- R187 AUTH_EV (1 bit). -/
  authEv : Bool := false
  /-- R187 MISMATCH_EV (1 bit). -/
  mismEv : Bool := false
  /-- R169 (8 bits). -/
  owner : Nat := 0
  /-- R187 CIP_KP_SEQ (64 bits). -/
  seq : Nat := 0
  /-- R187 (48 bits). -/
  units : Nat := 0
  /-- R178 (16 bits). -/
  drop : Nat := 0
  /-- R187 (16 bits). -/
  cAuth : Nat := 0
  /-- R178 (16 bits). -/
  cReplay : Nat := 0
  /-- R178 (16 bits). -/
  cNoKey : Nat := 0
  /-- R181 (16 bits). -/
  cMism : Nat := 0
  /-- R178 CIP_KP_WINDOW (1,024 bits). -/
  window : Nat := 0
  /-- R178 (32 bits). -/
  spi : Nat := 0
  /-- R180 (12 bytes). -/
  ivSalt : List (BitVec 8) := []
  /-- R171 the on-die key store (16 or 32 bytes). -/
  key : List (BitVec 8) := []
deriving DecidableEq, Repr

/-- One unit submitted to a cipher lane (06_cipher_engine.md). -/
structure CipUnit where
  /-- R167 (counter). -/
  id : Nat := 0
  /-- R167 (key page). -/
  page : Nat := 0
  /-- R167 R88 (lane 0-15, or 16 while an intermission holds the unit). -/
  lane : Nat := 0
  /-- R167 what the unit belongs to (enum). -/
  use : CipUse := .esp
  /-- R167 R181 its result waits for the units before it (0 running, 1 computed, 2 failed). -/
  fin : Nat := 0
  /-- R181 (1 bit). -/
  rerun : Bool := false
  /-- R180 sequence number taken (64 bits). -/
  seq : Nat := 0
  /-- R167 the lane's buffer (bytes). -/
  data : List (BitVec 8) := []
  /-- R178 (receiving port). -/
  port : Nat := 0
  /-- R178 (byte offset of the ESP header). -/
  espOff : Nat := 0
  /-- R178 when it was submitted (ns). -/
  at_ : Nat := 0
  /-- R178 the outer IP header (byte offset). -/
  ipOff : Nat := 0
  /-- R181 the lane that a rerun keeps away from (lane 0-15). -/
  avoid : Option Nat := none
deriving DecidableEq, Repr

/-- One CIP_CRYPT command in progress (06_cipher_engine.md). -/
structure Crypt where
  /-- R180 (counter). -/
  id : Nat := 0
  /-- R180 (key page). -/
  page : Nat := 0
  /-- R180 (1 bit). -/
  enc : Bool := true
  /-- R180 (8 bits). -/
  ctype : Nat := 0
  /-- R180 (bytes). -/
  frag : Nat := 0
  /-- R180 (GDDR7 address). -/
  src : Nat := 0
  /-- R180 (source bytes left). -/
  left : Nat := 0
  /-- R180 (GDDR7 address). -/
  dst : Nat := 0
  /-- R180 (output bytes left). -/
  room : Nat := 0
  /-- R180 (bytes). -/
  written : Nat := 0
  /-- R180 (count). -/
  records : Nat := 0
deriving DecidableEq, Repr

/-- One tag block in the tag cache (06_cipher_engine.md). -/
structure TagBlk where
  /-- R174 (controller). -/
  ctrl : Nat := 0
  /-- R174 (NSID). -/
  nsid : Nat := 0
  /-- R174 (backing index). -/
  back : Nat := 0
  /-- R174 (remote block). -/
  rblk : Nat := 0
  /-- R174 (4,096 bytes). -/
  data : List (BitVec 8) := []
  /-- R176 (1 bit). -/
  dirty : Bool := false
  /-- R176 data writes not yet acknowledged whose records it changes (count). -/
  busy : Nat := 0
  /-- R176 it is being written to its backing (1 bit). -/
  out : Bool := false
  /-- R176 last use (order). -/
  used : Nat := 0
deriving DecidableEq, Repr

/-- The cipher engine (06_cipher_engine.md). -/
structure Cip where
  /-- R169 (1,024). -/
  pages : List (Nat × KeyPage) := []
  /-- R169 (VF -> pages in the order assigned). -/
  vfPages : List (Nat × List Nat) := []
  /-- R167 (list, in submission order). -/
  units : List CipUnit := []
  /-- R167 (counter). -/
  nextUnit : Nat := 0
  /-- R180 (list). -/
  crypts : List Crypt := []
  /-- R173 loads waiting for submitted units ((page, first later unit, parameters)). -/
  loadWait : List (Nat × Nat × List (BitVec 8)) := []
  /-- R182 (lane -> blocks since reseed). -/
  drbg : List (Nat × Nat) := []
  /-- R182 (lane -> reseeds taken). -/
  seeds : List (Nat × Nat) := []
  /-- R176 the tag cache (up to 4,096). -/
  tags : List TagBlk := []
  /-- R470 migration key in the key store (32 bytes). -/
  migKey : Option (List (BitVec 8)) := none
deriving DecidableEq, Repr

/-- One audio track of a stream as opened (Table 7.3) with its counters (Table 7.5) (07_shuttles.md). -/
structure TrackCfg where
  /-- R192 SELECT (16 bits). -/
  sel : Nat := 0
  /-- R192 LANG (24 bits). -/
  lang : Nat := 0
  /-- R192 OUTPUT (0-5). -/
  output : Nat := 0
  /-- R192 (0-2). -/
  downmix : Nat := 0
  /-- R192 (1-16). -/
  maxch : Nat := 1
  /-- R192 (0-2). -/
  rate : Nat := 0
  /-- R196 A_FRAMES (32 bits). -/
  frames : Nat := 0
  /-- R196 A_BAD (16 bits). -/
  bad : Nat := 0
  /-- R196 A_CH (8 bits). -/
  ch : Nat := 0
  /-- R196 A_CODEC (8 bits). -/
  codec : Nat := 0
  /-- R208 channels beyond MAXCH counted as dropped; width not given (count). -/
  dropCh : Nat := 0
  /-- R208 the audio-and-text unit that serves it (0-63). -/
  unit : Nat := 0
deriving DecidableEq, Repr

/-- One record visible in an output ring and not returned (07_shuttles.md). -/
structure ShuRec where
  /-- R201 (ring offset). -/
  off : Nat := 0
  /-- R201 (bytes of ring space with padding). -/
  len : Nat := 0
  /-- R201 (64 bits). -/
  seq : Nat := 0
  /-- R201 KIND 0 (1 bit). -/
  pad : Bool := false
  /-- R214 (source offset of the unit). -/
  src : Nat := 0
  /-- R257 its consumer needs it no longer and older records are not returned (1 bit). -/
  done : Bool := false
  /-- R255 when it became visible (ns). -/
  made : Nat := 0
deriving DecidableEq, Repr

/-- One open stream (Tables 7.3, 7.5) (07_shuttles.md). -/
structure Stream where
  /-- R192 (function). -/
  owner : Nat := 0
  /-- R196 Table 7.4 (8 bits). -/
  st : Nat := 0
  /-- R196 Table 7.6 (8 bits). -/
  reason : Nat := 0
  /-- R192 (0-2). -/
  srcKind : Nat := 0
  /-- R192 (0-4). -/
  container : Nat := 0
  /-- R192 (1 bit). -/
  mode : Nat := 0
  /-- R192 (0-2). -/
  interlace : Nat := 0
  /-- R209 (0-3). -/
  corrupt : Nat := 0
  /-- R209 (0-100). -/
  concealMax : Nat := 0
  /-- R207 (1 bit). -/
  order : Nat := 0
  /-- R192 SPLIT, NO_VIDEO, ANCHOR (8 bits). -/
  flags : Nat := 0
  /-- R192 (16 bits). -/
  program : Nat := 0
  /-- R192 CODEC_HINT (8 bits). -/
  hint : Nat := 0
  /-- R192 (32 bits). -/
  nsid : Nat := 0
  /-- R192 CONTROLLER (16 bits). -/
  ctrl : Nat := 0
  /-- R192 SRC_OFF (64 bits). -/
  srcOff : Nat := 0
  /-- R192 SRC_LEN (64 bits). -/
  srcLen : Nat := 0
  /-- R192 (GDDR7 address). -/
  inBase : Nat := 0
  /-- R192 (bytes). -/
  inLen : Nat := 0
  /-- R192 OUT_CONSUMER (32 bits). -/
  consumer : Nat := 0
  /-- R192 (GDDR7 address). -/
  outBase : Nat := 0
  /-- R192 (bytes). -/
  outLen : Nat := 0
  /-- R192 (CC608 + 256 x CC708). -/
  captions : Nat := 0
  /-- R192 TTX_PAGE (16 bits). -/
  ttx : Nat := 0
  /-- R192 (16 bits). -/
  dvbsub : Nat := 0
  /-- R192 (0-16). -/
  tracks : List TrackCfg := []
  /-- R196 (8 bits). -/
  codec : Nat := 0
  /-- R197 the shuttle bound (0-63). -/
  shuttle : Option Nat := none
  /-- R196 (16 bits). -/
  width : Nat := 0
  /-- R196 (16 bits). -/
  height : Nat := 0
  /-- R196 (64 bits). -/
  nextSeq : Nat := 0
  /-- R196 source bytes consumed (64 bits). -/
  inDone : Nat := 0
  /-- R195 R213 source bytes that have entered the ring (64 bits). -/
  inTail : Nat := 0
  /-- R199 source offset of the oldest byte the ring keeps (64 bits). -/
  inStart : Nat := 0
  /-- R196 (64 bits). -/
  lastRap : Nat := 0
  /-- R214 RAPs at or after the oldest unreturned record ((source offset, SEQ, DECODE_NUM)). -/
  raps : List (Nat × Nat × Nat) := []
  /-- R202 (ring offset). -/
  outHead : Nat := 0
  /-- R201 (ring offset). -/
  outTail : Nat := 0
  /-- R202 visible records not returned (oldest first). -/
  recs : List ShuRec := []
  /-- R192 the stream context (context number). -/
  ctx : Nat := 0
deriving DecidableEq, Repr

/-- A record decoded and not yet written (07_shuttles.md). -/
structure ShuPend where
  /-- R201 KIND (8 bits). -/
  kind : Nat := 0
  /-- R201 FLAGS (8 bits). -/
  flags : Nat := 0
  /-- R201 TRACK (8 bits). -/
  track : Nat := 0
  /-- R201 (33 bits). -/
  pts : Nat := 0
  /-- R201 SRC_OFF (64 bits). -/
  src : Nat := 0
  /-- R201 CUE_INGEST (64 bits). -/
  cue : Nat := 0
  /-- R201 kind header (64 bytes). -/
  hdr : List (BitVec 8) := []
  /-- R201 payload (bytes). -/
  body : List (BitVec 8) := []
deriving DecidableEq, Repr

/-- A picture decoded and not yet output (07_shuttles.md). -/
structure ShuPic where
  /-- R201 (picture). -/
  pic : Picture := {}
  /-- R201 FLAGS (8 bits). -/
  flags : Nat := 0
  /-- R210 a gap record replaces it (1 bit). -/
  gap : Bool := false
  /-- R201 DECODE_NUM (32 bits). -/
  num : Nat := 0
  /-- R201 CUE_INGEST (64 bits). -/
  cue : Nat := 0
deriving DecidableEq, Repr

/-- The rest of one open stream's context (07_shuttles.md). -/
structure StreamX where
  /-- R196 (32 bits). -/
  concealed : Nat := 0
  /-- R196 (32 bits). -/
  dropped : Nat := 0
  /-- R196 (32 bits). -/
  reparsed : Nat := 0
  /-- R195 (bytes, read in KiB). -/
  inDrop : Nat := 0
  /-- R209 (32 bits). -/
  discont : Nat := 0
  /-- R209 FLAGS.DISCONT is due on the next record (1 bit). -/
  discontNext : Bool := false
  /-- R213 FLAGS.END was given (1 bit). -/
  endMark : Bool := false
  /-- R212 per 64 KiB segment ((segment, CRC-32C)). -/
  crcs : List (Nat × Nat) := []
  /-- R212 segments read again from the namespace once (segments). -/
  reread : List Nat := []
  /-- R209 DROP_TO_RAP in progress (1 bit). -/
  toRap : Bool := false
  /-- R202 DECODE_NUM of the next picture (32 bits). -/
  decodeNum : Nat := 0
  /-- R211 ((CORRUPT, CONCEAL_MAX, MODE, ORDER)). -/
  pendPolicy : Option (Nat × Nat × Nat × Nat) := none
  /-- R194 first live input, no PMT, header or moov found yet (ns). -/
  firstIn : Option Nat := none
  /-- R194 the program was found (1 bit). -/
  found : Bool := false
  /-- R200 stopped at its record boundary by a freeze (1 bit). -/
  frozen : Bool := false
  /-- R192 (ns). -/
  openAt : Nat := 0
  /-- R199 sequence number of the next record decoded; those below NEXT_SEQ are not written again (64 bits). -/
  decSeq : Nat := 0
  /-- R202 records decoded that wait for room in the output ring (in stream order). -/
  outq : List ShuPend := []
  /-- R203 R207 pictures that wait for their turn in display order (in decode order). -/
  dpb : List ShuPic := []
  /-- R204 a field that waits for its partner under WEAVE (first field of a pair). -/
  field : Option ShuPic := none
  /-- R210 pictures concealed, replaced or tainted since the last RAP (DECODE_NUMs). -/
  badPics : List Nat := []
  /-- R212 the segment being read again (segment). -/
  want : Option Nat := none
  /-- R201 cue position when the bytes from an offset entered ((source offset, CUE_POS)). -/
  ingest : List (Nat × Nat) := []
  /-- R195 R199 where bytes were last dropped (source offset). -/
  dropAt : Option Nat := none
  /-- R195 R212 damaged stretches of the input not yet consumed ((first offset, offset after)). -/
  hurts : List (Nat × Nat) := []
  /-- R194 the input so far, until the program is found (bytes). -/
  head : List (BitVec 8) := []
  /-- R199 the shuttle that the stream leaves (0-63). -/
  left : Option Nat := none
  /-- R198 shuttles of the latest segments of a split stream, the newest first (up to 7). -/
  team : List Nat := []
  /-- R210 reference pictures since the last closed RAP, the newest first (up to 16). -/
  store : List ShuPic := []
  /-- R203 R207 pictures since the last RAP that have left, the newest first ((DECODE_NUM, PTS), up to 64). -/
  shown : List (Nat × Nat) := []
deriving DecidableEq, Repr

/-- SHU_MEL_CFGn (Table 7.17) (07_shuttles.md). -/
structure MelCfg where
  /-- R216 FFT (2 bits). -/
  fft : Nat := 1
  /-- R216 BINS (8 bits). -/
  bins : Nat := 80
  /-- R216 WIN (12 bits). -/
  win : Nat := 400
  /-- R216 HOP (12 bits). -/
  hop : Nat := 160
  /-- R216 BF16 (1 bit). -/
  bf16 : Bool := false
  /-- R216 RATE (1 bit). -/
  rate : Nat := 0
  /-- R216 FMAX (16 bits). -/
  fmax : Nat := 800
deriving DecidableEq, Repr

/-- SHU_SH_STATn beyond what R344 gives every unit (07_shuttles.md). -/
structure ShuUnit where
  /-- R216 LOAD ((ns, busy cycles) of the last 1 ms). -/
  busy : List (Nat × Nat) := []
deriving DecidableEq, Repr

/-- The shuttle block (07_shuttles.md). -/
structure Shu where
  /-- R192 (up to 16,384). -/
  streams : List (Nat × Stream) := []
  /-- R196 (up to 16,384). -/
  streamx : List (Nat × StreamX) := []
  /-- R216 SHU_MEL_CFGn (4). -/
  mel : List MelCfg := [{}, {}, {}, {}]
  /-- R216 SHU_SH_STATn (64). -/
  units : List (Nat × ShuUnit) := []
  /-- R216 SHU_ERR_CNT.REPARSE (16 bits). -/
  reparse : Nat := 0
  /-- R216 SHU_ERR_CNT.ATTRIB (16 bits). -/
  attrib : Nat := 0
  /-- R216 SHU_ERR_CNT.IN_CRC (16 bits). -/
  inCrc : Nat := 0
  /-- R216 SHU_ERR_CNT.CONCEAL (16 bits). -/
  conceal : Nat := 0
deriving DecidableEq, Repr

/-- One check report (Table 8.10) (08_tapestry_arithmetic.md). -/
structure ChkRep where
  /-- R243 SLICES (32 bits). -/
  slices : Nat := 0
  /-- R243 NANINF (32 bits). -/
  nanInf : Nat := 0
  /-- R243 MAG_SEEN (FP32). -/
  mag : Nat := 0
  /-- R243 NORM_LO, +Inf when no row has been judged (FP32). -/
  normLo : Nat := 0x7F800000
  /-- R243 NORM_HI (FP32). -/
  normHi : Nat := 0
  /-- R243 CODE_HI (32 bits). -/
  codeHi : Nat := 0
  /-- R243 SAT (32 bits). -/
  sat : Nat := 0
  /-- R243 VIOL (16 bits). -/
  viol : Nat := 0
  /-- R243 CHARGED (16 bits). -/
  charged : Nat := 0
  /-- R243 DATA_VIOL (16 bits). -/
  dataViol : Nat := 0
  /-- R243 THIRD (16 bits). -/
  third : Nat := 0
  /-- R243 FIRST_CORE (unit ID). -/
  firstCore : Nat := 0
  /-- R243 FIRST_POS (cue position). -/
  firstPos : Nat := 0
  /-- R243 SEED_USED (64 bits). -/
  seed : Nat := 0
deriving DecidableEq, Repr

/-- One loaded tokenizer program (09_tapestry_programs.md). -/
structure Prog where
  /-- R250 (function). -/
  owner : Nat := 0
  /-- R246 the image in the program store (up to 1 MiB). -/
  image : List (BitVec 8) := []
  /-- R252 runs begun since it was loaded (64 bits). -/
  invoc : Nat := 0
  /-- R248 squared codeword norms kept with each codebook ((operation, FP32 values)). -/
  norms : List (Nat × List Nat) := []
  /-- R250 resident tensors, the same in every core in service ((tensor, bytes)). -/
  res : List (Nat × List (BitVec 8)) := []
deriving DecidableEq, Repr

/-- One item of work: a tile, a share of a tile or a combine (09_tapestry_programs.md). -/
structure TapItem where
  /-- R260 (tile index). -/
  tile : Nat := 0
  /-- R264 (0 = split not fixed, else 1-16). -/
  shares : Nat := 0
  /-- R260 (share number). -/
  share : Nat := 0
  /-- R260 (1 bit). -/
  combine : Bool := false
  /-- R264 the split of its tile is fixed (1 bit). -/
  fixed : Bool := false
  /-- R264 returned by an abandoned slice (1 bit). -/
  back : Bool := false
deriving DecidableEq, Repr

/-- The check outcome of one computation of a slice (R239) (08_tapestry_arithmetic.md). -/
structure Outcome8 where
  /-- R239 the core that computed it (0-63). -/
  core : Nat := 0
  /-- R238 checks that failed (5 bits). -/
  failed : Nat := 0
  /-- R238 (32 bits). -/
  nanInf : Nat := 0
  /-- R238 (32 bits). -/
  sat : Nat := 0
  /-- R239 (FP32). -/
  mag : Nat := 0
  /-- R239 (FP32). -/
  normLo : Nat := 0x7F800000
  /-- R239 (FP32). -/
  normHi : Nat := 0
  /-- R239 (32 bits). -/
  codeHi : Nat := 0
  /-- R262 the uncommitted results (FP32 results or codes). -/
  data : List Nat := []
deriving DecidableEq, Repr

/-- A slice that waits for a violation decision (09_tapestry_programs.md). -/
structure Judge where
  /-- R265 (record). -/
  item : TapItem := {}
  /-- R239 (1-3 computations). -/
  outs : List Outcome8 := []
  /-- R239 cores that have computed it (cores). -/
  avoid : List Nat := []
  /-- R242 a computation went to a core that had computed it (1 bit). -/
  alone : Bool := false
  /-- R266 first partials ((share, core, partial)). -/
  old : List (Nat × Nat × List Nat) := []
  /-- R266 second partials ((share, core, partial)). -/
  new : List (Nat × Nat × List Nat) := []
  /-- R266 cores whose partial differed (cores). -/
  differ : List Nat := []
deriving DecidableEq, Repr

/-- The slice that one core runs (09_tapestry_programs.md). -/
structure Running where
  /-- R261 (record). -/
  item : TapItem := {}
  /-- R261 (ns). -/
  start : Nat := 0
  /-- R239 computes a waiting slice again (1 bit). -/
  rerun : Bool := false
deriving DecidableEq, Repr

/-- One run of a program (09_tapestry_programs.md). -/
structure TapRun where
  /-- R251 (counter). -/
  id : Nat := 0
  /-- R251 (handle). -/
  prog : Nat := 0
  /-- R251 (0-3). -/
  prio : Nat := 0
  /-- R253 (function). -/
  fn : Nat := 0
  /-- R255 (queue number). -/
  queue : Option Nat := none
  /-- R251 (operation index). -/
  op : Nat := 0
  /-- R252 (1 bit). -/
  begun : Bool := false
  /-- R252 (64 bits). -/
  invoc : Nat := 0
  /-- R253 ((tensor, staging address)). -/
  binds : List (Nat × Nat) := []
  /-- R253 (staging address). -/
  scratch : Nat := 0
  /-- R253 (host address). -/
  report : Nat := 0
  /-- R251 FLAGS.SNAPSHOT (1 bit). -/
  snap : Bool := false
  /-- R230 ((operation, seed)). -/
  seedUsed : List (Nat × Nat) := []
  /-- R269 blocks on which IMPLAUSIBLE is due ((tensor, unit)). -/
  flagged : List (Nat × Nat) := []
  /-- R255 units of a queue run ((stream, SEQ) of every record in unit order). -/
  units : List (Nat × Nat) := []
  /-- R268 (cue position). -/
  cueStart : Nat := 0
  /-- R243 ((operation, report)). -/
  reports : List (Nat × ChkRep) := []
  /-- R247 transient tensors and output rows in the run's scratch ((tensor, bytes)). -/
  temps : List (Nat × List (BitVec 8)) := []
  /-- R257 its operations are done and its blocks wait for room (1 bit). -/
  ending : Bool := false
  /-- R259 waits for its inputs after a partition reset (1 bit). -/
  hold : Bool := false
  /-- R270 (count). -/
  coresMin : Nat := 64
  /-- R270 (64 bits). -/
  maskUsed : Nat := 0
  /-- R270 the start half of its snapshot has been latched (1 bit). -/
  snapDone : Bool := false
  /-- R257 token blocks that wait for room in the ring ((first record of the unit, block)). -/
  blocks : List ((Nat × Nat) × List (BitVec 8)) := []
  /-- R257 units whose block is complete and has gone, or waits to go, to its destination (first record of each). -/
  sent : List (Nat × Nat) := []
deriving DecidableEq, Repr

/-- One program queue (09_tapestry_programs.md). -/
structure TapQueue where
  /-- R255 (function). -/
  owner : Nat := 0
  /-- R255 the program bound (handle). -/
  prog : Option Nat := none
  /-- R255 (0-3). -/
  prio : Nat := 0
  /-- R255 (1-16). -/
  group : Nat := 1
  /-- R255 (1-65,536). -/
  runUnits : Nat := 1
  /-- R255 (32 bits). -/
  waitUs : Nat := 0
  /-- R255 (0-1). -/
  destKind : Nat := 0
  /-- R255 (warp number). -/
  destIndex : Nat := 0
  /-- R255 (staging address). -/
  ringBase : Nat := 0
  /-- R255 (bytes). -/
  ringLen : Nat := 0
  /-- R257 (ring offset). -/
  ringHead : Nat := 0
  /-- R257 (ring offset). -/
  ringTail : Nat := 0
  /-- R255 (staging address). -/
  scratch : Nat := 0
  /-- R258 (host address). -/
  report : Nat := 0
  /-- R255 records waiting ((stream, SEQ, arrival ns) in arrival order). -/
  waiting : List (Nat × Nat × Nat) := []
  /-- R272 units dropped since the last TAP_GET_QUEUE (16 bits). -/
  dropped : Nat := 0
  /-- R258 (1 bit). -/
  unbinding : Bool := false
  /-- R258 ((operation, report)). -/
  reports : List (Nat × ChkRep) := []
deriving DecidableEq, Repr

/-- The Tapestry (09_tapestry_programs.md). -/
structure Tap where
  /-- R250 (up to 256). -/
  progs : List (Nat × Prog) := []
  /-- R255 (256). -/
  queues : List (Nat × TapQueue) := []
  /-- R251 (in arrival order). -/
  runs : List TapRun := []
  /-- R251 (counter). -/
  nextRun : Nat := 0
  /-- R251 the run whose operation is in progress (run ID). -/
  cur : Option Nat := none
  /-- R264 items not started, before they are dealt (W). -/
  items : List TapItem := []
  /-- R264 (core -> its list). -/
  lists : List (Nat × List TapItem) := []
  /-- R261 (core -> its slice). -/
  running : List (Nat × Running) := []
  /-- R262 the partial area ((tile, share, core, partial)). -/
  parts : List (Nat × Nat × Nat × List Nat) := []
  /-- R267 committed tiles of the operation (tiles). -/
  tilesDone : List Nat := []
  /-- R239 slices waiting for a decision (list). -/
  judges : List Judge := []
  /-- R274 the core set (TAP_INSERVICE_MASK, 64 bits). -/
  inSet : List Nat := [0, 1, 2, 3, 4, 5, 6, 7, 8, 9, 10, 11, 12, 13, 14, 15, 16, 17, 18, 19, 20, 21, 22, 23, 24, 25, 26, 27, 28, 29, 30, 31, 32, 33, 34, 35, 36, 37, 38, 39, 40, 41, 42, 43, 44, 45, 46, 47, 48, 49, 50, 51, 52, 53, 54, 55, 56, 57, 58, 59, 60, 61, 62, 63]
  /-- R264 cores whose test is due and whose slice runs (cores). -/
  testDue : List Nat := []
  /-- R274 cores out for test (TAP_TEST_MASK, 64 bits). -/
  testOut : List Nat := []
  /-- R241 charges held until the core returns ((core, operation)). -/
  heldCharge : List (Nat × Nat) := []
  /-- R274 TAP_EVT.FENCE_EV (1 bit). -/
  evFence : Bool := false
  /-- R274 TAP_EVT.TEST_EV (1 bit). -/
  evTest : Bool := false
  /-- R274 TAP_EVT.REC_ERR_EV (1 bit). -/
  evRec : Bool := false
  /-- R274 TAP_EVT.OVERRUN_EV (1 bit). -/
  evOver : Bool := false
  /-- R274 TAP_REPART_CNT.REPART (32 bits). -/
  repart : Nat := 0
  /-- R274 TAP_REPART_CNT.ABANDON (32 bits). -/
  abandon : Nat := 0
  /-- R274 TAP_POLICY.POWER_W (9 bits). -/
  powerW : Nat := 260
  /-- R244 TAP_CHK_CNT.VIOL (16 bits). -/
  cViol : Nat := 0
  /-- R244 TAP_CHK_CNT.CHARGED (16 bits). -/
  cCharged : Nat := 0
  /-- R244 TAP_CHK_CNT.DATA (16 bits). -/
  cData : Nat := 0
  /-- R244 TAP_CHK_CNT.THIRD (16 bits). -/
  cThird : Nat := 0
  /-- R244 TAP_CHK_STAT.VIOL_EV (1 bit). -/
  evViol : Bool := false
  /-- R244 TAP_CHK_STAT.DATA_EV (1 bit). -/
  evData : Bool := false
  /-- R244 TAP_CHK_STAT.FAIL_EV (1 bit). -/
  evFail : Bool := false
  /-- R239 R266 items wanted a second or third time (in order). -/
  redo : List TapItem := []
  /-- R238 rows judged in part ((row, FP32 sum of squares, elements)). -/
  rowSq : List (Nat × Nat × Nat) := []
deriving DecidableEq, Repr

/-- The Tapestry counter group (Table 9.12) (09_tapestry_programs.md). -/
structure TapCnt where
  /-- R270 BUSY_CYCLES (64 bits). -/
  busy : Nat := 0
  /-- R270 MACS (64 bits). -/
  macs : Nat := 0
  /-- R270 SLICES (32 bits). -/
  slices : Nat := 0
  /-- R270 ABANDONED (32 bits). -/
  abandoned : Nat := 0
  /-- R270 RERUNS (32 bits). -/
  reruns : Nat := 0
  /-- R270 REPART (16 bits). -/
  repart : Nat := 0
deriving DecidableEq, Repr

/-- One warp of a Loom job (Table 10.2) (10_loom.md). -/
structure Warp where
  /-- R275 device warp number (0-4,095). -/
  num : Nat := 0
  /-- R276 (0-1). -/
  kind : Nat := 0
  /-- R276 (8 bits). -/
  modality : Nat := 0
  /-- R276 N (1 to 2^40). -/
  count : Nat := 1
  /-- R276 (32 bits). -/
  nsid : Nat := 0
  /-- R276 (16 bits). -/
  ctrl : Nat := 0
  /-- R276 (4 bits). -/
  drop : Nat := 0
  /-- R276 (1 bit). -/
  swap : Bool := false
  /-- R276 (1 bit). -/
  raw : Bool := false
  /-- R276 (64 bits). -/
  indexOff : Nat := 0
  /-- R276 (32 bits). -/
  maxLen : Nat := 0
  /-- R276 (8 bits). -/
  tkind : Nat := 0
  /-- R276 (8 bits). -/
  format : Nat := 0
  /-- R276 (8 bits). -/
  groups : Nat := 0
  /-- R276 (32 bits). -/
  dim : Nat := 0
  /-- R276 (24 bits). -/
  dataset : Nat := 0
  /-- R298 NEXT_SRC (64 bits). -/
  nextSrc : Nat := 0
  /-- R279 admissions of a STREAMED warp (30 bits). -/
  admits : Nat := 0
  /-- R283 R298 reference step, position and share in force from a step on ((first step, SREF, POS0, G), newest last). -/
  segs : List (Nat × Nat × Nat × Nat) := []
deriving DecidableEq, Repr

/-- One resident sample (Table 10.3) (10_loom.md). -/
structure Sample where
  /-- R279 SAMPLE_ID (64 bits). -/
  sid : Nat := 0
  /-- R279 (32 bits). -/
  stream : Nat := 0
  /-- R279 (job warp index). -/
  warp : Nat := 0
  /-- R279 (8 bits). -/
  modality : Nat := 0
  /-- R279 (8 bits). -/
  flags : Nat := 0
  /-- R279 (64 bits). -/
  cueIngest : Nat := 0
  /-- R279 (CRC-64). -/
  check : Nat := 0
  /-- R279 PAYLOAD_LEN (bytes). -/
  len : Nat := 0
  /-- R279 (8 bits). -/
  tkind : Nat := 0
  /-- R279 (8 bits). -/
  format : Nat := 0
  /-- R279 (8 bits). -/
  groups : Nat := 0
  /-- R279 (32 bits). -/
  rows : Nat := 0
  /-- R279 (32 bits). -/
  dim : Nat := 0
  /-- R279 (32 bits). -/
  rowBytes : Nat := 0
  /-- R279 (32 bits). -/
  epoch : Nat := 0
  /-- R279 (64 bits). -/
  position : Nat := 0
  /-- R279 (64 bits). -/
  pts : Nat := 0
  /-- R279 (64 bits). -/
  seqFirst : Nat := 0
  /-- R279 (64 bits). -/
  step : Nat := 0
  /-- R279 (rank). -/
  origin : Nat := 0
  /-- R278 payload pages (64 KiB pages). -/
  pages : List Nat := []
  /-- R278 (header slot). -/
  slot : Nat := 0
  /-- R278 batches that reference it (count). -/
  refs : Nat := 0
  /-- R292 order in which it was last woven, 0 = not woven (counter). -/
  wovenAt : Nat := 0
  /-- R289 it lies in landing pages of another member (1 bit). -/
  landing : Bool := false
  /-- R283 (absolute position). -/
  abs : Nat := 0
  /-- R280 R319 it failed in the gather and counts as absent, while batches still list it (1 bit). -/
  gone : Bool := false
deriving DecidableEq, Repr

/-- One INDEXED position being fetched, or missing (10_loom.md). -/
structure Fetch where
  /-- R285 (job warp index). -/
  warp : Nat := 0
  /-- R283 (absolute position). -/
  abs : Nat := 0
  /-- R285 (step it serves). -/
  step : Nat := 0
  /-- R283 (0 to G - 1). -/
  k : Nat := 0
  /-- R285 (0 index read, 1 payload read, 2 expected by exchange, 3 dropped or absent, 4 waits for pages). -/
  stage : Nat := 0
  /-- R280 fetches after a failed check (count). -/
  tries : Nat := 0
  /-- R285 OFFSET of its index entry (64 bits). -/
  offset : Nat := 0
  /-- R285 (32 bits). -/
  len : Nat := 0
  /-- R285 (32 bits). -/
  crc : Nat := 0
  /-- R290 (1 bit). -/
  rescue : Bool := false
  /-- R285 payload that waits for pages (bytes). -/
  data : List (BitVec 8) := []
  /-- R279 cue position at which the read was issued (cue position). -/
  cue : Nat := 0
  /-- R288 member that hosts the consumer (rank). -/
  dest : Nat := 0
deriving DecidableEq, Repr

/-- One woven batch (10_loom.md). -/
structure Batch where
  /-- R294 BATCH_ID (64 bits). -/
  id : Nat := 0
  /-- R294 (handle). -/
  job : Nat := 0
  /-- R294 (16 bits). -/
  consumer : Nat := 0
  /-- R294 (40 bits). -/
  step : Nat := 0
  /-- R294 (8 bits). -/
  flags : Nat := 0
  /-- R294 ((sample number, k, flags)). -/
  entries : List (Nat × Nat × Nat) := []
  /-- R294 (64 bits). -/
  cueWoven : Nat := 0
  /-- R295 entries that the batches before it carried to it (list of (sample number, k, flags)). -/
  carried : List (Nat × Nat × Nat) := []
  /-- R318 (1 bit). -/
  redelivered : Bool := false
  /-- R291 the consumer's ring (ring). -/
  ring : Nat := 0
  /-- R294 FLAGS.SHORT before the gather (1 bit). -/
  short : Bool := false
  /-- R294 cue generation at the weave (8 bits). -/
  gen : Nat := 0
deriving DecidableEq, Repr

/-- One Loom job (Table 10.1) (10_loom.md). -/
structure Job where
  /-- R275 (function). -/
  owner : Nat := 0
  /-- R275 (32 bits). -/
  jobId : Nat := 0
  /-- R275 (1-1,024). -/
  members : Nat := 1
  /-- R275 (16 bits). -/
  rank : Nat := 0
  /-- R275 C (1-8,192). -/
  consumers : Nat := 1
  /-- R275 (0-1). -/
  format : Nat := 0
  /-- R275 (0-2). -/
  fill : Nat := 0
  /-- R275 (MiB). -/
  bufMib : Nat := 2
  /-- R275 (64 bits). -/
  key : Nat := 0
  /-- R275 (40 bits). -/
  s0 : Nat := 0
  /-- R275 (phases). -/
  lead : Nat := 131072
  /-- R275 (phases). -/
  cutPh : Nat := 8192
  /-- R275 (µs). -/
  pipeUs : Nat := 0
  /-- R275 (1-64). -/
  fetchSteps : Nat := 4
  /-- R275 (phases). -/
  rescuePh : Nat := 16384
  /-- R275 (1-65,536). -/
  seqTokens : Nat := 0
  /-- R275 (32 bits). -/
  rowsMax : Nat := 0
  /-- R275 (MiB). -/
  xchgMib : Nat := 256
  /-- R278 job region (GDDR7 address). -/
  base : Nat := 0
  /-- R278 header array (GDDR7 address). -/
  hdrBase : Nat := 0
  /-- R299 (1 bit). -/
  started : Bool := false
  /-- R299 (1 bit). -/
  layoutSet : Bool := false
  /-- R291 ((ADDR_TYPE, address) per rank). -/
  addrs : List (Nat × List (BitVec 8)) := []
  /-- R291 ((MEMBER, RING) per consumer). -/
  table : List (Nat × Nat) := []
  /-- R333 changes of the table, each from its step on ((step, from, change, MEMBER, RING)). -/
  nextTables : List (Nat × Nat × Nat × Nat × Nat) := []
  /-- R276 (in order added). -/
  warps : List Warp := []
  /-- R278 resident samples (by internal number). -/
  samples : List (Nat × Sample) := []
  /-- R285 positions being fetched or missing (list). -/
  fetches : List Fetch := []
  /-- R285 R331 first step for which fetching has not begun, E_M (step). -/
  fetchNext : Nat := 0
  /-- R286 next step to weave ((ring, step)). -/
  weaveNext : List (Nat × Nat) := []
  /-- R331 fetch holds ((FROM, ROUND, RING, step)). -/
  holdFrom : List (Nat × Nat × Nat × Nat) := []
  /-- R296 (woven and not yet handed over). -/
  woven : List Batch := []
  /-- R299 (counter). -/
  wovenCnt : Nat := 0
  /-- R278 (pages freed). -/
  freePages : List Nat := []
deriving DecidableEq, Repr

/-- The rest of one Loom job: the exchange with other members and page use (10_loom.md). -/
structure JobX where
  /-- R278 (first page never used). -/
  pageNext : Nat := 0
  /-- R278 (first header slot never used). -/
  slotNext : Nat := 0
  /-- R278 (slots freed). -/
  freeSlots : List Nat := []
  /-- R288 exchange queue pairs ((rank, QPN)). -/
  xqps : List (Nat × Nat) := []
  /-- R288 exchange mailbox (rkey). -/
  xmbox : Nat := 0
  /-- R330 layout mailbox (rkey). -/
  lmbox : Nat := 0
  /-- R289 (rank -> first page this member grants it). -/
  granted : List (Nat × Nat) := []
  /-- R295 (ring -> entries carried). -/
  carry : List (Nat × List (Nat × Nat × Nat)) := []
  /-- R299 (1 bit). -/
  closing : Bool := false
  /-- R290 ((warp, absolute position) admitted for open steps). -/
  done : List (Nat × Nat) := []
  /-- R292 (counter). -/
  wovenOrd : Nat := 0
  /-- R296 (count). -/
  abandonGen : Nat := 0
  /-- R289 (rank -> landing pages held there and not used). -/
  freeLand : List (Nat × List Nat) := []
  /-- R288 records that wait for landing pages ((rank, number, record) in order). -/
  sendq : List (Nat × Nat × List (BitVec 8)) := []
  /-- R138 R288 last exchange notice taken (rank -> sequence word). -/
  xin : List (Nat × Nat) := []
  /-- R138 R288 last exchange notice sent (rank -> sequence word). -/
  xout : List (Nat × Nat) := []
  /-- R138 R330 last layout notice taken (rank -> sequence word). -/
  lin : List (Nat × Nat) := []
  /-- R138 R330 last layout notice sent (rank -> sequence word). -/
  lout : List (Nat × Nat) := []
  /-- R288 R330 what the peers registered ((rank, exchange rkey, layout rkey, landing rkey)). -/
  peers : List (Nat × Nat × Nat × Nat) := []
  /-- R289 landing regions of this member (rank -> rkey). -/
  landing : List (Nat × Nat) := []
  /-- R278 number of the next resident sample (counter). -/
  sampleNo : Nat := 0
  /-- R291 layouts set in intermissions, each from its step on ((step, table), newest last). -/
  newTables : List (Nat × List (Nat × Nat)) := []
  /-- R278 bytes of the job's region and header array (bytes). -/
  size : Nat := 0
  /-- R289 records asked for again ((sender, warp, absolute position)). -/
  asked : List (Nat × Nat × Nat) := []
  /-- R292 weaves that have closed with samples missing and wait for them ((ring, step)). -/
  waits : List (Nat × Nat) := []
  /-- R297 first step whose positions this member has not yet sent to others, as a reset of the shuffle buffer leaves it (step). -/
  sentNext : Nat := 0
  /-- R297 exchanged positions that had arrived before a reset of the shuffle buffer and are asked for again ((warp, absolute position)). -/
  lost : List (Nat × Nat) := []
  /-- R332 R334 rings whose consumer has departed, and the step from which the table leaves it out, none while it stays there (ring -> step). -/
  departed : List (Nat × Option Nat) := []
deriving DecidableEq, Repr

/-- A token block that a Tapestry queue hands over (10_loom.md). -/
structure Offer where
  /-- R257 the run that made it (run). -/
  run : Nat := 0
  /-- R277 DEST_INDEX of the queue (0-4,095). -/
  warp : Nat := 0
  /-- R280 failed checks (0-1). -/
  fails : Nat := 0
  /-- R292 it waits for pages (1 bit). -/
  waits : Bool := false
  /-- R268 (bytes). -/
  block : List (BitVec 8) := []
deriving DecidableEq, Repr

/-- The Loom (10_loom.md). -/
structure Loom where
  /-- R275 (up to 64). -/
  jobs : List (Nat × Job) := []
  /-- R288 (up to 64). -/
  jobx : List (Nat × JobX) := []
  /-- R300 LOOM_EVT.FILL_EV (1 bit). -/
  evFill : Bool := false
  /-- R300 LOOM_EVT.LATE_EV (1 bit). -/
  evLate : Bool := false
  /-- R300 LOOM_EVT.RESCUE_EV (1 bit). -/
  evRescue : Bool := false
  /-- R300 LOOM_EVT.GEN_EV (1 bit). -/
  evGen : Bool := false
  /-- R300 LOOM_ERR_CNT.CHECK (16 bits). -/
  cCheck : Nat := 0
  /-- R300 LOOM_ERR_CNT.FLAG_DROP (16 bits). -/
  cFlag : Nat := 0
  /-- R300 LOOM_ERR_CNT.SHAPE (16 bits). -/
  cShape : Nat := 0
  /-- R300 LOOM_ERR_CNT.LATE (16 bits). -/
  cLate : Nat := 0
  /-- R300 LOOM_ERR_CNT2.DUP (16 bits). -/
  cDup : Nat := 0
  /-- R300 LOOM_ERR_CNT2.UNDERRUN (16 bits). -/
  cUnder : Nat := 0
  /-- R300 LOOM_ERR_CNT2.RESCUE (16 bits). -/
  cRescue : Nat := 0
  /-- R300 LOOM_ERR_CNT2.FILLED (16 bits). -/
  cFilled : Nat := 0
  /-- R257 R292 blocks that Tapestry queues hand over, in order (list). -/
  offered : List Offer := []
deriving DecidableEq, Repr

/-- One feed port (11_delivery.md). -/
structure FeedPort where
  /-- R337 FEED_PORT_CFG.EN (1 bit). -/
  en : Bool := true
  /-- R337 FEED_PORT_CFG.BIFURCATE (1 bit). -/
  halved : Bool := false
  /-- R337 FEED_PORT_CFG.MPS (2 bits). -/
  mps : Nat := 2
  /-- R337 FEED_PORT_CFG.LATCH_ADDR (64 bits). -/
  latchAddr : Nat := 0xFF0000000000
  /-- R322 deliveries issued of each class in the round of service in progress (class -> count). -/
  served : List (Nat × Nat) := []
deriving DecidableEq, Repr

/-- One function of an accelerator, as enumeration configured it (11_delivery.md). -/
structure AccFn where
  /-- R302 bus number in the point's private hierarchy (8 bits). -/
  bus : Nat := 0
  /-- R302 places of its memory BARs in the private window, by BAR (addresses). -/
  bars : List Nat := []
  /-- R302 Memory Space Enable (1 bit). -/
  mse : Bool := false
  /-- R302 Bus Master Enable (1 bit). -/
  bme : Bool := false
  /-- R302 Max Payload Size code: 0 = 128, 1 = 256, 2 = 512 bytes (3 bits). -/
  mps : Nat := 0
deriving DecidableEq, Repr

/-- One attachment point (11_delivery.md). -/
structure Acc where
  /-- R304 FEED_ACC_STAT.STATE (8 bits). -/
  st : Nat := 0x11
  /-- R337 ARRIVE_EV (1 bit). -/
  arriveEv : Bool := false
  /-- R337 DEPART_EV (1 bit). -/
  departEv : Bool := false
  /-- R337 ENUM_FAIL (1 bit). -/
  enumFail : Bool := false
  /-- R337 OWNER (8 bits). -/
  owner : Nat := 0
  /-- R308 it was admitted to OWNER (1 bit). -/
  owned : Bool := false
  /-- R337 (4 bits). -/
  speed : Nat := 0
  /-- R337 (4 bits). -/
  width : Nat := 0
  /-- R337 (16 bits). -/
  vendor : Nat := 0
  /-- R337 (16 bits). -/
  device : Nat := 0
  /-- R304 (pin FPn_PERST_N low). -/
  perst : Bool := true
  /-- R304 PERST# release, or the failed attempt (ns). -/
  since : Nat := 0
  /-- R304 a new attempt waits 10 s (1 bit). -/
  retry : Bool := false
  /-- R307 (1 bit). -/
  releasing : Bool := false
  /-- R302 configuration of its functions, as enumeration set it (list). -/
  funcs : List AccFn := []
deriving DecidableEq, Repr

/-- One issued delivery (11_delivery.md). -/
structure Delivery where
  /-- R315 (32 bits). -/
  n : Nat := 0
  /-- R328 RG at issue (16 bits). -/
  rg : Nat := 1
  /-- R319 (record). -/
  batch : Batch := {}
  /-- R328 (0 ISSUED, 1 UNCERTAIN, 2 CHECKING, 3 REWRITE). -/
  state : Nat := 0
  /-- R320 the body completed after the deadline (1 bit). -/
  late : Bool := false
  /-- R314 descriptor FLAGS (16 bits). -/
  flags : Nat := 0
  /-- R321 (1 bit). -/
  empty : Bool := false
deriving DecidableEq, Repr

/-- One slot ring (Table 11.4) (11_delivery.md). -/
structure FRing where
  /-- R313 (function). -/
  owner : Nat := 0
  /-- R314 (0-3). -/
  st : Nat := 0
  /-- R318 state before RESETTING (0-2). -/
  prev : Nat := 0
  /-- R312 (0-7). -/
  accel : Nat := 0
  /-- R312 (0-1). -/
  transport : Nat := 0
  /-- R312 (0-3). -/
  prio : Nat := 0
  /-- R312 (0-5). -/
  dataBar : Nat := 0
  /-- R312 (2-256). -/
  slots : Nat := 2
  /-- R313 (latch). -/
  latch : Nat := 0
  /-- R312 (bytes). -/
  slotBytes : Nat := 4096
  /-- R312 (64 bits). -/
  dataOff : Nat := 0
  /-- R312 (64 bits). -/
  descOff : Nat := 0
  /-- R312 NOTIFY_OFF (64 bits). -/
  notify : Nat := 0xFFFFFFFFFFFFFFFF
  /-- R312 (0-5). -/
  descBar : Nat := 0
  /-- R323 (16 bits). -/
  staleSteps : Nat := 0
  /-- R326 (24 bits). -/
  qpn : Nat := 0
  /-- R326 (32 bits). -/
  dataRkey : Nat := 0
  /-- R326 (32 bits). -/
  descRkey : Nat := 0
  /-- R313 ring generation (16 bits). -/
  rg : Nat := 1
  /-- R315 highest number issued (32 bits). -/
  n : Nat := 0
  /-- R312 highest number landed (32 bits). -/
  landed : Nat := 0
  /-- R317 (n handed to the next batch). -/
  numbers : List Nat := []
  /-- R314 (handle). -/
  job : Option Nat := none
  /-- R319 (handed over, in ascending step). -/
  queue : List Batch := []
  /-- R320 (not landed). -/
  issued : List Delivery := []
  /-- R318 (to be redelivered ahead of every other). -/
  redo : List Batch := []
  /-- R318 COUNT of the reset post (32 bits). -/
  resetCount : Nat := 0
  /-- R327 credit mailbox (32 bits). -/
  credRkey : Nat := 0
  /-- R336 (32 bits). -/
  late : Nat := 0
  /-- R336 (32 bits). -/
  redelivered : Nat := 0
  /-- R336 (64 bits). -/
  lastStep : Nat := 0
  /-- R311 the latch's ring wake acted; model's own (1 bit). -/
  awake : Bool := false
  /-- R336 LIVE again once its consumer has rejoined (1 bit). -/
  joinWait : Bool := false
deriving DecidableEq, Repr

/-- One layout change that this member hosts (11_delivery.md). -/
structure LChange where
  /-- R331 (handle). -/
  job : Nat := 0
  /-- R331 (1 leave, 2 join). -/
  change : Nat := 1
  /-- R331 (rank). -/
  member : Nat := 0
  /-- R331 (ring). -/
  ring : Nat := 0
  /-- R331 (1-3). -/
  round : Nat := 1
  /-- R331 A (step). -/
  a : Nat := 0
  /-- R331 ((rank, step)). -/
  accepts : List (Nat × Nat) := []
  /-- R331 (ns). -/
  sentAt : Nat := 0
  /-- R331 waits to propose again (1 bit). -/
  waiting : Bool := false
deriving DecidableEq, Repr

/-- The feed block (11_delivery.md). -/
structure Feed where
  /-- R301 (4). -/
  ports : List (Nat × FeedPort) := []
  /-- R304 (8). -/
  accs : List (Nat × Acc) := []
  /-- R313 (up to 1,024). -/
  rings : List (Nat × FRing) := []
  /-- R331 (list). -/
  changes : List LChange := []
  /-- R337 FEED_EVT.LATE_EV (1 bit). -/
  evLate : Bool := false
  /-- R337 FEED_EVT.STALE_EV (1 bit). -/
  evStale : Bool := false
  /-- R337 FEED_EVT.REDELIVER_EV (1 bit). -/
  evRedeliver : Bool := false
  /-- R337 FEED_EVT.LAYOUT_EV (1 bit). -/
  evLayout : Bool := false
  /-- R337 FEED_EVT.LAYOUT_FAIL_EV (1 bit). -/
  evLayoutFail : Bool := false
  /-- R337 FEED_EVT.GEN_EV (1 bit). -/
  evGen : Bool := false
  /-- R337 FEED_ERR_CNT.LATE (16 bits). -/
  cLate : Nat := 0
  /-- R337 FEED_ERR_CNT.STALE (16 bits). -/
  cStale : Nat := 0
  /-- R337 FEED_ERR_CNT.ORPHAN (16 bits). -/
  cOrphan : Nat := 0
  /-- R337 FEED_ERR_CNT.REGATHER (16 bits). -/
  cRegather : Nat := 0
  /-- R337 FEED_ERR_CNT2.REDELIVER (16 bits). -/
  cRedeliver : Nat := 0
  /-- R337 FEED_ERR_CNT2.DUP_AVOIDED (16 bits). -/
  cDup : Nat := 0
  /-- R337 FEED_ERR_CNT2.LATCH_REFUSED (16 bits). -/
  cRefused : Nat := 0
  /-- R337 FEED_ERR_CNT2.OVERSIZE (16 bits). -/
  cOversize : Nat := 0
  /-- R337 FEED_ERR_CNT3.UPSTREAM (16 bits). -/
  cUpstream : Nat := 0
deriving DecidableEq, Repr

/-- One latch (Table 11.3) (11_delivery.md). -/
structure Latch where
  /-- R309 LATCH_VAL (64 bits). -/
  val : Nat := 0
  /-- R309 LATCH_THRESH (64 bits). -/
  thresh : Nat := 0
  /-- R309 LATCH_CFG.MODE (2 bits). -/
  mode : Nat := 0
  /-- R309 LATCH_CFG.EN (1 bit). -/
  en : Bool := false
  /-- R309 LATCH_CFG.ACCEL_MASK (8 bits). -/
  mask : Nat := 0
  /-- R309 LATCH_CFG.GEN (16 bits). -/
  gen : Nat := 0
  /-- R309 LATCH_CFG.TKIND (4 bits). -/
  tkind : Nat := 0
  /-- R309 LATCH_CFG.TINDEX (16 bits). -/
  tindex : Nat := 0
  /-- R309 LATCH_CFG.OWNER (8 bits). -/
  owner : Nat := 0
  /-- R309 LATCH_STAT.FIRED (1 bit). -/
  fired : Bool := false
  /-- R309 LATCH_STAT.REFUSED_EV (1 bit). -/
  refusedEv : Bool := false
  /-- R309 LATCH_STAT.REFUSED (16 bits). -/
  refused : Nat := 0
  /-- R309 LATCH_STAT.DUP (16 bits). -/
  dup : Nat := 0
  /-- R311 (1 bit). -/
  armed : Bool := false
  /-- R309 (ring). -/
  bound : Option Nat := none
  /-- R371 (checkpoint job). -/
  guard : Option Nat := none
deriving DecidableEq, Repr

/-- The latch unit (11_delivery.md). -/
structure Latches where
  /-- R309 (8,192 by number). -/
  cells : List (Nat × Latch) := []
  /-- R310 (VF -> latches in the order assigned). -/
  order : List (Nat × List Nat) := []
deriving DecidableEq, Repr

/-- RAS_RUNGn of one unit: cores 0-63, shuttles 64-127, stagehands 128-143, cipher lanes 144-159, channels 160-175 (12_integrity_and_faults.md). -/
structure RasUnit where
  /-- R344 RUNG (3 bits). -/
  rung : Nat := 0
  /-- R366 FENCED (1 bit). -/
  fenced : Bool := false
  /-- R349 HELD (1 bit). -/
  held : Bool := false
  /-- R366 DETECTED (16 bits). -/
  detected : Nat := 0
  /-- R340 times of the corrected errors in the 1 s window (ns). -/
  corrAt : List Nat := []
  /-- R373 times of the detected errors, for a WARN trigger's window (ns). -/
  detAt : List Nat := []
deriving DecidableEq, Repr

/-- One partition reset in progress (12_integrity_and_faults.md). -/
structure PartReset where
  /-- R352 (Table 1.13 order). -/
  part : Nat := 0
  /-- R354 when the last of the clears joined began (ns). -/
  since : Nat := 0
  /-- R353 failing lines ((line address, channel)). -/
  lines : List (Nat × Nat) := []
deriving DecidableEq, Repr

/-- One 10 ms interval of identical error events (12_integrity_and_faults.md). -/
structure Coal where
  /-- R362 (unit ID). -/
  unit : Nat := 0
  /-- R362 (16 bits). -/
  code : Nat := 0
  /-- R362 (32 bits). -/
  op : Nat := 0
  /-- R362 (ns). -/
  since : Nat := 0
  /-- R362 events after the first (count). -/
  count : Nat := 0
  /-- R362 the latest event (bytes 0-59). -/
  last : List (BitVec 8) := []
  /-- R361 functions that the events after the first are routed to as tenant (list). -/
  fns : List Nat := []
  /-- R361 whether the events also go to the stage manager (1 bit). -/
  health : Bool := false
deriving DecidableEq, Repr

/-- One use of GDDR7 that waits while a channel leaves the interleave (R350). -/
inductive HeldUse where
  /-- An access of the host through BAR2. -/
  | bar2 (a : Access)
  /-- A packet with an RDMA request that is no read. -/
  | write (pkt : RdmaPkt)
  /-- A packet with an RDMA read request. -/
  | readReq (pkt : RdmaPkt)
  /-- A packet with an RDMA read response. -/
  | readResp (pkt : RdmaPkt)
deriving DecidableEq, Repr

/-- One detected error charged to a unit (12_integrity_and_faults.md). -/
structure Charge where
  /-- R343 (unit ID). -/
  unit : Nat := 0
  /-- R343 the event of Table 12.2 (enum). -/
  cause : ErrCause := .memory
  /-- R360 OP_ID (32 bits). -/
  op : Nat := 0
  /-- R360 DETAIL of its own record (64 bits). -/
  detail : Nat := 0
  /-- R360 ADDR of its own record (64 bits). -/
  addr : Nat := 0
deriving DecidableEq, Repr

/-- The RAS block (12_integrity_and_faults.md). -/
structure Ras where
  /-- R366 RAS_RUNGn (176). -/
  units : List (Nat × RasUnit) := []
  /-- R366 RAS_HEALTH.SUSPECT_EV (1 bit). -/
  evSuspect : Bool := false
  /-- R366 RAS_HEALTH.FENCE_EV (1 bit). -/
  evFence : Bool := false
  /-- R366 RAS_HEALTH.RESET_EV (1 bit). -/
  evReset : Bool := false
  /-- R366 RAS_HEALTH.TEST_FAIL_EV (1 bit). -/
  evTestFail : Bool := false
  /-- R366 RAS_HEALTH.HEALTH_EV (1 bit). -/
  evHealth : Bool := false
  /-- R366 RAS_HEALTH.DEGRADED (1 bit). -/
  degraded : Bool := false
  /-- R366 RAS_HOST_ERR.ACCESS (16 bits). -/
  cAccess : Nat := 0
  /-- R366 RAS_HOST_ERR.PART_ACCESS (16 bits). -/
  cPart : Nat := 0
  /-- R366 RAS_MEM_CNT.CORRECTED (32 bits). -/
  cCorr : Nat := 0
  /-- R366 RAS_MEM_CNT.UNCORR (16 bits). -/
  cUncorr : Nat := 0
  /-- R366 RAS_MEM_CNT.LINK_RETRY (16 bits). -/
  cRetry : Nat := 0
  /-- R366 RAS_TEST_CFG.PERIOD_MIN (16 bits). -/
  period : Nat := 60
  /-- R366 RAS_TEST_CFG.VDROP_MV (5 bits). -/
  vdrop : Nat := 30
  /-- R366 RAS_TEST_CFG.CLK_PCT (3 bits). -/
  clkPct : Nat := 5
  /-- R366 RAS_TEST_CFG.HEAT (1 bit). -/
  heat : Bool := true
  /-- R366 RAS_TEST_STAT.PASSES (16 bits). -/
  passes : Nat := 0
  /-- R366 RAS_TEST_STAT.FAILS (16 bits). -/
  fails : Nat := 0
  /-- R366 RAS_TEST_STAT.LAST_CORE (6 bits). -/
  lastCore : Nat := 0
  /-- R359 due tests that wait, RAS_TEST_STAT.DEFERRED (cores, stopped tests first). -/
  due : List Nat := []
  /-- R359 those of `due` whose test was stopped (cores). -/
  stopped : List Nat := []
  /-- R356 when its last test completed (core -> ns). -/
  lastTest : List (Nat × Nat) := []
  /-- R358 passed and not yet rejoined (cores). -/
  testPass : List Nat := []
  /-- R352 partition resets in progress (list). -/
  resets : List PartReset := []
  /-- R350 a channel leaving the interleave ((channel, start ns)). -/
  removing : Option (Nat × Nat) := none
  /-- R350 channels out of the interleave (channels). -/
  removed : List Nat := []
  /-- R363 error rings (per function). -/
  rings : List (Nat × Ring) := []
  /-- R360 SEQ (per function, 32 bits). -/
  seqs : List (Nat × Nat) := []
  /-- R360 SEQ of records with FUNCTION 0xFFFF (32 bits). -/
  seqDev : Nat := 0
  /-- R362 (list). -/
  coals : List Coal := []
  /-- R339 next line of the patrol scrub (line address). -/
  scrubNext : Nat := 0
  /-- R343 R347 detected errors charged and not yet taken by the ladder (list, oldest first). -/
  charged : List Charge := []
  /-- R356 core whose test fell due last (core). -/
  dueLast : Option Nat := none
  /-- R350 uses of memory held while a channel leaves the interleave (list, oldest first). -/
  heldUses : List HeldUse := []
deriving DecidableEq, Repr

/-- One shard record (Table 13.2) (13_checkpoint.md). -/
structure Shard where
  /-- R367 (32 bits). -/
  id : Nat := 0
  /-- R367 (0-7). -/
  accel : Nat := 0
  /-- R367 (8 bits). -/
  bar : Nat := 0
  /-- R367 (16 bits). -/
  stream : Nat := 0xFFFF
  /-- R367 (32 bits). -/
  shapeClass : Nat := 0
  /-- R369 (latch). -/
  guard : Nat := 0
  /-- R367 (64 bits). -/
  offset : Nat := 0
  /-- R367 (bytes). -/
  size : Nat := 0
  /-- R370 RELEASE_OFF (64 bits). -/
  release : Nat := 0
deriving DecidableEq, Repr

/-- One stream record (Table 13.3) (13_checkpoint.md). -/
structure CkStream where
  /-- R369 (0-255). -/
  stream : Nat := 0
  /-- R369 (1-4). -/
  rank : Nat := 1
  /-- R369 (1, 2, 4, 8). -/
  elem : Nat := 1
  /-- R369 (4 sizes). -/
  dims : List Nat := []
deriving DecidableEq, Repr

/-- One box record (Table 13.3) (13_checkpoint.md). -/
structure CkBox where
  /-- R369 (SHARD_ID). -/
  shard : Nat := 0
  /-- R369 (16 bits). -/
  stream : Nat := 0
  /-- R369 (4 coordinates). -/
  origin : List Nat := []
  /-- R369 (4 extents). -/
  extent : List Nat := []
deriving DecidableEq, Repr

/-- One manifest (Table 13.10) (13_checkpoint.md). -/
structure Manifest where
  /-- R381 (16 bits). -/
  members : Nat := 1
  /-- R381 (16 bits). -/
  rank : Nat := 0
  /-- R381 CUE_GEN (8 bits). -/
  gen : Nat := 0
  /-- R381 FLAGS.NO_CUE (1 bit). -/
  noCue : Bool := false
  /-- R381 (32 bits). -/
  jobId : Nat := 0
  /-- R381 CUE_STEP (40 bits). -/
  step : Nat := 0
  /-- R381 TIME_NS (ns). -/
  time : Nat := 0
  /-- R381 ((record, SET_OFF, SHA-256)). -/
  shards : List (Shard × Nat × List (BitVec 8)) := []
  /-- R381 (list). -/
  streams : List CkStream := []
  /-- R381 (list). -/
  boxes : List CkBox := []
  /-- R382 (cursor record). -/
  cursor : List (BitVec 8) := []
  /-- R381 SIGNER_KEY (64 bytes). -/
  signer : List (BitVec 8) := []
  /-- R381 SIG (64 bytes). -/
  sig : List (BitVec 8) := []
deriving DecidableEq, Repr

/-- One bank of a job area in the prompt book (13_checkpoint.md). -/
structure Bank where
  /-- R381 header MAGIC, VALID and CRC hold (1 bit). -/
  hdrOk : Bool := false
  /-- R381 SET (0-1). -/
  set_ : Nat := 0
  /-- R381 SEQ (64 bits). -/
  seq : Nat := 0
  /-- R381 (record). -/
  man : Manifest := {}
deriving DecidableEq, Repr

/-- One job area of the prompt book, kept across power loss (13_checkpoint.md). -/
structure Area where
  /-- R368 (32 bits). -/
  jobId : Nat := 0
  /-- R368 (GiB). -/
  setGib : Nat := 0
  /-- R368 (record). -/
  bank0 : Bank := {}
  /-- R368 (record). -/
  bank1 : Bank := {}
  /-- R368 the shards that its sets hold ((set, set offset, bytes)). -/
  data : List (Nat × Nat × List (BitVec 8)) := []
deriving DecidableEq, Repr

/-- The capture in progress of one job (13_checkpoint.md). -/
structure Capture where
  /-- R374 s (40 bits). -/
  step : Nat := 0
  /-- R374 the bank is zeroed (1 bit). -/
  zeroed : Bool := false
  /-- R377 copying has begun (1 bit). -/
  started : Bool := false
  /-- R375 (1 bit). -/
  noCue : Bool := false
  /-- R379 generation at s:0 (8 bits). -/
  gen : Nat := 0
  /-- R381 device time at s:0 (ns). -/
  time : Nat := 0
  /-- R376 the bank zeroed (0-1). -/
  bank : Nat := 0
  /-- R376 X (0-1). -/
  set_ : Nat := 0
  /-- R377 shards not yet in staging (table indexes in copy order). -/
  left : List Nat := []
  /-- R380 shards read once more (table indexes). -/
  again : List Nat := []
  /-- R376 in staging, not acknowledged (table indexes in order copied). -/
  stored : List Nat := []
  /-- R377 their bytes in staging ((index, bytes)). -/
  held : List (Nat × List (BitVec 8)) := []
  /-- R376 acknowledged by the prompt book ((index, SET_OFF, SHA-256)). -/
  acked : List (Nat × Nat × List (BitVec 8)) := []
  /-- R380 ((index, SHA-256)). -/
  digests : List (Nat × List (BitVec 8)) := []
  /-- R376 next set offset (bytes). -/
  setOff : Nat := 0
  /-- R377 guards awaited ((latch, signal ns)). -/
  awaits : List (Nat × Nat) := []
  /-- R377 shards whose copy pauses for awaited ones ((index, 1 MiB chunks copied)). -/
  paused : List (Nat × Nat) := []
  /-- R382 (cursor record at step s). -/
  cursor : List (BitVec 8) := []
deriving DecidableEq, Repr

/-- The restore in progress of one job (13_checkpoint.md). -/
structure Restore where
  /-- R386 (record). -/
  man : Manifest := {}
  /-- R386 (0-1). -/
  source : Nat := 0
  /-- R387 source shards not yet read (manifest shard indexes). -/
  left : List Nat := []
  /-- R387 ((index, digest mismatches)). -/
  tries : List (Nat × Nat) := []
  /-- R387 (host address). -/
  cursorAddr : Nat := 0
  /-- R387 set that the manifest's offsets refer to (0-1). -/
  set_ : Nat := 0
  /-- R387 set of the remote copy from which the third read may come (0-1). -/
  fallback : Option Nat := none
deriving DecidableEq, Repr

/-- The drain of one job to its namespace (13_checkpoint.md). -/
structure Drain where
  /-- R384 SEQ of the commit drained (64 bits). -/
  seq : Nat := 0
  /-- R385 prompt book set it reads (0-1). -/
  set_ : Nat := 0
  /-- R384 (40 bits). -/
  step : Nat := 0
deriving DecidableEq, Repr

/-- One checkpoint job (Table 13.1) (13_checkpoint.md). -/
structure CkJob where
  /-- R367 (32 bits). -/
  jobId : Nat := 0
  /-- R367 (1-1,024). -/
  members : Nat := 1
  /-- R367 (16 bits). -/
  rank : Nat := 0
  /-- R367 (GiB). -/
  setGib : Nat := 0
  /-- R367 (32 bits). -/
  nsid : Nat := 0
  /-- R367 (phases). -/
  decidePh : Nat := 4096
  /-- R367 (up to 65,536). -/
  shards : List Shard := []
  /-- R369 (up to 256). -/
  streams : List CkStream := []
  /-- R369 (list). -/
  boxes : List CkBox := []
  /-- R372 ENABLE (3 bits). -/
  trigEn : Nat := 0
  /-- R372 (1-2^24). -/
  nSteps : Nat := 1
  /-- R372 (64 bits). -/
  baseStep : Nat := 0
  /-- R372 (seconds). -/
  tS : Nat := 1
  /-- R372 (seconds). -/
  windowS : Nat := 1
  /-- R372 (steps). -/
  minGap : Nat := 0
  /-- R372 (5 counts). -/
  thresh : List Nat := []
  /-- R373 a WARN is raised and not decided (1 bit). -/
  warned : Bool := false
  /-- R376 CKP_CAPTURE requests (steps). -/
  reqAt : List Nat := []
  /-- R373 when the last capture began (ns). -/
  lastBegin : Nat := 0
  /-- R373 step of the previous capture (step). -/
  lastStep : Option Nat := none
  /-- R374 step of the previous capture that committed (step). -/
  lastCommit : Option Nat := none
  /-- R374 next step to decide (step). -/
  decided : Nat := 0
  /-- R374 (record). -/
  capture : Option Capture := none
  /-- R386 (record). -/
  restore : Option Restore := none
  /-- R384 (record). -/
  drain : Option Drain := none
  /-- R384 the remote's latest valid bank ((valid bank, set, contents)). -/
  remote : Option (Nat × Nat × Bank) := none
  /-- R386 the remote's other bank, where it is valid (contents). -/
  remoteOld : Option Bank := none
  /-- R390 (8 bits). -/
  lastSkip : Nat := 0
  /-- R390 (8 bits). -/
  lastAbandon : Nat := 0
  /-- R390 (32 bits). -/
  skips : Nat := 0
  /-- R383 COMMITTED notices held (step -> ranks). -/
  committed : List (Nat × List Nat) := []
  /-- R383 (64 bits). -/
  troupeStep : Nat := 0
  /-- R384 (64 bits). -/
  drainedStep : Nat := 0
  /-- R390 AWAITS (32 bits). -/
  awaits : Nat := 0
  /-- R390 (32 bits, µs). -/
  maxStall : Nat := 0
  /-- R374 next decision skips with RELOCK (1 bit). -/
  relock : Bool := false
  /-- R383 checkpoint mailbox (rkey). -/
  mbox : Nat := 0
  /-- R138 R383 last notice taken (rank -> sequence word). -/
  xin : List (Nat × Nat) := []
  /-- R138 R383 last notice sent (rank -> sequence word). -/
  xout : List (Nat × Nat) := []
  /-- R383 checkpoint mailboxes of the peers (rank -> rkey). -/
  peers : List (Nat × Nat) := []
deriving DecidableEq, Repr

/-- The checkpoint block and the prompt book (13_checkpoint.md). -/
structure Ckp where
  /-- R367 (up to 64). -/
  jobs : List (Nat × CkJob) := []
  /-- R368 job areas of the prompt book (directory). -/
  areas : List Area := []
  /-- R391 CKP_STAT.PB_OK (1 bit). -/
  pbOk : Bool := true
  /-- R391 CKP_EVT.COMMIT_EV (1 bit). -/
  evCommit : Bool := false
  /-- R391 CKP_EVT.ABANDON_EV (1 bit). -/
  evAbandon : Bool := false
  /-- R391 CKP_EVT.SKIP_EV (1 bit). -/
  evSkip : Bool := false
  /-- R391 CKP_EVT.DRAIN_EV (1 bit). -/
  evDrain : Bool := false
  /-- R391 CKP_EVT.WARN_EV (1 bit). -/
  evWarn : Bool := false
  /-- R391 CKP_EVT.PB_FAIL_EV (1 bit). -/
  evPbFail : Bool := false
  /-- R391 CKP_ERR_CNT.SKIP (16 bits). -/
  cSkip : Nat := 0
  /-- R391 CKP_ERR_CNT.ABANDON (16 bits). -/
  cAbandon : Nat := 0
  /-- R391 CKP_ERR_CNT.DIGEST (16 bits). -/
  cDigest : Nat := 0
  /-- R391 CKP_ERR_CNT.DRAIN_ABANDON (16 bits). -/
  cDrainAb : Nat := 0
deriving DecidableEq, Repr

/-- The header of a stagehand image (Table 14.1) with its digest (14_stagehands.md). -/
structure ImgHdr where
  /-- R392 (16 bits). -/
  modAbi : Nat := 0
  /-- R392 (bytes). -/
  len : Nat := 0
  /-- R392 (32 bits). -/
  svn : Nat := 0
  /-- R392 (64 bits). -/
  build : Nat := 0
  /-- R392 FEAT_OFFER (128 bits). -/
  offer : Nat := 0
  /-- R392 (8 bits). -/
  verMin : Nat := 0
  /-- R392 (8 bits). -/
  verMax : Nat := 0
  /-- R392 (16 bits). -/
  recMin : Nat := 0
  /-- R392 (16 bits). -/
  recMax : Nat := 0
  /-- R392 RESIDENT_BYTES (bytes). -/
  resident : Nat := 0
  /-- R392 ENTRY (local address). -/
  entry : Nat := 0
  /-- R394 SHA-256 of the image (32 bytes). -/
  digest : List (BitVec 8) := []
  /-- R410 header bytes 0-127 (128 bytes). -/
  bytes128 : List (BitVec 8) := []
  /-- R392 the image in the device reserve (bytes). -/
  body : List (BitVec 8) := []
deriving DecidableEq, Repr

/-- One loaded customer module (14_stagehands.md). -/
structure StgModule where
  /-- R408 CLASS (0xE0-0xEF). -/
  cls : Nat := 0xE0
  /-- R408 LEAST_ROLE (enum). -/
  least : Role := .tenant
  /-- R408 (16 bits). -/
  modAbi : Nat := 0
  /-- R408 (bytes). -/
  resident : Nat := 0
  /-- R408 (8 bits). -/
  cpMask : Nat := 0
  /-- R408 (KiB). -/
  areaKib : Nat := 0
  /-- R408 (µs). -/
  budgetUs : Nat := 0
  /-- R494 (32 bytes). -/
  digest : List (BitVec 8) := []
  /-- R409 faults in the last 1 s (ns). -/
  faultAt : List Nat := []
  /-- R409 (1 bit). -/
  disabled : Bool := false
  /-- R411 functions that have used the class (functions). -/
  users : List Nat := []
  /-- R408 the module image (up to 64 KiB). -/
  image : List (BitVec 8) := []
deriving DecidableEq, Repr

/-- One stagehand as the stage manager sees it (14_stagehands.md). -/
structure StgHand where
  /-- R411 STG_SHn.STATE (8 bits). -/
  st : Nat := 0
  /-- R411 RESTARTS (16 bits). -/
  restarts : Nat := 0
  /-- R400 ends of its run in the last 1 s (ns). -/
  endedAt : List Nat := []
  /-- R400 held in reset or waiting (1 bit). -/
  restarting : Bool := false
  /-- R400 last write of the kick register (ns). -/
  kickAt : Nat := 0
deriving DecidableEq, Repr

/-- A handover or trial in progress (14_stagehands.md). -/
structure Handover where
  /-- R405 (0 waits for clearance, 1 step 1, 2 step 4, 3 trial). -/
  stage : Nat := 0
  /-- R404 when the stage began (ns). -/
  since : Nat := 0
  /-- R404 when FW_ACTIVATE was accepted (ns). -/
  accepted : Nat := 0
  /-- R405 TRIAL_MS (ms). -/
  trialMs : Nat := 0
  /-- R407 the handover runs backwards (1 bit). -/
  back : Bool := false
  /-- R407 the image a rollback restores (record). -/
  old : Option ImgHdr := none
  /-- R407 automatic rollback (1 bit). -/
  auto : Bool := false
  /-- R404 the understudy that was READY at acceptance (record). -/
  new : Option ImgHdr := none
deriving DecidableEq, Repr

/-- Stagehand firmware and the STG registers (14_stagehands.md). -/
structure Stg where
  /-- R411 STG_LOAD_ADDR.BASE (64 bits). -/
  loadAddr : Nat := 0
  /-- R411 STG_LOAD_CTRL.LEN (24 bits). -/
  loadLen : Nat := 0
  /-- R411 STG_LOAD_CTRL.STATUS (4 bits). -/
  status : Nat := 0
  /-- R394 the load in progress restores lost copies (1 bit). -/
  loadLost : Bool := false
  /-- R411 STG_FEAT_REQ_LO (64 bits). -/
  reqLo : Nat := 0xFFFFFFFFFFFFFFFF
  /-- R411 STG_FEAT_REQ_HI (64 bits). -/
  reqHi : Nat := 0xFFFFFFFFFFFFFFFF
  /-- R411 STG_FEAT_GRANT_LO and HI (128 bits). -/
  grant : Nat := 0
  /-- R411 STG_VER.REQ_MIN (8 bits). -/
  reqMin : Nat := 1
  /-- R411 STG_VER.REQ_MAX (8 bits). -/
  reqMax : Nat := 2
  /-- R411 STG_VER.GRANT_MIN (8 bits). -/
  grantMin : Nat := 0
  /-- R411 STG_VER.GRANT_MAX (8 bits). -/
  grantMax : Nat := 0
  /-- R411 STG_WDOG.TIMEOUT_MS (10 bits). -/
  wdogMs : Nat := 10
  /-- R394 the running image (record). -/
  image : Option ImgHdr := none
  /-- R411 STG_STAT.IMG_LOST (1 bit). -/
  imgLost : Bool := false
  /-- R411 STG_STAT.RESTART_EV (1 bit). -/
  evRestart : Bool := false
  /-- R411 STG_STAT.FENCE_EV (1 bit). -/
  evFence : Bool := false
  /-- R411 STG_STAT.HANDOVER_EV (1 bit). -/
  evHandover : Bool := false
  /-- R411 STG_STAT.ROLLBACK_EV (1 bit). -/
  evRollback : Bool := false
  /-- R411 STG_SHn (16). -/
  hands : List (Nat × StgHand) := []
  /-- R403 the understudy area (up to 8 MiB). -/
  understudy : List (BitVec 8) := []
  /-- R411 STG_STAT.US_READY (1 bit). -/
  usReady : Bool := false
  /-- R403 the verified understudy (record). -/
  usHdr : Option ImgHdr := none
  /-- R405 (record). -/
  handover : Option Handover := none
  /-- R408 (up to 16). -/
  modules : List StgModule := []
  /-- R393 which of the two image areas of the device reserve holds the running image (1 bit). -/
  bank : Nat := 0
deriving DecidableEq, Repr

/-- One 64-bit word of local memory (15_onbusyn_isa.md). -/
structure LWord where
  /-- R417 (64 bits). -/
  val : BitVec 64 := 0
  /-- R417 (4 bits). -/
  tag : BitVec 4 := 0xE
deriving DecidableEq, Repr

/-- One loop level (15_onbusyn_isa.md). -/
structure LoopLv where
  /-- R422 (48 bits). -/
  lps : Nat := 0
  /-- R422 (48 bits). -/
  lpe : Nat := 0
  /-- R422 (32 bits). -/
  lpc : Nat := 0
  /-- R422 sr.LACT (1 bit). -/
  active : Bool := false
deriving DecidableEq, Repr

/-- One Onbusyn core: a stagehand, or the stage manager core (16) (15_onbusyn_isa.md). -/
structure OnbCore where
  /-- R394 R400 the core executes (1 bit). -/
  running : Bool := false
  /-- R413 (g1-g31, absent = 0 tagged UNINIT). -/
  regs : List LWord := []
  /-- R420 (48 bits). -/
  pc : Nat := 0
  /-- R417 local memory, absent = cleared (words by address / 8). -/
  mem : List (Nat × LWord) := []
  /-- R426 cp0 digest state (bytes digested so far). -/
  sha : List (BitVec 8) := []
  /-- R426 a digest is open (1 bit). -/
  shaOn : Bool := false
  /-- R430 sr.PPRIV (1 bit). -/
  ppriv : Bool := false
  /-- R430 sr.PRIV (1 bit). -/
  priv : Bool := false
  /-- R430 sr.INTRAP (1 bit). -/
  inTrap : Bool := false
  /-- R430 sr.TVEC_SET (1 bit). -/
  tvecSet : Bool := false
  /-- R430 (64 bits). -/
  tvec : Nat := 0
  /-- R430 (64 bits). -/
  tpc : Nat := 0
  /-- R430 (64 bits). -/
  tcause : Nat := 0
  /-- R430 (64 bits). -/
  tval : BitVec 64 := 0
  /-- R430 (4 bits). -/
  tloop : Nat := 0
  /-- R422 (4 levels). -/
  loops : List LoopLv := [{}, {}, {}, {}]
  /-- R430 (7 bits). -/
  cpmask : Nat := 0
  /-- R430 (64 bits). -/
  mlo : Nat := 0
  /-- R430 (64 bits). -/
  mhi : Nat := 0
  /-- R430 (64 bits). -/
  mclo : Nat := 0
  /-- R430 (64 bits). -/
  mchi : Nat := 0
  /-- R433 (64 bits). -/
  mbudget : Nat := 0
  /-- R430 load or restart, for cycle (ns). -/
  startAt : Nat := 0
  /-- R428 ((window, space, function, base, length)). -/
  windows : List (Nat × Nat × Nat × Nat × Nat) := []
  /-- R421 in WAIT ((rd, wake-up ns)). -/
  waiting : Option (Nat × Nat) := none
  /-- R433 when module privilege was entered (ns). -/
  modAt : Nat := 0
  /-- R429 the module's own class less 0xE0, as the image enters it; model's own (0-15). -/
  cls : Nat := 0
deriving DecidableEq, Repr

/-- The Onbusyn cores and the walker tables (15_onbusyn_isa.md). -/
structure Onb where
  /-- R412 (0-15 stagehands, 16 stage manager). -/
  cores : List (Nat × OnbCore) := []
deriving DecidableEq, Repr

/-- One vector of one function (Table 16.7) (16_call_board.md). -/
structure CallVec where
  /-- R451 CALL_V_CFG.MOD_US (16 bits). -/
  modUs : Nat := 0
  /-- R451 CALL_V_CFG.MOD_CNT (8 bits). -/
  modCnt : Nat := 1
  /-- R451 CALL_V_CFG.PRIO (4 bits). -/
  prio : Nat := 15
  /-- R444 ((source, priority), top first). -/
  stack : List (Nat × Nat) := []
  /-- R442 vector event pending (1 bit). -/
  evPend : Bool := false
  /-- R451 CALL_V_STAT.FAULT_EV (1 bit). -/
  fault : Bool := false
  /-- R448 taken since the last message, or none sent (1 bit). -/
  taken : Bool := true
  /-- R448 time of the last message (ns). -/
  lastMsg : Option Nat := none
  /-- R448 sources that became eligible since the last message (count). -/
  elig : Nat := 0
  /-- R449 Pending Bit Array bit (1 bit). -/
  pba : Bool := false
  /-- R449 MSI-X address (64 bits). -/
  addr : Nat := 0
  /-- R449 MSI-X data (32 bits). -/
  data : Nat := 0
  /-- R449 MSI-X Mask bit (1 bit). -/
  masked : Bool := true
deriving DecidableEq, Repr

/-- CALL_SRCn and the mask and pending bits of one source (16_call_board.md). -/
structure CallSrc where
  /-- R451 TARGET (2 bits). -/
  target : Nat := 0
  /-- R451 PRIO (4 bits). -/
  prio : Nat := 15
  /-- R451 VECTOR (11 bits). -/
  vector : Nat := 0
  /-- R451 OWNER of an edge source (8 bits). -/
  owner : Nat := 0
  /-- R438 (1 bit). -/
  mask : Bool := true
  /-- R438 pending, or the extra edge of a level source (1 bit). -/
  pend : Bool := false
deriving DecidableEq, Repr

/-- The call board (16_call_board.md). -/
structure Call where
  /-- R435 (4,096). -/
  srcs : List (Nat × CallSrc) := []
  /-- R442 (key function x 2,048 + vector). -/
  vecs : List (Nat × CallVec) := []
  /-- R444 CALL_SHn (stagehand -> (source, priority)). -/
  shStack : List (Nat × List (Nat × Nat)) := []
  /-- R437 (VF -> sources in the order assigned). -/
  order : List (Nat × List Nat) := []
  /-- R451 CALL_STAT.FAULT_EV (1 bit). -/
  fault : Bool := false
  /-- R451 CALL_STAT.SH_FAULT (16 bits). -/
  shFault : Nat := 0
  /-- R451 CALL_STAT.STRAY (16 bits). -/
  stray : Nat := 0
deriving DecidableEq, Repr

/-- One mailbox half (Table 17.7) (17_host_endpoint.md). -/
structure MboxHalf where
  /-- R463 (32 bits). -/
  seq : Nat := 0
  /-- R462 (16 bits). -/
  len : Nat := 0
  /-- R462 (16 bits). -/
  typ : Nat := 0
  /-- R462 (32 bits). -/
  ack : Nat := 0
  /-- R462 (1,008 bytes). -/
  body : List (Nat × BitVec 8) := []
deriving DecidableEq, Repr

/-- One virtual function (17_host_endpoint.md). -/
structure Vf where
  /-- R476 GLB_VF_STAT.STATE (3 bits). -/
  st : Nat := 0
  /-- R460 quota (0-16). -/
  qp : Nat := 0
  /-- R460 quota (0-4,096). -/
  nvmeQp : Nat := 0
  /-- R460 quota (0-16,384). -/
  streams : Nat := 0
  /-- R460 quota (0-1,024). -/
  rings : Nat := 0
  /-- R460 quota (0-4,096). -/
  cueEvents : Nat := 0
  /-- R460 quota (0-16). -/
  programs : Nat := 0
  /-- R461 (bytes). -/
  stagingOff : Nat := 0
  /-- R461 (MiB). -/
  stagingMib : Nat := 0
  /-- R465 (1 bit). -/
  tracking : Bool := false
  /-- R469 (1 bit). -/
  everTracked : Bool := false
  /-- R465 (host address). -/
  mapAddr : Nat := 0
  /-- R465 (host address). -/
  hostBase : Nat := 0
  /-- R465 (bytes). -/
  hostLen : Nat := 0
  /-- R465 (granules). -/
  dirty : List Nat := []
  /-- R476 MBOX_REJ (16 bits). -/
  mboxRej : Nat := 0
  /-- R476 FROZEN_WR (16 bits). -/
  frozenWr : Nat := 0
  /-- R476 UNTRACKED (16 bits). -/
  untracked : Nat := 0
  /-- R464 (source). -/
  pfSrc : Nat := 0
  /-- R464 (source j). -/
  vfSrc : Nat := 0
  /-- R462 tenant-to-manager half (record). -/
  toMgr : MboxHalf := {}
  /-- R462 manager-to-tenant half (record). -/
  toTenant : MboxHalf := {}
  /-- R467 (ns). -/
  freezeAt : Nat := 0
  /-- R467 when DRAIN_LIMIT_US passes (ns). -/
  freezeBy : Option Nat := none
  /-- R469 (CUE_POS). -/
  frozenCue : Nat := 0
  /-- R469 (ns). -/
  frozenTime : Nat := 0
  /-- R467 latched doorbells ((offset, value)). -/
  heldBells : List (Nat × Nat) := []
  /-- R471 PART 1 bytes taken so far (bytes). -/
  image : List (BitVec 8) := []
  /-- R471 granules restored (granules). -/
  restored : List Nat := []
  /-- R469 PART 1 bytes already written (bytes). -/
  saved : Nat := 0
  /-- R469 header and sections of the final save in progress (bytes). -/
  saveHead : List (BitVec 8) := []
  /-- R469 granules that the final save in progress writes (granules). -/
  saveGran : List Nat := []
  /-- R469 CRC-32C of the PART 1 bytes written (32 bits). -/
  saveCrc : Nat := 0
deriving DecidableEq, Repr

/-- The objects that a saved image of a VF holds (Table 17.11), numbered as the function names them. -/
structure VfSaved where
  /-- Section 1 (command interface of the function). -/
  fnCmd : List FnCmd
  /-- Section 1 (sessions). -/
  sessions : List Session
  /-- Section 1 (queue pair and its number). -/
  qps : List (Nat × QPair)
  /-- Section 1 latched doorbells ((offset, value), in order). -/
  bells : List (Nat × Nat)
  /-- Section 2 intermission with its staged settings (0-1). -/
  inters : List Inter
  /-- Section 2 held work (in order). -/
  held : List FetchedCmd
  /-- Section 3 NVMe registers, queues and the commands that an intermission holds (0-1). -/
  ctrl : List Ctrl
  /-- Section 3 ((NSID, mode, capacity)). -/
  nss : List (Nat × Nat × Nat)
  /-- Section 4, in the order of the function's pages; a key that is not wrapped is left out. -/
  pages : List KeyPage
  /-- Section 4 holds wrapped keys (1 bit). -/
  wrapped : Bool
  /-- Section 5 (in the function's order). -/
  latches : List Latch
  /-- Section 6 (in the function's order). -/
  srcs : List CallSrc
  /-- Section 6 (vector). -/
  vecs : List (Nat × CallVec)
  /-- Section 7, each with its latch by its place in the function's order (ring). -/
  rings : List (Nat × FRing)
  /-- Section 8 (stream). -/
  streams : List (Nat × Stream × StreamX)
  /-- Section 9 (handle). -/
  progs : List (Nat × Prog)
  /-- Section 9 (queue). -/
  queues : List (Nat × TapQueue)
  /-- Section 10 (job). -/
  jobs : List (Nat × Job × JobX)
  /-- Section 11 (index); KIND 1 targets as time remaining. -/
  cues : List (Nat × CueEvent)
  /-- Section 13, quotas in the order of Table 17.6, QP to PROGRAMS. -/
  quotas : List Nat
  /-- Section 13, assigned key pages, latches and call sources. -/
  counts : List Nat
deriving DecidableEq, Repr, Inhabited

/-- The host port (17_host_endpoint.md). -/
structure HostPort where
  /-- R453 SR-IOV VF Enable (1 bit). -/
  vfEnable : Bool := false
  /-- R453 NumVFs (0-255). -/
  numVfs : Nat := 0
  /-- R460 (1-255). -/
  vfs : List (Nat × Vf) := []
  /-- R457 function-level resets in progress (functions). -/
  flr : List Nat := []
  /-- R457 ((function, ns)). -/
  flrAt : List (Nat × Nat) := []
  /-- R449 MSI-X Function Mask set (functions). -/
  fnMask : List Nat := []
  /-- R469 the model's own: what the section bodies that this device has written hold, the latest first (list). -/
  images : List (List (BitVec 8) × VfSaved) := []
deriving DecidableEq, Repr

/-- One sensor (18_stage_manager.md). -/
structure Sensor where
  /-- R504 GLB_SM_SENSn.VALUE (32 bits signed). -/
  val : Int := 0
  /-- R504 STATUS (3 bits). -/
  status : Nat := 0
  /-- R483 last reading (ns). -/
  lastAt : Nat := 0
  /-- R482 outside WARN, within the hysteresis (1 bit). -/
  outWarn : Bool := false
  /-- R482 outside CRIT, within the hysteresis (1 bit). -/
  outCrit : Bool := false
  /-- R479 R481 the latest sample as the hardware took it (32 bits signed). -/
  hw : Int := 0
  /-- R483 the sensor has failed, until always-on power-up (1 bit). -/
  failed : Bool := false
deriving DecidableEq, Repr

/-- One change of the configuration store that waits (18_stage_manager.md). -/
structure StoreChange where
  /-- R487 (1-10). -/
  item : Nat := 0
  /-- R487 (bytes). -/
  body : List (BitVec 8) := []
  /-- R489 0x100 = none (opcode class of the command). -/
  cls : Nat := 0
  /-- R489 (key of the waiting command). -/
  key : Nat := 0
deriving DecidableEq, Repr

/-- The items of the configuration store in force (Table 18.6) (18_stage_manager.md). -/
structure CfgItems where
  /-- R487 item 1 (32 bytes, empty = never set). -/
  opKey : List (BitVec 8) := []
  /-- R487 item 2 (32 bytes, empty = never set). -/
  mgrKey : List (BitVec 8) := []
  /-- R487 item 3 (32 bytes, empty = factory record). -/
  fwKey : List (BitVec 8) := []
  /-- R487 item 4 (32 bits, none = factory record). -/
  minStg : Option Nat := none
  /-- R487 item 5 (32 bits, none = factory record). -/
  minSm : Option Nat := none
  /-- R487 item 6 (0-8 digests). -/
  modKeys : List (List (BitVec 8)) := []
  /-- R487 item 7 (0-64 digests). -/
  signers : List (List (BitVec 8)) := []
  /-- R487 item 8 (64 bytes, empty = factory). -/
  mgmt : List (BitVec 8) := []
  /-- R487 item 9 (per sensor, absent = factory). -/
  thr : List (Nat × Int × Int × Int × Int) := []
  /-- R529 item 10 CAP_W (W). -/
  opCap : Nat := 650
  /-- R529 item 10 EPR_HOLD_MS (ms). -/
  eprHold : Nat := 10
  /-- R529 item 10 THERM_STEP_MS (ms). -/
  thermStep : Nat := 10
  /-- R529 item 10 RECOVER_MS (ms). -/
  recover : Nat := 2
deriving DecidableEq, Repr

/-- Module flash (Table 18.5), kept without power (18_stage_manager.md). -/
structure Flash where
  /-- R486 stage manager firmware, bank A; as manufactured; DESIGN CHOICE (up to 16 MiB). -/
  bankA : List (BitVec 8) := []
  /-- R486 bank B; as manufactured; DESIGN CHOICE (up to 16 MiB). -/
  bankB : List (BitVec 8) := []
  /-- R478 the bank marked active; DESIGN CHOICE (0 A, 1 B). -/
  active : Nat := 0
  /-- R487 configuration bank 0, none = not valid; as manufactured; DESIGN CHOICE ((SEQ, items)). -/
  cfg0 : Option (Nat × CfgItems) := some (1, {})
  /-- R487 configuration bank 1; as manufactured; DESIGN CHOICE ((SEQ, items)). -/
  cfg1 : Option (Nat × CfgItems) := none
  /-- R485 persistent log (up to 4,096 records). -/
  plog : List (List (BitVec 8)) := []
  /-- R485 number of its oldest record (index). -/
  plogFirst : Nat := 0
  /-- R490 OTP counter of the stagehand SVN; DESIGN CHOICE (counter). -/
  otpStg : Nat := 0
  /-- R490 OTP counter of the stage manager SVN; DESIGN CHOICE (counter). -/
  otpSm : Nat := 0
deriving DecidableEq, Repr

/-- The SPDM connection of one medium (0 DOE, 1 MCTP lane, 2 MCTP I3C) (18_stage_manager.md). -/
structure Spdm where
  /-- R493 (0 none, 1 version, 2 capabilities, 3 algorithms). -/
  st : Nat := 0
  /-- R493 transcript of version, capabilities and algorithms (bytes). -/
  vca : List (BitVec 8) := []
  /-- R493 transcript of digests and certificates since then (bytes). -/
  certs : List (BitVec 8) := []
deriving DecidableEq, Repr

/-- One SPDM secured session (18_stage_manager.md). -/
structure SpdmSess where
  /-- R493 (session ID). -/
  id : Nat := 0
  /-- R493 (1-2). -/
  medium : Nat := 1
  /-- R493 FINISH was taken (1 bit). -/
  live : Bool := false
  /-- R493 key updates (counter). -/
  updates : Nat := 0
  /-- R496 commands outstanding (0-16). -/
  outstanding : Nat := 0
deriving DecidableEq, Repr

/-- One health record sent and not acknowledged (18_stage_manager.md). -/
structure HealthMsg where
  /-- R499 (64 bytes). -/
  rec_ : List (BitVec 8) := []
  /-- R499 when it was last sent (ns). -/
  at_ : Nat := 0
  /-- R499 (1-3). -/
  sends : Nat := 1
deriving DecidableEq, Repr

/-- The stage manager (18_stage_manager.md). -/
structure Sm where
  /-- R504 GLB_SM_STAT.RUNNING (1 bit). -/
  running : Bool := false
  /-- R504 RECOVERY (1 bit). -/
  recovery : Bool := false
  /-- R504 CFG_LOST (1 bit). -/
  cfgLost : Bool := false
  /-- R504 EMERG (1 bit). -/
  emerg : Bool := false
  /-- R504 PROV (1 bit). -/
  prov : Bool := false
  /-- R504 BANK (1 bit). -/
  bank : Nat := 0
  /-- R504 TRIAL (1 bit). -/
  trial : Bool := false
  /-- R502 when the new firmware started (ns). -/
  trialAt : Nat := 0
  /-- R504 RESTARTS (8 bits). -/
  restarts : Nat := 0
  /-- R504 SVN (32 bits). -/
  svn : Nat := 0
  /-- R504 DETAIL of the SM_RESTART due, 0 = none (0-3). -/
  why : Nat := 0
  /-- R504 GLB_SM_STORE.SEQ (64 bits). -/
  seq : Nat := 0
  /-- R504 GLB_SM_STORE.BANK (1 bit). -/
  cfgBank : Nat := 0
  /-- R489 changes in the bank write in progress (WRITING) (list). -/
  writing : List StoreChange := []
  /-- R489 mismatches of the write in progress (0-1). -/
  wmiss : Nat := 0
  /-- R489 names the command that waits for a change; model's own (counter). -/
  ticket : Nat := 0
  /-- R489 changes for the next bank write (list). -/
  waiting : List StoreChange := []
  /-- R504 GLB_SM_STORE.FAILS (16 bits). -/
  fails : Nat := 0
  /-- R487 the items in force (items). -/
  cfg : CfgItems := {}
  /-- R484 event log (up to 16,384 records). -/
  log : List (List (BitVec 8)) := []
  /-- R484 index of its oldest record (64-bit index). -/
  logFirst : Nat := 0
  /-- R504 GLB_SM_LOG.LOST (32 bits). -/
  lost : Nat := 0
  /-- R479 health records that wait for the stage manager (up to 512). -/
  queue : List (List (BitVec 8)) := []
  /-- R479 health records lost (count). -/
  qOver : Nat := 0
  /-- R480 (96). -/
  sensors : List (Nat × Sensor) := []
  /-- R493 connection state (per medium). -/
  spdm : List (Nat × Spdm) := []
  /-- R493 (up to 4). -/
  sess : List SpdmSess := []
  /-- R495 (medium -> endpoint ID). -/
  eids : List (Nat × Nat) := []
  /-- R495 I3C dynamic address (7 bits). -/
  dynAddr : Option Nat := none
  /-- R499 ((medium, EID)). -/
  receiver : Option (Nat × Nat) := none
  /-- R499 (list). -/
  unacked : List HealthMsg := []
  /-- R499; width not given (count). -/
  ackFail : Nat := 0
  /-- R496 vendor-defined messages dropped; width not given (count). -/
  drop7e : Nat := 0
  /-- R503 settings that take effect later ((body, ns)). -/
  mgmtNew : Option (List (BitVec 8) × Nat) := none
  /-- R500 PLDM firmware update ((bytes expected, bytes so far)). -/
  update : Option (Nat × List (BitVec 8)) := none
  /-- R500 the idle bank is verified and ready (1 bit). -/
  verified : Bool := false
  /-- R501 (request ns). -/
  actReq : Option Nat := none
  /-- R546 since when the stage manager has not been running (ns). -/
  alertAt : Nat := 0
  /-- R479 (ns). -/
  wdAt : Nat := 0
  /-- R546 not running for more than 500 ms, so that ALERT_N is low (1 bit). -/
  alertLate : Bool := false
  /-- R498 PLDM terminus ID (8 bits). -/
  tid : Nat := 0
deriving DecidableEq, Repr

/-- One programmable counter (Table 19.6) (19_counters_trace_tableau.md). -/
structure GCtr where
  /-- R509 OBS_GCFG.MODE (2 bits). -/
  mode : Nat := 0
  /-- R509 OBS_GCFG.EVENT (16 bits). -/
  event : Nat := 0
  /-- R509 OBS_GCFG.UNIT_ID (32 bits). -/
  unit : Nat := 0
  /-- R509 OBS_GCTR.COUNT (64 bits). -/
  count : Nat := 0
  /-- R509 THRESH (64 bits). -/
  thresh : Nat := 0
deriving DecidableEq, Repr

/-- The snapshot area of one function (19_counters_trace_tableau.md). -/
structure SnapArea where
  /-- R507 (host address). -/
  base : Nat := 0
  /-- R507 (4-16). -/
  log2 : Nat := 4
  /-- R507 (index). -/
  head : Nat := 0
  /-- R507 next entry to reserve (index). -/
  tail : Nat := 0
  /-- R507 entries reserved and not returned (entries). -/
  count : Nat := 0
deriving DecidableEq, Repr

/-- One trace filter (19_counters_trace_tableau.md). -/
structure TFilter where
  /-- R511 (32 bits). -/
  unit : Nat := 0
  /-- R511 (16 bits). -/
  lo : Nat := 0
  /-- R511 (16 bits). -/
  hi : Nat := 0
deriving DecidableEq, Repr

/-- One trace trigger (19_counters_trace_tableau.md). -/
structure TTrig where
  /-- R511 (0-3). -/
  kind : Nat := 0
  /-- R511 (0-63). -/
  counter : Nat := 0
  /-- R511 (16 bits). -/
  code : Nat := 0
  /-- R511 (32 bits). -/
  unit : Nat := 0
  /-- R511 (64 bits). -/
  value : Nat := 0
  /-- R511 (64 bits). -/
  mask : Nat := 0
deriving DecidableEq, Repr

/-- Counters, snapshots and trace (19_counters_trace_tableau.md). -/
structure Obs where
  /-- R505 OBS_AOn (32 x 64 bits). -/
  ao : List (Nat × Nat) := []
  /-- R506 function counters (key function x 16 + n, 64 bits). -/
  fn : List (Nat × Nat) := []
  /-- R507 (per function). -/
  snaps : List (Nat × SnapArea) := []
  /-- R507 ENTRY numbering (per function, 32 bits). -/
  snapNo : List (Nat × Nat) := []
  /-- R509 (64). -/
  gctr : List (Nat × GCtr) := []
  /-- R511 MODE (0-1). -/
  mode : Nat := 0
  /-- R511 (0-100). -/
  postPct : Nat := 0
  /-- R511 TABLEAU (0-2). -/
  tabMode : Nat := 0
  /-- R511 (up to 16). -/
  filters : List TFilter := []
  /-- R511 (up to 8). -/
  trigs : List TTrig := []
  /-- R522 OBS_TRACE_STAT.STATE (2 bits). -/
  st : Nat := 0
  /-- R522 OBS_TRACE_STAT.DROPPED (32 bits). -/
  dropped : Nat := 0
  /-- R510 oldest first (up to C records of 32 bytes). -/
  recs : List (List (BitVec 8)) := []
  /-- R513 space left after the trigger (records). -/
  postLeft : Nat := 0
  /-- R513 trigger that took effect (0-7). -/
  trigIdx : Nat := 0
  /-- R522 OBS_EVT.TRIG_EV (1 bit). -/
  evTrig : Bool := false
  /-- R522 OBS_EVT.STOP_EV (1 bit). -/
  evStop : Bool := false
  /-- R522 OBS_EVT.OVF_EV (1 bit). -/
  evOvf : Bool := false
deriving DecidableEq, Repr

/-- The power controller (20_latency_and_power.md). -/
structure Pwr where
  /-- R537 GLB_PWR_CFG.MGR_CAP_W (10 bits). -/
  mgrCap : Nat := 650
  /-- R537 GLB_PWR_STAT.THERM_CAP_W (10 bits). -/
  thermCap : Nat := 650
  /-- R537 GLB_PWR_STAT.STEP (0-6). -/
  step : Nat := 0
  /-- R537 GLB_PWR_STAT.POWER_W (10 bits, W). -/
  mean : Nat := 0
  /-- R531 cause EPR (1 bit). -/
  epr : Bool := false
  /-- R531 when EPR_N returned high (ns). -/
  eprHighAt : Option Nat := none
  /-- R531 cause TEMP (1 bit). -/
  temp : Bool := false
  /-- R531 cause VOLT (1 bit). -/
  volt : Bool := false
  /-- R531 cause POWER (1 bit). -/
  power : Bool := false
  /-- R532 when the first cause began (ns). -/
  begunAt : Nat := 0
  /-- R534 since when no cause has held (ns). -/
  clearAt : Nat := 0
  /-- R527 since when the mean has been at least 25 W below the cap (ns). -/
  lowSince : Option Nat := none
  /-- R527 last 100 µs comparison (ns). -/
  tickAt : Nat := 0
  /-- R537 GLB_PWR_CNT.EMERG (16 bits). -/
  cEmerg : Nat := 0
  /-- R537 GLB_PWR_CNT.EPR (16 bits). -/
  cEpr : Nat := 0
  /-- R537 GLB_PWR_CNT.THROTTLE_MS (ns, read in ms as 32 bits). -/
  throttleNs : Nat := 0
  /-- R533 thermal trip: STANDBY until always-on power-up (sensor). -/
  tripped : Option Nat := none
  /-- R530 since when a temperature sensor reads at or above WARN_HI (ns). -/
  warmAt : Option Nat := none
  /-- R530 since when every temperature sensor reads below WARN_HI - 2 C (ns). -/
  coolAt : Option Nat := some 0
  /-- R481 module power at the current samples of the last 1 ms (up to 100 samples (ns, uW)). -/
  hist : List (Nat × Int) := []
  /-- R537 up to when THROTTLE_MS has been counted (ns). -/
  accAt : Nat := 0
deriving DecidableEq, Repr

/-- The model's own record of everything the device sends ;; model's own (00_scope.md). -/
structure Out where
  /-- what left the device, and where (enum). -/
  kind : OutKind := .reply
  /-- first number of the kind (function, port, QPN, medium) (number). -/
  a : Nat := 0
  /-- second number of the kind (address, sequence) (number). -/
  b : Nat := 0
  /-- third number of the kind (length, value) (number). -/
  c : Nat := 0
  /-- the bytes sent (bytes). -/
  bytes : List (BitVec 8) := []
deriving DecidableEq, Repr

/-- The whole machine (00_scope.md). -/
structure State where
  /-- commands that wait, first in first out; model's own (queue). -/
  pending : List Instr := []
  /-- what the device has sent; model's own (list, oldest first). -/
  out : List Out := []
  /-- index of the next free value; model's own, DESIGN CHOICE (counter). -/
  free : Nat := 0
  /-- R28 GDDR7 contents ((address, byte)). -/
  gddr : List (Nat × BitVec 8) := []
  /-- R1 global block (record). -/
  glb : Glb := {}
  /-- R15 always-on domain (record). -/
  aon : Aon := {}
  /-- R37 (record). -/
  cue : Cue := {}
  /-- R61 (record). -/
  cmd : Cmd := {}
  /-- R101 (record). -/
  sto : Sto := {}
  /-- R131 (record). -/
  net : Net := {}
  /-- R152 (record). -/
  hed : Hed := {}
  /-- R162 (record). -/
  ctx : Ctx := {}
  /-- R167 (record). -/
  cip : Cip := {}
  /-- R188 (record). -/
  shu : Shu := {}
  /-- R217 (record). -/
  tap : Tap := {}
  /-- R270 (record). -/
  tapc : TapCnt := {}
  /-- R275 (record). -/
  loom : Loom := {}
  /-- R301 (record). -/
  feed : Feed := {}
  /-- R309 (record). -/
  lat : Latches := {}
  /-- R338 (record). -/
  ras : Ras := {}
  /-- R367 (record). -/
  ckp : Ckp := {}
  /-- R392 (record). -/
  stg : Stg := {}
  /-- R412 (record). -/
  onb : Onb := {}
  /-- R435 (record). -/
  call : Call := {}
  /-- R452 (record). -/
  host : HostPort := {}
  /-- R486 (record). -/
  flash : Flash := {}
  /-- R477 (record). -/
  sm : Sm := {}
  /-- R505 (record). -/
  obs : Obs := {}
  /-- R523 (record). -/
  pwr : Pwr := {}
deriving DecidableEq, Repr

/-- Why the machine stops. No rule of the spec stops the block: every command has an effect, a refusal of its own in
its reply, or none. The one fault stands for a premise of the interface. -/
inductive Fault where
  /-- Raised by nothing in this model: the spec names no event that stops the block (safe). -/
  | none
deriving DecidableEq, Repr

/-- Why a command has no meaning. -/
inductive Refusal where
  /-- The command of this mnemonic is not modelled yet: raised by its arm of `exec` (safe: nothing is claimed of it). -/
  | notModelled (mnemonic : String)
deriving DecidableEq, Repr

/-- The machine right after power-up of the always-on domain (R550, R551): every field at its reset value. -/
def State.reset : State := {}

end Sys2Proof.Machine
end

