-- ==== Sys2Proof/Machine/Upd.lean ====
section
/-!
DEFINITION. One update per field of `State`: every meaning changes the state through these.
-/
namespace Sys2Proof.Machine

/-- The state with its `pending` changed by `f`. -/
def State.upPending (s : State) (f : List Instr → List Instr) : State := { s with pending := f s.pending }
/-- The state with its `out` changed by `f`. -/
def State.upOut (s : State) (f : List Out → List Out) : State := { s with out := f s.out }
/-- The state with its `free` changed by `f`. -/
def State.upFree (s : State) (f : Nat → Nat) : State := { s with free := f s.free }
/-- The state with its `gddr` changed by `f`. -/
def State.upGddr (s : State) (f : List (Nat × BitVec 8) → List (Nat × BitVec 8)) : State := { s with gddr := f s.gddr }
/-- The state with its `glb` changed by `f`. -/
def State.upGlb (s : State) (f : Glb → Glb) : State := { s with glb := f s.glb }
/-- The state with its `aon` changed by `f`. -/
def State.upAon (s : State) (f : Aon → Aon) : State := { s with aon := f s.aon }
/-- The state with its `cue` changed by `f`. -/
def State.upCue (s : State) (f : Cue → Cue) : State := { s with cue := f s.cue }
/-- The state with its `cmd` changed by `f`. -/
def State.upCmd (s : State) (f : Cmd → Cmd) : State := { s with cmd := f s.cmd }
/-- The state with its `sto` changed by `f`. -/
def State.upSto (s : State) (f : Sto → Sto) : State := { s with sto := f s.sto }
/-- The state with its `net` changed by `f`. -/
def State.upNet (s : State) (f : Net → Net) : State := { s with net := f s.net }
/-- The state with its `hed` changed by `f`. -/
def State.upHed (s : State) (f : Hed → Hed) : State := { s with hed := f s.hed }
/-- The state with its `ctx` changed by `f`. -/
def State.upCtx (s : State) (f : Ctx → Ctx) : State := { s with ctx := f s.ctx }
/-- The state with its `cip` changed by `f`. -/
def State.upCip (s : State) (f : Cip → Cip) : State := { s with cip := f s.cip }
/-- The state with its `shu` changed by `f`. -/
def State.upShu (s : State) (f : Shu → Shu) : State := { s with shu := f s.shu }
/-- The state with its `tap` changed by `f`. -/
def State.upTap (s : State) (f : Tap → Tap) : State := { s with tap := f s.tap }
/-- The state with its `tapc` changed by `f`. -/
def State.upTapc (s : State) (f : TapCnt → TapCnt) : State := { s with tapc := f s.tapc }
/-- The state with its `loom` changed by `f`. -/
def State.upLoom (s : State) (f : Loom → Loom) : State := { s with loom := f s.loom }
/-- The state with its `feed` changed by `f`. -/
def State.upFeed (s : State) (f : Feed → Feed) : State := { s with feed := f s.feed }
/-- The state with its `lat` changed by `f`. -/
def State.upLat (s : State) (f : Latches → Latches) : State := { s with lat := f s.lat }
/-- The state with its `ras` changed by `f`. -/
def State.upRas (s : State) (f : Ras → Ras) : State := { s with ras := f s.ras }
/-- The state with its `ckp` changed by `f`. -/
def State.upCkp (s : State) (f : Ckp → Ckp) : State := { s with ckp := f s.ckp }
/-- The state with its `stg` changed by `f`. -/
def State.upStg (s : State) (f : Stg → Stg) : State := { s with stg := f s.stg }
/-- The state with its `onb` changed by `f`. -/
def State.upOnb (s : State) (f : Onb → Onb) : State := { s with onb := f s.onb }
/-- The state with its `call` changed by `f`. -/
def State.upCall (s : State) (f : Call → Call) : State := { s with call := f s.call }
/-- The state with its `host` changed by `f`. -/
def State.upHost (s : State) (f : HostPort → HostPort) : State := { s with host := f s.host }
/-- The state with its `flash` changed by `f`. -/
def State.upFlash (s : State) (f : Flash → Flash) : State := { s with flash := f s.flash }
/-- The state with its `sm` changed by `f`. -/
def State.upSm (s : State) (f : Sm → Sm) : State := { s with sm := f s.sm }
/-- The state with its `obs` changed by `f`. -/
def State.upObs (s : State) (f : Obs → Obs) : State := { s with obs := f s.obs }
/-- The state with its `pwr` changed by `f`. -/
def State.upPwr (s : State) (f : Pwr → Pwr) : State := { s with pwr := f s.pwr }

end Sys2Proof.Machine
end

