-- ==== Sys2Proof/Machine/Ops.lean ====
section
/-!
DEFINITION. The named operations over the state's tables, the GDDR7 memory, the outputs and the always-on counters.
-/
namespace Sys2Proof.Machine

open Sys2Proof

/-- What a command answers. -/
abbrev Res := Host.Outcome State Fault Refusal

section tables
variable {α : Type}

/-- The entry of a table at a key. -/
def aget : List (Nat × α) → Nat → Option α
  | [], _ => none
  | (j, v) :: t, k => if j = k then some v else aget t k

/-- The entry at a key, or a default where the table lists none. -/
def agetD (m : List (Nat × α)) (k : Nat) (d : α) : α := (aget m k).getD d

/-- Sets the entry at a key; keys stay in ascending order. -/
def aset : List (Nat × α) → Nat → α → List (Nat × α)
  | [], k, v => [(k, v)]
  | (j, w) :: t, k, v =>
    if j < k then (j, w) :: aset t k v else if j = k then (k, v) :: t else (k, v) :: (j, w) :: t

/-- Removes the entry at a key. -/
def adel (m : List (Nat × α)) (k : Nat) : List (Nat × α) := m.filter (fun e => decide (e.1 ≠ k))

/-- Changes the entry at a key, starting from a default where there is none. -/
def amod (m : List (Nat × α)) (k : Nat) (d : α) (f : α → α) : List (Nat × α) := aset m k (f (agetD m k d))

/-- Changes the entry at a key where there is one. -/
def aupd (m : List (Nat × α)) (k : Nat) (f : α → α) : List (Nat × α) :=
  match aget m k with
  | none => m
  | some v => aset m k (f v)

/-- Whether a table has an entry at a key. -/
def ahas (m : List (Nat × α)) (k : Nat) : Bool := (aget m k).isSome

/-- The least key not in use, of at most `n` keys tried from `k`. -/
def freeKey (m : List (Nat × α)) : Nat → Nat → Option Nat
  | 0, _ => none
  | n + 1, k => if ahas m k then freeKey m n (k + 1) else some k

/-- Changes the entry of a list at a position. -/
def lmod : List α → Nat → (α → α) → List α
  | [], _, _ => []
  | x :: t, 0, f => f x :: t
  | x :: t, n + 1, f => x :: lmod t n f

/-- Changes the entries that a test picks out. -/
def lupd (l : List α) (p : α → Bool) (f : α → α) : List α := l.map (fun x => if p x then f x else x)

end tables

/-- Adds a number to a list that holds each number once. -/
def ladd (l : List Nat) (n : Nat) : List Nat := if l.contains n then l else l ++ [n]

/-- Removes a number from a list. -/
def ldel (l : List Nat) (n : Nat) : List Nat := l.filter (fun x => x != n)

/-! ## Memory -/

/-- GDDR7 as cells: what an unlisted address reads as is 0 (log entry 4). -/
abbrev Memory := List Host.Cell

/-- Canonical form: addresses strictly rising and no cell that holds 0. -/
def Memory.wf : List Host.Cell → Bool
  | [] => true
  | (a, b) :: t => decide (b ≠ 0) && t.all (fun e => decide (a < e.1)) && Memory.wf t

/-- One byte of memory. -/
def memGet (m : List Host.Cell) (a : Nat) : Byte := agetD m a 0

/-- Writes one byte; writing 0 removes the cell. -/
def memSet (m : List Host.Cell) (a : Nat) (b : Byte) : List Host.Cell :=
  if b = 0 then adel m a else aset m a b

/-- Writes bytes from an address on. -/
def memPut (m : List Host.Cell) (a : Nat) : Bytes → List Host.Cell
  | [] => m
  | b :: t => memPut (memSet m a b) (a + 1) t

/-- `n` bytes from an address on. -/
def memTake (m : List Host.Cell) (a : Nat) : Nat → Bytes
  | 0 => []
  | n + 1 => memGet m a :: memTake m (a + 1) n

/-- Clears `n` bytes from an address on. -/
def memClear (m : List Host.Cell) (a n : Nat) : List Host.Cell := m.filter (fun e => decide (e.1 < a ∨ a + n ≤ e.1))

/-- One MiB. -/
def mib (n : Nat) : Nat := n * 1048576

/-- The partitions of Table 1.13, in its order. -/
inductive Partn where
  | ctx | reserve | wbuf | trace | ckp | staging | shuffle
deriving DecidableEq, Repr

/-- Table 1.13 order of a partition, from 0. -/
def Partn.num (p : Partn) : Nat :=
  match p with
  | .ctx => 0 | .reserve => 1 | .wbuf => 2 | .trace => 3 | .ckp => 4 | .staging => 5 | .shuffle => 6

/-- The partition of a number. -/
def Partn.ofNum (n : Nat) : Partn :=
  match n with
  | 0 => .ctx | 1 => .reserve | 2 => .wbuf | 3 => .trace | 4 => .ckp | 5 => .staging | _ => .shuffle

/-- Populated GDDR7 channels (R5). -/
def Part.channels (p : Part) : Nat :=
  match p with
  | .a48 => 12
  | _ => 16

/-- Device time in ns (R58). -/
def State.now (s : State) : Nat := s.aon.time

/-- The stage manager's time: device time, and what has passed in a Tableau while that stood (R517). -/
def State.smNow (s : State) : Nat := s.aon.time + s.aon.smLead

/-- Populated capacity in MiB (R30), less 4 GiB for each channel removed (R350). -/
def State.capMib (s : State) : Nat := 4096 * (s.glb.part.channels - s.ras.removed.length)

/-- Size in MiB of the shuffle buffer: what the other partitions leave (R30). -/
def shuffleMib (cap trace ckp staging : Nat) : Nat := cap - (256 + 256 + 8192 + trace + ckp + staging)

/-- Size of a partition in bytes (Table 1.13). -/
def State.partLen (s : State) (p : Partn) : Nat :=
  match p with
  | .ctx => mib 256
  | .reserve => mib 256
  | .wbuf => mib 8192
  | .trace => mib s.glb.traceMib
  | .ckp => mib s.glb.ckpMib
  | .staging => mib s.glb.stagingMib
  | .shuffle => mib (shuffleMib s.capMib s.glb.traceMib s.glb.ckpMib s.glb.stagingMib)

/-- GDDR7 address at which a partition starts: laid out in the order of Table 1.13 (R31). -/
def State.partBase (s : State) (p : Partn) : Nat :=
  match p with
  | .ctx => 0
  | .reserve => mib 256
  | .wbuf => mib 512
  | .trace => mib 8704
  | .ckp => mib (8704 + s.glb.traceMib)
  | .staging => mib (8704 + s.glb.traceMib + s.glb.ckpMib)
  | .shuffle => mib (8704 + s.glb.traceMib + s.glb.ckpMib + s.glb.stagingMib)

/-- The partition that holds an address. -/
def State.partOf (s : State) (a : Nat) : Option Partn :=
  [Partn.ctx, .reserve, .wbuf, .trace, .ckp, .staging, .shuffle].find? (fun p =>
    decide (s.partBase p ≤ a) && decide (a < s.partBase p + s.partLen p))

/-- Whether a range lies wholly inside a partition. -/
def State.inPart (s : State) (p : Partn) (a n : Nat) : Bool :=
  decide (s.partBase p ≤ a) && decide (a + n ≤ s.partBase p + s.partLen p)

/-- Whether a partition is being reset (R352). -/
def State.partResetting (s : State) (p : Partn) : Bool := s.ras.resets.any (fun r => r.part == p.num)

/-- Whether all memory users are held while a channel leaves the interleave (R350). -/
def State.memHeld (s : State) : Bool := s.ras.removing.isSome

/-- Whether the users of a partition are held: it is being reset, or all memory users are held (R350, R352). -/
def State.partHeld (s : State) (p : Partn) : Bool := s.partResetting p || s.memHeld

/-- Start and length of a function's staging range: the PF's is the whole partition (R461). -/
def State.stagingRange (s : State) (fn : Nat) : Nat × Nat :=
  if fn = 0 then (s.partBase .staging, s.partLen .staging)
  else
    let v := agetD s.host.vfs fn {}
    (s.partBase .staging + v.stagingOff, mib v.stagingMib)

/-- Whether bytes lie wholly in a function's staging range (R461). -/
def State.inStaging (s : State) (fn a n : Nat) : Bool :=
  let r := s.stagingRange fn
  decide (r.1 ≤ a) && decide (a + n ≤ r.1 + r.2)

/-! ## Outputs, counters and free values -/

/-- Records what leaves the device. -/
def State.emit (s : State) (k : OutKind) (a b c : Nat) (bs : Bytes) : State :=
  s.upOut (· ++ [{ kind := k, a := a, b := b, c := c, bytes := bs }])

/-- Counts on always-on counter `n` of Table 19.2; it wraps modulo 2^64 (R505). -/
def State.ao (s : State) (n k : Nat) : State :=
  s.upObs (fun o => { o with ao := amod o.ao n 0 (fun v => (v + k) % 2 ^ 64) })

/-- Counts on counter `n` of Table 19.3 of a function (R506). -/
def State.fnCtr (s : State) (fn n k : Nat) : State :=
  if fn < 256 then s.upObs (fun o => { o with fn := amod o.fn (fn * 16 + n) 0 (fun v => (v + k) % 2 ^ 64) }) else s

/-- `n` bytes that the spec leaves open (log entry 3). -/
def State.freeBytes (s : State) (n : Nat) : Bytes := padTo n (Config.freeBytes s.free n)

/-- A number below `bound` that the spec leaves open (log entry 3). -/
def State.freeNat (s : State) (bound : Nat) : Nat := Config.freeNat s.free % bound

/-- The free value has been used; the next one is another. -/
def State.spent (s : State) : State := s.upFree (· + 1)

/-- Staging granules of 64 KiB that a write touches, for each tracked VF (R465). -/
def dirtyGranules (base a n : Nat) (v : Vf) : Vf :=
  if v.tracking && decide (0 < n) then
    let lo := base + v.stagingOff
    let hi := lo + mib v.stagingMib
    if decide (a < hi) && decide (lo < a + n) then
      let first := (max a lo - lo) / 65536
      let last := (min (a + n) hi - lo - 1) / 65536
      { v with dirty := (List.range' first (last + 1 - first)).foldl ladd v.dirty }
    else v
  else v

/-- Reads GDDR7 (counter 13 of Table 19.2 is counted by `gRead`). -/
def State.mem (s : State) (a n : Nat) : Bytes := memTake s.gddr a n

/-- Counts bytes read from GDDR7. -/
def State.gRead (s : State) (n : Nat) : State := s.ao 13 n

/-- Writes GDDR7: the bytes, the counter and the granules of tracked VFs (R465, R505). -/
def State.gWrite (s : State) (a : Nat) (b : Bytes) : State :=
  ((s.upGddr (fun m => memPut m a b)).upHost
    (fun h => { h with vfs := h.vfs.map (fun e => (e.1, dirtyGranules (s.partBase .staging) a b.length e.2)) })).ao
      14 b.length

/-- Discards the contents of a range. -/
def State.gClear (s : State) (a n : Nat) : State := s.upGddr (fun m => memClear m a n)

/-- Whether a function-level reset of the function is in progress (R457). -/
def State.inFlr (s : State) (fn : Nat) : Bool := s.host.flr.contains fn

/-- The marks that host writes of a tracked VF leave in its map (R465): the map bytes of the pages written. -/
def vfMarks (v : Vf) (a n : Nat) : List Nat :=
  if v.tracking && decide (0 < n) then
    let lo := v.hostBase
    let hi := v.hostBase + v.hostLen
    if decide (a < hi) && decide (lo < a + n) then
      let first := (max a lo - lo) / 4096
      let last := (min (a + n) hi - lo - 1) / 4096
      (List.range' first (last + 1 - first)).map (fun p => v.mapAddr + p)
    else []
  else []

/-- Whether a host write of a tracked VF touches an address outside its range (R465). -/
def vfUntracked (v : Vf) (a n : Nat) : Bool :=
  v.tracking && decide (0 < n) && !(decide (v.hostBase ≤ a) && decide (a + n ≤ v.hostBase + v.hostLen))

/-- Writes host memory of a function: the bytes leave, are counted, and are marked for a tracked VF. A function in reset
writes nothing (R457). -/
def State.hostWrite (s : State) (fn a : Nat) (b : Bytes) : State :=
  if s.inFlr fn then s
  else
    let t := ((s.emit .hostWrite fn a b.length b).ao 12 b.length).fnCtr fn 3 b.length
    match aget s.host.vfs fn with
    | none => t
    | some v =>
      let u := (vfMarks v a b.length).foldl (fun u m => u.emit .hostWrite fn m 1 [1]) t
      if vfUntracked v a b.length then
        u.upHost (fun h => { h with vfs := aupd h.vfs fn (fun w => { w with untracked := satu 65535 (w.untracked + 1) }) })
      else u

/-- Reads host memory of a function: the request leaves and its bytes are counted (R505, R506). -/
def State.hostRead (s : State) (fn a n : Nat) : State := (s.emit .hostRead fn a n []).ao 11 n |>.fnCtr fn 2 n

/-! ## Which domain runs -/

/-- The main domain runs: it is ready and the Tableau does not hold it (R515, R551). -/
def State.live (s : State) : Bool := s.aon.powered && s.aon.mainPhase == .ready && !s.aon.tableau

/-- A step of the main domain: nothing happens unless it runs (log entry 6). -/
def onMain (s : State) (f : State → State) : Res := .next (if s.live then f s else s)

/-- A step of the always-on domain. -/
def onAlways (s : State) (f : State → State) : Res := .next (if s.aon.powered then f s else s)

/-- A step of the main domain whose premise must hold besides. -/
def onMainIf (s : State) (p : Bool) (f : State → State) : Res := .next (if s.live && p then f s else s)

/-- An access that the host makes: its link must be up (R551). -/
def State.hostUp (s : State) : Bool := s.live && s.aon.hostLink

end Sys2Proof.Machine
end

