-- ==== Sys2Proof/Machine/Flags.lean ====
section
/-!
DEFINITION. The event flags of every block and the level sources they assert (Table 16.2, R435, R436).
-/
namespace Sys2Proof.Machine

/-- Event flags of a cue block: CUE_STAT [9:6]. -/
def Cue.flags (c : Cue) : Bool := c.lostEv || c.genEv || c.jump || c.leadShort

/-- Event flags of the Tapestry: TAP_CHK_STAT [2:0] and TAP_EVT [3:0]. -/
def Tap.flags (t : Tap) : Bool := t.evViol || t.evData || t.evFail || t.evFence || t.evTest || t.evRec || t.evOver

/-- LOOM_EVT [3:0]. -/
def Loom.flags (l : Loom) : Bool := l.evFill || l.evLate || l.evRescue || l.evGen

/-- FEED_EVT [5:0] and FEED_ACC_STATa [10:8]. -/
def Feed.flags (f : Feed) : Bool :=
  f.evLate || f.evStale || f.evRedeliver || f.evLayout || f.evLayoutFail || f.evGen ||
    f.accs.any (fun e => e.2.arriveEv || e.2.departEv || e.2.enumFail)

/-- NET_PORT_STAT [10:8] of every port. -/
def Net.flags (n : Net) : Bool := n.ports.any (fun e => e.2.upEv || e.2.downEv || e.2.fecDeg)

/-- CKP_EVT [5:0]. -/
def Ckp.flags (c : Ckp) : Bool := c.evCommit || c.evAbandon || c.evSkip || c.evDrain || c.evWarn || c.evPbFail

/-- RAS_HEALTH [4:0]. -/
def Ras.flags (r : Ras) : Bool := r.evSuspect || r.evFence || r.evReset || r.evTestFail || r.evHealth

/-- STG_STAT [7:4]. -/
def Stg.flags (g : Stg) : Bool := g.evRestart || g.evFence || g.evHandover || g.evRollback

/-- OBS_EVT [2:0]. -/
def Obs.flags (o : Obs) : Bool := o.evTrig || o.evStop || o.evOvf

/-- AUTH_EV or MISMATCH_EV of a key page of the function (R187). -/
def Cip.flags (c : Cip) (fn : Nat) : Bool :=
  c.pages.any (fun e => e.2.owner == fn && (e.2.authEv || e.2.mismEv))

/-- The line of a level source (R436, Table 16.1). -/
def State.line (s : State) (n : Nat) : Bool :=
  match n with
  | 0 => s.cue.flags
  | 1 => s.cmd.fns.any (fun e => e.2.qerr)
  | 2 => s.tap.flags
  | 3 => s.loom.flags
  | 4 => s.feed.flags
  | 5 => s.net.flags || s.ctx.low
  | 6 => s.hed.learnFail
  | 7 => s.sto.wfail
  | 8 => s.ckp.flags
  | 9 => s.ras.flags
  | 10 => s.stg.flags
  | 11 => s.obs.flags
  | 12 => s.call.fault
  | _ => if 64 ≤ n ∧ n < 320 then s.cip.flags (n - 64) else false

/-- Whether a source is a level source (Table 16.1). -/
def isLevel (n : Nat) : Bool := decide (n < 320)

end Sys2Proof.Machine
end

