-- ==== Sys2Proof/Machine/Trace.lean ====
section
/-!
DEFINITION. The trace unit (R510 to R514) and entry into the Tableau (R515, R516).
-/
namespace Sys2Proof.Machine

open Sys2Proof

/-- Capacity of the trace in records (R510); the spilled part is not held while the partition is being reset (R514). -/
def State.traceCap (s : State) : Nat :=
  524288 + (if s.partResetting .trace then 0 else mib s.glb.traceMib / 32)

/-- A trace record (Table 19.7). -/
def traceRec (time unit code fn : Nat) (trig : Bool) (d0 d1 : Nat) : Bytes :=
  leBytes 8 time ++ leBytes 4 unit ++ leBytes 2 code ++ [BitVec.ofNat 8 (b2n trig), BitVec.ofNat 8 fn] ++
    leBytes 8 d0 ++ leBytes 8 d1

/-- Whether a unit ID matches a filter's: the same unit, or the same class with instance 0xFFF (R511). -/
def unitMatches (pat unit : Nat) : Bool :=
  pat == unit || (bits pat 16 12 == 0xFFF && bits pat 28 4 == bits unit 28 4)

/-- Whether a record is kept (R511). -/
def Obs.keeps (o : Obs) (unit code : Nat) : Bool :=
  code == 0x00F0 || o.filters.any (fun f => unitMatches f.unit unit && decide (f.lo ≤ code) && decide (code ≤ f.hi))

/-- The lowest trigger that a test picks out (R513). -/
def Obs.trigIndex (o : Obs) (p : TTrig → Bool) : Option Nat := o.trigs.findIdx? p

/-- Enters the Tableau (R515, R516): every clock but the stage manager's and JTAG's stops, and links drop. -/
def State.enterTableau (s : State) (cause trig : Nat) : State :=
  if s.aon.tableau || !(s.aon.mainPhase == .ready) then s
  else
    ((s.upAon (fun a =>
        { a with tableau := true, tabStopped := false, curTabCause := cause, curTabTrigger := trig, hostLink := false,
                 tabCount := satu 65535 (a.tabCount + 1), tabCause := cause, tabTrigger := trig })).upNet
      (fun n => { n with ports := n.ports.map (fun e => (e.1, { e.2 with st := 0x11 })) }))

/-- Appends a record; the trace stops when its space is used up (R512, R513). -/
def State.tracePut (s : State) (r : Bytes) : State :=
  let o := s.obs
  let cap := s.traceCap
  if o.st = 1 then
    if o.mode = 0 then
      s.upObs (fun o => { o with recs := (o.recs ++ [r]).drop (o.recs.length + 1 - cap) })
    else
      let recs := o.recs ++ [r]
      if cap ≤ recs.length then s.upObs (fun o => { o with recs := recs, st := 3, evStop := true })
      else s.upObs (fun o => { o with recs := recs })
  else if o.st = 2 then
    let t := s.upObs (fun o => { o with recs := o.recs ++ [r], postLeft := o.postLeft - 1 })
    if o.postLeft ≤ 1 then
      let u := t.upObs (fun o => { o with st := 3, evStop := true })
      if o.tabMode = 2 then u.enterTableau 1 o.trigIdx else u
    else t
  else s

/-- Counts a record that finds the trace stopped (R513, R522). -/
def State.traceDrop (s : State) : State :=
  (s.upObs (fun o => { o with dropped := satu 4294967295 (o.dropped + 1) })).ao 31 1

/-- Takes effect of trigger `i` while ARMED, with the record of the triggering event (R513). -/
def State.traceTrigger (s : State) (i : Nat) (r : Bytes) : State :=
  let cap := s.traceCap
  let p := cap * s.obs.postPct / 100
  let t := s.upObs (fun o =>
    { o with st := 2, trigIdx := i, evTrig := true, postLeft := p, recs := o.recs.drop (o.recs.length + max p 1 - cap) })
  let u := t.tracePut r
  if s.obs.tabMode = 1 then u.enterTableau 1 i else u

/-- A trace record arrives and is judged by the filters and by the triggers a test picks out (R511 to R513). -/
def State.traceJudge (s : State) (unit code fn d0 d1 : Nat) (sat : TTrig → Bool) : State :=
  let r := fun t => traceRec s.now unit code fn t d0 d1
  let kept := s.obs.keeps unit code
  match s.obs.st with
  | 1 =>
    match s.obs.trigIndex sat with
    | some i => s.traceTrigger i (r true)
    | none => if kept then s.tracePut (r false) else s
  | 2 =>
    let t := if kept then s.tracePut (r false) else s
    match s.obs.trigIndex sat with
    | some i => if t.obs.st = 2 then t.tracePut (traceRec s.now 0 0x00F0 0 false i 0) else t
    | none => t
  | 3 => if kept then s.traceDrop else s
  | _ => s

/-- A trace record of a code of Table 19.8, which satisfies triggers of KIND 1. -/
def State.trace (s : State) (unit code fn d0 d1 : Nat) : State :=
  s.traceJudge unit code fn d0 d1 (fun t =>
    t.kind == 1 && t.code == code && (t.unit == 0xFFFFFFFF || t.unit == unit) && (d0 &&& t.mask) == (t.value &&& t.mask))

/-- The trace record of an error record, which satisfies triggers of KIND 2 besides (Table 19.9). -/
def State.traceErr (s : State) (unit code fn op : Nat) : State :=
  s.traceJudge unit 0x0030 fn (code + 4294967296 * op) 0 (fun t =>
    (t.kind == 2 && t.code == code && (t.unit == 0xFFFFFFFF || t.unit == unit)) ||
      (t.kind == 1 && t.code == 0x0030 && (t.unit == 0xFFFFFFFF || t.unit == unit) &&
        ((code + 4294967296 * op) &&& t.mask) == (t.value &&& t.mask)))

/-- An event without a trace code of its own satisfies triggers: the trigger input (KIND 0) or a counter (KIND 3). The
code and data of its record are not stated (log entry 3). -/
def State.traceOther (s : State) (sat : TTrig → Bool) : State :=
  let b := s.freeBytes 18
  (s.traceJudge 0 (fld b 0 2) 0 (fld b 2 8) (fld b 10 8) sat).spent

/-- The trigger input is pulsed (R511, Table 19.9). -/
def State.triggerInput (s : State) : State := s.traceOther (fun t => t.kind == 0)

/-- Counts `k` events on the programmable counters of an event and unit (R509). -/
def State.gctr (s : State) (event unit k : Nat) : State :=
  let hit := fun (g : GCtr) => (g.mode == 1 || g.mode == 2) && g.event == event && unitMatches g.unit unit
  if s.obs.gctr.any (fun e => hit e.2) then
    let step := fun (g : GCtr) => if hit g then { g with count := (g.count + k) % 2 ^ 64 } else g
    let ovf := s.obs.gctr.any (fun e => hit e.2 &&
      (decide (2 ^ 64 ≤ e.2.count + k) ||
        (e.2.mode == 2 && decide (e.2.count ≤ e.2.thresh) && decide (e.2.thresh < e.2.count + k))))
    let old := s.obs.gctr
    let t := s.upObs (fun o => { o with gctr := o.gctr.map (fun e => (e.1, step e.2)), evOvf := o.evOvf || ovf })
    let passed := fun (tr : TTrig) => tr.kind == 3 &&
      (match aget old tr.counter with
       | some g => hit g && decide (g.count ≤ tr.value) && decide (tr.value < g.count + k)
       | none => false)
    if t.obs.trigs.any passed then t.traceOther passed else t
  else s

end Sys2Proof.Machine
end

