-- ==== Sys2Proof/Machine/CallBoard.lean ====
section
/-!
DEFINITION. The call board (R435 to R449): who may be taken, taking, completing, and telling a target.
-/
namespace Sys2Proof.Machine

open Sys2Proof

/-- The number that names the vector event on a stack (R442). -/
def vecEventNo : Nat := 0x1000

/-- A target of the call board (R441). -/
inductive CallTarget where
  /-- Vector `key` = function x 2,048 + vector. -/
  | vec (key : Nat)
  | hand (n : Nat)
  | nowhere
deriving DecidableEq, Repr

/-- Vectors of a function (R456). -/
def vectorsOf (fn : Nat) : Nat := if fn = 0 then 2048 else 64

/-- Key of a vector. -/
def vecKey (fn v : Nat) : Nat := fn * 2048 + v

/-- Rung record of unit `n` of Table 12.16. -/
def State.rasUnit (s : State) (n : Nat) : RasUnit := agetD s.ras.units n {}

/-- Whether a stagehand is fenced. -/
def State.handFenced (s : State) (n : Nat) : Bool := (s.rasUnit (128 + n)).fenced

/-- The function that owns a source (Table 16.1). -/
def State.srcOwner (s : State) (n : Nat) : Nat :=
  if n < 64 then 0 else if n < 320 then n - 64 else (agetD s.call.srcs n {}).owner

/-- The target of a source (R441). -/
def State.srcTarget (s : State) (n : Nat) : CallTarget :=
  let c := agetD s.call.srcs n {}
  let f := s.srcOwner n
  if c.target = 1 then (if c.vector < vectorsOf f then .vec (vecKey f c.vector) else .nowhere)
  else if c.target = 2 then
    if 16 ≤ c.vector then .nowhere
    else if s.handFenced c.vector then
      match (List.range 16).find? (fun k => !s.handFenced k) with
      | some k => .hand k
      | none => .nowhere
    else .hand c.vector
  else .nowhere

/-- The stack of a target, the top first. -/
def State.stackOf (s : State) (t : CallTarget) : List (Nat × Nat) :=
  match t with
  | .vec k => (agetD s.call.vecs k {}).stack
  | .hand n => agetD s.call.shStack n []
  | .nowhere => []

/-- Whether a source is asserted: its pending bit, or the line of a level source (R440, R443). -/
def State.asserted (s : State) (n : Nat) : Bool := (agetD s.call.srcs n {}).pend || (isLevel n && s.line n)

/-- Whether a priority is more urgent than the top of a stack (R443). -/
def beats (p : Nat) (st : List (Nat × Nat)) : Bool :=
  match st with
  | [] => true
  | top :: _ => decide (p < top.2)

/-- Whether a source is eligible for its target (R443). -/
def State.eligible (s : State) (n : Nat) : Bool :=
  let c := agetD s.call.srcs n {}
  let t := s.srcTarget n
  let st := s.stackOf t
  s.asserted n && !c.mask && decide (t ≠ .nowhere) && !(st.any (fun e => e.1 == n)) && beats c.prio st

/-- Whether the vector event of a vector is eligible (R442, R443). -/
def State.evEligible (s : State) (k : Nat) : Bool :=
  let v := agetD s.call.vecs k {}
  v.evPend && !(v.stack.any (fun e => e.1 == vecEventNo)) && beats v.prio v.stack

/-- The more urgent of two candidates (number, priority); the first wins ties. -/
def moreUrgent (a b : Nat × Nat) : Nat × Nat := if b.2 < a.2 then b else a

/-- The most urgent of candidates in ascending order of number. -/
def mostUrgent : List (Nat × Nat) → Option (Nat × Nat)
  | [] => none
  | x :: t =>
    match mostUrgent t with
    | none => some x
    | some y => some (moreUrgent x y)

/-- The eligible candidates of a target: the vector event first, then sources in ascending number (R443). -/
def State.candidates (s : State) (t : CallTarget) : List (Nat × Nat) :=
  (match t with
   | .vec k => if s.evEligible k then [(vecEventNo, (agetD s.call.vecs k {}).prio)] else []
   | _ => []) ++
  (s.call.srcs.filter (fun e => s.eligible e.1 && decide (s.srcTarget e.1 = t))).map (fun e => (e.1, e.2.prio))

/-- Changes one vector. -/
def State.upVec (s : State) (k : Nat) (f : CallVec → CallVec) : State :=
  s.upCall (fun c => { c with vecs := amod c.vecs k {} f })

/-- Changes one source. -/
def State.upSrc (s : State) (n : Nat) (f : CallSrc → CallSrc) : State :=
  s.upCall (fun c => { c with srcs := amod c.srcs n {} f })

/-- A host target is idle: its stack is empty and it has taken since the last message (R448). -/
def CallVec.idle (v : CallVec) : Bool := v.stack.isEmpty && v.taken

/-- Whether the moderation of a vector is over (R448). -/
def CallVec.moderationOver (v : CallVec) (now : Nat) : Bool :=
  v.modUs == 0 || decide (max 1 v.modCnt ≤ v.elig) ||
    (match v.lastMsg with
     | none => true
     | some t => decide (t + v.modUs * 1000 ≤ now))

/-- Writes the MSI-X message of a vector, or holds it while the vector or its function is masked (R449). -/
def State.sendMsg (s : State) (k : Nat) : State :=
  let v := agetD s.call.vecs k {}
  let fn := k / 2048
  if v.masked || s.host.fnMask.contains fn then s.upVec k (fun v => { v with pba := true })
  else
    let src := match mostUrgent (s.candidates (.vec k)) with
      | some c => c.1
      | none => vecEventNo
    (((s.emit .msix fn (k % 2048) v.data (leBytes 8 v.addr)).ao 12 4).upVec k (fun v =>
      { v with pba := false, taken := false, elig := 0, lastMsg := some s.now })).trace 0 0x0090 fn (k % 2048) src

/-- Whether a function's vectors send nothing: the VF is FREEZING or FROZEN (Table 17.9). -/
def State.vfQuiet (s : State) (fn : Nat) : Bool := fn != 0 && (let st := (agetD s.host.vfs fn {}).st; st == 3 || st == 4)

/-- Tells a host target when an eligible source exists and R448 gives an occasion; `at_` marks a completion. -/
def State.tell1 (s : State) (t : CallTarget) (at_ : Bool) : State :=
  match t with
  | .vec k =>
    if (s.candidates t).isEmpty || s.vfQuiet (k / 2048) then s
    else
      let v := agetD s.call.vecs k {}
      if v.idle || at_ || v.moderationOver s.now then s.sendMsg k else s
  | _ => s

/-- A source or vector event has become eligible for its target (R448). -/
def State.newlyEligible (s : State) (t : CallTarget) : State :=
  match t with
  | .vec k => (s.upVec k (fun v => { v with elig := v.elig + 1 })).tell1 t false
  | _ => s

/-- Runs an update that may set a trace flag, and then raises source 11 if its line came up (R522). -/
def State.withObs (s : State) (f : State → State) : State :=
  let t := f s
  if !s.eligible 11 && t.eligible 11 then t.newlyEligible (t.srcTarget 11) else t

/-- Runs an update that may assert source `n`, and tells its target if the source became eligible (R439, R448). -/
def State.watch (s : State) (n : Nat) (f : State → State) : State :=
  let t := f s
  if !s.eligible n && t.eligible n then t.withObs (fun u => u.newlyEligible (u.srcTarget n)) else t

/-- Tells a target after its stack or its mask changed. -/
def State.tell (s : State) (t : CallTarget) (at_ : Bool) : State := s.withObs (fun u => u.tell1 t at_)

/-- A trace record, with the call source of the trace flags (R510, R522). -/
def State.note (s : State) (unit code fn d0 d1 : Nat) : State := s.withObs (fun u => u.trace unit code fn d0 d1)

/-- An edge of a source (R439). -/
def State.raise (s : State) (n : Nat) : State := s.watch n (fun u => u.upSrc n (fun c => { c with pend := true }))

/-- The source that a function names: its number for the PF, its j-th source for a VF (R437). -/
def State.srcNamed (s : State) (fn j : Nat) : Option Nat :=
  if fn = 0 then (if 320 ≤ j ∧ j < 4096 ∧ s.srcOwner j = 0 then some j else none)
  else (agetD s.call.order fn [])[j]?

/-- A raise by a latch, a cue event or CB.RAISE for a function; one of a source it does not own is counted (R437). -/
def State.raiseFor (s : State) (fn j : Nat) : State :=
  match s.srcNamed fn j with
  | some n => s.raise n
  | none => s.upCall (fun c => { c with stray := satu 65535 (c.stray + 1) })

/-- Sets an event flag that asserts level source `n`; its trace record names the register and bit (R436). -/
def State.flag (s : State) (n off b : Nat) (f : State → State) : State :=
  s.watch n (fun u => (f u).note 0 0x0020 0 (off + 4294967296 * b) 0)

/-- Changes a source's routing: its target is told where the source is eligible there and was not (R441, R448). -/
def State.reroute (s : State) (n : Nat) (f : CallSrc → CallSrc) : State :=
  let t := s.upSrc n f
  if t.eligible n && !(s.eligible n && decide (s.srcTarget n = t.srcTarget n)) then t.withObs (fun u => u.newlyEligible (u.srcTarget n)) else t

/-- Changes a vector, and tells it if its event became eligible (R442, R448). -/
def State.watchVec (s : State) (k : Nat) (f : CallVec → CallVec) : State :=
  let t := s.upVec k f
  if !s.evEligible k && t.evEligible k then t.withObs (fun u => u.newlyEligible (.vec k)) else t

/-- The vector event of a vector of a function (R442). -/
def State.vecEvent (s : State) (fn v : Nat) : State :=
  if s.inFlr fn then s else s.watchVec (vecKey fn v) (fun c => { c with evPend := true })

/-- Takes the highest-ranked eligible source of a target (R444): what was taken, and the state. -/
def State.take (s : State) (t : CallTarget) : Option Nat × State :=
  match mostUrgent (s.candidates t) with
  | none => (none, s)
  | some (n, p) =>
    let s1 := if n = vecEventNo then s else s.upSrc n (fun c => { c with pend := false })
    let s2 := match t with
      | .vec k => s1.upVec k (fun v =>
          { v with stack := (n, p) :: v.stack, evPend := if n = vecEventNo then false else v.evPend })
      | .hand h => s1.upCall (fun c => { c with shStack := amod c.shStack h [] (fun st => (n, p) :: st) })
      | .nowhere => s1
    (some n, s2)

/-- Pops the stack of a target (R445). -/
def State.popStack (s : State) (t : CallTarget) : State :=
  match t with
  | .vec k => s.upVec k (fun v => { v with stack := v.stack.drop 1 })
  | .hand h => s.upCall (fun c => { c with shStack := amod c.shStack h [] (fun st => st.drop 1) })
  | .nowhere => s

/-- A stagehand's stack empties; each source on it re-fires as at completion (R447). -/
def State.clearHandStack (s : State) (h : Nat) : State :=
  s.upCall (fun c => { c with shStack := adel c.shStack h })

/-- Function-level reset or disabling of a function: its sources and vectors (R447). -/
def State.resetCallFn (s : State) (fn : Nat) : State :=
  s.upCall (fun c =>
    { c with
      srcs := c.srcs.map (fun e => if s.srcOwner e.1 = fn then (e.1, { e.2 with mask := true, pend := false }) else e)
      vecs := c.vecs.map (fun e => if e.1 / 2048 = fn then
        (e.1, { e.2 with stack := [], evPend := false, taken := true, lastMsg := none, elig := 0, pba := false, addr := 0,
                         data := 0, masked := true }) else e) })

end Sys2Proof.Machine
end

