-- ==== Sys2Proof/Machine/Units.lean ====
section
/-!
DEFINITION. Unit IDs (R21 to R23), the suspect ladder's units (Table 12.16), and the cue position word (Table 2.7).
-/
namespace Sys2Proof.Machine

open Sys2Proof

/-- CLASS of a unit ID. -/
def uClass (u : Nat) : Nat := bits u 28 4

/-- INSTANCE of a unit ID. -/
def uInst (u : Nat) : Nat := bits u 16 12

/-- SUB of a unit ID. -/
def uSub (u : Nat) : Nat := bits u 0 16

/-- The unit ID of a whole unit. -/
def unitId (cls inst : Nat) : Nat := cls * 268435456 + inst * 65536

/-- Ethernet ports in a mode (Table 5.1). -/
def Net.portCount (n : Net) : Nat := 16 / 2 ^ n.mode

/-- The number of a unit of the suspect ladder (Table 12.16). -/
def rasIndex (u : Nat) : Option Nat :=
  if uSub u ≠ 0 then none
  else match uClass u with
    | 1 => if uInst u < 64 then some (uInst u) else none
    | 2 => if uInst u < 64 then some (64 + uInst u) else none
    | 8 => if uInst u < 16 then some (128 + uInst u) else none
    | 7 => if uInst u < 16 then some (144 + uInst u) else none
    | 10 => if uInst u < 16 then some (160 + uInst u) else none
    | _ => none

/-- The unit ID of unit `n` of Table 12.16. -/
def rasUnitId (n : Nat) : Nat :=
  if n < 64 then unitId 1 n else if n < 128 then unitId 2 (n - 64) else if n < 144 then unitId 8 (n - 128)
  else if n < 160 then unitId 7 (n - 144) else unitId 10 (n - 160)

/-- Changes one unit of the ladder. -/
def State.upRasUnit (s : State) (n : Nat) (f : RasUnit → RasUnit) : State :=
  s.upRas (fun r => { r with units := amod r.units n {} f })

/-- Whether unit `n` of Table 12.16 is fenced. -/
def State.unitFenced (s : State) (n : Nat) : Bool := (s.rasUnit n).fenced

/-- Units present from `lo` on, `n` of them. -/
def unitRange (lo n : Nat) : List Nat := List.range' lo n

/-- Stands for no lane: a unit that an intermission of the cipher lanes holds (R88). -/
def laneNone : Nat := 16

/-- The members of a unit ID on the ladder, as numbers of Table 12.16; a group names several (Table 1.7). -/
def State.ladderMembers (s : State) (u : Nat) : List Nat :=
  let i := uInst u
  match uClass u with
  | 1 => if i < 64 then [i] else if i = 0xFFF then unitRange 0 64 else unitRange (8 * (i - 0x100)) 8
  | 2 => if i < 64 then [64 + i] else if i = 0xFFF then unitRange 64 64 else unitRange (64 + 8 * (i - 0x100)) 8
  | 7 => if i < 16 then [144 + i] else unitRange 144 16
  | 8 => if i < 16 then [128 + i] else unitRange 128 16
  | 10 => if i < 16 then [160 + i] else unitRange 160 s.glb.part.channels
  | _ => []

/-- Whether a unit ID is one of Table 1.7 that this device has in its present port mode (R22). A half of a feed port is there when the port
is bifurcated, and a half of all ports when every port is (log entry 68). -/
def State.unitValid (s : State) (u : Nat) : Bool :=
  let i := uInst u
  let b := uSub u
  match uClass u with
  | 0 => i == 0 && b == 0
  | 1 => b == 0 && (decide (i < 64) || (decide (0x100 ≤ i) && decide (i ≤ 0x107)) || i == 0xFFF)
  | 2 => b == 0 && (decide (i < 64) || (decide (0x100 ≤ i) && decide (i ≤ 0x107)) || i == 0xFFF)
  | 3 => i == 0 && decide (b ≤ 0x1000)
  | 4 =>
    (decide (i < 4) && (b == 0 || (decide (b < 3) && (agetD s.feed.ports i {}).halved))) ||
      (i == 0xFFF && (b == 0 || (decide (b < 3) && (List.range 4).all (fun k => (agetD s.feed.ports k {}).halved))))
  | 5 => (decide (i < s.net.portCount) || i == 0xFFF) && decide (b ≤ 16)
  | 6 => i == 0 && decide (b ≤ 16)
  | 7 => b == 0 && (decide (i < 16) || i == 0xFFF)
  | 8 => b == 0 && (decide (i < 16) || i == 0xFFF)
  | 9 => b == 0 && decide (i < 256)
  | 10 => b == 0 && (decide (i < s.glb.part.channels) || i == 0xFFF)
  | 11 => decide (i < 16) && decide (b ≤ 0x200)
  | 15 => b == 0
  | _ => false

/-- Code of a cue state (Table 2.3). -/
def CueState.code (c : CueState) : Nat :=
  match c with
  | .none => 0 | .acquiring => 1 | .locked => 2 | .holdover => 3 | .lost => 4

/-- Code of a cue source (R37). -/
def CueSrc.code (c : CueSrc) : Nat :=
  match c with
  | .none => 0 | .serial => 1 | .eth => 2 | .software => 3

/-- The cue position as CUE_POS lays it out (Table 2.7); 0:0 with GEN 0 in cue state NONE (Table 3.3). -/
def State.cuePos (s : State) : Nat :=
  if s.cue.st = .none then 0 else s.cue.gen % 256 * 2 ^ 56 + s.cue.pos % 2 ^ 56

/-- Whether the cue runs: in LOCKED or HOLDOVER (R44, R323, Table 2.3). -/
def State.cueTimed (s : State) : Bool := s.cue.st == .locked || s.cue.st == .holdover

/-- The current step (R44). -/
def State.step (s : State) : Nat := s.cue.pos / 65536

/-- The enabled functions: the PF and the VFs that VF Enable admits (R453). -/
def State.functions (s : State) : List Nat :=
  if s.host.vfEnable then List.range (s.host.numVfs + 1) else [0]

/-- Whether a function is enabled. -/
def State.fnEnabled (s : State) (fn : Nat) : Bool := fn == 0 || (s.host.vfEnable && decide (fn ≤ s.host.numVfs))

end Sys2Proof.Machine
end

