-- ==== Sys2Proof/Machine/Record.lean ====
section
/-!
DEFINITION. Error records (R360 to R363, R484, R485, R499, R560): their layout, routing, rings, coalescing and logs.
-/
namespace Sys2Proof.Machine

open Sys2Proof

/-- SEVERITY of an error code (Table 12.17). -/
def severityOf (code : Nat) : Nat :=
  match code with
  | 0x0002 => 1 | 0x0003 => 3 | 0x0004 => 1 | 0x0006 => 2 | 0x0007 => 2 | 0x0010 => 1 | 0x0011 => 2 | 0x0020 => 1
  | 0x0022 => 1 | 0x0023 => 3 | 0x0024 => 1 | 0x0030 => 1 | 0x0040 => 1 | 0x0050 => 1 | 0x0071 => 3 | 0x00B0 => 3
  | 0x00C1 => 1 | 0x0103 => 3 | 0x0109 => 3 | 0x0123 => 2
  | _ => 0

/-- Where a record goes (R361). -/
inductive RecRoute where
  | health
  /-- To the function that owns the object; 0xFFFF stands for the device and goes to the PF's ring. -/
  | tenant (fn : Nat)
  | both (fn : Nat)
  /-- One copy for each of the functions, and one to health. -/
  | every (fns : List Nat)
  /-- One copy for each of the functions. -/
  | each (fns : List Nat)
deriving DecidableEq, Repr

/-- The functions a record is routed to as tenant, with the number each copy carries. -/
def RecRoute.tenants (r : RecRoute) : List Nat :=
  match r with
  | .health => []
  | .tenant fn => [fn]
  | .both fn => [fn]
  | .every fns => fns
  | .each fns => fns

/-- Whether a record goes to the stage manager. -/
def RecRoute.toHealth (r : RecRoute) : Bool :=
  match r with
  | .health => true
  | .both _ => true
  | .every _ => true
  | _ => false

/-- Row group of a sensor (Table 18.3): the first sensor and the number of sensors. -/
def sensorGroup (n : Nat) : Nat × Nat :=
  if n < 32 then (0, 32) else if n < 36 then (32, 4) else if n < 40 then (36, 4) else if n < 56 then (40, 16)
  else if n < 58 then (56, 2) else if n < 61 then (58, 3) else if n < 62 then (61, 1) else if n < 64 then (62, 2)
  else if n < 66 then (64, 2) else if n < 74 then (66, 8) else if n < 78 then (74, 4) else if n < 80 then (78, 2)
  else if n < 83 then (80, 3) else if n < 88 then (83, 5) else (88, 8)

/-- Whether a sensor is there: those of the channels that the 48 GiB part lacks are not (R480). -/
def State.sensorThere (s : State) (n : Nat) : Bool := !(s.glb.part == .a48 && decide (52 ≤ n) && decide (n < 56))

/-- STATUS of a sensor; sensors of absent channels read ABSENT (R480). -/
def State.sensorStatus (s : State) (n : Nat) : Nat := if s.sensorThere n then (agetD s.sm.sensors n {}).status else 4

/-- The largest of a list of readings, or a default when it is empty. -/
def maxReading (d : Int) : List Int → Int
  | [] => d
  | x :: t => t.foldl (fun a b => if a < b then b else a) x

/-- The reading that stands for a sensor: its own, or the highest of its row group once it failed (R483). -/
def State.reading (s : State) (n : Nat) : Int :=
  let own := (agetD s.sm.sensors n {}).hw
  if (agetD s.sm.sensors n {}).failed then
    let g := sensorGroup n
    let others := (List.range' g.1 g.2).filter (fun k => k != n && ahas s.sm.sensors k && !(agetD s.sm.sensors k {}).failed && s.sensorThere k)
    maxReading own (others.map (fun k => (agetD s.sm.sensors k {}).hw))
  else own

/-- The sensor that Table 18.3 names nearest a unit: a core or shuttle at column c, row k, or a channel's device. -/
def nearestSensor (u : Nat) : Option Nat :=
  match rasIndex u with
  | some n =>
    if n < 128 then some (4 * (n % 64 / 8) + n % 8 / 2) else if 160 ≤ n then some (40 + (n - 160)) else none
  | none => none

/-- Supply offset of a rung in mV (Table 12.3). -/
def rungOffset (rung : Nat) : Nat := 15 * min rung 3

/-- Clock steps down of a rung (Table 12.3). -/
def rungSteps (rung : Nat) : Nat := rung - 3

/-- Whether a core is at its in-field test: out of the core set and not passed yet (R356, R358). -/
def State.underTest (s : State) (core : Nat) : Bool := s.tap.testOut.contains core && !s.ras.testPass.contains core

/-- Supply of a unit in mV from its nominal supply: the rung's offset is included in every power state, and a core under test runs below its
rung voltage (R345, R346, R357). -/
def State.supplyFrom (s : State) (unit nominal : Nat) : Nat :=
  match rasIndex unit with
  | some n => (nominal + rungOffset (s.rasUnit n).rung + 65536 - (if s.underTest n then s.ras.vdrop else 0)) % 65536
  | none => nominal

/-- RUNG of a record: the unit's rung, or 0xFF for a unit without a ladder (Table 12.9). -/
def State.rungByte (s : State) (u : Nat) : Nat :=
  match rasIndex u with
  | some n => (s.rasUnit n).rung
  | none => 0xFF

/-- Bytes 0 to 31, 40 to 47 and 48 to 55 of a record: what every copy of it shares (Table 12.9). TEMP without a
nearest sensor and VCORE_MV are not stated (log entry 3). -/
structure RecBody where
  unit : Nat
  op : Nat
  pos : Nat
  time : Nat
  temp : Nat
  vcore : Nat
  code : Nat
  rung : Nat
  detail : Nat
  addr : Nat
deriving DecidableEq, Repr

/-- The 56 bytes that keep a body between its event and the end of its interval. -/
def RecBody.pack (r : RecBody) : Bytes :=
  leBytes 4 r.unit ++ leBytes 4 r.op ++ leBytes 8 r.pos ++ leBytes 8 r.time ++ leBytes 2 r.temp ++ leBytes 2 r.vcore ++
    leBytes 2 r.code ++ leBytes 2 r.rung ++ leBytes 8 r.detail ++ leBytes 8 r.addr

/-- The body that 56 bytes keep. -/
def RecBody.unpack (b : Bytes) : RecBody :=
  { unit := fld b 0 4, op := fld b 4 4, pos := fld b 8 8, time := fld b 16 8, temp := fld b 24 2, vcore := fld b 26 2,
    code := fld b 28 2, rung := fld b 30 2, detail := fld b 32 8, addr := fld b 40 8 }

/-- A record of Table 12.9. -/
def RecBody.bytes (r : RecBody) (count fn flags seq : Nat) : Bytes :=
  let b := leBytes 4 r.unit ++ leBytes 4 r.op ++ leBytes 8 r.pos ++ leBytes 8 r.time ++ leBytes 2 r.temp ++
    leBytes 2 r.vcore ++ leBytes 2 r.code ++ leBytes 1 (severityOf r.code) ++ leBytes 1 r.rung ++ leBytes 4 count ++
    leBytes 2 fn ++ leBytes 2 flags ++ leBytes 8 r.detail ++ leBytes 8 r.addr ++ leBytes 4 seq
  b ++ leBytes 4 (crc32c b)

/-- The body of an event that happens now. -/
def State.recBody (s : State) (unit code op detail addr : Nat) : RecBody :=
  { unit := unit, op := op, pos := s.cuePos, time := if s.aon.tableau then s.smNow else s.now,
    temp := match nearestSensor unit with
      | some n => unsigned 16 (s.reading n)
      | none => fld (s.freeBytes 4) 0 2,
    vcore := s.supplyFrom unit (fld (s.freeBytes 4) 2 2), code := code, rung := s.rungByte unit, detail := detail % 2 ^ 64,
    addr := addr % 2 ^ 64 }

/-- Whether a record is also written to the persistent log (R485). -/
def isPersistent (code : Nat) : Bool :=
  decide (2 ≤ severityOf code) || (decide (0x0100 ≤ code) && decide (code ≤ 0x0109)) || code == 0x0110 ||
    (decide (0x0120 ≤ code) && decide (code ≤ 0x0123))

/-- Appends to the event log, the oldest record giving way (R484), and to the persistent log (R485). -/
def State.smLog (s : State) (r : Bytes) : State :=
  let full := if 16384 ≤ s.sm.log.length then 1 else 0
  let t := s.upSm (fun m =>
    { m with log := (m.log ++ [r]).drop full, logFirst := m.logFirst + full, lost := (m.lost + full) % 2 ^ 32 })
  if isPersistent (fld r 28 2) then
    let pov := if 4096 ≤ s.flash.plog.length then 1 else 0
    t.upFlash (fun f => { f with plog := (f.plog ++ [r]).drop pov, plogFirst := f.plogFirst + pov })
  else t

/-- PLDM header and event data of a PlatformEventMessage of class 0xF0 (R499): the data is the record. -/
def healthMsg (r : Bytes) : Bytes := [0x01, 0x80, 0x02, 0x0A, 0x01, 0x00, 0xF0] ++ r

/-- Logs a health record and sends it to the receiver that SetEventReceiver named (R484, R499). -/
def State.smHealth (s : State) (r : Bytes) : State :=
  let t := s.smLog r
  match s.sm.receiver with
  | none => t
  | some (medium, eid) =>
    (t.emit .mctp medium 1 eid (healthMsg r)).upSm (fun m =>
      { m with unacked := m.unacked ++ [{ rec_ := r, at_ := s.smNow, sends := 1 }] })

/-- A health record reaches the stage manager, or waits in the hardware queue while it does not run (R361, R479). -/
def State.toHealth (s : State) (r : Bytes) : State :=
  let t := if s.aon.mainPhase = .ready then
      s.flag 9 0x02800000 4 (fun u => u.upRas (fun x => { x with evHealth := true }))
    else s
  if t.sm.running then t.smHealth r
  else if t.sm.queue.length < 512 then t.upSm (fun m => { m with queue := m.queue ++ [r] })
  else t.upSm (fun m => { m with qOver := m.qOver + 1 })

/-- Next SEQ of a function's records; 0xFFFF counts the device's own (R360). -/
def State.recSeq (s : State) (fn : Nat) : Nat := if fn = 0xFFFF then s.ras.seqDev else agetD s.ras.seqs fn 0

/-- Counts a record generated for a function. -/
def State.bumpSeq (s : State) (fn : Nat) : State :=
  s.upRas (fun r =>
    if fn = 0xFFFF then { r with seqDev := (r.seqDev + 1) % 2 ^ 32 }
    else { r with seqs := amod r.seqs fn 0 (fun v => (v + 1) % 2 ^ 32) })

/-- Entries of a ring. -/
def Ring.size (r : Ring) : Nat := 2 ^ r.log2

/-- The ring after one entry is written. -/
def Ring.push (r : Ring) : Ring :=
  { r with tail := (r.tail + 1) % r.size, count := r.count + 1,
           phase := if r.tail + 1 = r.size then !r.phase else r.phase }

/-- Writes the tenant copy of a record into the error ring of a function, or drops it (R363). -/
def State.tenantRec (s : State) (r : RecBody) (count fn flags : Nat) : State :=
  let seq := s.recSeq fn
  let rfn := if fn = 0xFFFF then 0 else fn
  let t := (s.bumpSeq fn).fnCtr rfn 12 1
  let log := fun (u : State) (b : Bytes) =>
    if 2 ≤ severityOf r.code then (if u.sm.running then u.smLog b else u) else u
  match aget t.ras.rings rfn with
  | none => log t (r.bytes count fn (flags + 1) seq)
  | some g =>
    let b := r.bytes count fn (flags + 1 + 32768 * b2n g.phase) seq
    if g.size ≤ g.count then log ((t.ao 30 1).fnCtr rfn 13 1) b
    else
      let u := (t.hostWrite rfn (g.base + 64 * g.tail) b).upRas (fun x => { x with rings := aset x.rings rfn g.push })
      log (u.vecEvent rfn g.vector) b

/-- Writes a record to every place its route names (R361); `coal` sets COALESCED. -/
def State.putRec (s : State) (r : RecBody) (route : RecRoute) (count : Nat) (coal : Bool) : State :=
  let fl := 4 * b2n coal
  let fn0 := match route.tenants with
    | [f] => if f = 0xFFFF then 0 else f
    | _ => 0
  let t := (s.ao 29 1).withObs (fun u => u.traceErr r.unit r.code fn0 r.op)
  let t1 := route.tenants.foldl (fun u f => u.tenantRec r count f fl) t
  if route.toHealth then (t1.bumpSeq 0xFFFF).toHealth (r.bytes count 0xFFFF (fl + 2) (t1.recSeq 0xFFFF)) else t1

/-- Whether an interval is that of an event (R362). -/
def Coal.matches (c : Coal) (unit code op : Nat) : Bool := c.unit == unit && c.code == code && c.op == op

/-- The route of an interval's second record: to each function that one of its events was routed to (R361). -/
def Coal.routeOf (c : Coal) : RecRoute := if c.health then .every c.fns else .each c.fns

/-- Ends the 10 ms interval of identical events: its events after the first are written as one record (R362). -/
def State.endCoal (s : State) (c : Coal) : State :=
  let t := s.upRas (fun r => { r with coals := r.coals.filter (fun x => !x.matches c.unit c.code c.op) })
  if c.count = 0 then t else t.putRec (RecBody.unpack c.last) c.routeOf c.count true

/-- An error event: the first of its kind is written at once, identical ones in the next 10 ms together (R362). -/
def State.record (s : State) (unit code op detail addr : Nat) (route : RecRoute) : State :=
  let r := s.recBody unit code op detail addr
  let s := s.spent
  let c0 : Coal := { unit := unit, code := code, op := op, since := s.now, health := route.toHealth }
  let first := fun (t : State) => (t.upRas (fun x => { x with coals := x.coals ++ [c0] })).putRec r route 1 false
  match s.ras.coals.find? (fun c => c.matches unit code op) with
  | none => first s
  | some c =>
    if c.since + 10000000 ≤ s.now then first (s.endCoal c)
    else s.upRas (fun x =>
      { x with coals := lupd x.coals (fun y => y.matches unit code op) (fun y =>
          { y with count := y.count + 1, last := r.pack, fns := route.tenants.foldl ladd y.fns }) })

end Sys2Proof.Machine
end

