-- ==== Sys2Proof/Machine/States.lean ====
section
/-!
DEFINITION. The state codes of units (R77, Table 3.6) and the intermission scopes (R85, Table 3.10).
-/
namespace Sys2Proof

/-- Key of a queue pair. -/
def qpKey (fn qp : Nat) : Nat := fn * 65536 + qp

/-- Whether a command came from a queue pair. -/
def Hdr.onQp (h : Hdr) (k : Nat) : Bool :=
  match h.chan with
  | .host fn qp => qpKey fn qp == k
  | _ => false

end Sys2Proof

namespace Sys2Proof.Machine

open Sys2Proof

/-- Unit ID of the device. -/
def uDevice : Nat := 0

/-- Unit ID of the whole Tapestry. -/
def uTapestry : Nat := 0x1FFF0000

/-- The intermission scope that holds a unit, the device apart (Table 3.10). -/
def scopeOf (u : Nat) : Option Nat :=
  match uClass u with
  | 1 => some 0x1FFF0000
  | 2 => some 0x2FFF0000
  | 3 => some 0x30000000
  | 4 => if uInst u < 4 then some (unitId 4 (uInst u)) else none
  | 5 => some 0x5FFF0000
  | 6 => some 0x60000000
  | 7 => some 0x7FFF0000
  | 9 => some (unitId 9 (uInst u))
  | _ => none

/-- Whether a unit ID is itself a scope of Table 3.10. -/
def isScope (u : Nat) : Bool := u == uDevice || scopeOf u == some u

/-- Code of an intermission phase (Table 3.6). -/
def InterPhase.code (p : InterPhase) : Nat :=
  match p with
  | .draining => 3 | .intermission => 4 | .restarting => 5

/-- The intermission held on a scope. -/
def State.interOn (s : State) (scope : Nat) : Option Inter := s.cmd.inters.find? (fun r => r.scope == scope)

/-- The intermission that covers a unit: a device intermission, or that of its scope (R85). -/
def State.interOf (s : State) (u : Nat) : Option Inter :=
  match s.interOn uDevice with
  | some r => some r
  | none =>
    match scopeOf u with
    | some sc => s.interOn sc
    | none => none

/-- Whether work of a scope is held: a drain has begun or the scope is in intermission (R86, R88). -/
def State.held (s : State) (u : Nat) : Bool := (s.interOf u).isSome

/-- Whether some block uses GDDR7: every channel takes part in each access, since memory is interleaved over all of them. DESIGN CHOICE (log
entry 66): the work that makes a channel ACTIVE is that of cores, streams, cipher lanes, started jobs, storage commands and issued
deliveries. -/
def State.memActive (s : State) : Bool :=
  !s.tap.running.isEmpty || !s.shu.streams.isEmpty || !s.cip.units.isEmpty || s.loom.jobs.any (fun e => e.2.started) ||
    !s.sto.remotes.isEmpty || s.feed.rings.any (fun e => !e.2.issued.isEmpty)

/-- Whether a member of the ladder is at work. -/
def State.memberActive (s : State) (n : Nat) : Bool :=
  if n < 64 then ahas s.tap.running n
  else if n < 128 then s.shu.streams.any (fun e => e.2.shuttle == some (n - 64))
  else if n < 144 then
    s.cmd.qps.any (fun e => e.2.home == n - 128 && (s.cmd.fetched.any (fun f => f.hdr.onQp e.1) || s.cmd.waiting.any (fun w => w.hdr.onQp e.1)))
  else if n < 160 then s.cip.units.any (fun x => x.lane == n - 144)
  else s.memActive

/-- State code of one member of the ladder (Table 3.6). -/
def State.memberState (s : State) (n : Nat) : Nat :=
  let r := s.rasUnit n
  if r.fenced then 9
  else if n < 128 && s.partResetting .staging then 8
  else if n < 64 && s.tap.testOut.contains n then 7
  else if 128 ≤ n && n < 144 && (agetD s.stg.hands (n - 128) {}).st != 1 && (agetD s.stg.hands (n - 128) {}).st != 2 then
    (agetD s.stg.hands (n - 128) {}).st
  else if 0 < r.rung then 6
  else if s.memberActive n then 2 else 1

/-- The largest of a list of codes. -/
def maxCode (l : List Nat) : Nat := l.foldl max 0

/-- State code of a group of ladder members: the highest of those not fenced (R77). -/
def State.groupState (s : State) (l : List Nat) : Nat :=
  let up := l.filter (fun n => !s.unitFenced n)
  if up.isEmpty then 9 else maxCode (up.map s.memberState)

/-- Whether a power or thermal emergency is in force (R531). -/
def Pwr.emergency (p : Pwr) : Bool := p.epr || p.temp || p.volt || p.power

/-- State code of the device (Table 3.6). DESIGN CHOICE (log entry 66): the device is ACTIVE while a core runs, a stream is open or a job is
started. -/
def State.deviceState (s : State) : Nat :=
  if s.sm.emerg then 0x15
  else if s.stg.handover.any (fun h => h.stage != 0) then 0x14
  else if s.stg.status = 1 then 0x13
  else if !s.tap.running.isEmpty || !s.shu.streams.isEmpty || s.loom.jobs.any (fun e => e.2.started) then 2
  else 1

/-- State code of a storage controller. -/
def State.ctrlState (s : State) (fn : Nat) : Nat :=
  let c := agetD s.sto.ctrls fn {}
  if s.partResetting .wbuf then 8 else if !c.en then 0 else if c.ops.isEmpty && c.aers.isEmpty then 1 else 2

/-- State code of an attachment point of a feed port. -/
def State.accState (s : State) (a : Nat) : Nat := (agetD s.feed.accs a {}).st

/-- State code of the Loom. -/
def State.loomState (s : State) : Nat :=
  if s.partResetting .shuffle then 8 else if s.loom.jobs.any (fun e => e.2.started) then 2
  else if s.loom.jobs.isEmpty then 0 else 1

/-- State code of a latch. -/
def State.latchState (s : State) (n : Nat) : Nat :=
  let c := agetD s.lat.cells n {}
  if !c.en then 0 else if c.armed then 2 else 1

/-- State code of the troupe that this device heads: OFF without members, PARTIAL with one unreachable, ACTIVE while a forwarded command awaits
its replies or a job of several members is started, else IDLE (Table 3.6, log entry 66). -/
def State.troupeState (s : State) : Nat :=
  let l := s.net.members.filter (fun m => !m.isHead)
  if l.isEmpty then 0 else if l.any (fun m => m.live && !m.reached) then 0x16
  else if !s.cmd.fanouts.isEmpty || s.loom.jobs.any (fun e => e.2.started && decide (1 < e.2.members)) then 2
  else 1

/-- State code of a unit without regard to an intermission. DESIGN CHOICE (log entry 66): the Heddle is ACTIVE while it holds flows. -/
def State.plainState (s : State) (u : Nat) : Nat :=
  let i := uInst u
  match uClass u with
  | 0 => s.deviceState
  | 3 => s.loomState
  | 4 =>
    if i = 0xFFF then maxCode ((List.range 8).map s.accState)
    else if uSub u = 0 then max (s.accState (2 * i)) (if (agetD s.feed.ports i {}).halved then s.accState (2 * i + 1) else 0)
    else s.accState (2 * i + (uSub u - 1))
  | 5 =>
    if i = 0xFFF then maxCode ((List.range s.net.portCount).map (fun p => (agetD s.net.ports p {}).st))
    else (agetD s.net.ports i {}).st
  | 6 => if s.hed.nodes.isEmpty then 0 else if s.hed.flows.isEmpty then 1 else 2
  | 9 => s.ctrlState i
  | 11 =>
    if uSub u = 0 then maxCode ((List.range 512).map (fun k => s.latchState (512 * i + k)))
    else s.latchState (512 * i + (uSub u - 1))
  | 15 => s.troupeState
  | _ => s.groupState (s.ladderMembers u)

/-- STATE of a unit (R77): a scope in intermission, its own or the device's (R85), shows its phase. -/
def State.unitState (s : State) (u : Nat) : Nat :=
  match if isScope u then s.interOf u else none with
  | some r => r.ph.code
  | none => s.plainState u

/-- Whether every member that a unit ID names is fenced (R23). -/
def State.allFenced (s : State) (u : Nat) : Bool :=
  let l := s.ladderMembers u
  !l.isEmpty && l.all s.unitFenced

/-- Fenced members of a group target; a single unit counts none (R75). -/
def State.fencedSkipped (s : State) (u : Nat) : Nat :=
  let l := s.ladderMembers u
  if l.length ≤ 1 then 0 else (l.filter s.unitFenced).length

end Sys2Proof.Machine
end

