-- ==== Sys2Proof/Machine/Qps.lean ====
section
/-!
DEFINITION. The context store (R162, R163), network events (R147), RDMA queue pairs and the sending of messages (R135, R136, R139, R142, R145).
-/
namespace Sys2Proof.Machine

open Sys2Proof

/-! ## Network events -/

/-- Writes a network event record, or drops it for a full ring; without a ring nothing is written (R147). -/
def State.netEvent (s : State) (code unit obj detail : Nat) : State :=
  match s.net.evq with
  | none => s
  | some r =>
    if r.size ≤ r.count then s.upNet (fun n => { n with evqDrop := satu 4095 (n.evqDrop + 1) })
    else
      let b := leBytes 2 code ++ [BitVec.ofNat 8 (b2n r.phase), 0] ++ leBytes 4 unit ++ leBytes 4 obj ++ leBytes 4 detail ++
        leBytes 8 s.cuePos ++ leBytes 8 s.now
      ((s.hostWrite 0 (r.base + 32 * r.tail) b).upNet (fun n => { n with evq := some r.push })).vecEvent 0 r.vector

/-! ## The context store -/

/-- Contexts in the store (R162). -/
def ctxTotal : Nat := 1048576

/-- Contexts of a kind in use. -/
def Ctx.used (c : Ctx) (kind : Nat) : Nat := (c.kinds.filter (fun e => e.2 == kind)).length

/-- Contexts reserved for a kind. -/
def Ctx.reserved (c : Ctx) (kind : Nat) : Nat := agetD c.reserve kind 0

/-- Free contexts (NET_CTX_STAT.FREE). -/
def Ctx.free (c : Ctx) : Nat := ctxTotal - c.kinds.length

/-- Contexts of the common pool that are free: what no kind uses or has reserved. -/
def Ctx.pool (c : Ctx) : Nat :=
  ctxTotal - ([1, 2, 3, 4].map (fun k => max (c.used k) (c.reserved k))).sum

/-- Most contexts of a kind; a queue pair may take a second one (Table 5.17). -/
def ctxLimit (kind : Nat) : Nat :=
  match kind with
  | 2 => 131072 | 3 => 65536 | 4 => 16384 | _ => ctxTotal

/-- Contexts of a kind that can still be taken (R105, R162). -/
def Ctx.room (c : Ctx) (kind : Nat) : Nat :=
  min (ctxLimit kind - c.used kind) ((c.reserved kind - c.used kind) + c.pool)

/-- Takes the lowest free context for a kind: from its reserve first, then from the common pool (R162). -/
def State.ctxTake (s : State) (kind : Nat) : Option (Nat × State) :=
  if s.ctx.room kind = 0 then none
  else match freeKey s.ctx.kinds ctxTotal 0 with
    | none => none
    | some n =>
      let t := s.upCtx (fun c => { c with kinds := aset c.kinds n kind })
      if 16384 ≤ s.ctx.free ∧ t.ctx.free < 16384 then
        some (n, ((t.flag 5 0x01400208 38 (fun u => u.upCtx (fun c => { c with low := true }))).netEvent 0x0030 0 0 t.ctx.free))
      else some (n, t)

/-- Takes several contexts of a kind, or none. -/
def State.ctxTakeN (s : State) (kind : Nat) : Nat → Option (List Nat × State)
  | 0 => some ([], s)
  | n + 1 =>
    match s.ctxTake kind with
    | none => none
    | some (c, t) =>
      match t.ctxTakeN kind n with
      | none => none
      | some (l, u) => some (c :: l, u)

/-- Returns contexts; a pinned one is pinned no longer. -/
def State.ctxGive (s : State) (l : List Nat) : State :=
  s.upCtx (fun c => { c with kinds := c.kinds.filter (fun e => !l.contains e.1), pinned := c.pinned.filter (fun n => !l.contains n),
                             cache := c.cache.filter (fun n => !l.contains n),
                             data := c.data.filter (fun e => !l.contains e.1), bad := c.bad.filter (fun n => !l.contains n) })

/-- Contexts that the on-die cache holds (R163). -/
def ctxCacheSize : Nat := 131072

/-- A context is used: a pinned or cached one hits; another misses and takes the place of the least recently used, which is written back
(R163, Table 19.5). -/
def State.ctxUse (s : State) (k : Nat) : State :=
  let hit := s.ctx.pinned.contains k || s.ctx.cache.contains k
  let t := if s.ctx.pinned.contains k then s
    else s.upCtx (fun c => { c with cache := (k :: ldel c.cache k).take (ctxCacheSize - c.pinned.length) })
  t.withObs (fun u => u.gctr (if hit then 0x0010 else 0x0011) 0 1)

/-- Several contexts are used. -/
def State.ctxUses (s : State) (l : List Nat) : State := l.foldl (fun t k => t.ctxUse k) s

/-! ## Queue pairs -/

/-- QPN of queue pair index `i` (R139). -/
def qpnOf (i : Nat) : Nat := 0x100 + i

/-- The queue pair of a QPN. -/
def State.qp (s : State) (qpn : Nat) : Option Qp := if qpn < 0x100 then none else aget s.net.qps (qpn - 0x100)

/-- Changes a queue pair. -/
def State.upQpn (s : State) (qpn : Nat) (f : Qp → Qp) : State :=
  s.upNet (fun n => { n with qps := aupd n.qps (qpn - 0x100) f })

/-- State code of a queue pair (Table 5.5). -/
def QpState.code (q : QpState) : Nat :=
  match q with
  | .reset => 0 | .init => 1 | .rtr => 2 | .rts => 3 | .error => 4 | .recovering => 5

/-- The code's state; RECOVERING is never set by command (Table 5.6). -/
def QpState.ofCode (n : Nat) : QpState :=
  match n with
  | 0 => .reset | 1 => .init | 2 => .rtr | 3 => .rts | 4 => .error | _ => .recovering

/-- Moves a queue pair to a state, with its trace record. -/
def State.qpMove (s : State) (qpn : Nat) (st : QpState) : State :=
  (s.upQpn qpn (fun q => { q with st := st })).note 0x5FFF0000 0x0080 0 qpn st.code

/-- Takes a queue pair with its contexts: a sprayed one takes a second, and a pinned one is pinned in the cache (R143,
R162, R163). -/
def State.qpAlloc (s : State) (q : Qp) (sprayed pin : Bool) : Option (Nat × State) :=
  let n := if sprayed then 2 else 1
  if pin && decide (16384 < s.ctx.pinned.length + n) then none
  else match freeKey s.net.qps 65536 0 with
    | none => none
    | some i =>
      match s.ctxTakeN 2 n with
      | none => none
      | some (l, t) =>
        let u := t.upNet (fun k => { k with qps := aset k.qps i { q with ctxs := l, pinned := pin, acked := (q.sqPsn + 16777215) % 16777216 } })
        some (qpnOf i, if pin then u.upCtx (fun c => { c with pinned := c.pinned ++ l }) else u)

/-- Tears a queue pair down and returns its contexts. -/
def State.qpFree (s : State) (qpn : Nat) : State :=
  match s.qp qpn with
  | none => s
  | some q => (s.ctxGive q.ctxs).upNet (fun n => { n with qps := adel n.qps (qpn - 0x100) })

/-- Path MTU in bytes. -/
def Qp.mtuBytes (q : Qp) : Nat := if q.mtu = 3 then 1024 else if q.mtu = 4 then 2048 else 4096

/-- Whether a queue pair sprays (R142). -/
def Qp.sprayed (q : Qp) : Bool := decide (1 < q.paths)

/-- Whether a port is ACTIVE. -/
def Net.portUp (n : Net) (p : Nat) : Bool := decide (p < n.portCount) && (agetD n.ports p {}).st == 2

/-- The live ports of a queue pair, counted upwards (R142). -/
def State.livePorts (s : State) (q : Qp) : List Nat :=
  (List.range 16).filter (fun p => q.portMask.testBit p && s.net.portUp p)

/-- The paths of a queue pair that are up. -/
def Qp.upPaths (q : Qp) : List Nat := (List.range q.paths).filter (fun p => !q.downPaths.contains p)

/-- The next path of a queue pair, round-robin over those that are up (R142). -/
def Qp.pickPath (q : Qp) : Nat :=
  match q.upPaths.find? (fun p => decide (q.nextPath ≤ p)) with
  | some p => p
  | none => q.upPaths.headD 0

/-- Bytes of an Ethernet frame that carries a BTH packet with `ext` bytes of further headers and `n` of payload: Ethernet,
IP, UDP, BTH, ICRC and FCS (R135; the header lengths are the standards'). -/
def rdmaFrameLen (q : Qp) (ext n : Nat) : Nat :=
  max 64 (14 + (if q.addrType = 6 then 40 else 20) + 8 + 12 + ext + (n + 3) / 4 * 4 + 4 + 4)

/-- RETH of a packet. -/
def reth (addr rkey len : Nat) : Bytes := beBytes 8 addr ++ beBytes 4 rkey ++ beBytes 4 len

/-- MSGX of a packet (Table 5.8). -/
def msgx (msn : Nat) (fenced readResp : Bool) (offset total : Nat) : Bytes :=
  leBytes 3 msn ++ [BitVec.ofNat 8 (b2n fenced + 2 * b2n readResp)] ++ leBytes 4 offset ++ leBytes 4 total ++ zeros 4

/-- Port of a path: path p takes live port p mod the number of live ports, counted upwards (R142). -/
def State.pathPort (s : State) (q : Qp) (path : Nat) : Nat := let l := s.livePorts q; l.getD (path % l.length) 0

/-- UDP source port of a path (R142). -/
def pathUdp (path : Nat) : Nat := 0xC000 + path

/-- How a packet leaves: BTH opcode in bits [7:0], UDP source port in [23:8], Ethernet port in [27:24], and in [28] whether it is marked
ECN-capable (R136, R142). -/
def State.wireCode (s : State) (q : Qp) (opcode path : Nat) : Nat :=
  opcode + 2 ^ 8 * pathUdp path + 2 ^ 24 * s.pathPort q path + 2 ^ 28 * b2n q.ecn

/-- Whether the link partner of a port has paused a priority (R133). -/
def Port.holds (p : Port) (prio now : Nat) : Bool := decide (now < agetD p.pause prio 0)

/-- The priority of a queue pair's packets: the class of its DSCP (log entry 72). -/
def Qp.prio (q : Qp) : Nat := q.dscp / 8

/-- Sends one packet of a queue pair: QPN, PSN, BTH opcode and path, and the bytes after the BTH. A packet whose port is paused for its
priority waits there, behind those that wait already (R133). -/
def State.qpPacket (s : State) (qpn psn opcode path ext : Nat) (b : Bytes) : State :=
  match s.qp qpn with
  | none => s
  | some q =>
    let port := s.pathPort q path
    let x := agetD s.net.ports port {}
    let n := rdmaFrameLen q ext (b.length - ext)
    let t := s.ctxUses q.ctxs
    if x.holds q.prio s.now || x.held.any (fun e => e.prio == q.prio) then
      t.upNet (fun k => { k with ports := amod k.ports port {} (fun y => { y with held := y.held ++
        [{ prio := q.prio, qpn := qpn, psn := psn % 16777216, code := s.wireCode q opcode path, size := n, data := b }] }) })
    else (t.emit .rdma qpn (psn % 16777216) (s.wireCode q opcode path) b).ao 10 n

/-- Packets of a message. -/
def Qp.packets (q : Qp) (len : Nat) : Nat := max 1 ((len + q.mtuBytes - 1) / q.mtuBytes)

/-- BTH opcode of packet `i` of `n`, from the First, Middle, Last and Only forms. -/
def bthOf (first middle last only i n : Nat) : Nat :=
  if n = 1 then only else if i = 0 then first else if i + 1 = n then last else middle

/-- Sends packet `i` of a write message (R135, R142). -/
def State.sendPacket (s : State) (qpn : Nat) (m : TxMsg) (i : Nat) : State :=
  match s.qp qpn with
  | none => s
  | some q =>
    let n := q.packets m.len
    let off := i * q.mtuBytes
    let pay := sub m.data off (min q.mtuBytes (m.len - off))
    let path := if q.sprayed then q.pickPath else 0
    let t := if q.sprayed then s.upQpn qpn (fun q => { q with nextPath := (path + 1) % q.paths }) else s
    let psn := m.first + i
    if m.rd then
      let ext := if q.sprayed then msgx m.msn m.fenced false 0 m.len else []
      t.qpPacket qpn psn 0x0C path (16 + ext.length) (reth m.addr m.rkey m.len ++ ext)
    else if q.sprayed then
      t.qpPacket qpn psn 0x0A path 32 (reth (m.addr + off) m.rkey pay.length ++ msgx m.msn m.fenced false off m.len ++ pay)
    else
      let hd := if i = 0 then reth m.addr m.rkey m.len else []
      t.qpPacket qpn psn (bthOf 0x06 0x07 0x08 0x0A i n) path hd.length (hd ++ pay)

/-- Packets that a message takes to send; a read request is one packet. -/
def Qp.sends (q : Qp) (m : TxMsg) : Nat := if m.rd then 1 else q.packets m.len

/-- Whether a packet may be sent: on a sprayed queue pair none 1,024 PSNs or more beyond the first that is not acknowledged (R143). -/
def Qp.inWindow (q : Qp) (psn : Nat) : Bool := !q.sprayed || decide ((psn + 16777216 - (q.acked + 1) % 16777216) % 16777216 < 1024)

/-- Sends what a message still has to send, as far as the window lets it (R143). -/
def State.sendMsgOut (s : State) (qpn : Nat) (m : TxMsg) : State :=
  match s.qp qpn with
  | none => s
  | some q =>
    let l := (List.range' m.out (q.sends m - m.out)).takeWhile (fun i => q.inWindow ((m.first + i) % 16777216))
    l.foldl (fun t i => t.sendPacket qpn m i)
      (s.upQpn qpn (fun q => { q with tx := lupd q.tx (fun x => x == m) (fun x => { x with out := m.out + l.length }) }))

/-- The messages that the window stopped go on, in order (R143, R145). -/
def State.windowKick (s : State) (qpn : Nat) : State :=
  match s.qp qpn with
  | none => s
  | some q =>
    if q.st ≠ .rts then s
    else (q.tx.filter (fun m => m.sent && decide (m.out < q.sends m))).foldl (fun t m => t.sendMsgOut qpn m) s

/-- Whether the first unsent message of a queue pair may be sent: in RTS, a fenced one with nothing before it, a read
with fewer than 16 outstanding (R136, R139, R145). -/
def Qp.maySend (q : Qp) (m : TxMsg) : Bool :=
  q.st == .rts && !(m.fenced && q.tx.any (fun x => x.sent)) && !(m.rd && decide (16 ≤ q.reads))

/-- Rate of a queue pair, in 1/65,536ths: halved at a CNP, it recovers over the 1 ms that follows (R136). -/
def Qp.rateNow (q : Qp) (now : Nat) : Nat := min 65536 (q.rate + (65536 - q.rate) * (now - q.rateAt) / 1000000)

/-- Sends the messages whose turn has come, in order: each takes its MSN and its PSNs as it is sent; an Ethernet-ports
intermission and a channel that leaves the interleave hold them (R85, R350). -/
def State.qpKick : Nat → State → Nat → State
  | 0, s, _ => s
  | fuel + 1, s, qpn =>
    match s.qp qpn with
    | none => s
    | some q =>
      match q.tx.find? (fun m => !m.sent) with
      | none => s
      | some m =>
        if q.maySend m && !(s.held 0x5FFF0000) && !s.memHeld then
          let n := q.packets m.len
          let m' : TxMsg := { m with sent := true, msn := q.txMsn, first := q.sqPsn, last := (q.sqPsn + n - 1) % 16777216 }
          let t := s.upQpn qpn (fun q =>
            { q with tx := q.tx.takeWhile (fun x => x.sent) ++ [m'] ++ (q.tx.dropWhile (fun x => x.sent)).drop 1,
                     sqPsn := (q.sqPsn + n) % 16777216, txMsn := (q.txMsn + 1) % 16777216,
                     reads := if m.rd then q.reads + 1 else q.reads })
          State.qpKick fuel (t.sendMsgOut qpn m') qpn
        else s

/-- Queues a message on a queue pair and sends what may be sent. In ERROR, without a recovery to come, the work ends with
an error to its owner (Table 5.5). -/
def State.qpSend (s : State) (qpn : Nat) (m : TxMsg) : State :=
  match s.qp qpn with
  | none => s
  | some q =>
    if (q.st == .error && (!q.autoRec || q.given)) || q.st == .reset || q.st == .init then s
    else
      let t := s.upQpn qpn (fun q => { q with tx := q.tx ++ [{ m with sent := false, out := 0 }] })
      t.qpKick (q.tx.length + 1) qpn

/-- Writes bytes into a peer's memory. -/
def State.qpWrite (s : State) (qpn : Nat) (op : TxOp) (addr rkey : Nat) (b : Bytes) (fenced : Bool) : State :=
  s.qpSend qpn { op := op, addr := addr, rkey := rkey, len := b.length, data := b, fenced := fenced }

/-- Reads bytes of a peer's memory. -/
def State.qpRead (s : State) (qpn : Nat) (op : TxOp) (addr rkey len : Nat) : State :=
  s.qpSend qpn { op := op, rd := true, addr := addr, rkey := rkey, len := len }

/-- Every queue pair sends what it may (R85, R133, R350). -/
def State.qpsKick (s : State) : State := s.net.qps.foldl (fun t e => t.qpKick (e.2.tx.length + 1) (qpnOf e.1)) s

/-- Sends a packet that waited at its port. -/
def State.heldOut (s : State) (e : HeldPkt) : State := (s.emit .rdma e.qpn e.psn e.code e.data).ao 10 e.size

/-- The packets that a pause held leave once it has passed, in the order in which they came to their port (R133). -/
def State.pausesEnd (s : State) : State :=
  let go := s.net.ports.flatMap (fun e => e.2.held.filter (fun x => !(e.2.holds x.prio s.now)))
  if s.net.ports.all (fun e => e.2.pause.isEmpty) ∧ go.isEmpty then s
  else
    go.foldl (fun t e => t.heldOut e) (s.upNet (fun n => { n with ports := n.ports.map (fun e =>
      (e.1, { e.2 with pause := e.2.pause.filter (fun x => decide (s.now < x.2)), held := e.2.held.filter (fun x => e.2.holds x.prio s.now) })) }))

/-! ## Registered regions -/

/-- The region of an rkey. -/
def State.region (s : State) (rkey : Nat) : Option Region := aget s.net.regions rkey

/-- Registers a region under the next rkey, which is never 0 (R137, R141). -/
def State.regionAdd (s : State) (r : Region) : Option (Nat × State) :=
  if 4096 ≤ s.net.regions.length then none
  else
    match freeKey s.net.regions 4097 (max 1 s.net.nextRkey) with
    | none => none
    | some k =>
      some (k, s.upNet (fun n => { n with regions := aset n.regions k r, nextRkey := if 4294960000 ≤ k then 1 else k + 1 }))

/-- Ends a region. -/
def State.regionDel (s : State) (rkey : Nat) : State := s.upNet (fun n => { n with regions := adel n.regions rkey })

/-! ## The troupe's control region (R150, Table 5.28) -/

/-- Bytes of a control region. -/
def ctrlRegionLen : Nat := 0x21000

/-- Where the device reserve holds control region `k` (the place is the model's choice, log entry 13). -/
def State.ctrlBase (s : State) (k : Nat) : Nat := s.partBase .reserve + k * ctrlRegionLen

/-! ## The stagehands' part of the device reserve (log entry 13) -/

/-- Bytes of a stagehand's replay area (R398). -/
def replayLen : Nat := 4194304

/-- The replay area of a stagehand. -/
def State.replayBase (s : State) (home : Nat) : Nat := s.partBase .reserve + 139460608 + home * replayLen

/-- Copy 0 or 1 of the image in an image area. -/
def State.imgBase (s : State) (bank copy : Nat) : Nat := s.partBase .reserve + 206569472 + (2 * bank + copy) * 8388608

/-- Copy 0 or 1 of a stagehand's journal: 512 entries of 128 bytes (R397). -/
def State.journalBase (s : State) (copy home : Nat) : Nat := s.partBase .reserve + 240123904 + copy * 1048576 + home * 65536

/-- Copy 0 or 1 of the state record (Table 14.5). -/
def State.recordBase (s : State) (copy : Nat) : Nat := s.partBase .reserve + 242221056 + copy * 524288

/-- The private area of the module of a class (R408). -/
def State.areaBase (s : State) (cls : Nat) : Nat := s.partBase .reserve + 243269632 + cls % 16 * 1048576

/-- Changes a troupe link. -/
def State.upMember (s : State) (id : Nat) (f : Member → Member) : State :=
  s.upNet (fun n => { n with members := lupd n.members (fun m => m.id == id) f })

/-- The troupe link of an ID. -/
def State.member (s : State) (id : Nat) : Option Member := s.net.members.find? (fun m => m.id == id)

/-- Writes an entry into a mailbox of a link's peer: its body, padded, and the next sequence word (R138, R150). -/
def State.mboxWrite (s : State) (m : Member) (op : TxOp) (base size entries seq : Nat) (body : Bytes) : State :=
  s.qpWrite m.ctrlQp op (base + (seq - 1) % entries * size) m.peerRkey (padTo (size - 8) body ++ leBytes 8 seq) false

/-- Writes forwarded commands that have waited, while fewer than 8 are in flight to the member (R150). -/
def State.fwdKick (s : State) (id : Nat) : State :=
  match s.member id with
  | none => s
  | some m =>
    match m.queue with
    | [] => s
    | (fwd, e) :: t =>
      if m.inflight < 8 then
        let seq := m.cmdSeq % 2 ^ 64 + 1
        (s.upMember id (fun x => { x with queue := t, inflight := x.inflight + 1, cmdSeq := seq })).mboxWrite m (.fwd fwd) 0x1000
          8192 8 seq e
      else s

/-- One command fewer is in flight to a member: the next one follows. -/
def State.fwdDone (s : State) (id : Nat) : State :=
  (s.upMember id (fun x => { x with inflight := x.inflight - 1 })).fwdKick id

end Sys2Proof.Machine
end

