-- ==== Sys2Proof/Machine/Packet.lean ====
section
/-!
DEFINITION. Command packets (R68 to R78, R84): fetching, the order of checks, forwarding, and the status reply.
-/
namespace Sys2Proof

open Machine

/-- FLAGS.PTR (Table 3.2). -/
def Hdr.ptr (h : Hdr) : Bool := bit h.flags 0

/-- FLAGS.IDEMPOTENT. -/
def Hdr.idempotent (h : Hdr) : Bool := bit h.flags 1

/-- FLAGS.FENCE. -/
def Hdr.fence (h : Hdr) : Bool := bit h.flags 2

/-- FLAGS.CRC. -/
def Hdr.hasCrc (h : Hdr) : Bool := bit h.flags 3

/-- FLAGS.SNAPSHOT. -/
def Hdr.snapshot (h : Hdr) : Bool := bit h.flags 4

/-- The function on whose interface a command came; 256 stands for the management side, 257 for a troupe head. -/
def Chan.fn (c : Chan) : Nat :=
  match c with
  | .host fn _ => fn
  | .mgmt _ => 256
  | .head _ _ _ _ _ _ => 257

/-- Queue pair index of a command, 0 off the host port. -/
def Chan.qp (c : Chan) : Nat :=
  match c with
  | .host _ qp => qp
  | _ => 0

/-- Whether a command came through the command interface of a VF. -/
def Hdr.fromVf (h : Hdr) : Bool :=
  match h.chan with
  | .host fn _ => fn != 0
  | _ => false

/-- Slots that a command spans (R63). -/
def Hdr.slots (h : Hdr) : Nat := if h.ptr then 1 else 1 + (h.paramLen + 63) / 64

/-- Bytes 0 to 59 of a command header (Table 3.1). -/
def Hdr.bytes (h : Hdr) (opcode : Nat) : Bytes :=
  leBytes 2 opcode ++ leBytes 2 h.flags ++ leBytes 4 h.session ++ leBytes 4 h.hostTag ++
    [BitVec.ofNat 8 h.pathLen, BitVec.ofNat 8 h.version] ++ leBytes 2 h.rsv ++
    (padTo 16 (h.path.flatMap (leBytes 2))) ++ leBytes 4 h.unit ++ leBytes 4 h.paramLen ++ leBytes 8 h.paramPtr ++
    leBytes 8 h.memberBuf ++ leBytes 4 h.memberLen

/-- The header that 64 bytes spell, for a command of a channel. -/
def Hdr.ofBytes (c : Chan) (b : Bytes) (readOk : Bool) : Hdr :=
  { chan := c, flags := fld b 2 2, session := fld b 4 4, hostTag := fld b 8 4, pathLen := fld b 12 1,
    version := fld b 13 1, rsv := fld b 14 2, path := (List.range 8).map (fun i => fld b (16 + 2 * i) 2),
    unit := fld b 32 4, paramLen := fld b 36 4, paramPtr := fld b 40 8, memberBuf := fld b 48 8,
    memberLen := fld b 56 4, crc := fld b 60 4, readOk := readOk }

/-- A role's rank: an operator may do what a manager may, and a manager what a tenant may (R84). -/
def Role.rank (r : Role) : Nat :=
  match r with
  | .tenant => 0 | .manager => 1 | .operator => 2

/-- Whether a command came from the management network. -/
def Chan.isMgmt (c : Chan) : Bool :=
  match c with
  | .mgmt _ => true
  | _ => false

/-- A packet that a troupe head forwards. -/
def Chan.isHead (c : Chan) : Bool :=
  match c with
  | .head _ _ _ _ _ _ => true
  | _ => false

/-- Whether any path entry names every member (R94). -/
def Hdr.fansOut (h : Hdr) : Bool := (h.path.take h.pathLen).any (fun m => m == 0xFFFF)

/-- Whether a command's reply carries member records: it fans out here, or its head wants them (R94, Table 5.30). -/
def Hdr.wantsRecords (h : Hdr) : Bool :=
  h.fansOut || (match h.chan with
    | .head _ _ _ _ fan _ => fan
    | _ => false)

end Sys2Proof

namespace Sys2Proof.Machine

open Sys2Proof

/-! ## Status codes -/

def sOk : Nat := 0x0000
def sBadOpcode : Nat := 0x0001
def sBadParam : Nat := 0x0002
def sBadState : Nat := 0x0003
def sNoSession : Nat := 0x0004
def sAuth : Nat := 0x0005
def sNoRes : Nat := 0x0006
def sAborted : Nat := 0x0007
def sFenced : Nat := 0x0008
def sNotNeg : Nat := 0x0009
def sBusy : Nat := 0x000A
def sIntegrity : Nat := 0x000B
def sPartial : Nat := 0x000C

/-! ## The header -/

/-- Whether a caller is a tenant. -/
def Caller.tenant (c : Caller) : Bool := c.role == .tenant

/-- What a command answers once its checks to step 8 have passed. -/
inductive Verdict where
  /-- Carried out: status, DETAIL, RESULT. -/
  | done (status detail result : Nat) (t : State)
  /-- Carried out, with a STATE of its own. -/
  | doneAs (status detail result st : Nat) (t : State)
  /-- A check of steps 9 to 11 failed. -/
  | refuse (status detail : Nat)
  /-- A check failed, with the STATE against which it was judged. -/
  | refuseAt (status detail st : Nat)
  /-- The reply waits for an event: what it waits for and a number its reply needs (R399). -/
  | wait (kind aux : Nat) (t : State)

/-- Completes OK with RESULT 0. -/
def Verdict.ok (t : State) : Verdict := .done sOk 0 0 t

/-- Completes INVALID_PARAM naming the parameter at an offset. -/
def badParam (off : Nat) : Verdict := .refuse sBadParam (64 + off)

/-- Completes INVALID_STATE. -/
def badState : Verdict := .refuse sBadState 0

/-- Completes NO_RESOURCE. -/
def noResource : Verdict := .refuse sNoRes 0

/-- What the opcode table and its rules say of one opcode. -/
structure OpSpec where
  code : Nat
  role : Role := .manager
  /-- Accepted in version 1 (R72). -/
  v1 : Bool := false
  /-- Defined (R100). -/
  defined : Bool := true
  /-- Returns a RESULT of its own, so takes no SNAPSHOT (R74). -/
  result : Bool := false
  /-- Least PARAM_LEN, from the parameters themselves. -/
  len : Bytes → Nat := fun _ => 0
  /-- Features its parameters need beyond those of its class (Table 14.3). -/
  feats : Bytes → List Nat := fun _ => []
  /-- Fields judged at step 4: parameter offset and whether the value is admitted, by ascending offset. -/
  fields : State → Bytes → List (Nat × Bool) := fun _ _ => []
  /-- Further fields judged at step 4, which depend on the header. -/
  hfields : Hdr → Bytes → List (Nat × Bool) := fun _ _ => []
  /-- A further check of step 6: its DETAIL when it fails. -/
  auth : Caller → Hdr → Bytes → State → Option Nat := fun _ _ _ _ => none
  /-- Least role where it depends on the unit (R86). -/
  roleFor : Hdr → Option Role := fun _ => none
  /-- A further check of step 7 on the unit. -/
  unitOk : Hdr → State → Bool := fun _ _ => true
  /-- Data-path work: the scope that holds it (R88). -/
  dataScope : Option Nat := none
  /-- What a failed check of step 6 changes besides the error counter (R81). -/
  authFail : Hdr → Nat → State → State := fun _ _ s => s
  /-- Takes its parameters by pointer alone (R246). -/
  needPtr : Bool := false
  /-- Latches its own snapshot (R270). -/
  ownSnap : Bool := false
  /-- Answered by the stage manager itself while no image runs (R497). -/
  noFw : Bool := false
  /-- It names a scope: a unit that is none is judged against its least role alone, and fails at step 7 (R86). -/
  onScope : Bool := false
  /-- A fenced unit does not stop it. -/
  fenceOk : Bool := false
  /-- Checks of steps 9 to 11 and the effect. -/
  run : Caller → Hdr → Bytes → State → Verdict

/-! ## The reply -/

/-- The settings and counters of a function's command interface. -/
def State.fnCmd (s : State) (fn : Nat) : FnCmd := agetD s.cmd.fns fn {}

/-- Changes a function's command interface. -/
def State.upFn (s : State) (fn : Nat) (f : FnCmd → FnCmd) : State :=
  s.upCmd (fun c => { c with fns := amod c.fns fn {} f })

/-- Changes a queue pair that exists. -/
def State.upQp (s : State) (k : Nat) (f : QPair → QPair) : State :=
  s.upCmd (fun c => { c with qps := aupd c.qps k f })

/-- Depth of a submission queue. -/
def QPair.sqSize (q : QPair) : Nat := 2 ^ q.sqLog2

/-- Entries of a completion queue. -/
def QPair.cqSize (q : QPair) : Nat := 2 ^ q.cqLog2

/-- BAR0 offset of CMD_STAT as a trace record names it (Table 3.14). -/
def cmdStatOff : Nat := 0x00300010

/-- Moves a queue pair to ERROR; the first such event is captured in CMD_QERR (R65, Table 3.17). -/
def State.qpError (s : State) (fn qp reason : Nat) : State :=
  let t := s.upQp (qpKey fn qp) (fun q => { q with err := true })
  if (s.fnCmd fn).qerr then t
  else t.flag 1 cmdStatOff 1 (fun u => u.upFn fn (fun f => { f with qerr := true, qerrQp := qp, qerrReason := reason }))

/-- A 32-byte status reply (Table 3.3). -/
def replyBytes (tag status detail st rflags sqHead qp pos result dtime : Nat) : Bytes :=
  leBytes 4 tag ++ leBytes 2 status ++ leBytes 2 detail ++ [BitVec.ofNat 8 st, BitVec.ofNat 8 rflags] ++
    leBytes 2 sqHead ++ leBytes 2 qp ++ leBytes 2 0 ++ leBytes 8 pos ++ leBytes 4 result ++ leBytes 4 dtime

/-- What a reply says. -/
structure Rep where
  status : Nat := 0
  detail : Nat := 0
  result : Nat := 0
  st : Nat := 1
  sqHead : Nat := 0
  replayed : Bool := false
  ovf : Bool := false
  /-- Member replies that follow a reply over the management network or to a head. -/
  records : Bytes := []
  /-- Its queue pair has been deleted with its function's interface (R73). -/
  mute : Bool := false
deriving DecidableEq, Repr

/-- DTIME_US: device time in µs, low 32 bits; 0 in a reply to a version 1 command (R72). -/
def State.dtime (s : State) (h : Hdr) : Nat := if h.version = 1 then 0 else s.now / 1000 % 2 ^ 32

/-- The bytes of a reply with a phase bit. -/
def State.repBytes (s : State) (h : Hdr) (r : Rep) (phase : Bool) : Bytes :=
  replyBytes h.hostTag r.status (r.detail % 65536) r.st (b2n phase + 2 * b2n r.ovf + 4 * b2n r.replayed) r.sqHead
    h.chan.qp s.cuePos (r.result % 2 ^ 32) (s.dtime h)

/-- Writes one reply where its command came from (R67, R73, R150, R496); a deleted queue pair receives none, and a write that returns a
PCIe error moves the queue pair to ERROR (R65). -/
def State.putReply (s : State) (h : Hdr) (opcode : Nat) (r : Rep) : State :=
  let note := fun (t : State) (fn : Nat) => t.note h.unit 0x0003 fn (opcode + 65536 * h.hostTag) r.status
  match h.chan with
  | .host fn qp =>
    match aget s.cmd.qps (qpKey fn qp) with
    | none => s
    | some q =>
      if r.mute then s
      else if !h.cqOk then (s.upQp (qpKey fn qp) (fun q => { q with resv := q.resv - 1 })).qpError fn qp 5
      else
      let b := s.repBytes h r q.phase
      let t := (s.emit .reply fn qp q.cqTail b).hostWrite fn (q.cqBase + 32 * q.cqTail) b
      let u := t.upQp (qpKey fn qp) (fun q =>
        { q with cqTail := (q.cqTail + 1) % q.cqSize, phase := if q.cqTail + 1 = q.cqSize then !q.phase else q.phase,
                 resv := q.resv - 1, unread := q.unread + 1 })
      note (((u.ao 17 1).fnCtr fn 0 1).vecEvent fn q.vector) fn
  | .mgmt sess =>
    if !(s.sm.sess.any (fun x => x.id == sess)) then s
    else
    let t := (s.emit .mgmtReply sess 2 0 (s.repBytes h r false ++ r.records)).upSm (fun m =>
      { m with sess := lupd m.sess (fun x => x.id == sess) (fun x => { x with outstanding := x.outstanding - 1 }) })
    note (t.ao 17 1) 0
  | .head peer fwd _ _ _ _ =>
    let b := leBytes 8 fwd ++ s.repBytes h { r with ovf := false } false ++ leBytes 2 (r.records.length / 64) ++
      [BitVec.ofNat 8 (b2n r.ovf)] ++ zeros 21 ++ r.records
    let t := match s.member peer with
      | some m =>
        let seq := m.rplySeq % 2 ^ 64 + 1
        (s.upMember peer (fun x => { x with rplySeq := seq })).mboxWrite m (.reply fwd) 0x11000 4096 16 seq b
      | none => s
    note (t.ao 17 1) 0

/-- Whether a fetched command is to be answered on a queue pair. -/
def FetchedCmd.ofQp (f : FetchedCmd) (k : Nat) : Bool := !f.mute && f.hdr.onQp k

/-- Whether a waiting command is to be answered on a queue pair. -/
def WaitCmd.ofQp (w : WaitCmd) (k : Nat) : Bool := !w.mute && w.hdr.onQp k

/-- Whether a forwarded command is to be answered on a queue pair. -/
def Fanout.ofQp (f : Fanout) (k : Nat) : Bool := !f.mute && f.hdr.onQp k

/-- Commands of a queue pair that have been fetched and not yet answered, those forwarded to a troupe among them (R68, R98). -/
def State.unanswered (s : State) (k : Nat) : Nat :=
  (s.cmd.fetched.filter (fun f => f.ofQp k)).length + (s.cmd.waiting.filter (fun w => w.ofQp k)).length +
    (s.cmd.fanouts.filter (fun f => f.ofQp k)).length

/-- A DELETE_QUEUE_PAIR whose queue pair has no other unanswered command (R98). -/
def State.deletable (s : State) (w : WaitCmd) : Bool :=
  w.opcode == 0x0005 && decide (s.unanswered w.aux ≤ if w.ofQp w.aux then 1 else 0)

/-- Completes the DELETE_QUEUE_PAIR commands that wait no longer (R98). -/
def State.settleDeletes : Nat → State → State
  | 0, s => s
  | n + 1, s =>
    match s.cmd.waiting.find? s.deletable with
    | none => s
    | some w =>
      let t := s.upCmd (fun c => { c with waiting := c.waiting.filter (fun x => x != w) })
      let u := t.putReply w.hdr w.opcode { st := w.stateCode, sqHead := w.sqHead, replayed := w.replayed, mute := w.mute }
      State.settleDeletes n (u.upCmd (fun c => { c with qps := adel c.qps w.aux }))

/-- Writes a reply, and completes the commands that waited for it (R98). -/
def State.reply (s : State) (h : Hdr) (opcode : Nat) (r : Rep) : State :=
  let t := s.putReply h opcode r
  t.settleDeletes t.cmd.waiting.length

/-! ## Counter snapshots (R507, R508) -/

/-- A snapshot half (Table 19.4); `tap` is the Tapestry group, empty for other commands. -/
def State.snapHalf (s : State) (h : Hdr) (opcode entry : Nat) (tap : Bytes) : Bytes :=
  leBytes 8 s.cuePos ++ leBytes 8 s.now ++ leBytes 4 h.hostTag ++ leBytes 2 opcode ++ leBytes 2 h.chan.qp ++
    leBytes 4 entry ++ zeros 36 ++ padTo 64 tap ++
    ((List.range 8).flatMap (fun n => leBytes 8 (agetD s.obs.fn (h.chan.fn * 16 + n) 0))) ++ zeros 64

/-- Reserves a snapshot entry and latches its start half: (address, ENTRY, offset), or none when it is lost (R508). -/
def State.snapBegin (s : State) (h : Hdr) (opcode : Nat) (tap : Bytes) : Option (Nat × Nat × Nat) × State :=
  let fn := h.chan.fn
  match aget s.obs.snaps fn with
  | none => (none, s.fnCtr fn 15 1)
  | some a =>
    if 2 ^ a.log2 ≤ a.count then (none, s.fnCtr fn 15 1)
    else
      let e := agetD s.obs.snapNo fn 0
      let addr := a.base + 512 * a.tail
      let t := s.hostWrite fn addr (s.snapHalf h opcode e tap)
      (some (addr, e, 512 * a.tail),
        t.upObs (fun o => { o with snaps := aset o.snaps fn { a with tail := (a.tail + 1) % 2 ^ a.log2, count := a.count + 1 },
                                   snapNo := aset o.snapNo fn ((e + 1) % 2 ^ 32) }))

/-- Writes the end half of a snapshot entry (R508). -/
def State.snapEnd (s : State) (h : Hdr) (opcode : Nat) (e : Nat × Nat × Nat) (tap : Bytes) : State :=
  s.hostWrite h.chan.fn (e.1 + 256) (s.snapHalf h opcode e.2.1 tap)

/-- RESULT of a command with a snapshot (Table 3.3). -/
def snapResult (h : Hdr) (e : Option (Nat × Nat × Nat)) (result : Nat) : Nat :=
  if h.snapshot then (match e with | some x => x.2.2 | none => 0xFFFFFFFF) else result

/-! ## The order of checks (R76) -/

/-- Whether the running image grants a feature; without an image, BASE alone is granted (R396, R497). -/
def State.granted (s : State) (f : Nat) : Bool := if s.stg.image.isSome then s.stg.grant.testBit f else f == 0

/-- The negotiated protocol versions; without an image those of CMD_CAP (R72, R497). -/
def State.versions (s : State) : Nat × Nat := if s.stg.image.isSome then (s.stg.grantMin, s.stg.grantMax) else (1, 2)

/-- The features that a command needs (Table 14.3). -/
def OpSpec.needs (sp : OpSpec) (h : Hdr) (p : Bytes) : List Nat :=
  [0] ++ (if h.pathLen ≠ 0 then [1] else []) ++ (if sp.code / 256 = 0x0A then [3] else []) ++
    (if sp.code / 256 = 0x0D ∨ h.fromVf then [4] else []) ++ (if h.hasCrc then [7] else []) ++
    (if h.snapshot then [10] else []) ++ sp.feats p

/-- Header fields judged at step 4, with whether each is admitted (Table 3.1, R12, R72, R74, R79, R496). A PATH entry beyond PATH_LEN is a
field of its own, at its own offset (log entry 66). -/
def OpSpec.hdrFields (sp : OpSpec) (h : Hdr) : List (Nat × Bool) :=
  let v1 := h.version == 1
  let m := h.chan.isMgmt
  [(2, decide (h.flags / 32 = 0) && !(v1 && decide (h.flags / 8 ≠ 0)) && !(sp.result && h.snapshot) && !(m && h.ptr) && !(sp.needPtr && !h.ptr)),
   (4, !(sp.code == 0x0001 && h.session != 0)),
   (12, decide (h.pathLen ≤ 8) && !(v1 && h.pathLen != 0)),
   (14, h.rsv == 0)] ++
  (List.range 8).map (fun i =>
    (16 + 2 * i, !((decide (h.pathLen ≤ i) || v1) && h.path.getD i 0 != 0))) ++
  [(36, h.paramLen % 8 == 0 && decide (h.paramLen ≤ if h.ptr then 1048576 else 4096)),
   (40, if h.ptr then h.paramPtr % 8 == 0 else h.paramPtr == 0),
   (48, h.memberBuf % 64 == 0 && !(v1 && h.memberBuf != 0) && !(m && h.memberBuf != 0)),
   (56, h.memberLen % 64 == 0 && !(v1 && h.memberLen != 0) && !(m && h.memberLen != 0)),
   (60, h.hasCrc || h.crc == 0)]

/-- Offset of the first field that is not admitted. -/
def firstBad (l : List (Nat × Bool)) : Option Nat := (l.find? (fun e => !e.2)).map (fun e => e.1)

/-- Step 4 for the parameters: their length, then each field within the values its table gives it. Parameters shorter than the opcode's
record are at fault at PARAM_LEN, and longer ones are accepted (log entry 66). -/
def OpSpec.step4 (sp : OpSpec) (s : State) (h : Hdr) (p : Bytes) : Option Nat :=
  let short := decide (p.length < sp.len p) || decide (h.paramLen < sp.len p)
  match firstBad (sp.hdrFields h) with
  | some o => some (if short then min o 36 else o)
  | none =>
    if short then some 36
    else
      match firstBad (sp.fields s p), firstBad (sp.hfields h p) with
      | some a, some b => some (64 + min a b)
      | some a, none => some (64 + a)
      | none, b => b.map (fun o => 64 + o)

/-- The open session that a header names. -/
def State.sessionOf (s : State) (h : Hdr) : Option Session :=
  match h.chan with
  | .host fn _ => s.cmd.sessions.find? (fun x => x.fn == fn && x.handle == h.session)
  | .mgmt sess => s.cmd.sessions.find? (fun x => x.fn == 256 && x.handle == h.session && x.spdm == sess)
  | .head _ _ role origin _ _ => some { fn := 257, handle := origin, role := role }

/-- Step 5: who sends a command, or none for NO_SESSION (R79). -/
def OpSpec.caller (sp : OpSpec) (s : State) (h : Hdr) : Option Caller :=
  let obj := if h.chan.fn < 256 then h.chan.fn else 0
  let anon : Caller := { role := .tenant, fn := obj, hfn := h.chan.fn, handle := 0 }
  if sp.code = 0x0001 ∨ (sp.code = 0x0000 ∧ h.session = 0) then some anon
  else (s.sessionOf h).map (fun x => { role := x.role, fn := obj, hfn := x.fn, handle := x.handle })

/-- Whether a unit is one that a tenant of a function may name: the device, its own storage controller, its latches
and the warps of its jobs (R84, log entry 12). -/
def State.tenantUnit (s : State) (fn u : Nat) : Bool :=
  match uClass u with
  | 0 => true
  | 3 =>
    uSub u != 0 && s.loom.jobs.any (fun e => e.2.owner == fn && e.2.warps.any (fun w => w.num + 1 == uSub u))
  | 9 => uInst u == fn
  | 11 => uSub u != 0 && (agetD s.lat.cells (512 * uInst u + (uSub u - 1)) {}).owner == fn
  | _ => false

/-- Whether a unit ID names a warp of a job that another function opened (R275). -/
def State.foreignWarp (s : State) (fn u : Nat) : Bool :=
  uClass u == 3 && uSub u != 0 && s.loom.jobs.any (fun e => e.2.owner != fn && e.2.warps.any (fun w => w.num + 1 == uSub u))

/-- Step 6: the DETAIL of AUTH_FAILED, if any (R84, R86, R275); a command without a session has no authority to judge. -/
def OpSpec.step6 (sp : OpSpec) (s : State) (c : Caller) (h : Hdr) (p : Bytes) : Option Nat :=
  if (sp.code = 0x0000 ∧ h.session = 0) ∨ sp.code = 0x0001 then sp.auth c h p s
  else
    let least := (sp.roleFor h).getD sp.role
    if c.tenant && !(sp.onScope && !isScope h.unit) && !s.tenantUnit c.fn h.unit then some 4
    else if h.pathLen == 0 && s.foreignWarp c.fn h.unit then some 4
    else if c.role.rank < least.rank then some 3
    else if c.tenant && h.pathLen != 0 then some 3
    else sp.auth c h p s

/-- Whether a path's first entry names a present member of the troupe this device heads (R24). -/
def State.pathOk (s : State) (h : Hdr) : Bool :=
  let m := h.path.getD 0 0
  m != 0 && (if m = 0xFFFF then s.net.members.any (fun x => x.live && !x.isHead)
             else s.net.members.any (fun x => x.live && !x.isHead && x.id == m))

/-- Whether a command of the management side finds no firmware that serves it; the stage manager does not answer it itself (R497). -/
def State.unserved (s : State) (sp : OpSpec) (h : Hdr) : Bool := h.chan.isMgmt && !(s.live && s.stg.image.isSome) && !sp.noFw

/-- What the checks of steps 1 to 8 find: the caller, or the status, DETAIL and STATE of the first that fails. -/
def OpSpec.check (sp : OpSpec) (s : State) (h : Hdr) (p : Bytes) (st : Nat) : Except (Nat × Nat × Nat) Caller :=
  let body := if h.ptr then [] else p
  if (h.ptr && !h.readOk) || (h.hasCrc && crc32c (h.bytes sp.code ++ body) != h.crc) then .error (sIntegrity, 0, st)
  else if !(s.unserved sp h) && (decide (h.version < s.versions.1) || decide (s.versions.2 < h.version)) then .error (sNotNeg, 1, st)
  else if !(s.unserved sp h) && !(sp.needs h p).all s.granted then .error (sNotNeg, 2, st)
  else if sp.defined = false ∨ (h.version = 1 ∧ sp.v1 = false) then .error (sBadOpcode, 0, st)
  else match sp.step4 s h p with
    | some o => .error (sBadParam, o, st)
    | none =>
      match sp.caller s h with
      | none => .error (sNoSession, 0, st)
      | some c =>
        match sp.step6 s c h p with
        | some d => .error (sAuth, d, st)
        | none =>
          if h.pathLen ≠ 0 then (if s.pathOk h then .ok c else .error (sBadParam, 16, st))
          else if !(s.unitValid h.unit && sp.unitOk h s) then .error (sBadParam, 32, st)
          else if s.allFenced h.unit && !sp.fenceOk then .error (sFenced, 0, if sp.code / 256 = 0x01 then st else 9)
          else if s.unserved sp h then
            .error (sBadState, 0, if s.stg.status = 1 then 0x13 else 0)
          else .ok c

/-! ## Forwarding (R94, R149, R150) -/

/-- A path one level on, for the member that was resolved (Table 5.30). -/
def shiftPath (p : List Nat) : List Nat := p.drop 1 ++ [0]

/-- The command-mailbox entry of a forwarded command (Table 5.30), without its sequence word; `addr` and `rkey` name the
copy of pointer parameters. -/
def fwdEntry (h : Hdr) (opcode id hops : Nat) (c : Caller) (fan : Bool) (p : Bytes) (addr rkey : Nat) : Bytes :=
  let g : Hdr := { h with session := 0, flags := h.flags / 2 * 2, pathLen := h.pathLen - 1, path := shiftPath h.path,
                          paramPtr := 0, memberBuf := 0, memberLen := 0 }
  let crc := if h.hasCrc then crc32c (g.bytes opcode ++ (if h.ptr then [] else p)) else 0
  g.bytes opcode ++ leBytes 4 crc ++ leBytes 8 id ++
    [(if c.role = .operator then 0 else 1), BitVec.ofNat 8 (b2n h.ptr + 2 * b2n fan), BitVec.ofNat 8 hops, 0] ++
    leBytes 4 c.handle ++ leBytes 8 addr ++ leBytes 4 rkey ++ leBytes 4 0 ++ padTo 4096 (if h.ptr then [] else p)

/-- The members that a path's first entry reaches. -/
def State.pathMembers (s : State) (h : Hdr) : List Nat :=
  let present := s.net.members.filter (fun x => x.live && !x.isHead)
  if h.path.getD 0 0 = 0xFFFF then present.map (fun x => x.id) else [h.path.getD 0 0]

/-- CMD_TROUPE.TIMEOUT_MS in ns; 0 acts as 1 (Table 3.17). -/
def State.troupeNs (s : State) : Nat := max 1 s.cmd.troupeMs * 1000000

/-- Whether a member reply of a fan-out arrived. -/
def FwdReply.arrived (r : FwdReply) : Bool := !r.rep.isEmpty

/-- STATUS of a member reply; no reply counts as TROUPE_PARTIAL (R95). -/
def FwdReply.status (r : FwdReply) : Nat := if r.arrived then fld r.rep 4 2 else sPartial

/-- The 64-byte record of a member reply (Table 3.12). -/
def FwdReply.record (r : FwdReply) (tag : Nat) : Bytes :=
  padTo 16 (r.path.flatMap (leBytes 2)) ++
    (if r.arrived then padTo 32 r.rep else replyBytes tag sPartial 0xFFFF 0 0 0 0 0 0 0) ++ zeros 16

/-- STATUS and DETAIL of an aggregated reply (R94, R75). DESIGN CHOICE (log entry 66): DETAIL of an aggregated OK is 0; the counts of skipped
units that members put into theirs are not added up. -/
def aggregate (l : List FwdReply) : Nat × Nat :=
  let bad := (l.filter (fun r => r.status != sOk)).length
  let heard := l.filter FwdReply.arrived
  if bad = 0 then (sOk, 0)
  else match heard with
    | [] => (sPartial, bad)
    | f :: t =>
      if f.status ≠ sOk ∧ t.all (fun r => r.status == f.status) then (f.status, fld f.rep 6 2) else (sPartial, bad)

/-- STATE of an aggregated reply (R77, R94): the highest of the members' that are not fenced. -/
def aggregateState (l : List FwdReply) : Nat :=
  let codes := (l.filter FwdReply.arrived).map (fun r => fld r.rep 8 1)
  let up := codes.filter (fun c => c != 9)
  if up.isEmpty then (if codes.isEmpty then 0 else 9) else maxCode up

/-- Records that fit: in MEMBER_BUF_LEN on the host port, 64 over the management network, 62 to a head (R95, R150,
R496). -/
def recordRoom (h : Hdr) : Nat :=
  match h.chan with
  | .host _ _ => if h.memberBuf = 0 then 0 else h.memberLen / 64
  | .mgmt _ => 64
  | .head _ _ _ _ _ _ => 62

/-- A forwarded command no longer waits: its place and the copy of its pointer parameters are given up, the copy overwritten (R94, R149,
R171). -/
def State.fanoutDrop (s : State) (f : Fanout) : State :=
  let t := s.upCmd (fun c => { c with fanouts := c.fanouts.filter (fun x => x.id != f.id) })
  if f.rkey = 0 then t else (t.regionDel f.rkey).gClear f.base f.hdr.paramLen

/-- Writes the aggregated reply of a command that was forwarded (R94, R95). One that names a single member carries that member's reply,
and TROUPE_PARTIAL with DETAIL 1 when none arrived (log entry 67). -/
def State.endFanout (s : State) (f : Fanout) : State :=
  let t := s.fanoutDrop f
  if !f.fan then
    let b := (f.replies.getD 0 {}).rep
    t.reply f.hdr f.opcode
      (if b.isEmpty then { status := sPartial, detail := 1, st := 0, sqHead := f.sqHead, replayed := f.replayed, mute := f.mute }
       else { status := fld b 4 2, detail := fld b 6 2, st := fld b 8 1, result := fld b 24 4, sqHead := f.sqHead, replayed := f.replayed,
              mute := f.mute })
  else
    let room := recordRoom f.hdr
    let wants := match f.hdr.chan with
      | .host _ _ => f.hdr.memberBuf != 0
      | _ => true
    let recs := (f.replies.take room).map (fun r => r.record f.hdr.hostTag)
    let a := aggregate f.replies
    let u := match f.hdr.chan with
      | .host fn _ =>
        if wants && !recs.isEmpty then t.hostWrite fn f.hdr.memberBuf recs.flatten else t
      | _ => t
    u.reply f.hdr f.opcode
      { status := a.1, detail := a.2, st := aggregateState f.replies, result := recs.length, sqHead := f.sqHead,
        ovf := f.ovf || (wants && decide (room < f.replies.length)), records := recs.flatten, replayed := f.replayed, mute := f.mute }

/-- Where the stagehand's replay area holds the pointer parameters of a command, by its latest journal entry (R149, R398). -/
def State.replayAddr (s : State) (h : Hdr) : Nat :=
  match s.cmd.entries.reverse.find? (fun e => e.hdr == h) with
  | some e => s.replayBase e.home + e.off
  | none => s.replayBase 0

/-- Forwards a command to the members it names; the reply waits for theirs (R94). A member that is unreachable gets its
record at once (R151). -/
def State.forward (s : State) (opcode : Nat) (c : Caller) (x : FetchedCmd) (st : Nat) : State :=
  let h := x.hdr
  let p := x.params
  let id := s.cmd.nextFwd
  let ms := s.pathMembers h
  let up := ms.filter (fun m => s.net.members.any (fun x => x.id == m && x.reached && x.live))
  let lost := ms.filter (fun m => !up.contains m)
  let base := s.replayAddr h
  let reg : Option (Nat × State) := if h.ptr then s.regionAdd { base := base, len := p.length, read := true, owner := .troupe 0 } else none
  let s1 := match reg with
    | some (_, u) => u.gWrite base p
    | none => s
  let rkey := match reg with
    | some (k, _) => k
    | none => 0
  let f : Fanout :=
    { id := id, opcode := opcode, hdr := h, fan := h.wantsRecords, members := up, by_ := s.now + s.troupeNs, stateCode := st,
      sqHead := x.sqHead, replayed := x.replayed, mute := x.mute, rkey := rkey, base := base, replies := lost.map (fun m => { path := [m] }) }
  let t := s1.upCmd (fun k => { k with nextFwd := (id + 1) % 2 ^ 64, fanouts := k.fanouts ++ [f] })
  let hops := match h.chan with
    | .head _ _ _ _ _ k => k + 1
    | _ => 0
  if up.isEmpty then t.endFanout f
  else
    let e := fwdEntry h opcode id hops c h.wantsRecords p (if rkey = 0 then 0 else base) rkey
    up.foldl (fun u m => (u.upMember m (fun x => { x with queue := x.queue ++ [(id, e)] })).fwdKick m) t

/-! ## Running a command -/

/-- STATE judged for a command when it is checked (R77). DESIGN CHOICE (log entry 66): a UNIT_ID that names no unit of this device has no state,
and STATE is 0. -/
def State.judge (s : State) (opcode unit : Nat) : Nat :=
  if opcode / 256 = 0x01 then s.cue.st.code
  else if s.unitValid unit && (s.live || uClass unit == 0) then s.unitState unit else 0

/-- DETAIL of an OK reply: what the opcode says, or the fenced members skipped (R75). -/
def State.okDetail (s : State) (unit status detail : Nat) : Nat :=
  if status = sOk ∧ detail = 0 ∧ s.unitValid unit then s.fencedSkipped unit else detail

/-- Counts a command that failed a check on its function's error counter (R76). -/
def State.countErr (s : State) (fn : Nat) : State := s.upFn fn (fun f => { f with errs := f.errs + 1 })

/-- Carries out a command that passed steps 1 to 8. -/
def State.carry (s : State) (sp : OpSpec) (c : Caller) (h : Hdr) (p : Bytes) (r : Rep) : State :=
  match sp.run c h p s with
  | .refuse status detail => (s.countErr h.chan.fn).reply h sp.code { r with status := status, detail := detail }
  | .refuseAt status detail st =>
    (s.countErr h.chan.fn).reply h sp.code { r with status := status, detail := detail, st := st }
  | _ =>
    let b := if h.snapshot && !sp.ownSnap then s.snapBegin h sp.code [] else (none, s)
    let fin := fun (t : State) (status detail result st : Nat) =>
      let u := match b.1 with
        | some e => t.snapEnd h sp.code e []
        | none => t
      u.reply h sp.code { r with status := status, detail := s.okDetail h.unit status detail, st := st,
                                 result := snapResult h b.1 result }
    match sp.run c h p b.2 with
    | .done status detail result t => fin t status detail result r.st
    | .doneAs status detail result st t => fin t status detail result st
    | .wait kind aux t =>
      t.upCmd (fun k => { k with waiting := k.waiting ++
        [{ opcode := sp.code, hdr := h, kind := kind, aux := aux, params := p, sqHead := r.sqHead, stateCode := r.st,
           snap := b.1, replayed := r.replayed, mute := r.mute }] })
    | _ => b.2

/-- Holds a command as work of a scope, in its place before the commands of its queue pair that have not started (R68, R88). -/
def State.hold (s : State) (f : FetchedCmd) : State :=
  let later := fun (x : FetchedCmd) =>
    x.held.isNone && (match f.hdr.chan with
      | .host fn qp => !f.mute && x.ofQp (qpKey fn qp)
      | _ => false)
  s.upCmd (fun k => { k with fetched := k.fetched.takeWhile (fun x => !later x) ++ [f] ++ k.fetched.dropWhile (fun x => !later x) })

/-- Starts a command (R76, R88): checks it, forwards it, holds it as work of a scope, or carries it out. Held work of the scope that came
before it goes first. -/
def State.start (s : State) (sp : OpSpec) (f : FetchedCmd) : State :=
  let h := f.hdr
  let s1 := s.note h.unit 0x0002 (if h.chan.fn < 256 then h.chan.fn else 0) (sp.code + 65536 * h.hostTag) 0
  let st := s1.judge sp.code h.unit
  let r : Rep := { st := st, sqHead := f.sqHead, replayed := f.replayed, mute := f.mute }
  match sp.check s1 h f.params st with
  | .error (status, detail, st') =>
    let s2 := if status = sAuth then sp.authFail h detail s1 else s1
    (s2.countErr h.chan.fn).reply h sp.code { r with status := status, detail := detail, st := st' }
  | .ok c =>
    if h.pathLen ≠ 0 then s1.forward sp.code c f st
    else
      match sp.dataScope with
      | some sc =>
        if s1.held sc || s1.cmd.fetched.any (fun x => x.held == some sc) then s1.hold { f with held := some sc, caller := c }
        else s1.carry sp c h f.params r
      | none => s1.carry sp c h f.params r

/-- Goes on with a command: one that was held has passed its checks (R83, R88), any other starts. -/
def State.proceed (s : State) (sp : OpSpec) (f : FetchedCmd) : State :=
  let t := s.upCmd (fun c => { c with fetched := c.fetched.filter (fun x => x != f) })
  if f.held.isSome then
    t.carry sp f.caller f.hdr f.params { st := t.judge sp.code f.hdr.unit, sqHead := f.sqHead, replayed := f.replayed, mute := f.mute }
  else t.start sp f

/-- Whether a stagehand serves its queue pairs: in service, not restarting, and not quiesced by a handover (R400,
R405). -/
def State.handServes (s : State) (n : Nat) : Bool :=
  let g := agetD s.stg.hands n {}
  !s.handFenced n && !g.restarting &&
    (match s.stg.handover with
     | some h => h.stage == 0 || h.stage == 3
     | none => true)

/-- The journal entries of commands not yet answered (R397). -/
def State.liveEntries (s : State) : List JEntry :=
  s.cmd.entries.filter (fun e =>
    s.cmd.fetched.any (fun f => f.hdr == e.hdr) || s.cmd.waiting.any (fun w => w.hdr == e.hdr) || s.cmd.fanouts.any (fun x => x.hdr == e.hdr))

/-- The live entries of a stagehand. -/
def State.journal (s : State) (home : Nat) : List JEntry := s.liveEntries.filter (fun e => e.home == home)

/-- Bytes of the replay area that an entry takes (R398). -/
def JEntry.bytes (e : JEntry) : Nat := if e.hdr.ptr then e.hdr.paramLen else 0

/-- The first free place for parameters in the replay area of a journal, if they fit (R398). -/
def replayGap (l : List JEntry) (n : Nat) : Option Nat :=
  ((0 :: l.map (fun e => e.off + e.bytes)).mergeSort (fun a b => decide (a ≤ b))).find? (fun a =>
    decide (a + n ≤ replayLen) && l.all (fun e => e.bytes == 0 || decide (a + n ≤ e.off) || decide (e.off + e.bytes ≤ a)))

/-- The first free slot of a journal (R397). -/
def journalSlot (l : List JEntry) : Nat := ((List.range 512).find? (fun k => !(l.any (fun e => e.slot == k)))).getD 0

/-- Puts an entry into the journal of a stagehand, in a free slot and with a free place for its parameters. -/
def journalPut (l : List JEntry) (home : Nat) (e : JEntry) : List JEntry :=
  let mine := l.filter (fun x => x.home == home)
  l ++ [{ e with home := home, slot := journalSlot mine, off := (replayGap mine e.bytes).getD 0 }]

/-- Whether a function's command interface is served: enabled, not in reset and not frozen (R457, R467). -/
def State.fnServed (s : State) (fn : Nat) : Bool :=
  s.fnEnabled fn && !s.inFlr fn && (fn == 0 || (let st := (agetD s.host.vfs fn {}).st; st == 1 || st == 2))

/-- A READY VF becomes RUNNING at its first OPEN_SESSION or Create I/O queue (Table 17.8). -/
def State.vfRuns (s : State) (fn : Nat) : State :=
  s.upHost (fun h => { h with vfs := aupd h.vfs fn (fun v => if v.st = 1 then { v with st := 2 } else v) })

/-- Whether SQ_TAIL covers every slot of a command (R63). -/
def QPair.covers (q : QPair) (h : Hdr) : Bool := decide (h.slots ≤ (q.tail + q.sqSize - q.head) % q.sqSize)

/-- Whether a queue pair has a command that could be fetched: its queue is not empty and its completion queue not full (R65, R66). One whose
last command was found not wholly covered by SQ_TAIL waits for the doorbell (R63). -/
def State.pairWaits (s : State) (e : Nat × QPair) : Bool :=
  e.2.head != e.2.tail && !e.2.part && !e.2.err && s.fnServed (e.1 / 65536) && decide (e.2.resv + e.2.unread < e.2.cqSize)

/-- Whether a queue pair of `prio` on the stagehand `home` must let another go first: urgent ones take precedence over all others, and four
commands of normal ones go to one of background ones (R561). -/
def State.outranked (s : State) (home prio : Nat) : Bool :=
  let rival := fun (p : Nat) => s.cmd.qps.any (fun e => e.2.home == home && e.2.prio == p && s.pairWaits e)
  let four := decide (4 ≤ agetD s.cmd.turns home 0)
  match prio with
  | 0 => false
  | 1 => rival 0 || (four && rival 2)
  | _ => rival 0 || (!four && rival 1)

/-- The turns of a stagehand's queue pairs after one of `prio` has been served (R561). -/
def turnsAfter (turns : List (Nat × Nat)) (home prio : Nat) : List (Nat × Nat) :=
  match prio with
  | 0 => turns
  | 1 => amod turns home 0 (fun n => min 4 (n + 1))
  | _ => aset turns home 0

/-- Whether the DXL9 can fetch a command from its queue pair now (R63, R65, R66, R97, R397, R398, R561). -/
def State.canFetch (s : State) (fn : Nat) (q : QPair) (h : Hdr) : Bool :=
  s.live && s.stg.image.isSome && s.fnServed fn && !q.err && s.handServes q.home && q.covers h &&
    decide (q.resv + q.unread < q.cqSize) && !(s.outranked q.home q.prio) && decide ((s.journal q.home).length < 512) &&
    (!h.ptr || (replayGap (s.journal q.home) h.paramLen).isSome)

/-- Whether a command fetched from a queue pair may start now: behind a command not yet started, or fenced behind
one not yet answered, it may not (R68). -/
def State.mayStart (s : State) (k : Nat) (h : Hdr) : Bool :=
  !(s.cmd.fetched.any (fun f => f.ofQp k && f.held.isNone)) && !(h.fence && decide (0 < s.unanswered k))

/-- Whether a fetched command is the one of a header, opcode and parameters. -/
def FetchedCmd.isCmd (f : FetchedCmd) (opcode : Nat) (h : Hdr) (p : Bytes) : Bool :=
  f.opcode == opcode && f.hdr == h && f.params == p

/-- Reads the slots of a command at the head of its submission queue. -/
def State.readSlots (s : State) (fn qp : Nat) (h : Hdr) : State :=
  let q := agetD s.cmd.qps (qpKey fn qp) {}
  s.hostRead fn (q.sqBase + 64 * q.head) (64 * h.slots)

/-- Fetches the slots of a command: the head moves, a completion entry is reserved, the stagehand has served a pair of its priority, and its
journal holds an entry (R63, R66, R397, R561). -/
def State.fetchSlots (s : State) (fn qp : Nat) (h : Hdr) (opcode : Nat) : State :=
  let q := agetD s.cmd.qps (qpKey fn qp) {}
  let e : JEntry := { opcode := opcode, hdr := h, sqSlot := q.head }
  let t := ((s.readSlots fn qp h).upCmd (fun c =>
    { c with turns := turnsAfter c.turns q.home q.prio, entries := journalPut s.liveEntries q.home e })).upQp (qpKey fn qp) (fun q =>
    { q with head := (q.head + h.slots) % q.sqSize, resv := q.resv + 1, part := false })
  let u := if h.ptr then t.hostRead fn h.paramPtr h.paramLen else t
  u.note h.unit 0x0001 fn (opcode + 65536 * h.hostTag) 0

/-- Whether a fetched command may go on. One that is held waits for its scope, and for held work of that scope before it; any other for
those of its queue pair before it that have not started, and a fenced one for every earlier answer (R68, R88). -/
def State.mayResume (s : State) (k : Nat) (f : FetchedCmd) : Bool :=
  let before := s.cmd.fetched.takeWhile (fun x => x != f)
  match f.held with
  | some sc => !s.held sc && !(before.any (fun x => x.held == some sc))
  | none =>
    !(before.any (fun x => x.ofQp k && x.held.isNone)) &&
      !(f.hdr.fence && (before.any (fun x => x.ofQp k) || s.cmd.waiting.any (fun w => w.ofQp k) || s.cmd.fanouts.any (fun x => x.ofQp k)))

/-- Whether a handover has stopped the stagehands, so that no command starts (Table 14.5). -/
def State.handsQuiet (s : State) : Bool := s.stg.handover.any (fun h => h.stage != 0 && h.stage != 3)

/-- A command over the management network: of a live session with fewer than 16 outstanding (R496). One that was held as work of a scope
starts when it comes again (R88). -/
def State.mgmtTake (s : State) (sp : OpSpec) (h : Hdr) (p : Bytes) (sess : Nat) : State :=
  match s.cmd.fetched.find? (fun f => f.isCmd sp.code h p) with
  | some f =>
    if s.live && s.sm.running && s.mayResume 0 f && !s.handsQuiet then
      s.proceed sp f
    else s
  | none =>
    if s.sm.running && s.sm.sess.any (fun x => x.id == sess && x.live && decide (x.outstanding < 16)) then
      let t := s.upSm (fun m => { m with sess := lupd m.sess (fun x => x.id == sess) (fun x => { x with outstanding := x.outstanding + 1 }) })
      let f : FetchedCmd := { opcode := sp.code, hdr := h, params := p }
      if s.handsQuiet && !sp.noFw then t.upCmd (fun c => { c with fetched := c.fetched ++ [f] }) else t.start sp f
    else s

/-- A command forwarded by the troupe head of a link (R150). -/
def State.headTake (s : State) (sp : OpSpec) (h : Hdr) (p : Bytes) (peer : Nat) : State :=
  if !(s.live && s.stg.image.isSome && s.granted 1 && s.net.members.any (fun m => m.id == peer && m.isHead && m.live)) then s
  else
    match s.cmd.fetched.find? (fun f => f.isCmd sp.code h p) with
    | some f =>
      if s.mayResume 0 f && !s.handsQuiet then s.proceed sp f
      else s
    | none =>
      let f : FetchedCmd := { opcode := sp.code, hdr := h, params := p }
      if s.handsQuiet then s.upCmd (fun c => { c with fetched := c.fetched ++ [f] }) else s.start sp f

/-- The event of a command row: its packet is fetched, checked and carried out. A packet already fetched that waited
starts when this comes again and nothing holds it (log entry 10). A read of the slots that returns a PCIe error moves the queue pair to
ERROR (R65), and a packet that SQ_TAIL does not cover waits for the doorbell (R63). -/
def runPkt (sp : OpSpec) (h : Hdr) (p : Bytes) (s : State) : Res :=
  match h.chan with
  | .host fn qp =>
    let k := qpKey fn qp
    match s.cmd.fetched.find? (fun f => f.isCmd sp.code h p) with
    | some f =>
      if s.live && (f.mute || s.handServes (agetD s.cmd.qps k {}).home) && s.mayResume k f then .next (s.proceed sp f) else .next s
    | none =>
      match aget s.cmd.qps k with
      | none => .next s
      | some q =>
        if s.canFetch fn q h && !(s.cmd.waiting.any (fun w => w.opcode == 0x0005 && w.aux == k)) then
          if !h.sqOk then .next ((s.readSlots fn qp h).qpError fn qp 4)
          else
            let t := s.fetchSlots fn qp h sp.code
            let f : FetchedCmd := { opcode := sp.code, hdr := h, params := p, sqHead := (agetD t.cmd.qps k {}).head }
            if s.mayStart k h then .next (t.start sp f) else .next (t.upCmd (fun c => { c with fetched := c.fetched ++ [f] }))
        else if !(q.covers h) then .next (s.upQp k (fun q => { q with part := true }))
        else .next s
  | .mgmt sess => .next (s.mgmtTake sp h p sess)
  | .head peer _ _ _ _ _ => .next (s.headTake sp h p peer)

/-! ## Deferred replies -/

/-- Completes a waiting command (R399); an OK reply of a group target names the fenced members skipped (R75). -/
def State.finish (s : State) (w : WaitCmd) (status detail result st : Nat) : State :=
  let t := s.upCmd (fun c => { c with waiting := c.waiting.filter (fun x => x != w) })
  let u := match w.snap with
    | some e => t.snapEnd w.hdr w.opcode e []
    | none => t
  u.reply w.hdr w.opcode
    { status := status, detail := s.okDetail w.hdr.unit status detail, result := snapResult w.hdr w.snap result, st := st,
      sqHead := w.sqHead, replayed := w.replayed, mute := w.mute }

/-- Completes every waiting command that a test picks out. -/
def State.finishAll (s : State) (p : WaitCmd → Bool) (status detail result : Nat) : State :=
  (s.cmd.waiting.filter p).foldl (fun t w => t.finish w status detail result w.stateCode) s

/-! ## Settings and intermissions (R87 to R89, R562) -/

/-- Whether a caller holds an intermission. -/
def Inter.heldBy (r : Inter) (c : Caller) : Bool := r.fn == c.hfn && r.handle == c.handle

/-- What stops a setting addressed to a unit: the phase of an intermission that covers it, or another holder; with
`need`, also the absence of one (R88, R562). -/
def State.settingStop (s : State) (c : Caller) (u : Nat) (need : Bool) : Option Verdict :=
  match s.interOf u with
  | none => if need then some badState else none
  | some r =>
    if r.ph ≠ .intermission then some (.refuseAt sBadState 0 r.ph.code)
    else if r.heldBy c then none else some (.refuseAt sBadState 0 4)

/-- Puts a setting in its place among the staged ones; a later setting of the same field replaces the earlier (R88). -/
def stageIn (l : List Staged) (same : Staged → Bool) (x : Staged) : List Staged :=
  if l.any same then l.map (fun y => if same y then x else y) else l ++ [x]

/-- Stages a setting in the intermission that covers its unit, or applies it at once where there is none (R88). -/
def State.setting (s : State) (opcode : Nat) (c : Caller) (h : Hdr) (p : Bytes) (same : Staged → Bool) (result : Nat)
    (apply : State → State) : Verdict :=
  match s.interOf h.unit with
  | none => .done sOk 0 result (apply s)
  | some r =>
    let x : Staged := { opcode := opcode, unit := h.unit, fn := c.fn, params := p }
    .doneAs sOk 0 result 4 (s.upCmd (fun k =>
      { k with inters := lupd k.inters (fun i => i.scope == r.scope) (fun i =>
          { i with staged := stageIn i.staged (fun y => y.opcode == opcode && y.unit == h.unit && same y) x }) }))

end Sys2Proof.Machine
end

