-- ==== Sys2Proof/Machine/Store.lean ====
section
/-!
DEFINITION. Changes of the configuration store (R487 to R489): they wait for the bank that holds them.
-/
namespace Sys2Proof.Machine

open Sys2Proof

/-- Kind of a command that waits for a store change (R489); its number is the change's ticket. -/
def wStore : Nat := 10

/-- The bank that the next write goes to: the one that does not hold the current store; bank 0 when neither was valid (R489, R490). -/
def State.storeTarget (s : State) : Nat := 1 - s.sm.cfgBank

/-- A bank write begins: until it is whole, with its CRC last, the bank is not valid (R487, R489). -/
def State.storeOpen (s : State) : State :=
  s.upFlash (fun f => if s.storeTarget = 0 then { f with cfg0 := none } else { f with cfg1 := none })

/-- Takes a change of the store: it is written with the bank in progress, or with the next (R489). -/
def State.storeAdd (s : State) (item : Nat) (body : Bytes) (cls : Nat) : State :=
  let c : StoreChange := { item := item, body := body, cls := cls, key := s.sm.ticket }
  if s.sm.writing.isEmpty then
    (s.upSm (fun m => { m with writing := [c], wmiss := 0, ticket := m.ticket + 1 })).storeOpen
  else s.upSm (fun m => { m with waiting := m.waiting ++ [c], ticket := m.ticket + 1 })

/-- A command whose effect is a store change: its reply waits for the bank (R489). -/
def State.storeCmd (s : State) (item : Nat) (body : Bytes) (cls : Nat) : Verdict :=
  .wait wStore s.sm.ticket (s.storeAdd item body cls)

/-- The digest under which a role key is stored (R488); 32 zero bytes are never set. -/
def keyDigest (key : Bytes) : Bytes := if key = zeros 32 then [] else sha256 (leBytes 8 Config.serial ++ key)

/-- Whether a presented key is the one stored (R80, R488). -/
def keyMatches (stored key : Bytes) : Bool :=
  if stored.isEmpty then key == zeros 32 else sha256 (leBytes 8 Config.serial ++ key) == stored

end Sys2Proof.Machine
end

