-- ==== Sys2Proof/Machine/Session.lean ====
section
/-!
DEFINITION. Queue pairs, doorbells, sessions and the start of intermissions (chapter 3): the rows from SQ_TAIL_WRITE to
LOCKOUT_EXPIRY, but for INTERMISSION_END, and the replies of troupe members.
-/
namespace Sys2Proof.Machine

open Sys2Proof

/-! ## Doorbells (R64, R65) -/

/-- A BAR4 write of a VF that is FREEZING or FROZEN is latched in its state (Table 17.9). -/
def State.latchBell (s : State) (fn off val : Nat) : State :=
  s.upHost (fun h => { h with vfs := aupd h.vfs fn (fun v => { v with heldBells := aset v.heldBells off val }) })

/-- Whether a VF is FREEZING or FROZEN. -/
def State.vfFrozen (s : State) (fn : Nat) : Bool :=
  fn != 0 && (let st := (agetD s.host.vfs fn {}).st; st == 3 || st == 4)

/-- A write of a VF that is FREEZING or FROZEN is discarded (Table 17.9). -/
def State.frozenWrite (s : State) (fn : Nat) : State :=
  s.upHost (fun h => { h with vfs := aupd h.vfs fn (fun v => { v with frozenWr := satu 65535 (v.frozenWr + 1) }) })

/-- A write of `n` bytes by the host to a function's registers: the link is up, the function is there, not in reset (R457) and not
frozen. Its payload is counted (Table 19.2). -/
def barWrite (fn off n : Nat) (s : State) (f : State → State) : Res :=
  .next (if !(s.hostUp && s.fnEnabled fn) then s
    else if s.inFlr fn then (s.ao 11 n).emit .unsupported fn off 0 []
    else if s.vfFrozen fn then (s.ao 11 n).frozenWrite fn
    else f (s.ao 11 n))

/-- Takes a write of SQ_TAIL (R64, R65). -/
def State.sqTail (s : State) (fn qp val : Nat) : State :=
  match aget s.cmd.qps (qpKey fn qp) with
  | none => s
  | some q =>
    let n := q.sqSize
    if val = q.tail ∨ q.err then s
    else if n ≤ val then s.qpError fn qp 1
    else if (val + n - q.head) % n < (q.tail + n - q.head) % n then s.qpError fn qp 2
    else s.upQp (qpKey fn qp) (fun q => { q with tail := val, part := false })

/-- Takes a write of CQ_HEAD (R64, R65). DESIGN CHOICE (log entry 66): a queue pair in ERROR, whose replies are still written, still takes
CQ_HEAD, which may record a further event, where it ignores SQ_TAIL. -/
def State.cqHeadTo (s : State) (fn qp val : Nat) : State :=
  match aget s.cmd.qps (qpKey fn qp) with
  | none => s
  | some q =>
    let n := q.cqSize
    if val = q.cqHead then s
    else if n ≤ val then s.qpError fn qp 1
    else
      let k := (val + n - q.cqHead) % n
      if q.unread < k then s.qpError fn qp 3
      else s.upQp (qpKey fn qp) (fun q => { q with cqHead := val, unread := q.unread - k })

/-- A host access to a function in reset answers Unsupported Request (R457); otherwise a doorbell of a frozen VF is
latched, and any other is taken. -/
def bell (s : State) (fn off val : Nat) (f : State → State) : Res :=
  .next (if !(s.hostUp && s.fnEnabled fn) then s
    else if s.inFlr fn then (s.ao 11 4).emit .unsupported fn off 0 []
    else if s.vfFrozen fn then (s.ao 11 4).latchBell fn off val
    else f (s.ao 11 4))

/-! ## Opcodes without a row (R100) -/

/-- Whether an opcode is one that has a row of its own: those of Table 3.21 and of the chapters' tables. -/
def hasRow (opcode : Nat) : Bool :=
  let n := opcode % 256
  match opcode / 256 with
  | 0 => decide (n ≤ 9) || (decide (0x20 ≤ n) && decide (n ≤ 0x29) && n != 0x27) || (decide (0x30 ≤ n) && decide (n ≤ 0x34))
  | 1 => decide (n ≤ 2)
  | 2 => decide (n ≤ 6)
  | 3 => decide (n ≤ 6)
  | 4 => decide (n ≤ 9)
  | 5 => decide (n ≤ 8)
  | 6 => decide (n ≤ 11)
  | 7 => decide (n ≤ 4)
  | 8 => decide (n ≤ 3)
  | 9 => decide (n ≤ 7)
  | 10 => decide (n ≤ 8)
  | 11 => decide (n ≤ 9)
  | 12 => decide (n ≤ 8)
  | 13 => decide (n ≤ 8)
  | _ => false

/-! ## Stagehands and their cores -/

/-- A stagehand as the stage manager sees it. -/
def State.hand (s : State) (n : Nat) : StgHand := agetD s.stg.hands n {}

/-- Changes a stagehand. -/
def State.upHand (s : State) (n : Nat) (f : StgHand → StgHand) : State := s.upStg (fun x => { x with hands := amod x.hands n {} f })

/-- An Onbusyn core. -/
def State.core (s : State) (n : Nat) : OnbCore := agetD s.onb.cores n {}

/-- Changes an Onbusyn core. -/
def State.upCore (s : State) (n : Nat) (f : OnbCore → OnbCore) : State := s.upOnb (fun o => { o with cores := amod o.cores n {} f })

/-- Whether a stagehand is in service. -/
def State.handUp (s : State) (n : Nat) : Bool := !s.handFenced n

/-- Stagehands in service. -/
def State.handsUp (s : State) : List Nat := (List.range 16).filter s.handUp

/-- First word of the journal SRAM, which keeps its contents through a restart (R397, R417). -/
def journalWord : Nat := 0x8000

/-- Words of loaded bytes, which hold tag INT (R417). -/
def intWords (b : Bytes) : List (Nat × LWord) :=
  (List.range ((b.length + 7) / 8)).map (fun i => (i, { val := BitVec.ofNat 64 (fld b (8 * i) 8), tag := 0 }))

/-- The resident part of a module: the first RESIDENT bytes of the body after its header, which is laid out as that of R392 (DEDUCED, log
entry 31). -/
def StgModule.residentPart (m : StgModule) : Bytes := padTo m.resident (m.image.drop 128)

/-- What a stagehand's first 192 KiB hold: the resident image and then the resident parts of the modules (R393). -/
def residentBytes (img : ImgHdr) (mods : List StgModule) : Bytes := img.body.take img.resident ++ mods.flatMap StgModule.residentPart

/-- First word of a stagehand's firmware data and stack (R393). -/
def dataWord : Nat := 0x6000

/-- A core after a load or a restart (R394, R400, R413): local memory cleared and the resident parts loaded, every register UNINIT. -/
def OnbCore.loaded (c : OnbCore) (img : ImgHdr) (mods : List StgModule) (now : Nat) : OnbCore :=
  { running := true, pc := img.entry, startAt := now,
    mem := intWords (residentBytes img mods) ++ c.mem.filter (fun e => decide (journalWord ≤ e.1)) }

/-- Loads the running image into a stagehand and starts it. -/
def State.loadHand (s : State) (n : Nat) : State :=
  match s.stg.image with
  | none => s
  | some img => (s.upCore n (fun c => c.loaded img s.stg.modules s.now)).upHand n (fun g => { g with kickAt := s.now })

/-- Sets the state code of every stagehand in service. -/
def State.handsState (s : State) (st : Nat) : State := s.handsUp.foldl (fun t n => t.upHand n (fun g => { g with st := st })) s

/-- The modules' resident parts are laid out afresh in every stagehand in service (R393, R408). -/
def State.modulesLaid (s : State) : State :=
  match s.stg.image with
  | none => s
  | some img => s.handsUp.foldl (fun t n => t.upCore n (fun c =>
      { c with mem := intWords (residentBytes img s.stg.modules) ++ c.mem.filter (fun e => decide (dataWord ≤ e.1)) })) s

/-! ## Customer modules (R408, R409) -/

/-- An opcode that is not defined: INVALID_OPCODE at step 3 (R100); the classes of customer modules need MODULES first (R396). -/
def opUndefined (opcode : Nat) : OpSpec :=
  { code := opcode, defined := false, feats := fun _ => if 0xE0 ≤ opcode / 256 ∧ opcode / 256 ≤ 0xEF then [6] else [],
    run := fun _ _ _ _ => .refuse sBadOpcode 0 }

/-- What a command of a customer module waits for: its module's run on a stagehand; its number is the class. -/
def wModule : Nat := 85

/-- An opcode of a loaded customer module: its code runs on the stagehand, and a trap of it ends the command (R408, R409, R430). -/
def opModule (opcode : Nat) (m : StgModule) : OpSpec :=
  { code := opcode, role := m.least, feats := fun _ => [6],
    run := fun c _ _ s =>
      .wait wModule m.cls (s.upStg (fun g => { g with modules := lupd g.modules (fun x => x.cls == m.cls) (fun x => { x with users := ladd x.users c.fn }) })) }

/-- What FW_UNLOAD_MODULE waits for; its number is the class. -/
def wUnload : Nat := 84

/-- Whether a command of a class is fetched or running (R409). -/
def State.classBusy (s : State) (cls : Nat) : Bool :=
  s.cmd.fetched.any (fun f => f.opcode / 256 == cls) || s.cmd.waiting.any (fun w => w.kind == wModule && w.aux == cls)

/-- A module goes: its resident part leaves local memory, and its area is given up. -/
def State.moduleGone (s : State) (cls : Nat) : State :=
  match s.stg.modules.find? (fun m => m.cls == cls) with
  | none => s
  | some m =>
    ((s.upStg (fun x => { x with modules := x.modules.filter (fun m => m.cls != cls) })).modulesLaid).gClear (s.areaBase cls) (1024 * m.areaKib)

/-- Unloads the modules of whose class no command is fetched or running any longer, and answers who asked for it (R409). -/
def State.settleUnloads (s : State) : State :=
  let idle := fun (w : WaitCmd) => w.kind == wUnload && !(s.classBusy w.aux)
  (s.cmd.waiting.filter idle).foldl (fun t w => (t.moduleGone w.aux).finish w sOk 0 0 w.stateCode) s

/-- The command that a module of a class runs on a stagehand: the oldest of the queue pairs homed there, or of a session that has none. -/
def State.moduleCmd (s : State) (core cls : Nat) : Option WaitCmd :=
  s.cmd.waiting.find? (fun w => w.kind == wModule && w.aux == cls && (match w.hdr.chan with
    | .host fn qp => (agetD s.cmd.qps (qpKey fn qp) {}).home == core
    | _ => true))

/-- A module's run on a stagehand has ended its command (R409). -/
def State.moduleEnds (s : State) (core cls status detail result : Nat) : State :=
  match s.moduleCmd core cls with
  | none => s
  | some w => (s.finish w status detail result w.stateCode).settleUnloads

/-- The same after a command. -/
def thenUnload (r : Res) : Res :=
  match r with
  | .next t => .next t.settleUnloads
  | r => r

/-- Runs an opcode of no row: one of a customer module's class, or an undefined one (R100, R409). -/
def execOther (opcode : Nat) (h : Hdr) (p : Bytes) (s : State) : Res :=
  match s.stg.modules.find? (fun m => m.cls == opcode / 256 && !m.disabled) with
  | some m => thenUnload (runPkt (opModule opcode m) h p s)
  | none => runPkt (opUndefined opcode) h p s

/-- Fetches a packet of an opcode without a row that stands at the head of a queue pair. -/
def fetchOther (fn qp : Nat) (c : OtherCmd) (s : State) : Res :=
  if c.hdr.chan = .host fn qp ∧ hasRow c.opcode = false then execOther c.opcode c.hdr c.params s else .next s

/-- SQ_TAIL_WRITE (R64): the write is taken, and a packet of an opcode without a row may then be fetched (R100). -/
def execSqTailWrite (fn qp : Nat) (val : TailWrite) (s : State) : Res :=
  match bell s fn (64 * qp) val.idx (fun t => t.sqTail fn qp val.idx), val.other with
  | .next t, some c => fetchOther fn qp c t
  | r, _ => r

/-- CQ_HEAD_WRITE (R64). -/
def execCqHeadWrite (fn qp val : Nat) (s : State) : Res := bell s fn (64 * qp + 4) val (fun t => t.cqHeadTo fn qp val)

/-! ## Enabling a function (R97) -/

/-- Queue pairs homed on a stagehand. -/
def State.homed (s : State) (n : Nat) : Nat := (s.cmd.qps.filter (fun e => e.2.home == n)).length

/-- The stagehand in service with the fewest queue pairs, ties going to the lower instance (R561, R402). -/
def State.pickHome (s : State) : Nat :=
  ((List.range 16).filter s.handUp).foldl (fun best n =>
    if decide (best < 16) && decide (s.homed best ≤ s.homed n) then best else n) 16

/-- Whether the admin queue configuration lies within its range (R97). -/
def FnCmd.cfgOk (f : FnCmd) : Bool :=
  decide (6 ≤ f.aqSqLog2) && decide (f.aqSqLog2 ≤ 16) && decide (6 ≤ f.aqCqLog2) && decide (f.aqCqLog2 ≤ 16)

/-- Queue pairs available to a function (R62, R460). -/
def State.maxQp (s : State) (fn : Nat) : Nat := if fn = 0 then 256 else (agetD s.host.vfs fn {}).qp

/-- Queue pairs that a function holds, the admin queue pair among them (R62). -/
def State.qpCount (s : State) (fn : Nat) : Nat := (s.cmd.qps.filter (fun e => e.1 / 65536 == fn)).length

/-- Makes the admin queue pair of an enabled function live, once an image runs (R97, R561). The admin queue pair counts too, so a function
whose quota is used up, or is 0, gets none until the quota is raised (R62, R460). -/
def State.makeLive (s : State) (fn : Nat) : State :=
  let f := s.fnCmd fn
  if !f.en || f.rdy || s.stg.image.isNone || !f.cfgOk || decide (s.maxQp fn ≤ s.qpCount fn) then s
  else
    let q : QPair := { sqBase := f.aqSq, cqBase := f.aqCq, sqLog2 := f.aqSqLog2, cqLog2 := f.aqCqLog2, vector := f.aqVec,
                       prio := 0, home := s.pickHome }
    (s.upCmd (fun c => { c with qps := aset c.qps (qpKey fn 0) q })).upFn fn (fun g => { g with rdy := true })

/-- Sets CMD_CTRL.EN (R97). -/
def State.enableCmd (s : State) (fn : Nat) : State :=
  let f := s.fnCmd fn
  if f.en then s
  else
    let t := s.upFn fn (fun g => { g with en := true })
    if f.cfgOk then t.makeLive fn
    else if f.qerr then t
    else t.flag 1 cmdStatOff 1 (fun u => u.upFn fn (fun g => { g with qerr := true, qerrQp := 0, qerrReason := 6 }))

/-! ## The end of a session (R83, R93) -/

/-- Ends an intermission without applying its settings: the scope returns to its previous state (R83, R93). -/
def State.abandonInter (s : State) (scope : Nat) : State :=
  s.upCmd (fun c => { c with inters := c.inters.filter (fun r => r.scope != scope) })

/-- Kinds of commands that wait for an intermission: its drain, its AT step, and a change of mode (R122); `aux` is the scope, of the
last with its DETAIL in the bits above. -/
def wDrain : Nat := 1
def wAt : Nat := 2
def wMode : Nat := 22

/-- Whether a waiting INTERMISSION_END ends with the restart of a scope. -/
def WaitCmd.endsWith (w : WaitCmd) (scope : Nat) : Bool := (w.kind == wAt || w.kind == wMode) && w.aux % 4294967296 == scope

/-- Whether an INTERMISSION_END is past its AT step and waits for what its settings need: it completes normally (R83). -/
def Inter.underWay (r : Inter) : Bool := r.ph == .restarting && r.at_ == 0

/-- Ends the intermissions of a session: a BEGIN that drains or an END that waits for its AT step completes NO_SESSION (R83). -/
def State.dropInters (s : State) (fn handle : Nat) : State :=
  (s.cmd.inters.filter (fun r => r.fn == fn && r.handle == handle && !r.underWay)).foldl (fun t r =>
    ((t.abandonInter r.scope).finishAll (fun w => (w.kind == wDrain && w.aux == r.scope) || w.endsWith r.scope) sNoSession 0 0)) s

/-- Ends a session (R83). -/
def State.endSession (s : State) (fn handle : Nat) : State :=
  (s.upCmd (fun c =>
    { c with sessions := c.sessions.filter (fun x => !(x.fn == fn && x.handle == handle)) })).dropInters fn handle

/-- Ends every session of a function. -/
def State.endSessions (s : State) (fn : Nat) : State :=
  (s.cmd.sessions.filter (fun x => x.fn == fn)).foldl (fun t x => t.endSession fn x.handle) s

/-- Deletes every queue pair of a function (R73, R83): commands that have not started end with them, those past their checks run to
completion without a reply, and a DELETE_QUEUE_PAIR has nothing more to wait for. -/
def State.deleteQps (s : State) (fn : Nat) : State :=
  let mine := fun (h : Hdr) => h.chan.fn == fn
  s.upCmd (fun c =>
    { c with qps := c.qps.filter (fun e => e.1 / 65536 != fn),
             fetched := (c.fetched.filter (fun f => !(mine f.hdr) || f.held.isSome)).map (fun f => { f with mute := f.mute || mine f.hdr }),
             waiting := (c.waiting.filter (fun w => !(mine w.hdr && w.opcode == 0x0005))).map (fun w => { w with mute := w.mute || mine w.hdr }),
             fanouts := c.fanouts.map (fun f => { f with mute := f.mute || mine f.hdr }) })

/-- Clears CMD_CTRL.EN: the function's queue pairs and sessions end (R73, R83, R97). -/
def State.disableCmd (s : State) (fn : Nat) : State :=
  ((s.deleteQps fn).endSessions fn).settleUnloads.upFn fn (fun f => { f with en := false, rdy := false })

/-- Offset of CMD_CTRL in a function's BAR0 (Tables 1.8, 1.9). -/
def cmdCtrlOff (fn : Nat) : Nat := if fn = 0 then 0x00300008 else 0x00180008

/-- CMD_CTRL_EN_SET (R97). -/
def execCmdCtrlEnSet (fn : Nat) (s : State) : Res := barWrite fn (cmdCtrlOff fn) 4 s (fun s => s.enableCmd fn)

/-! ## Sessions (R79 to R83) -/

/-- NOP (Table 3.21). -/
def opNop : OpSpec :=
  { code := 0x0000, role := .tenant, v1 := true, noFw := true, run := fun _ _ _ s => .ok s }

/-- NOP. -/
def execNop (h : Hdr) (p : Bytes) (s : State) : Res := runPkt opNop h p s

/-- Whether every byte of a range of parameters is 0 (R12). -/
def rsv (p : Bytes) (off n : Nat) : Nat × Bool := (off, fld p off n == 0)

/-- Whether OPEN_SESSION is locked on a function now (R81). -/
def State.locked (s : State) (fn : Nat) : Bool :=
  match (s.fnCmd fn).lockUntil with
  | some t => decide (s.now < t)
  | none => false

/-- Whether a function may open a session of a role (R80). -/
def roleFits (c : Chan) (role : Nat) : Bool :=
  match c with
  | .host fn _ => if fn = 0 then role == 1 else role == 2
  | .mgmt _ => role == 0
  | .head _ _ _ _ _ _ => false

/-- The stored key of a role. -/
def State.keyOk (s : State) (fn role : Nat) (key : Bytes) : Bool :=
  if role = 0 then keyMatches s.sm.cfg.opKey key && (!s.sm.cfg.opKey.isEmpty || s.aon.strapProv)
  else if role = 1 then keyMatches s.sm.cfg.mgrKey key
  else (s.fnCmd fn).tenantKey == key

/-- DETAIL of AUTH_FAILED for OPEN_SESSION: locked out, wrong role, wrong key, in that order (R80, R81). -/
def openAuth (_c : Caller) (h : Hdr) (p : Bytes) (s : State) : Option Nat :=
  let fn := h.chan.fn
  let role := fld p 0 1
  if s.locked fn then some 2
  else if !roleFits h.chan role then some 3
  else if !s.keyOk fn role (sub p 8 32) then some 1
  else none

/-- Counts a wrong key; the eighth in a row locks OPEN_SESSION for 1 s (R81). -/
def openFail (h : Hdr) (detail : Nat) (s : State) : State :=
  if detail = 1 then
    s.upFn h.chan.fn (fun f =>
      let n := (if f.lockUntil.isSome then 0 else f.wrong) + 1
      if 8 ≤ n then { f with wrong := 0, lockUntil := some (s.now + 1000000000) }
      else { f with wrong := n, lockUntil := none })
  else s

/-- Most open sessions of a function (R80, R497). -/
def sessionRoom (fn : Nat) : Nat := if fn = 0 then 64 else if fn = 256 then 4 else 8

/-- The role that OPEN_SESSION names. -/
def roleOf (n : Nat) : Role := if n = 0 then .operator else if n = 1 then .manager else .tenant

/-- The next handle of a function: handles follow one another, 0 left out (R80, log entry 9). -/
def FnCmd.nextHandle (f : FnCmd) : Nat := f.issued % 4294967295 + 1

/-- OPEN_SESSION (R79 to R81). -/
def opOpenSession : OpSpec :=
  { code := 0x0001, role := .tenant, v1 := true, result := true, noFw := true, len := fun _ => 40,
    fields := fun _ p => [(0, decide (fld p 0 1 ≤ 2)), rsv p 1 7],
    auth := openAuth, authFail := openFail,
    run := fun _ h p s =>
      let fn := h.chan.fn
      let open_ := (s.cmd.sessions.filter (fun x => x.fn == fn)).length
      if sessionRoom fn ≤ open_ then noResource
      else
        let f := s.fnCmd fn
        let spdm := match h.chan with
          | .mgmt x => x
          | _ => 0
        let x : Session := { fn := fn, handle := f.nextHandle, role := roleOf (fld p 0 1), spdm := spdm }
        let t := ((s.vfRuns fn).upFn fn (fun g => { g with issued := g.issued + 1, wrong := 0, lockUntil := none })).upCmd
          (fun c => { c with sessions := c.sessions ++ [x] })
        .done sOk (if sub p 8 32 = zeros 32 then 1 else 0) f.nextHandle t }

/-- OPEN_SESSION. -/
def execOpenSession (h : Hdr) (p : Bytes) (s : State) : Res := runPkt opOpenSession h p s

/-- CLOSE_SESSION (R83). -/
def opCloseSession : OpSpec :=
  { code := 0x0002, role := .tenant, v1 := true, noFw := true,
    run := fun c _ _ s => .ok (s.endSession c.hfn c.handle) }

/-- SET_ROLE_KEY (R82, Table 3.9). -/
def opSetRoleKey : OpSpec :=
  { code := 0x0003, role := .manager, len := fun _ => 40,
    fields := fun _ p => [(0, fld p 0 1 == 1 || fld p 0 1 == 2), rsv p 1 1, (2, decide (fld p 2 2 ≤ 255)), rsv p 4 4],
    auth := fun c _ p _ => if fld p 0 1 = 1 ∧ c.role ≠ .operator then some 3 else none,
    run := fun _ _ p s =>
      let key := sub p 8 32
      let fn := fld p 2 2
      if fld p 0 1 = 1 then
        if fn ≠ 0 then badParam 2 else s.storeCmd 2 (keyDigest key) 0x00
      else if fn = 0 then badParam 2
      else .ok (s.upFn fn (fun f => { f with tenantKey := key })) }

/-- SET_ROLE_KEY. -/
def execSetRoleKey (h : Hdr) (p : Bytes) (s : State) : Res := runPkt opSetRoleKey h p s

/-- LOCKOUT_EXPIRY: the lock ends and the count of wrong keys starts again (R81). -/
def execLockoutExpiry (fn : Nat) (s : State) : Res :=
  .next (match (s.fnCmd fn).lockUntil with
    | some t => if t ≤ s.now then s.upFn fn (fun f => { f with lockUntil := none, wrong := 0 }) else s
    | none => s)

/-! ## Queue pairs by command (R98) -/

/-- CREATE_QUEUE_PAIR (R98, Table 3.18). -/
def opCreateQueuePair : OpSpec :=
  { code := 0x0004, role := .tenant, v1 := true, result := true, len := fun _ => 24,
    fields := fun _ p =>
      [(0, fld p 0 8 % 4096 == 0), (8, fld p 8 8 % 4096 == 0), (16, decide (6 ≤ fld p 16 1) && decide (fld p 16 1 ≤ 16)),
       (17, decide (6 ≤ fld p 17 1) && decide (fld p 17 1 ≤ 16)), (18, decide (fld p 18 2 < 2048)),
       (20, decide (fld p 20 1 ≤ 2)), rsv p 21 3],
    run := fun _ h p s =>
      match h.chan with
      | .host fn _ =>
        match (if s.maxQp fn ≤ s.qpCount fn then none else freeKey s.cmd.qps (s.maxQp fn - 1) (qpKey fn 1)) with
        | none => noResource
        | some k =>
          if vectorsOf fn ≤ fld p 18 2 then badParam 18
          else
            let q : QPair := { sqBase := fld p 0 8, cqBase := fld p 8 8, sqLog2 := fld p 16 1, cqLog2 := fld p 17 1,
                               vector := fld p 18 2, prio := fld p 20 1, home := s.pickHome }
            .done sOk 0 (k % 65536) (s.upCmd (fun c => { c with qps := aset c.qps k q }))
      | _ => noResource }

/-- CREATE_QUEUE_PAIR. -/
def execCreateQueuePair (h : Hdr) (p : Bytes) (s : State) : Res := runPkt opCreateQueuePair h p s

/-- DELETE_QUEUE_PAIR (R98): nothing more is fetched from the queue pair, and it ends once its commands have. -/
def opDeleteQueuePair : OpSpec :=
  { code := 0x0005, role := .tenant, v1 := true, len := fun _ => 8,
    fields := fun _ p => [(0, decide (fld p 0 2 ≠ 0)), rsv p 2 6],
    run := fun _ h p s =>
      match h.chan with
      | .host fn _ =>
        let k := qpKey fn (fld p 0 2)
        if ahas s.cmd.qps k then .wait 3 k (s.upQp k (fun q => { q with tail := q.head })) else badParam 0
      | _ => badParam 0 }

/-- DELETE_QUEUE_PAIR: the reply is written at once when nothing of the queue pair is unanswered. -/
def execDeleteQueuePair (h : Hdr) (p : Bytes) (s : State) : Res :=
  match runPkt opDeleteQueuePair h p s with
  | .next t => .next (t.settleDeletes t.cmd.waiting.length)
  | r => r

/-- ABORT (R99): a command fetched and not started completes ABORTED_BY_HOST. A command of a queue pair deleted since, which R73 runs to its
end, is none of the queue pair that has its index now. -/
def opAbort : OpSpec :=
  { code := 0x0009, role := .tenant, v1 := true, len := fun _ => 8,
    fields := fun _ p => [rsv p 2 2],
    run := fun _ h p s =>
      let hit := fun (f : FetchedCmd) =>
        f.ofQp (qpKey h.chan.fn (fld p 0 2)) && h.chan.fn < 256 && f.hdr.hostTag == fld p 4 4
      match s.cmd.fetched.find? hit with
      | none => .ok s
      | some f =>
        let t := s.upCmd (fun c => { c with fetched := c.fetched.filter (fun x => x != f) })
        .done sOk 1 0 (t.reply f.hdr f.opcode
          { status := 0x0010, st := t.judge f.opcode f.hdr.unit, sqHead := f.sqHead, replayed := f.replayed, mute := f.mute }) }

/-- ABORT. -/
def execAbort (h : Hdr) (p : Bytes) (s : State) : Res := thenUnload (runPkt opAbort h p s)

/-! ## GET_STATE (R77) -/

/-- Members of a unit ID, fenced ones included; 1 for a single unit (Table 3.21). -/
def State.memberCount (s : State) (u : Nat) : Nat :=
  let l := s.ladderMembers u
  if !l.isEmpty then l.length
  else if uInst u = 0xFFF then (match uClass u with | 4 => 4 | 5 => s.net.portCount | 15 => (s.net.members.filter (fun m => !m.isHead)).length | _ => 1)
  else 1

/-- GET_STATE (Table 3.21): RESULT counts the fenced members of a group; a fenced single unit, and a group whose every member is fenced, end
at step 8 (R23). -/
def opGetState : OpSpec :=
  { code := 0x0008, role := .tenant, v1 := true, result := true, noFw := true,
    run := fun _ h _ s =>
      .done sOk 0 (s.memberCount h.unit + 65536 * ((s.ladderMembers h.unit).filter s.unitFenced).length) s }

/-- GET_STATE. -/
def execGetState (h : Hdr) (p : Bytes) (s : State) : Res := runPkt opGetState h p s

/-! ## Beginning an intermission (R85 to R87) -/

/-- Least role for an intermission on the scope that a unit names (Table 3.10, R86). -/
def scopeRole (h : Hdr) : Option Role :=
  if !isScope h.unit then some .tenant else if uClass h.unit = 9 then some .tenant else some .manager

/-- INTERMISSION_BEGIN (R86, R87). -/
def opIntermissionBegin : OpSpec :=
  { code := 0x0006, role := .tenant, len := fun _ => 8,
    fields := fun _ p => [rsv p 4 4], roleFor := scopeRole, onScope := true, unitOk := fun h _ => isScope h.unit,
    run := fun c h p s =>
      match s.interOn h.unit with
      | some r =>
        if r.heldBy c ∧ r.ph ≠ .draining then .done sOk 1 0 s else .refuseAt sBadState 0 r.ph.code
      | none =>
        if (s.interOn uDevice).isSome ∨ (h.unit = uDevice ∧ !s.cmd.inters.isEmpty) then .refuseAt sBadState 0 (s.unitState h.unit)
        else
          let limit := fld p 0 4
          let r : Inter := { scope := h.unit, fn := c.hfn, handle := c.handle, ph := .draining, started := s.now,
                             drainBy := if limit = 0 then none else some (s.now + 1000 * limit) }
          .wait wDrain h.unit (s.upCmd (fun k => { k with inters := k.inters ++ [r] })) }

/-- INTERMISSION_BEGIN. -/
def execIntermissionBegin (h : Hdr) (p : Bytes) (s : State) : Res := runPkt opIntermissionBegin h p s

/-- Whether the Loom has no weave in progress: every batch woven has been handed to delivery (R286, R299, log entry 41). -/
def State.loomIdle (s : State) : Bool := s.loom.jobs.all (fun e => e.2.woven.isEmpty)

/-- Whether the checkpoint block has no capture under way and no restore (R86, Table 13.6). -/
def State.ckpIdle (s : State) : Bool := s.ckp.jobs.all (fun e => !(e.2.capture.any (fun c => c.started)) && e.2.restore.isNone)

/-- Whether no queue pair in RTS has a message on its way (R86). -/
def State.netIdle (s : State) : Bool := s.net.qps.all (fun e => e.2.st != .rts || e.2.tx.all (fun m => !m.sent))

/-- Whether the work that a scope has started is finished (R86). -/
def State.scopeIdle (s : State) (scope : Nat) : Bool :=
  let tap := s.tap.running.isEmpty && s.tap.runs.all (fun r => !r.begun)
  let feed := fun (p : Nat → Bool) => s.feed.rings.all (fun e => !(p e.2.accel) || e.2.issued.isEmpty)
  let cip := s.cip.units.all (fun u => u.lane == laneNone)
  let sto := fun (p : Nat → Bool) => s.sto.ctrls.all (fun e => !(p e.1) || e.2.ops.all (fun o => o.kind == .held)) &&
    s.sto.ints.all (fun o => !(p o.ctrl) || (o.parts.isEmpty && !(s.sto.wbuf.any (fun w => w.dirty && w.writes.any o.need.contains))))
  match uClass scope with
  | 0 => tap && feed (fun _ => true) && cip && sto (fun _ => true) && s.loomIdle && s.ckpIdle && s.netIdle && s.hed.recirc.isEmpty
  | 1 => tap
  | 3 => s.loomIdle
  | 4 => feed (fun a => a / 2 == uInst scope)
  | 5 => s.netIdle
  | 6 => s.hed.recirc.isEmpty
  | 7 => cip
  | 9 => sto (fun f => f == uInst scope)
  | _ => true

/-- Changes the intermission on a scope. -/
def State.upInter (s : State) (scope : Nat) (f : Inter → Inter) : State :=
  s.upCmd (fun c => { c with inters := lupd c.inters (fun r => r.scope == scope) f })

/-! ## Replies of troupe members (R94, R95) -/

/-- The member replies that one reply-mailbox entry brings: its own, or its members' with its ID in front (R150). -/
def entryReplies (member : Nat) (e : Bytes) : List FwdReply :=
  let n := fld e 40 2
  if n = 0 then [{ path := [member], rep := sub e 8 32 }]
  else (List.range n).map (fun i =>
    let r := sub e (64 + 64 * i) 64
    { path := member :: (List.range 7).map (fun j => fld r (2 * j) 2), rep := sub r 16 32 })

/-- TROUPE_MEMBER_REPLY: one member's reply; the last one ends the fan-out (R94). An entry out of sequence is discarded
(R138). -/
def execTroupeMemberReply (member : Nat) (entry : Bytes) (s : State) : Res :=
  onMain s (fun s =>
    match s.member member with
    | none => s
    | some m =>
      if fld entry 4088 8 ≠ (m.rplyIn + 1) % 2 ^ 64 then s.upNet (fun n => { n with mbox := satu 8191 (n.mbox + 1) })
      else
        let s1 := s.upMember member (fun x => { x with rplyIn := fld entry 4088 8 })
        let id := fld entry 0 8
        match s1.cmd.fanouts.find? (fun f => f.id == id && f.members.contains member) with
        | none => s1
        | some f =>
          let g := { f with members := ldel f.members member, replies := f.replies ++ entryReplies member entry,
                            ovf := f.ovf || bit (fld entry 42 1) 0 }
          let t := (s1.upCmd (fun c => { c with fanouts := lupd c.fanouts (fun x => x.id == id) (fun _ => g) })).fwdDone member
          if g.members.isEmpty then t.endFanout g else t)

/-- TROUPE_TIMEOUT: members that did not reply get a record, and the aggregated reply is written (R94, R95). -/
def execTroupeTimeout (fwd : Nat) (s : State) : Res :=
  onMain s (fun s =>
    match s.cmd.fanouts.find? (fun f => f.id == fwd) with
    | none => s
    | some f =>
      if f.by_ ≤ s.now then
        (f.members.foldl (fun t m =>
            match t.member m with
            | some x =>
              if x.queue.any (fun e => e.1 == fwd) then
                t.upMember m (fun x => { x with queue := x.queue.filter (fun e => e.1 != fwd) })
              else t.fwdDone m
            | none => t) s).endFanout
          { f with members := [], replies := f.replies ++ f.members.map (fun m => { path := [m] }) }
      else s)

end Sys2Proof.Machine
end

