-- ==== Sys2Proof/Machine/CipOps.lean ====
section
/-!
DEFINITION. Key pages and cipher lanes as the other blocks use them (R167 to R173, R181, R184), and the tag cache (R174 to R176).
-/
namespace Sys2Proof.Machine

open Sys2Proof

/-- A key page. -/
def State.page (s : State) (k : Nat) : KeyPage := agetD s.cip.pages k {}

/-- Changes a key page. -/
def State.upPage (s : State) (k : Nat) (f : KeyPage → KeyPage) : State :=
  s.upCip (fun c => { c with pages := amod c.pages k {} f })

/-- PF BAR0 offset of CIP_KP_STAT of a page (Table 6.9). -/
def kpStatOff (k : Nat) : Nat := 0x01C00000 + 4096 * k

/-- Pages of the key store. -/
def pageCount : Nat := 1024

/-- The pages of a function: the PF names all by their number, a VF its own in the order assigned (R169). -/
def State.pageNamed (s : State) (fn j : Nat) : Option Nat :=
  if fn = 0 then (if j < pageCount then some j else none) else (agetD s.cip.vfPages fn [])[j]?

/-- Lanes in service. -/
def State.lanesUp (s : State) : List Nat := (List.range 16).filter (fun n => !s.unitFenced (144 + n))

/-- Units at a lane. -/
def State.laneLoad (s : State) (n : Nat) : Nat := (s.cip.units.filter (fun u => u.lane == n && u.fin == 0)).length

/-- The least-loaded lane in service, ties to the lower number; a rerun goes to another lane where there is one (R167,
R181). -/
def State.pickLane (s : State) (avoid : Option Nat) : Option Nat :=
  let up := s.lanesUp
  let other := up.filter (fun n => some n != avoid)
  let l := if other.isEmpty then up else other
  match l with
  | [] => none
  | x :: t => some (t.foldl (fun b n => if s.laneLoad n < s.laneLoad b then n else b) x)

/-- AES blocks that a lane runs for a unit of `n` bytes, each computed twice (R181, R182). -/
def laneBlocks (n : Nat) : Nat := 2 * ((n + 15) / 16)

/-- Whether an intermission of the cipher lanes holds a new unit (R88): a unit of a command that has started is no new work, and the units of
the work that a device intermission waits for are done while it drains (R86). -/
def State.laneHolds (s : State) (u : CipUnit) : Bool :=
  match u.use with
  | .tls _ => false
  | _ => (s.interOn 0x7FFF0000).isSome || (s.interOn uDevice).any (fun r => r.ph != .draining)

/-- Gives the units that an intermission held to lanes, in order, once it has ended (R88, R167). -/
def State.lanesGo (s : State) : State :=
  (s.cip.units.filter (fun u => u.lane == laneNone && u.fin == 0)).foldl (fun t u =>
    if t.laneHolds u then t
    else match t.pickLane u.avoid with
      | none => t
      | some n => t.upCip (fun c =>
          { c with units := lupd c.units (fun x => x.id == u.id) (fun x => { x with lane := n, at_ := s.now }),
                   drbg := amod c.drbg n 0 (fun v => v + laneBlocks u.data.length) })) s

/-- Submits a unit to a lane, or holds it (R88, R167). -/
def State.submit (s : State) (u : CipUnit) (avoid : Option Nat) : Option State :=
  match s.pickLane avoid with
  | none => none
  | some n =>
    if s.laneHolds u then
      some (s.upCip (fun c => { c with units := c.units ++ [{ u with id := c.nextUnit, lane := laneNone, avoid := avoid, at_ := s.now }],
                                       nextUnit := c.nextUnit + 1 }))
    else some (s.upCip (fun c =>
      { c with units := c.units ++ [{ u with id := c.nextUnit, lane := n, at_ := s.now }], nextUnit := c.nextUnit + 1,
               drbg := amod c.drbg n 0 (fun v => v + laneBlocks u.data.length) }))

/-- Counts a unit released from a page (R187, R505, R506, R509). -/
def State.released (s : State) (u : CipUnit) (bytes : Nat) : State :=
  let p := s.page u.page
  (((s.upPage u.page (fun p => { p with units := satu (2 ^ 48 - 1) (p.units + 1) })).ao 15 bytes).fnCtr p.owner 11 bytes).gctr
    0x0070 (unitId 7 u.lane) 1

/-- Counts an authentication failure of a page and raises its event (R183, R187). -/
def State.authFailed (s : State) (k : Nat) : State :=
  let own := (s.page k).owner
  s.flag (64 + own) (kpStatOff k) 8 (fun t => t.upPage k (fun p => { p with cAuth := satu 65535 (p.cAuth + 1), authEv := true }))

/-- Counts a unit refused because its page is not READY, of another mode or of another SPI (R172, R187). -/
def State.noKey (s : State) (k : Nat) : State := s.upPage k (fun p => { p with cNoKey := satu 65535 (p.cNoKey + 1) })

/-- Charges a detected error to a unit; the ladder takes it as DETECTED_ERROR (R343, R347). -/
def State.charge (s : State) (unit : Nat) (cause : ErrCause) (op detail addr : Nat) : State :=
  s.upRas (fun r => { r with charged := r.charged ++ [{ unit := unit, cause := cause, op := op, detail := detail, addr := addr }] })

/-- A double-computation disagreement: counted on the page and charged to the lane (R181). -/
def State.mismatched (s : State) (k lane : Nat) : State :=
  let own := (s.page k).owner
  (s.flag (64 + own) (kpStatOff k) 9 (fun t =>
    t.upPage k (fun p => { p with cMism := satu 65535 (p.cMism + 1), mismEv := true }))).charge (unitId 7 lane) .mismatch 0 k 0

/-- Zeroises a page; the counters are kept (R172). -/
def KeyPage.zeroise (p : KeyPage) : KeyPage :=
  { p with st := .empty, mode := 0, key256 := false, esn := false, tunnel := false, seq := 0, window := 0, spi := 0,
           ivSalt := [], key := [] }

/-- Zeroises every page of a function (R172). -/
def State.zeroisePages (s : State) (fn : Nat) : State :=
  s.upCip (fun c => { c with pages := c.pages.map (fun e => if e.2.owner = fn then (e.1, e.2.zeroise) else e),
                             loadWait := c.loadWait.filter (fun e => (agetD c.pages e.1 {}).owner != fn) })

/-- Whether a page serves the storage of a function (R170). -/
def State.storagePage (s : State) (k fn : Nat) : Bool :=
  let p := s.page k
  decide (k < pageCount) && p.st == .ready && p.mode == 1 && p.owner == fn

/-- The next TLS sequence is spent or not: EXHAUSTED once it would pass 2^64 - 1 (R180). -/
def KeyPage.bump (p : KeyPage) : KeyPage :=
  if p.seq = 2 ^ 64 - 1 then { p with st := .exhausted } else { p with seq := p.seq + 1 }

/-- The nonce of a TLS record: the static IV XOR the sequence number, left-padded (R180). -/
def tlsNonce (iv : Bytes) (seq : Nat) : Bytes := (List.zip (padTo 12 iv) (beBytes 12 seq)).map (fun e => e.1 ^^^ e.2)

/-! ## Tag records -/

/-- A tag record (Table 6.4). -/
structure TagRec where
  tag : Bytes
  ctr : Nat
  written : Bool
deriving DecidableEq, Repr

/-- The record that 32 bytes hold. -/
def TagRec.ofBytes (b : Bytes) : TagRec := { tag := sub b 0 16, ctr := fld b 16 4, written := bit (fld b 20 4) 0 }

/-- The 32 bytes of a record. -/
def TagRec.bytes (r : TagRec) : Bytes := padTo 16 r.tag ++ leBytes 4 r.ctr ++ leBytes 4 (b2n r.written) ++ zeros 8

/-- Whether a tag block is the one of a backing's remote block. -/
def TagBlk.is (t : TagBlk) (ctrl nsid back rblk : Nat) : Bool :=
  t.ctrl == ctrl && t.nsid == nsid && t.back == back && t.rblk == rblk

/-- The tag block in the cache. -/
def State.tagBlk (s : State) (ctrl nsid back rblk : Nat) : Option TagBlk :=
  s.cip.tags.find? (fun t => t.is ctrl nsid back rblk)

/-- Whether a remote command outstanding needs a tag block. -/
def State.tagNeeded (s : State) (t : TagBlk) : Bool :=
  s.sto.remotes.any (fun r => r.ctrl == t.ctrl && r.nsid == t.nsid && r.back == t.back && r.tags.contains t.rblk)

/-- Puts a fetched tag block into the cache; beyond 4,096 the least recently used clean block that nothing outstanding needs leaves, and
where there is none the fetched one is not kept (R176). -/
def State.tagPut (s : State) (ctrl nsid back rblk : Nat) (b : Bytes) : State :=
  if (s.tagBlk ctrl nsid back rblk).isSome then s
  else
    let l := s.cip.tags
    let clean := l.filter (fun t => !t.dirty && t.busy == 0 && !t.out && !s.tagNeeded t)
    let old := clean.foldl (fun (m : Option TagBlk) t =>
      match m with
      | none => some t
      | some x => if t.used < x.used then some t else m) none
    let x : TagBlk := { ctrl := ctrl, nsid := nsid, back := back, rblk := rblk, data := padTo 4096 b, used := s.now }
    if l.length < 4096 then s.upCip (fun c => { c with tags := l ++ [x] })
    else match old with
      | some y => s.upCip (fun c => { c with tags := l.filter (fun t => t != y) ++ [x] })
      | none => s

/-- Changes one tag block of the cache. -/
def State.upTag (s : State) (ctrl nsid back rblk : Nat) (f : TagBlk → TagBlk) : State :=
  s.upCip (fun c => { c with tags := lupd c.tags (fun t => t.is ctrl nsid back rblk) f })

/-- IV of a sealed block (R175). -/
def sealIv (b ctr : Nat) : Bytes := leBytes 8 b ++ leBytes 4 ctr

/-- Additional data of a sealed block (R175). -/
def sealAad (n b ctr : Nat) : Bytes := leBytes 4 n ++ leBytes 4 ctr ++ leBytes 8 b

end Sys2Proof.Machine
end

