-- ==== Sys2Proof/Machine/StoOps.lean ====
section
/-!
DEFINITION. The storage front end's shared operations: NVMe queues and completions (R102, R125), namespaces and striping (R109), the write buffer (R114 to R118) and its drain (R117, R175, R176).
-/
namespace Sys2Proof.Machine

open Sys2Proof

/-! ## Controllers -/

/-- The NVMe controller of a function. -/
def State.ctrl (s : State) (fn : Nat) : Ctrl := agetD s.sto.ctrls fn {}

/-- Changes a controller. -/
def State.upCtrl (s : State) (fn : Nat) (f : Ctrl → Ctrl) : State :=
  s.upSto (fun x => { x with ctrls := amod x.ctrls fn {} f })

/-- Unit ID of a storage controller (R102). -/
def uCtrl (fn : Nat) : Nat := unitId 9 fn

/-- A queue of a controller; queue 0 of each kind is the admin queue. -/
def Ctrl.queue (c : Ctrl) (cq : Bool) (qid : Nat) : Option QueueRec := c.queues.find? (fun q => q.cq == cq && q.qid == qid)

/-- Changes a queue. -/
def State.upQueue (s : State) (fn : Nat) (cq : Bool) (qid : Nat) (f : QueueRec → QueueRec) : State :=
  s.upCtrl fn (fun c => { c with queues := lupd c.queues (fun q => q.cq == cq && q.qid == qid) f })

/-- Status field of an NVMe completion: SC, SCT and DNR (Table 4.8). -/
def nvmeSt (sct sc dnr : Nat) : Nat := sc + 256 * sct + 16384 * dnr

/-- Writes a completion entry whose phase is still to be set, or keeps it until its queue has room. -/
def State.postCqe (s : State) (fn cqid : Nat) (b : Bytes) : State :=
  match (s.ctrl fn).queue true cqid with
  | none => s
  | some q =>
    if (q.tail + 1) % q.size = q.head then
      s.upCtrl fn (fun c => { c with cqeWait := c.cqeWait ++ [(cqid, b)] })
    else
      let e := sub b 0 14 ++ leBytes 2 (fld b 14 2 + b2n q.phase)
      let t := (s.emit .nvmeCqe fn cqid (fld b 14 2 / 2) e).hostWrite fn (q.base + 16 * q.tail) e
      let u := t.upQueue fn true cqid (fun q =>
        { q with tail := (q.tail + 1) % q.size, phase := if q.tail + 1 = q.size then !q.phase else q.phase })
      let v := (u.ao 18 1).fnCtr fn 1 1
      if q.ien then v.vecEvent fn q.vector else v

/-- Completes a command of a submission queue: status and Dword 0 (R125). -/
def State.nvmeDone (s : State) (fn sqid cid status dw0 : Nat) : State :=
  match (s.ctrl fn).queue false sqid with
  | none => s
  | some q =>
    s.postCqe fn q.cqid (leBytes 4 dw0 ++ leBytes 4 0 ++ leBytes 2 q.head ++ leBytes 2 sqid ++ leBytes 2 cid ++
      leBytes 2 (2 * status))

/-- Posts completions that waited for room, in order. -/
def State.postWaiting : Nat → State → Nat → Nat → State
  | 0, s, _, _ => s
  | fuel + 1, s, fn, cqid =>
    match (s.ctrl fn).cqeWait.find? (fun e => e.1 == cqid), (s.ctrl fn).queue true cqid with
    | some e, some q =>
      if (q.tail + 1) % q.size = q.head then s
      else State.postWaiting fuel ((s.upCtrl fn (fun c => { c with cqeWait := c.cqeWait.erase e })).postCqe fn cqid e.2) fn cqid
    | _, _ => s

/-- Reports an asynchronous event, or keeps it until a request is held; a type reported is masked until its log page is
read (R103, R111, R126). -/
def State.asyncEvent (s : State) (fn dw0 : Nat) : State :=
  let c := s.ctrl fn
  let ty := bits dw0 0 3
  if c.aerMask.contains ty then s
  else match c.aers with
    | cid :: t =>
      (s.upCtrl fn (fun c => { c with aers := t, aerMask := ladd c.aerMask ty })).nvmeDone fn 0 cid 0 dw0
    | [] => if c.en && !c.aerPend.contains dw0 then s.upCtrl fn (fun c => { c with aerPend := c.aerPend ++ [dw0] }) else s

/-- Namespace Attribute Changed (NVM Express: a notice, type 2, of log page 0x04). -/
def aerNsChanged : Nat := 2 + 65536 * 4

/-- A namespace was attached to or detached from a controller (R111). -/
def State.nsChanged (s : State) (fn nsid : Nat) : State :=
  let t := s.upCtrl fn (fun c => { c with changed := ladd c.changed nsid })
  if bit (s.ctrl fn).aec 8 then t.asyncEvent fn aerNsChanged else t

/-! ## Namespaces -/

/-- Whether a namespace is the one of a controller and NSID. -/
def Ns.is (n : Ns) (ctrl nsid : Nat) : Bool := n.ctrl == ctrl && n.nsid == nsid

/-- The namespace of a controller. -/
def State.ns (s : State) (ctrl nsid : Nat) : Option Ns := s.sto.nss.find? (fun n => n.is ctrl nsid)

/-- Changes a namespace. -/
def State.upNs (s : State) (ctrl nsid : Nat) (f : Ns → Ns) : State :=
  s.upSto (fun x => { x with nss := lupd x.nss (fun n => n.is ctrl nsid) f })

/-- 512-byte sectors of a logical block. -/
def Ns.lbaSec (n : Ns) : Nat := if n.lbaFmt = 0 then 1 else 8

/-- Bytes of a logical block. -/
def Ns.lbaBytes (n : Ns) : Nat := 512 * n.lbaSec

/-- Whether a namespace is encrypted (R174). -/
def Ns.encrypted (n : Ns) : Bool := n.keyPage != 0xFFFF

/-- Blocks of the data area of a backing of C blocks (R174). -/
def dataArea (c : Nat) : Nat := c - (c + 128) / 129

/-- Logical blocks per stripe unit; one backing is one unit (R109, Table 4.5). -/
def Ns.unitLba (n : Ns) : Nat := 2 ^ n.stripeLog2 / n.lbaBytes

/-- Backing index and remote block of a local block (R109). -/
def Ns.place (n : Ns) (b : Nat) : Nat × Nat :=
  let k := n.backs.length
  if k ≤ 1 then (0, b)
  else
    let S := n.unitLba
    let u := b / S
    (u % k, u / k * S + b % S)

/-- Remote block of the tag record of a remote block (R174). -/
def Ns.tagOf (n : Ns) (back r : Nat) : Nat := dataArea (n.backs.getD back {}).blocks + r / 128

/-- Local blocks of a namespace over backings of given sizes (R109, R174). -/
def localBlocks (sizes : List Nat) (enc : Bool) (stripeLog2 lbaBytes : Nat) : Nat :=
  let d := sizes.map (fun c => if enc then dataArea c else c)
  match d with
  | [] => 0
  | x :: t =>
    let m := t.foldl min x
    if t.isEmpty then m else d.length * (m / (2 ^ stripeLog2 / lbaBytes) * (2 ^ stripeLog2 / lbaBytes))

/-- The I/O queues of an association; its first queue pair is the admin queue (R108). -/
def Target.ioQps (t : Target) : List Nat := t.qpns.drop 1

/-- Whether a target has a live queue. -/
def State.targetUp (s : State) (h : Nat) : Bool :=
  match aget s.sto.targets h with
  | some t => t.live && t.ioQps.any (fun q => match s.qp q with | some x => x.st == .rts | none => false)
  | none => false

/-- Whether every remote queue of a target has failed and not recovered (R111, log entry 14). -/
def State.targetDown (s : State) (h : Nat) : Bool :=
  match aget s.sto.targets h with
  | some t => t.ioQps.all (fun q => match s.qp q with | some x => x.st != .rts && (x.failed || !x.autoRec) | none => true)
  | none => true

/-- The remote queue that a command takes: reads spread over the live queues of the target, and drain writes do while dirty data exceeds
HI_PCT; below it they share the first. A command issued again takes another queue than `last` where there is one (R112, R117, log
entry 73). -/
def State.remoteQueue (s : State) (h code cid : Nat) (last : Option Nat) : Nat :=
  let all : List Nat := match aget s.sto.targets h with
    | some t => t.ioQps.filter (fun q => match s.qp q with | some x => x.st == .rts | none => false)
    | none => []
  let other := all.filter (fun q => some q != last)
  let live := if other.isEmpty then all else other
  let full := code == 1 || decide (s.sto.hiPct * 1048576 < 100 * (s.sto.wbuf.filter (fun w => w.dirty && w.zero == 0)).length)
  live.getD (if full then cid % live.length else 0) 0

/-- Sends a remote command to a backing: 1 read, 2 write with FUA, 3 write zeroes, 4 deallocate, after the queue that carries it (R109,
R112, R117, R118). -/
def State.remoteOut (s : State) (n : Ns) (back code cid rblk count : Nat) (data : Bytes) : State :=
  let b := n.backs.getD back {}
  let q := s.remoteQueue b.target code cid ((s.sto.remotes.find? (fun r => r.cid == cid)).bind (fun r => r.queue))
  (s.upSto (fun x => { x with remotes := lupd x.remotes (fun r => r.cid == cid) (fun r => { r with queue := some q }) })).emit .remoteIo b.target
    code cid (leBytes 4 q ++ leBytes 4 b.rnsid ++ leBytes 8 rblk ++ leBytes 4 count ++ data)

/-! ## The write buffer -/

/-- Whether a block of the buffer holds data of a namespace's 4 KiB block. -/
def WbBlock.is (w : WbBlock) (ctrl nsid blk : Nat) : Bool := w.ctrl == ctrl && w.nsid == nsid && w.blk == blk

/-- Dirty data blocks, each held twice (STO_WB_STAT.DIRTY_BLK); zero extents hold none (R114). -/
def Sto.dirtyBlk (x : Sto) : Nat := (x.wbuf.filter (fun w => w.dirty && w.zero == 0)).length

/-- Clean blocks. -/
def Sto.cleanBlk (x : Sto) : Nat := (x.wbuf.filter (fun w => !w.dirty)).length

/-- Dirty data blocks of a controller's native namespaces, which its quota bounds (R115, log entry 15). -/
def State.quotaUsed (s : State) (fn : Nat) : Nat :=
  (s.sto.wbuf.filter (fun w => w.dirty && w.zero == 0 && w.ctrl == fn &&
    (match s.ns fn w.nsid with | some n => n.mode == 0 | none => true))).length

/-- Dirty data of a namespace in MiB, rounded up (Table 4.3). -/
def State.nsDirtyMib (s : State) (ctrl nsid : Nat) : Nat :=
  ((s.sto.wbuf.filter (fun w => w.dirty && w.zero == 0 && w.ctrl == ctrl && w.nsid == nsid)).length + 255) / 256

/-- Whether a namespace has anything the backing has not acknowledged. -/
def State.nsDirty (s : State) (ctrl nsid : Nat) : Bool :=
  s.sto.wbuf.any (fun w => w.dirty && w.ctrl == ctrl && w.nsid == nsid)

/-- Mask of the sectors of 4 KiB block `blk` in a range of sectors. -/
def secMask (blk first count : Nat) : Nat :=
  ((List.range 8).filter (fun i => decide (first ≤ 8 * blk + i) && decide (8 * blk + i < first + count))).foldl
    (fun m i => m + 2 ^ i) 0

/-- 4 KiB blocks that a range of sectors touches. -/
def blocksOf (first count : Nat) : List Nat :=
  if count = 0 then [] else List.range' (first / 8) ((first + count - 1) / 8 + 1 - first / 8)

/-- Lays the sectors of a mask from one 4 KiB block over another. -/
def overlay (mask : Nat) (new old : Bytes) : Bytes :=
  (List.range 8).flatMap (fun i => if mask.testBit i then sub new (512 * i) 512 else padTo 512 (sub old (512 * i) 512))

/-- When the reads were admitted that still fetch from the 128 KiB range of a block: the next entry of the buffer then (R119). -/
def Sto.readers (x : Sto) (ctrl nsid blk : Nat) : List Nat :=
  (x.remotes.filter (fun r => r.kind == .read && r.ctrl == ctrl && r.nsid == nsid && decide (r.first / 256 ≤ blk / 32) &&
    decide (blk / 32 ≤ (r.first + r.count - 1) / 256))).map (fun r => r.after)

/-- Whether a later write may join a dirty block: one of its kind that is not being drained, and not where a read admitted since must not
see it (R116, R119). -/
def WbBlock.joins (w : WbBlock) (zero : Nat) (readers : List Nat) : Bool :=
  w.zero == zero && w.pend == 0 && !w.stuck && readers.all (fun a => decide (a ≤ w.seq))

/-- Data blocks that a write needs anew: none where it joins the newest dirty block of its place. -/
def State.newBlocks (s : State) (ctrl nsid first count : Nat) : Nat :=
  ((blocksOf first count).filter (fun b =>
    match (s.sto.wbuf.filter (fun w => w.is ctrl nsid b && w.dirty)).getLast? with
    | some w => !(w.joins 0 (s.sto.readers ctrl nsid b))
    | none => true)).length

/-- Evicts clean blocks, the least recently used first, until `n` fit (R114). -/
def evict : Nat → List WbBlock → Nat → List WbBlock
  | 0, l, _ => l
  | fuel + 1, l, n =>
    let slots := 2 * (l.filter (fun w => w.dirty && w.zero == 0)).length + (l.filter (fun w => !w.dirty)).length
    if slots + n ≤ 2097152 then l
    else
      match (l.filter (fun w => !w.dirty)).foldl (fun (m : Option WbBlock) w =>
          match m with
          | none => some w
          | some x => if w.used < x.used then some w else m) none with
      | none => l
      | some x => evict fuel (l.erase x) n

/-- Enters one 4 KiB block of a write into the buffer (R116): into the newest dirty block of its place where it may join it, else into a
new block, which takes over what it covers whole. -/
def wbPut (l : List WbBlock) (ctrl nsid blk mask zero wr seq now : Nat) (data : Bytes) (readers : List Nat) : List WbBlock :=
  let here := l.filter (fun w => w.is ctrl nsid blk && w.dirty)
  let l1 := (l.map (fun w => if w.is ctrl nsid blk && !w.dirty then { w with mask := w.mask - (w.mask &&& mask) } else w)).filter
    (fun w => w.dirty || w.mask != 0)
  match here.getLast? with
  | some w =>
    if w.joins zero readers then
      l1.map (fun x => if x == w then
        { w with mask := w.mask ||| mask, data := if zero = 0 then overlay mask data w.data else [], writes := w.writes ++ [wr] }
        else x)
    else
      let covered := here.filter (fun x => x.pend == 0 && x.mask &&& mask == x.mask)
      let x : WbBlock := { ctrl := ctrl, nsid := nsid, blk := blk, seq := seq, writes := covered.flatMap (fun y => y.writes) ++ [wr],
                           since := covered.foldl (fun m y => min m y.since) now, dirty := true, zero := zero, mask := mask,
                           data := data, used := now }
      l1.filter (fun y => !covered.contains y) ++ [x]
  | none =>
    l1 ++ [{ ctrl := ctrl, nsid := nsid, blk := blk, seq := seq, writes := [wr], since := now, dirty := true, zero := zero,
             mask := mask, data := data, used := now }]

/-- Enters a write into the buffer under a write number; blocks written are lost no longer (R116, R126). -/
def State.wbEnter (s : State) (n : Ns) (first count zero wr : Nat) (data : Bytes) : State :=
  let need := if zero = 0 then 2 * s.newBlocks n.ctrl n.nsid first count else 0
  let l0 := evict s.sto.wbuf.length s.sto.wbuf need
  let put := fun (a : List WbBlock × Nat) (b : Nat) =>
    let lo := max first (8 * b)
    let seg := zeros (512 * (lo - 8 * b)) ++ sub data (512 * (lo - first)) (512 * (min (first + count) (8 * b + 8) - lo))
    (wbPut a.1 n.ctrl n.nsid b (secMask b first count) zero wr a.2 s.now (if zero = 0 then padTo 4096 seg else [])
      (s.sto.readers n.ctrl n.nsid b), a.2 + 1)
  let r := (blocksOf first count).foldl put (l0, s.sto.nextSeq)
  let lo := first / n.lbaSec
  let hi := (first + count) / n.lbaSec
  (s.upSto (fun x => { x with wbuf := r.1, nextSeq := r.2 })).upNs n.ctrl n.nsid (fun m =>
    { m with lost := m.lost.filter (fun b => decide (b < lo ∨ hi ≤ b)) })

/-- Whether the buffer has space for a write, in its 4 GiB of dirty data and in its controller's quota (R114 to R116). -/
def State.wbRoom (s : State) (n : Ns) (first count zero : Nat) : Bool :=
  let k := if zero = 0 then s.newBlocks n.ctrl n.nsid first count else 0
  decide (s.sto.dirtyBlk + k ≤ 1048576) &&
    (k == 0 || n.mode != 0 || decide (s.quotaUsed n.ctrl + k ≤ 256 * (s.ctrl n.ctrl).quotaMib))

/-- The newest content of a sector in the buffer. -/
def State.wbSector (s : State) (ctrl nsid sec : Nat) : Option Bytes :=
  match (s.sto.wbuf.filter (fun w => w.is ctrl nsid (sec / 8) && w.mask.testBit (sec % 8))).getLast? with
  | none => none
  | some w => some (if w.zero ≠ 0 then zeros 512 else sub w.data (512 * (sec % 8)) 512)

/-- Write numbers still in dirty blocks. -/
def Sto.dirtyWrites (x : Sto) : List Nat := (x.wbuf.filter (fun w => w.dirty)).flatMap (fun w => w.writes)

/-! ## Operations outstanding -/

/-- Whether an operation is the command of a queue and identifier. -/
def NvmeOp.is (o : NvmeOp) (sqid cid : Nat) : Bool := o.cmd.sqid == sqid && o.cmd.cid == cid

/-- Changes an outstanding operation. -/
def State.upOp (s : State) (fn sqid cid : Nat) (f : NvmeOp → NvmeOp) : State :=
  s.upCtrl fn (fun c => { c with ops := lupd c.ops (fun o => o.is sqid cid) f })

/-- Removes an outstanding operation, with the remote reads it waited for (R128). -/
def State.dropOp (s : State) (fn sqid cid : Nat) : State :=
  (s.upCtrl fn (fun c => { c with ops := c.ops.filter (fun o => !o.is sqid cid) })).upSto (fun x =>
    { x with remotes := x.remotes.filter (fun r => r.op != some (fn, sqid, cid)) })

/-- Completes an outstanding operation. -/
def State.endOp (s : State) (fn sqid cid status : Nat) : State := (s.dropOp fn sqid cid).nvmeDone fn sqid cid status 0

/-- Whether a controller's commands are held: by an intermission, or by a reset of the write buffer (R88, R127). -/
def State.ctrlHeld (s : State) (fn : Nat) : Bool := s.held (uCtrl fn) || s.partHeld .wbuf

/-- Kinds of waiting commands: a detach, an association. -/
def wDetach : Nat := 20
def wAssoc : Nat := 21

/-- Whether a change of mode that waits for dirty data belongs to a scope: a controller, or the device (R122). -/
def State.modeWaits (s : State) (scope : Nat) : Bool := s.sto.modeWait.any (fun e => scope == uDevice || scope == uCtrl e.1)

/-- Key of a namespace in a waiting command. -/
def nsKey (ctrl nsid : Nat) : Nat := ctrl * 65536 + nsid

/-- Whether commands are outstanding on a namespace, the host's or the device's own (R113, R124). -/
def State.nsBusy (s : State) (ctrl nsid : Nat) : Bool :=
  (s.ctrl ctrl).ops.any (fun o => o.cmd.nsid == nsid) ||
    s.sto.ints.any (fun o => o.ctrl == ctrl && o.nsid == nsid && (o.waits || !o.parts.isEmpty || !o.need.isEmpty))

/-- Whether tag blocks of a namespace are still to be written (R176). -/
def State.tagsDirty (s : State) (ctrl nsid : Nat) : Bool :=
  s.cip.tags.any (fun t => t.ctrl == ctrl && t.nsid == nsid && (t.dirty || t.out || t.busy != 0))

/-- What the last chunk of a final VF_SAVE waits for; `aux` is the VF and 256 times the bytes written. -/
def wSave : Nat := 82

/-- Completes a final save once every dirty block of its VF is acknowledged; tracking ends with it (R466, R469). -/
def State.saveSettle (s : State) : State :=
  (s.cmd.waiting.filter (fun w => w.kind == wSave && !(s.sto.wbuf.any (fun b => b.dirty && b.ctrl == w.aux % 256)))).foldl (fun t w =>
    (t.upHost (fun h => { h with vfs := aupd h.vfs (w.aux % 256) (fun v =>
      { v with tracking := false }) })).finish w sOk 0 (w.aux / 256) w.stateCode) s

/-- Completes what the backing's acknowledgements complete: writes and flushes (R120, R121), a shutdown (R123), a
detach (R113), a change of mode (R122) and a final save (R469). A change of mode whose intermission was abandoned meanwhile is dropped
(R93). -/
def State.stoSettle (s : State) : State :=
  let dirty := s.sto.dirtyWrites
  let done := s.sto.ctrls.flatMap (fun e =>
    (e.2.ops.filter (fun o => (o.kind == .ack || o.kind == .flush) && o.need.all (fun w => !dirty.contains w))).map (fun o => (e.1, o.cmd.sqid, o.cmd.cid)))
  let s1 := done.foldl (fun t d => t.endOp d.1 d.2.1 d.2.2 0) s
  let s2 := s1.sto.ctrls.foldl (fun t e =>
    if e.2.shst = 1 ∧ !(t.sto.wbuf.any (fun w => w.dirty && w.ctrl == e.1)) then t.upCtrl e.1 (fun c => { c with shst := 2 }) else t) s1
  let gone := s2.sto.nss.filter (fun n => n.st == .detaching && !s2.nsBusy n.ctrl n.nsid && !s2.nsDirty n.ctrl n.nsid &&
    !s2.tagsDirty n.ctrl n.nsid)
  let s3 := gone.foldl (fun t n =>
    let u := t.upSto (fun x => { x with nss := x.nss.filter (fun m => !m.is n.ctrl n.nsid),
                                        wbuf := x.wbuf.filter (fun w => !(w.ctrl == n.ctrl && w.nsid == n.nsid)) })
    let v := u.upCip (fun c => { c with tags := c.tags.filter (fun b => !(b.ctrl == n.ctrl && b.nsid == n.nsid)) })
    (v.nsChanged n.ctrl n.nsid).finishAll (fun w => w.kind == wDetach && w.aux == nsKey n.ctrl n.nsid) sOk 0 0) s2
  let ready := s3.sto.modeWait.filter (fun e => !s3.nsDirty e.1 e.2)
  let live := fun (e : Nat × Nat) => s3.cmd.inters.any (fun r => r.ph == .restarting && (r.scope == uDevice || r.scope == uCtrl e.1))
  (ready.foldl (fun t e =>
    (if live e then t.upNs e.1 e.2 (fun n => { n with mode := 1 }) else t).upSto (fun x => { x with modeWait := x.modeWait.erase e })) s3).saveSettle

/-- Number that names an unspecified part of an Error asynchronous event (R126): type 0, log page 0x01. -/
def State.errorEvent (s : State) (fn : Nat) : State := s.spent.asyncEvent fn (65536 + 256 * s.freeNat 256)

/-- Ends the FUA writes and Flushes of a controller that wait for writes which will not be acknowledged, the host's and those of the device's
own writers (R124, Table 4.8). -/
def State.writesEnd (s : State) (ctrl : Nat) (writes : List Nat) : State :=
  let t := s.upSto (fun x => { x with ints := lupd x.ints (fun o => o.ctrl == ctrl && o.need.any writes.contains) (fun o =>
    { o with need := [], fail := some (nvmeSt 2 0x80 0) }) })
  ((t.ctrl ctrl).ops.filter (fun o => (o.kind == .ack || o.kind == .flush) && o.need.any (fun w => writes.contains w))).foldl
    (fun v o => v.endOp ctrl o.cmd.sqid o.cmd.cid (nvmeSt 2 0x80 0)) t

/-- What waits for the undrainable blocks of a namespace ends (R126, R184). -/
def State.stuckEnd (s : State) (ctrl nsid : Nat) : State :=
  s.writesEnd ctrl ((s.sto.wbuf.filter (fun w => w.stuck && w.ctrl == ctrl && w.nsid == nsid)).flatMap (fun w => w.writes))

/-- A namespace whose drain write failed non-retryably, or could not be sealed (R126, R175, R184); a detach that waits completes
STO_DIRTY_UNDRAINABLE and the namespace stays attached (R113). -/
def State.writeFailed (s : State) (ctrl nsid status : Nat) : State :=
  let t := (s.upNs ctrl nsid (fun n => { n with st := .writeFailed })).flag 7 0x02100000 46 (fun u => u.upSto (fun x => { x with wfail := true }))
  let u := (t.record (uCtrl ctrl) 0x0070 0 status 0 (.tenant ctrl)).errorEvent ctrl
  (u.finishAll (fun w => w.kind == wDetach && w.aux == nsKey ctrl nsid) 0x0012 0 0).stuckEnd ctrl nsid

/-! ## Draining -/

/-- Runs of sectors in a mask: (first, count). -/
def maskRuns (mask : Nat) : List (Nat × Nat) :=
  (List.range 8).filterMap (fun i =>
    if mask.testBit i && (i == 0 || !mask.testBit (i - 1)) then
      some (i, ((List.range' i (8 - i)).takeWhile (fun j => mask.testBit j)).length)
    else none)

/-- Whether a dirty block may be drained now: not issued, not refused, nothing older of its place is dirty (R116), and no read admitted
before it still fetches from its 128 KiB range (R119). -/
def Sto.drainable (x : Sto) (w : WbBlock) : Bool :=
  w.dirty && w.pend == 0 && !w.stuck && (x.readers w.ctrl w.nsid w.blk).all (fun a => decide (w.seq < a)) &&
    !(x.wbuf.any (fun y => y.is w.ctrl w.nsid w.blk && y.dirty && !y.stuck && decide (y.seq < w.seq)))

/-- Whether a dirty block is due: of age AGE_MS, or dirty data exceeds LO_PCT (R117). -/
def State.due (s : State) (w : WbBlock) : Bool :=
  decide (w.since + s.sto.ageMs * 1000000 ≤ s.now) || decide (s.sto.loPct * 1048576 < 100 * s.sto.dirtyBlk)

/-- Whether block `y` follows block `w` without a gap in its stripe unit, so that one remote write can carry both (R117). -/
def Ns.follows (n : Ns) (w y : WbBlock) : Bool :=
  y.zero == w.zero && w.mask.testBit 7 && y.mask.testBit 0 && (maskRuns y.mask).length == 1 &&
    (decide (n.backs.length ≤ 1) || 8 * y.blk / n.lbaSec / n.unitLba == 8 * w.blk / n.lbaSec / n.unitLba)

/-- The drainable blocks that follow a block without a gap, of its kind and in its stripe unit, up to 1 MiB (R117). -/
def State.drainRun (s : State) (n : Ns) (w : WbBlock) : Nat → List WbBlock
  | 0 => []
  | fuel + 1 =>
    match s.sto.wbuf.find? (fun y => y.is w.ctrl w.nsid (w.blk + 1) && s.sto.drainable y) with
    | none => []
    | some y => if n.follows w y then y :: (if y.mask = 255 then s.drainRun n y fuel else []) else []

/-- The first of the adjacent blocks that a block is merged with: a drain also takes the drainable blocks before a due one (R117). -/
def State.drainFrom (s : State) (n : Ns) (w : WbBlock) : Nat → WbBlock
  | 0 => w
  | fuel + 1 =>
    match (if w.blk = 0 then none else s.sto.wbuf.find? (fun y => y.is w.ctrl w.nsid (w.blk - 1) && s.sto.drainable y)) with
    | none => w
    | some y => if n.follows y w then (if y.mask = 255 then s.drainFrom n y fuel else y) else w

/-- Changes the block of the buffer with an entry number. -/
def State.upWb (s : State) (seq : Nat) (f : WbBlock → WbBlock) : State :=
  s.upSto (fun x => { x with wbuf := lupd x.wbuf (fun w => w.seq == seq) f })

/-- Issues one remote command, or keeps it until its backing has a live queue (R112). -/
def State.remoteIssue (s : State) (n : Ns) (r : Remote) (code count : Nat) (data : Bytes) : State :=
  let up := s.targetUp (n.backs.getD r.back {}).target
  let t := s.upSto (fun x => { x with remotes := x.remotes ++ [{ r with sent := up, issued := up }] })
  if up then t.remoteOut n r.back code r.cid r.rblk count data else t

/-- The bytes that a drain write carries: (entry, sector mask) in ascending order. -/
def State.drainData (s : State) (l : List (Nat × Nat)) : Bytes :=
  l.flatMap (fun e =>
    match s.sto.wbuf.find? (fun w => w.seq == e.1) with
    | some w => (List.range 8).flatMap (fun i => if e.2.testBit i then sub w.data (512 * i) 512 else [])
    | none => [])

/-- The remote command code of a kind of block. -/
def drainCode (zero : Nat) : Nat := if zero = 0 then 2 else if zero = 1 then 3 else 4

/-- Issues one drain write for a run of sectors: its entries with the sectors of each (R117). -/
def State.drainIssue (s : State) (n : Ns) (zero first count : Nat) (l : List (Nat × Nat)) : State :=
  let p := n.place (first / n.lbaSec)
  let r : Remote := { cid := s.sto.nextCid, kind := .drain, ctrl := n.ctrl, nsid := n.nsid, back := p.1, first := first,
                      count := count, rblk := p.2, seqs := l }
  let t := (l.foldl (fun t e => t.upWb e.1 (fun w => { w with pend := w.pend ||| e.2 })) s).upSto (fun x =>
    { x with nextCid := x.nextCid + 1 })
  t.remoteIssue n r (drainCode zero) (count / n.lbaSec) (if zero = 0 then s.drainData l else [])

/-- Drains a plain block with what follows it: one remote write for each run of sectors (R117). -/
def State.drainPlain (s : State) (n : Ns) (w : WbBlock) : State :=
  let rest := if w.mask.testBit 7 then s.drainRun n w 255 else []
  let runs := maskRuns w.mask
  runs.foldl (fun t r =>
    let m := (List.range' r.1 r.2).foldl (fun a i => a + 2 ^ i) 0
    let here := (w.seq, m)
    if r.1 + r.2 = 8 then
      let tail := rest.map (fun y => (y.seq, (match maskRuns y.mask with | (0, k) :: _ => 2 ^ k - 1 | _ => 0)))
      let more := (tail.map (fun e => (maskRuns e.2).foldl (fun a x => a + x.2) 0)).sum
      t.drainIssue n w.zero (8 * w.blk + r.1) (r.2 + more) (here :: tail)
    else t.drainIssue n w.zero (8 * w.blk + r.1) r.2 [here]) s

/-- Reads a tag block that the cache lacks (R176). -/
def State.tagFetch (s : State) (n : Ns) (back rblk : Nat) : State :=
  if s.sto.remotes.any (fun r => r.kind == .tagRead && r.ctrl == n.ctrl && r.nsid == n.nsid && r.back == back && r.rblk == rblk) then s
  else
    let r : Remote := { cid := s.sto.nextCid, kind := .tagRead, ctrl := n.ctrl, nsid := n.nsid, back := back, rblk := rblk, count := 8 }
    (s.upSto (fun x => { x with nextCid := x.nextCid + 1 })).remoteIssue n r 1 1 []

/-- Issues the write of a tag block, with the zero extents that it acknowledges; the command keeps the bytes, so that a reissue carries no
record of a data write acknowledged since (R112, R175, R176). -/
def State.tagWrite (s : State) (n : Ns) (t : TagBlk) (seqs : List (Nat × Nat)) : State :=
  let r : Remote := { cid := s.sto.nextCid, kind := .tagWrite, ctrl := n.ctrl, nsid := n.nsid, back := t.back, rblk := t.rblk, count := 8,
                      seqs := seqs, buf := [(0, t.data)] }
  ((s.upTag n.ctrl n.nsid t.back t.rblk (fun b => { b with dirty := false, out := true })).upSto (fun x =>
    { x with nextCid := x.nextCid + 1 })).remoteIssue n r 2 1 t.data

/-- Writes a dirty tag block whose data writes have all been acknowledged and that is not being written (R176). -/
def State.tagFlush (s : State) (n : Ns) (back rblk : Nat) : State :=
  match s.tagBlk n.ctrl n.nsid back rblk with
  | none => s
  | some t => if t.dirty ∧ t.busy = 0 ∧ !t.out then s.tagWrite n t [] else s

/-- Place of a local block's tag record: backing, tag block and byte (R174). -/
def Ns.recAt (n : Ns) (b : Nat) : Nat × Nat × Nat :=
  let p := n.place b
  (p.1, n.tagOf p.1 p.2, 32 * (p.2 % 128))

/-- The tag record of a local block, where the cache has it (R174, R176). -/
def State.tagRec (s : State) (n : Ns) (b : Nat) : Option TagRec :=
  let a := n.recAt b
  (s.tagBlk n.ctrl n.nsid a.1 a.2.1).map (fun t => TagRec.ofBytes (sub t.data a.2.2 32))

/-- The tag record that a read of a local block uses: the cache's, or where the cache had no room the one that came with its data (R176). -/
def State.tagRecOf (s : State) (n : Ns) (cid b : Nat) : Option TagRec :=
  let a := n.recAt b
  match s.tagRec n b with
  | some q => some q
  | none =>
    (s.sto.remotes.find? (fun r => r.cid == cid)).bind (fun r => (aget r.tagData a.2.1).map (fun d => TagRec.ofBytes (sub d a.2.2 32)))

/-- Changes the tag record of a local block in the cache. -/
def State.putTagRec (s : State) (n : Ns) (b : Nat) (r : TagRec) : State :=
  let a := n.recAt b
  s.upTag n.ctrl n.nsid a.1 a.2.1 (fun t =>
    { t with data := t.data.take a.2.2 ++ r.bytes ++ t.data.drop (a.2.2 + 32), dirty := true, used := s.now })

/-- Counts one data write more, or one less, on the tag block of a local block (R176). -/
def State.tagBusy (s : State) (n : Ns) (b : Nat) (f : Nat → Nat) : State :=
  let a := n.recAt b
  s.upTag n.ctrl n.nsid a.1 a.2.1 (fun t => { t with busy := f t.busy })

/-- Marks blocks undrainable. -/
def State.stick (s : State) (p : WbBlock → Bool) : State :=
  s.upSto (fun x => { x with wbuf := x.wbuf.map (fun w => if p w then { w with stuck := true } else w) })

/-- Drains adjacent blocks of an encrypted namespace as one remote write: each is sealed at a lane under the next write counter; zero
extents only clear WRITTEN in their records, once no data write of their tag block is outstanding (R175, R176, R184). -/
def State.drainSealed (s : State) (n : Ns) (w : WbBlock) (rest : List WbBlock) : State :=
  let a := n.recAt w.blk
  let fail := fun (u : State) => (u.stick (fun y => y.seq == w.seq)).writeFailed n.ctrl n.nsid 0
  match s.tagBlk n.ctrl n.nsid a.1 a.2.1, s.tagRec n w.blk with
  | some tb, some r =>
    if w.zero ≠ 0 then
      if tb.busy ≠ 0 ∨ tb.out then s
      else
        let l := w :: rest.takeWhile (fun y => (n.recAt y.blk).2.1 == a.2.1)
        let t := l.foldl (fun t y => match t.tagRec n y.blk with
          | some q => (t.putTagRec n y.blk { q with written := false }).upWb y.seq (fun x => { x with pend := x.mask })
          | none => t) s
        match t.tagBlk n.ctrl n.nsid a.1 a.2.1 with
        | some tb => t.tagWrite n tb (l.map (fun y => (y.seq, y.mask)))
        | none => t
    else if r.ctr = 0xFFFFFFFF then fail s
    else if !(s.storagePage n.keyPage n.ctrl) then fail (s.noKey n.keyPage)
    else
      let l := w :: rest.takeWhile (fun y => match s.tagRec n y.blk with
        | some q => q.ctr != 0xFFFFFFFF
        | none => false)
      let cid := s.sto.nextCid
      match l.foldl (fun (t : Option State) y => t.bind (fun t => t.submit { page := n.keyPage, use := .seal cid y.blk, data := y.data } none)) (some s) with
      | none => fail s
      | some u =>
        let q : Remote := { cid := cid, kind := .drain, ctrl := n.ctrl, nsid := n.nsid, back := a.1, first := 8 * w.blk,
                            count := 8 * l.length, rblk := (n.place w.blk).2, seqs := l.map (fun y => (y.seq, 255)), units := l.length,
                            sent := false, tags := l.foldl (fun m y => ladd m (n.recAt y.blk).2.1) [] }
        (l.foldl (fun t y => (t.upWb y.seq (fun x => { x with pend := 255 })).tagBusy n y.blk (· + 1)) u).upSto
          (fun x => { x with nextCid := x.nextCid + 1, remotes := x.remotes ++ [q] })
  | _, _ => s.tagFetch n a.1 a.2.1

/-- Every lane is fenced: no data block of an encrypted namespace can be drained any more, and it is WRITE_FAILED; a drain write already issued
ends by its own acknowledgement (R184). -/
def State.noLanes (s : State) (n : Ns) : State :=
  let t := s.stick (fun y => y.dirty && y.zero == 0 && y.pend == 0 && y.ctrl == n.ctrl && y.nsid == n.nsid)
  if n.st = .writeFailed then t.stuckEnd n.ctrl n.nsid else t.writeFailed n.ctrl n.nsid 0

/-- Drains one due block of a namespace, with those it merges with. -/
def State.drainOne (s : State) (w : WbBlock) : State :=
  match s.ns w.ctrl w.nsid with
  | none => s
  | some n =>
    match s.sto.wbuf.find? (fun y => y.seq == w.seq) with
    | none => s
    | some y =>
      if !(s.sto.drainable y) ∨ !(s.targetUp (n.backs.getD (n.place (8 * y.blk / n.lbaSec)).1 {}).target) then s
      else if n.encrypted ∧ s.lanesUp.isEmpty ∧ y.zero = 0 then s.noLanes n
      else
        let z := s.drainFrom n y 255
        if n.encrypted then s.drainSealed n z (s.drainRun n z 255) else s.drainPlain n z

/-- Sectors of a block's place that entries later than it cover. -/
def Sto.laterMask (x : Sto) (w : WbBlock) : Nat :=
  (x.wbuf.filter (fun y => y.is w.ctrl w.nsid w.blk && y.dirty && decide (w.seq < y.seq))).foldl (fun m y => m ||| y.mask) 0

/-- The backing holds what a block wrote: undrainable older blocks of its place lose those sectors, which are never read nor drained again
(R116, R119). -/
def State.wbPassed (s : State) (w : WbBlock) : State :=
  s.upSto (fun x => { x with wbuf := (lupd x.wbuf (fun y => y.is w.ctrl w.nsid w.blk && y.stuck && decide (y.seq < w.seq)) (fun y =>
    { y with mask := y.mask - (y.mask &&& w.mask) })).filter (fun y => y.mask != 0) })

/-- Makes sectors of a block acknowledged; once all are, the block is clean but for what later writes cover, and a zero extent is dropped
(R114, R116, R117). -/
def State.wbAck (s : State) (seq mask : Nat) : State :=
  match s.sto.wbuf.find? (fun w => w.seq == seq) with
  | none => s
  | some w =>
    let p := w.pend - (w.pend &&& mask)
    if p ≠ 0 ∨ w.stuck then s.upWb seq (fun w => { w with pend := p })
    else if w.zero ≠ 0 then (s.upSto (fun x => { x with wbuf := x.wbuf.filter (fun y => y.seq != seq) })).wbPassed w
    else
      (s.wbPassed w).upSto (fun x =>
        let old := x.wbuf.filter (fun y => y.is w.ctrl w.nsid w.blk && !y.dirty)
        let later := x.laterMask w
        let c : WbBlock := old.foldl (fun c y =>
          { c with data := overlay c.mask c.data y.data, mask := c.mask ||| y.mask })
          { w with dirty := false, pend := 0, writes := [], used := s.now }
        let c' := { c with mask := c.mask - (c.mask &&& later) }
        { x with wbuf := ((x.wbuf.filter (fun y => !(old.contains y))).map (fun y => if y.seq = seq then c' else y)).filter (fun y =>
            y.dirty || y.mask != 0) })

/-- Issues the remote commands that waited for a live queue of their target; one issued before is counted as reissued (R112). -/
def State.stoReissue (s : State) : State :=
  let go := s.sto.remotes.filter (fun r => !r.sent && r.units == 0 &&
    (match s.ns r.ctrl r.nsid with
     | some n => s.targetUp (n.backs.getD r.back {}).target
     | none => false))
  go.foldl (fun t r =>
    match t.ns r.ctrl r.nsid with
    | none => t
    | some n =>
      let zero := match t.sto.wbuf.find? (fun w => some w.seq == (r.seqs.head?.map (fun e => e.1))) with
        | some w => w.zero
        | none => 0
      let data := match r.kind with
        | .drain => if r.buf.isEmpty then t.drainData r.seqs else r.buf.flatMap (fun e => e.2.take 4096)
        | .tagWrite => r.buf.flatMap (fun e => e.2)
        | _ => []
      let code := match r.kind with
        | .read => 1 | .tagRead => 1 | .tagWrite => 2 | .drain => drainCode zero
      ((t.upSto (fun x =>
        { x with errReissue := satu 65535 (x.errReissue + b2n r.issued),
                 remotes := lupd x.remotes (fun y => y.cid == r.cid) (fun y => { y with sent := true, issued := true }) })).remoteOut
          n r.back code r.cid r.rblk (r.count / n.lbaSec) (if code = 3 ∨ code = 4 then [] else data))) s

/-- Recomputes which namespaces are BACKING_DOWN, and issues again what waited (R111, R112). -/
def State.stoRefresh (s : State) : State :=
  let t := s.upSto (fun x => { x with nss := x.nss.map (fun n =>
    let down := (List.range n.backs.length).filter (fun i => s.targetDown (n.backs.getD i {}).target)
    let st := match n.st with
      | .online => if down.isEmpty then NsState.online else .backingDown
      | .backingDown => if down.isEmpty then .online else .backingDown
      | y => y
    { n with downBacks := down, st := st }) })
  t.stoReissue

/-! ## Controller reset -/

/-- A reset of a controller (R105, R123): its commands end, its queues go and its contexts return; dirty data stays, and what waited for
the commands goes on (R113). -/
def State.ctrlReset (s : State) (fn : Nat) : State :=
  let c := s.ctrl fn
  let t := c.ops.foldl (fun t o => t.dropOp fn o.cmd.sqid o.cmd.cid) s
  ((t.ctxGive c.grantCtx).upCtrl fn (fun c =>
    { c with en := false, rdy := false, cc := 0, shn := 0, shst := 0, queues := [], ops := [], aers := [], aerPend := [], aerMask := [],
             cqeWait := [], grant := 0, grantCtx := [], arb := 0, coal := 0, aec := 0 })).stoSettle

end Sys2Proof.Machine
end

