-- ==== Sys2Proof/Machine/StoRead.lean ====
section
/-!
DEFINITION. How a read of a namespace is admitted, for the host and for the device's own readers, and the device's own readers and writers
(R118, R119, R124).
-/
namespace Sys2Proof.Machine

open Sys2Proof

/-! ## Namespaces as commands reach them -/

/-- The namespace that a command reaches, DETACHING ones left out (R106, R125). -/
def State.nsFor (s : State) (fn nsid : Nat) : Option Ns :=
  match s.ns fn nsid with
  | some n => if n.st = .detaching then none else some n
  | none => none

/-- Backings that a range of sectors touches. -/
def Ns.backsOf (n : Ns) (first count : Nat) : List Nat :=
  (List.range' (first / n.lbaSec) ((count + n.lbaSec - 1) / n.lbaSec)).foldl (fun l b => ladd l (n.place b).1) []

/-- Whether an operation on a range needs a backing that is down (R112). -/
def Ns.needsDown (n : Ns) (first count : Nat) : Bool :=
  n.st == .backingDown && (n.backsOf first count).any (fun b => n.downBacks.contains b)

/-- Splits a run of sectors at stripe units: (first, count) of each part (R109, R118). -/
def Ns.split (n : Ns) : Nat → Nat → Nat → List (Nat × Nat)
  | 0, _, _ => []
  | fuel + 1, first, count =>
    if count = 0 then []
    else if n.backs.length ≤ 1 then [(first, count)]
    else
      let u := n.unitLba * n.lbaSec
      let k := min count (u - first % u)
      (first, k) :: n.split fuel (first + k) (count - k)

/-- Maximal runs of the sectors that a test picks out. -/
def secRuns (p : Nat → Bool) (first count : Nat) : List (Nat × Nat) :=
  (List.range' first count).filterMap (fun i =>
    if p i && (i == first || !p (i - 1)) then
      some (i, ((List.range' i (first + count - i)).takeWhile p).length)
    else none)

/-- Who waits for a remote read: a host command, or a reader of the device's own. -/
inductive ReadFor where
  | host (fn sqid cid : Nat)
  | own (u : IntUse)
deriving DecidableEq, Repr

/-- Changes an internal operation. -/
def State.upInt (s : State) (u : IntUse) (f : IntOp → IntOp) : State :=
  s.upSto (fun x => { x with ints := lupd x.ints (fun o => o.use == u) f })

/-- An internal operation. -/
def State.intOp (s : State) (u : IntUse) : Option IntOp := s.sto.ints.find? (fun o => o.use == u)

/-- Issues the remote read of one part of a read that was admitted at entry `after`: for an encrypted namespace with the tag blocks that
the cache lacks (R118, R119, R176). -/
def State.readPart (s : State) (x : Ns) (who : ReadFor) (after : Nat) (p : Nat × Nat) (retry : Option Nat) : State :=
  let pl := x.place (p.1 / x.lbaSec)
  let tags := if x.encrypted then (List.range' pl.2 (p.2 / 8)).foldl (fun l r => ladd l (x.tagOf pl.1 r)) [] else []
  let cid := s.sto.nextCid
  let r : Remote := { cid := cid, kind := .read, ctrl := x.ctrl, nsid := x.nsid, back := pl.1, first := p.1, count := p.2, rblk := pl.2,
                      tblks := tags.filter (fun b => (s.tagBlk x.ctrl x.nsid pl.1 b).isNone), tags := tags, retry := retry, after := after }
  let t := s.upSto (fun y => { y with nextCid := y.nextCid + 1 })
  match who with
  | .host fn sq c =>
    (t.upOp fn sq c (fun o => { o with parts := o.parts ++ [cid] })).remoteIssue x { r with op := some (fn, sq, c) } 1 (p.2 / x.lbaSec) []
  | .own u =>
    (t.upInt u (fun o => { o with parts := o.parts ++ [cid] })).remoteIssue x { r with int := some u } 1 (p.2 / x.lbaSec) []

/-- The sectors of a range that the buffer holds, and the runs that must come from the backing, each within a stripe unit (R118). -/
def State.readPlan (s : State) (x : Ns) (first count : Nat) : List (Nat × Bytes) × List (Nat × Nat) :=
  ((List.range' first count).filterMap (fun i => (s.wbSector x.ctrl x.nsid i).map (fun b => (i, b))),
   (secRuns (fun i => (s.wbSector x.ctrl x.nsid i).isNone) first count).flatMap (fun r => x.split r.2 r.1 r.2))

/-- What refuses a read of blocks of a namespace: a lost block, a backing that is down, no lane for what must be opened (R112, R126,
R184). -/
def State.readStop (s : State) (x : Ns) (slba nlb : Nat) (parts : List (Nat × Nat)) : Option Nat :=
  if x.lost.any (fun b => decide (slba ≤ b) && decide (b < slba + nlb)) then some (nvmeSt 2 0x81 1)
  else if parts.any (fun p => x.needsDown p.1 p.2) then some (nvmeSt 0 0x82 0)
  else if x.encrypted ∧ s.lanesUp.isEmpty ∧ !parts.isEmpty then some (nvmeSt 0 6 1)
  else none

/-- The clean blocks of a range are used (R114). -/
def State.wbUse (s : State) (x : Ns) (first count : Nat) : State :=
  s.upSto (fun y => { y with wbuf := lupd y.wbuf (fun w =>
    w.ctrl == x.ctrl && w.nsid == x.nsid && !w.dirty && (blocksOf first count).contains w.blk) (fun w => { w with used := s.now }) })

/-! ## Internal readers (R124) -/

/-- Forgets an internal operation, with the remote reads it waited for. -/
def State.intDrop (s : State) (u : IntUse) : State :=
  s.upSto (fun x => { x with ints := x.ints.filter (fun o => o.use != u), remotes := x.remotes.filter (fun r => r.int != some u) })

/-- Forgets the internal operations whose reader or writer is gone. -/
def State.intDropIf (s : State) (p : IntUse → Bool) : State :=
  s.upSto (fun x => { x with ints := x.ints.filter (fun o => !p o.use), remotes := x.remotes.filter (fun r => !(r.int.any p)) })

/-- Admits an internal read that waits, as a host's READ is admitted: it waits while its controller is held (R88, R118, R127). -/
def State.intAdmit (s : State) (u : IntUse) : State :=
  match s.intOp u with
  | none => s
  | some o =>
    if !o.waits ∨ s.ctrlHeld o.ctrl then s
    else
      let t := s.upInt u (fun o => { o with waits := false, after := s.sto.nextSeq })
      match s.nsFor o.ctrl o.nsid with
      | none => t.upInt u (fun o => { o with fail := some (nvmeSt 0 0x0B 1) })
      | some x =>
        let slba := o.off / x.lbaBytes
        let nlb := (o.off + o.len + x.lbaBytes - 1) / x.lbaBytes - slba
        if x.capacity < slba + nlb then t.upInt u (fun o => { o with fail := some (nvmeSt 0 0x80 1) })
        else
          let p := s.readPlan x (slba * x.lbaSec) (nlb * x.lbaSec)
          match s.readStop x slba nlb p.2 with
          | some e => t.upInt u (fun o => { o with fail := some e })
          | none =>
            p.2.foldl (fun t r => t.readPart x (.own u) s.sto.nextSeq r none)
              ((t.wbUse x (slba * x.lbaSec) (nlb * x.lbaSec)).upInt u (fun o => { o with got := p.1 }))

/-- Begins an internal read of bytes of a namespace. -/
def State.intBegin (s : State) (u : IntUse) (ctrl nsid off len : Nat) : State :=
  (((s.intDrop u).upSto (fun x => { x with ints := x.ints ++ [{ use := u, ctrl := ctrl, nsid := nsid, off := off, len := len, waits := true }] })).emit
    .intRead nsid off len []).intAdmit u

/-- A part of an internal read has arrived. -/
def State.intGot (s : State) (u : IntUse) (r : Remote) (b : Bytes) : State :=
  (s.upSto (fun x => { x with remotes := x.remotes.filter (fun y => y.cid != r.cid) })).upInt u (fun o =>
    { o with parts := ldel o.parts r.cid, got := o.got ++ (List.range r.count).map (fun i => (r.first + i, padTo 512 (sub b (512 * i) 512))) })

/-- An internal read ends with a status (R125). -/
def State.intFail (s : State) (u : IntUse) (status : Nat) : State :=
  (s.upSto (fun x => { x with remotes := x.remotes.filter (fun r => r.int != some u) })).upInt u (fun o =>
    { o with parts := [], fail := some status })

/-- What a row of the reader brings: for a plain namespace the answers of the parts still outstanding, cut out of `data`, the bytes that
the backing holds from the read's first byte on. The parts of an encrypted namespace are opened at lanes, and come by their own rows
(log entry 74). -/
def State.intFeed (s : State) (u : IntUse) (data : Bytes) : State :=
  match s.intOp u with
  | none => s
  | some o =>
    match s.ns o.ctrl o.nsid with
    | none => s
    | some x =>
      if x.encrypted then s
      else
        let first := o.off / x.lbaBytes * x.lbaSec
        let b := zeros (o.off - 512 * first) ++ data
        (s.sto.remotes.filter (fun r => r.int == some u && r.sent)).foldl (fun t r =>
          t.intGot u r (sub b (512 * (r.first - first)) (512 * r.count))) s

/-- The bytes of an internal read that is complete. -/
def IntOp.bytes (o : IntOp) : Bytes :=
  sub ((List.range' (o.off / 512) ((o.off + o.len + 511) / 512 - o.off / 512)).flatMap (fun i => agetD o.got i (zeros 512))) (o.off % 512) o.len

/-- A row of an internal reader: begins the read where it has not begun, takes what the row brings, and hands the bytes over once they are
all there; a status with DNR 0 makes the reader ask again, any other ends the read (R118, R124, R125, log entry 74). -/
def State.intRow (s : State) (u : IntUse) (ctrl nsid off len : Nat) (data : Bytes) : State × Option (Except Nat Bytes) :=
  let going := match s.intOp u with
    | some o => o.ctrl == ctrl && o.nsid == nsid && o.off == off && o.len == len
    | none => false
  let t := ((if going then s else s.intBegin u ctrl nsid off len).intAdmit u).intFeed u data
  match t.intOp u with
  | none => (t, none)
  | some o =>
    match o.fail with
    | some e => (t.intDrop u, if e / 16384 % 2 = 1 then some (.error e) else none)
    | none => if o.waits ∨ !o.parts.isEmpty then (t, none) else (t.intDrop u, some (.ok o.bytes))

/-! ## Internal writers (R124) -/

/-- The writes that carry bytes to a namespace from an offset on, 1 MiB at most each. -/
def intWrites (fua : Bool) : Nat → Nat → Bytes → List IntStep
  | 0, _, _ => []
  | fuel + 1, off, b =>
    if b.isEmpty then []
    else .write off fua (b.take 1048576) :: intWrites fua fuel (off + 1048576) (b.drop 1048576)

/-- Carries an internal writer as far as the front end lets it: its writes enter the buffer as a host's do, in its namespace's mode; a
Flush and a write with FUA wait for the backing; a namespace that is not ONLINE keeps it waiting (R116, R120, R121, R124, R385). -/
def State.intAdvance : Nat → State → IntUse → State
  | 0, s, _ => s
  | fuel + 1, s, u =>
    match s.intOp u with
    | none => s
    | some o =>
      let dirty := s.sto.dirtyWrites
      if o.need.any (fun w => dirty.contains w) ∨ o.fail.isSome ∨ s.ctrlHeld o.ctrl then s
      else match o.todo, s.nsFor o.ctrl o.nsid with
        | .flush :: l, some _ =>
          State.intAdvance fuel (s.upInt u (fun o =>
            { o with todo := l, need := (s.sto.wbuf.filter (fun w => w.dirty && w.ctrl == o.ctrl && w.nsid == o.nsid)).flatMap (fun w => w.writes) })) u
        | .write off fua b :: l, some x =>
          let first := off / 512
          let count := (b.length + x.lbaBytes - 1) / x.lbaBytes * x.lbaSec
          if x.st ≠ .online ∨ x.capacity * x.lbaSec < first + count then s
          else if s.wbRoom x first count 0 then
            let w := s.sto.nextOp
            let t := (s.upSto (fun y => { y with nextOp := w + 1 })).wbEnter x first count 0 w (padTo (512 * count) b)
            State.intAdvance fuel (t.upInt u (fun o => { o with todo := l, space := false, need := if x.mode = 0 ∧ !fua then [] else [w] })) u
          else s.upInt u (fun o => { o with space := true })
        | _, _ => s.upInt u (fun o => { o with need := [] })

/-- Carries every internal writer on. -/
def State.intAdvanceAll (s : State) : State := s.sto.ints.foldl (fun t o => t.intAdvance (o.todo.length + 1) o.use) s

/-- Whether an internal writer has written everything and all of it has been acknowledged as its mode asks. -/
def State.intWritten (s : State) (u : IntUse) : Bool :=
  match s.intOp u with
  | some o => o.todo.isEmpty && o.fail.isNone && o.need.all (fun w => !s.sto.dirtyWrites.contains w)
  | none => false

end Sys2Proof.Machine
end

