-- ==== Sys2Proof/Machine/Sto.lean ====
section
/-!
DEFINITION. The storage front end's commands (chapter 4): NVMe rows, the write buffer's rows and the class 0x09 opcodes.
-/
namespace Sys2Proof

open Machine

/-- First logical block of an I/O command. -/
def NvmeCmd.slba (n : NvmeCmd) : Nat := n.cdw10 + 4294967296 * n.cdw11

/-- Logical blocks of an I/O command. -/
def NvmeCmd.nlb (n : NvmeCmd) : Nat := n.cdw12 % 65536 + 1

/-- Force Unit Access. -/
def NvmeCmd.fua (n : NvmeCmd) : Bool := bit n.cdw12 30

end Sys2Proof

namespace Sys2Proof.Machine

open Sys2Proof

/-! ## Controller registers (R102, R123) -/

/-- A write of the NVMe registers that the host may make now. -/
def nvmeReg (fn : Nat) (s : State) (f : State → State) : Res :=
  .next (if !(s.hostUp && s.fnEnabled fn) then s
    else if s.inFlr fn then (s.ao 11 4).emit .unsupported fn 0x14 0 []
    else if s.vfFrozen fn then (s.ao 11 4).frozenWrite fn
    else f (s.ao 11 4))

/-- NVME_CC_ENABLE: the admin queues go live and CSTS.RDY reads 1 (R102). -/
def execNvmeCcEnable (fn cc : Nat) (s : State) : Res :=
  nvmeReg fn s (fun s =>
    let c := s.ctrl fn
    if c.en ∨ !bit cc 0 then s
    else
      let sq : QueueRec := { cq := false, qid := 0, base := c.asq, size := fld (leBytes 4 c.aqa) 0 2 % 4096 + 1, cqid := 0 }
      let cq : QueueRec := { cq := true, qid := 0, base := c.acq, size := fld (leBytes 4 c.aqa) 2 2 % 4096 + 1, vector := 0 }
      s.upCtrl fn (fun c => { c with en := true, rdy := true, cc := cc, shn := 0, shst := 0, queues := [sq, cq] }))

/-- NVME_CC_DISABLE (R105, R123). -/
def execNvmeCcDisable (fn _cc : Nat) (s : State) : Res :=
  nvmeReg fn s (fun s => if (s.ctrl fn).en then s.ctrlReset fn else s)

/-- NVME_SHUTDOWN: SHST reads complete only once all dirty data of the controller is acknowledged (R123). -/
def execNvmeShutdown (fn cc : Nat) (s : State) : Res :=
  nvmeReg fn s (fun s =>
    if bits cc 14 2 = 0 then s.upCtrl fn (fun c => { c with cc := cc, shn := 0 })
    else (s.upCtrl fn (fun c => { c with cc := cc, shn := bits cc 14 2, shst := 1 })).stoSettle)

/-- Takes a submission queue doorbell (R102). -/
def State.nvmeSqBell (s : State) (fn qid val : Nat) : State :=
  match (s.ctrl fn).queue false qid with
  | none => s
  | some q => if val < q.size then s.upQueue fn false qid (fun q => { q with tail := val }) else s

/-- Takes a completion queue doorbell (R102). -/
def State.nvmeCqBell (s : State) (fn qid val : Nat) : State :=
  match (s.ctrl fn).queue true qid with
  | none => s
  | some q =>
    if val < q.size then
      (s.upQueue fn true qid (fun q => { q with head := val })).postWaiting ((s.ctrl fn).cqeWait.length) fn qid
    else s

/-- NVME_CQ_DOORBELL: completion entries are free again (R102). -/
def execNvmeCqDoorbell (fn qid val : Nat) (s : State) : Res := bell s fn (0x1004 + 8 * qid) val (fun s => s.nvmeCqBell fn qid val)

/-! ## Fetching a command -/

/-- Whether a controller fetches commands now (R102, R457, R467). -/
def State.ctrlServes (s : State) (fn : Nat) : Bool :=
  let c := s.ctrl fn
  s.live && s.fnEnabled fn && !s.inFlr fn && !s.vfFrozen fn && c.en && c.rdy && c.shst == 0

/-- Fetches one entry of a submission queue; none where there is none. An I/O queue pair uses its context (R105, R163). -/
def State.nvmeFetch (s : State) (n : NvmeCmd) : Option State :=
  if !s.ctrlServes n.fn then none
  else match (s.ctrl n.fn).queue false n.sqid with
    | none => none
    | some q =>
      if q.head = q.tail then none
      else
        let t := match (s.ctrl n.fn).grantCtx[n.sqid - 1]? with
          | some k => if n.sqid = 0 then s else s.ctxUse k
          | none => s
        some ((t.hostRead n.fn (q.base + 64 * q.head) 64).upQueue n.fn false n.sqid (fun q =>
          { q with head := (q.head + 1) % q.size }))

/-- Completes a command that is not outstanding. -/
def State.cqe (s : State) (n : NvmeCmd) (status dw0 : Nat) : State := s.nvmeDone n.fn n.sqid n.cid status dw0

/-- Whether an opcode of the admin queue, or of an I/O queue, is in Table 4.1. -/
def inTable41 (admin : Bool) (opcode : Nat) : Bool :=
  (if admin then [0, 1, 2, 4, 5, 6, 8, 9, 10, 12] else [0, 1, 2, 8, 9]).contains opcode

/-- Fetches an entry whose opcode is not in Table 4.1: Invalid Command Opcode (R103, Table 4.8). -/
def nvmeOther (fn qid : Nat) (o : OtherNvme) (s : State) : State :=
  if o.cmd.fn = fn ∧ o.cmd.sqid = qid ∧ inTable41 (qid == 0) o.opcode = false then
    match s.nvmeFetch o.cmd with
    | none => s
    | some t => t.cqe o.cmd (nvmeSt 0 1 1) 0
  else s

/-- NVME_SQ_DOORBELL: new commands are fetchable (R102), and an entry of an opcode without a row may then be fetched (R103). A doorbell of
a frozen VF is latched (Table 17.9). -/
def execNvmeSqDoorbell (fn qid : Nat) (val : NvmeBell) (s : State) : Res :=
  match bell s fn (0x1000 + 8 * qid) val.idx (fun s => s.nvmeSqBell fn qid val.idx), val.other with
  | .next t, some o => .next (nvmeOther fn qid o t)
  | r, _ => r

/-- An admin command: it arrives on queue 0; with an SGL it completes Invalid Field (R103). -/
def nvmeAdmin (n : NvmeCmd) (s : State) (f : State → State) : Res :=
  .next (if n.sqid ≠ 0 then s
    else match s.nvmeFetch n with
      | none => s
      | some t => if n.psdt ≠ 0 then t.cqe n (nvmeSt 0 2 1) 0 else f t)

/-- An I/O command: while its controller is held it waits, and it goes on when it comes again and nothing holds it. What is held starts in
the order in which it came, and a new command waits behind it (R88, R127, log entry 10). -/
def nvmeIo (n : NvmeCmd) (s : State) (f : State → State) : Res :=
  .next (if n.sqid = 0 then s
    else if (s.ctrl n.fn).ops.any (fun o => o.kind == .held && o.cmd == n) then
      if s.live && !s.ctrlHeld n.fn && ((s.ctrl n.fn).ops.find? (fun o => o.kind == .held)).any (fun o => o.cmd == n) then
        f (s.dropOp n.fn n.sqid n.cid)
      else s
    else match s.nvmeFetch n with
      | none => s
      | some t =>
        if n.psdt ≠ 0 then t.cqe n (nvmeSt 0 2 1) 0
        else if t.ctrlHeld n.fn ∨ (t.ctrl n.fn).ops.any (fun o => o.kind == .held) then
          t.upCtrl n.fn (fun c => { c with ops := c.ops ++ [{ fn := n.fn, cmd := n, kind := .held }] })
        else f t)

/-! ## Data pointers (R103) -/

/-- Host address of byte `off` of a transfer, from its PRP entries; `list` holds the PRP list where there is one. -/
def prpAddr (mps prp1 prp2 len : Nat) (list : Bytes) (off : Nat) : Nat :=
  let o := prp1 % mps
  let k := (o + off) / mps
  let at_ := (o + off) % mps
  if k = 0 then prp1 + off
  else if o + len ≤ 2 * mps then prp2 + at_
  else fld list (8 * (k - 1)) 8 + at_

/-- The memory page size that a controller's CC.MPS sets. -/
def State.mps (s : State) (fn : Nat) : Nat := 4096 * 2 ^ bits (s.ctrl fn).cc 7 4

/-- Entries of the PRP list of a transfer: none where two pages hold it. -/
def State.prpCount (s : State) (n : NvmeCmd) (len : Nat) : Nat :=
  let o := n.prp1 % s.mps n.fn
  if o + len ≤ 2 * s.mps n.fn then 0 else (o + len + s.mps n.fn - 1) / s.mps n.fn - 1

/-- Reads the bytes of a transfer from the pages that PRP1, PRP2 and the PRP list name. -/
def State.prpPages : Nat → State → NvmeCmd → Nat → Bytes → Nat → State
  | 0, s, _, _, _, _ => s
  | fuel + 1, s, n, len, list, off =>
    if len ≤ off then s
    else
      let a := prpAddr (s.mps n.fn) n.prp1 n.prp2 len list off
      let k := min (len - off) (s.mps n.fn - a % s.mps n.fn)
      State.prpPages fuel (s.hostRead n.fn a k) n len list (off + k)

/-- Fetches the data of a transfer from host memory: its PRP list where it has one, then its pages in order (R103). What the command reads
from the host, `data`, is the transfer and after it the entries of the list (log entry 3). -/
def State.prpFetch (s : State) (n : NvmeCmd) (len : Nat) : State :=
  let k := s.prpCount n len
  let t := if k = 0 then s else s.hostRead n.fn n.prp2 (8 * k)
  t.prpPages (len / 4096 + 2) n len (n.data.drop len) 0

/-- Fetches the PRP list of a transfer to host memory, where it has one (R103). -/
def State.prpList (s : State) (n : NvmeCmd) (len : Nat) : State :=
  let k := s.prpCount n len
  if k = 0 then s else s.hostRead n.fn n.prp2 (8 * k)

/-- Writes bytes of a read to the host memory that its command names, from an offset of the transfer on. -/
def State.prpWrite : Nat → State → NvmeCmd → Nat → Nat → Bytes → State
  | 0, s, _, _, _, _ => s
  | fuel + 1, s, n, len, off, b =>
    if b.isEmpty then s
    else
      let mps := s.mps n.fn
      let a := prpAddr mps n.prp1 n.prp2 len n.data off
      let k := min b.length (mps - a % mps)
      State.prpWrite fuel (s.hostWrite n.fn a (b.take k)) n len (off + k) (b.drop k)

/-! ## Admin commands -/

/-- Status of Invalid Field in Command (Table 4.8). -/
def stField : Nat := nvmeSt 0 2 1

/-- DELETE_IO_SQ: commands of the queue that have not completed end with it (R103). -/
def execDeleteIoSq (n : NvmeCmd) (s : State) : Res :=
  nvmeAdmin n s (fun s =>
    let q := n.cdw10 % 65536
    match (s.ctrl n.fn).queue false q with
    | none => s.cqe n (nvmeSt 1 1 1) 0
    | some _ =>
      if q = 0 then s.cqe n (nvmeSt 1 1 1) 0
      else
        let t := ((s.ctrl n.fn).ops.filter (fun o => o.cmd.sqid == q)).foldl (fun t o => t.endOp n.fn q o.cmd.cid (nvmeSt 0 8 0)) s
        (t.stoSettle.upCtrl n.fn (fun c => { c with queues := c.queues.filter (fun x => x.cq || x.qid != q) })).cqe n 0 0)

/-- CREATE_IO_SQ: within the grant it never lacks a context (R105). -/
def execCreateIoSq (n : NvmeCmd) (s : State) : Res :=
  nvmeAdmin n s (fun s =>
    let q := n.cdw10 % 65536
    let size := n.cdw10 / 65536
    let c := s.ctrl n.fn
    if q = 0 ∨ c.grant < q ∨ (c.queue false q).isSome then s.cqe n (nvmeSt 1 1 1) 0
    else if size = 0 ∨ 0x3FFF < size then s.cqe n (nvmeSt 1 2 1) 0
    else if !bit n.cdw11 0 then s.cqe n stField 0
    else if n.cdw11 / 65536 = 0 ∨ (c.queue true (n.cdw11 / 65536)).isNone then s.cqe n (nvmeSt 1 0 1) 0
    else
      let x : QueueRec := { cq := false, qid := q, base := n.prp1, size := size + 1, cqid := n.cdw11 / 65536 }
      ((s.vfRuns n.fn).upCtrl n.fn (fun c => { c with queues := c.queues ++ [x] })).cqe n 0 0)

/-- GET_LOG_PAGE: Error Information, SMART or the Changed Namespace List (R103, R111). What the first two hold is not
stated (log entry 3). -/
def execGetLogPage (n : NvmeCmd) (s : State) : Res :=
  nvmeAdmin n s (fun s =>
    let lid := n.cdw10 % 256
    let len := 4 * (n.cdw10 / 65536 + 65536 * (n.cdw11 % 65536) + 1)
    let off := n.cdw12 + 4294967296 * n.cdw13
    let c := s.ctrl n.fn
    let ty := if lid = 4 then 2 else if lid = 1 then 0 else 1
    if lid = 1 ∨ lid = 2 ∨ lid = 4 then
      let b := if lid = 4 then sub (padTo 4096 (c.changed.flatMap (leBytes 4))) off len else s.freeBytes len
      let t := (if lid = 4 then s else s.spent).prpWrite (len / 4096 + 2) n len 0 b
      let u := if bit n.cdw10 15 then t
        else t.upCtrl n.fn (fun c =>
          { c with aerMask := ldel c.aerMask ty, changed := if lid = 4 then [] else c.changed,
                   aerPend := c.aerPend.filter (fun d => bits d 0 3 != ty || lid != 4) })
      u.cqe n 0 0
    else s.cqe n stField 0)

/-- DELETE_IO_CQ: not while a submission queue uses it (R103). -/
def execDeleteIoCq (n : NvmeCmd) (s : State) : Res :=
  nvmeAdmin n s (fun s =>
    let q := n.cdw10 % 65536
    let c := s.ctrl n.fn
    if q = 0 ∨ (c.queue true q).isNone then s.cqe n (nvmeSt 1 1 1) 0
    else if c.queues.any (fun x => !x.cq && x.cqid == q) then s.cqe n (nvmeSt 1 0x0C 1) 0
    else
      (s.upCtrl n.fn (fun c => { c with queues := c.queues.filter (fun x => !x.cq || x.qid != q),
                                        cqeWait := c.cqeWait.filter (fun e => e.1 != q) })).cqe n 0 0)

/-- CREATE_IO_CQ (R105). -/
def execCreateIoCq (n : NvmeCmd) (s : State) : Res :=
  nvmeAdmin n s (fun s =>
    let q := n.cdw10 % 65536
    let size := n.cdw10 / 65536
    let c := s.ctrl n.fn
    if q = 0 ∨ c.grant < q ∨ (c.queue true q).isSome then s.cqe n (nvmeSt 1 1 1) 0
    else if size = 0 ∨ 0x3FFF < size then s.cqe n (nvmeSt 1 2 1) 0
    else if !bit n.cdw11 0 then s.cqe n stField 0
    else if vectorsOf n.fn ≤ n.cdw11 / 65536 then s.cqe n (nvmeSt 1 8 1) 0
    else
      let x : QueueRec := { cq := true, qid := q, base := n.prp1, size := size + 1, vector := n.cdw11 / 65536, ien := bit n.cdw11 1 }
      ((s.vfRuns n.fn).upCtrl n.fn (fun c => { c with queues := c.queues ++ [x] })).cqe n 0 0)

/-- Lays stated fields over bytes that the spec leaves to NVM Express (log entry 3). -/
def stamp (b : Bytes) (l : List (Nat × Bytes)) : Bytes :=
  l.foldl (fun b e => b.take e.1 ++ e.2 ++ b.drop (e.1 + e.2.length)) b

/-- Whether any namespace of a controller uses native completion (VWC, R104). -/
def State.vwc (s : State) (fn : Nat) : Bool := s.sto.nss.any (fun n => n.ctrl == fn && n.mode == 0)

/-- Identify Controller: the values of Table 4.2 at their places in the standard layout. -/
def State.identCtrl (s : State) (fn : Nat) : Bytes :=
  stamp (s.freeBytes 4096)
    [(77, [8]), (80, leBytes 4 0x20000), (256, leBytes 2 0), (258, [3, 3]), (516, leBytes 4 64), (520, leBytes 2 0x000C),
     (525, [BitVec.ofNat 8 (b2n (s.vwc fn))]), (526, leBytes 2 31), (528, leBytes 2 0), (536, leBytes 4 0)]

/-- Identify Namespace: capacity and the two LBA formats (Table 4.2). -/
def State.identNs (s : State) (n : Ns) : Bytes :=
  stamp (s.freeBytes 4096)
    [(0, leBytes 8 n.capacity), (8, leBytes 8 n.capacity), (25, [1]), (26, [BitVec.ofNat 8 n.lbaFmt]), (27, [0, 0, 0]),
     (128, leBytes 4 (9 * 65536)), (132, leBytes 4 (12 * 65536))]

/-- The active NSIDs of a controller above one, ascending. -/
def State.nsids (s : State) (fn above : Nat) : List Nat :=
  (List.range 65).filter (fun i => decide (above < i) && (match s.ns fn i with | some n => n.st != .detaching | none => false))

/-- IDENTIFY: CNS 0x00 to 0x03 (R103, R104). -/
def execIdentify (n : NvmeCmd) (s : State) : Res :=
  nvmeAdmin n s (fun s =>
    let give := fun (b : Bytes) => ((s.spent).prpWrite 3 n 4096 0 b).cqe n 0 0
    let known := match s.ns n.fn n.nsid with
      | some x => if x.st = .detaching then none else some x
      | none => none
    match n.cdw10 % 256 with
    | 0 => (match known with | some x => give (s.identNs x) | none => s.cqe n (nvmeSt 0 0x0B 1) 0)
    | 1 => give (s.identCtrl n.fn)
    | 2 => give (padTo 4096 ((s.nsids n.fn n.nsid).flatMap (leBytes 4)))
    | 3 => (match known with | some _ => give (s.freeBytes 4096) | none => s.cqe n (nvmeSt 0 0x0B 1) 0)
    | _ => s.cqe n stField 0)

/-- NVME_ABORT: removes a command that waits for space, is held, or waits on a remote read whose data has not begun to
arrive; otherwise bit 0 of Dword 0 is 1 (R128). -/
def execNvmeAbort (n : NvmeCmd) (s : State) : Res :=
  nvmeAdmin n s (fun s =>
    let q := n.cdw10 % 65536
    let cid := n.cdw10 / 65536
    match (s.ctrl n.fn).ops.find? (fun o => o.is q cid) with
    | none => s.cqe n 0 1
    | some o =>
      if o.kind = .space ∨ o.kind = .held ∨ (o.kind = .read ∧ !o.started) then
        ((s.endOp n.fn q cid (nvmeSt 0 7 1)).stoSettle).cqe n 0 0
      else s.cqe n 0 1)

/-- I/O queue pairs that Number of Queues grants: the least of the request, the quota and the contexts (R105). DESIGN CHOICE (log entry 3): the
request is a number of pairs, the larger of the two numbers that the command carries. -/
def State.grantOf (s : State) (fn want : Nat) : Nat :=
  min want (min (if fn = 0 then 4096 else (agetD s.host.vfs fn {}).nvmeQp) (s.ctx.room 3))

/-- SET_FEATURES (R104, R105). A second Number of Queues is refused once I/O queues exist. -/
def execSetFeatures (n : NvmeCmd) (s : State) : Res :=
  nvmeAdmin n s (fun s =>
    match n.cdw10 % 256 with
    | 0x01 => (s.upCtrl n.fn (fun c => { c with arb := n.cdw11 })).cqe n 0 0
    | 0x08 => (s.upCtrl n.fn (fun c => { c with coal := n.cdw11 })).cqe n 0 0
    | 0x0B => (s.upCtrl n.fn (fun c => { c with aec := n.cdw11 })).cqe n 0 0
    | 0x07 =>
      if n.cdw11 % 65536 = 65535 ∨ n.cdw11 / 65536 = 65535 then s.cqe n stField 0
      else if (s.ctrl n.fn).queues.any (fun q => q.qid != 0) then s.cqe n (nvmeSt 0 0x0C 1) 0
      else
        let t := (s.ctxGive (s.ctrl n.fn).grantCtx).upCtrl n.fn (fun c => { c with grant := 0, grantCtx := [] })
        let k := t.grantOf n.fn (max (n.cdw11 % 65536) (n.cdw11 / 65536) + 1)
        match t.ctxTakeN 3 k with
        | none => t.cqe n stField 0
        | some (l, u) =>
          if k = 0 then u.spent.cqe n 0 (u.freeNat 4294967296)
          else (u.upCtrl n.fn (fun c => { c with grant := k, grantCtx := l })).cqe n 0 ((k - 1) * 65537)
    | _ => s.cqe n stField 0)

/-- GET_FEATURES: as Set Features, plus Volatile Write Cache (R103, R104, R120). -/
def execGetFeatures (n : NvmeCmd) (s : State) : Res :=
  nvmeAdmin n s (fun s =>
    let c := s.ctrl n.fn
    match n.cdw10 % 256 with
    | 0x01 => s.cqe n 0 c.arb
    | 0x06 => s.cqe n 0 (b2n (s.vwc n.fn))
    | 0x07 => if c.grant = 0 then s.spent.cqe n 0 (s.freeNat 4294967296) else s.cqe n 0 ((c.grant - 1) * 65537)
    | 0x08 => s.cqe n 0 c.coal
    | 0x0B => s.cqe n 0 c.aec
    | _ => s.cqe n stField 0)

/-- ASYNC_EVENT_REQUEST: held, up to four; an event that waited is reported at once (R103, Table 4.2). -/
def execAsyncEventRequest (n : NvmeCmd) (s : State) : Res :=
  nvmeAdmin n s (fun s =>
    let c := s.ctrl n.fn
    if 4 ≤ c.aers.length then s.cqe n (nvmeSt 1 5 1) 0
    else
      let t := s.upCtrl n.fn (fun c => { c with aers := c.aers ++ [n.cid] })
      match c.aerPend.find? (fun d => !c.aerMask.contains (bits d 0 3)) with
      | none => t
      | some d => (t.upCtrl n.fn (fun c => { c with aerPend := c.aerPend.erase d })).asyncEvent n.fn d)

/-! ## I/O commands -/

/-- Adds an outstanding operation. -/
def State.addOp (s : State) (o : NvmeOp) : State :=
  s.upCtrl o.fn (fun c => { c with ops := c.ops ++ [o] })

/-- Enters a write and completes it, or waits for its acknowledgement: native writes without FUA complete in the buffer
(R116, R120). -/
def State.takeWrite (s : State) (n : NvmeCmd) (x : Ns) (ranges : List (Nat × Nat)) (zero : Nat) (fua : Bool) (data : Bytes) : State :=
  let w := s.sto.nextOp
  let t := ranges.foldl (fun t r => t.wbEnter x r.1 r.2 zero w data) (s.upSto (fun y => { y with nextOp := y.nextOp + 1 }))
  if x.mode = 0 ∧ !fua then t.cqe n 0 0
  else (t.addOp { fn := n.fn, cmd := n, kind := .ack, need := [w] }).stoSettle

/-- FLUSH: waits for every completed write of its namespaces; in DXL5-compatible mode it completes at once (R121). -/
def execFlush (n : NvmeCmd) (s : State) : Res :=
  nvmeIo n s (fun s =>
    let l := if n.nsid = 0xFFFFFFFF then s.sto.nss.filter (fun x => x.ctrl == n.fn && x.st != .detaching)
      else (match s.nsFor n.fn n.nsid with | some x => [x] | none => [])
    if l.isEmpty ∧ n.nsid ≠ 0xFFFFFFFF then s.cqe n (nvmeSt 0 0x0B 1) 0
    else if l.any (fun x => x.st == .writeFailed) then s.cqe n (nvmeSt 2 0x80 0) 0
    else
      let open_ := (s.ctrl n.fn).ops.flatMap (fun o => if o.kind == .ack then o.need else [])
      let blocks := s.sto.wbuf.filter (fun w => w.dirty && l.any (fun x => x.mode == 0 && x.is w.ctrl w.nsid))
      let need := (blocks.flatMap (fun w => w.writes)).filter (fun w => !open_.contains w)
      if l.any (fun x => x.mode == 0 && blocks.any (fun w => x.is w.ctrl w.nsid && x.needsDown (8 * w.blk) 8)) then
        s.cqe n (nvmeSt 0 0x82 0) 0
      else if need.isEmpty then s.cqe n 0 0
      else s.addOp { fn := n.fn, cmd := n, kind := .flush, need := need })

/-- The checks that every read and write of a range makes, in the order of Table 4.8. -/
def State.ioCheck (s : State) (n : NvmeCmd) (slba nlb : Nat) : Except Nat Ns :=
  match s.nsFor n.fn n.nsid with
  | none => .error (nvmeSt 0 0x0B 1)
  | some x =>
    if x.capacity < slba + nlb then .error (nvmeSt 0 0x80 1) else .ok x

/-- WRITE: its data enters the buffer in two copies, or waits for space and is never refused (R116). -/
def execWrite (n : NvmeCmd) (s : State) : Res :=
  nvmeIo n s (fun s =>
    match s.ioCheck n n.slba n.nlb with
    | .error e => s.cqe n e 0
    | .ok x =>
      let first := n.slba * x.lbaSec
      let count := n.nlb * x.lbaSec
      if 1048576 < 512 * count then s.cqe n stField 0
      else if x.st = .writeFailed ∧ n.fua then s.cqe n (nvmeSt 2 0x80 0) 0
      else if (x.mode ≠ 0 ∨ n.fua) ∧ x.needsDown first count then s.cqe n (nvmeSt 0 0x82 0) 0
      else
        let t := s.prpFetch n (512 * count)
        if !n.dataOk then (t.upSto (fun y => { y with errXfer := satu 65535 (y.errXfer + 1) })).cqe n (nvmeSt 0 4 0) 0
        else if t.wbRoom x first count 0 then t.takeWrite n x [(first, count)] 0 n.fua (n.data.take (512 * count))
        else
          (t.upSto (fun y => { y with nextOp := y.nextOp + 1 })).addOp { fn := n.fn, cmd := n, kind := .space, order := t.sto.nextOp })

/-- READ: what the buffer holds is returned from it, the rest comes from one remote read for each run and stripe unit
(R118). -/
def execRead (n : NvmeCmd) (s : State) : Res :=
  nvmeIo n s (fun s =>
    match s.ioCheck n n.slba n.nlb with
    | .error e => s.cqe n e 0
    | .ok x =>
      let first := n.slba * x.lbaSec
      let count := n.nlb * x.lbaSec
      let p := s.readPlan x first count
      if 1048576 < 512 * count then s.cqe n stField 0
      else match s.readStop x n.slba n.nlb p.2 with
        | some e => s.cqe n e 0
        | none =>
          let t := p.1.foldl (fun t e => t.prpWrite 3 n (512 * count) (512 * (e.1 - first)) e.2) (s.prpList n (512 * count))
          let u := t.wbUse x first count
          if p.2.isEmpty then u.cqe n 0 0
          else p.2.foldl (fun u r => u.readPart x (.host n.fn n.sqid n.cid) s.sto.nextSeq r none)
            (u.addOp { fn := n.fn, cmd := n, kind := .read, order := s.sto.nextSeq }))

/-- WRITE_ZEROES: held as zero extents (R114); handled as a write. -/
def execWriteZeroes (n : NvmeCmd) (s : State) : Res :=
  nvmeIo n s (fun s =>
    match s.ioCheck n n.slba n.nlb with
    | .error e => s.cqe n e 0
    | .ok x =>
      let first := n.slba * x.lbaSec
      let count := n.nlb * x.lbaSec
      if x.st = .writeFailed ∧ n.fua then s.cqe n (nvmeSt 2 0x80 0) 0
      else if (x.mode ≠ 0 ∨ n.fua) ∧ x.needsDown first count then s.cqe n (nvmeSt 0 0x82 0) 0
      else s.takeWrite n x [(first, count)] 1 n.fua [])

/-- The ranges of a Dataset Management command: (first block, blocks). -/
def dsmRanges (n : NvmeCmd) : List (Nat × Nat) :=
  (List.range (n.cdw10 % 256 + 1)).map (fun i => (fld n.data (16 * i + 8) 8, fld n.data (16 * i + 4) 4))

/-- DATASET_MANAGEMENT: Deallocate only, handled as a write (R103, R114). -/
def execDatasetManagement (n : NvmeCmd) (s : State) : Res :=
  nvmeIo n s (fun s =>
    match s.nsFor n.fn n.nsid with
    | none => s.cqe n (nvmeSt 0 0x0B 1) 0
    | some x =>
      let l := dsmRanges n
      if !bit n.cdw11 2 then s.cqe n stField 0
      else
        let t := s.prpFetch n (16 * l.length)
        if !n.dataOk then (t.upSto (fun y => { y with errXfer := satu 65535 (y.errXfer + 1) })).cqe n (nvmeSt 0 4 0) 0
        else if l.any (fun r => decide (x.capacity < r.1 + r.2)) then t.cqe n (nvmeSt 0 0x80 1) 0
        else if x.mode ≠ 0 ∧ l.any (fun r => x.needsDown (r.1 * x.lbaSec) (r.2 * x.lbaSec)) then t.cqe n (nvmeSt 0 0x82 0) 0
        else t.takeWrite n x (l.map (fun r => (r.1 * x.lbaSec, r.2 * x.lbaSec))) 2 false [])

/-! ## The write buffer's own steps -/

/-- Writes that wait for space, in order of arrival. -/
def Sto.spaceWaiters (x : Sto) : List NvmeOp :=
  (x.ctrls.flatMap (fun e => e.2.ops.filter (fun o => o.kind == .space))).mergeSort (fun a b => decide (a.order ≤ b.order))

/-- Whether a write that waits has room now: it is work that has started, and a drain waits for it (R86, R116). -/
def State.spaceFits (s : State) (o : NvmeOp) : Bool :=
  !s.partHeld .wbuf &&
    (match s.ns o.fn o.cmd.nsid with
     | some x => s.wbRoom x (o.cmd.slba * x.lbaSec) (o.cmd.nlb * x.lbaSec) 0
     | none => false)

/-- WRITE_BUFFER_ADMIT: the first waiting write for which there is space enters the buffer, a writer of the device's own after the host's
(R116, R124). -/
def execWriteBufferAdmit (s : State) : Res :=
  onMain s (fun s =>
    match s.sto.spaceWaiters.find? s.spaceFits with
    | none => if s.partHeld .wbuf then s else s.intAdvanceAll
    | some o =>
      match s.ns o.fn o.cmd.nsid with
      | none => s
      | some x =>
        (s.dropOp o.fn o.cmd.sqid o.cmd.cid).takeWrite o.cmd x [(o.cmd.slba * x.lbaSec, o.cmd.nlb * x.lbaSec)] 0 o.cmd.fua (o.cmd.data.take (512 * (o.cmd.nlb * x.lbaSec))))

/-- WB_DRAIN_START: the blocks that are due are issued, the oldest of each namespace first (R117). -/
def execWbDrainStart (s : State) : Res :=
  onMainIf s (!s.partHeld .wbuf) (fun s => (s.sto.wbuf.filter (fun w => s.sto.drainable w && s.due w)).foldl State.drainOne s)

/-- The local blocks of a remote command of an encrypted namespace. -/
def Remote.blocks (r : Remote) : List Nat := List.range' (r.first / 8) (r.count / 8)

/-- The data writes of a sealed drain are outstanding no longer, and the tag blocks whose last one it was are written (R176). -/
def State.sealedAck (s : State) (n : Ns) (r : Remote) (flush : Bool) : State :=
  if n.encrypted ∧ r.kind = .drain then
    let t := r.blocks.foldl (fun t b => t.tagBusy n b (· - 1)) s
    if flush then r.tags.foldl (fun t k => t.tagFlush n r.back k) t else t
  else s

/-- The write of a tag block has ended: it is dirty again where it failed, and a change since is written in its turn (R176). -/
def State.tagAck (s : State) (n : Ns) (r : Remote) (ok flush : Bool) : State :=
  if r.kind = .tagWrite then
    let t := s.upTag r.ctrl r.nsid r.back r.rblk (fun b => { b with out := false, dirty := b.dirty || !ok })
    if flush then t.tagFlush n r.back r.rblk else t
  else s

/-- WB_DRAIN_COMPLETE: blocks become clean, are issued again after a transient status, or put their namespace into
WRITE_FAILED (R117, R126). -/
def execWbDrainComplete (cid status : Nat) (s : State) : Res :=
  onMain s (fun s =>
    match s.sto.remotes.find? (fun r => r.cid == cid && (r.kind == .drain || r.kind == .tagWrite) && r.sent && r.units == 0) with
    | none => s
    | some r =>
      let t := s.upSto (fun x => { x with remotes := x.remotes.filter (fun y => y.cid != cid) })
      match t.ns r.ctrl r.nsid with
      | none => t
      | some n =>
        if status = 0 then (((r.seqs.foldl (fun u e => u.wbAck e.1 e.2) t).sealedAck n r true).tagAck n r true true).stoSettle
        else
          let back := (r.seqs.foldl (fun u e => u.upWb e.1 (fun w => { w with pend := w.pend - (w.pend &&& e.2) })) t).sealedAck n r false
          if status / 16384 % 2 = 0 then back.tagAck n r false r.seqs.isEmpty
          else
            let u := (back.tagAck n r false false).stick (fun w => r.seqs.any (fun e => e.1 == w.seq))
            (u.upSto (fun x => { x with errRemote := satu 65535 (x.errRemote + 1) })).writeFailed r.ctrl r.nsid status)

/-- A part of a read is in: its blocks reach host memory, and the last part completes the read; or they reach an internal reader (R118,
R124). -/
def State.readDone (s : State) (r : Remote) (b : Bytes) : State :=
  match r.op, r.int with
  | some (fn, sq, cid), _ =>
    (match (s.ctrl fn).ops.find? (fun o => o.is sq cid) with
    | none => s
    | some o =>
      match s.ns fn o.cmd.nsid with
      | none => s
      | some x =>
        let len := 512 * (o.cmd.nlb * x.lbaSec)
        let t := s.prpWrite (r.count + 2) o.cmd len (512 * (r.first - o.cmd.slba * x.lbaSec)) b
        let left := ldel o.parts r.cid
        let u := (t.upSto (fun y => { y with remotes := y.remotes.filter (fun z => z.cid != r.cid) })).upOp fn sq cid (fun o =>
          { o with parts := left, started := true })
        if left.isEmpty then (u.endOp fn sq cid 0).stoSettle else u)
  | none, some u => (s.intGot u r b).stoSettle
  | none, none => s

/-- A remote read ends with a status: the host's command, or the internal read, that it is a part of ends (R125). -/
def State.readEnd (s : State) (r : Remote) (status : Nat) : State :=
  match r.op, r.int with
  | some (fn, sq, cid), _ => (s.endOp fn sq cid status).stoSettle
  | none, some u => (s.intFail u status).stoSettle
  | none, none => s

/-- A part of a read some of whose blocks did not open: those that did are handed over, the others are read once more (R177). -/
def State.readAgain (s : State) (x : Ns) (r : Remote) (bad : List Nat) : State :=
  let more := fun (t : State) (who : ReadFor) => bad.foldl (fun u b => u.readPart x who r.after (8 * b, 8) (some (agetD r.badLanes b 0))) t
  match r.op, r.int with
  | some (fn, sq, c), _ =>
    (match (s.ctrl fn).ops.find? (fun o => o.is sq c) with
    | none => s
    | some o =>
      let len := 512 * (o.cmd.nlb * x.lbaSec)
      let t := r.buf.foldl (fun t e => t.prpWrite 3 o.cmd len (512 * (8 * e.1 - o.cmd.slba * x.lbaSec)) e.2) s
      more ((t.upSto (fun y => { y with remotes := y.remotes.filter (fun z => z.cid != r.cid) })).upOp fn sq c (fun o =>
        { o with parts := ldel o.parts r.cid, started := o.started || !r.buf.isEmpty })) (.host fn sq c))
  | none, some u =>
    more (r.buf.foldl (fun t e => t.intGot u { r with first := 8 * e.1, count := 8 } e.2)
      ((s.upSto (fun y => { y with remotes := y.remotes.filter (fun z => z.cid != r.cid) })).upInt u (fun o =>
        { o with parts := ldel o.parts r.cid }))) (.own u)
  | none, none => s

/-- Ends a remote read whose blocks have all been opened: a block that failed is read once more from the backing, and one
that fails again ends the command with a check mismatch (R177). -/
def State.openedAll (s : State) (cid : Nat) : State :=
  match s.sto.remotes.find? (fun r => r.cid == cid) with
  | none => s
  | some r =>
    if r.units ≠ 0 then s
    else
      let bad := r.blocks.filter (fun b => !ahas r.buf b)
      match bad, s.ns r.ctrl r.nsid with
      | [], _ => s.readDone r (r.blocks.flatMap (fun b => agetD r.buf b []))
      | _, some x => if r.retry.isSome then s.readEnd r (nvmeSt 0 6 0) else s.readAgain x r bad
      | _, none => s

/-- Opens the blocks of a remote read of an encrypted namespace: one not WRITTEN reads as zeros, the others go to lanes
(R175); the tag blocks are used (R176). The first block for which no lane or key is left ends its read (R177, R184). -/
def State.openBlocks (s : State) (x : Ns) (r : Remote) (data : Bytes) : State :=
  let one := fun (t : State) (b : Nat) =>
    let put := fun (u : State) (f : Remote → Remote) => u.upSto (fun y => { y with remotes := lupd y.remotes (fun z => z.cid == r.cid) f })
    match t.tagRecOf x r.cid b with
    | none => t
    | some q =>
      if !(t.sto.remotes.any (fun z => z.cid == r.cid)) then t
      else if !q.written then put t (fun z => { z with buf := aset z.buf b (zeros 4096) })
      else if !(t.storagePage x.keyPage x.ctrl) then (t.noKey x.keyPage).readEnd r (nvmeSt 0 6 0)
      else match t.submit { page := x.keyPage, use := .open_ r.cid b, data := sub data (4096 * (b - r.first / 8)) 4096 } r.retry with
        | none => t.readEnd r (nvmeSt 0 6 1)
        | some u => put u (fun z => { z with units := z.units + 1 })
  let t := r.tags.foldl (fun t k => t.upTag x.ctrl x.nsid r.back k (fun b => { b with used := s.now })) s
  (r.blocks.foldl one t).openedAll r.cid

/-- REMOTE_READ_COMPLETE: data, and for an encrypted namespace the tag blocks fetched with it, have arrived (R118,
R176). -/
def execRemoteReadComplete (cid : Nat) (data : Bytes) (s : State) : Res :=
  onMain s (fun s =>
    match s.sto.remotes.find? (fun r => r.cid == cid && (r.kind == .read || r.kind == .tagRead) && r.sent && r.units == 0) with
    | none => s
    | some r =>
      match s.ns r.ctrl r.nsid with
      | none => s
      | some x =>
        if r.kind = .tagRead then
          (s.upSto (fun y => { y with remotes := y.remotes.filter (fun z => z.cid != cid) })).tagPut r.ctrl r.nsid r.back r.rblk (data.take 4096)
        else
          let n := 512 * r.count
          let got := (r.tblks.zipIdx).map (fun e => (e.1, padTo 4096 (sub data (n + 4096 * e.2) 4096)))
          let t := got.foldl (fun t e => t.tagPut x.ctrl x.nsid r.back e.1 e.2)
            (s.upSto (fun y => { y with remotes := lupd y.remotes (fun z => z.cid == cid) (fun z => { z with tagData := got }) }))
          if x.encrypted then t.openBlocks x r (padTo n (data.take n)) else t.readDone r (padTo n (data.take n)))

/-- REMOTE_COMMAND_FAIL: a transport error (status 0) or a path-related status is reissued on another live queue and
counted; any other status ends a read unchanged (R112, R125). -/
def execRemoteCommandFail (cid status : Nat) (s : State) : Res :=
  onMain s (fun s =>
    match s.sto.remotes.find? (fun r => r.cid == cid && r.sent && r.units == 0) with
    | none => s
    | some r =>
      if status = 0 ∨ status / 256 % 8 = 3 then
        (s.upSto (fun x => { x with remotes := lupd x.remotes (fun y => y.cid == cid) (fun y => { y with sent := false }) })).stoReissue
      else
        if r.op.isSome ∨ r.int.isSome then
          (s.upSto (fun x => { x with errRemote := satu 65535 (x.errRemote + status / 16384 % 2) })).readEnd r status
        else if r.kind = .tagRead then
          s.upSto (fun x => { x with errRemote := satu 65535 (x.errRemote + status / 16384 % 2), remotes := x.remotes.filter (fun y => y.cid != cid) })
        else s)

/-! ## Class 0x09 opcodes (R107) -/

/-- Whether a caller may name a controller: a tenant only its own VF's (R84, R107). -/
def ctrlAuth (c : Caller) (_h : Hdr) (p : Bytes) (_s : State) : Option Nat :=
  if c.tenant && fld p 0 2 != c.fn then some 4 else none

/-- The controller field of most opcodes. -/
def ctrlField (p : Bytes) : Nat × Bool := (0, decide (fld p 0 2 ≤ 255))

/-- The queue pairs of an association, one after another: their numbers, or none when one is not to be had. -/
def takeQps (q : Qp) : Nat → State → Option (List Nat × State)
  | 0, s => some ([], s)
  | k + 1, s =>
    match s.qpAlloc q false false with
    | none => none
    | some (n, t) => (takeQps q k t).map (fun r => (n :: r.1, r.2))

/-- CONNECT_TARGET (R108, Table 4.4): one RDMA queue pair for the admin queue and for each I/O queue. -/
def opConnectTarget : OpSpec :=
  { code := 0x0900, v1 := true, result := true, len := fun _ => 480,
    fields := fun _ p =>
      [(0, fld p 0 1 == 4 || fld p 0 1 == 6), (1, decide (1 ≤ fld p 1 1) && decide (fld p 1 1 ≤ 64)),
       (4, decide (5 ≤ fld p 4 1) && decide (fld p 4 1 ≤ 12)), rsv p 5 3,
       (8, fld p 0 1 == 6 || fld p 12 12 == 0), rsv p 24 8],
    run := fun _ _ p s =>
      match freeKey s.sto.targets 1024 0 with
      | none => noResource
      | some h =>
        let q : Qp := { autoRec := true, owner := .target h, mtu := 5, dest := sub p 8 16, addrType := fld p 0 1, portMask := 65535 }
        match takeQps q (fld p 1 1 + 1) s with
        | none => noResource
        | some (l, t) =>
          let x : Target := { addrType := fld p 0 1, addr := sub p 8 16, svc := fld p 2 2, ioq := fld p 1 1, qpns := l }
          let u := t.upSto (fun y => { y with targets := aset y.targets h x })
          .wait wAssoc h (u.emit .remoteIo h 0 0 (sub p 0 480)) }

/-- CONNECT_TARGET. -/
def execConnectTarget (h : Hdr) (p : Bytes) (s : State) : Res := runPkt opConnectTarget h p s

/-- TARGET_ASSOCIATED: the association's queues are live (R108). -/
def execTargetAssociated (target : Nat) (s : State) : Res :=
  onMain s (fun s =>
    match aget s.sto.targets target with
    | none => s
    | some x =>
      if x.live then s
      else
        let t := x.qpns.foldl (fun t q => (t.qpMove q .rts).upQpn q (fun q => { q with failed := false })) s
        let u := t.upSto (fun y => { y with targets := aset y.targets target { x with live := true } })
        (u.finishAll (fun w => w.kind == wAssoc && w.aux == target) sOk 0 target).stoRefresh)

/-- STO_TARGET_UNREACHABLE: no association formed within the connect exchange (R108). -/
def execStoTargetUnreachable (target : Nat) (s : State) : Res :=
  onMain s (fun s =>
    match aget s.sto.targets target with
    | none => s
    | some x =>
      if x.live then s
      else
        let t := x.qpns.foldl State.qpFree s
        let u := t.upSto (fun y => { y with targets := adel y.targets target })
        u.finishAll (fun w => w.kind == wAssoc && w.aux == target) 0x0010 0 0)

/-- DISCONNECT_TARGET (R108). -/
def opDisconnectTarget : OpSpec :=
  { code := 0x0901, v1 := true, len := fun _ => 8, fields := fun _ p => [rsv p 2 6],
    run := fun _ _ p s =>
      let h := fld p 0 2
      match aget s.sto.targets h with
      | none => badParam 0
      | some x =>
        if !x.live then badParam 0
        else if s.sto.nss.any (fun n => n.backs.any (fun b => b.target == h)) then .refuse 0x0013 0
        else .ok ((x.qpns.foldl State.qpFree s).upSto (fun y => { y with targets := adel y.targets h })) }

/-- DISCONNECT_TARGET. -/
def execDisconnectTarget (h : Hdr) (p : Bytes) (s : State) : Res := runPkt opDisconnectTarget h p s

/-- What the remote subsystems answer of the backings of ATTACH_NAMESPACE: for each, blocks (8) and block bytes (4), 0
where the NSID is not there (R109, log entry 5). -/
def backInfo (data : Bytes) (i : Nat) : Nat × Nat := (fld data (12 * i) 8, fld data (12 * i + 8) 4)

/-- ATTACH_NAMESPACE (R109 to R111, R115, R170, R174; Table 4.5). -/
def opAttachNamespace (data : Bytes) : OpSpec :=
  { code := 0x0902, v1 := true, result := true, len := fun _ => 144, feats := fun p => if fld p 2 1 = 1 then [9] else [],
    fields := fun _ p =>
      let cnt := fld p 4 1
      [(0, decide (fld p 0 2 ≤ 255)), (2, decide (fld p 2 1 ≤ 1)),
       (3, cnt == 1 || (decide (16 ≤ fld p 3 1) && decide (fld p 3 1 ≤ 24))), (4, decide (1 ≤ cnt) && decide (cnt ≤ 8)),
       (5, decide (fld p 5 1 ≤ 1)), (8, decide (fld p 8 4 ≤ 64)), rsv p 12 4] ++
      (List.range 8).flatMap (fun i =>
        let o := 16 + 16 * i
        [(o, decide (i < cnt) || fld p o 2 == 0), rsv p (o + 2) 2, (o + 4, decide (i < cnt) || fld p (o + 4) 4 == 0), rsv p (o + 8) 8]),
    hfields := fun h p =>
      if h.version = 1 then [(2, fld p 2 1 == 1), (3, fld p 3 1 == 0), (4, fld p 4 1 == 1)] else [],
    run := fun _ _ p s =>
      let fn := fld p 0 2
      let mode := fld p 2 1
      let cnt := fld p 4 1
      let key := fld p 6 2
      let lba := if fld p 5 1 = 0 then 512 else 4096
      let want := fld p 8 4
      let used := (s.sto.nss.filter (fun n => n.ctrl == fn)).map (fun n => n.nsid)
      let free := (List.range' 1 64).find? (fun i => !used.contains i)
      let idx := List.range cnt
      match free with
      | none => noResource
      | some f =>
        if mode = 0 ∧ (s.ctrl fn).quotaMib = 0 then noResource
        else if !(s.fnEnabled fn) then badParam 0
        else if key ≠ 0xFFFF ∧ fld p 5 1 = 0 then badParam 5
        else if want ≠ 0 ∧ used.contains want then badParam 8
        else match idx.find? (fun i => !((aget s.sto.targets (fld p (16 + 16 * i) 2)).any (fun t => t.live)) || (backInfo data i).2 == 0) with
          | some i => badParam (if (aget s.sto.targets (fld p (16 + 16 * i) 2)).any (fun t => t.live) then 20 + 16 * i else 16 + 16 * i)
          | none =>
            if idx.any (fun i => (backInfo data i).2 != lba) then .refuse 0x0011 0
            else if key ≠ 0xFFFF ∧ !(s.storagePage key fn) then .refuse 0x0014 0
            else
              let nsid := if want = 0 then f else want
              let x : Ns := { ctrl := fn, nsid := nsid, mode := mode, stripeLog2 := fld p 3 1, lbaFmt := fld p 5 1, keyPage := key,
                              backs := idx.map (fun i => { target := fld p (16 + 16 * i) 2, rnsid := fld p (20 + 16 * i) 4,
                                                           blocks := (backInfo data i).1 }),
                              capacity := localBlocks (idx.map (fun i => (backInfo data i).1)) (key != 0xFFFF) (fld p 3 1) lba }
              .done sOk 0 nsid (((s.upSto (fun y => { y with nss := y.nss ++ [x] })).nsChanged fn nsid).stoRefresh) }

/-- ATTACH_NAMESPACE. -/
def execAttachNamespace (h : Hdr) (p data : Bytes) (s : State) : Res := runPkt (opAttachNamespace data) h p s

/-- DETACH_NAMESPACE: waits for its commands and its dirty data (R113). -/
def opDetachNamespace : OpSpec :=
  { code := 0x0903, v1 := true, len := fun _ => 8, fields := fun _ p => [ctrlField p, rsv p 2 2],
    run := fun _ _ p s =>
      let fn := fld p 0 2
      let nsid := fld p 4 4
      match s.ns fn nsid with
      | none => badParam 4
      | some x =>
        if x.st = .writeFailed then .refuse 0x0012 0
        else if x.st = .detaching then badParam 4
        else .wait wDetach (nsKey fn nsid) (s.upNs fn nsid (fun n => { n with st := .detaching })) }

/-- DETACH_NAMESPACE: completes at once where nothing is outstanding. -/
def execDetachNamespace (h : Hdr) (p : Bytes) (s : State) : Res :=
  match runPkt opDetachNamespace h p s with
  | .next t => .next t.stoSettle
  | r => r

/-- The namespace that a command names in bytes 0 and 4, DETACHING ones left out. -/
def State.nsOfParam (s : State) (p : Bytes) : Option Ns := s.nsFor (fld p 0 2) (fld p 4 4)

/-- Applies a staged SET_NS_MODE: to native at once, to DXL5-compatible once the dirty data is acknowledged (R122). -/
def State.applyNsMode (s : State) (p : Bytes) : State :=
  match s.nsOfParam p with
  | none => s
  | some x =>
    if fld p 2 1 = x.mode then s.upSto (fun y => { y with modeWait := y.modeWait.erase (x.ctrl, x.nsid) })
    else if fld p 2 1 = 0 ∨ !(s.nsDirty x.ctrl x.nsid) then s.upNs x.ctrl x.nsid (fun n => { n with mode := fld p 2 1 })
    else s.upSto (fun y => { y with modeWait := if y.modeWait.contains (x.ctrl, x.nsid) then y.modeWait else y.modeWait ++ [(x.ctrl, x.nsid)] })

/-- Whether a staged SET_NS_MODE still names a namespace that can be native (R89, R115). -/
def State.okNsMode (s : State) (p : Bytes) : Bool :=
  match s.nsOfParam p with
  | none => false
  | some x => fld p 2 1 != 0 || decide (0 < (s.ctrl x.ctrl).quotaMib)

/-- SET_NS_MODE: a setting of the controller's scope (R122). -/
def opSetNsMode : OpSpec :=
  { code := 0x0904, role := .tenant, len := fun _ => 8, auth := ctrlAuth, feats := fun p => if fld p 2 1 = 1 then [9] else [],
    fields := fun _ p => [ctrlField p, (2, decide (fld p 2 1 ≤ 1)), rsv p 3 1],
    run := fun c h p s =>
      let u := uCtrl (fld p 0 2)
      match s.settingStop c u true with
      | some v => v
      | none =>
        if (s.nsOfParam p).isNone then badParam 4
        else s.setting 0x0904 c { h with unit := u } p (fun y => fld y.params 0 2 == fld p 0 2 && fld y.params 4 4 == fld p 4 4) 0
          (fun t => t.applyNsMode p) }

/-- SET_NS_MODE. -/
def execSetNsMode (h : Hdr) (p : Bytes) (s : State) : Res := runPkt opSetNsMode h p s

/-- SET_WB_QUOTA: the quotas of all controllers sum to at most 4,096 MiB (R115). -/
def opSetWbQuota : OpSpec :=
  { code := 0x0905, len := fun _ => 8, fields := fun _ p => [ctrlField p, rsv p 2 2],
    run := fun _ _ p s =>
      let fn := fld p 0 2
      let others := ((s.sto.ctrls.filter (fun e => e.1 != fn)).map (fun e => e.2.quotaMib)).sum
      if 4096 < others + fld p 4 4 then noResource
      else .ok (s.upCtrl fn (fun c => { c with quotaMib := fld p 4 4 })) }

/-- SET_WB_QUOTA. -/
def execSetWbQuota (h : Hdr) (p : Bytes) (s : State) : Res := runPkt opSetWbQuota h p s

/-- Code of a namespace state (Table 4.6). -/
def NsState.code (x : NsState) : Nat :=
  match x with
  | .online => 0 | .backingDown => 1 | .writeFailed => 2 | .detaching => 3

/-- GET_NS_STATUS (Table 4.3). -/
def opGetNsStatus : OpSpec :=
  { code := 0x0906, role := .tenant, v1 := true, result := true, len := fun _ => 8, auth := ctrlAuth,
    fields := fun _ p => [ctrlField p, rsv p 2 2],
    run := fun _ _ p s =>
      match s.ns (fld p 0 2) (fld p 4 4) with
      | none => badParam 4
      | some x => .done sOk 0 (x.st.code + 256 * s.nsDirtyMib x.ctrl x.nsid) s }

/-- GET_NS_STATUS. -/
def execGetNsStatus (h : Hdr) (p : Bytes) (s : State) : Res := runPkt opGetNsStatus h p s

/-- Logical blocks of a block's sectors that no other entry of the buffer holds. -/
def State.lostOf (s : State) (n : Ns) (w : WbBlock) : List Nat :=
  ((List.range 8).filter (fun i => w.mask.testBit i && !(s.sto.wbuf.any (fun y =>
    y.is w.ctrl w.nsid w.blk && y.seq != w.seq && decide (w.seq < y.seq) && y.mask.testBit i)))).foldl
      (fun l i => ladd l ((8 * w.blk + i) / n.lbaSec)) []

/-- DISCARD_DIRTY: drops the undrainable blocks, marks their logical blocks lost and returns the namespace to ONLINE
(R126). -/
def opDiscardDirty : OpSpec :=
  { code := 0x0907, len := fun _ => 8, fields := fun _ p => [ctrlField p, rsv p 2 2],
    run := fun _ _ p s =>
      match s.ns (fld p 0 2) (fld p 4 4) with
      | none => badParam 4
      | some x =>
        if x.st ≠ .writeFailed then badState
        else
          let bad := s.sto.wbuf.filter (fun w => w.stuck && w.ctrl == x.ctrl && w.nsid == x.nsid)
          let lost := bad.foldl (fun l w => (s.lostOf x w).foldl ladd l) x.lost
          let t := s.upSto (fun y => { y with wbuf := y.wbuf.filter (fun w => !bad.contains w),
                                              errLost := satu 65535 (y.errLost + (lost.length - x.lost.length)) })
          .ok (((t.upNs x.ctrl x.nsid (fun n => { n with lost := lost, st := .online })).stoRefresh).stoSettle) }

/-- DISCARD_DIRTY. -/
def execDiscardDirty (h : Hdr) (p : Bytes) (s : State) : Res := runPkt opDiscardDirty h p s

end Sys2Proof.Machine
end

