-- ==== Sys2Proof/Machine/Cip.lean ====
section
/-!
DEFINITION. The cipher engine's commands (chapter 6): key pages, TLS records, ESP frames and the lanes' completions.
-/
namespace Sys2Proof.Machine

open Sys2Proof

/-! ## Key pages -/

/-- CIP_ASSIGN_PAGES (R169, R172): only EMPTY pages move, and a VF holds at most 128. -/
def opCipAssignPages : OpSpec :=
  { code := 0x0800, len := fun _ => 8,
    fields := fun _ p =>
      [(0, decide (fld p 0 2 ≤ 255)), rsv p 2 2, (4, decide (fld p 4 2 < pageCount)), (6, decide (fld p 4 2 + fld p 6 2 ≤ pageCount))],
    run := fun _ _ p s =>
      let fn := fld p 0 2
      let l := List.range' (fld p 4 2) (fld p 6 2)
      let mine := (agetD s.cip.vfPages fn []).filter (fun k => !l.contains k)
      if l.any (fun k => (s.page k).st != .empty) then .refuse 0x0013 0
      else if fn ≠ 0 ∧ 128 < mine.length + l.length then noResource
      else
        let t := l.foldl (fun t k => t.upPage k (fun q => { q with owner := fn })) s
        .ok (t.upCip (fun c =>
          let vp := c.vfPages.map (fun e => (e.1, e.2.filter (fun k => !l.contains k)))
          { c with vfPages := if fn = 0 then vp else aset vp fn (mine ++ l) })) }

/-- CIP_ASSIGN_PAGES. -/
def execCipAssignPages (h : Hdr) (p : Bytes) (s : State) : Res := runPkt opCipAssignPages h p s

/-- Finds the page that a caller names, or what refuses it (R169, R170). -/
def State.callerPage (s : State) (c : Caller) (j : Nat) : Except Verdict Nat :=
  match s.pageNamed c.fn j with
  | none => .error (badParam 0)
  | some k => if (s.page k).owner = c.fn then .ok k else .error (.refuse 0x0011 0)

/-- The places of the parameters of a troupe head's command mailbox in this device's memory (Tables 5.28 and 5.30). -/
def State.headParams (s : State) : List Nat :=
  (s.net.members.filter (fun m => m.isHead)).flatMap (fun m =>
    match s.region m.region with
    | some r => (List.range 8).map (fun i => r.base + 0x1000 + 8192 * i + 96)
    | none => [])

/-- Overwrites the copies of a command's parameters that its troupe head wrote into this device's memory (R171). -/
def State.wipeParams (s : State) (p : Bytes) : State :=
  s.headParams.foldl (fun t a => if t.mem a p.length = p then t.gWrite a (zeros p.length) else t) s

/-- Loads a key into a page, and overwrites the device's copy of the parameters (R171, R173; Table 6.6). -/
def State.loadKey (s : State) (k : Nat) (p : Bytes) : State :=
  let n := fld p 3 1
  (s.wipeParams p).upPage k (fun q =>
    { q with st := .ready, mode := fld p 2 1, key256 := n == 32, esn := bit (fld p 4 1) 0, tunnel := bit (fld p 4 1) 1, spi := fld p 8 4,
             ivSalt := sub p 16 12, seq := fld p 32 8, window := 0, key := sub p 48 n })

/-- Kind of a CIP_LOAD_KEY that waits for the units of its page (R173). -/
def wKey : Nat := 30

/-- Applies the key loads of a page whose earlier units have all been released, in order: each answers its own command (R173). -/
def State.applyLoads (s : State) (k : Nat) : State :=
  let ready := fun (e : Nat × Nat × Bytes) => e.1 == k && !(s.cip.units.any (fun u => u.page == k && decide (u.id < e.2.1)))
  (s.cip.loadWait.filter ready).foldl (fun t e =>
    ((t.upCip (fun c => { c with loadWait := c.loadWait.erase e })).loadKey k e.2.2).finishAll
      (fun w => w.kind == wKey && w.aux == e.2.1 * 1024 + k) sOk 0 0) s

/-- CIP_LOAD_KEY (R171, R173). -/
def opCipLoadKey : OpSpec :=
  { code := 0x0801, role := .tenant, len := fun _ => 80,
    fields := fun _ p =>
      let m := fld p 2 1
      let n := fld p 3 1
      [(2, decide (1 ≤ m) && decide (m ≤ 4)), (3, n == 16 || n == 32), (4, if m = 2 then decide (fld p 4 1 ≤ 3) else fld p 4 1 == 0), rsv p 5 3,
       (8, m == 2 || fld p 8 4 == 0), rsv p 12 4, (16, if m = 1 then fld p 16 12 == 0 else if m = 2 then fld p 20 8 == 0 else true),
       rsv p 28 4, (32, m != 1 || fld p 32 8 == 0), rsv p 40 8, (48, fld p (48 + n) (32 - n) == 0)],
    run := fun c _ p s =>
      match s.callerPage c (fld p 0 2) with
      | .error v => v
      | .ok k =>
        if (s.page k).st = .zeroising then .refuse 0x0013 0
        else if s.cip.units.any (fun u => u.page == k) then
          .wait wKey (s.cip.nextUnit * 1024 + k) (s.upCip (fun x =>
            { x with nextUnit := x.nextUnit + 1, loadWait := x.loadWait ++ [(k, x.nextUnit, p)] }))
        else .ok (s.loadKey k p) }

/-- CIP_LOAD_KEY. -/
def execCipLoadKey (h : Hdr) (p : Bytes) (s : State) : Res := runPkt opCipLoadKey h p s

/-- CIP_CLEAR_PAGE (R172, R173). -/
def opCipClearPage : OpSpec :=
  { code := 0x0802, role := .tenant, len := fun _ => 8, fields := fun _ p => [rsv p 2 6],
    run := fun c _ p s =>
      match s.callerPage c (fld p 0 2) with
      | .error v => v
      | .ok k => if s.sto.nss.any (fun n => n.keyPage == k) then .refuse 0x0012 0 else .ok (s.upPage k KeyPage.zeroise) }

/-- CIP_CLEAR_PAGE. -/
def execCipClearPage (h : Hdr) (p : Bytes) (s : State) : Res := runPkt opCipClearPage h p s

/-! ## TLS records (R180) -/

/-- Kind of a CIP_CRYPT in progress; its number is the command's. -/
def wCrypt : Nat := 31

/-- Ends a CIP_CRYPT: RESULT the bytes written, DETAIL the records. -/
def State.cryptEnd (s : State) (x : Crypt) (status detail : Nat) : State :=
  (s.upCip (fun c => { c with crypts := c.crypts.filter (fun y => y.id != x.id) })).finishAll
    (fun w => w.kind == wCrypt && w.aux == x.id) status detail x.written

/-- The page mode that a CIP_CRYPT needs: a key loaded since for another use does not serve it (R172, R180). -/
def Crypt.pageMode (x : Crypt) : Nat := if x.enc then 3 else 4

/-- The largest unit of a TLS record (Table 6.1). -/
def tlsMax : Nat := 16640

/-- Submits the next record of a CIP_CRYPT, or ends it: at the end of the source, for want of room, of sequence space, of
a key, or of lanes (R180, R184). A source that ends inside a record ends there too; a record longer than a unit may be fails as one that
does not authenticate, without a lane (Table 6.1, log entry 16). -/
def State.cryptNext (s : State) (x : Crypt) : State :=
  let p := s.page x.page
  let ok := s.cryptEnd x sOk (satu 65535 x.records)
  let go := fun (n : Nat) (b : Bytes) =>
    if p.st = .exhausted then s.cryptEnd x 0x0014 (satu 65535 x.records)
    else if p.st ≠ .ready ∨ p.mode ≠ x.pageMode then (s.noKey x.page).cryptEnd x 0x0013 0
    else match (s.gRead n).submit { page := x.page, use := .tls x.id, seq := p.seq, data := b } none with
      | none => s.cryptEnd x sFenced 0
      | some t => t
  if x.enc then
    let n := min x.frag x.left
    if x.left = 0 ∨ x.room < n + 22 then ok else go n (s.mem x.src n)
  else if x.left < 5 then ok
  else
    let n := 5 + fldBE (s.mem (x.src + 3) 2) 0 2
    if tlsMax < n - 5 then s.cryptEnd x 0x0010 (satu 65535 x.records)
    else if x.left < n then ok else go n (s.mem x.src n)

/-- CIP_CRYPT (R180, R184; Table 6.7). -/
def opCipCrypt : OpSpec :=
  { code := 0x0803, role := .tenant, result := true, len := fun _ => 40, dataScope := some 0x7FFF0000,
    fields := fun _ p => [rsv p 3 1, (4, decide (fld p 4 4 ≤ 16384)), (16, decide (fld p 16 8 ≤ 1073741824))],
    run := fun c _ p s =>
      match s.callerPage c (fld p 0 2) with
      | .error v => v
      | .ok k =>
        let q := s.page k
        let enc := q.mode == 3
        if q.mode ≠ 3 ∧ q.mode ≠ 4 then .refuse 0x0013 0
        else if !enc ∧ fld p 2 1 ≠ 0 then badParam 2
        else if (enc ∧ fld p 4 4 = 0) ∨ (!enc ∧ fld p 4 4 ≠ 0) then badParam 4
        else if !(s.inStaging c.fn (fld p 8 8) (fld p 16 8)) then badParam 8
        else if !(s.inStaging c.fn (fld p 24 8) (fld p 32 8)) then badParam 24
        else if s.lanesUp.isEmpty then .refuse sFenced 0
        else
          let id := s.cip.nextUnit
          let x : Crypt := { id := id, page := k, enc := enc, ctype := fld p 2 1, frag := fld p 4 4, src := fld p 8 8, left := fld p 16 8,
                             dst := fld p 24 8, room := fld p 32 8 }
          .wait wCrypt id (s.upCip (fun y => { y with nextUnit := id + 1, crypts := y.crypts ++ [x] })) }

/-- CIP_CRYPT: the first record goes to a lane once the command has started. -/
def execCipCrypt (h : Hdr) (p : Bytes) (s : State) : Res :=
  match runPkt opCipCrypt h p s with
  | .next t =>
    .next ((t.cip.crypts.filter (fun x => !(s.cip.crypts.any (fun y => y.id == x.id)))).foldl (fun u x => u.cryptNext x) t)
  | r => r

/-- Inner plaintext and content type of a TLS inner record: padding zeros after the type are removed (RFC 8446). -/
def tlsInner (b : Bytes) : Bytes × Nat :=
  let r := b.reverse.dropWhile (fun x => x == 0)
  match r with
  | [] => ([], 0)
  | t :: rest => (rest.reverse, t.toNat)

/-- Releases a TLS record under the page's next sequence number, which records take as they are released, in order (R180, R181). -/
def State.releaseTls (s : State) (u : CipUnit) (id : Nat) : State :=
  match s.cip.crypts.find? (fun x => x.id == id) with
  | none => s
  | some x =>
    let p := s.page u.page
    let up := fun (t : State) (y : Crypt) => (t.upCip (fun c => { c with crypts := lupd c.crypts (fun z => z.id == id) (fun _ => y) }))
    if u.fin = 2 then s.cryptEnd x sIntegrity 0
    else if p.st = .exhausted then s.cryptEnd x 0x0014 (satu 65535 x.records)
    else if p.st ≠ .ready ∨ p.mode ≠ x.pageMode then (s.noKey u.page).cryptEnd x 0x0013 0
    else if x.enc then
      let n := u.data.length
      let hdr : Bytes := [23, 3, 3] ++ beBytes 2 (n + 17)
      let r := Config.gcmSeal p.key (tlsNonce p.ivSalt p.seq) hdr (u.data ++ [BitVec.ofNat 8 x.ctype])
      let b := hdr ++ padTo (n + 1) r.1 ++ padTo 16 r.2
      let y : Crypt := { x with src := x.src + n, left := x.left - n, dst := x.dst + b.length, room := x.room - b.length,
                                written := x.written + b.length, records := x.records + 1 }
      ((up ((s.upPage u.page KeyPage.bump).gWrite x.dst b) y).released u n).cryptNext y
    else
      let hdr := u.data.take 5
      let body := u.data.drop 5
      let n := body.length - 16
      match (if body.length < 17 then none
             else Config.gcmOpen p.key (tlsNonce p.ivSalt p.seq) hdr (body.take n) (body.drop n)) with
      | none => (s.authFailed u.page).cryptEnd x 0x0010 (satu 65535 x.records)
      | some pt =>
        let r := tlsInner (padTo n pt)
        if x.room < r.1.length then s.cryptEnd x sOk (satu 65535 x.records)
        else
          let y : Crypt := { x with src := x.src + u.data.length, left := x.left - u.data.length, dst := x.dst + r.1.length,
                                    room := x.room - r.1.length, written := x.written + r.1.length, records := x.records + 1 }
          let t := (up ((s.upPage u.page KeyPage.bump).gWrite x.dst r.1) y).released u n
          if r.2 ≠ 23 then t.cryptEnd y sOk (satu 65535 y.records) else t.cryptNext y

/-! ## ESP frames (R178, R179) -/

/-- Window of an ESP page. -/
def espWindow : Nat := 1024

/-- The sequence number of a frame: with ESN its high half is inferred from the window top (RFC 4303 Appendix A). -/
def espSeq (q : KeyPage) (lo : Nat) : Nat :=
  if !q.esn then lo
  else
    let th := q.seq / 4294967296
    let tl := q.seq % 4294967296
    if espWindow - 1 ≤ tl then (if tl - (espWindow - 1) ≤ lo then th * 4294967296 + lo else (th + 1) * 4294967296 + lo)
    else if tl + 4294967296 - (espWindow - 1) ≤ lo then (th + 4294967295) % 4294967296 * 4294967296 + lo
    else th * 4294967296 + lo

/-- How far a sequence number lies below the window top, modulo 2^64 with ESN; none where it lies above it. -/
def KeyPage.below (q : KeyPage) (n : Nat) : Option Nat :=
  if n ≤ q.seq then some (q.seq - n)
  else if q.esn ∧ q.seq + 2 ^ 64 < n + espWindow then some (q.seq + 2 ^ 64 - n)
  else none

/-- Whether a sequence number lies below the window or is already marked. -/
def KeyPage.replayed (q : KeyPage) (n : Nat) : Bool :=
  match q.below n with
  | some d => decide (espWindow ≤ d) || q.window.testBit d
  | none => false

/-- Marks a sequence number and advances the window top (R178, step 5). -/
def KeyPage.mark (q : KeyPage) (n : Nat) : KeyPage :=
  match q.below n with
  | some d => { q with window := q.window ||| 2 ^ d }
  | none => { q with seq := n, window := (q.window * 2 ^ min (n - q.seq) espWindow) % 2 ^ espWindow ||| 1 }

/-- Counts a replay. -/
def State.replay (s : State) (k : Nat) : State := s.upPage k (fun q => { q with cReplay := satu 65535 (q.cReplay + 1) })

/-- The Internet checksum of an IPv4 header whose checksum field is 0. -/
def ipv4Sum (b : Bytes) : Nat :=
  let t := ((List.range ((b.length + 1) / 2)).map (fun i => fldBE (padTo 2 (sub b (2 * i) 2)) 0 2)).sum
  let u := t % 65536 + t / 65536
  let v := u % 65536 + u / 65536
  65535 - v

/-- The frame after decryption (R178, step 6): `inner` without its trailer, `next` its Next Header. -/
def espFrame (tunnel : Bool) (frame inner : Bytes) (ipOff espOff next : Nat) : Bytes :=
  if tunnel then
    let et : Bytes := if next = 41 then [0x86, 0xDD] else [0x08, 0x00]
    frame.take (ipOff - 2) ++ et ++ inner
  else
    let ip := sub frame ipOff (espOff - ipOff)
    let v4 := fld ip 0 1 / 16 == 4
    let ip' := if v4 then
        let a := ip.take 2 ++ beBytes 2 (ip.length + inner.length) ++ sub ip 4 5 ++ [BitVec.ofNat 8 next] ++ [0, 0] ++ ip.drop 12
        a.take 10 ++ beBytes 2 (ipv4Sum a) ++ a.drop 12
      else ip.take 4 ++ beBytes 2 (ip.length - 40 + inner.length) ++ [BitVec.ofNat 8 next] ++ ip.drop 7
    frame.take ipOff ++ ip' ++ inner

/-- Releases an ESP frame under the sequence number that step 2 took it for: authenticates, marks the number, and hands the frame to recirculation (R178, R179,
R181). -/
def State.releaseEsp (s : State) (u : CipUnit) : State :=
  let q := s.page u.page
  let n := u.seq
  if u.fin = 2 then s
  else if q.st ≠ .ready ∨ q.mode ≠ 2 then s.noKey u.page
  else
    let f := u.data
    let ip := u.ipOff
    let stop := if fld f ip 1 / 16 = 4 then ip + fldBE f (ip + 2) 2 else ip + 40 + fldBE f (ip + 4) 2
    let esp := sub f u.espOff (stop - u.espOff)
    let aad := esp.take 4 ++ (if q.esn then beBytes 8 n else sub esp 4 4)
    let m := esp.length - 32
    match (if esp.length < 34 then none
           else Config.gcmOpen q.key (q.ivSalt.take 4 ++ sub esp 8 8) aad (sub esp 16 m) (esp.drop (16 + m))) with
    | none => s.authFailed u.page
    | some pt0 =>
      let pt := padTo m pt0
      if q.replayed n then s.replay u.page
      else
        let t := (s.upPage u.page (fun q => q.mark n)).released u m
        let next := fld pt (m - 1) 1
        let inner := pt.take (m - 2 - fld pt (m - 2) 1)
        if next = 59 then t
        else t.upHed (fun x => { x with recirc := x.recirc ++ [(u.id, u.port, q.owner, espFrame q.tunnel f inner ip u.espOff next)] })

/-! ## Storage blocks (R175, R177) -/

/-- Changes a remote command. -/
def State.upRemote (s : State) (cid : Nat) (f : Remote → Remote) : State :=
  s.upSto (fun x => { x with remotes := lupd x.remotes (fun r => r.cid == cid) f })

/-- Takes back a sealed drain that cannot be issued: its blocks may be drained again. -/
def State.sealBack (s : State) (x : Ns) (r : Remote) : State :=
  (r.seqs.foldl (fun t e => t.upWb e.1 (fun w => { w with pend := 0 }))
    (s.upSto (fun y => { y with remotes := y.remotes.filter (fun z => z.cid != r.cid) }))).sealedAck x r false

/-- Ends the sealing of a drain write once its last block is released: it is issued, and the records take the tags and the write counters.
One of whose blocks failed twice is a transient status: its blocks are drained again (R175, R181). -/
def State.sealEnd (s : State) (x : Ns) (cid : Nat) : State :=
  match s.sto.remotes.find? (fun r => r.cid == cid) with
  | none => s
  | some r =>
    if r.units ≠ 0 then s
    else if !r.badLanes.isEmpty then s.sealBack x r
    else
      let t := r.buf.foldl (fun t e => match t.tagRec x e.1 with
        | some q => t.putTagRec x e.1 { tag := e.2.drop 4096, ctr := q.ctr + 1, written := true }
        | none => t) s
      let b := r.buf.flatMap (fun e => e.2.take 4096)
      let up := t.targetUp (x.backs.getD r.back {}).target
      let v := t.upRemote cid (fun z => { z with sent := up, issued := up })
      if up then v.remoteOut x r.back 2 cid r.rblk r.blocks.length b else v

/-- Releases a sealed block under the write counter that follows its record's (R175). -/
def State.releaseSeal (s : State) (u : CipUnit) (cid blk : Nat) : State :=
  match s.sto.remotes.find? (fun r => r.cid == cid) with
  | none => s
  | some r =>
    match s.ns r.ctrl r.nsid with
    | none => s
    | some x =>
      if u.fin = 2 then
        (s.upRemote cid (fun z => { z with units := z.units - 1, badLanes := aset z.badLanes blk u.lane })).sealEnd x cid
      else if !(s.storagePage u.page r.ctrl) then
        (((s.sealBack x r).noKey u.page).stick (fun w => r.seqs.any (fun e => e.1 == w.seq))).writeFailed r.ctrl r.nsid 0
      else
        let ctr := match s.tagRec x blk with
          | some q => q.ctr + 1
          | none => 1
        let ct := Config.gcmSeal (s.page u.page).key (sealIv blk ctr) (sealAad r.nsid blk ctr) u.data
        ((s.released u 4096).upRemote cid (fun z =>
          { z with units := z.units - 1, buf := aset z.buf blk (padTo 4096 ct.1 ++ padTo 16 ct.2) })).sealEnd x cid

/-- Releases an opened block: its plaintext, or a failure that R177 reads once more. -/
def State.releaseOpen (s : State) (u : CipUnit) (cid blk : Nat) : State :=
  match s.sto.remotes.find? (fun r => r.cid == cid) with
  | none => s
  | some r =>
    match s.ns r.ctrl r.nsid with
    | none => s
    | some x =>
      let rec_ := (s.tagRecOf x cid blk).getD { tag := [], ctr := 0, written := false }
      let bad := fun (t : State) => (t.upRemote cid (fun z => { z with units := z.units - 1, badLanes := aset z.badLanes blk u.lane })).openedAll cid
      if u.fin = 2 then bad s
      else if !(s.storagePage u.page r.ctrl) then bad (s.noKey u.page)
      else match Config.gcmOpen (s.page u.page).key (sealIv blk rec_.ctr) (sealAad r.nsid blk rec_.ctr) u.data rec_.tag with
        | none => bad (s.authFailed u.page)
        | some pt =>
          ((s.released u 4096).upRemote cid (fun z => { z with units := z.units - 1, buf := aset z.buf blk (padTo 4096 pt) })).openedAll cid

/-! ## Completion of a unit -/

/-- Releases one unit: the lane's buffer is cleared, and its user takes the result (R167, R171). -/
def State.releaseUnit (s : State) (u : CipUnit) : State :=
  let t := s.upCip (fun c => { c with units := c.units.filter (fun x => x.id != u.id) })
  match u.use with
  | .esp => t.releaseEsp u
  | .seal cid blk => t.releaseSeal u cid blk
  | .open_ cid blk => t.releaseOpen u cid blk
  | .tls id => t.releaseTls u id

/-- Releases the units of a page in the order in which they were submitted (R167); a new key takes over between them
(R173). -/
def State.releasePage : Nat → State → Nat → State
  | 0, s, _ => s
  | fuel + 1, s, k =>
    match s.cip.units.find? (fun u => u.page == k) with
    | none => s.applyLoads k
    | some u => if u.fin = 0 then s.applyLoads k else State.releasePage fuel ((s.releaseUnit u).applyLoads k) k

/-- Stops a drain write whose blocks are at the lanes: they leave the lanes, and are drained again later (R355). -/
def State.sealStop (s : State) (x : Ns) (r : Remote) : State :=
  let mine := fun (u : CipUnit) => match u.use with | .seal c _ => c == r.cid | _ => false
  ((s.upCip (fun c => { c with units := c.units.filter (fun u => !mine u) })).sealBack x r).releasePage (s.cip.units.length + 1) x.keyPage

/-- Whether a unit is the one its lane processes; none is while memory is held (R350). -/
def State.running (s : State) (u : CipUnit) : Bool :=
  match s.cip.units.find? (fun x => x.lane == u.lane && x.fin == 0) with
  | some x => x.id == u.id && x.lane != laneNone && !s.memHeld
  | none => false

/-- CIPHER_UNIT_DONE: both computations have finished. If they agree the result is released in its turn; a first
disagreement runs the unit again on another lane, a second fails it (R181). -/
def execCipherUnitDone (unit : Nat) (agree : Bool) (s : State) : Res :=
  onMain s (fun s =>
    match s.cip.units.find? (fun u => u.id == unit && u.fin == 0) with
    | none => s
    | some u =>
      if !(s.running u) then s
      else
        let up := fun (t : State) (f : CipUnit → CipUnit) => t.upCip (fun c => { c with units := lupd c.units (fun x => x.id == unit) f })
        if agree then (up s (fun x => { x with fin := 1 })).releasePage (s.cip.units.length + 1) u.page
        else
          let t := s.mismatched u.page u.lane
          if u.rerun then (up t (fun x => { x with fin := 2 })).releasePage (s.cip.units.length + 1) u.page
          else match t.pickLane (some u.lane) with
            | some n =>
              (up t (fun x => { x with lane := n, rerun := true })).upCip (fun c =>
                { c with drbg := amod c.drbg n 0 (fun v => v + laneBlocks u.data.length) })
            | none => (up t (fun x => { x with fin := 2 })).releasePage (s.cip.units.length + 1) u.page)

/-- ESP_LANE_TIMEOUT: a frame that no lane took within 10 µs is dropped and counted (R178, step 3). -/
def execEspLaneTimeout (page : Nat) (s : State) : Res :=
  onMain s (fun s =>
    match s.cip.units.find? (fun u => u.page == page && u.use == .esp && u.fin == 0 && u.lane != laneNone && !s.running u && decide (u.at_ + 10000 ≤ s.now)) with
    | none => s
    | some u =>
      ((s.upCip (fun c => { c with units := c.units.filter (fun x => x.id != u.id) })).upPage page (fun q =>
        { q with drop := satu 65535 (q.drop + 1) })).releasePage (s.cip.units.length + 1) page)

/-- DRBG_RESEED: a lane that has run 2^20 blocks takes fresh entropy (R182). -/
def execDrbgReseed (lane : Nat) (s : State) : Res :=
  onMain s (fun s =>
    if 1048576 ≤ agetD s.cip.drbg lane 0 then
      s.upCip (fun c => { c with drbg := aset c.drbg lane 0, seeds := amod c.seeds lane 0 (· + 1) })
    else s)

end Sys2Proof.Machine
end

