-- ==== Sys2Proof/Machine/LatchOps.lean ====
section
/-!
DEFINITION. The latch unit as other blocks use it (R309 to R311): adding, arming, firing, refusing, and the await signal of a guard (R371, R377).
-/
namespace Sys2Proof.Machine

open Sys2Proof

/-- Latches of the device (R309). -/
def latchCount : Nat := 8192

/-- A latch. -/
def State.cell (s : State) (n : Nat) : Latch := agetD s.lat.cells n {}

/-- Changes a latch. -/
def State.upCell (s : State) (n : Nat) (f : Latch → Latch) : State :=
  s.upLat (fun l => { l with cells := amod l.cells n {} f })

/-- The latch that a function names: its number on the PF, its j-th latch on a VF (R310). -/
def State.latNamed (s : State) (fn j : Nat) : Option Nat :=
  if fn = 0 then (if j < latchCount then some j else none) else (agetD s.lat.order fn [])[j]?

/-- Unit ID of a latch (Table 1.7). -/
def uLatch (n : Nat) : Nat := unitId 11 (n / 512) + (n % 512 + 1)

/-- Whether VALUE has reached THRESH (R311). -/
def Latch.reached (l : Latch) : Bool :=
  if l.mode = 1 then decide ((l.val % 2 ^ 32 + 2 ^ 32 - l.thresh % 2 ^ 32) % 2 ^ 32 < 2 ^ 31)
  else decide ((l.val + 2 ^ 64 - l.thresh) % 2 ^ 64 < 2 ^ 63)

/-- Fires an armed latch that is satisfied: FIRED is set, the target acts once, and the latch is disarmed (R311). -/
def State.latchFire (s : State) (n : Nat) : State :=
  let l := s.cell n
  if l.en && l.armed && l.mode != 3 && l.reached then
    let t := ((s.upCell n (fun l => { l with fired := true, armed := false })).note (uLatch n) 0x0070 l.owner n l.val).withObs
      (fun u => u.gctr 0x00A0 (unitId 11 (n / 512)) 1)
    match l.tkind with
    | 1 => t.raiseFor l.owner l.tindex
    | 2 => t.upFeed (fun f => { f with rings := aupd f.rings l.tindex (fun r => { r with awake := true }) })
    | _ => t
  else s

/-- Arms a latch, which fires at once if it is already satisfied (R311). -/
def State.latchArm (s : State) (n : Nat) : State :=
  (s.upCell n (fun l => { l with armed := l.en && l.tkind != 0 })).latchFire n

/-- Refuses a write or post to a latch; `feed` counts it for the feed window too (R310, R311). -/
def State.latchRefuse (s : State) (n : Nat) (feed : Bool) : State :=
  let t := s.upCell n (fun l => { l with refused := satu 65535 (l.refused + 1), refusedEv := true })
  if feed then t.upFeed (fun f => { f with cRefused := satu 65535 (f.cRefused + 1) }) else t

/-- Sets VALUE and lets the latch fire. -/
def State.latchSet (s : State) (n v : Nat) : State := (s.upCell n (fun l => { l with val := v % 2 ^ 64 })).latchFire n

/-- Sets THRESH, which arms the latch (R311). -/
def State.latchThresh (s : State) (n v : Nat) : State := (s.upCell n (fun l => { l with thresh := v % 2 ^ 64 })).latchArm n

/-- Shards of a job that name a guard and are not in staging, in ascending SHARD_ID (R377). -/
def CkJob.uncopied (j : CkJob) (left : List Nat) (guard : Nat) : List Nat :=
  (left.filter (fun i => (j.shards.getD i {}).guard == guard)).mergeSort (fun a b =>
    decide ((j.shards.getD a {}).id ≤ (j.shards.getD b {}).id))

/-- The await signal on a guard: its uncopied shards go ahead, behind the guards awaited before it (R371, R377). -/
def Capture.await (c : Capture) (j : CkJob) (guard now : Nat) : Capture :=
  let mine := j.uncopied c.left guard
  if mine.isEmpty ∨ c.awaits.any (fun a => a.1 == guard) then c
  else
    let before := c.awaits.flatMap (fun a => j.uncopied c.left a.1)
    { c with left := before ++ mine ++ c.left.filter (fun i => !mine.contains i && !before.contains i),
             awaits := c.awaits ++ [(guard, now)] }

/-- Whether an await signal on a guard moves a shard. -/
def CkJob.awaitMoves (j : CkJob) (guard : Nat) : Bool :=
  match j.capture with
  | none => false
  | some c => !(j.uncopied c.left guard).isEmpty && !c.awaits.any (fun a => a.1 == guard)

/-- A checkpoint job. -/
def State.ck (s : State) (h : Nat) : Option CkJob := aget s.ckp.jobs h

/-- Changes a checkpoint job. -/
def State.upCk (s : State) (h : Nat) (f : CkJob → CkJob) : State := s.upCkp (fun k => { k with jobs := aupd k.jobs h f })

/-- Changes the capture of a job. -/
def State.upCapture (s : State) (h : Nat) (f : Capture → Capture) : State := s.upCk h (fun j => { j with capture := j.capture.map f })

/-- Shard of an index. -/
def CkJob.shard (j : CkJob) (i : Nat) : Shard := j.shards.getD i {}

/-- The shard at the head of each attachment point's queue: the one being copied once copying has begun (R377). -/
def CkJob.heads (j : CkJob) (c : Capture) : List Nat :=
  (List.range 8).filterMap (fun a => c.left.find? (fun i => (j.shard i).accel == a))

/-- The read of a shard into staging begins, or resumes at the chunk at which it paused (R377). -/
def State.shardRead (s : State) (j : CkJob) (c : Capture) (i : Nat) : State :=
  let d := j.shard i
  let at_ := 1048576 * agetD c.paused i 0
  s.emit .accRead d.accel d.bar (d.offset + at_) (leBytes 8 (d.size - at_))

/-- Awaited shards have gone ahead of shard `i`, which is being copied: it pauses at the next 1 MiB boundary that its read reaches, and the
awaited read begins; one in its last chunk ends first (R377). How far a read has come is a free value (log entry 78). -/
def State.overtake (s : State) (h i : Nat) : State :=
  match (s.ck h).bind (fun j => j.capture.map (fun c => (j, c))) with
  | none => s
  | some (j, c) =>
    match c.left.find? (fun k => (j.shard k).accel == (j.shard i).accel) with
    | none => s
    | some k =>
      if k = i then s
      else
        let done := agetD c.paused i 0
        let all := ((j.shard i).size + 1048575) / 1048576
        let at_ := done + 1 + s.freeNat (all - done)
        if all ≤ at_ then s.spent.upCapture h (fun c => { c with left := i :: c.left.erase i })
        else
          let c' := { c with paused := aset c.paused i at_ }
          (s.spent.upCapture h (fun _ => c')).shardRead j c' k

/-- The await signal reaches a job that it moves (R371, R377). -/
def State.awaitJob (s : State) (h n : Nat) : State :=
  match (s.ck h).bind (fun j => j.capture.map (fun c => (j, c))) with
  | none => s
  | some (j, c) =>
    let t := s.upCk h (fun j => { j with capture := some (c.await j n s.now), awaits := satu 4294967295 (j.awaits + 1) })
    if c.started then (j.heads c).foldl (fun u i => u.overtake h i) t else t

/-- An add to a guard latch (R371). -/
def State.latchAwait (s : State) (n : Nat) : State := s.ckp.jobs.foldl (fun t e => if e.2.awaitMoves n then t.awaitJob e.1 n else t) s

/-- An add to a latch, from whatever origin: refused in credit mode and in mode 3, an await signal in guard mode (R311). -/
def State.latchAdd (s : State) (n inc : Nat) (feed : Bool) : State :=
  let l := s.cell n
  if l.mode = 1 ∨ l.mode = 3 then s.latchRefuse n feed
  else if l.mode = 2 then s.latchAwait n
  else s.latchSet n (l.val + inc)

/-- An add by a mailbox or a cue event to the latch that a function names; one it does not have is ignored. -/
def State.latchAddFor (s : State) (fn j inc : Nat) : State :=
  match s.latNamed fn j with
  | some n => if (s.cell n).owner = fn then s.latchAdd n inc false else s
  | none => s

end Sys2Proof.Machine
end

