-- ==== Sys2Proof/Machine/Bar.lean ====
section
/-!
DEFINITION. Accesses of the host to BAR0 (R27, R457, Table 17.9): what is performed, and how two 4-byte writes make one of 8.
-/
namespace Sys2Proof

/-- Whether an access has the size and alignment that BAR0 takes (R27). -/
def Access.aligned (a : Access) : Bool := (a.size == 4 || a.size == 8) && a.off % a.size == 0

end Sys2Proof

namespace Sys2Proof.Machine

open Sys2Proof

/-- A host access error (R27). -/
def State.accessError (s : State) : State := s.upRas (fun r => { r with cAccess := satu 65535 (r.cAccess + 1) })

/-- Drops the high word held for a write of a register. -/
def State.dropHeld (s : State) (fn off : Nat) : State :=
  s.upGlb (fun g => { g with heldHi := g.heldHi.filter (fun w => !(w.fn == fn && w.off == off)) })

/-- The high word held for a write of a register. -/
def State.heldWord (s : State) (fn off : Nat) : Option Nat := (s.glb.heldHi.find? (fun w => w.fn == fn && w.off == off)).map (fun w => w.val)

/-- A write to a 64-bit register at `off` (R27): `f` takes the value and whether both halves were written; otherwise only the low half
is, and the high half of the value is that of `old`. -/
def State.write64 (s : State) (a : Access) (off old : Nat) (f : State → Nat → Bool → State) : State :=
  if !a.aligned then s.accessError
  else if a.size = 8 then f (s.dropHeld a.fn off) (a.val % 2 ^ 64) true
  else if a.off = off + 4 then
    (s.dropHeld a.fn off).upGlb (fun g => { g with heldHi := g.heldHi ++ [{ fn := a.fn, off := off, val := a.val % 2 ^ 32 }] })
  else match s.heldWord a.fn off with
    | some h => f (s.dropHeld a.fn off) (a.val % 2 ^ 32 + 2 ^ 32 * h) true
    | none => f s (a.val % 2 ^ 32 + old / 2 ^ 32 * 2 ^ 32) false

end Sys2Proof.Machine
end

