-- ==== Sys2Proof/Machine/StgOps.lean ====
section
/-!
DEFINITION. Stagehands as the stage manager handles them (R392 to R407): images, the cores' local memory, the end of a run, the
settling of a journal, rehoming, and the handover's turns.
-/
namespace Sys2Proof.Machine

open Sys2Proof

/-! ## Images (R392, R393) -/

/-- The header of an image (Table 14.1). -/
def ImgHdr.ofBytes (b : Bytes) : ImgHdr :=
  { modAbi := fld b 6 2, len := fld b 8 4, svn := fld b 12 4, build := fld b 16 8, offer := fld b 24 16, verMin := fld b 40 1,
    verMax := fld b 41 1, recMin := fld b 44 2, recMax := fld b 46 2, resident := fld b 48 4, entry := fld b 52 4, digest := sha256 b,
    bytes128 := b.take 128, body := b.drop 128 }

/-- Whether the header's fields lie within Table 14.1 (R393). -/
def imgFormat (b : Bytes) : Bool :=
  fld b 0 4 == 0x53484731 && fld b 4 2 == 1 && fld b 8 4 == b.length && decide (b.length ≤ 8388608) && b.length % 64 == 0 &&
    decide (192 ≤ b.length) && decide (fld b 48 4 ≤ 196608) && decide (1 ≤ fld b 40 1) && decide (fld b 40 1 ≤ fld b 41 1) &&
    decide (fld b 41 1 ≤ 2)

/-- A signed image's key and signature (R392): the key's digest is one of those admitted, and the signature verifies. -/
def imgSigned (b : Bytes) (keys : List Bytes) : Bool :=
  keys.contains (sha256 (sub b 64 64)) &&
    Config.ecdsaVerify (sub b 64 64) (sha256 (b.take (b.length - 64))) (b.drop (b.length - 64))

/-- The firmware key digest in force (R393, Table 18.6). -/
def State.fwKey (s : State) : Bytes := if s.sm.cfg.fwKey.isEmpty then Config.factoryDigest 3 else s.sm.cfg.fwKey

/-- The minimum stagehand SVN in force: the greater of the stored value and the counter (R490). -/
def State.minStgSvn (s : State) : Nat := max (s.sm.cfg.minStg.getD (Config.factorySvn 4)) s.flash.otpStg

/-- Load status of an image's checks: 0 good, 4 FORMAT, 3 SIG_FAIL, 5 SVN_LOW (R393, Table 14.2). The header locates the signature,
so it is judged first. -/
def State.fwImgCheck (s : State) (b : Bytes) : Nat :=
  if !imgFormat b then 4 else if !imgSigned b [s.fwKey] then 3 else if fld b 12 4 < s.minStgSvn then 5 else 0

/-! ## Journals (R71, R397, R399) -/

/-- A command whose work was a module's run, which has ended with the stagehand's: it is carried out again (R71). -/
def WaitCmd.refetched (w : WaitCmd) : FetchedCmd :=
  { opcode := w.opcode, hdr := w.hdr, params := w.params, sqHead := w.sqHead, replayed := true, mute := w.mute }

/-- Settles the accepted commands that a test picks out (R71, R399): an IDEMPOTENT one is replayed or attaches to its work, any other
completes ABORTED_BY_RESTART, and its hardware work goes on. -/
def State.settle (s : State) (mine : Hdr → Bool) : State :=
  let goneF := s.cmd.fetched.filter (fun f => mine f.hdr && !f.hdr.idempotent)
  let goneW := s.cmd.waiting.filter (fun w => mine w.hdr && !w.hdr.idempotent)
  let again := s.cmd.waiting.filter (fun w => mine w.hdr && w.hdr.idempotent && w.kind == wModule)
  let goneX := s.cmd.fanouts.filter (fun f => mine f.hdr && !f.hdr.idempotent)
  let t := s.upCmd (fun c =>
    { c with
      fetched := again.map WaitCmd.refetched ++
        (c.fetched.filter (fun f => !goneF.contains f)).map (fun f => if mine f.hdr then { f with replayed := true } else f)
      waiting := (c.waiting.filter (fun w => !again.contains w)).map (fun w => if mine w.hdr && w.hdr.idempotent then { w with replayed := true, attached := true } else w)
      fanouts := c.fanouts.map (fun f => if mine f.hdr then { f with replayed := true } else f) })
  let u := goneF.foldl (fun t f => t.reply f.hdr f.opcode { status := sAborted, st := t.judge f.opcode f.hdr.unit, sqHead := f.sqHead, replayed := f.replayed, mute := f.mute }) t
  let v := goneX.foldl (fun t f => (t.fanoutDrop f).reply f.hdr f.opcode
    { status := sAborted, st := f.stateCode, sqHead := f.sqHead, replayed := f.replayed, mute := f.mute }) u
  (goneW.foldl (fun t w => t.finish w sAborted 0 0 w.stateCode) v).settleUnloads

/-- Whether a command came from one of some queue pairs. -/
def fromQps (l : List Nat) (h : Hdr) : Bool := l.any (fun k => h.onQp k)

/-- Queue pairs homed on a stagehand, in ascending order. -/
def State.homedOn (s : State) (n : Nat) : List Nat := (s.cmd.qps.filter (fun e => e.2.home == n)).map (fun e => e.1)

/-- Rehomes the queue pairs of a fenced stagehand, settles its journal, and moves the entries that stay to the new homes (R402). -/
def State.rehome (s : State) (n : Nat) : State :=
  let l := s.homedOn n
  let t := (l.foldl (fun t k => t.upQp k (fun q => { q with home := t.pickHome })) s).settle (fromQps l)
  let left := t.journal n
  let put := fun (l : List JEntry) (e : JEntry) =>
    match e.hdr.chan with
    | .host fn qp => journalPut l (agetD t.cmd.qps (qpKey fn qp) {}).home e
    | _ => l
  let all := left.foldl put (t.liveEntries.filter (fun e => e.home != n))
  t.upCmd (fun c => { c with entries := all })

/-! ## What the device reserve holds for the stagehands (R397, R398, R405) -/

/-- Stage of a journal entry: 0 ACCEPTED, 1 RUNNING, 2 WAITING, 3 REPLIED. A command runs within one event, and from step 1 of a handover
every unfinished command is WAITING (R397, R399, Table 14.5). -/
def State.stageOf (s : State) (e : JEntry) : Nat :=
  if s.handsQuiet || !(s.cmd.fetched.any (fun f => f.hdr == e.hdr && f.held.isNone)) then 2 else 0

/-- A journal entry of 128 bytes: the header, the queue pair, the slot, the offset of the parameters and the stage (R397; the places after
the header are the model's, log entry 13). -/
def State.entryBytes (s : State) (e : JEntry) : Bytes :=
  padTo 128 (e.hdr.bytes e.opcode ++ leBytes 4 e.hdr.crc ++ leBytes 2 e.hdr.chan.fn ++ leBytes 2 e.hdr.chan.qp ++ leBytes 4 e.sqSlot ++
    leBytes 4 e.off ++ [BitVec.ofNat 8 (s.stageOf e)])

/-- The parameters of an accepted command. -/
def State.paramsOf (s : State) (h : Hdr) : Bytes :=
  match s.cmd.fetched.find? (fun f => f.hdr == h), s.cmd.waiting.find? (fun w => w.hdr == h) with
  | some f, _ => f.params
  | _, some w => w.params
  | _, _ => []

/-- The objects that the stagehands keep in the device reserve beside what its cells hold: both copies of each journal entry, and the
parameters in the replay areas, with their addresses (R397, R398). -/
def State.reserveObjects (s : State) : List (Nat × Bytes) :=
  s.liveEntries.flatMap (fun e =>
    [(s.journalBase 0 e.home + 128 * e.slot, s.entryBytes e), (s.journalBase 1 e.home + 128 * e.slot, s.entryBytes e)] ++
      (if e.hdr.ptr then [(s.replayBase e.home + e.off, (s.paramsOf e.hdr).take e.bytes)] else []))

/-- Bytes of GDDR7 with those objects in their places. -/
def State.memWith (s : State) (a n : Nat) : Bytes :=
  s.reserveObjects.foldl (fun b o => (b.zipIdx).map (fun e =>
    if o.1 ≤ a + e.2 ∧ a + e.2 < o.1 + o.2.length then o.2.getD (a + e.2 - o.1) 0 else e.1)) (s.mem a n)

/-- One section of the state record (Table 14.6). -/
def section_ (type : Nat) (body : Bytes) : Bytes := leBytes 2 type ++ zeros 2 ++ leBytes 4 body.length ++ body

/-- A role as the state record has it. -/
def roleByte (r : Role) : BitVec 8 :=
  match r with
  | .operator => 0
  | .manager => 1
  | .tenant => 2

/-- The sections of the state record: sessions by function, queue pairs, journal index, modules, forwarded commands, and watchdog and ladder
settings. The layout of their bodies is the model's (log entry 83). -/
def State.recordSections (s : State) : List Bytes :=
  [section_ 1 (s.cmd.fns.flatMap (fun e => leBytes 2 e.1 ++ leBytes 8 e.2.issued ++ leBytes 4 e.2.wrong ++ leBytes 8 (e.2.lockUntil.getD 0)) ++
      s.cmd.sessions.flatMap (fun x => leBytes 2 x.fn ++ leBytes 4 x.handle ++
        [roleByte x.role])),
   section_ 2 (s.cmd.qps.flatMap (fun e =>
      leBytes 2 (e.1 / 65536) ++ leBytes 2 (e.1 % 65536) ++ leBytes 8 e.2.sqBase ++ leBytes 8 e.2.cqBase ++ leBytes 1 e.2.sqLog2 ++
        leBytes 1 e.2.cqLog2 ++ leBytes 2 e.2.head ++ leBytes 2 e.2.tail ++ leBytes 2 e.2.cqHead ++ leBytes 2 e.2.cqTail ++
        leBytes 1 (b2n e.2.phase) ++ leBytes 2 e.2.vector ++ leBytes 1 e.2.prio ++ leBytes 1 e.2.home)),
   section_ 3 (s.liveEntries.flatMap (fun e => leBytes 2 e.home ++ leBytes 2 e.slot ++ leBytes 1 (s.stageOf e))),
   section_ 4 (s.stg.modules.flatMap (fun m => leBytes 1 m.cls ++ leBytes 2 m.areaKib ++
      [roleByte m.least] ++ leBytes 2 m.faultAt.length)),
   section_ 5 (s.cmd.fanouts.flatMap (fun f => leBytes 8 f.id ++ leBytes 2 f.replies.length ++ f.replies.flatMap (fun r => padTo 32 r.rep))),
   section_ 6 (leBytes 2 s.stg.wdogMs ++ (List.range 16).flatMap (fun n => leBytes 1 (s.rasUnit (128 + n)).rung))]

/-- The state record (Table 14.6) in a version, written by the image of a security version. -/
def State.stateRecord (s : State) (ver svn : Nat) : Bytes :=
  let body := s.recordSections.flatten
  let live := (s.handsUp.map (fun n => 2 ^ n)).sum
  let b := leBytes 2 ver ++ zeros 2 ++ leBytes 4 (64 + body.length + 4) ++ leBytes 4 svn ++ leBytes 4 s.recordSections.length ++
    leBytes 16 s.stg.grant ++ leBytes 1 s.stg.grantMin ++ leBytes 1 s.stg.grantMax ++ leBytes 2 live ++ zeros 28 ++ body
  b ++ leBytes 4 (crc32c b)

/-- Whether a copy of the state record can be read by an image: its version is one that the image reads, and its CRC is right. -/
def State.recordGood (s : State) (img : ImgHdr) (copy : Nat) : Bool :=
  let a := s.recordBase copy
  let b := s.mem a (fld (s.mem a 8) 4 4)
  decide (68 ≤ b.length) && decide (img.recMin ≤ fld b 0 2) && decide (fld b 0 2 ≤ img.recMax) &&
    fld b (b.length - 4) 4 == crc32c (b.take (b.length - 4))

/-- Writes both copies of an image into an image area of the device reserve (R393, R394). -/
def State.putImage (s : State) (bank off : Nat) (b : Bytes) : State :=
  (s.gWrite (s.imgBase bank 0 + off) b).gWrite (s.imgBase bank 1 + off) b

/-- Discards what an image area holds. -/
def State.dropImage (s : State) (bank : Nat) : State := s.gClear (s.imgBase bank 0) 16777216

/-! ## Handover (R404 to R407) -/

/-- What FW_ACTIVATE and FW_ROLLBACK wait for. -/
def wActivate : Nat := 80
def wRollback : Nat := 81

/-- STG_STAT. -/
def stgStatOff : Nat := 0x03000050

/-- Abandons a handover: every stagehand resumes in the running image, and FW_ACTIVATE completes FW_QUIESCE_TIMEOUT (R406). -/
def State.handoverAbandon (s : State) (detail : Nat) : State :=
  ((s.upStg (fun x => { x with handover := none })).handsState 1).finishAll (fun w => w.kind == wActivate) 0x0015 detail 0

/-- Begins a rollback: Table 14.5 runs in the opposite direction (R407). -/
def State.handoverBack (s : State) (auto : Bool) : State :=
  s.upStg (fun x => { x with handover := x.handover.map (fun h => { h with stage := 1, back := true, auto := auto, since := s.now }) })

/-- A stagehand's run has ended by an expiry or a double trap while a handover is in progress: before step 3 the handover is abandoned, after it the trial rolls
back by itself (R406, R407). -/
def State.handoverHit (s : State) : State :=
  match s.stg.handover with
  | none => s
  | some h => if h.back ∨ h.stage = 0 then s else if h.stage = 1 then s.handoverAbandon 1 else s.handoverBack true

/-! ## The end of a run (R400) -/

/-- Ends of a stagehand's run in the last second. -/
def StgHand.recentEnds (g : StgHand) (now : Nat) : List Nat := g.endedAt.filter (fun t => decide (now < t + 1000000000))

/-- A stagehand's run ends, by an uncorrected local-memory error for one: it is held in reset, its stack empties (R447), and the event counts
towards the third in 1 s. -/
def State.handStops (s : State) (n : Nat) : State :=
  ((s.upHand n (fun g => { g with restarting := true, endedAt := g.recentEnds s.now ++ [s.now] })).upCore n (fun c =>
    { c with running := false, waiting := none })).clearHandStack n

/-- The end of a run by a watchdog expiry or a double trap: it is one detected error, and ends a handover or a trial (R400, R406, R407,
Table 12.2). -/
def State.handEnds (s : State) (n : Nat) : State :=
  let t := (s.handStops n).handoverHit
  t.charge (unitId 8 n) .watchdog 0 ((t.hand n).recentEnds s.now).length 0

/-- A stagehand is fenced (R400, R402): its run ends for good and its queue pairs are rehomed. -/
def State.handFence (s : State) (n : Nat) : State :=
  let t := ((s.upHand n (fun g => { g with restarting := false })).upCore n (fun c => { c with running := false, waiting := none })).clearHandStack n
  (t.flag 10 stgStatOff 5 (fun u => u.upStg (fun x => { x with evFence := true }))).rehome n

end Sys2Proof.Machine
end

