-- ==== Sys2Proof/Machine/Stg.lean ====
section
/-!
DEFINITION. Stagehand firmware (R392 to R411): loading, watchdogs, the understudy handover, customer modules and the class 0x0C
opcodes.
-/
namespace Sys2Proof.Machine

open Sys2Proof

/-! ## Loading at start (R394, R395) -/

/-- STG_LOAD_CTRL. -/
def stgCtrlOff : Nat := 0x03000008

/-- Starts a load; one while an image runs is refused, except one that restores lost copies (R394). -/
def State.stgGo (s : State) : State :=
  if s.stg.status = 1 then s
  else if s.stg.image.isSome ∧ !s.stg.imgLost then s.upStg (fun x => { x with status := 8 })
  else
    let t := (s.hostRead 0 s.stg.loadAddr s.stg.loadLen).upStg (fun x => { x with status := 1, loadLost := x.image.isSome })
    if s.stg.image.isSome then t else t.handsState 0x13

/-- STG_LOAD_GO: a write of STG_LOAD_CTRL with GO set (R394). -/
def execStgLoadGo (a : Access) (s : State) : Res :=
  if a.fn = 0 ∧ a.wr ∧ a.off = stgCtrlOff ∧ bit a.val 24 then
    barWrite 0 a.off a.size s (fun s =>
      if !a.aligned then s.accessError else (s.upStg (fun x => { x with loadLen := a.val % 2 ^ 24 })).stgGo)
  else .next s

/-- Makes live every enabled function that waited for an image (R97). -/
def State.liveAll (s : State) : State := s.cmd.fns.foldl (fun t e => t.makeLive e.1) s

/-- STG_LOAD_DONE: the image has been read into the device reserve and checked, the features negotiated, and the stagehands started (R393 to R395). -/
def execStgLoadDone (image : Bytes) (readOk : Bool) (s : State) : Res :=
  onMainIf s (s.stg.status == 1) (fun s =>
    let b := padTo s.stg.loadLen image
    let set := fun (n : Nat) => (s.upStg (fun x => { x with status := n })).handsState 0
    if s.stg.loadLost then
      if !readOk then s.upStg (fun x => { x with status := 7, loadLost := false })
      else if s.stg.image.any (fun i => i.digest == sha256 b) then
        (s.upStg (fun x => { x with status := 2, loadLost := false, imgLost := false })).putImage s.stg.bank 0 b
      else s.upStg (fun x => { x with status := 8, loadLost := false })
    else if !readOk then set 7
    else
      let s := (s.dropImage s.stg.bank).putImage s.stg.bank 0 b
      let set := fun (n : Nat) => (s.upStg (fun x => { x with status := n })).handsState 0
      let c := s.fwImgCheck b
      let h := ImgHdr.ofBytes b
      let grant := (s.stg.reqLo + 2 ^ 64 * s.stg.reqHi) &&& h.offer
      let lo := max 1 (max s.stg.reqMin h.verMin)
      let hi := min 2 (min s.stg.reqMax h.verMax)
      if c ≠ 0 then set c
      else if !(grant.testBit 0) ∨ hi < lo then set 6
      else
        let t := s.upStg (fun x => { x with status := 2, image := some h, grant := grant, grantMin := lo, grantMax := hi })
        let u := t.handsUp.foldl (fun u n => (u.loadHand n).upHand n (fun g => { g with st := 1, restarting := false })) t
        u.liveAll)

/-! ## Watchdogs (R400, R401) -/

/-- STG_WDOG.TIMEOUT_MS in ns; 0 and 1 act as 2 (Table 14.11). -/
def Stg.wdogNs (x : Stg) : Nat := max 2 x.wdogMs * 1000000

/-- WATCHDOG_EXPIRY: a stagehand has not kicked for TIMEOUT_MS; its run ends (R400). -/
def execWatchdogExpiry (core : Nat) (s : State) : Res :=
  onMainIf s ((s.core core).running && s.handUp core && decide ((s.hand core).kickAt + s.stg.wdogNs ≤ s.now)) (fun s => s.handEnds core)

/-- Whether a stagehand held in reset may be restarted: it is not fenced, its detected error has been taken, the image is not lost,
and no handover is about to load it (R400, R401, R407). -/
def State.mayRestart (s : State) (n : Nat) : Bool :=
  (s.hand n).restarting && s.handUp n && s.stg.image.isSome && !s.stg.imgLost &&
    !(s.ras.charged.any (fun c => c.unit == unitId 8 n)) && (match s.stg.handover with | none => true | some h => h.stage == 0)

/-- A stagehand whose run ended starts again: its journal is settled before it fetches (R71, R400). -/
def State.handBack (s : State) (n : Nat) : State :=
  let t := (s.upHand n (fun g => { g with restarting := false, restarts := satu 65535 (g.restarts + 1), kickAt := s.now })).settle (fromQps (s.homedOn n))
  t.flag 10 stgStatOff 4 (fun u => u.upStg (fun x => { x with evRestart := true }))

/-- STAGEHAND_RESTARTED: local memory is cleared, the resident image reloaded, and the stagehand fetches again (R400, R401). -/
def execStagehandRestarted (core : Nat) (s : State) : Res :=
  onMainIf s (s.mayRestart core) (fun s => (s.loadHand core).handBack core)

/-! ## The understudy (R403) -/

/-- FW_GET_INFO (Table 14.7). -/
def opFwGetInfo : OpSpec :=
  { code := 0x0C00, result := true, len := fun _ => 8,
    run := fun c _ p s =>
      let us := match s.stg.usHdr with
        | some h => h.bytes128
        | none => s.stg.understudy.take 128
      let run := match s.stg.image with
        | some h => h.bytes128
        | none => []
      .done sOk 0 ((s.stg.image.map (fun h => h.svn)).getD 0) (s.hostWrite c.fn (fld p 0 8) (padTo 128 run ++ padTo 128 us)) }

/-- FW_GET_INFO. -/
def execFwGetInfo (h : Hdr) (p : Bytes) (s : State) : Res := runPkt opFwGetInfo h p s

/-- Writes bytes at an offset of a buffer that grows with zeros. -/
def putAt (b : Bytes) (off : Nat) (x : Bytes) : Bytes := padTo off (b.take off) ++ x ++ b.drop (off + x.length)

/-- The device reserve holds the understudy in the image area that the running image does not take; during a handover or a trial the other
image keeps that area, and the understudy's copies follow at its end (R393, R407). -/
def State.stageCopies (s : State) (fresh : Bool) : State :=
  if s.stg.handover.isSome then s
  else (if fresh then s.dropImage (1 - s.stg.bank) else s).putImage (1 - s.stg.bank) 0 s.stg.understudy

/-- FW_STAGE (R403): a chunk at OFFSET 0 discards any earlier understudy. -/
def opFwStage : OpSpec :=
  { code := 0x0C01, needPtr := true, len := fun p => 8 + fld p 4 4,
    fields := fun _ p => [(4, decide (fld p 4 4 ≤ 1048576))],
    run := fun _ _ p s =>
      if 8388608 < fld p 0 4 + fld p 4 4 then badParam 0
      else
        let old := if fld p 0 4 = 0 then [] else s.stg.understudy
        .ok ((s.upStg (fun x => { x with understudy := putAt old (fld p 0 4) (sub p 8 (fld p 4 4)), usReady := false, usHdr := none })).stageCopies
          (fld p 0 4 == 0)) }

/-- FW_STAGE. -/
def execFwStage (h : Hdr) (p : Bytes) (s : State) : Res := runPkt opFwStage h p s

/-- Resident bytes of the loaded modules. -/
def Stg.moduleBytes (x : Stg) : Nat := (x.modules.map (fun m => m.resident)).sum

/-- FW_VERIFY (R403): the checks of R393, and then the five of its list, in its order. An image out of format is INVALID_PARAM (log entry 31). -/
def opFwVerify : OpSpec :=
  { code := 0x0C02,
    run := fun _ _ _ s =>
      let b := s.stg.understudy
      let h := ImgHdr.ofBytes b
      let c := s.fwImgCheck b
      match s.stg.image with
      | none => badState
      | some r =>
        if c = 4 then .refuse sBadParam 0
        else if c = 3 then .refuse 0x0011 0
        else if c = 5 then .refuse 0x0012 0
        else if s.stg.grant &&& h.offer ≠ s.stg.grant then .refuse 0x0013 0
        else if s.stg.grantMin < h.verMin ∨ h.verMax < s.stg.grantMax then .refuse 0x0013 1
        else if r.recMax < h.recMin ∨ h.recMax < r.recMax then .refuse 0x0014 0
        else if !(s.stg.modules.all (fun m => m.modAbi == h.modAbi)) then .refuse 0x0017 0
        else if 196608 < h.resident + s.stg.moduleBytes then noResource
        else .ok (s.upStg (fun x => { x with usReady := true, usHdr := some h })) }

/-- FW_VERIFY. -/
def execFwVerify (h : Hdr) (p : Bytes) (s : State) : Res := runPkt opFwVerify h p s

/-! ## Handover (R404 to R407) -/

/-- FW_ACTIVATE (R404). -/
def opFwActivate : OpSpec :=
  { code := 0x0C03, result := true, len := fun _ => 8, feats := fun _ => [5],
    fields := fun _ p => [(0, decide (100 ≤ fld p 0 4) && decide (fld p 0 4 ≤ 600000)), rsv p 4 4],
    run := fun _ _ p s =>
      if s.stg.handover.isSome ∨ s.cmd.inters.any (fun r => r.ph != .intermission) then badState
      else if !s.stg.usReady then .refuse 0x0018 0
      else .wait wActivate 0 (s.upStg (fun x =>
        { x with handover := some { since := s.now, accepted := s.now, trialMs := fld p 0 4, new := x.usHdr } })) }

/-- FW_ACTIVATE. -/
def execFwActivate (h : Hdr) (p : Bytes) (s : State) : Res := runPkt opFwActivate h p s

/-- A step of the handover while it is at a stage. -/
def onHandover (s : State) (stage : Nat) (f : State → Handover → State) : Res :=
  onMain s (fun s =>
    match s.stg.handover with
    | some h => if h.stage = stage then f s h else s
    | none => s)

/-- Changes the handover in progress. -/
def State.upHandover (s : State) (f : Handover → Handover) : State := s.upStg (fun x => { x with handover := x.handover.map f })

/-- Whether the stage manager has reported no power or thermal emergency for a continuous 100 ms (R404). -/
def State.handoverClear (s : State) : Bool := s.sm.running && !s.pwr.emergency && decide (s.pwr.clearAt + 100000000 ≤ s.smNow)

/-- HANDOVER_CLEARANCE: the stage manager has reported no emergency for 100 ms, and step 1 begins (R404, R405). -/
def execHandoverClearance (s : State) : Res :=
  onHandover s 0 (fun s _ =>
    if s.handoverClear then
      (s.upHandover (fun h => { h with stage := 1, since := s.now })).handsState 0x14
    else s)

/-- ACTIVATE_DEFER_TIMEOUT: 60 s have passed without that clearance; the understudy stays READY (R404). -/
def execActivateDeferTimeout (s : State) : Res :=
  onHandover s 0 (fun s h =>
    if h.accepted + 60000000000 ≤ s.now ∧ !s.handoverClear then
      (s.upStg (fun x => { x with handover := none })).finishAll (fun w => w.kind == wActivate) 0x0010 0 0
    else s)

/-- HANDOVER_QUIESCED: step 1 is over; the record is written twice, in the running image's REC_MAX or backwards in the old image's, and the
other image is loaded into every stagehand in service (steps 2 and 3 of Table 14.5; R407). -/
def execHandoverQuiesced (s : State) : Res :=
  onHandover s 1 (fun s h =>
    let next := if h.back then h.old else h.new
    let ver := ((if h.back then h.old else s.stg.image).map (fun i => i.recMax)).getD 0
    let b := s.stateRecord ver ((s.stg.image.map (fun i => i.svn)).getD 0)
    let w := (s.gWrite (s.recordBase 0) b).gWrite (s.recordBase 1) b
    let t := w.upStg (fun x =>
      { x with image := next, bank := 1 - x.bank, handover := some { h with stage := 2, since := s.now, old := x.image } })
    t.handsUp.foldl (fun u n => u.loadHand n) t)

/-- HANDOVER_QUIESCE_TIMEOUT: step 1 exceeds 20 ms (R406). -/
def execHandoverQuiesceTimeout (s : State) : Res :=
  onHandover s 1 (fun s h => if !h.back ∧ h.since + 20000000 ≤ s.now then s.handoverAbandon 0 else s)

/-- HANDOVER_STEP4_TIMEOUT: the understudy has not resumed 200 ms after step 3 began, and the trial rolls back (R407). -/
def execHandoverStep4Timeout (s : State) : Res :=
  onHandover s 2 (fun s h => if !h.back ∧ h.since + 200000000 ≤ s.now then s.handoverBack true else s)

/-- HANDOVER_RESUMED: the image loaded has read and checked the record, and taken over the journals. Forward, FW_ACTIVATE completes and the
trial begins; backward, the rollback is complete (R405, R407). With neither copy of the record good it does not resume, and step 4 exceeds
its bound. -/
def execHandoverResumed (s : State) : Res :=
  onHandover s 2 (fun s h =>
    if !(s.stg.image.any (fun i => s.recordGood i 0 || s.recordGood i 1)) then s else
    let svn := (s.stg.image.map (fun i => i.svn)).getD 0
    let from_ := (h.old.map (fun i => i.svn)).getD 0
    let t := (s.handsUp.filter (fun n => (s.hand n).restarting)).foldl (fun t n => t.handBack n) s
    if !h.back then
      (((t.upHandover (fun g => { g with stage := 3, since := s.now })).upStg (fun x => { x with usReady := false, usHdr := none })).flag 10
        stgStatOff 6 (fun u => u.upStg (fun x => { x with evHandover := true }))).finishAll (fun w => w.kind == wActivate) sOk 0 svn
    else
      let u := ((t.upStg (fun x => { x with handover := none, usReady := false, usHdr := none })).handsState 1).flag 10 stgStatOff 7
        (fun u => u.upStg (fun x => { x with evRollback := true }))
      if h.auto then (u.record uDevice 0x00D0 0 from_ 0 .health).finishAll (fun w => w.kind == wActivate) 0x0016 0 0
      else u.finishAll (fun w => w.kind == wRollback) sOk 0 0)

/-- The trial ends and the old image is discarded (R407). -/
def State.trialEnd (s : State) : State := ((s.upStg (fun x => { x with handover := none })).handsState 1).stageCopies true

/-- TRIAL_EXPIRY: a trial that reaches TRIAL_MS ends as FW_COMMIT without RAISE_SVN (R407). -/
def execTrialExpiry (s : State) : Res :=
  onHandover s 3 (fun s h => if h.since + h.trialMs * 1000000 ≤ s.now then s.trialEnd else s)

/-- Whether a trial is in progress. -/
def Stg.trial (x : Stg) : Bool := x.handover.any (fun h => h.stage == 3)

/-- FW_COMMIT (R407, R489). -/
def opFwCommit : OpSpec :=
  { code := 0x0C04, len := fun _ => 8, feats := fun _ => [5],
    fields := fun _ p => [(0, decide (fld p 0 1 ≤ 1)), rsv p 1 7],
    auth := fun c _ p _ => if bit (fld p 0 1) 0 && c.role != .operator then some 3 else none,
    run := fun _ _ p s =>
      if !s.stg.trial then badState
      else if bit (fld p 0 1) 0 then s.trialEnd.storeCmd 4 (leBytes 4 ((s.stg.image.map (fun i => i.svn)).getD 0)) 0x0C
      else .ok s.trialEnd }

/-- FW_COMMIT. -/
def execFwCommit (h : Hdr) (p : Bytes) (s : State) : Res := runPkt opFwCommit h p s

/-- FW_ROLLBACK (R407): it completes when the old image has resumed. -/
def opFwRollback : OpSpec :=
  { code := 0x0C05, feats := fun _ => [5],
    run := fun _ _ _ s => if !s.stg.trial then badState else .wait wRollback 0 (s.handoverBack false) }

/-- FW_ROLLBACK. -/
def execFwRollback (h : Hdr) (p : Bytes) (s : State) : Res := runPkt opFwRollback h p s

/-! ## Customer modules (R408, R409) -/

/-- The fields of a module image (R408). -/
def moduleOf (p : Bytes) : StgModule :=
  let f := fun k => Config.moduleField k p
  { cls := f 0, least := roleOf (2 - f 1), modAbi := f 2, resident := f 4, cpMask := f 5, areaKib := f 6, budgetUs := f 7, digest := sha256 (p.take (f 3)), image := p.take (f 3) }

/-- Whether the fields of a module image lie within R408. -/
def moduleFormat (p : Bytes) : Bool :=
  let f := fun k => Config.moduleField k p
  decide (0xE0 ≤ f 0) && decide (f 0 ≤ 0xEF) && decide (f 1 ≤ 2) && decide (f 3 ≤ 65536) && decide (f 3 ≤ p.length) && decide (128 ≤ f 3) &&
    decide (f 4 ≤ 16384) && decide (f 5 ≤ 127) && decide (f 6 ≤ 1024) && decide (f 7 ≤ 1000)

/-- FW_LOAD_MODULE (R408): the resident part goes into every stagehand's local memory, and an area of the device reserve is set aside, empty. -/
def opFwLoadModule : OpSpec :=
  { code := 0x0C06, result := true, needPtr := true, feats := fun _ => [6],
    run := fun _ _ p s =>
      let m := moduleOf p
      let b := p.take (Config.moduleField 3 p)
      if s.stg.modules.any (fun x => x.cls == m.cls) ∨ 196608 < ((s.stg.image.map (fun i => i.resident)).getD 0) + s.stg.moduleBytes + m.resident then noResource
      else if !moduleFormat p then .refuse sBadParam 64
      else if !imgSigned b s.sm.cfg.modKeys then .refuse 0x0011 0
      else if !(s.stg.image.any (fun i => i.modAbi == m.modAbi)) then .refuse 0x0017 0
      else .done sOk 0 m.cls (((s.upStg (fun x => { x with modules := x.modules ++ [m] })).modulesLaid).gClear (s.areaBase m.cls) (1024 * m.areaKib)) }

/-- FW_LOAD_MODULE. -/
def execFwLoadModule (h : Hdr) (p : Bytes) (s : State) : Res := runPkt opFwLoadModule h p s

/-- FW_UNLOAD_MODULE (R409): it completes once no command of its class is fetched or running. -/
def opFwUnloadModule : OpSpec :=
  { code := 0x0C07, len := fun _ => 8, feats := fun _ => [6],
    fields := fun _ p => [(0, decide (0xE0 ≤ fld p 0 1) && decide (fld p 0 1 ≤ 0xEF)), rsv p 1 7],
    run := fun _ _ p s =>
      if !(s.stg.modules.any (fun m => m.cls == fld p 0 1)) then badParam 0
      else if s.classBusy (fld p 0 1) then .wait wUnload (fld p 0 1) s
      else .ok (s.moduleGone (fld p 0 1)) }

/-- FW_UNLOAD_MODULE. -/
def execFwUnloadModule (h : Hdr) (p : Bytes) (s : State) : Res := runPkt opFwUnloadModule h p s

/-- FW_SET_MODULE_KEY (R408, R489). -/
def opFwSetModuleKey : OpSpec :=
  { code := 0x0C08, role := .operator, len := fun p => 8 + 32 * fld p 0 1,
    fields := fun _ p => [(0, decide (fld p 0 1 ≤ 8)), rsv p 1 7],
    run := fun _ _ p s => s.storeCmd 6 (sub p 8 (32 * fld p 0 1)) 0x0C }

/-- FW_SET_MODULE_KEY. -/
def execFwSetModuleKey (h : Hdr) (p : Bytes) (s : State) : Res := runPkt opFwSetModuleKey h p s

/-- A fault of a module (R409): sixteen in 1 s disable it, and every function that used its class is told. -/
def State.moduleFault (s : State) (cls : Nat) : State :=
  match s.stg.modules.find? (fun m => m.cls == cls && !m.disabled) with
  | none => s
  | some m =>
    let l := m.faultAt.filter (fun t => decide (s.now < t + 1000000000)) ++ [s.now]
    let t := s.upStg (fun x => { x with modules := lupd x.modules (fun y => y.cls == cls) (fun y => { y with faultAt := l, disabled := decide (16 ≤ l.length) }) })
    if 16 ≤ l.length then t.record uDevice 0x00D1 0 cls 0 (.each m.users) else t

end Sys2Proof.Machine
end

