-- ==== Sys2Proof/Machine/OnbOps.lean ====
section
/-!
DEFINITION. What an Onbusyn core does at every instruction (R412 to R434): tagged registers and local memory, fetch, the causes of a
trap and their ranks, trap entry, the loop levels, and what a coprocessor instruction checks first.
-/
namespace Sys2Proof.Machine

open Sys2Proof

/-! ## Tags and registers (R413) -/

def tInt : BitVec 4 := 0
def tPtr : BitVec 4 := 1
def tCode : BitVec 4 := 2
def tCue : BitVec 4 := 5
def tTime : BitVec 4 := 6
def tUninit : BitVec 4 := 0xE
def tPoison : BitVec 4 := 0xF

/-- A word with tag INT. -/
def intW (v : BitVec 64) : LWord := { val := v, tag := tInt }

/-- The stage manager core (R412). -/
def smCore : Nat := 16

/-- A register; g0 reads 0 with tag INT (R413). -/
def OnbCore.reg (c : OnbCore) (r : Nat) : LWord := if r = 0 then intW 0 else c.regs.getD (r - 1) {}

/-- Writes a register; a write of g0 is discarded (R413). -/
def OnbCore.setReg (c : OnbCore) (r : Nat) (w : LWord) : OnbCore :=
  if r = 0 then c else { c with regs := (c.regs ++ List.replicate (31 - c.regs.length) ({} : LWord)).set (r - 1) w }

/-- Bits [55:0] of a cue position, its absolute phase. -/
def phase (v : BitVec 64) : BitVec 64 := v &&& 0x00FFFFFFFFFFFFFF#64

/-- A 16-bit or wider immediate, sign-extended. -/
def sext (w v : Nat) : BitVec 64 := BitVec.ofInt 64 (signed w v)

/-! ## Causes of a trap (Table 15.10) -/

/-- A cause: its code, and what tval takes, where the spec names it. -/
abbrev Cause := Nat × Option (BitVec 64)

/-- The cause ranked first; codes rise with rank (Table 15.10). -/
def firstCause : List Cause → Option Cause
  | [] => none
  | x :: t =>
    match firstCause t with
    | none => some x
    | some y => if y.1 < x.1 then some y else some x

/-- One cause, when its condition holds. -/
def whenC (p : Bool) (c : Cause) : List Cause := if p then [c] else []

/-- A source register that is UNINIT or POISON (R415). -/
def srcCause (w : LWord) : List Cause := whenC (w.tag == tUninit) (4, some w.val) ++ whenC (w.tag == tPoison) (5, some w.val)

/-- TAG_FAULT when an operand combination is not listed (R414). -/
def tagCause (ok : Bool) (w : LWord) : List Cause := whenC (!ok) (6, some w.val)

/-- A source that must hold one tag. -/
def needTag (w : LWord) (t : BitVec 4) : List Cause := srcCause w ++ tagCause (w.tag == t) w

def illegal : Cause := (1, none)
def privC : Cause := (2, none)
def boundC (a : Nat) : Cause := (8, some (BitVec.ofNat 64 a))
def alignC (a : Nat) : Cause := (7, some (BitVec.ofNat 64 a))

/-- CP_FAULT with a status of the coprocessor; the spec states no number for some of them. -/
def cpFault (status : Option Nat) : Cause := (0xB, status.map (BitVec.ofNat 64))

/-! ## Local memory (R417, Table 18.1) -/

/-- End of the region from which a core fetches. -/
def codeEnd (n : Nat) : Nat := if n = smCore then 0x80000 else 0x30000

/-- Whether `len` bytes from `a` lie within `[lo, hi)`. -/
def within (lo hi a len : Nat) : Bool := decide (lo ≤ a) && decide (a + len ≤ hi)

/-- Whether a data access may reach local memory: the map of the core, and under module privilege the data window (R417, R430). -/
def OnbCore.dataOk (c : OnbCore) (n a len : Nat) : Bool :=
  if n = smCore then within 0 0xC0000 a len || within 0x100000 0x200000 a len || (within 0x200000 0x210000 a len && len == 8)
  else if c.priv then within 0 0x40000 a len && within c.mlo c.mhi a len
  else within 0 0x50000 a len

/-- The word that holds an address. -/
def OnbCore.word (c : OnbCore) (a : Nat) : LWord := agetD c.mem (a / 8) {}

/-- Writes the word that holds an address. -/
def OnbCore.setWord (c : OnbCore) (a : Nat) (w : LWord) : OnbCore := { c with mem := aset c.mem (a / 8) w }

/-- `n` bytes of the word that holds an address, from that address on. -/
def LWord.part (w : LWord) (a n : Nat) : Nat := w.val.toNat / 2 ^ (8 * (a % 8)) % 2 ^ (8 * n)

/-- Replaces `n` bytes of a word from an address on; its tag becomes INT (R417). -/
def LWord.setPart (w : LWord) (a n v : Nat) : LWord :=
  intW (BitVec.ofNat 64 (w.val.toNat - w.part a n * 2 ^ (8 * (a % 8)) + v % 2 ^ (8 * n) * 2 ^ (8 * (a % 8))))

/-- Bytes of local memory. -/
def OnbCore.bytes (c : OnbCore) (a n : Nat) : Bytes := (List.range n).map (fun i => BitVec.ofNat 8 ((c.word (a + i)).part (a + i) 1))

/-- Writes bytes of local memory; the words take tag INT (R417, R427). -/
def OnbCore.putBytes (c : OnbCore) (a : Nat) (b : Bytes) : OnbCore :=
  b.zipIdx.foldl (fun c e => c.setWord (a + e.2) ((c.word (a + e.2)).setPart (a + e.2) 1 e.1.toNat)) c

/-- The first of `n` bytes from `a` that lies in a POISON word, counted from 0. -/
def OnbCore.poisonAt (c : OnbCore) (a n : Nat) : Option Nat := (List.range n).find? (fun i => (c.word (a + i)).tag == tPoison)

/-! ## Loops (R422 to R425) -/

/-- A loop level. -/
def OnbCore.lv (c : OnbCore) (k : Nat) : LoopLv := c.loops.getD k {}

/-- Changes a loop level. -/
def OnbCore.setLv (c : OnbCore) (k : Nat) (l : LoopLv) : OnbCore := { c with loops := c.loops.set k l }

/-- The levels that end at the pc, from the innermost outwards (R423). -/
def loopBack : List Nat → OnbCore → OnbCore
  | [], c => { c with pc := c.pc + 4 }
  | k :: t, c =>
    let l := c.lv k
    if l.active && l.lpe == c.pc then
      if 1 < l.lpc then { c.setLv k { l with lpc := l.lpc - 1 } with pc := l.lps }
      else loopBack t (c.setLv k { l with lpc := 0, active := false })
    else loopBack t c

/-- An instruction that is no taken branch has completed (R423). -/
def OnbCore.advance (c : OnbCore) : OnbCore := loopBack [3, 2, 1, 0] c

/-- A taken branch or jump: it deactivates every level whose body does not hold the target (R425). -/
def OnbCore.jump (c : OnbCore) (target : BitVec 64) : OnbCore :=
  { c with
    pc := target.toNat
    loops := c.loops.map (fun l =>
      if l.active && !(decide (l.lps ≤ target.toNat) && decide (target.toNat ≤ l.lpe)) then { l with active := false, lpc := 0 } else l) }

/-- Bits of the active levels, sr.LACT. -/
def OnbCore.lact (c : OnbCore) : Nat := (List.range 4).foldl (fun v k => v + b2n (c.lv k).active * 2 ^ k) 0

/-! ## Trap entry (R430 to R432) -/

/-- Trap entry: the address, the cause and the active levels are saved, and execution continues at tvec under firmware privilege
(R425, R431); leaving module privilege clears the windows and ends the decrease of mbudget (R428, R433). -/
def OnbCore.trapEntry (c : OnbCore) (code : Nat) (val : BitVec 64) (at_ now : Nat) : OnbCore :=
  { c with
    tpc := at_, tcause := code, tval := val, tloop := c.lact, loops := c.loops.map (fun l => { l with active := false })
    ppriv := c.priv, priv := false, inTrap := true, pc := c.tvec
    mbudget := if c.priv then c.mbudget - (now - c.modAt) else c.mbudget
    windows := if c.priv then [] else c.windows }

/-- Whether a trap now would be a double trap (R432). -/
def OnbCore.wouldDouble (c : OnbCore) : Bool := c.inTrap || !c.tvecSet

/-- The core's run ends (R400, R432); the stage manager core stops until its own watchdog restarts it (R479). -/
def State.coreEnds (s : State) (n : Nat) : State :=
  if n = smCore then s.upCore n (fun c => { c with running := false, waiting := none }) else s.handEnds n

/-- A trap has taken module privilege from a module's run (R409, R430, R432): BUDGET ends its command with MOD_BUDGET, TRAP 0 with the
module's own status, DETAIL and RESULT, which are free values, and every other cause but BREAK with MOD_FAULT; the last is a fault of the
module. -/
def State.moduleTrap (s : State) (core cls code value : Nat) : State :=
  if code = 0xD then s.moduleEnds core cls 0x00F1 0 0
  else if code < 0xC then (s.moduleEnds core cls 0x00F0 0 0).moduleFault cls
  else if value = 0 then
    s.spent.spent.spent.moduleEnds core cls (s.freeNat 0xF0) (s.spent.freeNat 65536) (s.spent.spent.freeNat (2 ^ 32))
  else s

/-- Takes a trap: `extra` is the TRAP value and `at_` the address saved. Under module privilege it
may end the module's command (R409, R432). -/
def State.onbTrap (s : State) (n : Nat) (k : Cause) (extra at_ : Nat) : State :=
  let c := s.core n
  if c.wouldDouble then s.coreEnds n
  else
    let v := k.2.getD (BitVec.ofNat 64 (s.freeNat (2 ^ 64)))
    let t := (if k.2.isSome then s else s.spent).upCore n (fun c => c.trapEntry (k.1 + 256 * extra) v at_ s.now)
    if c.priv then t.moduleTrap n (0xE0 + c.cls) k.1 extra else t

/-! ## Running one instruction (R420) -/

/-- Whether a core executes: the stage manager core in the always-on domain, a stagehand that is in service (R412, R400). -/
def State.coreRuns (s : State) (n : Nat) : Bool :=
  s.aon.powered && (s.core n).running && (if n = smCore then s.sm.running else s.live && s.handUp n)

/-- Whether the module's budget is not used up (R433). -/
def OnbCore.inBudget (c : OnbCore) (now : Nat) : Bool := !c.priv || decide (now < c.modAt + c.mbudget)

/-- Whether the core fetches its next instruction now. -/
def State.coreReady (s : State) (n : Nat) : Bool := s.coreRuns n && (s.core n).waiting.isNone && (s.core n).inBudget s.now

/-- Causes that the fetch itself meets (R417, R418, R430). -/
def OnbCore.fetchCauses (c : OnbCore) (n : Nat) : List Cause :=
  whenC (c.pc % 4 != 0) (alignC c.pc) ++ whenC (!within 0 (codeEnd n) c.pc 4 || (c.priv && !within c.mclo c.mchi c.pc 4)) (boundC c.pc)

/-- One instruction at the pc: with a cause it traps and has no effect, and otherwise it runs (R420, R431). -/
def onbRun (n : Nat) (s : State) (causes : OnbCore → List Cause) (run : OnbCore → State → State) : Res :=
  .next (if s.coreReady n then
      let c := s.core n
      let f := c.fetchCauses n
      match firstCause (if f.isEmpty then causes c else f) with
      | some k => s.onbTrap n k 0 c.pc
      | none => run c s
    else s)

/-- The same for an instruction that uses GDDR7 where `uses`: it waits at the pc while a channel leaves the interleave (R350). -/
def onbMem (n : Nat) (s : State) (uses : Bool) (causes : OnbCore → List Cause) (run : OnbCore → State → State) : Res :=
  if uses && s.memHeld then .next s else onbRun n s causes run

/-- An instruction that changes the core alone and goes on to the next. -/
def onbSeq (n : Nat) (s : State) (causes : OnbCore → List Cause) (f : OnbCore → OnbCore) : Res :=
  onbRun n s causes (fun _ t => t.upCore n (fun c => (f c).advance))

/-! ## Coprocessors (R412, R426, R428) -/

/-- Causes common to a coprocessor's instructions: absent on the stage manager, or not permitted to the module. -/
def OnbCore.cpCauses (c : OnbCore) (n cp : Nat) : List Cause :=
  whenC (n == smCore && decide (2 ≤ cp)) illegal ++ whenC (c.priv && !bit c.cpmask cp) (3, none)

/-- BOUND when a coprocessor's local operand lies outside what the core may reach. -/
def OnbCore.rangeCause (c : OnbCore) (n : Nat) (w : LWord) (len : Nat) : List Cause :=
  whenC (!(c.dataOk n w.val.toNat len || len == 0)) (boundC w.val.toNat)

/-- A coprocessor instruction that acts outside the core: `f` gives what it leaves before the core goes on, and rd's new word. -/
def State.cpDone (s : State) (n : Nat) (rd : Nat) (w : Option LWord) : State :=
  s.upCore n (fun c => (match w with | some x => c.setReg rd x | none => c).advance)

end Sys2Proof.Machine
end

