-- ==== Sys2Proof/Machine/Onb.lean ====
section
/-!
DEFINITION. The Onbusyn instructions but for the coprocessors (R412 to R434): each row is one instruction that `core` executes at its
pc.
-/
namespace Sys2Proof.Machine

open Sys2Proof

/-! ## Arithmetic and logic (Tables 15.2 and 15.4) -/

/-- TAG_FAULT of an operand combination: tval is the operand that is not INT, when there is one such. -/
def pairCause (ok : Bool) (a b : LWord) : List Cause :=
  whenC (!ok) (6, if a.tag = tInt then some b.val else if b.tag = tInt then some a.val else none)

/-- Result tag of an operation on two INT operands. -/
def intInt (a b : BitVec 4) : Option (BitVec 4) := if a = tInt ∧ b = tInt then some tInt else none

/-- Result tag of ADD (Table 15.2). -/
def addTag (a b : BitVec 4) : Option (BitVec 4) :=
  if b = tInt ∧ (a = tInt ∨ a = tPtr ∨ a = tTime) then some a else if a = tInt ∧ b = tPtr then some tPtr else none

/-- Result tag of SUB (Table 15.2). -/
def subTag (a b : BitVec 4) : Option (BitVec 4) :=
  if a = b ∧ (a = tInt ∨ a = tPtr ∨ a = tTime ∨ a = tCue) then some tInt else if a = tPtr ∧ b = tInt then some tPtr else none

/-- An operation on two registers. -/
def aluR (n rd ra rb : Nat) (tag : BitVec 4 → BitVec 4 → Option (BitVec 4)) (extra : LWord → LWord → List Cause) (f : LWord → LWord → BitVec 64)
    (s : State) : Res :=
  onbSeq n s
    (fun c =>
      let a := c.reg ra
      let b := c.reg rb
      srcCause a ++ srcCause b ++ pairCause (tag a.tag b.tag).isSome a b ++ extra a b)
    (fun c => c.setReg rd { val := f (c.reg ra) (c.reg rb), tag := (tag (c.reg ra).tag (c.reg rb).tag).getD tInt })

/-- An operation on two INT registers. -/
def aluInt (n rd ra rb : Nat) (f : BitVec 64 → BitVec 64 → BitVec 64) (s : State) : Res :=
  aluR n rd ra rb intInt (fun _ _ => []) (fun a b => f a.val b.val) s

/-- An operation on an INT register and an immediate. -/
def aluImm (n rd ra : Nat) (tag : BitVec 4 → Option (BitVec 4)) (f : BitVec 64 → BitVec 64) (s : State) : Res :=
  onbSeq n s (fun c => srcCause (c.reg ra) ++ tagCause (tag (c.reg ra).tag).isSome (c.reg ra))
    (fun c => c.setReg rd { val := f (c.reg ra).val, tag := (tag (c.reg ra).tag).getD tInt })

/-- Result tag of a one-operand INT operation. -/
def intOnly (a : BitVec 4) : Option (BitVec 4) := if a = tInt then some tInt else none

def execAdd (core rd ra rb : Nat) (s : State) : Res := aluR core rd ra rb addTag (fun _ _ => []) (fun a b => a.val + b.val) s
def execSub (core rd ra rb : Nat) (s : State) : Res :=
  aluR core rd ra rb subTag (fun _ _ => []) (fun a b => if a.tag = tCue then phase a.val - phase b.val else a.val - b.val) s
def execAndR (core rd ra rb : Nat) (s : State) : Res := aluInt core rd ra rb (fun a b => a &&& b) s
def execOrR (core rd ra rb : Nat) (s : State) : Res := aluInt core rd ra rb (fun a b => a ||| b) s
def execXorR (core rd ra rb : Nat) (s : State) : Res := aluInt core rd ra rb (fun a b => a ^^^ b) s
def execShl (core rd ra rb : Nat) (s : State) : Res := aluInt core rd ra rb (fun a b => a <<< (b.toNat % 64)) s
def execShr (core rd ra rb : Nat) (s : State) : Res := aluInt core rd ra rb (fun a b => a >>> (b.toNat % 64)) s
def execSar (core rd ra rb : Nat) (s : State) : Res := aluInt core rd ra rb (fun a b => a.sshiftRight (b.toNat % 64)) s
def execMul (core rd ra rb : Nat) (s : State) : Res := aluInt core rd ra rb (fun a b => a * b) s
def execMulhu (core rd ra rb : Nat) (s : State) : Res :=
  aluInt core rd ra rb (fun a b => BitVec.ofNat 64 (a.toNat * b.toNat / 2 ^ 64)) s

/-- DIV0, when the divisor is 0 (R421). -/
def divZero (_ b : LWord) : List Cause := whenC (b.val == 0) (9, some b.val)

def execDivu (core rd ra rb : Nat) (s : State) : Res := aluR core rd ra rb intInt divZero (fun a b => a.val / b.val) s
def execRemu (core rd ra rb : Nat) (s : State) : Res := aluR core rd ra rb intInt divZero (fun a b => a.val % b.val) s
def execMinu (core rd ra rb : Nat) (s : State) : Res := aluInt core rd ra rb (fun a b => if a ≤ b then a else b) s
def execMaxu (core rd ra rb : Nat) (s : State) : Res := aluInt core rd ra rb (fun a b => if a ≤ b then b else a) s
def execMovR (core rd ra : Nat) (s : State) : Res := aluImm core rd ra some (fun a => a) s
def execSltu (core rd ra rb : Nat) (s : State) : Res := aluInt core rd ra rb (fun a b => if a < b then 1 else 0) s
def execAddi (core rd ra imm : Nat) (s : State) : Res := aluImm core rd ra (fun t => addTag t tInt) (fun a => a + sext 16 imm) s
def execAndi (core rd ra imm : Nat) (s : State) : Res := aluImm core rd ra intOnly (fun a => a &&& BitVec.ofNat 64 imm) s
def execOri (core rd ra imm : Nat) (s : State) : Res := aluImm core rd ra intOnly (fun a => a ||| BitVec.ofNat 64 imm) s
def execXori (core rd ra imm : Nat) (s : State) : Res := aluImm core rd ra intOnly (fun a => a ^^^ BitVec.ofNat 64 imm) s
def execShiftiShl (core rd ra amount : Nat) (s : State) : Res := aluImm core rd ra intOnly (fun a => a <<< (amount % 64)) s
def execShiftiShr (core rd ra amount : Nat) (s : State) : Res := aluImm core rd ra intOnly (fun a => a >>> (amount % 64)) s
def execShiftiSar (core rd ra amount : Nat) (s : State) : Res := aluImm core rd ra intOnly (fun a => a.sshiftRight (amount % 64)) s

def execMovz (core rd k imm : Nat) (s : State) : Res :=
  onbSeq core s (fun _ => []) (fun c => c.setReg rd (intW (BitVec.ofNat 64 (imm % 65536 * 2 ^ (16 * (k % 4))))))

/-- MOVK reads its destination register, which must be INT (R415, Table 15.4). -/
def execMovk (core rd k imm : Nat) (s : State) : Res :=
  onbSeq core s (fun c => needTag (c.reg rd) tInt)
    (fun c =>
      let v := (c.reg rd).val
      let m : BitVec 64 := BitVec.ofNat 64 (65535 * 2 ^ (16 * (k % 4)))
      c.setReg rd (intW ((v &&& ~~~m) ||| BitVec.ofNat 64 (imm % 65536 * 2 ^ (16 * (k % 4))))))

/-! ## Loads and stores (R417) -/

/-- Address of a load or store: a PTR base and a sign-extended offset. -/
def OnbCore.ea (c : OnbCore) (ra imm : Nat) : Nat := ((c.reg ra).val + sext 16 imm).toNat

/-- The register range of the stage manager core, whose registers the spec does not lay out (Table 18.1). -/
def smRegRange (n a : Nat) : Bool := n == smCore && decide (0x200000 ≤ a)

/-- Causes that any access of `len` bytes meets. -/
def OnbCore.accessCauses (c : OnbCore) (n ra imm len : Nat) : List Cause :=
  let a := c.ea ra imm
  needTag (c.reg ra) tPtr ++ whenC (a % len != 0) (alignC a) ++ whenC (!c.dataOk n a len) (boundC a)

/-- LD64 loads a word's tag with its data, and a word tagged UNINIT traps (R417); the stage manager's register range reads a free
value. -/
def execLd64 (core rd ra imm : Nat) (s : State) : Res :=
  onbRun core s
    (fun c =>
      let l := c.accessCauses core ra imm 8
      let a := c.ea ra imm
      l ++ whenC (l.isEmpty && !smRegRange core a && (c.word a).tag == tUninit) (4, some (BitVec.ofNat 64 a)))
    (fun c t =>
      let a := c.ea ra imm
      if smRegRange core a then t.spent.upCore core (fun c => (c.setReg rd (intW (BitVec.ofNat 64 (t.freeNat (2 ^ 64))))).advance)
      else t.upCore core (fun c => (c.setReg rd (c.word a)).advance))

/-- A load narrower than 64 bits gives INT. -/
def narrowLoad (n rd ra imm len : Nat) (s : State) : Res :=
  onbSeq n s (fun c => c.accessCauses n ra imm len)
    (fun c => c.setReg rd (intW (BitVec.ofNat 64 ((c.word (c.ea ra imm)).part (c.ea ra imm) len))))

def execLd32u (core rd ra imm : Nat) (s : State) : Res := narrowLoad core rd ra imm 4 s
def execLd16u (core rd ra imm : Nat) (s : State) : Res := narrowLoad core rd ra imm 2 s
def execLd8u (core rd ra imm : Nat) (s : State) : Res := narrowLoad core rd ra imm 1 s

/-- ST64 stores the register's tag with its data; what a write of the stage manager's register range does is not given. -/
def execSt64 (core rs ra imm : Nat) (s : State) : Res :=
  onbSeq core s (fun c => srcCause (c.reg rs) ++ c.accessCauses core ra imm 8)
    (fun c => if smRegRange core (c.ea ra imm) then c else c.setWord (c.ea ra imm) (c.reg rs))

/-- A store narrower than 64 bits sets the word's tag to INT. -/
def narrowStore (n rs ra imm len : Nat) (s : State) : Res :=
  onbSeq n s (fun c => srcCause (c.reg rs) ++ c.accessCauses n ra imm len)
    (fun c => c.setWord (c.ea ra imm) ((c.word (c.ea ra imm)).setPart (c.ea ra imm) len (c.reg rs).val.toNat))

def execSt32 (core rs ra imm : Nat) (s : State) : Res := narrowStore core rs ra imm 4 s
def execSt16 (core rs ra imm : Nat) (s : State) : Res := narrowStore core rs ra imm 2 s
def execSt8 (core rs ra imm : Nat) (s : State) : Res := narrowStore core rs ra imm 1 s

/-! ## Branches and jumps -/

/-- pc + 4 × offset. -/
def OnbCore.rel (c : OnbCore) (w off : Nat) : BitVec 64 := BitVec.ofNat 64 c.pc + 4 * sext w off

/-- A conditional branch. -/
def branch (n rs ra imm : Nat) (tags : BitVec 4 → BitVec 4 → Bool) (f : LWord → LWord → Bool) (s : State) : Res :=
  onbRun n s
    (fun c =>
      let a := c.reg rs
      let b := c.reg ra
      srcCause a ++ srcCause b ++ pairCause (tags a.tag b.tag) a b)
    (fun _ t => t.upCore n (fun c => if f (c.reg rs) (c.reg ra) then c.jump (c.rel 16 imm) else c.advance))

/-- Operands of BLT and BGE. -/
def twoInt (a b : BitVec 4) : Bool := a == tInt && b == tInt

/-- Operands of BLTU and BGEU (Table 15.2). -/
def ordTags (a b : BitVec 4) : Bool := a == b && (a == tInt || a == tPtr || a == tTime || a == tCue)

/-- Unsigned order; of cue positions, of their phases only. -/
def ordLt (a b : LWord) : Bool := if a.tag = tCue then decide (phase a.val < phase b.val) else decide (a.val < b.val)

def execBeq (core rs ra imm : Nat) (s : State) : Res := branch core rs ra imm (fun a b => a == b) (fun a b => a.val == b.val) s
def execBne (core rs ra imm : Nat) (s : State) : Res := branch core rs ra imm (fun a b => a == b) (fun a b => a.val != b.val) s
def execBlt (core rs ra imm : Nat) (s : State) : Res := branch core rs ra imm twoInt (fun a b => a.val.slt b.val) s
def execBge (core rs ra imm : Nat) (s : State) : Res := branch core rs ra imm twoInt (fun a b => !a.val.slt b.val) s
def execBltu (core rs ra imm : Nat) (s : State) : Res := branch core rs ra imm ordTags ordLt s
def execBgeu (core rs ra imm : Nat) (s : State) : Res := branch core rs ra imm ordTags (fun a b => !ordLt a b) s

/-- A word with tag CODE. -/
def codeW (v : BitVec 64) : LWord := { val := v, tag := tCode }

/-- The address after the pc. -/
def OnbCore.after (c : OnbCore) : BitVec 64 := BitVec.ofNat 64 c.pc + 4

def execJal (core imm : Nat) (s : State) : Res :=
  onbRun core s (fun _ => []) (fun _ t => t.upCore core (fun c => (c.setReg 31 (codeW c.after)).jump (c.rel 26 imm)))

def execJr (core rd ra : Nat) (s : State) : Res :=
  onbRun core s (fun c => needTag (c.reg ra) tCode)
    (fun _ t => t.upCore core (fun c => (c.setReg rd (codeW c.after)).jump (c.reg ra).val))

def execAdr (core rd imm : Nat) (s : State) : Res := onbSeq core s (fun _ => []) (fun c => c.setReg rd (codeW (c.rel 16 imm)))

/-! ## Loops (R422, R424) -/

/-- LOOP_FAULT of a loop instruction (R424). -/
def OnbCore.loopFaults (c : OnbCore) (n level fin : Nat) : Bool :=
  (c.lv level).active || (List.range level).any (fun k => (c.lv k).active && decide ((c.lv k).lpe < c.pc + 4 * fin)) || fin == 0 ||
    decide (codeEnd n < c.pc + 4 * fin + 4)

/-- Arms a level, or with a count of 0 branches past the body (R422). -/
def OnbCore.loopArm (c : OnbCore) (level fin count : Nat) : OnbCore :=
  if count = 0 then c.jump (BitVec.ofNat 64 (c.pc + 4 * fin + 4))
  else (c.setLv level { lps := c.pc + 4, lpe := c.pc + 4 * fin, lpc := count, active := true }).advance

def execLoop (core level rc fin : Nat) (s : State) : Res :=
  onbRun core s
    (fun c =>
      let w := c.reg rc
      needTag w tInt ++ whenC (c.loopFaults core level fin || decide (2 ^ 32 ≤ w.val.toNat)) (0xA, some w.val))
    (fun _ t => t.upCore core (fun c => c.loopArm level fin (c.reg rc).val.toNat))

def execLoopi (core level count fin : Nat) (s : State) : Res :=
  onbRun core s (fun c => whenC (c.loopFaults core level fin) (0xA, some (BitVec.ofNat 64 count)))
    (fun _ t => t.upCore core (fun c => c.loopArm level fin count))

/-! ## CSRs and tags (R415, R416, R430) -/

/-- Whether a CSR is listed in Table 15.8. -/
def csrListed (k : Nat) : Bool :=
  decide (k ≤ 5) || (decide (8 ≤ k) && decide (k ≤ 12)) || (decide (0x10 ≤ k) && decide (k ≤ 0x1B)) || (decide (0x20 ≤ k) && decide (k ≤ 0x25))

/-- Whether module privilege may use a CSR. -/
def csrModule (k : Nat) : Bool := (decide (9 ≤ k) && decide (k ≤ 12)) || (decide (0x10 ≤ k) && decide (k ≤ 0x1B))

/-- Clock of a core in MHz (R412, Table 12.4). -/
def State.coreMhz (s : State) (n : Nat) : Nat :=
  if n = smCore then 400
  else
    match (s.rasUnit (128 + n)).rung with
    | 4 => 1900 | 5 => 1800 | 6 => 1700
    | _ => 2000

/-- sr (Table 15.9). -/
def OnbCore.sr (c : OnbCore) : Nat := b2n c.priv + 2 * b2n c.ppriv + 4 * b2n c.inTrap + 8 * b2n c.tvecSet + 16 * c.lact

/-- The value of a CSR with its tag (Table 15.8). -/
def State.csrGet (s : State) (n k : Nat) : LWord :=
  let c := s.core n
  let int := fun (v : Nat) => intW (BitVec.ofNat 64 v)
  let code := fun (v : Nat) => codeW (BitVec.ofNat 64 v)
  let ptr := fun (v : Nat) => ({ val := BitVec.ofNat 64 v, tag := tPtr } : LWord)
  match k with
  | 0x000 => int c.sr
  | 0x001 => code c.tvec
  | 0x002 => code c.tpc
  | 0x003 => int c.tcause
  | 0x004 => intW c.tval
  | 0x005 => int c.tloop
  | 0x009 => int ((s.now - c.startAt) * s.coreMhz n / 1000)
  | 0x00A => { val := BitVec.ofNat 64 s.now, tag := tTime }
  | 0x00B => { val := BitVec.ofNat 64 s.cuePos, tag := tCue }
  | 0x00C => int (if n = smCore then 0x100 else n)
  | 0x010 => code (c.lv 0).lps | 0x011 => code (c.lv 1).lps | 0x012 => code (c.lv 2).lps | 0x013 => code (c.lv 3).lps
  | 0x014 => code (c.lv 0).lpe | 0x015 => code (c.lv 1).lpe | 0x016 => code (c.lv 2).lpe | 0x017 => code (c.lv 3).lpe
  | 0x018 => int (c.lv 0).lpc | 0x019 => int (c.lv 1).lpc | 0x01A => int (c.lv 2).lpc | 0x01B => int (c.lv 3).lpc
  | 0x020 => int c.cpmask
  | 0x021 => ptr c.mlo
  | 0x022 => ptr c.mhi
  | 0x023 => code c.mclo
  | 0x024 => code c.mchi
  | _ => int c.mbudget

/-- A write of a CSR that may be written (Table 15.8). -/
def State.csrPut (s : State) (n k : Nat) (v : BitVec 64) : State :=
  let x := v.toNat
  let up := s.upCore n
  let lp := fun (k : Nat) (f : LoopLv → LoopLv) => up (fun c => c.setLv k (f (c.lv k)))
  match k with
  | 0x000 => up (fun c => { c with ppriv := bit x 1 })
  | 0x001 => up (fun c => { c with tvec := x, tvecSet := true })
  | 0x002 => up (fun c => { c with tpc := x })
  | 0x003 => up (fun c => { c with tcause := x % 65536 })
  | 0x004 => up (fun c => { c with tval := v })
  | 0x005 => up (fun c => { c with tloop := x % 16 })
  | 0x008 => if n = smCore then s.upSm (fun m => { m with wdAt := s.smNow }) else s.upHand n (fun g => { g with kickAt := s.now })
  | 0x010 => lp 0 (fun l => { l with lps := x }) | 0x011 => lp 1 (fun l => { l with lps := x })
  | 0x012 => lp 2 (fun l => { l with lps := x }) | 0x013 => lp 3 (fun l => { l with lps := x })
  | 0x014 => lp 0 (fun l => { l with lpe := x }) | 0x015 => lp 1 (fun l => { l with lpe := x })
  | 0x016 => lp 2 (fun l => { l with lpe := x }) | 0x017 => lp 3 (fun l => { l with lpe := x })
  | 0x018 => lp 0 (fun l => { l with lpc := x % 2 ^ 32 }) | 0x019 => lp 1 (fun l => { l with lpc := x % 2 ^ 32 })
  | 0x01A => lp 2 (fun l => { l with lpc := x % 2 ^ 32 }) | 0x01B => lp 3 (fun l => { l with lpc := x % 2 ^ 32 })
  | 0x020 => up (fun c => { c with cpmask := x % 128 })
  | 0x021 => up (fun c => { c with mlo := x })
  | 0x022 => up (fun c => { c with mhi := x })
  | 0x023 => up (fun c => { c with mclo := x })
  | 0x024 => up (fun c => { c with mchi := x })
  | 0x025 => up (fun c => { c with mbudget := x })
  | _ => s

/-- CSRR: wdkick is write only (Table 15.8). -/
def execCsrr (core rd imm : Nat) (s : State) : Res :=
  onbRun core s (fun c => whenC (!csrListed imm || imm == 8) illegal ++ whenC (c.priv && !csrModule imm) privC)
    (fun _ t => t.upCore core (fun c => (c.setReg rd (t.csrGet core imm)).advance))

/-- The loop level that a CSR belongs to, 4 for none. -/
def csrLevel (k : Nat) : Nat := if 0x10 ≤ k ∧ k ≤ 0x1B then k % 4 else 4

/-- CSRW: a loop register of an active level traps LOOP_FAULT (R425), and only wdkick restarts the watchdog (R434). -/
def execCsrw (core rs imm : Nat) (s : State) : Res :=
  onbRun core s
    (fun c =>
      let w := c.reg rs
      whenC (!csrListed imm || (decide (9 ≤ imm) && decide (imm ≤ 12))) illegal ++ whenC (c.priv && !csrModule imm) privC ++ srcCause w ++
        whenC (c.lv (csrLevel imm)).active (0xA, some w.val))
    (fun c t => (t.csrPut core imm (c.reg rs).val).upCore core (fun c => c.advance))

/-- TAG never traps (R415). -/
def execTagR (core rd ra : Nat) (s : State) : Res :=
  onbSeq core s (fun _ => []) (fun c => c.setReg rd (intW ((c.reg ra).tag.setWidth 64)))

/-- RETAG (R416): UNINIT and POISON are not reserved, and under module privilege they trap PRIV as every tag but INT. -/
def execRetag (core rd ra tag : Nat) (s : State) : Res :=
  onbSeq core s
    (fun c => whenC (decide (7 ≤ tag) && (decide (tag < 0xE) || !c.priv)) illegal ++ whenC (c.priv && tag != 0) privC ++ srcCause (c.reg ra))
    (fun c => c.setReg rd { val := (c.reg ra).val, tag := BitVec.ofNat 4 tag })

/-! ## Traps, returns and waits (R421, R431 to R433) -/

/-- TRAP: BREAK, with its value in tcause and the address of the next instruction in tpc (R431). -/
def execTrap (core imm : Nat) (s : State) : Res :=
  onbRun core s (fun _ => []) (fun c t => t.onbTrap core (0xC, none) (imm % 256) (c.pc + 4))

/-- TRET: the saved privilege, the levels of tloop and the pc come back (R425, R431); entering module privilege starts the budget
(R433), and the image enters the module of class 0xE0 + `cls`. -/
def execTret (core cls : Nat) (s : State) : Res :=
  onbRun core s
    (fun c => whenC (core == smCore && c.ppriv) illegal ++ whenC c.priv privC)
    (fun _ t => t.upCore core (fun c =>
      { c with
        priv := c.ppriv, inTrap := false, pc := c.tpc
        loops := c.loops.zipIdx.map (fun e => { e.1 with active := bit c.tloop e.2 })
        modAt := if c.ppriv then t.now else c.modAt
        cls := if c.ppriv then cls else c.cls }))

/-- WAIT begins: the core stays at the instruction until WAIT_RETURN (R421). -/
def execWait (core rd rb : Nat) (s : State) : Res :=
  onbRun core s (fun c => needTag (c.reg rb) tInt)
    (fun c t => t.upCore core (fun x => { x with waiting := some (rd, t.now + (c.reg rb).val.toNat) }))

/-- Whether the call board holds a source that the stagehand could take (R421, R443). -/
def State.handSource (s : State) (n : Nat) : Bool := n != smCore && !(s.candidates (.hand n)).isEmpty

/-- WAIT_RETURN: a source is pending for the stagehand, or the time has passed (R421). -/
def execWaitReturn (core : Nat) (s : State) : Res :=
  .next (
    match (s.core core).waiting with
    | some (rd, til) =>
      if s.coreRuns core && (s.handSource core || decide (til ≤ s.now)) then
        s.upCore core (fun c => ({ c with waiting := none }.setReg rd (intW (if s.handSource core then 1 else 0))).advance)
      else s
    | none => s)

/-- MODULE_BUDGET_EXPIRY: mbudget has reached 0, and BUDGET is taken before the next instruction (R433). -/
def execModuleBudgetExpiry (core : Nat) (s : State) : Res :=
  let c := s.core core
  .next (if s.coreRuns core && c.waiting.isNone && c.priv && !c.inBudget s.now then s.onbTrap core (0xD, none) 0 c.pc else s)

end Sys2Proof.Machine
end

