-- ==== Sys2Proof/Machine/OnbCp.lean ====
section
/-!
DEFINITION. The Onbusyn coprocessors (R426 to R429): digest, CRC, table walker, context cache, call board, latch unit and DMA.
-/
namespace Sys2Proof.Machine

open Sys2Proof

/-- An INT word of a number. -/
def natW (n : Nat) : LWord := intW (BitVec.ofNat 64 n)

/-! ## Digest and CRC (cp0, cp1) -/

def execSha256Init (core : Nat) (s : State) : Res :=
  onbSeq core s (fun c => c.cpCauses core 0) (fun c => { c with sha := [], shaOn := true })

def execSha256Upd (core ra rb : Nat) (s : State) : Res :=
  onbSeq core s
    (fun c => c.cpCauses core 0 ++ needTag (c.reg ra) tPtr ++ needTag (c.reg rb) tInt ++ c.rangeCause core (c.reg ra) (c.reg rb).val.toNat)
    (fun c => { c with sha := c.sha ++ c.bytes (c.reg ra).val.toNat (c.reg rb).val.toNat })

/-- SHA256.FIN ends the digest; the result of a digest that no INIT began is free. -/
def execSha256Fin (core ra : Nat) (s : State) : Res :=
  onbRun core s (fun c => c.cpCauses core 0 ++ needTag (c.reg ra) tPtr ++ c.rangeCause core (c.reg ra) 32)
    (fun c t =>
      let d := if c.shaOn then sha256 c.sha else t.freeBytes 32
      (if c.shaOn then t else t.spent).upCore core (fun c =>
        ({ c with sha := [], shaOn := false }.putBytes (c.reg ra).val.toNat d).advance))

/-- A check continued over bytes of local memory; 0 in rd begins a new one (Table 15.6). -/
def crcInstr (n rd ra rb : Nat) (f : Nat → Bytes → Nat) (s : State) : Res :=
  onbSeq n s
    (fun c => c.cpCauses n 1 ++ needTag (c.reg rd) tInt ++ needTag (c.reg ra) tPtr ++ needTag (c.reg rb) tInt ++
      c.rangeCause n (c.reg ra) (c.reg rb).val.toNat)
    (fun c => c.setReg rd (natW (f (c.reg rd).val.toNat (c.bytes (c.reg ra).val.toNat (c.reg rb).val.toNat))))

def execCrc32c (core rd ra rb : Nat) (s : State) : Res := crcInstr core rd ra rb (fun seed b => crc32cFrom (seed % 2 ^ 32) b) s
def execCrc64 (core rd ra rb : Nat) (s : State) : Res := crcInstr core rd ra rb crc64From s

/-! ## Table walker (cp2, R429) -/

/-- Device reserve: offset of the walker area within it. -/
def walkerOff : Nat := mib 254

/-- A walker table descriptor (Table 15.11). -/
def State.walkDesc (s : State) (d : Nat) : Bytes := s.mem (s.partBase .reserve + walkerOff + 32 * d) 32

/-- Whether a descriptor is valid and its fields lie within Table 15.11. -/
def walkOk (s : State) (b : Bytes) : Bool :=
  let lg := fld b 8 1
  let kb := fld b 9 1
  let eb := fld b 10 2
  bit (fld b 13 1) 0 && decide (1 ≤ lg) && decide (lg ≤ 20) && decide (1 ≤ kb) && decide (kb ≤ 32) &&
    (eb == 64 || eb == 128 || eb == 256 || eb == 512 || eb == 1024) && decide (kb + 8 ≤ eb) && decide (1 ≤ fld b 12 1) &&
    decide (fld b 12 1 ≤ 64) && fld b 0 8 % 64 == 0 && decide (fld b 0 8 + 2 ^ lg * eb ≤ s.partLen .reserve)

/-- Probes entry after entry (R429): the index of the entry that holds the key. -/
def State.walkProbe (s : State) (b key : Bytes) : Nat → Nat → Option Nat
  | 0, _ => none
  | k + 1, i =>
    let i := i % 2 ^ fld b 8 1
    let a := s.partBase .reserve + fld b 0 8 + i * fld b 10 2
    if !(bit (fld (s.mem a 8) 0 1) 0) then none
    else if s.mem (a + 8) key.length == key then some i
    else s.walkProbe b key k (i + 1)

/-- WALK (R429): under module privilege only the class's own descriptor; an invalid descriptor is status 4. -/
def execWalk (core rd ra rb : Nat) (s : State) : Res :=
  let desc := fun (c : OnbCore) => s.walkDesc (c.reg rb).val.toNat
  onbMem core s true
    (fun c =>
      let d := (c.reg rb).val.toNat
      c.cpCauses core 2 ++ needTag (c.reg ra) tPtr ++ needTag (c.reg rb) tInt ++
        (if c.priv && d != 48 + c.cls then [cpFault (some 3)]
         else if 64 ≤ d then [cpFault none]
         else if !walkOk s (desc c) then [cpFault (some 4)]
         else c.rangeCause core (c.reg ra) (fld (desc c) 9 1)))
    (fun c t =>
      let b := desc c
      let key := c.bytes (c.reg ra).val.toNat (fld b 9 1)
      let r := match s.walkProbe b key (fld b 12 1) (crc32cFrom (fld b 16 4) key) with
        | some i => natW i
        | none => intW (BitVec.allOnes 64)
      t.cpDone core rd (some r))

/-! ## Context cache (cp3) -/

/-- Contexts of the context store (R162): 256 MiB of 256 bytes each. -/
def ctxCount : Nat := 1048576

/-- Checks of a context number. -/
def ctxCause (w : LWord) : List Cause := needTag w tInt ++ whenC (decide (ctxCount ≤ w.val.toNat)) (cpFault none)

/-- Checks of the 256 bytes of local memory that a context is moved to or from: whole words. -/
def ctxLocal (c : OnbCore) (n : Nat) (w : LWord) : List Cause :=
  needTag w tPtr ++ whenC (w.val.toNat % 8 != 0) (alignC w.val.toNat) ++ c.rangeCause n w 256

/-- Contents of a context: free while nothing has written them, since the spec does not lay contexts out. -/
def State.ctxBytes (s : State) (k : Nat) : Bytes := (aget s.ctx.data k).getD (s.freeBytes 256)

/-- CTX.RD: a context with an uncorrectable error is read with every word tagged POISON, without a trap. -/
def execCtxRd (core ra rb : Nat) (s : State) : Res :=
  onbMem core s true (fun c => c.cpCauses core 3 ++ ctxCause (c.reg ra) ++ ctxLocal c core (c.reg rb))
    (fun c t =>
      let k := (c.reg ra).val.toNat
      let a := (c.reg rb).val.toNat
      let b := t.ctxBytes k
      let tag := if t.ctx.bad.contains k then tPoison else tInt
      let u := (if ahas t.ctx.data k then t else t.spent.upCtx (fun x => { x with data := aset x.data k b })).ctxUse k
      u.upCore core (fun c =>
        ((List.range 32).foldl (fun c i => c.setWord (a + 8 * i) { val := BitVec.ofNat 64 (fld b (8 * i) 8), tag := tag }) c).advance))

/-- CTX.WR, the reverse: a POISON word makes the context bad, and a whole write without one makes it good. -/
def execCtxWr (core ra rb : Nat) (s : State) : Res :=
  onbMem core s true (fun c => c.cpCauses core 3 ++ ctxCause (c.reg ra) ++ ctxLocal c core (c.reg rb))
    (fun c t =>
      let k := (c.reg ra).val.toNat
      let a := (c.reg rb).val.toNat
      let bad := (c.poisonAt a 256).isSome
      (t.upCtx (fun x => { x with data := aset x.data k (c.bytes a 256), bad := if bad then ladd x.bad k else ldel x.bad k })).ctxUse k |>.cpDone core 0 none)

/-- CTX.PIN: at most 16,384 contexts may be pinned (R163). -/
def execCtxPin (core ra : Nat) (s : State) : Res :=
  onbRun core s
    (fun c => c.cpCauses core 3 ++ ctxCause (c.reg ra) ++
      whenC (decide (16384 ≤ s.ctx.pinned.length) && !s.ctx.pinned.contains (c.reg ra).val.toNat) (cpFault none))
    (fun c t => (t.upCtx (fun x => { x with pinned := ladd x.pinned (c.reg ra).val.toNat })).cpDone core 0 none)

def execCtxUnpin (core ra : Nat) (s : State) : Res :=
  onbRun core s (fun c => c.cpCauses core 3 ++ ctxCause (c.reg ra))
    (fun c t => (t.upCtx (fun x => { x with pinned := ldel x.pinned (c.reg ra).val.toNat })).cpDone core 0 none)

/-! ## Call board (cp4, R437, R444, R445) -/

/-- CB.RAISE: firmware uses global numbers; a number that is no edge source is a stray raise (R437). -/
def execCbRaise (core ra : Nat) (s : State) : Res :=
  onbRun core s (fun c => c.cpCauses core 4 ++ needTag (c.reg ra) tInt)
    (fun c t =>
      let n := (c.reg ra).val.toNat
      let u := if 320 ≤ n ∧ n < 4096 then t.raise n else t.upCall (fun x => { x with stray := satu 65535 (x.stray + 1) })
      u.cpDone core 0 none)

/-- CB.PEND takes: rd is the source, or all ones when none is eligible (R444). -/
def execCbPend (core rd : Nat) (s : State) : Res :=
  onbRun core s (fun c => c.cpCauses core 4)
    (fun _ t =>
      let r := t.take (.hand core)
      r.2.cpDone core rd (some (match r.1 with | some n => natW n | none => intW (BitVec.allOnes 64))))

/-- Whether a number is the source at the top of a stagehand's stack. -/
def State.handTop (s : State) (n src : Nat) : Bool :=
  match s.stackOf (.hand n) with
  | [] => false
  | top :: _ => top.1 == src

/-- CB.DONE: a completion of any source but the top traps CP_FAULT with status 1, and SH_FAULT counts it (R445). -/
def execCbDone (core ra : Nat) (s : State) : Res :=
  onbRun core s (fun c => c.cpCauses core 4 ++ needTag (c.reg ra) tInt)
    (fun c t =>
      if t.handTop core (c.reg ra).val.toNat then (t.popStack (.hand core)).cpDone core 0 none
      else (t.upCall (fun x => { x with shFault := satu 65535 (x.shFault + 1) })).onbTrap core (cpFault (some 1)) 0 c.pc)

/-! ## Latch unit (cp5, R311) -/

/-- Checks of a latch number. -/
def latchCause (w : LWord) : List Cause := needTag w tInt ++ whenC (decide (latchCount ≤ w.val.toNat)) (cpFault none)

def execLtRead (core rd ra : Nat) (s : State) : Res :=
  onbRun core s (fun c => c.cpCauses core 5 ++ latchCause (c.reg ra))
    (fun c t => t.cpDone core rd (some (natW (t.cell (c.reg ra).val.toNat).val)))

def execLtAdd (core ra rb : Nat) (s : State) : Res :=
  onbRun core s (fun c => c.cpCauses core 5 ++ latchCause (c.reg ra) ++ needTag (c.reg rb) tInt)
    (fun c t => (t.latchAdd (c.reg ra).val.toNat (c.reg rb).val.toNat false).cpDone core 0 none)

/-- LT.THRESH; the THRESH of a guard or of a ring's own latch is not written (R313, R371). -/
def execLtThresh (core ra rb : Nat) (s : State) : Res :=
  onbRun core s (fun c => c.cpCauses core 5 ++ latchCause (c.reg ra) ++ needTag (c.reg rb) tInt)
    (fun c t =>
      let n := (c.reg ra).val.toNat
      let l := t.cell n
      (if l.bound.isSome || l.guard.isSome then t else t.latchThresh n (c.reg rb).val.toNat).cpDone core 0 none)

/-! ## DMA (cp6, R427, R428) -/

/-- A DMA descriptor (Table 15.7). -/
structure DmaDesc where
  srcSpace : Nat
  dstSpace : Nat
  fn : Nat
  len : Nat
  src : Nat
  dst : Nat
deriving DecidableEq, Repr

/-- The descriptor at an address of local memory. -/
def OnbCore.dmaDesc (c : OnbCore) (a : Nat) : DmaDesc :=
  let b := c.bytes a 32
  { srcSpace := fld b 0 1, dstSpace := fld b 1 1, fn := fld b 2 2, len := fld b 4 4, src := fld b 8 8, dst := fld b 16 8 }

/-- Whether a range lies in the windows that the module has, for a space other than local (R428). -/
def OnbCore.inWindow (c : OnbCore) (space fn a len : Nat) : Bool :=
  c.windows.any (fun w =>
    match w with
    | (_, sp, f, base, n) => sp == space && (space != 1 || f == fn) && within base (base + n) a len)

/-- Whether a range lies in a space that the core may use: local ranges are judged as BOUND. -/
def State.dmaSpaceOk (s : State) (c : OnbCore) (space fn a len : Nat) : Bool :=
  (match space with
   | 0 => true
   | 1 => decide (fn ≤ 255) && decide (a + len ≤ 2 ^ 64)
   | 2 => within 0 (s.partLen .reserve) a len
   | 3 => !c.priv && within 0 (mib s.capMib) a len
   | _ => false) && (space == 0 || !c.priv || c.inWindow space fn a len)

/-- BOUND of a descriptor's local ranges: under module privilege the data area is no destination and the journal no source (R427). -/
def OnbCore.dmaLocal (c : OnbCore) (n : Nat) (d : DmaDesc) : List Cause :=
  whenC (d.srcSpace == 0 && !c.dataOk n d.src d.len) (boundC d.src) ++
    whenC (d.dstSpace == 0 && (!c.dataOk n d.dst d.len || (c.priv && decide (d.dst < 0x40000) && decide (0x30000 < d.dst + d.len)))) (boundC d.dst)

/-- Causes of DMA.COPY from its descriptor: BOUND, then status 4 for LEN and status 3 for a space or window. -/
def State.dmaCauses (s : State) (c : OnbCore) (n : Nat) (d : DmaDesc) : List Cause :=
  if d.len = 0 ∨ 1048576 < d.len then [cpFault (some 4)]
  else c.dmaLocal n d ++ whenC (!(s.dmaSpaceOk c d.srcSpace d.fn d.src d.len && s.dmaSpaceOk c d.dstSpace d.fn d.dst d.len) ||
    (d.srcSpace != 1 && d.dstSpace != 1 && d.fn != 0)) (cpFault (some 3))

/-- GDDR7 address of a device-reserve or GDDR7 address. -/
def State.dmaAddr (s : State) (space a : Nat) : Nat := if space = 2 then s.partBase .reserve + a else a

/-- The bytes that a copy reads; `host` are those that host memory answered. -/
def State.dmaRead (s : State) (c : OnbCore) (d : DmaDesc) (host : Bytes) (n : Nat) : Bytes :=
  match d.srcSpace with
  | 0 => c.bytes d.src n
  | 1 => padTo n host
  | sp => s.memWith (s.dmaAddr sp d.src) n

/-- The request or the traffic that a read makes (R505). -/
def State.dmaFetch (s : State) (d : DmaDesc) (n : Nat) : State :=
  match d.srcSpace with
  | 0 => s
  | 1 => s.hostRead d.fn d.src n
  | _ => s.gRead n

/-- Writes what a copy moves. -/
def State.dmaWrite (s : State) (n : Nat) (d : DmaDesc) (b : Bytes) : State :=
  match d.dstSpace with
  | 0 => s.upCore n (fun c => c.putBytes d.dst b)
  | 1 => s.hostWrite d.fn d.dst b
  | sp => s.gWrite (s.dmaAddr sp d.dst) b

/-- Whether the reported error can meet the copy: 1 a PCIe error on host memory, 2 poisoned or uncorrectable data. -/
def DmaDesc.meets (d : DmaDesc) (err : Nat) : Bool := (err == 1 && (d.srcSpace == 1 || d.dstSpace == 1)) || err == 2

/-- Whether the copy that a register describes moves data from or to GDDR7. -/
def State.dmaUses (s : State) (core ra : Nat) : Bool :=
  let d := (s.core core).dmaDesc ((s.core core).reg ra).val.toNat
  decide (2 ≤ d.srcSpace) || decide (2 ≤ d.dstSpace)

/-- DMA.COPY (R427): on an error the bytes moved before it stay moved, and the instruction traps CP_FAULT. `host` is what host memory
answers; with an error, its length is how many bytes had moved. -/
def execDmaCopy (core rd ra : Nat) (host : Bytes) (err : Nat) (s : State) : Res :=
  onbMem core s (s.dmaUses core ra)
    (fun c =>
      let l := c.cpCauses core 6 ++ needTag (c.reg ra) tPtr ++ c.rangeCause core (c.reg ra) 32
      if l.isEmpty then s.dmaCauses c core (c.dmaDesc (c.reg ra).val.toNat) else l)
    (fun c t =>
      let d := c.dmaDesc (c.reg ra).val.toNat
      let e := d.meets err
      let n0 := if e then min host.length d.len else d.len
      let poison := if d.srcSpace = 0 then c.poisonAt d.src n0 else none
      let n := poison.getD n0
      let u := (t.dmaFetch d d.len).dmaWrite core d (t.dmaRead c d host n)
      if poison.isSome then u.onbTrap core (cpFault (some 2)) 0 c.pc
      else if e then u.onbTrap core (cpFault (some err)) 0 c.pc
      else u.cpDone core rd (some (natW d.len)))

/-- DMA.WIN: a window from the descriptor's SRC_SPACE, FUNCTION, SRC and LEN; firmware privilege only (R428). -/
def execDmaWin (core rd ra : Nat) (s : State) : Res :=
  onbSeq core s
    (fun c =>
      let l := c.cpCauses core 6 ++ whenC c.priv privC ++ needTag (c.reg ra) tPtr ++ c.rangeCause core (c.reg ra) 32
      let d := c.dmaDesc (c.reg ra).val.toNat
      l ++ whenC (l.isEmpty && (d.len == 0 || decide (1048576 < d.len))) (cpFault (some 4)))
    (fun c =>
      let d := c.dmaDesc (c.reg ra).val.toNat
      { c with windows := c.windows.filter (fun w => w.1 != rd % 4) ++ [(rd % 4, d.srcSpace, d.fn, d.src, d.len)] })

end Sys2Proof.Machine
end

