-- ==== Sys2Proof/Machine/Call.lean ====
section
/-!
DEFINITION. The call board as the host uses it (R435 to R451): assignment, panels, takes and completions, moderation and MSI-X masks.
-/
namespace Sys2Proof.Machine

open Sys2Proof

/-! ## Assignment (R437, R450) -/

/-- Sources that stand on some stack. -/
def State.onStack (s : State) (n : Nat) : Bool :=
  s.call.vecs.any (fun e => e.2.stack.any (fun x => x.1 == n)) || s.call.shStack.any (fun e => e.2.any (fun x => x.1 == n))

/-- CALL_ASSIGN (R437). -/
def opCallAssign : OpSpec :=
  { code := 0x0026, len := fun _ => 8,
    fields := fun _ p =>
      [(0, decide (fld p 0 2 < 256)), rsv p 2 2, (4, decide (320 ≤ fld p 4 2) && decide (fld p 4 2 < 4096)),
       (6, decide (fld p 4 2 + fld p 6 2 ≤ 4096))],
    run := fun _ _ p s =>
      let giveTo := fld p 0 2
      let l := List.range' (fld p 4 2) (fld p 6 2)
      let from_ := if giveTo = 0 then s.srcOwner (fld p 4 2) else 0
      let src := fun (n : Nat) => agetD s.call.srcs n {}
      if l.any (fun n => !(src n).mask || (src n).pend || s.onStack n || (src n).owner != from_) then badState
      else if giveTo ≠ 0 ∧ 128 < (agetD s.call.order giveTo []).length + l.length then noResource
      else
        .ok (s.upCall (fun c =>
          let o := if from_ = 0 then c.order else amod c.order from_ [] (fun x => x.filter (fun n => !l.contains n))
          { c with srcs := l.foldl (fun m n => amod m n {} (fun c => { c with owner := giveTo })) c.srcs,
                   order := if giveTo = 0 then o else amod o giveTo [] (fun x => x ++ l) })) }

/-- CALL_ASSIGN. -/
def execCallAssign (h : Hdr) (p : Bytes) (s : State) : Res := runPkt opCallAssign h p s

/-! ## Panels (R438, R439, Table 16.5) -/

/-- The panel that an offset of a function's BAR0 lies in: its first offset, and its sources by bit (R451). -/
def State.panelAt (s : State) (fn off : Nat) : Option (Nat × List Nat) :=
  if fn = 0 then
    if 0x00200000 ≤ off ∧ off < 0x00201000 then
      let p := (off - 0x00200000) / 64
      some (0x00200000 + 64 * p, List.range' (64 * p) 64)
    else none
  else if 0x00101000 ≤ off ∧ off < 0x00101080 then
    let q := (off - 0x00101000) / 64
    some (0x00101000 + 64 * q, ((agetD s.call.order fn []).drop (64 * q)).take 64)
  else if 0x00103000 ≤ off ∧ off < 0x00103040 then some (0x00103000, [64 + fn])
  else none

/-- A write of ones to a register of a panel: `f` acts on each source written as 1 (R438). -/
def panelWrite (a : Access) (reg : Nat) (s : State) (f : State → Nat → State) : Res :=
  match (if a.wr then s.panelAt a.fn a.off else none) with
  | none => .next s
  | some (base, srcs) =>
    if a.off / 8 * 8 ≠ base + reg then .next s
    else barWrite a.fn a.off a.size s (fun t => t.write64 a (base + reg) 0 (fun t v _ =>
      srcs.zipIdx.foldl (fun t e => if v.testBit e.2 then f t e.1 else t) t))

/-- CALL_MASK_SET. -/
def execCallMaskSet (a : Access) (s : State) : Res := panelWrite a 0x08 s (fun t n => t.upSrc n (fun c => { c with mask := true }))

/-- CALL_MASK_CLR: a source that becomes eligible is told (R448). -/
def execCallMaskClr (a : Access) (s : State) : Res :=
  panelWrite a 0x10 s (fun t n => t.watch n (fun u => u.upSrc n (fun c => { c with mask := false })))

/-- CALL_PEND_SET: an edge, of a level source one in addition to its line (R439). -/
def execCallPendSet (a : Access) (s : State) : Res := panelWrite a 0x20 s (fun t n => t.raise n)

/-- CALL_PEND_CLR (R439, R440). -/
def execCallPendClr (a : Access) (s : State) : Res := panelWrite a 0x28 s (fun t n => t.upSrc n (fun c => { c with pend := false }))

/-! ## Takes and completions (R444 to R446) -/

/-- Offset of a vector's block in its function's BAR0 (R451). -/
def vecOff (fn v : Nat) : Nat := if fn = 0 then 0x00210000 + 32 * v else 0x00100000 + 32 * v

/-- CALL_V_TAKE: it counts as a take even with nothing eligible (R444, R448). -/
def execCallVTake (fn vec : Nat) (s : State) : Res :=
  if vec < vectorsOf fn then
    barWrite fn (vecOff fn vec + 8) 4 s (fun t =>
      let k := vecKey fn vec
      (t.take (.vec k)).2.upVec k (fun v => { v with taken := true }))
  else .next s

/-- CALL_STAT. -/
def callStatOff : Nat := 0x00280000

/-- Error record of CALL_STACK_FAULT (R445). -/
def State.stackFault (s : State) (fn vec src : Nat) : State :=
  let top := match s.stackOf (.vec (vecKey fn vec)) with
    | [] => 0x1FFF
    | e :: _ => e.1
  ((s.upVec (vecKey fn vec) (fun v => { v with fault := true })).flag 12 callStatOff 0 (fun u => u.upCall (fun c => { c with fault := true }))).record
    0 0x00E0 vec (src + 65536 * top) 0 (.tenant fn)

/-- CALL_V_DONE: the top of the stack is popped and re-fires by its kind; any other source is out of order (R445, R446). -/
def execCallVDone (fn vec src : Nat) (s : State) : Res :=
  if vec < vectorsOf fn then
    barWrite fn (vecOff fn vec + 12) 4 s (fun t =>
      let k := CallTarget.vec (vecKey fn vec)
      match t.stackOf k with
      | [] => t.stackFault fn vec src
      | e :: _ => if e.1 = src then (t.popStack k).tell k true else t.stackFault fn vec src)
  else .next s

/-! ## Moderation and masks (R448, R449) -/

/-- MODERATION_EXPIRY: MOD_US has passed since the last message and a source is eligible (R448). -/
def execModerationExpiry (fn vec : Nat) (s : State) : Res :=
  let k := vecKey fn vec
  let v := agetD s.call.vecs k {}
  let due := v.modUs != 0 && (match v.lastMsg with | some t => decide (t + v.modUs * 1000 ≤ s.now) | none => false)
  onMainIf s (due && !v.pba && !(s.candidates (.vec k)).isEmpty && !s.vfQuiet fn) (fun t => t.withObs (fun u => u.sendMsg k))

/-- Sends the held message of a vector, if a source is still eligible (R449). -/
def State.sendHeld (s : State) (k : Nat) : State :=
  let v := agetD s.call.vecs k {}
  if v.pba && !v.masked && !s.host.fnMask.contains (k / 2048) && !s.vfQuiet (k / 2048) then
    if (s.candidates (.vec k)).isEmpty then s.upVec k (fun v => { v with pba := false }) else s.withObs (fun u => u.sendMsg k)
  else s

/-- Offset of a vector's entry of the MSI-X table in its function's BAR0 (R456). -/
def msixOff (fn v : Nat) : Nat := if fn = 0 then 0x00040000 + 16 * v else 0x00002000 + 16 * v

/-- MSIX_UNMASK: the mask of a vector's table entry is removed, or the Function Mask in configuration space (number 2,048) (R449). -/
def execMsixUnmask (fn vec : Nat) (s : State) : Res :=
  if vec < vectorsOf fn then
    barWrite fn (msixOff fn vec + 12) 4 s (fun t => (t.upVec (vecKey fn vec) (fun v => { v with masked := false })).sendHeld (vecKey fn vec))
  else
    .next (if s.hostUp && s.fnEnabled fn && vec == 2048 then
        let t := s.upHost (fun h => { h with fnMask := ldel h.fnMask fn })
        (t.call.vecs.filter (fun e => e.1 / 2048 == fn)).foldl (fun u e => u.sendHeld e.1) t
      else s)

end Sys2Proof.Machine
end

