-- ==== Sys2Proof/Machine/CueEvents.lean ====
section
/-!
DEFINITION. The cue event table (R51 to R55): which entry fires when, what it does, and the order of the function entries and the blocks' own.
-/
namespace Sys2Proof.Machine

open Sys2Proof

/-- Length of an entry's period in phases or ns. -/
def CueEvent.span (e : CueEvent) : Nat := if e.kind = 0 then e.period * 65536 else e.period * 1000

/-- The first target of a repeating entry ahead of a reference. -/
def CueEvent.ahead (e : CueEvent) (ref : Nat) : Nat := if ref < e.first then e.first else e.first + ((ref - e.first) / e.span + 1) * e.span

/-- Whether an entry is due; entries of a frozen VF do not fire (R54, Table 17.9). -/
def State.cueDue (s : State) (e : CueEvent) : Bool :=
  (if e.kind = 0 then s.cueTimed && decide (e.target ≤ s.cue.pos) else decide (e.target ≤ s.now)) && !(s.vfFrozen e.fn)

/-- What an entry does (Table 2.6). -/
def State.cueAct (s : State) (i : Nat) (e : CueEvent) : State :=
  let t := match e.action with
    | 0 => s.raiseFor e.fn e.actTarget
    | 1 => s.latchAddFor e.fn e.actTarget e.actValue
    | _ => if e.actTarget = 0 then s.withObs (fun u => u.triggerInput) else s
  t.note 0 0x00A0 e.fn i 0

/-- Changes the table. -/
def State.upEvents (s : State) (f : List (Nat × CueEvent) → List (Nat × CueEvent)) : State := s.upCue (fun c => { c with events := f c.events })

/-- Fires an entry: one with PERIOD 0 is removed, another re-arms (R54). -/
def State.cueFire (s : State) (i : Nat) (e : CueEvent) : State :=
  let t := s.cueAct i e
  let ref := if e.kind = 0 then s.cue.pos else s.now
  if e.period = 0 then t.upEvents (fun l => adel l i)
  else
    let e' : CueEvent := if e.caught then { e with target := e.ahead ref, caught := false }
      else { e with target := e.target + e.span, caught := decide (e.target + e.span ≤ ref) }
    t.upEvents (fun l => aset l i e')

/-- Whether an entry fires before another: by target, then by index (R54). -/
def cueBefore (a b : Nat × CueEvent) : Bool :=
  decide (a.2.kind < b.2.kind) || (a.2.kind == b.2.kind && (decide (a.2.target < b.2.target) || (a.2.target == b.2.target && decide (a.1 ≤ b.1))))

/-- The due entry that fires first, among those that a test picks. -/
def State.cueNext (s : State) (p : CueEvent → Bool) : Option (Nat × CueEvent) :=
  (s.cue.events.filter (fun e => p e.2 && s.cueDue e.2)).foldl (fun m e =>
    match m with
    | some x => if cueBefore x e then some x else some e
    | none => some e) none

end Sys2Proof.Machine
end

