-- ==== Sys2Proof/Machine/ShuOps.lean ====
section
/-!
DEFINITION. Decode streams (R192 to R214): their input rings, output records, damage, binding, and what other blocks do to them.
-/
namespace Sys2Proof

open Machine

/-- Samples per row and rows of a chroma plane for a luma size (0 = 4:0:0, 1 = 4:2:0, 2 = 4:2:2). -/
def Picture.chromaSize (q : Picture) (w h : Nat) : Nat × Nat :=
  if q.chroma = 0 then (0, 0) else ((w + 1) / 2, if q.chroma = 1 then (h + 1) / 2 else h)

/-- Width and height after the conformance window crop (R203). -/
def Picture.size (q : Picture) : Nat × Nat :=
  (q.codedW - q.crop.getD 0 0 - q.crop.getD 1 0, q.codedH - q.crop.getD 2 0 - q.crop.getD 3 0)

/-- Lines of a frame for each line of a picture: a field has every second one. -/
def Picture.lines (q : Picture) : Nat := if 2 ≤ q.struct then 2 * q.codedH else q.codedH

/-- Bytes of a sample (R203). -/
def Picture.sampleBytes (q : Picture) : Nat := if q.depth = 8 then 1 else 2

/-- Cells across and cell rows (Table 7.8). -/
def Picture.cells (q : Picture) : Nat × Nat := ((q.codedW + 15) / 16, (q.codedH + 15) / 16)

/-- Coefficient slots of a cell (R205). -/
def Picture.slots (q : Picture) : Nat := if q.chroma = 2 then 512 else 384

/-- Profiles of a codec in Table 7.1, and its highest level, as the fields of a picture give them. -/
def codecLimits (codec : Nat) : Nat × Nat :=
  match codec with
  | 1 => (3, 4) | 2 => (6, 52) | 3 => (3, 52) | 4 => (1, 53) | 5 => (1, 52) | _ => (0, 0)

/-- Whether a picture is of a codec, profile, level, depth and format that the shuttles decode (R189, Table 7.1). -/
def Picture.supported (q : Picture) : Bool :=
  decide (q.profile < (codecLimits q.codec).1) && decide (q.level ≤ (codecLimits q.codec).2) && decide (q.depth ≤ 10) &&
    decide (q.chroma ≤ 2) && !q.layered

/-- Whether a picture is a random access point (R190). -/
def Picture.rap (q : Picture) : Bool :=
  match q.codec with
  | 1 => q.ptype == 0 && q.seqHdr
  | 2 => q.idr || (q.ptype == 0 && q.recovery == some 0)
  | 3 => q.key || q.idr
  | 4 => q.key && q.seqHdr
  | 5 => q.key || q.idr || q.gdr
  | _ => false

/-- Whether a random access point is closed (R190). -/
def Picture.closedRap (q : Picture) : Bool :=
  q.rap && (match q.codec with | 1 => q.closedGop | 4 => q.key | _ => q.idr)

/-- Whether one presentation time comes before another, modulo 2^33 (R203). -/
def ptsBefore (a b : Nat) : Bool := a % 2 ^ 33 != b % 2 ^ 33 && decide ((b % 2 ^ 33 + 2 ^ 33 - a % 2 ^ 33) % 2 ^ 33 < 2 ^ 32)

/-- How far two presentation times lie apart, modulo 2^33. -/
def ptsApart (a b : Nat) : Nat :=
  min ((b % 2 ^ 33 + 2 ^ 33 - a % 2 ^ 33) % 2 ^ 33) ((a % 2 ^ 33 + 2 ^ 33 - b % 2 ^ 33) % 2 ^ 33)

/-- A value saturated to an interval. -/
def clampInt (lo hi v : Int) : Int := if v < lo then lo else if hi < v then hi else v

/-- A 16-bit two's complement number in bytes. -/
def int16 (v : Int) : Bytes := leBytes 2 ((clampInt (-32768) 32767 v) % 65536).toNat

/-- A vector entry (Table 7.11); the half-sample vectors of MPEG-2 are doubled. -/
def MvIn.bytes (codec : Nat) (m : MvIn) : Bytes :=
  let k : Int := if codec = 1 then 2 else 1
  int16 (k * m.x0) ++ int16 (k * m.y0) ++ int16 (k * m.x1) ++ int16 (k * m.y1) ++ int16 (clampInt (-32767) 32767 m.dt0) ++
    int16 (clampInt (-32767) 32767 m.dt1) ++ [BitVec.ofNat 8 (m.pred % 8), BitVec.ofNat 8 (m.fsel % 4), 0, 0]

/-- The sixteen vector entries of a cell: with FIELD_MV the top field's for the upper half and the bottom field's for the lower (R206),
otherwise one vector for all or one each. -/
def CellIn.vectors (codec : Nat) (c : CellIn) : Bytes :=
  (List.range 16).flatMap (fun k =>
    (c.mvs.getD (if bit c.flags 1 then k / 8 else if c.mvs.length ≤ 1 then 0 else k) {}).bytes codec)

/-- A cell header (Table 7.10). -/
def CellIn.bytes (c : CellIn) : Bytes :=
  [BitVec.ofNat 8 c.kind, BitVec.ofNat 8 c.qp, BitVec.ofNat 8 c.tsize, BitVec.ofNat 8 (c.flags % 64), 0, BitVec.ofNat 8 c.ipred, 0, 0] ++
    leBytes 4 c.cbp ++ zeros 4

/-- The coefficients of a block as they leave: saturated to 16 bits; in MPEG-2 to 12 bits first, then mismatch control makes the sum of the
block odd by its last coefficient (R205, ISO/IEC 13818-2). -/
def BlockIn.final (codec : Nat) (b : BlockIn) : List (Nat × Nat × Int) :=
  if codec = 1 then
    let l := b.coefs.map (fun e => (e.1, e.2.1, clampInt (-2048) 2047 e.2.2))
    let last : Int := ((l.find? (fun e => e.1 == 7 && e.2.1 == 7)).map (fun e => e.2.2)).getD 0
    if (l.foldl (fun (n : Int) e => n + e.2.2) 0) % 2 = 0 then
      l.filter (fun e => !(e.1 == 7 && e.2.1 == 7)) ++ [(7, 7, if last % 2 = 0 then last + 1 else last - 1)]
    else l
  else b.coefs

/-- Whether the cell at a position of a component carries FLAGS.FIELD (Table 7.10). -/
def Picture.fieldAt (q : Picture) (row col : Nat) : Bool := bit (q.cellsIn.getD (row * q.cells.1 + col) {}).flags 0

/-- Where a coefficient of a block stands: (cell, slot). A transform larger than its cell is cut into frequency tiles, each in the cell as
far below and right of the transform's first (R205). In a cell with FLAGS.FIELD the luma blocks of MPEG-2 stand in the row of their field,
and a macroblock of an H.264 pair in the cell of its field (R206). -/
def Picture.slotOf (q : Picture) (b : BlockIn) (u v : Nat) : Nat × Nat :=
  let cw := if b.comp = 0 then 16 else 8
  let ch := if b.comp = 0 then 16 else if q.chroma = 2 then 16 else 8
  let base := if b.comp = 0 then 0 else 256 + (b.comp - 1) * (cw * ch)
  let across := q.cells.1
  let field := q.fieldAt (b.y / ch) (b.x / cw)
  let row := if field && q.codec == 2 then b.y / (2 * ch) * 2 + b.parity % 2 else b.y / ch
  let first := row * across + b.x / cw
  let line := if field && q.codec == 1 && b.comp == 0 then b.parity % 2 else b.y % ch / b.size
  if b.size ≤ cw then (first, base + (line * (cw / b.size) + b.x % cw / b.size) * (b.size * b.size) + b.size * v + u)
  else (first + v / cw * across + u / cw, base + b.part * (cw * cw) + cw * (v % cw) + u % cw)

/-- The cells that hold frequency tiles of a transform larger than a cell: they carry FLAGS.TILE (R205). -/
def Picture.tiled (q : Picture) : List Nat :=
  q.blocks.flatMap (fun b =>
    let cw := if b.comp = 0 then 16 else 8
    if b.size ≤ cw then []
    else (List.range (b.size / cw)).flatMap (fun i => (List.range (b.size / cw)).map (fun j =>
      (q.slotOf b (cw * j) (cw * i)).1)))

/-- The coefficients of a picture: (cell, slot, value). -/
def Picture.coefs (q : Picture) : List (Nat × Nat × Int) :=
  q.blocks.flatMap (fun b =>
    if b.comp ≠ 0 ∧ q.chroma = 0 then []
    else (b.final q.codec).map (fun e => ((q.slotOf b e.1 e.2.1).1, (q.slotOf b e.1 e.2.1).2, e.2.2)))

end Sys2Proof

namespace Sys2Proof.Machine

open Sys2Proof

/-- A stream. -/
def State.stream (s : State) (n : Nat) : Option Stream := aget s.shu.streams n

/-- The rest of a stream's context. -/
def State.streamX (s : State) (n : Nat) : StreamX := agetD s.shu.streamx n {}

/-- Changes a stream. -/
def State.upStream (s : State) (n : Nat) (f : Stream → Stream) : State :=
  s.upShu (fun u => { u with streams := aupd u.streams n f })

/-- Changes the rest of a stream's context. -/
def State.upStreamX (s : State) (n : Nat) (f : StreamX → StreamX) : State :=
  s.upShu (fun u => { u with streamx := amod u.streamx n {} f })

/-- Unit ID of a stream's shuttle, or of all of them while none is bound (Table 1.7). -/
def Stream.unit (x : Stream) : Nat := unitId 2 (x.shuttle.getD 0xFFF)

/-- Stream states of Table 7.4. -/
def stOpening : Nat := 0
def stRunning : Nat := 1
def stStalled : Nat := 2
def stWaiting : Nat := 3
def stEnded : Nat := 4
def stFailed : Nat := 5
def stMoving : Nat := 6

/-- The stream stops with a reason, and its owner is told (R196, R360). -/
def State.shuFail (s : State) (n reason : Nat) : State :=
  match s.stream n with
  | none => s
  | some x =>
    (s.upStream n (fun x => { x with st := stFailed, reason := reason })).record x.unit 0x0031 n reason 0 (.tenant x.owner)

/-! ## Binding (R197, R199) -/

/-- Shuttles in service. -/
def State.shuttlesUp (s : State) : List Nat := (List.range 64).filter (fun k => !s.unitFenced (64 + k))

/-- Work queued at a shuttle: the input bytes, not yet consumed, of its streams that still decode (R197). -/
def State.shuttleLoad (s : State) (k : Nat) : Nat :=
  ((s.shu.streams.filter (fun e => e.2.shuttle == some k && e.2.st != stFailed && e.2.st != stEnded)).map (fun e =>
    e.2.inTail - e.2.inDone)).sum

/-- The one of some shuttles with the least queued work, the first among equals (R197). -/
def State.leastLoaded (s : State) (l : List Nat) : Option Nat :=
  match l with
  | [] => none
  | k :: t => some (t.foldl (fun b j => if s.shuttleLoad j < s.shuttleLoad b then j else b) k)

/-- The shuttle with the least queued work, the lowest number among equals (R197). -/
def State.pickShuttle (s : State) : Option Nat := s.leastLoaded s.shuttlesUp

/-- The shuttle of a segment that begins at a picture: for a closed RAP of a split stream one that none of its last seven segments runs
on, so that up to eight work at once (R197, R198). -/
def State.segShuttle (s : State) (x : Stream) (y : StreamX) (q : Picture) : Option Nat :=
  if bit x.flags 0 && x.srcKind != 0 && q.closedRap then
    let l := s.shuttlesUp.filter (fun k => !y.team.contains k)
    s.leastLoaded (if l.isEmpty then s.shuttlesUp else l)
  else s.pickShuttle

/-- Channels that an audio-and-text unit has reserved. -/
def State.unitChannels (s : State) (k : Nat) : Nat :=
  (((s.shu.streams.flatMap (fun e => e.2.tracks)).filter (fun t => t.unit == k)).map (fun t => t.maxch)).sum

/-- Places one track of a stream: on the unit of the stream's shuttle while its channels stay within 128, else on the one in service with
the fewest channels where they stay within 128 there; otherwise the track waits for room, without a unit (R197, R208, log entry 75). -/
def State.placeTrack (s : State) (n i : Nat) : State :=
  match s.stream n with
  | none => s
  | some x =>
    let t := s.upStream n (fun x => { x with tracks := lmod x.tracks i (fun k => { k with unit := 64 }) })
    let need := (x.tracks.getD i {}).maxch
    let least := match t.shuttlesUp with
      | [] => 64
      | k :: l => l.foldl (fun b j => if t.unitChannels j < t.unitChannels b then j else b) k
    let u := match x.shuttle with
      | some k => if !(t.unitFenced (64 + k)) ∧ t.unitChannels k + need ≤ 128 then k else least
      | none => least
    t.upStream n (fun x => { x with tracks := lmod x.tracks i (fun k => { k with unit := if t.unitChannels u + need ≤ 128 then u else 64 }) })

/-- Places the tracks of a stream. -/
def State.shuPlace (s : State) (n : Nat) : State :=
  match s.stream n with
  | none => s
  | some x => (List.range x.tracks.length).foldl (fun t i => t.placeTrack n i) s

/-- Sets a stream back to a RAP: it decodes again from there, and its records already written are not written a second
time (R199). -/
def State.shuRewind (s : State) (n off seq num : Nat) : State :=
  (s.upStream n (fun x => { x with inDone := off, lastRap := off })).upStreamX n (fun y =>
    { y with decSeq := seq, decodeNum := num, outq := [], dpb := [], field := none, badPics := [], toRap := false, want := none, shown := [] })

/-- A stream leaves its shuttle and is MOVING (R199). -/
def State.shuMove (s : State) (n : Nat) : State :=
  (s.upStreamX n (fun y => { y with left := ((s.stream n).bind (fun x => x.shuttle)).or y.left })).upStream n (fun x =>
    if x.st = stFailed ∨ x.st = stEnded then { x with shuttle := none } else { x with st := stMoving, shuttle := none })

/-- The tracks that a fenced shuttle's audio-and-text unit served go to other units (R208, R348). -/
def State.tracksMove (s : State) (k : Nat) : State :=
  s.shu.streams.foldl (fun t e =>
    ((List.range e.2.tracks.length).filter (fun i => (e.2.tracks.getD i {}).unit == k)).foldl (fun u i => u.placeTrack e.1 i) t) s

/-- Every stream of a fenced shuttle moves, and the tracks that its unit served (R199, R348). -/
def State.shuFenced (s : State) (k : Nat) : State :=
  ((s.shu.streams.filter (fun e => e.2.shuttle == some k)).foldl (fun t e => t.shuMove e.1) s).tracksMove k

/-- An uncorrectable error in a shuttle's buffers struck a stream's reference pictures or decoding state: that stream moves (R199). -/
def State.shuStruck (s : State) (k n : Nat) : State :=
  if (s.stream n).any (fun x => x.shuttle == some k) then s.shuMove n else s

/-- Binds a MOVING stream to another shuttle: it resumes at its last RAP, or, when a live ring has dropped part of the
span, at the next one (R199). -/
def State.shuRebind (s : State) (n : Nat) : State :=
  match s.stream n with
  | none => s
  | some x =>
    if x.st = stMoving then
      let y := s.streamX n
      match s.leastLoaded (s.shuttlesUp.filter (fun k => some k != y.left)) with
      | none => s
      | some k =>
        let st := if x.nextSeq = 0 then stOpening else stRunning
        let t := ((s.upStream n (fun x => { x with shuttle := some k, st := st })).upStreamX n (fun y => { y with left := none })).shuPlace n
        let gone := x.srcKind == 0 && (match y.dropAt with | some d => decide (x.lastRap ≤ d) | none => false)
        match x.raps.getLast? with
        | none => t.upStreamX n (fun y => { y with outq := [], dpb := [], field := none, decSeq := x.nextSeq })
        | some r =>
          if gone then t.upStreamX n (fun y =>
            { y with outq := [], dpb := [], field := none, decSeq := x.nextSeq, toRap := true })
          else t.shuRewind n r.1 r.2.1 r.2.2
    else s

/-! ## Input rings (R195, R212, R213) -/

/-- Source offset of the oldest byte that the ring must keep: every byte from LAST_RAP on (R199), and the whole of a segment whose check
is still to be formed (R212). -/
def Stream.keep (x : Stream) : Nat := (if x.raps.isEmpty then x.inDone else min x.lastRap x.inDone) / 65536 * 65536

/-- Free bytes of the input ring. -/
def Stream.inRoom (x : Stream) : Nat := x.inLen - (x.inTail - x.keep)

/-- Writes bytes into a ring from a running offset on, round its end. -/
def State.ringPut (s : State) (base len off : Nat) (b : Bytes) : State :=
  let o := off % len
  let n := len - o
  if b.length ≤ n then s.gWrite (base + o) b else (s.gWrite (base + o) (b.take n)).gWrite base (b.drop n)

/-- Reads bytes of a ring from a running offset on. -/
def State.ringTake (s : State) (base len off n : Nat) : Bytes :=
  let o := off % len
  if n ≤ len - o then s.mem (base + o) n else s.mem (base + o) (len - o) ++ s.mem base (n - (len - o))

/-- Bytes of a segment of an input ring. -/
def segBytes : Nat := 65536

/-- Carries the CRC-32C of each segment on over bytes that enter at an offset (R212). -/
def segCrcs : Nat → List (Nat × Nat) → Nat → Bytes → List (Nat × Nat)
  | 0, m, _, _ => m
  | fuel + 1, m, off, b =>
    if b.isEmpty then m
    else
      let k := off / segBytes
      let n := (k + 1) * segBytes - off
      segCrcs fuel (aset m k (crc32cFrom (if off % segBytes = 0 then 0 else agetD m k 0) (b.take n))) (off + n) (b.drop n)

/-- Looks for the program in the input so far, of which `b` has just entered; bytes without it are consumed, and after 64 MiB the stream
fails (R194, Table 7.6). -/
def State.shuFind (s : State) (n : Nat) (b : Bytes) : State :=
  match s.stream n with
  | none => s
  | some x =>
    let head := (s.streamX n).head ++ b
    if (s.streamX n).found || x.st == stFailed then s
    else if Config.holdsProgram x.container x.program (head.take (mib 64)) then
      let sel := x.program :: x.dvbsub :: x.tracks.map (fun k => k.sel)
      let t := s.upStreamX n (fun y => { y with found := true, head := [] })
      -- a program that a stream's first 64 MiB hold is followed from then on: what its later tables change comes with its pictures and frames
      if Config.lacksTrack x.container x.program head sel then t.shuFail n 7 else t
    else
      let t := (s.upStream n (fun x => { x with inDone := x.inTail })).upStreamX n (fun y => { y with head := head })
      if mib 64 ≤ x.inTail then t.shuFail n 3 else t

/-- Bytes enter the input ring; `placed` says that they already stand there (R195, R212). The stream uses its context (R163, R192). -/
def State.shuEnter (s : State) (n : Nat) (b : Bytes) (placed : Bool) : State :=
  match s.stream n with
  | none => s
  | some x =>
    let t := if placed then s else s.ringPut x.inBase x.inLen x.inTail b
    let u := (t.upStream n (fun x => { x with inTail := x.inTail + b.length })).upStreamX n (fun y =>
      { y with hurts := y.hurts.filter (fun e => decide (x.inTail < e.2 + x.inLen)),
               crcs := segCrcs (b.length / segBytes + 2) (y.crcs.filter (fun e => decide (x.keep ≤ (e.1 + 1) * segBytes))) x.inTail b,
               ingest := (y.ingest.filter (fun e => decide (x.keep ≤ e.1)) ++ (y.ingest.filter (fun e => decide (e.1 < x.keep))).getLast?.toList).mergeSort
                   (fun a c => decide (a.1 ≤ c.1)) ++ [(x.inTail, s.cuePos)],
               firstIn := if y.firstIn.isNone then some s.now else y.firstIn })
    (u.ctxUse x.ctx).shuFind n b

/-- CUE_INGEST of a unit: the position when its first input byte entered (Table 7.7). -/
def StreamX.cueAt (y : StreamX) (off : Nat) : Nat :=
  match (y.ingest.filter (fun e => decide (e.1 ≤ off))).getLast? with
  | some e => e.2
  | none => 0

/-! ## Output records (R201, R202) -/

/-- Bytes in use in the output ring. -/
def Stream.outUsed (x : Stream) : Nat := (x.recs.map (fun r => r.len)).sum

/-- Bytes of a record with its trailer. -/
def ShuPend.len (r : ShuPend) : Nat := 136 + r.body.length

/-- Next multiple of 64. -/
def up64 (n : Nat) : Nat := (n + 63) / 64 * 64

/-- The common header of a record (Table 7.7). -/
def recHead (kind flags track stream seq len pts cue src dtime : Nat) : Bytes :=
  [BitVec.ofNat 8 kind, BitVec.ofNat 8 flags, BitVec.ofNat 8 track, 0] ++ leBytes 4 stream ++ leBytes 8 seq ++ leBytes 4 len ++
    leBytes 4 0 ++ leBytes 8 (pts % 2 ^ 33) ++ leBytes 8 cue ++ leBytes 8 src ++ leBytes 8 dtime ++ zeros 8

/-- A record with its trailer (R201). -/
def ShuPend.bytes (r : ShuPend) (stream seq dtime : Nat) : Bytes :=
  let b := recHead r.kind r.flags r.track stream seq r.len r.pts r.cue r.src dtime ++ padTo 64 r.hdr ++ r.body
  b ++ leBytes 8 (crc64 b)

/-- A PAD record over the rest of the ring (R201); its trailer is its last 8 bytes. -/
def padRec (stream len dtime : Nat) : Bytes :=
  let b := padTo (len - 8) (recHead 0 0 0 stream 0 len 0 0 0 dtime)
  b ++ leBytes 8 (crc64 b)

/-- A record has become visible: the stream's consumer learns of it (Table 7.3, R255). -/
def State.shuVisible (s : State) (n seq : Nat) (x : Stream) : State :=
  let k := x.consumer % 268435456
  if x.consumer / 268435456 = 1 then s.vecEvent x.owner k
  else s.upTap (fun t => { t with queues := aupd t.queues k (fun q =>
    if q.prog.isSome && q.owner == x.owner then { q with waiting := q.waiting ++ [(n, seq, s.now)] } else q) })

/-- RAPs that a reset or a move may still need: from the last one at or before the oldest unreturned record on. -/
def pruneRaps (l : List (Nat × Nat × Nat)) (oldest : Option Nat) : List (Nat × Nat × Nat) :=
  let n := match oldest with
    | some o => (l.filter (fun r => decide (r.1 ≤ o))).length
    | none => l.length
  l.drop (n - 1)

/-- Oldest unreturned record, pads apart. -/
def Stream.oldest (x : Stream) : Option ShuRec := x.recs.find? (fun r => !r.pad)

/-- Writes the records whose room exists, in order; one that does not fit before the end of the ring is preceded by a PAD
record (R201, R202). -/
def State.shuWrite : Nat → State → Nat → State
  | 0, s, _ => s
  | fuel + 1, s, n =>
    match s.stream n, (s.streamX n).outq with
    | some x, r :: rest =>
      let size := up64 r.len
      let tail := if x.outTail = x.outLen then 0 else x.outTail
      let toEnd := x.outLen - tail
      let pad := if size ≤ toEnd then 0 else toEnd
      if x.outUsed + pad + size ≤ x.outLen then
        let off := if pad = 0 then tail else 0
        let s1 := if pad = 0 then s else s.gWrite (x.outBase + tail) (padRec n pad s.now)
        let s2 := s1.gWrite (x.outBase + off) (r.bytes n x.nextSeq s.now)
        let padR : List ShuRec := if pad = 0 then [] else [{ off := tail, len := pad, pad := true }]
        let s3 := s2.upStream n (fun x =>
          { x with recs := x.recs ++ padR ++ [{ off := off, len := size, seq := x.nextSeq, src := r.src, made := s.now }], nextSeq := x.nextSeq + 1,
                   outTail := (off + size) % x.outLen })
        State.shuWrite fuel ((s3.upStreamX n (fun y => { y with outq := rest })).shuVisible n x.nextSeq x) n
      else s
    | _, _ => s

/-- Whether the source has no more bytes (R196, R213). -/
def State.sourceDone (s : State) (n : Nat) (x : Stream) : Bool :=
  (x.srcKind == 1 && x.inTail == x.srcLen) || (x.srcKind == 2 && (s.streamX n).endMark)

/-- The state a stream is in (Table 7.4). -/
def State.shuSettle (s : State) (n : Nat) : State :=
  match s.stream n with
  | none => s
  | some x =>
    if x.st = stFailed ∨ x.st = stEnded ∨ x.st = stMoving then s
    else
      let y := s.streamX n
      let st :=
        if !y.outq.isEmpty then stStalled
        else if y.want.isSome then stWaiting
        else if x.inDone = x.inTail ∧ s.sourceDone n x then stEnded
        else if x.nextSeq = 0 then stOpening
        else if x.inDone = x.inTail then stWaiting else stRunning
      s.upStream n (fun x => { x with st := st, raps := pruneRaps x.raps (x.oldest.map (fun r => r.src)) })

/-- Payload that the Heddle delivers to a live stream: what the ring cannot take is dropped and counted, and the gap is damage (R195). -/
def State.shuLive (s : State) (n : Nat) (b : Bytes) : State :=
  match s.stream n with
  | none => s
  | some x =>
    if x.srcKind ≠ 0 ∨ x.st = stFailed ∨ x.st = stEnded then s
    else
      let room := if s.partHeld .staging then 0 else x.inRoom
      let t := s.shuEnter n (b.take room) false
      (if b.length ≤ room then t
       else t.upStreamX n (fun y =>
        { y with inDrop := y.inDrop + (b.length - room), dropAt := some (x.inTail + room),
                 hurts := y.hurts ++ [(x.inTail + room, x.inTail + room + 1)] })).shuSettle n

/-- Queues a record behind those decoded before it: one already written is not written a second time, and one larger than
half of the ring fails the stream (R199, Table 7.6). Damage of the input marks the next record (R209). -/
def State.shuPush (s : State) (n : Nat) (r : ShuPend) : State :=
  match s.stream n with
  | none => s
  | some x =>
    let y := s.streamX n
    if x.st = stFailed then s
    else if y.decSeq < x.nextSeq + y.outq.length then s.upStreamX n (fun y => { y with decSeq := y.decSeq + 1 })
    else if x.outLen < 2 * r.len then s.shuFail n 5
    else
      let r' : ShuPend := { r with flags := r.flags ||| (4 * b2n y.discontNext) }
      (s.upStreamX n (fun y => { y with outq := y.outq ++ [r'], decSeq := y.decSeq + 1, discontNext := false })).shuWrite 1 n

/-! ## Pictures -/

/-- The rows of a plane. -/
def rowsOf (w : Nat) : Nat → Bytes → List Bytes
  | 0, _ => []
  | h + 1, b => b.take w :: rowsOf w h (b.drop w)

/-- Rows of one parity: those of the top field (0) or the bottom field (1). -/
def parityRows (p : Nat) (l : List Bytes) : List Bytes := ((List.range l.length).filter (fun i => i % 2 == p)).map (fun i => l.getD i [])

/-- Samples of a row. -/
def samples (bps : Nat) (row : Bytes) : List Nat := (List.range (row.length / bps)).map (fun i => fld row (i * bps) bps)

/-- The average of two rows (Table 7.9); how an odd sum rounds is not stated (log entry 3). -/
def avgRow (bps : Nat) (a b : Bytes) : Bytes :=
  ((samples bps a).zip (samples bps b)).flatMap (fun e =>
    leBytes bps ((e.1 + e.2) / 2 + (if (e.1 + e.2) % 2 = 1 ∧ Config.bobUp e.1 e.2 then 1 else 0)))

/-- A field line-doubled: its lines in their places, and between them the average of the adjacent lines; at an edge the
one adjacent line (Table 7.9). -/
def bobRows (bps p h : Nat) (l : List Bytes) : List Bytes :=
  (List.range h).map (fun i =>
    if i % 2 = p then l.getD (i / 2) []
    else
      let above := if p = 0 then i / 2 else (i + 1) / 2 - 1
      let below := if p = 0 then i / 2 + 1 else i / 2
      if p = 1 ∧ i = 0 then l.getD 0 []
      else if l.length ≤ below then l.getD above [] else avgRow bps (l.getD above []) (l.getD below []))

/-- A plane with each row padded to the pitch. -/
def pitched (pitch : Nat) (l : List Bytes) : Bytes := l.flatMap (padTo pitch)

/-- The kind header of a picture (Table 7.8). -/
def picHead (q : Picture) (num struct w h cw ch crop bad : Nat) (off : List Nat) (pitch : Nat) : Bytes :=
  [BitVec.ofNat 8 q.codec, BitVec.ofNat 8 q.ptype, BitVec.ofNat 8 struct, BitVec.ofNat 8 q.chroma, BitVec.ofNat 8 q.depth,
    BitVec.ofNat 8 (b2n q.isRef)] ++ leBytes 2 q.qp ++ leBytes 2 w ++ leBytes 2 h ++ leBytes 2 cw ++ leBytes 2 ch ++ leBytes 8 crop ++
    leBytes 4 num ++ leBytes 4 bad ++ (padTo 12 (off.flatMap (leBytes 4))) ++ leBytes 4 pitch ++ zeros 16

/-- A pixel record of a picture from the rows of its planes (R203). -/
def pixelRec (x : ShuPic) (struct flags pts : Nat) (planes : List (List Bytes)) : ShuPend :=
  let q := x.pic
  let pitch := up64 (q.size.1 * q.sampleBytes)
  let p := planes.map (pitched pitch)
  let o1 := 128 + (p.getD 0 []).length
  let o2 := o1 + (p.getD 1 []).length
  { kind := 1, flags := flags, track := 0, pts := pts, src := q.srcOff, cue := x.cue,
    hdr := picHead q x.num struct q.size.1 (planes.getD 0 []).length 0 0 0 q.bad.length [128, o1, o2] pitch, body := p.flatten }

/-- A row of samples as it leaves: at depth 10 the value stands in bits [9:0] (R203). -/
def rowOut (bps : Nat) (r : Bytes) : Bytes := if bps = 1 then r else (samples 2 r).flatMap (fun v => leBytes 2 (v % 1024))

/-- The part of a plane inside the conformance window: its rows from `top` on, each from sample `left` on (R203). -/
def cropRows (bps w h left top cw ch : Nat) (b : Bytes) : List Bytes :=
  (((rowsOf (w * bps) h b).drop top).take ch).map (fun r => rowOut bps ((r.drop (left * bps)).take (cw * bps)))

/-- The rows of the planes of a decoded picture after the conformance window crop (R203). -/
def planeRows (q : Picture) (planes : List Bytes) : List (List Bytes) :=
  let c := q.chromaSize q.codedW q.codedH
  let d := q.chromaSize q.size.1 q.size.2
  let left := q.crop.getD 0 0
  let top := q.crop.getD 2 0
  let chroma := cropRows q.sampleBytes c.1 c.2 (left / 2) (if q.chroma = 1 then top / 2 else top) d.1 d.2
  [cropRows q.sampleBytes q.codedW q.codedH left top q.size.1 q.size.2 (planes.getD 0 []), chroma (planes.getD 1 []), chroma (planes.getD 2 [])]

/-! ## Concealment (R210) -/

/-- A plane whose damaged cells hold what stands in the same places of a reference picture, or mid-level where there is none. -/
def concealPlane (bps mid cellsW cw ch : Nat) (bad : List Nat) (ref : Option (List Bytes)) (rows : List Bytes) : List Bytes :=
  (List.range rows.length).map (fun y =>
    (bad.filter (fun i => i / cellsW == y / ch)).foldl (fun (r : Bytes) i =>
      let x := i % cellsW * cw * bps
      let n := min (cw * bps) (r.length - x)
      let new := match ref with
        | some p => sub (p.getD y []) x n
        | none => (List.replicate (n / bps) (leBytes bps mid)).flatten
      r.take x ++ new ++ r.drop (x + n)) (rows.getD y []))

/-- The rows of a reference picture that lie where a picture's rows lie: of a frame those of the picture's field, and of a field each line
twice for a frame (R210). -/
def likeRows (q r : Picture) (rows : List Bytes) : List Bytes :=
  if 2 ≤ q.struct ∧ r.struct < 2 then parityRows (q.struct - 2) rows
  else if q.struct < 2 ∧ 2 ≤ r.struct then rows.flatMap (fun x => [x, x])
  else rows

/-- A pixel-mode picture with its damaged cells concealed from the nearest reference picture in display order (R210). -/
def concealPic (store : List ShuPic) (q : Picture) : Picture :=
  let like := store.filter (fun r => r.pic.codedW == q.codedW && r.pic.lines == q.lines && r.pic.chroma == q.chroma && r.pic.depth == q.depth)
  let ref := like.foldl (fun (m : Option ShuPic) r =>
    match m with
    | none => some r
    | some b => if ptsApart r.pic.pts q.pts < ptsApart b.pic.pts q.pts then some r else m) none
  let mid := if q.depth = 8 then 128 else 512
  let c := q.chromaSize q.codedW q.codedH
  let one := fun (w h cw ch k : Nat) =>
    (concealPlane q.sampleBytes mid q.cells.1 cw ch q.bad (ref.map (fun r =>
        likeRows q r.pic (rowsOf (w * q.sampleBytes) (if q.struct < 2 ∧ 2 ≤ r.pic.struct then h / 2 else if 2 ≤ q.struct ∧ r.pic.struct < 2 then 2 * h else h)
          (r.pic.planes.getD k []))))
      (rowsOf (w * q.sampleBytes) h (padTo (w * h * q.sampleBytes) (q.planes.getD k [])))).flatten
  let cch := if q.chroma = 1 then 8 else 16
  { q with planes := [one q.codedW q.codedH 16 16 0, one c.1 c.2 8 cch 1, one c.1 c.2 8 cch 2] }

/-! ## Coefficient mode (R205 to R207) -/

/-- The coefficient slots of one cell. -/
def cellSlots (slots : Nat) (l : List (Nat × Nat × Int)) : Bytes :=
  (List.range slots).flatMap (fun k => int16 (((l.find? (fun e => e.2.1 == k)).map (fun e => e.2.2)).getD 0))

/-- A concealed cell header: TYPE 3, CONCEALED (R210). -/
def concealCell (b : Bytes) : Bytes := [3] ++ sub b 1 2 ++ [BitVec.ofNat 8 (fld b 3 1 ||| 32)] ++ b.drop 4

/-- A coefficient record: three planes from offset 128, each on a 64-byte boundary (R204 to R207); a damaged cell is concealed, with zero
vectors and coefficients, and a skipped one has none (Table 7.10, R210). -/
def coeffRec (x : ShuPic) : ShuPend :=
  let q := x.pic
  let ids := List.range (q.cells.1 * q.cells.2)
  let all := q.coefs
  let tiled := q.tiled
  let cell := fun (i : Nat) =>
    let c := q.cellsIn.getD i {}
    if tiled.contains i then { c with flags := c.flags ||| 8 } else c
  let cells := ids.flatMap (fun i => if q.bad.contains i then concealCell (cell i).bytes else (cell i).bytes)
  let vecs := ids.flatMap (fun i => if q.bad.contains i then zeros 256 else (cell i).vectors q.codec)
  let coef := ids.flatMap (fun i =>
    if q.bad.contains i || decide (2 ≤ (cell i).kind) then zeros (2 * q.slots) else cellSlots q.slots (all.filter (fun e => e.1 == i)))
  let o1 := up64 (128 + cells.length)
  let o2 := up64 (o1 + vecs.length)
  let crop := (q.crop.getD 0 0) + 2 ^ 16 * (q.crop.getD 1 0) + 2 ^ 32 * (q.crop.getD 2 0) + 2 ^ 48 * (q.crop.getD 3 0)
  { kind := 2, flags := x.flags, track := 0, pts := q.pts, src := q.srcOff, cue := x.cue,
    hdr := picHead q x.num q.struct q.codedW q.codedH q.cells.1 q.cells.2 crop q.bad.length [128, o1, o2] 0,
    body := padTo (o1 - 128) cells ++ padTo (o2 - o1) vecs ++ coef }

/-- A gap record: PTS and DECODE_NUM alone (R210). -/
def gapRec (track pts src cue num flags : Nat) : ShuPend :=
  { kind := 6, flags := flags, track := track, pts := pts, src := src, cue := cue, hdr := zeros 24 ++ leBytes 4 num ++ zeros 36 }

/-- A field bobbed into one record of STRUCT 4 or 5 (Table 7.9). -/
def bobRec (x : ShuPic) (p pts flags : Nat) (h : List Nat) (planes : List (List Bytes)) : ShuPend :=
  pixelRec x (4 + p) flags pts ((planes.zip h).map (fun e => bobRows x.pic.sampleBytes p e.2 e.1))

/-- Heights of the planes of a frame of which a picture is a field. -/
def frameHeights (planes : List (List Bytes)) : List Nat := planes.map (fun l => 2 * l.length)

/-- The records of a field that has no partner (Table 7.9). -/
def loneField (interlace : Nat) (x : ShuPic) : ShuPend :=
  let rows := planeRows x.pic x.pic.planes
  let p := x.pic.struct - 2
  if interlace = 0 then pixelRec x x.pic.struct x.flags x.pic.pts rows
  else bobRec x p x.pic.pts x.flags (frameHeights rows) rows

/-- Two fields woven into one frame record of STRUCT 1 (Table 7.9). -/
def weaveRec (a b : ShuPic) : ShuPend :=
  let ra := planeRows a.pic a.pic.planes
  let rb := planeRows b.pic b.pic.planes
  let top := if a.pic.struct = 2 then ra else rb
  let bot := if a.pic.struct = 2 then rb else ra
  let rows := (top.zip bot).map (fun e =>
    (List.range (e.1.length + e.2.length)).map (fun i => if i % 2 = 0 then e.1.getD (i / 2) [] else e.2.getD (i / 2) []))
  let x : ShuPic := { a with pic := { a.pic with bad := a.pic.bad ++ b.pic.bad } }
  pixelRec x 1 (a.flags ||| b.flags) a.pic.pts rows

/-- The pixel records of a picture whose turn has come, without regard to a held field; the fields of a frame leave in temporal order
(Table 7.9). -/
def pixelRecs (interlace : Nat) (x : ShuPic) : List ShuPend :=
  let q := x.pic
  let rows := planeRows q q.planes
  if q.struct = 0 then [pixelRec x 0 x.flags q.pts rows]
  else if q.struct = 1 then
    if interlace = 1 then [pixelRec x 1 x.flags q.pts rows]
    else
      let a := if q.topFirst then 0 else 1
      let one := fun (p pts : Nat) =>
        if interlace = 0 then pixelRec x (2 + p) x.flags pts (rows.map (parityRows p))
        else bobRec x p pts x.flags (rows.map List.length) (rows.map (parityRows p))
      [one a q.pts, one (1 - a) q.pts2]
  else [loneField interlace x]

/-- Counts a picture that was concealed or replaced, once (R196, R216, R505). -/
def State.shuCount (s : State) (n : Nat) (x : ShuPic) : State :=
  let y := s.streamX n
  let fresh := match s.stream n with
    | some st => decide (st.nextSeq + y.outq.length ≤ y.decSeq)
    | none => false
  if !fresh then s
  else if x.gap then (s.upStreamX n (fun y => { y with dropped := (y.dropped + 1) % 2 ^ 32 })).ao 26 1
  else if x.flags % 2 = 1 then
    ((s.upStreamX n (fun y => { y with concealed := (y.concealed + 1) % 2 ^ 32 })).upShu (fun u =>
      { u with conceal := satu 65535 (u.conceal + 1) })).ao 26 1
  else s

/-- Writes a field that waited for a partner which does not come (Table 7.9). -/
def State.shuFlushField (s : State) (n interlace : Nat) : State :=
  match (s.streamX n).field with
  | none => s
  | some f => (s.upStreamX n (fun y => { y with field := none })).shuPush n (loneField interlace f)

/-- A picture's turn has come: its records are queued (R203, R204, R207, R210). -/
def State.shuOutput (s : State) (n : Nat) (x : ShuPic) : State :=
  match s.stream n with
  | none => s
  | some st =>
    let s := s.shuCount n x
    let q := x.pic
    let gap := gapRec 0 q.pts q.srcOff x.cue x.num (x.flags / 2 % 2 * 2)
    if st.mode = 1 then
      if x.gap then s.shuPush n gap
      else
        let t := s.shuPush n (coeffRec x)
        if bit st.flags 2 && q.isRef && q.ptype == 0 then
          t.shuPush n (pixelRec x q.struct (x.flags ||| 8) q.pts (planeRows q q.anchor))
        else t
    else
      match (s.streamX n).field with
      | some f =>
        if q.second && !x.gap && decide (2 ≤ q.struct) && q.struct != f.pic.struct then
          (s.upStreamX n (fun y => { y with field := none })).shuPush n (weaveRec f x)
        else
          let t := s.shuFlushField n st.interlace
          if x.gap then t.shuPush n gap else (pixelRecs st.interlace x).foldl (fun u r => u.shuPush n r) t
      | none =>
        if x.gap then s.shuPush n gap
        else if st.interlace = 1 && decide (2 ≤ q.struct) && !q.second then s.upStreamX n (fun y => { y with field := some x })
        else (pixelRecs st.interlace x).foldl (fun u r => u.shuPush n r) s

/-- The picture displayed first among those that wait (R203). -/
def firstShown : List ShuPic → Option ShuPic
  | [] => none
  | x :: t =>
    match firstShown t with
    | none => some x
    | some y => if ptsBefore y.pic.pts x.pic.pts then some y else some x

/-- The picture decoded first among those that wait, but that no waiting picture displayed before it uses (R207, log entry 75). -/
def firstDecoded (l : List ShuPic) : Option ShuPic :=
  match l.find? (fun x => !(l.any (fun y => y.pic.refs.contains x.num && ptsBefore y.pic.pts x.pic.pts))) with
  | some x => some x
  | none => l.head?

/-- Outputs `k` waiting pictures in the stream's order (R203, R207). -/
def State.shuTurn : Nat → State → Nat → State
  | 0, s, _ => s
  | k + 1, s, n =>
    let y := s.streamX n
    match (if ((s.stream n).map (fun x => x.order)).getD 0 = 1 then firstDecoded y.dpb else firstShown y.dpb) with
    | none => s
    | some x =>
      State.shuTurn k ((s.upStreamX n (fun y =>
        { y with dpb := y.dpb.erase x, shown := ((x.num, x.pic.pts) :: y.shown).take 64 })).shuOutput n x) n

/-- Whether a picture comes too late for its turn, because one displayed after it has left (ORDER 0), or a later-displayed reference that it
uses (ORDER 1). The codec layer's count of pictures whose turn has come never brings one (R203, R207, log entry 75). -/
def StreamX.outOfTurn (y : StreamX) (order : Nat) (q : Picture) : Bool :=
  !q.rap && y.shown.any (fun e => ptsBefore q.pts e.2 && (order == 0 || q.refs.contains e.1))

/-- Outputs every waiting picture. -/
def State.shuFlush (s : State) (n : Nat) : State :=
  let t := State.shuTurn (s.streamX n).dpb.length s n
  match t.stream n with
  | some x => t.shuFlushField n x.interlace
  | none => t

/-- Ends what a decode event did: pictures leave at the source's end, records are written, and the state is settled. -/
def State.shuFinish (s : State) (n : Nat) : State :=
  match s.stream n with
  | none => s
  | some x =>
    let t := if x.inDone = x.inTail ∧ s.sourceDone n x then s.shuFlush n else s
    ((State.shuWrite ((t.streamX n).outq.length) t n)).shuSettle n

/-! ## Segment checks (R212) -/

/-- The first segment that a read up to an offset touches and whose check fails. -/
def State.badSegment (s : State) (n : Nat) (x : Stream) (stop : Nat) : Option Nat :=
  let y := s.streamX n
  (List.range' (x.inDone / segBytes) ((stop + segBytes - 1) / segBytes - x.inDone / segBytes)).find? (fun k =>
    let lo := k * segBytes
    let hi := min x.inTail (lo + segBytes)
    match aget y.crcs k with
    | some c => crc32c (s.ringTake x.inBase x.inLen lo (hi - lo)) != c
    | none => false)

/-- A segment that failed its check: read again once from a namespace, fed again by software, or damage (R212). -/
def State.segFailed (s : State) (n k : Nat) (x : Stream) : State :=
  let s := s.upShu (fun u => { u with inCrc := satu 65535 (u.inCrc + 1) })
  if x.srcKind = 1 then
    if (s.streamX n).reread.contains k then s.shuFail n 6
    else (s.upStreamX n (fun y => { y with want := some k, reread := y.reread ++ [k] })).shuSettle n
  else if x.srcKind = 2 then
    let lo := k * segBytes
    ((s.upStream n (fun x => { x with inDone := lo, inTail := lo, st := stWaiting })).upStreamX n (fun y =>
      { y with crcs := y.crcs.filter (fun e => decide (e.1 < k)), endMark := false })).record x.unit 0x0032 n lo 0 (.tenant x.owner)
  else s.upStreamX n (fun y => { y with crcs := adel y.crcs k, hurts := y.hurts ++ [(k * segBytes, (k + 1) * segBytes)] })

/-- Whether damaged input lies in a stretch of the source (R195, R209, R212). -/
def StreamX.hurt (y : StreamX) (a b : Nat) : Bool := y.hurts.any (fun e => decide (a < e.2) && decide (e.1 < b))

/-- A picture whose input was damaged though its decoding reports no damaged cell: all of it is (R209, log entry 75). -/
def StreamX.damage (y : StreamX) (q : Picture) : Picture :=
  if (0 < q.discont ∨ y.hurt q.srcOff q.srcEnd) ∧ q.bad.isEmpty ∧ !q.lost then { q with bad := List.range (q.cells.1 * q.cells.2) } else q

/-- Whether a stream decodes now: bound to a shuttle in service, and held by no intermission, reset or freeze (R88, R200,
R214). -/
def State.shuRuns (s : State) (n : Nat) : Bool :=
  match s.stream n with
  | none => false
  | some x =>
    (x.st == stOpening || x.st == stRunning || x.st == stWaiting) && (s.streamX n).want.isNone && !(s.streamX n).frozen &&
      !s.held 0x2FFF0000 && !s.partHeld .staging &&
      (match x.shuttle with | some k => !s.unitFenced (64 + k) | none => false)

/-! ## What other blocks do to streams -/

/-- Ends a stream at once: its context and channels are freed (R200). -/
def State.shuClose (s : State) (n : Nat) : State :=
  match s.stream n with
  | none => s
  | some x =>
    ((s.ctxGive [x.ctx]).upShu (fun u => { u with streams := adel u.streams n, streamx := adel u.streamx n })).intDrop (.stream n)

/-- Closes every stream of a function (R457). -/
def State.shuCloseFn (s : State) (fn : Nat) : State :=
  (s.shu.streams.filter (fun e => e.2.owner == fn)).foldl (fun t e => t.shuClose e.1) s

/-- Freezes or thaws the streams of a function (R200). -/
def State.shuFreeze (s : State) (fn : Nat) (on : Bool) : State :=
  (s.shu.streams.filter (fun e => e.2.owner == fn)).foldl (fun t e => t.upStreamX e.1 (fun y => { y with frozen := on })) s

/-- The staging partition was reset: visible records not returned are lost, and each stream rewinds to the last RAP at or
before the oldest of them (R214). A live stream counts its pictures again from that RAP, and those whose input is gone leave gap records; a
stream without RAPs, which decodes no video, goes back to its oldest lost record itself (DEDUCED, log entry 75). -/
def State.shuReset (s : State) (n : Nat) : State :=
  match s.stream n with
  | none => s
  | some x =>
    if x.st = stFailed then s.upStream n (fun x => { x with recs := [], outHead := x.outTail })
    else if x.st = stEnded ∧ x.oldest.isNone then s
    else
      let back : Option (Nat × Nat × Nat) := match x.oldest with
        | none => none
        | some r => (x.raps.filter (fun p => decide (p.1 ≤ r.src))).getLast?
      let seq := match x.oldest with
        | some r => r.seq
        | none => x.nextSeq
      let t := s.upStream n (fun x => { x with recs := [], outHead := x.outTail, nextSeq := seq, raps := match back with
        | some p => x.raps.filter (fun r => decide (r.1 ≤ p.1))
        | none => x.raps })
      let u := if x.srcKind = 0 then
          (match back with
           | some p => t.upStreamX n (fun y => { y with toRap := true, decSeq := p.2.1, decodeNum := p.2.2, outq := [], dpb := [], field := none, shown := [] })
           | none => t.upStreamX n (fun y => { y with toRap := !x.raps.isEmpty, decSeq := seq, outq := [], dpb := [], field := none, shown := [] }))
        else match back, x.oldest with
          | some p, _ => t.shuRewind n p.1 p.2.1 p.2.2
          | none, some r =>
            (t.upStream n (fun z => { z with inDone := r.src })).upStreamX n (fun y => { y with decSeq := seq, outq := [], dpb := [], field := none, shown := [] })
          | none, none => t
      (u.upStream n (fun z => { z with inTail := z.inDone, st := if x.st = stMoving then stMoving else if x.srcKind = 2 then stWaiting else if z.nextSeq = 0 then stOpening else stWaiting })).upStreamX n
        (fun y => { y with crcs := [], want := none, endMark := false, dropAt := if x.srcKind = 0 then some x.inTail else y.dropAt })

/-- Every stream after a reset of the staging partition. -/
def State.shuResetAll (s : State) : State := s.shu.streams.foldl (fun t e => t.shuReset e.1) s

end Sys2Proof.Machine
end

