-- ==== Sys2Proof/Machine/TapArith.lean ====
section
/-!
DEFINITION. Tapestry arithmetic (chapter 8): exact values, rounding, element formats, block quantisation, input conversion.
-/
namespace Sys2Proof.Machine

open Sys2Proof

/-! ## Exact values -/

/-- A value: NaN, an infinity, or (-1)^neg × m × 2^e. -/
inductive Val where
  | nan
  | inf (neg : Bool)
  | fin (neg : Bool) (m : Nat) (e : Int)
deriving DecidableEq, Repr

/-- 2 to an integer that is not negative. -/
def pow2 (k : Int) : Nat := 2 ^ k.toNat

/-- Zero. -/
def Val.zero : Val := .fin false 0 0

/-- A value from an integer. -/
def Val.ofInt (i : Int) : Val := .fin (decide (i < 0)) i.natAbs 0

/-- The exact sum; (+Inf) + (-Inf) is NaN (R232). -/
def Val.add (a b : Val) : Val :=
  match a, b with
  | .nan, _ => .nan
  | _, .nan => .nan
  | .inf x, .inf y => if x = y then .inf x else .nan
  | .inf x, _ => .inf x
  | _, .inf y => .inf y
  | .fin x m e, .fin y n f =>
    let q := min e f
    let i : Int := (if x then -1 else 1) * (m * pow2 (e - q) : Nat) + (if y then -1 else 1) * (n * pow2 (f - q) : Nat)
    .fin (if i = 0 then x && y else decide (i < 0)) i.natAbs q

/-- The exact product. -/
def Val.mul (a b : Val) : Val :=
  match a, b with
  | .nan, _ => .nan
  | _, .nan => .nan
  | .inf x, .inf y => .inf (x != y)
  | .inf x, .fin y n _ => if n = 0 then .nan else .inf (x != y)
  | .fin x m _, .inf y => if m = 0 then .nan else .inf (x != y)
  | .fin x m e, .fin y n f => .fin (x != y) (m * n) (e + f)

/-- The value with its sign changed. -/
def Val.neg (a : Val) : Val :=
  match a with
  | .nan => .nan
  | .inf x => .inf (!x)
  | .fin x m e => .fin (!x) m e

/-- The value times a power of two. -/
def Val.scale (a : Val) (k : Int) : Val :=
  match a with
  | .fin x m e => .fin x m (e + k)
  | v => v

/-- Whether a value is NaN. -/
def Val.isNan (a : Val) : Bool :=
  match a with
  | .nan => true
  | _ => false

/-- Whether a value is finite. -/
def Val.isFin (a : Val) : Bool :=
  match a with
  | .fin _ _ _ => true
  | _ => false

/-- Whether a is less than b; never with a NaN. -/
def Val.lt (a b : Val) : Bool :=
  match a, b with
  | .nan, _ => false
  | _, .nan => false
  | .inf x, .inf y => x && !y
  | .inf x, _ => x
  | _, .inf y => !y
  | .fin _ _ _, .fin _ _ _ =>
    match a.add b.neg with
    | .fin s m _ => s && decide (0 < m)
    | _ => false

/-- The magnitude. -/
def Val.abs (a : Val) : Val :=
  match a with
  | .nan => .nan
  | .inf _ => .inf false
  | .fin _ m e => .fin false m e

/-! ## Rounding (R227, R228) -/

/-- m / 2^k to nearest, ties to even. -/
def rneShift (m k : Nat) : Nat :=
  let q := m / 2 ^ k
  let r := m % 2 ^ k
  if 2 ^ k < 2 * r ∨ (2 * r = 2 ^ k ∧ q % 2 = 1) then q + 1 else q

/-- m × 2^e as a multiple of 2^q: to nearest, or stochastically with a 16-bit random number (R227, R228). -/
def roundTo (m : Nat) (e q : Int) (sr : Option Nat) : Nat :=
  if q ≤ e then m * pow2 (e - q)
  else
    let k := (q - e).toNat
    match sr with
    | none => rneShift m k
    | some r => ((if 16 ≤ k then m / 2 ^ (k - 16) else m * 2 ^ (16 - k)) + r) / 65536

/-- Exponent of the least significant bit of a format at a magnitude. -/
def ulpExp (m : Nat) (e : Int) (mb bias : Nat) : Int := max ((Nat.log2 m : Int) + e - mb) (1 - (bias : Int) - mb)

/-- Magnitude code (exponent and mantissa fields) of a rounded magnitude, before any limit. -/
def magCode (mb bias : Nat) (m : Nat) (e : Int) (sr : Option Nat) : Nat :=
  if m = 0 then 0
  else
    let q := ulpExp m e mb bias
    let r := roundTo m e q sr
    let h := 2 ^ mb
    if r < h then r
    else if r < 2 * h then ((q + mb + bias).toNat) * h + (r - h) else (q + mb + bias + 1).toNat * h

/-- An IEEE format: exponent bits, mantissa bits; overflow gives an infinity (R226, R232). NaN is the quiet NaN with no
further bits (log entry 20). -/
def packIeee (eb mb : Nat) (v : Val) (sr : Option Nat) : Nat :=
  let top := (2 ^ eb - 1) * 2 ^ mb
  let sgn := fun (x : Bool) => if x then 2 ^ (eb + mb) else 0
  match v with
  | .nan => top + 2 ^ (mb - 1)
  | .inf x => sgn x + top
  | .fin x m e => sgn x + min top (magCode mb (2 ^ (eb - 1) - 1) m e sr)

/-- The value of the bits of a format: 0 has no special codes, 1 is E4M3's single NaN, 2 is IEEE (Table 8.3). -/
def unpackBits (eb mb bias special b : Nat) : Val :=
  let s := b / 2 ^ (eb + mb) % 2 == 1
  let ex := b / 2 ^ mb % 2 ^ eb
  let m := b % 2 ^ mb
  if special = 2 ∧ ex = 2 ^ eb - 1 then (if m = 0 then .inf s else .nan)
  else if special = 1 ∧ ex = 2 ^ eb - 1 ∧ m = 2 ^ mb - 1 then .nan
  else if ex = 0 then .fin s m (1 - (bias : Int) - mb)
  else .fin s (2 ^ mb + m) ((ex : Int) - bias - mb)

/-- FP32 bits of a value, rounded to nearest. -/
def f32 (v : Val) : Nat := packIeee 8 23 v none

/-- The value of FP32 bits. -/
def ofF32 (b : Nat) : Val := unpackBits 8 23 127 2 b

/-- FP32 addition, RNE. -/
def fAdd (a b : Nat) : Nat := f32 ((ofF32 a).add (ofF32 b))

/-- FP32 multiplication, RNE. -/
def fMul (a b : Nat) : Nat := f32 ((ofF32 a).mul (ofF32 b))

/-- FP32 subtraction, RNE. -/
def fSub (a b : Nat) : Nat := f32 ((ofF32 a).add (ofF32 b).neg)

/-- An FP32 value divided by a count, RNE. -/
def fDivN (a n : Nat) : Nat :=
  match ofF32 a with
  | .fin x m e =>
    let t := m * 2 ^ 64
    f32 (.fin x (2 * (t / n) + (if t % n = 0 then 0 else 1)) (e - 65))
  | v => f32 v

/-- Integer square root, by bits from the highest. -/
def isqrt (n : Nat) : Nat → Nat → Nat
  | 0, r => r
  | k + 1, r => let t := r + 2 ^ k; isqrt n k (if t * t ≤ n then t else r)

/-- FP32 square root of a value that is not negative, RNE. -/
def fSqrt (a : Nat) : Nat :=
  match ofF32 a with
  | .fin false m e =>
    let up : Nat := if e % 2 = 0 then 60 else 61
    let n := m * 2 ^ up
    let r := isqrt n 44 0
    f32 (.fin false (2 * r + (if r * r = n then 0 else 1)) ((e - up) / 2 - 1))
  | .inf false => f32 (.inf false)
  | _ => f32 .nan

/-- Sums FP32 values in ascending order (R233). -/
def fSum (l : List Nat) : Nat := l.foldl fAdd 0

/-! ## Formats (Tables 8.3, 8.4, 9.2) -/

/-- Whether a format code is a microscaled format. -/
def isMx (f : Nat) : Bool := decide (f < 5)

/-- Exponent bits, mantissa bits, bias and special codes of an MX element format. -/
def mxFmt (f : Nat) : Nat × Nat × Nat × Nat :=
  match f with
  | 0 => (4, 3, 7, 1) | 1 => (5, 2, 15, 2) | 2 => (3, 2, 3, 0) | 3 => (2, 3, 1, 0) | _ => (2, 1, 1, 0)

/-- Largest finite magnitude code of an MX element format. -/
def mxMax (f : Nat) : Nat :=
  match f with
  | 0 => 0x7E | 1 => 0x7B | 2 => 0x1F | 3 => 0x1F | _ => 0x7

/-- emax of the scale rule. -/
def mxEmax (f : Nat) : Int :=
  match f with
  | 0 => 8 | 1 => 15 | 2 => 4 | _ => 2

/-- Bits of an element of any tensor format. -/
def fmtBits (f : Nat) : Nat :=
  match f with
  | 0 => 8 | 1 => 8 | 2 => 6 | 3 => 6 | 4 => 4 | 5 => 16 | 6 => 8 | 7 => 32 | 8 => 8 | 9 => 16 | 10 => 16 | 11 => 32 | 12 => 16 | _ => 32

/-- Element bytes of a 32-element block (Table 8.4). -/
def blockBytes (f : Nat) : Nat := 4 * fmtBits f

/-- Next multiple of 32. -/
def up32 (n : Nat) : Nat := (n + 31) / 32 * 32

/-- Bytes of a row segment of b blocks (R223). -/
def segLen (f b : Nat) : Nat := up32 (b * blockBytes f + b)

/-- Bytes of a row of n elements, padded to whole blocks of 32 elements (R223, R224). -/
def rowLen (f n : Nat) : Nat :=
  if isMx f then
    let b := (n + 31) / 32
    b / 32 * segLen f 32 + (if b % 32 = 0 then 0 else segLen f (b % 32))
  else up32 n * (fmtBits f / 8)

/-- Offsets in its row of block k of a row of n elements, and of its scale byte. -/
def blockAt (f n k : Nat) : Nat × Nat :=
  let b := (n + 31) / 32
  let base := k / 32 * segLen f 32
  let nb := min 32 (b - k / 32 * 32)
  (base + k % 32 * blockBytes f, base + nb * blockBytes f + k % 32)

/-- Element i of the packed bytes of a block (R222). -/
def blockElem (f : Nat) (b : Bytes) (i : Nat) : Nat := leNat b / 2 ^ (fmtBits f * i) % 2 ^ fmtBits f

/-- The value of an element of an MX format under a scale byte (R220, R221). -/
def mxVal (f code scale : Nat) : Val :=
  if scale = 0xFF then .nan
  else
    let p := mxFmt f
    (unpackBits p.1 p.2.1 p.2.2.1 p.2.2.2 code).scale ((scale : Int) - 127)

/-- The value of an element of a format without scales. -/
def flatVal (f v : Nat) : Val :=
  match f with
  | 5 => unpackBits 8 7 127 2 v
  | 6 => .ofInt (signed 8 v)
  | 7 => ofF32 v
  | 10 => .ofInt (signed 16 v)
  | 11 => .ofInt (signed 32 v)
  | _ => .ofInt v

/-- The values of the first n elements of a row. -/
def rowVals (f n : Nat) (b : Bytes) : List Val :=
  if isMx f then
    (List.range n).map (fun i =>
      let p := blockAt f n (i / 32)
      mxVal f (blockElem f (sub b p.1 (blockBytes f)) (i % 32)) (fld b p.2 1))
  else (List.range n).map (fun i => flatVal f (fld b (i * (fmtBits f / 8)) (fmtBits f / 8)))

/-! ## Quantisation (R225, R226) -/

/-- Largest magnitude of a list of finite values. -/
def maxMag (l : List Val) : Val := l.foldl (fun b v => if b.lt v.abs then v.abs else b) Val.zero

/-- The scale byte of a block of results (R225). -/
def mxScale (f : Nat) (l : List Val) : Nat :=
  if l.any (fun v => !v.isFin) then 0xFF
  else match maxMag l with
    | .fin _ m e =>
      if m = 0 then 0
      else
        let s := (Nat.log2 m : Int) + e - mxEmax f
        (max (-127) (min 127 s) + 127).toNat
    | _ => 0xFF

/-- An element of a block under its scale, and whether it saturated (R225). -/
def mxElem (f scale : Nat) (v : Val) (sr : Option Nat) : Nat × Bool :=
  if scale = 0xFF then (0, false)
  else match v with
    | .fin x m e =>
      let p := mxFmt f
      let c := magCode p.2.1 p.2.2.1 m (e - ((scale : Int) - 127)) sr
      let s := if x then 2 ^ (p.1 + p.2.1) else 0
      if mxMax f < c then (s + mxMax f, true) else (s + c, false)
    | _ => (0, false)

/-- Whether a value is a zero. -/
def Val.isZero (a : Val) : Bool :=
  match a with
  | .fin _ m _ => m == 0
  | _ => false

/-- The scale byte of a block, and its elements with whether each saturated; every element of a block of zeros is 0, -0.0 too (R225). -/
def mxQuant (f : Nat) (l : List (Val × Option Nat)) : Nat × List (Nat × Bool) :=
  let sc := mxScale f (l.map (fun e => e.1))
  (sc, if l.all (fun e => e.1.isZero) then l.map (fun _ => (0, false)) else l.map (fun e => mxElem f sc e.1 e.2))

/-- A value rounded to an integer and saturated to a range; whether it saturated. A value that is not a number gives 0
(log entry 20). -/
def toIntSat (lo hi : Int) (v : Val) (sr : Option Nat) : Int × Bool :=
  match v with
  | .nan => (0, false)
  | .inf x => (if x then lo else hi, true)
  | .fin x m e =>
    let r : Int := (if x then -1 else 1) * (roundTo m e 0 sr : Nat)
    if r < lo then (lo, true) else if hi < r then (hi, true) else (r, false)

/-- The bytes of a block of up to 32 results in an MX format, its scale byte, and how many saturated. -/
def mxBlock (f : Nat) (l : List (Val × Option Nat)) : Bytes × Nat × Nat :=
  let q := mxQuant f l
  let n := (q.2.zip (List.range q.2.length)).foldl (fun a e => a + e.1.1 * 2 ^ (fmtBits f * e.2)) 0
  (leBytes (blockBytes f) n, q.1, (q.2.filter (fun e => e.2)).length)

/-- A result in a format without scales, and whether it saturated. -/
def flatElem (f : Nat) (v : Val) (sr : Option Nat) : Nat × Bool :=
  match f with
  | 5 => (packIeee 8 7 v sr, false)
  | 6 => let r := toIntSat (-128) 127 v sr; (unsigned 8 r.1, r.2)
  | 7 => (f32 v, false)
  | 11 => (unsigned 32 (toIntSat (-2147483648) 2147483647 v none).1, false)
  | _ => ((toIntSat 0 4294967295 v none).1.toNat, false)

/-! ## Stochastic draws (R229) -/

/-- The 16-bit random number of output element j. -/
def srDraw (seed invoc j : Nat) : Nat :=
  let w := 2 ^ 64
  let z0 := (seed % w) ^^^ (invoc * 0x9E3779B97F4A7C15 % w) ^^^ (j * 0xBF58476D1CE4E5B9 % w)
  let z1 := (z0 ^^^ (z0 / 2 ^ 30)) * 0xBF58476D1CE4E5B9 % w
  let z2 := (z1 ^^^ (z1 / 2 ^ 27)) * 0x94D049BB133111EB % w
  (z2 ^^^ (z2 / 2 ^ 31)) % 65536

/-! ## Input conversion (R236, Table 8.7) -/

/-- Whether a format is one of samples, which convert as they are loaded. -/
def isSample (f : Nat) : Bool := f == 7 || f == 8 || f == 9 || f == 10

/-- One sample to INT8. -/
def toInt8 (src shift : Nat) (v : Val) : Val × Bool :=
  match v with
  | .fin x m e =>
    let sg : Int := if x then -1 else 1
    match src with
    | 8 => let r := toIntSat (-128) 127 (.ofInt (sg * (m * pow2 e : Nat) - 128)) none; (.ofInt r.1, r.2)
    | 9 => let r := toIntSat (-128) 127 (.ofInt ((roundTo (m * pow2 e) (-2) 0 none : Nat) - 128)) none; (.ofInt r.1, r.2)
    | _ => let r := toIntSat (-128) 127 (.fin x m (e - shift)) none; (.ofInt r.1, r.2)
  | w => (w, false)

/-- A list cut into blocks of 32. -/
def blocks32 {α : Type} : Nat → List α → List (List α)
  | 0, _ => []
  | k + 1, l => if l.isEmpty then [] else l.take 32 :: blocks32 k (l.drop 32)

/-- An operand row converted from a sample format to an operand format, block by block, and how many values saturated. -/
def convertRow (src dst shift : Nat) (l : List Val) : List Val × Nat :=
  if src = dst ∨ !(isSample src) then (l, 0)
  else if isMx dst then
    let q := (blocks32 (l.length + 1) l).map (fun b =>
      let c := mxQuant dst (b.map (fun v => (v, none)))
      c.2.map (fun e => (mxVal dst e.1 c.1, e.2)))
    (q.flatten.map (fun e => e.1), (q.flatten.filter (fun e => e.2)).length)
  else if dst = 6 then
    let q := l.map (toInt8 src shift)
    (q.map (fun e => e.1), (q.filter (fun e => e.2)).length)
  else (l.map (fun v => unpackBits 8 7 127 2 (packIeee 8 7 v none)), 0)

/-! ## Sums of products (R231) -/

/-- The exact sum of products of two blocks. -/
def dotExact (a b : List Val) : Val := (a.zip b).foldl (fun s e => s.add (e.1.mul e.2)) Val.zero

/-- Accumulates the blocks of two rows in ascending order onto the FP32 bits `start`; the product scale `alpha` scales each block's exact
sum before its one rounding (R231, Table 9.4, log entry 51). -/
def dotF32 (alpha : Val) (start : Nat) (a b : List Val) : Nat :=
  ((blocks32 (a.length + 1) a).zip (blocks32 (b.length + 1) b)).foldl (fun acc e => fAdd acc (f32 ((dotExact e.1 e.2).mul alpha))) start

/-- The INT32 sum of products of two rows, as 32 bits. -/
def dotInt (a b : List Val) : Nat :=
  match dotExact a b with
  | .fin x m e => unsigned 32 ((if x then -1 else 1) * (m * pow2 e : Nat))
  | _ => 0

/-! ## Table functions (R234, Table 8.6)

The value of a table function inside its domain is free within the stated bound: the exact value is computed in fixed point with 256
fractional bits, and the free value is taken when it lies within a relative error of 2^-20 of it; else FP32 nearest to it (log entry 19). -/

/-- One in fixed point. -/
def fixOne : Nat := 2 ^ 256

/-- Magnitude of a finite value in fixed point. -/
def Val.fix (a : Val) : Nat :=
  match a with
  | .fin _ m e => if 0 ≤ e + 256 then m * pow2 (e + 256) else m / pow2 (-(e + 256))
  | _ => 0

/-- The sum of n terms t, t·y/k, t·y²/(k·(k+d)), …; y and t in fixed point. -/
def fixSeries (d : Nat) : Nat → Nat → Nat → Nat → Nat
  | 0, _, _, _ => 0
  | n + 1, k, t, y => t + fixSeries d n (k + d) (t * y / (k * fixOne)) y

/-- e^y. -/
def expUp (y : Nat) : Nat := fixSeries 1 512 1 fixOne y

/-- e^-y. -/
def expDown (y : Nat) : Nat := fixOne * fixOne / expUp y

/-- 1 / √(2π). -/
def invSqrt2Pi : Nat := 0x662114CF50D942343F2CF1402EAE38BFD3829F30512706D8C0471B4802639D2F

/-- The probability of a standard normal value above `a`, from its series a + a³/3 + a⁵/15 + …. -/
def normalAbove (a : Nat) : Nat :=
  let sq := a * a / fixOne
  fixOne / 2 - expDown (sq / 2) * invSqrt2Pi / fixOne * fixSeries 2 512 3 a sq / fixOne

/-- The free value `g` where it is FP32 within 2^-20 of the exact value, else the nearest FP32 value (R234). -/
def within20 (neg : Bool) (exact g : Nat) : Nat :=
  match ofF32 (g % 2 ^ 32) with
  | .fin s m e =>
    let a := (Val.fin s m e).fix
    if s = neg ∧ (a - exact + (exact - a)) * 2 ^ 20 ≤ exact then g % 2 ^ 32 else f32 (.fin neg exact (-256))
  | _ => f32 (.fin neg exact (-256))

/-- Whether an FP32 value is less than an integer. -/
def fLt (a : Nat) (k : Int) : Bool := (ofF32 a).lt (.ofInt k)

/-- Whether an FP32 value is greater than an integer. -/
def fGt (a : Nat) (k : Int) : Bool := (Val.ofInt k).lt (ofF32 a)

/-- Whether an FP32 value has its sign set. -/
def fNeg (a : Nat) : Bool := a / 2 ^ 31 % 2 == 1

/-- A table function with a domain and its limits outside; NaN stays NaN. -/
def tableFn (g : Nat → Nat) (lo hi : Int) (below above : Nat → Nat) (x : Nat) : Nat :=
  if (ofF32 x).isNan then f32 .nan else if fLt x lo then below x else if fGt x hi then above x else g x

/-- GELU in its domain: x times the probability of a standard normal value below x. -/
def geluIn (x : Nat) : Nat :=
  let a := (ofF32 x).fix
  let p := normalAbove a
  within20 (fNeg x) (a * (if fNeg x then p else fixOne - p) / fixOne) (Config.gelu x)

/-- GELU. -/
def fGelu (x : Nat) : Nat := tableFn geluIn (-8) 8 (fun _ => 0) id x

/-- SiLU in its domain: x / (1 + e^-x). -/
def siluIn (x : Nat) : Nat :=
  let a := (ofF32 x).fix
  within20 (fNeg x) (a * fixOne / (fixOne + (if fNeg x then expUp a else expDown a))) (Config.silu x)

/-- SiLU. -/
def fSilu (x : Nat) : Nat := tableFn siluIn (-20) 20 (fun _ => 0) id x

/-- exp of a value that is not positive; 0 below the domain. The exponential of 0 is at least 1, since Table 8.6 has every sum with the row's
maximum at least 1 (DEDUCED, log entry 19). -/
def fExp (x : Nat) : Nat :=
  tableFn (fun x =>
    let v := within20 false (expDown (ofF32 x).fix) (Config.expTab x)
    if !(fLt x 0) && fLt v 1 then f32 (.fin false 1 0) else v) (-88) 0 (fun _ => 0) Config.expTab x

/-- Reciprocal in softmax; a NaN stays NaN. No other value outside its domain arises. -/
def fRecip (x : Nat) : Nat :=
  if (ofF32 x).isNan then f32 .nan
  else within20 false (fixOne * fixOne / (ofF32 x).fix) (Config.recipTab x)

/-- Reciprocal square root: +Inf for 0, NaN below 0; nothing is stated of the other values outside its domain. -/
def fRsqrt (x : Nat) : Nat :=
  match ofF32 x with
  | .fin s m e =>
    let a := (Val.fin s m e).fix
    if m = 0 then f32 (.inf false) else if s then f32 .nan
    else if a < 2 ^ 130 ∨ 2 ^ 383 < a then Config.rsqrtTab x
    else within20 false (isqrt (2 ^ 768 / a) 320 0) (Config.rsqrtTab x)
  | .inf true => f32 .nan
  | .inf false => Config.rsqrtTab x
  | .nan => f32 .nan

end Sys2Proof.Machine
end

