-- ==== Sys2Proof/Machine/TapProg.lean ====
section
/-!
DEFINITION. Tokenizer program images (R246 to R250): their records, the shapes of operations, and the checks of a load.
-/
namespace Sys2Proof.Machine

open Sys2Proof

/-- A tensor record (Table 9.2). -/
structure TRec where
  cls : Nat
  fmt : Nat
  rank : Nat
  view : Nat
  dims : List Nat
  rowBytes : Nat
  addr : Nat
deriving DecidableEq, Repr

/-- Elements of a row: the last dimension. -/
def TRec.n (t : TRec) : Nat := t.dims.getD 3 1

/-- Rows of a unit. -/
def TRec.rows (t : TRec) : Nat := t.dims.getD 0 1 * t.dims.getD 1 1 * t.dims.getD 2 1

/-- Whether a tensor holds codes. -/
def TRec.codes (t : TRec) : Bool := t.fmt == 12 || t.fmt == 13

/-- Bytes from a row to the next: codes of an output are packed (R268). -/
def TRec.stride (t : TRec) : Nat := if t.cls = 1 ∧ t.codes then t.n * (fmtBits t.fmt / 8) else t.rowBytes

/-- An operation record (Table 9.3). -/
structure OpRec where
  kind : Nat
  sr : Bool
  splitMax : Nat
  trans : Bool
  addRow : Bool
  in0 : Nat
  in1 : Nat
  in2 : Nat
  out : Nat
  check : Nat
  seed : Nat
  tileRows : Nat
  tileCols : Nat
  cost : Nat
  paramAt : Nat
  paramLen : Nat
  scale : Nat
  fp : Nat
  shift : Nat
  /-- ROUND is 0 or 1. -/
  roundOk : Bool
deriving DecidableEq, Repr

/-- A plausibility record (Table 8.8). -/
structure ChkRec where
  enable : Nat
  action : Nat
  nanMax : Nat
  magMax : Nat
  normMin : Nat
  normMax : Nat
  codeLimit : Nat
  satMax : Nat
deriving DecidableEq, Repr

/-- A program image (Table 9.1). -/
abbrev Image := Bytes

/-- A field of the header. -/
def imgHdr (b : Image) (off n : Nat) : Nat := fld b off n

/-- Operations of an image. -/
def imgOps (b : Image) : Nat := fld b 2 2

/-- Tensors of an image. -/
def imgTensors (b : Image) : Nat := fld b 4 2

/-- Tensor record `i`. -/
def imgTensor (b : Image) (i : Nat) : TRec :=
  let o := fld b 24 4 + 32 * i
  { cls := fld b o 1, fmt := fld b (o + 1) 1, rank := fld b (o + 2) 1, view := fld b (o + 3) 1,
    dims := (List.range 4).map (fun k => fld b (o + 4 + 4 * k) 4), rowBytes := fld b (o + 20) 4, addr := fld b (o + 24) 8 }

/-- Operation record `i`. -/
def imgOp (b : Image) (i : Nat) : OpRec :=
  let o := fld b 28 4 + 64 * i
  { kind := fld b o 1, sr := fld b (o + 1) 1 == 1, splitMax := fld b (o + 2) 1, trans := bit (fld b (o + 3) 1) 0,
    addRow := bit (fld b (o + 3) 1) 1, in0 := fld b (o + 4) 2, in1 := fld b (o + 6) 2, in2 := fld b (o + 8) 2,
    out := fld b (o + 10) 2, check := fld b (o + 12) 2, seed := fld b (o + 16) 8, tileRows := fld b (o + 24) 4,
    tileCols := fld b (o + 28) 4, cost := fld b (o + 32) 4, paramAt := fld b (o + 36) 4, paramLen := fld b (o + 40) 4,
    scale := fld b (o + 44) 4, fp := fld b (o + 48) 4, shift := fld b (o + 52) 1, roundOk := decide (fld b (o + 1) 1 ≤ 1) }

/-- Plausibility record `i`. -/
def imgCheck (b : Image) (i : Nat) : ChkRec :=
  let o := fld b 32 4 + 32 * i
  { enable := fld b o 1 % 32, action := fld b (o + 1) 1, nanMax := fld b (o + 4) 4, magMax := fld b (o + 8) 4, normMin := fld b (o + 12) 4,
    normMax := fld b (o + 16) 4, codeLimit := fld b (o + 20) 4, satMax := fld b (o + 24) 4 }

/-- The parameter record of an operation. -/
def imgParam (b : Image) (o : OpRec) : Bytes := sub b (fld b 36 4 + o.paramAt) o.paramLen

/-- Indices of the tensors of a class. -/
def imgClass (b : Image) (c : Nat) : List Nat := (List.range (imgTensors b)).filter (fun i => (imgTensor b i).cls == c)

/-! ## Shapes -/

/-- Convolution parameters (Table 9.5). -/
structure Conv where
  k : List Nat
  st : List Nat
  pd : List Nat
deriving DecidableEq, Repr

/-- The convolution parameters of 16 bytes. -/
def Conv.ofBytes (p : Bytes) : Conv :=
  { k := (List.range 3).map (fun i => fld p i 1), st := (List.range 3).map (fun i => fld p (3 + i) 1),
    pd := (List.range 3).map (fun i => fld p (6 + i) 1) }

/-- Output size along axis `a` (Table 9.5). -/
def Conv.outSize (c : Conv) (d : List Nat) (a : Nat) : Nat :=
  (d.getD a 1 + 2 * c.pd.getD a 0 - c.k.getD a 1) / c.st.getD a 1 + 1

/-- The logical output of an operation on one unit: rows, columns, and rows of one matrix. -/
structure Shape where
  rows : Nat
  cols : Nat
  blk : Nat
  /-- Length of the reduction dimension, 0 without one. -/
  k : Nat
deriving DecidableEq, Repr

/-- The shape that an operation's inputs give it. -/
def opShape (b : Image) (o : OpRec) : Shape :=
  let x := imgTensor b o.in0
  let w := imgTensor b o.in1
  let y := imgTensor b o.out
  match o.kind with
  | 1 => { rows := x.rows, cols := w.rows, blk := x.rows, k := x.n }
  | 2 => { rows := x.rows, cols := w.dims.getD 2 1, blk := x.dims.getD 2 1, k := x.n }
  | 3 =>
    let c := Conv.ofBytes (imgParam b o)
    let r := c.outSize x.dims 0 * c.outSize x.dims 1 * c.outSize x.dims 2
    { rows := r, cols := w.rows, blk := r, k := c.k.getD 0 1 * c.k.getD 1 1 * c.k.getD 2 1 * x.n }
  | 9 => { rows := x.rows, cols := fld (imgParam b o) 0 4, blk := x.rows, k := 0 }
  | _ => { rows := y.rows, cols := y.n, blk := y.rows, k := 0 }

/-- Codes that a row of a vector quantisation gives. -/
def vqGroups (b : Image) (o : OpRec) : Nat := fld (imgParam b o) 4 1

/-- Whether a kind multiplies matrices. -/
def isMatmul (k : Nat) : Bool := k == 1 || k == 2 || k == 3

/-- Whether a kind only moves rows. -/
def isMove (k : Nat) : Bool := k == 11 || k == 12 || k == 13

/-- The format into which samples of the left operand convert, and those of the right operand (R236). -/
def pairFmt (a b : Nat) : Nat × Nat := (if isSample a then b else a, if isSample b then a else b)

/-- Whether an operand pair is in Table 8.1, samples taken as the other operand's format. -/
def pairOk (a b : Nat) : Bool :=
  let p := pairFmt a b
  (isMx p.1 && isMx p.2 || (p.1 == 5 && p.2 == 5) || (p.1 == 6 && p.2 == 6)) && !(p.1 == 6 && (a == 7 || b == 7))

/-- Whether the output format matches an operation and its rounding. -/
def outOk (o : OpRec) (x y : TRec) (pairInt : Bool) : Bool :=
  let num := isMx y.fmt || y.fmt == 5 || y.fmt == 7
  let sr := !(o.sr && y.fmt == 7)
  if isMatmul o.kind then (num || (y.fmt == 6 && pairInt)) && sr
  else if o.kind = 9 then y.codes && !o.sr
  else if isMove o.kind then !o.sr
  else if o.kind = 10 then !o.sr || (num && sr)
  else (num && sr) && decide (x.fmt ≤ 7)

/-- Whether the tiles of an output with scales hold whole blocks along its rows. -/
def blocksOk (o : OpRec) (y : TRec) (h : Shape) : Bool :=
  !(isMx y.fmt) ||
    (if o.trans && isMatmul o.kind then o.tileRows % h.blk == 0 || (o.tileRows % 32 == 0 && h.blk % 32 == 0)
     else o.tileCols % 32 == 0 || decide (h.cols ≤ o.tileCols))

/-- Whether two tensors have the same rows and row length. -/
def sameShape (a b : TRec) : Bool := a.rows == b.rows && a.n == b.n

/-- Step 3 of R249 on an operation whose tensor indices exist. -/
def opShapesOk (b : Image) (o : OpRec) : Bool :=
  let x := imgTensor b o.in0
  let w := imgTensor b o.in1
  let z := imgTensor b o.in2
  let y := imgTensor b o.out
  let h := opShape b o
  let p := imgParam b o
  let none1 := o.in1 == 0xFFFF
  let none2 := o.in2 == 0xFFFF
  let has1 := !none1
  let outRows := if o.trans then h.rows / h.blk * h.cols else h.rows
  let outN := if o.trans then h.blk else h.cols
  let pairInt := (pairFmt x.fmt w.fmt).1 == 6
  let whole := decide (h.cols ≤ o.tileCols)
  let matmul := has1 && pairOk x.fmt w.fmt && (!pairInt || decide (up32 h.k ≤ 131040)) && y.rows == outRows && y.n == outN &&
    (none2 || ((z.fmt == 7 || z.fmt == 5) && z.n == h.cols && z.rows == if o.addRow then h.rows / h.blk else h.rows))
  outOk o x y pairInt && blocksOk o y h &&
  (match o.kind with
   | 1 => matmul && x.n == w.n && o.paramLen == 0
   | 2 => matmul && x.n == w.n && (w.rows == w.dims.getD 2 1 || w.rows / w.dims.getD 2 1 == x.rows / x.dims.getD 2 1) && o.paramLen == 0
   | 3 =>
     let c := Conv.ofBytes p
     o.paramLen == 16 && (c.k ++ c.st).all (fun v => decide (1 ≤ v) && decide (v ≤ 32)) &&
       (List.range 3).all (fun a => decide (c.k.getD a 1 ≤ x.dims.getD a 1 + 2 * c.pd.getD a 0)) && matmul && w.n == h.k
   | 4 => has1 && !none2 && w.n == x.n && w.rows == 1 && z.n == x.n && z.rows == 1 && sameShape x y && decide (x.n ≤ 16384) && whole
   | 5 => has1 && none2 && w.n == x.n && w.rows == 1 && sameShape x y && decide (x.n ≤ 16384) && whole
   | 6 => none1 && none2 && sameShape x y
   | 7 => none1 && none2 && sameShape x y
   | 8 => none2 && (none1 || sameShape x w) && sameShape x y && decide (x.n ≤ 16384) && whole
   | 9 =>
     let e := fld p 0 4
     let g := fld p 4 1
     o.paramLen == 8 && decide (1 ≤ e) && decide (e ≤ if y.fmt = 12 then 65535 else 65536) && decide (1 ≤ g) && decide (g ≤ 8) &&
       has1 && none2 && x.n % g == 0 && w.n == x.n / g && w.rows == g * e && y.n == g && y.rows == x.rows && pairOk x.fmt w.fmt &&
       ((pairFmt x.fmt w.fmt).1 != 6 || decide (up32 w.n ≤ 131040))
   | 10 =>
     let k := fld p 0 4
     let ix := fld p 4 1
     decide (5 ≤ o.paramLen) && decide (1 ≤ k) && decide (k ≤ 256) && decide (k ≤ x.n) && decide (ix ≤ 1) && none1 && none2 && y.n == k &&
       y.rows == x.rows && decide (x.n ≤ 16384) && decide (x.fmt ≤ 7) && whole &&
       (if ix = 1 then y.fmt == 11 && !o.sr else isMx y.fmt || y.fmt == 5 || y.fmt == 7)
   | 11 => has1 && none2 && (w.fmt == 11 || w.codes) && y.fmt == x.fmt && y.n == x.n && y.rows == w.rows * w.n
   | 12 => has1 && none2 && (w.fmt == 11 || w.codes) && y.fmt == x.fmt && y.n == x.n && x.rows == w.rows * w.n
   | 13 =>
     none1 && none2 && y.fmt == x.fmt && x.rows * x.n == y.rows * y.n && (x.n == y.n || !(isMx x.fmt) || y.n % 32 == 0 && x.n % 32 == 0)
   | _ => false)

/-- Step 3 of R249 on an operation. -/
def opOk (b : Image) (o : OpRec) : Bool :=
  let idx := fun (i : Nat) => decide (i < imgTensors b)
  let y := imgTensor b o.out
  idx o.in0 && (o.in1 == 0xFFFF || idx o.in1) && (o.in2 == 0xFFFF || idx o.in2) && idx o.out && (y.cls == 1 || y.cls == 4) &&
    (o.check == 0xFFFF || decide (o.check < fld b 6 2)) && [1, 2, 4, 8, 16].contains o.splitMax && decide (o.cost ≤ 65000) &&
    decide (1 ≤ o.tileRows) && decide (1 ≤ o.tileCols) && decide (fld b 36 4 + o.paramAt + o.paramLen ≤ fld b 8 4) && o.roundOk &&
    opShapesOk b o

/-- A tensor record is within Table 9.2. -/
def tensorOk (s : State) (fn : Nat) (t : TRec) : Bool :=
  decide (t.cls ≤ 4) && decide (t.fmt ≤ 13) && decide (1 ≤ t.rank) && decide (t.rank ≤ 4) && decide (t.view ≤ 6) &&
    (t.view == 0 || t.cls == 0) && t.dims.all (fun d => decide (1 ≤ d)) && (t.dims.take (4 - t.rank)).all (fun d => d == 1) &&
    t.rowBytes == rowLen t.fmt t.n &&
    (if t.cls = 2 ∨ t.cls = 3 then
      s.inStaging fn ((s.stagingRange fn).1 + t.addr) (t.rows * t.rowBytes) else t.addr == 0)

/-- Whether the header's counts and offsets lay the records out inside the image: the first half of step 2 of R249. -/
def imgLaid (b : Image) : Bool :=
  let len := fld b 8 4
  let inside := fun (off n : Nat) => off % 64 == 0 && decide (64 ≤ off) && decide (off + n ≤ len)
  let ops := imgOps b
  let ts := imgTensors b
  let cs := fld b 6 2
  decide (64 ≤ len) && fld b 0 2 == 1 && decide (1 ≤ ops) && decide (ops ≤ 1024) && decide (1 ≤ ts) && decide (ts ≤ 256) && decide (cs ≤ 1024) &&
    fld b 16 8 % 4096 == 0 && inside (fld b 24 4) (32 * ts) && inside (fld b 28 4) (64 * ops) && inside (fld b 32 4) (32 * cs) &&
    inside (fld b 36 4) 0 && decide (1 ≤ fld b 40 2) && decide (fld b 40 2 ≤ 16) && decide (1 ≤ fld b 42 2) && decide (fld b 42 2 ≤ 16)

/-- Step 2 of R249. -/
def imgOk (s : State) (fn : Nat) (b : Image) : Bool :=
  imgLaid b && (imgClass b 0).length == fld b 40 2 && (imgClass b 1).length == fld b 42 2 &&
    (List.range (imgTensors b)).all (fun i => tensorOk s fn (imgTensor b i)) &&
    (List.range (fld b 6 2)).all (fun i => decide ((imgCheck b i).action ≤ 1))

/-- The reserved fields of an operation record and of its parameter record (Tables 9.3, 9.5, 9.6), by their offsets in the image. -/
def opReserved (b : Image) (i : Nat) : List (Nat × Bool) :=
  let at_ := fld b 28 4 + 64 * i
  let o := imgOp b i
  let par := fld b 36 4 + o.paramAt
  [(at_ + 3, decide (fld b (at_ + 3) 1 < 4)), (at_ + 14, fld b (at_ + 14) 2 == 0), (at_ + 53, fld b (at_ + 53) 11 == 0)] ++
    (if o.kind = 3 ∧ o.paramLen = 16 then [(par + 9, fld b (par + 9) 7 == 0)]
     else if o.kind = 9 ∧ o.paramLen = 8 then [(par + 5, fld b (par + 5) 3 == 0)] else [])

/-- The reserved fields of a plausibility record (Table 8.8). -/
def checkReserved (b : Image) (i : Nat) : List (Nat × Bool) :=
  let at_ := fld b 32 4 + 32 * i
  [(at_, decide (fld b at_ 1 < 32)), (at_ + 2, fld b (at_ + 2) 2 == 0), (at_ + 28, fld b (at_ + 28) 4 == 0)]

/-- Whether the header places the operation and check records inside the image. -/
def imgPlaced (b : Image) : Bool :=
  let len := fld b 8 4
  decide (64 ≤ len) && decide (fld b 28 4 + 64 * imgOps b ≤ len) && decide (fld b 32 4 + 32 * fld b 6 2 ≤ len) && decide (imgOps b ≤ 1024) &&
    decide (fld b 6 2 ≤ 1024)

/-- The reserved fields of an image (R12); its records are looked at wherever the header places them inside the image (log entry 71). -/
def imgReserved (b : Image) : List (Nat × Bool) :=
  (44, fld b 44 16 == 0) ::
    (if imgPlaced b then (List.range (imgOps b)).flatMap (opReserved b) ++ (List.range (fld b 6 2)).flatMap (checkReserved b) else [])

/-- The image's CRC with its own field taken as 0 (R246). -/
def imgCrc (b : Image) : Nat := let l := fld b 8 4; crc32c (sub b 0 60 ++ zeros 4 ++ sub b 64 (l - 64))

/-- Programs that a function may hold (R250). -/
def State.progQuota (s : State) (fn : Nat) : Nat := if fn = 0 then 64 else min 16 (agetD s.host.vfs fn {}).programs

/-- The check of a load that fails first: status and DETAIL (R249). -/
def State.loadStop (s : State) (fn : Nat) (p : Bytes) : Option (Nat × Nat) :=
  let len := fld p 8 4
  if p.length < len ∨ 1048576 < len then some (0x0011, 0xFFFF)
  else if imgCrc p ≠ fld p 60 4 then some (sIntegrity, 0)
  else if !(imgOk s fn p) then some (0x0011, 0xFFFF)
  else match (List.range (imgOps p)).find? (fun i => !opOk p (imgOp p i)) with
    | some i => some (0x0011, i)
    | none =>
      let used := (s.tap.progs.map (fun e => fld e.2.image 12 4)).sum
      let store := (s.tap.progs.map (fun e => e.2.image.length)).sum
      if 1280 < used + fld p 12 4 ∨ 256 ≤ s.tap.progs.length ∨
          s.progQuota fn ≤ (s.tap.progs.filter (fun e => e.2.owner == fn)).length ∨ 67108864 < store + len then some (sNoRes, 0)
      else none

/-- ‖c‖² of the codewords of a codebook that is held or streamed (R248): FP32 in the order of R231. -/
def codeNorm (int : Bool) (l : List Val) : Nat := if int then f32 (.ofInt (signed 32 (dotInt l l))) else dotF32 (.ofInt 1) 0 l l

end Sys2Proof.Machine
end

