-- ==== Sys2Proof/Machine/TapEval.lean ====
section
/-!
DEFINITION. What a slice computes (R217 to R243, R248, R260 to R263): tensor rows, tiles and shares, combines, quantisation
and plausibility outcomes.
-/
namespace Sys2Proof.Machine

open Sys2Proof

/-! ## Records of a unit (R255, Tables 7.7 and 7.8) -/

/-- GDDR7 address and bytes of a record that is visible. -/
def State.recAt (s : State) (stream seq : Nat) : Option (Nat × Nat) :=
  match s.stream stream with
  | none => none
  | some x => (x.recs.find? (fun r => !r.pad && r.seq == seq)).map (fun r => (x.outBase + r.off, fld (s.mem (x.outBase + r.off + 16) 4) 0 4))

/-- A field of a record. -/
def State.recFld (s : State) (a off n : Nat) : Nat := fld (s.mem (a + off) n) 0 n

/-- Samples across and down of the chroma planes of a pixel record. -/
def State.recChroma (s : State) (a : Nat) : Nat × Nat :=
  let w := s.recFld a 72 2
  let h := s.recFld a 74 2
  match s.recFld a 67 1 with
  | 0 => (0, 0) | 1 => ((w + 1) / 2, (h + 1) / 2) | _ => ((w + 1) / 2, h)

/-- KIND of the records that a view reads (Table 9.2). -/
def viewKind (v : Nat) : Nat :=
  match v with
  | 1 => 1 | 2 => 1 | 3 => 2 | 4 => 2 | 5 => 2 | _ => 3

/-- Coefficient slots of a cell (R205). -/
def State.recSlots (s : State) (a : Nat) : Nat := if s.recFld a 67 1 = 2 then 512 else 384

/-- Sizes that a view of a record has, outermost first, and its element format; an audio payload has one size. -/
def State.viewShape (s : State) (a len view : Nat) : List Nat × Nat :=
  let px := if s.recFld a 68 1 = 8 then 8 else 9
  let cw := s.recFld a 76 2
  let ch := s.recFld a 78 2
  match view with
  | 1 => ([s.recFld a 74 2, s.recFld a 72 2], px)
  | 2 => let c := s.recChroma a; ([c.2, c.1, 2], px)
  | 3 => ([ch, cw, s.recSlots a], 10)
  | 4 => ([ch, cw, 128], 10)
  | 5 => ([ch, cw, 16], 8)
  | _ =>
    let f := match s.recFld a 65 1 with
      | 0 => 10 | 3 => 5 | _ => 7
    ([(len - 136) / (fmtBits f / 8)], f)

/-- Element `e` of a view of a record, as its bits. -/
def State.viewElem (s : State) (a view fmt e : Nat) : Nat :=
  let sz := fmtBits fmt / 8
  let plane := fun (k : Nat) => s.recFld a (96 + 4 * k) 4
  let at_ :=
    match view with
    | 1 => let w := s.recFld a 72 2; plane 0 + e / w * s.recFld a 108 4 + e % w * sz
    | 2 => let w := (s.recChroma a).1; plane (1 + e % 2) + e / 2 / w * s.recFld a 108 4 + e / 2 % w * sz
    | 3 => plane 2 + e * sz
    | 4 => plane 1 + e * sz
    | 5 => plane 0 + e * sz
    | _ => 128 + e * sz
  s.recFld a at_ sz

/-! ## Rows of a tensor -/

/-- What the evaluation of an operation of a run reads. -/
structure Eval where
  run : TapRun
  prog : Prog
  op : OpRec
  shape : Shape
  /-- Units of the run; 1 for a TAP_RUN. -/
  units : Nat
  /-- Records of a unit. -/
  group : Nat
  seed : Nat
deriving DecidableEq, Repr

/-- Tensor `i` of the program. -/
def Eval.t (v : Eval) (i : Nat) : TRec := imgTensor v.prog.image i

/-- Row of a tensor that unit `u` sees as its row `m`: constants are shared by the units. -/
def Eval.row (v : Eval) (i u m : Nat) : Nat := let t := v.t i; if t.cls = 2 ∨ t.cls = 3 then m else u * t.rows + m

/-- GDDR7 address of a row of a tensor that lies in staging outside the run's scratch. -/
def State.rowAddr (s : State) (v : Eval) (i row : Nat) : Nat :=
  let t := v.t i
  if t.cls = 3 then (s.stagingRange v.prog.owner).1 + t.addr + row * t.stride
  else agetD v.run.binds i 0 + (if t.cls = 1 then 64 else 0) + row * t.stride

/-- Whether a tensor of a run is kept in the run's own record: transients, and the outputs of queue runs until their
blocks are complete (log entry 21). -/
def Eval.inTemps (v : Eval) (i : Nat) : Bool := let t := v.t i; t.cls == 4 || (t.cls == 1 && v.run.queue.isSome)

/-- The bytes of a row of a tensor. Bytes of scratch that no operation has written are not stated (log entry 3). -/
def State.tRow (s : State) (v : Eval) (i row : Nat) : Bytes :=
  let t := v.t i
  if t.cls = 2 then sub (agetD v.prog.res i []) (row * t.stride) t.stride
  else if v.inTemps i then
    let b := (agetD v.run.temps i []).drop (row * t.stride)
    b.take t.stride ++ s.freeBytes (t.stride - b.length)
  else if t.cls = 0 ∧ v.run.queue.isSome then
    (List.range t.n).flatMap (fun j =>
      let e := row * t.n + j
      let per := t.rows * t.n / v.group
      let k := v.run.units.getD (e / per) (0, 0)
      match s.recAt k.1 k.2 with
      | some (a, _) => leBytes (fmtBits t.fmt / 8) (s.viewElem a t.view t.fmt (e % per))
      | none => s.freeBytes (fmtBits t.fmt / 8))
  else s.mem (s.rowAddr v i row) t.stride

/-- The values of a row of a tensor. -/
def State.tVals (s : State) (v : Eval) (i row : Nat) : List Val := rowVals (v.t i).fmt (v.t i).n (s.tRow v i row)

/-- Element `e` of a tensor of one unit, as an index. -/
def State.tIndex (s : State) (v : Eval) (i u e : Nat) : Nat :=
  let t := v.t i
  let sz := fmtBits t.fmt / 8
  fld (s.tRow v i (v.row i u (e / t.n))) (e % t.n * sz) sz

/-! ## Tiles (R260) -/

/-- Column tiles. -/
def Eval.nc (v : Eval) : Nat := (v.shape.cols + v.op.tileCols - 1) / v.op.tileCols

/-- Row tiles. -/
def Eval.nr (v : Eval) : Nat := (v.units * v.shape.rows + v.op.tileRows - 1) / v.op.tileRows

/-- Whether the operation is a vector quantisation: its items are the entry ranges of a row tile. -/
def Eval.vq (v : Eval) : Bool := v.op.kind == 9

/-- Tiles as items name them: row tiles for a vector quantisation. -/
def Eval.tiles (v : Eval) : Nat := if v.vq then v.nr else v.nr * v.nc

/-- Rows of a tile. -/
def Eval.tileRow (v : Eval) (tile : Nat) : List Nat :=
  let t := if v.vq then tile else tile / v.nc
  List.range' (t * v.op.tileRows) (min v.op.tileRows (v.units * v.shape.rows - t * v.op.tileRows))

/-- Columns of a tile, or the entries of a range. -/
def Eval.tileCol (v : Eval) (c : Nat) : List Nat := List.range' (c * v.op.tileCols) (min v.op.tileCols (v.shape.cols - c * v.op.tileCols))

/-- Blocks of 32 along the reduction dimension, 0 without one. -/
def Eval.kBlocks (v : Eval) : Nat := up32 v.shape.k / 32

/-! ## Matrix products -/

/-- An operand row before conversion; `none` marks the zero padding of a convolution. -/
def State.aRaw (s : State) (v : Eval) (r : Nat) : List (Option Val) :=
  let u := r / v.shape.rows
  let m := r % v.shape.rows
  if v.op.kind = 3 then
    let x := v.t v.op.in0
    let c := Conv.ofBytes (imgParam v.prog.image v.op)
    let d := x.dims
    let ow := c.outSize d 2
    let oh := c.outSize d 1
    let at_ := fun (a o k : Nat) =>
      let p := o * c.st.getD a 1 + k
      let q := c.pd.getD a 0
      if q ≤ p ∧ p - q < d.getD a 1 then some (p - q) else none
    (List.range (c.k.getD 0 1)).flatMap (fun kt => (List.range (c.k.getD 1 1)).flatMap (fun kh => (List.range (c.k.getD 2 1)).flatMap (fun kw =>
      match at_ 0 (m / ow / oh) kt, at_ 1 (m / ow % oh) kh, at_ 2 (m % ow) kw with
      | some t, some y, some xx => (s.tVals v v.op.in0 (v.row v.op.in0 u ((t * d.getD 1 1 + y) * d.getD 2 1 + xx))).map some
      | _, _, _ => List.replicate x.n none)))
  else (s.tVals v v.op.in0 (v.row v.op.in0 u m)).map some

/-- A row padded with zero elements to whole blocks (R224). -/
def padVals (l : List Val) : List Val := l ++ List.replicate (up32 l.length - l.length) Val.zero

/-- A converted left-operand row, and how many values saturated in its conversion; padding of a convolution stays zero. -/
def State.aRow (s : State) (v : Eval) (r : Nat) : List Val × Nat :=
  let raw := s.aRaw v r
  let p := pairFmt (v.t v.op.in0).fmt (v.t v.op.in1).fmt
  let q := convertRow (v.t v.op.in0).fmt p.1 v.op.shift (raw.map (fun x => x.getD Val.zero))
  (padVals ((raw.zip q.1).map (fun e => if e.1.isSome then e.2 else Val.zero)), q.2)

/-- A converted right-operand row for column `c` of logical row `r`. -/
def State.bRow (s : State) (v : Eval) (r c : Nat) : List Val × Nat :=
  let w := v.t v.op.in1
  let u := r / v.shape.rows
  let g := if v.op.kind = 2 ∧ w.rows ≠ v.shape.cols then r % v.shape.rows / v.shape.blk else 0
  let p := pairFmt (v.t v.op.in0).fmt w.fmt
  let q := convertRow w.fmt p.2 v.op.shift (s.tVals v v.op.in1 (v.row v.op.in1 u (g * v.shape.cols + c)))
  (padVals q.1, q.2)

/-- Whether an operation's products are integers. -/
def Eval.int (v : Eval) : Bool := (pairFmt (v.t v.op.in0).fmt (v.t v.op.in1).fmt).1 == 6

/-- The part of a row that a share covers. -/
def sharePart (blocks shares share : Nat) (l : List Val) : List Val :=
  let n := blocks / shares
  (l.drop (32 * n * share)).take (32 * n)

/-- The addend of an output element in FP32, +0.0 without one (R231, Table 9.4). -/
def State.mmAddend (s : State) (v : Eval) (r c : Nat) : Nat :=
  if v.op.in2 = 0xFFFF then 0
  else
    let m := r % v.shape.rows
    let row := if v.op.addRow then m / v.shape.blk else m
    f32 ((s.tVals v v.op.in2 (v.row v.op.in2 (r / v.shape.rows) row)).getD c Val.zero)

/-- The accumulators of a share of a tile (R231): 32 bits each. That of the share whose k0 is 0 starts at the addend, any other at +0.0
(R232); an integer accumulator starts at 0. -/
def State.mmShare (s : State) (v : Eval) (it : TapItem) : List Nat :=
  let n := max 1 it.shares
  (v.tileRow it.tile).flatMap (fun r =>
    let a := sharePart v.kBlocks n it.share (s.aRow v r).1
    (v.tileCol (it.tile % v.nc)).map (fun c =>
      let b := sharePart v.kBlocks n it.share (s.bRow v r c).1
      if v.int then dotInt a b else dotF32 (ofF32 v.op.fp) (if it.share = 0 then s.mmAddend v r c else 0) a b))

/-- Combines partial accumulators in ascending order of k0 (R232). -/
def mmCombine (int : Bool) (parts : List (List Nat)) : List Nat :=
  match parts with
  | [] => []
  | p :: t => t.foldl (fun acc q => (acc.zip q).map (fun e => if int then (e.1 + e.2) % 2 ^ 32 else fAdd e.1 e.2)) p

/-- The FP32 results of a tile from its accumulators: an FP32 accumulator is the result; an INT32 sum becomes FP32 at output (Table 8.1),
and takes ALPHA and then the addend there (Table 9.4, R263, log entry 51). -/
def State.mmFinish (s : State) (v : Eval) (tile : Nat) (acc : List Nat) : List Nat :=
  if v.int then
    let cols := v.tileCol (tile % v.nc)
    let ix := (v.tileRow tile).flatMap (fun r => cols.map (fun c => (r, c)))
    (acc.zip ix).map (fun e =>
      let x := fMul v.op.fp (f32 (.ofInt (signed 32 e.1)))
      if v.op.in2 = 0xFFFF then x else fAdd x (s.mmAddend v e.2.1 e.2.2))
  else acc

/-! ## Row operations -/

/-- FP32 values of a row of an input. -/
def State.fRow (s : State) (v : Eval) (i u m : Nat) : List Nat := (s.tVals v i (v.row i u m)).map f32

/-- Layer norm of a row: the mean in a first pass, the squared deviations in a second (R233). -/
def layerNorm (eps : Nat) (x g b : List Nat) : List Nat :=
  let mean := fDivN (fSum x) x.length
  let d := x.map (fun a => fSub a mean)
  let r := fRsqrt (fAdd (fDivN (fSum (d.map (fun a => fMul a a))) x.length) eps)
  (List.zip d (List.zip g b)).map (fun e => fAdd (fMul (fMul e.1 r) e.2.1) e.2.2)

/-- RMS norm of a row. -/
def rmsNorm (eps : Nat) (x g : List Nat) : List Nat :=
  let r := fRsqrt (fAdd (fDivN (fSum (x.map (fun a => fMul a a))) x.length) eps)
  (x.zip g).map (fun e => fMul (fMul e.1 r) e.2)

/-- The larger of two FP32 values; a NaN never is. -/
def fMax (a b : Nat) : Nat := if (ofF32 a).isNan || (ofF32 a).lt (ofF32 b) then b else a

/-- Softmax of a row (R234). -/
def softmaxRow (x : List Nat) : List Nat :=
  let m := x.foldl fMax (f32 (.inf true))
  let e := x.map (fun a => fExp (fSub a m))
  let r := fRecip (fSum e)
  e.map (fun a => fMul a r)

/-- Whether a value ranks before another in top-k: larger first, NaN below every number (R235). -/
def topBefore (a b : Nat × Nat) : Bool :=
  let x := ofF32 a.1
  let y := ofF32 b.1
  if x.isNan && y.isNan then decide (a.2 ≤ b.2)
  else if x.isNan then false else if y.isNan then true
  else y.lt x || (!(x.lt y) && decide (a.2 ≤ b.2))

/-- The first k of a row in the order of top-k, with their indices. -/
def topK (k : Nat) (x : List Nat) : List (Nat × Nat) := ((x.zip (List.range x.length)).mergeSort topBefore).take k

/-! ## Vector quantisation (R233, R235) -/

/-- Whether a distance is smaller than the best so far; a NaN never wins. -/
def vqBetter (d best : Nat) : Bool := !(ofF32 d).isNan && ((ofF32 best).isNan || (ofF32 d).lt (ofF32 best))

/-- The all-ones code of a format. -/
def allOnes (fmt : Nat) : Nat := 2 ^ fmtBits fmt - 1

/-- A sub-vector of a row, converted, and how many of its values saturated. -/
def State.vqSub (s : State) (v : Eval) (r g : Nat) : List Val × Nat :=
  let x := v.t v.op.in0
  let w := v.t v.op.in1
  let l := (s.tVals v v.op.in0 (v.row v.op.in0 (r / v.shape.rows) (r % v.shape.rows))).drop (g * w.n)
  let q := convertRow x.fmt (pairFmt x.fmt w.fmt).1 v.op.shift (l.take w.n)
  (padVals q.1, q.2)

/-- A codeword of a group, converted, and how many of its values saturated. -/
def State.vqWord (s : State) (v : Eval) (r g e : Nat) : List Val × Nat :=
  let x := v.t v.op.in0
  let w := v.t v.op.in1
  let q := convertRow w.fmt (pairFmt x.fmt w.fmt).2 v.op.shift (s.tVals v v.op.in1 (v.row v.op.in1 (r / v.shape.rows) (g * v.shape.cols + e)))
  (padVals q.1, q.2)

/-- The winning (distance, index) pair of a group of a row over a range of entries. -/
def State.vqBest (s : State) (v : Eval) (r g : Nat) (entries : List Nat) : Nat × Nat :=
  let a := (s.vqSub v r g).1
  entries.foldl (fun best e =>
    let c := (s.vqWord v r g e).1
    let dot := if v.int then f32 (.ofInt (signed 32 (dotInt a c))) else dotF32 (.ofInt 1) 0 a c
    let norm := ((agetD v.prog.norms v.run.op []).getD (g * v.shape.cols + e) (codeNorm v.int c))
    let d := fSub norm (fMul (f32 (.ofInt 2)) dot)
    if vqBetter d best.1 then (d, e) else best) (f32 .nan, allOnes (v.t v.op.out).fmt)

/-- The partial pairs of a range of entries, flattened. -/
def State.vqShare (s : State) (v : Eval) (it : TapItem) : List Nat :=
  (v.tileRow it.tile).flatMap (fun r =>
    (List.range (vqGroups v.prog.image v.op)).flatMap (fun g =>
      let b := s.vqBest v r g (v.tileCol it.share)
      [b.1, b.2]))

/-- Chooses the winners in ascending order of entry range. -/
def vqCombine : List (List Nat) → List Nat
  | [] => []
  | p :: t =>
    let pairs := fun (l : List Nat) => (List.range (l.length / 2)).map (fun i => (l.getD (2 * i) 0, l.getD (2 * i + 1) 0))
    (t.foldl (fun acc q => (acc.zip (pairs q)).map (fun e => if vqBetter e.2.1 e.1.1 then e.2 else e.1)) (pairs p)).map (fun e => e.2)

/-! ## Saturation in input conversion (R236) -/

/-- The first right-operand row that a logical row reads. -/
def Eval.rightRow (v : Eval) (r : Nat) : Nat :=
  let g := if v.op.kind = 2 ∧ (v.t v.op.in1).rows ≠ v.shape.cols then r % v.shape.rows / v.shape.blk else 0
  v.row v.op.in1 (r / v.shape.rows) (g * v.shape.cols)

/-- Whether no logical row before `r` reads the right-operand rows of `r`. -/
def Eval.rightFirst (v : Eval) (r : Nat) : Bool := (List.range r).all (fun q => v.rightRow q != v.rightRow r)

/-- Values that saturated when the operands of an item were converted; each operand row counts once over the items (log entry 53). -/
def State.convSat (s : State) (v : Eval) (it : TapItem) : Nat :=
  if v.vq then
    let gs := List.range (vqGroups v.prog.image v.op)
    ((v.tileRow it.tile).map (fun r =>
      (gs.map (fun g =>
        (if it.share = 0 then (s.vqSub v r g).2 else 0) +
          (if v.rightFirst r then ((v.tileCol it.share).map (fun e => (s.vqWord v r g e).2)).sum else 0))).sum)).sum
  else if isMatmul v.op.kind && it.share == 0 then
    ((v.tileRow it.tile).map (fun r =>
      (if it.tile % v.nc = 0 then (s.aRow v r).2 else 0) +
        (if v.rightFirst r then ((v.tileCol (it.tile % v.nc)).map (fun c => (s.bRow v r c).2)).sum else 0))).sum
  else 0

/-! ## Cells of a row -/

/-- Pieces of a row that hold its elements [c0, c0 + n): offset and bytes each. -/
def cellSpans (f rowN c0 n : Nat) : List (Nat × Nat) :=
  if isMx f then
    (List.range' (c0 / 32) ((c0 + n + 31) / 32 - c0 / 32)).flatMap (fun k => let p := blockAt f rowN k; [(p.1, blockBytes f), (p.2, 1)])
  else [(c0 * (fmtBits f / 8), n * (fmtBits f / 8))]

/-- The bytes of those pieces. -/
def cellsTake (f rowN c0 n : Nat) (row : Bytes) : Bytes := (cellSpans f rowN c0 n).flatMap (fun p => sub row p.1 p.2)

/-- Bytes laid on those pieces of a row. -/
def cellsLay (row : Bytes) : List (Nat × Nat) → Bytes → Bytes
  | [], _ => row
  | p :: t, b => cellsLay (row.take p.1 ++ padTo p.2 (b.take p.2) ++ row.drop (p.1 + p.2)) t (b.drop p.2)

/-- The row with those elements changed, its padding zero (R223). -/
def cellsPutRow (f rowN c0 n : Nat) (row cells : Bytes) : Bytes :=
  let r := cellsLay row (cellSpans f rowN c0 n) cells
  if isMx f then
    let b := (rowN + 31) / 32
    let last := if b % 32 = 0 then 32 else b % 32
    let stop := (b - last) / 32 * segLen f 32 + last * blockBytes f + last
    r.take stop ++ zeros (row.length - stop)
  else let stop := rowN * (fmtBits f / 8); r.take stop ++ zeros (row.length - stop)

/-- The values of the cells of a piece of a row. -/
def cellsVals (f n : Nat) (cells : Bytes) : List Val :=
  if isMx f then
    (List.range n).map (fun i =>
      let o := i / 32 * (blockBytes f + 1)
      mxVal f (blockElem f (sub cells o (blockBytes f)) (i % 32)) (fld cells (o + blockBytes f) 1))
  else rowVals f n cells

/-! ## Moves -/

/-- The cells that a moving operation writes at columns [c0, c0 + n) of logical row `r`. A row that a scatter names in no
index keeps what it held; a gather's index outside its table gives bytes that are not stated (log entry 3). -/
def State.moveCells (s : State) (v : Eval) (r c0 n : Nat) : Bytes :=
  let u := r / v.shape.rows
  let m := r % v.shape.rows
  let x := v.t v.op.in0
  let y := v.t v.op.out
  let src := fun (row : Nat) => cellsTake x.fmt x.n c0 n (s.tRow v v.op.in0 (v.row v.op.in0 u row))
  match v.op.kind with
  | 11 =>
    let i := s.tIndex v v.op.in1 u m
    if i < x.rows then src i else s.freeBytes (cellsTake y.fmt y.n c0 n (zeros y.rowBytes)).length
  | 12 =>
    let hits := (List.range x.rows).filter (fun j => s.tIndex v v.op.in1 u j == m)
    match hits.getLast? with
    | some j => src j
    | none => cellsTake y.fmt y.n c0 n (s.tRow v v.op.out (v.row v.op.out u m))
  | _ =>
    if x.n = y.n then src m
    else
      let step := if isMx x.fmt then 32 else 1
      (List.range (n / step)).flatMap (fun k =>
        let e := m * y.n + c0 + k * step
        cellsTake x.fmt x.n (e % x.n) step (s.tRow v v.op.in0 (v.row v.op.in0 u (e / x.n))))

/-! ## The results of a slice -/

/-- The results of a whole tile: FP32 values row by row, indices, codes, or the cells that a move writes. -/
def State.evalTile (s : State) (v : Eval) (tile : Nat) : List Nat :=
  let cols := v.tileCol (tile % v.nc)
  let o := v.op
  let per := fun (f : Nat → Nat → List Nat) => (v.tileRow tile).flatMap (fun r => f (r / v.shape.rows) (r % v.shape.rows))
  let part := fun (l : List Nat) => (l.drop (cols.headD 0)).take cols.length
  match o.kind with
  | 4 => per (fun u m => part (layerNorm o.fp (s.fRow v o.in0 u m) (s.fRow v o.in1 u 0) (s.fRow v o.in2 u 0)))
  | 5 => per (fun u m => part (rmsNorm o.fp (s.fRow v o.in0 u m) (s.fRow v o.in1 u 0)))
  | 6 => per (fun u m => (part (s.fRow v o.in0 u m)).map fGelu)
  | 7 => per (fun u m => (part (s.fRow v o.in0 u m)).map fSilu)
  | 8 => per (fun u m =>
      let x := s.fRow v o.in0 u m
      part (softmaxRow (if o.in1 = 0xFFFF then x else (x.zip (s.fRow v o.in1 u m)).map (fun e => fAdd e.1 e.2))))
  | 10 =>
    let p := imgParam v.prog.image o
    per (fun u m => (topK (fld p 0 4) (s.fRow v o.in0 u m)).map (fun e => if fld p 4 1 = 1 then e.2 else e.1))
  | _ => (v.tileRow tile).flatMap (fun r => (s.moveCells v r (cols.headD 0) cols.length).map BitVec.toNat)

/-- The results of an item: partials of a share, the combine of the partials given, or a whole tile (R262, R263). -/
def State.evalItem (s : State) (v : Eval) (it : TapItem) (parts : List (List Nat)) : List Nat :=
  if v.vq then (if it.combine then vqCombine parts else s.vqShare v it)
  else if isMatmul v.op.kind then
    if it.combine then s.mmFinish v it.tile (mmCombine v.int parts)
    else if it.shares ≤ 1 then s.mmFinish v it.tile (s.mmShare v it) else s.mmShare v it
  else s.evalTile v it.tile

/-- Multiply-accumulates of an item (R270). -/
def Eval.macs (v : Eval) (it : TapItem) : Nat :=
  if it.combine then 0
  else if v.vq then (v.tileRow it.tile).length * vqGroups v.prog.image v.op * (v.tileCol it.share).length * (v.t v.op.in1).n
  else if isMatmul v.op.kind then
    let n := max 1 it.shares
    (v.tileRow it.tile).length * (v.tileCol (it.tile % v.nc)).length *
      (min v.shape.k (32 * (v.kBlocks / n) * (it.share + 1)) - 32 * (v.kBlocks / n) * it.share)
  else 0

/-! ## Where results go -/

/-- Part of a stored row: the row, its first element, and which results it holds. -/
structure Seg where
  row : Nat
  start : Nat
  idx : List Nat
deriving DecidableEq, Repr

/-- Elements of a stored row of the output. -/
def Eval.outN (v : Eval) : Nat := if v.vq then vqGroups v.prog.image v.op else if v.op.trans && isMatmul v.op.kind then v.shape.blk else v.shape.cols

/-- The parts of stored rows that a tile writes (R248 OUT_TRANS, R260). -/
def Eval.segs (v : Eval) (tile : Nat) : List Seg :=
  let rows := v.tileRow tile
  if v.vq then
    let g := vqGroups v.prog.image v.op
    (List.range rows.length).map (fun i => { row := rows.getD i 0, start := 0, idx := List.range' (i * g) g })
  else
    let cols := v.tileCol (tile % v.nc)
    if v.op.trans && isMatmul v.op.kind then
      let b := v.shape.blk
      let mats := (rows.map (fun r => r / b)).eraseDups
      mats.flatMap (fun q =>
        let mine := (List.range rows.length).filter (fun i => rows.getD i 0 / b == q)
        (List.range cols.length).map (fun j =>
          { row := q * v.shape.cols + cols.getD j 0, start := rows.getD (mine.headD 0) 0 % b, idx := mine.map (fun i => i * cols.length + j) }))
    else if isMove v.op.kind then
      let y := v.t v.op.out
      let per := (cellsTake y.fmt y.n (cols.headD 0) cols.length (zeros y.rowBytes)).length
      (List.range rows.length).map (fun i => { row := rows.getD i 0, start := cols.headD 0, idx := List.range' (i * per) per })
    else
      (List.range rows.length).map (fun i => { row := rows.getD i 0, start := cols.headD 0, idx := List.range' (i * cols.length) cols.length })

/-- The results of a part. -/
def Seg.pick (g : Seg) (res : List Nat) : List Nat := g.idx.map (fun i => res.getD i 0)

/-- The cells that a part of results becomes, and how many elements saturated (R225 to R229). -/
def Eval.quant (v : Eval) (g : Seg) (res : List Nat) : Bytes × Nat :=
  let y := v.t v.op.out
  let l := g.pick res
  if isMove v.op.kind then (l.map (BitVec.ofNat 8), 0)
  else if y.codes || y.fmt == 11 then (l.flatMap (leBytes (fmtBits y.fmt / 8)), 0)
  else
    let draw := fun (i : Nat) => if v.op.sr then some (srDraw v.seed v.run.invoc (g.row * v.outN + g.start + i)) else none
    let vals := (List.range l.length).map (fun i =>
      let x := ofF32 (l.getD i 0)
      ((if y.fmt = 6 then x.mul (ofF32 v.op.scale) else x), draw i))
    if isMx y.fmt then
      let q := (blocks32 (vals.length + 1) vals).map (mxBlock y.fmt)
      (q.flatMap (fun e => e.1 ++ leBytes 1 e.2.1), (q.map (fun e => e.2.2)).sum)
    else
      let q := vals.map (fun e => flatElem y.fmt e.1 e.2)
      (q.flatMap (fun e => leBytes (fmtBits y.fmt / 8) e.1), (q.filter (fun e => e.2)).length)

/-! ## Check outcomes (R238) -/

/-- FP32 values on which the checks of a part are judged. -/
def Eval.judged (v : Eval) (g : Seg) (res : List Nat) : List Nat :=
  let y := v.t v.op.out
  if y.codes || y.fmt == 11 then []
  else if isMove v.op.kind then
    let cells := (g.pick res).map (BitVec.ofNat 8)
    (cellsVals y.fmt (v.tileCol (g.start / v.op.tileCols)).length cells).map f32
  else g.pick res

/-- Code indices that a part writes. -/
def Eval.indices (v : Eval) (g : Seg) (res : List Nat) : List Nat :=
  let y := v.t v.op.out
  if !(y.codes || y.fmt == 11) then []
  else if isMove v.op.kind then
    let sz := fmtBits y.fmt / 8
    let cells := (g.pick res).map (BitVec.ofNat 8)
    (List.range (cells.length / sz)).map (fun i => fld cells (i * sz) sz)
  else g.pick res

/-- Sum of squares of FP32 values. -/
def sumSq (l : List Nat) : Nat := fSum (l.map (fun a => fMul a a))

/-- Norms of the rows that a slice completes: whole rows, and rows whose other parts have been committed (R238). -/
def Eval.norms (v : Eval) (rowSq : List (Nat × Nat × Nat)) (tile : Nat) (res : List Nat) : List Nat :=
  (v.segs tile).filterMap (fun g =>
    let l := v.judged g res
    if l.isEmpty then none
    else if l.length = v.outN then some (fSqrt (sumSq l))
    else match rowSq.find? (fun e => e.1 == g.row) with
      | some (_, q, n) => if n + l.length = v.outN then some (fSqrt (fAdd q (sumSq l))) else none
      | none => none)

/-- The larger of two FP32 magnitudes. -/
def fMaxMag (l : List Nat) : Nat := l.foldl (fun b a => if (ofF32 a).isFin && (ofF32 b).lt (ofF32 a).abs then f32 (ofF32 a).abs else b) 0

/-- Whether an FP32 value lies outside two bounds; a NaN does. -/
def fOutside (lo hi a : Nat) : Bool := (ofF32 a).isNan || (ofF32 a).lt (ofF32 lo) || (ofF32 hi).lt (ofF32 a)

/-- The outcome of one computation of a tile's final results under a plausibility record (R238). -/
def Eval.outcome (v : Eval) (rowSq : List (Nat × Nat × Nat)) (c : ChkRec) (core tile : Nat) (res : List Nat) : Outcome8 :=
  let gs := v.segs tile
  let vals := gs.flatMap (fun g => v.judged g res)
  let codes := gs.flatMap (fun g => v.indices g res)
  let norms := v.norms rowSq tile res
  let nan := (vals.filter (fun a => !(ofF32 a).isFin)).length
  let sat := (gs.map (fun g => (v.quant g res).2)).sum
  let mag := fMaxMag vals
  let limit := if c.codeLimit = 0 then (if v.vq then v.shape.cols else 2 ^ 32) else c.codeLimit
  let bad := [decide (c.nanMax < nan), (ofF32 c.magMax).lt (ofF32 mag), norms.any (fOutside c.normMin c.normMax), codes.any (fun i => decide (limit ≤ i)),
    decide (c.satMax < sat)]
  { core := core, nanInf := nan, sat := sat, mag := mag,
    failed := (List.range 5).foldl (fun a i => if bit c.enable i && bad.getD i false then a + 2 ^ i else a) 0,
    normLo := norms.foldl (fun a b => if (ofF32 b).lt (ofF32 a) then b else a) 0x7F800000,
    normHi := norms.foldl (fun a b => if (ofF32 a).lt (ofF32 b) then b else a) 0, codeHi := codes.foldl max 0, data := res }

/-- What two outcomes are compared by (R239): everything but the core and the results. -/
def Outcome8.key (o : Outcome8) : Outcome8 := { o with core := 0, data := [] }

end Sys2Proof.Machine
end

