-- ==== Sys2Proof/Machine/TapOps.lean ====
section
/-!
DEFINITION. Runs, tiles and slices on the core set (R239 to R270): partitioning, commits, decisions, run ends.
-/
namespace Sys2Proof.Machine

open Sys2Proof

/-! ## Clocks (R261, R345, R528) -/

/-- Clock in MHz of the Tapestry at a throttle step (Table 20.3). -/
def tapStepClock (n : Nat) : Nat :=
  match n with
  | 0 => 1600 | 1 => 1600 | 2 => 1400 | 3 => 1200 | 4 => 1000 | 5 => 800 | _ => 400

/-- Clock in MHz that a core's rung leaves it (Table 12.4). -/
def tapRungClock (n : Nat) : Nat :=
  1600 - 100 * rungSteps n

/-- Clock of a core in MHz. -/
def State.tapClock (s : State) (core : Nat) : Nat :=
  let c := min (tapStepClock s.pwr.step) (tapRungClock (s.rasUnit core).rung)
  if s.tap.powerW = 260 then c else min c (Config.capClock s.tap.powerW)

/-! ## Access -/

/-- PF BAR0 offset of TAP_EVT and of TAP_CHK_STAT. -/
def tapEvtOff : Nat := 0x00400020
def tapChkOff : Nat := 0x00500010

/-- What a command waits for: a run, or the end of a queue's runs. -/
def wRun : Nat := 40
def wUnbind : Nat := 41

/-- A program. -/
def State.tapProg (s : State) (h : Nat) : Prog := agetD s.tap.progs h {}

/-- A queue. -/
def State.tapQueue (s : State) (q : Nat) : TapQueue := agetD s.tap.queues q {}

/-- Changes a queue. -/
def State.upTapQueue (s : State) (q : Nat) (f : TapQueue → TapQueue) : State := s.upTap (fun t => { t with queues := aupd t.queues q f })

/-- A run. -/
def State.tapRun (s : State) (id : Nat) : Option TapRun := s.tap.runs.find? (fun r => r.id == id)

/-- Changes a run. -/
def State.upRun (s : State) (id : Nat) (f : TapRun → TapRun) : State :=
  s.upTap (fun t => { t with runs := lupd t.runs (fun r => r.id == id) f })

/-- Records of a unit of a run. -/
def State.runGroup (s : State) (r : TapRun) : Nat :=
  match r.queue with
  | some q => (s.tapQueue q).group
  | none => 1

/-- Units of a run. -/
def State.runUnits (s : State) (r : TapRun) : Nat := if r.queue.isSome then r.units.length / s.runGroup r else 1

/-- What the evaluation of operation `r.op` of a run reads. -/
def State.tapEvalOf (s : State) (r : TapRun) : Eval :=
  let p := s.tapProg r.prog
  let o := imgOp p.image r.op
  { run := r, prog := p, op := o, shape := opShape p.image o, units := s.runUnits r, group := s.runGroup r, seed := agetD r.seedUsed r.op o.seed }

/-- The operation in progress. -/
def State.tapEval (s : State) : Option Eval :=
  match s.tap.cur with
  | none => none
  | some id => (s.tapRun id).map s.tapEvalOf

/-- Cores that take new slices: those in service without a test due (R264). -/
def State.tapCores (s : State) : List Nat := s.tap.inSet.filter (fun c => !s.tap.testDue.contains c)

/-- Adds a core to an ascending list. -/
def insCore (l : List Nat) (c : Nat) : List Nat := l.filter (fun x => decide (x < c)) ++ [c] ++ l.filter (fun x => decide (c < x))

/-! ## Partitioning (R264) -/

/-- Whether one item stands before another: tiles ascending, shares in ascending k0. -/
def TapItem.before (a b : TapItem) : Bool := decide (a.tile < b.tile) || (a.tile == b.tile && decide (a.share ≤ b.share))

/-- The split of a tile that is not fixed, with U such tiles and C cores. -/
def Eval.split (v : Eval) (u c : Nat) : Nat :=
  if v.kBlocks = 0 then 1
  else ([16, 8, 4, 2].find? (fun n => decide (n ≤ v.op.splitMax) && decide (n * u ≤ c) && v.kBlocks % n == 0)).getD 1

/-- The items of a tile split `n` ways. -/
def tileItems (n tile : Nat) : List TapItem := (List.range n).map (fun k => { tile := tile, shares := n, share := k })

/-- W of the rule: returned items first, then the items not started, in order (R264). -/
def Eval.order (v : Eval) (cores : Nat) (back old : List TapItem) : List TapItem :=
  let fresh := (old.filter (fun i => !i.fixed)).map (fun i => i.tile)
  let tiles := fresh.eraseDups
  let n := v.split tiles.length cores
  let rest := old.filter (fun i => i.fixed && !i.back) ++ tiles.flatMap (tileItems n)
  old.filter (fun i => i.back) ++ back ++ rest.mergeSort TapItem.before

/-- Deals W to the cores: the first `r` lists take one more (R264). -/
def deal : List Nat → Nat → Nat → List TapItem → List (Nat × List TapItem)
  | [], _, _, _ => []
  | c :: t, q, r, w =>
    let n := if 0 < r then q + 1 else q
    (c, w.take n) :: deal t q (r - 1) (w.drop n)

/-- Re-partitions the operation in progress with the items that come back; `count` where a core left or joined (R264,
R270, R274). -/
def State.repartition (s : State) (back : List TapItem) (count : Bool) : State :=
  match s.tapEval with
  | none => s
  | some v =>
    let cs := s.tapCores
    let old := s.tap.lists.flatMap (fun e => e.2) ++ s.tap.items
    let w := v.order cs.length (back.map (fun i => { i with back := true, fixed := true })) old
    let t := s.upTap (fun t =>
      if cs.isEmpty then { t with items := w, lists := [] }
      else { t with items := [], lists := deal cs (w.length / cs.length) (w.length % cs.length) w })
    let u := if count then
        (t.upTap (fun t => { t with repart := satu 4294967295 (t.repart + 1) })).upTapc (fun c => { c with repart := (c.repart + 1) % 65536 })
      else t
    u.note uTapestry 0x0041 0 cs.length 0

/-! ## Starting slices -/

/-- The Tapestry group of a snapshot half (Table 9.12). -/
def State.tapGroup (s : State) (coresMin maskUsed : Nat) : Bytes :=
  let c := s.tapc
  let mask := s.tap.inSet.foldl (fun a k => a + 2 ^ k) 0
  leBytes 8 (c.busy % 2 ^ 64) ++ leBytes 8 (c.macs % 2 ^ 64) ++ leBytes 4 c.slices ++ leBytes 4 c.abandoned ++ leBytes 4 c.reruns ++
    leBytes 2 c.repart ++ leBytes 2 coresMin ++ leBytes 8 mask ++ leBytes 8 maskUsed ++ zeros 16

/-- The start half of a snapshot is latched as the command's first slice starts (R270). -/
def State.tapSnap (s : State) : State :=
  match s.tap.cur with
  | none => s
  | some id =>
    match s.tapRun id with
    | none => s
    | some r =>
      match s.cmd.waiting.find? (fun w => w.kind == wRun && w.aux == id && w.hdr.snapshot && w.snap.isNone) with
      | some w =>
        if r.snapDone then s
        else
          let b := s.snapBegin w.hdr w.opcode (s.tapGroup s.tap.inSet.length 0)
          (b.2.upCmd (fun c => { c with waiting := lupd c.waiting (fun x => x == w) (fun x => { x with snap := b.1 }) })).upRun id (fun r =>
            { r with snapDone := true })
      | none => s

/-- A core begins a slice: the split of its tile is fixed (R264). -/
def State.tapStart (s : State) (core : Nat) (it : TapItem) (rerun : Bool) : State :=
  let t := s.tapSnap
  t.upTap (fun t =>
    { t with running := aset t.running core { item := it, start := s.now, rerun := rerun },
             lists := t.lists.map (fun e => (e.1, e.2.map (fun i => if i.tile = it.tile then { i with fixed := true } else i))),
             items := t.items.map (fun i => if i.tile = it.tile then { i with fixed := true } else i) })

/-- The decision that a tile waits for. -/
def State.tapJudge (s : State) (tile : Nat) : Option Judge := s.tap.judges.find? (fun j => j.item.tile == tile)

/-- Changes the decision of a tile. -/
def State.upJudge (s : State) (tile : Nat) (f : Judge → Judge) : State :=
  s.upTap (fun t => { t with judges := lupd t.judges (fun j => j.item.tile == tile) f })

/-- Cores that have computed what a rerun item computes (R239, R266). -/
def State.redoAvoid (s : State) (it : TapItem) : List Nat :=
  match s.tapJudge it.tile with
  | none => []
  | some j =>
    if it.combine || it.shares ≤ 1 then j.avoid
    else (j.old.filter (fun e => e.1 == it.share)).map (fun e => e.2.1)

/-- The first rerun item that a core may take: one it has not computed, or one that every core in service has computed
(R242, R265). -/
def State.redoFor (s : State) (core : Nat) : Option TapItem :=
  s.tap.redo.find? (fun it =>
    let a := s.redoAvoid it
    !a.contains core || s.tapCores.all (fun c => a.contains c))

/-- The core from whose list a core without items takes the last: the longest of at least two, ties to the higher number
(R264). -/
def State.stealFrom (s : State) : Option Nat :=
  let l := s.tap.lists.filter (fun e => decide (2 ≤ e.2.length))
  (l.foldl (fun (b : Option (Nat × Nat)) e =>
    match b with
    | none => some (e.1, e.2.length)
    | some x => if x.2 ≤ e.2.length then some (e.1, e.2.length) else b) none).map (fun x => x.1)

/-- A core that is free takes its next slice (R264, R265). -/
def State.tapNext (s : State) (core : Nat) : State :=
  if !(s.tapCores.contains core) || ahas s.tap.running core || s.partHeld .staging then s
  else match s.redoFor core with
    | some it => (s.upTap (fun t => { t with redo := t.redo.erase it })).tapStart core it true
    | none =>
      match agetD s.tap.lists core [] with
      | it :: rest => (s.upTap (fun t => { t with lists := aset t.lists core rest })).tapStart core it false
      | [] =>
        match s.stealFrom with
        | none => s
        | some k =>
          match (agetD s.tap.lists k []).getLast? with
          | none => s
          | some it => (s.upTap (fun t => { t with lists := aupd t.lists k List.dropLast })).tapStart core it false

/-- Every free core takes its next slice, in ascending order. -/
def State.tapFill (s : State) : State := (s.tapCores).foldl (fun t c => t.tapNext c) s

/-! ## Commits (R262, R243, R268) -/

/-- Writes cells of a row of an output tensor. -/
def State.putCells (s : State) (v : Eval) (row c0 n : Nat) (cells : Bytes) : State :=
  let y := v.t v.op.out
  let new := if y.stride = y.rowBytes then cellsPutRow y.fmt y.n c0 n (padTo y.stride (s.tRow v v.op.out row)) cells
    else cellsLay (padTo y.stride (s.tRow v v.op.out row)) (cellSpans y.fmt y.n c0 n) cells
  if v.inTemps v.op.out then
    s.upRun v.run.id (fun r =>
      let b := agetD r.temps v.op.out []
      let a := b.take (row * y.stride)
      { r with temps := aset r.temps v.op.out (a ++ s.freeBytes (row * y.stride - a.length) ++ new ++ b.drop ((row + 1) * y.stride)) })
  else s.gWrite (s.rowAddr v v.op.out row) new

/-- Writes the results of a tile. -/
def State.tapWrite (s : State) (v : Eval) (tile : Nat) (res : List Nat) : State :=
  (v.segs tile).foldl (fun t g =>
    let v' := match t.tapRun v.run.id with
      | some r => { v with run := r }
      | none => v
    let n := if isMove v.op.kind then (v.tileCol (g.start / v.op.tileCols)).length else g.idx.length
    t.putCells v' g.row g.start n (v.quant g res).1) s

/-- Adds an outcome to a check report (Table 8.10). -/
def ChkRep.add (c : ChkRep) (o : Outcome8) : ChkRep :=
  { c with slices := satu 4294967295 (c.slices + 1), nanInf := satu 4294967295 (c.nanInf + o.nanInf), mag := fMaxMag [c.mag, o.mag],
           normLo := if (ofF32 o.normLo).lt (ofF32 c.normLo) then o.normLo else c.normLo,
           normHi := if (ofF32 c.normHi).lt (ofF32 o.normHi) then o.normHi else c.normHi, codeHi := max c.codeHi o.codeHi,
           sat := satu 4294967295 (c.sat + o.sat) }

/-- Changes the check report of the operation in progress. -/
def State.upRep (s : State) (v : Eval) (f : ChkRep → ChkRep) : State :=
  if v.op.check = 0xFFFF then s else s.upRun v.run.id (fun r => { r with reports := amod r.reports v.run.op {} f })

/-- Counts a committed slice of a core (R270, R505, R506, R509, R510). -/
def State.tapCount (s : State) (v : Eval) (core : Nat) (it : TapItem) : State :=
  let m := v.macs it
  let t := (s.upTapc (fun c => { c with macs := c.macs + m, slices := (c.slices + 1) % 2 ^ 32 })).upRun v.run.id (fun r =>
    { r with maskUsed := r.maskUsed ||| 2 ^ core })
  (((t.ao 1 m).fnCtr v.run.fn 5 m).withObs (fun u => u.gctr 0x0030 (unitId 1 core) 1)).note (unitId 1 core) 0x0040 v.run.fn v.run.op it.tile

/-- Sums of squares of rows that a committed slice holds in part (R238). -/
def Eval.addSq (v : Eval) (tile : Nat) (res : List Nat) (q : List (Nat × Nat × Nat)) : List (Nat × Nat × Nat) :=
  (v.segs tile).foldl (fun q g =>
    let l := v.judged g res
    if l.isEmpty ∨ l.length = v.outN then q
    else match q.find? (fun e => e.1 == g.row) with
      | some (r, a, n) => (r, fAdd a (sumSq l), n + l.length) :: q.filter (fun e => e.1 != r)
      | none => (g.row, sumSq l, l.length) :: q) q

/-- Data of a run go to its scratch, where no layout is stated: the bytes of the scratch are no longer stated (R247, R262, log entry 3). A
queue's scratch holds those of two runs (Table 9.8). -/
def State.scratchUsed (s : State) (v : Eval) : State :=
  let n := fld v.prog.image 16 8 * (if v.run.queue.isSome then 2 else 1)
  if n = 0 then s else (s.gWrite v.run.scratch (s.freeBytes n)).spent

/-- Commits the results of a tile (R262). -/
def State.tapCommit (s : State) (v : Eval) (core : Nat) (it : TapItem) (res : List Nat) (o : Option Outcome8) : State :=
  let conv := s.convSat v it
  let t0 := (s.tapWrite v it.tile res).tapCount v core it
  let t := if v.inTemps v.op.out then t0.scratchUsed v else t0
  let t1 := match o with
    | some x => t.upRep v (fun c => c.add { x with sat := x.sat + (if it.combine then 0 else conv) })
    | none => t
  t1.upTap (fun p =>
    { p with tilesDone := p.tilesDone ++ [it.tile], parts := p.parts.filter (fun e => e.1 != it.tile),
             judges := p.judges.filter (fun j => j.item.tile != it.tile), rowSq := v.addSq it.tile res p.rowSq })

/-! ## Charges and data violations (R239 to R241) -/

/-- A charge of the operation in progress against a core. The check report records each; one out for test is charged when it returns, and
one that is fenced never returns, so it is never charged (R241, R348). -/
def State.tapCharge (s : State) (v : Eval) (core : Nat) : State :=
  let r := s.upRep v (fun c =>
    { c with charged := satu 65535 (c.charged + 1), firstCore := if c.firstCore = 0 then unitId 1 core else c.firstCore })
  if s.unitFenced core then r
  else
    let t := r.upTap (fun t => { t with cCharged := satu 65535 (t.cCharged + 1) })
    if s.tap.testOut.contains core then t.upTap (fun p => { p with heldCharge := p.heldCharge ++ [(core, v.run.op)] })
    else t.charge (unitId 1 core) .charge v.run.op v.run.op 0

/-- Units whose block a tile writes. -/
def Eval.unitsOf (v : Eval) (tile : Nat) : List Nat :=
  let per := (v.t v.op.out).rows
  ((v.segs tile).map (fun g => g.row / per)).eraseDups

/-- Bytes of a check report (Table 8.10). -/
def ChkRep.bytes (c : ChkRep) : Bytes :=
  leBytes 4 c.slices ++ leBytes 4 c.nanInf ++ leBytes 4 c.mag ++ leBytes 4 c.normLo ++ leBytes 4 c.normHi ++ leBytes 4 c.codeHi ++ leBytes 4 c.sat ++
    leBytes 2 c.viol ++ leBytes 2 c.charged ++ leBytes 2 c.dataViol ++ leBytes 2 c.third ++ leBytes 4 c.firstCore ++ leBytes 8 c.firstPos ++
    leBytes 8 c.seed ++ zeros 8

/-- Operations of an image that carry a plausibility record, in order. -/
def checkedOps (b : Image) : List Nat := (List.range (imgOps b)).filter (fun i => (imgOp b i).check != 0xFFFF)

/-- Writes check reports from an address on, for the operations below a number (R253, R258). -/
def State.writeReports (s : State) (fn addr : Nat) (b : Image) (reps : List (Nat × ChkRep)) (below : Nat) : State :=
  if addr = 0 then s
  else
    let l := (checkedOps b).filter (fun i => decide (i < below))
    if l.isEmpty then s else s.hostWrite fn addr (l.flatMap (fun i => (agetD reps i {}).bytes))

/-- Accumulates the report of a run of a queue (R258). -/
def ChkRep.merge (a b : ChkRep) : ChkRep :=
  { slices := satu 4294967295 (a.slices + b.slices), nanInf := satu 4294967295 (a.nanInf + b.nanInf), mag := fMaxMag [a.mag, b.mag],
    normLo := if (ofF32 b.normLo).lt (ofF32 a.normLo) then b.normLo else a.normLo,
    normHi := if (ofF32 a.normHi).lt (ofF32 b.normHi) then b.normHi else a.normHi, codeHi := max a.codeHi b.codeHi,
    sat := satu 4294967295 (a.sat + b.sat), viol := satu 65535 (a.viol + b.viol), charged := satu 65535 (a.charged + b.charged),
    dataViol := satu 65535 (a.dataViol + b.dataViol), third := satu 65535 (a.third + b.third),
    firstCore := if a.firstCore = 0 then b.firstCore else a.firstCore, firstPos := if a.viol = 0 then b.firstPos else a.firstPos, seed := b.seed }

/-! ## Records of a queue (R255 to R257) -/

/-- Returns a record to its stream once every older one is returned (R257). -/
def State.recReturn (s : State) (k : Nat × Nat) : State :=
  match s.stream k.1 with
  | none => s
  | some x =>
    let recs := lupd x.recs (fun r => !r.pad && r.seq == k.2) (fun r => { r with done := true })
    let front := recs.takeWhile (fun r => r.pad || r.done)
    let b := (front.map (fun r => r.len)).sum
    let t := s.upStream k.1 (fun x => { x with recs := recs })
    if b = 0 then t
    else (t.upStream k.1 (fun x => { x with outHead := (x.outHead + b) % x.outLen, recs := recs.drop front.length })).shuFinish k.1

/-- Counts dropped units of a queue (R272). -/
def State.queueDrop (s : State) (q n : Nat) : State := s.upTapQueue q (fun x => { x with dropped := satu 65535 (x.dropped + n) })

/-- Input tensors of a program with a view. -/
def queueViews (b : Image) : List TRec := (imgClass b 0).map (imgTensor b)

/-- KIND of the records that a program's views read. -/
def queueKind (b : Image) : Nat := viewKind (((queueViews b).head?.map (fun t => t.view)).getD 1)

/-- Whether a record has the geometry of the program's input tensors (R255). -/
def State.recFits (s : State) (b : Image) (group a len : Nat) : Bool :=
  (queueViews b).all (fun t =>
    let v := s.viewShape a len t.view
    let one := fun (l : List Nat) => l.filter (fun d => d != 1)
    v.2 == t.fmt && one (group :: v.1) == one t.dims)

/-- WIDTH, HEIGHT, STRUCT and CHROMA of a record. -/
def State.recGeom (s : State) (a : Nat) : Nat × Nat × Nat × Nat := (s.recFld a 72 2, s.recFld a 74 2, s.recFld a 66 1, s.recFld a 67 1)

/-- A unit that is being filled: stream, track and its records so far. -/
abbrev PartUnit := Nat × Nat × List (Nat × Nat × Nat)

/-- What sorting a queue's waiting records gives: whole units, units still being filled, records given back, units
dropped. -/
structure Sifted where
  units : List (List (Nat × Nat × Nat)) := []
  part : List PartUnit := []
  back : List (Nat × Nat × Nat) := []
  drops : Nat := 0
deriving DecidableEq, Repr

/-- Drops the unit being filled of a stream and track. -/
def Sifted.dropPart (f : Sifted) (stream track : Nat) : Sifted :=
  match f.part.find? (fun p => p.1 == stream && p.2.1 == track) with
  | none => f
  | some p => { f with part := f.part.filter (fun x => x != p), back := f.back ++ p.2.2, drops := f.drops + 1 }

/-- Sorts one waiting record (R255): one of another kind, or a gap, is given back; the unit that a gap or a change of geometry cuts off, and
one whose geometry is not that of the program's inputs, is dropped. -/
def State.siftOne (s : State) (b : Image) (group : Nat) (f : Sifted) (w : Nat × Nat × Nat) : Sifted :=
  match s.recAt w.1 w.2.1 with
  | none => f
  | some (a, _) =>
    let kind := s.recFld a 0 1
    let track := s.recFld a 2 1
    if kind = 6 then
      let g := f.dropPart w.1 track
      { g with back := g.back ++ [w], drops := if g.drops = f.drops then f.drops + 1 else g.drops }
    else if kind ≠ queueKind b then { f with back := f.back ++ [w] }
    else
      let same := fun (p : PartUnit) =>
        match p.2.2 with
        | [] => true
        | x :: _ => match s.recAt x.1 x.2.1 with
          | some (a', _) => s.recGeom a' == s.recGeom a
          | none => false
      let f1 := match f.part.find? (fun p => p.1 == w.1 && p.2.1 == track) with
        | some p => if same p then f else f.dropPart w.1 track
        | none => f
      let cur := match f1.part.find? (fun p => p.1 == w.1 && p.2.1 == track) with
        | some p => p.2.2
        | none => []
      let rest := f1.part.filter (fun p => !(p.1 == w.1 && p.2.1 == track))
      let unit := cur ++ [w]
      if unit.length = group then
        if unit.all (fun x => (s.recAt x.1 x.2.1).all (fun r => s.recFits b group r.1 r.2)) then { f1 with part := rest, units := f1.units ++ [unit] }
        else { f1 with part := rest, back := f1.back ++ unit, drops := f1.drops + 1 }
      else { f1 with part := rest ++ [(w.1, track, cur ++ [w])] }

/-- Sorts the waiting records of a queue; a unit whose stream has ended is left incomplete and dropped. -/
def State.sift (s : State) (q : TapQueue) : Sifted :=
  match q.prog with
  | none => {}
  | some h =>
    let b := (s.tapProg h).image
    let f := q.waiting.foldl (s.siftOne b q.group) {}
    f.part.foldl (fun f p =>
      let dropped := match s.stream p.1 with
        | none => true
        | some x => (x.st == stEnded || x.st == stFailed) && (s.streamX p.1).outq.isEmpty
      if dropped then f.dropPart p.1 p.2.1 else f) f

/-- Records that a run holds. -/
def State.inRun (s : State) (w : Nat × Nat × Nat) : Bool := s.tap.runs.any (fun r => r.units.contains (w.1, w.2.1))

/-- Gives back the records that no unit takes (R255); records that a run holds already, or that are gone, wait no longer. -/
def State.queueSift (s : State) (q : Nat) : State :=
  let s0 := s.upTapQueue q (fun x => { x with waiting := x.waiting.filter (fun w => !s.inRun w && (s.recAt w.1 w.2.1).isSome) })
  let f := s0.sift (s0.tapQueue q)
  if f.back.isEmpty then s0
  else
    let t := (s0.upTapQueue q (fun x => { x with waiting := x.waiting.filter (fun w => !f.back.contains w) })).queueDrop q f.drops
    f.back.foldl (fun u w => u.recReturn (w.1, w.2.1)) t

/-- A stream is about to close: the units that its waiting records form or begin are dropped from its queue (R200, R255, log entry 76). -/
def State.queueLeave (s : State) (n : Nat) : State :=
  s.tap.queues.foldl (fun t e =>
    let f := t.sift e.2
    let mine := fun (l : List (Nat × Nat × Nat)) => l.any (fun w => w.1 == n)
    let drops := (f.units.filter mine).length + (f.part.filter (fun p => p.1 == n)).length
    (t.upTapQueue e.1 (fun x => { x with waiting := x.waiting.filter (fun w => w.1 != n) })).queueDrop e.1 drops) s

/-- Starts a run of a queue over `n` units (R255). -/
def State.queueRun (s : State) (q n : Nat) : State :=
  let x := s.tapQueue q
  match x.prog with
  | none => s
  | some h =>
    let units := ((s.sift x).units.take n).flatten
    let id := s.tap.nextRun
    let r : TapRun := { id := id, prog := h, prio := x.prio, fn := x.owner, queue := some q, scratch := x.scratch, report := x.report,
                        units := units.map (fun w => (w.1, w.2.1)) }
    (s.upTapQueue q (fun x => { x with waiting := x.waiting.filter (fun w => !units.contains w) })).upTap (fun t =>
      { t with runs := t.runs ++ [r], nextRun := id + 1 })

/-- Runs of a queue not yet completed. -/
def State.queueRuns (s : State) (q : Nat) : Nat := (s.tap.runs.filter (fun r => r.queue == some q)).length

/-- Starts the runs of a queue that have their units; its scratch holds two runs (Table 9.8). -/
def State.queueKick : Nat → State → Nat → State
  | 0, s, _ => s
  | fuel + 1, s, q =>
    let t := s.queueSift q
    let x := t.tapQueue q
    if x.prog.isSome && !x.unbinding && !t.vfQuiet x.owner && decide (t.queueRuns q < 2) && decide (x.runUnits ≤ (t.sift x).units.length) then
      State.queueKick fuel (t.queueRun q x.runUnits) q
    else t

/-! ## Token blocks (R268, R269) -/

/-- Bytes of the rows of a block of an output, with the padding of codes. -/
def blockRows (t : TRec) : Nat := if t.codes then up32 (t.rows * t.stride) else t.rows * t.stride

/-- Bytes of a block with its header and trailer. -/
def blockLen (t : TRec) : Nat := 64 + blockRows t + 8

/-- The header of a token block (Table 9.11). -/
def blockHead (t : TRec) (flags h out stream invoc seq cue pts : Nat) : Bytes :=
  [BitVec.ofNat 8 (if t.codes then 2 else 1), BitVec.ofNat 8 flags, BitVec.ofNat 8 t.fmt, BitVec.ofNat 8 (if t.codes then t.n else 0)] ++
    leBytes 4 t.rows ++ leBytes 4 t.n ++ leBytes 4 (if t.codes then 0 else t.rowBytes) ++ leBytes 4 (blockLen t) ++ leBytes 2 h ++
    [BitVec.ofNat 8 out, 0] ++ leBytes 4 stream ++ leBytes 4 invoc ++ leBytes 8 seq ++ leBytes 8 cue ++ leBytes 8 pts ++ zeros 8

/-- Flags of a block from those of its unit's records (R269). -/
def State.unitFlags (s : State) (l : List (Nat × Nat)) : Nat :=
  let f := l.foldl (fun a k => match s.recAt k.1 k.2 with
    | some (p, _) => a ||| s.recFld p 1 1
    | none => a) 0
  2 * b2n (bit f 1) + 4 * b2n (bit f 0) + 8 * b2n (bit f 2)

/-- The block of unit `u` of output `out` of a run. -/
def State.tokenBlock (s : State) (r : TapRun) (out u : Nat) : Bytes :=
  let p := s.tapProg r.prog
  let t := imgTensor p.image out
  let v := s.tapEvalOf r
  let rows := (List.range t.rows).flatMap (fun m => padTo t.stride (s.tRow v out (u * t.rows + m)))
  let mark := b2n (r.flagged.contains (out, u))
  let head :=
    if r.queue.isSome then
      let g := v.group
      let l := (r.units.drop (u * g)).take g
      let k := l.headD (0, 0)
      match s.recAt k.1 k.2 with
      | some (a, _) => blockHead t (mark + s.unitFlags l) r.prog out k.1 r.invoc k.2 (s.recFld a 32 8) (s.recFld a 24 8)
      | none => blockHead t mark r.prog out k.1 r.invoc k.2 0 0
    else blockHead t mark r.prog out 0xFFFFFFFF r.invoc 0 r.cueStart 0
  let b := head ++ padTo (blockRows t) rows
  b ++ leBytes 8 (crc64 b)

/-- Output tensors of a run's program. -/
def State.runOuts (s : State) (r : TapRun) : List Nat := imgClass (s.tapProg r.prog).image 1

/-- Free bytes of a staging ring that stay together from its tail on, with the place where a block goes: at the tail, or
at the base when it does not fit before the end (R257, log entry 22). -/
def TapQueue.ringPlace (q : TapQueue) (len : Nat) : Option Nat :=
  let tail := q.ringTail % q.ringLen
  let off := if tail + len ≤ q.ringLen then q.ringTail else q.ringTail + (q.ringLen - tail)
  if off + len ≤ q.ringHead + q.ringLen then some off else none

/-- Puts blocks into the ring of a queue, in order, while they fit; gives those left over. -/
def State.ringBlocks : List ((Nat × Nat) × Bytes) → State → Nat → List ((Nat × Nat) × Bytes) × State
  | [], s, _ => ([], s)
  | b :: t, s, q =>
    let x := s.tapQueue q
    match x.ringPlace (up64 b.2.length) with
    | none => (b :: t, s)
    | some off => State.ringBlocks t ((s.gWrite (x.ringBase + off % x.ringLen) b.2).upTapQueue q (fun x => { x with ringTail := off + up64 b.2.length })) q

/-- The complete blocks of a run go to the ring while they fit; a run with a block left waits (R257). -/
def State.runBlocks (s : State) (id : Nat) : State :=
  match s.tapRun id with
  | none => s
  | some r =>
    match r.queue with
    | none => s
    | some q =>
      let b := State.ringBlocks r.blocks s q
      b.2.upRun id (fun x => { x with blocks := b.1 })

/-- The job and job warp index of a device warp number (R275, R276). -/
def Loom.warpOf (l : Loom) (num : Nat) : Option (Nat × Nat) :=
  l.jobs.findSome? (fun e => (e.2.warps.findIdx? (fun w => w.num == num)).map (fun i => (e.1, i)))

/-- The block of a unit of a queue run is complete and goes to its destination (R257). A block goes once, also where its run restarts
(R256, R259, log entry 76). -/
def State.unitSend (s : State) (id u : Nat) : State :=
  match s.tapRun id with
  | none => s
  | some r =>
    match r.queue with
    | none => s
    | some q =>
      let k := r.units.getD (u * s.runGroup r) (0, 0)
      if r.sent.contains k then s
      else
        let x := s.tapQueue q
        let b := s.tokenBlock r ((s.runOuts r).headD 0) u
        let t := s.upRun id (fun y => { y with sent := y.sent ++ [k], blocks := if x.destKind = 0 then y.blocks ++ [(k, b)] else y.blocks })
        if x.destKind = 0 then t.runBlocks id
        else if (s.loom.warpOf x.destIndex).isSome then
          t.upLoom (fun l => { l with offered := l.offered ++ [{ run := id, warp := x.destIndex, block := b }] })
        else t

/-- Whether unit `u` of the output that the operation in progress writes is complete: no later operation writes the output, and every tile
that holds rows of the unit has committed (R257, R268). -/
def State.unitDone (s : State) (v : Eval) (u : Nat) : Bool :=
  (v.t v.op.out).cls == 1 &&
    (List.range (imgOps v.prog.image)).all (fun i => decide (i ≤ v.run.op) || (imgOp v.prog.image i).out != v.op.out) &&
    (List.range v.tiles).all (fun i => s.tap.tilesDone.contains i || !(v.unitsOf i).contains u)

/-- Sends the blocks that the commit of a tile has completed. -/
def State.tapDeliver (s : State) (v : Eval) (tile : Nat) : State :=
  if v.run.queue.isSome then ((v.unitsOf tile).filter (s.unitDone v)).foldl (fun t u => t.unitSend v.run.id u) s else s

/-- Counts the token rows of a run (R505, R506). -/
def State.countRows (s : State) (r : TapRun) : State :=
  let n := ((s.runOuts r).map (fun i => (imgTensor (s.tapProg r.prog).image i).rows)).sum * s.runUnits r
  (s.ao 2 n).fnCtr r.fn 6 n

/-- Completes an unbinding whose last run has ended (R258). -/
def State.unbindDone (s : State) (q : Nat) : State :=
  if (s.tapQueue q).unbinding && s.queueRuns q == 0 then
    (s.upTap (fun t => { t with queues := adel t.queues q })).finishAll (fun w => w.kind == wUnbind && w.aux == q) sOk 0 0
  else s

/-- A run of a queue whose blocks have all gone completes: its records are returned, its reports are rewritten (R257,
R258). -/
def State.queueRunDone (s : State) (r : TapRun) (q : Nat) : State :=
  let p := s.tapProg r.prog
  let t := s.upTap (fun t => { t with runs := t.runs.filter (fun x => x.id != r.id) })
  let u := t.upTapQueue q (fun x => { x with reports := r.reports.foldl (fun l e => aset l e.1 ((agetD l e.1 {}).merge e.2)) x.reports })
  let w := u.writeReports r.fn r.report p.image (u.tapQueue q).reports (imgOps p.image)
  (r.units.foldl (fun z k => z.recReturn k) w).unbindDone q

/-- Moves on a run whose operations are done: blocks left go to the ring; a run without any completes (R257). -/
def State.endingRun (s : State) (r : TapRun) : State :=
  match r.queue with
  | none => s
  | some q =>
    if (s.tapQueue q).destKind = 0 then
      let t := s.runBlocks r.id
      match t.tapRun r.id with
      | some y => if y.blocks.isEmpty then t.queueRunDone y q else t
      | none => t
    else if s.loom.offered.any (fun e => e.run == r.id) then s else s.queueRunDone r q

/-- Completes a TAP_RUN command (R253): reports, snapshot, reply. -/
def State.replyRun (s : State) (r : TapRun) (status detail below : Nat) : State :=
  let t := s.writeReports r.fn r.report (s.tapProg r.prog).image r.reports below
  (s.cmd.waiting.filter (fun w => w.kind == wRun && w.aux == r.id)).foldl (fun u w =>
    let u1 := match w.snap with
      | some e => u.snapEnd w.hdr w.opcode e (u.tapGroup r.coresMin r.maskUsed)
      | none => u
    let w' := { w with snap := none }
    let u2 := u1.upCmd (fun c => { c with waiting := lupd c.waiting (fun x => x == w) (fun _ => w') })
    u2.finish w' status detail (snapResult w.hdr w.snap 0) w.stateCode) t

/-- What is left of an operation that does not go on. -/
def Tap.clearOp (t : Tap) : Tap :=
  { t with cur := none, items := [], lists := [], running := [], parts := [], tilesDone := [], judges := [], redo := [], rowSq := [] }

/-- A run has committed its last operation (R253, R257, R268). -/
def State.endRun (s : State) (r : TapRun) : State :=
  let t := s.countRows r
  match r.queue with
  | none =>
    let u := (s.runOuts r).foldl (fun u i =>
      let b := u.tokenBlock r i 0
      let n := (imgTensor (u.tapProg r.prog).image i).rows * (imgTensor (u.tapProg r.prog).image i).stride
      (u.gWrite (agetD r.binds i 0) (b.take 64)).gWrite (agetD r.binds i 0 + 64 + n) (b.drop (64 + n))) t
    (u.replyRun r sOk 0 1024).upTap (fun p => { p with runs := p.runs.filter (fun x => x.id != r.id) })
  | some _ =>
    let u := (List.range (s.runUnits r)).foldl (fun z k => z.unitSend r.id k) (t.upRun r.id (fun y => { y with ending := true }))
    match u.tapRun r.id with
    | some y => u.endingRun y
    | none => u

/-- A run fails with a data violation (R240): no further slice of it starts. The records of a queue run are returned, and
it gives no block (log entry 23). -/
def State.failRun (s : State) (v : Eval) : State :=
  let r := match s.tapRun v.run.id with
    | some r => r
    | none => v.run
  let t := s.flag 2 tapChkOff 2 (fun u => u.upTap (fun t => { t with evFail := true }))
  let u := t.upTap Tap.clearOp
  match r.queue with
  | none => (u.replyRun r 0x0010 r.op (r.op + 1)).upTap (fun p => { p with runs := p.runs.filter (fun x => x.id != r.id) })
  | some q => u.queueRunDone r q

/-! ## Operations (R251, R252, R230, R256) -/

/-- Whether a record's trailer fails its check (R201, R256). -/
def State.recBad (s : State) (k : Nat × Nat) : Bool :=
  match s.recAt k.1 k.2 with
  | none => false
  | some (a, len) => crc64 (s.mem a (len - 8)) != fld (s.mem (a + len - 8) 8) 0 8

/-- The unit of a run, by number, that holds a record failing its check. -/
def State.badUnit (s : State) (r : TapRun) : Option Nat :=
  match (List.range r.units.length).find? (fun i => s.recBad (r.units.getD i (0, 0))) with
  | some i => some (i / s.runGroup r)
  | none => none

/-- A run starts again from its first operation and keeps its INVOC (R252, R256, R259). -/
def TapRun.restart (r : TapRun) : TapRun := { r with op := 0, temps := [], flagged := [], reports := [], ending := false }

/-- Units of a run are dropped: their records are returned, and they are counted (R255, R256). -/
def State.cutUnits (s : State) (r : TapRun) (us : List Nat) : State :=
  let g := s.runGroup r
  let part := fun (u : Nat) => (r.units.drop (u * g)).take g
  let keep := ((List.range (s.runUnits r)).filter (fun u => !us.contains u)).flatMap part
  (us.flatMap part).foldl (fun z k => z.recReturn k) ((s.upRun r.id (fun r => { r with units := keep })).queueDrop (r.queue.getD 0) us.length)

/-- A unit whose record failed its check twice is dropped, and the run restarts without it (R256). -/
def State.dropUnit (s : State) (r : TapRun) (u : Nat) : State :=
  let g := s.runGroup r
  let l := (r.units.drop (u * g)).take g
  let q := r.queue.getD 0
  let bad := (l.find? s.recBad).getD (l.headD (0, 0))
  let t := s.flag 2 tapEvtOff 2 (fun t => t.upTap (fun p => { p with evRec := true }))
  let t1 := t.record uTapestry 0x0023 q (q + 4294967296 * bad.1) 0 (.tenant r.fn)
  ((t1.upTap Tap.clearOp).upRun r.id TapRun.restart).cutUnits r [u]

/-- Whether an operation reads an input tensor. -/
def OpRec.readsInput (o : OpRec) (b : Image) : Bool := [o.in0, o.in1, o.in2].any (fun i => decide (i < imgTensors b) && (imgTensor b i).cls == 0)

/-- Begins the next operation of a run (R251, R264). -/
def State.tapBegin (s : State) (r : TapRun) : State :=
  let p := s.tapProg r.prog
  let o := imgOp p.image r.op
  match (if r.queue.isSome && o.readsInput p.image then s.badUnit r else none) with
  | some u =>
    let t := s.dropUnit r u
    match t.tapRun r.id with
    | some y => if y.units.isEmpty then t.queueRunDone y (y.queue.getD 0) else t
    | none => t
  | none =>
    let s1 := if r.begun then s
      else (s.upTap (fun t => { t with progs := aupd t.progs r.prog (fun p => { p with invoc := (p.invoc + 1) % 2 ^ 64 }) })).upRun r.id (fun r =>
        { r with begun := true, invoc := p.invoc, cueStart := s.cuePos, coresMin := s.tap.inSet.length })
    let fresh := o.sr && o.seed == 0 && !(ahas r.seedUsed r.op)
    let seed := if fresh then Config.entropy s1.free % 2 ^ 64 else agetD r.seedUsed r.op o.seed
    let s2 := if fresh then s1.spent else s1
    let s3 := s2.upRun r.id (fun r =>
      { r with seedUsed := if o.sr then aset r.seedUsed r.op seed else r.seedUsed,
               reports := if o.check = 0xFFFF then r.reports else amod r.reports r.op {} (fun c => { c with seed := if o.sr then seed else 0 }) })
    match s3.tapRun r.id with
    | none => s3
    | some r' =>
      let v := s3.tapEvalOf r'
      let items : List TapItem := (List.range v.tiles).flatMap (fun i =>
        if v.vq then (tileItems v.nc i).map (fun x => { x with fixed := true }) else [{ tile := i }])
      let s4 := s3.upTap (fun t => { t.clearOp with cur := some r.id, items := items })
      (s4.repartition [] false).tapFill

/-- Whether a run may take the Tapestry: its inputs exist, no block of it waits for room (R257), and an intermission and the freeze of a VF (of its queue runs) let only begun runs go on (R88, R259, R467). -/
def State.runReady (s : State) (r : TapRun) : Bool :=
  !r.ending && !r.hold && r.blocks.isEmpty && (r.begun || !(s.held uTapestry || (r.queue.isSome && s.vfQuiet r.fn)))

/-- The run whose operation comes next (R251): a snapshot run in progress first, then the highest class, begun runs before
others, then in order of arrival. -/
def State.nextRun (s : State) : Option TapRun :=
  let l := s.tap.runs.filter s.runReady
  match l.find? (fun r => r.snap && r.begun) with
  | some r => some r
  | none =>
    let pick := fun (c : Nat) => match l.find? (fun r => r.prio == c && r.begun) with
      | some r => some r
      | none => l.find? (fun r => r.prio == c)
    ([0, 1, 2, 3].findSome? pick)

/-- Whether a unit can no longer be whole: a record of it was written again as a gap or with another geometry, or its stream is gone or has
ended without it (R255, R259). -/
def State.unitLost (s : State) (r : TapRun) (l : List (Nat × Nat)) : Bool :=
  l.any (fun k =>
    match s.recAt k.1 k.2 with
    | some (a, len) => s.recFld a 0 1 == 6 || !(s.recFits (s.tapProg r.prog).image (s.runGroup r) a len)
    | none => match s.stream k.1 with
      | none => true
      | some x => (x.st == stEnded || x.st == stFailed) && (s.streamX k.1).outq.isEmpty)

/-- A run that waits after a partition reset goes on once its records have been written again; a unit that can no longer be whole is
dropped, and a run without units is over (R255, R259). -/
def State.unholdRun (s : State) (r : TapRun) : State :=
  match r.queue with
  | none => s
  | some q =>
    if !r.hold then s
    else
      let g := s.runGroup r
      let lost := (List.range (s.runUnits r)).filter (fun u => s.unitLost r ((r.units.drop (u * g)).take g))
      let t := if lost.isEmpty then s else s.cutUnits r lost
      match t.tapRun r.id with
      | none => t
      | some y =>
        if y.units.isEmpty then t.queueRunDone y q
        else if y.units.all (fun k => (t.recAt k.1 k.2).isSome) then t.upRun r.id (fun x => { x with hold := false }) else t

/-- Every run that waits after a partition reset. -/
def State.unhold (s : State) : State :=
  s.tap.runs.foldl (fun t r => match t.tapRun r.id with
    | some y => t.unholdRun y
    | none => t) s

/-- Starts operations while the Tapestry is free; each dropped unit is one more turn. -/
def State.tapDrive : Nat → State → State
  | 0, s => s
  | fuel + 1, s =>
    if s.tap.cur.isSome || s.partHeld .staging then s
    else match s.nextRun with
      | none => s
      | some r => State.tapDrive fuel (s.tapBegin r)

/-- The Tapestry goes on: queues form their runs, ended runs deliver their blocks, a free Tapestry takes an operation. -/
def State.tapKick (s : State) : State :=
  let s1 := s.tap.queues.foldl (fun t e => State.queueKick 3 t e.1) s.unhold
  let s2 := s1.tap.runs.foldl (fun t r => match t.tapRun r.id with
    | some y => if y.ending then t.endingRun y else if y.blocks.isEmpty then t else t.runBlocks y.id
    | none => t) s1
  State.tapDrive (2 + (s2.tap.runs.map (fun r => r.units.length)).sum) s2

/-- The operation in progress ends when every item and combine has committed (R267). -/
def State.opDone (s : State) : State :=
  match s.tapEval with
  | none => s
  | some v =>
    if s.tap.tilesDone.length = v.tiles ∧ s.tap.judges.isEmpty ∧ s.tap.running.isEmpty then
      let t := (s.upTap Tap.clearOp).upRun v.run.id (fun r => { r with op := r.op + 1 })
      match t.tapRun v.run.id with
      | none => t
      | some r => if r.op = imgOps v.prog.image then t.endRun r else t
    else s

/-! ## Decisions (R239, R240, R242, R266) -/

/-- Commits the results of a tile; the blocks that this completes go to their destination (R257, R262). -/
def State.tapFinish (s : State) (v : Eval) (core : Nat) (it : TapItem) (res : List Nat) (o : Option Outcome8) : State :=
  (s.tapCommit v core it res o).tapDeliver v it.tile

/-- A data violation: the outcome's results are committed under MARK, the run fails under FAIL (R240). -/
def State.dataViolation (s : State) (v : Eval) (core first : Nat) (it : TapItem) (o : Outcome8) : State :=
  let c := imgCheck v.prog.image v.op.check
  let t := s.flag 2 tapChkOff 1 (fun t => t.upTap (fun p => { p with evData := true, cData := satu 65535 (p.cData + 1) }))
  let t1 := (t.upRep v (fun r => { r with dataViol := satu 65535 (r.dataViol + 1) })).record (unitId 1 first) 0x0021 v.run.op o.failed 0 (.tenant v.run.fn)
  if c.action = 1 then t1.failRun v
  else
    let y := v.t v.op.out
    let mark := fun (l : List (Nat × Nat)) => ((v.unitsOf it.tile).map (fun u => (v.op.out, u))).foldl (fun l e => if l.contains e then l else l ++ [e]) l
    let t2 := if y.cls = 1 then t1.upRun v.run.id (fun r => { r with flagged := mark r.flagged }) else t1
    t2.tapFinish v core it o.data (some o)

/-- Charges several cores. -/
def State.tapCharges (s : State) (v : Eval) (l : List Nat) : State := l.foldl (fun t c => t.tapCharge v c) s

/-- Decides a slice that violated its record, when its computations suffice (Table 8.9, R242, R266). -/
def State.tapDecide (s : State) (v : Eval) (j : Judge) (core : Nat) : State :=
  let it := j.item
  let other := j.differ
  match j.outs with
  | [a, b] =>
    if j.alone then (s.tapCharges v other).dataViolation v core a.core it b
    else if b.failed = 0 then (s.tapCharges v (if other.isEmpty then [a.core] else other)).tapFinish v core it b.data (some b)
    else if a.key = b.key then (s.tapCharges v other).dataViolation v core a.core it b
    else
      ((s.tapCharges v other).upJudge it.tile (fun j => { j with differ := [] })).upTap (fun t =>
        { t with redo := t.redo ++ [it], cThird := satu 65535 (t.cThird + 1) })
        |>.upRep v (fun r => { r with third := satu 65535 (r.third + 1) })
  | [a, b, c] =>
    if j.alone then s.dataViolation v core a.core it c
    else if a.key = c.key then (s.tapCharges v [b.core]).dataViolation v core a.core it c
    else if b.key = c.key then (s.tapCharges v [a.core]).dataViolation v core a.core it c
    else (s.tapCharges v [a.core, b.core, c.core]).failRun v
  | _ => s

/-- A slice violated its record at its first computation (R239, R266). -/
def State.tapViolate (s : State) (v : Eval) (core : Nat) (it : TapItem) (o : Outcome8) : State :=
  let parts := (s.tap.parts.filter (fun e => e.1 == it.tile)).map (fun e => e.2)
  let j : Judge := { item := it, outs := [o], avoid := [core], old := parts }
  let redo := if it.combine then (List.range it.shares).map (fun k => { it with share := k, combine := false }) else [it]
  let t := s.flag 2 tapChkOff 0 (fun t => t.upTap (fun p => { p with evViol := true, cViol := satu 65535 (p.cViol + 1) }))
  (t.upRep v (fun r => { r with viol := satu 65535 (r.viol + 1), firstPos := if r.viol = 0 then s.cuePos else r.firstPos })).upTap (fun p =>
    { p with judges := p.judges ++ [j], redo := p.redo ++ redo })

/-! ## The end of a slice -/

/-- Partials in ascending order of share. -/
def partsIn (n : Nat) (l : List (Nat × Nat × List Nat)) : List (List Nat) :=
  (List.range n).map (fun k => match l.find? (fun e => e.1 == k) with
    | some e => e.2.2
    | none => [])

/-- Faults that a core adds to its results: (index, value). -/
def upset (l : List Nat) (u : List (Nat × Nat)) : List Nat := u.foldl (fun l e => lmod l e.1 (fun _ => e.2 % 2 ^ 32)) l

/-- The combine of a tile becomes due: it is the core's next slice, or an item for another core when it is leaving (R263). -/
def State.tapCombine (s : State) (core : Nat) (it : TapItem) (rerun : Bool) : State :=
  let c : TapItem := { it with combine := true, share := 0, fixed := true }
  if rerun then
    if s.tapCores.contains core && !(s.redoAvoid c).contains core then s.tapStart core c true
    else s.upTap (fun t => { t with redo := t.redo ++ [c] })
  else if s.tapCores.contains core then s.tapStart core c false
  else s.repartition [c] false

/-- A first computation has ended (R262, R263). -/
def State.tapFirst (s : State) (v : Eval) (core : Nat) (it : TapItem) (res : List Nat) : State :=
  if (decide (1 < it.shares) || v.vq) && !it.combine then
    let conv := s.convSat v it
    let t := (((s.tapCount v core it).scratchUsed v).upTap (fun p => { p with parts := p.parts ++ [(it.tile, it.share, core, res)] })).upRep v (fun c =>
      { c with sat := satu 4294967295 (c.sat + conv) })
    if (t.tap.parts.filter (fun e => e.1 == it.tile)).length = it.shares then t.tapCombine core it false else t
  else if v.op.check = 0xFFFF then s.tapFinish v core it res none
  else
    let o := v.outcome s.tap.rowSq (imgCheck v.prog.image v.op.check) core it.tile res
    if o.failed = 0 then s.tapFinish v core it res (some o) else s.tapViolate v core it o

/-- A second or third computation has ended (R239, R266). Of a share whose two partials differ, each core's differs from the other
computation, so both are charged; a share computed again by its own core is no evidence (R242). -/
def State.tapAgain (s : State) (v : Eval) (core : Nat) (it : TapItem) (res : List Nat) : State :=
  let s := s.upTapc (fun c => { c with reruns := (c.reruns + 1) % 2 ^ 32 })
  match s.tapJudge it.tile with
  | none => s
  | some j =>
    let had := (s.redoAvoid it).contains core
    if (decide (1 < it.shares) || v.vq) && !it.combine then
      let bad := match j.old.find? (fun e => e.1 == it.share) with
        | some e => if e.2.2 != res && !had then [e.2.1, core] else []
        | none => []
      let t := s.upJudge it.tile (fun j =>
        { j with new := j.new ++ [(it.share, core, res)], differ := bad.foldl ladd j.differ, alone := j.alone || had })
      match t.tapJudge it.tile with
      | some j' => if j'.new.length = it.shares then t.tapCombine core it true else t
      | none => t
    else
      let o := v.outcome s.tap.rowSq (imgCheck v.prog.image v.op.check) core it.tile res
      let j' : Judge := { j with outs := j.outs ++ [o], avoid := ladd j.avoid core, alone := j.alone || had }
      (s.upJudge it.tile (fun _ => j')).tapDecide v j' core

/-- Fewest cores in service during a run (R270). -/
def State.tapFewest (s : State) : State :=
  match s.tap.cur with
  | none => s
  | some id => s.upRun id (fun r => { r with coresMin := min r.coresMin s.tap.inSet.length })

/-- Counts the cycles of a slice (R270, R505, R506). -/
def State.tapBusy (s : State) (fn cycles : Nat) : State :=
  ((s.upTapc (fun c => { c with busy := c.busy + cycles })).ao 0 cycles).fnCtr fn 4 cycles

/-- A core whose test is due leaves once its slice has ended (Table 9.9). -/
def State.tapLeaves (s : State) (core : Nat) : State :=
  if s.tap.testDue.contains core && !ahas s.tap.running core then
    (s.upTap (fun t => { t with testDue := ldel t.testDue core, inSet := ldel t.inSet core, testOut := insCore t.testOut core })).tapFewest
  else s

/-- A core finishes its slice (R262): it commits, is judged or is decided, and work goes on. -/
def State.tapSlice (s : State) (core cycles : Nat) (ups : List (Nat × Nat)) : State :=
  match aget s.tap.running core, s.tapEval with
  | some r, some v =>
    let it := r.item
    let s1 := (s.upTap (fun t => { t with running := adel t.running core })).tapBusy v.run.fn cycles
    let parts := match s.tapJudge it.tile with
      | some j => if r.rerun && !j.new.isEmpty then j.new else j.old
      | none => (s.tap.parts.filter (fun e => e.1 == it.tile)).map (fun e => e.2)
    let res := upset (s.evalItem v it (partsIn it.shares parts)) ups
    let s2 := if r.rerun then s1.tapAgain v core it res else s1.tapFirst v core it res
    (s2.spent.tapLeaves core |>.tapNext core).tapFill.opDone.tapKick
  | _, _ => s

/-! ## Changes of the core set (R264 to R267) -/

/-- A core's running slice is abandoned: its item comes back, a rerun's among the reruns (Table 9.9). -/
def State.tapAbandon (s : State) (core cycles : Nat) : List TapItem × State :=
  match aget s.tap.running core with
  | none => ([], s)
  | some r =>
    let t := s.upTap (fun t =>
      { t with running := adel t.running core, abandon := satu 4294967295 (t.abandon + 1), redo := if r.rerun then r.item :: t.redo else t.redo })
    let u := (t.upTapc (fun c => { c with abandoned := (c.abandoned + 1) % 2 ^ 32 })).tapBusy ((s.tapEval.map (fun v => v.run.fn)).getD 0) cycles
    (if r.rerun then [] else [r.item], u)

/-- Cycles that a core's running slice has run. -/
def State.tapCycles (s : State) (core : Nat) : Nat :=
  match aget s.tap.running core with
  | none => 0
  | some r => (s.now - r.start) * s.tapClock core / 1000

/-- A core is fenced (Table 9.9): its slice is abandoned and the rest of its work goes to the others. -/
def State.tapFence (s : State) (core : Nat) : State :=
  let t := s.flag 2 tapEvtOff 0 (fun t => t.upTap (fun p => { p with evFence := true }))
  if t.tap.inSet.contains core then
    let a := t.tapAbandon core (t.tapCycles core)
    let u := (a.2.upTap (fun p => { p with inSet := ldel p.inSet core, testDue := ldel p.testDue core })).tapFewest
    (u.repartition a.1 true).tapFill.opDone.tapKick
  else t.upTap (fun p => { p with testOut := ldel p.testOut core, heldCharge := p.heldCharge.filter (fun e => e.1 != core) })

/-- Cores whose tests are due take no new slice, and leave at the end of the ones they run; those of one instant make one re-partition
(R267, R356, Table 9.9). -/
def State.tapTestsDue (s : State) (cores : List Nat) : State :=
  let l := cores.filter (fun c => s.tap.inSet.contains c && !s.tap.testDue.contains c)
  if l.isEmpty then s
  else
    let t := s.flag 2 tapEvtOff 1 (fun t => t.upTap (fun p => { p with evTest := true, testDue := p.testDue ++ l }))
    (l.foldl State.tapLeaves (t.repartition [] true)).tapFill

/-- The charges that were held while a core was out for test (R241). -/
def State.applyHeld (s : State) (core : Nat) : State :=
  let held := s.tap.heldCharge.filter (fun e => e.1 == core)
  (held.foldl (fun t e => t.charge (unitId 1 core) .charge e.2 e.2 0) s).upTap (fun p =>
    { p with heldCharge := p.heldCharge.filter (fun e => e.1 != core) })

/-- Cores join the core set, in one re-partition; the charges held for them are applied (R241, R264, R267, R358). -/
def State.tapJoins (s : State) (cores : List Nat) : State :=
  let t := (cores.foldl State.applyHeld s).upTap (fun t =>
    { t with testOut := t.testOut.filter (fun c => !cores.contains c), inSet := cores.foldl insCore t.inSet })
  if cores.isEmpty then s else (t.repartition [] true).tapFill.tapKick

/-! ## Resets -/

/-- The staging partition is reset: slices are abandoned, TAP_RUNs end TAP_INPUT_LOST, queue runs wait for their records
(R259). -/
def State.tapStagingReset (s : State) : State :=
  let t := s.tap.running.foldl (fun t e => (t.tapAbandon e.1 (t.tapCycles e.1)).2) s
  let u := t.upTap (fun p => { p.clearOp with queues := p.queues.map (fun e => (e.1, { e.2 with waiting := [] })) })
  let w := (u.tap.runs.filter (fun r => r.queue.isNone)).foldl (fun z r =>
    (z.replyRun r 0x0014 0 r.op).upTap (fun p => { p with runs := p.runs.filter (fun x => x.id != r.id) })) u
  w.upTap (fun p => { p with runs := p.runs.map (fun r =>
    if r.ending && r.blocks.isEmpty then r
    else { r.restart with hold := true, blocks := [], sent := r.sent.filter (fun k => !(r.blocks.map (fun b => b.1)).contains k) }) })

/-- The programs, queues and runs of a function go (R457). -/
def State.tapResetFn (s : State) (fn : Nat) : State :=
  let mine := (s.tapEval.map (fun v => v.run.fn == fn)).getD false
  let t := if mine then s.upTap Tap.clearOp else s
  let u := t.upTap (fun p =>
    { p with runs := p.runs.filter (fun r => r.fn != fn), queues := p.queues.filter (fun e => e.2.owner != fn),
             progs := p.progs.filter (fun e => e.2.owner != fn) })
  u.tapKick

end Sys2Proof.Machine
end

