-- ==== Sys2Proof/Machine/LoomOps.lean ====
section
/-!
DEFINITION. The Loom (R275 to R298): the permutation, positions, residents, the exchange, weaving, hand-over and release.
-/
namespace Sys2Proof.Machine

open Sys2Proof

/-- mix of R281. -/
def mix (z : Nat) : Nat :=
  let w := 2 ^ 64
  let a := ((z % w) ^^^ (z % w / 2 ^ 30)) * 0xBF58476D1CE4E5B9 % w
  let b := (a ^^^ (a / 2 ^ 27)) * 0x94D049BB133111EB % w
  b ^^^ (b / 2 ^ 31)

/-- Bits of the network that covers N: the least even number of at least 2 (R281). -/
def permBits (n : Nat) : Nat :=
  let c := if n ≤ 1 then 0 else Nat.log2 (n - 1) + 1
  let b := max 2 c
  if b % 2 = 1 then b + 1 else b

/-- The eight rounds (R281). -/
def feistelRounds (h : Nat) : List Nat → Nat → Nat → Nat
  | [], l, r => l * 2 ^ h + r
  | k :: t, l, r => feistelRounds h t r (l ^^^ (mix (r ^^^ k) % 2 ^ h))

/-- Round keys of an epoch of a warp. -/
def roundKeys (key epoch warp : Nat) : List Nat :=
  (List.range 8).map (fun r => mix (key ^^^ (epoch * 0x9E3779B97F4A7C15 % 2 ^ 64) ^^^ (warp * 0xD1B54A32D192ED03 % 2 ^ 64) ^^^ (r + 1)))

/-- One application of the network on b bits. -/
def feistel (b : Nat) (rk : List Nat) (x : Nat) : Nat := feistelRounds (b / 2) rk (x / 2 ^ (b / 2)) (x % 2 ^ (b / 2))

/-- Walks cycles until the value lies below N. -/
def cycleWalk (n b : Nat) (rk : List Nat) : Nat → Nat → Nat
  | 0, y => y
  | fuel + 1, y => if y < n then y else cycleWalk n b rk fuel (feistel b rk y)

/-- σ(p) of an epoch of job warp `warp` with N samples (R281). -/
def sigma (key epoch warp n p : Nat) : Nat :=
  let b := permBits n
  let rk := roundKeys key epoch warp
  cycleWalk n b rk (2 ^ b) (feistel b rk p)

/-! ## Positions (R283, R284) -/

/-- Reference step, absolute position and share of a warp in force at a step. -/
def Warp.seg (w : Warp) (step : Nat) : Nat × Nat × Nat :=
  match (w.segs.filter (fun g => decide (g.1 ≤ step))).getLast? with
  | some g => g.2
  | none => match w.segs with
    | g :: _ => g.2
    | [] => (0, 0, 0)

/-- G at a step. -/
def Warp.g (w : Warp) (step : Nat) : Nat := (w.seg step).2.2

/-- Absolute position of sample k of a step. -/
def Warp.absOf (w : Warp) (step k : Nat) : Nat :=
  let g := w.seg step
  g.2.1 + (step - g.1) * g.2.2 - (g.1 - step) * g.2.2 + k

/-- The step whose batches hold an absolute position of a warp. -/
def Warp.stepOf (w : Warp) (abs : Nat) : Option Nat :=
  w.segs.reverse.findSome? (fun g =>
    let st := if g.2.2.1 ≤ abs then g.2.1 + (abs - g.2.2.1) / g.2.2.2 else g.2.1 - (g.2.2.1 - abs + g.2.2.2 - 1) / g.2.2.2
    if g.2.2.2 ≠ 0 ∧ w.seg st = g.2 then some st else none)

/-- The consumers at a step, by number: rank and ring (R291, R329, R333). -/
def tableAt (j : Job) (x : JobX) (step : Nat) : List (Nat × Nat) :=
  let base := ((x.newTables.filter (fun t => decide (t.1 ≤ step))).getLast?).getD (0, j.table)
  let l := (j.nextTables.filter (fun c => decide (c.1 ≤ step) && decide (base.1 ≤ c.1))).mergeSort (fun a b =>
    decide (a.1 < b.1) || (a.1 == b.1 && decide (a.2.1 ≤ b.2.1)))
  l.foldl (fun t c => if c.2.2.1 = 1 then t.filter (fun e => e != (c.2.2.2.1, c.2.2.2.2)) else t ++ [(c.2.2.2.1, c.2.2.2.2)]) base.2

/-- First k and number of positions of consumer `c` of `n` for a share (R284). -/
def consumerShare (g n c : Nat) : Nat × Nat := (c * (g / n) + min c (g % n), g / n + (if c < g % n then 1 else 0))

/-- The consumer that holds position k of a share. -/
def consumerOf (g n k : Nat) : Nat :=
  let q := g / n
  let r := g % n
  if k < r * (q + 1) then k / (q + 1) else if q = 0 then 0 else r + (k - r * (q + 1)) / q

/-- Number of a ring of this member among the consumers at a step. -/
def ringNo (j : Job) (x : JobX) (step ring : Nat) : Option Nat := (tableAt j x step).findIdx? (fun e => e == (j.rank, ring))

/-- Absolute phase at which the weave for a step closes (R286); below 0 it has passed. -/
def Job.closeAt (j : Job) (step : Nat) : Int := (step * 65536 : Nat) - (j.lead : Int) - j.cutPh

/-- Absolute phase at which a batch must have landed (R56). -/
def Job.deadline (j : Job) (step : Nat) : Int := (step * 65536 : Nat) - (j.lead : Int)

/-! ## Access -/

/-- PF BAR0 offset of LOOM_EVT. -/
def loomEvtOff : Nat := 0x00C00008

/-- A job. -/
def State.job (s : State) (h : Nat) : Option Job := aget s.loom.jobs h

/-- The rest of a job. -/
def State.jobX (s : State) (h : Nat) : JobX := agetD s.loom.jobx h {}

/-- Changes a job. -/
def State.upJob (s : State) (h : Nat) (f : Job → Job) : State := s.upLoom (fun l => { l with jobs := aupd l.jobs h f })

/-- Changes the rest of a job. -/
def State.upJobX (s : State) (h : Nat) (f : JobX → JobX) : State := s.upLoom (fun l => { l with jobx := amod l.jobx h {} f })

/-- The absolute phase, as an integer. -/
def State.phase (s : State) : Int := s.cue.pos

/-- Drops counted for a sample (Table 10.7, R505). -/
def State.sampleDrop (s : State) (f : Loom → Loom) : State := (s.upLoom f).ao 25 1

/-- One more of a 16-bit count. -/
def inc16 (n : Nat) : Nat := satu 65535 (n + 1)

/-! ## Pages and headers (R278, R279) -/

/-- Bytes of a page. -/
def pageBytes : Nat := 65536

/-- Pages of a payload. -/
def pagesOf (n : Nat) : Nat := (n + pageBytes - 1) / pageBytes

/-- Takes pages of a job, freed ones first. -/
def State.takePages (s : State) (h n : Nat) : Option (List Nat × State) :=
  match s.job h with
  | none => none
  | some j =>
    let x := s.jobX h
    if s.partHeld .shuffle then none else
    let a := j.freePages.take n
    let more := n - a.length
    if j.bufMib * 16 < x.pageNext + more then none
    else some (a ++ List.range' x.pageNext more,
      (s.upJob h (fun j => { j with freePages := j.freePages.drop n })).upJobX h (fun x => { x with pageNext := x.pageNext + more }))

/-- Takes a header slot of a job. -/
def State.takeSlot (s : State) (h : Nat) : Option (Nat × State) :=
  let x := s.jobX h
  match s.job h, x.freeSlots with
  | some _, k :: t => some (k, s.upJobX h (fun x => { x with freeSlots := t }))
  | some j, [] => if j.bufMib ≤ x.slotNext then none else some (x.slotNext, s.upJobX h (fun x => { x with slotNext := x.slotNext + 1 }))
  | none, _ => none

/-- GDDR7 address of a record in landing pages. -/
def Job.recAddr (j : Job) (m : Sample) : Nat := j.base + m.pages.headD 0 * pageBytes

/-- GDDR7 address of a sample's header: its slot. DEDUCED (log entry 77): a record that lands while no slot is free (slot number BUF_MIB) keeps
its header in its landing page, since an exchange is never refused (R278, R289). -/
def Job.headAddr (j : Job) (m : Sample) : Nat := if m.landing ∧ j.bufMib ≤ m.slot then j.recAddr m else j.hdrBase + 128 * m.slot

/-- A sample record header without its CRC (Table 10.3). -/
def Sample.head (m : Sample) : Bytes :=
  leBytes 8 m.sid ++ leBytes 4 m.stream ++ leBytes 2 m.warp ++ [BitVec.ofNat 8 m.modality, BitVec.ofNat 8 m.flags] ++ leBytes 8 m.cueIngest ++
    leBytes 8 m.check ++ leBytes 4 m.len ++ [BitVec.ofNat 8 m.tkind, BitVec.ofNat 8 m.format, BitVec.ofNat 8 m.groups, 0] ++ leBytes 4 m.rows ++
    leBytes 4 m.dim ++ leBytes 4 m.rowBytes ++ leBytes 4 m.epoch ++ leBytes 8 m.position ++ leBytes 8 m.pts ++ leBytes 8 m.seqFirst ++
    leBytes 8 m.step ++ leBytes 2 m.origin ++ zeros 34

/-- A sample record header. -/
def Sample.bytes (m : Sample) : Bytes := m.head ++ leBytes 4 (crc32c m.head)

/-- What a header of 128 bytes says. -/
def Sample.ofBytes (b : Bytes) : Sample :=
  { sid := fld b 0 8, stream := fld b 8 4, warp := fld b 12 2, modality := fld b 14 1, flags := fld b 15 1, cueIngest := fld b 16 8,
    check := fld b 24 8, len := fld b 32 4, tkind := fld b 36 1, format := fld b 37 1, groups := fld b 38 1, rows := fld b 40 4,
    dim := fld b 44 4, rowBytes := fld b 48 4, epoch := fld b 52 4, position := fld b 56 8, pts := fld b 64 8, seqFirst := fld b 72 8,
    step := fld b 80 8, origin := fld b 88 2 }

/-- Whether a header passes its CRC. -/
def headOk (b : Bytes) : Bool := crc32c (b.take 124) == fld b 124 4

/-- Writes bytes over the pages of a sample. -/
def State.putPages (s : State) (base : Nat) : List Nat → Bytes → State
  | [], _ => s
  | p :: t, b => State.putPages (s.gWrite (base + p * pageBytes) (b.take pageBytes)) base t (b.drop pageBytes)

/-- The payload of a resident sample, as memory holds it. -/
def State.payload (s : State) (j : Job) (m : Sample) : Bytes :=
  if m.landing then s.mem (j.recAddr m + 128) m.len
  else (m.pages.flatMap (fun p => s.mem (j.base + p * pageBytes) pageBytes)).take m.len

/-! ## The exchange (R288, R289) -/

/-- An exchange notice without its sequence word (Table 10.5). -/
def xNotice (jobId from_ type warp epoch p page pages : Nat) : Bytes :=
  leBytes 4 jobId ++ leBytes 2 from_ ++ [BitVec.ofNat 8 type, 0] ++ leBytes 2 warp ++ leBytes 2 0 ++ leBytes 4 epoch ++ leBytes 8 p ++ leBytes 4 page ++
    leBytes 4 pages ++ zeros 88

/-- Writes a notice into the exchange mailbox of a rank. -/
def State.xSend (s : State) (h rank : Nat) (b : Bytes) : State :=
  let x := s.jobX h
  match aget x.xqps rank, aget x.peers rank with
  | some q, some p =>
    let n := agetD x.xout rank 0 + 1
    (s.upJobX h (fun x => { x with xout := aset x.xout rank n })).qpWrite q .notice ((16 * (s.job h).elim 0 (fun j => j.rank) + (n - 1) % 16) * 128) p.1 (padTo 120 b ++ leBytes 8 n) true
  | _, _ => s

/-- The first run of `n` pages in a row in an ascending list, of at most `fuel` tried. -/
def runOf (n : Nat) : Nat → List Nat → Option Nat
  | 0, _ => none
  | _, [] => none
  | fuel + 1, p :: t => if (List.range' p n).all (fun k => (p :: t).contains k) then some p else runOf n fuel t

/-- Sends the records that wait for landing pages of a rank, in order: the record, then the notice (R288, R289). -/
def State.xKick : Nat → State → Nat → Nat → State
  | 0, s, _, _ => s
  | fuel + 1, s, h, rank =>
    let x := s.jobX h
    match s.job h, x.sendq.find? (fun e => e.1 == rank), aget x.xqps rank, aget x.peers rank with
    | some j, some e, some q, some p =>
      let n := pagesOf e.2.2.length
      let l := agetD x.freeLand rank []
      match runOf n (l.length + 1) l with
      | none => s
      | some k =>
        let m := Sample.ofBytes e.2.2
        let t := s.upJobX h (fun x => { x with sendq := x.sendq.erase e, freeLand := aset x.freeLand rank (l.filter (fun a => !(decide (k ≤ a) && decide (a < k + n)))) })
        let u := t.qpWrite q .other (k * pageBytes) p.2.2 e.2.2 false
        State.xKick fuel (u.xSend h rank (xNotice j.jobId j.rank 1 m.warp m.epoch m.position k n)) h rank
    | _, _, _, _ => s

/-- Sends a sample record to the member that hosts its consumer. -/
def State.xRecord (s : State) (h rank : Nat) (m : Sample) (payload : Bytes) : State :=
  let r := ({ m with flags := m.flags ||| 16 } : Sample).bytes ++ payload
  let t := s.upJobX h (fun x => { x with sendq := x.sendq ++ [(rank, 0, r)] })
  t.xKick ((t.jobX h).sendq.length) h rank

/-- Gives a header slot of a job back. -/
def State.giveSlot (s : State) (h : Nat) (j : Job) (slot : Nat) : State :=
  if slot < j.bufMib then s.upJobX h (fun x => { x with freeSlots := x.freeSlots ++ [slot] }) else s

/-- Frees a sample: its slot, and its pages, of which landing pages go back to their sender (R278, R289). -/
def State.freeSample (s : State) (h no : Nat) : State :=
  match s.job h with
  | none => s
  | some j =>
    match aget j.samples no with
    | none => s
    | some m =>
      let t := (s.upJob h (fun j => { j with samples := adel j.samples no })).giveSlot h j m.slot
      if m.landing then
        let first := agetD (t.jobX h).granted m.origin 0
        t.xSend h m.origin (xNotice j.jobId j.rank 2 0 0 0 (m.pages.headD 0 - first) m.pages.length)
      else t.upJob h (fun j => { j with freePages := j.freePages ++ m.pages })

/-- Whether an INDEXED sample without references is drawn again by a batch to come: the weaves have gone back to the step of its position (R296,
R298, DEDUCED, log entry 77). -/
def Job.ahead (j : Job) (x : JobX) (m : Sample) : Bool :=
  let w := j.warps.getD m.warp {}
  !m.gone && w.kind == 0 && (match w.stepOf m.abs with
    | none => false
    | some st =>
      let t := tableAt j x st
      match t[consumerOf (w.g st) t.length (m.abs - w.absOf st 0)]? with
      | some e => e.1 == j.rank && (aget j.weaveNext e.2).any (fun n => decide (n ≤ st))
      | none => false)

/-- One reference to a sample ends; one without any left is freed, unless a batch to come draws it (R278, R320). -/
def State.release (s : State) (h no : Nat) : State :=
  match s.job h with
  | none => s
  | some j =>
    match aget j.samples no with
    | none => s
    | some m =>
      if m.refs ≤ 1 ∧ j.ahead (s.jobX h) m = false then s.freeSample h no
      else s.upJob h (fun j => { j with samples := aupd j.samples no (fun m => { m with refs := m.refs - 1 }) })

/-- A batch no longer references its samples. -/
def State.batchRelease (s : State) (b : Batch) : State := b.entries.foldl (fun t e => t.release b.job e.1) s

/-! ## Weaving (R284, R286, R292, R294, R295) -/

/-- What one position of a batch finds: a resident sample, or nothing; with its warp and k. -/
structure Slot where
  warp : Nat
  k : Nat
  sample : Option Nat
  streamed : Bool
deriving DecidableEq, Repr

/-- The resident sample at an absolute position of a warp. -/
def Job.at_ (j : Job) (warp abs : Nat) : Option Nat := (j.samples.find? (fun e => e.2.warp == warp && e.2.abs == abs && !e.2.gone)).map (fun e => e.1)

/-- Samples of a STREAMED warp that are free to be drawn for a step, in the order of the draw (R284). -/
def Job.draws (j : Job) (warp step : Nat) : List Nat :=
  let l := j.samples.filter (fun e => e.2.warp == warp && e.2.refs == 0 && e.2.wovenAt == 0 && !e.2.gone)
  let v := fun (m : Sample) => mix (j.key ^^^ m.sid ^^^ (step * 0x9E3779B97F4A7C15 % 2 ^ 64))
  (l.mergeSort (fun a b => decide (v a.2 ≤ v b.2))).map (fun e => e.1)

/-- What a consumer's batch for a step finds now, in directory order (R294). -/
def Job.find (j : Job) (x : JobX) (ring step : Nat) : List Slot :=
  match ringNo j x step ring with
  | none => []
  | some c =>
    let n := (tableAt j x step).length
    (List.range j.warps.length).flatMap (fun i =>
      let w := j.warps.getD i {}
      let p := consumerShare (w.g step) n c
      if w.kind = 0 then
        (List.range' p.1 p.2).map (fun k => { warp := i, k := k, sample := j.at_ i (w.absOf step k), streamed := false })
      else
        let d := j.draws i step
        (List.range p.2).map (fun q => { warp := i, k := p.1 + q, sample := d[q]?, streamed := true }))

/-- The most recently woven resident sample of a warp (R292). -/
def Job.lastWoven (j : Job) (warp : Nat) : Option Nat :=
  let l := j.samples.filter (fun e => e.2.warp == warp && decide (0 < e.2.wovenAt) && !e.2.gone)
  (l.foldl (fun (b : Option (Nat × Nat)) e =>
    match b with
    | none => some (e.1, e.2.wovenAt)
    | some y => if y.2 < e.2.wovenAt then some (e.1, e.2.wovenAt) else b) none).map (fun y => y.1)

/-- Token rows of a sample in the packed format. -/
def Job.tokens (j : Job) (no : Nat) : Nat := ((aget j.samples no).map (fun m => m.rows)).getD 0

/-- Packs token counts into rows of `width`: for each sample its (first row, first token, rows spanned), and the tokens used of
each row (R295). -/
def pack (width : Nat) : List Nat → List Nat → List (Nat × Nat)
  | [], _ => []
  | n :: t, used =>
    if n ≤ width then
      let r := match used.findIdx? (fun u => decide (u + n ≤ width)) with
        | some i => i
        | none => used.length
      let at_ := used.getD r 0
      (r, at_) :: pack width t (if r < used.length then lmod used r (fun u => u + n) else used ++ [n])
    else
      let rows := (n + width - 1) / width
      (used.length, 0) :: pack width t (used ++ List.replicate (rows - 1) width ++ [n - (rows - 1) * width])

/-- Rows that packed samples take. -/
def packRows (width : Nat) (l : List Nat) : Nat :=
  ((l.zip (pack width l [])).map (fun e => e.2.1 + (e.2.2 + e.1 + width - 1) / width)).foldl max 0

/-- Splits entries into those that fit ROWS_MAX rows and those carried (R295). -/
def carrySplit (width rowsMax : Nat) (tok : Nat → Nat) : List (Nat × Nat × Nat) → List (Nat × Nat × Nat) → List (Nat × Nat × Nat) × List (Nat × Nat × Nat)
  | [], acc => (acc, [])
  | e :: t, acc =>
    if packRows width ((acc ++ [e]).map (fun a => tok a.1)) ≤ rowsMax then carrySplit width rowsMax tok t (acc ++ [e])
    else let r := carrySplit width rowsMax tok t acc; (r.1, e :: r.2)

/-- Changes a resident sample, and its header in memory with it (R279). -/
def State.upSample (s : State) (h no : Nat) (f : Sample → Sample) : State :=
  let t := s.upJob h (fun j => { j with samples := aupd j.samples no f })
  match t.job h with
  | none => t
  | some j =>
    match aget j.samples no with
    | some m => t.gWrite (j.headAddr m) m.bytes
    | none => t

/-- Makes a batch of what a consumer's step found; `fill` where missing samples are filled or left out (R292). What it draws it references;
STEP is written into the samples that it lists, those carried to it among them (R279, R295). -/
def State.makeBatch (s : State) (h ring step : Nat) (slots : List Slot) (fill : Bool) : State :=
  match s.job h with
  | none => s
  | some j =>
    let x := s.jobX h
    let c := (ringNo j x step ring).getD 0
    let sub := fun (w : Nat) => if fill && j.fill == 0 then j.lastWoven w else none
    let flagsOf := fun (no : Nat) => ((aget j.samples no).map (fun m => m.flags)).getD 0
    let got := slots.filterMap (fun q => match q.sample with
      | some no => some (no, q.k, flagsOf no)
      | none => (sub q.warp).map (fun no => (no, q.k, flagsOf no ||| 32)))
    let missing := slots.filter (fun q => q.sample.isNone)
    let filled := (missing.filter (fun q => (sub q.warp).isSome)).length
    let short := decide (filled < missing.length)
    let under := (missing.filter (fun q => q.streamed)).length
    let old := agetD x.carry ring []
    let all := old ++ got
    let sp := if j.format = 1 then carrySplit j.seqTokens j.rowsMax j.tokens all [] else (all, [])
    let fl := b2n short + 2 * b2n (decide (0 < filled)) + 4 * b2n (sp.1.any (fun e => bit e.2.2 0)) + 8 * b2n (sp.1.any (fun e => bit e.2.2 1)) +
      16 * b2n (!old.isEmpty)
    let b : Batch := { id := s.cue.gen % 256 * 2 ^ 56 + step % 2 ^ 40 * 65536 + c % 65536, job := h, consumer := c, step := step, flags := fl,
                       entries := sp.1, ring := ring, short := short, gen := s.cue.gen, carried := old }
    let refd := got.foldl (fun (t : State) e => t.upJob h (fun j => { j with samples := aupd j.samples e.1 (fun m => { m with refs := m.refs + 1 }) })) s
    let t := sp.1.foldl (fun (t : State) e => t.upSample h e.1 (fun m => { m with step := step, wovenAt := x.wovenOrd + 1 })) refd
    let t1 := (t.upJobX h (fun x => { x with wovenOrd := x.wovenOrd + 1, carry := aset x.carry ring sp.2 })).upJob h (fun j =>
      { j with woven := j.woven ++ [b], weaveNext := aset j.weaveNext ring (step + 1), wovenCnt := (j.wovenCnt + 1) % 2 ^ 32 })
    let t2 := if fill && !missing.isEmpty then t1.flag 3 loomEvtOff 0 (fun u => u.upLoom (fun l => { l with evFill := true })) else t1
    t2.upLoom (fun l => { l with cUnder := satu 65535 (l.cUnder + under), cFilled := satu 65535 (l.cFilled + filled) })

/-- Weaves the batches of a consumer whose samples are all resident (R286, R287). -/
def State.weaveRing : Nat → State → Nat → Nat → State
  | 0, s, _, _ => s
  | fuel + 1, s, h, ring =>
    match s.job h with
    | none => s
    | some j =>
      let x := s.jobX h
      match aget j.weaveNext ring with
      | none => s
      | some step =>
        -- DEDUCED (log entry 77): a weave begins only once fetching has begun for its step; its close does not wait for that.
        let ready := !(s.vfFrozen j.owner) && !(s.held 0x30000000) && !(s.partHeld .shuffle) && !x.closing && decide (step < j.fetchNext) &&
          (ringNo j x step ring).isSome && !(s.cue.st == .none && j.woven.any (fun b => b.ring == ring))
        let slots := j.find x ring step
        if ready && slots.all (fun q => q.sample.isSome) then State.weaveRing fuel (s.makeBatch h ring step slots false) h ring else s

/-- Weaves what can be woven for a job. -/
def State.weaveJob (s : State) (h : Nat) : State :=
  match s.job h with
  | none => s
  | some j => if j.started then j.weaveNext.foldl (fun t e => State.weaveRing (j.fetchNext + 1 - e.2) t h e.1) s else s

/-- Whether a batch is one of a consumer that has departed and that the table of its step still holds: it is abandoned, even where its ring has
been reattached since (R332, R334). -/
def JobX.leftBehind (x : JobX) (ring step : Nat) : Bool := x.departed.any (fun e => e.1 == ring && e.2.elim true (fun a => decide (step < a)))

/-- Whether an INDEXED position belongs to a step that lies at most 64 steps behind another, or to a later one; of the others nothing is kept. -/
def Job.recent (j : Job) (step warp abs : Nat) : Bool :=
  match j.warps[warp]? with
  | some w => decide (w.absOf (step - 64) 0 ≤ abs)
  | none => false

/-- Hands a woven batch to delivery at its weave close (R286, R294, R319). What it no longer expects is forgotten; a read in hand goes on, and
what it brings is late (R292, R293). -/
def State.handOver (s : State) (h : Nat) (b : Batch) : State :=
  match s.job h with
  | none => s
  | some j =>
    let late := s.cueTimed && decide (j.deadline b.step < s.phase)
    let b' := { b with cueWoven := s.cuePos, flags := b.flags + 32 * b2n late }
    let t := s.upJob h (fun j => { j with woven := j.woven.erase b })
    let t1 := if late then t.flag 3 loomEvtOff 1 (fun u => u.upLoom (fun l => { l with evLate := true })) else t
    let gone := (match aget t1.feed.rings b.ring with
      | some r => r.st == 2
      | none => true) || (s.jobX h).leftBehind b.ring b.step
    let ins := fun (r : FRing) => { r with queue := r.queue.filter (fun q => decide (q.step ≤ b.step)) ++ [b'] ++ r.queue.filter (fun q => decide (b.step < q.step)) }
    let t2 := if gone then (t1.batchRelease b).upFeed (fun f => { f with cOrphan := satu 65535 (f.cOrphan + 1) })
      else t1.upFeed (fun f => { f with rings := aupd f.rings b.ring ins })
    let t3 := t2.upJobX h (fun x =>
      { x with done := x.done.filter (fun e => j.recent b.step e.1 e.2), asked := x.asked.filter (fun e => j.recent b.step e.2.1 e.2.2) })
    t3.upJob h (fun j => { j with fetches := j.fetches.filter (fun f =>
      !((f.stage == 2 || f.stage == 3) && f.step == b.step && f.dest == j.rank && consumerOf ((j.warps.getD f.warp {}).g f.step) (tableAt j (s.jobX h) f.step).length f.k == b.consumer)) })

/-! ## Admission (R292, Table 10.7) -/

/-- Step and k of an absolute position of a warp, as the fetch in hand names it. -/
def Job.fetchOf (j : Job) (warp abs : Nat) : Option Fetch := j.fetches.find? (fun f => f.warp == warp && f.abs == abs)

/-- Changes the fetch of a position. -/
def State.upFetch (s : State) (h warp abs : Nat) (f : Fetch → Fetch) : State :=
  s.upJob h (fun j => { j with fetches := lupd j.fetches (fun x => x.warp == warp && x.abs == abs) f })

/-- Ends the fetch of a position. -/
def State.endFetch (s : State) (h warp abs : Nat) : State :=
  s.upJob h (fun j => { j with fetches := j.fetches.filter (fun x => !(x.warp == warp && x.abs == abs)) })

/-- The consumer of a step has had its weave closed (R292, R293). -/
def Job.closed (j : Job) (x : JobX) (f : Fetch) : Bool :=
  let t := tableAt j x f.step
  let c := consumerOf ((j.warps.getD f.warp {}).g f.step) t.length f.k
  match t[c]? with
  | some e => e.1 == j.rank && (match aget j.weaveNext e.2 with
    | some n => decide (f.step < n)
    | none => true)
  | none => true

/-- Token shape and length of a sample against its warp (Table 10.7): whole rows, or free bytes with RAW. -/
def Warp.shapeOk (w : Warp) (len rows dim rowBytes tkind format groups : Nat) : Bool :=
  decide (len ≤ w.maxLen) && (w.raw || (tkind == w.tkind && format == w.format && groups == w.groups && dim == w.dim &&
    (if w.tkind = 2 then decide (rows * w.groups * (fmtBits w.format / 8) ≤ len) else rows * rowBytes == len)))

/-- Bytes of a row of a warp's tokens. -/
def Warp.rowBytes (w : Warp) : Nat := if w.tkind = 1 then rowLen w.format w.dim else 0

/-- Rows that a payload of an INDEXED warp holds. -/
def Warp.rowsIn (w : Warp) (len : Nat) : Nat :=
  if w.raw then 0 else if w.tkind = 2 then len / (max 1 (w.groups * (fmtBits w.format / 8))) else len / max 1 w.rowBytes

/-- Admits a sample whose payload enters the shuffle buffer now; none when no pages are free. -/
def State.takeSample (s : State) (h : Nat) (m : Sample) (payload : Bytes) : Option State :=
  match s.job h with
  | none => none
  | some j =>
    match s.takePages h (pagesOf payload.length) with
    | none => none
    | some (pages, t) =>
      match t.takeSlot h with
      | none => none
      | some (slot, u) =>
        let m' : Sample := { m with pages := pages, slot := slot }
        let v := (u.putPages j.base pages payload).gWrite (j.headAddr m') m'.bytes
        let no := (v.jobX h).sampleNo
        let w := ((v.upJob h (fun j => { j with samples := aset j.samples no m' })).upJobX h (fun x => { x with sampleNo := no + 1 })).ao 6 1
        some w

/-- Notes a position as admitted, for the duplicates to come (R290). -/
def State.noteDone (s : State) (h warp abs : Nat) : State := s.upJobX h (fun x => { x with done := x.done ++ [(warp, abs)] })

/-- The record of an INDEXED sample whose payload has been read. -/
def Job.indexed (j : Job) (w : Warp) (f : Fetch) (payload : Bytes) : Sample :=
  let e := f.abs / w.count
  let p := f.abs % w.count
  { sid := w.dataset * 2 ^ 40 + sigma j.key e f.warp w.count p, stream := 0xFFFFFFFF, warp := f.warp, modality := w.modality,
    flags := if f.rescue then 64 else 0, cueIngest := f.cue, check := crc64 payload, len := payload.length, tkind := w.tkind, format := w.format,
    groups := w.groups, rows := w.rowsIn payload.length, dim := w.dim, rowBytes := w.rowBytes, epoch := e, position := p, origin := j.rank,
    abs := f.abs }

/-- An INDEXED sample that has been read is admitted here or sent to its consumer's member; one without pages waits (R285,
R288, R292). -/
def State.admitFetch (s : State) (h : Nat) (f : Fetch) : State :=
  match s.job h with
  | none => s
  | some j =>
    let x := s.jobX h
    let w := j.warps.getD f.warp {}
    let m := j.indexed w f f.data
    let drop := fun (g : Loom → Loom) => (s.sampleDrop g).upFetch h f.warp f.abs (fun y => { y with stage := 3, data := [] })
    if !(w.shapeOk m.len m.rows m.dim m.rowBytes m.tkind m.format m.groups) then drop (fun l => { l with cShape := inc16 l.cShape })
    else if f.dest ≠ j.rank ∧ !f.rescue then (s.endFetch h f.warp f.abs).xRecord h f.dest m f.data
    else if x.done.contains (f.warp, f.abs) then ((s.upLoom (fun l => { l with cDup := inc16 l.cDup })).ao 25 1).endFetch h f.warp f.abs
    else if j.closed x f then ((s.upLoom (fun l => { l with cLate := inc16 l.cLate })).ao 25 1).endFetch h f.warp f.abs
    else match s.takeSample h m f.data with
      | none => s.upFetch h f.warp f.abs (fun y => { y with stage := 4 })
      | some t => ((t.endFetch h f.warp f.abs).noteDone h f.warp f.abs).weaveJob h

/-- Whether a local producer waits for pages (LOOM_STAT.STALL). -/
def Loom.stall (l : Loom) : Bool := l.jobs.any (fun e => e.2.fetches.any (fun f => f.stage == 4)) || l.offered.any (fun o => o.waits)

/-! ## Fetching (R285, R287) -/

/-- Where the index entry of a position lies (R285). -/
def Job.indexAt (j : Job) (w : Warp) (warp abs : Nat) : Nat :=
  w.indexOff + 16 * sigma j.key (abs / w.count) warp w.count (abs % w.count)

/-- Asks for an index entry of a position, as an internal reader (R124, R285). -/
def State.readIndex (s : State) (h : Nat) (j : Job) (w : Warp) (warp abs : Nat) : State :=
  s.intBegin (.index h warp abs) w.ctrl w.nsid (j.indexAt w warp abs) 16

/-- Rank of the member that owns an absolute position: sample index i is owned by rank i mod MEMBERS (R288). -/
def Job.ownerOf (j : Job) (warp abs : Nat) : Nat :=
  let w := j.warps.getD warp {}
  sigma j.key (abs / w.count) warp w.count (abs % w.count) % j.members

/-- A resend request for a position goes to a rank (R289). -/
def State.askAgain (s : State) (h : Nat) (j : Job) (rank warp abs : Nat) : State :=
  let n := (j.warps.getD warp {}).count
  s.xSend h rank (xNotice j.jobId j.rank 3 warp (abs / n) (abs % n) 0 0)

/-- Begins the fetch of one position (R285): one that this member owns is read, and one that another owns is expected of it, and asked for
again where it had arrived before the shuffle buffer was reset (R297). -/
def State.fetchBegin (s : State) (h : Nat) (j : Job) (f : Fetch) : State :=
  let t := s.upJob h (fun j => { j with fetches := j.fetches ++ [f] })
  if f.stage = 0 then t.readIndex h j (j.warps.getD f.warp {}) f.warp f.abs
  else if (s.jobX h).lost.contains (f.warp, f.abs) then
    (t.upJobX h (fun x => { x with lost := x.lost.erase (f.warp, f.abs) })).askAgain h j (j.ownerOf f.warp f.abs) f.warp f.abs
  else t

/-- A resident sample whose consumer now lies on another member goes there from memory (R288). -/
def State.sendResident (s : State) (h : Nat) (j : Job) (no dest : Nat) : State :=
  match aget j.samples no with
  | none => s
  | some m =>
    let t := s.xRecord h dest m (s.payload j m)
    if m.refs = 0 then t.freeSample h no else t

/-- What a member does about one position of a step (R285, R288): as its consumer's member it needs the sample, as its owner it reads it for
whichever member that is. -/
def State.fetchOne (s : State) (h i k step dest : Nat) : State :=
  match s.job h with
  | none => s
  | some j =>
    let abs := (j.warps.getD i {}).absOf step k
    let own := j.ownerOf i abs
    let f : Fetch := { warp := i, abs := abs, step := step, k := k, dest := dest, stage := if own = j.rank then 0 else 2, cue := s.cuePos }
    if own ≠ j.rank ∧ dest ≠ j.rank then s
    else if dest ≠ j.rank ∧ step < (s.jobX h).sentNext then s
    else match j.at_ i abs, j.fetchOf i abs with
      | some no, _ => if dest = j.rank then s else s.sendResident h j no dest
      | none, some _ => s.upFetch h i abs (fun y => { y with step := step, k := k, dest := dest })
      | none, none => s.fetchBegin h j f

/-- Begins the fetches of one step, by warp and then by k (R285, R288). -/
def State.fetchStep (s : State) (h step : Nat) : State :=
  match s.job h with
  | none => s
  | some j =>
    let t := tableAt j (s.jobX h) step
    let u := (List.range j.warps.length).foldl (fun u i =>
      let w := j.warps.getD i {}
      if w.kind = 0 then (List.range (w.g step)).foldl (fun v k =>
        v.fetchOne h i k step (((t[consumerOf (w.g step) t.length k]?).map (fun e => e.1)).getD j.rank)) u
      else u) s
    u.upJob h (fun j => { j with fetchNext := step + 1 })

/-- Whether fetching for the next step of a job may begin (R285, R287, R331). -/
def State.fetchDue (s : State) (h : Nat) : Bool :=
  match s.job h with
  | none => false
  | some j =>
    let x := s.jobX h
    j.started && !x.closing && !(s.held 0x30000000) && !(s.partHeld .shuffle) && !(j.holdFrom.any (fun e => decide (e.2.2.2 ≤ j.fetchNext))) &&
      !(s.vfFrozen j.owner) &&
      (if s.cue.st = .none then j.weaveNext.all (fun e => decide (j.fetchNext ≤ e.2 + j.fetchSteps))
       else decide (j.fetchNext ≤ s.step + j.fetchSteps))

/-- Whether a batch that is woven or with delivery lists a sample of a job. -/
def State.listed (s : State) (h no : Nat) : Bool :=
  let has := fun (b : Batch) => b.job == h && b.entries.any (fun e => e.1 == no)
  ((s.job h).elim false (fun j => j.woven.any has)) ||
    s.feed.rings.any (fun e => e.2.queue.any has || e.2.redo.any has || e.2.issued.any (fun d => has d.batch))

/-- Drops the newest woven batch of a ring (R296): what it drew is resident and unreferenced again, and what it carried in is carried again; a
sample that no batch lists any longer is not woven. -/
def State.dropBatch (s : State) (h : Nat) (b : Batch) : State :=
  let out := agetD (s.jobX h).carry b.ring []
  let drawn := b.carried.foldl (fun l e => l.erase e) (b.entries ++ out)
  let t := (s.upJob h (fun j =>
    { j with woven := j.woven.erase b, weaveNext := aupd j.weaveNext b.ring (fun n => min n b.step),
             samples := drawn.foldl (fun m e => aupd m e.1 (fun y => { y with refs := y.refs - 1 })) j.samples })).upJobX h (fun x =>
      { x with carry := aset x.carry b.ring b.carried })
  b.entries.foldl (fun u e => if u.listed h e.1 then u else u.upSample h e.1 (fun m => { m with step := 0, wovenAt := 0 })) t

/-- Drops woven batches that a test picks, the newest first; their samples are kept (R296). -/
def State.dropWoven (s : State) (h : Nat) (p : Batch → Bool) : State :=
  match s.job h with
  | none => s
  | some j => ((j.woven.filter p).mergeSort (fun a b => decide (b.step ≤ a.step))).foldl (fun t b => t.dropBatch h b) s

/-- Entries carried to a ring's next batch are forgotten where the weaves go back behind batches handed to delivery: the steps served again
draw them again (R296, DEDUCED, log entry 77). -/
def State.dropCarry (s : State) (h step : Nat) : State :=
  match s.job h with
  | none => s
  | some j =>
    ((s.jobX h).carry.filter (fun e => decide (step < agetD j.weaveNext e.1 0))).foldl (fun t e =>
      (e.2.foldl (fun u c => u.release h c.1) t).upJobX h (fun x => { x with carry := aset x.carry e.1 [] })) s

/-- Serves a job again from a step on: fetching and weaving go back to it (R283, R296, R298). A position whose sample is no longer resident
may be admitted again. -/
def State.loomRewind (s : State) (h step : Nat) : State :=
  let t := (((s.dropWoven h (fun b => decide (step ≤ b.step))).dropCarry h step).upJob h (fun j =>
    { j with fetchNext := min j.fetchNext step, weaveNext := j.weaveNext.map (fun e => (e.1, min e.2 step)),
             fetches := j.fetches.filter (fun f => decide (f.step < step)) }))
  match t.job h with
  | none => t
  | some j => t.upJobX h (fun x =>
      { x with done := x.done.filter (fun e => (j.at_ e.1 e.2).isSome || decide (e.2 < (j.warps.getD e.1 {}).absOf step 0)),
               waits := x.waits.filter (fun e => decide (e.2 < step)), sentNext := min x.sentNext step })

/-- What the Loom does when a master change takes effect (R296, Table 10.9): `old` and `new` are the steps before and after. -/
def State.loomMaster (s : State) (old new : Nat) : State :=
  s.loom.jobs.foldl (fun t e =>
    let j := e.2
    if !j.started then t
    else if new < old then
      let n := j.woven.length
      let u := t.loomRewind e.1 (max new j.s0)
      let v := u.upJob e.1 (fun j => { j with weaveNext := j.weaveNext.map (fun w => (w.1, max new j.s0)) })
      if n = 0 then v else v.flag 3 loomEvtOff 3 (fun z => z.upLoom (fun l => { l with evGen := true }))
    else
      let late := j.woven.filter (fun b => t.cueTimed && decide (j.deadline b.step < t.phase))
      if late.isEmpty then t
      else
        let u := late.foldl (fun u b => (u.upJob e.1 (fun j => { j with woven := j.woven.erase b })).batchRelease b) t
        let v := u.upLoom (fun l => { l with cLate := satu 65535 (l.cLate + late.length) })
        (v.flag 3 loomEvtOff 3 (fun z => z.upLoom (fun l => { l with evGen := true }))).flag 3 loomEvtOff 1 (fun z =>
          z.upLoom (fun l => { l with evLate := true }))) s

/-- Whether the GEN write of an issued delivery has been sent, or its outcome is uncertain (R317): on a feed port it lands with that
write; on a queue pair the message has left its queue. -/
def State.genOut (s : State) (ring : Nat) (r : FRing) (d : Delivery) : Bool :=
  d.state != 0 || (r.transport == 1 && (match s.qp r.qpn with
    | some q => !(q.tx.any (fun m => m.op == .delivery ring d.n && !m.sent))
    | none => true))

/-- The shuffle buffer is reset (R297): residents, woven batches and landing pages are gone, the pages go back to their senders (R289); batches that have not landed are
served again from their steps, by the member that holds their consumer: what this member had sent or is reading for others stands, and what had
come from others is asked for again. -/
def State.loomReset (s : State) : State :=
  s.loom.jobs.foldl (fun t e =>
    let x := t.jobX e.1
    let grants := (x.granted.map (fun g => g.2 + (e.2.xchgMib * 16))).foldl max 0
    let first := fun (ring next : Nat) =>
      match aget t.feed.rings ring with
      | none => next
      | some r => ((r.queue.map (fun b => b.step)) ++ (e.2.woven.filter (fun b => b.ring == ring)).map (fun b => b.step) ++
          (r.redo.map (fun b => b.step)) ++ ((r.issued.filter (fun d => !(t.genOut ring r d))).map (fun d => d.batch.step))).foldl min next
    let low := (e.2.weaveNext.map (fun w => first w.1 w.2)).foldl min e.2.fetchNext
    let landed := e.2.samples.filter (fun m => m.2.landing)
    let back := landed.foldl (fun u m => u.xSend e.1 m.2.origin (xNotice e.2.jobId e.2.rank 2 0 0 0 (m.2.pages.headD 0 - agetD x.granted m.2.origin 0)
      m.2.pages.length)) t
    (back.upJob e.1 (fun j =>
      { j with samples := [], woven := [], freePages := [], fetches := j.fetches.filter (fun f => f.dest != j.rank), fetchNext := low,
               weaveNext := j.weaveNext.map (fun w => (w.1, first w.1 w.2)) })).upJobX e.1
      (fun x => { x with pageNext := grants, slotNext := 0, freeSlots := [], carry := [], done := [], asked := [], waits := [],
                         sentNext := max x.sentNext e.2.fetchNext,
                         lost := e.2.samples.filterMap (fun m =>
                           if (e.2.warps.getD m.2.warp {}).kind = 0 ∧ e.2.ownerOf m.2.warp m.2.abs ≠ e.2.rank then some (m.2.warp, m.2.abs) else none) })) s

/-! ## Closing (R275, R292, R299) -/

/-- What LOOM_CLOSE_JOB, FEED_JOIN and FEED_RELEASE wait for. -/
def wLoomClose : Nat := 50
def wJoin : Nat := 51
def wRelease : Nat := 52

/-- Whether a ring holds a batch of a job. -/
def FRing.holds (r : FRing) (h : Nat) : Bool :=
  r.queue.any (fun b => b.job == h) || r.redo.any (fun b => b.job == h) || r.issued.any (fun d => d.batch.job == h)

/-- A job is gone: its queue pairs, regions, leads and ring names with it. -/
def State.loomGone (s : State) (h : Nat) : State :=
  let x := s.jobX h
  let t := x.xqps.foldl (fun t e => t.qpFree e.2) s
  let u := ([x.xmbox, x.lmbox] ++ x.landing.map (fun e => e.2)).foldl (fun t k => t.regionDel k) t
  let v := (u.upCue (fun c => { c with leads := c.leads.filter (fun l => l.job != h) })).upFeed (fun f =>
    { f with rings := f.rings.map (fun e =>
               if e.2.job = some h then (e.1, { e.2 with job := none, st := if e.2.st = 1 then 0 else e.2.st,
                                                         prev := if e.2.prev = 1 then 0 else e.2.prev, joinWait := false }) else e),
             changes := f.changes.filter (fun c => c.job != h) })
  let w := (v.upLoom (fun l => { l with jobs := adel l.jobs h, jobx := adel l.jobx h })).intDropIf (fun u =>
    match u with | .index k _ _ => k == h | .payload k _ _ => k == h | _ => false)
  (w.finishAll (fun c => c.kind == wJoin && c.aux / 1024 == h) sAborted 0 0).finishAll (fun c => c.kind == wLoomClose && c.aux == h) sOk 0 0

/-- A job that is closing is gone once every batch handed to delivery has landed or been abandoned. -/
def State.loomSettle (s : State) (h : Nat) : State :=
  if (s.job h).isSome && (s.jobX h).closing && !(s.feed.rings.any (fun e => e.2.holds h)) then s.loomGone h else s

/-- A job begins to close: what is not handed to delivery goes, and blocks offered to its warps are dropped (Table 10.7). -/
def State.loomClose (s : State) (h : Nat) : State :=
  match s.job h with
  | none => s
  | some j =>
    let t := s.dropWoven h (fun _ => true)
    let u := (t.upJob h (fun j => { j with fetches := [], woven := [] })).upJobX h (fun x => { x with closing := true, carry := [], sendq := [] })
    let v := u.upLoom (fun l => { l with offered := l.offered.filter (fun o => !j.warps.any (fun w => w.num == o.warp)) })
    v.tapKick.loomSettle h

/-! ## Leads (R57, R286) -/

/-- PF BAR0 offset of CUE_STAT. -/
def cueStatOff : Nat := 0x00100008

/-- Whether a registered lead is short of its pipeline time. -/
def CueLead.short (l : CueLead) (mean : Nat) : Bool :=
  decide (0 < mean) && decide (l.lead * mean < l.pipeUs * 1000 * 65536 + l.cutPh * mean)

/-- Judges registered leads (R57). -/
def State.judgeLeads (s : State) (l : List CueLead) : State :=
  if l.any (fun x => x.short s.cue.meanNs) then s.flag 0 cueStatOff 9 (fun u => u.upCue (fun c => { c with leadShort := true })) else s

end Sys2Proof.Machine
end

