-- ==== Sys2Proof/Machine/Loom.lean ====
section
/-!
DEFINITION. The Loom's commands and events (chapter 10).
-/
namespace Sys2Proof.Machine

open Sys2Proof

/-- Unit of the Loom's scope. -/
def uLoom : Nat := 0x30000000

/-- A job of another function is named (R275). -/
def jobAuth (off : Nat) (c : Caller) (_ : Hdr) (p : Bytes) (s : State) : Option Nat :=
  match s.job (fld p off 2) with
  | some j => if j.owner = c.fn then none else some 4
  | none => none

/-- A command on an open job, or LOOM_NO_JOB (Table 10.12). -/
def State.onJob (s : State) (p : Bytes) (f : Nat → Job → Verdict) : Verdict :=
  match s.job (fld p 0 2) with
  | some j => if (s.jobX (fld p 0 2)).closing then .refuse 0x0010 0 else f (fld p 0 2) j
  | none => .refuse 0x0010 0

/-- A command that is taken before start at once, and after it staged in the Loom's intermission (R291, R299). -/
def State.loomSetting (s : State) (opcode : Nat) (c : Caller) (h : Hdr) (p : Bytes) (same : Staged → Bool) (started : Bool) (result : Nat)
    (apply : State → State) : Verdict :=
  if !started then .done sOk 0 result (apply s)
  else
    match s.settingStop c uLoom true with
    | some v => v
    | none => s.setting opcode c { h with unit := uLoom } p same result apply

/-! ## LOOM_OPEN_JOB -/

/-- A default in place of 0 (Table 10.1). -/
def orElse (v d : Nat) : Nat := if v = 0 then d else v

/-- The job that LOOM_OPEN_JOB describes (Table 10.1). -/
def jobFrom (p : Bytes) (fn : Nat) : Job :=
  { owner := fn, jobId := fld p 0 4, members := fld p 4 2, rank := fld p 6 2, consumers := fld p 8 2, format := fld p 10 1, fill := fld p 11 1,
    bufMib := fld p 12 4, key := fld p 16 8, s0 := fld p 24 8, lead := orElse (fld p 32 4) 131072, cutPh := orElse (fld p 36 4) 8192,
    pipeUs := fld p 40 4, fetchSteps := orElse (fld p 44 2) 4, rescuePh := orElse (fld p 46 2) 16384, seqTokens := fld p 48 4,
    rowsMax := fld p 52 4, xchgMib := orElse (fld p 56 4) 256, fetchNext := fld p 24 8 }

/-- Bytes of a job's region and header array (R276, R278). -/
def Job.regionSize (j : Job) : Nat := mib j.bufMib + 128 * j.bufMib

/-- First place in the shuffle buffer where `n` bytes fit between the regions of jobs. -/
def placeIn (n hi : Nat) : List (Nat × Nat) → Nat → Option Nat
  | [], a => if a + n ≤ hi then some a else none
  | (b, m) :: t, a => if a + n ≤ b then some a else placeIn n hi t (max a (b + m))

/-- Where a job's region goes, behind the descriptor table (R276). -/
def State.placeJob (s : State) (n : Nat) : Option Nat :=
  let l := (s.loom.jobs.map (fun e => (e.2.base, (s.jobX e.1).size))).mergeSort (fun a b => decide (a.1 ≤ b.1))
  placeIn n (s.partBase .shuffle + s.partLen .shuffle) l (s.partBase .shuffle + mib 256)

/-- LOOM_OPEN_JOB (R275, R276, R286). DEDUCED (log entry 77): a job of several members comes through a troupe path, so a command that comes to this
device itself may not open one, and MEMBERS is the field at fault. -/
def opLoomOpenJob : OpSpec :=
  { code := 0x0400, role := .tenant, result := true, len := fun _ => 64, feats := fun p => if 1 < fld p 4 2 then [1] else [],
    fields := fun _ p =>
      let j := jobFrom p 0
      let packed := j.format == 1
      [(4, decide (1 ≤ j.members) && decide (j.members ≤ 1024)),
       (8, decide (1 ≤ j.consumers) && decide (j.consumers ≤ 8192)), (10, decide (j.format ≤ 1)), (11, decide (j.fill ≤ 2)),
       (12, j.bufMib % 2 == 0), (24, decide (j.s0 < 2 ^ 40)), (32, decide (j.lead ≤ 16777216)), (44, decide (j.fetchSteps ≤ 64)),
       (48, if packed then decide (1 ≤ j.seqTokens) && decide (j.seqTokens ≤ 65536) else j.seqTokens == 0),
       (52, packed || j.rowsMax == 0), (56, j.xchgMib % 2 == 0), rsv p 60 4],
    auth := fun c _ p _ => if c.tenant ∧ 1 < fld p 4 2 then some 3 else none,
    run := fun c hd p s =>
      let j := jobFrom p c.fn
      let land := (j.members - 1) * j.xchgMib
      match freeKey s.loom.jobs 64 0, s.placeJob j.regionSize with
      | some h, some a =>
        if j.bufMib < land then noResource
        else if 1 < j.members ∧ hd.chan.isHead = false then badParam 4
        else if j.members ≤ j.rank then badParam 6
        else if j.lead < j.cutPh + 4096 then badParam 32
        else
          let grants := ((List.range j.members).filter (fun r => r != j.rank)).zipIdx.map (fun e => (e.1, e.2 * j.xchgMib * 16))
          let x : JobX := { granted := grants, pageNext := land * 16, size := j.regionSize }
          .done sOk 0 h (s.upLoom (fun l =>
            { l with jobs := aset l.jobs h { j with base := a, hdrBase := a + mib j.bufMib }, jobx := aset l.jobx h x }))
      | _, _ => noResource }

/-- LOOM_OPEN_JOB. -/
def execLoomOpenJob (h : Hdr) (p : Bytes) (s : State) : Res := runPkt opLoomOpenJob h p s

/-- LOOM_CLOSE_JOB (R299). -/
def opLoomCloseJob : OpSpec :=
  { code := 0x0401, role := .tenant, len := fun _ => 8, fields := fun _ p => [rsv p 2 6], auth := jobAuth 0,
    run := fun _ _ p s => s.onJob p (fun h _ =>
      let t := s.loomClose h
      if (t.job h).isSome then .wait wLoomClose h t else .ok t) }

/-- LOOM_CLOSE_JOB. -/
def execLoomCloseJob (h : Hdr) (p : Bytes) (s : State) : Res := runPkt opLoomCloseJob h p s

/-! ## LOOM_ADD_WARP -/

/-- The warp that LOOM_ADD_WARP describes (Table 10.2). -/
def warpFrom (p : Bytes) (num s0 : Nat) : Warp :=
  { num := num, kind := fld p 2 1, modality := fld p 3 1, count := fld p 8 8, nsid := fld p 16 4, ctrl := fld p 20 2, drop := fld p 22 1,
    swap := bit (fld p 23 1) 0, raw := bit (fld p 23 1) 1, indexOff := fld p 24 8, maxLen := fld p 32 4, tkind := fld p 36 1,
    format := fld p 37 1, groups := fld p 38 1, dim := fld p 40 4, dataset := fld p 44 4, segs := [(s0, s0, 0, fld p 4 4)] }

/-- Warp numbers in use, and those that staged LOOM_ADD_WARP commands hold. -/
def State.warpNums (s : State) : List Nat :=
  s.loom.jobs.flatMap (fun e => e.2.warps.map (fun w => w.num)) ++
    s.cmd.inters.flatMap (fun i => (i.staged.filter (fun x => x.opcode == 0x0402)).map (fun x => fld x.params 48 2))

/-- The lowest free warp number (R275). -/
def State.freeWarp (s : State) : Option Nat := let l := s.warpNums; (List.range 4096).find? (fun n => !l.contains n)

/-- Whether a packed job refuses a warp's shape (R277). -/
def Job.shapeBad (j : Job) (w : Warp) : Bool :=
  j.format == 1 && (w.tkind == 0 || (match j.warps with
    | f :: _ => f.tkind != w.tkind || f.format != w.format || f.dim != w.dim
    | [] => false))

/-- The first step from which no consumer of a job on this member has had a batch handed to delivery, at least `at_`. -/
def Job.openFrom (j : Job) (at_ : Nat) : Nat :=
  (j.weaveNext.map (fun e => ((j.woven.filter (fun b => b.ring == e.1)).map (fun b => b.step)).foldl min e.2)).foldl max (max at_ j.s0)

/-- Adds the warp of an accepted LOOM_ADD_WARP, whose number stands behind its parameters. One added after start contributes from the step on at
which the settings take effect, by the positions of R283, and is fetched at once for the steps whose fetch position has passed (R285). -/
def State.applyAddWarp (s : State) (p : Bytes) (at_ : Nat) : State :=
  let h := fld p 0 2
  match s.job h with
  | none => s
  | some j =>
    let w := warpFrom p (fld p 48 2) j.s0
    if !j.started then s.upJob h (fun j => { j with warps := j.warps ++ [w] })
    else
      let from_ := j.openFrom at_
      let g : Nat × Nat × Nat × Nat := (0, j.s0, 0, 0)
      let w' := { w with segs := (if from_ = 0 then [] else [g]) ++ [(from_, j.s0, 0, fld p 4 4)] }
      (s.upJob h (fun j => { j with warps := j.warps ++ [w'] })).loomRewind h from_

/-- Whether a staged LOOM_ADD_WARP still fits (R89). -/
def State.okAddWarp (s : State) (p : Bytes) : Bool :=
  match s.job (fld p 0 2) with
  | some j => !(j.shapeBad (warpFrom p 0 0)) && !(s.jobX (fld p 0 2)).closing
  | none => false

/-- LOOM_ADD_WARP (R277, R283). -/
def opLoomAddWarp : OpSpec :=
  { code := 0x0402, role := .tenant, result := true, len := fun _ => 48, auth := jobAuth 0,
    fields := fun _ p =>
      let k := fld p 2 1
      let raw := bit (fld p 23 1) 1
      let tk := fld p 36 1
      [(2, decide (k ≤ 1)), (4, decide (fld p 4 4 ≤ 1048576)), (8, decide (1 ≤ fld p 8 8) && decide (fld p 8 8 ≤ 2 ^ 40)),
       (16, k == 0 || fld p 16 4 == 0), (22, decide (fld p 22 1 < 16)), (23, decide (fld p 23 1 < 4)), (24, k != 0 || fld p 24 8 % 4096 == 0),
       (32, decide (fld p 32 4 ≤ 67108864)), (36, if raw then tk == 0 else tk == 1 || tk == 2), (37, decide (fld p 37 1 ≤ 13)),
       (38, tk == 2 || fld p 38 1 == 0), rsv p 39 1, (44, decide (fld p 44 4 < 16777216))],
    run := fun c h p s =>
      let started := (s.job (fld p 0 2)).any (fun j => j.started && !(s.jobX (fld p 0 2)).closing)
      if started && (s.settingStop c uLoom true).isSome then (s.settingStop c uLoom true).getD badState
      else match s.freeWarp with
        | none => noResource
        | some n => s.onJob p (fun _ j =>
          let w := warpFrom p 0 j.s0
          let q := padTo 48 p ++ leBytes 2 n
          if w.kind = 0 ∧ (s.ns w.ctrl w.nsid).isNone then badParam 16
          else if w.kind = 0 ∧ w.ctrl ≠ c.fn then badParam 20
          else if j.shapeBad w then .refuse 0x0011 0
          else s.loomSetting 0x0402 c h q (fun _ => false) j.started n (fun t => t.applyAddWarp q 0)) }

/-- LOOM_ADD_WARP. -/
def execLoomAddWarp (h : Hdr) (p : Bytes) (s : State) : Res := runPkt opLoomAddWarp h p s

/-! ## LOOM_SET_LAYOUT -/

/-- The member addresses of a layout. -/
def layoutAddrs (p : Bytes) (members : Nat) : List (Nat × Bytes) :=
  (List.range members).map (fun r => (fld p (8 + 32 * r) 1, sub p (24 + 32 * r) 16))

/-- The consumer table of a layout. -/
def layoutTable (p : Bytes) (members consumers : Nat) : List (Nat × Nat) :=
  (List.range consumers).map (fun c => (fld p (8 + 32 * members + 8 * c) 2, fld p (10 + 32 * members + 8 * c) 2))

/-- Whether a layout is one that R291 and R314 allow for a job. -/
def State.layoutOk (s : State) (h : Nat) (j : Job) (p : Bytes) : Bool :=
  let a := layoutAddrs p j.members
  let t := layoutTable p j.members j.consumers
  let mine := (t.filter (fun e => e.1 == j.rank)).map (fun e => e.2)
  a.all (fun e => (e.1 == 4 || e.1 == 6) && e.2.any (fun b => b != 0)) && t.all (fun e => decide (e.1 < j.members)) &&
    decide (mine.eraseDups.length = mine.length) &&
    mine.all (fun r => match aget s.feed.rings r with
      | some x => x.owner == j.owner && !(x.st == 1 && x.job != some h)
      | none => false)

/-- Reserved bytes of a layout's entries, for the job that it names. -/
def layoutFields (s : State) (p : Bytes) : List (Nat × Bool) :=
  match s.job (fld p 0 2) with
  | none => []
  | some j =>
    (List.range j.members).map (fun r => let o := 8 + 32 * r; (o + 1, (sub p (o + 1) 15).all (fun b => b == 0))) ++
      (List.range j.consumers).map (fun c => rsv p (8 + 32 * j.members + 8 * c + 4) 4)

/-- The rings of this member that a table names become LIVE with the job, its others IDLE (R314). -/
def State.bindRings (s : State) (h : Nat) (rings : List Nat) : State :=
  s.upFeed (fun f => { f with rings := f.rings.map (fun e =>
    if rings.contains e.1 then
      (e.1, { e.2 with job := some h, st := if e.2.st = 0 then 1 else e.2.st, prev := if e.2.prev = 0 then 1 else e.2.prev })
    else if e.2.job = some h then
      (e.1, { e.2 with job := none, st := if e.2.st = 1 then 0 else e.2.st, prev := if e.2.prev = 1 then 0 else e.2.prev })
    else e) })

/-- Puts a layout in force from a step on (R291). -/
def State.applyLayout (s : State) (p : Bytes) (at_ : Nat) : State :=
  let h := fld p 0 2
  match s.job h with
  | none => s
  | some j =>
    let t := layoutTable p j.members j.consumers
    let a := layoutAddrs p j.members
    if !j.started then s.upJob h (fun j => { j with addrs := a, table := t, layoutSet := true })
    else
      let from_ := j.openFrom at_
      let mine := (t.filter (fun e => e.1 == j.rank)).map (fun e => e.2)
      let u := (s.upJob h (fun j => { j with addrs := a, weaveNext := mine.foldl (fun m r => if ahas m r then m else aset m r from_) j.weaveNext })).upJobX h
        (fun x => { x with newTables := x.newTables ++ [(from_, t)], departed := x.departed.map (fun e => (e.1, some (e.2.getD from_))) })
      (u.bindRings h mine).loomRewind h from_

/-- Whether a staged layout may take effect (R89). -/
def State.okLayout (s : State) (p : Bytes) : Bool :=
  match s.job (fld p 0 2) with
  | some j => s.layoutOk (fld p 0 2) j p && !(s.jobX (fld p 0 2)).closing
  | none => false

/-- Two staged commands name the same job. -/
def sameJob (p : Bytes) (x : Staged) : Bool := fld x.params 0 2 == fld p 0 2

/-- LOOM_SET_LAYOUT (R291, R314). -/
def opLoomSetLayout : OpSpec :=
  { code := 0x0403, role := .tenant, len := fun _ => 8, auth := jobAuth 0, fields := fun s p => rsv p 2 6 :: layoutFields s p,
    run := fun c h p s => s.onJob p (fun n j =>
      if p.length < 8 + 32 * j.members + 8 * j.consumers then .refuse sBadParam 36
      else if j.started && (s.settingStop c uLoom true).isSome then (s.settingStop c uLoom true).getD badState
      else if !(s.layoutOk n j p) then .refuse 0x0013 0
      else s.loomSetting 0x0403 c h p (sameJob p) j.started 0 (fun t => t.applyLayout p 0)) }

/-- LOOM_SET_LAYOUT. -/
def execLoomSetLayout (h : Hdr) (p : Bytes) (s : State) : Res := runPkt opLoomSetLayout h p s

/-! ## LOOM_START -/

/-- Mailbox entries of one sender (log entry 24). -/
def xEntries : Nat := 16

/-- Where the descriptor table holds the mailboxes of a job (log entry 24): exchange, then layout. -/
def State.xBase (s : State) (h : Nat) : Nat := s.partBase .shuffle + 4 * 1048576 * h

/-- Joins a job to one other rank: a sprayed queue pair, the landing region, and what the peer registered, which the spec does
not say how this member learns (log entry 24). -/
def State.xJoin (s : State) (h : Nat) (j : Job) (rank : Nat) : Option State :=
  let a := j.addrs.getD rank (4, [])
  let q : Qp := { st := .rts, paths := 16, mtu := 5, autoRec := true, destQpn := s.freeNat 16777216, rqPsn := s.spent.freeNat 16777216,
                  sqPsn := s.spent.spent.freeNat 16777216, timeout := 4, retry := 3, portMask := 0xFFFF, dest := a.2, addrType := a.1,
                  owner := .exchange h rank }
  let s1 := s.spent.spent.spent
  match s1.qpAlloc q true false with
  | none => none
  | some (qpn, t) =>
    match t.regionAdd { base := j.base + agetD (t.jobX h).granted rank 0 * pageBytes, len := mib j.xchgMib, write := true, owner := .exchange h } with
    | none => none
    | some (k, u) =>
      let peer := (u.freeNat (2 ^ 32), u.spent.freeNat (2 ^ 32), u.spent.spent.freeNat (2 ^ 32))
      some (u.spent.spent.spent.upJobX h (fun x =>
        { x with xqps := aset x.xqps rank qpn, landing := aset x.landing rank k, peers := aset x.peers rank peer,
                 freeLand := aset x.freeLand rank (List.range (j.xchgMib * 16)) }))

/-- Makes a job's mailboxes and joins it to every other rank (R288, R330). -/
def State.xOpen (s : State) (h : Nat) (j : Job) : Option State :=
  if j.members ≤ 1 then some s
  else
    let len := j.members * xEntries * 128
    match s.regionAdd { base := s.xBase h, len := len, write := true, mbox := true, entryLog2 := 7, owner := .exchange h } with
    | none => none
    | some (a, t) =>
      match t.regionAdd { base := s.xBase h + 2097152, len := len, write := true, mbox := true, entryLog2 := 7, owner := .layout h } with
      | none => none
      | some (b, u) =>
        ((List.range j.members).filter (fun r => r != j.rank)).foldl (fun o r => o.bind (fun v => v.xJoin h j r))
          (some (u.upJobX h (fun x => { x with xmbox := a, lmbox := b })))

/-- Starts a job: its rings are LIVE, its lead is registered and judged (R286, R287, R314). -/
def State.loomBegin (s : State) (h : Nat) (j : Job) : State :=
  let mine := (j.table.filter (fun e => e.1 == j.rank)).map (fun e => e.2)
  let t := (s.upJob h (fun j => { j with started := true, fetchNext := j.s0, weaveNext := mine.foldl (fun m r => aset m r j.s0) [] })).bindRings h mine
  let l : CueLead := { job := h, lead := j.lead, pipeUs := j.pipeUs, cutPh := j.cutPh }
  (t.upCue (fun c => { c with leads := c.leads.filter (fun x => x.job != h) ++ [l] })).judgeLeads [l]

/-- LOOM_START (R286, R299). -/
def opLoomStart : OpSpec :=
  { code := 0x0404, role := .tenant, len := fun _ => 8, auth := jobAuth 0, fields := fun _ p => [rsv p 2 6],
    run := fun _ _ p s => s.onJob p (fun h j =>
      if j.started ∨ j.layoutSet = false then badState
      else match s.xOpen h j with
        | none => noResource
        | some t => .ok (t.loomBegin h j)) }

/-- LOOM_START. -/
def execLoomStart (h : Hdr) (p : Bytes) (s : State) : Res := runPkt opLoomStart h p s

/-! ## Cursors, order, status and share -/

/-- The step at which a job stands. -/
def State.jobStep (s : State) (j : Job) : Nat :=
  if s.cue.st = .none then (match j.weaveNext with
    | [] => j.s0
    | e :: t => t.foldl (fun m x => min m x.2) e.2)
  else s.step

/-- The cursor record of a job at a step (Table 10.10). -/
def Job.cursor (j : Job) (st : Nat) : Bytes :=
  leBytes 4 j.jobId ++ leBytes 2 j.warps.length ++ zeros 2 ++ leBytes 8 j.key ++ leBytes 8 st ++ zeros 40 ++
    j.warps.flatMap (fun w =>
      let g := w.seg st
      [BitVec.ofNat 8 w.kind, 0, 0, 0] ++ leBytes 4 g.2.2 ++
        (if w.kind = 0 then leBytes 8 g.1 ++ leBytes 8 g.2.1 ++ zeros 8 else zeros 16 ++ leBytes 8 w.nextSrc))

/-- LOOM_GET_CURSOR (R298). -/
def opLoomGetCursor : OpSpec :=
  { code := 0x0405, role := .tenant, len := fun _ => 16, auth := jobAuth 0, fields := fun _ p => [rsv p 2 6],
    run := fun c _ p s => s.onJob p (fun _ j => .ok (s.hostWrite c.fn (fld p 8 8) (j.cursor (s.jobStep j)))) }

/-- LOOM_GET_CURSOR. -/
def execLoomGetCursor (h : Hdr) (p : Bytes) (s : State) : Res := runPkt opLoomGetCursor h p s

/-- Whether a cursor record is a job's (R298). -/
def cursorOk (j : Job) (b : Bytes) : Bool := fld b 0 4 == j.jobId && fld b 4 2 == j.warps.length && fld b 8 8 == j.key

/-- Replaces the cursors of a job from a record, from a step on (R298). -/
def State.setCursor (s : State) (h : Nat) (b : Bytes) (at_ : Nat) : State :=
  match s.job h with
  | none => s
  | some j =>
    let from_ := j.openFrom at_
    let one := fun (e : Warp × Nat) =>
      let o := 64 + 32 * e.2
      let w := e.1
      let g := (from_, (if w.kind = 0 then fld b (o + 8) 8 else from_), (if w.kind = 0 then fld b (o + 16) 8 else 0), fld b (o + 4) 4)
      { w with segs := w.segs.filter (fun x => decide (x.1 < from_)) ++ [g], nextSrc := if w.kind = 0 then w.nextSrc else fld b (o + 24) 8 }
    (s.upJob h (fun j => { j with warps := j.warps.zipIdx.map one })).loomRewind h from_

/-- A staged LOOM_SET_CURSOR takes effect. -/
def State.applyCursor (s : State) (p : Bytes) (at_ : Nat) : State := s.setCursor (fld p 0 2) (p.drop 8) at_

/-- Whether a staged LOOM_SET_CURSOR still fits (R89). -/
def State.okCursor (s : State) (p : Bytes) : Bool :=
  match s.job (fld p 0 2) with
  | some j => cursorOk j (p.drop 8) && !(s.jobX (fld p 0 2)).closing
  | none => false

/-- LOOM_SET_CURSOR (R298). -/
def opLoomSetCursor : OpSpec :=
  { code := 0x0406, role := .tenant, len := fun p => 72 + 32 * fld p 12 2, auth := jobAuth 0,
    fields := fun _ p => [rsv p 2 6, rsv p 14 2, (32, (sub p 32 40).all (fun b => b == 0))] ++
      (List.range (fld p 12 2)).map (fun w => rsv p (72 + 32 * w + 1) 3),
    run := fun c h p s => s.onJob p (fun _ j =>
      match s.settingStop c uLoom true with
      | some v => v
      | none => if !(cursorOk j (p.drop 8)) then .refuse 0x0012 0
                else s.setting 0x0406 c { h with unit := uLoom } p (sameJob p) 0 (fun t => t.applyCursor p 0)) }

/-- LOOM_SET_CURSOR. -/
def execLoomSetCursor (h : Hdr) (p : Bytes) (s : State) : Res := runPkt opLoomSetCursor h p s

/-- LOOM_GET_ORDER (R281). -/
def opLoomGetOrder : OpSpec :=
  { code := 0x0407, role := .tenant, len := fun _ => 32, auth := jobAuth 0, fields := fun _ p => [rsv p 12 4],
    run := fun c _ p s => s.onJob p (fun _ j =>
      match j.warps[fld p 2 2]? with
      | none => badParam 2
      | some w =>
        if w.count < fld p 16 8 + fld p 4 4 then badParam 16
        else .ok (s.hostWrite c.fn (fld p 24 8)
          ((List.range (fld p 4 4)).flatMap (fun i => leBytes 8 (sigma j.key (fld p 8 4) (fld p 2 2) w.count (fld p 16 8 + i)))))) }

/-- LOOM_GET_ORDER. -/
def execLoomGetOrder (h : Hdr) (p : Bytes) (s : State) : Res := runPkt opLoomGetOrder h p s

/-- LOOM_GET_JOB (R299). -/
def opLoomGetJob : OpSpec :=
  { code := 0x0408, role := .tenant, result := true, len := fun _ => 8, auth := jobAuth 0, fields := fun _ p => [rsv p 2 6],
    run := fun _ _ p s => s.onJob p (fun _ j => .doneAs sOk 0 j.wovenCnt (if j.started then 2 else 1) s) }

/-- LOOM_GET_JOB. -/
def execLoomGetJob (h : Hdr) (p : Bytes) (s : State) : Res := runPkt opLoomGetJob h p s

/-- Sets the share of a warp from a step on, without a position skipped or repeated (R283). -/
def State.applyShare (s : State) (p : Bytes) (at_ : Nat) : State :=
  let h := fld p 0 2
  match s.job h with
  | none => s
  | some j =>
    let from_ := if j.started then j.openFrom at_ else j.s0
    let one := fun (w : Warp) =>
      { w with segs := w.segs.filter (fun x => decide (x.1 < from_)) ++ [(from_, from_, w.absOf from_ 0, fld p 4 4)] }
    let t := s.upJob h (fun j => { j with warps := lmod j.warps (fld p 2 2) one })
    if j.started then t.loomRewind h from_ else t

/-- Whether a staged LOOM_SET_SHARE still fits (R89). -/
def State.okShare (s : State) (p : Bytes) : Bool :=
  match s.job (fld p 0 2) with
  | some j => decide (fld p 2 2 < j.warps.length) && !(s.jobX (fld p 0 2)).closing
  | none => false

/-- LOOM_SET_SHARE (R283). -/
def opLoomSetShare : OpSpec :=
  { code := 0x0409, role := .tenant, len := fun _ => 8, auth := jobAuth 0, fields := fun _ p => [(4, decide (fld p 4 4 ≤ 1048576))],
    run := fun c h p s => s.onJob p (fun _ j =>
      if j.started && (s.settingStop c uLoom true).isSome then (s.settingStop c uLoom true).getD badState
      else if j.warps.length ≤ fld p 2 2 then badParam 2
      else s.loomSetting 0x0409 c h p (fun x => sameJob p x && fld x.params 2 2 == fld p 2 2) j.started 0 (fun t => t.applyShare p 0)) }

/-- LOOM_SET_SHARE. -/
def execLoomSetShare (h : Hdr) (p : Bytes) (s : State) : Res := runPkt opLoomSetShare h p s

/-! ## Fetching -/

/-- A position whose index or payload cannot be had is an admission drop (R280, log entry 74). -/
def State.fetchLost (s : State) (job warp abs : Nat) : State :=
  (s.sampleDrop (fun l => { l with cCheck := inc16 l.cCheck })).upFetch job warp abs (fun y => { y with stage := 3 })

/-- INDEX_ENTRY_READ: the index entry of a position, read through the storage front end (R124, R285). -/
def execIndexEntryRead (job warp abs : Nat) (entry : Bytes) (s : State) : Res :=
  onMain s (fun t =>
    match t.job job with
    | none => t
    | some j =>
      match j.fetchOf warp abs with
      | none => t
      | some f =>
        let w := j.warps.getD warp {}
        if f.stage ≠ 0 then t
        else match t.intRow (.index job warp abs) w.ctrl w.nsid (j.indexAt w warp abs) 16 (padTo 16 entry) with
          | (u, none) => u
          | (u, some (.error _)) => u.fetchLost job warp abs
          | (u, some (.ok e)) =>
            let len := fld e 8 4
            if len = 0 ∨ w.maxLen < len then
              (u.sampleDrop (fun l => { l with cShape := inc16 l.cShape })).upFetch job warp abs (fun y => { y with stage := 3 })
            else
              (u.upFetch job warp abs (fun y => { y with stage := 1, offset := fld e 0 8, len := len, crc := fld e 12 4 })).intBegin
                (.payload job warp abs) w.ctrl w.nsid (fld e 0 8) len)

/-- SAMPLE_PAYLOAD_READ: the payload of a position, read through the storage front end (R124); one that fails its check is read again once
(R280, R285). -/
def execSamplePayloadRead (job warp abs : Nat) (data : Bytes) (s : State) : Res :=
  onMain s (fun t =>
    match t.job job with
    | none => t
    | some j =>
      match j.fetchOf warp abs with
      | none => t
      | some f =>
        let w := j.warps.getD warp {}
        if f.stage ≠ 1 then t
        else match t.intRow (.payload job warp abs) w.ctrl w.nsid f.offset f.len (padTo f.len data) with
          | (u, none) => u
          | (u, some (.error _)) => u.fetchLost job warp abs
          | (u, some (.ok b)) =>
            if crc32c b = f.crc then
              let g := { f with data := b }
              (u.upFetch job warp abs (fun _ => g)).admitFetch job g
            else if f.tries = 0 then
              (u.upFetch job warp abs (fun y => { y with tries := 1 })).intBegin (.payload job warp abs) w.ctrl w.nsid f.offset f.len
            else u.fetchLost job warp abs)

/-! ## SAMPLE_ADMIT -/

/-- The record of a token block that a STREAMED warp takes (R279). -/
def Job.streamed (j : Job) (w : Warp) (i src : Nat) (b : Bytes) : Sample :=
  let pay := sub b 64 (b.length - 72)
  { sid := w.dataset * 2 ^ 40 + j.rank % 1024 * 2 ^ 30 + w.admits % 2 ^ 30, stream := fld b 24 4, warp := i, modality := w.modality,
    flags := fld b 1 1 % 16, cueIngest := fld b 40 8, check := crc64 pay, len := pay.length, tkind := fld b 0 1, format := fld b 2 1,
    groups := fld b 3 1, rows := fld b 4 4, dim := fld b 8 4, rowBytes := fld b 12 4, epoch := src / w.count, position := src % w.count,
    pts := fld b 48 8, seqFirst := fld b 32 8, origin := j.rank, abs := src }

/-- Takes the first block offered to a warp off the list; a run whose blocks have all gone moves on (R257). -/
def State.offerTaken (s : State) (o : Offer) : State :=
  (s.upLoom (fun l => { l with offered := l.offered.erase o })).tapKick

/-- Whether a token block passes the CRC-64 of its trailer (R268, R280). -/
def trailerOk (b : Bytes) : Bool := crc64 (b.take (b.length - 8)) == fld b (b.length - 8) 8

/-- A block that a Tapestry queue offers is admitted, dropped or sent on, or waits for pages (R280, R288, R292). -/
def State.admitBlock (s : State) (h i src : Nat) (o : Offer) (b : Bytes) : State :=
  match s.job h with
  | none => s
  | some j =>
    let w := j.warps.getD i {}
    let m := j.streamed w i src b
    let pay := sub b 64 (b.length - 72)
    let drop := fun (g : Loom → Loom) => (s.sampleDrop g).offerTaken o
    let took := fun (t : State) =>
      t.upJob h (fun j => { j with warps := lmod j.warps i (fun w => { w with admits := (w.admits + 1) % 2 ^ 30, nextSrc := max w.nextSrc (src + 1) }) })
    if trailerOk b = false then
      if o.fails = 0 then s.upLoom (fun l => { l with offered := lupd l.offered (fun x => x == o) (fun x => { x with fails := 1 }) })
      else drop (fun l => { l with cCheck := inc16 l.cCheck })
    else if m.flags &&& w.drop ≠ 0 then drop (fun l => { l with cFlag := inc16 l.cFlag })
    else if !(w.shapeOk m.len m.rows m.dim m.rowBytes m.tkind m.format m.groups) then drop (fun l => { l with cShape := inc16 l.cShape })
    else
      let dest := if w.swap ∧ 1 < j.members then mix (j.key ^^^ m.sid) % j.members else j.rank
      if dest ≠ j.rank then (took (s.offerTaken o)).xRecord h dest m pay
      else match s.takeSample h m pay with
        | none => s.upLoom (fun l => { l with offered := lupd l.offered (fun x => x == o) (fun x => { x with waits := true }) })
        | some t => ((took t).offerTaken o).weaveJob h

/-- SAMPLE_ADMIT: a sample that a local producer holds enters the shuffle buffer once pages are free: the first block offered to a
STREAMED warp, or that block as it arrives damaged (R280), from absolute source position `src`; or the payload of INDEXED position `src` that waits (R292). -/
def execSampleAdmit (job warp : Nat) (block : Bytes) (src : Nat) (s : State) : Res :=
  onMain s (fun t =>
    match t.job job with
    | none => t
    | some j =>
      match j.warps[warp]? with
      | none => t
      | some w =>
        if (t.jobX job).closing ∨ t.partHeld .shuffle then t
        else if w.kind = 0 then
          match j.fetchOf warp src with
          | some f => if f.stage = 4 then t.admitFetch job f else t
          | none => t
        else
          match t.loom.offered.find? (fun o => o.warp == w.num) with
          | some o => if block = o.block ∨ (block.length = o.block.length ∧ trailerOk block = false) then t.admitBlock job warp src o block else t
          | none => t)

/-! ## The exchange -/

/-- Returns landing pages to their sender (R289). -/
def State.landBack (s : State) (h from_ page pages : Nat) : State :=
  match s.job h with
  | none => s
  | some j => s.xSend h from_ (xNotice j.jobId j.rank 2 0 0 0 page pages)

/-- An exchanged copy ends the wait for its position; a rescue read in hand goes on, and what it brings is a duplicate (R290). -/
def State.endFetchIf (s : State) (h warp abs : Nat) : State :=
  s.upJob h (fun j => { j with fetches := j.fetches.filter (fun x => !(x.warp == warp && x.abs == abs && (x.stage == 2 || x.stage == 3))) })

/-- A sample record has landed (R288 to R290, R292, R293). -/
def State.landed (s : State) (h : Nat) (j : Job) (from_ : Nat) (e : Bytes) : State :=
  let i := fld e 8 2
  let w := j.warps.getD i {}
  let abs := fld e 12 4 * w.count + fld e 16 8
  let page := fld e 24 4
  let n := fld e 28 4
  let first := agetD (s.jobX h).granted from_ 0 + page
  let hd := s.mem (j.base + first * pageBytes) 128
  let m : Sample := { Sample.ofBytes hd with pages := List.range' first n, landing := true, origin := from_, abs := abs }
  let f := j.fetchOf i abs
  let back := fun (t : State) => t.landBack h from_ page n
  let again := xNotice j.jobId j.rank 3 i (fld e 12 4) (fld e 16 8) 0 0
  let key := (from_, i, abs)
  let dup := w.kind == 0 && ((s.jobX h).done.contains (i, abs) || (j.at_ i abs).isSome)
  let late := w.kind == 0 && (match f with
    | some g => j.closed (s.jobX h) g
    | none => decide (abs < w.absOf j.fetchNext 0))
  if s.partHeld .shuffle then back (s.xSend h from_ again)
  else if dup then back (s.sampleDrop (fun l => { l with cDup := inc16 l.cDup }))
  else if late then back ((s.sampleDrop (fun l => { l with cLate := inc16 l.cLate })).endFetchIf h i abs)
  else if !(headOk hd) then
    if (s.jobX h).asked.contains key then
      back ((s.sampleDrop (fun l => { l with cCheck := inc16 l.cCheck })).upFetch h i abs (fun y => if y.stage = 2 then { y with stage := 3 } else y))
    else back ((s.upJobX h (fun x => { x with asked := x.asked ++ [key] })).xSend h from_ again)
  else if !(w.shapeOk m.len m.rows m.dim m.rowBytes m.tkind m.format m.groups) then
    back ((s.sampleDrop (fun l => { l with cShape := inc16 l.cShape })).upFetch h i abs (fun y => if y.stage = 2 then { y with stage := 3 } else y))
  else
    let no := (s.jobX h).sampleNo
    let sl := (s.takeSlot h).getD (j.bufMib, s)
    let m' := { m with slot := sl.1 }
    let t := (((sl.2.gWrite (j.headAddr m') hd).upJob h (fun j => { j with samples := aset j.samples no m' })).upJobX h (fun x => { x with sampleNo := no + 1 })).ao 6 1
    (if w.kind = 0 then (t.endFetchIf h i abs).noteDone h i abs else t).weaveJob h

/-- A resend request: the position is fetched again for the rank that asks (R289). -/
def State.resend (s : State) (h : Nat) (j : Job) (from_ i abs : Nat) : State :=
  let w := j.warps.getD i {}
  if w.kind ≠ 0 ∨ j.warps.length ≤ i ∨ (j.fetchOf i abs).isSome then s
  else
    let f : Fetch := { warp := i, abs := abs, dest := from_, cue := s.cuePos }
    (s.upJob h (fun j => { j with fetches := j.fetches ++ [f] })).readIndex h j w i abs

/-- EXCHANGE_NOTICE: an entry of a job's exchange mailbox (R138, R288, R289, R297). -/
def execExchangeNotice (job : Nat) (entry : Bytes) (s : State) : Res :=
  onMain s (fun t =>
    match t.job job with
    | none => t
    | some j =>
      let from_ := fld entry 4 2
      if !j.started ∨ j.members ≤ from_ ∨ from_ = j.rank then t
      else if fld entry 120 8 ≠ agetD (t.jobX job).xin from_ 0 + 1 then t.upNet (fun n => { n with mbox := satu 8191 (n.mbox + 1) })
      else
        let u := t.upJobX job (fun x => { x with xin := aset x.xin from_ (fld entry 120 8) })
        let i := fld entry 8 2
        let abs := fld entry 12 4 * (j.warps.getD i {}).count + fld entry 16 8
        if fld entry 0 4 ≠ j.jobId ∨ (u.jobX job).closing then u
        else match fld entry 6 1 with
          | 1 => u.landed job j from_ entry
          | 2 =>
            let l := List.range' (fld entry 24 4) (fld entry 28 4)
            let v := u.upJobX job (fun x =>
              { x with freeLand := aset x.freeLand from_ ((l.foldl ladd (agetD x.freeLand from_ [])).mergeSort (fun a b => decide (a ≤ b))) })
            v.xKick ((v.jobX job).sendq.length) job from_
          | 3 => u.resend job j from_ i abs
          | _ => u)

/-- Whether a sample still absent is fetched here now: RESCUE_PH phases before its weave closes (R290); one that another member owns and whose
exchange has failed is absent too, and a Loom intermission holds the fetch (R299). -/
def State.rescueDue (s : State) (h : Nat) (j : Job) (f : Fetch) : Bool :=
  !(s.held uLoom) && (f.stage == 2 || (f.stage == 3 && !f.rescue && j.ownerOf f.warp f.abs != j.rank)) && f.dest == j.rank && s.cueTimed && decide (j.closeAt f.step - j.rescuePh ≤ s.phase) && !(j.closed (s.jobX h) f) &&
    !(s.jobX h).closing && !(s.partHeld .shuffle)

/-- A sample still absent RESCUE_PH phases before its weave closes is fetched here (R290). -/
def State.rescue (s : State) (h warp abs : Nat) : State :=
  match s.job h with
  | none => s
  | some j =>
    let t := s.upFetch h warp abs (fun y => { y with stage := 0, rescue := true, tries := 0, cue := s.cuePos })
    (t.flag 3 loomEvtOff 2 (fun z => z.upLoom (fun l => { l with evRescue := true, cRescue := inc16 l.cRescue }))).readIndex h j
      (j.warps.getD warp {}) warp abs

/-! ## WEAVE_CLOSE -/

/-- The step whose batch a ring hands over next. -/
def Job.handNext (j : Job) (ring next : Nat) : Nat := ((j.woven.filter (fun b => b.ring == ring)).map (fun b => b.step)).foldl min next

/-- Whether the weave of a step has closed or, without deadlines, a batch may be handed over as soon as it is woven (R286,
R287). -/
def State.weaveDue (s : State) (j : Job) (step : Nat) : Bool := !s.cueTimed || decide (j.closeAt step ≤ s.phase)

/-- Whether a batch that lacks samples is completed by FILL now (R286, R292). -/
def State.fillable (s : State) (h : Nat) (j : Job) (ring step : Nat) : Bool :=
  !(s.vfFrozen j.owner) && !(s.held uLoom) && !(s.partHeld .shuffle) && s.cueTimed &&
    (ringNo j (s.jobX h) step ring).isSome && !(j.fill == 1 && (j.find (s.jobX h) ring step).any (fun q => q.sample.isNone))

/-- A weave that closes with samples missing under WAIT is held; its missing STREAMED samples are counted once (R292, log entry 77). -/
def State.weaveWaits (s : State) (h : Nat) (j : Job) (ring step : Nat) : State :=
  let slots := j.find (s.jobX h) ring step
  if j.fill == 1 && s.cueTimed && slots.any (fun q => q.sample.isNone) && !(s.jobX h).waits.contains (ring, step) then
    (s.upJobX h (fun x => { x with waits := x.waits ++ [(ring, step)] })).upLoom (fun l =>
      { l with cUnder := satu 65535 (l.cUnder + (slots.filter (fun q => q.streamed && q.sample.isNone)).length) })
  else s

/-- The weave of a ring's next batch closes: a woven one is handed over; one that lacks samples is completed by FILL (R286,
R292). -/
def State.weaveClose (s : State) (h ring step : Nat) : State :=
  match s.job h with
  | none => s
  | some j =>
    match j.woven.find? (fun b => b.ring == ring && b.step == step) with
    | some b => (s.handOver h b).weaveJob h
    | none =>
      if !(s.fillable h j ring step) then s.weaveWaits h j ring step
      else
        let t := s.makeBatch h ring step (j.find (s.jobX h) ring step) true
        match t.job h with
        | none => t
        | some j' =>
          match j'.woven.find? (fun b => b.ring == ring && b.step == step) with
          | some b => (t.handOver h b).weaveJob h
          | none => t

/-- Whether a weave that has closed under WAIT with samples missing is still to be noted as held (R292). -/
def State.waitable (s : State) (h : Nat) (j : Job) (ring step : Nat) : Bool :=
  j.fill == 1 && !(s.jobX h).waits.contains (ring, step) && (j.find (s.jobX h) ring step).any (fun q => q.sample.isNone)

/-- The weaves of a job that are due and can close: phase, ring and step (R54, R286). -/
def State.weavesDue (s : State) (h : Nat) (j : Job) : List (Int × Nat × Nat) :=
  if (s.jobX h).closing then []
  else (j.weaveNext.map (fun e => (e.1, j.handNext e.1 e.2))).filterMap (fun e =>
    if (ringNo j (s.jobX h) e.2 e.1).isSome && s.weaveDue j e.2 &&
        (j.woven.any (fun b => b.ring == e.1 && b.step == e.2) || s.fillable h j e.1 e.2 || s.waitable h j e.1 e.2) then
      some (j.closeAt e.2, e.1, e.2)
    else none)

/-- The rescues of a job that are due: phase, warp and position (R54, R290). -/
def State.rescuesDue (s : State) (h : Nat) (j : Job) : List (Int × Nat × Nat) :=
  (j.fetches.filter (fun f => s.rescueDue h j f)).map (fun f => (j.closeAt f.step - j.rescuePh, f.warp, f.abs))

/-- Phase at which fetching begins for a job's next step (R285). -/
def Job.fetchAt (j : Job) : Int := 65536 * ((j.fetchNext : Int) - (j.fetchSteps : Int))

end Sys2Proof.Machine
end

