-- ==== Sys2Proof/Machine/FeedOps.lean ====
section
/-!
DEFINITION. Delivery (R301 to R335): rings, credits, gathering, issuing and landing batches, resets, and changes of the consumer table.
-/
namespace Sys2Proof.Machine

open Sys2Proof

/-! ## Access -/

/-- PF BAR0 offsets of FEED_ACC_STATa and FEED_EVT. -/
def accStatOff (a : Nat) : Nat := 0x01000400 + 8 * a
def feedEvtOff : Nat := 0x01000800

/-- A ring. -/
def State.ring (s : State) (n : Nat) : Option FRing := aget s.feed.rings n

/-- Changes a ring. -/
def State.upRing (s : State) (n : Nat) (f : FRing → FRing) : State := s.upFeed (fun k => { k with rings := aupd k.rings n f })

/-- An attachment point. -/
def State.acc (s : State) (a : Nat) : Acc := agetD s.feed.accs a {}

/-- A feed port. -/
def State.feedPort (s : State) (p : Nat) : FeedPort := agetD s.feed.ports p {}

/-- Changes an attachment point; a change of state leaves a trace record. -/
def State.upAcc (s : State) (a : Nat) (f : Acc → Acc) : State :=
  let t := s.upFeed (fun k => { k with accs := amod k.accs a {} f })
  let old := (s.acc a).st
  let new := (t.acc a).st
  if old = new then t else t.note (unitId 4 (a / 2) + (if (s.feedPort (a / 2)).halved then a % 2 + 1 else 0)) 0x0010 0 old new

/-- Unit ID of an attachment point (Table 1.7). -/
def State.accUnit (s : State) (a : Nat) : Nat := unitId 4 (a / 2) + (if (s.feedPort (a / 2)).halved then a % 2 + 1 else 0)

/-- Whether an attachment point is there: an upper half only on a bifurcated port (R301). -/
def State.accThere (s : State) (a : Nat) : Bool := decide (a < 8) && (a % 2 == 0 || (s.feedPort (a / 2)).halved)

/-- Sets a flag of FEED_EVT. -/
def State.feedFlag (s : State) (b : Nat) (f : Feed → Feed) : State := s.flag 4 feedEvtOff b (fun u => u.upFeed f)

/-- The next ring generation: 0 is skipped (R318). -/
def nextRg (g : Nat) : Nat := if 65535 ≤ g then 1 else g + 1

/-- Slot of delivery n. -/
def FRing.slotOf (r : FRing) (n : Nat) : Nat := (n + 2 ^ 32 - 1) % 2 ^ 32 % r.slots

/-- GEN word of delivery n (R315). -/
def genWord (rg n : Nat) : Nat := rg % 65536 * 65536 + n % 65536

/-- The number of a ring's next delivery: one handed on by an abandoned delivery first (R317). -/
def FRing.nextN (r : FRing) : Nat := r.numbers.headD ((r.n + 1) % 2 ^ 32)

/-- Sets the threshold of a ring's latch to its next delivery (R309). -/
def State.ringArm (s : State) (n : Nat) : State :=
  match s.ring n with
  | some r => s.latchThresh r.latch r.nextN
  | none => s

/-- Stores the body of a batch in a consumer's memory: a class-0 delivery carries its first 4 KiB in VC0 (R322). -/
def State.bodyWrite (s : State) (r : FRing) (off : Nat) (b : Bytes) : State :=
  if r.transport = 0 ∧ r.prio = 0 then
    let t := s.emit .accWriteVc0 r.accel r.dataBar off (b.take 4096)
    if b.length ≤ 4096 then t else t.emit .accWrite r.accel r.dataBar (off + 4096) (b.drop 4096)
  else if r.transport = 0 then s.emit .accWrite r.accel r.dataBar off b
  else s.qpWrite r.qpn .other off r.dataRkey b false

/-- Stores bytes in a ring's descriptor BAR or region: on a feed port at once, over RoCEv2 as an RDMA write. -/
def State.ringWrite (s : State) (r : FRing) (op : TxOp) (off : Nat) (b : Bytes) (fenced : Bool) : State :=
  if r.transport = 0 then s.emit .accWrite r.accel r.descBar off b
  else s.qpWrite r.qpn op off r.descRkey b fenced

/-! ## The gather (R294, R295, R319) -/

/-- Whether a resident sample passes HDR_CRC and CHECK as memory holds it. -/
def State.sampleOk (s : State) (j : Job) (no : Nat) : Bool :=
  match aget j.samples no with
  | none => false
  | some m =>
    let hd := s.mem (j.headAddr m) 128
    headOk hd && crc64 (s.payload j m) == fld hd 24 8

/-- A sample that fails in the gather is absent from then on (R280, R319). One that came by exchange is asked for again, once; a second failure
of its record makes the position absent, which is an admission drop (R289, Table 10.7). What other batches hold of it is freed with them. -/
def State.sampleGone (s : State) (h no : Nat) : State :=
  match s.job h with
  | none => s
  | some j =>
    match aget j.samples no with
    | none => s
    | some m =>
      if m.gone then s
      else
        let key := (m.origin, m.warp, m.abs)
        let t := (s.upJob h (fun j => { j with samples := aupd j.samples no (fun m => { m with gone := true }) })).upJobX h (fun x =>
          { x with done := x.done.filter (fun e => e != (m.warp, m.abs)) })
        if !(bit m.flags 4) then t
        else if (s.jobX h).asked.contains key then t.sampleDrop (fun l => { l with cCheck := inc16 l.cCheck })
        else (t.upJobX h (fun x => { x with asked := x.asked ++ [key] })).xSend h m.origin (xNotice j.jobId j.rank 3 m.warp m.epoch m.position 0 0)

/-- Completes a batch again without the samples that failed, by FILL with WAIT acting as SHORT (R319). -/
def State.refill (s : State) (h : Nat) (b : Batch) (bad : List Nat) : State × Batch :=
  match s.job h with
  | none => (s, b)
  | some j =>
    let warpOf := fun (no : Nat) => ((aget j.samples no).map (fun m => m.warp)).getD 0
    let t := bad.foldl (fun u no => u.sampleGone h no) s
    match t.job h with
    | none => (t, b)
    | some j' =>
      let sub := fun (no : Nat) => if j.fill == 0 then j'.lastWoven (warpOf no) else none
      let es := b.entries.filterMap (fun e =>
        if bad.contains e.1 then (sub e.1).map (fun no => (no, e.2.1, ((aget j'.samples no).map (fun m => m.flags)).getD 0 ||| 32)) else some e)
      let subs := (b.entries.filter (fun e => bad.contains e.1)).filterMap (fun e => sub e.1)
      let short := decide (es.length < b.entries.length)
      let freed := (b.entries.filter (fun e => bad.contains e.1)).foldl (fun u e => u.release h e.1) t
      let u := subs.foldl (fun u no => u.upJob h (fun j => { j with samples := aupd j.samples no (fun m => { m with refs := m.refs + 1 }) })) freed
      let v := u.upLoom (fun l => { l with cFilled := satu 65535 (l.cFilled + subs.length) })
      let fl := b.flags ||| b2n short ||| (if subs.isEmpty then 0 else 2)
      (v, { b with entries := es, flags := fl, short := b.short || short })

/-- Gathers a batch until every sample it lists passes its checks (R319): each time round at least one more sample is absent. -/
def State.gather : Nat → State → Batch → State × Batch
  | 0, s, b => (s, b)
  | fuel + 1, s, b =>
    match s.job b.job with
    | none => (s, b)
    | some j =>
      let bad := (b.entries.map (fun e => e.1)).eraseDups.filter (fun no => !s.sampleOk j no)
      if bad.isEmpty then (s, b)
      else
        let r := s.refill b.job b bad
        State.gather fuel (r.1.upFeed (fun f => { f with cRegather := satu 65535 (f.cRegather + 1) })) r.2

/-- Times round that a gather can take: every resident sample of the job may be found bad. -/
def State.gatherFuel (s : State) (b : Batch) : Nat := ((s.job b.job).elim 0 (fun j => j.samples.length)) + 2

/-- Pads to a multiple of 64 bytes. -/
def pad64 (b : Bytes) : Bytes := padTo ((b.length + 63) / 64 * 64) b

/-- Bytes of a token in a job's packed batches. -/
def Job.tokenBytes (j : Job) : Nat :=
  match j.warps with
  | w :: _ => if w.tkind = 2 then w.groups * (fmtBits w.format / 8) else w.rowBytes
  | [] => 0

/-- The records of a format 0 body with their offsets. -/
def recordBody (recs : List Bytes) : List (Nat × Nat) × Bytes :=
  let step := fun (a : List (Nat × Nat) × Bytes) (r : Bytes) => (a.1 ++ [(a.2.length, r.length)], a.2 ++ pad64 r)
  recs.foldl step ([], [])

/-- The token map and tokens of a format 1 body (R295): `pays` gives tokens and payload of each sample in directory order. -/
def packedBody (width tb : Nat) (pays : List (Nat × Bytes)) : Nat × List (Nat × Nat) × Bytes × Bytes :=
  let toks := pays.map (fun p => p.1)
  let place := pack width toks []
  let rows := packRows width toks
  let cells : List (Nat × Nat × Nat) := ((place.zip toks).zipIdx).flatMap (fun e =>
    (List.range e.1.2).map (fun t => (e.1.1.1 * width + e.1.1.2 + t, e.2, t)))
  let at_ := fun (i : Nat) => cells.find? (fun c => c.1 == i)
  let map_ := (List.range (rows * width)).flatMap (fun i =>
    match at_ i with
    | some c => leBytes 4 c.2.1 ++ leBytes 4 c.2.2
    | none => leBytes 4 0xFFFFFFFF ++ leBytes 4 0xFFFFFFFF)
  let tokens := (List.range (rows * width)).flatMap (fun i =>
    match at_ i with
    | some c => padTo tb (sub ((pays.getD c.2.1 (0, [])).2) (c.2.2 * tb) tb)
    | none => zeros tb)
  (rows, (place.zip toks).map (fun e => (map_.length + (e.1.1 * width + e.1.2) * tb, e.2 * tb)), map_, tokens)

/-- The bytes of a batch (Table 10.8). -/
def State.batchBytes (s : State) (b : Batch) : Bytes :=
  match s.job b.job with
  | none => []
  | some j =>
    let ms := b.entries.map (fun e => (e, (aget j.samples e.1).getD {}))
    let dirLen := (16 * ms.length + 63) / 64 * 64
    let packed := packedBody j.seqTokens j.tokenBytes (ms.map (fun e => (e.2.rows, s.payload j e.2)))
    let plain := recordBody (ms.map (fun e => s.mem (j.headAddr e.2) 128 ++ s.payload j e.2))
    let offs := if j.format = 1 then packed.2.1 else plain.1
    let body := if j.format = 1 then packed.2.2.1 ++ packed.2.2.2 else plain.2
    let dir := padTo dirLen ((ms.zip offs).flatMap (fun e =>
      leBytes 4 e.2.1 ++ leBytes 4 e.2.2 ++ leBytes 2 e.1.2.warp ++ [BitVec.ofNat 8 e.1.1.2.2, 0] ++ leBytes 4 e.1.1.2.1))
    let len := 128 + dir.length + body.length + 8
    let hd := leBytes 8 b.id ++ leBytes 4 j.jobId ++ leBytes 2 b.consumer ++ [BitVec.ofNat 8 j.format, BitVec.ofNat 8 b.flags] ++
      leBytes 4 ms.length ++ leBytes 4 (128 + dir.length) ++ leBytes 8 len ++ leBytes 8 (b.step % 2 ^ 40) ++ leBytes 8 b.cueWoven ++
      (if j.format = 1 then leBytes 4 packed.1 ++ leBytes 4 j.seqTokens ++ leBytes 4 j.tokenBytes ++ leBytes 4 (128 + dir.length)
       else zeros 16) ++ zeros 64
    let front := hd ++ dir ++ body
    front ++ leBytes 4 (crc32c front) ++ zeros 4

/-! ## Issuing (R315 to R317, R321, R323) -/

/-- Whether a batch has missed its deadline at this position (R56, R323). -/
def State.pastDeadline (s : State) (b : Batch) : Bool :=
  match s.job b.job with
  | some j => s.cueTimed && decide (j.deadline b.step < s.phase)
  | none => false

/-- A slot descriptor (Table 11.5). -/
def descBytes (rg n slot crc len id step cue flags : Nat) : Bytes :=
  leBytes 4 (genWord rg n) ++ leBytes 4 crc ++ leBytes 8 len ++ leBytes 8 id ++ leBytes 8 (step % 2 ^ 40) ++ leBytes 8 cue ++ leBytes 2 flags ++
    leBytes 2 slot ++ leBytes 4 n ++ zeros 16

/-- Writes body and descriptor of a delivery, and over RoCEv2 its GEN behind them (R315, R326). -/
def State.sendBatch (s : State) (ring : Nat) (r : FRing) (n : Nat) (b : Batch) (redelivered : Bool) : State × Delivery :=
  let bytes := s.batchBytes b
  let excess := decide (r.slotBytes < bytes.length)
  let late := s.pastDeadline b
  let flags := b.flags % 256 + 256 * b2n late + 512 * b2n redelivered + 1024 * b2n excess
  let slot := r.slotOf n
  let crc := fld bytes (bytes.length - 8) 4
  let len := if excess then 0 else bytes.length
  let d := descBytes r.rg n slot crc len b.id b.step s.cuePos flags
  let t := if excess then s else (s.gRead bytes.length).bodyWrite r (r.dataOff + slot * r.slotBytes) bytes
  let u := t.ringWrite r .other (r.descOff + 64 * slot + 4) (d.drop 4) false
  let paths := match u.qp r.qpn with
    | some q => q.paths
    | none => 1
  let v := if r.transport = 1 then u.ringWrite r (.delivery ring n) (r.descOff + 64 * slot) (d.take 4) (decide (1 < paths)) else u
  (v, { n := n, rg := r.rg, batch := b, flags := flags, empty := excess, late := late })

/-- Whether the credit latch of a ring permits delivery n (R316). -/
def State.credit (s : State) (r : FRing) (n : Nat) : Bool :=
  let l := s.cell r.latch
  l.gen == r.rg && decide ((l.val % 2 ^ 32 + 2 ^ 32 - n) % 2 ^ 32 < 2 ^ 31) &&
    !(r.issued.any (fun d => d.rg == r.rg && (d.n + r.slots) % 2 ^ 32 == n))

/-- Whether a ring's consumer can be reached and nothing holds its deliveries (R85, R307, R325, R326, R327). -/
def State.ringOpen (s : State) (r : FRing) : Bool :=
  decide (r.st < 2) && !(s.vfFrozen r.owner) && !(s.inFlr r.owner) && !(s.partHeld .shuffle) &&
    (if r.transport = 0 then (s.acc r.accel).st == 2 && !(s.acc r.accel).releasing && !(s.held (unitId 4 (r.accel / 2)))
     else !(s.held 0x5FFF0000) && (match s.qp r.qpn with
       | some q => q.st == .rts
       | none => false))

/-- The batch that a ring issues next, and whether it is a redelivery. -/
def FRing.head (r : FRing) : Option (Batch × Bool) :=
  match r.redo, r.queue with
  | b :: _, _ => some (b, true)
  | [], b :: _ => some (b, false)
  | [], [] => none

/-- A ring without its next batch. -/
def FRing.popHead (r : FRing) : FRing :=
  match r.redo with
  | _ :: t => { r with redo := t }
  | [] => { r with queue := r.queue.drop 1 }

/-- Abandons a batch: its samples are released (R278). -/
def State.abandon (s : State) (b : Batch) (orphan : Bool) : State :=
  let t := s.batchRelease b
  let u := if orphan then t.upFeed (fun f => { f with cOrphan := satu 65535 (f.cOrphan + 1) }) else t
  u.loomSettle b.job

/-- Whether a ring has a batch that can be issued now (R316). -/
def State.ringReady (s : State) (r : FRing) : Bool := r.head.isSome && s.ringOpen r && s.credit r r.nextN

/-- Share of a class in a feed port's egress (R322). -/
def classWeight (c : Nat) : Nat := if c = 1 then 4 else if c = 2 then 2 else 1

/-- Classes of the rings of a port that have a batch to issue. -/
def State.readyClasses (s : State) (port : Nat) : List Nat :=
  (s.feed.rings.filter (fun e => e.2.transport == 0 && e.2.accel / 2 == port && s.ringReady e.2)).map (fun e => e.2.prio)

/-- Whether every class that waits on a port has had its share of the round in progress (R322). -/
def State.roundOver (s : State) (port : Nat) : Bool :=
  (s.readyClasses port).all (fun c => c == 0 || decide (classWeight c ≤ agetD (s.feedPort port).served c 0))

/-- Whether a ring's class may use its port's egress now (R322): class 0 is strict, and classes 1, 2 and 3 are served 4 : 2 : 1. DESIGN CHOICE
(log entry 82): the unit of service is a delivery. -/
def State.classTurn (s : State) (r : FRing) : Bool :=
  let port := r.accel / 2
  r.transport != 0 || r.prio == 0 || (!(s.readyClasses port).contains 0 &&
    (s.roundOver port || decide (agetD (s.feedPort port).served r.prio 0 < classWeight r.prio)))

/-- A delivery of a ring's class has had its turn. -/
def State.classServed (s : State) (r : FRing) : State :=
  if r.transport ≠ 0 ∨ r.prio = 0 then s
  else
    let port := r.accel / 2
    let old := if s.roundOver port then [] else (s.feedPort port).served
    s.upFeed (fun k => { k with ports := amod k.ports port {} (fun x => { x with served := amod old r.prio 0 (fun n => n + 1) }) })

/-- Issues the next batch of a ring, or abandons it as stale (R316, R319, R321 to R323). -/
def State.issue (s : State) (ring : Nat) : State :=
  match s.ring ring with
  | none => s
  | some r =>
    match r.head with
    | none => s
    | some (b, again) =>
      let n := r.nextN
      if !(s.ringOpen r) ∨ !(s.credit r n) ∨ !(s.classTurn r) then s
      else if r.staleSteps ≠ 0 ∧ s.cue.st ≠ .none ∧ b.step + r.staleSteps < s.step then
        ((s.upRing ring FRing.popHead).abandon b false).feedFlag 1 (fun f => { f with evStale := true, cStale := satu 65535 (f.cStale + 1) })
      else
        let g := State.gather (s.gatherFuel b) s b
        let t := (g.1.classServed r).upRing ring FRing.popHead
        let w := t.sendBatch ring r n g.2 again
        let u := w.1.upRing ring (fun r =>
          { r with issued := r.issued ++ [w.2], numbers := r.numbers.drop 1, n := if r.numbers.isEmpty then n else r.n, awake := false })
        let v := if w.2.empty then u.upFeed (fun f => { f with cOversize := satu 65535 (f.cOversize + 1) }) else u
        v.ringArm ring

/-! ## Landing (R320) -/

/-- Completes a FEED_RELEASE whose accelerator has no delivery issued any longer: PERST# is asserted and the point is OFF; the
departure itself is `accGone`. -/
def State.ringsOf (s : State) (a : Nat) : List (Nat × FRing) := s.feed.rings.filter (fun e => e.2.transport == 0 && e.2.accel == a)

/-- A delivery has landed: counters, the notify word, and its samples released (R315, R320). -/
def State.landDelivery (s : State) (ring : Nat) (r : FRing) (d : Delivery) : State :=
  let b := d.batch
  let t := if r.notify = 2 ^ 64 - 1 then s else s.ringWrite r .notify r.notify (leBytes 8 (genWord d.rg d.n)) false
  let len := if d.empty then 0 else (s.batchBytes b).length
  let u := ((((t.ao 7 1).ao 8 len).fnCtr r.owner 9 1).fnCtr r.owner 10 len).note
    (if r.transport = 0 then s.accUnit r.accel else 0x5FFF0000) 0x0050 r.owner (ring + 4294967296 * d.n) b.step
  let late := s.pastDeadline b || d.late
  let v := u.upRing ring (fun r =>
    { r with issued := r.issued.filter (fun x => x != d), lastStep := b.step, late := if late then satu 4294967295 (r.late + 1) else r.late,
             landed := if d.rg = r.rg then (if (d.n + 2 ^ 32 - r.landed) % 2 ^ 32 < 2 ^ 31 then d.n else r.landed) else r.landed })
  let w := if late then
      ((v.ao 24 1).fnCtr r.owner 14 1).feedFlag 0 (fun f => { f with evLate := true, cLate := satu 65535 (f.cLate + 1) })
    else v
  (w.batchRelease b).loomSettle b.job

/-- The delivery of a ring under a number. -/
def FRing.out (r : FRing) (n : Nat) : Option Delivery := r.issued.find? (fun d => d.n == n)

/-! ## Deliveries that go back to their ring (R318) -/

/-- What FEED_RESET_RING waits for. -/
def wRing : Nat := 53

/-- Takes unsent messages of a ring's deliveries off its queue pair. -/
def State.dropUnsent (s : State) (r : FRing) (p : TxMsg → Bool) : State :=
  if r.transport = 0 then s else s.upQpn r.qpn (fun q => { q with tx := q.tx.filter (fun m => m.sent || !p m) })

/-- Queues deliveries again ahead of every other batch, as redeliveries, in ascending step (R318, R319, R328). -/
def State.redeliver (s : State) (ring : Nat) (l : List Delivery) : State :=
  if l.isEmpty then s
  else
    let back : List Batch := l.map (fun d => { d.batch with redelivered := true })
    (s.upRing ring (fun r =>
      { r with issued := r.issued.filter (fun d => !l.contains d), redo := (back ++ r.redo).mergeSort (fun a b => decide (a.step ≤ b.step)),
               redelivered := satu 4294967295 (r.redelivered + l.length) })).feedFlag 2 (fun f =>
      { f with evRedeliver := true, cRedeliver := satu 65535 (f.cRedeliver + l.length) })

/-! ## Changes of the consumer table (R329 to R334) -/

/-- A layout notice without its sequence word (Table 11.8). -/
def lNotice (jobId from_ type change member ring round step newC : Nat) : Bytes :=
  leBytes 4 jobId ++ leBytes 2 from_ ++ [BitVec.ofNat 8 type, BitVec.ofNat 8 change] ++ leBytes 2 member ++ leBytes 2 ring ++ leBytes 4 round ++
    leBytes 8 step ++ leBytes 2 newC ++ zeros 94

/-- Writes a notice into the layout mailbox of a rank (R330). -/
def State.lSend (s : State) (h rank : Nat) (b : Bytes) : State :=
  let x := s.jobX h
  match s.job h, aget x.xqps rank, aget x.peers rank with
  | some j, some q, some p =>
    let n := agetD x.lout rank 0 + 1
    (s.upJobX h (fun x => { x with lout := aset x.lout rank n })).qpWrite q .notice ((xEntries * j.rank + (n - 1) % xEntries) * 128) p.2.1
      (padTo 120 b ++ leBytes 8 n) false
  | _, _, _ => s

/-- Sends a notice of a change to every other member. -/
def State.lSendAll (s : State) (h type : Nat) (c : LChange) (step : Nat) : State :=
  match s.job h with
  | none => s
  | some j =>
    let n := (tableAt j (s.jobX h) step).length
    let newC := if c.change = 1 then n - 1 else n + 1
    ((List.range j.members).filter (fun r => r != j.rank)).foldl (fun t r =>
      t.lSend h r (lNotice j.jobId j.rank type c.change c.member c.ring c.round step newC)) s

/-- A committed change takes effect from a step on (R331, R333, R334). -/
def State.applyChange (s : State) (h from_ change member ring step : Nat) : State :=
  match s.job h with
  | none => s
  | some j =>
    let mine := decide (member = j.rank)
    let t := s.upJob h (fun j =>
      { j with nextTables := j.nextTables ++ [(step, from_, change, member, ring)],
               holdFrom := j.holdFrom.filter (fun e => !(e.1 == from_ && e.2.2.1 == ring)),
               weaveNext := if mine && change == 2 then aset j.weaveNext ring step else j.weaveNext })
    let t := if mine && change == 1 then t.upJobX h (fun x => { x with departed := aset x.departed ring (some step) }) else t
    let u := if mine && change == 2 then
        (t.upRing ring (fun r => { r with job := some h, st := if r.st = 0 then 1 else r.st, prev := if r.prev = 0 then 1 else r.prev, joinWait := false })).finishAll
          (fun w => w.kind == wJoin && w.aux == h * 1024 + ring) sOk 0 (step % 2 ^ 32)
      else t
    u.feedFlag 3 (fun f => { f with evLayout := true })

/-- Changes one of the changes in progress. -/
def State.upChange (s : State) (h ring : Nat) (f : LChange → LChange) : State :=
  s.upFeed (fun k => { k with changes := lupd k.changes (fun c => c.job == h && c.ring == ring) f })

/-- Commits a change on which every member has accepted (R331). -/
def State.lCommit (s : State) (h ring : Nat) : State :=
  match s.job h, s.feed.changes.find? (fun c => c.job == h && c.ring == ring) with
  | some j, some c =>
    if c.waiting ∨ c.accepts.length < j.members then s
    else
      let step := (c.accepts.map (fun a => a.2)).foldl max 0
      let t := s.upFeed (fun k => { k with changes := k.changes.filter (fun x => !(x.job == h && x.ring == ring)) })
      (t.lSendAll h 3 c step).applyChange h j.rank c.change c.member ring step
  | _, _ => s

/-- Proposes a change: a job of one member applies it at once (R330, R331). -/
def State.lPropose (s : State) (h ring round change : Nat) : State :=
  match s.job h with
  | none => s
  | some j =>
    let a := s.jobStep j + j.fetchSteps + 2
    let mine := max a j.fetchNext
    if j.members ≤ 1 then s.applyChange h j.rank change j.rank ring mine
    else
      let c : LChange := { job := h, change := change, member := j.rank, ring := ring, round := round, a := a, accepts := [(j.rank, mine)], sentAt := s.now }
      let t := s.upFeed (fun k => { k with changes := k.changes.filter (fun x => !(x.job == h && x.ring == ring)) ++ [c] })
      (t.upJob h (fun j => { j with holdFrom := j.holdFrom ++ [(j.rank, round, ring, mine)] })).lSendAll h 1 c a

/-- The consumers of started jobs on a ring leave (R306, R332): until the table leaves them out, their batches are abandoned (R334). -/
def State.leaveAll (s : State) (ring : Nat) : State :=
  s.loom.jobs.foldl (fun t e =>
    let j := e.2
    let last := tableAt j (t.jobX e.1) (2 ^ 64)
    if j.started && last.contains (j.rank, ring) then (t.upJobX e.1 (fun x => { x with departed := aset x.departed ring none })).lPropose e.1 ring 1 1 else t) s

/-- A ring is DETACHED: what it has not landed is abandoned, and its consumers leave (R306, R328, R334). -/
def State.ringDetach (s : State) (ring : Nat) : State :=
  match s.ring ring with
  | none => s
  | some r =>
    let t := (s.dropUnsent r (fun m => match m.op with | .delivery k _ => k == ring | _ => false)).upRing ring (fun r =>
      { r with st := 2, prev := 0, issued := [], queue := [], redo := [], numbers := [] })
    let u := (r.issued.map (fun d => d.batch) ++ r.redo ++ r.queue).foldl (fun t b => t.abandon b true) t
    (u.finishAll (fun w => w.kind == wRing && w.aux == ring) sBadState 0 0).leaveAll ring

/-- Whether a ring is RESETTING or issuing must stop: a ring that is destroyed abandons all it holds; its latch is free and
disabled (R327, Table 11.11). -/
def State.ringDestroy (s : State) (ring : Nat) : State :=
  match s.ring ring with
  | none => s
  | some r =>
    let t := (s.dropUnsent r (fun m => match m.op with | .delivery k _ => k == ring | _ => false)).upFeed (fun f => { f with rings := adel f.rings ring })
    let u := (r.issued.map (fun d => d.batch) ++ r.redo ++ r.queue).foldl (fun t b => t.abandon b false) t
    let v := (if r.credRkey = 0 then u else u.regionDel r.credRkey).upCell r.latch (fun l => { l with bound := none, en := false, armed := false })
    v.finishAll (fun w => w.kind == wRing && w.aux == ring) sAborted 0 0

/-! ## Queue pairs under a ring (R328) -/

/-- Changes the deliveries of rings on a queue pair. -/
def State.upDeliveries (s : State) (qpn : Nat) (f : Delivery → Delivery) : State :=
  s.upFeed (fun k => { k with rings := k.rings.map (fun e =>
    if e.2.transport = 1 ∧ e.2.qpn = qpn then (e.1, { e.2 with issued := e.2.issued.map f }) else e) })

/-- The rings over a queue pair. -/
def State.ringsOn (s : State) (qpn : Nat) : List (Nat × FRing) := s.feed.rings.filter (fun e => e.2.transport == 1 && e.2.qpn == qpn)

/-- The queue pair of rings enters ERROR: the deliveries that have not landed are UNCERTAIN, and their messages are not sent again whole; the
notify word of one that has landed is sent again with the rest (R141, R328). -/
def State.feedQpError (s : State) (qpn : Nat) : State :=
  if (s.ringsOn qpn).isEmpty then s
  else
    (s.upDeliveries qpn (fun d => { d with state := 1 })).upQpn qpn (fun q =>
      { q with tx := q.tx.filter (fun m => match m.op with | .delivery _ _ => false | .genRead _ _ => false | .other => false | _ => true) })

/-- It returns to RTS: the GEN word of each uncertain delivery's slot is read. -/
def State.feedQpRts (s : State) (qpn : Nat) : State :=
  (s.ringsOn qpn).foldl (fun t e =>
    (e.2.issued.filter (fun d => d.state == 1)).foldl (fun u d =>
      (u.upRing e.1 (fun r => { r with issued := lupd r.issued (fun x => x == d) (fun x => { x with state := 2 }) })).qpRead qpn (.genRead e.1 d.n)
        (e.2.descOff + 64 * e.2.slotOf d.n) e.2.descRkey 4) t) s

/-- Its recovery has failed: the rings are DETACHED. -/
def State.feedQpFailed (s : State) (qpn : Nat) : State := (s.ringsOn qpn).foldl (fun t e => t.ringDetach e.1) s

/-- The GEN write of a delivery is acknowledged. -/
def State.feedAck (s : State) (ring n : Nat) : State :=
  match s.ring ring with
  | none => s
  | some r =>
    match r.out n with
    | some d => if d.state = 0 ∨ d.state = 3 then s.landDelivery ring r d else s
    | none => s

/-- What the GEN word of a slot says of an uncertain delivery (Table 11.6). -/
def State.genChecked (s : State) (ring n gen : Nat) : State :=
  match s.ring ring with
  | none => s
  | some r =>
    match r.out n with
    | none => s
    | some d =>
      if d.state ≠ 2 then s
      else if d.rg ≠ r.rg then s.redeliver ring [d]
      else if gen = genWord r.rg n then
        (s.landDelivery ring r d).upFeed (fun f => { f with cDup := satu 65535 (f.cDup + 1) })
      else if gen = 0 ∨ gen = genWord r.rg ((n + 2 ^ 32 - r.slots) % 2 ^ 32) then
        let w := s.sendBatch ring r n d.batch (bit d.flags 9)
        w.1.upRing ring (fun r => { r with issued := lupd r.issued (fun x => x == d) (fun _ => { w.2 with state := 3 }) })
      else s.redeliver ring [d]

/-! ## Accelerators (R304 to R307) -/

/-- The rings of an accelerator that has gone are DETACHED; `st` is the point's next state. -/
def State.accLeave (s : State) (a st : Nat) : State :=
  let t := (s.ringsOf a).foldl (fun t e => t.ringDetach e.1) s
  t.upAcc a (fun x =>
    { x with st := st, owned := false, owner := 0, releasing := false, perst := true, speed := 0, width := 0, since := s.now, retry := false, funcs := [] })

/-- An ACTIVE accelerator departs (R306): it leaves, with an error record for each of its rings and DEPART_EV (Table 11.2, Table 11.15). -/
def State.accGone (s : State) (a st : Nat) : State :=
  let owner := (s.acc a).owner
  let rings := s.ringsOf a
  let t := s.accLeave a st
  let route : RecRoute := if (s.acc a).owned then .tenant owner else .tenant 0xFFFF
  let u := (if rings.isEmpty then [0] else rings.map (fun e => e.1)).foldl (fun t k => t.record (s.accUnit a) 0x00A0 k a 0 route) t
  u.flag 4 (accStatOff a) 9 (fun v => v.upFeed (fun f => { f with accs := amod f.accs a {} (fun x => { x with departEv := true }) }))

/-- Completes a FEED_RELEASE once every issued delivery has landed or been abandoned (R307). -/
def State.releaseSettle (s : State) (a : Nat) : State :=
  if (s.acc a).releasing && (s.ringsOf a).all (fun e => e.2.issued.isEmpty) then
    (s.accLeave a 0).finishAll (fun w => w.kind == wRelease && w.aux == a) sOk 0 0
  else s

/-! ## Ring reset (R312, R318) -/

/-- The end of a ring reset: the latch takes the new generation and COUNT, and the ring its previous state (R318). -/
def State.ringResetEnd (s : State) (ring : Nat) : State :=
  match s.ring ring with
  | none => s
  | some r =>
    let t := (s.upCell r.latch (fun l => { l with gen := r.rg, val := l.val / 2 ^ 32 * 2 ^ 32 + r.resetCount })).upRing ring (fun r => { r with st := r.prev })
    (t.ringArm ring).finishAll (fun w => w.kind == wRing && w.aux == ring) sOk 0 0

/-- Begins a ring reset (R318): a ring on a feed port reads its descriptor array before it ends; a DETACHED one has no accelerator to
read. -/
def State.ringReset (s : State) (ring count : Nat) : State :=
  match s.ring ring with
  | none => s
  | some r =>
    let back := r.issued.filter (fun d => !s.genOut ring r d)
    let t := (s.dropUnsent r (fun m => match m.op with | .delivery k n => k == ring && back.any (fun d => d.n == n) | _ => false)).redeliver ring back
    let u := t.upRing ring (fun r =>
      { r with rg := nextRg r.rg, n := 0, landed := 0, numbers := [], resetCount := count, prev := if r.st = 3 then r.prev else r.st, st := 3 })
    let v := if r.transport = 0 ∧ r.st ≠ 2 then u.emit .accRead r.accel r.descBar r.descOff (leBytes 4 4) else u.ringResetEnd ring
    if r.transport = 0 then v.releaseSettle r.accel else v

/-- A credit post on a latch (R312). -/
def State.latchPost (s : State) (n val : Nat) (feed : Bool) : State :=
  let l := s.cell n
  let c := val % 2 ^ 32
  let g := val / 2 ^ 48 % 65536
  match l.mode, l.bound.bind s.ring, l.bound with
  | 1, some r, some ring =>
    let ahead := (c + 2 ^ 32 - l.val % 2 ^ 32) % 2 ^ 32
    let excess := (c + 2 ^ 32 - r.landed % 2 ^ 32) % 2 ^ 32
    let far := decide (excess < 2 ^ 31) && decide (r.slots < excess)
    if g = l.gen then
      if ahead = 0 ∨ 2 ^ 31 ≤ ahead then s.upCell n (fun l => { l with dup := satu 65535 (l.dup + 1) })
      else if far then s.latchRefuse n feed
      else s.latchSet n (l.val / 2 ^ 32 * 2 ^ 32 + c)
    else if g = nextRg l.gen ∧ 1 ≤ c ∧ c ≤ r.slots ∧ r.st ≠ 3 then s.ringReset ring c
    else s.latchRefuse n feed
  | _, _, _ => s.latchRefuse n feed

/-! ## Whole-block events -/

/-- What delivery does when a master change takes effect (R324). -/
def State.feedMaster (s : State) (old new : Nat) : State :=
  if old ≤ new then s
  else
    let l := s.feed.rings.flatMap (fun e => e.2.redo ++ e.2.queue)
    if l.isEmpty then s
    else
      let t := s.upFeed (fun f => { f with rings := f.rings.map (fun e => (e.1, { e.2 with redo := [], queue := [] })) })
      (l.foldl (fun t b => t.abandon b false) t).feedFlag 5 (fun f => { f with evGen := true })

/-- What delivery does when the shuffle buffer is reset (R325, R317): it follows the Loom's own part. -/
def State.feedReset (s : State) : State :=
  let t := s.feed.rings.foldl (fun t e =>
    let r := e.2
    let back := r.issued.filter (fun d => !s.genOut e.1 r d)
    (t.dropUnsent r (fun m => match m.op with | .delivery k n => k == e.1 && back.any (fun d => d.n == n) | _ => false)).upRing e.1 (fun r =>
      { r with queue := [], redo := [], issued := r.issued.filter (fun d => !back.contains d), numbers := (r.numbers ++ back.map (fun d => d.n)).mergeSort (fun a b => decide (a ≤ b)) })) s
  (List.range 8).foldl (fun u a => u.releaseSettle a) t

/-- A function-level reset or disabling of a function (R327): its rings go, and its accelerators are owned by none. -/
def State.feedFnReset (s : State) (fn : Nat) : State :=
  let t := (s.feed.rings.filter (fun e => e.2.owner == fn)).foldl (fun t e => t.ringDestroy e.1) s
  (List.range 8).foldl (fun u a =>
    let x := u.acc a
    if x.owned && x.owner == fn && (x.st == 2 || x.st == 0x12) then
      (u.upAcc a (fun x => { x with st := 0x12, owned := false, owner := 0, releasing := false })).finishAll
        (fun w => w.kind == wRelease && w.aux == a) sAborted 0 0
    else u) t

end Sys2Proof.Machine
end

