-- ==== Sys2Proof/Machine/CkpOps.lean ====
section
/-!
DEFINITION. The checkpoint block as its commands and events share it (R367 to R389): guards, captures, banks and manifests, notices, drains and restores.
-/
namespace Sys2Proof.Config

/-- What the namespace of a checkpoint job holds when the job takes it: the latest valid bank there, its set and its contents, by the
number of a free value (R384, R386; log entry 79). -/
opaque remoteBank : Nat → Option (Nat × Nat × Machine.Bank)

/-- The other bank of that namespace, where it is valid too (R386; log entry 79). -/
opaque remoteOld : Nat → Option Machine.Bank

end Sys2Proof.Config

namespace Sys2Proof.Machine

open Sys2Proof

/-- OPEN_STEP of a shard that is open in every step (R370). -/
def openAll : Nat := 0xFFFFFFFFFF

/-- PF BAR0 offset of CKP_EVT. -/
def ckpEvtOff : Nat := 0x02400008

/-- What CKP_CAPTURE waits for; its number is job × 2^40 + step. -/
def wCapture : Nat := 60

/-- What CKP_RESTORE waits for; its number is the job. -/
def wRestore : Nat := 61

/-- Sets a flag of CKP_EVT. -/
def State.ckpFlag (s : State) (b : Nat) (f : Ckp → Ckp) : State := s.flag 8 ckpEvtOff b (fun u => u.upCkp f)

/-- The area of a JOB_ID. -/
def State.area (s : State) (jobId : Nat) : Option Area := s.ckp.areas.find? (fun a => a.jobId == jobId)

/-- Bytes of an area (R368). -/
def areaBytes (setGib : Nat) : Nat := 33554432 + 2 * setGib * 1073741824

/-- Capacity of the prompt book (Table 0.1). -/
def State.bookBytes (s : State) : Nat := if s.glb.part = .a48 then 2000000000000 else 4000000000000

/-- Total bytes of a job's shards. -/
def CkJob.total (j : CkJob) : Nat := (j.shards.map (fun d => d.size)).sum

/-- Table indexes in ascending SHARD_ID. -/
def CkJob.byId (j : CkJob) : List Nat :=
  (List.range j.shards.length).mergeSort (fun a b => decide ((j.shard a).id ≤ (j.shard b).id))

/-- The guards of a job. -/
def CkJob.guards (j : CkJob) : List Nat := (j.shards.map (fun d => d.guard)).eraseDups

/-- Checkpoint staging in use: a job holds room for its shards from the decision to the commit, and during a restore (R376). -/
def State.ckpUsed (s : State) : Nat :=
  ((s.ckp.jobs.filter (fun e => e.2.capture.isSome || e.2.restore.isSome)).map (fun e => e.2.total)).sum

/-- Writes bytes into the memory of an accelerator that is ACTIVE. -/
def State.accPut (s : State) (a bar off : Nat) (b : Bytes) : State := if (s.acc a).st = 2 then s.emit .accWrite a bar off b else s

/-- Sets OPEN_STEP of a guard; a change reaches the release words of its shards (R370). -/
def State.setGuard (s : State) (j : CkJob) (g v : Nat) : State :=
  if (s.cell g).val = v then s
  else (j.shards.filter (fun d => d.guard == g && d.release != 2 ^ 64 - 1)).foldl (fun t d => t.accPut d.accel d.bar d.release (leBytes 8 v))
    (s.latchSet g v)

/-- Sets OPEN_STEP of several guards. -/
def State.setGuards (s : State) (j : CkJob) (l : List Nat) (v : Nat) : State := l.foldl (fun t g => t.setGuard j g v) s

/-- The newest step whose decision point has passed (R372). -/
def State.passed (s : State) (j : CkJob) : Nat := (s.cue.pos + j.decidePh) / 65536

/-- Absolute phase of the decision point of the next step to decide (R372). -/
def CkJob.decisionAt (j : CkJob) : Int := (65536 * j.decided : Nat) - (j.decidePh : Int)

/-- OPEN_STEP that a job's guards have between decisions: the newest decided step, or every step without a cue (R374, R375). -/
def State.openNow (s : State) (j : CkJob) : Nat := if s.cueTimed then s.passed j else openAll

/-- Completes the CKP_CAPTURE commands of a job for a step. -/
def State.endCapture (s : State) (h step status detail : Nat) : State :=
  s.finishAll (fun w => w.kind == wCapture && w.aux == h * 2 ^ 40 + step) status detail 0

/-- The next step to decide is the first whose decision point lies ahead; requests for earlier ones are too late (R376). -/
def State.resync (s : State) (h : Nat) : State :=
  match s.ck h with
  | none => s
  | some j =>
    let n := s.passed j + 1
    let past := j.reqAt.filter (fun x => decide (x < n) && !(j.capture.any (fun c => c.step == x)))
    past.foldl (fun t x => t.endCapture h x 0x0017 0) (s.upCk h (fun j => { j with decided := n, reqAt := j.reqAt.filter (fun x => decide (n ≤ x)) }))

/-! ## Banks and manifests (R381) -/

/-- A stream record (Table 13.3). -/
def CkStream.bytes (r : CkStream) : Bytes :=
  leBytes 2 r.stream ++ [BitVec.ofNat 8 r.rank, BitVec.ofNat 8 r.elem] ++ zeros 4 ++ padTo 16 (r.dims.flatMap (leBytes 4)) ++ zeros 8

/-- A box record (Table 13.3). -/
def CkBox.bytes (b : CkBox) : Bytes :=
  leBytes 4 b.shard ++ leBytes 2 b.stream ++ zeros 2 ++ padTo 16 (b.origin.flatMap (leBytes 4)) ++ padTo 16 (b.extent.flatMap (leBytes 4)) ++ zeros 8

/-- A shard entry of a manifest. -/
def entryBytes (e : Shard × Nat × Bytes) : Bytes :=
  leBytes 4 e.1.id ++ [BitVec.ofNat 8 e.1.accel, 0] ++ leBytes 2 e.1.stream ++ leBytes 4 e.1.shapeClass ++ zeros 4 ++ leBytes 8 e.1.size ++
    leBytes 8 e.2.1 ++ padTo 32 e.2.2

/-- The manifest without its signature (Table 13.10). -/
def Manifest.body (m : Manifest) : Bytes :=
  let es := m.shards.flatMap entryBytes
  let ss := pad64 (m.streams.flatMap CkStream.bytes)
  let bs := pad64 (m.boxes.flatMap CkBox.bytes)
  let cs := pad64 m.cursor
  let o1 := 128 + es.length
  let o2 := o1 + ss.length
  let o3 := o2 + bs.length
  leBytes 4 (o3 + cs.length + 64) ++ leBytes 2 1 ++ leBytes 2 m.members ++ leBytes 2 m.rank ++ [BitVec.ofNat 8 m.gen, BitVec.ofNat 8 (b2n m.noCue)] ++
    leBytes 4 m.jobId ++ leBytes 8 m.step ++ leBytes 8 m.time ++ leBytes 4 m.shards.length ++ leBytes 2 m.streams.length ++ zeros 2 ++
    leBytes 4 m.boxes.length ++ leBytes 4 128 ++ leBytes 4 o1 ++ leBytes 4 o2 ++ leBytes 4 (if m.cursor.isEmpty then 0 else o3) ++
    leBytes 4 m.cursor.length ++ padTo 64 m.signer ++ es ++ ss ++ bs ++ cs

/-- The manifest. -/
def Manifest.bytes (m : Manifest) : Bytes := m.body ++ padTo 64 m.sig

/-- A bank: its header, then its manifest; a zeroed header reads 0 (Table 13.9). -/
def Bank.bytes (b : Bank) : Bytes :=
  if !b.hdrOk then zeros 64
  else
    let m := b.man.bytes
    let hd := leBytes 8 b.seq ++ [BitVec.ofNat 8 b.set_, 1] ++ zeros 2 ++ leBytes 4 m.length ++ zeros 44
    hd ++ leBytes 4 (crc32c (hd ++ m)) ++ m

/-- Whether the manifest's signature verifies and its signer is allowed (R381); a signature that is the device's own verifies. -/
def State.signedOk (s : State) (m : Manifest) : Bool :=
  let d := sha256 m.body
  (m.signer == Config.devKey && m.sig == Config.ecdsaSign d) ||
    (Config.ecdsaVerify m.signer d m.sig && (m.signer == Config.devKey || s.sm.cfg.signers.contains (sha256 m.signer)))

/-- Whether a bank is valid (R381). -/
def State.bankOk (s : State) (b : Bank) : Bool := b.hdrOk && s.signedOk b.man

/-- The latest checkpoint of an area: bank number and bank. -/
def State.latest (s : State) (a : Area) : Option (Nat × Bank) :=
  match s.bankOk a.bank0, s.bankOk a.bank1 with
  | true, true => if a.bank0.seq < a.bank1.seq then some (1, a.bank1) else some (0, a.bank0)
  | true, false => some (0, a.bank0)
  | false, true => some (1, a.bank1)
  | false, false => none

/-- Changes a bank of an area. -/
def State.upBank (s : State) (jobId n : Nat) (f : Bank → Bank) : State :=
  s.upCkp (fun k => { k with areas := lupd k.areas (fun a => a.jobId == jobId) (fun a =>
    if n = 0 then { a with bank0 := f a.bank0 } else { a with bank1 := f a.bank1 }) })

/-- The prompt book holds a shard at an offset of a set, in place of what lay there and beyond (R368). -/
def State.putShard (s : State) (jobId x off : Nat) (b : Bytes) : State :=
  s.upCkp (fun k => { k with areas := lupd k.areas (fun a => a.jobId == jobId) (fun a =>
    { a with data := a.data.filter (fun e => e.1 != x || decide (e.2.1 < off)) ++ [(x, off, b)] }) })

/-! ## Notices (R383) -/

/-- Where the device reserve holds the checkpoint mailbox of a job, one entry a sender (log entry 26). -/
def State.ckpBase (s : State) (h : Nat) : Nat := s.partBase .reserve + 260046848 + 65536 * h

/-- The Loom job of a checkpoint job: its number. -/
def State.loomOf (s : State) (j : CkJob) : Option (Nat × Job) := s.loom.jobs.find? (fun e => e.2.jobId == j.jobId)

/-- Writes a notice to every other member over the job's exchange queue pairs (Table 13.11). -/
def State.ckpNotify (s : State) (h type step seq : Nat) : State :=
  match s.ck h with
  | none => s
  | some j =>
    match s.loomOf j with
    | none => s
    | some (l, _) =>
      ((List.range j.members).filter (fun r => r != j.rank)).foldl (fun t r =>
        match aget (t.jobX l).xqps r, t.ck h with
        | some q, some i =>
          let n := agetD i.xout r 0 + 1
          let key := (aget i.peers r).getD (t.freeNat (2 ^ 32))
          let t1 := if ahas i.peers r then t else t.spent
          let b := leBytes 4 j.jobId ++ leBytes 2 j.rank ++ [BitVec.ofNat 8 type, 0] ++ leBytes 8 step ++ leBytes 8 seq ++ zeros 32 ++ leBytes 8 n
          (t1.upCk h (fun i => { i with xout := aset i.xout r n, peers := aset i.peers r key })).qpWrite q .notice
            (64 * j.rank) key b false
        | _, _ => t) s

/-- A COMMITTED for a step from a rank; with one from every member the step is troupe-committed (R383). -/
def State.ckpCommitted (s : State) (h step rank : Nat) : State :=
  s.upCk h (fun j =>
    let l := aset j.committed step (ladd (agetD j.committed step []) rank)
    let whole := decide (j.members ≤ (agetD l step []).length)
    { j with committed := if whole then l.filter (fun e => decide (step ≤ e.1)) else l,
             troupeStep := if whole then max j.troupeStep step else j.troupeStep })

/-- Whether a step is troupe-committed. -/
def CkJob.troupeDone (j : CkJob) (step : Nat) : Bool := decide (j.members ≤ (agetD j.committed step []).length)

/-! ## Captures -/

/-- Opening value of a guard whose shards are copied: s, or every step without a locked cue (R375, R376). -/
def State.copyOpen (s : State) (c : Capture) : Nat := if s.cueTimed && !c.noCue then c.step else openAll

/-- Guards that a capture still holds: those with a shard not in staging. -/
def CkJob.heldGuards (j : CkJob) (c : Capture) : List Nat := j.guards.filter (fun g => c.left.any (fun i => (j.shard i).guard == g))

/-- Abandons a capture (R379). -/
def State.ckpAbandon (s : State) (h code : Nat) : State :=
  match s.ck h with
  | none => s
  | some j =>
    match j.capture with
    | none => s
    | some c =>
      let t := s.setGuards j (j.heldGuards c) (s.copyOpen { c with noCue := false })
      let u := (t.upBank j.jobId c.bank (fun b => { b with hdrOk := false })).upCk h (fun j => { j with capture := none, lastAbandon := code })
      let v := (u.ckpFlag 1 (fun k => { k with evAbandon := true, cAbandon := satu 65535 (k.cAbandon + 1) })).record 0 0x00C0 0 code 0 (.tenant 0)
      (if j.members ≤ 1 then v else v.ckpNotify h 2 c.step 0).endCapture h c.step 0x0018 code

/-- Why a capture is not made now; `relock` takes reason 5 into account (Table 13.5). An accelerator that is not ACTIVE makes every decision
skip with ACCEL (R389). -/
def State.skipReason (s : State) (j : CkJob) (relock : Bool) : Option Nat :=
  if j.shards.any (fun d => (s.acc d.accel).st != 2) then some 4
  else if j.capture.isSome then some 1
  else if decide (1 < j.members) && (match j.lastCommit with | some x => !(j.troupeDone x) | none => false) then some 2
  else if s.partLen .ckp < s.ckpUsed + j.total then some 3
  else if relock && j.relock then some 5
  else if s.held 0 || s.partHeld .ckp then some 6
  else none

/-- Bytes of a set of a job area: its shards one after another (R368, R381). -/
def Area.setBytes (a : Area) (x : Nat) : Bytes := ((a.data.filter (fun e => e.1 == x)).map (fun e => e.2.2)).flatten

/-- The commands of a drain to the namespace, which mirrors the area's layout: the header of the bank that the remote copy does not
reference is zeroed, the shards go into the set that it does not reference, a Flush follows, and bank header and manifest are written with
FUA (R384). -/
def CkJob.drainSteps (j : CkJob) (a : Area) (src : Bank) : List IntStep :=
  let bank := match j.remote with | some (k, _, _) => 1 - k | none => 0
  let set_ := match j.remote with | some (_, x, _) => 1 - x | none => 0
  let b : Bank := { src with set_ := set_ }
  let image := a.setBytes src.set_
  intWrites false 1 (16777216 * bank) (zeros 4096) ++
    intWrites false (image.length / 1048576 + 1) (33554432 + set_ * j.setGib * 1073741824) image ++ [.flush] ++
    intWrites true (b.bytes.length / 1048576 + 1) (16777216 * bank) b.bytes

/-- Begins the drain of the newest commit, as an internal writer (R384). -/
def State.drainBegin (s : State) (h : Nat) : State :=
  match s.ck h with
  | none => s
  | some j =>
    match s.area j.jobId with
    | none => s
    | some a =>
      match s.latest a with
      | none => s
      | some (_, b) =>
        if j.nsid = 0 ∨ j.drain.isSome then s
        else
          let l := j.drainSteps a b
          let t := s.upCk h (fun j => { j with drain := some { seq := b.seq, set_ := b.set_, step := b.man.step }, remoteOld := none })
          ((t.intDrop (.drain h)).upSto (fun x => { x with ints := x.ints ++ [{ use := .drain h, ctrl := 0, nsid := j.nsid, todo := l }] })).intAdvance
            (l.length + 1) (.drain h)

/-- Whether the WARN trigger requests a capture at a step: the first at least MIN_GAP steps after the previous one (R373). -/
def CkJob.warnWants (j : CkJob) (step : Nat) : Bool :=
  j.warned && (match j.lastStep with | some l => decide (l + j.minGap ≤ step) | none => true)

/-- Begins a capture for a step: the set that the committed bank does not reference, and the bank that references it (Table 13.6). -/
def State.captureBegin (s : State) (h step : Nat) (noCue : Bool) : State :=
  match s.ck h with
  | none => s
  | some j =>
    let last := (s.area j.jobId).bind s.latest
    let bank := match last with
      | some (n, _) => 1 - n
      | none => 0
    let x := match last with
      | some (_, b) => 1 - b.set_
      | none => 0
    let cut := match j.drain with
      | some d => d.set_ == x
      | none => false
    let t := s.upCk h (fun j =>
      { j with capture := some { step := step, noCue := noCue, bank := bank, set_ := x, left := j.byId }, lastStep := some step })
    let u := t.emit .pbWrite h (16777216 * bank) 64 (zeros 64)
    if cut then
      (((u.intDrop (.drain h)).upCk h (fun j => { j with drain := none })).upCkp (fun k => { k with cDrainAb := satu 65535 (k.cDrainAb + 1) })).drainBegin h
    else u

/-- Whether a job's triggers or commands request a capture at a step (R373, R376). -/
def State.requested (s : State) (j : CkJob) (step : Nat) : Bool :=
  (bit j.trigEn 0 && decide (((step : Int) - (j.baseStep : Int)) % (j.nSteps : Int) = 0)) ||
    (bit j.trigEn 1 && decide (j.lastBegin + j.tS * 1000000000 ≤ s.now)) ||
    j.warnWants step || j.reqAt.contains step

/-- The capture that a WARN requests at a step is decided, made or skipped (R373): CKP_EVT.WARN_EV is cleared with the last WARN raised. -/
def State.warnDecided (s : State) (h : Nat) (j : CkJob) (step : Nat) : State :=
  if j.warnWants step then
    let t := s.upCk h (fun j => { j with warned := false })
    t.upCkp (fun k => { k with evWarn := k.evWarn && k.jobs.any (fun e => e.2.warned) })
  else s

/-- The decision for a step (R374). -/
def State.decide_ (s : State) (h : Nat) (j : CkJob) : State :=
  let step := j.decided
  let want := s.requested j step
  let t := (s.upCk h (fun j => { j with decided := step + 1, relock := false, reqAt := j.reqAt.filter (fun x => x != step) })).warnDecided h j step
  match want, s.skipReason j true with
  | true, none => (t.setGuards j j.guards (step - 1)).captureBegin h step false
  | true, some r =>
    let u := ((t.upCk h (fun j => { j with lastSkip := r, skips := satu 4294967295 (j.skips + 1) })).ckpFlag 2 (fun k =>
      { k with evSkip := true, cSkip := satu 65535 (k.cSkip + 1) })).endCapture h step 0x0019 r
    u.setGuards j (j.guards.filter (fun g => !(j.capture.any (fun c => (j.heldGuards c).contains g)))) step
  | false, _ => t.setGuards j (j.guards.filter (fun g => !(j.capture.any (fun c => (j.heldGuards c).contains g)))) step

/-- Whether a capture is due to start copying: its step is reached, or it takes no step (Table 13.6). -/
def State.captureDue (s : State) (c : Capture) : Bool := !c.started && (c.noCue || (s.cue.st != .none && decide (65536 * c.step ≤ s.cue.pos)))

/-- Copying begins: generation and time are those of s:0, and the Loom cursor is that of step s (R379, R382). -/
def State.captureStart (s : State) (h : Nat) (j : CkJob) (c : Capture) : State :=
  let cur := match s.loomOf j with
    | some e => e.2.cursor (if c.noCue then s.jobStep e.2 else c.step)
    | none => []
  (j.heads c).foldl (fun t i => t.shardRead j c i)
    (s.upCk h (fun j => { j with lastBegin := s.now, capture := some { c with started := true, gen := s.cue.gen, time := s.now, cursor := cur } }))

/-- A shard is in staging: its guard opens with the last of its shards (R376, R377). -/
def State.shardIn (s : State) (h i : Nat) (j : CkJob) (c : Capture) (data : Bytes) : State :=
  let d := j.shard i
  let left := c.left.filter (fun k => k != i)
  let c' := { c with left := left, stored := c.stored ++ [i], digests := aset c.digests i (sha256 data), held := aset c.held i data, paused := adel c.paused i }
  let opens := !(left.any (fun k => (j.shard k).guard == d.guard))
  let waited := aget c.awaits d.guard
  let stall := match waited with
    | some t0 => (s.now - t0) / 1000
    | none => 0
  let c'' := if opens then { c' with awaits := adel c'.awaits d.guard } else c'
  let t := (s.upCk h (fun j => { j with capture := some c'', maxStall := if opens then max j.maxStall (min stall 4294967295) else j.maxStall })).ao 14 data.length
  let u := if opens then t.setGuard j d.guard (t.copyOpen c) else t
  match left.find? (fun k => (j.shard k).accel == d.accel) with
  | some k => u.shardRead j c'' k
  | none => u

/-- The manifest with which a capture commits (R381, R382). -/
def State.manifest (s : State) (j : CkJob) (c : Capture) : Manifest :=
  let m : Manifest :=
    { members := j.members, rank := j.rank, gen := c.gen, noCue := c.noCue, jobId := j.jobId, step := c.step, time := c.time,
      shards := c.acked.map (fun e => (j.shard e.1, e.2.1, e.2.2)), streams := j.streams, boxes := j.boxes, cursor := c.cursor, signer := Config.devKey }
  { m with sig := Config.ecdsaSign (sha256 m.body) }

/-- The commit (Table 13.6): bank, counters, notices and drain. -/
def State.commit (s : State) (h : Nat) (j : CkJob) (c : Capture) : State :=
  let a := (s.area j.jobId).getD {}
  let b : Bank := { hdrOk := true, set_ := c.set_, seq := max a.bank0.seq a.bank1.seq + 1, man := s.manifest j c }
  let t := ((s.emit .pbWrite h (16777216 * c.bank) b.bytes.length b.bytes).upBank j.jobId c.bank (fun _ => b)).upCk h (fun j =>
    { j with capture := none, lastCommit := some c.step })
  let u := (t.ao 20 1).ckpFlag 0 (fun k => { k with evCommit := true })
  let v := u.ckpCommitted h c.step j.rank
  ((if j.members ≤ 1 then v else v.ckpNotify h 1 c.step b.seq).endCapture h c.step 0 0).drainBegin h

/-! ## Boxes (R386, R388) -/

/-- A box as one interval (low, high) per dimension. -/
abbrev Cube := List (Nat × Nat)

/-- The interval form of a box record. -/
def CkBox.cube (b : CkBox) : Cube := (b.origin.zip b.extent).map (fun e => (e.1, e.1 + e.2))

/-- Whether a cube holds no element. -/
def cubeEmpty (a : Cube) : Bool := a.any (fun e => decide (e.2 ≤ e.1))

/-- The common part of two cubes. -/
def cubeMeet (a b : Cube) : Cube := (a.zip b).map (fun e => (max e.1.1 e.2.1, min e.1.2 e.2.2))

/-- The parts of a cube outside another, as disjoint cubes. -/
def cubeMinus : Cube → Cube → List Cube
  | (l, h) :: a, (l', h') :: b =>
    let ml := max l l'
    let mh := min h h'
    if mh ≤ ml then [(l, h) :: a]
    else ([(l, ml) :: a, (mh, h) :: a] ++ (cubeMinus a b).map (fun r => (ml, mh) :: r)).filter (fun r => !cubeEmpty r)
  | _, _ => []

/-- What a list of cubes leaves of another. -/
def cubesMinus (a : List Cube) (l : List Cube) : List Cube := l.foldl (fun r b => r.flatMap (fun x => cubeMinus x b)) a

/-- Position of a coordinate inside a box whose elements lie row-major. -/
def boxIndex (c : Cube) (at_ : List Nat) : Nat := (c.zip at_).foldl (fun n e => n * (e.1.2 - e.1.1) + (e.2 - e.1.1)) 0

/-- The rows of a cube: the coordinates at which each begins, and its length. -/
def cubeRows : Cube → List (List Nat × Nat)
  | [] => []
  | [(l, h)] => [([l], h - l)]
  | (l, h) :: t => (List.range' l (h - l)).flatMap (fun x => (cubeRows t).map (fun r => (x :: r.1, r.2)))

/-- The part of a target box that a source box fills: what no box of lower SHARD_ID holds (R388). -/
def fills (boxes : List CkBox) (src dst : CkBox) : List Cube :=
  cubesMinus [cubeMeet src.cube dst.cube] ((boxes.filter (fun b => b.stream == src.stream && decide (b.shard < src.shard))).map CkBox.cube)
    |>.filter (fun c => !cubeEmpty c)

/-! ## Restores (R386 to R388) -/

/-- The box of a shard in a list. -/
def boxOf (l : List CkBox) (shard : Nat) : Option CkBox := l.find? (fun b => b.shard == shard)

/-- Boxes of a manifest whose shards lie on other members. -/
def Manifest.foreign (m : Manifest) : List CkBox := m.boxes.filter (fun b => !(m.shards.any (fun e => e.1.id == b.shard)))

/-- The source box of a restore's index: a shard entry's, or beyond them a foreign box (log entry 26). -/
def Manifest.srcBox (m : Manifest) (i : Nat) : Option CkBox :=
  match m.shards[i]? with
  | some e => if e.1.stream = 0xFFFF then none else boxOf m.boxes e.1.id
  | none => m.foreign[i - m.shards.length]?

/-- Whether a shard of the table matches a manifest (R386). -/
def CkJob.matches_ (j : CkJob) (m : Manifest) (d : Shard) : Bool :=
  if d.stream = 0xFFFF then m.shards.any (fun e => e.1.id == d.id && e.1.shapeClass == d.shapeClass && e.1.size == d.size)
  else
    match j.streams.find? (fun r => r.stream == d.stream), m.streams.find? (fun r => r.stream == d.stream), boxOf j.boxes d.id with
    | some a, some b, some x =>
      a == b && (cubesMinus [x.cube] ((m.boxes.filter (fun y => y.stream == d.stream)).map CkBox.cube)).isEmpty
    | _, _, _ => false

/-- Writes what a source shard gives each local target into the accelerators' memory. -/
def State.restoreWrite (s : State) (j : CkJob) (m : Manifest) (i : Nat) (data : Bytes) : State :=
  j.shards.foldl (fun t d =>
    if d.stream = 0xFFFF then
      (match m.shards[i]? with
       | some e => if e.1.id = d.id then t.accPut d.accel d.bar d.offset data else t
       | none => t)
    else match m.srcBox i, boxOf j.boxes d.id, j.streams.find? (fun r => r.stream == d.stream) with
      | some src, some dst, some st =>
        if src.stream ≠ d.stream then t
        else ((fills m.boxes src dst).flatMap cubeRows).foldl (fun u r =>
          u.accPut d.accel d.bar (d.offset + boxIndex dst.cube r.1 * st.elem) (sub data (boxIndex src.cube r.1 * st.elem) (r.2 * st.elem))) t
      | _, _, _ => t) s

/-- Source indexes that a restore reads: what fills a shard of the table, or a box of it on another member. -/
def CkJob.sources (j : CkJob) (m : Manifest) : List Nat :=
  (List.range (m.shards.length + m.foreign.length)).filter (fun i =>
    match m.srcBox i with
    | some src => j.boxes.any (fun b =>
        b.stream == src.stream && (decide (i < m.shards.length) || j.shards.any (fun d => d.id == b.shard)) && !(fills m.boxes src b).isEmpty)
    | none => match m.shards[i]? with
      | some e => j.shards.any (fun d => d.stream == 0xFFFF && d.id == e.1.id)
      | none => false)

/-- The end of a restore that wrote every shard (R387). -/
def State.restoreEnd (s : State) (h : Nat) : State :=
  match s.ck h with
  | none => s
  | some j =>
    match j.restore with
    | none => s
    | some r =>
      let t := if r.cursorAddr = 0 ∨ r.man.cursor.isEmpty then s else s.hostWrite 0 r.cursorAddr r.man.cursor
      let u := (t.upCk h (fun j => { j with restore := none, relock := true })).setGuards j j.guards openAll
      (u.resync h).finishAll (fun w => w.kind == wRestore && w.aux == h) sOk 0 (r.man.step % 2 ^ 32)

/-! ## What other blocks' events do to the checkpoint block -/

/-- Does something for every job. -/
def State.eachCk (s : State) (f : State → Nat → State) : State := s.ckp.jobs.foldl (fun t e => f t e.1) s

/-- A master change takes effect: captures of steps after the new one are abandoned, and decisions go on from there (Table 13.8). -/
def State.ckpMaster (s : State) : State :=
  s.eachCk (fun t h =>
    match t.ck h with
    | none => t
    | some j =>
      let u := match j.capture with
        | some c => if !c.noCue ∧ s.step < c.step then t.ckpAbandon h 3 else t
        | none => t
      u.resync h)

/-- The cue enters LOST or NONE: every guard that no capture holds opens in every step (R375). -/
def State.ckpCueOff (s : State) : State :=
  s.eachCk (fun t h =>
    match t.ck h with
    | none => t
    | some j =>
      if j.restore.isSome then t
      else t.setGuards j (j.guards.filter (fun g => !(j.capture.any (fun c => (j.heldGuards c).contains g)))) openAll)

/-- The cue enters LOCKED or HOLDOVER from another state (Table 13.5). -/
def State.ckpRelock (s : State) : State := s.eachCk (fun t h => (t.upCk h (fun j => { j with relock := true })).resync h)

/-- Checkpoint staging is reset: captures with a shard that the prompt book has not acknowledged are abandoned (Table 13.8). -/
def State.ckpStagingReset (s : State) : State :=
  s.eachCk (fun t h =>
    match (t.ck h).bind (fun j => j.capture.map (fun c => (j, c))) with
    | some (j, c) => if c.acked.length < j.shards.length then t.ckpAbandon h 1 else t
    | none => t)

/-- An accelerator departs: captures with a shard of it not yet in staging are abandoned (Table 13.8). -/
def State.ckpAccGone (s : State) (a : Nat) : State :=
  s.eachCk (fun t h =>
    match (t.ck h).bind (fun j => j.capture.map (fun c => (j, c))) with
    | some (j, c) => if c.left.any (fun i => (j.shard i).accel == a) then t.ckpAbandon h 2 else t
    | none => t)

/-- Frees the guard latches of a job. -/
def State.freeGuards (s : State) (j : CkJob) : State :=
  j.guards.foldl (fun t g => t.upCell g (fun l => { l with guard := none, en := false, mode := 0, tkind := 0, tindex := 0, mask := 0, armed := false })) s

/-- Closes a job; what waits on it ends with a status. -/
def State.ckpClose (s : State) (h : Nat) : State :=
  match s.ck h with
  | none => s
  | some j =>
    let t := ((s.freeGuards j).upCkp (fun k => { k with jobs := adel k.jobs h })).intDropIf (fun u =>
      match u with | .drain k => k == h | .shard k _ => k == h | _ => false)
    let u := if j.mbox = 0 then t else t.regionDel j.mbox
    u.finishAll (fun w => (w.kind == wCapture && w.aux / 2 ^ 40 == h) || (w.kind == wRestore && w.aux == h)) sAborted 0 0

/-- A function-level reset of the PF: captures are abandoned and jobs closed; the areas stay (Table 13.8). -/
def State.ckpFlr (s : State) : State := s.eachCk (fun t h => (t.ckpAbandon h 5).ckpClose h)

/-- A detected error of the unit with a ladder index may raise a WARN (R373). -/
def ckpClass (n : Nat) : Nat := if n < 64 then 0 else if n < 128 then 1 else if n < 144 then 2 else if n < 160 then 3 else 4

/-- Detected errors of a class in the last `w` seconds. -/
def State.warnCount (s : State) (cls w : Nat) : Nat :=
  ((s.ras.units.filter (fun e => ckpClass e.1 == cls)).map (fun e =>
    (e.2.detAt.filter (fun t => decide (s.now < t + w * 1000000000 + 1))).length)).sum

/-- Raises the WARN triggers whose thresholds the detected errors have reached (R373). -/
def State.ckpWarn (s : State) (cls : Nat) : State :=
  s.eachCk (fun t h =>
    match t.ck h with
    | none => t
    | some j =>
      let th := j.thresh.getD cls 0
      if bit j.trigEn 2 && th != 0 && !j.warned && decide (th ≤ t.warnCount cls j.windowS) then
        (t.upCk h (fun j => { j with warned := true })).ckpFlag 4 (fun k => { k with evWarn := true })
      else t)

end Sys2Proof.Machine
end

