-- ==== Sys2Proof/Machine/CueOwn.lean ====
section
/-!
DEFINITION. The internal part of the cue event table (R52): the work that the Loom and the checkpoint block schedule by the cue, formed from what
stands in their state, and its order with the function entries (R50, R54); and the events by which that work begins.
-/
namespace Sys2Proof.Machine

open Sys2Proof

/-- One entry of the internal part of the cue event table (R52): a capture decision (R372), a capture's start (R376), the beginning of a step's
fetches (R285), a rescue (R290), and the close of a weave (R286). -/
inductive OwnWork where
  | decision (job : Nat)
  | capture (job : Nat)
  | fetch (job : Nat)
  | rescue (job warp abs : Nat)
  | weave (job ring step : Nat)
deriving DecidableEq, Repr

/-- The entries of the internal part that are due while the cue runs and whose work can begin, each with its target. -/
def State.ownDue (s : State) : List (Int × OwnWork) :=
  if !s.cueTimed then []
  else
    s.ckp.jobs.flatMap (fun e =>
      (if e.2.decided ≤ s.passed e.2 ∧ e.2.restore.isNone then [(e.2.decisionAt, .decision e.1)] else []) ++
        (match e.2.capture with
         | some c => if s.captureDue c ∧ c.noCue = false then [((65536 * c.step : Int), .capture e.1)] else []
         | none => [])) ++
      s.loom.jobs.flatMap (fun e =>
        (if s.fetchDue e.1 then [(e.2.fetchAt, OwnWork.fetch e.1)] else []) ++
          (s.rescuesDue e.1 e.2).map (fun r => (r.1, OwnWork.rescue e.1 r.2.1 r.2.2)) ++
          (s.weavesDue e.1 e.2).map (fun r => (r.1, OwnWork.weave e.1 r.2.1 r.2.2)))

/-- Does the work of an entry. -/
def State.ownFire (s : State) (w : OwnWork) : State :=
  match w with
  | .decision h => match s.ck h with
    | some j => s.decide_ h j
    | none => s
  | .capture h => match (s.ck h).bind (fun j => j.capture.map (fun c => (j, c))) with
    | some (j, c) => s.captureStart h j c
    | none => s
  | .fetch h => match s.job h with
    | some j => (s.fetchStep h j.fetchNext).weaveJob h
    | none => s
  | .rescue h i abs => s.rescue h i abs
  | .weave h ring step => s.weaveClose h ring step

/-- The due entry of the internal part with the lowest target up to a bound. DESIGN CHOICE (log entry 70): at equal target, those of the
checkpoint block come first, then the Loom's, each by job, and a job's fetches, rescues and weaves in this order. -/
def State.ownNext (s : State) (bound : Int) : Option (Int × OwnWork) :=
  (s.ownDue.filter (fun e => decide (e.1 ≤ bound))).foldl (fun m e =>
    match m with
    | some x => if x.1 ≤ e.1 then some x else some e
    | none => some e) none

/-- Fires what is due first: the function entries with targets up to one bound and the blocks' own up to another, in ascending order of target,
function entries first at equal target (R54). -/
def State.cueStep (s : State) (own fn : Int) : Option State :=
  match s.cueNext (fun e => e.kind == 0 && decide ((e.target : Int) ≤ fn)), s.ownNext own with
  | some (i, e), some (x, w) => some (if (e.target : Int) ≤ x then s.cueFire i e else s.ownFire w)
  | some (i, e), none => some (s.cueFire i e)
  | none, some (_, w) => some (s.ownFire w)
  | none, none => none

/-- Fires what is due one after another. -/
def State.cueRun (own fn : Int) : Nat → State → State
  | 0, s => s
  | n + 1, s =>
    match s.cueStep own fn with
    | some t => State.cueRun own fn n t
    | none => s

/-- More than can be due at one moment: 64 jobs of 2^32 positions and of rings and guards in each of 2^40 steps, and the function entries. -/
def cueFuel : Nat := 2 ^ 80

/-- Fires what is due up to two bounds. -/
def State.cueTo (s : State) (own fn : Int) : State := if s.cueTimed then State.cueRun own fn cueFuel s else s

/-- Fires all that is due (R50). -/
def State.cueAll (s : State) : State := s.cueTo s.cue.pos s.cue.pos

/-- An event by which an entry of the internal part fires: what is due before it fires first (R54). Where no such entry is due, the event does
what it does without a target. -/
def State.ownEvent (s : State) (p : OwnWork → Bool) (other : State → State) : State :=
  match s.ownDue.find? (fun e => p e.2) with
  | none => other s
  | some (x, _) =>
    let t := s.cueTo (x - 1) x
    match t.ownDue.find? (fun e => p e.2) with
    | some (_, w) => t.ownFire w
    | none => t

/-! ## The Loom's events -/

/-- LOOM_FETCH_START: fetching begins for a job's next step (R285, R287). -/
def execLoomFetchStart (job : Nat) (s : State) : Res :=
  onMain s (fun t => t.ownEvent (fun w => w == .fetch job) (fun u => if u.cueTimed = false ∧ u.fetchDue job = true then u.ownFire (.fetch job) else u))

/-- RESCUE_FETCH: a sample still absent RESCUE_PH phases before its weave closes is fetched here (R290). -/
def execRescueFetch (job warp abs : Nat) (s : State) : Res := onMain s (fun t => t.ownEvent (fun w => w == .rescue job warp abs) id)

/-- WEAVE_CLOSE: the weave of a consumer's next batch closes (R286, R292, R293); without deadlines a woven batch is handed over (R287). -/
def execWeaveClose (job consumer : Nat) (s : State) : Res :=
  onMain s (fun t =>
    match t.job job with
    | none => t
    | some j =>
      let x := t.jobX job
      match j.weaveNext.find? (fun e => ringNo j x (j.handNext e.1 e.2) e.1 == some consumer) with
      | none => t
      | some e =>
        t.ownEvent (fun w => w == .weave job e.1 (j.handNext e.1 e.2)) (fun u =>
          if u.cueTimed = false ∧ x.closing = false then u.weaveClose job e.1 (j.handNext e.1 e.2) else u))

end Sys2Proof.Machine
end

