-- ==== Sys2Proof/Machine/Feed.lean ====
section
/-!
DEFINITION. Delivery's commands and events (chapter 11), the latches' accesses among them.
-/
namespace Sys2Proof.Machine

open Sys2Proof

/-! ## Ports and accelerators -/

/-- The unit against whose intermission FEED_SET_PORT is judged (R85, R301): the port it names, or all of them. -/
def portSettingUnit (h : Hdr) (p : Bytes) : Nat := if h.unit / 65536 = 0x4FFF then 0x4FFF0000 else unitId 4 (fld p 0 1)

/-- An attachment point of a port is disabled: an ACTIVE accelerator leaves. -/
def State.accOff (s : State) (a : Nat) : State :=
  if (s.acc a).st = 2 then
    (s.accLeave a 0).finishAll (fun w => w.kind == wRelease && w.aux == a) sOk 0 0
  else s.upAcc a (fun x => { x with st := 0, perst := true, retry := false, speed := 0, width := 0, funcs := [] })

/-- FEED_SET_PORT takes effect (R301, R302, R304): points of a port whose EN and BIFURCATE stay as they are keep their links, but for
those that are OFF. -/
def State.applySetPort (s : State) (p : Bytes) : State :=
  let n := fld p 0 1
  let en := fld p 1 1 == 1
  let bi := fld p 2 1 == 1
  let old := s.feedPort n
  let same := old.en == en && old.halved == bi
  let off := fun (t : State) (a : Nat) => if same && (t.acc a).st != 0 then t else t.accOff a
  let t := off (off s (2 * n)) (2 * n + 1)
  let u := t.upFeed (fun f => { f with ports := amod f.ports n {} (fun x => { x with en := en, halved := bi, latchAddr := fld p 8 8 }) })
  let on_ := fun (v : State) (a : Nat) => if en && v.accThere a && (v.acc a).st == 0 then v.upAcc a (fun x => { x with st := 0x11 }) else v
  on_ (on_ u (2 * n)) (2 * n + 1)

/-- FEED_SET_PORT (R301). -/
def opFeedSetPort : OpSpec :=
  { code := 0x0500, len := fun _ => 16,
    fields := fun _ p => [(0, decide (fld p 0 1 < 4)), (1, decide (fld p 1 1 ≤ 1)), (2, decide (fld p 2 1 ≤ 1)), rsv p 3 5, (8, fld p 8 8 % 524288 == 0)],
    run := fun c h p s =>
      let u := portSettingUnit h p
      match s.settingStop c u true with
      | some v => v
      | none => s.setting 0x0500 c { h with unit := u } p (fun x => fld x.params 0 1 == fld p 0 1) 0 (fun t => t.applySetPort p) }

/-- FEED_SET_PORT. -/
def execFeedSetPort (h : Hdr) (p : Bytes) (s : State) : Res := runPkt opFeedSetPort h p s

/-- FEED_ADMIT (R308). -/
def opFeedAdmit : OpSpec :=
  { code := 0x0501, len := fun _ => 8,
    fields := fun _ p => [(0, decide (fld p 0 1 < 8)), (1, decide (fld p 1 1 ≤ 1)), (2, decide (fld p 2 2 < 256)), rsv p 4 4],
    run := fun _ _ p s =>
      let a := fld p 0 1
      let fn := fld p 2 2
      if (s.acc a).st ≠ 0x12 then badState
      else if !(s.accThere a) then badParam 0
      else if !(s.fnEnabled fn) then badParam 2
      else
        let t := s.upAcc a (fun x => { x with st := 2, owner := fn, owned := true, releasing := false })
        let l := (t.ringsOf a).filter (fun e => e.2.st == 2 && e.2.owner == fn)
        .ok (if fld p 1 1 = 0 then t
          else l.foldl (fun u e => (u.upRing e.1 (fun r => { r with st := 0, prev := 0 })).ringReset e.1 0) t) }

/-- FEED_ADMIT. -/
def execFeedAdmit (h : Hdr) (p : Bytes) (s : State) : Res := runPkt opFeedAdmit h p s

/-- FEED_RELEASE (R307). -/
def opFeedRelease : OpSpec :=
  { code := 0x0502, len := fun _ => 8, fields := fun _ p => [(0, decide (fld p 0 1 < 8)), rsv p 1 7],
    auth := fun c _ p s => let x := s.acc (fld p 0 1); if x.owned ∧ x.owner ≠ c.fn then some 4 else none,
    run := fun _ _ p s =>
      let a := fld p 0 1
      if (s.acc a).st ≠ 2 ∨ (s.acc a).releasing then badState
      else
        let t := s.upAcc a (fun x => { x with releasing := true })
        if (t.ringsOf a).all (fun e => e.2.issued.isEmpty) then .ok (t.releaseSettle a) else .wait wRelease a t }

/-- FEED_RELEASE. -/
def execFeedRelease (h : Hdr) (p : Bytes) (s : State) : Res := runPkt opFeedRelease h p s

/-- ACCEL_PRESENCE: presence is asserted and debounced, and PERST# is released after its hold (R304). -/
def execAccelPresence (accel : Nat) (s : State) : Res :=
  onMain s (fun t =>
    if t.accThere accel ∧ (t.feedPort (accel / 2)).en ∧ (t.acc accel).st = 0x11 ∧ (t.acc accel).retry = false then
      t.upAcc accel (fun x => { x with st := 0x10, perst := false, since := t.now })
    else t)

/-- Bytes of the private window of an attachment point (R302). -/
def accWindow : Nat := 2 ^ 42

/-- The memory BARs of an accelerator's functions, the largest first: size, function and BAR. -/
def barList (l : List Sys2Proof.AccelFn) : List (Nat × Nat × Nat) :=
  (l.zipIdx.flatMap (fun e => (e.1.bars.zipIdx.filter (fun b => b.1 != 0)).map (fun b => (b.1, e.2, b.2)))).mergeSort (fun a b => decide (b.1 ≤ a.1))

/-- Places BARs one after another; each size is a power of two, so that each lies at a multiple of its size. -/
def placeBars : Nat → List (Nat × Nat × Nat) → List ((Nat × Nat) × Nat)
  | _, [] => []
  | a, b :: t => ((b.2.1, b.2.2), a) :: placeBars (a + b.1) t

/-- Whether an accelerator's BARs fit the window (R302). -/
def barsFit (l : List Sys2Proof.AccelFn) : Bool := decide (((barList l).map (fun b => b.1)).sum ≤ accWindow)

/-- What enumeration sets in each function of an accelerator (R302). DESIGN CHOICE (log entry 82): the private bus below the attachment point is
number 1, and the largest BAR comes first in the window. The feed port supports payloads of 512 bytes (R301). -/
def accFuncs (l : List Sys2Proof.AccelFn) : List AccFn :=
  let at_ := placeBars 0 (barList l)
  l.zipIdx.map (fun e =>
    { bus := 1, mse := true, bme := true, mps := min 2 e.1.mps,
      bars := (List.range e.1.bars.length).map (fun b => ((at_.find? (fun x => x.1 == (e.2, b))).map (fun x => x.2)).getD 0) })

/-- The configuration of the functions reaches the accelerator: the BARs, then the command word (Memory Space Enable and Bus Master Enable)
and the payload size. -/
def State.accConfigure (s : State) (a : Nat) (l : List AccFn) : State :=
  l.zipIdx.foldl (fun t e =>
    t.emit .accConfig a e.2 e.1.bus (e.1.bars.flatMap (leBytes 8) ++ leBytes 2 (2 * b2n e.1.mse + 4 * b2n e.1.bme) ++ leBytes 2 e.1.mps)) s

/-- ACCEL_ENUMERATED: the link is up, or not, and the functions found there are configured (R302, R304). -/
def execAccelEnumerated (accel : Nat) (ok : Bool) (funcs : List Sys2Proof.AccelFn) (speed width vendor device : Nat) (s : State) : Res :=
  onMain s (fun t =>
    if (t.acc accel).st ≠ 0x10 then t
    else if !ok then t.upAcc accel (fun x => { x with st := 0x11, perst := true, retry := true, since := t.now })
    else if !(barsFit funcs) then
      (t.upAcc accel (fun x => { x with st := 0, perst := true })).flag 4 (accStatOff accel) 10 (fun u =>
        u.upFeed (fun f => { f with accs := amod f.accs accel {} (fun x => { x with enumFail := true }) }))
    else
      let l := accFuncs funcs
      ((t.upAcc accel (fun x => { x with st := 0x12, speed := speed, width := width, vendor := vendor, device := device, funcs := l })).accConfigure accel l).flag 4
        (accStatOff accel) 8 (fun u => u.upFeed (fun f => { f with accs := amod f.accs accel {} (fun x => { x with arriveEv := true }) })))

/-- LINK_TRAINING_TIMEOUT: no link 1 s after PERST# release (R304). -/
def execLinkTrainingTimeout (accel : Nat) (s : State) : Res :=
  onMain s (fun t =>
    if (t.acc accel).st = 0x10 ∧ (t.acc accel).since + 1000000000 ≤ t.now then
      t.upAcc accel (fun x => { x with st := 0x11, perst := true, retry := true, since := t.now })
    else t)

/-- ACCEL_RETRY_TIMER: a new attempt after 10 s (R304). -/
def execAccelRetryTimer (accel : Nat) (s : State) : Res :=
  onMain s (fun t =>
    let x := t.acc accel
    if x.st = 0x11 ∧ x.retry ∧ x.since + 10000000000 ≤ t.now ∧ (t.feedPort (accel / 2)).en then
      t.upAcc accel (fun x => { x with st := 0x10, perst := false, retry := false, since := t.now })
    else t)

/-! ## Latches -/

/-- LATCH_ASSIGN (R310). -/
def opLatchAssign : OpSpec :=
  { code := 0x0503, len := fun _ => 8, fields := fun _ p => [(0, decide (fld p 0 2 < 256)), rsv p 2 2, (4, decide (fld p 4 2 < 8192))],
    run := fun _ _ p s =>
      let giveTo := fld p 0 2
      let l := List.range' (fld p 4 2) (fld p 6 2)
      let from_ := if giveTo = 0 then (s.cell (fld p 4 2)).owner else 0
      let have_ := (agetD s.lat.order giveTo []).length
      if giveTo ≠ 0 ∧ 1024 < have_ + l.length then noResource
      else if latchCount < fld p 4 2 + fld p 6 2 then badParam 6
      else if l.any (fun n => let c := s.cell n; c.en || c.bound.isSome || c.guard.isSome || c.owner != from_) then .refuse 0x0014 0
      else
        .ok (s.upLat (fun t =>
          let o := if from_ = 0 then t.order else amod t.order from_ [] (fun x => x.filter (fun n => !l.contains n))
          { t with cells := l.foldl (fun m n => amod m n {} (fun c => { c with owner := giveTo })) t.cells,
                   order := if giveTo = 0 then o else amod o giveTo [] (fun x => x ++ l) })) }

/-- LATCH_ASSIGN. -/
def execLatchAssign (h : Hdr) (p : Bytes) (s : State) : Res := runPkt opLatchAssign h p s

/-- A write of 8 bytes that reaches a latch's posting window (R310): the latch, and whether it came through a feed window; through a
window of the host the latch is one of the function's own. -/
def latchWrite (w : Window) (n size : Nat) (s : State) (f : State → Nat → Bool → State) : Res :=
  let host := fun (fn : Nat) (full : Bool) =>
    barWrite fn (64 * n) size s (fun t =>
      if full && size != 4 && size != 8 then t.accessError
      else match t.latNamed fn n with
        | none => t
        | some k => if (t.cell k).owner ≠ fn then t else if size = 8 then f t k false else t.latchRefuse k false)
  match w with
  | .bar0 fn => host fn true
  | .bar4 fn => host fn false
  | .feed a =>
    onMain s (fun t =>
      if (t.acc a).st ≠ 0x12 ∧ (t.acc a).st ≠ 2 then t
      else if latchCount ≤ n then t.upFeed (fun f => { f with cUpstream := satu 65535 (f.cUpstream + 1) })
      else if (t.cell n).en && (t.cell n).mask.testBit a && size == 8 then f t n true else t.latchRefuse n true)

/-- LATCH_ADD (R310, R311). -/
def execLatchAdd (w : Window) (latch size val : Nat) (s : State) : Res :=
  latchWrite w latch size s (fun t n feed => t.latchAdd n (val % 2 ^ 64) feed)

/-- LATCH_POST (R310, R312). -/
def execLatchPost (w : Window) (latch size val : Nat) (s : State) : Res :=
  latchWrite w latch size s (fun t n feed => t.latchPost n (val % 2 ^ 64) feed)

/-- The latch and register offset that a BAR0 access of a function names (R309, R310). -/
def State.latchAt (s : State) (a : Access) : Option (Nat × Nat) :=
  let base := if a.fn = 0 then 0x03400000 else 0x00300000
  if a.bar ≠ 0 ∨ a.off < base then none
  else
    let o := a.off - base
    match s.latNamed a.fn (o / 64) with
    | some n => if (s.cell n).owner = a.fn then some (n, o % 64) else none
    | none => none

/-- A write to one 64-bit latch register at `reg`. -/
def latchReg (a : Access) (reg : Nat) (s : State) (old : Latch → Nat) (f : State → Nat → Nat → State) : Res :=
  barWrite a.fn a.off a.size s (fun t =>
    if !a.wr then t
    else match t.latchAt a with
      | none => t
      | some (n, o) => if o / 8 * 8 ≠ reg then t else t.write64 a (a.off - a.off % 8) (old (t.cell n)) (fun u v _ => f u n v))

/-- LATCH_VAL_WRITE (R309, R311): discarded on a guard latch, which the checkpoint block owns (R369). -/
def execLatchValWrite (a : Access) (s : State) : Res := latchReg a 0x00 s (fun l => l.val) (fun t n v => if (t.cell n).guard.isSome then t else t.latchSet n v)

/-- LATCH_THRESH_WRITE: discarded while delivery owns the register (R309); it arms the latch (R311). -/
def execLatchThreshWrite (a : Access) (s : State) : Res :=
  latchReg a 0x18 s (fun l => l.thresh) (fun t n v => if (t.cell n).bound.isSome || (t.cell n).guard.isSome then t else t.latchThresh n v)

/-- LATCH_CFG as it reads (Table 11.3). -/
def Latch.cfg (l : Latch) : Nat :=
  l.mode % 4 + 4 * b2n l.en + 256 * (l.mask % 256) + 65536 * (l.gen % 65536) + 2 ^ 32 * (l.tkind % 16) + 2 ^ 36 * (l.tindex % 65536) +
    2 ^ 56 * (l.owner % 256)

/-- LATCH_CFG_WRITE: discarded while delivery owns the register (R309); enabling arms the latch, and clearing EN disarms it (R311). -/
def execLatchCfgWrite (a : Access) (s : State) : Res :=
  latchReg a 0x20 s Latch.cfg (fun t n v =>
    let l := t.cell n
    if l.bound.isSome || l.guard.isSome then t
    else
      let en := bit v 2
      let u := t.upCell n (fun l =>
        { l with mode := v % 4, en := en, mask := bits v 8 8, tkind := bits v 32 4, tindex := bits v 36 16, armed := l.armed && en })
      if en && !l.en then u.latchArm n else u)

/-- What a read of `size` bytes at an offset of a posting window returns (R310): VALUE in one aligned read of 8 bytes, either half of it in one
of 4; anything else reads 0. -/
def Latch.posted (l : Latch) (o size : Nat) : Nat :=
  if o = 0 ∧ size = 8 then l.val else if (o = 0 ∨ o = 4) ∧ size = 4 then l.val / 2 ^ (8 * o) % 2 ^ 32 else 0

/-- UPSTREAM_ACCESS: an access of an accelerator other than a post or an add (R302, R303, R310); a write that touches those registers in
another form is refused. -/
def execUpstreamAccess (accel addr size : Nat) (kind : Sys2Proof.Upstream) (s : State) : Res :=
  onMain s (fun t =>
    let x := t.acc accel
    let base := (t.feedPort (accel / 2)).latchAddr
    let up := t.upFeed (fun f => { f with cUpstream := satu 65535 (f.cUpstream + 1) })
    if x.st ≠ 0x12 ∧ x.st ≠ 2 then t
    else if kind = .msi then up
    else if addr < base ∨ base + 524288 ≤ addr then (if kind = .write then up else up.emit .accReply accel 1 0 [])
    else
      let n := (addr - base) / 64
      let o := (addr - base) % 64
      let l := t.cell n
      if kind = .write then (if o < 24 ∧ 8 < o + size then t.latchRefuse n true else t)
      else if !(l.en && l.mask.testBit accel) then t.emit .accReply accel 1 0 []
      else t.emit .accReply accel 0 (l.posted o size) [])

/-! ## Rings -/

/-- A command that names a ring of another function (R336). -/
def ringAuth (off : Nat) (c : Caller) (_ : Hdr) (p : Bytes) (s : State) : Option Nat :=
  match s.ring (fld p off 2) with
  | some r => if r.owner = c.fn then none else some 4
  | none => none

/-- A command on a ring, or FEED_NO_RING. -/
def State.onRing (s : State) (p : Bytes) (off : Nat) (f : Nat → FRing → Verdict) : Verdict :=
  match s.ring (fld p off 2) with
  | some r => f (fld p off 2) r
  | none => .refuse 0x0011 0

/-- The ring that FEED_CREATE_RING describes (Table 11.4). -/
def ringFrom (p : Bytes) (fn latch : Nat) : FRing :=
  { owner := fn, accel := fld p 0 1, transport := fld p 1 1, prio := fld p 2 1, dataBar := fld p 3 1, slots := fld p 4 2, latch := latch,
    slotBytes := fld p 8 8, dataOff := fld p 16 8, descOff := fld p 24 8, notify := fld p 32 8, descBar := fld p 40 1, staleSteps := fld p 42 2,
    qpn := fld p 44 4, dataRkey := fld p 48 4, descRkey := fld p 52 4 }

/-- Where the device reserve holds the credit mailbox of a ring (log entry 25). -/
def State.creditBase (s : State) (ring : Nat) : Nat := s.partBase .reserve + 264241152 + 4096 * ring

/-- Binds a latch to a ring in credit mode (R313). -/
def State.bindLatch (s : State) (latch ring mask : Nat) : State :=
  (s.upCell latch (fun l =>
    { l with mode := 1, en := true, gen := 1, val := 0, tkind := 2, tindex := ring, mask := mask, bound := some ring })).latchThresh latch 1

/-- FEED_CREATE_RING (R313, R326 to R328). -/
def opFeedCreateRing : OpSpec :=
  { code := 0x0504, role := .tenant, result := true, len := fun _ => 64,
    fields := fun _ p =>
      let roce := fld p 1 1 == 1
      [(0, decide (fld p 0 1 < 8) && (!roce || fld p 0 1 == 0)), (1, decide (fld p 1 1 ≤ 1)), (2, decide (fld p 2 1 ≤ 3)),
       (3, roce || decide (fld p 3 1 < 6)), (4, decide (2 ≤ fld p 4 2) && decide (fld p 4 2 ≤ 256)),
       (8, fld p 8 8 % 4096 == 0 && decide (fld p 8 8 ≤ 1073741824)), (16, fld p 16 8 % 4096 == 0),
       (24, fld p 24 8 % 64 == 0), (40, roce || decide (fld p 40 1 < 6)), rsv p 41 1,
       (44, !roce || decide (fld p 44 4 < 16777216)), rsv p 56 8],
    run := fun c _ p s =>
      let r := ringFrom p c.fn 0
      let x := s.acc r.accel
      let full := c.fn != 0 && decide ((agetD s.host.vfs c.fn {}).rings ≤ (s.feed.rings.filter (fun e => e.2.owner == c.fn)).length)
      match freeKey s.feed.rings 1024 0 with
      | none => noResource
      | some n =>
        if full ∨ (r.transport = 0 ∧ r.prio = 0 ∧ (s.ringsOf r.accel).any (fun e => e.2.prio == 0)) ∨
            (r.transport = 1 ∧ (s.regionAdd {}).isNone) then noResource
        else if r.transport = 1 ∧ r.prio = 0 then badParam 2
        else if r.transport = 0 ∧ !(x.st == 2 && x.owned && x.owner == c.fn) then .refuse 0x0010 0
        else match s.latNamed c.fn (fld p 6 2) with
          | none => .refuse 0x0014 0
          | some k =>
            let l := s.cell k
            if l.owner ≠ c.fn ∨ l.en ∨ l.bound.isSome ∨ l.guard.isSome then .refuse 0x0014 0
            else if r.transport == 1 && (match s.qp r.qpn with | some q => q.st != .rts || !q.autoRec | none => true) then badParam 44
            else
              let ring := { r with latch := k }
              let reg := if r.transport = 0 then some (0, s)
                else s.regionAdd { base := s.creditBase n, len := 4096, write := true, mbox := true, entryLog2 := 6, owner := .credit n }
              match reg with
              | none => noResource
              | some (key, t) =>
                .done sOk 0 n ((t.upFeed (fun f => { f with rings := aset f.rings n { ring with credRkey := key } })).bindLatch k n
                  (if r.transport = 0 then 2 ^ r.accel else 0)) }

/-- FEED_CREATE_RING. -/
def execFeedCreateRing (h : Hdr) (p : Bytes) (s : State) : Res := runPkt opFeedCreateRing h p s

/-- FEED_DESTROY_RING (R314). -/
def opFeedDestroyRing : OpSpec :=
  { code := 0x0505, role := .tenant, len := fun _ => 8, fields := fun _ p => [rsv p 2 6], auth := ringAuth 0,
    run := fun _ _ p s => s.onRing p 0 (fun n r => if r.st = 1 ∨ r.st = 3 then .refuse 0x0012 0
      else .ok (if r.transport = 0 then (s.ringDestroy n).releaseSettle r.accel else s.ringDestroy n)) }

/-- FEED_DESTROY_RING. -/
def execFeedDestroyRing (h : Hdr) (p : Bytes) (s : State) : Res := runPkt opFeedDestroyRing h p s

/-- FEED_RESET_RING (R318). -/
def opFeedResetRing : OpSpec :=
  { code := 0x0506, role := .tenant, len := fun _ => 8, fields := fun _ p => [rsv p 2 6], auth := ringAuth 0,
    run := fun _ _ p s => s.onRing p 0 (fun n r =>
      if r.st = 3 then .refuse 0x0012 0
      else
        let t := s.ringReset n 0
        if (t.ring n).any (fun x => x.st == 3) then .wait wRing n t else .ok t) }

/-- FEED_RESET_RING. -/
def execFeedResetRing (h : Hdr) (p : Bytes) (s : State) : Res := runPkt opFeedResetRing h p s

/-- The ring status record (Table 11.13). -/
def State.ringRecord (s : State) (n : Nat) (r : FRing) : Bytes :=
  leBytes 2 n ++ [BitVec.ofNat 8 r.st, BitVec.ofNat 8 r.prio] ++ leBytes 2 r.rg ++ leBytes 2 (if r.st = 1 then r.job.getD 0xFFFF else 0xFFFF) ++
    leBytes 4 r.n ++ leBytes 4 r.landed ++ leBytes 4 ((s.cell r.latch).val % 2 ^ 32) ++ leBytes 4 r.credRkey ++ leBytes 4 r.late ++
    leBytes 4 r.redelivered ++ leBytes 8 r.lastStep ++ zeros 24

/-- FEED_GET_RING (Table 11.13). -/
def opFeedGetRing : OpSpec :=
  { code := 0x0507, role := .tenant, len := fun _ => 16, fields := fun _ p => [rsv p 2 6], auth := ringAuth 0,
    run := fun c _ p s => s.onRing p 0 (fun n r => .ok (s.hostWrite c.fn (fld p 8 8) (s.ringRecord n r))) }

/-- FEED_GET_RING. -/
def execFeedGetRing (h : Hdr) (p : Bytes) (s : State) : Res := runPkt opFeedGetRing h p s

/-- FEED_JOIN (R335): a join change begins, and the reply waits for its commit. -/
def opFeedJoin : OpSpec :=
  { code := 0x0508, role := .tenant, result := true, len := fun _ => 8, fields := fun _ p => [rsv p 4 4],
    auth := fun c h p s =>
      match jobAuth 0 c h p s with
      | some d => some d
      | none => ringAuth 2 c h p s,
    run := fun _ _ p s => s.onRing p 2 (fun n r =>
      let h := fld p 0 2
      match s.job h with
      | none => badParam 0
      | some j =>
        if (s.jobX h).closing then badParam 0
        else if !j.started ∨ r.st = 2 then badState
        else if r.st ≠ 0 ∨ (tableAt j (s.jobX h) (2 ^ 64)).contains (j.rank, n) ∨ s.feed.changes.any (fun c => c.ring == n) then .refuse 0x0012 0
        else
          let a := s.jobStep j + j.fetchSteps + 2
          let t := (s.upRing n (fun r => { r with joinWait := true })).lPropose h n 1 2
          if j.members ≤ 1 then .done sOk 0 (max a j.fetchNext % 2 ^ 32) t else .wait wJoin (h * 1024 + n) t) }

/-- FEED_JOIN. -/
def execFeedJoin (h : Hdr) (p : Bytes) (s : State) : Res := runPkt opFeedJoin h p s

/-- CREDIT_MAILBOX_ENTRY: an entry of a ring's credit mailbox (R138, R327). -/
def execCreditMailboxEntry (rkey : Nat) (entry : Bytes) (s : State) : Res :=
  onMain s (fun t =>
    match t.region rkey with
    | none => t
    | some g =>
      match g.owner with
      | .credit n =>
        if fld entry 56 8 ≠ g.seq + 1 then t.upNet (fun k => { k with mbox := satu 8191 (k.mbox + 1) })
        else
          let u := t.upNet (fun k => { k with regions := aupd k.regions rkey (fun x => { x with seq := fld entry 56 8 }) })
          match u.ring n with
          | some r => u.latchPost r.latch (fld entry 0 8) false
          | none => u
      | _ => t)

/-! ## Deliveries -/

/-- DELIVERY_ISSUE (R315 to R317, R319, R321). -/
def execDeliveryIssue (ring : Nat) (s : State) : Res := onMain s (fun t => t.issue ring)

/-- DELIVERY_LANDED: the GEN write of a delivery leaves on a feed port, and the delivery has landed (R315, R320). -/
def execDeliveryLanded (ring n : Nat) (s : State) : Res :=
  onMain s (fun t =>
    match t.ring ring with
    | none => t
    | some r =>
      match r.out n with
      | none => t
      | some d =>
        if r.transport ≠ 0 ∨ r.st = 3 then t
        else ((t.emit .accWrite r.accel r.descBar (r.descOff + 64 * r.slotOf n) (leBytes 4 (genWord d.rg n))).landDelivery ring r d).releaseSettle r.accel)

/-- GEN_READ_RESPONSE: the slot of an uncertain delivery has been read (R328). -/
def execGenReadResponse (ring n gen : Nat) (s : State) : Res := onMain s (fun t => t.genChecked ring n gen)

/-- RING_RESET_READ_DONE: the read that a reset waits for completes (R318). -/
def execRingResetReadDone (ring : Nat) (s : State) : Res :=
  onMain s (fun t =>
    match t.ring ring with
    | some r => if r.st = 3 then t.ringResetEnd ring else t
    | none => t)

/-! ## Layout changes -/

/-- LAYOUT_NOTICE: an entry of a job's layout mailbox (R330, R331). -/
def execLayoutNotice (job : Nat) (entry : Bytes) (s : State) : Res :=
  onMain s (fun t =>
    match t.job job with
    | none => t
    | some j =>
      let from_ := fld entry 4 2
      if !j.started ∨ j.members ≤ from_ ∨ from_ = j.rank then t
      else if fld entry 120 8 ≠ agetD (t.jobX job).lin from_ 0 + 1 then t.upNet (fun n => { n with mbox := satu 8191 (n.mbox + 1) })
      else
        let u := t.upJobX job (fun x => { x with lin := aset x.lin from_ (fld entry 120 8) })
        let change := fld entry 7 1
        let member := fld entry 8 2
        let ring := fld entry 10 2
        let round := fld entry 12 4
        let step := fld entry 16 8
        if fld entry 0 4 ≠ j.jobId ∨ (u.jobX job).closing then u
        else match fld entry 6 1 with
          | 1 =>
            let mine := max step j.fetchNext
            (u.upJob job (fun j => { j with holdFrom := j.holdFrom ++ [(from_, round, ring, mine)] })).lSend job from_
              (lNotice j.jobId j.rank 2 change member ring round mine (fld entry 24 2))
          | 2 =>
            (u.upChange job ring (fun c => if c.round = round ∧ !c.waiting then { c with accepts := aset c.accepts from_ step } else c)).lCommit job ring
          | 3 => u.applyChange job from_ change member ring step
          | 4 => u.upJob job (fun j => { j with holdFrom := j.holdFrom.filter (fun e => !(e.1 == from_ && e.2.1 == round && e.2.2.1 == ring)) })
          | _ => u)

/-- LAYOUT_ROUND_TIMEOUT: 10 ms after PROPOSE without every ACCEPT (R331). -/
def execLayoutRoundTimeout (job ring : Nat) (s : State) : Res :=
  onMain s (fun t =>
    match t.job job, t.feed.changes.find? (fun c => c.job == job && c.ring == ring) with
    | some j, some c =>
      if c.waiting ∨ t.now < c.sentAt + 10000000 ∨ j.members ≤ c.accepts.length then t
      else
        let u := (t.lSendAll job 4 c c.a).upJob job (fun j => { j with holdFrom := j.holdFrom.filter (fun e => !(e.1 == j.rank && e.2.2.1 == ring)) })
        if c.round < 3 then u.upChange job ring (fun c => { c with waiting := true, sentAt := t.now })
        else
          let v := (u.upFeed (fun f => { f with changes := f.changes.filter (fun x => !(x.job == job && x.ring == ring)) })).feedFlag 4
            (fun f => { f with evLayoutFail := true })
          (v.upRing ring (fun r => { r with joinWait := false })).finishAll (fun w => w.kind == wJoin && w.aux == job * 1024 + ring) 0x0013 0 0
    | _, _ => t)

/-- LAYOUT_REPROPOSE: 10 ms after an ABORT the change is proposed again (R331). -/
def execLayoutRepropose (job ring : Nat) (s : State) : Res :=
  onMain s (fun t =>
    match t.feed.changes.find? (fun c => c.job == job && c.ring == ring) with
    | some c => if c.waiting ∧ c.sentAt + 10000000 ≤ t.now then t.lPropose job ring (c.round + 1) c.change else t
    | none => t)

end Sys2Proof.Machine
end

