-- ==== Sys2Proof/Machine/Ckp.lean ====
section
/-!
DEFINITION. Commands and events of the checkpoint block (R367 to R391), and the departure of an accelerator (R306).
-/
namespace Sys2Proof.Machine

open Sys2Proof

/-- A command on a checkpoint job, or CKP_NO_JOB. -/
def State.onCk (s : State) (p : Bytes) (f : Nat → CkJob → Verdict) : Verdict :=
  match s.ck (fld p 0 2) with
  | some j => f (fld p 0 2) j
  | none => .refuse 0x0010 0

/-- Class 0x0A commands name the device (R367). -/
def unitZero (h : Hdr) (_ : State) : Bool := h.unit == 0

/-- Registers the checkpoint mailbox of a job with other members (R383). -/
def State.ckpMailbox (s : State) (h members : Nat) : Option (Nat × State) :=
  if members ≤ 1 then some (0, s)
  else s.regionAdd { base := s.ckpBase h, len := members * 64, write := true, mbox := true, entryLog2 := 6, owner := .checkpoint h }

/-- Whether a namespace of the PF can hold the remote copy of an area (R368). -/
def State.remoteOk (s : State) (nsid setGib : Nat) : Bool :=
  nsid == 0 || (match s.ns 0 nsid with
    | some n => n.lbaFmt == 1 && decide (areaBytes setGib ≤ n.capacity * 4096)
    | none => false)

/-- A checkpoint job as CKP_SET_JOB sets it, with its area: what its namespace holds becomes known to it (R368, R384). -/
def State.ckpSet (s : State) (h mbox : Nat) (p : Bytes) : State :=
  let id := fld p 0 4
  let nsid := fld p 12 4
  let j := (s.ck h).getD { lastBegin := s.now }
  let set_ : CkJob :=
    { j with jobId := id, members := fld p 4 2, rank := fld p 6 2, setGib := fld p 8 4, nsid := nsid, decidePh := orElse (fld p 16 4) 4096, mbox := mbox,
             remote := if nsid = 0 then none else if nsid = j.nsid then j.remote else Config.remoteBank s.free,
             remoteOld := if nsid = 0 ∨ (nsid ≠ j.nsid ∧ Config.remoteBank s.free = none) then none else if nsid = j.nsid then j.remoteOld
               else Config.remoteOld s.free }
  (s.upCkp (fun c =>
    { c with jobs := aset c.jobs h set_,
             areas := if c.areas.any (fun a => a.jobId == id) then c.areas else c.areas ++ [{ jobId := id, setGib := fld p 8 4 }] })).spent

/-- CKP_SET_JOB (R368). -/
def opCkpSetJob : OpSpec :=
  { code := 0x0A00, result := true, unitOk := unitZero, len := fun _ => 24,
    fields := fun _ p => [(4, decide (1 ≤ fld p 4 2) && decide (fld p 4 2 ≤ 1024)), rsv p 20 4],
    run := fun _ _ p s =>
      let id := fld p 0 4
      let gib := fld p 8 4
      let old := s.ckp.jobs.find? (fun e => e.2.jobId == id)
      let room := match s.area id with
        | some a => if a.setGib ≠ gib then some 0x0012 else none
        | none => if s.bookBytes < (s.ckp.areas.map (fun a => areaBytes a.setGib)).sum + areaBytes gib then some 0x0011 else none
      if old.any (fun e => e.2.capture.isSome || e.2.restore.isSome) then badState
      else match old.map (fun e => e.1) <|> freeKey s.ckp.jobs 64 0 with
        | none => noResource
        | some h =>
          let m := ((old.map (fun e => e.2.mbox)).getD 0)
          match (if m = 0 then s else s.regionDel m).ckpMailbox h (fld p 4 2), room with
          | none, _ => noResource
          | _, some st => .refuse st 0
          | some (k, t), none =>
            if !(s.remoteOk (fld p 12 4) gib) then badParam 12 else .done sOk 0 h ((t.ckpSet h k p).resync h) }

/-- CKP_SET_JOB. -/
def execCkpSetJob (h : Hdr) (p : Bytes) (s : State) : Res := runPkt opCkpSetJob h p s

/-! ## The shard table -/

/-- Numbers of shard, stream and box records, and where each kind begins. -/
def nShards (p : Bytes) : Nat := orElse (fld p 2 2) 65536
def nStreams (p : Bytes) : Nat := fld p 4 2
def nBoxes (p : Bytes) : Nat := fld p 8 4
def shardAt (i : Nat) : Nat := 12 + 64 * i
def streamAt (p : Bytes) (i : Nat) : Nat := shardAt (nShards p) + 32 * i
def boxAt (p : Bytes) (i : Nat) : Nat := streamAt p (nStreams p) + 48 * i

/-- Four 4-byte numbers. -/
def quad (p : Bytes) (o : Nat) : List Nat := (List.range 4).map (fun i => fld p (o + 4 * i) 4)

/-- The shard records (Table 13.2). -/
def shardsOf (p : Bytes) : List Shard :=
  (List.range (nShards p)).map (fun i =>
    let o := shardAt i
    { id := fld p o 4, accel := fld p (o + 4) 1, bar := fld p (o + 5) 1, stream := fld p (o + 6) 2, shapeClass := fld p (o + 8) 4, guard := fld p (o + 12) 2,
      offset := fld p (o + 16) 8, size := fld p (o + 24) 8, release := fld p (o + 32) 8 })

/-- The stream records (Table 13.3). -/
def streamsOf (p : Bytes) : List CkStream :=
  (List.range (nStreams p)).map (fun i =>
    let o := streamAt p i
    { stream := fld p o 2, rank := fld p (o + 2) 1, elem := fld p (o + 3) 1, dims := quad p (o + 8) })

/-- The box records (Table 13.3). -/
def boxesOf (p : Bytes) : List CkBox :=
  (List.range (nBoxes p)).map (fun i =>
    let o := boxAt p i
    { shard := fld p o 4, stream := fld p (o + 4) 2, origin := quad p (o + 8), extent := quad p (o + 24) })

/-- Fields of the records, with whether each is admitted. -/
def shardFields (p : Bytes) : List (Nat × Bool) :=
  [(4, decide (fld p 4 2 ≤ 256)), rsv p 6 2] ++
  (List.range (nShards p)).flatMap (fun i =>
    let o := shardAt i
    [(o + 4, decide (fld p (o + 4) 1 < 8)), (o + 5, decide (fld p (o + 5) 1 < 6)), (o + 6, decide (fld p (o + 6) 2 < 256) || fld p (o + 6) 2 == 0xFFFF),
     rsv p (o + 14) 2, (o + 16, fld p (o + 16) 8 % 4096 == 0),
     (o + 24, decide (4096 ≤ fld p (o + 24) 8) && decide (fld p (o + 24) 8 ≤ 1073741824) && fld p (o + 24) 8 % 4096 == 0),
     rsv p (o + 40) 24]) ++
  (List.range (nStreams p)).flatMap (fun i =>
    let o := streamAt p i
    [(o, decide (fld p o 2 < 256)), (o + 2, decide (1 ≤ fld p (o + 2) 1) && decide (fld p (o + 2) 1 ≤ 4)), (o + 3, [1, 2, 4, 8].contains (fld p (o + 3) 1)),
     rsv p (o + 4) 4, rsv p (o + 24) 8]) ++
  (List.range (nBoxes p)).flatMap (fun i => let o := boxAt p i; [rsv p (o + 6) 2, rsv p (o + 40) 8])

/-- Whether a box lies in its stream's dimensions. -/
def boxInside (streams : List CkStream) (b : CkBox) : Bool :=
  match streams.find? (fun r => r.stream == b.stream) with
  | some r => (b.cube.zip r.dims).all (fun e => decide (e.1.2 ≤ e.2))
  | none => false

/-- Whether a shard of a stream holds exactly one box, of that stream and of its SIZE (R369). -/
def boxFits (streams : List CkStream) (boxes : List CkBox) (d : Shard) : Bool :=
  match boxes.filter (fun b => b.shard == d.id), streams.find? (fun r => r.stream == d.stream) with
  | [], _ => d.stream == 0xFFFF
  | [b], some r => b.stream == d.stream && d.size == b.extent.foldl (fun a e => a * e) 1 * r.elem
  | _, _ => false

/-- Offset of the first shard record that an earlier one forbids. -/
def shardClash (clash : Shard → Shard → Bool) : List Shard → List Shard → Nat → Option Nat
  | _, [], _ => none
  | seen, d :: t, i => if seen.any (fun x => clash x d) then some (shardAt i) else shardClash clash (seen ++ [d]) t (i + 1)

/-- Offset of the DIMS of the first stream record whose unused leading sizes are not 1 (Table 13.3). -/
def dimsClash (p : Bytes) : Option Nat :=
  ((List.range (nStreams p)).find? (fun i =>
    let o := streamAt p i
    !(((quad p (o + 8)).take (4 - fld p (o + 2) 1)).all (fun d => d == 1)))).map (fun i => streamAt p i + 8)

/-- Whether a latch is a free latch of the PF (R369). -/
def State.latchFree (s : State) (g : Nat) : Bool :=
  let l := s.cell g
  decide (g < latchCount) && l.owner == 0 && !l.en && l.bound.isNone && l.guard.isNone

/-- Binds the guards of a job (R369); each is enabled, and armed as any enabled latch with a target is (R311). -/
def State.bindGuards (s : State) (h : Nat) (j : CkJob) : State :=
  j.guards.foldl (fun t g =>
    let i := (j.shards.findIdx? (fun d => d.guard == g)).getD 0
    (t.upCell g (fun l => { l with mode := 2, en := true, tkind := 3, tindex := i % 65536, mask := 2 ^ (j.shard i).accel, guard := some h })).latchArm g) s

/-- CKP_SET_SHARDS (R367, R369). -/
def opCkpSetShards : OpSpec :=
  { code := 0x0A01, needPtr := true, unitOk := unitZero, len := fun p => boxAt p (nBoxes p), fields := fun _ p => shardFields p,
    run := fun _ _ p s => s.onCk p (fun h j =>
      let n := { j with shards := shardsOf p, streams := streamsOf p, boxes := boxesOf p }
      if j.capture.isSome ∨ j.restore.isSome then badState
      else if s.partLen .ckp < n.total ∨ j.setGib * 1073741824 < n.total then .refuse 0x0011 0
      else match shardClash (fun x d => x.id == d.id) [] n.shards 0 <|> dimsClash p with
        | some o => badParam o
        | none =>
          if !(n.boxes.all (boxInside n.streams)) ∨ !(n.shards.all (boxFits n.streams n.boxes)) then .refuse 0x0013 0
          else match shardClash (fun x d => x.guard == d.guard && x.accel != d.accel) [] n.shards 0 with
          | some o => badParam (o + 12)
          | none =>
            if !(n.guards.all s.latchFree) then .refuse 0x001A 0
            else
              let t := ((s.freeGuards j).upCk h (fun _ => n)).bindGuards h n
              .ok (t.setGuards n n.guards (s.openNow n))) }

/-- CKP_SET_SHARDS. -/
def execCkpSetShards (h : Hdr) (p : Bytes) (s : State) : Res := runPkt opCkpSetShards h p s

/-- CKP_SET_TRIGGER (R372). -/
def opCkpSetTrigger : OpSpec :=
  { code := 0x0A02, unitOk := unitZero, len := fun _ => 48,
    fields := fun _ p =>
      [rsv p 2 6, (8, decide (fld p 8 1 < 8)), rsv p 9 3, (12, !(bit (fld p 8 1) 0) || decide (1 ≤ fld p 12 4) && decide (fld p 12 4 ≤ 16777216)),
       (24, !(bit (fld p 8 1) 1) || decide (1 ≤ fld p 24 4) && decide (fld p 24 4 ≤ 2147483648)),
       (28, !(bit (fld p 8 1) 2) || decide (1 ≤ fld p 28 2) && decide (fld p 28 2 ≤ 3600)), rsv p 42 6],
    run := fun _ _ p s => s.onCk p (fun h _ => .ok (s.upCk h (fun j =>
      { j with trigEn := fld p 8 1, nSteps := fld p 12 4, baseStep := fld p 16 8, tS := fld p 24 4, windowS := fld p 28 2, minGap := fld p 30 2,
               thresh := (List.range 5).map (fun i => fld p (32 + 2 * i) 2), warned := j.warned && bit (fld p 8 1) 2 }))) }

/-- CKP_SET_TRIGGER. -/
def execCkpSetTrigger (h : Hdr) (p : Bytes) (s : State) : Res := runPkt opCkpSetTrigger h p s

/-- CKP_CAPTURE (R375, R376): the reply waits for the capture's end. A position that is held judges AT as a running one does. -/
def opCkpCapture : OpSpec :=
  { code := 0x0A03, unitOk := unitZero, len := fun _ => 16, fields := fun _ p => [rsv p 2 6, (8, decide (fld p 8 8 < 2 ^ 40))],
    run := fun _ _ p s => s.onCk p (fun h j =>
      let at_ := fld p 8 8
      if at_ = 0 then
        if s.cue.st ≠ .none ∨ j.restore.isSome then badState
        else match s.skipReason j false with
          | some r =>
            .done 0x0019 r 0 ((s.upCk h (fun j => { j with lastSkip := r, skips := satu 4294967295 (j.skips + 1) })).ckpFlag 2 (fun k =>
              { k with evSkip := true, cSkip := satu 65535 (k.cSkip + 1) }))
          | none => .wait wCapture (h * 2 ^ 40) ((s.setGuards j j.guards 0).captureBegin h 0 true)
      else if (s.cueTimed && decide (at_ < j.decided)) || (s.cue.st != .none && decide (at_ ≤ s.passed j)) then .refuse 0x0017 0
      else .wait wCapture (h * 2 ^ 40 + at_) (s.upCk h (fun j => { j with reqAt := ladd j.reqAt at_ }))) }

/-- CKP_CAPTURE. -/
def execCkpCapture (h : Hdr) (p : Bytes) (s : State) : Res := runPkt opCkpCapture h p s

/-- STATE of a job (Table 13.15). -/
def CkJob.state (j : CkJob) : Nat :=
  if j.restore.isSome then 4
  else match j.capture with
    | some c => if c.left.isEmpty && c.started then 3 else 2
    | none => if j.trigEn = 0 ∧ j.reqAt.isEmpty then 0 else 1

/-- The job status record (Table 13.15). -/
def State.ckRecord (s : State) (j : CkJob) : Bytes :=
  let last := (s.area j.jobId).bind s.latest
  let step := match last with | some e => e.2.man.step | none => 0
  let seq := match last with | some e => e.2.seq | none => 0
  [BitVec.ofNat 8 j.state, BitVec.ofNat 8 j.lastSkip, BitVec.ofNat 8 j.lastAbandon, 0] ++ leBytes 4 j.skips ++ leBytes 8 step ++ leBytes 8 seq ++
    leBytes 8 j.troupeStep ++ leBytes 8 j.drainedStep ++ leBytes 4 j.awaits ++ leBytes 4 j.maxStall ++ zeros 16

/-- CKP_GET_JOB (R390). -/
def opCkpGetJob : OpSpec :=
  { code := 0x0A04, result := true, unitOk := unitZero, len := fun _ => 16, fields := fun _ p => [rsv p 2 6],
    run := fun c _ p s => s.onCk p (fun _ j => .done sOk 0 j.state (s.hostWrite c.fn (fld p 8 8) (s.ckRecord j))) }

/-- CKP_GET_JOB. -/
def execCkpGetJob (h : Hdr) (p : Bytes) (s : State) : Res := runPkt opCkpGetJob h p s

/-- The banks that a restore may take, in the order it looks: bank, and whether it is the remote copy (R386). DEDUCED (log entry 79): the older
remote bank is there until the next drain zeroes it. -/
def State.candidateBanks (s : State) (j : CkJob) (remoteOnly : Bool) : List (Bank × Bool) :=
  let here := match s.area j.jobId with
    | some a => if a.bank0.seq < a.bank1.seq then [(a.bank1, false), (a.bank0, false)] else [(a.bank0, false), (a.bank1, false)]
    | none => []
  let there := if j.nsid = 0 then [] else ((j.remote.map (fun x => x.2.2)).toList ++ j.remoteOld.toList).map (fun b => (b, true))
  (if remoteOnly then [] else here) ++ there

/-- A source shard of a restore is read from the prompt book where the restore reads it there (R387). -/
def State.sourceRead (s : State) (h : Nat) (j : CkJob) (r : Restore) (i : Nat) : State :=
  match r.man.shards[i]? with
  | some e => if r.source = 0 then s.emit .pbRead h (33554432 + r.set_ * j.setGib * 1073741824 + e.2.1) e.1.size [] else s
  | none => s

/-- CKP_RESTORE (R386): matched whole before a byte is written; the reply waits for the last shard. -/
def opCkpRestore : OpSpec :=
  { code := 0x0A05, result := true, unitOk := unitZero, len := fun _ => 24,
    fields := fun _ p => [(2, decide (fld p 2 1 ≤ 1)), (3, decide (fld p 3 1 ≤ 1)), rsv p 4 4, (8, fld p 2 1 != 1 || decide (fld p 8 8 < 2 ^ 40))],
    run := fun _ _ p s => s.onCk p (fun h j =>
      if j.capture.isSome || j.restore.isSome || j.shards.any (fun d => (s.acc d.accel).st != 2) then badState
      else
        let l := (s.candidateBanks j (fld p 3 1 == 1)).filter (fun e => e.1.hdrOk && (fld p 2 1 == 0 || e.1.man.step == fld p 8 8))
        match l.find? (fun e => s.bankOk e.1) with
        | none => .refuse (if l.isEmpty then 0x0014 else 0x0015) 0
        | some (b, far) =>
          match j.shards.findIdx? (fun d => !(j.matches_ b.man d)) with
          | some i => .refuse 0x0013 i
          | none =>
            let mirror := (s.candidateBanks j true).find? (fun e => e.1.man == b.man)
            let r : Restore := { man := b.man, source := if far then 1 else 0, left := j.sources b.man, cursorAddr := fld p 16 8, set_ := b.set_,
                                 fallback := if fld p 3 1 = 0 ∧ far = false then mirror.map (fun e => e.1.set_) else none }
            let t := r.left.foldl (fun t i => t.sourceRead h j r i) ((s.upCk h (fun j => { j with restore := some r })).setGuards j j.guards 0)
            if r.left.isEmpty then .done sOk 0 (b.man.step % 2 ^ 32) (t.restoreEnd h) else .wait wRestore h t) }

/-- CKP_RESTORE. -/
def execCkpRestore (h : Hdr) (p : Bytes) (s : State) : Res := runPkt opCkpRestore h p s

/-- CKP_SET_SIGNERS (R382, R489). -/
def opCkpSetSigners : OpSpec :=
  { code := 0x0A06, role := .operator, unitOk := unitZero, len := fun p => 8 + 32 * fld p 0 1,
    fields := fun _ p => [(0, decide (fld p 0 1 ≤ 64)), rsv p 1 7],
    run := fun _ _ p s => s.storeCmd 7 (sub p 8 (32 * fld p 0 1)) 0x0A }

/-- CKP_SET_SIGNERS. -/
def execCkpSetSigners (h : Hdr) (p : Bytes) (s : State) : Res := runPkt opCkpSetSigners h p s

/-- CKP_CLOSE_JOB (R390). -/
def opCkpCloseJob : OpSpec :=
  { code := 0x0A07, unitOk := unitZero, len := fun _ => 8, fields := fun _ p => [(2, decide (fld p 2 1 ≤ 1)), rsv p 3 5],
    run := fun _ _ p s => s.onCk p (fun h j =>
      if j.capture.isSome ∨ j.restore.isSome then badState
      else
        let t := s.ckpClose h
        .ok (if fld p 2 1 = 1 then t.upCkp (fun k => { k with areas := k.areas.filter (fun a => a.jobId != j.jobId) }) else t)) }

/-- CKP_CLOSE_JOB. -/
def execCkpCloseJob (h : Hdr) (p : Bytes) (s : State) : Res := runPkt opCkpCloseJob h p s

/-- CKP_READ_BANK (R390). -/
def opCkpReadBank : OpSpec :=
  { code := 0x0A08, unitOk := unitZero, len := fun _ => 24, fields := fun _ p => [(2, decide (fld p 2 1 ≤ 1)), rsv p 3 5],
    run := fun c _ p s => s.onCk p (fun _ j =>
      let a := (s.area j.jobId).getD {}
      .ok (s.hostWrite c.fn (fld p 8 8) ((if fld p 2 1 = 0 then a.bank0 else a.bank1).bytes.take (fld p 16 8)))) }

/-- CKP_READ_BANK. -/
def execCkpReadBank (h : Hdr) (p : Bytes) (s : State) : Res := runPkt opCkpReadBank h p s

/-! ## Events -/

/-- Something for a job of the main domain. -/
def onJobCk (s : State) (h : Nat) (f : State → CkJob → State) : Res :=
  onMain s (fun t =>
    match t.ck h with
    | some j => f t j
    | none => t)

/-- Something for a job's capture. -/
def onCapture (s : State) (h : Nat) (f : State → CkJob → Capture → State) : Res :=
  onJobCk s h (fun t j =>
    match j.capture with
    | some c => f t j c
    | none => t)

/-- CAPTURE_DECISION: the decision point of the next step has come (R374). -/
def execCaptureDecision (job : Nat) (s : State) : Res := onMain s (fun t => t.ownEvent (fun w => w == .decision job) id)

/-- BANK_ZERO_ACK (Table 13.6 step 1). -/
def execBankZeroAck (job : Nat) (s : State) : Res :=
  onCapture s job (fun t j c =>
    if c.zeroed then t
    else ((t.upBank j.jobId c.bank (fun b => { b with hdrOk := false })).upCapture job (fun c => { c with zeroed := true })).upCkp (fun k => { k with pbOk := true }))

/-- CAPTURE_START (Table 13.6 step 2): at s:0, or at once for a capture that takes no step. -/
def execCaptureStart (job : Nat) (s : State) : Res :=
  onMain s (fun t => t.ownEvent (fun w => w == .capture job) (fun u =>
    match (u.ck job).bind (fun j => j.capture.map (fun c => (j, c))) with
    | some (j, c) => if u.captureDue c ∧ (u.cueTimed = false ∨ c.noCue = true) then u.captureStart job j c else u
    | none => u))

/-- SHARD_COPIED (R376, R377, R380): the last chunk of the shard at the head of its attachment point's queue is in staging; `ok` is false where the read met a PCIe error or poisoned data. A read of an accelerator that has
been released or disabled since ends as one of an accelerator that departs (R306, log entry 78). -/
def execShardCopied (job index : Nat) (data : Bytes) (ok : Bool) (s : State) : Res :=
  onCapture s job (fun t j c =>
    if !c.started ∨ !(j.heads c).contains index then t
    else if (t.acc (j.shard index).accel).st ≠ 2 then t.ckpAbandon job 2
    else if ok then (if data.length = (j.shard index).size then t.shardIn job index j c data else t)
    else if c.again.contains index then t.ckpAbandon job 6
    else
      let c' := { c with again := c.again ++ [index], paused := adel c.paused index }
      (t.upCapture job (fun _ => c')).shardRead j c' index)

/-- SHARD_STORED: the prompt book acknowledges a shard, in the order they completed (Table 13.6 step 4). -/
def execShardStored (job index : Nat) (s : State) : Res :=
  onCapture s job (fun t j c =>
    if c.zeroed && c.stored.headD 65536 == index then
      let size := (j.shard index).size
      (((t.putShard j.jobId c.set_ c.setOff (agetD c.held index [])).upCapture job (fun c =>
        { c with stored := c.stored.drop 1, held := adel c.held index, acked := c.acked ++ [(index, c.setOff, agetD c.digests index [])], setOff := c.setOff + size })).emit .pbWrite job
          (33554432 + c.set_ * j.setGib * 1073741824 + c.setOff) size []).upCkp (fun k => { k with pbOk := true })
    else t)

/-- CAPTURE_COMMIT: the prompt book acknowledges manifest and header (Table 13.6 steps 5 and 6). -/
def execCaptureCommit (job : Nat) (s : State) : Res :=
  onCapture s job (fun t j c => if c.zeroed && c.started && c.left.isEmpty && c.stored.isEmpty then t.commit job j c else t)

/-- PB_WRITE_FAIL: the prompt book reports a write failure (R379). -/
def execPbWriteFail (job status : Nat) (s : State) : Res :=
  onCapture s job (fun t _ _ =>
    ((t.ckpFlag 5 (fun k => { k with evPbFail := true, pbOk := false })).record 0 0x00C1 0 status 0 .health).ckpAbandon job 4)

/-- CHECKPOINT_NOTICE: an entry of a job's checkpoint mailbox (R138, R383). -/
def execCheckpointNotice (job : Nat) (entry : Bytes) (s : State) : Res :=
  onJobCk s job (fun t j =>
    let from_ := fld entry 4 2
    if j.members ≤ from_ ∨ from_ = j.rank then t
    else if fld entry 56 8 ≠ agetD j.xin from_ 0 + 1 then t.upNet (fun n => { n with mbox := satu 8191 (n.mbox + 1) })
    else
      let u := t.upCk job (fun j => { j with xin := aset j.xin from_ (fld entry 56 8) })
      if fld entry 0 4 = j.jobId ∧ fld entry 6 1 = 1 then u.ckpCommitted job (fld entry 8 8) from_ else u)

/-- DRAIN_COMPLETE: the drain goes on as the front end lets it (R124), and once the remote bank is written and acknowledged it is complete
(R384, R385); a namespace that takes no writes keeps the drain waiting, and a write that will not be acknowledged makes it begin again. -/
def execDrainComplete (job : Nat) (s : State) : Res :=
  onJobCk s job (fun s j =>
    let t := match s.intOp (.drain job) with
      | some o => if s.pwr.step = 0 then s.intAdvance (o.todo.length + 1) (.drain job) else s
      | none => s
    match j.drain, t.area j.jobId with
    | some d, some a =>
      let src := if a.bank0.hdrOk ∧ a.bank0.seq = d.seq then a.bank0 else a.bank1
      if (t.intOp (.drain job)).any (fun o => o.fail.isSome) then t.drainBegin job
      else if !(t.intWritten (.drain job)) ∨ src.seq ≠ d.seq ∨ t.pwr.step ≠ 0 then t
      else
        let bank := match j.remote with | some (k, _, _) => 1 - k | none => 0
        let set_ := match j.remote with | some (_, x, _) => 1 - x | none => 0
        let b : Bank := { src with set_ := set_ }
        let u := ((t.intDrop (.drain job)).emit .intWrite j.nsid (16777216 * bank) b.bytes.length b.bytes).upCk job (fun j =>
          { j with drain := none, remote := some (bank, set_, b), remoteOld := j.remote.map (fun x => x.2.2), drainedStep := d.step })
        let v := u.ckpFlag 3 (fun k => { k with evDrain := true })
        match t.latest a with
        | some (_, x) => if d.seq < x.seq then v.drainBegin job else v
        | none => v
    | _, _ => t)

/-- Reads a source shard from a set of the remote copy, as an internal reader (R124, R387): its bytes once they are there, none where the
read ended. -/
def State.farShard (s : State) (h : Nat) (j : CkJob) (set_ index : Nat) (e : Shard × Nat × Bytes) (data : Bytes) : State × Option Bytes :=
  let r := s.intRow (.shard h index) 0 j.nsid (33554432 + set_ * j.setGib * 1073741824 + e.2.1) e.1.size (padTo e.1.size data)
  match r.2 with
  | none => (r.1, none)
  | some (.ok b) => (r.1, some b)
  | some (.error _) => (r.1, some [])

/-- Whether the prompt book can bring these bytes of a shard: what it holds there, or a damaged read of it (R368, R387). -/
def State.bookBrings (s : State) (j : CkJob) (set_ : Nat) (e : Shard × Nat × Bytes) (data : Bytes) : Bool :=
  match (s.area j.jobId).bind (fun a => a.data.find? (fun x => x.1 == set_ && x.2.1 == e.2.1)) with
  | some x => data == x.2.2 || sha256 data != e.2.2
  | none => true

/-- What a source of a restore brings into staging: nothing yet, or its bytes and whether they are good. A shard of this member is compared
with its digest, whether it comes from the prompt book or from the remote copy (R387); what another member sends carries its own CRC-32C,
which stands behind it (R388, DEDUCED, log entry 79). -/
def State.sourceIn (s : State) (h : Nat) (j : CkJob) (r : Restore) (index : Nat) (data : Bytes) (far : Option Nat) : State × Option (Bytes × Bool) :=
  match r.man.shards[index]? with
  | none =>
    let b := data.take (data.length - 4)
    (s, if crc32c b = fld data (data.length - 4) 4 then some (b, true) else none)
  | some e =>
    let good := fun (b : Bytes) => b.length == e.1.size && sha256 b == e.2.2
    match far with
    | none => (s, if s.bookBrings j r.set_ e data then some (data, good data) else none)
    | some x =>
      if data.length ≠ e.1.size then (s, some (data, false))
      else
        let f := s.farShard h j x index e data
        (f.1, f.2.map (fun b => (b, good b)))

/-- RESTORE_SHARD_READ: a source shard is in staging; its digest is compared before a byte goes on (R387). -/
def execRestoreShardRead (job index : Nat) (data : Bytes) (remote : Bool) (s : State) : Res :=
  onJobCk s job (fun t j =>
    match j.restore with
    | none => t
    | some r =>
      let tries := agetD r.tries index 0
      let far := if r.source = 1 then some r.set_ else if 2 ≤ tries then r.fallback else none
      if !r.left.contains index ∨ remote ≠ far.isSome then t
      else match t.sourceIn job j r index data far with
      | (t, none) => t
      | (t, some (b, true)) =>
        let left := r.left.filter (fun i => i != index)
        let u := (t.restoreWrite j r.man index b).upCk job (fun j => { j with restore := j.restore.map (fun r => { r with left := left }) })
        if left.isEmpty then u.restoreEnd job else u
      | (t, some (_, false)) =>
        let u := t.upCkp (fun k => { k with cDigest := satu 65535 (k.cDigest + 1) })
        if 2 ≤ tries then
          (u.upCk job (fun j => { j with restore := none })).finishAll (fun w => w.kind == wRestore && w.aux == job) 0x0016
            ((r.man.shards.getD index ({}, 0, [])).1.id % 65536) 0
        else
          let v := u.upCk job (fun j => { j with restore := j.restore.map (fun r => { r with tries := aset r.tries index (tries + 1) }) })
          if tries = 1 ∧ r.fallback.isSome then v else v.sourceRead job j r index)

/-- ACCEL_DEPARTED: link or presence of an ACTIVE accelerator is lost (R304, R306). -/
def execAccelDeparted (accel : Nat) (s : State) : Res :=
  onMainIf s ((s.acc accel).st == 2) (fun t =>
    ((t.ckpAccGone accel).accGone accel 0x11).finishAll (fun w => w.kind == wRelease && w.aux == accel) sOk 0 0)

end Sys2Proof.Machine
end

