-- ==== Sys2Proof/Machine/Cue.lean ====
section
/-!
DEFINITION. The cue block (R37 to R61): position, lock, master changes, the cue event table, the cue over Ethernet, and device time.
-/
namespace Sys2Proof.Machine

open Sys2Proof

/-! ## Position (R44, R57) -/

/-- Frame period in ns (R47). -/
def CueSrc.period (c : CueSrc) : Nat := if c = .eth then 10000 else 1000

/-- The estimate of the position at a device time (R44). -/
def Cue.est (c : Cue) (now : Nat) : Option Nat :=
  match c.hist.head?, c.hist.getLast? with
  | some (a0, t0), some (a, t) =>
    let moved := if c.hold ∨ t ≤ t0 then 0 else (a - a0) * (now - t) / (t - t0)
    some (min (a + moved) (a / 65536 * 65536 + 65535))
  | _, _ => none

/-- Interpolates the position to the present; it never moves backwards (R44). -/
def State.cueNow (s : State) : State :=
  if s.cueTimed && (s.cue.src == .serial || s.cue.src == .eth) then
    match s.cue.est s.now with
    | some e => s.upCue (fun c => { c with pos := max c.pos e })
    | none => s
  else s

/-- Mean of the measured step lengths, saturating (R57). -/
def meanOf (l : List Nat) : Nat := if l.isEmpty then 0 else min 4294967295 (l.sum / l.length)

/-- The position moves forward to one that a frame or write reports: a step entered directly from the one before is measured (R57). -/
def State.cueMove (s : State) (a : Nat) : State :=
  let old := s.cue.pos / 65536
  let new := a / 65536
  let t := s.upCue (fun c => { c with pos := a })
  if new = old then t
  else if new = old + 1 ∧ s.cueTimed = true then
    match s.cue.stepEntry with
    | some e =>
      let len := s.now - e
      let h := (s.cue.stepHist ++ [len]).drop (s.cue.stepHist.length + 1 - 16)
      let u := t.upCue (fun c => { c with stepHist := h, lastNs := min 4294967295 len, meanNs := meanOf h, stepEntry := some s.now })
      if u.cue.meanNs = s.cue.meanNs then u else u.judgeLeads u.cue.leads
    | none => t.upCue (fun c => { c with stepEntry := some s.now })
  else t.upCue (fun c => { c with stepEntry := none })

/-! ## States (R46 to R48) -/

/-- The trace record of a change of state or generation (Table 19.8). -/
def State.cueNote (s : State) : State := s.note 0 0x0060 0 (s.cue.st.code + 4294967296 * s.cue.gen) s.cuePos

/-- Moves the cue block to a state; the blocks that it times follow (R374, R375). -/
def State.cueState (s : State) (st : CueState) : State :=
  if s.cue.st = st then s
  else
    let on := st == .locked || st == .holdover
    let t := (s.upCue (fun c => { c with st := st, stepEntry := if on then c.stepEntry else none })).cueNote
    if on then (if s.cueTimed then t else t.cueNow.ckpRelock)
    else if st = .lost ∨ st = .none then t.ckpCueOff
    else t

/-- Enters LOST: the position is frozen and the history emptied (R44, R48). -/
def State.cueLost (s : State) : State :=
  let t := ((s.cueState .lost).upCue (fun c => { c with hist := [], consec := 0, backRun := 0 })).flag 0 cueStatOff 6 (fun u =>
    u.upCue (fun c => { c with lostEv := true }))
  (t.ao 28 1).record 0 0x0060 0 t.cuePos 0 (.every t.functions)

/-- A discarded frame ends a run of consecutive valid ones (R47). -/
def State.cueInvalid (s : State) (f : Cue → Cue) : State := s.upCue (fun c => { f c with consec := 0 })

/-- Locks once four consecutive valid POSITION frames have come and the step high part is known (R47). -/
def State.cueTryLock (s : State) : State :=
  let c := s.cue
  if (c.st == .acquiring || c.st == .holdover || c.st == .lost) && decide (4 ≤ c.consec) && (c.stepHigh.isSome || c.src == .eth) then s.cueState .locked else s

/-! ## Master change (R50, R51) -/

/-- GEN_POLICY of one pending position entry at a master change to a position (R51). -/
def State.cuePolicy (s : State) (i a : Nat) : State :=
  match aget s.cue.events i with
  | none => s
  | some e =>
    if e.kind ≠ 0 then s
    else if e.genPolicy = 1 then s.upEvents (fun l => adel l i)
    else
      let t := if e.genPolicy = 2 && !(s.vfFrozen e.fn) then (s.cueAct i e).upEvents (fun l => if e.period = 0 then adel l i else l) else s
      if e.period = 0 then t else t.upEvents (fun l => aupd l i (fun e => { e with target := e.ahead a, caught := false }))

/-- The indexes of the table's entries in the order of R54: by target, then by index. -/
def State.cueOrder (s : State) : List Nat := (s.cue.events.mergeSort cueBefore).map (fun e => e.1)

/-- A master change to an absolute phase (R50): first what is due at the old position fires, function entries and the blocks' own, while the
cue runs (Table 2.3); then the entries that wait get their GEN_POLICY in the order of R54. DESIGN CHOICE (log entry 70): in ACQUIRING and LOST step 1 fires nothing, and
entries that FIRE fires together go by target and index. -/
def State.cueMaster (s : State) (a gen : Nat) : State :=
  let s1 := s.cueAll
  let old := s1.step
  let t := s1.upCue (fun c =>
    { c with gen := gen % 256, pos := a, hist := [(a, s1.now)], stepEntry := none, backRun := 0, firstDue := false })
  let u := t.cueOrder.foldl (fun v i => v.cuePolicy i a) t
  let v := (u.flag 0 cueStatOff 7 (fun z => z.upCue (fun c => { c with genEv := true }))).cueNote
  ((v.feedMaster old (a / 65536)).loomMaster old (a / 65536)).ckpMaster

/-! ## Frames (R39 to R45, R49) -/

/-- Whether a GEN lies 1 to 127 ahead of another. -/
def genAhead (g f : Nat) : Bool := decide (1 ≤ (g + 256 - f) % 256) && decide ((g + 256 - f) % 256 ≤ 127)

/-- A valid frame has been taken. DESIGN CHOICE (log entry 70): "consecutive" looks at the frames that come, so a silence between them does
not end a run of valid frames (R47). -/
def State.cueValid (s : State) : State := (s.upCue (fun c => { c with lastValid := s.now, consec := min 4 (c.consec + 1) })).cueTryLock

/-- A position frame of the current generation (R45); `took` is what an accepted frame leaves besides. DESIGN CHOICE (log entry 70): a jump is
flagged only while the cue runs, and only an accepted frame ends a run of backward discards. -/
def State.cueFrame (s0 : State) (a : Nat) (hold : Bool) (took : Cue → Cue) : State :=
  let s := s0.cueNow
  let cur := s.cue.pos
  if a + s.cue.jumpPh < cur then
    let t := s.cueInvalid (fun c => { c with errBack := satu 65535 (c.errBack + 1), backRun := c.backRun + 1 })
    if 16 ≤ t.cue.backRun && t.cue.st != .lost then t.cueLost else t
  else
    let t := if cur + s.cue.jumpPh < a ∧ s.cueTimed = true then s.flag 0 cueStatOff 8 (fun u => u.upCue (fun c => { c with jump := true })) else s
    let u := if s.cueTimed ∧ cur < a then t.cueMove a else t
    (u.upCue (fun c =>
      { took c with hist := (c.hist ++ [(a, s.now)]).drop (c.hist.length + 1 - 16), backRun := 0, hold := hold })).cueValid

/-- Whether a serial frame is intact: no code violation, a good CRC over bits [63:8], most significant first, and a known TYPE (R39). -/
def serialOk (f : Nat) (codeOk : Bool) : Bool := codeOk && crc8 (beBytes 7 (f / 256)) == f % 256 && (bits f 60 4 == 1 || bits f 60 4 == 2)

/-- Something for a frame or write of the source in use (R37). -/
def onSource (s : State) (src : CueSrc) (f : State → State) : Res := onMainIf s (s.cue.src == src) f

/-- A damaged serial frame (R39). -/
def State.serialBad (s : State) : State := s.cueInvalid (fun c => { c with errCrc := satu 65535 (c.errCrc + 1) })

/-- The step high part, or what has been counted of it while it is not known (R40). -/
def Cue.high (c : Cue) : Nat := c.stepHigh.getD c.stepCarry

/-- The high part that STEP_L brings with it: a forward wrap increments it (R40). -/
def Cue.highAt (c : Cue) (low : Nat) : Nat := if 0xFF0000 ≤ c.lastStepL ∧ low < 0x010000 then (c.high + 1) % 65536 else c.high

/-- An accepted frame leaves its STEP_L and the high part that it stands under (R40). -/
def Cue.tookLow (c : Cue) (low : Nat) : Cue :=
  { c with stepHigh := c.stepHigh.map (fun _ => c.highAt low), stepCarry := if c.stepHigh.isSome then c.stepCarry else c.highAt low, lastStepL := low }

/-- POSITION_FRAME (R39, R40, R45, R49, R50). DESIGN CHOICE (log entry 70): a master change without a kept EPOCH leaves LOCKED as it is. -/
def execPositionFrame (frame : Nat) (codeOk : Bool) (s : State) : Res :=
  onSource s .serial (fun t =>
    if !serialOk frame codeOk then t.serialBad
    else if bits frame 60 4 ≠ 1 then t
    else
      let gen := bits frame 52 8
      let low := bits frame 28 24
      let phase := bits frame 12 16
      let hold := bit frame 8
      let ahead := genAhead gen t.cue.fieldGen
      if t.cue.firstDue ∨ ahead = true then
        let high := aget t.cue.keptEpoch gen
        let a := (high.getD 0 * 16777216 + low) * 65536 + phase
        let u := (t.cueNow.upCue (fun c =>
          { c with fieldGen := gen, stepHigh := high, stepCarry := 0, lastStepL := low, keptEpoch := adel c.keptEpoch gen, hold := hold, consec := if c.firstDue then 0 else c.consec })).cueMaster a
          (t.cue.gen + 1)
        u.cueValid
      else if gen ≠ t.cue.fieldGen then t.cueInvalid (fun c => { c with errGen := satu 65535 (c.errGen + 1) })
      else
        t.cueFrame ((t.cue.highAt low * 16777216 + low) * 65536 + phase) hold (fun c => c.tookLow low))

/-- The step high part of the current generation becomes known: the position and the frames of the rate history, formed without it until
now, are extended by it (R40, log entry 35). One that differs from a high part already known is that of the frames to come: the wrap that it
belongs to is behind it, and the next frame does not count it again (DEDUCED, log entry 35). -/
def Cue.extend (c : Cue) (high : Nat) : Cue :=
  let up := if c.stepHigh.isSome then 0 else (high - c.stepCarry) * 2 ^ 40
  { c with stepHigh := some high, stepCarry := 0, pos := c.pos + up, hist := c.hist.map (fun e => (e.1 + up, e.2)),
           lastStepL := if c.stepHigh.isSome ∧ c.stepHigh ≠ some high then 0 else c.lastStepL }

/-- EPOCH_FRAME (R40). DESIGN CHOICE (log entry 70): it is a valid frame for the HOLDOVER time of Table 2.4. -/
def execEpochFrame (frame : Nat) (codeOk : Bool) (s : State) : Res :=
  onSource s .serial (fun t =>
    if !serialOk frame codeOk then t.serialBad
    else if bits frame 60 4 ≠ 2 then t
    else
      let gen := bits frame 52 8
      let high := bits frame 36 16
      if t.cue.firstDue ∨ genAhead gen t.cue.fieldGen = true then
        t.upCue (fun c => { c with keptEpoch := aset c.keptEpoch gen high, lastValid := t.now })
      else if gen = t.cue.fieldGen then (t.upCue (fun c => { c.extend high with lastValid := t.now })).cueTryLock
      else t.upCue (fun c => { c with errGen := satu 65535 (c.errGen + 1) }))

/-- CUE_SW_POS_WRITE (R43, R49): it acts on the whole value, and a low word alone is an access error (R27, Table 2.11). DESIGN CHOICE (log
entry 70): a write ahead by more than JUMP_PH sets no flag; R45 speaks of frames. -/
def execCueSwPosWrite (a : Access) (s : State) : Res :=
  barWrite a.fn a.off a.size s (fun t =>
    if !a.wr ∨ a.fn ≠ 0 ∨ a.bar ≠ 0 ∨ a.off / 8 ≠ 0x00100028 / 8 then t
    else t.write64 a 0x00100028 0 (fun u v whole =>
      if !whole then u.accessError
      else if u.cue.src ≠ .software then u
      else
        let gen := bits v 56 8
        let p := v % 2 ^ 56
        if u.cue.firstDue ∨ genAhead gen u.cue.fieldGen = true then
          ((u.upCue (fun c => { c with fieldGen := gen })).cueMaster p (u.cue.gen + 1)).cueState .locked
        else if gen ≠ u.cue.fieldGen then u.upCue (fun c => { c with errGen := satu 65535 (c.errGen + 1) })
        else if p < u.cue.pos then u.upCue (fun c => { c with errBack := satu 65535 (c.errBack + 1) })
        else u.cueMove p))

/-! ## The cue over Ethernet (R41, R42, R150) -/

/-- The last measured round trip, 0 before the first. -/
def Cue.lastRtt (c : Cue) : Nat := c.rtt.getLastD 0

/-- Spread of the round-trip measurements: the greatest less the least. DESIGN CHOICE (log entry 70): R41 does not define it. -/
def Cue.spread (c : Cue) : Nat := c.rtt.foldl max 0 - c.rtt.foldl min (c.rtt.headD 0)

/-- A received position, advanced by half the round trip at the measured rate, within its step (R41, R44). -/
def Cue.advanced (c : Cue) (a : Nat) : Nat :=
  match c.hist.head?, c.hist.getLast? with
  | some (a0, t0), some (b, t) =>
    if t ≤ t0 ∨ c.hold then a else min (a + (b - a0) * (c.lastRtt / 2) / (t - t0)) (a / 65536 * 65536 + 65535)
  | _, _ => a

/-- ETH_CUE_FRAME: an entry of this device's cue mailbox (R41, R42, R49, R138). -/
def execEthCueFrame (frame : Bytes) (s : State) : Res :=
  onMain s (fun t =>
    match t.member 0 with
    | none => t
    | some m =>
      if !m.live then t
      else if fld frame 24 8 ≠ (m.cueIn + 1) % 2 ^ 64 then t.upNet (fun n => { n with mbox := satu 8191 (n.mbox + 1) })
      else
        let u := t.upMember 0 (fun x => { x with cueIn := fld frame 24 8 })
        let unc := fld frame 4 4
        let gen := fld frame 15 1
        if u.cue.src ≠ .eth ∨ fld frame 0 1 ≠ 1 then u
        else if u.cue.maxUnc < unc then u.cueInvalid (fun c => { c with errUnc := satu 65535 (c.errUnc + 1) })
        else
          let hold := bit (fld frame 1 1) 0
          let v := u.upCue (fun c => { c with hops := fld frame 2 1, unc := unc })
          if v.cue.firstDue ∨ gen ≠ v.cue.gen then
            ((v.cueNow.upCue (fun c => { c with hold := hold })).cueMaster (fld frame 8 7) gen).cueValid
          else v.cueFrame (v.cue.advanced (fld frame 8 7)) hold id)

/-- CUE_FRAME_EMIT: every 10 µs the head writes its position into each member's cue mailbox (R41, Table 5.29). DESIGN
CHOICE (log entry 70): a head that does not itself follow ETH emits uncertainty 0 and hop count 0. -/
def execCueFrameEmit (s : State) : Res :=
  onMainIf s (decide (s.cue.emitAt + 10000 ≤ s.now)) (fun t =>
    let eth := t.cue.src == .eth
    let unc := if eth then min 4294967295 (t.cue.unc + 50 + t.cue.spread) else 0
    let hops := if eth then (t.cue.hops + 1) % 256 else 0
    let body := [(1 : BitVec 8), BitVec.ofNat 8 (b2n t.cue.hold), BitVec.ofNat 8 hops, 0] ++ leBytes 4 unc ++ leBytes 8 t.cuePos ++ zeros 8
    (t.net.members.filter (fun m => m.live && m.reached && !m.isHead)).foldl (fun u m =>
      let seq := (m.cueSeq + 1) % 2 ^ 64
      (u.upMember m.id (fun x => { x with cueSeq := seq })).mboxWrite m .cueFrame 0x40 32 64 seq body)
      (t.upCue (fun c => { c with emitAt := t.now })))

/-- PATH_DELAY_ECHO: every 1 ms a member reads the head's echo word (R41, R149). -/
def execPathDelayEcho (s : State) : Res :=
  onMainIf s (decide (s.cue.echoAt + 1000000 ≤ s.now)) (fun t =>
    match t.member 0 with
    | none => t
    | some m =>
      if m.live && t.cue.echoSent.isNone then
        (t.upCue (fun c => { c with echoAt := t.now, echoSent := some t.now })).qpRead m.ctrlQp (.echo 0) 0 m.peerRkey 8
      else t)

/-- ECHO_READ_RESPONSE: the round trip is measured from request to response; the last 64 are kept (R41, R149). -/
def execEchoReadResponse (s : State) : Res :=
  onMain s (fun t =>
    match t.cue.echoSent, t.member 0 with
    | some at_, some m =>
      let u := t.upQpn m.ctrlQp (fun q =>
        if q.tx.any (fun x => x.op == .echo 0) then { q with tx := q.tx.filter (fun x => x.op != .echo 0), reads := q.reads - 1 } else q)
      u.upCue (fun c => { c with echoSent := none, rtt := (c.rtt ++ [t.now - at_]).drop (c.rtt.length + 1 - 64) })
    | _, _ => t)

/-! ## Time -/

/-- Device time after real time has passed: it stands while it holds, and slews by at most 500 ppm (R58). -/
def Aon.run (a : Aon) (ticks : Nat) : Aon :=
  let n := ticks - a.ptmHold
  let most : Int := (n / 2000 : Nat)
  let d := if a.ptmSlew < 0 then max a.ptmSlew (-most) else min a.ptmSlew most
  { a with time := ((a.time : Int) + n + d).toNat % 2 ^ 64, ptmHold := a.ptmHold - ticks, ptmSlew := a.ptmSlew - d }

/-- CUE_INTERPOLATE: `ticks` ns pass; device time advances and the position is interpolated (R44, R58). In the Tableau device time
stands, and the stage manager keeps time from its own crystal (R515, R517). -/
def execCueInterpolate (ticks : Nat) (s : State) : Res :=
  onAlways s (fun t =>
    if t.aon.tableau then t.upAon (fun a => { a with smLead := a.smLead + ticks })
    else
      let u := t.upAon (fun a => a.run ticks)
      if u.live then u.cueNow.pausesEnd else u)

/-- PTM_EXCHANGE: the first exchange sets device time, which never moves backwards; later ones slew it (R58). -/
def execPtmExchange (hostNs : Nat) (s : State) : Res :=
  onAlways s (fun t =>
    if !t.aon.hostLink ∨ t.aon.tableau then t
    else if t.aon.ptmSetNext then
      t.upAon (fun a => { a with ptmSetNext := false, ptmSlew := 0, time := max a.time (hostNs % 2 ^ 64), ptmHold := a.time - hostNs % 2 ^ 64 })
    else t.upAon (fun a => { a with ptmSlew := (hostNs % 2 ^ 64 : Nat) - (a.time : Int) + (a.ptmHold : Int) }))

/-- CUE_HOLDOVER_TIMEOUT (Table 2.4). -/
def execCueHoldoverTimeout (s : State) : Res :=
  onMainIf s (s.cue.st == .locked && s.cue.src != .software && decide (s.cue.lastValid + 8 * s.cue.src.period ≤ s.now)) (fun t =>
    (t.cueNow.cueState .holdover).upCue (fun c => { c with holdSince := t.now, consec := 0 }))

/-- CUE_HOLD_EXPIRY (Table 2.4, R48). -/
def execCueHoldExpiry (s : State) : Res :=
  onMainIf s (s.cue.st == .holdover && decide (s.cue.holdSince + s.cue.holdUs * 1000 ≤ s.now)) (fun t => t.cueNow.cueLost)

/-! ## Commands -/

/-- The source that SRC names (Table 2.1). -/
def CueSrc.ofCode (n : Nat) : CueSrc :=
  match n with
  | 0 => .none | 1 => .serial | 2 => .eth | _ => .software

/-- SET_CUE_SOURCE (R37, R47). -/
def opSetCueSource : OpSpec :=
  { code := 0x0100, len := fun _ => 8, fields := fun _ p => [(0, decide (fld p 0 1 ≤ 3)), rsv p 1 7],
    run := fun _ _ p s =>
      let src := CueSrc.ofCode (fld p 0 1)
      let t := s.cueNow.upCue (fun c =>
        { c with src := src, firstDue := src != .none, consec := 0, backRun := 0, hist := [], hold := false, keptEpoch := [], stepEntry := none,
                 stepHigh := if src = .serial then none else c.stepHigh, stepCarry := 0 })
      .ok (t.cueState (if src = .none then .none else .acquiring)) }

/-- SET_CUE_SOURCE. -/
def execSetCueSource (h : Hdr) (p : Bytes) (s : State) : Res := runPkt opSetCueSource h p s

/-- The entry that CUE_EVENT_SET describes (Table 2.6). -/
def cueEventOf (fn : Nat) (p : Bytes) : CueEvent :=
  { fn := fn, kind := fld p 4 1, genPolicy := fld p 5 1, action := fld p 6 1, target := fld p 8 8, first := fld p 8 8, period := fld p 16 4, actTarget := fld p 20 4,
    actValue := fld p 24 8 }

/-- Cue event entries that a function may hold (R52). -/
def State.cueQuota (s : State) (fn : Nat) : Nat := if fn = 0 then 4096 else (agetD s.host.vfs fn {}).cueEvents

/-- CUE_EVENT_SET (R52, R53): DETAIL is the index. DESIGN CHOICE (log entry 70): FIRE_LATE fires at once in ACQUIRING and LOST too, and a KIND 1
entry whose device time has passed is written and then due, whatever FIRE_LATE says. -/
def opCueEventSet : OpSpec :=
  { code := 0x0101, role := .tenant, len := fun _ => 32,
    fields := fun _ p =>
      [(0, decide (fld p 0 4 < 4096) || fld p 0 4 == 0xFFFFFFFF), (4, decide (fld p 4 1 ≤ 1)), (5, fld p 4 1 == 1 || decide (fld p 5 1 ≤ 2)),
       (6, decide (fld p 6 1 ≤ 2)), (7, decide (fld p 7 1 < 2)), (8, fld p 4 1 == 1 || fld p 15 1 == 0), (24, fld p 6 1 == 1 || fld p 24 8 == 0)],
    run := fun c _ p s =>
      let e := cueEventOf c.fn p
      let mine := (s.cue.events.filter (fun x => x.2.fn == c.fn)).length
      let slot := if fld p 0 4 = 0xFFFFFFFF then freeKey s.cue.events 4096 0 else some (fld p 0 4)
      if e.kind = 0 ∧ s.cue.st = .none then badState
      else match slot with
        | none => noResource
        | some i =>
          let held := aget s.cue.events i
          if held.any (fun x => x.fn != c.fn) || (held.isNone && decide (s.cueQuota c.fn ≤ mine)) then noResource
          else if (e.action = 0 ∧ 4096 ≤ e.actTarget) ∨ (e.action = 1 ∧ latchCount ≤ e.actTarget) ∨ (e.action = 2 ∧ s.unitValid e.actTarget = false) then badParam 20
          else if e.kind = 0 ∧ e.target ≤ s.cue.pos then
            if !(bit (fld p 7 1) 0) then .refuse 0x0010 0
            else .done sOk i 0 ((s.upEvents (fun l => aset l i e)).cueFire i e)
          else .done sOk i 0 (s.upEvents (fun l => aset l i e)) }

/-- CUE_EVENT_SET. -/
def execCueEventSet (h : Hdr) (p : Bytes) (s : State) : Res := runPkt opCueEventSet h p s

/-- CUE_EVENT_CLEAR (R52, R55): an entry that is due fires in the same cycle, and is then removed. -/
def opCueEventClear : OpSpec :=
  { code := 0x0102, role := .tenant, len := fun _ => 8, fields := fun _ p => [(0, decide (fld p 0 4 < 4096)), rsv p 4 4],
    run := fun c _ p s =>
      let i := fld p 0 4
      match aget s.cue.events i with
      | none => .ok s
      | some e =>
        if e.fn ≠ c.fn then .ok s
        else if s.cueDue e then .done sOk 1 0 ((s.cueAct i e).upEvents (fun l => adel l i))
        else .done sOk 2 0 (s.upEvents (fun l => adel l i)) }

/-- CUE_EVENT_CLEAR. -/
def execCueEventClear (h : Hdr) (p : Bytes) (s : State) : Res := runPkt opCueEventClear h p s

/-- CUE_EVENT_FIRE: the due entry of the lowest target and index fires; what the blocks have due with an earlier target goes first (R54). -/
def execCueEventFire (s : State) : Res :=
  onMain s (fun t =>
    match t.cueNext (fun _ => true) with
    | some (_, e) =>
      let u := if e.kind = 0 then t.cueTo (e.target - 1 : Int) (e.target - 1 : Int) else t
      (match u.cueNext (fun _ => true) with
      | some (i, x) => u.cueFire i x
      | none => u)
    | none => t)

end Sys2Proof.Machine
end

