-- ==== Sys2Proof/Machine/Hed.lean ====
section
/-!
DEFINITION. The Heddle (R152 to R161): the parse graph, metadata, match tables, flows, destinations, and its commands.
-/
namespace Sys2Proof.Machine

open Sys2Proof

/-! ## The walk (R154) -/

/-- Bits of a header field, the first bit the most significant of its first byte; bits beyond the frame read 0. -/
def bitField (f : Bytes) (off bitOff width : Nat) : Nat :=
  let first := bitOff / 8
  let n := (bitOff % 8 + width + 7) / 8
  let v := beNat (padTo n (sub f (off + first) n))
  v / 2 ^ (8 * n - bitOff % 8 - width) % 2 ^ width

/-- The metadata of a frame (Table 5.13); `inner` and `outer` are the offsets of the last recorded layer and of the one
before it, and `owner` is the function whose key page decrypted it. -/
structure HMeta where
  port : Nat := 0
  recirc : Bool := false
  owner : Option Nat := none
  exc : Bool := false
  hit : Bool := false
  learned : Bool := false
  drop : Bool := false
  layers : Nat := 0
  last : Nat := 0
  hash : Nat := 0
  ctx : Nat := 0xFFFFFFFF
  dest : Nat := 0
  offs : List (Nat × Nat) := []
  len : Nat := 0
  user : Bytes := []
  inner : Nat := 0
  outer : Nat := 0
deriving DecidableEq, Repr

/-- Whether a frame may reach a destination of a function: one that a key page decrypted only its owner's (R170). -/
def HMeta.mine (m : HMeta) (fn : Nat) : Bool := m.owner.all (fun o => o == fn)

/-- The 64 bytes of metadata. -/
def HMeta.bytes (m : HMeta) : Bytes :=
  let fl := b2n m.recirc + 2 * b2n m.exc + 4 * b2n m.hit + 8 * b2n m.learned + 16 * b2n m.drop
  [BitVec.ofNat 8 m.port, BitVec.ofNat 8 fl, BitVec.ofNat 8 m.layers, BitVec.ofNat 8 m.last] ++ leBytes 4 m.hash ++ leBytes 4 m.ctx ++
    leBytes 4 m.dest ++ ((List.range 16).flatMap (fun i => leBytes 2 (agetD m.offs i 0))) ++ leBytes 2 m.len ++ padTo 14 m.user

/-- Records a header layer; a seventeenth breaks the limit (R152). -/
def HMeta.record (m : HMeta) (layer off : Nat) : HMeta :=
  if layer = 0xFF then m
  else if 16 ≤ m.layers then { m with exc := true }
  else { m with offs := aset m.offs layer off, layers := m.layers + 1, outer := m.inner, inner := off }

/-- Whether a field lies within the 512 bytes that the Heddle looks at (R152). -/
def inLook (off bitOff width : Nat) : Bool := width == 0 || decide (off + (bitOff + width + 7) / 8 ≤ 512)

/-- The walk of the parse graph: at most `fuel` nodes (R152, R154). -/
def hedWalk (g : Hed) (f : Bytes) : Nat → Nat → Nat → HMeta → HMeta
  | 0, node, _, m => { m with exc := true, last := node }
  | fuel + 1, node, off, m =>
    if 512 ≤ off then { m with exc := true, last := node }
    else
      let n := g.nodes.getD node {}
      if !(inLook off n.selOff n.selWidth) || (n.lenMode == 1 && !(inLook off n.lenOff n.lenWidth)) then { m with exc := true, last := node }
      else
        let len := n.lenAdd + (if n.lenMode = 1 then bitField f off n.lenOff n.lenWidth * n.lenMul else 0)
        let m1 := { m.record n.layer off with last := node }
        if m1.exc then m1
        else
          let sel := bitField f off n.selOff n.selWidth
          let next := match g.trans.find? (fun t => t.node == node && (sel &&& t.mask) == t.value) with
            | some t => t.next
            | none => n.next
          if next = 0xFE then { m1 with exc := true }
          else if next = 0xFF then m1
          else hedWalk g f fuel next (if n.noadv then off else off + len) m1

/-! ## Hash and 5-tuple (R160) -/

/-- Protocols that carry ports: TCP, UDP, DCCP, SCTP and UDP-Lite. -/
def hasPorts (proto : Nat) : Bool := proto == 6 || proto == 17 || proto == 33 || proto == 132 || proto == 136

/-- An address as 16 bytes, IPv4 mapped into IPv6. -/
def mapped (v4 : Bytes) : Bytes := zeros 10 ++ [0xFF, 0xFF] ++ padTo 4 v4

/-- The two endpoints, lower first, with the protocol: the 37-byte string A ‖ B ‖ PROTO and whether the source is A; none
without layers 2 and 3. -/
def fiveTuple (f : Bytes) (m : HMeta) : Option (Bytes × Bool) :=
  match aget m.offs 2, aget m.offs 3 with
  | some ip, some l4 =>
    let g := padTo (max f.length (max (ip + 40) (l4 + 4))) f
    let v6 := fld g ip 1 / 16 == 6
    let proto := if v6 then fld g (ip + 6) 1 else fld g (ip + 9) 1
    let src := if v6 then sub g (ip + 8) 16 else mapped (sub g (ip + 12) 4)
    let dst := if v6 then sub g (ip + 24) 16 else mapped (sub g (ip + 16) 4)
    let sp : Bytes := if hasPorts proto then sub g l4 2 else zeros 2
    let dp : Bytes := if hasPorts proto then sub g (l4 + 2) 2 else zeros 2
    let a := src ++ sp
    let b := dst ++ dp
    if beNat a ≤ beNat b then some (a ++ b ++ [BitVec.ofNat 8 proto], true) else some (b ++ a ++ [BitVec.ofNat 8 proto], false)
  | _, _ => none

/-! ## Match tables (R155 to R158, R161) -/

/-- Unit ID of a match table (Table 1.7). -/
def uTable (t : Nat) : Nat := 0x60000000 + (t + 1)

/-- The key of a table for a frame; the offset of a layer that was not recorded is 0. -/
def HTable.keyOf (t : HTable) (m : HMeta) (f : Bytes) : Bytes :=
  padTo 40 (t.keys.flatMap (fun k =>
    if k.1 = 0 then padTo k.2.2 (sub m.bytes k.2.1 k.2.2) else padTo k.2.2 (sub f (agetD m.offs (k.1 - 1) 0 + k.2.1) k.2.2)))

/-- A key under a mask. -/
def masked (key mask : Bytes) : Bytes := (List.zip (padTo 40 key) (padTo 40 mask)).map (fun e => e.1 &&& e.2)

/-- The first bits of a key. -/
def prefixOf (key : Bytes) (n : Nat) : Nat := beNat (padTo 40 key) / 2 ^ (320 - min 320 n)

/-- Prefix length of a longest-prefix entry (R157). -/
def HEntry.plen (e : HEntry) : Nat := fld e.mask 0 2

/-- The entry that wins by an order; the earlier one among equals. -/
def bestEntry (better : HEntry → HEntry → Bool) : List HEntry → Option HEntry
  | [] => none
  | e :: t =>
    match bestEntry better t with
    | none => some e
    | some x => if better x e then some x else some e

/-- The entry of a table that a key finds. -/
def HTable.find (t : HTable) (key : Bytes) : Option HEntry :=
  match t.kind with
  | 1 => t.entries.find? (fun e => padTo 40 e.key == key)
  | 2 => bestEntry (fun x e => decide (x.prio < e.prio)) (t.entries.filter (fun e => masked key e.mask == masked e.key e.mask))
  | 3 => bestEntry (fun x e => decide (e.plen < x.plen)) (t.entries.filter (fun e => prefixOf key e.plen == prefixOf e.key e.plen))
  | _ => none

/-- Writes a host packet ring entry, or drops the frame for a full or absent ring (R159). DESIGN CHOICE (log entry 46): no register returns
entries, so a ring is full once all of its entries have been written, until SET_PACKET_RING sets it anew. -/
def State.packetRing (s : State) (n : Nat) (m : HMeta) (f : Bytes) : State :=
  match aget s.hed.rings n with
  | none => s.upHed (fun h => { h with ringDrop := h.ringDrop + 1 })
  | some r =>
    if r.size ≤ r.count then s.upHed (fun h => { h with ringDrop := h.ringDrop + 1 })
    else
      ((s.hostWrite 0 (r.base + 2112 * r.tail) (m.bytes ++ f.take 2048)).upHed (fun h => { h with rings := aset h.rings n r.push })).vecEvent 0
        r.vector

/-- Applies an action record: SET_USER, SET_DEST, DROP, COUNT, MIRROR (R156, R159). -/
def State.hedAction (s : State) (a : HAction) (m : HMeta) (f : Bytes) : State × HMeta :=
  let m1 := if bit a.ops 0 then
      let o := a.userOff - 50
      { m with user := (padTo 14 m.user).take o ++ padTo a.userLen (a.value.take a.userLen) ++ (padTo 14 m.user).drop (o + a.userLen) }
    else m
  let m2 := if bit a.ops 1 then { m1 with dest := a.dest } else m1
  let m3 := if bit a.ops 2 then { m2 with drop := true } else m2
  let t := if bit a.ops 4 then
      s.upHed (fun h => { h with counters := amod h.counters a.counter (0, 0) (fun c => (c.1 + 1, c.2 + m.len)) })
    else s
  (if bit a.ops 5 && m.mine 0 then t.packetRing 0 m3 f else t, m3)

/-- A learn that found no context: counted, flagged, and told at most once in 10 ms (R147, R161). -/
def State.learnFailed (s : State) : State :=
  let t := s.flag 6 0x01800000 2 (fun u => u.upHed (fun h => { h with cLearn := satu 65535 (h.cLearn + 1), learnFail := true }))
  let n := t.net.learnCnt + 1
  let due := match t.net.learnAt with
    | some at_ => decide (at_ + 10000000 ≤ s.now)
    | none => true
  if due then (t.upNet (fun k => { k with learnAt := some s.now, learnCnt := 0 })).netEvent 0x0031 0 0 n
  else t.upNet (fun k => { k with learnCnt := n })

/-- Counts a frame of a flow (R161). -/
def Flow.seen (x : Flow) (now len : Nat) (fromA : Bool) : Flow :=
  if fromA == x.aSrc then { x with frames := x.frames + 1, bytes := x.bytes + len, last := now }
  else { x with framesBack := x.framesBack + 1, bytesBack := x.bytesBack + len, last := now }

/-- Looks a frame up in a flow table: a hit applies the stored action, a miss may learn (R161). -/
def State.flowLookup (s : State) (n : Nat) (t : HTable) (m : HMeta) (f : Bytes) : State × HMeta × HAction :=
  match fiveTuple f m with
  | none => (s, m, t.miss)
  | some (key, fromA) =>
    match s.hed.flows.find? (fun x => x.table == n && x.key == key) with
    | some x =>
      (((s.ctxUse x.ctx).upHed (fun h => { h with flows := lupd h.flows (fun y => y.ctx == x.ctx) (fun y => y.seen s.now m.len fromA) })).withObs
        (fun u => u.gctr 0x0060 (uTable n) 1), { m with hit := true, ctx := x.ctx }, x.act)
    | none =>
      if bit t.miss.ops 3 then
        match s.ctxTake 1 with
        | none => (s.learnFailed, m, t.miss)
        | some (c, u) =>
          let x : Flow := { ctx := c, table := n, key := key, act := { ops := 2, dest := t.miss.dest, next := t.miss.next }, first := s.now,
                            last := s.now, aSrc := fromA }
          (u.upHed (fun h => { h with flows := h.flows ++ [x.seen s.now m.len fromA] }), { m with learned := true }, t.miss)
      else (s, m, t.miss)

/-- The tables from number `n` on (R156). -/
def State.hedTables : Nat → State → Nat → HMeta → Bytes → State × HMeta
  | 0, s, _, m, _ => (s, m)
  | fuel + 1, s, n, m, f =>
    if 16 ≤ n then (s, m)
    else
      let t := agetD s.hed.tables n {}
      if t.kind = 0 then State.hedTables fuel s (n + 1) m f
      else
        let r : State × HMeta × HAction :=
          if t.kind = 4 then s.flowLookup n t m f
          else match t.find (t.keyOf m f) with
            | some e => ((if t.kind = 1 then s.ctxUse e.ctx else s).withObs (fun u => u.gctr 0x0060 (uTable n) 1), m, e.act)
            | none => (s, m, t.miss)
        let a := r.1.hedAction r.2.2 r.2.1 f
        if r.2.2.next = 0xFF then a else State.hedTables fuel a.1 r.2.2.next a.2 f

/-! ## Destinations (R158, R178) -/

/-- Drops a frame for DROP or want of a destination. -/
def State.noDest (s : State) : State := s.upHed (fun h => { h with cNoDest := satu 65535 (h.cNoDest + 1) })

/-- A frame for a cipher lane: steps 1 to 3 of R178. -/
def State.espIn (s : State) (k : Nat) (m : HMeta) (f : Bytes) : State :=
  let q := s.page k
  if q.st ≠ .ready ∨ q.mode ≠ 2 ∨ fldBE f m.inner 4 ≠ q.spi then s.noKey k
  else if q.replayed (espSeq q (fldBE f (m.inner + 4) 4)) then s.replay k
  else
    let u : CipUnit := { page := k, use := .esp, seq := espSeq q (fldBE f (m.inner + 4) 4), data := f, port := m.port, espOff := m.inner, ipOff := m.outer }
    match s.submit u none with
    | some t => t
    | none => s.upPage k (fun q => { q with drop := satu 65535 (q.drop + 1) })

/-- Sends a frame to its destination (R158, Table 5.16). -/
def State.hedDest (s : State) (m : HMeta) (f : Bytes) : State :=
  if m.drop then s.noDest
  else
    let i := m.dest % 268435456
    match m.dest / 268435456 with
    | 1 => if m.mine (agetD s.shu.streams i {}).owner then s.shuLive i (f.drop m.inner) else s.noDest
    | 2 => if i < 256 ∧ m.mine 0 then s.packetRing i m f else s.noDest
    | 3 =>
      if m.recirc then s.upHed (fun h => { h with cRecirc := satu 65535 (h.cRecirc + 1) })
      else if i < pageCount then s.espIn i m f else s.noDest
    | _ => s.noDest

/-- Classifies a frame, FRAME_LEN of whose metadata does not count the FCS, which no block beyond the port sees (DESIGN CHOICE, log entry
46): the walk, the hash, the tables and the destination (R152 to R161); `owner` is the function of the key page that
decrypted a frame which recirculates (R170). -/
def State.classify (s : State) (port : Nat) (f : Bytes) (owner : Option Nat) : State :=
  if s.hed.nodes.isEmpty then s.noDest
  else
    let m0 := hedWalk s.hed f 24 0 0 { port := port, recirc := owner.isSome, owner := owner, len := f.length }
    let t := if m0.exc then s.upHed (fun h => { h with cParse := satu 65535 (h.cParse + 1) }) else s
    let m := match fiveTuple f m0 with
      | some k => { m0 with hash := crc32cFrom s.hed.seed k.1 }
      | none => m0
    let r := State.hedTables 17 (t.ao 16 1) 0 m f
    r.1.hedDest r.2 f

/-- A frame for the Heddle: an intermission holds it, in order (R88). -/
def State.hedFrame (s : State) (port : Nat) (f : Bytes) : State :=
  if s.held 0x60000000 then s.upHed (fun h => { h with held := h.held ++ [(port, f)] }) else s.classify port f none

/-- The frames that an intermission held go on when it has ended. -/
def State.hedRelease (s : State) : State :=
  if s.held 0x60000000 then s
  else s.hed.held.foldl (fun t e => t.classify e.1 e.2 none) (s.upHed (fun h => { h with held := [] }))

/-- Whether a frame is a RoCEv2 packet: UDP port 4791 in the first IPv4 or IPv6 header; its BTH opcode. -/
def roceOpcode (f : Bytes) : Option Nat :=
  let tag := if fldBE f 12 2 = 0x8100 then 4 else 0
  let et := fldBE f (12 + tag) 2
  let ip := 14 + tag
  if et = 0x0800 ∧ fld f (ip + 9) 1 = 17 then
    let l4 := ip + 4 * (fld f ip 1 % 16)
    if fldBE f (l4 + 2) 2 = 4791 then some (fld f (l4 + 8) 1) else none
  else if et = 0x86DD ∧ fld f (ip + 6) 1 = 17 then
    let l4 := ip + 40
    if fldBE f (l4 + 2) 2 = 4791 then some (fld f (l4 + 8) 1) else none
  else none

/-- Until when a pause of so many quanta of 512 bit times holds on a port of the present mode (R133; the standards' units). -/
def Net.pauseEnd (n : Net) (quanta now : Nat) : Nat := now + quanta * 512 / (200 * 2 ^ n.mode)

/-- A MAC control frame (EtherType 0x8808): with PFC_EN a priority flow control frame pauses the priorities it enables, without it a pause
frame pauses them all (R133, log entry 72); the frame goes no further. -/
def Net.control (n : Net) (f : Bytes) (now : Nat) (p : Port) : Port :=
  let op := fldBE f 14 2
  if n.pfcEn && op == 0x0101 then
    { p with pause := (List.range 8).foldl (fun m k =>
        if bit (fldBE f 16 2) k then aset m k (n.pauseEnd (fldBE f (18 + 2 * k) 2) now) else m) p.pause }
  else if !n.pfcEn && op == 0x0001 then
    { p with pause := (List.range 8).map (fun k => (k, n.pauseEnd (fldBE f 16 2) now)) }
  else p

/-- FRAME_RECEIVED: a frame arrives on an ACTIVE port. `own` says that it is addressed to the device itself, `uncorr` how
many uncorrectable codewords touched it (R132). RoCEv2 of the device's own goes to the RDMA engine, whose rows carry it;
unreliable traffic among it is dropped and counted (R135). -/
def execFrameReceived (port : Nat) (frame : Bytes) (own : Bool) (uncorr : Nat) (s : State) : Res :=
  onMainIf s (s.net.portUp port) (fun s =>
    if 0 < uncorr then
      s.upNet (fun n => { n with ports := amod n.ports port {} (fun p => { p with uncorr := satu 4294967295 (p.uncorr + uncorr) }) })
    else if frame.length + 4 < 64 ∨ 9216 < frame.length + 4 then s
    else
      let t := (s.ao 9 (frame.length + 4)).withObs (fun u => u.gctr 0x0050 (unitId 5 port) 1)
      if fldBE frame 12 2 = 0x8808 then
        (t.upNet (fun n => { n with ports := amod n.ports port {} (n.control frame s.now) })).pausesEnd
      else match (if own then roceOpcode frame else none) with
      | some op =>
        if op / 32 = 1 ∨ op / 32 = 3 then t.upNet (fun n => { n with udDrop := n.udDrop + 1 }) else t
      | none => t.hedFrame port frame)

/-- FRAME_RECIRCULATE: a decrypted frame walks the graph and tables once more (R158, R178). -/
def execFrameRecirculate (unit : Nat) (s : State) : Res :=
  onMain s (fun s =>
    match s.hed.recirc.find? (fun e => e.1 == unit) with
    | none => s
    | some e => (s.upHed (fun h => { h with recirc := h.recirc.filter (fun x => x.1 != unit) })).classify e.2.1 e.2.2.2 (some e.2.2.1))

/-! ## Commands -/

/-- Unit ID of the Heddle as a scope. -/
def uHeddle : Nat := 0x60000000

/-- A parse-graph node (Table 5.11). -/
def nodeOf (b : Bytes) : GNode :=
  { selOff := fld b 0 2, selWidth := fld b 2 1, lenMode := fld b 3 1, lenOff := fld b 4 2, lenWidth := fld b 6 1, lenMul := fld b 7 1,
    lenAdd := fld b 8 2, layer := fld b 10 1, next := fld b 11 1, noadv := bit (fld b 12 1) 0 }

/-- A transition (Table 5.12). -/
def transOf (b : Bytes) : GTrans := { node := fld b 0 1, next := fld b 1 1, value := fld b 4 4, mask := fld b 8 4 }

/-- The nodes of HED_LOAD_GRAPH. -/
def graphNodes (p : Bytes) : List GNode := (List.range (fld p 0 2)).map (fun i => nodeOf (sub p (8 + 16 * i) 16))

/-- The transitions of HED_LOAD_GRAPH. -/
def graphTrans (p : Bytes) : List GTrans :=
  (List.range (fld p 2 2)).map (fun i => transOf (sub p (8 + 16 * fld p 0 2 + 16 * i) 16))

/-- Whether NEXT names a node of the graph or an end. -/
def nextOk (n next : Nat) : Bool := decide (next < n) || next == 0xFF || next == 0xFE

/-- The first faulty node or transition: a node whose length field is wider than 16 bits, or a next node that is absent
(R153). -/
def graphFault (p : Bytes) : Option Nat :=
  let nodes := graphNodes p
  let n := nodes.length
  match nodes.findIdx? (fun g => (g.lenMode == 1 && decide (16 < g.lenWidth)) || !(nextOk n g.next)) with
  | some i => some i
  | none => (graphTrans p).findIdx? (fun t => !(decide (t.node < n) && nextOk n t.next))

/-- Applies HED_LOAD_GRAPH. -/
def State.applyGraph (s : State) (p : Bytes) : State :=
  s.upHed (fun h => { h with nodes := graphNodes p, trans := graphTrans p })

/-- Fields of a node that step 4 judges (Table 5.11). -/
def nodeFields (p : Bytes) (i : Nat) : List (Nat × Bool) :=
  let o := 8 + 16 * i
  [(o + 2, decide (fld p (o + 2) 1 ≤ 32)), (o + 3, decide (fld p (o + 3) 1 ≤ 1)),
   (o + 6, fld p (o + 3) 1 == 0 || decide (1 ≤ fld p (o + 6) 1)), (o + 10, decide (fld p (o + 10) 1 < 16) || fld p (o + 10) 1 == 0xFF),
   (o + 12, decide (fld p (o + 12) 1 ≤ 1)), rsv p (o + 13) 3]

/-- HED_LOAD_GRAPH (R153). -/
def opHedLoadGraph : OpSpec :=
  { code := 0x0700, len := fun p => 8 + 16 * fld p 0 2 + 16 * fld p 2 2,
    fields := fun _ p =>
      let n := fld p 0 2
      [(0, decide (1 ≤ n) && decide (n ≤ 256)), (2, decide (fld p 2 2 ≤ 4096)), rsv p 4 4] ++ (List.range (min n 256)).flatMap (nodeFields p) ++
        (List.range (min 4096 (fld p 2 2))).flatMap (fun i => let o := 8 + 16 * n + 16 * i; [rsv p (o + 2) 2, rsv p (o + 12) 4]),
    run := fun c h p s =>
      match s.settingStop c uHeddle true with
      | some v => v
      | none =>
        match graphFault p with
        | some i => .refuse 0x0010 i
        | none => s.setting 0x0700 c { h with unit := uHeddle } p (fun _ => true) 0 (fun t => t.applyGraph p) }

/-- HED_LOAD_GRAPH. -/
def execHedLoadGraph (h : Hdr) (p : Bytes) (s : State) : Res := runPkt opHedLoadGraph h p s

/-- An action record (Table 5.15). -/
def actionOf (b : Bytes) : HAction :=
  { ops := fld b 0 1, next := fld b 1 1, userOff := fld b 2 1, userLen := fld b 3 1, dest := fld b 4 4, value := sub b 8 8,
    counter := fld b 16 4 }

/-- The fields of an action record of a table, from an offset of the parameters. -/
def actionFields (p : Bytes) (o table : Nat) : List (Nat × Bool) :=
  let a := actionOf (sub p o 24)
  let setUser := bit a.ops 0
  [(o, decide (a.ops < 64)), (o + 1, a.next == 0xFF || (decide (table < a.next) && decide (a.next < 16))),
   (o + 2, !setUser || (decide (50 ≤ a.userOff) && decide (a.userOff ≤ 63))),
   (o + 3, !setUser || (decide (1 ≤ a.userLen) && decide (a.userLen ≤ 8) && decide (a.userOff + a.userLen ≤ 64))),
   (o + 4, !(bit a.ops 1 || bit a.ops 3) || decide (a.dest / 268435456 ≤ 3)), (o + 16, decide (a.counter < 65536)), rsv p (o + 20) 4]

/-- Key extraction `i` of HED_SET_TABLE: (source, offset, length). -/
def keyAt (p : Bytes) (i : Nat) : Nat × Nat × Nat := (fld p (8 + 4 * i) 1, fld p (9 + 4 * i) 2, fld p (11 + 4 * i) 1)

/-- Key bytes of the first extractions. -/
def keyTotal (p : Bytes) (n : Nat) : Nat := ((List.range n).map (fun i => (keyAt p i).2.2)).sum

/-- Fields of the key extractions that the table uses: one that carries the total past 40 is at fault (R156). -/
def keyFields (p : Bytes) : List (Nat × Bool) :=
  (List.range 4).flatMap (fun i =>
    let k := keyAt p i
    let used := decide (i < fld p 2 1) && fld p 1 1 != 0 && fld p 1 1 != 4
    if used then
      [(8 + 4 * i, decide (k.1 ≤ 16)), (11 + 4 * i, decide (1 ≤ k.2.2) && decide (k.2.2 ≤ 16) && decide (keyTotal p (i + 1) ≤ 40))]
    else [])

/-- The sizes that tables ask of the two stores once one of them is set (R156): ternary and longest prefix, exact and
flow. -/
def Hed.storeUse (h : Hed) (n kind size : Nat) : Nat × Nat :=
  let l := (h.tables.filter (fun e => e.1 != n)).map (fun e => (e.2.kind, e.2.size)) ++ [(kind, size)]
  (((l.filter (fun e => e.1 == 2 || e.1 == 3)).map (fun e => e.2)).sum, ((l.filter (fun e => e.1 == 1 || e.1 == 4)).map (fun e => e.2)).sum)

/-- Whether the sizes fit their stores. -/
def Hed.fits (h : Hed) (n kind size : Nat) : Bool :=
  let u := h.storeUse n kind size
  decide (u.1 ≤ 32768) && decide (u.2 ≤ ctxTotal)

/-- Applies HED_SET_TABLE: the table starts empty, and its contexts are free (R156). -/
def State.applyTable (s : State) (p : Bytes) : State :=
  let n := fld p 0 1
  let gone := ((agetD s.hed.tables n {}).entries.map (fun e => e.ctx)) ++ ((s.hed.flows.filter (fun f => f.table == n)).map (fun f => f.ctx))
  let old := agetD s.hed.tables n {}
  let t := if old.kind = 1 ∨ old.kind = 4 then s.ctxGive gone else s
  t.upHed (fun h =>
    { h with flows := h.flows.filter (fun f => f.table != n),
             tables := aset h.tables n { kind := fld p 1 1, keys := (List.range (fld p 2 1)).map (keyAt p), size := fld p 4 4,
                                         miss := actionOf (sub p 24 24) } })

/-- Whether a table fits beside the others in force: the stores hold the sizes together (R156). INTERMISSION_END asks it again of each
staged table, over those staged before it (R89). -/
def State.okTable (s : State) (p : Bytes) : Bool := s.hed.fits (fld p 0 1) (fld p 1 1) (fld p 4 4)

/-- HED_SET_TABLE (R156; Table 5.14). -/
def opHedSetTable : OpSpec :=
  { code := 0x0701, len := fun _ => 48,
    fields := fun _ p =>
      [(0, decide (fld p 0 1 < 16)), (1, decide (fld p 1 1 ≤ 4)), (2, decide (1 ≤ fld p 2 1) && decide (fld p 2 1 ≤ 4)), rsv p 3 1] ++
        keyFields p ++ actionFields p 24 (fld p 0 1),
    run := fun c h p s =>
      match s.settingStop c uHeddle true with
      | some v => v
      | none =>
        if !(s.okTable p) then noResource
        else s.setting 0x0701 c { h with unit := uHeddle } p (fun y => fld y.params 0 1 == fld p 0 1) 0 (fun t => t.applyTable p) }

/-- HED_SET_TABLE. -/
def execHedSetTable (h : Hdr) (p : Bytes) (s : State) : Res := runPkt opHedSetTable h p s

/-- Whether an entry has the key of an add or a delete: its key, and in a ternary table its priority and mask, in a
longest-prefix table its length (R157). -/
def HTable.same (t : HTable) (p : Bytes) (e : HEntry) : Bool :=
  e.key == sub p 8 40 && (t.kind != 2 || (e.mask == sub p 48 40 && e.prio == fld p 4 4)) && (t.kind != 3 || e.plen == fld p 48 2)

/-- Fields of an entry command (R157). -/
def entryFields (s : State) (p : Bytes) : List (Nat × Bool) :=
  let t := agetD s.hed.tables (fld p 0 1) {}
  [(0, decide (fld p 0 1 < 16)), rsv p 1 3, (4, t.kind == 2 || fld p 4 4 == 0),
   (48, t.kind == 2 || (t.kind == 3 && decide (fld p 48 2 ≤ 320) && fld p 50 38 == 0) || fld p 48 40 == 0)]

/-- HED_ADD_ENTRY (R157). DESIGN CHOICE (log entry 46): a table of KIND 0 holds no entry, so an add to it finds none free and completes
HED_TABLE_FULL. -/
def opHedAddEntry : OpSpec :=
  { code := 0x0702, len := fun _ => 112, fields := fun s p => entryFields s p ++ actionFields p 88 (fld p 0 1),
    run := fun _ _ p s =>
      let n := fld p 0 1
      let t := agetD s.hed.tables n {}
      let act := actionOf (sub p 88 24)
      let mine := s.hed.flows.filter (fun f => f.table == n)
      if t.kind = 4 then
        if mine.any (fun f => f.key == sub p 8 37) then .refuse 0x0012 0
        else if t.size ≤ mine.length then .refuse 0x0011 0
        else match s.ctxTake 1 with
          | none => noResource
          | some (c, u) =>
            .ok (u.upHed (fun h => { h with flows := h.flows ++ [{ ctx := c, table := n, key := sub p 8 37, act := act, first := s.now, last := s.now }] }))
      else if t.entries.any (t.same p) then .refuse 0x0012 0
      else if t.kind = 0 ∨ t.size ≤ t.entries.length then .refuse 0x0011 0
      else
        let put := fun (u : State) (c : Nat) =>
          let e : HEntry := { prio := fld p 4 4, key := sub p 8 40, mask := sub p 48 40, act := act, ctx := c }
          Verdict.ok (u.upHed (fun h => { h with tables := aupd h.tables n (fun x => { x with entries := x.entries ++ [e] }) }))
        if t.kind = 1 then
          match s.ctxTake 1 with
          | none => noResource
          | some (c, u) => put u c
        else put s 0 }

/-- HED_ADD_ENTRY. -/
def execHedAddEntry (h : Hdr) (p : Bytes) (s : State) : Res := runPkt opHedAddEntry h p s

/-- HED_DEL_ENTRY (R157): a key that is not present names no entry, INVALID_PARAM at the key (log entry 18). -/
def opHedDelEntry : OpSpec :=
  { code := 0x0703, len := fun _ => 88, fields := entryFields,
    run := fun _ _ p s =>
      let n := fld p 0 1
      let t := agetD s.hed.tables n {}
      if t.kind = 4 then
        match s.hed.flows.find? (fun f => f.table == n && f.key == sub p 8 37) with
        | none => badParam 8
        | some f => .ok ((s.ctxGive [f.ctx]).upHed (fun h => { h with flows := h.flows.filter (fun x => x.ctx != f.ctx) }))
      else
        match t.entries.find? (t.same p) with
        | none => badParam 8
        | some e =>
          .ok ((if t.kind = 1 then s.ctxGive [e.ctx] else s).upHed (fun h =>
            { h with tables := aupd h.tables n (fun x => { x with entries := x.entries.erase e }) })) }

/-- HED_DEL_ENTRY. -/
def execHedDelEntry (h : Hdr) (p : Bytes) (s : State) : Res := runPkt opHedDelEntry h p s

/-- SET_PACKET_RING (R159): the ring starts empty. -/
def opSetPacketRing : OpSpec :=
  { code := 0x0704, len := fun _ => 16,
    fields := fun _ p => [(1, decide (6 ≤ fld p 1 1) && decide (fld p 1 1 ≤ 16)), rsv p 2 2, (4, decide (fld p 4 2 < 2048)), rsv p 6 2,
      (8, fld p 8 8 % 4096 == 0)],
    run := fun _ _ p s => .ok (s.upHed (fun h =>
      { h with rings := aset h.rings (fld p 0 1) { base := fld p 8 8, log2 := fld p 1 1, vector := fld p 4 2 } })) }

/-- SET_PACKET_RING. -/
def execSetPacketRing (h : Hdr) (p : Bytes) (s : State) : Res := runPkt opSetPacketRing h p s

/-- Frees a flow. -/
def State.flowFree (s : State) (ctx : Nat) : State :=
  (s.ctxGive [ctx]).upHed (fun h => { h with flows := h.flows.filter (fun f => f.ctx != ctx) })

/-- FLOW_AGE_EXPIRY: a flow unused for AGE_S seconds is freed (R161). -/
def execFlowAgeExpiry (ctx : Nat) (s : State) : Res :=
  onMain s (fun s =>
    match s.hed.flows.find? (fun f => f.ctx == ctx) with
    | none => s
    | some f => if f.last + s.hed.ageS * 1000000000 ≤ s.now then s.flowFree ctx else s)

end Sys2Proof.Machine
end

