-- ==== Sys2Proof/Machine/Shu.lean ====
section
/-!
DEFINITION. The shuttles' commands and events (chapter 7).
-/
namespace Sys2Proof.Machine

open Sys2Proof

/-- SHU_MODE_CONFLICT holds for these settings (R193). -/
def shuConflict (mode interlace order flags hint : Nat) : Bool :=
  (mode == 1 && interlace != 0) || (order == 1 && mode == 0) || (bit flags 2 && mode == 0) || (mode == 1 && (hint == 4 || hint == 5))

/-- A track of SHU_OPEN_STREAM (Table 7.3). -/
def trackOf (p : Bytes) (t : Nat) : TrackCfg :=
  let o := 80 + 16 * t
  { sel := fld p o 2, lang := fld p (o + 2) 3, output := fld p (o + 5) 1, downmix := fld p (o + 6) 1, maxch := fld p (o + 7) 1,
    rate := fld p (o + 8) 1 }

/-- The fields of a track that step 4 judges. -/
def trackFields (p : Bytes) (t : Nat) : List (Nat × Bool) :=
  let o := 80 + 16 * t
  let k := trackOf p t
  [(o + 5, decide (k.output ≤ 5)), (o + 6, decide (k.downmix ≤ 2)), (o + 7, decide (1 ≤ k.maxch) && decide (k.maxch ≤ 16)),
   (o + 8, decide (k.rate ≤ 2)), rsv p (o + 9) 7]

/-- Whether an output ring length is admitted: a multiple of 64 KiB, 16 MiB to 4 GiB. -/
def ringLenOk (n lo hi : Nat) : Bool := n % segBytes == 0 && decide (lo ≤ n) && decide (n ≤ hi)

/-- Channels reserved by all open tracks (R192). -/
def Shu.channels (u : Shu) : Nat := ((u.streams.flatMap (fun e => e.2.tracks)).map (fun k => k.maxch)).sum

/-- Streams of a function. -/
def Shu.streamsOf (u : Shu) (fn : Nat) : Nat := (u.streams.filter (fun e => e.2.owner == fn)).length

/-- Whether a function's stream quota is used up (R192, R460). -/
def State.streamsFull (s : State) (fn : Nat) : Bool := fn != 0 && decide ((agetD s.host.vfs fn {}).streams ≤ s.shu.streamsOf fn)

/-- The stream that SHU_OPEN_STREAM describes. -/
def streamOf (p : Bytes) (fn ctx : Nat) : Stream :=
  { owner := fn, srcKind := fld p 0 1, container := fld p 1 1, mode := fld p 2 1, interlace := fld p 3 1, corrupt := fld p 4 1,
    concealMax := fld p 5 1, order := fld p 6 1, flags := fld p 7 1, program := fld p 8 2, hint := fld p 11 1, nsid := fld p 16 4,
    ctrl := fld p 20 2, srcOff := fld p 24 8, srcLen := fld p 32 8, inBase := fld p 40 8, inLen := fld p 48 4, consumer := fld p 52 4,
    outBase := fld p 56 8, outLen := fld p 64 8, captions := fld p 72 2, ttx := fld p 74 2, dvbsub := fld p 76 2,
    tracks := (List.range (fld p 10 1)).map (trackOf p), codec := 0, ctx := ctx }

/-- A teletext page 0x0Mpp with M = 1 to 8, or none. -/
def ttxOk (v : Nat) : Bool := v == 0 || (decide (1 ≤ v / 256) && decide (v / 256 ≤ 8))

/-- SHU_OPEN_STREAM (R192, R193, R197; Table 7.3). -/
def opShuOpenStream : OpSpec :=
  { code := 0x0300, role := .tenant, result := true, len := fun p => 80 + 16 * fld p 10 1,
    feats := fun p => if fld p 2 1 = 1 then [2] else [],
    fields := fun _ p =>
      let k := fld p 0 1
      let c := fld p 1 1
      [(0, decide (k ≤ 2)), (1, decide (c ≤ 4)), (2, decide (fld p 2 1 ≤ 1)), (3, decide (fld p 3 1 ≤ 2)), (4, decide (fld p 4 1 ≤ 3)),
       (5, decide (fld p 5 1 ≤ 100)), (6, decide (fld p 6 1 ≤ 1)), (7, decide (fld p 7 1 < 8)), (10, decide (fld p 10 1 ≤ 16)),
       (11, if c = 4 then decide (1 ≤ fld p 11 1) && decide (fld p 11 1 ≤ 5) else fld p 11 1 == 0), rsv p 12 4,
       (16, k == 1 || fld p 16 4 == 0), rsv p 22 2,
       (32, k == 1 || fld p 32 8 == 0), (40, fld p 40 8 % segBytes == 0), (48, ringLenOk (fld p 48 4) 262144 1073741824),
       (52, decide (fld p 52 4 / 268435456 ≤ 1)), (56, fld p 56 8 % segBytes == 0), (64, ringLenOk (fld p 64 8) 16777216 4294967296),
       (72, decide (fld p 72 1 < 16)), (74, ttxOk (fld p 74 2)), rsv p 78 2] ++
      (List.range (min 16 (fld p 10 1))).flatMap (trackFields p),
    run := fun c _ p s =>
      let x := streamOf p c.fn 0
      match s.ctxTake 4, freeKey s.shu.streams 16384 0 with
      | some (k, t), some n =>
        if s.streamsFull c.fn ∨ 8192 < s.shu.channels + (x.tracks.map (fun k => k.maxch)).sum then noResource
        else
          let bad : Option Nat :=
            if x.srcKind ≠ 1 then none
            else match s.ns x.ctrl x.nsid with
              | none => some 16
              | some n =>
                if x.ctrl ≠ c.fn then some 20 else if x.srcOff % n.lbaBytes ≠ 0 then some 24
                else if n.capacity * n.lbaBytes < x.srcOff + x.srcLen then some 32 else none
          let bad2 : Option Nat :=
            if bad.isSome then bad
            else if !(s.inStaging c.fn x.inBase x.inLen) then some 40
            else if x.consumer / 268435456 = 0 ∧ 256 ≤ x.consumer then some 52
            else if x.consumer / 268435456 = 1 ∧ vectorsOf c.fn ≤ x.consumer % 268435456 then some 52
            else if !(s.inStaging c.fn x.outBase x.outLen) then some 56 else none
          match bad2 with
          | some o => badParam o
          | none =>
            if shuConflict x.mode x.interlace x.order x.flags x.hint then .refuse 0x0010 0
            else
              let y : StreamX := { openAt := s.now, found := x.container == 4 }
              let u := t.upShu (fun u =>
                { u with streams := aset u.streams n { x with ctx := k, shuttle := s.pickShuttle,
                                                              st := if s.pickShuttle.isSome then stOpening else stMoving },
                         streamx := aset u.streamx n y })
              .done sOk 0 n (u.shuPlace n)
      | _, _ => noResource }

/-- SHU_OPEN_STREAM. -/
def execShuOpenStream (h : Hdr) (p : Bytes) (s : State) : Res := runPkt opShuOpenStream h p s

/-- A command from another function that names a stream (R192). -/
def streamAuth (c : Caller) (_ : Hdr) (p : Bytes) (s : State) : Option Nat :=
  match s.stream (fld p 0 4) with
  | some x => if x.owner = c.fn then none else some 4
  | none => none

/-- A command on an open stream, or SHU_NO_STREAM (Table 7.15). -/
def State.onStream (s : State) (p : Bytes) (f : Nat → Stream → Verdict) : Verdict :=
  match s.stream (fld p 0 4) with
  | some x => f (fld p 0 4) x
  | none => .refuse 0x0011 0

/-- SHU_CLOSE_STREAM (R200). -/
def opShuCloseStream : OpSpec :=
  { code := 0x0301, role := .tenant, len := fun _ => 8, fields := fun _ p => [rsv p 4 4], auth := streamAuth,
    run := fun _ _ p s => s.onStream p (fun n _ => .ok ((s.queueLeave n).shuClose n).tapKick) }

/-- SHU_CLOSE_STREAM. -/
def execShuCloseStream (h : Hdr) (p : Bytes) (s : State) : Res := runPkt opShuCloseStream h p s

/-- SHU_FEED (R195, R213): a stream that is not fed, or takes no more, refuses it with INVALID_STATE (log entry 17). -/
def opShuFeed : OpSpec :=
  { code := 0x0302, role := .tenant, len := fun _ => 16, auth := streamAuth,
    fields := fun _ p => [(4, decide (fld p 4 2 < 4)), rsv p 6 2],
    run := fun _ _ p s => s.onStream p (fun n x =>
      let len := fld p 8 4
      if x.srcKind ≠ 2 ∨ x.st = stFailed ∨ x.st = stEnded ∨ (s.streamX n).endMark then badState
      else if x.inRoom < len then .refuse 0x0012 0
      else
        let b := s.ringTake x.inBase x.inLen x.inTail len
        if bit (fld p 4 2) 1 ∧ crc32c b ≠ fld p 12 4 then .refuse sIntegrity 0
        else
          let t := if len = 0 then s else s.shuEnter n b true
          let u := if bit (fld p 4 2) 0 then t.upStreamX n (fun y => { y with endMark := true }) else t
          .ok (u.shuFinish n).tapKick) }

/-- SHU_FEED. -/
def execShuFeed (h : Hdr) (p : Bytes) (s : State) : Res := runPkt opShuFeed h p s

/-- The stream context image (Table 7.5). -/
def streamImage (n : Nat) (x : Stream) (y : StreamX) : Bytes :=
  let tr := fun (k : TrackCfg) => leBytes 4 k.frames ++ leBytes 2 k.bad ++ [BitVec.ofNat 8 k.ch, BitVec.ofNat 8 k.codec]
  leBytes 4 n ++ [BitVec.ofNat 8 x.st, BitVec.ofNat 8 x.reason, BitVec.ofNat 8 x.codec, BitVec.ofNat 8 (x.shuttle.getD 0xFF)] ++
    leBytes 2 x.owner ++ leBytes 2 x.width ++ leBytes 2 x.height ++ leBytes 2 (x.tracks.map (fun k => k.ch)).sum ++ leBytes 8 x.nextSeq ++
    leBytes 8 x.inDone ++ leBytes 8 x.lastRap ++ leBytes 8 x.outHead ++ leBytes 8 x.outTail ++ leBytes 4 y.concealed ++
    leBytes 4 y.dropped ++ leBytes 4 y.reparsed ++ leBytes 4 (satu 4294967295 (y.inDrop / 1024)) ++ leBytes 4 y.discont ++ zeros 52 ++
    padTo 128 (x.tracks.flatMap tr)

/-- SHU_GET_STREAM (R196). -/
def opShuGetStream : OpSpec :=
  { code := 0x0303, role := .tenant, result := true, len := fun _ => 16, auth := streamAuth,
    fields := fun _ p => [rsv p 4 4, (8, fld p 8 8 % 64 == 0)],
    run := fun c _ p s => s.onStream p (fun n x =>
      .done sOk 0 (x.st + 256 * x.reason) (s.hostWrite c.fn (fld p 8 8) (streamImage n x (s.streamX n)))) }

/-- SHU_GET_STREAM. -/
def execShuGetStream (h : Hdr) (p : Bytes) (s : State) : Res := runPkt opShuGetStream h p s

/-- SHU_SET_POLICY: it takes effect at the stream's next RAP (R211). -/
def opShuSetPolicy : OpSpec :=
  { code := 0x0304, role := .tenant, len := fun _ => 8, auth := streamAuth, feats := fun p => if fld p 6 1 = 1 then [2] else [],
    fields := fun _ p =>
      [(4, decide (fld p 4 1 ≤ 3)), (5, decide (fld p 5 1 ≤ 100)), (6, decide (fld p 6 1 ≤ 1)), (7, decide (fld p 7 1 ≤ 1))],
    run := fun _ _ p s => s.onStream p (fun n x =>
      if shuConflict (fld p 6 1) x.interlace (fld p 7 1) x.flags x.hint then .refuse 0x0010 0
      else .ok (s.upStreamX n (fun y => { y with pendPolicy := some (fld p 4 1, fld p 5 1, fld p 6 1, fld p 7 1) }))) }

/-- SHU_SET_POLICY. -/
def execShuSetPolicy (h : Hdr) (p : Bytes) (s : State) : Res := runPkt opShuSetPolicy h p s

/-- Drops returned bytes from the front of the visible records (R202). -/
def dropRecs : Nat → List ShuRec → List ShuRec
  | _, [] => []
  | b, r :: t => if r.len ≤ b then dropRecs (b - r.len) t else if b = 0 then r :: t else { r with off := r.off + b, len := r.len - b } :: t

/-- Returns bytes of the output ring (R202): OUT_HEAD moves, and a stalled stream resumes. -/
def State.shuReturn (s : State) (n b : Nat) : State :=
  (s.upStream n (fun x => { x with outHead := (x.outHead + b) % x.outLen, recs := dropRecs b x.recs })).shuFinish n

/-- SHU_RETURN_OUTPUT (R202). -/
def opShuReturnOutput : OpSpec :=
  { code := 0x0305, role := .tenant, len := fun _ => 16, auth := streamAuth, fields := fun _ p => [rsv p 4 4],
    run := fun _ _ p s => s.onStream p (fun n x => if x.outUsed < fld p 8 8 then badParam 8 else .ok (s.shuReturn n (fld p 8 8)).tapKick) }

/-- SHU_RETURN_OUTPUT. -/
def execShuReturnOutput (h : Hdr) (p : Bytes) (s : State) : Res := runPkt opShuReturnOutput h p s

/-- Points of a transform size code (Table 7.17). -/
def melFft (v : Nat) : Nat := 256 * 2 ^ (v % 4)

/-- Whether a word is a mel profile within Table 7.17. -/
def melOk (v : Nat) : Bool :=
  decide (v % 4 < 3) && bits v 2 6 == 0 && decide (32 ≤ bits v 8 8) && decide (bits v 8 8 ≤ 128) && decide (64 ≤ bits v 16 12) &&
    decide (bits v 16 12 ≤ melFft v) && decide (16 ≤ bits v 28 12) && decide (bits v 28 12 ≤ bits v 16 12) && bits v 42 6 == 0 &&
    decide (10 * bits v 48 16 ≤ if bit v 41 then 24000 else 8000)

/-- The mel profile of a word (Table 7.17). -/
def melOf (v : Nat) : MelCfg :=
  { fft := v % 4, bins := bits v 8 8, win := bits v 16 12, hop := bits v 28 12, bf16 := bit v 40, rate := bits v 41 1, fmax := bits v 48 16 }

/-- Applies SHU_SET_MEL. -/
def State.applyMel (s : State) (p : Bytes) : State :=
  s.upShu (fun u => { u with mel := lmod u.mel (fld p 0 1) (fun _ => melOf (fld p 8 8)) })

/-- SHU_SET_MEL: a setting of the shuttles' intermission (R215). -/
def opShuSetMel : OpSpec :=
  { code := 0x0306, len := fun _ => 16, fields := fun _ p => [(0, decide (fld p 0 1 ≤ 3)), rsv p 1 7, (8, melOk (fld p 8 8))],
    run := fun c h p s =>
      match s.settingStop c 0x2FFF0000 true with
      | some v => v
      | none => s.setting 0x0306 c { h with unit := 0x2FFF0000 } p (fun y => fld y.params 0 1 == fld p 0 1) 0 (fun t => t.applyMel p) }

/-- SHU_SET_MEL. -/
def execShuSetMel (h : Hdr) (p : Bytes) (s : State) : Res := runPkt opShuSetMel h p s

/-! ## Events -/

/-- An event of a stream; records that it makes visible may start runs of a Tapestry queue (R255). -/
def shuEvent (s : State) (f : State → State) : Res := onMain s (fun s => (f s).tapKick)

/-- Whether a namespace stream can take bytes that its reader brings: read ahead by at most IN_LEN bytes (R195). -/
def State.readRoom (s : State) (n : Nat) (x : Stream) (b : Nat) : Bool :=
  match (s.streamX n).want with
  | some k => b == min segBytes (x.inTail - k * segBytes)
  | none => decide (0 < b) && decide (b ≤ x.inRoom) && decide (x.inTail + b ≤ x.srcLen)

/-- STREAM_INPUT_READ: a namespace read, which goes through the storage front end as a host's would (R124), brings bytes, or a segment
again; one that ended non-retryably fails the stream (R195, R212, Table 7.6). -/
def execStreamInputRead (stream : Nat) (data : Bytes) (ok : Bool) (s : State) : Res :=
  shuEvent s (fun s =>
    match s.stream stream with
    | none => s
    | some x =>
      if x.srcKind ≠ 1 ∨ x.st = stFailed ∨ x.st = stEnded ∨ s.partHeld .staging ∨ !(s.readRoom stream x data.length) then s
      else if !ok then (s.intDrop (.stream stream)).shuFail stream 6
      else
        let at_ := match (s.streamX stream).want with
          | some k => k * segBytes
          | none => x.inTail
        match s.intRow (.stream stream) x.ctrl x.nsid (x.srcOff + at_) data.length data with
        | (t, none) => t
        | (t, some (.error _)) => t.shuFail stream 6
        | (t, some (.ok b)) =>
          (match (s.streamX stream).want with
          | some k =>
            ((t.ringPut x.inBase x.inLen (k * segBytes) b).upStreamX stream (fun y =>
              { y with want := none, crcs := aset y.crcs k (crc32c b) })).shuFinish stream
          | none => (t.shuEnter stream b false).shuFinish stream))

/-- A RAP begins: earlier pictures leave, pending policy takes effect, and the shuttle is chosen again (R197, R210, R211). -/
def State.shuRap (s : State) (n : Nat) (q : Picture) : State :=
  let t := s.shuFlush n
  let y := t.streamX n
  let u := match y.pendPolicy with
    | some p => t.upStream n (fun x => { x with corrupt := p.1, concealMax := p.2.1, mode := p.2.2.1, order := p.2.2.2 })
    | none => t
  let k := match s.stream n with
    | some x => s.segShuttle x y q
    | none => none
  ((u.upStream n (fun x => { x with lastRap := q.srcOff, shuttle := k,
                                    raps := x.raps.filter (fun r => decide (r.1 < q.srcOff)) ++ [(q.srcOff, y.decSeq, y.decodeNum)] })).upStreamX n
    (fun y => { y with pendPolicy := none, toRap := false, badPics := [], shown := [], store := if q.closedRap then [] else y.store, team := (k.toList ++ y.team).take 7 })).shuPlace n

/-- What the damage policy does to a picture: none = the stream fails; otherwise whether a gap record replaces it and
whether the following ones are dropped to the next RAP (Table 7.12). -/
def shuPolicy (x : Stream) (toRap : Bool) (q : Picture) : Option (Bool × Bool) :=
  if toRap then some (true, true)
  else if q.lost || !q.bad.isEmpty then
    match x.corrupt with
    | 0 => some (q.lost || decide (x.concealMax * (q.cells.1 * q.cells.2) < 100 * q.bad.length), false)
    | 1 => some (true, false)
    | 2 => some (true, true)
    | _ => none
  else some (false, false)

/-- Counts the work of a decoded picture (R505, R506, R509). -/
def State.shuWork (s : State) (x : Stream) (q : Picture) : State :=
  let luma := q.codedW * q.codedH
  let t := ((s.ao 3 q.cycles).ao 4 luma).fnCtr x.owner 7 luma
  let u := t.withObs (fun u => u.gctr 0x0040 x.unit 1)
  match x.shuttle with
  | some k => u.upShu (fun v => { v with units := amod v.units k {} (fun w =>
      { w with busy := (w.busy ++ [(s.now, q.cycles)]).filter (fun e => decide (s.now < e.1 + 1000000)) }) })
  | none => u

/-- A picture of a stream whose input holds it is taken in (R189 to R211). -/
def State.shuPicture (s : State) (n : Nat) (q0 : Picture) : State :=
  let s := (s.upStream n (fun x => { x with codec := q0.codec, width := q0.codedW, height := q0.codedH })).upStreamX n (fun y =>
    { y with found := true, head := [], discont := (y.discont + q0.discont) % 2 ^ 32, discontNext := y.discontNext || decide (0 < q0.discont) })
  let s := if q0.rap then s.shuRap n q0 else s
  match s.stream n with
  | none => s
  | some x =>
    let y := s.streamX n
    let q := y.damage q0
    let eat := fun (t : State) =>
      (t.gRead (q.srcEnd - x.inDone)).upStream n (fun x => { x with inDone := max x.inDone q.srcEnd })
    if !q.supported then s.shuFail n 1
    else if x.mode = 1 ∧ 4 ≤ q.codec then s.shuFail n 2
    else if x.raps.isEmpty then (eat s).shuFinish n
    else
      match shuPolicy x y.toRap q with
      | none => s.shuFail n 4
      | some (gap, toRap) =>
        let tainted := q.refs.any (fun r => y.badPics.contains r)
        let concealed := !gap && !q.bad.isEmpty
        let q := if concealed ∧ x.mode = 0 then concealPic y.store q else q
        let p : ShuPic := { pic := q, flags := b2n concealed + 2 * b2n tainted, gap := gap, num := y.decodeNum, cue := y.cueAt q.srcOff }
        let t := (eat (if q.lost then s else s.shuWork x q)).upStreamX n (fun y =>
          { y with decodeNum := (y.decodeNum + 1) % 2 ^ 32, toRap := toRap, dpb := y.dpb ++ [p],
                   store := if q.isRef && !gap && x.mode == 0 then (p :: y.store).take 16 else y.store,
                   badPics := if gap || concealed || tainted then y.badPics ++ [y.decodeNum] else y.badPics })
        (State.shuTurn q.turn t n).shuFinish n

/-- PICTURE_DECODED: the segments read are checked, and the picture leaves as its records (R188 to R212). A stream that
is moving is bound to another shuttle first (R199). -/
def execPictureDecoded (stream : Nat) (pic : Picture) (s : State) : Res :=
  shuEvent s (fun s =>
    let s := s.shuRebind stream
    match s.stream stream with
    | none => s
    | some x =>
      if !(s.shuRuns stream) ∨ x.inTail < pic.srcEnd ∨ bit x.flags 1 ∨ (s.streamX stream).outOfTurn x.order pic then s
      else match (if pic.lost then none else s.badSegment stream x pic.srcEnd) with
        | some k => s.segFailed stream k x
        | none => s.shuPicture stream pic)

/-- Bytes of a sample of an audio record: int16, FP32, or the mel format of a profile (R208). -/
def State.audioFormat (s : State) (k : TrackCfg) : Nat × Nat :=
  if k.output = 0 then (0, 2) else if k.output = 1 then (1, 4)
  else if (s.shu.mel.getD (k.output - 2) {}).bf16 then (3, 2) else (2, 4)

/-- RATE of an audio record in Hz. -/
def State.audioRate (s : State) (k : TrackCfg) (rate : Nat) : Nat :=
  if k.output < 2 then (if k.rate = 0 then rate else if k.rate = 1 then 16000 else 48000)
  else if (s.shu.mel.getD (k.output - 2) {}).rate = 1 then 48000 else 16000

/-- Silence of a plane's length in a format of R208: zeros in PCM, and in log-mel the natural logarithm of 10^-10, -23.0258…, in every
bin (Table 7.12, log entry 75). -/
def silence (format n : Nat) : Bytes :=
  match format with
  | 2 => ((List.replicate (n / 4) (leBytes 4 0xC1B834F1)).flatten)
  | 3 => ((List.replicate (n / 2) (leBytes 2 0xC1B8)).flatten)
  | _ => zeros n

/-- The record of an audio frame (R208, Table 7.12). -/
def State.audioRec (s : State) (x : Stream) (y : StreamX) (k : TrackCfg) (a : AudioFrame) (planes : List Bytes) : ShuPend :=
  let f := s.audioFormat k
  let mel := s.shu.mel.getD (k.output - 2) {}
  let hdr := [BitVec.ofNat 8 a.codec, BitVec.ofNat 8 f.1, BitVec.ofNat 8 planes.length,
      BitVec.ofNat 8 (if k.output < 2 then 0 else k.output - 2)] ++ leBytes 4 (s.audioRate k a.rate) ++ leBytes 4 a.count ++
    leBytes 2 (if k.output < 2 then 0 else mel.bins) ++ leBytes 3 k.lang
  { kind := 3, flags := b2n a.bad, track := 1 + a.track, pts := a.pts, src := a.srcOff, cue := y.cueAt a.srcOff, hdr := hdr,
    body := (planes.map (fun b => if a.bad then silence f.1 b.length else b)).flatten }

/-- The records of a decoded audio frame: one, or for log-mel one for each 100 mel frames, each with the time of its first sample
(R208). -/
def State.audioRecs (s : State) (x : Stream) (y : StreamX) (k : TrackCfg) (a : AudioFrame) (planes : List Bytes) : List ShuPend :=
  if k.output < 2 ∨ a.count ≤ 100 then [s.audioRec x y k a planes]
  else
    let mel := s.shu.mel.getD (k.output - 2) {}
    let size := mel.bins * (s.audioFormat k).2
    (List.range ((a.count + 99) / 100)).map (fun i =>
      s.audioRec x y k { a with count := min 100 (a.count - 100 * i), pts := (a.pts + 90000 * (100 * i * mel.hop) / s.audioRate k a.rate) % 2 ^ 33 }
        (planes.map (fun b => sub b (100 * i * size) (min 100 (a.count - 100 * i) * size))))

/-- A track that waits for a unit with room, or whose unit has been fenced, is placed again (R208, R348). -/
def State.trackKick (s : State) (n i : Nat) : State :=
  match (s.stream n).bind (fun x => x.tracks[i]?) with
  | some k => if 64 ≤ k.unit ∨ s.unitFenced (64 + k.unit) then s.placeTrack n i else s
  | none => s

/-- AUDIO_FRAME_DECODED (R208, R209): the unit that serves the track decodes it; damaged input makes the frame a bad one. -/
def execAudioFrameDecoded (stream : Nat) (aud : AudioFrame) (s : State) : Res :=
  shuEvent s (fun s =>
    let s := (s.shuRebind stream).trackKick stream aud.track
    match s.stream stream with
    | none => s
    | some x =>
      match x.tracks[aud.track]? with
      | none => s
      | some k =>
        if !(s.shuRuns stream) ∨ x.inTail < aud.srcEnd ∨ (64 ≤ k.unit ∨ s.unitFenced (64 + k.unit)) then s
        else match s.badSegment stream x aud.srcEnd with
          | some g => s.segFailed stream g x
          | none =>
            let planes := aud.planes.take k.maxch
            let bad := aud.bad || decide (0 < aud.discont) || (s.streamX stream).hurt aud.srcOff aud.srcEnd
            let samples := if k.output < 2 then aud.count * planes.length else 0
            let t := ((((s.upStreamX stream (fun y =>
                { y with found := true, head := [], discont := (y.discont + aud.discont) % 2 ^ 32,
                         discontNext := y.discontNext || decide (0 < aud.discont) })).upStream stream (fun x =>
                { x with inDone := max x.inDone aud.srcEnd,
                         tracks := lmod x.tracks aud.track (fun k =>
                           { k with frames := (k.frames + 1) % 2 ^ 32, bad := if bad then satu 65535 (k.bad + 1) else k.bad,
                                    ch := planes.length, codec := aud.codec, dropCh := k.dropCh + (aud.planes.length - planes.length) }) })).ao 3
                aud.cycles).ao 5 samples).fnCtr x.owner 8 samples
            let y := t.streamX stream
            let l := if bad && x.corrupt != 0 then [gapRec (1 + aud.track) aud.pts aud.srcOff (y.cueAt aud.srcOff) 0 0]
              else t.audioRecs x y k { aud with bad := bad } planes
            (l.foldl (fun t r => t.shuPush stream r) t).shuFinish stream)

/-- Whether a stream selects a caption service (Table 7.3). -/
def Stream.selects (x : Stream) (c : Caption) : Bool :=
  match c.service with
  | 1 => decide (1 ≤ c.channel) && decide (c.channel ≤ 4) && bit x.captions (c.channel - 1)
  | 2 => decide (1 ≤ c.channel) && decide (c.channel ≤ 8) && bit x.captions (8 + (c.channel - 1))
  | 3 => x.ttx != 0 && x.ttx == c.page
  | _ => x.dvbsub != 0

/-- The text of a caption: a CEA-608 character with a parity error is omitted (R208). -/
def captionText (c : Caption) : Bytes := if c.service = 1 then (c.chars.filter (fun e => e.2)).flatMap (fun e => e.1) else c.text

/-- The record of a caption text or of a subtitle image (R208). -/
def captionRec (y : StreamX) (c : Caption) : ShuPend :=
  let cue := y.cueAt c.srcOff
  if c.service = 4 then
    { kind := 5, track := 17, pts := c.pts, src := c.srcOff, cue := cue,
      hdr := leBytes 2 c.x ++ leBytes 2 c.y ++ leBytes 2 c.w ++ leBytes 2 c.h ++ leBytes 8 c.endPts, body := padTo (4 * c.w * c.h) c.image }
  else
    { kind := 4, track := 17, pts := c.pts, src := c.srcOff, cue := cue,
      hdr := [BitVec.ofNat 8 c.service, BitVec.ofNat 8 c.channel] ++ leBytes 2 c.page ++ leBytes 8 c.endPts ++ leBytes 4 (captionText c).length,
      body := (captionText c) }

/-- CAPTION_CHANGE (R208). -/
def execCaptionChange (stream : Nat) (cap : Caption) (s : State) : Res :=
  shuEvent s (fun s =>
    let s := s.shuRebind stream
    match s.stream stream with
    | none => s
    | some x =>
      if !(s.shuRuns stream) ∨ x.inTail < cap.srcEnd ∨ !(x.selects cap) then s
      else match s.badSegment stream x cap.srcEnd with
        | some g => s.segFailed stream g x
        | none =>
          let t := (s.upStream stream (fun x => { x with inDone := max x.inDone cap.srcEnd })).upStreamX stream (fun y => { y with found := true })
          (t.shuPush stream (captionRec (t.streamX stream) cap)).shuFinish stream)

/-- SLICE_REPARSE_DONE: a slice that failed on one shuttle was parsed again on another; a success charges the first
(R209). -/
def execSliceReparseDone (stream first : Nat) (ok : Bool) (s : State) : Res :=
  shuEvent s (fun s =>
    match s.stream stream with
    | none => s
    | some x =>
      if !(s.shuRuns stream) ∨ !(s.shuttlesUp.any (fun k => k != first)) ∨ s.unitFenced (64 + first) ∨
          !(x.shuttle == some first || (s.streamX stream).team.contains first) then s
      else
        let t := (s.upStreamX stream (fun y => { y with reparsed := (y.reparsed + 1) % 2 ^ 32 })).upShu (fun u =>
          { u with reparse := satu 65535 (u.reparse + 1) })
        if ok then
          (t.upShu (fun u => { u with attrib := satu 65535 (u.attrib + 1) })).charge (unitId 2 first) .reparse stream stream 0
        else t)

/-- CONTAINER_TIMEOUT: 1 s of live input without a PMT, header or moov box (R194). -/
def execContainerTimeout (stream : Nat) (s : State) : Res :=
  shuEvent s (fun s =>
    match s.stream stream with
    | none => s
    | some x =>
      let y := s.streamX stream
      if x.srcKind = 0 ∧ !y.found ∧ x.st ≠ stFailed ∧ y.firstIn.any (fun t => decide (t + 1000000000 ≤ s.now)) then
        s.shuFail stream 3
      else s)

end Sys2Proof.Machine
end

