-- ==== Sys2Proof/Machine/Tap.lean ====
section
/-!
DEFINITION. The Tapestry's commands and events (R246 to R274).
-/
namespace Sys2Proof.Machine

open Sys2Proof

/-- A command of another function's program or queue fails with DETAIL 4 (R272). -/
def ownerAuth (owner : State → Option Nat) (c : Caller) (s : State) : Option Nat :=
  match owner s with
  | some o => if o = c.fn then none else some 4
  | none => none

/-- Owner of the program that a handle names. -/
def progOwner (h : Nat) (s : State) : Option Nat := (aget s.tap.progs h).map (fun p => p.owner)

/-- Owner of a bound queue. -/
def queueOwner (q : Nat) (s : State) : Option Nat := (aget s.tap.queues q).map (fun p => p.owner)

/-- The program that an accepted image becomes: resident tensors are copied, codeword norms computed (R248, R250). -/
def State.loadProg (s : State) (fn : Nat) (p : Bytes) : Prog :=
  let b := p.take (fld p 8 4)
  let base := (s.stagingRange fn).1
  let res := (imgClass b 2).map (fun i => let t := imgTensor b i; (i, s.mem (base + t.addr) (t.rows * t.rowBytes)))
  let norms := (List.range (imgOps b)).filterMap (fun i =>
    let o := imgOp b i
    let w := imgTensor b o.in1
    if o.kind = 9 ∧ (w.cls = 2 ∨ w.cls = 3) then
      let f := pairFmt (imgTensor b o.in0).fmt w.fmt
      some (i, (List.range w.rows).map (fun r =>
        codeNorm (f.1 == 6) (padVals (convertRow w.fmt f.2 o.shift (rowVals w.fmt w.n (s.mem (base + w.addr + r * w.rowBytes) w.rowBytes))).1)))
    else none)
  { owner := fn, image := b, res := res, norms := norms }

/-- TAP_LOAD_PROGRAM (R246 to R250). -/
def opTapLoad : OpSpec :=
  { code := 0x0200, role := .tenant, result := true, needPtr := true, fields := fun _ p => imgReserved p,
    run := fun c _ p s =>
      match s.loadStop c.fn p with
      | some e => .refuse e.1 e.2
      | none =>
        match freeKey s.tap.progs 256 0 with
        | none => noResource
        | some k => .done sOk 0 k (s.upTap (fun t => { t with progs := aset t.progs k (s.loadProg c.fn p) })) }

/-- TAP_LOAD_PROGRAM; without a pointer it fails at FLAGS, at step 4 (R246). -/
def execTapLoadProgram (h : Hdr) (p : Bytes) (s : State) : Res := runPkt opTapLoad h p s

/-- TAP_UNLOAD_PROGRAM. -/
def opTapUnload : OpSpec :=
  { code := 0x0201, role := .tenant, len := fun _ => 8, fields := fun _ p => [rsv p 2 6],
    auth := fun c _ p s => ownerAuth (progOwner (fld p 0 2)) c s,
    run := fun _ _ p s =>
      let k := fld p 0 2
      if !ahas s.tap.progs k then .refuse 0x0012 0
      else if s.tap.queues.any (fun e => e.2.prog == some k) || s.tap.runs.any (fun r => r.prog == k) then .refuse 0x0013 0
      else .ok (s.upTap (fun t => { t with progs := adel t.progs k })) }

/-- TAP_UNLOAD_PROGRAM. -/
def execTapUnloadProgram (h : Hdr) (p : Bytes) (s : State) : Res := runPkt opTapUnload h p s

/-- The bindings of TAP_RUN (Table 9.7). -/
def runBinds (p : Bytes) : List (Nat × Nat) := (List.range (fld p 3 1)).map (fun b => (fld p (32 + 16 * b) 2, fld p (40 + 16 * b) 8))

/-- Offset of the first parameter of TAP_RUN that its program or the staging range refuses (R253). -/
def State.runBad (s : State) (fn : Nat) (p : Bytes) : Option Nat :=
  let b := (s.tapProg (fld p 0 2)).image
  let l := runBinds p
  let need := imgClass b 0 ++ imgClass b 1
  let bytes := fun (i : Nat) => let t := imgTensor b i; if t.cls = 1 then blockLen t else t.rows * t.rowBytes
  if l.length ≠ need.length then some 3
  else if !(s.inStaging fn (fld p 8 8) (fld b 16 8)) then some 8
  else match (List.range l.length).find? (fun i =>
      let e := l.getD i (0, 0)
      !(need.contains e.1) || ((l.take i).any (fun x => x.1 == e.1)) || !(s.inStaging fn e.2 (bytes e.1))) with
    | some i =>
      let e := l.getD i (0, 0)
      some (if !(need.contains e.1) || ((l.take i).any (fun x => x.1 == e.1)) then 32 + 16 * i else 40 + 16 * i)
    | none => none

/-- TAP_RUN (R251 to R254). -/
def opTapRun : OpSpec :=
  { code := 0x0202, role := .tenant, ownSnap := true, dataScope := some uTapestry, len := fun p => 32 + 16 * fld p 3 1,
    fields := fun _ p =>
      [(2, decide (fld p 2 1 ≤ 3)), rsv p 4 4, (8, fld p 8 8 % 4096 == 0), (16, fld p 16 8 % 64 == 0), rsv p 24 8] ++
        (List.range (fld p 3 1)).flatMap (fun b => [rsv p (34 + 16 * b) 6, (40 + 16 * b, fld p (40 + 16 * b) 8 % 64 == 0)]),
    auth := fun c _ p s => ownerAuth (progOwner (fld p 0 2)) c s,
    run := fun c h p s =>
      let k := fld p 0 2
      if !ahas s.tap.progs k then .refuse 0x0012 0
      else match s.runBad c.fn p with
        | some o => badParam o
        | none =>
          let id := s.tap.nextRun
          let r : TapRun := { id := id, prog := k, prio := fld p 2 1, fn := c.fn, binds := (runBinds p).foldl (fun m e => aset m e.1 e.2) [],
                              scratch := fld p 8 8, report := fld p 16 8, snap := h.snapshot }
          .wait wRun id (s.upTap (fun t => { t with runs := t.runs ++ [r], nextRun := id + 1 })) }

/-- TAP_RUN: the run is queued, and the Tapestry takes it when it is its turn. -/
def execTapRun (h : Hdr) (p : Bytes) (s : State) : Res :=
  match runPkt opTapRun h p s with
  | .next t => .next t.tapKick
  | o => o

/-- Records of the streams of a function that name a queue and wait unreturned, in the order of their arrival (R255). -/
def State.queuedRecs (s : State) (fn q : Nat) : List (Nat × Nat × Nat) :=
  (s.shu.streams.flatMap (fun e =>
    if e.2.owner = fn ∧ e.2.consumer = q then (e.2.recs.filter (fun r => !r.pad && !r.done)).map (fun r => (e.1, r.seq, r.made)) else [])).mergeSort
      (fun a b => decide (a.2.2 ≤ b.2.2))

/-- The function of the job that a warp number belongs to. -/
def warpOwner (num : Nat) (s : State) : Option Nat :=
  (s.loom.warpOf num).bind (fun e => (aget s.loom.jobs e.1).map (fun j => j.owner))

/-- Whether a warp number names a STREAMED warp (R277). -/
def Loom.streamedWarp (l : Loom) (num : Nat) : Bool := l.jobs.any (fun e => e.2.warps.any (fun w => w.num == num && w.kind == 1))

/-- TAP_BIND_QUEUE (R255). -/
def opTapBind : OpSpec :=
  { code := 0x0203, role := .tenant, len := fun _ => 64,
    fields := fun _ p =>
      [(0, decide (fld p 0 2 < 256)), (4, decide (fld p 4 1 ≤ 3)), (5, decide (1 ≤ fld p 5 1) && decide (fld p 5 1 ≤ 16)), rsv p 6 2,
       (8, decide (1 ≤ fld p 8 4) && decide (fld p 8 4 ≤ 65536)), (16, decide (fld p 16 1 ≤ 1)), rsv p 17 3,
       (20, fld p 16 1 == 1 || fld p 20 4 == 0), (24, fld p 16 1 == 1 || fld p 24 8 % 65536 == 0), (32, fld p 16 1 == 1 || fld p 32 8 % 65536 == 0),
       (48, fld p 48 8 % 64 == 0), rsv p 56 8],
    auth := fun c _ p s =>
      match ownerAuth (progOwner (fld p 2 2)) c s with
      | some d => some d
      | none =>
        match ownerAuth (queueOwner (fld p 0 2)) c s with
        | some d => some d
        | none => if fld p 16 1 = 1 then ownerAuth (warpOwner (fld p 20 4)) c s else none,
    run := fun c _ p s =>
      let q := fld p 0 2
      let k := fld p 2 2
      let b := (s.tapProg k).image
      let vs := (queueViews b).map (fun t => t.view)
      if !ahas s.tap.progs k then .refuse 0x0012 0
      else if ahas s.tap.queues q then .refuse 0x0015 0
      else if vs.contains 0 || vs.eraseDups.length != vs.length || !(vs.all (fun v => viewKind v == queueKind b)) || (imgClass b 1).length != 1 then badParam 2
      else if fld p 16 1 = 0 ∧ !(s.inStaging c.fn (fld p 24 8) (fld p 32 8)) then badParam 24
      else if fld p 16 1 = 1 ∧ !(s.loom.streamedWarp (fld p 20 4)) then badParam 20
      else if !(s.inStaging c.fn (fld p 40 8) (2 * fld b 16 8)) then badParam 40
      else
        let x : TapQueue := { owner := c.fn, prog := some k, prio := fld p 4 1, group := fld p 5 1, runUnits := fld p 8 4, waitUs := fld p 12 4,
                              destKind := fld p 16 1, destIndex := fld p 20 4, ringBase := fld p 24 8, ringLen := fld p 32 8,
                              scratch := fld p 40 8, report := fld p 48 8, waiting := s.queuedRecs c.fn q }
        .ok (s.upTap (fun t => { t with queues := aset t.queues q x })).tapKick }

/-- TAP_BIND_QUEUE. -/
def execTapBindQueue (h : Hdr) (p : Bytes) (s : State) : Res := runPkt opTapBind h p s

/-- The fields of a command that names a queue alone. -/
def queueFields (p : Bytes) : List (Nat × Bool) := [(0, decide (fld p 0 2 < 256)), rsv p 2 6]

/-- TAP_UNBIND_QUEUE (R258): runs that have not begun do not start, and their records stay in their streams. A queue that is not bound is
refused with INVALID_STATE (log entry 76). -/
def opTapUnbind : OpSpec :=
  { code := 0x0204, role := .tenant, len := fun _ => 8, fields := fun _ p => queueFields p,
    auth := fun c _ p s => ownerAuth (queueOwner (fld p 0 2)) c s,
    run := fun _ _ p s =>
      let q := fld p 0 2
      let t := s.upTap (fun t => { t with runs := t.runs.filter (fun r => r.queue != some q || r.begun) })
      if !ahas s.tap.queues q then badState
      else if t.queueRuns q = 0 then .ok (t.upTap (fun t => { t with queues := adel t.queues q }))
      else .wait wUnbind q (t.upTapQueue q (fun x => { x with unbinding := true })) }

/-- TAP_UNBIND_QUEUE. -/
def execTapUnbindQueue (h : Hdr) (p : Bytes) (s : State) : Res := runPkt opTapUnbind h p s

/-- TAP_GET_QUEUE (Table 9.14). -/
def opTapGetQueue : OpSpec :=
  { code := 0x0205, role := .tenant, result := true, len := fun _ => 8, fields := fun _ p => queueFields p,
    auth := fun c _ p s => ownerAuth (queueOwner (fld p 0 2)) c s,
    run := fun c _ p s =>
      let q := fld p 0 2
      let waiting := if ahas s.tap.queues q then (s.tapQueue q).waiting.length else (s.queuedRecs c.fn q).length
      .done sOk 0 (min 65535 waiting + 65536 * (s.tapQueue q).dropped) (s.upTapQueue q (fun x => { x with dropped := 0 })) }

/-- TAP_GET_QUEUE. -/
def execTapGetQueue (h : Hdr) (p : Bytes) (s : State) : Res := runPkt opTapGetQueue h p s

/-- Applies TAP_SET_POLICY. -/
def State.applyTapPolicy (s : State) (p : Bytes) : State := s.upTap (fun t => { t with powerW := fld p 0 2 })

/-- TAP_SET_POLICY: a setting of the Tapestry's intermission (R272). -/
def opTapSetPolicy : OpSpec :=
  { code := 0x0206, len := fun _ => 8, fields := fun _ p => [(0, decide (100 ≤ fld p 0 2) && decide (fld p 0 2 ≤ 260)), rsv p 2 6],
    run := fun c h p s =>
      match s.settingStop c uTapestry true with
      | some v => v
      | none => s.setting 0x0206 c { h with unit := uTapestry } p (fun _ => true) 0 (fun t => t.applyTapPolicy p) }

/-- TAP_SET_POLICY. -/
def execTapSetPolicy (h : Hdr) (p : Bytes) (s : State) : Res := runPkt opTapSetPolicy h p s

/-! ## Events -/

/-- Device time from which a queue's oldest whole unit has waited (Table 9.8). -/
def Sifted.since (f : Sifted) : Option Nat :=
  match f.units with
  | (w :: _) :: _ => some w.2.2
  | _ => none

/-- QUEUE_WAIT_EXPIRY: WAIT_US has passed and a partial run starts over the whole units that wait (R255). -/
def execQueueWaitExpiry (queue : Nat) (s : State) : Res :=
  onMain s (fun s =>
    let s := s.queueSift queue
    let x := s.tapQueue queue
    let f := s.sift x
    match f.since with
    | some t =>
      if x.waitUs ≠ 0 ∧ t + 1000 * x.waitUs ≤ s.now ∧ !x.unbinding ∧ s.queueRuns queue < 2 then
        (s.queueRun queue (min x.runUnits f.units.length)).tapKick
      else s
    | none => s)

/-- SLICE_COMPLETE: a core finishes its slice in `cycles`; `upsets` are the results that a fault changed (R238, R262). -/
def execSliceComplete (core cycles : Nat) (upsets : Upsets) (s : State) : Res := onMain s (fun s => s.tapSlice core cycles upsets)

/-- Cycles at which the slice that a core runs has overrun. -/
def State.overrunAt (s : State) : Nat := 2 * ((s.tapEval.map (fun v => v.op.cost)).getD 0)

/-- SLICE_OVERRUN: a slice still running after twice TILE_COST cycles is abandoned and charged (R261). -/
def execSliceOverrun (core : Nat) (s : State) : Res :=
  onMainIf s (ahas s.tap.running core && decide (s.overrunAt ≤ s.tapCycles core)) (fun s =>
    let op := (s.tapEval.map (fun v => v.run.op)).getD 0
    let cycles := s.tapCycles core
    let a := s.tapAbandon core cycles
    let t := (a.2.flag 2 tapEvtOff 3 (fun t => t.upTap (fun p => { p with evOver := true }))).charge (unitId 1 core) .overrun op cycles 0
    ((t.tapLeaves core).repartition a.1 false).tapFill.tapKick)

end Sys2Proof.Machine
end

