-- ==== Sys2Proof/Machine/RasOps.lean ====
section
/-!
DEFINITION. The suspect ladder and fences (R343 to R351), partition resets (R352 to R355) and in-field tests (R356 to R359) as other
blocks use them.
-/
namespace Sys2Proof.Machine

open Sys2Proof

/-- Offset of RAS_HEALTH. -/
def rasHealthOff : Nat := 0x02800000

/-- Sets an event flag of RAS_HEALTH. -/
def State.rasFlag (s : State) (b : Nat) (f : Ras → Ras) : State := s.flag 9 rasHealthOff b (fun t => t.upRas f)

/-- Whether unit `n` of Table 12.16 is there: channels of the 48 GiB part end at its count (R5). -/
def State.unitThere (s : State) (n : Nat) : Bool := decide (n < 160 + s.glb.part.channels)

/-! ## Partition resets (R352 to R354) -/

/-- Whether a registered region reaches into a partition. -/
def State.regionsIn (s : State) (p : Partn) : Bool :=
  s.net.regions.any (fun e => e.2.owner == .host && decide (e.2.base < s.partBase p + s.partLen p) && decide (s.partBase p < e.2.base + e.2.len))

/-- Whether a function has work in a partition at the start of its reset (R361). -/
def State.hasWork (s : State) (p : Partn) (fn : Nat) : Bool :=
  match p with
  | .wbuf => s.sto.wbuf.any (fun w => w.ctrl == fn) || (s.ctrl fn).ops.any (fun o => o.kind == .held)
  | .staging =>
    s.shu.streams.any (fun e => e.2.owner == fn) || s.tap.runs.any (fun r => r.fn == fn) ||
      s.tap.queues.any (fun e => e.2.owner == fn && e.2.prog.isSome) ||
      s.cmd.waiting.any (fun w => w.kind == wCrypt && w.hdr.chan.fn == fn) || (fn == 0 && s.regionsIn p)
  | .shuffle => s.loom.jobs.any (fun e => e.2.owner == fn) || (fn == 0 && s.regionsIn p)
  | .ckp => fn == 0 && !s.ckp.jobs.isEmpty
  | .trace => fn == 0 && s.obs.st != 0 && !s.obs.recs.isEmpty
  | _ => false

/-- The spilled trace records are discarded and counted (R514): those that the on-die buffer of 524,288 does not hold, the oldest. -/
def State.traceUnspill (s : State) : State :=
  let n := s.obs.recs.length - 524288
  (s.upObs (fun o => { o with recs := o.recs.drop n, dropped := satu 4294967295 (o.dropped + n) })).ao 31 n

/-- What the owners of a partition lose when its contents are discarded (Table 12.7). -/
def State.partLost (s : State) (p : Partn) : State :=
  match p with
  | .wbuf => s.upSto (fun x => { x with wbuf := x.wbuf.filter (fun w => w.dirty) })
  | .staging => s.tapStagingReset.shuResetAll
  | .shuffle => s.loomReset.feedReset
  | .ckp => s.ckpStagingReset
  | .trace => s.traceUnspill
  | _ => s

/-- Starts a reset of a partition, or joins the one in progress (R352, R354). The context store and the device reserve are not reset:
their owners handle each object. -/
def State.partReset (s : State) (p : Partn) (line : Option (Nat × Nat)) : State :=
  let l := line.toList
  if p = .ctx ∨ p = .reserve then s
  else if s.partResetting p then
    (s.upRas (fun r => { r with resets := lupd r.resets (fun x => x.part == p.num) (fun x => { x with since := s.now, lines := x.lines ++ l }) })).gClear
      (s.partBase p) (s.partLen p)
  else
    let fns := s.functions.filter (s.hasWork p)
    let t := ((s.rasFlag 2 (fun r => { r with evReset := true })).ao 23 1).upRas (fun r =>
      { r with resets := r.resets ++ [{ part := p.num, since := s.now, lines := l }] })
    ((t.record uDevice 0x0003 0 p.num 0 (.every fns)).gClear (s.partBase p) (s.partLen p)).partLost p

/-- What goes on once a partition's logical clear has ended (Table 12.7). -/
def State.partBack (s : State) (p : Partn) : State :=
  match p with
  | .wbuf => s.stoRefresh.stoSettle
  | .staging => s.tapFill.tapKick
  | .shuffle => s.loom.jobs.foldl (fun t e => t.weaveJob e.1) s
  | _ => s

/-! ## Objects with an uncorrectable line (R127, R355) -/

/-- Handles an object with an uncorrectable line; `both`: its other copy is uncorrectable too. Intermissions and contexts have operations of
their own. -/
def State.lineLost (s : State) (o : BurstObj) (both : Bool) : State :=
  match o with
  | .none => s
  | .prog h => s.upTap (fun t => { t with progs := adel t.progs h })
  | .image => if both then s.upStg (fun x => { x with imgLost := x.image.isSome }) else s
  | .tag ctrl nsid back rblk =>
    match s.tagBlk ctrl nsid back rblk with
    | none => s
    | some t =>
      if (t.dirty || t.out) && !both then s
      else
        let mine := s.sto.remotes.filter (fun r => r.kind == .drain && r.units != 0 && r.ctrl == ctrl && r.nsid == nsid && r.back == back &&
          r.tags.contains rblk)
        let u : State := match s.ns ctrl nsid with
          | some n => mine.foldl (fun (u : State) r => u.sealStop n r) s
          | none => s
        u.upCip (fun c => { c with tags := c.tags.filter (fun b => !b.is ctrl nsid back rblk) })
  | .journal qp tag =>
    if !both then s
    else
      let mine := fun (h : Hdr) => h.onQp qp && h.hostTag == tag
      let fs := s.cmd.fetched.filter (fun f => mine f.hdr)
      let t := s.upCmd (fun c => { c with fetched := c.fetched.filter (fun f => !fs.contains f) })
      let u := fs.foldl (fun t f => t.reply f.hdr f.opcode { status := sAborted, st := t.judge f.opcode f.hdr.unit, sqHead := f.sqHead, replayed := f.replayed }) t
      u.finishAll (fun w => mine w.hdr) sAborted 0 0
  | .inter _ => s
  | .ctx _ => s
  | .block seq =>
    if !both then s
    else
      match s.sto.wbuf.find? (fun w => w.seq == seq && w.dirty) with
      | none => s
      | some w =>
        match s.ns w.ctrl w.nsid with
        | none => s
        | some n =>
          let l := s.lostOf n w
          let t := s.upSto (fun x => { x with wbuf := x.wbuf.filter (fun y => y.seq != seq), errLost := satu 65535 (x.errLost + l.length) })
          let u := (t.upNs w.ctrl w.nsid (fun n => { n with lost := l.foldl ladd n.lost })).writesEnd w.ctrl w.writes
          l.foldl (fun u b => u.record (uCtrl w.ctrl) 0x0071 0 b 0 (.tenant w.ctrl)) u

/-! ## Cipher lanes (R181, R184) -/

/-- Ends a unit for which no lane is left (R184). -/
def State.laneless (s : State) (u : CipUnit) : State :=
  let t := s.upCip (fun c => { c with units := c.units.filter (fun x => x.id != u.id) })
  match u.use with
  | .esp => t.upPage u.page (fun q => { q with drop := satu 65535 (q.drop + 1) })
  | .tls id =>
    match t.cip.crypts.find? (fun x => x.id == id) with
    | some x => t.cryptEnd x sFenced 0
    | none => t
  | .open_ cid _ =>
    match t.sto.remotes.find? (fun r => r.cid == cid) with
    | some r => t.readEnd r (nvmeSt 0 6 1)
    | none => t
  | .seal cid _ =>
    match t.sto.remotes.find? (fun r => r.cid == cid) with
    | none => t
    | some r =>
      match t.ns r.ctrl r.nsid with
      | some n => (t.sealBack n r).noLanes n
      | none => t

/-- The units of a lane run again on another, or end where there is none (Table 12.6, R184). -/
def State.laneMoved (s : State) (lane : Nat) : State :=
  let l := s.cip.units.filter (fun u => (u.lane == lane || (s.lanesUp.isEmpty && u.lane == laneNone)) && u.fin == 0)
  let t := l.foldl (fun t u =>
    match t.pickLane (some lane) with
    | some n => t.upCip (fun c =>
        { c with units := lupd c.units (fun x => x.id == u.id) (fun x => { x with lane := n }), drbg := amod c.drbg n 0 (fun v => v + laneBlocks u.data.length) })
    | none => t.laneless u) s
  l.foldl (fun t u => t.releasePage (t.cip.units.length + 1) u.page) t

/-! ## Fences (R348 to R351) -/

/-- Units of the ladder of one class, by a member's number. -/
def State.ladderClass (s : State) (n : Nat) : List Nat :=
  if n < 64 then unitRange 0 64 else if n < 128 then unitRange 64 64 else if n < 144 then unitRange 128 16
  else if n < 160 then unitRange 144 16 else unitRange 160 s.glb.part.channels

/-- Whether R349 protects a unit from being fenced; a channel that is leaving takes its 4 GiB first. -/
def State.isProtected (s : State) (n : Nat) : Bool :=
  let last := (s.ladderClass n).all (fun k => k == n || s.unitFenced k)
  if n < 64 then last else if n < 128 then false else if n < 144 then last else if n < 160 then false
  else decide (s.partLen .shuffle < mib (8192 + 4096 * b2n s.ras.removing.isSome))

/-- The removal of a channel that is in progress is complete when another channel begins to leave: one map is in force at a time (R350). -/
def State.removalEnds (s : State) : State :=
  match s.ras.removing with
  | none => s
  | some (ch, _) =>
    let t := s.upRas (fun r => { r with removing := none, removed := ladd r.removed ch })
    t.record (rasUnitId (160 + ch)) 0x0006 0 (t.glb.part.channels - t.ras.removed.length) 0 .health

/-- A GDDR7 channel begins to leave the interleave: the ports assert priority flow control, and four partitions are reset (R350). -/
def State.channelLeaves (s : State) (ch : Nat) : State :=
  let t := (s.removalEnds.upRas (fun r => { r with removing := some (ch, s.now), degraded := true })).upNet (fun n =>
    { n with ports := (List.range n.portCount).foldl (fun l p => amod l p {} (fun x => { x with paused := true })) n.ports })
  [Partn.staging, .shuffle, .ckp, .trace].foldl (fun u p => u.partReset p none) t

/-- What the fence of a unit does to its running work (Table 12.6). -/
def State.fenceWork (s : State) (n : Nat) : State :=
  if n < 64 then (s.upRas (fun r => { r with due := ldel r.due n, stopped := ldel r.stopped n, testPass := ldel r.testPass n })).tapFence n
  else if n < 128 then s.shuFenced (n - 64)
  else if n < 144 then s.handFence (n - 128)
  else if n < 160 then
    let t := s.laneMoved (n - 144)
    if t.lanesUp.isEmpty then t.record (rasUnitId n) 0x0007 0 0x7FFF0000 0 .health else t
  else s.channelLeaves (n - 160)

/-- Fences a unit (R344, R348): its FENCED record carries its detected errors. -/
def State.fenceUnit (s : State) (n : Nat) : State :=
  let t := ((s.upRasUnit n (fun u => { u with fenced := true, held := false })).ao 22 1).rasFlag 1 (fun r => { r with evFence := true })
  (t.record (rasUnitId n) 0x0011 0 (s.rasUnit n).detected 0 .health).fenceWork n

/-! ## The ladder (R344, R347, R349) -/

/-- The record code of a detected error's own event, where it has one (R344). -/
def causeCode (n : Nat) (c : ErrCause) : Option Nat :=
  match c with
  | .memory => none
  | .corrected => if 160 ≤ n then some 0x0001 else none
  | .charge => some 0x0020
  | .overrun => some 0x0022
  | .test => some 0x0024
  | .reparse => some 0x0030
  | .watchdog => some 0x0050
  | .mismatch => some 0x0040
  | .uncorrectable => some 0x0002
  | .linkCrc => some 0x0004
  | .trace => none

/-- What an uncorrected memory error of a unit does to its running work (Tables 12.1, 12.6). With DETAIL 1 an error in a shuttle's buffers
struck the reference pictures or the decoding state of stream `op` (R199). -/
def State.memoryHit (s : State) (n op detail : Nat) : State :=
  if n < 64 then
    let a := s.tapAbandon n (s.tapCycles n)
    ((a.2.tapLeaves n).repartition a.1 false).tapFill.tapKick
  else if n < 128 then (if detail = 1 then s.shuStruck (n - 64) op else s)
  else if n < 144 then s.handStops (n - 128)
  else s.laneMoved (n - 144)

/-- Takes a detected error of a unit (R344, R347, R349, R400): its own record, the move, and the record of the move. -/
def State.detected (s : State) (n : Nat) (cause : ErrCause) (op detail addr : Nat) : State :=
  let u := s.rasUnit n
  let hand := decide (128 ≤ n) && decide (n < 144)
  let third := hand && (cause == .watchdog || cause == .memory) && decide (3 ≤ ((s.hand (n - 128)).recentEnds s.now).length) && !s.isProtected n
  let up := !u.fenced && decide (u.rung < 6)
  let t0 := (s.upRasUnit n (fun x =>
    { x with detected := satu 65535 (x.detected + 1), detAt := x.detAt ++ [s.now], rung := if up then x.rung + 1 else x.rung })).ao 21 1
  let t1 := match causeCode n cause with
    | some c => t0.record (rasUnitId n) c op detail addr .health
    | none => t0
  let t2 :=
    if u.fenced then t1
    else if up then
      let v := (t1.rasFlag 0 (fun r => { r with evSuspect := true })).record (rasUnitId n) 0x0010 0 (u.rung + 1) 0 .health
      if third then v.fenceUnit n else v
    else if s.isProtected n then
      (t1.upRasUnit n (fun x => { x with held := true })).upRas (fun r => { r with degraded := true }) |>.record (rasUnitId n) 0x0007 0 (rasUnitId n) 0 .health
    else t1.fenceUnit n
  t2.ckpWarn (ckpClass n)

/-- The ladder takes the oldest charge of a unit (R347). -/
def State.takeCharge (s : State) (n : Nat) : State :=
  match s.ras.charged.find? (fun c => c.unit == rasUnitId n) with
  | none => s
  | some c => (s.upRas (fun r => { r with charged := r.charged.erase c })).detected n c.cause c.op c.detail c.addr

/-- The ladder takes every charge of a unit, in the order detected (R347). -/
def State.takeCharges (s : State) (n : Nat) : State :=
  (s.ras.charged.filter (fun c => c.unit == rasUnitId n)).foldl (fun t _ => t.takeCharge n) s

/-! ## Clocks of the ladder (Table 12.4) -/

/-- Clock of a unit at rung 0 in MHz: the cores, the shuttles, and the stagehands, lanes and channel controllers. -/
def rungBase (n : Nat) : Nat := if n < 64 then 1600 else if n < 128 then 1200 else 2000

/-- Highest clock in MHz that the ladder leaves a unit, 0 once it is fenced: a ceiling that throttling and caps only lower (R345, R346). -/
def State.rungClock (s : State) (n : Nat) : Nat := if s.unitFenced n then 0 else rungBase n - 100 * rungSteps (s.rasUnit n).rung

/-- Rate of a cipher lane in Mbit/s (Table 12.4). -/
def State.laneMbps (s : State) (lane : Nat) : Nat := 125 * s.rungClock (144 + lane)

/-- Rate of a GDDR7 channel in Mbit/s per pin (Table 12.4). -/
def State.pinMbps (s : State) (ch : Nat) : Nat := 16 * s.rungClock (160 + ch)

/-- Rate of a GDDR7 channel in MB/s (Table 12.4). -/
def State.channelMBps (s : State) (ch : Nat) : Nat := 64 * s.rungClock (160 + ch)

/-- Memory bandwidth in MB/s: that of the channels in the interleave (R34, R345, R350). -/
def State.memoryMBps (s : State) : Nat :=
  (((List.range s.glb.part.channels).filter (fun c => !s.ras.removed.contains c)).map s.channelMBps).sum

/-! ## In-field tests (R356 to R359) -/

/-- Clock of a core under test in MHz: raised by CLK_PCT percent above its rung clock, and never above 1.68 GHz (R357). -/
def State.testClock (s : State) (core : Nat) : Nat := min 1680 (s.rungClock core * (100 + s.ras.clkPct) / 100)

/-- Whether a core runs the heating pattern: with HEAT set, an idle core whose mesh router is beside that of a core under test (R28, R357).
Core n stands in column n / 8, row n mod 8. -/
def State.heating (s : State) (core : Nat) : Bool :=
  s.ras.heat && s.tap.inSet.contains core && !(ahas s.tap.running core) &&
    (List.range 64).any (fun c => s.underTest c &&
      ((c / 8 == core / 8 && (c % 8 + 1 == core % 8 || core % 8 + 1 == c % 8)) ||
        (c % 8 == core % 8 && (c / 8 + 1 == core / 8 || core / 8 + 1 == c / 8))))

/-- Cores in service, those out for test included. -/
def State.coresUp (s : State) : Nat := ((List.range 64).filter (fun n => !s.unitFenced n)).length

/-- Whether a condition holds under which no test starts (R359). -/
def State.iftBlocked (s : State) : Bool :=
  s.pwr.emergency || decide (0 < s.pwr.step) || decide (s.pwr.thermCap < 650) || decide (s.pwr.mgrCap < 650) || decide (s.sm.cfg.opCap < 650) ||
    (s.interOf uTapestry).any (fun r => r.ph == .intermission) || decide (s.coresUp < 56)

/-- Whether a core of the same cluster is out for test or about to leave for it (R356). -/
def State.clusterOut (s : State) (core : Nat) : Bool :=
  (s.tap.testOut ++ s.tap.testDue).any (fun c => c / 8 == core / 8)

/-- Makes tests due: stopped ones first, the others in ascending order of core (R356, R359). -/
def Ras.makeDue (r : Ras) (halted cores : List Nat) : Ras :=
  let first := halted ++ r.stopped.filter (fun c => !halted.contains c)
  let rest := (cores ++ r.due).eraseDups.filter (fun c => !first.contains c)
  { r with stopped := first, due := first ++ rest.mergeSort (fun a b => decide (a ≤ b)) }

/-- The core whose test falls due next: ascending order of instance, from the core after the last, among the cores in the core set that no
test is due for (R356). -/
def State.iftNext (s : State) : Option Nat :=
  let first := (s.ras.dueLast.map (fun c => c + 1)).getD 0
  ((List.range 64).map (fun i => (first + i) % 64)).find? (fun c =>
    !s.unitFenced c && s.tap.inSet.contains c && !s.tap.testDue.contains c && !s.ras.due.contains c)

/-- The due tests that may start now, in their order: one core of a cluster (R356). -/
def State.iftReady (s : State) : List Nat :=
  s.ras.due.foldl (fun l c =>
    if s.iftBlocked || s.clusterOut c || s.unitFenced c || !(s.tap.inSet.contains c) || l.any (fun d => d / 8 == c / 8) then l else l ++ [c]) []

/-- Starts the due tests that may start, in their order (R356, R359). -/
def State.iftStart (s : State) : State :=
  let l := s.iftReady
  (s.upRas (fun r => { r with due := r.due.filter (fun c => !l.contains c), stopped := r.stopped.filter (fun c => !l.contains c) })).tapTestsDue l

/-- Stops the tests in progress when a condition of R359 arises: their cores rejoin without a result, and are due before others. -/
def State.iftStop (s : State) : State :=
  if !s.iftBlocked then s
  else
    let out := s.tap.testOut.filter (fun c => !s.ras.testPass.contains c)
    let t := (s.upTap (fun t => { t with testDue := [] })).upRas (fun r => r.makeDue out s.tap.testDue)
    t.tapJoins out

/-- The conditions of R359 may have changed either way. -/
def State.iftCheck (s : State) : State := if s.iftBlocked then s.iftStop else s.iftStart

end Sys2Proof.Machine
end

