-- ==== Sys2Proof/Machine/InterOps.lean ====
section
/-!
DEFINITION. What goes on when an intermission ends (R87 to R90, R93), and the commands that begin or end one without settings.
-/
namespace Sys2Proof.Machine

open Sys2Proof

/-- Work that a scope held goes on: cipher units, frames, the Tapestry, weaves and RDMA messages, and in-field tests (R88, R359). -/
def State.resume (s : State) : State :=
  let t := s.lanesGo.hedRelease.tapKick
  (t.loom.jobs.foldl (fun v e => v.weaveJob e.1) t).qpsKick.iftCheck

/-- Work goes on where an intermission of a former state has ended. -/
def State.goOn (s old : State) : State := if s.cmd.inters = old.cmd.inters ∨ !s.live then s else s.resume

/-- The same after a command. -/
def thenGoOn (old : State) (r : Res) : Res :=
  match r with
  | .next t => .next (t.goOn old)
  | r => r

/-- CMD_CTRL_EN_CLEAR (R97): intermissions of the function's sessions end (R93). -/
def execCmdCtrlEnClear (fn : Nat) (s : State) : Res :=
  thenGoOn s (barWrite fn (cmdCtrlOff fn) 4 s (fun s => s.disableCmd fn))

/-- CLOSE_SESSION: intermissions of the session end (R83, R93). -/
def execCloseSession (h : Hdr) (p : Bytes) (s : State) : Res := thenGoOn s (runPkt opCloseSession h p s)

/-- INTERMISSION_DRAINED: the scope enters INTERMISSION and the reply is written (R86); tests stop (R359). -/
def execIntermissionDrained (scope : Nat) (s : State) : Res :=
  onMain s (fun s =>
    match s.interOn scope with
    | some r =>
      if r.ph = .draining ∧ s.scopeIdle scope then
        let t := ((s.upInter scope (fun r => { r with ph := .intermission, drainBy := none })).note scope 0x0010 0 3 4).iftCheck
        (t.cmd.waiting.filter (fun w => w.kind == wDrain && w.aux == scope)).foldl (fun u w => u.finish w sOk 0 0 4) t
      else s
    | none => s)

/-- DRAIN_LIMIT_EXPIRY: BUSY_RETRY, and no intermission is held; held work proceeds (R87). -/
def execDrainLimitExpiry (scope : Nat) (s : State) : Res :=
  onMain s (fun s =>
    match s.interOn scope with
    | some r =>
      match r.drainBy with
      | some t =>
        if r.ph = .draining ∧ t ≤ s.now then
          let u := s.abandonInter scope
          ((u.cmd.waiting.filter (fun w => w.kind == wDrain && w.aux == scope)).foldl (fun v w =>
            v.finish w sBusy 0 0 (v.plainState scope)) u).goOn s
        else s
      | none => s
    | none => s)

end Sys2Proof.Machine
end

