-- ==== Sys2Proof/Machine/Host.lean ====
section
/-!
DEFINITION. The host port (R452 to R464): function-level reset, VF Enable, BAR sizes and the tenant-manager mailboxes.
-/
namespace Sys2Proof.Machine

open Sys2Proof

/-! ## Function-level reset (R457 to R459, R474) -/

/-- What VF_FREEZE waits for; `aux` is the VF. -/
def wFreeze : Nat := 83

/-- A virtual function. -/
def State.vf (s : State) (v : Nat) : Vf := agetD s.host.vfs v {}

/-- Changes a virtual function. -/
def State.upVf (s : State) (v : Nat) (f : Vf → Vf) : State := s.upHost (fun h => { h with vfs := aupd h.vfs v f })

/-- Closes the Loom jobs of a function without waiting (Table 17.4). -/
def State.loomResetFn (s : State) (fn : Nat) : State :=
  (s.loom.jobs.filter (fun e => e.2.owner == fn)).foldl (fun t e =>
    let u := t.loomClose e.1
    if (u.job e.1).isSome then u.loomGone e.1 else u) s

/-- The device-held state of a VF is discarded, and what the manager asked of it ends (R458, R474). -/
def State.vfDiscard (s : State) (v : Nat) : State :=
  let t := s.finishAll (fun w => (w.kind == wSave && w.aux % 256 == v) || (w.kind == wFreeze && w.aux == v)) sAborted 0 0
  t.upVf v (fun x =>
    { x with st := 1, tracking := false, everTracked := false, dirty := [], toMgr := {}, toTenant := {}, freezeBy := none, heldBells := [],
             image := [], restored := [], saved := 0, saveHead := [], saveGran := [], saveCrc := 0 })

/-- The objects of a function after a function-level reset (Table 17.4, R506). -/
def State.flrObjects (s : State) (fn : Nat) : State :=
  let t := s.disableCmd fn
  let u := if (t.ctrl fn).en then t.ctrlReset fn else t
  let v := (((((u.zeroisePages fn).shuCloseFn fn).tapResetFn fn).feedFnReset fn).loomResetFn fn).upEvents (fun l => l.filter (fun e => e.2.fn != fn))
  let w := (v.resetCallFn fn).upObs (fun o => { o with fn := o.fn.filter (fun e => e.1 / 16 != fn) })
  if fn = 0 then w.ckpFlr else w.vfDiscard fn

/-- Starts a function-level reset: no request of the function leaves from here on (R457). -/
def State.flrBegin (s : State) (fn : Nat) : State :=
  (s.upHost (fun h => { h with flr := ladd h.flr fn, flrAt := aset h.flrAt fn s.now })).flrObjects fn

/-- VF Enable is cleared: every VF is reset, what the manager assigned returns to the PF, and every quota is 0 (R459). -/
def State.vfsOff (s : State) : State :=
  if !s.host.vfEnable then s
  else
    let t := (List.range' 1 s.host.numVfs).foldl (fun t v => t.flrObjects v) s
    let u := t.upCip (fun c => { c with pages := c.pages.map (fun e => (e.1, { e.2 with owner := 0 })), vfPages := [] })
    let v := u.upLat (fun l => { l with cells := l.cells.map (fun e => (e.1, { e.2 with owner := 0 })), order := [] })
    let w := v.upCall (fun c => { c with srcs := c.srcs.map (fun e => (e.1, { e.2 with owner := 0 })), order := [] })
    let x := w.upSto (fun x => { x with ctrls := x.ctrls.map (fun e => if e.1 = 0 then e else (e.1, { e.2 with quotaMib := 0 })) })
    let y := x.upCmd (fun c => { c with fns := c.fns.map (fun e => if e.1 = 0 ∨ 256 ≤ e.1 then e else (e.1, { e.2 with tenantKey := zeros 32 })) })
    y.upHost (fun h => { h with vfEnable := false, numVfs := 0, vfs := [], flr := h.flr.filter (fun f => f == 0) })

/-- A function-level reset; that of the PF clears VF Enable (R459). -/
def State.flrFn (s : State) (fn : Nat) : State := if fn = 0 then s.vfsOff.flrBegin 0 else s.flrBegin fn

/-- FLR. -/
def execFlr (fn : Nat) (s : State) : Res :=
  .next (if s.hostUp && s.fnEnabled fn && !s.inFlr fn then (s.flrFn fn).goOn s else s)

/-- FLR_COMPLETE: the function answers again (R457). -/
def execFlrComplete (fn : Nat) (s : State) : Res :=
  onMainIf s (s.inFlr fn) (fun s => s.upHost (fun h => { h with flr := ldel h.flr fn, flrAt := adel h.flrAt fn }))

/-- VF_ENABLE_SET: VFs 1 to `num` come up READY (R453, Table 17.8). -/
def execVfEnableSet (num : Nat) (s : State) : Res :=
  .next (if s.hostUp && !s.inFlr 0 && !s.host.vfEnable then
      s.upHost (fun h => { h with vfEnable := true, numVfs := num, vfs := (List.range' 1 num).map (fun v => (v, { st := 1 })) })
    else s)

/-- VF_ENABLE_CLEAR (R459). -/
def execVfEnableClear (s : State) : Res := .next (if s.hostUp && !s.inFlr 0 then s.vfsOff.goOn s else s)

/-- BAR_RESIZE: a size that the capability offers takes effect at the next memory access (R454, R455); in GiB for BAR2, in MiB for
VF BAR2. Other sizes are not offered. -/
def execBarResize (vf : Bool) (size : Nat) (s : State) : Res :=
  .next (if !(s.hostUp && !s.inFlr 0) then s
    else if vf then
      (if [64, 128, 256, 512, 1024, 2048, 4096, 8192, 16384].contains size then s.upGlb (fun g => { g with vfBar2Next := size }) else s)
    else if [1, 2, 4, 8, 16, 32, 64].contains size then s.upGlb (fun g => { g with bar2Next := size })
    else s)

/-! ## Tenant-manager mailbox (R462 to R464) -/

/-- The place in a mailbox that an offset of a function's BAR0 names: VF, whether it lies in the manager's half, offset in the half. -/
def mboxAt (fn off : Nat) : Option (Nat × Bool × Nat) :=
  let place := fun (v o : Nat) => some (v, decide (0x400 ≤ o), o % 0x400)
  if fn = 0 then
    if 0x00080800 ≤ off ∧ off < 0x00100000 then place ((off - 0x00080000) / 0x800) ((off - 0x00080000) % 0x800) else none
  else if 0x00001000 ≤ off ∧ off < 0x00001800 then place fn (off - 0x00001000)
  else none

/-- A half of a mailbox. -/
def Vf.half (v : Vf) (mgr : Bool) : MboxHalf := if mgr then v.toTenant else v.toMgr

/-- Changes a half of a mailbox. -/
def Vf.upHalf (v : Vf) (mgr : Bool) (f : MboxHalf → MboxHalf) : Vf :=
  if mgr then { v with toTenant := f v.toTenant } else { v with toMgr := f v.toMgr }

/-- A refused mailbox write (R462, R463). -/
def State.mboxRefuse (s : State) (v : Nat) : State := s.upVf v (fun x => { x with mboxRej := satu 65535 (x.mboxRej + 1) })

/-- Raises the source of a side: the manager's is a PF source, the tenant's one of the VF (R464). -/
def State.mboxRaise (s : State) (v : Nat) (mgr : Bool) : State :=
  if mgr then s.raiseFor 0 (s.vf v).pfSrc else s.raiseFor v (s.vf v).vfSrc

/-- The SEQ after another: 0 is skipped (R463). -/
def nextSeq32 (n : Nat) : Nat := if (n + 1) % 2 ^ 32 = 0 then 1 else (n + 1) % 2 ^ 32

/-- A write of SEQ in the half of a side (R463, R464). -/
def State.mboxSeq (s : State) (v : Nat) (mgr : Bool) (val : Nat) : State :=
  let h := (s.vf v).half mgr
  let o := (s.vf v).half (!mgr)
  if val = nextSeq32 h.seq ∧ o.ack = h.seq then (s.upVf v (fun x => x.upHalf mgr (fun h => { h with seq := val }))).mboxRaise v (!mgr)
  else s.mboxRefuse v

/-- A write of ACK: one that makes the other half writable raises that side's source (R464). -/
def State.mboxAck (s : State) (v : Nat) (mgr : Bool) (val : Nat) : State :=
  let h := (s.vf v).half mgr
  let o := (s.vf v).half (!mgr)
  let t := s.upVf v (fun x => x.upHalf mgr (fun h => { h with ack := val }))
  if h.ack ≠ o.seq ∧ val = o.seq then t.mboxRaise v (!mgr) else t

/-- A write of a mailbox: `f` takes it where the side writes its own half; a write to the other's is refused (R462). -/
def mboxWrite (a : Access) (at_ : Nat) (s : State) (f : State → Nat → Bool → State) : Res :=
  match (if a.wr then mboxAt a.fn a.off else none) with
  | none => .next s
  | some (v, mgr, o) =>
    if o ≠ at_ then .next s
    else barWrite a.fn a.off a.size s (fun t =>
      if !a.aligned then t.accessError
      else if (aget t.host.vfs v).isNone then t
      else if mgr != (a.fn == 0) then t.mboxRefuse v
      else f t v mgr)

/-- MBOX_SEQ_WRITE: 8 bytes carry LEN and TYPE too, which are never refused (R463). -/
def execMboxSeqWrite (a : Access) (s : State) : Res :=
  mboxWrite a 0 s (fun t v mgr =>
    let u := if a.size = 8 then t.upVf v (fun x => x.upHalf mgr (fun h => { h with len := bits a.val 32 16, typ := bits a.val 48 16 })) else t
    u.mboxSeq v mgr (a.val % 2 ^ 32))

/-- MBOX_ACK_WRITE. -/
def execMboxAckWrite (a : Access) (s : State) : Res := mboxWrite a 8 s (fun t v mgr => t.mboxAck v mgr (a.val % 2 ^ 32))

end Sys2Proof.Machine
end

