-- ==== Sys2Proof/Machine/PwrOps.lean ====
section
/-!
DEFINITION. The power controller (R526 to R537), the sensors as hardware and stage manager take them (R480 to R483), ALERT_N
(R546), and the removal and start of the main domain (R553 to R557) as the rows of both chapters use them.
-/
namespace Sys2Proof.Machine

open Sys2Proof

/-! ## Caps and steps (R526 to R528) -/

/-- The caps of R526 with the code of the power state each stands for (Table 20.2); an emergency counts on request. -/
def State.caps (s : State) (em : Bool) : List (Nat × Nat) :=
  [(650, 0), (s.sm.cfg.opCap, 1), (s.pwr.mgrCap, 1), (s.pwr.thermCap, 2)] ++ (if em then [(350, 3)] else [])

/-- The lowest of a list of caps, 650 W at most. -/
def lowest (l : List (Nat × Nat)) : Nat := l.foldl (fun a e => min a e.1) 650

/-- The effective cap in W (R526). -/
def State.effCap (s : State) : Nat := lowest (s.caps s.pwr.emergency)

/-- The power state (R526, Table 20.2): of sources at one value the higher code; at 650 W none binds. -/
def State.pwrState (s : State) : Nat :=
  if s.aon.mainPhase = .off then 4
  else
    let cap := s.effCap
    if cap = 650 then 0 else ((s.caps s.pwr.emergency).filter (fun e => e.1 == cap)).foldl (fun a e => max a e.2) 0

/-- GLB_PWR_STAT.CAUSE: the causes held. -/
def Pwr.mask (p : Pwr) : Nat := b2n p.epr + 2 * b2n p.temp + 4 * b2n p.volt + 8 * b2n p.power

/-- Time spent at step 1 or above, in ns (R537). -/
def State.throttled (s : State) : Nat := s.pwr.throttleNs + (if 0 < s.pwr.step then s.smNow - s.pwr.accAt else 0)

/-- Puts a throttle step in force (Table 20.3). -/
def State.setStep (s : State) (n : Nat) : State :=
  s.upPwr (fun p => { p with step := n, throttleNs := s.throttled, accAt := s.smNow })

/-! ## Module power (R481) -/

/-- Mean of the module power samples taken after an instant, in µW; 0 without any. -/
def meanSince (l : List (Nat × Int)) (t : Nat) : Int :=
  let k := l.filter (fun e => decide (t < e.1))
  if k.isEmpty then 0 else (k.map (fun e => e.2)).sum / (k.length : Int)

/-- Mean module power over the last 1 ms, in µW (R527). -/
def State.mean1ms (s : State) : Int := meanSince s.pwr.hist (s.smNow - 1000000)

/-- Mean module power over the last 100 µs, in µW (Table 20.5). -/
def State.mean100us (s : State) : Int := meanSince s.pwr.hist (s.smNow - 100000)

/-- GLB_PWR_STAT.POWER_W follows the mean, saturating (Table 20.7). -/
def State.showMean (s : State) : State := s.upPwr (fun p => { p with mean := min 1023 (s.mean1ms.toNat / 1000000) })

/-! ## Emergencies (R531, R532) -/

/-- The stage manager, while it runs, declares an emergency that holds (R532). -/
def State.declare (s : State) : State :=
  if s.sm.running ∧ s.pwr.emergency ∧ !s.sm.emerg then
    ((s.upSm (fun m => { m with emerg := true })).upPwr (fun p => { p with cEmerg := satu 65535 (p.cEmerg + 1) })).record
      uDevice 0x0120 0 s.pwr.mask 0 .health
  else s

/-- The stage manager, while it runs, ends an emergency that holds no longer (R532). -/
def State.undeclare (s : State) : State :=
  if s.sm.running ∧ !s.pwr.emergency ∧ s.sm.emerg then
    (s.upSm (fun m => { m with emerg := false })).record uDevice 0x0121 0 ((s.smNow - s.pwr.begunAt) / 1000000) 0 .health
  else s

/-- A cause begins: hardware forces step 6 (R532), in-field tests stop (R536), and the stage manager declares. -/
def State.causeBegin (s : State) (f : Pwr → Pwr) : State :=
  let t := if s.pwr.emergency then s else s.upPwr (fun p => { p with begunAt := s.smNow })
  ((t.upPwr f).setStep 6).iftCheck.declare

/-- A cause ends: with the last one the forcing stops, steps are released one per RECOVER_MS, and the emergency ends (R532). -/
def State.causeEnd (s : State) (f : Pwr → Pwr) : State :=
  let t := s.upPwr f
  if t.pwr.emergency then t
  else ((t.upPwr (fun p => { p with lowSince := some s.smNow, clearAt := s.smNow })).undeclare).iftCheck

/-! ## Sensors (R480 to R483) -/

/-- WARN_HI, CRIT_HI, WARN_LO and CRIT_LO in force for a sensor (R482, R554). -/
def State.thr (s : State) (n : Nat) : Int × Int × Int × Int :=
  match aget s.sm.cfg.thr n with
  | some t => t
  | none => if n = 64 then (58000, 60000, 42000, 40000) else Config.factoryThr n

/-- Whether a temperature sensor (Table 18.3). -/
def isTemp (n : Nat) : Bool := decide (n < 64)

/-- 100 times the hysteresis at a threshold: 2 °C, or 1% of the threshold (R482). -/
def hyst100 (n : Nat) (t : Int) : Int := if isTemp n then 1600 else (t.natAbs : Int)

/-- Whether a reading lies inside a pair of thresholds by the hysteresis (R482). -/
def insideBy (n : Nat) (hi lo v : Int) : Bool :=
  decide (100 * v + hyst100 n hi ≤ 100 * hi) && decide (100 * lo + hyst100 n lo ≤ 100 * v)

/-- Whether a reading stands outside a pair of thresholds, given whether it did (R482). -/
def outside (n : Nat) (hi lo v : Int) (was : Bool) : Bool :=
  if was then !insideBy n hi lo v else decide (hi ≤ v) || decide (v ≤ lo)

/-- The temperature sensors that have returned a sample, with their readings. -/
def State.temps (s : State) : List (Nat × Int) :=
  ((List.range 64).filter (fun n => ahas s.sm.sensors n && s.sensorThere n)).map (fun n => (n, s.reading n))

/-- The sensors of VOLT that have returned a sample, with their readings. -/
def State.volts (s : State) : List (Nat × Int) :=
  ((List.range' 64 24).filter (fun n => ahas s.sm.sensors n)).map (fun n => (n, s.reading n))

/-- Since when a condition has held, at an instant. -/
def runSince (was : Option Nat) (holds : Bool) (now : Nat) : Option Nat :=
  if holds then some (was.getD now) else none

/-- The intervals of the thermal ladder follow the readings (R530). -/
def State.thermRuns (s : State) : State :=
  let l := s.temps
  let warm := l.any (fun e => decide ((s.thr e.1).1 ≤ e.2))
  let cool := l.all (fun e => decide (e.2 < (s.thr e.1).1 - 16))
  s.upPwr (fun p => { p with warmAt := runSince p.warmAt warm s.smNow, coolAt := runSince p.coolAt cool s.smNow })

/-- The TEMP cause follows the readings (Table 20.5). -/
def State.judgeTemp (s : State) : State :=
  let l := s.temps
  if s.pwr.temp then
    (if l.all (fun e => decide (e.2 < (s.thr e.1).2.1 - 16)) then s.causeEnd (fun p => { p with temp := false }) else s)
  else if l.any (fun e => decide ((s.thr e.1).2.1 ≤ e.2)) then s.causeBegin (fun p => { p with temp := true })
  else s

/-- The VOLT cause follows the readings (Table 20.5). -/
def State.judgeVolt (s : State) : State :=
  let l := s.volts
  let th := fun (n : Nat) => ((s.thr n).2.1, (s.thr n).2.2.2)
  if s.pwr.volt then
    (if l.all (fun e => insideBy e.1 (th e.1).1 (th e.1).2 e.2) then s.causeEnd (fun p => { p with volt := false }) else s)
  else if l.any (fun e => decide (e.2 < (th e.1).2) || decide ((th e.1).1 < e.2)) then s.causeBegin (fun p => { p with volt := true })
  else s

/-- The POWER cause follows the samples of module power (Table 20.5). -/
def State.judgePower (s : State) : State :=
  if s.pwr.power then
    (if s.mean1ms ≤ ((lowest (s.caps false) : Nat) : Int) * 1000000 then s.causeEnd (fun p => { p with power := false }) else s)
  else if 700000000 < s.mean100us then s.causeBegin (fun p => { p with power := true })
  else s

/-- A sample of module power is formed at a current sample (R481). -/
def State.powerSample (s : State) : State :=
  let w := s.reading 64 * s.reading 88
  (s.upPwr (fun p => { p with hist := (p.hist.filter (fun e => decide (s.smNow < e.1 + 1000000))) ++ [(s.smNow, w)] })).showMean.judgePower

/-- The stage manager takes a sensor's latest sample: its status follows, and an outward crossing is recorded (R482). -/
def State.smSensor (s : State) (n : Nat) : State :=
  let x := agetD s.sm.sensors n {}
  let th := s.thr n
  let v := x.hw
  let crit := outside n th.2.1 th.2.2.2 v x.outCrit
  let warn := outside n th.1 th.2.2.1 v x.outWarn
  let level := if crit then 2 else if warn then 1 else 0
  let t := s.upSm (fun m => { m with sensors := aset m.sensors n { x with val := v, status := level, outCrit := crit, outWarn := warn } })
  if level ≤ x.status then t
  else t.record uDevice (if level = 2 then 0x0101 else 0x0100) 0 (n + 2 ^ 32 * unsigned 32 v) 0 .health

/-- The stage manager takes a sensor's failure (R483). -/
def State.smFailed (s : State) (n : Nat) : State :=
  if (agetD s.sm.sensors n {}).status = 3 then s
  else
    (s.upSm (fun m => { m with sensors := amod m.sensors n {} (fun x => { x with status := 3 }) })).record uDevice 0x0102 0 n 0 .health

/-! ## ALERT_N (R546) -/

/-- The level of ALERT_N (R546). -/
def State.alertN (s : State) : Bool :=
  !(s.sm.emerg || (List.range 96).any (fun n => s.sensorStatus n == 2 || s.sensorStatus n == 3) || s.sm.recovery || s.aon.thermTrip ||
    s.aon.tableau || s.sm.alertLate)

/-! ## The main domain (R551, R553, R555 to R557) -/

/-- Checkpoint staging of a part by default, in MiB (Table 1.13). -/
def ckpDefault (p : Part) : Nat := if p = .a48 then 12288 else 16384

/-- Staging of a part by default, in MiB (Table 1.13). -/
def stagingDefault (p : Part) : Nat := if p = .a48 then 6144 else 8192

/-- Whether a waiting command is one that the stage manager itself answers, so that a reset of the main domain leaves it (R497). -/
def WaitCmd.ofSm (w : WaitCmd) : Bool := w.kind == wStore && w.hdr.chan.isMgmt && decide (w.opcode < 0x0100)

/-- What a reset of the main domain leaves of the command block: the sessions of the management side, and the commands that the
stage manager answers itself (R497, R557). -/
def Cmd.afterCold (c : Cmd) : Cmd :=
  { sessions := c.sessions.filter (fun x => x.fn == 256), fns := c.fns.filter (fun e => e.1 == 256),
    waiting := c.waiting.filter WaitCmd.ofSm }

/-- The state with its main domain at its reset values, the rest kept (Table 21.10, R557). The reset that ends a Tableau lets the next PTM
exchange set device time (R58). -/
def State.mainFresh (s : State) : State :=
  { s with
    gddr := [],
    glb := { part := s.glb.part, ckpMib := ckpDefault s.glb.part, stagingMib := stagingDefault s.glb.part },
    cue := {}, cmd := s.cmd.afterCold, sto := {}, net := {}, hed := {}, ctx := {}, cip := {}, shu := {}, tap := {}, tapc := {}, loom := {},
    feed := {}, lat := {}, ras := {}, ckp := { areas := s.ckp.areas }, stg := {},
    onb := { cores := s.onb.cores.filter (fun e => e.1 == smCore) },
    call := {}, host := {}, obs := {}, pwr := { s.pwr with mgrCap := 650 },
    sm := { s.sm with sess := s.sm.sess.map (fun x =>
      { x with outstanding := (s.cmd.waiting.filter (fun w => w.ofSm && w.hdr.chan == .mgmt x.id)).length }) },
    aon := { s.aon with hostLink := false, cfgReady := false, tableau := false, tabStopped := false,
                        ptmSetNext := s.aon.ptmSetNext || s.aon.tableau } }

/-- The main domain leaves operation for a phase; its state is lost (R553, R556, R557). -/
def State.mainDown (s : State) (ph : MainPhase) (cause : Nat) : State :=
  s.mainFresh.upAon (fun a =>
    { a with mainPhase := ph, resetHold := none, nextCause := if a.started then cause else a.nextCause,
             railsRemovedAt := if ph = .off then some s.smNow else a.railsRemovedAt })

/-- The rails are removed (R553); a main domain that is off already stays as it is. -/
def State.railsOff (s : State) (cause : Nat) : State := if s.aon.mainPhase = .off then s else s.mainDown .off cause

/-- The EPR cause begins where EPR_N is low, whatever its history (R547). -/
def State.eprCheck (s : State) : State :=
  if s.aon.eprN ∨ s.pwr.epr then s
  else (s.causeBegin (fun p => { p with epr := true, eprHighAt := none, cEpr := satu 65535 (p.cEpr + 1) }))

/-- The main domain's reset is released: step 6 of Table 21.7 (R530, R547, R550). -/
def State.mainRelease (s : State) : State :=
  let t := s.mainFresh.upAon (fun a =>
    { a with mainPhase := .init, resetHold := none, resetCause := a.nextCause, started := true,
             cold := if a.started then satu 65535 (a.cold + 1) else a.cold })
  (t.upPwr (fun p => { p with thermCap := 650 })).eprCheck

/-- The conditions of step 4 of Table 21.7, with the wait of R553. -/
def State.step4Ok (s : State) : Bool :=
  s.aon.mainPhase == .off && s.aon.pwrEn && s.aon.inputOk && s.sm.running && !s.sm.recovery && !s.aon.thermTrip && !s.aon.strapTest &&
    decide (40000 ≤ s.reading 64) && decide (s.reading 64 ≤ 60000) && decide (s.reading 62 < (s.thr 62).2.1) &&
    (match s.aon.railsRemovedAt with
     | some t => decide (t + 100000000 ≤ s.smNow)
     | none => true)

/-- Steps 5 and 6 of Table 21.7: the rails come up, and the reset is released unless SYS_RST_N is low (R556). -/
def State.mainUp (s : State) : State :=
  if !s.step4Ok then s
  else if s.aon.sysRstN then s.mainRelease
  else s.mainFresh.upAon (fun a => { a with mainPhase := .reset })

/-- A die sensor trips: THERMTRIP_N goes low and the main domain loses its power until the always-on domain powers up again
(R533, R545). -/
def State.thermalTrip (s : State) (n : Nat) : State :=
  if s.aon.thermTrip then s
  else
    let t := (s.upAon (fun a => { a with thermTrip := true })).upPwr (fun p => { p with tripped := some n })
    (t.record uDevice 0x0123 0 n 0 .health).railsOff 1

/-- Hardware's part of a sample: the latest value, and what it does by itself (R479, R530, R531, R533). -/
def State.hwSample (s : State) (n : Nat) (v : Int) : State :=
  let t := s.upSm (fun m => { m with sensors := amod m.sensors n {} (fun x => { x with hw := v, lastAt := s.smNow }) })
  let u := if n < 40 ∧ 1000 ≤ v then t.thermalTrip n else t
  if isTemp n then u.thermRuns.judgeTemp
  else if n < 88 then u.judgeVolt
  else if n = 88 then u.powerSample else u

/-- A sensor fails, until the always-on domain powers up again (R483): its substitute stands in every later use. -/
def State.hwFail (s : State) (n : Nat) : State :=
  let t := s.upSm (fun m => { m with sensors := amod m.sensors n {} (fun x => { x with failed := true, lastAt := s.smNow }) })
  if isTemp n then t.thermRuns.judgeTemp else if n < 88 then t.judgeVolt else t

/-- The stage manager takes what hardware last sampled (R482, R483); it does so only while it runs. -/
def State.smTakes (s : State) (n : Nat) : State :=
  if !s.sm.running then s
  else if (agetD s.sm.sensors n {}).failed then s.smFailed n
  else s.smSensor n

end Sys2Proof.Machine
end

