-- ==== Sys2Proof/Machine/Aon.lean ====
section
/-!
DEFINITION. The rows of the pins, the straps, the power-up and power-down path and the resets (R540 to R557).
-/
namespace Sys2Proof.Machine

open Sys2Proof

/-! ## The always-on domain (R549, R551, R554) -/

/-- The module without any volatile state: module flash, the OTP counters, the prompt book's contents, the part and the levels of the
pins are kept (Table 21.10). -/
def State.allFresh (s : State) (on : Bool) : State :=
  { pending := s.pending, out := s.out, free := s.free, flash := s.flash,
    glb := { part := s.glb.part, ckpMib := ckpDefault s.glb.part, stagingMib := stagingDefault s.glb.part },
    ckp := { areas := s.ckp.areas },
    aon := { powered := on, pwrEn := s.aon.pwrEn, sysRstN := s.aon.sysRstN, hpPerstN := s.aon.hpPerstN, eprN := s.aon.eprN } }

/-- AON_POWER_UP: P1 rises through 39 V; the straps are sampled (R549, R551). -/
def execAonPowerUp (straps : Straps) (s : State) : Res :=
  .next (if s.aon.powered then s
    else
      ((s.allFresh true).upAon (fun a =>
        { a with strapProv := straps.prov, strapRstScope := straps.rstScope, strapI3c := straps.i3c, strapTest := straps.test })).upSm
        (fun m => { m with prov := straps.prov }))

/-- AON_POWER_OFF: P1 below 36 V; the event log and all volatile state are lost (R484, R554). -/
def execAonPowerOff (s : State) : Res := onAlways s (fun s => s.allFresh false)

/-- INPUT_OUT_OF_RANGE: the main domain is removed (R554). -/
def execInputOutOfRange (s : State) : Res :=
  onAlways s (fun s =>
    let t := s.upAon (fun a => { a with inputOk := false, inputRemoved := a.inputRemoved || a.mainPhase != .off })
    t.railsOff 5)

/-- INPUT_RESTORED: P1 has been within 40 to 60 V for 100 ms; with PWR_EN high a main domain that the input removed restarts, under the
conditions of step 4 (R551, R554). -/
def execInputRestored (s : State) : Res :=
  onAlways s (fun s =>
    if s.aon.inputOk then s
    else
      let t := s.upAon (fun a => { a with inputOk := true, inputRemoved := false })
      if s.aon.inputRemoved ∧ s.aon.pwrEn then t.mainUp else t)

/-! ## The main domain (R551 to R553) -/

/-- PWR_EN_HIGH: step 4 may be passed (R551). -/
def execPwrEnHigh (s : State) : Res := .next (s.upAon (fun a => { a with pwrEn := true }))

/-- PWR_EN_LOW: MOD_PWRGD goes low and the rails are removed (R553); a power-up in progress is aborted. -/
def execPwrEnLow (s : State) : Res :=
  .next (let t := s.upAon (fun a => { a with pwrEn := false })
    if s.aon.powered then t.railsOff 4 else t)

/-- MAIN_POWER_UP: steps 4 to 6 of Table 21.7 (R551). -/
def execMainPowerUp (s : State) : Res := onAlways s State.mainUp

/-- MAIN_DOMAIN_READY: step 7 of Table 21.7, MOD_PWRGD goes high (R543, R551). -/
def execMainDomainReady (s : State) : Res :=
  onAlways s (fun s => if s.aon.mainPhase = .init then s.upAon (fun a => { a with mainPhase := .ready }) else s)

/-! ## Resets (R555 to R557) -/

/-- SYS_RST_ASSERT: SYS_RST_N has read low for 1 µs: a cold reset, held while it is low (R541, R556). A reset that HP_PERST_N holds goes
on for its time as well. -/
def execSysRstAssert (s : State) : Res :=
  .next (let t := s.upAon (fun a => { a with sysRstN := false })
    if !s.aon.powered || !s.aon.sysRstN || s.aon.mainPhase == .off then t
    else (t.mainDown .reset 2).upAon (fun a => { a with resetHold := s.aon.resetHold }))

/-- SYS_RST_RELEASE: the main domain goes on from step 6 (R556), unless the hold of an HP_PERST_N reset still runs. -/
def execSysRstRelease (s : State) : Res :=
  .next (let t := s.upAon (fun a => { a with sysRstN := true })
    if s.aon.powered && s.aon.mainPhase == .reset && s.aon.resetHold.isNone then t.mainRelease else t)

/-- HP_PERST_ASSERT: a falling edge of HP_PERST_N. While MOD_PWRGD is high it is a cold reset held for 1 ms, or a reset of the host
port, as the strap selects (R555, R556); the host port stays in reset while the pin is low. -/
def execHpPerstAssert (s : State) : Res :=
  .next (let t := s.upAon (fun a => { a with hpPerstN := false, hostLink := false, cfgReady := false })
    if !s.aon.powered || !s.aon.hpPerstN || s.aon.mainPhase != .ready then t
    else if s.aon.strapRstScope then (t.mainDown .reset 3).upAon (fun a => { a with resetHold := some (s.smNow + 1000000) })
    else if s.live && !s.inFlr 0 then t.flrFn 0 else t)

/-- PERST_RESET_HOLD_EXPIRY: 1 ms of an HP_PERST_N reset has passed, and the main domain goes on from step 6 whatever HP_PERST_N does;
a low SYS_RST_N holds it still (R556). -/
def execPerstResetHoldExpiry (s : State) : Res :=
  onAlways s (fun s =>
    match s.aon.resetHold with
    | some t =>
      if s.aon.mainPhase = .reset ∧ t ≤ s.smNow then
        (if s.aon.sysRstN then s.mainRelease else s.upAon (fun a => { a with resetHold := none }))
      else s
    | none => s)

/-- HP_PERST_RELEASE: the host link may train (R551). -/
def execHpPerstRelease (s : State) : Res := .next (s.upAon (fun a => { a with hpPerstN := true }))

/-- HOST_LINK_UP: the host link has trained, and configuration requests are served (R551, R552). -/
def execHostLinkUp (s : State) : Res :=
  onMainIf s (s.aon.hpPerstN && !s.aon.hostLink) (fun s => s.upAon (fun a => { a with hostLink := true, cfgReady := true }))

/-- TABLEAU_N_FALL: a falling edge while MOD_PWRGD is high enters the Tableau (R515, R544). -/
def execTableauNFall (s : State) : Res := onAlways s (fun s => s.enterTableau 3 0)

/-- ALERT_N_ASSERT: the stage manager has not been running for more than 500 ms (R546). -/
def execAlertNAssert (s : State) : Res :=
  onAlways s (fun s =>
    if !s.sm.running ∧ s.sm.alertAt + 500000000 < s.smNow then s.upSm (fun m => { m with alertLate := true }) else s)

/-- DYNAMIC_ADDRESS_ASSIGNED: the bus controller gives the stage manager its I3C address (R495); it answers while it runs (R479). -/
def execDynamicAddressAssigned (addr : Nat) (s : State) : Res :=
  onAlways s (fun s => if s.sm.running then s.upSm (fun m => { m with dynAddr := some addr }) else s)

/-- Static I3C address for SETDASA (R549). -/
def State.staticAddr (s : State) : Nat := 0x30 + s.aon.strapI3c

end Sys2Proof.Machine
end

