-- ==== Sys2Proof/Machine/NetOps.lean ====
section
/-!
DEFINITION. The RDMA engine (R135 to R151): queue pairs that fail and recover, packets received, what a message completes, and troupe links.
-/
namespace Sys2Proof.Machine

open Sys2Proof

/-- What DEREGISTER_REGION, TROUPE_ADD_MEMBER and TROUPE_REMOVE_MEMBER wait for. -/
def wRegion : Nat := 70
def wAddMember : Nat := 71
def wRemoveMember : Nat := 72

/-- The Ethernet-ports scope. -/
def uPorts : Nat := 0x5FFF0000

/-- The troupe this device heads (Table 1.7). -/
def uTroupe : Nat := 0xFFFF0000

/-- PF BAR0 offset of NET_PORT_STAT of a port. -/
def portStatOff (p : Nat) : Nat := 0x01400100 + 8 * p

/-- The difference of two 24-bit sequence numbers. -/
def psnDiff (a b : Nat) : Nat := (a + 16777216 - b % 16777216) % 16777216

/-- Whether a 24-bit sequence number lies before another. -/
def psnBefore (a b : Nat) : Bool := decide (8388608 ≤ psnDiff a b)

/-! ## Regions (R137, R138, log entry 27) -/

/-- Whether remote addresses count from the region's start: every region but those whose GDDR7 address the peer is given. -/
def Region.zeroBased (r : Region) : Bool :=
  match r.owner with
  | .host => false
  | .troupe _ => r.mbox
  | _ => true

/-- GDDR7 address of a remote access of `len` bytes, where it lies inside the region. -/
def Region.place (r : Region) (addr len : Nat) : Option Nat :=
  let a := if r.zeroBased then r.base + addr else addr
  if r.base ≤ a ∧ a + len ≤ r.base + r.len then some a else none

/-- Whether an access to a region has begun and not ended: a message that is partly received (R137). -/
def State.regionBusy (s : State) (rkey : Nat) : Bool := s.net.qps.any (fun e => e.2.rx.any (fun m => m.rkey == rkey))

/-- Completes the DEREGISTER_REGION commands whose accesses have ended. -/
def State.regionSettle (s : State) : State :=
  ((s.net.regions.filter (fun e => e.2.closing && !s.regionBusy e.1)).map (fun e => e.1)).foldl (fun t k =>
    (t.regionDel k).finishAll (fun w => w.kind == wRegion && w.aux == k) sOk 0 0) s

/-- Takes a mailbox entry: ACTION when its sequence word follows the previous one, else it is discarded (R138). -/
def State.mboxTake (s : State) (rkey : Nat) (seq : Nat) : State :=
  match s.region rkey with
  | none => s
  | some r =>
    if seq ≠ (r.seq + 1) % 2 ^ 64 then s.upNet (fun n => { n with mbox := satu 8191 (n.mbox + 1) })
    else
      let t := s.upNet (fun n => { n with regions := aupd n.regions rkey (fun x => { x with seq := seq }) })
      if bit r.action 15 then t.latchAddFor 0 (r.action % 8192) 1 else t.raiseFor 0 (r.action % 8192)

/-- A message has been received whole: it may write sequence words of a host's mailbox (R138). -/
def State.msgDone (s : State) (m : RxMsg) : State :=
  match s.region m.rkey with
  | none => s
  | some r =>
    match r.place m.addr m.total with
    | none => s
    | some a =>
      if !r.mbox ∨ r.owner ≠ .host then s
      else
        let size := 2 ^ r.entryLog2
        let words := (List.range (r.len / size)).filter (fun i => let w := r.base + (i + 1) * size - 8; decide (a ≤ w) && decide (w + 8 ≤ a + m.total))
        words.foldl (fun t i => t.mboxTake m.rkey (fld (t.mem (r.base + (i + 1) * size - 8) 8) 0 8)) s

/-! ## What an acknowledgement completes -/

/-- The owner's part of a message that has completed; `b` holds what a read returned. -/
def State.txDone (s : State) (m : TxMsg) (b : Bytes) : State :=
  match m.op with
  | .delivery ring n => s.feedAck ring n
  | .genRead ring n => s.genChecked ring n (fld b 0 4)
  | _ => s

/-- Tears down a troupe link: its queue pairs and its control region. -/
def State.linkFree (s : State) (m : Member) : State :=
  let t := (if m.ctrlQp = 0 then s else s.qpFree m.ctrlQp)
  let u := (if m.dataQp = 0 then t else t.qpFree m.dataQp)
  if m.region = 0 then u else u.regionDel m.region

/-- Whether a queue pair has messages outstanding. -/
def State.qpBusy (s : State) (qpn : Nat) : Bool :=
  match s.qp qpn with
  | some q => !q.tx.isEmpty
  | none => false

/-- Removes the members being removed whose messages have completed (R148). -/
def State.removeSettle (s : State) : State :=
  (s.net.members.filter (fun m => m.removing && !s.qpBusy m.ctrlQp && !s.qpBusy m.dataQp)).foldl (fun t m =>
    ((t.linkFree m).upNet (fun n => { n with members := n.members.filter (fun x => x.id != m.id) })).finishAll
      (fun w => w.kind == wRemoveMember && w.aux == m.id) sOk 0 0) s

/-- What follows a change of the messages in flight: the next messages go out and waiting removals complete. -/
def State.qpGoOn (s : State) (qpn : Nat) : State :=
  match s.qp qpn with
  | some q => ((s.windowKick qpn).qpKick (q.tx.length + 1) qpn).removeSettle
  | none => s

/-- Acknowledges every packet up to a PSN: write messages wholly acknowledged complete in order (R145). -/
def State.ackTo (s : State) (qpn psn : Nat) : State :=
  match s.qp qpn with
  | none => s
  | some q =>
    let acked := q.tx.filter (fun m => m.sent && !m.rd && !psnBefore psn m.last)
    let t := s.upQpn qpn (fun q =>
      { q with tx := q.tx.filter (fun m => !acked.contains m), retries := if psnBefore q.acked psn then 0 else q.retries,
               acked := if psnBefore q.acked psn then psn else q.acked, missing := q.missing.filter (fun x => psnBefore psn x) })
    acked.foldl (fun u m => u.txDone m []) t

/-! ## Errors of queue pairs (R141, R151) -/

/-- Functions whose storage or delivery work a queue pair carries (Table 12.10). -/
def State.qpTenants (s : State) (qpn : Nat) (q : Qp) : List Nat :=
  match q.owner with
  | .target h => ((s.sto.nss.filter (fun n => n.backs.any (fun b => b.target == h))).map (fun n => n.ctrl)).eraseDups
  | _ => ((s.ringsOn qpn).map (fun e => e.2.owner)).eraseDups

/-- A fan-out no longer waits for a member (R95, R151). -/
def State.fanoutLost (s : State) (member : Nat) : State :=
  (s.cmd.fanouts.filter (fun f => f.members.contains member)).foldl (fun t f =>
    let g := { f with members := ldel f.members member, replies := f.replies ++ [{ path := [member] }] }
    let u := t.upCmd (fun c => { c with fanouts := lupd c.fanouts (fun x => x.id == f.id) (fun _ => g) })
    if g.members.isEmpty then u.endFanout g else u) s

/-- A member of the troupe is unreachable (R151). -/
def State.memberLost (s : State) (member : Nat) : State :=
  match s.member member with
  | none => s
  | some m =>
    if m.isHead then s.upMember member (fun x => { x with reached := false })
    else
      ((s.upMember member (fun x => { x with reached := false, queue := [], inflight := 0 })).netEvent 0x0020 uTroupe member 0).fanoutLost member

/-- The work of a queue pair that will not recover ends with an error to its owner (Table 5.5). -/
def State.qpGivenUp (s : State) (qpn : Nat) : State :=
  match s.qp qpn with
  | none => s
  | some q =>
    let t := (s.upQpn qpn (fun q => { q with tx := [], given := true })).feedQpFailed qpn
    let u := match q.owner with
      | .troupeCtrl m => t.memberLost m
      | _ => t
    u.removeSettle

/-- A queue pair enters ERROR (R139, R147, R328); a context error takes it there from RESET and INIT too (R164). The attempt that a
failed recovery was at stays counted (R141). -/
def State.netQpError (s : State) (qpn detail : Nat) : State :=
  match s.qp qpn with
  | none => s
  | some q =>
    if q.st = .error ∨ ((q.st = .reset ∨ q.st = .init) ∧ detail ≠ 4) then s
    else
      let t := (s.qpMove qpn .error).upQpn qpn (fun x =>
        { x with errAt := s.now, retries := 0, rx := [], bitmap := [], attempt := if q.st = .recovering then q.attempt else 0 })
      let u := (t.netEvent 0x0010 0 qpn detail).feedQpError qpn
      let v := match s.qpTenants qpn q with
        | [] => u
        | l => u.record 0 0x0080 qpn detail 0 (.each l)
      let w := if q.autoRec then v else v.qpGivenUp qpn
      (w.stoRefresh).regionSettle

/-! ## Recovery (R141) -/

/-- Sends a RECOVER packet (Table 5.26). -/
def State.sendRecover (s : State) (qpn : Nat) (acked : Bool) : State :=
  match s.qp qpn with
  | none => s
  | some q =>
    let b := leBytes 3 q.newPsn ++ [BitVec.ofNat 8 (b2n acked)] ++ leBytes 3 q.rxMsn ++ [BitVec.ofNat 8 q.attempt] ++ leBytes 4 q.epoch ++ zeros 4
    s.qpPacket qpn 0 0x0A 0 16 (reth 0 0 0 ++ b)

/-- A queue pair enters RECOVERING for an attempt, with a fresh first send PSN, and sends RECOVER. -/
def State.recoverBegin (s : State) (qpn attempt epoch : Nat) : State :=
  let n := s.freeNat 16777216
  ((s.spent.qpMove qpn .recovering).upQpn qpn (fun q =>
    { q with attempt := attempt, attemptAt := s.now, epoch := epoch, newPsn := n, sentAcked := false, gotAcked := false })).sendRecover qpn false

/-- Reads whose request the peer has received take the first PSNs of the recovered queue pair, in order; the sequence number after them, and
the messages. -/
def Qp.renumber (q : Qp) : Nat → List TxMsg → Nat × List TxMsg
  | n, [] => (n % 16777216, [])
  | n, m :: l =>
    let k := q.packets m.len
    let r := Qp.renumber q (n + k) l
    (r.1, { m with first := n % 16777216, last := (n + k - 1) % 16777216, got := [], data := [], out := 1 } :: r.2)

/-- Every path of a queue pair is back in its spray set after a recovery, which PATH_UP reports of each that was out (R146). DESIGN CHOICE (log
entry 72): a recovery tries every path anew. -/
def State.pathsUp (s : State) (qpn : Nat) (l : List Nat) : State := l.foldl (fun t p => t.netEvent 0x0014 0 qpn p) s

/-- Back in RTS: every message not wholly acknowledged is sent again whole, but those the peer has received (R141). A read
among these is not sent again here: its responses are missing, and the ACK timeout asks for them (R145, log entry 72). -/
def State.recoverEnd (s : State) (qpn : Nat) : State :=
  match s.qp qpn with
  | none => s
  | some q =>
    let below := q.tx.filter (fun m => m.sent && psnBefore m.msn q.peerMsn)
    let whole := below.filter (fun m => !m.rd)
    let kept := q.renumber q.newPsn (below.filter (fun m => m.rd))
    let rest := (q.tx.filter (fun m => !below.contains m)).map (fun m =>
      { m with sent := false, got := [], out := 0, data := if m.rd then [] else m.data })
    let t := (s.qpMove qpn .rts).upQpn qpn (fun q =>
      { q with sqPsn := kept.1, acked := psnDiff q.newPsn 1, tx := kept.2 ++ rest, txMsn := q.peerMsn, missing := [], reads := kept.2.length,
               failed := false, attempt := 0, downPaths := [], nextPath := 0 })
    let u := whole.foldl (fun u m => u.txDone m []) (t.netEvent 0x0011 0 qpn q.attempt)
    (((u.pathsUp qpn q.downPaths).feedQpRts qpn).stoRefresh).qpGoOn qpn

/-- An end takes a RECOVER of its own recovery: it adopts the proposed PSN and answers, and returns to RTS once both ends have. -/
def State.recoverTake (s : State) (qpn : Nat) (p : RdmaPkt) : State :=
  let t := (s.upQpn qpn (fun q =>
    { q with rqPsn := p.newPsn % 16777216, bitmap := [], rx := [], sentAcked := true, gotAcked := q.gotAcked || p.acked, peerMsn := p.msn % 16777216 })).sendRecover
      qpn true
  match t.qp qpn with
  | some q => if q.gotAcked then t.recoverEnd qpn else t
  | none => t

/-! ## Receiving (R143 to R145) -/

/-- An acknowledgement up to the last packet received; on a sprayed queue pair with the extension of Table 5.27. -/
def State.sendAck (s : State) (qpn : Nat) : State :=
  match s.qp qpn with
  | none => s
  | some q =>
    let cum := psnDiff q.rqPsn 1
    let aeth := [(0x1F : BitVec 8)] ++ beBytes 3 q.rxMsn
    let map_ := (q.bitmap.map (fun x => let d := psnDiff x q.rqPsn; if d < 64 then 2 ^ d else 0)).sum
    let ext := if q.sprayed then leBytes 8 map_ ++ leBytes 3 (psnDiff q.rxMsn 1) ++ [1] ++ zeros 4 else []
    s.qpPacket qpn cum 0x11 0 (4 + ext.length) (aeth ++ ext)

/-- A negative acknowledgement: 0 sequence, 1 invalid request, 2 remote access error (the codes of the InfiniBand architecture). -/
def State.sendNak (s : State) (qpn psn kind : Nat) : State :=
  match s.qp qpn with
  | none => s
  | some q => s.qpPacket qpn psn 0x11 0 4 ([BitVec.ofNat 8 (0x60 + kind)] ++ beBytes 3 q.rxMsn)

/-- A packet discarded as a duplicate or mismatch. -/
def State.countDup (s : State) : State := s.upNet (fun n => { n with dup := satu 8191 (n.dup + 1) })

/-- A request of an unsupported kind: NAK, counted, and the queue pair enters ERROR (R135, log entry 28). -/
def State.badRequest (s : State) (qpn psn : Nat) : State :=
  ((s.upNet (fun n => { n with badOp := satu 8191 (n.badOp + 1) })).sendNak qpn psn 1).netQpError qpn 2

/-- An access without the right or outside its region (R137). -/
def State.badAccess (s : State) (qpn psn : Nat) : State :=
  (s.upNet (fun n => { n with access := satu 8191 (n.access + 1) })).sendNak qpn psn 2

/-- The GDDR7 address of an access that a region admits; a region being deregistered admits only messages begun (R137). -/
def State.admitAccess (s : State) (rkey addr len : Nat) (wr begun : Bool) : Option Nat :=
  if len = 0 then some 0
  else match s.region rkey with
    | none => none
    | some r => if (if wr then r.write else r.read) && (begun || !r.closing) then r.place addr len else none

/-- A CNP for an ECN-marked packet, at most one every 50 µs (R136). -/
def State.ecnSeen (s : State) (qpn : Nat) : State :=
  match s.qp qpn with
  | none => s
  | some q =>
    if (match q.cnpAt with | some t => decide (t + 50000 ≤ s.now) | none => true) then
      (s.qpPacket qpn 0 0x81 0 0 (zeros 16)).upQpn qpn (fun q => { q with cnpAt := some s.now })
    else s

/-- Largest message (R136). -/
def maxMessage : Nat := 1073741824

/-- Whether a queue pair accepts requests (Table 5.5). -/
def Qp.accepts (q : Qp) : Bool := q.st == .rtr || q.st == .rts

/-- Signals whole messages in the order of their MSN (R144). -/
def State.signalMsgs : Nat → State → Nat → State
  | 0, s, _ => s
  | fuel + 1, s, qpn =>
    match s.qp qpn with
    | none => s
    | some q =>
      match q.rx.find? (fun m => m.msn == q.rxMsn && m.count == m.total) with
      | none => s
      | some m =>
        let t := s.upQpn qpn (fun q => { q with rx := q.rx.filter (fun x => x.msn != m.msn), rxMsn := (q.rxMsn + 1) % 16777216 })
        State.signalMsgs fuel (t.msgDone m) qpn

/-- Advances the window over the leading PSNs received (R143). -/
def advance : Nat → Nat → List Nat → Nat × List Nat
  | 0, b, l => (b, l)
  | fuel + 1, b, l => if l.contains b then advance fuel ((b + 1) % 16777216) (ldel l b) else (b, l)

/-- Marks PSNs as received in the window. -/
def State.markPsns (s : State) (qpn : Nat) (l : List Nat) : State :=
  s.upQpn qpn (fun q => let r := advance (q.bitmap.length + l.length) q.rqPsn (q.bitmap ++ l); { q with rqPsn := r.1, bitmap := r.2 })

/-- A write packet of a sprayed queue pair (R143, R144). -/
def State.sprayWrite (s : State) (qpn : Nat) (q : Qp) (p : RdmaPkt) : State :=
  let d := psnDiff p.psn q.rqPsn
  if p.opcode ≠ 0x0A ∨ maxMessage < p.total then s.badRequest qpn p.psn
  else if 8388608 ≤ d ∨ q.bitmap.contains (p.psn % 16777216) then s.countDup.sendAck qpn
  else if 1024 ≤ d then s
  else
    let rec_ := q.rx.find? (fun m => m.msn == p.msn)
    if rec_.any (fun m => m.total != p.total) then s.countDup
    else if rec_.isNone ∧ 8 ≤ q.rx.length then s
    else match s.admitAccess p.rkey p.addr p.payload.length true rec_.isSome with
      | none => s.badAccess qpn p.psn
      | some a =>
        let r0 := rec_.getD { msn := p.msn, total := p.total, addr := p.addr - p.offset, rkey := p.rkey }
        let r1 : RxMsg := { r0 with count := r0.count + p.payload.length }
        let t := (if p.payload.isEmpty then s else s.gWrite a p.payload).upQpn qpn (fun q => { q with rx := q.rx.filter (fun m => m.msn != p.msn) ++ [r1] })
        ((t.markPsns qpn [p.psn % 16777216]).signalMsgs 8 qpn).regionSettle

/-- A write packet of a queue pair with one path: packets come in order, and First, Middle, Last and Only carry one message. -/
def State.plainWrite (s : State) (qpn : Nat) (q : Qp) (p : RdmaPkt) : State :=
  let d := psnDiff p.psn q.rqPsn
  let head := p.opcode == 0x06 || p.opcode == 0x0A
  let last := p.opcode == 0x08 || p.opcode == 0x0A
  if 8388608 ≤ d then s.countDup.sendAck qpn
  else if d ≠ 0 then s.sendNak qpn q.rqPsn 0
  else if head != q.rx.isEmpty ∨ (head ∧ maxMessage < p.total) then s.badRequest qpn p.psn
  else
    let r0 := if head then { msn := q.rxMsn, total := p.total, addr := p.addr, rkey := p.rkey } else q.rx.headD {}
    let r1 : RxMsg := { r0 with count := r0.count + p.payload.length }
    if r1.total < r1.count ∨ (last ∧ r1.count ≠ r1.total) then s.badRequest qpn p.psn
    else match s.admitAccess r0.rkey r0.addr r0.total true (!head) with
      | none => s.badAccess qpn p.psn
      | some a =>
        let t := (if p.payload.isEmpty then s else s.gWrite (a + r0.count) p.payload).upQpn qpn (fun q => { q with rx := [r1], rqPsn := (q.rqPsn + 1) % 16777216 })
        let u := if last then t.signalMsgs 1 qpn else t
        (if last ∨ p.ackReq then u.sendAck qpn else u).regionSettle

/-- Bytes that a read returns; the echo word takes the device time as it is served (Table 5.28). -/
def State.readBytes (s : State) (rkey a len : Nat) : Bytes × State :=
  let r := (s.region rkey).getD {}
  let t := if r.owner != .host && r.mbox && a == r.base && (match r.owner with | .troupe _ => true | _ => false) then
      s.gWrite r.base (leBytes 8 s.now) else s
  (t.mem a len, t.gRead len)

/-- Sends the responses to a read (R135, R142). -/
def State.sendResponses (s : State) (qpn : Nat) (q : Qp) (psn msn : Nat) (b : Bytes) : State :=
  let n := q.packets b.length
  (List.range n).foldl (fun t i =>
    let path := (match t.qp qpn with | some x => if x.sprayed then x.pickPath else 0 | none => 0)
    let u := if q.sprayed then t.upQpn qpn (fun x => { x with nextPath := (path + 1) % x.paths }) else t
    let aeth := [(0x1F : BitVec 8)] ++ beBytes 3 q.rxMsn
    let ext := if q.sprayed then msgx msn false true (i * q.mtuBytes) b.length else []
    u.qpPacket qpn (psn + i) (bthOf 0x0D 0x0E 0x0F 0x10 i n) path (4 + ext.length) (aeth ++ ext ++ sub b (i * q.mtuBytes) (min q.mtuBytes (b.length - i * q.mtuBytes)))) s

/-- A read request (R137, R143): its PSNs run to the last response. On a sprayed queue pair a duplicate is discarded, as every packet is; on
one with a single path it is answered again. -/
def State.readRequest (s : State) (qpn : Nat) (q : Qp) (p : RdmaPkt) : State :=
  let d := psnDiff p.psn q.rqPsn
  let n := q.packets p.total
  let answer := fun (t : State) (a : Nat) => let r := t.readBytes p.rkey a p.total; r.2.sendResponses qpn q (p.psn % 16777216) p.msn r.1
  if q.sprayed && (decide (8388608 ≤ d) || q.bitmap.contains (p.psn % 16777216)) then s.countDup.sendAck qpn
  else if q.sprayed && (decide (1024 ≤ d) || (!(q.rx.any (fun m => m.msn == p.msn)) && decide (8 ≤ q.rx.length))) then s
  else if !q.sprayed && decide (0 < d) && decide (d < 8388608) then s.sendNak qpn q.rqPsn 0
  else if maxMessage < p.total then s.badRequest qpn p.psn
  else match s.admitAccess p.rkey p.addr p.total false false with
    | none => s.badAccess qpn p.psn
    | some a =>
      if 8388608 ≤ d then answer s.countDup a
      else if q.sprayed then
        let t := s.upQpn qpn (fun q => { q with rx := q.rx ++ [{ msn := p.msn, total := 0, count := 0, addr := 0, rkey := 0 }] })
        answer ((t.markPsns qpn ((List.range n).map (fun i => (p.psn + i) % 16777216))).signalMsgs 8 qpn) a
      else answer (s.upQpn qpn (fun q => { q with rqPsn := (q.rqPsn + n) % 16777216, rxMsn := (q.rxMsn + 1) % 16777216 })) a

/-- A read response: placed, and the read completes when whole (R143). -/
def State.readResponse (s : State) (qpn : Nat) (q : Qp) (p : RdmaPkt) : State :=
  match q.tx.find? (fun m => m.sent && m.rd && decide (psnDiff p.psn m.first ≤ psnDiff m.last m.first)) with
  | none => s.countDup
  | some m =>
    let i := psnDiff p.psn m.first
    if m.got.contains i ∨ (q.sprayed ∧ p.total ≠ m.len) then s.countDup
    else
      let at_ := if q.sprayed then p.offset else i * q.mtuBytes
      let base := padTo m.len m.data
      let data := (base.take at_ ++ p.payload ++ base.drop (at_ + p.payload.length)).take m.len
      let got := m.got ++ [i]
      if got.length < q.packets m.len then
        s.upQpn qpn (fun q => { q with retries := 0, tx := lupd q.tx (fun x => x == m) (fun x => { x with got := got, data := data }) })
      else
        let t := s.upQpn qpn (fun q => { q with retries := 0, reads := q.reads - 1, tx := q.tx.filter (fun x => x != m) })
        (t.txDone m data).qpGoOn qpn

/-- The PSNs of the responses that reads sent still lack: an acknowledgement of the request does not bring them (R145). -/
def Qp.unread (q : Qp) : List Nat :=
  (q.tx.filter (fun m => m.sent && m.rd && decide (0 < m.out))).flatMap (fun m =>
    ((List.range (psnDiff m.last m.first + 1)).filter (fun i => !m.got.contains i)).map (fun i => (m.first + i) % 16777216))

/-- The PSNs of packets sent and not yet acknowledged, and of responses not yet here. -/
def Qp.unacked (q : Qp) : List Nat :=
  ((q.tx.filter (fun m => m.sent && !m.rd)).flatMap (fun m => (List.range m.out).map (fun i => (m.first + i) % 16777216))).filter
    (fun x => psnBefore q.acked x) ++ q.unread

/-- Sends again the packets of some PSNs (R145). -/
def State.resendPsns (s : State) (qpn : Nat) (l : List Nat) : State :=
  match s.qp qpn with
  | none => s
  | some q =>
    (q.tx.filter (fun m => m.sent)).foldl (fun t m =>
      let mine := (List.range (psnDiff m.last m.first + 1)).filter (fun i => l.contains ((m.first + i) % 16777216))
      if m.rd then (if mine.isEmpty then t else t.sendPacket qpn m 0) else mine.foldl (fun u i => u.sendPacket qpn m i) t) s

/-! ## Troupe links (R148, R150) -/

/-- The first control-region place of the device reserve that no link holds: one for each of 1,024 members, and one for the device's own
head (R148). -/
def State.ctrlSlot (s : State) : Option Nat := (List.range 1025).find? (fun k => !(s.net.regions.any (fun e => e.2.base == s.ctrlBase k)))

/-- Makes this end of a troupe link: control queue pair, data queue pair and control region (R148, R150, R163). -/
def State.linkMake (s : State) (id : Nat) (q : Qp) : Option (Nat × Nat × Nat × State) :=
  match s.qpAlloc { q with owner := .troupeCtrl id, paths := 1 } false true with
  | none => none
  | some (c, t) =>
    match t.qpAlloc { q with owner := .troupeData id, paths := 16 } true false with
    | none => none
    | some (d, u) =>
      match u.ctrlSlot with
      | none => none
      | some k =>
        match u.regionAdd { base := u.ctrlBase k, len := ctrlRegionLen, write := true, read := true, mbox := true, owner := .troupe id } with
        | none => none
        | some (r, v) => some (c, d, r, v)

/-- Private data of REQ and REP, with the sender's control QPN and first PSN, which the exchange itself carries (log entry 29). -/
def cmData (id rkey data ctrl psn : Nat) : Bytes :=
  leBytes 2 id ++ zeros 2 ++ leBytes 4 rkey ++ leBytes 4 data ++ zeros 4 ++ leBytes 4 ctrl ++ leBytes 4 psn

/-- A queue pair of a link before its peer is known: its first PSN is this device's own choice. -/
def State.linkQp (s : State) (addrType : Nat) (addr : Bytes) : Qp :=
  { mtu := 5, autoRec := true, sqPsn := s.freeNat 16777216, timeout := 4, retry := 3, portMask := 0xFFFF, dest := addr, addrType := addrType }

/-- The peer's side of a link is known: both queue pairs can receive, or send as well. -/
def State.linkPeer (s : State) (m : Member) (b : Bytes) (st : QpState) : State :=
  let t := (s.qpMove m.ctrlQp st).upQpn m.ctrlQp (fun q => { q with destQpn := fld b 16 3, rqPsn := fld b 20 3, acked := psnDiff q.sqPsn 1 })
  (t.qpMove m.dataQp st).upQpn m.dataQp (fun q => { q with destQpn := fld b 8 3, rqPsn := fld b 20 3, acked := psnDiff q.sqPsn 1 })

/-- The connection of a member failed: TROUPE_ADD_MEMBER completes, and a new member is forgotten (R148). -/
def State.addFailed (s : State) (member : Nat) : State :=
  match s.member member with
  | none => s
  | some m =>
    let t := s.linkFree m
    let u := if m.live then t.upMember member (fun x => { x with ctrlQp := 0, dataQp := 0, region := 0 })
      else t.upNet (fun n => { n with members := n.members.filter (fun x => x.id != member) })
    u.finishAll (fun w => w.kind == wAddMember && w.aux == member) 0x0011 0 0

end Sys2Proof.Machine
end

