-- ==== Sys2Proof/Machine/Net.lean ====
section
/-!
DEFINITION. Events and commands of the Ethernet ports, the RDMA engine, troupe links and the context store (R131 to R151, R162 to R164).
-/
namespace Sys2Proof.Machine

open Sys2Proof

/-! ## Ports (R131 to R134) -/

/-- State code of a port. -/
def State.portSt (s : State) (p : Nat) : Nat := (agetD s.net.ports p {}).st

/-- Changes a port; a change of state leaves a trace record. -/
def State.upPort (s : State) (p : Nat) (f : Port → Port) : State :=
  let t := s.upNet (fun n => { n with ports := amod n.ports p {} f })
  if s.portSt p = t.portSt p then t else t.note (unitId 5 p) 0x0010 0 (s.portSt p) (t.portSt p)

/-- Sets an event flag of a port. -/
def State.portFlag (s : State) (p b : Nat) (f : Port → Port) : State :=
  s.flag 5 (portStatOff p) b (fun u => u.upNet (fun n => { n with ports := amod n.ports p {} f }))

/-- LINK_UP: the port passes through LINK_TRAINING, and training is complete (R133, R147). -/
def execLinkUp (port : Nat) (s : State) : Res :=
  onMainIf s (decide (port < s.net.portCount) && (s.portSt port == 0x11 || s.portSt port == 0x10)) (fun t =>
    (((t.upPort port (fun p => { p with st := 0x10 })).upPort port (fun p => { p with st := 2 })).portFlag port 8 (fun p => { p with upEv := true })).netEvent 0x0001 (unitId 5 port) 0 (200 * 2 ^ t.net.mode))

/-- LINK_DOWN: loss of signal; queue pairs with no live port enter ERROR (R133, Table 5.7). -/
def execLinkDown (port : Nat) (s : State) : Res :=
  onMainIf s (s.net.portUp port) (fun t =>
    let u := ((t.upPort port (fun p => { p with st := 0x11, pause := [], held := [] })).portFlag port 9 (fun p => { p with downEv := true })).netEvent 0x0002 (unitId 5 port) 0 0
    let dead := u.net.qps.filter (fun e => e.2.portMask.testBit port && (u.livePorts e.2).isEmpty)
    dead.foldl (fun v e => v.netQpError (qpnOf e.1) 3) u)

/-- FEC_DEGRADE: more codewords than FEC_DEG were corrected in the last 1 ms (R132). -/
def execFecDegrade (port corrected : Nat) (s : State) : Res :=
  onMainIf s (s.net.portUp port && decide (s.net.fecLimit < corrected)) (fun t =>
    ((t.portFlag port 10 (fun p => { p with fecDeg := true })).upNet (fun n =>
      { n with ports := amod n.ports port {} (fun p => { p with corr := corrected }) })).netEvent 0x0003 (unitId 5 port) 0 corrected)

/-- Ports of a new mode that cover the lanes of ports of the old mode (R134). -/
def remask (old new mask : Nat) : Nat :=
  let lanes := (List.range 16).filter (fun l => mask.testBit (l / 2 ^ old))
  ((lanes.map (fun l => l / 2 ^ new)).eraseDups.map (fun p => 2 ^ p)).sum

/-- Applies SET_PORT_MODE: every port of the new mode retrains, the others are OFF, and queue pairs keep their lanes (R131, R133, R134). -/
def State.applyPortMode (s : State) (p : Bytes) : State :=
  let m := fld p 0 1
  (List.range 16).foldl (fun t i => t.upPort i (fun x => { x with st := if i < 16 / 2 ^ m then 0x10 else 0, pause := [], held := [] }))
    (s.upNet (fun n => { n with mode := m, qps := n.qps.map (fun e => (e.1, { e.2 with portMask := remask n.mode m e.2.portMask })) }))

/-- SET_PORT_MODE (R134). -/
def opSetPortMode : OpSpec :=
  { code := 0x0600, len := fun _ => 8, fields := fun _ p => [(0, decide (fld p 0 1 ≤ 3)), rsv p 1 7],
    run := fun c h p s =>
      match s.settingStop c uPorts true with
      | some v => v
      | none => s.setting 0x0600 c { h with unit := uPorts } p (fun _ => true) 0 (fun t => t.applyPortMode p) }

/-- SET_PORT_MODE. -/
def execSetPortMode (h : Hdr) (p : Bytes) (s : State) : Res := runPkt opSetPortMode h p s

/-- NET_PORT_STAT as it reads (Table 5.21). -/
def Port.stat (p : Port) : Nat := p.st % 256 + 256 * b2n p.upEv + 512 * b2n p.downEv + 1024 * b2n p.fecDeg + 2 ^ 32 * (p.uncorr % 2 ^ 32)

/-- GET_PORT_STATUS (Table 5.18). -/
def opGetPortStatus : OpSpec :=
  { code := 0x0601, result := true, unitOk := fun h s => uClass h.unit == 5 && uSub h.unit == 0 && decide (uInst h.unit < s.net.portCount),
    run := fun _ h _ s => .done sOk 0 ((agetD s.net.ports (uInst h.unit) {}).stat % 2 ^ 32) s }

/-- GET_PORT_STATUS. -/
def execGetPortStatus (h : Hdr) (p : Bytes) (s : State) : Res := runPkt opGetPortStatus h p s

/-! ## Packets -/

/-- Something for the queue pair of a packet whose checks hold. -/
def onQpn (s : State) (qpn : Nat) (f : State → Qp → State) : Res :=
  onMain s (fun t =>
    match t.qp qpn with
    | some q => f t q
    | none => t)

/-- A packet of a queue pair in a state that takes it: its contexts are used, and a congestion mark answered (R136, R163). -/
def State.takePacket (s : State) (p : RdmaPkt) (ok : Qp → Bool) (f : State → Qp → State) : State :=
  match s.qp p.qpn with
  | some q =>
    if ok q && p.crcOk then
      let u := s.ctxUses q.ctxs
      f (if p.ecn then u.ecnSeen p.qpn else u) q
    else s
  | none => s

/-- A packet that uses no memory. -/
def onPacket (s : State) (p : RdmaPkt) (ok : Qp → Bool) (f : State → Qp → State) : Res := onMain s (fun t => t.takePacket p ok f)

/-- Does something with memory, or holds it while a channel leaves the interleave (R350). -/
def onMemory (s : State) (u : HeldUse) (f : State → State) : Res :=
  onMain s (fun t => if t.memHeld then t.upRas (fun r => { r with heldUses := r.heldUses ++ [u] }) else f t)

/-- A request but a read or RECOVER, of a queue pair that accepts requests (R135 to R138, R143, R144). -/
def State.packetWrite (s : State) (pkt : RdmaPkt) : State :=
  s.takePacket pkt Qp.accepts (fun t q =>
    if !(([0x06, 0x07, 0x08, 0x0A] : List Nat).contains pkt.opcode) then t.badRequest pkt.qpn pkt.psn
    else if q.sprayed then t.sprayWrite pkt.qpn q pkt
    else t.plainWrite pkt.qpn q pkt)

/-- A read request of a queue pair that accepts requests (R137). -/
def State.packetReadRequest (s : State) (pkt : RdmaPkt) : State := s.takePacket pkt Qp.accepts (fun t q => t.readRequest pkt.qpn q pkt)

/-- A read response of a queue pair in RTS (R143). -/
def State.packetReadResponse (s : State) (pkt : RdmaPkt) : State :=
  s.takePacket pkt (fun q => q.st == .rts) (fun t q => t.readResponse pkt.qpn q pkt)

/-- RDMA_WRITE_RECEIVED (R135 to R138, R143, R144): any request but a read and RECOVER. -/
def execRdmaWriteReceived (pkt : RdmaPkt) (s : State) : Res := onMemory s (.write pkt) (fun t => t.packetWrite pkt)

/-- RDMA_READ_REQUEST (R137). -/
def execRdmaReadRequest (pkt : RdmaPkt) (s : State) : Res := onMemory s (.readReq pkt) (fun t => t.packetReadRequest pkt)

/-- RDMA_READ_RESPONSE (R143). -/
def execRdmaReadResponse (pkt : RdmaPkt) (s : State) : Res := onMemory s (.readResp pkt) (fun t => t.packetReadResponse pkt)

/-- ACK_RECEIVED (R135, R145): `syndrome` is 0 for an acknowledgement, 1 for a sequence NAK, other values for the NAKs that end the queue
pair's work. -/
def execAckReceived (pkt : RdmaPkt) (s : State) : Res :=
  onPacket s pkt (fun q => q.st == .rts) (fun t _ =>
    if 2 ≤ pkt.syndrome then t.netQpError pkt.qpn 2
    else if pkt.syndrome = 1 then
      let u := t.ackTo pkt.qpn (psnDiff pkt.psn 1)
      (u.upQpn pkt.qpn (fun q => { q with missing := q.unacked })).qpGoOn pkt.qpn
    else
      let u := t.ackTo pkt.qpn pkt.psn
      let far := (pkt.bitmap.map (fun i => i + 1)).foldl max 0
      let holes := ((List.range far).filter (fun i => !pkt.bitmap.contains i)).map (fun i => (pkt.psn + 1 + i) % 16777216)
      (u.upQpn pkt.qpn (fun q => if far = 0 then q else { q with missing := holes })).qpGoOn pkt.qpn)

/-- CNP_RECEIVED: the rate is halved, and recovers over the following 1 ms (R136). -/
def execCnpReceived (qpn : Nat) (s : State) : Res :=
  onQpn s qpn (fun t _ => t.upQpn qpn (fun q => { q with rate := q.rateNow t.now / 2, rateAt := t.now }))

/-- QP_ACK_TIMEOUT: the missing PSNs are sent again, or after the last retry the queue pair enters ERROR (R145). -/
def execQpAckTimeout (qpn : Nat) (s : State) : Res :=
  onQpn s qpn (fun t q =>
    if q.st ≠ .rts ∨ q.unacked.isEmpty then t
    else if q.retry ≤ q.retries then t.netQpError qpn 1
    else (t.upQpn qpn (fun q => { q with retries := q.retries + 1 })).resendPsns qpn (if q.missing.isEmpty then q.unacked else q.missing ++ q.unread))

/-- SPRAY_ACK_TIMER (R145). -/
def execSprayAckTimer (qpn : Nat) (s : State) : Res := onQpn s qpn (fun t q => if q.accepts && q.sprayed then t.sendAck qpn else t)

/-! ## Recovery (R141) -/

/-- QP_RECOVERY_START. -/
def execQpRecoveryStart (qpn : Nat) (s : State) : Res :=
  onQpn s qpn (fun t q =>
    if q.st == .error && q.autoRec && !q.given && q.attempt == 0 && decide (q.errAt + 1000000 ≤ t.now) then
      t.recoverBegin qpn 1 ((q.epoch + 1) % 2 ^ 32)
    else t)

/-- RECOVER_SEND_TIMER. -/
def execRecoverSendTimer (qpn : Nat) (s : State) : Res := onQpn s qpn (fun t q => if q.st = .recovering then t.sendRecover qpn q.sentAcked else t)

/-- RECOVER_RECEIVED: a newer EPOCH in RTS begins a recovery here; an older one is discarded. -/
def execRecoverReceived (pkt : RdmaPkt) (s : State) : Res :=
  onQpn s pkt.qpn (fun t q =>
    if pkt.crcOk = false ∨ pkt.epoch < q.epoch then t
    else if q.st = .recovering then (t.upQpn pkt.qpn (fun q => { q with epoch := pkt.epoch })).recoverTake pkt.qpn pkt
    else if q.st = .rts then
      if q.epoch < pkt.epoch then
        (((t.feedQpError pkt.qpn).recoverBegin pkt.qpn 1 pkt.epoch).upQpn pkt.qpn (fun q => { q with rx := [], bitmap := [] })).recoverTake pkt.qpn pkt
      else t.sendRecover pkt.qpn true
    else t)

/-- RECOVERY_ATTEMPT_TIMEOUT: the attempt has failed; after the third the queue pair stays in ERROR (R141, R151). -/
def execRecoveryAttemptTimeout (qpn : Nat) (s : State) : Res :=
  onQpn s qpn (fun t q =>
    if q.st == .recovering && decide (q.attemptAt + 1000000 ≤ t.now) then
      let u := (t.netQpError qpn 1).upQpn qpn (fun q => { q with failed := true })
      if q.attempt < 3 then u.stoRefresh
      else ((u.netEvent 0x0012 0 qpn 0).qpGivenUp qpn).stoRefresh
    else t)

/-- RECOVERY_RETRY: 10 ms after a failed attempt the next begins. -/
def execRecoveryRetry (qpn : Nat) (s : State) : Res :=
  onQpn s qpn (fun t q =>
    if q.st == .error && q.autoRec && !q.given && decide (1 ≤ q.attempt) && decide (q.attempt < 3) && decide (q.errAt + 10000000 ≤ t.now) then
      t.recoverBegin qpn (q.attempt + 1) q.epoch
    else t)

/-! ## Paths (R146) -/

/-- PATH_DOWN. -/
def execPathDown (qpn path : Nat) (s : State) : Res :=
  onQpn s qpn (fun t q =>
    if q.st == .rts && q.sprayed && decide (path < q.paths) && !q.downPaths.contains path then
      let u := (t.upQpn qpn (fun q => { q with downPaths := q.downPaths ++ [path] })).netEvent 0x0013 0 qpn path
      if q.paths ≤ q.downPaths.length + 1 then u.netQpError qpn 3 else u
    else t)

/-- PATH_PROBE: a path that answers its probe is back in the set. -/
def execPathProbe (qpn path : Nat) (answered : Bool) (s : State) : Res :=
  onQpn s qpn (fun t q =>
    if q.downPaths.contains path && answered then
      (t.upQpn qpn (fun q => { q with downPaths := ldel q.downPaths path })).netEvent 0x0014 0 qpn path
    else t)

/-! ## Network events (R147) -/

/-- The ring after software returned records up to a head. -/
def Ring.return_ (r : Ring) (head : Nat) : Ring :=
  let n := (head % r.size + r.size - r.head) % r.size
  if n ≤ r.count then { r with head := head % r.size, count := r.count - n } else r

/-- NET_EVQ_HEAD_WRITE. -/
def execNetEvqHeadWrite (val : Nat) (s : State) : Res :=
  barWrite 0 0x01400210 4 s (fun t => t.upNet (fun n => { n with evq := n.evq.map (fun r => r.return_ (val % 65536)) }))

/-- SET_EVENT_QUEUE (R147). -/
def opSetEventQueue : OpSpec :=
  { code := 0x0606, len := fun _ => 16,
    fields := fun _ p => [(0, fld p 0 8 % 4096 == 0), (8, decide (6 ≤ fld p 8 1) && decide (fld p 8 1 ≤ 16)), rsv p 9 1, (10, decide (fld p 10 2 < 2048)), rsv p 12 4],
    run := fun _ _ p s => .ok (s.upNet (fun n => { n with evq := some { base := fld p 0 8, log2 := fld p 8 1, vector := fld p 10 2 } })) }

/-- SET_EVENT_QUEUE. -/
def execSetEventQueue (h : Hdr) (p : Bytes) (s : State) : Res := runPkt opSetEventQueue h p s

/-! ## Queue pairs of the manager (R139, R140) -/

/-- CREATE_QP (R139, R163). -/
def opCreateQp : OpSpec :=
  { code := 0x0602, result := true, len := fun _ => 8, fields := fun _ p => [(0, decide (fld p 0 1 ≤ 1)), rsv p 1 7],
    run := fun _ _ p s =>
      match s.qpAlloc {} false (fld p 0 1 == 1) with
      | some (q, t) => .done sOk 0 q t
      | none => noResource }

/-- CREATE_QP. -/
def execCreateQp (h : Hdr) (p : Bytes) (s : State) : Res := runPkt opCreateQp h p s

/-- Whether bytes of the parameters are zero, at their offset. -/
def isZero (p : Bytes) (o n : Nat) : Nat × Bool := (o, fld p o n == 0)

/-- Fields of MODIFY_QP: those the transition uses within their values, the others 0 (Table 5.6, R140). -/
def modifyFields (p : Bytes) : List (Nat × Bool) :=
  let next := fld p 4 1
  let rtr := next == 2
  let rts := next == 3
  [(0, decide (fld p 0 4 < 16777216)), (4, decide (next ≤ 4)),
   (5, if rtr then decide (1 ≤ fld p 5 1) && decide (fld p 5 1 ≤ 64) else fld p 5 1 == 0),
   (6, if rtr then decide (3 ≤ fld p 6 1) && decide (fld p 6 1 ≤ 5) else fld p 6 1 == 0),
   (7, if rtr then decide (fld p 7 1 < 4) else fld p 7 1 == 0),
   (8, if rtr then decide (fld p 8 4 < 16777216) else fld p 8 4 == 0), (12, if rtr then decide (fld p 12 4 < 16777216) else fld p 12 4 == 0),
   (16, if rts then decide (fld p 16 4 < 16777216) else fld p 16 4 == 0), (20, if rts then decide (fld p 20 1 < 32) else fld p 20 1 == 0),
   (21, if rts then decide (fld p 21 1 < 8) else fld p 21 1 == 0), (22, rtr || fld p 22 2 == 0),
   (24, if rtr then fld p 24 1 == 4 || fld p 24 1 == 6 else fld p 24 1 == 0), (25, if rtr then decide (fld p 25 1 < 64) else fld p 25 1 == 0),
   rsv p 26 6, (32, rtr || fld p 32 16 == 0)]

/-- Moves a queue pair to RESET: what it held is gone, with its second context. -/
def State.qpReset (s : State) (qpn : Nat) (q : Qp) : State :=
  let t := (s.qpMove qpn .reset).ctxGive (q.ctxs.drop 1)
  (t.upQpn qpn (fun q => { owner := q.owner, pinned := q.pinned, ctxs := q.ctxs.take 1 })).regionSettle

/-- MODIFY_QP (R140). -/
def opModifyQp : OpSpec :=
  { code := 0x0603, len := fun _ => 48, feats := fun p => if 1 < fld p 5 1 then [8] else [], fields := fun _ p => modifyFields p,
    run := fun _ _ p s =>
      let qpn := fld p 0 4
      let next := fld p 4 1
      match s.qp qpn with
      | none => badParam 0
      | some q =>
        if next = 0 then .ok ((s.feedQpFailed qpn).qpReset qpn q)
        else if next = 1 ∧ q.st = .reset then .ok (s.qpMove qpn .init)
        else if next = 2 ∧ q.st = .init then
          let set_ := fun (t : State) (more : List Nat) => Verdict.ok ((t.qpMove qpn .rtr).upQpn qpn (fun q =>
            { q with paths := fld p 5 1, mtu := fld p 6 1, autoRec := bit (fld p 7 1) 0, ecn := bit (fld p 7 1) 1, destQpn := fld p 8 4, rqPsn := fld p 12 4,
                     portMask := fld p 22 2, addrType := fld p 24 1, dscp := fld p 25 1, dest := sub p 32 16, ctxs := q.ctxs ++ more }))
          if 1 < fld p 5 1 then (match s.ctxTakeN 2 1 with | some (l, t) => set_ t l | none => noResource) else set_ s []
        else if next = 3 ∧ q.st = .rtr then
          .ok (((s.qpMove qpn .rts).upQpn qpn (fun q =>
            { q with timeout := fld p 20 1, retry := fld p 21 1, sqPsn := fld p 16 4, acked := psnDiff (fld p 16 4) 1 })).stoRefresh)
        else .refuse 0x0010 0 }

/-- MODIFY_QP. -/
def execModifyQp (h : Hdr) (p : Bytes) (s : State) : Res := runPkt opModifyQp h p s

/-- DESTROY_QP (R140). -/
def opDestroyQp : OpSpec :=
  { code := 0x0604, len := fun _ => 8, fields := fun _ p => [(0, decide (fld p 0 4 < 16777216)), rsv p 4 4],
    run := fun _ _ p s =>
      match s.qp (fld p 0 4) with
      | none => badParam 0
      | some q => if q.st = .reset ∨ q.st = .error then .ok (s.qpFree (fld p 0 4)) else .refuse 0x0010 0 }

/-- DESTROY_QP. -/
def execDestroyQp (h : Hdr) (p : Bytes) (s : State) : Res := runPkt opDestroyQp h p s

/-- QUERY_QP (R139). -/
def opQueryQp : OpSpec :=
  { code := 0x0605, result := true, len := fun _ => 8, fields := fun _ p => [(0, decide (fld p 0 4 < 16777216)), rsv p 4 4],
    run := fun _ _ p s =>
      match s.qp (fld p 0 4) with
      | none => badParam 0
      | some q => .done sOk 0 (q.st.code + 256 * q.sqPsn) s }

/-- QUERY_QP. -/
def execQueryQp (h : Hdr) (p : Bytes) (s : State) : Res := runPkt opQueryQp h p s

/-! ## Regions (R137) -/

/-- REGISTER_REGION (Table 5.4, R137). -/
def opRegisterRegion : OpSpec :=
  { code := 0x0607, result := true, len := fun _ => 24,
    fields := fun _ p =>
      let mb := bit (fld p 16 1) 2
      [(0, fld p 0 8 % 4096 == 0), (8, fld p 8 8 % 4096 == 0 && decide (0 < fld p 8 8)), (16, decide (fld p 16 1 < 8)),
       (17, if mb then decide (6 ≤ fld p 17 1) && decide (fld p 17 1 ≤ 13) else fld p 17 1 == 0), (18, fld p 18 2 / 8192 % 4 == 0), rsv p 20 4],
    run := fun _ _ p s =>
      let b := fld p 0 8
      let n := fld p 8 8
      let acc := fld p 16 1
      if !([Partn.staging, .shuffle, .ckp, .trace].any (fun x => decide (s.partBase x ≤ b) && decide (b + n ≤ s.partBase x + s.partLen x))) then badParam 0
      else match s.regionAdd { base := b, len := n, write := bit acc 0, read := bit acc 1, mbox := bit acc 2, entryLog2 := fld p 17 1, action := fld p 18 2 } with
        | some (k, t) => .done sOk 0 k t
        | none => noResource }

/-- REGISTER_REGION. -/
def execRegisterRegion (h : Hdr) (p : Bytes) (s : State) : Res := runPkt opRegisterRegion h p s

/-- DEREGISTER_REGION (R137): the reply waits for accesses that have begun. -/
def opDeregisterRegion : OpSpec :=
  { code := 0x0608, len := fun _ => 8, fields := fun _ p => [rsv p 4 4],
    run := fun _ _ p s =>
      let k := fld p 0 4
      match s.region k with
      | none => badParam 0
      | some r =>
        if r.owner ≠ .host ∨ r.closing then badParam 0
        else if s.regionBusy k then .wait wRegion k (s.upNet (fun n => { n with regions := aupd n.regions k (fun r => { r with closing := true }) }))
        else .ok (s.regionDel k) }

/-- DEREGISTER_REGION. -/
def execDeregisterRegion (h : Hdr) (p : Bytes) (s : State) : Res := runPkt opDeregisterRegion h p s

/-! ## Troupe links (R148, R150) -/

/-- TROUPE_ADD_MEMBER (R148, R151): this end of the link is made and REQ sent; the reply waits for the exchange. -/
def opTroupeAddMember : OpSpec :=
  { code := 0x0609, len := fun _ => 24, feats := fun _ => [1],
    fields := fun _ p => [(0, decide (1 ≤ fld p 0 2) && decide (fld p 0 2 ≤ 0xFFFE)), (2, fld p 2 1 == 4 || fld p 2 1 == 6), rsv p 3 5],
    run := fun _ _ p s =>
      let id := fld p 0 2
      let old := s.member id
      if old.any (fun m => m.reached || m.removing) then badState
      else if old.isNone ∧ 1024 ≤ (s.net.members.filter (fun m => !m.isHead)).length then noResource
      else
        let s1 := match old with
          | some m => s.linkFree m
          | none => s
        let q := s1.linkQp (fld p 2 1) (sub p 8 16)
        match s1.spent.linkMake id q with
        | none => noResource
        | some (c, d, r, t) =>
          let m : Member := { id := id, addrType := fld p 2 1, addr := sub p 8 16, ctrlQp := c, dataQp := d, region := r, reached := old.isNone }
          let u := match old with
            | some _ => t.upMember id (fun x => { x with addrType := m.addrType, addr := m.addr, ctrlQp := c, dataQp := d, region := r, cmdSeq := 0, cueSeq := 0, rplyIn := 0 })
            | none => t.upNet (fun n => { n with members := n.members ++ [m] })
          .wait wAddMember id (u.emit .cm 1 id 0 (cmData id r d c q.sqPsn)) }

/-- TROUPE_ADD_MEMBER. -/
def execTroupeAddMember (h : Hdr) (p : Bytes) (s : State) : Res := runPkt opTroupeAddMember h p s

/-- TROUPE_REMOVE_MEMBER (R148): the reply waits for the outstanding messages. -/
def opTroupeRemoveMember : OpSpec :=
  { code := 0x060A, len := fun _ => 8, feats := fun _ => [1], fields := fun _ p => [rsv p 2 6],
    run := fun _ _ p s =>
      let id := fld p 0 2
      match s.member id with
      | none => badParam 0
      | some m =>
        if m.isHead ∨ m.removing then badParam 0
        else .wait wRemoveMember id (s.upMember id (fun x => { x with removing := true })) }

/-- TROUPE_REMOVE_MEMBER: with nothing outstanding the link goes at once. -/
def execTroupeRemoveMember (h : Hdr) (p : Bytes) (s : State) : Res :=
  match runPkt opTroupeRemoveMember h p s with
  | .next t => .next t.removeSettle
  | r => r

/-- CM_REQ_RECEIVED: a head connects; answered with REP, or with REJ unless the running image grants TROUPE (R150). Its link is member 0. -/
def execCmReqReceived (src req : Bytes) (s : State) : Res :=
  onMain s (fun t =>
    if !(t.stg.image.isSome && t.granted 1) then t.emit .cm 4 0 0 []
    else
      let t1 := match t.member 0 with
        | some m => (t.linkFree m).upNet (fun n => { n with members := n.members.filter (fun x => x.id != 0) })
        | none => t
      let q := t1.linkQp (if src.length = 4 then 4 else 6) (padTo 16 src)
      match t1.spent.linkMake 0 q with
      | none => t1.emit .cm 4 0 0 []
      | some (c, d, r, u) =>
        let m : Member := { id := 0, addr := padTo 16 src, ctrlQp := c, dataQp := d, region := r, isHead := true, peerRkey := fld req 4 4, peerData := fld req 8 4,
                            given := fld req 0 2 }
        ((u.upNet (fun n => { n with members := n.members ++ [m] })).linkPeer m req .rtr).emit .cm 2 0 0 (cmData (fld req 0 2) r d c q.sqPsn))

/-- CM_REP_RECEIVED: the head's end is connected; RTU is sent, and TROUPE_ADD_MEMBER completes (R148, R150, R151). -/
def execCmRepReceived (member : Nat) (rep : Bytes) (s : State) : Res :=
  onMain s (fun t =>
    match t.member member with
    | none => t
    | some m =>
      if m.isHead ∨ m.ctrlQp = 0 ∨ !(t.cmd.waiting.any (fun w => w.kind == wAddMember && w.aux == member)) then t
      else
        let u := (t.linkPeer m rep .rts).upMember member (fun x => { x with peerRkey := fld rep 4 4, peerData := fld rep 8 4, live := true, reached := true })
        let v := if m.reached then u else u.netEvent 0x0021 uTroupe member 0
        (v.emit .cm 3 member 0 []).finishAll (fun w => w.kind == wAddMember && w.aux == member) sOk 0 0)

/-- REJ_RECEIVED (R150). -/
def execRejReceived (member : Nat) (s : State) : Res :=
  onMainIf s (s.cmd.waiting.any (fun w => w.kind == wAddMember && w.aux == member)) (fun t => t.addFailed member)

/-- NET_PEER_UNREACHABLE: the exchange finds no peer (R148). -/
def execNetPeerUnreachable (member : Nat) (s : State) : Res :=
  onMainIf s (s.cmd.waiting.any (fun w => w.kind == wAddMember && w.aux == member)) (fun t => t.addFailed member)

/-- RTU_RECEIVED: the member's end of the link is connected (R150); `member` is the ID its head gave it. -/
def execRtuReceived (member : Nat) (s : State) : Res :=
  onMain s (fun t =>
    match t.member 0 with
    | none => t
    | some m =>
      if m.given ≠ member ∨ m.live then t
      else ((t.qpMove m.ctrlQp .rts).qpMove m.dataQp .rts).upMember 0 (fun x => { x with live := true }))

/-! ## The context store (R162, R164) -/

/-- SET_CONTEXT_RESERVE (R162). -/
def opSetContextReserve : OpSpec :=
  { code := 0x060B, len := fun _ => 8, fields := fun _ p => [(0, decide (1 ≤ fld p 0 1) && decide (fld p 0 1 ≤ 4)), rsv p 1 3],
    run := fun _ _ p s =>
      let k := fld p 0 1
      let c := { s.ctx with reserve := aset s.ctx.reserve k (fld p 4 4) }
      if ctxLimit k < fld p 4 4 ∨ ctxTotal < ([1, 2, 3, 4].map (fun k => max (c.used k) (c.reserved k))).sum then noResource
      else .ok (s.upCtx (fun _ => c)) }

/-- SET_CONTEXT_RESERVE. -/
def execSetContextReserve (h : Hdr) (p : Bytes) (s : State) : Res := runPkt opSetContextReserve h p s

/-- An I/O queue pair of a controller whose context failed: its queues end (R164, log entry 30). -/
def State.nvmeQueueGone (s : State) (fn i : Nat) : State :=
  s.upCtrl fn (fun c => { c with queues := c.queues.filter (fun q => q.qid != i + 1), ops := c.ops.filter (fun o => o.cmd.sqid != i + 1) })

/-- The owners of a context, for its record: the function of a queue pair, a controller or a stream, or else the device (R361). -/
def State.ctxOwners (s : State) (ctx : Nat) : List Nat :=
  let l := match agetD s.ctx.kinds ctx 0 with
    | 2 => (s.net.qps.filter (fun e => e.2.ctxs.contains ctx)).flatMap (fun e => s.qpTenants (qpnOf e.1) e.2)
    | 3 => (s.sto.ctrls.filter (fun e => e.2.grantCtx.contains ctx)).map (fun e => e.1)
    | 4 => (s.shu.streams.filter (fun e => e.2.ctx == ctx)).map (fun e => e.2.owner)
    | _ => []
  if l.isEmpty then [0xFFFF] else l

/-- An uncorrectable error in a context: its record, and the end of the object that owns it alone (R164, Table 12.10). -/
def State.ctxLost (s : State) (ctx : Nat) : State :=
  let t := (s.record uDevice 0x00B0 0 ctx 0 (.every (s.ctxOwners ctx))).upCtx (fun c => { c with bad := ladd c.bad ctx })
  match agetD t.ctx.kinds ctx 0 with
  | 1 =>
    if t.hed.flows.any (fun f => f.ctx == ctx) then t.flowFree ctx
    else (t.ctxGive [ctx]).upHed (fun h => { h with tables := h.tables.map (fun e => (e.1, { e.2 with entries := e.2.entries.filter (fun x => x.ctx != ctx) })) })
  | 2 =>
    match t.net.qps.find? (fun e => e.2.ctxs.contains ctx) with
    | some e => t.netQpError (qpnOf e.1) 4
    | none => t
  | 3 =>
    match t.sto.ctrls.find? (fun e => e.2.grantCtx.contains ctx) with
    | some e => t.nvmeQueueGone e.1 ((e.2.grantCtx.findIdx? (fun c => c == ctx)).getD 0)
    | none => t
  | 4 =>
    match t.shu.streams.find? (fun e => e.2.ctx == ctx) with
    | some e => t.spent.shuFail e.1 (t.freeNat 256)
    | none => t
  | _ => t

/-- CONTEXT_ERROR (R164). -/
def execContextError (ctx : Nat) (s : State) : Res := onMain s (fun t => t.ctxLost ctx)

end Sys2Proof.Machine
end

