-- ==== Sys2Proof/Machine/Inter.lean ====
section
/-!
DEFINITION. The end of an intermission and the settings it puts in force (R88 to R92), the partitions (R30, R31) and BAR2 (R29, R32, R33,
R455).
-/
namespace Sys2Proof.Machine

open Sys2Proof

/-! ## SET_PARTITIONS (R30, R31, R461) -/

/-- Sizes that SET_PARTITIONS names, in MiB: trace spill, checkpoint staging, staging (Table 1.15). -/
def partSizes (p : Bytes) : Nat × Nat × Nat := (fld p 0 4, fld p 4 4, fld p 8 4)

/-- Whether the shuffle buffer keeps its 4 GiB (R30). -/
def State.remains (s : State) (p : Bytes) : Bool :=
  let z := partSizes p
  decide (8704 + z.1 + z.2.1 + z.2.2 + 4096 ≤ s.capMib)

/-- Whether every VF's range still lies in the staging partition (R461). -/
def State.rangesFit (s : State) (p : Bytes) : Bool :=
  s.host.vfs.all (fun e => e.2.stagingMib == 0 || decide (e.2.stagingOff + mib e.2.stagingMib ≤ mib (fld p 8 4)))

/-- SET_PARTITIONS: a setting of a device intermission. -/
def opSetPartitions : OpSpec :=
  { code := 0x0020, result := true, len := fun _ => 16, unitOk := fun h _ => h.unit == uDevice,
    fields := fun s p =>
      [(0, fld p 0 4 % 2 == 0 && decide (fld p 0 4 ≤ 1024)),
       (4, fld p 4 4 % 2 == 0 && decide (fld p 4 4 ≤ if s.glb.part = .a48 then 22888 else 30516)),
       (8, fld p 8 4 % 2 == 0 && decide (1024 ≤ fld p 8 4)), rsv p 12 4],
    run := fun c h p s =>
      match s.settingStop c uDevice true with
      | some v => v
      | none =>
        if !(s.remains p && s.rangesFit p) then noResource
        else
          let z := partSizes p
          s.setting 0x0020 c h p (fun _ => true) (shuffleMib s.capMib z.1 z.2.1 z.2.2) id }

/-- SET_PARTITIONS. -/
def execSetPartitions (h : Hdr) (p : Bytes) (s : State) : Res := runPkt opSetPartitions h p s

/-- Whether staged sizes may take effect (R89, R514): the remainder and the ranges hold, the trace is not running where its spill
changes, and every Loom job's region still fits. -/
def State.okPartitions (s : State) (p : Bytes) : Bool :=
  let z := partSizes p
  let len := mib (shuffleMib s.capMib z.1 z.2.1 z.2.2)
  s.remains p && s.rangesFit p && (z.1 == s.glb.traceMib || !(s.obs.st == 1 || s.obs.st == 2)) &&
    s.loom.jobs.all (fun e => decide (e.2.base + (s.jobX e.1).size ≤ s.partBase .shuffle + len))

/-- Whether a region belongs to the Loom and so moves with the shuffle buffer. -/
def Region.ofLoom (r : Region) : Bool :=
  match r.owner with
  | .exchange _ => true
  | .layout _ => true
  | _ => false

/-- The regions that the Loom placed in the shuffle buffer move with its start. -/
def State.moveLoom (s : State) (old : Nat) : State :=
  let move := fun (a : Nat) => a - old + s.partBase .shuffle
  (s.upLoom (fun l => { l with jobs := l.jobs.map (fun e => (e.1, { e.2 with base := move e.2.base, hdrBase := move e.2.hdrBase })) })).upNet
    (fun n => { n with regions := n.regions.map (fun e => if e.2.ofLoom then (e.1, { e.2 with base := move e.2.base }) else e) })

/-- Lays the partitions out afresh: the contents of every one whose start or size changes are discarded (R31). -/
def State.applyPartitions (s : State) (p : Bytes) : State :=
  let z := partSizes p
  let resize := fun (t : State) => t.upGlb (fun g => { g with traceMib := z.1, ckpMib := z.2.1, stagingMib := z.2.2 })
  let new := resize s
  let changed := [Partn.trace, .ckp, .staging, .shuffle].filter (fun q => s.partBase q != new.partBase q || s.partLen q != new.partLen q)
  let t := changed.foldl (fun t q => (t.gClear (s.partBase q) (s.partLen q)).partLost q) s
  (changed.foldl (fun t q => t.gClear (new.partBase q) (new.partLen q)) (resize t)).moveLoom (s.partBase .shuffle)

/-! ## INTERMISSION_END (R89, R90, R92) -/

/-- Whether a staged setting agrees with the state that those before it leave (R89). -/
def State.okStaged (s : State) (x : Staged) : Bool :=
  match x.opcode with
  | 0x0020 => s.okPartitions x.params
  | 0x0402 => s.okAddWarp x.params
  | 0x0403 => s.okLayout x.params
  | 0x0406 => s.okCursor x.params
  | 0x0409 => s.okShare x.params
  | 0x0701 => s.okTable x.params
  | 0x0904 => s.okNsMode x.params
  | _ => true

/-- A staged setting takes effect; `at_` is the AT step, 0 at once. -/
def State.applyStaged (s : State) (x : Staged) (at_ : Nat) : State :=
  match x.opcode with
  | 0x0020 => s.applyPartitions x.params
  | 0x0206 => s.applyTapPolicy x.params
  | 0x0306 => s.applyMel x.params
  | 0x0402 => s.applyAddWarp x.params at_
  | 0x0403 => s.applyLayout x.params at_
  | 0x0406 => s.applyCursor x.params at_
  | 0x0409 => s.applyShare x.params at_
  | 0x0500 => s.applySetPort x.params
  | 0x0600 => s.applyPortMode x.params
  | 0x0700 => s.applyGraph x.params
  | 0x0701 => s.applyTable x.params
  | 0x0904 => s.applyNsMode x.params
  | _ => s

/-- The staged settings one after another: the state they leave, or the index of the first in conflict (R89). -/
def State.applyAll (at_ : Nat) : List Staged → Nat → State → Except Nat State
  | [], _, s => .ok s
  | x :: t, i, s => if s.okStaged x then State.applyAll at_ t (i + 1) (s.applyStaged x at_) else .error i

/-- The staged settings of an intermission, those that name a fenced unit alone left out (R92). DESIGN CHOICE (log entry 66): what was discarded
is no staged command any more, so the index that a conflict reports (R89) counts the settings that are left. -/
def State.stagedNow (s : State) (r : Inter) : List Staged := r.staged.filter (fun x => !(s.unitValid x.unit && s.allFenced x.unit))

/-- The intermission on a scope ends with its settings in force, and the scope goes on (R89). -/
def State.restart (s t : State) (scope : Nat) : State := ((t.abandonInter scope).note scope 0x0010 0 4 (t.plainState scope)).goOn s

/-- The settings are in force but for changes of mode that wait for dirty data: the scope is RESTARTING until they have taken effect
(R122). -/
def State.modeHold (s : State) (scope : Nat) : State :=
  (s.upInter scope (fun r => { r with ph := .restarting, staged := [], at_ := 0 })).note scope 0x0010 0 4 5

/-- INTERMISSION_END (Table 3.11). A scope whose every unit is fenced completes UNIT_FENCED, and its intermission ends (R23, R92). -/
def opIntermissionEnd : OpSpec :=
  { code := 0x0007, role := .tenant, len := fun _ => 16, roleFor := scopeRole, onScope := true, unitOk := fun h _ => isScope h.unit, fenceOk := true,
    fields := fun _ p => [(0, decide (fld p 0 1 ≤ 1)), rsv p 1 7, (8, decide (fld p 8 8 < 2 ^ 40))],
    run := fun c h p s =>
      let fenced := s.allFenced h.unit
      match s.interOn h.unit with
      | none => if fenced then .refuseAt sFenced 0 9 else badState
      | some r =>
        let at_ := fld p 8 8
        if !(r.heldBy c) ∨ r.ph ≠ .intermission then (if fenced then .refuseAt sFenced 0 9 else .refuseAt sBadState 0 r.ph.code)
        else if fenced then .doneAs sFenced 0 0 9 ((s.abandonInter h.unit).countErr h.chan.fn)
        else if fld p 0 1 = 1 then
          let t := s.restart s h.unit
          .doneAs sOk 0 0 (t.plainState h.unit) t
        else match State.applyAll at_ (s.stagedNow r) 0 s with
          | .error i => .refuse sBadParam i
          | .ok t =>
            if at_ ≠ 0 ∧ s.cue.st ≠ .none ∧ s.cue.pos < at_ * 65536 then
              .wait wAt h.unit ((s.upInter h.unit (fun r => { r with ph := .restarting, at_ := at_ })).note h.unit 0x0010 0 4 5)
            else if t.modeWaits h.unit then .wait wMode (h.unit + 4294967296 * b2n (at_ != 0)) (t.modeHold h.unit)
            else
              let u := s.restart t h.unit
              .doneAs sOk (b2n (at_ != 0)) 0 (u.plainState h.unit) u }

/-- INTERMISSION_END. -/
def execIntermissionEnd (h : Hdr) (p : Bytes) (s : State) : Res := runPkt opIntermissionEnd h p s

/-- INTERMISSION_AT_REACHED: phase 0 of step AT; the settings take effect and the scope restarts (R90). Settings that no longer fit leave
the scope in INTERMISSION (R89). A cue that has fallen to NONE is a position that is not awaited: the settings take effect at once, with
DETAIL 1 (log entry 69). A change of mode that waits for dirty data keeps the scope RESTARTING, and the event that follows its
acknowledgement restarts the scope (R122). -/
def execIntermissionAtReached (scope : Nat) (s : State) : Res :=
  onMain s (fun s =>
    match s.interOn scope with
    | none => s
    | some r =>
      if r.ph = .restarting ∧ (s.cue.st = .none ∨ r.at_ * 65536 ≤ s.cue.pos) ∧ !s.modeWaits scope then
        let finish := fun (t : State) (status detail st : Nat) =>
          (t.cmd.waiting.filter (fun w => w.endsWith scope)).foldl (fun u w => u.finish w status (detail + w.aux / 4294967296) 0 st) t
        if s.allFenced scope then (finish (s.abandonInter scope) sFenced 0 9).goOn s
        else match State.applyAll r.at_ (s.stagedNow r) 0 s with
        | .ok t =>
          if t.modeWaits scope then t.modeHold scope
          else
            let u := s.restart t scope
            finish u sOk (b2n (s.cue.st == .none && r.at_ != 0)) (u.plainState scope)
        | .error i => finish (s.upInter scope (fun r => { r with ph := .intermission })) sBadParam i 4
      else s)

/-! ## BAR2 (R29, R32, R33, R455) -/

/-- What one byte of BAR2 reaches: GDDR7 that software sees, GDDR7 in a partition that is being reset, or nothing (R13). -/
inductive Bar2Byte where
  | mem (addr : Nat)
  | resetting
  | nothing
deriving DecidableEq, Repr

/-- What a GDDR7 address is to BAR2: a reserved range is nothing, which reads 0, ignores writes and raises no error (R13, R29, R32, R33). -/
def State.bar2Byte (s : State) (a : Nat) : Bar2Byte :=
  match s.partOf a with
  | some .trace => if s.partResetting .trace then .resetting else .mem a
  | some .ckp => if s.partResetting .ckp then .resetting else .mem a
  | some .staging => if s.partResetting .staging then .resetting else .mem a
  | some .shuffle => if s.partResetting .shuffle then .resetting else .mem a
  | _ => .nothing

/-- What byte `off` of a function's BAR2 is: the PF's window, or a VF's own staging range (R29, R455). -/
def State.bar2At (s : State) (fn off : Nat) : Bar2Byte :=
  if fn = 0 then s.bar2Byte (s.glb.bar2Base / s.glb.bar2Gib * s.glb.bar2Gib * 1073741824 + off)
  else if off < (s.stagingRange fn).2 then s.bar2Byte ((s.stagingRange fn).1 + off)
  else .nothing

/-- Bytes of a function's BAR2. -/
def State.bar2Len (s : State) (fn : Nat) : Nat := if fn = 0 then s.glb.bar2Gib * 1073741824 else mib s.glb.vfBar2Mib

/-- A size change of BAR2 takes effect at the next memory access (R455). -/
def State.bar2Sized (s : State) : State := s.upGlb (fun g => { g with bar2Gib := g.bar2Next, vfBar2Mib := g.vfBar2Next })

/-- A read through BAR2: all ones from a partition in reset, 0 from what is reserved. -/
def State.bar2Read (s : State) (a : Access) : State :=
  let l := (List.range a.size).map (fun i => s.bar2At a.fn (a.off + i))
  let byte := fun (b : Bar2Byte) => match b with
    | .mem x => memGet s.gddr x
    | .resetting => 0xFF
    | .nothing => 0
  let t := (s.gRead (l.filter (fun b => b != .resetting && b != .nothing)).length).ao 12 a.size
  (if l.any (fun b => b == .resetting) then t.upRas (fun r => { r with cPart := satu 65535 (r.cPart + 1) }) else t).emit
    .barRead a.fn a.off 0 (l.map byte)

/-- A write through BAR2: what a partition in reset would take is discarded and counted. -/
def State.bar2Write (s : State) (a : Access) : State :=
  let l := (List.range a.data.length).map (fun i => s.bar2At a.fn (a.off + i))
  let t := if l.any (fun b => b == .resetting) then s.upRas (fun r => { r with cPart := satu 65535 (r.cPart + 1) }) else s
  (l.zip a.data).foldl (fun u e => match e.1 with
    | .mem x => u.gWrite x [e.2]
    | _ => u) t

/-- An access through BAR2 (R29, R32, R33, R455). -/
def State.bar2Do (s : State) (a : Access) : State :=
  if !(s.hostUp && s.fnEnabled a.fn) then s
  else if s.inFlr a.fn then s.emit .unsupported a.fn a.off 0 []
  else
    let t := s.bar2Sized
    if t.bar2Len a.fn < a.off + (if a.wr then a.data.length else a.size) then t
    else if !a.wr then t.bar2Read a
    else (t.ao 11 a.data.length).bar2Write a

/-- BAR2_ACCESS (R29, R32, R33, R455); held while a channel leaves the interleave (R350). -/
def execBar2Access (a : Access) (s : State) : Res :=
  .next (if s.memHeld then s.upRas (fun r => { r with heldUses := r.heldUses ++ [.bar2 a] }) else s.bar2Do a)

end Sys2Proof.Machine
end

