-- ==== Sys2Proof/Machine/SmOps.lean ====
section
/-!
DEFINITION. The stage manager's boot, its configuration store and its firmware banks (R478, R479, R486 to R491, R500 to R502).
-/
namespace Sys2Proof.Machine

open Sys2Proof

/-! ## Firmware banks (R478) -/

/-- The bytes of a firmware bank: 0 = A, 1 = B. -/
def Flash.fwBank (f : Flash) (n : Nat) : Bytes := if n = 0 then f.bankA else f.bankB

/-- Writes a firmware bank. -/
def State.putFwBank (s : State) (n : Nat) (b : Bytes) : State :=
  s.upFlash (fun f => if n = 0 then { f with bankA := b } else { f with bankB := b })

/-- The minimum stage manager SVN in force (R490). -/
def State.minSmSvn (s : State) : Nat := max (s.sm.cfg.minSm.getD (Config.factorySvn 5)) s.flash.otpSm

/-- Whether a bank's image is accepted (R478). -/
def State.fwBankOk (s : State) (n : Nat) : Bool :=
  Config.smImageSigned (s.flash.fwBank n) (Config.factoryDigest 0) && decide (s.minSmSvn ≤ Config.smImageSvn (s.flash.fwBank n))

/-! ## The configuration store (R487 to R491) -/

/-- A configuration bank, none when it is not valid. -/
def Flash.cfgBank (f : Flash) (n : Nat) : Option (Nat × CfgItems) := if n = 0 then f.cfg0 else f.cfg1

/-- Writes a configuration bank. -/
def State.putCfgBank (s : State) (n : Nat) (x : Option (Nat × CfgItems)) : State :=
  s.upFlash (fun f => if n = 0 then { f with cfg0 := x } else { f with cfg1 := x })

/-- The digests of a body that holds 32 bytes each. -/
def digests (b : Bytes) : List Bytes := (List.range (b.length / 32)).map (fun k => sub b (32 * k) 32)

/-- An item with its body replaced (Table 18.6). The body of a change of item 9 is a sensor number and its 16 bytes. -/
def CfgItems.put (c : CfgItems) (item : Nat) (b : Bytes) : CfgItems :=
  match item with
  | 1 => { c with opKey := b }
  | 2 => { c with mgrKey := b }
  | 3 => { c with fwKey := b }
  | 4 => { c with minStg := some (fld b 0 4) }
  | 5 => { c with minSm := some (fld b 0 4) }
  | 6 => { c with modKeys := digests b }
  | 7 => { c with signers := digests b }
  | 8 => { c with mgmt := b }
  | 9 =>
    let t := fun o => signed 32 (fld b o 4)
    { c with thr := aset c.thr (fld b 0 2) (t 2, t 6, t 10, t 14) }
  | 10 => { c with opCap := fld b 0 2, eprHold := fld b 2 2, thermStep := fld b 4 2, recover := fld b 6 2 }
  | _ => c

/-- The items of the current bank; the factory values when there is none (R490). -/
def State.storedItems (s : State) : CfgItems :=
  match s.flash.cfgBank s.sm.cfgBank with
  | some (_, c) => c
  | none => { mgmt := [] }

/-- The items after the changes of a bank write, in their order (R489). -/
def State.newItems (s : State) : CfgItems := s.sm.writing.foldl (fun c x => c.put x.item x.body) s.storedItems

/-- Whether a set of changes sets an item. -/
def setsItem (l : List StoreChange) (item : Nat) : Bool := l.any (fun x => x.item == item)

/-- The waiting changes begin to be written, if there are any (R489). -/
def State.storeNext (s : State) : State :=
  let t := s.upSm (fun m => { m with writing := m.waiting, waiting := [], wmiss := 0 })
  if t.sm.writing.isEmpty then t else t.storeOpen

/-- Code with which a change of an opcode class fails (R489). -/
def storeFailCode (cls : Nat) : Nat := if cls = 0x0A then 0x001B else if cls = 0x0C then 0x0019 else 0x0012

/-- Completes the command that asked for a change. -/
def State.changeEnd (s : State) (c : StoreChange) (status : Nat) : State :=
  s.finishAll (fun w => w.kind == wStore && w.aux == c.key) status 0 0

/-- A bank has compared correctly: it is current, its changes are in force and their commands complete (R489). A change of a minimum
SVN raises its OTP counter (R490); new management settings wait 1 s (R503). -/
def State.storeDone (s : State) : State :=
  let l := s.sm.writing
  let c := s.newItems
  let seq := s.sm.seq + 1
  let bank := s.storeTarget
  let t := s.putCfgBank bank (some (seq, c))
  let u := t.upSm (fun m =>
    { m with seq := seq, cfgBank := bank, cfg := { c with mgmt := m.cfg.mgmt },
             mgmtNew := if setsItem l 8 then some (c.mgmt, s.smNow + 1000000000) else m.mgmtNew })
  let v := u.upFlash (fun f =>
    { f with otpStg := if setsItem l 4 then max f.otpStg (c.minStg.getD 0) else f.otpStg,
             otpSm := if setsItem l 5 then max f.otpSm (c.minSm.getD 0) else f.otpSm })
  (l.foldl (fun t x => t.changeEnd x sOk) v).storeNext.iftCheck

/-- A bank compared wrongly twice: its changes are not made (R489). -/
def State.storeFailed (s : State) : State :=
  let l := s.sm.writing
  let t := s.upSm (fun m => { m with fails := satu 65535 (m.fails + l.length) })
  let u := t.record uDevice 0x0104 0 s.storeTarget 0 .health
  (l.foldl (fun t x => t.changeEnd x (storeFailCode x.cls)) u).storeNext

/-! ## Boot and restart (R478, R479, R490, R491) -/

/-- Kind of a command that waits for the stage manager to run; its answer is made then. -/
def wSm : Nat := 11

/-- The current configuration bank at boot: the valid one with the higher SEQ (R490). -/
def Flash.current (f : Flash) : Option (Nat × Nat × CfgItems) :=
  match f.cfg0, f.cfg1 with
  | some (a, x), some (b, y) => if a < b then some (1, b, y) else some (0, a, x)
  | some (a, x), none => some (0, a, x)
  | none, some (b, y) => some (1, b, y)
  | none, none => none

/-- Items 1, 2, 6 and 7 at their factory values (R491). -/
def CfgItems.provisioned (c : CfgItems) : CfgItems := { c with opKey := [], mgrKey := [], modKeys := [], signers := [] }

/-- Loads the configuration at boot (R490). With neither bank valid the next write goes to bank 0 with SEQ 1. -/
def State.loadCfg (s : State) : State :=
  match s.flash.current with
  | some (k, seq, c) => s.upSm (fun m => { m with cfgBank := k, seq := seq, cfg := c, cfgLost := false })
  | none => s.upSm (fun m => { m with cfgBank := 1, seq := 0, cfg := {}, cfgLost := true })

/-- The provisioning strap returns items 1, 2, 6 and 7 to their factory values at a power-up (R491). -/
def State.provision (s : State) : State :=
  if s.sm.prov then
    [1, 2, 6, 7].foldl (fun t i => t.storeAdd i [] 0x100) (s.upSm (fun m => { m with cfg := m.cfg.provisioned }))
  else s

/-- The stage manager stops, to start again from a bank: 1 = watchdog, 2 = activation, 3 = rollback (Table 18.13). -/
def State.smStop (s : State) (why bank : Nat) : State :=
  (s.upSm (fun m => { m with running := false, why := why, bank := bank, alertAt := s.smNow, actReq := none })).upCore smCore
    (fun c => { c with running := false })

/-- The health records that waited are logged and sent, and those lost are counted in one record (R479). -/
def State.drainQueue (s : State) : State :=
  let l := s.sm.queue
  let n := s.sm.qOver
  let t := l.foldl (fun t r => t.smHealth r) (s.upSm (fun m => { m with queue := [], qOver := 0 }))
  if n = 0 then t else t.record uDevice 0x0109 0 n 0 .health

/-- What the stage manager logs as it runs again (Table 18.13). -/
def State.bootRecords (s : State) (why oldSvn : Nat) : State :=
  let t := if s.sm.cfgLost ∧ why = 0 then s.record uDevice 0x0103 0 0 0 .health else s
  let u := if why = 0 then t else t.record uDevice 0x0105 0 why 0 .health
  if why = 3 then u.record uDevice 0x0107 0 oldSvn 0 .health else u

/-- The banks that the boot ROM tries: at power-up the active one and then the other; later the one to run and then the other. -/
def State.bootOrder (s : State) : List Nat :=
  let first := if s.sm.why = 0 then s.flash.active else s.sm.bank
  [first, 1 - first]

/-- The stage manager runs from a bank. -/
def State.smStart (s : State) (b : Nat) : State :=
  let why := s.sm.why
  let old := s.sm.svn
  let t := s.upSm (fun m =>
    { m with running := true, recovery := false, bank := b, svn := Config.smImageSvn (s.flash.fwBank b), why := 0,
             trial := why == 2 && b == m.bank, trialAt := s.smNow, wdAt := s.smNow, verified := m.verified && why != 2, alertLate := false,
             restarts := if why = 0 then m.restarts else satu 255 (m.restarts + 1) })
  let u := ((if why = 0 then t.provision else t).upPwr (fun p => { p with clearAt := s.smNow })).upCore smCore
    (fun _ => { running := true, startAt := s.now })
  ((u.drainQueue.bootRecords why old).declare).undeclare

/-- SM_BOOT: the boot ROM loads the firmware, or the stage manager enters RECOVERY and keeps the main domain unpowered (R478). -/
def State.smBoot (s : State) : State :=
  let t := if s.sm.why = 0 then s.loadCfg else s
  match t.bootOrder.find? t.fwBankOk with
  | some b => t.smStart b
  | none => (t.upSm (fun m => { m with recovery := true, bank := t.flash.active, why := 0 })).railsOff 1

/-! ## Activation (R501, R502) -/

/-- Whether activation may begin: 100 ms without an emergency while the stage manager ran, no stagehand handover or trial, and no
Tableau (R501, R516, R534). -/
def State.actClear (s : State) : Bool :=
  !s.pwr.emergency && decide (s.pwr.clearAt + 100000000 ≤ s.smNow) && s.stg.handover.isNone && !s.aon.tableau

/-- Activation begins: the stage manager restarts from the verified bank, on trial. -/
def State.actBegin (s : State) : State := s.smStop 2 (1 - s.sm.bank)

/-- The trial fails: the stage manager returns to the old bank (R502). -/
def State.smRollback (s : State) : State := (s.smStop 3 (1 - s.sm.bank)).upSm (fun m => { m with trial := false })

end Sys2Proof.Machine
end

