-- ==== Sys2Proof/Machine/Spdm.lean ====
section
/-!
DEFINITION. Identity, and the SPDM 1.2 responder (R2, R3, R492 to R494). The spec names the requests and what is negotiated; the layout of
the messages is DSP0274's (PRESUMED, log entry 34).
-/
namespace Sys2Proof.Machine

open Sys2Proof

/-! ## Identity (Tables 0.1, 1.10, 1.11) -/

/-- Part code. -/
def Part.code (p : Part) : Nat :=
  match p with
  | .a64 => 1 | .a48 => 2 | .x64 => 3

/-- GLB_ID. -/
def State.glbId (s : State) : Nat := s.glb.part.code + 0x0B00 * 2 ^ 16 + 0x4E4C * 2 ^ 48

/-- GLB_MODULE. -/
def State.glbModule (s : State) : Nat :=
  (2 ^ s.glb.part.channels - 1) + (if s.glb.part = .a48 then 2 else 4) * 2 ^ 16 + b2n (s.glb.part == .x64) * 2 ^ 24

/-! ## Measurements (R494) -/

/-- An item of the configuration store as its bank holds it (R487). -/
def itemBytes (n : Nat) (body : Bytes) : Bytes :=
  leBytes 2 n ++ leBytes 2 body.length ++ body ++ zeros ((8 - body.length % 8) % 8)

/-- Items 1 to 7 of a bank that are present. -/
def CfgItems.first7 (c : CfgItems) : Bytes :=
  let opt := fun (n : Nat) (b : Bytes) => if b.isEmpty then [] else itemBytes n b
  let svn := fun (n : Nat) (o : Option Nat) =>
    match o with
    | some v => itemBytes n (leBytes 4 v)
    | none => []
  opt 1 c.opKey ++ opt 2 c.mgrKey ++ opt 3 c.fwKey ++ svn 4 c.minStg ++ svn 5 c.minSm ++ opt 6 c.modKeys.flatten ++ opt 7 c.signers.flatten

/-- The digests of the loaded modules in class order. -/
def State.moduleDigests (s : State) : Bytes :=
  (List.range 16).flatMap (fun k => ((s.stg.modules.filter (fun m => m.cls == 0xE0 + k)).map (fun m => m.digest)).flatten)

/-- Measurement of an index (Table 18.8). -/
def State.measure (s : State) (i : Nat) : Bytes :=
  match i with
  | 1 => sha256 (s.flash.fwBank s.sm.bank)
  | 2 => if s.fwBankOk (1 - s.sm.bank) then sha256 (s.flash.fwBank (1 - s.sm.bank)) else zeros 32
  | 3 => (s.stg.image.map (fun m => m.digest)).getD (zeros 32)
  | 4 => match s.stg.usHdr with
    | some m => m.digest
    | none => if s.stg.understudy.isEmpty then zeros 32 else sha256 s.stg.understudy
  | 5 => sha256 s.moduleDigests
  | 6 => sha256 s.storedItems.first7
  | _ => leBytes 2 s.glb.part.code ++ leBytes 2 0x0B00 ++ leBytes 8 s.glbModule ++ leBytes 4 s.minStgSvn ++ leBytes 4 s.minSmSvn

/-- Kind of a measurement in the DMTF format: mutable firmware, firmware configuration, hardware configuration. -/
def measureKind (i : Nat) : Nat := if i ≤ 5 then 1 else if i = 6 then 3 else 2

/-- A measurement block. -/
def State.measureBlock (s : State) (i : Nat) : Bytes :=
  let v := s.measure i
  leBytes 1 i ++ [1] ++ leBytes 2 (v.length + 3) ++ leBytes 1 (measureKind i) ++ leBytes 2 v.length ++ v

/-! ## Messages -/

/-- Sends a message on a medium: 0 the data object exchange, 1 the lane, 2 I3C; `type` is the MCTP message type. -/
def State.smSend (s : State) (medium type : Nat) (b : Bytes) : State :=
  if medium = 0 then s.emit .doe 0 0 0 b else s.emit .mctp medium type 0 b

/-- The connection of a medium. -/
def State.conn (s : State) (medium : Nat) : Spdm := agetD s.sm.spdm medium {}

/-- Changes the connection of a medium. -/
def State.upConn (s : State) (medium : Nat) (f : Spdm → Spdm) : State :=
  s.upSm (fun m => { m with spdm := amod m.spdm medium {} f })

/-- An ERROR response. -/
def State.spdmError (s : State) (medium code : Nat) : State := s.smSend medium 5 [0x12, 0x7F, BitVec.ofNat 8 code, 0]

/-- UnsupportedRequest, with the code of the request (R493). -/
def State.spdmUnsupported (s : State) (medium : Nat) (req : Bytes) : State := s.smSend medium 5 [0x12, 0x7F, 0x07, BitVec.ofNat 8 (fld req 1 1)]

/-- Whether a medium answers a request code (R493): MCTP alone the last four. -/
def spdmServed (medium code : Nat) : Bool :=
  [0x84, 0xE1, 0xE3, 0x81, 0x82, 0x83, 0xE0].contains code || (medium != 0 && [0xE4, 0xE5, 0xE9, 0xEC].contains code)

/-- A request of another code than a row takes: one that the medium answers is another row's, any other is unsupported (R493). -/
def State.spdmOther (s : State) (medium : Nat) (req : Bytes) : State :=
  if spdmServed medium (fld req 1 1) then s else s.spdmUnsupported medium req

/-- ASCII bytes. -/
def ascii (t : String) : Bytes := t.toList.map (fun c => BitVec.ofNat 8 c.toNat)

/-- The device key's signature over a transcript, under the context DSP0274 1.2 gives. -/
def spdmSign (context : String) (transcript : Bytes) : Bytes :=
  let head := ascii "dmtf-spdm-v1.2.*"
  let c := ascii context
  Config.ecdsaSign (sha256 (head ++ head ++ head ++ head ++ zeros (36 - c.length) ++ c ++ sha256 transcript))

/-- Whether the stage manager takes a message of a medium now: it runs, and the host reaches the exchange (R479, R493). -/
def State.smHears (s : State) (medium : Nat) : Bool := s.sm.running && (medium != 0 || s.hostUp)

/-- Takes a request: its code and version are judged, then the order of the connection. -/
def State.spdmTake (s : State) (medium code ver need : Nat) (req : Bytes) (f : State → Spdm → State) : State :=
  if !s.smHears medium then s
  else if req.length < 4 then s.spdmError medium 0x01
  else if fld req 1 1 ≠ code then s.spdmOther medium req
  else if fld req 0 1 ≠ ver then s.spdmError medium 0x41
  else if (s.conn medium).st < need then s.spdmError medium 0x04
  else f s (s.conn medium)

/-- GET_VERSION: version 1.2 only; the connection begins anew. -/
def execGetVersion (medium : Nat) (req : Bytes) (s : State) : Res :=
  onAlways s (fun s => s.spdmTake medium 0x84 0x10 0 req (fun s _ =>
    let r : Bytes := [0x10, 0x04, 0, 0, 0, 1, 0, 0x12]
    (s.upConn medium (fun _ => { st := 1, vca := req ++ r })).smSend medium 5 r))

/-- Capability flags: certificates, challenge, signed measurements; over MCTP besides encryption, authentication, key exchange and key
update. -/
def spdmCaps (medium : Nat) : Nat := if medium = 0 then 0x16 else 0x42D6

/-- GET_CAPABILITIES. The times and sizes that it reports are not stated (log entry 3). -/
def execGetCapabilities (medium : Nat) (req : Bytes) (s : State) : Res :=
  onAlways s (fun s => s.spdmTake medium 0xE1 0x12 1 req (fun s _ =>
    let b := s.freeBytes 9
    let r := [0x12, 0x61, 0, 0, 0] ++ sub b 0 1 ++ [0, 0] ++ leBytes 4 (spdmCaps medium) ++ sub b 1 8
    (s.spent.upConn medium (fun c => { c with st := max c.st 2, vca := c.vca ++ req ++ r })).smSend medium 5 r))

/-- The algorithms negotiated (R493): DMTF measurements and SHA-256, ECDSA P-256, SHA-256, secp256r1, AES-256-GCM. -/
def spdmAlgorithms (medium : Nat) : Bytes :=
  let tail : Bytes := if medium = 0 then [] else [2, 0x20, 8, 0, 3, 0x20, 2, 0, 5, 0x20, 1, 0]
  [0x12, 0x63, (if medium = 0 then 0 else 3), 0] ++ leBytes 2 (36 + tail.length) ++ [1, 2] ++ leBytes 4 2 ++ leBytes 4 0x10 ++ leBytes 4 1 ++
    zeros 12 ++ [0, 0, 0, 0] ++ tail

/-- NEGOTIATE_ALGORITHMS. -/
def execNegotiateAlgorithms (medium : Nat) (req : Bytes) (s : State) : Res :=
  onAlways s (fun s => s.spdmTake medium 0xE3 0x12 2 req (fun s _ =>
    let r := spdmAlgorithms medium
    (s.upConn medium (fun c => { c with st := 3, vca := c.vca ++ req ++ r })).smSend medium 5 r))

/-- GET_DIGESTS: slot 0 alone holds a chain. -/
def execGetDigests (medium : Nat) (req : Bytes) (s : State) : Res :=
  onAlways s (fun s => s.spdmTake medium 0x81 0x12 3 req (fun s _ =>
    let r := [0x12, 0x01, 0, 1] ++ sha256 Config.certChain
    (s.upConn medium (fun c => { c with certs := c.certs ++ req ++ r })).smSend medium 5 r))

/-- GET_CERTIFICATE: a portion of the chain of slot 0. -/
def execGetCertificate (medium : Nat) (req : Bytes) (s : State) : Res :=
  onAlways s (fun s => s.spdmTake medium 0x82 0x12 3 req (fun s _ =>
    let off := fld req 4 2
    let all := Config.certChain
    if fld req 2 1 ≠ 0 ∨ req.length < 8 ∨ all.length < off then s.spdmError medium 0x01
    else
      let part := (all.drop off).take (fld req 6 2)
      let r := [0x12, 0x02, 0, 0] ++ leBytes 2 part.length ++ leBytes 2 (all.length - off - part.length) ++ part
      (s.upConn medium (fun c => { c with certs := c.certs ++ req ++ r })).smSend medium 5 r))

/-- Summary of the measurements that a request asks for. -/
def State.summary (s : State) (kind : Nat) : Bytes :=
  if kind = 0 then [] else sha256 ((List.range' 1 7).flatMap s.measureBlock)

/-- CHALLENGE: signed with the device key (R492). -/
def execChallenge (medium : Nat) (req : Bytes) (s : State) : Res :=
  onAlways s (fun s => s.spdmTake medium 0x83 0x12 3 req (fun s c =>
    if fld req 2 1 ≠ 0 ∨ req.length < 36 then s.spdmError medium 0x01
    else
      let r := [0x12, 0x03, 0, 1] ++ sha256 Config.certChain ++ s.freeBytes 32 ++ s.summary (fld req 3 1) ++ [0, 0]
      let g := spdmSign "responder-challenge_auth signing" (c.vca ++ c.certs ++ req ++ r)
      (s.spent.upConn medium (fun c => { c with certs := [] })).smSend medium 5 (r ++ g)))

/-- GET_MEASUREMENTS: signed ones alone are answered, every index at one instant (R493, R494). -/
def execGetMeasurements (medium : Nat) (req : Bytes) (s : State) : Res :=
  onAlways s (fun s => s.spdmTake medium 0xE0 0x12 3 req (fun s c =>
    let op := fld req 3 1
    if !bit (fld req 2 1) 0 then s.spdmUnsupported medium req
    else if req.length < 37 ∨ fld req 36 1 ≠ 0 ∨ (7 < op ∧ op ≠ 0xFF) then s.spdmError medium 0x01
    else
      let ix := if op = 0xFF then List.range' 1 7 else if op = 0 then [] else [op]
      let rec_ := ix.flatMap s.measureBlock
      let r := [0x12, 0x60, (if op = 0 then 7 else 0), 0] ++ leBytes 1 ix.length ++ leBytes 3 rec_.length ++ rec_ ++ s.freeBytes 32 ++ [0, 0]
      let g := spdmSign "responder-measurements signing" (c.vca ++ req ++ r)
      s.spent.smSend medium 5 (r ++ g)))

/-! ## Secured sessions (R493, R497) -/

/-- The smallest session ID not in use, from 1. -/
def State.freeSess (s : State) : Nat :=
  ((List.range' 1 5).find? (fun k => !(s.sm.sess.any (fun x => x.id == k)))).getD 1

/-- KEY_EXCHANGE: MCTP alone answers it, for up to four sessions; the ephemeral key, the random data and the verify data are the
engines' (log entry 3). -/
def execKeyExchange (medium : Nat) (req : Bytes) (s : State) : Res :=
  onAlways s (fun s => s.spdmTake medium 0xE4 0x12 3 req (fun s c =>
    if medium = 0 then s.spdmUnsupported medium req
    else if 4 ≤ s.sm.sess.length then s.spdmError medium 0x0A
    else if req.length < 104 ∨ fld req 3 1 ≠ 0 then s.spdmError medium 0x01
    else
      let id := s.freeSess
      let b := s.freeBytes 128
      let r := [0x12, 0x64, 0, 0] ++ leBytes 2 id ++ [0, 0] ++ sub b 0 96 ++ s.summary (fld req 2 1) ++ [0, 0]
      let g := spdmSign "responder-key_exchange_rsp signing" (c.vca ++ sha256 Config.certChain ++ req ++ r)
      (s.spent.upSm (fun m => { m with sess := m.sess ++ [{ id := id, medium := medium }] })).smSend medium 5 (r ++ g ++ sub b 96 32)))

/-- Ends an SPDM session, and with it the operator sessions whose opening it carried (R497). -/
def State.spdmEnd (s : State) (id : Nat) : State :=
  let t := s.upSm (fun m => { m with sess := m.sess.filter (fun x => x.id != id) })
  (t.cmd.sessions.filter (fun x => x.fn == 256 && x.spdm == id)).foldl (fun u x => u.endSession 256 x.handle) t

/-- A message inside a session: the session must be known, and stand before or after FINISH as asked. -/
def State.sessTake (s : State) (medium sess code : Nat) (live : Bool) (req : Bytes) (f : State → State) : State :=
  if !s.smHears medium then s
  else if medium = 0 then s.spdmUnsupported medium req
  else if !(s.sm.sess.any (fun x => x.id == sess && x.medium == medium && x.live == live)) then s.spdmError medium 0x02
  else if req.length < 4 ∨ fld req 0 1 ≠ 0x12 then s.spdmError medium 0x01
  else if fld req 1 1 ≠ code then s.spdmOther medium req
  else f s

/-- FINISH: the handshake is complete, or the session is given up. -/
def execFinish (medium sess : Nat) (req : Bytes) (s : State) : Res :=
  onAlways s (fun s => s.sessTake medium sess 0xE5 false req (fun s =>
    if Config.spdmFinishOk sess req then
      (s.upSm (fun m => { m with sess := lupd m.sess (fun x => x.id == sess) (fun x => { x with live := true }) })).smSend medium 6
        [0x12, 0x65, 0, 0]
    else (s.spdmEnd sess).spdmError medium 0x06))

/-- KEY_UPDATE. -/
def execKeyUpdate (medium sess : Nat) (req : Bytes) (s : State) : Res :=
  onAlways s (fun s => s.sessTake medium sess 0xE9 true req (fun s =>
    let op := fld req 2 1
    if op = 0 ∨ 3 < op then s.spdmError medium 0x01
    else
      (s.upSm (fun m => { m with sess := lupd m.sess (fun x => x.id == sess) (fun x =>
          { x with updates := if op = 3 then x.updates else x.updates + 1 }) })).smSend medium 6
        [0x12, 0x69, BitVec.ofNat 8 op, BitVec.ofNat 8 (fld req 3 1)]))

/-- END_SESSION: any operator session that it carried ends with it (R497). -/
def execEndSession (medium sess : Nat) (req : Bytes) (s : State) : Res :=
  onAlways s (fun s => s.sessTake medium sess 0xEC true req (fun s => ((s.smSend medium 6 [0x12, 0x6C, 0, 0]).spdmEnd sess).goOn s))

end Sys2Proof.Machine
end

