-- ==== Sys2Proof/Machine/Pldm.lean ====
section
/-!
DEFINITION. MCTP control, PLDM, the delivery of health records and the update of the stage manager over the management network (R495,
R496, R498 to R501). The spec names the message types and what they carry; the layout of the messages is the DMTF's (PRESUMED, log
entry 34).
-/
namespace Sys2Proof.Machine

open Sys2Proof

/-- Whether the management network is answered: the firmware runs, or in RECOVERY for what the boot ROM answers (R478, R479). -/
def State.mgmtHears (s : State) (medium : Nat) (rom : Bool) : Bool := medium != 0 && (s.sm.running || (rom && s.sm.recovery))

/-- The endpoint ID of a medium: the bus owner assigns it on I3C, item 8 gives it on the lane (R495). -/
def State.eid (s : State) (medium : Nat) : Nat :=
  if medium = 2 then agetD s.sm.eids 2 0 else if s.sm.cfg.mgmt.isEmpty then 0x10 else Config.mgmtEid s.sm.cfg.mgmt

/-- The MCTP message types that are accepted (R496); in RECOVERY control and PLDM (R478). -/
def State.msgTypes (s : State) : Bytes := if s.sm.running then [0x00, 0x01, 0x05, 0x06, 0x7E] else [0x00, 0x01]

/-- MCTP_CONTROL: Set and Get Endpoint ID, Get MCTP Version Support, Get Message Type Support; other commands are unsupported. -/
def execMctpControl (medium : Nat) (req : Bytes) (s : State) : Res :=
  onAlways s (fun s =>
    if !s.mgmtHears medium true ∨ req.length < 2 then s
    else
      let cmd := fld req 1 1
      let rsp := fun (t : State) (b : Bytes) => t.smSend medium 0 ([BitVec.ofNat 8 (fld req 0 1 % 32), BitVec.ofNat 8 cmd] ++ b)
      match cmd with
      | 1 =>
        let e := fld req 3 1
        if medium = 2 then rsp (s.upSm (fun m => { m with eids := aset m.eids 2 e })) [0, 0, BitVec.ofNat 8 e, 0]
        else rsp s [0, 0x10, BitVec.ofNat 8 (s.eid medium), 0]
      | 2 => rsp s [0, BitVec.ofNat 8 (s.eid medium), 0, 0]
      | 4 => rsp s.spent ([0, 1] ++ s.freeBytes 4)
      | 5 => rsp s ([0, BitVec.ofNat 8 s.msgTypes.length] ++ s.msgTypes)
      | _ => rsp s [5])

/-! ## PLDM (R498) -/

/-- A PLDM response with its completion code. -/
def State.pldmRsp (s : State) (medium type : Nat) (req : Bytes) (code : Nat) (b : Bytes) : State :=
  s.smSend medium type ([BitVec.ofNat 8 (fld req 0 1 % 32)] ++ sub req 1 2 ++ [BitVec.ofNat 8 code] ++ b)

/-- Bit mask of a list of numbers, in n bytes. -/
def maskOf (n : Nat) (l : List Nat) : Bytes := leBytes n ((l.map (fun k => 2 ^ k)).sum)

/-- The commands of a PLDM type. -/
def pldmCommands (type : Nat) : List Nat :=
  match type with
  | 0 => [1, 2, 3, 4, 5]
  | 2 => [0x04, 0x11, 0x51]
  | 4 => [0x01, 0x02]
  | 5 => [0x01, 0x02, 0x10, 0x13, 0x14, 0x15, 0x16, 0x17, 0x18, 0x1A, 0x1B, 0x1C, 0x1D]
  | _ => []

/-- The PLDM types served. -/
def State.pldmTypes (s : State) : List Nat := if s.sm.running then [0, 2, 4, 5] else [0, 5]

/-- PLDM_BASE. The version numbers of the types are not stated (log entry 3). -/
def execPldmBase (medium : Nat) (req : Bytes) (s : State) : Res :=
  onAlways s (fun s =>
    if !s.mgmtHears medium true ∨ req.length < 3 then s
    else
      let rsp := fun (t : State) (code : Nat) (b : Bytes) => t.pldmRsp medium 1 req code b
      match fld req 2 1 with
      | 1 => rsp (s.upSm (fun m => { m with tid := fld req 3 1 })) 0 []
      | 2 => rsp s 0 [BitVec.ofNat 8 s.sm.tid]
      | 3 => rsp s.spent 0 ([0, 0, 0, 0, 5] ++ s.freeBytes 8)
      | 4 => rsp s 0 (maskOf 8 s.pldmTypes)
      | 5 => rsp s 0 (maskOf 32 (pldmCommands (fld req 3 1)))
      | _ => rsp s 5 [])

/-- Operational state of a sensor as PLDM names it: enabled, unavailable, failed. -/
def State.pldmOpState (s : State) (n : Nat) : Nat :=
  match s.sensorStatus n with
  | 3 => 5
  | 4 => 2
  | _ => 0

/-- PLDM_PLATFORM: one numeric sensor per index of Table 18.3, and a PDR repository whose records are not stated (log entry 3). -/
def execPldmPlatform (medium : Nat) (req : Bytes) (s : State) : Res :=
  onAlways s (fun s =>
    if !s.mgmtHears medium false ∨ req.length < 3 then s
    else
      match fld req 2 1 with
      | 0x11 =>
        let n := fld req 3 2
        if 95 < n then s.pldmRsp medium 1 req 0x80 []
        else
          let st := s.sensorStatus n
          let v := (agetD s.sm.sensors n {}).val
          s.pldmRsp medium 1 req 0 ([5, BitVec.ofNat 8 (s.pldmOpState n), 0, BitVec.ofNat 8 (if st < 3 then st + 1 else 0), 0, 0] ++
            leBytes 4 (unsigned 32 v))
      | 0x51 => s.spent.pldmRsp medium 1 req 0 (zeros 8 ++ [5] ++ leBytes 2 (fld req 12 2) ++ s.freeBytes (fld req 12 2))
      | _ => s.pldmRsp medium 1 req 5 [])

/-- The part number (Table 0.1). -/
def Part.name (p : Part) : Bytes :=
  match p with
  | .a64 => ascii "MRL-DXL9-64A"
  | .a48 => ascii "MRL-DXL9-48A"
  | .x64 => ascii "MRL-DXL9-64X"

/-- A field of a FRU record. -/
def fruField (type : Nat) (b : Bytes) : Bytes := [BitVec.ofNat 8 type, BitVec.ofNat 8 b.length] ++ b

/-- The FRU record table: part number, serial number, stepping. -/
def State.fruTable (s : State) : Bytes :=
  leBytes 2 1 ++ [1, 3, 1] ++ fruField 3 s.glb.part.name ++ fruField 4 (leBytes 8 Config.serial) ++ fruField 10 (ascii "B0")

/-- PLDM_FRU. -/
def execPldmFru (medium : Nat) (req : Bytes) (s : State) : Res :=
  onAlways s (fun s =>
    if !s.mgmtHears medium false ∨ req.length < 3 then s
    else
      let t := s.fruTable
      match fld req 2 1 with
      | 1 => s.pldmRsp medium 1 req 0 ([1, 0] ++ leBytes 4 t.length ++ leBytes 4 t.length ++ leBytes 2 1 ++ leBytes 2 1 ++ leBytes 4 (crc32c t))
      | 2 => s.pldmRsp medium 1 req 0 ([0, 0, 0, 0, 5] ++ t)
      | _ => s.pldmRsp medium 1 req 5 [])

/-! ## Health records (R499) -/

/-- SET_EVENT_RECEIVER: names the receiver of health records; endpoint ID 0 names none. -/
def execSetEventReceiver (medium eid : Nat) (s : State) : Res :=
  onAlways s (fun s =>
    if !s.mgmtHears medium false then s
    else
      (s.upSm (fun m => { m with receiver := if eid = 0 then none else some (medium, eid) })).smSend medium 1 [0, 2, 4, 0])

/-- HEALTH_RESEND_TIMER: the oldest record in flight is acknowledged, or after 500 ms sent again, twice at most; then it stays in the log
and the failure is counted (R499). -/
def execHealthResendTimer (acked : Bool) (s : State) : Res :=
  onAlways s (fun s =>
    match s.sm.unacked with
    | [] => s
    | m :: rest =>
      if !s.sm.running then s
      else if acked then s.upSm (fun x => { x with unacked := rest })
      else if s.smNow < m.at_ + 500000000 then s
      else if 3 ≤ m.sends then s.upSm (fun x => { x with unacked := rest, ackFail := x.ackFail + 1 })
      else
        let t := s.upSm (fun x => { x with unacked := rest ++ [{ m with at_ := s.smNow, sends := m.sends + 1 }] })
        match s.sm.receiver with
        | some (medium, eid) => t.emit .mctp medium 1 eid (healthMsg m.rec_)
        | none => t)

/-! ## Firmware update (R500, R501) -/

/-- Whether an SPDM session carries an operator session (R498, R518). -/
def State.carriesOperator (s : State) (sess : Nat) : Bool :=
  s.sm.sess.any (fun x => x.id == sess && x.live) && s.cmd.sessions.any (fun x => x.fn == 256 && x.spdm == sess && x.role == .operator)

/-- Whether a Type 5 request is accepted: from a session that holds an operator session (R498), or in RECOVERY (R478). -/
def State.updateOk (s : State) (sess : Nat) : Bool := s.sm.recovery || s.carriesOperator sess

/-- The bank that is not running (R500). -/
def State.idleBank (s : State) : Nat := 1 - s.sm.bank

/-- The device asks for the next bytes of the image. -/
def State.askImage (s : State) (medium size got : Nat) : State :=
  s.smSend medium 6 ([0x80, 5, 0x15] ++ leBytes 4 got ++ leBytes 4 (min 1024 (size - got)))

/-- Bytes of the image arrive; the whole image is verified before the component is reported ready (R500). -/
def State.takeImage (s : State) (medium size : Nat) (got data : Bytes) : State :=
  let all := (got ++ data).take size
  let t := (s.putFwBank s.idleBank all).upSm (fun m => { m with update := some (size, all) })
  if all.length < size then t.askImage medium size all.length
  else
    let ok := t.fwBankOk t.idleBank
    let u := ((t.upSm (fun m => { m with update := none, verified := ok })).smSend medium 6 [0x80, 5, 0x16, 0]).smSend medium 6
      [0x80, 5, 0x17, BitVec.ofNat 8 (b2n (!ok))]
    if ok then u.smSend medium 6 [0x80, 5, 0x18, 0, 0, 0] else u

/-- PLDM_FIRMWARE_UPDATE: one component, 0x0001, of up to 16 MiB, written into the bank that is not running (R500). -/
def execPldmFirmwareUpdate (medium sess : Nat) (req : Bytes) (s : State) : Res :=
  onAlways s (fun s =>
    if !s.mgmtHears medium true ∨ req.length < 3 then s
    else if !s.updateOk sess then s.pldmRsp medium 6 req 1 []
    else
      match fld req 2 1 with
      | 0x01 => s.spent.pldmRsp medium 6 req 0 (s.freeBytes 16)
      | 0x02 => s.spent.pldmRsp medium 6 req 0 (s.freeBytes 32)
      | 0x10 =>
        if s.sm.update.isSome then s.pldmRsp medium 6 req 0x81 []
        else s.pldmRsp medium 6 req 0 [0, 0, 0]
      | 0x13 => s.pldmRsp medium 6 req 0 [0, 0]
      | 0x14 =>
        let size := fld req 12 4
        if fld req 5 2 ≠ 1 ∨ 16777216 < size ∨ s.sm.actReq.isSome then s.pldmRsp medium 6 req 0 ([1, 6] ++ zeros 6)
        else
          let t := (s.putFwBank s.idleBank []).upSm (fun m => { m with update := some (size, []), verified := false })
          (t.pldmRsp medium 6 req 0 ([0, 0] ++ zeros 6)).askImage medium size 0
      | 0x15 =>
        (match s.sm.update with
         | some (size, got) => s.takeImage medium size got (req.drop 4)
         | none => s)
      | 0x1B => s.spent.pldmRsp medium 6 req 0 (s.freeBytes 10)
      | 0x1C => (s.upSm (fun m => { m with update := none })).pldmRsp medium 6 req 0 []
      | 0x1D => (s.upSm (fun m => { m with update := none })).pldmRsp medium 6 req 0 (zeros 9)
      | _ => s.pldmRsp medium 6 req 5 [])

/-- ACTIVATE_FIRMWARE: asks for the verified bank to be run; it waits for clearance (R501). In the Tableau it is refused, and the bank stays
ready (R516). In RECOVERY the boot ROM tries the banks again, the verified one first. -/
def execActivateFirmware (medium sess : Nat) (req : Bytes) (s : State) : Res :=
  onAlways s (fun s =>
    if !s.mgmtHears medium true then s
    else if !s.updateOk sess then s.pldmRsp medium 6 req 1 []
    else if !s.sm.verified || s.aon.tableau || s.sm.actReq.isSome || s.sm.trial then s.pldmRsp medium 6 req 0x84 []
    else if s.sm.recovery then
      (s.pldmRsp medium 6 req 0 [0, 0]).upSm (fun m => { m with recovery := false, why := 2, bank := 1 - m.bank, alertAt := s.smNow })
    else (s.upSm (fun m => { m with actReq := some s.smNow })).pldmRsp medium 6 req 0 [60, 0])

end Sys2Proof.Machine
end

