-- ==== Sys2Proof/Machine/Regs.lean ====
section
/-!
DEFINITION. What a register of BAR0 is (R9 to R13, R27, R61), and how the host reads and writes one.
-/
namespace Sys2Proof.Machine

open Sys2Proof

/-- One 8-byte place of BAR0: a 64-bit register, or two 32-bit registers at offsets 0 and 4 of the place. -/
structure Reg where
  /-- It is one 64-bit register. -/
  wide : Bool := true
  /-- What it reads as. -/
  val : Nat := 0
  /-- The part of `val` that a write of the low half alone keeps: the RW fields (R27). -/
  rw : Nat := 0
  /-- Its contents are not valid, but for bit 0, which reads 0 (R504, R537). -/
  loose : Bool := false
  /-- A write of all 8 bytes is another command. -/
  whole : Bool := false
  /-- What a write does; none where it has no effect, or is a command of its own. -/
  put : Option (State → Nat → State) := none
  /-- What a write of the second 32-bit register does. -/
  hi : Option (State → Nat → State) := none
  /-- Clears its counters, where its chapter says that they are cleared as R61 states. -/
  clear : Option (State → State) := none

/-- A register from its fields, each with its width, from bit 0 up. -/
def cat : List (Nat × Nat) → Nat
  | [] => 0
  | (w, v) :: t => v % 2 ^ w + 2 ^ w * cat t

/-- A number that reads no more than its field holds. -/
def top (w v : Nat) : Nat := satu (2 ^ w - 1) v

/-- A mask with the bits that a test picks, of `n`. -/
def maskBits (n : Nat) (f : Nat → Bool) : Nat := ((List.range n).filter f).foldl (fun a k => a + 2 ^ k) 0

/-- Number of the entry of a table of registers that an offset names, from `base` on, `size` bytes an entry, `count` entries. -/
def slotOf (off base size count : Nat) : Option Nat :=
  if base ≤ off ∧ off < base + size * count then some ((off - base) / size) else none

/-- What is left of a value when the bits written as 1 clear a flag (Table 0.5). -/
def w1c (v n : Nat) (flag : Bool) : Bool := flag && !bit v n

/-- A host access to a function's registers: the link is up, the function is there and not in reset (R457). -/
def barAccess (a : Access) (s : State) (f : State → State) : Res :=
  if a.wr then barWrite a.fn a.off a.size s f
  else .next (if !(s.hostUp && s.fnEnabled a.fn) then s else if s.inFlr a.fn then s.emit .unsupported a.fn a.off 0 [] else f s)

/-- The high word latched by a read of the low word (R27). -/
def State.latchedWord (s : State) (fn off : Nat) : Option Nat := (s.glb.latchedHi.find? (fun w => w.fn == fn && w.off == off)).map (fun w => w.val)

/-- Latches the high word of a register, or drops it (R27). -/
def State.latchWord (s : State) (fn off : Nat) (v : Option Nat) : State :=
  s.upGlb (fun g =>
    let l := g.latchedHi.filter (fun w => !(w.fn == fn && w.off == off))
    { g with latchedHi := match v with
                          | some x => l ++ [{ fn := fn, off := off, val := x }]
                          | none => l })

/-- The value a register answers now: one whose contents are not valid answers a free value (log entry 3). -/
def Reg.now (r : Reg) (s : State) : Nat := if r.loose then s.freeNat (2 ^ 64) / 2 * 2 else r.val

/-- A read of a register (R27). -/
def State.regRead (s : State) (a : Access) (r : Reg) : State :=
  let off := a.off / 8 * 8
  let v := r.now s
  let t := if r.loose then s.spent else s
  let answer := fun (u : State) (x : Nat) => (u.ao 12 a.size).emit .barRead a.fn a.off x []
  if a.size = 8 then answer t v
  else if a.off = off then answer (if r.wide then t.latchWord a.fn off (some (v / 2 ^ 32)) else t) (v % 2 ^ 32)
  else if r.wide then
    match t.latchedWord a.fn off with
    | some h => answer (t.latchWord a.fn off none) h
    | none => answer t (v / 2 ^ 32)
  else answer t (v / 2 ^ 32)

/-- Does what a write does, where it does anything. -/
def orSame (f : Option (State → Nat → State)) (s : State) (v : Nat) : State :=
  match f with
  | some g => g s v
  | none => s

/-- A write of a register (R27). -/
def State.regWrite (s : State) (a : Access) (r : Reg) : State :=
  if r.wide then (if r.put.isSome then s.write64 a (a.off / 8 * 8) r.rw (fun t v _ => orSame r.put t v) else s)
  else if a.size = 8 then (if r.whole then s else orSame r.hi (orSame r.put s (a.val % 2 ^ 32)) (bits a.val 32 32))
  else if a.off % 8 = 0 then orSame r.put s (a.val % 2 ^ 32)
  else orSame r.hi s (a.val % 2 ^ 32)

/-- An access to what an offset names: none is a reserved range, which reads 0 and ignores writes (R13); an access of another size or
alignment is not performed and is counted (R27). -/
def State.regAccess (s : State) (a : Access) (r : Option Reg) : State :=
  if !a.aligned then (if a.wr then s.accessError else (s.accessError.ao 12 a.size).emit .barRead a.fn a.off 0 [])
  else match r with
    | none => if a.wr then s else (s.ao 12 a.size).emit .barRead a.fn a.off 0 []
    | some r => if a.wr then s.regWrite a r else s.regRead a r

end Sys2Proof.Machine
end

