-- ==== Sys2Proof/Machine/VfOps.lean ====
section
/-!
DEFINITION. Migration of a VF (R465 to R474): what a freeze stops and a resume releases, the saved image, and what a restore takes from
one. The spec lists what each section of an image holds and does not lay its body out: the objects of a body are an uninterpreted
function of its bytes (log entry 32).
-/
namespace Sys2Proof.Machine

open Sys2Proof

/-- The body of a section of an image, by its type and the objects saved (R469, log entry 32). -/
opaque vfBody : Nat → VfSaved → Bytes

/-- The objects that the section bodies of an image of another device hold (R469, log entry 32). -/
opaque vfObjects : Bytes → VfSaved

/-! ## Freeze and resume (Table 17.9, R467, R473) -/

/-- Migration state of a VF; OFF where VF Enable and NumVFs do not cover it (Table 17.8). -/
def State.vfState (s : State) (v : Nat) : Nat := if s.fnEnabled v && v != 0 then (s.vf v).st else 0

/-- Commands of a queue pair that were fetched and not started are returned: the head is the slot of the first (R68, Table 17.9). -/
def State.unfetch (s : State) (k : Nat) : State :=
  match s.cmd.fetched.filter (fun f => f.hdr.onQp k && f.held.isNone) with
  | [] => s
  | f :: t =>
    (s.upQp k (fun q => { q with head := (f.sqHead + q.sqSize - f.hdr.slots) % q.sqSize, resv := q.resv - (t.length + 1) })).upCmd (fun c =>
      { c with fetched := c.fetched.filter (fun x => !(x.hdr.onQp k && x.held.isNone)) })

/-- A freeze begins (R467): nothing more is fetched, and streams stop at their next record boundary. -/
def State.vfFreeze (s : State) (v limitUs : Nat) : State :=
  let t := s.upVf v (fun x => { x with st := 3, freezeAt := s.now, freezeBy := if limitUs = 0 then none else some (s.now + 1000 * limitUs) })
  let u := (t.cmd.qps.filter (fun e => e.1 / 65536 == v)).foldl (fun u e => u.unfetch e.1) t
  u.shuFreeze v true

/-- Whether every row of Table 17.9 is done for a VF. -/
def State.vfQuiesced (s : State) (v : Nat) : Bool :=
  s.cmd.waiting.all (fun w => w.hdr.chan.fn != v) && s.cmd.fanouts.all (fun f => f.hdr.chan.fn != v) &&
    (s.ctrl v).ops.all (fun o => match o.kind with | .held => true | _ => false) &&
    s.tap.runs.all (fun r => r.fn != v || (r.queue.isSome && !r.begun)) &&
    s.feed.rings.all (fun e => e.2.owner != v || e.2.issued.isEmpty) &&
    s.cip.units.all (fun u => (s.page u.page).owner != v)

/-- Applies a latched doorbell (R473). -/
def State.heldBell (s : State) (v : Nat) (e : Nat × Nat) : State :=
  if e.1 < 0x1000 then (if e.1 % 64 = 0 then s.sqTail v (e.1 / 64) e.2 else s.cqHeadTo v (e.1 / 64) e.2)
  else if e.1 % 8 = 0 then s.nvmeSqBell v ((e.1 - 0x1000) / 8) e.2
  else s.nvmeCqBell v ((e.1 - 0x1000) / 8) e.2

/-- Releases everything that a freeze stopped; every vector with an eligible source is told (R467, R473). -/
def State.vfRelease (s : State) (v : Nat) : State :=
  let bells := (s.vf v).heldBells
  let t := (s.upVf v (fun x => { x with st := 2, freezeBy := none, heldBells := [] })).shuFreeze v false
  let u := (bells.foldl (fun t e => t.heldBell v e) t).tapKick
  let w := (u.loom.jobs.filter (fun e => e.2.owner == v)).foldl (fun t e => t.weaveJob e.1) u
  (w.call.vecs.filter (fun e => e.1 / 2048 == v)).foldl (fun t e =>
    if (t.candidates (.vec e.1)).isEmpty then t else t.withObs (fun x => x.sendMsg e.1)) w

/-! ## The saved image (R469, Tables 17.10 and 17.11) -/

/-- A granule record: its offset in the range, the CRC of its data, and 64 KiB of data. -/
def State.granule (s : State) (v g : Nat) : Bytes :=
  let d := s.mem ((s.stagingRange v).1 + 65536 * g) 65536
  leBytes 8 (65536 * g) ++ leBytes 4 (crc32c d) ++ zeros 4 ++ d

/-- Bytes of a granule record. -/
def granuleLen : Nat := 65552

/-- A mailbox half (Table 17.7). -/
def MboxHalf.bytes (m : MboxHalf) : Bytes :=
  leBytes 4 m.seq ++ leBytes 2 m.len ++ leBytes 2 m.typ ++ leBytes 4 m.ack ++ zeros 4 ++ (List.range 1008).map (fun i => agetD m.body i 0)

/-- The mailbox half that bytes spell. -/
def MboxHalf.ofBytes (b : Bytes) : MboxHalf :=
  { seq := fld b 0 4, len := fld b 4 2, typ := fld b 6 2, ack := fld b 8 4,
    body := ((List.range 1008).map (fun i => (i, (b.drop (16 + i)).headD 0))).filter (fun e => e.2 != 0) }

/-- A section: TYPE, LEN and body, padded to 64 bytes. -/
def section17 (type : Nat) (body : Bytes) : Bytes :=
  let n := 8 + body.length
  padTo ((n + 63) / 64 * 64) (leBytes 2 type ++ zeros 2 ++ leBytes 4 body.length ++ body)

/-- What a VF's image holds (Table 17.11): everything the device holds for it but its staging range. -/
def State.vfCollect (s : State) (v : Nat) : VfSaved :=
  let x := s.vf v
  let ofV := fun {α : Type} (l : List (Nat × α)) (owner : α → Nat) => l.filter (fun e => owner e.2 == v)
  let keys := s.cip.migKey.isSome
  let pages := (agetD s.cip.vfPages v []).map (fun k => s.page k)
  let la := agetD s.lat.order v []
  let so := agetD s.call.order v []
  { fnCmd := (aget s.cmd.fns v).toList, sessions := s.cmd.sessions.filter (fun y => y.fn == v),
    qps := (s.cmd.qps.filter (fun e => e.1 / 65536 == v)).map (fun e => (e.1 % 65536, e.2)), bells := x.heldBells,
    inters := s.cmd.inters.filter (fun r => r.fn == v && r.scope == uCtrl v),
    held := s.cmd.fetched.filter (fun f => f.hdr.chan.fn == v && f.held.isSome),
    ctrl := (aget s.sto.ctrls v).toList, nss := (s.sto.nss.filter (fun n => n.ctrl == v)).map (fun n => (n.nsid, n.mode, n.capacity)),
    pages := pages.map (fun k => if keys then k else { k with key := [] }), wrapped := keys && pages.any (fun k => !k.key.isEmpty),
    latches := la.map s.cell, srcs := so.map (fun k => agetD s.call.srcs k {}),
    vecs := (s.call.vecs.filter (fun e => e.1 / 2048 == v)).map (fun e => (e.1 % 2048, e.2)),
    rings := ((ofV s.feed.rings (·.owner)).filter (fun e => e.2.transport == 0)).map (fun e => (e.1, { e.2 with latch := la.idxOf e.2.latch })),
    streams := (ofV s.shu.streams (·.owner)).map (fun e => (e.1, e.2, agetD s.shu.streamx e.1 {})),
    progs := ofV s.tap.progs (·.owner), queues := ofV s.tap.queues (·.owner),
    jobs := (ofV s.loom.jobs (·.owner)).map (fun e => (e.1, e.2, s.jobX e.1)),
    cues := (ofV s.cue.events (·.fn)).map (fun e => (e.1, if e.2.kind = 1 then { e.2 with target := e.2.target - s.now } else e.2)),
    quotas := [x.qp, x.nvmeQp, x.streams, x.rings, x.cueEvents, x.programs],
    counts := [(agetD s.cip.vfPages v []).length, la.length, so.length] }

/-- Body of a section. -/
def State.saveBody (s : State) (v type : Nat) : Bytes :=
  if type = 12 then (s.vf v).toMgr.bytes ++ (s.vf v).toTenant.bytes else vfBody type (s.vfCollect v)

/-- The objects that section bodies hold: what was saved, for bodies that this device wrote (log entry 32). -/
def State.imageObjects (s : State) (b : Bytes) : VfSaved :=
  match s.host.images.find? (fun e => e.1 == b) with
  | some e => e.2
  | none => vfObjects b

/-- Begins a final save: header and sections are laid down and the granules picked (R469). -/
def State.saveBegin (s : State) (v : Nat) : State :=
  let x := s.vf v
  let bodies := (List.range' 1 13).map (fun k => (k, s.saveBody v k))
  let secs := bodies.flatMap (fun e => section17 e.1 e.2)
  let g := if x.everTracked then x.dirty.mergeSort (fun a b => decide (a ≤ b)) else List.range (16 * x.stagingMib)
  let len := 64 + secs.length + granuleLen * g.length + 8
  let head := leBytes 4 0x56465331 ++ leBytes 2 1 ++ leBytes 2 13 ++ leBytes 8 len ++ leBytes 2 v ++ zeros 2 ++ leBytes 4 x.stagingMib ++
    leBytes 16 s.stg.grant ++ leBytes 8 Config.serial ++ leBytes 8 x.frozenCue ++ leBytes 8 x.frozenTime
  (s.upHost (fun h => { h with images := (bodies.flatMap (fun e => e.2), s.vfCollect v) :: h.images })).upVf v (fun x => { x with saveHead := head ++ secs, saveGran := g, saved := 0, saveCrc := 0 })

/-- Bytes of PART 1 but for its trailer. -/
def State.saveContent (s : State) (v : Nat) : Bytes := (s.vf v).saveHead ++ (s.vf v).saveGran.flatMap (s.granule v)

/-- Writes the next chunk of a final save: the state, the bytes written, and whether more remains. -/
def State.saveChunk (s : State) (fn v addr len : Nat) : State × Nat × Bool :=
  let t := if (s.vf v).saveHead.isEmpty then s.saveBegin v else s
  let x := t.vf v
  let c := t.saveContent v
  let a := (c.drop x.saved).take len
  let crc := crc32cFrom x.saveCrc a
  let b := if x.saved + a.length < c.length then [] else ((leBytes 4 crc ++ zeros 4).drop (x.saved + a.length - c.length)).take (len - a.length)
  let n := a.length + b.length
  ((t.hostWrite fn addr (a ++ b)).upVf v (fun x => { x with saved := x.saved + n, saveCrc := crc }), n, decide (x.saved + n < c.length + 8))

/-! ## Taking an image (R471, R472) -/

/-- The body of each section, by type; none where the sections do not fit. -/
def imageSections : Nat → Bytes → Option (List (Nat × Bytes) × Bytes)
  | 0, b => some ([], b)
  | n + 1, b =>
    let size := (8 + fld b 4 4 + 63) / 64 * 64
    if b.length < size then none
    else match imageSections n (b.drop size) with
      | none => none
      | some (l, r) => some ((fld b 0 2, sub b 8 (fld b 4 4)) :: l, r)

/-- Whether the header of an image suits a VF: its GRANT and its range are covered (R471). -/
def State.imageHeadOk (s : State) (v : Nat) (b : Bytes) : Bool :=
  fld b 0 4 == 0x56465331 && fld b 4 2 == 1 && fld b 24 16 &&& s.stg.grant == fld b 24 16 && decide (fld b 20 4 ≤ (s.vf v).stagingMib)

/-- Writes granule records into the staging range; none where one's CRC fails (R471). -/
def restoreGranules : Nat → State → Nat → Bytes → Option State
  | 0, s, _, _ => some s
  | n + 1, s, v, b =>
    let d := sub b 16 65536
    let off := fld b 0 8
    if d.length < 65536 ∨ crc32c d ≠ fld b 8 4 ∨ off % 65536 ≠ 0 ∨ mib (s.vf v).stagingMib < off + 65536 then none
    else
      restoreGranules n ((s.gWrite ((s.stagingRange v).1 + off) d).upVf v (fun x => { x with restored := ladd x.restored (off / 65536) })) v
        (b.drop granuleLen)

/-- The granule records that bytes hold; a record cut short fails. -/
def State.restoreRecords (s : State) (v : Nat) (b : Bytes) : Option State :=
  restoreGranules ((b.length + granuleLen - 1) / granuleLen) s v b

/-- A restore fails: everything restored is discarded and the VF is READY again (R471). -/
def State.restoreFail (s : State) (v : Nat) : State :=
  let t := (s.vf v).restored.foldl (fun t g => t.gClear ((t.stagingRange v).1 + 65536 * g) 65536) s
  t.upVf v (fun x => { x with st := 1, image := [], restored := [] })

/-- The first section whose check fails (R471): quotas and counts, attached namespaces, the migration key. -/
def State.sectionBad (s : State) (v : Nat) (o : VfSaved) : Option Nat :=
  let x := s.vf v
  let le := fun (a b : List Nat) => (a.zip b).all (fun e => decide (e.1 ≤ e.2))
  let mine := (s.sto.nss.filter (fun n => n.ctrl == v)).map (fun n => (n.nsid, n.mode, n.capacity))
  if !(o.nss.all (fun n => mine.contains n)) then some 3
  else if o.wrapped && s.cip.migKey.isNone then some 4
  else if !(le o.quotas [x.qp, x.nvmeQp, x.streams, x.rings, x.cueEvents, x.programs] &&
      le o.counts [(agetD s.cip.vfPages v []).length, (agetD s.lat.order v []).length, (agetD s.call.order v []).length]) then some 13
  else none

/-- Puts an object at its number, or at the least free one where another function holds it. -/
def putFree {α : Type} (m : List (Nat × α)) (e : Nat × α) : List (Nat × α) :=
  if ahas m e.1 then
    match freeKey m (m.length + 1) 0 with
    | some k => aset m k e.2
    | none => m
  else aset m e.1 e.2

/-- A restored stream: live input waits for the manager, any other resumes as a moved stream does (R472). -/
def Stream.restored (x : Stream) (v : Nat) : Stream :=
  { x with owner := v, shuttle := none, st := if x.st = stEnded ∨ x.st = stFailed then x.st else stMoving }

/-- The number that an object takes: its own, or the least free one where another function holds it. -/
def freeNo {α : Type} (m : List (Nat × α)) (n : Nat) : Nat := if ahas m n then (freeKey m (m.length + 1) 0).getD n else n

/-- Installs a saved ring (R325, R472): DETACHED and empty, bound to the latch that stands in the VF's order where its own stood. -/
def State.ringInstall (s : State) (v : Nat) (la : List Nat) (e : Nat × FRing) : State :=
  let n := freeNo s.feed.rings e.1
  let latch := la.getD e.2.latch latchCount
  let t := s.upFeed (fun f =>
    { f with rings := aset f.rings n { e.2 with owner := v, st := 2, prev := 0, issued := [], queue := [], redo := [], numbers := [], latch := latch } })
  if latch < latchCount then t.upCell latch (fun l => { l with bound := some n, tindex := n }) else t

/-- Installs a saved stream with a context of this device (R200, R472); where none is free it is FAILED (log entry 32). -/
def State.streamInstall (s : State) (v : Nat) (e : Nat × Stream × StreamX) : State :=
  let r := (s.ctxTake 4).getD (ctxTotal, s)
  let x := e.2.1.restored v
  let y := { x with ctx := r.1, st := if r.1 = ctxTotal then stFailed else x.st }
  let n := freeNo s.shu.streams e.1
  r.2.upShu (fun h => { h with streams := aset h.streams n y, streamx := aset h.streamx n { e.2.2 with frozen := true } })

/-- A restored Loom job: its resident samples are gone, and it fetches again from its cursors (R472). -/
def Job.restored (j : Job) (v : Nat) : Job :=
  { j with owner := v, samples := [], fetches := [], woven := [], holdFrom := [],
           fetchNext := (j.weaveNext.map (fun e => e.2)).foldl min j.fetchNext }

/-- A command packet of a function's queue pair, as one of the same pair of function `v`. -/
def onFn (h : Hdr) (v : Nat) : Hdr :=
  match h.chan with
  | .host _ q => { h with chan := .host v q }
  | _ => h

/-- The NVMe commands that an intermission held when a controller was saved (R93). -/
def heldOps (c : Ctrl) (v : Nat) : List NvmeOp := (c.ops.filter (fun o => o.kind == .held)).map (fun o => { o with fn := v })

/-- Installs the objects of an image (R472). -/
def State.vfInstall (s : State) (v : Nat) (o : VfSaved) (mbox : Bytes) : State :=
  let pg := agetD s.cip.vfPages v []
  let la := agetD s.lat.order v []
  let so := agetD s.call.order v []
  let t := s.upCmd (fun c =>
    { c with fns := o.fnCmd.foldl (fun m f => aset m v f) c.fns,
             sessions := c.sessions ++ o.sessions.map (fun x => { x with fn := v }),
             qps := o.qps.foldl (fun m e => aset m (qpKey v e.1) { e.2 with home := s.pickHome }) c.qps,
             inters := c.inters ++ o.inters.map (fun r => { r with fn := v, scope := uCtrl v }),
             fetched := c.fetched ++ o.held.map (fun f => { f with hdr := onFn f.hdr v, caller := { f.caller with fn := v, hfn := v } }) })
  let u := o.ctrl.foldl (fun t c =>
    match t.ctxTakeN 3 c.grant with
    | some (l, w) => w.upCtrl v (fun y => { c with grantCtx := l, quotaMib := y.quotaMib, ops := heldOps c v })
    | none => t.upCtrl v (fun y => { c with grant := 0, grantCtx := [], queues := [], quotaMib := y.quotaMib, ops := [] })) t
  let a := u.upCip (fun c => { c with pages := (pg.zip o.pages).foldl (fun m e =>
    aset m e.1 { e.2 with owner := v, st := if e.2.key.isEmpty then .empty else e.2.st }) c.pages })
  let b := a.upLat (fun l => { l with cells := (la.zip o.latches).foldl (fun m e => aset m e.1 { e.2 with owner := v, bound := none, guard := none }) l.cells })
  let c := b.upCall (fun k =>
    { k with srcs := (so.zip o.srcs).foldl (fun m e => aset m e.1 { e.2 with owner := v }) k.srcs,
             vecs := o.vecs.foldl (fun m e => aset m (vecKey v e.1) e.2) k.vecs })
  let d := (o.rings.filter (fun e => e.2.transport == 0)).foldl (fun t e => t.ringInstall v la e) c
  let e := o.streams.foldl (fun t x => t.streamInstall v x) d
  let f := e.upTap (fun p =>
    { p with progs := o.progs.foldl (fun m x => putFree m (x.1, { x.2 with owner := v })) p.progs,
             queues := o.queues.foldl (fun m x => putFree m (x.1, { x.2 with owner := v })) p.queues })
  let g := o.jobs.foldl (fun t x => t.upLoom (fun l =>
    { l with jobs := putFree l.jobs (x.1, x.2.1.restored v), jobx := putFree l.jobx (x.1, x.2.2) })) f
  let h := g.upEvents (fun l => o.cues.foldl (fun m x =>
    putFree m (x.1, { x.2 with fn := v, target := if x.2.kind = 1 then s.now + x.2.target else x.2.target })) l)
  h.upVf v (fun x =>
    { x with heldBells := o.bells, st := 4, image := [], toMgr := .ofBytes mbox, toTenant := .ofBytes (mbox.drop 1024), frozenCue := s.cuePos, frozenTime := s.now })

/-- What the last chunk of an image decides: its status, its DETAIL and the state (R471). -/
def State.vfRestoreEnd (s : State) (v : Nat) : Nat × Nat × State :=
  let b := (s.vf v).image
  let n := fld b 8 8
  match imageSections (fld b 6 2) ((b.take (n - 8)).drop 64) with
  | none => (0x0010, 0, s.restoreFail v)
  | some (l, recs) =>
    match s.restoreRecords v recs with
    | none => (sIntegrity, 0, s.restoreFail v)
    | some t =>
      let o := s.imageObjects (l.flatMap (fun e => e.2))
      if fld b (n - 8) 4 ≠ crc32c (b.take (n - 8)) then (sIntegrity, 0, t.restoreFail v)
      else match t.sectionBad v o with
        | some k => (0x0010, k, t.restoreFail v)
        | none => (sOk, 0, t.vfInstall v o (agetD l 12 []))

/-- Takes a chunk of an image (R471). -/
def State.restoreChunk (s : State) (v part : Nat) (data : Bytes) : Nat × Nat × State :=
  let t := s.upVf v (fun x => { x with st := 5 })
  if part = 0 then
    match t.restoreRecords v data with
    | none => (sIntegrity, 0, t.restoreFail v)
    | some u => (sOk, 0, u)
  else
    let u := t.upVf v (fun x => { x with image := x.image ++ data })
    let b := (u.vf v).image
    if b.length < 64 then (sOk, 0, u)
    else if !u.imageHeadOk v b ∨ fld b 8 8 < 72 then (0x0010, 0, u.restoreFail v)
    else if b.length < fld b 8 8 then (sOk, 0, u)
    else u.vfRestoreEnd v

end Sys2Proof.Machine
end

