-- ==== Sys2Proof/Machine/Vf.lean ====
section
/-!
DEFINITION. The class 0x0D opcodes and the events of migration (R460, R461, R464 to R475).
-/
namespace Sys2Proof.Machine

open Sys2Proof

/-- Class 0x0D commands name the device (Table 17.8). -/
def unitDevice (h : Hdr) (_ : State) : Bool := h.unit == 0

/-- FUNCTION of a class 0x0D command: 1 to 255. -/
def vfField (p : Bytes) : Nat × Bool := (0, decide (1 ≤ fld p 0 2) && decide (fld p 0 2 ≤ 255))

/-- A command judged against the state of the VF it names (R467, Table 17.8): INVALID_STATE with the VF's state, then
VF_NOT_ENABLED. -/
def onVf (s : State) (p : Bytes) (ok : Nat → Vf → Bool) (f : Nat → Vf → Verdict) : Verdict :=
  let v := fld p 0 2
  let st := s.vfState v
  if !(ok st (s.vf v)) then .refuseAt sBadState 0 st else if st = 0 then .refuse 0x0011 0 else f v (s.vf v)

/-! ## Resources (R460, R461) -/

/-- Whether a VF holds a stream, program, ring or Loom job (R461). -/
def State.vfHolds (s : State) (v : Nat) : Bool :=
  s.shu.streams.any (fun e => e.2.owner == v) || s.tap.progs.any (fun e => e.2.owner == v) || s.feed.rings.any (fun e => e.2.owner == v) ||
    s.loom.jobs.any (fun e => e.2.owner == v)

/-- Sum of a quota over the VFs but one, whose new value is added. -/
def State.quotaSum (s : State) (v new : Nat) (q : Vf → Nat) : Nat :=
  ((s.host.vfs.filter (fun e => e.1 != v)).map (fun e => q e.2)).sum + new

/-- Whether a staging range lies in the partition and meets no other VF's (R461). -/
def State.rangeFree (s : State) (v off size : Nat) : Bool :=
  decide (off + mib size ≤ s.partLen .staging) && s.host.vfs.all (fun e => e.1 == v || e.2.stagingMib == 0 || size == 0 ||
    decide (off + mib size ≤ e.2.stagingOff) || decide (e.2.stagingOff + mib e.2.stagingMib ≤ off))

/-- VF_SET_RESOURCES (Table 17.6, R460, R461). The PF's 256 queue pairs and 4,096 I/O queue pairs count towards the totals. -/
def opVfSetResources : OpSpec :=
  { code := 0x0D00, len := fun _ => 32, unitOk := unitDevice,
    fields := fun _ p =>
      [vfField p, (2, decide (fld p 2 2 ≤ 16)), (4, decide (fld p 4 2 ≤ 4096)), (6, decide (fld p 6 2 ≤ 16384)), (8, decide (fld p 8 2 ≤ 1024)),
       (10, decide (fld p 10 2 ≤ 4096)), (12, decide (fld p 12 1 ≤ 16)), (13, decide (fld p 13 1 ≤ 1)), rsv p 14 2,
       (16, !bit (fld p 13 1) 0 || fld p 16 8 % mib 64 == 0), (24, !bit (fld p 13 1) 0 || fld p 24 4 % 64 == 0), rsv p 28 4],
    run := fun _ _ p s =>
      let v := fld p 0 2
      let stage := bit (fld p 13 1) 0
      if stage && (s.vfState v != 1 || s.vfHolds v) then .refuseAt sBadState 0 (s.vfState v)
      else if 2048 < 256 + s.quotaSum v (fld p 2 2) (·.qp) ∨ 65536 < 4096 + s.quotaSum v (fld p 4 2) (·.nvmeQp) ∨
          16384 < s.quotaSum v (fld p 6 2) (·.streams) then noResource
      else onVf s p (fun _ _ => true) (fun v _ =>
        if stage && decide (s.glb.vfBar2Mib < fld p 24 4) then badParam 24
        else if stage && !s.rangeFree v (fld p 16 8) (fld p 24 4) then badParam 16
        else
          .ok ((s.upVf v (fun x =>
            let y := { x with qp := fld p 2 2, nvmeQp := fld p 4 2, streams := fld p 6 2, rings := fld p 8 2, cueEvents := fld p 10 2,
                              programs := fld p 12 1 }
            if stage then { y with stagingOff := fld p 16 8, stagingMib := fld p 24 4 } else y)).makeLive v)) }

/-- VF_SET_RESOURCES. -/
def execVfSetResources (h : Hdr) (p : Bytes) (s : State) : Res := runPkt opVfSetResources h p s

/-- The quotas of a VF and the use of each; FLAGS, and what the use of FUNCTION and of the staging range reads, is left open. -/
def State.resourceRecord (s : State) (v : Nat) : Bytes :=
  let x := s.vf v
  let quota := leBytes 2 v ++ leBytes 2 x.qp ++ leBytes 2 x.nvmeQp ++ leBytes 2 x.streams ++ leBytes 2 x.rings ++ leBytes 2 x.cueEvents ++
    [BitVec.ofNat 8 x.programs] ++ s.freeBytes 1 ++ zeros 2 ++ leBytes 8 x.stagingOff ++ leBytes 4 x.stagingMib ++ zeros 4
  let n := fun (k : Nat) => leBytes 2 (satu 65535 k)
  let open_ := s.freeBytes 16
  let use := sub open_ 1 2 ++ n (s.cmd.qps.filter (fun e => e.1 / 65536 == v)).length ++ n (s.ctrl v).grant ++ n (s.shu.streamsOf v) ++
    n (s.feed.rings.filter (fun e => e.2.owner == v)).length ++ n (s.cue.events.filter (fun e => e.2.fn == v)).length ++
    [BitVec.ofNat 8 (s.tap.progs.filter (fun e => e.2.owner == v)).length] ++ sub open_ 3 1 ++ zeros 2 ++ sub open_ 4 12 ++ zeros 4
  quota ++ use

/-- VF_GET_RESOURCES (Table 17.6). -/
def opVfGetResources : OpSpec :=
  { code := 0x0D01, result := true, len := fun _ => 16, unitOk := unitDevice, fields := fun _ p => [vfField p, rsv p 2 6],
    run := fun c _ p s => onVf s p (fun _ _ => true) (fun v _ =>
      .done sOk 0 (s.vfState v) (s.spent.hostWrite c.fn (fld p 8 8) (s.resourceRecord v))) }

/-- VF_GET_RESOURCES. -/
def execVfGetResources (h : Hdr) (p : Bytes) (s : State) : Res := runPkt opVfGetResources h p s

/-- VF_SET_MBOX (R464). -/
def opVfSetMbox : OpSpec :=
  { code := 0x0D02, len := fun _ => 8, unitOk := unitDevice, fields := fun _ p => [vfField p, rsv p 6 2],
    run := fun _ _ p s => onVf s p (fun _ _ => true) (fun v _ => .ok (s.upVf v (fun x => { x with pfSrc := fld p 2 2, vfSrc := fld p 4 2 }))) }

/-- VF_SET_MBOX. -/
def execVfSetMbox (h : Hdr) (p : Bytes) (s : State) : Res := runPkt opVfSetMbox h p s

/-! ## Dirty tracking (R465, R466) -/

/-- VFs that are tracked, but for one. -/
def State.trackedBut (s : State) (v : Nat) : Nat := (s.host.vfs.filter (fun e => e.1 != v && e.2.tracking)).length

/-- VF_TRACK: START needs a RUNNING VF and one of eight places; every mark has been written by the time SYNC is judged. -/
def opVfTrack : OpSpec :=
  { code := 0x0D03, len := fun _ => 32, unitOk := unitDevice,
    fields := fun _ p =>
      [vfField p, (2, decide (fld p 2 1 ≤ 2)), rsv p 3 5, (16, fld p 2 1 != 0 || fld p 16 8 % 4096 == 0),
       (24, fld p 2 1 != 0 || (fld p 24 8 % 4096 == 0 && decide (fld p 24 8 ≤ 2 ^ 40)))],
    run := fun _ _ p s =>
      let op := fld p 2 1
      onVf s p (fun st _ => op != 0 || st == 2) (fun v x =>
        match op with
        | 0 =>
          if 8 ≤ s.trackedBut v then noResource
          else .ok (s.upVf v (fun y =>
            { y with tracking := true, everTracked := true, mapAddr := fld p 8 8, hostBase := fld p 16 8, hostLen := fld p 24 8,
                     dirty := List.range (16 * x.stagingMib) }))
        | 1 => .ok s
        | _ => .ok (s.upVf v (fun y => { y with tracking := false }))) }

/-- VF_TRACK_START. -/
def execVfTrackStart (h : Hdr) (p : Bytes) (s : State) : Res := if fld p 2 1 = 1 ∨ fld p 2 1 = 2 then .next s else runPkt opVfTrack h p s

/-- VF_TRACK_SYNC. -/
def execVfTrackSync (h : Hdr) (p : Bytes) (s : State) : Res := if fld p 2 1 = 1 then runPkt opVfTrack h p s else .next s

/-- VF_TRACK_STOP. -/
def execVfTrackStop (h : Hdr) (p : Bytes) (s : State) : Res := if fld p 2 1 = 2 then runPkt opVfTrack h p s else .next s

/-! ## Freeze (R467, R468) -/

/-- VF_FREEZE. -/
def opVfFreeze : OpSpec :=
  { code := 0x0D04, len := fun _ => 8, unitOk := unitDevice, fields := fun _ p => [vfField p, rsv p 2 2],
    run := fun _ _ p s => onVf s p (fun st _ => st == 2) (fun v _ => .wait wFreeze v (s.vfFreeze v (fld p 4 4))) }

/-- VF_FREEZE. -/
def execVfFreeze (h : Hdr) (p : Bytes) (s : State) : Res := runPkt opVfFreeze h p s

/-- VF_FROZEN: every row of Table 17.9 is done (R467). -/
def execVfFrozen (vf : Nat) (s : State) : Res :=
  onMainIf s (s.vfState vf == 3 && s.vfQuiesced vf) (fun s =>
    (s.upVf vf (fun x => { x with st := 4, freezeBy := none, frozenCue := s.cuePos, frozenTime := s.now })).finishAll
      (fun w => w.kind == wFreeze && w.aux == vf) sOk 0 0)

/-- VF_FREEZE_DRAIN_LIMIT: BUSY_RETRY, and everything stopped resumes (R467). -/
def execVfFreezeDrainLimit (vf : Nat) (s : State) : Res :=
  onMainIf s (s.vfState vf == 3 && (s.vf vf).freezeBy.any (fun t => decide (t ≤ s.now))) (fun s =>
    (s.vfRelease vf).finishAll (fun w => w.kind == wFreeze && w.aux == vf) sBusy 0 0)

/-! ## Save (R469) -/

/-- The fields of VF_SAVE and VF_RESTORE. -/
def saveFields (_ : State) (p : Bytes) : List (Nat × Bool) :=
  [vfField p, (2, decide (fld p 2 1 ≤ 1)), rsv p 3 5, (8, fld p 8 8 % 4096 == 0), (16, decide (fld p 16 8 ≤ 2 ^ 30))]

/-- VF_SAVE: PART 0 writes the dirty granules that fit, in ascending order, and clears their bits; PART 1 writes the next bytes of the
final image, whose last chunk waits for the VF's dirty data. -/
def opVfSave : OpSpec :=
  { code := 0x0D05, result := true, len := fun _ => 24, unitOk := unitDevice, fields := saveFields,
    run := fun c _ p s =>
      let part := fld p 2 1
      onVf s p (fun st x => if part = 0 then (st == 2 || st == 4) && x.tracking else st == 4) (fun v x =>
        if part = 0 then
          let l := (x.dirty.mergeSort (fun a b => decide (a ≤ b))).take (fld p 16 8 / granuleLen)
          let t := (s.hostWrite c.fn (fld p 8 8) (l.flatMap (s.granule v))).upVf v (fun y => { y with dirty := y.dirty.filter (fun g => !l.contains g) })
          .done sOk (if (t.vf v).dirty.isEmpty then 0 else 1) (granuleLen * l.length) t
        else
          let r := s.saveChunk c.fn v (fld p 8 8) (fld p 16 8)
          if r.2.2 then .done sOk 1 r.2.1 r.1
          else
            let t := r.1.upVf v (fun y => { y with saveHead := [], saveGran := [], saved := 0, saveCrc := 0 })
            if t.sto.wbuf.any (fun b => b.dirty && b.ctrl == v) then .wait wSave (v + 256 * r.2.1) t
            else .done sOk 0 r.2.1 (t.upVf v (fun y => { y with tracking := false }))) }

/-- VF_SAVE_PRECOPY: PART 0. -/
def execVfSavePrecopy (h : Hdr) (p : Bytes) (s : State) : Res := if fld p 2 1 = 1 then .next s else runPkt opVfSave h p s

/-- VF_SAVE_FINAL: PART 1. -/
def execVfSaveFinal (h : Hdr) (p : Bytes) (s : State) : Res := if fld p 2 1 = 1 then runPkt opVfSave h p s else .next s

/-! ## Restore and resume (R471 to R473) -/

/-- VF_RESTORE: `data` is what the chunk's host memory holds. -/
def opVfRestore (data : Bytes) : OpSpec :=
  { code := 0x0D06, len := fun _ => 24, unitOk := unitDevice, fields := saveFields,
    run := fun c _ p s =>
      onVf s p (fun st x => st == 1 || (st == 5 && (fld p 2 1 == 1 || x.image.isEmpty))) (fun v _ =>
        let r := (s.hostRead c.fn (fld p 8 8) (fld p 16 8)).restoreChunk v (fld p 2 1) (padTo (fld p 16 8) data)
        .done r.1 r.2.1 0 r.2.2) }

/-- VF_RESTORE. -/
def execVfRestore (h : Hdr) (p data : Bytes) (s : State) : Res := runPkt (opVfRestore data) h p s

/-- VF_RESUME (R473): tracking ends, and a save in progress is abandoned. -/
def opVfResume : OpSpec :=
  { code := 0x0D07, len := fun _ => 8, unitOk := unitDevice, fields := fun _ p => [vfField p, rsv p 2 6],
    run := fun _ _ p s => onVf s p (fun st _ => st == 4) (fun v _ =>
      .ok ((s.upVf v (fun x => { x with tracking := false, everTracked := false, dirty := [], saveHead := [], saveGran := [], saved := 0,
                                        saveCrc := 0, restored := [] })).vfRelease v)) }

/-- VF_RESUME. -/
def execVfResume (h : Hdr) (p : Bytes) (s : State) : Res := runPkt opVfResume h p s

/-- VF_SET_MIG_KEY: 32 zero bytes remove the key (R470). -/
def opVfSetMigKey : OpSpec :=
  { code := 0x0D08, role := .operator, len := fun _ => 40, unitOk := unitDevice, fields := fun _ p => [(0, fld p 0 1 == 32), rsv p 1 7],
    run := fun _ _ p s =>
      let k := sub p 8 32
      .ok (s.upCip (fun c => { c with migKey := if k = zeros 32 then none else some k })) }

/-- VF_SET_MIG_KEY. -/
def execVfSetMigKey (h : Hdr) (p : Bytes) (s : State) : Res := runPkt opVfSetMigKey h p s

end Sys2Proof.Machine
end

