-- ==== Sys2Proof/Machine/RegMap.lean ====
section
/-!
DEFINITION. The register map of BAR0: the GLB, CUE, CALL, CMD, TAP and SHU blocks (Table 1.8, R60, R96, R216, R244, R274, R451, R476,
R504, R537, R550). Each definition takes the offset in its block.
-/
namespace Sys2Proof.Machine

open Sys2Proof

/-! ## GLB -/

/-- GLB_VF_STATv (Table 17.15). -/
def State.vfStatReg (s : State) (v : Nat) : Reg :=
  let x := s.vf v
  { val := cat [(3, s.vfState v), (1, b2n x.tracking), (1, b2n s.cip.migKey.isSome), (3, 0), (16, x.mboxRej), (16, x.frozenWr), (16, x.untracked)],
    clear := some (fun t => t.upVf v (fun y => { y with mboxRej := 0, frozenWr := 0, untracked := 0 })) }

/-- Registers of the stage manager and the power controller (Tables 18.10, 18.11, 20.7 to 20.9): valid only while it runs. -/
def State.smReg (s : State) (off : Nat) : Option Reg :=
  let m := s.sm
  let p := s.pwr
  let r := fun (l : List (Nat × Nat)) => some { val := cat l, loose := !m.running : Reg }
  match off with
  | 0x00 => r [(1, b2n m.running), (1, b2n m.recovery), (1, b2n m.cfgLost), (1, b2n m.emerg), (1, b2n m.prov), (1, m.bank), (1, b2n m.trial), (1, 0),
               (8, m.restarts), (32, m.svn)]
  | 0x08 => r [(32, m.seq), (1, m.cfgBank), (1, b2n (!m.writing.isEmpty)), (14, 0), (16, m.fails)]
  | 0x10 => r [(32, m.lost), (32, m.logFirst + m.log.length)]
  | 0x18 => r [(10, p.mean), (10, s.effCap), (3, s.pwrState), (1, b2n (!s.aon.eprN)), (4, p.mask), (4, 0), (3, p.step), (1, 0), (10, p.thermCap)]
  | 0x20 => r [(10, p.mgrCap), (6, 0), (10, m.cfg.opCap), (6, 0), (10, m.cfg.eprHold), (10, m.cfg.thermStep), (10, m.cfg.recover)]
  | 0x28 => r [(16, p.cEmerg), (16, p.cEpr), (32, top 32 (s.throttled / 1000000))]
  | _ => none

/-- GLB_SM_SENSn (Table 18.12): it holds its last value while the stage manager does not run. -/
def State.sensReg (s : State) (n : Nat) : Reg :=
  { val := cat [(32, unsigned 32 (agetD s.sm.sensors n {}).val), (2, if n < 64 then 0 else if n < 88 then 1 else 2), (3, s.sensorStatus n)] }

/-- Two dwords of a mailbox half (Table 17.7): SEQ and ACK are commands of their own; LEN, TYPE and BODY are written by the half's side. -/
def State.mboxReg (s : State) (fn v : Nat) (mgr : Bool) (o : Nat) : Reg :=
  let h := (s.vf v).half mgr
  let own := fun (f : MboxHalf → Nat → MboxHalf) (t : State) (x : Nat) =>
    if (aget t.host.vfs v).isNone then t else if mgr != (fn == 0) then t.mboxRefuse v else t.upVf v (fun y => y.upHalf mgr (fun h => f h x))
  let body := fun (at_ : Nat) (h : MboxHalf) (x : Nat) => { h with body := memPut h.body at_ (leBytes 4 x) }
  if o = 0 then
    { wide := false, whole := true, val := cat [(32, h.seq), (16, h.len), (16, h.typ)],
      hi := some (own (fun h x => { h with len := x % 65536, typ := x / 65536 % 65536 })) }
  else if o = 8 then { wide := false, whole := true, val := h.ack }
  else
    { wide := false, val := fld (memTake h.body (o - 16) 8) 0 8, put := some (own (body (o - 16))), hi := some (own (body (o - 12))) }

/-- Two dwords of the MSI-X table (R449, R456): the address, or the data and the Mask bit. -/
def State.msixReg (s : State) (k : Nat) (second : Bool) : Reg :=
  let v := agetD s.call.vecs k {}
  if second then
    { wide := false, val := cat [(32, v.data), (1, b2n v.masked)],
      put := some (fun t x => t.upVec k (fun v => { v with data := x })),
      hi := some (fun t x => let u := t.upVec k (fun v => { v with masked := bit x 0 }); if bit x 0 then u else u.sendHeld k) }
  else
    { wide := false, val := v.addr % 2 ^ 64,
      put := some (fun t x => t.upVec k (fun v => { v with addr := v.addr / 2 ^ 32 * 2 ^ 32 + x })),
      hi := some (fun t x => t.upVec k (fun v => { v with addr := v.addr % 2 ^ 32 + 2 ^ 32 * x })) }

/-- 64 bits of a Pending Bit Array (R449). -/
def State.pbaReg (s : State) (fn w : Nat) : Reg := { val := maskBits 64 (fun i => (agetD s.call.vecs (vecKey fn (64 * w + i)) {}).pba) }

/-- The GLB block of the PF (Tables 1.10 to 1.12, 21.13, 21.14, R456, R461, R476). -/
def State.glbReg (s : State) (off : Nat) : Option Reg :=
  let a := s.aon
  match off with
  | 0x00 => some { val := s.glbId }
  | 0x08 => some { val := s.glbModule }
  | 0x10 => some { val := s.glb.bar2Base, rw := s.glb.bar2Base, put := some (fun t v => t.upGlb (fun g => { g with bar2Base := v % 64 })) }
  | 0x18 => some { val := cat [(1, b2n a.strapProv), (1, b2n a.strapRstScope), (2, a.strapI3c), (1, b2n a.strapTest)] }
  | 0x20 => some { val := cat [(3, a.resetCause), (13, 0), (16, a.cold)] }
  | _ =>
    if 0x00010008 ≤ off ∧ off < 0x00010800 then some (s.vfStatReg ((off - 0x00010000) / 8))
    else if 0x00020000 ≤ off ∧ off < 0x00021000 then s.smReg (off - 0x00020000)
    else match slotOf off 0x00021000 8 96, slotOf off 0x00040000 16 2048, slotOf off 0x00048000 8 32 with
      | some n, _, _ => some (s.sensReg n)
      | _, some v, _ => some (s.msixReg (vecKey 0 v) (off % 16 == 8))
      | _, _, some w => some (s.pbaReg 0 w)
      | _, _, _ => (mboxAt 0 off).map (fun m => s.mboxReg 0 m.1 m.2.1 m.2.2)

/-- The GLB window of a VF (Table 1.9, R26, R456, R461, R476): GLB_ID and the copy of its own GLB_VF_STAT are read-only. -/
def State.vfGlbReg (s : State) (fn off : Nat) : Option Reg :=
  if off = 0 then some { val := s.glbId }
  else if off = 0x100 then some { val := (s.vfStatReg fn).val }
  else if off = 0x3000 then some (s.pbaReg fn 0)
  else match slotOf off 0x2000 16 64 with
    | some v => some (s.msixReg (vecKey fn v) (off % 16 == 8))
    | none => (mboxAt fn off).map (fun m => s.mboxReg fn m.1 m.2.1 m.2.2)

/-! ## CUE (R60) -/

/-- The cue block (Tables 2.7 to 2.12); CUE_SW_POS is a command of its own. -/
def State.cueReg (s : State) (off : Nat) : Option Reg :=
  let c := s.cue
  match off with
  | 0x00 => some { val := s.cuePos }
  | 0x08 =>
    some { wide := false,
           val := cat [(3, c.st.code), (2, c.src.code), (1, b2n c.hold), (1, b2n c.lostEv), (1, b2n c.genEv), (1, b2n c.jump), (1, b2n c.leadShort),
                       (8, c.fieldGen)],
           put := some (fun t v => t.upCue (fun c =>
             { c with lostEv := w1c v 6 c.lostEv, genEv := w1c v 7 c.genEv, jump := w1c v 8 c.jump, leadShort := w1c v 9 c.leadShort })) }
  | 0x10 =>
    let l := [(16, c.holdUs), (16, c.jumpPh), (16, c.maxUnc)]
    some { val := cat ((16, c.src.code) :: l), rw := cat ((16, 0) :: l),
           put := some (fun t v => t.upCue (fun c => { c with holdUs := bits v 16 16, jumpPh := bits v 32 16, maxUnc := bits v 48 16 })) }
  | 0x18 => some { val := cat [(32, c.lastNs), (32, c.meanNs)] }
  | 0x20 => some { val := s.now % 2 ^ 64 }
  | 0x28 => some { val := 0 }
  | 0x30 =>
    some { val := cat [(16, c.errCrc), (16, c.errBack), (16, c.errGen), (16, c.errUnc)],
           clear := some (fun t => t.upCue (fun c => { c with errCrc := 0, errBack := 0, errGen := 0, errUnc := 0 })) }
  | _ => none

/-! ## CALL (R451) -/

/-- A register of a panel (Table 16.5) over the sources of its bits. -/
def State.panelReg (s : State) (srcs : List Nat) (o : Nat) : Option Reg :=
  let m := fun (f : Nat → Bool) => some { val := maskBits 64 (fun i => (srcs[i]?).any f) : Reg }
  if o = 0x00 ∨ o = 0x08 ∨ o = 0x10 then m (fun n => (agetD s.call.srcs n {}).mask)
  else if o = 0x18 ∨ o = 0x20 ∨ o = 0x28 then m (fun n => if isLevel n then s.line n else (agetD s.call.srcs n {}).pend)
  else if o = 0x30 then m s.onStack
  else none

/-- CALL_SRCn (Table 16.6); a VF sees OWNER as 0 and writes VECTOR and PRIO only (R451). -/
def State.callSrcReg (s : State) (n : Nat) (vf : Bool) : Reg :=
  let c := agetD s.call.srcs n {}
  { val := cat [(2, c.target), (2, 0), (4, c.prio), (11, c.vector), (1, b2n (isLevel n)), (4, 0), (8, if vf then 0 else s.srcOwner n)],
    rw := cat [(2, c.target), (2, 0), (4, c.prio), (11, c.vector)],
    put := some (fun t v => t.reroute n (fun c =>
      { c with target := if vf then c.target else v % 4, prio := bits v 4 4, vector := bits v 8 11 })) }

/-- A place of a vector block (Table 16.7); CALL_V_TAKE and CALL_V_DONE are commands of their own. -/
def State.callVecReg (s : State) (k o : Nat) : Option Reg :=
  let v := agetD s.call.vecs k {}
  match o with
  | 0x00 =>
    let l := [(16, v.modUs), (8, v.modCnt), (4, v.prio)]
    some { val := cat l, rw := cat l,
           put := some (fun t x => t.watchVec k (fun v => { v with modUs := x % 65536, modCnt := bits x 16 8, prio := bits x 24 4 })) }
  | 0x08 => some { wide := false }
  | 0x10 =>
    let e := v.stack.headD (0x1FFF, 0)
    some { wide := false,
           val := cat [(13, e.1), (3, 0), (4, e.2), (5, v.stack.length), (1, b2n v.idle), (1, b2n (!(s.candidates (.vec k)).isEmpty)), (1, b2n v.fault)],
           put := some (fun t x => t.upVec k (fun v => { v with fault := w1c x 27 v.fault })) }
  | _ => none

/-- CALL_SHn (Table 16.8). -/
def State.callShReg (s : State) (n : Nat) : Reg :=
  let st := s.stackOf (.hand n)
  let e := st.headD (0x1FFF, 0)
  { val := cat [(13, e.1), (3, 0), (4, e.2), (5, st.length), (1, b2n (s.core n).waiting.isSome)] }

/-- The CALL block of the PF (Tables 16.4 to 16.8). -/
def State.callReg (s : State) (off : Nat) : Option Reg :=
  if off = 0x80000 then
    some { val := cat [(1, b2n s.call.fault), (15, 0), (16, s.call.shFault), (16, s.call.stray)],
           put := some (fun t v => t.upCall (fun c => { c with fault := w1c v 0 c.fault })) }
  else match s.panelAt 0 (0x00200000 + off), slotOf off 0x1000 8 4096, slotOf off 0x10000 32 2048, slotOf off 0x20000 8 16 with
    | some p, _, _, _ => s.panelReg p.2 (off % 64)
    | _, some n, _, _ => some (s.callSrcReg n false)
    | _, _, some v, _ => s.callVecReg (vecKey 0 v) (off % 32)
    | _, _, _, some n => some (s.callShReg n)
    | _, _, _, _ => none

/-- The CALL window of a VF (R451). -/
def State.vfCallReg (s : State) (fn off : Nat) : Option Reg :=
  match slotOf off 0 32 64, slotOf off 0x2000 8 128, s.panelAt fn (0x00100000 + off) with
  | some v, _, _ => s.callVecReg (vecKey fn v) (off % 32)
  | _, some j, _ => ((agetD s.call.order fn [])[j]?).map (fun n => s.callSrcReg n true)
  | _, _, some p => s.panelReg p.2 (off % 64)
  | _, _, _ => none

/-! ## CMD (R96) -/

/-- Stagehands in service, while an image runs. -/
def State.liveHands (s : State) : Nat := if s.stg.image.isSome then s.handsUp.length else 0

/-- A write of the admin queue's registers, discarded while CMD_CTRL.EN is 1 (R96). -/
def aqPut (fn : Nat) (f : FnCmd → Nat → FnCmd) : Option (State → Nat → State) :=
  some (fun t v => if (t.fnCmd fn).en then t else t.upFn fn (fun x => f x v))

/-- The CMD window of a function (Tables 3.13 to 3.17); CMD_TROUPE exists on the PF only, and CMD_CTRL.EN is written by commands of its
own. -/
def State.cmdReg (s : State) (fn off : Nat) : Option Reg :=
  let f := s.fnCmd fn
  match off with
  | 0x00 => some { wide := false, val := cat [(8, 1), (8, 2), (12, s.maxQp fn)] }
  | 0x08 => some { wide := false, val := b2n f.en }
  | 0x10 =>
    some { wide := false,
           val := cat [(1, b2n f.rdy), (1, b2n f.qerr), (1, b2n s.stg.image.isNone), (5, 0), (8, s.liveHands)],
           put := some (fun t v => t.upFn fn (fun x => { x with qerr := w1c v 1 x.qerr })) }
  | 0x18 => some { val := f.aqSq, rw := f.aqSq, put := aqPut fn (fun x v => { x with aqSq := v / 4096 * 4096 }) }
  | 0x20 => some { val := f.aqCq, rw := f.aqCq, put := aqPut fn (fun x v => { x with aqCq := v / 4096 * 4096 }) }
  | 0x28 =>
    some { wide := false, val := cat [(5, f.aqSqLog2), (3, 0), (5, f.aqCqLog2), (3, 0), (11, f.aqVec)],
           put := aqPut fn (fun x v => { x with aqSqLog2 := v % 32, aqCqLog2 := bits v 8 5, aqVec := bits v 16 11 }) }
  | 0x30 => some { wide := false, val := cat [(16, f.qerrQp), (8, f.qerrReason)] }
  | 0x38 =>
    if fn = 0 then some { wide := false, val := s.cmd.troupeMs, put := some (fun t v => t.upCmd (fun c => { c with troupeMs := v % 65536 })) }
    else none
  | _ => none

/-! ## TAP (R244, R274) -/

/-- The TAP block (Tables 8.11 to 8.13, 9.16 to 9.19). -/
def State.tapReg (s : State) (off : Nat) : Option Reg :=
  let x := s.tap
  match off with
  | 0x00 => some { val := maskBits 64 x.inSet.contains }
  | 0x08 => some { val := maskBits 64 s.unitFenced }
  | 0x10 => some { val := maskBits 64 x.testOut.contains }
  | 0x18 =>
    let r := x.runs.find? (fun r => x.cur == some r.id)
    let ready := (x.runs.filter (fun r => x.cur != some r.id && !r.ending && !r.hold)).length
    some { val := cat [(16, (r.map (fun r => r.prog)).getD 0xFFFF), (16, (r.map (fun r => r.op)).getD 0), (8, s.unitState uTapestry),
                       (7, x.inSet.length), (1, 0), (16, top 16 ready)] }
  | 0x20 =>
    some { wide := false, val := cat [(1, b2n x.evFence), (1, b2n x.evTest), (1, b2n x.evRec), (1, b2n x.evOver)],
           put := some (fun t v => t.upTap (fun x =>
             { x with evFence := w1c v 0 x.evFence, evTest := w1c v 1 x.evTest, evRec := w1c v 2 x.evRec, evOver := w1c v 3 x.evOver })) }
  | 0x28 =>
    some { val := cat [(32, x.repart), (32, x.abandon)], clear := some (fun t => t.upTap (fun x => { x with repart := 0, abandon := 0 })) }
  | 0x30 => some { val := x.powerW % 512 }
  | 0x100000 => some { val := cat [(8, 0x7F), (8, 64), (8, 64), (8, 64), (16, 3072), (12, 1600)] }
  | 0x100008 =>
    some { val := cat [(16, x.cViol), (16, x.cCharged), (16, x.cData), (16, x.cThird)],
           clear := some (fun t => t.upTap (fun x => { x with cViol := 0, cCharged := 0, cData := 0, cThird := 0 })) }
  | 0x100010 =>
    some { wide := false, val := cat [(1, b2n x.evViol), (1, b2n x.evData), (1, b2n x.evFail)],
           put := some (fun t v => t.upTap (fun x =>
             { x with evViol := w1c v 0 x.evViol, evData := w1c v 1 x.evData, evFail := w1c v 2 x.evFail })) }
  | _ => none

/-! ## SHU (R216) -/

/-- Clock of a shuttle in MHz: the throttle step's (Table 20.3) or what its rung leaves it (Table 12.4). -/
def State.shuttleMhz (s : State) (k : Nat) : Nat :=
  let step := match s.pwr.step with
    | 0 => 1200 | 1 => 1200 | 2 => 1200 | 3 => 1000 | 4 => 800 | 5 => 600 | _ => 400
  min step (1200 - 100 * rungSteps (s.rasUnit (64 + k)).rung)

/-- SHU_SH_STATn (Table 7.18): LOAD is the share of the last 1 ms that the cycles it decoded in took. -/
def State.shuttleReg (s : State) (k : Nat) : Reg :=
  let cycles := (((agetD s.shu.units k {}).busy.filter (fun e => decide (s.now < e.1 + 1000000))).map (fun e => e.2)).sum
  { val := cat [(8, s.unitState (unitId 2 k)), (15, (s.shu.streams.filter (fun e => e.2.shuttle == some k)).length), (1, 0),
                (8, min 100 (cycles * 100 / (1000 * s.shuttleMhz k))), (2, (s.rasUnit (64 + k)).rung - 3)] }

/-- SHU_MEL_CFGn (Table 7.17). -/
def MelCfg.reg (m : MelCfg) : Reg :=
  { val := cat [(2, m.fft), (6, 0), (8, m.bins), (12, m.win), (12, m.hop), (1, b2n m.bf16), (1, m.rate), (6, 0), (16, m.fmax)] }

/-- The SHU block (Tables 7.16 to 7.18). -/
def State.shuReg (s : State) (off : Nat) : Option Reg :=
  let x := s.shu
  if off = 0 then some { val := cat [(8, 64), (15, 16384), (15, 8192)] }
  else if off = 8 then some { val := cat [(15, x.streams.length), (15, x.channels)] }
  else if off = 0x10 then
    some { val := cat [(16, x.reparse), (16, x.attrib), (16, x.inCrc), (16, x.conceal)],
           clear := some (fun t => t.upShu (fun x => { x with reparse := 0, attrib := 0, inCrc := 0, conceal := 0 })) }
  else match slotOf off 0x100 8 4, slotOf off 0x1000 8 64 with
    | some n, _ => some (x.mel.getD n {}).reg
    | _, some k => some (s.shuttleReg k)
    | _, _ => none

end Sys2Proof.Machine
end

