-- ==== Sys2Proof/Machine/RegMap2.lean ====
section
/-!
DEFINITION. The register map of BAR0: the LOOM, FEED, NET, HED, CIP, STO, CKP, RAS, OBS, STG and LATCH blocks, and the map of the PF and
of a VF (Tables 1.8 and 1.9, R102, R129, R166, R187, R300, R309, R337, R366, R391, R411, R505, R506, R509, R522).
-/
namespace Sys2Proof.Machine

open Sys2Proof

/-! ## LOOM (R300) -/

/-- The LOOM block (Tables 10.13 to 10.15). -/
def State.loomReg (s : State) (off : Nat) : Option Reg :=
  let x := s.loom
  match off with
  | 0x00 =>
    some { val := cat [(8, s.unitState (unitId 3 0)), (7, x.jobs.length), (1, b2n x.stall), (13, (x.jobs.map (fun e => e.2.warps.length)).sum), (3, 0),
                       (24, (x.jobs.map (fun e => e.2.samples.length)).sum)] }
  | 0x08 =>
    some { wide := false, val := cat [(1, b2n x.evFill), (1, b2n x.evLate), (1, b2n x.evRescue), (1, b2n x.evGen)],
           put := some (fun t v => t.upLoom (fun x =>
             { x with evFill := w1c v 0 x.evFill, evLate := w1c v 1 x.evLate, evRescue := w1c v 2 x.evRescue, evGen := w1c v 3 x.evGen })) }
  | 0x10 =>
    some { val := cat [(16, x.cCheck), (16, x.cFlag), (16, x.cShape), (16, x.cLate)],
           clear := some (fun t => t.upLoom (fun x => { x with cCheck := 0, cFlag := 0, cShape := 0, cLate := 0 })) }
  | 0x18 =>
    some { val := cat [(16, x.cDup), (16, x.cUnder), (16, x.cRescue), (16, x.cFilled)],
           clear := some (fun t => t.upLoom (fun x => { x with cDup := 0, cUnder := 0, cRescue := 0, cFilled := 0 })) }
  | _ => none

/-! ## FEED (R337) -/

/-- FEED_ACC_STATa (Table 11.15). -/
def State.accReg (s : State) (a : Nat) : Reg :=
  let x := s.acc a
  { val := cat [(8, x.st), (1, b2n x.arriveEv), (1, b2n x.departEv), (1, b2n x.enumFail), (5, 0), (8, if x.owned then x.owner else 0), (4, x.speed),
                (4, x.width), (16, x.vendor), (16, x.device)],
    put := some (fun t v => t.upFeed (fun f => { f with accs := amod f.accs a {} (fun x =>
      { x with arriveEv := w1c v 8 x.arriveEv, departEv := w1c v 9 x.departEv, enumFail := w1c v 10 x.enumFail }) })) }

/-- The FEED block (Tables 11.14 to 11.18). -/
def State.feedReg (s : State) (off : Nat) : Option Reg :=
  let x := s.feed
  match off with
  | 0x800 =>
    some { wide := false,
           val := cat [(1, b2n x.evLate), (1, b2n x.evStale), (1, b2n x.evRedeliver), (1, b2n x.evLayout), (1, b2n x.evLayoutFail), (1, b2n x.evGen)],
           put := some (fun t v => t.upFeed (fun x =>
             { x with evLate := w1c v 0 x.evLate, evStale := w1c v 1 x.evStale, evRedeliver := w1c v 2 x.evRedeliver,
                      evLayout := w1c v 3 x.evLayout, evLayoutFail := w1c v 4 x.evLayoutFail, evGen := w1c v 5 x.evGen })) }
  | 0x808 =>
    some { val := cat [(16, x.cLate), (16, x.cStale), (16, x.cOrphan), (16, x.cRegather)],
           clear := some (fun t => t.upFeed (fun x => { x with cLate := 0, cStale := 0, cOrphan := 0, cRegather := 0 })) }
  | 0x810 =>
    some { val := cat [(16, x.cRedeliver), (16, x.cDup), (16, x.cRefused), (16, x.cOversize)],
           clear := some (fun t => t.upFeed (fun x => { x with cRedeliver := 0, cDup := 0, cRefused := 0, cOversize := 0 })) }
  | 0x818 => some { val := x.cUpstream, clear := some (fun t => t.upFeed (fun x => { x with cUpstream := 0 })) }
  | _ =>
    match slotOf off 0 0x40 4, slotOf off 0x400 8 8 with
    | some p, _ =>
      let y := s.feedPort p
      if off % 0x40 = 0 then some { val := cat [(1, b2n y.en), (1, b2n y.halved), (2, y.mps), (15, 0), (45, y.latchAddr / 2 ^ 19)] } else none
    | _, some a => some (s.accReg a)
    | _, _ => none

/-! ## NET and HED (R166) -/

/-- NET_PORT_STAT of a port (Table 5.21). -/
def State.portReg (s : State) (p : Nat) : Reg :=
  let up := fun (f : Port → Port) (t : State) => t.upNet (fun n => { n with ports := amod n.ports p {} f })
  let x := agetD s.net.ports p {}
  { val := cat [(8, x.st), (1, b2n x.upEv), (1, b2n x.downEv), (1, b2n x.fecDeg), (21, 0), (32, x.uncorr)],
    put := some (fun t v => up (fun x => { x with upEv := w1c v 8 x.upEv, downEv := w1c v 9 x.downEv, fecDeg := w1c v 10 x.fecDeg }) t),
    clear := some (up (fun x => { x with uncorr := 0 })) }

/-- The NET block (Tables 5.20 to 5.23); NET_EVQ_HEAD is written by a command of its own. -/
def State.netReg (s : State) (off : Nat) : Option Reg :=
  let x := s.net
  match off with
  | 0x000 =>
    let l := [(1, b2n x.pfcEn), (13, 0), (16, x.fecLimit)]
    some { val := cat ((2, x.mode) :: l), rw := cat ((2, 0) :: l),
           put := some (fun t v => t.upNet (fun x => { x with pfcEn := bit v 2, fecLimit := bits v 16 16 })) }
  | 0x200 =>
    some { val := cat [(13, x.badOp), (13, x.access), (13, x.mbox), (13, x.dup), (12, x.evqDrop)],
           clear := some (fun t => t.upNet (fun x => { x with badOp := 0, access := 0, mbox := 0, dup := 0, evqDrop := 0 })) }
  | 0x208 =>
    some { val := cat [(21, s.ctx.free), (17, s.ctx.pinned.length), (1, b2n s.ctx.low)],
           put := some (fun t v => t.upCtx (fun c => { c with low := w1c v 38 c.low })) }
  | 0x210 => some { wide := false }
  | _ =>
    match slotOf off 0x100 8 16 with
    | some p => if p < x.portCount then some (s.portReg p) else none
    | none => none

/-- The HED block (Tables 5.24 and 5.25). -/
def State.hedReg (s : State) (off : Nat) : Option Reg :=
  let x := s.hed
  match off with
  | 0x00 =>
    some { val := cat [(1, b2n (!x.nodes.isEmpty)), (1, b2n x.nodes.isEmpty), (1, b2n x.learnFail), (29, 0), (32, x.flows.length)],
           put := some (fun t v => t.upHed (fun x => { x with learnFail := w1c v 2 x.learnFail })) }
  | 0x08 =>
    some { val := cat [(16, x.cParse), (16, x.cNoDest), (16, x.cLearn), (16, x.cRecirc)],
           clear := some (fun t => t.upHed (fun x => { x with cParse := 0, cNoDest := 0, cLearn := 0, cRecirc := 0 })) }
  | 0x10 =>
    let v := cat [(32, x.seed), (16, x.ageS)]
    some { val := v, rw := v, put := some (fun t v => t.upHed (fun x => { x with seed := v % 2 ^ 32, ageS := bits v 32 16 })) }
  | _ => none

/-! ## CIP (R187) -/

/-- Code of a key page's state (Table 6.3). -/
def KpState.code (k : KpState) : Nat :=
  match k with
  | .empty => 0 | .ready => 1 | .exhausted => 2 | .zeroising => 3

/-- A register of a key page (Tables 6.9 to 6.12). -/
def State.keyPageReg (s : State) (k o : Nat) : Option Reg :=
  let x := s.page k
  match o with
  | 0x000 =>
    some { val := cat [(2, x.st.code), (3, x.mode), (1, b2n x.key256), (1, b2n x.esn), (1, b2n x.tunnel), (1, b2n x.authEv), (1, b2n x.mismEv), (6, 0),
                       (8, x.owner)],
           put := some (fun t v => t.upPage k (fun x => { x with authEv := w1c v 8 x.authEv, mismEv := w1c v 9 x.mismEv })) }
  | 0x008 => some { val := x.seq % 2 ^ 64 }
  | 0x010 =>
    some { val := cat [(48, x.units), (16, x.drop)], clear := some (fun t => t.upPage k (fun x => { x with units := 0, drop := 0 })) }
  | 0x018 =>
    some { val := cat [(16, x.cAuth), (16, x.cReplay), (16, x.cNoKey), (16, x.cMism)],
           clear := some (fun t => t.upPage k (fun x => { x with cAuth := 0, cReplay := 0, cNoKey := 0, cMism := 0 })) }
  | _ => (slotOf o 0x100 8 16).map (fun w => { val := bits x.window (64 * w) 64 })

/-! ## STO (R102, R129) -/

/-- The NVMe register set of a controller (NVM Express 2.0, Table 4.2). Writes of CC that change EN or SHN, and doorbells, are commands
of their own. -/
def State.nvmeRegs (s : State) (fn off : Nat) : Option Reg :=
  let c := s.ctrl fn
  let up := fun (f : Ctrl → Nat → Ctrl) => some (fun (t : State) (v : Nat) => t.upCtrl fn (fun c => f c v))
  match off with
  | 0x00 =>
    let x := Config.nvmeCapRest
    some { val := cat [(16, 0x3FFF), (1, 1), (2, bits x 17 2), (5, 0), (8, 40), (4, 0), (1, bits x 36 1), (8, 1), (3, bits x 45 3), (4, 0), (4, 4),
                       (8, bits x 56 8)] }
  | 0x08 => some { wide := false, val := cat [(32, 0x00020000), (32, c.intms)], hi := up (fun c v => { c with intms := c.intms ||| v }) }
  | 0x10 =>
    some { wide := false, val := cat [(32, c.intms), (32, c.cc)], put := up (fun c v => { c with intms := c.intms &&& (2 ^ 32 - 1 - v) }),
           hi := up (fun c v => if bit v 0 == c.en && bits v 14 2 == c.shn then { c with cc := v } else c) }
  | 0x18 => some { wide := false, val := cat [(32, 0), (1, b2n c.rdy), (1, 0), (2, c.shst)] }
  | 0x20 => some { wide := false, val := cat [(32, 0), (32, c.aqa)], hi := up (fun c v => { c with aqa := v }) }
  | 0x28 => some { val := c.asq % 2 ^ 64, rw := c.asq % 2 ^ 64, put := up (fun c v => { c with asq := v }) }
  | 0x30 => some { val := c.acq % 2 ^ 64, rw := c.acq % 2 ^ 64, put := up (fun c v => { c with acq := v }) }
  | _ => none

/-- The STO window of a function (Tables 4.9 to 4.11 beyond the NVMe register set, on the PF only). -/
def State.stoReg (s : State) (fn off : Nat) : Option Reg :=
  let x := s.sto
  if fn = 0 ∧ off = 0x00100000 then
    some { val := cat [(22, x.dirtyBlk), (22, x.cleanBlk), (1, b2n (!x.spaceWaiters.isEmpty || x.ints.any (fun o => o.space))), (1, b2n (s.partResetting .wbuf)), (1, b2n x.wfail)],
           put := some (fun t v => t.upSto (fun x => { x with wfail := w1c v 46 x.wfail })) }
  else if fn = 0 ∧ off = 0x00100008 then
    let v := cat [(8, x.hiPct), (8, x.loPct), (16, x.ageMs)]
    some { val := v, rw := v, put := some (fun t v => t.upSto (fun x => { x with hiPct := v % 256, loPct := bits v 8 8, ageMs := bits v 16 16 })) }
  else if fn = 0 ∧ off = 0x00100010 then
    some { val := cat [(16, x.errXfer), (16, x.errRemote), (16, x.errReissue), (16, x.errLost)],
           clear := some (fun t => t.upSto (fun x => { x with errXfer := 0, errRemote := 0, errReissue := 0, errLost := 0 })) }
  else s.nvmeRegs fn off

/-! ## CKP (R391) -/

/-- The CKP block (Tables 13.16 and 13.17). -/
def State.ckpReg (s : State) (off : Nat) : Option Reg :=
  let x := s.ckp
  match off with
  | 0x00 =>
    let area := (x.areas.map (fun a => areaBytes a.setGib)).sum
    some { val := cat [(7, x.jobs.length), (1, 0), (8, (x.jobs.filter (fun e => e.2.capture.isSome)).length), (16, (s.ckpUsed + 1073741823) / 1073741824),
                       (16, top 16 ((area + 999999999) / 1000000000)), (1, b2n x.pbOk)] }
  | 0x08 =>
    some { wide := false,
           val := cat [(1, b2n x.evCommit), (1, b2n x.evAbandon), (1, b2n x.evSkip), (1, b2n x.evDrain), (1, b2n x.evWarn), (1, b2n x.evPbFail)],
           put := some (fun t v => t.upCkp (fun x =>
             { x with evCommit := w1c v 0 x.evCommit, evAbandon := w1c v 1 x.evAbandon, evSkip := w1c v 2 x.evSkip, evDrain := w1c v 3 x.evDrain,
                      evWarn := w1c v 4 x.evWarn, evPbFail := w1c v 5 x.evPbFail })) }
  | 0x10 =>
    some { val := cat [(16, x.cSkip), (16, x.cAbandon), (16, x.cDigest), (16, x.cDrainAb)],
           clear := some (fun t => t.upCkp (fun x => { x with cSkip := 0, cAbandon := 0, cDigest := 0, cDrainAb := 0 })) }
  | _ => none

/-! ## RAS (R366) -/

/-- RAS_RUNGn (Table 12.16): absent channels read 0. -/
def State.rungReg (s : State) (n : Nat) : Reg :=
  let u := s.rasUnit n
  if s.unitThere n then
    { val := cat [(3, u.rung), (1, b2n u.fenced), (1, b2n u.held), (11, 0), (16, u.detected)],
      clear := some (fun t => t.upRasUnit n (fun u => { u with detected := 0 })) }
  else { clear := some (fun t => t) }

/-- The RAS block (Tables 12.13 to 12.16). -/
def State.rasReg (s : State) (off : Nat) : Option Reg :=
  let x := s.ras
  let units := (List.range 176).filter s.unitThere
  match off with
  | 0x00 =>
    some { val := cat [(1, b2n x.evSuspect), (1, b2n x.evFence), (1, b2n x.evReset), (1, b2n x.evTestFail), (1, b2n x.evHealth), (1, b2n x.degraded), (2, 0),
                       (8, (units.filter s.unitFenced).length),
                       (8, (units.filter (fun n => 0 < (s.rasUnit n).rung && !s.unitFenced n)).length)],
           put := some (fun t v => t.upRas (fun x =>
             { x with evSuspect := w1c v 0 x.evSuspect, evFence := w1c v 1 x.evFence, evReset := w1c v 2 x.evReset,
                      evTestFail := w1c v 3 x.evTestFail, evHealth := w1c v 4 x.evHealth })) }
  | 0x08 => some { val := cat [(16, x.cAccess), (16, x.cPart)], clear := some (fun t => t.upRas (fun x => { x with cAccess := 0, cPart := 0 })) }
  | 0x10 =>
    some { val := cat [(32, x.cCorr), (16, x.cUncorr), (16, x.cRetry)],
           clear := some (fun t => t.upRas (fun x => { x with cCorr := 0, cUncorr := 0, cRetry := 0 })) }
  | 0x18 => some { val := cat [(16, x.period), (5, x.vdrop), (3, x.clkPct), (1, b2n x.heat)] }
  | 0x20 =>
    some { val := cat [(16, x.passes), (16, x.fails), (6, x.lastCore), (1, b2n (!x.due.isEmpty && s.iftBlocked))],
           clear := some (fun t => t.upRas (fun x => { x with passes := 0, fails := 0 })) }
  | _ => (slotOf off 0x1000 8 176).map s.rungReg

/-! ## OBS (R505, R506, R509, R519, R522) -/

/-- A function counter (Table 19.3). -/
def State.fnCtrReg (s : State) (fn n : Nat) : Reg := { val := agetD s.obs.fn (fn * 16 + n) 0 }

/-- The OBS block (Tables 19.1, 19.6, 19.11, 19.13). -/
def State.obsReg (s : State) (off : Nat) : Option Reg :=
  let x := s.obs
  match off with
  | 0x100 =>
    some { wide := false, val := cat [(1, b2n x.evTrig), (1, b2n x.evStop), (1, b2n x.evOvf)],
           put := some (fun t v => t.upObs (fun x => { x with evTrig := w1c v 0 x.evTrig, evStop := w1c v 1 x.evStop, evOvf := w1c v 2 x.evOvf })) }
  | 0x108 => some { val := cat [(2, x.st), (30, 0), (32, x.dropped)] }
  | 0x200 => some { val := cat [(3, s.aon.tabCause), (3, s.aon.tabTrigger), (10, 0), (16, s.aon.tabCount)] }
  | _ =>
    match slotOf off 0 8 32, slotOf off 0x1000 16 64, slotOf off 0x00100000 8 4096 with
    | some n, _, _ => some { val := agetD x.ao n 0 }
    | _, some n, _ =>
      let g := agetD x.gctr n {}
      some { val := if off % 16 = 0 then cat [(2, g.mode), (14, 0), (16, g.event), (32, g.unit)] else g.count }
    | _, _, some k => some (s.fnCtrReg (k / 16) (k % 16))
    | _, _, _ => none

/-! ## STG (R411) -/

/-- The STG block (Tables 14.9 to 14.12); a write of STG_LOAD_CTRL with GO set is a command of its own. -/
def State.stgReg (s : State) (off : Nat) : Option Reg :=
  let x := s.stg
  let img := fun (f : ImgHdr → Nat) => (x.image.map f).getD 0
  match off with
  | 0x00 => some { val := x.loadAddr, rw := x.loadAddr, put := some (fun t v => t.upStg (fun x => { x with loadAddr := v / 4096 * 4096 })) }
  | 0x08 =>
    some { wide := false, val := cat [(24, x.loadLen), (4, 0), (4, x.status)],
           put := some (fun t v => if bit v 24 then t else t.upStg (fun x => { x with loadLen := v % 2 ^ 24 })) }
  | 0x10 => some { val := x.reqLo, rw := x.reqLo, put := some (fun t v => t.upStg (fun x => { x with reqLo := v })) }
  | 0x18 => some { val := x.reqHi, rw := x.reqHi, put := some (fun t v => t.upStg (fun x => { x with reqHi := v })) }
  | 0x20 => some { val := x.grant % 2 ^ 64 }
  | 0x28 => some { val := bits x.grant 64 64 }
  | 0x30 => some { val := img (fun h => h.offer % 2 ^ 64) }
  | 0x38 => some { val := img (fun h => bits h.offer 64 64) }
  | 0x40 =>
    some { wide := false, val := cat [(8, x.reqMin), (8, x.reqMax), (8, x.grantMin), (8, x.grantMax)],
           put := some (fun t v => t.upStg (fun x => { x with reqMin := v % 256, reqMax := bits v 8 8 })) }
  | 0x48 => some { wide := false, val := x.wdogMs, put := some (fun t v => t.upStg (fun x => { x with wdogMs := v % 1024 })) }
  | 0x50 =>
    some { wide := false,
           val := cat [(1, b2n x.image.isSome), (1, b2n x.usReady), (1, b2n x.trial), (1, b2n x.imgLost), (1, b2n x.evRestart), (1, b2n x.evFence),
                       (1, b2n x.evHandover), (1, b2n x.evRollback), (8, s.liveHands)],
           put := some (fun t v => t.upStg (fun x =>
             { x with evRestart := w1c v 4 x.evRestart, evFence := w1c v 5 x.evFence, evHandover := w1c v 6 x.evHandover,
                      evRollback := w1c v 7 x.evRollback })) }
  | 0x58 => some { val := cat [(32, img (fun h => h.svn)), (16, img (fun h => h.modAbi)), (16, img (fun h => h.recMax))] }
  | _ =>
    (slotOf off 0x1000 8 16).map (fun n =>
      { val := cat [(8, s.unitState (unitId 8 n)), (8, top 8 (s.homed n)), (16, (s.hand n).restarts), (10, (s.journal n).length)] })

/-! ## LATCH (R309) -/

/-- A register of a latch (Table 11.3); but for LATCH_STAT, writes are commands of their own. -/
def State.latchReg64 (s : State) (n o : Nat) : Option Reg :=
  let l := s.cell n
  match o with
  | 0x00 => some { val := l.val }
  | 0x08 => some { val := 0 }
  | 0x10 => some { val := 0 }
  | 0x18 => some { val := l.thresh }
  | 0x20 => some { val := l.cfg }
  | 0x28 =>
    some { val := cat [(1, b2n l.fired), (1, b2n l.refusedEv), (14, 0), (16, l.refused), (16, l.dup)],
           put := some (fun t v => t.upCell n (fun l => { l with fired := w1c v 0 l.fired, refusedEv := w1c v 1 l.refusedEv })) }
  | _ => none

/-! ## The map (Tables 1.8 and 1.9) -/

/-- A register of the PF's BAR0 (Table 1.8). -/
def State.pfReg (s : State) (off : Nat) : Option Reg :=
  if off < 0x00100000 then s.glbReg off
  else if off < 0x00200000 then s.cueReg (off - 0x00100000)
  else if off < 0x00300000 then s.callReg (off - 0x00200000)
  else if off < 0x00400000 then s.cmdReg 0 (off - 0x00300000)
  else if off < 0x00800000 then s.tapReg (off - 0x00400000)
  else if off < 0x00C00000 then s.shuReg (off - 0x00800000)
  else if off < 0x01000000 then s.loomReg (off - 0x00C00000)
  else if off < 0x01400000 then s.feedReg (off - 0x01000000)
  else if off < 0x01800000 then s.netReg (off - 0x01400000)
  else if off < 0x01C00000 then s.hedReg (off - 0x01800000)
  else if off < 0x02000000 then s.keyPageReg ((off - 0x01C00000) / 4096) (off % 4096)
  else if off < 0x02400000 then s.stoReg 0 (off - 0x02000000)
  else if off < 0x02800000 then s.ckpReg (off - 0x02400000)
  else if off < 0x02C00000 then s.rasReg (off - 0x02800000)
  else if off < 0x03000000 then s.obsReg (off - 0x02C00000)
  else if off < 0x03400000 then s.stgReg (off - 0x03000000)
  else (s.latchAt { fn := 0, off := off }).bind (fun e => s.latchReg64 e.1 e.2)

/-- A register of a VF's BAR0 (Table 1.9). -/
def State.vfReg (s : State) (fn off : Nat) : Option Reg :=
  if off < 0x00080000 then s.vfGlbReg fn off
  else if off < 0x00100000 then (if off = 0x00080000 then some { val := s.cuePos } else none)
  else if off < 0x00180000 then s.vfCallReg fn (off - 0x00100000)
  else if off < 0x00200000 then s.cmdReg fn (off - 0x00180000)
  else if off < 0x00280000 then s.stoReg fn (off - 0x00200000)
  else if off < 0x00300000 then
    match s.pageNamed fn ((off - 0x00280000) / 4096) with
    | some k => s.keyPageReg k (off % 4096)
    | none => none
  else if off < 0x00380000 then (s.latchAt { fn := fn, off := off }).bind (fun e => s.latchReg64 e.1 e.2)
  else (slotOf off 0x00380000 8 16).map (s.fnCtrReg fn)

/-- The register at an 8-byte place of a function's BAR0. -/
def State.reg (s : State) (fn off : Nat) : Option Reg := if fn = 0 then s.pfReg off else s.vfReg fn off

/-- Bytes of a function's BAR0 (Table 17.3). -/
def bar0Len (fn : Nat) : Nat := if fn = 0 then mib 64 else mib 4

/-- A read of the posting window of a function's BAR4 (R310): LATCH_VAL reads, 8 bytes at once or a half as it stands; every other offset
reads 0. -/
def State.bar4Read (s : State) (a : Access) : State :=
  let l := if a.off < 0x00100000 then none else s.latNamed a.fn ((a.off - 0x00100000) / 64)
  let v := match l with
    | some n => if (s.cell n).owner = a.fn ∧ a.off % 64 < 8 then (s.cell n).val else 0
    | none => 0
  let x := if a.size = 8 ∧ a.off % 8 = 0 then v else if a.size = 4 ∧ a.off % 8 = 0 then v % 2 ^ 32 else if a.size = 4 ∧ a.off % 8 = 4 then v / 2 ^ 32 else 0
  (s.ao 12 a.size).emit .barRead a.fn a.off x []

/-- REGISTER_WRITE (R27): a host access to BAR0, and a read of BAR4. A write that is a command of its own has no effect here. -/
def execRegisterWrite (a : Access) (s : State) : Res :=
  barAccess a s (fun t =>
    if a.bar = 0 then (if a.off < bar0Len a.fn then t.regAccess a (t.reg a.fn (a.off / 8 * 8)) else t)
    else if a.bar = 4 ∧ !a.wr then t.bar4Read a
    else t)

end Sys2Proof.Machine
end

