-- ==== Sys2Proof/Machine/Obs.lean ====
section
/-!
DEFINITION. The class 0x0B opcodes, the Tableau and its read-out (R505 to R522).
-/
namespace Sys2Proof.Machine

open Sys2Proof

/-! ## Snapshot areas (R507) -/

/-- OBS_SET_SNAP_AREA: a new area starts empty; the numbering of entries goes on. -/
def opObsSetSnapArea : OpSpec :=
  { code := 0x0B00, role := .tenant, len := fun _ => 16,
    fields := fun _ p => [(0, fld p 0 8 % 4096 == 0), (8, decide (4 ≤ fld p 8 1) && decide (fld p 8 1 ≤ 16)), rsv p 9 7],
    run := fun c _ p s => .ok (s.upObs (fun o => { o with snaps := aset o.snaps c.fn { base := fld p 0 8, log2 := fld p 8 1 } })) }

/-- OBS_SET_SNAP_AREA. -/
def execObsSetSnapArea (h : Hdr) (p : Bytes) (s : State) : Res := runPkt opObsSetSnapArea h p s

/-- OBS_SNAP_HEAD. -/
def opObsSnapHead : OpSpec :=
  { code := 0x0B01, role := .tenant, len := fun _ => 8, fields := fun _ p => [rsv p 4 4],
    run := fun c _ p s =>
      match aget s.obs.snaps c.fn with
      | none => badState
      | some a =>
        let n := 2 ^ a.log2
        let k := (fld p 0 4 + n - a.head) % n
        if n ≤ fld p 0 4 ∨ a.count < k then badParam 0
        else .ok (s.upObs (fun o => { o with snaps := aset o.snaps c.fn { a with head := fld p 0 4, count := a.count - k } })) }

/-- OBS_SNAP_HEAD. -/
def execObsSnapHead (h : Hdr) (p : Bytes) (s : State) : Res := runPkt opObsSnapHead h p s

/-! ## Programmable counters (R509) -/

/-- Unit class on which an event of Table 19.5 is counted. -/
def eventClass (e : Nat) : Option Nat :=
  match e with
  | 0x0001 => some 0 | 0x0002 => some 0 | 0x0003 => some 0 | 0x0004 => some 0 | 0x0010 => some 0 | 0x0011 => some 0
  | 0x0020 => some 10 | 0x0021 => some 10 | 0x0022 => some 10
  | 0x0030 => some 1 | 0x0031 => some 1
  | 0x0040 => some 2
  | 0x0050 => some 5 | 0x0051 => some 5
  | 0x0060 => some 6
  | 0x0070 => some 7
  | 0x0080 => some 8
  | 0x0090 => some 4
  | 0x00A0 => some 11
  | _ => none

/-- Whether a unit ID names units that this device has: one of Table 1.7, or the instance 0xFFF of one of its classes (R5, R22, R509,
R511). -/
def State.traceUnit (s : State) (u : Nat) : Bool := s.unitValid u || (uInst u == 0xFFF && (decide (uClass u ≤ 11) || uClass u == 15))

/-- OBS_SET_COUNTER. -/
def opObsSetCounter : OpSpec :=
  { code := 0x0B02, len := fun _ => 16,
    fields := fun s p =>
      [(0, decide (fld p 0 1 ≤ 63)), (1, decide (fld p 1 1 ≤ 2)), (2, (eventClass (fld p 2 2)).isSome),
       (4, s.traceUnit (fld p 4 4))],
    run := fun _ _ p s =>
      let g : GCtr := { mode := fld p 1 1, event := fld p 2 2, unit := fld p 4 4, count := 0, thresh := fld p 8 8 }
      if eventClass (fld p 2 2) ≠ some (uClass (fld p 4 4)) then badParam 2
      else .ok (s.upObs (fun o => { o with gctr := aset o.gctr (fld p 0 1) g })) }

/-- OBS_SET_COUNTER. -/
def execObsSetCounter (h : Hdr) (p : Bytes) (s : State) : Res := runPkt opObsSetCounter h p s

/-! ## Trace (R511 to R514) -/

/-- Offset of the first trigger of OBS_TRACE_CFG (Table 19.9). -/
def trigAt (p : Bytes) : Nat := 16 + 16 * fld p 3 1

/-- Filter `f` of OBS_TRACE_CFG. -/
def filterOf (p : Bytes) (f : Nat) : TFilter := { unit := fld p (16 + 16 * f) 4, lo := fld p (20 + 16 * f) 2, hi := fld p (22 + 16 * f) 2 }

/-- Trigger `t` of OBS_TRACE_CFG. -/
def trigOf (p : Bytes) (t : Nat) : TTrig :=
  let o := trigAt p + 32 * t
  { kind := fld p o 1, counter := fld p (o + 1) 1, code := fld p (o + 2) 2, unit := fld p (o + 4) 4, value := fld p (o + 8) 8, mask := fld p (o + 16) 8 }

/-- OBS_TRACE_CFG (Table 19.9): accepted only while the trace is IDLE or STOPPED. -/
def opObsTraceCfg : OpSpec :=
  { code := 0x0B03, len := fun p => 16 + 16 * fld p 3 1 + 32 * fld p 4 1,
    fields := fun s p =>
      [(0, decide (fld p 0 1 ≤ 1)), (1, decide (fld p 1 1 ≤ 100)), (2, decide (fld p 2 1 ≤ 2)), (3, decide (1 ≤ fld p 3 1) && decide (fld p 3 1 ≤ 16)),
       (4, decide (fld p 4 1 ≤ 8)), rsv p 5 11] ++
      (List.range (fld p 3 1)).flatMap (fun f => [(16 + 16 * f, s.traceUnit (fld p (16 + 16 * f) 4)), rsv p (24 + 16 * f) 8]) ++
      (List.range (fld p 4 1)).flatMap (fun t =>
        let o := trigAt p + 32 * t
        [(o, decide (fld p o 1 ≤ 3)), (o + 1, fld p o 1 != 3 || decide (fld p (o + 1) 1 ≤ 63)),
         (o + 4, (fld p o 1 != 1 && fld p o 1 != 2) || fld p (o + 4) 4 == 0xFFFFFFFF || s.traceUnit (fld p (o + 4) 4)), rsv p (o + 24) 8]),
    run := fun _ _ p s =>
      if s.obs.st = 1 ∨ s.obs.st = 2 then badState
      else
        .ok (s.upObs (fun o =>
          { o with mode := fld p 0 1, postPct := fld p 1 1, tabMode := fld p 2 1, filters := (List.range (fld p 3 1)).map (filterOf p),
                   trigs := (List.range (fld p 4 1)).map (trigOf p) })) }

/-- OBS_TRACE_CFG. -/
def execObsTraceCfg (h : Hdr) (p : Bytes) (s : State) : Res := runPkt opObsTraceCfg h p s

/-- OBS_TRACE_START: every record held is discarded, and the trace is ARMED (R512, R522). -/
def opObsTraceStart : OpSpec :=
  { code := 0x0B04, run := fun _ _ _ s => .ok (s.upObs (fun o => { o with recs := [], dropped := 0, st := 1, postLeft := 0 })) }

/-- OBS_TRACE_START. -/
def execObsTraceStart (h : Hdr) (p : Bytes) (s : State) : Res := runPkt opObsTraceStart h p s

/-- OBS_TRACE_STOP. -/
def opObsTraceStop : OpSpec := { code := 0x0B05, run := fun _ _ _ s => .ok (s.upObs (fun o => { o with st := 3 })) }

/-- OBS_TRACE_STOP. -/
def execObsTraceStop (h : Hdr) (p : Bytes) (s : State) : Res := runPkt opObsTraceStop h p s

/-- OBS_TRIGGER: pulses the trigger input (R511). -/
def opObsTrigger : OpSpec := { code := 0x0B06, run := fun _ _ _ s => if s.obs.st = 1 then .ok s.triggerInput else badState }

/-- OBS_TRIGGER. -/
def execObsTrigger (h : Hdr) (p : Bytes) (s : State) : Res := runPkt opObsTrigger h p s

/-- OBS_TRACE_READ: only in STOPPED; RESULT is the number of records copied (R514). -/
def opObsTraceRead : OpSpec :=
  { code := 0x0B07, result := true, len := fun _ => 24, fields := fun _ p => [rsv p 12 4],
    run := fun c _ p s =>
      if s.obs.st ≠ 3 then badState
      else
        let l := (s.obs.recs.drop (fld p 0 8)).take (fld p 8 4)
        .done sOk 0 l.length (if l.isEmpty then s else s.hostWrite c.fn (fld p 16 8) l.flatten) }

/-- OBS_TRACE_READ. -/
def execObsTraceRead (h : Hdr) (p : Bytes) (s : State) : Res := runPkt opObsTraceRead h p s

/-! ## Counters cleared (R521) -/

/-- OBS_CLEAR_COUNTERS: the register must be one that is cleared as R61 states. -/
def opObsClearCounters : OpSpec :=
  { code := 0x0B09, len := fun _ => 8, fields := fun _ p => [rsv p 4 4],
    run := fun _ _ p s =>
      match (if fld p 0 4 % 8 = 0 ∧ fld p 0 4 < bar0Len 0 then s.reg 0 (fld p 0 4) else none).bind (fun r => r.clear) with
      | some f => .ok (f s)
      | none => badParam 0 }

/-- OBS_CLEAR_COUNTERS. -/
def execObsClearCounters (h : Hdr) (p : Bytes) (s : State) : Res := runPkt opObsClearCounters h p s

/-! ## The Tableau (R515 to R518) -/

/-- What an OBS_TABLEAU that caused the freeze waits for: every domain stopped. -/
def wTableau : Nat := 90

/-- OBS_TABLEAU: enters the Tableau; the stage manager answers once every domain has stopped (R515, R517). -/
def opObsTableau : OpSpec := { code := 0x0B08, role := .operator, run := fun _ _ _ s => .wait wTableau 0 (s.enterTableau 2 0) }

/-- OBS_TABLEAU. -/
def execObsTableau (h : Hdr) (p : Bytes) (s : State) : Res := runPkt opObsTableau h p s

/-- TABLEAU_STOPPED: every domain has stopped; the stage manager writes TABLEAU_ENTERED and answers the OBS_TABLEAU (R517). -/
def execTableauStopped (s : State) : Res :=
  onAlways s (fun s =>
    if s.aon.tableau && !s.aon.tabStopped && s.sm.running then
      let t := (s.upAon (fun a => { a with tabStopped := true })).record uDevice 0x0110 0 s.aon.curTabCause 0 .health
      (t.cmd.waiting.filter (fun w => w.kind == wTableau && w.hdr.chan.isMgmt)).foldl (fun u w => u.finish w sOk 0 0 0) t
    else s)

/-- Bytes of a space of the read-out (R518): the on-die trace buffer and GDDR7 are the model's own; the spec does not say how the other
spaces lay out their contents (log entry 3), but the key store and the lanes' key registers read 0 wherever they lie (R171). -/
def State.scanBytes (s : State) (space addr len : Nat) : Bytes :=
  if space = 5 then s.memWith addr len
  else if space = 2 then padTo len ((((s.obs.recs.drop (s.obs.recs.length - 524288)).flatten).drop addr).take len)
  else (padTo len (s.freeBytes len)).zipIdx.map (fun e => if Config.keyScanned space (addr + e.2) then 0 else e.1)

/-- JTAG_ACCESS: a JTAG operation scans out state of the Tableau (R518). -/
def execJtagAccess (space addr len : Nat) (s : State) : Res :=
  onAlways s (fun s =>
    if s.aon.tableau && s.aon.tabStopped then
      let b := s.scanBytes space addr len
      (s.spent.upAon (fun a => { a with jtagOut := b.map (fun x => x.toNat) })).emit .scan space addr len b
    else s)

/-- A management scan request received while the Tableau holds is answered (R518). -/
def State.scanReply (s : State) (sess : Nat) (req : Bytes) : State :=
  s.spent.emit .mgmtReply sess 4 0 ([4, 0] ++ s.scanBytes (fld req 0 1) (fld req 4 8) (fld req 12 4))

/-- MGMT_SCAN_REQUEST: the body of SUBTYPE 3 in a session that carries an operator session; outside the Tableau it first enters it
(R515, R518). Any other is dropped and counted (R496). -/
def execMgmtScanRequest (sess : Nat) (req : Bytes) (s : State) : Res :=
  onAlways s (fun s =>
    if !s.sm.running then s
    else if !s.carriesOperator sess || req.length != 16 || decide (5 < fld req 0 1) || decide (1000 < fld req 12 4) then
      s.upSm (fun m => { m with drop7e := m.drop7e + 1 })
    else
      let t := s.enterTableau 4 0
      if t.aon.tableau then t.scanReply sess req else t)

end Sys2Proof.Machine
end

