-- ==== Sys2Proof/Machine/Pwr.lean ====
section
/-!
DEFINITION. The rows of the power controller, the sensors and EPR_N (R480 to R483, R525 to R537).
-/
namespace Sys2Proof.Machine

open Sys2Proof

/-- SENSOR_SAMPLE: a sample completes (R481 to R483, R530, R531, R533). A sensor that a part lacks returns none (R480). -/
def execSensorSample (index : Nat) (r : Reading) (s : State) : Res :=
  onAlways s (fun s =>
    if !s.sensorThere index then s
    else
      match r with
      | .value v => (s.hwSample index v).smTakes index
      | .bad => (s.hwFail index).smTakes index)

/-- POWER_CONTROL_TICK: the mean of the last 1 ms is compared with the effective cap, and the controller moves one step (R527). It runs
on the stage manager's core, and the forced step of an emergency stands (R532). -/
def execPowerControlTick (s : State) : Res :=
  onAlways s (fun s =>
    if !s.sm.running || s.aon.mainPhase == .off || decide (s.smNow < s.pwr.tickAt + 100000) then s
    else
      let cap : Int := ((s.effCap : Nat) : Int) * 1000000
      let t := s.showMean.upPwr (fun p => { p with tickAt := s.smNow, lowSince := runSince p.lowSince (decide (s.mean1ms ≤ cap - 25000000)) s.smNow })
      if t.pwr.emergency then t
      else if cap < s.mean1ms then (if t.pwr.step < 6 then (t.setStep (t.pwr.step + 1)).iftCheck else t)
      else
        match t.pwr.lowSince with
        | some since =>
          if since + t.sm.cfg.recover * 1000000 ≤ t.smNow ∧ 0 < t.pwr.step then
            ((t.setStep (t.pwr.step - 1)).upPwr (fun p => { p with lowSince := some t.smNow })).iftCheck
          else t
        | none => t)

/-- THERMAL_CAP_STEP: an interval of the thermal ladder has passed (R530). -/
def execThermalCapStep (s : State) : Res :=
  onAlways s (fun s =>
    let due := fun (o : Option Nat) (ms : Nat) =>
      match o with
      | some t => decide (t + ms * 1000000 ≤ s.smNow)
      | none => false
    if !s.sm.running then s
    else if due s.pwr.warmAt s.sm.cfg.thermStep then
      (s.upPwr (fun p => { p with thermCap := max 350 (p.thermCap - 25), warmAt := some s.smNow })).iftCheck
    else if due s.pwr.coolAt s.sm.cfg.recover then
      (s.upPwr (fun p => { p with thermCap := min 650 (p.thermCap + 25), coolAt := some s.smNow })).iftCheck
    else s)

/-- PWR_SET_CAP (R529). -/
def opPwrSetCap : OpSpec :=
  { code := 0x0028, len := fun _ => 8, fields := fun _ p => [(0, decide (350 ≤ fld p 0 2) && decide (fld p 0 2 ≤ 650)), rsv p 2 6],
    run := fun _ _ p s => .ok (s.upPwr (fun q => { q with mgrCap := fld p 0 2 })).iftCheck }

/-- PWR_SET_CAP. -/
def execPwrSetCap (h : Hdr) (p : Bytes) (s : State) : Res := runPkt opPwrSetCap h p s

/-- PWR_SET_CONFIG (R529, Table 20.4). -/
def opPwrSetConfig : OpSpec :=
  { code := 0x0029, role := .operator, len := fun _ => 16,
    fields := fun _ p =>
      let ms := fun o => (o, decide (1 ≤ fld p o 2) && decide (fld p o 2 ≤ 1000))
      [(0, decide (350 ≤ fld p 0 2) && decide (fld p 0 2 ≤ 650)), ms 2, ms 4, ms 6, rsv p 8 8],
    run := fun _ _ p s => s.storeCmd 10 (sub p 0 16) 0x00 }

/-- PWR_SET_CONFIG. -/
def execPwrSetConfig (h : Hdr) (p : Bytes) (s : State) : Res := runPkt opPwrSetConfig h p s

/-- EPR_N_LOW: EPR_N has read low for 1 µs (R531, R541); while the main domain is unpowered or held in reset the cause waits for the
release (R547). -/
def execEprNLow (s : State) : Res :=
  onAlways s (fun s =>
    let t := (s.upAon (fun a => { a with eprN := false })).upPwr (fun p => { p with eprHighAt := none })
    if s.aon.mainPhase = .init ∨ s.aon.mainPhase = .ready then t.eprCheck else t)

/-- EPR_N_HIGH: EPR_N returned high; EPR_HOLD_MS begins (R531). -/
def execEprNHigh (s : State) : Res :=
  onAlways s (fun s =>
    if s.aon.eprN then s
    else (s.upAon (fun a => { a with eprN := true })).upPwr (fun p => { p with eprHighAt := some s.smNow }))

/-- EPR_HOLD_EXPIRY: EPR_N has read high for EPR_HOLD_MS, and the cause ends (R531). -/
def execEprHoldExpiry (s : State) : Res :=
  onAlways s (fun s =>
    match s.pwr.eprHighAt with
    | some t =>
      if s.pwr.epr ∧ s.aon.eprN ∧ t + s.sm.cfg.eprHold * 1000000 ≤ s.smNow then
        s.causeEnd (fun p => { p with epr := false, eprHighAt := none })
      else s
    | none => s)

end Sys2Proof.Machine
end

