-- ==== Sys2Proof/Machine/Ras.lean ====
section
/-!
DEFINITION. Faults (R338 to R366): detected and corrected errors, partition resets, channel removal, in-field tests, error records, and
the fault and record opcodes of class 0x00.
-/
namespace Sys2Proof.Machine

open Sys2Proof

/-- An error in the on-die trace buffers drops one of the records that they hold, and counts it (R338); the buffers are no unit of
Table 12.2 (DEDUCED, log entry 81). -/
def State.traceRecordLost (s : State) (i : Nat) : State :=
  if i < min 524288 s.obs.recs.length then
    let k := s.obs.recs.length - 1 - i
    (s.upObs (fun o => { o with recs := o.recs.eraseIdx k, dropped := satu 4294967295 (o.dropped + 1) })).ao 31 1
  else s

/-- DETECTED_ERROR: the ladder takes the oldest charge of a unit; or, after those that wait, an uncorrected memory error of it, with the error's
own effect (R343, R344, R347). -/
def execDetectedError (unit : Nat) (cause : ErrCause) (op detail : Nat) (s : State) : Res :=
  onMainIf s (s.unitThere unit) (fun s =>
    match cause with
    | .trace => s.traceRecordLost op
    | .memory =>
      if unit < 160 then
        let t := s.takeCharges unit
        ((if t.unitFenced unit then t else t.memoryHit unit op detail).detected unit .memory 0 0 0).iftCheck
      else s
    | _ =>
      match s.ras.charged.find? (fun c => c.unit == rasUnitId unit) with
      | none => s
      | some c => if c.cause = cause ∧ c.op = op ∧ c.detail = detail then (s.takeCharge unit).iftCheck else s)

/-- Corrected errors in 1 s beyond which the excess counts as one detected error (R340). -/
def corrLimit (unit : Nat) : Nat := if unit < 160 then 64 else 1024

/-- Counts corrected errors of a unit in its window of 1 s (R340). -/
def State.corrected (s : State) (unit count : Nat) : State :=
  let w := ((s.rasUnit unit).corrAt.filter (fun t => decide (s.now < t + 1000000000)))
  let n := w.length + count
  let per := corrLimit unit + 1
  let k := n / per
  let t := s.upRasUnit unit (fun u => { u with corrAt := if k = 0 then w ++ List.replicate count s.now else List.replicate (n % per) s.now })
  (List.range k).foldl (fun t _ => t.charge (rasUnitId unit) .corrected 0 per 0) t

/-- CORRECTED_ERROR: a store corrected errors, or retries of an interface did (R338, R340). -/
def execCorrectedError (unit count : Nat) (byRetry : Bool) (s : State) : Res :=
  onMainIf s (s.unitThere unit) (fun s =>
    let t := if unit < 160 then s
      else if byRetry then s.upRas (fun r => { r with cRetry := satu 65535 (r.cRetry + count) })
      else s.upRas (fun r => { r with cCorr := satu 4294967295 (r.cCorr + count) })
    t.corrected unit count)

/-- MESH_DEGRADED: a link needed more than 1,000 replays in 1 s (R338). -/
def execMeshDegraded (link : MeshLink) (s : State) : Res :=
  onMainIf s (decide (1000 < link.replays)) (fun s => s.record uDevice 0x0005 0 link.routerPort 0 .health)

/-- PATROL_SCRUB: the next line is read, and written back when its code corrected it (R339, R340). -/
def execPatrolScrub (channel corrected : Nat) (s : State) : Res :=
  onMainIf s (decide (channel < s.glb.part.channels) && !s.ras.removed.contains channel) (fun s =>
    let t := (s.upRas (fun r => { r with scrubNext := (r.scrubNext + 64) % mib s.capMib })).gRead 64
    if corrected = 0 then t
    else (((t.ao 14 64).upRas (fun r => { r with cCorr := satu 4294967295 (r.cCorr + corrected) }))).corrected (160 + channel) corrected)

/-- An intermission whose record is lost in both copies is abandoned as MODE 1 would abandon it (R355). A BEGIN or an END of it that waits
completes ABORTED_BY_RESTART, as a command whose journal entry is lost (DESIGN CHOICE, log entry 79). -/
def State.interLost (s : State) (scope : Nat) : State :=
  match s.interOn scope with
  | none => s
  | some r =>
    let t := (s.abandonInter scope).note scope 0x0010 0 r.ph.code (s.plainState scope)
    (t.finishAll (fun w => (w.kind == wDrain && w.aux == scope) || w.endsWith scope) sAborted 0 0).goOn s

/-- Handles an object with an uncorrectable line (R164, R355). -/
def State.objectLost (s : State) (o : BurstObj) (both : Bool) : State :=
  match o with
  | .inter scope => if both then s.interLost scope else s
  | .ctx n => s.ctxLost n
  | o => s.lineLost o both

/-- UNCORRECTABLE_BURST: one detected error of the channel, and a reset of the partition, or the object's own handling (R127, R338,
R352, R355). With `link` the burst failed its interface CRC after four retries. -/
def execUncorrectableBurst (addr channel : Nat) (link both : Bool) (obj : BurstObj) (s : State) : Res :=
  onMainIf s (decide (channel < s.glb.part.channels) && !s.ras.removed.contains channel) (fun s =>
    match s.partOf addr with
    | none => s
    | some p =>
      let t := s.upRas (fun r => { r with cUncorr := satu 65535 (r.cUncorr + 1), cRetry := if link then satu 65535 (r.cRetry + 4) else r.cRetry })
      let u := if link then t.charge (rasUnitId (160 + channel)) .linkCrc 0 4 addr
        else t.charge (rasUnitId (160 + channel)) .uncorrectable 0 p.num addr
      (u.objectLost obj both).partReset p (some (addr / 64 * 64, channel)))

/-- PARTITION_RESET_END: the logical clear ends, and the owners go on (R352, R353). `bad` are the failing lines that fail their read-back too:
each is a further detected error of its own channel. -/
def execPartitionResetEnd (part : Nat) (bad : List Nat) (s : State) : Res :=
  onMain s (fun s =>
    match s.ras.resets.find? (fun r => r.part == part) with
    | none => s
    | some r =>
      let t := s.upRas (fun x => { x with resets := x.resets.filter (fun y => y.part != part) })
      let u := (r.lines.eraseDups.filter (fun l => bad.contains l.1)).foldl (fun u l =>
        u.charge (rasUnitId (160 + l.2)) .uncorrectable 0 part l.1) t
      u.partBack (Partn.ofNum part))

/-- A use of memory that was held takes place. -/
def State.useGoes (s : State) (u : HeldUse) : State :=
  match u with
  | .bar2 a => s.bar2Do a
  | .write p => s.packetWrite p
  | .readReq p => s.packetReadRequest p
  | .readResp p => s.packetReadResponse p

/-- CHANNEL_REMOVED: the copy is done, the shuffle buffer has shrunk by 4 GiB, and the held users resume (R350). -/
def execChannelRemoved (s : State) : Res :=
  onMain s (fun s =>
    match s.ras.removing with
    | none => s
    | some (ch, _) =>
      let t := s.upRas (fun r => { r with removing := none, removed := ladd r.removed ch })
      let u := t.upNet (fun n => { n with ports := n.ports.map (fun e => (e.1, { e.2 with paused := false })) })
      let v := u.record (rasUnitId (160 + ch)) 0x0006 0 (u.glb.part.channels - u.ras.removed.length) 0 .health
      let w := ([Partn.wbuf, .staging, .shuffle].foldl (fun w p => if w.partHeld p then w else w.partBack p) v).qpsKick
      w.ras.heldUses.foldl State.useGoes (w.upRas (fun r => { r with heldUses := [] })))

/-- RECORD_COALESCE_EXPIRY: the 10 ms interval of identical events ends (R362). -/
def execRecordCoalesceExpiry (unit code op : Nat) (s : State) : Res :=
  onAlways s (fun s =>
    match s.ras.coals.find? (fun c => c.matches unit code op) with
    | none => s
    | some c => if c.since + 10000000 ≤ s.now then s.endCoal c else s)

/-! ## In-field tests (R356 to R359) -/

/-- IFT_DUE: the test of the next core falls due. It leaves at its next slice boundary, unless a condition of R359 holds or a core of its
cluster is out; then the test waits (R356, R359). When within the period a test falls due, the event says
(DESIGN CHOICE, log entry 79). -/
def execIftDue (core : Nat) (s : State) : Res :=
  onMainIf s (s.ras.period != 0 && s.iftNext == some core) (fun s =>
    (s.upRas (fun r => { r.makeDue [] [core] with dueLast := some core })).iftStart)

/-- Charges of a core that the ladder has not taken: they are applied before its test result, and before it joins (R358). -/
def State.chargeWaits (s : State) (core : Nat) : Bool := s.ras.charged.any (fun c => c.unit == rasUnitId core)

/-- IFT_COMPLETE: a core's test ends. A pass lets it rejoin; a failure is one detected error, and the core is tested again (R358). -/
def execIftComplete (core : Nat) (passed : Bool) (pattern : Nat) (s : State) : Res :=
  onMainIf s (s.tap.testOut.contains core && !s.ras.testPass.contains core && !s.unitFenced core && !s.chargeWaits core) (fun s =>
    let t := (s.applyHeld core).upRas (fun r => { r with lastCore := core, lastTest := aset r.lastTest core s.now })
    if passed then t.upRas (fun r => { r with passes := satu 65535 (r.passes + 1), testPass := ladd r.testPass core })
    else
      (t.rasFlag 3 (fun r => { r with evTestFail := true, fails := satu 65535 (r.fails + 1) })).charge (unitId 1 core) .test 0 pattern 0)

/-- CORE_JOIN: a core that passed its test has reloaded its resident region; charges held for it are applied (R241, R264, R358), and a test that
waits for its cluster starts (R356). -/
def execCoreJoin (core : Nat) (s : State) : Res :=
  onMainIf s (s.ras.testPass.contains core && s.tap.testOut.contains core && !s.unitFenced core && !s.chargeWaits core) (fun s =>
    let bytes := (s.tap.progs.map (fun e => (e.2.res.map (fun r => r.2.length)).sum)).sum
    (((s.gRead bytes).upRas (fun r => { r with testPass := ldel r.testPass core })).tapJoins [core]).iftCheck)

/-! ## Class 0x00 fault and record opcodes (R363, R365) -/

/-- RAS_SET_ERROR_RING (R363). -/
def opRasSetErrorRing : OpSpec :=
  { code := 0x0021, role := .tenant, len := fun _ => 16,
    fields := fun _ p =>
      [(0, fld p 0 8 % 4096 == 0), (8, decide (6 ≤ fld p 8 1) && decide (fld p 8 1 ≤ 16)), rsv p 9 1, (10, decide (fld p 10 2 < 2048)), rsv p 12 4],
    run := fun c _ p s =>
      if vectorsOf c.fn ≤ fld p 10 2 then badParam 10
      else .ok (s.upRas (fun r => { r with rings := aset r.rings c.fn { base := fld p 0 8, log2 := fld p 8 1, vector := fld p 10 2 } })) }

/-- RAS_SET_ERROR_RING. -/
def execRasSetErrorRing (h : Hdr) (p : Bytes) (s : State) : Res := runPkt opRasSetErrorRing h p s

/-- RAS_ERROR_HEAD (R363). -/
def opRasErrorHead : OpSpec :=
  { code := 0x0022, role := .tenant, len := fun _ => 8, fields := fun _ p => [rsv p 4 4],
    run := fun c _ p s =>
      match aget s.ras.rings c.fn with
      | none => badState
      | some g =>
        let k := (fld p 0 4 + g.size - g.head) % g.size
        if g.size ≤ fld p 0 4 ∨ g.count < k then badParam 0
        else .ok (s.upRas (fun r => { r with rings := aset r.rings c.fn { g with head := fld p 0 4, count := g.count - k } })) }

/-- RAS_ERROR_HEAD. -/
def execRasErrorHead (h : Hdr) (p : Bytes) (s : State) : Res := runPkt opRasErrorHead h p s

/-- Whether a unit ID names a unit of Table 12.2. -/
def ladderUnit (h : Hdr) (s : State) : Bool := (rasIndex h.unit).any (fun n => s.unitThere n)

/-- RAS_GET_UNIT (Table 12.11). -/
def opRasGetUnit : OpSpec :=
  { code := 0x0023, result := true, unitOk := ladderUnit,
    run := fun _ h _ s =>
      match rasIndex h.unit with
      | none => badState
      | some n => .done sOk 0 (s.unitState h.unit + 256 * (s.rasUnit n).rung + 65536 * (s.rasUnit n).detected) s }

/-- RAS_GET_UNIT. -/
def execRasGetUnit (h : Hdr) (p : Bytes) (s : State) : Res := runPkt opRasGetUnit h p s

/-- RAS_FENCE_UNIT (R351). -/
def opRasFenceUnit : OpSpec :=
  { code := 0x0024, role := .operator, unitOk := ladderUnit,
    run := fun _ h _ s =>
      match rasIndex h.unit with
      | none => badState
      | some n => if s.isProtected n then .refuse 0x0011 0 else .ok (s.fenceUnit n).iftCheck }

/-- RAS_FENCE_UNIT. -/
def execRasFenceUnit (h : Hdr) (p : Bytes) (s : State) : Res := runPkt opRasFenceUnit h p s

/-- RAS_SET_TEST (R365, Table 12.15). -/
def opRasSetTest : OpSpec :=
  { code := 0x0025, len := fun _ => 8,
    fields := fun _ p => [(0, decide (bits (fld p 0 8) 16 5 ≤ 30) && decide (bits (fld p 0 8) 21 3 ≤ 5) && bits (fld p 0 8) 25 39 == 0)],
    run := fun _ _ p s =>
      let v := fld p 0 8
      .ok (s.upRas (fun r => { r with period := bits v 0 16, vdrop := bits v 16 5, clkPct := bits v 21 3, heat := bit v 24 })) }

/-- RAS_SET_TEST. -/
def execRasSetTest (h : Hdr) (p : Bytes) (s : State) : Res := runPkt opRasSetTest h p s

end Sys2Proof.Machine
end

