-- ==== Sys2Proof/Machine/Sm.lean ====
section
/-!
DEFINITION. The rows of the stage manager's own life and of its class 0x00 opcodes (R478 to R491, R500 to R504).
-/
namespace Sys2Proof.Machine

open Sys2Proof

/-! ## The answers that wait for the stage manager (R503) -/

/-- The records of a log from an index on, with the index of its oldest (R484, R485). -/
def State.logOf (s : State) (log : Nat) : List Bytes × Nat := if log = 0 then (s.sm.log, s.sm.logFirst) else (s.flash.plog, s.flash.plogFirst)

/-- SM_READ_LOG carried out: status DETAIL, the records written, and the state after them (Table 18.9). -/
def State.readLog (s : State) (fn : Nat) (p : Bytes) : Nat × Nat × State :=
  let l := s.logOf (fld p 0 1)
  let first := fld p 8 8
  let early := decide (first < l.2)
  let recs := (l.1.drop (first - l.2)).take (fld p 4 4)
  (b2n early, recs.length, if recs.isEmpty then s else s.hostWrite fn (fld p 16 8) recs.flatten)

/-- Answers the commands that waited for the stage manager to run. -/
def State.smWaiters (s : State) : State :=
  (s.cmd.waiting.filter (fun w => w.kind == wSm)).foldl (fun t w =>
    let r := t.readLog w.aux w.params
    r.2.2.finish w sOk r.1 r.2.1 w.stateCode) s

/-! ## Life -/

/-- SM_BOOT (R478, R479, R490, R491). In RECOVERY it comes again only once an activation asks for it. -/
def execSmBoot (s : State) : Res :=
  onAlways s (fun s => if s.sm.running || s.sm.recovery then s else s.smBoot.smWaiters)

/-- SM_WATCHDOG_EXPIRY: 100 ms without a kick; a trial ends with the old bank (R479, R502). -/
def execSmWatchdogExpiry (s : State) : Res :=
  onAlways s (fun s =>
    if !s.sm.running || decide (s.smNow < s.sm.wdAt + 100000000) then s
    else if s.sm.trial then s.smRollback else s.smStop 1 s.sm.bank)

/-- STORE_BANK_COMPARE: the bank is read back; a first mismatch has it written and compared once more (R489). -/
def execStoreBankCompare (same : Bool) (s : State) : Res :=
  onAlways s (fun s =>
    if !s.sm.running || s.sm.writing.isEmpty then s
    else if same then s.storeDone
    else if s.sm.wmiss = 0 then s.upSm (fun m => { m with wmiss := 1 })
    else s.storeFailed)

/-! ## Activation (R501, R502) -/

/-- SM_ACTIVATE_CLEARANCE (R501, R534). -/
def execSmActivateClearance (s : State) : Res :=
  onAlways s (fun s => if s.sm.running && s.sm.actReq.isSome && s.actClear then s.actBegin else s)

/-- SM_ACTIVATE_TIMEOUT: 60 s have passed; a clearance complete by then lets the activation begin (R501, R534). -/
def execSmActivateTimeout (s : State) : Res :=
  onAlways s (fun s =>
    match s.sm.actReq with
    | some t =>
      if !s.sm.running ∨ s.smNow < t + 60000000000 then s
      else if s.actClear then s.actBegin
      else (s.upSm (fun m => { m with actReq := none })).record uDevice 0x0108 0 1 0 .health
    | none => s)

/-- SM_FW_CONFIRM: the new bank becomes active, and the minimum SVN and its OTP counter rise to the new SVN (R490, R502). -/
def execSmFwConfirm (s : State) : Res :=
  onAlways s (fun s =>
    if !s.sm.running || !s.sm.trial || decide (s.sm.trialAt + 30000000000 < s.smNow) then s
    else
      let t := (s.upSm (fun m => { m with trial := false })).upFlash (fun f => { f with active := s.sm.bank, otpSm := max f.otpSm s.sm.svn })
      (t.storeAdd 5 (leBytes 4 s.sm.svn) 0x100).record uDevice 0x0106 0 s.sm.svn 0 .health)

/-- SM_TRIAL_TIMEOUT: no confirmation within 30 s (R502). -/
def execSmTrialTimeout (s : State) : Res :=
  onAlways s (fun s => if s.sm.running && s.sm.trial && decide (s.sm.trialAt + 30000000000 ≤ s.smNow) then s.smRollback else s)

/-- MGMT_CONFIG_APPLY: 1 s after the reply of SM_SET_MGMT (R503). -/
def execMgmtConfigApply (s : State) : Res :=
  onAlways s (fun s =>
    match s.sm.mgmtNew with
    | some (b, t) =>
      if s.sm.running ∧ t ≤ s.smNow then s.upSm (fun m => { m with mgmtNew := none, cfg := { m.cfg with mgmt := b } }) else s
    | none => s)

/-! ## Opcodes (Table 18.9) -/

/-- SM_READ_LOG; while the stage manager does not run its answer waits. -/
def opSmReadLog : OpSpec :=
  { code := 0x0030, result := true, noFw := true, len := fun _ => 24,
    fields := fun _ p => [(0, decide (fld p 0 1 ≤ 1)), rsv p 1 3, (4, decide (1 ≤ fld p 4 4) && decide (fld p 4 4 ≤ 16384))],
    run := fun c _ p s =>
      if !s.sm.running then .wait wSm c.fn s
      else
        let r := s.readLog c.fn p
        .done sOk r.1 r.2.1 r.2.2 }

/-- SM_READ_LOG. -/
def execSmReadLog (h : Hdr) (p : Bytes) (s : State) : Res := runPkt opSmReadLog h p s

/-- SM_SET_OPERATOR_KEY: 32 zero bytes return the key to never set. -/
def opSmSetOperatorKey : OpSpec :=
  { code := 0x0031, role := .operator, noFw := true, len := fun _ => 40, fields := fun _ p => [rsv p 0 8],
    run := fun _ _ p s => s.storeCmd 1 (keyDigest (sub p 8 32)) 0x00 }

/-- SM_SET_OPERATOR_KEY. -/
def execSmSetOperatorKey (h : Hdr) (p : Bytes) (s : State) : Res := runPkt opSmSetOperatorKey h p s

/-- SM_SET_THRESHOLD. -/
def opSmSetThreshold : OpSpec :=
  { code := 0x0032, role := .operator, noFw := true, len := fun _ => 24, fields := fun _ p => [(0, decide (fld p 0 2 ≤ 95)), rsv p 2 6],
    run := fun _ _ p s => s.storeCmd 9 (sub p 0 2 ++ sub p 8 16) 0x00 }

/-- SM_SET_THRESHOLD. -/
def execSmSetThreshold (h : Hdr) (p : Bytes) (s : State) : Res := runPkt opSmSetThreshold h p s

/-- SM_SET_FW_KEY: it governs later loads and FW_VERIFY. -/
def opSmSetFwKey : OpSpec :=
  { code := 0x0033, role := .operator, noFw := true, len := fun _ => 32, run := fun _ _ p s => s.storeCmd 3 (sub p 0 32) 0x00 }

/-- SM_SET_FW_KEY. -/
def execSmSetFwKey (h : Hdr) (p : Bytes) (s : State) : Res := runPkt opSmSetFwKey h p s

/-- SM_SET_MGMT. -/
def opSmSetMgmt : OpSpec :=
  { code := 0x0034, role := .operator, noFw := true, len := fun _ => 64, run := fun _ _ p s => s.storeCmd 8 (sub p 0 64) 0x00 }

/-- SM_SET_MGMT. -/
def execSmSetMgmt (h : Hdr) (p : Bytes) (s : State) : Res := runPkt opSmSetMgmt h p s

end Sys2Proof.Machine
end

