-- ==== Sys2Proof/Machine/Cmds.lean ====
section
/-!
DEFINITION. Command packets that do not come from a submission queue: those of a troupe head (R149, R150) and those of the management
network (R496). Their opcode is read here and the meaning of that opcode's row is run.
-/
namespace Sys2Proof.Machine

open Sys2Proof

/-! ## Opcodes (R100, Table 3.20) -/

/-- Class 0x00. -/
def cmdModule (opcode : Nat) (h : Hdr) (p : Bytes) (s : State) : Res :=
  match opcode with
  | 0x0020 => execSetPartitions h p s
  | 0x0000 => execNop h p s
  | 0x0001 => execOpenSession h p s
  | 0x0002 => execCloseSession h p s
  | 0x0003 => execSetRoleKey h p s
  | 0x0004 => execCreateQueuePair h p s
  | 0x0005 => execDeleteQueuePair h p s
  | 0x0006 => execIntermissionBegin h p s
  | 0x0007 => execIntermissionEnd h p s
  | 0x0008 => execGetState h p s
  | 0x0009 => execAbort h p s
  | 0x0021 => execRasSetErrorRing h p s
  | 0x0022 => execRasErrorHead h p s
  | 0x0023 => execRasGetUnit h p s
  | 0x0024 => execRasFenceUnit h p s
  | 0x0025 => execRasSetTest h p s
  | 0x0026 => execCallAssign h p s
  | 0x0030 => execSmReadLog h p s
  | 0x0031 => execSmSetOperatorKey h p s
  | 0x0032 => execSmSetThreshold h p s
  | 0x0033 => execSmSetFwKey h p s
  | 0x0034 => execSmSetMgmt h p s
  | 0x0028 => execPwrSetCap h p s
  | 0x0029 => execPwrSetConfig h p s
  | _ => execOther opcode h p s

/-- Class 0x01. -/
def cmdCue (opcode : Nat) (h : Hdr) (p : Bytes) (s : State) : Res :=
  match opcode with
  | 0x0100 => execSetCueSource h p s
  | 0x0101 => execCueEventSet h p s
  | 0x0102 => execCueEventClear h p s
  | _ => execOther opcode h p s

/-- Class 0x02. -/
def cmdTap (opcode : Nat) (h : Hdr) (p : Bytes) (s : State) : Res :=
  match opcode with
  | 0x0200 => execTapLoadProgram h p s
  | 0x0201 => execTapUnloadProgram h p s
  | 0x0202 => execTapRun h p s
  | 0x0203 => execTapBindQueue h p s
  | 0x0204 => execTapUnbindQueue h p s
  | 0x0205 => execTapGetQueue h p s
  | 0x0206 => execTapSetPolicy h p s
  | _ => execOther opcode h p s

/-- Class 0x03. -/
def cmdShu (opcode : Nat) (h : Hdr) (p : Bytes) (s : State) : Res :=
  match opcode with
  | 0x0300 => execShuOpenStream h p s
  | 0x0301 => execShuCloseStream h p s
  | 0x0302 => execShuFeed h p s
  | 0x0303 => execShuGetStream h p s
  | 0x0304 => execShuSetPolicy h p s
  | 0x0305 => execShuReturnOutput h p s
  | 0x0306 => execShuSetMel h p s
  | _ => execOther opcode h p s

/-- Class 0x04. -/
def cmdLoom (opcode : Nat) (h : Hdr) (p : Bytes) (s : State) : Res :=
  match opcode with
  | 0x0400 => execLoomOpenJob h p s
  | 0x0401 => execLoomCloseJob h p s
  | 0x0402 => execLoomAddWarp h p s
  | 0x0403 => execLoomSetLayout h p s
  | 0x0404 => execLoomStart h p s
  | 0x0405 => execLoomGetCursor h p s
  | 0x0406 => execLoomSetCursor h p s
  | 0x0407 => execLoomGetOrder h p s
  | 0x0408 => execLoomGetJob h p s
  | 0x0409 => execLoomSetShare h p s
  | _ => execOther opcode h p s

/-- Class 0x05. -/
def cmdFeed (opcode : Nat) (h : Hdr) (p : Bytes) (s : State) : Res :=
  match opcode with
  | 0x0500 => execFeedSetPort h p s
  | 0x0501 => execFeedAdmit h p s
  | 0x0502 => execFeedRelease h p s
  | 0x0503 => execLatchAssign h p s
  | 0x0504 => execFeedCreateRing h p s
  | 0x0505 => execFeedDestroyRing h p s
  | 0x0506 => execFeedResetRing h p s
  | 0x0507 => execFeedGetRing h p s
  | 0x0508 => execFeedJoin h p s
  | _ => execOther opcode h p s

/-- Class 0x06. -/
def cmdNet (opcode : Nat) (h : Hdr) (p : Bytes) (s : State) : Res :=
  match opcode with
  | 0x0600 => execSetPortMode h p s
  | 0x0601 => execGetPortStatus h p s
  | 0x0602 => execCreateQp h p s
  | 0x0603 => execModifyQp h p s
  | 0x0604 => execDestroyQp h p s
  | 0x0605 => execQueryQp h p s
  | 0x0606 => execSetEventQueue h p s
  | 0x0607 => execRegisterRegion h p s
  | 0x0608 => execDeregisterRegion h p s
  | 0x0609 => execTroupeAddMember h p s
  | 0x060A => execTroupeRemoveMember h p s
  | 0x060B => execSetContextReserve h p s
  | _ => execOther opcode h p s

/-- Class 0x07. -/
def cmdHed (opcode : Nat) (h : Hdr) (p : Bytes) (s : State) : Res :=
  match opcode with
  | 0x0700 => execHedLoadGraph h p s
  | 0x0701 => execHedSetTable h p s
  | 0x0702 => execHedAddEntry h p s
  | 0x0703 => execHedDelEntry h p s
  | 0x0704 => execSetPacketRing h p s
  | _ => execOther opcode h p s

/-- Class 0x08. -/
def cmdCip (opcode : Nat) (h : Hdr) (p : Bytes) (s : State) : Res :=
  match opcode with
  | 0x0800 => execCipAssignPages h p s
  | 0x0801 => execCipLoadKey h p s
  | 0x0802 => execCipClearPage h p s
  | 0x0803 => execCipCrypt h p s
  | _ => execOther opcode h p s

/-- Class 0x09. -/
def cmdSto (opcode : Nat) (h : Hdr) (p data : Bytes) (s : State) : Res :=
  match opcode with
  | 0x0900 => execConnectTarget h p s
  | 0x0901 => execDisconnectTarget h p s
  | 0x0902 => execAttachNamespace h p data s
  | 0x0903 => execDetachNamespace h p s
  | 0x0904 => execSetNsMode h p s
  | 0x0905 => execSetWbQuota h p s
  | 0x0906 => execGetNsStatus h p s
  | 0x0907 => execDiscardDirty h p s
  | _ => execOther opcode h p s

/-- Class 0x0A. -/
def cmdCkp (opcode : Nat) (h : Hdr) (p : Bytes) (s : State) : Res :=
  match opcode with
  | 0x0A00 => execCkpSetJob h p s
  | 0x0A01 => execCkpSetShards h p s
  | 0x0A02 => execCkpSetTrigger h p s
  | 0x0A03 => execCkpCapture h p s
  | 0x0A04 => execCkpGetJob h p s
  | 0x0A05 => execCkpRestore h p s
  | 0x0A06 => execCkpSetSigners h p s
  | 0x0A07 => execCkpCloseJob h p s
  | 0x0A08 => execCkpReadBank h p s
  | _ => execOther opcode h p s

/-- Class 0x0B. -/
def cmdObs (opcode : Nat) (h : Hdr) (p : Bytes) (s : State) : Res :=
  match opcode with
  | 0x0B00 => execObsSetSnapArea h p s
  | 0x0B01 => execObsSnapHead h p s
  | 0x0B02 => execObsSetCounter h p s
  | 0x0B03 => execObsTraceCfg h p s
  | 0x0B04 => execObsTraceStart h p s
  | 0x0B05 => execObsTraceStop h p s
  | 0x0B06 => execObsTrigger h p s
  | 0x0B07 => execObsTraceRead h p s
  | 0x0B08 => execObsTableau h p s
  | 0x0B09 => execObsClearCounters h p s
  | _ => execOther opcode h p s

/-- Class 0x0C. -/
def cmdFw (opcode : Nat) (h : Hdr) (p : Bytes) (s : State) : Res :=
  match opcode with
  | 0x0C00 => execFwGetInfo h p s
  | 0x0C01 => execFwStage h p s
  | 0x0C02 => execFwVerify h p s
  | 0x0C03 => execFwActivate h p s
  | 0x0C04 => execFwCommit h p s
  | 0x0C05 => execFwRollback h p s
  | 0x0C06 => execFwLoadModule h p s
  | 0x0C07 => execFwUnloadModule h p s
  | 0x0C08 => execFwSetModuleKey h p s
  | _ => execOther opcode h p s

/-- Class 0x0D. -/
def cmdVf (opcode : Nat) (h : Hdr) (p data : Bytes) (s : State) : Res :=
  match opcode with
  | 0x0D00 => execVfSetResources h p s
  | 0x0D01 => execVfGetResources h p s
  | 0x0D02 => execVfSetMbox h p s
  | 0x0D03 => runPkt opVfTrack h p s
  | 0x0D04 => execVfFreeze h p s
  | 0x0D05 => runPkt opVfSave h p s
  | 0x0D06 => execVfRestore h p data s
  | 0x0D07 => execVfResume h p s
  | 0x0D08 => execVfSetMigKey h p s
  | _ => execOther opcode h p s

/-- Runs the command of an opcode; `data` is what host memory that it reads holds. -/
def execOpcode (opcode : Nat) (h : Hdr) (p data : Bytes) (s : State) : Res :=
  match opcode / 256 with
  | 0 => cmdModule opcode h p s
  | 1 => cmdCue opcode h p s
  | 2 => cmdTap opcode h p s
  | 3 => cmdShu opcode h p s
  | 4 => cmdLoom opcode h p s
  | 5 => cmdFeed opcode h p s
  | 6 => cmdNet opcode h p s
  | 7 => cmdHed opcode h p s
  | 8 => cmdCip opcode h p s
  | 9 => cmdSto opcode h p data s
  | 10 => cmdCkp opcode h p s
  | 11 => cmdObs opcode h p s
  | 12 => cmdFw opcode h p s
  | 13 => cmdVf opcode h p data s
  | _ => execOther opcode h p s

/-! ## Commands of a troupe head (R149, R150) -/

/-- The header of a command-mailbox entry (Table 5.30). Remote parameters are pointer parameters that the member has fetched; HDR_CRC was
computed over the header as forwarded, whose FLAGS.PTR is 0, and a wrong one stays wrong. -/
def fwdHdr (member : Nat) (entry : Bytes) (readOk : Bool) : Hdr :=
  let role : Role := if fld entry 72 1 = 0 then .operator else .manager
  let h := Hdr.ofBytes (.head member (fld entry 64 8) role (fld entry 76 4) (bit (fld entry 73 1) 1) (fld entry 74 1)) (sub entry 0 64) readOk
  if bit (fld entry 73 1) 0 then
    let g : Hdr := { h with flags := h.flags / 2 * 2 + 1 }
    let right := crc32c (sub entry 0 60)
    let now := crc32c (g.bytes (fld entry 0 2))
    { g with crc := if !h.hasCrc then h.crc else if h.crc = right then now else (now + 1) % 2 ^ 32 }
  else h

/-- A member fetches remote parameters by an RDMA READ of its head's device reserve (R149); `params` of the row is what it returns, so
the read ends with the row. -/
def State.paramRead (s : State) (m : Member) (addr rkey len : Nat) : State :=
  (s.qpRead m.ctrlQp (.params m.id) addr rkey len).upQpn m.ctrlQp (fun q =>
    { q with tx := q.tx.filter (fun x => x.op != .params m.id),
             reads := q.reads - (q.tx.filter (fun x => x.op == .params m.id && x.sent)).length })

/-- FORWARDED_COMMAND: a member takes an entry of its command mailbox, in sequence (R138), fetches remote parameters (`params`; `readOk`
tells whether that read succeeded), and executes or forwards the command (R149). One that was held starts when its entry is presented
again (R88). -/
def execForwardedCommand (member : Nat) (entry params : Bytes) (readOk : Bool) (data : Bytes) (s : State) : Res :=
  match s.member member with
  | none => .next s
  | some m =>
    if !(s.live && s.stg.image.isSome && s.granted 1 && m.isHead && m.live) then .next s
    else
      let opcode := fld entry 0 2
      let h := fwdHdr member entry readOk
      let p := if h.ptr then padTo h.paramLen params else sub entry 96 (min h.paramLen 4096)
      let read := fun (t : State) => if h.ptr then t.paramRead m (fld entry 80 8) (fld entry 88 4) h.paramLen else t
      if s.cmd.fetched.any (fun f => f.isCmd opcode h p) then execOpcode opcode h p data s
      else if fld entry 8184 8 ≠ (m.cmdIn + 1) % 2 ^ 64 then .next (s.upNet (fun n => { n with mbox := satu 8191 (n.mbox + 1) }))
      else execOpcode opcode h p data (read (s.upMember member (fun x => { x with cmdIn := fld entry 8184 8 })))

/-! ## Commands over the management network (R496, R497) -/

/-- MGMT_COMMAND: a vendor-defined message of a secured session whose body carries a command packet with inline parameters. Any other body,
or one outside a secured session, is dropped and counted (R496). -/
def execMgmtCommand (sess : Nat) (packet data : Bytes) (s : State) : Res :=
  if !s.sm.running then .next s
  else if !(s.sm.sess.any (fun x => x.id == sess && x.live)) || fld packet 0 1 != 1 || decide (packet.length < 66) then
    .next (s.upSm (fun m => { m with drop7e := m.drop7e + 1 }))
  else
    let h := Hdr.ofBytes (.mgmt sess) (sub packet 2 64) true
    execOpcode (fld packet 2 2) h ((packet.drop 66).take h.paramLen) data s

end Sys2Proof.Machine
end

