-- ==== Sys2Proof/Machine/Dispatch.lean ====
section
/-!
DEFINITION. One arm per command: each calls its meaning, or is rejected by name.
-/
namespace Sys2Proof.Machine

/-- The effect of a command on everything but the queue. -/
def exec (i : Instr) (s : State) : Host.Outcome State Fault Refusal :=
  match i with
  | .registerWrite a => Sys2Proof.Machine.execRegisterWrite a s
  | .bar2Access a => Sys2Proof.Machine.execBar2Access a s
  | .setPartitions h p => Sys2Proof.Machine.execSetPartitions h p s
  | .setCueSource h p => Sys2Proof.Machine.execSetCueSource h p s
  | .positionFrame frame codeOk => Sys2Proof.Machine.execPositionFrame frame codeOk s
  | .epochFrame frame codeOk => Sys2Proof.Machine.execEpochFrame frame codeOk s
  | .ethCueFrame frame => Sys2Proof.Machine.execEthCueFrame frame s
  | .cueSwPosWrite a => Sys2Proof.Machine.execCueSwPosWrite a s
  | .cueInterpolate ticks => Sys2Proof.Machine.execCueInterpolate ticks s
  | .cueHoldoverTimeout => Sys2Proof.Machine.execCueHoldoverTimeout s
  | .cueHoldExpiry => Sys2Proof.Machine.execCueHoldExpiry s
  | .cueFrameEmit => Sys2Proof.Machine.execCueFrameEmit s
  | .pathDelayEcho => Sys2Proof.Machine.execPathDelayEcho s
  | .echoReadResponse => Sys2Proof.Machine.execEchoReadResponse s
  | .cueEventSet h p => Sys2Proof.Machine.execCueEventSet h p s
  | .cueEventClear h p => Sys2Proof.Machine.execCueEventClear h p s
  | .cueEventFire => Sys2Proof.Machine.execCueEventFire s
  | .ptmExchange hostNs => Sys2Proof.Machine.execPtmExchange hostNs s
  | .sqTailWrite fn qp val => Sys2Proof.Machine.execSqTailWrite fn qp val s
  | .cqHeadWrite fn qp val => Sys2Proof.Machine.execCqHeadWrite fn qp val s
  | .cmdCtrlEnSet fn => Sys2Proof.Machine.execCmdCtrlEnSet fn s
  | .cmdCtrlEnClear fn => Sys2Proof.Machine.execCmdCtrlEnClear fn s
  | .nop h p => Sys2Proof.Machine.execNop h p s
  | .openSession h p => Sys2Proof.Machine.execOpenSession h p s
  | .closeSession h p => Sys2Proof.Machine.execCloseSession h p s
  | .setRoleKey h p => Sys2Proof.Machine.execSetRoleKey h p s
  | .createQueuePair h p => Sys2Proof.Machine.execCreateQueuePair h p s
  | .deleteQueuePair h p => Sys2Proof.Machine.execDeleteQueuePair h p s
  | .intermissionBegin h p => Sys2Proof.Machine.execIntermissionBegin h p s
  | .intermissionDrained scope => Sys2Proof.Machine.execIntermissionDrained scope s
  | .drainLimitExpiry scope => Sys2Proof.Machine.execDrainLimitExpiry scope s
  | .intermissionEnd h p => Sys2Proof.Machine.execIntermissionEnd h p s
  | .intermissionAtReached scope => Sys2Proof.Machine.execIntermissionAtReached scope s
  | .getState h p => Sys2Proof.Machine.execGetState h p s
  | .abort h p => Sys2Proof.Machine.execAbort h p s
  | .lockoutExpiry fn => Sys2Proof.Machine.execLockoutExpiry fn s
  | .forwardedCommand member entry params readOk data => Sys2Proof.Machine.execForwardedCommand member entry params readOk data s
  | .troupeMemberReply member entry => Sys2Proof.Machine.execTroupeMemberReply member entry s
  | .troupeTimeout fwd => Sys2Proof.Machine.execTroupeTimeout fwd s
  | .nvmeCcEnable fn cc => Sys2Proof.Machine.execNvmeCcEnable fn cc s
  | .nvmeCcDisable fn cc => Sys2Proof.Machine.execNvmeCcDisable fn cc s
  | .nvmeShutdown fn cc => Sys2Proof.Machine.execNvmeShutdown fn cc s
  | .nvmeSqDoorbell fn qid val => Sys2Proof.Machine.execNvmeSqDoorbell fn qid val s
  | .nvmeCqDoorbell fn qid val => Sys2Proof.Machine.execNvmeCqDoorbell fn qid val s
  | .deleteIoSq n => Sys2Proof.Machine.execDeleteIoSq n s
  | .createIoSq n => Sys2Proof.Machine.execCreateIoSq n s
  | .getLogPage n => Sys2Proof.Machine.execGetLogPage n s
  | .deleteIoCq n => Sys2Proof.Machine.execDeleteIoCq n s
  | .createIoCq n => Sys2Proof.Machine.execCreateIoCq n s
  | .identify n => Sys2Proof.Machine.execIdentify n s
  | .nvmeAbort n => Sys2Proof.Machine.execNvmeAbort n s
  | .setFeatures n => Sys2Proof.Machine.execSetFeatures n s
  | .getFeatures n => Sys2Proof.Machine.execGetFeatures n s
  | .asyncEventRequest n => Sys2Proof.Machine.execAsyncEventRequest n s
  | .flush n => Sys2Proof.Machine.execFlush n s
  | .write n => Sys2Proof.Machine.execWrite n s
  | .read n => Sys2Proof.Machine.execRead n s
  | .writeZeroes n => Sys2Proof.Machine.execWriteZeroes n s
  | .datasetManagement n => Sys2Proof.Machine.execDatasetManagement n s
  | .writeBufferAdmit => Sys2Proof.Machine.execWriteBufferAdmit s
  | .wbDrainStart => Sys2Proof.Machine.execWbDrainStart s
  | .wbDrainComplete cid status => Sys2Proof.Machine.execWbDrainComplete cid status s
  | .remoteReadComplete cid data => Sys2Proof.Machine.execRemoteReadComplete cid data s
  | .remoteCommandFail cid status => Sys2Proof.Machine.execRemoteCommandFail cid status s
  | .connectTarget h p => Sys2Proof.Machine.execConnectTarget h p s
  | .targetAssociated target => Sys2Proof.Machine.execTargetAssociated target s
  | .disconnectTarget h p => Sys2Proof.Machine.execDisconnectTarget h p s
  | .attachNamespace h p data => Sys2Proof.Machine.execAttachNamespace h p data s
  | .detachNamespace h p => Sys2Proof.Machine.execDetachNamespace h p s
  | .setNsMode h p => Sys2Proof.Machine.execSetNsMode h p s
  | .setWbQuota h p => Sys2Proof.Machine.execSetWbQuota h p s
  | .getNsStatus h p => Sys2Proof.Machine.execGetNsStatus h p s
  | .discardDirty h p => Sys2Proof.Machine.execDiscardDirty h p s
  | .linkUp port => Sys2Proof.Machine.execLinkUp port s
  | .linkDown port => Sys2Proof.Machine.execLinkDown port s
  | .fecDegrade port corrected => Sys2Proof.Machine.execFecDegrade port corrected s
  | .frameReceived port frame own uncorr => Sys2Proof.Machine.execFrameReceived port frame own uncorr s
  | .frameRecirculate unit => Sys2Proof.Machine.execFrameRecirculate unit s
  | .rdmaWriteReceived pkt => Sys2Proof.Machine.execRdmaWriteReceived pkt s
  | .rdmaReadRequest pkt => Sys2Proof.Machine.execRdmaReadRequest pkt s
  | .rdmaReadResponse pkt => Sys2Proof.Machine.execRdmaReadResponse pkt s
  | .ackReceived pkt => Sys2Proof.Machine.execAckReceived pkt s
  | .cnpReceived qpn => Sys2Proof.Machine.execCnpReceived qpn s
  | .qpAckTimeout qpn => Sys2Proof.Machine.execQpAckTimeout qpn s
  | .sprayAckTimer qpn => Sys2Proof.Machine.execSprayAckTimer qpn s
  | .qpRecoveryStart qpn => Sys2Proof.Machine.execQpRecoveryStart qpn s
  | .recoverSendTimer qpn => Sys2Proof.Machine.execRecoverSendTimer qpn s
  | .recoverReceived pkt => Sys2Proof.Machine.execRecoverReceived pkt s
  | .recoveryAttemptTimeout qpn => Sys2Proof.Machine.execRecoveryAttemptTimeout qpn s
  | .recoveryRetry qpn => Sys2Proof.Machine.execRecoveryRetry qpn s
  | .pathDown qpn path => Sys2Proof.Machine.execPathDown qpn path s
  | .pathProbe qpn path answered => Sys2Proof.Machine.execPathProbe qpn path answered s
  | .netEvqHeadWrite val => Sys2Proof.Machine.execNetEvqHeadWrite val s
  | .cmReqReceived src req => Sys2Proof.Machine.execCmReqReceived src req s
  | .cmRepReceived member rep => Sys2Proof.Machine.execCmRepReceived member rep s
  | .setPortMode h p => Sys2Proof.Machine.execSetPortMode h p s
  | .getPortStatus h p => Sys2Proof.Machine.execGetPortStatus h p s
  | .createQp h p => Sys2Proof.Machine.execCreateQp h p s
  | .modifyQp h p => Sys2Proof.Machine.execModifyQp h p s
  | .destroyQp h p => Sys2Proof.Machine.execDestroyQp h p s
  | .queryQp h p => Sys2Proof.Machine.execQueryQp h p s
  | .setEventQueue h p => Sys2Proof.Machine.execSetEventQueue h p s
  | .registerRegion h p => Sys2Proof.Machine.execRegisterRegion h p s
  | .deregisterRegion h p => Sys2Proof.Machine.execDeregisterRegion h p s
  | .troupeAddMember h p => Sys2Proof.Machine.execTroupeAddMember h p s
  | .troupeRemoveMember h p => Sys2Proof.Machine.execTroupeRemoveMember h p s
  | .setContextReserve h p => Sys2Proof.Machine.execSetContextReserve h p s
  | .hedLoadGraph h p => Sys2Proof.Machine.execHedLoadGraph h p s
  | .hedSetTable h p => Sys2Proof.Machine.execHedSetTable h p s
  | .hedAddEntry h p => Sys2Proof.Machine.execHedAddEntry h p s
  | .hedDelEntry h p => Sys2Proof.Machine.execHedDelEntry h p s
  | .setPacketRing h p => Sys2Proof.Machine.execSetPacketRing h p s
  | .flowAgeExpiry ctx => Sys2Proof.Machine.execFlowAgeExpiry ctx s
  | .contextError ctx => Sys2Proof.Machine.execContextError ctx s
  | .cipAssignPages h p => Sys2Proof.Machine.execCipAssignPages h p s
  | .cipLoadKey h p => Sys2Proof.Machine.execCipLoadKey h p s
  | .cipClearPage h p => Sys2Proof.Machine.execCipClearPage h p s
  | .cipCrypt h p => Sys2Proof.Machine.execCipCrypt h p s
  | .cipherUnitDone unit agree => Sys2Proof.Machine.execCipherUnitDone unit agree s
  | .espLaneTimeout page => Sys2Proof.Machine.execEspLaneTimeout page s
  | .drbgReseed lane => Sys2Proof.Machine.execDrbgReseed lane s
  | .shuOpenStream h p => Sys2Proof.Machine.execShuOpenStream h p s
  | .shuCloseStream h p => Sys2Proof.Machine.execShuCloseStream h p s
  | .shuFeed h p => Sys2Proof.Machine.execShuFeed h p s
  | .shuGetStream h p => Sys2Proof.Machine.execShuGetStream h p s
  | .shuSetPolicy h p => Sys2Proof.Machine.execShuSetPolicy h p s
  | .shuReturnOutput h p => Sys2Proof.Machine.execShuReturnOutput h p s
  | .shuSetMel h p => Sys2Proof.Machine.execShuSetMel h p s
  | .streamInputRead stream data ok => Sys2Proof.Machine.execStreamInputRead stream data ok s
  | .pictureDecoded stream pic => Sys2Proof.Machine.execPictureDecoded stream pic s
  | .audioFrameDecoded stream aud => Sys2Proof.Machine.execAudioFrameDecoded stream aud s
  | .captionChange stream cap => Sys2Proof.Machine.execCaptionChange stream cap s
  | .sliceReparseDone stream first ok => Sys2Proof.Machine.execSliceReparseDone stream first ok s
  | .containerTimeout stream => Sys2Proof.Machine.execContainerTimeout stream s
  | .tapLoadProgram h p => Sys2Proof.Machine.execTapLoadProgram h p s
  | .tapUnloadProgram h p => Sys2Proof.Machine.execTapUnloadProgram h p s
  | .tapRun h p => Sys2Proof.Machine.execTapRun h p s
  | .tapBindQueue h p => Sys2Proof.Machine.execTapBindQueue h p s
  | .tapUnbindQueue h p => Sys2Proof.Machine.execTapUnbindQueue h p s
  | .tapGetQueue h p => Sys2Proof.Machine.execTapGetQueue h p s
  | .tapSetPolicy h p => Sys2Proof.Machine.execTapSetPolicy h p s
  | .queueWaitExpiry queue => Sys2Proof.Machine.execQueueWaitExpiry queue s
  | .sliceComplete core cycles upsets => Sys2Proof.Machine.execSliceComplete core cycles upsets s
  | .sliceOverrun core => Sys2Proof.Machine.execSliceOverrun core s
  | .coreJoin core => Sys2Proof.Machine.execCoreJoin core s
  | .loomOpenJob h p => Sys2Proof.Machine.execLoomOpenJob h p s
  | .loomCloseJob h p => Sys2Proof.Machine.execLoomCloseJob h p s
  | .loomAddWarp h p => Sys2Proof.Machine.execLoomAddWarp h p s
  | .loomSetLayout h p => Sys2Proof.Machine.execLoomSetLayout h p s
  | .loomStart h p => Sys2Proof.Machine.execLoomStart h p s
  | .loomGetCursor h p => Sys2Proof.Machine.execLoomGetCursor h p s
  | .loomSetCursor h p => Sys2Proof.Machine.execLoomSetCursor h p s
  | .loomGetOrder h p => Sys2Proof.Machine.execLoomGetOrder h p s
  | .loomGetJob h p => Sys2Proof.Machine.execLoomGetJob h p s
  | .loomSetShare h p => Sys2Proof.Machine.execLoomSetShare h p s
  | .loomFetchStart job => Sys2Proof.Machine.execLoomFetchStart job s
  | .indexEntryRead job warp abs entry => Sys2Proof.Machine.execIndexEntryRead job warp abs entry s
  | .samplePayloadRead job warp abs data => Sys2Proof.Machine.execSamplePayloadRead job warp abs data s
  | .sampleAdmit job warp block src => Sys2Proof.Machine.execSampleAdmit job warp block src s
  | .exchangeNotice job entry => Sys2Proof.Machine.execExchangeNotice job entry s
  | .rescueFetch job warp abs => Sys2Proof.Machine.execRescueFetch job warp abs s
  | .weaveClose job consumer => Sys2Proof.Machine.execWeaveClose job consumer s
  | .feedSetPort h p => Sys2Proof.Machine.execFeedSetPort h p s
  | .feedAdmit h p => Sys2Proof.Machine.execFeedAdmit h p s
  | .feedRelease h p => Sys2Proof.Machine.execFeedRelease h p s
  | .latchAssign h p => Sys2Proof.Machine.execLatchAssign h p s
  | .feedCreateRing h p => Sys2Proof.Machine.execFeedCreateRing h p s
  | .feedDestroyRing h p => Sys2Proof.Machine.execFeedDestroyRing h p s
  | .feedResetRing h p => Sys2Proof.Machine.execFeedResetRing h p s
  | .feedGetRing h p => Sys2Proof.Machine.execFeedGetRing h p s
  | .feedJoin h p => Sys2Proof.Machine.execFeedJoin h p s
  | .accelPresence accel => Sys2Proof.Machine.execAccelPresence accel s
  | .accelEnumerated accel ok funcs speed width vendor device => Sys2Proof.Machine.execAccelEnumerated accel ok funcs speed width vendor device s
  | .linkTrainingTimeout accel => Sys2Proof.Machine.execLinkTrainingTimeout accel s
  | .accelRetryTimer accel => Sys2Proof.Machine.execAccelRetryTimer accel s
  | .accelDeparted accel => Sys2Proof.Machine.execAccelDeparted accel s
  | .latchAdd w latch size val => Sys2Proof.Machine.execLatchAdd w latch size val s
  | .latchPost w latch size val => Sys2Proof.Machine.execLatchPost w latch size val s
  | .latchValWrite a => Sys2Proof.Machine.execLatchValWrite a s
  | .latchThreshWrite a => Sys2Proof.Machine.execLatchThreshWrite a s
  | .latchCfgWrite a => Sys2Proof.Machine.execLatchCfgWrite a s
  | .upstreamAccess accel addr size kind => Sys2Proof.Machine.execUpstreamAccess accel addr size kind s
  | .deliveryIssue ring => Sys2Proof.Machine.execDeliveryIssue ring s
  | .deliveryLanded ring n => Sys2Proof.Machine.execDeliveryLanded ring n s
  | .genReadResponse ring n gen => Sys2Proof.Machine.execGenReadResponse ring n gen s
  | .ringResetReadDone ring => Sys2Proof.Machine.execRingResetReadDone ring s
  | .creditMailboxEntry rkey entry => Sys2Proof.Machine.execCreditMailboxEntry rkey entry s
  | .layoutNotice job entry => Sys2Proof.Machine.execLayoutNotice job entry s
  | .layoutRoundTimeout job ring => Sys2Proof.Machine.execLayoutRoundTimeout job ring s
  | .layoutRepropose job ring => Sys2Proof.Machine.execLayoutRepropose job ring s
  | .detectedError unit cause op detail => Sys2Proof.Machine.execDetectedError unit cause op detail s
  | .correctedError unit count byRetry => Sys2Proof.Machine.execCorrectedError unit count byRetry s
  | .meshDegraded link => Sys2Proof.Machine.execMeshDegraded link s
  | .patrolScrub channel corrected => Sys2Proof.Machine.execPatrolScrub channel corrected s
  | .uncorrectableBurst addr channel link both obj => Sys2Proof.Machine.execUncorrectableBurst addr channel link both obj s
  | .partitionResetEnd part bad => Sys2Proof.Machine.execPartitionResetEnd part bad s
  | .channelRemoved => Sys2Proof.Machine.execChannelRemoved s
  | .recordCoalesceExpiry unit code op => Sys2Proof.Machine.execRecordCoalesceExpiry unit code op s
  | .iftDue core => Sys2Proof.Machine.execIftDue core s
  | .iftComplete core passed pattern => Sys2Proof.Machine.execIftComplete core passed pattern s
  | .rasSetErrorRing h p => Sys2Proof.Machine.execRasSetErrorRing h p s
  | .rasErrorHead h p => Sys2Proof.Machine.execRasErrorHead h p s
  | .rasGetUnit h p => Sys2Proof.Machine.execRasGetUnit h p s
  | .rasFenceUnit h p => Sys2Proof.Machine.execRasFenceUnit h p s
  | .rasSetTest h p => Sys2Proof.Machine.execRasSetTest h p s
  | .ckpSetJob h p => Sys2Proof.Machine.execCkpSetJob h p s
  | .ckpSetShards h p => Sys2Proof.Machine.execCkpSetShards h p s
  | .ckpSetTrigger h p => Sys2Proof.Machine.execCkpSetTrigger h p s
  | .ckpCapture h p => Sys2Proof.Machine.execCkpCapture h p s
  | .ckpGetJob h p => Sys2Proof.Machine.execCkpGetJob h p s
  | .ckpRestore h p => Sys2Proof.Machine.execCkpRestore h p s
  | .ckpSetSigners h p => Sys2Proof.Machine.execCkpSetSigners h p s
  | .ckpCloseJob h p => Sys2Proof.Machine.execCkpCloseJob h p s
  | .ckpReadBank h p => Sys2Proof.Machine.execCkpReadBank h p s
  | .captureDecision job => Sys2Proof.Machine.execCaptureDecision job s
  | .bankZeroAck job => Sys2Proof.Machine.execBankZeroAck job s
  | .captureStart job => Sys2Proof.Machine.execCaptureStart job s
  | .shardCopied job index data ok => Sys2Proof.Machine.execShardCopied job index data ok s
  | .shardStored job index => Sys2Proof.Machine.execShardStored job index s
  | .captureCommit job => Sys2Proof.Machine.execCaptureCommit job s
  | .pbWriteFail job status => Sys2Proof.Machine.execPbWriteFail job status s
  | .checkpointNotice job entry => Sys2Proof.Machine.execCheckpointNotice job entry s
  | .drainComplete job => Sys2Proof.Machine.execDrainComplete job s
  | .restoreShardRead job index data remote => Sys2Proof.Machine.execRestoreShardRead job index data remote s
  | .stgLoadGo a => Sys2Proof.Machine.execStgLoadGo a s
  | .stgLoadDone image readOk => Sys2Proof.Machine.execStgLoadDone image readOk s
  | .watchdogExpiry core => Sys2Proof.Machine.execWatchdogExpiry core s
  | .stagehandRestarted core => Sys2Proof.Machine.execStagehandRestarted core s
  | .fwGetInfo h p => Sys2Proof.Machine.execFwGetInfo h p s
  | .fwStage h p => Sys2Proof.Machine.execFwStage h p s
  | .fwVerify h p => Sys2Proof.Machine.execFwVerify h p s
  | .fwActivate h p => Sys2Proof.Machine.execFwActivate h p s
  | .handoverClearance => Sys2Proof.Machine.execHandoverClearance s
  | .activateDeferTimeout => Sys2Proof.Machine.execActivateDeferTimeout s
  | .handoverQuiesced => Sys2Proof.Machine.execHandoverQuiesced s
  | .handoverQuiesceTimeout => Sys2Proof.Machine.execHandoverQuiesceTimeout s
  | .handoverResumed => Sys2Proof.Machine.execHandoverResumed s
  | .trialExpiry => Sys2Proof.Machine.execTrialExpiry s
  | .fwCommit h p => Sys2Proof.Machine.execFwCommit h p s
  | .fwRollback h p => Sys2Proof.Machine.execFwRollback h p s
  | .fwLoadModule h p => Sys2Proof.Machine.execFwLoadModule h p s
  | .fwUnloadModule h p => Sys2Proof.Machine.execFwUnloadModule h p s
  | .fwSetModuleKey h p => Sys2Proof.Machine.execFwSetModuleKey h p s
  | .add core rd ra rb => Sys2Proof.Machine.execAdd core rd ra rb s
  | .sub core rd ra rb => Sys2Proof.Machine.execSub core rd ra rb s
  | .andR core rd ra rb => Sys2Proof.Machine.execAndR core rd ra rb s
  | .orR core rd ra rb => Sys2Proof.Machine.execOrR core rd ra rb s
  | .xorR core rd ra rb => Sys2Proof.Machine.execXorR core rd ra rb s
  | .shl core rd ra rb => Sys2Proof.Machine.execShl core rd ra rb s
  | .shr core rd ra rb => Sys2Proof.Machine.execShr core rd ra rb s
  | .sar core rd ra rb => Sys2Proof.Machine.execSar core rd ra rb s
  | .mul core rd ra rb => Sys2Proof.Machine.execMul core rd ra rb s
  | .mulhu core rd ra rb => Sys2Proof.Machine.execMulhu core rd ra rb s
  | .divu core rd ra rb => Sys2Proof.Machine.execDivu core rd ra rb s
  | .remu core rd ra rb => Sys2Proof.Machine.execRemu core rd ra rb s
  | .minu core rd ra rb => Sys2Proof.Machine.execMinu core rd ra rb s
  | .maxu core rd ra rb => Sys2Proof.Machine.execMaxu core rd ra rb s
  | .movR core rd ra => Sys2Proof.Machine.execMovR core rd ra s
  | .sltu core rd ra rb => Sys2Proof.Machine.execSltu core rd ra rb s
  | .addi core rd ra imm => Sys2Proof.Machine.execAddi core rd ra imm s
  | .andi core rd ra imm => Sys2Proof.Machine.execAndi core rd ra imm s
  | .ori core rd ra imm => Sys2Proof.Machine.execOri core rd ra imm s
  | .xori core rd ra imm => Sys2Proof.Machine.execXori core rd ra imm s
  | .shiftiShl core rd ra amount => Sys2Proof.Machine.execShiftiShl core rd ra amount s
  | .shiftiShr core rd ra amount => Sys2Proof.Machine.execShiftiShr core rd ra amount s
  | .shiftiSar core rd ra amount => Sys2Proof.Machine.execShiftiSar core rd ra amount s
  | .movz core rd k imm => Sys2Proof.Machine.execMovz core rd k imm s
  | .movk core rd k imm => Sys2Proof.Machine.execMovk core rd k imm s
  | .ld64 core rd ra imm => Sys2Proof.Machine.execLd64 core rd ra imm s
  | .ld32u core rd ra imm => Sys2Proof.Machine.execLd32u core rd ra imm s
  | .ld16u core rd ra imm => Sys2Proof.Machine.execLd16u core rd ra imm s
  | .ld8u core rd ra imm => Sys2Proof.Machine.execLd8u core rd ra imm s
  | .st64 core rs ra imm => Sys2Proof.Machine.execSt64 core rs ra imm s
  | .st32 core rs ra imm => Sys2Proof.Machine.execSt32 core rs ra imm s
  | .st16 core rs ra imm => Sys2Proof.Machine.execSt16 core rs ra imm s
  | .st8 core rs ra imm => Sys2Proof.Machine.execSt8 core rs ra imm s
  | .beq core rs ra imm => Sys2Proof.Machine.execBeq core rs ra imm s
  | .bne core rs ra imm => Sys2Proof.Machine.execBne core rs ra imm s
  | .blt core rs ra imm => Sys2Proof.Machine.execBlt core rs ra imm s
  | .bge core rs ra imm => Sys2Proof.Machine.execBge core rs ra imm s
  | .bltu core rs ra imm => Sys2Proof.Machine.execBltu core rs ra imm s
  | .bgeu core rs ra imm => Sys2Proof.Machine.execBgeu core rs ra imm s
  | .jal core imm => Sys2Proof.Machine.execJal core imm s
  | .jr core rd ra => Sys2Proof.Machine.execJr core rd ra s
  | .loop core level rc fin => Sys2Proof.Machine.execLoop core level rc fin s
  | .loopi core level count fin => Sys2Proof.Machine.execLoopi core level count fin s
  | .csrr core rd imm => Sys2Proof.Machine.execCsrr core rd imm s
  | .csrw core rs imm => Sys2Proof.Machine.execCsrw core rs imm s
  | .tagR core rd ra => Sys2Proof.Machine.execTagR core rd ra s
  | .retag core rd ra tag => Sys2Proof.Machine.execRetag core rd ra tag s
  | .trap core imm => Sys2Proof.Machine.execTrap core imm s
  | .tret core cls => Sys2Proof.Machine.execTret core cls s
  | .adr core rd imm => Sys2Proof.Machine.execAdr core rd imm s
  | .wait core rd rb => Sys2Proof.Machine.execWait core rd rb s
  | .waitReturn core => Sys2Proof.Machine.execWaitReturn core s
  | .sha256Init core => Sys2Proof.Machine.execSha256Init core s
  | .sha256Upd core ra rb => Sys2Proof.Machine.execSha256Upd core ra rb s
  | .sha256Fin core ra => Sys2Proof.Machine.execSha256Fin core ra s
  | .crc32c core rd ra rb => Sys2Proof.Machine.execCrc32c core rd ra rb s
  | .crc64 core rd ra rb => Sys2Proof.Machine.execCrc64 core rd ra rb s
  | .walk core rd ra rb => Sys2Proof.Machine.execWalk core rd ra rb s
  | .ctxRd core ra rb => Sys2Proof.Machine.execCtxRd core ra rb s
  | .ctxWr core ra rb => Sys2Proof.Machine.execCtxWr core ra rb s
  | .ctxPin core ra => Sys2Proof.Machine.execCtxPin core ra s
  | .ctxUnpin core ra => Sys2Proof.Machine.execCtxUnpin core ra s
  | .cbRaise core ra => Sys2Proof.Machine.execCbRaise core ra s
  | .cbPend core rd => Sys2Proof.Machine.execCbPend core rd s
  | .cbDone core ra => Sys2Proof.Machine.execCbDone core ra s
  | .ltRead core rd ra => Sys2Proof.Machine.execLtRead core rd ra s
  | .ltAdd core ra rb => Sys2Proof.Machine.execLtAdd core ra rb s
  | .ltThresh core ra rb => Sys2Proof.Machine.execLtThresh core ra rb s
  | .dmaCopy core rd ra host err => Sys2Proof.Machine.execDmaCopy core rd ra host err s
  | .dmaWin core rd ra => Sys2Proof.Machine.execDmaWin core rd ra s
  | .moduleBudgetExpiry core => Sys2Proof.Machine.execModuleBudgetExpiry core s
  | .callAssign h p => Sys2Proof.Machine.execCallAssign h p s
  | .callMaskSet a => Sys2Proof.Machine.execCallMaskSet a s
  | .callMaskClr a => Sys2Proof.Machine.execCallMaskClr a s
  | .callPendSet a => Sys2Proof.Machine.execCallPendSet a s
  | .callPendClr a => Sys2Proof.Machine.execCallPendClr a s
  | .callVTake fn vec => Sys2Proof.Machine.execCallVTake fn vec s
  | .callVDone fn vec src => Sys2Proof.Machine.execCallVDone fn vec src s
  | .moderationExpiry fn vec => Sys2Proof.Machine.execModerationExpiry fn vec s
  | .msixUnmask fn vec => Sys2Proof.Machine.execMsixUnmask fn vec s
  | .flr fn => Sys2Proof.Machine.execFlr fn s
  | .flrComplete fn => Sys2Proof.Machine.execFlrComplete fn s
  | .vfEnableSet num => Sys2Proof.Machine.execVfEnableSet num s
  | .vfEnableClear => Sys2Proof.Machine.execVfEnableClear s
  | .barResize vf size => Sys2Proof.Machine.execBarResize vf size s
  | .mboxSeqWrite a => Sys2Proof.Machine.execMboxSeqWrite a s
  | .mboxAckWrite a => Sys2Proof.Machine.execMboxAckWrite a s
  | .vfSetResources h p => Sys2Proof.Machine.execVfSetResources h p s
  | .vfGetResources h p => Sys2Proof.Machine.execVfGetResources h p s
  | .vfSetMbox h p => Sys2Proof.Machine.execVfSetMbox h p s
  | .vfTrackStart h p => Sys2Proof.Machine.execVfTrackStart h p s
  | .vfTrackSync h p => Sys2Proof.Machine.execVfTrackSync h p s
  | .vfTrackStop h p => Sys2Proof.Machine.execVfTrackStop h p s
  | .vfFreeze h p => Sys2Proof.Machine.execVfFreeze h p s
  | .vfFrozen vf => Sys2Proof.Machine.execVfFrozen vf s
  | .vfFreezeDrainLimit vf => Sys2Proof.Machine.execVfFreezeDrainLimit vf s
  | .vfSavePrecopy h p => Sys2Proof.Machine.execVfSavePrecopy h p s
  | .vfSaveFinal h p => Sys2Proof.Machine.execVfSaveFinal h p s
  | .vfRestore h p data => Sys2Proof.Machine.execVfRestore h p data s
  | .vfResume h p => Sys2Proof.Machine.execVfResume h p s
  | .vfSetMigKey h p => Sys2Proof.Machine.execVfSetMigKey h p s
  | .smBoot => Sys2Proof.Machine.execSmBoot s
  | .smWatchdogExpiry => Sys2Proof.Machine.execSmWatchdogExpiry s
  | .sensorSample index reading => Sys2Proof.Machine.execSensorSample index reading s
  | .storeBankCompare same => Sys2Proof.Machine.execStoreBankCompare same s
  | .getVersion medium req => Sys2Proof.Machine.execGetVersion medium req s
  | .getCapabilities medium req => Sys2Proof.Machine.execGetCapabilities medium req s
  | .negotiateAlgorithms medium req => Sys2Proof.Machine.execNegotiateAlgorithms medium req s
  | .getDigests medium req => Sys2Proof.Machine.execGetDigests medium req s
  | .getCertificate medium req => Sys2Proof.Machine.execGetCertificate medium req s
  | .challenge medium req => Sys2Proof.Machine.execChallenge medium req s
  | .getMeasurements medium req => Sys2Proof.Machine.execGetMeasurements medium req s
  | .keyExchange medium req => Sys2Proof.Machine.execKeyExchange medium req s
  | .finish medium sess req => Sys2Proof.Machine.execFinish medium sess req s
  | .keyUpdate medium sess req => Sys2Proof.Machine.execKeyUpdate medium sess req s
  | .endSession medium sess req => Sys2Proof.Machine.execEndSession medium sess req s
  | .mctpControl medium req => Sys2Proof.Machine.execMctpControl medium req s
  | .mgmtCommand sess packet data => Sys2Proof.Machine.execMgmtCommand sess packet data s
  | .mgmtScanRequest sess req => Sys2Proof.Machine.execMgmtScanRequest sess req s
  | .pldmBase medium req => Sys2Proof.Machine.execPldmBase medium req s
  | .pldmPlatform medium req => Sys2Proof.Machine.execPldmPlatform medium req s
  | .pldmFru medium req => Sys2Proof.Machine.execPldmFru medium req s
  | .pldmFirmwareUpdate medium sess req => Sys2Proof.Machine.execPldmFirmwareUpdate medium sess req s
  | .setEventReceiver medium eid => Sys2Proof.Machine.execSetEventReceiver medium eid s
  | .healthResendTimer acked => Sys2Proof.Machine.execHealthResendTimer acked s
  | .activateFirmware medium sess req => Sys2Proof.Machine.execActivateFirmware medium sess req s
  | .smActivateClearance => Sys2Proof.Machine.execSmActivateClearance s
  | .smActivateTimeout => Sys2Proof.Machine.execSmActivateTimeout s
  | .smFwConfirm => Sys2Proof.Machine.execSmFwConfirm s
  | .smTrialTimeout => Sys2Proof.Machine.execSmTrialTimeout s
  | .smReadLog h p => Sys2Proof.Machine.execSmReadLog h p s
  | .smSetOperatorKey h p => Sys2Proof.Machine.execSmSetOperatorKey h p s
  | .smSetThreshold h p => Sys2Proof.Machine.execSmSetThreshold h p s
  | .smSetFwKey h p => Sys2Proof.Machine.execSmSetFwKey h p s
  | .smSetMgmt h p => Sys2Proof.Machine.execSmSetMgmt h p s
  | .mgmtConfigApply => Sys2Proof.Machine.execMgmtConfigApply s
  | .obsSetSnapArea h p => Sys2Proof.Machine.execObsSetSnapArea h p s
  | .obsSnapHead h p => Sys2Proof.Machine.execObsSnapHead h p s
  | .obsSetCounter h p => Sys2Proof.Machine.execObsSetCounter h p s
  | .obsTraceCfg h p => Sys2Proof.Machine.execObsTraceCfg h p s
  | .obsTraceStart h p => Sys2Proof.Machine.execObsTraceStart h p s
  | .obsTraceStop h p => Sys2Proof.Machine.execObsTraceStop h p s
  | .obsTrigger h p => Sys2Proof.Machine.execObsTrigger h p s
  | .obsTraceRead h p => Sys2Proof.Machine.execObsTraceRead h p s
  | .obsTableau h p => Sys2Proof.Machine.execObsTableau h p s
  | .obsClearCounters h p => Sys2Proof.Machine.execObsClearCounters h p s
  | .tableauStopped => Sys2Proof.Machine.execTableauStopped s
  | .jtagAccess space addr len => Sys2Proof.Machine.execJtagAccess space addr len s
  | .powerControlTick => Sys2Proof.Machine.execPowerControlTick s
  | .thermalCapStep => Sys2Proof.Machine.execThermalCapStep s
  | .pwrSetCap h p => Sys2Proof.Machine.execPwrSetCap h p s
  | .pwrSetConfig h p => Sys2Proof.Machine.execPwrSetConfig h p s
  | .eprNLow => Sys2Proof.Machine.execEprNLow s
  | .eprNHigh => Sys2Proof.Machine.execEprNHigh s
  | .eprHoldExpiry => Sys2Proof.Machine.execEprHoldExpiry s
  | .aonPowerUp straps => Sys2Proof.Machine.execAonPowerUp straps s
  | .aonPowerOff => Sys2Proof.Machine.execAonPowerOff s
  | .inputOutOfRange => Sys2Proof.Machine.execInputOutOfRange s
  | .inputRestored => Sys2Proof.Machine.execInputRestored s
  | .pwrEnHigh => Sys2Proof.Machine.execPwrEnHigh s
  | .pwrEnLow => Sys2Proof.Machine.execPwrEnLow s
  | .mainPowerUp => Sys2Proof.Machine.execMainPowerUp s
  | .mainDomainReady => Sys2Proof.Machine.execMainDomainReady s
  | .sysRstAssert => Sys2Proof.Machine.execSysRstAssert s
  | .sysRstRelease => Sys2Proof.Machine.execSysRstRelease s
  | .hpPerstAssert => Sys2Proof.Machine.execHpPerstAssert s
  | .perstResetHoldExpiry => Sys2Proof.Machine.execPerstResetHoldExpiry s
  | .hpPerstRelease => Sys2Proof.Machine.execHpPerstRelease s
  | .tableauNFall => Sys2Proof.Machine.execTableauNFall s
  | .handoverStep4Timeout => Sys2Proof.Machine.execHandoverStep4Timeout s
  | .stoTargetUnreachable target => Sys2Proof.Machine.execStoTargetUnreachable target s
  | .rejReceived member => Sys2Proof.Machine.execRejReceived member s
  | .rtuReceived member => Sys2Proof.Machine.execRtuReceived member s
  | .netPeerUnreachable member => Sys2Proof.Machine.execNetPeerUnreachable member s
  | .hostLinkUp => Sys2Proof.Machine.execHostLinkUp s
  | .dynamicAddressAssigned addr => Sys2Proof.Machine.execDynamicAddressAssigned addr s
  | .alertNAssert => Sys2Proof.Machine.execAlertNAssert s

end Sys2Proof.Machine
end

