-- ==== Sys2Proof/Safety.lean ====
section
/-!
DEFINITION. What counts as a safe run of the block, and the terms in which statements speak of a command that completes.
-/
namespace Sys2Proof.Safety

open Sys2Proof Sys2Proof.Machine

/-- A step is safe when it answers a next state: no fault and no refusal. -/
def stepSafe (s : State) : Bool :=
  match step s with
  | .next _ => true
  | .fault _ => false
  | .refused _ => false

/-! ## Command packets of a queue pair -/

/-- The state in which a packet of queue pair `qp` of function `fn` is checked: its slots have been fetched and its start noted. -/
def begun (sp : OpSpec) (fn qp : Nat) (h : Hdr) (s : State) : State :=
  (s.fetchSlots fn qp h sp.code).note h.unit 0x0002 fn (sp.code + 65536 * h.hostTag) 0

/-- Whether a packet is fetched from its queue pair now, its slots being read without a PCIe error, starts, passes the checks of steps 1
to 8 as the command of caller `c`, is not forwarded, asks for no snapshot, and is not held as work of a scope in intermission, nor waits
behind work of that scope that is. -/
def served (sp : OpSpec) (fn qp : Nat) (h : Hdr) (p : Bytes) (c : Caller) (s : State) : Bool :=
  match aget s.cmd.qps (qpKey fn qp) with
  | none => false
  | some q =>
    let b := begun sp fn qp h s
    h.chan == .host fn qp && decide (fn < 256) && (s.cmd.fetched.find? (fun f => f.isCmd sp.code h p)).isNone && s.canFetch fn q h &&
      h.sqOk && !(s.cmd.waiting.any (fun w => w.opcode == 0x0005 && w.aux == qpKey fn qp)) && s.mayStart (qpKey fn qp) h && h.pathLen == 0 &&
      !h.snapshot &&
      (match sp.check b h p (b.judge sp.code h.unit) with
       | .ok x => x == c
       | .error _ => false) &&
      (match sp.dataScope with
       | some sc => !(b.held sc || b.cmd.fetched.any (fun x => x.held == some sc))
       | none => true)

/-- What every reply to a packet carries before its status: STATE as judged and SQ_HEAD. -/
def replyBase (sp : OpSpec) (fn qp : Nat) (h : Hdr) (s : State) : Rep :=
  { st := (begun sp fn qp h s).judge sp.code h.unit, sqHead := (agetD (s.fetchSlots fn qp h sp.code).cmd.qps (qpKey fn qp) {}).head }

/-- The state `t` with the packet's reply written: OK, DETAIL as R75 gives it, and RESULT. -/
def answered (sp : OpSpec) (fn qp : Nat) (h : Hdr) (s : State) (result : Nat) (t : State) : State :=
  t.reply h sp.code
    { replyBase sp fn qp h s with status := sOk, detail := (begun sp fn qp h s).okDetail h.unit sOk 0, result := result }

/-- The state `t` with the packet answered by another status and DETAIL. -/
def answeredBy (sp : OpSpec) (fn qp : Nat) (h : Hdr) (s : State) (status detail result : Nat) (t : State) : State :=
  t.reply h sp.code
    { replyBase sp fn qp h s with
      status := status, detail := (begun sp fn qp h s).okDetail h.unit status detail, result := result }

/-- The state `t` with the packet waiting for the event of `kind` before its reply is written (R399). -/
def deferred (sp : OpSpec) (fn qp : Nat) (h : Hdr) (p : Bytes) (s : State) (kind aux : Nat) (t : State) : State :=
  t.upCmd (fun k => { k with waiting := k.waiting ++
    [{ opcode := sp.code, hdr := h, kind := kind, aux := aux, params := p, sqHead := (replyBase sp fn qp h s).sqHead,
       stateCode := (replyBase sp fn qp h s).st, snap := none, replayed := false }] })

/-- The state with a packet's setting staged for a unit in intermission `r`, in the place of an earlier one of the same field, and
answered OK with INTERMISSION as its STATE (R88). -/
def stagedReply (sp : OpSpec) (fn qp : Nat) (h : Hdr) (p : Bytes) (c : Caller) (s : State) (r : Inter) (unit : Nat)
    (same : Staged → Bool) (result : Nat) : State :=
  let b := begun sp fn qp h s
  let x : Staged := { opcode := sp.code, unit := unit, fn := c.fn, params := p }
  (b.upCmd (fun k => { k with inters := lupd k.inters (fun i => i.scope == r.scope) (fun i =>
      { i with staged := stageIn i.staged (fun y => y.opcode == sp.code && y.unit == unit && same y) x }) })).reply h sp.code
    { replyBase sp fn qp h s with status := sOk, detail := b.okDetail h.unit sOk 0, st := 4, result := result }

/-- The state after a check of steps 9 to 11 failed: the error is counted and the status written, and nothing else happens (R76). -/
def turnedAway (sp : OpSpec) (fn qp : Nat) (h : Hdr) (s : State) (status detail : Nat) : State :=
  ((begun sp fn qp h s).countErr fn).reply h sp.code { replyBase sp fn qp h s with status := status, detail := detail }

/-! ## The host -/

/-- Whether a host write to a function's registers is performed: the link is up, the function is there, not in reset and not frozen. -/
def hostWrites (fn : Nat) (s : State) : Bool := s.hostUp && s.fnEnabled fn && !s.inFlr fn && !s.vfFrozen fn

/-- Whether a host read of a function's registers is performed. -/
def hostReads (fn : Nat) (s : State) : Bool := s.hostUp && s.fnEnabled fn && !s.inFlr fn

/-! ## The Onbusyn cores -/

/-- Whether a core executes the instruction at its pc: it runs, does not wait, has budget, and the fetch meets no cause (R420). -/
def onbAt (n : Nat) (s : State) : Bool := s.coreReady n && ((s.core n).fetchCauses n).isEmpty

/-- The state with a core changed and gone on to its next instruction. -/
def onbNext (n : Nat) (f : OnbCore → OnbCore) (s : State) : State := s.upCore n (fun c => (f c).advance)

/-- The state with one register of a core written and the core gone on. -/
def onbPut (n rd : Nat) (w : LWord) (s : State) : State := onbNext n (fun c => c.setReg rd w) s

/-- Whether a source register holds neither UNINIT nor POISON (R415). -/
def srcOk (w : LWord) : Bool := w.tag != tUninit && w.tag != tPoison

/-- Whether `len` bytes at a load's or store's address may be accessed: a PTR base, aligned, and in reach of the core (R417). -/
def accessOk (n ra imm len : Nat) (c : OnbCore) : Bool :=
  (c.reg ra).tag == tPtr && c.ea ra imm % len == 0 && c.dataOk n (c.ea ra imm) len

/-- Whether a coprocessor may be used: present on this core and permitted to a module (R412, R426). -/
def cpOk (n cp : Nat) (c : OnbCore) : Bool := !(n == smCore && decide (2 ≤ cp)) && (!c.priv || bit c.cpmask cp)

/-- Whether a coprocessor's local operand is a PTR to `len` bytes that the core may reach. -/
def localOk (n len : Nat) (w : LWord) (c : OnbCore) : Bool := w.tag == tPtr && (c.dataOk n w.val.toNat len || len == 0)

/-! ## Frames -/

/-- A piece of the state: each field of `State` but the queue of waiting commands. -/
inductive Piece where
  | out
  | free
  | gddr
  | glb
  | aon
  | cue
  | cmd
  | sto
  | net
  | hed
  | ctx
  | cip
  | shu
  | tap
  | tapc
  | loom
  | feed
  | lat
  | ras
  | ckp
  | stg
  | onb
  | call
  | host
  | flash
  | sm
  | obs
  | pwr
deriving DecidableEq, Repr

/-- Whether a part is the same in two states. -/
def Piece.same (p : Piece) (s t : State) : Prop :=
  match p with
  | .out => t.out = s.out
  | .free => t.free = s.free
  | .gddr => t.gddr = s.gddr
  | .glb => t.glb = s.glb
  | .aon => t.aon = s.aon
  | .cue => t.cue = s.cue
  | .cmd => t.cmd = s.cmd
  | .sto => t.sto = s.sto
  | .net => t.net = s.net
  | .hed => t.hed = s.hed
  | .ctx => t.ctx = s.ctx
  | .cip => t.cip = s.cip
  | .shu => t.shu = s.shu
  | .tap => t.tap = s.tap
  | .tapc => t.tapc = s.tapc
  | .loom => t.loom = s.loom
  | .feed => t.feed = s.feed
  | .lat => t.lat = s.lat
  | .ras => t.ras = s.ras
  | .ckp => t.ckp = s.ckp
  | .stg => t.stg = s.stg
  | .onb => t.onb = s.onb
  | .call => t.call = s.call
  | .host => t.host = s.host
  | .flash => t.flash = s.flash
  | .sm => t.sm = s.sm
  | .obs => t.obs = s.obs
  | .pwr => t.pwr = s.pwr

/-- Whether two states differ in the listed parts at most; the queue is the same. -/
def onlyChanges (ps : List Piece) (s t : State) : Prop := t.pending = s.pending ∧ ∀ p, p ∉ ps → p.same s t

/-- Every part. -/
def everyPart : List Piece :=
  [.out, .free, .gddr, .glb, .aon, .cue, .cmd, .sto, .net, .hed, .ctx, .cip, .shu, .tap,
   .tapc, .loom, .feed, .lat, .ras, .ckp, .stg, .onb, .call, .host, .flash, .sm, .obs, .pwr]

/-- Every part but some. -/
def allBut (l : List Piece) : List Piece := everyPart.filter (fun p => !l.contains p)

/-- What a call source, an event record or a message to the host may change: outputs, the call board, links that a trace ended by its
trigger drops into the Tableau, and the trace itself. -/
def signals : List Piece := [.out, .aon, .net, .call, .obs]

/-- What the reply to a command may change besides, the reply of a management command and of one that a head forwarded among them: the
reply entry goes by RDMA, so the context cache may fetch or write back. -/
def replies : List Piece := [.out, .free, .aon, .cmd, .net, .ctx, .call, .host, .sm, .obs]

/-- What an error record or a health record may change besides. -/
def records : List Piece := [.out, .free, .aon, .net, .ras, .call, .host, .flash, .sm, .obs]

/-- What an instruction of an Onbusyn core may change: the core, and, where a trap ends its run or a module's command, what a failed stagehand
or a module that is unloaded with it leaves. -/
def runs : List Piece := [.out, .free, .gddr, .aon, .cmd, .net, .ctx, .ras, .stg, .onb, .call, .host, .flash, .sm, .obs]

/-- Whether whatever a command leaves differs from the state before it in the listed parts at most. -/
def changesOnly (f : State → Res) (ps : List Piece) : Prop := ∀ s t, f s = .next t → onlyChanges ps s t

end Sys2Proof.Safety
end

