-- ==== Sys2Proof/Certificates/Slice0/Obligations.lean ====
section
/-!
DEFINITION. The statements for the provers.
-/

open Sys2Proof Sys2Proof.Machine Sys2Proof.Safety

/-- A step takes the command at the front of the queue and runs it on the state with the queue's rest. -/
def Obligations.StepRunsFront : Prop :=
  ∀ (c : Instr) (rest : List Instr) (s : State),
    s.pending = c :: rest → step s = exec c { s with pending := rest }

/-- The session commands of a served packet complete with their own effect (R79 to R83, Table 3.21). CLOSE_SESSION also lets work go on
that an intermission of the session held (R93). The queue-pair commands of a served packet complete with their own effect (R98, R99): a
queue pair at the lowest free index, a deletion that waits for what is unanswered, and an abort that answers ABORTED_BY_HOST for a command
fetched and not started. -/
def Obligations.CommandInterfaceCommandsComplete : Prop :=
  (∀ (fn qp : Nat) (h : Hdr) (p : Bytes) (c : Caller) (s : State),
      (served opNop fn qp h p c s = true →
        exec (.nop h p) s = .next (answered opNop fn qp h s 0 (begun opNop fn qp h s))) ∧
      (served opOpenSession fn qp h p c s = true →
        ∀ b, b = begun opOpenSession fn qp h s →
        (b.cmd.sessions.filter (fun x => x.fn == fn)).length < sessionRoom fn →
        exec (.openSession h p) s =
          .next (answeredBy opOpenSession fn qp h s sOk (if sub p 8 32 = zeros 32 then 1 else 0) (b.fnCmd fn).nextHandle
            (((b.vfRuns fn).upFn fn (fun g => { g with issued := g.issued + 1, wrong := 0, lockUntil := none })).upCmd (fun k =>
              { k with sessions := k.sessions ++
                  [{ fn := fn, handle := (b.fnCmd fn).nextHandle, role := roleOf (fld p 0 1), spdm := 0 }] })))) ∧
      (served opCloseSession fn qp h p c s = true →
        exec (.closeSession h p) s =
          .next ((answered opCloseSession fn qp h s 0 ((begun opCloseSession fn qp h s).endSession c.hfn c.handle)).goOn s)) ∧
      (served opSetRoleKey fn qp h p c s = true →
        ∀ b, b = begun opSetRoleKey fn qp h s →
        (fld p 0 1 = 1 → fld p 2 2 = 0 →
          exec (.setRoleKey h p) s =
            .next (deferred opSetRoleKey fn qp h p s wStore b.sm.ticket (b.storeAdd 2 (keyDigest (sub p 8 32)) 0x00))) ∧
        (fld p 0 1 = 2 → fld p 2 2 ≠ 0 →
          exec (.setRoleKey h p) s =
            .next (answered opSetRoleKey fn qp h s 0 (b.upFn (fld p 2 2) (fun f => { f with tenantKey := sub p 8 32 }))))) ∧
      (served opGetState fn qp h p c s = true →
        ∀ b, b = begun opGetState fn qp h s →
        exec (.getState h p) s =
          .next (answered opGetState fn qp h s (b.memberCount h.unit + 65536 * ((b.ladderMembers h.unit).filter b.unitFenced).length) b))) ∧
  (∀ (fn qp : Nat) (h : Hdr) (p : Bytes) (c : Caller) (s : State),
      (served opCreateQueuePair fn qp h p c s = true →
        ∀ b, b = begun opCreateQueuePair fn qp h s →
        ∀ k, b.qpCount fn < b.maxQp fn → freeKey b.cmd.qps (b.maxQp fn - 1) (qpKey fn 1) = some k → fld p 18 2 < vectorsOf fn →
          ∀ q : QPair, q = { sqBase := fld p 0 8, cqBase := fld p 8 8, sqLog2 := fld p 16 1, cqLog2 := fld p 17 1, vector := fld p 18 2,
                             prio := fld p 20 1, home := b.pickHome } →
          exec (.createQueuePair h p) s =
            .next (answered opCreateQueuePair fn qp h s (k % 65536) (b.upCmd (fun x => { x with qps := aset x.qps k q })))) ∧
      (served opDeleteQueuePair fn qp h p c s = true →
        ∀ b, b = begun opDeleteQueuePair fn qp h s →
        ∀ k, k = qpKey fn (fld p 0 2) →
        ahas b.cmd.qps k = true →
          ∀ t, t = deferred opDeleteQueuePair fn qp h p s 3 k (b.upQp k (fun q => { q with tail := q.head })) →
          exec (.deleteQueuePair h p) s = .next (t.settleDeletes t.cmd.waiting.length)) ∧
      (served opAbort fn qp h p c s = true →
        ∀ b, b = begun opAbort fn qp h s →
        ∀ hit, hit = (fun (f : FetchedCmd) => f.ofQp (qpKey fn (fld p 0 2)) && f.hdr.hostTag == fld p 4 4) →
        (b.cmd.fetched.find? hit = none → exec (.abort h p) s = .next (answered opAbort fn qp h s 0 b).settleUnloads) ∧
        (∀ f, b.cmd.fetched.find? hit = some f →
          ∀ t, t = b.upCmd (fun x => { x with fetched := x.fetched.filter (fun y => y != f) }) →
          exec (.abort h p) s =
            .next (answeredBy opAbort fn qp h s sOk 1 0 (t.reply f.hdr f.opcode
              { status := 0x0010, st := t.judge f.opcode f.hdr.unit, sqHead := f.sqHead, replayed := f.replayed,
                mute := f.mute })).settleUnloads)))

/-- The commands that begin and end an intermission, and SET_PARTITIONS, complete with their own effect (R30, R86 to R89): BEGIN waits for
the drain, END restarts the scope at once, at its AT step or once a change of mode has taken effect (R122), and a setting is staged with
its holder. The events of an intermission happen when their premise holds (R86, R87, R89, R90): the drain is answered OK, a drain limit
answers BUSY_RETRY and abandons the intermission, and at the AT step the staged settings take effect and the scope restarts. -/
def Obligations.IntermissionsAct : Prop :=
  (∀ (fn qp : Nat) (h : Hdr) (p : Bytes) (c : Caller) (s : State),
      (served opIntermissionBegin fn qp h p c s = true →
        ∀ b, b = begun opIntermissionBegin fn qp h s →
        b.interOn h.unit = none → b.interOn uDevice = none → (h.unit = uDevice → b.cmd.inters = []) →
        exec (.intermissionBegin h p) s =
          .next (deferred opIntermissionBegin fn qp h p s wDrain h.unit (b.upCmd (fun k => { k with inters := k.inters ++
            [{ scope := h.unit, fn := c.hfn, handle := c.handle, ph := .draining, started := b.now,
               drainBy := if fld p 0 4 = 0 then none else some (b.now + 1000 * fld p 0 4) }] })))) ∧
      (served opIntermissionEnd fn qp h p c s = true →
        ∀ b, b = begun opIntermissionEnd fn qp h s →
        ∀ r t, b.interOn h.unit = some r → r.heldBy c = true → r.ph = .intermission → fld p 0 1 = 0 → b.allFenced h.unit = false →
          State.applyAll (fld p 8 8) (b.stagedNow r) 0 b = .ok t → fld p 8 8 = 0 →
          (t.modeWaits h.unit = true →
            exec (.intermissionEnd h p) s =
              .next (deferred opIntermissionEnd fn qp h p s wMode (h.unit + 4294967296 * b2n (fld p 8 8 != 0)) (t.modeHold h.unit))) ∧
          (t.modeWaits h.unit = false →
            ∀ u, u = b.restart t h.unit →
            exec (.intermissionEnd h p) s =
              .next (u.reply h 0x0007 { replyBase opIntermissionEnd fn qp h s with
                status := sOk, detail := b.okDetail h.unit sOk 0, st := u.plainState h.unit, result := 0 }))) ∧
      (served opSetPartitions fn qp h p c s = true →
        ∀ b, b = begun opSetPartitions fn qp h s →
        ∀ r, h.unit = uDevice → b.interOf uDevice = some r → r.ph = .intermission → r.heldBy c = true → b.remains p = true →
          b.rangesFit p = true →
          ∀ x : Staged, x = { opcode := 0x0020, unit := uDevice, fn := c.fn, params := p } →
          exec (.setPartitions h p) s =
            .next ((b.upCmd (fun k => { k with inters := lupd k.inters (fun i => i.scope == r.scope) (fun i =>
                { i with staged := stageIn i.staged (fun y => y.opcode == 0x0020 && y.unit == uDevice && true) x }) })).reply h 0x0020
              { replyBase opSetPartitions fn qp h s with
                status := sOk, detail := b.okDetail uDevice sOk 0, st := 4,
                result := shuffleMib b.capMib (partSizes p).1 (partSizes p).2.1 (partSizes p).2.2 }))) ∧
  (∀ (scope : Nat) (s : State) (r : Inter), s.live = true → s.interOn scope = some r →
      (r.ph = .draining → s.scopeIdle scope = true →
        ∀ t, t = ((s.upInter scope (fun r => { r with ph := .intermission, drainBy := none })).note scope 0x0010 0 3 4).iftCheck →
        exec (.intermissionDrained scope) s =
          .next ((t.cmd.waiting.filter (fun w => w.kind == wDrain && w.aux == scope)).foldl (fun u w => u.finish w sOk 0 0 4) t)) ∧
      (∀ at_, r.ph = .draining → r.drainBy = some at_ → at_ ≤ s.now →
        ∀ u, u = s.abandonInter scope →
        exec (.drainLimitExpiry scope) s =
          .next (((u.cmd.waiting.filter (fun w => w.kind == wDrain && w.aux == scope)).foldl (fun v w =>
            v.finish w sBusy 0 0 (v.plainState scope)) u).goOn s)) ∧
      (∀ t, r.ph = .restarting → s.cue.st ≠ .none → r.at_ * 65536 ≤ s.cue.pos → s.modeWaits scope = false → s.allFenced scope = false →
        State.applyAll r.at_ (s.stagedNow r) 0 s = .ok t →
        (t.modeWaits scope = true → exec (.intermissionAtReached scope) s = .next (t.modeHold scope)) ∧
        (t.modeWaits scope = false → ∀ u, u = s.restart t scope →
          exec (.intermissionAtReached scope) s =
            .next ((u.cmd.waiting.filter (fun w => w.endsWith scope)).foldl (fun v w =>
              v.finish w sOk (0 + w.aux / 4294967296) 0 (u.plainState scope)) u))))

/-- A doorbell write within the queue moves its pointer, and CMD_CTRL.EN enables or disables a function's command interface (R64, R97);
LOCKOUT_EXPIRY ends a lock that has run (R81). A command that a troupe head forwards in sequence, and one in a message of a live
management session, run as the command of their opcode (R149, R496); a member's reply in sequence joins its fan-out, and a fan-out past
its limit ends with records for the members that did not answer (R94, R95). -/
def Obligations.DoorbellsAndForeignCommandsAct : Prop :=
  (∀ (fn qp val : Nat) (s : State),
      (hostWrites fn s = true →
        (∀ q, aget s.cmd.qps (qpKey fn qp) = some q → q.err = false → val ≠ q.tail → val < q.sqSize →
          (q.tail + q.sqSize - q.head) % q.sqSize ≤ (val + q.sqSize - q.head) % q.sqSize →
          ∀ u, u = (s.ao 11 4).upQp (qpKey fn qp) (fun q => { q with tail := val, part := false }) →
          exec (.sqTailWrite fn qp { idx := val }) s = .next u ∧
          (∀ o : OtherCmd, o.hdr.chan = .host fn qp → hasRow o.opcode = false →
            exec (.sqTailWrite fn qp { idx := val, other := some o }) s = execOther o.opcode o.hdr o.params u ∧
            ∃ t, exec (.sqTailWrite fn qp { idx := val, other := some o }) s = .next t)) ∧
        (∀ q, aget s.cmd.qps (qpKey fn qp) = some q → val ≠ q.cqHead → val < q.cqSize → (val + q.cqSize - q.cqHead) % q.cqSize ≤ q.unread →
          exec (.cqHeadWrite fn qp val) s =
            .next ((s.ao 11 4).upQp (qpKey fn qp) (fun x => { x with cqHead := val, unread := x.unread - (val + q.cqSize - q.cqHead) % q.cqSize }))) ∧
        ((s.fnCmd fn).en = false → (s.fnCmd fn).cfgOk = true →
          exec (.cmdCtrlEnSet fn) s = .next (((s.ao 11 4).upFn fn (fun g => { g with en := true })).makeLive fn)) ∧
        exec (.cmdCtrlEnClear fn) s = .next (((s.ao 11 4).disableCmd fn).goOn s)) ∧
      (∀ t, (s.fnCmd fn).lockUntil = some t → t ≤ s.now →
        exec (.lockoutExpiry fn) s = .next (s.upFn fn (fun f => { f with lockUntil := none, wrong := 0 })))) ∧
  (∀ (member : Nat) (entry params data : Bytes) (readOk : Bool) (s : State),
      (∀ m, s.member member = some m → m.isHead = true → m.live = true → s.live = true → s.stg.image.isSome = true → s.granted 1 = true →
        fld entry 8184 8 = (m.cmdIn + 1) % 2 ^ 64 →
        ∀ h, h = fwdHdr member entry readOk →
        ∀ p, p = (if h.ptr then padTo h.paramLen params else sub entry 96 (min h.paramLen 4096)) →
        s.cmd.fetched.any (fun f => f.isCmd (fld entry 0 2) h p) = false →
        exec (.forwardedCommand member entry params readOk data) s =
          execOpcode (fld entry 0 2) h p data
            (if h.ptr then
              (s.upMember member (fun x => { x with cmdIn := fld entry 8184 8 })).paramRead m (fld entry 80 8) (fld entry 88 4) h.paramLen
            else s.upMember member (fun x => { x with cmdIn := fld entry 8184 8 })) ∧
        ∃ t, exec (.forwardedCommand member entry params readOk data) s = .next t) ∧
      (∀ (sess : Nat), s.sm.running = true → s.sm.sess.any (fun x => x.id == sess && x.live) = true → fld params 0 1 = 1 → 66 ≤ params.length →
        ∀ h, h = Hdr.ofBytes (.mgmt sess) (sub params 2 64) true →
        exec (.mgmtCommand sess params data) s = execOpcode (fld params 2 2) h ((params.drop 66).take h.paramLen) data s ∧
        ∃ t, exec (.mgmtCommand sess params data) s = .next t) ∧
      (∀ m f, s.live = true → s.member member = some m → fld entry 4088 8 = (m.rplyIn + 1) % 2 ^ 64 →
        ∀ s1, s1 = s.upMember member (fun x => { x with rplyIn := fld entry 4088 8 }) →
        s1.cmd.fanouts.find? (fun f => f.id == fld entry 0 8 && f.members.contains member) = some f →
        ∀ g : Fanout, g = { f with members := ldel f.members member, replies := f.replies ++ entryReplies member entry,
                                   ovf := f.ovf || bit (fld entry 42 1) 0 } →
        ∀ t, t = (s1.upCmd (fun c => { c with fanouts := lupd c.fanouts (fun x => x.id == fld entry 0 8) (fun _ => g) })).fwdDone member →
        exec (.troupeMemberReply member entry) s = .next (if g.members.isEmpty then t.endFanout g else t)) ∧
      (∀ (fwd : Nat) f, s.live = true → s.cmd.fanouts.find? (fun f => f.id == fwd) = some f → f.by_ ≤ s.now →
        exec (.troupeTimeout fwd) s =
          .next ((f.members.foldl (fun t m =>
              match t.member m with
              | some x =>
                if x.queue.any (fun e => e.1 == fwd) then
                  t.upMember m (fun x => { x with queue := x.queue.filter (fun e => e.1 != fwd) })
                else t.fwdDone m
              | none => t) s).endFanout
            { f with members := [], replies := f.replies ++ f.members.map (fun m => { path := [m] }) })))

/-- The host's accesses are performed (R13, R27, R29, R310, R457). A read of a BAR0 register answers its value, 8 bytes at once, or the low
word with the high word latched for the read that follows; a write takes effect at once, or the high word is held until the low word is
written; a reserved offset reads 0 and ignores writes; another size or alignment is not performed and is counted; BAR4 reads LATCH_VAL.
While a channel leaves the interleave an access of BAR2 is held (R350); otherwise BAR2 reads and writes the bytes of memory that the
function's window shows. -/
def Obligations.HostAccessesPerformed : Prop :=
  ∀ (a : Access) (s : State),
    (a.bar = 0 → a.off < bar0Len a.fn →
      (hostReads a.fn s = true → a.wr = false → a.aligned = true →
        (s.reg a.fn (a.off / 8 * 8) = none → exec (.registerWrite a) s = .next ((s.ao 12 a.size).emit .barRead a.fn a.off 0 [])) ∧
        (∀ r, s.reg a.fn (a.off / 8 * 8) = some r →
          (a.size = 8 → r.loose = false → exec (.registerWrite a) s = .next ((s.ao 12 8).emit .barRead a.fn a.off r.val [])) ∧
          (a.size = 8 → r.loose = true →
            exec (.registerWrite a) s = .next ((s.spent.ao 12 8).emit .barRead a.fn a.off (s.freeNat (2 ^ 64) / 2 * 2) [])) ∧
          (a.size = 4 → a.off % 8 = 0 → r.wide = true → r.loose = false →
            exec (.registerWrite a) s =
              .next (((s.latchWord a.fn a.off (some (r.val / 2 ^ 32))).ao 12 4).emit .barRead a.fn a.off (r.val % 2 ^ 32) [])) ∧
          (∀ w, a.size = 4 → a.off % 8 = 4 → r.wide = true → r.loose = false → s.latchedWord a.fn (a.off / 8 * 8) = some w →
            exec (.registerWrite a) s =
              .next (((s.latchWord a.fn (a.off / 8 * 8) none).ao 12 4).emit .barRead a.fn a.off w [])) ∧
          (a.size = 4 → r.wide = false → r.loose = false →
            exec (.registerWrite a) s =
              .next ((s.ao 12 4).emit .barRead a.fn a.off (if a.off % 8 = 0 then r.val % 2 ^ 32 else r.val / 2 ^ 32) [])))) ∧
      (hostReads a.fn s = true → a.wr = false → a.aligned = false →
        exec (.registerWrite a) s =
          .next (((s.upRas (fun r => { r with cAccess := satu 65535 (r.cAccess + 1) })).ao 12 a.size).emit .barRead a.fn a.off 0 [])) ∧
      (hostWrites a.fn s = true → a.wr = true → ∀ t, t = s.ao 11 a.size →
        (a.aligned = false → exec (.registerWrite a) s = .next (t.upRas (fun r => { r with cAccess := satu 65535 (r.cAccess + 1) }))) ∧
        (a.aligned = true →
          (t.reg a.fn (a.off / 8 * 8) = none → exec (.registerWrite a) s = .next t) ∧
          (∀ r f, t.reg a.fn (a.off / 8 * 8) = some r → r.put = some f →
            (a.size = 8 → r.wide = true → exec (.registerWrite a) s = .next (f (t.dropHeld a.fn a.off) (a.val % 2 ^ 64))) ∧
            (a.size = 4 → a.off % 8 = 4 → r.wide = true →
              exec (.registerWrite a) s =
                .next ((t.dropHeld a.fn (a.off / 8 * 8)).upGlb
                  (fun g => { g with heldHi := g.heldHi ++ [{ fn := a.fn, off := a.off / 8 * 8, val := a.val % 2 ^ 32 }] }))) ∧
            (∀ w, a.size = 4 → a.off % 8 = 0 → r.wide = true → t.heldWord a.fn a.off = some w →
              exec (.registerWrite a) s = .next (f (t.dropHeld a.fn a.off) (a.val % 2 ^ 32 + 2 ^ 32 * w))) ∧
            (a.size = 4 → a.off % 8 = 0 → r.wide = true → t.heldWord a.fn a.off = none →
              exec (.registerWrite a) s = .next (f t (a.val % 2 ^ 32 + r.rw / 2 ^ 32 * 2 ^ 32))) ∧
            (a.size = 4 → a.off % 8 = 0 → r.wide = false → exec (.registerWrite a) s = .next (f t (a.val % 2 ^ 32))))))) ∧
    (a.bar = 4 → hostReads a.fn s = true → a.wr = false → a.size = 8 → a.off % 64 = 0 → 0x00100000 ≤ a.off →
      ∀ n, s.latNamed a.fn ((a.off - 0x00100000) / 64) = some n → (s.cell n).owner = a.fn →
      exec (.registerWrite a) s = .next ((s.ao 12 8).emit .barRead a.fn a.off (s.cell n).val [])) ∧
    (s.memHeld = true → exec (.bar2Access a) s = .next (s.upRas (fun r => { r with heldUses := r.heldUses ++ [.bar2 a] }))) ∧
    (hostReads a.fn s = true → s.memHeld = false →
      ∀ t, t = s.bar2Sized →
      ∀ x, (∀ i, i < (if a.wr then a.data.length else a.size) → t.bar2At a.fn (a.off + i) = .mem (x + i)) →
      (a.wr = false → a.off + a.size ≤ t.bar2Len a.fn →
        exec (.bar2Access a) s = .next (((t.gRead a.size).ao 12 a.size).emit .barRead a.fn a.off 0 (s.mem x a.size))) ∧
      (a.wr = true → a.off + a.data.length ≤ t.bar2Len a.fn →
        ∃ u, exec (.bar2Access a) s = .next u ∧ u.mem x a.data.length = a.data ∧
          ∀ y, (y < x ∨ x + a.data.length ≤ y) → u.mem y 1 = s.mem y 1))

/-- The cue commands of a served packet complete with their own effect (R37, R47, R52 to R55). -/
def Obligations.CueCommandsComplete : Prop :=
  ∀ (fn qp : Nat) (h : Hdr) (p : Bytes) (c : Caller) (s : State),
    (served opSetCueSource fn qp h p c s = true →
      ∀ b, b = begun opSetCueSource fn qp h s →
      ∀ src, src = CueSrc.ofCode (fld p 0 1) →
      exec (.setCueSource h p) s =
        .next (answered opSetCueSource fn qp h s 0 ((b.cueNow.upCue (fun k =>
            { k with src := src, firstDue := src != .none, consec := 0, backRun := 0, hist := [], hold := false, keptEpoch := [],
                     stepEntry := none, stepHigh := if src = .serial then none else k.stepHigh, stepCarry := 0 })).cueState
          (if src = .none then .none else .acquiring)))) ∧
    (served opCueEventSet fn qp h p c s = true →
      ∀ b, b = begun opCueEventSet fn qp h s →
      ∀ e, e = cueEventOf c.fn p →
      ∀ i, i = fld p 0 4 →
      i < 4096 → aget b.cue.events i = none → (b.cue.events.filter (fun x => x.2.fn == c.fn)).length < b.cueQuota c.fn →
        (e.kind = 0 → b.cue.st ≠ .none ∧ b.cue.pos < e.target) → e.action = 1 → e.actTarget < latchCount →
        exec (.cueEventSet h p) s = .next (answeredBy opCueEventSet fn qp h s sOk i 0 (b.upEvents (fun l => aset l i e)))) ∧
    (served opCueEventClear fn qp h p c s = true →
      ∀ b, b = begun opCueEventClear fn qp h s →
      ∀ e, aget b.cue.events (fld p 0 4) = some e → e.fn = c.fn →
        (b.cueDue e = true →
          exec (.cueEventClear h p) s =
            .next (answeredBy opCueEventClear fn qp h s sOk 1 0 ((b.cueAct (fld p 0 4) e).upEvents (fun l => adel l (fld p 0 4))))) ∧
        (b.cueDue e = false →
          exec (.cueEventClear h p) s = .next (answeredBy opCueEventClear fn qp h s sOk 2 0 (b.upEvents (fun l => adel l (fld p 0 4))))))

/-- A frame or write of the selected source moves the cue (R39 to R45, R49): a POSITION frame of the current generation, an EPOCH frame that
gives the high part of the step, an ETH cue frame in sequence, and a whole write of CUE_SW_POS. What the cue block does of itself when its
time has come (R41, R44, R46, R48, R54, R58): the due entry fires, after what the blocks have due with an earlier target, the head emits,
the member echoes, a locked cue without frames holds over, a holdover that has run out is lost, time passes and PTM sets or slews it. -/
def Obligations.CueActs : Prop :=
  (∀ (frame : Nat) (bytes : Bytes) (a : Access) (s : State),
      (s.live = true → s.cue.src = .serial → serialOk frame true = true →
        (bits frame 60 4 = 1 → s.cue.firstDue = false → bits frame 52 8 = s.cue.fieldGen →
          ∀ low, low = bits frame 28 24 →
          ∀ high, high = (if 0xFF0000 ≤ s.cue.lastStepL ∧ low < 0x010000 then (s.cue.high + 1) % 65536 else s.cue.high) →
          exec (.positionFrame frame true) s =
            .next (s.cueFrame ((high * 16777216 + low) * 65536 + bits frame 12 16) (bit frame 8) (fun c => c.tookLow low))) ∧
        (bits frame 60 4 = 2 → s.cue.firstDue = false → bits frame 52 8 = s.cue.fieldGen →
          exec (.epochFrame frame true) s =
            .next ((s.upCue (fun c => { c.extend (bits frame 36 16) with lastValid := s.now })).cueTryLock))) ∧
      (∀ m, s.live = true → s.member 0 = some m → m.live = true → fld bytes 24 8 = (m.cueIn + 1) % 2 ^ 64 → s.cue.src = .eth →
        fld bytes 0 1 = 1 → fld bytes 4 4 ≤ s.cue.maxUnc → s.cue.firstDue = false → fld bytes 15 1 = s.cue.gen →
        ∀ v, v = (s.upMember 0 (fun x => { x with cueIn := fld bytes 24 8 })).upCue (fun c => { c with hops := fld bytes 2 1, unc := fld bytes 4 4 }) →
        exec (.ethCueFrame bytes) s = .next (v.cueFrame (v.cue.advanced (fld bytes 8 7)) (bit (fld bytes 1 1) 0) id)) ∧
      (hostWrites 0 s = true → a.wr = true → a.fn = 0 → a.bar = 0 → a.off = 0x00100028 → a.size = 8 → a.val < 2 ^ 64 →
        s.cue.src = .software → s.cue.firstDue = false → bits a.val 56 8 = s.cue.fieldGen → s.cue.pos ≤ a.val % 2 ^ 56 →
        exec (.cueSwPosWrite a) s = .next (((s.ao 11 8).dropHeld 0 0x00100028).cueMove (a.val % 2 ^ 56)))) ∧
  (∀ (ticks : Nat) (s : State),
      (∀ i e, s.live = true → s.cueNext (fun _ => true) = some (i, e) → e.kind ≠ 0 →
        exec .cueEventFire s = .next (s.cueFire i e)) ∧
      (∀ i e, s.live = true → s.cueNext (fun _ => true) = some (i, e) → e.kind = 0 →
        ∀ t, t = s.cueTo (e.target - 1 : Int) (e.target - 1 : Int) →
        (∀ k x, t.cueNext (fun _ => true) = some (k, x) → exec .cueEventFire s = .next (t.cueFire k x))) ∧
      (s.live = true → s.cue.emitAt + 10000 ≤ s.now → s.cue.src ≠ .eth →
        ∀ body, body = [(1 : BitVec 8), BitVec.ofNat 8 (b2n s.cue.hold), 0, 0] ++ leBytes 4 0 ++ leBytes 8 s.cuePos ++ zeros 8 →
        exec .cueFrameEmit s =
          .next ((s.net.members.filter (fun m => m.live && m.reached && !m.isHead)).foldl (fun u m =>
            (u.upMember m.id (fun x => { x with cueSeq := (m.cueSeq + 1) % 2 ^ 64 })).mboxWrite m .cueFrame 0x40 32 64 ((m.cueSeq + 1) % 2 ^ 64) body)
            (s.upCue (fun c => { c with emitAt := s.now })))) ∧
      (∀ m, s.live = true → s.cue.echoAt + 1000000 ≤ s.now → s.member 0 = some m → m.live = true → s.cue.echoSent = none →
        exec .pathDelayEcho s =
          .next ((s.upCue (fun c => { c with echoAt := s.now, echoSent := some s.now })).qpRead m.ctrlQp (.echo 0) 0 m.peerRkey 8)) ∧
      (∀ m at_, s.live = true → s.member 0 = some m → s.cue.echoSent = some at_ →
        ∀ u, u = s.upQpn m.ctrlQp (fun q =>
          if q.tx.any (fun x => x.op == .echo 0) then { q with tx := q.tx.filter (fun x => x.op != .echo 0), reads := q.reads - 1 } else q) →
        exec .echoReadResponse s =
          .next (u.upCue (fun c => { c with echoSent := none, rtt := (c.rtt ++ [s.now - at_]).drop (c.rtt.length + 1 - 64) }))) ∧
      (s.live = true → s.cue.st = .locked → s.cue.src ≠ .software → s.cue.lastValid + 8 * s.cue.src.period ≤ s.now →
        exec .cueHoldoverTimeout s = .next ((s.cueNow.cueState .holdover).upCue (fun c => { c with holdSince := s.now, consec := 0 }))) ∧
      (s.live = true → s.cue.st = .holdover → s.cue.holdSince + s.cue.holdUs * 1000 ≤ s.now → exec .cueHoldExpiry s = .next s.cueNow.cueLost) ∧
      (s.aon.powered = true → s.aon.tableau = false →
        exec (.cueInterpolate ticks) s =
          .next (if (s.upAon (fun a => a.run ticks)).live then (s.upAon (fun a => a.run ticks)).cueNow.pausesEnd else s.upAon (fun a => a.run ticks))) ∧
      (s.aon.powered = true → s.aon.tableau = false → s.aon.hostLink = true →
        (s.aon.ptmSetNext = true → ticks < 2 ^ 64 →
          exec (.ptmExchange ticks) s =
            .next (s.upAon (fun a => { a with ptmSetNext := false, ptmSlew := 0, time := max a.time ticks, ptmHold := a.time - ticks }))) ∧
        (s.aon.ptmSetNext = false → ticks < 2 ^ 64 →
          exec (.ptmExchange ticks) s = .next (s.upAon (fun a => { a with ptmSlew := ticks - a.time + a.ptmHold })))))

/-- The NVMe admin commands that a controller fetches complete with their own effect (R103 to R105, R111, R128). `t` is the state after
the entry is fetched. The NVMe I/O commands that a controller fetches and does not hold complete or are taken with their own effect (R114,
R116, R118, R120, R121). -/
def Obligations.NvmeCommandsComplete : Prop :=
  (∀ (n : NvmeCmd) (s t : State), n.sqid = 0 → n.psdt = 0 → s.nvmeFetch n = some t →
      ∀ q, q = n.cdw10 % 65536 →
      ∀ c, c = t.ctrl n.fn →
      (∀ x, c.queue false q = some x → q ≠ 0 →
        exec (.deleteIoSq n) s =
          .next ((((c.ops.filter (fun o => o.cmd.sqid == q)).foldl (fun u o => u.endOp n.fn q o.cmd.cid (nvmeSt 0 8 0)) t).stoSettle.upCtrl n.fn (fun k =>
            { k with queues := k.queues.filter (fun x => x.cq || x.qid != q) })).cqe n 0 0)) ∧
      (q ≠ 0 → q ≤ c.grant → 0 < n.cdw10 / 65536 → n.cdw10 / 65536 ≤ 0x3FFF → bit n.cdw11 0 = true →
        (c.queue false q = none → 0 < n.cdw11 / 65536 → (c.queue true (n.cdw11 / 65536)).isSome = true →
          ∀ x : QueueRec, x = { cq := false, qid := q, base := n.prp1, size := n.cdw10 / 65536 + 1, cqid := n.cdw11 / 65536 } →
          exec (.createIoSq n) s = .next (((t.vfRuns n.fn).upCtrl n.fn (fun k => { k with queues := k.queues ++ [x] })).cqe n 0 0)) ∧
        (c.queue true q = none → n.cdw11 / 65536 < vectorsOf n.fn →
          ∀ x : QueueRec, x = { cq := true, qid := q, base := n.prp1, size := n.cdw10 / 65536 + 1, vector := n.cdw11 / 65536,
                                ien := bit n.cdw11 1 } →
          exec (.createIoCq n) s = .next (((t.vfRuns n.fn).upCtrl n.fn (fun k => { k with queues := k.queues ++ [x] })).cqe n 0 0))) ∧
      (q ≠ 0 → (c.queue true q).isSome = true → c.queues.any (fun x => !x.cq && x.cqid == q) = false →
        exec (.deleteIoCq n) s =
          .next ((t.upCtrl n.fn (fun k => { k with queues := k.queues.filter (fun x => !x.cq || x.qid != q),
                                                   cqeWait := k.cqeWait.filter (fun e => e.1 != q) })).cqe n 0 0)) ∧
      (n.cdw10 % 256 = 4 → bit n.cdw10 15 = true →
        ∀ len, len = 4 * (n.cdw10 / 65536 + 65536 * (n.cdw11 % 65536) + 1) →
        exec (.getLogPage n) s =
          .next ((t.prpWrite (len / 4096 + 2) n len 0
            (sub (padTo 4096 (c.changed.flatMap (leBytes 4))) (n.cdw12 + 4294967296 * n.cdw13) len)).cqe n 0 0)) ∧
      (n.cdw10 % 256 = 1 → exec (.identify n) s = .next ((t.spent.prpWrite 3 n 4096 0 (t.identCtrl n.fn)).cqe n 0 0)) ∧
      (∀ o, c.ops.find? (fun o => o.is q (n.cdw10 / 65536)) = some o → o.kind = .space →
        exec (.nvmeAbort n) s = .next (((t.endOp n.fn q (n.cdw10 / 65536) (nvmeSt 0 7 1)).stoSettle).cqe n 0 0)) ∧
      (n.cdw10 % 256 = 0x0B → exec (.setFeatures n) s = .next ((t.upCtrl n.fn (fun k => { k with aec := n.cdw11 })).cqe n 0 0)) ∧
      (n.cdw10 % 256 = 0x07 → 0 < c.grant → exec (.getFeatures n) s = .next (t.cqe n 0 ((c.grant - 1) * 65537))) ∧
      (c.aers.length < 4 → c.aerPend = [] →
        exec (.asyncEventRequest n) s = .next (t.upCtrl n.fn (fun k => { k with aers := k.aers ++ [n.cid] })))) ∧
  (∀ (n : NvmeCmd) (s t : State), n.sqid ≠ 0 → n.psdt = 0 → s.nvmeFetch n = some t → t.ctrlHeld n.fn = false →
      (s.ctrl n.fn).ops.any (fun o => o.kind == .held && o.cmd == n) = false → (t.ctrl n.fn).ops.any (fun o => o.kind == .held) = false →
      ∀ x, t.nsFor n.fn n.nsid = some x → x.st = .online →
        ∀ first, first = n.slba * x.lbaSec →
        ∀ count, count = n.nlb * x.lbaSec →
        ∀ u, u = t.prpFetch n (512 * count) →
        (x.mode = 1 → n.nsid ≠ 0xFFFFFFFF → exec (.flush n) s = .next (t.cqe n 0 0)) ∧
        (n.slba + n.nlb ≤ x.capacity → 512 * count ≤ 1048576 → n.dataOk = true →
          (u.wbRoom x first count 0 = true → exec (.write n) s = .next (u.takeWrite n x [(first, count)] 0 n.fua (n.data.take (512 * count)))) ∧
          (u.wbRoom x first count 0 = false →
            exec (.write n) s =
              .next ((u.upSto (fun y => { y with nextOp := y.nextOp + 1 })).addOp { fn := n.fn, cmd := n, kind := .space, order := u.sto.nextOp }))) ∧
        (n.slba + n.nlb ≤ x.capacity → exec (.writeZeroes n) s = .next (t.takeWrite n x [(first, count)] 1 n.fua [])) ∧
        (n.slba + n.nlb ≤ x.capacity → 512 * count ≤ 1048576 → x.lost = [] → x.encrypted = false →
          secRuns (fun i => !(t.wbSector x.ctrl x.nsid i).isSome) first count = [] →
          exec (.read n) s =
            .next (((((List.range' first count).filterMap (fun i => (t.wbSector x.ctrl x.nsid i).map (fun b => (i, b)))).foldl (fun v e =>
                v.prpWrite 3 n (512 * count) (512 * (e.1 - first)) e.2) (t.prpList n (512 * count))).upSto (fun y =>
              { y with wbuf := lupd y.wbuf (fun w =>
                  w.ctrl == x.ctrl && w.nsid == x.nsid && !w.dirty && (blocksOf first count).contains w.blk) (fun w => { w with used := t.now }) })).cqe n 0 0)) ∧
        (bit n.cdw11 2 = true → n.dataOk = true → (dsmRanges n).all (fun r => decide (r.1 + r.2 ≤ x.capacity)) = true →
          exec (.datasetManagement n) s =
            .next ((t.prpFetch n (16 * (dsmRanges n).length)).takeWrite n x
              ((dsmRanges n).map (fun r => (r.1 * x.lbaSec, r.2 * x.lbaSec))) 2 false [])))

/-- The controller's registers and doorbells act (R102, R105, R123). The storage engine's own steps (R108, R112, R116 to R118, R126). -/
def Obligations.StorageEngineActs : Prop :=
  (∀ (fn cc qid val : Nat) (s : State), hostWrites fn s = true →
      ∀ t, t = s.ao 11 4 →
      ∀ c, c = s.ctrl fn →
      (c.en = false → bit cc 0 = true →
        ∀ sq : QueueRec, sq = { cq := false, qid := 0, base := c.asq, size := fld (leBytes 4 c.aqa) 0 2 % 4096 + 1, cqid := 0 } →
        ∀ cq : QueueRec, cq = { cq := true, qid := 0, base := c.acq, size := fld (leBytes 4 c.aqa) 2 2 % 4096 + 1, vector := 0 } →
        exec (.nvmeCcEnable fn cc) s =
          .next (t.upCtrl fn (fun c => { c with en := true, rdy := true, cc := cc, shn := 0, shst := 0, queues := [sq, cq] }))) ∧
      (c.en = true → exec (.nvmeCcDisable fn cc) s = .next (t.ctrlReset fn)) ∧
      (bits cc 14 2 ≠ 0 → exec (.nvmeShutdown fn cc) s = .next ((t.upCtrl fn (fun c => { c with shn := bits cc 14 2, shst := 1 })).stoSettle)) ∧
      (∀ q, c.queue false qid = some q → val < q.size →
        ∀ u, u = t.upQueue fn false qid (fun q => { q with tail := val }) →
        exec (.nvmeSqDoorbell fn qid { idx := val }) s = .next u ∧
        (∀ o, exec (.nvmeSqDoorbell fn qid { idx := val, other := some o }) s = .next (nvmeOther fn qid o u))) ∧
      (∀ q, c.queue true qid = some q → val < q.size →
        exec (.nvmeCqDoorbell fn qid val) s =
          .next ((t.upQueue fn true qid (fun q => { q with head := val })).postWaiting c.cqeWait.length fn qid))) ∧
  (∀ (cid : Nat) (data : Bytes) (s : State), s.live = true →
      (∀ o x,
        s.sto.spaceWaiters.find? s.spaceFits = some o →
        s.ns o.fn o.cmd.nsid = some x →
        exec .writeBufferAdmit s =
          .next ((s.dropOp o.fn o.cmd.sqid o.cmd.cid).takeWrite o.cmd x [(o.cmd.slba * x.lbaSec, o.cmd.nlb * x.lbaSec)] 0 o.cmd.fua
            (o.cmd.data.take (512 * (o.cmd.nlb * x.lbaSec))))) ∧
      (s.partHeld .wbuf = false →
        exec .wbDrainStart s = .next ((s.sto.wbuf.filter (fun w => s.sto.drainable w && s.due w)).foldl State.drainOne s)) ∧
      (∀ r n, s.sto.remotes.find? (fun r => r.cid == cid && (r.kind == .drain || r.kind == .tagWrite) && r.sent && r.units == 0) = some r →
        s.ns r.ctrl r.nsid = some n → n.encrypted = false → r.kind = .drain →
        exec (.wbDrainComplete cid 0) s =
          .next (r.seqs.foldl (fun u e => u.wbAck e.1 e.2)
            (s.upSto (fun x => { x with remotes := x.remotes.filter (fun y => y.cid != cid) }))).stoSettle) ∧
      (∀ r x, s.sto.remotes.find? (fun r => r.cid == cid && (r.kind == .read || r.kind == .tagRead) && r.sent && r.units == 0) = some r →
        s.ns r.ctrl r.nsid = some x → r.kind = .read → x.encrypted = false → r.tblks = [] →
        exec (.remoteReadComplete cid data) s =
          .next ((s.upSto (fun y => { y with remotes := lupd y.remotes (fun z => z.cid == cid) (fun z => { z with tagData := [] }) })).readDone r
            (padTo (512 * r.count) (data.take (512 * r.count))))) ∧
      (∀ r, s.sto.remotes.find? (fun r => r.cid == cid && r.sent && r.units == 0) = some r →
        exec (.remoteCommandFail cid 0) s =
          .next (s.upSto (fun x => { x with remotes := lupd x.remotes (fun y => y.cid == cid) (fun y => { y with sent := false }) })).stoReissue) ∧
      (∀ x, aget s.sto.targets cid = some x → x.live = false →
        (exec (.targetAssociated cid) s =
          .next ((((x.qpns.foldl (fun t q => (t.qpMove q .rts).upQpn q (fun q => { q with failed := false })) s).upSto (fun y =>
            { y with targets := aset y.targets cid { x with live := true } })).finishAll (fun w => w.kind == wAssoc && w.aux == cid) sOk 0 cid).stoRefresh)) ∧
        exec (.stoTargetUnreachable cid) s =
          .next (((x.qpns.foldl State.qpFree s).upSto (fun y => { y with targets := adel y.targets cid })).finishAll
            (fun w => w.kind == wAssoc && w.aux == cid) 0x0010 0 0)))

/-- The class 0x09 commands of a served packet complete with their own effect (R107 to R113, R115, R122, R126). -/
def Obligations.StorageCommandsComplete : Prop :=
  ∀ (fn qp : Nat) (h : Hdr) (p data : Bytes) (c : Caller) (s : State),
    (served opConnectTarget fn qp h p c s = true →
      ∀ b, b = begun opConnectTarget fn qp h s →
      ∀ k l t, freeKey b.sto.targets 1024 0 = some k →
        ∀ q : Qp, q = { autoRec := true, owner := .target k, mtu := 5, dest := sub p 8 16, addrType := fld p 0 1, portMask := 65535 } →
        takeQps q (fld p 1 1 + 1) b = some (l, t) →
        ∀ x : Target, x = { addrType := fld p 0 1, addr := sub p 8 16, svc := fld p 2 2, ioq := fld p 1 1, qpns := l } →
        exec (.connectTarget h p) s =
          .next (deferred opConnectTarget fn qp h p s wAssoc k ((t.upSto (fun y => { y with targets := aset y.targets k x })).emit .remoteIo k 0 0 (sub p 0 480)))) ∧
    (served opDisconnectTarget fn qp h p c s = true →
      ∀ b, b = begun opDisconnectTarget fn qp h s →
      ∀ x, aget b.sto.targets (fld p 0 2) = some x → x.live = true → b.sto.nss.any (fun n => n.backs.any (fun k => k.target == fld p 0 2)) = false →
        exec (.disconnectTarget h p) s =
          .next (answered opDisconnectTarget fn qp h s 0 ((x.qpns.foldl State.qpFree b).upSto (fun y => { y with targets := adel y.targets (fld p 0 2) })))) ∧
    (served (opAttachNamespace data) fn qp h p c s = true →
      ∀ b, b = begun (opAttachNamespace data) fn qp h s →
      ∀ ids, ids = (b.sto.nss.filter (fun n => n.ctrl == fld p 0 2)).map (fun n => n.nsid) →
      b.fnEnabled (fld p 0 2) = true → fld p 4 1 = 1 → fld p 5 1 = 1 → fld p 6 2 = 0xFFFF → fld p 8 4 ≠ 0 → ids.contains (fld p 8 4) = false →
        (aget b.sto.targets (fld p 16 2)).any (fun t => t.live) = true → fld data 8 4 = 4096 →
        (List.range' 1 64).any (fun i => !ids.contains i) = true → fld p 2 1 = 1 →
        ∀ x : Ns, x = { ctrl := fld p 0 2, nsid := fld p 8 4, mode := 1, stripeLog2 := fld p 3 1, lbaFmt := 1, keyPage := 0xFFFF,
                        backs := [{ target := fld p 16 2, rnsid := fld p 20 4, blocks := fld data 0 8 }],
                        capacity := localBlocks [fld data 0 8] false (fld p 3 1) 4096 } →
        exec (.attachNamespace h p data) s =
          .next (answered (opAttachNamespace data) fn qp h s (fld p 8 4)
            (((b.upSto (fun y => { y with nss := y.nss ++ [x] })).nsChanged (fld p 0 2) (fld p 8 4)).stoRefresh))) ∧
    (served opDetachNamespace fn qp h p c s = true →
      ∀ b, b = begun opDetachNamespace fn qp h s →
      ∀ x, b.ns (fld p 0 2) (fld p 4 4) = some x → x.st = .online →
        exec (.detachNamespace h p) s =
          .next (deferred opDetachNamespace fn qp h p s wDetach (nsKey (fld p 0 2) (fld p 4 4))
            (b.upNs (fld p 0 2) (fld p 4 4) (fun n => { n with st := .detaching }))).stoSettle) ∧
    (served opSetNsMode fn qp h p c s = true →
      ∀ b, b = begun opSetNsMode fn qp h s →
      ∀ u, u = uCtrl (fld p 0 2) →
      ∀ r x, b.interOf u = some r → r.ph = .intermission → r.heldBy c = true → b.nsOfParam p = some x →
        ∀ y : Staged, y = { opcode := 0x0904, unit := u, fn := c.fn, params := p } →
        exec (.setNsMode h p) s =
          .next ((b.upCmd (fun k => { k with inters := lupd k.inters (fun i => i.scope == r.scope) (fun i =>
              { i with staged := stageIn i.staged (fun z => z.opcode == 0x0904 && z.unit == u &&
                  (fld z.params 0 2 == fld p 0 2 && fld z.params 4 4 == fld p 4 4)) y }) })).reply h 0x0904
            { replyBase opSetNsMode fn qp h s with status := sOk, detail := b.okDetail h.unit sOk 0, st := 4, result := 0 })) ∧
    (served opSetWbQuota fn qp h p c s = true →
      ∀ b, b = begun opSetWbQuota fn qp h s →
      ((b.sto.ctrls.filter (fun e => e.1 != fld p 0 2)).map (fun e => e.2.quotaMib)).sum + fld p 4 4 ≤ 4096 →
        exec (.setWbQuota h p) s = .next (answered opSetWbQuota fn qp h s 0 (b.upCtrl (fld p 0 2) (fun k => { k with quotaMib := fld p 4 4 })))) ∧
    (served opGetNsStatus fn qp h p c s = true →
      ∀ b, b = begun opGetNsStatus fn qp h s →
      ∀ x, b.ns (fld p 0 2) (fld p 4 4) = some x →
        exec (.getNsStatus h p) s = .next (answered opGetNsStatus fn qp h s (x.st.code + 256 * b.nsDirtyMib x.ctrl x.nsid) b)) ∧
    (served opDiscardDirty fn qp h p c s = true →
      ∀ b, b = begun opDiscardDirty fn qp h s →
      ∀ x, b.ns (fld p 0 2) (fld p 4 4) = some x → x.st = .writeFailed →
        ∀ bad, bad = b.sto.wbuf.filter (fun w => w.stuck && w.ctrl == x.ctrl && w.nsid == x.nsid) →
        ∀ lost, lost = bad.foldl (fun l w => (b.lostOf x w).foldl ladd l) x.lost →
        ∀ t, t = b.upSto (fun y => { y with wbuf := y.wbuf.filter (fun w => !bad.contains w),
                                            errLost := satu 65535 (y.errLost + (lost.length - x.lost.length)) }) →
        exec (.discardDirty h p) s =
          .next (answered opDiscardDirty fn qp h s 0 (((t.upNs x.ctrl x.nsid (fun n => { n with lost := lost, st := .online })).stoRefresh).stoSettle)))

/-- The ports act on their link's events (R132, R133, R147): training complete, a loss of signal that ends the queue pairs with no live
port, and a degraded FEC; software returns records of the event queue. A packet that its queue pair takes is carried out (R135 to R138,
R143, R145): a write in one packet lands in its region and is acknowledged, a read is answered from its region, the last response completes
a read, and an acknowledgement completes writes; while a channel leaves the interleave, what uses memory is held (R350). -/
def Obligations.PortsAndPacketsAct : Prop :=
  (∀ (port n val : Nat) (s : State),
      (s.live = true → port < s.net.portCount → (s.portSt port = 0x11 ∨ s.portSt port = 0x10) →
        exec (.linkUp port) s =
          .next ((((s.upPort port (fun p => { p with st := 0x10 })).upPort port (fun p => { p with st := 2 })).portFlag port 8 (fun p => { p with upEv := true })).netEvent 0x0001
            (unitId 5 port) 0 (200 * 2 ^ s.net.mode))) ∧
      (s.live = true → s.net.portUp port = true →
        (∀ u, u = ((s.upPort port (fun p => { p with st := 0x11, pause := [], held := [] })).portFlag port 9 (fun p => { p with downEv := true })).netEvent 0x0002
            (unitId 5 port) 0 0 →
          exec (.linkDown port) s =
            .next ((u.net.qps.filter (fun e => e.2.portMask.testBit port && (u.livePorts e.2).isEmpty)).foldl
              (fun v e => v.netQpError (qpnOf e.1) 3) u)) ∧
        (s.net.fecLimit < n →
          exec (.fecDegrade port n) s =
            .next (((s.portFlag port 10 (fun p => { p with fecDeg := true })).upNet (fun x =>
              { x with ports := amod x.ports port {} (fun p => { p with corr := n }) })).netEvent 0x0003 (unitId 5 port) 0 n))) ∧
      (hostWrites 0 s = true →
        exec (.netEvqHeadWrite val) s =
          .next ((s.ao 11 4).upNet (fun x => { x with evq := x.evq.map (fun r => r.return_ (val % 65536)) })))) ∧
  (∀ (pkt : RdmaPkt) (s : State), s.live = true → s.memHeld = true →
      ∀ held, held = (fun u => s.upRas (fun r => { r with heldUses := r.heldUses ++ [u] })) →
      exec (.rdmaWriteReceived pkt) s = .next (held (.write pkt)) ∧ exec (.rdmaReadRequest pkt) s = .next (held (.readReq pkt)) ∧
        exec (.rdmaReadResponse pkt) s = .next (held (.readResp pkt))) ∧
  (∀ (pkt : RdmaPkt) (s : State) (q : Qp), s.live = true → s.qp pkt.qpn = some q → pkt.crcOk = true →
      ∀ s1, s1 = (if pkt.ecn then (s.ctxUses q.ctxs).ecnSeen pkt.qpn else s.ctxUses q.ctxs) →
      (s.memHeld = false → q.accepts = true → q.sprayed = false → psnDiff pkt.psn q.rqPsn = 0 → pkt.total ≤ 1073741824 →
        (∀ a, pkt.opcode = 0x0A → q.rx = [] → pkt.payload ≠ [] → pkt.total = pkt.payload.length →
          s1.admitAccess pkt.rkey pkt.addr pkt.total true false = some a →
          ∀ m : RxMsg, m = { msn := q.rxMsn, total := pkt.total, addr := pkt.addr, rkey := pkt.rkey, count := 0 + pkt.payload.length } →
          exec (.rdmaWriteReceived pkt) s =
            .next (((((s1.gWrite (a + 0) pkt.payload).upQpn pkt.qpn (fun q =>
              { q with rx := [m], rqPsn := (q.rqPsn + 1) % 16777216 })).signalMsgs 1 pkt.qpn).sendAck pkt.qpn).regionSettle)) ∧
        (∀ a, s1.admitAccess pkt.rkey pkt.addr pkt.total false false = some a →
          ∀ t, t = s1.upQpn pkt.qpn (fun x =>
            { x with rqPsn := (x.rqPsn + q.packets pkt.total) % 16777216, rxMsn := (x.rxMsn + 1) % 16777216 }) →
          exec (.rdmaReadRequest pkt) s =
            .next ((t.readBytes pkt.rkey a pkt.total).2.sendResponses pkt.qpn q (pkt.psn % 16777216) pkt.msn
              (t.readBytes pkt.rkey a pkt.total).1))) ∧
      (q.st = .rts →
        (∀ m, s.memHeld = false → q.tx.find? (fun m => m.sent && m.rd && decide (psnDiff pkt.psn m.first ≤ psnDiff m.last m.first)) = some m →
          m.got.contains (psnDiff pkt.psn m.first) = false → q.sprayed = false → q.packets m.len ≤ m.got.length + 1 →
          ∀ o, o = psnDiff pkt.psn m.first * q.mtuBytes →
          exec (.rdmaReadResponse pkt) s =
            .next (((s1.upQpn pkt.qpn (fun x =>
              { x with retries := 0, reads := x.reads - 1, tx := x.tx.filter (fun y => y != m) })).txDone m
                (((padTo m.len m.data).take o ++ pkt.payload ++ (padTo m.len m.data).drop (o + pkt.payload.length)).take m.len)).qpGoOn pkt.qpn)) ∧
        (pkt.syndrome = 0 → pkt.bitmap = [] →
          exec (.ackReceived pkt) s = .next (((s1.ackTo pkt.qpn pkt.psn).upQpn pkt.qpn (fun q => q)).qpGoOn pkt.qpn))) ∧
      (q.st = .recovering → q.epoch ≤ pkt.epoch →
        exec (.recoverReceived pkt) s = .next ((s.upQpn pkt.qpn (fun q => { q with epoch := pkt.epoch })).recoverTake pkt.qpn pkt)))

/-- The timers and recoveries of a queue pair act (R136, R141, R145, R146). The exchange that connects a troupe link, and the ways it fails
(R148, R150, R151); and an uncorrectable context is recorded and ends only the object that owns it (R164, R338). -/
def Obligations.QueuePairsAndLinksAct : Prop :=
  (∀ (qpn path : Nat) (s : State) (q : Qp), s.live = true → s.qp qpn = some q →
      exec (.cnpReceived qpn) s =
        .next (s.upQpn qpn (fun q => { q with rate := q.rateNow s.now / 2, rateAt := s.now })) ∧
      (q.st = .rts → q.unacked ≠ [] → q.retries < q.retry →
        exec (.qpAckTimeout qpn) s =
          .next ((s.upQpn qpn (fun q => { q with retries := q.retries + 1 })).resendPsns qpn (if q.missing.isEmpty then q.unacked else q.missing ++ q.unread))) ∧
      (q.accepts = true → q.sprayed = true → exec (.sprayAckTimer qpn) s = .next (s.sendAck qpn)) ∧
      (q.st = .error → q.autoRec = true → q.given = false →
        (q.attempt = 0 → q.errAt + 1000000 ≤ s.now → exec (.qpRecoveryStart qpn) s = .next (s.recoverBegin qpn 1 ((q.epoch + 1) % 2 ^ 32))) ∧
        (1 ≤ q.attempt → q.attempt < 3 → q.errAt + 10000000 ≤ s.now →
          exec (.recoveryRetry qpn) s = .next (s.recoverBegin qpn (q.attempt + 1) q.epoch))) ∧
      (q.st = .recovering →
        exec (.recoverSendTimer qpn) s = .next (s.sendRecover qpn q.sentAcked) ∧
        (q.attemptAt + 1000000 ≤ s.now →
          ∀ u, u = (s.netQpError qpn 1).upQpn qpn (fun q => { q with failed := true }) →
          (q.attempt < 3 → exec (.recoveryAttemptTimeout qpn) s = .next u.stoRefresh) ∧
          (3 ≤ q.attempt → exec (.recoveryAttemptTimeout qpn) s = .next (((u.netEvent 0x0012 0 qpn 0).qpGivenUp qpn).stoRefresh)))) ∧
      (q.st = .rts → q.sprayed = true → path < q.paths → q.downPaths.contains path = false → q.downPaths.length + 1 < q.paths →
        exec (.pathDown qpn path) s =
          .next ((s.upQpn qpn (fun q => { q with downPaths := q.downPaths ++ [path] })).netEvent 0x0013 0 qpn path)) ∧
      (q.downPaths.contains path = true →
        exec (.pathProbe qpn path true) s =
          .next ((s.upQpn qpn (fun q => { q with downPaths := ldel q.downPaths path })).netEvent 0x0014 0 qpn path))) ∧
  (∀ (member ctx : Nat) (src b : Bytes) (s : State), s.live = true →
      (s.stg.image.isSome = true → s.granted 1 = true → s.member 0 = none → src.length = 4 →
        ∀ c d r u, s.spent.linkMake 0 (s.linkQp 4 (padTo 16 src)) = some (c, d, r, u) →
        ∀ m : Member, m = { id := 0, addr := padTo 16 src, ctrlQp := c, dataQp := d, region := r, isHead := true, peerRkey := fld b 4 4,
                            peerData := fld b 8 4, given := fld b 0 2 } →
        exec (.cmReqReceived src b) s =
          .next (((u.upNet (fun n => { n with members := n.members ++ [m] })).linkPeer m b .rtr).emit .cm 2 0 0
            (cmData (fld b 0 2) r d c (s.linkQp 4 (padTo 16 src)).sqPsn))) ∧
      (∀ m, s.member member = some m → m.isHead = false → m.ctrlQp ≠ 0 → m.reached = true →
        s.cmd.waiting.any (fun w => w.kind == wAddMember && w.aux == member) = true →
        exec (.cmRepReceived member b) s =
          .next ((((s.linkPeer m b .rts).upMember member (fun x =>
            { x with peerRkey := fld b 4 4, peerData := fld b 8 4, live := true, reached := true })).emit .cm 3 member 0 []).finishAll
              (fun w => w.kind == wAddMember && w.aux == member) sOk 0 0)) ∧
      (s.cmd.waiting.any (fun w => w.kind == wAddMember && w.aux == member) = true →
        exec (.rejReceived member) s = .next (s.addFailed member) ∧ exec (.netPeerUnreachable member) s = .next (s.addFailed member)) ∧
      (∀ m, s.member 0 = some m → m.given = member → m.live = false →
        exec (.rtuReceived member) s =
          .next (((s.qpMove m.ctrlQp .rts).qpMove m.dataQp .rts).upMember 0 (fun x => { x with live := true }))) ∧
      (∀ t, t = (s.record uDevice 0x00B0 0 ctx 0 (.every (s.ctxOwners ctx))).upCtx (fun c => { c with bad := ladd c.bad ctx }) →
        ∀ e, agetD t.ctx.kinds ctx 0 = 2 → t.net.qps.find? (fun e => e.2.ctxs.contains ctx) = some e →
        exec (.contextError ctx) s = .next (t.netQpError (qpnOf e.1) 4)))

/-- The queue pairs of the manager (R139, R140, R163): CREATE_QP, the transitions of MODIFY_QP, DESTROY_QP and QUERY_QP. The other class
0x06 commands (R134, R137, R147, R148, R162): SET_PORT_MODE stages its setting, and each other one completes or waits for the exchange or
the accesses that it names. -/
def Obligations.NetworkManagerCommandsComplete : Prop :=
  (∀ (fn qp : Nat) (h : Hdr) (p : Bytes) (c : Caller) (s : State),
      (served opCreateQp fn qp h p c s = true →
        ∀ n t, (begun opCreateQp fn qp h s).qpAlloc {} false (fld p 0 1 == 1) = some (n, t) →
        exec (.createQp h p) s = .next (answered opCreateQp fn qp h s n t)) ∧
      (served opModifyQp fn qp h p c s = true →
        ∀ b, b = begun opModifyQp fn qp h s →
        ∀ q, b.qp (fld p 0 4) = some q →
          (fld p 4 1 = 0 → exec (.modifyQp h p) s =
            .next (answered opModifyQp fn qp h s 0 ((b.feedQpFailed (fld p 0 4)).qpReset (fld p 0 4) q))) ∧
          (fld p 4 1 = 1 → q.st = .reset → exec (.modifyQp h p) s = .next (answered opModifyQp fn qp h s 0 (b.qpMove (fld p 0 4) .init))) ∧
          (fld p 4 1 = 2 → q.st = .init → fld p 5 1 = 1 → exec (.modifyQp h p) s =
            .next (answered opModifyQp fn qp h s 0 ((b.qpMove (fld p 0 4) .rtr).upQpn (fld p 0 4) (fun q =>
              { q with paths := 1, mtu := fld p 6 1, autoRec := bit (fld p 7 1) 0, ecn := bit (fld p 7 1) 1, destQpn := fld p 8 4,
                       rqPsn := fld p 12 4, portMask := fld p 22 2, addrType := fld p 24 1, dscp := fld p 25 1, dest := sub p 32 16 })))) ∧
          (fld p 4 1 = 3 → q.st = .rtr → exec (.modifyQp h p) s =
            .next (answered opModifyQp fn qp h s 0 (((b.qpMove (fld p 0 4) .rts).upQpn (fld p 0 4) (fun q =>
              { q with timeout := fld p 20 1, retry := fld p 21 1, sqPsn := fld p 16 4, acked := psnDiff (fld p 16 4) 1 })).stoRefresh)))) ∧
      (served opDestroyQp fn qp h p c s = true →
        ∀ b, b = begun opDestroyQp fn qp h s →
        ∀ q, b.qp (fld p 0 4) = some q → q.st = .reset ∨ q.st = .error →
        exec (.destroyQp h p) s = .next (answered opDestroyQp fn qp h s 0 (b.qpFree (fld p 0 4)))) ∧
      (served opQueryQp fn qp h p c s = true →
        ∀ b, b = begun opQueryQp fn qp h s →
        ∀ q, b.qp (fld p 0 4) = some q →
        exec (.queryQp h p) s = .next (answered opQueryQp fn qp h s (q.st.code + 256 * q.sqPsn) b))) ∧
  (∀ (fn qp : Nat) (h : Hdr) (p : Bytes) (c : Caller) (s : State),
      (served opSetPortMode fn qp h p c s = true →
        ∀ b, b = begun opSetPortMode fn qp h s →
        ∀ r, b.interOf uPorts = some r → r.ph = .intermission → r.heldBy c = true →
          exec (.setPortMode h p) s = .next (stagedReply opSetPortMode fn qp h p c s r uPorts (fun _ => true) 0)) ∧
      (served opGetPortStatus fn qp h p c s = true →
        ∀ b, b = begun opGetPortStatus fn qp h s →
        exec (.getPortStatus h p) s =
          .next (answered opGetPortStatus fn qp h s ((agetD b.net.ports (uInst h.unit) {}).stat % 2 ^ 32) b)) ∧
      (served opSetEventQueue fn qp h p c s = true →
        exec (.setEventQueue h p) s =
          .next (answered opSetEventQueue fn qp h s 0 ((begun opSetEventQueue fn qp h s).upNet (fun n =>
            { n with evq := some { base := fld p 0 8, log2 := fld p 8 1, vector := fld p 10 2 } })))) ∧
      (served opRegisterRegion fn qp h p c s = true →
        ∀ b, b = begun opRegisterRegion fn qp h s →
        ∀ r : Region, r = { base := fld p 0 8, len := fld p 8 8, write := bit (fld p 16 1) 0, read := bit (fld p 16 1) 1,
                            mbox := bit (fld p 16 1) 2, entryLog2 := fld p 17 1, action := fld p 18 2 } →
        [Partn.staging, .shuffle, .ckp, .trace].any (fun x =>
          decide (b.partBase x ≤ fld p 0 8) && decide (fld p 0 8 + fld p 8 8 ≤ b.partBase x + b.partLen x)) = true →
        ∀ k t, b.regionAdd r = some (k, t) → exec (.registerRegion h p) s = .next (answered opRegisterRegion fn qp h s k t)) ∧
      (served opDeregisterRegion fn qp h p c s = true →
        ∀ b, b = begun opDeregisterRegion fn qp h s →
        ∀ r, b.region (fld p 0 4) = some r → r.owner = .host → r.closing = false →
          (b.regionBusy (fld p 0 4) = false →
            exec (.deregisterRegion h p) s = .next (answered opDeregisterRegion fn qp h s 0 (b.regionDel (fld p 0 4)))) ∧
          (b.regionBusy (fld p 0 4) = true →
            exec (.deregisterRegion h p) s =
              .next (deferred opDeregisterRegion fn qp h p s wRegion (fld p 0 4) (b.upNet (fun n =>
                { n with regions := aupd n.regions (fld p 0 4) (fun r => { r with closing := true }) }))))) ∧
      (served opTroupeAddMember fn qp h p c s = true →
        ∀ b, b = begun opTroupeAddMember fn qp h s →
        ∀ i, i = fld p 0 2 → b.member i = none → (b.net.members.filter (fun m => !m.isHead)).length < 1024 →
          ∀ q, q = b.linkQp (fld p 2 1) (sub p 8 16) →
          ∀ k d r t, b.spent.linkMake i q = some (k, d, r, t) →
          ∀ m : Member, m = { id := i, addrType := fld p 2 1, addr := sub p 8 16, ctrlQp := k, dataQp := d, region := r, reached := true } →
          exec (.troupeAddMember h p) s =
            .next (deferred opTroupeAddMember fn qp h p s wAddMember i
              ((t.upNet (fun n => { n with members := n.members ++ [m] })).emit .cm 1 i 0 (cmData i r d k q.sqPsn)))) ∧
      (served opTroupeRemoveMember fn qp h p c s = true →
        ∀ b, b = begun opTroupeRemoveMember fn qp h s →
        ∀ m, b.member (fld p 0 2) = some m → m.isHead = false → m.removing = false →
          exec (.troupeRemoveMember h p) s =
            .next (deferred opTroupeRemoveMember fn qp h p s wRemoveMember (fld p 0 2)
              (b.upMember (fld p 0 2) (fun x => { x with removing := true }))).removeSettle) ∧
      (served opSetContextReserve fn qp h p c s = true →
        ∀ b, b = begun opSetContextReserve fn qp h s →
        ∀ x, x = { b.ctx with reserve := aset b.ctx.reserve (fld p 0 1) (fld p 4 4) } →
        fld p 4 4 ≤ ctxLimit (fld p 0 1) → ([1, 2, 3, 4].map (fun k => max (x.used k) (x.reserved k))).sum ≤ ctxTotal →
        exec (.setContextReserve h p) s = .next (answered opSetContextReserve fn qp h s 0 (b.upCtx (fun _ => x)))))

/-- Frames reach the Heddle (R132, R152, R158): a frame that an ACTIVE port receives whole is counted and classified, a decrypted frame
walks the graph again with the owner of its key page, and a flow unused for its age is freed with its context (R161). The class 0x07
commands of a served packet complete with their own effect (R153, R156, R157, R159): a graph and a table are staged in the Heddle's
intermission, an entry joins or leaves its table, and a packet ring starts empty. -/
def Obligations.HeddleActs : Prop :=
  (∀ (port unit ctx : Nat) (frame : Bytes) (s : State), s.live = true →
      (s.net.portUp port = true → 64 ≤ frame.length + 4 → frame.length + 4 ≤ 9216 → fldBE frame 12 2 ≠ 0x8808 →
        ∀ t, t = (s.ao 9 (frame.length + 4)).withObs (fun u => u.gctr 0x0050 (unitId 5 port) 1) →
        exec (.frameReceived port frame false 0) s = .next (t.hedFrame port frame)) ∧
      (∀ e, s.hed.recirc.find? (fun e => e.1 == unit) = some e →
        exec (.frameRecirculate unit) s =
          .next ((s.upHed (fun h => { h with recirc := h.recirc.filter (fun x => x.1 != unit) })).classify e.2.1 e.2.2.2
            (some e.2.2.1))) ∧
      (∀ f, s.hed.flows.find? (fun f => f.ctx == ctx) = some f → f.last + s.hed.ageS * 1000000000 ≤ s.now →
        exec (.flowAgeExpiry ctx) s =
          .next ((s.ctxGive [ctx]).upHed (fun h => { h with flows := h.flows.filter (fun f => f.ctx != ctx) })))) ∧
  (∀ (fn qp : Nat) (h : Hdr) (p : Bytes) (c : Caller) (s : State),
      (served opHedLoadGraph fn qp h p c s = true →
        ∀ b, b = begun opHedLoadGraph fn qp h s →
        ∀ r, b.interOf uHeddle = some r → r.ph = .intermission → r.heldBy c = true → graphFault p = none →
          exec (.hedLoadGraph h p) s = .next (stagedReply opHedLoadGraph fn qp h p c s r uHeddle (fun _ => true) 0)) ∧
      (served opHedSetTable fn qp h p c s = true →
        ∀ b, b = begun opHedSetTable fn qp h s →
        ∀ r, b.interOf uHeddle = some r → r.ph = .intermission → r.heldBy c = true →
          b.hed.fits (fld p 0 1) (fld p 1 1) (fld p 4 4) = true →
          exec (.hedSetTable h p) s =
            .next (stagedReply opHedSetTable fn qp h p c s r uHeddle (fun y => fld y.params 0 1 == fld p 0 1) 0)) ∧
      (served opHedAddEntry fn qp h p c s = true →
        ∀ b, b = begun opHedAddEntry fn qp h s →
        ∀ t, t = agetD b.hed.tables (fld p 0 1) {} → t.entries.any (t.same p) = false → t.entries.length < t.size →
          ((t.kind = 2 ∨ t.kind = 3) →
            ∀ e : HEntry, e = { prio := fld p 4 4, key := sub p 8 40, mask := sub p 48 40, act := actionOf (sub p 88 24), ctx := 0 } →
            exec (.hedAddEntry h p) s =
              .next (answered opHedAddEntry fn qp h s 0 (b.upHed (fun x =>
                { x with tables := aupd x.tables (fld p 0 1) (fun y => { y with entries := y.entries ++ [e] }) })))) ∧
          (t.kind = 1 →
            ∀ k u, b.ctxTake 1 = some (k, u) →
            ∀ e : HEntry, e = { prio := fld p 4 4, key := sub p 8 40, mask := sub p 48 40, act := actionOf (sub p 88 24), ctx := k } →
            exec (.hedAddEntry h p) s =
              .next (answered opHedAddEntry fn qp h s 0 (u.upHed (fun x =>
                { x with tables := aupd x.tables (fld p 0 1) (fun y => { y with entries := y.entries ++ [e] }) }))))) ∧
      (served opHedDelEntry fn qp h p c s = true →
        ∀ b, b = begun opHedDelEntry fn qp h s →
        ∀ t, t = agetD b.hed.tables (fld p 0 1) {} → t.kind ≠ 4 →
        ∀ e, t.entries.find? (t.same p) = some e →
          ∀ u, u = (if t.kind = 1 then b.ctxGive [e.ctx] else b) →
          exec (.hedDelEntry h p) s =
            .next (answered opHedDelEntry fn qp h s 0 (u.upHed (fun x =>
              { x with tables := aupd x.tables (fld p 0 1) (fun y => { y with entries := y.entries.erase e }) })))) ∧
      (served opSetPacketRing fn qp h p c s = true →
        ∀ r : Ring, r = { base := fld p 8 8, log2 := fld p 1 1, vector := fld p 4 2 } →
        exec (.setPacketRing h p) s =
          .next (answered opSetPacketRing fn qp h s 0 ((begun opSetPacketRing fn qp h s).upHed (fun x =>
            { x with rings := aset x.rings (fld p 0 1) r })))))

/-- The class 0x08 commands of a served packet complete with their own effect (R169 to R173, R180): pages move, a key replaces a page's at
once where no unit of it is in flight, a page is zeroised, and a CIP_CRYPT waits for its records. The cipher lanes' steps (R167, R178,
R181, R182): agreeing computations release their unit in turn, a frame no lane took is dropped and counted, and a lane that ran its blocks
takes fresh entropy. -/
def Obligations.CiphersAct : Prop :=
  (∀ (fn qp : Nat) (h : Hdr) (p : Bytes) (c : Caller) (s : State),
      (served opCipAssignPages fn qp h p c s = true →
        ∀ b, b = begun opCipAssignPages fn qp h s →
        ∀ l, l = List.range' (fld p 4 2) (fld p 6 2) → l.any (fun k => (b.page k).st != .empty) = false → fld p 0 2 = 0 →
          exec (.cipAssignPages h p) s =
            .next (answered opCipAssignPages fn qp h s 0 ((l.foldl (fun t k => t.upPage k (fun q => { q with owner := fld p 0 2 })) b).upCip
              (fun c => { c with vfPages := c.vfPages.map (fun e => (e.1, e.2.filter (fun k => !l.contains k))) })))) ∧
      (served opCipLoadKey fn qp h p c s = true →
        ∀ b, b = begun opCipLoadKey fn qp h s →
        ∀ k, b.callerPage c (fld p 0 2) = .ok k → (b.page k).st ≠ .zeroising → b.cip.units.any (fun u => u.page == k) = false →
          exec (.cipLoadKey h p) s = .next (answered opCipLoadKey fn qp h s 0 (b.loadKey k p))) ∧
      (served opCipClearPage fn qp h p c s = true →
        ∀ b, b = begun opCipClearPage fn qp h s →
        ∀ k, b.callerPage c (fld p 0 2) = .ok k → b.sto.nss.any (fun n => n.keyPage == k) = false →
          exec (.cipClearPage h p) s = .next (answered opCipClearPage fn qp h s 0 (b.upPage k KeyPage.zeroise))) ∧
      (served opCipCrypt fn qp h p c s = true →
        ∀ b, b = begun opCipCrypt fn qp h s →
        ∀ k, b.callerPage c (fld p 0 2) = .ok k → (b.page k).mode = 3 → fld p 4 4 ≠ 0 →
          b.inStaging c.fn (fld p 8 8) (fld p 16 8) = true → b.inStaging c.fn (fld p 24 8) (fld p 32 8) = true → b.lanesUp ≠ [] →
          ∀ x : Crypt, x = { id := b.cip.nextUnit, page := k, enc := true, ctype := fld p 2 1, frag := fld p 4 4, src := fld p 8 8,
                             left := fld p 16 8, dst := fld p 24 8, room := fld p 32 8 } →
          ∀ t, t = deferred opCipCrypt fn qp h p s wCrypt x.id (b.upCip (fun y => { y with nextUnit := x.id + 1, crypts := y.crypts ++ [x] })) →
          exec (.cipCrypt h p) s =
            .next ((t.cip.crypts.filter (fun x => !(s.cip.crypts.any (fun y => y.id == x.id)))).foldl (fun u x => u.cryptNext x) t))) ∧
  (∀ (unit page lane : Nat) (s : State), s.live = true →
      (∀ u, s.cip.units.find? (fun u => u.id == unit && u.fin == 0) = some u → s.running u = true →
        exec (.cipherUnitDone unit true) s =
          .next ((s.upCip (fun c => { c with units := lupd c.units (fun x => x.id == unit) (fun x => { x with fin := 1 }) })).releasePage
            (s.cip.units.length + 1) u.page)) ∧
      (∀ u, s.cip.units.find? (fun u => u.page == page && u.use == .esp && u.fin == 0 && u.lane != laneNone && !s.running u && decide (u.at_ + 10000 ≤ s.now)) = some u →
        exec (.espLaneTimeout page) s =
          .next (((s.upCip (fun c => { c with units := c.units.filter (fun x => x.id != u.id) })).upPage page (fun q =>
            { q with drop := satu 65535 (q.drop + 1) })).releasePage (s.cip.units.length + 1) page)) ∧
      (1048576 ≤ agetD s.cip.drbg lane 0 →
        exec (.drbgReseed lane) s =
          .next (s.upCip (fun c => { c with drbg := aset c.drbg lane 0, seeds := amod c.seeds lane 0 (· + 1) }))))

/-- The class 0x03 commands of a served packet complete with their own effect (R192, R195, R196, R200, R202, R211, R215). The steps of a
stream happen when their premise holds (R189 to R195, R199, R208, R209): bytes of the source enter, a decoded picture, audio frame or
caption leaves as records, a slice parsed again is counted, and a container that never shows itself fails the stream. -/
def Obligations.StreamsAct : Prop :=
  (∀ (fn qp : Nat) (h : Hdr) (p : Bytes) (c : Caller) (s : State),
      (served opShuOpenStream fn qp h p c s = true →
        ∀ b, b = begun opShuOpenStream fn qp h s →
        shuConflict (fld p 2 1) (fld p 3 1) (fld p 6 1) (fld p 7 1) (fld p 11 1) = false → fld p 0 1 ≠ 1 →
          b.inStaging c.fn (fld p 40 8) (fld p 48 4) = true → fld p 52 4 < 256 → b.inStaging c.fn (fld p 56 8) (fld p 64 8) = true →
          b.streamsFull c.fn = false → b.shu.channels + ((streamOf p c.fn 0).tracks.map (fun k => k.maxch)).sum ≤ 8192 →
          ∀ k t n, b.ctxTake 4 = some (k, t) → freeKey b.shu.streams 16384 0 = some n →
          ∀ x : Stream, x = { streamOf p c.fn 0 with ctx := k, shuttle := b.pickShuttle,
                                                     st := if b.pickShuttle.isSome then stOpening else stMoving } →
          ∀ y : StreamX, y = { openAt := b.now, found := fld p 1 1 == 4 } →
          exec (.shuOpenStream h p) s =
            .next (answered opShuOpenStream fn qp h s n ((t.upShu (fun u =>
              { u with streams := aset u.streams n x, streamx := aset u.streamx n y })).shuPlace n))) ∧
      (served opShuCloseStream fn qp h p c s = true →
        ∀ b, b = begun opShuCloseStream fn qp h s →
        ∀ n x, n = fld p 0 4 → b.stream n = some x →
          exec (.shuCloseStream h p) s = .next (answered opShuCloseStream fn qp h s 0 ((b.queueLeave n).shuClose n).tapKick)) ∧
      (served opShuFeed fn qp h p c s = true →
        ∀ b, b = begun opShuFeed fn qp h s →
        ∀ n x, n = fld p 0 4 → b.stream n = some x → x.srcKind = 2 → x.st ≠ stFailed → x.st ≠ stEnded → (b.streamX n).endMark = false →
          fld p 8 4 ≤ x.inRoom → 0 < fld p 8 4 → fld p 4 2 = 0 →
          exec (.shuFeed h p) s =
            .next (answered opShuFeed fn qp h s 0
              ((b.shuEnter n (b.ringTake x.inBase x.inLen x.inTail (fld p 8 4)) true).shuFinish n).tapKick)) ∧
      (served opShuGetStream fn qp h p c s = true →
        ∀ b, b = begun opShuGetStream fn qp h s →
        ∀ n x, n = fld p 0 4 → b.stream n = some x →
          exec (.shuGetStream h p) s =
            .next (answered opShuGetStream fn qp h s (x.st + 256 * x.reason) (b.hostWrite c.fn (fld p 8 8) (streamImage n x (b.streamX n))))) ∧
      (served opShuSetPolicy fn qp h p c s = true →
        ∀ b, b = begun opShuSetPolicy fn qp h s →
        ∀ n x, n = fld p 0 4 → b.stream n = some x → shuConflict (fld p 6 1) x.interlace (fld p 7 1) x.flags x.hint = false →
          exec (.shuSetPolicy h p) s =
            .next (answered opShuSetPolicy fn qp h s 0 (b.upStreamX n (fun y =>
              { y with pendPolicy := some (fld p 4 1, fld p 5 1, fld p 6 1, fld p 7 1) })))) ∧
      (served opShuReturnOutput fn qp h p c s = true →
        ∀ b, b = begun opShuReturnOutput fn qp h s →
        ∀ n x, n = fld p 0 4 → b.stream n = some x → fld p 8 8 ≤ x.outUsed →
          exec (.shuReturnOutput h p) s = .next (answered opShuReturnOutput fn qp h s 0 (b.shuReturn n (fld p 8 8)).tapKick)) ∧
      (served opShuSetMel fn qp h p c s = true →
        ∀ b, b = begun opShuSetMel fn qp h s →
        ∀ r, b.interOf 0x2FFF0000 = some r → r.ph = .intermission → r.heldBy c = true →
          exec (.shuSetMel h p) s =
            .next (stagedReply opShuSetMel fn qp h p c s r 0x2FFF0000 (fun y => fld y.params 0 1 == fld p 0 1) 0))) ∧
  (∀ (n first : Nat) (data : Bytes) (pic : Picture) (aud : AudioFrame) (cap : Caption) (s : State), s.live = true →
      (∀ x t, s.stream n = some x → x.srcKind = 1 → x.st ≠ stFailed → x.st ≠ stEnded → s.partHeld .staging = false →
        s.readRoom n x data.length = true → (s.streamX n).want = none →
        (∀ b, s.intRow (.stream n) x.ctrl x.nsid (x.srcOff + x.inTail) data.length data = (t, some (.ok b)) →
          exec (.streamInputRead n data true) s = .next ((t.shuEnter n b false).shuFinish n).tapKick) ∧
        (s.intRow (.stream n) x.ctrl x.nsid (x.srcOff + x.inTail) data.length data = (t, none) →
          exec (.streamInputRead n data true) s = .next t.tapKick) ∧
        (∀ e, s.intRow (.stream n) x.ctrl x.nsid (x.srcOff + x.inTail) data.length data = (t, some (.error e)) →
          exec (.streamInputRead n data true) s = .next (t.shuFail n 6).tapKick)) ∧
      (∀ t, t = s.shuRebind n →
        ∀ x, t.stream n = some x → t.shuRuns n = true →
        (pic.srcEnd ≤ x.inTail → bit x.flags 1 = false → (t.streamX n).outOfTurn x.order pic = false → pic.lost = false →
          t.badSegment n x pic.srcEnd = none →
          exec (.pictureDecoded n pic) s = .next (t.shuPicture n pic).tapKick) ∧
        (∀ k, x.tracks[aud.track]? = some k → aud.srcEnd ≤ x.inTail → k.unit < 64 → t.unitFenced (64 + k.unit) = false →
          t.badSegment n x aud.srcEnd = none → aud.bad = false → aud.discont = 0 →
          (t.streamX n).hurt aud.srcOff aud.srcEnd = false →
          ∀ planes, planes = aud.planes.take k.maxch →
          ∀ samples, samples = (if k.output < 2 then aud.count * planes.length else 0) →
          ∀ u, u = ((((t.upStreamX n (fun y =>
              { y with found := true, head := [], discont := (y.discont + 0) % 2 ^ 32, discontNext := y.discontNext || false })).upStream n (fun x =>
              { x with inDone := max x.inDone aud.srcEnd,
                       tracks := lmod x.tracks aud.track (fun k =>
                         { k with frames := (k.frames + 1) % 2 ^ 32, bad := k.bad, ch := planes.length, codec := aud.codec,
                                  dropCh := k.dropCh + (aud.planes.length - planes.length) }) })).ao 3 aud.cycles).ao 5 samples).fnCtr x.owner 8
              samples →
          exec (.audioFrameDecoded n aud) s =
            .next ((((u.audioRecs x (u.streamX n) k { aud with bad := false } planes).foldl (fun v r => v.shuPush n r) u).shuFinish n).tapKick)) ∧
        (cap.srcEnd ≤ x.inTail → x.selects cap = true → t.badSegment n x cap.srcEnd = none →
          ∀ u, u = (t.upStream n (fun x => { x with inDone := max x.inDone cap.srcEnd })).upStreamX n (fun y => { y with found := true }) →
          exec (.captionChange n cap) s = .next (((u.shuPush n (captionRec (u.streamX n) cap)).shuFinish n).tapKick))) ∧
      (∀ x, s.stream n = some x → s.shuRuns n = true → s.shuttlesUp.any (fun k => k != first) = true → s.unitFenced (64 + first) = false →
        x.shuttle = some first →
        exec (.sliceReparseDone n first true) s =
          .next (((((s.upStreamX n (fun y => { y with reparsed := (y.reparsed + 1) % 2 ^ 32 })).upShu (fun u =>
            { u with reparse := satu 65535 (u.reparse + 1) })).upShu (fun u => { u with attrib := satu 65535 (u.attrib + 1) })).charge
              (unitId 2 first) .reparse n n 0).tapKick)) ∧
      (∀ x, s.stream n = some x → x.srcKind = 0 → (s.streamX n).found = false → x.st ≠ stFailed →
        (s.streamX n).firstIn.any (fun t => decide (t + 1000000000 ≤ s.now)) = true → exec (.containerTimeout n) s = .next (s.shuFail n 3).tapKick))

/-- The class 0x02 commands of a served packet complete with their own effect (R246 to R258, R272; Table 9.14). The Tapestry's own steps
(R238, R241, R255, R261, R262, R264): a partial run starts, a slice completes or is abandoned and charged, and a core that passed its test
joins. -/
def Obligations.TapestryActs : Prop :=
  (∀ (fn qp : Nat) (h : Hdr) (p : Bytes) (c : Caller) (s : State),
      (served opTapLoad fn qp h p c s = true →
        ∀ b, b = begun opTapLoad fn qp h s →
        ∀ k, b.loadStop c.fn p = none → freeKey b.tap.progs 256 0 = some k →
          exec (.tapLoadProgram h p) s =
            .next (answered opTapLoad fn qp h s k (b.upTap (fun t => { t with progs := aset t.progs k (b.loadProg c.fn p) })))) ∧
      (served opTapUnload fn qp h p c s = true →
        ∀ b, b = begun opTapUnload fn qp h s →
        ∀ k, k = fld p 0 2 → ahas b.tap.progs k = true → b.tap.queues.any (fun e => e.2.prog == some k) = false →
          b.tap.runs.any (fun r => r.prog == k) = false →
          exec (.tapUnloadProgram h p) s = .next (answered opTapUnload fn qp h s 0 (b.upTap (fun t => { t with progs := adel t.progs k })))) ∧
      (served opTapRun fn qp h p c s = true →
        ∀ b, b = begun opTapRun fn qp h s →
        ahas b.tap.progs (fld p 0 2) = true → b.runBad c.fn p = none →
          ∀ r : TapRun, r = { id := b.tap.nextRun, prog := fld p 0 2, prio := fld p 2 1, fn := c.fn,
                              binds := (runBinds p).foldl (fun m e => aset m e.1 e.2) [], scratch := fld p 8 8, report := fld p 16 8,
                              snap := h.snapshot } →
          exec (.tapRun h p) s =
            .next (deferred opTapRun fn qp h p s wRun r.id (b.upTap (fun t => { t with runs := t.runs ++ [r], nextRun := r.id + 1 }))).tapKick) ∧
      (served opTapBind fn qp h p c s = true →
        ∀ b, b = begun opTapBind fn qp h s →
        ∀ k, k = fld p 2 2 → ahas b.tap.progs k = true → ahas b.tap.queues (fld p 0 2) = false →
          ∀ im, im = (b.tapProg k).image →
          ∀ vs, vs = (queueViews im).map (fun t => t.view) →
          vs.contains 0 = false → vs.eraseDups.length = vs.length → vs.all (fun v => viewKind v == queueKind im) = true →
          (imgClass im 1).length = 1 → fld p 16 1 = 0 → b.inStaging c.fn (fld p 24 8) (fld p 32 8) = true →
          b.inStaging c.fn (fld p 40 8) (2 * fld im 16 8) = true →
          ∀ x : TapQueue, x = { owner := c.fn, prog := some k, prio := fld p 4 1, group := fld p 5 1, runUnits := fld p 8 4,
                                waitUs := fld p 12 4, destKind := fld p 16 1, destIndex := fld p 20 4, ringBase := fld p 24 8,
                                ringLen := fld p 32 8, scratch := fld p 40 8, report := fld p 48 8, waiting := b.queuedRecs c.fn (fld p 0 2) } →
          exec (.tapBindQueue h p) s =
            .next (answered opTapBind fn qp h s 0 (b.upTap (fun t => { t with queues := aset t.queues (fld p 0 2) x })).tapKick)) ∧
      (served opTapUnbind fn qp h p c s = true →
        ∀ b, b = begun opTapUnbind fn qp h s →
        ∀ q, q = fld p 0 2 → ahas b.tap.queues q = true →
        ∀ t, t = b.upTap (fun t => { t with runs := t.runs.filter (fun r => r.queue != some q || r.begun) }) →
          (t.queueRuns q = 0 →
            exec (.tapUnbindQueue h p) s = .next (answered opTapUnbind fn qp h s 0 (t.upTap (fun t => { t with queues := adel t.queues q })))) ∧
          (t.queueRuns q ≠ 0 →
            exec (.tapUnbindQueue h p) s =
              .next (deferred opTapUnbind fn qp h p s wUnbind q (t.upTapQueue q (fun x => { x with unbinding := true }))))) ∧
      (served opTapGetQueue fn qp h p c s = true →
        ∀ b, b = begun opTapGetQueue fn qp h s →
        ∀ q, q = fld p 0 2 → ahas b.tap.queues q = true →
          exec (.tapGetQueue h p) s =
            .next (answered opTapGetQueue fn qp h s (min 65535 (b.tapQueue q).waiting.length + 65536 * (b.tapQueue q).dropped)
              (b.upTapQueue q (fun x => { x with dropped := 0 })))) ∧
      (served opTapSetPolicy fn qp h p c s = true →
        ∀ b, b = begun opTapSetPolicy fn qp h s →
        ∀ r, b.interOf uTapestry = some r → r.ph = .intermission → r.heldBy c = true →
          exec (.tapSetPolicy h p) s = .next (stagedReply opTapSetPolicy fn qp h p c s r uTapestry (fun _ => true) 0))) ∧
  (∀ (n cycles : Nat) (upsets : Upsets) (s : State), s.live = true →
      (∀ t, t = s.queueSift n →
        ∀ f, f = t.sift (t.tapQueue n) →
        ∀ since, f.since = some since → (t.tapQueue n).waitUs ≠ 0 → since + 1000 * (t.tapQueue n).waitUs ≤ t.now →
          (t.tapQueue n).unbinding = false → t.queueRuns n < 2 →
          exec (.queueWaitExpiry n) s = .next (t.queueRun n (min (t.tapQueue n).runUnits f.units.length)).tapKick) ∧
      exec (.sliceComplete n cycles upsets) s = .next (s.tapSlice n cycles upsets) ∧
      (ahas s.tap.running n = true → s.overrunAt ≤ s.tapCycles n →
        ∀ a, a = s.tapAbandon n (s.tapCycles n) →
        exec (.sliceOverrun n) s =
          .next (((((a.2.flag 2 tapEvtOff 3 (fun t => t.upTap (fun p => { p with evOver := true }))).charge (unitId 1 n) .overrun
            ((s.tapEval.map (fun v => v.run.op)).getD 0) (s.tapCycles n) 0).tapLeaves n).repartition a.1 false).tapFill.tapKick)) ∧
      (s.ras.testPass.contains n = true → s.tap.testOut.contains n = true → s.unitFenced n = false → s.chargeWaits n = false →
        exec (.coreJoin n) s =
          .next ((((s.gRead (s.tap.progs.map (fun e => (e.2.res.map (fun r => r.2.length)).sum)).sum).upRas (fun r =>
            { r with testPass := ldel r.testPass n })).tapJoins [n]).iftCheck)))

/-- The class 0x04 commands of a served packet complete with their own effect (R275 to R283, R286, R291, R298, R299): before its start a job
takes warps, a layout and shares at once, and a job of more than one member that no troupe forwards is INVALID_PARAM (DEDUCED, log entry
77). The Loom's own steps happen when their premise holds, and those that the cue times in the order of R54 (R280, R285 to R292): an index
entry names its payload, a payload that passes its check is admitted, a block of a streamed warp takes pages, a landed record, returned
pages and a resend request of the exchange, a rescue, and a weave that closes. -/
def Obligations.LoomActs : Prop :=
  (∀ (fn qp : Nat) (h : Hdr) (p : Bytes) (c : Caller) (s : State),
      (served opLoomOpenJob fn qp h p c s = true →
        ∀ b, b = begun opLoomOpenJob fn qp h s →
        ∀ j, j = jobFrom p c.fn →
        ∀ n a, freeKey b.loom.jobs 64 0 = some n → b.placeJob j.regionSize = some a → (j.members - 1) * j.xchgMib ≤ j.bufMib →
          j.members ≤ 1 → j.rank < j.members → j.cutPh + 4096 ≤ j.lead →
          ∀ x : JobX, x = { granted := ((List.range j.members).filter (fun r => r != j.rank)).zipIdx.map (fun e => (e.1, e.2 * j.xchgMib * 16)),
                            pageNext := (j.members - 1) * j.xchgMib * 16, size := j.regionSize } →
          exec (.loomOpenJob h p) s =
            .next (answered opLoomOpenJob fn qp h s n (b.upLoom (fun l =>
              { l with jobs := aset l.jobs n { j with base := a, hdrBase := a + mib j.bufMib }, jobx := aset l.jobx n x })))) ∧
      (served opLoomOpenJob fn qp h p c s = true →
        ∀ b, b = begun opLoomOpenJob fn qp h s →
        ∀ j, j = jobFrom p c.fn →
        (freeKey b.loom.jobs 64 0).isSome = true → (b.placeJob j.regionSize).isSome = true → (j.members - 1) * j.xchgMib ≤ j.bufMib →
          1 < j.members → exec (.loomOpenJob h p) s = .next (turnedAway opLoomOpenJob fn qp h s sBadParam 68)) ∧
      (served opLoomCloseJob fn qp h p c s = true →
        ∀ b, b = begun opLoomCloseJob fn qp h s →
        ∀ n j, n = fld p 0 2 → b.job n = some j → (b.jobX n).closing = false →
          ((b.loomClose n).job n = none → exec (.loomCloseJob h p) s = .next (answered opLoomCloseJob fn qp h s 0 (b.loomClose n))) ∧
          (((b.loomClose n).job n).isSome = true →
            exec (.loomCloseJob h p) s = .next (deferred opLoomCloseJob fn qp h p s wLoomClose n (b.loomClose n)))) ∧
      (served opLoomAddWarp fn qp h p c s = true →
        ∀ b, b = begun opLoomAddWarp fn qp h s →
        ∀ n j, n = fld p 0 2 → b.job n = some j → (b.jobX n).closing = false → j.started = false →
          ∀ w k, w = warpFrom p 0 j.s0 → b.freeWarp = some k → w.kind = 1 → j.shapeBad w = false →
          exec (.loomAddWarp h p) s = .next (answered opLoomAddWarp fn qp h s k (b.applyAddWarp (padTo 48 p ++ leBytes 2 k) 0))) ∧
      (served opLoomSetLayout fn qp h p c s = true →
        ∀ b, b = begun opLoomSetLayout fn qp h s →
        ∀ n j, n = fld p 0 2 → b.job n = some j → (b.jobX n).closing = false → j.started = false →
          8 + 32 * j.members + 8 * j.consumers ≤ p.length → b.layoutOk n j p = true →
          exec (.loomSetLayout h p) s = .next (answered opLoomSetLayout fn qp h s 0 (b.applyLayout p 0))) ∧
      (served opLoomStart fn qp h p c s = true →
        ∀ b, b = begun opLoomStart fn qp h s →
        ∀ n j t, n = fld p 0 2 → b.job n = some j → (b.jobX n).closing = false → j.started = false → j.layoutSet = true →
          b.xOpen n j = some t →
          exec (.loomStart h p) s = .next (answered opLoomStart fn qp h s 0 (t.loomBegin n j))) ∧
      (served opLoomGetCursor fn qp h p c s = true →
        ∀ b, b = begun opLoomGetCursor fn qp h s →
        ∀ n j, n = fld p 0 2 → b.job n = some j → (b.jobX n).closing = false →
          exec (.loomGetCursor h p) s = .next (answered opLoomGetCursor fn qp h s 0 (b.hostWrite c.fn (fld p 8 8) (j.cursor (b.jobStep j))))) ∧
      (served opLoomSetCursor fn qp h p c s = true →
        ∀ b, b = begun opLoomSetCursor fn qp h s →
        ∀ n j r, n = fld p 0 2 → b.job n = some j → (b.jobX n).closing = false → b.interOf uLoom = some r → r.ph = .intermission →
          r.heldBy c = true → cursorOk j (p.drop 8) = true →
          exec (.loomSetCursor h p) s = .next (stagedReply opLoomSetCursor fn qp h p c s r uLoom (sameJob p) 0)) ∧
      (served opLoomGetOrder fn qp h p c s = true →
        ∀ b, b = begun opLoomGetOrder fn qp h s →
        ∀ n j w, n = fld p 0 2 → b.job n = some j → (b.jobX n).closing = false → j.warps[fld p 2 2]? = some w →
          fld p 16 8 + fld p 4 4 ≤ w.count →
          exec (.loomGetOrder h p) s =
            .next (answered opLoomGetOrder fn qp h s 0 (b.hostWrite c.fn (fld p 24 8)
              ((List.range (fld p 4 4)).flatMap (fun i => leBytes 8 (sigma j.key (fld p 8 4) (fld p 2 2) w.count (fld p 16 8 + i))))))) ∧
      (served opLoomGetJob fn qp h p c s = true →
        ∀ b, b = begun opLoomGetJob fn qp h s →
        ∀ n j, n = fld p 0 2 → b.job n = some j → (b.jobX n).closing = false →
          exec (.loomGetJob h p) s =
            .next (b.reply h 0x0408 { replyBase opLoomGetJob fn qp h s with
              status := sOk, detail := b.okDetail h.unit sOk 0, st := if j.started then 2 else 1, result := j.wovenCnt })) ∧
      (served opLoomSetShare fn qp h p c s = true →
        ∀ b, b = begun opLoomSetShare fn qp h s →
        ∀ n j, n = fld p 0 2 → b.job n = some j → (b.jobX n).closing = false → j.started = false → fld p 2 2 < j.warps.length →
          exec (.loomSetShare h p) s = .next (answered opLoomSetShare fn qp h s 0 (b.applyShare p 0)))) ∧
  (∀ (h i abs src consumer : Nat) (b : Bytes) (s : State) (j : Job), s.live = true → s.job h = some j →
      (s.cueTimed = false → s.fetchDue h = true → exec (.loomFetchStart h) s = .next ((s.fetchStep h j.fetchNext).weaveJob h)) ∧
      (∀ x w, s.ownDue.find? (fun e => e.2 == .fetch h) = some (x, w) →
        ∀ t k, t = s.cueTo (x - 1) x → t.job h = some k → (t.ownDue.find? (fun e => e.2 == .fetch h)).isSome = true →
        exec (.loomFetchStart h) s = .next ((t.fetchStep h k.fetchNext).weaveJob h)) ∧
      (∀ f, j.fetchOf i abs = some f →
        (∀ w, w = j.warps.getD i {} →
          (f.stage = 0 →
            (∀ u e, s.intRow (.index h i abs) w.ctrl w.nsid (j.indexAt w i abs) 16 (padTo 16 b) = (u, some (.ok e)) → fld e 8 4 ≠ 0 →
              fld e 8 4 ≤ w.maxLen →
              exec (.indexEntryRead h i abs b) s =
                .next ((u.upFetch h i abs (fun y => { y with stage := 1, offset := fld e 0 8, len := fld e 8 4, crc := fld e 12 4 })).intBegin
                  (.payload h i abs) w.ctrl w.nsid (fld e 0 8) (fld e 8 4))) ∧
            (∀ u, s.intRow (.index h i abs) w.ctrl w.nsid (j.indexAt w i abs) 16 (padTo 16 b) = (u, none) →
              exec (.indexEntryRead h i abs b) s = .next u)) ∧
          (f.stage = 1 →
            (∀ u d, s.intRow (.payload h i abs) w.ctrl w.nsid f.offset f.len (padTo f.len b) = (u, some (.ok d)) → crc32c d = f.crc →
              ∀ g, g = { f with data := d } →
              exec (.samplePayloadRead h i abs b) s = .next ((u.upFetch h i abs (fun _ => g)).admitFetch h g)) ∧
            (∀ u, s.intRow (.payload h i abs) w.ctrl w.nsid f.offset f.len (padTo f.len b) = (u, none) →
              exec (.samplePayloadRead h i abs b) s = .next u)))) ∧
      (∀ x w, s.ownDue.find? (fun e => e.2 == .rescue h i abs) = some (x, w) →
        ∀ t k, t = s.cueTo (x - 1) x → t.job h = some k → (t.ownDue.find? (fun e => e.2 == .rescue h i abs)).isSome = true →
        ∀ u, u = t.upFetch h i abs (fun y => { y with stage := 0, rescue := true, tries := 0, cue := t.cuePos }) →
        exec (.rescueFetch h i abs) s =
          .next ((u.flag 3 loomEvtOff 2 (fun z => z.upLoom (fun l => { l with evRescue := true, cRescue := inc16 l.cRescue }))).readIndex h k
            (k.warps.getD i {}) i abs)) ∧
      (∀ w, j.warps[i]? = some w → (s.jobX h).closing = false → s.partHeld .shuffle = false →
        (∀ f, w.kind = 0 → j.fetchOf i src = some f → f.stage = 4 → exec (.sampleAdmit h i b src) s = .next (s.admitFetch h f)) ∧
        (∀ o t, w.kind ≠ 0 → s.loom.offered.find? (fun o => o.warp == w.num) = some o → b = o.block →
          ∀ m, m = j.streamed w i src b →
          crc64 (b.take (b.length - 8)) = fld b (b.length - 8) 8 → m.flags &&& w.drop = 0 →
          w.shapeOk m.len m.rows m.dim m.rowBytes m.tkind m.format m.groups = true → w.swap = false →
          s.takeSample h m (sub b 64 (b.length - 72)) = some t →
          exec (.sampleAdmit h i b src) s =
            .next (((t.upJob h (fun j => { j with warps := lmod j.warps i (fun w =>
              { w with admits := (w.admits + 1) % 2 ^ 30, nextSrc := max w.nextSrc (src + 1) }) })).offerTaken o).weaveJob h))) ∧
      (∀ r, r = fld b 4 2 → j.started = true → r < j.members → r ≠ j.rank → fld b 120 8 = agetD (s.jobX h).xin r 0 + 1 → fld b 0 4 = j.jobId →
        ∀ u, u = s.upJobX h (fun x => { x with xin := aset x.xin r (fld b 120 8) }) →
        (u.jobX h).closing = false →
        (fld b 6 1 = 1 → exec (.exchangeNotice h b) s = .next (u.landed h j r b)) ∧
        (fld b 6 1 = 3 →
          exec (.exchangeNotice h b) s =
            .next (u.resend h j r (fld b 8 2) (fld b 12 4 * (j.warps.getD (fld b 8 2) {}).count + fld b 16 8)))) ∧
      (∀ e, j.weaveNext.find? (fun e => ringNo j (s.jobX h) (j.handNext e.1 e.2) e.1 == some consumer) = some e →
        ∀ step, step = j.handNext e.1 e.2 →
        (s.cueTimed = false → (s.jobX h).closing = false → exec (.weaveClose h consumer) s = .next (s.weaveClose h e.1 step)) ∧
        (∀ x w, s.ownDue.find? (fun d => d.2 == .weave h e.1 step) = some (x, w) →
          ∀ t, t = s.cueTo (x - 1) x → (t.ownDue.find? (fun d => d.2 == .weave h e.1 step)).isSome = true →
          exec (.weaveClose h consumer) s = .next (t.weaveClose h e.1 step))))

/-- The class 0x05 commands of a served packet complete with their own effect (R301, R307, R308, R310, R313, R314, R318, R335). -/
def Obligations.DeliveryCommandsComplete : Prop :=
  ∀ (fn qp : Nat) (h : Hdr) (p : Bytes) (c : Caller) (s : State),
    (served opFeedSetPort fn qp h p c s = true →
      ∀ b, b = begun opFeedSetPort fn qp h s →
      ∀ r, b.interOf (portSettingUnit h p) = some r → r.ph = .intermission → r.heldBy c = true →
        exec (.feedSetPort h p) s =
          .next (stagedReply opFeedSetPort fn qp h p c s r (portSettingUnit h p) (fun x => fld x.params 0 1 == fld p 0 1) 0)) ∧
    (served opFeedAdmit fn qp h p c s = true →
      ∀ b, b = begun opFeedAdmit fn qp h s →
      ∀ a, a = fld p 0 1 → (b.acc a).st = 0x12 → b.accThere a = true → b.fnEnabled (fld p 2 2) = true → fld p 1 1 = 0 →
        exec (.feedAdmit h p) s =
          .next (answered opFeedAdmit fn qp h s 0 (b.upAcc a (fun x => { x with st := 2, owner := fld p 2 2, owned := true, releasing := false })))) ∧
    (served opFeedRelease fn qp h p c s = true →
      ∀ b, b = begun opFeedRelease fn qp h s →
      ∀ a, a = fld p 0 1 → (b.acc a).st = 2 → (b.acc a).releasing = false →
        ∀ t, t = b.upAcc a (fun x => { x with releasing := true }) →
        ((t.ringsOf a).all (fun e => e.2.issued.isEmpty) = true →
          exec (.feedRelease h p) s = .next (answered opFeedRelease fn qp h s 0 (t.releaseSettle a))) ∧
        ((t.ringsOf a).all (fun e => e.2.issued.isEmpty) = false →
          exec (.feedRelease h p) s = .next (deferred opFeedRelease fn qp h p s wRelease a t))) ∧
    (served opLatchAssign fn qp h p c s = true →
      ∀ b, b = begun opLatchAssign fn qp h s →
      ∀ l, l = List.range' (fld p 4 2) (fld p 6 2) → fld p 0 2 ≠ 0 → (agetD b.lat.order (fld p 0 2) []).length + l.length ≤ 1024 →
        fld p 4 2 + fld p 6 2 ≤ latchCount →
        l.any (fun n => (b.cell n).en || (b.cell n).bound.isSome || (b.cell n).guard.isSome || (b.cell n).owner != 0) = false →
        exec (.latchAssign h p) s =
          .next (answered opLatchAssign fn qp h s 0 (b.upLat (fun t =>
            { t with cells := l.foldl (fun m n => amod m n {} (fun c => { c with owner := fld p 0 2 })) t.cells,
                     order := amod t.order (fld p 0 2) [] (fun x => x ++ l) })))) ∧
    (served opFeedCreateRing fn qp h p c s = true →
      ∀ b, b = begun opFeedCreateRing fn qp h s →
      ∀ r n k, r = ringFrom p c.fn 0 → freeKey b.feed.rings 1024 0 = some n → r.transport = 0 → r.prio ≠ 0 → c.fn = 0 →
        (b.acc r.accel).st = 2 → (b.acc r.accel).owned = true → (b.acc r.accel).owner = 0 →
        b.latNamed 0 (fld p 6 2) = some k → (b.cell k).owner = 0 → (b.cell k).en = false → (b.cell k).bound = none →
        (b.cell k).guard = none →
        exec (.feedCreateRing h p) s =
          .next (answered opFeedCreateRing fn qp h s n ((b.upFeed (fun f =>
            { f with rings := aset f.rings n { r with latch := k, credRkey := 0 } })).bindLatch k n (2 ^ r.accel)))) ∧
    (served opFeedDestroyRing fn qp h p c s = true →
      ∀ b, b = begun opFeedDestroyRing fn qp h s →
      ∀ n r, n = fld p 0 2 → b.ring n = some r → r.st ≠ 1 → r.st ≠ 3 →
        exec (.feedDestroyRing h p) s =
          .next (answered opFeedDestroyRing fn qp h s 0
            (if r.transport = 0 then (b.ringDestroy n).releaseSettle r.accel else b.ringDestroy n))) ∧
    (served opFeedResetRing fn qp h p c s = true →
      ∀ b, b = begun opFeedResetRing fn qp h s →
      ∀ n r, n = fld p 0 2 → b.ring n = some r → r.st ≠ 3 →
        ∀ t, t = b.ringReset n 0 →
        ((t.ring n).any (fun x => x.st == 3) = true → exec (.feedResetRing h p) s = .next (deferred opFeedResetRing fn qp h p s wRing n t)) ∧
        ((t.ring n).any (fun x => x.st == 3) = false → exec (.feedResetRing h p) s = .next (answered opFeedResetRing fn qp h s 0 t))) ∧
    (served opFeedGetRing fn qp h p c s = true →
      ∀ b, b = begun opFeedGetRing fn qp h s →
      ∀ n r, n = fld p 0 2 → b.ring n = some r →
        exec (.feedGetRing h p) s = .next (answered opFeedGetRing fn qp h s 0 (b.hostWrite c.fn (fld p 8 8) (b.ringRecord n r)))) ∧
    (served opFeedJoin fn qp h p c s = true →
      ∀ b, b = begun opFeedJoin fn qp h s →
      ∀ n r i j, n = fld p 2 2 → i = fld p 0 2 → b.ring n = some r → b.job i = some j → (b.jobX i).closing = false → j.started = true →
        r.st = 0 → (tableAt j (b.jobX i) (2 ^ 64)).contains (j.rank, n) = false → b.feed.changes.any (fun c => c.ring == n) = false →
        1 < j.members →
        exec (.feedJoin h p) s =
          .next (deferred opFeedJoin fn qp h p s wJoin (i * 1024 + n)
            ((b.upRing n (fun r => { r with joinWait := true })).lPropose i n 1 2)))

/-- An accelerator arrives, is enumerated (its functions configured where their BARs fit the window, and reset with ENUM_FAIL where they do
not) or times out (R302, R304); an upstream read of its latch window is answered (R302, R303, R310). A layout change goes its rounds (R330,
R331): a proposal is accepted, an acceptance may commit, a commit applies, a round without every acceptance aborts, and an aborted change is
proposed again. -/
def Obligations.AcceleratorsAndLayoutsAct : Prop :=
  (∀ (a speed width vendor device addr size : Nat) (funcs : List Sys2Proof.AccelFn) (s : State), s.live = true →
      (s.accThere a = true → (s.feedPort (a / 2)).en = true → (s.acc a).st = 0x11 → (s.acc a).retry = false →
        exec (.accelPresence a) s = .next (s.upAcc a (fun x => { x with st := 0x10, perst := false, since := s.now }))) ∧
      ((s.acc a).st = 0x10 →
        (barsFit funcs = true →
          ∀ l, l = accFuncs funcs →
          ∀ t, t = s.upAcc a (fun x => { x with st := 0x12, speed := speed, width := width, vendor := vendor, device := device, funcs := l }) →
          exec (.accelEnumerated a true funcs speed width vendor device) s =
            .next ((t.accConfigure a l).flag 4 (accStatOff a) 8 (fun u =>
              u.upFeed (fun f => { f with accs := amod f.accs a {} (fun x => { x with arriveEv := true }) })))) ∧
        (barsFit funcs = false →
          exec (.accelEnumerated a true funcs speed width vendor device) s =
            .next ((s.upAcc a (fun x => { x with st := 0, perst := true })).flag 4 (accStatOff a) 10 (fun u =>
              u.upFeed (fun f => { f with accs := amod f.accs a {} (fun x => { x with enumFail := true }) })))) ∧
        ((s.acc a).since + 1000000000 ≤ s.now →
          exec (.linkTrainingTimeout a) s = .next (s.upAcc a (fun x => { x with st := 0x11, perst := true, retry := true, since := s.now })))) ∧
      ((s.acc a).st = 0x11 → (s.acc a).retry = true → (s.acc a).since + 10000000000 ≤ s.now → (s.feedPort (a / 2)).en = true →
        exec (.accelRetryTimer a) s = .next (s.upAcc a (fun x => { x with st := 0x10, perst := false, retry := false, since := s.now }))) ∧
      (∀ b n o, (s.acc a).st = 2 → b = (s.feedPort (a / 2)).latchAddr → b ≤ addr → addr < b + 524288 → n = (addr - b) / 64 →
        o = (addr - b) % 64 → (s.cell n).en = true → (s.cell n).mask.testBit a = true →
        exec (.upstreamAccess a addr size .read) s = .next (s.emit .accReply a 0 ((s.cell n).posted o size) []))) ∧
  (∀ (job ring : Nat) (e : Bytes) (s : State) (j : Job), s.live = true → s.job job = some j →
      (∀ r, r = fld e 4 2 → j.started = true → r < j.members → r ≠ j.rank → fld e 120 8 = agetD (s.jobX job).lin r 0 + 1 → fld e 0 4 = j.jobId →
        ∀ u, u = s.upJobX job (fun x => { x with lin := aset x.lin r (fld e 120 8) }) →
        (u.jobX job).closing = false →
        (fld e 6 1 = 1 →
          ∀ mine, mine = max (fld e 16 8) j.fetchNext →
          exec (.layoutNotice job e) s =
            .next ((u.upJob job (fun j => { j with holdFrom := j.holdFrom ++ [(r, fld e 12 4, fld e 10 2, mine)] })).lSend job r
              (lNotice j.jobId j.rank 2 (fld e 7 1) (fld e 8 2) (fld e 10 2) (fld e 12 4) mine (fld e 24 2)))) ∧
        (fld e 6 1 = 3 →
          exec (.layoutNotice job e) s = .next (u.applyChange job r (fld e 7 1) (fld e 8 2) (fld e 10 2) (fld e 16 8)))) ∧
      (∀ c, s.feed.changes.find? (fun c => c.job == job && c.ring == ring) = some c →
        (c.waiting = false → c.sentAt + 10000000 ≤ s.now → c.accepts.length < j.members → c.round < 3 →
          ∀ u, u = (s.lSendAll job 4 c c.a).upJob job (fun j =>
            { j with holdFrom := j.holdFrom.filter (fun x => !(x.1 == j.rank && x.2.2.1 == ring)) }) →
          exec (.layoutRoundTimeout job ring) s = .next (u.upChange job ring (fun c => { c with waiting := true, sentAt := s.now }))) ∧
        (c.waiting = true → c.sentAt + 10000000 ≤ s.now →
          exec (.layoutRepropose job ring) s = .next (s.lPropose job ring (c.round + 1) c.change))))

/-- Latches take adds, posts and register writes (R309 to R312): an add of an admitted accelerator advances VALUE, a post of a newer
credit moves a bound latch, and the host writes VALUE, THRESH and CFG of a latch that nothing owns. Deliveries are issued, land and are
checked, credits arrive and a ring's reset ends (R138, R315 to R328). -/
def Obligations.LatchesAndDeliveriesAct : Prop :=
  (∀ (acc n val o : Nat) (a : Access) (s : State),
      (s.live = true → (s.acc acc).st = 2 → n < latchCount → (s.cell n).en = true → (s.cell n).mask.testBit acc = true →
        ((s.cell n).mode = 0 →
          exec (.latchAdd (.feed acc) n 8 val) s = .next (s.latchSet n ((s.cell n).val + val % 2 ^ 64))) ∧
        (∀ ring r c, (s.cell n).mode = 1 → (s.cell n).bound = some ring → s.ring ring = some r → c = val % 2 ^ 64 % 2 ^ 32 →
          val % 2 ^ 64 / 2 ^ 48 % 65536 = (s.cell n).gen →
          (c + 2 ^ 32 - (s.cell n).val % 2 ^ 32) % 2 ^ 32 ≠ 0 → (c + 2 ^ 32 - (s.cell n).val % 2 ^ 32) % 2 ^ 32 < 2 ^ 31 →
          (c + 2 ^ 32 - r.landed % 2 ^ 32) % 2 ^ 32 ≤ r.slots →
          exec (.latchPost (.feed acc) n 8 val) s = .next (s.latchSet n ((s.cell n).val / 2 ^ 32 * 2 ^ 32 + c)))) ∧
      (hostWrites a.fn s = true → a.wr = true → a.size = 8 → a.aligned = true →
        ∀ t, t = s.ao 11 8 →
        ∀ u, u = t.dropHeld a.fn (a.off - a.off % 8) →
        t.latchAt a = some (n, o) → (t.cell n).bound = none → (t.cell n).guard = none →
        (o / 8 * 8 = 0x00 → exec (.latchValWrite a) s = .next (u.latchSet n (a.val % 2 ^ 64))) ∧
        (o / 8 * 8 = 0x18 → exec (.latchThreshWrite a) s = .next (u.latchThresh n (a.val % 2 ^ 64))) ∧
        (o / 8 * 8 = 0x20 → bit (a.val % 2 ^ 64) 2 = false →
          exec (.latchCfgWrite a) s =
            .next (u.upCell n (fun l =>
              { l with mode := a.val % 2 ^ 64 % 4, en := false, mask := bits (a.val % 2 ^ 64) 8 8, tkind := bits (a.val % 2 ^ 64) 32 4,
                       tindex := bits (a.val % 2 ^ 64) 36 16, armed := false }))))) ∧
  (∀ (ring n gen rkey : Nat) (entry : Bytes) (s : State) (r : FRing), s.live = true → s.ring ring = some r →
      (∀ b, r.queue = b :: r.queue.drop 1 → r.redo = [] → s.ringOpen r = true → s.credit r r.nextN = true → s.classTurn r = true → r.staleSteps = 0 →
        ∀ g, g = State.gather (s.gatherFuel b) s b →
        ∀ w, w = ((g.1.classServed r).upRing ring FRing.popHead).sendBatch ring r r.nextN g.2 false → w.2.empty = false →
          exec (.deliveryIssue ring) s =
            .next ((w.1.upRing ring (fun x =>
              { x with issued := x.issued ++ [w.2], numbers := x.numbers.drop 1, n := if x.numbers.isEmpty then r.nextN else x.n,
                       awake := false })).ringArm ring)) ∧
      (∀ d, r.out n = some d →
        (r.transport = 0 → r.st ≠ 3 →
          exec (.deliveryLanded ring n) s =
            .next (((s.emit .accWrite r.accel r.descBar (r.descOff + 64 * r.slotOf n) (leBytes 4 (genWord d.rg n))).landDelivery ring r d).releaseSettle
              r.accel)) ∧
        (d.state = 2 → d.rg = r.rg → gen = genWord r.rg n →
          exec (.genReadResponse ring n gen) s =
            .next ((s.landDelivery ring r d).upFeed (fun f => { f with cDup := satu 65535 (f.cDup + 1) })))) ∧
      (r.st = 3 → exec (.ringResetReadDone ring) s = .next (s.ringResetEnd ring)) ∧
      (∀ g, s.region rkey = some g → g.owner = .credit ring → fld entry 56 8 = g.seq + 1 →
        exec (.creditMailboxEntry rkey entry) s =
          .next ((s.upNet (fun k => { k with regions := aupd k.regions rkey (fun x => { x with seq := fld entry 56 8 }) })).latchPost r.latch
            (fld entry 0 8) false)))

/-- Detected errors in the order in which they were charged, corrected errors, bursts, partition resets, a removed channel, and the in-field
tests take their effect (R338 to R362). The fault and record opcodes of class 0x00 complete with their own effect (R351, R363, R365). -/
def Obligations.FaultsAct : Prop :=
  (∀ (unit op detail n ch addr : Nat) (cause : ErrCause) (both : Bool) (obj : BurstObj) (link : MeshLink) (bad : List Nat) (s : State),
      (s.live = true →
        (s.unitThere unit = true →
          (∀ c, s.ras.charged.find? (fun c => c.unit == rasUnitId unit) = some c → c.cause = cause → c.op = op → c.detail = detail →
            cause ≠ .memory → cause ≠ .trace →
            exec (.detectedError unit cause op detail) s =
              .next ((s.upRas (fun r => { r with charged := r.charged.erase c })).detected unit cause op detail c.addr).iftCheck) ∧
          (unit < 160 → (s.takeCharges unit).unitFenced unit = true →
            exec (.detectedError unit .memory op detail) s = .next ((s.takeCharges unit).detected unit .memory 0 0 0).iftCheck) ∧
          (unit < 160 → (s.takeCharges unit).unitFenced unit = false →
            exec (.detectedError unit .memory op detail) s =
              .next (((s.takeCharges unit).memoryHit unit op detail).detected unit .memory 0 0 0).iftCheck) ∧
          exec (.detectedError unit .trace op detail) s = .next (s.traceRecordLost op) ∧
          (unit < 160 → exec (.correctedError unit n false) s = .next (s.corrected unit n)) ∧
          (160 ≤ unit →
            exec (.correctedError unit n true) s =
              .next ((s.upRas (fun r => { r with cRetry := satu 65535 (r.cRetry + n) })).corrected unit n))) ∧
        (1000 < link.replays → exec (.meshDegraded link) s = .next (s.record uDevice 0x0005 0 link.routerPort 0 .health)) ∧
        (ch < s.glb.part.channels → s.ras.removed.contains ch = false →
          (∀ t, t = (s.upRas (fun r => { r with scrubNext := (r.scrubNext + 64) % mib s.capMib })).gRead 64 →
            exec (.patrolScrub ch 0) s = .next t ∧
            (0 < n → exec (.patrolScrub ch n) s =
              .next (((t.ao 14 64).upRas (fun r => { r with cCorr := satu 4294967295 (r.cCorr + n) })).corrected (160 + ch) n))) ∧
          (∀ p, s.partOf addr = some p →
            exec (.uncorrectableBurst addr ch false both obj) s =
              .next (((((s.upRas (fun r => { r with cUncorr := satu 65535 (r.cUncorr + 1), cRetry := r.cRetry })).charge (rasUnitId (160 + ch))
                .uncorrectable 0 p.num addr).objectLost obj both).partReset p (some (addr / 64 * 64, ch)))))) ∧
        (∀ r, s.ras.resets.find? (fun r => r.part == n) = some r →
          ∀ t, t = s.upRas (fun x => { x with resets := x.resets.filter (fun y => y.part != n) }) →
          exec (.partitionResetEnd n bad) s =
            .next (((r.lines.eraseDups.filter (fun l => bad.contains l.1)).foldl (fun u l =>
              u.charge (rasUnitId (160 + l.2)) .uncorrectable 0 n l.1) t).partBack (Partn.ofNum n))) ∧
        (∀ k l, s.ras.removing = some (k, l) →
          ∀ u, u = (s.upRas (fun r => { r with removing := none, removed := ladd r.removed k })).upNet (fun n =>
            { n with ports := n.ports.map (fun e => (e.1, { e.2 with paused := false })) }) →
          ∀ w, w = ([Partn.wbuf, .staging, .shuffle].foldl (fun w p => if w.partHeld p then w else w.partBack p)
              (u.record (rasUnitId (160 + k)) 0x0006 0 (u.glb.part.channels - u.ras.removed.length) 0 .health)).qpsKick →
          exec .channelRemoved s = .next (w.ras.heldUses.foldl State.useGoes (w.upRas (fun r => { r with heldUses := [] })))) ∧
        (s.ras.period ≠ 0 → s.iftNext = some n →
          exec (.iftDue n) s = .next (s.upRas (fun r => { r.makeDue [] [n] with dueLast := some n })).iftStart) ∧
        (s.tap.testOut.contains n = true → s.ras.testPass.contains n = false → s.unitFenced n = false → s.chargeWaits n = false →
          ∀ t, t = (s.applyHeld n).upRas (fun r => { r with lastCore := n, lastTest := aset r.lastTest n s.now }) →
          exec (.iftComplete n true detail) s =
            .next (t.upRas (fun r => { r with passes := satu 65535 (r.passes + 1), testPass := ladd r.testPass n })) ∧
          exec (.iftComplete n false detail) s =
            .next ((t.rasFlag 3 (fun r => { r with evTestFail := true, fails := satu 65535 (r.fails + 1) })).charge (unitId 1 n) .test 0 detail 0))) ∧
      (∀ c, s.aon.powered = true → s.ras.coals.find? (fun c => c.matches unit n op) = some c → c.since + 10000000 ≤ s.now →
        exec (.recordCoalesceExpiry unit n op) s = .next (s.endCoal c))) ∧
  (∀ (fn qp : Nat) (h : Hdr) (p : Bytes) (c : Caller) (s : State),
      (served opRasSetErrorRing fn qp h p c s = true → fld p 10 2 < vectorsOf c.fn →
        ∀ r : Ring, r = { base := fld p 0 8, log2 := fld p 8 1, vector := fld p 10 2 } →
        exec (.rasSetErrorRing h p) s =
          .next (answered opRasSetErrorRing fn qp h s 0 ((begun opRasSetErrorRing fn qp h s).upRas (fun x =>
            { x with rings := aset x.rings c.fn r })))) ∧
      (served opRasErrorHead fn qp h p c s = true →
        ∀ b, b = begun opRasErrorHead fn qp h s →
        ∀ g k, aget b.ras.rings c.fn = some g → k = (fld p 0 4 + g.size - g.head) % g.size → fld p 0 4 < g.size → k ≤ g.count →
          exec (.rasErrorHead h p) s =
            .next (answered opRasErrorHead fn qp h s 0 (b.upRas (fun r =>
              { r with rings := aset r.rings c.fn { g with head := fld p 0 4, count := g.count - k } })))) ∧
      (served opRasGetUnit fn qp h p c s = true →
        ∀ b, b = begun opRasGetUnit fn qp h s →
        ∀ n, rasIndex h.unit = some n →
          exec (.rasGetUnit h p) s =
            .next (answered opRasGetUnit fn qp h s (b.unitState h.unit + 256 * (b.rasUnit n).rung + 65536 * (b.rasUnit n).detected) b)) ∧
      (served opRasFenceUnit fn qp h p c s = true →
        ∀ b, b = begun opRasFenceUnit fn qp h s →
        ∀ n, rasIndex h.unit = some n → b.isProtected n = false →
          exec (.rasFenceUnit h p) s = .next (answered opRasFenceUnit fn qp h s 0 (b.fenceUnit n).iftCheck)) ∧
      (served opRasSetTest fn qp h p c s = true →
        exec (.rasSetTest h p) s =
          .next (answered opRasSetTest fn qp h s 0 ((begun opRasSetTest fn qp h s).upRas (fun r =>
            { r with period := bits (fld p 0 8) 0 16, vdrop := bits (fld p 0 8) 16 5, clkPct := bits (fld p 0 8) 21 3,
                     heat := bit (fld p 0 8) 24 })))))

/-- The class 0x0A commands of a served packet complete with their own effect (R367 to R372, R375, R382, R386, R390). The steps of a
capture, a drain and a restore happen when their premise holds (R374 to R387), and an accelerator departs (R306). What the namespace of a
job holds when the job takes it is a free value, since the spec states no contents (log entry 79). -/
def Obligations.CheckpointsAct : Prop :=
  (∀ (fn qp : Nat) (h : Hdr) (p : Bytes) (c : Caller) (s : State),
      (served opCkpSetJob fn qp h p c s = true →
        ∀ b, b = begun opCkpSetJob fn qp h s →
        ∀ n k t, b.ckp.jobs.find? (fun e => e.2.jobId == fld p 0 4) = none → freeKey b.ckp.jobs 64 0 = some n →
          b.ckpMailbox n (fld p 4 2) = some (k, t) → b.remoteOk (fld p 12 4) (fld p 8 4) = true → b.area (fld p 0 4) = none →
          (b.ckp.areas.map (fun a => areaBytes a.setGib)).sum + areaBytes (fld p 8 4) ≤ b.bookBytes →
          ∀ j : CkJob, j = { jobId := fld p 0 4, members := fld p 4 2, rank := fld p 6 2, setGib := fld p 8 4, nsid := fld p 12 4,
                             decidePh := orElse (fld p 16 4) 4096, lastBegin := t.now, mbox := k,
                             remote := if fld p 12 4 = 0 then none else Config.remoteBank t.free,
                             remoteOld := if fld p 12 4 = 0 ∨ Config.remoteBank t.free = none then none else Config.remoteOld t.free } →
          exec (.ckpSetJob h p) s =
            .next (answered opCkpSetJob fn qp h s n (((t.upCkp (fun c =>
              { c with jobs := aset c.jobs n j,
                       areas := c.areas ++ [{ jobId := fld p 0 4, setGib := fld p 8 4 }] })).spent).resync n))) ∧
      (served opCkpSetShards fn qp h p c s = true →
        ∀ b, b = begun opCkpSetShards fn qp h s →
        ∀ i j m, i = fld p 0 2 → b.ck i = some j → j.capture = none → j.restore = none →
          m = { j with shards := shardsOf p, streams := streamsOf p, boxes := boxesOf p } →
          m.total ≤ b.partLen .ckp → m.total ≤ j.setGib * 1073741824 →
          shardClash (fun x d => x.id == d.id) [] m.shards 0 = none → dimsClash p = none →
          m.boxes.all (boxInside m.streams) = true → m.shards.all (boxFits m.streams m.boxes) = true →
          shardClash (fun x d => x.guard == d.guard && x.accel != d.accel) [] m.shards 0 = none → m.guards.all b.latchFree = true →
          exec (.ckpSetShards h p) s =
            .next (answered opCkpSetShards fn qp h s 0
              ((((b.freeGuards j).upCk i (fun _ => m)).bindGuards i m).setGuards m m.guards (b.openNow m)))) ∧
      (served opCkpSetTrigger fn qp h p c s = true →
        ∀ b, b = begun opCkpSetTrigger fn qp h s →
        ∀ i j, i = fld p 0 2 → b.ck i = some j →
          exec (.ckpSetTrigger h p) s =
            .next (answered opCkpSetTrigger fn qp h s 0 (b.upCk i (fun j =>
              { j with trigEn := fld p 8 1, nSteps := fld p 12 4, baseStep := fld p 16 8, tS := fld p 24 4, windowS := fld p 28 2,
                       minGap := fld p 30 2, thresh := (List.range 5).map (fun i => fld p (32 + 2 * i) 2),
                       warned := j.warned && bit (fld p 8 1) 2 })))) ∧
      (served opCkpCapture fn qp h p c s = true →
        ∀ b, b = begun opCkpCapture fn qp h s →
        ∀ i j, i = fld p 0 2 → b.ck i = some j →
          (fld p 8 8 = 0 → b.cue.st = .none → j.restore = none → b.skipReason j false = none →
            exec (.ckpCapture h p) s =
              .next (deferred opCkpCapture fn qp h p s wCapture (i * 2 ^ 40) ((b.setGuards j j.guards 0).captureBegin i 0 true))) ∧
          (fld p 8 8 ≠ 0 → (b.cueTimed = true → j.decided ≤ fld p 8 8) → (b.cue.st ≠ .none → b.passed j < (fld p 8 8 : Nat)) →
            exec (.ckpCapture h p) s =
              .next (deferred opCkpCapture fn qp h p s wCapture (i * 2 ^ 40 + fld p 8 8) (b.upCk i (fun j =>
                { j with reqAt := ladd j.reqAt (fld p 8 8) }))))) ∧
      (served opCkpGetJob fn qp h p c s = true →
        ∀ b, b = begun opCkpGetJob fn qp h s →
        ∀ i j, i = fld p 0 2 → b.ck i = some j →
          exec (.ckpGetJob h p) s = .next (answered opCkpGetJob fn qp h s j.state (b.hostWrite c.fn (fld p 8 8) (b.ckRecord j)))) ∧
      (served opCkpRestore fn qp h p c s = true →
        ∀ b, b = begun opCkpRestore fn qp h s →
        ∀ i j l k far, i = fld p 0 2 → b.ck i = some j → j.capture = none → j.restore = none →
          j.shards.any (fun d => (b.acc d.accel).st != 2) = false →
          l = (b.candidateBanks j (fld p 3 1 == 1)).filter (fun e => e.1.hdrOk && (fld p 2 1 == 0 || e.1.man.step == fld p 8 8)) →
          l.find? (fun e => b.bankOk e.1) = some (k, far) → j.shards.findIdx? (fun d => !(j.matches_ k.man d)) = none →
          ∀ r : Restore, r = { man := k.man, source := if far then 1 else 0, left := j.sources k.man, cursorAddr := fld p 16 8, set_ := k.set_,
                               fallback := if fld p 3 1 = 0 ∧ far = false then
                                   ((b.candidateBanks j true).find? (fun e => e.1.man == k.man)).map (fun e => e.1.set_) else none } →
          ∀ t, t = r.left.foldl (fun t n => t.sourceRead i j r n) ((b.upCk i (fun j => { j with restore := some r })).setGuards j j.guards 0) →
          (r.left ≠ [] → exec (.ckpRestore h p) s = .next (deferred opCkpRestore fn qp h p s wRestore i t)) ∧
          (r.left = [] → exec (.ckpRestore h p) s = .next (answered opCkpRestore fn qp h s (k.man.step % 2 ^ 32) (t.restoreEnd i)))) ∧
      (served opCkpSetSigners fn qp h p c s = true →
        ∀ b, b = begun opCkpSetSigners fn qp h s →
        exec (.ckpSetSigners h p) s =
          .next (deferred opCkpSetSigners fn qp h p s wStore b.sm.ticket (b.storeAdd 7 (sub p 8 (32 * fld p 0 1)) 0x0A))) ∧
      (served opCkpCloseJob fn qp h p c s = true →
        ∀ b, b = begun opCkpCloseJob fn qp h s →
        ∀ i j, i = fld p 0 2 → b.ck i = some j → j.capture = none → j.restore = none →
          (fld p 2 1 = 0 → exec (.ckpCloseJob h p) s = .next (answered opCkpCloseJob fn qp h s 0 (b.ckpClose i))) ∧
          (fld p 2 1 = 1 → exec (.ckpCloseJob h p) s =
            .next (answered opCkpCloseJob fn qp h s 0 ((b.ckpClose i).upCkp (fun k =>
              { k with areas := k.areas.filter (fun a => a.jobId != j.jobId) }))))) ∧
      (served opCkpReadBank fn qp h p c s = true →
        ∀ b, b = begun opCkpReadBank fn qp h s →
        ∀ i j a, i = fld p 0 2 → b.ck i = some j → b.area j.jobId = some a →
          exec (.ckpReadBank h p) s =
            .next (answered opCkpReadBank fn qp h s 0 (b.hostWrite c.fn (fld p 8 8)
              ((if fld p 2 1 = 0 then a.bank0 else a.bank1).bytes.take (fld p 16 8)))))) ∧
  (∀ (h i : Nat) (data : Bytes) (s : State) (j : CkJob), s.live = true → s.ck h = some j →
      (∀ x w, s.ownDue.find? (fun e => e.2 == .decision h) = some (x, w) →
        ∀ t k, t = s.cueTo (x - 1) x → t.ck h = some k → (t.ownDue.find? (fun e => e.2 == .decision h)).isSome = true →
        exec (.captureDecision h) s = .next (t.decide_ h k)) ∧
      (∀ x w, s.ownDue.find? (fun e => e.2 == .capture h) = some (x, w) →
        ∀ t k c, t = s.cueTo (x - 1) x → t.ck h = some k → k.capture = some c →
          (t.ownDue.find? (fun e => e.2 == .capture h)).isSome = true → exec (.captureStart h) s = .next (t.captureStart h k c)) ∧
      (∀ c, j.capture = some c →
        (c.zeroed = false →
          exec (.bankZeroAck h) s =
            .next (((s.upBank j.jobId c.bank (fun b => { b with hdrOk := false })).upCapture h (fun c => { c with zeroed := true })).upCkp (fun k =>
              { k with pbOk := true }))) ∧
        (s.captureDue c = true → (s.cueTimed = false ∨ c.noCue = true) → exec (.captureStart h) s = .next (s.captureStart h j c)) ∧
        (c.started = true → (j.heads c).contains i = true → data.length = (j.shard i).size →
          (s.acc (j.shard i).accel).st = 2 →
          exec (.shardCopied h i data true) s = .next (s.shardIn h i j c data)) ∧
        (c.zeroed = true → c.stored.headD 65536 = i →
          exec (.shardStored h i) s =
            .next ((((s.putShard j.jobId c.set_ c.setOff (agetD c.held i [])).upCapture h (fun c =>
              { c with stored := c.stored.drop 1, held := adel c.held i, acked := c.acked ++ [(i, c.setOff, agetD c.digests i [])],
                       setOff := c.setOff + (j.shard i).size })).emit .pbWrite h
                (33554432 + c.set_ * j.setGib * 1073741824 + c.setOff) (j.shard i).size []).upCkp (fun k => { k with pbOk := true }))) ∧
        (c.zeroed = true → c.started = true → c.left = [] → c.stored = [] → exec (.captureCommit h) s = .next (s.commit h j c)) ∧
        exec (.pbWriteFail h i) s =
          .next (((s.ckpFlag 5 (fun k => { k with evPbFail := true, pbOk := false })).record 0 0x00C1 0 i 0 .health).ckpAbandon h 4)) ∧
      (∀ r, r = fld data 4 2 → r < j.members → r ≠ j.rank → fld data 56 8 = agetD j.xin r 0 + 1 → fld data 0 4 = j.jobId → fld data 6 1 = 1 →
        exec (.checkpointNotice h data) s =
          .next ((s.upCk h (fun j => { j with xin := aset j.xin r (fld data 56 8) })).ckpCommitted h (fld data 8 8) r)) ∧
      (∀ d a w, j.drain = some d → s.intOp (.drain h) = some w → s.pwr.step = 0 →
        ∀ t, t = s.intAdvance (w.todo.length + 1) (.drain h) →
        (t.area j.jobId = some a → (t.intOp (.drain h)).any (fun o => o.fail.isSome) = true →
          exec (.drainComplete h) s = .next (t.drainBegin h)) ∧
        ((t.intOp (.drain h)).any (fun o => o.fail.isSome) = false → t.intWritten (.drain h) = false → exec (.drainComplete h) s = .next t) ∧
        ((t.intOp (.drain h)).any (fun o => o.fail.isSome) = false → t.intWritten (.drain h) = true → t.area j.jobId = some a → t.pwr.step = 0 → a.bank0.hdrOk = true → a.bank0.seq = d.seq →
          j.remote = none → (a.bank1.hdrOk = true → a.bank1.seq ≤ d.seq) →
          ∀ b, b = { a.bank0 with set_ := 0 } →
          exec (.drainComplete h) s =
            .next ((((t.intDrop (.drain h)).emit .intWrite j.nsid 0 b.bytes.length b.bytes).upCk h (fun j =>
              { j with drain := none, remote := some (0, 0, b), remoteOld := j.remote.map (fun x => x.2.2), drainedStep := d.step })).ckpFlag 3 (fun k => { k with evDrain := true })))) ∧
      (∀ r e, j.restore = some r → r.left.contains i = true → r.source = 0 → (agetD r.tries i 0 < 2 ∨ r.fallback = none) → r.man.shards[i]? = some e →
        s.bookBrings j r.set_ e data = true → data.length = e.1.size → sha256 data = e.2.2 →
        ∀ u, u = (s.restoreWrite j r.man i data).upCk h (fun j =>
          { j with restore := j.restore.map (fun r => { r with left := r.left.filter (fun k => k != i) }) }) →
        exec (.restoreShardRead h i data false) s = .next (if (r.left.filter (fun k => k != i)).isEmpty then u.restoreEnd h else u)) ∧
      ((s.acc i).st = 2 →
        exec (.accelDeparted i) s =
          .next (((s.ckpAccGone i).accGone i 0x11).finishAll (fun w => w.kind == wRelease && w.aux == i) sOk 0 0)))

/-- The class 0x0C commands of a served packet complete with their own effect (R403, R404, R407 to R409, R489). Firmware is loaded,
stagehands whose watchdog expired end and come back, and a handover goes its steps (R394, R395, R400, R401, R404 to R407). -/
def Obligations.FirmwareActs : Prop :=
  (∀ (fn qp : Nat) (h : Hdr) (p : Bytes) (c : Caller) (s : State),
      (served opFwGetInfo fn qp h p c s = true →
        ∀ b, b = begun opFwGetInfo fn qp h s →
        ∀ r, b.stg.image = some r → b.stg.usHdr = none →
          exec (.fwGetInfo h p) s =
            .next (answered opFwGetInfo fn qp h s r.svn (b.hostWrite c.fn (fld p 0 8)
              (padTo 128 r.bytes128 ++ padTo 128 (b.stg.understudy.take 128))))) ∧
      (served opFwStage fn qp h p c s = true → fld p 0 4 + fld p 4 4 ≤ 8388608 →
        ∀ b, b = begun opFwStage fn qp h s →
        ∀ old, old = (if fld p 0 4 = 0 then [] else b.stg.understudy) →
          exec (.fwStage h p) s =
            .next (answered opFwStage fn qp h s 0 ((b.upStg (fun x =>
              { x with understudy := putAt old (fld p 0 4) (sub p 8 (fld p 4 4)), usReady := false, usHdr := none })).stageCopies
              (fld p 0 4 == 0)))) ∧
      (served opFwVerify fn qp h p c s = true →
        ∀ b, b = begun opFwVerify fn qp h s →
        ∀ r i, b.stg.image = some r → i = ImgHdr.ofBytes b.stg.understudy → i.resident + b.stg.moduleBytes ≤ 196608 →
          b.fwImgCheck b.stg.understudy = 0 → b.stg.grant &&& i.offer = b.stg.grant → i.verMin ≤ b.stg.grantMin → b.stg.grantMax ≤ i.verMax →
          i.recMin ≤ r.recMax → r.recMax ≤ i.recMax →
          b.stg.modules.all (fun m => m.modAbi == i.modAbi) = true →
          exec (.fwVerify h p) s =
            .next (answered opFwVerify fn qp h s 0 (b.upStg (fun x => { x with usReady := true, usHdr := some i })))) ∧
      (served opFwActivate fn qp h p c s = true →
        ∀ b, b = begun opFwActivate fn qp h s →
        b.stg.handover = none → b.cmd.inters.any (fun r => r.ph != .intermission) = false → b.stg.usReady = true →
          ∀ v : Handover, v = { since := b.now, accepted := b.now, trialMs := fld p 0 4, new := b.stg.usHdr } →
          exec (.fwActivate h p) s =
            .next (deferred opFwActivate fn qp h p s wActivate 0 (b.upStg (fun x => { x with handover := some v })))) ∧
      (served opFwCommit fn qp h p c s = true →
        ∀ b, b = begun opFwCommit fn qp h s →
        b.stg.trial = true →
          (bit (fld p 0 1) 0 = false → exec (.fwCommit h p) s = .next (answered opFwCommit fn qp h s 0 b.trialEnd)) ∧
          (∀ r, bit (fld p 0 1) 0 = true → b.stg.image = some r →
            exec (.fwCommit h p) s =
              .next (deferred opFwCommit fn qp h p s wStore b.trialEnd.sm.ticket (b.trialEnd.storeAdd 4 (leBytes 4 r.svn) 0x0C)))) ∧
      (served opFwRollback fn qp h p c s = true →
        ∀ b, b = begun opFwRollback fn qp h s →
        b.stg.trial = true → exec (.fwRollback h p) s = .next (deferred opFwRollback fn qp h p s wRollback 0 (b.handoverBack false))) ∧
      (served opFwLoadModule fn qp h p c s = true →
        ∀ b, b = begun opFwLoadModule fn qp h s →
        ∀ m r, m = moduleOf p → b.stg.image = some r → b.stg.modules.any (fun x => x.cls == m.cls) = false →
          r.resident + b.stg.moduleBytes + m.resident ≤ 196608 → moduleFormat p = true →
          imgSigned (p.take (Config.moduleField 3 p)) b.sm.cfg.modKeys = true → r.modAbi = m.modAbi →
          exec (.fwLoadModule h p) s =
            .next (answered opFwLoadModule fn qp h s m.cls
              (((b.upStg (fun x => { x with modules := x.modules ++ [m] })).modulesLaid).gClear (b.areaBase m.cls) (1024 * m.areaKib)))) ∧
      (served opFwUnloadModule fn qp h p c s = true →
        ∀ b, b = begun opFwUnloadModule fn qp h s →
        b.stg.modules.any (fun m => m.cls == fld p 0 1) = true →
          (b.classBusy (fld p 0 1) = false →
            exec (.fwUnloadModule h p) s = .next (answered opFwUnloadModule fn qp h s 0 (b.moduleGone (fld p 0 1)))) ∧
          (b.classBusy (fld p 0 1) = true →
            exec (.fwUnloadModule h p) s = .next (deferred opFwUnloadModule fn qp h p s wUnload (fld p 0 1) b))) ∧
      (served opFwSetModuleKey fn qp h p c s = true →
        ∀ b, b = begun opFwSetModuleKey fn qp h s →
        exec (.fwSetModuleKey h p) s =
          .next (deferred opFwSetModuleKey fn qp h p s wStore b.sm.ticket (b.storeAdd 6 (sub p 8 (32 * fld p 0 1)) 0x0C)))) ∧
  (∀ (core : Nat) (a : Access) (image : Bytes) (s : State),
      (hostWrites 0 s = true → a.fn = 0 → a.wr = true → a.off = 0x03000008 → bit a.val 24 = true → a.aligned = true →
        exec (.stgLoadGo a) s = .next (((s.ao 11 a.size).upStg (fun x => { x with loadLen := a.val % 2 ^ 24 })).stgGo)) ∧
      (s.live = true →
        (s.stg.status = 1 → s.stg.loadLost = false →
          ∀ b, b = padTo s.stg.loadLen image →
          ∀ i, i = ImgHdr.ofBytes b →
          ∀ g, g = (s.stg.reqLo + 2 ^ 64 * s.stg.reqHi) &&& i.offer →
          ∀ lo hi, lo = max 1 (max s.stg.reqMin i.verMin) → hi = min 2 (min s.stg.reqMax i.verMax) →
          ∀ r, r = (s.dropImage s.stg.bank).putImage s.stg.bank 0 b →
          r.fwImgCheck b = 0 → g.testBit 0 = true → lo ≤ hi →
          ∀ t, t = r.upStg (fun x => { x with status := 2, image := some i, grant := g, grantMin := lo, grantMax := hi }) →
          exec (.stgLoadDone image true) s =
            .next (t.handsUp.foldl (fun u n => (u.loadHand n).upHand n (fun g => { g with st := 1, restarting := false })) t).liveAll) ∧
        ((s.core core).running = true → s.handUp core = true → (s.hand core).kickAt + s.stg.wdogNs ≤ s.now →
          exec (.watchdogExpiry core) s = .next (s.handEnds core)) ∧
        (s.mayRestart core = true → exec (.stagehandRestarted core) s = .next ((s.loadHand core).handBack core)) ∧
        (∀ v, s.stg.handover = some v →
          (v.stage = 0 → s.sm.running = true → s.pwr.emergency = false → s.pwr.clearAt + 100000000 ≤ s.smNow →
            exec .handoverClearance s = .next ((s.upHandover (fun h => { h with stage := 1, since := s.now })).handsState 0x14)) ∧
          (v.stage = 0 → v.accepted + 60000000000 ≤ s.now → s.handoverClear = false →
            exec .activateDeferTimeout s =
              .next ((s.upStg (fun x => { x with handover := none })).finishAll (fun w => w.kind == wActivate) 0x0010 0 0)) ∧
          (v.stage = 1 →
            (∀ ver, ver = ((if v.back then v.old else s.stg.image).map (fun i => i.recMax)).getD 0 →
              ∀ d, d = s.stateRecord ver ((s.stg.image.map (fun i => i.svn)).getD 0) →
              ∀ t, t = ((s.gWrite (s.recordBase 0) d).gWrite (s.recordBase 1) d).upStg (fun x =>
                { x with image := if v.back then v.old else v.new, bank := 1 - x.bank,
                         handover := some { v with stage := 2, since := s.now, old := x.image } }) →
              exec .handoverQuiesced s = .next (t.handsUp.foldl (fun u n => u.loadHand n) t)) ∧
            (v.back = false → v.since + 20000000 ≤ s.now → exec .handoverQuiesceTimeout s = .next (s.handoverAbandon 0))) ∧
          (v.stage = 2 → v.back = false →
            (v.since + 200000000 ≤ s.now → exec .handoverStep4Timeout s = .next (s.handoverBack true)) ∧
            (∀ i, s.stg.image = some i → (s.recordGood i 0 || s.recordGood i 1) = true →
              ∀ t, t = (s.handsUp.filter (fun n => (s.hand n).restarting)).foldl (fun t n => t.handBack n) s →
              exec .handoverResumed s =
                .next ((((t.upHandover (fun g => { g with stage := 3, since := s.now })).upStg (fun x =>
                  { x with usReady := false, usHdr := none })).flag 10 stgStatOff 6 (fun u => u.upStg (fun x =>
                  { x with evHandover := true }))).finishAll (fun w => w.kind == wActivate) sOk 0 i.svn))) ∧
          (v.stage = 3 → v.since + v.trialMs * 1000000 ≤ s.now → exec .trialExpiry s = .next s.trialEnd))))

/-- The stage manager boots, is reset by its watchdog, settles its store and activates its firmware when their premise holds (R478, R479,
R489 to R491, R501 to R503), and its opcodes read a log or submit a write of the store. -/
def Obligations.StageManagerActs : Prop :=
  ∀ (fn qp : Nat) (h : Hdr) (p : Bytes) (c : Caller) (s : State),
    (s.aon.powered = true →
      (s.sm.running = false → s.sm.recovery = false → exec .smBoot s = .next s.smBoot.smWaiters) ∧
      (s.sm.running = true →
        (s.sm.wdAt + 100000000 ≤ s.smNow → s.sm.trial = false → exec .smWatchdogExpiry s = .next (s.smStop 1 s.sm.bank)) ∧
        (s.sm.writing ≠ [] → exec (.storeBankCompare true) s = .next s.storeDone) ∧
        (s.sm.actReq.isSome = true → s.actClear = true → exec .smActivateClearance s = .next s.actBegin) ∧
        (∀ t, s.sm.actReq = some t → t + 60000000000 ≤ s.smNow → s.actClear = false →
          exec .smActivateTimeout s = .next ((s.upSm (fun m => { m with actReq := none })).record uDevice 0x0108 0 1 0 .health)) ∧
        (s.sm.trial = true →
          (s.smNow ≤ s.sm.trialAt + 30000000000 →
            exec .smFwConfirm s =
              .next ((((s.upSm (fun m => { m with trial := false })).upFlash (fun f =>
                { f with active := s.sm.bank, otpSm := max f.otpSm s.sm.svn })).storeAdd 5 (leBytes 4 s.sm.svn) 0x100).record uDevice 0x0106 0
                  s.sm.svn 0 .health)) ∧
          (s.sm.trialAt + 30000000000 ≤ s.smNow → exec .smTrialTimeout s = .next s.smRollback)) ∧
        (∀ m t, s.sm.mgmtNew = some (m, t) → t ≤ s.smNow →
          exec .mgmtConfigApply s = .next (s.upSm (fun x => { x with mgmtNew := none, cfg := { x.cfg with mgmt := m } }))))) ∧
    (served opSmReadLog fn qp h p c s = true →
      ∀ b, b = begun opSmReadLog fn qp h s →
      (b.sm.running = true →
        exec (.smReadLog h p) s =
          .next (answeredBy opSmReadLog fn qp h s sOk (b.readLog c.fn p).1 (b.readLog c.fn p).2.1 (b.readLog c.fn p).2.2)) ∧
      (b.sm.running = false → exec (.smReadLog h p) s = .next (deferred opSmReadLog fn qp h p s wSm c.fn b))) ∧
    (served opSmSetOperatorKey fn qp h p c s = true →
      ∀ b, b = begun opSmSetOperatorKey fn qp h s →
      exec (.smSetOperatorKey h p) s =
        .next (deferred opSmSetOperatorKey fn qp h p s wStore b.sm.ticket (b.storeAdd 1 (keyDigest (sub p 8 32)) 0x00))) ∧
    (served opSmSetThreshold fn qp h p c s = true →
      ∀ b, b = begun opSmSetThreshold fn qp h s →
      exec (.smSetThreshold h p) s =
        .next (deferred opSmSetThreshold fn qp h p s wStore b.sm.ticket (b.storeAdd 9 (sub p 0 2 ++ sub p 8 16) 0x00))) ∧
    (served opSmSetFwKey fn qp h p c s = true →
      ∀ b, b = begun opSmSetFwKey fn qp h s →
      exec (.smSetFwKey h p) s = .next (deferred opSmSetFwKey fn qp h p s wStore b.sm.ticket (b.storeAdd 3 (sub p 0 32) 0x00))) ∧
    (served opSmSetMgmt fn qp h p c s = true →
      ∀ b, b = begun opSmSetMgmt fn qp h s →
      exec (.smSetMgmt h p) s = .next (deferred opSmSetMgmt fn qp h p s wStore b.sm.ticket (b.storeAdd 8 (sub p 0 64) 0x00)))

/-- The call board acts (R437 to R439, R444 to R449): an assignment, writes of ones to a panel, a take and a completion of a vector, and
the messages that moderation and masks held. -/
def Obligations.CallBoardActs : Prop :=
  ∀ (fn qp vec src : Nat) (a : Access) (h : Hdr) (p : Bytes) (c : Caller) (s : State),
    (served opCallAssign fn qp h p c s = true →
      ∀ b, b = begun opCallAssign fn qp h s →
      ∀ l, l = List.range' (fld p 4 2) (fld p 6 2) → fld p 0 2 ≠ 0 →
        l.any (fun n => !(agetD b.call.srcs n {}).mask || (agetD b.call.srcs n {}).pend || b.onStack n || (agetD b.call.srcs n {}).owner != 0) = false →
        (agetD b.call.order (fld p 0 2) []).length + l.length ≤ 128 →
        exec (.callAssign h p) s =
          .next (answered opCallAssign fn qp h s 0 (b.upCall (fun k =>
            { k with srcs := l.foldl (fun m n => amod m n {} (fun c => { c with owner := fld p 0 2 })) k.srcs,
                     order := amod k.order (fld p 0 2) [] (fun x => x ++ l) })))) ∧
    (hostWrites a.fn s = true → a.wr = true → a.size = 8 → a.aligned = true →
      ∀ base srcs, s.panelAt a.fn a.off = some (base, srcs) →
      ∀ on_, on_ = (fun (reg : Nat) (f : State → Nat → State) =>
        srcs.zipIdx.foldl (fun t e => if (a.val % 2 ^ 64).testBit e.2 then f t e.1 else t) ((s.ao 11 8).dropHeld a.fn (base + reg))) →
      (a.off / 8 * 8 = base + 0x08 → exec (.callMaskSet a) s = .next (on_ 0x08 (fun t n => t.upSrc n (fun c => { c with mask := true })))) ∧
      (a.off / 8 * 8 = base + 0x10 →
        exec (.callMaskClr a) s = .next (on_ 0x10 (fun t n => t.watch n (fun u => u.upSrc n (fun c => { c with mask := false }))))) ∧
      (a.off / 8 * 8 = base + 0x20 → exec (.callPendSet a) s = .next (on_ 0x20 (fun t n => t.raise n))) ∧
      (a.off / 8 * 8 = base + 0x28 → exec (.callPendClr a) s = .next (on_ 0x28 (fun t n => t.upSrc n (fun c => { c with pend := false }))))) ∧
    (hostWrites fn s = true → vec < vectorsOf fn →
      exec (.callVTake fn vec) s =
        .next ((((s.ao 11 4).take (.vec (vecKey fn vec))).2).upVec (vecKey fn vec) (fun v => { v with taken := true })) ∧
      (∀ e l, s.stackOf (.vec (vecKey fn vec)) = e :: l → e.1 = src →
        exec (.callVDone fn vec src) s =
          .next (((s.ao 11 4).popStack (.vec (vecKey fn vec))).tell (.vec (vecKey fn vec)) true)) ∧
      exec (.msixUnmask fn vec) s =
        .next (((s.ao 11 4).upVec (vecKey fn vec) (fun v => { v with masked := false })).sendHeld (vecKey fn vec))) ∧
    (∀ v t, s.live = true → v = agetD s.call.vecs (vecKey fn vec) {} → v.modUs ≠ 0 → v.lastMsg = some t → t + v.modUs * 1000 ≤ s.now →
      v.pba = false → s.candidates (.vec (vecKey fn vec)) ≠ [] → s.vfQuiet fn = false →
      exec (.moderationExpiry fn vec) s = .next (s.withObs (fun u => u.sendMsg (vecKey fn vec))))

/-- The host port acts (R453 to R459, R462 to R464): function-level resets, VF Enable, BAR sizes, and the mailboxes of a VF. The class
0x0D commands of a served packet complete with their own effect (R460, R461, R464 to R473), and a freeze ends or gives up (R467). -/
def Obligations.HostEndpointActs : Prop :=
  (∀ (fn num v : Nat) (mgr : Bool) (a : Access) (s : State),
      (s.hostUp = true →
        (s.fnEnabled fn = true → s.inFlr fn = false → exec (.flr fn) s = .next ((s.flrFn fn).goOn s)) ∧
        (s.inFlr 0 = false →
          (s.host.vfEnable = false →
            exec (.vfEnableSet num) s =
              .next (s.upHost (fun h => { h with vfEnable := true, numVfs := num, vfs := (List.range' 1 num).map (fun v => (v, { st := 1 })) }))) ∧
          exec .vfEnableClear s = .next (s.vfsOff.goOn s) ∧
          (num ∈ [1, 2, 4, 8, 16, 32, 64] → exec (.barResize false num) s = .next (s.upGlb (fun g => { g with bar2Next := num }))) ∧
          (num ∈ [64, 128, 256, 512, 1024, 2048, 4096, 8192, 16384] →
            exec (.barResize true num) s = .next (s.upGlb (fun g => { g with vfBar2Next := num }))))) ∧
      (s.live = true → s.inFlr fn = true →
        exec (.flrComplete fn) s = .next (s.upHost (fun h => { h with flr := ldel h.flr fn, flrAt := adel h.flrAt fn }))) ∧
      (hostWrites a.fn s = true → a.wr = true → a.aligned = true → (aget s.host.vfs v).isSome = true → mgr = (a.fn == 0) →
        ∀ t, t = s.ao 11 a.size →
        (mboxAt a.fn a.off = some (v, mgr, 0) → a.size = 4 → exec (.mboxSeqWrite a) s = .next (t.mboxSeq v mgr (a.val % 2 ^ 32))) ∧
        (mboxAt a.fn a.off = some (v, mgr, 8) → exec (.mboxAckWrite a) s = .next (t.mboxAck v mgr (a.val % 2 ^ 32))))) ∧
  (∀ (fn qp v : Nat) (h : Hdr) (p data : Bytes) (c : Caller) (s : State), (0 < v → v = fld p 0 2 →
      (served opVfSetResources fn qp h p c s = true →
        ∀ b, b = begun opVfSetResources fn qp h s →
        b.vfState v = 1 → b.vfHolds v = false → 256 + b.quotaSum v (fld p 2 2) (·.qp) ≤ 2048 →
          4096 + b.quotaSum v (fld p 4 2) (·.nvmeQp) ≤ 65536 → b.quotaSum v (fld p 6 2) (·.streams) ≤ 16384 →
          bit (fld p 13 1) 0 = true → fld p 24 4 ≤ b.glb.vfBar2Mib → b.rangeFree v (fld p 16 8) (fld p 24 4) = true →
          exec (.vfSetResources h p) s =
            .next (answered opVfSetResources fn qp h s 0 ((b.upVf v (fun x =>
              { x with qp := fld p 2 2, nvmeQp := fld p 4 2, streams := fld p 6 2, rings := fld p 8 2, cueEvents := fld p 10 2,
                       programs := fld p 12 1, stagingOff := fld p 16 8, stagingMib := fld p 24 4 })).makeLive v))) ∧
      (served opVfGetResources fn qp h p c s = true →
        ∀ b, b = begun opVfGetResources fn qp h s →
        b.vfState v ≠ 0 →
          exec (.vfGetResources h p) s =
            .next (answered opVfGetResources fn qp h s (b.vfState v) (b.spent.hostWrite c.fn (fld p 8 8) (b.resourceRecord v)))) ∧
      (served opVfSetMbox fn qp h p c s = true →
        ∀ b, b = begun opVfSetMbox fn qp h s →
        b.vfState v ≠ 0 →
          exec (.vfSetMbox h p) s =
            .next (answered opVfSetMbox fn qp h s 0 (b.upVf v (fun x => { x with pfSrc := fld p 2 2, vfSrc := fld p 4 2 })))) ∧
      (served opVfTrack fn qp h p c s = true →
        ∀ b, b = begun opVfTrack fn qp h s →
        (fld p 2 1 = 0 → b.vfState v = 2 → b.trackedBut v < 8 →
          ∀ m, m = List.range (16 * (b.vf v).stagingMib) →
          exec (.vfTrackStart h p) s =
            .next (answered opVfTrack fn qp h s 0 (b.upVf v (fun y =>
              { y with tracking := true, everTracked := true, mapAddr := fld p 8 8, hostBase := fld p 16 8, hostLen := fld p 24 8,
                       dirty := m })))) ∧
        (fld p 2 1 = 1 → b.vfState v ≠ 0 → exec (.vfTrackSync h p) s = .next (answered opVfTrack fn qp h s 0 b)) ∧
        (fld p 2 1 = 2 → b.vfState v ≠ 0 →
          exec (.vfTrackStop h p) s = .next (answered opVfTrack fn qp h s 0 (b.upVf v (fun y => { y with tracking := false }))))) ∧
      (served opVfFreeze fn qp h p c s = true →
        ∀ b, b = begun opVfFreeze fn qp h s →
        b.vfState v = 2 → exec (.vfFreeze h p) s = .next (deferred opVfFreeze fn qp h p s wFreeze v (b.vfFreeze v (fld p 4 4)))) ∧
      (served opVfSave fn qp h p c s = true →
        ∀ b, b = begun opVfSave fn qp h s →
        (fld p 2 1 = 0 → b.vfState v = 4 → (b.vf v).tracking = true →
          ∀ l, l = ((b.vf v).dirty.mergeSort (fun a b => decide (a ≤ b))).take (fld p 16 8 / granuleLen) →
          ∀ t, t = (b.hostWrite c.fn (fld p 8 8) (l.flatMap (b.granule v))).upVf v (fun y =>
            { y with dirty := y.dirty.filter (fun g => !l.contains g) }) →
          exec (.vfSavePrecopy h p) s =
            .next (answeredBy opVfSave fn qp h s sOk (if (t.vf v).dirty.isEmpty then 0 else 1) (granuleLen * l.length) t)) ∧
        (fld p 2 1 = 1 → b.vfState v = 4 →
          ∀ t n, b.saveChunk c.fn v (fld p 8 8) (fld p 16 8) = (t, n, true) →
          exec (.vfSaveFinal h p) s = .next (answeredBy opVfSave fn qp h s sOk 1 n t))) ∧
      (served (opVfRestore data) fn qp h p c s = true →
        ∀ b, b = begun (opVfRestore data) fn qp h s →
        b.vfState v = 1 →
          ∀ st d t, (b.hostRead c.fn (fld p 8 8) (fld p 16 8)).restoreChunk v (fld p 2 1) (padTo (fld p 16 8) data) = (st, d, t) →
          exec (.vfRestore h p data) s = .next (answeredBy (opVfRestore data) fn qp h s st d 0 t)) ∧
      (served opVfResume fn qp h p c s = true →
        ∀ b, b = begun opVfResume fn qp h s →
        b.vfState v = 4 →
          exec (.vfResume h p) s =
            .next (answered opVfResume fn qp h s 0 ((b.upVf v (fun x =>
              { x with tracking := false, everTracked := false, dirty := [], saveHead := [], saveGran := [], saved := 0, saveCrc := 0,
                       restored := [] })).vfRelease v)))) ∧
      (served opVfSetMigKey fn qp h p c s = true →
        ∀ k, k = (if sub p 8 32 = zeros 32 then none else some (sub p 8 32)) →
        exec (.vfSetMigKey h p) s =
          .next (answered opVfSetMigKey fn qp h s 0 ((begun opVfSetMigKey fn qp h s).upCip (fun c => { c with migKey := k })))) ∧
      (s.live = true → s.vfState v = 3 →
        (s.vfQuiesced v = true →
          exec (.vfFrozen v) s =
            .next ((s.upVf v (fun x => { x with st := 4, freezeBy := none, frozenCue := s.cuePos, frozenTime := s.now })).finishAll
              (fun w => w.kind == wFreeze && w.aux == v) sOk 0 0)) ∧
        ((s.vf v).freezeBy.any (fun t => decide (t ≤ s.now)) = true →
          exec (.vfFreezeDrainLimit v) s = .next ((s.vfRelease v).finishAll (fun w => w.kind == wFreeze && w.aux == v) sBusy 0 0))))

/-- The power controller and the sensors act (R480 to R483, R525 to R532), and the two power opcodes complete (R529). The input, the rails
and the resets act as the power-up and power-down path has them (R541 to R557). -/
def Obligations.PowerAndPinsAct : Prop :=
  (∀ (fn qp n : Nat) (v : Int) (h : Hdr) (p : Bytes) (c : Caller) (s : State),
      (served opPwrSetCap fn qp h p c s = true →
        exec (.pwrSetCap h p) s =
          .next (answered opPwrSetCap fn qp h s 0 ((begun opPwrSetCap fn qp h s).upPwr (fun q => { q with mgrCap := fld p 0 2 })).iftCheck)) ∧
      (served opPwrSetConfig fn qp h p c s = true →
        ∀ b, b = begun opPwrSetConfig fn qp h s →
        exec (.pwrSetConfig h p) s = .next (deferred opPwrSetConfig fn qp h p s wStore b.sm.ticket (b.storeAdd 10 (sub p 0 16) 0x00))) ∧
      (s.aon.powered = true →
        (s.sensorThere n = true →
          exec (.sensorSample n (.value v)) s = .next ((s.hwSample n v).smTakes n) ∧
          exec (.sensorSample n .bad) s = .next ((s.hwFail n).smTakes n)) ∧
        (s.sm.running = true → s.aon.mainPhase ≠ .off → s.pwr.tickAt + 100000 ≤ s.smNow →
          ∀ cap : Int, cap = (s.effCap : Int) * 1000000 →
          ∀ t, t = s.showMean.upPwr (fun p =>
            { p with tickAt := s.smNow, lowSince := runSince p.lowSince (decide (s.mean1ms ≤ cap - 25000000)) s.smNow }) →
          t.pwr.emergency = false → cap < s.mean1ms → t.pwr.step < 6 →
          exec .powerControlTick s = .next (t.setStep (t.pwr.step + 1)).iftCheck) ∧
        (∀ t, s.sm.running = true → s.pwr.warmAt = some t → t + s.sm.cfg.thermStep * 1000000 ≤ s.smNow →
          exec .thermalCapStep s =
            .next (s.upPwr (fun p => { p with thermCap := max 350 (p.thermCap - 25), warmAt := some s.smNow })).iftCheck) ∧
        (s.aon.mainPhase = .ready →
          exec .eprNLow s = .next ((s.upAon (fun a => { a with eprN := false })).upPwr (fun p => { p with eprHighAt := none })).eprCheck) ∧
        (s.aon.eprN = false →
          exec .eprNHigh s = .next ((s.upAon (fun a => { a with eprN := true })).upPwr (fun p => { p with eprHighAt := some s.smNow }))) ∧
        (∀ t, s.pwr.eprHighAt = some t → s.pwr.epr = true → s.aon.eprN = true → t + s.sm.cfg.eprHold * 1000000 ≤ s.smNow →
          exec .eprHoldExpiry s = .next (s.causeEnd (fun p => { p with epr := false, eprHighAt := none }))))) ∧
  (∀ (straps : Straps) (addr : Nat) (s : State),
      (s.aon.powered = false →
        exec (.aonPowerUp straps) s =
          .next (((s.allFresh true).upAon (fun a =>
            { a with strapProv := straps.prov, strapRstScope := straps.rstScope, strapI3c := straps.i3c, strapTest := straps.test })).upSm
            (fun m => { m with prov := straps.prov }))) ∧
      exec .pwrEnHigh s = .next (s.upAon (fun a => { a with pwrEn := true })) ∧
      exec .hpPerstRelease s = .next (s.upAon (fun a => { a with hpPerstN := true })) ∧
      (s.live = true → s.aon.hpPerstN = true → s.aon.hostLink = false →
        exec .hostLinkUp s = .next (s.upAon (fun a => { a with hostLink := true, cfgReady := true }))) ∧
      (s.aon.powered = true →
        exec .aonPowerOff s = .next (s.allFresh false) ∧
        exec .inputOutOfRange s =
          .next ((s.upAon (fun a => { a with inputOk := false, inputRemoved := a.inputRemoved || a.mainPhase != .off })).railsOff 5) ∧
        (s.aon.inputOk = false → s.aon.inputRemoved = true → s.aon.pwrEn = true →
          exec .inputRestored s = .next (s.upAon (fun a => { a with inputOk := true, inputRemoved := false })).mainUp) ∧
        exec .pwrEnLow s = .next ((s.upAon (fun a => { a with pwrEn := false })).railsOff 4) ∧
        (s.step4Ok = true → s.aon.sysRstN = true → exec .mainPowerUp s = .next s.mainRelease) ∧
        (s.aon.mainPhase = .init → exec .mainDomainReady s = .next (s.upAon (fun a => { a with mainPhase := .ready }))) ∧
        (s.aon.sysRstN = true → s.aon.mainPhase = .ready →
          exec .sysRstAssert s =
            .next (((s.upAon (fun a => { a with sysRstN := false })).mainDown .reset 2).upAon (fun a => { a with resetHold := s.aon.resetHold }))) ∧
        (s.aon.mainPhase = .reset →
          (s.aon.resetHold = none → exec .sysRstRelease s = .next (s.upAon (fun a => { a with sysRstN := true })).mainRelease) ∧
          (∀ t, s.aon.resetHold = some t → t ≤ s.smNow → s.aon.sysRstN = true → exec .perstResetHoldExpiry s = .next s.mainRelease)) ∧
        (s.aon.hpPerstN = true → s.aon.mainPhase = .ready → s.aon.strapRstScope = true →
          exec .hpPerstAssert s =
            .next (((s.upAon (fun a => { a with hpPerstN := false, hostLink := false, cfgReady := false })).mainDown .reset 3).upAon (fun a =>
              { a with resetHold := some (s.smNow + 1000000) }))) ∧
        (s.aon.tableau = false → s.aon.mainPhase = .ready →
          exec .tableauNFall s = .next ((s.upAon (fun a =>
            { a with tableau := true, tabStopped := false, curTabCause := 3, curTabTrigger := 0, hostLink := false,
                     tabCount := satu 65535 (a.tabCount + 1), tabCause := 3, tabTrigger := 0 })).upNet
            (fun n => { n with ports := n.ports.map (fun e => (e.1, { e.2 with st := 0x11 })) }))) ∧
        (s.sm.running = false → s.sm.alertAt + 500000000 < s.smNow → exec .alertNAssert s = .next (s.upSm (fun m => { m with alertLate := true }))) ∧
        (s.sm.running = true → exec (.dynamicAddressAssigned addr) s = .next (s.upSm (fun m => { m with dynAddr := some addr })))))

/-- The observation opcodes complete with their own effect (R507 to R514, R521), and the Tableau is entered, stops and is read out (R515
to R518). -/
def Obligations.ObservationActs : Prop :=
  ∀ (fn qp space addr len : Nat) (req : Bytes) (h : Hdr) (p : Bytes) (c : Caller) (s : State),
    (served opObsSetSnapArea fn qp h p c s = true →
      ∀ a : SnapArea, a = { base := fld p 0 8, log2 := fld p 8 1 } →
      exec (.obsSetSnapArea h p) s =
        .next (answered opObsSetSnapArea fn qp h s 0 ((begun opObsSetSnapArea fn qp h s).upObs (fun o => { o with snaps := aset o.snaps c.fn a })))) ∧
    (served opObsSnapHead fn qp h p c s = true →
      ∀ b, b = begun opObsSnapHead fn qp h s →
      ∀ a k, aget b.obs.snaps c.fn = some a → k = (fld p 0 4 + 2 ^ a.log2 - a.head) % 2 ^ a.log2 → fld p 0 4 < 2 ^ a.log2 → k ≤ a.count →
        exec (.obsSnapHead h p) s =
          .next (answered opObsSnapHead fn qp h s 0 (b.upObs (fun o =>
            { o with snaps := aset o.snaps c.fn { a with head := fld p 0 4, count := a.count - k } })))) ∧
    (served opObsSetCounter fn qp h p c s = true → eventClass (fld p 2 2) = some (uClass (fld p 4 4)) →
      ∀ g : GCtr, g = { mode := fld p 1 1, event := fld p 2 2, unit := fld p 4 4, count := 0, thresh := fld p 8 8 } →
      exec (.obsSetCounter h p) s =
        .next (answered opObsSetCounter fn qp h s 0 ((begun opObsSetCounter fn qp h s).upObs (fun o => { o with gctr := aset o.gctr (fld p 0 1) g })))) ∧
    (served opObsTraceCfg fn qp h p c s = true →
      ∀ b, b = begun opObsTraceCfg fn qp h s →
      b.obs.st ≠ 1 → b.obs.st ≠ 2 →
        exec (.obsTraceCfg h p) s =
          .next (answered opObsTraceCfg fn qp h s 0 (b.upObs (fun o =>
            { o with mode := fld p 0 1, postPct := fld p 1 1, tabMode := fld p 2 1, filters := (List.range (fld p 3 1)).map (filterOf p),
                     trigs := (List.range (fld p 4 1)).map (trigOf p) })))) ∧
    (served opObsTraceStart fn qp h p c s = true →
      exec (.obsTraceStart h p) s =
        .next (answered opObsTraceStart fn qp h s 0 ((begun opObsTraceStart fn qp h s).upObs (fun o =>
          { o with recs := [], dropped := 0, st := 1, postLeft := 0 })))) ∧
    (served opObsTraceStop fn qp h p c s = true →
      exec (.obsTraceStop h p) s =
        .next (answered opObsTraceStop fn qp h s 0 ((begun opObsTraceStop fn qp h s).upObs (fun o => { o with st := 3 })))) ∧
    (served opObsTrigger fn qp h p c s = true →
      ∀ b, b = begun opObsTrigger fn qp h s →
      b.obs.st = 1 → exec (.obsTrigger h p) s = .next (answered opObsTrigger fn qp h s 0 b.triggerInput)) ∧
    (served opObsTraceRead fn qp h p c s = true →
      ∀ b, b = begun opObsTraceRead fn qp h s →
      ∀ l, b.obs.st = 3 → l = (b.obs.recs.drop (fld p 0 8)).take (fld p 8 4) → l ≠ [] →
        exec (.obsTraceRead h p) s = .next (answered opObsTraceRead fn qp h s l.length (b.hostWrite c.fn (fld p 16 8) l.flatten))) ∧
    (served opObsTableau fn qp h p c s = true →
      exec (.obsTableau h p) s =
        .next (deferred opObsTableau fn qp h p s wTableau 0 ((begun opObsTableau fn qp h s).enterTableau 2 0))) ∧
    (served opObsClearCounters fn qp h p c s = true →
      ∀ b, b = begun opObsClearCounters fn qp h s →
      ∀ r f, fld p 0 4 % 8 = 0 → fld p 0 4 < bar0Len 0 → b.reg 0 (fld p 0 4) = some r → r.clear = some f →
        exec (.obsClearCounters h p) s = .next (answered opObsClearCounters fn qp h s 0 (f b))) ∧
    (s.aon.powered = true →
      (s.aon.tableau = true → s.aon.tabStopped = false → s.sm.running = true →
        ∀ t, t = (s.upAon (fun a => { a with tabStopped := true })).record uDevice 0x0110 0 s.aon.curTabCause 0 .health →
        exec .tableauStopped s =
          .next ((t.cmd.waiting.filter (fun w => w.kind == wTableau && w.hdr.chan.isMgmt)).foldl (fun u w => u.finish w sOk 0 0 0) t)) ∧
      (s.aon.tableau = true → s.aon.tabStopped = true →
        exec (.jtagAccess space addr len) s =
          .next ((s.spent.upAon (fun a => { a with jtagOut := (s.scanBytes space addr len).map (fun x => x.toNat) })).emit .scan space addr len
            (s.scanBytes space addr len))) ∧
      (s.aon.tableau = true → s.sm.running = true → s.carriesOperator space = true → req.length = 16 → fld req 0 1 ≤ 5 →
        fld req 12 4 ≤ 1000 → exec (.mgmtScanRequest space req) s = .next (s.scanReply space req)))

/-- The SPDM responder answers a request that comes in its place (R492 to R494): each response begins with version 1.2 and its code, and
the connection takes its next state. The layout of the messages is DSP0274's (log entry 34). A message inside an SPDM session of the lane
or of I3C is answered (R493, R497): FINISH makes the session live, KEY_UPDATE counts, and END_SESSION ends it with the operator sessions
that it carried. -/
def Obligations.SpdmActs : Prop :=
  (∀ (m code ver need : Nat) (req : Bytes) (s : State), s.aon.powered = true → s.smHears m = true → 4 ≤ req.length → fld req 1 1 = code →
      fld req 0 1 = ver → need ≤ (s.conn m).st →
      (code = 0x84 → ver = 0x10 →
        exec (.getVersion m req) s =
          .next ((s.upConn m (fun _ => { st := 1, vca := req ++ [0x10, 0x04, 0, 0, 0, 1, 0, 0x12] })).smSend m 5 [0x10, 0x04, 0, 0, 0, 1, 0, 0x12])) ∧
      (ver = 0x12 →
        (code = 0xE1 → need = 1 →
          ∀ b, b = s.freeBytes 9 →
          ∀ r, r = [0x12, 0x61, 0, 0, 0] ++ sub b 0 1 ++ [0, 0] ++ leBytes 4 (spdmCaps m) ++ sub b 1 8 →
          exec (.getCapabilities m req) s =
            .next ((s.spent.upConn m (fun c => { c with st := max c.st 2, vca := c.vca ++ req ++ r })).smSend m 5 r)) ∧
        (code = 0xE3 → need = 2 →
          exec (.negotiateAlgorithms m req) s =
            .next ((s.upConn m (fun c => { c with st := 3, vca := c.vca ++ req ++ spdmAlgorithms m })).smSend m 5 (spdmAlgorithms m))) ∧
        (need = 3 →
          (code = 0x81 →
            ∀ r, r = [0x12, 0x01, 0, 1] ++ sha256 Config.certChain →
            exec (.getDigests m req) s = .next ((s.upConn m (fun c => { c with certs := c.certs ++ req ++ r })).smSend m 5 r)) ∧
          (code = 0x82 → fld req 2 1 = 0 → 8 ≤ req.length → fld req 4 2 ≤ Config.certChain.length →
            ∀ part, part = (Config.certChain.drop (fld req 4 2)).take (fld req 6 2) →
            ∀ r, r = [0x12, 0x02, 0, 0] ++ leBytes 2 part.length ++ leBytes 2 (Config.certChain.length - fld req 4 2 - part.length) ++ part →
            exec (.getCertificate m req) s = .next ((s.upConn m (fun c => { c with certs := c.certs ++ req ++ r })).smSend m 5 r)) ∧
          (code = 0x83 → fld req 2 1 = 0 → 36 ≤ req.length →
            ∀ r, r = [0x12, 0x03, 0, 1] ++ sha256 Config.certChain ++ s.freeBytes 32 ++ s.summary (fld req 3 1) ++ [0, 0] →
            exec (.challenge m req) s =
              .next ((s.spent.upConn m (fun c => { c with certs := [] })).smSend m 5
                (r ++ spdmSign "responder-challenge_auth signing" ((s.conn m).vca ++ (s.conn m).certs ++ req ++ r)))) ∧
          (code = 0xE0 → bit (fld req 2 1) 0 = true → 37 ≤ req.length → fld req 36 1 = 0 → fld req 3 1 = 0xFF →
            ∀ l, l = (List.range' 1 7).flatMap s.measureBlock →
            ∀ r, r = [0x12, 0x60, 0, 0] ++ leBytes 1 7 ++ leBytes 3 l.length ++ l ++ s.freeBytes 32 ++ [0, 0] →
            exec (.getMeasurements m req) s =
              .next (s.spent.smSend m 5 (r ++ spdmSign "responder-measurements signing" ((s.conn m).vca ++ req ++ r)))) ∧
          (code = 0xE4 → m ≠ 0 → s.sm.sess.length < 4 → 104 ≤ req.length → fld req 3 1 = 0 →
            ∀ b, b = s.freeBytes 128 →
            ∀ r, r = [0x12, 0x64, 0, 0] ++ leBytes 2 s.freeSess ++ [0, 0] ++ sub b 0 96 ++ s.summary (fld req 2 1) ++ [0, 0] →
            ∀ g, g = spdmSign "responder-key_exchange_rsp signing" ((s.conn m).vca ++ sha256 Config.certChain ++ req ++ r) →
            exec (.keyExchange m req) s =
              .next ((s.spent.upSm (fun x => { x with sess := x.sess ++ [{ id := s.freeSess, medium := m }] })).smSend m 5
                (r ++ g ++ sub b 96 32)))))) ∧
  (∀ (m sess code : Nat) (live : Bool) (req : Bytes) (s : State), s.aon.powered = true → s.smHears m = true → m ≠ 0 →
      s.sm.sess.any (fun x => x.id == sess && x.medium == m && x.live == live) = true → 4 ≤ req.length → fld req 1 1 = code →
      fld req 0 1 = 0x12 →
      (code = 0xE5 → live = false → Config.spdmFinishOk sess req = true →
        exec (.finish m sess req) s =
          .next ((s.upSm (fun x => { x with sess := lupd x.sess (fun y => y.id == sess) (fun y => { y with live := true }) })).smSend m 6
            [0x12, 0x65, 0, 0])) ∧
      (code = 0xE9 → live = true → fld req 2 1 = 1 →
        exec (.keyUpdate m sess req) s =
          .next ((s.upSm (fun x => { x with sess := lupd x.sess (fun y => y.id == sess) (fun y => { y with updates := y.updates + 1 }) })).smSend m 6
            [0x12, 0x69, 1, BitVec.ofNat 8 (fld req 3 1)])) ∧
      (code = 0xEC → live = true →
        exec (.endSession m sess req) s = .next (((s.smSend m 6 [0x12, 0x6C, 0, 0]).spdmEnd sess).goOn s)))

/-- The management network is answered while the stage manager runs (R495, R496, R498 to R501): MCTP control, the PLDM types, the receiver
of health records, and the update of the stage manager's firmware. The layout of the messages is the DMTF's (log entry 34). -/
def Obligations.ManagementNetworkAnswered : Prop :=
  ∀ (m sess : Nat) (req : Bytes) (s : State), s.aon.powered = true → s.sm.running = true → m ≠ 0 →
    (2 ≤ req.length → fld req 1 1 = 2 →
      exec (.mctpControl m req) s =
        .next (s.smSend m 0 ([BitVec.ofNat 8 (fld req 0 1 % 32), 2] ++ [0, BitVec.ofNat 8 (s.eid m), 0, 0]))) ∧
    (3 ≤ req.length →
      (fld req 2 1 = 2 → exec (.pldmBase m req) s = .next (s.pldmRsp m 1 req 0 [BitVec.ofNat 8 s.sm.tid])) ∧
      (fld req 2 1 = 0x11 → fld req 3 2 ≤ 95 →
        ∀ n st, n = fld req 3 2 → st = s.sensorStatus n →
        exec (.pldmPlatform m req) s =
          .next (s.pldmRsp m 1 req 0 ([5, BitVec.ofNat 8 (s.pldmOpState n), 0, BitVec.ofNat 8 (if st < 3 then st + 1 else 0), 0, 0] ++
            leBytes 4 (unsigned 32 (agetD s.sm.sensors n {}).val)))) ∧
      (fld req 2 1 = 2 → exec (.pldmFru m req) s = .next (s.pldmRsp m 1 req 0 ([0, 0, 0, 0, 5] ++ s.fruTable))) ∧
      (s.updateOk sess = true → fld req 2 1 = 0x14 → fld req 5 2 = 1 → fld req 12 4 ≤ 16777216 → s.sm.actReq = none →
        ∀ n, n = fld req 12 4 →
        exec (.pldmFirmwareUpdate m sess req) s =
          .next ((((s.putFwBank s.idleBank []).upSm (fun x => { x with update := some (n, []), verified := false })).pldmRsp m 6 req 0
            ([0, 0] ++ zeros 6)).askImage m n 0))) ∧
    (0 < sess →
      exec (.setEventReceiver m sess) s =
        .next ((s.upSm (fun x => { x with receiver := some (m, sess) })).smSend m 1 [0, 2, 4, 0])) ∧
    (∀ x l, s.sm.unacked = x :: l →
      exec (.healthResendTimer true) s = .next (s.upSm (fun y => { y with unacked := l })) ∧
      (∀ r, x.at_ + 500000000 ≤ s.smNow → x.sends < 3 → s.sm.receiver = some r →
        exec (.healthResendTimer false) s =
          .next ((s.upSm (fun y => { y with unacked := l ++ [{ x with at_ := s.smNow, sends := x.sends + 1 }] })).emit .mctp r.1 1 r.2
            (healthMsg x.rec_)))) ∧
    (s.updateOk sess = true → s.sm.verified = true → s.aon.tableau = false → s.sm.actReq = none → s.sm.trial = false → s.sm.recovery = false →
      exec (.activateFirmware m sess req) s =
        .next ((s.upSm (fun x => { x with actReq := some s.smNow })).pldmRsp m 6 req 0 [60, 0]))

/-- The register instructions complete on operands of the tags that Tables 15.2 and 15.4 list: the destination takes the value with its
tag, and the core goes on (R413 to R416, R421). -/
def Obligations.OnbusynRegisterInstructionsComplete : Prop :=
  ∀ (core rd ra rb k imm amount : Nat) (s : State) (c : OnbCore) (a b : LWord), onbAt core s = true → c = s.core core →
    a = c.reg ra → b = c.reg rb →
    (∀ t, addTag a.tag b.tag = some t → exec (.add core rd ra rb) s = .next (onbPut core rd { val := a.val + b.val, tag := t } s)) ∧
    (∀ t, subTag a.tag b.tag = some t →
      exec (.sub core rd ra rb) s =
        .next (onbPut core rd { val := if a.tag = tCue then phase a.val - phase b.val else a.val - b.val, tag := t } s)) ∧
    (a.tag = tInt → b.tag = tInt →
      exec (.andR core rd ra rb) s = .next (onbPut core rd (intW (a.val &&& b.val)) s) ∧
      exec (.orR core rd ra rb) s = .next (onbPut core rd (intW (a.val ||| b.val)) s) ∧
      exec (.xorR core rd ra rb) s = .next (onbPut core rd (intW (a.val ^^^ b.val)) s) ∧
      exec (.shl core rd ra rb) s = .next (onbPut core rd (intW (a.val <<< (b.val.toNat % 64))) s) ∧
      exec (.shr core rd ra rb) s = .next (onbPut core rd (intW (a.val >>> (b.val.toNat % 64))) s) ∧
      exec (.sar core rd ra rb) s = .next (onbPut core rd (intW (a.val.sshiftRight (b.val.toNat % 64))) s) ∧
      exec (.mul core rd ra rb) s = .next (onbPut core rd (intW (a.val * b.val)) s) ∧
      exec (.mulhu core rd ra rb) s = .next (onbPut core rd (intW (BitVec.ofNat 64 (a.val.toNat * b.val.toNat / 2 ^ 64))) s) ∧
      (b.val ≠ 0 →
        exec (.divu core rd ra rb) s = .next (onbPut core rd (intW (a.val / b.val)) s) ∧
        exec (.remu core rd ra rb) s = .next (onbPut core rd (intW (a.val % b.val)) s)) ∧
      exec (.minu core rd ra rb) s = .next (onbPut core rd (intW (if a.val ≤ b.val then a.val else b.val)) s) ∧
      exec (.maxu core rd ra rb) s = .next (onbPut core rd (intW (if a.val ≤ b.val then b.val else a.val)) s) ∧
      exec (.sltu core rd ra rb) s = .next (onbPut core rd (intW (if a.val < b.val then 1 else 0)) s)) ∧
    (a.tag = tInt ∨ a.tag = tPtr ∨ a.tag = tTime →
      exec (.addi core rd ra imm) s = .next (onbPut core rd { val := a.val + sext 16 imm, tag := a.tag } s)) ∧
    (a.tag = tInt →
      exec (.andi core rd ra imm) s = .next (onbPut core rd (intW (a.val &&& BitVec.ofNat 64 imm)) s) ∧
      exec (.ori core rd ra imm) s = .next (onbPut core rd (intW (a.val ||| BitVec.ofNat 64 imm)) s) ∧
      exec (.xori core rd ra imm) s = .next (onbPut core rd (intW (a.val ^^^ BitVec.ofNat 64 imm)) s) ∧
      exec (.shiftiShl core rd ra amount) s = .next (onbPut core rd (intW (a.val <<< (amount % 64))) s) ∧
      exec (.shiftiShr core rd ra amount) s = .next (onbPut core rd (intW (a.val >>> (amount % 64))) s) ∧
      exec (.shiftiSar core rd ra amount) s = .next (onbPut core rd (intW (a.val.sshiftRight (amount % 64))) s)) ∧
    (srcOk a = true → exec (.movR core rd ra) s = .next (onbPut core rd a s)) ∧
    exec (.movz core rd k imm) s = .next (onbPut core rd (intW (BitVec.ofNat 64 (imm % 65536 * 2 ^ (16 * (k % 4))))) s) ∧
    ((c.reg rd).tag = tInt →
      ∀ m : BitVec 64, m = BitVec.ofNat 64 (65535 * 2 ^ (16 * (k % 4))) →
      exec (.movk core rd k imm) s =
        .next (onbPut core rd (intW (((c.reg rd).val &&& ~~~m) ||| BitVec.ofNat 64 (imm % 65536 * 2 ^ (16 * (k % 4))))) s)) ∧
    exec (.adr core rd imm) s = .next (onbPut core rd (codeW (c.rel 16 imm)) s) ∧
    exec (.tagR core rd ra) s = .next (onbPut core rd (intW (a.tag.setWidth 64)) s) ∧
    (imm < 7 → (c.priv = true → imm = 0) → srcOk a = true →
      exec (.retag core rd ra imm) s = .next (onbPut core rd { val := a.val, tag := BitVec.ofNat 4 imm } s))

/-- Loads and stores complete on an aligned address that the core may reach, through a PTR base: a 64-bit access moves the tag with the
data, a narrower one gives INT (R417, R418). The stage manager's register range reads a free value, since the spec does not lay its
registers out (log entry 3). -/
def Obligations.OnbusynLoadsAndStoresComplete : Prop :=
  ∀ (core rd rs ra imm : Nat) (s : State) (c : OnbCore), onbAt core s = true → c = s.core core →
    ∀ a, a = c.ea ra imm →
    (accessOk core ra imm 8 c = true →
      (smRegRange core a = false →
        ((c.word a).tag ≠ tUninit → exec (.ld64 core rd ra imm) s = .next (onbPut core rd (c.word a) s)) ∧
        (srcOk (c.reg rs) = true → exec (.st64 core rs ra imm) s = .next (onbNext core (fun x => x.setWord a (c.reg rs)) s))) ∧
      (smRegRange core a = true →
        exec (.ld64 core rd ra imm) s = .next (onbPut core rd (intW (BitVec.ofNat 64 (s.freeNat (2 ^ 64)))) s.spent))) ∧
    (accessOk core ra imm 4 c = true →
      exec (.ld32u core rd ra imm) s = .next (onbPut core rd (intW (BitVec.ofNat 64 ((c.word a).part a 4))) s) ∧
      (srcOk (c.reg rs) = true →
        exec (.st32 core rs ra imm) s =
          .next (onbNext core (fun x => x.setWord a ((c.word a).setPart a 4 (c.reg rs).val.toNat)) s))) ∧
    (accessOk core ra imm 2 c = true →
      exec (.ld16u core rd ra imm) s = .next (onbPut core rd (intW (BitVec.ofNat 64 ((c.word a).part a 2))) s) ∧
      (srcOk (c.reg rs) = true →
        exec (.st16 core rs ra imm) s =
          .next (onbNext core (fun x => x.setWord a ((c.word a).setPart a 2 (c.reg rs).val.toNat)) s))) ∧
    (accessOk core ra imm 1 c = true →
      exec (.ld8u core rd ra imm) s = .next (onbPut core rd (intW (BitVec.ofNat 64 ((c.word a).part a 1))) s) ∧
      (srcOk (c.reg rs) = true →
        exec (.st8 core rs ra imm) s =
          .next (onbNext core (fun x => x.setWord a ((c.word a).setPart a 1 (c.reg rs).val.toNat)) s)))

/-- Branches, jumps, loops, CSR accesses, the return from a trap and waits complete with their effect (R421 to R425, R430, R431, R433,
R434), and TRAP takes the trap BREAK that is its effect. -/
def Obligations.OnbusynControlInstructionsComplete : Prop :=
  ∀ (core rd rs ra imm level fin cls til : Nat) (s : State) (c : OnbCore) (a b : LWord), c = s.core core → a = c.reg rs → b = c.reg ra →
    (onbAt core s = true →
      (a.tag = b.tag → srcOk a = true →
        exec (.beq core rs ra imm) s =
          .next (if a.val = b.val then s.upCore core (fun x => x.jump (c.rel 16 imm)) else onbNext core id s) ∧
        exec (.bne core rs ra imm) s =
          .next (if a.val = b.val then onbNext core id s else s.upCore core (fun x => x.jump (c.rel 16 imm)))) ∧
      (a.tag = tInt → b.tag = tInt →
        exec (.blt core rs ra imm) s =
          .next (if a.val.slt b.val = true then s.upCore core (fun x => x.jump (c.rel 16 imm)) else onbNext core id s) ∧
        exec (.bge core rs ra imm) s =
          .next (if a.val.slt b.val = true then onbNext core id s else s.upCore core (fun x => x.jump (c.rel 16 imm)))) ∧
      (ordTags a.tag b.tag = true →
        exec (.bltu core rs ra imm) s =
          .next (if ordLt a b = true then s.upCore core (fun x => x.jump (c.rel 16 imm)) else onbNext core id s) ∧
        exec (.bgeu core rs ra imm) s =
          .next (if ordLt a b = true then onbNext core id s else s.upCore core (fun x => x.jump (c.rel 16 imm)))) ∧
      exec (.jal core imm) s = .next (s.upCore core (fun x => (x.setReg 31 (codeW c.after)).jump (c.rel 26 imm))) ∧
      (b.tag = tCode → exec (.jr core rd ra) s = .next (s.upCore core (fun x => (x.setReg rd (codeW c.after)).jump b.val))) ∧
      (c.loopFaults core level fin = false →
        (b.tag = tInt → b.val.toNat < 2 ^ 32 →
          exec (.loop core level ra fin) s = .next (s.upCore core (fun x => x.loopArm level fin b.val.toNat))) ∧
        exec (.loopi core level imm fin) s = .next (s.upCore core (fun x => x.loopArm level fin imm))) ∧
      (csrListed imm = true → (c.priv = true → csrModule imm = true) →
        (imm ≠ 8 → exec (.csrr core rd imm) s = .next (onbPut core rd (s.csrGet core imm) s)) ∧
        (¬ (9 ≤ imm ∧ imm ≤ 12) → srcOk a = true → (c.lv (csrLevel imm)).active = false →
          exec (.csrw core rs imm) s = .next (onbNext core id (s.csrPut core imm a.val)))) ∧
      (c.wouldDouble = false →
        exec (.trap core imm) s =
          .next (s.spent.upCore core (fun x =>
            x.trapEntry (0xC + 256 * (imm % 256)) (BitVec.ofNat 64 (s.freeNat (2 ^ 64))) (c.pc + 4) s.now))) ∧
      (c.priv = false → ¬ (core = smCore ∧ c.ppriv = true) →
        exec (.tret core cls) s =
          .next (s.upCore core (fun x =>
            { x with
              priv := c.ppriv, inTrap := false, pc := c.tpc
              loops := c.loops.zipIdx.map (fun e => { e.1 with active := bit c.tloop e.2 })
              modAt := if c.ppriv = true then s.now else c.modAt
              cls := if c.ppriv = true then cls else c.cls }))) ∧
      (b.tag = tInt →
        exec (.wait core rd ra) s = .next (s.upCore core (fun x => { x with waiting := some (rd, s.now + b.val.toNat) })))) ∧
    (s.coreRuns core = true →
      (c.waiting = some (rd, til) →
        (s.handSource core = true →
          exec (.waitReturn core) s = .next (onbNext core (fun x => { x with waiting := none }.setReg rd (intW 1)) s)) ∧
        (s.handSource core = false → til ≤ s.now →
          exec (.waitReturn core) s = .next (onbNext core (fun x => { x with waiting := none }.setReg rd (intW 0)) s))) ∧
      (c.waiting = none → c.priv = true → c.modAt + c.mbudget ≤ s.now → c.wouldDouble = false →
        exec (.moduleBudgetExpiry core) s =
          .next (s.spent.upCore core (fun x => x.trapEntry 0xD (BitVec.ofNat 64 (s.freeNat (2 ^ 64))) c.pc s.now))))

/-- The coprocessor instructions complete on operands of the right tags within the core's reach, where the coprocessor may be used (R426 to
R429, R437, R444, R445, R311); one that uses GDDR7 waits at the pc while a channel leaves the interleave (R350). The contents of a context
that nothing has written, and the result of a digest that no INIT began, are free values (log entry 3). -/
def Obligations.OnbusynCoprocessorsComplete : Prop :=
  ∀ (core rd ra rb err : Nat) (host : Bytes) (s : State) (c : OnbCore) (a b : LWord), onbAt core s = true → c = s.core core →
    a = c.reg ra → b = c.reg rb → ∀ x y, x = a.val.toNat → y = b.val.toNat →
    (cpOk core 0 c = true →
      exec (.sha256Init core) s = .next (onbNext core (fun z => { z with sha := [], shaOn := true }) s) ∧
      (b.tag = tInt → localOk core y a c = true →
        exec (.sha256Upd core ra rb) s = .next (onbNext core (fun z => { z with sha := c.sha ++ c.bytes x y }) s)) ∧
      (localOk core 32 a c = true →
        (c.shaOn = true →
          exec (.sha256Fin core ra) s =
            .next (onbNext core (fun z => { z with sha := [], shaOn := false }.putBytes x (sha256 c.sha)) s)) ∧
        (c.shaOn = false →
          exec (.sha256Fin core ra) s =
            .next (onbNext core (fun z => { z with sha := [], shaOn := false }.putBytes x (s.freeBytes 32)) s.spent)))) ∧
    (cpOk core 1 c = true → (c.reg rd).tag = tInt → b.tag = tInt → localOk core y a c = true →
      exec (.crc32c core rd ra rb) s = .next (onbPut core rd (natW (crc32cFrom ((c.reg rd).val.toNat % 2 ^ 32) (c.bytes x y))) s) ∧
      exec (.crc64 core rd ra rb) s = .next (onbPut core rd (natW (crc64From (c.reg rd).val.toNat (c.bytes x y))) s)) ∧
    (s.memHeld = false → cpOk core 2 c = true → b.tag = tInt → (c.priv = true → y = 48 + c.cls) → y < 64 →
      ∀ d, d = s.walkDesc y → walkOk s d = true → localOk core (fld d 9 1) a c = true →
      ∀ key, key = c.bytes x (fld d 9 1) →
      ∀ r, r = s.walkProbe d key (fld d 12 1) (crc32cFrom (fld d 16 4) key) →
        (∀ i, r = some i → exec (.walk core rd ra rb) s = .next (onbPut core rd (natW i) s)) ∧
        (r = none → exec (.walk core rd ra rb) s = .next (onbPut core rd (intW (BitVec.allOnes 64)) s))) ∧
    (cpOk core 3 c = true → a.tag = tInt → x < ctxCount →
      (s.memHeld = false → localOk core 256 b c = true → y % 8 = 0 →
        (∀ tag, tag = (if s.ctx.bad.contains x = true then tPoison else tInt) →
          ∀ d, d = s.ctxBytes x →
          ∀ u, u = (if ahas s.ctx.data x = true then s else s.spent.upCtx (fun z => { z with data := aset z.data x d })).ctxUse x →
          exec (.ctxRd core ra rb) s =
            .next (onbNext core (fun z => (List.range 32).foldl
              (fun w i => w.setWord (y + 8 * i) { val := BitVec.ofNat 64 (fld d (8 * i) 8), tag := tag }) z) u)) ∧
        exec (.ctxWr core ra rb) s =
          .next (onbNext core id ((s.upCtx (fun z =>
            { z with data := aset z.data x (c.bytes y 256),
                     bad := if (c.poisonAt y 256).isSome = true then ladd z.bad x else ldel z.bad x })).ctxUse x))) ∧
      (s.ctx.pinned.length < 16384 →
        exec (.ctxPin core ra) s = .next (onbNext core id (s.upCtx (fun z => { z with pinned := ladd z.pinned x })))) ∧
      exec (.ctxUnpin core ra) s = .next (onbNext core id (s.upCtx (fun z => { z with pinned := ldel z.pinned x })))) ∧
    (s.memHeld = true →
      exec (.walk core rd ra rb) s = .next s ∧ exec (.ctxRd core ra rb) s = .next s ∧ exec (.ctxWr core ra rb) s = .next s ∧
        (s.dmaUses core ra = true → exec (.dmaCopy core rd ra host err) s = .next s)) ∧
    (cpOk core 4 c = true →
      (a.tag = tInt → 320 ≤ x → x < 4096 → exec (.cbRaise core ra) s = .next (onbNext core id (s.raise x))) ∧
      (∀ n t, s.take (.hand core) = (some n, t) → exec (.cbPend core rd) s = .next (onbPut core rd (natW n) t)) ∧
      (∀ t, s.take (.hand core) = (none, t) → exec (.cbPend core rd) s = .next (onbPut core rd (intW (BitVec.allOnes 64)) t)) ∧
      (a.tag = tInt → s.handTop core x = true → exec (.cbDone core ra) s = .next (onbNext core id (s.popStack (.hand core))))) ∧
    (cpOk core 5 c = true → a.tag = tInt → x < latchCount →
      exec (.ltRead core rd ra) s = .next (onbPut core rd (natW (s.cell x).val) s) ∧
      (b.tag = tInt →
        exec (.ltAdd core ra rb) s = .next (onbNext core id (s.latchAdd x y false)) ∧
        ((s.cell x).bound = none → (s.cell x).guard = none →
          exec (.ltThresh core ra rb) s = .next (onbNext core id (s.latchThresh x y))))) ∧
    (cpOk core 6 c = true → localOk core 32 a c = true →
      ∀ d, d = c.dmaDesc x →
      ((s.memHeld = false ∨ (d.srcSpace < 2 ∧ d.dstSpace < 2)) → s.dmaCauses c core d = [] → d.meets err = false → (d.srcSpace = 0 → c.poisonAt d.src d.len = none) →
        exec (.dmaCopy core rd ra host err) s =
          .next (onbPut core rd (natW d.len) ((s.dmaFetch d d.len).dmaWrite core d (s.dmaRead c d host d.len)))) ∧
      (c.priv = false → 0 < d.len → d.len ≤ 1048576 →
        exec (.dmaWin core rd ra) s =
          .next (onbNext core (fun z =>
            { z with windows := z.windows.filter (fun w => w.1 != rd % 4) ++ [(rd % 4, d.srcSpace, d.fn, d.src, d.len)] }) s)))

/-- Frames of the command interface, intermissions, register writes and the cue: what each command leaves differs from the state before it
in the listed pieces at most, so every register, buffer and counter of every other piece is as it was, and the queue is. A packet that the
head forwards stores its parameters in GDDR7, so every packet row lists that piece. -/
def Obligations.CommandAndTimeFrames : Prop :=
  ∀ (a : Access) (h : Hdr) (p frame2 entry params data packet : Bytes) (frame ticks hostNs fn qp val scope member fwd sess : Nat)
    (tail : TailWrite) (codeOk readOk : Bool),
    (∀ f ∈ [exec (.setPartitions h p), exec (.nop h p), exec (.openSession h p), exec (.createQueuePair h p),
        exec (.deleteQueuePair h p), exec (.intermissionBegin h p), exec (.getState h p), exec (.troupeMemberReply member entry),
        exec (.troupeTimeout fwd)], changesOnly f (replies ++ ([.gddr] : List Piece))) ∧
    (∀ f ∈ [exec .cueFrameEmit, exec .pathDelayEcho, exec (.cueInterpolate ticks)],
      changesOnly f (signals ++ ([.free, .cue, .ctx] : List Piece))) ∧
    (∀ f ∈ [exec (.abort h p), exec (.sqTailWrite fn qp tail)], changesOnly f (replies ++ ([.gddr, .stg, .onb] : List Piece))) ∧
    (∀ f ∈ [exec (.cqHeadWrite fn qp val), exec (.cmdCtrlEnSet fn)], changesOnly f (signals ++ ([.cmd, .host] : List Piece))) ∧
    (∀ f ∈ [exec (.closeSession h p), exec (.drainLimitExpiry scope)],
      changesOnly f (replies ++ ([.gddr, .hed, .cip, .shu, .tap, .tapc, .loom, .ras, .flash] : List Piece))) ∧
    (∀ f ∈ [exec (.positionFrame frame codeOk), exec (.ethCueFrame frame2)],
      changesOnly f (replies ++ ([.gddr, .cue, .sto, .loom, .feed, .lat, .ras, .ckp, .flash] : List Piece))) ∧
    (∀ f ∈ [exec (.epochFrame frame codeOk), exec .cueHoldoverTimeout],
      changesOnly f (replies ++ ([.cue, .feed, .lat, .ckp] : List Piece))) ∧
    (∀ f ∈ [exec (.cueEventSet h p), exec (.cueEventClear h p)],
      changesOnly f (replies ++ ([.gddr, .cue, .feed, .lat, .ckp] : List Piece))) ∧
    (∀ f ∈ [exec (.intermissionEnd h p), exec (.intermissionAtReached scope)], changesOnly f (allBut [.stg, .onb, .pwr])) ∧
    (∀ f ∈ [exec (.forwardedCommand member entry params readOk data), exec (.mgmtCommand sess packet data)], changesOnly f everyPart) ∧
    changesOnly (exec (.cmdCtrlEnClear fn)) (allBut [.glb, .cue, .sto, .feed, .lat, .ckp, .pwr]) ∧
    changesOnly (exec (.registerWrite a)) (allBut [.gddr, .tapc, .onb, .flash, .sm, .pwr]) ∧
    changesOnly (exec (.bar2Access a)) [.out, .gddr, .glb, .ras, .host, .obs] ∧
    changesOnly (exec (.setCueSource h p)) (replies ++ ([.gddr, .cue, .feed, .lat, .ckp] : List Piece)) ∧
    changesOnly (exec (.cueSwPosWrite a)) (replies ++ ([.gddr, .glb, .cue, .sto, .loom, .feed, .lat, .ras, .ckp, .flash] : List Piece)) ∧
    changesOnly (exec .cueHoldExpiry) (replies ++ ([.cue, .feed, .lat, .ras, .ckp, .flash] : List Piece)) ∧
    changesOnly (exec .echoReadResponse) [.cue, .net] ∧
    changesOnly (exec .cueEventFire) (replies ++ ([.gddr, .cue, .sto, .loom, .feed, .lat, .ckp] : List Piece)) ∧
    changesOnly (exec (.ptmExchange hostNs)) [.aon] ∧
    changesOnly (exec (.setRoleKey h p)) (replies ++ ([.gddr, .flash] : List Piece)) ∧
    changesOnly (exec (.intermissionDrained scope)) (replies ++ ([.gddr, .shu, .tap, .tapc, .ras, .flash] : List Piece)) ∧
    changesOnly (exec (.lockoutExpiry fn)) [.cmd]

/-- Frames of storage, the network, the Heddle and the ciphers: what each command leaves differs from the state before it in the listed
pieces at most, so every register, buffer and counter of every other piece is as it was, and the queue is. A packet that the head forwards
stores its parameters in GDDR7, so every packet row lists that piece. -/
def Obligations.StorageAndNetworkFrames : Prop :=
  ∀ (fn cc qid val cid status target port corrected uncorr unit qpn path member ctx page lane : Nat) (n : NvmeCmd) (bell : NvmeBell)
    (data p frame src req rep : Bytes) (h : Hdr) (own answered agree : Bool) (pkt : RdmaPkt),
    (∀ f ∈ [exec (.getNsStatus h p), exec (.setPortMode h p), exec (.getPortStatus h p), exec (.queryQp h p),
        exec (.setEventQueue h p), exec (.registerRegion h p), exec (.deregisterRegion h p), exec (.createQp h p),
        exec (.destroyQp h p), exec (.troupeRemoveMember h p), exec (.setContextReserve h p), exec (.troupeAddMember h p)],
      changesOnly f (replies ++ ([.gddr] : List Piece))) ∧
    (∀ f ∈ [exec (.createIoSq n), exec (.deleteIoCq n), exec (.createIoCq n), exec (.asyncEventRequest n), exec (.flush n),
        exec (.read n), exec (.getLogPage n), exec (.identify n), exec (.getFeatures n), exec (.nvmeSqDoorbell fn qid bell),
        exec (.setFeatures n)], changesOnly f (signals ++ ([.free, .sto, .ctx, .host] : List Piece))) ∧
    (∀ f ∈ [exec (.nvmeShutdown fn cc), exec (.nvmeAbort n), exec (.write n), exec (.writeZeroes n), exec (.datasetManagement n),
        exec .writeBufferAdmit, exec (.remoteReadComplete cid data), exec (.remoteCommandFail cid status), exec (.deleteIoSq n),
        exec (.nvmeCcDisable fn cc)], changesOnly f (replies ++ ([.sto, .cip] : List Piece))) ∧
    (∀ f ∈ [exec (.linkDown port), exec (.ackReceived pkt), exec (.qpAckTimeout qpn), exec (.recoveryAttemptTimeout qpn),
        exec (.pathDown qpn path)], changesOnly f (replies ++ ([.gddr, .cue, .sto, .loom, .feed, .ras, .flash] : List Piece))) ∧
    (∀ f ∈ [exec (.attachNamespace h p data), exec (.setNsMode h p), exec (.setWbQuota h p), exec (.connectTarget h p),
        exec (.disconnectTarget h p)], changesOnly f (replies ++ ([.gddr, .sto] : List Piece))) ∧
    (∀ f ∈ [exec (.hedSetTable h p), exec (.hedAddEntry h p), exec (.hedDelEntry h p), exec (.hedLoadGraph h p),
        exec (.setPacketRing h p)], changesOnly f (replies ++ ([.gddr, .hed] : List Piece))) ∧
    (∀ f ∈ [exec (.cipAssignPages h p), exec (.cipLoadKey h p), exec (.cipClearPage h p), exec (.cipCrypt h p)],
      changesOnly f (replies ++ ([.gddr, .cip] : List Piece))) ∧
    (∀ f ∈ [exec (.sprayAckTimer qpn), exec (.recoverSendTimer qpn), exec (.qpRecoveryStart qpn), exec (.recoveryRetry qpn)],
      changesOnly f (signals ++ ([.free, .ctx] : List Piece))) ∧
    (∀ f ∈ [exec (.linkUp port), exec (.fecDegrade port corrected), exec (.pathProbe qpn path answered)],
      changesOnly f (signals ++ ([.host] : List Piece))) ∧
    (∀ f ∈ [exec (.rejReceived member), exec (.netPeerUnreachable member), exec (.cmRepReceived member rep)], changesOnly f replies) ∧
    (∀ f ∈ [exec .wbDrainStart, exec (.wbDrainComplete cid status)],
      changesOnly f (replies ++ ([.sto, .cip, .ras, .flash] : List Piece))) ∧
    (∀ f ∈ [exec (.detachNamespace h p), exec (.discardDirty h p)], changesOnly f (replies ++ ([.gddr, .sto, .cip] : List Piece))) ∧
    (∀ f ∈ [exec (.frameReceived port frame own uncorr), exec (.frameRecirculate unit)],
      changesOnly f (records ++ ([.gddr, .hed, .ctx, .cip, .shu] : List Piece))) ∧
    (∀ f ∈ [exec (.cipherUnitDone unit agree), exec (.espLaneTimeout page)],
      changesOnly f (replies ++ ([.gddr, .sto, .hed, .cip, .ras, .flash] : List Piece))) ∧
    (∀ f ∈ [exec (.targetAssociated target), exec (.stoTargetUnreachable target)], changesOnly f (replies ++ ([.sto] : List Piece))) ∧
    (∀ f ∈ [exec (.rdmaWriteReceived pkt), exec (.rdmaReadRequest pkt)],
      changesOnly f (replies ++ ([.gddr, .cue, .sto, .loom, .feed, .lat, .ras, .ckp, .flash] : List Piece))) ∧
    changesOnly (exec (.rdmaReadResponse pkt)) (replies ++ ([.cue, .sto, .loom, .feed, .ras] : List Piece)) ∧
    changesOnly (exec (.recoverReceived pkt)) (replies ++ ([.cue, .sto, .loom, .feed] : List Piece)) ∧
    changesOnly (exec (.nvmeCqDoorbell fn qid val)) (signals ++ ([.sto, .host] : List Piece)) ∧
    changesOnly (exec (.nvmeCcEnable fn cc)) [.out, .sto, .host, .obs] ∧
    changesOnly (exec (.cnpReceived qpn)) [.net] ∧
    changesOnly (exec (.netEvqHeadWrite val)) [.out, .net, .host, .obs] ∧
    changesOnly (exec (.cmReqReceived src req)) (signals ++ ([.free, .ctx, .host] : List Piece)) ∧
    changesOnly (exec (.modifyQp h p)) (replies ++ ([.gddr, .cue, .sto, .loom, .feed] : List Piece)) ∧
    changesOnly (exec (.flowAgeExpiry ctx)) [.hed, .ctx] ∧
    changesOnly (exec (.contextError ctx)) (replies ++ ([.gddr, .cue, .sto, .hed, .shu, .loom, .feed, .ras, .flash] : List Piece)) ∧
    changesOnly (exec (.drbgReseed lane)) [.cip] ∧
    changesOnly (exec (.rtuReceived member)) signals

/-- Frames of the shuttles, the Tapestry, the Loom and delivery: what each command leaves differs from the state before it in the listed
pieces at most, so every register, buffer and counter of every other piece is as it was, and the queue is. A packet that the head forwards
stores its parameters in GDDR7, so every packet row lists that piece. -/
def Obligations.DataPathFrames : Prop :=
  ∀ (h : Hdr) (p data entry block : Bytes) (stream first queue core cycles job warp abs src consumer accel speed width vendor device latch size val addr ring n gen rkey : Nat) (ok : Bool) (funcs : List Sys2Proof.AccelFn) (kind : Upstream) (pic : Picture) (aud : AudioFrame) (cap : Caption) (upsets : Upsets) (w : Window) (a : Access),
    (∀ f ∈ [exec (.shuFeed h p), exec (.shuReturnOutput h p), exec (.pictureDecoded stream pic),
        exec (.audioFrameDecoded stream aud), exec (.captionChange stream cap), exec (.sliceReparseDone stream first ok),
        exec (.containerTimeout stream), exec (.tapRun h p), exec (.tapBindQueue h p), exec (.queueWaitExpiry queue),
        exec (.sliceOverrun core), exec (.coreJoin core)],
      changesOnly f (replies ++ ([.gddr, .shu, .tap, .tapc, .ras, .flash] : List Piece))) ∧
    (∀ f ∈ [exec (.shuGetStream h p), exec (.loomGetCursor h p), exec (.loomGetOrder h p), exec (.loomGetJob h p),
        exec (.feedGetRing h p)], changesOnly f (replies ++ ([.gddr] : List Piece))) ∧
    (∀ f ∈ [exec (.tapLoadProgram h p), exec (.tapUnloadProgram h p), exec (.tapUnbindQueue h p), exec (.tapGetQueue h p),
        exec (.tapSetPolicy h p)], changesOnly f (replies ++ ([.gddr, .tap] : List Piece))) ∧
    (∀ f ∈ [exec (.loomOpenJob h p), exec (.loomAddWarp h p), exec (.loomSetCursor h p), exec (.loomSetShare h p)],
      changesOnly f (replies ++ ([.gddr, .loom] : List Piece))) ∧
    (∀ f ∈ [exec (.accelPresence accel), exec (.accelEnumerated accel ok funcs speed width vendor device),
        exec (.linkTrainingTimeout accel), exec (.accelRetryTimer accel)], changesOnly f (signals ++ ([.feed] : List Piece))) ∧
    (∀ f ∈ [exec (.feedAdmit h p), exec (.feedResetRing h p), exec (.feedDestroyRing h p)],
      changesOnly f (replies ++ ([.gddr, .cue, .sto, .loom, .feed, .lat] : List Piece))) ∧
    (∀ f ∈ [exec (.latchValWrite a), exec (.latchThreshWrite a), exec (.latchCfgWrite a)],
      changesOnly f (signals ++ ([.free, .glb, .feed, .lat, .ras, .host] : List Piece))) ∧
    (∀ f ∈ [exec (.layoutNotice job entry), exec (.layoutRoundTimeout job ring), exec (.layoutRepropose job ring)],
      changesOnly f (replies ++ ([.loom, .feed] : List Piece))) ∧
    (∀ f ∈ [exec (.shuSetPolicy h p), exec (.shuSetMel h p), exec (.shuOpenStream h p)],
      changesOnly f (replies ++ ([.gddr, .shu] : List Piece))) ∧
    (∀ f ∈ [exec (.streamInputRead stream data ok), exec (.shuCloseStream h p)],
      changesOnly f (replies ++ ([.gddr, .sto, .shu, .tap, .tapc, .ras, .flash] : List Piece))) ∧
    (∀ f ∈ [exec (.samplePayloadRead job warp abs data), exec (.exchangeNotice job entry)],
      changesOnly f (signals ++ ([.free, .gddr, .sto, .ctx, .loom, .host] : List Piece))) ∧
    (∀ f ∈ [exec (.sliceComplete core cycles upsets), exec (.sampleAdmit job warp block src)],
      changesOnly f (replies ++ ([.gddr, .shu, .tap, .tapc, .loom, .ras, .flash] : List Piece))) ∧
    (∀ f ∈ [exec (.loomSetLayout h p), exec (.feedJoin h p)], changesOnly f (replies ++ ([.gddr, .loom, .feed] : List Piece))) ∧
    (∀ f ∈ [exec (.feedSetPort h p), exec (.feedRelease h p)],
      changesOnly f (replies ++ ([.gddr, .cue, .sto, .loom, .feed] : List Piece))) ∧
    (∀ f ∈ [exec (.creditMailboxEntry rkey entry), exec (.deliveryIssue ring)],
      changesOnly f (replies ++ ([.cue, .sto, .loom, .feed, .lat] : List Piece))) ∧
    (∀ f ∈ [exec (.deliveryLanded ring n), exec (.genReadResponse ring n gen)],
      changesOnly f (replies ++ ([.cue, .sto, .loom, .feed] : List Piece))) ∧
    (∀ f ∈ [exec (.loomFetchStart job), exec (.rescueFetch job warp abs), exec (.weaveClose job consumer)],
      changesOnly f (replies ++ ([.gddr, .cue, .sto, .loom, .feed, .lat, .ckp] : List Piece))) ∧
    changesOnly (exec (.feedCreateRing h p)) (replies ++ ([.gddr, .feed, .lat] : List Piece)) ∧
    changesOnly (exec (.ringResetReadDone ring)) (replies ++ ([.feed, .lat] : List Piece)) ∧
    changesOnly (exec (.loomCloseJob h p)) (allBut [.glb, .hed, .cip, .lat, .ckp, .stg, .onb, .pwr]) ∧
    changesOnly (exec (.loomStart h p)) (replies ++ ([.gddr, .cue, .loom, .feed] : List Piece)) ∧
    changesOnly (exec (.indexEntryRead job warp abs entry)) [.out, .sto, .loom, .obs] ∧
    changesOnly (exec (.latchAssign h p)) (replies ++ ([.gddr, .lat] : List Piece)) ∧
    changesOnly (exec (.latchAdd w latch size val)) (signals ++ ([.free, .feed, .lat, .ras, .ckp, .host] : List Piece)) ∧
    changesOnly (exec (.latchPost w latch size val)) (replies ++ ([.cue, .sto, .loom, .feed, .lat, .ras] : List Piece)) ∧
    changesOnly (exec (.upstreamAccess accel addr size kind)) [.out, .feed, .lat]

/-- Frames of faults, checkpoints and the stagehands: what each command leaves differs from the state before it in the listed pieces at
most, so every register, buffer and counter of every other piece is as it was, and the queue is. A packet that the head forwards stores
its parameters in GDDR7, so every packet row lists that piece. -/
def Obligations.FaultAndFirmwareFrames : Prop :=
  ∀ (accel unit op detail count channel corrected addr part code core pattern job index status : Nat) (cause : ErrCause) (byRetry link both passed ok remote readOk : Bool) (mesh : MeshLink) (bad : List Nat) (obj : BurstObj) (h : Hdr) (p data entry image : Bytes) (a : Access),
    (∀ f ∈ [exec (.fwStage h p), exec (.fwVerify h p), exec (.fwActivate h p), exec (.fwRollback h p)],
      changesOnly f (replies ++ ([.gddr, .stg] : List Piece))) ∧
    (∀ f ∈ [exec (.fwLoadModule h p), exec (.fwUnloadModule h p)], changesOnly f (replies ++ ([.gddr, .stg, .onb] : List Piece))) ∧
    (∀ f ∈ [exec (.rasGetUnit h p), exec (.ckpGetJob h p), exec (.ckpReadBank h p), exec (.fwGetInfo h p)],
      changesOnly f (replies ++ ([.gddr] : List Piece))) ∧
    (∀ f ∈ [exec (.rasSetErrorRing h p), exec (.rasErrorHead h p), exec (.rasSetTest h p)],
      changesOnly f (replies ++ ([.gddr, .ras] : List Piece))) ∧
    (∀ f ∈ [exec .handoverClearance, exec .handoverStep4Timeout], changesOnly f [.stg]) ∧
    changesOnly (exec .trialExpiry) [.gddr, .stg, .host, .obs] ∧
    (∀ f ∈ [exec (.ckpSetShards h p), exec (.ckpRestore h p)],
      changesOnly f (replies ++ ([.gddr, .feed, .lat, .ckp] : List Piece))) ∧
    changesOnly (exec (.ckpCapture h p)) (replies ++ ([.gddr, .sto, .feed, .lat, .ckp] : List Piece)) ∧
    changesOnly (exec (.ckpCloseJob h p)) (replies ++ ([.gddr, .sto, .lat, .ckp] : List Piece)) ∧
    (∀ f ∈ [exec (.detectedError unit cause op detail), exec (.rasFenceUnit h p)], changesOnly f (allBut [.glb, .pwr])) ∧
    changesOnly (exec .channelRemoved)
      (replies ++ ([.gddr, .glb, .cue, .sto, .cip, .shu, .tap, .tapc, .loom, .feed, .lat, .ras, .ckp, .flash] : List Piece)) ∧
    (∀ f ∈ [exec (.partitionResetEnd part bad)],
      changesOnly f (replies ++ ([.gddr, .sto, .cip, .shu, .tap, .tapc, .loom, .ras, .flash] : List Piece))) ∧
    (∀ f ∈ [exec (.ckpSetJob h p), exec (.ckpSetTrigger h p)], changesOnly f (replies ++ ([.gddr, .ckp] : List Piece))) ∧
    (∀ f ∈ [exec (.ckpSetSigners h p), exec (.fwSetModuleKey h p)], changesOnly f (replies ++ ([.gddr, .flash] : List Piece))) ∧
    (∀ f ∈ [exec (.shardCopied job index data ok), exec (.pbWriteFail job status)],
      changesOnly f (replies ++ ([.feed, .lat, .ras, .ckp, .flash] : List Piece))) ∧
    (∀ f ∈ [exec .activateDeferTimeout, exec .handoverQuiesceTimeout], changesOnly f (replies ++ ([.stg] : List Piece))) ∧
    changesOnly (exec (.meshDegraded mesh)) records ∧
    (∀ f ∈ [exec (.captureDecision job), exec (.captureStart job)],
      changesOnly f (replies ++ ([.gddr, .cue, .sto, .loom, .feed, .lat, .ckp] : List Piece))) ∧
    changesOnly (exec (.restoreShardRead job index data remote)) (replies ++ ([.sto, .feed, .lat, .ckp] : List Piece)) ∧
    changesOnly (exec (.shardStored job index)) [.out, .ckp] ∧
    changesOnly (exec (.accelDeparted accel)) (replies ++ ([.cue, .sto, .loom, .feed, .lat, .ras, .ckp, .flash] : List Piece)) ∧
    changesOnly (exec (.correctedError unit count byRetry)) [.ras] ∧
    changesOnly (exec (.patrolScrub channel corrected)) [.ras, .obs] ∧
    changesOnly (exec (.uncorrectableBurst addr channel link both obj)) (allBut [.glb, .onb, .pwr]) ∧
    changesOnly (exec (.recordCoalesceExpiry unit code op)) (signals ++ ([.ras, .host, .flash, .sm] : List Piece)) ∧
    changesOnly (exec (.iftDue core)) (signals ++ ([.cmd, .tap, .tapc, .ras, .host] : List Piece)) ∧
    changesOnly (exec (.iftComplete core passed pattern)) (signals ++ ([.tap, .ras] : List Piece)) ∧
    changesOnly (exec (.bankZeroAck job)) [.ckp] ∧
    changesOnly (exec (.captureCommit job)) (replies ++ ([.sto, .ckp] : List Piece)) ∧
    changesOnly (exec (.checkpointNotice job entry)) [.net, .ckp] ∧
    changesOnly (exec (.drainComplete job)) (signals ++ ([.sto, .ckp] : List Piece)) ∧
    changesOnly (exec (.stgLoadGo a)) [.out, .ras, .stg, .host, .obs] ∧
    changesOnly (exec (.stgLoadDone image readOk)) [.gddr, .cmd, .stg, .onb, .host, .obs] ∧
    changesOnly (exec (.watchdogExpiry core)) (replies ++ ([.ras, .stg, .onb] : List Piece)) ∧
    changesOnly (exec (.stagehandRestarted core)) (replies ++ ([.gddr, .stg, .onb] : List Piece)) ∧
    changesOnly (exec .handoverQuiesced) [.gddr, .stg, .onb, .host, .obs] ∧
    changesOnly (exec .handoverResumed) (replies ++ ([.gddr, .ras, .stg, .onb, .flash] : List Piece)) ∧
    changesOnly (exec (.fwCommit h p)) (replies ++ ([.gddr, .stg, .flash] : List Piece))

/-- Frames of the Onbusyn cores: what each command leaves differs from the state before it in the listed pieces at most, so every
register, buffer and counter of every other piece is as it was, and the queue is. A trap that ends a core's run reaches what a failed
stagehand leaves, and a clash of its events with the trace the Tableau. -/
def Obligations.OnbusynFrames : Prop :=
  ∀ (core rd ra rb imm amount k rs level rc fin count tag cls err : Nat) (host : Bytes),
    (∀ f ∈ [exec (.add core rd ra rb), exec (.sub core rd ra rb), exec (.andR core rd ra rb), exec (.orR core rd ra rb),
        exec (.xorR core rd ra rb), exec (.shl core rd ra rb), exec (.shr core rd ra rb), exec (.sar core rd ra rb),
        exec (.mul core rd ra rb), exec (.mulhu core rd ra rb), exec (.divu core rd ra rb), exec (.remu core rd ra rb),
        exec (.minu core rd ra rb), exec (.maxu core rd ra rb), exec (.movR core rd ra), exec (.sltu core rd ra rb),
        exec (.addi core rd ra imm), exec (.andi core rd ra imm), exec (.ori core rd ra imm), exec (.xori core rd ra imm),
        exec (.shiftiShl core rd ra amount), exec (.shiftiShr core rd ra amount), exec (.shiftiSar core rd ra amount),
        exec (.movz core rd k imm), exec (.movk core rd k imm), exec (.ld64 core rd ra imm), exec (.ld32u core rd ra imm),
        exec (.ld16u core rd ra imm), exec (.ld8u core rd ra imm), exec (.st64 core rs ra imm), exec (.st32 core rs ra imm),
        exec (.st16 core rs ra imm), exec (.st8 core rs ra imm), exec (.beq core rs ra imm), exec (.bne core rs ra imm),
        exec (.blt core rs ra imm), exec (.bge core rs ra imm), exec (.bltu core rs ra imm), exec (.bgeu core rs ra imm),
        exec (.jal core imm), exec (.jr core rd ra), exec (.loop core level rc fin), exec (.loopi core level count fin),
        exec (.csrr core rd imm), exec (.csrw core rs imm), exec (.tagR core rd ra), exec (.retag core rd ra tag),
        exec (.trap core imm), exec (.tret core cls), exec (.adr core rd imm), exec (.wait core rd rb), exec (.sha256Init core),
        exec (.sha256Upd core ra rb), exec (.sha256Fin core ra), exec (.crc32c core rd ra rb), exec (.crc64 core rd ra rb),
        exec (.walk core rd ra rb), exec (.cbRaise core ra), exec (.cbPend core rd), exec (.cbDone core ra), exec (.ltRead core rd ra),
        exec (.dmaWin core rd ra), exec (.moduleBudgetExpiry core), exec (.ctxRd core ra rb), exec (.ctxWr core ra rb),
        exec (.ctxPin core ra), exec (.ctxUnpin core ra)], changesOnly f runs) ∧
    changesOnly (exec (.waitReturn core)) [.onb] ∧
    changesOnly (exec (.ltAdd core ra rb)) (runs ++ ([.feed, .lat, .ckp] : List Piece)) ∧
    changesOnly (exec (.ltThresh core ra rb)) (runs ++ ([.feed, .lat] : List Piece)) ∧
    changesOnly (exec (.dmaCopy core rd ra host err)) runs

/-- Frames of the call board, the host endpoint, the stage manager, counters, power and pins: what each command leaves differs from the
state before it in the listed pieces at most, so every register, buffer and counter of every other piece is as it was, and the queue is. A
packet that the head forwards stores its parameters in GDDR7, so every packet row lists that piece. -/
def Obligations.HostAndManagementFrames : Prop :=
  ∀ (h : Hdr) (p data req : Bytes) (a : Access) (fn vec src num size vf2 index medium sess eid space addr len : Nat) (vf same acked : Bool) (reading : Reading) (straps : Straps),
    (∀ f ∈ [exec (.callAssign h p), exec (.vfSetResources h p), exec (.vfSetMbox h p), exec (.vfTrackStart h p),
        exec (.vfTrackSync h p), exec (.vfTrackStop h p), exec (.smReadLog h p), exec (.obsSetSnapArea h p), exec (.obsSnapHead h p),
        exec (.obsSetCounter h p), exec (.obsTraceCfg h p), exec (.obsTraceStart h p), exec (.obsTraceStop h p),
        exec (.obsTraceRead h p), exec (.obsTableau h p), exec (.vfGetResources h p), exec (.vfSavePrecopy h p),
        exec (.vfSaveFinal h p), exec (.obsTrigger h p)], changesOnly f (replies ++ ([.gddr] : List Piece))) ∧
    (∀ f ∈ [exec (.getVersion medium req), exec (.negotiateAlgorithms medium req), exec (.getDigests medium req),
        exec (.getCertificate medium req), exec (.keyUpdate medium sess req), exec (.setEventReceiver medium eid),
        exec (.healthResendTimer acked), exec (.activateFirmware medium sess req)], changesOnly f [.out, .sm]) ∧
    (∀ f ∈ [exec .smBoot, exec (.sensorSample index reading), exec .inputRestored, exec .mainPowerUp, exec .sysRstRelease,
        exec .hpPerstAssert, exec .perstResetHoldExpiry], changesOnly f everyPart) ∧
    (∀ f ∈ [exec (.getCapabilities medium req), exec (.challenge medium req), exec (.keyExchange medium req),
        exec (.mctpControl medium req), exec (.pldmBase medium req)], changesOnly f [.out, .free, .sm]) ∧
    (∀ f ∈ [exec (.smSetOperatorKey h p), exec (.smSetThreshold h p), exec (.smSetFwKey h p), exec (.smSetMgmt h p),
        exec (.pwrSetConfig h p)], changesOnly f (replies ++ ([.gddr, .flash] : List Piece))) ∧
    (∀ f ∈ [exec .powerControlTick, exec .thermalCapStep, exec (.pwrSetCap h p), exec .eprNLow, exec .eprHoldExpiry],
      changesOnly f (replies ++ ([.gddr, .shu, .tap, .tapc, .ras, .flash, .pwr] : List Piece))) ∧
    (∀ f ∈ [exec (.aonPowerUp straps), exec .aonPowerOff, exec .inputOutOfRange, exec .pwrEnLow, exec .sysRstAssert],
      changesOnly f (allBut [.out, .free, .flash])) ∧
    (∀ f ∈ [exec .pwrEnHigh, exec .mainDomainReady, exec .hpPerstRelease, exec .hostLinkUp], changesOnly f [.aon]) ∧
    (∀ f ∈ [exec .smWatchdogExpiry, exec .smActivateClearance, exec .smTrialTimeout], changesOnly f [.onb, .sm]) ∧
    (∀ f ∈ [exec .mgmtConfigApply, exec (.dynamicAddressAssigned addr), exec .alertNAssert], changesOnly f [.sm]) ∧
    (∀ f ∈ [exec (.callMaskSet a), exec (.callPendClr a)], changesOnly f [.out, .glb, .ras, .call, .host, .obs]) ∧
    (∀ f ∈ [exec (.callMaskClr a), exec (.callPendSet a)], changesOnly f (signals ++ ([.glb, .ras, .host] : List Piece))) ∧
    (∀ f ∈ [exec (.callVDone fn vec src), exec .smFwConfirm], changesOnly f records) ∧
    (∀ f ∈ [exec (.flr fn), exec .vfEnableClear], changesOnly f (allBut [.glb, .pwr])) ∧
    (∀ f ∈ [exec (.flrComplete fn), exec (.vfEnableSet num)], changesOnly f [.host]) ∧
    (∀ f ∈ [exec (.mboxSeqWrite a), exec (.mboxAckWrite a)], changesOnly f (signals ++ ([.ras, .host] : List Piece))) ∧
    (∀ f ∈ [exec (.vfFrozen vf2), exec (.finish medium sess req)], changesOnly f replies) ∧
    (∀ f ∈ [exec (.vfFreezeDrainLimit vf2), exec (.vfResume h p)],
      changesOnly f (replies ++ ([.gddr, .sto, .shu, .tap, .tapc, .loom, .ras, .flash] : List Piece))) ∧
    (∀ f ∈ [exec (.getMeasurements medium req), exec (.pldmPlatform medium req)], changesOnly f [.out, .free]) ∧
    changesOnly (exec (.callVTake fn vec)) [.out, .call, .host, .obs] ∧
    changesOnly (exec (.moderationExpiry fn vec)) signals ∧
    changesOnly (exec (.msixUnmask fn vec)) (signals ++ ([.host] : List Piece)) ∧
    changesOnly (exec (.barResize vf size)) [.glb] ∧
    changesOnly (exec (.vfFreeze h p)) (replies ++ ([.gddr, .shu] : List Piece)) ∧
    changesOnly (exec (.vfRestore h p data)) (replies ++ ([.gddr, .cue, .sto, .cip, .shu, .tap, .loom, .feed, .lat] : List Piece)) ∧
    changesOnly (exec (.vfSetMigKey h p)) (replies ++ ([.gddr, .cip] : List Piece)) ∧
    changesOnly (exec (.storeBankCompare same)) (replies ++ ([.gddr, .shu, .tap, .tapc, .ras, .flash] : List Piece)) ∧
    changesOnly (exec (.endSession medium sess req))
      (replies ++ ([.gddr, .hed, .cip, .shu, .tap, .tapc, .loom, .ras, .flash] : List Piece)) ∧
    changesOnly (exec (.mgmtScanRequest sess req)) [.out, .free, .aon, .net, .sm] ∧
    changesOnly (exec (.pldmFru medium req)) [.out] ∧
    changesOnly (exec (.pldmFirmwareUpdate medium sess req)) [.out, .free, .flash, .sm] ∧
    changesOnly (exec .smActivateTimeout) (records ++ ([.onb] : List Piece)) ∧
    changesOnly (exec (.obsClearCounters h p)) (allBut [.tapc, .onb, .flash, .pwr]) ∧
    changesOnly (exec .tableauStopped) (replies ++ ([.ras, .flash] : List Piece)) ∧
    changesOnly (exec (.jtagAccess space addr len)) [.out, .free, .aon] ∧
    changesOnly (exec .eprNHigh) [.aon, .pwr] ∧
    changesOnly (exec .tableauNFall) [.aon, .net]

/-- Every command completes: a step answers a next state from every state, so that nothing stops the block. -/
def Obligations.EveryStepCompletes : Prop := ∀ s : State, ∃ t, step s = .next t

/-- A step takes exactly the command at the front of the queue, whatever the command does, and with no command waiting the block idles. -/
def Obligations.AStepTakesOneCommand : Prop :=
  ∀ s : State, (s.pending = [] → step s = .next s) ∧
    ∀ (c : Instr) (rest : List Instr) (t : State), s.pending = c :: rest → step s = .next t → t.pending = rest

/-- What the device has sent stands: a step adds outputs at the end and changes none before them, and the counter of free values never
goes back. -/
def Obligations.OutputsStand : Prop :=
  ∀ s t : State, step s = .next t → (∃ l, t.out = s.out ++ l) ∧ s.free ≤ t.free

/-- GDDR7 keeps its canonical form: from every state whose memory has it, a step of any command leaves a memory that has it. -/
def Obligations.MemoryStaysCanonical : Prop :=
  ∀ s t : State, Memory.wf s.gddr = true → step s = .next t → Memory.wf t.gddr = true

/-- What reset leaves: no command waits, nothing has been sent, memory lists nothing and is canonical, the always-on domain is powered and
the main domain is off, no host link is up, the stage manager does not run, no queue pair, session or VF is there, the cue is in NONE. -/
def Obligations.ResetState : Prop :=
  State.reset.pending = [] ∧ State.reset.out = [] ∧ State.reset.gddr = [] ∧ Memory.wf State.reset.gddr = true ∧
    State.reset.aon.powered = true ∧ State.reset.aon.mainPhase = .off ∧ State.reset.aon.tableau = false ∧ State.reset.aon.hostLink = false ∧
    State.reset.sm.running = false ∧ State.reset.cmd.qps = [] ∧ State.reset.cmd.sessions = [] ∧ State.reset.host.vfs = [] ∧
    State.reset.cue.st = .none ∧ State.reset.cmd.waiting = [] ∧ State.reset.onb.cores = []

/-- Memory holds what is written: the bytes of a write read back, a cleared range reads 0, every other byte reads as before, and both keep
the canonical form. -/
def Obligations.MemoryReadsBack : Prop :=
  ∀ (s : State) (a n x : Nat) (b : Bytes),
    (s.gWrite a b).mem a b.length = b ∧
    ((x < a ∨ a + b.length ≤ x) → (s.gWrite a b).mem x 1 = s.mem x 1) ∧
    ((s.gClear a n).mem a n = zeros n) ∧
    ((x < a ∨ a + n ≤ x) → (s.gClear a n).mem x 1 = s.mem x 1) ∧
    (Memory.wf s.gddr = true → Memory.wf (s.gWrite a b).gddr = true ∧ Memory.wf (s.gClear a n).gddr = true)

/-- Stores to GDDR7 stay where they belong. A write through BAR2 reaches only the bytes that the function's window shows; a remote write
reaches only regions registered for writing, and a request that ends its queue pair's work only the parameters of forwarded commands that
end with it; DMA.COPY reaches only its destination. Every other byte reads as before. -/
def Obligations.StoresStayInPlace : Prop :=
  ∀ (x : Nat) (s t : State),
    (∀ a : Access, exec (.bar2Access a) s = .next t →
      (a.wr = true → ∀ i, i < a.data.length → s.bar2Sized.bar2At a.fn (a.off + i) ≠ .mem x) → t.mem x 1 = s.mem x 1) ∧
    (∀ pkt : RdmaPkt, exec (.rdmaWriteReceived pkt) s = .next t →
      (∀ k r, s.region k = some r → r.write = true → ¬ (r.base ≤ x ∧ x < r.base + r.len)) →
      (∀ f ∈ s.cmd.fanouts, f.rkey ≠ 0 → ¬ (f.base ≤ x ∧ x < f.base + f.hdr.paramLen)) → t.mem x 1 = s.mem x 1) ∧
    (∀ (core rd ra err : Nat) (host : Bytes), exec (.dmaCopy core rd ra host err) s = .next t →
      ∀ d, d = (s.core core).dmaDesc ((s.core core).reg ra).val.toNat →
      ((d.dstSpace = 2 ∨ d.dstSpace = 3) → ¬ (s.dmaAddr d.dstSpace d.dst ≤ x ∧ x < s.dmaAddr d.dstSpace d.dst + d.len)) →
      t.mem x 1 = s.mem x 1)

/-- Frame of the Onbusyn instructions that write a register or store to local memory, when no double trap ends the core's run and no
FW_UNLOAD_MODULE waits for a module's command to end: GDDR7 is as it was, and every other core; of this core every register but the
destination is; a register instruction leaves all of local memory, and a store leaves every register and every word but the one that holds
its address. -/
def Obligations.OnbusynCoreFrame : Prop :=
  ∀ (core rd rs ra rb k imm amount tag : Nat) (s t : State), (s.core core).wouldDouble = false →
    ((s.core core).priv = false ∨ s.cmd.waiting.any (fun w => w.kind == wUnload) = false) →
    (∀ f ∈ [exec (.add core rd ra rb), exec (.sub core rd ra rb), exec (.andR core rd ra rb), exec (.orR core rd ra rb),
        exec (.xorR core rd ra rb), exec (.shl core rd ra rb), exec (.shr core rd ra rb), exec (.sar core rd ra rb),
        exec (.mul core rd ra rb), exec (.mulhu core rd ra rb), exec (.divu core rd ra rb), exec (.remu core rd ra rb),
        exec (.minu core rd ra rb), exec (.maxu core rd ra rb), exec (.movR core rd ra), exec (.sltu core rd ra rb),
        exec (.addi core rd ra imm), exec (.andi core rd ra imm), exec (.ori core rd ra imm), exec (.xori core rd ra imm),
        exec (.shiftiShl core rd ra amount), exec (.shiftiShr core rd ra amount), exec (.shiftiSar core rd ra amount),
        exec (.movz core rd k imm), exec (.movk core rd k imm), exec (.ld64 core rd ra imm), exec (.ld32u core rd ra imm),
        exec (.ld16u core rd ra imm), exec (.ld8u core rd ra imm), exec (.adr core rd imm), exec (.tagR core rd ra),
        exec (.retag core rd ra tag), exec (.csrr core rd imm)],
      f s = .next t →
        t.gddr = s.gddr ∧ (∀ n, n ≠ core → t.core n = s.core n) ∧ (∀ r, r ≠ rd → (t.core core).reg r = (s.core core).reg r) ∧
        (t.core core).mem = (s.core core).mem) ∧
    (∀ f ∈ [exec (.st64 core rs ra imm), exec (.st32 core rs ra imm), exec (.st16 core rs ra imm), exec (.st8 core rs ra imm)],
      f s = .next t →
        t.gddr = s.gddr ∧ (∀ n, n ≠ core → t.core n = s.core n) ∧ (∀ r, (t.core core).reg r = (s.core core).reg r) ∧
        ∀ a, a / 8 ≠ (s.core core).ea ra imm / 8 → (t.core core).word a = (s.core core).word a)

/-- The registers of a core: g0 always reads 0 with tag INT and a write of it changes nothing; g1 to g31 hold what is written, data and
tag, and a write changes no other; JAL writes its return address to g31; after a load or a restart g1 to g31 hold UNINIT. -/
def Obligations.RegistersOfACore : Prop :=
  ∀ (c : OnbCore) (w : LWord) (r q : Nat),
    c.reg 0 = intW 0 ∧ c.setReg 0 w = c ∧
    (1 ≤ r → r ≤ 31 → (c.setReg r w).reg r = w ∧ (q ≠ r → (c.setReg r w).reg q = c.reg q)) ∧
    (∀ (core imm : Nat) (s : State), onbAt core s = true →
      ∃ t, exec (.jal core imm) s = .next t ∧ (t.core core).reg 31 = codeW (s.core core).after) ∧
    (∀ (core : Nat) (img : ImgHdr) (s : State), s.stg.image = some img → 1 ≤ r → r ≤ 31 →
      (((s.loadHand core).core core).reg r).tag = tUninit)

/-- After the instruction at the end of an active level, levels that end there are evaluated from the innermost outwards: a count above 1
decreases and execution goes on at the level's start, outer levels untouched; a count of 1 becomes 0, the level becomes inactive, and the
next one outwards is evaluated. A taken branch or jump there evaluates none. -/
def Obligations.LoopEndsAreEvaluated : Prop :=
  ∀ (c : OnbCore), c.loops.length = 4 →
    (∀ k, k < 4 → (c.lv k).active = true → (c.lv k).lpe = c.pc → 1 < (c.lv k).lpc →
      (∀ j, k < j → j < 4 → (c.lv j).active = true → (c.lv j).lpe = c.pc → (c.lv j).lpc = 1) →
      c.advance.pc = (c.lv k).lps ∧ c.advance.lv k = { c.lv k with lpc := (c.lv k).lpc - 1 } ∧
        (∀ j, k < j → j < 4 → (c.lv j).active = true → (c.lv j).lpe = c.pc → c.advance.lv j = { c.lv j with lpc := 0, active := false }) ∧
        ∀ j, j < 4 → j ≠ k → (j < k ∨ (c.lv j).active = false ∨ (c.lv j).lpe ≠ c.pc) → c.advance.lv j = c.lv j) ∧
    ((∀ j, j < 4 → (c.lv j).active = true → (c.lv j).lpe = c.pc → (c.lv j).lpc = 1) →
      c.advance.pc = c.pc + 4 ∧
        ∀ j, j < 4 → c.advance.lv j =
          if (c.lv j).active = true ∧ (c.lv j).lpe = c.pc then { c.lv j with lpc := 0, active := false } else c.lv j) ∧
    (∀ target : BitVec 64, (c.jump target).pc = target.toNat ∧
      ∀ k, k < 4 → (c.lv k).lps ≤ target.toNat → target.toNat ≤ (c.lv k).lpe → (c.jump target).lv k = c.lv k)

/-- LOOP and LOOPI trap LOOP_FAULT and have no effect where their level is already active, where an outer active level ends below the new
end, where END is 0, and where the body reaches beyond the resident region. -/
def Obligations.LoopInstructionsFault : Prop :=
  ∀ (core level rc count fin : Nat) (s : State) (c : OnbCore), onbAt core s = true → c = s.core core →
    ((c.lv level).active = true ∨ (∃ k, k < level ∧ (c.lv k).active = true ∧ (c.lv k).lpe < c.pc + 4 * fin) ∨ fin = 0 ∨
      codeEnd core < c.pc + 4 * fin + 4) →
    ((c.reg rc).tag = tInt → exec (.loop core level rc fin) s = .next (s.onbTrap core (0xA, some (c.reg rc).val) 0 c.pc)) ∧
    exec (.loopi core level count fin) s = .next (s.onbTrap core (0xA, some (BitVec.ofNat 64 count)) 0 c.pc)

/-- A trap saves and enters: the address of the instruction, the cause, its value and the set of active levels are saved, every level
becomes inactive, the privilege is saved and becomes firmware's, INTRAP is set, and execution goes on at tvec; the registers are as they
were, and local memory and every other core, unless the trap ends a module's command and with it a FW_UNLOAD_MODULE that waited. A trap inside a handler, or before tvec was written, ends the core's run instead. -/
def Obligations.TrapsSaveAndEnter : Prop :=
  ∀ (core extra at_ : Nat) (k : Cause) (s t : State) (c d : OnbCore), c = s.core core → d = t.core core → t = s.onbTrap core k extra at_ →
    (c.inTrap = true ∨ c.tvecSet = false → t = s.coreEnds core) ∧
    (c.inTrap = false → c.tvecSet = true →
      d.tpc = at_ ∧ d.tcause = k.1 + 256 * extra ∧ (∀ v, k.2 = some v → d.tval = v) ∧ d.tloop = c.lact ∧
      (∀ i, (d.lv i).active = false) ∧ d.ppriv = c.priv ∧ d.priv = false ∧ d.inTrap = true ∧ d.pc = c.tvec ∧ d.regs = c.regs ∧
      ((c.priv = false ∨ s.cmd.waiting.any (fun w => w.kind == wUnload) = false) → d.mem = c.mem ∧ ∀ n, n ≠ core → t.core n = s.core n))

/-- The order in which a warp serves its samples is a bijection on [0, N): in every epoch, whatever the key, each sample is served exactly
once. -/
def Obligations.SampleOrderIsABijection : Prop :=
  ∀ key epoch warp n : Nat,
    (∀ p, p < n → sigma key epoch warp n p < n) ∧
    (∀ p q, p < n → q < n → sigma key epoch warp n p = sigma key epoch warp n q → p = q) ∧
    ∀ x, x < n → ∃ p, p < n ∧ sigma key epoch warp n p = x

/-- TABLEAU_N is taken only on a falling edge that occurs while MOD_PWRGD is high, which it is while the main domain is ready: an edge at
another time, or while the Tableau holds, has no effect, and MOD_PWRGD's rise takes no level that is low already. -/
def Obligations.TableauEdgeIsTaken : Prop :=
  ∀ s : State, s.aon.powered = true →
    (s.aon.mainPhase = .ready → s.aon.tableau = false →
      ∃ t, exec .tableauNFall s = .next t ∧ t.aon.tableau = true ∧ t.aon.tabCause = 3) ∧
    (s.aon.mainPhase ≠ .ready → exec .tableauNFall s = .next s) ∧
    (s.aon.tableau = true → exec .tableauNFall s = .next s) ∧
    (∃ t, exec .mainDomainReady s = .next t ∧ t.aon.tableau = s.aon.tableau)

/-- A register offset or BAR0 range that is reserved reads as 0 and ignores writes, and an access to it raises no error: the state changes
by what every performed access leaves, its answer and the count of its payload. -/
def Obligations.ReservedRegistersReadZero : Prop :=
  ∀ (a : Access) (s : State), a.bar = 0 → a.off < bar0Len a.fn → a.aligned = true → s.reg a.fn (a.off / 8 * 8) = none →
    (hostReads a.fn s = true → a.wr = false →
      exec (.registerWrite a) s = .next ((s.ao 12 a.size).emit .barRead a.fn a.off 0 [])) ∧
    (hostWrites a.fn s = true → a.wr = true → (s.ao 11 a.size).reg a.fn (a.off / 8 * 8) = none →
      exec (.registerWrite a) s = .next (s.ao 11 a.size))

/-- The partitions of GDDR7 lie in the order of Table 1.13 without a gap: while the sizes fit the capacity, every address below the
capacity lies in exactly one of them. -/
def Obligations.PartitionsTile : Prop :=
  ∀ (s : State) (a : Nat), 8704 + s.glb.traceMib + s.glb.ckpMib + s.glb.stagingMib ≤ s.capMib → a < mib s.capMib →
    (∃ p, s.partOf a = some p ∧ s.partBase p ≤ a ∧ a < s.partBase p + s.partLen p) ∧
    ∀ p q, s.partBase p ≤ a → a < s.partBase p + s.partLen p → s.partBase q ≤ a → a < s.partBase q + s.partLen q → p = q

/-- A packet command, of which one packet row of each class is named, is carried out by one operation, and one that fails a check of steps
1 to 8 has no effect but the reply that says so, the count of the error and, for a wrong key, what R81 gives: it is fetched, answered with
the check's status, and nothing else happens. -/
def Obligations.CheckedPacketsOnly : Prop :=
  (∀ (h : Hdr) (p : Bytes) (s : State),
    exec (.nop h p) s = runPkt opNop h p s ∧ exec (.openSession h p) s = runPkt opOpenSession h p s ∧
    exec (.createQueuePair h p) s = runPkt opCreateQueuePair h p s ∧ exec (.setPartitions h p) s = runPkt opSetPartitions h p s ∧
    exec (.setCueSource h p) s = runPkt opSetCueSource h p s ∧ exec (.intermissionBegin h p) s = runPkt opIntermissionBegin h p s ∧
    exec (.connectTarget h p) s = runPkt opConnectTarget h p s ∧ exec (.createQp h p) s = runPkt opCreateQp h p s ∧
    exec (.hedLoadGraph h p) s = runPkt opHedLoadGraph h p s ∧ exec (.cipLoadKey h p) s = runPkt opCipLoadKey h p s ∧
    exec (.shuOpenStream h p) s = runPkt opShuOpenStream h p s ∧ exec (.tapLoadProgram h p) s = runPkt opTapLoad h p s ∧
    exec (.loomOpenJob h p) s = runPkt opLoomOpenJob h p s ∧ exec (.feedCreateRing h p) s = runPkt opFeedCreateRing h p s ∧
    exec (.rasFenceUnit h p) s = runPkt opRasFenceUnit h p s ∧ exec (.ckpSetJob h p) s = runPkt opCkpSetJob h p s ∧
    exec (.fwStage h p) s = runPkt opFwStage h p s ∧ exec (.callAssign h p) s = runPkt opCallAssign h p s ∧
    exec (.vfFreeze h p) s = runPkt opVfFreeze h p s ∧ exec (.pwrSetCap h p) s = runPkt opPwrSetCap h p s ∧
    exec (.obsTraceStart h p) s = runPkt opObsTraceStart h p s ∧ exec (.smReadLog h p) s = runPkt opSmReadLog h p s) ∧
  ∀ (sp : OpSpec) (fn qp : Nat) (h : Hdr) (p : Bytes) (s : State) (q : QPair) (status detail st : Nat),
    h.chan = .host fn qp → fn < 256 → aget s.cmd.qps (qpKey fn qp) = some q →
    s.cmd.fetched.find? (fun f => f.isCmd sp.code h p) = none → s.canFetch fn q h = true →
    s.cmd.waiting.any (fun w => w.opcode == 0x0005 && w.aux == qpKey fn qp) = false → s.mayStart (qpKey fn qp) h = true → h.sqOk = true →
    ∀ b, b = begun sp fn qp h s →
    sp.check b h p (b.judge sp.code h.unit) = .error (status, detail, st) →
      runPkt sp h p s =
        .next (((if status = sAuth then sp.authFail h detail b else b).countErr fn).reply h sp.code
          { replyBase sp fn qp h s with status := status, detail := detail, st := st })

/-- Memory that a packet leaves: a packet command of these rows stores nothing in GDDR7 but, where the head forwards it with its
parameters by pointer, those parameters, in the replay area of the device reserve at the place of the command's journal entry (the place is
the model's choice, log entry 13), which is cleared at once where no member can be reached. CIP_LOAD_KEY besides overwrites the key that a
head wrote into this device's mailbox, FW_STAGE and FW_COMMIT write the understudy's copies in the image area that the running image does
not take, a module's load and its unloading clear the area of its class, and ABORT may let an unloading that waited go on. Every other byte
reads as before. -/
def Obligations.PacketsLeaveMemory : Prop :=
  ∀ (h : Hdr) (p data : Bytes) (s t : State) (x : Nat),
    (h.pathLen = 0 ∨ h.ptr = false ∨
      ∀ (fn qp opcode : Nat) (u : State), (u = s ∨ u = s.fetchSlots fn qp h opcode) →
        ¬ (u.replayAddr h ≤ x ∧ x < u.replayAddr h + max p.length h.paramLen)) →
    ((∀ a ∈ s.headParams, ¬ (a ≤ x ∧ x < a + p.length)) → exec (.cipLoadKey h p) s = .next t → t.mem x 1 = s.mem x 1) ∧
    (s.cmd.waiting.any (fun w => w.kind == wUnload) = false → exec (.abort h p) s = .next t → t.mem x 1 = s.mem x 1) ∧
    (s.stg.understudy.length ≤ 8388608 → ¬ (s.imgBase (1 - s.stg.bank) 0 ≤ x ∧ x < s.imgBase (1 - s.stg.bank) 0 + 16777216) →
      ∀ f ∈ [exec (.fwStage h p), exec (.fwCommit h p)], f s = .next t → t.mem x 1 = s.mem x 1) ∧
    (¬ (s.areaBase (moduleOf p).cls ≤ x ∧ x < s.areaBase (moduleOf p).cls + 1024 * (moduleOf p).areaKib) →
      exec (.fwLoadModule h p) s = .next t → t.mem x 1 = s.mem x 1) ∧
    ((∀ m ∈ s.stg.modules, m.cls = fld p 0 1 → ¬ (s.areaBase m.cls ≤ x ∧ x < s.areaBase m.cls + 1024 * m.areaKib)) →
      exec (.fwUnloadModule h p) s = .next t → t.mem x 1 = s.mem x 1) ∧
    (∀ f ∈ [exec (.setPartitions h p), exec (.setCueSource h p), exec (.cueEventSet h p), exec (.cueEventClear h p),
        exec (.nop h p), exec (.openSession h p), exec (.setRoleKey h p), exec (.createQueuePair h p),
        exec (.intermissionBegin h p), exec (.getState h p), exec (.connectTarget h p),
        exec (.disconnectTarget h p), exec (.attachNamespace h p data), exec (.setNsMode h p), exec (.setWbQuota h p),
        exec (.getNsStatus h p), exec (.discardDirty h p), exec (.setPortMode h p), exec (.getPortStatus h p),
        exec (.createQp h p), exec (.modifyQp h p), exec (.destroyQp h p), exec (.queryQp h p), exec (.setEventQueue h p),
        exec (.registerRegion h p), exec (.deregisterRegion h p), exec (.troupeAddMember h p), exec (.setContextReserve h p),
        exec (.hedLoadGraph h p), exec (.hedSetTable h p), exec (.hedAddEntry h p), exec (.hedDelEntry h p),
        exec (.setPacketRing h p), exec (.cipAssignPages h p), exec (.cipClearPage h p),
        exec (.shuOpenStream h p), exec (.shuGetStream h p), exec (.shuSetPolicy h p), exec (.shuSetMel h p),
        exec (.tapLoadProgram h p), exec (.tapUnloadProgram h p), exec (.tapUnbindQueue h p), exec (.tapGetQueue h p),
        exec (.tapSetPolicy h p), exec (.loomOpenJob h p), exec (.loomAddWarp h p), exec (.loomSetLayout h p),
        exec (.loomStart h p), exec (.loomGetCursor h p), exec (.loomSetCursor h p), exec (.loomGetOrder h p),
        exec (.loomGetJob h p), exec (.loomSetShare h p), exec (.feedSetPort h p), exec (.feedAdmit h p), exec (.feedRelease h p),
        exec (.latchAssign h p), exec (.feedCreateRing h p), exec (.feedDestroyRing h p), exec (.feedResetRing h p),
        exec (.feedGetRing h p), exec (.feedJoin h p), exec (.rasSetErrorRing h p), exec (.rasErrorHead h p),
        exec (.rasGetUnit h p), exec (.rasSetTest h p), exec (.ckpSetJob h p), exec (.ckpSetShards h p), exec (.ckpSetTrigger h p),
        exec (.ckpCapture h p), exec (.ckpGetJob h p), exec (.ckpRestore h p), exec (.ckpSetSigners h p), exec (.ckpCloseJob h p),
        exec (.ckpReadBank h p), exec (.fwGetInfo h p), exec (.fwVerify h p), exec (.fwActivate h p),
        exec (.fwRollback h p),
        exec (.fwSetModuleKey h p), exec (.callAssign h p), exec (.vfSetResources h p), exec (.vfGetResources h p),
        exec (.vfSetMbox h p), exec (.vfFreeze h p), exec (.vfSetMigKey h p), exec (.smReadLog h p), exec (.smSetOperatorKey h p),
        exec (.smSetThreshold h p), exec (.smSetFwKey h p), exec (.smSetMgmt h p), exec (.obsSetSnapArea h p),
        exec (.obsSnapHead h p), exec (.obsSetCounter h p), exec (.obsTraceCfg h p), exec (.obsTraceStart h p),
        exec (.obsTraceStop h p), exec (.obsTrigger h p), exec (.obsTraceRead h p), exec (.obsTableau h p),
        exec (.obsClearCounters h p), exec (.pwrSetConfig h p)],
      f s = .next t → t.mem x 1 = s.mem x 1)
end

