-- ==== Sys2Proof/Laws/Packet.lean ====
section
/-!
SUPPORT. What `runPkt` does with a packet that its queue pair serves: one lemma per way in which its check and effect end.
-/
namespace Sys2Proof.Laws

open Sys2Proof Sys2Proof.Machine Sys2Proof.Safety

/-- A served packet is carried out on the state in which it is checked. -/
theorem runPkt_served {sp : OpSpec} {fn qp : Nat} {h : Hdr} {p : Bytes} {c : Caller} {s : State}
    (H : served sp fn qp h p c s = true) :
    runPkt sp h p s = .next ((begun sp fn qp h s).carry sp c h p (replyBase sp fn qp h s)) := by
  unfold served at H
  split at H
  · cases H
  · rename_i q hq
    simp only [Bool.and_eq_true, beq_iff_eq, decide_eq_true_eq, Bool.not_eq_true'] at H
    obtain ⟨⟨⟨⟨⟨⟨⟨⟨⟨⟨hc, hf⟩, hn⟩, hcf⟩, ho⟩, hw⟩, hm⟩, hp⟩, hs⟩, hk⟩, hd⟩ := H
    have hchan : (Chan.host fn qp).fn = fn := rfl
    have hb : (s.fetchSlots fn qp h sp.code).note h.unit 0x0002 fn (sp.code + 65536 * h.hostTag) 0 = begun sp fn qp h s := rfl
    have hck : sp.check (begun sp fn qp h s) h p ((begun sp fn qp h s).judge sp.code h.unit) = .ok c := by
      split at hk
      · rename_i x hx; rw [hx, beq_iff_eq.mp hk]
      · cases hk
    have hnone : s.cmd.fetched.find? (fun f => f.isCmd sp.code h p) = none := by
      cases hz : s.cmd.fetched.find? (fun f => f.isCmd sp.code h p) with
      | none => rfl
      | some x => rw [hz] at hn; cases hn
    unfold runPkt
    simp only [hc, hq, hnone, hcf, ho, hw, hm, Bool.not_false, Bool.not_true, Bool.and_self, Bool.false_eq_true, if_false, if_true, State.start, hchan, hf, hb, hck, hp]
    congr 1
    cases hsc : sp.dataScope with
    | some sc =>
      rw [hsc] at hd
      have hheld : ((begun sp fn qp h s).held sc || (begun sp fn qp h s).cmd.fetched.any (fun x => x.held == some sc)) = false := by
        simpa using hd
      simp only [hheld, Bool.false_eq_true, if_false]
      simp [replyBase]
    | none => simp [replyBase]

/-- No snapshot is asked by a served packet. -/
theorem served_noSnap {sp : OpSpec} {fn qp : Nat} {h : Hdr} {p : Bytes} {c : Caller} {s : State}
    (H : served sp fn qp h p c s = true) : h.snapshot = false := by
  unfold served at H
  split at H
  · cases H
  · simp only [Bool.and_eq_true, Bool.not_eq_true'] at H
    exact H.1.1.2

/-- Its channel is that of its queue pair. -/
theorem served_chan {sp : OpSpec} {fn qp : Nat} {h : Hdr} {p : Bytes} {c : Caller} {s : State}
    (H : served sp fn qp h p c s = true) : h.chan = .host fn qp := by
  unfold served at H
  split at H
  · cases H
  · simp only [Bool.and_eq_true, beq_iff_eq] at H
    exact H.1.1.1.1.1.1.1.1.1.1

/-- The function of a served packet is one of the 256. -/
theorem served_fn {sp : OpSpec} {fn qp : Nat} {h : Hdr} {p : Bytes} {c : Caller} {s : State}
    (H : served sp fn qp h p c s = true) : fn < 256 := by
  unfold served at H
  split at H
  · cases H
  · simp only [Bool.and_eq_true, decide_eq_true_eq] at H
    exact H.1.1.1.1.1.1.1.1.1.2

/-- A served packet whose effect is carried out. -/
theorem runPkt_done {sp : OpSpec} {fn qp : Nat} {h : Hdr} {p : Bytes} {c : Caller} {s b t : State} {status detail result : Nat}
    (H : served sp fn qp h p c s = true) (hb : b = begun sp fn qp h s) (R : sp.run c h p b = .done status detail result t) :
    runPkt sp h p s = .next (answeredBy sp fn qp h s status detail result t) := by
  subst hb
  have hs := served_noSnap H
  rw [runPkt_served H]
  simp [State.carry, R, hs, answeredBy, snapResult, replyBase]

/-- A served packet that completes OK. -/
theorem runPkt_ok {sp : OpSpec} {fn qp : Nat} {h : Hdr} {p : Bytes} {c : Caller} {s b t : State} {result : Nat}
    (H : served sp fn qp h p c s = true) (hb : b = begun sp fn qp h s) (R : sp.run c h p b = .done sOk 0 result t) :
    runPkt sp h p s = .next (answered sp fn qp h s result t) := runPkt_done H hb R

/-- A served packet that completes OK and answers a STATE of its own. -/
theorem runPkt_doneAs {sp : OpSpec} {fn qp : Nat} {h : Hdr} {p : Bytes} {c : Caller} {s b t : State} {status detail result st : Nat}
    (H : served sp fn qp h p c s = true) (hb : b = begun sp fn qp h s) (R : sp.run c h p b = .doneAs status detail result st t) :
    runPkt sp h p s = .next (t.reply h sp.code
      { replyBase sp fn qp h s with
        status := status, detail := (begun sp fn qp h s).okDetail h.unit status detail, st := st, result := result }) := by
  subst hb
  have hs := served_noSnap H
  rw [runPkt_served H]
  simp [State.carry, R, hs, snapResult, replyBase]

/-- A served packet whose reply waits for an event. -/
theorem runPkt_wait {sp : OpSpec} {fn qp : Nat} {h : Hdr} {p : Bytes} {c : Caller} {s b t : State} {kind aux : Nat}
    (H : served sp fn qp h p c s = true) (hb : b = begun sp fn qp h s) (R : sp.run c h p b = .wait kind aux t) :
    runPkt sp h p s = .next (deferred sp fn qp h p s kind aux t) := by
  subst hb
  have hs := served_noSnap H
  rw [runPkt_served H]
  simp [State.carry, R, hs, deferred, replyBase]

/-- A served packet whose setting is staged in the intermission that covers its unit. -/
theorem runPkt_staged {sp : OpSpec} {fn qp : Nat} {h h' : Hdr} {p : Bytes} {c : Caller} {s b : State} {r : Inter}
    {same : Staged → Bool} {result : Nat} {app : State → State} (H : served sp fn qp h p c s = true) (hb : b = begun sp fn qp h s)
    (hr : b.interOf h'.unit = some r) (R : sp.run c h p b = b.setting sp.code c h' p same result app) :
    runPkt sp h p s = .next (stagedReply sp fn qp h p c s r h'.unit same result) := by
  have R' := R
  simp only [State.setting, hr] at R'
  have T := runPkt_doneAs H hb R'
  subst hb
  exact T

/-- No stop for a setting of the session that holds the intermission. -/
theorem settingStop_none {b : State} {c : Caller} {u : Nat} {r : Inter} {need : Bool}
    (h1 : b.interOf u = some r) (h2 : r.ph = .intermission) (h3 : r.heldBy c = true) : b.settingStop c u need = none := by
  simp [State.settingStop, h1, h2, h3]

/-- A served packet that fails a check of steps 9 to 11. -/
theorem runPkt_refuse {sp : OpSpec} {fn qp : Nat} {h : Hdr} {p : Bytes} {c : Caller} {s b : State} {status detail : Nat}
    (H : served sp fn qp h p c s = true) (hb : b = begun sp fn qp h s) (R : sp.run c h p b = .refuse status detail) :
    runPkt sp h p s = .next (turnedAway sp fn qp h s status detail) := by
  subst hb
  have hc : h.chan.fn = fn := by rw [served_chan H]; rfl
  rw [runPkt_served H]
  simp [State.carry, R, turnedAway, hc, replyBase]

/-- Every packet is answered by a next state. -/
theorem runPkt_next (sp : OpSpec) (h : Hdr) (p : Bytes) (s : State) : ∃ t, runPkt sp h p s = .next t := by
  unfold runPkt
  dsimp only
  repeat' split
  all_goals exact ⟨_, rfl⟩

end Sys2Proof.Laws
end

