-- ==== Sys2Proof/Laws/Cmds.lean ====
section
/-!
SUPPORT. A command packet that does not come from a submission queue is answered by a next state, whatever its opcode.
-/
namespace Sys2Proof.Laws

open Sys2Proof Sys2Proof.Machine

theorem thenUnload_next {r : Res} (H : ∃ t, r = .next t) : ∃ t, thenUnload r = .next t := by
  obtain ⟨t, rfl⟩ := H
  exact ⟨_, rfl⟩

theorem execOther_next (opcode : Nat) (h : Hdr) (p : Bytes) (s : State) : ∃ t, execOther opcode h p s = .next t := by
  unfold execOther
  split
  · exact thenUnload_next (runPkt_next _ _ _ _)
  · exact runPkt_next _ _ _ _

theorem thenGoOn_next {r : Res} (old : State) (H : ∃ t, r = .next t) : ∃ t, thenGoOn old r = .next t := by
  obtain ⟨t, rfl⟩ := H
  exact ⟨_, rfl⟩

theorem cmdModule_next (opcode : Nat) (h : Hdr) (p : Bytes) (s : State) : ∃ t, cmdModule opcode h p s = .next t := by
  unfold cmdModule
  split
  · exact runPkt_next _ _ _ _
  · exact runPkt_next _ _ _ _
  · exact runPkt_next _ _ _ _
  · exact thenGoOn_next s (runPkt_next _ _ _ _)
  · exact runPkt_next _ _ _ _
  · exact runPkt_next _ _ _ _
  · obtain ⟨t, ht⟩ := runPkt_next opDeleteQueuePair h p s
    unfold execDeleteQueuePair
    rw [ht]
    exact ⟨_, rfl⟩
  · exact runPkt_next _ _ _ _
  · exact runPkt_next _ _ _ _
  · exact runPkt_next _ _ _ _
  · exact thenUnload_next (runPkt_next _ _ _ _)
  · exact runPkt_next _ _ _ _
  · exact runPkt_next _ _ _ _
  · exact runPkt_next _ _ _ _
  · exact runPkt_next _ _ _ _
  · exact runPkt_next _ _ _ _
  · exact runPkt_next _ _ _ _
  · exact runPkt_next _ _ _ _
  · exact runPkt_next _ _ _ _
  · exact runPkt_next _ _ _ _
  · exact runPkt_next _ _ _ _
  · exact runPkt_next _ _ _ _
  · exact runPkt_next _ _ _ _
  · exact runPkt_next _ _ _ _
  · exact execOther_next _ _ _ _

theorem cmdCue_next (opcode : Nat) (h : Hdr) (p : Bytes) (s : State) : ∃ t, cmdCue opcode h p s = .next t := by
  unfold cmdCue
  split
  · exact runPkt_next _ _ _ _
  · exact runPkt_next _ _ _ _
  · exact runPkt_next _ _ _ _
  · exact execOther_next _ _ _ _

theorem cmdTap_next (opcode : Nat) (h : Hdr) (p : Bytes) (s : State) : ∃ t, cmdTap opcode h p s = .next t := by
  unfold cmdTap
  split
  · exact runPkt_next _ _ _ _
  · exact runPkt_next _ _ _ _
  · obtain ⟨t, ht⟩ := runPkt_next opTapRun h p s
    unfold execTapRun
    rw [ht]
    exact ⟨_, rfl⟩
  · exact runPkt_next _ _ _ _
  · exact runPkt_next _ _ _ _
  · exact runPkt_next _ _ _ _
  · exact runPkt_next _ _ _ _
  · exact execOther_next _ _ _ _

theorem cmdShu_next (opcode : Nat) (h : Hdr) (p : Bytes) (s : State) : ∃ t, cmdShu opcode h p s = .next t := by
  unfold cmdShu
  split
  · exact runPkt_next _ _ _ _
  · exact runPkt_next _ _ _ _
  · exact runPkt_next _ _ _ _
  · exact runPkt_next _ _ _ _
  · exact runPkt_next _ _ _ _
  · exact runPkt_next _ _ _ _
  · exact runPkt_next _ _ _ _
  · exact execOther_next _ _ _ _

theorem cmdLoom_next (opcode : Nat) (h : Hdr) (p : Bytes) (s : State) : ∃ t, cmdLoom opcode h p s = .next t := by
  unfold cmdLoom
  split
  · exact runPkt_next _ _ _ _
  · exact runPkt_next _ _ _ _
  · exact runPkt_next _ _ _ _
  · exact runPkt_next _ _ _ _
  · exact runPkt_next _ _ _ _
  · exact runPkt_next _ _ _ _
  · exact runPkt_next _ _ _ _
  · exact runPkt_next _ _ _ _
  · exact runPkt_next _ _ _ _
  · exact runPkt_next _ _ _ _
  · exact execOther_next _ _ _ _

theorem cmdFeed_next (opcode : Nat) (h : Hdr) (p : Bytes) (s : State) : ∃ t, cmdFeed opcode h p s = .next t := by
  unfold cmdFeed
  split
  · exact runPkt_next _ _ _ _
  · exact runPkt_next _ _ _ _
  · exact runPkt_next _ _ _ _
  · exact runPkt_next _ _ _ _
  · exact runPkt_next _ _ _ _
  · exact runPkt_next _ _ _ _
  · exact runPkt_next _ _ _ _
  · exact runPkt_next _ _ _ _
  · exact runPkt_next _ _ _ _
  · exact execOther_next _ _ _ _

theorem cmdNet_next (opcode : Nat) (h : Hdr) (p : Bytes) (s : State) : ∃ t, cmdNet opcode h p s = .next t := by
  unfold cmdNet
  split
  · exact runPkt_next _ _ _ _
  · exact runPkt_next _ _ _ _
  · exact runPkt_next _ _ _ _
  · exact runPkt_next _ _ _ _
  · exact runPkt_next _ _ _ _
  · exact runPkt_next _ _ _ _
  · exact runPkt_next _ _ _ _
  · exact runPkt_next _ _ _ _
  · exact runPkt_next _ _ _ _
  · exact runPkt_next _ _ _ _
  · obtain ⟨t, ht⟩ := runPkt_next opTroupeRemoveMember h p s
    unfold execTroupeRemoveMember
    rw [ht]
    exact ⟨_, rfl⟩
  · exact runPkt_next _ _ _ _
  · exact execOther_next _ _ _ _

theorem cmdHed_next (opcode : Nat) (h : Hdr) (p : Bytes) (s : State) : ∃ t, cmdHed opcode h p s = .next t := by
  unfold cmdHed
  split
  · exact runPkt_next _ _ _ _
  · exact runPkt_next _ _ _ _
  · exact runPkt_next _ _ _ _
  · exact runPkt_next _ _ _ _
  · exact runPkt_next _ _ _ _
  · exact execOther_next _ _ _ _

theorem cmdCip_next (opcode : Nat) (h : Hdr) (p : Bytes) (s : State) : ∃ t, cmdCip opcode h p s = .next t := by
  unfold cmdCip
  split
  · exact runPkt_next _ _ _ _
  · exact runPkt_next _ _ _ _
  · exact runPkt_next _ _ _ _
  · obtain ⟨t, ht⟩ := runPkt_next opCipCrypt h p s
    unfold execCipCrypt
    rw [ht]
    exact ⟨_, rfl⟩
  · exact execOther_next _ _ _ _

theorem cmdSto_next (opcode : Nat) (h : Hdr) (p data : Bytes) (s : State) : ∃ t, cmdSto opcode h p data s = .next t := by
  unfold cmdSto
  split
  · exact runPkt_next _ _ _ _
  · exact runPkt_next _ _ _ _
  · exact runPkt_next _ _ _ _
  · obtain ⟨t, ht⟩ := runPkt_next opDetachNamespace h p s
    unfold execDetachNamespace
    rw [ht]
    exact ⟨_, rfl⟩
  · exact runPkt_next _ _ _ _
  · exact runPkt_next _ _ _ _
  · exact runPkt_next _ _ _ _
  · exact runPkt_next _ _ _ _
  · exact execOther_next _ _ _ _

theorem cmdCkp_next (opcode : Nat) (h : Hdr) (p : Bytes) (s : State) : ∃ t, cmdCkp opcode h p s = .next t := by
  unfold cmdCkp
  split
  · exact runPkt_next _ _ _ _
  · exact runPkt_next _ _ _ _
  · exact runPkt_next _ _ _ _
  · exact runPkt_next _ _ _ _
  · exact runPkt_next _ _ _ _
  · exact runPkt_next _ _ _ _
  · exact runPkt_next _ _ _ _
  · exact runPkt_next _ _ _ _
  · exact runPkt_next _ _ _ _
  · exact execOther_next _ _ _ _

theorem cmdObs_next (opcode : Nat) (h : Hdr) (p : Bytes) (s : State) : ∃ t, cmdObs opcode h p s = .next t := by
  unfold cmdObs
  split
  · exact runPkt_next _ _ _ _
  · exact runPkt_next _ _ _ _
  · exact runPkt_next _ _ _ _
  · exact runPkt_next _ _ _ _
  · exact runPkt_next _ _ _ _
  · exact runPkt_next _ _ _ _
  · exact runPkt_next _ _ _ _
  · exact runPkt_next _ _ _ _
  · exact runPkt_next _ _ _ _
  · exact runPkt_next _ _ _ _
  · exact execOther_next _ _ _ _

theorem cmdFw_next (opcode : Nat) (h : Hdr) (p : Bytes) (s : State) : ∃ t, cmdFw opcode h p s = .next t := by
  unfold cmdFw
  split
  · exact runPkt_next _ _ _ _
  · exact runPkt_next _ _ _ _
  · exact runPkt_next _ _ _ _
  · exact runPkt_next _ _ _ _
  · exact runPkt_next _ _ _ _
  · exact runPkt_next _ _ _ _
  · exact runPkt_next _ _ _ _
  · exact runPkt_next _ _ _ _
  · exact runPkt_next _ _ _ _
  · exact execOther_next _ _ _ _

theorem cmdVf_next (opcode : Nat) (h : Hdr) (p data : Bytes) (s : State) : ∃ t, cmdVf opcode h p data s = .next t := by
  unfold cmdVf
  split
  · exact runPkt_next _ _ _ _
  · exact runPkt_next _ _ _ _
  · exact runPkt_next _ _ _ _
  · exact runPkt_next _ _ _ _
  · exact runPkt_next _ _ _ _
  · exact runPkt_next _ _ _ _
  · exact runPkt_next _ _ _ _
  · exact runPkt_next _ _ _ _
  · exact runPkt_next _ _ _ _
  · exact execOther_next _ _ _ _

/-- A command of any opcode is answered by a next state. -/
theorem execOpcode_next (opcode : Nat) (h : Hdr) (p data : Bytes) (s : State) : ∃ t, execOpcode opcode h p data s = .next t := by
  unfold execOpcode
  split
  · exact cmdModule_next _ _ _ _
  · exact cmdCue_next _ _ _ _
  · exact cmdTap_next _ _ _ _
  · exact cmdShu_next _ _ _ _
  · exact cmdLoom_next _ _ _ _
  · exact cmdFeed_next _ _ _ _
  · exact cmdNet_next _ _ _ _
  · exact cmdHed_next _ _ _ _
  · exact cmdCip_next _ _ _ _
  · exact cmdSto_next _ _ _ _ _
  · exact cmdCkp_next _ _ _ _
  · exact cmdObs_next _ _ _ _
  · exact cmdFw_next _ _ _ _
  · exact cmdVf_next _ _ _ _ _
  · exact execOther_next _ _ _ _

end Sys2Proof.Laws
end

