-- ==== Sys2Proof/Laws/State.lean ====
section
/-!
SUPPORT. One lemma per field of `State` and per update of `State`, true by `rfl`, so that no later proof unfolds a
record update.
-/
namespace Sys2Proof.Machine

@[simp] theorem State.upPending_pending (s : State) (f : List Instr → List Instr) : (s.upPending f).pending = f s.pending := rfl
@[simp] theorem State.upPending_out (s : State) (f : List Instr → List Instr) : (s.upPending f).out = s.out := rfl
@[simp] theorem State.upPending_free (s : State) (f : List Instr → List Instr) : (s.upPending f).free = s.free := rfl
@[simp] theorem State.upPending_gddr (s : State) (f : List Instr → List Instr) : (s.upPending f).gddr = s.gddr := rfl
@[simp] theorem State.upPending_glb (s : State) (f : List Instr → List Instr) : (s.upPending f).glb = s.glb := rfl
@[simp] theorem State.upPending_aon (s : State) (f : List Instr → List Instr) : (s.upPending f).aon = s.aon := rfl
@[simp] theorem State.upPending_cue (s : State) (f : List Instr → List Instr) : (s.upPending f).cue = s.cue := rfl
@[simp] theorem State.upPending_cmd (s : State) (f : List Instr → List Instr) : (s.upPending f).cmd = s.cmd := rfl
@[simp] theorem State.upPending_sto (s : State) (f : List Instr → List Instr) : (s.upPending f).sto = s.sto := rfl
@[simp] theorem State.upPending_net (s : State) (f : List Instr → List Instr) : (s.upPending f).net = s.net := rfl
@[simp] theorem State.upPending_hed (s : State) (f : List Instr → List Instr) : (s.upPending f).hed = s.hed := rfl
@[simp] theorem State.upPending_ctx (s : State) (f : List Instr → List Instr) : (s.upPending f).ctx = s.ctx := rfl
@[simp] theorem State.upPending_cip (s : State) (f : List Instr → List Instr) : (s.upPending f).cip = s.cip := rfl
@[simp] theorem State.upPending_shu (s : State) (f : List Instr → List Instr) : (s.upPending f).shu = s.shu := rfl
@[simp] theorem State.upPending_tap (s : State) (f : List Instr → List Instr) : (s.upPending f).tap = s.tap := rfl
@[simp] theorem State.upPending_tapc (s : State) (f : List Instr → List Instr) : (s.upPending f).tapc = s.tapc := rfl
@[simp] theorem State.upPending_loom (s : State) (f : List Instr → List Instr) : (s.upPending f).loom = s.loom := rfl
@[simp] theorem State.upPending_feed (s : State) (f : List Instr → List Instr) : (s.upPending f).feed = s.feed := rfl
@[simp] theorem State.upPending_lat (s : State) (f : List Instr → List Instr) : (s.upPending f).lat = s.lat := rfl
@[simp] theorem State.upPending_ras (s : State) (f : List Instr → List Instr) : (s.upPending f).ras = s.ras := rfl
@[simp] theorem State.upPending_ckp (s : State) (f : List Instr → List Instr) : (s.upPending f).ckp = s.ckp := rfl
@[simp] theorem State.upPending_stg (s : State) (f : List Instr → List Instr) : (s.upPending f).stg = s.stg := rfl
@[simp] theorem State.upPending_onb (s : State) (f : List Instr → List Instr) : (s.upPending f).onb = s.onb := rfl
@[simp] theorem State.upPending_call (s : State) (f : List Instr → List Instr) : (s.upPending f).call = s.call := rfl
@[simp] theorem State.upPending_host (s : State) (f : List Instr → List Instr) : (s.upPending f).host = s.host := rfl
@[simp] theorem State.upPending_flash (s : State) (f : List Instr → List Instr) : (s.upPending f).flash = s.flash := rfl
@[simp] theorem State.upPending_sm (s : State) (f : List Instr → List Instr) : (s.upPending f).sm = s.sm := rfl
@[simp] theorem State.upPending_obs (s : State) (f : List Instr → List Instr) : (s.upPending f).obs = s.obs := rfl
@[simp] theorem State.upPending_pwr (s : State) (f : List Instr → List Instr) : (s.upPending f).pwr = s.pwr := rfl
@[simp] theorem State.upOut_pending (s : State) (f : List Out → List Out) : (s.upOut f).pending = s.pending := rfl
@[simp] theorem State.upOut_out (s : State) (f : List Out → List Out) : (s.upOut f).out = f s.out := rfl
@[simp] theorem State.upOut_free (s : State) (f : List Out → List Out) : (s.upOut f).free = s.free := rfl
@[simp] theorem State.upOut_gddr (s : State) (f : List Out → List Out) : (s.upOut f).gddr = s.gddr := rfl
@[simp] theorem State.upOut_glb (s : State) (f : List Out → List Out) : (s.upOut f).glb = s.glb := rfl
@[simp] theorem State.upOut_aon (s : State) (f : List Out → List Out) : (s.upOut f).aon = s.aon := rfl
@[simp] theorem State.upOut_cue (s : State) (f : List Out → List Out) : (s.upOut f).cue = s.cue := rfl
@[simp] theorem State.upOut_cmd (s : State) (f : List Out → List Out) : (s.upOut f).cmd = s.cmd := rfl
@[simp] theorem State.upOut_sto (s : State) (f : List Out → List Out) : (s.upOut f).sto = s.sto := rfl
@[simp] theorem State.upOut_net (s : State) (f : List Out → List Out) : (s.upOut f).net = s.net := rfl
@[simp] theorem State.upOut_hed (s : State) (f : List Out → List Out) : (s.upOut f).hed = s.hed := rfl
@[simp] theorem State.upOut_ctx (s : State) (f : List Out → List Out) : (s.upOut f).ctx = s.ctx := rfl
@[simp] theorem State.upOut_cip (s : State) (f : List Out → List Out) : (s.upOut f).cip = s.cip := rfl
@[simp] theorem State.upOut_shu (s : State) (f : List Out → List Out) : (s.upOut f).shu = s.shu := rfl
@[simp] theorem State.upOut_tap (s : State) (f : List Out → List Out) : (s.upOut f).tap = s.tap := rfl
@[simp] theorem State.upOut_tapc (s : State) (f : List Out → List Out) : (s.upOut f).tapc = s.tapc := rfl
@[simp] theorem State.upOut_loom (s : State) (f : List Out → List Out) : (s.upOut f).loom = s.loom := rfl
@[simp] theorem State.upOut_feed (s : State) (f : List Out → List Out) : (s.upOut f).feed = s.feed := rfl
@[simp] theorem State.upOut_lat (s : State) (f : List Out → List Out) : (s.upOut f).lat = s.lat := rfl
@[simp] theorem State.upOut_ras (s : State) (f : List Out → List Out) : (s.upOut f).ras = s.ras := rfl
@[simp] theorem State.upOut_ckp (s : State) (f : List Out → List Out) : (s.upOut f).ckp = s.ckp := rfl
@[simp] theorem State.upOut_stg (s : State) (f : List Out → List Out) : (s.upOut f).stg = s.stg := rfl
@[simp] theorem State.upOut_onb (s : State) (f : List Out → List Out) : (s.upOut f).onb = s.onb := rfl
@[simp] theorem State.upOut_call (s : State) (f : List Out → List Out) : (s.upOut f).call = s.call := rfl
@[simp] theorem State.upOut_host (s : State) (f : List Out → List Out) : (s.upOut f).host = s.host := rfl
@[simp] theorem State.upOut_flash (s : State) (f : List Out → List Out) : (s.upOut f).flash = s.flash := rfl
@[simp] theorem State.upOut_sm (s : State) (f : List Out → List Out) : (s.upOut f).sm = s.sm := rfl
@[simp] theorem State.upOut_obs (s : State) (f : List Out → List Out) : (s.upOut f).obs = s.obs := rfl
@[simp] theorem State.upOut_pwr (s : State) (f : List Out → List Out) : (s.upOut f).pwr = s.pwr := rfl
@[simp] theorem State.upFree_pending (s : State) (f : Nat → Nat) : (s.upFree f).pending = s.pending := rfl
@[simp] theorem State.upFree_out (s : State) (f : Nat → Nat) : (s.upFree f).out = s.out := rfl
@[simp] theorem State.upFree_free (s : State) (f : Nat → Nat) : (s.upFree f).free = f s.free := rfl
@[simp] theorem State.upFree_gddr (s : State) (f : Nat → Nat) : (s.upFree f).gddr = s.gddr := rfl
@[simp] theorem State.upFree_glb (s : State) (f : Nat → Nat) : (s.upFree f).glb = s.glb := rfl
@[simp] theorem State.upFree_aon (s : State) (f : Nat → Nat) : (s.upFree f).aon = s.aon := rfl
@[simp] theorem State.upFree_cue (s : State) (f : Nat → Nat) : (s.upFree f).cue = s.cue := rfl
@[simp] theorem State.upFree_cmd (s : State) (f : Nat → Nat) : (s.upFree f).cmd = s.cmd := rfl
@[simp] theorem State.upFree_sto (s : State) (f : Nat → Nat) : (s.upFree f).sto = s.sto := rfl
@[simp] theorem State.upFree_net (s : State) (f : Nat → Nat) : (s.upFree f).net = s.net := rfl
@[simp] theorem State.upFree_hed (s : State) (f : Nat → Nat) : (s.upFree f).hed = s.hed := rfl
@[simp] theorem State.upFree_ctx (s : State) (f : Nat → Nat) : (s.upFree f).ctx = s.ctx := rfl
@[simp] theorem State.upFree_cip (s : State) (f : Nat → Nat) : (s.upFree f).cip = s.cip := rfl
@[simp] theorem State.upFree_shu (s : State) (f : Nat → Nat) : (s.upFree f).shu = s.shu := rfl
@[simp] theorem State.upFree_tap (s : State) (f : Nat → Nat) : (s.upFree f).tap = s.tap := rfl
@[simp] theorem State.upFree_tapc (s : State) (f : Nat → Nat) : (s.upFree f).tapc = s.tapc := rfl
@[simp] theorem State.upFree_loom (s : State) (f : Nat → Nat) : (s.upFree f).loom = s.loom := rfl
@[simp] theorem State.upFree_feed (s : State) (f : Nat → Nat) : (s.upFree f).feed = s.feed := rfl
@[simp] theorem State.upFree_lat (s : State) (f : Nat → Nat) : (s.upFree f).lat = s.lat := rfl
@[simp] theorem State.upFree_ras (s : State) (f : Nat → Nat) : (s.upFree f).ras = s.ras := rfl
@[simp] theorem State.upFree_ckp (s : State) (f : Nat → Nat) : (s.upFree f).ckp = s.ckp := rfl
@[simp] theorem State.upFree_stg (s : State) (f : Nat → Nat) : (s.upFree f).stg = s.stg := rfl
@[simp] theorem State.upFree_onb (s : State) (f : Nat → Nat) : (s.upFree f).onb = s.onb := rfl
@[simp] theorem State.upFree_call (s : State) (f : Nat → Nat) : (s.upFree f).call = s.call := rfl
@[simp] theorem State.upFree_host (s : State) (f : Nat → Nat) : (s.upFree f).host = s.host := rfl
@[simp] theorem State.upFree_flash (s : State) (f : Nat → Nat) : (s.upFree f).flash = s.flash := rfl
@[simp] theorem State.upFree_sm (s : State) (f : Nat → Nat) : (s.upFree f).sm = s.sm := rfl
@[simp] theorem State.upFree_obs (s : State) (f : Nat → Nat) : (s.upFree f).obs = s.obs := rfl
@[simp] theorem State.upFree_pwr (s : State) (f : Nat → Nat) : (s.upFree f).pwr = s.pwr := rfl
@[simp] theorem State.upGddr_pending (s : State) (f : List (Nat × BitVec 8) → List (Nat × BitVec 8)) : (s.upGddr f).pending = s.pending := rfl
@[simp] theorem State.upGddr_out (s : State) (f : List (Nat × BitVec 8) → List (Nat × BitVec 8)) : (s.upGddr f).out = s.out := rfl
@[simp] theorem State.upGddr_free (s : State) (f : List (Nat × BitVec 8) → List (Nat × BitVec 8)) : (s.upGddr f).free = s.free := rfl
@[simp] theorem State.upGddr_gddr (s : State) (f : List (Nat × BitVec 8) → List (Nat × BitVec 8)) : (s.upGddr f).gddr = f s.gddr := rfl
@[simp] theorem State.upGddr_glb (s : State) (f : List (Nat × BitVec 8) → List (Nat × BitVec 8)) : (s.upGddr f).glb = s.glb := rfl
@[simp] theorem State.upGddr_aon (s : State) (f : List (Nat × BitVec 8) → List (Nat × BitVec 8)) : (s.upGddr f).aon = s.aon := rfl
@[simp] theorem State.upGddr_cue (s : State) (f : List (Nat × BitVec 8) → List (Nat × BitVec 8)) : (s.upGddr f).cue = s.cue := rfl
@[simp] theorem State.upGddr_cmd (s : State) (f : List (Nat × BitVec 8) → List (Nat × BitVec 8)) : (s.upGddr f).cmd = s.cmd := rfl
@[simp] theorem State.upGddr_sto (s : State) (f : List (Nat × BitVec 8) → List (Nat × BitVec 8)) : (s.upGddr f).sto = s.sto := rfl
@[simp] theorem State.upGddr_net (s : State) (f : List (Nat × BitVec 8) → List (Nat × BitVec 8)) : (s.upGddr f).net = s.net := rfl
@[simp] theorem State.upGddr_hed (s : State) (f : List (Nat × BitVec 8) → List (Nat × BitVec 8)) : (s.upGddr f).hed = s.hed := rfl
@[simp] theorem State.upGddr_ctx (s : State) (f : List (Nat × BitVec 8) → List (Nat × BitVec 8)) : (s.upGddr f).ctx = s.ctx := rfl
@[simp] theorem State.upGddr_cip (s : State) (f : List (Nat × BitVec 8) → List (Nat × BitVec 8)) : (s.upGddr f).cip = s.cip := rfl
@[simp] theorem State.upGddr_shu (s : State) (f : List (Nat × BitVec 8) → List (Nat × BitVec 8)) : (s.upGddr f).shu = s.shu := rfl
@[simp] theorem State.upGddr_tap (s : State) (f : List (Nat × BitVec 8) → List (Nat × BitVec 8)) : (s.upGddr f).tap = s.tap := rfl
@[simp] theorem State.upGddr_tapc (s : State) (f : List (Nat × BitVec 8) → List (Nat × BitVec 8)) : (s.upGddr f).tapc = s.tapc := rfl
@[simp] theorem State.upGddr_loom (s : State) (f : List (Nat × BitVec 8) → List (Nat × BitVec 8)) : (s.upGddr f).loom = s.loom := rfl
@[simp] theorem State.upGddr_feed (s : State) (f : List (Nat × BitVec 8) → List (Nat × BitVec 8)) : (s.upGddr f).feed = s.feed := rfl
@[simp] theorem State.upGddr_lat (s : State) (f : List (Nat × BitVec 8) → List (Nat × BitVec 8)) : (s.upGddr f).lat = s.lat := rfl
@[simp] theorem State.upGddr_ras (s : State) (f : List (Nat × BitVec 8) → List (Nat × BitVec 8)) : (s.upGddr f).ras = s.ras := rfl
@[simp] theorem State.upGddr_ckp (s : State) (f : List (Nat × BitVec 8) → List (Nat × BitVec 8)) : (s.upGddr f).ckp = s.ckp := rfl
@[simp] theorem State.upGddr_stg (s : State) (f : List (Nat × BitVec 8) → List (Nat × BitVec 8)) : (s.upGddr f).stg = s.stg := rfl
@[simp] theorem State.upGddr_onb (s : State) (f : List (Nat × BitVec 8) → List (Nat × BitVec 8)) : (s.upGddr f).onb = s.onb := rfl
@[simp] theorem State.upGddr_call (s : State) (f : List (Nat × BitVec 8) → List (Nat × BitVec 8)) : (s.upGddr f).call = s.call := rfl
@[simp] theorem State.upGddr_host (s : State) (f : List (Nat × BitVec 8) → List (Nat × BitVec 8)) : (s.upGddr f).host = s.host := rfl
@[simp] theorem State.upGddr_flash (s : State) (f : List (Nat × BitVec 8) → List (Nat × BitVec 8)) : (s.upGddr f).flash = s.flash := rfl
@[simp] theorem State.upGddr_sm (s : State) (f : List (Nat × BitVec 8) → List (Nat × BitVec 8)) : (s.upGddr f).sm = s.sm := rfl
@[simp] theorem State.upGddr_obs (s : State) (f : List (Nat × BitVec 8) → List (Nat × BitVec 8)) : (s.upGddr f).obs = s.obs := rfl
@[simp] theorem State.upGddr_pwr (s : State) (f : List (Nat × BitVec 8) → List (Nat × BitVec 8)) : (s.upGddr f).pwr = s.pwr := rfl
@[simp] theorem State.upGlb_pending (s : State) (f : Glb → Glb) : (s.upGlb f).pending = s.pending := rfl
@[simp] theorem State.upGlb_out (s : State) (f : Glb → Glb) : (s.upGlb f).out = s.out := rfl
@[simp] theorem State.upGlb_free (s : State) (f : Glb → Glb) : (s.upGlb f).free = s.free := rfl
@[simp] theorem State.upGlb_gddr (s : State) (f : Glb → Glb) : (s.upGlb f).gddr = s.gddr := rfl
@[simp] theorem State.upGlb_glb (s : State) (f : Glb → Glb) : (s.upGlb f).glb = f s.glb := rfl
@[simp] theorem State.upGlb_aon (s : State) (f : Glb → Glb) : (s.upGlb f).aon = s.aon := rfl
@[simp] theorem State.upGlb_cue (s : State) (f : Glb → Glb) : (s.upGlb f).cue = s.cue := rfl
@[simp] theorem State.upGlb_cmd (s : State) (f : Glb → Glb) : (s.upGlb f).cmd = s.cmd := rfl
@[simp] theorem State.upGlb_sto (s : State) (f : Glb → Glb) : (s.upGlb f).sto = s.sto := rfl
@[simp] theorem State.upGlb_net (s : State) (f : Glb → Glb) : (s.upGlb f).net = s.net := rfl
@[simp] theorem State.upGlb_hed (s : State) (f : Glb → Glb) : (s.upGlb f).hed = s.hed := rfl
@[simp] theorem State.upGlb_ctx (s : State) (f : Glb → Glb) : (s.upGlb f).ctx = s.ctx := rfl
@[simp] theorem State.upGlb_cip (s : State) (f : Glb → Glb) : (s.upGlb f).cip = s.cip := rfl
@[simp] theorem State.upGlb_shu (s : State) (f : Glb → Glb) : (s.upGlb f).shu = s.shu := rfl
@[simp] theorem State.upGlb_tap (s : State) (f : Glb → Glb) : (s.upGlb f).tap = s.tap := rfl
@[simp] theorem State.upGlb_tapc (s : State) (f : Glb → Glb) : (s.upGlb f).tapc = s.tapc := rfl
@[simp] theorem State.upGlb_loom (s : State) (f : Glb → Glb) : (s.upGlb f).loom = s.loom := rfl
@[simp] theorem State.upGlb_feed (s : State) (f : Glb → Glb) : (s.upGlb f).feed = s.feed := rfl
@[simp] theorem State.upGlb_lat (s : State) (f : Glb → Glb) : (s.upGlb f).lat = s.lat := rfl
@[simp] theorem State.upGlb_ras (s : State) (f : Glb → Glb) : (s.upGlb f).ras = s.ras := rfl
@[simp] theorem State.upGlb_ckp (s : State) (f : Glb → Glb) : (s.upGlb f).ckp = s.ckp := rfl
@[simp] theorem State.upGlb_stg (s : State) (f : Glb → Glb) : (s.upGlb f).stg = s.stg := rfl
@[simp] theorem State.upGlb_onb (s : State) (f : Glb → Glb) : (s.upGlb f).onb = s.onb := rfl
@[simp] theorem State.upGlb_call (s : State) (f : Glb → Glb) : (s.upGlb f).call = s.call := rfl
@[simp] theorem State.upGlb_host (s : State) (f : Glb → Glb) : (s.upGlb f).host = s.host := rfl
@[simp] theorem State.upGlb_flash (s : State) (f : Glb → Glb) : (s.upGlb f).flash = s.flash := rfl
@[simp] theorem State.upGlb_sm (s : State) (f : Glb → Glb) : (s.upGlb f).sm = s.sm := rfl
@[simp] theorem State.upGlb_obs (s : State) (f : Glb → Glb) : (s.upGlb f).obs = s.obs := rfl
@[simp] theorem State.upGlb_pwr (s : State) (f : Glb → Glb) : (s.upGlb f).pwr = s.pwr := rfl
@[simp] theorem State.upAon_pending (s : State) (f : Aon → Aon) : (s.upAon f).pending = s.pending := rfl
@[simp] theorem State.upAon_out (s : State) (f : Aon → Aon) : (s.upAon f).out = s.out := rfl
@[simp] theorem State.upAon_free (s : State) (f : Aon → Aon) : (s.upAon f).free = s.free := rfl
@[simp] theorem State.upAon_gddr (s : State) (f : Aon → Aon) : (s.upAon f).gddr = s.gddr := rfl
@[simp] theorem State.upAon_glb (s : State) (f : Aon → Aon) : (s.upAon f).glb = s.glb := rfl
@[simp] theorem State.upAon_aon (s : State) (f : Aon → Aon) : (s.upAon f).aon = f s.aon := rfl
@[simp] theorem State.upAon_cue (s : State) (f : Aon → Aon) : (s.upAon f).cue = s.cue := rfl
@[simp] theorem State.upAon_cmd (s : State) (f : Aon → Aon) : (s.upAon f).cmd = s.cmd := rfl
@[simp] theorem State.upAon_sto (s : State) (f : Aon → Aon) : (s.upAon f).sto = s.sto := rfl
@[simp] theorem State.upAon_net (s : State) (f : Aon → Aon) : (s.upAon f).net = s.net := rfl
@[simp] theorem State.upAon_hed (s : State) (f : Aon → Aon) : (s.upAon f).hed = s.hed := rfl
@[simp] theorem State.upAon_ctx (s : State) (f : Aon → Aon) : (s.upAon f).ctx = s.ctx := rfl
@[simp] theorem State.upAon_cip (s : State) (f : Aon → Aon) : (s.upAon f).cip = s.cip := rfl
@[simp] theorem State.upAon_shu (s : State) (f : Aon → Aon) : (s.upAon f).shu = s.shu := rfl
@[simp] theorem State.upAon_tap (s : State) (f : Aon → Aon) : (s.upAon f).tap = s.tap := rfl
@[simp] theorem State.upAon_tapc (s : State) (f : Aon → Aon) : (s.upAon f).tapc = s.tapc := rfl
@[simp] theorem State.upAon_loom (s : State) (f : Aon → Aon) : (s.upAon f).loom = s.loom := rfl
@[simp] theorem State.upAon_feed (s : State) (f : Aon → Aon) : (s.upAon f).feed = s.feed := rfl
@[simp] theorem State.upAon_lat (s : State) (f : Aon → Aon) : (s.upAon f).lat = s.lat := rfl
@[simp] theorem State.upAon_ras (s : State) (f : Aon → Aon) : (s.upAon f).ras = s.ras := rfl
@[simp] theorem State.upAon_ckp (s : State) (f : Aon → Aon) : (s.upAon f).ckp = s.ckp := rfl
@[simp] theorem State.upAon_stg (s : State) (f : Aon → Aon) : (s.upAon f).stg = s.stg := rfl
@[simp] theorem State.upAon_onb (s : State) (f : Aon → Aon) : (s.upAon f).onb = s.onb := rfl
@[simp] theorem State.upAon_call (s : State) (f : Aon → Aon) : (s.upAon f).call = s.call := rfl
@[simp] theorem State.upAon_host (s : State) (f : Aon → Aon) : (s.upAon f).host = s.host := rfl
@[simp] theorem State.upAon_flash (s : State) (f : Aon → Aon) : (s.upAon f).flash = s.flash := rfl
@[simp] theorem State.upAon_sm (s : State) (f : Aon → Aon) : (s.upAon f).sm = s.sm := rfl
@[simp] theorem State.upAon_obs (s : State) (f : Aon → Aon) : (s.upAon f).obs = s.obs := rfl
@[simp] theorem State.upAon_pwr (s : State) (f : Aon → Aon) : (s.upAon f).pwr = s.pwr := rfl
@[simp] theorem State.upCue_pending (s : State) (f : Cue → Cue) : (s.upCue f).pending = s.pending := rfl
@[simp] theorem State.upCue_out (s : State) (f : Cue → Cue) : (s.upCue f).out = s.out := rfl
@[simp] theorem State.upCue_free (s : State) (f : Cue → Cue) : (s.upCue f).free = s.free := rfl
@[simp] theorem State.upCue_gddr (s : State) (f : Cue → Cue) : (s.upCue f).gddr = s.gddr := rfl
@[simp] theorem State.upCue_glb (s : State) (f : Cue → Cue) : (s.upCue f).glb = s.glb := rfl
@[simp] theorem State.upCue_aon (s : State) (f : Cue → Cue) : (s.upCue f).aon = s.aon := rfl
@[simp] theorem State.upCue_cue (s : State) (f : Cue → Cue) : (s.upCue f).cue = f s.cue := rfl
@[simp] theorem State.upCue_cmd (s : State) (f : Cue → Cue) : (s.upCue f).cmd = s.cmd := rfl
@[simp] theorem State.upCue_sto (s : State) (f : Cue → Cue) : (s.upCue f).sto = s.sto := rfl
@[simp] theorem State.upCue_net (s : State) (f : Cue → Cue) : (s.upCue f).net = s.net := rfl
@[simp] theorem State.upCue_hed (s : State) (f : Cue → Cue) : (s.upCue f).hed = s.hed := rfl
@[simp] theorem State.upCue_ctx (s : State) (f : Cue → Cue) : (s.upCue f).ctx = s.ctx := rfl
@[simp] theorem State.upCue_cip (s : State) (f : Cue → Cue) : (s.upCue f).cip = s.cip := rfl
@[simp] theorem State.upCue_shu (s : State) (f : Cue → Cue) : (s.upCue f).shu = s.shu := rfl
@[simp] theorem State.upCue_tap (s : State) (f : Cue → Cue) : (s.upCue f).tap = s.tap := rfl
@[simp] theorem State.upCue_tapc (s : State) (f : Cue → Cue) : (s.upCue f).tapc = s.tapc := rfl
@[simp] theorem State.upCue_loom (s : State) (f : Cue → Cue) : (s.upCue f).loom = s.loom := rfl
@[simp] theorem State.upCue_feed (s : State) (f : Cue → Cue) : (s.upCue f).feed = s.feed := rfl
@[simp] theorem State.upCue_lat (s : State) (f : Cue → Cue) : (s.upCue f).lat = s.lat := rfl
@[simp] theorem State.upCue_ras (s : State) (f : Cue → Cue) : (s.upCue f).ras = s.ras := rfl
@[simp] theorem State.upCue_ckp (s : State) (f : Cue → Cue) : (s.upCue f).ckp = s.ckp := rfl
@[simp] theorem State.upCue_stg (s : State) (f : Cue → Cue) : (s.upCue f).stg = s.stg := rfl
@[simp] theorem State.upCue_onb (s : State) (f : Cue → Cue) : (s.upCue f).onb = s.onb := rfl
@[simp] theorem State.upCue_call (s : State) (f : Cue → Cue) : (s.upCue f).call = s.call := rfl
@[simp] theorem State.upCue_host (s : State) (f : Cue → Cue) : (s.upCue f).host = s.host := rfl
@[simp] theorem State.upCue_flash (s : State) (f : Cue → Cue) : (s.upCue f).flash = s.flash := rfl
@[simp] theorem State.upCue_sm (s : State) (f : Cue → Cue) : (s.upCue f).sm = s.sm := rfl
@[simp] theorem State.upCue_obs (s : State) (f : Cue → Cue) : (s.upCue f).obs = s.obs := rfl
@[simp] theorem State.upCue_pwr (s : State) (f : Cue → Cue) : (s.upCue f).pwr = s.pwr := rfl
@[simp] theorem State.upCmd_pending (s : State) (f : Cmd → Cmd) : (s.upCmd f).pending = s.pending := rfl
@[simp] theorem State.upCmd_out (s : State) (f : Cmd → Cmd) : (s.upCmd f).out = s.out := rfl
@[simp] theorem State.upCmd_free (s : State) (f : Cmd → Cmd) : (s.upCmd f).free = s.free := rfl
@[simp] theorem State.upCmd_gddr (s : State) (f : Cmd → Cmd) : (s.upCmd f).gddr = s.gddr := rfl
@[simp] theorem State.upCmd_glb (s : State) (f : Cmd → Cmd) : (s.upCmd f).glb = s.glb := rfl
@[simp] theorem State.upCmd_aon (s : State) (f : Cmd → Cmd) : (s.upCmd f).aon = s.aon := rfl
@[simp] theorem State.upCmd_cue (s : State) (f : Cmd → Cmd) : (s.upCmd f).cue = s.cue := rfl
@[simp] theorem State.upCmd_cmd (s : State) (f : Cmd → Cmd) : (s.upCmd f).cmd = f s.cmd := rfl
@[simp] theorem State.upCmd_sto (s : State) (f : Cmd → Cmd) : (s.upCmd f).sto = s.sto := rfl
@[simp] theorem State.upCmd_net (s : State) (f : Cmd → Cmd) : (s.upCmd f).net = s.net := rfl
@[simp] theorem State.upCmd_hed (s : State) (f : Cmd → Cmd) : (s.upCmd f).hed = s.hed := rfl
@[simp] theorem State.upCmd_ctx (s : State) (f : Cmd → Cmd) : (s.upCmd f).ctx = s.ctx := rfl
@[simp] theorem State.upCmd_cip (s : State) (f : Cmd → Cmd) : (s.upCmd f).cip = s.cip := rfl
@[simp] theorem State.upCmd_shu (s : State) (f : Cmd → Cmd) : (s.upCmd f).shu = s.shu := rfl
@[simp] theorem State.upCmd_tap (s : State) (f : Cmd → Cmd) : (s.upCmd f).tap = s.tap := rfl
@[simp] theorem State.upCmd_tapc (s : State) (f : Cmd → Cmd) : (s.upCmd f).tapc = s.tapc := rfl
@[simp] theorem State.upCmd_loom (s : State) (f : Cmd → Cmd) : (s.upCmd f).loom = s.loom := rfl
@[simp] theorem State.upCmd_feed (s : State) (f : Cmd → Cmd) : (s.upCmd f).feed = s.feed := rfl
@[simp] theorem State.upCmd_lat (s : State) (f : Cmd → Cmd) : (s.upCmd f).lat = s.lat := rfl
@[simp] theorem State.upCmd_ras (s : State) (f : Cmd → Cmd) : (s.upCmd f).ras = s.ras := rfl
@[simp] theorem State.upCmd_ckp (s : State) (f : Cmd → Cmd) : (s.upCmd f).ckp = s.ckp := rfl
@[simp] theorem State.upCmd_stg (s : State) (f : Cmd → Cmd) : (s.upCmd f).stg = s.stg := rfl
@[simp] theorem State.upCmd_onb (s : State) (f : Cmd → Cmd) : (s.upCmd f).onb = s.onb := rfl
@[simp] theorem State.upCmd_call (s : State) (f : Cmd → Cmd) : (s.upCmd f).call = s.call := rfl
@[simp] theorem State.upCmd_host (s : State) (f : Cmd → Cmd) : (s.upCmd f).host = s.host := rfl
@[simp] theorem State.upCmd_flash (s : State) (f : Cmd → Cmd) : (s.upCmd f).flash = s.flash := rfl
@[simp] theorem State.upCmd_sm (s : State) (f : Cmd → Cmd) : (s.upCmd f).sm = s.sm := rfl
@[simp] theorem State.upCmd_obs (s : State) (f : Cmd → Cmd) : (s.upCmd f).obs = s.obs := rfl
@[simp] theorem State.upCmd_pwr (s : State) (f : Cmd → Cmd) : (s.upCmd f).pwr = s.pwr := rfl
@[simp] theorem State.upSto_pending (s : State) (f : Sto → Sto) : (s.upSto f).pending = s.pending := rfl
@[simp] theorem State.upSto_out (s : State) (f : Sto → Sto) : (s.upSto f).out = s.out := rfl
@[simp] theorem State.upSto_free (s : State) (f : Sto → Sto) : (s.upSto f).free = s.free := rfl
@[simp] theorem State.upSto_gddr (s : State) (f : Sto → Sto) : (s.upSto f).gddr = s.gddr := rfl
@[simp] theorem State.upSto_glb (s : State) (f : Sto → Sto) : (s.upSto f).glb = s.glb := rfl
@[simp] theorem State.upSto_aon (s : State) (f : Sto → Sto) : (s.upSto f).aon = s.aon := rfl
@[simp] theorem State.upSto_cue (s : State) (f : Sto → Sto) : (s.upSto f).cue = s.cue := rfl
@[simp] theorem State.upSto_cmd (s : State) (f : Sto → Sto) : (s.upSto f).cmd = s.cmd := rfl
@[simp] theorem State.upSto_sto (s : State) (f : Sto → Sto) : (s.upSto f).sto = f s.sto := rfl
@[simp] theorem State.upSto_net (s : State) (f : Sto → Sto) : (s.upSto f).net = s.net := rfl
@[simp] theorem State.upSto_hed (s : State) (f : Sto → Sto) : (s.upSto f).hed = s.hed := rfl
@[simp] theorem State.upSto_ctx (s : State) (f : Sto → Sto) : (s.upSto f).ctx = s.ctx := rfl
@[simp] theorem State.upSto_cip (s : State) (f : Sto → Sto) : (s.upSto f).cip = s.cip := rfl
@[simp] theorem State.upSto_shu (s : State) (f : Sto → Sto) : (s.upSto f).shu = s.shu := rfl
@[simp] theorem State.upSto_tap (s : State) (f : Sto → Sto) : (s.upSto f).tap = s.tap := rfl
@[simp] theorem State.upSto_tapc (s : State) (f : Sto → Sto) : (s.upSto f).tapc = s.tapc := rfl
@[simp] theorem State.upSto_loom (s : State) (f : Sto → Sto) : (s.upSto f).loom = s.loom := rfl
@[simp] theorem State.upSto_feed (s : State) (f : Sto → Sto) : (s.upSto f).feed = s.feed := rfl
@[simp] theorem State.upSto_lat (s : State) (f : Sto → Sto) : (s.upSto f).lat = s.lat := rfl
@[simp] theorem State.upSto_ras (s : State) (f : Sto → Sto) : (s.upSto f).ras = s.ras := rfl
@[simp] theorem State.upSto_ckp (s : State) (f : Sto → Sto) : (s.upSto f).ckp = s.ckp := rfl
@[simp] theorem State.upSto_stg (s : State) (f : Sto → Sto) : (s.upSto f).stg = s.stg := rfl
@[simp] theorem State.upSto_onb (s : State) (f : Sto → Sto) : (s.upSto f).onb = s.onb := rfl
@[simp] theorem State.upSto_call (s : State) (f : Sto → Sto) : (s.upSto f).call = s.call := rfl
@[simp] theorem State.upSto_host (s : State) (f : Sto → Sto) : (s.upSto f).host = s.host := rfl
@[simp] theorem State.upSto_flash (s : State) (f : Sto → Sto) : (s.upSto f).flash = s.flash := rfl
@[simp] theorem State.upSto_sm (s : State) (f : Sto → Sto) : (s.upSto f).sm = s.sm := rfl
@[simp] theorem State.upSto_obs (s : State) (f : Sto → Sto) : (s.upSto f).obs = s.obs := rfl
@[simp] theorem State.upSto_pwr (s : State) (f : Sto → Sto) : (s.upSto f).pwr = s.pwr := rfl
@[simp] theorem State.upNet_pending (s : State) (f : Net → Net) : (s.upNet f).pending = s.pending := rfl
@[simp] theorem State.upNet_out (s : State) (f : Net → Net) : (s.upNet f).out = s.out := rfl
@[simp] theorem State.upNet_free (s : State) (f : Net → Net) : (s.upNet f).free = s.free := rfl
@[simp] theorem State.upNet_gddr (s : State) (f : Net → Net) : (s.upNet f).gddr = s.gddr := rfl
@[simp] theorem State.upNet_glb (s : State) (f : Net → Net) : (s.upNet f).glb = s.glb := rfl
@[simp] theorem State.upNet_aon (s : State) (f : Net → Net) : (s.upNet f).aon = s.aon := rfl
@[simp] theorem State.upNet_cue (s : State) (f : Net → Net) : (s.upNet f).cue = s.cue := rfl
@[simp] theorem State.upNet_cmd (s : State) (f : Net → Net) : (s.upNet f).cmd = s.cmd := rfl
@[simp] theorem State.upNet_sto (s : State) (f : Net → Net) : (s.upNet f).sto = s.sto := rfl
@[simp] theorem State.upNet_net (s : State) (f : Net → Net) : (s.upNet f).net = f s.net := rfl
@[simp] theorem State.upNet_hed (s : State) (f : Net → Net) : (s.upNet f).hed = s.hed := rfl
@[simp] theorem State.upNet_ctx (s : State) (f : Net → Net) : (s.upNet f).ctx = s.ctx := rfl
@[simp] theorem State.upNet_cip (s : State) (f : Net → Net) : (s.upNet f).cip = s.cip := rfl
@[simp] theorem State.upNet_shu (s : State) (f : Net → Net) : (s.upNet f).shu = s.shu := rfl
@[simp] theorem State.upNet_tap (s : State) (f : Net → Net) : (s.upNet f).tap = s.tap := rfl
@[simp] theorem State.upNet_tapc (s : State) (f : Net → Net) : (s.upNet f).tapc = s.tapc := rfl
@[simp] theorem State.upNet_loom (s : State) (f : Net → Net) : (s.upNet f).loom = s.loom := rfl
@[simp] theorem State.upNet_feed (s : State) (f : Net → Net) : (s.upNet f).feed = s.feed := rfl
@[simp] theorem State.upNet_lat (s : State) (f : Net → Net) : (s.upNet f).lat = s.lat := rfl
@[simp] theorem State.upNet_ras (s : State) (f : Net → Net) : (s.upNet f).ras = s.ras := rfl
@[simp] theorem State.upNet_ckp (s : State) (f : Net → Net) : (s.upNet f).ckp = s.ckp := rfl
@[simp] theorem State.upNet_stg (s : State) (f : Net → Net) : (s.upNet f).stg = s.stg := rfl
@[simp] theorem State.upNet_onb (s : State) (f : Net → Net) : (s.upNet f).onb = s.onb := rfl
@[simp] theorem State.upNet_call (s : State) (f : Net → Net) : (s.upNet f).call = s.call := rfl
@[simp] theorem State.upNet_host (s : State) (f : Net → Net) : (s.upNet f).host = s.host := rfl
@[simp] theorem State.upNet_flash (s : State) (f : Net → Net) : (s.upNet f).flash = s.flash := rfl
@[simp] theorem State.upNet_sm (s : State) (f : Net → Net) : (s.upNet f).sm = s.sm := rfl
@[simp] theorem State.upNet_obs (s : State) (f : Net → Net) : (s.upNet f).obs = s.obs := rfl
@[simp] theorem State.upNet_pwr (s : State) (f : Net → Net) : (s.upNet f).pwr = s.pwr := rfl
@[simp] theorem State.upHed_pending (s : State) (f : Hed → Hed) : (s.upHed f).pending = s.pending := rfl
@[simp] theorem State.upHed_out (s : State) (f : Hed → Hed) : (s.upHed f).out = s.out := rfl
@[simp] theorem State.upHed_free (s : State) (f : Hed → Hed) : (s.upHed f).free = s.free := rfl
@[simp] theorem State.upHed_gddr (s : State) (f : Hed → Hed) : (s.upHed f).gddr = s.gddr := rfl
@[simp] theorem State.upHed_glb (s : State) (f : Hed → Hed) : (s.upHed f).glb = s.glb := rfl
@[simp] theorem State.upHed_aon (s : State) (f : Hed → Hed) : (s.upHed f).aon = s.aon := rfl
@[simp] theorem State.upHed_cue (s : State) (f : Hed → Hed) : (s.upHed f).cue = s.cue := rfl
@[simp] theorem State.upHed_cmd (s : State) (f : Hed → Hed) : (s.upHed f).cmd = s.cmd := rfl
@[simp] theorem State.upHed_sto (s : State) (f : Hed → Hed) : (s.upHed f).sto = s.sto := rfl
@[simp] theorem State.upHed_net (s : State) (f : Hed → Hed) : (s.upHed f).net = s.net := rfl
@[simp] theorem State.upHed_hed (s : State) (f : Hed → Hed) : (s.upHed f).hed = f s.hed := rfl
@[simp] theorem State.upHed_ctx (s : State) (f : Hed → Hed) : (s.upHed f).ctx = s.ctx := rfl
@[simp] theorem State.upHed_cip (s : State) (f : Hed → Hed) : (s.upHed f).cip = s.cip := rfl
@[simp] theorem State.upHed_shu (s : State) (f : Hed → Hed) : (s.upHed f).shu = s.shu := rfl
@[simp] theorem State.upHed_tap (s : State) (f : Hed → Hed) : (s.upHed f).tap = s.tap := rfl
@[simp] theorem State.upHed_tapc (s : State) (f : Hed → Hed) : (s.upHed f).tapc = s.tapc := rfl
@[simp] theorem State.upHed_loom (s : State) (f : Hed → Hed) : (s.upHed f).loom = s.loom := rfl
@[simp] theorem State.upHed_feed (s : State) (f : Hed → Hed) : (s.upHed f).feed = s.feed := rfl
@[simp] theorem State.upHed_lat (s : State) (f : Hed → Hed) : (s.upHed f).lat = s.lat := rfl
@[simp] theorem State.upHed_ras (s : State) (f : Hed → Hed) : (s.upHed f).ras = s.ras := rfl
@[simp] theorem State.upHed_ckp (s : State) (f : Hed → Hed) : (s.upHed f).ckp = s.ckp := rfl
@[simp] theorem State.upHed_stg (s : State) (f : Hed → Hed) : (s.upHed f).stg = s.stg := rfl
@[simp] theorem State.upHed_onb (s : State) (f : Hed → Hed) : (s.upHed f).onb = s.onb := rfl
@[simp] theorem State.upHed_call (s : State) (f : Hed → Hed) : (s.upHed f).call = s.call := rfl
@[simp] theorem State.upHed_host (s : State) (f : Hed → Hed) : (s.upHed f).host = s.host := rfl
@[simp] theorem State.upHed_flash (s : State) (f : Hed → Hed) : (s.upHed f).flash = s.flash := rfl
@[simp] theorem State.upHed_sm (s : State) (f : Hed → Hed) : (s.upHed f).sm = s.sm := rfl
@[simp] theorem State.upHed_obs (s : State) (f : Hed → Hed) : (s.upHed f).obs = s.obs := rfl
@[simp] theorem State.upHed_pwr (s : State) (f : Hed → Hed) : (s.upHed f).pwr = s.pwr := rfl
@[simp] theorem State.upCtx_pending (s : State) (f : Ctx → Ctx) : (s.upCtx f).pending = s.pending := rfl
@[simp] theorem State.upCtx_out (s : State) (f : Ctx → Ctx) : (s.upCtx f).out = s.out := rfl
@[simp] theorem State.upCtx_free (s : State) (f : Ctx → Ctx) : (s.upCtx f).free = s.free := rfl
@[simp] theorem State.upCtx_gddr (s : State) (f : Ctx → Ctx) : (s.upCtx f).gddr = s.gddr := rfl
@[simp] theorem State.upCtx_glb (s : State) (f : Ctx → Ctx) : (s.upCtx f).glb = s.glb := rfl
@[simp] theorem State.upCtx_aon (s : State) (f : Ctx → Ctx) : (s.upCtx f).aon = s.aon := rfl
@[simp] theorem State.upCtx_cue (s : State) (f : Ctx → Ctx) : (s.upCtx f).cue = s.cue := rfl
@[simp] theorem State.upCtx_cmd (s : State) (f : Ctx → Ctx) : (s.upCtx f).cmd = s.cmd := rfl
@[simp] theorem State.upCtx_sto (s : State) (f : Ctx → Ctx) : (s.upCtx f).sto = s.sto := rfl
@[simp] theorem State.upCtx_net (s : State) (f : Ctx → Ctx) : (s.upCtx f).net = s.net := rfl
@[simp] theorem State.upCtx_hed (s : State) (f : Ctx → Ctx) : (s.upCtx f).hed = s.hed := rfl
@[simp] theorem State.upCtx_ctx (s : State) (f : Ctx → Ctx) : (s.upCtx f).ctx = f s.ctx := rfl
@[simp] theorem State.upCtx_cip (s : State) (f : Ctx → Ctx) : (s.upCtx f).cip = s.cip := rfl
@[simp] theorem State.upCtx_shu (s : State) (f : Ctx → Ctx) : (s.upCtx f).shu = s.shu := rfl
@[simp] theorem State.upCtx_tap (s : State) (f : Ctx → Ctx) : (s.upCtx f).tap = s.tap := rfl
@[simp] theorem State.upCtx_tapc (s : State) (f : Ctx → Ctx) : (s.upCtx f).tapc = s.tapc := rfl
@[simp] theorem State.upCtx_loom (s : State) (f : Ctx → Ctx) : (s.upCtx f).loom = s.loom := rfl
@[simp] theorem State.upCtx_feed (s : State) (f : Ctx → Ctx) : (s.upCtx f).feed = s.feed := rfl
@[simp] theorem State.upCtx_lat (s : State) (f : Ctx → Ctx) : (s.upCtx f).lat = s.lat := rfl
@[simp] theorem State.upCtx_ras (s : State) (f : Ctx → Ctx) : (s.upCtx f).ras = s.ras := rfl
@[simp] theorem State.upCtx_ckp (s : State) (f : Ctx → Ctx) : (s.upCtx f).ckp = s.ckp := rfl
@[simp] theorem State.upCtx_stg (s : State) (f : Ctx → Ctx) : (s.upCtx f).stg = s.stg := rfl
@[simp] theorem State.upCtx_onb (s : State) (f : Ctx → Ctx) : (s.upCtx f).onb = s.onb := rfl
@[simp] theorem State.upCtx_call (s : State) (f : Ctx → Ctx) : (s.upCtx f).call = s.call := rfl
@[simp] theorem State.upCtx_host (s : State) (f : Ctx → Ctx) : (s.upCtx f).host = s.host := rfl
@[simp] theorem State.upCtx_flash (s : State) (f : Ctx → Ctx) : (s.upCtx f).flash = s.flash := rfl
@[simp] theorem State.upCtx_sm (s : State) (f : Ctx → Ctx) : (s.upCtx f).sm = s.sm := rfl
@[simp] theorem State.upCtx_obs (s : State) (f : Ctx → Ctx) : (s.upCtx f).obs = s.obs := rfl
@[simp] theorem State.upCtx_pwr (s : State) (f : Ctx → Ctx) : (s.upCtx f).pwr = s.pwr := rfl
@[simp] theorem State.upCip_pending (s : State) (f : Cip → Cip) : (s.upCip f).pending = s.pending := rfl
@[simp] theorem State.upCip_out (s : State) (f : Cip → Cip) : (s.upCip f).out = s.out := rfl
@[simp] theorem State.upCip_free (s : State) (f : Cip → Cip) : (s.upCip f).free = s.free := rfl
@[simp] theorem State.upCip_gddr (s : State) (f : Cip → Cip) : (s.upCip f).gddr = s.gddr := rfl
@[simp] theorem State.upCip_glb (s : State) (f : Cip → Cip) : (s.upCip f).glb = s.glb := rfl
@[simp] theorem State.upCip_aon (s : State) (f : Cip → Cip) : (s.upCip f).aon = s.aon := rfl
@[simp] theorem State.upCip_cue (s : State) (f : Cip → Cip) : (s.upCip f).cue = s.cue := rfl
@[simp] theorem State.upCip_cmd (s : State) (f : Cip → Cip) : (s.upCip f).cmd = s.cmd := rfl
@[simp] theorem State.upCip_sto (s : State) (f : Cip → Cip) : (s.upCip f).sto = s.sto := rfl
@[simp] theorem State.upCip_net (s : State) (f : Cip → Cip) : (s.upCip f).net = s.net := rfl
@[simp] theorem State.upCip_hed (s : State) (f : Cip → Cip) : (s.upCip f).hed = s.hed := rfl
@[simp] theorem State.upCip_ctx (s : State) (f : Cip → Cip) : (s.upCip f).ctx = s.ctx := rfl
@[simp] theorem State.upCip_cip (s : State) (f : Cip → Cip) : (s.upCip f).cip = f s.cip := rfl
@[simp] theorem State.upCip_shu (s : State) (f : Cip → Cip) : (s.upCip f).shu = s.shu := rfl
@[simp] theorem State.upCip_tap (s : State) (f : Cip → Cip) : (s.upCip f).tap = s.tap := rfl
@[simp] theorem State.upCip_tapc (s : State) (f : Cip → Cip) : (s.upCip f).tapc = s.tapc := rfl
@[simp] theorem State.upCip_loom (s : State) (f : Cip → Cip) : (s.upCip f).loom = s.loom := rfl
@[simp] theorem State.upCip_feed (s : State) (f : Cip → Cip) : (s.upCip f).feed = s.feed := rfl
@[simp] theorem State.upCip_lat (s : State) (f : Cip → Cip) : (s.upCip f).lat = s.lat := rfl
@[simp] theorem State.upCip_ras (s : State) (f : Cip → Cip) : (s.upCip f).ras = s.ras := rfl
@[simp] theorem State.upCip_ckp (s : State) (f : Cip → Cip) : (s.upCip f).ckp = s.ckp := rfl
@[simp] theorem State.upCip_stg (s : State) (f : Cip → Cip) : (s.upCip f).stg = s.stg := rfl
@[simp] theorem State.upCip_onb (s : State) (f : Cip → Cip) : (s.upCip f).onb = s.onb := rfl
@[simp] theorem State.upCip_call (s : State) (f : Cip → Cip) : (s.upCip f).call = s.call := rfl
@[simp] theorem State.upCip_host (s : State) (f : Cip → Cip) : (s.upCip f).host = s.host := rfl
@[simp] theorem State.upCip_flash (s : State) (f : Cip → Cip) : (s.upCip f).flash = s.flash := rfl
@[simp] theorem State.upCip_sm (s : State) (f : Cip → Cip) : (s.upCip f).sm = s.sm := rfl
@[simp] theorem State.upCip_obs (s : State) (f : Cip → Cip) : (s.upCip f).obs = s.obs := rfl
@[simp] theorem State.upCip_pwr (s : State) (f : Cip → Cip) : (s.upCip f).pwr = s.pwr := rfl
@[simp] theorem State.upShu_pending (s : State) (f : Shu → Shu) : (s.upShu f).pending = s.pending := rfl
@[simp] theorem State.upShu_out (s : State) (f : Shu → Shu) : (s.upShu f).out = s.out := rfl
@[simp] theorem State.upShu_free (s : State) (f : Shu → Shu) : (s.upShu f).free = s.free := rfl
@[simp] theorem State.upShu_gddr (s : State) (f : Shu → Shu) : (s.upShu f).gddr = s.gddr := rfl
@[simp] theorem State.upShu_glb (s : State) (f : Shu → Shu) : (s.upShu f).glb = s.glb := rfl
@[simp] theorem State.upShu_aon (s : State) (f : Shu → Shu) : (s.upShu f).aon = s.aon := rfl
@[simp] theorem State.upShu_cue (s : State) (f : Shu → Shu) : (s.upShu f).cue = s.cue := rfl
@[simp] theorem State.upShu_cmd (s : State) (f : Shu → Shu) : (s.upShu f).cmd = s.cmd := rfl
@[simp] theorem State.upShu_sto (s : State) (f : Shu → Shu) : (s.upShu f).sto = s.sto := rfl
@[simp] theorem State.upShu_net (s : State) (f : Shu → Shu) : (s.upShu f).net = s.net := rfl
@[simp] theorem State.upShu_hed (s : State) (f : Shu → Shu) : (s.upShu f).hed = s.hed := rfl
@[simp] theorem State.upShu_ctx (s : State) (f : Shu → Shu) : (s.upShu f).ctx = s.ctx := rfl
@[simp] theorem State.upShu_cip (s : State) (f : Shu → Shu) : (s.upShu f).cip = s.cip := rfl
@[simp] theorem State.upShu_shu (s : State) (f : Shu → Shu) : (s.upShu f).shu = f s.shu := rfl
@[simp] theorem State.upShu_tap (s : State) (f : Shu → Shu) : (s.upShu f).tap = s.tap := rfl
@[simp] theorem State.upShu_tapc (s : State) (f : Shu → Shu) : (s.upShu f).tapc = s.tapc := rfl
@[simp] theorem State.upShu_loom (s : State) (f : Shu → Shu) : (s.upShu f).loom = s.loom := rfl
@[simp] theorem State.upShu_feed (s : State) (f : Shu → Shu) : (s.upShu f).feed = s.feed := rfl
@[simp] theorem State.upShu_lat (s : State) (f : Shu → Shu) : (s.upShu f).lat = s.lat := rfl
@[simp] theorem State.upShu_ras (s : State) (f : Shu → Shu) : (s.upShu f).ras = s.ras := rfl
@[simp] theorem State.upShu_ckp (s : State) (f : Shu → Shu) : (s.upShu f).ckp = s.ckp := rfl
@[simp] theorem State.upShu_stg (s : State) (f : Shu → Shu) : (s.upShu f).stg = s.stg := rfl
@[simp] theorem State.upShu_onb (s : State) (f : Shu → Shu) : (s.upShu f).onb = s.onb := rfl
@[simp] theorem State.upShu_call (s : State) (f : Shu → Shu) : (s.upShu f).call = s.call := rfl
@[simp] theorem State.upShu_host (s : State) (f : Shu → Shu) : (s.upShu f).host = s.host := rfl
@[simp] theorem State.upShu_flash (s : State) (f : Shu → Shu) : (s.upShu f).flash = s.flash := rfl
@[simp] theorem State.upShu_sm (s : State) (f : Shu → Shu) : (s.upShu f).sm = s.sm := rfl
@[simp] theorem State.upShu_obs (s : State) (f : Shu → Shu) : (s.upShu f).obs = s.obs := rfl
@[simp] theorem State.upShu_pwr (s : State) (f : Shu → Shu) : (s.upShu f).pwr = s.pwr := rfl
@[simp] theorem State.upTap_pending (s : State) (f : Tap → Tap) : (s.upTap f).pending = s.pending := rfl
@[simp] theorem State.upTap_out (s : State) (f : Tap → Tap) : (s.upTap f).out = s.out := rfl
@[simp] theorem State.upTap_free (s : State) (f : Tap → Tap) : (s.upTap f).free = s.free := rfl
@[simp] theorem State.upTap_gddr (s : State) (f : Tap → Tap) : (s.upTap f).gddr = s.gddr := rfl
@[simp] theorem State.upTap_glb (s : State) (f : Tap → Tap) : (s.upTap f).glb = s.glb := rfl
@[simp] theorem State.upTap_aon (s : State) (f : Tap → Tap) : (s.upTap f).aon = s.aon := rfl
@[simp] theorem State.upTap_cue (s : State) (f : Tap → Tap) : (s.upTap f).cue = s.cue := rfl
@[simp] theorem State.upTap_cmd (s : State) (f : Tap → Tap) : (s.upTap f).cmd = s.cmd := rfl
@[simp] theorem State.upTap_sto (s : State) (f : Tap → Tap) : (s.upTap f).sto = s.sto := rfl
@[simp] theorem State.upTap_net (s : State) (f : Tap → Tap) : (s.upTap f).net = s.net := rfl
@[simp] theorem State.upTap_hed (s : State) (f : Tap → Tap) : (s.upTap f).hed = s.hed := rfl
@[simp] theorem State.upTap_ctx (s : State) (f : Tap → Tap) : (s.upTap f).ctx = s.ctx := rfl
@[simp] theorem State.upTap_cip (s : State) (f : Tap → Tap) : (s.upTap f).cip = s.cip := rfl
@[simp] theorem State.upTap_shu (s : State) (f : Tap → Tap) : (s.upTap f).shu = s.shu := rfl
@[simp] theorem State.upTap_tap (s : State) (f : Tap → Tap) : (s.upTap f).tap = f s.tap := rfl
@[simp] theorem State.upTap_tapc (s : State) (f : Tap → Tap) : (s.upTap f).tapc = s.tapc := rfl
@[simp] theorem State.upTap_loom (s : State) (f : Tap → Tap) : (s.upTap f).loom = s.loom := rfl
@[simp] theorem State.upTap_feed (s : State) (f : Tap → Tap) : (s.upTap f).feed = s.feed := rfl
@[simp] theorem State.upTap_lat (s : State) (f : Tap → Tap) : (s.upTap f).lat = s.lat := rfl
@[simp] theorem State.upTap_ras (s : State) (f : Tap → Tap) : (s.upTap f).ras = s.ras := rfl
@[simp] theorem State.upTap_ckp (s : State) (f : Tap → Tap) : (s.upTap f).ckp = s.ckp := rfl
@[simp] theorem State.upTap_stg (s : State) (f : Tap → Tap) : (s.upTap f).stg = s.stg := rfl
@[simp] theorem State.upTap_onb (s : State) (f : Tap → Tap) : (s.upTap f).onb = s.onb := rfl
@[simp] theorem State.upTap_call (s : State) (f : Tap → Tap) : (s.upTap f).call = s.call := rfl
@[simp] theorem State.upTap_host (s : State) (f : Tap → Tap) : (s.upTap f).host = s.host := rfl
@[simp] theorem State.upTap_flash (s : State) (f : Tap → Tap) : (s.upTap f).flash = s.flash := rfl
@[simp] theorem State.upTap_sm (s : State) (f : Tap → Tap) : (s.upTap f).sm = s.sm := rfl
@[simp] theorem State.upTap_obs (s : State) (f : Tap → Tap) : (s.upTap f).obs = s.obs := rfl
@[simp] theorem State.upTap_pwr (s : State) (f : Tap → Tap) : (s.upTap f).pwr = s.pwr := rfl
@[simp] theorem State.upTapc_pending (s : State) (f : TapCnt → TapCnt) : (s.upTapc f).pending = s.pending := rfl
@[simp] theorem State.upTapc_out (s : State) (f : TapCnt → TapCnt) : (s.upTapc f).out = s.out := rfl
@[simp] theorem State.upTapc_free (s : State) (f : TapCnt → TapCnt) : (s.upTapc f).free = s.free := rfl
@[simp] theorem State.upTapc_gddr (s : State) (f : TapCnt → TapCnt) : (s.upTapc f).gddr = s.gddr := rfl
@[simp] theorem State.upTapc_glb (s : State) (f : TapCnt → TapCnt) : (s.upTapc f).glb = s.glb := rfl
@[simp] theorem State.upTapc_aon (s : State) (f : TapCnt → TapCnt) : (s.upTapc f).aon = s.aon := rfl
@[simp] theorem State.upTapc_cue (s : State) (f : TapCnt → TapCnt) : (s.upTapc f).cue = s.cue := rfl
@[simp] theorem State.upTapc_cmd (s : State) (f : TapCnt → TapCnt) : (s.upTapc f).cmd = s.cmd := rfl
@[simp] theorem State.upTapc_sto (s : State) (f : TapCnt → TapCnt) : (s.upTapc f).sto = s.sto := rfl
@[simp] theorem State.upTapc_net (s : State) (f : TapCnt → TapCnt) : (s.upTapc f).net = s.net := rfl
@[simp] theorem State.upTapc_hed (s : State) (f : TapCnt → TapCnt) : (s.upTapc f).hed = s.hed := rfl
@[simp] theorem State.upTapc_ctx (s : State) (f : TapCnt → TapCnt) : (s.upTapc f).ctx = s.ctx := rfl
@[simp] theorem State.upTapc_cip (s : State) (f : TapCnt → TapCnt) : (s.upTapc f).cip = s.cip := rfl
@[simp] theorem State.upTapc_shu (s : State) (f : TapCnt → TapCnt) : (s.upTapc f).shu = s.shu := rfl
@[simp] theorem State.upTapc_tap (s : State) (f : TapCnt → TapCnt) : (s.upTapc f).tap = s.tap := rfl
@[simp] theorem State.upTapc_tapc (s : State) (f : TapCnt → TapCnt) : (s.upTapc f).tapc = f s.tapc := rfl
@[simp] theorem State.upTapc_loom (s : State) (f : TapCnt → TapCnt) : (s.upTapc f).loom = s.loom := rfl
@[simp] theorem State.upTapc_feed (s : State) (f : TapCnt → TapCnt) : (s.upTapc f).feed = s.feed := rfl
@[simp] theorem State.upTapc_lat (s : State) (f : TapCnt → TapCnt) : (s.upTapc f).lat = s.lat := rfl
@[simp] theorem State.upTapc_ras (s : State) (f : TapCnt → TapCnt) : (s.upTapc f).ras = s.ras := rfl
@[simp] theorem State.upTapc_ckp (s : State) (f : TapCnt → TapCnt) : (s.upTapc f).ckp = s.ckp := rfl
@[simp] theorem State.upTapc_stg (s : State) (f : TapCnt → TapCnt) : (s.upTapc f).stg = s.stg := rfl
@[simp] theorem State.upTapc_onb (s : State) (f : TapCnt → TapCnt) : (s.upTapc f).onb = s.onb := rfl
@[simp] theorem State.upTapc_call (s : State) (f : TapCnt → TapCnt) : (s.upTapc f).call = s.call := rfl
@[simp] theorem State.upTapc_host (s : State) (f : TapCnt → TapCnt) : (s.upTapc f).host = s.host := rfl
@[simp] theorem State.upTapc_flash (s : State) (f : TapCnt → TapCnt) : (s.upTapc f).flash = s.flash := rfl
@[simp] theorem State.upTapc_sm (s : State) (f : TapCnt → TapCnt) : (s.upTapc f).sm = s.sm := rfl
@[simp] theorem State.upTapc_obs (s : State) (f : TapCnt → TapCnt) : (s.upTapc f).obs = s.obs := rfl
@[simp] theorem State.upTapc_pwr (s : State) (f : TapCnt → TapCnt) : (s.upTapc f).pwr = s.pwr := rfl
@[simp] theorem State.upLoom_pending (s : State) (f : Loom → Loom) : (s.upLoom f).pending = s.pending := rfl
@[simp] theorem State.upLoom_out (s : State) (f : Loom → Loom) : (s.upLoom f).out = s.out := rfl
@[simp] theorem State.upLoom_free (s : State) (f : Loom → Loom) : (s.upLoom f).free = s.free := rfl
@[simp] theorem State.upLoom_gddr (s : State) (f : Loom → Loom) : (s.upLoom f).gddr = s.gddr := rfl
@[simp] theorem State.upLoom_glb (s : State) (f : Loom → Loom) : (s.upLoom f).glb = s.glb := rfl
@[simp] theorem State.upLoom_aon (s : State) (f : Loom → Loom) : (s.upLoom f).aon = s.aon := rfl
@[simp] theorem State.upLoom_cue (s : State) (f : Loom → Loom) : (s.upLoom f).cue = s.cue := rfl
@[simp] theorem State.upLoom_cmd (s : State) (f : Loom → Loom) : (s.upLoom f).cmd = s.cmd := rfl
@[simp] theorem State.upLoom_sto (s : State) (f : Loom → Loom) : (s.upLoom f).sto = s.sto := rfl
@[simp] theorem State.upLoom_net (s : State) (f : Loom → Loom) : (s.upLoom f).net = s.net := rfl
@[simp] theorem State.upLoom_hed (s : State) (f : Loom → Loom) : (s.upLoom f).hed = s.hed := rfl
@[simp] theorem State.upLoom_ctx (s : State) (f : Loom → Loom) : (s.upLoom f).ctx = s.ctx := rfl
@[simp] theorem State.upLoom_cip (s : State) (f : Loom → Loom) : (s.upLoom f).cip = s.cip := rfl
@[simp] theorem State.upLoom_shu (s : State) (f : Loom → Loom) : (s.upLoom f).shu = s.shu := rfl
@[simp] theorem State.upLoom_tap (s : State) (f : Loom → Loom) : (s.upLoom f).tap = s.tap := rfl
@[simp] theorem State.upLoom_tapc (s : State) (f : Loom → Loom) : (s.upLoom f).tapc = s.tapc := rfl
@[simp] theorem State.upLoom_loom (s : State) (f : Loom → Loom) : (s.upLoom f).loom = f s.loom := rfl
@[simp] theorem State.upLoom_feed (s : State) (f : Loom → Loom) : (s.upLoom f).feed = s.feed := rfl
@[simp] theorem State.upLoom_lat (s : State) (f : Loom → Loom) : (s.upLoom f).lat = s.lat := rfl
@[simp] theorem State.upLoom_ras (s : State) (f : Loom → Loom) : (s.upLoom f).ras = s.ras := rfl
@[simp] theorem State.upLoom_ckp (s : State) (f : Loom → Loom) : (s.upLoom f).ckp = s.ckp := rfl
@[simp] theorem State.upLoom_stg (s : State) (f : Loom → Loom) : (s.upLoom f).stg = s.stg := rfl
@[simp] theorem State.upLoom_onb (s : State) (f : Loom → Loom) : (s.upLoom f).onb = s.onb := rfl
@[simp] theorem State.upLoom_call (s : State) (f : Loom → Loom) : (s.upLoom f).call = s.call := rfl
@[simp] theorem State.upLoom_host (s : State) (f : Loom → Loom) : (s.upLoom f).host = s.host := rfl
@[simp] theorem State.upLoom_flash (s : State) (f : Loom → Loom) : (s.upLoom f).flash = s.flash := rfl
@[simp] theorem State.upLoom_sm (s : State) (f : Loom → Loom) : (s.upLoom f).sm = s.sm := rfl
@[simp] theorem State.upLoom_obs (s : State) (f : Loom → Loom) : (s.upLoom f).obs = s.obs := rfl
@[simp] theorem State.upLoom_pwr (s : State) (f : Loom → Loom) : (s.upLoom f).pwr = s.pwr := rfl
@[simp] theorem State.upFeed_pending (s : State) (f : Feed → Feed) : (s.upFeed f).pending = s.pending := rfl
@[simp] theorem State.upFeed_out (s : State) (f : Feed → Feed) : (s.upFeed f).out = s.out := rfl
@[simp] theorem State.upFeed_free (s : State) (f : Feed → Feed) : (s.upFeed f).free = s.free := rfl
@[simp] theorem State.upFeed_gddr (s : State) (f : Feed → Feed) : (s.upFeed f).gddr = s.gddr := rfl
@[simp] theorem State.upFeed_glb (s : State) (f : Feed → Feed) : (s.upFeed f).glb = s.glb := rfl
@[simp] theorem State.upFeed_aon (s : State) (f : Feed → Feed) : (s.upFeed f).aon = s.aon := rfl
@[simp] theorem State.upFeed_cue (s : State) (f : Feed → Feed) : (s.upFeed f).cue = s.cue := rfl
@[simp] theorem State.upFeed_cmd (s : State) (f : Feed → Feed) : (s.upFeed f).cmd = s.cmd := rfl
@[simp] theorem State.upFeed_sto (s : State) (f : Feed → Feed) : (s.upFeed f).sto = s.sto := rfl
@[simp] theorem State.upFeed_net (s : State) (f : Feed → Feed) : (s.upFeed f).net = s.net := rfl
@[simp] theorem State.upFeed_hed (s : State) (f : Feed → Feed) : (s.upFeed f).hed = s.hed := rfl
@[simp] theorem State.upFeed_ctx (s : State) (f : Feed → Feed) : (s.upFeed f).ctx = s.ctx := rfl
@[simp] theorem State.upFeed_cip (s : State) (f : Feed → Feed) : (s.upFeed f).cip = s.cip := rfl
@[simp] theorem State.upFeed_shu (s : State) (f : Feed → Feed) : (s.upFeed f).shu = s.shu := rfl
@[simp] theorem State.upFeed_tap (s : State) (f : Feed → Feed) : (s.upFeed f).tap = s.tap := rfl
@[simp] theorem State.upFeed_tapc (s : State) (f : Feed → Feed) : (s.upFeed f).tapc = s.tapc := rfl
@[simp] theorem State.upFeed_loom (s : State) (f : Feed → Feed) : (s.upFeed f).loom = s.loom := rfl
@[simp] theorem State.upFeed_feed (s : State) (f : Feed → Feed) : (s.upFeed f).feed = f s.feed := rfl
@[simp] theorem State.upFeed_lat (s : State) (f : Feed → Feed) : (s.upFeed f).lat = s.lat := rfl
@[simp] theorem State.upFeed_ras (s : State) (f : Feed → Feed) : (s.upFeed f).ras = s.ras := rfl
@[simp] theorem State.upFeed_ckp (s : State) (f : Feed → Feed) : (s.upFeed f).ckp = s.ckp := rfl
@[simp] theorem State.upFeed_stg (s : State) (f : Feed → Feed) : (s.upFeed f).stg = s.stg := rfl
@[simp] theorem State.upFeed_onb (s : State) (f : Feed → Feed) : (s.upFeed f).onb = s.onb := rfl
@[simp] theorem State.upFeed_call (s : State) (f : Feed → Feed) : (s.upFeed f).call = s.call := rfl
@[simp] theorem State.upFeed_host (s : State) (f : Feed → Feed) : (s.upFeed f).host = s.host := rfl
@[simp] theorem State.upFeed_flash (s : State) (f : Feed → Feed) : (s.upFeed f).flash = s.flash := rfl
@[simp] theorem State.upFeed_sm (s : State) (f : Feed → Feed) : (s.upFeed f).sm = s.sm := rfl
@[simp] theorem State.upFeed_obs (s : State) (f : Feed → Feed) : (s.upFeed f).obs = s.obs := rfl
@[simp] theorem State.upFeed_pwr (s : State) (f : Feed → Feed) : (s.upFeed f).pwr = s.pwr := rfl
@[simp] theorem State.upLat_pending (s : State) (f : Latches → Latches) : (s.upLat f).pending = s.pending := rfl
@[simp] theorem State.upLat_out (s : State) (f : Latches → Latches) : (s.upLat f).out = s.out := rfl
@[simp] theorem State.upLat_free (s : State) (f : Latches → Latches) : (s.upLat f).free = s.free := rfl
@[simp] theorem State.upLat_gddr (s : State) (f : Latches → Latches) : (s.upLat f).gddr = s.gddr := rfl
@[simp] theorem State.upLat_glb (s : State) (f : Latches → Latches) : (s.upLat f).glb = s.glb := rfl
@[simp] theorem State.upLat_aon (s : State) (f : Latches → Latches) : (s.upLat f).aon = s.aon := rfl
@[simp] theorem State.upLat_cue (s : State) (f : Latches → Latches) : (s.upLat f).cue = s.cue := rfl
@[simp] theorem State.upLat_cmd (s : State) (f : Latches → Latches) : (s.upLat f).cmd = s.cmd := rfl
@[simp] theorem State.upLat_sto (s : State) (f : Latches → Latches) : (s.upLat f).sto = s.sto := rfl
@[simp] theorem State.upLat_net (s : State) (f : Latches → Latches) : (s.upLat f).net = s.net := rfl
@[simp] theorem State.upLat_hed (s : State) (f : Latches → Latches) : (s.upLat f).hed = s.hed := rfl
@[simp] theorem State.upLat_ctx (s : State) (f : Latches → Latches) : (s.upLat f).ctx = s.ctx := rfl
@[simp] theorem State.upLat_cip (s : State) (f : Latches → Latches) : (s.upLat f).cip = s.cip := rfl
@[simp] theorem State.upLat_shu (s : State) (f : Latches → Latches) : (s.upLat f).shu = s.shu := rfl
@[simp] theorem State.upLat_tap (s : State) (f : Latches → Latches) : (s.upLat f).tap = s.tap := rfl
@[simp] theorem State.upLat_tapc (s : State) (f : Latches → Latches) : (s.upLat f).tapc = s.tapc := rfl
@[simp] theorem State.upLat_loom (s : State) (f : Latches → Latches) : (s.upLat f).loom = s.loom := rfl
@[simp] theorem State.upLat_feed (s : State) (f : Latches → Latches) : (s.upLat f).feed = s.feed := rfl
@[simp] theorem State.upLat_lat (s : State) (f : Latches → Latches) : (s.upLat f).lat = f s.lat := rfl
@[simp] theorem State.upLat_ras (s : State) (f : Latches → Latches) : (s.upLat f).ras = s.ras := rfl
@[simp] theorem State.upLat_ckp (s : State) (f : Latches → Latches) : (s.upLat f).ckp = s.ckp := rfl
@[simp] theorem State.upLat_stg (s : State) (f : Latches → Latches) : (s.upLat f).stg = s.stg := rfl
@[simp] theorem State.upLat_onb (s : State) (f : Latches → Latches) : (s.upLat f).onb = s.onb := rfl
@[simp] theorem State.upLat_call (s : State) (f : Latches → Latches) : (s.upLat f).call = s.call := rfl
@[simp] theorem State.upLat_host (s : State) (f : Latches → Latches) : (s.upLat f).host = s.host := rfl
@[simp] theorem State.upLat_flash (s : State) (f : Latches → Latches) : (s.upLat f).flash = s.flash := rfl
@[simp] theorem State.upLat_sm (s : State) (f : Latches → Latches) : (s.upLat f).sm = s.sm := rfl
@[simp] theorem State.upLat_obs (s : State) (f : Latches → Latches) : (s.upLat f).obs = s.obs := rfl
@[simp] theorem State.upLat_pwr (s : State) (f : Latches → Latches) : (s.upLat f).pwr = s.pwr := rfl
@[simp] theorem State.upRas_pending (s : State) (f : Ras → Ras) : (s.upRas f).pending = s.pending := rfl
@[simp] theorem State.upRas_out (s : State) (f : Ras → Ras) : (s.upRas f).out = s.out := rfl
@[simp] theorem State.upRas_free (s : State) (f : Ras → Ras) : (s.upRas f).free = s.free := rfl
@[simp] theorem State.upRas_gddr (s : State) (f : Ras → Ras) : (s.upRas f).gddr = s.gddr := rfl
@[simp] theorem State.upRas_glb (s : State) (f : Ras → Ras) : (s.upRas f).glb = s.glb := rfl
@[simp] theorem State.upRas_aon (s : State) (f : Ras → Ras) : (s.upRas f).aon = s.aon := rfl
@[simp] theorem State.upRas_cue (s : State) (f : Ras → Ras) : (s.upRas f).cue = s.cue := rfl
@[simp] theorem State.upRas_cmd (s : State) (f : Ras → Ras) : (s.upRas f).cmd = s.cmd := rfl
@[simp] theorem State.upRas_sto (s : State) (f : Ras → Ras) : (s.upRas f).sto = s.sto := rfl
@[simp] theorem State.upRas_net (s : State) (f : Ras → Ras) : (s.upRas f).net = s.net := rfl
@[simp] theorem State.upRas_hed (s : State) (f : Ras → Ras) : (s.upRas f).hed = s.hed := rfl
@[simp] theorem State.upRas_ctx (s : State) (f : Ras → Ras) : (s.upRas f).ctx = s.ctx := rfl
@[simp] theorem State.upRas_cip (s : State) (f : Ras → Ras) : (s.upRas f).cip = s.cip := rfl
@[simp] theorem State.upRas_shu (s : State) (f : Ras → Ras) : (s.upRas f).shu = s.shu := rfl
@[simp] theorem State.upRas_tap (s : State) (f : Ras → Ras) : (s.upRas f).tap = s.tap := rfl
@[simp] theorem State.upRas_tapc (s : State) (f : Ras → Ras) : (s.upRas f).tapc = s.tapc := rfl
@[simp] theorem State.upRas_loom (s : State) (f : Ras → Ras) : (s.upRas f).loom = s.loom := rfl
@[simp] theorem State.upRas_feed (s : State) (f : Ras → Ras) : (s.upRas f).feed = s.feed := rfl
@[simp] theorem State.upRas_lat (s : State) (f : Ras → Ras) : (s.upRas f).lat = s.lat := rfl
@[simp] theorem State.upRas_ras (s : State) (f : Ras → Ras) : (s.upRas f).ras = f s.ras := rfl
@[simp] theorem State.upRas_ckp (s : State) (f : Ras → Ras) : (s.upRas f).ckp = s.ckp := rfl
@[simp] theorem State.upRas_stg (s : State) (f : Ras → Ras) : (s.upRas f).stg = s.stg := rfl
@[simp] theorem State.upRas_onb (s : State) (f : Ras → Ras) : (s.upRas f).onb = s.onb := rfl
@[simp] theorem State.upRas_call (s : State) (f : Ras → Ras) : (s.upRas f).call = s.call := rfl
@[simp] theorem State.upRas_host (s : State) (f : Ras → Ras) : (s.upRas f).host = s.host := rfl
@[simp] theorem State.upRas_flash (s : State) (f : Ras → Ras) : (s.upRas f).flash = s.flash := rfl
@[simp] theorem State.upRas_sm (s : State) (f : Ras → Ras) : (s.upRas f).sm = s.sm := rfl
@[simp] theorem State.upRas_obs (s : State) (f : Ras → Ras) : (s.upRas f).obs = s.obs := rfl
@[simp] theorem State.upRas_pwr (s : State) (f : Ras → Ras) : (s.upRas f).pwr = s.pwr := rfl
@[simp] theorem State.upCkp_pending (s : State) (f : Ckp → Ckp) : (s.upCkp f).pending = s.pending := rfl
@[simp] theorem State.upCkp_out (s : State) (f : Ckp → Ckp) : (s.upCkp f).out = s.out := rfl
@[simp] theorem State.upCkp_free (s : State) (f : Ckp → Ckp) : (s.upCkp f).free = s.free := rfl
@[simp] theorem State.upCkp_gddr (s : State) (f : Ckp → Ckp) : (s.upCkp f).gddr = s.gddr := rfl
@[simp] theorem State.upCkp_glb (s : State) (f : Ckp → Ckp) : (s.upCkp f).glb = s.glb := rfl
@[simp] theorem State.upCkp_aon (s : State) (f : Ckp → Ckp) : (s.upCkp f).aon = s.aon := rfl
@[simp] theorem State.upCkp_cue (s : State) (f : Ckp → Ckp) : (s.upCkp f).cue = s.cue := rfl
@[simp] theorem State.upCkp_cmd (s : State) (f : Ckp → Ckp) : (s.upCkp f).cmd = s.cmd := rfl
@[simp] theorem State.upCkp_sto (s : State) (f : Ckp → Ckp) : (s.upCkp f).sto = s.sto := rfl
@[simp] theorem State.upCkp_net (s : State) (f : Ckp → Ckp) : (s.upCkp f).net = s.net := rfl
@[simp] theorem State.upCkp_hed (s : State) (f : Ckp → Ckp) : (s.upCkp f).hed = s.hed := rfl
@[simp] theorem State.upCkp_ctx (s : State) (f : Ckp → Ckp) : (s.upCkp f).ctx = s.ctx := rfl
@[simp] theorem State.upCkp_cip (s : State) (f : Ckp → Ckp) : (s.upCkp f).cip = s.cip := rfl
@[simp] theorem State.upCkp_shu (s : State) (f : Ckp → Ckp) : (s.upCkp f).shu = s.shu := rfl
@[simp] theorem State.upCkp_tap (s : State) (f : Ckp → Ckp) : (s.upCkp f).tap = s.tap := rfl
@[simp] theorem State.upCkp_tapc (s : State) (f : Ckp → Ckp) : (s.upCkp f).tapc = s.tapc := rfl
@[simp] theorem State.upCkp_loom (s : State) (f : Ckp → Ckp) : (s.upCkp f).loom = s.loom := rfl
@[simp] theorem State.upCkp_feed (s : State) (f : Ckp → Ckp) : (s.upCkp f).feed = s.feed := rfl
@[simp] theorem State.upCkp_lat (s : State) (f : Ckp → Ckp) : (s.upCkp f).lat = s.lat := rfl
@[simp] theorem State.upCkp_ras (s : State) (f : Ckp → Ckp) : (s.upCkp f).ras = s.ras := rfl
@[simp] theorem State.upCkp_ckp (s : State) (f : Ckp → Ckp) : (s.upCkp f).ckp = f s.ckp := rfl
@[simp] theorem State.upCkp_stg (s : State) (f : Ckp → Ckp) : (s.upCkp f).stg = s.stg := rfl
@[simp] theorem State.upCkp_onb (s : State) (f : Ckp → Ckp) : (s.upCkp f).onb = s.onb := rfl
@[simp] theorem State.upCkp_call (s : State) (f : Ckp → Ckp) : (s.upCkp f).call = s.call := rfl
@[simp] theorem State.upCkp_host (s : State) (f : Ckp → Ckp) : (s.upCkp f).host = s.host := rfl
@[simp] theorem State.upCkp_flash (s : State) (f : Ckp → Ckp) : (s.upCkp f).flash = s.flash := rfl
@[simp] theorem State.upCkp_sm (s : State) (f : Ckp → Ckp) : (s.upCkp f).sm = s.sm := rfl
@[simp] theorem State.upCkp_obs (s : State) (f : Ckp → Ckp) : (s.upCkp f).obs = s.obs := rfl
@[simp] theorem State.upCkp_pwr (s : State) (f : Ckp → Ckp) : (s.upCkp f).pwr = s.pwr := rfl
@[simp] theorem State.upStg_pending (s : State) (f : Stg → Stg) : (s.upStg f).pending = s.pending := rfl
@[simp] theorem State.upStg_out (s : State) (f : Stg → Stg) : (s.upStg f).out = s.out := rfl
@[simp] theorem State.upStg_free (s : State) (f : Stg → Stg) : (s.upStg f).free = s.free := rfl
@[simp] theorem State.upStg_gddr (s : State) (f : Stg → Stg) : (s.upStg f).gddr = s.gddr := rfl
@[simp] theorem State.upStg_glb (s : State) (f : Stg → Stg) : (s.upStg f).glb = s.glb := rfl
@[simp] theorem State.upStg_aon (s : State) (f : Stg → Stg) : (s.upStg f).aon = s.aon := rfl
@[simp] theorem State.upStg_cue (s : State) (f : Stg → Stg) : (s.upStg f).cue = s.cue := rfl
@[simp] theorem State.upStg_cmd (s : State) (f : Stg → Stg) : (s.upStg f).cmd = s.cmd := rfl
@[simp] theorem State.upStg_sto (s : State) (f : Stg → Stg) : (s.upStg f).sto = s.sto := rfl
@[simp] theorem State.upStg_net (s : State) (f : Stg → Stg) : (s.upStg f).net = s.net := rfl
@[simp] theorem State.upStg_hed (s : State) (f : Stg → Stg) : (s.upStg f).hed = s.hed := rfl
@[simp] theorem State.upStg_ctx (s : State) (f : Stg → Stg) : (s.upStg f).ctx = s.ctx := rfl
@[simp] theorem State.upStg_cip (s : State) (f : Stg → Stg) : (s.upStg f).cip = s.cip := rfl
@[simp] theorem State.upStg_shu (s : State) (f : Stg → Stg) : (s.upStg f).shu = s.shu := rfl
@[simp] theorem State.upStg_tap (s : State) (f : Stg → Stg) : (s.upStg f).tap = s.tap := rfl
@[simp] theorem State.upStg_tapc (s : State) (f : Stg → Stg) : (s.upStg f).tapc = s.tapc := rfl
@[simp] theorem State.upStg_loom (s : State) (f : Stg → Stg) : (s.upStg f).loom = s.loom := rfl
@[simp] theorem State.upStg_feed (s : State) (f : Stg → Stg) : (s.upStg f).feed = s.feed := rfl
@[simp] theorem State.upStg_lat (s : State) (f : Stg → Stg) : (s.upStg f).lat = s.lat := rfl
@[simp] theorem State.upStg_ras (s : State) (f : Stg → Stg) : (s.upStg f).ras = s.ras := rfl
@[simp] theorem State.upStg_ckp (s : State) (f : Stg → Stg) : (s.upStg f).ckp = s.ckp := rfl
@[simp] theorem State.upStg_stg (s : State) (f : Stg → Stg) : (s.upStg f).stg = f s.stg := rfl
@[simp] theorem State.upStg_onb (s : State) (f : Stg → Stg) : (s.upStg f).onb = s.onb := rfl
@[simp] theorem State.upStg_call (s : State) (f : Stg → Stg) : (s.upStg f).call = s.call := rfl
@[simp] theorem State.upStg_host (s : State) (f : Stg → Stg) : (s.upStg f).host = s.host := rfl
@[simp] theorem State.upStg_flash (s : State) (f : Stg → Stg) : (s.upStg f).flash = s.flash := rfl
@[simp] theorem State.upStg_sm (s : State) (f : Stg → Stg) : (s.upStg f).sm = s.sm := rfl
@[simp] theorem State.upStg_obs (s : State) (f : Stg → Stg) : (s.upStg f).obs = s.obs := rfl
@[simp] theorem State.upStg_pwr (s : State) (f : Stg → Stg) : (s.upStg f).pwr = s.pwr := rfl
@[simp] theorem State.upOnb_pending (s : State) (f : Onb → Onb) : (s.upOnb f).pending = s.pending := rfl
@[simp] theorem State.upOnb_out (s : State) (f : Onb → Onb) : (s.upOnb f).out = s.out := rfl
@[simp] theorem State.upOnb_free (s : State) (f : Onb → Onb) : (s.upOnb f).free = s.free := rfl
@[simp] theorem State.upOnb_gddr (s : State) (f : Onb → Onb) : (s.upOnb f).gddr = s.gddr := rfl
@[simp] theorem State.upOnb_glb (s : State) (f : Onb → Onb) : (s.upOnb f).glb = s.glb := rfl
@[simp] theorem State.upOnb_aon (s : State) (f : Onb → Onb) : (s.upOnb f).aon = s.aon := rfl
@[simp] theorem State.upOnb_cue (s : State) (f : Onb → Onb) : (s.upOnb f).cue = s.cue := rfl
@[simp] theorem State.upOnb_cmd (s : State) (f : Onb → Onb) : (s.upOnb f).cmd = s.cmd := rfl
@[simp] theorem State.upOnb_sto (s : State) (f : Onb → Onb) : (s.upOnb f).sto = s.sto := rfl
@[simp] theorem State.upOnb_net (s : State) (f : Onb → Onb) : (s.upOnb f).net = s.net := rfl
@[simp] theorem State.upOnb_hed (s : State) (f : Onb → Onb) : (s.upOnb f).hed = s.hed := rfl
@[simp] theorem State.upOnb_ctx (s : State) (f : Onb → Onb) : (s.upOnb f).ctx = s.ctx := rfl
@[simp] theorem State.upOnb_cip (s : State) (f : Onb → Onb) : (s.upOnb f).cip = s.cip := rfl
@[simp] theorem State.upOnb_shu (s : State) (f : Onb → Onb) : (s.upOnb f).shu = s.shu := rfl
@[simp] theorem State.upOnb_tap (s : State) (f : Onb → Onb) : (s.upOnb f).tap = s.tap := rfl
@[simp] theorem State.upOnb_tapc (s : State) (f : Onb → Onb) : (s.upOnb f).tapc = s.tapc := rfl
@[simp] theorem State.upOnb_loom (s : State) (f : Onb → Onb) : (s.upOnb f).loom = s.loom := rfl
@[simp] theorem State.upOnb_feed (s : State) (f : Onb → Onb) : (s.upOnb f).feed = s.feed := rfl
@[simp] theorem State.upOnb_lat (s : State) (f : Onb → Onb) : (s.upOnb f).lat = s.lat := rfl
@[simp] theorem State.upOnb_ras (s : State) (f : Onb → Onb) : (s.upOnb f).ras = s.ras := rfl
@[simp] theorem State.upOnb_ckp (s : State) (f : Onb → Onb) : (s.upOnb f).ckp = s.ckp := rfl
@[simp] theorem State.upOnb_stg (s : State) (f : Onb → Onb) : (s.upOnb f).stg = s.stg := rfl
@[simp] theorem State.upOnb_onb (s : State) (f : Onb → Onb) : (s.upOnb f).onb = f s.onb := rfl
@[simp] theorem State.upOnb_call (s : State) (f : Onb → Onb) : (s.upOnb f).call = s.call := rfl
@[simp] theorem State.upOnb_host (s : State) (f : Onb → Onb) : (s.upOnb f).host = s.host := rfl
@[simp] theorem State.upOnb_flash (s : State) (f : Onb → Onb) : (s.upOnb f).flash = s.flash := rfl
@[simp] theorem State.upOnb_sm (s : State) (f : Onb → Onb) : (s.upOnb f).sm = s.sm := rfl
@[simp] theorem State.upOnb_obs (s : State) (f : Onb → Onb) : (s.upOnb f).obs = s.obs := rfl
@[simp] theorem State.upOnb_pwr (s : State) (f : Onb → Onb) : (s.upOnb f).pwr = s.pwr := rfl
@[simp] theorem State.upCall_pending (s : State) (f : Call → Call) : (s.upCall f).pending = s.pending := rfl
@[simp] theorem State.upCall_out (s : State) (f : Call → Call) : (s.upCall f).out = s.out := rfl
@[simp] theorem State.upCall_free (s : State) (f : Call → Call) : (s.upCall f).free = s.free := rfl
@[simp] theorem State.upCall_gddr (s : State) (f : Call → Call) : (s.upCall f).gddr = s.gddr := rfl
@[simp] theorem State.upCall_glb (s : State) (f : Call → Call) : (s.upCall f).glb = s.glb := rfl
@[simp] theorem State.upCall_aon (s : State) (f : Call → Call) : (s.upCall f).aon = s.aon := rfl
@[simp] theorem State.upCall_cue (s : State) (f : Call → Call) : (s.upCall f).cue = s.cue := rfl
@[simp] theorem State.upCall_cmd (s : State) (f : Call → Call) : (s.upCall f).cmd = s.cmd := rfl
@[simp] theorem State.upCall_sto (s : State) (f : Call → Call) : (s.upCall f).sto = s.sto := rfl
@[simp] theorem State.upCall_net (s : State) (f : Call → Call) : (s.upCall f).net = s.net := rfl
@[simp] theorem State.upCall_hed (s : State) (f : Call → Call) : (s.upCall f).hed = s.hed := rfl
@[simp] theorem State.upCall_ctx (s : State) (f : Call → Call) : (s.upCall f).ctx = s.ctx := rfl
@[simp] theorem State.upCall_cip (s : State) (f : Call → Call) : (s.upCall f).cip = s.cip := rfl
@[simp] theorem State.upCall_shu (s : State) (f : Call → Call) : (s.upCall f).shu = s.shu := rfl
@[simp] theorem State.upCall_tap (s : State) (f : Call → Call) : (s.upCall f).tap = s.tap := rfl
@[simp] theorem State.upCall_tapc (s : State) (f : Call → Call) : (s.upCall f).tapc = s.tapc := rfl
@[simp] theorem State.upCall_loom (s : State) (f : Call → Call) : (s.upCall f).loom = s.loom := rfl
@[simp] theorem State.upCall_feed (s : State) (f : Call → Call) : (s.upCall f).feed = s.feed := rfl
@[simp] theorem State.upCall_lat (s : State) (f : Call → Call) : (s.upCall f).lat = s.lat := rfl
@[simp] theorem State.upCall_ras (s : State) (f : Call → Call) : (s.upCall f).ras = s.ras := rfl
@[simp] theorem State.upCall_ckp (s : State) (f : Call → Call) : (s.upCall f).ckp = s.ckp := rfl
@[simp] theorem State.upCall_stg (s : State) (f : Call → Call) : (s.upCall f).stg = s.stg := rfl
@[simp] theorem State.upCall_onb (s : State) (f : Call → Call) : (s.upCall f).onb = s.onb := rfl
@[simp] theorem State.upCall_call (s : State) (f : Call → Call) : (s.upCall f).call = f s.call := rfl
@[simp] theorem State.upCall_host (s : State) (f : Call → Call) : (s.upCall f).host = s.host := rfl
@[simp] theorem State.upCall_flash (s : State) (f : Call → Call) : (s.upCall f).flash = s.flash := rfl
@[simp] theorem State.upCall_sm (s : State) (f : Call → Call) : (s.upCall f).sm = s.sm := rfl
@[simp] theorem State.upCall_obs (s : State) (f : Call → Call) : (s.upCall f).obs = s.obs := rfl
@[simp] theorem State.upCall_pwr (s : State) (f : Call → Call) : (s.upCall f).pwr = s.pwr := rfl
@[simp] theorem State.upHost_pending (s : State) (f : HostPort → HostPort) : (s.upHost f).pending = s.pending := rfl
@[simp] theorem State.upHost_out (s : State) (f : HostPort → HostPort) : (s.upHost f).out = s.out := rfl
@[simp] theorem State.upHost_free (s : State) (f : HostPort → HostPort) : (s.upHost f).free = s.free := rfl
@[simp] theorem State.upHost_gddr (s : State) (f : HostPort → HostPort) : (s.upHost f).gddr = s.gddr := rfl
@[simp] theorem State.upHost_glb (s : State) (f : HostPort → HostPort) : (s.upHost f).glb = s.glb := rfl
@[simp] theorem State.upHost_aon (s : State) (f : HostPort → HostPort) : (s.upHost f).aon = s.aon := rfl
@[simp] theorem State.upHost_cue (s : State) (f : HostPort → HostPort) : (s.upHost f).cue = s.cue := rfl
@[simp] theorem State.upHost_cmd (s : State) (f : HostPort → HostPort) : (s.upHost f).cmd = s.cmd := rfl
@[simp] theorem State.upHost_sto (s : State) (f : HostPort → HostPort) : (s.upHost f).sto = s.sto := rfl
@[simp] theorem State.upHost_net (s : State) (f : HostPort → HostPort) : (s.upHost f).net = s.net := rfl
@[simp] theorem State.upHost_hed (s : State) (f : HostPort → HostPort) : (s.upHost f).hed = s.hed := rfl
@[simp] theorem State.upHost_ctx (s : State) (f : HostPort → HostPort) : (s.upHost f).ctx = s.ctx := rfl
@[simp] theorem State.upHost_cip (s : State) (f : HostPort → HostPort) : (s.upHost f).cip = s.cip := rfl
@[simp] theorem State.upHost_shu (s : State) (f : HostPort → HostPort) : (s.upHost f).shu = s.shu := rfl
@[simp] theorem State.upHost_tap (s : State) (f : HostPort → HostPort) : (s.upHost f).tap = s.tap := rfl
@[simp] theorem State.upHost_tapc (s : State) (f : HostPort → HostPort) : (s.upHost f).tapc = s.tapc := rfl
@[simp] theorem State.upHost_loom (s : State) (f : HostPort → HostPort) : (s.upHost f).loom = s.loom := rfl
@[simp] theorem State.upHost_feed (s : State) (f : HostPort → HostPort) : (s.upHost f).feed = s.feed := rfl
@[simp] theorem State.upHost_lat (s : State) (f : HostPort → HostPort) : (s.upHost f).lat = s.lat := rfl
@[simp] theorem State.upHost_ras (s : State) (f : HostPort → HostPort) : (s.upHost f).ras = s.ras := rfl
@[simp] theorem State.upHost_ckp (s : State) (f : HostPort → HostPort) : (s.upHost f).ckp = s.ckp := rfl
@[simp] theorem State.upHost_stg (s : State) (f : HostPort → HostPort) : (s.upHost f).stg = s.stg := rfl
@[simp] theorem State.upHost_onb (s : State) (f : HostPort → HostPort) : (s.upHost f).onb = s.onb := rfl
@[simp] theorem State.upHost_call (s : State) (f : HostPort → HostPort) : (s.upHost f).call = s.call := rfl
@[simp] theorem State.upHost_host (s : State) (f : HostPort → HostPort) : (s.upHost f).host = f s.host := rfl
@[simp] theorem State.upHost_flash (s : State) (f : HostPort → HostPort) : (s.upHost f).flash = s.flash := rfl
@[simp] theorem State.upHost_sm (s : State) (f : HostPort → HostPort) : (s.upHost f).sm = s.sm := rfl
@[simp] theorem State.upHost_obs (s : State) (f : HostPort → HostPort) : (s.upHost f).obs = s.obs := rfl
@[simp] theorem State.upHost_pwr (s : State) (f : HostPort → HostPort) : (s.upHost f).pwr = s.pwr := rfl
@[simp] theorem State.upFlash_pending (s : State) (f : Flash → Flash) : (s.upFlash f).pending = s.pending := rfl
@[simp] theorem State.upFlash_out (s : State) (f : Flash → Flash) : (s.upFlash f).out = s.out := rfl
@[simp] theorem State.upFlash_free (s : State) (f : Flash → Flash) : (s.upFlash f).free = s.free := rfl
@[simp] theorem State.upFlash_gddr (s : State) (f : Flash → Flash) : (s.upFlash f).gddr = s.gddr := rfl
@[simp] theorem State.upFlash_glb (s : State) (f : Flash → Flash) : (s.upFlash f).glb = s.glb := rfl
@[simp] theorem State.upFlash_aon (s : State) (f : Flash → Flash) : (s.upFlash f).aon = s.aon := rfl
@[simp] theorem State.upFlash_cue (s : State) (f : Flash → Flash) : (s.upFlash f).cue = s.cue := rfl
@[simp] theorem State.upFlash_cmd (s : State) (f : Flash → Flash) : (s.upFlash f).cmd = s.cmd := rfl
@[simp] theorem State.upFlash_sto (s : State) (f : Flash → Flash) : (s.upFlash f).sto = s.sto := rfl
@[simp] theorem State.upFlash_net (s : State) (f : Flash → Flash) : (s.upFlash f).net = s.net := rfl
@[simp] theorem State.upFlash_hed (s : State) (f : Flash → Flash) : (s.upFlash f).hed = s.hed := rfl
@[simp] theorem State.upFlash_ctx (s : State) (f : Flash → Flash) : (s.upFlash f).ctx = s.ctx := rfl
@[simp] theorem State.upFlash_cip (s : State) (f : Flash → Flash) : (s.upFlash f).cip = s.cip := rfl
@[simp] theorem State.upFlash_shu (s : State) (f : Flash → Flash) : (s.upFlash f).shu = s.shu := rfl
@[simp] theorem State.upFlash_tap (s : State) (f : Flash → Flash) : (s.upFlash f).tap = s.tap := rfl
@[simp] theorem State.upFlash_tapc (s : State) (f : Flash → Flash) : (s.upFlash f).tapc = s.tapc := rfl
@[simp] theorem State.upFlash_loom (s : State) (f : Flash → Flash) : (s.upFlash f).loom = s.loom := rfl
@[simp] theorem State.upFlash_feed (s : State) (f : Flash → Flash) : (s.upFlash f).feed = s.feed := rfl
@[simp] theorem State.upFlash_lat (s : State) (f : Flash → Flash) : (s.upFlash f).lat = s.lat := rfl
@[simp] theorem State.upFlash_ras (s : State) (f : Flash → Flash) : (s.upFlash f).ras = s.ras := rfl
@[simp] theorem State.upFlash_ckp (s : State) (f : Flash → Flash) : (s.upFlash f).ckp = s.ckp := rfl
@[simp] theorem State.upFlash_stg (s : State) (f : Flash → Flash) : (s.upFlash f).stg = s.stg := rfl
@[simp] theorem State.upFlash_onb (s : State) (f : Flash → Flash) : (s.upFlash f).onb = s.onb := rfl
@[simp] theorem State.upFlash_call (s : State) (f : Flash → Flash) : (s.upFlash f).call = s.call := rfl
@[simp] theorem State.upFlash_host (s : State) (f : Flash → Flash) : (s.upFlash f).host = s.host := rfl
@[simp] theorem State.upFlash_flash (s : State) (f : Flash → Flash) : (s.upFlash f).flash = f s.flash := rfl
@[simp] theorem State.upFlash_sm (s : State) (f : Flash → Flash) : (s.upFlash f).sm = s.sm := rfl
@[simp] theorem State.upFlash_obs (s : State) (f : Flash → Flash) : (s.upFlash f).obs = s.obs := rfl
@[simp] theorem State.upFlash_pwr (s : State) (f : Flash → Flash) : (s.upFlash f).pwr = s.pwr := rfl
@[simp] theorem State.upSm_pending (s : State) (f : Sm → Sm) : (s.upSm f).pending = s.pending := rfl
@[simp] theorem State.upSm_out (s : State) (f : Sm → Sm) : (s.upSm f).out = s.out := rfl
@[simp] theorem State.upSm_free (s : State) (f : Sm → Sm) : (s.upSm f).free = s.free := rfl
@[simp] theorem State.upSm_gddr (s : State) (f : Sm → Sm) : (s.upSm f).gddr = s.gddr := rfl
@[simp] theorem State.upSm_glb (s : State) (f : Sm → Sm) : (s.upSm f).glb = s.glb := rfl
@[simp] theorem State.upSm_aon (s : State) (f : Sm → Sm) : (s.upSm f).aon = s.aon := rfl
@[simp] theorem State.upSm_cue (s : State) (f : Sm → Sm) : (s.upSm f).cue = s.cue := rfl
@[simp] theorem State.upSm_cmd (s : State) (f : Sm → Sm) : (s.upSm f).cmd = s.cmd := rfl
@[simp] theorem State.upSm_sto (s : State) (f : Sm → Sm) : (s.upSm f).sto = s.sto := rfl
@[simp] theorem State.upSm_net (s : State) (f : Sm → Sm) : (s.upSm f).net = s.net := rfl
@[simp] theorem State.upSm_hed (s : State) (f : Sm → Sm) : (s.upSm f).hed = s.hed := rfl
@[simp] theorem State.upSm_ctx (s : State) (f : Sm → Sm) : (s.upSm f).ctx = s.ctx := rfl
@[simp] theorem State.upSm_cip (s : State) (f : Sm → Sm) : (s.upSm f).cip = s.cip := rfl
@[simp] theorem State.upSm_shu (s : State) (f : Sm → Sm) : (s.upSm f).shu = s.shu := rfl
@[simp] theorem State.upSm_tap (s : State) (f : Sm → Sm) : (s.upSm f).tap = s.tap := rfl
@[simp] theorem State.upSm_tapc (s : State) (f : Sm → Sm) : (s.upSm f).tapc = s.tapc := rfl
@[simp] theorem State.upSm_loom (s : State) (f : Sm → Sm) : (s.upSm f).loom = s.loom := rfl
@[simp] theorem State.upSm_feed (s : State) (f : Sm → Sm) : (s.upSm f).feed = s.feed := rfl
@[simp] theorem State.upSm_lat (s : State) (f : Sm → Sm) : (s.upSm f).lat = s.lat := rfl
@[simp] theorem State.upSm_ras (s : State) (f : Sm → Sm) : (s.upSm f).ras = s.ras := rfl
@[simp] theorem State.upSm_ckp (s : State) (f : Sm → Sm) : (s.upSm f).ckp = s.ckp := rfl
@[simp] theorem State.upSm_stg (s : State) (f : Sm → Sm) : (s.upSm f).stg = s.stg := rfl
@[simp] theorem State.upSm_onb (s : State) (f : Sm → Sm) : (s.upSm f).onb = s.onb := rfl
@[simp] theorem State.upSm_call (s : State) (f : Sm → Sm) : (s.upSm f).call = s.call := rfl
@[simp] theorem State.upSm_host (s : State) (f : Sm → Sm) : (s.upSm f).host = s.host := rfl
@[simp] theorem State.upSm_flash (s : State) (f : Sm → Sm) : (s.upSm f).flash = s.flash := rfl
@[simp] theorem State.upSm_sm (s : State) (f : Sm → Sm) : (s.upSm f).sm = f s.sm := rfl
@[simp] theorem State.upSm_obs (s : State) (f : Sm → Sm) : (s.upSm f).obs = s.obs := rfl
@[simp] theorem State.upSm_pwr (s : State) (f : Sm → Sm) : (s.upSm f).pwr = s.pwr := rfl
@[simp] theorem State.upObs_pending (s : State) (f : Obs → Obs) : (s.upObs f).pending = s.pending := rfl
@[simp] theorem State.upObs_out (s : State) (f : Obs → Obs) : (s.upObs f).out = s.out := rfl
@[simp] theorem State.upObs_free (s : State) (f : Obs → Obs) : (s.upObs f).free = s.free := rfl
@[simp] theorem State.upObs_gddr (s : State) (f : Obs → Obs) : (s.upObs f).gddr = s.gddr := rfl
@[simp] theorem State.upObs_glb (s : State) (f : Obs → Obs) : (s.upObs f).glb = s.glb := rfl
@[simp] theorem State.upObs_aon (s : State) (f : Obs → Obs) : (s.upObs f).aon = s.aon := rfl
@[simp] theorem State.upObs_cue (s : State) (f : Obs → Obs) : (s.upObs f).cue = s.cue := rfl
@[simp] theorem State.upObs_cmd (s : State) (f : Obs → Obs) : (s.upObs f).cmd = s.cmd := rfl
@[simp] theorem State.upObs_sto (s : State) (f : Obs → Obs) : (s.upObs f).sto = s.sto := rfl
@[simp] theorem State.upObs_net (s : State) (f : Obs → Obs) : (s.upObs f).net = s.net := rfl
@[simp] theorem State.upObs_hed (s : State) (f : Obs → Obs) : (s.upObs f).hed = s.hed := rfl
@[simp] theorem State.upObs_ctx (s : State) (f : Obs → Obs) : (s.upObs f).ctx = s.ctx := rfl
@[simp] theorem State.upObs_cip (s : State) (f : Obs → Obs) : (s.upObs f).cip = s.cip := rfl
@[simp] theorem State.upObs_shu (s : State) (f : Obs → Obs) : (s.upObs f).shu = s.shu := rfl
@[simp] theorem State.upObs_tap (s : State) (f : Obs → Obs) : (s.upObs f).tap = s.tap := rfl
@[simp] theorem State.upObs_tapc (s : State) (f : Obs → Obs) : (s.upObs f).tapc = s.tapc := rfl
@[simp] theorem State.upObs_loom (s : State) (f : Obs → Obs) : (s.upObs f).loom = s.loom := rfl
@[simp] theorem State.upObs_feed (s : State) (f : Obs → Obs) : (s.upObs f).feed = s.feed := rfl
@[simp] theorem State.upObs_lat (s : State) (f : Obs → Obs) : (s.upObs f).lat = s.lat := rfl
@[simp] theorem State.upObs_ras (s : State) (f : Obs → Obs) : (s.upObs f).ras = s.ras := rfl
@[simp] theorem State.upObs_ckp (s : State) (f : Obs → Obs) : (s.upObs f).ckp = s.ckp := rfl
@[simp] theorem State.upObs_stg (s : State) (f : Obs → Obs) : (s.upObs f).stg = s.stg := rfl
@[simp] theorem State.upObs_onb (s : State) (f : Obs → Obs) : (s.upObs f).onb = s.onb := rfl
@[simp] theorem State.upObs_call (s : State) (f : Obs → Obs) : (s.upObs f).call = s.call := rfl
@[simp] theorem State.upObs_host (s : State) (f : Obs → Obs) : (s.upObs f).host = s.host := rfl
@[simp] theorem State.upObs_flash (s : State) (f : Obs → Obs) : (s.upObs f).flash = s.flash := rfl
@[simp] theorem State.upObs_sm (s : State) (f : Obs → Obs) : (s.upObs f).sm = s.sm := rfl
@[simp] theorem State.upObs_obs (s : State) (f : Obs → Obs) : (s.upObs f).obs = f s.obs := rfl
@[simp] theorem State.upObs_pwr (s : State) (f : Obs → Obs) : (s.upObs f).pwr = s.pwr := rfl
@[simp] theorem State.upPwr_pending (s : State) (f : Pwr → Pwr) : (s.upPwr f).pending = s.pending := rfl
@[simp] theorem State.upPwr_out (s : State) (f : Pwr → Pwr) : (s.upPwr f).out = s.out := rfl
@[simp] theorem State.upPwr_free (s : State) (f : Pwr → Pwr) : (s.upPwr f).free = s.free := rfl
@[simp] theorem State.upPwr_gddr (s : State) (f : Pwr → Pwr) : (s.upPwr f).gddr = s.gddr := rfl
@[simp] theorem State.upPwr_glb (s : State) (f : Pwr → Pwr) : (s.upPwr f).glb = s.glb := rfl
@[simp] theorem State.upPwr_aon (s : State) (f : Pwr → Pwr) : (s.upPwr f).aon = s.aon := rfl
@[simp] theorem State.upPwr_cue (s : State) (f : Pwr → Pwr) : (s.upPwr f).cue = s.cue := rfl
@[simp] theorem State.upPwr_cmd (s : State) (f : Pwr → Pwr) : (s.upPwr f).cmd = s.cmd := rfl
@[simp] theorem State.upPwr_sto (s : State) (f : Pwr → Pwr) : (s.upPwr f).sto = s.sto := rfl
@[simp] theorem State.upPwr_net (s : State) (f : Pwr → Pwr) : (s.upPwr f).net = s.net := rfl
@[simp] theorem State.upPwr_hed (s : State) (f : Pwr → Pwr) : (s.upPwr f).hed = s.hed := rfl
@[simp] theorem State.upPwr_ctx (s : State) (f : Pwr → Pwr) : (s.upPwr f).ctx = s.ctx := rfl
@[simp] theorem State.upPwr_cip (s : State) (f : Pwr → Pwr) : (s.upPwr f).cip = s.cip := rfl
@[simp] theorem State.upPwr_shu (s : State) (f : Pwr → Pwr) : (s.upPwr f).shu = s.shu := rfl
@[simp] theorem State.upPwr_tap (s : State) (f : Pwr → Pwr) : (s.upPwr f).tap = s.tap := rfl
@[simp] theorem State.upPwr_tapc (s : State) (f : Pwr → Pwr) : (s.upPwr f).tapc = s.tapc := rfl
@[simp] theorem State.upPwr_loom (s : State) (f : Pwr → Pwr) : (s.upPwr f).loom = s.loom := rfl
@[simp] theorem State.upPwr_feed (s : State) (f : Pwr → Pwr) : (s.upPwr f).feed = s.feed := rfl
@[simp] theorem State.upPwr_lat (s : State) (f : Pwr → Pwr) : (s.upPwr f).lat = s.lat := rfl
@[simp] theorem State.upPwr_ras (s : State) (f : Pwr → Pwr) : (s.upPwr f).ras = s.ras := rfl
@[simp] theorem State.upPwr_ckp (s : State) (f : Pwr → Pwr) : (s.upPwr f).ckp = s.ckp := rfl
@[simp] theorem State.upPwr_stg (s : State) (f : Pwr → Pwr) : (s.upPwr f).stg = s.stg := rfl
@[simp] theorem State.upPwr_onb (s : State) (f : Pwr → Pwr) : (s.upPwr f).onb = s.onb := rfl
@[simp] theorem State.upPwr_call (s : State) (f : Pwr → Pwr) : (s.upPwr f).call = s.call := rfl
@[simp] theorem State.upPwr_host (s : State) (f : Pwr → Pwr) : (s.upPwr f).host = s.host := rfl
@[simp] theorem State.upPwr_flash (s : State) (f : Pwr → Pwr) : (s.upPwr f).flash = s.flash := rfl
@[simp] theorem State.upPwr_sm (s : State) (f : Pwr → Pwr) : (s.upPwr f).sm = s.sm := rfl
@[simp] theorem State.upPwr_obs (s : State) (f : Pwr → Pwr) : (s.upPwr f).obs = s.obs := rfl
@[simp] theorem State.upPwr_pwr (s : State) (f : Pwr → Pwr) : (s.upPwr f).pwr = f s.pwr := rfl

end Sys2Proof.Machine
end

