-- ==== Sys2Proof/Laws/Completes.lean ====
section
/-!
SUPPORT. Every command completes: one lemma per shared outcome, then one for every row.
-/
set_option linter.all false

namespace Sys2Proof.Laws

open Sys2Proof Sys2Proof.Machine

theorem next_barWrite {x0 : Nat} {x1 : Nat} {x2 : Nat} {x3 : State} {x4 : State → State} : ∃ t, barWrite x0 x1 x2 x3 x4 = .next t := by
  unfold barWrite
  with_reducible repeat' first
    | exact ⟨_, rfl⟩ | assumption | split | dsimp only

theorem next_barAccess {x0 : Access} {x1 : State} {x2 : State → State} : ∃ t, barAccess x0 x1 x2 = .next t := by
  unfold barAccess
  with_reducible repeat' first
    | exact ⟨_, rfl⟩ | assumption | exact next_barWrite | split | dsimp only

theorem next_execRegisterWrite {x0 : Access} {x1 : State} : ∃ t, execRegisterWrite x0 x1 = .next t := by
  unfold execRegisterWrite
  with_reducible repeat' first
    | exact ⟨_, rfl⟩ | assumption | exact next_barAccess | split | dsimp only

theorem next_execBar2Access {x0 : Access} {x1 : State} : ∃ t, execBar2Access x0 x1 = .next t := by
  unfold execBar2Access
  with_reducible repeat' first
    | exact ⟨_, rfl⟩ | assumption | split | dsimp only

theorem next_runPkt {x0 : OpSpec} {x1 : Hdr} {x2 : Bytes} {x3 : State} : ∃ t, runPkt x0 x1 x2 x3 = .next t := by
  unfold runPkt
  with_reducible repeat' first
    | exact ⟨_, rfl⟩ | assumption | split | dsimp only

theorem next_execSetPartitions {x0 : Hdr} {x1 : Bytes} {x2 : State} : ∃ t, execSetPartitions x0 x1 x2 = .next t := by
  unfold execSetPartitions
  with_reducible repeat' first
    | exact ⟨_, rfl⟩ | assumption | exact next_runPkt | split | dsimp only

theorem next_execSetCueSource {x0 : Hdr} {x1 : Bytes} {x2 : State} : ∃ t, execSetCueSource x0 x1 x2 = .next t := by
  unfold execSetCueSource
  with_reducible repeat' first
    | exact ⟨_, rfl⟩ | assumption | exact next_runPkt | split | dsimp only

theorem next_onMainIf {x0 : State} {x1 : Bool} {x2 : State → State} : ∃ t, onMainIf x0 x1 x2 = .next t := by
  unfold onMainIf
  with_reducible repeat' first
    | exact ⟨_, rfl⟩ | assumption | split | dsimp only

theorem next_onSource {x0 : State} {x1 : CueSrc} {x2 : State → State} : ∃ t, onSource x0 x1 x2 = .next t := by
  unfold onSource
  with_reducible repeat' first
    | exact ⟨_, rfl⟩ | assumption | exact next_onMainIf | split | dsimp only

theorem next_execPositionFrame {x0 : Nat} {x1 : Bool} {x2 : State} : ∃ t, execPositionFrame x0 x1 x2 = .next t := by
  unfold execPositionFrame
  with_reducible repeat' first
    | exact ⟨_, rfl⟩ | assumption | exact next_onSource | split | dsimp only

theorem next_execEpochFrame {x0 : Nat} {x1 : Bool} {x2 : State} : ∃ t, execEpochFrame x0 x1 x2 = .next t := by
  unfold execEpochFrame
  with_reducible repeat' first
    | exact ⟨_, rfl⟩ | assumption | exact next_onSource | split | dsimp only

theorem next_onMain {x0 : State} {x1 : State → State} : ∃ t, onMain x0 x1 = .next t := by
  unfold onMain
  with_reducible repeat' first
    | exact ⟨_, rfl⟩ | assumption | split | dsimp only

theorem next_execEthCueFrame {x0 : Bytes} {x1 : State} : ∃ t, execEthCueFrame x0 x1 = .next t := by
  unfold execEthCueFrame
  with_reducible repeat' first
    | exact ⟨_, rfl⟩ | assumption | exact next_onMain | split | dsimp only

theorem next_execCueSwPosWrite {x0 : Access} {x1 : State} : ∃ t, execCueSwPosWrite x0 x1 = .next t := by
  unfold execCueSwPosWrite
  with_reducible repeat' first
    | exact ⟨_, rfl⟩ | assumption | exact next_barWrite | split | dsimp only

theorem next_onAlways {x0 : State} {x1 : State → State} : ∃ t, onAlways x0 x1 = .next t := by
  unfold onAlways
  with_reducible repeat' first
    | exact ⟨_, rfl⟩ | assumption | split | dsimp only

theorem next_execCueInterpolate {x0 : Nat} {x1 : State} : ∃ t, execCueInterpolate x0 x1 = .next t := by
  unfold execCueInterpolate
  with_reducible repeat' first
    | exact ⟨_, rfl⟩ | assumption | exact next_onAlways | split | dsimp only

theorem next_execCueHoldoverTimeout {x0 : State} : ∃ t, execCueHoldoverTimeout x0 = .next t := by
  unfold execCueHoldoverTimeout
  with_reducible repeat' first
    | exact ⟨_, rfl⟩ | assumption | exact next_onMainIf | split | dsimp only

theorem next_execCueHoldExpiry {x0 : State} : ∃ t, execCueHoldExpiry x0 = .next t := by
  unfold execCueHoldExpiry
  with_reducible repeat' first
    | exact ⟨_, rfl⟩ | assumption | exact next_onMainIf | split | dsimp only

theorem next_execCueFrameEmit {x0 : State} : ∃ t, execCueFrameEmit x0 = .next t := by
  unfold execCueFrameEmit
  with_reducible repeat' first
    | exact ⟨_, rfl⟩ | assumption | exact next_onMainIf | split | dsimp only

theorem next_execPathDelayEcho {x0 : State} : ∃ t, execPathDelayEcho x0 = .next t := by
  unfold execPathDelayEcho
  with_reducible repeat' first
    | exact ⟨_, rfl⟩ | assumption | exact next_onMainIf | split | dsimp only

theorem next_execEchoReadResponse {x0 : State} : ∃ t, execEchoReadResponse x0 = .next t := by
  unfold execEchoReadResponse
  with_reducible repeat' first
    | exact ⟨_, rfl⟩ | assumption | exact next_onMain | split | dsimp only

theorem next_execCueEventSet {x0 : Hdr} {x1 : Bytes} {x2 : State} : ∃ t, execCueEventSet x0 x1 x2 = .next t := by
  unfold execCueEventSet
  with_reducible repeat' first
    | exact ⟨_, rfl⟩ | assumption | exact next_runPkt | split | dsimp only

theorem next_execCueEventClear {x0 : Hdr} {x1 : Bytes} {x2 : State} : ∃ t, execCueEventClear x0 x1 x2 = .next t := by
  unfold execCueEventClear
  with_reducible repeat' first
    | exact ⟨_, rfl⟩ | assumption | exact next_runPkt | split | dsimp only

theorem next_execCueEventFire {x0 : State} : ∃ t, execCueEventFire x0 = .next t := by
  unfold execCueEventFire
  with_reducible repeat' first
    | exact ⟨_, rfl⟩ | assumption | exact next_onMain | split | dsimp only

theorem next_execPtmExchange {x0 : Nat} {x1 : State} : ∃ t, execPtmExchange x0 x1 = .next t := by
  unfold execPtmExchange
  with_reducible repeat' first
    | exact ⟨_, rfl⟩ | assumption | exact next_onAlways | split | dsimp only

theorem next_bell {x0 : State} {x1 : Nat} {x2 : Nat} {x3 : Nat} {x4 : State → State} : ∃ t, bell x0 x1 x2 x3 x4 = .next t := by
  unfold bell
  with_reducible repeat' first
    | exact ⟨_, rfl⟩ | assumption | split | dsimp only

theorem next_thenUnload {r : Res} (h1 : ∃ t, r = .next t) : ∃ t, thenUnload r = .next t := by
  obtain ⟨t, rfl⟩ := h1
  exact ⟨_, rfl⟩

theorem next_execOther {x0 : Nat} {x1 : Hdr} {x2 : Bytes} {x3 : State} : ∃ t, execOther x0 x1 x2 x3 = .next t := by
  unfold execOther
  split
  · exact next_thenUnload next_runPkt
  · exact next_runPkt

theorem next_fetchOther {x0 : Nat} {x1 : Nat} {x2 : OtherCmd} {x3 : State} : ∃ t, fetchOther x0 x1 x2 x3 = .next t := by
  unfold fetchOther
  split
  · exact next_execOther
  · exact ⟨_, rfl⟩

theorem next_execSqTailWrite {x0 : Nat} {x1 : Nat} {x2 : TailWrite} {x3 : State} : ∃ t, execSqTailWrite x0 x1 x2 x3 = .next t := by
  obtain ⟨t, ht⟩ := next_bell (x0 := x3) (x1 := x0) (x2 := 64 * x1) (x3 := x2.idx) (x4 := fun t => t.sqTail x0 x1 x2.idx)
  unfold execSqTailWrite
  rw [ht]
  split
  · rename_i heq _
    cases heq
    exact next_fetchOther
  · exact ⟨t, rfl⟩

theorem next_execCqHeadWrite {x0 : Nat} {x1 : Nat} {x2 : Nat} {x3 : State} : ∃ t, execCqHeadWrite x0 x1 x2 x3 = .next t := by
  unfold execCqHeadWrite
  with_reducible repeat' first
    | exact ⟨_, rfl⟩ | assumption | exact next_bell | split | dsimp only

theorem next_execCmdCtrlEnSet {x0 : Nat} {x1 : State} : ∃ t, execCmdCtrlEnSet x0 x1 = .next t := by
  unfold execCmdCtrlEnSet
  with_reducible repeat' first
    | exact ⟨_, rfl⟩ | assumption | exact next_barWrite | split | dsimp only

theorem next_thenGoOn {x0 : State} {x1 : Res} (h1 : ∃ t, x1 = .next t) : ∃ t, thenGoOn x0 x1 = .next t := by
  unfold thenGoOn
  with_reducible repeat' first
    | exact ⟨_, rfl⟩ | assumption | split | dsimp only

theorem next_execCmdCtrlEnClear {x0 : Nat} {x1 : State} : ∃ t, execCmdCtrlEnClear x0 x1 = .next t := by
  unfold execCmdCtrlEnClear
  with_reducible repeat' first
    | exact ⟨_, rfl⟩ | assumption | exact next_barWrite | refine next_thenGoOn ?_ | split | dsimp only

theorem next_execNop {x0 : Hdr} {x1 : Bytes} {x2 : State} : ∃ t, execNop x0 x1 x2 = .next t := by
  unfold execNop
  with_reducible repeat' first
    | exact ⟨_, rfl⟩ | assumption | exact next_runPkt | split | dsimp only

theorem next_execOpenSession {x0 : Hdr} {x1 : Bytes} {x2 : State} : ∃ t, execOpenSession x0 x1 x2 = .next t := by
  unfold execOpenSession
  with_reducible repeat' first
    | exact ⟨_, rfl⟩ | assumption | exact next_runPkt | split | dsimp only

theorem next_execCloseSession {x0 : Hdr} {x1 : Bytes} {x2 : State} : ∃ t, execCloseSession x0 x1 x2 = .next t := by
  unfold execCloseSession
  with_reducible repeat' first
    | exact ⟨_, rfl⟩ | assumption | exact next_runPkt | refine next_thenGoOn ?_ | split | dsimp only

theorem next_execSetRoleKey {x0 : Hdr} {x1 : Bytes} {x2 : State} : ∃ t, execSetRoleKey x0 x1 x2 = .next t := by
  unfold execSetRoleKey
  with_reducible repeat' first
    | exact ⟨_, rfl⟩ | assumption | exact next_runPkt | split | dsimp only

theorem next_execCreateQueuePair {x0 : Hdr} {x1 : Bytes} {x2 : State} : ∃ t, execCreateQueuePair x0 x1 x2 = .next t := by
  unfold execCreateQueuePair
  with_reducible repeat' first
    | exact ⟨_, rfl⟩ | assumption | exact next_runPkt | split | dsimp only

theorem next_execDeleteQueuePair {x0 : Hdr} {x1 : Bytes} {x2 : State} : ∃ t, execDeleteQueuePair x0 x1 x2 = .next t := by
  unfold execDeleteQueuePair
  with_reducible repeat' first
    | exact ⟨_, rfl⟩ | assumption | exact next_runPkt | split | dsimp only

theorem next_execIntermissionBegin {x0 : Hdr} {x1 : Bytes} {x2 : State} : ∃ t, execIntermissionBegin x0 x1 x2 = .next t := by
  unfold execIntermissionBegin
  with_reducible repeat' first
    | exact ⟨_, rfl⟩ | assumption | exact next_runPkt | split | dsimp only

theorem next_execIntermissionDrained {x0 : Nat} {x1 : State} : ∃ t, execIntermissionDrained x0 x1 = .next t := by
  unfold execIntermissionDrained
  with_reducible repeat' first
    | exact ⟨_, rfl⟩ | assumption | exact next_onMain | split | dsimp only

theorem next_execDrainLimitExpiry {x0 : Nat} {x1 : State} : ∃ t, execDrainLimitExpiry x0 x1 = .next t := by
  unfold execDrainLimitExpiry
  with_reducible repeat' first
    | exact ⟨_, rfl⟩ | assumption | exact next_onMain | split | dsimp only

theorem next_execIntermissionEnd {x0 : Hdr} {x1 : Bytes} {x2 : State} : ∃ t, execIntermissionEnd x0 x1 x2 = .next t := by
  unfold execIntermissionEnd
  with_reducible repeat' first
    | exact ⟨_, rfl⟩ | assumption | exact next_runPkt | split | dsimp only

theorem next_execIntermissionAtReached {x0 : Nat} {x1 : State} : ∃ t, execIntermissionAtReached x0 x1 = .next t := by
  unfold execIntermissionAtReached
  with_reducible repeat' first
    | exact ⟨_, rfl⟩ | assumption | exact next_onMain | split | dsimp only

theorem next_execGetState {x0 : Hdr} {x1 : Bytes} {x2 : State} : ∃ t, execGetState x0 x1 x2 = .next t := by
  unfold execGetState
  with_reducible repeat' first
    | exact ⟨_, rfl⟩ | assumption | exact next_runPkt | split | dsimp only

theorem next_execAbort {x0 : Hdr} {x1 : Bytes} {x2 : State} : ∃ t, execAbort x0 x1 x2 = .next t := next_thenUnload next_runPkt

theorem next_execLockoutExpiry {x0 : Nat} {x1 : State} : ∃ t, execLockoutExpiry x0 x1 = .next t := by
  unfold execLockoutExpiry
  with_reducible repeat' first
    | exact ⟨_, rfl⟩ | assumption | split | dsimp only

theorem next_execRasSetErrorRing {x0 : Hdr} {x1 : Bytes} {x2 : State} : ∃ t, execRasSetErrorRing x0 x1 x2 = .next t := by
  unfold execRasSetErrorRing
  with_reducible repeat' first
    | exact ⟨_, rfl⟩ | assumption | exact next_runPkt | split | dsimp only

theorem next_execRasErrorHead {x0 : Hdr} {x1 : Bytes} {x2 : State} : ∃ t, execRasErrorHead x0 x1 x2 = .next t := by
  unfold execRasErrorHead
  with_reducible repeat' first
    | exact ⟨_, rfl⟩ | assumption | exact next_runPkt | split | dsimp only

theorem next_execRasGetUnit {x0 : Hdr} {x1 : Bytes} {x2 : State} : ∃ t, execRasGetUnit x0 x1 x2 = .next t := by
  unfold execRasGetUnit
  with_reducible repeat' first
    | exact ⟨_, rfl⟩ | assumption | exact next_runPkt | split | dsimp only

theorem next_execRasFenceUnit {x0 : Hdr} {x1 : Bytes} {x2 : State} : ∃ t, execRasFenceUnit x0 x1 x2 = .next t := by
  unfold execRasFenceUnit
  with_reducible repeat' first
    | exact ⟨_, rfl⟩ | assumption | exact next_runPkt | split | dsimp only

theorem next_execRasSetTest {x0 : Hdr} {x1 : Bytes} {x2 : State} : ∃ t, execRasSetTest x0 x1 x2 = .next t := by
  unfold execRasSetTest
  with_reducible repeat' first
    | exact ⟨_, rfl⟩ | assumption | exact next_runPkt | split | dsimp only

theorem next_execCallAssign {x0 : Hdr} {x1 : Bytes} {x2 : State} : ∃ t, execCallAssign x0 x1 x2 = .next t := by
  unfold execCallAssign
  with_reducible repeat' first
    | exact ⟨_, rfl⟩ | assumption | exact next_runPkt | split | dsimp only

theorem next_execSmReadLog {x0 : Hdr} {x1 : Bytes} {x2 : State} : ∃ t, execSmReadLog x0 x1 x2 = .next t := by
  unfold execSmReadLog
  with_reducible repeat' first
    | exact ⟨_, rfl⟩ | assumption | exact next_runPkt | split | dsimp only

theorem next_execSmSetOperatorKey {x0 : Hdr} {x1 : Bytes} {x2 : State} : ∃ t, execSmSetOperatorKey x0 x1 x2 = .next t := by
  unfold execSmSetOperatorKey
  with_reducible repeat' first
    | exact ⟨_, rfl⟩ | assumption | exact next_runPkt | split | dsimp only

theorem next_execSmSetThreshold {x0 : Hdr} {x1 : Bytes} {x2 : State} : ∃ t, execSmSetThreshold x0 x1 x2 = .next t := by
  unfold execSmSetThreshold
  with_reducible repeat' first
    | exact ⟨_, rfl⟩ | assumption | exact next_runPkt | split | dsimp only

theorem next_execSmSetFwKey {x0 : Hdr} {x1 : Bytes} {x2 : State} : ∃ t, execSmSetFwKey x0 x1 x2 = .next t := by
  unfold execSmSetFwKey
  with_reducible repeat' first
    | exact ⟨_, rfl⟩ | assumption | exact next_runPkt | split | dsimp only

theorem next_execSmSetMgmt {x0 : Hdr} {x1 : Bytes} {x2 : State} : ∃ t, execSmSetMgmt x0 x1 x2 = .next t := by
  unfold execSmSetMgmt
  with_reducible repeat' first
    | exact ⟨_, rfl⟩ | assumption | exact next_runPkt | split | dsimp only

theorem next_execPwrSetCap {x0 : Hdr} {x1 : Bytes} {x2 : State} : ∃ t, execPwrSetCap x0 x1 x2 = .next t := by
  unfold execPwrSetCap
  with_reducible repeat' first
    | exact ⟨_, rfl⟩ | assumption | exact next_runPkt | split | dsimp only

theorem next_execPwrSetConfig {x0 : Hdr} {x1 : Bytes} {x2 : State} : ∃ t, execPwrSetConfig x0 x1 x2 = .next t := by
  unfold execPwrSetConfig
  with_reducible repeat' first
    | exact ⟨_, rfl⟩ | assumption | exact next_runPkt | split | dsimp only

theorem next_cmdModule {x0 : Nat} {x1 : Hdr} {x2 : Bytes} {x3 : State} : ∃ t, cmdModule x0 x1 x2 x3 = .next t := by
  unfold cmdModule
  with_reducible repeat' first
    | exact ⟨_, rfl⟩ | assumption | exact next_execPwrSetConfig | exact next_execCloseSession | exact next_execSetRoleKey | exact next_execOpenSession | exact next_execSmSetOperatorKey | exact next_execRasSetTest | exact next_execGetState | exact next_execCallAssign | exact next_execRasErrorHead | exact next_execRasSetErrorRing | exact next_execIntermissionBegin | exact next_execIntermissionEnd | exact next_execNop | exact next_execPwrSetCap | exact next_execSetPartitions | exact next_execSmReadLog | exact next_execAbort | exact next_execSmSetMgmt | exact next_execDeleteQueuePair | exact next_execRasFenceUnit | exact next_execCreateQueuePair | exact next_execSmSetThreshold | exact next_execRasGetUnit | exact next_execSmSetFwKey | exact next_execOther | split | dsimp only

theorem next_cmdCue {x0 : Nat} {x1 : Hdr} {x2 : Bytes} {x3 : State} : ∃ t, cmdCue x0 x1 x2 x3 = .next t := by
  unfold cmdCue
  with_reducible repeat' first
    | exact ⟨_, rfl⟩ | assumption | exact next_execCueEventClear | exact next_execSetCueSource | exact next_execCueEventSet | exact next_execOther | split | dsimp only

theorem next_execTapLoadProgram {x0 : Hdr} {x1 : Bytes} {x2 : State} : ∃ t, execTapLoadProgram x0 x1 x2 = .next t := by
  unfold execTapLoadProgram
  with_reducible repeat' first
    | exact ⟨_, rfl⟩ | assumption | exact next_runPkt | split | dsimp only

theorem next_execTapUnloadProgram {x0 : Hdr} {x1 : Bytes} {x2 : State} : ∃ t, execTapUnloadProgram x0 x1 x2 = .next t := by
  unfold execTapUnloadProgram
  with_reducible repeat' first
    | exact ⟨_, rfl⟩ | assumption | exact next_runPkt | split | dsimp only

theorem next_execTapRun {x0 : Hdr} {x1 : Bytes} {x2 : State} : ∃ t, execTapRun x0 x1 x2 = .next t := by
  unfold execTapRun
  with_reducible repeat' first
    | exact ⟨_, rfl⟩ | assumption | exact next_runPkt | split | dsimp only

theorem next_execTapBindQueue {x0 : Hdr} {x1 : Bytes} {x2 : State} : ∃ t, execTapBindQueue x0 x1 x2 = .next t := by
  unfold execTapBindQueue
  with_reducible repeat' first
    | exact ⟨_, rfl⟩ | assumption | exact next_runPkt | split | dsimp only

theorem next_execTapUnbindQueue {x0 : Hdr} {x1 : Bytes} {x2 : State} : ∃ t, execTapUnbindQueue x0 x1 x2 = .next t := by
  unfold execTapUnbindQueue
  with_reducible repeat' first
    | exact ⟨_, rfl⟩ | assumption | exact next_runPkt | split | dsimp only

theorem next_execTapGetQueue {x0 : Hdr} {x1 : Bytes} {x2 : State} : ∃ t, execTapGetQueue x0 x1 x2 = .next t := by
  unfold execTapGetQueue
  with_reducible repeat' first
    | exact ⟨_, rfl⟩ | assumption | exact next_runPkt | split | dsimp only

theorem next_execTapSetPolicy {x0 : Hdr} {x1 : Bytes} {x2 : State} : ∃ t, execTapSetPolicy x0 x1 x2 = .next t := by
  unfold execTapSetPolicy
  with_reducible repeat' first
    | exact ⟨_, rfl⟩ | assumption | exact next_runPkt | split | dsimp only

theorem next_cmdTap {x0 : Nat} {x1 : Hdr} {x2 : Bytes} {x3 : State} : ∃ t, cmdTap x0 x1 x2 x3 = .next t := by
  unfold cmdTap
  with_reducible repeat' first
    | exact ⟨_, rfl⟩ | assumption | exact next_execTapGetQueue | exact next_execTapRun | exact next_execTapSetPolicy | exact next_execTapBindQueue | exact next_execTapUnbindQueue | exact next_execTapUnloadProgram | exact next_execTapLoadProgram | exact next_execOther | split | dsimp only

theorem next_execShuOpenStream {x0 : Hdr} {x1 : Bytes} {x2 : State} : ∃ t, execShuOpenStream x0 x1 x2 = .next t := by
  unfold execShuOpenStream
  with_reducible repeat' first
    | exact ⟨_, rfl⟩ | assumption | exact next_runPkt | split | dsimp only

theorem next_execShuCloseStream {x0 : Hdr} {x1 : Bytes} {x2 : State} : ∃ t, execShuCloseStream x0 x1 x2 = .next t := by
  unfold execShuCloseStream
  with_reducible repeat' first
    | exact ⟨_, rfl⟩ | assumption | exact next_runPkt | split | dsimp only

theorem next_execShuFeed {x0 : Hdr} {x1 : Bytes} {x2 : State} : ∃ t, execShuFeed x0 x1 x2 = .next t := by
  unfold execShuFeed
  with_reducible repeat' first
    | exact ⟨_, rfl⟩ | assumption | exact next_runPkt | split | dsimp only

theorem next_execShuGetStream {x0 : Hdr} {x1 : Bytes} {x2 : State} : ∃ t, execShuGetStream x0 x1 x2 = .next t := by
  unfold execShuGetStream
  with_reducible repeat' first
    | exact ⟨_, rfl⟩ | assumption | exact next_runPkt | split | dsimp only

theorem next_execShuSetPolicy {x0 : Hdr} {x1 : Bytes} {x2 : State} : ∃ t, execShuSetPolicy x0 x1 x2 = .next t := by
  unfold execShuSetPolicy
  with_reducible repeat' first
    | exact ⟨_, rfl⟩ | assumption | exact next_runPkt | split | dsimp only

theorem next_execShuReturnOutput {x0 : Hdr} {x1 : Bytes} {x2 : State} : ∃ t, execShuReturnOutput x0 x1 x2 = .next t := by
  unfold execShuReturnOutput
  with_reducible repeat' first
    | exact ⟨_, rfl⟩ | assumption | exact next_runPkt | split | dsimp only

theorem next_execShuSetMel {x0 : Hdr} {x1 : Bytes} {x2 : State} : ∃ t, execShuSetMel x0 x1 x2 = .next t := by
  unfold execShuSetMel
  with_reducible repeat' first
    | exact ⟨_, rfl⟩ | assumption | exact next_runPkt | split | dsimp only

theorem next_cmdShu {x0 : Nat} {x1 : Hdr} {x2 : Bytes} {x3 : State} : ∃ t, cmdShu x0 x1 x2 x3 = .next t := by
  unfold cmdShu
  with_reducible repeat' first
    | exact ⟨_, rfl⟩ | assumption | exact next_execShuFeed | exact next_execShuSetMel | exact next_execShuSetPolicy | exact next_execShuReturnOutput | exact next_execShuGetStream | exact next_execShuCloseStream | exact next_execShuOpenStream | exact next_execOther | split | dsimp only

theorem next_execLoomOpenJob {x0 : Hdr} {x1 : Bytes} {x2 : State} : ∃ t, execLoomOpenJob x0 x1 x2 = .next t := by
  unfold execLoomOpenJob
  with_reducible repeat' first
    | exact ⟨_, rfl⟩ | assumption | exact next_runPkt | split | dsimp only

theorem next_execLoomCloseJob {x0 : Hdr} {x1 : Bytes} {x2 : State} : ∃ t, execLoomCloseJob x0 x1 x2 = .next t := by
  unfold execLoomCloseJob
  with_reducible repeat' first
    | exact ⟨_, rfl⟩ | assumption | exact next_runPkt | split | dsimp only

theorem next_execLoomAddWarp {x0 : Hdr} {x1 : Bytes} {x2 : State} : ∃ t, execLoomAddWarp x0 x1 x2 = .next t := by
  unfold execLoomAddWarp
  with_reducible repeat' first
    | exact ⟨_, rfl⟩ | assumption | exact next_runPkt | split | dsimp only

theorem next_execLoomSetLayout {x0 : Hdr} {x1 : Bytes} {x2 : State} : ∃ t, execLoomSetLayout x0 x1 x2 = .next t := by
  unfold execLoomSetLayout
  with_reducible repeat' first
    | exact ⟨_, rfl⟩ | assumption | exact next_runPkt | split | dsimp only

theorem next_execLoomStart {x0 : Hdr} {x1 : Bytes} {x2 : State} : ∃ t, execLoomStart x0 x1 x2 = .next t := by
  unfold execLoomStart
  with_reducible repeat' first
    | exact ⟨_, rfl⟩ | assumption | exact next_runPkt | split | dsimp only

theorem next_execLoomGetCursor {x0 : Hdr} {x1 : Bytes} {x2 : State} : ∃ t, execLoomGetCursor x0 x1 x2 = .next t := by
  unfold execLoomGetCursor
  with_reducible repeat' first
    | exact ⟨_, rfl⟩ | assumption | exact next_runPkt | split | dsimp only

theorem next_execLoomSetCursor {x0 : Hdr} {x1 : Bytes} {x2 : State} : ∃ t, execLoomSetCursor x0 x1 x2 = .next t := by
  unfold execLoomSetCursor
  with_reducible repeat' first
    | exact ⟨_, rfl⟩ | assumption | exact next_runPkt | split | dsimp only

theorem next_execLoomGetOrder {x0 : Hdr} {x1 : Bytes} {x2 : State} : ∃ t, execLoomGetOrder x0 x1 x2 = .next t := by
  unfold execLoomGetOrder
  with_reducible repeat' first
    | exact ⟨_, rfl⟩ | assumption | exact next_runPkt | split | dsimp only

theorem next_execLoomGetJob {x0 : Hdr} {x1 : Bytes} {x2 : State} : ∃ t, execLoomGetJob x0 x1 x2 = .next t := by
  unfold execLoomGetJob
  with_reducible repeat' first
    | exact ⟨_, rfl⟩ | assumption | exact next_runPkt | split | dsimp only

theorem next_execLoomSetShare {x0 : Hdr} {x1 : Bytes} {x2 : State} : ∃ t, execLoomSetShare x0 x1 x2 = .next t := by
  unfold execLoomSetShare
  with_reducible repeat' first
    | exact ⟨_, rfl⟩ | assumption | exact next_runPkt | split | dsimp only

theorem next_cmdLoom {x0 : Nat} {x1 : Hdr} {x2 : Bytes} {x3 : State} : ∃ t, cmdLoom x0 x1 x2 x3 = .next t := by
  unfold cmdLoom
  with_reducible repeat' first
    | exact ⟨_, rfl⟩ | assumption | exact next_execLoomSetLayout | exact next_execLoomStart | exact next_execLoomSetCursor | exact next_execLoomGetJob | exact next_execLoomCloseJob | exact next_execLoomSetShare | exact next_execLoomGetCursor | exact next_execLoomAddWarp | exact next_execLoomOpenJob | exact next_execLoomGetOrder | exact next_execOther | split | dsimp only

theorem next_execFeedSetPort {x0 : Hdr} {x1 : Bytes} {x2 : State} : ∃ t, execFeedSetPort x0 x1 x2 = .next t := by
  unfold execFeedSetPort
  with_reducible repeat' first
    | exact ⟨_, rfl⟩ | assumption | exact next_runPkt | split | dsimp only

theorem next_execFeedAdmit {x0 : Hdr} {x1 : Bytes} {x2 : State} : ∃ t, execFeedAdmit x0 x1 x2 = .next t := by
  unfold execFeedAdmit
  with_reducible repeat' first
    | exact ⟨_, rfl⟩ | assumption | exact next_runPkt | split | dsimp only

theorem next_execFeedRelease {x0 : Hdr} {x1 : Bytes} {x2 : State} : ∃ t, execFeedRelease x0 x1 x2 = .next t := by
  unfold execFeedRelease
  with_reducible repeat' first
    | exact ⟨_, rfl⟩ | assumption | exact next_runPkt | split | dsimp only

theorem next_execLatchAssign {x0 : Hdr} {x1 : Bytes} {x2 : State} : ∃ t, execLatchAssign x0 x1 x2 = .next t := by
  unfold execLatchAssign
  with_reducible repeat' first
    | exact ⟨_, rfl⟩ | assumption | exact next_runPkt | split | dsimp only

theorem next_execFeedCreateRing {x0 : Hdr} {x1 : Bytes} {x2 : State} : ∃ t, execFeedCreateRing x0 x1 x2 = .next t := by
  unfold execFeedCreateRing
  with_reducible repeat' first
    | exact ⟨_, rfl⟩ | assumption | exact next_runPkt | split | dsimp only

theorem next_execFeedDestroyRing {x0 : Hdr} {x1 : Bytes} {x2 : State} : ∃ t, execFeedDestroyRing x0 x1 x2 = .next t := by
  unfold execFeedDestroyRing
  with_reducible repeat' first
    | exact ⟨_, rfl⟩ | assumption | exact next_runPkt | split | dsimp only

theorem next_execFeedResetRing {x0 : Hdr} {x1 : Bytes} {x2 : State} : ∃ t, execFeedResetRing x0 x1 x2 = .next t := by
  unfold execFeedResetRing
  with_reducible repeat' first
    | exact ⟨_, rfl⟩ | assumption | exact next_runPkt | split | dsimp only

theorem next_execFeedGetRing {x0 : Hdr} {x1 : Bytes} {x2 : State} : ∃ t, execFeedGetRing x0 x1 x2 = .next t := by
  unfold execFeedGetRing
  with_reducible repeat' first
    | exact ⟨_, rfl⟩ | assumption | exact next_runPkt | split | dsimp only

theorem next_execFeedJoin {x0 : Hdr} {x1 : Bytes} {x2 : State} : ∃ t, execFeedJoin x0 x1 x2 = .next t := by
  unfold execFeedJoin
  with_reducible repeat' first
    | exact ⟨_, rfl⟩ | assumption | exact next_runPkt | split | dsimp only

theorem next_cmdFeed {x0 : Nat} {x1 : Hdr} {x2 : Bytes} {x3 : State} : ∃ t, cmdFeed x0 x1 x2 x3 = .next t := by
  unfold cmdFeed
  with_reducible repeat' first
    | exact ⟨_, rfl⟩ | assumption | exact next_execFeedRelease | exact next_execFeedSetPort | exact next_execFeedDestroyRing | exact next_execFeedCreateRing | exact next_execFeedResetRing | exact next_execFeedAdmit | exact next_execLatchAssign | exact next_execFeedGetRing | exact next_execFeedJoin | exact next_execOther | split | dsimp only

theorem next_execSetPortMode {x0 : Hdr} {x1 : Bytes} {x2 : State} : ∃ t, execSetPortMode x0 x1 x2 = .next t := by
  unfold execSetPortMode
  with_reducible repeat' first
    | exact ⟨_, rfl⟩ | assumption | exact next_runPkt | split | dsimp only

theorem next_execGetPortStatus {x0 : Hdr} {x1 : Bytes} {x2 : State} : ∃ t, execGetPortStatus x0 x1 x2 = .next t := by
  unfold execGetPortStatus
  with_reducible repeat' first
    | exact ⟨_, rfl⟩ | assumption | exact next_runPkt | split | dsimp only

theorem next_execCreateQp {x0 : Hdr} {x1 : Bytes} {x2 : State} : ∃ t, execCreateQp x0 x1 x2 = .next t := by
  unfold execCreateQp
  with_reducible repeat' first
    | exact ⟨_, rfl⟩ | assumption | exact next_runPkt | split | dsimp only

theorem next_execModifyQp {x0 : Hdr} {x1 : Bytes} {x2 : State} : ∃ t, execModifyQp x0 x1 x2 = .next t := by
  unfold execModifyQp
  with_reducible repeat' first
    | exact ⟨_, rfl⟩ | assumption | exact next_runPkt | split | dsimp only

theorem next_execDestroyQp {x0 : Hdr} {x1 : Bytes} {x2 : State} : ∃ t, execDestroyQp x0 x1 x2 = .next t := by
  unfold execDestroyQp
  with_reducible repeat' first
    | exact ⟨_, rfl⟩ | assumption | exact next_runPkt | split | dsimp only

theorem next_execQueryQp {x0 : Hdr} {x1 : Bytes} {x2 : State} : ∃ t, execQueryQp x0 x1 x2 = .next t := by
  unfold execQueryQp
  with_reducible repeat' first
    | exact ⟨_, rfl⟩ | assumption | exact next_runPkt | split | dsimp only

theorem next_execSetEventQueue {x0 : Hdr} {x1 : Bytes} {x2 : State} : ∃ t, execSetEventQueue x0 x1 x2 = .next t := by
  unfold execSetEventQueue
  with_reducible repeat' first
    | exact ⟨_, rfl⟩ | assumption | exact next_runPkt | split | dsimp only

theorem next_execRegisterRegion {x0 : Hdr} {x1 : Bytes} {x2 : State} : ∃ t, execRegisterRegion x0 x1 x2 = .next t := by
  unfold execRegisterRegion
  with_reducible repeat' first
    | exact ⟨_, rfl⟩ | assumption | exact next_runPkt | split | dsimp only

theorem next_execDeregisterRegion {x0 : Hdr} {x1 : Bytes} {x2 : State} : ∃ t, execDeregisterRegion x0 x1 x2 = .next t := by
  unfold execDeregisterRegion
  with_reducible repeat' first
    | exact ⟨_, rfl⟩ | assumption | exact next_runPkt | split | dsimp only

theorem next_execTroupeAddMember {x0 : Hdr} {x1 : Bytes} {x2 : State} : ∃ t, execTroupeAddMember x0 x1 x2 = .next t := by
  unfold execTroupeAddMember
  with_reducible repeat' first
    | exact ⟨_, rfl⟩ | assumption | exact next_runPkt | split | dsimp only

theorem next_execTroupeRemoveMember {x0 : Hdr} {x1 : Bytes} {x2 : State} : ∃ t, execTroupeRemoveMember x0 x1 x2 = .next t := by
  unfold execTroupeRemoveMember
  with_reducible repeat' first
    | exact ⟨_, rfl⟩ | assumption | exact next_runPkt | split | dsimp only

theorem next_execSetContextReserve {x0 : Hdr} {x1 : Bytes} {x2 : State} : ∃ t, execSetContextReserve x0 x1 x2 = .next t := by
  unfold execSetContextReserve
  with_reducible repeat' first
    | exact ⟨_, rfl⟩ | assumption | exact next_runPkt | split | dsimp only

theorem next_cmdNet {x0 : Nat} {x1 : Hdr} {x2 : Bytes} {x3 : State} : ∃ t, cmdNet x0 x1 x2 x3 = .next t := by
  unfold cmdNet
  with_reducible repeat' first
    | exact ⟨_, rfl⟩ | assumption | exact next_execModifyQp | exact next_execDeregisterRegion | exact next_execQueryQp | exact next_execDestroyQp | exact next_execTroupeAddMember | exact next_execCreateQp | exact next_execRegisterRegion | exact next_execGetPortStatus | exact next_execTroupeRemoveMember | exact next_execSetEventQueue | exact next_execSetContextReserve | exact next_execSetPortMode | exact next_execOther | split | dsimp only

theorem next_execHedLoadGraph {x0 : Hdr} {x1 : Bytes} {x2 : State} : ∃ t, execHedLoadGraph x0 x1 x2 = .next t := by
  unfold execHedLoadGraph
  with_reducible repeat' first
    | exact ⟨_, rfl⟩ | assumption | exact next_runPkt | split | dsimp only

theorem next_execHedSetTable {x0 : Hdr} {x1 : Bytes} {x2 : State} : ∃ t, execHedSetTable x0 x1 x2 = .next t := by
  unfold execHedSetTable
  with_reducible repeat' first
    | exact ⟨_, rfl⟩ | assumption | exact next_runPkt | split | dsimp only

theorem next_execHedAddEntry {x0 : Hdr} {x1 : Bytes} {x2 : State} : ∃ t, execHedAddEntry x0 x1 x2 = .next t := by
  unfold execHedAddEntry
  with_reducible repeat' first
    | exact ⟨_, rfl⟩ | assumption | exact next_runPkt | split | dsimp only

theorem next_execHedDelEntry {x0 : Hdr} {x1 : Bytes} {x2 : State} : ∃ t, execHedDelEntry x0 x1 x2 = .next t := by
  unfold execHedDelEntry
  with_reducible repeat' first
    | exact ⟨_, rfl⟩ | assumption | exact next_runPkt | split | dsimp only

theorem next_execSetPacketRing {x0 : Hdr} {x1 : Bytes} {x2 : State} : ∃ t, execSetPacketRing x0 x1 x2 = .next t := by
  unfold execSetPacketRing
  with_reducible repeat' first
    | exact ⟨_, rfl⟩ | assumption | exact next_runPkt | split | dsimp only

theorem next_cmdHed {x0 : Nat} {x1 : Hdr} {x2 : Bytes} {x3 : State} : ∃ t, cmdHed x0 x1 x2 x3 = .next t := by
  unfold cmdHed
  with_reducible repeat' first
    | exact ⟨_, rfl⟩ | assumption | exact next_execHedDelEntry | exact next_execHedLoadGraph | exact next_execHedSetTable | exact next_execHedAddEntry | exact next_execOther | exact next_execSetPacketRing | split | dsimp only

theorem next_execCipAssignPages {x0 : Hdr} {x1 : Bytes} {x2 : State} : ∃ t, execCipAssignPages x0 x1 x2 = .next t := by
  unfold execCipAssignPages
  with_reducible repeat' first
    | exact ⟨_, rfl⟩ | assumption | exact next_runPkt | split | dsimp only

theorem next_execCipLoadKey {x0 : Hdr} {x1 : Bytes} {x2 : State} : ∃ t, execCipLoadKey x0 x1 x2 = .next t := by
  unfold execCipLoadKey
  with_reducible repeat' first
    | exact ⟨_, rfl⟩ | assumption | exact next_runPkt | split | dsimp only

theorem next_execCipClearPage {x0 : Hdr} {x1 : Bytes} {x2 : State} : ∃ t, execCipClearPage x0 x1 x2 = .next t := by
  unfold execCipClearPage
  with_reducible repeat' first
    | exact ⟨_, rfl⟩ | assumption | exact next_runPkt | split | dsimp only

theorem next_execCipCrypt {x0 : Hdr} {x1 : Bytes} {x2 : State} : ∃ t, execCipCrypt x0 x1 x2 = .next t := by
  unfold execCipCrypt
  with_reducible repeat' first
    | exact ⟨_, rfl⟩ | assumption | exact next_runPkt | split | dsimp only

theorem next_cmdCip {x0 : Nat} {x1 : Hdr} {x2 : Bytes} {x3 : State} : ∃ t, cmdCip x0 x1 x2 x3 = .next t := by
  unfold cmdCip
  with_reducible repeat' first
    | exact ⟨_, rfl⟩ | assumption | exact next_execCipClearPage | exact next_execCipAssignPages | exact next_execCipLoadKey | exact next_execCipCrypt | exact next_execOther | split | dsimp only

theorem next_execConnectTarget {x0 : Hdr} {x1 : Bytes} {x2 : State} : ∃ t, execConnectTarget x0 x1 x2 = .next t := by
  unfold execConnectTarget
  with_reducible repeat' first
    | exact ⟨_, rfl⟩ | assumption | exact next_runPkt | split | dsimp only

theorem next_execDisconnectTarget {x0 : Hdr} {x1 : Bytes} {x2 : State} : ∃ t, execDisconnectTarget x0 x1 x2 = .next t := by
  unfold execDisconnectTarget
  with_reducible repeat' first
    | exact ⟨_, rfl⟩ | assumption | exact next_runPkt | split | dsimp only

theorem next_execAttachNamespace {x0 : Hdr} {x1 : Bytes} {x2 : Bytes} {x3 : State} : ∃ t, execAttachNamespace x0 x1 x2 x3 = .next t := by
  unfold execAttachNamespace
  with_reducible repeat' first
    | exact ⟨_, rfl⟩ | assumption | exact next_runPkt | split | dsimp only

theorem next_execDetachNamespace {x0 : Hdr} {x1 : Bytes} {x2 : State} : ∃ t, execDetachNamespace x0 x1 x2 = .next t := by
  unfold execDetachNamespace
  with_reducible repeat' first
    | exact ⟨_, rfl⟩ | assumption | exact next_runPkt | split | dsimp only

theorem next_execSetNsMode {x0 : Hdr} {x1 : Bytes} {x2 : State} : ∃ t, execSetNsMode x0 x1 x2 = .next t := by
  unfold execSetNsMode
  with_reducible repeat' first
    | exact ⟨_, rfl⟩ | assumption | exact next_runPkt | split | dsimp only

theorem next_execSetWbQuota {x0 : Hdr} {x1 : Bytes} {x2 : State} : ∃ t, execSetWbQuota x0 x1 x2 = .next t := by
  unfold execSetWbQuota
  with_reducible repeat' first
    | exact ⟨_, rfl⟩ | assumption | exact next_runPkt | split | dsimp only

theorem next_execGetNsStatus {x0 : Hdr} {x1 : Bytes} {x2 : State} : ∃ t, execGetNsStatus x0 x1 x2 = .next t := by
  unfold execGetNsStatus
  with_reducible repeat' first
    | exact ⟨_, rfl⟩ | assumption | exact next_runPkt | split | dsimp only

theorem next_execDiscardDirty {x0 : Hdr} {x1 : Bytes} {x2 : State} : ∃ t, execDiscardDirty x0 x1 x2 = .next t := by
  unfold execDiscardDirty
  with_reducible repeat' first
    | exact ⟨_, rfl⟩ | assumption | exact next_runPkt | split | dsimp only

theorem next_cmdSto {x0 : Nat} {x1 : Hdr} {x2 : Bytes} {x3 : Bytes} {x4 : State} : ∃ t, cmdSto x0 x1 x2 x3 x4 = .next t := by
  unfold cmdSto
  with_reducible repeat' first
    | exact ⟨_, rfl⟩ | assumption | exact next_execSetWbQuota | exact next_execDiscardDirty | exact next_execAttachNamespace | exact next_execSetNsMode | exact next_execDetachNamespace | exact next_execDisconnectTarget | exact next_execGetNsStatus | exact next_execConnectTarget | exact next_execOther | split | dsimp only

theorem next_execCkpSetJob {x0 : Hdr} {x1 : Bytes} {x2 : State} : ∃ t, execCkpSetJob x0 x1 x2 = .next t := by
  unfold execCkpSetJob
  with_reducible repeat' first
    | exact ⟨_, rfl⟩ | assumption | exact next_runPkt | split | dsimp only

theorem next_execCkpSetShards {x0 : Hdr} {x1 : Bytes} {x2 : State} : ∃ t, execCkpSetShards x0 x1 x2 = .next t := by
  unfold execCkpSetShards
  with_reducible repeat' first
    | exact ⟨_, rfl⟩ | assumption | exact next_runPkt | split | dsimp only

theorem next_execCkpSetTrigger {x0 : Hdr} {x1 : Bytes} {x2 : State} : ∃ t, execCkpSetTrigger x0 x1 x2 = .next t := by
  unfold execCkpSetTrigger
  with_reducible repeat' first
    | exact ⟨_, rfl⟩ | assumption | exact next_runPkt | split | dsimp only

theorem next_execCkpCapture {x0 : Hdr} {x1 : Bytes} {x2 : State} : ∃ t, execCkpCapture x0 x1 x2 = .next t := by
  unfold execCkpCapture
  with_reducible repeat' first
    | exact ⟨_, rfl⟩ | assumption | exact next_runPkt | split | dsimp only

theorem next_execCkpGetJob {x0 : Hdr} {x1 : Bytes} {x2 : State} : ∃ t, execCkpGetJob x0 x1 x2 = .next t := by
  unfold execCkpGetJob
  with_reducible repeat' first
    | exact ⟨_, rfl⟩ | assumption | exact next_runPkt | split | dsimp only

theorem next_execCkpRestore {x0 : Hdr} {x1 : Bytes} {x2 : State} : ∃ t, execCkpRestore x0 x1 x2 = .next t := by
  unfold execCkpRestore
  with_reducible repeat' first
    | exact ⟨_, rfl⟩ | assumption | exact next_runPkt | split | dsimp only

theorem next_execCkpSetSigners {x0 : Hdr} {x1 : Bytes} {x2 : State} : ∃ t, execCkpSetSigners x0 x1 x2 = .next t := by
  unfold execCkpSetSigners
  with_reducible repeat' first
    | exact ⟨_, rfl⟩ | assumption | exact next_runPkt | split | dsimp only

theorem next_execCkpCloseJob {x0 : Hdr} {x1 : Bytes} {x2 : State} : ∃ t, execCkpCloseJob x0 x1 x2 = .next t := by
  unfold execCkpCloseJob
  with_reducible repeat' first
    | exact ⟨_, rfl⟩ | assumption | exact next_runPkt | split | dsimp only

theorem next_execCkpReadBank {x0 : Hdr} {x1 : Bytes} {x2 : State} : ∃ t, execCkpReadBank x0 x1 x2 = .next t := by
  unfold execCkpReadBank
  with_reducible repeat' first
    | exact ⟨_, rfl⟩ | assumption | exact next_runPkt | split | dsimp only

theorem next_cmdCkp {x0 : Nat} {x1 : Hdr} {x2 : Bytes} {x3 : State} : ∃ t, cmdCkp x0 x1 x2 x3 = .next t := by
  unfold cmdCkp
  with_reducible repeat' first
    | exact ⟨_, rfl⟩ | assumption | exact next_execCkpSetSigners | exact next_execCkpSetJob | exact next_execCkpGetJob | exact next_execCkpReadBank | exact next_execCkpCapture | exact next_execCkpSetShards | exact next_execCkpCloseJob | exact next_execCkpSetTrigger | exact next_execCkpRestore | exact next_execOther | split | dsimp only

theorem next_execObsSetSnapArea {x0 : Hdr} {x1 : Bytes} {x2 : State} : ∃ t, execObsSetSnapArea x0 x1 x2 = .next t := by
  unfold execObsSetSnapArea
  with_reducible repeat' first
    | exact ⟨_, rfl⟩ | assumption | exact next_runPkt | split | dsimp only

theorem next_execObsSnapHead {x0 : Hdr} {x1 : Bytes} {x2 : State} : ∃ t, execObsSnapHead x0 x1 x2 = .next t := by
  unfold execObsSnapHead
  with_reducible repeat' first
    | exact ⟨_, rfl⟩ | assumption | exact next_runPkt | split | dsimp only

theorem next_execObsSetCounter {x0 : Hdr} {x1 : Bytes} {x2 : State} : ∃ t, execObsSetCounter x0 x1 x2 = .next t := by
  unfold execObsSetCounter
  with_reducible repeat' first
    | exact ⟨_, rfl⟩ | assumption | exact next_runPkt | split | dsimp only

theorem next_execObsTraceCfg {x0 : Hdr} {x1 : Bytes} {x2 : State} : ∃ t, execObsTraceCfg x0 x1 x2 = .next t := by
  unfold execObsTraceCfg
  with_reducible repeat' first
    | exact ⟨_, rfl⟩ | assumption | exact next_runPkt | split | dsimp only

theorem next_execObsTraceStart {x0 : Hdr} {x1 : Bytes} {x2 : State} : ∃ t, execObsTraceStart x0 x1 x2 = .next t := by
  unfold execObsTraceStart
  with_reducible repeat' first
    | exact ⟨_, rfl⟩ | assumption | exact next_runPkt | split | dsimp only

theorem next_execObsTraceStop {x0 : Hdr} {x1 : Bytes} {x2 : State} : ∃ t, execObsTraceStop x0 x1 x2 = .next t := by
  unfold execObsTraceStop
  with_reducible repeat' first
    | exact ⟨_, rfl⟩ | assumption | exact next_runPkt | split | dsimp only

theorem next_execObsTrigger {x0 : Hdr} {x1 : Bytes} {x2 : State} : ∃ t, execObsTrigger x0 x1 x2 = .next t := by
  unfold execObsTrigger
  with_reducible repeat' first
    | exact ⟨_, rfl⟩ | assumption | exact next_runPkt | split | dsimp only

theorem next_execObsTraceRead {x0 : Hdr} {x1 : Bytes} {x2 : State} : ∃ t, execObsTraceRead x0 x1 x2 = .next t := by
  unfold execObsTraceRead
  with_reducible repeat' first
    | exact ⟨_, rfl⟩ | assumption | exact next_runPkt | split | dsimp only

theorem next_execObsTableau {x0 : Hdr} {x1 : Bytes} {x2 : State} : ∃ t, execObsTableau x0 x1 x2 = .next t := by
  unfold execObsTableau
  with_reducible repeat' first
    | exact ⟨_, rfl⟩ | assumption | exact next_runPkt | split | dsimp only

theorem next_execObsClearCounters {x0 : Hdr} {x1 : Bytes} {x2 : State} : ∃ t, execObsClearCounters x0 x1 x2 = .next t := by
  unfold execObsClearCounters
  with_reducible repeat' first
    | exact ⟨_, rfl⟩ | assumption | exact next_runPkt | split | dsimp only

theorem next_cmdObs {x0 : Nat} {x1 : Hdr} {x2 : Bytes} {x3 : State} : ∃ t, cmdObs x0 x1 x2 x3 = .next t := by
  unfold cmdObs
  with_reducible repeat' first
    | exact ⟨_, rfl⟩ | assumption | exact next_execObsSetCounter | exact next_execObsTraceStart | exact next_execObsTraceRead | exact next_execObsSetSnapArea | exact next_execObsClearCounters | exact next_execObsTableau | exact next_execObsTraceCfg | exact next_execObsSnapHead | exact next_execObsTraceStop | exact next_execOther | exact next_execObsTrigger | split | dsimp only

theorem next_execFwGetInfo {x0 : Hdr} {x1 : Bytes} {x2 : State} : ∃ t, execFwGetInfo x0 x1 x2 = .next t := by
  unfold execFwGetInfo
  with_reducible repeat' first
    | exact ⟨_, rfl⟩ | assumption | exact next_runPkt | split | dsimp only

theorem next_execFwStage {x0 : Hdr} {x1 : Bytes} {x2 : State} : ∃ t, execFwStage x0 x1 x2 = .next t := by
  unfold execFwStage
  with_reducible repeat' first
    | exact ⟨_, rfl⟩ | assumption | exact next_runPkt | split | dsimp only

theorem next_execFwVerify {x0 : Hdr} {x1 : Bytes} {x2 : State} : ∃ t, execFwVerify x0 x1 x2 = .next t := by
  unfold execFwVerify
  with_reducible repeat' first
    | exact ⟨_, rfl⟩ | assumption | exact next_runPkt | split | dsimp only

theorem next_execFwActivate {x0 : Hdr} {x1 : Bytes} {x2 : State} : ∃ t, execFwActivate x0 x1 x2 = .next t := by
  unfold execFwActivate
  with_reducible repeat' first
    | exact ⟨_, rfl⟩ | assumption | exact next_runPkt | split | dsimp only

theorem next_execFwCommit {x0 : Hdr} {x1 : Bytes} {x2 : State} : ∃ t, execFwCommit x0 x1 x2 = .next t := by
  unfold execFwCommit
  with_reducible repeat' first
    | exact ⟨_, rfl⟩ | assumption | exact next_runPkt | split | dsimp only

theorem next_execFwRollback {x0 : Hdr} {x1 : Bytes} {x2 : State} : ∃ t, execFwRollback x0 x1 x2 = .next t := by
  unfold execFwRollback
  with_reducible repeat' first
    | exact ⟨_, rfl⟩ | assumption | exact next_runPkt | split | dsimp only

theorem next_execFwLoadModule {x0 : Hdr} {x1 : Bytes} {x2 : State} : ∃ t, execFwLoadModule x0 x1 x2 = .next t := by
  unfold execFwLoadModule
  with_reducible repeat' first
    | exact ⟨_, rfl⟩ | assumption | exact next_runPkt | split | dsimp only

theorem next_execFwUnloadModule {x0 : Hdr} {x1 : Bytes} {x2 : State} : ∃ t, execFwUnloadModule x0 x1 x2 = .next t := by
  unfold execFwUnloadModule
  with_reducible repeat' first
    | exact ⟨_, rfl⟩ | assumption | exact next_runPkt | split | dsimp only

theorem next_execFwSetModuleKey {x0 : Hdr} {x1 : Bytes} {x2 : State} : ∃ t, execFwSetModuleKey x0 x1 x2 = .next t := by
  unfold execFwSetModuleKey
  with_reducible repeat' first
    | exact ⟨_, rfl⟩ | assumption | exact next_runPkt | split | dsimp only

theorem next_cmdFw {x0 : Nat} {x1 : Hdr} {x2 : Bytes} {x3 : State} : ∃ t, cmdFw x0 x1 x2 x3 = .next t := by
  unfold cmdFw
  with_reducible repeat' first
    | exact ⟨_, rfl⟩ | assumption | exact next_execFwUnloadModule | exact next_execFwSetModuleKey | exact next_execFwGetInfo | exact next_execFwActivate | exact next_execFwVerify | exact next_execFwCommit | exact next_execFwLoadModule | exact next_execFwRollback | exact next_execFwStage | exact next_execOther | split | dsimp only

theorem next_execVfSetResources {x0 : Hdr} {x1 : Bytes} {x2 : State} : ∃ t, execVfSetResources x0 x1 x2 = .next t := by
  unfold execVfSetResources
  with_reducible repeat' first
    | exact ⟨_, rfl⟩ | assumption | exact next_runPkt | split | dsimp only

theorem next_execVfGetResources {x0 : Hdr} {x1 : Bytes} {x2 : State} : ∃ t, execVfGetResources x0 x1 x2 = .next t := by
  unfold execVfGetResources
  with_reducible repeat' first
    | exact ⟨_, rfl⟩ | assumption | exact next_runPkt | split | dsimp only

theorem next_execVfSetMbox {x0 : Hdr} {x1 : Bytes} {x2 : State} : ∃ t, execVfSetMbox x0 x1 x2 = .next t := by
  unfold execVfSetMbox
  with_reducible repeat' first
    | exact ⟨_, rfl⟩ | assumption | exact next_runPkt | split | dsimp only

theorem next_execVfFreeze {x0 : Hdr} {x1 : Bytes} {x2 : State} : ∃ t, execVfFreeze x0 x1 x2 = .next t := by
  unfold execVfFreeze
  with_reducible repeat' first
    | exact ⟨_, rfl⟩ | assumption | exact next_runPkt | split | dsimp only

theorem next_execVfRestore {x0 : Hdr} {x1 : Bytes} {x2 : Bytes} {x3 : State} : ∃ t, execVfRestore x0 x1 x2 x3 = .next t := by
  unfold execVfRestore
  with_reducible repeat' first
    | exact ⟨_, rfl⟩ | assumption | exact next_runPkt | split | dsimp only

theorem next_execVfResume {x0 : Hdr} {x1 : Bytes} {x2 : State} : ∃ t, execVfResume x0 x1 x2 = .next t := by
  unfold execVfResume
  with_reducible repeat' first
    | exact ⟨_, rfl⟩ | assumption | exact next_runPkt | split | dsimp only

theorem next_execVfSetMigKey {x0 : Hdr} {x1 : Bytes} {x2 : State} : ∃ t, execVfSetMigKey x0 x1 x2 = .next t := by
  unfold execVfSetMigKey
  with_reducible repeat' first
    | exact ⟨_, rfl⟩ | assumption | exact next_runPkt | split | dsimp only

theorem next_cmdVf {x0 : Nat} {x1 : Hdr} {x2 : Bytes} {x3 : Bytes} {x4 : State} : ∃ t, cmdVf x0 x1 x2 x3 x4 = .next t := by
  unfold cmdVf
  with_reducible repeat' first
    | exact ⟨_, rfl⟩ | assumption | exact next_execVfSetResources | exact next_execVfFreeze | exact next_runPkt | exact next_execVfSetMbox | exact next_execVfRestore | exact next_execVfGetResources | exact next_execVfResume | exact next_execVfSetMigKey | exact next_execOther | split | dsimp only

theorem next_execOpcode {x0 : Nat} {x1 : Hdr} {x2 : Bytes} {x3 : Bytes} {x4 : State} : ∃ t, execOpcode x0 x1 x2 x3 x4 = .next t := by
  unfold execOpcode
  with_reducible repeat' first
    | exact ⟨_, rfl⟩ | assumption | exact next_cmdCkp | exact next_cmdFw | exact next_cmdShu | exact next_cmdNet | exact next_cmdVf | exact next_cmdCip | exact next_cmdFeed | exact next_cmdLoom | exact next_cmdCue | exact next_cmdModule | exact next_cmdObs | exact next_cmdTap | exact next_cmdSto | exact next_cmdHed | exact next_execOther | split | dsimp only

theorem next_execForwardedCommand {x0 : Nat} {x1 : Bytes} {x2 : Bytes} {x3 : Bool} {x4 : Bytes} {x5 : State} : ∃ t, execForwardedCommand x0 x1 x2 x3 x4 x5 = .next t := by
  unfold execForwardedCommand
  with_reducible repeat' first
    | exact ⟨_, rfl⟩ | assumption | exact next_execOpcode | split | dsimp only

theorem next_execTroupeMemberReply {x0 : Nat} {x1 : Bytes} {x2 : State} : ∃ t, execTroupeMemberReply x0 x1 x2 = .next t := by
  unfold execTroupeMemberReply
  with_reducible repeat' first
    | exact ⟨_, rfl⟩ | assumption | exact next_onMain | split | dsimp only

theorem next_execTroupeTimeout {x0 : Nat} {x1 : State} : ∃ t, execTroupeTimeout x0 x1 = .next t := by
  unfold execTroupeTimeout
  with_reducible repeat' first
    | exact ⟨_, rfl⟩ | assumption | exact next_onMain | split | dsimp only

theorem next_nvmeReg {x0 : Nat} {x1 : State} {x2 : State → State} : ∃ t, nvmeReg x0 x1 x2 = .next t := by
  unfold nvmeReg
  with_reducible repeat' first
    | exact ⟨_, rfl⟩ | assumption | split | dsimp only

theorem next_execNvmeCcEnable {x0 : Nat} {x1 : Nat} {x2 : State} : ∃ t, execNvmeCcEnable x0 x1 x2 = .next t := by
  unfold execNvmeCcEnable
  with_reducible repeat' first
    | exact ⟨_, rfl⟩ | assumption | exact next_nvmeReg | split | dsimp only

theorem next_execNvmeCcDisable {x0 : Nat} {x1 : Nat} {x2 : State} : ∃ t, execNvmeCcDisable x0 x1 x2 = .next t := by
  unfold execNvmeCcDisable
  with_reducible repeat' first
    | exact ⟨_, rfl⟩ | assumption | exact next_nvmeReg | split | dsimp only

theorem next_execNvmeShutdown {x0 : Nat} {x1 : Nat} {x2 : State} : ∃ t, execNvmeShutdown x0 x1 x2 = .next t := by
  unfold execNvmeShutdown
  with_reducible repeat' first
    | exact ⟨_, rfl⟩ | assumption | exact next_nvmeReg | split | dsimp only

theorem next_execNvmeSqDoorbell {x0 : Nat} {x1 : Nat} {x2 : NvmeBell} {x3 : State} : ∃ t, execNvmeSqDoorbell x0 x1 x2 x3 = .next t := by
  obtain ⟨t, ht⟩ := next_bell (x0 := x3) (x1 := x0) (x2 := 0x1000 + 8 * x1) (x3 := x2.idx) (x4 := fun s => s.nvmeSqBell x0 x1 x2.idx)
  unfold execNvmeSqDoorbell
  rw [ht]
  split
  · exact ⟨_, rfl⟩
  · exact ⟨t, rfl⟩

theorem next_execNvmeCqDoorbell {x0 : Nat} {x1 : Nat} {x2 : Nat} {x3 : State} : ∃ t, execNvmeCqDoorbell x0 x1 x2 x3 = .next t := by
  unfold execNvmeCqDoorbell
  with_reducible repeat' first
    | exact ⟨_, rfl⟩ | assumption | exact next_bell | split | dsimp only

theorem next_nvmeAdmin {x0 : NvmeCmd} {x1 : State} {x2 : State → State} : ∃ t, nvmeAdmin x0 x1 x2 = .next t := by
  unfold nvmeAdmin
  with_reducible repeat' first
    | exact ⟨_, rfl⟩ | assumption | split | dsimp only

theorem next_execDeleteIoSq {x0 : NvmeCmd} {x1 : State} : ∃ t, execDeleteIoSq x0 x1 = .next t := by
  unfold execDeleteIoSq
  with_reducible repeat' first
    | exact ⟨_, rfl⟩ | assumption | exact next_nvmeAdmin | split | dsimp only

theorem next_execCreateIoSq {x0 : NvmeCmd} {x1 : State} : ∃ t, execCreateIoSq x0 x1 = .next t := by
  unfold execCreateIoSq
  with_reducible repeat' first
    | exact ⟨_, rfl⟩ | assumption | exact next_nvmeAdmin | split | dsimp only

theorem next_execGetLogPage {x0 : NvmeCmd} {x1 : State} : ∃ t, execGetLogPage x0 x1 = .next t := by
  unfold execGetLogPage
  with_reducible repeat' first
    | exact ⟨_, rfl⟩ | assumption | exact next_nvmeAdmin | split | dsimp only

theorem next_execDeleteIoCq {x0 : NvmeCmd} {x1 : State} : ∃ t, execDeleteIoCq x0 x1 = .next t := by
  unfold execDeleteIoCq
  with_reducible repeat' first
    | exact ⟨_, rfl⟩ | assumption | exact next_nvmeAdmin | split | dsimp only

theorem next_execCreateIoCq {x0 : NvmeCmd} {x1 : State} : ∃ t, execCreateIoCq x0 x1 = .next t := by
  unfold execCreateIoCq
  with_reducible repeat' first
    | exact ⟨_, rfl⟩ | assumption | exact next_nvmeAdmin | split | dsimp only

theorem next_execIdentify {x0 : NvmeCmd} {x1 : State} : ∃ t, execIdentify x0 x1 = .next t := by
  unfold execIdentify
  with_reducible repeat' first
    | exact ⟨_, rfl⟩ | assumption | exact next_nvmeAdmin | split | dsimp only

theorem next_execNvmeAbort {x0 : NvmeCmd} {x1 : State} : ∃ t, execNvmeAbort x0 x1 = .next t := by
  unfold execNvmeAbort
  with_reducible repeat' first
    | exact ⟨_, rfl⟩ | assumption | exact next_nvmeAdmin | split | dsimp only

theorem next_execSetFeatures {x0 : NvmeCmd} {x1 : State} : ∃ t, execSetFeatures x0 x1 = .next t := by
  unfold execSetFeatures
  with_reducible repeat' first
    | exact ⟨_, rfl⟩ | assumption | exact next_nvmeAdmin | split | dsimp only

theorem next_execGetFeatures {x0 : NvmeCmd} {x1 : State} : ∃ t, execGetFeatures x0 x1 = .next t := by
  unfold execGetFeatures
  with_reducible repeat' first
    | exact ⟨_, rfl⟩ | assumption | exact next_nvmeAdmin | split | dsimp only

theorem next_execAsyncEventRequest {x0 : NvmeCmd} {x1 : State} : ∃ t, execAsyncEventRequest x0 x1 = .next t := by
  unfold execAsyncEventRequest
  with_reducible repeat' first
    | exact ⟨_, rfl⟩ | assumption | exact next_nvmeAdmin | split | dsimp only

theorem next_nvmeIo {x0 : NvmeCmd} {x1 : State} {x2 : State → State} : ∃ t, nvmeIo x0 x1 x2 = .next t := by
  unfold nvmeIo
  with_reducible repeat' first
    | exact ⟨_, rfl⟩ | assumption | split | dsimp only

theorem next_execFlush {x0 : NvmeCmd} {x1 : State} : ∃ t, execFlush x0 x1 = .next t := by
  unfold execFlush
  with_reducible repeat' first
    | exact ⟨_, rfl⟩ | assumption | exact next_nvmeIo | split | dsimp only

theorem next_execWrite {x0 : NvmeCmd} {x1 : State} : ∃ t, execWrite x0 x1 = .next t := by
  unfold execWrite
  with_reducible repeat' first
    | exact ⟨_, rfl⟩ | assumption | exact next_nvmeIo | split | dsimp only

theorem next_execRead {x0 : NvmeCmd} {x1 : State} : ∃ t, execRead x0 x1 = .next t := by
  unfold execRead
  with_reducible repeat' first
    | exact ⟨_, rfl⟩ | assumption | exact next_nvmeIo | split | dsimp only

theorem next_execWriteZeroes {x0 : NvmeCmd} {x1 : State} : ∃ t, execWriteZeroes x0 x1 = .next t := by
  unfold execWriteZeroes
  with_reducible repeat' first
    | exact ⟨_, rfl⟩ | assumption | exact next_nvmeIo | split | dsimp only

theorem next_execDatasetManagement {x0 : NvmeCmd} {x1 : State} : ∃ t, execDatasetManagement x0 x1 = .next t := by
  unfold execDatasetManagement
  with_reducible repeat' first
    | exact ⟨_, rfl⟩ | assumption | exact next_nvmeIo | split | dsimp only

theorem next_execWriteBufferAdmit {x0 : State} : ∃ t, execWriteBufferAdmit x0 = .next t := by
  unfold execWriteBufferAdmit
  with_reducible repeat' first
    | exact ⟨_, rfl⟩ | assumption | exact next_onMain | split | dsimp only

theorem next_execWbDrainStart {x0 : State} : ∃ t, execWbDrainStart x0 = .next t := by
  unfold execWbDrainStart
  with_reducible repeat' first
    | exact ⟨_, rfl⟩ | assumption | exact next_onMainIf | split | dsimp only

theorem next_execWbDrainComplete {x0 : Nat} {x1 : Nat} {x2 : State} : ∃ t, execWbDrainComplete x0 x1 x2 = .next t := by
  unfold execWbDrainComplete
  with_reducible repeat' first
    | exact ⟨_, rfl⟩ | assumption | exact next_onMain | split | dsimp only

theorem next_execRemoteReadComplete {x0 : Nat} {x1 : Bytes} {x2 : State} : ∃ t, execRemoteReadComplete x0 x1 x2 = .next t := by
  unfold execRemoteReadComplete
  with_reducible repeat' first
    | exact ⟨_, rfl⟩ | assumption | exact next_onMain | split | dsimp only

theorem next_execRemoteCommandFail {x0 : Nat} {x1 : Nat} {x2 : State} : ∃ t, execRemoteCommandFail x0 x1 x2 = .next t := by
  unfold execRemoteCommandFail
  with_reducible repeat' first
    | exact ⟨_, rfl⟩ | assumption | exact next_onMain | split | dsimp only

theorem next_execTargetAssociated {x0 : Nat} {x1 : State} : ∃ t, execTargetAssociated x0 x1 = .next t := by
  unfold execTargetAssociated
  with_reducible repeat' first
    | exact ⟨_, rfl⟩ | assumption | exact next_onMain | split | dsimp only

theorem next_execLinkUp {x0 : Nat} {x1 : State} : ∃ t, execLinkUp x0 x1 = .next t := by
  unfold execLinkUp
  with_reducible repeat' first
    | exact ⟨_, rfl⟩ | assumption | exact next_onMainIf | split | dsimp only

theorem next_execLinkDown {x0 : Nat} {x1 : State} : ∃ t, execLinkDown x0 x1 = .next t := by
  unfold execLinkDown
  with_reducible repeat' first
    | exact ⟨_, rfl⟩ | assumption | exact next_onMainIf | split | dsimp only

theorem next_execFecDegrade {x0 : Nat} {x1 : Nat} {x2 : State} : ∃ t, execFecDegrade x0 x1 x2 = .next t := by
  unfold execFecDegrade
  with_reducible repeat' first
    | exact ⟨_, rfl⟩ | assumption | exact next_onMainIf | split | dsimp only

theorem next_execFrameReceived {x0 : Nat} {x1 : Bytes} {x2 : Bool} {x3 : Nat} {x4 : State} : ∃ t, execFrameReceived x0 x1 x2 x3 x4 = .next t := by
  unfold execFrameReceived
  with_reducible repeat' first
    | exact ⟨_, rfl⟩ | assumption | exact next_onMainIf | split | dsimp only

theorem next_execFrameRecirculate {x0 : Nat} {x1 : State} : ∃ t, execFrameRecirculate x0 x1 = .next t := by
  unfold execFrameRecirculate
  with_reducible repeat' first
    | exact ⟨_, rfl⟩ | assumption | exact next_onMain | split | dsimp only

theorem next_onQpn {x0 : State} {x1 : Nat} {x2 : State → Qp → State} : ∃ t, onQpn x0 x1 x2 = .next t := by
  unfold onQpn
  with_reducible repeat' first
    | exact ⟨_, rfl⟩ | assumption | exact next_onMain | split | dsimp only

theorem next_onMemory {x0 : State} {x1 : HeldUse} {x2 : State → State} : ∃ t, onMemory x0 x1 x2 = .next t := by
  unfold onMemory
  with_reducible repeat' first
    | exact ⟨_, rfl⟩ | assumption | exact next_onMain | split | dsimp only

theorem next_execRdmaWriteReceived {x0 : RdmaPkt} {x1 : State} : ∃ t, execRdmaWriteReceived x0 x1 = .next t := by
  unfold execRdmaWriteReceived
  with_reducible repeat' first
    | exact ⟨_, rfl⟩ | assumption | exact next_onMemory | split | dsimp only

theorem next_execRdmaReadRequest {x0 : RdmaPkt} {x1 : State} : ∃ t, execRdmaReadRequest x0 x1 = .next t := by
  unfold execRdmaReadRequest
  with_reducible repeat' first
    | exact ⟨_, rfl⟩ | assumption | exact next_onMemory | split | dsimp only

theorem next_execRdmaReadResponse {x0 : RdmaPkt} {x1 : State} : ∃ t, execRdmaReadResponse x0 x1 = .next t := by
  unfold execRdmaReadResponse
  with_reducible repeat' first
    | exact ⟨_, rfl⟩ | assumption | exact next_onQpn | split | dsimp only

theorem next_execAckReceived {x0 : RdmaPkt} {x1 : State} : ∃ t, execAckReceived x0 x1 = .next t := by
  unfold execAckReceived
  with_reducible repeat' first
    | exact ⟨_, rfl⟩ | assumption | exact next_onQpn | split | dsimp only

theorem next_execCnpReceived {x0 : Nat} {x1 : State} : ∃ t, execCnpReceived x0 x1 = .next t := by
  unfold execCnpReceived
  with_reducible repeat' first
    | exact ⟨_, rfl⟩ | assumption | exact next_onQpn | split | dsimp only

theorem next_execQpAckTimeout {x0 : Nat} {x1 : State} : ∃ t, execQpAckTimeout x0 x1 = .next t := by
  unfold execQpAckTimeout
  with_reducible repeat' first
    | exact ⟨_, rfl⟩ | assumption | exact next_onQpn | split | dsimp only

theorem next_execSprayAckTimer {x0 : Nat} {x1 : State} : ∃ t, execSprayAckTimer x0 x1 = .next t := by
  unfold execSprayAckTimer
  with_reducible repeat' first
    | exact ⟨_, rfl⟩ | assumption | exact next_onQpn | split | dsimp only

theorem next_execQpRecoveryStart {x0 : Nat} {x1 : State} : ∃ t, execQpRecoveryStart x0 x1 = .next t := by
  unfold execQpRecoveryStart
  with_reducible repeat' first
    | exact ⟨_, rfl⟩ | assumption | exact next_onQpn | split | dsimp only

theorem next_execRecoverSendTimer {x0 : Nat} {x1 : State} : ∃ t, execRecoverSendTimer x0 x1 = .next t := by
  unfold execRecoverSendTimer
  with_reducible repeat' first
    | exact ⟨_, rfl⟩ | assumption | exact next_onQpn | split | dsimp only

theorem next_execRecoverReceived {x0 : RdmaPkt} {x1 : State} : ∃ t, execRecoverReceived x0 x1 = .next t := by
  unfold execRecoverReceived
  with_reducible repeat' first
    | exact ⟨_, rfl⟩ | assumption | exact next_onQpn | split | dsimp only

theorem next_execRecoveryAttemptTimeout {x0 : Nat} {x1 : State} : ∃ t, execRecoveryAttemptTimeout x0 x1 = .next t := by
  unfold execRecoveryAttemptTimeout
  with_reducible repeat' first
    | exact ⟨_, rfl⟩ | assumption | exact next_onQpn | split | dsimp only

theorem next_execRecoveryRetry {x0 : Nat} {x1 : State} : ∃ t, execRecoveryRetry x0 x1 = .next t := by
  unfold execRecoveryRetry
  with_reducible repeat' first
    | exact ⟨_, rfl⟩ | assumption | exact next_onQpn | split | dsimp only

theorem next_execPathDown {x0 : Nat} {x1 : Nat} {x2 : State} : ∃ t, execPathDown x0 x1 x2 = .next t := by
  unfold execPathDown
  with_reducible repeat' first
    | exact ⟨_, rfl⟩ | assumption | exact next_onQpn | split | dsimp only

theorem next_execPathProbe {x0 : Nat} {x1 : Nat} {x2 : Bool} {x3 : State} : ∃ t, execPathProbe x0 x1 x2 x3 = .next t := by
  unfold execPathProbe
  with_reducible repeat' first
    | exact ⟨_, rfl⟩ | assumption | exact next_onQpn | split | dsimp only

theorem next_execNetEvqHeadWrite {x0 : Nat} {x1 : State} : ∃ t, execNetEvqHeadWrite x0 x1 = .next t := by
  unfold execNetEvqHeadWrite
  with_reducible repeat' first
    | exact ⟨_, rfl⟩ | assumption | exact next_barWrite | split | dsimp only

theorem next_execCmReqReceived {x0 : Bytes} {x1 : Bytes} {x2 : State} : ∃ t, execCmReqReceived x0 x1 x2 = .next t := by
  unfold execCmReqReceived
  with_reducible repeat' first
    | exact ⟨_, rfl⟩ | assumption | exact next_onMain | split | dsimp only

theorem next_execCmRepReceived {x0 : Nat} {x1 : Bytes} {x2 : State} : ∃ t, execCmRepReceived x0 x1 x2 = .next t := by
  unfold execCmRepReceived
  with_reducible repeat' first
    | exact ⟨_, rfl⟩ | assumption | exact next_onMain | split | dsimp only

theorem next_execFlowAgeExpiry {x0 : Nat} {x1 : State} : ∃ t, execFlowAgeExpiry x0 x1 = .next t := by
  unfold execFlowAgeExpiry
  with_reducible repeat' first
    | exact ⟨_, rfl⟩ | assumption | exact next_onMain | split | dsimp only

theorem next_execContextError {x0 : Nat} {x1 : State} : ∃ t, execContextError x0 x1 = .next t := by
  unfold execContextError
  with_reducible repeat' first
    | exact ⟨_, rfl⟩ | assumption | exact next_onMain | split | dsimp only

theorem next_execCipherUnitDone {x0 : Nat} {x1 : Bool} {x2 : State} : ∃ t, execCipherUnitDone x0 x1 x2 = .next t := by
  unfold execCipherUnitDone
  with_reducible repeat' first
    | exact ⟨_, rfl⟩ | assumption | exact next_onMain | split | dsimp only

theorem next_execEspLaneTimeout {x0 : Nat} {x1 : State} : ∃ t, execEspLaneTimeout x0 x1 = .next t := by
  unfold execEspLaneTimeout
  with_reducible repeat' first
    | exact ⟨_, rfl⟩ | assumption | exact next_onMain | split | dsimp only

theorem next_execDrbgReseed {x0 : Nat} {x1 : State} : ∃ t, execDrbgReseed x0 x1 = .next t := by
  unfold execDrbgReseed
  with_reducible repeat' first
    | exact ⟨_, rfl⟩ | assumption | exact next_onMain | split | dsimp only

theorem next_shuEvent {x0 : State} {x1 : State → State} : ∃ t, shuEvent x0 x1 = .next t := by
  unfold shuEvent
  with_reducible repeat' first
    | exact ⟨_, rfl⟩ | assumption | exact next_onMain | split | dsimp only

theorem next_execStreamInputRead {x0 : Nat} {x1 : Bytes} {x2 : Bool} {x3 : State} : ∃ t, execStreamInputRead x0 x1 x2 x3 = .next t := by
  unfold execStreamInputRead
  with_reducible repeat' first
    | exact ⟨_, rfl⟩ | assumption | exact next_shuEvent | split | dsimp only

theorem next_execPictureDecoded {x0 : Nat} {x1 : Picture} {x2 : State} : ∃ t, execPictureDecoded x0 x1 x2 = .next t := by
  unfold execPictureDecoded
  with_reducible repeat' first
    | exact ⟨_, rfl⟩ | assumption | exact next_shuEvent | split | dsimp only

theorem next_execAudioFrameDecoded {x0 : Nat} {x1 : AudioFrame} {x2 : State} : ∃ t, execAudioFrameDecoded x0 x1 x2 = .next t := by
  unfold execAudioFrameDecoded
  with_reducible repeat' first
    | exact ⟨_, rfl⟩ | assumption | exact next_shuEvent | split | dsimp only

theorem next_execCaptionChange {x0 : Nat} {x1 : Caption} {x2 : State} : ∃ t, execCaptionChange x0 x1 x2 = .next t := by
  unfold execCaptionChange
  with_reducible repeat' first
    | exact ⟨_, rfl⟩ | assumption | exact next_shuEvent | split | dsimp only

theorem next_execSliceReparseDone {x0 : Nat} {x1 : Nat} {x2 : Bool} {x3 : State} : ∃ t, execSliceReparseDone x0 x1 x2 x3 = .next t := by
  unfold execSliceReparseDone
  with_reducible repeat' first
    | exact ⟨_, rfl⟩ | assumption | exact next_shuEvent | split | dsimp only

theorem next_execContainerTimeout {x0 : Nat} {x1 : State} : ∃ t, execContainerTimeout x0 x1 = .next t := by
  unfold execContainerTimeout
  with_reducible repeat' first
    | exact ⟨_, rfl⟩ | assumption | exact next_shuEvent | split | dsimp only

theorem next_execQueueWaitExpiry {x0 : Nat} {x1 : State} : ∃ t, execQueueWaitExpiry x0 x1 = .next t := by
  unfold execQueueWaitExpiry
  with_reducible repeat' first
    | exact ⟨_, rfl⟩ | assumption | exact next_onMain | split | dsimp only

theorem next_execSliceComplete {x0 : Nat} {x1 : Nat} {x2 : Upsets} {x3 : State} : ∃ t, execSliceComplete x0 x1 x2 x3 = .next t := by
  unfold execSliceComplete
  with_reducible repeat' first
    | exact ⟨_, rfl⟩ | assumption | exact next_onMain | split | dsimp only

theorem next_execSliceOverrun {x0 : Nat} {x1 : State} : ∃ t, execSliceOverrun x0 x1 = .next t := by
  unfold execSliceOverrun
  with_reducible repeat' first
    | exact ⟨_, rfl⟩ | assumption | exact next_onMainIf | split | dsimp only

theorem next_execCoreJoin {x0 : Nat} {x1 : State} : ∃ t, execCoreJoin x0 x1 = .next t := by
  unfold execCoreJoin
  with_reducible repeat' first
    | exact ⟨_, rfl⟩ | assumption | exact next_onMainIf | split | dsimp only

theorem next_execLoomFetchStart {x0 : Nat} {x1 : State} : ∃ t, execLoomFetchStart x0 x1 = .next t := by
  unfold execLoomFetchStart
  with_reducible repeat' first
    | exact ⟨_, rfl⟩ | assumption | exact next_onMainIf | split | dsimp only

theorem next_execIndexEntryRead {x0 : Nat} {x1 : Nat} {x2 : Nat} {x3 : Bytes} {x4 : State} : ∃ t, execIndexEntryRead x0 x1 x2 x3 x4 = .next t := by
  unfold execIndexEntryRead
  with_reducible repeat' first
    | exact ⟨_, rfl⟩ | assumption | exact next_onMain | split | dsimp only

theorem next_execSamplePayloadRead {x0 : Nat} {x1 : Nat} {x2 : Nat} {x3 : Bytes} {x4 : State} : ∃ t, execSamplePayloadRead x0 x1 x2 x3 x4 = .next t := by
  unfold execSamplePayloadRead
  with_reducible repeat' first
    | exact ⟨_, rfl⟩ | assumption | exact next_onMain | split | dsimp only

theorem next_execSampleAdmit {x0 : Nat} {x1 : Nat} {x2 : Bytes} {x3 : Nat} {x4 : State} : ∃ t, execSampleAdmit x0 x1 x2 x3 x4 = .next t := by
  unfold execSampleAdmit
  with_reducible repeat' first
    | exact ⟨_, rfl⟩ | assumption | exact next_onMain | split | dsimp only

theorem next_execExchangeNotice {x0 : Nat} {x1 : Bytes} {x2 : State} : ∃ t, execExchangeNotice x0 x1 x2 = .next t := by
  unfold execExchangeNotice
  with_reducible repeat' first
    | exact ⟨_, rfl⟩ | assumption | exact next_onMain | split | dsimp only

theorem next_execRescueFetch {x0 : Nat} {x1 : Nat} {x2 : Nat} {x3 : State} : ∃ t, execRescueFetch x0 x1 x2 x3 = .next t := by
  unfold execRescueFetch
  with_reducible repeat' first
    | exact ⟨_, rfl⟩ | assumption | exact next_onMain | split | dsimp only

theorem next_execWeaveClose {x0 : Nat} {x1 : Nat} {x2 : State} : ∃ t, execWeaveClose x0 x1 x2 = .next t := by
  unfold execWeaveClose
  with_reducible repeat' first
    | exact ⟨_, rfl⟩ | assumption | exact next_onMain | split | dsimp only

theorem next_execAccelPresence {x0 : Nat} {x1 : State} : ∃ t, execAccelPresence x0 x1 = .next t := by
  unfold execAccelPresence
  with_reducible repeat' first
    | exact ⟨_, rfl⟩ | assumption | exact next_onMain | split | dsimp only

theorem next_execAccelEnumerated {x0 : Nat} {x1 : Bool} {x2 : List AccelFn} {x3 : Nat} {x4 : Nat} {x5 : Nat} {x6 : Nat} {x7 : State} : ∃ t, execAccelEnumerated x0 x1 x2 x3 x4 x5 x6 x7 = .next t := by
  unfold execAccelEnumerated
  with_reducible repeat' first
    | exact ⟨_, rfl⟩ | assumption | exact next_onMain | split | dsimp only

theorem next_execLinkTrainingTimeout {x0 : Nat} {x1 : State} : ∃ t, execLinkTrainingTimeout x0 x1 = .next t := by
  unfold execLinkTrainingTimeout
  with_reducible repeat' first
    | exact ⟨_, rfl⟩ | assumption | exact next_onMain | split | dsimp only

theorem next_execAccelRetryTimer {x0 : Nat} {x1 : State} : ∃ t, execAccelRetryTimer x0 x1 = .next t := by
  unfold execAccelRetryTimer
  with_reducible repeat' first
    | exact ⟨_, rfl⟩ | assumption | exact next_onMain | split | dsimp only

theorem next_execAccelDeparted {x0 : Nat} {x1 : State} : ∃ t, execAccelDeparted x0 x1 = .next t := by
  unfold execAccelDeparted
  with_reducible repeat' first
    | exact ⟨_, rfl⟩ | assumption | exact next_onMainIf | split | dsimp only

theorem next_latchWrite {x0 : Window} {x1 : Nat} {x2 : Nat} {x3 : State} {x4 : State → Nat → Bool → State} : ∃ t, latchWrite x0 x1 x2 x3 x4 = .next t := by
  unfold latchWrite
  with_reducible repeat' first
    | exact ⟨_, rfl⟩ | assumption | exact next_barWrite | exact next_onMain | split | dsimp only

theorem next_execLatchAdd {x0 : Window} {x1 : Nat} {x2 : Nat} {x3 : Nat} {x4 : State} : ∃ t, execLatchAdd x0 x1 x2 x3 x4 = .next t := by
  unfold execLatchAdd
  with_reducible repeat' first
    | exact ⟨_, rfl⟩ | assumption | exact next_latchWrite | split | dsimp only

theorem next_execLatchPost {x0 : Window} {x1 : Nat} {x2 : Nat} {x3 : Nat} {x4 : State} : ∃ t, execLatchPost x0 x1 x2 x3 x4 = .next t := by
  unfold execLatchPost
  with_reducible repeat' first
    | exact ⟨_, rfl⟩ | assumption | exact next_latchWrite | split | dsimp only

theorem next_latchReg {x0 : Access} {x1 : Nat} {x2 : State} {x3 : Latch → Nat} {x4 : State → Nat → Nat → State} : ∃ t, latchReg x0 x1 x2 x3 x4 = .next t := by
  unfold latchReg
  with_reducible repeat' first
    | exact ⟨_, rfl⟩ | assumption | exact next_barWrite | split | dsimp only

theorem next_execLatchValWrite {x0 : Access} {x1 : State} : ∃ t, execLatchValWrite x0 x1 = .next t := by
  unfold execLatchValWrite
  with_reducible repeat' first
    | exact ⟨_, rfl⟩ | assumption | exact next_latchReg | split | dsimp only

theorem next_execLatchThreshWrite {x0 : Access} {x1 : State} : ∃ t, execLatchThreshWrite x0 x1 = .next t := by
  unfold execLatchThreshWrite
  with_reducible repeat' first
    | exact ⟨_, rfl⟩ | assumption | exact next_latchReg | split | dsimp only

theorem next_execLatchCfgWrite {x0 : Access} {x1 : State} : ∃ t, execLatchCfgWrite x0 x1 = .next t := by
  unfold execLatchCfgWrite
  with_reducible repeat' first
    | exact ⟨_, rfl⟩ | assumption | exact next_latchReg | split | dsimp only

theorem next_execUpstreamAccess {x0 : Nat} {x1 : Nat} {x2 : Nat} {x3 : Upstream} {x4 : State} : ∃ t, execUpstreamAccess x0 x1 x2 x3 x4 = .next t := by
  unfold execUpstreamAccess
  with_reducible repeat' first
    | exact ⟨_, rfl⟩ | assumption | exact next_onMain | split | dsimp only

theorem next_execDeliveryIssue {x0 : Nat} {x1 : State} : ∃ t, execDeliveryIssue x0 x1 = .next t := by
  unfold execDeliveryIssue
  with_reducible repeat' first
    | exact ⟨_, rfl⟩ | assumption | exact next_onMain | split | dsimp only

theorem next_execDeliveryLanded {x0 : Nat} {x1 : Nat} {x2 : State} : ∃ t, execDeliveryLanded x0 x1 x2 = .next t := by
  unfold execDeliveryLanded
  with_reducible repeat' first
    | exact ⟨_, rfl⟩ | assumption | exact next_onMain | split | dsimp only

theorem next_execGenReadResponse {x0 : Nat} {x1 : Nat} {x2 : Nat} {x3 : State} : ∃ t, execGenReadResponse x0 x1 x2 x3 = .next t := by
  unfold execGenReadResponse
  with_reducible repeat' first
    | exact ⟨_, rfl⟩ | assumption | exact next_onMain | split | dsimp only

theorem next_execRingResetReadDone {x0 : Nat} {x1 : State} : ∃ t, execRingResetReadDone x0 x1 = .next t := by
  unfold execRingResetReadDone
  with_reducible repeat' first
    | exact ⟨_, rfl⟩ | assumption | exact next_onMain | split | dsimp only

theorem next_execCreditMailboxEntry {x0 : Nat} {x1 : Bytes} {x2 : State} : ∃ t, execCreditMailboxEntry x0 x1 x2 = .next t := by
  unfold execCreditMailboxEntry
  with_reducible repeat' first
    | exact ⟨_, rfl⟩ | assumption | exact next_onMain | split | dsimp only

theorem next_execLayoutNotice {x0 : Nat} {x1 : Bytes} {x2 : State} : ∃ t, execLayoutNotice x0 x1 x2 = .next t := by
  unfold execLayoutNotice
  with_reducible repeat' first
    | exact ⟨_, rfl⟩ | assumption | exact next_onMain | split | dsimp only

theorem next_execLayoutRoundTimeout {x0 : Nat} {x1 : Nat} {x2 : State} : ∃ t, execLayoutRoundTimeout x0 x1 x2 = .next t := by
  unfold execLayoutRoundTimeout
  with_reducible repeat' first
    | exact ⟨_, rfl⟩ | assumption | exact next_onMain | split | dsimp only

theorem next_execLayoutRepropose {x0 : Nat} {x1 : Nat} {x2 : State} : ∃ t, execLayoutRepropose x0 x1 x2 = .next t := by
  unfold execLayoutRepropose
  with_reducible repeat' first
    | exact ⟨_, rfl⟩ | assumption | exact next_onMain | split | dsimp only

theorem next_execDetectedError {x0 : Nat} {x1 : ErrCause} {x2 : Nat} {x3 : Nat} {x4 : State} : ∃ t, execDetectedError x0 x1 x2 x3 x4 = .next t := by
  unfold execDetectedError
  with_reducible repeat' first
    | exact ⟨_, rfl⟩ | assumption | exact next_onMainIf | split | dsimp only

theorem next_execCorrectedError {x0 : Nat} {x1 : Nat} {x2 : Bool} {x3 : State} : ∃ t, execCorrectedError x0 x1 x2 x3 = .next t := by
  unfold execCorrectedError
  with_reducible repeat' first
    | exact ⟨_, rfl⟩ | assumption | exact next_onMainIf | split | dsimp only

theorem next_execMeshDegraded {x0 : MeshLink} {x1 : State} : ∃ t, execMeshDegraded x0 x1 = .next t := by
  unfold execMeshDegraded
  with_reducible repeat' first
    | exact ⟨_, rfl⟩ | assumption | exact next_onMainIf | split | dsimp only

theorem next_execPatrolScrub {x0 : Nat} {x1 : Nat} {x2 : State} : ∃ t, execPatrolScrub x0 x1 x2 = .next t := by
  unfold execPatrolScrub
  with_reducible repeat' first
    | exact ⟨_, rfl⟩ | assumption | exact next_onMainIf | split | dsimp only

theorem next_execUncorrectableBurst {x0 : Nat} {x1 : Nat} {x2 : Bool} {x3 : Bool} {x4 : BurstObj} {x5 : State} : ∃ t, execUncorrectableBurst x0 x1 x2 x3 x4 x5 = .next t := by
  unfold execUncorrectableBurst
  with_reducible repeat' first
    | exact ⟨_, rfl⟩ | assumption | exact next_onMainIf | split | dsimp only

theorem next_execPartitionResetEnd {x0 : Nat} {x1 : List Nat} {x2 : State} : ∃ t, execPartitionResetEnd x0 x1 x2 = .next t := by
  unfold execPartitionResetEnd
  with_reducible repeat' first
    | exact ⟨_, rfl⟩ | assumption | exact next_onMain | split | dsimp only

theorem next_execChannelRemoved {x0 : State} : ∃ t, execChannelRemoved x0 = .next t := by
  unfold execChannelRemoved
  with_reducible repeat' first
    | exact ⟨_, rfl⟩ | assumption | exact next_onMain | split | dsimp only

theorem next_execRecordCoalesceExpiry {x0 : Nat} {x1 : Nat} {x2 : Nat} {x3 : State} : ∃ t, execRecordCoalesceExpiry x0 x1 x2 x3 = .next t := by
  unfold execRecordCoalesceExpiry
  with_reducible repeat' first
    | exact ⟨_, rfl⟩ | assumption | exact next_onAlways | split | dsimp only

theorem next_execIftDue {x0 : Nat} {x1 : State} : ∃ t, execIftDue x0 x1 = .next t := by
  unfold execIftDue
  with_reducible repeat' first
    | exact ⟨_, rfl⟩ | assumption | exact next_onMainIf | split | dsimp only

theorem next_execIftComplete {x0 : Nat} {x1 : Bool} {x2 : Nat} {x3 : State} : ∃ t, execIftComplete x0 x1 x2 x3 = .next t := by
  unfold execIftComplete
  with_reducible repeat' first
    | exact ⟨_, rfl⟩ | assumption | exact next_onMainIf | split | dsimp only

theorem next_onJobCk {x0 : State} {x1 : Nat} {x2 : State → CkJob → State} : ∃ t, onJobCk x0 x1 x2 = .next t := by
  unfold onJobCk
  with_reducible repeat' first
    | exact ⟨_, rfl⟩ | assumption | exact next_onMain | split | dsimp only

theorem next_execCaptureDecision {x0 : Nat} {x1 : State} : ∃ t, execCaptureDecision x0 x1 = .next t := by
  unfold execCaptureDecision
  with_reducible repeat' first
    | exact ⟨_, rfl⟩ | assumption | exact next_onJobCk | split | dsimp only

theorem next_onCapture {x0 : State} {x1 : Nat} {x2 : State → CkJob → Capture → State} : ∃ t, onCapture x0 x1 x2 = .next t := by
  unfold onCapture
  with_reducible repeat' first
    | exact ⟨_, rfl⟩ | assumption | exact next_onJobCk | split | dsimp only

theorem next_execBankZeroAck {x0 : Nat} {x1 : State} : ∃ t, execBankZeroAck x0 x1 = .next t := by
  unfold execBankZeroAck
  with_reducible repeat' first
    | exact ⟨_, rfl⟩ | assumption | exact next_onCapture | split | dsimp only

theorem next_execCaptureStart {x0 : Nat} {x1 : State} : ∃ t, execCaptureStart x0 x1 = .next t := by
  unfold execCaptureStart
  with_reducible repeat' first
    | exact ⟨_, rfl⟩ | assumption | exact next_onCapture | split | dsimp only

theorem next_execShardCopied {x0 : Nat} {x1 : Nat} {x2 : Bytes} {x3 : Bool} {x4 : State} : ∃ t, execShardCopied x0 x1 x2 x3 x4 = .next t := by
  unfold execShardCopied
  with_reducible repeat' first
    | exact ⟨_, rfl⟩ | assumption | exact next_onCapture | split | dsimp only

theorem next_execShardStored {x0 : Nat} {x1 : Nat} {x2 : State} : ∃ t, execShardStored x0 x1 x2 = .next t := by
  unfold execShardStored
  with_reducible repeat' first
    | exact ⟨_, rfl⟩ | assumption | exact next_onCapture | split | dsimp only

theorem next_execCaptureCommit {x0 : Nat} {x1 : State} : ∃ t, execCaptureCommit x0 x1 = .next t := by
  unfold execCaptureCommit
  with_reducible repeat' first
    | exact ⟨_, rfl⟩ | assumption | exact next_onCapture | split | dsimp only

theorem next_execPbWriteFail {x0 : Nat} {x1 : Nat} {x2 : State} : ∃ t, execPbWriteFail x0 x1 x2 = .next t := by
  unfold execPbWriteFail
  with_reducible repeat' first
    | exact ⟨_, rfl⟩ | assumption | exact next_onCapture | split | dsimp only

theorem next_execCheckpointNotice {x0 : Nat} {x1 : Bytes} {x2 : State} : ∃ t, execCheckpointNotice x0 x1 x2 = .next t := by
  unfold execCheckpointNotice
  with_reducible repeat' first
    | exact ⟨_, rfl⟩ | assumption | exact next_onJobCk | split | dsimp only

theorem next_execDrainComplete {x0 : Nat} {x1 : State} : ∃ t, execDrainComplete x0 x1 = .next t := by
  unfold execDrainComplete
  with_reducible repeat' first
    | exact ⟨_, rfl⟩ | assumption | exact next_onJobCk | split | dsimp only

theorem next_execRestoreShardRead {x0 : Nat} {x1 : Nat} {x2 : Bytes} {x3 : Bool} {x4 : State} : ∃ t, execRestoreShardRead x0 x1 x2 x3 x4 = .next t := by
  unfold execRestoreShardRead
  with_reducible repeat' first
    | exact ⟨_, rfl⟩ | assumption | exact next_onJobCk | split | dsimp only

theorem next_execStgLoadGo {x0 : Access} {x1 : State} : ∃ t, execStgLoadGo x0 x1 = .next t := by
  unfold execStgLoadGo
  with_reducible repeat' first
    | exact ⟨_, rfl⟩ | assumption | exact next_barWrite | split | dsimp only

theorem next_execStgLoadDone {x0 : Bytes} {x1 : Bool} {x2 : State} : ∃ t, execStgLoadDone x0 x1 x2 = .next t := by
  unfold execStgLoadDone
  with_reducible repeat' first
    | exact ⟨_, rfl⟩ | assumption | exact next_onMainIf | split | dsimp only

theorem next_execWatchdogExpiry {x0 : Nat} {x1 : State} : ∃ t, execWatchdogExpiry x0 x1 = .next t := by
  unfold execWatchdogExpiry
  with_reducible repeat' first
    | exact ⟨_, rfl⟩ | assumption | exact next_onMainIf | split | dsimp only

theorem next_execStagehandRestarted {x0 : Nat} {x1 : State} : ∃ t, execStagehandRestarted x0 x1 = .next t := by
  unfold execStagehandRestarted
  with_reducible repeat' first
    | exact ⟨_, rfl⟩ | assumption | exact next_onMainIf | split | dsimp only

theorem next_onHandover {x0 : State} {x1 : Nat} {x2 : State → Handover → State} : ∃ t, onHandover x0 x1 x2 = .next t := by
  unfold onHandover
  with_reducible repeat' first
    | exact ⟨_, rfl⟩ | assumption | exact next_onMain | split | dsimp only

theorem next_execHandoverClearance {x0 : State} : ∃ t, execHandoverClearance x0 = .next t := by
  unfold execHandoverClearance
  with_reducible repeat' first
    | exact ⟨_, rfl⟩ | assumption | exact next_onHandover | split | dsimp only

theorem next_execActivateDeferTimeout {x0 : State} : ∃ t, execActivateDeferTimeout x0 = .next t := by
  unfold execActivateDeferTimeout
  with_reducible repeat' first
    | exact ⟨_, rfl⟩ | assumption | exact next_onHandover | split | dsimp only

theorem next_execHandoverQuiesced {x0 : State} : ∃ t, execHandoverQuiesced x0 = .next t := by
  unfold execHandoverQuiesced
  with_reducible repeat' first
    | exact ⟨_, rfl⟩ | assumption | exact next_onHandover | split | dsimp only

theorem next_execHandoverQuiesceTimeout {x0 : State} : ∃ t, execHandoverQuiesceTimeout x0 = .next t := by
  unfold execHandoverQuiesceTimeout
  with_reducible repeat' first
    | exact ⟨_, rfl⟩ | assumption | exact next_onHandover | split | dsimp only

theorem next_execHandoverResumed {x0 : State} : ∃ t, execHandoverResumed x0 = .next t := by
  unfold execHandoverResumed
  with_reducible repeat' first
    | exact ⟨_, rfl⟩ | assumption | exact next_onHandover | split | dsimp only

theorem next_execTrialExpiry {x0 : State} : ∃ t, execTrialExpiry x0 = .next t := by
  unfold execTrialExpiry
  with_reducible repeat' first
    | exact ⟨_, rfl⟩ | assumption | exact next_onHandover | split | dsimp only

theorem next_onbRun {x0 : Nat} {x1 : State} {x2 : OnbCore → List Cause} {x3 : OnbCore → State → State} : ∃ t, onbRun x0 x1 x2 x3 = .next t := by
  unfold onbRun
  with_reducible repeat' first
    | exact ⟨_, rfl⟩ | assumption | split | dsimp only

theorem next_onbMem {x0 : Nat} {x1 : State} {x2 : Bool} {x3 : OnbCore → List Cause} {x4 : OnbCore → State → State} :
    ∃ t, onbMem x0 x1 x2 x3 x4 = .next t := by
  unfold onbMem
  with_reducible repeat' first
    | exact ⟨_, rfl⟩ | assumption | exact next_onbRun | split | dsimp only

theorem next_onbSeq {x0 : Nat} {x1 : State} {x2 : OnbCore → List Cause} {x3 : OnbCore → OnbCore} : ∃ t, onbSeq x0 x1 x2 x3 = .next t := by
  unfold onbSeq
  with_reducible repeat' first
    | exact ⟨_, rfl⟩ | assumption | exact next_onbRun | split | dsimp only

theorem next_aluR {x0 : Nat} {x1 : Nat} {x2 : Nat} {x3 : Nat} {x4 : BitVec 4 → BitVec 4 → Option (BitVec 4)} {x5 : LWord → LWord → List Cause} {x6 : LWord → LWord → BitVec 64} {x7 : State} : ∃ t, aluR x0 x1 x2 x3 x4 x5 x6 x7 = .next t := by
  unfold aluR
  with_reducible repeat' first
    | exact ⟨_, rfl⟩ | assumption | exact next_onbSeq | split | dsimp only

theorem next_execAdd {x0 : Nat} {x1 : Nat} {x2 : Nat} {x3 : Nat} {x4 : State} : ∃ t, execAdd x0 x1 x2 x3 x4 = .next t := by
  unfold execAdd
  with_reducible repeat' first
    | exact ⟨_, rfl⟩ | assumption | exact next_aluR | split | dsimp only

theorem next_execSub {x0 : Nat} {x1 : Nat} {x2 : Nat} {x3 : Nat} {x4 : State} : ∃ t, execSub x0 x1 x2 x3 x4 = .next t := by
  unfold execSub
  with_reducible repeat' first
    | exact ⟨_, rfl⟩ | assumption | exact next_aluR | split | dsimp only

theorem next_aluInt {x0 : Nat} {x1 : Nat} {x2 : Nat} {x3 : Nat} {x4 : BitVec 64 → BitVec 64 → BitVec 64} {x5 : State} : ∃ t, aluInt x0 x1 x2 x3 x4 x5 = .next t := by
  unfold aluInt
  with_reducible repeat' first
    | exact ⟨_, rfl⟩ | assumption | exact next_aluR | split | dsimp only

theorem next_execAndR {x0 : Nat} {x1 : Nat} {x2 : Nat} {x3 : Nat} {x4 : State} : ∃ t, execAndR x0 x1 x2 x3 x4 = .next t := by
  unfold execAndR
  with_reducible repeat' first
    | exact ⟨_, rfl⟩ | assumption | exact next_aluInt | split | dsimp only

theorem next_execOrR {x0 : Nat} {x1 : Nat} {x2 : Nat} {x3 : Nat} {x4 : State} : ∃ t, execOrR x0 x1 x2 x3 x4 = .next t := by
  unfold execOrR
  with_reducible repeat' first
    | exact ⟨_, rfl⟩ | assumption | exact next_aluInt | split | dsimp only

theorem next_execXorR {x0 : Nat} {x1 : Nat} {x2 : Nat} {x3 : Nat} {x4 : State} : ∃ t, execXorR x0 x1 x2 x3 x4 = .next t := by
  unfold execXorR
  with_reducible repeat' first
    | exact ⟨_, rfl⟩ | assumption | exact next_aluInt | split | dsimp only

theorem next_execShl {x0 : Nat} {x1 : Nat} {x2 : Nat} {x3 : Nat} {x4 : State} : ∃ t, execShl x0 x1 x2 x3 x4 = .next t := by
  unfold execShl
  with_reducible repeat' first
    | exact ⟨_, rfl⟩ | assumption | exact next_aluInt | split | dsimp only

theorem next_execShr {x0 : Nat} {x1 : Nat} {x2 : Nat} {x3 : Nat} {x4 : State} : ∃ t, execShr x0 x1 x2 x3 x4 = .next t := by
  unfold execShr
  with_reducible repeat' first
    | exact ⟨_, rfl⟩ | assumption | exact next_aluInt | split | dsimp only

theorem next_execSar {x0 : Nat} {x1 : Nat} {x2 : Nat} {x3 : Nat} {x4 : State} : ∃ t, execSar x0 x1 x2 x3 x4 = .next t := by
  unfold execSar
  with_reducible repeat' first
    | exact ⟨_, rfl⟩ | assumption | exact next_aluInt | split | dsimp only

theorem next_execMul {x0 : Nat} {x1 : Nat} {x2 : Nat} {x3 : Nat} {x4 : State} : ∃ t, execMul x0 x1 x2 x3 x4 = .next t := by
  unfold execMul
  with_reducible repeat' first
    | exact ⟨_, rfl⟩ | assumption | exact next_aluInt | split | dsimp only

theorem next_execMulhu {x0 : Nat} {x1 : Nat} {x2 : Nat} {x3 : Nat} {x4 : State} : ∃ t, execMulhu x0 x1 x2 x3 x4 = .next t := by
  unfold execMulhu
  with_reducible repeat' first
    | exact ⟨_, rfl⟩ | assumption | exact next_aluInt | split | dsimp only

theorem next_execDivu {x0 : Nat} {x1 : Nat} {x2 : Nat} {x3 : Nat} {x4 : State} : ∃ t, execDivu x0 x1 x2 x3 x4 = .next t := by
  unfold execDivu
  with_reducible repeat' first
    | exact ⟨_, rfl⟩ | assumption | exact next_aluR | split | dsimp only

theorem next_execRemu {x0 : Nat} {x1 : Nat} {x2 : Nat} {x3 : Nat} {x4 : State} : ∃ t, execRemu x0 x1 x2 x3 x4 = .next t := by
  unfold execRemu
  with_reducible repeat' first
    | exact ⟨_, rfl⟩ | assumption | exact next_aluR | split | dsimp only

theorem next_execMinu {x0 : Nat} {x1 : Nat} {x2 : Nat} {x3 : Nat} {x4 : State} : ∃ t, execMinu x0 x1 x2 x3 x4 = .next t := by
  unfold execMinu
  with_reducible repeat' first
    | exact ⟨_, rfl⟩ | assumption | exact next_aluInt | split | dsimp only

theorem next_execMaxu {x0 : Nat} {x1 : Nat} {x2 : Nat} {x3 : Nat} {x4 : State} : ∃ t, execMaxu x0 x1 x2 x3 x4 = .next t := by
  unfold execMaxu
  with_reducible repeat' first
    | exact ⟨_, rfl⟩ | assumption | exact next_aluInt | split | dsimp only

theorem next_aluImm {x0 : Nat} {x1 : Nat} {x2 : Nat} {x3 : BitVec 4 → Option (BitVec 4)} {x4 : BitVec 64 → BitVec 64} {x5 : State} : ∃ t, aluImm x0 x1 x2 x3 x4 x5 = .next t := by
  unfold aluImm
  with_reducible repeat' first
    | exact ⟨_, rfl⟩ | assumption | exact next_onbSeq | split | dsimp only

theorem next_execMovR {x0 : Nat} {x1 : Nat} {x2 : Nat} {x3 : State} : ∃ t, execMovR x0 x1 x2 x3 = .next t := by
  unfold execMovR
  with_reducible repeat' first
    | exact ⟨_, rfl⟩ | assumption | exact next_aluImm | split | dsimp only

theorem next_execSltu {x0 : Nat} {x1 : Nat} {x2 : Nat} {x3 : Nat} {x4 : State} : ∃ t, execSltu x0 x1 x2 x3 x4 = .next t := by
  unfold execSltu
  with_reducible repeat' first
    | exact ⟨_, rfl⟩ | assumption | exact next_aluInt | split | dsimp only

theorem next_execAddi {x0 : Nat} {x1 : Nat} {x2 : Nat} {x3 : Nat} {x4 : State} : ∃ t, execAddi x0 x1 x2 x3 x4 = .next t := by
  unfold execAddi
  with_reducible repeat' first
    | exact ⟨_, rfl⟩ | assumption | exact next_aluImm | split | dsimp only

theorem next_execAndi {x0 : Nat} {x1 : Nat} {x2 : Nat} {x3 : Nat} {x4 : State} : ∃ t, execAndi x0 x1 x2 x3 x4 = .next t := by
  unfold execAndi
  with_reducible repeat' first
    | exact ⟨_, rfl⟩ | assumption | exact next_aluImm | split | dsimp only

theorem next_execOri {x0 : Nat} {x1 : Nat} {x2 : Nat} {x3 : Nat} {x4 : State} : ∃ t, execOri x0 x1 x2 x3 x4 = .next t := by
  unfold execOri
  with_reducible repeat' first
    | exact ⟨_, rfl⟩ | assumption | exact next_aluImm | split | dsimp only

theorem next_execXori {x0 : Nat} {x1 : Nat} {x2 : Nat} {x3 : Nat} {x4 : State} : ∃ t, execXori x0 x1 x2 x3 x4 = .next t := by
  unfold execXori
  with_reducible repeat' first
    | exact ⟨_, rfl⟩ | assumption | exact next_aluImm | split | dsimp only

theorem next_execShiftiShl {x0 : Nat} {x1 : Nat} {x2 : Nat} {x3 : Nat} {x4 : State} : ∃ t, execShiftiShl x0 x1 x2 x3 x4 = .next t := by
  unfold execShiftiShl
  with_reducible repeat' first
    | exact ⟨_, rfl⟩ | assumption | exact next_aluImm | split | dsimp only

theorem next_execShiftiShr {x0 : Nat} {x1 : Nat} {x2 : Nat} {x3 : Nat} {x4 : State} : ∃ t, execShiftiShr x0 x1 x2 x3 x4 = .next t := by
  unfold execShiftiShr
  with_reducible repeat' first
    | exact ⟨_, rfl⟩ | assumption | exact next_aluImm | split | dsimp only

theorem next_execShiftiSar {x0 : Nat} {x1 : Nat} {x2 : Nat} {x3 : Nat} {x4 : State} : ∃ t, execShiftiSar x0 x1 x2 x3 x4 = .next t := by
  unfold execShiftiSar
  with_reducible repeat' first
    | exact ⟨_, rfl⟩ | assumption | exact next_aluImm | split | dsimp only

theorem next_execMovz {x0 : Nat} {x1 : Nat} {x2 : Nat} {x3 : Nat} {x4 : State} : ∃ t, execMovz x0 x1 x2 x3 x4 = .next t := by
  unfold execMovz
  with_reducible repeat' first
    | exact ⟨_, rfl⟩ | assumption | exact next_onbSeq | split | dsimp only

theorem next_execMovk {x0 : Nat} {x1 : Nat} {x2 : Nat} {x3 : Nat} {x4 : State} : ∃ t, execMovk x0 x1 x2 x3 x4 = .next t := by
  unfold execMovk
  with_reducible repeat' first
    | exact ⟨_, rfl⟩ | assumption | exact next_onbSeq | split | dsimp only

theorem next_execLd64 {x0 : Nat} {x1 : Nat} {x2 : Nat} {x3 : Nat} {x4 : State} : ∃ t, execLd64 x0 x1 x2 x3 x4 = .next t := by
  unfold execLd64
  with_reducible repeat' first
    | exact ⟨_, rfl⟩ | assumption | exact next_onbRun | split | dsimp only

theorem next_narrowLoad {x0 : Nat} {x1 : Nat} {x2 : Nat} {x3 : Nat} {x4 : Nat} {x5 : State} : ∃ t, narrowLoad x0 x1 x2 x3 x4 x5 = .next t := by
  unfold narrowLoad
  with_reducible repeat' first
    | exact ⟨_, rfl⟩ | assumption | exact next_onbSeq | split | dsimp only

theorem next_execLd32u {x0 : Nat} {x1 : Nat} {x2 : Nat} {x3 : Nat} {x4 : State} : ∃ t, execLd32u x0 x1 x2 x3 x4 = .next t := by
  unfold execLd32u
  with_reducible repeat' first
    | exact ⟨_, rfl⟩ | assumption | exact next_narrowLoad | split | dsimp only

theorem next_execLd16u {x0 : Nat} {x1 : Nat} {x2 : Nat} {x3 : Nat} {x4 : State} : ∃ t, execLd16u x0 x1 x2 x3 x4 = .next t := by
  unfold execLd16u
  with_reducible repeat' first
    | exact ⟨_, rfl⟩ | assumption | exact next_narrowLoad | split | dsimp only

theorem next_execLd8u {x0 : Nat} {x1 : Nat} {x2 : Nat} {x3 : Nat} {x4 : State} : ∃ t, execLd8u x0 x1 x2 x3 x4 = .next t := by
  unfold execLd8u
  with_reducible repeat' first
    | exact ⟨_, rfl⟩ | assumption | exact next_narrowLoad | split | dsimp only

theorem next_execSt64 {x0 : Nat} {x1 : Nat} {x2 : Nat} {x3 : Nat} {x4 : State} : ∃ t, execSt64 x0 x1 x2 x3 x4 = .next t := by
  unfold execSt64
  with_reducible repeat' first
    | exact ⟨_, rfl⟩ | assumption | exact next_onbSeq | split | dsimp only

theorem next_narrowStore {x0 : Nat} {x1 : Nat} {x2 : Nat} {x3 : Nat} {x4 : Nat} {x5 : State} : ∃ t, narrowStore x0 x1 x2 x3 x4 x5 = .next t := by
  unfold narrowStore
  with_reducible repeat' first
    | exact ⟨_, rfl⟩ | assumption | exact next_onbSeq | split | dsimp only

theorem next_execSt32 {x0 : Nat} {x1 : Nat} {x2 : Nat} {x3 : Nat} {x4 : State} : ∃ t, execSt32 x0 x1 x2 x3 x4 = .next t := by
  unfold execSt32
  with_reducible repeat' first
    | exact ⟨_, rfl⟩ | assumption | exact next_narrowStore | split | dsimp only

theorem next_execSt16 {x0 : Nat} {x1 : Nat} {x2 : Nat} {x3 : Nat} {x4 : State} : ∃ t, execSt16 x0 x1 x2 x3 x4 = .next t := by
  unfold execSt16
  with_reducible repeat' first
    | exact ⟨_, rfl⟩ | assumption | exact next_narrowStore | split | dsimp only

theorem next_execSt8 {x0 : Nat} {x1 : Nat} {x2 : Nat} {x3 : Nat} {x4 : State} : ∃ t, execSt8 x0 x1 x2 x3 x4 = .next t := by
  unfold execSt8
  with_reducible repeat' first
    | exact ⟨_, rfl⟩ | assumption | exact next_narrowStore | split | dsimp only

theorem next_branch {x0 : Nat} {x1 : Nat} {x2 : Nat} {x3 : Nat} {x4 : BitVec 4 → BitVec 4 → Bool} {x5 : LWord → LWord → Bool} {x6 : State} : ∃ t, branch x0 x1 x2 x3 x4 x5 x6 = .next t := by
  unfold branch
  with_reducible repeat' first
    | exact ⟨_, rfl⟩ | assumption | exact next_onbRun | split | dsimp only

theorem next_execBeq {x0 : Nat} {x1 : Nat} {x2 : Nat} {x3 : Nat} {x4 : State} : ∃ t, execBeq x0 x1 x2 x3 x4 = .next t := by
  unfold execBeq
  with_reducible repeat' first
    | exact ⟨_, rfl⟩ | assumption | exact next_branch | split | dsimp only

theorem next_execBne {x0 : Nat} {x1 : Nat} {x2 : Nat} {x3 : Nat} {x4 : State} : ∃ t, execBne x0 x1 x2 x3 x4 = .next t := by
  unfold execBne
  with_reducible repeat' first
    | exact ⟨_, rfl⟩ | assumption | exact next_branch | split | dsimp only

theorem next_execBlt {x0 : Nat} {x1 : Nat} {x2 : Nat} {x3 : Nat} {x4 : State} : ∃ t, execBlt x0 x1 x2 x3 x4 = .next t := by
  unfold execBlt
  with_reducible repeat' first
    | exact ⟨_, rfl⟩ | assumption | exact next_branch | split | dsimp only

theorem next_execBge {x0 : Nat} {x1 : Nat} {x2 : Nat} {x3 : Nat} {x4 : State} : ∃ t, execBge x0 x1 x2 x3 x4 = .next t := by
  unfold execBge
  with_reducible repeat' first
    | exact ⟨_, rfl⟩ | assumption | exact next_branch | split | dsimp only

theorem next_execBltu {x0 : Nat} {x1 : Nat} {x2 : Nat} {x3 : Nat} {x4 : State} : ∃ t, execBltu x0 x1 x2 x3 x4 = .next t := by
  unfold execBltu
  with_reducible repeat' first
    | exact ⟨_, rfl⟩ | assumption | exact next_branch | split | dsimp only

theorem next_execBgeu {x0 : Nat} {x1 : Nat} {x2 : Nat} {x3 : Nat} {x4 : State} : ∃ t, execBgeu x0 x1 x2 x3 x4 = .next t := by
  unfold execBgeu
  with_reducible repeat' first
    | exact ⟨_, rfl⟩ | assumption | exact next_branch | split | dsimp only

theorem next_execJal {x0 : Nat} {x1 : Nat} {x2 : State} : ∃ t, execJal x0 x1 x2 = .next t := by
  unfold execJal
  with_reducible repeat' first
    | exact ⟨_, rfl⟩ | assumption | exact next_onbRun | split | dsimp only

theorem next_execJr {x0 : Nat} {x1 : Nat} {x2 : Nat} {x3 : State} : ∃ t, execJr x0 x1 x2 x3 = .next t := by
  unfold execJr
  with_reducible repeat' first
    | exact ⟨_, rfl⟩ | assumption | exact next_onbRun | split | dsimp only

theorem next_execLoop {x0 : Nat} {x1 : Nat} {x2 : Nat} {x3 : Nat} {x4 : State} : ∃ t, execLoop x0 x1 x2 x3 x4 = .next t := by
  unfold execLoop
  with_reducible repeat' first
    | exact ⟨_, rfl⟩ | assumption | exact next_onbRun | split | dsimp only

theorem next_execLoopi {x0 : Nat} {x1 : Nat} {x2 : Nat} {x3 : Nat} {x4 : State} : ∃ t, execLoopi x0 x1 x2 x3 x4 = .next t := by
  unfold execLoopi
  with_reducible repeat' first
    | exact ⟨_, rfl⟩ | assumption | exact next_onbRun | split | dsimp only

theorem next_execCsrr {x0 : Nat} {x1 : Nat} {x2 : Nat} {x3 : State} : ∃ t, execCsrr x0 x1 x2 x3 = .next t := by
  unfold execCsrr
  with_reducible repeat' first
    | exact ⟨_, rfl⟩ | assumption | exact next_onbRun | split | dsimp only

theorem next_execCsrw {x0 : Nat} {x1 : Nat} {x2 : Nat} {x3 : State} : ∃ t, execCsrw x0 x1 x2 x3 = .next t := by
  unfold execCsrw
  with_reducible repeat' first
    | exact ⟨_, rfl⟩ | assumption | exact next_onbRun | split | dsimp only

theorem next_execTagR {x0 : Nat} {x1 : Nat} {x2 : Nat} {x3 : State} : ∃ t, execTagR x0 x1 x2 x3 = .next t := by
  unfold execTagR
  with_reducible repeat' first
    | exact ⟨_, rfl⟩ | assumption | exact next_onbSeq | split | dsimp only

theorem next_execRetag {x0 : Nat} {x1 : Nat} {x2 : Nat} {x3 : Nat} {x4 : State} : ∃ t, execRetag x0 x1 x2 x3 x4 = .next t := by
  unfold execRetag
  with_reducible repeat' first
    | exact ⟨_, rfl⟩ | assumption | exact next_onbSeq | split | dsimp only

theorem next_execTrap {x0 : Nat} {x1 : Nat} {x2 : State} : ∃ t, execTrap x0 x1 x2 = .next t := by
  unfold execTrap
  with_reducible repeat' first
    | exact ⟨_, rfl⟩ | assumption | exact next_onbRun | split | dsimp only

theorem next_execTret {x0 : Nat} {x1 : Nat} {x2 : State} : ∃ t, execTret x0 x1 x2 = .next t := by
  unfold execTret
  with_reducible repeat' first
    | exact ⟨_, rfl⟩ | assumption | exact next_onbRun | split | dsimp only

theorem next_execAdr {x0 : Nat} {x1 : Nat} {x2 : Nat} {x3 : State} : ∃ t, execAdr x0 x1 x2 x3 = .next t := by
  unfold execAdr
  with_reducible repeat' first
    | exact ⟨_, rfl⟩ | assumption | exact next_onbSeq | split | dsimp only

theorem next_execWait {x0 : Nat} {x1 : Nat} {x2 : Nat} {x3 : State} : ∃ t, execWait x0 x1 x2 x3 = .next t := by
  unfold execWait
  with_reducible repeat' first
    | exact ⟨_, rfl⟩ | assumption | exact next_onbRun | split | dsimp only

theorem next_execWaitReturn {x0 : Nat} {x1 : State} : ∃ t, execWaitReturn x0 x1 = .next t := by
  unfold execWaitReturn
  with_reducible repeat' first
    | exact ⟨_, rfl⟩ | assumption | split | dsimp only

theorem next_execSha256Init {x0 : Nat} {x1 : State} : ∃ t, execSha256Init x0 x1 = .next t := by
  unfold execSha256Init
  with_reducible repeat' first
    | exact ⟨_, rfl⟩ | assumption | exact next_onbSeq | split | dsimp only

theorem next_execSha256Upd {x0 : Nat} {x1 : Nat} {x2 : Nat} {x3 : State} : ∃ t, execSha256Upd x0 x1 x2 x3 = .next t := by
  unfold execSha256Upd
  with_reducible repeat' first
    | exact ⟨_, rfl⟩ | assumption | exact next_onbSeq | split | dsimp only

theorem next_execSha256Fin {x0 : Nat} {x1 : Nat} {x2 : State} : ∃ t, execSha256Fin x0 x1 x2 = .next t := by
  unfold execSha256Fin
  with_reducible repeat' first
    | exact ⟨_, rfl⟩ | assumption | exact next_onbRun | split | dsimp only

theorem next_crcInstr {x0 : Nat} {x1 : Nat} {x2 : Nat} {x3 : Nat} {x4 : Nat → Bytes → Nat} {x5 : State} : ∃ t, crcInstr x0 x1 x2 x3 x4 x5 = .next t := by
  unfold crcInstr
  with_reducible repeat' first
    | exact ⟨_, rfl⟩ | assumption | exact next_onbSeq | split | dsimp only

theorem next_execCrc32c {x0 : Nat} {x1 : Nat} {x2 : Nat} {x3 : Nat} {x4 : State} : ∃ t, execCrc32c x0 x1 x2 x3 x4 = .next t := by
  unfold execCrc32c
  with_reducible repeat' first
    | exact ⟨_, rfl⟩ | assumption | exact next_crcInstr | split | dsimp only

theorem next_execCrc64 {x0 : Nat} {x1 : Nat} {x2 : Nat} {x3 : Nat} {x4 : State} : ∃ t, execCrc64 x0 x1 x2 x3 x4 = .next t := by
  unfold execCrc64
  with_reducible repeat' first
    | exact ⟨_, rfl⟩ | assumption | exact next_crcInstr | split | dsimp only

theorem next_execWalk {x0 : Nat} {x1 : Nat} {x2 : Nat} {x3 : Nat} {x4 : State} : ∃ t, execWalk x0 x1 x2 x3 x4 = .next t := by
  unfold execWalk
  with_reducible repeat' first
    | exact ⟨_, rfl⟩ | assumption | exact next_onbMem | split | dsimp only

theorem next_execCtxRd {x0 : Nat} {x1 : Nat} {x2 : Nat} {x3 : State} : ∃ t, execCtxRd x0 x1 x2 x3 = .next t := by
  unfold execCtxRd
  with_reducible repeat' first
    | exact ⟨_, rfl⟩ | assumption | exact next_onbMem | split | dsimp only

theorem next_execCtxWr {x0 : Nat} {x1 : Nat} {x2 : Nat} {x3 : State} : ∃ t, execCtxWr x0 x1 x2 x3 = .next t := by
  unfold execCtxWr
  with_reducible repeat' first
    | exact ⟨_, rfl⟩ | assumption | exact next_onbMem | split | dsimp only

theorem next_execCtxPin {x0 : Nat} {x1 : Nat} {x2 : State} : ∃ t, execCtxPin x0 x1 x2 = .next t := by
  unfold execCtxPin
  with_reducible repeat' first
    | exact ⟨_, rfl⟩ | assumption | exact next_onbRun | split | dsimp only

theorem next_execCtxUnpin {x0 : Nat} {x1 : Nat} {x2 : State} : ∃ t, execCtxUnpin x0 x1 x2 = .next t := by
  unfold execCtxUnpin
  with_reducible repeat' first
    | exact ⟨_, rfl⟩ | assumption | exact next_onbRun | split | dsimp only

theorem next_execCbRaise {x0 : Nat} {x1 : Nat} {x2 : State} : ∃ t, execCbRaise x0 x1 x2 = .next t := by
  unfold execCbRaise
  with_reducible repeat' first
    | exact ⟨_, rfl⟩ | assumption | exact next_onbRun | split | dsimp only

theorem next_execCbPend {x0 : Nat} {x1 : Nat} {x2 : State} : ∃ t, execCbPend x0 x1 x2 = .next t := by
  unfold execCbPend
  with_reducible repeat' first
    | exact ⟨_, rfl⟩ | assumption | exact next_onbRun | split | dsimp only

theorem next_execCbDone {x0 : Nat} {x1 : Nat} {x2 : State} : ∃ t, execCbDone x0 x1 x2 = .next t := by
  unfold execCbDone
  with_reducible repeat' first
    | exact ⟨_, rfl⟩ | assumption | exact next_onbRun | split | dsimp only

theorem next_execLtRead {x0 : Nat} {x1 : Nat} {x2 : Nat} {x3 : State} : ∃ t, execLtRead x0 x1 x2 x3 = .next t := by
  unfold execLtRead
  with_reducible repeat' first
    | exact ⟨_, rfl⟩ | assumption | exact next_onbRun | split | dsimp only

theorem next_execLtAdd {x0 : Nat} {x1 : Nat} {x2 : Nat} {x3 : State} : ∃ t, execLtAdd x0 x1 x2 x3 = .next t := by
  unfold execLtAdd
  with_reducible repeat' first
    | exact ⟨_, rfl⟩ | assumption | exact next_onbRun | split | dsimp only

theorem next_execLtThresh {x0 : Nat} {x1 : Nat} {x2 : Nat} {x3 : State} : ∃ t, execLtThresh x0 x1 x2 x3 = .next t := by
  unfold execLtThresh
  with_reducible repeat' first
    | exact ⟨_, rfl⟩ | assumption | exact next_onbRun | split | dsimp only

theorem next_execDmaCopy {x0 : Nat} {x1 : Nat} {x2 : Nat} {x3 : Bytes} {x4 : Nat} {x5 : State} : ∃ t, execDmaCopy x0 x1 x2 x3 x4 x5 = .next t := by
  unfold execDmaCopy
  with_reducible repeat' first
    | exact ⟨_, rfl⟩ | assumption | exact next_onbMem | split | dsimp only

theorem next_execDmaWin {x0 : Nat} {x1 : Nat} {x2 : Nat} {x3 : State} : ∃ t, execDmaWin x0 x1 x2 x3 = .next t := by
  unfold execDmaWin
  with_reducible repeat' first
    | exact ⟨_, rfl⟩ | assumption | exact next_onbSeq | split | dsimp only

theorem next_execModuleBudgetExpiry {x0 : Nat} {x1 : State} : ∃ t, execModuleBudgetExpiry x0 x1 = .next t := by
  unfold execModuleBudgetExpiry
  with_reducible repeat' first
    | exact ⟨_, rfl⟩ | assumption | split | dsimp only

theorem next_panelWrite {x0 : Access} {x1 : Nat} {x2 : State} {x3 : State → Nat → State} : ∃ t, panelWrite x0 x1 x2 x3 = .next t := by
  unfold panelWrite
  with_reducible repeat' first
    | exact ⟨_, rfl⟩ | assumption | exact next_barWrite | split | dsimp only

theorem next_execCallMaskSet {x0 : Access} {x1 : State} : ∃ t, execCallMaskSet x0 x1 = .next t := by
  unfold execCallMaskSet
  with_reducible repeat' first
    | exact ⟨_, rfl⟩ | assumption | exact next_panelWrite | split | dsimp only

theorem next_execCallMaskClr {x0 : Access} {x1 : State} : ∃ t, execCallMaskClr x0 x1 = .next t := by
  unfold execCallMaskClr
  with_reducible repeat' first
    | exact ⟨_, rfl⟩ | assumption | exact next_panelWrite | split | dsimp only

theorem next_execCallPendSet {x0 : Access} {x1 : State} : ∃ t, execCallPendSet x0 x1 = .next t := by
  unfold execCallPendSet
  with_reducible repeat' first
    | exact ⟨_, rfl⟩ | assumption | exact next_panelWrite | split | dsimp only

theorem next_execCallPendClr {x0 : Access} {x1 : State} : ∃ t, execCallPendClr x0 x1 = .next t := by
  unfold execCallPendClr
  with_reducible repeat' first
    | exact ⟨_, rfl⟩ | assumption | exact next_panelWrite | split | dsimp only

theorem next_execCallVTake {x0 : Nat} {x1 : Nat} {x2 : State} : ∃ t, execCallVTake x0 x1 x2 = .next t := by
  unfold execCallVTake
  with_reducible repeat' first
    | exact ⟨_, rfl⟩ | assumption | exact next_barWrite | split | dsimp only

theorem next_execCallVDone {x0 : Nat} {x1 : Nat} {x2 : Nat} {x3 : State} : ∃ t, execCallVDone x0 x1 x2 x3 = .next t := by
  unfold execCallVDone
  with_reducible repeat' first
    | exact ⟨_, rfl⟩ | assumption | exact next_barWrite | split | dsimp only

theorem next_execModerationExpiry {x0 : Nat} {x1 : Nat} {x2 : State} : ∃ t, execModerationExpiry x0 x1 x2 = .next t := by
  unfold execModerationExpiry
  with_reducible repeat' first
    | exact ⟨_, rfl⟩ | assumption | exact next_onMainIf | split | dsimp only

theorem next_execMsixUnmask {x0 : Nat} {x1 : Nat} {x2 : State} : ∃ t, execMsixUnmask x0 x1 x2 = .next t := by
  unfold execMsixUnmask
  with_reducible repeat' first
    | exact ⟨_, rfl⟩ | assumption | exact next_barWrite | split | dsimp only

theorem next_execFlr {x0 : Nat} {x1 : State} : ∃ t, execFlr x0 x1 = .next t := by
  unfold execFlr
  with_reducible repeat' first
    | exact ⟨_, rfl⟩ | assumption | split | dsimp only

theorem next_execFlrComplete {x0 : Nat} {x1 : State} : ∃ t, execFlrComplete x0 x1 = .next t := by
  unfold execFlrComplete
  with_reducible repeat' first
    | exact ⟨_, rfl⟩ | assumption | exact next_onMainIf | split | dsimp only

theorem next_execVfEnableSet {x0 : Nat} {x1 : State} : ∃ t, execVfEnableSet x0 x1 = .next t := by
  unfold execVfEnableSet
  with_reducible repeat' first
    | exact ⟨_, rfl⟩ | assumption | split | dsimp only

theorem next_execVfEnableClear {x0 : State} : ∃ t, execVfEnableClear x0 = .next t := by
  unfold execVfEnableClear
  with_reducible repeat' first
    | exact ⟨_, rfl⟩ | assumption | split | dsimp only

theorem next_execBarResize {x0 : Bool} {x1 : Nat} {x2 : State} : ∃ t, execBarResize x0 x1 x2 = .next t := by
  unfold execBarResize
  with_reducible repeat' first
    | exact ⟨_, rfl⟩ | assumption | split | dsimp only

theorem next_mboxWrite {x0 : Access} {x1 : Nat} {x2 : State} {x3 : State → Nat → Bool → State} : ∃ t, mboxWrite x0 x1 x2 x3 = .next t := by
  unfold mboxWrite
  with_reducible repeat' first
    | exact ⟨_, rfl⟩ | assumption | exact next_barWrite | split | dsimp only

theorem next_execMboxSeqWrite {x0 : Access} {x1 : State} : ∃ t, execMboxSeqWrite x0 x1 = .next t := by
  unfold execMboxSeqWrite
  with_reducible repeat' first
    | exact ⟨_, rfl⟩ | assumption | exact next_mboxWrite | split | dsimp only

theorem next_execMboxAckWrite {x0 : Access} {x1 : State} : ∃ t, execMboxAckWrite x0 x1 = .next t := by
  unfold execMboxAckWrite
  with_reducible repeat' first
    | exact ⟨_, rfl⟩ | assumption | exact next_mboxWrite | split | dsimp only

theorem next_execVfTrackStart {x0 : Hdr} {x1 : Bytes} {x2 : State} : ∃ t, execVfTrackStart x0 x1 x2 = .next t := by
  unfold execVfTrackStart
  with_reducible repeat' first
    | exact ⟨_, rfl⟩ | assumption | exact next_runPkt | split | dsimp only

theorem next_execVfTrackSync {x0 : Hdr} {x1 : Bytes} {x2 : State} : ∃ t, execVfTrackSync x0 x1 x2 = .next t := by
  unfold execVfTrackSync
  with_reducible repeat' first
    | exact ⟨_, rfl⟩ | assumption | exact next_runPkt | split | dsimp only

theorem next_execVfTrackStop {x0 : Hdr} {x1 : Bytes} {x2 : State} : ∃ t, execVfTrackStop x0 x1 x2 = .next t := by
  unfold execVfTrackStop
  with_reducible repeat' first
    | exact ⟨_, rfl⟩ | assumption | exact next_runPkt | split | dsimp only

theorem next_execVfFrozen {x0 : Nat} {x1 : State} : ∃ t, execVfFrozen x0 x1 = .next t := by
  unfold execVfFrozen
  with_reducible repeat' first
    | exact ⟨_, rfl⟩ | assumption | exact next_onMainIf | split | dsimp only

theorem next_execVfFreezeDrainLimit {x0 : Nat} {x1 : State} : ∃ t, execVfFreezeDrainLimit x0 x1 = .next t := by
  unfold execVfFreezeDrainLimit
  with_reducible repeat' first
    | exact ⟨_, rfl⟩ | assumption | exact next_onMainIf | split | dsimp only

theorem next_execVfSavePrecopy {x0 : Hdr} {x1 : Bytes} {x2 : State} : ∃ t, execVfSavePrecopy x0 x1 x2 = .next t := by
  unfold execVfSavePrecopy
  with_reducible repeat' first
    | exact ⟨_, rfl⟩ | assumption | exact next_runPkt | split | dsimp only

theorem next_execVfSaveFinal {x0 : Hdr} {x1 : Bytes} {x2 : State} : ∃ t, execVfSaveFinal x0 x1 x2 = .next t := by
  unfold execVfSaveFinal
  with_reducible repeat' first
    | exact ⟨_, rfl⟩ | assumption | exact next_runPkt | split | dsimp only

theorem next_execSmBoot {x0 : State} : ∃ t, execSmBoot x0 = .next t := by
  unfold execSmBoot
  with_reducible repeat' first
    | exact ⟨_, rfl⟩ | assumption | exact next_onAlways | split | dsimp only

theorem next_execSmWatchdogExpiry {x0 : State} : ∃ t, execSmWatchdogExpiry x0 = .next t := by
  unfold execSmWatchdogExpiry
  with_reducible repeat' first
    | exact ⟨_, rfl⟩ | assumption | exact next_onAlways | split | dsimp only

theorem next_execSensorSample {x0 : Nat} {x1 : Reading} {x2 : State} : ∃ t, execSensorSample x0 x1 x2 = .next t := by
  unfold execSensorSample
  with_reducible repeat' first
    | exact ⟨_, rfl⟩ | assumption | exact next_onAlways | split | dsimp only

theorem next_execStoreBankCompare {x0 : Bool} {x1 : State} : ∃ t, execStoreBankCompare x0 x1 = .next t := by
  unfold execStoreBankCompare
  with_reducible repeat' first
    | exact ⟨_, rfl⟩ | assumption | exact next_onAlways | split | dsimp only

theorem next_execGetVersion {x0 : Nat} {x1 : Bytes} {x2 : State} : ∃ t, execGetVersion x0 x1 x2 = .next t := by
  unfold execGetVersion
  with_reducible repeat' first
    | exact ⟨_, rfl⟩ | assumption | exact next_onAlways | split | dsimp only

theorem next_execGetCapabilities {x0 : Nat} {x1 : Bytes} {x2 : State} : ∃ t, execGetCapabilities x0 x1 x2 = .next t := by
  unfold execGetCapabilities
  with_reducible repeat' first
    | exact ⟨_, rfl⟩ | assumption | exact next_onAlways | split | dsimp only

theorem next_execNegotiateAlgorithms {x0 : Nat} {x1 : Bytes} {x2 : State} : ∃ t, execNegotiateAlgorithms x0 x1 x2 = .next t := by
  unfold execNegotiateAlgorithms
  with_reducible repeat' first
    | exact ⟨_, rfl⟩ | assumption | exact next_onAlways | split | dsimp only

theorem next_execGetDigests {x0 : Nat} {x1 : Bytes} {x2 : State} : ∃ t, execGetDigests x0 x1 x2 = .next t := by
  unfold execGetDigests
  with_reducible repeat' first
    | exact ⟨_, rfl⟩ | assumption | exact next_onAlways | split | dsimp only

theorem next_execGetCertificate {x0 : Nat} {x1 : Bytes} {x2 : State} : ∃ t, execGetCertificate x0 x1 x2 = .next t := by
  unfold execGetCertificate
  with_reducible repeat' first
    | exact ⟨_, rfl⟩ | assumption | exact next_onAlways | split | dsimp only

theorem next_execChallenge {x0 : Nat} {x1 : Bytes} {x2 : State} : ∃ t, execChallenge x0 x1 x2 = .next t := by
  unfold execChallenge
  with_reducible repeat' first
    | exact ⟨_, rfl⟩ | assumption | exact next_onAlways | split | dsimp only

theorem next_execGetMeasurements {x0 : Nat} {x1 : Bytes} {x2 : State} : ∃ t, execGetMeasurements x0 x1 x2 = .next t := by
  unfold execGetMeasurements
  with_reducible repeat' first
    | exact ⟨_, rfl⟩ | assumption | exact next_onAlways | split | dsimp only

theorem next_execKeyExchange {x0 : Nat} {x1 : Bytes} {x2 : State} : ∃ t, execKeyExchange x0 x1 x2 = .next t := by
  unfold execKeyExchange
  with_reducible repeat' first
    | exact ⟨_, rfl⟩ | assumption | exact next_onAlways | split | dsimp only

theorem next_execFinish {x0 : Nat} {x1 : Nat} {x2 : Bytes} {x3 : State} : ∃ t, execFinish x0 x1 x2 x3 = .next t := by
  unfold execFinish
  with_reducible repeat' first
    | exact ⟨_, rfl⟩ | assumption | exact next_onAlways | split | dsimp only

theorem next_execKeyUpdate {x0 : Nat} {x1 : Nat} {x2 : Bytes} {x3 : State} : ∃ t, execKeyUpdate x0 x1 x2 x3 = .next t := by
  unfold execKeyUpdate
  with_reducible repeat' first
    | exact ⟨_, rfl⟩ | assumption | exact next_onAlways | split | dsimp only

theorem next_execEndSession {x0 : Nat} {x1 : Nat} {x2 : Bytes} {x3 : State} : ∃ t, execEndSession x0 x1 x2 x3 = .next t := by
  unfold execEndSession
  with_reducible repeat' first
    | exact ⟨_, rfl⟩ | assumption | exact next_onAlways | split | dsimp only

theorem next_execMctpControl {x0 : Nat} {x1 : Bytes} {x2 : State} : ∃ t, execMctpControl x0 x1 x2 = .next t := by
  unfold execMctpControl
  with_reducible repeat' first
    | exact ⟨_, rfl⟩ | assumption | exact next_onAlways | split | dsimp only

theorem next_execMgmtCommand {x0 : Nat} {x1 : Bytes} {x2 : Bytes} {x3 : State} : ∃ t, execMgmtCommand x0 x1 x2 x3 = .next t := by
  unfold execMgmtCommand
  with_reducible repeat' first
    | exact ⟨_, rfl⟩ | assumption | exact next_execOpcode | split | dsimp only

theorem next_execMgmtScanRequest {x0 : Nat} {x1 : Bytes} {x2 : State} : ∃ t, execMgmtScanRequest x0 x1 x2 = .next t := by
  unfold execMgmtScanRequest
  with_reducible repeat' first
    | exact ⟨_, rfl⟩ | assumption | exact next_onAlways | split | dsimp only

theorem next_execPldmBase {x0 : Nat} {x1 : Bytes} {x2 : State} : ∃ t, execPldmBase x0 x1 x2 = .next t := by
  unfold execPldmBase
  with_reducible repeat' first
    | exact ⟨_, rfl⟩ | assumption | exact next_onAlways | split | dsimp only

theorem next_execPldmPlatform {x0 : Nat} {x1 : Bytes} {x2 : State} : ∃ t, execPldmPlatform x0 x1 x2 = .next t := by
  unfold execPldmPlatform
  with_reducible repeat' first
    | exact ⟨_, rfl⟩ | assumption | exact next_onAlways | split | dsimp only

theorem next_execPldmFru {x0 : Nat} {x1 : Bytes} {x2 : State} : ∃ t, execPldmFru x0 x1 x2 = .next t := by
  unfold execPldmFru
  with_reducible repeat' first
    | exact ⟨_, rfl⟩ | assumption | exact next_onAlways | split | dsimp only

theorem next_execPldmFirmwareUpdate {x0 : Nat} {x1 : Nat} {x2 : Bytes} {x3 : State} : ∃ t, execPldmFirmwareUpdate x0 x1 x2 x3 = .next t := by
  unfold execPldmFirmwareUpdate
  with_reducible repeat' first
    | exact ⟨_, rfl⟩ | assumption | exact next_onAlways | split | dsimp only

theorem next_execSetEventReceiver {x0 : Nat} {x1 : Nat} {x2 : State} : ∃ t, execSetEventReceiver x0 x1 x2 = .next t := by
  unfold execSetEventReceiver
  with_reducible repeat' first
    | exact ⟨_, rfl⟩ | assumption | exact next_onAlways | split | dsimp only

theorem next_execHealthResendTimer {x0 : Bool} {x1 : State} : ∃ t, execHealthResendTimer x0 x1 = .next t := by
  unfold execHealthResendTimer
  with_reducible repeat' first
    | exact ⟨_, rfl⟩ | assumption | exact next_onAlways | split | dsimp only

theorem next_execActivateFirmware {x0 : Nat} {x1 : Nat} {x2 : Bytes} {x3 : State} : ∃ t, execActivateFirmware x0 x1 x2 x3 = .next t := by
  unfold execActivateFirmware
  with_reducible repeat' first
    | exact ⟨_, rfl⟩ | assumption | exact next_onAlways | split | dsimp only

theorem next_execSmActivateClearance {x0 : State} : ∃ t, execSmActivateClearance x0 = .next t := by
  unfold execSmActivateClearance
  with_reducible repeat' first
    | exact ⟨_, rfl⟩ | assumption | exact next_onAlways | split | dsimp only

theorem next_execSmActivateTimeout {x0 : State} : ∃ t, execSmActivateTimeout x0 = .next t := by
  unfold execSmActivateTimeout
  with_reducible repeat' first
    | exact ⟨_, rfl⟩ | assumption | exact next_onAlways | split | dsimp only

theorem next_execSmFwConfirm {x0 : State} : ∃ t, execSmFwConfirm x0 = .next t := by
  unfold execSmFwConfirm
  with_reducible repeat' first
    | exact ⟨_, rfl⟩ | assumption | exact next_onAlways | split | dsimp only

theorem next_execSmTrialTimeout {x0 : State} : ∃ t, execSmTrialTimeout x0 = .next t := by
  unfold execSmTrialTimeout
  with_reducible repeat' first
    | exact ⟨_, rfl⟩ | assumption | exact next_onAlways | split | dsimp only

theorem next_execMgmtConfigApply {x0 : State} : ∃ t, execMgmtConfigApply x0 = .next t := by
  unfold execMgmtConfigApply
  with_reducible repeat' first
    | exact ⟨_, rfl⟩ | assumption | exact next_onAlways | split | dsimp only

theorem next_execTableauStopped {x0 : State} : ∃ t, execTableauStopped x0 = .next t := by
  unfold execTableauStopped
  with_reducible repeat' first
    | exact ⟨_, rfl⟩ | assumption | exact next_onAlways | split | dsimp only

theorem next_execJtagAccess {x0 : Nat} {x1 : Nat} {x2 : Nat} {x3 : State} : ∃ t, execJtagAccess x0 x1 x2 x3 = .next t := by
  unfold execJtagAccess
  with_reducible repeat' first
    | exact ⟨_, rfl⟩ | assumption | exact next_onAlways | split | dsimp only

theorem next_execPowerControlTick {x0 : State} : ∃ t, execPowerControlTick x0 = .next t := by
  unfold execPowerControlTick
  with_reducible repeat' first
    | exact ⟨_, rfl⟩ | assumption | exact next_onAlways | split | dsimp only

theorem next_execThermalCapStep {x0 : State} : ∃ t, execThermalCapStep x0 = .next t := by
  unfold execThermalCapStep
  with_reducible repeat' first
    | exact ⟨_, rfl⟩ | assumption | exact next_onAlways | split | dsimp only

theorem next_execEprNLow {x0 : State} : ∃ t, execEprNLow x0 = .next t := by
  unfold execEprNLow
  with_reducible repeat' first
    | exact ⟨_, rfl⟩ | assumption | exact next_onAlways | split | dsimp only

theorem next_execEprNHigh {x0 : State} : ∃ t, execEprNHigh x0 = .next t := by
  unfold execEprNHigh
  with_reducible repeat' first
    | exact ⟨_, rfl⟩ | assumption | exact next_onAlways | split | dsimp only

theorem next_execEprHoldExpiry {x0 : State} : ∃ t, execEprHoldExpiry x0 = .next t := by
  unfold execEprHoldExpiry
  with_reducible repeat' first
    | exact ⟨_, rfl⟩ | assumption | exact next_onAlways | split | dsimp only

theorem next_execAonPowerUp {x0 : Straps} {x1 : State} : ∃ t, execAonPowerUp x0 x1 = .next t := by
  unfold execAonPowerUp
  with_reducible repeat' first
    | exact ⟨_, rfl⟩ | assumption | split | dsimp only

theorem next_execAonPowerOff {x0 : State} : ∃ t, execAonPowerOff x0 = .next t := by
  unfold execAonPowerOff
  with_reducible repeat' first
    | exact ⟨_, rfl⟩ | assumption | exact next_onAlways | split | dsimp only

theorem next_execInputOutOfRange {x0 : State} : ∃ t, execInputOutOfRange x0 = .next t := by
  unfold execInputOutOfRange
  with_reducible repeat' first
    | exact ⟨_, rfl⟩ | assumption | exact next_onAlways | split | dsimp only

theorem next_execInputRestored {x0 : State} : ∃ t, execInputRestored x0 = .next t := by
  unfold execInputRestored
  with_reducible repeat' first
    | exact ⟨_, rfl⟩ | assumption | exact next_onAlways | split | dsimp only

theorem next_execPwrEnHigh {x0 : State} : ∃ t, execPwrEnHigh x0 = .next t := by
  unfold execPwrEnHigh
  with_reducible repeat' first
    | exact ⟨_, rfl⟩ | assumption | split | dsimp only

theorem next_execPwrEnLow {x0 : State} : ∃ t, execPwrEnLow x0 = .next t := by
  unfold execPwrEnLow
  with_reducible repeat' first
    | exact ⟨_, rfl⟩ | assumption | split | dsimp only

theorem next_execMainPowerUp {x0 : State} : ∃ t, execMainPowerUp x0 = .next t := by
  unfold execMainPowerUp
  with_reducible repeat' first
    | exact ⟨_, rfl⟩ | assumption | exact next_onAlways | split | dsimp only

theorem next_execMainDomainReady {x0 : State} : ∃ t, execMainDomainReady x0 = .next t := by
  unfold execMainDomainReady
  with_reducible repeat' first
    | exact ⟨_, rfl⟩ | assumption | exact next_onAlways | split | dsimp only

theorem next_execSysRstAssert {x0 : State} : ∃ t, execSysRstAssert x0 = .next t := by
  unfold execSysRstAssert
  with_reducible repeat' first
    | exact ⟨_, rfl⟩ | assumption | split | dsimp only

theorem next_execSysRstRelease {x0 : State} : ∃ t, execSysRstRelease x0 = .next t := by
  unfold execSysRstRelease
  with_reducible repeat' first
    | exact ⟨_, rfl⟩ | assumption | split | dsimp only

theorem next_execHpPerstAssert {x0 : State} : ∃ t, execHpPerstAssert x0 = .next t := by
  unfold execHpPerstAssert
  with_reducible repeat' first
    | exact ⟨_, rfl⟩ | assumption | split | dsimp only

theorem next_execPerstResetHoldExpiry {x0 : State} : ∃ t, execPerstResetHoldExpiry x0 = .next t := by
  unfold execPerstResetHoldExpiry
  with_reducible repeat' first
    | exact ⟨_, rfl⟩ | assumption | exact next_onAlways | split | dsimp only

theorem next_execHpPerstRelease {x0 : State} : ∃ t, execHpPerstRelease x0 = .next t := by
  unfold execHpPerstRelease
  with_reducible repeat' first
    | exact ⟨_, rfl⟩ | assumption | split | dsimp only

theorem next_execTableauNFall {x0 : State} : ∃ t, execTableauNFall x0 = .next t := by
  unfold execTableauNFall
  with_reducible repeat' first
    | exact ⟨_, rfl⟩ | assumption | exact next_onAlways | split | dsimp only

theorem next_execHandoverStep4Timeout {x0 : State} : ∃ t, execHandoverStep4Timeout x0 = .next t := by
  unfold execHandoverStep4Timeout
  with_reducible repeat' first
    | exact ⟨_, rfl⟩ | assumption | exact next_onHandover | split | dsimp only

theorem next_execStoTargetUnreachable {x0 : Nat} {x1 : State} : ∃ t, execStoTargetUnreachable x0 x1 = .next t := by
  unfold execStoTargetUnreachable
  with_reducible repeat' first
    | exact ⟨_, rfl⟩ | assumption | exact next_onMain | split | dsimp only

theorem next_execRejReceived {x0 : Nat} {x1 : State} : ∃ t, execRejReceived x0 x1 = .next t := by
  unfold execRejReceived
  with_reducible repeat' first
    | exact ⟨_, rfl⟩ | assumption | exact next_onMainIf | split | dsimp only

theorem next_execRtuReceived {x0 : Nat} {x1 : State} : ∃ t, execRtuReceived x0 x1 = .next t := by
  unfold execRtuReceived
  with_reducible repeat' first
    | exact ⟨_, rfl⟩ | assumption | exact next_onMain | split | dsimp only

theorem next_execNetPeerUnreachable {x0 : Nat} {x1 : State} : ∃ t, execNetPeerUnreachable x0 x1 = .next t := by
  unfold execNetPeerUnreachable
  with_reducible repeat' first
    | exact ⟨_, rfl⟩ | assumption | exact next_onMainIf | split | dsimp only

theorem next_execHostLinkUp {x0 : State} : ∃ t, execHostLinkUp x0 = .next t := by
  unfold execHostLinkUp
  with_reducible repeat' first
    | exact ⟨_, rfl⟩ | assumption | exact next_onMainIf | split | dsimp only

theorem next_execDynamicAddressAssigned {x0 : Nat} {x1 : State} : ∃ t, execDynamicAddressAssigned x0 x1 = .next t := by
  unfold execDynamicAddressAssigned
  with_reducible repeat' first
    | exact ⟨_, rfl⟩ | assumption | exact next_onAlways | split | dsimp only

theorem next_execAlertNAssert {x0 : State} : ∃ t, execAlertNAssert x0 = .next t := by
  unfold execAlertNAssert
  with_reducible repeat' first
    | exact ⟨_, rfl⟩ | assumption | exact next_onAlways | split | dsimp only

/-- Every command completes. -/
theorem exec_completes (i : Instr) (s : State) : ∃ t, exec i s = .next t :=
  match i with
  | .registerWrite _ => next_execRegisterWrite
  | .bar2Access _ => next_execBar2Access
  | .setPartitions _ _ => next_execSetPartitions
  | .setCueSource _ _ => next_execSetCueSource
  | .positionFrame _ _ => next_execPositionFrame
  | .epochFrame _ _ => next_execEpochFrame
  | .ethCueFrame _ => next_execEthCueFrame
  | .cueSwPosWrite _ => next_execCueSwPosWrite
  | .cueInterpolate _ => next_execCueInterpolate
  | .cueHoldoverTimeout => next_execCueHoldoverTimeout
  | .cueHoldExpiry => next_execCueHoldExpiry
  | .cueFrameEmit => next_execCueFrameEmit
  | .pathDelayEcho => next_execPathDelayEcho
  | .echoReadResponse => next_execEchoReadResponse
  | .cueEventSet _ _ => next_execCueEventSet
  | .cueEventClear _ _ => next_execCueEventClear
  | .cueEventFire => next_execCueEventFire
  | .ptmExchange _ => next_execPtmExchange
  | .sqTailWrite _ _ _ => next_execSqTailWrite
  | .cqHeadWrite _ _ _ => next_execCqHeadWrite
  | .cmdCtrlEnSet _ => next_execCmdCtrlEnSet
  | .cmdCtrlEnClear _ => next_execCmdCtrlEnClear
  | .nop _ _ => next_execNop
  | .openSession _ _ => next_execOpenSession
  | .closeSession _ _ => next_execCloseSession
  | .setRoleKey _ _ => next_execSetRoleKey
  | .createQueuePair _ _ => next_execCreateQueuePair
  | .deleteQueuePair _ _ => next_execDeleteQueuePair
  | .intermissionBegin _ _ => next_execIntermissionBegin
  | .intermissionDrained _ => next_execIntermissionDrained
  | .drainLimitExpiry _ => next_execDrainLimitExpiry
  | .intermissionEnd _ _ => next_execIntermissionEnd
  | .intermissionAtReached _ => next_execIntermissionAtReached
  | .getState _ _ => next_execGetState
  | .abort _ _ => next_execAbort
  | .lockoutExpiry _ => next_execLockoutExpiry
  | .forwardedCommand _ _ _ _ _ => next_execForwardedCommand
  | .troupeMemberReply _ _ => next_execTroupeMemberReply
  | .troupeTimeout _ => next_execTroupeTimeout
  | .nvmeCcEnable _ _ => next_execNvmeCcEnable
  | .nvmeCcDisable _ cc => next_execNvmeCcDisable (x1 := cc)
  | .nvmeShutdown _ _ => next_execNvmeShutdown
  | .nvmeSqDoorbell _ _ _ => next_execNvmeSqDoorbell
  | .nvmeCqDoorbell _ _ _ => next_execNvmeCqDoorbell
  | .deleteIoSq _ => next_execDeleteIoSq
  | .createIoSq _ => next_execCreateIoSq
  | .getLogPage _ => next_execGetLogPage
  | .deleteIoCq _ => next_execDeleteIoCq
  | .createIoCq _ => next_execCreateIoCq
  | .identify _ => next_execIdentify
  | .nvmeAbort _ => next_execNvmeAbort
  | .setFeatures _ => next_execSetFeatures
  | .getFeatures _ => next_execGetFeatures
  | .asyncEventRequest _ => next_execAsyncEventRequest
  | .flush _ => next_execFlush
  | .write _ => next_execWrite
  | .read _ => next_execRead
  | .writeZeroes _ => next_execWriteZeroes
  | .datasetManagement _ => next_execDatasetManagement
  | .writeBufferAdmit => next_execWriteBufferAdmit
  | .wbDrainStart => next_execWbDrainStart
  | .wbDrainComplete _ _ => next_execWbDrainComplete
  | .remoteReadComplete _ _ => next_execRemoteReadComplete
  | .remoteCommandFail _ _ => next_execRemoteCommandFail
  | .connectTarget _ _ => next_execConnectTarget
  | .targetAssociated _ => next_execTargetAssociated
  | .disconnectTarget _ _ => next_execDisconnectTarget
  | .attachNamespace _ _ _ => next_execAttachNamespace
  | .detachNamespace _ _ => next_execDetachNamespace
  | .setNsMode _ _ => next_execSetNsMode
  | .setWbQuota _ _ => next_execSetWbQuota
  | .getNsStatus _ _ => next_execGetNsStatus
  | .discardDirty _ _ => next_execDiscardDirty
  | .linkUp _ => next_execLinkUp
  | .linkDown _ => next_execLinkDown
  | .fecDegrade _ _ => next_execFecDegrade
  | .frameReceived _ _ _ _ => next_execFrameReceived
  | .frameRecirculate _ => next_execFrameRecirculate
  | .rdmaWriteReceived _ => next_execRdmaWriteReceived
  | .rdmaReadRequest _ => next_execRdmaReadRequest
  | .rdmaReadResponse _ => next_execRdmaReadResponse
  | .ackReceived _ => next_execAckReceived
  | .cnpReceived _ => next_execCnpReceived
  | .qpAckTimeout _ => next_execQpAckTimeout
  | .sprayAckTimer _ => next_execSprayAckTimer
  | .qpRecoveryStart _ => next_execQpRecoveryStart
  | .recoverSendTimer _ => next_execRecoverSendTimer
  | .recoverReceived _ => next_execRecoverReceived
  | .recoveryAttemptTimeout _ => next_execRecoveryAttemptTimeout
  | .recoveryRetry _ => next_execRecoveryRetry
  | .pathDown _ _ => next_execPathDown
  | .pathProbe _ _ _ => next_execPathProbe
  | .netEvqHeadWrite _ => next_execNetEvqHeadWrite
  | .cmReqReceived _ _ => next_execCmReqReceived
  | .cmRepReceived _ _ => next_execCmRepReceived
  | .setPortMode _ _ => next_execSetPortMode
  | .getPortStatus _ _ => next_execGetPortStatus
  | .createQp _ _ => next_execCreateQp
  | .modifyQp _ _ => next_execModifyQp
  | .destroyQp _ _ => next_execDestroyQp
  | .queryQp _ _ => next_execQueryQp
  | .setEventQueue _ _ => next_execSetEventQueue
  | .registerRegion _ _ => next_execRegisterRegion
  | .deregisterRegion _ _ => next_execDeregisterRegion
  | .troupeAddMember _ _ => next_execTroupeAddMember
  | .troupeRemoveMember _ _ => next_execTroupeRemoveMember
  | .setContextReserve _ _ => next_execSetContextReserve
  | .hedLoadGraph _ _ => next_execHedLoadGraph
  | .hedSetTable _ _ => next_execHedSetTable
  | .hedAddEntry _ _ => next_execHedAddEntry
  | .hedDelEntry _ _ => next_execHedDelEntry
  | .setPacketRing _ _ => next_execSetPacketRing
  | .flowAgeExpiry _ => next_execFlowAgeExpiry
  | .contextError _ => next_execContextError
  | .cipAssignPages _ _ => next_execCipAssignPages
  | .cipLoadKey _ _ => next_execCipLoadKey
  | .cipClearPage _ _ => next_execCipClearPage
  | .cipCrypt _ _ => next_execCipCrypt
  | .cipherUnitDone _ _ => next_execCipherUnitDone
  | .espLaneTimeout _ => next_execEspLaneTimeout
  | .drbgReseed _ => next_execDrbgReseed
  | .shuOpenStream _ _ => next_execShuOpenStream
  | .shuCloseStream _ _ => next_execShuCloseStream
  | .shuFeed _ _ => next_execShuFeed
  | .shuGetStream _ _ => next_execShuGetStream
  | .shuSetPolicy _ _ => next_execShuSetPolicy
  | .shuReturnOutput _ _ => next_execShuReturnOutput
  | .shuSetMel _ _ => next_execShuSetMel
  | .streamInputRead _ _ _ => next_execStreamInputRead
  | .pictureDecoded _ _ => next_execPictureDecoded
  | .audioFrameDecoded _ _ => next_execAudioFrameDecoded
  | .captionChange _ _ => next_execCaptionChange
  | .sliceReparseDone _ _ _ => next_execSliceReparseDone
  | .containerTimeout _ => next_execContainerTimeout
  | .tapLoadProgram _ _ => next_execTapLoadProgram
  | .tapUnloadProgram _ _ => next_execTapUnloadProgram
  | .tapRun _ _ => next_execTapRun
  | .tapBindQueue _ _ => next_execTapBindQueue
  | .tapUnbindQueue _ _ => next_execTapUnbindQueue
  | .tapGetQueue _ _ => next_execTapGetQueue
  | .tapSetPolicy _ _ => next_execTapSetPolicy
  | .queueWaitExpiry _ => next_execQueueWaitExpiry
  | .sliceComplete _ _ _ => next_execSliceComplete
  | .sliceOverrun _ => next_execSliceOverrun
  | .coreJoin _ => next_execCoreJoin
  | .loomOpenJob _ _ => next_execLoomOpenJob
  | .loomCloseJob _ _ => next_execLoomCloseJob
  | .loomAddWarp _ _ => next_execLoomAddWarp
  | .loomSetLayout _ _ => next_execLoomSetLayout
  | .loomStart _ _ => next_execLoomStart
  | .loomGetCursor _ _ => next_execLoomGetCursor
  | .loomSetCursor _ _ => next_execLoomSetCursor
  | .loomGetOrder _ _ => next_execLoomGetOrder
  | .loomGetJob _ _ => next_execLoomGetJob
  | .loomSetShare _ _ => next_execLoomSetShare
  | .loomFetchStart _ => next_execLoomFetchStart
  | .indexEntryRead _ _ _ _ => next_execIndexEntryRead
  | .samplePayloadRead _ _ _ _ => next_execSamplePayloadRead
  | .sampleAdmit _ _ _ _ => next_execSampleAdmit
  | .exchangeNotice _ _ => next_execExchangeNotice
  | .rescueFetch _ _ _ => next_execRescueFetch
  | .weaveClose _ _ => next_execWeaveClose
  | .feedSetPort _ _ => next_execFeedSetPort
  | .feedAdmit _ _ => next_execFeedAdmit
  | .feedRelease _ _ => next_execFeedRelease
  | .latchAssign _ _ => next_execLatchAssign
  | .feedCreateRing _ _ => next_execFeedCreateRing
  | .feedDestroyRing _ _ => next_execFeedDestroyRing
  | .feedResetRing _ _ => next_execFeedResetRing
  | .feedGetRing _ _ => next_execFeedGetRing
  | .feedJoin _ _ => next_execFeedJoin
  | .accelPresence _ => next_execAccelPresence
  | .accelEnumerated _ _ _ _ _ _ _ => next_execAccelEnumerated
  | .linkTrainingTimeout _ => next_execLinkTrainingTimeout
  | .accelRetryTimer _ => next_execAccelRetryTimer
  | .accelDeparted _ => next_execAccelDeparted
  | .latchAdd _ _ _ _ => next_execLatchAdd
  | .latchPost _ _ _ _ => next_execLatchPost
  | .latchValWrite _ => next_execLatchValWrite
  | .latchThreshWrite _ => next_execLatchThreshWrite
  | .latchCfgWrite _ => next_execLatchCfgWrite
  | .upstreamAccess _ _ _ _ => next_execUpstreamAccess
  | .deliveryIssue _ => next_execDeliveryIssue
  | .deliveryLanded _ _ => next_execDeliveryLanded
  | .genReadResponse _ _ _ => next_execGenReadResponse
  | .ringResetReadDone _ => next_execRingResetReadDone
  | .creditMailboxEntry _ _ => next_execCreditMailboxEntry
  | .layoutNotice _ _ => next_execLayoutNotice
  | .layoutRoundTimeout _ _ => next_execLayoutRoundTimeout
  | .layoutRepropose _ _ => next_execLayoutRepropose
  | .detectedError _ _ _ _ => next_execDetectedError
  | .correctedError _ _ _ => next_execCorrectedError
  | .meshDegraded _ => next_execMeshDegraded
  | .patrolScrub _ _ => next_execPatrolScrub
  | .uncorrectableBurst _ _ _ _ _ => next_execUncorrectableBurst
  | .partitionResetEnd _ _ => next_execPartitionResetEnd
  | .channelRemoved => next_execChannelRemoved
  | .recordCoalesceExpiry _ _ _ => next_execRecordCoalesceExpiry
  | .iftDue _ => next_execIftDue
  | .iftComplete _ _ _ => next_execIftComplete
  | .rasSetErrorRing _ _ => next_execRasSetErrorRing
  | .rasErrorHead _ _ => next_execRasErrorHead
  | .rasGetUnit _ _ => next_execRasGetUnit
  | .rasFenceUnit _ _ => next_execRasFenceUnit
  | .rasSetTest _ _ => next_execRasSetTest
  | .ckpSetJob _ _ => next_execCkpSetJob
  | .ckpSetShards _ _ => next_execCkpSetShards
  | .ckpSetTrigger _ _ => next_execCkpSetTrigger
  | .ckpCapture _ _ => next_execCkpCapture
  | .ckpGetJob _ _ => next_execCkpGetJob
  | .ckpRestore _ _ => next_execCkpRestore
  | .ckpSetSigners _ _ => next_execCkpSetSigners
  | .ckpCloseJob _ _ => next_execCkpCloseJob
  | .ckpReadBank _ _ => next_execCkpReadBank
  | .captureDecision _ => next_execCaptureDecision
  | .bankZeroAck _ => next_execBankZeroAck
  | .captureStart _ => next_execCaptureStart
  | .shardCopied _ _ _ _ => next_execShardCopied
  | .shardStored _ _ => next_execShardStored
  | .captureCommit _ => next_execCaptureCommit
  | .pbWriteFail _ _ => next_execPbWriteFail
  | .checkpointNotice _ _ => next_execCheckpointNotice
  | .drainComplete _ => next_execDrainComplete
  | .restoreShardRead _ _ _ _ => next_execRestoreShardRead
  | .stgLoadGo _ => next_execStgLoadGo
  | .stgLoadDone _ _ => next_execStgLoadDone
  | .watchdogExpiry _ => next_execWatchdogExpiry
  | .stagehandRestarted _ => next_execStagehandRestarted
  | .fwGetInfo _ _ => next_execFwGetInfo
  | .fwStage _ _ => next_execFwStage
  | .fwVerify _ _ => next_execFwVerify
  | .fwActivate _ _ => next_execFwActivate
  | .handoverClearance => next_execHandoverClearance
  | .activateDeferTimeout => next_execActivateDeferTimeout
  | .handoverQuiesced => next_execHandoverQuiesced
  | .handoverQuiesceTimeout => next_execHandoverQuiesceTimeout
  | .handoverResumed => next_execHandoverResumed
  | .trialExpiry => next_execTrialExpiry
  | .fwCommit _ _ => next_execFwCommit
  | .fwRollback _ _ => next_execFwRollback
  | .fwLoadModule _ _ => next_execFwLoadModule
  | .fwUnloadModule _ _ => next_execFwUnloadModule
  | .fwSetModuleKey _ _ => next_execFwSetModuleKey
  | .add _ _ _ _ => next_execAdd
  | .sub _ _ _ _ => next_execSub
  | .andR _ _ _ _ => next_execAndR
  | .orR _ _ _ _ => next_execOrR
  | .xorR _ _ _ _ => next_execXorR
  | .shl _ _ _ _ => next_execShl
  | .shr _ _ _ _ => next_execShr
  | .sar _ _ _ _ => next_execSar
  | .mul _ _ _ _ => next_execMul
  | .mulhu _ _ _ _ => next_execMulhu
  | .divu _ _ _ _ => next_execDivu
  | .remu _ _ _ _ => next_execRemu
  | .minu _ _ _ _ => next_execMinu
  | .maxu _ _ _ _ => next_execMaxu
  | .movR _ _ _ => next_execMovR
  | .sltu _ _ _ _ => next_execSltu
  | .addi _ _ _ _ => next_execAddi
  | .andi _ _ _ _ => next_execAndi
  | .ori _ _ _ _ => next_execOri
  | .xori _ _ _ _ => next_execXori
  | .shiftiShl _ _ _ _ => next_execShiftiShl
  | .shiftiShr _ _ _ _ => next_execShiftiShr
  | .shiftiSar _ _ _ _ => next_execShiftiSar
  | .movz _ _ _ _ => next_execMovz
  | .movk _ _ _ _ => next_execMovk
  | .ld64 _ _ _ _ => next_execLd64
  | .ld32u _ _ _ _ => next_execLd32u
  | .ld16u _ _ _ _ => next_execLd16u
  | .ld8u _ _ _ _ => next_execLd8u
  | .st64 _ _ _ _ => next_execSt64
  | .st32 _ _ _ _ => next_execSt32
  | .st16 _ _ _ _ => next_execSt16
  | .st8 _ _ _ _ => next_execSt8
  | .beq _ _ _ _ => next_execBeq
  | .bne _ _ _ _ => next_execBne
  | .blt _ _ _ _ => next_execBlt
  | .bge _ _ _ _ => next_execBge
  | .bltu _ _ _ _ => next_execBltu
  | .bgeu _ _ _ _ => next_execBgeu
  | .jal _ _ => next_execJal
  | .jr _ _ _ => next_execJr
  | .loop _ _ _ _ => next_execLoop
  | .loopi _ _ _ _ => next_execLoopi
  | .csrr _ _ _ => next_execCsrr
  | .csrw _ _ _ => next_execCsrw
  | .tagR _ _ _ => next_execTagR
  | .retag _ _ _ _ => next_execRetag
  | .trap _ _ => next_execTrap
  | .tret _ _ => next_execTret
  | .adr _ _ _ => next_execAdr
  | .wait _ _ _ => next_execWait
  | .waitReturn _ => next_execWaitReturn
  | .sha256Init _ => next_execSha256Init
  | .sha256Upd _ _ _ => next_execSha256Upd
  | .sha256Fin _ _ => next_execSha256Fin
  | .crc32c _ _ _ _ => next_execCrc32c
  | .crc64 _ _ _ _ => next_execCrc64
  | .walk _ _ _ _ => next_execWalk
  | .ctxRd _ _ _ => next_execCtxRd
  | .ctxWr _ _ _ => next_execCtxWr
  | .ctxPin _ _ => next_execCtxPin
  | .ctxUnpin _ _ => next_execCtxUnpin
  | .cbRaise _ _ => next_execCbRaise
  | .cbPend _ _ => next_execCbPend
  | .cbDone _ _ => next_execCbDone
  | .ltRead _ _ _ => next_execLtRead
  | .ltAdd _ _ _ => next_execLtAdd
  | .ltThresh _ _ _ => next_execLtThresh
  | .dmaCopy _ _ _ _ _ => next_execDmaCopy
  | .dmaWin _ _ _ => next_execDmaWin
  | .moduleBudgetExpiry _ => next_execModuleBudgetExpiry
  | .callAssign _ _ => next_execCallAssign
  | .callMaskSet _ => next_execCallMaskSet
  | .callMaskClr _ => next_execCallMaskClr
  | .callPendSet _ => next_execCallPendSet
  | .callPendClr _ => next_execCallPendClr
  | .callVTake _ _ => next_execCallVTake
  | .callVDone _ _ _ => next_execCallVDone
  | .moderationExpiry _ _ => next_execModerationExpiry
  | .msixUnmask _ _ => next_execMsixUnmask
  | .flr _ => next_execFlr
  | .flrComplete _ => next_execFlrComplete
  | .vfEnableSet _ => next_execVfEnableSet
  | .vfEnableClear => next_execVfEnableClear
  | .barResize _ _ => next_execBarResize
  | .mboxSeqWrite _ => next_execMboxSeqWrite
  | .mboxAckWrite _ => next_execMboxAckWrite
  | .vfSetResources _ _ => next_execVfSetResources
  | .vfGetResources _ _ => next_execVfGetResources
  | .vfSetMbox _ _ => next_execVfSetMbox
  | .vfTrackStart _ _ => next_execVfTrackStart
  | .vfTrackSync _ _ => next_execVfTrackSync
  | .vfTrackStop _ _ => next_execVfTrackStop
  | .vfFreeze _ _ => next_execVfFreeze
  | .vfFrozen _ => next_execVfFrozen
  | .vfFreezeDrainLimit _ => next_execVfFreezeDrainLimit
  | .vfSavePrecopy _ _ => next_execVfSavePrecopy
  | .vfSaveFinal _ _ => next_execVfSaveFinal
  | .vfRestore _ _ _ => next_execVfRestore
  | .vfResume _ _ => next_execVfResume
  | .vfSetMigKey _ _ => next_execVfSetMigKey
  | .smBoot => next_execSmBoot
  | .smWatchdogExpiry => next_execSmWatchdogExpiry
  | .sensorSample _ _ => next_execSensorSample
  | .storeBankCompare _ => next_execStoreBankCompare
  | .getVersion _ _ => next_execGetVersion
  | .getCapabilities _ _ => next_execGetCapabilities
  | .negotiateAlgorithms _ _ => next_execNegotiateAlgorithms
  | .getDigests _ _ => next_execGetDigests
  | .getCertificate _ _ => next_execGetCertificate
  | .challenge _ _ => next_execChallenge
  | .getMeasurements _ _ => next_execGetMeasurements
  | .keyExchange _ _ => next_execKeyExchange
  | .finish _ _ _ => next_execFinish
  | .keyUpdate _ _ _ => next_execKeyUpdate
  | .endSession _ _ _ => next_execEndSession
  | .mctpControl _ _ => next_execMctpControl
  | .mgmtCommand _ _ _ => next_execMgmtCommand
  | .mgmtScanRequest _ _ => next_execMgmtScanRequest
  | .pldmBase _ _ => next_execPldmBase
  | .pldmPlatform _ _ => next_execPldmPlatform
  | .pldmFru _ _ => next_execPldmFru
  | .pldmFirmwareUpdate _ _ _ => next_execPldmFirmwareUpdate
  | .setEventReceiver _ _ => next_execSetEventReceiver
  | .healthResendTimer _ => next_execHealthResendTimer
  | .activateFirmware _ _ _ => next_execActivateFirmware
  | .smActivateClearance => next_execSmActivateClearance
  | .smActivateTimeout => next_execSmActivateTimeout
  | .smFwConfirm => next_execSmFwConfirm
  | .smTrialTimeout => next_execSmTrialTimeout
  | .smReadLog _ _ => next_execSmReadLog
  | .smSetOperatorKey _ _ => next_execSmSetOperatorKey
  | .smSetThreshold _ _ => next_execSmSetThreshold
  | .smSetFwKey _ _ => next_execSmSetFwKey
  | .smSetMgmt _ _ => next_execSmSetMgmt
  | .mgmtConfigApply => next_execMgmtConfigApply
  | .obsSetSnapArea _ _ => next_execObsSetSnapArea
  | .obsSnapHead _ _ => next_execObsSnapHead
  | .obsSetCounter _ _ => next_execObsSetCounter
  | .obsTraceCfg _ _ => next_execObsTraceCfg
  | .obsTraceStart _ _ => next_execObsTraceStart
  | .obsTraceStop _ _ => next_execObsTraceStop
  | .obsTrigger _ _ => next_execObsTrigger
  | .obsTraceRead _ _ => next_execObsTraceRead
  | .obsTableau _ _ => next_execObsTableau
  | .obsClearCounters _ _ => next_execObsClearCounters
  | .tableauStopped => next_execTableauStopped
  | .jtagAccess _ _ _ => next_execJtagAccess
  | .powerControlTick => next_execPowerControlTick
  | .thermalCapStep => next_execThermalCapStep
  | .pwrSetCap _ _ => next_execPwrSetCap
  | .pwrSetConfig _ _ => next_execPwrSetConfig
  | .eprNLow => next_execEprNLow
  | .eprNHigh => next_execEprNHigh
  | .eprHoldExpiry => next_execEprHoldExpiry
  | .aonPowerUp _ => next_execAonPowerUp
  | .aonPowerOff => next_execAonPowerOff
  | .inputOutOfRange => next_execInputOutOfRange
  | .inputRestored => next_execInputRestored
  | .pwrEnHigh => next_execPwrEnHigh
  | .pwrEnLow => next_execPwrEnLow
  | .mainPowerUp => next_execMainPowerUp
  | .mainDomainReady => next_execMainDomainReady
  | .sysRstAssert => next_execSysRstAssert
  | .sysRstRelease => next_execSysRstRelease
  | .hpPerstAssert => next_execHpPerstAssert
  | .perstResetHoldExpiry => next_execPerstResetHoldExpiry
  | .hpPerstRelease => next_execHpPerstRelease
  | .tableauNFall => next_execTableauNFall
  | .handoverStep4Timeout => next_execHandoverStep4Timeout
  | .stoTargetUnreachable _ => next_execStoTargetUnreachable
  | .rejReceived _ => next_execRejReceived
  | .rtuReceived _ => next_execRtuReceived
  | .netPeerUnreachable _ => next_execNetPeerUnreachable
  | .hostLinkUp => next_execHostLinkUp
  | .dynamicAddressAssigned _ => next_execDynamicAddressAssigned
  | .alertNAssert => next_execAlertNAssert

end Sys2Proof.Laws
end

