-- ==== Sys2Proof/Laws/Keeps.lean ====
section
/-!
SUPPORT. What every operation keeps: a property of states that is closed under the elementary changes of some parts of the state is kept
by every operation that changes no other part. `Keeps P m` says that `P` is closed under the changes of the parts in the mask `m`.
-/
namespace Sys2Proof.Laws

open Sys2Proof Sys2Proof.Machine Sys2Proof.Safety

/-- `P` is closed under the elementary changes of one part: an output is added, free values are used, memory is written or cleared, any
other part changes in any way; 28 is a reset of the main domain and 29 one of the always-on domain. -/
def Closed (P : State → Prop) : Nat → Prop
  | 0 => ∀ s x, P s → P (s.upOut (· ++ [x]))
  | 1 => ∀ s n, P s → P (s.upFree (· + n))
  | 3 => ∀ s f, P s → P (State.upGlb s f)
  | 4 => ∀ s f, P s → P (State.upAon s f)
  | 5 => ∀ s f, P s → P (State.upCue s f)
  | 6 => ∀ s f, P s → P (State.upCmd s f)
  | 7 => ∀ s f, P s → P (State.upSto s f)
  | 8 => ∀ s f, P s → P (State.upNet s f)
  | 9 => ∀ s f, P s → P (State.upHed s f)
  | 10 => ∀ s f, P s → P (State.upCtx s f)
  | 11 => ∀ s f, P s → P (State.upCip s f)
  | 12 => ∀ s f, P s → P (State.upShu s f)
  | 13 => ∀ s f, P s → P (State.upTap s f)
  | 14 => ∀ s f, P s → P (State.upTapc s f)
  | 15 => ∀ s f, P s → P (State.upLoom s f)
  | 16 => ∀ s f, P s → P (State.upFeed s f)
  | 17 => ∀ s f, P s → P (State.upLat s f)
  | 18 => ∀ s f, P s → P (State.upRas s f)
  | 19 => ∀ s f, P s → P (State.upCkp s f)
  | 20 => ∀ s f, P s → P (State.upStg s f)
  | 21 => ∀ s f, P s → P (State.upOnb s f)
  | 22 => ∀ s f, P s → P (State.upCall s f)
  | 23 => ∀ s f, P s → P (State.upHost s f)
  | 24 => ∀ s f, P s → P (State.upFlash s f)
  | 25 => ∀ s f, P s → P (State.upSm s f)
  | 26 => ∀ s f, P s → P (State.upObs s f)
  | 27 => ∀ s f, P s → P (State.upPwr s f)
  | 2 => (∀ s a b, P s → P (s.upGddr (fun m => memPut m a b))) ∧ ∀ s a n, P s → P (s.upGddr (fun m => memClear m a n))
  | 28 => ∀ s, P s → P s.mainFresh
  | 29 => ∀ s on, P s → P (s.allFresh on)
  | _ => True

/-- `P` is closed under the changes of every part in a mask. -/
def Keeps (P : State → Prop) (m : Nat) : Prop := ∀ k, m.testBit k = true → Closed P k

theorem Keeps.mono {P : State → Prop} {m n : Nat} (H : Keeps P n) (e : m &&& n = m) : Keeps P m := fun k h => H k (by
  rw [← e, Nat.testBit_and, Bool.and_eq_true] at h; exact h.2)

theorem keeps_out {P : State → Prop} {s : State} {x : Out} (H : Keeps P 1) (h : P s) : P (s.upOut (· ++ [x])) := H 0 rfl s x h
theorem keeps_free {P : State → Prop} {s : State} {n : Nat} (H : Keeps P 2) (h : P s) : P (s.upFree (· + n)) := H 1 rfl s n h
theorem keeps_upGlb {P : State → Prop} {s : State} {f} (H : Keeps P 0x8) (h : P s) : P (State.upGlb s f) := H 3 rfl s f h
theorem keeps_upAon {P : State → Prop} {s : State} {f} (H : Keeps P 0x10) (h : P s) : P (State.upAon s f) := H 4 rfl s f h
theorem keeps_upCue {P : State → Prop} {s : State} {f} (H : Keeps P 0x20) (h : P s) : P (State.upCue s f) := H 5 rfl s f h
theorem keeps_upCmd {P : State → Prop} {s : State} {f} (H : Keeps P 0x40) (h : P s) : P (State.upCmd s f) := H 6 rfl s f h
theorem keeps_upSto {P : State → Prop} {s : State} {f} (H : Keeps P 0x80) (h : P s) : P (State.upSto s f) := H 7 rfl s f h
theorem keeps_upNet {P : State → Prop} {s : State} {f} (H : Keeps P 0x100) (h : P s) : P (State.upNet s f) := H 8 rfl s f h
theorem keeps_upHed {P : State → Prop} {s : State} {f} (H : Keeps P 0x200) (h : P s) : P (State.upHed s f) := H 9 rfl s f h
theorem keeps_upCtx {P : State → Prop} {s : State} {f} (H : Keeps P 0x400) (h : P s) : P (State.upCtx s f) := H 10 rfl s f h
theorem keeps_upCip {P : State → Prop} {s : State} {f} (H : Keeps P 0x800) (h : P s) : P (State.upCip s f) := H 11 rfl s f h
theorem keeps_upShu {P : State → Prop} {s : State} {f} (H : Keeps P 0x1000) (h : P s) : P (State.upShu s f) := H 12 rfl s f h
theorem keeps_upTap {P : State → Prop} {s : State} {f} (H : Keeps P 0x2000) (h : P s) : P (State.upTap s f) := H 13 rfl s f h
theorem keeps_upTapc {P : State → Prop} {s : State} {f} (H : Keeps P 0x4000) (h : P s) : P (State.upTapc s f) := H 14 rfl s f h
theorem keeps_upLoom {P : State → Prop} {s : State} {f} (H : Keeps P 0x8000) (h : P s) : P (State.upLoom s f) := H 15 rfl s f h
theorem keeps_upFeed {P : State → Prop} {s : State} {f} (H : Keeps P 0x10000) (h : P s) : P (State.upFeed s f) := H 16 rfl s f h
theorem keeps_upLat {P : State → Prop} {s : State} {f} (H : Keeps P 0x20000) (h : P s) : P (State.upLat s f) := H 17 rfl s f h
theorem keeps_upRas {P : State → Prop} {s : State} {f} (H : Keeps P 0x40000) (h : P s) : P (State.upRas s f) := H 18 rfl s f h
theorem keeps_upCkp {P : State → Prop} {s : State} {f} (H : Keeps P 0x80000) (h : P s) : P (State.upCkp s f) := H 19 rfl s f h
theorem keeps_upStg {P : State → Prop} {s : State} {f} (H : Keeps P 0x100000) (h : P s) : P (State.upStg s f) := H 20 rfl s f h
theorem keeps_upOnb {P : State → Prop} {s : State} {f} (H : Keeps P 0x200000) (h : P s) : P (State.upOnb s f) := H 21 rfl s f h
theorem keeps_upCall {P : State → Prop} {s : State} {f} (H : Keeps P 0x400000) (h : P s) : P (State.upCall s f) := H 22 rfl s f h
theorem keeps_upHost {P : State → Prop} {s : State} {f} (H : Keeps P 0x800000) (h : P s) : P (State.upHost s f) := H 23 rfl s f h
theorem keeps_upFlash {P : State → Prop} {s : State} {f} (H : Keeps P 0x1000000) (h : P s) : P (State.upFlash s f) := H 24 rfl s f h
theorem keeps_upSm {P : State → Prop} {s : State} {f} (H : Keeps P 0x2000000) (h : P s) : P (State.upSm s f) := H 25 rfl s f h
theorem keeps_upObs {P : State → Prop} {s : State} {f} (H : Keeps P 0x4000000) (h : P s) : P (State.upObs s f) := H 26 rfl s f h
theorem keeps_upPwr {P : State → Prop} {s : State} {f} (H : Keeps P 0x8000000) (h : P s) : P (State.upPwr s f) := H 27 rfl s f h
theorem keeps_put {P : State → Prop} {s : State} {a : Nat} {b : Bytes} (H : Keeps P 4) (h : P s) : P (s.upGddr (fun m => memPut m a b)) :=
  (H 2 rfl).1 s a b h
theorem keeps_clear {P : State → Prop} {s : State} {a n : Nat} (H : Keeps P 4) (h : P s) : P (s.upGddr (fun m => memClear m a n)) :=
  (H 2 rfl).2 s a n h
theorem keeps_mainFresh {P : State → Prop} {s : State} (H : Keeps P 0x10000000) (h : P s) : P s.mainFresh := H 28 rfl s h
theorem keeps_allFresh {P : State → Prop} {s : State} {on : Bool} (H : Keeps P 0x20000000) (h : P s) : P (s.allFresh on) := H 29 rfl s on h

/-- The next state of an outcome, where there is one, has a property. -/
structure ResAll (P : State → Prop) (r : Res) : Prop where
  get : ∀ t, r = .next t → P t
/-- Every state that a verdict carries has a property. -/
inductive VAll (P : State → Prop) : Verdict → Prop
  | done (a b c : Nat) (t : State) (h : P t) : VAll P (.done a b c t)
  | doneAs (a b c d : Nat) (t : State) (h : P t) : VAll P (.doneAs a b c d t)
  | refuse (a b : Nat) : VAll P (.refuse a b)
  | refuseAt (a b c : Nat) : VAll P (.refuseAt a b c)
  | wait (a b : Nat) (t : State) (h : P t) : VAll P (.wait a b t)
/-- What an option holds has a property. -/
structure OptAll {α : Type} (Q : α → Prop) (o : Option α) : Prop where
  get : ∀ a, o = some a → Q a
/-- A command's checks and effect keep a property. -/
structure SpecAll (P : State → Prop) (sp : OpSpec) : Prop where
  run : ∀ c h p s, P s → VAll P (sp.run c h p s)
  authFail : ∀ h n s, P s → P (sp.authFail h n s)
/-- What a write or a clearing of a register does keeps a property. -/
structure RegAll (P : State → Prop) (r : Reg) : Prop where
  put : OptAll (fun g => ∀ s n, P s → P (g s n)) r.put
  hi : OptAll (fun g => ∀ s n, P s → P (g s n)) r.hi
  clear : OptAll (fun g => ∀ s, P s → P (g s)) r.clear

theorem res_next {P : State → Prop} {t : State} (h : P t) : ResAll P (.next t) := ⟨fun _ e => by cases e; exact h⟩
theorem opt_some {α : Type} {Q : α → Prop} {a : α} (h : Q a) : OptAll Q (some a) := ⟨fun _ e => by cases e; exact h⟩
theorem opt_none {α : Type} {Q : α → Prop} : OptAll Q none := ⟨fun _ e => by cases e⟩
theorem opt_map {α β : Type} {Q : β → Prop} {f : α → β} {o : Option α} (h : ∀ x, Q (f x)) : OptAll Q (o.map f) := ⟨fun a e => by
  cases o with
  | none => cases e
  | some x => cases e; exact h x⟩
theorem opt_ite {α : Type} {Q : α → Prop} {c : Prop} [Decidable c] {a b : Option α} (h : OptAll Q a) (g : OptAll Q b) :
    OptAll Q (if c then a else b) := by
  split
  · exact h
  · exact g
/-- The state that an `Except` holds has a property. -/
structure ExcAll (P : State → Prop) (e : Except Nat State) : Prop where
  get : ∀ t, e = .ok t → P t
theorem exc_ok {P : State → Prop} {t : State} (h : P t) : ExcAll P (.ok t) := ⟨fun _ e => by cases e; exact h⟩
theorem exc_error {P : State → Prop} {n : Nat} : ExcAll P (.error n) := ⟨fun _ e => by cases e⟩
theorem exc_get {P : State → Prop} {o : Except Nat State} {t : State} (e : o = .ok t) (h : ExcAll P o) : P t := h.get t e
theorem opt_bind {α β : Type} {Q : β → Prop} {f : α → Option β} {o : Option α} (h : ∀ x, OptAll Q (f x)) : OptAll Q (o.bind f) := ⟨fun a e => by
  cases o with
  | none => cases e
  | some x => exact (h x).get a e⟩
theorem ver_done {P : State → Prop} {v : Verdict} {a b c : Nat} {t : State} (e : v = .done a b c t) (h : VAll P v) : P t := by
  subst e; cases h; assumption
theorem ver_doneAs {P : State → Prop} {v : Verdict} {a b c d : Nat} {t : State} (e : v = .doneAs a b c d t) (h : VAll P v) : P t := by
  subst e; cases h; assumption
theorem ver_wait {P : State → Prop} {v : Verdict} {a b : Nat} {t : State} (e : v = .wait a b t) (h : VAll P v) : P t := by
  subst e; cases h; assumption
theorem keeps_id {P : State → Prop} {s : State} (h : P s) : P (id s) := h
theorem res_get {P : State → Prop} {r : Res} {t : State} (e : r = .next t) (h : ResAll P r) : P t := h.get t e
theorem ver_getD {P : State → Prop} {o : Option Verdict} {v : Verdict} (h : OptAll (VAll P) o) (g : VAll P v) : VAll P (o.getD v) := by
  cases o with
  | none => exact g
  | some x => exact h.get x rfl
theorem opt_getD2 {P : State → Prop} {α : Type} {o : Option (α × State)} {k : α} {s : State} (h : OptAll (fun x => P x.2) o) (g : P s) :
    P (o.getD (k, s)).2 := by
  cases o with
  | none => exact g
  | some x => exact h.get x rfl
theorem opt_bindS {P : State → Prop} {f : State → Option State} {o : Option State} (h : OptAll P o) (g : ∀ s, P s → OptAll P (f s)) :
    OptAll P (o.bind f) := by
  cases o with
  | none => exact opt_none
  | some x => exact g x (h.get x rfl)
theorem opt_foldl {P : State → Prop} {α : Type} {f : Option State → α → Option State} {o : Option State} {l : List α} (h : OptAll P o)
    (hf : ∀ o x, OptAll P o → OptAll P (f o x)) : OptAll P (l.foldl f o) := by
  induction l generalizing o with
  | nil => exact h
  | cons x l ih => exact ih (hf o x h)
/-- The verdict that an `Except` holds keeps a property. -/
structure ErrAll (P : State → Prop) (e : Except Verdict Nat) : Prop where
  get : ∀ v, e = .error v → VAll P v
theorem err_ok {P : State → Prop} {n : Nat} : ErrAll P (.ok n) := ⟨fun _ e => by cases e⟩
theorem err_error {P : State → Prop} {v : Verdict} (h : VAll P v) : ErrAll P (.error v) := ⟨fun _ e => by cases e; exact h⟩
theorem err_get {P : State → Prop} {o : Except Verdict Nat} {v : Verdict} (e : o = .error v) (h : ErrAll P o) : VAll P v := h.get v e
theorem opt_map2 {P : State → Prop} {α β : Type} {Q : β → Prop} {f : α × State → β} {o : Option (α × State)} (h : OptAll (fun x => P x.2) o)
    (g : ∀ x, P x.2 → Q (f x)) : OptAll Q (o.map f) := ⟨fun a e => by
  cases o with
  | none => cases e
  | some x => cases e; exact g x (h.get x rfl)⟩
theorem opt_clear {P : State → Prop} {o : Option Reg} {f : State → State} {s : State} (e : (o.bind fun r => r.clear) = some f)
    (h : OptAll (RegAll P) o) (hs : P s) : P (f s) := by
  cases o with
  | none => cases e
  | some r => exact (h.get r rfl).clear.get f e s hs
theorem opt_get {P : State → Prop} {o : Option State} {t : State} (e : o = some t) (h : OptAll P o) : P t := h.get t e
theorem opt_get2 {P : State → Prop} {α : Type} {o : Option (α × State)} {x : α} {t : State} (e : o = some (x, t))
    (h : OptAll (fun x => P x.2) o) : P t := h.get _ e
theorem opt_get4 {P : State → Prop} {o : Option (Nat × Nat × Nat × State)} {x y z : Nat} {t : State} (e : o = some (x, y, z, t))
    (h : OptAll (fun x => P x.2.2.2) o) : P t := h.get _ e
theorem opt_ver {P : State → Prop} {o : Option Verdict} {v : Verdict} (e : o = some v) (h : OptAll (VAll P) o) : VAll P v := h.get v e
theorem opt_reg {P : State → Prop} {o : Option Reg} {r : Reg} (e : o = some r) (h : OptAll (RegAll P) o) : RegAll P r := h.get r e
theorem eq_fst {P : State → Prop} {α : Type} {p : State × α} {x : α} {t : State} (e : p = (t, x)) (h : P p.1) : P t := by subst e; exact h
theorem eq_fst3 {P : State → Prop} {α β : Type} {p : State × α × β} {x : α} {y : β} {t : State} (e : p = (t, x, y)) (h : P p.1) : P t := by
  subst e; exact h
theorem eq_snd {P : State → Prop} {α : Type} {p : α × State} {x : α} {t : State} (e : p = (x, t)) (h : P p.2) : P t := by subst e; exact h
theorem eq_trd {P : State → Prop} {α β : Type} {p : α × β × State} {x : α} {y : β} {t : State} (e : p = (x, y, t)) (h : P p.2.2) : P t := by
  subst e; exact h
theorem keeps_foldl {P : State → Prop} {α : Type} {f : State → α → State} {s : State} {l : List α} (h : P s)
    (hf : ∀ s x, P s → P (f s x)) : P (l.foldl f s) := by
  induction l generalizing s with
  | nil => exact h
  | cons x l ih => exact ih (hf s x h)
theorem keeps_foldl_fst {P : State → Prop} {α β : Type} {f : State × β → α → State × β} {s : State × β} {l : List α} (h : P s.1)
    (hf : ∀ s x, P s.1 → P (f s x).1) : P (l.foldl f s).1 := by
  induction l generalizing s with
  | nil => exact h
  | cons x l ih => exact ih (hf s x h)
theorem keeps_foldl_snd {P : State → Prop} {α β : Type} {f : β × State → α → β × State} {s : β × State} {l : List α} (h : P s.2)
    (hf : ∀ s x, P s.2 → P (f s x).2) : P (l.foldl f s).2 := by
  induction l generalizing s with
  | nil => exact h
  | cons x l ih => exact ih (hf s x h)

end Sys2Proof.Laws
end

