-- ==== Sys2Proof/Laws/Keeps1.lean ====
section
/-!
SUPPORT. What every operation keeps, part 1 of 5.
-/
set_option linter.all false

namespace Sys2Proof.Laws

open Sys2Proof Sys2Proof.Machine Sys2Proof.Safety

theorem keeps_execAonPowerUp {P : State → Prop} {straps : Straps} {s : State} (H : Keeps P 0x22000010) (h1 : P s) : ResAll P (execAonPowerUp
    straps s) := by
  have H1 : Keeps P 0x2000000 := H.mono rfl
  have H2 : Keeps P 0x10 := H.mono rfl
  have H3 : Keeps P 0x20000000 := H.mono rfl
  unfold execAonPowerUp
  with_reducible repeat' first
    | assumption | intro _ | refine res_next ?_ | refine keeps_upSm H1 ?_ | refine keeps_upAon H2 ?_ | refine keeps_allFresh H3 ?_ | split
    | dsimp only

theorem keeps_onAlways {P : State → Prop} {s : State} {f : State → State} (h0 : P s) (h1 : ∀ y1, P y1 → P (f y1)) : ResAll P (onAlways s f)
    := by
  unfold onAlways
  with_reducible repeat' first
    | assumption | intro _ | refine h1 _ ?_ | refine res_next ?_ | split | dsimp only

theorem keeps_execAonPowerOff {P : State → Prop} {s : State} (H : Keeps P 0x20000000) (h0 : P s) : ResAll P (execAonPowerOff s) := by
  unfold execAonPowerOff
  with_reducible repeat' first
    | assumption | intro _ | refine res_next ?_ | refine keeps_allFresh H ?_
    | refine res_get ‹_ = Host.Outcome.next _› (keeps_onAlways ?_ ?_) | refine keeps_onAlways ?_ ?_ | split | dsimp only

theorem keeps_mainDown {P : State → Prop} {s : State} {ph : MainPhase} {cause : Nat} (H : Keeps P 0x10000010) (h0 : P s) : P (State.mainDown
    s ph cause) := by
  have H1 : Keeps P 0x10 := H.mono rfl
  have H2 : Keeps P 0x10000000 := H.mono rfl
  unfold State.mainDown
  with_reducible repeat' first
    | assumption | intro _ | refine keeps_upAon H1 ?_ | refine keeps_mainFresh H2 ?_ | split | dsimp only

theorem keeps_railsOff {P : State → Prop} {s : State} {cause : Nat} (H : Keeps P 0x10000010) (h0 : P s) : P (State.railsOff s cause) := by
  unfold State.railsOff
  with_reducible repeat' first
    | assumption | intro _ | refine keeps_mainDown H ?_ | split | dsimp only

theorem keeps_execInputOutOfRange {P : State → Prop} {s : State} (H : Keeps P 0x10000010) (h0 : P s) : ResAll P (execInputOutOfRange s) :=
    by
  have H1 : Keeps P 0x10 := H.mono rfl
  unfold execInputOutOfRange
  with_reducible repeat' first
    | assumption | intro _ | refine res_next ?_ | refine keeps_upAon H1 ?_ | refine keeps_railsOff H ?_
    | refine res_get ‹_ = Host.Outcome.next _› (keeps_onAlways ?_ ?_) | refine keeps_onAlways ?_ ?_ | split | dsimp only

theorem keeps_spent {P : State → Prop} {s : State} (H : Keeps P 0x2) (h0 : P s) : P (State.spent s) := by
  unfold State.spent
  with_reducible repeat' first
    | assumption | intro _ | refine keeps_free H ?_ | split | dsimp only

theorem keeps_upVec {P : State → Prop} {s : State} {k : Nat} {f : CallVec → CallVec} (H : Keeps P 0x400000) (h0 : P s) : P (State.upVec s k
    f) := by
  unfold State.upVec
  with_reducible repeat' first
    | assumption | intro _ | refine keeps_upCall H ?_ | split | dsimp only

theorem keeps_enterTableau {P : State → Prop} {s : State} {cause : Nat} {trig : Nat} (H : Keeps P 0x110) (h0 : P s) : P (State.enterTableau
    s cause trig) := by
  have H1 : Keeps P 0x100 := H.mono rfl
  have H2 : Keeps P 0x10 := H.mono rfl
  unfold State.enterTableau
  with_reducible repeat' first
    | assumption | intro _ | refine keeps_upNet H1 ?_ | refine keeps_upAon H2 ?_ | split | dsimp only

theorem keeps_tracePut {P : State → Prop} {s : State} {r : Bytes} (H : Keeps P 0x4000110) (h0 : P s) : P (State.tracePut s r) := by
  have H1 : Keeps P 0x4000000 := H.mono rfl
  have H2 : Keeps P 0x110 := H.mono rfl
  unfold State.tracePut
  with_reducible repeat' first
    | assumption | intro _ | refine keeps_upObs H1 ?_ | refine keeps_enterTableau H2 ?_ | split | dsimp only

theorem keeps_traceTrigger {P : State → Prop} {s : State} {i : Nat} {r : Bytes} (H : Keeps P 0x4000110) (h0 : P s) : P (State.traceTrigger s
    i r) := by
  have H1 : Keeps P 0x4000000 := H.mono rfl
  have H2 : Keeps P 0x110 := H.mono rfl
  unfold State.traceTrigger
  with_reducible repeat' first
    | assumption | intro _ | refine keeps_upObs H1 ?_ | refine keeps_tracePut H ?_ | refine keeps_enterTableau H2 ?_ | split | dsimp only

theorem keeps_ao {P : State → Prop} {s : State} {n : Nat} {k : Nat} (H : Keeps P 0x4000000) (h0 : P s) : P (State.ao s n k) := by
  unfold State.ao
  with_reducible repeat' first
    | assumption | intro _ | refine keeps_upObs H ?_ | split | dsimp only

theorem keeps_traceDrop {P : State → Prop} {s : State} (H : Keeps P 0x4000000) (h0 : P s) : P (State.traceDrop s) := by
  unfold State.traceDrop
  with_reducible repeat' first
    | assumption | intro _ | refine keeps_upObs H ?_ | refine keeps_ao H ?_ | split | dsimp only

theorem keeps_traceJudge {P : State → Prop} {s : State} {unit : Nat} {code : Nat} {fn : Nat} {d0 : Nat} {d1 : Nat} {sat : TTrig → Bool} (H :
    Keeps P 0x4000110) (h0 : P s) : P (State.traceJudge s unit code fn d0 d1 sat) := by
  have H1 : Keeps P 0x4000000 := H.mono rfl
  unfold State.traceJudge
  with_reducible repeat' first
    | assumption | intro _ | refine keeps_traceDrop H1 ?_ | refine keeps_traceTrigger H ?_ | refine keeps_tracePut H ?_ | split
    | dsimp only

theorem keeps_trace {P : State → Prop} {s : State} {unit : Nat} {code : Nat} {fn : Nat} {d0 : Nat} {d1 : Nat} (H : Keeps P 0x4000110) (h0 :
    P s) : P (State.trace s unit code fn d0 d1) := by
  unfold State.trace
  with_reducible repeat' first
    | assumption | intro _ | refine keeps_traceJudge H ?_ | split | dsimp only

theorem keeps_emit {P : State → Prop} {s : State} {k : OutKind} {a : Nat} {b : Nat} {c : Nat} {bs : Bytes} (H : Keeps P 0x1) (h0 : P s) : P
    (State.emit s k a b c bs) := by
  unfold State.emit
  with_reducible repeat' first
    | assumption | intro _ | refine keeps_out H ?_ | split | dsimp only

theorem keeps_sendMsg {P : State → Prop} {s : State} {k : Nat} (H : Keeps P 0x4400111) (h0 : P s) : P (State.sendMsg s k) := by
  have H1 : Keeps P 0x1 := H.mono rfl
  have H2 : Keeps P 0x4000110 := H.mono rfl
  have H3 : Keeps P 0x4000000 := H.mono rfl
  have H4 : Keeps P 0x400000 := H.mono rfl
  unfold State.sendMsg
  with_reducible repeat' first
    | assumption | intro _ | refine keeps_emit H1 ?_ | refine keeps_trace H2 ?_ | refine keeps_ao H3 ?_ | refine keeps_upVec H4 ?_ | split
    | dsimp only

theorem keeps_tell1 {P : State → Prop} {s : State} {t : CallTarget} {at_ : Bool} (H : Keeps P 0x4400111) (h0 : P s) : P (State.tell1 s t
    at_) := by
  unfold State.tell1
  with_reducible repeat' first
    | assumption | intro _ | refine keeps_sendMsg H ?_ | split | dsimp only

theorem keeps_newlyEligible {P : State → Prop} {s : State} {t : CallTarget} (H : Keeps P 0x4400111) (h0 : P s) : P (State.newlyEligible s t)
    := by
  have H1 : Keeps P 0x400000 := H.mono rfl
  unfold State.newlyEligible
  with_reducible repeat' first
    | assumption | intro _ | refine keeps_tell1 H ?_ | refine keeps_upVec H1 ?_ | split | dsimp only

theorem keeps_withObs {P : State → Prop} {s : State} {f : State → State} (H : Keeps P 0x4400111) (h0 : P s) (h1 : ∀ y1, P y1 → P (f y1)) : P
    (State.withObs s f) := by
  unfold State.withObs
  with_reducible repeat' first
    | assumption | intro _ | refine h1 _ ?_ | refine keeps_newlyEligible H ?_ | split | dsimp only

theorem keeps_traceErr {P : State → Prop} {s : State} {unit : Nat} {code : Nat} {fn : Nat} {op : Nat} (H : Keeps P 0x4000110) (h0 : P s) : P
    (State.traceErr s unit code fn op) := by
  unfold State.traceErr
  with_reducible repeat' first
    | assumption | intro _ | refine keeps_traceJudge H ?_ | split | dsimp only

theorem keeps_fnCtr {P : State → Prop} {s : State} {fn : Nat} {n : Nat} {k : Nat} (H : Keeps P 0x4000000) (h0 : P s) : P (State.fnCtr s fn n
    k) := by
  unfold State.fnCtr
  with_reducible repeat' first
    | assumption | intro _ | refine keeps_upObs H ?_ | split | dsimp only

theorem keeps_bumpSeq {P : State → Prop} {s : State} {fn : Nat} (H : Keeps P 0x40000) (h0 : P s) : P (State.bumpSeq s fn) := by
  unfold State.bumpSeq
  with_reducible repeat' first
    | assumption | intro _ | refine keeps_upRas H ?_ | split | dsimp only

theorem keeps_smLog {P : State → Prop} {s : State} {r : Bytes} (H : Keeps P 0x3000000) (h0 : P s) : P (State.smLog s r) := by
  have H1 : Keeps P 0x2000000 := H.mono rfl
  have H2 : Keeps P 0x1000000 := H.mono rfl
  unfold State.smLog
  with_reducible repeat' first
    | assumption | intro _ | refine keeps_upSm H1 ?_ | refine keeps_upFlash H2 ?_ | split | dsimp only

theorem keeps_hostWrite {P : State → Prop} {s : State} {fn : Nat} {a : Nat} {b : Bytes} (H : Keeps P 0x4800001) (h0 : P s) : P
    (State.hostWrite s fn a b) := by
  have H1 : Keeps P 0x800000 := H.mono rfl
  have H2 : Keeps P 0x4000000 := H.mono rfl
  have H3 : Keeps P 0x1 := H.mono rfl
  unfold State.hostWrite
  with_reducible repeat' first
    | assumption | intro _ | refine keeps_foldl ?_ ?_ | refine keeps_upHost H1 ?_ | refine keeps_fnCtr H2 ?_ | refine keeps_emit H3 ?_
    | refine keeps_ao H2 ?_ | split | dsimp only

theorem keeps_watchVec {P : State → Prop} {s : State} {k : Nat} {f : CallVec → CallVec} (H : Keeps P 0x4400111) (h0 : P s) : P
    (State.watchVec s k f) := by
  have H1 : Keeps P 0x400000 := H.mono rfl
  unfold State.watchVec
  with_reducible repeat' first
    | assumption | intro _ | refine keeps_withObs H ?_ ?_ | refine keeps_newlyEligible H ?_ | refine keeps_upVec H1 ?_ | split | dsimp only

theorem keeps_vecEvent {P : State → Prop} {s : State} {fn : Nat} {v : Nat} (H : Keeps P 0x4400111) (h0 : P s) : P (State.vecEvent s fn v) :=
    by
  unfold State.vecEvent
  with_reducible repeat' first
    | assumption | intro _ | refine keeps_watchVec H ?_ | split | dsimp only

theorem keeps_tenantRec {P : State → Prop} {s : State} {r : RecBody} {count : Nat} {fn : Nat} {flags : Nat} (H : Keeps P 0x7c40111) (h0 : P
    s) : P (State.tenantRec s r count fn flags) := by
  have H1 : Keeps P 0x40000 := H.mono rfl
  have H2 : Keeps P 0x4400111 := H.mono rfl
  have H3 : Keeps P 0x4800001 := H.mono rfl
  have H4 : Keeps P 0x3000000 := H.mono rfl
  have H5 : Keeps P 0x4000000 := H.mono rfl
  unfold State.tenantRec
  with_reducible repeat' first
    | assumption | intro _ | refine keeps_upRas H1 ?_ | refine keeps_vecEvent H2 ?_ | refine keeps_hostWrite H3 ?_
    | refine keeps_smLog H4 ?_ | refine keeps_bumpSeq H1 ?_ | refine keeps_fnCtr H5 ?_ | refine keeps_ao H5 ?_ | split | dsimp only

theorem keeps_watch {P : State → Prop} {s : State} {n : Nat} {f : State → State} (H : Keeps P 0x4400111) (h0 : P s) (h2 : ∀ y1, P y1 → P (f
    y1)) : P (State.watch s n f) := by
  unfold State.watch
  with_reducible repeat' first
    | assumption | intro _ | refine h2 _ ?_ | refine keeps_withObs H ?_ ?_ | refine keeps_newlyEligible H ?_ | split | dsimp only

theorem keeps_note {P : State → Prop} {s : State} {unit : Nat} {code : Nat} {fn : Nat} {d0 : Nat} {d1 : Nat} (H : Keeps P 0x4400111) (h0 : P
    s) : P (State.note s unit code fn d0 d1) := by
  have H1 : Keeps P 0x4000110 := H.mono rfl
  unfold State.note
  with_reducible repeat' first
    | assumption | intro _ | refine keeps_withObs H ?_ ?_ | refine keeps_trace H1 ?_ | split | dsimp only

theorem keeps_flag {P : State → Prop} {s : State} {n : Nat} {off : Nat} {b : Nat} {f : State → State} (H : Keeps P 0x4400111) (h0 : P s) (h4
    : ∀ y1, P y1 → P (f y1)) : P (State.flag s n off b f) := by
  unfold State.flag
  with_reducible repeat' first
    | assumption | intro _ | refine h4 _ ?_ | refine keeps_note H ?_ | refine keeps_watch H ?_ ?_ | split | dsimp only

theorem keeps_smHealth {P : State → Prop} {s : State} {r : Bytes} (H : Keeps P 0x3000001) (h0 : P s) : P (State.smHealth s r) := by
  have H1 : Keeps P 0x2000000 := H.mono rfl
  have H2 : Keeps P 0x3000000 := H.mono rfl
  have H3 : Keeps P 0x1 := H.mono rfl
  unfold State.smHealth
  with_reducible repeat' first
    | assumption | intro _ | refine keeps_upSm H1 ?_ | refine keeps_smLog H2 ?_ | refine keeps_emit H3 ?_ | split | dsimp only

theorem keeps_toHealth {P : State → Prop} {s : State} {r : Bytes} (H : Keeps P 0x7440111) (h0 : P s) : P (State.toHealth s r) := by
  have H1 : Keeps P 0x40000 := H.mono rfl
  have H2 : Keeps P 0x2000000 := H.mono rfl
  have H3 : Keeps P 0x3000001 := H.mono rfl
  have H4 : Keeps P 0x4400111 := H.mono rfl
  unfold State.toHealth
  with_reducible repeat' first
    | assumption | intro _ | refine keeps_upRas H1 ?_ | refine keeps_upSm H2 ?_ | refine keeps_smHealth H3 ?_ | refine keeps_flag H4 ?_ ?_
    | split | dsimp only

theorem keeps_putRec {P : State → Prop} {s : State} {r : RecBody} {route : RecRoute} {count : Nat} {coal : Bool} (H : Keeps P 0x7c40111) (h0
    : P s) : P (State.putRec s r route count coal) := by
  have H1 : Keeps P 0x7440111 := H.mono rfl
  have H2 : Keeps P 0x40000 := H.mono rfl
  have H3 : Keeps P 0x4000110 := H.mono rfl
  have H4 : Keeps P 0x4400111 := H.mono rfl
  have H5 : Keeps P 0x4000000 := H.mono rfl
  unfold State.putRec
  with_reducible repeat' first
    | assumption | intro _ | refine keeps_foldl ?_ ?_ | refine keeps_toHealth H1 ?_ | refine keeps_tenantRec H ?_
    | refine keeps_bumpSeq H2 ?_ | refine keeps_traceErr H3 ?_ | refine keeps_withObs H4 ?_ ?_ | refine keeps_ao H5 ?_ | split | dsimp only

theorem keeps_endCoal {P : State → Prop} {s : State} {c : Coal} (H : Keeps P 0x7c40111) (h0 : P s) : P (State.endCoal s c) := by
  have H1 : Keeps P 0x40000 := H.mono rfl
  unfold State.endCoal
  with_reducible repeat' first
    | assumption | intro _ | refine keeps_upRas H1 ?_ | refine keeps_putRec H ?_ | split | dsimp only

theorem keeps_record {P : State → Prop} {s : State} {unit : Nat} {code : Nat} {op : Nat} {detail : Nat} {addr : Nat} {route : RecRoute} (H :
    Keeps P 0x7c40113) (h0 : P s) : P (State.record s unit code op detail addr route) := by
  have H1 : Keeps P 0x40000 := H.mono rfl
  have H2 : Keeps P 0x7c40111 := H.mono rfl
  have H3 : Keeps P 0x2 := H.mono rfl
  unfold State.record
  with_reducible repeat' first
    | assumption | intro _ | refine keeps_foldl ?_ ?_ | refine keeps_upRas H1 ?_ | refine keeps_endCoal H2 ?_ | refine keeps_putRec H2 ?_
    | refine keeps_spent H3 ?_ | split | dsimp only

theorem keeps_declare {P : State → Prop} {s : State} (H : Keeps P 0xfc40113) (h0 : P s) : P (State.declare s) := by
  have H1 : Keeps P 0x8000000 := H.mono rfl
  have H2 : Keeps P 0x2000000 := H.mono rfl
  have H3 : Keeps P 0x7c40113 := H.mono rfl
  unfold State.declare
  with_reducible repeat' first
    | assumption | intro _ | refine keeps_upPwr H1 ?_ | refine keeps_upSm H2 ?_ | refine keeps_record H3 ?_ | split | dsimp only

theorem keeps_charge {P : State → Prop} {s : State} {unit : Nat} {cause : ErrCause} {op : Nat} {detail : Nat} {addr : Nat} (H : Keeps P
    0x40000) (h0 : P s) : P (State.charge s unit cause op detail addr) := by
  unfold State.charge
  with_reducible repeat' first
    | assumption | intro _ | refine keeps_upRas H ?_ | split | dsimp only

theorem keeps_applyHeld {P : State → Prop} {s : State} {core : Nat} (H : Keeps P 0x42000) (h0 : P s) : P (State.applyHeld s core) := by
  have H1 : Keeps P 0x2000 := H.mono rfl
  have H2 : Keeps P 0x40000 := H.mono rfl
  unfold State.applyHeld
  with_reducible repeat' first
    | assumption | intro _ | refine keeps_foldl ?_ ?_ | refine keeps_upTap H1 ?_ | refine keeps_charge H2 ?_ | split | dsimp only

theorem keeps_upTapQueue {P : State → Prop} {s : State} {q : Nat} {f : TapQueue → TapQueue} (H : Keeps P 0x2000) (h0 : P s) : P
    (State.upTapQueue s q f) := by
  unfold State.upTapQueue
  with_reducible repeat' first
    | assumption | intro _ | refine keeps_upTap H ?_ | split | dsimp only

theorem keeps_queueDrop {P : State → Prop} {s : State} {q : Nat} {n : Nat} (H : Keeps P 0x2000) (h0 : P s) : P (State.queueDrop s q n) := by
  unfold State.queueDrop
  with_reducible repeat' first
    | assumption | intro _ | refine keeps_upTapQueue H ?_ | split | dsimp only

theorem keeps_upStream {P : State → Prop} {s : State} {n : Nat} {f : Stream → Stream} (H : Keeps P 0x1000) (h0 : P s) : P (State.upStream s
    n f) := by
  unfold State.upStream
  with_reducible repeat' first
    | assumption | intro _ | refine keeps_upShu H ?_ | split | dsimp only

theorem keeps_upStreamX {P : State → Prop} {s : State} {n : Nat} {f : StreamX → StreamX} (H : Keeps P 0x1000) (h0 : P s) : P
    (State.upStreamX s n f) := by
  unfold State.upStreamX
  with_reducible repeat' first
    | assumption | intro _ | refine keeps_upShu H ?_ | split | dsimp only

theorem keeps_shuCount {P : State → Prop} {s : State} {n : Nat} {x : ShuPic} (H : Keeps P 0x4001000) (h0 : P s) : P (State.shuCount s n x)
    := by
  have H1 : Keeps P 0x1000 := H.mono rfl
  have H2 : Keeps P 0x4000000 := H.mono rfl
  unfold State.shuCount
  with_reducible repeat' first
    | assumption | intro _ | refine keeps_upShu H1 ?_ | refine keeps_upStreamX H1 ?_ | refine keeps_ao H2 ?_ | split | dsimp only

theorem keeps_shuFail {P : State → Prop} {s : State} {n : Nat} {reason : Nat} (H : Keeps P 0x7c41113) (h0 : P s) : P (State.shuFail s n
    reason) := by
  have H1 : Keeps P 0x1000 := H.mono rfl
  have H2 : Keeps P 0x7c40113 := H.mono rfl
  unfold State.shuFail
  with_reducible repeat' first
    | assumption | intro _ | refine keeps_upStream H1 ?_ | refine keeps_record H2 ?_ | split | dsimp only

theorem keeps_gWrite {P : State → Prop} {s : State} {a : Nat} {b : Bytes} (H : Keeps P 0x4800004) (h0 : P s) : P (State.gWrite s a b) := by
  have H1 : Keeps P 0x800000 := H.mono rfl
  have H2 : Keeps P 0x4 := H.mono rfl
  have H3 : Keeps P 0x4000000 := H.mono rfl
  unfold State.gWrite
  with_reducible repeat' first
    | assumption | intro _ | refine keeps_upHost H1 ?_ | refine keeps_put H2 ?_ | refine keeps_clear H2 ?_ | refine keeps_ao H3 ?_ | split
    | dsimp only

theorem keeps_shuVisible {P : State → Prop} {s : State} {n : Nat} {seq : Nat} {x : Stream} (H : Keeps P 0x4402111) (h0 : P s) : P
    (State.shuVisible s n seq x) := by
  have H1 : Keeps P 0x2000 := H.mono rfl
  have H2 : Keeps P 0x4400111 := H.mono rfl
  unfold State.shuVisible
  with_reducible repeat' first
    | assumption | intro _ | refine keeps_upTap H1 ?_ | refine keeps_vecEvent H2 ?_ | split | dsimp only

theorem keeps_shuWrite {P : State → Prop} {a : Nat} {x1 : State} {x2 : Nat} (H : Keeps P 0x4c03115) (h1 : P x1) : P (State.shuWrite a x1 x2)
    := by
  have H1 : Keeps P 0x4402111 := H.mono rfl
  have H2 : Keeps P 0x4800004 := H.mono rfl
  have H3 : Keeps P 0x1000 := H.mono rfl
  induction a generalizing x1 x2 with
  | zero =>
    unfold State.shuWrite
    with_reducible repeat' first
      | assumption | intro _ | refine keeps_shuVisible H1 ?_ | refine keeps_gWrite H2 ?_ | refine keeps_upStreamX H3 ?_
      | refine keeps_upStream H3 ?_ | split | dsimp only
  | succ _ ih =>
    unfold State.shuWrite
    with_reducible repeat' first
      | assumption | intro _ | refine ih ?_ | refine keeps_shuVisible H1 ?_ | refine keeps_gWrite H2 ?_ | refine keeps_upStreamX H3 ?_
      | refine keeps_upStream H3 ?_ | split | dsimp only

theorem keeps_shuPush {P : State → Prop} {s : State} {n : Nat} {r : ShuPend} (H : Keeps P 0x7c43117) (h0 : P s) : P (State.shuPush s n r) :=
    by
  have H1 : Keeps P 0x4c03115 := H.mono rfl
  have H2 : Keeps P 0x7c41113 := H.mono rfl
  have H3 : Keeps P 0x1000 := H.mono rfl
  unfold State.shuPush
  with_reducible repeat' first
    | assumption | intro _ | refine keeps_shuWrite H1 ?_ | refine keeps_shuFail H2 ?_ | refine keeps_upStreamX H3 ?_ | split | dsimp only

theorem keeps_shuFlushField {P : State → Prop} {s : State} {n : Nat} {interlace : Nat} (H : Keeps P 0x7c43117) (h0 : P s) : P
    (State.shuFlushField s n interlace) := by
  have H1 : Keeps P 0x1000 := H.mono rfl
  unfold State.shuFlushField
  with_reducible repeat' first
    | assumption | intro _ | refine keeps_shuPush H ?_ | refine keeps_upStreamX H1 ?_ | split | dsimp only

theorem keeps_shuOutput {P : State → Prop} {s : State} {n : Nat} {x : ShuPic} (H : Keeps P 0x7c43117) (h0 : P s) : P (State.shuOutput s n x)
    := by
  have H1 : Keeps P 0x4001000 := H.mono rfl
  have H2 : Keeps P 0x1000 := H.mono rfl
  unfold State.shuOutput
  with_reducible repeat' first
    | assumption | intro _ | refine keeps_foldl ?_ ?_ | refine opt_foldl ?_ ?_ | refine keeps_shuFlushField H ?_
    | refine keeps_shuPush H ?_ | refine keeps_shuCount H1 ?_ | refine keeps_upStreamX H2 ?_ | split | dsimp only

theorem keeps_shuTurn {P : State → Prop} {a : Nat} {x1 : State} {x2 : Nat} (H : Keeps P 0x7c43117) (h1 : P x1) : P (State.shuTurn a x1 x2)
    := by
  have H1 : Keeps P 0x1000 := H.mono rfl
  induction a generalizing x1 x2 with
  | zero =>
    unfold State.shuTurn
    with_reducible repeat' first
      | assumption | intro _ | exact opt_none | refine opt_some ?_ | refine opt_map2 (P := P) ?_ ?_ | refine opt_map ?_
      | refine opt_ite ?_ ?_ | refine keeps_shuOutput H ?_ | refine keeps_upStreamX H1 ?_ | split | dsimp only
  | succ _ ih =>
    unfold State.shuTurn
    with_reducible repeat' first
      | assumption | intro _ | refine ih ?_ | exact opt_none | refine opt_some ?_ | refine opt_map2 (P := P) ?_ ?_ | refine opt_map ?_
      | refine opt_ite ?_ ?_ | refine keeps_shuOutput H ?_ | refine keeps_upStreamX H1 ?_ | split | dsimp only

theorem keeps_shuFlush {P : State → Prop} {s : State} {n : Nat} (H : Keeps P 0x7c43117) (h0 : P s) : P (State.shuFlush s n) := by
  unfold State.shuFlush
  with_reducible repeat' first
    | assumption | intro _ | refine keeps_shuTurn H ?_ | refine keeps_shuFlushField H ?_ | split | dsimp only

theorem keeps_shuSettle {P : State → Prop} {s : State} {n : Nat} (H : Keeps P 0x1000) (h0 : P s) : P (State.shuSettle s n) := by
  unfold State.shuSettle
  with_reducible repeat' first
    | assumption | intro _ | exact opt_none | refine opt_some ?_ | refine opt_map2 (P := P) ?_ ?_ | refine opt_map ?_
    | refine opt_ite ?_ ?_ | refine keeps_upStream H ?_ | split | dsimp only

theorem keeps_shuFinish {P : State → Prop} {s : State} {n : Nat} (H : Keeps P 0x7c43117) (h0 : P s) : P (State.shuFinish s n) := by
  have H1 : Keeps P 0x1000 := H.mono rfl
  have H2 : Keeps P 0x4c03115 := H.mono rfl
  unfold State.shuFinish
  with_reducible repeat' first
    | assumption | intro _ | refine keeps_shuSettle H1 ?_ | refine keeps_shuFlush H ?_ | refine keeps_shuWrite H2 ?_ | split | dsimp only

theorem keeps_recReturn {P : State → Prop} {s : State} {k : Nat × Nat} (H : Keeps P 0x7c43117) (h0 : P s) : P (State.recReturn s k) := by
  have H1 : Keeps P 0x1000 := H.mono rfl
  unfold State.recReturn
  with_reducible repeat' first
    | assumption | intro _ | refine keeps_shuFinish H ?_ | refine keeps_upStream H1 ?_ | split | dsimp only

theorem keeps_queueSift {P : State → Prop} {s : State} {q : Nat} (H : Keeps P 0x7c43117) (h0 : P s) : P (State.queueSift s q) := by
  have H1 : Keeps P 0x2000 := H.mono rfl
  unfold State.queueSift
  with_reducible repeat' first
    | assumption | intro _ | refine keeps_foldl ?_ ?_ | refine keeps_foldl_fst ?_ ?_ | refine keeps_foldl_snd ?_ ?_
    | refine keeps_recReturn H ?_ | refine keeps_queueDrop H1 ?_ | refine keeps_upTapQueue H1 ?_ | split | dsimp only

theorem keeps_queueRun {P : State → Prop} {s : State} {q : Nat} {n : Nat} (H : Keeps P 0x2000) (h0 : P s) : P (State.queueRun s q n) := by
  unfold State.queueRun
  with_reducible repeat' first
    | assumption | intro _ | refine keeps_upTap H ?_ | refine keeps_upTapQueue H ?_ | split | dsimp only

theorem keeps_queueKick {P : State → Prop} {a : Nat} {x1 : State} {x2 : Nat} (H : Keeps P 0x7c43117) (h1 : P x1) : P (State.queueKick a x1
    x2) := by
  have H1 : Keeps P 0x2000 := H.mono rfl
  induction a generalizing x1 x2 with
  | zero =>
    unfold State.queueKick
    with_reducible repeat' first
      | assumption | intro _ | refine keeps_queueRun H1 ?_ | refine keeps_queueSift H ?_ | split | dsimp only
  | succ _ ih =>
    unfold State.queueKick
    with_reducible repeat' first
      | assumption | intro _ | refine ih ?_ | refine keeps_queueRun H1 ?_ | refine keeps_queueSift H ?_ | split | dsimp only

theorem keeps_upRun {P : State → Prop} {s : State} {id : Nat} {f : TapRun → TapRun} (H : Keeps P 0x2000) (h0 : P s) : P (State.upRun s id f)
    := by
  unfold State.upRun
  with_reducible repeat' first
    | assumption | intro _ | refine keeps_upTap H ?_ | split | dsimp only

theorem keeps_cutUnits {P : State → Prop} {s : State} {r : TapRun} {us : List Nat} (H : Keeps P 0x7c43117) (h0 : P s) : P (State.cutUnits s
    r us) := by
  have H1 : Keeps P 0x2000 := H.mono rfl
  unfold State.cutUnits
  with_reducible repeat' first
    | assumption | intro _ | refine keeps_foldl ?_ ?_ | refine keeps_upRun H1 ?_ | refine keeps_recReturn H ?_
    | refine keeps_queueDrop H1 ?_ | split | dsimp only

theorem keeps_writeReports {P : State → Prop} {s : State} {fn : Nat} {addr : Nat} {b : Image} {reps : List (Nat × ChkRep)} {below : Nat} (H
    : Keeps P 0x4800001) (h0 : P s) : P (State.writeReports s fn addr b reps below) := by
  unfold State.writeReports
  with_reducible repeat' first
    | assumption | intro _ | refine keeps_hostWrite H ?_ | split | dsimp only

theorem keeps_snapEnd {P : State → Prop} {s : State} {h : Hdr} {opcode : Nat} {e : Nat × Nat × Nat} {tap : Bytes} (H : Keeps P 0x4800001)
    (h0 : P s) : P (State.snapEnd s h opcode e tap) := by
  unfold State.snapEnd
  with_reducible repeat' first
    | assumption | intro _ | refine keeps_hostWrite H ?_ | split | dsimp only

theorem keeps_upQp {P : State → Prop} {s : State} {k : Nat} {f : QPair → QPair} (H : Keeps P 0x40) (h0 : P s) : P (State.upQp s k f) := by
  unfold State.upQp
  with_reducible repeat' first
    | assumption | intro _ | refine keeps_upCmd H ?_ | split | dsimp only

theorem keeps_upFn {P : State → Prop} {s : State} {fn : Nat} {f : FnCmd → FnCmd} (H : Keeps P 0x40) (h0 : P s) : P (State.upFn s fn f) := by
  unfold State.upFn
  with_reducible repeat' first
    | assumption | intro _ | refine keeps_upCmd H ?_ | split | dsimp only

theorem keeps_qpError {P : State → Prop} {s : State} {fn : Nat} {qp : Nat} {reason : Nat} (H : Keeps P 0x4400151) (h0 : P s) : P
    (State.qpError s fn qp reason) := by
  have H1 : Keeps P 0x40 := H.mono rfl
  have H2 : Keeps P 0x4400111 := H.mono rfl
  unfold State.qpError
  with_reducible repeat' first
    | assumption | intro _ | refine keeps_upFn H1 ?_ | refine keeps_upQp H1 ?_ | refine keeps_flag H2 ?_ ?_ | split | dsimp only

theorem keeps_upQpn {P : State → Prop} {s : State} {qpn : Nat} {f : Qp → Qp} (H : Keeps P 0x100) (h0 : P s) : P (State.upQpn s qpn f) := by
  unfold State.upQpn
  with_reducible repeat' first
    | assumption | intro _ | refine keeps_upNet H ?_ | split | dsimp only

theorem keeps_traceOther {P : State → Prop} {s : State} {sat : TTrig → Bool} (H : Keeps P 0x4000112) (h0 : P s) : P (State.traceOther s sat)
    := by
  have H1 : Keeps P 0x4000110 := H.mono rfl
  have H2 : Keeps P 0x2 := H.mono rfl
  unfold State.traceOther
  with_reducible repeat' first
    | assumption | intro _ | refine keeps_traceJudge H1 ?_ | refine keeps_spent H2 ?_ | split | dsimp only

theorem keeps_gctr {P : State → Prop} {s : State} {event : Nat} {unit : Nat} {k : Nat} (H : Keeps P 0x4000112) (h0 : P s) : P (State.gctr s
    event unit k) := by
  have H1 : Keeps P 0x4000000 := H.mono rfl
  unfold State.gctr
  with_reducible repeat' first
    | assumption | intro _ | refine keeps_upObs H1 ?_ | refine keeps_traceOther H ?_ | split | dsimp only

theorem keeps_ctxUse {P : State → Prop} {s : State} {k : Nat} (H : Keeps P 0x4400513) (h0 : P s) : P (State.ctxUse s k) := by
  have H1 : Keeps P 0x400 := H.mono rfl
  have H2 : Keeps P 0x4000112 := H.mono rfl
  have H3 : Keeps P 0x4400111 := H.mono rfl
  unfold State.ctxUse
  with_reducible repeat' first
    | assumption | intro _ | refine keeps_upCtx H1 ?_ | refine keeps_gctr H2 ?_ | refine keeps_withObs H3 ?_ ?_ | split | dsimp only

theorem keeps_ctxUses {P : State → Prop} {s : State} {l : List Nat} (H : Keeps P 0x4400513) (h0 : P s) : P (State.ctxUses s l) := by
  unfold State.ctxUses
  with_reducible repeat' first
    | assumption | intro _ | refine keeps_foldl ?_ ?_ | refine keeps_ctxUse H ?_ | split | dsimp only

theorem keeps_qpPacket {P : State → Prop} {s : State} {qpn : Nat} {psn : Nat} {opcode : Nat} {path : Nat} {ext : Nat} {b : Bytes} (H : Keeps
    P 0x4400513) (h0 : P s) : P (State.qpPacket s qpn psn opcode path ext b) := by
  have H1 : Keeps P 0x100 := H.mono rfl
  have H2 : Keeps P 0x1 := H.mono rfl
  have H3 : Keeps P 0x4000000 := H.mono rfl
  unfold State.qpPacket
  with_reducible repeat' first
    | assumption | intro _ | refine keeps_upNet H1 ?_ | refine keeps_ctxUses H ?_ | refine keeps_emit H2 ?_ | refine keeps_ao H3 ?_ | split
    | dsimp only

theorem keeps_sendPacket {P : State → Prop} {s : State} {qpn : Nat} {m : TxMsg} {i : Nat} (H : Keeps P 0x4400513) (h0 : P s) : P
    (State.sendPacket s qpn m i) := by
  have H1 : Keeps P 0x100 := H.mono rfl
  unfold State.sendPacket
  with_reducible repeat' first
    | assumption | intro _ | refine keeps_qpPacket H ?_ | refine keeps_upQpn H1 ?_ | split | dsimp only

theorem keeps_sendMsgOut {P : State → Prop} {s : State} {qpn : Nat} {m : TxMsg} (H : Keeps P 0x4400513) (h0 : P s) : P (State.sendMsgOut s
    qpn m) := by
  have H1 : Keeps P 0x100 := H.mono rfl
  unfold State.sendMsgOut
  with_reducible repeat' first
    | assumption | intro _ | refine keeps_foldl ?_ ?_ | refine keeps_sendPacket H ?_ | refine keeps_upQpn H1 ?_ | split | dsimp only

theorem keeps_qpKick {P : State → Prop} {a : Nat} {x1 : State} {x2 : Nat} (H : Keeps P 0x4400513) (h1 : P x1) : P (State.qpKick a x1 x2) :=
    by
  have H1 : Keeps P 0x100 := H.mono rfl
  induction a generalizing x1 x2 with
  | zero =>
    unfold State.qpKick
    with_reducible repeat' first
      | assumption | intro _ | refine keeps_sendMsgOut H ?_ | refine keeps_upQpn H1 ?_ | split | dsimp only
  | succ _ ih =>
    unfold State.qpKick
    with_reducible repeat' first
      | assumption | intro _ | refine ih ?_ | refine keeps_sendMsgOut H ?_ | refine keeps_upQpn H1 ?_ | split | dsimp only

theorem keeps_qpSend {P : State → Prop} {s : State} {qpn : Nat} {m : TxMsg} (H : Keeps P 0x4400513) (h0 : P s) : P (State.qpSend s qpn m) :=
    by
  have H1 : Keeps P 0x100 := H.mono rfl
  unfold State.qpSend
  with_reducible repeat' first
    | assumption | intro _ | refine keeps_qpKick H ?_ | refine keeps_upQpn H1 ?_ | split | dsimp only

theorem keeps_qpWrite {P : State → Prop} {s : State} {qpn : Nat} {op : TxOp} {addr : Nat} {rkey : Nat} {b : Bytes} {fenced : Bool} (H :
    Keeps P 0x4400513) (h0 : P s) : P (State.qpWrite s qpn op addr rkey b fenced) := by
  unfold State.qpWrite
  with_reducible repeat' first
    | assumption | intro _ | refine keeps_qpSend H ?_ | split | dsimp only

theorem keeps_State_mboxWrite {P : State → Prop} {s : State} {m : Member} {op : TxOp} {base : Nat} {size : Nat} {entries : Nat} {seq : Nat}
    {body : Bytes} (H : Keeps P 0x4400513) (h0 : P s) : P (State.mboxWrite s m op base size entries seq body) := by
  unfold State.mboxWrite
  with_reducible repeat' first
    | assumption | intro _ | refine keeps_qpWrite H ?_ | split | dsimp only

theorem keeps_upMember {P : State → Prop} {s : State} {id : Nat} {f : Member → Member} (H : Keeps P 0x100) (h0 : P s) : P (State.upMember s
    id f) := by
  unfold State.upMember
  with_reducible repeat' first
    | assumption | intro _ | refine keeps_upNet H ?_ | split | dsimp only

theorem keeps_putReply {P : State → Prop} {s : State} {h : Hdr} {opcode : Nat} {r : Rep} (H : Keeps P 0x6c00553) (h0 : P s) : P
    (State.putReply s h opcode r) := by
  have H1 : Keeps P 0x2000000 := H.mono rfl
  have H2 : Keeps P 0x100 := H.mono rfl
  have H3 : Keeps P 0x4400513 := H.mono rfl
  have H4 : Keeps P 0x4400151 := H.mono rfl
  have H5 : Keeps P 0x40 := H.mono rfl
  have H6 : Keeps P 0x4400111 := H.mono rfl
  have H7 : Keeps P 0x4800001 := H.mono rfl
  have H8 : Keeps P 0x4000000 := H.mono rfl
  have H9 : Keeps P 0x1 := H.mono rfl
  unfold State.putReply
  with_reducible repeat' first
    | assumption | intro _ | refine keeps_upSm H1 ?_ | refine keeps_upMember H2 ?_ | refine keeps_State_mboxWrite H3 ?_
    | refine keeps_qpError H4 ?_ | refine keeps_upQp H5 ?_ | refine keeps_note H6 ?_ | refine keeps_vecEvent H6 ?_
    | refine keeps_hostWrite H7 ?_ | refine keeps_fnCtr H8 ?_ | refine keeps_emit H9 ?_ | refine keeps_ao H8 ?_ | split | dsimp only

theorem keeps_settleDeletes {P : State → Prop} {a : Nat} {x1 : State} (H : Keeps P 0x6c00553) (h1 : P x1) : P (State.settleDeletes a x1) :=
    by
  have H1 : Keeps P 0x40 := H.mono rfl
  induction a generalizing x1 with
  | zero =>
    unfold State.settleDeletes
    with_reducible repeat' first
      | assumption | intro _ | refine keeps_upCmd H1 ?_ | refine keeps_putReply H ?_ | split | dsimp only
  | succ _ ih =>
    unfold State.settleDeletes
    with_reducible repeat' first
      | assumption | intro _ | refine ih ?_ | refine keeps_upCmd H1 ?_ | refine keeps_putReply H ?_ | split | dsimp only

theorem keeps_reply {P : State → Prop} {s : State} {h : Hdr} {opcode : Nat} {r : Rep} (H : Keeps P 0x6c00553) (h0 : P s) : P (State.reply s
    h opcode r) := by
  unfold State.reply
  with_reducible repeat' first
    | assumption | intro _ | refine keeps_settleDeletes H ?_ | refine keeps_putReply H ?_ | split | dsimp only

theorem keeps_finish {P : State → Prop} {s : State} {w : WaitCmd} {status : Nat} {detail : Nat} {result : Nat} {st : Nat} (H : Keeps P
    0x6c00553) (h0 : P s) : P (State.finish s w status detail result st) := by
  have H1 : Keeps P 0x40 := H.mono rfl
  have H2 : Keeps P 0x4800001 := H.mono rfl
  unfold State.finish
  with_reducible repeat' first
    | assumption | intro _ | refine keeps_upCmd H1 ?_ | refine keeps_reply H ?_ | refine keeps_snapEnd H2 ?_ | split | dsimp only

theorem keeps_finishAll {P : State → Prop} {s : State} {p : WaitCmd → Bool} {status : Nat} {detail : Nat} {result : Nat} (H : Keeps P
    0x6c00553) (h0 : P s) : P (State.finishAll s p status detail result) := by
  unfold State.finishAll
  with_reducible repeat' first
    | assumption | intro _ | refine keeps_foldl ?_ ?_ | refine keeps_finish H ?_ | split | dsimp only

theorem keeps_unbindDone {P : State → Prop} {s : State} {q : Nat} (H : Keeps P 0x6c02553) (h0 : P s) : P (State.unbindDone s q) := by
  have H1 : Keeps P 0x2000 := H.mono rfl
  have H2 : Keeps P 0x6c00553 := H.mono rfl
  unfold State.unbindDone
  with_reducible repeat' first
    | assumption | intro _ | refine keeps_upTap H1 ?_ | refine keeps_finishAll H2 ?_ | split | dsimp only

theorem keeps_queueRunDone {P : State → Prop} {s : State} {r : TapRun} {q : Nat} (H : Keeps P 0x7c43557) (h0 : P s) : P (State.queueRunDone
    s r q) := by
  have H1 : Keeps P 0x2000 := H.mono rfl
  have H2 : Keeps P 0x6c02553 := H.mono rfl
  have H3 : Keeps P 0x4800001 := H.mono rfl
  have H4 : Keeps P 0x7c43117 := H.mono rfl
  unfold State.queueRunDone
  with_reducible repeat' first
    | assumption | intro _ | refine keeps_foldl ?_ ?_ | refine keeps_upTap H1 ?_ | refine keeps_unbindDone H2 ?_
    | refine keeps_writeReports H3 ?_ | refine keeps_recReturn H4 ?_ | refine keeps_upTapQueue H1 ?_ | split | dsimp only

theorem keeps_unholdRun {P : State → Prop} {s : State} {r : TapRun} (H : Keeps P 0x7c43557) (h0 : P s) : P (State.unholdRun s r) := by
  have H1 : Keeps P 0x7c43117 := H.mono rfl
  have H2 : Keeps P 0x2000 := H.mono rfl
  unfold State.unholdRun
  with_reducible repeat' first
    | assumption | intro _ | refine keeps_queueRunDone H ?_ | refine keeps_cutUnits H1 ?_ | refine keeps_upRun H2 ?_ | split | dsimp only

theorem keeps_unhold {P : State → Prop} {s : State} (H : Keeps P 0x7c43557) (h0 : P s) : P (State.unhold s) := by
  unfold State.unhold
  with_reducible repeat' first
    | assumption | intro _ | refine keeps_foldl ?_ ?_ | refine keeps_unholdRun H ?_ | split | dsimp only

theorem keeps_ringBlocks {P : State → Prop} {a : List ((Nat × Nat) × Bytes)} {x1 : State} {x2 : Nat} (H : Keeps P 0x4802004) (h1 : P x1) : P
    (State.ringBlocks a x1 x2).2 := by
  have H1 : Keeps P 0x4800004 := H.mono rfl
  have H2 : Keeps P 0x2000 := H.mono rfl
  induction a generalizing x1 x2 with
  | nil =>
    unfold State.ringBlocks
    with_reducible repeat' first
      | assumption | intro _ | refine keeps_gWrite H1 ?_ | refine keeps_upTapQueue H2 ?_ | split | dsimp only
  | cons _ _ ih =>
    unfold State.ringBlocks
    with_reducible repeat' first
      | assumption | intro _ | refine eq_snd ‹_ = _› (ih ?_) | refine ih ?_ | refine keeps_gWrite H1 ?_ | refine keeps_upTapQueue H2 ?_
      | split | dsimp only

theorem keeps_runBlocks {P : State → Prop} {s : State} {id : Nat} (H : Keeps P 0x4802004) (h0 : P s) : P (State.runBlocks s id) := by
  have H1 : Keeps P 0x2000 := H.mono rfl
  unfold State.runBlocks
  with_reducible repeat' first
    | assumption | intro _ | refine eq_snd ‹_ = _› (keeps_ringBlocks H ?_) | refine keeps_ringBlocks H ?_ | refine keeps_upRun H1 ?_
    | split | dsimp only

theorem keeps_endingRun {P : State → Prop} {s : State} {r : TapRun} (H : Keeps P 0x7c43557) (h0 : P s) : P (State.endingRun s r) := by
  have H1 : Keeps P 0x4802004 := H.mono rfl
  unfold State.endingRun
  with_reducible repeat' first
    | assumption | intro _ | refine keeps_runBlocks H1 ?_ | refine keeps_queueRunDone H ?_ | split | dsimp only

theorem keeps_dropUnit {P : State → Prop} {s : State} {r : TapRun} {u : Nat} (H : Keeps P 0x7c43117) (h0 : P s) : P (State.dropUnit s r u)
    := by
  have H1 : Keeps P 0x2000 := H.mono rfl
  have H2 : Keeps P 0x7c40113 := H.mono rfl
  have H3 : Keeps P 0x4400111 := H.mono rfl
  unfold State.dropUnit
  with_reducible repeat' first
    | assumption | intro _ | refine keeps_upTap H1 ?_ | refine keeps_cutUnits H ?_ | refine keeps_upRun H1 ?_ | refine keeps_record H2 ?_
    | refine keeps_flag H3 ?_ ?_ | split | dsimp only

theorem keeps_snapBegin {P : State → Prop} {s : State} {h : Hdr} {opcode : Nat} {tap : Bytes} (H : Keeps P 0x4800001) (h0 : P s) : P
    (State.snapBegin s h opcode tap).2 := by
  have H1 : Keeps P 0x4000000 := H.mono rfl
  unfold State.snapBegin
  with_reducible repeat' first
    | assumption | intro _ | exact opt_none | refine opt_some ?_ | refine opt_ite ?_ ?_ | refine keeps_upObs H1 ?_
    | refine keeps_hostWrite H ?_ | refine keeps_fnCtr H1 ?_ | split | dsimp only

theorem keeps_tapSnap {P : State → Prop} {s : State} (H : Keeps P 0x4802041) (h0 : P s) : P (State.tapSnap s) := by
  have H1 : Keeps P 0x40 := H.mono rfl
  have H2 : Keeps P 0x4800001 := H.mono rfl
  have H3 : Keeps P 0x2000 := H.mono rfl
  unfold State.tapSnap
  with_reducible repeat' first
    | assumption | intro _ | refine keeps_upCmd H1 ?_ | refine eq_snd ‹_ = _› (keeps_snapBegin H2 ?_) | refine keeps_snapBegin H2 ?_
    | refine keeps_upRun H3 ?_ | split | dsimp only

theorem keeps_tapStart {P : State → Prop} {s : State} {core : Nat} {it : TapItem} {rerun : Bool} (H : Keeps P 0x4802041) (h0 : P s) : P
    (State.tapStart s core it rerun) := by
  have H1 : Keeps P 0x2000 := H.mono rfl
  unfold State.tapStart
  with_reducible repeat' first
    | assumption | intro _ | refine keeps_upTap H1 ?_ | refine keeps_tapSnap H ?_ | split | dsimp only

theorem keeps_tapNext {P : State → Prop} {s : State} {core : Nat} (H : Keeps P 0x4802041) (h0 : P s) : P (State.tapNext s core) := by
  have H1 : Keeps P 0x2000 := H.mono rfl
  unfold State.tapNext
  with_reducible repeat' first
    | assumption | intro _ | refine keeps_upTap H1 ?_ | refine keeps_tapStart H ?_ | split | dsimp only

theorem keeps_tapFill {P : State → Prop} {s : State} (H : Keeps P 0x4802041) (h0 : P s) : P (State.tapFill s) := by
  unfold State.tapFill
  with_reducible repeat' first
    | assumption | intro _ | refine keeps_foldl ?_ ?_ | refine keeps_tapNext H ?_ | split | dsimp only

theorem keeps_repartition {P : State → Prop} {s : State} {back : List TapItem} {count : Bool} (H : Keeps P 0x4406111) (h0 : P s) : P
    (State.repartition s back count) := by
  have H1 : Keeps P 0x2000 := H.mono rfl
  have H2 : Keeps P 0x4000 := H.mono rfl
  have H3 : Keeps P 0x4400111 := H.mono rfl
  unfold State.repartition
  with_reducible repeat' first
    | assumption | intro _ | refine keeps_upTap H1 ?_ | refine keeps_upTapc H2 ?_ | refine keeps_note H3 ?_ | split | dsimp only

theorem keeps_tapBegin {P : State → Prop} {s : State} {r : TapRun} (H : Keeps P 0x7c47557) (h0 : P s) : P (State.tapBegin s r) := by
  have H1 : Keeps P 0x2000 := H.mono rfl
  have H2 : Keeps P 0x4406111 := H.mono rfl
  have H3 : Keeps P 0x4802041 := H.mono rfl
  have H4 : Keeps P 0x7c43117 := H.mono rfl
  have H5 : Keeps P 0x7c43557 := H.mono rfl
  have H6 : Keeps P 0x2 := H.mono rfl
  unfold State.tapBegin
  with_reducible repeat' first
    | assumption | intro _ | refine keeps_upTap H1 ?_ | refine keeps_repartition H2 ?_ | refine keeps_tapFill H3 ?_
    | refine keeps_dropUnit H4 ?_ | refine keeps_queueRunDone H5 ?_ | refine keeps_upRun H1 ?_ | refine keeps_spent H6 ?_ | split
    | dsimp only

theorem keeps_tapDrive {P : State → Prop} {a : Nat} {x1 : State} (H : Keeps P 0x7c47557) (h1 : P x1) : P (State.tapDrive a x1) := by
  induction a generalizing x1 with
  | zero =>
    unfold State.tapDrive
    with_reducible repeat' first
      | assumption | intro _ | refine keeps_tapBegin H ?_ | split | dsimp only
  | succ _ ih =>
    unfold State.tapDrive
    with_reducible repeat' first
      | assumption | intro _ | refine ih ?_ | refine keeps_tapBegin H ?_ | split | dsimp only

theorem keeps_tapKick {P : State → Prop} {s : State} (H : Keeps P 0x7c47557) (h0 : P s) : P (State.tapKick s) := by
  have H1 : Keeps P 0x7c43557 := H.mono rfl
  have H2 : Keeps P 0x4802004 := H.mono rfl
  have H3 : Keeps P 0x7c43117 := H.mono rfl
  unfold State.tapKick
  with_reducible repeat' first
    | assumption | intro _ | refine keeps_foldl ?_ ?_ | refine keeps_tapDrive H ?_ | refine keeps_endingRun H1 ?_
    | refine keeps_runBlocks H2 ?_ | refine keeps_unhold H1 ?_ | refine keeps_queueKick H3 ?_ | split | dsimp only

theorem keeps_tapJoins {P : State → Prop} {s : State} {cores : List Nat} (H : Keeps P 0x7c47557) (h0 : P s) : P (State.tapJoins s cores) :=
    by
  have H1 : Keeps P 0x2000 := H.mono rfl
  have H2 : Keeps P 0x4406111 := H.mono rfl
  have H3 : Keeps P 0x4802041 := H.mono rfl
  have H4 : Keeps P 0x42000 := H.mono rfl
  unfold State.tapJoins
  with_reducible repeat' first
    | assumption | intro _ | refine keeps_foldl ?_ ?_ | refine keeps_upTap H1 ?_ | refine keeps_tapKick H ?_
    | refine keeps_repartition H2 ?_ | refine keeps_tapFill H3 ?_ | refine keeps_applyHeld H4 ?_ | split | dsimp only

theorem keeps_iftStop {P : State → Prop} {s : State} (H : Keeps P 0x7c47557) (h0 : P s) : P (State.iftStop s) := by
  have H1 : Keeps P 0x40000 := H.mono rfl
  have H2 : Keeps P 0x2000 := H.mono rfl
  unfold State.iftStop
  with_reducible repeat' first
    | assumption | intro _ | refine keeps_upRas H1 ?_ | refine keeps_upTap H2 ?_ | refine keeps_tapJoins H ?_ | split | dsimp only

theorem keeps_tapFewest {P : State → Prop} {s : State} (H : Keeps P 0x2000) (h0 : P s) : P (State.tapFewest s) := by
  unfold State.tapFewest
  with_reducible repeat' first
    | assumption | intro _ | refine keeps_upRun H ?_ | split | dsimp only

theorem keeps_tapLeaves {P : State → Prop} {s : State} {core : Nat} (H : Keeps P 0x2000) (h0 : P s) : P (State.tapLeaves s core) := by
  unfold State.tapLeaves
  with_reducible repeat' first
    | assumption | intro _ | refine keeps_upTap H ?_ | refine keeps_tapFewest H ?_ | split | dsimp only

theorem keeps_tapTestsDue {P : State → Prop} {s : State} {cores : List Nat} (H : Keeps P 0x4c06151) (h0 : P s) : P (State.tapTestsDue s
    cores) := by
  have H1 : Keeps P 0x2000 := H.mono rfl
  have H2 : Keeps P 0x4406111 := H.mono rfl
  have H3 : Keeps P 0x4802041 := H.mono rfl
  have H4 : Keeps P 0x4400111 := H.mono rfl
  unfold State.tapTestsDue
  with_reducible repeat' first
    | assumption | intro _ | refine keeps_foldl ?_ ?_ | refine keeps_upTap H1 ?_ | refine keeps_tapLeaves H1 ?_
    | refine keeps_repartition H2 ?_ | refine keeps_tapFill H3 ?_ | refine keeps_flag H4 ?_ ?_ | split | dsimp only

theorem keeps_iftStart {P : State → Prop} {s : State} (H : Keeps P 0x4c46151) (h0 : P s) : P (State.iftStart s) := by
  have H1 : Keeps P 0x40000 := H.mono rfl
  have H2 : Keeps P 0x4c06151 := H.mono rfl
  unfold State.iftStart
  with_reducible repeat' first
    | assumption | intro _ | refine keeps_upRas H1 ?_ | refine keeps_tapTestsDue H2 ?_ | split | dsimp only

theorem keeps_iftCheck {P : State → Prop} {s : State} (H : Keeps P 0x7c47557) (h0 : P s) : P (State.iftCheck s) := by
  have H1 : Keeps P 0x4c46151 := H.mono rfl
  unfold State.iftCheck
  with_reducible repeat' first
    | assumption | intro _ | refine keeps_iftStart H1 ?_ | refine keeps_iftStop H ?_ | split | dsimp only

theorem keeps_setStep {P : State → Prop} {s : State} {n : Nat} (H : Keeps P 0x8000000) (h0 : P s) : P (State.setStep s n) := by
  unfold State.setStep
  with_reducible repeat' first
    | assumption | intro _ | refine keeps_upPwr H ?_ | split | dsimp only

theorem keeps_causeBegin {P : State → Prop} {s : State} {f : Pwr → Pwr} (H : Keeps P 0xfc47557) (h0 : P s) : P (State.causeBegin s f) := by
  have H1 : Keeps P 0x8000000 := H.mono rfl
  have H2 : Keeps P 0x7c47557 := H.mono rfl
  have H3 : Keeps P 0xfc40113 := H.mono rfl
  unfold State.causeBegin
  with_reducible repeat' first
    | assumption | intro _ | refine keeps_upPwr H1 ?_ | refine keeps_setStep H1 ?_ | refine keeps_iftCheck H2 ?_
    | refine keeps_declare H3 ?_ | split | dsimp only

theorem keeps_eprCheck {P : State → Prop} {s : State} (H : Keeps P 0xfc47557) (h0 : P s) : P (State.eprCheck s) := by
  unfold State.eprCheck
  with_reducible repeat' first
    | assumption | intro _ | refine keeps_causeBegin H ?_ | split | dsimp only

theorem keeps_mainRelease {P : State → Prop} {s : State} (H : Keeps P 0x1fc47557) (h0 : P s) : P (State.mainRelease s) := by
  have H1 : Keeps P 0x10 := H.mono rfl
  have H2 : Keeps P 0x10000000 := H.mono rfl
  have H3 : Keeps P 0x8000000 := H.mono rfl
  have H4 : Keeps P 0xfc47557 := H.mono rfl
  unfold State.mainRelease
  with_reducible repeat' first
    | assumption | intro _ | refine keeps_upAon H1 ?_ | refine keeps_mainFresh H2 ?_ | refine keeps_upPwr H3 ?_
    | refine keeps_eprCheck H4 ?_ | split | dsimp only

theorem keeps_mainUp {P : State → Prop} {s : State} (H : Keeps P 0x1fc47557) (h0 : P s) : P (State.mainUp s) := by
  have H1 : Keeps P 0x10 := H.mono rfl
  have H2 : Keeps P 0x10000000 := H.mono rfl
  unfold State.mainUp
  with_reducible repeat' first
    | assumption | intro _ | refine keeps_upAon H1 ?_ | refine keeps_mainFresh H2 ?_ | refine keeps_mainRelease H ?_ | split | dsimp only

theorem keeps_execInputRestored {P : State → Prop} {s : State} (H : Keeps P 0x1fc47557) (h0 : P s) : ResAll P (execInputRestored s) := by
  have H1 : Keeps P 0x10 := H.mono rfl
  unfold execInputRestored
  with_reducible repeat' first
    | assumption | intro _ | refine res_next ?_ | refine keeps_upAon H1 ?_ | refine keeps_mainUp H ?_
    | refine res_get ‹_ = Host.Outcome.next _› (keeps_onAlways ?_ ?_) | refine keeps_onAlways ?_ ?_ | split | dsimp only

theorem keeps_execPwrEnHigh {P : State → Prop} {s : State} (H : Keeps P 0x10) (h0 : P s) : ResAll P (execPwrEnHigh s) := by
  unfold execPwrEnHigh
  with_reducible repeat' first
    | assumption | intro _ | refine res_next ?_ | refine keeps_upAon H ?_ | split | dsimp only

theorem keeps_execPwrEnLow {P : State → Prop} {s : State} (H : Keeps P 0x10000010) (h0 : P s) : ResAll P (execPwrEnLow s) := by
  have H1 : Keeps P 0x10 := H.mono rfl
  unfold execPwrEnLow
  with_reducible repeat' first
    | assumption | intro _ | refine res_next ?_ | refine keeps_upAon H1 ?_ | refine keeps_railsOff H ?_ | split | dsimp only

theorem keeps_execMainPowerUp {P : State → Prop} {s : State} (H : Keeps P 0x1fc47557) (h0 : P s) : ResAll P (execMainPowerUp s) := by
  unfold execMainPowerUp
  with_reducible repeat' first
    | assumption | intro _ | refine res_next ?_ | refine keeps_mainUp H ?_
    | refine res_get ‹_ = Host.Outcome.next _› (keeps_onAlways ?_ ?_) | refine keeps_onAlways ?_ ?_ | split | dsimp only

theorem keeps_execMainDomainReady {P : State → Prop} {s : State} (H : Keeps P 0x10) (h0 : P s) : ResAll P (execMainDomainReady s) := by
  unfold execMainDomainReady
  with_reducible repeat' first
    | assumption | intro _ | refine res_next ?_ | refine keeps_upAon H ?_ | refine res_get ‹_ = Host.Outcome.next _› (keeps_onAlways ?_ ?_)
    | refine keeps_onAlways ?_ ?_ | split | dsimp only

theorem keeps_execSysRstAssert {P : State → Prop} {s : State} (H : Keeps P 0x10000010) (h0 : P s) : ResAll P (execSysRstAssert s) := by
  have H1 : Keeps P 0x10 := H.mono rfl
  unfold execSysRstAssert
  with_reducible repeat' first
    | assumption | intro _ | refine res_next ?_ | refine keeps_upAon H1 ?_ | refine keeps_mainDown H ?_ | split | dsimp only

theorem keeps_execSysRstRelease {P : State → Prop} {s : State} (H : Keeps P 0x1fc47557) (h0 : P s) : ResAll P (execSysRstRelease s) := by
  have H1 : Keeps P 0x10 := H.mono rfl
  unfold execSysRstRelease
  with_reducible repeat' first
    | assumption | intro _ | refine res_next ?_ | refine keeps_upAon H1 ?_ | refine keeps_mainRelease H ?_ | split | dsimp only

theorem keeps_gClear {P : State → Prop} {s : State} {a : Nat} {n : Nat} (H : Keeps P 0x4) (h0 : P s) : P (State.gClear s a n) := by
  unfold State.gClear
  with_reducible repeat' first
    | assumption | intro _ | refine keeps_put H ?_ | refine keeps_clear H ?_ | split | dsimp only

theorem keeps_upCore {P : State → Prop} {s : State} {n : Nat} {f : OnbCore → OnbCore} (H : Keeps P 0x200000) (h0 : P s) : P (State.upCore s
    n f) := by
  unfold State.upCore
  with_reducible repeat' first
    | assumption | intro _ | refine keeps_upOnb H ?_ | split | dsimp only

theorem keeps_modulesLaid {P : State → Prop} {s : State} (H : Keeps P 0x200000) (h0 : P s) : P (State.modulesLaid s) := by
  unfold State.modulesLaid
  with_reducible repeat' first
    | assumption | intro _ | refine keeps_foldl ?_ ?_ | refine keeps_upCore H ?_ | split | dsimp only

theorem keeps_moduleGone {P : State → Prop} {s : State} {cls : Nat} (H : Keeps P 0x300004) (h0 : P s) : P (State.moduleGone s cls) := by
  have H1 : Keeps P 0x100000 := H.mono rfl
  have H2 : Keeps P 0x200000 := H.mono rfl
  have H3 : Keeps P 0x4 := H.mono rfl
  unfold State.moduleGone
  with_reducible repeat' first
    | assumption | intro _ | refine keeps_upStg H1 ?_ | refine keeps_modulesLaid H2 ?_ | refine keeps_gClear H3 ?_ | split | dsimp only

theorem keeps_settleUnloads {P : State → Prop} {s : State} (H : Keeps P 0x6f00557) (h0 : P s) : P (State.settleUnloads s) := by
  have H1 : Keeps P 0x300004 := H.mono rfl
  have H2 : Keeps P 0x6c00553 := H.mono rfl
  unfold State.settleUnloads
  with_reducible repeat' first
    | assumption | intro _ | refine keeps_foldl ?_ ?_ | refine keeps_moduleGone H1 ?_ | refine keeps_finish H2 ?_ | split | dsimp only

theorem keeps_abandonInter {P : State → Prop} {s : State} {scope : Nat} (H : Keeps P 0x40) (h0 : P s) : P (State.abandonInter s scope) := by
  unfold State.abandonInter
  with_reducible repeat' first
    | assumption | intro _ | refine keeps_upCmd H ?_ | split | dsimp only

theorem keeps_dropInters {P : State → Prop} {s : State} {fn : Nat} {handle : Nat} (H : Keeps P 0x6c00553) (h0 : P s) : P (State.dropInters s
    fn handle) := by
  have H1 : Keeps P 0x40 := H.mono rfl
  unfold State.dropInters
  with_reducible repeat' first
    | assumption | intro _ | refine keeps_foldl ?_ ?_ | refine keeps_abandonInter H1 ?_ | refine keeps_finishAll H ?_ | split | dsimp only

theorem keeps_endSession {P : State → Prop} {s : State} {fn : Nat} {handle : Nat} (H : Keeps P 0x6c00553) (h0 : P s) : P (State.endSession s
    fn handle) := by
  have H1 : Keeps P 0x40 := H.mono rfl
  unfold State.endSession
  with_reducible repeat' first
    | assumption | intro _ | refine keeps_upCmd H1 ?_ | refine keeps_dropInters H ?_ | split | dsimp only

theorem keeps_endSessions {P : State → Prop} {s : State} {fn : Nat} (H : Keeps P 0x6c00553) (h0 : P s) : P (State.endSessions s fn) := by
  unfold State.endSessions
  with_reducible repeat' first
    | assumption | intro _ | refine keeps_foldl ?_ ?_ | refine keeps_endSession H ?_ | split | dsimp only

theorem keeps_deleteQps {P : State → Prop} {s : State} {fn : Nat} (H : Keeps P 0x40) (h0 : P s) : P (State.deleteQps s fn) := by
  unfold State.deleteQps
  with_reducible repeat' first
    | assumption | intro _ | refine keeps_upCmd H ?_ | split | dsimp only

theorem keeps_disableCmd {P : State → Prop} {s : State} {fn : Nat} (H : Keeps P 0x6f00557) (h0 : P s) : P (State.disableCmd s fn) := by
  have H1 : Keeps P 0x40 := H.mono rfl
  have H2 : Keeps P 0x6c00553 := H.mono rfl
  unfold State.disableCmd
  with_reducible repeat' first
    | assumption | intro _ | refine keeps_deleteQps H1 ?_ | refine keeps_endSessions H2 ?_ | refine keeps_settleUnloads H ?_
    | refine keeps_upFn H1 ?_ | split | dsimp only

theorem keeps_upCtrl {P : State → Prop} {s : State} {fn : Nat} {f : Ctrl → Ctrl} (H : Keeps P 0x80) (h0 : P s) : P (State.upCtrl s fn f) :=
    by
  unfold State.upCtrl
  with_reducible repeat' first
    | assumption | intro _ | refine keeps_upSto H ?_ | split | dsimp only

theorem keeps_dropOp {P : State → Prop} {s : State} {fn : Nat} {sqid : Nat} {cid : Nat} (H : Keeps P 0x80) (h0 : P s) : P (State.dropOp s fn
    sqid cid) := by
  unfold State.dropOp
  with_reducible repeat' first
    | assumption | intro _ | refine keeps_upSto H ?_ | refine keeps_upCtrl H ?_ | split | dsimp only

theorem keeps_upQueue {P : State → Prop} {s : State} {fn : Nat} {cq : Bool} {qid : Nat} {f : QueueRec → QueueRec} (H : Keeps P 0x80) (h0 : P
    s) : P (State.upQueue s fn cq qid f) := by
  unfold State.upQueue
  with_reducible repeat' first
    | assumption | intro _ | refine keeps_upCtrl H ?_ | split | dsimp only

theorem keeps_postCqe {P : State → Prop} {s : State} {fn : Nat} {cqid : Nat} {b : Bytes} (H : Keeps P 0x4c00191) (h0 : P s) : P
    (State.postCqe s fn cqid b) := by
  have H1 : Keeps P 0x80 := H.mono rfl
  have H2 : Keeps P 0x4400111 := H.mono rfl
  have H3 : Keeps P 0x4800001 := H.mono rfl
  have H4 : Keeps P 0x4000000 := H.mono rfl
  have H5 : Keeps P 0x1 := H.mono rfl
  unfold State.postCqe
  with_reducible repeat' first
    | assumption | intro _ | refine keeps_upQueue H1 ?_ | refine keeps_upCtrl H1 ?_ | refine keeps_vecEvent H2 ?_
    | refine keeps_hostWrite H3 ?_ | refine keeps_fnCtr H4 ?_ | refine keeps_emit H5 ?_ | refine keeps_ao H4 ?_ | split | dsimp only

theorem keeps_nvmeDone {P : State → Prop} {s : State} {fn : Nat} {sqid : Nat} {cid : Nat} {status : Nat} {dw0 : Nat} (H : Keeps P 0x4c00191)
    (h0 : P s) : P (State.nvmeDone s fn sqid cid status dw0) := by
  unfold State.nvmeDone
  with_reducible repeat' first
    | assumption | intro _ | refine keeps_postCqe H ?_ | split | dsimp only

theorem keeps_endOp {P : State → Prop} {s : State} {fn : Nat} {sqid : Nat} {cid : Nat} {status : Nat} (H : Keeps P 0x4c00191) (h0 : P s) : P
    (State.endOp s fn sqid cid status) := by
  have H1 : Keeps P 0x80 := H.mono rfl
  unfold State.endOp
  with_reducible repeat' first
    | assumption | intro _ | refine keeps_nvmeDone H ?_ | refine keeps_dropOp H1 ?_ | split | dsimp only

theorem keeps_asyncEvent {P : State → Prop} {s : State} {fn : Nat} {dw0 : Nat} (H : Keeps P 0x4c00191) (h0 : P s) : P (State.asyncEvent s fn
    dw0) := by
  have H1 : Keeps P 0x80 := H.mono rfl
  unfold State.asyncEvent
  with_reducible repeat' first
    | assumption | intro _ | refine keeps_nvmeDone H ?_ | refine keeps_upCtrl H1 ?_ | split | dsimp only

theorem keeps_nsChanged {P : State → Prop} {s : State} {fn : Nat} {nsid : Nat} (H : Keeps P 0x4c00191) (h0 : P s) : P (State.nsChanged s fn
    nsid) := by
  have H1 : Keeps P 0x80 := H.mono rfl
  unfold State.nsChanged
  with_reducible repeat' first
    | assumption | intro _ | refine keeps_asyncEvent H ?_ | refine keeps_upCtrl H1 ?_ | split | dsimp only

theorem keeps_saveSettle {P : State → Prop} {s : State} (H : Keeps P 0x6c00553) (h0 : P s) : P (State.saveSettle s) := by
  have H1 : Keeps P 0x800000 := H.mono rfl
  unfold State.saveSettle
  with_reducible repeat' first
    | assumption | intro _ | refine keeps_foldl ?_ ?_ | refine keeps_upHost H1 ?_ | refine keeps_finish H ?_ | split | dsimp only

theorem keeps_upNs {P : State → Prop} {s : State} {ctrl : Nat} {nsid : Nat} {f : Ns → Ns} (H : Keeps P 0x80) (h0 : P s) : P (State.upNs s
    ctrl nsid f) := by
  unfold State.upNs
  with_reducible repeat' first
    | assumption | intro _ | refine keeps_upSto H ?_ | split | dsimp only

theorem keeps_stoSettle {P : State → Prop} {s : State} (H : Keeps P 0x6c00dd3) (h0 : P s) : P (State.stoSettle s) := by
  have H1 : Keeps P 0x80 := H.mono rfl
  have H2 : Keeps P 0x800 := H.mono rfl
  have H3 : Keeps P 0x6c00553 := H.mono rfl
  have H4 : Keeps P 0x4c00191 := H.mono rfl
  unfold State.stoSettle
  with_reducible repeat' first
    | assumption | intro _ | refine keeps_foldl ?_ ?_ | refine keeps_foldl_fst ?_ ?_ | refine keeps_foldl_snd ?_ ?_
    | refine keeps_upSto H1 ?_ | refine keeps_upCip H2 ?_ | refine keeps_upNs H1 ?_ | refine keeps_saveSettle H3 ?_
    | refine keeps_nsChanged H4 ?_ | refine keeps_endOp H4 ?_ | refine keeps_upCtrl H1 ?_ | refine keeps_finishAll H3 ?_ | split
    | dsimp only

theorem keeps_ctxGive {P : State → Prop} {s : State} {l : List Nat} (H : Keeps P 0x400) (h0 : P s) : P (State.ctxGive s l) := by
  unfold State.ctxGive
  with_reducible repeat' first
    | assumption | intro _ | refine keeps_upCtx H ?_ | split | dsimp only

theorem keeps_ctrlReset {P : State → Prop} {s : State} {fn : Nat} (H : Keeps P 0x6c00dd3) (h0 : P s) : P (State.ctrlReset s fn) := by
  have H1 : Keeps P 0x400 := H.mono rfl
  have H2 : Keeps P 0x80 := H.mono rfl
  unfold State.ctrlReset
  with_reducible repeat' first
    | assumption | intro _ | refine keeps_foldl ?_ ?_ | refine keeps_ctxGive H1 ?_ | refine keeps_stoSettle H ?_
    | refine keeps_dropOp H2 ?_ | refine keeps_upCtrl H2 ?_ | split | dsimp only

theorem keeps_upEvents {P : State → Prop} {s : State} {f : List (Nat × CueEvent) → List (Nat × CueEvent)} (H : Keeps P 0x20) (h0 : P s) : P
    (State.upEvents s f) := by
  unfold State.upEvents
  with_reducible repeat' first
    | assumption | intro _ | refine keeps_upCue H ?_ | split | dsimp only

theorem keeps_upJobX {P : State → Prop} {s : State} {h : Nat} {f : JobX → JobX} (H : Keeps P 0x8000) (h0 : P s) : P (State.upJobX s h f) :=
    by
  unfold State.upJobX
  with_reducible repeat' first
    | assumption | intro _ | refine keeps_upLoom H ?_ | split | dsimp only

theorem keeps_upJob {P : State → Prop} {s : State} {h : Nat} {f : Job → Job} (H : Keeps P 0x8000) (h0 : P s) : P (State.upJob s h f) := by
  unfold State.upJob
  with_reducible repeat' first
    | assumption | intro _ | refine keeps_upLoom H ?_ | split | dsimp only

theorem keeps_upSample {P : State → Prop} {s : State} {h : Nat} {no : Nat} {f : Sample → Sample} (H : Keeps P 0x4808004) (h0 : P s) : P
    (State.upSample s h no f) := by
  have H1 : Keeps P 0x8000 := H.mono rfl
  have H2 : Keeps P 0x4800004 := H.mono rfl
  unfold State.upSample
  with_reducible repeat' first
    | assumption | intro _ | refine keeps_upJob H1 ?_ | refine keeps_gWrite H2 ?_ | split | dsimp only

theorem keeps_dropBatch {P : State → Prop} {s : State} {h : Nat} {b : Batch} (H : Keeps P 0x4808004) (h0 : P s) : P (State.dropBatch s h b)
    := by
  have H1 : Keeps P 0x8000 := H.mono rfl
  unfold State.dropBatch
  with_reducible repeat' first
    | assumption | intro _ | refine keeps_foldl ?_ ?_ | refine keeps_upSample H ?_ | refine keeps_upJob H1 ?_ | refine keeps_upJobX H1 ?_
    | split | dsimp only

theorem keeps_dropWoven {P : State → Prop} {s : State} {h : Nat} {p : Batch → Bool} (H : Keeps P 0x4808004) (h0 : P s) : P (State.dropWoven
    s h p) := by
  unfold State.dropWoven
  with_reducible repeat' first
    | assumption | intro _ | refine keeps_foldl ?_ ?_ | refine keeps_dropBatch H ?_ | split | dsimp only

theorem keeps_qpFree {P : State → Prop} {s : State} {qpn : Nat} (H : Keeps P 0x500) (h0 : P s) : P (State.qpFree s qpn) := by
  have H1 : Keeps P 0x100 := H.mono rfl
  have H2 : Keeps P 0x400 := H.mono rfl
  unfold State.qpFree
  with_reducible repeat' first
    | assumption | intro _ | refine keeps_upNet H1 ?_ | refine keeps_ctxGive H2 ?_ | split | dsimp only

theorem keeps_regionDel {P : State → Prop} {s : State} {rkey : Nat} (H : Keeps P 0x100) (h0 : P s) : P (State.regionDel s rkey) := by
  unfold State.regionDel
  with_reducible repeat' first
    | assumption | intro _ | refine keeps_upNet H ?_ | split | dsimp only

theorem keeps_intDropIf {P : State → Prop} {s : State} {p : IntUse → Bool} (H : Keeps P 0x80) (h0 : P s) : P (State.intDropIf s p) := by
  unfold State.intDropIf
  with_reducible repeat' first
    | assumption | intro _ | refine keeps_upSto H ?_ | split | dsimp only

theorem keeps_loomGone {P : State → Prop} {s : State} {h : Nat} (H : Keeps P 0x6c185f3) (h0 : P s) : P (State.loomGone s h) := by
  have H1 : Keeps P 0x10000 := H.mono rfl
  have H2 : Keeps P 0x20 := H.mono rfl
  have H3 : Keeps P 0x8000 := H.mono rfl
  have H4 : Keeps P 0x80 := H.mono rfl
  have H5 : Keeps P 0x100 := H.mono rfl
  have H6 : Keeps P 0x500 := H.mono rfl
  have H7 : Keeps P 0x6c00553 := H.mono rfl
  unfold State.loomGone
  with_reducible repeat' first
    | assumption | intro _ | refine keeps_foldl ?_ ?_ | refine keeps_foldl_fst ?_ ?_ | refine keeps_foldl_snd ?_ ?_
    | refine opt_foldl ?_ ?_ | refine keeps_upFeed H1 ?_ | refine keeps_upCue H2 ?_ | refine keeps_upLoom H3 ?_
    | refine keeps_intDropIf H4 ?_ | refine keeps_regionDel H5 ?_ | refine keeps_qpFree H6 ?_ | refine keeps_finishAll H7 ?_ | split
    | dsimp only

theorem keeps_loomSettle {P : State → Prop} {s : State} {h : Nat} (H : Keeps P 0x6c185f3) (h0 : P s) : P (State.loomSettle s h) := by
  unfold State.loomSettle
  with_reducible repeat' first
    | assumption | intro _ | refine keeps_loomGone H ?_ | split | dsimp only

theorem keeps_loomClose {P : State → Prop} {s : State} {h : Nat} (H : Keeps P 0x7c5f5f7) (h0 : P s) : P (State.loomClose s h) := by
  have H1 : Keeps P 0x8000 := H.mono rfl
  have H2 : Keeps P 0x6c185f3 := H.mono rfl
  have H3 : Keeps P 0x4808004 := H.mono rfl
  have H4 : Keeps P 0x7c47557 := H.mono rfl
  unfold State.loomClose
  with_reducible repeat' first
    | assumption | intro _ | refine keeps_upLoom H1 ?_ | refine keeps_loomSettle H2 ?_ | refine keeps_dropWoven H3 ?_
    | refine keeps_upJob H1 ?_ | refine keeps_upJobX H1 ?_ | refine keeps_tapKick H4 ?_ | split | dsimp only

theorem keeps_loomResetFn {P : State → Prop} {s : State} {fn : Nat} (H : Keeps P 0x7c5f5f7) (h0 : P s) : P (State.loomResetFn s fn) := by
  have H1 : Keeps P 0x6c185f3 := H.mono rfl
  unfold State.loomResetFn
  with_reducible repeat' first
    | assumption | intro _ | refine keeps_foldl ?_ ?_ | refine keeps_loomClose H ?_ | refine keeps_loomGone H1 ?_ | split | dsimp only

theorem keeps_dropUnsent {P : State → Prop} {s : State} {r : FRing} {p : TxMsg → Bool} (H : Keeps P 0x100) (h0 : P s) : P (State.dropUnsent
    s r p) := by
  unfold State.dropUnsent
  with_reducible repeat' first
    | assumption | intro _ | refine keeps_upQpn H ?_ | split | dsimp only

theorem keeps_giveSlot {P : State → Prop} {s : State} {h : Nat} {j : Job} {slot : Nat} (H : Keeps P 0x8000) (h0 : P s) : P (State.giveSlot s
    h j slot) := by
  unfold State.giveSlot
  with_reducible repeat' first
    | assumption | intro _ | refine keeps_upJobX H ?_ | split | dsimp only

theorem keeps_xSend {P : State → Prop} {s : State} {h : Nat} {rank : Nat} {b : Bytes} (H : Keeps P 0x4408513) (h0 : P s) : P (State.xSend s
    h rank b) := by
  have H1 : Keeps P 0x8000 := H.mono rfl
  have H2 : Keeps P 0x4400513 := H.mono rfl
  unfold State.xSend
  with_reducible repeat' first
    | assumption | intro _ | refine keeps_upJobX H1 ?_ | refine keeps_qpWrite H2 ?_ | split | dsimp only

theorem keeps_freeSample {P : State → Prop} {s : State} {h : Nat} {no : Nat} (H : Keeps P 0x4408513) (h0 : P s) : P (State.freeSample s h
    no) := by
  have H1 : Keeps P 0x8000 := H.mono rfl
  unfold State.freeSample
  with_reducible repeat' first
    | assumption | intro _ | refine keeps_xSend H ?_ | refine keeps_giveSlot H1 ?_ | refine keeps_upJob H1 ?_ | split | dsimp only

theorem keeps_release {P : State → Prop} {s : State} {h : Nat} {no : Nat} (H : Keeps P 0x4408513) (h0 : P s) : P (State.release s h no) :=
    by
  have H1 : Keeps P 0x8000 := H.mono rfl
  unfold State.release
  with_reducible repeat' first
    | assumption | intro _ | refine keeps_freeSample H ?_ | refine keeps_upJob H1 ?_ | split | dsimp only

theorem keeps_batchRelease {P : State → Prop} {s : State} {b : Batch} (H : Keeps P 0x4408513) (h0 : P s) : P (State.batchRelease s b) := by
  unfold State.batchRelease
  with_reducible repeat' first
    | assumption | intro _ | refine keeps_foldl ?_ ?_ | refine keeps_release H ?_ | split | dsimp only

theorem keeps_abandon {P : State → Prop} {s : State} {b : Batch} {orphan : Bool} (H : Keeps P 0x6c185f3) (h0 : P s) : P (State.abandon s b
    orphan) := by
  have H1 : Keeps P 0x10000 := H.mono rfl
  have H2 : Keeps P 0x4408513 := H.mono rfl
  unfold State.abandon
  with_reducible repeat' first
    | assumption | intro _ | refine keeps_upFeed H1 ?_ | refine keeps_batchRelease H2 ?_ | refine keeps_loomSettle H ?_ | split
    | dsimp only

theorem keeps_upCell {P : State → Prop} {s : State} {n : Nat} {f : Latch → Latch} (H : Keeps P 0x20000) (h0 : P s) : P (State.upCell s n f)
    := by
  unfold State.upCell
  with_reducible repeat' first
    | assumption | intro _ | refine keeps_upLat H ?_ | split | dsimp only

theorem keeps_ringDestroy {P : State → Prop} {s : State} {ring : Nat} (H : Keeps P 0x6c385f3) (h0 : P s) : P (State.ringDestroy s ring) :=
    by
  have H1 : Keeps P 0x10000 := H.mono rfl
  have H2 : Keeps P 0x20000 := H.mono rfl
  have H3 : Keeps P 0x6c185f3 := H.mono rfl
  have H4 : Keeps P 0x100 := H.mono rfl
  have H5 : Keeps P 0x6c00553 := H.mono rfl
  unfold State.ringDestroy
  with_reducible repeat' first
    | assumption | intro _ | refine keeps_foldl ?_ ?_ | refine keeps_upFeed H1 ?_ | refine keeps_upCell H2 ?_ | refine keeps_abandon H3 ?_
    | refine keeps_dropUnsent H4 ?_ | refine keeps_regionDel H4 ?_ | refine keeps_finishAll H5 ?_ | split | dsimp only

theorem keeps_upAcc {P : State → Prop} {s : State} {a : Nat} {f : Acc → Acc} (H : Keeps P 0x4410111) (h0 : P s) : P (State.upAcc s a f) :=
    by
  have H1 : Keeps P 0x10000 := H.mono rfl
  have H2 : Keeps P 0x4400111 := H.mono rfl
  unfold State.upAcc
  with_reducible repeat' first
    | assumption | intro _ | refine keeps_upFeed H1 ?_ | refine keeps_note H2 ?_ | split | dsimp only

theorem keeps_feedFnReset {P : State → Prop} {s : State} {fn : Nat} (H : Keeps P 0x6c385f3) (h0 : P s) : P (State.feedFnReset s fn) := by
  have H1 : Keeps P 0x4410111 := H.mono rfl
  have H2 : Keeps P 0x6c00553 := H.mono rfl
  unfold State.feedFnReset
  with_reducible repeat' first
    | assumption | intro _ | refine keeps_foldl ?_ ?_ | refine keeps_upAcc H1 ?_ | refine keeps_ringDestroy H ?_
    | refine keeps_finishAll H2 ?_ | split | dsimp only

theorem keeps_tapResetFn {P : State → Prop} {s : State} {fn : Nat} (H : Keeps P 0x7c47557) (h0 : P s) : P (State.tapResetFn s fn) := by
  have H1 : Keeps P 0x2000 := H.mono rfl
  unfold State.tapResetFn
  with_reducible repeat' first
    | assumption | intro _ | exact opt_none | refine opt_some ?_ | refine opt_map2 (P := P) ?_ ?_ | refine opt_map ?_
    | refine opt_ite ?_ ?_ | refine keeps_upTap H1 ?_ | refine keeps_tapKick H ?_ | split | dsimp only

theorem keeps_intDrop {P : State → Prop} {s : State} {u : IntUse} (H : Keeps P 0x80) (h0 : P s) : P (State.intDrop s u) := by
  unfold State.intDrop
  with_reducible repeat' first
    | assumption | intro _ | refine keeps_upSto H ?_ | split | dsimp only

theorem keeps_shuClose {P : State → Prop} {s : State} {n : Nat} (H : Keeps P 0x1480) (h0 : P s) : P (State.shuClose s n) := by
  have H1 : Keeps P 0x1000 := H.mono rfl
  have H2 : Keeps P 0x80 := H.mono rfl
  have H3 : Keeps P 0x400 := H.mono rfl
  unfold State.shuClose
  with_reducible repeat' first
    | assumption | intro _ | refine keeps_upShu H1 ?_ | refine keeps_intDrop H2 ?_ | refine keeps_ctxGive H3 ?_ | split | dsimp only

theorem keeps_shuCloseFn {P : State → Prop} {s : State} {fn : Nat} (H : Keeps P 0x1480) (h0 : P s) : P (State.shuCloseFn s fn) := by
  unfold State.shuCloseFn
  with_reducible repeat' first
    | assumption | intro _ | refine keeps_foldl ?_ ?_ | refine keeps_shuClose H ?_ | split | dsimp only

theorem keeps_zeroisePages {P : State → Prop} {s : State} {fn : Nat} (H : Keeps P 0x800) (h0 : P s) : P (State.zeroisePages s fn) := by
  unfold State.zeroisePages
  with_reducible repeat' first
    | assumption | intro _ | refine keeps_upCip H ?_ | split | dsimp only

theorem keeps_resetCallFn {P : State → Prop} {s : State} {fn : Nat} (H : Keeps P 0x400000) (h0 : P s) : P (State.resetCallFn s fn) := by
  unfold State.resetCallFn
  with_reducible repeat' first
    | assumption | intro _ | refine keeps_upCall H ?_ | split | dsimp only

theorem keeps_eachCk {P : State → Prop} {s : State} {f : State → Nat → State} (h0 : P s) (h1 : ∀ y1 y2, P y1 → P (f y1 y2)) : P
    (State.eachCk s f) := by
  unfold State.eachCk
  with_reducible repeat' first
    | assumption | intro _ | refine h1 _ _ ?_ | refine keeps_foldl ?_ ?_ | split | dsimp only

theorem keeps_freeGuards {P : State → Prop} {s : State} {j : CkJob} (H : Keeps P 0x20000) (h0 : P s) : P (State.freeGuards s j) := by
  unfold State.freeGuards
  with_reducible repeat' first
    | assumption | intro _ | refine keeps_foldl ?_ ?_ | refine keeps_upCell H ?_ | split | dsimp only

theorem keeps_ckpClose {P : State → Prop} {s : State} {h : Nat} (H : Keeps P 0x6ca05d3) (h0 : P s) : P (State.ckpClose s h) := by
  have H1 : Keeps P 0x80000 := H.mono rfl
  have H2 : Keeps P 0x20000 := H.mono rfl
  have H3 : Keeps P 0x80 := H.mono rfl
  have H4 : Keeps P 0x100 := H.mono rfl
  have H5 : Keeps P 0x6c00553 := H.mono rfl
  unfold State.ckpClose
  with_reducible repeat' first
    | assumption | intro _ | refine keeps_upCkp H1 ?_ | refine keeps_freeGuards H2 ?_ | refine keeps_intDropIf H3 ?_
    | refine keeps_regionDel H4 ?_ | refine keeps_finishAll H5 ?_ | split | dsimp only

theorem keeps_accPut {P : State → Prop} {s : State} {a : Nat} {bar : Nat} {off : Nat} {b : Bytes} (H : Keeps P 0x1) (h0 : P s) : P
    (State.accPut s a bar off b) := by
  unfold State.accPut
  with_reducible repeat' first
    | assumption | intro _ | refine keeps_emit H ?_ | split | dsimp only

theorem keeps_upSrc {P : State → Prop} {s : State} {n : Nat} {f : CallSrc → CallSrc} (H : Keeps P 0x400000) (h0 : P s) : P (State.upSrc s n
    f) := by
  unfold State.upSrc
  with_reducible repeat' first
    | assumption | intro _ | refine keeps_upCall H ?_ | split | dsimp only

theorem keeps_raise {P : State → Prop} {s : State} {n : Nat} (H : Keeps P 0x4400111) (h0 : P s) : P (State.raise s n) := by
  have H1 : Keeps P 0x400000 := H.mono rfl
  unfold State.raise
  with_reducible repeat' first
    | assumption | intro _ | refine keeps_upSrc H1 ?_ | refine keeps_watch H ?_ ?_ | split | dsimp only

theorem keeps_raiseFor {P : State → Prop} {s : State} {fn : Nat} {j : Nat} (H : Keeps P 0x4400111) (h0 : P s) : P (State.raiseFor s fn j) :=
    by
  have H1 : Keeps P 0x400000 := H.mono rfl
  unfold State.raiseFor
  with_reducible repeat' first
    | assumption | intro _ | refine keeps_upCall H1 ?_ | refine keeps_raise H ?_ | split | dsimp only

theorem keeps_latchFire {P : State → Prop} {s : State} {n : Nat} (H : Keeps P 0x4430113) (h0 : P s) : P (State.latchFire s n) := by
  have H1 : Keeps P 0x10000 := H.mono rfl
  have H2 : Keeps P 0x4400111 := H.mono rfl
  have H3 : Keeps P 0x20000 := H.mono rfl
  have H4 : Keeps P 0x4000112 := H.mono rfl
  unfold State.latchFire
  with_reducible repeat' first
    | assumption | intro _ | refine keeps_upFeed H1 ?_ | refine keeps_raiseFor H2 ?_ | refine keeps_upCell H3 ?_ | refine keeps_gctr H4 ?_
    | refine keeps_note H2 ?_ | refine keeps_withObs H2 ?_ ?_ | split | dsimp only

theorem keeps_latchSet {P : State → Prop} {s : State} {n : Nat} {v : Nat} (H : Keeps P 0x4430113) (h0 : P s) : P (State.latchSet s n v) :=
    by
  have H1 : Keeps P 0x20000 := H.mono rfl
  unfold State.latchSet
  with_reducible repeat' first
    | assumption | intro _ | refine keeps_latchFire H ?_ | refine keeps_upCell H1 ?_ | split | dsimp only

theorem keeps_setGuard {P : State → Prop} {s : State} {j : CkJob} {g : Nat} {v : Nat} (H : Keeps P 0x4430113) (h0 : P s) : P (State.setGuard
    s j g v) := by
  have H1 : Keeps P 0x1 := H.mono rfl
  unfold State.setGuard
  with_reducible repeat' first
    | assumption | intro _ | refine keeps_foldl ?_ ?_ | refine keeps_latchSet H ?_ | refine keeps_accPut H1 ?_ | split | dsimp only

theorem keeps_setGuards {P : State → Prop} {s : State} {j : CkJob} {l : List Nat} {v : Nat} (H : Keeps P 0x4430113) (h0 : P s) : P
    (State.setGuards s j l v) := by
  unfold State.setGuards
  with_reducible repeat' first
    | assumption | intro _ | refine keeps_foldl ?_ ?_ | refine keeps_setGuard H ?_ | split | dsimp only

theorem keeps_upCk {P : State → Prop} {s : State} {h : Nat} {f : CkJob → CkJob} (H : Keeps P 0x80000) (h0 : P s) : P (State.upCk s h f) :=
    by
  unfold State.upCk
  with_reducible repeat' first
    | assumption | intro _ | refine keeps_upCkp H ?_ | split | dsimp only

theorem keeps_upBank {P : State → Prop} {s : State} {jobId : Nat} {n : Nat} {f : Bank → Bank} (H : Keeps P 0x80000) (h0 : P s) : P
    (State.upBank s jobId n f) := by
  unfold State.upBank
  with_reducible repeat' first
    | assumption | intro _ | refine keeps_upCkp H ?_ | split | dsimp only

theorem keeps_ckpFlag {P : State → Prop} {s : State} {b : Nat} {f : Ckp → Ckp} (H : Keeps P 0x4480111) (h0 : P s) : P (State.ckpFlag s b f)
    := by
  have H1 : Keeps P 0x80000 := H.mono rfl
  have H2 : Keeps P 0x4400111 := H.mono rfl
  unfold State.ckpFlag
  with_reducible repeat' first
    | assumption | intro _ | refine keeps_upCkp H1 ?_ | refine keeps_flag H2 ?_ ?_ | split | dsimp only

theorem keeps_endCapture {P : State → Prop} {s : State} {h : Nat} {step : Nat} {status : Nat} {detail : Nat} (H : Keeps P 0x6c00553) (h0 : P
    s) : P (State.endCapture s h step status detail) := by
  unfold State.endCapture
  with_reducible repeat' first
    | assumption | intro _ | refine keeps_finishAll H ?_ | split | dsimp only

theorem keeps_ckpNotify {P : State → Prop} {s : State} {h : Nat} {type : Nat} {step : Nat} {seq : Nat} (H : Keeps P 0x4480513) (h0 : P s) :
    P (State.ckpNotify s h type step seq) := by
  have H1 : Keeps P 0x80000 := H.mono rfl
  have H2 : Keeps P 0x4400513 := H.mono rfl
  have H3 : Keeps P 0x2 := H.mono rfl
  unfold State.ckpNotify
  with_reducible repeat' first
    | assumption | intro _ | refine keeps_foldl ?_ ?_ | refine keeps_upCk H1 ?_ | refine keeps_qpWrite H2 ?_ | refine keeps_spent H3 ?_
    | split | dsimp only

theorem keeps_ckpAbandon {P : State → Prop} {s : State} {h : Nat} {code : Nat} (H : Keeps P 0x7cf0553) (h0 : P s) : P (State.ckpAbandon s h
    code) := by
  have H1 : Keeps P 0x4480513 := H.mono rfl
  have H2 : Keeps P 0x6c00553 := H.mono rfl
  have H3 : Keeps P 0x4480111 := H.mono rfl
  have H4 : Keeps P 0x80000 := H.mono rfl
  have H5 : Keeps P 0x4430113 := H.mono rfl
  have H6 : Keeps P 0x7c40113 := H.mono rfl
  unfold State.ckpAbandon
  with_reducible repeat' first
    | assumption | intro _ | refine keeps_ckpNotify H1 ?_ | refine keeps_endCapture H2 ?_ | refine keeps_ckpFlag H3 ?_
    | refine keeps_upBank H4 ?_ | refine keeps_upCk H4 ?_ | refine keeps_setGuards H5 ?_ | refine keeps_record H6 ?_ | split | dsimp only

theorem keeps_ckpFlr {P : State → Prop} {s : State} (H : Keeps P 0x7cf05d3) (h0 : P s) : P (State.ckpFlr s) := by
  have H1 : Keeps P 0x7cf0553 := H.mono rfl
  have H2 : Keeps P 0x6ca05d3 := H.mono rfl
  unfold State.ckpFlr
  with_reducible repeat' first
    | assumption | intro _ | refine keeps_ckpAbandon H1 ?_ | refine keeps_ckpClose H2 ?_ | refine keeps_eachCk ?_ ?_ | split | dsimp only

theorem keeps_upVf {P : State → Prop} {s : State} {v : Nat} {f : Vf → Vf} (H : Keeps P 0x800000) (h0 : P s) : P (State.upVf s v f) := by
  unfold State.upVf
  with_reducible repeat' first
    | assumption | intro _ | refine keeps_upHost H ?_ | split | dsimp only

theorem keeps_vfDiscard {P : State → Prop} {s : State} {v : Nat} (H : Keeps P 0x6c00553) (h0 : P s) : P (State.vfDiscard s v) := by
  have H1 : Keeps P 0x800000 := H.mono rfl
  unfold State.vfDiscard
  with_reducible repeat' first
    | assumption | intro _ | refine keeps_upVf H1 ?_ | refine keeps_finishAll H ?_ | split | dsimp only

theorem keeps_flrObjects {P : State → Prop} {s : State} {fn : Nat} (H : Keeps P 0x7fffdf7) (h0 : P s) : P (State.flrObjects s fn) := by
  have H1 : Keeps P 0x4000000 := H.mono rfl
  have H2 : Keeps P 0x6c00553 := H.mono rfl
  have H3 : Keeps P 0x7cf05d3 := H.mono rfl
  have H4 : Keeps P 0x400000 := H.mono rfl
  have H5 : Keeps P 0x800 := H.mono rfl
  have H6 : Keeps P 0x1480 := H.mono rfl
  have H7 : Keeps P 0x7c47557 := H.mono rfl
  have H8 : Keeps P 0x6c385f3 := H.mono rfl
  have H9 : Keeps P 0x7c5f5f7 := H.mono rfl
  have H10 : Keeps P 0x20 := H.mono rfl
  have H11 : Keeps P 0x6c00dd3 := H.mono rfl
  have H12 : Keeps P 0x6f00557 := H.mono rfl
  unfold State.flrObjects
  with_reducible repeat' first
    | assumption | intro _ | refine keeps_upObs H1 ?_ | refine keeps_vfDiscard H2 ?_ | refine keeps_ckpFlr H3 ?_
    | refine keeps_resetCallFn H4 ?_ | refine keeps_zeroisePages H5 ?_ | refine keeps_shuCloseFn H6 ?_ | refine keeps_tapResetFn H7 ?_
    | refine keeps_feedFnReset H8 ?_ | refine keeps_loomResetFn H9 ?_ | refine keeps_upEvents H10 ?_ | refine keeps_ctrlReset H11 ?_
    | refine keeps_disableCmd H12 ?_ | split | dsimp only

theorem keeps_flrBegin {P : State → Prop} {s : State} {fn : Nat} (H : Keeps P 0x7fffdf7) (h0 : P s) : P (State.flrBegin s fn) := by
  have H1 : Keeps P 0x800000 := H.mono rfl
  unfold State.flrBegin
  with_reducible repeat' first
    | assumption | intro _ | refine keeps_upHost H1 ?_ | refine keeps_flrObjects H ?_ | split | dsimp only

theorem keeps_vfsOff {P : State → Prop} {s : State} (H : Keeps P 0x7fffdf7) (h0 : P s) : P (State.vfsOff s) := by
  have H1 : Keeps P 0x800 := H.mono rfl
  have H2 : Keeps P 0x20000 := H.mono rfl
  have H3 : Keeps P 0x400000 := H.mono rfl
  have H4 : Keeps P 0x80 := H.mono rfl
  have H5 : Keeps P 0x40 := H.mono rfl
  have H6 : Keeps P 0x800000 := H.mono rfl
  unfold State.vfsOff
  with_reducible repeat' first
    | assumption | intro _ | refine keeps_foldl ?_ ?_ | refine keeps_foldl_fst ?_ ?_ | refine keeps_foldl_snd ?_ ?_
    | refine keeps_upCip H1 ?_ | refine keeps_upLat H2 ?_ | refine keeps_upCall H3 ?_ | refine keeps_upSto H4 ?_ | refine keeps_upCmd H5 ?_
    | refine keeps_upHost H6 ?_ | refine keeps_flrObjects H ?_ | split | dsimp only

theorem keeps_flrFn {P : State → Prop} {s : State} {fn : Nat} (H : Keeps P 0x7fffdf7) (h0 : P s) : P (State.flrFn s fn) := by
  unfold State.flrFn
  with_reducible repeat' first
    | assumption | intro _ | refine keeps_vfsOff H ?_ | refine keeps_flrBegin H ?_ | split | dsimp only

theorem keeps_execHpPerstAssert {P : State → Prop} {s : State} (H : Keeps P 0x17fffdf7) (h0 : P s) : ResAll P (execHpPerstAssert s) := by
  have H1 : Keeps P 0x10 := H.mono rfl
  have H2 : Keeps P 0x7fffdf7 := H.mono rfl
  have H3 : Keeps P 0x10000010 := H.mono rfl
  unfold execHpPerstAssert
  with_reducible repeat' first
    | assumption | intro _ | refine res_next ?_ | refine keeps_upAon H1 ?_ | refine keeps_flrFn H2 ?_ | refine keeps_mainDown H3 ?_ | split
    | dsimp only

theorem keeps_execPerstResetHoldExpiry {P : State → Prop} {s : State} (H : Keeps P 0x1fc47557) (h0 : P s) : ResAll P
    (execPerstResetHoldExpiry s) := by
  have H1 : Keeps P 0x10 := H.mono rfl
  unfold execPerstResetHoldExpiry
  with_reducible repeat' first
    | assumption | intro _ | refine res_next ?_ | refine keeps_upAon H1 ?_ | refine keeps_mainRelease H ?_
    | refine res_get ‹_ = Host.Outcome.next _› (keeps_onAlways ?_ ?_) | refine keeps_onAlways ?_ ?_ | split | dsimp only

theorem keeps_execHpPerstRelease {P : State → Prop} {s : State} (H : Keeps P 0x10) (h0 : P s) : ResAll P (execHpPerstRelease s) := by
  unfold execHpPerstRelease
  with_reducible repeat' first
    | assumption | intro _ | refine res_next ?_ | refine keeps_upAon H ?_ | split | dsimp only

theorem keeps_onMainIf {P : State → Prop} {s : State} {p : Bool} {f : State → State} (h0 : P s) (h2 : ∀ y1, P y1 → P (f y1)) : ResAll P
    (onMainIf s p f) := by
  unfold onMainIf
  with_reducible repeat' first
    | assumption | intro _ | refine h2 _ ?_ | refine res_next ?_ | split | dsimp only

theorem keeps_execHostLinkUp {P : State → Prop} {s : State} (H : Keeps P 0x10) (h0 : P s) : ResAll P (execHostLinkUp s) := by
  unfold execHostLinkUp
  with_reducible repeat' first
    | assumption | intro _ | refine res_next ?_ | refine keeps_upAon H ?_ | refine res_get ‹_ = Host.Outcome.next _› (keeps_onMainIf ?_ ?_)
    | refine keeps_onMainIf ?_ ?_ | split | dsimp only

theorem keeps_execTableauNFall {P : State → Prop} {s : State} (H : Keeps P 0x110) (h0 : P s) : ResAll P (execTableauNFall s) := by
  unfold execTableauNFall
  with_reducible repeat' first
    | assumption | intro _ | refine res_next ?_ | refine keeps_enterTableau H ?_
    | refine res_get ‹_ = Host.Outcome.next _› (keeps_onAlways ?_ ?_) | refine keeps_onAlways ?_ ?_ | split | dsimp only

theorem keeps_execAlertNAssert {P : State → Prop} {s : State} (H : Keeps P 0x2000000) (h0 : P s) : ResAll P (execAlertNAssert s) := by
  unfold execAlertNAssert
  with_reducible repeat' first
    | assumption | intro _ | refine res_next ?_ | refine keeps_upSm H ?_ | refine res_get ‹_ = Host.Outcome.next _› (keeps_onAlways ?_ ?_)
    | refine keeps_onAlways ?_ ?_ | split | dsimp only

theorem keeps_execDynamicAddressAssigned {P : State → Prop} {addr : Nat} {s : State} (H : Keeps P 0x2000000) (h1 : P s) : ResAll P
    (execDynamicAddressAssigned addr s) := by
  unfold execDynamicAddressAssigned
  with_reducible repeat' first
    | assumption | intro _ | refine res_next ?_ | refine keeps_upSm H ?_ | refine res_get ‹_ = Host.Outcome.next _› (keeps_onAlways ?_ ?_)
    | refine keeps_onAlways ?_ ?_ | split | dsimp only

theorem keeps_accessError {P : State → Prop} {s : State} (H : Keeps P 0x40000) (h0 : P s) : P (State.accessError s) := by
  unfold State.accessError
  with_reducible repeat' first
    | assumption | intro _ | refine keeps_upRas H ?_ | split | dsimp only

theorem keeps_dropHeld {P : State → Prop} {s : State} {fn : Nat} {off : Nat} (H : Keeps P 0x8) (h0 : P s) : P (State.dropHeld s fn off) :=
    by
  unfold State.dropHeld
  with_reducible repeat' first
    | assumption | intro _ | refine keeps_upGlb H ?_ | split | dsimp only

theorem keeps_write64 {P : State → Prop} {s : State} {a : Access} {off : Nat} {old : Nat} {f : State → Nat → Bool → State} (H : Keeps P
    0x40008) (h0 : P s) (h4 : ∀ y1 y2 y3, P y1 → P (f y1 y2 y3)) : P (State.write64 s a off old f) := by
  have H1 : Keeps P 0x8 := H.mono rfl
  have H2 : Keeps P 0x40000 := H.mono rfl
  unfold State.write64
  with_reducible repeat' first
    | assumption | intro _ | refine h4 _ _ _ ?_ | refine keeps_upGlb H1 ?_ | refine keeps_dropHeld H1 ?_ | refine keeps_accessError H2 ?_
    | split | dsimp only

theorem keeps_badState {P : State → Prop} : VAll P badState := by
  unfold badState
  with_reducible repeat' first
    | assumption | intro _ | exact VAll.refuse _ _ | exact VAll.refuseAt _ _ _ | refine VAll.done _ _ _ _ ?_
    | refine VAll.doneAs _ _ _ _ _ ?_ | refine VAll.wait _ _ _ ?_ | split | dsimp only

theorem keeps_noResource {P : State → Prop} : VAll P noResource := by
  unfold noResource
  with_reducible repeat' first
    | assumption | intro _ | exact VAll.refuse _ _ | exact VAll.refuseAt _ _ _ | refine VAll.done _ _ _ _ ?_
    | refine VAll.doneAs _ _ _ _ _ ?_ | refine VAll.wait _ _ _ ?_ | split | dsimp only

theorem keeps_Verdict_ok {P : State → Prop} {t : State} (h0 : P t) : VAll P (Verdict.ok t) := by
  unfold Verdict.ok
  with_reducible repeat' first
    | assumption | intro _ | exact VAll.refuse _ _ | exact VAll.refuseAt _ _ _ | refine VAll.done _ _ _ _ ?_
    | refine VAll.doneAs _ _ _ _ _ ?_ | refine VAll.wait _ _ _ ?_ | split | dsimp only

theorem keeps_opCallAssign {P : State → Prop} (H : Keeps P 0x400000) : SpecAll P opCallAssign := by
  refine ⟨fun _ _ _ _ _ => ?_, fun _ _ _ _ => ?_⟩ <;> dsimp only [opCallAssign]
  with_reducible repeat' first
    | assumption | intro _ | exact VAll.refuse _ _ | exact VAll.refuseAt _ _ _ | refine VAll.done _ _ _ _ ?_
    | refine VAll.doneAs _ _ _ _ _ ?_ | refine VAll.wait _ _ _ ?_ | refine keeps_foldl ?_ ?_ | refine keeps_foldl_fst ?_ ?_
    | refine keeps_foldl_snd ?_ ?_ | refine keeps_upCall H ?_ | refine keeps_Verdict_ok ?_ | refine keeps_noResource
    | refine keeps_badState | split | dsimp only

theorem keeps_countErr {P : State → Prop} {s : State} {fn : Nat} (H : Keeps P 0x40) (h0 : P s) : P (State.countErr s fn) := by
  unfold State.countErr
  with_reducible repeat' first
    | assumption | intro _ | refine keeps_upFn H ?_ | split | dsimp only

theorem keeps_carry {P : State → Prop} {s : State} {sp : OpSpec} {c : Caller} {h : Hdr} {p : Bytes} {r : Rep} (H : Keeps P 0x6c00553) (h0 :
    P s) (h1 : SpecAll P sp) : P (State.carry s sp c h p r) := by
  have H1 : Keeps P 0x40 := H.mono rfl
  have H2 : Keeps P 0x4800001 := H.mono rfl
  unfold State.carry
  with_reducible repeat' first
    | assumption | intro _ | refine ver_done ‹_› (h1.run _ _ _ _ ?_) | refine ver_doneAs ‹_› (h1.run _ _ _ _ ?_)
    | refine ver_wait ‹_› (h1.run _ _ _ _ ?_) | refine h1.run _ _ _ _ ?_ | refine h1.authFail _ _ _ ?_ | refine keeps_upCmd H1 ?_
    | refine keeps_countErr H1 ?_ | refine keeps_OpSpec_run ?_ ?_ | refine eq_snd ‹_ = _› (keeps_snapBegin H2 ?_)
    | refine keeps_snapBegin H2 ?_ | refine keeps_reply H ?_ | refine keeps_snapEnd H2 ?_ | split | dsimp only

theorem keeps_regionAdd {P : State → Prop} {s : State} {r : Region} (H : Keeps P 0x100) (h0 : P s) : OptAll (fun x => P x.2)
    (State.regionAdd s r) := by
  unfold State.regionAdd
  with_reducible repeat' first
    | assumption | intro _ | exact opt_none | refine opt_some ?_ | refine opt_ite ?_ ?_ | refine keeps_upNet H ?_ | split | dsimp only

theorem keeps_fanoutDrop {P : State → Prop} {s : State} {f : Fanout} (H : Keeps P 0x144) (h0 : P s) : P (State.fanoutDrop s f) := by
  have H1 : Keeps P 0x40 := H.mono rfl
  have H2 : Keeps P 0x100 := H.mono rfl
  have H3 : Keeps P 0x4 := H.mono rfl
  unfold State.fanoutDrop
  with_reducible repeat' first
    | assumption | intro _ | refine keeps_upCmd H1 ?_ | refine keeps_regionDel H2 ?_ | refine keeps_gClear H3 ?_ | split | dsimp only

theorem keeps_endFanout {P : State → Prop} {s : State} {f : Fanout} (H : Keeps P 0x6c00557) (h0 : P s) : P (State.endFanout s f) := by
  have H1 : Keeps P 0x144 := H.mono rfl
  have H2 : Keeps P 0x6c00553 := H.mono rfl
  have H3 : Keeps P 0x4800001 := H.mono rfl
  unfold State.endFanout
  with_reducible repeat' first
    | assumption | intro _ | refine keeps_fanoutDrop H1 ?_ | refine keeps_reply H2 ?_ | refine keeps_hostWrite H3 ?_ | split | dsimp only

theorem keeps_fwdKick {P : State → Prop} {s : State} {id : Nat} (H : Keeps P 0x4400513) (h0 : P s) : P (State.fwdKick s id) := by
  have H1 : Keeps P 0x100 := H.mono rfl
  unfold State.fwdKick
  with_reducible repeat' first
    | assumption | intro _ | refine keeps_upMember H1 ?_ | refine keeps_State_mboxWrite H ?_ | split | dsimp only

theorem keeps_forward {P : State → Prop} {s : State} {opcode : Nat} {c : Caller} {x : FetchedCmd} {st : Nat} (H : Keeps P 0x6c00557) (h0 : P
    s) : P (State.forward s opcode c x st) := by
  have H1 : Keeps P 0x40 := H.mono rfl
  have H2 : Keeps P 0x4400513 := H.mono rfl
  have H3 : Keeps P 0x100 := H.mono rfl
  have H4 : Keeps P 0x4800004 := H.mono rfl
  unfold State.forward
  with_reducible repeat' first
    | assumption | intro _ | refine keeps_foldl ?_ ?_ | refine keeps_foldl_fst ?_ ?_ | refine keeps_foldl_snd ?_ ?_
    | refine opt_foldl ?_ ?_ | refine keeps_upCmd H1 ?_ | refine keeps_fwdKick H2 ?_ | refine keeps_endFanout H ?_
    | refine opt_get2 ‹_ = some (_, _)› (keeps_regionAdd H3 ?_) | refine keeps_regionAdd H3 ?_ | refine keeps_upMember H3 ?_
    | refine keeps_gWrite H4 ?_ | refine opt_get2 ‹_ = some (_, _)› ?_ | refine opt_ite ?_ ?_ | exact opt_none | refine opt_some ?_
    | refine opt_map2 (P := P) ?_ ?_ | split | dsimp only

theorem keeps_hold {P : State → Prop} {s : State} {f : FetchedCmd} (H : Keeps P 0x40) (h0 : P s) : P (State.hold s f) := by
  unfold State.hold
  with_reducible repeat' first
    | assumption | intro _ | refine keeps_upCmd H ?_ | split | dsimp only

theorem keeps_start {P : State → Prop} {s : State} {sp : OpSpec} {f : FetchedCmd} (H : Keeps P 0x6c00557) (h0 : P s) (h1 : SpecAll P sp) : P
    (State.start s sp f) := by
  have H1 : Keeps P 0x40 := H.mono rfl
  have H2 : Keeps P 0x6c00553 := H.mono rfl
  have H3 : Keeps P 0x4400111 := H.mono rfl
  unfold State.start
  with_reducible repeat' first
    | assumption | intro _ | refine ver_done ‹_› (h1.run _ _ _ _ ?_) | refine ver_doneAs ‹_› (h1.run _ _ _ _ ?_)
    | refine ver_wait ‹_› (h1.run _ _ _ _ ?_) | refine h1.run _ _ _ _ ?_ | refine h1.authFail _ _ _ ?_ | refine keeps_hold H1 ?_
    | refine keeps_forward H ?_ | refine keeps_OpSpec_authFail ?_ ?_ | refine keeps_carry H2 ?_ ?_ | refine keeps_countErr H1 ?_
    | refine keeps_reply H2 ?_ | refine keeps_note H3 ?_ | split | dsimp only

theorem keeps_proceed {P : State → Prop} {s : State} {sp : OpSpec} {f : FetchedCmd} (H : Keeps P 0x6c00557) (h0 : P s) (h1 : SpecAll P sp) :
    P (State.proceed s sp f) := by
  have H1 : Keeps P 0x40 := H.mono rfl
  have H2 : Keeps P 0x6c00553 := H.mono rfl
  unfold State.proceed
  with_reducible repeat' first
    | assumption | intro _ | refine ver_done ‹_› (h1.run _ _ _ _ ?_) | refine ver_doneAs ‹_› (h1.run _ _ _ _ ?_)
    | refine ver_wait ‹_› (h1.run _ _ _ _ ?_) | refine h1.run _ _ _ _ ?_ | refine h1.authFail _ _ _ ?_ | refine keeps_upCmd H1 ?_
    | refine keeps_start H ?_ ?_ | refine keeps_carry H2 ?_ ?_ | split | dsimp only

theorem keeps_hostRead {P : State → Prop} {s : State} {fn : Nat} {a : Nat} {n : Nat} (H : Keeps P 0x4000001) (h0 : P s) : P (State.hostRead
    s fn a n) := by
  have H1 : Keeps P 0x4000000 := H.mono rfl
  have H2 : Keeps P 0x1 := H.mono rfl
  unfold State.hostRead
  with_reducible repeat' first
    | assumption | intro _ | refine keeps_fnCtr H1 ?_ | refine keeps_emit H2 ?_ | refine keeps_ao H1 ?_ | split | dsimp only

theorem keeps_readSlots {P : State → Prop} {s : State} {fn : Nat} {qp : Nat} {h : Hdr} (H : Keeps P 0x4000001) (h0 : P s) : P
    (State.readSlots s fn qp h) := by
  unfold State.readSlots
  with_reducible repeat' first
    | assumption | intro _ | refine keeps_hostRead H ?_ | split | dsimp only

theorem keeps_fetchSlots {P : State → Prop} {s : State} {fn : Nat} {qp : Nat} {h : Hdr} {opcode : Nat} (H : Keeps P 0x4400151) (h0 : P s) :
    P (State.fetchSlots s fn qp h opcode) := by
  have H1 : Keeps P 0x40 := H.mono rfl
  have H2 : Keeps P 0x4000001 := H.mono rfl
  have H3 : Keeps P 0x4400111 := H.mono rfl
  unfold State.fetchSlots
  with_reducible repeat' first
    | assumption | intro _ | refine keeps_upCmd H1 ?_ | refine keeps_readSlots H2 ?_ | refine keeps_hostRead H2 ?_
    | refine keeps_upQp H1 ?_ | refine keeps_note H3 ?_ | split | dsimp only

theorem keeps_mgmtTake {P : State → Prop} {s : State} {sp : OpSpec} {h : Hdr} {p : Bytes} {sess : Nat} (H : Keeps P 0x6c00557) (h0 : P s)
    (h1 : SpecAll P sp) : P (State.mgmtTake s sp h p sess) := by
  have H1 : Keeps P 0x2000000 := H.mono rfl
  have H2 : Keeps P 0x40 := H.mono rfl
  unfold State.mgmtTake
  with_reducible repeat' first
    | assumption | intro _ | refine ver_done ‹_› (h1.run _ _ _ _ ?_) | refine ver_doneAs ‹_› (h1.run _ _ _ _ ?_)
    | refine ver_wait ‹_› (h1.run _ _ _ _ ?_) | refine h1.run _ _ _ _ ?_ | refine h1.authFail _ _ _ ?_ | refine keeps_upSm H1 ?_
    | refine keeps_upCmd H2 ?_ | refine keeps_proceed H ?_ ?_ | refine keeps_start H ?_ ?_ | split | dsimp only

theorem keeps_headTake {P : State → Prop} {s : State} {sp : OpSpec} {h : Hdr} {p : Bytes} {peer : Nat} (H : Keeps P 0x6c00557) (h0 : P s)
    (h1 : SpecAll P sp) : P (State.headTake s sp h p peer) := by
  have H1 : Keeps P 0x40 := H.mono rfl
  unfold State.headTake
  with_reducible repeat' first
    | assumption | intro _ | refine ver_done ‹_› (h1.run _ _ _ _ ?_) | refine ver_doneAs ‹_› (h1.run _ _ _ _ ?_)
    | refine ver_wait ‹_› (h1.run _ _ _ _ ?_) | refine h1.run _ _ _ _ ?_ | refine h1.authFail _ _ _ ?_ | refine keeps_upCmd H1 ?_
    | refine keeps_proceed H ?_ ?_ | refine keeps_start H ?_ ?_ | split | dsimp only

theorem keeps_runPkt {P : State → Prop} {sp : OpSpec} {h : Hdr} {p : Bytes} {s : State} (H : Keeps P 0x6c00557) (h0 : SpecAll P sp) (h3 : P
    s) : ResAll P (runPkt sp h p s) := by
  have H1 : Keeps P 0x40 := H.mono rfl
  have H2 : Keeps P 0x4400151 := H.mono rfl
  have H3 : Keeps P 0x4000001 := H.mono rfl
  unfold runPkt
  with_reducible repeat' first
    | assumption | intro _ | refine ver_done ‹_› (h0.run _ _ _ _ ?_) | refine ver_doneAs ‹_› (h0.run _ _ _ _ ?_)
    | refine ver_wait ‹_› (h0.run _ _ _ _ ?_) | refine h0.run _ _ _ _ ?_ | refine h0.authFail _ _ _ ?_ | refine res_next ?_
    | refine keeps_upCmd H1 ?_ | refine keeps_headTake H ?_ ?_ | refine keeps_mgmtTake H ?_ ?_ | refine keeps_fetchSlots H2 ?_
    | refine keeps_readSlots H3 ?_ | refine keeps_proceed H ?_ ?_ | refine keeps_start H ?_ ?_ | refine keeps_qpError H2 ?_
    | refine keeps_upQp H1 ?_ | split | dsimp only

theorem keeps_execCallAssign {P : State → Prop} {h : Hdr} {p : Bytes} {s : State} (H : Keeps P 0x6c00557) (h2 : P s) : ResAll P
    (execCallAssign h p s) := by
  have H1 : Keeps P 0x400000 := H.mono rfl
  unfold execCallAssign
  with_reducible repeat' first
    | assumption | intro _ | refine res_next ?_ | refine res_get ‹_ = Host.Outcome.next _› (keeps_runPkt H ?_ ?_)
    | refine keeps_runPkt H ?_ ?_ | refine keeps_opCallAssign H1 | split | dsimp only

theorem keeps_frozenWrite {P : State → Prop} {s : State} {fn : Nat} (H : Keeps P 0x800000) (h0 : P s) : P (State.frozenWrite s fn) := by
  unfold State.frozenWrite
  with_reducible repeat' first
    | assumption | intro _ | refine keeps_upHost H ?_ | split | dsimp only

theorem keeps_barWrite {P : State → Prop} {fn : Nat} {off : Nat} {n : Nat} {s : State} {f : State → State} (H : Keeps P 0x4800001) (h3 : P
    s) (h4 : ∀ y1, P y1 → P (f y1)) : ResAll P (barWrite fn off n s f) := by
  have H1 : Keeps P 0x800000 := H.mono rfl
  have H2 : Keeps P 0x1 := H.mono rfl
  have H3 : Keeps P 0x4000000 := H.mono rfl
  unfold barWrite
  with_reducible repeat' first
    | assumption | intro _ | refine h4 _ ?_ | refine res_next ?_ | refine keeps_frozenWrite H1 ?_ | refine keeps_emit H2 ?_
    | refine keeps_ao H3 ?_ | split | dsimp only

theorem keeps_panelWrite {P : State → Prop} {a : Access} {reg : Nat} {s : State} {f : State → Nat → State} (H : Keeps P 0x4840009) (h2 : P
    s) (h3 : ∀ y1 y2, P y1 → P (f y1 y2)) : ResAll P (panelWrite a reg s f) := by
  have H1 : Keeps P 0x4800001 := H.mono rfl
  have H2 : Keeps P 0x40008 := H.mono rfl
  unfold panelWrite
  with_reducible repeat' first
    | assumption | intro _ | refine h3 _ _ ?_ | refine res_next ?_ | refine keeps_foldl ?_ ?_
    | refine res_get ‹_ = Host.Outcome.next _› (keeps_barWrite H1 ?_ ?_) | refine keeps_barWrite H1 ?_ ?_ | refine keeps_write64 H2 ?_ ?_
    | split | dsimp only

theorem keeps_execCallMaskSet {P : State → Prop} {a : Access} {s : State} (H : Keeps P 0x4c40009) (h1 : P s) : ResAll P (execCallMaskSet a
    s) := by
  have H1 : Keeps P 0x4840009 := H.mono rfl
  have H2 : Keeps P 0x400000 := H.mono rfl
  unfold execCallMaskSet
  with_reducible repeat' first
    | assumption | intro _ | refine res_next ?_ | refine res_get ‹_ = Host.Outcome.next _› (keeps_panelWrite H1 ?_ ?_)
    | refine keeps_panelWrite H1 ?_ ?_ | refine keeps_upSrc H2 ?_ | split | dsimp only

theorem keeps_execCallMaskClr {P : State → Prop} {a : Access} {s : State} (H : Keeps P 0x4c40119) (h1 : P s) : ResAll P (execCallMaskClr a
    s) := by
  have H1 : Keeps P 0x4840009 := H.mono rfl
  have H2 : Keeps P 0x400000 := H.mono rfl
  have H3 : Keeps P 0x4400111 := H.mono rfl
  unfold execCallMaskClr
  with_reducible repeat' first
    | assumption | intro _ | refine res_next ?_ | refine res_get ‹_ = Host.Outcome.next _› (keeps_panelWrite H1 ?_ ?_)
    | refine keeps_panelWrite H1 ?_ ?_ | refine keeps_upSrc H2 ?_ | refine keeps_watch H3 ?_ ?_ | split | dsimp only

theorem keeps_execCallPendSet {P : State → Prop} {a : Access} {s : State} (H : Keeps P 0x4c40119) (h1 : P s) : ResAll P (execCallPendSet a
    s) := by
  have H1 : Keeps P 0x4840009 := H.mono rfl
  have H2 : Keeps P 0x4400111 := H.mono rfl
  unfold execCallPendSet
  with_reducible repeat' first
    | assumption | intro _ | refine res_next ?_ | refine res_get ‹_ = Host.Outcome.next _› (keeps_panelWrite H1 ?_ ?_)
    | refine keeps_panelWrite H1 ?_ ?_ | refine keeps_raise H2 ?_ | split | dsimp only

theorem keeps_execCallPendClr {P : State → Prop} {a : Access} {s : State} (H : Keeps P 0x4c40009) (h1 : P s) : ResAll P (execCallPendClr a
    s) := by
  have H1 : Keeps P 0x4840009 := H.mono rfl
  have H2 : Keeps P 0x400000 := H.mono rfl
  unfold execCallPendClr
  with_reducible repeat' first
    | assumption | intro _ | refine res_next ?_ | refine res_get ‹_ = Host.Outcome.next _› (keeps_panelWrite H1 ?_ ?_)
    | refine keeps_panelWrite H1 ?_ ?_ | refine keeps_upSrc H2 ?_ | split | dsimp only

theorem keeps_take {P : State → Prop} {s : State} {t : CallTarget} (H : Keeps P 0x400000) (h0 : P s) : P (State.take s t).2 := by
  unfold State.take
  with_reducible repeat' first
    | assumption | intro _ | exact opt_none | refine opt_some ?_ | refine opt_ite ?_ ?_ | refine keeps_upCall H ?_
    | refine keeps_upSrc H ?_ | refine keeps_upVec H ?_ | split | dsimp only

theorem keeps_execCallVTake {P : State → Prop} {fn : Nat} {vec : Nat} {s : State} (H : Keeps P 0x4c00001) (h2 : P s) : ResAll P
    (execCallVTake fn vec s) := by
  have H1 : Keeps P 0x400000 := H.mono rfl
  have H2 : Keeps P 0x4800001 := H.mono rfl
  unfold execCallVTake
  with_reducible repeat' first
    | assumption | intro _ | refine res_next ?_ | refine eq_snd ‹_ = _› (keeps_take H1 ?_) | refine keeps_take H1 ?_
    | refine res_get ‹_ = Host.Outcome.next _› (keeps_barWrite H2 ?_ ?_) | refine keeps_barWrite H2 ?_ ?_ | refine keeps_upVec H1 ?_
    | split | dsimp only

theorem keeps_stackFault {P : State → Prop} {s : State} {fn : Nat} {vec : Nat} {src : Nat} (H : Keeps P 0x7c40113) (h0 : P s) : P
    (State.stackFault s fn vec src) := by
  have H1 : Keeps P 0x400000 := H.mono rfl
  have H2 : Keeps P 0x4400111 := H.mono rfl
  unfold State.stackFault
  with_reducible repeat' first
    | assumption | intro _ | refine keeps_upCall H1 ?_ | refine keeps_record H ?_ | refine keeps_flag H2 ?_ ?_ | refine keeps_upVec H1 ?_
    | split | dsimp only

theorem keeps_tell {P : State → Prop} {s : State} {t : CallTarget} {at_ : Bool} (H : Keeps P 0x4400111) (h0 : P s) : P (State.tell s t at_)
    := by
  unfold State.tell
  with_reducible repeat' first
    | assumption | intro _ | refine keeps_withObs H ?_ ?_ | refine keeps_tell1 H ?_ | split | dsimp only

theorem keeps_popStack {P : State → Prop} {s : State} {t : CallTarget} (H : Keeps P 0x400000) (h0 : P s) : P (State.popStack s t) := by
  unfold State.popStack
  with_reducible repeat' first
    | assumption | intro _ | refine keeps_upCall H ?_ | refine keeps_upVec H ?_ | split | dsimp only

theorem keeps_execCallVDone {P : State → Prop} {fn : Nat} {vec : Nat} {src : Nat} {s : State} (H : Keeps P 0x7c40113) (h3 : P s) : ResAll P
    (execCallVDone fn vec src s) := by
  have H1 : Keeps P 0x400000 := H.mono rfl
  have H2 : Keeps P 0x4400111 := H.mono rfl
  have H3 : Keeps P 0x4800001 := H.mono rfl
  unfold execCallVDone
  with_reducible repeat' first
    | assumption | intro _ | refine res_next ?_ | refine keeps_popStack H1 ?_ | refine keeps_tell H2 ?_ | refine keeps_stackFault H ?_
    | refine res_get ‹_ = Host.Outcome.next _› (keeps_barWrite H3 ?_ ?_) | refine keeps_barWrite H3 ?_ ?_ | split | dsimp only

theorem keeps_execModerationExpiry {P : State → Prop} {fn : Nat} {vec : Nat} {s : State} (H : Keeps P 0x4400111) (h2 : P s) : ResAll P
    (execModerationExpiry fn vec s) := by
  unfold execModerationExpiry
  with_reducible repeat' first
    | assumption | intro _ | refine res_next ?_ | refine res_get ‹_ = Host.Outcome.next _› (keeps_onMainIf ?_ ?_)
    | refine keeps_onMainIf ?_ ?_ | refine keeps_withObs H ?_ ?_ | refine keeps_sendMsg H ?_ | split | dsimp only

theorem keeps_sendHeld {P : State → Prop} {s : State} {k : Nat} (H : Keeps P 0x4400111) (h0 : P s) : P (State.sendHeld s k) := by
  have H1 : Keeps P 0x400000 := H.mono rfl
  unfold State.sendHeld
  with_reducible repeat' first
    | assumption | intro _ | refine keeps_withObs H ?_ ?_ | refine keeps_sendMsg H ?_ | refine keeps_upVec H1 ?_ | split | dsimp only

theorem keeps_execMsixUnmask {P : State → Prop} {fn : Nat} {vec : Nat} {s : State} (H : Keeps P 0x4c00111) (h2 : P s) : ResAll P
    (execMsixUnmask fn vec s) := by
  have H1 : Keeps P 0x800000 := H.mono rfl
  have H2 : Keeps P 0x4400111 := H.mono rfl
  have H3 : Keeps P 0x4800001 := H.mono rfl
  have H4 : Keeps P 0x400000 := H.mono rfl
  unfold execMsixUnmask
  with_reducible repeat' first
    | assumption | intro _ | refine res_next ?_ | refine keeps_foldl ?_ ?_ | refine keeps_upHost H1 ?_ | refine keeps_sendHeld H2 ?_
    | refine res_get ‹_ = Host.Outcome.next _› (keeps_barWrite H3 ?_ ?_) | refine keeps_barWrite H3 ?_ ?_ | refine keeps_upVec H4 ?_
    | split | dsimp only

theorem keeps_reroute {P : State → Prop} {s : State} {n : Nat} {f : CallSrc → CallSrc} (H : Keeps P 0x4400111) (h0 : P s) : P (State.reroute
    s n f) := by
  have H1 : Keeps P 0x400000 := H.mono rfl
  unfold State.reroute
  with_reducible repeat' first
    | assumption | intro _ | refine keeps_upSrc H1 ?_ | refine keeps_withObs H ?_ ?_ | refine keeps_newlyEligible H ?_ | split | dsimp only

theorem keeps_clearHandStack {P : State → Prop} {s : State} {h : Nat} (H : Keeps P 0x400000) (h0 : P s) : P (State.clearHandStack s h) := by
  unfold State.clearHandStack
  with_reducible repeat' first
    | assumption | intro _ | refine keeps_upCall H ?_ | split | dsimp only

theorem keeps_upPage {P : State → Prop} {s : State} {k : Nat} {f : KeyPage → KeyPage} (H : Keeps P 0x800) (h0 : P s) : P (State.upPage s k
    f) := by
  unfold State.upPage
  with_reducible repeat' first
    | assumption | intro _ | refine keeps_upCip H ?_ | split | dsimp only

theorem keeps_opCipAssignPages {P : State → Prop} (H : Keeps P 0x800) : SpecAll P opCipAssignPages := by
  refine ⟨fun _ _ _ _ _ => ?_, fun _ _ _ _ => ?_⟩ <;> dsimp only [opCipAssignPages]
  with_reducible repeat' first
    | assumption | intro _ | exact VAll.refuse _ _ | exact VAll.refuseAt _ _ _ | refine VAll.done _ _ _ _ ?_
    | refine VAll.doneAs _ _ _ _ _ ?_ | refine VAll.wait _ _ _ ?_ | refine keeps_foldl ?_ ?_ | refine keeps_foldl_fst ?_ ?_
    | refine keeps_foldl_snd ?_ ?_ | refine keeps_upCip H ?_ | refine keeps_upPage H ?_ | refine keeps_Verdict_ok ?_
    | refine keeps_noResource | split | dsimp only

theorem keeps_execCipAssignPages {P : State → Prop} {h : Hdr} {p : Bytes} {s : State} (H : Keeps P 0x6c00d57) (h2 : P s) : ResAll P
    (execCipAssignPages h p s) := by
  have H1 : Keeps P 0x800 := H.mono rfl
  have H2 : Keeps P 0x6c00557 := H.mono rfl
  unfold execCipAssignPages
  with_reducible repeat' first
    | assumption | intro _ | refine res_next ?_ | refine keeps_opCipAssignPages H1
    | refine res_get ‹_ = Host.Outcome.next _› (keeps_runPkt H2 ?_ ?_) | refine keeps_runPkt H2 ?_ ?_ | split | dsimp only

theorem keeps_badParam {P : State → Prop} {off : Nat} : VAll P (badParam off) := by
  unfold badParam
  with_reducible repeat' first
    | assumption | intro _ | exact VAll.refuse _ _ | exact VAll.refuseAt _ _ _ | refine VAll.done _ _ _ _ ?_
    | refine VAll.doneAs _ _ _ _ _ ?_ | refine VAll.wait _ _ _ ?_ | split | dsimp only

theorem keeps_callerPage {P : State → Prop} {s : State} {c : Caller} {j : Nat} (h0 : P s) : ErrAll P (State.callerPage s c j) := by
  unfold State.callerPage
  with_reducible repeat' first
    | assumption | intro _ | exact VAll.refuse _ _ | exact VAll.refuseAt _ _ _ | refine VAll.done _ _ _ _ ?_
    | refine VAll.doneAs _ _ _ _ _ ?_ | refine VAll.wait _ _ _ ?_ | refine err_error ?_ | exact err_ok | refine keeps_badParam | split
    | dsimp only

theorem keeps_wipeParams {P : State → Prop} {s : State} {p : Bytes} (H : Keeps P 0x4800004) (h0 : P s) : P (State.wipeParams s p) := by
  unfold State.wipeParams
  with_reducible repeat' first
    | assumption | intro _ | refine keeps_foldl ?_ ?_ | refine keeps_gWrite H ?_ | split | dsimp only

theorem keeps_loadKey {P : State → Prop} {s : State} {k : Nat} {p : Bytes} (H : Keeps P 0x4800804) (h0 : P s) : P (State.loadKey s k p) :=
    by
  have H1 : Keeps P 0x4800004 := H.mono rfl
  have H2 : Keeps P 0x800 := H.mono rfl
  unfold State.loadKey
  with_reducible repeat' first
    | assumption | intro _ | refine keeps_wipeParams H1 ?_ | refine keeps_upPage H2 ?_ | split | dsimp only

theorem keeps_applyLoads {P : State → Prop} {s : State} {k : Nat} (H : Keeps P 0x6c00d57) (h0 : P s) : P (State.applyLoads s k) := by
  have H1 : Keeps P 0x800 := H.mono rfl
  have H2 : Keeps P 0x4800804 := H.mono rfl
  have H3 : Keeps P 0x6c00553 := H.mono rfl
  unfold State.applyLoads
  with_reducible repeat' first
    | assumption | intro _ | refine keeps_foldl ?_ ?_ | refine keeps_upCip H1 ?_ | refine keeps_loadKey H2 ?_
    | refine keeps_finishAll H3 ?_ | split | dsimp only

theorem keeps_opCipLoadKey {P : State → Prop} (H : Keeps P 0x4800804) : SpecAll P opCipLoadKey := by
  have H1 : Keeps P 0x800 := H.mono rfl
  refine ⟨fun _ _ _ _ _ => ?_, fun _ _ _ _ => ?_⟩ <;> dsimp only [opCipLoadKey]
  with_reducible repeat' first
    | assumption | intro _ | exact VAll.refuse _ _ | exact VAll.refuseAt _ _ _ | refine VAll.done _ _ _ _ ?_
    | refine VAll.doneAs _ _ _ _ _ ?_ | refine VAll.wait _ _ _ ?_ | refine keeps_upCip H1 ?_ | refine keeps_loadKey H ?_
    | refine err_get ‹_ = Except.error _› (keeps_callerPage ?_) | refine keeps_callerPage ?_ | refine keeps_Verdict_ok ?_ | split
    | dsimp only

theorem keeps_execCipLoadKey {P : State → Prop} {h : Hdr} {p : Bytes} {s : State} (H : Keeps P 0x6c00d57) (h2 : P s) : ResAll P
    (execCipLoadKey h p s) := by
  have H1 : Keeps P 0x4800804 := H.mono rfl
  have H2 : Keeps P 0x6c00557 := H.mono rfl
  unfold execCipLoadKey
  with_reducible repeat' first
    | assumption | intro _ | refine res_next ?_ | refine keeps_opCipLoadKey H1
    | refine res_get ‹_ = Host.Outcome.next _› (keeps_runPkt H2 ?_ ?_) | refine keeps_runPkt H2 ?_ ?_ | split | dsimp only

theorem keeps_opCipClearPage {P : State → Prop} (H : Keeps P 0x800) : SpecAll P opCipClearPage := by
  refine ⟨fun _ _ _ _ _ => ?_, fun _ _ _ _ => ?_⟩ <;> dsimp only [opCipClearPage]
  with_reducible repeat' first
    | assumption | intro _ | exact VAll.refuse _ _ | exact VAll.refuseAt _ _ _ | refine VAll.done _ _ _ _ ?_
    | refine VAll.doneAs _ _ _ _ _ ?_ | refine VAll.wait _ _ _ ?_ | refine err_get ‹_ = Except.error _› (keeps_callerPage ?_)
    | refine keeps_callerPage ?_ | refine keeps_upPage H ?_ | refine keeps_Verdict_ok ?_ | split | dsimp only

theorem keeps_execCipClearPage {P : State → Prop} {h : Hdr} {p : Bytes} {s : State} (H : Keeps P 0x6c00d57) (h2 : P s) : ResAll P
    (execCipClearPage h p s) := by
  have H1 : Keeps P 0x800 := H.mono rfl
  have H2 : Keeps P 0x6c00557 := H.mono rfl
  unfold execCipClearPage
  with_reducible repeat' first
    | assumption | intro _ | refine res_next ?_ | refine keeps_opCipClearPage H1
    | refine res_get ‹_ = Host.Outcome.next _› (keeps_runPkt H2 ?_ ?_) | refine keeps_runPkt H2 ?_ ?_ | split | dsimp only

theorem keeps_cryptEnd {P : State → Prop} {s : State} {x : Crypt} {status : Nat} {detail : Nat} (H : Keeps P 0x6c00d53) (h0 : P s) : P
    (State.cryptEnd s x status detail) := by
  have H1 : Keeps P 0x800 := H.mono rfl
  have H2 : Keeps P 0x6c00553 := H.mono rfl
  unfold State.cryptEnd
  with_reducible repeat' first
    | assumption | intro _ | refine keeps_upCip H1 ?_ | refine keeps_finishAll H2 ?_ | split | dsimp only

theorem keeps_noKey {P : State → Prop} {s : State} {k : Nat} (H : Keeps P 0x800) (h0 : P s) : P (State.noKey s k) := by
  unfold State.noKey
  with_reducible repeat' first
    | assumption | intro _ | refine keeps_upPage H ?_ | split | dsimp only

theorem keeps_submit {P : State → Prop} {s : State} {u : CipUnit} {avoid : Option Nat} (H : Keeps P 0x800) (h0 : P s) : OptAll P
    (State.submit s u avoid) := by
  unfold State.submit
  with_reducible repeat' first
    | assumption | intro _ | exact opt_none | refine opt_some ?_ | refine opt_ite ?_ ?_ | refine keeps_upCip H ?_ | split | dsimp only

theorem keeps_gRead {P : State → Prop} {s : State} {n : Nat} (H : Keeps P 0x4000000) (h0 : P s) : P (State.gRead s n) := by
  unfold State.gRead
  with_reducible repeat' first
    | assumption | intro _ | refine keeps_ao H ?_ | split | dsimp only

theorem keeps_cryptNext {P : State → Prop} {s : State} {x : Crypt} (H : Keeps P 0x6c00d53) (h0 : P s) : P (State.cryptNext s x) := by
  have H1 : Keeps P 0x4000000 := H.mono rfl
  have H2 : Keeps P 0x800 := H.mono rfl
  unfold State.cryptNext
  with_reducible repeat' first
    | assumption | intro _ | refine keeps_gRead H1 ?_ | refine opt_get ‹_ = some _› (keeps_submit H2 ?_) | refine keeps_submit H2 ?_
    | refine keeps_noKey H2 ?_ | refine keeps_cryptEnd H ?_ | split | dsimp only

theorem keeps_opCipCrypt {P : State → Prop} (H : Keeps P 0x800) : SpecAll P opCipCrypt := by
  refine ⟨fun _ _ _ _ _ => ?_, fun _ _ _ _ => ?_⟩ <;> dsimp only [opCipCrypt]
  with_reducible repeat' first
    | assumption | intro _ | exact VAll.refuse _ _ | exact VAll.refuseAt _ _ _ | refine VAll.done _ _ _ _ ?_
    | refine VAll.doneAs _ _ _ _ _ ?_ | refine VAll.wait _ _ _ ?_ | refine keeps_upCip H ?_
    | refine err_get ‹_ = Except.error _› (keeps_callerPage ?_) | refine keeps_callerPage ?_ | refine keeps_badParam | split | dsimp only

theorem keeps_execCipCrypt {P : State → Prop} {h : Hdr} {p : Bytes} {s : State} (H : Keeps P 0x6c00d57) (h2 : P s) : ResAll P (execCipCrypt
    h p s) := by
  have H1 : Keeps P 0x800 := H.mono rfl
  have H2 : Keeps P 0x6c00d53 := H.mono rfl
  have H3 : Keeps P 0x6c00557 := H.mono rfl
  unfold execCipCrypt
  with_reducible repeat' first
    | assumption | intro _ | refine res_next ?_ | refine keeps_foldl ?_ ?_ | refine keeps_opCipCrypt H1 | refine keeps_cryptNext H2 ?_
    | refine res_get ‹_ = Host.Outcome.next _› (keeps_runPkt H3 ?_ ?_) | refine keeps_runPkt H3 ?_ ?_ | split | dsimp only

theorem keeps_released {P : State → Prop} {s : State} {u : CipUnit} {bytes : Nat} (H : Keeps P 0x4000912) (h0 : P s) : P (State.released s u
    bytes) := by
  have H1 : Keeps P 0x800 := H.mono rfl
  have H2 : Keeps P 0x4000112 := H.mono rfl
  have H3 : Keeps P 0x4000000 := H.mono rfl
  unfold State.released
  with_reducible repeat' first
    | assumption | intro _ | refine keeps_upPage H1 ?_ | refine keeps_gctr H2 ?_ | refine keeps_fnCtr H3 ?_ | refine keeps_ao H3 ?_ | split
    | dsimp only

theorem keeps_authFailed {P : State → Prop} {s : State} {k : Nat} (H : Keeps P 0x4400911) (h0 : P s) : P (State.authFailed s k) := by
  have H1 : Keeps P 0x800 := H.mono rfl
  have H2 : Keeps P 0x4400111 := H.mono rfl
  unfold State.authFailed
  with_reducible repeat' first
    | assumption | intro _ | refine keeps_upPage H1 ?_ | refine keeps_flag H2 ?_ ?_ | split | dsimp only

theorem keeps_releaseTls {P : State → Prop} {s : State} {u : CipUnit} {id : Nat} (H : Keeps P 0x6c00d57) (h0 : P s) : P (State.releaseTls s
    u id) := by
  have H1 : Keeps P 0x800 := H.mono rfl
  have H2 : Keeps P 0x4400911 := H.mono rfl
  have H3 : Keeps P 0x4000912 := H.mono rfl
  have H4 : Keeps P 0x6c00d53 := H.mono rfl
  have H5 : Keeps P 0x4800004 := H.mono rfl
  unfold State.releaseTls
  with_reducible repeat' first
    | assumption | intro _ | refine keeps_upCip H1 ?_ | refine keeps_authFailed H2 ?_ | refine keeps_released H3 ?_
    | refine keeps_cryptNext H4 ?_ | refine keeps_noKey H1 ?_ | refine keeps_cryptEnd H4 ?_ | refine keeps_upPage H1 ?_
    | refine keeps_gWrite H5 ?_ | split | dsimp only

theorem keeps_replay {P : State → Prop} {s : State} {k : Nat} (H : Keeps P 0x800) (h0 : P s) : P (State.replay s k) := by
  unfold State.replay
  with_reducible repeat' first
    | assumption | intro _ | refine keeps_upPage H ?_ | split | dsimp only

theorem keeps_releaseEsp {P : State → Prop} {s : State} {u : CipUnit} (H : Keeps P 0x4400b13) (h0 : P s) : P (State.releaseEsp s u) := by
  have H1 : Keeps P 0x200 := H.mono rfl
  have H2 : Keeps P 0x800 := H.mono rfl
  have H3 : Keeps P 0x4400911 := H.mono rfl
  have H4 : Keeps P 0x4000912 := H.mono rfl
  unfold State.releaseEsp
  with_reducible repeat' first
    | assumption | intro _ | refine keeps_upHed H1 ?_ | refine keeps_replay H2 ?_ | refine keeps_authFailed H3 ?_
    | refine keeps_released H4 ?_ | refine keeps_noKey H2 ?_ | refine keeps_upPage H2 ?_ | split | dsimp only

theorem keeps_upRemote {P : State → Prop} {s : State} {cid : Nat} {f : Remote → Remote} (H : Keeps P 0x80) (h0 : P s) : P (State.upRemote s
    cid f) := by
  unfold State.upRemote
  with_reducible repeat' first
    | assumption | intro _ | refine keeps_upSto H ?_ | split | dsimp only

theorem keeps_upTag {P : State → Prop} {s : State} {ctrl : Nat} {nsid : Nat} {back : Nat} {rblk : Nat} {f : TagBlk → TagBlk} (H : Keeps P
    0x800) (h0 : P s) : P (State.upTag s ctrl nsid back rblk f) := by
  unfold State.upTag
  with_reducible repeat' first
    | assumption | intro _ | refine keeps_upCip H ?_ | split | dsimp only

theorem keeps_tagBusy {P : State → Prop} {s : State} {n : Ns} {b : Nat} {f : Nat → Nat} (H : Keeps P 0x800) (h0 : P s) : P (State.tagBusy s
    n b f) := by
  unfold State.tagBusy
  with_reducible repeat' first
    | assumption | intro _ | refine keeps_upTag H ?_ | split | dsimp only

theorem keeps_remoteOut {P : State → Prop} {s : State} {n : Ns} {back : Nat} {code : Nat} {cid : Nat} {rblk : Nat} {count : Nat} {data :
    Bytes} (H : Keeps P 0x81) (h0 : P s) : P (State.remoteOut s n back code cid rblk count data) := by
  have H1 : Keeps P 0x80 := H.mono rfl
  have H2 : Keeps P 0x1 := H.mono rfl
  unfold State.remoteOut
  with_reducible repeat' first
    | assumption | intro _ | exact opt_none | refine opt_some ?_ | refine opt_bindS ?_ ?_ | refine opt_bind ?_ | refine keeps_upSto H1 ?_
    | refine keeps_emit H2 ?_ | split | dsimp only

theorem keeps_remoteIssue {P : State → Prop} {s : State} {n : Ns} {r : Remote} {code : Nat} {count : Nat} {data : Bytes} (H : Keeps P 0x81)
    (h0 : P s) : P (State.remoteIssue s n r code count data) := by
  have H1 : Keeps P 0x80 := H.mono rfl
  unfold State.remoteIssue
  with_reducible repeat' first
    | assumption | intro _ | refine keeps_upSto H1 ?_ | refine keeps_remoteOut H ?_ | split | dsimp only

theorem keeps_tagWrite {P : State → Prop} {s : State} {n : Ns} {t : TagBlk} {seqs : List (Nat × Nat)} (H : Keeps P 0x881) (h0 : P s) : P
    (State.tagWrite s n t seqs) := by
  have H1 : Keeps P 0x80 := H.mono rfl
  have H2 : Keeps P 0x81 := H.mono rfl
  have H3 : Keeps P 0x800 := H.mono rfl
  unfold State.tagWrite
  with_reducible repeat' first
    | assumption | intro _ | refine keeps_upSto H1 ?_ | refine keeps_remoteIssue H2 ?_ | refine keeps_upTag H3 ?_ | split | dsimp only

theorem keeps_tagFlush {P : State → Prop} {s : State} {n : Ns} {back : Nat} {rblk : Nat} (H : Keeps P 0x881) (h0 : P s) : P (State.tagFlush
    s n back rblk) := by
  unfold State.tagFlush
  with_reducible repeat' first
    | assumption | intro _ | refine keeps_tagWrite H ?_ | split | dsimp only

theorem keeps_sealedAck {P : State → Prop} {s : State} {n : Ns} {r : Remote} {flush : Bool} (H : Keeps P 0x881) (h0 : P s) : P
    (State.sealedAck s n r flush) := by
  have H1 : Keeps P 0x800 := H.mono rfl
  unfold State.sealedAck
  with_reducible repeat' first
    | assumption | intro _ | refine keeps_foldl ?_ ?_ | refine keeps_tagFlush H ?_ | refine keeps_tagBusy H1 ?_ | split | dsimp only

theorem keeps_upWb {P : State → Prop} {s : State} {seq : Nat} {f : WbBlock → WbBlock} (H : Keeps P 0x80) (h0 : P s) : P (State.upWb s seq f)
    := by
  unfold State.upWb
  with_reducible repeat' first
    | assumption | intro _ | refine keeps_upSto H ?_ | split | dsimp only

theorem keeps_sealBack {P : State → Prop} {s : State} {x : Ns} {r : Remote} (H : Keeps P 0x881) (h0 : P s) : P (State.sealBack s x r) := by
  have H1 : Keeps P 0x80 := H.mono rfl
  unfold State.sealBack
  with_reducible repeat' first
    | assumption | intro _ | refine keeps_foldl ?_ ?_ | refine keeps_upSto H1 ?_ | refine keeps_upWb H1 ?_ | refine keeps_sealedAck H ?_
    | split | dsimp only

theorem keeps_putTagRec {P : State → Prop} {s : State} {n : Ns} {b : Nat} {r : TagRec} (H : Keeps P 0x800) (h0 : P s) : P (State.putTagRec s
    n b r) := by
  unfold State.putTagRec
  with_reducible repeat' first
    | assumption | intro _ | refine keeps_upTag H ?_ | split | dsimp only

theorem keeps_sealEnd {P : State → Prop} {s : State} {x : Ns} {cid : Nat} (H : Keeps P 0x881) (h0 : P s) : P (State.sealEnd s x cid) := by
  have H1 : Keeps P 0x800 := H.mono rfl
  have H2 : Keeps P 0x81 := H.mono rfl
  have H3 : Keeps P 0x80 := H.mono rfl
  unfold State.sealEnd
  with_reducible repeat' first
    | assumption | intro _ | refine keeps_foldl ?_ ?_ | refine keeps_putTagRec H1 ?_ | refine keeps_sealBack H ?_
    | refine keeps_remoteOut H2 ?_ | refine keeps_upRemote H3 ?_ | split | dsimp only

theorem keeps_errorEvent {P : State → Prop} {s : State} {fn : Nat} (H : Keeps P 0x4c00193) (h0 : P s) : P (State.errorEvent s fn) := by
  have H1 : Keeps P 0x4c00191 := H.mono rfl
  have H2 : Keeps P 0x2 := H.mono rfl
  unfold State.errorEvent
  with_reducible repeat' first
    | assumption | intro _ | refine keeps_asyncEvent H1 ?_ | refine keeps_spent H2 ?_ | split | dsimp only

theorem keeps_writesEnd {P : State → Prop} {s : State} {ctrl : Nat} {writes : List Nat} (H : Keeps P 0x4c00191) (h0 : P s) : P
    (State.writesEnd s ctrl writes) := by
  have H1 : Keeps P 0x80 := H.mono rfl
  unfold State.writesEnd
  with_reducible repeat' first
    | assumption | intro _ | refine keeps_foldl ?_ ?_ | refine opt_foldl ?_ ?_ | refine keeps_upSto H1 ?_ | refine keeps_endOp H ?_ | split
    | dsimp only

theorem keeps_stuckEnd {P : State → Prop} {s : State} {ctrl : Nat} {nsid : Nat} (H : Keeps P 0x4c00191) (h0 : P s) : P (State.stuckEnd s
    ctrl nsid) := by
  unfold State.stuckEnd
  with_reducible repeat' first
    | assumption | intro _ | refine keeps_writesEnd H ?_ | split | dsimp only

theorem keeps_writeFailed {P : State → Prop} {s : State} {ctrl : Nat} {nsid : Nat} {status : Nat} (H : Keeps P 0x7c405d3) (h0 : P s) : P
    (State.writeFailed s ctrl nsid status) := by
  have H1 : Keeps P 0x80 := H.mono rfl
  have H2 : Keeps P 0x4c00191 := H.mono rfl
  have H3 : Keeps P 0x4c00193 := H.mono rfl
  have H4 : Keeps P 0x6c00553 := H.mono rfl
  have H5 : Keeps P 0x7c40113 := H.mono rfl
  have H6 : Keeps P 0x4400111 := H.mono rfl
  unfold State.writeFailed
  with_reducible repeat' first
    | assumption | intro _ | refine keeps_upSto H1 ?_ | refine keeps_stuckEnd H2 ?_ | refine keeps_errorEvent H3 ?_
    | refine keeps_upNs H1 ?_ | refine keeps_finishAll H4 ?_ | refine keeps_record H5 ?_ | refine keeps_flag H6 ?_ ?_ | split | dsimp only

theorem keeps_stick {P : State → Prop} {s : State} {p : WbBlock → Bool} (H : Keeps P 0x80) (h0 : P s) : P (State.stick s p) := by
  unfold State.stick
  with_reducible repeat' first
    | assumption | intro _ | refine keeps_upSto H ?_ | split | dsimp only

theorem keeps_releaseSeal {P : State → Prop} {s : State} {u : CipUnit} {cid : Nat} {blk : Nat} (H : Keeps P 0x7c40dd3) (h0 : P s) : P
    (State.releaseSeal s u cid blk) := by
  have H1 : Keeps P 0x80 := H.mono rfl
  have H2 : Keeps P 0x7c405d3 := H.mono rfl
  have H3 : Keeps P 0x881 := H.mono rfl
  have H4 : Keeps P 0x4000912 := H.mono rfl
  have H5 : Keeps P 0x800 := H.mono rfl
  unfold State.releaseSeal
  with_reducible repeat' first
    | assumption | intro _ | refine keeps_stick H1 ?_ | refine keeps_writeFailed H2 ?_ | refine keeps_sealEnd H3 ?_
    | refine keeps_sealBack H3 ?_ | refine keeps_upRemote H1 ?_ | refine keeps_released H4 ?_ | refine keeps_noKey H5 ?_ | split
    | dsimp only

theorem keeps_prpWrite {P : State → Prop} {a : Nat} {x1 : State} {x2 : NvmeCmd} {x3 : Nat} {x4 : Nat} {x5 : Bytes} (H : Keeps P 0x4800001)
    (h1 : P x1) : P (State.prpWrite a x1 x2 x3 x4 x5) := by
  induction a generalizing x1 x2 x3 x4 x5 with
  | zero =>
    unfold State.prpWrite
    with_reducible repeat' first
      | assumption | intro _ | refine keeps_hostWrite H ?_ | split | dsimp only
  | succ _ ih =>
    unfold State.prpWrite
    with_reducible repeat' first
      | assumption | intro _ | refine ih ?_ | refine keeps_hostWrite H ?_ | split | dsimp only

theorem keeps_upOp {P : State → Prop} {s : State} {fn : Nat} {sqid : Nat} {cid : Nat} {f : NvmeOp → NvmeOp} (H : Keeps P 0x80) (h0 : P s) :
    P (State.upOp s fn sqid cid f) := by
  unfold State.upOp
  with_reducible repeat' first
    | assumption | intro _ | refine keeps_upCtrl H ?_ | split | dsimp only

theorem keeps_upInt {P : State → Prop} {s : State} {u : IntUse} {f : IntOp → IntOp} (H : Keeps P 0x80) (h0 : P s) : P (State.upInt s u f) :=
    by
  unfold State.upInt
  with_reducible repeat' first
    | assumption | intro _ | refine keeps_upSto H ?_ | split | dsimp only

theorem keeps_intGot {P : State → Prop} {s : State} {u : IntUse} {r : Remote} {b : Bytes} (H : Keeps P 0x80) (h0 : P s) : P (State.intGot s
    u r b) := by
  unfold State.intGot
  with_reducible repeat' first
    | assumption | intro _ | refine keeps_upSto H ?_ | refine keeps_upInt H ?_ | split | dsimp only

theorem keeps_readDone {P : State → Prop} {s : State} {r : Remote} {b : Bytes} (H : Keeps P 0x6c00dd3) (h0 : P s) : P (State.readDone s r b)
    := by
  have H1 : Keeps P 0x80 := H.mono rfl
  have H2 : Keeps P 0x4800001 := H.mono rfl
  have H3 : Keeps P 0x4c00191 := H.mono rfl
  unfold State.readDone
  with_reducible repeat' first
    | assumption | intro _ | refine keeps_upSto H1 ?_ | refine keeps_intGot H1 ?_ | refine keeps_upOp H1 ?_ | refine keeps_prpWrite H2 ?_
    | refine keeps_stoSettle H ?_ | refine keeps_endOp H3 ?_ | split | dsimp only

theorem keeps_intFail {P : State → Prop} {s : State} {u : IntUse} {status : Nat} (H : Keeps P 0x80) (h0 : P s) : P (State.intFail s u
    status) := by
  unfold State.intFail
  with_reducible repeat' first
    | assumption | intro _ | refine keeps_upSto H ?_ | refine keeps_upInt H ?_ | split | dsimp only

theorem keeps_readEnd {P : State → Prop} {s : State} {r : Remote} {status : Nat} (H : Keeps P 0x6c00dd3) (h0 : P s) : P (State.readEnd s r
    status) := by
  have H1 : Keeps P 0x80 := H.mono rfl
  have H2 : Keeps P 0x4c00191 := H.mono rfl
  unfold State.readEnd
  with_reducible repeat' first
    | assumption | intro _ | refine keeps_intFail H1 ?_ | refine keeps_stoSettle H ?_ | refine keeps_endOp H2 ?_ | split | dsimp only

theorem keeps_readPart {P : State → Prop} {s : State} {x : Ns} {who : ReadFor} {after : Nat} {p : Nat × Nat} {retry : Option Nat} (H : Keeps
    P 0x81) (h0 : P s) : P (State.readPart s x who after p retry) := by
  have H1 : Keeps P 0x80 := H.mono rfl
  unfold State.readPart
  with_reducible repeat' first
    | assumption | intro _ | refine keeps_foldl ?_ ?_ | refine keeps_foldl_fst ?_ ?_ | refine keeps_foldl_snd ?_ ?_
    | refine opt_foldl ?_ ?_ | refine keeps_upSto H1 ?_ | refine keeps_upInt H1 ?_ | refine keeps_upOp H1 ?_
    | refine keeps_remoteIssue H ?_ | split | dsimp only

theorem keeps_readAgain {P : State → Prop} {s : State} {x : Ns} {r : Remote} {bad : List Nat} (H : Keeps P 0x4800081) (h0 : P s) : P
    (State.readAgain s x r bad) := by
  have H1 : Keeps P 0x80 := H.mono rfl
  have H2 : Keeps P 0x81 := H.mono rfl
  have H3 : Keeps P 0x4800001 := H.mono rfl
  unfold State.readAgain
  with_reducible repeat' first
    | assumption | intro _ | refine keeps_foldl ?_ ?_ | refine keeps_foldl_fst ?_ ?_ | refine keeps_foldl_snd ?_ ?_
    | refine opt_foldl ?_ ?_ | refine keeps_upSto H1 ?_ | refine keeps_readPart H2 ?_ | refine keeps_intGot H1 ?_
    | refine keeps_upInt H1 ?_ | refine keeps_upOp H1 ?_ | refine keeps_prpWrite H3 ?_ | split | dsimp only

theorem keeps_openedAll {P : State → Prop} {s : State} {cid : Nat} (H : Keeps P 0x6c00dd3) (h0 : P s) : P (State.openedAll s cid) := by
  have H1 : Keeps P 0x4800081 := H.mono rfl
  unfold State.openedAll
  with_reducible repeat' first
    | assumption | intro _ | refine keeps_readAgain H1 ?_ | refine keeps_readEnd H ?_ | refine keeps_readDone H ?_ | split | dsimp only

theorem keeps_releaseOpen {P : State → Prop} {s : State} {u : CipUnit} {cid : Nat} {blk : Nat} (H : Keeps P 0x6c00dd3) (h0 : P s) : P
    (State.releaseOpen s u cid blk) := by
  have H1 : Keeps P 0x80 := H.mono rfl
  have H2 : Keeps P 0x4400911 := H.mono rfl
  have H3 : Keeps P 0x4000912 := H.mono rfl
  have H4 : Keeps P 0x800 := H.mono rfl
  unfold State.releaseOpen
  with_reducible repeat' first
    | assumption | intro _ | refine keeps_openedAll H ?_ | refine keeps_upRemote H1 ?_ | refine keeps_authFailed H2 ?_
    | refine keeps_released H3 ?_ | refine keeps_noKey H4 ?_ | split | dsimp only

theorem keeps_releaseUnit {P : State → Prop} {s : State} {u : CipUnit} (H : Keeps P 0x7c40fd7) (h0 : P s) : P (State.releaseUnit s u) := by
  have H1 : Keeps P 0x800 := H.mono rfl
  have H2 : Keeps P 0x6c00dd3 := H.mono rfl
  have H3 : Keeps P 0x7c40dd3 := H.mono rfl
  have H4 : Keeps P 0x4400b13 := H.mono rfl
  have H5 : Keeps P 0x6c00d57 := H.mono rfl
  unfold State.releaseUnit
  with_reducible repeat' first
    | assumption | intro _ | refine keeps_upCip H1 ?_ | refine keeps_releaseOpen H2 ?_ | refine keeps_releaseSeal H3 ?_
    | refine keeps_releaseEsp H4 ?_ | refine keeps_releaseTls H5 ?_ | split | dsimp only

theorem keeps_releasePage {P : State → Prop} {a : Nat} {x1 : State} {x2 : Nat} (H : Keeps P 0x7c40fd7) (h1 : P x1) : P (State.releasePage a
    x1 x2) := by
  have H1 : Keeps P 0x6c00d57 := H.mono rfl
  induction a generalizing x1 x2 with
  | zero =>
    unfold State.releasePage
    with_reducible repeat' first
      | assumption | intro _ | refine keeps_releaseUnit H ?_ | refine keeps_applyLoads H1 ?_ | split | dsimp only
  | succ _ ih =>
    unfold State.releasePage
    with_reducible repeat' first
      | assumption | intro _ | refine ih ?_ | refine keeps_releaseUnit H ?_ | refine keeps_applyLoads H1 ?_ | split | dsimp only

theorem keeps_sealStop {P : State → Prop} {s : State} {x : Ns} {r : Remote} (H : Keeps P 0x7c40fd7) (h0 : P s) : P (State.sealStop s x r) :=
    by
  have H1 : Keeps P 0x800 := H.mono rfl
  have H2 : Keeps P 0x881 := H.mono rfl
  unfold State.sealStop
  with_reducible repeat' first
    | assumption | intro _ | refine keeps_upCip H1 ?_ | refine keeps_releasePage H ?_ | refine keeps_sealBack H2 ?_ | split | dsimp only

theorem keeps_onMain {P : State → Prop} {s : State} {f : State → State} (h0 : P s) (h1 : ∀ y1, P y1 → P (f y1)) : ResAll P (onMain s f) :=
    by
  unfold onMain
  with_reducible repeat' first
    | assumption | intro _ | refine h1 _ ?_ | refine res_next ?_ | split | dsimp only

theorem keeps_mismatched {P : State → Prop} {s : State} {k : Nat} {lane : Nat} (H : Keeps P 0x4440911) (h0 : P s) : P (State.mismatched s k
    lane) := by
  have H1 : Keeps P 0x800 := H.mono rfl
  have H2 : Keeps P 0x40000 := H.mono rfl
  have H3 : Keeps P 0x4400111 := H.mono rfl
  unfold State.mismatched
  with_reducible repeat' first
    | assumption | intro _ | refine keeps_upPage H1 ?_ | refine keeps_charge H2 ?_ | refine keeps_flag H3 ?_ ?_ | split | dsimp only

theorem keeps_execCipherUnitDone {P : State → Prop} {unit : Nat} {agree : Bool} {s : State} (H : Keeps P 0x7c40fd7) (h2 : P s) : ResAll P
    (execCipherUnitDone unit agree s) := by
  have H1 : Keeps P 0x800 := H.mono rfl
  have H2 : Keeps P 0x4440911 := H.mono rfl
  unfold execCipherUnitDone
  with_reducible repeat' first
    | assumption | intro _ | refine res_next ?_ | refine keeps_upCip H1 ?_ | refine keeps_mismatched H2 ?_
    | refine res_get ‹_ = Host.Outcome.next _› (keeps_onMain ?_ ?_) | refine keeps_onMain ?_ ?_ | refine keeps_releasePage H ?_ | split
    | dsimp only

theorem keeps_execEspLaneTimeout {P : State → Prop} {page : Nat} {s : State} (H : Keeps P 0x7c40fd7) (h1 : P s) : ResAll P
    (execEspLaneTimeout page s) := by
  have H1 : Keeps P 0x800 := H.mono rfl
  unfold execEspLaneTimeout
  with_reducible repeat' first
    | assumption | intro _ | refine res_next ?_ | refine keeps_upCip H1 ?_ | refine res_get ‹_ = Host.Outcome.next _› (keeps_onMain ?_ ?_)
    | refine keeps_onMain ?_ ?_ | refine keeps_releasePage H ?_ | refine keeps_upPage H1 ?_ | split | dsimp only

theorem keeps_execDrbgReseed {P : State → Prop} {lane : Nat} {s : State} (H : Keeps P 0x800) (h1 : P s) : ResAll P (execDrbgReseed lane s)
    := by
  unfold execDrbgReseed
  with_reducible repeat' first
    | assumption | intro _ | refine res_next ?_ | refine keeps_upCip H ?_ | refine res_get ‹_ = Host.Outcome.next _› (keeps_onMain ?_ ?_)
    | refine keeps_onMain ?_ ?_ | split | dsimp only

theorem keeps_lanesGo {P : State → Prop} {s : State} (H : Keeps P 0x800) (h0 : P s) : P (State.lanesGo s) := by
  unfold State.lanesGo
  with_reducible repeat' first
    | assumption | intro _ | refine keeps_foldl ?_ ?_ | refine keeps_upCip H ?_ | split | dsimp only

theorem keeps_tagPut {P : State → Prop} {s : State} {ctrl : Nat} {nsid : Nat} {back : Nat} {rblk : Nat} {b : Bytes} (H : Keeps P 0x800) (h0
    : P s) : P (State.tagPut s ctrl nsid back rblk b) := by
  unfold State.tagPut
  with_reducible repeat' first
    | assumption | intro _ | refine keeps_foldl ?_ ?_ | refine opt_foldl ?_ ?_ | refine keeps_upCip H ?_ | split | dsimp only

theorem keeps_onCk {P : State → Prop} {s : State} {p : Bytes} {f : Nat → CkJob → Verdict} (h0 : P s) (h2 : ∀ y1 y2, VAll P (f y1 y2)) : VAll
    P (State.onCk s p f) := by
  unfold State.onCk
  with_reducible repeat' first
    | assumption | intro _ | refine h2 _ _ | exact VAll.refuse _ _ | exact VAll.refuseAt _ _ _ | refine VAll.done _ _ _ _ ?_
    | refine VAll.doneAs _ _ _ _ _ ?_ | refine VAll.wait _ _ _ ?_ | split | dsimp only

theorem keeps_ckpMailbox {P : State → Prop} {s : State} {h : Nat} {members : Nat} (H : Keeps P 0x100) (h0 : P s) : OptAll (fun x => P x.2)
    (State.ckpMailbox s h members) := by
  unfold State.ckpMailbox
  with_reducible repeat' first
    | assumption | intro _ | exact opt_none | refine opt_some ?_ | refine opt_ite ?_ ?_
    | refine opt_get2 ‹_ = some (_, _)› (keeps_regionAdd H ?_) | refine keeps_regionAdd H ?_ | split | dsimp only

theorem keeps_ckpSet {P : State → Prop} {s : State} {h : Nat} {mbox : Nat} {p : Bytes} (H : Keeps P 0x80002) (h0 : P s) : P (State.ckpSet s
    h mbox p) := by
  have H1 : Keeps P 0x80000 := H.mono rfl
  have H2 : Keeps P 0x2 := H.mono rfl
  unfold State.ckpSet
  with_reducible repeat' first
    | assumption | intro _ | refine keeps_upCkp H1 ?_ | refine keeps_spent H2 ?_ | split | dsimp only

theorem keeps_resync {P : State → Prop} {s : State} {h : Nat} (H : Keeps P 0x6c80553) (h0 : P s) : P (State.resync s h) := by
  have H1 : Keeps P 0x6c00553 := H.mono rfl
  have H2 : Keeps P 0x80000 := H.mono rfl
  unfold State.resync
  with_reducible repeat' first
    | assumption | intro _ | refine keeps_foldl ?_ ?_ | refine keeps_endCapture H1 ?_ | refine keeps_upCk H2 ?_ | split | dsimp only

end Sys2Proof.Laws
end

