-- ==== Sys2Proof/Laws/Keeps2.lean ====
section
/-!
SUPPORT. What every operation keeps, part 2 of 5.
-/
set_option linter.all false

namespace Sys2Proof.Laws

open Sys2Proof Sys2Proof.Machine Sys2Proof.Safety

theorem keeps_opCkpSetJob {P : State → Prop} (H : Keeps P 0x6c80553) : SpecAll P opCkpSetJob := by
  have H1 : Keeps P 0x80002 := H.mono rfl
  have H2 : Keeps P 0x100 := H.mono rfl
  refine ⟨fun _ _ _ _ _ => ?_, fun _ _ _ _ => ?_⟩ <;> dsimp only [opCkpSetJob]
  with_reducible repeat' first
    | assumption | intro _ | exact VAll.refuse _ _ | exact VAll.refuseAt _ _ _ | refine VAll.done _ _ _ _ ?_
    | refine VAll.doneAs _ _ _ _ _ ?_ | refine VAll.wait _ _ _ ?_ | refine ver_getD ?_ ?_ | exact opt_none | refine opt_some ?_
    | refine opt_map2 (P := P) ?_ ?_ | refine opt_map ?_ | refine opt_ite ?_ ?_ | refine keeps_resync H ?_ | refine keeps_ckpSet H1 ?_
    | refine opt_get2 ‹_ = some (_, _)› (keeps_ckpMailbox H2 ?_) | refine keeps_ckpMailbox H2 ?_ | refine keeps_badParam
    | refine keeps_noResource | refine keeps_badState | refine keeps_regionDel H2 ?_ | split | dsimp only

theorem keeps_execCkpSetJob {P : State → Prop} {h : Hdr} {p : Bytes} {s : State} (H : Keeps P 0x6c80557) (h2 : P s) : ResAll P
    (execCkpSetJob h p s) := by
  have H1 : Keeps P 0x6c80553 := H.mono rfl
  have H2 : Keeps P 0x6c00557 := H.mono rfl
  unfold execCkpSetJob
  with_reducible repeat' first
    | assumption | intro _ | refine res_next ?_ | refine keeps_opCkpSetJob H1
    | refine res_get ‹_ = Host.Outcome.next _› (keeps_runPkt H2 ?_ ?_) | refine keeps_runPkt H2 ?_ ?_ | split | dsimp only

theorem keeps_latchArm {P : State → Prop} {s : State} {n : Nat} (H : Keeps P 0x4430113) (h0 : P s) : P (State.latchArm s n) := by
  have H1 : Keeps P 0x20000 := H.mono rfl
  unfold State.latchArm
  with_reducible repeat' first
    | assumption | intro _ | refine keeps_latchFire H ?_ | refine keeps_upCell H1 ?_ | split | dsimp only

theorem keeps_bindGuards {P : State → Prop} {s : State} {h : Nat} {j : CkJob} (H : Keeps P 0x4430113) (h0 : P s) : P (State.bindGuards s h
    j) := by
  have H1 : Keeps P 0x20000 := H.mono rfl
  unfold State.bindGuards
  with_reducible repeat' first
    | assumption | intro _ | refine keeps_foldl ?_ ?_ | refine opt_foldl ?_ ?_ | refine keeps_latchArm H ?_ | refine keeps_upCell H1 ?_
    | split | dsimp only

theorem keeps_opCkpSetShards {P : State → Prop} (H : Keeps P 0x44b0113) : SpecAll P opCkpSetShards := by
  have H1 : Keeps P 0x4430113 := H.mono rfl
  have H2 : Keeps P 0x80000 := H.mono rfl
  have H3 : Keeps P 0x20000 := H.mono rfl
  refine ⟨fun _ _ _ _ _ => ?_, fun _ _ _ _ => ?_⟩ <;> dsimp only [opCkpSetShards]
  with_reducible repeat' first
    | assumption | intro _ | exact VAll.refuse _ _ | exact VAll.refuseAt _ _ _ | refine VAll.done _ _ _ _ ?_
    | refine VAll.doneAs _ _ _ _ _ ?_ | refine VAll.wait _ _ _ ?_ | refine keeps_bindGuards H1 ?_ | refine keeps_onCk ?_ ?_
    | refine keeps_badParam | refine keeps_Verdict_ok ?_ | refine keeps_badState | refine keeps_upCk H2 ?_ | refine keeps_setGuards H1 ?_
    | refine keeps_freeGuards H3 ?_ | split | dsimp only

theorem keeps_execCkpSetShards {P : State → Prop} {h : Hdr} {p : Bytes} {s : State} (H : Keeps P 0x6cb0557) (h2 : P s) : ResAll P
    (execCkpSetShards h p s) := by
  have H1 : Keeps P 0x44b0113 := H.mono rfl
  have H2 : Keeps P 0x6c00557 := H.mono rfl
  unfold execCkpSetShards
  with_reducible repeat' first
    | assumption | intro _ | refine res_next ?_ | refine keeps_opCkpSetShards H1
    | refine res_get ‹_ = Host.Outcome.next _› (keeps_runPkt H2 ?_ ?_) | refine keeps_runPkt H2 ?_ ?_ | split | dsimp only

theorem keeps_opCkpSetTrigger {P : State → Prop} (H : Keeps P 0x80000) : SpecAll P opCkpSetTrigger := by
  refine ⟨fun _ _ _ _ _ => ?_, fun _ _ _ _ => ?_⟩ <;> dsimp only [opCkpSetTrigger]
  with_reducible repeat' first
    | assumption | intro _ | exact VAll.refuse _ _ | exact VAll.refuseAt _ _ _ | refine VAll.done _ _ _ _ ?_
    | refine VAll.doneAs _ _ _ _ _ ?_ | refine VAll.wait _ _ _ ?_ | refine keeps_onCk ?_ ?_ | refine keeps_Verdict_ok ?_
    | refine keeps_upCk H ?_ | split | dsimp only

theorem keeps_execCkpSetTrigger {P : State → Prop} {h : Hdr} {p : Bytes} {s : State} (H : Keeps P 0x6c80557) (h2 : P s) : ResAll P
    (execCkpSetTrigger h p s) := by
  have H1 : Keeps P 0x80000 := H.mono rfl
  have H2 : Keeps P 0x6c00557 := H.mono rfl
  unfold execCkpSetTrigger
  with_reducible repeat' first
    | assumption | intro _ | refine res_next ?_ | refine keeps_opCkpSetTrigger H1
    | refine res_get ‹_ = Host.Outcome.next _› (keeps_runPkt H2 ?_ ?_) | refine keeps_runPkt H2 ?_ ?_ | split | dsimp only

theorem keeps_wbEnter {P : State → Prop} {s : State} {n : Ns} {first : Nat} {count : Nat} {zero : Nat} {wr : Nat} {data : Bytes} (H : Keeps
    P 0x80) (h0 : P s) : P (State.wbEnter s n first count zero wr data) := by
  unfold State.wbEnter
  with_reducible repeat' first
    | assumption | intro _ | refine keeps_foldl ?_ ?_ | refine keeps_foldl_fst ?_ ?_ | refine keeps_foldl_snd ?_ ?_
    | refine keeps_upSto H ?_ | refine keeps_upNs H ?_ | split | dsimp only

theorem keeps_intAdvance {P : State → Prop} {a : Nat} {x1 : State} {x2 : IntUse} (H : Keeps P 0x80) (h1 : P x1) : P (State.intAdvance a x1
    x2) := by
  induction a generalizing x1 x2 with
  | zero =>
    unfold State.intAdvance
    with_reducible repeat' first
      | assumption | intro _ | refine keeps_upSto H ?_ | refine keeps_wbEnter H ?_ | refine keeps_upInt H ?_ | split | dsimp only
  | succ _ ih =>
    unfold State.intAdvance
    with_reducible repeat' first
      | assumption | intro _ | refine ih ?_ | refine keeps_upSto H ?_ | refine keeps_wbEnter H ?_ | refine keeps_upInt H ?_ | split
      | dsimp only

theorem keeps_drainBegin {P : State → Prop} {s : State} {h : Nat} (H : Keeps P 0x80080) (h0 : P s) : P (State.drainBegin s h) := by
  have H1 : Keeps P 0x80 := H.mono rfl
  have H2 : Keeps P 0x80000 := H.mono rfl
  unfold State.drainBegin
  with_reducible repeat' first
    | assumption | intro _ | refine keeps_upSto H1 ?_ | refine keeps_intAdvance H1 ?_ | refine keeps_upCk H2 ?_
    | refine keeps_intDrop H1 ?_ | split | dsimp only

theorem keeps_captureBegin {P : State → Prop} {s : State} {h : Nat} {step : Nat} {noCue : Bool} (H : Keeps P 0x80081) (h0 : P s) : P
    (State.captureBegin s h step noCue) := by
  have H1 : Keeps P 0x80000 := H.mono rfl
  have H2 : Keeps P 0x80080 := H.mono rfl
  have H3 : Keeps P 0x80 := H.mono rfl
  have H4 : Keeps P 0x1 := H.mono rfl
  unfold State.captureBegin
  with_reducible repeat' first
    | assumption | intro _ | exact opt_none | refine opt_some ?_ | refine opt_bindS ?_ ?_ | refine opt_bind ?_ | refine opt_ite ?_ ?_
    | refine keeps_upCkp H1 ?_ | refine keeps_drainBegin H2 ?_ | refine keeps_upCk H1 ?_ | refine keeps_intDrop H3 ?_
    | refine keeps_emit H4 ?_ | split | dsimp only

theorem keeps_opCkpCapture {P : State → Prop} (H : Keeps P 0x44b0193) : SpecAll P opCkpCapture := by
  have H1 : Keeps P 0x80081 := H.mono rfl
  have H2 : Keeps P 0x4480111 := H.mono rfl
  have H3 : Keeps P 0x80000 := H.mono rfl
  have H4 : Keeps P 0x4430113 := H.mono rfl
  refine ⟨fun _ _ _ _ _ => ?_, fun _ _ _ _ => ?_⟩ <;> dsimp only [opCkpCapture]
  with_reducible repeat' first
    | assumption | intro _ | exact VAll.refuse _ _ | exact VAll.refuseAt _ _ _ | refine VAll.done _ _ _ _ ?_
    | refine VAll.doneAs _ _ _ _ _ ?_ | refine VAll.wait _ _ _ ?_ | refine keeps_captureBegin H1 ?_ | refine keeps_onCk ?_ ?_
    | refine keeps_badState | refine keeps_ckpFlag H2 ?_ | refine keeps_upCk H3 ?_ | refine keeps_setGuards H4 ?_ | split | dsimp only

theorem keeps_execCkpCapture {P : State → Prop} {h : Hdr} {p : Bytes} {s : State} (H : Keeps P 0x6cb05d7) (h2 : P s) : ResAll P
    (execCkpCapture h p s) := by
  have H1 : Keeps P 0x44b0193 := H.mono rfl
  have H2 : Keeps P 0x6c00557 := H.mono rfl
  unfold execCkpCapture
  with_reducible repeat' first
    | assumption | intro _ | refine res_next ?_ | refine keeps_opCkpCapture H1
    | refine res_get ‹_ = Host.Outcome.next _› (keeps_runPkt H2 ?_ ?_) | refine keeps_runPkt H2 ?_ ?_ | split | dsimp only

theorem keeps_opCkpGetJob {P : State → Prop} (H : Keeps P 0x4800001) : SpecAll P opCkpGetJob := by
  refine ⟨fun _ _ _ _ _ => ?_, fun _ _ _ _ => ?_⟩ <;> dsimp only [opCkpGetJob]
  with_reducible repeat' first
    | assumption | intro _ | exact VAll.refuse _ _ | exact VAll.refuseAt _ _ _ | refine VAll.done _ _ _ _ ?_
    | refine VAll.doneAs _ _ _ _ _ ?_ | refine VAll.wait _ _ _ ?_ | refine keeps_onCk ?_ ?_ | refine keeps_hostWrite H ?_ | split
    | dsimp only

theorem keeps_execCkpGetJob {P : State → Prop} {h : Hdr} {p : Bytes} {s : State} (H : Keeps P 0x6c00557) (h2 : P s) : ResAll P
    (execCkpGetJob h p s) := by
  have H1 : Keeps P 0x4800001 := H.mono rfl
  unfold execCkpGetJob
  with_reducible repeat' first
    | assumption | intro _ | refine res_next ?_ | refine keeps_opCkpGetJob H1
    | refine res_get ‹_ = Host.Outcome.next _› (keeps_runPkt H ?_ ?_) | refine keeps_runPkt H ?_ ?_ | split | dsimp only

theorem keeps_sourceRead {P : State → Prop} {s : State} {h : Nat} {j : CkJob} {r : Restore} {i : Nat} (H : Keeps P 0x1) (h0 : P s) : P
    (State.sourceRead s h j r i) := by
  unfold State.sourceRead
  with_reducible repeat' first
    | assumption | intro _ | refine keeps_emit H ?_ | split | dsimp only

theorem keeps_restoreEnd {P : State → Prop} {s : State} {h : Nat} (H : Keeps P 0x6cb0553) (h0 : P s) : P (State.restoreEnd s h) := by
  have H1 : Keeps P 0x6c80553 := H.mono rfl
  have H2 : Keeps P 0x80000 := H.mono rfl
  have H3 : Keeps P 0x4430113 := H.mono rfl
  have H4 : Keeps P 0x6c00553 := H.mono rfl
  have H5 : Keeps P 0x4800001 := H.mono rfl
  unfold State.restoreEnd
  with_reducible repeat' first
    | assumption | intro _ | refine keeps_resync H1 ?_ | refine keeps_upCk H2 ?_ | refine keeps_setGuards H3 ?_
    | refine keeps_finishAll H4 ?_ | refine keeps_hostWrite H5 ?_ | split | dsimp only

theorem keeps_opCkpRestore {P : State → Prop} (H : Keeps P 0x6cb0553) : SpecAll P opCkpRestore := by
  have H1 : Keeps P 0x1 := H.mono rfl
  have H2 : Keeps P 0x80000 := H.mono rfl
  have H3 : Keeps P 0x4430113 := H.mono rfl
  refine ⟨fun _ _ _ _ _ => ?_, fun _ _ _ _ => ?_⟩ <;> dsimp only [opCkpRestore]
  with_reducible repeat' first
    | assumption | intro _ | exact VAll.refuse _ _ | exact VAll.refuseAt _ _ _ | refine VAll.done _ _ _ _ ?_
    | refine VAll.doneAs _ _ _ _ _ ?_ | refine VAll.wait _ _ _ ?_ | exact opt_none | refine opt_some ?_ | refine opt_map2 (P := P) ?_ ?_
    | refine opt_map ?_ | refine opt_ite ?_ ?_ | refine keeps_foldl ?_ ?_ | refine keeps_foldl_fst ?_ ?_ | refine keeps_foldl_snd ?_ ?_
    | refine opt_foldl ?_ ?_ | refine keeps_restoreEnd H ?_ | refine keeps_sourceRead H1 ?_ | refine keeps_onCk ?_ ?_
    | refine keeps_badState | refine keeps_upCk H2 ?_ | refine keeps_setGuards H3 ?_ | split | dsimp only

theorem keeps_execCkpRestore {P : State → Prop} {h : Hdr} {p : Bytes} {s : State} (H : Keeps P 0x6cb0557) (h2 : P s) : ResAll P
    (execCkpRestore h p s) := by
  have H1 : Keeps P 0x6cb0553 := H.mono rfl
  have H2 : Keeps P 0x6c00557 := H.mono rfl
  unfold execCkpRestore
  with_reducible repeat' first
    | assumption | intro _ | refine res_next ?_ | refine keeps_opCkpRestore H1
    | refine res_get ‹_ = Host.Outcome.next _› (keeps_runPkt H2 ?_ ?_) | refine keeps_runPkt H2 ?_ ?_ | split | dsimp only

theorem keeps_storeOpen {P : State → Prop} {s : State} (H : Keeps P 0x1000000) (h0 : P s) : P (State.storeOpen s) := by
  unfold State.storeOpen
  with_reducible repeat' first
    | assumption | intro _ | refine keeps_upFlash H ?_ | split | dsimp only

theorem keeps_storeAdd {P : State → Prop} {s : State} {item : Nat} {body : Bytes} {cls : Nat} (H : Keeps P 0x3000000) (h0 : P s) : P
    (State.storeAdd s item body cls) := by
  have H1 : Keeps P 0x2000000 := H.mono rfl
  have H2 : Keeps P 0x1000000 := H.mono rfl
  unfold State.storeAdd
  with_reducible repeat' first
    | assumption | intro _ | refine keeps_upSm H1 ?_ | refine keeps_storeOpen H2 ?_ | split | dsimp only

theorem keeps_storeCmd {P : State → Prop} {s : State} {item : Nat} {body : Bytes} {cls : Nat} (H : Keeps P 0x3000000) (h0 : P s) : VAll P
    (State.storeCmd s item body cls) := by
  unfold State.storeCmd
  with_reducible repeat' first
    | assumption | intro _ | exact VAll.refuse _ _ | exact VAll.refuseAt _ _ _ | refine VAll.done _ _ _ _ ?_
    | refine VAll.doneAs _ _ _ _ _ ?_ | refine VAll.wait _ _ _ ?_ | refine keeps_storeAdd H ?_ | split | dsimp only

theorem keeps_opCkpSetSigners {P : State → Prop} (H : Keeps P 0x3000000) : SpecAll P opCkpSetSigners := by
  refine ⟨fun _ _ _ _ _ => ?_, fun _ _ _ _ => ?_⟩ <;> dsimp only [opCkpSetSigners]
  with_reducible repeat' first
    | assumption | intro _ | exact VAll.refuse _ _ | exact VAll.refuseAt _ _ _ | refine VAll.done _ _ _ _ ?_
    | refine VAll.doneAs _ _ _ _ _ ?_ | refine VAll.wait _ _ _ ?_ | refine keeps_storeCmd H ?_ | split | dsimp only

theorem keeps_execCkpSetSigners {P : State → Prop} {h : Hdr} {p : Bytes} {s : State} (H : Keeps P 0x7c00557) (h2 : P s) : ResAll P
    (execCkpSetSigners h p s) := by
  have H1 : Keeps P 0x3000000 := H.mono rfl
  have H2 : Keeps P 0x6c00557 := H.mono rfl
  unfold execCkpSetSigners
  with_reducible repeat' first
    | assumption | intro _ | refine res_next ?_ | refine keeps_opCkpSetSigners H1
    | refine res_get ‹_ = Host.Outcome.next _› (keeps_runPkt H2 ?_ ?_) | refine keeps_runPkt H2 ?_ ?_ | split | dsimp only

theorem keeps_opCkpCloseJob {P : State → Prop} (H : Keeps P 0x6ca05d3) : SpecAll P opCkpCloseJob := by
  have H1 : Keeps P 0x80000 := H.mono rfl
  refine ⟨fun _ _ _ _ _ => ?_, fun _ _ _ _ => ?_⟩ <;> dsimp only [opCkpCloseJob]
  with_reducible repeat' first
    | assumption | intro _ | exact VAll.refuse _ _ | exact VAll.refuseAt _ _ _ | refine VAll.done _ _ _ _ ?_
    | refine VAll.doneAs _ _ _ _ _ ?_ | refine VAll.wait _ _ _ ?_ | refine keeps_upCkp H1 ?_ | refine keeps_onCk ?_ ?_
    | refine keeps_Verdict_ok ?_ | refine keeps_badState | refine keeps_ckpClose H ?_ | split | dsimp only

theorem keeps_execCkpCloseJob {P : State → Prop} {h : Hdr} {p : Bytes} {s : State} (H : Keeps P 0x6ca05d7) (h2 : P s) : ResAll P
    (execCkpCloseJob h p s) := by
  have H1 : Keeps P 0x6ca05d3 := H.mono rfl
  have H2 : Keeps P 0x6c00557 := H.mono rfl
  unfold execCkpCloseJob
  with_reducible repeat' first
    | assumption | intro _ | refine res_next ?_ | refine keeps_opCkpCloseJob H1
    | refine res_get ‹_ = Host.Outcome.next _› (keeps_runPkt H2 ?_ ?_) | refine keeps_runPkt H2 ?_ ?_ | split | dsimp only

theorem keeps_opCkpReadBank {P : State → Prop} (H : Keeps P 0x4800001) : SpecAll P opCkpReadBank := by
  refine ⟨fun _ _ _ _ _ => ?_, fun _ _ _ _ => ?_⟩ <;> dsimp only [opCkpReadBank]
  with_reducible repeat' first
    | assumption | intro _ | exact VAll.refuse _ _ | exact VAll.refuseAt _ _ _ | refine VAll.done _ _ _ _ ?_
    | refine VAll.doneAs _ _ _ _ _ ?_ | refine VAll.wait _ _ _ ?_ | refine ver_getD ?_ ?_ | refine keeps_onCk ?_ ?_
    | refine keeps_Verdict_ok ?_ | refine keeps_hostWrite H ?_ | split | dsimp only

theorem keeps_execCkpReadBank {P : State → Prop} {h : Hdr} {p : Bytes} {s : State} (H : Keeps P 0x6c00557) (h2 : P s) : ResAll P
    (execCkpReadBank h p s) := by
  have H1 : Keeps P 0x4800001 := H.mono rfl
  unfold execCkpReadBank
  with_reducible repeat' first
    | assumption | intro _ | refine res_next ?_ | refine keeps_opCkpReadBank H1
    | refine res_get ‹_ = Host.Outcome.next _› (keeps_runPkt H ?_ ?_) | refine keeps_runPkt H ?_ ?_ | split | dsimp only

theorem keeps_onJobCk {P : State → Prop} {s : State} {h : Nat} {f : State → CkJob → State} (h0 : P s) (h2 : ∀ y1 y2, P y1 → P (f y1 y2)) :
    ResAll P (onJobCk s h f) := by
  unfold onJobCk
  with_reducible repeat' first
    | assumption | intro _ | refine h2 _ _ ?_ | refine res_next ?_ | refine res_get ‹_ = Host.Outcome.next _› (keeps_onMain ?_ ?_)
    | refine keeps_onMain ?_ ?_ | split | dsimp only

theorem keeps_onCapture {P : State → Prop} {s : State} {h : Nat} {f : State → CkJob → Capture → State} (h0 : P s) (h2 : ∀ y1 y2 y3, P y1 → P
    (f y1 y2 y3)) : ResAll P (onCapture s h f) := by
  unfold onCapture
  with_reducible repeat' first
    | assumption | intro _ | refine h2 _ _ _ ?_ | refine res_next ?_ | refine res_get ‹_ = Host.Outcome.next _› (keeps_onJobCk ?_ ?_)
    | refine keeps_onJobCk ?_ ?_ | split | dsimp only

theorem keeps_latchRefuse {P : State → Prop} {s : State} {n : Nat} {feed : Bool} (H : Keeps P 0x30000) (h0 : P s) : P (State.latchRefuse s n
    feed) := by
  have H1 : Keeps P 0x10000 := H.mono rfl
  have H2 : Keeps P 0x20000 := H.mono rfl
  unfold State.latchRefuse
  with_reducible repeat' first
    | assumption | intro _ | refine keeps_upFeed H1 ?_ | refine keeps_upCell H2 ?_ | split | dsimp only

theorem keeps_upCapture {P : State → Prop} {s : State} {h : Nat} {f : Capture → Capture} (H : Keeps P 0x80000) (h0 : P s) : P
    (State.upCapture s h f) := by
  unfold State.upCapture
  with_reducible repeat' first
    | assumption | intro _ | exact opt_none | refine opt_some ?_ | refine opt_map2 (P := P) ?_ ?_ | refine opt_map ?_
    | refine keeps_upCk H ?_ | split | dsimp only

theorem keeps_shardRead {P : State → Prop} {s : State} {j : CkJob} {c : Capture} {i : Nat} (H : Keeps P 0x1) (h0 : P s) : P (State.shardRead
    s j c i) := by
  unfold State.shardRead
  with_reducible repeat' first
    | assumption | intro _ | refine keeps_emit H ?_ | split | dsimp only

theorem keeps_overtake {P : State → Prop} {s : State} {h : Nat} {i : Nat} (H : Keeps P 0x80003) (h0 : P s) : P (State.overtake s h i) := by
  have H1 : Keeps P 0x1 := H.mono rfl
  have H2 : Keeps P 0x80000 := H.mono rfl
  have H3 : Keeps P 0x2 := H.mono rfl
  unfold State.overtake
  with_reducible repeat' first
    | assumption | intro _ | exact opt_none | refine opt_some ?_ | refine opt_map2 (P := P) ?_ ?_ | refine opt_map ?_
    | refine opt_bindS ?_ ?_ | refine opt_bind ?_ | refine opt_ite ?_ ?_ | refine keeps_shardRead H1 ?_ | refine keeps_upCapture H2 ?_
    | refine keeps_spent H3 ?_ | split | dsimp only

theorem keeps_awaitJob {P : State → Prop} {s : State} {h : Nat} {n : Nat} (H : Keeps P 0x80003) (h0 : P s) : P (State.awaitJob s h n) := by
  have H1 : Keeps P 0x80000 := H.mono rfl
  unfold State.awaitJob
  with_reducible repeat' first
    | assumption | intro _ | exact opt_none | refine opt_some ?_ | refine opt_map2 (P := P) ?_ ?_ | refine opt_map ?_
    | refine opt_bindS ?_ ?_ | refine opt_bind ?_ | refine opt_ite ?_ ?_ | refine keeps_foldl ?_ ?_ | refine keeps_foldl_fst ?_ ?_
    | refine keeps_foldl_snd ?_ ?_ | refine opt_foldl ?_ ?_ | refine keeps_overtake H ?_ | refine keeps_upCk H1 ?_ | split | dsimp only

theorem keeps_latchAwait {P : State → Prop} {s : State} {n : Nat} (H : Keeps P 0x80003) (h0 : P s) : P (State.latchAwait s n) := by
  unfold State.latchAwait
  with_reducible repeat' first
    | assumption | intro _ | refine keeps_foldl ?_ ?_ | refine keeps_awaitJob H ?_ | split | dsimp only

theorem keeps_latchAdd {P : State → Prop} {s : State} {n : Nat} {inc : Nat} {feed : Bool} (H : Keeps P 0x44b0113) (h0 : P s) : P
    (State.latchAdd s n inc feed) := by
  have H1 : Keeps P 0x80003 := H.mono rfl
  have H2 : Keeps P 0x30000 := H.mono rfl
  have H3 : Keeps P 0x4430113 := H.mono rfl
  unfold State.latchAdd
  with_reducible repeat' first
    | assumption | intro _ | refine keeps_latchAwait H1 ?_ | refine keeps_latchRefuse H2 ?_ | refine keeps_latchSet H3 ?_ | split
    | dsimp only

theorem keeps_latchAddFor {P : State → Prop} {s : State} {fn : Nat} {j : Nat} {inc : Nat} (H : Keeps P 0x44b0113) (h0 : P s) : P
    (State.latchAddFor s fn j inc) := by
  unfold State.latchAddFor
  with_reducible repeat' first
    | assumption | intro _ | refine keeps_latchAdd H ?_ | split | dsimp only

theorem keeps_triggerInput {P : State → Prop} {s : State} (H : Keeps P 0x4000112) (h0 : P s) : P (State.triggerInput s) := by
  unfold State.triggerInput
  with_reducible repeat' first
    | assumption | intro _ | refine keeps_traceOther H ?_ | split | dsimp only

theorem keeps_cueAct {P : State → Prop} {s : State} {i : Nat} {e : CueEvent} (H : Keeps P 0x44b0113) (h0 : P s) : P (State.cueAct s i e) :=
    by
  have H1 : Keeps P 0x4000112 := H.mono rfl
  have H2 : Keeps P 0x4400111 := H.mono rfl
  unfold State.cueAct
  with_reducible repeat' first
    | assumption | intro _ | refine keeps_triggerInput H1 ?_ | refine keeps_latchAddFor H ?_ | refine keeps_raiseFor H2 ?_
    | refine keeps_note H2 ?_ | refine keeps_withObs H2 ?_ ?_ | split | dsimp only

theorem keeps_cueFire {P : State → Prop} {s : State} {i : Nat} {e : CueEvent} (H : Keeps P 0x44b0133) (h0 : P s) : P (State.cueFire s i e)
    := by
  have H1 : Keeps P 0x44b0113 := H.mono rfl
  have H2 : Keeps P 0x20 := H.mono rfl
  unfold State.cueFire
  with_reducible repeat' first
    | assumption | intro _ | refine keeps_cueAct H1 ?_ | refine keeps_upEvents H2 ?_ | split | dsimp only

theorem keeps_warnDecided {P : State → Prop} {s : State} {h : Nat} {j : CkJob} {step : Nat} (H : Keeps P 0x80000) (h0 : P s) : P
    (State.warnDecided s h j step) := by
  unfold State.warnDecided
  with_reducible repeat' first
    | assumption | intro _ | refine keeps_upCkp H ?_ | refine keeps_upCk H ?_ | split | dsimp only

theorem keeps_decide_ {P : State → Prop} {s : State} {h : Nat} {j : CkJob} (H : Keeps P 0x6cb05d3) (h0 : P s) : P (State.decide_ s h j) :=
    by
  have H1 : Keeps P 0x80000 := H.mono rfl
  have H2 : Keeps P 0x80081 := H.mono rfl
  have H3 : Keeps P 0x6c00553 := H.mono rfl
  have H4 : Keeps P 0x4480111 := H.mono rfl
  have H5 : Keeps P 0x4430113 := H.mono rfl
  unfold State.decide_
  with_reducible repeat' first
    | assumption | intro _ | refine keeps_warnDecided H1 ?_ | refine keeps_captureBegin H2 ?_ | refine keeps_endCapture H3 ?_
    | refine keeps_ckpFlag H4 ?_ | refine keeps_upCk H1 ?_ | refine keeps_setGuards H5 ?_ | split | dsimp only

theorem keeps_captureStart {P : State → Prop} {s : State} {h : Nat} {j : CkJob} {c : Capture} (H : Keeps P 0x80001) (h0 : P s) : P
    (State.captureStart s h j c) := by
  have H1 : Keeps P 0x1 := H.mono rfl
  have H2 : Keeps P 0x80000 := H.mono rfl
  unfold State.captureStart
  with_reducible repeat' first
    | assumption | intro _ | refine keeps_foldl ?_ ?_ | refine opt_foldl ?_ ?_ | refine keeps_shardRead H1 ?_ | refine keeps_upCk H2 ?_
    | split | dsimp only

theorem keeps_makeBatch {P : State → Prop} {s : State} {h : Nat} {ring : Nat} {step : Nat} {slots : List Slot} {fill : Bool} (H : Keeps P
    0x4c08115) (h0 : P s) : P (State.makeBatch s h ring step slots fill) := by
  have H1 : Keeps P 0x8000 := H.mono rfl
  have H2 : Keeps P 0x4808004 := H.mono rfl
  have H3 : Keeps P 0x4400111 := H.mono rfl
  unfold State.makeBatch
  with_reducible repeat' first
    | assumption | intro _ | exact opt_none | refine opt_some ?_ | refine opt_map2 (P := P) ?_ ?_ | refine opt_map ?_
    | refine opt_ite ?_ ?_ | refine keeps_foldl ?_ ?_ | refine keeps_foldl_fst ?_ ?_ | refine keeps_foldl_snd ?_ ?_
    | refine opt_foldl ?_ ?_ | refine keeps_upLoom H1 ?_ | refine keeps_upSample H2 ?_ | refine keeps_upJob H1 ?_
    | refine keeps_upJobX H1 ?_ | refine keeps_flag H3 ?_ ?_ | split | dsimp only

theorem keeps_weaveRing {P : State → Prop} {a : Nat} {x1 : State} {x2 : Nat} {x3 : Nat} (H : Keeps P 0x4c08115) (h1 : P x1) : P
    (State.weaveRing a x1 x2 x3) := by
  induction a generalizing x1 x2 x3 with
  | zero =>
    unfold State.weaveRing
    with_reducible repeat' first
      | assumption | intro _ | refine keeps_makeBatch H ?_ | split | dsimp only
  | succ _ ih =>
    unfold State.weaveRing
    with_reducible repeat' first
      | assumption | intro _ | refine ih ?_ | refine keeps_makeBatch H ?_ | split | dsimp only

theorem keeps_weaveJob {P : State → Prop} {s : State} {h : Nat} (H : Keeps P 0x4c08115) (h0 : P s) : P (State.weaveJob s h) := by
  unfold State.weaveJob
  with_reducible repeat' first
    | assumption | intro _ | refine keeps_foldl ?_ ?_ | refine keeps_weaveRing H ?_ | split | dsimp only

theorem keeps_xKick {P : State → Prop} {a : Nat} {x1 : State} {x2 : Nat} {x3 : Nat} (H : Keeps P 0x4408513) (h1 : P x1) : P (State.xKick a
    x1 x2 x3) := by
  have H1 : Keeps P 0x8000 := H.mono rfl
  have H2 : Keeps P 0x4400513 := H.mono rfl
  induction a generalizing x1 x2 x3 with
  | zero =>
    unfold State.xKick
    with_reducible repeat' first
      | assumption | intro _ | refine keeps_xSend H ?_ | refine keeps_upJobX H1 ?_ | refine keeps_qpWrite H2 ?_ | split | dsimp only
  | succ _ ih =>
    unfold State.xKick
    with_reducible repeat' first
      | assumption | intro _ | refine ih ?_ | refine keeps_xSend H ?_ | refine keeps_upJobX H1 ?_ | refine keeps_qpWrite H2 ?_ | split
      | dsimp only

theorem keeps_xRecord {P : State → Prop} {s : State} {h : Nat} {rank : Nat} {m : Sample} {payload : Bytes} (H : Keeps P 0x4408513) (h0 : P
    s) : P (State.xRecord s h rank m payload) := by
  have H1 : Keeps P 0x8000 := H.mono rfl
  unfold State.xRecord
  with_reducible repeat' first
    | assumption | intro _ | refine keeps_xKick H ?_ | refine keeps_upJobX H1 ?_ | split | dsimp only

theorem keeps_sendResident {P : State → Prop} {s : State} {h : Nat} {j : Job} {no : Nat} {dest : Nat} (H : Keeps P 0x4408513) (h0 : P s) : P
    (State.sendResident s h j no dest) := by
  unfold State.sendResident
  with_reducible repeat' first
    | assumption | intro _ | refine keeps_xRecord H ?_ | refine keeps_freeSample H ?_ | split | dsimp only

theorem keeps_upFetch {P : State → Prop} {s : State} {h : Nat} {warp : Nat} {abs : Nat} {f : Fetch → Fetch} (H : Keeps P 0x8000) (h0 : P s)
    : P (State.upFetch s h warp abs f) := by
  unfold State.upFetch
  with_reducible repeat' first
    | assumption | intro _ | refine keeps_upJob H ?_ | split | dsimp only

theorem keeps_wbUse {P : State → Prop} {s : State} {x : Ns} {first : Nat} {count : Nat} (H : Keeps P 0x80) (h0 : P s) : P (State.wbUse s x
    first count) := by
  unfold State.wbUse
  with_reducible repeat' first
    | assumption | intro _ | refine keeps_upSto H ?_ | split | dsimp only

theorem keeps_intAdmit {P : State → Prop} {s : State} {u : IntUse} (H : Keeps P 0x81) (h0 : P s) : P (State.intAdmit s u) := by
  have H1 : Keeps P 0x80 := H.mono rfl
  unfold State.intAdmit
  with_reducible repeat' first
    | assumption | intro _ | refine keeps_foldl ?_ ?_ | refine opt_foldl ?_ ?_ | refine keeps_wbUse H1 ?_ | refine keeps_readPart H ?_
    | refine keeps_upInt H1 ?_ | split | dsimp only

theorem keeps_intBegin {P : State → Prop} {s : State} {u : IntUse} {ctrl : Nat} {nsid : Nat} {off : Nat} {len : Nat} (H : Keeps P 0x81) (h0
    : P s) : P (State.intBegin s u ctrl nsid off len) := by
  have H1 : Keeps P 0x80 := H.mono rfl
  have H2 : Keeps P 0x1 := H.mono rfl
  unfold State.intBegin
  with_reducible repeat' first
    | assumption | intro _ | refine keeps_upSto H1 ?_ | refine keeps_intAdmit H ?_ | refine keeps_intDrop H1 ?_ | refine keeps_emit H2 ?_
    | split | dsimp only

theorem keeps_readIndex {P : State → Prop} {s : State} {h : Nat} {j : Job} {w : Warp} {warp : Nat} {abs : Nat} (H : Keeps P 0x81) (h0 : P s)
    : P (State.readIndex s h j w warp abs) := by
  unfold State.readIndex
  with_reducible repeat' first
    | assumption | intro _ | refine keeps_intBegin H ?_ | split | dsimp only

theorem keeps_askAgain {P : State → Prop} {s : State} {h : Nat} {j : Job} {rank : Nat} {warp : Nat} {abs : Nat} (H : Keeps P 0x4408513) (h0
    : P s) : P (State.askAgain s h j rank warp abs) := by
  unfold State.askAgain
  with_reducible repeat' first
    | assumption | intro _ | refine keeps_xSend H ?_ | split | dsimp only

theorem keeps_fetchBegin {P : State → Prop} {s : State} {h : Nat} {j : Job} {f : Fetch} (H : Keeps P 0x4408593) (h0 : P s) : P
    (State.fetchBegin s h j f) := by
  have H1 : Keeps P 0x4408513 := H.mono rfl
  have H2 : Keeps P 0x81 := H.mono rfl
  have H3 : Keeps P 0x8000 := H.mono rfl
  unfold State.fetchBegin
  with_reducible repeat' first
    | assumption | intro _ | refine keeps_askAgain H1 ?_ | refine keeps_readIndex H2 ?_ | refine keeps_upJob H3 ?_
    | refine keeps_upJobX H3 ?_ | split | dsimp only

theorem keeps_fetchOne {P : State → Prop} {s : State} {h : Nat} {i : Nat} {k : Nat} {step : Nat} {dest : Nat} (H : Keeps P 0x4408593) (h0 :
    P s) : P (State.fetchOne s h i k step dest) := by
  have H1 : Keeps P 0x8000 := H.mono rfl
  have H2 : Keeps P 0x4408513 := H.mono rfl
  unfold State.fetchOne
  with_reducible repeat' first
    | assumption | intro _ | refine keeps_fetchBegin H ?_ | refine keeps_upFetch H1 ?_ | refine keeps_sendResident H2 ?_ | split
    | dsimp only

theorem keeps_fetchStep {P : State → Prop} {s : State} {h : Nat} {step : Nat} (H : Keeps P 0x4408593) (h0 : P s) : P (State.fetchStep s h
    step) := by
  have H1 : Keeps P 0x8000 := H.mono rfl
  unfold State.fetchStep
  with_reducible repeat' first
    | assumption | intro _ | exact opt_none | refine opt_some ?_ | refine opt_map2 (P := P) ?_ ?_ | refine opt_map ?_
    | refine opt_ite ?_ ?_ | refine keeps_foldl ?_ ?_ | refine keeps_fetchOne H ?_ | refine keeps_upJob H1 ?_ | split | dsimp only

theorem keeps_rescue {P : State → Prop} {s : State} {h : Nat} {warp : Nat} {abs : Nat} (H : Keeps P 0x4408191) (h0 : P s) : P (State.rescue
    s h warp abs) := by
  have H1 : Keeps P 0x8000 := H.mono rfl
  have H2 : Keeps P 0x81 := H.mono rfl
  have H3 : Keeps P 0x4400111 := H.mono rfl
  unfold State.rescue
  with_reducible repeat' first
    | assumption | intro _ | refine keeps_upLoom H1 ?_ | refine keeps_readIndex H2 ?_ | refine keeps_upFetch H1 ?_
    | refine keeps_flag H3 ?_ ?_ | split | dsimp only

theorem keeps_handOver {P : State → Prop} {s : State} {h : Nat} {b : Batch} (H : Keeps P 0x4418513) (h0 : P s) : P (State.handOver s h b) :=
    by
  have H1 : Keeps P 0x8000 := H.mono rfl
  have H2 : Keeps P 0x10000 := H.mono rfl
  have H3 : Keeps P 0x4408513 := H.mono rfl
  have H4 : Keeps P 0x4400111 := H.mono rfl
  unfold State.handOver
  with_reducible repeat' first
    | assumption | intro _ | refine keeps_upLoom H1 ?_ | refine keeps_upFeed H2 ?_ | refine keeps_batchRelease H3 ?_
    | refine keeps_upJob H1 ?_ | refine keeps_upJobX H1 ?_ | refine keeps_flag H4 ?_ ?_ | split | dsimp only

theorem keeps_weaveWaits {P : State → Prop} {s : State} {h : Nat} {j : Job} {ring : Nat} {step : Nat} (H : Keeps P 0x8000) (h0 : P s) : P
    (State.weaveWaits s h j ring step) := by
  unfold State.weaveWaits
  with_reducible repeat' first
    | assumption | intro _ | refine keeps_upLoom H ?_ | refine keeps_upJobX H ?_ | split | dsimp only

theorem keeps_weaveClose {P : State → Prop} {s : State} {h : Nat} {ring : Nat} {step : Nat} (H : Keeps P 0x4c18517) (h0 : P s) : P
    (State.weaveClose s h ring step) := by
  have H1 : Keeps P 0x8000 := H.mono rfl
  have H2 : Keeps P 0x4418513 := H.mono rfl
  have H3 : Keeps P 0x4c08115 := H.mono rfl
  unfold State.weaveClose
  with_reducible repeat' first
    | assumption | intro _ | refine keeps_weaveWaits H1 ?_ | refine keeps_handOver H2 ?_ | refine keeps_weaveJob H3 ?_
    | refine keeps_makeBatch H3 ?_ | split | dsimp only

theorem keeps_ownFire {P : State → Prop} {s : State} {w : OwnWork} (H : Keeps P 0x6cb85d7) (h0 : P s) : P (State.ownFire s w) := by
  have H1 : Keeps P 0x4c18517 := H.mono rfl
  have H2 : Keeps P 0x4408191 := H.mono rfl
  have H3 : Keeps P 0x4408593 := H.mono rfl
  have H4 : Keeps P 0x4c08115 := H.mono rfl
  have H5 : Keeps P 0x80001 := H.mono rfl
  have H6 : Keeps P 0x6cb05d3 := H.mono rfl
  unfold State.ownFire
  with_reducible repeat' first
    | assumption | intro _ | exact opt_none | refine opt_some ?_ | refine opt_map2 (P := P) ?_ ?_ | refine opt_map ?_
    | refine opt_bindS ?_ ?_ | refine opt_bind ?_ | refine keeps_weaveClose H1 ?_ | refine keeps_rescue H2 ?_
    | refine keeps_fetchStep H3 ?_ | refine keeps_weaveJob H4 ?_ | refine keeps_captureStart H5 ?_ | refine keeps_decide_ H6 ?_ | split
    | dsimp only

theorem keeps_cueStep {P : State → Prop} {s : State} {own : Int} {fn : Int} (H : Keeps P 0x6cb85f7) (h0 : P s) : OptAll P (State.cueStep s
    own fn) := by
  have H1 : Keeps P 0x6cb85d7 := H.mono rfl
  have H2 : Keeps P 0x44b0133 := H.mono rfl
  unfold State.cueStep
  with_reducible repeat' first
    | assumption | intro _ | exact opt_none | refine opt_some ?_ | refine opt_ite ?_ ?_ | refine keeps_ownFire H1 ?_
    | refine keeps_cueFire H2 ?_ | split | dsimp only

theorem keeps_cueRun {P : State → Prop} {own : Int} {fn : Int} {a : Nat} {x3 : State} (H : Keeps P 0x6cb85f7) (h3 : P x3) : P (State.cueRun
    own fn a x3) := by
  induction a generalizing own fn x3 with
  | zero =>
    unfold State.cueRun
    with_reducible repeat' first
      | assumption | intro _ | refine opt_get ‹_ = some _› (keeps_cueStep H ?_) | refine keeps_cueStep H ?_ | split | dsimp only
  | succ _ ih =>
    unfold State.cueRun
    with_reducible repeat' first
      | assumption | intro _ | refine ih ?_ | refine opt_get ‹_ = some _› (keeps_cueStep H ?_) | refine keeps_cueStep H ?_ | split
      | dsimp only

theorem keeps_cueTo {P : State → Prop} {s : State} {own : Int} {fn : Int} (H : Keeps P 0x6cb85f7) (h0 : P s) : P (State.cueTo s own fn) :=
    by
  unfold State.cueTo
  with_reducible repeat' first
    | assumption | intro _ | refine keeps_cueRun H ?_ | split | dsimp only

theorem keeps_ownEvent {P : State → Prop} {s : State} {p : OwnWork → Bool} {other : State → State} (H : Keeps P 0x6cb85f7) (h0 : P s) (h2 :
    ∀ y1, P y1 → P (other y1)) : P (State.ownEvent s p other) := by
  have H1 : Keeps P 0x6cb85d7 := H.mono rfl
  unfold State.ownEvent
  with_reducible repeat' first
    | assumption | intro _ | refine h2 _ ?_ | refine keeps_cueTo H ?_ | refine keeps_ownFire H1 ?_ | split | dsimp only

theorem keeps_execCaptureDecision {P : State → Prop} {job : Nat} {s : State} (H : Keeps P 0x6cb85f7) (h1 : P s) : ResAll P
    (execCaptureDecision job s) := by
  unfold execCaptureDecision
  with_reducible repeat' first
    | assumption | intro _ | refine res_next ?_ | refine keeps_ownEvent H ?_ ?_
    | refine res_get ‹_ = Host.Outcome.next _› (keeps_onMain ?_ ?_) | refine keeps_onMain ?_ ?_ | refine keeps_id ?_ | split | dsimp only

theorem keeps_execBankZeroAck {P : State → Prop} {job : Nat} {s : State} (H : Keeps P 0x80000) (h1 : P s) : ResAll P (execBankZeroAck job s)
    := by
  unfold execBankZeroAck
  with_reducible repeat' first
    | assumption | intro _ | refine res_next ?_ | refine keeps_upCkp H ?_ | refine keeps_upCapture H ?_
    | refine res_get ‹_ = Host.Outcome.next _› (keeps_onCapture ?_ ?_) | refine keeps_onCapture ?_ ?_ | refine keeps_upBank H ?_ | split
    | dsimp only

theorem keeps_execCaptureStart {P : State → Prop} {job : Nat} {s : State} (H : Keeps P 0x6cb85f7) (h1 : P s) : ResAll P (execCaptureStart
    job s) := by
  have H1 : Keeps P 0x80001 := H.mono rfl
  unfold execCaptureStart
  with_reducible repeat' first
    | assumption | intro _ | refine res_next ?_ | exact opt_none | refine opt_some ?_ | refine opt_map2 (P := P) ?_ ?_ | refine opt_map ?_
    | refine opt_bindS ?_ ?_ | refine opt_bind ?_ | refine opt_ite ?_ ?_ | refine keeps_ownEvent H ?_ ?_ | refine keeps_captureStart H1 ?_
    | refine res_get ‹_ = Host.Outcome.next _› (keeps_onMain ?_ ?_) | refine keeps_onMain ?_ ?_ | split | dsimp only

theorem keeps_shardIn {P : State → Prop} {s : State} {h : Nat} {i : Nat} {j : CkJob} {c : Capture} {data : Bytes} (H : Keeps P 0x44b0113)
    (h0 : P s) : P (State.shardIn s h i j c data) := by
  have H1 : Keeps P 0x1 := H.mono rfl
  have H2 : Keeps P 0x80000 := H.mono rfl
  have H3 : Keeps P 0x4430113 := H.mono rfl
  have H4 : Keeps P 0x4000000 := H.mono rfl
  unfold State.shardIn
  with_reducible repeat' first
    | assumption | intro _ | refine keeps_shardRead H1 ?_ | refine keeps_upCk H2 ?_ | refine keeps_setGuard H3 ?_ | refine keeps_ao H4 ?_
    | split | dsimp only

theorem keeps_execShardCopied {P : State → Prop} {job : Nat} {index : Nat} {data : Bytes} {ok : Bool} {s : State} (H : Keeps P 0x7cf0553)
    (h4 : P s) : ResAll P (execShardCopied job index data ok s) := by
  have H1 : Keeps P 0x44b0113 := H.mono rfl
  have H2 : Keeps P 0x1 := H.mono rfl
  have H3 : Keeps P 0x80000 := H.mono rfl
  unfold execShardCopied
  with_reducible repeat' first
    | assumption | intro _ | refine res_next ?_ | refine keeps_shardIn H1 ?_ | refine keeps_shardRead H2 ?_ | refine keeps_upCapture H3 ?_
    | refine res_get ‹_ = Host.Outcome.next _› (keeps_onCapture ?_ ?_) | refine keeps_onCapture ?_ ?_ | refine keeps_ckpAbandon H ?_
    | split | dsimp only

theorem keeps_putShard {P : State → Prop} {s : State} {jobId : Nat} {x : Nat} {off : Nat} {b : Bytes} (H : Keeps P 0x80000) (h0 : P s) : P
    (State.putShard s jobId x off b) := by
  unfold State.putShard
  with_reducible repeat' first
    | assumption | intro _ | refine keeps_upCkp H ?_ | split | dsimp only

theorem keeps_execShardStored {P : State → Prop} {job : Nat} {index : Nat} {s : State} (H : Keeps P 0x80001) (h2 : P s) : ResAll P
    (execShardStored job index s) := by
  have H1 : Keeps P 0x80000 := H.mono rfl
  have H2 : Keeps P 0x1 := H.mono rfl
  unfold execShardStored
  with_reducible repeat' first
    | assumption | intro _ | refine res_next ?_ | refine keeps_upCkp H1 ?_ | refine keeps_putShard H1 ?_ | refine keeps_upCapture H1 ?_
    | refine res_get ‹_ = Host.Outcome.next _› (keeps_onCapture ?_ ?_) | refine keeps_onCapture ?_ ?_ | refine keeps_emit H2 ?_ | split
    | dsimp only

theorem keeps_ckpCommitted {P : State → Prop} {s : State} {h : Nat} {step : Nat} {rank : Nat} (H : Keeps P 0x80000) (h0 : P s) : P
    (State.ckpCommitted s h step rank) := by
  unfold State.ckpCommitted
  with_reducible repeat' first
    | assumption | intro _ | refine keeps_upCk H ?_ | split | dsimp only

theorem keeps_commit {P : State → Prop} {s : State} {h : Nat} {j : CkJob} {c : Capture} (H : Keeps P 0x6c805d3) (h0 : P s) : P (State.commit
    s h j c) := by
  have H1 : Keeps P 0x80000 := H.mono rfl
  have H2 : Keeps P 0x80080 := H.mono rfl
  have H3 : Keeps P 0x4480513 := H.mono rfl
  have H4 : Keeps P 0x6c00553 := H.mono rfl
  have H5 : Keeps P 0x4480111 := H.mono rfl
  have H6 : Keeps P 0x1 := H.mono rfl
  have H7 : Keeps P 0x4000000 := H.mono rfl
  unfold State.commit
  with_reducible repeat' first
    | assumption | intro _ | refine keeps_ckpCommitted H1 ?_ | refine keeps_drainBegin H2 ?_ | refine keeps_ckpNotify H3 ?_
    | refine keeps_endCapture H4 ?_ | refine keeps_ckpFlag H5 ?_ | refine keeps_upBank H1 ?_ | refine keeps_upCk H1 ?_
    | refine keeps_emit H6 ?_ | refine keeps_ao H7 ?_ | split | dsimp only

theorem keeps_execCaptureCommit {P : State → Prop} {job : Nat} {s : State} (H : Keeps P 0x6c805d3) (h1 : P s) : ResAll P (execCaptureCommit
    job s) := by
  unfold execCaptureCommit
  with_reducible repeat' first
    | assumption | intro _ | refine res_next ?_ | refine keeps_commit H ?_
    | refine res_get ‹_ = Host.Outcome.next _› (keeps_onCapture ?_ ?_) | refine keeps_onCapture ?_ ?_ | split | dsimp only

theorem keeps_execPbWriteFail {P : State → Prop} {job : Nat} {status : Nat} {s : State} (H : Keeps P 0x7cf0553) (h2 : P s) : ResAll P
    (execPbWriteFail job status s) := by
  have H1 : Keeps P 0x4480111 := H.mono rfl
  have H2 : Keeps P 0x7c40113 := H.mono rfl
  unfold execPbWriteFail
  with_reducible repeat' first
    | assumption | intro _ | refine res_next ?_ | refine res_get ‹_ = Host.Outcome.next _› (keeps_onCapture ?_ ?_)
    | refine keeps_onCapture ?_ ?_ | refine keeps_ckpAbandon H ?_ | refine keeps_ckpFlag H1 ?_ | refine keeps_record H2 ?_ | split
    | dsimp only

theorem keeps_execCheckpointNotice {P : State → Prop} {job : Nat} {entry : Bytes} {s : State} (H : Keeps P 0x80100) (h2 : P s) : ResAll P
    (execCheckpointNotice job entry s) := by
  have H1 : Keeps P 0x100 := H.mono rfl
  have H2 : Keeps P 0x80000 := H.mono rfl
  unfold execCheckpointNotice
  with_reducible repeat' first
    | assumption | intro _ | refine res_next ?_ | refine keeps_upNet H1 ?_ | refine keeps_ckpCommitted H2 ?_
    | refine res_get ‹_ = Host.Outcome.next _› (keeps_onJobCk ?_ ?_) | refine keeps_onJobCk ?_ ?_ | refine keeps_upCk H2 ?_ | split
    | dsimp only

theorem keeps_execDrainComplete {P : State → Prop} {job : Nat} {s : State} (H : Keeps P 0x4480191) (h1 : P s) : ResAll P (execDrainComplete
    job s) := by
  have H1 : Keeps P 0x80080 := H.mono rfl
  have H2 : Keeps P 0x80 := H.mono rfl
  have H3 : Keeps P 0x4480111 := H.mono rfl
  have H4 : Keeps P 0x80000 := H.mono rfl
  have H5 : Keeps P 0x1 := H.mono rfl
  unfold execDrainComplete
  with_reducible repeat' first
    | assumption | intro _ | refine res_next ?_ | exact opt_none | refine opt_some ?_ | refine opt_map2 (P := P) ?_ ?_ | refine opt_map ?_
    | refine opt_ite ?_ ?_ | refine res_get ‹_ = Host.Outcome.next _› (keeps_onJobCk ?_ ?_) | refine keeps_onJobCk ?_ ?_
    | refine keeps_drainBegin H1 ?_ | refine keeps_intAdvance H2 ?_ | refine keeps_ckpFlag H3 ?_ | refine keeps_upCk H4 ?_
    | refine keeps_intDrop H2 ?_ | refine keeps_emit H5 ?_ | split | dsimp only

theorem keeps_intFeed {P : State → Prop} {s : State} {u : IntUse} {data : Bytes} (H : Keeps P 0x80) (h0 : P s) : P (State.intFeed s u data)
    := by
  unfold State.intFeed
  with_reducible repeat' first
    | assumption | intro _ | refine keeps_foldl ?_ ?_ | refine opt_foldl ?_ ?_ | refine keeps_intGot H ?_ | split | dsimp only

theorem keeps_intRow {P : State → Prop} {s : State} {u : IntUse} {ctrl : Nat} {nsid : Nat} {off : Nat} {len : Nat} {data : Bytes} (H : Keeps
    P 0x81) (h0 : P s) : P (State.intRow s u ctrl nsid off len data).1 := by
  have H1 : Keeps P 0x80 := H.mono rfl
  unfold State.intRow
  with_reducible repeat' first
    | assumption | intro _ | refine keeps_intFeed H1 ?_ | refine keeps_intBegin H ?_ | refine keeps_intAdmit H ?_
    | refine keeps_intDrop H1 ?_ | split | dsimp only

theorem keeps_farShard {P : State → Prop} {s : State} {h : Nat} {j : CkJob} {set_ : Nat} {index : Nat} {e : Shard × Nat × Bytes} {data :
    Bytes} (H : Keeps P 0x81) (h0 : P s) : P (State.farShard s h j set_ index e data).1 := by
  unfold State.farShard
  with_reducible repeat' first
    | assumption | intro _ | refine eq_fst ‹_ = _› (keeps_intRow H ?_) | refine keeps_intRow H ?_ | split | dsimp only

theorem keeps_sourceIn {P : State → Prop} {s : State} {h : Nat} {j : CkJob} {r : Restore} {index : Nat} {data : Bytes} {far : Option Nat} (H
    : Keeps P 0x81) (h0 : P s) : P (State.sourceIn s h j r index data far).1 := by
  unfold State.sourceIn
  with_reducible repeat' first
    | assumption | intro _ | exact opt_none | refine opt_some ?_ | refine opt_map2 (P := P) ?_ ?_ | refine opt_map ?_
    | refine opt_ite ?_ ?_ | refine eq_fst ‹_ = _› (keeps_farShard H ?_) | refine keeps_farShard H ?_ | split | dsimp only

theorem keeps_restoreWrite {P : State → Prop} {s : State} {j : CkJob} {m : Manifest} {i : Nat} {data : Bytes} (H : Keeps P 0x1) (h0 : P s) :
    P (State.restoreWrite s j m i data) := by
  unfold State.restoreWrite
  with_reducible repeat' first
    | assumption | intro _ | refine keeps_foldl ?_ ?_ | refine keeps_accPut H ?_ | split | dsimp only

theorem keeps_execRestoreShardRead {P : State → Prop} {job : Nat} {index : Nat} {data : Bytes} {remote : Bool} {s : State} (H : Keeps P
    0x6cb05d3) (h4 : P s) : ResAll P (execRestoreShardRead job index data remote s) := by
  have H1 : Keeps P 0x80000 := H.mono rfl
  have H2 : Keeps P 0x1 := H.mono rfl
  have H3 : Keeps P 0x81 := H.mono rfl
  have H4 : Keeps P 0x6cb0553 := H.mono rfl
  have H5 : Keeps P 0x6c00553 := H.mono rfl
  unfold execRestoreShardRead
  with_reducible repeat' first
    | assumption | intro _ | refine res_next ?_ | exact opt_none | refine opt_some ?_ | refine opt_map2 (P := P) ?_ ?_ | refine opt_map ?_
    | refine opt_ite ?_ ?_ | refine keeps_upCkp H1 ?_ | refine keeps_restoreWrite H2 ?_ | refine eq_fst3 ‹_ = _› (keeps_sourceIn H3 ?_)
    | refine keeps_sourceIn H3 ?_ | refine res_get ‹_ = Host.Outcome.next _› (keeps_onJobCk ?_ ?_) | refine keeps_onJobCk ?_ ?_
    | refine keeps_restoreEnd H4 ?_ | refine keeps_sourceRead H2 ?_ | refine keeps_upCk H1 ?_ | refine keeps_finishAll H5 ?_
    | refine eq_fst ‹_ = _› ?_ | split | dsimp only

theorem keeps_upRing {P : State → Prop} {s : State} {n : Nat} {f : FRing → FRing} (H : Keeps P 0x10000) (h0 : P s) : P (State.upRing s n f)
    := by
  unfold State.upRing
  with_reducible repeat' first
    | assumption | intro _ | refine keeps_upFeed H ?_ | split | dsimp only

theorem keeps_feedFlag {P : State → Prop} {s : State} {b : Nat} {f : Feed → Feed} (H : Keeps P 0x4410111) (h0 : P s) : P (State.feedFlag s b
    f) := by
  have H1 : Keeps P 0x10000 := H.mono rfl
  have H2 : Keeps P 0x4400111 := H.mono rfl
  unfold State.feedFlag
  with_reducible repeat' first
    | assumption | intro _ | refine keeps_upFeed H1 ?_ | refine keeps_flag H2 ?_ ?_ | split | dsimp only

theorem keeps_applyChange {P : State → Prop} {s : State} {h : Nat} {from_ : Nat} {change : Nat} {member : Nat} {ring : Nat} {step : Nat} (H
    : Keeps P 0x6c18553) (h0 : P s) : P (State.applyChange s h from_ change member ring step) := by
  have H1 : Keeps P 0x4410111 := H.mono rfl
  have H2 : Keeps P 0x10000 := H.mono rfl
  have H3 : Keeps P 0x8000 := H.mono rfl
  have H4 : Keeps P 0x6c00553 := H.mono rfl
  unfold State.applyChange
  with_reducible repeat' first
    | assumption | intro _ | refine keeps_feedFlag H1 ?_ | refine keeps_upRing H2 ?_ | refine keeps_upJob H3 ?_ | refine keeps_upJobX H3 ?_
    | refine keeps_finishAll H4 ?_ | split | dsimp only

theorem keeps_lSend {P : State → Prop} {s : State} {h : Nat} {rank : Nat} {b : Bytes} (H : Keeps P 0x4408513) (h0 : P s) : P (State.lSend s
    h rank b) := by
  have H1 : Keeps P 0x8000 := H.mono rfl
  have H2 : Keeps P 0x4400513 := H.mono rfl
  unfold State.lSend
  with_reducible repeat' first
    | assumption | intro _ | refine keeps_upJobX H1 ?_ | refine keeps_qpWrite H2 ?_ | split | dsimp only

theorem keeps_lSendAll {P : State → Prop} {s : State} {h : Nat} {type : Nat} {c : LChange} {step : Nat} (H : Keeps P 0x4408513) (h0 : P s) :
    P (State.lSendAll s h type c step) := by
  unfold State.lSendAll
  with_reducible repeat' first
    | assumption | intro _ | refine keeps_foldl ?_ ?_ | refine keeps_lSend H ?_ | split | dsimp only

theorem keeps_lPropose {P : State → Prop} {s : State} {h : Nat} {ring : Nat} {round : Nat} {change : Nat} (H : Keeps P 0x6c18553) (h0 : P s)
    : P (State.lPropose s h ring round change) := by
  have H1 : Keeps P 0x10000 := H.mono rfl
  have H2 : Keeps P 0x4408513 := H.mono rfl
  have H3 : Keeps P 0x8000 := H.mono rfl
  unfold State.lPropose
  with_reducible repeat' first
    | assumption | intro _ | refine keeps_upFeed H1 ?_ | refine keeps_lSendAll H2 ?_ | refine keeps_applyChange H ?_
    | refine keeps_upJob H3 ?_ | split | dsimp only

theorem keeps_leaveAll {P : State → Prop} {s : State} {ring : Nat} (H : Keeps P 0x6c18553) (h0 : P s) : P (State.leaveAll s ring) := by
  have H1 : Keeps P 0x8000 := H.mono rfl
  unfold State.leaveAll
  with_reducible repeat' first
    | assumption | intro _ | refine keeps_foldl ?_ ?_ | refine keeps_foldl_fst ?_ ?_ | refine keeps_foldl_snd ?_ ?_
    | refine keeps_lPropose H ?_ | refine keeps_upJobX H1 ?_ | split | dsimp only

theorem keeps_ringDetach {P : State → Prop} {s : State} {ring : Nat} (H : Keeps P 0x6c185f3) (h0 : P s) : P (State.ringDetach s ring) := by
  have H1 : Keeps P 0x6c18553 := H.mono rfl
  have H2 : Keeps P 0x10000 := H.mono rfl
  have H3 : Keeps P 0x100 := H.mono rfl
  have H4 : Keeps P 0x6c00553 := H.mono rfl
  unfold State.ringDetach
  with_reducible repeat' first
    | assumption | intro _ | refine keeps_foldl ?_ ?_ | refine keeps_leaveAll H1 ?_ | refine keeps_upRing H2 ?_ | refine keeps_abandon H ?_
    | refine keeps_dropUnsent H3 ?_ | refine keeps_finishAll H4 ?_ | split | dsimp only

theorem keeps_accLeave {P : State → Prop} {s : State} {a : Nat} {st : Nat} (H : Keeps P 0x6c185f3) (h0 : P s) : P (State.accLeave s a st) :=
    by
  have H1 : Keeps P 0x4410111 := H.mono rfl
  unfold State.accLeave
  with_reducible repeat' first
    | assumption | intro _ | refine keeps_foldl ?_ ?_ | refine keeps_ringDetach H ?_ | refine keeps_upAcc H1 ?_ | split | dsimp only

theorem keeps_accGone {P : State → Prop} {s : State} {a : Nat} {st : Nat} (H : Keeps P 0x7c585f3) (h0 : P s) : P (State.accGone s a st) :=
    by
  have H1 : Keeps P 0x10000 := H.mono rfl
  have H2 : Keeps P 0x6c185f3 := H.mono rfl
  have H3 : Keeps P 0x7c40113 := H.mono rfl
  have H4 : Keeps P 0x4400111 := H.mono rfl
  unfold State.accGone
  with_reducible repeat' first
    | assumption | intro _ | refine keeps_foldl ?_ ?_ | refine keeps_upFeed H1 ?_ | refine keeps_accLeave H2 ?_ | refine keeps_record H3 ?_
    | refine keeps_flag H4 ?_ ?_ | split | dsimp only

theorem keeps_ckpAccGone {P : State → Prop} {s : State} {a : Nat} (H : Keeps P 0x7cf0553) (h0 : P s) : P (State.ckpAccGone s a) := by
  unfold State.ckpAccGone
  with_reducible repeat' first
    | assumption | intro _ | exact opt_none | refine opt_some ?_ | refine opt_map2 (P := P) ?_ ?_ | refine opt_map ?_
    | refine opt_bindS ?_ ?_ | refine opt_bind ?_ | refine opt_ite ?_ ?_ | refine keeps_ckpAbandon H ?_ | refine keeps_eachCk ?_ ?_ | split
    | dsimp only

theorem keeps_execAccelDeparted {P : State → Prop} {accel : Nat} {s : State} (H : Keeps P 0x7cf85f3) (h1 : P s) : ResAll P
    (execAccelDeparted accel s) := by
  have H1 : Keeps P 0x7cf0553 := H.mono rfl
  have H2 : Keeps P 0x7c585f3 := H.mono rfl
  have H3 : Keeps P 0x6c00553 := H.mono rfl
  unfold execAccelDeparted
  with_reducible repeat' first
    | assumption | intro _ | refine res_next ?_ | refine keeps_ckpAccGone H1 ?_ | refine keeps_accGone H2 ?_
    | refine res_get ‹_ = Host.Outcome.next _› (keeps_onMainIf ?_ ?_) | refine keeps_onMainIf ?_ ?_ | refine keeps_finishAll H3 ?_ | split
    | dsimp only

theorem keeps_ckpMaster {P : State → Prop} {s : State} (H : Keeps P 0x7cf0553) (h0 : P s) : P (State.ckpMaster s) := by
  have H1 : Keeps P 0x6c80553 := H.mono rfl
  unfold State.ckpMaster
  with_reducible repeat' first
    | assumption | intro _ | refine keeps_resync H1 ?_ | refine keeps_ckpAbandon H ?_ | refine keeps_eachCk ?_ ?_ | split | dsimp only

theorem keeps_ckpCueOff {P : State → Prop} {s : State} (H : Keeps P 0x4430113) (h0 : P s) : P (State.ckpCueOff s) := by
  unfold State.ckpCueOff
  with_reducible repeat' first
    | assumption | intro _ | refine keeps_setGuards H ?_ | refine keeps_eachCk ?_ ?_ | split | dsimp only

theorem keeps_ckpRelock {P : State → Prop} {s : State} (H : Keeps P 0x6c80553) (h0 : P s) : P (State.ckpRelock s) := by
  have H1 : Keeps P 0x80000 := H.mono rfl
  unfold State.ckpRelock
  with_reducible repeat' first
    | assumption | intro _ | refine keeps_resync H ?_ | refine keeps_upCk H1 ?_ | refine keeps_eachCk ?_ ?_ | split | dsimp only

theorem keeps_ckpStagingReset {P : State → Prop} {s : State} (H : Keeps P 0x7cf0553) (h0 : P s) : P (State.ckpStagingReset s) := by
  unfold State.ckpStagingReset
  with_reducible repeat' first
    | assumption | intro _ | exact opt_none | refine opt_some ?_ | refine opt_map2 (P := P) ?_ ?_ | refine opt_map ?_
    | refine opt_bindS ?_ ?_ | refine opt_bind ?_ | refine opt_ite ?_ ?_ | refine keeps_ckpAbandon H ?_ | refine keeps_eachCk ?_ ?_ | split
    | dsimp only

theorem keeps_ckpWarn {P : State → Prop} {s : State} {cls : Nat} (H : Keeps P 0x4480111) (h0 : P s) : P (State.ckpWarn s cls) := by
  have H1 : Keeps P 0x80000 := H.mono rfl
  unfold State.ckpWarn
  with_reducible repeat' first
    | assumption | intro _ | refine keeps_ckpFlag H ?_ | refine keeps_upCk H1 ?_ | refine keeps_eachCk ?_ ?_ | split | dsimp only

theorem keeps_settingStop {P : State → Prop} {s : State} {c : Caller} {u : Nat} {need : Bool} (h0 : P s) : OptAll (VAll P)
    (State.settingStop s c u need) := by
  unfold State.settingStop
  with_reducible repeat' first
    | assumption | intro _ | exact VAll.refuse _ _ | exact VAll.refuseAt _ _ _ | refine VAll.done _ _ _ _ ?_
    | refine VAll.doneAs _ _ _ _ _ ?_ | refine VAll.wait _ _ _ ?_ | exact opt_none | refine opt_some ?_ | refine opt_ite ?_ ?_
    | refine keeps_badState | split | dsimp only

theorem keeps_setting {P : State → Prop} {s : State} {opcode : Nat} {c : Caller} {h : Hdr} {p : Bytes} {same : Staged → Bool} {result : Nat}
    {apply : State → State} (H : Keeps P 0x40) (h0 : P s) (h7 : ∀ y1, P y1 → P (apply y1)) : VAll P (State.setting s opcode c h p same
    result apply) := by
  unfold State.setting
  with_reducible repeat' first
    | assumption | intro _ | refine h7 _ ?_ | exact VAll.refuse _ _ | exact VAll.refuseAt _ _ _ | refine VAll.done _ _ _ _ ?_
    | refine VAll.doneAs _ _ _ _ _ ?_ | refine VAll.wait _ _ _ ?_ | refine keeps_upCmd H ?_ | split | dsimp only

theorem keeps_opSetPartitions {P : State → Prop} (H : Keeps P 0x40) : SpecAll P opSetPartitions := by
  refine ⟨fun _ _ _ _ _ => ?_, fun _ _ _ _ => ?_⟩ <;> dsimp only [opSetPartitions]
  with_reducible repeat' first
    | assumption | intro _ | exact VAll.refuse _ _ | exact VAll.refuseAt _ _ _ | refine VAll.done _ _ _ _ ?_
    | refine VAll.doneAs _ _ _ _ _ ?_ | refine VAll.wait _ _ _ ?_ | refine keeps_setting H ?_ ?_
    | refine opt_ver ‹_ = some _› (keeps_settingStop ?_) | refine keeps_settingStop ?_ | refine keeps_noResource | refine keeps_id ?_
    | split | dsimp only

theorem keeps_execSetPartitions {P : State → Prop} {h : Hdr} {p : Bytes} {s : State} (H : Keeps P 0x6c00557) (h2 : P s) : ResAll P
    (execSetPartitions h p s) := by
  have H1 : Keeps P 0x40 := H.mono rfl
  unfold execSetPartitions
  with_reducible repeat' first
    | assumption | intro _ | refine res_next ?_ | refine keeps_opSetPartitions H1
    | refine res_get ‹_ = Host.Outcome.next _› (keeps_runPkt H ?_ ?_) | refine keeps_runPkt H ?_ ?_ | split | dsimp only

theorem keeps_opNop {P : State → Prop} : SpecAll P opNop := by
  refine ⟨fun _ _ _ _ _ => ?_, fun _ _ _ _ => ?_⟩ <;> dsimp only [opNop]
  with_reducible repeat' first
    | assumption | intro _ | exact VAll.refuse _ _ | exact VAll.refuseAt _ _ _ | refine VAll.done _ _ _ _ ?_
    | refine VAll.doneAs _ _ _ _ _ ?_ | refine VAll.wait _ _ _ ?_ | refine keeps_Verdict_ok ?_ | split | dsimp only

theorem keeps_execNop {P : State → Prop} {h : Hdr} {p : Bytes} {s : State} (H : Keeps P 0x6c00557) (h2 : P s) : ResAll P (execNop h p s) :=
    by
  unfold execNop
  with_reducible repeat' first
    | assumption | intro _ | refine res_next ?_ | refine keeps_opNop | refine res_get ‹_ = Host.Outcome.next _› (keeps_runPkt H ?_ ?_)
    | refine keeps_runPkt H ?_ ?_ | split | dsimp only

theorem keeps_openFail {P : State → Prop} {h : Hdr} {detail : Nat} {s : State} (H : Keeps P 0x40) (h2 : P s) : P (openFail h detail s) := by
  unfold openFail
  with_reducible repeat' first
    | assumption | intro _ | refine keeps_upFn H ?_ | split | dsimp only

theorem keeps_vfRuns {P : State → Prop} {s : State} {fn : Nat} (H : Keeps P 0x800000) (h0 : P s) : P (State.vfRuns s fn) := by
  unfold State.vfRuns
  with_reducible repeat' first
    | assumption | intro _ | refine keeps_upHost H ?_ | split | dsimp only

theorem keeps_opOpenSession {P : State → Prop} (H : Keeps P 0x800040) : SpecAll P opOpenSession := by
  have H1 : Keeps P 0x40 := H.mono rfl
  have H2 : Keeps P 0x800000 := H.mono rfl
  refine ⟨fun _ _ _ _ _ => ?_, fun _ _ _ _ => ?_⟩ <;> dsimp only [opOpenSession]
  with_reducible repeat' first
    | assumption | intro _ | exact VAll.refuse _ _ | exact VAll.refuseAt _ _ _ | refine VAll.done _ _ _ _ ?_
    | refine VAll.doneAs _ _ _ _ _ ?_ | refine VAll.wait _ _ _ ?_ | refine keeps_upCmd H1 ?_ | refine keeps_vfRuns H2 ?_
    | refine keeps_openFail H1 ?_ | refine keeps_noResource | refine keeps_upFn H1 ?_ | split | dsimp only

theorem keeps_execOpenSession {P : State → Prop} {h : Hdr} {p : Bytes} {s : State} (H : Keeps P 0x6c00557) (h2 : P s) : ResAll P
    (execOpenSession h p s) := by
  have H1 : Keeps P 0x800040 := H.mono rfl
  unfold execOpenSession
  with_reducible repeat' first
    | assumption | intro _ | refine res_next ?_ | refine keeps_opOpenSession H1
    | refine res_get ‹_ = Host.Outcome.next _› (keeps_runPkt H ?_ ?_) | refine keeps_runPkt H ?_ ?_ | split | dsimp only

theorem keeps_noDest {P : State → Prop} {s : State} (H : Keeps P 0x200) (h0 : P s) : P (State.noDest s) := by
  unfold State.noDest
  with_reducible repeat' first
    | assumption | intro _ | refine keeps_upHed H ?_ | split | dsimp only

theorem keeps_netEvent {P : State → Prop} {s : State} {code : Nat} {unit : Nat} {obj : Nat} {detail : Nat} (H : Keeps P 0x4c00111) (h0 : P
    s) : P (State.netEvent s code unit obj detail) := by
  have H1 : Keeps P 0x100 := H.mono rfl
  have H2 : Keeps P 0x4400111 := H.mono rfl
  have H3 : Keeps P 0x4800001 := H.mono rfl
  unfold State.netEvent
  with_reducible repeat' first
    | assumption | intro _ | refine keeps_upNet H1 ?_ | refine keeps_vecEvent H2 ?_ | refine keeps_hostWrite H3 ?_ | split | dsimp only

theorem keeps_ctxTake {P : State → Prop} {s : State} {kind : Nat} (H : Keeps P 0x4c00511) (h0 : P s) : OptAll (fun x => P x.2)
    (State.ctxTake s kind) := by
  have H1 : Keeps P 0x400 := H.mono rfl
  have H2 : Keeps P 0x4c00111 := H.mono rfl
  have H3 : Keeps P 0x4400111 := H.mono rfl
  unfold State.ctxTake
  with_reducible repeat' first
    | assumption | intro _ | exact opt_none | refine opt_some ?_ | refine opt_ite ?_ ?_ | refine keeps_upCtx H1 ?_
    | refine keeps_netEvent H2 ?_ | refine keeps_flag H3 ?_ ?_ | split | dsimp only

theorem keeps_learnFailed {P : State → Prop} {s : State} (H : Keeps P 0x4c00311) (h0 : P s) : P (State.learnFailed s) := by
  have H1 : Keeps P 0x200 := H.mono rfl
  have H2 : Keeps P 0x100 := H.mono rfl
  have H3 : Keeps P 0x4c00111 := H.mono rfl
  have H4 : Keeps P 0x4400111 := H.mono rfl
  unfold State.learnFailed
  with_reducible repeat' first
    | assumption | intro _ | refine keeps_upHed H1 ?_ | refine keeps_upNet H2 ?_ | refine keeps_netEvent H3 ?_ | refine keeps_flag H4 ?_ ?_
    | split | dsimp only

theorem keeps_flowLookup {P : State → Prop} {s : State} {n : Nat} {t : HTable} {m : HMeta} {f : Bytes} (H : Keeps P 0x4c00713) (h0 : P s) :
    P (State.flowLookup s n t m f).1 := by
  have H1 : Keeps P 0x200 := H.mono rfl
  have H2 : Keeps P 0x4c00311 := H.mono rfl
  have H3 : Keeps P 0x4c00511 := H.mono rfl
  have H4 : Keeps P 0x4400513 := H.mono rfl
  have H5 : Keeps P 0x4000112 := H.mono rfl
  have H6 : Keeps P 0x4400111 := H.mono rfl
  unfold State.flowLookup
  with_reducible repeat' first
    | assumption | intro _ | refine keeps_upHed H1 ?_ | refine keeps_learnFailed H2 ?_
    | refine opt_get2 ‹_ = some (_, _)› (keeps_ctxTake H3 ?_) | refine keeps_ctxTake H3 ?_ | refine keeps_ctxUse H4 ?_
    | refine keeps_gctr H5 ?_ | refine keeps_withObs H6 ?_ ?_ | split | dsimp only

theorem keeps_packetRing {P : State → Prop} {s : State} {n : Nat} {m : HMeta} {f : Bytes} (H : Keeps P 0x4c00311) (h0 : P s) : P
    (State.packetRing s n m f) := by
  have H1 : Keeps P 0x200 := H.mono rfl
  have H2 : Keeps P 0x4400111 := H.mono rfl
  have H3 : Keeps P 0x4800001 := H.mono rfl
  unfold State.packetRing
  with_reducible repeat' first
    | assumption | intro _ | refine keeps_upHed H1 ?_ | refine keeps_vecEvent H2 ?_ | refine keeps_hostWrite H3 ?_ | split | dsimp only

theorem keeps_hedAction {P : State → Prop} {s : State} {a : HAction} {m : HMeta} {f : Bytes} (H : Keeps P 0x4c00311) (h0 : P s) : P
    (State.hedAction s a m f).1 := by
  have H1 : Keeps P 0x200 := H.mono rfl
  unfold State.hedAction
  with_reducible repeat' first
    | assumption | intro _ | refine keeps_upHed H1 ?_ | refine keeps_packetRing H ?_ | split | dsimp only

theorem keeps_hedTables {P : State → Prop} {a : Nat} {x1 : State} {x2 : Nat} {x3 : HMeta} {x4 : Bytes} (H : Keeps P 0x4c00713) (h1 : P x1) :
    P (State.hedTables a x1 x2 x3 x4).1 := by
  have H1 : Keeps P 0x4c00311 := H.mono rfl
  have H2 : Keeps P 0x4400513 := H.mono rfl
  have H3 : Keeps P 0x4000112 := H.mono rfl
  have H4 : Keeps P 0x4400111 := H.mono rfl
  induction a generalizing x1 x2 x3 x4 with
  | zero =>
    unfold State.hedTables
    with_reducible repeat' first
      | assumption | intro _ | refine eq_fst ‹_ = _› (keeps_hedAction H1 ?_) | refine keeps_hedAction H1 ?_
      | refine eq_fst3 ‹_ = _› (keeps_flowLookup H ?_) | refine keeps_flowLookup H ?_ | refine keeps_ctxUse H2 ?_ | refine keeps_gctr H3 ?_
      | refine keeps_withObs H4 ?_ ?_ | split | dsimp only
  | succ _ ih =>
    unfold State.hedTables
    with_reducible repeat' first
      | assumption | intro _ | refine eq_fst ‹_ = _› (ih ?_) | refine ih ?_ | refine eq_fst ‹_ = _› (keeps_hedAction H1 ?_)
      | refine keeps_hedAction H1 ?_ | refine eq_fst3 ‹_ = _› (keeps_flowLookup H ?_) | refine keeps_flowLookup H ?_
      | refine keeps_ctxUse H2 ?_ | refine keeps_gctr H3 ?_ | refine keeps_withObs H4 ?_ ?_ | split | dsimp only

theorem keeps_ringPut {P : State → Prop} {s : State} {base : Nat} {len : Nat} {off : Nat} {b : Bytes} (H : Keeps P 0x4800004) (h0 : P s) : P
    (State.ringPut s base len off b) := by
  unfold State.ringPut
  with_reducible repeat' first
    | assumption | intro _ | refine keeps_gWrite H ?_ | split | dsimp only

theorem keeps_shuFind {P : State → Prop} {s : State} {n : Nat} {b : Bytes} (H : Keeps P 0x7c41113) (h0 : P s) : P (State.shuFind s n b) :=
    by
  have H1 : Keeps P 0x1000 := H.mono rfl
  unfold State.shuFind
  with_reducible repeat' first
    | assumption | intro _ | refine keeps_shuFail H ?_ | refine keeps_upStreamX H1 ?_ | refine keeps_upStream H1 ?_ | split | dsimp only

theorem keeps_shuEnter {P : State → Prop} {s : State} {n : Nat} {b : Bytes} {placed : Bool} (H : Keeps P 0x7c41517) (h0 : P s) : P
    (State.shuEnter s n b placed) := by
  have H1 : Keeps P 0x7c41113 := H.mono rfl
  have H2 : Keeps P 0x4800004 := H.mono rfl
  have H3 : Keeps P 0x4400513 := H.mono rfl
  have H4 : Keeps P 0x1000 := H.mono rfl
  unfold State.shuEnter
  with_reducible repeat' first
    | assumption | intro _ | refine keeps_shuFind H1 ?_ | refine keeps_ringPut H2 ?_ | refine keeps_ctxUse H3 ?_
    | refine keeps_upStreamX H4 ?_ | refine keeps_upStream H4 ?_ | split | dsimp only

theorem keeps_shuLive {P : State → Prop} {s : State} {n : Nat} {b : Bytes} (H : Keeps P 0x7c41517) (h0 : P s) : P (State.shuLive s n b) :=
    by
  have H1 : Keeps P 0x1000 := H.mono rfl
  unfold State.shuLive
  with_reducible repeat' first
    | assumption | intro _ | refine keeps_shuEnter H ?_ | refine keeps_shuSettle H1 ?_ | refine keeps_upStreamX H1 ?_ | split | dsimp only

theorem keeps_espIn {P : State → Prop} {s : State} {k : Nat} {m : HMeta} {f : Bytes} (H : Keeps P 0x800) (h0 : P s) : P (State.espIn s k m
    f) := by
  unfold State.espIn
  with_reducible repeat' first
    | assumption | intro _ | refine keeps_replay H ?_ | refine opt_get ‹_ = some _› (keeps_submit H ?_) | refine keeps_submit H ?_
    | refine keeps_noKey H ?_ | refine keeps_upPage H ?_ | split | dsimp only

theorem keeps_hedDest {P : State → Prop} {s : State} {m : HMeta} {f : Bytes} (H : Keeps P 0x7c41f17) (h0 : P s) : P (State.hedDest s m f) :=
    by
  have H1 : Keeps P 0x200 := H.mono rfl
  have H2 : Keeps P 0x800 := H.mono rfl
  have H3 : Keeps P 0x7c41517 := H.mono rfl
  have H4 : Keeps P 0x4c00311 := H.mono rfl
  unfold State.hedDest
  with_reducible repeat' first
    | assumption | intro _ | refine keeps_upHed H1 ?_ | refine keeps_espIn H2 ?_ | refine keeps_shuLive H3 ?_
    | refine keeps_packetRing H4 ?_ | refine keeps_noDest H1 ?_ | split | dsimp only

theorem keeps_classify {P : State → Prop} {s : State} {port : Nat} {f : Bytes} {owner : Option Nat} (H : Keeps P 0x7c41f17) (h0 : P s) : P
    (State.classify s port f owner) := by
  have H1 : Keeps P 0x200 := H.mono rfl
  have H2 : Keeps P 0x4c00713 := H.mono rfl
  have H3 : Keeps P 0x4000000 := H.mono rfl
  unfold State.classify
  with_reducible repeat' first
    | assumption | intro _ | refine keeps_upHed H1 ?_ | refine keeps_hedDest H ?_ | refine eq_fst ‹_ = _› (keeps_hedTables H2 ?_)
    | refine keeps_hedTables H2 ?_ | refine keeps_noDest H1 ?_ | refine keeps_ao H3 ?_ | split | dsimp only

theorem keeps_hedRelease {P : State → Prop} {s : State} (H : Keeps P 0x7c41f17) (h0 : P s) : P (State.hedRelease s) := by
  have H1 : Keeps P 0x200 := H.mono rfl
  unfold State.hedRelease
  with_reducible repeat' first
    | assumption | intro _ | refine keeps_foldl ?_ ?_ | refine keeps_upHed H1 ?_ | refine keeps_classify H ?_ | split | dsimp only

theorem keeps_qpsKick {P : State → Prop} {s : State} (H : Keeps P 0x4400513) (h0 : P s) : P (State.qpsKick s) := by
  unfold State.qpsKick
  with_reducible repeat' first
    | assumption | intro _ | refine keeps_foldl ?_ ?_ | refine keeps_qpKick H ?_ | split | dsimp only

theorem keeps_resume {P : State → Prop} {s : State} (H : Keeps P 0x7c4ff57) (h0 : P s) : P (State.resume s) := by
  have H1 : Keeps P 0x4400513 := H.mono rfl
  have H2 : Keeps P 0x7c41f17 := H.mono rfl
  have H3 : Keeps P 0x4c08115 := H.mono rfl
  have H4 : Keeps P 0x800 := H.mono rfl
  have H5 : Keeps P 0x7c47557 := H.mono rfl
  unfold State.resume
  with_reducible repeat' first
    | assumption | intro _ | refine keeps_foldl ?_ ?_ | refine keeps_qpsKick H1 ?_ | refine keeps_hedRelease H2 ?_
    | refine keeps_weaveJob H3 ?_ | refine keeps_lanesGo H4 ?_ | refine keeps_iftCheck H5 ?_ | refine keeps_tapKick H5 ?_ | split
    | dsimp only

theorem keeps_goOn {P : State → Prop} {s : State} {old : State} (H : Keeps P 0x7c4ff57) (h0 : P s) (h1 : P old) : P (State.goOn s old) := by
  unfold State.goOn
  with_reducible repeat' first
    | assumption | intro _ | refine keeps_resume H ?_ | split | dsimp only

theorem keeps_thenGoOn {P : State → Prop} {old : State} {r : Res} (H : Keeps P 0x7c4ff57) (h0 : P old) (h1 : ResAll P r) : ResAll P
    (thenGoOn old r) := by
  unfold thenGoOn
  with_reducible repeat' first
    | assumption | intro _ | exact res_get rfl ‹ResAll P (Host.Outcome.next _)› | refine res_next ?_ | refine keeps_goOn H ?_ ?_ | split
    | dsimp only

theorem keeps_opCloseSession {P : State → Prop} (H : Keeps P 0x6c00553) : SpecAll P opCloseSession := by
  refine ⟨fun _ _ _ _ _ => ?_, fun _ _ _ _ => ?_⟩ <;> dsimp only [opCloseSession]
  with_reducible repeat' first
    | assumption | intro _ | exact VAll.refuse _ _ | exact VAll.refuseAt _ _ _ | refine VAll.done _ _ _ _ ?_
    | refine VAll.doneAs _ _ _ _ _ ?_ | refine VAll.wait _ _ _ ?_ | refine keeps_Verdict_ok ?_ | refine keeps_endSession H ?_ | split
    | dsimp only

theorem keeps_execCloseSession {P : State → Prop} {h : Hdr} {p : Bytes} {s : State} (H : Keeps P 0x7c4ff57) (h2 : P s) : ResAll P
    (execCloseSession h p s) := by
  have H1 : Keeps P 0x6c00553 := H.mono rfl
  have H2 : Keeps P 0x6c00557 := H.mono rfl
  unfold execCloseSession
  with_reducible repeat' first
    | assumption | intro _ | refine res_next ?_ | refine keeps_opCloseSession H1
    | refine res_get ‹_ = Host.Outcome.next _› (keeps_thenGoOn H ?_ ?_) | refine keeps_thenGoOn H ?_ ?_
    | refine res_get ‹_ = Host.Outcome.next _› (keeps_runPkt H2 ?_ ?_) | refine keeps_runPkt H2 ?_ ?_ | split | dsimp only

theorem keeps_opSetRoleKey {P : State → Prop} (H : Keeps P 0x3000040) : SpecAll P opSetRoleKey := by
  have H1 : Keeps P 0x3000000 := H.mono rfl
  have H2 : Keeps P 0x40 := H.mono rfl
  refine ⟨fun _ _ _ _ _ => ?_, fun _ _ _ _ => ?_⟩ <;> dsimp only [opSetRoleKey]
  with_reducible repeat' first
    | assumption | intro _ | exact VAll.refuse _ _ | exact VAll.refuseAt _ _ _ | refine VAll.done _ _ _ _ ?_
    | refine VAll.doneAs _ _ _ _ _ ?_ | refine VAll.wait _ _ _ ?_ | refine keeps_storeCmd H1 ?_ | refine keeps_badParam
    | refine keeps_Verdict_ok ?_ | refine keeps_upFn H2 ?_ | split | dsimp only

theorem keeps_execSetRoleKey {P : State → Prop} {h : Hdr} {p : Bytes} {s : State} (H : Keeps P 0x7c00557) (h2 : P s) : ResAll P
    (execSetRoleKey h p s) := by
  have H1 : Keeps P 0x3000040 := H.mono rfl
  have H2 : Keeps P 0x6c00557 := H.mono rfl
  unfold execSetRoleKey
  with_reducible repeat' first
    | assumption | intro _ | refine res_next ?_ | refine keeps_opSetRoleKey H1
    | refine res_get ‹_ = Host.Outcome.next _› (keeps_runPkt H2 ?_ ?_) | refine keeps_runPkt H2 ?_ ?_ | split | dsimp only

theorem keeps_opCreateQueuePair {P : State → Prop} (H : Keeps P 0x40) : SpecAll P opCreateQueuePair := by
  refine ⟨fun _ _ _ _ _ => ?_, fun _ _ _ _ => ?_⟩ <;> dsimp only [opCreateQueuePair]
  with_reducible repeat' first
    | assumption | intro _ | exact VAll.refuse _ _ | exact VAll.refuseAt _ _ _ | refine VAll.done _ _ _ _ ?_
    | refine VAll.doneAs _ _ _ _ _ ?_ | refine VAll.wait _ _ _ ?_ | refine keeps_upCmd H ?_ | refine keeps_badParam
    | refine keeps_noResource | split | dsimp only

theorem keeps_execCreateQueuePair {P : State → Prop} {h : Hdr} {p : Bytes} {s : State} (H : Keeps P 0x6c00557) (h2 : P s) : ResAll P
    (execCreateQueuePair h p s) := by
  have H1 : Keeps P 0x40 := H.mono rfl
  unfold execCreateQueuePair
  with_reducible repeat' first
    | assumption | intro _ | refine res_next ?_ | refine keeps_opCreateQueuePair H1
    | refine res_get ‹_ = Host.Outcome.next _› (keeps_runPkt H ?_ ?_) | refine keeps_runPkt H ?_ ?_ | split | dsimp only

theorem keeps_opDeleteQueuePair {P : State → Prop} (H : Keeps P 0x40) : SpecAll P opDeleteQueuePair := by
  refine ⟨fun _ _ _ _ _ => ?_, fun _ _ _ _ => ?_⟩ <;> dsimp only [opDeleteQueuePair]
  with_reducible repeat' first
    | assumption | intro _ | exact VAll.refuse _ _ | exact VAll.refuseAt _ _ _ | refine VAll.done _ _ _ _ ?_
    | refine VAll.doneAs _ _ _ _ _ ?_ | refine VAll.wait _ _ _ ?_ | refine keeps_badParam | refine keeps_upQp H ?_ | split | dsimp only

theorem keeps_execDeleteQueuePair {P : State → Prop} {h : Hdr} {p : Bytes} {s : State} (H : Keeps P 0x6c00557) (h2 : P s) : ResAll P
    (execDeleteQueuePair h p s) := by
  have H1 : Keeps P 0x40 := H.mono rfl
  have H2 : Keeps P 0x6c00553 := H.mono rfl
  unfold execDeleteQueuePair
  with_reducible repeat' first
    | assumption | intro _ | refine res_next ?_ | refine keeps_opDeleteQueuePair H1
    | refine res_get ‹_ = Host.Outcome.next _› (keeps_runPkt H ?_ ?_) | refine keeps_runPkt H ?_ ?_ | refine keeps_settleDeletes H2 ?_
    | split | dsimp only

theorem keeps_opIntermissionBegin {P : State → Prop} (H : Keeps P 0x40) : SpecAll P opIntermissionBegin := by
  refine ⟨fun _ _ _ _ _ => ?_, fun _ _ _ _ => ?_⟩ <;> dsimp only [opIntermissionBegin]
  with_reducible repeat' first
    | assumption | intro _ | exact VAll.refuse _ _ | exact VAll.refuseAt _ _ _ | refine VAll.done _ _ _ _ ?_
    | refine VAll.doneAs _ _ _ _ _ ?_ | refine VAll.wait _ _ _ ?_ | refine keeps_upCmd H ?_ | split | dsimp only

theorem keeps_execIntermissionBegin {P : State → Prop} {h : Hdr} {p : Bytes} {s : State} (H : Keeps P 0x6c00557) (h2 : P s) : ResAll P
    (execIntermissionBegin h p s) := by
  have H1 : Keeps P 0x40 := H.mono rfl
  unfold execIntermissionBegin
  with_reducible repeat' first
    | assumption | intro _ | refine res_next ?_ | refine keeps_opIntermissionBegin H1
    | refine res_get ‹_ = Host.Outcome.next _› (keeps_runPkt H ?_ ?_) | refine keeps_runPkt H ?_ ?_ | split | dsimp only

theorem keeps_restart {P : State → Prop} {s : State} {t : State} {scope : Nat} (H : Keeps P 0x7c4ff57) (h0 : P s) (h1 : P t) : P
    (State.restart s t scope) := by
  have H1 : Keeps P 0x40 := H.mono rfl
  have H2 : Keeps P 0x4400111 := H.mono rfl
  unfold State.restart
  with_reducible repeat' first
    | assumption | intro _ | refine keeps_goOn H ?_ ?_ | refine keeps_abandonInter H1 ?_ | refine keeps_note H2 ?_ | split | dsimp only

theorem keeps_shuRewind {P : State → Prop} {s : State} {n : Nat} {off : Nat} {seq : Nat} {num : Nat} (H : Keeps P 0x1000) (h0 : P s) : P
    (State.shuRewind s n off seq num) := by
  unfold State.shuRewind
  with_reducible repeat' first
    | assumption | intro _ | refine keeps_upStreamX H ?_ | refine keeps_upStream H ?_ | split | dsimp only

theorem keeps_shuReset {P : State → Prop} {s : State} {n : Nat} (H : Keeps P 0x1000) (h0 : P s) : P (State.shuReset s n) := by
  unfold State.shuReset
  with_reducible repeat' first
    | assumption | intro _ | refine keeps_shuRewind H ?_ | refine keeps_upStreamX H ?_ | refine keeps_upStream H ?_ | split | dsimp only

theorem keeps_shuResetAll {P : State → Prop} {s : State} (H : Keeps P 0x1000) (h0 : P s) : P (State.shuResetAll s) := by
  unfold State.shuResetAll
  with_reducible repeat' first
    | assumption | intro _ | refine keeps_foldl ?_ ?_ | refine keeps_shuReset H ?_ | split | dsimp only

theorem keeps_tapBusy {P : State → Prop} {s : State} {fn : Nat} {cycles : Nat} (H : Keeps P 0x4004000) (h0 : P s) : P (State.tapBusy s fn
    cycles) := by
  have H1 : Keeps P 0x4000 := H.mono rfl
  have H2 : Keeps P 0x4000000 := H.mono rfl
  unfold State.tapBusy
  with_reducible repeat' first
    | assumption | intro _ | refine keeps_upTapc H1 ?_ | refine keeps_fnCtr H2 ?_ | refine keeps_ao H2 ?_ | split | dsimp only

theorem keeps_tapAbandon {P : State → Prop} {s : State} {core : Nat} {cycles : Nat} (H : Keeps P 0x4006000) (h0 : P s) : P (State.tapAbandon
    s core cycles).2 := by
  have H1 : Keeps P 0x2000 := H.mono rfl
  have H2 : Keeps P 0x4000 := H.mono rfl
  have H3 : Keeps P 0x4004000 := H.mono rfl
  unfold State.tapAbandon
  with_reducible repeat' first
    | assumption | intro _ | exact opt_none | refine opt_some ?_ | refine opt_map2 (P := P) ?_ ?_ | refine opt_map ?_
    | refine opt_ite ?_ ?_ | refine keeps_upTap H1 ?_ | refine keeps_upTapc H2 ?_ | refine keeps_tapBusy H3 ?_ | split | dsimp only

theorem keeps_replyRun {P : State → Prop} {s : State} {r : TapRun} {status : Nat} {detail : Nat} {below : Nat} (H : Keeps P 0x6c00553) (h0 :
    P s) : P (State.replyRun s r status detail below) := by
  have H1 : Keeps P 0x40 := H.mono rfl
  have H2 : Keeps P 0x4800001 := H.mono rfl
  unfold State.replyRun
  with_reducible repeat' first
    | assumption | intro _ | refine keeps_foldl ?_ ?_ | refine keeps_upCmd H1 ?_ | refine keeps_finish H ?_ | refine keeps_snapEnd H2 ?_
    | refine keeps_writeReports H2 ?_ | split | dsimp only

theorem keeps_tapStagingReset {P : State → Prop} {s : State} (H : Keeps P 0x6c06553) (h0 : P s) : P (State.tapStagingReset s) := by
  have H1 : Keeps P 0x2000 := H.mono rfl
  have H2 : Keeps P 0x6c00553 := H.mono rfl
  have H3 : Keeps P 0x4006000 := H.mono rfl
  unfold State.tapStagingReset
  with_reducible repeat' first
    | assumption | intro _ | refine keeps_foldl ?_ ?_ | refine keeps_foldl_fst ?_ ?_ | refine keeps_foldl_snd ?_ ?_
    | refine keeps_upTap H1 ?_ | refine keeps_replyRun H2 ?_ | refine eq_snd ‹_ = _› (keeps_tapAbandon H3 ?_)
    | refine keeps_tapAbandon H3 ?_ | split | dsimp only

theorem keeps_releaseSettle {P : State → Prop} {s : State} {a : Nat} (H : Keeps P 0x6c185f3) (h0 : P s) : P (State.releaseSettle s a) := by
  have H1 : Keeps P 0x6c00553 := H.mono rfl
  unfold State.releaseSettle
  with_reducible repeat' first
    | assumption | intro _ | refine keeps_accLeave H ?_ | refine keeps_finishAll H1 ?_ | split | dsimp only

theorem keeps_feedReset {P : State → Prop} {s : State} (H : Keeps P 0x6c185f3) (h0 : P s) : P (State.feedReset s) := by
  have H1 : Keeps P 0x10000 := H.mono rfl
  have H2 : Keeps P 0x100 := H.mono rfl
  unfold State.feedReset
  with_reducible repeat' first
    | assumption | intro _ | refine keeps_foldl ?_ ?_ | refine keeps_releaseSettle H ?_ | refine keeps_upRing H1 ?_
    | refine keeps_dropUnsent H2 ?_ | split | dsimp only

theorem keeps_loomReset {P : State → Prop} {s : State} (H : Keeps P 0x4408513) (h0 : P s) : P (State.loomReset s) := by
  have H1 : Keeps P 0x8000 := H.mono rfl
  unfold State.loomReset
  with_reducible repeat' first
    | assumption | intro _ | refine keeps_foldl ?_ ?_ | refine keeps_foldl_fst ?_ ?_ | refine keeps_foldl_snd ?_ ?_
    | refine opt_foldl ?_ ?_ | refine keeps_xSend H ?_ | refine keeps_upJob H1 ?_ | refine keeps_upJobX H1 ?_ | split | dsimp only

theorem keeps_traceUnspill {P : State → Prop} {s : State} (H : Keeps P 0x4000000) (h0 : P s) : P (State.traceUnspill s) := by
  unfold State.traceUnspill
  with_reducible repeat' first
    | assumption | intro _ | refine keeps_upObs H ?_ | refine keeps_ao H ?_ | split | dsimp only

theorem keeps_partLost {P : State → Prop} {s : State} {p : Partn} (H : Keeps P 0x7cff5f3) (h0 : P s) : P (State.partLost s p) := by
  have H1 : Keeps P 0x80 := H.mono rfl
  have H2 : Keeps P 0x4000000 := H.mono rfl
  have H3 : Keeps P 0x4408513 := H.mono rfl
  have H4 : Keeps P 0x6c185f3 := H.mono rfl
  have H5 : Keeps P 0x6c06553 := H.mono rfl
  have H6 : Keeps P 0x1000 := H.mono rfl
  have H7 : Keeps P 0x7cf0553 := H.mono rfl
  unfold State.partLost
  with_reducible repeat' first
    | assumption | intro _ | refine keeps_upSto H1 ?_ | refine keeps_traceUnspill H2 ?_ | refine keeps_loomReset H3 ?_
    | refine keeps_feedReset H4 ?_ | refine keeps_tapStagingReset H5 ?_ | refine keeps_shuResetAll H6 ?_
    | refine keeps_ckpStagingReset H7 ?_ | split | dsimp only

theorem keeps_moveLoom {P : State → Prop} {s : State} {old : Nat} (H : Keeps P 0x8100) (h0 : P s) : P (State.moveLoom s old) := by
  have H1 : Keeps P 0x100 := H.mono rfl
  have H2 : Keeps P 0x8000 := H.mono rfl
  unfold State.moveLoom
  with_reducible repeat' first
    | assumption | intro _ | refine keeps_upNet H1 ?_ | refine keeps_upLoom H2 ?_ | split | dsimp only

theorem keeps_applyPartitions {P : State → Prop} {s : State} {p : Bytes} (H : Keeps P 0x7cff5ff) (h0 : P s) : P (State.applyPartitions s p)
    := by
  have H1 : Keeps P 0x8 := H.mono rfl
  have H2 : Keeps P 0x8100 := H.mono rfl
  have H3 : Keeps P 0x7cff5f3 := H.mono rfl
  have H4 : Keeps P 0x4 := H.mono rfl
  unfold State.applyPartitions
  with_reducible repeat' first
    | assumption | intro _ | refine keeps_foldl ?_ ?_ | refine keeps_upGlb H1 ?_ | refine keeps_moveLoom H2 ?_
    | refine keeps_partLost H3 ?_ | refine keeps_gClear H4 ?_ | split | dsimp only

theorem keeps_applyTapPolicy {P : State → Prop} {s : State} {p : Bytes} (H : Keeps P 0x2000) (h0 : P s) : P (State.applyTapPolicy s p) := by
  unfold State.applyTapPolicy
  with_reducible repeat' first
    | assumption | intro _ | refine keeps_upTap H ?_ | split | dsimp only

theorem keeps_applyMel {P : State → Prop} {s : State} {p : Bytes} (H : Keeps P 0x1000) (h0 : P s) : P (State.applyMel s p) := by
  unfold State.applyMel
  with_reducible repeat' first
    | assumption | intro _ | refine keeps_upShu H ?_ | split | dsimp only

theorem keeps_dropCarry {P : State → Prop} {s : State} {h : Nat} {step : Nat} (H : Keeps P 0x4408513) (h0 : P s) : P (State.dropCarry s h
    step) := by
  have H1 : Keeps P 0x8000 := H.mono rfl
  unfold State.dropCarry
  with_reducible repeat' first
    | assumption | intro _ | refine keeps_foldl ?_ ?_ | refine keeps_release H ?_ | refine keeps_upJobX H1 ?_ | split | dsimp only

theorem keeps_loomRewind {P : State → Prop} {s : State} {h : Nat} {step : Nat} (H : Keeps P 0x4c08517) (h0 : P s) : P (State.loomRewind s h
    step) := by
  have H1 : Keeps P 0x4408513 := H.mono rfl
  have H2 : Keeps P 0x4808004 := H.mono rfl
  have H3 : Keeps P 0x8000 := H.mono rfl
  unfold State.loomRewind
  with_reducible repeat' first
    | assumption | intro _ | refine keeps_dropCarry H1 ?_ | refine keeps_dropWoven H2 ?_ | refine keeps_upJob H3 ?_
    | refine keeps_upJobX H3 ?_ | split | dsimp only

theorem keeps_applyAddWarp {P : State → Prop} {s : State} {p : Bytes} {at_ : Nat} (H : Keeps P 0x4c08517) (h0 : P s) : P (State.applyAddWarp
    s p at_) := by
  have H1 : Keeps P 0x8000 := H.mono rfl
  unfold State.applyAddWarp
  with_reducible repeat' first
    | assumption | intro _ | refine keeps_loomRewind H ?_ | refine keeps_upJob H1 ?_ | split | dsimp only

theorem keeps_bindRings {P : State → Prop} {s : State} {h : Nat} {rings : List Nat} (H : Keeps P 0x10000) (h0 : P s) : P (State.bindRings s
    h rings) := by
  unfold State.bindRings
  with_reducible repeat' first
    | assumption | intro _ | refine keeps_upFeed H ?_ | split | dsimp only

theorem keeps_applyLayout {P : State → Prop} {s : State} {p : Bytes} {at_ : Nat} (H : Keeps P 0x4c18517) (h0 : P s) : P (State.applyLayout s
    p at_) := by
  have H1 : Keeps P 0x10000 := H.mono rfl
  have H2 : Keeps P 0x4c08517 := H.mono rfl
  have H3 : Keeps P 0x8000 := H.mono rfl
  unfold State.applyLayout
  with_reducible repeat' first
    | assumption | intro _ | refine keeps_foldl ?_ ?_ | refine keeps_foldl_fst ?_ ?_ | refine keeps_foldl_snd ?_ ?_
    | refine opt_foldl ?_ ?_ | refine keeps_bindRings H1 ?_ | refine keeps_loomRewind H2 ?_ | refine keeps_upJob H3 ?_
    | refine keeps_upJobX H3 ?_ | split | dsimp only

theorem keeps_setCursor {P : State → Prop} {s : State} {h : Nat} {b : Bytes} {at_ : Nat} (H : Keeps P 0x4c08517) (h0 : P s) : P
    (State.setCursor s h b at_) := by
  have H1 : Keeps P 0x8000 := H.mono rfl
  unfold State.setCursor
  with_reducible repeat' first
    | assumption | intro _ | refine keeps_loomRewind H ?_ | refine keeps_upJob H1 ?_ | split | dsimp only

theorem keeps_applyCursor {P : State → Prop} {s : State} {p : Bytes} {at_ : Nat} (H : Keeps P 0x4c08517) (h0 : P s) : P (State.applyCursor s
    p at_) := by
  unfold State.applyCursor
  with_reducible repeat' first
    | assumption | intro _ | refine keeps_setCursor H ?_ | split | dsimp only

theorem keeps_applyShare {P : State → Prop} {s : State} {p : Bytes} {at_ : Nat} (H : Keeps P 0x4c08517) (h0 : P s) : P (State.applyShare s p
    at_) := by
  have H1 : Keeps P 0x8000 := H.mono rfl
  unfold State.applyShare
  with_reducible repeat' first
    | assumption | intro _ | refine keeps_loomRewind H ?_ | refine keeps_upJob H1 ?_ | split | dsimp only

theorem keeps_accOff {P : State → Prop} {s : State} {a : Nat} (H : Keeps P 0x6c185f3) (h0 : P s) : P (State.accOff s a) := by
  have H1 : Keeps P 0x4410111 := H.mono rfl
  have H2 : Keeps P 0x6c00553 := H.mono rfl
  unfold State.accOff
  with_reducible repeat' first
    | assumption | intro _ | refine keeps_accLeave H ?_ | refine keeps_upAcc H1 ?_ | refine keeps_finishAll H2 ?_ | split | dsimp only

theorem keeps_applySetPort {P : State → Prop} {s : State} {p : Bytes} (H : Keeps P 0x6c185f3) (h0 : P s) : P (State.applySetPort s p) := by
  have H1 : Keeps P 0x10000 := H.mono rfl
  have H2 : Keeps P 0x4410111 := H.mono rfl
  unfold State.applySetPort
  with_reducible repeat' first
    | assumption | intro _ | refine keeps_upFeed H1 ?_ | refine keeps_accOff H ?_ | refine keeps_upAcc H2 ?_ | split | dsimp only

theorem keeps_upPort {P : State → Prop} {s : State} {p : Nat} {f : Port → Port} (H : Keeps P 0x4400111) (h0 : P s) : P (State.upPort s p f)
    := by
  have H1 : Keeps P 0x100 := H.mono rfl
  unfold State.upPort
  with_reducible repeat' first
    | assumption | intro _ | refine keeps_upNet H1 ?_ | refine keeps_note H ?_ | split | dsimp only

theorem keeps_applyPortMode {P : State → Prop} {s : State} {p : Bytes} (H : Keeps P 0x4400111) (h0 : P s) : P (State.applyPortMode s p) :=
    by
  have H1 : Keeps P 0x100 := H.mono rfl
  unfold State.applyPortMode
  with_reducible repeat' first
    | assumption | intro _ | refine keeps_foldl ?_ ?_ | refine keeps_foldl_fst ?_ ?_ | refine keeps_foldl_snd ?_ ?_
    | refine keeps_upNet H1 ?_ | refine keeps_upPort H ?_ | split | dsimp only

theorem keeps_applyGraph {P : State → Prop} {s : State} {p : Bytes} (H : Keeps P 0x200) (h0 : P s) : P (State.applyGraph s p) := by
  unfold State.applyGraph
  with_reducible repeat' first
    | assumption | intro _ | refine keeps_upHed H ?_ | split | dsimp only

theorem keeps_applyTable {P : State → Prop} {s : State} {p : Bytes} (H : Keeps P 0x600) (h0 : P s) : P (State.applyTable s p) := by
  have H1 : Keeps P 0x200 := H.mono rfl
  have H2 : Keeps P 0x400 := H.mono rfl
  unfold State.applyTable
  with_reducible repeat' first
    | assumption | intro _ | refine keeps_upHed H1 ?_ | refine keeps_ctxGive H2 ?_ | split | dsimp only

theorem keeps_applyNsMode {P : State → Prop} {s : State} {p : Bytes} (H : Keeps P 0x80) (h0 : P s) : P (State.applyNsMode s p) := by
  unfold State.applyNsMode
  with_reducible repeat' first
    | assumption | intro _ | refine keeps_upSto H ?_ | refine keeps_upNs H ?_ | split | dsimp only

theorem keeps_applyStaged {P : State → Prop} {s : State} {x : Staged} {at_ : Nat} (H : Keeps P 0x7cff7ff) (h0 : P s) : P (State.applyStaged
    s x at_) := by
  have H1 : Keeps P 0x80 := H.mono rfl
  have H2 : Keeps P 0x600 := H.mono rfl
  have H3 : Keeps P 0x200 := H.mono rfl
  have H4 : Keeps P 0x4400111 := H.mono rfl
  have H5 : Keeps P 0x6c185f3 := H.mono rfl
  have H6 : Keeps P 0x4c08517 := H.mono rfl
  have H7 : Keeps P 0x4c18517 := H.mono rfl
  have H8 : Keeps P 0x1000 := H.mono rfl
  have H9 : Keeps P 0x2000 := H.mono rfl
  have H10 : Keeps P 0x7cff5ff := H.mono rfl
  unfold State.applyStaged
  with_reducible repeat' first
    | assumption | intro _ | refine keeps_applyNsMode H1 ?_ | refine keeps_applyTable H2 ?_ | refine keeps_applyGraph H3 ?_
    | refine keeps_applyPortMode H4 ?_ | refine keeps_applySetPort H5 ?_ | refine keeps_applyShare H6 ?_ | refine keeps_applyCursor H6 ?_
    | refine keeps_applyLayout H7 ?_ | refine keeps_applyAddWarp H6 ?_ | refine keeps_applyMel H8 ?_ | refine keeps_applyTapPolicy H9 ?_
    | refine keeps_applyPartitions H10 ?_ | split | dsimp only

theorem keeps_applyAll {P : State → Prop} {at_ : Nat} {a : List Staged} {x2 : Nat} {x3 : State} (H : Keeps P 0x7cff7ff) (h3 : P x3) : ExcAll
    P (State.applyAll at_ a x2 x3) := by
  induction a generalizing at_ x2 x3 with
  | nil =>
    unfold State.applyAll
    with_reducible repeat' first
      | assumption | intro _ | exact exc_error | refine exc_ok ?_ | refine keeps_applyStaged H ?_ | split | dsimp only
  | cons _ _ ih =>
    unfold State.applyAll
    with_reducible repeat' first
      | assumption | intro _ | refine exc_get ‹_ = Except.ok _› (ih ?_) | refine ih ?_ | exact exc_error | refine exc_ok ?_
      | refine keeps_applyStaged H ?_ | split | dsimp only

theorem keeps_upInter {P : State → Prop} {s : State} {scope : Nat} {f : Inter → Inter} (H : Keeps P 0x40) (h0 : P s) : P (State.upInter s
    scope f) := by
  unfold State.upInter
  with_reducible repeat' first
    | assumption | intro _ | refine keeps_upCmd H ?_ | split | dsimp only

theorem keeps_modeHold {P : State → Prop} {s : State} {scope : Nat} (H : Keeps P 0x4400151) (h0 : P s) : P (State.modeHold s scope) := by
  have H1 : Keeps P 0x40 := H.mono rfl
  have H2 : Keeps P 0x4400111 := H.mono rfl
  unfold State.modeHold
  with_reducible repeat' first
    | assumption | intro _ | refine keeps_upInter H1 ?_ | refine keeps_note H2 ?_ | split | dsimp only

theorem keeps_opIntermissionEnd {P : State → Prop} (H : Keeps P 0x7cfffff) : SpecAll P opIntermissionEnd := by
  have H1 : Keeps P 0x4400151 := H.mono rfl
  have H2 : Keeps P 0x40 := H.mono rfl
  have H3 : Keeps P 0x7cff7ff := H.mono rfl
  have H4 : Keeps P 0x7c4ff57 := H.mono rfl
  have H5 : Keeps P 0x4400111 := H.mono rfl
  refine ⟨fun _ _ _ _ _ => ?_, fun _ _ _ _ => ?_⟩ <;> dsimp only [opIntermissionEnd]
  with_reducible repeat' first
    | assumption | intro _ | exact VAll.refuse _ _ | exact VAll.refuseAt _ _ _ | refine VAll.done _ _ _ _ ?_
    | refine VAll.doneAs _ _ _ _ _ ?_ | refine VAll.wait _ _ _ ?_ | refine keeps_modeHold H1 ?_ | refine keeps_upInter H2 ?_
    | refine exc_get ‹_ = Except.ok _› (keeps_applyAll H3 ?_) | refine keeps_applyAll H3 ?_ | refine keeps_restart H4 ?_ ?_
    | refine keeps_countErr H2 ?_ | refine keeps_badState | refine keeps_abandonInter H2 ?_ | refine keeps_note H5 ?_ | split | dsimp only

theorem keeps_execIntermissionEnd {P : State → Prop} {h : Hdr} {p : Bytes} {s : State} (H : Keeps P 0x7cfffff) (h2 : P s) : ResAll P
    (execIntermissionEnd h p s) := by
  have H1 : Keeps P 0x6c00557 := H.mono rfl
  unfold execIntermissionEnd
  with_reducible repeat' first
    | assumption | intro _ | refine res_next ?_ | refine keeps_opIntermissionEnd H
    | refine res_get ‹_ = Host.Outcome.next _› (keeps_runPkt H1 ?_ ?_) | refine keeps_runPkt H1 ?_ ?_ | split | dsimp only

theorem keeps_opGetState {P : State → Prop} : SpecAll P opGetState := by
  refine ⟨fun _ _ _ _ _ => ?_, fun _ _ _ _ => ?_⟩ <;> dsimp only [opGetState]
  with_reducible repeat' first
    | assumption | intro _ | exact VAll.refuse _ _ | exact VAll.refuseAt _ _ _ | refine VAll.done _ _ _ _ ?_
    | refine VAll.doneAs _ _ _ _ _ ?_ | refine VAll.wait _ _ _ ?_ | split | dsimp only

theorem keeps_execGetState {P : State → Prop} {h : Hdr} {p : Bytes} {s : State} (H : Keeps P 0x6c00557) (h2 : P s) : ResAll P (execGetState
    h p s) := by
  unfold execGetState
  with_reducible repeat' first
    | assumption | intro _ | refine res_next ?_ | refine keeps_opGetState | refine res_get ‹_ = Host.Outcome.next _› (keeps_runPkt H ?_ ?_)
    | refine keeps_runPkt H ?_ ?_ | split | dsimp only

theorem keeps_thenUnload {P : State → Prop} {r : Res} (H : Keeps P 0x6f00557) (h0 : ResAll P r) : ResAll P (thenUnload r) := by
  unfold thenUnload
  with_reducible repeat' first
    | assumption | intro _ | exact res_get rfl ‹ResAll P (Host.Outcome.next _)› | refine res_next ?_ | refine keeps_settleUnloads H ?_
    | split | dsimp only

theorem keeps_opAbort {P : State → Prop} (H : Keeps P 0x6c00553) : SpecAll P opAbort := by
  have H1 : Keeps P 0x40 := H.mono rfl
  refine ⟨fun _ _ _ _ _ => ?_, fun _ _ _ _ => ?_⟩ <;> dsimp only [opAbort]
  with_reducible repeat' first
    | assumption | intro _ | exact VAll.refuse _ _ | exact VAll.refuseAt _ _ _ | refine VAll.done _ _ _ _ ?_
    | refine VAll.doneAs _ _ _ _ _ ?_ | refine VAll.wait _ _ _ ?_ | refine keeps_upCmd H1 ?_ | refine keeps_Verdict_ok ?_
    | refine keeps_reply H ?_ | split | dsimp only

theorem keeps_execAbort {P : State → Prop} {h : Hdr} {p : Bytes} {s : State} (H : Keeps P 0x6f00557) (h2 : P s) : ResAll P (execAbort h p s)
    := by
  have H1 : Keeps P 0x6c00553 := H.mono rfl
  have H2 : Keeps P 0x6c00557 := H.mono rfl
  unfold execAbort
  with_reducible repeat' first
    | assumption | intro _ | refine res_next ?_ | refine keeps_opAbort H1
    | refine res_get ‹_ = Host.Outcome.next _› (keeps_thenUnload H ?_) | refine keeps_thenUnload H ?_
    | refine res_get ‹_ = Host.Outcome.next _› (keeps_runPkt H2 ?_ ?_) | refine keeps_runPkt H2 ?_ ?_ | split | dsimp only

theorem keeps_opRasSetErrorRing {P : State → Prop} (H : Keeps P 0x40000) : SpecAll P opRasSetErrorRing := by
  refine ⟨fun _ _ _ _ _ => ?_, fun _ _ _ _ => ?_⟩ <;> dsimp only [opRasSetErrorRing]
  with_reducible repeat' first
    | assumption | intro _ | exact VAll.refuse _ _ | exact VAll.refuseAt _ _ _ | refine VAll.done _ _ _ _ ?_
    | refine VAll.doneAs _ _ _ _ _ ?_ | refine VAll.wait _ _ _ ?_ | refine keeps_upRas H ?_ | refine keeps_badParam
    | refine keeps_Verdict_ok ?_ | split | dsimp only

theorem keeps_execRasSetErrorRing {P : State → Prop} {h : Hdr} {p : Bytes} {s : State} (H : Keeps P 0x6c40557) (h2 : P s) : ResAll P
    (execRasSetErrorRing h p s) := by
  have H1 : Keeps P 0x40000 := H.mono rfl
  have H2 : Keeps P 0x6c00557 := H.mono rfl
  unfold execRasSetErrorRing
  with_reducible repeat' first
    | assumption | intro _ | refine res_next ?_ | refine keeps_opRasSetErrorRing H1
    | refine res_get ‹_ = Host.Outcome.next _› (keeps_runPkt H2 ?_ ?_) | refine keeps_runPkt H2 ?_ ?_ | split | dsimp only

theorem keeps_opRasErrorHead {P : State → Prop} (H : Keeps P 0x40000) : SpecAll P opRasErrorHead := by
  refine ⟨fun _ _ _ _ _ => ?_, fun _ _ _ _ => ?_⟩ <;> dsimp only [opRasErrorHead]
  with_reducible repeat' first
    | assumption | intro _ | exact VAll.refuse _ _ | exact VAll.refuseAt _ _ _ | refine VAll.done _ _ _ _ ?_
    | refine VAll.doneAs _ _ _ _ _ ?_ | refine VAll.wait _ _ _ ?_ | refine keeps_upRas H ?_ | refine keeps_badParam
    | refine keeps_Verdict_ok ?_ | refine keeps_badState | split | dsimp only

theorem keeps_execRasErrorHead {P : State → Prop} {h : Hdr} {p : Bytes} {s : State} (H : Keeps P 0x6c40557) (h2 : P s) : ResAll P
    (execRasErrorHead h p s) := by
  have H1 : Keeps P 0x40000 := H.mono rfl
  have H2 : Keeps P 0x6c00557 := H.mono rfl
  unfold execRasErrorHead
  with_reducible repeat' first
    | assumption | intro _ | refine res_next ?_ | refine keeps_opRasErrorHead H1
    | refine res_get ‹_ = Host.Outcome.next _› (keeps_runPkt H2 ?_ ?_) | refine keeps_runPkt H2 ?_ ?_ | split | dsimp only

theorem keeps_opRasGetUnit {P : State → Prop} : SpecAll P opRasGetUnit := by
  refine ⟨fun _ _ _ _ _ => ?_, fun _ _ _ _ => ?_⟩ <;> dsimp only [opRasGetUnit]
  with_reducible repeat' first
    | assumption | intro _ | exact VAll.refuse _ _ | exact VAll.refuseAt _ _ _ | refine VAll.done _ _ _ _ ?_
    | refine VAll.doneAs _ _ _ _ _ ?_ | refine VAll.wait _ _ _ ?_ | refine keeps_badState | split | dsimp only

theorem keeps_execRasGetUnit {P : State → Prop} {h : Hdr} {p : Bytes} {s : State} (H : Keeps P 0x6c00557) (h2 : P s) : ResAll P
    (execRasGetUnit h p s) := by
  unfold execRasGetUnit
  with_reducible repeat' first
    | assumption | intro _ | refine res_next ?_ | refine keeps_opRasGetUnit
    | refine res_get ‹_ = Host.Outcome.next _› (keeps_runPkt H ?_ ?_) | refine keeps_runPkt H ?_ ?_ | split | dsimp only

theorem keeps_rasFlag {P : State → Prop} {s : State} {b : Nat} {f : Ras → Ras} (H : Keeps P 0x4440111) (h0 : P s) : P (State.rasFlag s b f)
    := by
  have H1 : Keeps P 0x40000 := H.mono rfl
  have H2 : Keeps P 0x4400111 := H.mono rfl
  unfold State.rasFlag
  with_reducible repeat' first
    | assumption | intro _ | refine keeps_upRas H1 ?_ | refine keeps_flag H2 ?_ ?_ | split | dsimp only

theorem keeps_upRasUnit {P : State → Prop} {s : State} {n : Nat} {f : RasUnit → RasUnit} (H : Keeps P 0x40000) (h0 : P s) : P
    (State.upRasUnit s n f) := by
  unfold State.upRasUnit
  with_reducible repeat' first
    | assumption | intro _ | refine keeps_upRas H ?_ | split | dsimp only

theorem keeps_countRows {P : State → Prop} {s : State} {r : TapRun} (H : Keeps P 0x4000000) (h0 : P s) : P (State.countRows s r) := by
  unfold State.countRows
  with_reducible repeat' first
    | assumption | intro _ | refine keeps_fnCtr H ?_ | refine keeps_ao H ?_ | split | dsimp only

theorem keeps_unitSend {P : State → Prop} {s : State} {id : Nat} {u : Nat} (H : Keeps P 0x480a004) (h0 : P s) : P (State.unitSend s id u) :=
    by
  have H1 : Keeps P 0x8000 := H.mono rfl
  have H2 : Keeps P 0x4802004 := H.mono rfl
  have H3 : Keeps P 0x2000 := H.mono rfl
  unfold State.unitSend
  with_reducible repeat' first
    | assumption | intro _ | refine keeps_upLoom H1 ?_ | refine keeps_runBlocks H2 ?_ | refine keeps_upRun H3 ?_ | split | dsimp only

theorem keeps_endRun {P : State → Prop} {s : State} {r : TapRun} (H : Keeps P 0x7c4b557) (h0 : P s) : P (State.endRun s r) := by
  have H1 : Keeps P 0x2000 := H.mono rfl
  have H2 : Keeps P 0x480a004 := H.mono rfl
  have H3 : Keeps P 0x4000000 := H.mono rfl
  have H4 : Keeps P 0x6c00553 := H.mono rfl
  have H5 : Keeps P 0x7c43557 := H.mono rfl
  have H6 : Keeps P 0x4800004 := H.mono rfl
  unfold State.endRun
  with_reducible repeat' first
    | assumption | intro _ | refine keeps_foldl ?_ ?_ | refine keeps_upTap H1 ?_ | refine keeps_unitSend H2 ?_
    | refine keeps_countRows H3 ?_ | refine keeps_replyRun H4 ?_ | refine keeps_endingRun H5 ?_ | refine keeps_upRun H1 ?_
    | refine keeps_gWrite H6 ?_ | split | dsimp only

theorem keeps_opDone {P : State → Prop} {s : State} (H : Keeps P 0x7c4b557) (h0 : P s) : P (State.opDone s) := by
  have H1 : Keeps P 0x2000 := H.mono rfl
  unfold State.opDone
  with_reducible repeat' first
    | assumption | intro _ | refine keeps_upTap H1 ?_ | refine keeps_endRun H ?_ | refine keeps_upRun H1 ?_ | split | dsimp only

theorem keeps_tapFence {P : State → Prop} {s : State} {core : Nat} (H : Keeps P 0x7c4f557) (h0 : P s) : P (State.tapFence s core) := by
  have H1 : Keeps P 0x2000 := H.mono rfl
  have H2 : Keeps P 0x7c4b557 := H.mono rfl
  have H3 : Keeps P 0x4006000 := H.mono rfl
  have H4 : Keeps P 0x7c47557 := H.mono rfl
  have H5 : Keeps P 0x4406111 := H.mono rfl
  have H6 : Keeps P 0x4802041 := H.mono rfl
  have H7 : Keeps P 0x4400111 := H.mono rfl
  unfold State.tapFence
  with_reducible repeat' first
    | assumption | intro _ | refine keeps_upTap H1 ?_ | refine keeps_opDone H2 ?_ | refine eq_snd ‹_ = _› (keeps_tapAbandon H3 ?_)
    | refine keeps_tapAbandon H3 ?_ | refine keeps_tapFewest H1 ?_ | refine keeps_tapKick H4 ?_ | refine keeps_repartition H5 ?_
    | refine keeps_tapFill H6 ?_ | refine keeps_flag H7 ?_ ?_ | split | dsimp only

theorem keeps_placeTrack {P : State → Prop} {s : State} {n : Nat} {i : Nat} (H : Keeps P 0x1000) (h0 : P s) : P (State.placeTrack s n i) :=
    by
  unfold State.placeTrack
  with_reducible repeat' first
    | assumption | intro _ | refine keeps_foldl ?_ ?_ | refine keeps_upStream H ?_ | split | dsimp only

theorem keeps_tracksMove {P : State → Prop} {s : State} {k : Nat} (H : Keeps P 0x1000) (h0 : P s) : P (State.tracksMove s k) := by
  unfold State.tracksMove
  with_reducible repeat' first
    | assumption | intro _ | refine keeps_foldl ?_ ?_ | refine keeps_placeTrack H ?_ | split | dsimp only

theorem keeps_shuMove {P : State → Prop} {s : State} {n : Nat} (H : Keeps P 0x1000) (h0 : P s) : P (State.shuMove s n) := by
  unfold State.shuMove
  with_reducible repeat' first
    | assumption | intro _ | exact opt_none | refine opt_some ?_ | refine opt_bindS ?_ ?_ | refine opt_bind ?_ | refine opt_ite ?_ ?_
    | refine keeps_upStreamX H ?_ | refine keeps_upStream H ?_ | split | dsimp only

theorem keeps_shuFenced {P : State → Prop} {s : State} {k : Nat} (H : Keeps P 0x1000) (h0 : P s) : P (State.shuFenced s k) := by
  unfold State.shuFenced
  with_reducible repeat' first
    | assumption | intro _ | refine keeps_foldl ?_ ?_ | refine opt_foldl ?_ ?_ | refine keeps_shuMove H ?_ | refine keeps_tracksMove H ?_
    | split | dsimp only

theorem keeps_upHand {P : State → Prop} {s : State} {n : Nat} {f : StgHand → StgHand} (H : Keeps P 0x100000) (h0 : P s) : P (State.upHand s
    n f) := by
  unfold State.upHand
  with_reducible repeat' first
    | assumption | intro _ | refine keeps_upStg H ?_ | split | dsimp only

theorem keeps_settle {P : State → Prop} {s : State} {mine : Hdr → Bool} (H : Keeps P 0x6f00557) (h0 : P s) : P (State.settle s mine) := by
  have H1 : Keeps P 0x40 := H.mono rfl
  have H2 : Keeps P 0x144 := H.mono rfl
  have H3 : Keeps P 0x6c00553 := H.mono rfl
  unfold State.settle
  with_reducible repeat' first
    | assumption | intro _ | refine keeps_foldl ?_ ?_ | refine keeps_upCmd H1 ?_ | refine keeps_fanoutDrop H2 ?_
    | refine keeps_settleUnloads H ?_ | refine keeps_finish H3 ?_ | refine keeps_reply H3 ?_ | split | dsimp only

theorem keeps_rehome {P : State → Prop} {s : State} {n : Nat} (H : Keeps P 0x6f00557) (h0 : P s) : P (State.rehome s n) := by
  have H1 : Keeps P 0x40 := H.mono rfl
  unfold State.rehome
  with_reducible repeat' first
    | assumption | intro _ | refine keeps_foldl ?_ ?_ | refine keeps_upCmd H1 ?_ | refine keeps_settle H ?_ | refine keeps_upQp H1 ?_
    | split | dsimp only

theorem keeps_handFence {P : State → Prop} {s : State} {n : Nat} (H : Keeps P 0x6f00557) (h0 : P s) : P (State.handFence s n) := by
  have H1 : Keeps P 0x100000 := H.mono rfl
  have H2 : Keeps P 0x400000 := H.mono rfl
  have H3 : Keeps P 0x200000 := H.mono rfl
  have H4 : Keeps P 0x4400111 := H.mono rfl
  unfold State.handFence
  with_reducible repeat' first
    | assumption | intro _ | refine keeps_upStg H1 ?_ | refine keeps_rehome H ?_ | refine keeps_upHand H1 ?_
    | refine keeps_clearHandStack H2 ?_ | refine keeps_upCore H3 ?_ | refine keeps_flag H4 ?_ ?_ | split | dsimp only

theorem keeps_noLanes {P : State → Prop} {s : State} {n : Ns} (H : Keeps P 0x7c405d3) (h0 : P s) : P (State.noLanes s n) := by
  have H1 : Keeps P 0x80 := H.mono rfl
  have H2 : Keeps P 0x4c00191 := H.mono rfl
  unfold State.noLanes
  with_reducible repeat' first
    | assumption | intro _ | refine keeps_stick H1 ?_ | refine keeps_writeFailed H ?_ | refine keeps_stuckEnd H2 ?_ | split | dsimp only

theorem keeps_laneless {P : State → Prop} {s : State} {u : CipUnit} (H : Keeps P 0x7c40dd3) (h0 : P s) : P (State.laneless s u) := by
  have H1 : Keeps P 0x800 := H.mono rfl
  have H2 : Keeps P 0x7c405d3 := H.mono rfl
  have H3 : Keeps P 0x6c00dd3 := H.mono rfl
  have H4 : Keeps P 0x881 := H.mono rfl
  have H5 : Keeps P 0x6c00d53 := H.mono rfl
  unfold State.laneless
  with_reducible repeat' first
    | assumption | intro _ | refine keeps_upCip H1 ?_ | refine keeps_noLanes H2 ?_ | refine keeps_readEnd H3 ?_
    | refine keeps_sealBack H4 ?_ | refine keeps_cryptEnd H5 ?_ | refine keeps_upPage H1 ?_ | split | dsimp only

theorem keeps_laneMoved {P : State → Prop} {s : State} {lane : Nat} (H : Keeps P 0x7c40fd7) (h0 : P s) : P (State.laneMoved s lane) := by
  have H1 : Keeps P 0x800 := H.mono rfl
  have H2 : Keeps P 0x7c40dd3 := H.mono rfl
  unfold State.laneMoved
  with_reducible repeat' first
    | assumption | intro _ | refine keeps_foldl ?_ ?_ | refine opt_foldl ?_ ?_ | refine keeps_upCip H1 ?_ | refine keeps_laneless H2 ?_
    | refine keeps_releasePage H ?_ | split | dsimp only

theorem keeps_removalEnds {P : State → Prop} {s : State} (H : Keeps P 0x7c40113) (h0 : P s) : P (State.removalEnds s) := by
  have H1 : Keeps P 0x40000 := H.mono rfl
  unfold State.removalEnds
  with_reducible repeat' first
    | assumption | intro _ | refine keeps_upRas H1 ?_ | refine keeps_record H ?_ | split | dsimp only

theorem keeps_partReset {P : State → Prop} {s : State} {p : Partn} {line : Option (Nat × Nat)} (H : Keeps P 0x7cff5f7) (h0 : P s) : P
    (State.partReset s p line) := by
  have H1 : Keeps P 0x40000 := H.mono rfl
  have H2 : Keeps P 0x4440111 := H.mono rfl
  have H3 : Keeps P 0x7cff5f3 := H.mono rfl
  have H4 : Keeps P 0x4 := H.mono rfl
  have H5 : Keeps P 0x7c40113 := H.mono rfl
  have H6 : Keeps P 0x4000000 := H.mono rfl
  unfold State.partReset
  with_reducible repeat' first
    | assumption | intro _ | refine keeps_upRas H1 ?_ | refine keeps_rasFlag H2 ?_ | refine keeps_partLost H3 ?_
    | refine keeps_gClear H4 ?_ | refine keeps_record H5 ?_ | refine keeps_ao H6 ?_ | split | dsimp only

theorem keeps_channelLeaves {P : State → Prop} {s : State} {ch : Nat} (H : Keeps P 0x7cff5f7) (h0 : P s) : P (State.channelLeaves s ch) :=
    by
  have H1 : Keeps P 0x100 := H.mono rfl
  have H2 : Keeps P 0x40000 := H.mono rfl
  have H3 : Keeps P 0x7c40113 := H.mono rfl
  unfold State.channelLeaves
  with_reducible repeat' first
    | assumption | intro _ | refine keeps_foldl ?_ ?_ | refine keeps_foldl_fst ?_ ?_ | refine keeps_foldl_snd ?_ ?_
    | refine opt_foldl ?_ ?_ | refine keeps_upNet H1 ?_ | refine keeps_upRas H2 ?_ | refine keeps_partReset H ?_
    | refine keeps_removalEnds H3 ?_ | split | dsimp only

theorem keeps_fenceWork {P : State → Prop} {s : State} {n : Nat} (H : Keeps P 0x7fffff7) (h0 : P s) : P (State.fenceWork s n) := by
  have H1 : Keeps P 0x40000 := H.mono rfl
  have H2 : Keeps P 0x7cff5f7 := H.mono rfl
  have H3 : Keeps P 0x7c40fd7 := H.mono rfl
  have H4 : Keeps P 0x6f00557 := H.mono rfl
  have H5 : Keeps P 0x1000 := H.mono rfl
  have H6 : Keeps P 0x7c4f557 := H.mono rfl
  have H7 : Keeps P 0x7c40113 := H.mono rfl
  unfold State.fenceWork
  with_reducible repeat' first
    | assumption | intro _ | refine keeps_upRas H1 ?_ | refine keeps_channelLeaves H2 ?_ | refine keeps_laneMoved H3 ?_
    | refine keeps_handFence H4 ?_ | refine keeps_shuFenced H5 ?_ | refine keeps_tapFence H6 ?_ | refine keeps_record H7 ?_ | split
    | dsimp only

theorem keeps_fenceUnit {P : State → Prop} {s : State} {n : Nat} (H : Keeps P 0x7fffff7) (h0 : P s) : P (State.fenceUnit s n) := by
  have H1 : Keeps P 0x40000 := H.mono rfl
  have H2 : Keeps P 0x4440111 := H.mono rfl
  have H3 : Keeps P 0x7c40113 := H.mono rfl
  have H4 : Keeps P 0x4000000 := H.mono rfl
  unfold State.fenceUnit
  with_reducible repeat' first
    | assumption | intro _ | refine keeps_fenceWork H ?_ | refine keeps_upRasUnit H1 ?_ | refine keeps_rasFlag H2 ?_
    | refine keeps_record H3 ?_ | refine keeps_ao H4 ?_ | split | dsimp only

theorem keeps_opRasFenceUnit {P : State → Prop} (H : Keeps P 0x7fffff7) : SpecAll P opRasFenceUnit := by
  have H1 : Keeps P 0x7c47557 := H.mono rfl
  refine ⟨fun _ _ _ _ _ => ?_, fun _ _ _ _ => ?_⟩ <;> dsimp only [opRasFenceUnit]
  with_reducible repeat' first
    | assumption | intro _ | exact VAll.refuse _ _ | exact VAll.refuseAt _ _ _ | refine VAll.done _ _ _ _ ?_
    | refine VAll.doneAs _ _ _ _ _ ?_ | refine VAll.wait _ _ _ ?_ | refine keeps_fenceUnit H ?_ | refine keeps_Verdict_ok ?_
    | refine keeps_badState | refine keeps_iftCheck H1 ?_ | split | dsimp only

theorem keeps_execRasFenceUnit {P : State → Prop} {h : Hdr} {p : Bytes} {s : State} (H : Keeps P 0x7fffff7) (h2 : P s) : ResAll P
    (execRasFenceUnit h p s) := by
  have H1 : Keeps P 0x6c00557 := H.mono rfl
  unfold execRasFenceUnit
  with_reducible repeat' first
    | assumption | intro _ | refine res_next ?_ | refine keeps_opRasFenceUnit H
    | refine res_get ‹_ = Host.Outcome.next _› (keeps_runPkt H1 ?_ ?_) | refine keeps_runPkt H1 ?_ ?_ | split | dsimp only

theorem keeps_opRasSetTest {P : State → Prop} (H : Keeps P 0x40000) : SpecAll P opRasSetTest := by
  refine ⟨fun _ _ _ _ _ => ?_, fun _ _ _ _ => ?_⟩ <;> dsimp only [opRasSetTest]
  with_reducible repeat' first
    | assumption | intro _ | exact VAll.refuse _ _ | exact VAll.refuseAt _ _ _ | refine VAll.done _ _ _ _ ?_
    | refine VAll.doneAs _ _ _ _ _ ?_ | refine VAll.wait _ _ _ ?_ | refine keeps_upRas H ?_ | refine keeps_Verdict_ok ?_ | split
    | dsimp only

theorem keeps_execRasSetTest {P : State → Prop} {h : Hdr} {p : Bytes} {s : State} (H : Keeps P 0x6c40557) (h2 : P s) : ResAll P
    (execRasSetTest h p s) := by
  have H1 : Keeps P 0x40000 := H.mono rfl
  have H2 : Keeps P 0x6c00557 := H.mono rfl
  unfold execRasSetTest
  with_reducible repeat' first
    | assumption | intro _ | refine res_next ?_ | refine keeps_opRasSetTest H1
    | refine res_get ‹_ = Host.Outcome.next _› (keeps_runPkt H2 ?_ ?_) | refine keeps_runPkt H2 ?_ ?_ | split | dsimp only

theorem keeps_readLog {P : State → Prop} {s : State} {fn : Nat} {p : Bytes} (H : Keeps P 0x4800001) (h0 : P s) : P (State.readLog s fn
    p).2.2 := by
  unfold State.readLog
  with_reducible repeat' first
    | assumption | intro _ | refine keeps_hostWrite H ?_ | split | dsimp only

theorem keeps_opSmReadLog {P : State → Prop} (H : Keeps P 0x4800001) : SpecAll P opSmReadLog := by
  refine ⟨fun _ _ _ _ _ => ?_, fun _ _ _ _ => ?_⟩ <;> dsimp only [opSmReadLog]
  with_reducible repeat' first
    | assumption | intro _ | exact VAll.refuse _ _ | exact VAll.refuseAt _ _ _ | refine VAll.done _ _ _ _ ?_
    | refine VAll.doneAs _ _ _ _ _ ?_ | refine VAll.wait _ _ _ ?_ | refine eq_trd ‹_ = _› (keeps_readLog H ?_) | refine keeps_readLog H ?_
    | split | dsimp only

theorem keeps_execSmReadLog {P : State → Prop} {h : Hdr} {p : Bytes} {s : State} (H : Keeps P 0x6c00557) (h2 : P s) : ResAll P
    (execSmReadLog h p s) := by
  have H1 : Keeps P 0x4800001 := H.mono rfl
  unfold execSmReadLog
  with_reducible repeat' first
    | assumption | intro _ | refine res_next ?_ | refine keeps_opSmReadLog H1
    | refine res_get ‹_ = Host.Outcome.next _› (keeps_runPkt H ?_ ?_) | refine keeps_runPkt H ?_ ?_ | split | dsimp only

theorem keeps_opSmSetOperatorKey {P : State → Prop} (H : Keeps P 0x3000000) : SpecAll P opSmSetOperatorKey := by
  refine ⟨fun _ _ _ _ _ => ?_, fun _ _ _ _ => ?_⟩ <;> dsimp only [opSmSetOperatorKey]
  with_reducible repeat' first
    | assumption | intro _ | exact VAll.refuse _ _ | exact VAll.refuseAt _ _ _ | refine VAll.done _ _ _ _ ?_
    | refine VAll.doneAs _ _ _ _ _ ?_ | refine VAll.wait _ _ _ ?_ | refine keeps_storeCmd H ?_ | split | dsimp only

theorem keeps_execSmSetOperatorKey {P : State → Prop} {h : Hdr} {p : Bytes} {s : State} (H : Keeps P 0x7c00557) (h2 : P s) : ResAll P
    (execSmSetOperatorKey h p s) := by
  have H1 : Keeps P 0x3000000 := H.mono rfl
  have H2 : Keeps P 0x6c00557 := H.mono rfl
  unfold execSmSetOperatorKey
  with_reducible repeat' first
    | assumption | intro _ | refine res_next ?_ | refine keeps_opSmSetOperatorKey H1
    | refine res_get ‹_ = Host.Outcome.next _› (keeps_runPkt H2 ?_ ?_) | refine keeps_runPkt H2 ?_ ?_ | split | dsimp only

theorem keeps_opSmSetThreshold {P : State → Prop} (H : Keeps P 0x3000000) : SpecAll P opSmSetThreshold := by
  refine ⟨fun _ _ _ _ _ => ?_, fun _ _ _ _ => ?_⟩ <;> dsimp only [opSmSetThreshold]
  with_reducible repeat' first
    | assumption | intro _ | exact VAll.refuse _ _ | exact VAll.refuseAt _ _ _ | refine VAll.done _ _ _ _ ?_
    | refine VAll.doneAs _ _ _ _ _ ?_ | refine VAll.wait _ _ _ ?_ | refine keeps_storeCmd H ?_ | split | dsimp only

theorem keeps_execSmSetThreshold {P : State → Prop} {h : Hdr} {p : Bytes} {s : State} (H : Keeps P 0x7c00557) (h2 : P s) : ResAll P
    (execSmSetThreshold h p s) := by
  have H1 : Keeps P 0x3000000 := H.mono rfl
  have H2 : Keeps P 0x6c00557 := H.mono rfl
  unfold execSmSetThreshold
  with_reducible repeat' first
    | assumption | intro _ | refine res_next ?_ | refine keeps_opSmSetThreshold H1
    | refine res_get ‹_ = Host.Outcome.next _› (keeps_runPkt H2 ?_ ?_) | refine keeps_runPkt H2 ?_ ?_ | split | dsimp only

theorem keeps_opSmSetFwKey {P : State → Prop} (H : Keeps P 0x3000000) : SpecAll P opSmSetFwKey := by
  refine ⟨fun _ _ _ _ _ => ?_, fun _ _ _ _ => ?_⟩ <;> dsimp only [opSmSetFwKey]
  with_reducible repeat' first
    | assumption | intro _ | exact VAll.refuse _ _ | exact VAll.refuseAt _ _ _ | refine VAll.done _ _ _ _ ?_
    | refine VAll.doneAs _ _ _ _ _ ?_ | refine VAll.wait _ _ _ ?_ | refine keeps_storeCmd H ?_ | split | dsimp only

theorem keeps_execSmSetFwKey {P : State → Prop} {h : Hdr} {p : Bytes} {s : State} (H : Keeps P 0x7c00557) (h2 : P s) : ResAll P
    (execSmSetFwKey h p s) := by
  have H1 : Keeps P 0x3000000 := H.mono rfl
  have H2 : Keeps P 0x6c00557 := H.mono rfl
  unfold execSmSetFwKey
  with_reducible repeat' first
    | assumption | intro _ | refine res_next ?_ | refine keeps_opSmSetFwKey H1
    | refine res_get ‹_ = Host.Outcome.next _› (keeps_runPkt H2 ?_ ?_) | refine keeps_runPkt H2 ?_ ?_ | split | dsimp only

theorem keeps_opSmSetMgmt {P : State → Prop} (H : Keeps P 0x3000000) : SpecAll P opSmSetMgmt := by
  refine ⟨fun _ _ _ _ _ => ?_, fun _ _ _ _ => ?_⟩ <;> dsimp only [opSmSetMgmt]
  with_reducible repeat' first
    | assumption | intro _ | exact VAll.refuse _ _ | exact VAll.refuseAt _ _ _ | refine VAll.done _ _ _ _ ?_
    | refine VAll.doneAs _ _ _ _ _ ?_ | refine VAll.wait _ _ _ ?_ | refine keeps_storeCmd H ?_ | split | dsimp only

theorem keeps_execSmSetMgmt {P : State → Prop} {h : Hdr} {p : Bytes} {s : State} (H : Keeps P 0x7c00557) (h2 : P s) : ResAll P
    (execSmSetMgmt h p s) := by
  have H1 : Keeps P 0x3000000 := H.mono rfl
  have H2 : Keeps P 0x6c00557 := H.mono rfl
  unfold execSmSetMgmt
  with_reducible repeat' first
    | assumption | intro _ | refine res_next ?_ | refine keeps_opSmSetMgmt H1
    | refine res_get ‹_ = Host.Outcome.next _› (keeps_runPkt H2 ?_ ?_) | refine keeps_runPkt H2 ?_ ?_ | split | dsimp only

theorem keeps_opPwrSetCap {P : State → Prop} (H : Keeps P 0xfc47557) : SpecAll P opPwrSetCap := by
  have H1 : Keeps P 0x8000000 := H.mono rfl
  have H2 : Keeps P 0x7c47557 := H.mono rfl
  refine ⟨fun _ _ _ _ _ => ?_, fun _ _ _ _ => ?_⟩ <;> dsimp only [opPwrSetCap]
  with_reducible repeat' first
    | assumption | intro _ | exact VAll.refuse _ _ | exact VAll.refuseAt _ _ _ | refine VAll.done _ _ _ _ ?_
    | refine VAll.doneAs _ _ _ _ _ ?_ | refine VAll.wait _ _ _ ?_ | refine keeps_upPwr H1 ?_ | refine keeps_Verdict_ok ?_
    | refine keeps_iftCheck H2 ?_ | split | dsimp only

theorem keeps_execPwrSetCap {P : State → Prop} {h : Hdr} {p : Bytes} {s : State} (H : Keeps P 0xfc47557) (h2 : P s) : ResAll P
    (execPwrSetCap h p s) := by
  have H1 : Keeps P 0x6c00557 := H.mono rfl
  unfold execPwrSetCap
  with_reducible repeat' first
    | assumption | intro _ | refine res_next ?_ | refine keeps_opPwrSetCap H
    | refine res_get ‹_ = Host.Outcome.next _› (keeps_runPkt H1 ?_ ?_) | refine keeps_runPkt H1 ?_ ?_ | split | dsimp only

theorem keeps_opPwrSetConfig {P : State → Prop} (H : Keeps P 0x3000000) : SpecAll P opPwrSetConfig := by
  refine ⟨fun _ _ _ _ _ => ?_, fun _ _ _ _ => ?_⟩ <;> dsimp only [opPwrSetConfig]
  with_reducible repeat' first
    | assumption | intro _ | exact VAll.refuse _ _ | exact VAll.refuseAt _ _ _ | refine VAll.done _ _ _ _ ?_
    | refine VAll.doneAs _ _ _ _ _ ?_ | refine VAll.wait _ _ _ ?_ | refine keeps_storeCmd H ?_ | split | dsimp only

theorem keeps_execPwrSetConfig {P : State → Prop} {h : Hdr} {p : Bytes} {s : State} (H : Keeps P 0x7c00557) (h2 : P s) : ResAll P
    (execPwrSetConfig h p s) := by
  have H1 : Keeps P 0x3000000 := H.mono rfl
  have H2 : Keeps P 0x6c00557 := H.mono rfl
  unfold execPwrSetConfig
  with_reducible repeat' first
    | assumption | intro _ | refine res_next ?_ | refine keeps_opPwrSetConfig H1
    | refine res_get ‹_ = Host.Outcome.next _› (keeps_runPkt H2 ?_ ?_) | refine keeps_runPkt H2 ?_ ?_ | split | dsimp only

theorem keeps_opModule {P : State → Prop} {opcode : Nat} {m : StgModule} (H : Keeps P 0x100000) : SpecAll P (opModule opcode m) := by
  refine ⟨fun _ _ _ _ _ => ?_, fun _ _ _ _ => ?_⟩ <;> dsimp only [opModule]
  with_reducible repeat' first
    | assumption | intro _ | exact VAll.refuse _ _ | exact VAll.refuseAt _ _ _ | refine VAll.done _ _ _ _ ?_
    | refine VAll.doneAs _ _ _ _ _ ?_ | refine VAll.wait _ _ _ ?_ | refine keeps_upStg H ?_ | split | dsimp only

theorem keeps_opUndefined {P : State → Prop} {opcode : Nat} : SpecAll P (opUndefined opcode) := by
  refine ⟨fun _ _ _ _ _ => ?_, fun _ _ _ _ => ?_⟩ <;> dsimp only [opUndefined]
  with_reducible repeat' first
    | assumption | intro _ | exact VAll.refuse _ _ | exact VAll.refuseAt _ _ _ | refine VAll.done _ _ _ _ ?_
    | refine VAll.doneAs _ _ _ _ _ ?_ | refine VAll.wait _ _ _ ?_ | split | dsimp only

theorem keeps_execOther {P : State → Prop} {opcode : Nat} {h : Hdr} {p : Bytes} {s : State} (H : Keeps P 0x6f00557) (h3 : P s) : ResAll P
    (execOther opcode h p s) := by
  have H1 : Keeps P 0x100000 := H.mono rfl
  have H2 : Keeps P 0x6c00557 := H.mono rfl
  unfold execOther
  with_reducible repeat' first
    | assumption | intro _ | refine res_next ?_ | refine keeps_opUndefined | refine keeps_opModule H1
    | refine res_get ‹_ = Host.Outcome.next _› (keeps_thenUnload H ?_) | refine keeps_thenUnload H ?_
    | refine res_get ‹_ = Host.Outcome.next _› (keeps_runPkt H2 ?_ ?_) | refine keeps_runPkt H2 ?_ ?_ | split | dsimp only

theorem keeps_cmdModule {P : State → Prop} {opcode : Nat} {h : Hdr} {p : Bytes} {s : State} (H : Keeps P 0xfffffff) (h3 : P s) : ResAll P
    (cmdModule opcode h p s) := by
  have H1 : Keeps P 0x6f00557 := H.mono rfl
  have H2 : Keeps P 0x7c00557 := H.mono rfl
  have H3 : Keeps P 0xfc47557 := H.mono rfl
  have H4 : Keeps P 0x6c00557 := H.mono rfl
  have H5 : Keeps P 0x6c40557 := H.mono rfl
  have H6 : Keeps P 0x7fffff7 := H.mono rfl
  have H7 : Keeps P 0x7cfffff := H.mono rfl
  have H8 : Keeps P 0x7c4ff57 := H.mono rfl
  unfold cmdModule
  with_reducible repeat' first
    | assumption | intro _ | refine res_next ?_ | refine res_get ‹_ = Host.Outcome.next _› (keeps_execOther H1 ?_)
    | refine keeps_execOther H1 ?_ | refine res_get ‹_ = Host.Outcome.next _› (keeps_execPwrSetConfig H2 ?_)
    | refine keeps_execPwrSetConfig H2 ?_ | refine res_get ‹_ = Host.Outcome.next _› (keeps_execPwrSetCap H3 ?_)
    | refine keeps_execPwrSetCap H3 ?_ | refine res_get ‹_ = Host.Outcome.next _› (keeps_execSmSetMgmt H2 ?_)
    | refine keeps_execSmSetMgmt H2 ?_ | refine res_get ‹_ = Host.Outcome.next _› (keeps_execSmSetFwKey H2 ?_)
    | refine keeps_execSmSetFwKey H2 ?_ | refine res_get ‹_ = Host.Outcome.next _› (keeps_execSmSetThreshold H2 ?_)
    | refine keeps_execSmSetThreshold H2 ?_ | refine res_get ‹_ = Host.Outcome.next _› (keeps_execSmSetOperatorKey H2 ?_)
    | refine keeps_execSmSetOperatorKey H2 ?_ | refine res_get ‹_ = Host.Outcome.next _› (keeps_execSmReadLog H4 ?_)
    | refine keeps_execSmReadLog H4 ?_ | refine res_get ‹_ = Host.Outcome.next _› (keeps_execRasSetTest H5 ?_)
    | refine keeps_execRasSetTest H5 ?_ | refine res_get ‹_ = Host.Outcome.next _› (keeps_execRasFenceUnit H6 ?_)
    | refine keeps_execRasFenceUnit H6 ?_ | refine res_get ‹_ = Host.Outcome.next _› (keeps_execRasGetUnit H4 ?_)
    | refine keeps_execRasGetUnit H4 ?_ | refine res_get ‹_ = Host.Outcome.next _› (keeps_execRasErrorHead H5 ?_)
    | refine keeps_execRasErrorHead H5 ?_ | refine res_get ‹_ = Host.Outcome.next _› (keeps_execRasSetErrorRing H5 ?_)
    | refine keeps_execRasSetErrorRing H5 ?_ | refine res_get ‹_ = Host.Outcome.next _› (keeps_execAbort H1 ?_)
    | refine keeps_execAbort H1 ?_ | refine res_get ‹_ = Host.Outcome.next _› (keeps_execGetState H4 ?_) | refine keeps_execGetState H4 ?_
    | refine res_get ‹_ = Host.Outcome.next _› (keeps_execIntermissionEnd H7 ?_) | refine keeps_execIntermissionEnd H7 ?_
    | refine res_get ‹_ = Host.Outcome.next _› (keeps_execIntermissionBegin H4 ?_) | refine keeps_execIntermissionBegin H4 ?_
    | refine res_get ‹_ = Host.Outcome.next _› (keeps_execDeleteQueuePair H4 ?_) | refine keeps_execDeleteQueuePair H4 ?_
    | refine res_get ‹_ = Host.Outcome.next _› (keeps_execCreateQueuePair H4 ?_) | refine keeps_execCreateQueuePair H4 ?_
    | refine res_get ‹_ = Host.Outcome.next _› (keeps_execSetRoleKey H2 ?_) | refine keeps_execSetRoleKey H2 ?_
    | refine res_get ‹_ = Host.Outcome.next _› (keeps_execCloseSession H8 ?_) | refine keeps_execCloseSession H8 ?_
    | refine res_get ‹_ = Host.Outcome.next _› (keeps_execOpenSession H4 ?_) | refine keeps_execOpenSession H4 ?_
    | refine res_get ‹_ = Host.Outcome.next _› (keeps_execNop H4 ?_) | refine keeps_execNop H4 ?_
    | refine res_get ‹_ = Host.Outcome.next _› (keeps_execSetPartitions H4 ?_) | refine keeps_execSetPartitions H4 ?_
    | refine res_get ‹_ = Host.Outcome.next _› (keeps_execCallAssign H4 ?_) | refine keeps_execCallAssign H4 ?_ | split | dsimp only

theorem keeps_cueNow {P : State → Prop} {s : State} (H : Keeps P 0x20) (h0 : P s) : P (State.cueNow s) := by
  unfold State.cueNow
  with_reducible repeat' first
    | assumption | intro _ | refine keeps_upCue H ?_ | split | dsimp only

theorem keeps_cueNote {P : State → Prop} {s : State} (H : Keeps P 0x4400111) (h0 : P s) : P (State.cueNote s) := by
  unfold State.cueNote
  with_reducible repeat' first
    | assumption | intro _ | refine keeps_note H ?_ | split | dsimp only

theorem keeps_cueState {P : State → Prop} {s : State} {st : CueState} (H : Keeps P 0x6cb0573) (h0 : P s) : P (State.cueState s st) := by
  have H1 : Keeps P 0x20 := H.mono rfl
  have H2 : Keeps P 0x4400111 := H.mono rfl
  have H3 : Keeps P 0x6c80553 := H.mono rfl
  have H4 : Keeps P 0x4430113 := H.mono rfl
  unfold State.cueState
  with_reducible repeat' first
    | assumption | intro _ | refine keeps_upCue H1 ?_ | refine keeps_cueNote H2 ?_ | refine keeps_cueNow H1 ?_
    | refine keeps_ckpRelock H3 ?_ | refine keeps_ckpCueOff H4 ?_ | split | dsimp only

theorem keeps_opSetCueSource {P : State → Prop} (H : Keeps P 0x6cb0573) : SpecAll P opSetCueSource := by
  have H1 : Keeps P 0x20 := H.mono rfl
  refine ⟨fun _ _ _ _ _ => ?_, fun _ _ _ _ => ?_⟩ <;> dsimp only [opSetCueSource]
  with_reducible repeat' first
    | assumption | intro _ | exact VAll.refuse _ _ | exact VAll.refuseAt _ _ _ | refine VAll.done _ _ _ _ ?_
    | refine VAll.doneAs _ _ _ _ _ ?_ | refine VAll.wait _ _ _ ?_ | refine keeps_upCue H1 ?_ | refine keeps_cueState H ?_
    | refine keeps_cueNow H1 ?_ | refine keeps_Verdict_ok ?_ | split | dsimp only

theorem keeps_execSetCueSource {P : State → Prop} {h : Hdr} {p : Bytes} {s : State} (H : Keeps P 0x6cb0577) (h2 : P s) : ResAll P
    (execSetCueSource h p s) := by
  have H1 : Keeps P 0x6cb0573 := H.mono rfl
  have H2 : Keeps P 0x6c00557 := H.mono rfl
  unfold execSetCueSource
  with_reducible repeat' first
    | assumption | intro _ | refine res_next ?_ | refine keeps_opSetCueSource H1
    | refine res_get ‹_ = Host.Outcome.next _› (keeps_runPkt H2 ?_ ?_) | refine keeps_runPkt H2 ?_ ?_ | split | dsimp only

theorem keeps_opCueEventSet {P : State → Prop} (H : Keeps P 0x44b0133) : SpecAll P opCueEventSet := by
  have H1 : Keeps P 0x20 := H.mono rfl
  refine ⟨fun _ _ _ _ _ => ?_, fun _ _ _ _ => ?_⟩ <;> dsimp only [opCueEventSet]
  with_reducible repeat' first
    | assumption | intro _ | exact VAll.refuse _ _ | exact VAll.refuseAt _ _ _ | refine VAll.done _ _ _ _ ?_
    | refine VAll.doneAs _ _ _ _ _ ?_ | refine VAll.wait _ _ _ ?_ | refine keeps_cueFire H ?_ | refine keeps_badParam
    | refine keeps_noResource | refine keeps_badState | refine keeps_upEvents H1 ?_ | split | dsimp only

theorem keeps_execCueEventSet {P : State → Prop} {h : Hdr} {p : Bytes} {s : State} (H : Keeps P 0x6cb0577) (h2 : P s) : ResAll P
    (execCueEventSet h p s) := by
  have H1 : Keeps P 0x44b0133 := H.mono rfl
  have H2 : Keeps P 0x6c00557 := H.mono rfl
  unfold execCueEventSet
  with_reducible repeat' first
    | assumption | intro _ | refine res_next ?_ | refine keeps_opCueEventSet H1
    | refine res_get ‹_ = Host.Outcome.next _› (keeps_runPkt H2 ?_ ?_) | refine keeps_runPkt H2 ?_ ?_ | split | dsimp only

theorem keeps_opCueEventClear {P : State → Prop} (H : Keeps P 0x44b0133) : SpecAll P opCueEventClear := by
  have H1 : Keeps P 0x44b0113 := H.mono rfl
  have H2 : Keeps P 0x20 := H.mono rfl
  refine ⟨fun _ _ _ _ _ => ?_, fun _ _ _ _ => ?_⟩ <;> dsimp only [opCueEventClear]
  with_reducible repeat' first
    | assumption | intro _ | exact VAll.refuse _ _ | exact VAll.refuseAt _ _ _ | refine VAll.done _ _ _ _ ?_
    | refine VAll.doneAs _ _ _ _ _ ?_ | refine VAll.wait _ _ _ ?_ | refine keeps_cueAct H1 ?_ | refine keeps_Verdict_ok ?_
    | refine keeps_upEvents H2 ?_ | split | dsimp only

theorem keeps_execCueEventClear {P : State → Prop} {h : Hdr} {p : Bytes} {s : State} (H : Keeps P 0x6cb0577) (h2 : P s) : ResAll P
    (execCueEventClear h p s) := by
  have H1 : Keeps P 0x44b0133 := H.mono rfl
  have H2 : Keeps P 0x6c00557 := H.mono rfl
  unfold execCueEventClear
  with_reducible repeat' first
    | assumption | intro _ | refine res_next ?_ | refine keeps_opCueEventClear H1
    | refine res_get ‹_ = Host.Outcome.next _› (keeps_runPkt H2 ?_ ?_) | refine keeps_runPkt H2 ?_ ?_ | split | dsimp only

theorem keeps_cmdCue {P : State → Prop} {opcode : Nat} {h : Hdr} {p : Bytes} {s : State} (H : Keeps P 0x6fb0577) (h3 : P s) : ResAll P
    (cmdCue opcode h p s) := by
  have H1 : Keeps P 0x6cb0577 := H.mono rfl
  have H2 : Keeps P 0x6f00557 := H.mono rfl
  unfold cmdCue
  with_reducible repeat' first
    | assumption | intro _ | refine res_next ?_ | refine res_get ‹_ = Host.Outcome.next _› (keeps_execCueEventClear H1 ?_)
    | refine keeps_execCueEventClear H1 ?_ | refine res_get ‹_ = Host.Outcome.next _› (keeps_execCueEventSet H1 ?_)
    | refine keeps_execCueEventSet H1 ?_ | refine res_get ‹_ = Host.Outcome.next _› (keeps_execSetCueSource H1 ?_)
    | refine keeps_execSetCueSource H1 ?_ | refine res_get ‹_ = Host.Outcome.next _› (keeps_execOther H2 ?_) | refine keeps_execOther H2 ?_
    | split | dsimp only

theorem keeps_opTapLoad {P : State → Prop} (H : Keeps P 0x2000) : SpecAll P opTapLoad := by
  refine ⟨fun _ _ _ _ _ => ?_, fun _ _ _ _ => ?_⟩ <;> dsimp only [opTapLoad]
  with_reducible repeat' first
    | assumption | intro _ | exact VAll.refuse _ _ | exact VAll.refuseAt _ _ _ | refine VAll.done _ _ _ _ ?_
    | refine VAll.doneAs _ _ _ _ _ ?_ | refine VAll.wait _ _ _ ?_ | refine keeps_upTap H ?_ | refine keeps_noResource | split | dsimp only

theorem keeps_execTapLoadProgram {P : State → Prop} {h : Hdr} {p : Bytes} {s : State} (H : Keeps P 0x6c02557) (h2 : P s) : ResAll P
    (execTapLoadProgram h p s) := by
  have H1 : Keeps P 0x2000 := H.mono rfl
  have H2 : Keeps P 0x6c00557 := H.mono rfl
  unfold execTapLoadProgram
  with_reducible repeat' first
    | assumption | intro _ | refine res_next ?_ | refine keeps_opTapLoad H1
    | refine res_get ‹_ = Host.Outcome.next _› (keeps_runPkt H2 ?_ ?_) | refine keeps_runPkt H2 ?_ ?_ | split | dsimp only

theorem keeps_opTapUnload {P : State → Prop} (H : Keeps P 0x2000) : SpecAll P opTapUnload := by
  refine ⟨fun _ _ _ _ _ => ?_, fun _ _ _ _ => ?_⟩ <;> dsimp only [opTapUnload]
  with_reducible repeat' first
    | assumption | intro _ | exact VAll.refuse _ _ | exact VAll.refuseAt _ _ _ | refine VAll.done _ _ _ _ ?_
    | refine VAll.doneAs _ _ _ _ _ ?_ | refine VAll.wait _ _ _ ?_ | refine keeps_upTap H ?_ | refine keeps_Verdict_ok ?_ | split
    | dsimp only

theorem keeps_execTapUnloadProgram {P : State → Prop} {h : Hdr} {p : Bytes} {s : State} (H : Keeps P 0x6c02557) (h2 : P s) : ResAll P
    (execTapUnloadProgram h p s) := by
  have H1 : Keeps P 0x2000 := H.mono rfl
  have H2 : Keeps P 0x6c00557 := H.mono rfl
  unfold execTapUnloadProgram
  with_reducible repeat' first
    | assumption | intro _ | refine res_next ?_ | refine keeps_opTapUnload H1
    | refine res_get ‹_ = Host.Outcome.next _› (keeps_runPkt H2 ?_ ?_) | refine keeps_runPkt H2 ?_ ?_ | split | dsimp only

theorem keeps_opTapRun {P : State → Prop} (H : Keeps P 0x2000) : SpecAll P opTapRun := by
  refine ⟨fun _ _ _ _ _ => ?_, fun _ _ _ _ => ?_⟩ <;> dsimp only [opTapRun]
  with_reducible repeat' first
    | assumption | intro _ | exact VAll.refuse _ _ | exact VAll.refuseAt _ _ _ | refine VAll.done _ _ _ _ ?_
    | refine VAll.doneAs _ _ _ _ _ ?_ | refine VAll.wait _ _ _ ?_ | refine keeps_foldl ?_ ?_ | refine keeps_foldl_fst ?_ ?_
    | refine keeps_foldl_snd ?_ ?_ | refine opt_foldl ?_ ?_ | refine keeps_upTap H ?_ | refine keeps_badParam | split | dsimp only

theorem keeps_execTapRun {P : State → Prop} {h : Hdr} {p : Bytes} {s : State} (H : Keeps P 0x7c47557) (h2 : P s) : ResAll P (execTapRun h p
    s) := by
  have H1 : Keeps P 0x2000 := H.mono rfl
  have H2 : Keeps P 0x6c00557 := H.mono rfl
  unfold execTapRun
  with_reducible repeat' first
    | assumption | intro _ | refine res_next ?_ | refine keeps_opTapRun H1
    | refine res_get ‹_ = Host.Outcome.next _› (keeps_runPkt H2 ?_ ?_) | refine keeps_runPkt H2 ?_ ?_ | refine keeps_tapKick H ?_ | split
    | dsimp only

theorem keeps_opTapBind {P : State → Prop} (H : Keeps P 0x7c47557) : SpecAll P opTapBind := by
  have H1 : Keeps P 0x2000 := H.mono rfl
  refine ⟨fun _ _ _ _ _ => ?_, fun _ _ _ _ => ?_⟩ <;> dsimp only [opTapBind]
  with_reducible repeat' first
    | assumption | intro _ | exact VAll.refuse _ _ | exact VAll.refuseAt _ _ _ | refine VAll.done _ _ _ _ ?_
    | refine VAll.doneAs _ _ _ _ _ ?_ | refine VAll.wait _ _ _ ?_ | refine keeps_upTap H1 ?_ | refine keeps_badParam
    | refine keeps_Verdict_ok ?_ | refine keeps_tapKick H ?_ | split | dsimp only

theorem keeps_execTapBindQueue {P : State → Prop} {h : Hdr} {p : Bytes} {s : State} (H : Keeps P 0x7c47557) (h2 : P s) : ResAll P
    (execTapBindQueue h p s) := by
  have H1 : Keeps P 0x6c00557 := H.mono rfl
  unfold execTapBindQueue
  with_reducible repeat' first
    | assumption | intro _ | refine res_next ?_ | refine keeps_opTapBind H
    | refine res_get ‹_ = Host.Outcome.next _› (keeps_runPkt H1 ?_ ?_) | refine keeps_runPkt H1 ?_ ?_ | split | dsimp only

theorem keeps_opTapUnbind {P : State → Prop} (H : Keeps P 0x2000) : SpecAll P opTapUnbind := by
  refine ⟨fun _ _ _ _ _ => ?_, fun _ _ _ _ => ?_⟩ <;> dsimp only [opTapUnbind]
  with_reducible repeat' first
    | assumption | intro _ | exact VAll.refuse _ _ | exact VAll.refuseAt _ _ _ | refine VAll.done _ _ _ _ ?_
    | refine VAll.doneAs _ _ _ _ _ ?_ | refine VAll.wait _ _ _ ?_ | refine keeps_upTap H ?_ | refine keeps_Verdict_ok ?_
    | refine keeps_badState | refine keeps_upTapQueue H ?_ | split | dsimp only

theorem keeps_execTapUnbindQueue {P : State → Prop} {h : Hdr} {p : Bytes} {s : State} (H : Keeps P 0x6c02557) (h2 : P s) : ResAll P
    (execTapUnbindQueue h p s) := by
  have H1 : Keeps P 0x2000 := H.mono rfl
  have H2 : Keeps P 0x6c00557 := H.mono rfl
  unfold execTapUnbindQueue
  with_reducible repeat' first
    | assumption | intro _ | refine res_next ?_ | refine keeps_opTapUnbind H1
    | refine res_get ‹_ = Host.Outcome.next _› (keeps_runPkt H2 ?_ ?_) | refine keeps_runPkt H2 ?_ ?_ | split | dsimp only

theorem keeps_opTapGetQueue {P : State → Prop} (H : Keeps P 0x2000) : SpecAll P opTapGetQueue := by
  refine ⟨fun _ _ _ _ _ => ?_, fun _ _ _ _ => ?_⟩ <;> dsimp only [opTapGetQueue]
  with_reducible repeat' first
    | assumption | intro _ | exact VAll.refuse _ _ | exact VAll.refuseAt _ _ _ | refine VAll.done _ _ _ _ ?_
    | refine VAll.doneAs _ _ _ _ _ ?_ | refine VAll.wait _ _ _ ?_ | refine keeps_upTapQueue H ?_ | split | dsimp only

theorem keeps_execTapGetQueue {P : State → Prop} {h : Hdr} {p : Bytes} {s : State} (H : Keeps P 0x6c02557) (h2 : P s) : ResAll P
    (execTapGetQueue h p s) := by
  have H1 : Keeps P 0x2000 := H.mono rfl
  have H2 : Keeps P 0x6c00557 := H.mono rfl
  unfold execTapGetQueue
  with_reducible repeat' first
    | assumption | intro _ | refine res_next ?_ | refine keeps_opTapGetQueue H1
    | refine res_get ‹_ = Host.Outcome.next _› (keeps_runPkt H2 ?_ ?_) | refine keeps_runPkt H2 ?_ ?_ | split | dsimp only

theorem keeps_opTapSetPolicy {P : State → Prop} (H : Keeps P 0x2040) : SpecAll P opTapSetPolicy := by
  have H1 : Keeps P 0x2000 := H.mono rfl
  have H2 : Keeps P 0x40 := H.mono rfl
  refine ⟨fun _ _ _ _ _ => ?_, fun _ _ _ _ => ?_⟩ <;> dsimp only [opTapSetPolicy]
  with_reducible repeat' first
    | assumption | intro _ | exact VAll.refuse _ _ | exact VAll.refuseAt _ _ _ | refine VAll.done _ _ _ _ ?_
    | refine VAll.doneAs _ _ _ _ _ ?_ | refine VAll.wait _ _ _ ?_ | refine keeps_applyTapPolicy H1 ?_ | refine keeps_setting H2 ?_ ?_
    | refine opt_ver ‹_ = some _› (keeps_settingStop ?_) | refine keeps_settingStop ?_ | split | dsimp only

theorem keeps_execTapSetPolicy {P : State → Prop} {h : Hdr} {p : Bytes} {s : State} (H : Keeps P 0x6c02557) (h2 : P s) : ResAll P
    (execTapSetPolicy h p s) := by
  have H1 : Keeps P 0x2040 := H.mono rfl
  have H2 : Keeps P 0x6c00557 := H.mono rfl
  unfold execTapSetPolicy
  with_reducible repeat' first
    | assumption | intro _ | refine res_next ?_ | refine keeps_opTapSetPolicy H1
    | refine res_get ‹_ = Host.Outcome.next _› (keeps_runPkt H2 ?_ ?_) | refine keeps_runPkt H2 ?_ ?_ | split | dsimp only

theorem keeps_cmdTap {P : State → Prop} {opcode : Nat} {h : Hdr} {p : Bytes} {s : State} (H : Keeps P 0x7f47557) (h3 : P s) : ResAll P
    (cmdTap opcode h p s) := by
  have H1 : Keeps P 0x6c02557 := H.mono rfl
  have H2 : Keeps P 0x7c47557 := H.mono rfl
  have H3 : Keeps P 0x6f00557 := H.mono rfl
  unfold cmdTap
  with_reducible repeat' first
    | assumption | intro _ | refine res_next ?_ | refine res_get ‹_ = Host.Outcome.next _› (keeps_execTapSetPolicy H1 ?_)
    | refine keeps_execTapSetPolicy H1 ?_ | refine res_get ‹_ = Host.Outcome.next _› (keeps_execTapGetQueue H1 ?_)
    | refine keeps_execTapGetQueue H1 ?_ | refine res_get ‹_ = Host.Outcome.next _› (keeps_execTapUnbindQueue H1 ?_)
    | refine keeps_execTapUnbindQueue H1 ?_ | refine res_get ‹_ = Host.Outcome.next _› (keeps_execTapBindQueue H2 ?_)
    | refine keeps_execTapBindQueue H2 ?_ | refine res_get ‹_ = Host.Outcome.next _› (keeps_execTapRun H2 ?_)
    | refine keeps_execTapRun H2 ?_ | refine res_get ‹_ = Host.Outcome.next _› (keeps_execTapUnloadProgram H1 ?_)
    | refine keeps_execTapUnloadProgram H1 ?_ | refine res_get ‹_ = Host.Outcome.next _› (keeps_execTapLoadProgram H1 ?_)
    | refine keeps_execTapLoadProgram H1 ?_ | refine res_get ‹_ = Host.Outcome.next _› (keeps_execOther H3 ?_)
    | refine keeps_execOther H3 ?_ | split | dsimp only

theorem keeps_shuPlace {P : State → Prop} {s : State} {n : Nat} (H : Keeps P 0x1000) (h0 : P s) : P (State.shuPlace s n) := by
  unfold State.shuPlace
  with_reducible repeat' first
    | assumption | intro _ | refine keeps_foldl ?_ ?_ | refine keeps_placeTrack H ?_ | split | dsimp only

theorem keeps_opShuOpenStream {P : State → Prop} (H : Keeps P 0x4c01511) : SpecAll P opShuOpenStream := by
  have H1 : Keeps P 0x1000 := H.mono rfl
  have H2 : Keeps P 0x4c00511 := H.mono rfl
  refine ⟨fun _ _ _ _ _ => ?_, fun _ _ _ _ => ?_⟩ <;> dsimp only [opShuOpenStream]
  with_reducible repeat' first
    | assumption | intro _ | exact VAll.refuse _ _ | exact VAll.refuseAt _ _ _ | refine VAll.done _ _ _ _ ?_
    | refine VAll.doneAs _ _ _ _ _ ?_ | refine VAll.wait _ _ _ ?_ | refine keeps_upShu H1 ?_ | refine keeps_shuPlace H1 ?_
    | refine opt_get2 ‹_ = some (_, _)› (keeps_ctxTake H2 ?_) | refine keeps_ctxTake H2 ?_ | refine keeps_badParam
    | refine keeps_noResource | split | dsimp only

end Sys2Proof.Laws
end

