-- ==== Sys2Proof/Laws/Keeps3.lean ====
section
/-!
SUPPORT. What every operation keeps, part 3 of 5.
-/
set_option linter.all false

namespace Sys2Proof.Laws

open Sys2Proof Sys2Proof.Machine Sys2Proof.Safety

theorem keeps_execShuOpenStream {P : State → Prop} {h : Hdr} {p : Bytes} {s : State} (H : Keeps P 0x6c01557) (h2 : P s) : ResAll P
    (execShuOpenStream h p s) := by
  have H1 : Keeps P 0x4c01511 := H.mono rfl
  have H2 : Keeps P 0x6c00557 := H.mono rfl
  unfold execShuOpenStream
  with_reducible repeat' first
    | assumption | intro _ | refine res_next ?_ | refine keeps_opShuOpenStream H1
    | refine res_get ‹_ = Host.Outcome.next _› (keeps_runPkt H2 ?_ ?_) | refine keeps_runPkt H2 ?_ ?_ | split | dsimp only

theorem keeps_onStream {P : State → Prop} {s : State} {p : Bytes} {f : Nat → Stream → Verdict} (h0 : P s) (h2 : ∀ y1 y2, VAll P (f y1 y2)) :
    VAll P (State.onStream s p f) := by
  unfold State.onStream
  with_reducible repeat' first
    | assumption | intro _ | refine h2 _ _ | exact VAll.refuse _ _ | exact VAll.refuseAt _ _ _ | refine VAll.done _ _ _ _ ?_
    | refine VAll.doneAs _ _ _ _ _ ?_ | refine VAll.wait _ _ _ ?_ | split | dsimp only

theorem keeps_queueLeave {P : State → Prop} {s : State} {n : Nat} (H : Keeps P 0x2000) (h0 : P s) : P (State.queueLeave s n) := by
  unfold State.queueLeave
  with_reducible repeat' first
    | assumption | intro _ | refine keeps_foldl ?_ ?_ | refine keeps_queueDrop H ?_ | refine keeps_upTapQueue H ?_ | split | dsimp only

theorem keeps_opShuCloseStream {P : State → Prop} (H : Keeps P 0x7c475d7) : SpecAll P opShuCloseStream := by
  have H1 : Keeps P 0x2000 := H.mono rfl
  have H2 : Keeps P 0x1480 := H.mono rfl
  have H3 : Keeps P 0x7c47557 := H.mono rfl
  refine ⟨fun _ _ _ _ _ => ?_, fun _ _ _ _ => ?_⟩ <;> dsimp only [opShuCloseStream]
  with_reducible repeat' first
    | assumption | intro _ | exact VAll.refuse _ _ | exact VAll.refuseAt _ _ _ | refine VAll.done _ _ _ _ ?_
    | refine VAll.doneAs _ _ _ _ _ ?_ | refine VAll.wait _ _ _ ?_ | refine keeps_queueLeave H1 ?_ | refine keeps_onStream ?_ ?_
    | refine keeps_Verdict_ok ?_ | refine keeps_shuClose H2 ?_ | refine keeps_tapKick H3 ?_ | split | dsimp only

theorem keeps_execShuCloseStream {P : State → Prop} {h : Hdr} {p : Bytes} {s : State} (H : Keeps P 0x7c475d7) (h2 : P s) : ResAll P
    (execShuCloseStream h p s) := by
  have H1 : Keeps P 0x6c00557 := H.mono rfl
  unfold execShuCloseStream
  with_reducible repeat' first
    | assumption | intro _ | refine res_next ?_ | refine keeps_opShuCloseStream H
    | refine res_get ‹_ = Host.Outcome.next _› (keeps_runPkt H1 ?_ ?_) | refine keeps_runPkt H1 ?_ ?_ | split | dsimp only

theorem keeps_opShuFeed {P : State → Prop} (H : Keeps P 0x7c47557) : SpecAll P opShuFeed := by
  have H1 : Keeps P 0x7c41517 := H.mono rfl
  have H2 : Keeps P 0x7c43117 := H.mono rfl
  have H3 : Keeps P 0x1000 := H.mono rfl
  refine ⟨fun _ _ _ _ _ => ?_, fun _ _ _ _ => ?_⟩ <;> dsimp only [opShuFeed]
  with_reducible repeat' first
    | assumption | intro _ | exact VAll.refuse _ _ | exact VAll.refuseAt _ _ _ | refine VAll.done _ _ _ _ ?_
    | refine VAll.doneAs _ _ _ _ _ ?_ | refine VAll.wait _ _ _ ?_ | refine keeps_onStream ?_ ?_ | refine keeps_shuEnter H1 ?_
    | refine keeps_Verdict_ok ?_ | refine keeps_badState | refine keeps_tapKick H ?_ | refine keeps_shuFinish H2 ?_
    | refine keeps_upStreamX H3 ?_ | split | dsimp only

theorem keeps_execShuFeed {P : State → Prop} {h : Hdr} {p : Bytes} {s : State} (H : Keeps P 0x7c47557) (h2 : P s) : ResAll P (execShuFeed h
    p s) := by
  have H1 : Keeps P 0x6c00557 := H.mono rfl
  unfold execShuFeed
  with_reducible repeat' first
    | assumption | intro _ | refine res_next ?_ | refine keeps_opShuFeed H
    | refine res_get ‹_ = Host.Outcome.next _› (keeps_runPkt H1 ?_ ?_) | refine keeps_runPkt H1 ?_ ?_ | split | dsimp only

theorem keeps_opShuGetStream {P : State → Prop} (H : Keeps P 0x4800001) : SpecAll P opShuGetStream := by
  refine ⟨fun _ _ _ _ _ => ?_, fun _ _ _ _ => ?_⟩ <;> dsimp only [opShuGetStream]
  with_reducible repeat' first
    | assumption | intro _ | exact VAll.refuse _ _ | exact VAll.refuseAt _ _ _ | refine VAll.done _ _ _ _ ?_
    | refine VAll.doneAs _ _ _ _ _ ?_ | refine VAll.wait _ _ _ ?_ | refine keeps_onStream ?_ ?_ | refine keeps_hostWrite H ?_ | split
    | dsimp only

theorem keeps_execShuGetStream {P : State → Prop} {h : Hdr} {p : Bytes} {s : State} (H : Keeps P 0x6c00557) (h2 : P s) : ResAll P
    (execShuGetStream h p s) := by
  have H1 : Keeps P 0x4800001 := H.mono rfl
  unfold execShuGetStream
  with_reducible repeat' first
    | assumption | intro _ | refine res_next ?_ | refine keeps_opShuGetStream H1
    | refine res_get ‹_ = Host.Outcome.next _› (keeps_runPkt H ?_ ?_) | refine keeps_runPkt H ?_ ?_ | split | dsimp only

theorem keeps_opShuSetPolicy {P : State → Prop} (H : Keeps P 0x1000) : SpecAll P opShuSetPolicy := by
  refine ⟨fun _ _ _ _ _ => ?_, fun _ _ _ _ => ?_⟩ <;> dsimp only [opShuSetPolicy]
  with_reducible repeat' first
    | assumption | intro _ | exact VAll.refuse _ _ | exact VAll.refuseAt _ _ _ | refine VAll.done _ _ _ _ ?_
    | refine VAll.doneAs _ _ _ _ _ ?_ | refine VAll.wait _ _ _ ?_ | refine keeps_onStream ?_ ?_ | refine keeps_Verdict_ok ?_
    | refine keeps_upStreamX H ?_ | split | dsimp only

theorem keeps_execShuSetPolicy {P : State → Prop} {h : Hdr} {p : Bytes} {s : State} (H : Keeps P 0x6c01557) (h2 : P s) : ResAll P
    (execShuSetPolicy h p s) := by
  have H1 : Keeps P 0x1000 := H.mono rfl
  have H2 : Keeps P 0x6c00557 := H.mono rfl
  unfold execShuSetPolicy
  with_reducible repeat' first
    | assumption | intro _ | refine res_next ?_ | refine keeps_opShuSetPolicy H1
    | refine res_get ‹_ = Host.Outcome.next _› (keeps_runPkt H2 ?_ ?_) | refine keeps_runPkt H2 ?_ ?_ | split | dsimp only

theorem keeps_shuReturn {P : State → Prop} {s : State} {n : Nat} {b : Nat} (H : Keeps P 0x7c43117) (h0 : P s) : P (State.shuReturn s n b) :=
    by
  have H1 : Keeps P 0x1000 := H.mono rfl
  unfold State.shuReturn
  with_reducible repeat' first
    | assumption | intro _ | refine keeps_shuFinish H ?_ | refine keeps_upStream H1 ?_ | split | dsimp only

theorem keeps_opShuReturnOutput {P : State → Prop} (H : Keeps P 0x7c47557) : SpecAll P opShuReturnOutput := by
  have H1 : Keeps P 0x7c43117 := H.mono rfl
  refine ⟨fun _ _ _ _ _ => ?_, fun _ _ _ _ => ?_⟩ <;> dsimp only [opShuReturnOutput]
  with_reducible repeat' first
    | assumption | intro _ | exact VAll.refuse _ _ | exact VAll.refuseAt _ _ _ | refine VAll.done _ _ _ _ ?_
    | refine VAll.doneAs _ _ _ _ _ ?_ | refine VAll.wait _ _ _ ?_ | refine keeps_shuReturn H1 ?_ | refine keeps_onStream ?_ ?_
    | refine keeps_badParam | refine keeps_Verdict_ok ?_ | refine keeps_tapKick H ?_ | split | dsimp only

theorem keeps_execShuReturnOutput {P : State → Prop} {h : Hdr} {p : Bytes} {s : State} (H : Keeps P 0x7c47557) (h2 : P s) : ResAll P
    (execShuReturnOutput h p s) := by
  have H1 : Keeps P 0x6c00557 := H.mono rfl
  unfold execShuReturnOutput
  with_reducible repeat' first
    | assumption | intro _ | refine res_next ?_ | refine keeps_opShuReturnOutput H
    | refine res_get ‹_ = Host.Outcome.next _› (keeps_runPkt H1 ?_ ?_) | refine keeps_runPkt H1 ?_ ?_ | split | dsimp only

theorem keeps_opShuSetMel {P : State → Prop} (H : Keeps P 0x1040) : SpecAll P opShuSetMel := by
  have H1 : Keeps P 0x1000 := H.mono rfl
  have H2 : Keeps P 0x40 := H.mono rfl
  refine ⟨fun _ _ _ _ _ => ?_, fun _ _ _ _ => ?_⟩ <;> dsimp only [opShuSetMel]
  with_reducible repeat' first
    | assumption | intro _ | exact VAll.refuse _ _ | exact VAll.refuseAt _ _ _ | refine VAll.done _ _ _ _ ?_
    | refine VAll.doneAs _ _ _ _ _ ?_ | refine VAll.wait _ _ _ ?_ | refine keeps_applyMel H1 ?_ | refine keeps_setting H2 ?_ ?_
    | refine opt_ver ‹_ = some _› (keeps_settingStop ?_) | refine keeps_settingStop ?_ | split | dsimp only

theorem keeps_execShuSetMel {P : State → Prop} {h : Hdr} {p : Bytes} {s : State} (H : Keeps P 0x6c01557) (h2 : P s) : ResAll P
    (execShuSetMel h p s) := by
  have H1 : Keeps P 0x1040 := H.mono rfl
  have H2 : Keeps P 0x6c00557 := H.mono rfl
  unfold execShuSetMel
  with_reducible repeat' first
    | assumption | intro _ | refine res_next ?_ | refine keeps_opShuSetMel H1
    | refine res_get ‹_ = Host.Outcome.next _› (keeps_runPkt H2 ?_ ?_) | refine keeps_runPkt H2 ?_ ?_ | split | dsimp only

theorem keeps_cmdShu {P : State → Prop} {opcode : Nat} {h : Hdr} {p : Bytes} {s : State} (H : Keeps P 0x7f475d7) (h3 : P s) : ResAll P
    (cmdShu opcode h p s) := by
  have H1 : Keeps P 0x6c01557 := H.mono rfl
  have H2 : Keeps P 0x7c47557 := H.mono rfl
  have H3 : Keeps P 0x6c00557 := H.mono rfl
  have H4 : Keeps P 0x7c475d7 := H.mono rfl
  have H5 : Keeps P 0x6f00557 := H.mono rfl
  unfold cmdShu
  with_reducible repeat' first
    | assumption | intro _ | refine res_next ?_ | refine res_get ‹_ = Host.Outcome.next _› (keeps_execShuSetMel H1 ?_)
    | refine keeps_execShuSetMel H1 ?_ | refine res_get ‹_ = Host.Outcome.next _› (keeps_execShuReturnOutput H2 ?_)
    | refine keeps_execShuReturnOutput H2 ?_ | refine res_get ‹_ = Host.Outcome.next _› (keeps_execShuSetPolicy H1 ?_)
    | refine keeps_execShuSetPolicy H1 ?_ | refine res_get ‹_ = Host.Outcome.next _› (keeps_execShuGetStream H3 ?_)
    | refine keeps_execShuGetStream H3 ?_ | refine res_get ‹_ = Host.Outcome.next _› (keeps_execShuFeed H2 ?_)
    | refine keeps_execShuFeed H2 ?_ | refine res_get ‹_ = Host.Outcome.next _› (keeps_execShuCloseStream H4 ?_)
    | refine keeps_execShuCloseStream H4 ?_ | refine res_get ‹_ = Host.Outcome.next _› (keeps_execShuOpenStream H1 ?_)
    | refine keeps_execShuOpenStream H1 ?_ | refine res_get ‹_ = Host.Outcome.next _› (keeps_execOther H5 ?_)
    | refine keeps_execOther H5 ?_ | split | dsimp only

theorem keeps_opLoomOpenJob {P : State → Prop} (H : Keeps P 0x8000) : SpecAll P opLoomOpenJob := by
  refine ⟨fun _ _ _ _ _ => ?_, fun _ _ _ _ => ?_⟩ <;> dsimp only [opLoomOpenJob]
  with_reducible repeat' first
    | assumption | intro _ | exact VAll.refuse _ _ | exact VAll.refuseAt _ _ _ | refine VAll.done _ _ _ _ ?_
    | refine VAll.doneAs _ _ _ _ _ ?_ | refine VAll.wait _ _ _ ?_ | refine keeps_upLoom H ?_ | refine keeps_badParam
    | refine keeps_noResource | split | dsimp only

theorem keeps_execLoomOpenJob {P : State → Prop} {h : Hdr} {p : Bytes} {s : State} (H : Keeps P 0x6c08557) (h2 : P s) : ResAll P
    (execLoomOpenJob h p s) := by
  have H1 : Keeps P 0x8000 := H.mono rfl
  have H2 : Keeps P 0x6c00557 := H.mono rfl
  unfold execLoomOpenJob
  with_reducible repeat' first
    | assumption | intro _ | refine res_next ?_ | refine keeps_opLoomOpenJob H1
    | refine res_get ‹_ = Host.Outcome.next _› (keeps_runPkt H2 ?_ ?_) | refine keeps_runPkt H2 ?_ ?_ | split | dsimp only

theorem keeps_onJob {P : State → Prop} {s : State} {p : Bytes} {f : Nat → Job → Verdict} (h0 : P s) (h2 : ∀ y1 y2, VAll P (f y1 y2)) : VAll
    P (State.onJob s p f) := by
  unfold State.onJob
  with_reducible repeat' first
    | assumption | intro _ | refine h2 _ _ | exact VAll.refuse _ _ | exact VAll.refuseAt _ _ _ | refine VAll.done _ _ _ _ ?_
    | refine VAll.doneAs _ _ _ _ _ ?_ | refine VAll.wait _ _ _ ?_ | split | dsimp only

theorem keeps_opLoomCloseJob {P : State → Prop} (H : Keeps P 0x7c5f5f7) : SpecAll P opLoomCloseJob := by
  refine ⟨fun _ _ _ _ _ => ?_, fun _ _ _ _ => ?_⟩ <;> dsimp only [opLoomCloseJob]
  with_reducible repeat' first
    | assumption | intro _ | exact VAll.refuse _ _ | exact VAll.refuseAt _ _ _ | refine VAll.done _ _ _ _ ?_
    | refine VAll.doneAs _ _ _ _ _ ?_ | refine VAll.wait _ _ _ ?_ | refine keeps_onJob ?_ ?_ | refine keeps_Verdict_ok ?_
    | refine keeps_loomClose H ?_ | split | dsimp only

theorem keeps_execLoomCloseJob {P : State → Prop} {h : Hdr} {p : Bytes} {s : State} (H : Keeps P 0x7c5f5f7) (h2 : P s) : ResAll P
    (execLoomCloseJob h p s) := by
  have H1 : Keeps P 0x6c00557 := H.mono rfl
  unfold execLoomCloseJob
  with_reducible repeat' first
    | assumption | intro _ | refine res_next ?_ | refine keeps_opLoomCloseJob H
    | refine res_get ‹_ = Host.Outcome.next _› (keeps_runPkt H1 ?_ ?_) | refine keeps_runPkt H1 ?_ ?_ | split | dsimp only

theorem keeps_loomSetting {P : State → Prop} {s : State} {opcode : Nat} {c : Caller} {h : Hdr} {p : Bytes} {same : Staged → Bool} {started :
    Bool} {result : Nat} {apply : State → State} (H : Keeps P 0x40) (h0 : P s) (h8 : ∀ y1, P y1 → P (apply y1)) : VAll P (State.loomSetting
    s opcode c h p same started result apply) := by
  unfold State.loomSetting
  with_reducible repeat' first
    | assumption | intro _ | refine h8 _ ?_ | exact VAll.refuse _ _ | exact VAll.refuseAt _ _ _ | refine VAll.done _ _ _ _ ?_
    | refine VAll.doneAs _ _ _ _ _ ?_ | refine VAll.wait _ _ _ ?_ | refine keeps_setting H ?_ ?_
    | refine opt_ver ‹_ = some _› (keeps_settingStop ?_) | refine keeps_settingStop ?_ | split | dsimp only

theorem keeps_opLoomAddWarp {P : State → Prop} (H : Keeps P 0x4c08557) : SpecAll P opLoomAddWarp := by
  have H1 : Keeps P 0x40 := H.mono rfl
  have H2 : Keeps P 0x4c08517 := H.mono rfl
  refine ⟨fun _ _ _ _ _ => ?_, fun _ _ _ _ => ?_⟩ <;> dsimp only [opLoomAddWarp]
  with_reducible repeat' first
    | assumption | intro _ | exact VAll.refuse _ _ | exact VAll.refuseAt _ _ _ | refine VAll.done _ _ _ _ ?_
    | refine VAll.doneAs _ _ _ _ _ ?_ | refine VAll.wait _ _ _ ?_ | refine ver_getD ?_ ?_ | refine keeps_loomSetting H1 ?_ ?_
    | refine keeps_onJob ?_ ?_ | refine keeps_applyAddWarp H2 ?_ | refine opt_ver ‹_ = some _› (keeps_settingStop ?_)
    | refine keeps_settingStop ?_ | refine keeps_badParam | refine keeps_noResource | refine keeps_badState | split | dsimp only

theorem keeps_execLoomAddWarp {P : State → Prop} {h : Hdr} {p : Bytes} {s : State} (H : Keeps P 0x6c08557) (h2 : P s) : ResAll P
    (execLoomAddWarp h p s) := by
  have H1 : Keeps P 0x4c08557 := H.mono rfl
  have H2 : Keeps P 0x6c00557 := H.mono rfl
  unfold execLoomAddWarp
  with_reducible repeat' first
    | assumption | intro _ | refine res_next ?_ | refine keeps_opLoomAddWarp H1
    | refine res_get ‹_ = Host.Outcome.next _› (keeps_runPkt H2 ?_ ?_) | refine keeps_runPkt H2 ?_ ?_ | split | dsimp only

theorem keeps_opLoomSetLayout {P : State → Prop} (H : Keeps P 0x4c18557) : SpecAll P opLoomSetLayout := by
  have H1 : Keeps P 0x40 := H.mono rfl
  have H2 : Keeps P 0x4c18517 := H.mono rfl
  refine ⟨fun _ _ _ _ _ => ?_, fun _ _ _ _ => ?_⟩ <;> dsimp only [opLoomSetLayout]
  with_reducible repeat' first
    | assumption | intro _ | exact VAll.refuse _ _ | exact VAll.refuseAt _ _ _ | refine VAll.done _ _ _ _ ?_
    | refine VAll.doneAs _ _ _ _ _ ?_ | refine VAll.wait _ _ _ ?_ | refine ver_getD ?_ ?_ | refine keeps_loomSetting H1 ?_ ?_
    | refine keeps_onJob ?_ ?_ | refine keeps_applyLayout H2 ?_ | refine opt_ver ‹_ = some _› (keeps_settingStop ?_)
    | refine keeps_settingStop ?_ | refine keeps_badState | split | dsimp only

theorem keeps_execLoomSetLayout {P : State → Prop} {h : Hdr} {p : Bytes} {s : State} (H : Keeps P 0x6c18557) (h2 : P s) : ResAll P
    (execLoomSetLayout h p s) := by
  have H1 : Keeps P 0x4c18557 := H.mono rfl
  have H2 : Keeps P 0x6c00557 := H.mono rfl
  unfold execLoomSetLayout
  with_reducible repeat' first
    | assumption | intro _ | refine res_next ?_ | refine keeps_opLoomSetLayout H1
    | refine res_get ‹_ = Host.Outcome.next _› (keeps_runPkt H2 ?_ ?_) | refine keeps_runPkt H2 ?_ ?_ | split | dsimp only

theorem keeps_ctxTakeN {P : State → Prop} {s : State} {kind : Nat} {a : Nat} (H : Keeps P 0x4c00511) (h0 : P s) : OptAll (fun x => P x.2)
    (State.ctxTakeN s kind a) := by
  induction a generalizing s kind with
  | zero =>
    unfold State.ctxTakeN
    with_reducible repeat' first
      | assumption | intro _ | exact opt_none | refine opt_some ?_ | refine opt_get2 ‹_ = some (_, _)› (keeps_ctxTake H ?_)
      | refine keeps_ctxTake H ?_ | split | dsimp only
  | succ _ ih =>
    unfold State.ctxTakeN
    with_reducible repeat' first
      | assumption | intro _ | refine opt_get2 ‹_ = some (_, _)› (ih ?_) | refine ih ?_ | exact opt_none | refine opt_some ?_
      | refine opt_get2 ‹_ = some (_, _)› (keeps_ctxTake H ?_) | refine keeps_ctxTake H ?_ | split | dsimp only

theorem keeps_qpAlloc {P : State → Prop} {s : State} {q : Qp} {sprayed : Bool} {pin : Bool} (H : Keeps P 0x4c00511) (h0 : P s) : OptAll (fun
    x => P x.2) (State.qpAlloc s q sprayed pin) := by
  have H1 : Keeps P 0x100 := H.mono rfl
  have H2 : Keeps P 0x400 := H.mono rfl
  unfold State.qpAlloc
  with_reducible repeat' first
    | assumption | intro _ | exact opt_none | refine opt_some ?_ | refine opt_ite ?_ ?_ | refine keeps_upNet H1 ?_
    | refine keeps_upCtx H2 ?_ | refine opt_get2 ‹_ = some (_, _)› (keeps_ctxTakeN H ?_) | refine keeps_ctxTakeN H ?_ | split | dsimp only

theorem keeps_xJoin {P : State → Prop} {s : State} {h : Nat} {j : Job} {rank : Nat} (H : Keeps P 0x4c08513) (h0 : P s) : OptAll P
    (State.xJoin s h j rank) := by
  have H1 : Keeps P 0x4c00511 := H.mono rfl
  have H2 : Keeps P 0x100 := H.mono rfl
  have H3 : Keeps P 0x8000 := H.mono rfl
  have H4 : Keeps P 0x2 := H.mono rfl
  unfold State.xJoin
  with_reducible repeat' first
    | assumption | intro _ | exact opt_none | refine opt_some ?_ | refine opt_get2 ‹_ = some (_, _)› (keeps_qpAlloc H1 ?_)
    | refine keeps_qpAlloc H1 ?_ | refine opt_get2 ‹_ = some (_, _)› (keeps_regionAdd H2 ?_) | refine keeps_regionAdd H2 ?_
    | refine keeps_upJobX H3 ?_ | refine keeps_spent H4 ?_ | split | dsimp only

theorem keeps_xOpen {P : State → Prop} {s : State} {h : Nat} {j : Job} (H : Keeps P 0x4c08513) (h0 : P s) : OptAll P (State.xOpen s h j) :=
    by
  have H1 : Keeps P 0x100 := H.mono rfl
  have H2 : Keeps P 0x8000 := H.mono rfl
  unfold State.xOpen
  with_reducible repeat' first
    | assumption | intro _ | exact opt_none | refine opt_some ?_ | refine opt_bindS ?_ ?_ | refine opt_bind ?_ | refine opt_ite ?_ ?_
    | refine keeps_foldl ?_ ?_ | refine keeps_foldl_fst ?_ ?_ | refine keeps_foldl_snd ?_ ?_ | refine opt_foldl ?_ ?_
    | refine opt_get ‹_ = some _› (keeps_xJoin H ?_) | refine keeps_xJoin H ?_ | refine opt_get2 ‹_ = some (_, _)› (keeps_regionAdd H1 ?_)
    | refine keeps_regionAdd H1 ?_ | refine keeps_upJobX H2 ?_ | split | dsimp only

theorem keeps_judgeLeads {P : State → Prop} {s : State} {l : List CueLead} (H : Keeps P 0x4400131) (h0 : P s) : P (State.judgeLeads s l) :=
    by
  have H1 : Keeps P 0x20 := H.mono rfl
  have H2 : Keeps P 0x4400111 := H.mono rfl
  unfold State.judgeLeads
  with_reducible repeat' first
    | assumption | intro _ | refine keeps_upCue H1 ?_ | refine keeps_flag H2 ?_ ?_ | split | dsimp only

theorem keeps_loomBegin {P : State → Prop} {s : State} {h : Nat} {j : Job} (H : Keeps P 0x4418131) (h0 : P s) : P (State.loomBegin s h j) :=
    by
  have H1 : Keeps P 0x20 := H.mono rfl
  have H2 : Keeps P 0x4400131 := H.mono rfl
  have H3 : Keeps P 0x10000 := H.mono rfl
  have H4 : Keeps P 0x8000 := H.mono rfl
  unfold State.loomBegin
  with_reducible repeat' first
    | assumption | intro _ | refine keeps_foldl ?_ ?_ | refine keeps_upCue H1 ?_ | refine keeps_judgeLeads H2 ?_
    | refine keeps_bindRings H3 ?_ | refine keeps_upJob H4 ?_ | split | dsimp only

theorem keeps_opLoomStart {P : State → Prop} (H : Keeps P 0x4c18533) : SpecAll P opLoomStart := by
  have H1 : Keeps P 0x4418131 := H.mono rfl
  have H2 : Keeps P 0x4c08513 := H.mono rfl
  refine ⟨fun _ _ _ _ _ => ?_, fun _ _ _ _ => ?_⟩ <;> dsimp only [opLoomStart]
  with_reducible repeat' first
    | assumption | intro _ | exact VAll.refuse _ _ | exact VAll.refuseAt _ _ _ | refine VAll.done _ _ _ _ ?_
    | refine VAll.doneAs _ _ _ _ _ ?_ | refine VAll.wait _ _ _ ?_ | refine keeps_loomBegin H1 ?_
    | refine opt_get ‹_ = some _› (keeps_xOpen H2 ?_) | refine keeps_xOpen H2 ?_ | refine keeps_onJob ?_ ?_ | refine keeps_Verdict_ok ?_
    | refine keeps_noResource | refine keeps_badState | split | dsimp only

theorem keeps_execLoomStart {P : State → Prop} {h : Hdr} {p : Bytes} {s : State} (H : Keeps P 0x6c18577) (h2 : P s) : ResAll P
    (execLoomStart h p s) := by
  have H1 : Keeps P 0x4c18533 := H.mono rfl
  have H2 : Keeps P 0x6c00557 := H.mono rfl
  unfold execLoomStart
  with_reducible repeat' first
    | assumption | intro _ | refine res_next ?_ | refine keeps_opLoomStart H1
    | refine res_get ‹_ = Host.Outcome.next _› (keeps_runPkt H2 ?_ ?_) | refine keeps_runPkt H2 ?_ ?_ | split | dsimp only

theorem keeps_opLoomGetCursor {P : State → Prop} (H : Keeps P 0x4800001) : SpecAll P opLoomGetCursor := by
  refine ⟨fun _ _ _ _ _ => ?_, fun _ _ _ _ => ?_⟩ <;> dsimp only [opLoomGetCursor]
  with_reducible repeat' first
    | assumption | intro _ | exact VAll.refuse _ _ | exact VAll.refuseAt _ _ _ | refine VAll.done _ _ _ _ ?_
    | refine VAll.doneAs _ _ _ _ _ ?_ | refine VAll.wait _ _ _ ?_ | refine keeps_onJob ?_ ?_ | refine keeps_Verdict_ok ?_
    | refine keeps_hostWrite H ?_ | split | dsimp only

theorem keeps_execLoomGetCursor {P : State → Prop} {h : Hdr} {p : Bytes} {s : State} (H : Keeps P 0x6c00557) (h2 : P s) : ResAll P
    (execLoomGetCursor h p s) := by
  have H1 : Keeps P 0x4800001 := H.mono rfl
  unfold execLoomGetCursor
  with_reducible repeat' first
    | assumption | intro _ | refine res_next ?_ | refine keeps_opLoomGetCursor H1
    | refine res_get ‹_ = Host.Outcome.next _› (keeps_runPkt H ?_ ?_) | refine keeps_runPkt H ?_ ?_ | split | dsimp only

theorem keeps_opLoomSetCursor {P : State → Prop} (H : Keeps P 0x4c08557) : SpecAll P opLoomSetCursor := by
  have H1 : Keeps P 0x4c08517 := H.mono rfl
  have H2 : Keeps P 0x40 := H.mono rfl
  refine ⟨fun _ _ _ _ _ => ?_, fun _ _ _ _ => ?_⟩ <;> dsimp only [opLoomSetCursor]
  with_reducible repeat' first
    | assumption | intro _ | exact VAll.refuse _ _ | exact VAll.refuseAt _ _ _ | refine VAll.done _ _ _ _ ?_
    | refine VAll.doneAs _ _ _ _ _ ?_ | refine VAll.wait _ _ _ ?_ | refine keeps_onJob ?_ ?_ | refine keeps_applyCursor H1 ?_
    | refine keeps_setting H2 ?_ ?_ | refine opt_ver ‹_ = some _› (keeps_settingStop ?_) | refine keeps_settingStop ?_ | split | dsimp only

theorem keeps_execLoomSetCursor {P : State → Prop} {h : Hdr} {p : Bytes} {s : State} (H : Keeps P 0x6c08557) (h2 : P s) : ResAll P
    (execLoomSetCursor h p s) := by
  have H1 : Keeps P 0x4c08557 := H.mono rfl
  have H2 : Keeps P 0x6c00557 := H.mono rfl
  unfold execLoomSetCursor
  with_reducible repeat' first
    | assumption | intro _ | refine res_next ?_ | refine keeps_opLoomSetCursor H1
    | refine res_get ‹_ = Host.Outcome.next _› (keeps_runPkt H2 ?_ ?_) | refine keeps_runPkt H2 ?_ ?_ | split | dsimp only

theorem keeps_opLoomGetOrder {P : State → Prop} (H : Keeps P 0x4800001) : SpecAll P opLoomGetOrder := by
  refine ⟨fun _ _ _ _ _ => ?_, fun _ _ _ _ => ?_⟩ <;> dsimp only [opLoomGetOrder]
  with_reducible repeat' first
    | assumption | intro _ | exact VAll.refuse _ _ | exact VAll.refuseAt _ _ _ | refine VAll.done _ _ _ _ ?_
    | refine VAll.doneAs _ _ _ _ _ ?_ | refine VAll.wait _ _ _ ?_ | refine keeps_onJob ?_ ?_ | refine keeps_badParam
    | refine keeps_Verdict_ok ?_ | refine keeps_hostWrite H ?_ | split | dsimp only

theorem keeps_execLoomGetOrder {P : State → Prop} {h : Hdr} {p : Bytes} {s : State} (H : Keeps P 0x6c00557) (h2 : P s) : ResAll P
    (execLoomGetOrder h p s) := by
  have H1 : Keeps P 0x4800001 := H.mono rfl
  unfold execLoomGetOrder
  with_reducible repeat' first
    | assumption | intro _ | refine res_next ?_ | refine keeps_opLoomGetOrder H1
    | refine res_get ‹_ = Host.Outcome.next _› (keeps_runPkt H ?_ ?_) | refine keeps_runPkt H ?_ ?_ | split | dsimp only

theorem keeps_opLoomGetJob {P : State → Prop} : SpecAll P opLoomGetJob := by
  refine ⟨fun _ _ _ _ _ => ?_, fun _ _ _ _ => ?_⟩ <;> dsimp only [opLoomGetJob]
  with_reducible repeat' first
    | assumption | intro _ | exact VAll.refuse _ _ | exact VAll.refuseAt _ _ _ | refine VAll.done _ _ _ _ ?_
    | refine VAll.doneAs _ _ _ _ _ ?_ | refine VAll.wait _ _ _ ?_ | refine keeps_onJob ?_ ?_ | split | dsimp only

theorem keeps_execLoomGetJob {P : State → Prop} {h : Hdr} {p : Bytes} {s : State} (H : Keeps P 0x6c00557) (h2 : P s) : ResAll P
    (execLoomGetJob h p s) := by
  unfold execLoomGetJob
  with_reducible repeat' first
    | assumption | intro _ | refine res_next ?_ | refine keeps_opLoomGetJob
    | refine res_get ‹_ = Host.Outcome.next _› (keeps_runPkt H ?_ ?_) | refine keeps_runPkt H ?_ ?_ | split | dsimp only

theorem keeps_opLoomSetShare {P : State → Prop} (H : Keeps P 0x4c08557) : SpecAll P opLoomSetShare := by
  have H1 : Keeps P 0x40 := H.mono rfl
  have H2 : Keeps P 0x4c08517 := H.mono rfl
  refine ⟨fun _ _ _ _ _ => ?_, fun _ _ _ _ => ?_⟩ <;> dsimp only [opLoomSetShare]
  with_reducible repeat' first
    | assumption | intro _ | exact VAll.refuse _ _ | exact VAll.refuseAt _ _ _ | refine VAll.done _ _ _ _ ?_
    | refine VAll.doneAs _ _ _ _ _ ?_ | refine VAll.wait _ _ _ ?_ | refine ver_getD ?_ ?_ | refine keeps_loomSetting H1 ?_ ?_
    | refine keeps_onJob ?_ ?_ | refine keeps_applyShare H2 ?_ | refine opt_ver ‹_ = some _› (keeps_settingStop ?_)
    | refine keeps_settingStop ?_ | refine keeps_badParam | refine keeps_badState | split | dsimp only

theorem keeps_execLoomSetShare {P : State → Prop} {h : Hdr} {p : Bytes} {s : State} (H : Keeps P 0x6c08557) (h2 : P s) : ResAll P
    (execLoomSetShare h p s) := by
  have H1 : Keeps P 0x4c08557 := H.mono rfl
  have H2 : Keeps P 0x6c00557 := H.mono rfl
  unfold execLoomSetShare
  with_reducible repeat' first
    | assumption | intro _ | refine res_next ?_ | refine keeps_opLoomSetShare H1
    | refine res_get ‹_ = Host.Outcome.next _› (keeps_runPkt H2 ?_ ?_) | refine keeps_runPkt H2 ?_ ?_ | split | dsimp only

theorem keeps_cmdLoom {P : State → Prop} {opcode : Nat} {h : Hdr} {p : Bytes} {s : State} (H : Keeps P 0x7f5f5f7) (h3 : P s) : ResAll P
    (cmdLoom opcode h p s) := by
  have H1 : Keeps P 0x6c08557 := H.mono rfl
  have H2 : Keeps P 0x6c00557 := H.mono rfl
  have H3 : Keeps P 0x6c18577 := H.mono rfl
  have H4 : Keeps P 0x6c18557 := H.mono rfl
  have H5 : Keeps P 0x7c5f5f7 := H.mono rfl
  have H6 : Keeps P 0x6f00557 := H.mono rfl
  unfold cmdLoom
  with_reducible repeat' first
    | assumption | intro _ | refine res_next ?_ | refine res_get ‹_ = Host.Outcome.next _› (keeps_execLoomSetShare H1 ?_)
    | refine keeps_execLoomSetShare H1 ?_ | refine res_get ‹_ = Host.Outcome.next _› (keeps_execLoomGetJob H2 ?_)
    | refine keeps_execLoomGetJob H2 ?_ | refine res_get ‹_ = Host.Outcome.next _› (keeps_execLoomGetOrder H2 ?_)
    | refine keeps_execLoomGetOrder H2 ?_ | refine res_get ‹_ = Host.Outcome.next _› (keeps_execLoomSetCursor H1 ?_)
    | refine keeps_execLoomSetCursor H1 ?_ | refine res_get ‹_ = Host.Outcome.next _› (keeps_execLoomGetCursor H2 ?_)
    | refine keeps_execLoomGetCursor H2 ?_ | refine res_get ‹_ = Host.Outcome.next _› (keeps_execLoomStart H3 ?_)
    | refine keeps_execLoomStart H3 ?_ | refine res_get ‹_ = Host.Outcome.next _› (keeps_execLoomSetLayout H4 ?_)
    | refine keeps_execLoomSetLayout H4 ?_ | refine res_get ‹_ = Host.Outcome.next _› (keeps_execLoomAddWarp H1 ?_)
    | refine keeps_execLoomAddWarp H1 ?_ | refine res_get ‹_ = Host.Outcome.next _› (keeps_execLoomCloseJob H5 ?_)
    | refine keeps_execLoomCloseJob H5 ?_ | refine res_get ‹_ = Host.Outcome.next _› (keeps_execLoomOpenJob H1 ?_)
    | refine keeps_execLoomOpenJob H1 ?_ | refine res_get ‹_ = Host.Outcome.next _› (keeps_execOther H6 ?_) | refine keeps_execOther H6 ?_
    | split | dsimp only

theorem keeps_opFeedSetPort {P : State → Prop} (H : Keeps P 0x6c185f3) : SpecAll P opFeedSetPort := by
  have H1 : Keeps P 0x40 := H.mono rfl
  refine ⟨fun _ _ _ _ _ => ?_, fun _ _ _ _ => ?_⟩ <;> dsimp only [opFeedSetPort]
  with_reducible repeat' first
    | assumption | intro _ | exact VAll.refuse _ _ | exact VAll.refuseAt _ _ _ | refine VAll.done _ _ _ _ ?_
    | refine VAll.doneAs _ _ _ _ _ ?_ | refine VAll.wait _ _ _ ?_ | refine keeps_applySetPort H ?_ | refine keeps_setting H1 ?_ ?_
    | refine opt_ver ‹_ = some _› (keeps_settingStop ?_) | refine keeps_settingStop ?_ | split | dsimp only

theorem keeps_execFeedSetPort {P : State → Prop} {h : Hdr} {p : Bytes} {s : State} (H : Keeps P 0x6c185f7) (h2 : P s) : ResAll P
    (execFeedSetPort h p s) := by
  have H1 : Keeps P 0x6c185f3 := H.mono rfl
  have H2 : Keeps P 0x6c00557 := H.mono rfl
  unfold execFeedSetPort
  with_reducible repeat' first
    | assumption | intro _ | refine res_next ?_ | refine keeps_opFeedSetPort H1
    | refine res_get ‹_ = Host.Outcome.next _› (keeps_runPkt H2 ?_ ?_) | refine keeps_runPkt H2 ?_ ?_ | split | dsimp only

theorem keeps_redeliver {P : State → Prop} {s : State} {ring : Nat} {l : List Delivery} (H : Keeps P 0x4410111) (h0 : P s) : P
    (State.redeliver s ring l) := by
  have H1 : Keeps P 0x10000 := H.mono rfl
  unfold State.redeliver
  with_reducible repeat' first
    | assumption | intro _ | refine keeps_feedFlag H ?_ | refine keeps_upRing H1 ?_ | split | dsimp only

theorem keeps_latchThresh {P : State → Prop} {s : State} {n : Nat} {v : Nat} (H : Keeps P 0x4430113) (h0 : P s) : P (State.latchThresh s n
    v) := by
  have H1 : Keeps P 0x20000 := H.mono rfl
  unfold State.latchThresh
  with_reducible repeat' first
    | assumption | intro _ | refine keeps_latchArm H ?_ | refine keeps_upCell H1 ?_ | split | dsimp only

theorem keeps_ringArm {P : State → Prop} {s : State} {n : Nat} (H : Keeps P 0x4430113) (h0 : P s) : P (State.ringArm s n) := by
  unfold State.ringArm
  with_reducible repeat' first
    | assumption | intro _ | refine keeps_latchThresh H ?_ | split | dsimp only

theorem keeps_ringResetEnd {P : State → Prop} {s : State} {ring : Nat} (H : Keeps P 0x6c30553) (h0 : P s) : P (State.ringResetEnd s ring) :=
    by
  have H1 : Keeps P 0x4430113 := H.mono rfl
  have H2 : Keeps P 0x10000 := H.mono rfl
  have H3 : Keeps P 0x20000 := H.mono rfl
  have H4 : Keeps P 0x6c00553 := H.mono rfl
  unfold State.ringResetEnd
  with_reducible repeat' first
    | assumption | intro _ | refine keeps_ringArm H1 ?_ | refine keeps_upRing H2 ?_ | refine keeps_upCell H3 ?_
    | refine keeps_finishAll H4 ?_ | split | dsimp only

theorem keeps_ringReset {P : State → Prop} {s : State} {ring : Nat} {count : Nat} (H : Keeps P 0x6c385f3) (h0 : P s) : P (State.ringReset s
    ring count) := by
  have H1 : Keeps P 0x6c30553 := H.mono rfl
  have H2 : Keeps P 0x4410111 := H.mono rfl
  have H3 : Keeps P 0x6c185f3 := H.mono rfl
  have H4 : Keeps P 0x10000 := H.mono rfl
  have H5 : Keeps P 0x100 := H.mono rfl
  have H6 : Keeps P 0x1 := H.mono rfl
  unfold State.ringReset
  with_reducible repeat' first
    | assumption | intro _ | refine keeps_ringResetEnd H1 ?_ | refine keeps_redeliver H2 ?_ | refine keeps_releaseSettle H3 ?_
    | refine keeps_upRing H4 ?_ | refine keeps_dropUnsent H5 ?_ | refine keeps_emit H6 ?_ | split | dsimp only

theorem keeps_opFeedAdmit {P : State → Prop} (H : Keeps P 0x6c385f3) : SpecAll P opFeedAdmit := by
  have H1 : Keeps P 0x10000 := H.mono rfl
  have H2 : Keeps P 0x4410111 := H.mono rfl
  refine ⟨fun _ _ _ _ _ => ?_, fun _ _ _ _ => ?_⟩ <;> dsimp only [opFeedAdmit]
  with_reducible repeat' first
    | assumption | intro _ | exact VAll.refuse _ _ | exact VAll.refuseAt _ _ _ | refine VAll.done _ _ _ _ ?_
    | refine VAll.doneAs _ _ _ _ _ ?_ | refine VAll.wait _ _ _ ?_ | refine keeps_foldl ?_ ?_ | refine keeps_foldl_fst ?_ ?_
    | refine keeps_foldl_snd ?_ ?_ | refine keeps_ringReset H ?_ | refine keeps_upRing H1 ?_ | refine keeps_badParam
    | refine keeps_Verdict_ok ?_ | refine keeps_badState | refine keeps_upAcc H2 ?_ | split | dsimp only

theorem keeps_execFeedAdmit {P : State → Prop} {h : Hdr} {p : Bytes} {s : State} (H : Keeps P 0x6c385f7) (h2 : P s) : ResAll P
    (execFeedAdmit h p s) := by
  have H1 : Keeps P 0x6c385f3 := H.mono rfl
  have H2 : Keeps P 0x6c00557 := H.mono rfl
  unfold execFeedAdmit
  with_reducible repeat' first
    | assumption | intro _ | refine res_next ?_ | refine keeps_opFeedAdmit H1
    | refine res_get ‹_ = Host.Outcome.next _› (keeps_runPkt H2 ?_ ?_) | refine keeps_runPkt H2 ?_ ?_ | split | dsimp only

theorem keeps_opFeedRelease {P : State → Prop} (H : Keeps P 0x6c185f3) : SpecAll P opFeedRelease := by
  have H1 : Keeps P 0x4410111 := H.mono rfl
  refine ⟨fun _ _ _ _ _ => ?_, fun _ _ _ _ => ?_⟩ <;> dsimp only [opFeedRelease]
  with_reducible repeat' first
    | assumption | intro _ | exact VAll.refuse _ _ | exact VAll.refuseAt _ _ _ | refine VAll.done _ _ _ _ ?_
    | refine VAll.doneAs _ _ _ _ _ ?_ | refine VAll.wait _ _ _ ?_ | refine keeps_releaseSettle H ?_ | refine keeps_Verdict_ok ?_
    | refine keeps_badState | refine keeps_upAcc H1 ?_ | split | dsimp only

theorem keeps_execFeedRelease {P : State → Prop} {h : Hdr} {p : Bytes} {s : State} (H : Keeps P 0x6c185f7) (h2 : P s) : ResAll P
    (execFeedRelease h p s) := by
  have H1 : Keeps P 0x6c185f3 := H.mono rfl
  have H2 : Keeps P 0x6c00557 := H.mono rfl
  unfold execFeedRelease
  with_reducible repeat' first
    | assumption | intro _ | refine res_next ?_ | refine keeps_opFeedRelease H1
    | refine res_get ‹_ = Host.Outcome.next _› (keeps_runPkt H2 ?_ ?_) | refine keeps_runPkt H2 ?_ ?_ | split | dsimp only

theorem keeps_opLatchAssign {P : State → Prop} (H : Keeps P 0x20000) : SpecAll P opLatchAssign := by
  refine ⟨fun _ _ _ _ _ => ?_, fun _ _ _ _ => ?_⟩ <;> dsimp only [opLatchAssign]
  with_reducible repeat' first
    | assumption | intro _ | exact VAll.refuse _ _ | exact VAll.refuseAt _ _ _ | refine VAll.done _ _ _ _ ?_
    | refine VAll.doneAs _ _ _ _ _ ?_ | refine VAll.wait _ _ _ ?_ | refine keeps_foldl ?_ ?_ | refine keeps_foldl_fst ?_ ?_
    | refine keeps_foldl_snd ?_ ?_ | refine keeps_upLat H ?_ | refine keeps_badParam | refine keeps_Verdict_ok ?_ | refine keeps_noResource
    | split | dsimp only

theorem keeps_execLatchAssign {P : State → Prop} {h : Hdr} {p : Bytes} {s : State} (H : Keeps P 0x6c20557) (h2 : P s) : ResAll P
    (execLatchAssign h p s) := by
  have H1 : Keeps P 0x20000 := H.mono rfl
  have H2 : Keeps P 0x6c00557 := H.mono rfl
  unfold execLatchAssign
  with_reducible repeat' first
    | assumption | intro _ | refine res_next ?_ | refine keeps_opLatchAssign H1
    | refine res_get ‹_ = Host.Outcome.next _› (keeps_runPkt H2 ?_ ?_) | refine keeps_runPkt H2 ?_ ?_ | split | dsimp only

theorem keeps_bindLatch {P : State → Prop} {s : State} {latch : Nat} {ring : Nat} {mask : Nat} (H : Keeps P 0x4430113) (h0 : P s) : P
    (State.bindLatch s latch ring mask) := by
  have H1 : Keeps P 0x20000 := H.mono rfl
  unfold State.bindLatch
  with_reducible repeat' first
    | assumption | intro _ | refine keeps_latchThresh H ?_ | refine keeps_upCell H1 ?_ | split | dsimp only

theorem keeps_opFeedCreateRing {P : State → Prop} (H : Keeps P 0x4430113) : SpecAll P opFeedCreateRing := by
  have H1 : Keeps P 0x10000 := H.mono rfl
  have H2 : Keeps P 0x100 := H.mono rfl
  refine ⟨fun _ _ _ _ _ => ?_, fun _ _ _ _ => ?_⟩ <;> dsimp only [opFeedCreateRing]
  with_reducible repeat' first
    | assumption | intro _ | exact VAll.refuse _ _ | exact VAll.refuseAt _ _ _ | refine VAll.done _ _ _ _ ?_
    | refine VAll.doneAs _ _ _ _ _ ?_ | refine VAll.wait _ _ _ ?_ | refine keeps_upFeed H1 ?_ | refine keeps_bindLatch H ?_
    | refine keeps_badParam | refine opt_get2 ‹_ = some (_, _)› (keeps_regionAdd H2 ?_) | refine keeps_regionAdd H2 ?_
    | refine keeps_noResource | refine opt_get2 ‹_ = some (_, _)› ?_ | refine opt_ite ?_ ?_ | exact opt_none | refine opt_some ?_
    | refine opt_map2 (P := P) ?_ ?_ | split | dsimp only

theorem keeps_execFeedCreateRing {P : State → Prop} {h : Hdr} {p : Bytes} {s : State} (H : Keeps P 0x6c30557) (h2 : P s) : ResAll P
    (execFeedCreateRing h p s) := by
  have H1 : Keeps P 0x4430113 := H.mono rfl
  have H2 : Keeps P 0x6c00557 := H.mono rfl
  unfold execFeedCreateRing
  with_reducible repeat' first
    | assumption | intro _ | refine res_next ?_ | refine keeps_opFeedCreateRing H1
    | refine res_get ‹_ = Host.Outcome.next _› (keeps_runPkt H2 ?_ ?_) | refine keeps_runPkt H2 ?_ ?_ | split | dsimp only

theorem keeps_onRing {P : State → Prop} {s : State} {p : Bytes} {off : Nat} {f : Nat → FRing → Verdict} (h0 : P s) (h3 : ∀ y1 y2, VAll P (f
    y1 y2)) : VAll P (State.onRing s p off f) := by
  unfold State.onRing
  with_reducible repeat' first
    | assumption | intro _ | refine h3 _ _ | exact VAll.refuse _ _ | exact VAll.refuseAt _ _ _ | refine VAll.done _ _ _ _ ?_
    | refine VAll.doneAs _ _ _ _ _ ?_ | refine VAll.wait _ _ _ ?_ | split | dsimp only

theorem keeps_opFeedDestroyRing {P : State → Prop} (H : Keeps P 0x6c385f3) : SpecAll P opFeedDestroyRing := by
  have H1 : Keeps P 0x6c185f3 := H.mono rfl
  refine ⟨fun _ _ _ _ _ => ?_, fun _ _ _ _ => ?_⟩ <;> dsimp only [opFeedDestroyRing]
  with_reducible repeat' first
    | assumption | intro _ | exact VAll.refuse _ _ | exact VAll.refuseAt _ _ _ | refine VAll.done _ _ _ _ ?_
    | refine VAll.doneAs _ _ _ _ _ ?_ | refine VAll.wait _ _ _ ?_ | refine keeps_onRing ?_ ?_ | refine keeps_releaseSettle H1 ?_
    | refine keeps_Verdict_ok ?_ | refine keeps_ringDestroy H ?_ | split | dsimp only

theorem keeps_execFeedDestroyRing {P : State → Prop} {h : Hdr} {p : Bytes} {s : State} (H : Keeps P 0x6c385f7) (h2 : P s) : ResAll P
    (execFeedDestroyRing h p s) := by
  have H1 : Keeps P 0x6c385f3 := H.mono rfl
  have H2 : Keeps P 0x6c00557 := H.mono rfl
  unfold execFeedDestroyRing
  with_reducible repeat' first
    | assumption | intro _ | refine res_next ?_ | refine keeps_opFeedDestroyRing H1
    | refine res_get ‹_ = Host.Outcome.next _› (keeps_runPkt H2 ?_ ?_) | refine keeps_runPkt H2 ?_ ?_ | split | dsimp only

theorem keeps_opFeedResetRing {P : State → Prop} (H : Keeps P 0x6c385f3) : SpecAll P opFeedResetRing := by
  refine ⟨fun _ _ _ _ _ => ?_, fun _ _ _ _ => ?_⟩ <;> dsimp only [opFeedResetRing]
  with_reducible repeat' first
    | assumption | intro _ | exact VAll.refuse _ _ | exact VAll.refuseAt _ _ _ | refine VAll.done _ _ _ _ ?_
    | refine VAll.doneAs _ _ _ _ _ ?_ | refine VAll.wait _ _ _ ?_ | refine keeps_onRing ?_ ?_ | refine keeps_ringReset H ?_
    | refine keeps_Verdict_ok ?_ | split | dsimp only

theorem keeps_execFeedResetRing {P : State → Prop} {h : Hdr} {p : Bytes} {s : State} (H : Keeps P 0x6c385f7) (h2 : P s) : ResAll P
    (execFeedResetRing h p s) := by
  have H1 : Keeps P 0x6c385f3 := H.mono rfl
  have H2 : Keeps P 0x6c00557 := H.mono rfl
  unfold execFeedResetRing
  with_reducible repeat' first
    | assumption | intro _ | refine res_next ?_ | refine keeps_opFeedResetRing H1
    | refine res_get ‹_ = Host.Outcome.next _› (keeps_runPkt H2 ?_ ?_) | refine keeps_runPkt H2 ?_ ?_ | split | dsimp only

theorem keeps_opFeedGetRing {P : State → Prop} (H : Keeps P 0x4800001) : SpecAll P opFeedGetRing := by
  refine ⟨fun _ _ _ _ _ => ?_, fun _ _ _ _ => ?_⟩ <;> dsimp only [opFeedGetRing]
  with_reducible repeat' first
    | assumption | intro _ | exact VAll.refuse _ _ | exact VAll.refuseAt _ _ _ | refine VAll.done _ _ _ _ ?_
    | refine VAll.doneAs _ _ _ _ _ ?_ | refine VAll.wait _ _ _ ?_ | refine keeps_onRing ?_ ?_ | refine keeps_Verdict_ok ?_
    | refine keeps_hostWrite H ?_ | split | dsimp only

theorem keeps_execFeedGetRing {P : State → Prop} {h : Hdr} {p : Bytes} {s : State} (H : Keeps P 0x6c00557) (h2 : P s) : ResAll P
    (execFeedGetRing h p s) := by
  have H1 : Keeps P 0x4800001 := H.mono rfl
  unfold execFeedGetRing
  with_reducible repeat' first
    | assumption | intro _ | refine res_next ?_ | refine keeps_opFeedGetRing H1
    | refine res_get ‹_ = Host.Outcome.next _› (keeps_runPkt H ?_ ?_) | refine keeps_runPkt H ?_ ?_ | split | dsimp only

theorem keeps_opFeedJoin {P : State → Prop} (H : Keeps P 0x6c18553) : SpecAll P opFeedJoin := by
  have H1 : Keeps P 0x10000 := H.mono rfl
  refine ⟨fun _ _ _ _ _ => ?_, fun _ _ _ _ => ?_⟩ <;> dsimp only [opFeedJoin]
  with_reducible repeat' first
    | assumption | intro _ | exact VAll.refuse _ _ | exact VAll.refuseAt _ _ _ | refine VAll.done _ _ _ _ ?_
    | refine VAll.doneAs _ _ _ _ _ ?_ | refine VAll.wait _ _ _ ?_ | refine keeps_onRing ?_ ?_ | refine keeps_lPropose H ?_
    | refine keeps_upRing H1 ?_ | refine keeps_badParam | refine keeps_badState | split | dsimp only

theorem keeps_execFeedJoin {P : State → Prop} {h : Hdr} {p : Bytes} {s : State} (H : Keeps P 0x6c18557) (h2 : P s) : ResAll P (execFeedJoin
    h p s) := by
  have H1 : Keeps P 0x6c18553 := H.mono rfl
  have H2 : Keeps P 0x6c00557 := H.mono rfl
  unfold execFeedJoin
  with_reducible repeat' first
    | assumption | intro _ | refine res_next ?_ | refine keeps_opFeedJoin H1
    | refine res_get ‹_ = Host.Outcome.next _› (keeps_runPkt H2 ?_ ?_) | refine keeps_runPkt H2 ?_ ?_ | split | dsimp only

theorem keeps_cmdFeed {P : State → Prop} {opcode : Nat} {h : Hdr} {p : Bytes} {s : State} (H : Keeps P 0x6f385f7) (h3 : P s) : ResAll P
    (cmdFeed opcode h p s) := by
  have H1 : Keeps P 0x6c18557 := H.mono rfl
  have H2 : Keeps P 0x6c00557 := H.mono rfl
  have H3 : Keeps P 0x6c385f7 := H.mono rfl
  have H4 : Keeps P 0x6c30557 := H.mono rfl
  have H5 : Keeps P 0x6c20557 := H.mono rfl
  have H6 : Keeps P 0x6c185f7 := H.mono rfl
  have H7 : Keeps P 0x6f00557 := H.mono rfl
  unfold cmdFeed
  with_reducible repeat' first
    | assumption | intro _ | refine res_next ?_ | refine res_get ‹_ = Host.Outcome.next _› (keeps_execFeedJoin H1 ?_)
    | refine keeps_execFeedJoin H1 ?_ | refine res_get ‹_ = Host.Outcome.next _› (keeps_execFeedGetRing H2 ?_)
    | refine keeps_execFeedGetRing H2 ?_ | refine res_get ‹_ = Host.Outcome.next _› (keeps_execFeedResetRing H3 ?_)
    | refine keeps_execFeedResetRing H3 ?_ | refine res_get ‹_ = Host.Outcome.next _› (keeps_execFeedDestroyRing H3 ?_)
    | refine keeps_execFeedDestroyRing H3 ?_ | refine res_get ‹_ = Host.Outcome.next _› (keeps_execFeedCreateRing H4 ?_)
    | refine keeps_execFeedCreateRing H4 ?_ | refine res_get ‹_ = Host.Outcome.next _› (keeps_execLatchAssign H5 ?_)
    | refine keeps_execLatchAssign H5 ?_ | refine res_get ‹_ = Host.Outcome.next _› (keeps_execFeedRelease H6 ?_)
    | refine keeps_execFeedRelease H6 ?_ | refine res_get ‹_ = Host.Outcome.next _› (keeps_execFeedAdmit H3 ?_)
    | refine keeps_execFeedAdmit H3 ?_ | refine res_get ‹_ = Host.Outcome.next _› (keeps_execFeedSetPort H6 ?_)
    | refine keeps_execFeedSetPort H6 ?_ | refine res_get ‹_ = Host.Outcome.next _› (keeps_execOther H7 ?_) | refine keeps_execOther H7 ?_
    | split | dsimp only

theorem keeps_opSetPortMode {P : State → Prop} (H : Keeps P 0x4400151) : SpecAll P opSetPortMode := by
  have H1 : Keeps P 0x4400111 := H.mono rfl
  have H2 : Keeps P 0x40 := H.mono rfl
  refine ⟨fun _ _ _ _ _ => ?_, fun _ _ _ _ => ?_⟩ <;> dsimp only [opSetPortMode]
  with_reducible repeat' first
    | assumption | intro _ | exact VAll.refuse _ _ | exact VAll.refuseAt _ _ _ | refine VAll.done _ _ _ _ ?_
    | refine VAll.doneAs _ _ _ _ _ ?_ | refine VAll.wait _ _ _ ?_ | refine keeps_applyPortMode H1 ?_ | refine keeps_setting H2 ?_ ?_
    | refine opt_ver ‹_ = some _› (keeps_settingStop ?_) | refine keeps_settingStop ?_ | split | dsimp only

theorem keeps_execSetPortMode {P : State → Prop} {h : Hdr} {p : Bytes} {s : State} (H : Keeps P 0x6c00557) (h2 : P s) : ResAll P
    (execSetPortMode h p s) := by
  have H1 : Keeps P 0x4400151 := H.mono rfl
  unfold execSetPortMode
  with_reducible repeat' first
    | assumption | intro _ | refine res_next ?_ | refine keeps_opSetPortMode H1
    | refine res_get ‹_ = Host.Outcome.next _› (keeps_runPkt H ?_ ?_) | refine keeps_runPkt H ?_ ?_ | split | dsimp only

theorem keeps_opGetPortStatus {P : State → Prop} : SpecAll P opGetPortStatus := by
  refine ⟨fun _ _ _ _ _ => ?_, fun _ _ _ _ => ?_⟩ <;> dsimp only [opGetPortStatus]
  with_reducible repeat' first
    | assumption | intro _ | exact VAll.refuse _ _ | exact VAll.refuseAt _ _ _ | refine VAll.done _ _ _ _ ?_
    | refine VAll.doneAs _ _ _ _ _ ?_ | refine VAll.wait _ _ _ ?_ | split | dsimp only

theorem keeps_execGetPortStatus {P : State → Prop} {h : Hdr} {p : Bytes} {s : State} (H : Keeps P 0x6c00557) (h2 : P s) : ResAll P
    (execGetPortStatus h p s) := by
  unfold execGetPortStatus
  with_reducible repeat' first
    | assumption | intro _ | refine res_next ?_ | refine keeps_opGetPortStatus
    | refine res_get ‹_ = Host.Outcome.next _› (keeps_runPkt H ?_ ?_) | refine keeps_runPkt H ?_ ?_ | split | dsimp only

theorem keeps_opCreateQp {P : State → Prop} (H : Keeps P 0x4c00511) : SpecAll P opCreateQp := by
  refine ⟨fun _ _ _ _ _ => ?_, fun _ _ _ _ => ?_⟩ <;> dsimp only [opCreateQp]
  with_reducible repeat' first
    | assumption | intro _ | exact VAll.refuse _ _ | exact VAll.refuseAt _ _ _ | refine VAll.done _ _ _ _ ?_
    | refine VAll.doneAs _ _ _ _ _ ?_ | refine VAll.wait _ _ _ ?_ | refine opt_get2 ‹_ = some (_, _)› (keeps_qpAlloc H ?_)
    | refine keeps_qpAlloc H ?_ | refine keeps_noResource | split | dsimp only

theorem keeps_execCreateQp {P : State → Prop} {h : Hdr} {p : Bytes} {s : State} (H : Keeps P 0x6c00557) (h2 : P s) : ResAll P (execCreateQp
    h p s) := by
  have H1 : Keeps P 0x4c00511 := H.mono rfl
  unfold execCreateQp
  with_reducible repeat' first
    | assumption | intro _ | refine res_next ?_ | refine keeps_opCreateQp H1
    | refine res_get ‹_ = Host.Outcome.next _› (keeps_runPkt H ?_ ?_) | refine keeps_runPkt H ?_ ?_ | split | dsimp only

theorem keeps_qpMove {P : State → Prop} {s : State} {qpn : Nat} {st : QpState} (H : Keeps P 0x4400111) (h0 : P s) : P (State.qpMove s qpn
    st) := by
  have H1 : Keeps P 0x100 := H.mono rfl
  unfold State.qpMove
  with_reducible repeat' first
    | assumption | intro _ | refine keeps_upQpn H1 ?_ | refine keeps_note H ?_ | split | dsimp only

theorem keeps_regionSettle {P : State → Prop} {s : State} (H : Keeps P 0x6c00553) (h0 : P s) : P (State.regionSettle s) := by
  have H1 : Keeps P 0x100 := H.mono rfl
  unfold State.regionSettle
  with_reducible repeat' first
    | assumption | intro _ | refine keeps_foldl ?_ ?_ | refine keeps_regionDel H1 ?_ | refine keeps_finishAll H ?_ | split | dsimp only

theorem keeps_qpReset {P : State → Prop} {s : State} {qpn : Nat} {q : Qp} (H : Keeps P 0x6c00553) (h0 : P s) : P (State.qpReset s qpn q) :=
    by
  have H1 : Keeps P 0x4400111 := H.mono rfl
  have H2 : Keeps P 0x400 := H.mono rfl
  have H3 : Keeps P 0x100 := H.mono rfl
  unfold State.qpReset
  with_reducible repeat' first
    | assumption | intro _ | refine keeps_regionSettle H ?_ | refine keeps_qpMove H1 ?_ | refine keeps_ctxGive H2 ?_
    | refine keeps_upQpn H3 ?_ | split | dsimp only

theorem keeps_feedQpFailed {P : State → Prop} {s : State} {qpn : Nat} (H : Keeps P 0x6c185f3) (h0 : P s) : P (State.feedQpFailed s qpn) :=
    by
  unfold State.feedQpFailed
  with_reducible repeat' first
    | assumption | intro _ | refine keeps_foldl ?_ ?_ | refine keeps_ringDetach H ?_ | split | dsimp only

theorem keeps_stoReissue {P : State → Prop} {s : State} (H : Keeps P 0x81) (h0 : P s) : P (State.stoReissue s) := by
  have H1 : Keeps P 0x80 := H.mono rfl
  unfold State.stoReissue
  with_reducible repeat' first
    | assumption | intro _ | exact opt_none | refine opt_some ?_ | refine opt_map2 (P := P) ?_ ?_ | refine opt_map ?_
    | refine opt_ite ?_ ?_ | refine keeps_foldl ?_ ?_ | refine opt_foldl ?_ ?_ | refine keeps_upSto H1 ?_ | refine keeps_remoteOut H ?_
    | split | dsimp only

theorem keeps_stoRefresh {P : State → Prop} {s : State} (H : Keeps P 0x81) (h0 : P s) : P (State.stoRefresh s) := by
  have H1 : Keeps P 0x80 := H.mono rfl
  unfold State.stoRefresh
  with_reducible repeat' first
    | assumption | intro _ | refine keeps_upSto H1 ?_ | refine keeps_stoReissue H ?_ | split | dsimp only

theorem keeps_opModifyQp {P : State → Prop} (H : Keeps P 0x6c185f3) : SpecAll P opModifyQp := by
  have H1 : Keeps P 0x81 := H.mono rfl
  have H2 : Keeps P 0x6c00553 := H.mono rfl
  have H3 : Keeps P 0x4400111 := H.mono rfl
  have H4 : Keeps P 0x4c00511 := H.mono rfl
  have H5 : Keeps P 0x100 := H.mono rfl
  refine ⟨fun _ _ _ _ _ => ?_, fun _ _ _ _ => ?_⟩ <;> dsimp only [opModifyQp]
  with_reducible repeat' first
    | assumption | intro _ | exact VAll.refuse _ _ | exact VAll.refuseAt _ _ _ | refine VAll.done _ _ _ _ ?_
    | refine VAll.doneAs _ _ _ _ _ ?_ | refine VAll.wait _ _ _ ?_ | refine keeps_stoRefresh H1 ?_ | refine keeps_feedQpFailed H ?_
    | refine keeps_qpReset H2 ?_ | refine keeps_qpMove H3 ?_ | refine opt_get2 ‹_ = some (_, _)› (keeps_ctxTakeN H4 ?_)
    | refine keeps_ctxTakeN H4 ?_ | refine keeps_badParam | refine keeps_Verdict_ok ?_ | refine keeps_noResource | refine keeps_upQpn H5 ?_
    | split | dsimp only

theorem keeps_execModifyQp {P : State → Prop} {h : Hdr} {p : Bytes} {s : State} (H : Keeps P 0x6c185f7) (h2 : P s) : ResAll P (execModifyQp
    h p s) := by
  have H1 : Keeps P 0x6c185f3 := H.mono rfl
  have H2 : Keeps P 0x6c00557 := H.mono rfl
  unfold execModifyQp
  with_reducible repeat' first
    | assumption | intro _ | refine res_next ?_ | refine keeps_opModifyQp H1
    | refine res_get ‹_ = Host.Outcome.next _› (keeps_runPkt H2 ?_ ?_) | refine keeps_runPkt H2 ?_ ?_ | split | dsimp only

theorem keeps_opDestroyQp {P : State → Prop} (H : Keeps P 0x500) : SpecAll P opDestroyQp := by
  refine ⟨fun _ _ _ _ _ => ?_, fun _ _ _ _ => ?_⟩ <;> dsimp only [opDestroyQp]
  with_reducible repeat' first
    | assumption | intro _ | exact VAll.refuse _ _ | exact VAll.refuseAt _ _ _ | refine VAll.done _ _ _ _ ?_
    | refine VAll.doneAs _ _ _ _ _ ?_ | refine VAll.wait _ _ _ ?_ | refine keeps_badParam | refine keeps_Verdict_ok ?_
    | refine keeps_qpFree H ?_ | split | dsimp only

theorem keeps_execDestroyQp {P : State → Prop} {h : Hdr} {p : Bytes} {s : State} (H : Keeps P 0x6c00557) (h2 : P s) : ResAll P
    (execDestroyQp h p s) := by
  have H1 : Keeps P 0x500 := H.mono rfl
  unfold execDestroyQp
  with_reducible repeat' first
    | assumption | intro _ | refine res_next ?_ | refine keeps_opDestroyQp H1
    | refine res_get ‹_ = Host.Outcome.next _› (keeps_runPkt H ?_ ?_) | refine keeps_runPkt H ?_ ?_ | split | dsimp only

theorem keeps_opQueryQp {P : State → Prop} : SpecAll P opQueryQp := by
  refine ⟨fun _ _ _ _ _ => ?_, fun _ _ _ _ => ?_⟩ <;> dsimp only [opQueryQp]
  with_reducible repeat' first
    | assumption | intro _ | exact VAll.refuse _ _ | exact VAll.refuseAt _ _ _ | refine VAll.done _ _ _ _ ?_
    | refine VAll.doneAs _ _ _ _ _ ?_ | refine VAll.wait _ _ _ ?_ | refine keeps_badParam | split | dsimp only

theorem keeps_execQueryQp {P : State → Prop} {h : Hdr} {p : Bytes} {s : State} (H : Keeps P 0x6c00557) (h2 : P s) : ResAll P (execQueryQp h
    p s) := by
  unfold execQueryQp
  with_reducible repeat' first
    | assumption | intro _ | refine res_next ?_ | refine keeps_opQueryQp | refine res_get ‹_ = Host.Outcome.next _› (keeps_runPkt H ?_ ?_)
    | refine keeps_runPkt H ?_ ?_ | split | dsimp only

theorem keeps_opSetEventQueue {P : State → Prop} (H : Keeps P 0x100) : SpecAll P opSetEventQueue := by
  refine ⟨fun _ _ _ _ _ => ?_, fun _ _ _ _ => ?_⟩ <;> dsimp only [opSetEventQueue]
  with_reducible repeat' first
    | assumption | intro _ | exact VAll.refuse _ _ | exact VAll.refuseAt _ _ _ | refine VAll.done _ _ _ _ ?_
    | refine VAll.doneAs _ _ _ _ _ ?_ | refine VAll.wait _ _ _ ?_ | refine keeps_upNet H ?_ | refine keeps_Verdict_ok ?_ | split
    | dsimp only

theorem keeps_execSetEventQueue {P : State → Prop} {h : Hdr} {p : Bytes} {s : State} (H : Keeps P 0x6c00557) (h2 : P s) : ResAll P
    (execSetEventQueue h p s) := by
  have H1 : Keeps P 0x100 := H.mono rfl
  unfold execSetEventQueue
  with_reducible repeat' first
    | assumption | intro _ | refine res_next ?_ | refine keeps_opSetEventQueue H1
    | refine res_get ‹_ = Host.Outcome.next _› (keeps_runPkt H ?_ ?_) | refine keeps_runPkt H ?_ ?_ | split | dsimp only

theorem keeps_opRegisterRegion {P : State → Prop} (H : Keeps P 0x100) : SpecAll P opRegisterRegion := by
  refine ⟨fun _ _ _ _ _ => ?_, fun _ _ _ _ => ?_⟩ <;> dsimp only [opRegisterRegion]
  with_reducible repeat' first
    | assumption | intro _ | exact VAll.refuse _ _ | exact VAll.refuseAt _ _ _ | refine VAll.done _ _ _ _ ?_
    | refine VAll.doneAs _ _ _ _ _ ?_ | refine VAll.wait _ _ _ ?_ | refine keeps_badParam
    | refine opt_get2 ‹_ = some (_, _)› (keeps_regionAdd H ?_) | refine keeps_regionAdd H ?_ | refine keeps_noResource | split | dsimp only

theorem keeps_execRegisterRegion {P : State → Prop} {h : Hdr} {p : Bytes} {s : State} (H : Keeps P 0x6c00557) (h2 : P s) : ResAll P
    (execRegisterRegion h p s) := by
  have H1 : Keeps P 0x100 := H.mono rfl
  unfold execRegisterRegion
  with_reducible repeat' first
    | assumption | intro _ | refine res_next ?_ | refine keeps_opRegisterRegion H1
    | refine res_get ‹_ = Host.Outcome.next _› (keeps_runPkt H ?_ ?_) | refine keeps_runPkt H ?_ ?_ | split | dsimp only

theorem keeps_opDeregisterRegion {P : State → Prop} (H : Keeps P 0x100) : SpecAll P opDeregisterRegion := by
  refine ⟨fun _ _ _ _ _ => ?_, fun _ _ _ _ => ?_⟩ <;> dsimp only [opDeregisterRegion]
  with_reducible repeat' first
    | assumption | intro _ | exact VAll.refuse _ _ | exact VAll.refuseAt _ _ _ | refine VAll.done _ _ _ _ ?_
    | refine VAll.doneAs _ _ _ _ _ ?_ | refine VAll.wait _ _ _ ?_ | refine keeps_upNet H ?_ | refine keeps_badParam
    | refine keeps_Verdict_ok ?_ | refine keeps_regionDel H ?_ | split | dsimp only

theorem keeps_execDeregisterRegion {P : State → Prop} {h : Hdr} {p : Bytes} {s : State} (H : Keeps P 0x6c00557) (h2 : P s) : ResAll P
    (execDeregisterRegion h p s) := by
  have H1 : Keeps P 0x100 := H.mono rfl
  unfold execDeregisterRegion
  with_reducible repeat' first
    | assumption | intro _ | refine res_next ?_ | refine keeps_opDeregisterRegion H1
    | refine res_get ‹_ = Host.Outcome.next _› (keeps_runPkt H ?_ ?_) | refine keeps_runPkt H ?_ ?_ | split | dsimp only

theorem keeps_linkFree {P : State → Prop} {s : State} {m : Member} (H : Keeps P 0x500) (h0 : P s) : P (State.linkFree s m) := by
  have H1 : Keeps P 0x100 := H.mono rfl
  unfold State.linkFree
  with_reducible repeat' first
    | assumption | intro _ | refine keeps_regionDel H1 ?_ | refine keeps_qpFree H ?_ | split | dsimp only

theorem keeps_linkMake {P : State → Prop} {s : State} {id : Nat} {q : Qp} (H : Keeps P 0x4c00511) (h0 : P s) : OptAll (fun x => P x.2.2.2)
    (State.linkMake s id q) := by
  have H1 : Keeps P 0x100 := H.mono rfl
  unfold State.linkMake
  with_reducible repeat' first
    | assumption | intro _ | exact opt_none | refine opt_some ?_ | refine opt_get2 ‹_ = some (_, _)› (keeps_qpAlloc H ?_)
    | refine keeps_qpAlloc H ?_ | refine opt_get2 ‹_ = some (_, _)› (keeps_regionAdd H1 ?_) | refine keeps_regionAdd H1 ?_ | split
    | dsimp only

theorem keeps_opTroupeAddMember {P : State → Prop} (H : Keeps P 0x4c00513) : SpecAll P opTroupeAddMember := by
  have H1 : Keeps P 0x100 := H.mono rfl
  have H2 : Keeps P 0x4c00511 := H.mono rfl
  have H3 : Keeps P 0x500 := H.mono rfl
  have H4 : Keeps P 0x1 := H.mono rfl
  have H5 : Keeps P 0x2 := H.mono rfl
  refine ⟨fun _ _ _ _ _ => ?_, fun _ _ _ _ => ?_⟩ <;> dsimp only [opTroupeAddMember]
  with_reducible repeat' first
    | assumption | intro _ | exact VAll.refuse _ _ | exact VAll.refuseAt _ _ _ | refine VAll.done _ _ _ _ ?_
    | refine VAll.doneAs _ _ _ _ _ ?_ | refine VAll.wait _ _ _ ?_ | refine keeps_upNet H1 ?_
    | refine opt_get4 ‹_ = some (_, _, _, _)› (keeps_linkMake H2 ?_) | refine keeps_linkMake H2 ?_ | refine keeps_linkFree H3 ?_
    | refine keeps_noResource | refine keeps_badState | refine keeps_upMember H1 ?_ | refine keeps_emit H4 ?_ | refine keeps_spent H5 ?_
    | split | dsimp only

theorem keeps_execTroupeAddMember {P : State → Prop} {h : Hdr} {p : Bytes} {s : State} (H : Keeps P 0x6c00557) (h2 : P s) : ResAll P
    (execTroupeAddMember h p s) := by
  have H1 : Keeps P 0x4c00513 := H.mono rfl
  unfold execTroupeAddMember
  with_reducible repeat' first
    | assumption | intro _ | refine res_next ?_ | refine keeps_opTroupeAddMember H1
    | refine res_get ‹_ = Host.Outcome.next _› (keeps_runPkt H ?_ ?_) | refine keeps_runPkt H ?_ ?_ | split | dsimp only

theorem keeps_opTroupeRemoveMember {P : State → Prop} (H : Keeps P 0x100) : SpecAll P opTroupeRemoveMember := by
  refine ⟨fun _ _ _ _ _ => ?_, fun _ _ _ _ => ?_⟩ <;> dsimp only [opTroupeRemoveMember]
  with_reducible repeat' first
    | assumption | intro _ | exact VAll.refuse _ _ | exact VAll.refuseAt _ _ _ | refine VAll.done _ _ _ _ ?_
    | refine VAll.doneAs _ _ _ _ _ ?_ | refine VAll.wait _ _ _ ?_ | refine keeps_badParam | refine keeps_upMember H ?_ | split | dsimp only

theorem keeps_removeSettle {P : State → Prop} {s : State} (H : Keeps P 0x6c00553) (h0 : P s) : P (State.removeSettle s) := by
  have H1 : Keeps P 0x100 := H.mono rfl
  have H2 : Keeps P 0x500 := H.mono rfl
  unfold State.removeSettle
  with_reducible repeat' first
    | assumption | intro _ | refine keeps_foldl ?_ ?_ | refine keeps_upNet H1 ?_ | refine keeps_linkFree H2 ?_
    | refine keeps_finishAll H ?_ | split | dsimp only

theorem keeps_execTroupeRemoveMember {P : State → Prop} {h : Hdr} {p : Bytes} {s : State} (H : Keeps P 0x6c00557) (h2 : P s) : ResAll P
    (execTroupeRemoveMember h p s) := by
  have H1 : Keeps P 0x6c00553 := H.mono rfl
  have H2 : Keeps P 0x100 := H.mono rfl
  unfold execTroupeRemoveMember
  with_reducible repeat' first
    | assumption | intro _ | refine res_next ?_ | refine keeps_removeSettle H1 ?_ | refine keeps_opTroupeRemoveMember H2
    | refine res_get ‹_ = Host.Outcome.next _› (keeps_runPkt H ?_ ?_) | refine keeps_runPkt H ?_ ?_ | split | dsimp only

theorem keeps_opSetContextReserve {P : State → Prop} (H : Keeps P 0x400) : SpecAll P opSetContextReserve := by
  refine ⟨fun _ _ _ _ _ => ?_, fun _ _ _ _ => ?_⟩ <;> dsimp only [opSetContextReserve]
  with_reducible repeat' first
    | assumption | intro _ | exact VAll.refuse _ _ | exact VAll.refuseAt _ _ _ | refine VAll.done _ _ _ _ ?_
    | refine VAll.doneAs _ _ _ _ _ ?_ | refine VAll.wait _ _ _ ?_ | refine keeps_upCtx H ?_ | refine keeps_Verdict_ok ?_
    | refine keeps_noResource | split | dsimp only

theorem keeps_execSetContextReserve {P : State → Prop} {h : Hdr} {p : Bytes} {s : State} (H : Keeps P 0x6c00557) (h2 : P s) : ResAll P
    (execSetContextReserve h p s) := by
  have H1 : Keeps P 0x400 := H.mono rfl
  unfold execSetContextReserve
  with_reducible repeat' first
    | assumption | intro _ | refine res_next ?_ | refine keeps_opSetContextReserve H1
    | refine res_get ‹_ = Host.Outcome.next _› (keeps_runPkt H ?_ ?_) | refine keeps_runPkt H ?_ ?_ | split | dsimp only

theorem keeps_cmdNet {P : State → Prop} {opcode : Nat} {h : Hdr} {p : Bytes} {s : State} (H : Keeps P 0x6f185f7) (h3 : P s) : ResAll P
    (cmdNet opcode h p s) := by
  have H1 : Keeps P 0x6c00557 := H.mono rfl
  have H2 : Keeps P 0x6c185f7 := H.mono rfl
  have H3 : Keeps P 0x6f00557 := H.mono rfl
  unfold cmdNet
  with_reducible repeat' first
    | assumption | intro _ | refine res_next ?_ | refine res_get ‹_ = Host.Outcome.next _› (keeps_execSetContextReserve H1 ?_)
    | refine keeps_execSetContextReserve H1 ?_ | refine res_get ‹_ = Host.Outcome.next _› (keeps_execTroupeRemoveMember H1 ?_)
    | refine keeps_execTroupeRemoveMember H1 ?_ | refine res_get ‹_ = Host.Outcome.next _› (keeps_execTroupeAddMember H1 ?_)
    | refine keeps_execTroupeAddMember H1 ?_ | refine res_get ‹_ = Host.Outcome.next _› (keeps_execDeregisterRegion H1 ?_)
    | refine keeps_execDeregisterRegion H1 ?_ | refine res_get ‹_ = Host.Outcome.next _› (keeps_execRegisterRegion H1 ?_)
    | refine keeps_execRegisterRegion H1 ?_ | refine res_get ‹_ = Host.Outcome.next _› (keeps_execSetEventQueue H1 ?_)
    | refine keeps_execSetEventQueue H1 ?_ | refine res_get ‹_ = Host.Outcome.next _› (keeps_execQueryQp H1 ?_)
    | refine keeps_execQueryQp H1 ?_ | refine res_get ‹_ = Host.Outcome.next _› (keeps_execDestroyQp H1 ?_)
    | refine keeps_execDestroyQp H1 ?_ | refine res_get ‹_ = Host.Outcome.next _› (keeps_execModifyQp H2 ?_)
    | refine keeps_execModifyQp H2 ?_ | refine res_get ‹_ = Host.Outcome.next _› (keeps_execCreateQp H1 ?_)
    | refine keeps_execCreateQp H1 ?_ | refine res_get ‹_ = Host.Outcome.next _› (keeps_execGetPortStatus H1 ?_)
    | refine keeps_execGetPortStatus H1 ?_ | refine res_get ‹_ = Host.Outcome.next _› (keeps_execSetPortMode H1 ?_)
    | refine keeps_execSetPortMode H1 ?_ | refine res_get ‹_ = Host.Outcome.next _› (keeps_execOther H3 ?_) | refine keeps_execOther H3 ?_
    | split | dsimp only

theorem keeps_opHedLoadGraph {P : State → Prop} (H : Keeps P 0x240) : SpecAll P opHedLoadGraph := by
  have H1 : Keeps P 0x200 := H.mono rfl
  have H2 : Keeps P 0x40 := H.mono rfl
  refine ⟨fun _ _ _ _ _ => ?_, fun _ _ _ _ => ?_⟩ <;> dsimp only [opHedLoadGraph]
  with_reducible repeat' first
    | assumption | intro _ | exact VAll.refuse _ _ | exact VAll.refuseAt _ _ _ | refine VAll.done _ _ _ _ ?_
    | refine VAll.doneAs _ _ _ _ _ ?_ | refine VAll.wait _ _ _ ?_ | refine keeps_applyGraph H1 ?_ | refine keeps_setting H2 ?_ ?_
    | refine opt_ver ‹_ = some _› (keeps_settingStop ?_) | refine keeps_settingStop ?_ | split | dsimp only

theorem keeps_execHedLoadGraph {P : State → Prop} {h : Hdr} {p : Bytes} {s : State} (H : Keeps P 0x6c00757) (h2 : P s) : ResAll P
    (execHedLoadGraph h p s) := by
  have H1 : Keeps P 0x240 := H.mono rfl
  have H2 : Keeps P 0x6c00557 := H.mono rfl
  unfold execHedLoadGraph
  with_reducible repeat' first
    | assumption | intro _ | refine res_next ?_ | refine keeps_opHedLoadGraph H1
    | refine res_get ‹_ = Host.Outcome.next _› (keeps_runPkt H2 ?_ ?_) | refine keeps_runPkt H2 ?_ ?_ | split | dsimp only

theorem keeps_opHedSetTable {P : State → Prop} (H : Keeps P 0x640) : SpecAll P opHedSetTable := by
  have H1 : Keeps P 0x600 := H.mono rfl
  have H2 : Keeps P 0x40 := H.mono rfl
  refine ⟨fun _ _ _ _ _ => ?_, fun _ _ _ _ => ?_⟩ <;> dsimp only [opHedSetTable]
  with_reducible repeat' first
    | assumption | intro _ | exact VAll.refuse _ _ | exact VAll.refuseAt _ _ _ | refine VAll.done _ _ _ _ ?_
    | refine VAll.doneAs _ _ _ _ _ ?_ | refine VAll.wait _ _ _ ?_ | refine keeps_applyTable H1 ?_ | refine keeps_setting H2 ?_ ?_
    | refine opt_ver ‹_ = some _› (keeps_settingStop ?_) | refine keeps_settingStop ?_ | refine keeps_noResource | split | dsimp only

theorem keeps_execHedSetTable {P : State → Prop} {h : Hdr} {p : Bytes} {s : State} (H : Keeps P 0x6c00757) (h2 : P s) : ResAll P
    (execHedSetTable h p s) := by
  have H1 : Keeps P 0x640 := H.mono rfl
  have H2 : Keeps P 0x6c00557 := H.mono rfl
  unfold execHedSetTable
  with_reducible repeat' first
    | assumption | intro _ | refine res_next ?_ | refine keeps_opHedSetTable H1
    | refine res_get ‹_ = Host.Outcome.next _› (keeps_runPkt H2 ?_ ?_) | refine keeps_runPkt H2 ?_ ?_ | split | dsimp only

theorem keeps_opHedAddEntry {P : State → Prop} (H : Keeps P 0x4c00711) : SpecAll P opHedAddEntry := by
  have H1 : Keeps P 0x200 := H.mono rfl
  have H2 : Keeps P 0x4c00511 := H.mono rfl
  refine ⟨fun _ _ _ _ _ => ?_, fun _ _ _ _ => ?_⟩ <;> dsimp only [opHedAddEntry]
  with_reducible repeat' first
    | assumption | intro _ | exact VAll.refuse _ _ | exact VAll.refuseAt _ _ _ | refine VAll.done _ _ _ _ ?_
    | refine VAll.doneAs _ _ _ _ _ ?_ | refine VAll.wait _ _ _ ?_ | refine keeps_upHed H1 ?_
    | refine opt_get2 ‹_ = some (_, _)› (keeps_ctxTake H2 ?_) | refine keeps_ctxTake H2 ?_ | refine keeps_Verdict_ok ?_
    | refine keeps_noResource | split | dsimp only

theorem keeps_execHedAddEntry {P : State → Prop} {h : Hdr} {p : Bytes} {s : State} (H : Keeps P 0x6c00757) (h2 : P s) : ResAll P
    (execHedAddEntry h p s) := by
  have H1 : Keeps P 0x4c00711 := H.mono rfl
  have H2 : Keeps P 0x6c00557 := H.mono rfl
  unfold execHedAddEntry
  with_reducible repeat' first
    | assumption | intro _ | refine res_next ?_ | refine keeps_opHedAddEntry H1
    | refine res_get ‹_ = Host.Outcome.next _› (keeps_runPkt H2 ?_ ?_) | refine keeps_runPkt H2 ?_ ?_ | split | dsimp only

theorem keeps_opHedDelEntry {P : State → Prop} (H : Keeps P 0x600) : SpecAll P opHedDelEntry := by
  have H1 : Keeps P 0x200 := H.mono rfl
  have H2 : Keeps P 0x400 := H.mono rfl
  refine ⟨fun _ _ _ _ _ => ?_, fun _ _ _ _ => ?_⟩ <;> dsimp only [opHedDelEntry]
  with_reducible repeat' first
    | assumption | intro _ | exact VAll.refuse _ _ | exact VAll.refuseAt _ _ _ | refine VAll.done _ _ _ _ ?_
    | refine VAll.doneAs _ _ _ _ _ ?_ | refine VAll.wait _ _ _ ?_ | refine keeps_upHed H1 ?_ | refine keeps_badParam
    | refine keeps_Verdict_ok ?_ | refine keeps_ctxGive H2 ?_ | split | dsimp only

theorem keeps_execHedDelEntry {P : State → Prop} {h : Hdr} {p : Bytes} {s : State} (H : Keeps P 0x6c00757) (h2 : P s) : ResAll P
    (execHedDelEntry h p s) := by
  have H1 : Keeps P 0x600 := H.mono rfl
  have H2 : Keeps P 0x6c00557 := H.mono rfl
  unfold execHedDelEntry
  with_reducible repeat' first
    | assumption | intro _ | refine res_next ?_ | refine keeps_opHedDelEntry H1
    | refine res_get ‹_ = Host.Outcome.next _› (keeps_runPkt H2 ?_ ?_) | refine keeps_runPkt H2 ?_ ?_ | split | dsimp only

theorem keeps_opSetPacketRing {P : State → Prop} (H : Keeps P 0x200) : SpecAll P opSetPacketRing := by
  refine ⟨fun _ _ _ _ _ => ?_, fun _ _ _ _ => ?_⟩ <;> dsimp only [opSetPacketRing]
  with_reducible repeat' first
    | assumption | intro _ | exact VAll.refuse _ _ | exact VAll.refuseAt _ _ _ | refine VAll.done _ _ _ _ ?_
    | refine VAll.doneAs _ _ _ _ _ ?_ | refine VAll.wait _ _ _ ?_ | refine keeps_upHed H ?_ | refine keeps_Verdict_ok ?_ | split
    | dsimp only

theorem keeps_execSetPacketRing {P : State → Prop} {h : Hdr} {p : Bytes} {s : State} (H : Keeps P 0x6c00757) (h2 : P s) : ResAll P
    (execSetPacketRing h p s) := by
  have H1 : Keeps P 0x200 := H.mono rfl
  have H2 : Keeps P 0x6c00557 := H.mono rfl
  unfold execSetPacketRing
  with_reducible repeat' first
    | assumption | intro _ | refine res_next ?_ | refine keeps_opSetPacketRing H1
    | refine res_get ‹_ = Host.Outcome.next _› (keeps_runPkt H2 ?_ ?_) | refine keeps_runPkt H2 ?_ ?_ | split | dsimp only

theorem keeps_cmdHed {P : State → Prop} {opcode : Nat} {h : Hdr} {p : Bytes} {s : State} (H : Keeps P 0x6f00757) (h3 : P s) : ResAll P
    (cmdHed opcode h p s) := by
  have H1 : Keeps P 0x6c00757 := H.mono rfl
  have H2 : Keeps P 0x6f00557 := H.mono rfl
  unfold cmdHed
  with_reducible repeat' first
    | assumption | intro _ | refine res_next ?_ | refine res_get ‹_ = Host.Outcome.next _› (keeps_execSetPacketRing H1 ?_)
    | refine keeps_execSetPacketRing H1 ?_ | refine res_get ‹_ = Host.Outcome.next _› (keeps_execHedDelEntry H1 ?_)
    | refine keeps_execHedDelEntry H1 ?_ | refine res_get ‹_ = Host.Outcome.next _› (keeps_execHedAddEntry H1 ?_)
    | refine keeps_execHedAddEntry H1 ?_ | refine res_get ‹_ = Host.Outcome.next _› (keeps_execHedSetTable H1 ?_)
    | refine keeps_execHedSetTable H1 ?_ | refine res_get ‹_ = Host.Outcome.next _› (keeps_execHedLoadGraph H1 ?_)
    | refine keeps_execHedLoadGraph H1 ?_ | refine res_get ‹_ = Host.Outcome.next _› (keeps_execOther H2 ?_) | refine keeps_execOther H2 ?_
    | split | dsimp only

theorem keeps_cmdCip {P : State → Prop} {opcode : Nat} {h : Hdr} {p : Bytes} {s : State} (H : Keeps P 0x6f00d57) (h3 : P s) : ResAll P
    (cmdCip opcode h p s) := by
  have H1 : Keeps P 0x6f00557 := H.mono rfl
  have H2 : Keeps P 0x6c00d57 := H.mono rfl
  unfold cmdCip
  with_reducible repeat' first
    | assumption | intro _ | refine res_next ?_ | refine res_get ‹_ = Host.Outcome.next _› (keeps_execOther H1 ?_)
    | refine keeps_execOther H1 ?_ | refine res_get ‹_ = Host.Outcome.next _› (keeps_execCipCrypt H2 ?_) | refine keeps_execCipCrypt H2 ?_
    | refine res_get ‹_ = Host.Outcome.next _› (keeps_execCipClearPage H2 ?_) | refine keeps_execCipClearPage H2 ?_
    | refine res_get ‹_ = Host.Outcome.next _› (keeps_execCipLoadKey H2 ?_) | refine keeps_execCipLoadKey H2 ?_
    | refine res_get ‹_ = Host.Outcome.next _› (keeps_execCipAssignPages H2 ?_) | refine keeps_execCipAssignPages H2 ?_ | split
    | dsimp only

theorem keeps_takeQps {P : State → Prop} {q : Qp} {a : Nat} {x2 : State} (H : Keeps P 0x4c00511) (h2 : P x2) : OptAll (fun x => P x.2)
    (takeQps q a x2) := by
  induction a generalizing q x2 with
  | zero =>
    unfold takeQps
    with_reducible repeat' first
      | assumption | intro _ | exact opt_none | refine opt_some ?_ | refine opt_map2 (P := P) ?_ ?_ | refine opt_map ?_
      | refine opt_get2 ‹_ = some (_, _)› (keeps_qpAlloc H ?_) | refine keeps_qpAlloc H ?_ | split | dsimp only
  | succ _ ih =>
    unfold takeQps
    with_reducible repeat' first
      | assumption | intro _ | refine opt_get2 ‹_ = some (_, _)› (ih ?_) | refine ih ?_ | exact opt_none | refine opt_some ?_
      | refine opt_map2 (P := P) ?_ ?_ | refine opt_map ?_ | refine opt_get2 ‹_ = some (_, _)› (keeps_qpAlloc H ?_)
      | refine keeps_qpAlloc H ?_ | split | dsimp only

theorem keeps_opConnectTarget {P : State → Prop} (H : Keeps P 0x4c00591) : SpecAll P opConnectTarget := by
  have H1 : Keeps P 0x80 := H.mono rfl
  have H2 : Keeps P 0x4c00511 := H.mono rfl
  have H3 : Keeps P 0x1 := H.mono rfl
  refine ⟨fun _ _ _ _ _ => ?_, fun _ _ _ _ => ?_⟩ <;> dsimp only [opConnectTarget]
  with_reducible repeat' first
    | assumption | intro _ | exact VAll.refuse _ _ | exact VAll.refuseAt _ _ _ | refine VAll.done _ _ _ _ ?_
    | refine VAll.doneAs _ _ _ _ _ ?_ | refine VAll.wait _ _ _ ?_ | refine keeps_upSto H1 ?_
    | refine opt_get2 ‹_ = some (_, _)› (keeps_takeQps H2 ?_) | refine keeps_takeQps H2 ?_ | refine keeps_noResource
    | refine keeps_emit H3 ?_ | split | dsimp only

theorem keeps_execConnectTarget {P : State → Prop} {h : Hdr} {p : Bytes} {s : State} (H : Keeps P 0x6c005d7) (h2 : P s) : ResAll P
    (execConnectTarget h p s) := by
  have H1 : Keeps P 0x4c00591 := H.mono rfl
  have H2 : Keeps P 0x6c00557 := H.mono rfl
  unfold execConnectTarget
  with_reducible repeat' first
    | assumption | intro _ | refine res_next ?_ | refine keeps_opConnectTarget H1
    | refine res_get ‹_ = Host.Outcome.next _› (keeps_runPkt H2 ?_ ?_) | refine keeps_runPkt H2 ?_ ?_ | split | dsimp only

theorem keeps_opDisconnectTarget {P : State → Prop} (H : Keeps P 0x580) : SpecAll P opDisconnectTarget := by
  have H1 : Keeps P 0x80 := H.mono rfl
  have H2 : Keeps P 0x500 := H.mono rfl
  refine ⟨fun _ _ _ _ _ => ?_, fun _ _ _ _ => ?_⟩ <;> dsimp only [opDisconnectTarget]
  with_reducible repeat' first
    | assumption | intro _ | exact VAll.refuse _ _ | exact VAll.refuseAt _ _ _ | refine VAll.done _ _ _ _ ?_
    | refine VAll.doneAs _ _ _ _ _ ?_ | refine VAll.wait _ _ _ ?_ | refine keeps_foldl ?_ ?_ | refine keeps_upSto H1 ?_
    | refine keeps_badParam | refine keeps_Verdict_ok ?_ | refine keeps_qpFree H2 ?_ | split | dsimp only

theorem keeps_execDisconnectTarget {P : State → Prop} {h : Hdr} {p : Bytes} {s : State} (H : Keeps P 0x6c005d7) (h2 : P s) : ResAll P
    (execDisconnectTarget h p s) := by
  have H1 : Keeps P 0x580 := H.mono rfl
  have H2 : Keeps P 0x6c00557 := H.mono rfl
  unfold execDisconnectTarget
  with_reducible repeat' first
    | assumption | intro _ | refine res_next ?_ | refine keeps_opDisconnectTarget H1
    | refine res_get ‹_ = Host.Outcome.next _› (keeps_runPkt H2 ?_ ?_) | refine keeps_runPkt H2 ?_ ?_ | split | dsimp only

theorem keeps_opAttachNamespace {P : State → Prop} {data : Bytes} (H : Keeps P 0x4c00191) : SpecAll P (opAttachNamespace data) := by
  have H1 : Keeps P 0x80 := H.mono rfl
  have H2 : Keeps P 0x81 := H.mono rfl
  refine ⟨fun _ _ _ _ _ => ?_, fun _ _ _ _ => ?_⟩ <;> dsimp only [opAttachNamespace]
  with_reducible repeat' first
    | assumption | intro _ | exact VAll.refuse _ _ | exact VAll.refuseAt _ _ _ | refine VAll.done _ _ _ _ ?_
    | refine VAll.doneAs _ _ _ _ _ ?_ | refine VAll.wait _ _ _ ?_ | refine keeps_upSto H1 ?_ | refine keeps_stoRefresh H2 ?_
    | refine keeps_badParam | refine keeps_noResource | refine keeps_nsChanged H ?_ | split | dsimp only

theorem keeps_execAttachNamespace {P : State → Prop} {h : Hdr} {p : Bytes} {data : Bytes} {s : State} (H : Keeps P 0x6c005d7) (h3 : P s) :
    ResAll P (execAttachNamespace h p data s) := by
  have H1 : Keeps P 0x4c00191 := H.mono rfl
  have H2 : Keeps P 0x6c00557 := H.mono rfl
  unfold execAttachNamespace
  with_reducible repeat' first
    | assumption | intro _ | refine res_next ?_ | refine keeps_opAttachNamespace H1
    | refine res_get ‹_ = Host.Outcome.next _› (keeps_runPkt H2 ?_ ?_) | refine keeps_runPkt H2 ?_ ?_ | split | dsimp only

theorem keeps_opDetachNamespace {P : State → Prop} (H : Keeps P 0x80) : SpecAll P opDetachNamespace := by
  refine ⟨fun _ _ _ _ _ => ?_, fun _ _ _ _ => ?_⟩ <;> dsimp only [opDetachNamespace]
  with_reducible repeat' first
    | assumption | intro _ | exact VAll.refuse _ _ | exact VAll.refuseAt _ _ _ | refine VAll.done _ _ _ _ ?_
    | refine VAll.doneAs _ _ _ _ _ ?_ | refine VAll.wait _ _ _ ?_ | refine keeps_badParam | refine keeps_upNs H ?_ | split | dsimp only

theorem keeps_execDetachNamespace {P : State → Prop} {h : Hdr} {p : Bytes} {s : State} (H : Keeps P 0x6c00dd7) (h2 : P s) : ResAll P
    (execDetachNamespace h p s) := by
  have H1 : Keeps P 0x80 := H.mono rfl
  have H2 : Keeps P 0x6c00557 := H.mono rfl
  have H3 : Keeps P 0x6c00dd3 := H.mono rfl
  unfold execDetachNamespace
  with_reducible repeat' first
    | assumption | intro _ | refine res_next ?_ | refine keeps_opDetachNamespace H1
    | refine res_get ‹_ = Host.Outcome.next _› (keeps_runPkt H2 ?_ ?_) | refine keeps_runPkt H2 ?_ ?_ | refine keeps_stoSettle H3 ?_
    | split | dsimp only

theorem keeps_opSetNsMode {P : State → Prop} (H : Keeps P 0xc0) : SpecAll P opSetNsMode := by
  have H1 : Keeps P 0x80 := H.mono rfl
  have H2 : Keeps P 0x40 := H.mono rfl
  refine ⟨fun _ _ _ _ _ => ?_, fun _ _ _ _ => ?_⟩ <;> dsimp only [opSetNsMode]
  with_reducible repeat' first
    | assumption | intro _ | exact VAll.refuse _ _ | exact VAll.refuseAt _ _ _ | refine VAll.done _ _ _ _ ?_
    | refine VAll.doneAs _ _ _ _ _ ?_ | refine VAll.wait _ _ _ ?_ | refine keeps_applyNsMode H1 ?_ | refine keeps_setting H2 ?_ ?_
    | refine opt_ver ‹_ = some _› (keeps_settingStop ?_) | refine keeps_settingStop ?_ | refine keeps_badParam | split | dsimp only

theorem keeps_execSetNsMode {P : State → Prop} {h : Hdr} {p : Bytes} {s : State} (H : Keeps P 0x6c005d7) (h2 : P s) : ResAll P
    (execSetNsMode h p s) := by
  have H1 : Keeps P 0xc0 := H.mono rfl
  have H2 : Keeps P 0x6c00557 := H.mono rfl
  unfold execSetNsMode
  with_reducible repeat' first
    | assumption | intro _ | refine res_next ?_ | refine keeps_opSetNsMode H1
    | refine res_get ‹_ = Host.Outcome.next _› (keeps_runPkt H2 ?_ ?_) | refine keeps_runPkt H2 ?_ ?_ | split | dsimp only

theorem keeps_opSetWbQuota {P : State → Prop} (H : Keeps P 0x80) : SpecAll P opSetWbQuota := by
  refine ⟨fun _ _ _ _ _ => ?_, fun _ _ _ _ => ?_⟩ <;> dsimp only [opSetWbQuota]
  with_reducible repeat' first
    | assumption | intro _ | exact VAll.refuse _ _ | exact VAll.refuseAt _ _ _ | refine VAll.done _ _ _ _ ?_
    | refine VAll.doneAs _ _ _ _ _ ?_ | refine VAll.wait _ _ _ ?_ | refine keeps_Verdict_ok ?_ | refine keeps_noResource
    | refine keeps_upCtrl H ?_ | split | dsimp only

theorem keeps_execSetWbQuota {P : State → Prop} {h : Hdr} {p : Bytes} {s : State} (H : Keeps P 0x6c005d7) (h2 : P s) : ResAll P
    (execSetWbQuota h p s) := by
  have H1 : Keeps P 0x80 := H.mono rfl
  have H2 : Keeps P 0x6c00557 := H.mono rfl
  unfold execSetWbQuota
  with_reducible repeat' first
    | assumption | intro _ | refine res_next ?_ | refine keeps_opSetWbQuota H1
    | refine res_get ‹_ = Host.Outcome.next _› (keeps_runPkt H2 ?_ ?_) | refine keeps_runPkt H2 ?_ ?_ | split | dsimp only

theorem keeps_opGetNsStatus {P : State → Prop} : SpecAll P opGetNsStatus := by
  refine ⟨fun _ _ _ _ _ => ?_, fun _ _ _ _ => ?_⟩ <;> dsimp only [opGetNsStatus]
  with_reducible repeat' first
    | assumption | intro _ | exact VAll.refuse _ _ | exact VAll.refuseAt _ _ _ | refine VAll.done _ _ _ _ ?_
    | refine VAll.doneAs _ _ _ _ _ ?_ | refine VAll.wait _ _ _ ?_ | refine keeps_badParam | split | dsimp only

theorem keeps_execGetNsStatus {P : State → Prop} {h : Hdr} {p : Bytes} {s : State} (H : Keeps P 0x6c00557) (h2 : P s) : ResAll P
    (execGetNsStatus h p s) := by
  unfold execGetNsStatus
  with_reducible repeat' first
    | assumption | intro _ | refine res_next ?_ | refine keeps_opGetNsStatus
    | refine res_get ‹_ = Host.Outcome.next _› (keeps_runPkt H ?_ ?_) | refine keeps_runPkt H ?_ ?_ | split | dsimp only

theorem keeps_opDiscardDirty {P : State → Prop} (H : Keeps P 0x6c00dd3) : SpecAll P opDiscardDirty := by
  have H1 : Keeps P 0x80 := H.mono rfl
  have H2 : Keeps P 0x81 := H.mono rfl
  refine ⟨fun _ _ _ _ _ => ?_, fun _ _ _ _ => ?_⟩ <;> dsimp only [opDiscardDirty]
  with_reducible repeat' first
    | assumption | intro _ | exact VAll.refuse _ _ | exact VAll.refuseAt _ _ _ | refine VAll.done _ _ _ _ ?_
    | refine VAll.doneAs _ _ _ _ _ ?_ | refine VAll.wait _ _ _ ?_ | refine keeps_foldl ?_ ?_ | refine keeps_upSto H1 ?_
    | refine keeps_stoRefresh H2 ?_ | refine keeps_badParam | refine keeps_Verdict_ok ?_ | refine keeps_badState
    | refine keeps_stoSettle H ?_ | refine keeps_upNs H1 ?_ | split | dsimp only

theorem keeps_execDiscardDirty {P : State → Prop} {h : Hdr} {p : Bytes} {s : State} (H : Keeps P 0x6c00dd7) (h2 : P s) : ResAll P
    (execDiscardDirty h p s) := by
  have H1 : Keeps P 0x6c00dd3 := H.mono rfl
  have H2 : Keeps P 0x6c00557 := H.mono rfl
  unfold execDiscardDirty
  with_reducible repeat' first
    | assumption | intro _ | refine res_next ?_ | refine keeps_opDiscardDirty H1
    | refine res_get ‹_ = Host.Outcome.next _› (keeps_runPkt H2 ?_ ?_) | refine keeps_runPkt H2 ?_ ?_ | split | dsimp only

theorem keeps_cmdSto {P : State → Prop} {opcode : Nat} {h : Hdr} {p : Bytes} {data : Bytes} {s : State} (H : Keeps P 0x6f00dd7) (h4 : P s) :
    ResAll P (cmdSto opcode h p data s) := by
  have H1 : Keeps P 0x6c00dd7 := H.mono rfl
  have H2 : Keeps P 0x6c00557 := H.mono rfl
  have H3 : Keeps P 0x6c005d7 := H.mono rfl
  have H4 : Keeps P 0x6f00557 := H.mono rfl
  unfold cmdSto
  with_reducible repeat' first
    | assumption | intro _ | refine res_next ?_ | refine res_get ‹_ = Host.Outcome.next _› (keeps_execDiscardDirty H1 ?_)
    | refine keeps_execDiscardDirty H1 ?_ | refine res_get ‹_ = Host.Outcome.next _› (keeps_execGetNsStatus H2 ?_)
    | refine keeps_execGetNsStatus H2 ?_ | refine res_get ‹_ = Host.Outcome.next _› (keeps_execSetWbQuota H3 ?_)
    | refine keeps_execSetWbQuota H3 ?_ | refine res_get ‹_ = Host.Outcome.next _› (keeps_execSetNsMode H3 ?_)
    | refine keeps_execSetNsMode H3 ?_ | refine res_get ‹_ = Host.Outcome.next _› (keeps_execDetachNamespace H1 ?_)
    | refine keeps_execDetachNamespace H1 ?_ | refine res_get ‹_ = Host.Outcome.next _› (keeps_execAttachNamespace H3 ?_)
    | refine keeps_execAttachNamespace H3 ?_ | refine res_get ‹_ = Host.Outcome.next _› (keeps_execDisconnectTarget H3 ?_)
    | refine keeps_execDisconnectTarget H3 ?_ | refine res_get ‹_ = Host.Outcome.next _› (keeps_execConnectTarget H3 ?_)
    | refine keeps_execConnectTarget H3 ?_ | refine res_get ‹_ = Host.Outcome.next _› (keeps_execOther H4 ?_)
    | refine keeps_execOther H4 ?_ | split | dsimp only

theorem keeps_cmdCkp {P : State → Prop} {opcode : Nat} {h : Hdr} {p : Bytes} {s : State} (H : Keeps P 0x7fb05d7) (h3 : P s) : ResAll P
    (cmdCkp opcode h p s) := by
  have H1 : Keeps P 0x6f00557 := H.mono rfl
  have H2 : Keeps P 0x6c00557 := H.mono rfl
  have H3 : Keeps P 0x6ca05d7 := H.mono rfl
  have H4 : Keeps P 0x7c00557 := H.mono rfl
  have H5 : Keeps P 0x6cb0557 := H.mono rfl
  have H6 : Keeps P 0x6cb05d7 := H.mono rfl
  have H7 : Keeps P 0x6c80557 := H.mono rfl
  unfold cmdCkp
  with_reducible repeat' first
    | assumption | intro _ | refine res_next ?_ | refine res_get ‹_ = Host.Outcome.next _› (keeps_execOther H1 ?_)
    | refine keeps_execOther H1 ?_ | refine res_get ‹_ = Host.Outcome.next _› (keeps_execCkpReadBank H2 ?_)
    | refine keeps_execCkpReadBank H2 ?_ | refine res_get ‹_ = Host.Outcome.next _› (keeps_execCkpCloseJob H3 ?_)
    | refine keeps_execCkpCloseJob H3 ?_ | refine res_get ‹_ = Host.Outcome.next _› (keeps_execCkpSetSigners H4 ?_)
    | refine keeps_execCkpSetSigners H4 ?_ | refine res_get ‹_ = Host.Outcome.next _› (keeps_execCkpRestore H5 ?_)
    | refine keeps_execCkpRestore H5 ?_ | refine res_get ‹_ = Host.Outcome.next _› (keeps_execCkpGetJob H2 ?_)
    | refine keeps_execCkpGetJob H2 ?_ | refine res_get ‹_ = Host.Outcome.next _› (keeps_execCkpCapture H6 ?_)
    | refine keeps_execCkpCapture H6 ?_ | refine res_get ‹_ = Host.Outcome.next _› (keeps_execCkpSetTrigger H7 ?_)
    | refine keeps_execCkpSetTrigger H7 ?_ | refine res_get ‹_ = Host.Outcome.next _› (keeps_execCkpSetShards H5 ?_)
    | refine keeps_execCkpSetShards H5 ?_ | refine res_get ‹_ = Host.Outcome.next _› (keeps_execCkpSetJob H7 ?_)
    | refine keeps_execCkpSetJob H7 ?_ | split | dsimp only

theorem keeps_opObsSetSnapArea {P : State → Prop} (H : Keeps P 0x4000000) : SpecAll P opObsSetSnapArea := by
  refine ⟨fun _ _ _ _ _ => ?_, fun _ _ _ _ => ?_⟩ <;> dsimp only [opObsSetSnapArea]
  with_reducible repeat' first
    | assumption | intro _ | exact VAll.refuse _ _ | exact VAll.refuseAt _ _ _ | refine VAll.done _ _ _ _ ?_
    | refine VAll.doneAs _ _ _ _ _ ?_ | refine VAll.wait _ _ _ ?_ | refine keeps_upObs H ?_ | refine keeps_Verdict_ok ?_ | split
    | dsimp only

theorem keeps_execObsSetSnapArea {P : State → Prop} {h : Hdr} {p : Bytes} {s : State} (H : Keeps P 0x6c00557) (h2 : P s) : ResAll P
    (execObsSetSnapArea h p s) := by
  have H1 : Keeps P 0x4000000 := H.mono rfl
  unfold execObsSetSnapArea
  with_reducible repeat' first
    | assumption | intro _ | refine res_next ?_ | refine keeps_opObsSetSnapArea H1
    | refine res_get ‹_ = Host.Outcome.next _› (keeps_runPkt H ?_ ?_) | refine keeps_runPkt H ?_ ?_ | split | dsimp only

theorem keeps_opObsSnapHead {P : State → Prop} (H : Keeps P 0x4000000) : SpecAll P opObsSnapHead := by
  refine ⟨fun _ _ _ _ _ => ?_, fun _ _ _ _ => ?_⟩ <;> dsimp only [opObsSnapHead]
  with_reducible repeat' first
    | assumption | intro _ | exact VAll.refuse _ _ | exact VAll.refuseAt _ _ _ | refine VAll.done _ _ _ _ ?_
    | refine VAll.doneAs _ _ _ _ _ ?_ | refine VAll.wait _ _ _ ?_ | refine keeps_upObs H ?_ | refine keeps_badParam
    | refine keeps_Verdict_ok ?_ | refine keeps_badState | split | dsimp only

theorem keeps_execObsSnapHead {P : State → Prop} {h : Hdr} {p : Bytes} {s : State} (H : Keeps P 0x6c00557) (h2 : P s) : ResAll P
    (execObsSnapHead h p s) := by
  have H1 : Keeps P 0x4000000 := H.mono rfl
  unfold execObsSnapHead
  with_reducible repeat' first
    | assumption | intro _ | refine res_next ?_ | refine keeps_opObsSnapHead H1
    | refine res_get ‹_ = Host.Outcome.next _› (keeps_runPkt H ?_ ?_) | refine keeps_runPkt H ?_ ?_ | split | dsimp only

theorem keeps_opObsSetCounter {P : State → Prop} (H : Keeps P 0x4000000) : SpecAll P opObsSetCounter := by
  refine ⟨fun _ _ _ _ _ => ?_, fun _ _ _ _ => ?_⟩ <;> dsimp only [opObsSetCounter]
  with_reducible repeat' first
    | assumption | intro _ | exact VAll.refuse _ _ | exact VAll.refuseAt _ _ _ | refine VAll.done _ _ _ _ ?_
    | refine VAll.doneAs _ _ _ _ _ ?_ | refine VAll.wait _ _ _ ?_ | refine keeps_upObs H ?_ | refine keeps_badParam
    | refine keeps_Verdict_ok ?_ | split | dsimp only

theorem keeps_execObsSetCounter {P : State → Prop} {h : Hdr} {p : Bytes} {s : State} (H : Keeps P 0x6c00557) (h2 : P s) : ResAll P
    (execObsSetCounter h p s) := by
  have H1 : Keeps P 0x4000000 := H.mono rfl
  unfold execObsSetCounter
  with_reducible repeat' first
    | assumption | intro _ | refine res_next ?_ | refine keeps_opObsSetCounter H1
    | refine res_get ‹_ = Host.Outcome.next _› (keeps_runPkt H ?_ ?_) | refine keeps_runPkt H ?_ ?_ | split | dsimp only

theorem keeps_opObsTraceCfg {P : State → Prop} (H : Keeps P 0x4000000) : SpecAll P opObsTraceCfg := by
  refine ⟨fun _ _ _ _ _ => ?_, fun _ _ _ _ => ?_⟩ <;> dsimp only [opObsTraceCfg]
  with_reducible repeat' first
    | assumption | intro _ | exact VAll.refuse _ _ | exact VAll.refuseAt _ _ _ | refine VAll.done _ _ _ _ ?_
    | refine VAll.doneAs _ _ _ _ _ ?_ | refine VAll.wait _ _ _ ?_ | refine keeps_upObs H ?_ | refine keeps_Verdict_ok ?_
    | refine keeps_badState | split | dsimp only

theorem keeps_execObsTraceCfg {P : State → Prop} {h : Hdr} {p : Bytes} {s : State} (H : Keeps P 0x6c00557) (h2 : P s) : ResAll P
    (execObsTraceCfg h p s) := by
  have H1 : Keeps P 0x4000000 := H.mono rfl
  unfold execObsTraceCfg
  with_reducible repeat' first
    | assumption | intro _ | refine res_next ?_ | refine keeps_opObsTraceCfg H1
    | refine res_get ‹_ = Host.Outcome.next _› (keeps_runPkt H ?_ ?_) | refine keeps_runPkt H ?_ ?_ | split | dsimp only

theorem keeps_opObsTraceStart {P : State → Prop} (H : Keeps P 0x4000000) : SpecAll P opObsTraceStart := by
  refine ⟨fun _ _ _ _ _ => ?_, fun _ _ _ _ => ?_⟩ <;> dsimp only [opObsTraceStart]
  with_reducible repeat' first
    | assumption | intro _ | exact VAll.refuse _ _ | exact VAll.refuseAt _ _ _ | refine VAll.done _ _ _ _ ?_
    | refine VAll.doneAs _ _ _ _ _ ?_ | refine VAll.wait _ _ _ ?_ | refine keeps_upObs H ?_ | refine keeps_Verdict_ok ?_ | split
    | dsimp only

theorem keeps_execObsTraceStart {P : State → Prop} {h : Hdr} {p : Bytes} {s : State} (H : Keeps P 0x6c00557) (h2 : P s) : ResAll P
    (execObsTraceStart h p s) := by
  have H1 : Keeps P 0x4000000 := H.mono rfl
  unfold execObsTraceStart
  with_reducible repeat' first
    | assumption | intro _ | refine res_next ?_ | refine keeps_opObsTraceStart H1
    | refine res_get ‹_ = Host.Outcome.next _› (keeps_runPkt H ?_ ?_) | refine keeps_runPkt H ?_ ?_ | split | dsimp only

theorem keeps_opObsTraceStop {P : State → Prop} (H : Keeps P 0x4000000) : SpecAll P opObsTraceStop := by
  refine ⟨fun _ _ _ _ _ => ?_, fun _ _ _ _ => ?_⟩ <;> dsimp only [opObsTraceStop]
  with_reducible repeat' first
    | assumption | intro _ | exact VAll.refuse _ _ | exact VAll.refuseAt _ _ _ | refine VAll.done _ _ _ _ ?_
    | refine VAll.doneAs _ _ _ _ _ ?_ | refine VAll.wait _ _ _ ?_ | refine keeps_upObs H ?_ | refine keeps_Verdict_ok ?_ | split
    | dsimp only

theorem keeps_execObsTraceStop {P : State → Prop} {h : Hdr} {p : Bytes} {s : State} (H : Keeps P 0x6c00557) (h2 : P s) : ResAll P
    (execObsTraceStop h p s) := by
  have H1 : Keeps P 0x4000000 := H.mono rfl
  unfold execObsTraceStop
  with_reducible repeat' first
    | assumption | intro _ | refine res_next ?_ | refine keeps_opObsTraceStop H1
    | refine res_get ‹_ = Host.Outcome.next _› (keeps_runPkt H ?_ ?_) | refine keeps_runPkt H ?_ ?_ | split | dsimp only

theorem keeps_opObsTrigger {P : State → Prop} (H : Keeps P 0x4000112) : SpecAll P opObsTrigger := by
  refine ⟨fun _ _ _ _ _ => ?_, fun _ _ _ _ => ?_⟩ <;> dsimp only [opObsTrigger]
  with_reducible repeat' first
    | assumption | intro _ | exact VAll.refuse _ _ | exact VAll.refuseAt _ _ _ | refine VAll.done _ _ _ _ ?_
    | refine VAll.doneAs _ _ _ _ _ ?_ | refine VAll.wait _ _ _ ?_ | refine keeps_triggerInput H ?_ | refine keeps_Verdict_ok ?_
    | refine keeps_badState | split | dsimp only

theorem keeps_execObsTrigger {P : State → Prop} {h : Hdr} {p : Bytes} {s : State} (H : Keeps P 0x6c00557) (h2 : P s) : ResAll P
    (execObsTrigger h p s) := by
  have H1 : Keeps P 0x4000112 := H.mono rfl
  unfold execObsTrigger
  with_reducible repeat' first
    | assumption | intro _ | refine res_next ?_ | refine keeps_opObsTrigger H1
    | refine res_get ‹_ = Host.Outcome.next _› (keeps_runPkt H ?_ ?_) | refine keeps_runPkt H ?_ ?_ | split | dsimp only

theorem keeps_opObsTraceRead {P : State → Prop} (H : Keeps P 0x4800001) : SpecAll P opObsTraceRead := by
  refine ⟨fun _ _ _ _ _ => ?_, fun _ _ _ _ => ?_⟩ <;> dsimp only [opObsTraceRead]
  with_reducible repeat' first
    | assumption | intro _ | exact VAll.refuse _ _ | exact VAll.refuseAt _ _ _ | refine VAll.done _ _ _ _ ?_
    | refine VAll.doneAs _ _ _ _ _ ?_ | refine VAll.wait _ _ _ ?_ | refine keeps_badState | refine keeps_hostWrite H ?_ | split
    | dsimp only

theorem keeps_execObsTraceRead {P : State → Prop} {h : Hdr} {p : Bytes} {s : State} (H : Keeps P 0x6c00557) (h2 : P s) : ResAll P
    (execObsTraceRead h p s) := by
  have H1 : Keeps P 0x4800001 := H.mono rfl
  unfold execObsTraceRead
  with_reducible repeat' first
    | assumption | intro _ | refine res_next ?_ | refine keeps_opObsTraceRead H1
    | refine res_get ‹_ = Host.Outcome.next _› (keeps_runPkt H ?_ ?_) | refine keeps_runPkt H ?_ ?_ | split | dsimp only

theorem keeps_opObsTableau {P : State → Prop} (H : Keeps P 0x110) : SpecAll P opObsTableau := by
  refine ⟨fun _ _ _ _ _ => ?_, fun _ _ _ _ => ?_⟩ <;> dsimp only [opObsTableau]
  with_reducible repeat' first
    | assumption | intro _ | exact VAll.refuse _ _ | exact VAll.refuseAt _ _ _ | refine VAll.done _ _ _ _ ?_
    | refine VAll.doneAs _ _ _ _ _ ?_ | refine VAll.wait _ _ _ ?_ | refine keeps_enterTableau H ?_ | split | dsimp only

theorem keeps_execObsTableau {P : State → Prop} {h : Hdr} {p : Bytes} {s : State} (H : Keeps P 0x6c00557) (h2 : P s) : ResAll P
    (execObsTableau h p s) := by
  have H1 : Keeps P 0x110 := H.mono rfl
  unfold execObsTableau
  with_reducible repeat' first
    | assumption | intro _ | refine res_next ?_ | refine keeps_opObsTableau H1
    | refine res_get ‹_ = Host.Outcome.next _› (keeps_runPkt H ?_ ?_) | refine keeps_runPkt H ?_ ?_ | split | dsimp only

theorem keeps_vfStatReg {P : State → Prop} {s : State} {v : Nat} (H : Keeps P 0x800000) (h0 : P s) : RegAll P (State.vfStatReg s v) := by
  unfold State.vfStatReg
  with_reducible repeat' first
    | assumption | intro _ | exact opt_none | refine opt_some ?_ | refine keeps_upVf H ?_ | refine RegAll.mk ?_ ?_ ?_ | split | dsimp only

theorem keeps_smReg {P : State → Prop} {s : State} {off : Nat} (h0 : P s) : OptAll (RegAll P) (State.smReg s off) := by
  unfold State.smReg
  with_reducible repeat' first
    | assumption | intro _ | exact opt_none | refine opt_some ?_ | refine RegAll.mk ?_ ?_ ?_ | split | dsimp only

theorem keeps_sensReg {P : State → Prop} {s : State} {n : Nat} (h0 : P s) : RegAll P (State.sensReg s n) := by
  unfold State.sensReg
  with_reducible repeat' first
    | assumption | intro _ | exact opt_none | refine opt_some ?_ | refine opt_ite ?_ ?_ | refine RegAll.mk ?_ ?_ ?_ | split | dsimp only

theorem keeps_msixReg {P : State → Prop} {s : State} {k : Nat} {second : Bool} (H : Keeps P 0x4400111) (h0 : P s) : RegAll P (State.msixReg
    s k second) := by
  have H1 : Keeps P 0x400000 := H.mono rfl
  unfold State.msixReg
  with_reducible repeat' first
    | assumption | intro _ | exact opt_none | refine opt_some ?_ | refine opt_ite ?_ ?_ | refine keeps_sendHeld H ?_
    | refine keeps_upVec H1 ?_ | refine RegAll.mk ?_ ?_ ?_ | split | dsimp only

theorem keeps_pbaReg {P : State → Prop} {s : State} {fn : Nat} {w : Nat} (h0 : P s) : RegAll P (State.pbaReg s fn w) := by
  unfold State.pbaReg
  with_reducible repeat' first
    | assumption | intro _ | exact opt_none | refine opt_some ?_ | refine RegAll.mk ?_ ?_ ?_ | split | dsimp only

theorem keeps_mboxRefuse {P : State → Prop} {s : State} {v : Nat} (H : Keeps P 0x800000) (h0 : P s) : P (State.mboxRefuse s v) := by
  unfold State.mboxRefuse
  with_reducible repeat' first
    | assumption | intro _ | refine keeps_upVf H ?_ | split | dsimp only

theorem keeps_mboxReg {P : State → Prop} {s : State} {fn : Nat} {v : Nat} {mgr : Bool} {o : Nat} (H : Keeps P 0x800000) (h0 : P s) : RegAll
    P (State.mboxReg s fn v mgr o) := by
  unfold State.mboxReg
  with_reducible repeat' first
    | assumption | intro _ | exact opt_none | refine opt_some ?_ | refine opt_ite ?_ ?_ | refine keeps_mboxRefuse H ?_
    | refine keeps_upVf H ?_ | refine RegAll.mk ?_ ?_ ?_ | split | dsimp only

theorem keeps_glbReg {P : State → Prop} {s : State} {off : Nat} (H : Keeps P 0x4c00119) (h0 : P s) : OptAll (RegAll P) (State.glbReg s off)
    := by
  have H1 : Keeps P 0x8 := H.mono rfl
  have H2 : Keeps P 0x800000 := H.mono rfl
  have H3 : Keeps P 0x4400111 := H.mono rfl
  unfold State.glbReg
  with_reducible repeat' first
    | assumption | intro _ | exact opt_none | refine opt_some ?_ | refine opt_map2 (P := P) ?_ ?_ | refine opt_map ?_
    | refine opt_ite ?_ ?_ | refine keeps_upGlb H1 ?_ | refine keeps_mboxReg H2 ?_ | refine keeps_pbaReg ?_ | refine keeps_msixReg H3 ?_
    | refine keeps_sensReg ?_ | refine opt_reg ‹_ = some _› (keeps_smReg ?_) | refine keeps_smReg ?_ | refine keeps_vfStatReg H2 ?_
    | refine RegAll.mk ?_ ?_ ?_ | split | dsimp only

theorem keeps_cueReg {P : State → Prop} {s : State} {off : Nat} (H : Keeps P 0x20) (h0 : P s) : OptAll (RegAll P) (State.cueReg s off) := by
  unfold State.cueReg
  with_reducible repeat' first
    | assumption | intro _ | exact opt_none | refine opt_some ?_ | refine keeps_upCue H ?_ | refine RegAll.mk ?_ ?_ ?_ | split | dsimp only

theorem keeps_panelReg {P : State → Prop} {s : State} {srcs : List Nat} {o : Nat} (h0 : P s) : OptAll (RegAll P) (State.panelReg s srcs o)
    := by
  unfold State.panelReg
  with_reducible repeat' first
    | assumption | intro _ | exact opt_none | refine opt_some ?_ | refine opt_ite ?_ ?_ | refine RegAll.mk ?_ ?_ ?_ | split | dsimp only

theorem keeps_callSrcReg {P : State → Prop} {s : State} {n : Nat} {vf : Bool} (H : Keeps P 0x4400111) (h0 : P s) : RegAll P
    (State.callSrcReg s n vf) := by
  unfold State.callSrcReg
  with_reducible repeat' first
    | assumption | intro _ | exact opt_none | refine opt_some ?_ | refine opt_ite ?_ ?_ | refine keeps_reroute H ?_
    | refine RegAll.mk ?_ ?_ ?_ | split | dsimp only

theorem keeps_callVecReg {P : State → Prop} {s : State} {k : Nat} {o : Nat} (H : Keeps P 0x4400111) (h0 : P s) : OptAll (RegAll P)
    (State.callVecReg s k o) := by
  have H1 : Keeps P 0x400000 := H.mono rfl
  unfold State.callVecReg
  with_reducible repeat' first
    | assumption | intro _ | exact opt_none | refine opt_some ?_ | refine keeps_watchVec H ?_ | refine keeps_upVec H1 ?_
    | refine RegAll.mk ?_ ?_ ?_ | split | dsimp only

theorem keeps_callShReg {P : State → Prop} {s : State} {n : Nat} (h0 : P s) : RegAll P (State.callShReg s n) := by
  unfold State.callShReg
  with_reducible repeat' first
    | assumption | intro _ | exact opt_none | refine opt_some ?_ | refine RegAll.mk ?_ ?_ ?_ | split | dsimp only

theorem keeps_callReg {P : State → Prop} {s : State} {off : Nat} (H : Keeps P 0x4400111) (h0 : P s) : OptAll (RegAll P) (State.callReg s
    off) := by
  have H1 : Keeps P 0x400000 := H.mono rfl
  unfold State.callReg
  with_reducible repeat' first
    | assumption | intro _ | exact opt_none | refine opt_some ?_ | refine opt_ite ?_ ?_ | refine keeps_upCall H1 ?_
    | refine keeps_callShReg ?_ | refine opt_reg ‹_ = some _› (keeps_callVecReg H ?_) | refine keeps_callVecReg H ?_
    | refine keeps_callSrcReg H ?_ | refine opt_reg ‹_ = some _› (keeps_panelReg ?_) | refine keeps_panelReg ?_ | refine RegAll.mk ?_ ?_ ?_
    | split | dsimp only

theorem keeps_aqPut {P : State → Prop} {fn : Nat} {f : FnCmd → Nat → FnCmd} (H : Keeps P 0x40) : OptAll (fun g => ∀ s n, P s → P (g s n))
    (aqPut fn f) := by
  unfold aqPut
  with_reducible repeat' first
    | assumption | intro _ | exact opt_none | refine opt_some ?_ | refine opt_ite ?_ ?_ | refine keeps_upFn H ?_ | split | dsimp only

theorem keeps_cmdReg {P : State → Prop} {s : State} {fn : Nat} {off : Nat} (H : Keeps P 0x40) (h0 : P s) : OptAll (RegAll P) (State.cmdReg s
    fn off) := by
  unfold State.cmdReg
  with_reducible repeat' first
    | assumption | intro _ | exact opt_none | refine opt_some ?_ | refine opt_ite ?_ ?_ | refine keeps_upCmd H ?_ | refine keeps_aqPut H
    | refine keeps_upFn H ?_ | refine RegAll.mk ?_ ?_ ?_ | split | dsimp only

theorem keeps_tapReg {P : State → Prop} {s : State} {off : Nat} (H : Keeps P 0x2000) (h0 : P s) : OptAll (RegAll P) (State.tapReg s off) :=
    by
  unfold State.tapReg
  with_reducible repeat' first
    | assumption | intro _ | exact opt_none | refine opt_some ?_ | refine opt_map2 (P := P) ?_ ?_ | refine opt_map ?_
    | refine keeps_upTap H ?_ | refine RegAll.mk ?_ ?_ ?_ | split | dsimp only

theorem keeps_MelCfg_reg {P : State → Prop} {m : MelCfg} : RegAll P (MelCfg.reg m) := by
  unfold MelCfg.reg
  with_reducible repeat' first
    | assumption | intro _ | exact opt_none | refine opt_some ?_ | refine RegAll.mk ?_ ?_ ?_ | split | dsimp only

theorem keeps_shuttleReg {P : State → Prop} {s : State} {k : Nat} (h0 : P s) : RegAll P (State.shuttleReg s k) := by
  unfold State.shuttleReg
  with_reducible repeat' first
    | assumption | intro _ | exact opt_none | refine opt_some ?_ | refine RegAll.mk ?_ ?_ ?_ | split | dsimp only

theorem keeps_shuReg {P : State → Prop} {s : State} {off : Nat} (H : Keeps P 0x1000) (h0 : P s) : OptAll (RegAll P) (State.shuReg s off) :=
    by
  unfold State.shuReg
  with_reducible repeat' first
    | assumption | intro _ | exact opt_none | refine opt_some ?_ | refine opt_ite ?_ ?_ | refine keeps_upShu H ?_
    | refine keeps_shuttleReg ?_ | refine keeps_MelCfg_reg | refine RegAll.mk ?_ ?_ ?_ | split | dsimp only

theorem keeps_loomReg {P : State → Prop} {s : State} {off : Nat} (H : Keeps P 0x8000) (h0 : P s) : OptAll (RegAll P) (State.loomReg s off)
    := by
  unfold State.loomReg
  with_reducible repeat' first
    | assumption | intro _ | exact opt_none | refine opt_some ?_ | refine keeps_upLoom H ?_ | refine RegAll.mk ?_ ?_ ?_ | split
    | dsimp only

theorem keeps_accReg {P : State → Prop} {s : State} {a : Nat} (H : Keeps P 0x10000) (h0 : P s) : RegAll P (State.accReg s a) := by
  unfold State.accReg
  with_reducible repeat' first
    | assumption | intro _ | exact opt_none | refine opt_some ?_ | refine opt_ite ?_ ?_ | refine keeps_upFeed H ?_
    | refine RegAll.mk ?_ ?_ ?_ | split | dsimp only

theorem keeps_feedReg {P : State → Prop} {s : State} {off : Nat} (H : Keeps P 0x10000) (h0 : P s) : OptAll (RegAll P) (State.feedReg s off)
    := by
  unfold State.feedReg
  with_reducible repeat' first
    | assumption | intro _ | exact opt_none | refine opt_some ?_ | refine opt_ite ?_ ?_ | refine keeps_upFeed H ?_
    | refine keeps_accReg H ?_ | refine RegAll.mk ?_ ?_ ?_ | split | dsimp only

theorem keeps_portReg {P : State → Prop} {s : State} {p : Nat} (H : Keeps P 0x100) (h0 : P s) : RegAll P (State.portReg s p) := by
  unfold State.portReg
  with_reducible repeat' first
    | assumption | intro _ | exact opt_none | refine opt_some ?_ | refine keeps_upNet H ?_ | refine RegAll.mk ?_ ?_ ?_ | split | dsimp only

theorem keeps_netReg {P : State → Prop} {s : State} {off : Nat} (H : Keeps P 0x500) (h0 : P s) : OptAll (RegAll P) (State.netReg s off) :=
    by
  have H1 : Keeps P 0x100 := H.mono rfl
  have H2 : Keeps P 0x400 := H.mono rfl
  unfold State.netReg
  with_reducible repeat' first
    | assumption | intro _ | exact opt_none | refine opt_some ?_ | refine opt_ite ?_ ?_ | refine keeps_upNet H1 ?_
    | refine keeps_upCtx H2 ?_ | refine keeps_portReg H1 ?_ | refine RegAll.mk ?_ ?_ ?_ | split | dsimp only

theorem keeps_hedReg {P : State → Prop} {s : State} {off : Nat} (H : Keeps P 0x200) (h0 : P s) : OptAll (RegAll P) (State.hedReg s off) :=
    by
  unfold State.hedReg
  with_reducible repeat' first
    | assumption | intro _ | exact opt_none | refine opt_some ?_ | refine keeps_upHed H ?_ | refine RegAll.mk ?_ ?_ ?_ | split | dsimp only

theorem keeps_keyPageReg {P : State → Prop} {s : State} {k : Nat} {o : Nat} (H : Keeps P 0x800) (h0 : P s) : OptAll (RegAll P)
    (State.keyPageReg s k o) := by
  unfold State.keyPageReg
  with_reducible repeat' first
    | assumption | intro _ | exact opt_none | refine opt_some ?_ | refine opt_map2 (P := P) ?_ ?_ | refine opt_map ?_
    | refine keeps_upPage H ?_ | refine RegAll.mk ?_ ?_ ?_ | split | dsimp only

theorem keeps_nvmeRegs {P : State → Prop} {s : State} {fn : Nat} {off : Nat} (H : Keeps P 0x80) (h0 : P s) : OptAll (RegAll P)
    (State.nvmeRegs s fn off) := by
  unfold State.nvmeRegs
  with_reducible repeat' first
    | assumption | intro _ | exact opt_none | refine opt_some ?_ | refine opt_ite ?_ ?_ | refine keeps_upCtrl H ?_
    | refine RegAll.mk ?_ ?_ ?_ | split | dsimp only

theorem keeps_stoReg {P : State → Prop} {s : State} {fn : Nat} {off : Nat} (H : Keeps P 0x80) (h0 : P s) : OptAll (RegAll P) (State.stoReg s
    fn off) := by
  unfold State.stoReg
  with_reducible repeat' first
    | assumption | intro _ | exact opt_none | refine opt_some ?_ | refine opt_ite ?_ ?_ | refine keeps_upSto H ?_
    | refine opt_reg ‹_ = some _› (keeps_nvmeRegs H ?_) | refine keeps_nvmeRegs H ?_ | refine RegAll.mk ?_ ?_ ?_ | split | dsimp only

theorem keeps_ckpReg {P : State → Prop} {s : State} {off : Nat} (H : Keeps P 0x80000) (h0 : P s) : OptAll (RegAll P) (State.ckpReg s off) :=
    by
  unfold State.ckpReg
  with_reducible repeat' first
    | assumption | intro _ | exact opt_none | refine opt_some ?_ | refine keeps_upCkp H ?_ | refine RegAll.mk ?_ ?_ ?_ | split | dsimp only

theorem keeps_rungReg {P : State → Prop} {s : State} {n : Nat} (H : Keeps P 0x40000) (h0 : P s) : RegAll P (State.rungReg s n) := by
  unfold State.rungReg
  with_reducible repeat' first
    | assumption | intro _ | exact opt_none | refine opt_some ?_ | refine opt_ite ?_ ?_ | refine keeps_upRasUnit H ?_
    | refine RegAll.mk ?_ ?_ ?_ | split | dsimp only

theorem keeps_rasReg {P : State → Prop} {s : State} {off : Nat} (H : Keeps P 0x40000) (h0 : P s) : OptAll (RegAll P) (State.rasReg s off) :=
    by
  unfold State.rasReg
  with_reducible repeat' first
    | assumption | intro _ | exact opt_none | refine opt_some ?_ | refine opt_map2 (P := P) ?_ ?_ | refine opt_map ?_
    | refine keeps_upRas H ?_ | refine keeps_rungReg H ?_ | refine RegAll.mk ?_ ?_ ?_ | split | dsimp only

theorem keeps_fnCtrReg {P : State → Prop} {s : State} {fn : Nat} {n : Nat} (h0 : P s) : RegAll P (State.fnCtrReg s fn n) := by
  unfold State.fnCtrReg
  with_reducible repeat' first
    | assumption | intro _ | exact opt_none | refine opt_some ?_ | refine RegAll.mk ?_ ?_ ?_ | split | dsimp only

theorem keeps_obsReg {P : State → Prop} {s : State} {off : Nat} (H : Keeps P 0x4000000) (h0 : P s) : OptAll (RegAll P) (State.obsReg s off)
    := by
  unfold State.obsReg
  with_reducible repeat' first
    | assumption | intro _ | exact opt_none | refine opt_some ?_ | refine opt_ite ?_ ?_ | refine keeps_upObs H ?_
    | refine keeps_fnCtrReg ?_ | refine RegAll.mk ?_ ?_ ?_ | split | dsimp only

theorem keeps_stgReg {P : State → Prop} {s : State} {off : Nat} (H : Keeps P 0x100000) (h0 : P s) : OptAll (RegAll P) (State.stgReg s off)
    := by
  unfold State.stgReg
  with_reducible repeat' first
    | assumption | intro _ | exact opt_none | refine opt_some ?_ | refine opt_map2 (P := P) ?_ ?_ | refine opt_map ?_
    | refine opt_ite ?_ ?_ | refine keeps_upStg H ?_ | refine RegAll.mk ?_ ?_ ?_ | split | dsimp only

theorem keeps_latchReg64 {P : State → Prop} {s : State} {n : Nat} {o : Nat} (H : Keeps P 0x20000) (h0 : P s) : OptAll (RegAll P)
    (State.latchReg64 s n o) := by
  unfold State.latchReg64
  with_reducible repeat' first
    | assumption | intro _ | exact opt_none | refine opt_some ?_ | refine keeps_upCell H ?_ | refine RegAll.mk ?_ ?_ ?_ | split
    | dsimp only

theorem keeps_pfReg {P : State → Prop} {s : State} {off : Nat} (H : Keeps P 0x4dfbff9) (h0 : P s) : OptAll (RegAll P) (State.pfReg s off) :=
    by
  have H1 : Keeps P 0x20000 := H.mono rfl
  have H2 : Keeps P 0x100000 := H.mono rfl
  have H3 : Keeps P 0x4000000 := H.mono rfl
  have H4 : Keeps P 0x40000 := H.mono rfl
  have H5 : Keeps P 0x80000 := H.mono rfl
  have H6 : Keeps P 0x80 := H.mono rfl
  have H7 : Keeps P 0x800 := H.mono rfl
  have H8 : Keeps P 0x200 := H.mono rfl
  have H9 : Keeps P 0x500 := H.mono rfl
  have H10 : Keeps P 0x10000 := H.mono rfl
  have H11 : Keeps P 0x8000 := H.mono rfl
  have H12 : Keeps P 0x1000 := H.mono rfl
  have H13 : Keeps P 0x2000 := H.mono rfl
  have H14 : Keeps P 0x40 := H.mono rfl
  have H15 : Keeps P 0x4400111 := H.mono rfl
  have H16 : Keeps P 0x20 := H.mono rfl
  have H17 : Keeps P 0x4c00119 := H.mono rfl
  unfold State.pfReg
  with_reducible repeat' first
    | assumption | intro _ | exact opt_none | refine opt_some ?_ | refine opt_bindS ?_ ?_ | refine opt_bind ?_ | refine opt_ite ?_ ?_
    | refine opt_reg ‹_ = some _› (keeps_latchReg64 H1 ?_) | refine keeps_latchReg64 H1 ?_
    | refine opt_reg ‹_ = some _› (keeps_stgReg H2 ?_) | refine keeps_stgReg H2 ?_ | refine opt_reg ‹_ = some _› (keeps_obsReg H3 ?_)
    | refine keeps_obsReg H3 ?_ | refine opt_reg ‹_ = some _› (keeps_rasReg H4 ?_) | refine keeps_rasReg H4 ?_
    | refine opt_reg ‹_ = some _› (keeps_ckpReg H5 ?_) | refine keeps_ckpReg H5 ?_ | refine opt_reg ‹_ = some _› (keeps_stoReg H6 ?_)
    | refine keeps_stoReg H6 ?_ | refine opt_reg ‹_ = some _› (keeps_keyPageReg H7 ?_) | refine keeps_keyPageReg H7 ?_
    | refine opt_reg ‹_ = some _› (keeps_hedReg H8 ?_) | refine keeps_hedReg H8 ?_ | refine opt_reg ‹_ = some _› (keeps_netReg H9 ?_)
    | refine keeps_netReg H9 ?_ | refine opt_reg ‹_ = some _› (keeps_feedReg H10 ?_) | refine keeps_feedReg H10 ?_
    | refine opt_reg ‹_ = some _› (keeps_loomReg H11 ?_) | refine keeps_loomReg H11 ?_ | refine opt_reg ‹_ = some _› (keeps_shuReg H12 ?_)
    | refine keeps_shuReg H12 ?_ | refine opt_reg ‹_ = some _› (keeps_tapReg H13 ?_) | refine keeps_tapReg H13 ?_
    | refine opt_reg ‹_ = some _› (keeps_cmdReg H14 ?_) | refine keeps_cmdReg H14 ?_ | refine opt_reg ‹_ = some _› (keeps_callReg H15 ?_)
    | refine keeps_callReg H15 ?_ | refine opt_reg ‹_ = some _› (keeps_cueReg H16 ?_) | refine keeps_cueReg H16 ?_
    | refine opt_reg ‹_ = some _› (keeps_glbReg H17 ?_) | refine keeps_glbReg H17 ?_ | split | dsimp only

theorem keeps_vfGlbReg {P : State → Prop} {s : State} {fn : Nat} {off : Nat} (H : Keeps P 0x4c00111) (h0 : P s) : OptAll (RegAll P)
    (State.vfGlbReg s fn off) := by
  have H1 : Keeps P 0x800000 := H.mono rfl
  have H2 : Keeps P 0x4400111 := H.mono rfl
  unfold State.vfGlbReg
  with_reducible repeat' first
    | assumption | intro _ | exact opt_none | refine opt_some ?_ | refine opt_map2 (P := P) ?_ ?_ | refine opt_map ?_
    | refine opt_ite ?_ ?_ | refine keeps_mboxReg H1 ?_ | refine keeps_pbaReg ?_ | refine keeps_msixReg H2 ?_
    | refine keeps_vfStatReg H1 ?_ | refine RegAll.mk ?_ ?_ ?_ | split | dsimp only

theorem keeps_vfCallReg {P : State → Prop} {s : State} {fn : Nat} {off : Nat} (H : Keeps P 0x4400111) (h0 : P s) : OptAll (RegAll P)
    (State.vfCallReg s fn off) := by
  unfold State.vfCallReg
  with_reducible repeat' first
    | assumption | intro _ | exact opt_none | refine opt_some ?_ | refine opt_map2 (P := P) ?_ ?_ | refine opt_map ?_
    | refine opt_reg ‹_ = some _› (keeps_callVecReg H ?_) | refine keeps_callVecReg H ?_ | refine keeps_callSrcReg H ?_
    | refine opt_reg ‹_ = some _› (keeps_panelReg ?_) | refine keeps_panelReg ?_ | split | dsimp only

theorem keeps_vfReg {P : State → Prop} {s : State} {fn : Nat} {off : Nat} (H : Keeps P 0x4c209d1) (h0 : P s) : OptAll (RegAll P)
    (State.vfReg s fn off) := by
  have H1 : Keeps P 0x4400111 := H.mono rfl
  have H2 : Keeps P 0x4c00111 := H.mono rfl
  have H3 : Keeps P 0x20000 := H.mono rfl
  have H4 : Keeps P 0x80 := H.mono rfl
  have H5 : Keeps P 0x800 := H.mono rfl
  have H6 : Keeps P 0x40 := H.mono rfl
  unfold State.vfReg
  with_reducible repeat' first
    | assumption | intro _ | exact opt_none | refine opt_some ?_ | refine opt_map2 (P := P) ?_ ?_ | refine opt_map ?_
    | refine opt_bindS ?_ ?_ | refine opt_bind ?_ | refine opt_ite ?_ ?_ | refine opt_reg ‹_ = some _› (keeps_vfCallReg H1 ?_)
    | refine keeps_vfCallReg H1 ?_ | refine opt_reg ‹_ = some _› (keeps_vfGlbReg H2 ?_) | refine keeps_vfGlbReg H2 ?_
    | refine opt_reg ‹_ = some _› (keeps_latchReg64 H3 ?_) | refine keeps_latchReg64 H3 ?_ | refine keeps_fnCtrReg ?_
    | refine opt_reg ‹_ = some _› (keeps_stoReg H4 ?_) | refine keeps_stoReg H4 ?_ | refine opt_reg ‹_ = some _› (keeps_keyPageReg H5 ?_)
    | refine keeps_keyPageReg H5 ?_ | refine opt_reg ‹_ = some _› (keeps_cmdReg H6 ?_) | refine keeps_cmdReg H6 ?_
    | refine RegAll.mk ?_ ?_ ?_ | split | dsimp only

theorem keeps_reg {P : State → Prop} {s : State} {fn : Nat} {off : Nat} (H : Keeps P 0x4dfbff9) (h0 : P s) : OptAll (RegAll P) (State.reg s
    fn off) := by
  have H1 : Keeps P 0x4c209d1 := H.mono rfl
  unfold State.reg
  with_reducible repeat' first
    | assumption | intro _ | exact opt_none | refine opt_some ?_ | refine opt_ite ?_ ?_ | refine opt_reg ‹_ = some _› (keeps_vfReg H1 ?_)
    | refine keeps_vfReg H1 ?_ | refine opt_reg ‹_ = some _› (keeps_pfReg H ?_) | refine keeps_pfReg H ?_ | split | dsimp only

theorem keeps_opObsClearCounters {P : State → Prop} (H : Keeps P 0x4dfbff9) : SpecAll P opObsClearCounters := by
  refine ⟨fun _ _ _ _ _ => ?_, fun _ _ _ _ => ?_⟩ <;> dsimp only [opObsClearCounters]
  with_reducible repeat' first
    | assumption | intro _ | exact VAll.refuse _ _ | exact VAll.refuseAt _ _ _ | refine VAll.done _ _ _ _ ?_
    | refine VAll.doneAs _ _ _ _ _ ?_ | refine VAll.wait _ _ _ ?_ | exact opt_none | refine opt_some ?_ | refine opt_bindS ?_ ?_
    | refine opt_bind ?_ | refine opt_ite ?_ ?_ | refine opt_reg ‹_ = some _› (keeps_reg H ?_) | refine keeps_reg H ?_
    | refine keeps_badParam | refine keeps_Verdict_ok ?_ | refine opt_clear ‹_› ?_ ?_ | refine opt_ite ?_ ?_ | exact opt_none | split
    | dsimp only

theorem keeps_execObsClearCounters {P : State → Prop} {h : Hdr} {p : Bytes} {s : State} (H : Keeps P 0x6dfbfff) (h2 : P s) : ResAll P
    (execObsClearCounters h p s) := by
  have H1 : Keeps P 0x4dfbff9 := H.mono rfl
  have H2 : Keeps P 0x6c00557 := H.mono rfl
  unfold execObsClearCounters
  with_reducible repeat' first
    | assumption | intro _ | refine res_next ?_ | refine keeps_opObsClearCounters H1
    | refine res_get ‹_ = Host.Outcome.next _› (keeps_runPkt H2 ?_ ?_) | refine keeps_runPkt H2 ?_ ?_ | split | dsimp only

theorem keeps_cmdObs {P : State → Prop} {opcode : Nat} {h : Hdr} {p : Bytes} {s : State} (H : Keeps P 0x6ffbfff) (h3 : P s) : ResAll P
    (cmdObs opcode h p s) := by
  have H1 : Keeps P 0x6dfbfff := H.mono rfl
  have H2 : Keeps P 0x6c00557 := H.mono rfl
  have H3 : Keeps P 0x6f00557 := H.mono rfl
  unfold cmdObs
  with_reducible repeat' first
    | assumption | intro _ | refine res_next ?_ | refine res_get ‹_ = Host.Outcome.next _› (keeps_execObsClearCounters H1 ?_)
    | refine keeps_execObsClearCounters H1 ?_ | refine res_get ‹_ = Host.Outcome.next _› (keeps_execObsTableau H2 ?_)
    | refine keeps_execObsTableau H2 ?_ | refine res_get ‹_ = Host.Outcome.next _› (keeps_execObsTraceRead H2 ?_)
    | refine keeps_execObsTraceRead H2 ?_ | refine res_get ‹_ = Host.Outcome.next _› (keeps_execObsTrigger H2 ?_)
    | refine keeps_execObsTrigger H2 ?_ | refine res_get ‹_ = Host.Outcome.next _› (keeps_execObsTraceStop H2 ?_)
    | refine keeps_execObsTraceStop H2 ?_ | refine res_get ‹_ = Host.Outcome.next _› (keeps_execObsTraceStart H2 ?_)
    | refine keeps_execObsTraceStart H2 ?_ | refine res_get ‹_ = Host.Outcome.next _› (keeps_execObsTraceCfg H2 ?_)
    | refine keeps_execObsTraceCfg H2 ?_ | refine res_get ‹_ = Host.Outcome.next _› (keeps_execObsSetCounter H2 ?_)
    | refine keeps_execObsSetCounter H2 ?_ | refine res_get ‹_ = Host.Outcome.next _› (keeps_execObsSnapHead H2 ?_)
    | refine keeps_execObsSnapHead H2 ?_ | refine res_get ‹_ = Host.Outcome.next _› (keeps_execObsSetSnapArea H2 ?_)
    | refine keeps_execObsSetSnapArea H2 ?_ | refine res_get ‹_ = Host.Outcome.next _› (keeps_execOther H3 ?_)
    | refine keeps_execOther H3 ?_ | split | dsimp only

theorem keeps_opFwGetInfo {P : State → Prop} (H : Keeps P 0x4800001) : SpecAll P opFwGetInfo := by
  refine ⟨fun _ _ _ _ _ => ?_, fun _ _ _ _ => ?_⟩ <;> dsimp only [opFwGetInfo]
  with_reducible repeat' first
    | assumption | intro _ | exact VAll.refuse _ _ | exact VAll.refuseAt _ _ _ | refine VAll.done _ _ _ _ ?_
    | refine VAll.doneAs _ _ _ _ _ ?_ | refine VAll.wait _ _ _ ?_ | refine ver_getD ?_ ?_ | exact opt_none | refine opt_some ?_
    | refine opt_map2 (P := P) ?_ ?_ | refine opt_map ?_ | refine keeps_hostWrite H ?_ | split | dsimp only

theorem keeps_execFwGetInfo {P : State → Prop} {h : Hdr} {p : Bytes} {s : State} (H : Keeps P 0x6c00557) (h2 : P s) : ResAll P
    (execFwGetInfo h p s) := by
  have H1 : Keeps P 0x4800001 := H.mono rfl
  unfold execFwGetInfo
  with_reducible repeat' first
    | assumption | intro _ | refine res_next ?_ | refine keeps_opFwGetInfo H1
    | refine res_get ‹_ = Host.Outcome.next _› (keeps_runPkt H ?_ ?_) | refine keeps_runPkt H ?_ ?_ | split | dsimp only

theorem keeps_putImage {P : State → Prop} {s : State} {bank : Nat} {off : Nat} {b : Bytes} (H : Keeps P 0x4800004) (h0 : P s) : P
    (State.putImage s bank off b) := by
  unfold State.putImage
  with_reducible repeat' first
    | assumption | intro _ | refine keeps_gWrite H ?_ | split | dsimp only

theorem keeps_dropImage {P : State → Prop} {s : State} {bank : Nat} (H : Keeps P 0x4) (h0 : P s) : P (State.dropImage s bank) := by
  unfold State.dropImage
  with_reducible repeat' first
    | assumption | intro _ | refine keeps_gClear H ?_ | split | dsimp only

theorem keeps_stageCopies {P : State → Prop} {s : State} {fresh : Bool} (H : Keeps P 0x4800004) (h0 : P s) : P (State.stageCopies s fresh)
    := by
  have H1 : Keeps P 0x4 := H.mono rfl
  unfold State.stageCopies
  with_reducible repeat' first
    | assumption | intro _ | refine keeps_dropImage H1 ?_ | refine keeps_putImage H ?_ | split | dsimp only

theorem keeps_opFwStage {P : State → Prop} (H : Keeps P 0x4900004) : SpecAll P opFwStage := by
  have H1 : Keeps P 0x100000 := H.mono rfl
  have H2 : Keeps P 0x4800004 := H.mono rfl
  refine ⟨fun _ _ _ _ _ => ?_, fun _ _ _ _ => ?_⟩ <;> dsimp only [opFwStage]
  with_reducible repeat' first
    | assumption | intro _ | exact VAll.refuse _ _ | exact VAll.refuseAt _ _ _ | refine VAll.done _ _ _ _ ?_
    | refine VAll.doneAs _ _ _ _ _ ?_ | refine VAll.wait _ _ _ ?_ | refine keeps_upStg H1 ?_ | refine keeps_stageCopies H2 ?_
    | refine keeps_badParam | refine keeps_Verdict_ok ?_ | split | dsimp only

theorem keeps_execFwStage {P : State → Prop} {h : Hdr} {p : Bytes} {s : State} (H : Keeps P 0x6d00557) (h2 : P s) : ResAll P (execFwStage h
    p s) := by
  have H1 : Keeps P 0x4900004 := H.mono rfl
  have H2 : Keeps P 0x6c00557 := H.mono rfl
  unfold execFwStage
  with_reducible repeat' first
    | assumption | intro _ | refine res_next ?_ | refine keeps_opFwStage H1
    | refine res_get ‹_ = Host.Outcome.next _› (keeps_runPkt H2 ?_ ?_) | refine keeps_runPkt H2 ?_ ?_ | split | dsimp only

theorem keeps_opFwVerify {P : State → Prop} (H : Keeps P 0x100000) : SpecAll P opFwVerify := by
  refine ⟨fun _ _ _ _ _ => ?_, fun _ _ _ _ => ?_⟩ <;> dsimp only [opFwVerify]
  with_reducible repeat' first
    | assumption | intro _ | exact VAll.refuse _ _ | exact VAll.refuseAt _ _ _ | refine VAll.done _ _ _ _ ?_
    | refine VAll.doneAs _ _ _ _ _ ?_ | refine VAll.wait _ _ _ ?_ | refine keeps_upStg H ?_ | refine keeps_Verdict_ok ?_
    | refine keeps_noResource | refine keeps_badState | split | dsimp only

theorem keeps_execFwVerify {P : State → Prop} {h : Hdr} {p : Bytes} {s : State} (H : Keeps P 0x6d00557) (h2 : P s) : ResAll P (execFwVerify
    h p s) := by
  have H1 : Keeps P 0x100000 := H.mono rfl
  have H2 : Keeps P 0x6c00557 := H.mono rfl
  unfold execFwVerify
  with_reducible repeat' first
    | assumption | intro _ | refine res_next ?_ | refine keeps_opFwVerify H1
    | refine res_get ‹_ = Host.Outcome.next _› (keeps_runPkt H2 ?_ ?_) | refine keeps_runPkt H2 ?_ ?_ | split | dsimp only

theorem keeps_opFwActivate {P : State → Prop} (H : Keeps P 0x100000) : SpecAll P opFwActivate := by
  refine ⟨fun _ _ _ _ _ => ?_, fun _ _ _ _ => ?_⟩ <;> dsimp only [opFwActivate]
  with_reducible repeat' first
    | assumption | intro _ | exact VAll.refuse _ _ | exact VAll.refuseAt _ _ _ | refine VAll.done _ _ _ _ ?_
    | refine VAll.doneAs _ _ _ _ _ ?_ | refine VAll.wait _ _ _ ?_ | refine keeps_upStg H ?_ | refine keeps_badState | split | dsimp only

theorem keeps_execFwActivate {P : State → Prop} {h : Hdr} {p : Bytes} {s : State} (H : Keeps P 0x6d00557) (h2 : P s) : ResAll P
    (execFwActivate h p s) := by
  have H1 : Keeps P 0x100000 := H.mono rfl
  have H2 : Keeps P 0x6c00557 := H.mono rfl
  unfold execFwActivate
  with_reducible repeat' first
    | assumption | intro _ | refine res_next ?_ | refine keeps_opFwActivate H1
    | refine res_get ‹_ = Host.Outcome.next _› (keeps_runPkt H2 ?_ ?_) | refine keeps_runPkt H2 ?_ ?_ | split | dsimp only

theorem keeps_handsState {P : State → Prop} {s : State} {st : Nat} (H : Keeps P 0x100000) (h0 : P s) : P (State.handsState s st) := by
  unfold State.handsState
  with_reducible repeat' first
    | assumption | intro _ | refine keeps_foldl ?_ ?_ | refine keeps_upHand H ?_ | split | dsimp only

theorem keeps_trialEnd {P : State → Prop} {s : State} (H : Keeps P 0x4900004) (h0 : P s) : P (State.trialEnd s) := by
  have H1 : Keeps P 0x100000 := H.mono rfl
  have H2 : Keeps P 0x4800004 := H.mono rfl
  unfold State.trialEnd
  with_reducible repeat' first
    | assumption | intro _ | refine keeps_upStg H1 ?_ | refine keeps_handsState H1 ?_ | refine keeps_stageCopies H2 ?_ | split | dsimp only

theorem keeps_opFwCommit {P : State → Prop} (H : Keeps P 0x7900004) : SpecAll P opFwCommit := by
  have H1 : Keeps P 0x4900004 := H.mono rfl
  have H2 : Keeps P 0x3000000 := H.mono rfl
  refine ⟨fun _ _ _ _ _ => ?_, fun _ _ _ _ => ?_⟩ <;> dsimp only [opFwCommit]
  with_reducible repeat' first
    | assumption | intro _ | exact VAll.refuse _ _ | exact VAll.refuseAt _ _ _ | refine VAll.done _ _ _ _ ?_
    | refine VAll.doneAs _ _ _ _ _ ?_ | refine VAll.wait _ _ _ ?_ | refine ver_getD ?_ ?_ | exact opt_none | refine opt_some ?_
    | refine opt_map2 (P := P) ?_ ?_ | refine opt_map ?_ | refine opt_ite ?_ ?_ | refine keeps_trialEnd H1 ?_ | refine keeps_storeCmd H2 ?_
    | refine keeps_Verdict_ok ?_ | refine keeps_badState | split | dsimp only

theorem keeps_execFwCommit {P : State → Prop} {h : Hdr} {p : Bytes} {s : State} (H : Keeps P 0x7d00557) (h2 : P s) : ResAll P (execFwCommit
    h p s) := by
  have H1 : Keeps P 0x7900004 := H.mono rfl
  have H2 : Keeps P 0x6c00557 := H.mono rfl
  unfold execFwCommit
  with_reducible repeat' first
    | assumption | intro _ | refine res_next ?_ | refine keeps_opFwCommit H1
    | refine res_get ‹_ = Host.Outcome.next _› (keeps_runPkt H2 ?_ ?_) | refine keeps_runPkt H2 ?_ ?_ | split | dsimp only

theorem keeps_handoverBack {P : State → Prop} {s : State} {auto : Bool} (H : Keeps P 0x100000) (h0 : P s) : P (State.handoverBack s auto) :=
    by
  unfold State.handoverBack
  with_reducible repeat' first
    | assumption | intro _ | exact opt_none | refine opt_some ?_ | refine opt_map2 (P := P) ?_ ?_ | refine opt_map ?_
    | refine keeps_upStg H ?_ | split | dsimp only

theorem keeps_opFwRollback {P : State → Prop} (H : Keeps P 0x100000) : SpecAll P opFwRollback := by
  refine ⟨fun _ _ _ _ _ => ?_, fun _ _ _ _ => ?_⟩ <;> dsimp only [opFwRollback]
  with_reducible repeat' first
    | assumption | intro _ | exact VAll.refuse _ _ | exact VAll.refuseAt _ _ _ | refine VAll.done _ _ _ _ ?_
    | refine VAll.doneAs _ _ _ _ _ ?_ | refine VAll.wait _ _ _ ?_ | refine keeps_handoverBack H ?_ | refine keeps_badState | split
    | dsimp only

theorem keeps_execFwRollback {P : State → Prop} {h : Hdr} {p : Bytes} {s : State} (H : Keeps P 0x6d00557) (h2 : P s) : ResAll P
    (execFwRollback h p s) := by
  have H1 : Keeps P 0x100000 := H.mono rfl
  have H2 : Keeps P 0x6c00557 := H.mono rfl
  unfold execFwRollback
  with_reducible repeat' first
    | assumption | intro _ | refine res_next ?_ | refine keeps_opFwRollback H1
    | refine res_get ‹_ = Host.Outcome.next _› (keeps_runPkt H2 ?_ ?_) | refine keeps_runPkt H2 ?_ ?_ | split | dsimp only

theorem keeps_opFwLoadModule {P : State → Prop} (H : Keeps P 0x300004) : SpecAll P opFwLoadModule := by
  have H1 : Keeps P 0x100000 := H.mono rfl
  have H2 : Keeps P 0x200000 := H.mono rfl
  have H3 : Keeps P 0x4 := H.mono rfl
  refine ⟨fun _ _ _ _ _ => ?_, fun _ _ _ _ => ?_⟩ <;> dsimp only [opFwLoadModule]
  with_reducible repeat' first
    | assumption | intro _ | exact VAll.refuse _ _ | exact VAll.refuseAt _ _ _ | refine VAll.done _ _ _ _ ?_
    | refine VAll.doneAs _ _ _ _ _ ?_ | refine VAll.wait _ _ _ ?_ | refine ver_getD ?_ ?_ | exact opt_none | refine opt_some ?_
    | refine opt_map2 (P := P) ?_ ?_ | refine opt_map ?_ | refine opt_ite ?_ ?_ | refine keeps_upStg H1 ?_ | refine keeps_noResource
    | refine keeps_modulesLaid H2 ?_ | refine keeps_gClear H3 ?_ | split | dsimp only

theorem keeps_execFwLoadModule {P : State → Prop} {h : Hdr} {p : Bytes} {s : State} (H : Keeps P 0x6f00557) (h2 : P s) : ResAll P
    (execFwLoadModule h p s) := by
  have H1 : Keeps P 0x300004 := H.mono rfl
  have H2 : Keeps P 0x6c00557 := H.mono rfl
  unfold execFwLoadModule
  with_reducible repeat' first
    | assumption | intro _ | refine res_next ?_ | refine keeps_opFwLoadModule H1
    | refine res_get ‹_ = Host.Outcome.next _› (keeps_runPkt H2 ?_ ?_) | refine keeps_runPkt H2 ?_ ?_ | split | dsimp only

theorem keeps_opFwUnloadModule {P : State → Prop} (H : Keeps P 0x300004) : SpecAll P opFwUnloadModule := by
  refine ⟨fun _ _ _ _ _ => ?_, fun _ _ _ _ => ?_⟩ <;> dsimp only [opFwUnloadModule]
  with_reducible repeat' first
    | assumption | intro _ | exact VAll.refuse _ _ | exact VAll.refuseAt _ _ _ | refine VAll.done _ _ _ _ ?_
    | refine VAll.doneAs _ _ _ _ _ ?_ | refine VAll.wait _ _ _ ?_ | refine keeps_badParam | refine keeps_Verdict_ok ?_
    | refine keeps_moduleGone H ?_ | split | dsimp only

theorem keeps_execFwUnloadModule {P : State → Prop} {h : Hdr} {p : Bytes} {s : State} (H : Keeps P 0x6f00557) (h2 : P s) : ResAll P
    (execFwUnloadModule h p s) := by
  have H1 : Keeps P 0x300004 := H.mono rfl
  have H2 : Keeps P 0x6c00557 := H.mono rfl
  unfold execFwUnloadModule
  with_reducible repeat' first
    | assumption | intro _ | refine res_next ?_ | refine keeps_opFwUnloadModule H1
    | refine res_get ‹_ = Host.Outcome.next _› (keeps_runPkt H2 ?_ ?_) | refine keeps_runPkt H2 ?_ ?_ | split | dsimp only

theorem keeps_opFwSetModuleKey {P : State → Prop} (H : Keeps P 0x3000000) : SpecAll P opFwSetModuleKey := by
  refine ⟨fun _ _ _ _ _ => ?_, fun _ _ _ _ => ?_⟩ <;> dsimp only [opFwSetModuleKey]
  with_reducible repeat' first
    | assumption | intro _ | exact VAll.refuse _ _ | exact VAll.refuseAt _ _ _ | refine VAll.done _ _ _ _ ?_
    | refine VAll.doneAs _ _ _ _ _ ?_ | refine VAll.wait _ _ _ ?_ | refine keeps_storeCmd H ?_ | split | dsimp only

theorem keeps_execFwSetModuleKey {P : State → Prop} {h : Hdr} {p : Bytes} {s : State} (H : Keeps P 0x7c00557) (h2 : P s) : ResAll P
    (execFwSetModuleKey h p s) := by
  have H1 : Keeps P 0x3000000 := H.mono rfl
  have H2 : Keeps P 0x6c00557 := H.mono rfl
  unfold execFwSetModuleKey
  with_reducible repeat' first
    | assumption | intro _ | refine res_next ?_ | refine keeps_opFwSetModuleKey H1
    | refine res_get ‹_ = Host.Outcome.next _› (keeps_runPkt H2 ?_ ?_) | refine keeps_runPkt H2 ?_ ?_ | split | dsimp only

theorem keeps_cmdFw {P : State → Prop} {opcode : Nat} {h : Hdr} {p : Bytes} {s : State} (H : Keeps P 0x7f00557) (h3 : P s) : ResAll P (cmdFw
    opcode h p s) := by
  have H1 : Keeps P 0x7c00557 := H.mono rfl
  have H2 : Keeps P 0x6f00557 := H.mono rfl
  have H3 : Keeps P 0x6d00557 := H.mono rfl
  have H4 : Keeps P 0x7d00557 := H.mono rfl
  have H5 : Keeps P 0x6c00557 := H.mono rfl
  unfold cmdFw
  with_reducible repeat' first
    | assumption | intro _ | refine res_next ?_ | refine res_get ‹_ = Host.Outcome.next _› (keeps_execFwSetModuleKey H1 ?_)
    | refine keeps_execFwSetModuleKey H1 ?_ | refine res_get ‹_ = Host.Outcome.next _› (keeps_execFwUnloadModule H2 ?_)
    | refine keeps_execFwUnloadModule H2 ?_ | refine res_get ‹_ = Host.Outcome.next _› (keeps_execFwLoadModule H2 ?_)
    | refine keeps_execFwLoadModule H2 ?_ | refine res_get ‹_ = Host.Outcome.next _› (keeps_execFwRollback H3 ?_)
    | refine keeps_execFwRollback H3 ?_ | refine res_get ‹_ = Host.Outcome.next _› (keeps_execFwCommit H4 ?_)
    | refine keeps_execFwCommit H4 ?_ | refine res_get ‹_ = Host.Outcome.next _› (keeps_execFwActivate H3 ?_)
    | refine keeps_execFwActivate H3 ?_ | refine res_get ‹_ = Host.Outcome.next _› (keeps_execFwVerify H3 ?_)
    | refine keeps_execFwVerify H3 ?_ | refine res_get ‹_ = Host.Outcome.next _› (keeps_execFwStage H3 ?_) | refine keeps_execFwStage H3 ?_
    | refine res_get ‹_ = Host.Outcome.next _› (keeps_execFwGetInfo H5 ?_) | refine keeps_execFwGetInfo H5 ?_
    | refine res_get ‹_ = Host.Outcome.next _› (keeps_execOther H2 ?_) | refine keeps_execOther H2 ?_ | split | dsimp only

theorem keeps_onVf {P : State → Prop} {s : State} {p : Bytes} {ok : Nat → Vf → Bool} {f : Nat → Vf → Verdict} (h0 : P s) (h3 : ∀ y1 y2, VAll
    P (f y1 y2)) : VAll P (onVf s p ok f) := by
  unfold onVf
  with_reducible repeat' first
    | assumption | intro _ | refine h3 _ _ | exact VAll.refuse _ _ | exact VAll.refuseAt _ _ _ | refine VAll.done _ _ _ _ ?_
    | refine VAll.doneAs _ _ _ _ _ ?_ | refine VAll.wait _ _ _ ?_ | split | dsimp only

theorem keeps_makeLive {P : State → Prop} {s : State} {fn : Nat} (H : Keeps P 0x40) (h0 : P s) : P (State.makeLive s fn) := by
  unfold State.makeLive
  with_reducible repeat' first
    | assumption | intro _ | refine keeps_upCmd H ?_ | refine keeps_upFn H ?_ | split | dsimp only

theorem keeps_opVfSetResources {P : State → Prop} (H : Keeps P 0x800040) : SpecAll P opVfSetResources := by
  have H1 : Keeps P 0x40 := H.mono rfl
  have H2 : Keeps P 0x800000 := H.mono rfl
  refine ⟨fun _ _ _ _ _ => ?_, fun _ _ _ _ => ?_⟩ <;> dsimp only [opVfSetResources]
  with_reducible repeat' first
    | assumption | intro _ | exact VAll.refuse _ _ | exact VAll.refuseAt _ _ _ | refine VAll.done _ _ _ _ ?_
    | refine VAll.doneAs _ _ _ _ _ ?_ | refine VAll.wait _ _ _ ?_ | refine keeps_makeLive H1 ?_ | refine keeps_onVf ?_ ?_
    | refine keeps_badParam | refine keeps_Verdict_ok ?_ | refine keeps_noResource | refine keeps_upVf H2 ?_ | split | dsimp only

theorem keeps_execVfSetResources {P : State → Prop} {h : Hdr} {p : Bytes} {s : State} (H : Keeps P 0x6c00557) (h2 : P s) : ResAll P
    (execVfSetResources h p s) := by
  have H1 : Keeps P 0x800040 := H.mono rfl
  unfold execVfSetResources
  with_reducible repeat' first
    | assumption | intro _ | refine res_next ?_ | refine keeps_opVfSetResources H1
    | refine res_get ‹_ = Host.Outcome.next _› (keeps_runPkt H ?_ ?_) | refine keeps_runPkt H ?_ ?_ | split | dsimp only

theorem keeps_opVfGetResources {P : State → Prop} (H : Keeps P 0x4800003) : SpecAll P opVfGetResources := by
  have H1 : Keeps P 0x4800001 := H.mono rfl
  have H2 : Keeps P 0x2 := H.mono rfl
  refine ⟨fun _ _ _ _ _ => ?_, fun _ _ _ _ => ?_⟩ <;> dsimp only [opVfGetResources]
  with_reducible repeat' first
    | assumption | intro _ | exact VAll.refuse _ _ | exact VAll.refuseAt _ _ _ | refine VAll.done _ _ _ _ ?_
    | refine VAll.doneAs _ _ _ _ _ ?_ | refine VAll.wait _ _ _ ?_ | refine keeps_onVf ?_ ?_ | refine keeps_hostWrite H1 ?_
    | refine keeps_spent H2 ?_ | split | dsimp only

theorem keeps_execVfGetResources {P : State → Prop} {h : Hdr} {p : Bytes} {s : State} (H : Keeps P 0x6c00557) (h2 : P s) : ResAll P
    (execVfGetResources h p s) := by
  have H1 : Keeps P 0x4800003 := H.mono rfl
  unfold execVfGetResources
  with_reducible repeat' first
    | assumption | intro _ | refine res_next ?_ | refine keeps_opVfGetResources H1
    | refine res_get ‹_ = Host.Outcome.next _› (keeps_runPkt H ?_ ?_) | refine keeps_runPkt H ?_ ?_ | split | dsimp only

theorem keeps_opVfSetMbox {P : State → Prop} (H : Keeps P 0x800000) : SpecAll P opVfSetMbox := by
  refine ⟨fun _ _ _ _ _ => ?_, fun _ _ _ _ => ?_⟩ <;> dsimp only [opVfSetMbox]
  with_reducible repeat' first
    | assumption | intro _ | exact VAll.refuse _ _ | exact VAll.refuseAt _ _ _ | refine VAll.done _ _ _ _ ?_
    | refine VAll.doneAs _ _ _ _ _ ?_ | refine VAll.wait _ _ _ ?_ | refine keeps_onVf ?_ ?_ | refine keeps_Verdict_ok ?_
    | refine keeps_upVf H ?_ | split | dsimp only

theorem keeps_execVfSetMbox {P : State → Prop} {h : Hdr} {p : Bytes} {s : State} (H : Keeps P 0x6c00557) (h2 : P s) : ResAll P
    (execVfSetMbox h p s) := by
  have H1 : Keeps P 0x800000 := H.mono rfl
  unfold execVfSetMbox
  with_reducible repeat' first
    | assumption | intro _ | refine res_next ?_ | refine keeps_opVfSetMbox H1
    | refine res_get ‹_ = Host.Outcome.next _› (keeps_runPkt H ?_ ?_) | refine keeps_runPkt H ?_ ?_ | split | dsimp only

theorem keeps_opVfTrack {P : State → Prop} (H : Keeps P 0x800000) : SpecAll P opVfTrack := by
  refine ⟨fun _ _ _ _ _ => ?_, fun _ _ _ _ => ?_⟩ <;> dsimp only [opVfTrack]
  with_reducible repeat' first
    | assumption | intro _ | exact VAll.refuse _ _ | exact VAll.refuseAt _ _ _ | refine VAll.done _ _ _ _ ?_
    | refine VAll.doneAs _ _ _ _ _ ?_ | refine VAll.wait _ _ _ ?_ | refine keeps_onVf ?_ ?_ | refine keeps_Verdict_ok ?_
    | refine keeps_noResource | refine keeps_upVf H ?_ | split | dsimp only

theorem keeps_unfetch {P : State → Prop} {s : State} {k : Nat} (H : Keeps P 0x40) (h0 : P s) : P (State.unfetch s k) := by
  unfold State.unfetch
  with_reducible repeat' first
    | assumption | intro _ | refine keeps_upCmd H ?_ | refine keeps_upQp H ?_ | split | dsimp only

theorem keeps_shuFreeze {P : State → Prop} {s : State} {fn : Nat} {on : Bool} (H : Keeps P 0x1000) (h0 : P s) : P (State.shuFreeze s fn on)
    := by
  unfold State.shuFreeze
  with_reducible repeat' first
    | assumption | intro _ | refine keeps_foldl ?_ ?_ | refine keeps_upStreamX H ?_ | split | dsimp only

theorem keeps_vfFreeze {P : State → Prop} {s : State} {v : Nat} {limitUs : Nat} (H : Keeps P 0x801040) (h0 : P s) : P (State.vfFreeze s v
    limitUs) := by
  have H1 : Keeps P 0x1000 := H.mono rfl
  have H2 : Keeps P 0x40 := H.mono rfl
  have H3 : Keeps P 0x800000 := H.mono rfl
  unfold State.vfFreeze
  with_reducible repeat' first
    | assumption | intro _ | refine keeps_foldl ?_ ?_ | refine opt_foldl ?_ ?_ | refine keeps_shuFreeze H1 ?_ | refine keeps_unfetch H2 ?_
    | refine keeps_upVf H3 ?_ | split | dsimp only

theorem keeps_opVfFreeze {P : State → Prop} (H : Keeps P 0x801040) : SpecAll P opVfFreeze := by
  refine ⟨fun _ _ _ _ _ => ?_, fun _ _ _ _ => ?_⟩ <;> dsimp only [opVfFreeze]
  with_reducible repeat' first
    | assumption | intro _ | exact VAll.refuse _ _ | exact VAll.refuseAt _ _ _ | refine VAll.done _ _ _ _ ?_
    | refine VAll.doneAs _ _ _ _ _ ?_ | refine VAll.wait _ _ _ ?_ | refine keeps_vfFreeze H ?_ | refine keeps_onVf ?_ ?_ | split
    | dsimp only

theorem keeps_execVfFreeze {P : State → Prop} {h : Hdr} {p : Bytes} {s : State} (H : Keeps P 0x6c01557) (h2 : P s) : ResAll P (execVfFreeze
    h p s) := by
  have H1 : Keeps P 0x801040 := H.mono rfl
  have H2 : Keeps P 0x6c00557 := H.mono rfl
  unfold execVfFreeze
  with_reducible repeat' first
    | assumption | intro _ | refine res_next ?_ | refine keeps_opVfFreeze H1
    | refine res_get ‹_ = Host.Outcome.next _› (keeps_runPkt H2 ?_ ?_) | refine keeps_runPkt H2 ?_ ?_ | split | dsimp only

theorem keeps_saveBegin {P : State → Prop} {s : State} {v : Nat} (H : Keeps P 0x800000) (h0 : P s) : P (State.saveBegin s v) := by
  unfold State.saveBegin
  with_reducible repeat' first
    | assumption | intro _ | refine keeps_upHost H ?_ | refine keeps_upVf H ?_ | split | dsimp only

theorem keeps_saveChunk {P : State → Prop} {s : State} {fn : Nat} {v : Nat} {addr : Nat} {len : Nat} (H : Keeps P 0x4800001) (h0 : P s) : P
    (State.saveChunk s fn v addr len).1 := by
  have H1 : Keeps P 0x800000 := H.mono rfl
  unfold State.saveChunk
  with_reducible repeat' first
    | assumption | intro _ | refine keeps_saveBegin H1 ?_ | refine keeps_upVf H1 ?_ | refine keeps_hostWrite H ?_ | split | dsimp only

end Sys2Proof.Laws
end

