-- ==== Sys2Proof/Laws/Keeps4.lean ====
section
/-!
SUPPORT. What every operation keeps, part 4 of 5.
-/
set_option linter.all false

namespace Sys2Proof.Laws

open Sys2Proof Sys2Proof.Machine Sys2Proof.Safety

theorem keeps_opVfSave {P : State → Prop} (H : Keeps P 0x4800001) : SpecAll P opVfSave := by
  have H1 : Keeps P 0x800000 := H.mono rfl
  refine ⟨fun _ _ _ _ _ => ?_, fun _ _ _ _ => ?_⟩ <;> dsimp only [opVfSave]
  with_reducible repeat' first
    | assumption | intro _ | exact VAll.refuse _ _ | exact VAll.refuseAt _ _ _ | refine VAll.done _ _ _ _ ?_
    | refine VAll.doneAs _ _ _ _ _ ?_ | refine VAll.wait _ _ _ ?_ | refine eq_fst3 ‹_ = _› (keeps_saveChunk H ?_)
    | refine keeps_saveChunk H ?_ | refine keeps_onVf ?_ ?_ | refine keeps_upVf H1 ?_ | refine keeps_hostWrite H ?_ | split | dsimp only

theorem keeps_restoreGranules {P : State → Prop} {a : Nat} {x1 : State} {x2 : Nat} {x3 : Bytes} (H : Keeps P 0x4800004) (h1 : P x1) : OptAll
    P (restoreGranules a x1 x2 x3) := by
  have H1 : Keeps P 0x800000 := H.mono rfl
  induction a generalizing x1 x2 x3 with
  | zero =>
    unfold restoreGranules
    with_reducible repeat' first
      | assumption | intro _ | exact opt_none | refine opt_some ?_ | refine opt_ite ?_ ?_ | refine keeps_upVf H1 ?_
      | refine keeps_gWrite H ?_ | split | dsimp only
  | succ _ ih =>
    unfold restoreGranules
    with_reducible repeat' first
      | assumption | intro _ | refine opt_get ‹_ = some _› (ih ?_) | refine ih ?_ | exact opt_none | refine opt_some ?_
      | refine opt_ite ?_ ?_ | refine keeps_upVf H1 ?_ | refine keeps_gWrite H ?_ | split | dsimp only

theorem keeps_restoreRecords {P : State → Prop} {s : State} {v : Nat} {b : Bytes} (H : Keeps P 0x4800004) (h0 : P s) : OptAll P
    (State.restoreRecords s v b) := by
  unfold State.restoreRecords
  with_reducible repeat' first
    | assumption | intro _ | exact opt_none | refine opt_some ?_ | refine opt_get ‹_ = some _› (keeps_restoreGranules H ?_)
    | refine keeps_restoreGranules H ?_ | split | dsimp only

theorem keeps_restoreFail {P : State → Prop} {s : State} {v : Nat} (H : Keeps P 0x800004) (h0 : P s) : P (State.restoreFail s v) := by
  have H1 : Keeps P 0x800000 := H.mono rfl
  have H2 : Keeps P 0x4 := H.mono rfl
  unfold State.restoreFail
  with_reducible repeat' first
    | assumption | intro _ | refine keeps_foldl ?_ ?_ | refine keeps_upVf H1 ?_ | refine keeps_gClear H2 ?_ | split | dsimp only

theorem keeps_ringInstall {P : State → Prop} {s : State} {v : Nat} {la : List Nat} {e : Nat × FRing} (H : Keeps P 0x30000) (h0 : P s) : P
    (State.ringInstall s v la e) := by
  have H1 : Keeps P 0x10000 := H.mono rfl
  have H2 : Keeps P 0x20000 := H.mono rfl
  unfold State.ringInstall
  with_reducible repeat' first
    | assumption | intro _ | refine keeps_upFeed H1 ?_ | refine keeps_upCell H2 ?_ | split | dsimp only

theorem keeps_streamInstall {P : State → Prop} {s : State} {v : Nat} {e : Nat × Stream × StreamX} (H : Keeps P 0x4c01511) (h0 : P s) : P
    (State.streamInstall s v e) := by
  have H1 : Keeps P 0x1000 := H.mono rfl
  have H2 : Keeps P 0x4c00511 := H.mono rfl
  unfold State.streamInstall
  with_reducible repeat' first
    | assumption | intro _ | refine keeps_upShu H1 ?_ | refine opt_get2 ‹_ = some (_, _)› (keeps_ctxTake H2 ?_)
    | refine keeps_ctxTake H2 ?_ | refine opt_getD2 (keeps_ctxTake H2 ?_) ?_ | split | dsimp only

theorem keeps_vfInstall {P : State → Prop} {s : State} {v : Nat} {o : VfSaved} {mbox : Bytes} (H : Keeps P 0x4c3bdf1) (h0 : P s) : P
    (State.vfInstall s v o mbox) := by
  have H1 : Keeps P 0x40 := H.mono rfl
  have H2 : Keeps P 0x800 := H.mono rfl
  have H3 : Keeps P 0x20000 := H.mono rfl
  have H4 : Keeps P 0x400000 := H.mono rfl
  have H5 : Keeps P 0x2000 := H.mono rfl
  have H6 : Keeps P 0x8000 := H.mono rfl
  have H7 : Keeps P 0x4c01511 := H.mono rfl
  have H8 : Keeps P 0x30000 := H.mono rfl
  have H9 : Keeps P 0x4c00511 := H.mono rfl
  have H10 : Keeps P 0x800000 := H.mono rfl
  have H11 : Keeps P 0x20 := H.mono rfl
  have H12 : Keeps P 0x80 := H.mono rfl
  unfold State.vfInstall
  with_reducible repeat' first
    | assumption | intro _ | refine keeps_foldl ?_ ?_ | refine keeps_foldl_fst ?_ ?_ | refine keeps_foldl_snd ?_ ?_
    | refine opt_foldl ?_ ?_ | refine keeps_upCmd H1 ?_ | refine keeps_upCip H2 ?_ | refine keeps_upLat H3 ?_ | refine keeps_upCall H4 ?_
    | refine keeps_upTap H5 ?_ | refine keeps_upLoom H6 ?_ | refine keeps_streamInstall H7 ?_ | refine keeps_ringInstall H8 ?_
    | refine opt_get2 ‹_ = some (_, _)› (keeps_ctxTakeN H9 ?_) | refine keeps_ctxTakeN H9 ?_ | refine keeps_upVf H10 ?_
    | refine keeps_upEvents H11 ?_ | refine keeps_upCtrl H12 ?_ | split | dsimp only

theorem keeps_vfRestoreEnd {P : State → Prop} {s : State} {v : Nat} (H : Keeps P 0x4c3bdf5) (h0 : P s) : P (State.vfRestoreEnd s v).2.2 :=
    by
  have H1 : Keeps P 0x4c3bdf1 := H.mono rfl
  have H2 : Keeps P 0x800004 := H.mono rfl
  have H3 : Keeps P 0x4800004 := H.mono rfl
  unfold State.vfRestoreEnd
  with_reducible repeat' first
    | assumption | intro _ | refine keeps_vfInstall H1 ?_ | refine keeps_restoreFail H2 ?_
    | refine opt_get ‹_ = some _› (keeps_restoreRecords H3 ?_) | refine keeps_restoreRecords H3 ?_ | split | dsimp only

theorem keeps_restoreChunk {P : State → Prop} {s : State} {v : Nat} {part : Nat} {data : Bytes} (H : Keeps P 0x4c3bdf5) (h0 : P s) : P
    (State.restoreChunk s v part data).2.2 := by
  have H1 : Keeps P 0x800004 := H.mono rfl
  have H2 : Keeps P 0x4800004 := H.mono rfl
  have H3 : Keeps P 0x800000 := H.mono rfl
  unfold State.restoreChunk
  with_reducible repeat' first
    | assumption | intro _ | refine eq_trd ‹_ = _› (keeps_vfRestoreEnd H ?_) | refine keeps_vfRestoreEnd H ?_
    | refine keeps_restoreFail H1 ?_ | refine opt_get ‹_ = some _› (keeps_restoreRecords H2 ?_) | refine keeps_restoreRecords H2 ?_
    | refine keeps_upVf H3 ?_ | split | dsimp only

theorem keeps_opVfRestore {P : State → Prop} {data : Bytes} (H : Keeps P 0x4c3bdf5) : SpecAll P (opVfRestore data) := by
  have H1 : Keeps P 0x4000001 := H.mono rfl
  refine ⟨fun _ _ _ _ _ => ?_, fun _ _ _ _ => ?_⟩ <;> dsimp only [opVfRestore]
  with_reducible repeat' first
    | assumption | intro _ | exact VAll.refuse _ _ | exact VAll.refuseAt _ _ _ | refine VAll.done _ _ _ _ ?_
    | refine VAll.doneAs _ _ _ _ _ ?_ | refine VAll.wait _ _ _ ?_ | refine eq_trd ‹_ = _› (keeps_restoreChunk H ?_)
    | refine keeps_restoreChunk H ?_ | refine keeps_onVf ?_ ?_ | refine keeps_hostRead H1 ?_ | split | dsimp only

theorem keeps_execVfRestore {P : State → Prop} {h : Hdr} {p : Bytes} {data : Bytes} {s : State} (H : Keeps P 0x6c3bdf7) (h3 : P s) : ResAll
    P (execVfRestore h p data s) := by
  have H1 : Keeps P 0x4c3bdf5 := H.mono rfl
  have H2 : Keeps P 0x6c00557 := H.mono rfl
  unfold execVfRestore
  with_reducible repeat' first
    | assumption | intro _ | refine res_next ?_ | refine keeps_opVfRestore H1
    | refine res_get ‹_ = Host.Outcome.next _› (keeps_runPkt H2 ?_ ?_) | refine keeps_runPkt H2 ?_ ?_ | split | dsimp only

theorem keeps_sqTail {P : State → Prop} {s : State} {fn : Nat} {qp : Nat} {val : Nat} (H : Keeps P 0x4400151) (h0 : P s) : P (State.sqTail s
    fn qp val) := by
  have H1 : Keeps P 0x40 := H.mono rfl
  unfold State.sqTail
  with_reducible repeat' first
    | assumption | intro _ | refine keeps_qpError H ?_ | refine keeps_upQp H1 ?_ | split | dsimp only

theorem keeps_cqHeadTo {P : State → Prop} {s : State} {fn : Nat} {qp : Nat} {val : Nat} (H : Keeps P 0x4400151) (h0 : P s) : P
    (State.cqHeadTo s fn qp val) := by
  have H1 : Keeps P 0x40 := H.mono rfl
  unfold State.cqHeadTo
  with_reducible repeat' first
    | assumption | intro _ | refine keeps_qpError H ?_ | refine keeps_upQp H1 ?_ | split | dsimp only

theorem keeps_nvmeSqBell {P : State → Prop} {s : State} {fn : Nat} {qid : Nat} {val : Nat} (H : Keeps P 0x80) (h0 : P s) : P
    (State.nvmeSqBell s fn qid val) := by
  unfold State.nvmeSqBell
  with_reducible repeat' first
    | assumption | intro _ | refine keeps_upQueue H ?_ | split | dsimp only

theorem keeps_postWaiting {P : State → Prop} {a : Nat} {x1 : State} {x2 : Nat} {x3 : Nat} (H : Keeps P 0x4c00191) (h1 : P x1) : P
    (State.postWaiting a x1 x2 x3) := by
  have H1 : Keeps P 0x80 := H.mono rfl
  induction a generalizing x1 x2 x3 with
  | zero =>
    unfold State.postWaiting
    with_reducible repeat' first
      | assumption | intro _ | refine keeps_postCqe H ?_ | refine keeps_upCtrl H1 ?_ | split | dsimp only
  | succ _ ih =>
    unfold State.postWaiting
    with_reducible repeat' first
      | assumption | intro _ | refine ih ?_ | refine keeps_postCqe H ?_ | refine keeps_upCtrl H1 ?_ | split | dsimp only

theorem keeps_nvmeCqBell {P : State → Prop} {s : State} {fn : Nat} {qid : Nat} {val : Nat} (H : Keeps P 0x4c00191) (h0 : P s) : P
    (State.nvmeCqBell s fn qid val) := by
  have H1 : Keeps P 0x80 := H.mono rfl
  unfold State.nvmeCqBell
  with_reducible repeat' first
    | assumption | intro _ | refine keeps_postWaiting H ?_ | refine keeps_upQueue H1 ?_ | split | dsimp only

theorem keeps_heldBell {P : State → Prop} {s : State} {v : Nat} {e : Nat × Nat} (H : Keeps P 0x4c001d1) (h0 : P s) : P (State.heldBell s v
    e) := by
  have H1 : Keeps P 0x4c00191 := H.mono rfl
  have H2 : Keeps P 0x80 := H.mono rfl
  have H3 : Keeps P 0x4400151 := H.mono rfl
  unfold State.heldBell
  with_reducible repeat' first
    | assumption | intro _ | refine keeps_nvmeCqBell H1 ?_ | refine keeps_nvmeSqBell H2 ?_ | refine keeps_cqHeadTo H3 ?_
    | refine keeps_sqTail H3 ?_ | split | dsimp only

theorem keeps_vfRelease {P : State → Prop} {s : State} {v : Nat} (H : Keeps P 0x7c4f5d7) (h0 : P s) : P (State.vfRelease s v) := by
  have H1 : Keeps P 0x4c001d1 := H.mono rfl
  have H2 : Keeps P 0x1000 := H.mono rfl
  have H3 : Keeps P 0x4c08115 := H.mono rfl
  have H4 : Keeps P 0x800000 := H.mono rfl
  have H5 : Keeps P 0x7c47557 := H.mono rfl
  have H6 : Keeps P 0x4400111 := H.mono rfl
  unfold State.vfRelease
  with_reducible repeat' first
    | assumption | intro _ | refine keeps_foldl ?_ ?_ | refine keeps_heldBell H1 ?_ | refine keeps_shuFreeze H2 ?_
    | refine keeps_weaveJob H3 ?_ | refine keeps_upVf H4 ?_ | refine keeps_tapKick H5 ?_ | refine keeps_withObs H6 ?_ ?_
    | refine keeps_sendMsg H6 ?_ | split | dsimp only

theorem keeps_opVfResume {P : State → Prop} (H : Keeps P 0x7c4f5d7) : SpecAll P opVfResume := by
  have H1 : Keeps P 0x800000 := H.mono rfl
  refine ⟨fun _ _ _ _ _ => ?_, fun _ _ _ _ => ?_⟩ <;> dsimp only [opVfResume]
  with_reducible repeat' first
    | assumption | intro _ | exact VAll.refuse _ _ | exact VAll.refuseAt _ _ _ | refine VAll.done _ _ _ _ ?_
    | refine VAll.doneAs _ _ _ _ _ ?_ | refine VAll.wait _ _ _ ?_ | refine keeps_vfRelease H ?_ | refine keeps_onVf ?_ ?_
    | refine keeps_Verdict_ok ?_ | refine keeps_upVf H1 ?_ | split | dsimp only

theorem keeps_execVfResume {P : State → Prop} {h : Hdr} {p : Bytes} {s : State} (H : Keeps P 0x7c4f5d7) (h2 : P s) : ResAll P (execVfResume
    h p s) := by
  have H1 : Keeps P 0x6c00557 := H.mono rfl
  unfold execVfResume
  with_reducible repeat' first
    | assumption | intro _ | refine res_next ?_ | refine keeps_opVfResume H
    | refine res_get ‹_ = Host.Outcome.next _› (keeps_runPkt H1 ?_ ?_) | refine keeps_runPkt H1 ?_ ?_ | split | dsimp only

theorem keeps_opVfSetMigKey {P : State → Prop} (H : Keeps P 0x800) : SpecAll P opVfSetMigKey := by
  refine ⟨fun _ _ _ _ _ => ?_, fun _ _ _ _ => ?_⟩ <;> dsimp only [opVfSetMigKey]
  with_reducible repeat' first
    | assumption | intro _ | exact VAll.refuse _ _ | exact VAll.refuseAt _ _ _ | refine VAll.done _ _ _ _ ?_
    | refine VAll.doneAs _ _ _ _ _ ?_ | refine VAll.wait _ _ _ ?_ | refine keeps_upCip H ?_ | refine keeps_Verdict_ok ?_ | split
    | dsimp only

theorem keeps_execVfSetMigKey {P : State → Prop} {h : Hdr} {p : Bytes} {s : State} (H : Keeps P 0x6c00d57) (h2 : P s) : ResAll P
    (execVfSetMigKey h p s) := by
  have H1 : Keeps P 0x800 := H.mono rfl
  have H2 : Keeps P 0x6c00557 := H.mono rfl
  unfold execVfSetMigKey
  with_reducible repeat' first
    | assumption | intro _ | refine res_next ?_ | refine keeps_opVfSetMigKey H1
    | refine res_get ‹_ = Host.Outcome.next _› (keeps_runPkt H2 ?_ ?_) | refine keeps_runPkt H2 ?_ ?_ | split | dsimp only

theorem keeps_cmdVf {P : State → Prop} {opcode : Nat} {h : Hdr} {p : Bytes} {data : Bytes} {s : State} (H : Keeps P 0x7f7fdf7) (h4 : P s) :
    ResAll P (cmdVf opcode h p data s) := by
  have H1 : Keeps P 0x6c00d57 := H.mono rfl
  have H2 : Keeps P 0x7c4f5d7 := H.mono rfl
  have H3 : Keeps P 0x6c3bdf7 := H.mono rfl
  have H4 : Keeps P 0x4800001 := H.mono rfl
  have H5 : Keeps P 0x6c01557 := H.mono rfl
  have H6 : Keeps P 0x800000 := H.mono rfl
  have H7 : Keeps P 0x6c00557 := H.mono rfl
  have H8 : Keeps P 0x6f00557 := H.mono rfl
  unfold cmdVf
  with_reducible repeat' first
    | assumption | intro _ | refine res_next ?_ | refine res_get ‹_ = Host.Outcome.next _› (keeps_execVfSetMigKey H1 ?_)
    | refine keeps_execVfSetMigKey H1 ?_ | refine res_get ‹_ = Host.Outcome.next _› (keeps_execVfResume H2 ?_)
    | refine keeps_execVfResume H2 ?_ | refine res_get ‹_ = Host.Outcome.next _› (keeps_execVfRestore H3 ?_)
    | refine keeps_execVfRestore H3 ?_ | refine keeps_opVfSave H4 | refine res_get ‹_ = Host.Outcome.next _› (keeps_execVfFreeze H5 ?_)
    | refine keeps_execVfFreeze H5 ?_ | refine keeps_opVfTrack H6 | refine res_get ‹_ = Host.Outcome.next _› (keeps_execVfSetMbox H7 ?_)
    | refine keeps_execVfSetMbox H7 ?_ | refine res_get ‹_ = Host.Outcome.next _› (keeps_execVfGetResources H7 ?_)
    | refine keeps_execVfGetResources H7 ?_ | refine res_get ‹_ = Host.Outcome.next _› (keeps_execVfSetResources H7 ?_)
    | refine keeps_execVfSetResources H7 ?_ | refine res_get ‹_ = Host.Outcome.next _› (keeps_execOther H8 ?_)
    | refine keeps_execOther H8 ?_ | refine res_get ‹_ = Host.Outcome.next _› (keeps_runPkt H7 ?_ ?_) | refine keeps_runPkt H7 ?_ ?_
    | split | dsimp only

theorem keeps_execOpcode {P : State → Prop} {opcode : Nat} {h : Hdr} {p : Bytes} {data : Bytes} {s : State} (H : Keeps P 0xfffffff) (h4 : P
    s) : ResAll P (execOpcode opcode h p data s) := by
  have H1 : Keeps P 0x7f7fdf7 := H.mono rfl
  have H2 : Keeps P 0x7f00557 := H.mono rfl
  have H3 : Keeps P 0x6ffbfff := H.mono rfl
  have H4 : Keeps P 0x7fb05d7 := H.mono rfl
  have H5 : Keeps P 0x6f00dd7 := H.mono rfl
  have H6 : Keeps P 0x6f00d57 := H.mono rfl
  have H7 : Keeps P 0x6f00757 := H.mono rfl
  have H8 : Keeps P 0x6f185f7 := H.mono rfl
  have H9 : Keeps P 0x6f385f7 := H.mono rfl
  have H10 : Keeps P 0x7f5f5f7 := H.mono rfl
  have H11 : Keeps P 0x7f475d7 := H.mono rfl
  have H12 : Keeps P 0x7f47557 := H.mono rfl
  have H13 : Keeps P 0x6fb0577 := H.mono rfl
  have H14 : Keeps P 0x6f00557 := H.mono rfl
  unfold execOpcode
  with_reducible repeat' first
    | assumption | intro _ | refine res_next ?_ | refine res_get ‹_ = Host.Outcome.next _› (keeps_cmdVf H1 ?_) | refine keeps_cmdVf H1 ?_
    | refine res_get ‹_ = Host.Outcome.next _› (keeps_cmdFw H2 ?_) | refine keeps_cmdFw H2 ?_
    | refine res_get ‹_ = Host.Outcome.next _› (keeps_cmdObs H3 ?_) | refine keeps_cmdObs H3 ?_
    | refine res_get ‹_ = Host.Outcome.next _› (keeps_cmdCkp H4 ?_) | refine keeps_cmdCkp H4 ?_
    | refine res_get ‹_ = Host.Outcome.next _› (keeps_cmdSto H5 ?_) | refine keeps_cmdSto H5 ?_
    | refine res_get ‹_ = Host.Outcome.next _› (keeps_cmdCip H6 ?_) | refine keeps_cmdCip H6 ?_
    | refine res_get ‹_ = Host.Outcome.next _› (keeps_cmdHed H7 ?_) | refine keeps_cmdHed H7 ?_
    | refine res_get ‹_ = Host.Outcome.next _› (keeps_cmdNet H8 ?_) | refine keeps_cmdNet H8 ?_
    | refine res_get ‹_ = Host.Outcome.next _› (keeps_cmdFeed H9 ?_) | refine keeps_cmdFeed H9 ?_
    | refine res_get ‹_ = Host.Outcome.next _› (keeps_cmdLoom H10 ?_) | refine keeps_cmdLoom H10 ?_
    | refine res_get ‹_ = Host.Outcome.next _› (keeps_cmdShu H11 ?_) | refine keeps_cmdShu H11 ?_
    | refine res_get ‹_ = Host.Outcome.next _› (keeps_cmdTap H12 ?_) | refine keeps_cmdTap H12 ?_
    | refine res_get ‹_ = Host.Outcome.next _› (keeps_cmdCue H13 ?_) | refine keeps_cmdCue H13 ?_
    | refine res_get ‹_ = Host.Outcome.next _› (keeps_cmdModule H ?_) | refine keeps_cmdModule H ?_
    | refine res_get ‹_ = Host.Outcome.next _› (keeps_execOther H14 ?_) | refine keeps_execOther H14 ?_ | split | dsimp only

theorem keeps_qpRead {P : State → Prop} {s : State} {qpn : Nat} {op : TxOp} {addr : Nat} {rkey : Nat} {len : Nat} (H : Keeps P 0x4400513)
    (h0 : P s) : P (State.qpRead s qpn op addr rkey len) := by
  unfold State.qpRead
  with_reducible repeat' first
    | assumption | intro _ | refine keeps_qpSend H ?_ | split | dsimp only

theorem keeps_paramRead {P : State → Prop} {s : State} {m : Member} {addr : Nat} {rkey : Nat} {len : Nat} (H : Keeps P 0x4400513) (h0 : P s)
    : P (State.paramRead s m addr rkey len) := by
  have H1 : Keeps P 0x100 := H.mono rfl
  unfold State.paramRead
  with_reducible repeat' first
    | assumption | intro _ | refine keeps_qpRead H ?_ | refine keeps_upQpn H1 ?_ | split | dsimp only

theorem keeps_execForwardedCommand {P : State → Prop} {member : Nat} {entry : Bytes} {params : Bytes} {readOk : Bool} {data : Bytes} {s :
    State} (H : Keeps P 0xfffffff) (h5 : P s) : ResAll P (execForwardedCommand member entry params readOk data s) := by
  have H1 : Keeps P 0x100 := H.mono rfl
  have H2 : Keeps P 0x4400513 := H.mono rfl
  unfold execForwardedCommand
  with_reducible repeat' first
    | assumption | intro _ | refine res_next ?_ | refine keeps_upNet H1 ?_ | refine keeps_paramRead H2 ?_
    | refine res_get ‹_ = Host.Outcome.next _› (keeps_execOpcode H ?_) | refine keeps_execOpcode H ?_ | refine keeps_upMember H1 ?_ | split
    | dsimp only

theorem keeps_execMgmtCommand {P : State → Prop} {sess : Nat} {packet : Bytes} {data : Bytes} {s : State} (H : Keeps P 0xfffffff) (h3 : P s)
    : ResAll P (execMgmtCommand sess packet data s) := by
  have H1 : Keeps P 0x2000000 := H.mono rfl
  unfold execMgmtCommand
  with_reducible repeat' first
    | assumption | intro _ | refine res_next ?_ | refine keeps_upSm H1 ?_
    | refine res_get ‹_ = Host.Outcome.next _› (keeps_execOpcode H ?_) | refine keeps_execOpcode H ?_ | split | dsimp only

theorem keeps_cueMove {P : State → Prop} {s : State} {a : Nat} (H : Keeps P 0x4400131) (h0 : P s) : P (State.cueMove s a) := by
  have H1 : Keeps P 0x20 := H.mono rfl
  unfold State.cueMove
  with_reducible repeat' first
    | assumption | intro _ | refine keeps_upCue H1 ?_ | refine keeps_judgeLeads H ?_ | split | dsimp only

theorem keeps_cueLost {P : State → Prop} {s : State} (H : Keeps P 0x7cf0573) (h0 : P s) : P (State.cueLost s) := by
  have H1 : Keeps P 0x20 := H.mono rfl
  have H2 : Keeps P 0x6cb0573 := H.mono rfl
  have H3 : Keeps P 0x7c40113 := H.mono rfl
  have H4 : Keeps P 0x4400111 := H.mono rfl
  have H5 : Keeps P 0x4000000 := H.mono rfl
  unfold State.cueLost
  with_reducible repeat' first
    | assumption | intro _ | refine keeps_upCue H1 ?_ | refine keeps_cueState H2 ?_ | refine keeps_record H3 ?_
    | refine keeps_flag H4 ?_ ?_ | refine keeps_ao H5 ?_ | split | dsimp only

theorem keeps_cueInvalid {P : State → Prop} {s : State} {f : Cue → Cue} (H : Keeps P 0x20) (h0 : P s) : P (State.cueInvalid s f) := by
  unfold State.cueInvalid
  with_reducible repeat' first
    | assumption | intro _ | refine keeps_upCue H ?_ | split | dsimp only

theorem keeps_cueTryLock {P : State → Prop} {s : State} (H : Keeps P 0x6cb0573) (h0 : P s) : P (State.cueTryLock s) := by
  unfold State.cueTryLock
  with_reducible repeat' first
    | assumption | intro _ | refine keeps_cueState H ?_ | split | dsimp only

theorem keeps_cuePolicy {P : State → Prop} {s : State} {i : Nat} {a : Nat} (H : Keeps P 0x44b0133) (h0 : P s) : P (State.cuePolicy s i a) :=
    by
  have H1 : Keeps P 0x44b0113 := H.mono rfl
  have H2 : Keeps P 0x20 := H.mono rfl
  unfold State.cuePolicy
  with_reducible repeat' first
    | assumption | intro _ | refine keeps_cueAct H1 ?_ | refine keeps_upEvents H2 ?_ | split | dsimp only

theorem keeps_cueAll {P : State → Prop} {s : State} (H : Keeps P 0x6cb85f7) (h0 : P s) : P (State.cueAll s) := by
  unfold State.cueAll
  with_reducible repeat' first
    | assumption | intro _ | refine keeps_cueTo H ?_ | split | dsimp only

theorem keeps_loomMaster {P : State → Prop} {s : State} {old : Nat} {new : Nat} (H : Keeps P 0x4c08517) (h0 : P s) : P (State.loomMaster s
    old new) := by
  have H1 : Keeps P 0x8000 := H.mono rfl
  have H2 : Keeps P 0x4408513 := H.mono rfl
  have H3 : Keeps P 0x4400111 := H.mono rfl
  unfold State.loomMaster
  with_reducible repeat' first
    | assumption | intro _ | refine keeps_foldl ?_ ?_ | refine keeps_foldl_fst ?_ ?_ | refine keeps_foldl_snd ?_ ?_
    | refine keeps_upLoom H1 ?_ | refine keeps_loomRewind H ?_ | refine keeps_batchRelease H2 ?_ | refine keeps_upJob H1 ?_
    | refine keeps_flag H3 ?_ ?_ | split | dsimp only

theorem keeps_feedMaster {P : State → Prop} {s : State} {old : Nat} {new : Nat} (H : Keeps P 0x6c185f3) (h0 : P s) : P (State.feedMaster s
    old new) := by
  have H1 : Keeps P 0x10000 := H.mono rfl
  have H2 : Keeps P 0x4410111 := H.mono rfl
  unfold State.feedMaster
  with_reducible repeat' first
    | assumption | intro _ | refine keeps_foldl ?_ ?_ | refine keeps_foldl_fst ?_ ?_ | refine keeps_foldl_snd ?_ ?_
    | refine keeps_upFeed H1 ?_ | refine keeps_feedFlag H2 ?_ | refine keeps_abandon H ?_ | split | dsimp only

theorem keeps_cueMaster {P : State → Prop} {s : State} {a : Nat} {gen : Nat} (H : Keeps P 0x7cf85f7) (h0 : P s) : P (State.cueMaster s a
    gen) := by
  have H1 : Keeps P 0x20 := H.mono rfl
  have H2 : Keeps P 0x6c185f3 := H.mono rfl
  have H3 : Keeps P 0x4c08517 := H.mono rfl
  have H4 : Keeps P 0x6cb85f7 := H.mono rfl
  have H5 : Keeps P 0x44b0133 := H.mono rfl
  have H6 : Keeps P 0x4400111 := H.mono rfl
  have H7 : Keeps P 0x7cf0553 := H.mono rfl
  unfold State.cueMaster
  with_reducible repeat' first
    | assumption | intro _ | refine keeps_foldl ?_ ?_ | refine keeps_foldl_fst ?_ ?_ | refine keeps_foldl_snd ?_ ?_
    | refine keeps_upCue H1 ?_ | refine keeps_feedMaster H2 ?_ | refine keeps_loomMaster H3 ?_ | refine keeps_cueAll H4 ?_
    | refine keeps_cuePolicy H5 ?_ | refine keeps_cueNote H6 ?_ | refine keeps_ckpMaster H7 ?_ | refine keeps_flag H6 ?_ ?_ | split
    | dsimp only

theorem keeps_cueValid {P : State → Prop} {s : State} (H : Keeps P 0x6cb0573) (h0 : P s) : P (State.cueValid s) := by
  have H1 : Keeps P 0x20 := H.mono rfl
  unfold State.cueValid
  with_reducible repeat' first
    | assumption | intro _ | refine keeps_upCue H1 ?_ | refine keeps_cueTryLock H ?_ | split | dsimp only

theorem keeps_cueFrame {P : State → Prop} {s0 : State} {a : Nat} {hold : Bool} {took : Cue → Cue} (H : Keeps P 0x7cf0573) (h0 : P s0) : P
    (State.cueFrame s0 a hold took) := by
  have H1 : Keeps P 0x20 := H.mono rfl
  have H2 : Keeps P 0x6cb0573 := H.mono rfl
  have H3 : Keeps P 0x4400131 := H.mono rfl
  have H4 : Keeps P 0x4400111 := H.mono rfl
  unfold State.cueFrame
  with_reducible repeat' first
    | assumption | intro _ | refine keeps_upCue H1 ?_ | refine keeps_cueValid H2 ?_ | refine keeps_cueInvalid H1 ?_
    | refine keeps_cueLost H ?_ | refine keeps_cueMove H3 ?_ | refine keeps_cueNow H1 ?_ | refine keeps_flag H4 ?_ ?_ | split | dsimp only

theorem keeps_onSource {P : State → Prop} {s : State} {src : CueSrc} {f : State → State} (h0 : P s) (h2 : ∀ y1, P y1 → P (f y1)) : ResAll P
    (onSource s src f) := by
  unfold onSource
  with_reducible repeat' first
    | assumption | intro _ | refine h2 _ ?_ | refine res_next ?_ | refine res_get ‹_ = Host.Outcome.next _› (keeps_onMainIf ?_ ?_)
    | refine keeps_onMainIf ?_ ?_ | split | dsimp only

theorem keeps_serialBad {P : State → Prop} {s : State} (H : Keeps P 0x20) (h0 : P s) : P (State.serialBad s) := by
  unfold State.serialBad
  with_reducible repeat' first
    | assumption | intro _ | refine keeps_cueInvalid H ?_ | split | dsimp only

theorem keeps_execPositionFrame {P : State → Prop} {frame : Nat} {codeOk : Bool} {s : State} (H : Keeps P 0x7cf85f7) (h2 : P s) : ResAll P
    (execPositionFrame frame codeOk s) := by
  have H1 : Keeps P 0x20 := H.mono rfl
  have H2 : Keeps P 0x7cf0573 := H.mono rfl
  have H3 : Keeps P 0x6cb0573 := H.mono rfl
  unfold execPositionFrame
  with_reducible repeat' first
    | assumption | intro _ | refine res_next ?_ | refine keeps_upCue H1 ?_ | refine keeps_serialBad H1 ?_
    | refine res_get ‹_ = Host.Outcome.next _› (keeps_onSource ?_ ?_) | refine keeps_onSource ?_ ?_ | refine keeps_cueFrame H2 ?_
    | refine keeps_cueValid H3 ?_ | refine keeps_cueMaster H ?_ | refine keeps_cueInvalid H1 ?_ | refine keeps_cueNow H1 ?_ | split
    | dsimp only

theorem keeps_execEpochFrame {P : State → Prop} {frame : Nat} {codeOk : Bool} {s : State} (H : Keeps P 0x6cb0573) (h2 : P s) : ResAll P
    (execEpochFrame frame codeOk s) := by
  have H1 : Keeps P 0x20 := H.mono rfl
  unfold execEpochFrame
  with_reducible repeat' first
    | assumption | intro _ | refine res_next ?_ | refine keeps_upCue H1 ?_ | refine keeps_serialBad H1 ?_
    | refine res_get ‹_ = Host.Outcome.next _› (keeps_onSource ?_ ?_) | refine keeps_onSource ?_ ?_ | refine keeps_cueTryLock H ?_ | split
    | dsimp only

theorem keeps_execCueSwPosWrite {P : State → Prop} {a : Access} {s : State} (H : Keeps P 0x7cf85ff) (h1 : P s) : ResAll P (execCueSwPosWrite
    a s) := by
  have H1 : Keeps P 0x20 := H.mono rfl
  have H2 : Keeps P 0x7cf85f7 := H.mono rfl
  have H3 : Keeps P 0x4400131 := H.mono rfl
  have H4 : Keeps P 0x6cb0573 := H.mono rfl
  have H5 : Keeps P 0x4800001 := H.mono rfl
  have H6 : Keeps P 0x40008 := H.mono rfl
  have H7 : Keeps P 0x40000 := H.mono rfl
  unfold execCueSwPosWrite
  with_reducible repeat' first
    | assumption | intro _ | refine res_next ?_ | refine keeps_upCue H1 ?_ | refine keeps_cueMaster H2 ?_ | refine keeps_cueMove H3 ?_
    | refine keeps_cueState H4 ?_ | refine res_get ‹_ = Host.Outcome.next _› (keeps_barWrite H5 ?_ ?_) | refine keeps_barWrite H5 ?_ ?_
    | refine keeps_write64 H6 ?_ ?_ | refine keeps_accessError H7 ?_ | split | dsimp only

theorem keeps_execEthCueFrame {P : State → Prop} {frame : Bytes} {s : State} (H : Keeps P 0x7cf85f7) (h1 : P s) : ResAll P (execEthCueFrame
    frame s) := by
  have H1 : Keeps P 0x100 := H.mono rfl
  have H2 : Keeps P 0x20 := H.mono rfl
  have H3 : Keeps P 0x7cf0573 := H.mono rfl
  have H4 : Keeps P 0x6cb0573 := H.mono rfl
  unfold execEthCueFrame
  with_reducible repeat' first
    | assumption | intro _ | refine res_next ?_ | refine keeps_upNet H1 ?_ | refine keeps_upCue H2 ?_ | refine keeps_cueFrame H3 ?_
    | refine keeps_cueValid H4 ?_ | refine keeps_cueMaster H ?_ | refine keeps_cueInvalid H2 ?_ | refine keeps_cueNow H2 ?_
    | refine res_get ‹_ = Host.Outcome.next _› (keeps_onMain ?_ ?_) | refine keeps_onMain ?_ ?_ | refine keeps_upMember H1 ?_ | split
    | dsimp only

theorem keeps_execCueFrameEmit {P : State → Prop} {s : State} (H : Keeps P 0x4400533) (h0 : P s) : ResAll P (execCueFrameEmit s) := by
  have H1 : Keeps P 0x20 := H.mono rfl
  have H2 : Keeps P 0x100 := H.mono rfl
  have H3 : Keeps P 0x4400513 := H.mono rfl
  unfold execCueFrameEmit
  with_reducible repeat' first
    | assumption | intro _ | refine res_next ?_ | refine keeps_foldl ?_ ?_ | refine keeps_upCue H1 ?_
    | refine res_get ‹_ = Host.Outcome.next _› (keeps_onMainIf ?_ ?_) | refine keeps_onMainIf ?_ ?_ | refine keeps_upMember H2 ?_
    | refine keeps_State_mboxWrite H3 ?_ | split | dsimp only

theorem keeps_execPathDelayEcho {P : State → Prop} {s : State} (H : Keeps P 0x4400533) (h0 : P s) : ResAll P (execPathDelayEcho s) := by
  have H1 : Keeps P 0x20 := H.mono rfl
  have H2 : Keeps P 0x4400513 := H.mono rfl
  unfold execPathDelayEcho
  with_reducible repeat' first
    | assumption | intro _ | refine res_next ?_ | refine keeps_upCue H1 ?_ | refine keeps_qpRead H2 ?_
    | refine res_get ‹_ = Host.Outcome.next _› (keeps_onMainIf ?_ ?_) | refine keeps_onMainIf ?_ ?_ | split | dsimp only

theorem keeps_execEchoReadResponse {P : State → Prop} {s : State} (H : Keeps P 0x120) (h0 : P s) : ResAll P (execEchoReadResponse s) := by
  have H1 : Keeps P 0x20 := H.mono rfl
  have H2 : Keeps P 0x100 := H.mono rfl
  unfold execEchoReadResponse
  with_reducible repeat' first
    | assumption | intro _ | refine res_next ?_ | refine keeps_upCue H1 ?_ | refine res_get ‹_ = Host.Outcome.next _› (keeps_onMain ?_ ?_)
    | refine keeps_onMain ?_ ?_ | refine keeps_upQpn H2 ?_ | split | dsimp only

theorem keeps_heldOut {P : State → Prop} {s : State} {e : HeldPkt} (H : Keeps P 0x4000001) (h0 : P s) : P (State.heldOut s e) := by
  have H1 : Keeps P 0x1 := H.mono rfl
  have H2 : Keeps P 0x4000000 := H.mono rfl
  unfold State.heldOut
  with_reducible repeat' first
    | assumption | intro _ | refine keeps_emit H1 ?_ | refine keeps_ao H2 ?_ | split | dsimp only

theorem keeps_pausesEnd {P : State → Prop} {s : State} (H : Keeps P 0x4000101) (h0 : P s) : P (State.pausesEnd s) := by
  have H1 : Keeps P 0x100 := H.mono rfl
  have H2 : Keeps P 0x4000001 := H.mono rfl
  unfold State.pausesEnd
  with_reducible repeat' first
    | assumption | intro _ | refine keeps_foldl ?_ ?_ | refine keeps_foldl_fst ?_ ?_ | refine keeps_foldl_snd ?_ ?_
    | refine keeps_upNet H1 ?_ | refine keeps_heldOut H2 ?_ | split | dsimp only

theorem keeps_execCueInterpolate {P : State → Prop} {ticks : Nat} {s : State} (H : Keeps P 0x4000131) (h1 : P s) : ResAll P
    (execCueInterpolate ticks s) := by
  have H1 : Keeps P 0x10 := H.mono rfl
  have H2 : Keeps P 0x4000101 := H.mono rfl
  have H3 : Keeps P 0x20 := H.mono rfl
  unfold execCueInterpolate
  with_reducible repeat' first
    | assumption | intro _ | refine res_next ?_ | refine keeps_upAon H1 ?_ | refine keeps_pausesEnd H2 ?_ | refine keeps_cueNow H3 ?_
    | refine res_get ‹_ = Host.Outcome.next _› (keeps_onAlways ?_ ?_) | refine keeps_onAlways ?_ ?_ | split | dsimp only

theorem keeps_execPtmExchange {P : State → Prop} {hostNs : Nat} {s : State} (H : Keeps P 0x10) (h1 : P s) : ResAll P (execPtmExchange hostNs
    s) := by
  unfold execPtmExchange
  with_reducible repeat' first
    | assumption | intro _ | refine res_next ?_ | refine keeps_upAon H ?_ | refine res_get ‹_ = Host.Outcome.next _› (keeps_onAlways ?_ ?_)
    | refine keeps_onAlways ?_ ?_ | split | dsimp only

theorem keeps_execCueHoldoverTimeout {P : State → Prop} {s : State} (H : Keeps P 0x6cb0573) (h0 : P s) : ResAll P (execCueHoldoverTimeout s)
    := by
  have H1 : Keeps P 0x20 := H.mono rfl
  unfold execCueHoldoverTimeout
  with_reducible repeat' first
    | assumption | intro _ | refine res_next ?_ | refine keeps_upCue H1 ?_ | refine keeps_cueState H ?_ | refine keeps_cueNow H1 ?_
    | refine res_get ‹_ = Host.Outcome.next _› (keeps_onMainIf ?_ ?_) | refine keeps_onMainIf ?_ ?_ | split | dsimp only

theorem keeps_execCueHoldExpiry {P : State → Prop} {s : State} (H : Keeps P 0x7cf0573) (h0 : P s) : ResAll P (execCueHoldExpiry s) := by
  have H1 : Keeps P 0x20 := H.mono rfl
  unfold execCueHoldExpiry
  with_reducible repeat' first
    | assumption | intro _ | refine res_next ?_ | refine keeps_cueLost H ?_ | refine keeps_cueNow H1 ?_
    | refine res_get ‹_ = Host.Outcome.next _› (keeps_onMainIf ?_ ?_) | refine keeps_onMainIf ?_ ?_ | split | dsimp only

theorem keeps_execCueEventFire {P : State → Prop} {s : State} (H : Keeps P 0x6cb85f7) (h0 : P s) : ResAll P (execCueEventFire s) := by
  have H1 : Keeps P 0x44b0133 := H.mono rfl
  unfold execCueEventFire
  with_reducible repeat' first
    | assumption | intro _ | refine res_next ?_ | refine keeps_cueTo H ?_ | refine keeps_cueFire H1 ?_
    | refine res_get ‹_ = Host.Outcome.next _› (keeps_onMain ?_ ?_) | refine keeps_onMain ?_ ?_ | split | dsimp only

theorem keeps_execLoomFetchStart {P : State → Prop} {job : Nat} {s : State} (H : Keeps P 0x6cb85f7) (h1 : P s) : ResAll P
    (execLoomFetchStart job s) := by
  have H1 : Keeps P 0x6cb85d7 := H.mono rfl
  unfold execLoomFetchStart
  with_reducible repeat' first
    | assumption | intro _ | refine res_next ?_ | refine keeps_ownEvent H ?_ ?_ | refine keeps_ownFire H1 ?_
    | refine res_get ‹_ = Host.Outcome.next _› (keeps_onMain ?_ ?_) | refine keeps_onMain ?_ ?_ | split | dsimp only

theorem keeps_execRescueFetch {P : State → Prop} {job : Nat} {warp : Nat} {abs : Nat} {s : State} (H : Keeps P 0x6cb85f7) (h3 : P s) :
    ResAll P (execRescueFetch job warp abs s) := by
  unfold execRescueFetch
  with_reducible repeat' first
    | assumption | intro _ | refine res_next ?_ | refine keeps_ownEvent H ?_ ?_
    | refine res_get ‹_ = Host.Outcome.next _› (keeps_onMain ?_ ?_) | refine keeps_onMain ?_ ?_ | refine keeps_id ?_ | split | dsimp only

theorem keeps_execWeaveClose {P : State → Prop} {job : Nat} {consumer : Nat} {s : State} (H : Keeps P 0x6cb85f7) (h2 : P s) : ResAll P
    (execWeaveClose job consumer s) := by
  have H1 : Keeps P 0x4c18517 := H.mono rfl
  unfold execWeaveClose
  with_reducible repeat' first
    | assumption | intro _ | refine res_next ?_ | refine keeps_ownEvent H ?_ ?_ | refine keeps_weaveClose H1 ?_
    | refine res_get ‹_ = Host.Outcome.next _› (keeps_onMain ?_ ?_) | refine keeps_onMain ?_ ?_ | split | dsimp only

theorem keeps_execAccelPresence {P : State → Prop} {accel : Nat} {s : State} (H : Keeps P 0x4410111) (h1 : P s) : ResAll P
    (execAccelPresence accel s) := by
  unfold execAccelPresence
  with_reducible repeat' first
    | assumption | intro _ | refine res_next ?_ | refine res_get ‹_ = Host.Outcome.next _› (keeps_onMain ?_ ?_) | refine keeps_onMain ?_ ?_
    | refine keeps_upAcc H ?_ | split | dsimp only

theorem keeps_accConfigure {P : State → Prop} {s : State} {a : Nat} {l : List AccFn} (H : Keeps P 0x1) (h0 : P s) : P (State.accConfigure s
    a l) := by
  unfold State.accConfigure
  with_reducible repeat' first
    | assumption | intro _ | refine keeps_foldl ?_ ?_ | refine keeps_emit H ?_ | split | dsimp only

theorem keeps_execAccelEnumerated {P : State → Prop} {accel : Nat} {ok : Bool} {funcs : List AccelFn} {speed : Nat} {width : Nat} {vendor :
    Nat} {device : Nat} {s : State} (H : Keeps P 0x4410111) (h7 : P s) : ResAll P (execAccelEnumerated accel ok funcs speed width vendor
    device s) := by
  have H1 : Keeps P 0x10000 := H.mono rfl
  have H2 : Keeps P 0x1 := H.mono rfl
  have H3 : Keeps P 0x4400111 := H.mono rfl
  unfold execAccelEnumerated
  with_reducible repeat' first
    | assumption | intro _ | refine res_next ?_ | refine keeps_upFeed H1 ?_ | refine keeps_accConfigure H2 ?_
    | refine res_get ‹_ = Host.Outcome.next _› (keeps_onMain ?_ ?_) | refine keeps_onMain ?_ ?_ | refine keeps_upAcc H ?_
    | refine keeps_flag H3 ?_ ?_ | split | dsimp only

theorem keeps_execLinkTrainingTimeout {P : State → Prop} {accel : Nat} {s : State} (H : Keeps P 0x4410111) (h1 : P s) : ResAll P
    (execLinkTrainingTimeout accel s) := by
  unfold execLinkTrainingTimeout
  with_reducible repeat' first
    | assumption | intro _ | refine res_next ?_ | refine res_get ‹_ = Host.Outcome.next _› (keeps_onMain ?_ ?_) | refine keeps_onMain ?_ ?_
    | refine keeps_upAcc H ?_ | split | dsimp only

theorem keeps_execAccelRetryTimer {P : State → Prop} {accel : Nat} {s : State} (H : Keeps P 0x4410111) (h1 : P s) : ResAll P
    (execAccelRetryTimer accel s) := by
  unfold execAccelRetryTimer
  with_reducible repeat' first
    | assumption | intro _ | refine res_next ?_ | refine res_get ‹_ = Host.Outcome.next _› (keeps_onMain ?_ ?_) | refine keeps_onMain ?_ ?_
    | refine keeps_upAcc H ?_ | split | dsimp only

theorem keeps_latchWrite {P : State → Prop} {w : Window} {n : Nat} {size : Nat} {s : State} {f : State → Nat → Bool → State} (H : Keeps P
    0x4870001) (h3 : P s) (h4 : ∀ y1 y2 y3, P y1 → P (f y1 y2 y3)) : ResAll P (latchWrite w n size s f) := by
  have H1 : Keeps P 0x10000 := H.mono rfl
  have H2 : Keeps P 0x30000 := H.mono rfl
  have H3 : Keeps P 0x4800001 := H.mono rfl
  have H4 : Keeps P 0x40000 := H.mono rfl
  unfold latchWrite
  with_reducible repeat' first
    | assumption | intro _ | refine h4 _ _ _ ?_ | refine res_next ?_ | refine keeps_upFeed H1 ?_ | refine keeps_latchRefuse H2 ?_
    | refine res_get ‹_ = Host.Outcome.next _› (keeps_onMain ?_ ?_) | refine keeps_onMain ?_ ?_
    | refine res_get ‹_ = Host.Outcome.next _› (keeps_barWrite H3 ?_ ?_) | refine keeps_barWrite H3 ?_ ?_ | refine keeps_accessError H4 ?_
    | split | dsimp only

theorem keeps_execLatchAdd {P : State → Prop} {w : Window} {latch : Nat} {size : Nat} {val : Nat} {s : State} (H : Keeps P 0x4cf0113) (h4 :
    P s) : ResAll P (execLatchAdd w latch size val s) := by
  have H1 : Keeps P 0x4870001 := H.mono rfl
  have H2 : Keeps P 0x44b0113 := H.mono rfl
  unfold execLatchAdd
  with_reducible repeat' first
    | assumption | intro _ | refine res_next ?_ | refine res_get ‹_ = Host.Outcome.next _› (keeps_latchWrite H1 ?_ ?_)
    | refine keeps_latchWrite H1 ?_ ?_ | refine keeps_latchAdd H2 ?_ | split | dsimp only

theorem keeps_latchPost {P : State → Prop} {s : State} {n : Nat} {val : Nat} {feed : Bool} (H : Keeps P 0x6c385f3) (h0 : P s) : P
    (State.latchPost s n val feed) := by
  have H1 : Keeps P 0x30000 := H.mono rfl
  have H2 : Keeps P 0x4430113 := H.mono rfl
  have H3 : Keeps P 0x20000 := H.mono rfl
  unfold State.latchPost
  with_reducible repeat' first
    | assumption | intro _ | exact opt_none | refine opt_some ?_ | refine opt_bindS ?_ ?_ | refine opt_bind ?_ | refine opt_ite ?_ ?_
    | refine keeps_ringReset H ?_ | refine keeps_latchRefuse H1 ?_ | refine keeps_latchSet H2 ?_ | refine keeps_upCell H3 ?_ | split
    | dsimp only

theorem keeps_execLatchPost {P : State → Prop} {w : Window} {latch : Nat} {size : Nat} {val : Nat} {s : State} (H : Keeps P 0x6c785f3) (h4 :
    P s) : ResAll P (execLatchPost w latch size val s) := by
  have H1 : Keeps P 0x6c385f3 := H.mono rfl
  have H2 : Keeps P 0x4870001 := H.mono rfl
  unfold execLatchPost
  with_reducible repeat' first
    | assumption | intro _ | refine res_next ?_ | refine keeps_latchPost H1 ?_
    | refine res_get ‹_ = Host.Outcome.next _› (keeps_latchWrite H2 ?_ ?_) | refine keeps_latchWrite H2 ?_ ?_ | split | dsimp only

theorem keeps_latchReg {P : State → Prop} {a : Access} {reg : Nat} {s : State} {old : Latch → Nat} {f : State → Nat → Nat → State} (H :
    Keeps P 0x4840009) (h2 : P s) (h4 : ∀ y1 y2 y3, P y1 → P (f y1 y2 y3)) : ResAll P (latchReg a reg s old f) := by
  have H1 : Keeps P 0x4800001 := H.mono rfl
  have H2 : Keeps P 0x40008 := H.mono rfl
  unfold latchReg
  with_reducible repeat' first
    | assumption | intro _ | refine h4 _ _ _ ?_ | refine res_next ?_ | refine res_get ‹_ = Host.Outcome.next _› (keeps_barWrite H1 ?_ ?_)
    | refine keeps_barWrite H1 ?_ ?_ | refine keeps_write64 H2 ?_ ?_ | split | dsimp only

theorem keeps_execLatchValWrite {P : State → Prop} {a : Access} {s : State} (H : Keeps P 0x4c7011b) (h1 : P s) : ResAll P (execLatchValWrite
    a s) := by
  have H1 : Keeps P 0x4840009 := H.mono rfl
  have H2 : Keeps P 0x4430113 := H.mono rfl
  unfold execLatchValWrite
  with_reducible repeat' first
    | assumption | intro _ | refine res_next ?_ | refine res_get ‹_ = Host.Outcome.next _› (keeps_latchReg H1 ?_ ?_)
    | refine keeps_latchReg H1 ?_ ?_ | refine keeps_latchSet H2 ?_ | split | dsimp only

theorem keeps_execLatchThreshWrite {P : State → Prop} {a : Access} {s : State} (H : Keeps P 0x4c7011b) (h1 : P s) : ResAll P
    (execLatchThreshWrite a s) := by
  have H1 : Keeps P 0x4840009 := H.mono rfl
  have H2 : Keeps P 0x4430113 := H.mono rfl
  unfold execLatchThreshWrite
  with_reducible repeat' first
    | assumption | intro _ | refine res_next ?_ | refine res_get ‹_ = Host.Outcome.next _› (keeps_latchReg H1 ?_ ?_)
    | refine keeps_latchReg H1 ?_ ?_ | refine keeps_latchThresh H2 ?_ | split | dsimp only

theorem keeps_execLatchCfgWrite {P : State → Prop} {a : Access} {s : State} (H : Keeps P 0x4c7011b) (h1 : P s) : ResAll P (execLatchCfgWrite
    a s) := by
  have H1 : Keeps P 0x4840009 := H.mono rfl
  have H2 : Keeps P 0x4430113 := H.mono rfl
  have H3 : Keeps P 0x20000 := H.mono rfl
  unfold execLatchCfgWrite
  with_reducible repeat' first
    | assumption | intro _ | refine res_next ?_ | refine res_get ‹_ = Host.Outcome.next _› (keeps_latchReg H1 ?_ ?_)
    | refine keeps_latchReg H1 ?_ ?_ | refine keeps_latchArm H2 ?_ | refine keeps_upCell H3 ?_ | split | dsimp only

theorem keeps_execUpstreamAccess {P : State → Prop} {accel : Nat} {addr : Nat} {size : Nat} {kind : Upstream} {s : State} (H : Keeps P
    0x30001) (h4 : P s) : ResAll P (execUpstreamAccess accel addr size kind s) := by
  have H1 : Keeps P 0x10000 := H.mono rfl
  have H2 : Keeps P 0x30000 := H.mono rfl
  have H3 : Keeps P 0x1 := H.mono rfl
  unfold execUpstreamAccess
  with_reducible repeat' first
    | assumption | intro _ | refine res_next ?_ | refine keeps_upFeed H1 ?_ | refine keeps_latchRefuse H2 ?_
    | refine res_get ‹_ = Host.Outcome.next _› (keeps_onMain ?_ ?_) | refine keeps_onMain ?_ ?_ | refine keeps_emit H3 ?_ | split
    | dsimp only

theorem keeps_execCreditMailboxEntry {P : State → Prop} {rkey : Nat} {entry : Bytes} {s : State} (H : Keeps P 0x6c385f3) (h2 : P s) : ResAll
    P (execCreditMailboxEntry rkey entry s) := by
  have H1 : Keeps P 0x100 := H.mono rfl
  unfold execCreditMailboxEntry
  with_reducible repeat' first
    | assumption | intro _ | refine res_next ?_ | refine keeps_upNet H1 ?_ | refine keeps_latchPost H ?_
    | refine res_get ‹_ = Host.Outcome.next _› (keeps_onMain ?_ ?_) | refine keeps_onMain ?_ ?_ | split | dsimp only

theorem keeps_sampleDrop {P : State → Prop} {s : State} {f : Loom → Loom} (H : Keeps P 0x4008000) (h0 : P s) : P (State.sampleDrop s f) :=
    by
  have H1 : Keeps P 0x8000 := H.mono rfl
  have H2 : Keeps P 0x4000000 := H.mono rfl
  unfold State.sampleDrop
  with_reducible repeat' first
    | assumption | intro _ | refine keeps_upLoom H1 ?_ | refine keeps_ao H2 ?_ | split | dsimp only

theorem keeps_sampleGone {P : State → Prop} {s : State} {h : Nat} {no : Nat} (H : Keeps P 0x4408513) (h0 : P s) : P (State.sampleGone s h
    no) := by
  have H1 : Keeps P 0x4008000 := H.mono rfl
  have H2 : Keeps P 0x8000 := H.mono rfl
  unfold State.sampleGone
  with_reducible repeat' first
    | assumption | intro _ | refine keeps_sampleDrop H1 ?_ | refine keeps_xSend H ?_ | refine keeps_upJob H2 ?_ | refine keeps_upJobX H2 ?_
    | split | dsimp only

theorem keeps_refill {P : State → Prop} {s : State} {h : Nat} {b : Batch} {bad : List Nat} (H : Keeps P 0x4408513) (h0 : P s) : P
    (State.refill s h b bad).1 := by
  have H1 : Keeps P 0x8000 := H.mono rfl
  unfold State.refill
  with_reducible repeat' first
    | assumption | intro _ | exact opt_none | refine opt_some ?_ | refine opt_map2 (P := P) ?_ ?_ | refine opt_map ?_
    | refine opt_ite ?_ ?_ | refine keeps_foldl ?_ ?_ | refine keeps_foldl_fst ?_ ?_ | refine keeps_foldl_snd ?_ ?_
    | refine opt_foldl ?_ ?_ | refine keeps_upLoom H1 ?_ | refine keeps_sampleGone H ?_ | refine keeps_release H ?_
    | refine keeps_upJob H1 ?_ | split | dsimp only

theorem keeps_gather {P : State → Prop} {a : Nat} {x1 : State} {x2 : Batch} (H : Keeps P 0x4418513) (h1 : P x1) : P (State.gather a x1 x2).1
    := by
  have H1 : Keeps P 0x10000 := H.mono rfl
  have H2 : Keeps P 0x4408513 := H.mono rfl
  induction a generalizing x1 x2 with
  | zero =>
    unfold State.gather
    with_reducible repeat' first
      | assumption | intro _ | refine keeps_upFeed H1 ?_ | refine eq_fst ‹_ = _› (keeps_refill H2 ?_) | refine keeps_refill H2 ?_ | split
      | dsimp only
  | succ _ ih =>
    unfold State.gather
    with_reducible repeat' first
      | assumption | intro _ | refine eq_fst ‹_ = _› (ih ?_) | refine ih ?_ | refine keeps_upFeed H1 ?_
      | refine eq_fst ‹_ = _› (keeps_refill H2 ?_) | refine keeps_refill H2 ?_ | split | dsimp only

theorem keeps_classServed {P : State → Prop} {s : State} {r : FRing} (H : Keeps P 0x10000) (h0 : P s) : P (State.classServed s r) := by
  unfold State.classServed
  with_reducible repeat' first
    | assumption | intro _ | refine keeps_upFeed H ?_ | split | dsimp only

theorem keeps_bodyWrite {P : State → Prop} {s : State} {r : FRing} {off : Nat} {b : Bytes} (H : Keeps P 0x4400513) (h0 : P s) : P
    (State.bodyWrite s r off b) := by
  have H1 : Keeps P 0x1 := H.mono rfl
  unfold State.bodyWrite
  with_reducible repeat' first
    | assumption | intro _ | refine keeps_qpWrite H ?_ | refine keeps_emit H1 ?_ | split | dsimp only

theorem keeps_ringWrite {P : State → Prop} {s : State} {r : FRing} {op : TxOp} {off : Nat} {b : Bytes} {fenced : Bool} (H : Keeps P
    0x4400513) (h0 : P s) : P (State.ringWrite s r op off b fenced) := by
  have H1 : Keeps P 0x1 := H.mono rfl
  unfold State.ringWrite
  with_reducible repeat' first
    | assumption | intro _ | refine keeps_qpWrite H ?_ | refine keeps_emit H1 ?_ | split | dsimp only

theorem keeps_sendBatch {P : State → Prop} {s : State} {ring : Nat} {r : FRing} {n : Nat} {b : Batch} {redelivered : Bool} (H : Keeps P
    0x4400513) (h0 : P s) : P (State.sendBatch s ring r n b redelivered).1 := by
  have H1 : Keeps P 0x4000000 := H.mono rfl
  unfold State.sendBatch
  with_reducible repeat' first
    | assumption | intro _ | refine keeps_ringWrite H ?_ | refine keeps_bodyWrite H ?_ | refine keeps_gRead H1 ?_ | split | dsimp only

theorem keeps_issue {P : State → Prop} {s : State} {ring : Nat} (H : Keeps P 0x6c385f3) (h0 : P s) : P (State.issue s ring) := by
  have H1 : Keeps P 0x10000 := H.mono rfl
  have H2 : Keeps P 0x4400513 := H.mono rfl
  have H3 : Keeps P 0x4418513 := H.mono rfl
  have H4 : Keeps P 0x4430113 := H.mono rfl
  have H5 : Keeps P 0x4410111 := H.mono rfl
  have H6 : Keeps P 0x6c185f3 := H.mono rfl
  unfold State.issue
  with_reducible repeat' first
    | assumption | intro _ | refine keeps_upFeed H1 ?_ | refine eq_fst ‹_ = _› (keeps_sendBatch H2 ?_) | refine keeps_sendBatch H2 ?_
    | refine keeps_classServed H1 ?_ | refine eq_fst ‹_ = _› (keeps_gather H3 ?_) | refine keeps_gather H3 ?_ | refine keeps_ringArm H4 ?_
    | refine keeps_feedFlag H5 ?_ | refine keeps_upRing H1 ?_ | refine keeps_abandon H6 ?_ | split | dsimp only

theorem keeps_execDeliveryIssue {P : State → Prop} {ring : Nat} {s : State} (H : Keeps P 0x6c385f3) (h1 : P s) : ResAll P (execDeliveryIssue
    ring s) := by
  unfold execDeliveryIssue
  with_reducible repeat' first
    | assumption | intro _ | refine res_next ?_ | refine keeps_issue H ?_ | refine res_get ‹_ = Host.Outcome.next _› (keeps_onMain ?_ ?_)
    | refine keeps_onMain ?_ ?_ | split | dsimp only

theorem keeps_landDelivery {P : State → Prop} {s : State} {ring : Nat} {r : FRing} {d : Delivery} (H : Keeps P 0x6c185f3) (h0 : P s) : P
    (State.landDelivery s ring r d) := by
  have H1 : Keeps P 0x4400513 := H.mono rfl
  have H2 : Keeps P 0x4410111 := H.mono rfl
  have H3 : Keeps P 0x10000 := H.mono rfl
  have H4 : Keeps P 0x4408513 := H.mono rfl
  have H5 : Keeps P 0x4400111 := H.mono rfl
  have H6 : Keeps P 0x4000000 := H.mono rfl
  unfold State.landDelivery
  with_reducible repeat' first
    | assumption | intro _ | refine keeps_ringWrite H1 ?_ | refine keeps_feedFlag H2 ?_ | refine keeps_upRing H3 ?_
    | refine keeps_batchRelease H4 ?_ | refine keeps_loomSettle H ?_ | refine keeps_note H5 ?_ | refine keeps_fnCtr H6 ?_
    | refine keeps_ao H6 ?_ | split | dsimp only

theorem keeps_execDeliveryLanded {P : State → Prop} {ring : Nat} {n : Nat} {s : State} (H : Keeps P 0x6c185f3) (h2 : P s) : ResAll P
    (execDeliveryLanded ring n s) := by
  have H1 : Keeps P 0x1 := H.mono rfl
  unfold execDeliveryLanded
  with_reducible repeat' first
    | assumption | intro _ | refine res_next ?_ | refine keeps_landDelivery H ?_ | refine keeps_releaseSettle H ?_
    | refine res_get ‹_ = Host.Outcome.next _› (keeps_onMain ?_ ?_) | refine keeps_onMain ?_ ?_ | refine keeps_emit H1 ?_ | split
    | dsimp only

theorem keeps_genChecked {P : State → Prop} {s : State} {ring : Nat} {n : Nat} {gen : Nat} (H : Keeps P 0x6c185f3) (h0 : P s) : P
    (State.genChecked s ring n gen) := by
  have H1 : Keeps P 0x10000 := H.mono rfl
  have H2 : Keeps P 0x4400513 := H.mono rfl
  have H3 : Keeps P 0x4410111 := H.mono rfl
  unfold State.genChecked
  with_reducible repeat' first
    | assumption | intro _ | refine keeps_upFeed H1 ?_ | refine keeps_landDelivery H ?_ | refine eq_fst ‹_ = _› (keeps_sendBatch H2 ?_)
    | refine keeps_sendBatch H2 ?_ | refine keeps_redeliver H3 ?_ | refine keeps_upRing H1 ?_ | split | dsimp only

theorem keeps_execGenReadResponse {P : State → Prop} {ring : Nat} {n : Nat} {gen : Nat} {s : State} (H : Keeps P 0x6c185f3) (h3 : P s) :
    ResAll P (execGenReadResponse ring n gen s) := by
  unfold execGenReadResponse
  with_reducible repeat' first
    | assumption | intro _ | refine res_next ?_ | refine keeps_genChecked H ?_
    | refine res_get ‹_ = Host.Outcome.next _› (keeps_onMain ?_ ?_) | refine keeps_onMain ?_ ?_ | split | dsimp only

theorem keeps_execRingResetReadDone {P : State → Prop} {ring : Nat} {s : State} (H : Keeps P 0x6c30553) (h1 : P s) : ResAll P
    (execRingResetReadDone ring s) := by
  unfold execRingResetReadDone
  with_reducible repeat' first
    | assumption | intro _ | refine res_next ?_ | refine keeps_ringResetEnd H ?_
    | refine res_get ‹_ = Host.Outcome.next _› (keeps_onMain ?_ ?_) | refine keeps_onMain ?_ ?_ | split | dsimp only

theorem keeps_lCommit {P : State → Prop} {s : State} {h : Nat} {ring : Nat} (H : Keeps P 0x6c18553) (h0 : P s) : P (State.lCommit s h ring)
    := by
  have H1 : Keeps P 0x10000 := H.mono rfl
  have H2 : Keeps P 0x4408513 := H.mono rfl
  unfold State.lCommit
  with_reducible repeat' first
    | assumption | intro _ | refine keeps_foldl ?_ ?_ | refine keeps_upFeed H1 ?_ | refine keeps_lSendAll H2 ?_
    | refine keeps_applyChange H ?_ | split | dsimp only

theorem keeps_upChange {P : State → Prop} {s : State} {h : Nat} {ring : Nat} {f : LChange → LChange} (H : Keeps P 0x10000) (h0 : P s) : P
    (State.upChange s h ring f) := by
  unfold State.upChange
  with_reducible repeat' first
    | assumption | intro _ | refine keeps_upFeed H ?_ | split | dsimp only

theorem keeps_execLayoutNotice {P : State → Prop} {job : Nat} {entry : Bytes} {s : State} (H : Keeps P 0x6c18553) (h2 : P s) : ResAll P
    (execLayoutNotice job entry s) := by
  have H1 : Keeps P 0x100 := H.mono rfl
  have H2 : Keeps P 0x10000 := H.mono rfl
  have H3 : Keeps P 0x4408513 := H.mono rfl
  have H4 : Keeps P 0x8000 := H.mono rfl
  unfold execLayoutNotice
  with_reducible repeat' first
    | assumption | intro _ | refine res_next ?_ | refine keeps_upNet H1 ?_ | refine keeps_upChange H2 ?_ | refine keeps_lCommit H ?_
    | refine keeps_lSend H3 ?_ | refine keeps_applyChange H ?_ | refine res_get ‹_ = Host.Outcome.next _› (keeps_onMain ?_ ?_)
    | refine keeps_onMain ?_ ?_ | refine keeps_upJob H4 ?_ | refine keeps_upJobX H4 ?_ | split | dsimp only

theorem keeps_execLayoutRoundTimeout {P : State → Prop} {job : Nat} {ring : Nat} {s : State} (H : Keeps P 0x6c18553) (h2 : P s) : ResAll P
    (execLayoutRoundTimeout job ring s) := by
  have H1 : Keeps P 0x10000 := H.mono rfl
  have H2 : Keeps P 0x4408513 := H.mono rfl
  have H3 : Keeps P 0x4410111 := H.mono rfl
  have H4 : Keeps P 0x8000 := H.mono rfl
  have H5 : Keeps P 0x6c00553 := H.mono rfl
  unfold execLayoutRoundTimeout
  with_reducible repeat' first
    | assumption | intro _ | refine res_next ?_ | refine keeps_upFeed H1 ?_ | refine keeps_upChange H1 ?_ | refine keeps_lSendAll H2 ?_
    | refine keeps_feedFlag H3 ?_ | refine keeps_upRing H1 ?_ | refine res_get ‹_ = Host.Outcome.next _› (keeps_onMain ?_ ?_)
    | refine keeps_onMain ?_ ?_ | refine keeps_upJob H4 ?_ | refine keeps_finishAll H5 ?_ | split | dsimp only

theorem keeps_execLayoutRepropose {P : State → Prop} {job : Nat} {ring : Nat} {s : State} (H : Keeps P 0x6c18553) (h2 : P s) : ResAll P
    (execLayoutRepropose job ring s) := by
  unfold execLayoutRepropose
  with_reducible repeat' first
    | assumption | intro _ | refine res_next ?_ | refine keeps_lPropose H ?_
    | refine res_get ‹_ = Host.Outcome.next _› (keeps_onMain ?_ ?_) | refine keeps_onMain ?_ ?_ | split | dsimp only

theorem keeps_upDeliveries {P : State → Prop} {s : State} {qpn : Nat} {f : Delivery → Delivery} (H : Keeps P 0x10000) (h0 : P s) : P
    (State.upDeliveries s qpn f) := by
  unfold State.upDeliveries
  with_reducible repeat' first
    | assumption | intro _ | refine keeps_upFeed H ?_ | split | dsimp only

theorem keeps_feedQpError {P : State → Prop} {s : State} {qpn : Nat} (H : Keeps P 0x10100) (h0 : P s) : P (State.feedQpError s qpn) := by
  have H1 : Keeps P 0x10000 := H.mono rfl
  have H2 : Keeps P 0x100 := H.mono rfl
  unfold State.feedQpError
  with_reducible repeat' first
    | assumption | intro _ | refine keeps_upDeliveries H1 ?_ | refine keeps_upQpn H2 ?_ | split | dsimp only

theorem keeps_feedQpRts {P : State → Prop} {s : State} {qpn : Nat} (H : Keeps P 0x4410513) (h0 : P s) : P (State.feedQpRts s qpn) := by
  have H1 : Keeps P 0x4400513 := H.mono rfl
  have H2 : Keeps P 0x10000 := H.mono rfl
  unfold State.feedQpRts
  with_reducible repeat' first
    | assumption | intro _ | refine keeps_foldl ?_ ?_ | refine keeps_qpRead H1 ?_ | refine keeps_upRing H2 ?_ | split | dsimp only

theorem keeps_feedAck {P : State → Prop} {s : State} {ring : Nat} {n : Nat} (H : Keeps P 0x6c185f3) (h0 : P s) : P (State.feedAck s ring n)
    := by
  unfold State.feedAck
  with_reducible repeat' first
    | assumption | intro _ | refine keeps_landDelivery H ?_ | split | dsimp only

theorem keeps_hedFrame {P : State → Prop} {s : State} {port : Nat} {f : Bytes} (H : Keeps P 0x7c41f17) (h0 : P s) : P (State.hedFrame s port
    f) := by
  have H1 : Keeps P 0x200 := H.mono rfl
  unfold State.hedFrame
  with_reducible repeat' first
    | assumption | intro _ | refine keeps_upHed H1 ?_ | refine keeps_classify H ?_ | split | dsimp only

theorem keeps_execFrameReceived {P : State → Prop} {port : Nat} {frame : Bytes} {own : Bool} {uncorr : Nat} {s : State} (H : Keeps P
    0x7c41f17) (h4 : P s) : ResAll P (execFrameReceived port frame own uncorr s) := by
  have H1 : Keeps P 0x100 := H.mono rfl
  have H2 : Keeps P 0x4000101 := H.mono rfl
  have H3 : Keeps P 0x4000112 := H.mono rfl
  have H4 : Keeps P 0x4400111 := H.mono rfl
  have H5 : Keeps P 0x4000000 := H.mono rfl
  unfold execFrameReceived
  with_reducible repeat' first
    | assumption | intro _ | refine res_next ?_ | refine keeps_upNet H1 ?_ | refine keeps_hedFrame H ?_ | refine keeps_pausesEnd H2 ?_
    | refine res_get ‹_ = Host.Outcome.next _› (keeps_onMainIf ?_ ?_) | refine keeps_onMainIf ?_ ?_ | refine keeps_gctr H3 ?_
    | refine keeps_withObs H4 ?_ ?_ | refine keeps_ao H5 ?_ | split | dsimp only

theorem keeps_execFrameRecirculate {P : State → Prop} {unit : Nat} {s : State} (H : Keeps P 0x7c41f17) (h1 : P s) : ResAll P
    (execFrameRecirculate unit s) := by
  have H1 : Keeps P 0x200 := H.mono rfl
  unfold execFrameRecirculate
  with_reducible repeat' first
    | assumption | intro _ | refine res_next ?_ | refine keeps_upHed H1 ?_ | refine keeps_classify H ?_
    | refine res_get ‹_ = Host.Outcome.next _› (keeps_onMain ?_ ?_) | refine keeps_onMain ?_ ?_ | split | dsimp only

theorem keeps_flowFree {P : State → Prop} {s : State} {ctx : Nat} (H : Keeps P 0x600) (h0 : P s) : P (State.flowFree s ctx) := by
  have H1 : Keeps P 0x200 := H.mono rfl
  have H2 : Keeps P 0x400 := H.mono rfl
  unfold State.flowFree
  with_reducible repeat' first
    | assumption | intro _ | refine keeps_upHed H1 ?_ | refine keeps_ctxGive H2 ?_ | split | dsimp only

theorem keeps_execFlowAgeExpiry {P : State → Prop} {ctx : Nat} {s : State} (H : Keeps P 0x600) (h1 : P s) : ResAll P (execFlowAgeExpiry ctx
    s) := by
  unfold execFlowAgeExpiry
  with_reducible repeat' first
    | assumption | intro _ | refine res_next ?_ | refine keeps_flowFree H ?_
    | refine res_get ‹_ = Host.Outcome.next _› (keeps_onMain ?_ ?_) | refine keeps_onMain ?_ ?_ | split | dsimp only

theorem keeps_execFlr {P : State → Prop} {fn : Nat} {s : State} (H : Keeps P 0x7fffff7) (h1 : P s) : ResAll P (execFlr fn s) := by
  have H1 : Keeps P 0x7c4ff57 := H.mono rfl
  have H2 : Keeps P 0x7fffdf7 := H.mono rfl
  unfold execFlr
  with_reducible repeat' first
    | assumption | intro _ | refine res_next ?_ | refine keeps_goOn H1 ?_ ?_ | refine keeps_flrFn H2 ?_ | split | dsimp only

theorem keeps_execFlrComplete {P : State → Prop} {fn : Nat} {s : State} (H : Keeps P 0x800000) (h1 : P s) : ResAll P (execFlrComplete fn s)
    := by
  unfold execFlrComplete
  with_reducible repeat' first
    | assumption | intro _ | refine res_next ?_ | refine keeps_upHost H ?_
    | refine res_get ‹_ = Host.Outcome.next _› (keeps_onMainIf ?_ ?_) | refine keeps_onMainIf ?_ ?_ | split | dsimp only

theorem keeps_execVfEnableSet {P : State → Prop} {num : Nat} {s : State} (H : Keeps P 0x800000) (h1 : P s) : ResAll P (execVfEnableSet num
    s) := by
  unfold execVfEnableSet
  with_reducible repeat' first
    | assumption | intro _ | refine res_next ?_ | refine keeps_upHost H ?_ | split | dsimp only

theorem keeps_execVfEnableClear {P : State → Prop} {s : State} (H : Keeps P 0x7fffff7) (h0 : P s) : ResAll P (execVfEnableClear s) := by
  have H1 : Keeps P 0x7c4ff57 := H.mono rfl
  have H2 : Keeps P 0x7fffdf7 := H.mono rfl
  unfold execVfEnableClear
  with_reducible repeat' first
    | assumption | intro _ | refine res_next ?_ | refine keeps_goOn H1 ?_ ?_ | refine keeps_vfsOff H2 ?_ | split | dsimp only

theorem keeps_execBarResize {P : State → Prop} {vf : Bool} {size : Nat} {s : State} (H : Keeps P 0x8) (h2 : P s) : ResAll P (execBarResize
    vf size s) := by
  unfold execBarResize
  with_reducible repeat' first
    | assumption | intro _ | refine res_next ?_ | refine keeps_upGlb H ?_ | split | dsimp only

theorem keeps_mboxRaise {P : State → Prop} {s : State} {v : Nat} {mgr : Bool} (H : Keeps P 0x4400111) (h0 : P s) : P (State.mboxRaise s v
    mgr) := by
  unfold State.mboxRaise
  with_reducible repeat' first
    | assumption | intro _ | refine keeps_raiseFor H ?_ | split | dsimp only

theorem keeps_mboxSeq {P : State → Prop} {s : State} {v : Nat} {mgr : Bool} {val : Nat} (H : Keeps P 0x4c00111) (h0 : P s) : P
    (State.mboxSeq s v mgr val) := by
  have H1 : Keeps P 0x4400111 := H.mono rfl
  have H2 : Keeps P 0x800000 := H.mono rfl
  unfold State.mboxSeq
  with_reducible repeat' first
    | assumption | intro _ | refine keeps_mboxRaise H1 ?_ | refine keeps_mboxRefuse H2 ?_ | refine keeps_upVf H2 ?_ | split | dsimp only

theorem keeps_mboxAck {P : State → Prop} {s : State} {v : Nat} {mgr : Bool} {val : Nat} (H : Keeps P 0x4c00111) (h0 : P s) : P
    (State.mboxAck s v mgr val) := by
  have H1 : Keeps P 0x4400111 := H.mono rfl
  have H2 : Keeps P 0x800000 := H.mono rfl
  unfold State.mboxAck
  with_reducible repeat' first
    | assumption | intro _ | refine keeps_mboxRaise H1 ?_ | refine keeps_upVf H2 ?_ | split | dsimp only

theorem keeps_row_mboxWrite {P : State → Prop} {a : Access} {at_ : Nat} {s : State} {f : State → Nat → Bool → State} (H : Keeps P 0x4840001)
    (h2 : P s) (h3 : ∀ y1 y2 y3, P y1 → P (f y1 y2 y3)) : ResAll P (mboxWrite a at_ s f) := by
  have H1 : Keeps P 0x800000 := H.mono rfl
  have H2 : Keeps P 0x4800001 := H.mono rfl
  have H3 : Keeps P 0x40000 := H.mono rfl
  unfold mboxWrite
  with_reducible repeat' first
    | assumption | intro _ | refine h3 _ _ _ ?_ | refine res_next ?_ | refine keeps_mboxRefuse H1 ?_
    | refine res_get ‹_ = Host.Outcome.next _› (keeps_barWrite H2 ?_ ?_) | refine keeps_barWrite H2 ?_ ?_ | refine keeps_accessError H3 ?_
    | split | dsimp only

theorem keeps_execMboxSeqWrite {P : State → Prop} {a : Access} {s : State} (H : Keeps P 0x4c40111) (h1 : P s) : ResAll P (execMboxSeqWrite a
    s) := by
  have H1 : Keeps P 0x4840001 := H.mono rfl
  have H2 : Keeps P 0x4c00111 := H.mono rfl
  have H3 : Keeps P 0x800000 := H.mono rfl
  unfold execMboxSeqWrite
  with_reducible repeat' first
    | assumption | intro _ | refine res_next ?_ | refine res_get ‹_ = Host.Outcome.next _› (keeps_row_mboxWrite H1 ?_ ?_)
    | refine keeps_row_mboxWrite H1 ?_ ?_ | refine keeps_mboxSeq H2 ?_ | refine keeps_upVf H3 ?_ | split | dsimp only

theorem keeps_execMboxAckWrite {P : State → Prop} {a : Access} {s : State} (H : Keeps P 0x4c40111) (h1 : P s) : ResAll P (execMboxAckWrite a
    s) := by
  have H1 : Keeps P 0x4840001 := H.mono rfl
  have H2 : Keeps P 0x4c00111 := H.mono rfl
  unfold execMboxAckWrite
  with_reducible repeat' first
    | assumption | intro _ | refine res_next ?_ | refine res_get ‹_ = Host.Outcome.next _› (keeps_row_mboxWrite H1 ?_ ?_)
    | refine keeps_row_mboxWrite H1 ?_ ?_ | refine keeps_mboxAck H2 ?_ | split | dsimp only

theorem keeps_execIntermissionAtReached {P : State → Prop} {scope : Nat} {s : State} (H : Keeps P 0x7cfffff) (h1 : P s) : ResAll P
    (execIntermissionAtReached scope s) := by
  have H1 : Keeps P 0x4400151 := H.mono rfl
  have H2 : Keeps P 0x40 := H.mono rfl
  have H3 : Keeps P 0x7cff7ff := H.mono rfl
  have H4 : Keeps P 0x7c4ff57 := H.mono rfl
  have H5 : Keeps P 0x6c00553 := H.mono rfl
  unfold execIntermissionAtReached
  with_reducible repeat' first
    | assumption | intro _ | refine res_next ?_ | refine keeps_foldl ?_ ?_ | refine keeps_modeHold H1 ?_ | refine keeps_upInter H2 ?_
    | refine exc_get ‹_ = Except.ok _› (keeps_applyAll H3 ?_) | refine keeps_applyAll H3 ?_ | refine keeps_restart H4 ?_ ?_
    | refine keeps_goOn H4 ?_ ?_ | refine res_get ‹_ = Host.Outcome.next _› (keeps_onMain ?_ ?_) | refine keeps_onMain ?_ ?_
    | refine keeps_abandonInter H2 ?_ | refine keeps_finish H5 ?_ | split | dsimp only

theorem keeps_bar2Sized {P : State → Prop} {s : State} (H : Keeps P 0x8) (h0 : P s) : P (State.bar2Sized s) := by
  unfold State.bar2Sized
  with_reducible repeat' first
    | assumption | intro _ | refine keeps_upGlb H ?_ | split | dsimp only

theorem keeps_bar2Read {P : State → Prop} {s : State} {a : Access} (H : Keeps P 0x4040001) (h0 : P s) : P (State.bar2Read s a) := by
  have H1 : Keeps P 0x40000 := H.mono rfl
  have H2 : Keeps P 0x4000000 := H.mono rfl
  have H3 : Keeps P 0x1 := H.mono rfl
  unfold State.bar2Read
  with_reducible repeat' first
    | assumption | intro _ | refine keeps_upRas H1 ?_ | refine keeps_gRead H2 ?_ | refine keeps_emit H3 ?_ | refine keeps_ao H2 ?_ | split
    | dsimp only

theorem keeps_bar2Write {P : State → Prop} {s : State} {a : Access} (H : Keeps P 0x4840004) (h0 : P s) : P (State.bar2Write s a) := by
  have H1 : Keeps P 0x40000 := H.mono rfl
  have H2 : Keeps P 0x4800004 := H.mono rfl
  unfold State.bar2Write
  with_reducible repeat' first
    | assumption | intro _ | refine keeps_foldl ?_ ?_ | refine keeps_upRas H1 ?_ | refine keeps_gWrite H2 ?_ | split | dsimp only

theorem keeps_bar2Do {P : State → Prop} {s : State} {a : Access} (H : Keeps P 0x484000d) (h0 : P s) : P (State.bar2Do s a) := by
  have H1 : Keeps P 0x4840004 := H.mono rfl
  have H2 : Keeps P 0x4040001 := H.mono rfl
  have H3 : Keeps P 0x8 := H.mono rfl
  have H4 : Keeps P 0x1 := H.mono rfl
  have H5 : Keeps P 0x4000000 := H.mono rfl
  unfold State.bar2Do
  with_reducible repeat' first
    | assumption | intro _ | refine keeps_bar2Write H1 ?_ | refine keeps_bar2Read H2 ?_ | refine keeps_bar2Sized H3 ?_
    | refine keeps_emit H4 ?_ | refine keeps_ao H5 ?_ | split | dsimp only

theorem keeps_execBar2Access {P : State → Prop} {a : Access} {s : State} (H : Keeps P 0x484000d) (h1 : P s) : ResAll P (execBar2Access a s)
    := by
  have H1 : Keeps P 0x40000 := H.mono rfl
  unfold execBar2Access
  with_reducible repeat' first
    | assumption | intro _ | refine res_next ?_ | refine keeps_upRas H1 ?_ | refine keeps_bar2Do H ?_ | split | dsimp only

theorem keeps_execCmdCtrlEnClear {P : State → Prop} {fn : Nat} {s : State} (H : Keeps P 0x7f4ff57) (h1 : P s) : ResAll P (execCmdCtrlEnClear
    fn s) := by
  have H1 : Keeps P 0x7c4ff57 := H.mono rfl
  have H2 : Keeps P 0x4800001 := H.mono rfl
  have H3 : Keeps P 0x6f00557 := H.mono rfl
  unfold execCmdCtrlEnClear
  with_reducible repeat' first
    | assumption | intro _ | refine res_next ?_ | refine res_get ‹_ = Host.Outcome.next _› (keeps_thenGoOn H1 ?_ ?_)
    | refine keeps_thenGoOn H1 ?_ ?_ | refine res_get ‹_ = Host.Outcome.next _› (keeps_barWrite H2 ?_ ?_) | refine keeps_barWrite H2 ?_ ?_
    | refine keeps_disableCmd H3 ?_ | split | dsimp only

theorem keeps_execIntermissionDrained {P : State → Prop} {scope : Nat} {s : State} (H : Keeps P 0x7c47557) (h1 : P s) : ResAll P
    (execIntermissionDrained scope s) := by
  have H1 : Keeps P 0x40 := H.mono rfl
  have H2 : Keeps P 0x6c00553 := H.mono rfl
  have H3 : Keeps P 0x4400111 := H.mono rfl
  unfold execIntermissionDrained
  with_reducible repeat' first
    | assumption | intro _ | refine res_next ?_ | refine keeps_foldl ?_ ?_ | refine keeps_upInter H1 ?_
    | refine res_get ‹_ = Host.Outcome.next _› (keeps_onMain ?_ ?_) | refine keeps_onMain ?_ ?_ | refine keeps_iftCheck H ?_
    | refine keeps_finish H2 ?_ | refine keeps_note H3 ?_ | split | dsimp only

theorem keeps_execDrainLimitExpiry {P : State → Prop} {scope : Nat} {s : State} (H : Keeps P 0x7c4ff57) (h1 : P s) : ResAll P
    (execDrainLimitExpiry scope s) := by
  have H1 : Keeps P 0x40 := H.mono rfl
  have H2 : Keeps P 0x6c00553 := H.mono rfl
  unfold execDrainLimitExpiry
  with_reducible repeat' first
    | assumption | intro _ | refine res_next ?_ | refine keeps_foldl ?_ ?_ | refine keeps_goOn H ?_ ?_
    | refine res_get ‹_ = Host.Outcome.next _› (keeps_onMain ?_ ?_) | refine keeps_onMain ?_ ?_ | refine keeps_abandonInter H1 ?_
    | refine keeps_finish H2 ?_ | split | dsimp only

theorem keeps_fetchLost {P : State → Prop} {s : State} {job : Nat} {warp : Nat} {abs : Nat} (H : Keeps P 0x4008000) (h0 : P s) : P
    (State.fetchLost s job warp abs) := by
  have H1 : Keeps P 0x8000 := H.mono rfl
  unfold State.fetchLost
  with_reducible repeat' first
    | assumption | intro _ | refine keeps_sampleDrop H ?_ | refine keeps_upFetch H1 ?_ | split | dsimp only

theorem keeps_execIndexEntryRead {P : State → Prop} {job : Nat} {warp : Nat} {abs : Nat} {entry : Bytes} {s : State} (H : Keeps P 0x4008081)
    (h4 : P s) : ResAll P (execIndexEntryRead job warp abs entry s) := by
  have H1 : Keeps P 0x4008000 := H.mono rfl
  have H2 : Keeps P 0x81 := H.mono rfl
  have H3 : Keeps P 0x8000 := H.mono rfl
  unfold execIndexEntryRead
  with_reducible repeat' first
    | assumption | intro _ | refine res_next ?_ | refine keeps_fetchLost H1 ?_ | refine keeps_sampleDrop H1 ?_
    | refine eq_fst ‹_ = _› (keeps_intRow H2 ?_) | refine keeps_intRow H2 ?_ | refine keeps_intBegin H2 ?_ | refine keeps_upFetch H3 ?_
    | refine res_get ‹_ = Host.Outcome.next _› (keeps_onMain ?_ ?_) | refine keeps_onMain ?_ ?_ | split | dsimp only

theorem keeps_endFetch {P : State → Prop} {s : State} {h : Nat} {warp : Nat} {abs : Nat} (H : Keeps P 0x8000) (h0 : P s) : P (State.endFetch
    s h warp abs) := by
  unfold State.endFetch
  with_reducible repeat' first
    | assumption | intro _ | refine keeps_upJob H ?_ | split | dsimp only

theorem keeps_takePages {P : State → Prop} {s : State} {h : Nat} {n : Nat} (H : Keeps P 0x8000) (h0 : P s) : OptAll (fun x => P x.2)
    (State.takePages s h n) := by
  unfold State.takePages
  with_reducible repeat' first
    | assumption | intro _ | exact opt_none | refine opt_some ?_ | refine opt_ite ?_ ?_ | refine keeps_upJob H ?_
    | refine keeps_upJobX H ?_ | split | dsimp only

theorem keeps_takeSlot {P : State → Prop} {s : State} {h : Nat} (H : Keeps P 0x8000) (h0 : P s) : OptAll (fun x => P x.2) (State.takeSlot s
    h) := by
  unfold State.takeSlot
  with_reducible repeat' first
    | assumption | intro _ | exact opt_none | refine opt_some ?_ | refine opt_ite ?_ ?_ | refine keeps_upJobX H ?_ | split | dsimp only

theorem keeps_putPages {P : State → Prop} {s : State} {base : Nat} {a : List Nat} {x3 : Bytes} (H : Keeps P 0x4800004) (h0 : P s) : P
    (State.putPages s base a x3) := by
  induction a generalizing s base x3 with
  | nil =>
    unfold State.putPages
    with_reducible repeat' first
      | assumption | intro _ | refine keeps_gWrite H ?_ | split | dsimp only
  | cons _ _ ih =>
    unfold State.putPages
    with_reducible repeat' first
      | assumption | intro _ | refine ih ?_ | refine keeps_gWrite H ?_ | split | dsimp only

theorem keeps_takeSample {P : State → Prop} {s : State} {h : Nat} {m : Sample} {payload : Bytes} (H : Keeps P 0x4808004) (h0 : P s) : OptAll
    P (State.takeSample s h m payload) := by
  have H1 : Keeps P 0x4800004 := H.mono rfl
  have H2 : Keeps P 0x8000 := H.mono rfl
  have H3 : Keeps P 0x4000000 := H.mono rfl
  unfold State.takeSample
  with_reducible repeat' first
    | assumption | intro _ | exact opt_none | refine opt_some ?_ | refine keeps_putPages H1 ?_
    | refine opt_get2 ‹_ = some (_, _)› (keeps_takeSlot H2 ?_) | refine keeps_takeSlot H2 ?_
    | refine opt_get2 ‹_ = some (_, _)› (keeps_takePages H2 ?_) | refine keeps_takePages H2 ?_ | refine keeps_upJob H2 ?_
    | refine keeps_upJobX H2 ?_ | refine keeps_gWrite H1 ?_ | refine keeps_ao H3 ?_ | split | dsimp only

theorem keeps_noteDone {P : State → Prop} {s : State} {h : Nat} {warp : Nat} {abs : Nat} (H : Keeps P 0x8000) (h0 : P s) : P (State.noteDone
    s h warp abs) := by
  unfold State.noteDone
  with_reducible repeat' first
    | assumption | intro _ | refine keeps_upJobX H ?_ | split | dsimp only

theorem keeps_admitFetch {P : State → Prop} {s : State} {h : Nat} {f : Fetch} (H : Keeps P 0x4c08517) (h0 : P s) : P (State.admitFetch s h
    f) := by
  have H1 : Keeps P 0x8000 := H.mono rfl
  have H2 : Keeps P 0x4808004 := H.mono rfl
  have H3 : Keeps P 0x4008000 := H.mono rfl
  have H4 : Keeps P 0x4408513 := H.mono rfl
  have H5 : Keeps P 0x4c08115 := H.mono rfl
  have H6 : Keeps P 0x4000000 := H.mono rfl
  unfold State.admitFetch
  with_reducible repeat' first
    | assumption | intro _ | refine keeps_upLoom H1 ?_ | refine keeps_noteDone H1 ?_ | refine opt_get ‹_ = some _› (keeps_takeSample H2 ?_)
    | refine keeps_takeSample H2 ?_ | refine keeps_endFetch H1 ?_ | refine keeps_sampleDrop H3 ?_ | refine keeps_upFetch H1 ?_
    | refine keeps_xRecord H4 ?_ | refine keeps_weaveJob H5 ?_ | refine keeps_ao H6 ?_ | split | dsimp only

theorem keeps_execSamplePayloadRead {P : State → Prop} {job : Nat} {warp : Nat} {abs : Nat} {data : Bytes} {s : State} (H : Keeps P
    0x4c08597) (h4 : P s) : ResAll P (execSamplePayloadRead job warp abs data s) := by
  have H1 : Keeps P 0x4c08517 := H.mono rfl
  have H2 : Keeps P 0x4008000 := H.mono rfl
  have H3 : Keeps P 0x81 := H.mono rfl
  have H4 : Keeps P 0x8000 := H.mono rfl
  unfold execSamplePayloadRead
  with_reducible repeat' first
    | assumption | intro _ | refine res_next ?_ | refine keeps_admitFetch H1 ?_ | refine keeps_fetchLost H2 ?_
    | refine eq_fst ‹_ = _› (keeps_intRow H3 ?_) | refine keeps_intRow H3 ?_ | refine keeps_intBegin H3 ?_ | refine keeps_upFetch H4 ?_
    | refine res_get ‹_ = Host.Outcome.next _› (keeps_onMain ?_ ?_) | refine keeps_onMain ?_ ?_ | split | dsimp only

theorem keeps_offerTaken {P : State → Prop} {s : State} {o : Offer} (H : Keeps P 0x7c4f557) (h0 : P s) : P (State.offerTaken s o) := by
  have H1 : Keeps P 0x8000 := H.mono rfl
  have H2 : Keeps P 0x7c47557 := H.mono rfl
  unfold State.offerTaken
  with_reducible repeat' first
    | assumption | intro _ | refine keeps_upLoom H1 ?_ | refine keeps_tapKick H2 ?_ | split | dsimp only

theorem keeps_admitBlock {P : State → Prop} {s : State} {h : Nat} {i : Nat} {src : Nat} {o : Offer} {b : Bytes} (H : Keeps P 0x7c4f557) (h0
    : P s) : P (State.admitBlock s h i src o b) := by
  have H1 : Keeps P 0x8000 := H.mono rfl
  have H2 : Keeps P 0x4808004 := H.mono rfl
  have H3 : Keeps P 0x4008000 := H.mono rfl
  have H4 : Keeps P 0x4408513 := H.mono rfl
  have H5 : Keeps P 0x4c08115 := H.mono rfl
  unfold State.admitBlock
  with_reducible repeat' first
    | assumption | intro _ | refine keeps_upLoom H1 ?_ | refine keeps_offerTaken H ?_
    | refine opt_get ‹_ = some _› (keeps_takeSample H2 ?_) | refine keeps_takeSample H2 ?_ | refine keeps_sampleDrop H3 ?_
    | refine keeps_xRecord H4 ?_ | refine keeps_weaveJob H5 ?_ | refine keeps_upJob H1 ?_ | split | dsimp only

theorem keeps_execSampleAdmit {P : State → Prop} {job : Nat} {warp : Nat} {block : Bytes} {src : Nat} {s : State} (H : Keeps P 0x7c4f557)
    (h4 : P s) : ResAll P (execSampleAdmit job warp block src s) := by
  have H1 : Keeps P 0x4c08517 := H.mono rfl
  unfold execSampleAdmit
  with_reducible repeat' first
    | assumption | intro _ | refine res_next ?_ | refine keeps_admitBlock H ?_ | refine keeps_admitFetch H1 ?_
    | refine res_get ‹_ = Host.Outcome.next _› (keeps_onMain ?_ ?_) | refine keeps_onMain ?_ ?_ | split | dsimp only

theorem keeps_landBack {P : State → Prop} {s : State} {h : Nat} {from_ : Nat} {page : Nat} {pages : Nat} (H : Keeps P 0x4408513) (h0 : P s)
    : P (State.landBack s h from_ page pages) := by
  unfold State.landBack
  with_reducible repeat' first
    | assumption | intro _ | refine keeps_xSend H ?_ | split | dsimp only

theorem keeps_endFetchIf {P : State → Prop} {s : State} {h : Nat} {warp : Nat} {abs : Nat} (H : Keeps P 0x8000) (h0 : P s) : P
    (State.endFetchIf s h warp abs) := by
  unfold State.endFetchIf
  with_reducible repeat' first
    | assumption | intro _ | refine keeps_upJob H ?_ | split | dsimp only

theorem keeps_landed {P : State → Prop} {s : State} {h : Nat} {j : Job} {from_ : Nat} {e : Bytes} (H : Keeps P 0x4c08517) (h0 : P s) : P
    (State.landed s h j from_ e) := by
  have H1 : Keeps P 0x8000 := H.mono rfl
  have H2 : Keeps P 0x4408513 := H.mono rfl
  have H3 : Keeps P 0x4008000 := H.mono rfl
  have H4 : Keeps P 0x4c08115 := H.mono rfl
  have H5 : Keeps P 0x4800004 := H.mono rfl
  have H6 : Keeps P 0x4000000 := H.mono rfl
  unfold State.landed
  with_reducible repeat' first
    | assumption | intro _ | refine keeps_endFetchIf H1 ?_ | refine keeps_landBack H2 ?_ | refine keeps_noteDone H1 ?_
    | refine opt_get2 ‹_ = some (_, _)› (keeps_takeSlot H1 ?_) | refine keeps_takeSlot H1 ?_ | refine keeps_sampleDrop H3 ?_
    | refine keeps_upFetch H1 ?_ | refine keeps_weaveJob H4 ?_ | refine keeps_xSend H2 ?_ | refine keeps_upJob H1 ?_
    | refine keeps_upJobX H1 ?_ | refine keeps_gWrite H5 ?_ | refine keeps_ao H6 ?_ | refine opt_getD2 (keeps_takeSlot H1 ?_) ?_ | split
    | dsimp only

theorem keeps_resend {P : State → Prop} {s : State} {h : Nat} {j : Job} {from_ : Nat} {i : Nat} {abs : Nat} (H : Keeps P 0x8081) (h0 : P s)
    : P (State.resend s h j from_ i abs) := by
  have H1 : Keeps P 0x81 := H.mono rfl
  have H2 : Keeps P 0x8000 := H.mono rfl
  unfold State.resend
  with_reducible repeat' first
    | assumption | intro _ | refine keeps_readIndex H1 ?_ | refine keeps_upJob H2 ?_ | split | dsimp only

theorem keeps_execExchangeNotice {P : State → Prop} {job : Nat} {entry : Bytes} {s : State} (H : Keeps P 0x4c08597) (h2 : P s) : ResAll P
    (execExchangeNotice job entry s) := by
  have H1 : Keeps P 0x100 := H.mono rfl
  have H2 : Keeps P 0x8081 := H.mono rfl
  have H3 : Keeps P 0x4c08517 := H.mono rfl
  have H4 : Keeps P 0x4408513 := H.mono rfl
  have H5 : Keeps P 0x8000 := H.mono rfl
  unfold execExchangeNotice
  with_reducible repeat' first
    | assumption | intro _ | refine res_next ?_ | refine keeps_foldl ?_ ?_ | refine keeps_upNet H1 ?_ | refine keeps_resend H2 ?_
    | refine keeps_landed H3 ?_ | refine keeps_xKick H4 ?_ | refine res_get ‹_ = Host.Outcome.next _› (keeps_onMain ?_ ?_)
    | refine keeps_onMain ?_ ?_ | refine keeps_upJobX H5 ?_ | split | dsimp only

theorem keeps_portFlag {P : State → Prop} {s : State} {p : Nat} {b : Nat} {f : Port → Port} (H : Keeps P 0x4400111) (h0 : P s) : P
    (State.portFlag s p b f) := by
  have H1 : Keeps P 0x100 := H.mono rfl
  unfold State.portFlag
  with_reducible repeat' first
    | assumption | intro _ | refine keeps_upNet H1 ?_ | refine keeps_flag H ?_ ?_ | split | dsimp only

theorem keeps_execLinkUp {P : State → Prop} {port : Nat} {s : State} (H : Keeps P 0x4c00111) (h1 : P s) : ResAll P (execLinkUp port s) := by
  have H1 : Keeps P 0x4400111 := H.mono rfl
  unfold execLinkUp
  with_reducible repeat' first
    | assumption | intro _ | refine res_next ?_ | refine keeps_portFlag H1 ?_ | refine keeps_upPort H1 ?_ | refine keeps_netEvent H ?_
    | refine res_get ‹_ = Host.Outcome.next _› (keeps_onMainIf ?_ ?_) | refine keeps_onMainIf ?_ ?_ | split | dsimp only

theorem keeps_fanoutLost {P : State → Prop} {s : State} {member : Nat} (H : Keeps P 0x6c00557) (h0 : P s) : P (State.fanoutLost s member) :=
    by
  have H1 : Keeps P 0x40 := H.mono rfl
  unfold State.fanoutLost
  with_reducible repeat' first
    | assumption | intro _ | refine keeps_foldl ?_ ?_ | refine keeps_upCmd H1 ?_ | refine keeps_endFanout H ?_ | split | dsimp only

theorem keeps_memberLost {P : State → Prop} {s : State} {member : Nat} (H : Keeps P 0x6c00557) (h0 : P s) : P (State.memberLost s member) :=
    by
  have H1 : Keeps P 0x4c00111 := H.mono rfl
  have H2 : Keeps P 0x100 := H.mono rfl
  unfold State.memberLost
  with_reducible repeat' first
    | assumption | intro _ | refine keeps_fanoutLost H ?_ | refine keeps_netEvent H1 ?_ | refine keeps_upMember H2 ?_ | split | dsimp only

theorem keeps_qpGivenUp {P : State → Prop} {s : State} {qpn : Nat} (H : Keeps P 0x6c185f7) (h0 : P s) : P (State.qpGivenUp s qpn) := by
  have H1 : Keeps P 0x6c00557 := H.mono rfl
  have H2 : Keeps P 0x6c00553 := H.mono rfl
  have H3 : Keeps P 0x6c185f3 := H.mono rfl
  have H4 : Keeps P 0x100 := H.mono rfl
  unfold State.qpGivenUp
  with_reducible repeat' first
    | assumption | intro _ | refine keeps_memberLost H1 ?_ | refine keeps_removeSettle H2 ?_ | refine keeps_feedQpFailed H3 ?_
    | refine keeps_upQpn H4 ?_ | split | dsimp only

theorem keeps_netQpError {P : State → Prop} {s : State} {qpn : Nat} {detail : Nat} (H : Keeps P 0x7c585f7) (h0 : P s) : P (State.netQpError
    s qpn detail) := by
  have H1 : Keeps P 0x6c185f7 := H.mono rfl
  have H2 : Keeps P 0x10100 := H.mono rfl
  have H3 : Keeps P 0x81 := H.mono rfl
  have H4 : Keeps P 0x6c00553 := H.mono rfl
  have H5 : Keeps P 0x4400111 := H.mono rfl
  have H6 : Keeps P 0x4c00111 := H.mono rfl
  have H7 : Keeps P 0x100 := H.mono rfl
  have H8 : Keeps P 0x7c40113 := H.mono rfl
  unfold State.netQpError
  with_reducible repeat' first
    | assumption | intro _ | refine keeps_qpGivenUp H1 ?_ | refine keeps_feedQpError H2 ?_ | refine keeps_stoRefresh H3 ?_
    | refine keeps_regionSettle H4 ?_ | refine keeps_qpMove H5 ?_ | refine keeps_netEvent H6 ?_ | refine keeps_upQpn H7 ?_
    | refine keeps_record H8 ?_ | split | dsimp only

theorem keeps_execLinkDown {P : State → Prop} {port : Nat} {s : State} (H : Keeps P 0x7c585f7) (h1 : P s) : ResAll P (execLinkDown port s)
    := by
  have H1 : Keeps P 0x4400111 := H.mono rfl
  have H2 : Keeps P 0x4c00111 := H.mono rfl
  unfold execLinkDown
  with_reducible repeat' first
    | assumption | intro _ | refine res_next ?_ | refine keeps_foldl ?_ ?_ | refine keeps_netQpError H ?_ | refine keeps_portFlag H1 ?_
    | refine keeps_upPort H1 ?_ | refine keeps_netEvent H2 ?_ | refine res_get ‹_ = Host.Outcome.next _› (keeps_onMainIf ?_ ?_)
    | refine keeps_onMainIf ?_ ?_ | split | dsimp only

theorem keeps_execFecDegrade {P : State → Prop} {port : Nat} {corrected : Nat} {s : State} (H : Keeps P 0x4c00111) (h2 : P s) : ResAll P
    (execFecDegrade port corrected s) := by
  have H1 : Keeps P 0x100 := H.mono rfl
  have H2 : Keeps P 0x4400111 := H.mono rfl
  unfold execFecDegrade
  with_reducible repeat' first
    | assumption | intro _ | refine res_next ?_ | refine keeps_upNet H1 ?_ | refine keeps_portFlag H2 ?_ | refine keeps_netEvent H ?_
    | refine res_get ‹_ = Host.Outcome.next _› (keeps_onMainIf ?_ ?_) | refine keeps_onMainIf ?_ ?_ | split | dsimp only

theorem keeps_onQpn {P : State → Prop} {s : State} {qpn : Nat} {f : State → Qp → State} (h0 : P s) (h2 : ∀ y1 y2, P y1 → P (f y1 y2)) :
    ResAll P (onQpn s qpn f) := by
  unfold onQpn
  with_reducible repeat' first
    | assumption | intro _ | refine h2 _ _ ?_ | refine res_next ?_ | refine res_get ‹_ = Host.Outcome.next _› (keeps_onMain ?_ ?_)
    | refine keeps_onMain ?_ ?_ | split | dsimp only

theorem keeps_ecnSeen {P : State → Prop} {s : State} {qpn : Nat} (H : Keeps P 0x4400513) (h0 : P s) : P (State.ecnSeen s qpn) := by
  have H1 : Keeps P 0x100 := H.mono rfl
  unfold State.ecnSeen
  with_reducible repeat' first
    | assumption | intro _ | refine keeps_qpPacket H ?_ | refine keeps_upQpn H1 ?_ | split | dsimp only

theorem keeps_takePacket {P : State → Prop} {s : State} {p : RdmaPkt} {ok : Qp → Bool} {f : State → Qp → State} (H : Keeps P 0x4400513) (h0
    : P s) (h3 : ∀ y1 y2, P y1 → P (f y1 y2)) : P (State.takePacket s p ok f) := by
  unfold State.takePacket
  with_reducible repeat' first
    | assumption | intro _ | refine h3 _ _ ?_ | refine keeps_ecnSeen H ?_ | refine keeps_ctxUses H ?_ | split | dsimp only

theorem keeps_onPacket {P : State → Prop} {s : State} {p : RdmaPkt} {ok : Qp → Bool} {f : State → Qp → State} (H : Keeps P 0x4400513) (h0 :
    P s) (h3 : ∀ y1 y2, P y1 → P (f y1 y2)) : ResAll P (onPacket s p ok f) := by
  unfold onPacket
  with_reducible repeat' first
    | assumption | intro _ | refine h3 _ _ ?_ | refine res_next ?_ | refine keeps_takePacket H ?_ ?_
    | refine res_get ‹_ = Host.Outcome.next _› (keeps_onMain ?_ ?_) | refine keeps_onMain ?_ ?_ | split | dsimp only

theorem keeps_onMemory {P : State → Prop} {s : State} {u : HeldUse} {f : State → State} (H : Keeps P 0x40000) (h0 : P s) (h2 : ∀ y1, P y1 →
    P (f y1)) : ResAll P (onMemory s u f) := by
  unfold onMemory
  with_reducible repeat' first
    | assumption | intro _ | refine h2 _ ?_ | refine res_next ?_ | refine keeps_upRas H ?_
    | refine res_get ‹_ = Host.Outcome.next _› (keeps_onMain ?_ ?_) | refine keeps_onMain ?_ ?_ | split | dsimp only

theorem keeps_sendNak {P : State → Prop} {s : State} {qpn : Nat} {psn : Nat} {kind : Nat} (H : Keeps P 0x4400513) (h0 : P s) : P
    (State.sendNak s qpn psn kind) := by
  unfold State.sendNak
  with_reducible repeat' first
    | assumption | intro _ | refine keeps_qpPacket H ?_ | split | dsimp only

theorem keeps_badRequest {P : State → Prop} {s : State} {qpn : Nat} {psn : Nat} (H : Keeps P 0x7c585f7) (h0 : P s) : P (State.badRequest s
    qpn psn) := by
  have H1 : Keeps P 0x100 := H.mono rfl
  have H2 : Keeps P 0x4400513 := H.mono rfl
  unfold State.badRequest
  with_reducible repeat' first
    | assumption | intro _ | refine keeps_upNet H1 ?_ | refine keeps_sendNak H2 ?_ | refine keeps_netQpError H ?_ | split | dsimp only

theorem keeps_sendAck {P : State → Prop} {s : State} {qpn : Nat} (H : Keeps P 0x4400513) (h0 : P s) : P (State.sendAck s qpn) := by
  unfold State.sendAck
  with_reducible repeat' first
    | assumption | intro _ | refine keeps_qpPacket H ?_ | split | dsimp only

theorem keeps_countDup {P : State → Prop} {s : State} (H : Keeps P 0x100) (h0 : P s) : P (State.countDup s) := by
  unfold State.countDup
  with_reducible repeat' first
    | assumption | intro _ | refine keeps_upNet H ?_ | split | dsimp only

theorem keeps_badAccess {P : State → Prop} {s : State} {qpn : Nat} {psn : Nat} (H : Keeps P 0x4400513) (h0 : P s) : P (State.badAccess s qpn
    psn) := by
  have H1 : Keeps P 0x100 := H.mono rfl
  unfold State.badAccess
  with_reducible repeat' first
    | assumption | intro _ | refine keeps_upNet H1 ?_ | refine keeps_sendNak H ?_ | split | dsimp only

theorem keeps_mboxTake {P : State → Prop} {s : State} {rkey : Nat} {seq : Nat} (H : Keeps P 0x44b0113) (h0 : P s) : P (State.mboxTake s rkey
    seq) := by
  have H1 : Keeps P 0x100 := H.mono rfl
  have H2 : Keeps P 0x4400111 := H.mono rfl
  unfold State.mboxTake
  with_reducible repeat' first
    | assumption | intro _ | refine keeps_upNet H1 ?_ | refine keeps_latchAddFor H ?_ | refine keeps_raiseFor H2 ?_ | split | dsimp only

theorem keeps_msgDone {P : State → Prop} {s : State} {m : RxMsg} (H : Keeps P 0x44b0113) (h0 : P s) : P (State.msgDone s m) := by
  unfold State.msgDone
  with_reducible repeat' first
    | assumption | intro _ | refine keeps_foldl ?_ ?_ | refine keeps_mboxTake H ?_ | split | dsimp only

theorem keeps_signalMsgs {P : State → Prop} {a : Nat} {x1 : State} {x2 : Nat} (H : Keeps P 0x44b0113) (h1 : P x1) : P (State.signalMsgs a x1
    x2) := by
  have H1 : Keeps P 0x100 := H.mono rfl
  induction a generalizing x1 x2 with
  | zero =>
    unfold State.signalMsgs
    with_reducible repeat' first
      | assumption | intro _ | refine keeps_msgDone H ?_ | refine keeps_upQpn H1 ?_ | split | dsimp only
  | succ _ ih =>
    unfold State.signalMsgs
    with_reducible repeat' first
      | assumption | intro _ | refine ih ?_ | refine keeps_msgDone H ?_ | refine keeps_upQpn H1 ?_ | split | dsimp only

theorem keeps_markPsns {P : State → Prop} {s : State} {qpn : Nat} {l : List Nat} (H : Keeps P 0x100) (h0 : P s) : P (State.markPsns s qpn l)
    := by
  unfold State.markPsns
  with_reducible repeat' first
    | assumption | intro _ | refine keeps_upQpn H ?_ | split | dsimp only

theorem keeps_sprayWrite {P : State → Prop} {s : State} {qpn : Nat} {q : Qp} {p : RdmaPkt} (H : Keeps P 0x7cf85f7) (h0 : P s) : P
    (State.sprayWrite s qpn q p) := by
  have H1 : Keeps P 0x100 := H.mono rfl
  have H2 : Keeps P 0x44b0113 := H.mono rfl
  have H3 : Keeps P 0x4400513 := H.mono rfl
  have H4 : Keeps P 0x7c585f7 := H.mono rfl
  have H5 : Keeps P 0x6c00553 := H.mono rfl
  have H6 : Keeps P 0x4800004 := H.mono rfl
  unfold State.sprayWrite
  with_reducible repeat' first
    | assumption | intro _ | refine keeps_markPsns H1 ?_ | refine keeps_signalMsgs H2 ?_ | refine keeps_badAccess H3 ?_
    | refine keeps_countDup H1 ?_ | refine keeps_sendAck H3 ?_ | refine keeps_badRequest H4 ?_ | refine keeps_regionSettle H5 ?_
    | refine keeps_upQpn H1 ?_ | refine keeps_gWrite H6 ?_ | split | dsimp only

theorem keeps_plainWrite {P : State → Prop} {s : State} {qpn : Nat} {q : Qp} {p : RdmaPkt} (H : Keeps P 0x7cf85f7) (h0 : P s) : P
    (State.plainWrite s qpn q p) := by
  have H1 : Keeps P 0x44b0113 := H.mono rfl
  have H2 : Keeps P 0x4400513 := H.mono rfl
  have H3 : Keeps P 0x100 := H.mono rfl
  have H4 : Keeps P 0x7c585f7 := H.mono rfl
  have H5 : Keeps P 0x6c00553 := H.mono rfl
  have H6 : Keeps P 0x4800004 := H.mono rfl
  unfold State.plainWrite
  with_reducible repeat' first
    | assumption | intro _ | refine keeps_signalMsgs H1 ?_ | refine keeps_badAccess H2 ?_ | refine keeps_countDup H3 ?_
    | refine keeps_sendAck H2 ?_ | refine keeps_badRequest H4 ?_ | refine keeps_sendNak H2 ?_ | refine keeps_regionSettle H5 ?_
    | refine keeps_upQpn H3 ?_ | refine keeps_gWrite H6 ?_ | split | dsimp only

theorem keeps_packetWrite {P : State → Prop} {s : State} {pkt : RdmaPkt} (H : Keeps P 0x7cf85f7) (h0 : P s) : P (State.packetWrite s pkt) :=
    by
  have H1 : Keeps P 0x7c585f7 := H.mono rfl
  have H2 : Keeps P 0x4400513 := H.mono rfl
  unfold State.packetWrite
  with_reducible repeat' first
    | assumption | intro _ | refine keeps_plainWrite H ?_ | refine keeps_sprayWrite H ?_ | refine keeps_badRequest H1 ?_
    | refine keeps_takePacket H2 ?_ ?_ | split | dsimp only

theorem keeps_readBytes {P : State → Prop} {s : State} {rkey : Nat} {a : Nat} {len : Nat} (H : Keeps P 0x4800004) (h0 : P s) : P
    (State.readBytes s rkey a len).2 := by
  have H1 : Keeps P 0x4000000 := H.mono rfl
  unfold State.readBytes
  with_reducible repeat' first
    | assumption | intro _ | refine keeps_gRead H1 ?_ | refine keeps_gWrite H ?_ | split | dsimp only

theorem keeps_sendResponses {P : State → Prop} {s : State} {qpn : Nat} {q : Qp} {psn : Nat} {msn : Nat} {b : Bytes} (H : Keeps P 0x4400513)
    (h0 : P s) : P (State.sendResponses s qpn q psn msn b) := by
  have H1 : Keeps P 0x100 := H.mono rfl
  unfold State.sendResponses
  with_reducible repeat' first
    | assumption | intro _ | refine keeps_foldl ?_ ?_ | refine keeps_qpPacket H ?_ | refine keeps_upQpn H1 ?_ | split | dsimp only

theorem keeps_readRequest {P : State → Prop} {s : State} {qpn : Nat} {q : Qp} {p : RdmaPkt} (H : Keeps P 0x7cf85f7) (h0 : P s) : P
    (State.readRequest s qpn q p) := by
  have H1 : Keeps P 0x4400513 := H.mono rfl
  have H2 : Keeps P 0x4800004 := H.mono rfl
  have H3 : Keeps P 0x100 := H.mono rfl
  have H4 : Keeps P 0x44b0113 := H.mono rfl
  have H5 : Keeps P 0x7c585f7 := H.mono rfl
  unfold State.readRequest
  with_reducible repeat' first
    | assumption | intro _ | refine keeps_sendResponses H1 ?_ | refine eq_snd ‹_ = _› (keeps_readBytes H2 ?_)
    | refine keeps_readBytes H2 ?_ | refine keeps_markPsns H3 ?_ | refine keeps_signalMsgs H4 ?_ | refine keeps_badAccess H1 ?_
    | refine keeps_countDup H3 ?_ | refine keeps_sendAck H1 ?_ | refine keeps_badRequest H5 ?_ | refine keeps_sendNak H1 ?_
    | refine keeps_upQpn H3 ?_ | split | dsimp only

theorem keeps_packetReadRequest {P : State → Prop} {s : State} {pkt : RdmaPkt} (H : Keeps P 0x7cf85f7) (h0 : P s) : P
    (State.packetReadRequest s pkt) := by
  have H1 : Keeps P 0x4400513 := H.mono rfl
  unfold State.packetReadRequest
  with_reducible repeat' first
    | assumption | intro _ | refine keeps_readRequest H ?_ | refine keeps_takePacket H1 ?_ ?_ | split | dsimp only

theorem keeps_windowKick {P : State → Prop} {s : State} {qpn : Nat} (H : Keeps P 0x4400513) (h0 : P s) : P (State.windowKick s qpn) := by
  unfold State.windowKick
  with_reducible repeat' first
    | assumption | intro _ | refine keeps_foldl ?_ ?_ | refine keeps_sendMsgOut H ?_ | split | dsimp only

theorem keeps_qpGoOn {P : State → Prop} {s : State} {qpn : Nat} (H : Keeps P 0x6c00553) (h0 : P s) : P (State.qpGoOn s qpn) := by
  have H1 : Keeps P 0x4400513 := H.mono rfl
  unfold State.qpGoOn
  with_reducible repeat' first
    | assumption | intro _ | refine keeps_windowKick H1 ?_ | refine keeps_removeSettle H ?_ | refine keeps_qpKick H1 ?_ | split
    | dsimp only

theorem keeps_txDone {P : State → Prop} {s : State} {m : TxMsg} {b : Bytes} (H : Keeps P 0x6c185f3) (h0 : P s) : P (State.txDone s m b) :=
    by
  unfold State.txDone
  with_reducible repeat' first
    | assumption | intro _ | refine keeps_feedAck H ?_ | refine keeps_genChecked H ?_ | split | dsimp only

theorem keeps_readResponse {P : State → Prop} {s : State} {qpn : Nat} {q : Qp} {p : RdmaPkt} (H : Keeps P 0x6c185f3) (h0 : P s) : P
    (State.readResponse s qpn q p) := by
  have H1 : Keeps P 0x6c00553 := H.mono rfl
  have H2 : Keeps P 0x100 := H.mono rfl
  unfold State.readResponse
  with_reducible repeat' first
    | assumption | intro _ | refine keeps_txDone H ?_ | refine keeps_qpGoOn H1 ?_ | refine keeps_countDup H2 ?_ | refine keeps_upQpn H2 ?_
    | split | dsimp only

theorem keeps_packetReadResponse {P : State → Prop} {s : State} {pkt : RdmaPkt} (H : Keeps P 0x6c185f3) (h0 : P s) : P
    (State.packetReadResponse s pkt) := by
  have H1 : Keeps P 0x4400513 := H.mono rfl
  unfold State.packetReadResponse
  with_reducible repeat' first
    | assumption | intro _ | refine keeps_readResponse H ?_ | refine keeps_takePacket H1 ?_ ?_ | split | dsimp only

theorem keeps_execRdmaWriteReceived {P : State → Prop} {pkt : RdmaPkt} {s : State} (H : Keeps P 0x7cf85f7) (h1 : P s) : ResAll P
    (execRdmaWriteReceived pkt s) := by
  have H1 : Keeps P 0x40000 := H.mono rfl
  unfold execRdmaWriteReceived
  with_reducible repeat' first
    | assumption | intro _ | refine res_next ?_ | refine keeps_packetWrite H ?_
    | refine res_get ‹_ = Host.Outcome.next _› (keeps_onMemory H1 ?_ ?_) | refine keeps_onMemory H1 ?_ ?_ | split | dsimp only

theorem keeps_execRdmaReadRequest {P : State → Prop} {pkt : RdmaPkt} {s : State} (H : Keeps P 0x7cf85f7) (h1 : P s) : ResAll P
    (execRdmaReadRequest pkt s) := by
  have H1 : Keeps P 0x40000 := H.mono rfl
  unfold execRdmaReadRequest
  with_reducible repeat' first
    | assumption | intro _ | refine res_next ?_ | refine keeps_packetReadRequest H ?_
    | refine res_get ‹_ = Host.Outcome.next _› (keeps_onMemory H1 ?_ ?_) | refine keeps_onMemory H1 ?_ ?_ | split | dsimp only

theorem keeps_execRdmaReadResponse {P : State → Prop} {pkt : RdmaPkt} {s : State} (H : Keeps P 0x6c585f3) (h1 : P s) : ResAll P
    (execRdmaReadResponse pkt s) := by
  have H1 : Keeps P 0x6c185f3 := H.mono rfl
  have H2 : Keeps P 0x40000 := H.mono rfl
  unfold execRdmaReadResponse
  with_reducible repeat' first
    | assumption | intro _ | refine res_next ?_ | refine keeps_packetReadResponse H1 ?_
    | refine res_get ‹_ = Host.Outcome.next _› (keeps_onMemory H2 ?_ ?_) | refine keeps_onMemory H2 ?_ ?_ | split | dsimp only

theorem keeps_ackTo {P : State → Prop} {s : State} {qpn : Nat} {psn : Nat} (H : Keeps P 0x6c185f3) (h0 : P s) : P (State.ackTo s qpn psn) :=
    by
  have H1 : Keeps P 0x100 := H.mono rfl
  unfold State.ackTo
  with_reducible repeat' first
    | assumption | intro _ | refine keeps_foldl ?_ ?_ | refine keeps_txDone H ?_ | refine keeps_upQpn H1 ?_ | split | dsimp only

theorem keeps_execAckReceived {P : State → Prop} {pkt : RdmaPkt} {s : State} (H : Keeps P 0x7c585f7) (h1 : P s) : ResAll P (execAckReceived
    pkt s) := by
  have H1 : Keeps P 0x6c185f3 := H.mono rfl
  have H2 : Keeps P 0x6c00553 := H.mono rfl
  have H3 : Keeps P 0x4400513 := H.mono rfl
  have H4 : Keeps P 0x100 := H.mono rfl
  unfold execAckReceived
  with_reducible repeat' first
    | assumption | intro _ | refine res_next ?_ | refine keeps_foldl ?_ ?_ | refine keeps_ackTo H1 ?_ | refine keeps_qpGoOn H2 ?_
    | refine res_get ‹_ = Host.Outcome.next _› (keeps_onPacket H3 ?_ ?_) | refine keeps_onPacket H3 ?_ ?_ | refine keeps_netQpError H ?_
    | refine keeps_upQpn H4 ?_ | split | dsimp only

theorem keeps_execCnpReceived {P : State → Prop} {qpn : Nat} {s : State} (H : Keeps P 0x100) (h1 : P s) : ResAll P (execCnpReceived qpn s)
    := by
  unfold execCnpReceived
  with_reducible repeat' first
    | assumption | intro _ | refine res_next ?_ | refine res_get ‹_ = Host.Outcome.next _› (keeps_onQpn ?_ ?_) | refine keeps_onQpn ?_ ?_
    | refine keeps_upQpn H ?_ | split | dsimp only

theorem keeps_resendPsns {P : State → Prop} {s : State} {qpn : Nat} {l : List Nat} (H : Keeps P 0x4400513) (h0 : P s) : P (State.resendPsns
    s qpn l) := by
  unfold State.resendPsns
  with_reducible repeat' first
    | assumption | intro _ | refine keeps_foldl ?_ ?_ | refine keeps_sendPacket H ?_ | split | dsimp only

theorem keeps_execQpAckTimeout {P : State → Prop} {qpn : Nat} {s : State} (H : Keeps P 0x7c585f7) (h1 : P s) : ResAll P (execQpAckTimeout
    qpn s) := by
  have H1 : Keeps P 0x4400513 := H.mono rfl
  have H2 : Keeps P 0x100 := H.mono rfl
  unfold execQpAckTimeout
  with_reducible repeat' first
    | assumption | intro _ | refine res_next ?_ | refine keeps_resendPsns H1 ?_
    | refine res_get ‹_ = Host.Outcome.next _› (keeps_onQpn ?_ ?_) | refine keeps_onQpn ?_ ?_ | refine keeps_netQpError H ?_
    | refine keeps_upQpn H2 ?_ | split | dsimp only

theorem keeps_execSprayAckTimer {P : State → Prop} {qpn : Nat} {s : State} (H : Keeps P 0x4400513) (h1 : P s) : ResAll P (execSprayAckTimer
    qpn s) := by
  unfold execSprayAckTimer
  with_reducible repeat' first
    | assumption | intro _ | refine res_next ?_ | refine keeps_sendAck H ?_ | refine res_get ‹_ = Host.Outcome.next _› (keeps_onQpn ?_ ?_)
    | refine keeps_onQpn ?_ ?_ | split | dsimp only

theorem keeps_sendRecover {P : State → Prop} {s : State} {qpn : Nat} {acked : Bool} (H : Keeps P 0x4400513) (h0 : P s) : P
    (State.sendRecover s qpn acked) := by
  unfold State.sendRecover
  with_reducible repeat' first
    | assumption | intro _ | refine keeps_qpPacket H ?_ | split | dsimp only

theorem keeps_recoverBegin {P : State → Prop} {s : State} {qpn : Nat} {attempt : Nat} {epoch : Nat} (H : Keeps P 0x4400513) (h0 : P s) : P
    (State.recoverBegin s qpn attempt epoch) := by
  have H1 : Keeps P 0x4400111 := H.mono rfl
  have H2 : Keeps P 0x100 := H.mono rfl
  have H3 : Keeps P 0x2 := H.mono rfl
  unfold State.recoverBegin
  with_reducible repeat' first
    | assumption | intro _ | refine keeps_sendRecover H ?_ | refine keeps_qpMove H1 ?_ | refine keeps_upQpn H2 ?_
    | refine keeps_spent H3 ?_ | split | dsimp only

theorem keeps_execQpRecoveryStart {P : State → Prop} {qpn : Nat} {s : State} (H : Keeps P 0x4400513) (h1 : P s) : ResAll P
    (execQpRecoveryStart qpn s) := by
  unfold execQpRecoveryStart
  with_reducible repeat' first
    | assumption | intro _ | refine res_next ?_ | refine keeps_recoverBegin H ?_
    | refine res_get ‹_ = Host.Outcome.next _› (keeps_onQpn ?_ ?_) | refine keeps_onQpn ?_ ?_ | split | dsimp only

theorem keeps_execRecoverSendTimer {P : State → Prop} {qpn : Nat} {s : State} (H : Keeps P 0x4400513) (h1 : P s) : ResAll P
    (execRecoverSendTimer qpn s) := by
  unfold execRecoverSendTimer
  with_reducible repeat' first
    | assumption | intro _ | refine res_next ?_ | refine keeps_sendRecover H ?_
    | refine res_get ‹_ = Host.Outcome.next _› (keeps_onQpn ?_ ?_) | refine keeps_onQpn ?_ ?_ | split | dsimp only

theorem keeps_pathsUp {P : State → Prop} {s : State} {qpn : Nat} {l : List Nat} (H : Keeps P 0x4c00111) (h0 : P s) : P (State.pathsUp s qpn
    l) := by
  unfold State.pathsUp
  with_reducible repeat' first
    | assumption | intro _ | refine keeps_foldl ?_ ?_ | refine keeps_netEvent H ?_ | split | dsimp only

theorem keeps_recoverEnd {P : State → Prop} {s : State} {qpn : Nat} (H : Keeps P 0x6c185f3) (h0 : P s) : P (State.recoverEnd s qpn) := by
  have H1 : Keeps P 0x4c00111 := H.mono rfl
  have H2 : Keeps P 0x6c00553 := H.mono rfl
  have H3 : Keeps P 0x4410513 := H.mono rfl
  have H4 : Keeps P 0x81 := H.mono rfl
  have H5 : Keeps P 0x4400111 := H.mono rfl
  have H6 : Keeps P 0x100 := H.mono rfl
  unfold State.recoverEnd
  with_reducible repeat' first
    | assumption | intro _ | refine keeps_foldl ?_ ?_ | refine keeps_pathsUp H1 ?_ | refine keeps_txDone H ?_ | refine keeps_qpGoOn H2 ?_
    | refine keeps_feedQpRts H3 ?_ | refine keeps_stoRefresh H4 ?_ | refine keeps_qpMove H5 ?_ | refine keeps_netEvent H1 ?_
    | refine keeps_upQpn H6 ?_ | split | dsimp only

theorem keeps_recoverTake {P : State → Prop} {s : State} {qpn : Nat} {p : RdmaPkt} (H : Keeps P 0x6c185f3) (h0 : P s) : P (State.recoverTake
    s qpn p) := by
  have H1 : Keeps P 0x4400513 := H.mono rfl
  have H2 : Keeps P 0x100 := H.mono rfl
  unfold State.recoverTake
  with_reducible repeat' first
    | assumption | intro _ | refine keeps_recoverEnd H ?_ | refine keeps_sendRecover H1 ?_ | refine keeps_upQpn H2 ?_ | split | dsimp only

theorem keeps_execRecoverReceived {P : State → Prop} {pkt : RdmaPkt} {s : State} (H : Keeps P 0x6c185f3) (h1 : P s) : ResAll P
    (execRecoverReceived pkt s) := by
  have H1 : Keeps P 0x4400513 := H.mono rfl
  have H2 : Keeps P 0x10100 := H.mono rfl
  have H3 : Keeps P 0x100 := H.mono rfl
  unfold execRecoverReceived
  with_reducible repeat' first
    | assumption | intro _ | refine res_next ?_ | refine keeps_recoverTake H ?_ | refine keeps_recoverBegin H1 ?_
    | refine keeps_sendRecover H1 ?_ | refine res_get ‹_ = Host.Outcome.next _› (keeps_onQpn ?_ ?_) | refine keeps_onQpn ?_ ?_
    | refine keeps_feedQpError H2 ?_ | refine keeps_upQpn H3 ?_ | split | dsimp only

theorem keeps_execRecoveryAttemptTimeout {P : State → Prop} {qpn : Nat} {s : State} (H : Keeps P 0x7c585f7) (h1 : P s) : ResAll P
    (execRecoveryAttemptTimeout qpn s) := by
  have H1 : Keeps P 0x6c185f7 := H.mono rfl
  have H2 : Keeps P 0x81 := H.mono rfl
  have H3 : Keeps P 0x4c00111 := H.mono rfl
  have H4 : Keeps P 0x100 := H.mono rfl
  unfold execRecoveryAttemptTimeout
  with_reducible repeat' first
    | assumption | intro _ | refine res_next ?_ | refine res_get ‹_ = Host.Outcome.next _› (keeps_onQpn ?_ ?_) | refine keeps_onQpn ?_ ?_
    | refine keeps_netQpError H ?_ | refine keeps_qpGivenUp H1 ?_ | refine keeps_stoRefresh H2 ?_ | refine keeps_netEvent H3 ?_
    | refine keeps_upQpn H4 ?_ | split | dsimp only

theorem keeps_execRecoveryRetry {P : State → Prop} {qpn : Nat} {s : State} (H : Keeps P 0x4400513) (h1 : P s) : ResAll P (execRecoveryRetry
    qpn s) := by
  unfold execRecoveryRetry
  with_reducible repeat' first
    | assumption | intro _ | refine res_next ?_ | refine keeps_recoverBegin H ?_
    | refine res_get ‹_ = Host.Outcome.next _› (keeps_onQpn ?_ ?_) | refine keeps_onQpn ?_ ?_ | split | dsimp only

theorem keeps_execPathDown {P : State → Prop} {qpn : Nat} {path : Nat} {s : State} (H : Keeps P 0x7c585f7) (h2 : P s) : ResAll P
    (execPathDown qpn path s) := by
  have H1 : Keeps P 0x4c00111 := H.mono rfl
  have H2 : Keeps P 0x100 := H.mono rfl
  unfold execPathDown
  with_reducible repeat' first
    | assumption | intro _ | refine res_next ?_ | refine res_get ‹_ = Host.Outcome.next _› (keeps_onQpn ?_ ?_) | refine keeps_onQpn ?_ ?_
    | refine keeps_netQpError H ?_ | refine keeps_netEvent H1 ?_ | refine keeps_upQpn H2 ?_ | split | dsimp only

theorem keeps_execPathProbe {P : State → Prop} {qpn : Nat} {path : Nat} {answered : Bool} {s : State} (H : Keeps P 0x4c00111) (h3 : P s) :
    ResAll P (execPathProbe qpn path answered s) := by
  have H1 : Keeps P 0x100 := H.mono rfl
  unfold execPathProbe
  with_reducible repeat' first
    | assumption | intro _ | refine res_next ?_ | refine res_get ‹_ = Host.Outcome.next _› (keeps_onQpn ?_ ?_) | refine keeps_onQpn ?_ ?_
    | refine keeps_netEvent H ?_ | refine keeps_upQpn H1 ?_ | split | dsimp only

theorem keeps_execNetEvqHeadWrite {P : State → Prop} {val : Nat} {s : State} (H : Keeps P 0x4800101) (h1 : P s) : ResAll P
    (execNetEvqHeadWrite val s) := by
  have H1 : Keeps P 0x100 := H.mono rfl
  have H2 : Keeps P 0x4800001 := H.mono rfl
  unfold execNetEvqHeadWrite
  with_reducible repeat' first
    | assumption | intro _ | refine res_next ?_ | exact opt_none | refine opt_some ?_ | refine opt_map2 (P := P) ?_ ?_ | refine opt_map ?_
    | refine keeps_upNet H1 ?_ | refine res_get ‹_ = Host.Outcome.next _› (keeps_barWrite H2 ?_ ?_) | refine keeps_barWrite H2 ?_ ?_
    | split | dsimp only

theorem keeps_linkPeer {P : State → Prop} {s : State} {m : Member} {b : Bytes} {st : QpState} (H : Keeps P 0x4400111) (h0 : P s) : P
    (State.linkPeer s m b st) := by
  have H1 : Keeps P 0x100 := H.mono rfl
  unfold State.linkPeer
  with_reducible repeat' first
    | assumption | intro _ | refine keeps_qpMove H ?_ | refine keeps_upQpn H1 ?_ | split | dsimp only

theorem keeps_execCmReqReceived {P : State → Prop} {src : Bytes} {req : Bytes} {s : State} (H : Keeps P 0x4c00513) (h2 : P s) : ResAll P
    (execCmReqReceived src req s) := by
  have H1 : Keeps P 0x100 := H.mono rfl
  have H2 : Keeps P 0x4400111 := H.mono rfl
  have H3 : Keeps P 0x4c00511 := H.mono rfl
  have H4 : Keeps P 0x500 := H.mono rfl
  have H5 : Keeps P 0x1 := H.mono rfl
  have H6 : Keeps P 0x2 := H.mono rfl
  unfold execCmReqReceived
  with_reducible repeat' first
    | assumption | intro _ | refine res_next ?_ | refine keeps_upNet H1 ?_ | refine keeps_linkPeer H2 ?_
    | refine opt_get4 ‹_ = some (_, _, _, _)› (keeps_linkMake H3 ?_) | refine keeps_linkMake H3 ?_ | refine keeps_linkFree H4 ?_
    | refine res_get ‹_ = Host.Outcome.next _› (keeps_onMain ?_ ?_) | refine keeps_onMain ?_ ?_ | refine keeps_emit H5 ?_
    | refine keeps_spent H6 ?_ | split | dsimp only

theorem keeps_execCmRepReceived {P : State → Prop} {member : Nat} {rep : Bytes} {s : State} (H : Keeps P 0x6c00553) (h2 : P s) : ResAll P
    (execCmRepReceived member rep s) := by
  have H1 : Keeps P 0x4400111 := H.mono rfl
  have H2 : Keeps P 0x4c00111 := H.mono rfl
  have H3 : Keeps P 0x100 := H.mono rfl
  have H4 : Keeps P 0x1 := H.mono rfl
  unfold execCmRepReceived
  with_reducible repeat' first
    | assumption | intro _ | refine res_next ?_ | refine keeps_linkPeer H1 ?_ | refine keeps_netEvent H2 ?_
    | refine res_get ‹_ = Host.Outcome.next _› (keeps_onMain ?_ ?_) | refine keeps_onMain ?_ ?_ | refine keeps_finishAll H ?_
    | refine keeps_upMember H3 ?_ | refine keeps_emit H4 ?_ | split | dsimp only

theorem keeps_addFailed {P : State → Prop} {s : State} {member : Nat} (H : Keeps P 0x6c00553) (h0 : P s) : P (State.addFailed s member) :=
    by
  have H1 : Keeps P 0x100 := H.mono rfl
  have H2 : Keeps P 0x500 := H.mono rfl
  unfold State.addFailed
  with_reducible repeat' first
    | assumption | intro _ | refine keeps_upNet H1 ?_ | refine keeps_linkFree H2 ?_ | refine keeps_finishAll H ?_
    | refine keeps_upMember H1 ?_ | split | dsimp only

theorem keeps_execRejReceived {P : State → Prop} {member : Nat} {s : State} (H : Keeps P 0x6c00553) (h1 : P s) : ResAll P (execRejReceived
    member s) := by
  unfold execRejReceived
  with_reducible repeat' first
    | assumption | intro _ | refine res_next ?_ | refine keeps_addFailed H ?_
    | refine res_get ‹_ = Host.Outcome.next _› (keeps_onMainIf ?_ ?_) | refine keeps_onMainIf ?_ ?_ | split | dsimp only

theorem keeps_execNetPeerUnreachable {P : State → Prop} {member : Nat} {s : State} (H : Keeps P 0x6c00553) (h1 : P s) : ResAll P
    (execNetPeerUnreachable member s) := by
  unfold execNetPeerUnreachable
  with_reducible repeat' first
    | assumption | intro _ | refine res_next ?_ | refine keeps_addFailed H ?_
    | refine res_get ‹_ = Host.Outcome.next _› (keeps_onMainIf ?_ ?_) | refine keeps_onMainIf ?_ ?_ | split | dsimp only

theorem keeps_execRtuReceived {P : State → Prop} {member : Nat} {s : State} (H : Keeps P 0x4400111) (h1 : P s) : ResAll P (execRtuReceived
    member s) := by
  have H1 : Keeps P 0x100 := H.mono rfl
  unfold execRtuReceived
  with_reducible repeat' first
    | assumption | intro _ | refine res_next ?_ | refine keeps_qpMove H ?_ | refine res_get ‹_ = Host.Outcome.next _› (keeps_onMain ?_ ?_)
    | refine keeps_onMain ?_ ?_ | refine keeps_upMember H1 ?_ | split | dsimp only

theorem keeps_nvmeQueueGone {P : State → Prop} {s : State} {fn : Nat} {i : Nat} (H : Keeps P 0x80) (h0 : P s) : P (State.nvmeQueueGone s fn
    i) := by
  unfold State.nvmeQueueGone
  with_reducible repeat' first
    | assumption | intro _ | refine keeps_upCtrl H ?_ | split | dsimp only

theorem keeps_ctxLost {P : State → Prop} {s : State} {ctx : Nat} (H : Keeps P 0x7c597f7) (h0 : P s) : P (State.ctxLost s ctx) := by
  have H1 : Keeps P 0x400 := H.mono rfl
  have H2 : Keeps P 0x200 := H.mono rfl
  have H3 : Keeps P 0x80 := H.mono rfl
  have H4 : Keeps P 0x7c585f7 := H.mono rfl
  have H5 : Keeps P 0x600 := H.mono rfl
  have H6 : Keeps P 0x7c41113 := H.mono rfl
  have H7 : Keeps P 0x7c40113 := H.mono rfl
  have H8 : Keeps P 0x2 := H.mono rfl
  unfold State.ctxLost
  with_reducible repeat' first
    | assumption | intro _ | refine keeps_upCtx H1 ?_ | refine keeps_upHed H2 ?_ | refine keeps_nvmeQueueGone H3 ?_
    | refine keeps_netQpError H4 ?_ | refine keeps_flowFree H5 ?_ | refine keeps_ctxGive H1 ?_ | refine keeps_shuFail H6 ?_
    | refine keeps_record H7 ?_ | refine keeps_spent H8 ?_ | split | dsimp only

theorem keeps_execContextError {P : State → Prop} {ctx : Nat} {s : State} (H : Keeps P 0x7c597f7) (h1 : P s) : ResAll P (execContextError
    ctx s) := by
  unfold execContextError
  with_reducible repeat' first
    | assumption | intro _ | refine res_next ?_ | refine keeps_ctxLost H ?_ | refine res_get ‹_ = Host.Outcome.next _› (keeps_onMain ?_ ?_)
    | refine keeps_onMain ?_ ?_ | split | dsimp only

theorem keeps_execTableauStopped {P : State → Prop} {s : State} (H : Keeps P 0x7c40553) (h0 : P s) : ResAll P (execTableauStopped s) := by
  have H1 : Keeps P 0x10 := H.mono rfl
  have H2 : Keeps P 0x6c00553 := H.mono rfl
  have H3 : Keeps P 0x7c40113 := H.mono rfl
  unfold execTableauStopped
  with_reducible repeat' first
    | assumption | intro _ | refine res_next ?_ | refine keeps_foldl ?_ ?_ | refine keeps_upAon H1 ?_ | refine keeps_finish H2 ?_
    | refine keeps_record H3 ?_ | refine res_get ‹_ = Host.Outcome.next _› (keeps_onAlways ?_ ?_) | refine keeps_onAlways ?_ ?_ | split
    | dsimp only

theorem keeps_execJtagAccess {P : State → Prop} {space : Nat} {addr : Nat} {len : Nat} {s : State} (H : Keeps P 0x13) (h3 : P s) : ResAll P
    (execJtagAccess space addr len s) := by
  have H1 : Keeps P 0x10 := H.mono rfl
  have H2 : Keeps P 0x1 := H.mono rfl
  have H3 : Keeps P 0x2 := H.mono rfl
  unfold execJtagAccess
  with_reducible repeat' first
    | assumption | intro _ | refine res_next ?_ | refine keeps_upAon H1 ?_ | refine keeps_emit H2 ?_ | refine keeps_spent H3 ?_
    | refine res_get ‹_ = Host.Outcome.next _› (keeps_onAlways ?_ ?_) | refine keeps_onAlways ?_ ?_ | split | dsimp only

theorem keeps_scanReply {P : State → Prop} {s : State} {sess : Nat} {req : Bytes} (H : Keeps P 0x3) (h0 : P s) : P (State.scanReply s sess
    req) := by
  have H1 : Keeps P 0x1 := H.mono rfl
  have H2 : Keeps P 0x2 := H.mono rfl
  unfold State.scanReply
  with_reducible repeat' first
    | assumption | intro _ | refine keeps_emit H1 ?_ | refine keeps_spent H2 ?_ | split | dsimp only

theorem keeps_execMgmtScanRequest {P : State → Prop} {sess : Nat} {req : Bytes} {s : State} (H : Keeps P 0x2000113) (h2 : P s) : ResAll P
    (execMgmtScanRequest sess req s) := by
  have H1 : Keeps P 0x2000000 := H.mono rfl
  have H2 : Keeps P 0x3 := H.mono rfl
  have H3 : Keeps P 0x110 := H.mono rfl
  unfold execMgmtScanRequest
  with_reducible repeat' first
    | assumption | intro _ | refine res_next ?_ | refine keeps_upSm H1 ?_ | refine keeps_scanReply H2 ?_ | refine keeps_enterTableau H3 ?_
    | refine res_get ‹_ = Host.Outcome.next _› (keeps_onAlways ?_ ?_) | refine keeps_onAlways ?_ ?_ | split | dsimp only

theorem keeps_handoverAbandon {P : State → Prop} {s : State} {detail : Nat} (H : Keeps P 0x6d00553) (h0 : P s) : P (State.handoverAbandon s
    detail) := by
  have H1 : Keeps P 0x100000 := H.mono rfl
  have H2 : Keeps P 0x6c00553 := H.mono rfl
  unfold State.handoverAbandon
  with_reducible repeat' first
    | assumption | intro _ | refine keeps_upStg H1 ?_ | refine keeps_handsState H1 ?_ | refine keeps_finishAll H2 ?_ | split | dsimp only

theorem keeps_handoverHit {P : State → Prop} {s : State} (H : Keeps P 0x6d00553) (h0 : P s) : P (State.handoverHit s) := by
  have H1 : Keeps P 0x100000 := H.mono rfl
  unfold State.handoverHit
  with_reducible repeat' first
    | assumption | intro _ | refine keeps_handoverAbandon H ?_ | refine keeps_handoverBack H1 ?_ | split | dsimp only

theorem keeps_handStops {P : State → Prop} {s : State} {n : Nat} (H : Keeps P 0x700000) (h0 : P s) : P (State.handStops s n) := by
  have H1 : Keeps P 0x100000 := H.mono rfl
  have H2 : Keeps P 0x400000 := H.mono rfl
  have H3 : Keeps P 0x200000 := H.mono rfl
  unfold State.handStops
  with_reducible repeat' first
    | assumption | intro _ | refine keeps_upHand H1 ?_ | refine keeps_clearHandStack H2 ?_ | refine keeps_upCore H3 ?_ | split | dsimp only

theorem keeps_handEnds {P : State → Prop} {s : State} {n : Nat} (H : Keeps P 0x6f40553) (h0 : P s) : P (State.handEnds s n) := by
  have H1 : Keeps P 0x700000 := H.mono rfl
  have H2 : Keeps P 0x6d00553 := H.mono rfl
  have H3 : Keeps P 0x40000 := H.mono rfl
  unfold State.handEnds
  with_reducible repeat' first
    | assumption | intro _ | refine keeps_handStops H1 ?_ | refine keeps_handoverHit H2 ?_ | refine keeps_charge H3 ?_ | split | dsimp only

theorem keeps_coreEnds {P : State → Prop} {s : State} {n : Nat} (H : Keeps P 0x6f40553) (h0 : P s) : P (State.coreEnds s n) := by
  have H1 : Keeps P 0x200000 := H.mono rfl
  unfold State.coreEnds
  with_reducible repeat' first
    | assumption | intro _ | refine keeps_handEnds H ?_ | refine keeps_upCore H1 ?_ | split | dsimp only

theorem keeps_moduleEnds {P : State → Prop} {s : State} {core : Nat} {cls : Nat} {status : Nat} {detail : Nat} {result : Nat} (H : Keeps P
    0x6f00557) (h0 : P s) : P (State.moduleEnds s core cls status detail result) := by
  have H1 : Keeps P 0x6c00553 := H.mono rfl
  unfold State.moduleEnds
  with_reducible repeat' first
    | assumption | intro _ | refine keeps_settleUnloads H ?_ | refine keeps_finish H1 ?_ | split | dsimp only

theorem keeps_moduleFault {P : State → Prop} {s : State} {cls : Nat} (H : Keeps P 0x7d40113) (h0 : P s) : P (State.moduleFault s cls) := by
  have H1 : Keeps P 0x100000 := H.mono rfl
  have H2 : Keeps P 0x7c40113 := H.mono rfl
  unfold State.moduleFault
  with_reducible repeat' first
    | assumption | intro _ | refine keeps_upStg H1 ?_ | refine keeps_record H2 ?_ | split | dsimp only

theorem keeps_moduleTrap {P : State → Prop} {s : State} {core : Nat} {cls : Nat} {code : Nat} {value : Nat} (H : Keeps P 0x7f40557) (h0 : P
    s) : P (State.moduleTrap s core cls code value) := by
  have H1 : Keeps P 0x7d40113 := H.mono rfl
  have H2 : Keeps P 0x6f00557 := H.mono rfl
  have H3 : Keeps P 0x2 := H.mono rfl
  unfold State.moduleTrap
  with_reducible repeat' first
    | assumption | intro _ | refine keeps_moduleFault H1 ?_ | refine keeps_moduleEnds H2 ?_ | refine keeps_spent H3 ?_ | split | dsimp only

theorem keeps_onbTrap {P : State → Prop} {s : State} {n : Nat} {k : Cause} {extra : Nat} {at_ : Nat} (H : Keeps P 0x7f40557) (h0 : P s) : P
    (State.onbTrap s n k extra at_) := by
  have H1 : Keeps P 0x6f40553 := H.mono rfl
  have H2 : Keeps P 0x200000 := H.mono rfl
  have H3 : Keeps P 0x2 := H.mono rfl
  unfold State.onbTrap
  with_reducible repeat' first
    | assumption | intro _ | refine keeps_moduleTrap H ?_ | refine keeps_coreEnds H1 ?_ | refine keeps_upCore H2 ?_
    | refine keeps_spent H3 ?_ | split | dsimp only

theorem keeps_onbRun {P : State → Prop} {n : Nat} {s : State} {causes : OnbCore → List Cause} {run : OnbCore → State → State} (H : Keeps P
    0x7f40557) (h1 : P s) (h3 : ∀ y1 y2, P y2 → P (run y1 y2)) : ResAll P (onbRun n s causes run) := by
  unfold onbRun
  with_reducible repeat' first
    | assumption | intro _ | refine h3 _ _ ?_ | refine res_next ?_ | refine keeps_onbTrap H ?_ | split | dsimp only

theorem keeps_onbSeq {P : State → Prop} {n : Nat} {s : State} {causes : OnbCore → List Cause} {f : OnbCore → OnbCore} (H : Keeps P
    0x7f40557) (h1 : P s) : ResAll P (onbSeq n s causes f) := by
  have H1 : Keeps P 0x200000 := H.mono rfl
  unfold onbSeq
  with_reducible repeat' first
    | assumption | intro _ | refine res_next ?_ | refine res_get ‹_ = Host.Outcome.next _› (keeps_onbRun H ?_ ?_)
    | refine keeps_onbRun H ?_ ?_ | refine keeps_upCore H1 ?_ | split | dsimp only

theorem keeps_aluR {P : State → Prop} {n : Nat} {rd : Nat} {ra : Nat} {rb : Nat} {tag : BitVec 4 → BitVec 4 → Option (BitVec 4)} {extra :
    LWord → LWord → List Cause} {f : LWord → LWord → BitVec 64} {s : State} (H : Keeps P 0x7f40557) (h7 : P s) : ResAll P (aluR n rd ra rb
    tag extra f s) := by
  unfold aluR
  with_reducible repeat' first
    | assumption | intro _ | refine res_next ?_ | refine res_get ‹_ = Host.Outcome.next _› (keeps_onbSeq H ?_) | refine keeps_onbSeq H ?_
    | split | dsimp only

theorem keeps_aluInt {P : State → Prop} {n : Nat} {rd : Nat} {ra : Nat} {rb : Nat} {f : BitVec 64 → BitVec 64 → BitVec 64} {s : State} (H :
    Keeps P 0x7f40557) (h5 : P s) : ResAll P (aluInt n rd ra rb f s) := by
  unfold aluInt
  with_reducible repeat' first
    | assumption | intro _ | refine res_next ?_ | refine res_get ‹_ = Host.Outcome.next _› (keeps_aluR H ?_) | refine keeps_aluR H ?_
    | split | dsimp only

theorem keeps_aluImm {P : State → Prop} {n : Nat} {rd : Nat} {ra : Nat} {tag : BitVec 4 → Option (BitVec 4)} {f : BitVec 64 → BitVec 64} {s
    : State} (H : Keeps P 0x7f40557) (h5 : P s) : ResAll P (aluImm n rd ra tag f s) := by
  unfold aluImm
  with_reducible repeat' first
    | assumption | intro _ | refine res_next ?_ | refine res_get ‹_ = Host.Outcome.next _› (keeps_onbSeq H ?_) | refine keeps_onbSeq H ?_
    | split | dsimp only

theorem keeps_execAdd {P : State → Prop} {core : Nat} {rd : Nat} {ra : Nat} {rb : Nat} {s : State} (H : Keeps P 0x7f40557) (h4 : P s) :
    ResAll P (execAdd core rd ra rb s) := by
  unfold execAdd
  with_reducible repeat' first
    | assumption | intro _ | refine res_next ?_ | refine res_get ‹_ = Host.Outcome.next _› (keeps_aluR H ?_) | refine keeps_aluR H ?_
    | split | dsimp only

theorem keeps_execSub {P : State → Prop} {core : Nat} {rd : Nat} {ra : Nat} {rb : Nat} {s : State} (H : Keeps P 0x7f40557) (h4 : P s) :
    ResAll P (execSub core rd ra rb s) := by
  unfold execSub
  with_reducible repeat' first
    | assumption | intro _ | refine res_next ?_ | refine res_get ‹_ = Host.Outcome.next _› (keeps_aluR H ?_) | refine keeps_aluR H ?_
    | split | dsimp only

theorem keeps_execAndR {P : State → Prop} {core : Nat} {rd : Nat} {ra : Nat} {rb : Nat} {s : State} (H : Keeps P 0x7f40557) (h4 : P s) :
    ResAll P (execAndR core rd ra rb s) := by
  unfold execAndR
  with_reducible repeat' first
    | assumption | intro _ | refine res_next ?_ | refine res_get ‹_ = Host.Outcome.next _› (keeps_aluInt H ?_) | refine keeps_aluInt H ?_
    | split | dsimp only

theorem keeps_execOrR {P : State → Prop} {core : Nat} {rd : Nat} {ra : Nat} {rb : Nat} {s : State} (H : Keeps P 0x7f40557) (h4 : P s) :
    ResAll P (execOrR core rd ra rb s) := by
  unfold execOrR
  with_reducible repeat' first
    | assumption | intro _ | refine res_next ?_ | refine res_get ‹_ = Host.Outcome.next _› (keeps_aluInt H ?_) | refine keeps_aluInt H ?_
    | split | dsimp only

theorem keeps_execXorR {P : State → Prop} {core : Nat} {rd : Nat} {ra : Nat} {rb : Nat} {s : State} (H : Keeps P 0x7f40557) (h4 : P s) :
    ResAll P (execXorR core rd ra rb s) := by
  unfold execXorR
  with_reducible repeat' first
    | assumption | intro _ | refine res_next ?_ | refine res_get ‹_ = Host.Outcome.next _› (keeps_aluInt H ?_) | refine keeps_aluInt H ?_
    | split | dsimp only

theorem keeps_execShl {P : State → Prop} {core : Nat} {rd : Nat} {ra : Nat} {rb : Nat} {s : State} (H : Keeps P 0x7f40557) (h4 : P s) :
    ResAll P (execShl core rd ra rb s) := by
  unfold execShl
  with_reducible repeat' first
    | assumption | intro _ | refine res_next ?_ | refine res_get ‹_ = Host.Outcome.next _› (keeps_aluInt H ?_) | refine keeps_aluInt H ?_
    | split | dsimp only

theorem keeps_execShr {P : State → Prop} {core : Nat} {rd : Nat} {ra : Nat} {rb : Nat} {s : State} (H : Keeps P 0x7f40557) (h4 : P s) :
    ResAll P (execShr core rd ra rb s) := by
  unfold execShr
  with_reducible repeat' first
    | assumption | intro _ | refine res_next ?_ | refine res_get ‹_ = Host.Outcome.next _› (keeps_aluInt H ?_) | refine keeps_aluInt H ?_
    | split | dsimp only

theorem keeps_execSar {P : State → Prop} {core : Nat} {rd : Nat} {ra : Nat} {rb : Nat} {s : State} (H : Keeps P 0x7f40557) (h4 : P s) :
    ResAll P (execSar core rd ra rb s) := by
  unfold execSar
  with_reducible repeat' first
    | assumption | intro _ | refine res_next ?_ | refine res_get ‹_ = Host.Outcome.next _› (keeps_aluInt H ?_) | refine keeps_aluInt H ?_
    | split | dsimp only

theorem keeps_execMul {P : State → Prop} {core : Nat} {rd : Nat} {ra : Nat} {rb : Nat} {s : State} (H : Keeps P 0x7f40557) (h4 : P s) :
    ResAll P (execMul core rd ra rb s) := by
  unfold execMul
  with_reducible repeat' first
    | assumption | intro _ | refine res_next ?_ | refine res_get ‹_ = Host.Outcome.next _› (keeps_aluInt H ?_) | refine keeps_aluInt H ?_
    | split | dsimp only

theorem keeps_execMulhu {P : State → Prop} {core : Nat} {rd : Nat} {ra : Nat} {rb : Nat} {s : State} (H : Keeps P 0x7f40557) (h4 : P s) :
    ResAll P (execMulhu core rd ra rb s) := by
  unfold execMulhu
  with_reducible repeat' first
    | assumption | intro _ | refine res_next ?_ | refine res_get ‹_ = Host.Outcome.next _› (keeps_aluInt H ?_) | refine keeps_aluInt H ?_
    | split | dsimp only

theorem keeps_execDivu {P : State → Prop} {core : Nat} {rd : Nat} {ra : Nat} {rb : Nat} {s : State} (H : Keeps P 0x7f40557) (h4 : P s) :
    ResAll P (execDivu core rd ra rb s) := by
  unfold execDivu
  with_reducible repeat' first
    | assumption | intro _ | refine res_next ?_ | refine res_get ‹_ = Host.Outcome.next _› (keeps_aluR H ?_) | refine keeps_aluR H ?_
    | split | dsimp only

theorem keeps_execRemu {P : State → Prop} {core : Nat} {rd : Nat} {ra : Nat} {rb : Nat} {s : State} (H : Keeps P 0x7f40557) (h4 : P s) :
    ResAll P (execRemu core rd ra rb s) := by
  unfold execRemu
  with_reducible repeat' first
    | assumption | intro _ | refine res_next ?_ | refine res_get ‹_ = Host.Outcome.next _› (keeps_aluR H ?_) | refine keeps_aluR H ?_
    | split | dsimp only

theorem keeps_execMinu {P : State → Prop} {core : Nat} {rd : Nat} {ra : Nat} {rb : Nat} {s : State} (H : Keeps P 0x7f40557) (h4 : P s) :
    ResAll P (execMinu core rd ra rb s) := by
  unfold execMinu
  with_reducible repeat' first
    | assumption | intro _ | refine res_next ?_ | refine res_get ‹_ = Host.Outcome.next _› (keeps_aluInt H ?_) | refine keeps_aluInt H ?_
    | split | dsimp only

theorem keeps_execMaxu {P : State → Prop} {core : Nat} {rd : Nat} {ra : Nat} {rb : Nat} {s : State} (H : Keeps P 0x7f40557) (h4 : P s) :
    ResAll P (execMaxu core rd ra rb s) := by
  unfold execMaxu
  with_reducible repeat' first
    | assumption | intro _ | refine res_next ?_ | refine res_get ‹_ = Host.Outcome.next _› (keeps_aluInt H ?_) | refine keeps_aluInt H ?_
    | split | dsimp only

theorem keeps_execMovR {P : State → Prop} {core : Nat} {rd : Nat} {ra : Nat} {s : State} (H : Keeps P 0x7f40557) (h3 : P s) : ResAll P
    (execMovR core rd ra s) := by
  unfold execMovR
  with_reducible repeat' first
    | assumption | intro _ | refine res_next ?_ | refine res_get ‹_ = Host.Outcome.next _› (keeps_aluImm H ?_) | refine keeps_aluImm H ?_
    | split | dsimp only

theorem keeps_execSltu {P : State → Prop} {core : Nat} {rd : Nat} {ra : Nat} {rb : Nat} {s : State} (H : Keeps P 0x7f40557) (h4 : P s) :
    ResAll P (execSltu core rd ra rb s) := by
  unfold execSltu
  with_reducible repeat' first
    | assumption | intro _ | refine res_next ?_ | refine res_get ‹_ = Host.Outcome.next _› (keeps_aluInt H ?_) | refine keeps_aluInt H ?_
    | split | dsimp only

theorem keeps_execAddi {P : State → Prop} {core : Nat} {rd : Nat} {ra : Nat} {imm : Nat} {s : State} (H : Keeps P 0x7f40557) (h4 : P s) :
    ResAll P (execAddi core rd ra imm s) := by
  unfold execAddi
  with_reducible repeat' first
    | assumption | intro _ | refine res_next ?_ | refine res_get ‹_ = Host.Outcome.next _› (keeps_aluImm H ?_) | refine keeps_aluImm H ?_
    | split | dsimp only

theorem keeps_execAndi {P : State → Prop} {core : Nat} {rd : Nat} {ra : Nat} {imm : Nat} {s : State} (H : Keeps P 0x7f40557) (h4 : P s) :
    ResAll P (execAndi core rd ra imm s) := by
  unfold execAndi
  with_reducible repeat' first
    | assumption | intro _ | refine res_next ?_ | refine res_get ‹_ = Host.Outcome.next _› (keeps_aluImm H ?_) | refine keeps_aluImm H ?_
    | split | dsimp only

theorem keeps_execOri {P : State → Prop} {core : Nat} {rd : Nat} {ra : Nat} {imm : Nat} {s : State} (H : Keeps P 0x7f40557) (h4 : P s) :
    ResAll P (execOri core rd ra imm s) := by
  unfold execOri
  with_reducible repeat' first
    | assumption | intro _ | refine res_next ?_ | refine res_get ‹_ = Host.Outcome.next _› (keeps_aluImm H ?_) | refine keeps_aluImm H ?_
    | split | dsimp only

theorem keeps_execXori {P : State → Prop} {core : Nat} {rd : Nat} {ra : Nat} {imm : Nat} {s : State} (H : Keeps P 0x7f40557) (h4 : P s) :
    ResAll P (execXori core rd ra imm s) := by
  unfold execXori
  with_reducible repeat' first
    | assumption | intro _ | refine res_next ?_ | refine res_get ‹_ = Host.Outcome.next _› (keeps_aluImm H ?_) | refine keeps_aluImm H ?_
    | split | dsimp only

theorem keeps_execShiftiShl {P : State → Prop} {core : Nat} {rd : Nat} {ra : Nat} {amount : Nat} {s : State} (H : Keeps P 0x7f40557) (h4 : P
    s) : ResAll P (execShiftiShl core rd ra amount s) := by
  unfold execShiftiShl
  with_reducible repeat' first
    | assumption | intro _ | refine res_next ?_ | refine res_get ‹_ = Host.Outcome.next _› (keeps_aluImm H ?_) | refine keeps_aluImm H ?_
    | split | dsimp only

theorem keeps_execShiftiShr {P : State → Prop} {core : Nat} {rd : Nat} {ra : Nat} {amount : Nat} {s : State} (H : Keeps P 0x7f40557) (h4 : P
    s) : ResAll P (execShiftiShr core rd ra amount s) := by
  unfold execShiftiShr
  with_reducible repeat' first
    | assumption | intro _ | refine res_next ?_ | refine res_get ‹_ = Host.Outcome.next _› (keeps_aluImm H ?_) | refine keeps_aluImm H ?_
    | split | dsimp only

theorem keeps_execShiftiSar {P : State → Prop} {core : Nat} {rd : Nat} {ra : Nat} {amount : Nat} {s : State} (H : Keeps P 0x7f40557) (h4 : P
    s) : ResAll P (execShiftiSar core rd ra amount s) := by
  unfold execShiftiSar
  with_reducible repeat' first
    | assumption | intro _ | refine res_next ?_ | refine res_get ‹_ = Host.Outcome.next _› (keeps_aluImm H ?_) | refine keeps_aluImm H ?_
    | split | dsimp only

theorem keeps_execMovz {P : State → Prop} {core : Nat} {rd : Nat} {k : Nat} {imm : Nat} {s : State} (H : Keeps P 0x7f40557) (h4 : P s) :
    ResAll P (execMovz core rd k imm s) := by
  unfold execMovz
  with_reducible repeat' first
    | assumption | intro _ | refine res_next ?_ | refine res_get ‹_ = Host.Outcome.next _› (keeps_onbSeq H ?_) | refine keeps_onbSeq H ?_
    | split | dsimp only

theorem keeps_execMovk {P : State → Prop} {core : Nat} {rd : Nat} {k : Nat} {imm : Nat} {s : State} (H : Keeps P 0x7f40557) (h4 : P s) :
    ResAll P (execMovk core rd k imm s) := by
  unfold execMovk
  with_reducible repeat' first
    | assumption | intro _ | refine res_next ?_ | refine res_get ‹_ = Host.Outcome.next _› (keeps_onbSeq H ?_) | refine keeps_onbSeq H ?_
    | split | dsimp only

theorem keeps_execLd64 {P : State → Prop} {core : Nat} {rd : Nat} {ra : Nat} {imm : Nat} {s : State} (H : Keeps P 0x7f40557) (h4 : P s) :
    ResAll P (execLd64 core rd ra imm s) := by
  have H1 : Keeps P 0x200000 := H.mono rfl
  have H2 : Keeps P 0x2 := H.mono rfl
  unfold execLd64
  with_reducible repeat' first
    | assumption | intro _ | refine res_next ?_ | refine res_get ‹_ = Host.Outcome.next _› (keeps_onbRun H ?_ ?_)
    | refine keeps_onbRun H ?_ ?_ | refine keeps_upCore H1 ?_ | refine keeps_spent H2 ?_ | split | dsimp only

theorem keeps_narrowLoad {P : State → Prop} {n : Nat} {rd : Nat} {ra : Nat} {imm : Nat} {len : Nat} {s : State} (H : Keeps P 0x7f40557) (h5
    : P s) : ResAll P (narrowLoad n rd ra imm len s) := by
  unfold narrowLoad
  with_reducible repeat' first
    | assumption | intro _ | refine res_next ?_ | refine res_get ‹_ = Host.Outcome.next _› (keeps_onbSeq H ?_) | refine keeps_onbSeq H ?_
    | split | dsimp only

theorem keeps_execLd32u {P : State → Prop} {core : Nat} {rd : Nat} {ra : Nat} {imm : Nat} {s : State} (H : Keeps P 0x7f40557) (h4 : P s) :
    ResAll P (execLd32u core rd ra imm s) := by
  unfold execLd32u
  with_reducible repeat' first
    | assumption | intro _ | refine res_next ?_ | refine res_get ‹_ = Host.Outcome.next _› (keeps_narrowLoad H ?_)
    | refine keeps_narrowLoad H ?_ | split | dsimp only

theorem keeps_execLd16u {P : State → Prop} {core : Nat} {rd : Nat} {ra : Nat} {imm : Nat} {s : State} (H : Keeps P 0x7f40557) (h4 : P s) :
    ResAll P (execLd16u core rd ra imm s) := by
  unfold execLd16u
  with_reducible repeat' first
    | assumption | intro _ | refine res_next ?_ | refine res_get ‹_ = Host.Outcome.next _› (keeps_narrowLoad H ?_)
    | refine keeps_narrowLoad H ?_ | split | dsimp only

theorem keeps_execLd8u {P : State → Prop} {core : Nat} {rd : Nat} {ra : Nat} {imm : Nat} {s : State} (H : Keeps P 0x7f40557) (h4 : P s) :
    ResAll P (execLd8u core rd ra imm s) := by
  unfold execLd8u
  with_reducible repeat' first
    | assumption | intro _ | refine res_next ?_ | refine res_get ‹_ = Host.Outcome.next _› (keeps_narrowLoad H ?_)
    | refine keeps_narrowLoad H ?_ | split | dsimp only

theorem keeps_execSt64 {P : State → Prop} {core : Nat} {rs : Nat} {ra : Nat} {imm : Nat} {s : State} (H : Keeps P 0x7f40557) (h4 : P s) :
    ResAll P (execSt64 core rs ra imm s) := by
  unfold execSt64
  with_reducible repeat' first
    | assumption | intro _ | refine res_next ?_ | refine res_get ‹_ = Host.Outcome.next _› (keeps_onbSeq H ?_) | refine keeps_onbSeq H ?_
    | split | dsimp only

theorem keeps_narrowStore {P : State → Prop} {n : Nat} {rs : Nat} {ra : Nat} {imm : Nat} {len : Nat} {s : State} (H : Keeps P 0x7f40557) (h5
    : P s) : ResAll P (narrowStore n rs ra imm len s) := by
  unfold narrowStore
  with_reducible repeat' first
    | assumption | intro _ | refine res_next ?_ | refine res_get ‹_ = Host.Outcome.next _› (keeps_onbSeq H ?_) | refine keeps_onbSeq H ?_
    | split | dsimp only

theorem keeps_execSt32 {P : State → Prop} {core : Nat} {rs : Nat} {ra : Nat} {imm : Nat} {s : State} (H : Keeps P 0x7f40557) (h4 : P s) :
    ResAll P (execSt32 core rs ra imm s) := by
  unfold execSt32
  with_reducible repeat' first
    | assumption | intro _ | refine res_next ?_ | refine res_get ‹_ = Host.Outcome.next _› (keeps_narrowStore H ?_)
    | refine keeps_narrowStore H ?_ | split | dsimp only

theorem keeps_execSt16 {P : State → Prop} {core : Nat} {rs : Nat} {ra : Nat} {imm : Nat} {s : State} (H : Keeps P 0x7f40557) (h4 : P s) :
    ResAll P (execSt16 core rs ra imm s) := by
  unfold execSt16
  with_reducible repeat' first
    | assumption | intro _ | refine res_next ?_ | refine res_get ‹_ = Host.Outcome.next _› (keeps_narrowStore H ?_)
    | refine keeps_narrowStore H ?_ | split | dsimp only

theorem keeps_execSt8 {P : State → Prop} {core : Nat} {rs : Nat} {ra : Nat} {imm : Nat} {s : State} (H : Keeps P 0x7f40557) (h4 : P s) :
    ResAll P (execSt8 core rs ra imm s) := by
  unfold execSt8
  with_reducible repeat' first
    | assumption | intro _ | refine res_next ?_ | refine res_get ‹_ = Host.Outcome.next _› (keeps_narrowStore H ?_)
    | refine keeps_narrowStore H ?_ | split | dsimp only

theorem keeps_branch {P : State → Prop} {n : Nat} {rs : Nat} {ra : Nat} {imm : Nat} {tags : BitVec 4 → BitVec 4 → Bool} {f : LWord → LWord →
    Bool} {s : State} (H : Keeps P 0x7f40557) (h6 : P s) : ResAll P (branch n rs ra imm tags f s) := by
  have H1 : Keeps P 0x200000 := H.mono rfl
  unfold branch
  with_reducible repeat' first
    | assumption | intro _ | refine res_next ?_ | refine res_get ‹_ = Host.Outcome.next _› (keeps_onbRun H ?_ ?_)
    | refine keeps_onbRun H ?_ ?_ | refine keeps_upCore H1 ?_ | split | dsimp only

theorem keeps_execBeq {P : State → Prop} {core : Nat} {rs : Nat} {ra : Nat} {imm : Nat} {s : State} (H : Keeps P 0x7f40557) (h4 : P s) :
    ResAll P (execBeq core rs ra imm s) := by
  unfold execBeq
  with_reducible repeat' first
    | assumption | intro _ | refine res_next ?_ | refine res_get ‹_ = Host.Outcome.next _› (keeps_branch H ?_) | refine keeps_branch H ?_
    | split | dsimp only

theorem keeps_execBne {P : State → Prop} {core : Nat} {rs : Nat} {ra : Nat} {imm : Nat} {s : State} (H : Keeps P 0x7f40557) (h4 : P s) :
    ResAll P (execBne core rs ra imm s) := by
  unfold execBne
  with_reducible repeat' first
    | assumption | intro _ | refine res_next ?_ | refine res_get ‹_ = Host.Outcome.next _› (keeps_branch H ?_) | refine keeps_branch H ?_
    | split | dsimp only

theorem keeps_execBlt {P : State → Prop} {core : Nat} {rs : Nat} {ra : Nat} {imm : Nat} {s : State} (H : Keeps P 0x7f40557) (h4 : P s) :
    ResAll P (execBlt core rs ra imm s) := by
  unfold execBlt
  with_reducible repeat' first
    | assumption | intro _ | refine res_next ?_ | refine res_get ‹_ = Host.Outcome.next _› (keeps_branch H ?_) | refine keeps_branch H ?_
    | split | dsimp only

theorem keeps_execBge {P : State → Prop} {core : Nat} {rs : Nat} {ra : Nat} {imm : Nat} {s : State} (H : Keeps P 0x7f40557) (h4 : P s) :
    ResAll P (execBge core rs ra imm s) := by
  unfold execBge
  with_reducible repeat' first
    | assumption | intro _ | refine res_next ?_ | refine res_get ‹_ = Host.Outcome.next _› (keeps_branch H ?_) | refine keeps_branch H ?_
    | split | dsimp only

end Sys2Proof.Laws
end

