-- ==== Sys2Proof/Laws/Keeps5.lean ====
section
/-!
SUPPORT. What every operation keeps, part 5 of 5.
-/
set_option linter.all false

namespace Sys2Proof.Laws

open Sys2Proof Sys2Proof.Machine Sys2Proof.Safety

theorem keeps_execBltu {P : State → Prop} {core : Nat} {rs : Nat} {ra : Nat} {imm : Nat} {s : State} (H : Keeps P 0x7f40557) (h4 : P s) :
    ResAll P (execBltu core rs ra imm s) := by
  unfold execBltu
  with_reducible repeat' first
    | assumption | intro _ | refine res_next ?_ | refine res_get ‹_ = Host.Outcome.next _› (keeps_branch H ?_) | refine keeps_branch H ?_
    | split | dsimp only

theorem keeps_execBgeu {P : State → Prop} {core : Nat} {rs : Nat} {ra : Nat} {imm : Nat} {s : State} (H : Keeps P 0x7f40557) (h4 : P s) :
    ResAll P (execBgeu core rs ra imm s) := by
  unfold execBgeu
  with_reducible repeat' first
    | assumption | intro _ | refine res_next ?_ | refine res_get ‹_ = Host.Outcome.next _› (keeps_branch H ?_) | refine keeps_branch H ?_
    | split | dsimp only

theorem keeps_execJal {P : State → Prop} {core : Nat} {imm : Nat} {s : State} (H : Keeps P 0x7f40557) (h2 : P s) : ResAll P (execJal core
    imm s) := by
  have H1 : Keeps P 0x200000 := H.mono rfl
  unfold execJal
  with_reducible repeat' first
    | assumption | intro _ | refine res_next ?_ | refine res_get ‹_ = Host.Outcome.next _› (keeps_onbRun H ?_ ?_)
    | refine keeps_onbRun H ?_ ?_ | refine keeps_upCore H1 ?_ | split | dsimp only

theorem keeps_execJr {P : State → Prop} {core : Nat} {rd : Nat} {ra : Nat} {s : State} (H : Keeps P 0x7f40557) (h3 : P s) : ResAll P (execJr
    core rd ra s) := by
  have H1 : Keeps P 0x200000 := H.mono rfl
  unfold execJr
  with_reducible repeat' first
    | assumption | intro _ | refine res_next ?_ | refine res_get ‹_ = Host.Outcome.next _› (keeps_onbRun H ?_ ?_)
    | refine keeps_onbRun H ?_ ?_ | refine keeps_upCore H1 ?_ | split | dsimp only

theorem keeps_execAdr {P : State → Prop} {core : Nat} {rd : Nat} {imm : Nat} {s : State} (H : Keeps P 0x7f40557) (h3 : P s) : ResAll P
    (execAdr core rd imm s) := by
  unfold execAdr
  with_reducible repeat' first
    | assumption | intro _ | refine res_next ?_ | refine res_get ‹_ = Host.Outcome.next _› (keeps_onbSeq H ?_) | refine keeps_onbSeq H ?_
    | split | dsimp only

theorem keeps_execLoop {P : State → Prop} {core : Nat} {level : Nat} {rc : Nat} {fin : Nat} {s : State} (H : Keeps P 0x7f40557) (h4 : P s) :
    ResAll P (execLoop core level rc fin s) := by
  have H1 : Keeps P 0x200000 := H.mono rfl
  unfold execLoop
  with_reducible repeat' first
    | assumption | intro _ | refine res_next ?_ | refine res_get ‹_ = Host.Outcome.next _› (keeps_onbRun H ?_ ?_)
    | refine keeps_onbRun H ?_ ?_ | refine keeps_upCore H1 ?_ | split | dsimp only

theorem keeps_execLoopi {P : State → Prop} {core : Nat} {level : Nat} {count : Nat} {fin : Nat} {s : State} (H : Keeps P 0x7f40557) (h4 : P
    s) : ResAll P (execLoopi core level count fin s) := by
  have H1 : Keeps P 0x200000 := H.mono rfl
  unfold execLoopi
  with_reducible repeat' first
    | assumption | intro _ | refine res_next ?_ | refine res_get ‹_ = Host.Outcome.next _› (keeps_onbRun H ?_ ?_)
    | refine keeps_onbRun H ?_ ?_ | refine keeps_upCore H1 ?_ | split | dsimp only

theorem keeps_csrPut {P : State → Prop} {s : State} {n : Nat} {k : Nat} {v : BitVec 64} (H : Keeps P 0x2300000) (h0 : P s) : P (State.csrPut
    s n k v) := by
  have H1 : Keeps P 0x2000000 := H.mono rfl
  have H2 : Keeps P 0x100000 := H.mono rfl
  have H3 : Keeps P 0x200000 := H.mono rfl
  unfold State.csrPut
  with_reducible repeat' first
    | assumption | intro _ | refine keeps_upSm H1 ?_ | refine keeps_upHand H2 ?_ | refine keeps_upCore H3 ?_ | split | dsimp only

theorem keeps_execCsrr {P : State → Prop} {core : Nat} {rd : Nat} {imm : Nat} {s : State} (H : Keeps P 0x7f40557) (h3 : P s) : ResAll P
    (execCsrr core rd imm s) := by
  have H1 : Keeps P 0x200000 := H.mono rfl
  unfold execCsrr
  with_reducible repeat' first
    | assumption | intro _ | refine res_next ?_ | refine res_get ‹_ = Host.Outcome.next _› (keeps_onbRun H ?_ ?_)
    | refine keeps_onbRun H ?_ ?_ | refine keeps_upCore H1 ?_ | split | dsimp only

theorem keeps_execCsrw {P : State → Prop} {core : Nat} {rs : Nat} {imm : Nat} {s : State} (H : Keeps P 0x7f40557) (h3 : P s) : ResAll P
    (execCsrw core rs imm s) := by
  have H1 : Keeps P 0x2300000 := H.mono rfl
  have H2 : Keeps P 0x200000 := H.mono rfl
  unfold execCsrw
  with_reducible repeat' first
    | assumption | intro _ | refine res_next ?_ | refine keeps_csrPut H1 ?_
    | refine res_get ‹_ = Host.Outcome.next _› (keeps_onbRun H ?_ ?_) | refine keeps_onbRun H ?_ ?_ | refine keeps_upCore H2 ?_ | split
    | dsimp only

theorem keeps_execTagR {P : State → Prop} {core : Nat} {rd : Nat} {ra : Nat} {s : State} (H : Keeps P 0x7f40557) (h3 : P s) : ResAll P
    (execTagR core rd ra s) := by
  unfold execTagR
  with_reducible repeat' first
    | assumption | intro _ | refine res_next ?_ | refine res_get ‹_ = Host.Outcome.next _› (keeps_onbSeq H ?_) | refine keeps_onbSeq H ?_
    | split | dsimp only

theorem keeps_execRetag {P : State → Prop} {core : Nat} {rd : Nat} {ra : Nat} {tag : Nat} {s : State} (H : Keeps P 0x7f40557) (h4 : P s) :
    ResAll P (execRetag core rd ra tag s) := by
  unfold execRetag
  with_reducible repeat' first
    | assumption | intro _ | refine res_next ?_ | refine res_get ‹_ = Host.Outcome.next _› (keeps_onbSeq H ?_) | refine keeps_onbSeq H ?_
    | split | dsimp only

theorem keeps_execTrap {P : State → Prop} {core : Nat} {imm : Nat} {s : State} (H : Keeps P 0x7f40557) (h2 : P s) : ResAll P (execTrap core
    imm s) := by
  unfold execTrap
  with_reducible repeat' first
    | assumption | intro _ | refine res_next ?_ | refine res_get ‹_ = Host.Outcome.next _› (keeps_onbRun H ?_ ?_)
    | refine keeps_onbRun H ?_ ?_ | refine keeps_onbTrap H ?_ | split | dsimp only

theorem keeps_execTret {P : State → Prop} {core : Nat} {cls : Nat} {s : State} (H : Keeps P 0x7f40557) (h2 : P s) : ResAll P (execTret core
    cls s) := by
  have H1 : Keeps P 0x200000 := H.mono rfl
  unfold execTret
  with_reducible repeat' first
    | assumption | intro _ | refine res_next ?_ | refine res_get ‹_ = Host.Outcome.next _› (keeps_onbRun H ?_ ?_)
    | refine keeps_onbRun H ?_ ?_ | refine keeps_upCore H1 ?_ | split | dsimp only

theorem keeps_execWait {P : State → Prop} {core : Nat} {rd : Nat} {rb : Nat} {s : State} (H : Keeps P 0x7f40557) (h3 : P s) : ResAll P
    (execWait core rd rb s) := by
  have H1 : Keeps P 0x200000 := H.mono rfl
  unfold execWait
  with_reducible repeat' first
    | assumption | intro _ | refine res_next ?_ | refine res_get ‹_ = Host.Outcome.next _› (keeps_onbRun H ?_ ?_)
    | refine keeps_onbRun H ?_ ?_ | refine keeps_upCore H1 ?_ | split | dsimp only

theorem keeps_execWaitReturn {P : State → Prop} {core : Nat} {s : State} (H : Keeps P 0x200000) (h1 : P s) : ResAll P (execWaitReturn core
    s) := by
  unfold execWaitReturn
  with_reducible repeat' first
    | assumption | intro _ | refine res_next ?_ | refine keeps_upCore H ?_ | split | dsimp only

theorem keeps_execModuleBudgetExpiry {P : State → Prop} {core : Nat} {s : State} (H : Keeps P 0x7f40557) (h1 : P s) : ResAll P
    (execModuleBudgetExpiry core s) := by
  unfold execModuleBudgetExpiry
  with_reducible repeat' first
    | assumption | intro _ | refine res_next ?_ | refine keeps_onbTrap H ?_ | split | dsimp only

theorem keeps_execSha256Init {P : State → Prop} {core : Nat} {s : State} (H : Keeps P 0x7f40557) (h1 : P s) : ResAll P (execSha256Init core
    s) := by
  unfold execSha256Init
  with_reducible repeat' first
    | assumption | intro _ | refine res_next ?_ | refine res_get ‹_ = Host.Outcome.next _› (keeps_onbSeq H ?_) | refine keeps_onbSeq H ?_
    | split | dsimp only

theorem keeps_execSha256Upd {P : State → Prop} {core : Nat} {ra : Nat} {rb : Nat} {s : State} (H : Keeps P 0x7f40557) (h3 : P s) : ResAll P
    (execSha256Upd core ra rb s) := by
  unfold execSha256Upd
  with_reducible repeat' first
    | assumption | intro _ | refine res_next ?_ | refine res_get ‹_ = Host.Outcome.next _› (keeps_onbSeq H ?_) | refine keeps_onbSeq H ?_
    | split | dsimp only

theorem keeps_execSha256Fin {P : State → Prop} {core : Nat} {ra : Nat} {s : State} (H : Keeps P 0x7f40557) (h2 : P s) : ResAll P
    (execSha256Fin core ra s) := by
  have H1 : Keeps P 0x200000 := H.mono rfl
  have H2 : Keeps P 0x2 := H.mono rfl
  unfold execSha256Fin
  with_reducible repeat' first
    | assumption | intro _ | refine res_next ?_ | refine res_get ‹_ = Host.Outcome.next _› (keeps_onbRun H ?_ ?_)
    | refine keeps_onbRun H ?_ ?_ | refine keeps_upCore H1 ?_ | refine keeps_spent H2 ?_ | split | dsimp only

theorem keeps_crcInstr {P : State → Prop} {n : Nat} {rd : Nat} {ra : Nat} {rb : Nat} {f : Nat → Bytes → Nat} {s : State} (H : Keeps P
    0x7f40557) (h5 : P s) : ResAll P (crcInstr n rd ra rb f s) := by
  unfold crcInstr
  with_reducible repeat' first
    | assumption | intro _ | refine res_next ?_ | refine res_get ‹_ = Host.Outcome.next _› (keeps_onbSeq H ?_) | refine keeps_onbSeq H ?_
    | split | dsimp only

theorem keeps_execCrc32c {P : State → Prop} {core : Nat} {rd : Nat} {ra : Nat} {rb : Nat} {s : State} (H : Keeps P 0x7f40557) (h4 : P s) :
    ResAll P (execCrc32c core rd ra rb s) := by
  unfold execCrc32c
  with_reducible repeat' first
    | assumption | intro _ | refine res_next ?_ | refine res_get ‹_ = Host.Outcome.next _› (keeps_crcInstr H ?_)
    | refine keeps_crcInstr H ?_ | split | dsimp only

theorem keeps_execCrc64 {P : State → Prop} {core : Nat} {rd : Nat} {ra : Nat} {rb : Nat} {s : State} (H : Keeps P 0x7f40557) (h4 : P s) :
    ResAll P (execCrc64 core rd ra rb s) := by
  unfold execCrc64
  with_reducible repeat' first
    | assumption | intro _ | refine res_next ?_ | refine res_get ‹_ = Host.Outcome.next _› (keeps_crcInstr H ?_)
    | refine keeps_crcInstr H ?_ | split | dsimp only

theorem keeps_onbMem {P : State → Prop} {n : Nat} {s : State} {uses : Bool} {causes : OnbCore → List Cause} {run : OnbCore → State → State}
    (H : Keeps P 0x7f40557) (h1 : P s) (h4 : ∀ y1 y2, P y2 → P (run y1 y2)) : ResAll P (onbMem n s uses causes run) := by
  unfold onbMem
  with_reducible repeat' first
    | assumption | intro _ | refine h4 _ _ ?_ | refine res_next ?_ | refine res_get ‹_ = Host.Outcome.next _› (keeps_onbRun H ?_ ?_)
    | refine keeps_onbRun H ?_ ?_ | split | dsimp only

theorem keeps_cpDone {P : State → Prop} {s : State} {n : Nat} {rd : Nat} {w : Option LWord} (H : Keeps P 0x200000) (h0 : P s) : P
    (State.cpDone s n rd w) := by
  unfold State.cpDone
  with_reducible repeat' first
    | assumption | intro _ | refine keeps_upCore H ?_ | split | dsimp only

theorem keeps_execWalk {P : State → Prop} {core : Nat} {rd : Nat} {ra : Nat} {rb : Nat} {s : State} (H : Keeps P 0x7f40557) (h4 : P s) :
    ResAll P (execWalk core rd ra rb s) := by
  have H1 : Keeps P 0x200000 := H.mono rfl
  unfold execWalk
  with_reducible repeat' first
    | assumption | intro _ | refine res_next ?_ | refine keeps_cpDone H1 ?_
    | refine res_get ‹_ = Host.Outcome.next _› (keeps_onbMem H ?_ ?_) | refine keeps_onbMem H ?_ ?_ | split | dsimp only

theorem keeps_execCtxRd {P : State → Prop} {core : Nat} {ra : Nat} {rb : Nat} {s : State} (H : Keeps P 0x7f40557) (h3 : P s) : ResAll P
    (execCtxRd core ra rb s) := by
  have H1 : Keeps P 0x400 := H.mono rfl
  have H2 : Keeps P 0x200000 := H.mono rfl
  have H3 : Keeps P 0x4400513 := H.mono rfl
  have H4 : Keeps P 0x2 := H.mono rfl
  unfold execCtxRd
  with_reducible repeat' first
    | assumption | intro _ | refine res_next ?_ | refine keeps_foldl ?_ ?_ | refine keeps_upCtx H1 ?_
    | refine res_get ‹_ = Host.Outcome.next _› (keeps_onbMem H ?_ ?_) | refine keeps_onbMem H ?_ ?_ | refine keeps_upCore H2 ?_
    | refine keeps_ctxUse H3 ?_ | refine keeps_spent H4 ?_ | split | dsimp only

theorem keeps_execCtxWr {P : State → Prop} {core : Nat} {ra : Nat} {rb : Nat} {s : State} (H : Keeps P 0x7f40557) (h3 : P s) : ResAll P
    (execCtxWr core ra rb s) := by
  have H1 : Keeps P 0x400 := H.mono rfl
  have H2 : Keeps P 0x200000 := H.mono rfl
  have H3 : Keeps P 0x4400513 := H.mono rfl
  unfold execCtxWr
  with_reducible repeat' first
    | assumption | intro _ | refine res_next ?_ | refine keeps_upCtx H1 ?_ | refine keeps_cpDone H2 ?_
    | refine res_get ‹_ = Host.Outcome.next _› (keeps_onbMem H ?_ ?_) | refine keeps_onbMem H ?_ ?_ | refine keeps_ctxUse H3 ?_ | split
    | dsimp only

theorem keeps_execCtxPin {P : State → Prop} {core : Nat} {ra : Nat} {s : State} (H : Keeps P 0x7f40557) (h2 : P s) : ResAll P (execCtxPin
    core ra s) := by
  have H1 : Keeps P 0x400 := H.mono rfl
  have H2 : Keeps P 0x200000 := H.mono rfl
  unfold execCtxPin
  with_reducible repeat' first
    | assumption | intro _ | refine res_next ?_ | refine keeps_upCtx H1 ?_ | refine keeps_cpDone H2 ?_
    | refine res_get ‹_ = Host.Outcome.next _› (keeps_onbRun H ?_ ?_) | refine keeps_onbRun H ?_ ?_ | split | dsimp only

theorem keeps_execCtxUnpin {P : State → Prop} {core : Nat} {ra : Nat} {s : State} (H : Keeps P 0x7f40557) (h2 : P s) : ResAll P
    (execCtxUnpin core ra s) := by
  have H1 : Keeps P 0x400 := H.mono rfl
  have H2 : Keeps P 0x200000 := H.mono rfl
  unfold execCtxUnpin
  with_reducible repeat' first
    | assumption | intro _ | refine res_next ?_ | refine keeps_upCtx H1 ?_ | refine keeps_cpDone H2 ?_
    | refine res_get ‹_ = Host.Outcome.next _› (keeps_onbRun H ?_ ?_) | refine keeps_onbRun H ?_ ?_ | split | dsimp only

theorem keeps_execCbRaise {P : State → Prop} {core : Nat} {ra : Nat} {s : State} (H : Keeps P 0x7f40557) (h2 : P s) : ResAll P (execCbRaise
    core ra s) := by
  have H1 : Keeps P 0x400000 := H.mono rfl
  have H2 : Keeps P 0x200000 := H.mono rfl
  have H3 : Keeps P 0x4400111 := H.mono rfl
  unfold execCbRaise
  with_reducible repeat' first
    | assumption | intro _ | refine res_next ?_ | refine keeps_upCall H1 ?_ | refine keeps_cpDone H2 ?_
    | refine res_get ‹_ = Host.Outcome.next _› (keeps_onbRun H ?_ ?_) | refine keeps_onbRun H ?_ ?_ | refine keeps_raise H3 ?_ | split
    | dsimp only

theorem keeps_execCbPend {P : State → Prop} {core : Nat} {rd : Nat} {s : State} (H : Keeps P 0x7f40557) (h2 : P s) : ResAll P (execCbPend
    core rd s) := by
  have H1 : Keeps P 0x200000 := H.mono rfl
  have H2 : Keeps P 0x400000 := H.mono rfl
  unfold execCbPend
  with_reducible repeat' first
    | assumption | intro _ | refine res_next ?_ | refine keeps_cpDone H1 ?_
    | refine res_get ‹_ = Host.Outcome.next _› (keeps_onbRun H ?_ ?_) | refine keeps_onbRun H ?_ ?_
    | refine eq_snd ‹_ = _› (keeps_take H2 ?_) | refine keeps_take H2 ?_ | split | dsimp only

theorem keeps_execCbDone {P : State → Prop} {core : Nat} {ra : Nat} {s : State} (H : Keeps P 0x7f40557) (h2 : P s) : ResAll P (execCbDone
    core ra s) := by
  have H1 : Keeps P 0x400000 := H.mono rfl
  have H2 : Keeps P 0x200000 := H.mono rfl
  unfold execCbDone
  with_reducible repeat' first
    | assumption | intro _ | refine res_next ?_ | refine keeps_upCall H1 ?_ | refine keeps_cpDone H2 ?_
    | refine res_get ‹_ = Host.Outcome.next _› (keeps_onbRun H ?_ ?_) | refine keeps_onbRun H ?_ ?_ | refine keeps_onbTrap H ?_
    | refine keeps_popStack H1 ?_ | split | dsimp only

theorem keeps_execLtRead {P : State → Prop} {core : Nat} {rd : Nat} {ra : Nat} {s : State} (H : Keeps P 0x7f40557) (h3 : P s) : ResAll P
    (execLtRead core rd ra s) := by
  have H1 : Keeps P 0x200000 := H.mono rfl
  unfold execLtRead
  with_reducible repeat' first
    | assumption | intro _ | refine res_next ?_ | refine keeps_cpDone H1 ?_
    | refine res_get ‹_ = Host.Outcome.next _› (keeps_onbRun H ?_ ?_) | refine keeps_onbRun H ?_ ?_ | split | dsimp only

theorem keeps_execLtAdd {P : State → Prop} {core : Nat} {ra : Nat} {rb : Nat} {s : State} (H : Keeps P 0x7ff0557) (h3 : P s) : ResAll P
    (execLtAdd core ra rb s) := by
  have H1 : Keeps P 0x200000 := H.mono rfl
  have H2 : Keeps P 0x7f40557 := H.mono rfl
  have H3 : Keeps P 0x44b0113 := H.mono rfl
  unfold execLtAdd
  with_reducible repeat' first
    | assumption | intro _ | refine res_next ?_ | refine keeps_cpDone H1 ?_
    | refine res_get ‹_ = Host.Outcome.next _› (keeps_onbRun H2 ?_ ?_) | refine keeps_onbRun H2 ?_ ?_ | refine keeps_latchAdd H3 ?_ | split
    | dsimp only

theorem keeps_execLtThresh {P : State → Prop} {core : Nat} {ra : Nat} {rb : Nat} {s : State} (H : Keeps P 0x7f70557) (h3 : P s) : ResAll P
    (execLtThresh core ra rb s) := by
  have H1 : Keeps P 0x200000 := H.mono rfl
  have H2 : Keeps P 0x7f40557 := H.mono rfl
  have H3 : Keeps P 0x4430113 := H.mono rfl
  unfold execLtThresh
  with_reducible repeat' first
    | assumption | intro _ | refine res_next ?_ | refine keeps_cpDone H1 ?_
    | refine res_get ‹_ = Host.Outcome.next _› (keeps_onbRun H2 ?_ ?_) | refine keeps_onbRun H2 ?_ ?_ | refine keeps_latchThresh H3 ?_
    | split | dsimp only

theorem keeps_dmaFetch {P : State → Prop} {s : State} {d : DmaDesc} {n : Nat} (H : Keeps P 0x4000001) (h0 : P s) : P (State.dmaFetch s d n)
    := by
  have H1 : Keeps P 0x4000000 := H.mono rfl
  unfold State.dmaFetch
  with_reducible repeat' first
    | assumption | intro _ | refine keeps_gRead H1 ?_ | refine keeps_hostRead H ?_ | split | dsimp only

theorem keeps_dmaWrite {P : State → Prop} {s : State} {n : Nat} {d : DmaDesc} {b : Bytes} (H : Keeps P 0x4a00005) (h0 : P s) : P
    (State.dmaWrite s n d b) := by
  have H1 : Keeps P 0x200000 := H.mono rfl
  have H2 : Keeps P 0x4800004 := H.mono rfl
  have H3 : Keeps P 0x4800001 := H.mono rfl
  unfold State.dmaWrite
  with_reducible repeat' first
    | assumption | intro _ | refine keeps_upCore H1 ?_ | refine keeps_gWrite H2 ?_ | refine keeps_hostWrite H3 ?_ | split | dsimp only

theorem keeps_execDmaCopy {P : State → Prop} {core : Nat} {rd : Nat} {ra : Nat} {host : Bytes} {err : Nat} {s : State} (H : Keeps P
    0x7f40557) (h5 : P s) : ResAll P (execDmaCopy core rd ra host err s) := by
  have H1 : Keeps P 0x4a00005 := H.mono rfl
  have H2 : Keeps P 0x4000001 := H.mono rfl
  have H3 : Keeps P 0x200000 := H.mono rfl
  unfold execDmaCopy
  with_reducible repeat' first
    | assumption | intro _ | refine res_next ?_ | refine keeps_dmaWrite H1 ?_ | refine keeps_dmaFetch H2 ?_ | refine keeps_cpDone H3 ?_
    | refine res_get ‹_ = Host.Outcome.next _› (keeps_onbMem H ?_ ?_) | refine keeps_onbMem H ?_ ?_ | refine keeps_onbTrap H ?_ | split
    | dsimp only

theorem keeps_execDmaWin {P : State → Prop} {core : Nat} {rd : Nat} {ra : Nat} {s : State} (H : Keeps P 0x7f40557) (h3 : P s) : ResAll P
    (execDmaWin core rd ra s) := by
  unfold execDmaWin
  with_reducible repeat' first
    | assumption | intro _ | refine res_next ?_ | refine res_get ‹_ = Host.Outcome.next _› (keeps_onbSeq H ?_) | refine keeps_onbSeq H ?_
    | split | dsimp only

theorem keeps_smSend {P : State → Prop} {s : State} {medium : Nat} {type : Nat} {b : Bytes} (H : Keeps P 0x1) (h0 : P s) : P (State.smSend s
    medium type b) := by
  unfold State.smSend
  with_reducible repeat' first
    | assumption | intro _ | refine keeps_emit H ?_ | split | dsimp only

theorem keeps_execMctpControl {P : State → Prop} {medium : Nat} {req : Bytes} {s : State} (H : Keeps P 0x2000003) (h2 : P s) : ResAll P
    (execMctpControl medium req s) := by
  have H1 : Keeps P 0x2000000 := H.mono rfl
  have H2 : Keeps P 0x1 := H.mono rfl
  have H3 : Keeps P 0x2 := H.mono rfl
  unfold execMctpControl
  with_reducible repeat' first
    | assumption | intro _ | refine res_next ?_ | refine keeps_upSm H1 ?_ | refine keeps_smSend H2 ?_ | refine keeps_spent H3 ?_
    | refine res_get ‹_ = Host.Outcome.next _› (keeps_onAlways ?_ ?_) | refine keeps_onAlways ?_ ?_ | split | dsimp only

theorem keeps_pldmRsp {P : State → Prop} {s : State} {medium : Nat} {type : Nat} {req : Bytes} {code : Nat} {b : Bytes} (H : Keeps P 0x1)
    (h0 : P s) : P (State.pldmRsp s medium type req code b) := by
  unfold State.pldmRsp
  with_reducible repeat' first
    | assumption | intro _ | refine keeps_smSend H ?_ | split | dsimp only

theorem keeps_execPldmBase {P : State → Prop} {medium : Nat} {req : Bytes} {s : State} (H : Keeps P 0x2000003) (h2 : P s) : ResAll P
    (execPldmBase medium req s) := by
  have H1 : Keeps P 0x2000000 := H.mono rfl
  have H2 : Keeps P 0x1 := H.mono rfl
  have H3 : Keeps P 0x2 := H.mono rfl
  unfold execPldmBase
  with_reducible repeat' first
    | assumption | intro _ | refine res_next ?_ | refine keeps_upSm H1 ?_ | refine keeps_pldmRsp H2 ?_ | refine keeps_spent H3 ?_
    | refine res_get ‹_ = Host.Outcome.next _› (keeps_onAlways ?_ ?_) | refine keeps_onAlways ?_ ?_ | split | dsimp only

theorem keeps_execPldmPlatform {P : State → Prop} {medium : Nat} {req : Bytes} {s : State} (H : Keeps P 0x3) (h2 : P s) : ResAll P
    (execPldmPlatform medium req s) := by
  have H1 : Keeps P 0x1 := H.mono rfl
  have H2 : Keeps P 0x2 := H.mono rfl
  unfold execPldmPlatform
  with_reducible repeat' first
    | assumption | intro _ | refine res_next ?_ | refine keeps_pldmRsp H1 ?_ | refine keeps_spent H2 ?_
    | refine res_get ‹_ = Host.Outcome.next _› (keeps_onAlways ?_ ?_) | refine keeps_onAlways ?_ ?_ | split | dsimp only

theorem keeps_execPldmFru {P : State → Prop} {medium : Nat} {req : Bytes} {s : State} (H : Keeps P 0x1) (h2 : P s) : ResAll P (execPldmFru
    medium req s) := by
  unfold execPldmFru
  with_reducible repeat' first
    | assumption | intro _ | refine res_next ?_ | refine keeps_pldmRsp H ?_
    | refine res_get ‹_ = Host.Outcome.next _› (keeps_onAlways ?_ ?_) | refine keeps_onAlways ?_ ?_ | split | dsimp only

theorem keeps_execSetEventReceiver {P : State → Prop} {medium : Nat} {eid : Nat} {s : State} (H : Keeps P 0x2000001) (h2 : P s) : ResAll P
    (execSetEventReceiver medium eid s) := by
  have H1 : Keeps P 0x2000000 := H.mono rfl
  have H2 : Keeps P 0x1 := H.mono rfl
  unfold execSetEventReceiver
  with_reducible repeat' first
    | assumption | intro _ | refine res_next ?_ | refine keeps_upSm H1 ?_ | refine keeps_smSend H2 ?_
    | refine res_get ‹_ = Host.Outcome.next _› (keeps_onAlways ?_ ?_) | refine keeps_onAlways ?_ ?_ | split | dsimp only

theorem keeps_execHealthResendTimer {P : State → Prop} {acked : Bool} {s : State} (H : Keeps P 0x2000001) (h1 : P s) : ResAll P
    (execHealthResendTimer acked s) := by
  have H1 : Keeps P 0x2000000 := H.mono rfl
  have H2 : Keeps P 0x1 := H.mono rfl
  unfold execHealthResendTimer
  with_reducible repeat' first
    | assumption | intro _ | refine res_next ?_ | refine keeps_upSm H1 ?_ | refine keeps_emit H2 ?_
    | refine res_get ‹_ = Host.Outcome.next _› (keeps_onAlways ?_ ?_) | refine keeps_onAlways ?_ ?_ | split | dsimp only

theorem keeps_askImage {P : State → Prop} {s : State} {medium : Nat} {size : Nat} {got : Nat} (H : Keeps P 0x1) (h0 : P s) : P
    (State.askImage s medium size got) := by
  unfold State.askImage
  with_reducible repeat' first
    | assumption | intro _ | refine keeps_smSend H ?_ | split | dsimp only

theorem keeps_putFwBank {P : State → Prop} {s : State} {n : Nat} {b : Bytes} (H : Keeps P 0x1000000) (h0 : P s) : P (State.putFwBank s n b)
    := by
  unfold State.putFwBank
  with_reducible repeat' first
    | assumption | intro _ | refine keeps_upFlash H ?_ | split | dsimp only

theorem keeps_takeImage {P : State → Prop} {s : State} {medium : Nat} {size : Nat} {got : Bytes} {data : Bytes} (H : Keeps P 0x3000001) (h0
    : P s) : P (State.takeImage s medium size got data) := by
  have H1 : Keeps P 0x2000000 := H.mono rfl
  have H2 : Keeps P 0x1000000 := H.mono rfl
  have H3 : Keeps P 0x1 := H.mono rfl
  unfold State.takeImage
  with_reducible repeat' first
    | assumption | intro _ | refine keeps_upSm H1 ?_ | refine keeps_putFwBank H2 ?_ | refine keeps_askImage H3 ?_
    | refine keeps_smSend H3 ?_ | split | dsimp only

theorem keeps_execPldmFirmwareUpdate {P : State → Prop} {medium : Nat} {sess : Nat} {req : Bytes} {s : State} (H : Keeps P 0x3000003) (h3 :
    P s) : ResAll P (execPldmFirmwareUpdate medium sess req s) := by
  have H1 : Keeps P 0x2000000 := H.mono rfl
  have H2 : Keeps P 0x3000001 := H.mono rfl
  have H3 : Keeps P 0x1000000 := H.mono rfl
  have H4 : Keeps P 0x1 := H.mono rfl
  have H5 : Keeps P 0x2 := H.mono rfl
  unfold execPldmFirmwareUpdate
  with_reducible repeat' first
    | assumption | intro _ | refine res_next ?_ | refine keeps_upSm H1 ?_ | refine keeps_takeImage H2 ?_ | refine keeps_putFwBank H3 ?_
    | refine keeps_askImage H4 ?_ | refine keeps_pldmRsp H4 ?_ | refine keeps_spent H5 ?_
    | refine res_get ‹_ = Host.Outcome.next _› (keeps_onAlways ?_ ?_) | refine keeps_onAlways ?_ ?_ | split | dsimp only

theorem keeps_execActivateFirmware {P : State → Prop} {medium : Nat} {sess : Nat} {req : Bytes} {s : State} (H : Keeps P 0x2000001) (h3 : P
    s) : ResAll P (execActivateFirmware medium sess req s) := by
  have H1 : Keeps P 0x2000000 := H.mono rfl
  have H2 : Keeps P 0x1 := H.mono rfl
  unfold execActivateFirmware
  with_reducible repeat' first
    | assumption | intro _ | refine res_next ?_ | refine keeps_upSm H1 ?_ | refine keeps_pldmRsp H2 ?_
    | refine res_get ‹_ = Host.Outcome.next _› (keeps_onAlways ?_ ?_) | refine keeps_onAlways ?_ ?_ | split | dsimp only

theorem keeps_smFailed {P : State → Prop} {s : State} {n : Nat} (H : Keeps P 0x7c40113) (h0 : P s) : P (State.smFailed s n) := by
  have H1 : Keeps P 0x2000000 := H.mono rfl
  unfold State.smFailed
  with_reducible repeat' first
    | assumption | intro _ | refine keeps_upSm H1 ?_ | refine keeps_record H ?_ | split | dsimp only

theorem keeps_smSensor {P : State → Prop} {s : State} {n : Nat} (H : Keeps P 0x7c40113) (h0 : P s) : P (State.smSensor s n) := by
  have H1 : Keeps P 0x2000000 := H.mono rfl
  unfold State.smSensor
  with_reducible repeat' first
    | assumption | intro _ | refine keeps_upSm H1 ?_ | refine keeps_record H ?_ | split | dsimp only

theorem keeps_smTakes {P : State → Prop} {s : State} {n : Nat} (H : Keeps P 0x7c40113) (h0 : P s) : P (State.smTakes s n) := by
  unfold State.smTakes
  with_reducible repeat' first
    | assumption | intro _ | refine keeps_smSensor H ?_ | refine keeps_smFailed H ?_ | split | dsimp only

theorem keeps_thermalTrip {P : State → Prop} {s : State} {n : Nat} (H : Keeps P 0x1fc40113) (h0 : P s) : P (State.thermalTrip s n) := by
  have H1 : Keeps P 0x8000000 := H.mono rfl
  have H2 : Keeps P 0x10 := H.mono rfl
  have H3 : Keeps P 0x7c40113 := H.mono rfl
  have H4 : Keeps P 0x10000010 := H.mono rfl
  unfold State.thermalTrip
  with_reducible repeat' first
    | assumption | intro _ | refine keeps_upPwr H1 ?_ | refine keeps_upAon H2 ?_ | refine keeps_record H3 ?_ | refine keeps_railsOff H4 ?_
    | split | dsimp only

theorem keeps_undeclare {P : State → Prop} {s : State} (H : Keeps P 0x7c40113) (h0 : P s) : P (State.undeclare s) := by
  have H1 : Keeps P 0x2000000 := H.mono rfl
  unfold State.undeclare
  with_reducible repeat' first
    | assumption | intro _ | refine keeps_upSm H1 ?_ | refine keeps_record H ?_ | split | dsimp only

theorem keeps_causeEnd {P : State → Prop} {s : State} {f : Pwr → Pwr} (H : Keeps P 0xfc47557) (h0 : P s) : P (State.causeEnd s f) := by
  have H1 : Keeps P 0x8000000 := H.mono rfl
  have H2 : Keeps P 0x7c40113 := H.mono rfl
  have H3 : Keeps P 0x7c47557 := H.mono rfl
  unfold State.causeEnd
  with_reducible repeat' first
    | assumption | intro _ | refine keeps_upPwr H1 ?_ | refine keeps_undeclare H2 ?_ | refine keeps_iftCheck H3 ?_ | split | dsimp only

theorem keeps_judgeTemp {P : State → Prop} {s : State} (H : Keeps P 0xfc47557) (h0 : P s) : P (State.judgeTemp s) := by
  unfold State.judgeTemp
  with_reducible repeat' first
    | assumption | intro _ | refine keeps_causeEnd H ?_ | refine keeps_causeBegin H ?_ | split | dsimp only

theorem keeps_thermRuns {P : State → Prop} {s : State} (H : Keeps P 0x8000000) (h0 : P s) : P (State.thermRuns s) := by
  unfold State.thermRuns
  with_reducible repeat' first
    | assumption | intro _ | refine keeps_upPwr H ?_ | split | dsimp only

theorem keeps_judgeVolt {P : State → Prop} {s : State} (H : Keeps P 0xfc47557) (h0 : P s) : P (State.judgeVolt s) := by
  unfold State.judgeVolt
  with_reducible repeat' first
    | assumption | intro _ | refine keeps_causeEnd H ?_ | refine keeps_causeBegin H ?_ | split | dsimp only

theorem keeps_judgePower {P : State → Prop} {s : State} (H : Keeps P 0xfc47557) (h0 : P s) : P (State.judgePower s) := by
  unfold State.judgePower
  with_reducible repeat' first
    | assumption | intro _ | refine keeps_causeEnd H ?_ | refine keeps_causeBegin H ?_ | split | dsimp only

theorem keeps_showMean {P : State → Prop} {s : State} (H : Keeps P 0x8000000) (h0 : P s) : P (State.showMean s) := by
  unfold State.showMean
  with_reducible repeat' first
    | assumption | intro _ | refine keeps_upPwr H ?_ | split | dsimp only

theorem keeps_powerSample {P : State → Prop} {s : State} (H : Keeps P 0xfc47557) (h0 : P s) : P (State.powerSample s) := by
  have H1 : Keeps P 0x8000000 := H.mono rfl
  unfold State.powerSample
  with_reducible repeat' first
    | assumption | intro _ | refine keeps_upPwr H1 ?_ | refine keeps_showMean H1 ?_ | refine keeps_judgePower H ?_ | split | dsimp only

theorem keeps_hwSample {P : State → Prop} {s : State} {n : Nat} {v : Int} (H : Keeps P 0x1fc47557) (h0 : P s) : P (State.hwSample s n v) :=
    by
  have H1 : Keeps P 0x2000000 := H.mono rfl
  have H2 : Keeps P 0xfc47557 := H.mono rfl
  have H3 : Keeps P 0x8000000 := H.mono rfl
  have H4 : Keeps P 0x1fc40113 := H.mono rfl
  unfold State.hwSample
  with_reducible repeat' first
    | assumption | intro _ | refine keeps_upSm H1 ?_ | refine keeps_powerSample H2 ?_ | refine keeps_judgeVolt H2 ?_
    | refine keeps_thermRuns H3 ?_ | refine keeps_judgeTemp H2 ?_ | refine keeps_thermalTrip H4 ?_ | split | dsimp only

theorem keeps_hwFail {P : State → Prop} {s : State} {n : Nat} (H : Keeps P 0xfc47557) (h0 : P s) : P (State.hwFail s n) := by
  have H1 : Keeps P 0x2000000 := H.mono rfl
  have H2 : Keeps P 0x8000000 := H.mono rfl
  unfold State.hwFail
  with_reducible repeat' first
    | assumption | intro _ | refine keeps_upSm H1 ?_ | refine keeps_judgeVolt H ?_ | refine keeps_thermRuns H2 ?_
    | refine keeps_judgeTemp H ?_ | split | dsimp only

theorem keeps_execSensorSample {P : State → Prop} {index : Nat} {r : Reading} {s : State} (H : Keeps P 0x1fc47557) (h2 : P s) : ResAll P
    (execSensorSample index r s) := by
  have H1 : Keeps P 0xfc47557 := H.mono rfl
  have H2 : Keeps P 0x7c40113 := H.mono rfl
  unfold execSensorSample
  with_reducible repeat' first
    | assumption | intro _ | refine res_next ?_ | refine keeps_hwFail H1 ?_ | refine keeps_hwSample H ?_ | refine keeps_smTakes H2 ?_
    | refine res_get ‹_ = Host.Outcome.next _› (keeps_onAlways ?_ ?_) | refine keeps_onAlways ?_ ?_ | split | dsimp only

theorem keeps_execPowerControlTick {P : State → Prop} {s : State} (H : Keeps P 0xfc47557) (h0 : P s) : ResAll P (execPowerControlTick s) :=
    by
  have H1 : Keeps P 0x8000000 := H.mono rfl
  have H2 : Keeps P 0x7c47557 := H.mono rfl
  unfold execPowerControlTick
  with_reducible repeat' first
    | assumption | intro _ | refine res_next ?_ | refine keeps_upPwr H1 ?_ | refine keeps_showMean H1 ?_ | refine keeps_setStep H1 ?_
    | refine keeps_iftCheck H2 ?_ | refine res_get ‹_ = Host.Outcome.next _› (keeps_onAlways ?_ ?_) | refine keeps_onAlways ?_ ?_ | split
    | dsimp only

theorem keeps_execThermalCapStep {P : State → Prop} {s : State} (H : Keeps P 0xfc47557) (h0 : P s) : ResAll P (execThermalCapStep s) := by
  have H1 : Keeps P 0x8000000 := H.mono rfl
  have H2 : Keeps P 0x7c47557 := H.mono rfl
  unfold execThermalCapStep
  with_reducible repeat' first
    | assumption | intro _ | refine res_next ?_ | refine keeps_upPwr H1 ?_ | refine keeps_iftCheck H2 ?_
    | refine res_get ‹_ = Host.Outcome.next _› (keeps_onAlways ?_ ?_) | refine keeps_onAlways ?_ ?_ | split | dsimp only

theorem keeps_execEprNLow {P : State → Prop} {s : State} (H : Keeps P 0xfc47557) (h0 : P s) : ResAll P (execEprNLow s) := by
  have H1 : Keeps P 0x8000000 := H.mono rfl
  have H2 : Keeps P 0x10 := H.mono rfl
  unfold execEprNLow
  with_reducible repeat' first
    | assumption | intro _ | refine res_next ?_ | refine keeps_upPwr H1 ?_ | refine keeps_upAon H2 ?_ | refine keeps_eprCheck H ?_
    | refine res_get ‹_ = Host.Outcome.next _› (keeps_onAlways ?_ ?_) | refine keeps_onAlways ?_ ?_ | split | dsimp only

theorem keeps_execEprNHigh {P : State → Prop} {s : State} (H : Keeps P 0x8000010) (h0 : P s) : ResAll P (execEprNHigh s) := by
  have H1 : Keeps P 0x8000000 := H.mono rfl
  have H2 : Keeps P 0x10 := H.mono rfl
  unfold execEprNHigh
  with_reducible repeat' first
    | assumption | intro _ | refine res_next ?_ | refine keeps_upPwr H1 ?_ | refine keeps_upAon H2 ?_
    | refine res_get ‹_ = Host.Outcome.next _› (keeps_onAlways ?_ ?_) | refine keeps_onAlways ?_ ?_ | split | dsimp only

theorem keeps_execEprHoldExpiry {P : State → Prop} {s : State} (H : Keeps P 0xfc47557) (h0 : P s) : ResAll P (execEprHoldExpiry s) := by
  unfold execEprHoldExpiry
  with_reducible repeat' first
    | assumption | intro _ | refine res_next ?_ | refine keeps_causeEnd H ?_
    | refine res_get ‹_ = Host.Outcome.next _› (keeps_onAlways ?_ ?_) | refine keeps_onAlways ?_ ?_ | split | dsimp only

theorem keeps_fwdDone {P : State → Prop} {s : State} {id : Nat} (H : Keeps P 0x4400513) (h0 : P s) : P (State.fwdDone s id) := by
  have H1 : Keeps P 0x100 := H.mono rfl
  unfold State.fwdDone
  with_reducible repeat' first
    | assumption | intro _ | refine keeps_fwdKick H ?_ | refine keeps_upMember H1 ?_ | split | dsimp only

theorem keeps_traceRecordLost {P : State → Prop} {s : State} {i : Nat} (H : Keeps P 0x4000000) (h0 : P s) : P (State.traceRecordLost s i) :=
    by
  unfold State.traceRecordLost
  with_reducible repeat' first
    | assumption | intro _ | refine keeps_upObs H ?_ | refine keeps_ao H ?_ | split | dsimp only

theorem keeps_detected {P : State → Prop} {s : State} {n : Nat} {cause : ErrCause} {op : Nat} {detail : Nat} {addr : Nat} (H : Keeps P
    0x7fffff7) (h0 : P s) : P (State.detected s n cause op detail addr) := by
  have H1 : Keeps P 0x40000 := H.mono rfl
  have H2 : Keeps P 0x4440111 := H.mono rfl
  have H3 : Keeps P 0x4480111 := H.mono rfl
  have H4 : Keeps P 0x7c40113 := H.mono rfl
  have H5 : Keeps P 0x4000000 := H.mono rfl
  unfold State.detected
  with_reducible repeat' first
    | assumption | intro _ | refine keeps_upRas H1 ?_ | refine keeps_fenceUnit H ?_ | refine keeps_upRasUnit H1 ?_
    | refine keeps_rasFlag H2 ?_ | refine keeps_ckpWarn H3 ?_ | refine keeps_record H4 ?_ | refine keeps_ao H5 ?_ | split | dsimp only

theorem keeps_takeCharge {P : State → Prop} {s : State} {n : Nat} (H : Keeps P 0x7fffff7) (h0 : P s) : P (State.takeCharge s n) := by
  have H1 : Keeps P 0x40000 := H.mono rfl
  unfold State.takeCharge
  with_reducible repeat' first
    | assumption | intro _ | refine keeps_upRas H1 ?_ | refine keeps_detected H ?_ | split | dsimp only

theorem keeps_takeCharges {P : State → Prop} {s : State} {n : Nat} (H : Keeps P 0x7fffff7) (h0 : P s) : P (State.takeCharges s n) := by
  unfold State.takeCharges
  with_reducible repeat' first
    | assumption | intro _ | refine keeps_foldl ?_ ?_ | refine keeps_takeCharge H ?_ | split | dsimp only

theorem keeps_shuStruck {P : State → Prop} {s : State} {k : Nat} {n : Nat} (H : Keeps P 0x1000) (h0 : P s) : P (State.shuStruck s k n) := by
  unfold State.shuStruck
  with_reducible repeat' first
    | assumption | intro _ | refine keeps_shuMove H ?_ | split | dsimp only

theorem keeps_memoryHit {P : State → Prop} {s : State} {n : Nat} {op : Nat} {detail : Nat} (H : Keeps P 0x7f47fd7) (h0 : P s) : P
    (State.memoryHit s n op detail) := by
  have H1 : Keeps P 0x1000 := H.mono rfl
  have H2 : Keeps P 0x700000 := H.mono rfl
  have H3 : Keeps P 0x7c40fd7 := H.mono rfl
  have H4 : Keeps P 0x4006000 := H.mono rfl
  have H5 : Keeps P 0x2000 := H.mono rfl
  have H6 : Keeps P 0x7c47557 := H.mono rfl
  have H7 : Keeps P 0x4406111 := H.mono rfl
  have H8 : Keeps P 0x4802041 := H.mono rfl
  unfold State.memoryHit
  with_reducible repeat' first
    | assumption | intro _ | refine keeps_shuStruck H1 ?_ | refine keeps_handStops H2 ?_ | refine keeps_laneMoved H3 ?_
    | refine eq_snd ‹_ = _› (keeps_tapAbandon H4 ?_) | refine keeps_tapAbandon H4 ?_ | refine keeps_tapLeaves H5 ?_
    | refine keeps_tapKick H6 ?_ | refine keeps_repartition H7 ?_ | refine keeps_tapFill H8 ?_ | split | dsimp only

theorem keeps_execDetectedError {P : State → Prop} {unit : Nat} {cause : ErrCause} {op : Nat} {detail : Nat} {s : State} (H : Keeps P
    0x7fffff7) (h4 : P s) : ResAll P (execDetectedError unit cause op detail s) := by
  have H1 : Keeps P 0x7f47fd7 := H.mono rfl
  have H2 : Keeps P 0x4000000 := H.mono rfl
  have H3 : Keeps P 0x7c47557 := H.mono rfl
  unfold execDetectedError
  with_reducible repeat' first
    | assumption | intro _ | refine res_next ?_ | refine keeps_memoryHit H1 ?_ | refine keeps_takeCharges H ?_
    | refine keeps_takeCharge H ?_ | refine keeps_detected H ?_ | refine keeps_traceRecordLost H2 ?_
    | refine res_get ‹_ = Host.Outcome.next _› (keeps_onMainIf ?_ ?_) | refine keeps_onMainIf ?_ ?_ | refine keeps_iftCheck H3 ?_ | split
    | dsimp only

theorem keeps_corrected {P : State → Prop} {s : State} {unit : Nat} {count : Nat} (H : Keeps P 0x40000) (h0 : P s) : P (State.corrected s
    unit count) := by
  unfold State.corrected
  with_reducible repeat' first
    | assumption | intro _ | refine keeps_foldl ?_ ?_ | refine keeps_upRasUnit H ?_ | refine keeps_charge H ?_ | split | dsimp only

theorem keeps_execCorrectedError {P : State → Prop} {unit : Nat} {count : Nat} {byRetry : Bool} {s : State} (H : Keeps P 0x40000) (h3 : P s)
    : ResAll P (execCorrectedError unit count byRetry s) := by
  unfold execCorrectedError
  with_reducible repeat' first
    | assumption | intro _ | refine res_next ?_ | refine keeps_upRas H ?_ | refine keeps_corrected H ?_
    | refine res_get ‹_ = Host.Outcome.next _› (keeps_onMainIf ?_ ?_) | refine keeps_onMainIf ?_ ?_ | split | dsimp only

theorem keeps_execMeshDegraded {P : State → Prop} {link : MeshLink} {s : State} (H : Keeps P 0x7c40113) (h1 : P s) : ResAll P
    (execMeshDegraded link s) := by
  unfold execMeshDegraded
  with_reducible repeat' first
    | assumption | intro _ | refine res_next ?_ | refine res_get ‹_ = Host.Outcome.next _› (keeps_onMainIf ?_ ?_)
    | refine keeps_onMainIf ?_ ?_ | refine keeps_record H ?_ | split | dsimp only

theorem keeps_execPatrolScrub {P : State → Prop} {channel : Nat} {corrected : Nat} {s : State} (H : Keeps P 0x4040000) (h2 : P s) : ResAll P
    (execPatrolScrub channel corrected s) := by
  have H1 : Keeps P 0x40000 := H.mono rfl
  have H2 : Keeps P 0x4000000 := H.mono rfl
  unfold execPatrolScrub
  with_reducible repeat' first
    | assumption | intro _ | refine res_next ?_ | refine keeps_upRas H1 ?_ | refine keeps_corrected H1 ?_ | refine keeps_gRead H2 ?_
    | refine res_get ‹_ = Host.Outcome.next _› (keeps_onMainIf ?_ ?_) | refine keeps_onMainIf ?_ ?_ | refine keeps_ao H2 ?_ | split
    | dsimp only

theorem keeps_interLost {P : State → Prop} {s : State} {scope : Nat} (H : Keeps P 0x7c4ff57) (h0 : P s) : P (State.interLost s scope) := by
  have H1 : Keeps P 0x40 := H.mono rfl
  have H2 : Keeps P 0x6c00553 := H.mono rfl
  have H3 : Keeps P 0x4400111 := H.mono rfl
  unfold State.interLost
  with_reducible repeat' first
    | assumption | intro _ | refine keeps_goOn H ?_ ?_ | refine keeps_abandonInter H1 ?_ | refine keeps_finishAll H2 ?_
    | refine keeps_note H3 ?_ | split | dsimp only

theorem keeps_lineLost {P : State → Prop} {s : State} {o : BurstObj} {both : Bool} (H : Keeps P 0x7d42fd7) (h0 : P s) : P (State.lineLost s
    o both) := by
  have H1 : Keeps P 0x2000 := H.mono rfl
  have H2 : Keeps P 0x100000 := H.mono rfl
  have H3 : Keeps P 0x800 := H.mono rfl
  have H4 : Keeps P 0x40 := H.mono rfl
  have H5 : Keeps P 0x80 := H.mono rfl
  have H6 : Keeps P 0x7c40fd7 := H.mono rfl
  have H7 : Keeps P 0x4c00191 := H.mono rfl
  have H8 : Keeps P 0x6c00553 := H.mono rfl
  have H9 : Keeps P 0x7c40113 := H.mono rfl
  unfold State.lineLost
  with_reducible repeat' first
    | assumption | intro _ | refine keeps_foldl ?_ ?_ | refine keeps_upTap H1 ?_ | refine keeps_upStg H2 ?_ | refine keeps_upCip H3 ?_
    | refine keeps_upCmd H4 ?_ | refine keeps_upSto H5 ?_ | refine keeps_sealStop H6 ?_ | refine keeps_writesEnd H7 ?_
    | refine keeps_upNs H5 ?_ | refine keeps_finishAll H8 ?_ | refine keeps_reply H8 ?_ | refine keeps_record H9 ?_ | split | dsimp only

theorem keeps_objectLost {P : State → Prop} {s : State} {o : BurstObj} {both : Bool} (H : Keeps P 0x7d5fff7) (h0 : P s) : P
    (State.objectLost s o both) := by
  have H1 : Keeps P 0x7d42fd7 := H.mono rfl
  have H2 : Keeps P 0x7c4ff57 := H.mono rfl
  have H3 : Keeps P 0x7c597f7 := H.mono rfl
  unfold State.objectLost
  with_reducible repeat' first
    | assumption | intro _ | refine keeps_lineLost H1 ?_ | refine keeps_interLost H2 ?_ | refine keeps_ctxLost H3 ?_ | split | dsimp only

theorem keeps_execUncorrectableBurst {P : State → Prop} {addr : Nat} {channel : Nat} {link : Bool} {both : Bool} {obj : BurstObj} {s :
    State} (H : Keeps P 0x7dffff7) (h5 : P s) : ResAll P (execUncorrectableBurst addr channel link both obj s) := by
  have H1 : Keeps P 0x40000 := H.mono rfl
  have H2 : Keeps P 0x7d5fff7 := H.mono rfl
  have H3 : Keeps P 0x7cff5f7 := H.mono rfl
  unfold execUncorrectableBurst
  with_reducible repeat' first
    | assumption | intro _ | refine res_next ?_ | refine keeps_upRas H1 ?_ | refine keeps_objectLost H2 ?_ | refine keeps_partReset H3 ?_
    | refine res_get ‹_ = Host.Outcome.next _› (keeps_onMainIf ?_ ?_) | refine keeps_onMainIf ?_ ?_ | refine keeps_charge H1 ?_ | split
    | dsimp only

theorem keeps_partBack {P : State → Prop} {s : State} {p : Partn} (H : Keeps P 0x7c4fdd7) (h0 : P s) : P (State.partBack s p) := by
  have H1 : Keeps P 0x81 := H.mono rfl
  have H2 : Keeps P 0x4c08115 := H.mono rfl
  have H3 : Keeps P 0x6c00dd3 := H.mono rfl
  have H4 : Keeps P 0x7c47557 := H.mono rfl
  have H5 : Keeps P 0x4802041 := H.mono rfl
  unfold State.partBack
  with_reducible repeat' first
    | assumption | intro _ | refine keeps_foldl ?_ ?_ | refine keeps_stoRefresh H1 ?_ | refine keeps_weaveJob H2 ?_
    | refine keeps_stoSettle H3 ?_ | refine keeps_tapKick H4 ?_ | refine keeps_tapFill H5 ?_ | split | dsimp only

theorem keeps_execPartitionResetEnd {P : State → Prop} {part : Nat} {bad : List Nat} {s : State} (H : Keeps P 0x7c4fdd7) (h2 : P s) : ResAll
    P (execPartitionResetEnd part bad s) := by
  have H1 : Keeps P 0x40000 := H.mono rfl
  unfold execPartitionResetEnd
  with_reducible repeat' first
    | assumption | intro _ | refine res_next ?_ | refine keeps_foldl ?_ ?_ | refine keeps_upRas H1 ?_ | refine keeps_partBack H ?_
    | refine res_get ‹_ = Host.Outcome.next _› (keeps_onMain ?_ ?_) | refine keeps_onMain ?_ ?_ | refine keeps_charge H1 ?_ | split
    | dsimp only

theorem keeps_useGoes {P : State → Prop} {s : State} {u : HeldUse} (H : Keeps P 0x7cf85ff) (h0 : P s) : P (State.useGoes s u) := by
  have H1 : Keeps P 0x6c185f3 := H.mono rfl
  have H2 : Keeps P 0x7cf85f7 := H.mono rfl
  have H3 : Keeps P 0x484000d := H.mono rfl
  unfold State.useGoes
  with_reducible repeat' first
    | assumption | intro _ | refine keeps_packetReadResponse H1 ?_ | refine keeps_packetReadRequest H2 ?_ | refine keeps_packetWrite H2 ?_
    | refine keeps_bar2Do H3 ?_ | split | dsimp only

theorem keeps_execChannelRemoved {P : State → Prop} {s : State} (H : Keeps P 0x7cffdff) (h0 : P s) : ResAll P (execChannelRemoved s) := by
  have H1 : Keeps P 0x40000 := H.mono rfl
  have H2 : Keeps P 0x100 := H.mono rfl
  have H3 : Keeps P 0x7cf85ff := H.mono rfl
  have H4 : Keeps P 0x7c4fdd7 := H.mono rfl
  have H5 : Keeps P 0x4400513 := H.mono rfl
  have H6 : Keeps P 0x7c40113 := H.mono rfl
  unfold execChannelRemoved
  with_reducible repeat' first
    | assumption | intro _ | refine res_next ?_ | refine keeps_foldl ?_ ?_ | refine keeps_foldl_fst ?_ ?_ | refine keeps_foldl_snd ?_ ?_
    | refine keeps_upRas H1 ?_ | refine keeps_upNet H2 ?_ | refine keeps_useGoes H3 ?_ | refine keeps_partBack H4 ?_
    | refine keeps_qpsKick H5 ?_ | refine res_get ‹_ = Host.Outcome.next _› (keeps_onMain ?_ ?_) | refine keeps_onMain ?_ ?_
    | refine keeps_record H6 ?_ | split | dsimp only

theorem keeps_execRecordCoalesceExpiry {P : State → Prop} {unit : Nat} {code : Nat} {op : Nat} {s : State} (H : Keeps P 0x7c40111) (h3 : P
    s) : ResAll P (execRecordCoalesceExpiry unit code op s) := by
  unfold execRecordCoalesceExpiry
  with_reducible repeat' first
    | assumption | intro _ | refine res_next ?_ | refine keeps_endCoal H ?_
    | refine res_get ‹_ = Host.Outcome.next _› (keeps_onAlways ?_ ?_) | refine keeps_onAlways ?_ ?_ | split | dsimp only

theorem keeps_execIftDue {P : State → Prop} {core : Nat} {s : State} (H : Keeps P 0x4c46151) (h1 : P s) : ResAll P (execIftDue core s) := by
  have H1 : Keeps P 0x40000 := H.mono rfl
  unfold execIftDue
  with_reducible repeat' first
    | assumption | intro _ | refine res_next ?_ | refine keeps_upRas H1 ?_
    | refine res_get ‹_ = Host.Outcome.next _› (keeps_onMainIf ?_ ?_) | refine keeps_onMainIf ?_ ?_ | refine keeps_iftStart H ?_ | split
    | dsimp only

theorem keeps_execIftComplete {P : State → Prop} {core : Nat} {passed : Bool} {pattern : Nat} {s : State} (H : Keeps P 0x4442111) (h3 : P s)
    : ResAll P (execIftComplete core passed pattern s) := by
  have H1 : Keeps P 0x40000 := H.mono rfl
  have H2 : Keeps P 0x4440111 := H.mono rfl
  have H3 : Keeps P 0x42000 := H.mono rfl
  unfold execIftComplete
  with_reducible repeat' first
    | assumption | intro _ | refine res_next ?_ | refine keeps_upRas H1 ?_ | refine keeps_rasFlag H2 ?_
    | refine res_get ‹_ = Host.Outcome.next _› (keeps_onMainIf ?_ ?_) | refine keeps_onMainIf ?_ ?_ | refine keeps_applyHeld H3 ?_
    | refine keeps_charge H1 ?_ | split | dsimp only

theorem keeps_execCoreJoin {P : State → Prop} {core : Nat} {s : State} (H : Keeps P 0x7c47557) (h1 : P s) : ResAll P (execCoreJoin core s)
    := by
  have H1 : Keeps P 0x40000 := H.mono rfl
  have H2 : Keeps P 0x4000000 := H.mono rfl
  unfold execCoreJoin
  with_reducible repeat' first
    | assumption | intro _ | refine res_next ?_ | refine keeps_upRas H1 ?_ | refine keeps_gRead H2 ?_
    | refine res_get ‹_ = Host.Outcome.next _› (keeps_onMainIf ?_ ?_) | refine keeps_onMainIf ?_ ?_ | refine keeps_iftCheck H ?_
    | refine keeps_tapJoins H ?_ | split | dsimp only

theorem keeps_bar4Read {P : State → Prop} {s : State} {a : Access} (H : Keeps P 0x4000001) (h0 : P s) : P (State.bar4Read s a) := by
  have H1 : Keeps P 0x1 := H.mono rfl
  have H2 : Keeps P 0x4000000 := H.mono rfl
  unfold State.bar4Read
  with_reducible repeat' first
    | assumption | intro _ | refine keeps_emit H1 ?_ | refine keeps_ao H2 ?_ | split | dsimp only

theorem keeps_barAccess {P : State → Prop} {a : Access} {s : State} {f : State → State} (H : Keeps P 0x4800001) (h1 : P s) (h2 : ∀ y1, P y1
    → P (f y1)) : ResAll P (barAccess a s f) := by
  have H1 : Keeps P 0x1 := H.mono rfl
  unfold barAccess
  with_reducible repeat' first
    | assumption | intro _ | refine h2 _ ?_ | refine res_next ?_ | refine res_get ‹_ = Host.Outcome.next _› (keeps_barWrite H ?_ ?_)
    | refine keeps_barWrite H ?_ ?_ | refine keeps_emit H1 ?_ | split | dsimp only

theorem keeps_orSame {P : State → Prop} {f : Option (State → Nat → State)} {s : State} {v : Nat} (h0 : OptAll (fun g => ∀ s n, P s → P (g s
    n)) f) (h1 : P s) : P (orSame f s v) := by
  unfold orSame
  with_reducible repeat' first
    | assumption | intro _ | exact h0.get _ rfl _ _ h1 | split | dsimp only

theorem keeps_regWrite {P : State → Prop} {s : State} {a : Access} {r : Reg} (H : Keeps P 0x40008) (h0 : P s) (h2 : RegAll P r) : P
    (State.regWrite s a r) := by
  unfold State.regWrite
  with_reducible repeat' first
    | assumption | intro _ | exact h2.put | exact h2.hi | refine keeps_orSame ?_ ?_ | refine keeps_write64 H ?_ ?_ | split | dsimp only

theorem keeps_latchWord {P : State → Prop} {s : State} {fn : Nat} {off : Nat} {v : Option Nat} (H : Keeps P 0x8) (h0 : P s) : P
    (State.latchWord s fn off v) := by
  unfold State.latchWord
  with_reducible repeat' first
    | assumption | intro _ | refine keeps_upGlb H ?_ | split | dsimp only

theorem keeps_regRead {P : State → Prop} {s : State} {a : Access} {r : Reg} (H : Keeps P 0x400000b) (h0 : P s) (h2 : RegAll P r) : P
    (State.regRead s a r) := by
  have H1 : Keeps P 0x8 := H.mono rfl
  have H2 : Keeps P 0x1 := H.mono rfl
  have H3 : Keeps P 0x4000000 := H.mono rfl
  have H4 : Keeps P 0x2 := H.mono rfl
  unfold State.regRead
  with_reducible repeat' first
    | assumption | intro _ | exact h2.put | exact h2.hi | refine keeps_latchWord H1 ?_ | refine keeps_emit H2 ?_ | refine keeps_ao H3 ?_
    | refine keeps_spent H4 ?_ | split | dsimp only

theorem keeps_regAccess {P : State → Prop} {s : State} {a : Access} {r : Option Reg} (H : Keeps P 0x404000b) (h0 : P s) (h2 : OptAll (RegAll
    P) r) : P (State.regAccess s a r) := by
  have H1 : Keeps P 0x400000b := H.mono rfl
  have H2 : Keeps P 0x40008 := H.mono rfl
  have H3 : Keeps P 0x40000 := H.mono rfl
  have H4 : Keeps P 0x1 := H.mono rfl
  have H5 : Keeps P 0x4000000 := H.mono rfl
  unfold State.regAccess
  with_reducible repeat' first
    | assumption | intro _ | exact OptAll.get ‹OptAll (RegAll P) (some _)› _ rfl | refine keeps_regRead H1 ?_ ?_
    | refine keeps_regWrite H2 ?_ ?_ | refine keeps_accessError H3 ?_ | refine keeps_emit H4 ?_ | refine keeps_ao H5 ?_ | split
    | dsimp only

theorem keeps_execRegisterWrite {P : State → Prop} {a : Access} {s : State} (H : Keeps P 0x4dfbffb) (h1 : P s) : ResAll P (execRegisterWrite
    a s) := by
  have H1 : Keeps P 0x404000b := H.mono rfl
  have H2 : Keeps P 0x4800001 := H.mono rfl
  have H3 : Keeps P 0x4000001 := H.mono rfl
  have H4 : Keeps P 0x4dfbff9 := H.mono rfl
  unfold execRegisterWrite
  with_reducible repeat' first
    | assumption | intro _ | refine res_next ?_ | exact opt_none | refine opt_some ?_ | refine opt_ite ?_ ?_
    | refine keeps_regAccess H1 ?_ ?_ | refine res_get ‹_ = Host.Outcome.next _› (keeps_barAccess H2 ?_ ?_)
    | refine keeps_barAccess H2 ?_ ?_ | refine keeps_bar4Read H3 ?_ | refine opt_reg ‹_ = some _› (keeps_reg H4 ?_)
    | refine keeps_reg H4 ?_ | split | dsimp only

theorem keeps_latchBell {P : State → Prop} {s : State} {fn : Nat} {off : Nat} {val : Nat} (H : Keeps P 0x800000) (h0 : P s) : P
    (State.latchBell s fn off val) := by
  unfold State.latchBell
  with_reducible repeat' first
    | assumption | intro _ | refine keeps_upHost H ?_ | split | dsimp only

theorem keeps_bell {P : State → Prop} {s : State} {fn : Nat} {off : Nat} {val : Nat} {f : State → State} (H : Keeps P 0x4800001) (h0 : P s)
    (h4 : ∀ y1, P y1 → P (f y1)) : ResAll P (bell s fn off val f) := by
  have H1 : Keeps P 0x800000 := H.mono rfl
  have H2 : Keeps P 0x1 := H.mono rfl
  have H3 : Keeps P 0x4000000 := H.mono rfl
  unfold bell
  with_reducible repeat' first
    | assumption | intro _ | refine h4 _ ?_ | refine res_next ?_ | refine keeps_latchBell H1 ?_ | refine keeps_emit H2 ?_
    | refine keeps_ao H3 ?_ | split | dsimp only

theorem keeps_loadHand {P : State → Prop} {s : State} {n : Nat} (H : Keeps P 0x300000) (h0 : P s) : P (State.loadHand s n) := by
  have H1 : Keeps P 0x100000 := H.mono rfl
  have H2 : Keeps P 0x200000 := H.mono rfl
  unfold State.loadHand
  with_reducible repeat' first
    | assumption | intro _ | refine keeps_upHand H1 ?_ | refine keeps_upCore H2 ?_ | split | dsimp only

theorem keeps_fetchOther {P : State → Prop} {fn : Nat} {qp : Nat} {c : OtherCmd} {s : State} (H : Keeps P 0x6f00557) (h3 : P s) : ResAll P
    (fetchOther fn qp c s) := by
  unfold fetchOther
  with_reducible repeat' first
    | assumption | intro _ | refine res_next ?_ | refine res_get ‹_ = Host.Outcome.next _› (keeps_execOther H ?_)
    | refine keeps_execOther H ?_ | split | dsimp only

theorem keeps_execSqTailWrite {P : State → Prop} {fn : Nat} {qp : Nat} {val : TailWrite} {s : State} (H : Keeps P 0x6f00557) (h3 : P s) :
    ResAll P (execSqTailWrite fn qp val s) := by
  have H1 : Keeps P 0x4800001 := H.mono rfl
  have H2 : Keeps P 0x4400151 := H.mono rfl
  unfold execSqTailWrite
  with_reducible repeat' first
    | assumption | intro _ | refine res_next ?_ | refine res_get ‹_ = Host.Outcome.next _› (keeps_fetchOther H ?_)
    | refine keeps_fetchOther H ?_ | refine res_get ‹_ = Host.Outcome.next _› (keeps_bell H1 ?_ ?_) | refine keeps_bell H1 ?_ ?_
    | refine keeps_sqTail H2 ?_ | split | dsimp only

theorem keeps_execCqHeadWrite {P : State → Prop} {fn : Nat} {qp : Nat} {val : Nat} {s : State} (H : Keeps P 0x4c00151) (h3 : P s) : ResAll P
    (execCqHeadWrite fn qp val s) := by
  have H1 : Keeps P 0x4800001 := H.mono rfl
  have H2 : Keeps P 0x4400151 := H.mono rfl
  unfold execCqHeadWrite
  with_reducible repeat' first
    | assumption | intro _ | refine res_next ?_ | refine res_get ‹_ = Host.Outcome.next _› (keeps_bell H1 ?_ ?_)
    | refine keeps_bell H1 ?_ ?_ | refine keeps_cqHeadTo H2 ?_ | split | dsimp only

theorem keeps_enableCmd {P : State → Prop} {s : State} {fn : Nat} (H : Keeps P 0x4400151) (h0 : P s) : P (State.enableCmd s fn) := by
  have H1 : Keeps P 0x40 := H.mono rfl
  have H2 : Keeps P 0x4400111 := H.mono rfl
  unfold State.enableCmd
  with_reducible repeat' first
    | assumption | intro _ | refine keeps_makeLive H1 ?_ | refine keeps_upFn H1 ?_ | refine keeps_flag H2 ?_ ?_ | split | dsimp only

theorem keeps_execCmdCtrlEnSet {P : State → Prop} {fn : Nat} {s : State} (H : Keeps P 0x4c00151) (h1 : P s) : ResAll P (execCmdCtrlEnSet fn
    s) := by
  have H1 : Keeps P 0x4400151 := H.mono rfl
  have H2 : Keeps P 0x4800001 := H.mono rfl
  unfold execCmdCtrlEnSet
  with_reducible repeat' first
    | assumption | intro _ | refine res_next ?_ | refine keeps_enableCmd H1 ?_
    | refine res_get ‹_ = Host.Outcome.next _› (keeps_barWrite H2 ?_ ?_) | refine keeps_barWrite H2 ?_ ?_ | split | dsimp only

theorem keeps_execLockoutExpiry {P : State → Prop} {fn : Nat} {s : State} (H : Keeps P 0x40) (h1 : P s) : ResAll P (execLockoutExpiry fn s)
    := by
  unfold execLockoutExpiry
  with_reducible repeat' first
    | assumption | intro _ | refine res_next ?_ | refine keeps_upFn H ?_ | split | dsimp only

theorem keeps_execTroupeMemberReply {P : State → Prop} {member : Nat} {entry : Bytes} {s : State} (H : Keeps P 0x6c00557) (h2 : P s) :
    ResAll P (execTroupeMemberReply member entry s) := by
  have H1 : Keeps P 0x100 := H.mono rfl
  have H2 : Keeps P 0x40 := H.mono rfl
  have H3 : Keeps P 0x4400513 := H.mono rfl
  unfold execTroupeMemberReply
  with_reducible repeat' first
    | assumption | intro _ | refine res_next ?_ | refine keeps_upNet H1 ?_ | refine keeps_upCmd H2 ?_ | refine keeps_fwdDone H3 ?_
    | refine res_get ‹_ = Host.Outcome.next _› (keeps_onMain ?_ ?_) | refine keeps_onMain ?_ ?_ | refine keeps_endFanout H ?_
    | refine keeps_upMember H1 ?_ | split | dsimp only

theorem keeps_execTroupeTimeout {P : State → Prop} {fwd : Nat} {s : State} (H : Keeps P 0x6c00557) (h1 : P s) : ResAll P (execTroupeTimeout
    fwd s) := by
  have H1 : Keeps P 0x4400513 := H.mono rfl
  have H2 : Keeps P 0x100 := H.mono rfl
  unfold execTroupeTimeout
  with_reducible repeat' first
    | assumption | intro _ | refine res_next ?_ | refine keeps_foldl ?_ ?_ | refine keeps_fwdDone H1 ?_
    | refine res_get ‹_ = Host.Outcome.next _› (keeps_onMain ?_ ?_) | refine keeps_onMain ?_ ?_ | refine keeps_endFanout H ?_
    | refine keeps_upMember H2 ?_ | split | dsimp only

theorem keeps_shuEvent {P : State → Prop} {s : State} {f : State → State} (H : Keeps P 0x7c47557) (h0 : P s) (h1 : ∀ y1, P y1 → P (f y1)) :
    ResAll P (shuEvent s f) := by
  unfold shuEvent
  with_reducible repeat' first
    | assumption | intro _ | refine h1 _ ?_ | refine res_next ?_ | refine res_get ‹_ = Host.Outcome.next _› (keeps_onMain ?_ ?_)
    | refine keeps_onMain ?_ ?_ | refine keeps_tapKick H ?_ | split | dsimp only

theorem keeps_execStreamInputRead {P : State → Prop} {stream : Nat} {data : Bytes} {ok : Bool} {s : State} (H : Keeps P 0x7c475d7) (h3 : P
    s) : ResAll P (execStreamInputRead stream data ok s) := by
  have H1 : Keeps P 0x7c47557 := H.mono rfl
  have H2 : Keeps P 0x7c41517 := H.mono rfl
  have H3 : Keeps P 0x4800004 := H.mono rfl
  have H4 : Keeps P 0x81 := H.mono rfl
  have H5 : Keeps P 0x80 := H.mono rfl
  have H6 : Keeps P 0x7c43117 := H.mono rfl
  have H7 : Keeps P 0x7c41113 := H.mono rfl
  have H8 : Keeps P 0x1000 := H.mono rfl
  unfold execStreamInputRead
  with_reducible repeat' first
    | assumption | intro _ | refine res_next ?_ | refine res_get ‹_ = Host.Outcome.next _› (keeps_shuEvent H1 ?_ ?_)
    | refine keeps_shuEvent H1 ?_ ?_ | refine keeps_shuEnter H2 ?_ | refine keeps_ringPut H3 ?_
    | refine eq_fst ‹_ = _› (keeps_intRow H4 ?_) | refine keeps_intRow H4 ?_ | refine keeps_intDrop H5 ?_ | refine keeps_shuFinish H6 ?_
    | refine keeps_shuFail H7 ?_ | refine keeps_upStreamX H8 ?_ | split | dsimp only

theorem keeps_shuRap {P : State → Prop} {s : State} {n : Nat} {q : Picture} (H : Keeps P 0x7c43117) (h0 : P s) : P (State.shuRap s n q) :=
    by
  have H1 : Keeps P 0x1000 := H.mono rfl
  unfold State.shuRap
  with_reducible repeat' first
    | assumption | intro _ | refine keeps_shuPlace H1 ?_ | refine keeps_shuFlush H ?_ | refine keeps_upStreamX H1 ?_
    | refine keeps_upStream H1 ?_ | split | dsimp only

theorem keeps_shuWork {P : State → Prop} {s : State} {x : Stream} {q : Picture} (H : Keeps P 0x4401113) (h0 : P s) : P (State.shuWork s x q)
    := by
  have H1 : Keeps P 0x1000 := H.mono rfl
  have H2 : Keeps P 0x4000112 := H.mono rfl
  have H3 : Keeps P 0x4000000 := H.mono rfl
  have H4 : Keeps P 0x4400111 := H.mono rfl
  unfold State.shuWork
  with_reducible repeat' first
    | assumption | intro _ | refine keeps_upShu H1 ?_ | refine keeps_gctr H2 ?_ | refine keeps_fnCtr H3 ?_ | refine keeps_withObs H4 ?_ ?_
    | refine keeps_ao H3 ?_ | split | dsimp only

theorem keeps_shuPicture {P : State → Prop} {s : State} {n : Nat} {q0 : Picture} (H : Keeps P 0x7c43117) (h0 : P s) : P (State.shuPicture s
    n q0) := by
  have H1 : Keeps P 0x4401113 := H.mono rfl
  have H2 : Keeps P 0x4000000 := H.mono rfl
  have H3 : Keeps P 0x7c41113 := H.mono rfl
  have H4 : Keeps P 0x1000 := H.mono rfl
  unfold State.shuPicture
  with_reducible repeat' first
    | assumption | intro _ | refine keeps_shuWork H1 ?_ | refine keeps_shuRap H ?_ | refine keeps_gRead H2 ?_ | refine keeps_shuFinish H ?_
    | refine keeps_shuTurn H ?_ | refine keeps_shuFail H3 ?_ | refine keeps_upStreamX H4 ?_ | refine keeps_upStream H4 ?_ | split
    | dsimp only

theorem keeps_shuRebind {P : State → Prop} {s : State} {n : Nat} (H : Keeps P 0x1000) (h0 : P s) : P (State.shuRebind s n) := by
  unfold State.shuRebind
  with_reducible repeat' first
    | assumption | intro _ | refine keeps_shuPlace H ?_ | refine keeps_shuRewind H ?_ | refine keeps_upStreamX H ?_
    | refine keeps_upStream H ?_ | split | dsimp only

theorem keeps_segFailed {P : State → Prop} {s : State} {n : Nat} {k : Nat} {x : Stream} (H : Keeps P 0x7c41113) (h0 : P s) : P
    (State.segFailed s n k x) := by
  have H1 : Keeps P 0x1000 := H.mono rfl
  have H2 : Keeps P 0x7c40113 := H.mono rfl
  unfold State.segFailed
  with_reducible repeat' first
    | assumption | intro _ | refine keeps_upShu H1 ?_ | refine keeps_shuSettle H1 ?_ | refine keeps_shuFail H ?_
    | refine keeps_upStreamX H1 ?_ | refine keeps_upStream H1 ?_ | refine keeps_record H2 ?_ | split | dsimp only

theorem keeps_execPictureDecoded {P : State → Prop} {stream : Nat} {pic : Picture} {s : State} (H : Keeps P 0x7c47557) (h2 : P s) : ResAll P
    (execPictureDecoded stream pic s) := by
  have H1 : Keeps P 0x7c41113 := H.mono rfl
  have H2 : Keeps P 0x1000 := H.mono rfl
  have H3 : Keeps P 0x7c43117 := H.mono rfl
  unfold execPictureDecoded
  with_reducible repeat' first
    | assumption | intro _ | refine res_next ?_ | refine keeps_segFailed H1 ?_ | refine keeps_shuRebind H2 ?_
    | refine keeps_shuPicture H3 ?_ | refine res_get ‹_ = Host.Outcome.next _› (keeps_shuEvent H ?_ ?_) | refine keeps_shuEvent H ?_ ?_
    | split | dsimp only

theorem keeps_trackKick {P : State → Prop} {s : State} {n : Nat} {i : Nat} (H : Keeps P 0x1000) (h0 : P s) : P (State.trackKick s n i) := by
  unfold State.trackKick
  with_reducible repeat' first
    | assumption | intro _ | exact opt_none | refine opt_some ?_ | refine opt_bindS ?_ ?_ | refine opt_bind ?_ | refine opt_ite ?_ ?_
    | refine keeps_placeTrack H ?_ | split | dsimp only

theorem keeps_execAudioFrameDecoded {P : State → Prop} {stream : Nat} {aud : AudioFrame} {s : State} (H : Keeps P 0x7c47557) (h2 : P s) :
    ResAll P (execAudioFrameDecoded stream aud s) := by
  have H1 : Keeps P 0x1000 := H.mono rfl
  have H2 : Keeps P 0x7c41113 := H.mono rfl
  have H3 : Keeps P 0x7c43117 := H.mono rfl
  have H4 : Keeps P 0x4000000 := H.mono rfl
  unfold execAudioFrameDecoded
  with_reducible repeat' first
    | assumption | intro _ | refine res_next ?_ | refine keeps_foldl ?_ ?_ | refine keeps_trackKick H1 ?_ | refine keeps_segFailed H2 ?_
    | refine keeps_shuRebind H1 ?_ | refine res_get ‹_ = Host.Outcome.next _› (keeps_shuEvent H ?_ ?_) | refine keeps_shuEvent H ?_ ?_
    | refine keeps_shuFinish H3 ?_ | refine keeps_shuPush H3 ?_ | refine keeps_upStreamX H1 ?_ | refine keeps_upStream H1 ?_
    | refine keeps_fnCtr H4 ?_ | refine keeps_ao H4 ?_ | split | dsimp only

theorem keeps_execCaptionChange {P : State → Prop} {stream : Nat} {cap : Caption} {s : State} (H : Keeps P 0x7c47557) (h2 : P s) : ResAll P
    (execCaptionChange stream cap s) := by
  have H1 : Keeps P 0x7c41113 := H.mono rfl
  have H2 : Keeps P 0x1000 := H.mono rfl
  have H3 : Keeps P 0x7c43117 := H.mono rfl
  unfold execCaptionChange
  with_reducible repeat' first
    | assumption | intro _ | refine res_next ?_ | refine keeps_segFailed H1 ?_ | refine keeps_shuRebind H2 ?_
    | refine res_get ‹_ = Host.Outcome.next _› (keeps_shuEvent H ?_ ?_) | refine keeps_shuEvent H ?_ ?_ | refine keeps_shuFinish H3 ?_
    | refine keeps_shuPush H3 ?_ | refine keeps_upStreamX H2 ?_ | refine keeps_upStream H2 ?_ | split | dsimp only

theorem keeps_execSliceReparseDone {P : State → Prop} {stream : Nat} {first : Nat} {ok : Bool} {s : State} (H : Keeps P 0x7c47557) (h3 : P
    s) : ResAll P (execSliceReparseDone stream first ok s) := by
  have H1 : Keeps P 0x1000 := H.mono rfl
  have H2 : Keeps P 0x40000 := H.mono rfl
  unfold execSliceReparseDone
  with_reducible repeat' first
    | assumption | intro _ | refine res_next ?_ | refine keeps_upShu H1 ?_
    | refine res_get ‹_ = Host.Outcome.next _› (keeps_shuEvent H ?_ ?_) | refine keeps_shuEvent H ?_ ?_ | refine keeps_upStreamX H1 ?_
    | refine keeps_charge H2 ?_ | split | dsimp only

theorem keeps_execContainerTimeout {P : State → Prop} {stream : Nat} {s : State} (H : Keeps P 0x7c47557) (h1 : P s) : ResAll P
    (execContainerTimeout stream s) := by
  have H1 : Keeps P 0x7c41113 := H.mono rfl
  unfold execContainerTimeout
  with_reducible repeat' first
    | assumption | intro _ | refine res_next ?_ | refine res_get ‹_ = Host.Outcome.next _› (keeps_shuEvent H ?_ ?_)
    | refine keeps_shuEvent H ?_ ?_ | refine keeps_shuFail H1 ?_ | split | dsimp only

theorem keeps_smWaiters {P : State → Prop} {s : State} (H : Keeps P 0x6c00553) (h0 : P s) : P (State.smWaiters s) := by
  have H1 : Keeps P 0x4800001 := H.mono rfl
  unfold State.smWaiters
  with_reducible repeat' first
    | assumption | intro _ | refine keeps_foldl ?_ ?_ | refine keeps_foldl_fst ?_ ?_ | refine keeps_foldl_snd ?_ ?_
    | refine eq_trd ‹_ = _› (keeps_readLog H1 ?_) | refine keeps_readLog H1 ?_ | refine keeps_finish H ?_ | split | dsimp only

theorem keeps_loadCfg {P : State → Prop} {s : State} (H : Keeps P 0x2000000) (h0 : P s) : P (State.loadCfg s) := by
  unfold State.loadCfg
  with_reducible repeat' first
    | assumption | intro _ | refine keeps_upSm H ?_ | split | dsimp only

theorem keeps_provision {P : State → Prop} {s : State} (H : Keeps P 0x3000000) (h0 : P s) : P (State.provision s) := by
  have H1 : Keeps P 0x2000000 := H.mono rfl
  unfold State.provision
  with_reducible repeat' first
    | assumption | intro _ | refine keeps_foldl ?_ ?_ | refine keeps_upSm H1 ?_ | refine keeps_storeAdd H ?_ | split | dsimp only

theorem keeps_bootRecords {P : State → Prop} {s : State} {why : Nat} {oldSvn : Nat} (H : Keeps P 0x7c40113) (h0 : P s) : P
    (State.bootRecords s why oldSvn) := by
  unfold State.bootRecords
  with_reducible repeat' first
    | assumption | intro _ | refine keeps_record H ?_ | split | dsimp only

theorem keeps_drainQueue {P : State → Prop} {s : State} (H : Keeps P 0x7c40113) (h0 : P s) : P (State.drainQueue s) := by
  have H1 : Keeps P 0x2000000 := H.mono rfl
  have H2 : Keeps P 0x3000001 := H.mono rfl
  unfold State.drainQueue
  with_reducible repeat' first
    | assumption | intro _ | refine keeps_foldl ?_ ?_ | refine keeps_upSm H1 ?_ | refine keeps_record H ?_ | refine keeps_smHealth H2 ?_
    | split | dsimp only

theorem keeps_smStart {P : State → Prop} {s : State} {b : Nat} (H : Keeps P 0xfe40113) (h0 : P s) : P (State.smStart s b) := by
  have H1 : Keeps P 0x2000000 := H.mono rfl
  have H2 : Keeps P 0x8000000 := H.mono rfl
  have H3 : Keeps P 0x7c40113 := H.mono rfl
  have H4 : Keeps P 0x3000000 := H.mono rfl
  have H5 : Keeps P 0x200000 := H.mono rfl
  have H6 : Keeps P 0xfc40113 := H.mono rfl
  unfold State.smStart
  with_reducible repeat' first
    | assumption | intro _ | refine keeps_upSm H1 ?_ | refine keeps_upPwr H2 ?_ | refine keeps_drainQueue H3 ?_
    | refine keeps_bootRecords H3 ?_ | refine keeps_provision H4 ?_ | refine keeps_undeclare H3 ?_ | refine keeps_upCore H5 ?_
    | refine keeps_declare H6 ?_ | split | dsimp only

theorem keeps_smBoot {P : State → Prop} {s : State} (H : Keeps P 0x1fe40113) (h0 : P s) : P (State.smBoot s) := by
  have H1 : Keeps P 0x2000000 := H.mono rfl
  have H2 : Keeps P 0xfe40113 := H.mono rfl
  have H3 : Keeps P 0x10000010 := H.mono rfl
  unfold State.smBoot
  with_reducible repeat' first
    | assumption | intro _ | refine keeps_upSm H1 ?_ | refine keeps_smStart H2 ?_ | refine keeps_loadCfg H1 ?_
    | refine keeps_railsOff H3 ?_ | split | dsimp only

theorem keeps_execSmBoot {P : State → Prop} {s : State} (H : Keeps P 0x1fe40553) (h0 : P s) : ResAll P (execSmBoot s) := by
  have H1 : Keeps P 0x1fe40113 := H.mono rfl
  have H2 : Keeps P 0x6c00553 := H.mono rfl
  unfold execSmBoot
  with_reducible repeat' first
    | assumption | intro _ | refine res_next ?_ | refine keeps_smBoot H1 ?_ | refine keeps_smWaiters H2 ?_
    | refine res_get ‹_ = Host.Outcome.next _› (keeps_onAlways ?_ ?_) | refine keeps_onAlways ?_ ?_ | split | dsimp only

theorem keeps_smStop {P : State → Prop} {s : State} {why : Nat} {bank : Nat} (H : Keeps P 0x2200000) (h0 : P s) : P (State.smStop s why
    bank) := by
  have H1 : Keeps P 0x2000000 := H.mono rfl
  have H2 : Keeps P 0x200000 := H.mono rfl
  unfold State.smStop
  with_reducible repeat' first
    | assumption | intro _ | refine keeps_upSm H1 ?_ | refine keeps_upCore H2 ?_ | split | dsimp only

theorem keeps_smRollback {P : State → Prop} {s : State} (H : Keeps P 0x2200000) (h0 : P s) : P (State.smRollback s) := by
  have H1 : Keeps P 0x2000000 := H.mono rfl
  unfold State.smRollback
  with_reducible repeat' first
    | assumption | intro _ | refine keeps_upSm H1 ?_ | refine keeps_smStop H ?_ | split | dsimp only

theorem keeps_execSmWatchdogExpiry {P : State → Prop} {s : State} (H : Keeps P 0x2200000) (h0 : P s) : ResAll P (execSmWatchdogExpiry s) :=
    by
  unfold execSmWatchdogExpiry
  with_reducible repeat' first
    | assumption | intro _ | refine res_next ?_ | refine keeps_smRollback H ?_ | refine keeps_smStop H ?_
    | refine res_get ‹_ = Host.Outcome.next _› (keeps_onAlways ?_ ?_) | refine keeps_onAlways ?_ ?_ | split | dsimp only

theorem keeps_putCfgBank {P : State → Prop} {s : State} {n : Nat} {x : Option (Nat × CfgItems)} (H : Keeps P 0x1000000) (h0 : P s) : P
    (State.putCfgBank s n x) := by
  unfold State.putCfgBank
  with_reducible repeat' first
    | assumption | intro _ | refine keeps_upFlash H ?_ | split | dsimp only

theorem keeps_storeNext {P : State → Prop} {s : State} (H : Keeps P 0x3000000) (h0 : P s) : P (State.storeNext s) := by
  have H1 : Keeps P 0x2000000 := H.mono rfl
  have H2 : Keeps P 0x1000000 := H.mono rfl
  unfold State.storeNext
  with_reducible repeat' first
    | assumption | intro _ | refine keeps_upSm H1 ?_ | refine keeps_storeOpen H2 ?_ | split | dsimp only

theorem keeps_changeEnd {P : State → Prop} {s : State} {c : StoreChange} {status : Nat} (H : Keeps P 0x6c00553) (h0 : P s) : P
    (State.changeEnd s c status) := by
  unfold State.changeEnd
  with_reducible repeat' first
    | assumption | intro _ | refine keeps_finishAll H ?_ | split | dsimp only

theorem keeps_storeDone {P : State → Prop} {s : State} (H : Keeps P 0x7c47557) (h0 : P s) : P (State.storeDone s) := by
  have H1 : Keeps P 0x2000000 := H.mono rfl
  have H2 : Keeps P 0x1000000 := H.mono rfl
  have H3 : Keeps P 0x6c00553 := H.mono rfl
  have H4 : Keeps P 0x3000000 := H.mono rfl
  unfold State.storeDone
  with_reducible repeat' first
    | assumption | intro _ | refine keeps_foldl ?_ ?_ | refine keeps_foldl_fst ?_ ?_ | refine keeps_foldl_snd ?_ ?_
    | refine opt_foldl ?_ ?_ | refine keeps_upSm H1 ?_ | refine keeps_upFlash H2 ?_ | refine keeps_changeEnd H3 ?_
    | refine keeps_storeNext H4 ?_ | refine keeps_putCfgBank H2 ?_ | refine keeps_iftCheck H ?_ | split | dsimp only

theorem keeps_storeFailed {P : State → Prop} {s : State} (H : Keeps P 0x7c40553) (h0 : P s) : P (State.storeFailed s) := by
  have H1 : Keeps P 0x2000000 := H.mono rfl
  have H2 : Keeps P 0x6c00553 := H.mono rfl
  have H3 : Keeps P 0x3000000 := H.mono rfl
  have H4 : Keeps P 0x7c40113 := H.mono rfl
  unfold State.storeFailed
  with_reducible repeat' first
    | assumption | intro _ | refine keeps_foldl ?_ ?_ | refine keeps_upSm H1 ?_ | refine keeps_changeEnd H2 ?_
    | refine keeps_storeNext H3 ?_ | refine keeps_record H4 ?_ | split | dsimp only

theorem keeps_execStoreBankCompare {P : State → Prop} {same : Bool} {s : State} (H : Keeps P 0x7c47557) (h1 : P s) : ResAll P
    (execStoreBankCompare same s) := by
  have H1 : Keeps P 0x2000000 := H.mono rfl
  have H2 : Keeps P 0x7c40553 := H.mono rfl
  unfold execStoreBankCompare
  with_reducible repeat' first
    | assumption | intro _ | refine res_next ?_ | refine keeps_upSm H1 ?_ | refine keeps_storeFailed H2 ?_ | refine keeps_storeDone H ?_
    | refine res_get ‹_ = Host.Outcome.next _› (keeps_onAlways ?_ ?_) | refine keeps_onAlways ?_ ?_ | split | dsimp only

theorem keeps_actBegin {P : State → Prop} {s : State} (H : Keeps P 0x2200000) (h0 : P s) : P (State.actBegin s) := by
  unfold State.actBegin
  with_reducible repeat' first
    | assumption | intro _ | refine keeps_smStop H ?_ | split | dsimp only

theorem keeps_execSmActivateClearance {P : State → Prop} {s : State} (H : Keeps P 0x2200000) (h0 : P s) : ResAll P (execSmActivateClearance
    s) := by
  unfold execSmActivateClearance
  with_reducible repeat' first
    | assumption | intro _ | refine res_next ?_ | refine keeps_actBegin H ?_
    | refine res_get ‹_ = Host.Outcome.next _› (keeps_onAlways ?_ ?_) | refine keeps_onAlways ?_ ?_ | split | dsimp only

theorem keeps_execSmActivateTimeout {P : State → Prop} {s : State} (H : Keeps P 0x7e40113) (h0 : P s) : ResAll P (execSmActivateTimeout s)
    := by
  have H1 : Keeps P 0x2000000 := H.mono rfl
  have H2 : Keeps P 0x2200000 := H.mono rfl
  have H3 : Keeps P 0x7c40113 := H.mono rfl
  unfold execSmActivateTimeout
  with_reducible repeat' first
    | assumption | intro _ | refine res_next ?_ | refine keeps_upSm H1 ?_ | refine keeps_actBegin H2 ?_ | refine keeps_record H3 ?_
    | refine res_get ‹_ = Host.Outcome.next _› (keeps_onAlways ?_ ?_) | refine keeps_onAlways ?_ ?_ | split | dsimp only

theorem keeps_execSmFwConfirm {P : State → Prop} {s : State} (H : Keeps P 0x7c40113) (h0 : P s) : ResAll P (execSmFwConfirm s) := by
  have H1 : Keeps P 0x1000000 := H.mono rfl
  have H2 : Keeps P 0x2000000 := H.mono rfl
  have H3 : Keeps P 0x3000000 := H.mono rfl
  unfold execSmFwConfirm
  with_reducible repeat' first
    | assumption | intro _ | refine res_next ?_ | refine keeps_upFlash H1 ?_ | refine keeps_upSm H2 ?_ | refine keeps_storeAdd H3 ?_
    | refine keeps_record H ?_ | refine res_get ‹_ = Host.Outcome.next _› (keeps_onAlways ?_ ?_) | refine keeps_onAlways ?_ ?_ | split
    | dsimp only

theorem keeps_execSmTrialTimeout {P : State → Prop} {s : State} (H : Keeps P 0x2200000) (h0 : P s) : ResAll P (execSmTrialTimeout s) := by
  unfold execSmTrialTimeout
  with_reducible repeat' first
    | assumption | intro _ | refine res_next ?_ | refine keeps_smRollback H ?_
    | refine res_get ‹_ = Host.Outcome.next _› (keeps_onAlways ?_ ?_) | refine keeps_onAlways ?_ ?_ | split | dsimp only

theorem keeps_execMgmtConfigApply {P : State → Prop} {s : State} (H : Keeps P 0x2000000) (h0 : P s) : ResAll P (execMgmtConfigApply s) := by
  unfold execMgmtConfigApply
  with_reducible repeat' first
    | assumption | intro _ | refine res_next ?_ | refine keeps_upSm H ?_ | refine res_get ‹_ = Host.Outcome.next _› (keeps_onAlways ?_ ?_)
    | refine keeps_onAlways ?_ ?_ | split | dsimp only

theorem keeps_upConn {P : State → Prop} {s : State} {medium : Nat} {f : Spdm → Spdm} (H : Keeps P 0x2000000) (h0 : P s) : P (State.upConn s
    medium f) := by
  unfold State.upConn
  with_reducible repeat' first
    | assumption | intro _ | refine keeps_upSm H ?_ | split | dsimp only

theorem keeps_spdmError {P : State → Prop} {s : State} {medium : Nat} {code : Nat} (H : Keeps P 0x1) (h0 : P s) : P (State.spdmError s
    medium code) := by
  unfold State.spdmError
  with_reducible repeat' first
    | assumption | intro _ | refine keeps_smSend H ?_ | split | dsimp only

theorem keeps_spdmUnsupported {P : State → Prop} {s : State} {medium : Nat} {req : Bytes} (H : Keeps P 0x1) (h0 : P s) : P
    (State.spdmUnsupported s medium req) := by
  unfold State.spdmUnsupported
  with_reducible repeat' first
    | assumption | intro _ | refine keeps_smSend H ?_ | split | dsimp only

theorem keeps_spdmOther {P : State → Prop} {s : State} {medium : Nat} {req : Bytes} (H : Keeps P 0x1) (h0 : P s) : P (State.spdmOther s
    medium req) := by
  unfold State.spdmOther
  with_reducible repeat' first
    | assumption | intro _ | refine keeps_spdmUnsupported H ?_ | split | dsimp only

theorem keeps_spdmTake {P : State → Prop} {s : State} {medium : Nat} {code : Nat} {ver : Nat} {need : Nat} {req : Bytes} {f : State → Spdm →
    State} (H : Keeps P 0x1) (h0 : P s) (h6 : ∀ y1 y2, P y1 → P (f y1 y2)) : P (State.spdmTake s medium code ver need req f) := by
  unfold State.spdmTake
  with_reducible repeat' first
    | assumption | intro _ | refine h6 _ _ ?_ | refine keeps_spdmOther H ?_ | refine keeps_spdmError H ?_ | split | dsimp only

theorem keeps_execGetVersion {P : State → Prop} {medium : Nat} {req : Bytes} {s : State} (H : Keeps P 0x2000001) (h2 : P s) : ResAll P
    (execGetVersion medium req s) := by
  have H1 : Keeps P 0x1 := H.mono rfl
  have H2 : Keeps P 0x2000000 := H.mono rfl
  unfold execGetVersion
  with_reducible repeat' first
    | assumption | intro _ | refine res_next ?_ | refine keeps_spdmTake H1 ?_ ?_ | refine keeps_upConn H2 ?_ | refine keeps_smSend H1 ?_
    | refine res_get ‹_ = Host.Outcome.next _› (keeps_onAlways ?_ ?_) | refine keeps_onAlways ?_ ?_ | split | dsimp only

theorem keeps_execGetCapabilities {P : State → Prop} {medium : Nat} {req : Bytes} {s : State} (H : Keeps P 0x2000003) (h2 : P s) : ResAll P
    (execGetCapabilities medium req s) := by
  have H1 : Keeps P 0x1 := H.mono rfl
  have H2 : Keeps P 0x2000000 := H.mono rfl
  have H3 : Keeps P 0x2 := H.mono rfl
  unfold execGetCapabilities
  with_reducible repeat' first
    | assumption | intro _ | refine res_next ?_ | refine keeps_spdmTake H1 ?_ ?_ | refine keeps_upConn H2 ?_ | refine keeps_smSend H1 ?_
    | refine keeps_spent H3 ?_ | refine res_get ‹_ = Host.Outcome.next _› (keeps_onAlways ?_ ?_) | refine keeps_onAlways ?_ ?_ | split
    | dsimp only

theorem keeps_execNegotiateAlgorithms {P : State → Prop} {medium : Nat} {req : Bytes} {s : State} (H : Keeps P 0x2000001) (h2 : P s) :
    ResAll P (execNegotiateAlgorithms medium req s) := by
  have H1 : Keeps P 0x1 := H.mono rfl
  have H2 : Keeps P 0x2000000 := H.mono rfl
  unfold execNegotiateAlgorithms
  with_reducible repeat' first
    | assumption | intro _ | refine res_next ?_ | refine keeps_spdmTake H1 ?_ ?_ | refine keeps_upConn H2 ?_ | refine keeps_smSend H1 ?_
    | refine res_get ‹_ = Host.Outcome.next _› (keeps_onAlways ?_ ?_) | refine keeps_onAlways ?_ ?_ | split | dsimp only

theorem keeps_execGetDigests {P : State → Prop} {medium : Nat} {req : Bytes} {s : State} (H : Keeps P 0x2000001) (h2 : P s) : ResAll P
    (execGetDigests medium req s) := by
  have H1 : Keeps P 0x1 := H.mono rfl
  have H2 : Keeps P 0x2000000 := H.mono rfl
  unfold execGetDigests
  with_reducible repeat' first
    | assumption | intro _ | refine res_next ?_ | refine keeps_spdmTake H1 ?_ ?_ | refine keeps_upConn H2 ?_ | refine keeps_smSend H1 ?_
    | refine res_get ‹_ = Host.Outcome.next _› (keeps_onAlways ?_ ?_) | refine keeps_onAlways ?_ ?_ | split | dsimp only

theorem keeps_execGetCertificate {P : State → Prop} {medium : Nat} {req : Bytes} {s : State} (H : Keeps P 0x2000001) (h2 : P s) : ResAll P
    (execGetCertificate medium req s) := by
  have H1 : Keeps P 0x1 := H.mono rfl
  have H2 : Keeps P 0x2000000 := H.mono rfl
  unfold execGetCertificate
  with_reducible repeat' first
    | assumption | intro _ | refine res_next ?_ | refine keeps_spdmTake H1 ?_ ?_ | refine keeps_spdmError H1 ?_ | refine keeps_upConn H2 ?_
    | refine keeps_smSend H1 ?_ | refine res_get ‹_ = Host.Outcome.next _› (keeps_onAlways ?_ ?_) | refine keeps_onAlways ?_ ?_ | split
    | dsimp only

theorem keeps_execChallenge {P : State → Prop} {medium : Nat} {req : Bytes} {s : State} (H : Keeps P 0x2000003) (h2 : P s) : ResAll P
    (execChallenge medium req s) := by
  have H1 : Keeps P 0x1 := H.mono rfl
  have H2 : Keeps P 0x2000000 := H.mono rfl
  have H3 : Keeps P 0x2 := H.mono rfl
  unfold execChallenge
  with_reducible repeat' first
    | assumption | intro _ | refine res_next ?_ | refine keeps_spdmTake H1 ?_ ?_ | refine keeps_spdmError H1 ?_ | refine keeps_upConn H2 ?_
    | refine keeps_smSend H1 ?_ | refine keeps_spent H3 ?_ | refine res_get ‹_ = Host.Outcome.next _› (keeps_onAlways ?_ ?_)
    | refine keeps_onAlways ?_ ?_ | split | dsimp only

theorem keeps_execGetMeasurements {P : State → Prop} {medium : Nat} {req : Bytes} {s : State} (H : Keeps P 0x3) (h2 : P s) : ResAll P
    (execGetMeasurements medium req s) := by
  have H1 : Keeps P 0x1 := H.mono rfl
  have H2 : Keeps P 0x2 := H.mono rfl
  unfold execGetMeasurements
  with_reducible repeat' first
    | assumption | intro _ | refine res_next ?_ | refine keeps_spdmTake H1 ?_ ?_ | refine keeps_spdmUnsupported H1 ?_
    | refine keeps_spdmError H1 ?_ | refine keeps_smSend H1 ?_ | refine keeps_spent H2 ?_
    | refine res_get ‹_ = Host.Outcome.next _› (keeps_onAlways ?_ ?_) | refine keeps_onAlways ?_ ?_ | split | dsimp only

theorem keeps_execKeyExchange {P : State → Prop} {medium : Nat} {req : Bytes} {s : State} (H : Keeps P 0x2000003) (h2 : P s) : ResAll P
    (execKeyExchange medium req s) := by
  have H1 : Keeps P 0x2000000 := H.mono rfl
  have H2 : Keeps P 0x1 := H.mono rfl
  have H3 : Keeps P 0x2 := H.mono rfl
  unfold execKeyExchange
  with_reducible repeat' first
    | assumption | intro _ | refine res_next ?_ | refine keeps_upSm H1 ?_ | refine keeps_spdmTake H2 ?_ ?_
    | refine keeps_spdmUnsupported H2 ?_ | refine keeps_spdmError H2 ?_ | refine keeps_smSend H2 ?_ | refine keeps_spent H3 ?_
    | refine res_get ‹_ = Host.Outcome.next _› (keeps_onAlways ?_ ?_) | refine keeps_onAlways ?_ ?_ | split | dsimp only

theorem keeps_spdmEnd {P : State → Prop} {s : State} {id : Nat} (H : Keeps P 0x6c00553) (h0 : P s) : P (State.spdmEnd s id) := by
  have H1 : Keeps P 0x2000000 := H.mono rfl
  unfold State.spdmEnd
  with_reducible repeat' first
    | assumption | intro _ | refine keeps_foldl ?_ ?_ | refine keeps_upSm H1 ?_ | refine keeps_endSession H ?_ | split | dsimp only

theorem keeps_sessTake {P : State → Prop} {s : State} {medium : Nat} {sess : Nat} {code : Nat} {live : Bool} {req : Bytes} {f : State →
    State} (H : Keeps P 0x1) (h0 : P s) (h6 : ∀ y1, P y1 → P (f y1)) : P (State.sessTake s medium sess code live req f) := by
  unfold State.sessTake
  with_reducible repeat' first
    | assumption | intro _ | refine h6 _ ?_ | refine keeps_spdmOther H ?_ | refine keeps_spdmUnsupported H ?_ | refine keeps_spdmError H ?_
    | split | dsimp only

theorem keeps_execFinish {P : State → Prop} {medium : Nat} {sess : Nat} {req : Bytes} {s : State} (H : Keeps P 0x6c00553) (h3 : P s) :
    ResAll P (execFinish medium sess req s) := by
  have H1 : Keeps P 0x2000000 := H.mono rfl
  have H2 : Keeps P 0x1 := H.mono rfl
  unfold execFinish
  with_reducible repeat' first
    | assumption | intro _ | refine res_next ?_ | refine keeps_upSm H1 ?_ | refine keeps_sessTake H2 ?_ ?_ | refine keeps_spdmEnd H ?_
    | refine keeps_spdmError H2 ?_ | refine keeps_smSend H2 ?_ | refine res_get ‹_ = Host.Outcome.next _› (keeps_onAlways ?_ ?_)
    | refine keeps_onAlways ?_ ?_ | split | dsimp only

theorem keeps_execKeyUpdate {P : State → Prop} {medium : Nat} {sess : Nat} {req : Bytes} {s : State} (H : Keeps P 0x2000001) (h3 : P s) :
    ResAll P (execKeyUpdate medium sess req s) := by
  have H1 : Keeps P 0x2000000 := H.mono rfl
  have H2 : Keeps P 0x1 := H.mono rfl
  unfold execKeyUpdate
  with_reducible repeat' first
    | assumption | intro _ | refine res_next ?_ | refine keeps_upSm H1 ?_ | refine keeps_sessTake H2 ?_ ?_ | refine keeps_spdmError H2 ?_
    | refine keeps_smSend H2 ?_ | refine res_get ‹_ = Host.Outcome.next _› (keeps_onAlways ?_ ?_) | refine keeps_onAlways ?_ ?_ | split
    | dsimp only

theorem keeps_execEndSession {P : State → Prop} {medium : Nat} {sess : Nat} {req : Bytes} {s : State} (H : Keeps P 0x7c4ff57) (h3 : P s) :
    ResAll P (execEndSession medium sess req s) := by
  have H1 : Keeps P 0x1 := H.mono rfl
  have H2 : Keeps P 0x6c00553 := H.mono rfl
  unfold execEndSession
  with_reducible repeat' first
    | assumption | intro _ | refine res_next ?_ | refine keeps_sessTake H1 ?_ ?_ | refine keeps_spdmEnd H2 ?_ | refine keeps_smSend H1 ?_
    | refine keeps_goOn H ?_ ?_ | refine res_get ‹_ = Host.Outcome.next _› (keeps_onAlways ?_ ?_) | refine keeps_onAlways ?_ ?_ | split
    | dsimp only

theorem keeps_stgGo {P : State → Prop} {s : State} (H : Keeps P 0x4100001) (h0 : P s) : P (State.stgGo s) := by
  have H1 : Keeps P 0x100000 := H.mono rfl
  have H2 : Keeps P 0x4000001 := H.mono rfl
  unfold State.stgGo
  with_reducible repeat' first
    | assumption | intro _ | refine keeps_upStg H1 ?_ | refine keeps_handsState H1 ?_ | refine keeps_hostRead H2 ?_ | split | dsimp only

theorem keeps_execStgLoadGo {P : State → Prop} {a : Access} {s : State} (H : Keeps P 0x4940001) (h1 : P s) : ResAll P (execStgLoadGo a s) :=
    by
  have H1 : Keeps P 0x100000 := H.mono rfl
  have H2 : Keeps P 0x4100001 := H.mono rfl
  have H3 : Keeps P 0x4800001 := H.mono rfl
  have H4 : Keeps P 0x40000 := H.mono rfl
  unfold execStgLoadGo
  with_reducible repeat' first
    | assumption | intro _ | refine res_next ?_ | refine keeps_upStg H1 ?_ | refine keeps_stgGo H2 ?_
    | refine res_get ‹_ = Host.Outcome.next _› (keeps_barWrite H3 ?_ ?_) | refine keeps_barWrite H3 ?_ ?_ | refine keeps_accessError H4 ?_
    | split | dsimp only

theorem keeps_liveAll {P : State → Prop} {s : State} (H : Keeps P 0x40) (h0 : P s) : P (State.liveAll s) := by
  unfold State.liveAll
  with_reducible repeat' first
    | assumption | intro _ | refine keeps_foldl ?_ ?_ | refine keeps_makeLive H ?_ | split | dsimp only

theorem keeps_execStgLoadDone {P : State → Prop} {image : Bytes} {readOk : Bool} {s : State} (H : Keeps P 0x4b00044) (h2 : P s) : ResAll P
    (execStgLoadDone image readOk s) := by
  have H1 : Keeps P 0x100000 := H.mono rfl
  have H2 : Keeps P 0x40 := H.mono rfl
  have H3 : Keeps P 0x300000 := H.mono rfl
  have H4 : Keeps P 0x4 := H.mono rfl
  have H5 : Keeps P 0x4800004 := H.mono rfl
  unfold execStgLoadDone
  with_reducible repeat' first
    | assumption | intro _ | refine res_next ?_ | refine keeps_foldl ?_ ?_ | refine opt_foldl ?_ ?_ | refine keeps_upStg H1 ?_
    | refine keeps_liveAll H2 ?_ | refine keeps_loadHand H3 ?_ | refine keeps_handsState H1 ?_ | refine keeps_dropImage H4 ?_
    | refine keeps_putImage H5 ?_ | refine keeps_upHand H1 ?_ | refine res_get ‹_ = Host.Outcome.next _› (keeps_onMainIf ?_ ?_)
    | refine keeps_onMainIf ?_ ?_ | split | dsimp only

theorem keeps_execWatchdogExpiry {P : State → Prop} {core : Nat} {s : State} (H : Keeps P 0x6f40553) (h1 : P s) : ResAll P
    (execWatchdogExpiry core s) := by
  unfold execWatchdogExpiry
  with_reducible repeat' first
    | assumption | intro _ | refine res_next ?_ | refine keeps_handEnds H ?_
    | refine res_get ‹_ = Host.Outcome.next _› (keeps_onMainIf ?_ ?_) | refine keeps_onMainIf ?_ ?_ | split | dsimp only

theorem keeps_handBack {P : State → Prop} {s : State} {n : Nat} (H : Keeps P 0x6f00557) (h0 : P s) : P (State.handBack s n) := by
  have H1 : Keeps P 0x100000 := H.mono rfl
  have H2 : Keeps P 0x4400111 := H.mono rfl
  unfold State.handBack
  with_reducible repeat' first
    | assumption | intro _ | refine keeps_upStg H1 ?_ | refine keeps_settle H ?_ | refine keeps_upHand H1 ?_ | refine keeps_flag H2 ?_ ?_
    | split | dsimp only

theorem keeps_execStagehandRestarted {P : State → Prop} {core : Nat} {s : State} (H : Keeps P 0x6f00557) (h1 : P s) : ResAll P
    (execStagehandRestarted core s) := by
  have H1 : Keeps P 0x300000 := H.mono rfl
  unfold execStagehandRestarted
  with_reducible repeat' first
    | assumption | intro _ | refine res_next ?_ | refine keeps_handBack H ?_ | refine keeps_loadHand H1 ?_
    | refine res_get ‹_ = Host.Outcome.next _› (keeps_onMainIf ?_ ?_) | refine keeps_onMainIf ?_ ?_ | split | dsimp only

theorem keeps_onHandover {P : State → Prop} {s : State} {stage : Nat} {f : State → Handover → State} (h0 : P s) (h2 : ∀ y1 y2, P y1 → P (f
    y1 y2)) : ResAll P (onHandover s stage f) := by
  unfold onHandover
  with_reducible repeat' first
    | assumption | intro _ | refine h2 _ _ ?_ | refine res_next ?_ | refine res_get ‹_ = Host.Outcome.next _› (keeps_onMain ?_ ?_)
    | refine keeps_onMain ?_ ?_ | split | dsimp only

theorem keeps_upHandover {P : State → Prop} {s : State} {f : Handover → Handover} (H : Keeps P 0x100000) (h0 : P s) : P (State.upHandover s
    f) := by
  unfold State.upHandover
  with_reducible repeat' first
    | assumption | intro _ | exact opt_none | refine opt_some ?_ | refine opt_map2 (P := P) ?_ ?_ | refine opt_map ?_
    | refine keeps_upStg H ?_ | split | dsimp only

theorem keeps_execHandoverClearance {P : State → Prop} {s : State} (H : Keeps P 0x100000) (h0 : P s) : ResAll P (execHandoverClearance s) :=
    by
  unfold execHandoverClearance
  with_reducible repeat' first
    | assumption | intro _ | refine res_next ?_ | refine keeps_upHandover H ?_
    | refine res_get ‹_ = Host.Outcome.next _› (keeps_onHandover ?_ ?_) | refine keeps_onHandover ?_ ?_ | refine keeps_handsState H ?_
    | split | dsimp only

theorem keeps_execActivateDeferTimeout {P : State → Prop} {s : State} (H : Keeps P 0x6d00553) (h0 : P s) : ResAll P
    (execActivateDeferTimeout s) := by
  have H1 : Keeps P 0x100000 := H.mono rfl
  have H2 : Keeps P 0x6c00553 := H.mono rfl
  unfold execActivateDeferTimeout
  with_reducible repeat' first
    | assumption | intro _ | refine res_next ?_ | refine keeps_upStg H1 ?_
    | refine res_get ‹_ = Host.Outcome.next _› (keeps_onHandover ?_ ?_) | refine keeps_onHandover ?_ ?_ | refine keeps_finishAll H2 ?_
    | split | dsimp only

theorem keeps_execHandoverQuiesced {P : State → Prop} {s : State} (H : Keeps P 0x4b00004) (h0 : P s) : ResAll P (execHandoverQuiesced s) :=
    by
  have H1 : Keeps P 0x100000 := H.mono rfl
  have H2 : Keeps P 0x300000 := H.mono rfl
  have H3 : Keeps P 0x4800004 := H.mono rfl
  unfold execHandoverQuiesced
  with_reducible repeat' first
    | assumption | intro _ | refine res_next ?_ | exact opt_none | refine opt_some ?_ | refine opt_map2 (P := P) ?_ ?_ | refine opt_map ?_
    | refine opt_ite ?_ ?_ | refine keeps_foldl ?_ ?_ | refine opt_foldl ?_ ?_ | refine keeps_upStg H1 ?_
    | refine res_get ‹_ = Host.Outcome.next _› (keeps_onHandover ?_ ?_) | refine keeps_onHandover ?_ ?_ | refine keeps_loadHand H2 ?_
    | refine keeps_gWrite H3 ?_ | split | dsimp only

theorem keeps_execHandoverQuiesceTimeout {P : State → Prop} {s : State} (H : Keeps P 0x6d00553) (h0 : P s) : ResAll P
    (execHandoverQuiesceTimeout s) := by
  unfold execHandoverQuiesceTimeout
  with_reducible repeat' first
    | assumption | intro _ | refine res_next ?_ | refine res_get ‹_ = Host.Outcome.next _› (keeps_onHandover ?_ ?_)
    | refine keeps_onHandover ?_ ?_ | refine keeps_handoverAbandon H ?_ | split | dsimp only

theorem keeps_execHandoverStep4Timeout {P : State → Prop} {s : State} (H : Keeps P 0x100000) (h0 : P s) : ResAll P (execHandoverStep4Timeout
    s) := by
  unfold execHandoverStep4Timeout
  with_reducible repeat' first
    | assumption | intro _ | refine res_next ?_ | refine res_get ‹_ = Host.Outcome.next _› (keeps_onHandover ?_ ?_)
    | refine keeps_onHandover ?_ ?_ | refine keeps_handoverBack H ?_ | split | dsimp only

theorem keeps_execHandoverResumed {P : State → Prop} {s : State} (H : Keeps P 0x7f40557) (h0 : P s) : ResAll P (execHandoverResumed s) := by
  have H1 : Keeps P 0x100000 := H.mono rfl
  have H2 : Keeps P 0x6f00557 := H.mono rfl
  have H3 : Keeps P 0x6c00553 := H.mono rfl
  have H4 : Keeps P 0x7c40113 := H.mono rfl
  have H5 : Keeps P 0x4400111 := H.mono rfl
  unfold execHandoverResumed
  with_reducible repeat' first
    | assumption | intro _ | refine res_next ?_ | exact opt_none | refine opt_some ?_ | refine opt_map2 (P := P) ?_ ?_ | refine opt_map ?_
    | refine opt_ite ?_ ?_ | refine keeps_foldl ?_ ?_ | refine keeps_upStg H1 ?_ | refine keeps_upHandover H1 ?_
    | refine res_get ‹_ = Host.Outcome.next _› (keeps_onHandover ?_ ?_) | refine keeps_onHandover ?_ ?_ | refine keeps_handBack H2 ?_
    | refine keeps_handsState H1 ?_ | refine keeps_finishAll H3 ?_ | refine keeps_record H4 ?_ | refine keeps_flag H5 ?_ ?_ | split
    | dsimp only

theorem keeps_execTrialExpiry {P : State → Prop} {s : State} (H : Keeps P 0x4900004) (h0 : P s) : ResAll P (execTrialExpiry s) := by
  unfold execTrialExpiry
  with_reducible repeat' first
    | assumption | intro _ | refine res_next ?_ | refine res_get ‹_ = Host.Outcome.next _› (keeps_onHandover ?_ ?_)
    | refine keeps_onHandover ?_ ?_ | refine keeps_trialEnd H ?_ | split | dsimp only

theorem keeps_nvmeReg {P : State → Prop} {fn : Nat} {s : State} {f : State → State} (H : Keeps P 0x4800001) (h1 : P s) (h2 : ∀ y1, P y1 → P
    (f y1)) : ResAll P (nvmeReg fn s f) := by
  have H1 : Keeps P 0x800000 := H.mono rfl
  have H2 : Keeps P 0x1 := H.mono rfl
  have H3 : Keeps P 0x4000000 := H.mono rfl
  unfold nvmeReg
  with_reducible repeat' first
    | assumption | intro _ | refine h2 _ ?_ | refine res_next ?_ | refine keeps_frozenWrite H1 ?_ | refine keeps_emit H2 ?_
    | refine keeps_ao H3 ?_ | split | dsimp only

theorem keeps_execNvmeCcEnable {P : State → Prop} {fn : Nat} {cc : Nat} {s : State} (H : Keeps P 0x4800081) (h2 : P s) : ResAll P
    (execNvmeCcEnable fn cc s) := by
  have H1 : Keeps P 0x4800001 := H.mono rfl
  have H2 : Keeps P 0x80 := H.mono rfl
  unfold execNvmeCcEnable
  with_reducible repeat' first
    | assumption | intro _ | refine res_next ?_ | refine res_get ‹_ = Host.Outcome.next _› (keeps_nvmeReg H1 ?_ ?_)
    | refine keeps_nvmeReg H1 ?_ ?_ | refine keeps_upCtrl H2 ?_ | split | dsimp only

theorem keeps_execNvmeCcDisable {P : State → Prop} {fn : Nat} {x1 : Nat} {s : State} (H : Keeps P 0x6c00dd3) (h2 : P s) : ResAll P
    (execNvmeCcDisable fn x1 s) := by
  have H1 : Keeps P 0x4800001 := H.mono rfl
  unfold execNvmeCcDisable
  with_reducible repeat' first
    | assumption | intro _ | refine res_next ?_ | refine res_get ‹_ = Host.Outcome.next _› (keeps_nvmeReg H1 ?_ ?_)
    | refine keeps_nvmeReg H1 ?_ ?_ | refine keeps_ctrlReset H ?_ | split | dsimp only

theorem keeps_execNvmeShutdown {P : State → Prop} {fn : Nat} {cc : Nat} {s : State} (H : Keeps P 0x6c00dd3) (h2 : P s) : ResAll P
    (execNvmeShutdown fn cc s) := by
  have H1 : Keeps P 0x4800001 := H.mono rfl
  have H2 : Keeps P 0x80 := H.mono rfl
  unfold execNvmeShutdown
  with_reducible repeat' first
    | assumption | intro _ | refine res_next ?_ | refine res_get ‹_ = Host.Outcome.next _› (keeps_nvmeReg H1 ?_ ?_)
    | refine keeps_nvmeReg H1 ?_ ?_ | refine keeps_stoSettle H ?_ | refine keeps_upCtrl H2 ?_ | split | dsimp only

theorem keeps_execNvmeCqDoorbell {P : State → Prop} {fn : Nat} {qid : Nat} {val : Nat} {s : State} (H : Keeps P 0x4c00191) (h3 : P s) :
    ResAll P (execNvmeCqDoorbell fn qid val s) := by
  have H1 : Keeps P 0x4800001 := H.mono rfl
  unfold execNvmeCqDoorbell
  with_reducible repeat' first
    | assumption | intro _ | refine res_next ?_ | refine res_get ‹_ = Host.Outcome.next _› (keeps_bell H1 ?_ ?_)
    | refine keeps_bell H1 ?_ ?_ | refine keeps_nvmeCqBell H ?_ | split | dsimp only

theorem keeps_nvmeFetch {P : State → Prop} {s : State} {n : NvmeCmd} (H : Keeps P 0x4400593) (h0 : P s) : OptAll P (State.nvmeFetch s n) :=
    by
  have H1 : Keeps P 0x4000001 := H.mono rfl
  have H2 : Keeps P 0x80 := H.mono rfl
  have H3 : Keeps P 0x4400513 := H.mono rfl
  unfold State.nvmeFetch
  with_reducible repeat' first
    | assumption | intro _ | exact opt_none | refine opt_some ?_ | refine opt_ite ?_ ?_ | refine keeps_hostRead H1 ?_
    | refine keeps_upQueue H2 ?_ | refine keeps_ctxUse H3 ?_ | split | dsimp only

theorem keeps_cqe {P : State → Prop} {s : State} {n : NvmeCmd} {status : Nat} {dw0 : Nat} (H : Keeps P 0x4c00191) (h0 : P s) : P (State.cqe
    s n status dw0) := by
  unfold State.cqe
  with_reducible repeat' first
    | assumption | intro _ | refine keeps_nvmeDone H ?_ | split | dsimp only

theorem keeps_nvmeOther {P : State → Prop} {fn : Nat} {qid : Nat} {o : OtherNvme} {s : State} (H : Keeps P 0x4c00593) (h3 : P s) : P
    (nvmeOther fn qid o s) := by
  have H1 : Keeps P 0x4c00191 := H.mono rfl
  have H2 : Keeps P 0x4400593 := H.mono rfl
  unfold nvmeOther
  with_reducible repeat' first
    | assumption | intro _ | refine keeps_cqe H1 ?_ | refine opt_get ‹_ = some _› (keeps_nvmeFetch H2 ?_) | refine keeps_nvmeFetch H2 ?_
    | split | dsimp only

theorem keeps_execNvmeSqDoorbell {P : State → Prop} {fn : Nat} {qid : Nat} {val : NvmeBell} {s : State} (H : Keeps P 0x4c00593) (h3 : P s) :
    ResAll P (execNvmeSqDoorbell fn qid val s) := by
  have H1 : Keeps P 0x4800001 := H.mono rfl
  have H2 : Keeps P 0x80 := H.mono rfl
  unfold execNvmeSqDoorbell
  with_reducible repeat' first
    | assumption | intro _ | refine res_next ?_ | refine keeps_nvmeOther H ?_
    | refine res_get ‹_ = Host.Outcome.next _› (keeps_bell H1 ?_ ?_) | refine keeps_bell H1 ?_ ?_ | refine keeps_nvmeSqBell H2 ?_ | split
    | dsimp only

theorem keeps_nvmeAdmin {P : State → Prop} {n : NvmeCmd} {s : State} {f : State → State} (H : Keeps P 0x4c00593) (h1 : P s) (h2 : ∀ y1, P y1
    → P (f y1)) : ResAll P (nvmeAdmin n s f) := by
  have H1 : Keeps P 0x4c00191 := H.mono rfl
  have H2 : Keeps P 0x4400593 := H.mono rfl
  unfold nvmeAdmin
  with_reducible repeat' first
    | assumption | intro _ | refine h2 _ ?_ | refine res_next ?_ | refine keeps_cqe H1 ?_
    | refine opt_get ‹_ = some _› (keeps_nvmeFetch H2 ?_) | refine keeps_nvmeFetch H2 ?_ | split | dsimp only

theorem keeps_nvmeIo {P : State → Prop} {n : NvmeCmd} {s : State} {f : State → State} (H : Keeps P 0x4c00593) (h1 : P s) (h2 : ∀ y1, P y1 →
    P (f y1)) : ResAll P (nvmeIo n s f) := by
  have H1 : Keeps P 0x4c00191 := H.mono rfl
  have H2 : Keeps P 0x4400593 := H.mono rfl
  have H3 : Keeps P 0x80 := H.mono rfl
  unfold nvmeIo
  with_reducible repeat' first
    | assumption | intro _ | refine h2 _ ?_ | refine res_next ?_ | refine keeps_cqe H1 ?_
    | refine opt_get ‹_ = some _› (keeps_nvmeFetch H2 ?_) | refine keeps_nvmeFetch H2 ?_ | refine keeps_dropOp H3 ?_
    | refine keeps_upCtrl H3 ?_ | split | dsimp only

theorem keeps_prpPages {P : State → Prop} {a : Nat} {x1 : State} {x2 : NvmeCmd} {x3 : Nat} {x4 : Bytes} {x5 : Nat} (H : Keeps P 0x4000001)
    (h1 : P x1) : P (State.prpPages a x1 x2 x3 x4 x5) := by
  induction a generalizing x1 x2 x3 x4 x5 with
  | zero =>
    unfold State.prpPages
    with_reducible repeat' first
      | assumption | intro _ | refine keeps_hostRead H ?_ | split | dsimp only
  | succ _ ih =>
    unfold State.prpPages
    with_reducible repeat' first
      | assumption | intro _ | refine ih ?_ | refine keeps_hostRead H ?_ | split | dsimp only

theorem keeps_prpFetch {P : State → Prop} {s : State} {n : NvmeCmd} {len : Nat} (H : Keeps P 0x4000001) (h0 : P s) : P (State.prpFetch s n
    len) := by
  unfold State.prpFetch
  with_reducible repeat' first
    | assumption | intro _ | refine keeps_prpPages H ?_ | refine keeps_hostRead H ?_ | split | dsimp only

theorem keeps_prpList {P : State → Prop} {s : State} {n : NvmeCmd} {len : Nat} (H : Keeps P 0x4000001) (h0 : P s) : P (State.prpList s n
    len) := by
  unfold State.prpList
  with_reducible repeat' first
    | assumption | intro _ | refine keeps_hostRead H ?_ | split | dsimp only

theorem keeps_execDeleteIoSq {P : State → Prop} {n : NvmeCmd} {s : State} (H : Keeps P 0x6c00dd3) (h1 : P s) : ResAll P (execDeleteIoSq n s)
    := by
  have H1 : Keeps P 0x4c00593 := H.mono rfl
  have H2 : Keeps P 0x4c00191 := H.mono rfl
  have H3 : Keeps P 0x80 := H.mono rfl
  unfold execDeleteIoSq
  with_reducible repeat' first
    | assumption | intro _ | refine res_next ?_ | refine keeps_foldl ?_ ?_
    | refine res_get ‹_ = Host.Outcome.next _› (keeps_nvmeAdmin H1 ?_ ?_) | refine keeps_nvmeAdmin H1 ?_ ?_ | refine keeps_cqe H2 ?_
    | refine keeps_stoSettle H ?_ | refine keeps_endOp H2 ?_ | refine keeps_upCtrl H3 ?_ | split | dsimp only

theorem keeps_execCreateIoSq {P : State → Prop} {n : NvmeCmd} {s : State} (H : Keeps P 0x4c00593) (h1 : P s) : ResAll P (execCreateIoSq n s)
    := by
  have H1 : Keeps P 0x4c00191 := H.mono rfl
  have H2 : Keeps P 0x800000 := H.mono rfl
  have H3 : Keeps P 0x80 := H.mono rfl
  unfold execCreateIoSq
  with_reducible repeat' first
    | assumption | intro _ | refine res_next ?_ | refine res_get ‹_ = Host.Outcome.next _› (keeps_nvmeAdmin H ?_ ?_)
    | refine keeps_nvmeAdmin H ?_ ?_ | refine keeps_cqe H1 ?_ | refine keeps_vfRuns H2 ?_ | refine keeps_upCtrl H3 ?_ | split | dsimp only

theorem keeps_execGetLogPage {P : State → Prop} {n : NvmeCmd} {s : State} (H : Keeps P 0x4c00593) (h1 : P s) : ResAll P (execGetLogPage n s)
    := by
  have H1 : Keeps P 0x4c00191 := H.mono rfl
  have H2 : Keeps P 0x4800001 := H.mono rfl
  have H3 : Keeps P 0x80 := H.mono rfl
  have H4 : Keeps P 0x2 := H.mono rfl
  unfold execGetLogPage
  with_reducible repeat' first
    | assumption | intro _ | refine res_next ?_ | refine res_get ‹_ = Host.Outcome.next _› (keeps_nvmeAdmin H ?_ ?_)
    | refine keeps_nvmeAdmin H ?_ ?_ | refine keeps_cqe H1 ?_ | refine keeps_prpWrite H2 ?_ | refine keeps_upCtrl H3 ?_
    | refine keeps_spent H4 ?_ | split | dsimp only

theorem keeps_execDeleteIoCq {P : State → Prop} {n : NvmeCmd} {s : State} (H : Keeps P 0x4c00593) (h1 : P s) : ResAll P (execDeleteIoCq n s)
    := by
  have H1 : Keeps P 0x4c00191 := H.mono rfl
  have H2 : Keeps P 0x80 := H.mono rfl
  unfold execDeleteIoCq
  with_reducible repeat' first
    | assumption | intro _ | refine res_next ?_ | refine res_get ‹_ = Host.Outcome.next _› (keeps_nvmeAdmin H ?_ ?_)
    | refine keeps_nvmeAdmin H ?_ ?_ | refine keeps_cqe H1 ?_ | refine keeps_upCtrl H2 ?_ | split | dsimp only

theorem keeps_execCreateIoCq {P : State → Prop} {n : NvmeCmd} {s : State} (H : Keeps P 0x4c00593) (h1 : P s) : ResAll P (execCreateIoCq n s)
    := by
  have H1 : Keeps P 0x4c00191 := H.mono rfl
  have H2 : Keeps P 0x800000 := H.mono rfl
  have H3 : Keeps P 0x80 := H.mono rfl
  unfold execCreateIoCq
  with_reducible repeat' first
    | assumption | intro _ | refine res_next ?_ | refine res_get ‹_ = Host.Outcome.next _› (keeps_nvmeAdmin H ?_ ?_)
    | refine keeps_nvmeAdmin H ?_ ?_ | refine keeps_cqe H1 ?_ | refine keeps_vfRuns H2 ?_ | refine keeps_upCtrl H3 ?_ | split | dsimp only

theorem keeps_execIdentify {P : State → Prop} {n : NvmeCmd} {s : State} (H : Keeps P 0x4c00593) (h1 : P s) : ResAll P (execIdentify n s) :=
    by
  have H1 : Keeps P 0x4c00191 := H.mono rfl
  have H2 : Keeps P 0x4800001 := H.mono rfl
  have H3 : Keeps P 0x2 := H.mono rfl
  unfold execIdentify
  with_reducible repeat' first
    | assumption | intro _ | refine res_next ?_ | refine res_get ‹_ = Host.Outcome.next _› (keeps_nvmeAdmin H ?_ ?_)
    | refine keeps_nvmeAdmin H ?_ ?_ | refine keeps_cqe H1 ?_ | refine keeps_prpWrite H2 ?_ | refine keeps_spent H3 ?_ | split | dsimp only

theorem keeps_execNvmeAbort {P : State → Prop} {n : NvmeCmd} {s : State} (H : Keeps P 0x6c00dd3) (h1 : P s) : ResAll P (execNvmeAbort n s)
    := by
  have H1 : Keeps P 0x4c00593 := H.mono rfl
  have H2 : Keeps P 0x4c00191 := H.mono rfl
  unfold execNvmeAbort
  with_reducible repeat' first
    | assumption | intro _ | refine res_next ?_ | refine res_get ‹_ = Host.Outcome.next _› (keeps_nvmeAdmin H1 ?_ ?_)
    | refine keeps_nvmeAdmin H1 ?_ ?_ | refine keeps_cqe H2 ?_ | refine keeps_stoSettle H ?_ | refine keeps_endOp H2 ?_ | split
    | dsimp only

theorem keeps_execSetFeatures {P : State → Prop} {n : NvmeCmd} {s : State} (H : Keeps P 0x4c00593) (h1 : P s) : ResAll P (execSetFeatures n
    s) := by
  have H1 : Keeps P 0x4c00191 := H.mono rfl
  have H2 : Keeps P 0x4c00511 := H.mono rfl
  have H3 : Keeps P 0x400 := H.mono rfl
  have H4 : Keeps P 0x80 := H.mono rfl
  have H5 : Keeps P 0x2 := H.mono rfl
  unfold execSetFeatures
  with_reducible repeat' first
    | assumption | intro _ | refine res_next ?_ | refine res_get ‹_ = Host.Outcome.next _› (keeps_nvmeAdmin H ?_ ?_)
    | refine keeps_nvmeAdmin H ?_ ?_ | refine keeps_cqe H1 ?_ | refine opt_get2 ‹_ = some (_, _)› (keeps_ctxTakeN H2 ?_)
    | refine keeps_ctxTakeN H2 ?_ | refine keeps_ctxGive H3 ?_ | refine keeps_upCtrl H4 ?_ | refine keeps_spent H5 ?_ | split | dsimp only

theorem keeps_execGetFeatures {P : State → Prop} {n : NvmeCmd} {s : State} (H : Keeps P 0x4c00593) (h1 : P s) : ResAll P (execGetFeatures n
    s) := by
  have H1 : Keeps P 0x4c00191 := H.mono rfl
  have H2 : Keeps P 0x2 := H.mono rfl
  unfold execGetFeatures
  with_reducible repeat' first
    | assumption | intro _ | refine res_next ?_ | refine res_get ‹_ = Host.Outcome.next _› (keeps_nvmeAdmin H ?_ ?_)
    | refine keeps_nvmeAdmin H ?_ ?_ | refine keeps_cqe H1 ?_ | refine keeps_spent H2 ?_ | split | dsimp only

theorem keeps_execAsyncEventRequest {P : State → Prop} {n : NvmeCmd} {s : State} (H : Keeps P 0x4c00593) (h1 : P s) : ResAll P
    (execAsyncEventRequest n s) := by
  have H1 : Keeps P 0x4c00191 := H.mono rfl
  have H2 : Keeps P 0x80 := H.mono rfl
  unfold execAsyncEventRequest
  with_reducible repeat' first
    | assumption | intro _ | refine res_next ?_ | refine res_get ‹_ = Host.Outcome.next _› (keeps_nvmeAdmin H ?_ ?_)
    | refine keeps_nvmeAdmin H ?_ ?_ | refine keeps_cqe H1 ?_ | refine keeps_asyncEvent H1 ?_ | refine keeps_upCtrl H2 ?_ | split
    | dsimp only

theorem keeps_addOp {P : State → Prop} {s : State} {o : NvmeOp} (H : Keeps P 0x80) (h0 : P s) : P (State.addOp s o) := by
  unfold State.addOp
  with_reducible repeat' first
    | assumption | intro _ | refine keeps_upCtrl H ?_ | split | dsimp only

theorem keeps_takeWrite {P : State → Prop} {s : State} {n : NvmeCmd} {x : Ns} {ranges : List (Nat × Nat)} {zero : Nat} {fua : Bool} {data :
    Bytes} (H : Keeps P 0x6c00dd3) (h0 : P s) : P (State.takeWrite s n x ranges zero fua data) := by
  have H1 : Keeps P 0x80 := H.mono rfl
  have H2 : Keeps P 0x4c00191 := H.mono rfl
  unfold State.takeWrite
  with_reducible repeat' first
    | assumption | intro _ | refine keeps_foldl ?_ ?_ | refine keeps_upSto H1 ?_ | refine keeps_addOp H1 ?_ | refine keeps_cqe H2 ?_
    | refine keeps_wbEnter H1 ?_ | refine keeps_stoSettle H ?_ | split | dsimp only

theorem keeps_execFlush {P : State → Prop} {n : NvmeCmd} {s : State} (H : Keeps P 0x4c00593) (h1 : P s) : ResAll P (execFlush n s) := by
  have H1 : Keeps P 0x80 := H.mono rfl
  have H2 : Keeps P 0x4c00191 := H.mono rfl
  unfold execFlush
  with_reducible repeat' first
    | assumption | intro _ | refine res_next ?_ | refine keeps_addOp H1 ?_
    | refine res_get ‹_ = Host.Outcome.next _› (keeps_nvmeIo H ?_ ?_) | refine keeps_nvmeIo H ?_ ?_ | refine keeps_cqe H2 ?_ | split
    | dsimp only

theorem keeps_execWrite {P : State → Prop} {n : NvmeCmd} {s : State} (H : Keeps P 0x6c00dd3) (h1 : P s) : ResAll P (execWrite n s) := by
  have H1 : Keeps P 0x80 := H.mono rfl
  have H2 : Keeps P 0x4000001 := H.mono rfl
  have H3 : Keeps P 0x4c00593 := H.mono rfl
  have H4 : Keeps P 0x4c00191 := H.mono rfl
  unfold execWrite
  with_reducible repeat' first
    | assumption | intro _ | refine res_next ?_ | refine keeps_upSto H1 ?_ | refine keeps_takeWrite H ?_ | refine keeps_addOp H1 ?_
    | refine keeps_prpFetch H2 ?_ | refine res_get ‹_ = Host.Outcome.next _› (keeps_nvmeIo H3 ?_ ?_) | refine keeps_nvmeIo H3 ?_ ?_
    | refine keeps_cqe H4 ?_ | split | dsimp only

theorem keeps_execRead {P : State → Prop} {n : NvmeCmd} {s : State} (H : Keeps P 0x4c00593) (h1 : P s) : ResAll P (execRead n s) := by
  have H1 : Keeps P 0x80 := H.mono rfl
  have H2 : Keeps P 0x4000001 := H.mono rfl
  have H3 : Keeps P 0x4c00191 := H.mono rfl
  have H4 : Keeps P 0x81 := H.mono rfl
  have H5 : Keeps P 0x4800001 := H.mono rfl
  unfold execRead
  with_reducible repeat' first
    | assumption | intro _ | refine res_next ?_ | refine keeps_foldl ?_ ?_ | refine keeps_addOp H1 ?_ | refine keeps_prpList H2 ?_
    | refine res_get ‹_ = Host.Outcome.next _› (keeps_nvmeIo H ?_ ?_) | refine keeps_nvmeIo H ?_ ?_ | refine keeps_cqe H3 ?_
    | refine keeps_wbUse H1 ?_ | refine keeps_readPart H4 ?_ | refine keeps_prpWrite H5 ?_ | split | dsimp only

theorem keeps_execWriteZeroes {P : State → Prop} {n : NvmeCmd} {s : State} (H : Keeps P 0x6c00dd3) (h1 : P s) : ResAll P (execWriteZeroes n
    s) := by
  have H1 : Keeps P 0x4c00593 := H.mono rfl
  have H2 : Keeps P 0x4c00191 := H.mono rfl
  unfold execWriteZeroes
  with_reducible repeat' first
    | assumption | intro _ | refine res_next ?_ | refine keeps_takeWrite H ?_
    | refine res_get ‹_ = Host.Outcome.next _› (keeps_nvmeIo H1 ?_ ?_) | refine keeps_nvmeIo H1 ?_ ?_ | refine keeps_cqe H2 ?_ | split
    | dsimp only

theorem keeps_execDatasetManagement {P : State → Prop} {n : NvmeCmd} {s : State} (H : Keeps P 0x6c00dd3) (h1 : P s) : ResAll P
    (execDatasetManagement n s) := by
  have H1 : Keeps P 0x80 := H.mono rfl
  have H2 : Keeps P 0x4000001 := H.mono rfl
  have H3 : Keeps P 0x4c00593 := H.mono rfl
  have H4 : Keeps P 0x4c00191 := H.mono rfl
  unfold execDatasetManagement
  with_reducible repeat' first
    | assumption | intro _ | refine res_next ?_ | refine keeps_upSto H1 ?_ | refine keeps_takeWrite H ?_ | refine keeps_prpFetch H2 ?_
    | refine res_get ‹_ = Host.Outcome.next _› (keeps_nvmeIo H3 ?_ ?_) | refine keeps_nvmeIo H3 ?_ ?_ | refine keeps_cqe H4 ?_ | split
    | dsimp only

theorem keeps_intAdvanceAll {P : State → Prop} {s : State} (H : Keeps P 0x80) (h0 : P s) : P (State.intAdvanceAll s) := by
  unfold State.intAdvanceAll
  with_reducible repeat' first
    | assumption | intro _ | refine keeps_foldl ?_ ?_ | refine keeps_intAdvance H ?_ | split | dsimp only

theorem keeps_execWriteBufferAdmit {P : State → Prop} {s : State} (H : Keeps P 0x6c00dd3) (h0 : P s) : ResAll P (execWriteBufferAdmit s) :=
    by
  have H1 : Keeps P 0x80 := H.mono rfl
  unfold execWriteBufferAdmit
  with_reducible repeat' first
    | assumption | intro _ | refine res_next ?_ | refine keeps_intAdvanceAll H1 ?_ | refine keeps_takeWrite H ?_
    | refine res_get ‹_ = Host.Outcome.next _› (keeps_onMain ?_ ?_) | refine keeps_onMain ?_ ?_ | refine keeps_dropOp H1 ?_ | split
    | dsimp only

theorem keeps_tagFetch {P : State → Prop} {s : State} {n : Ns} {back : Nat} {rblk : Nat} (H : Keeps P 0x81) (h0 : P s) : P (State.tagFetch s
    n back rblk) := by
  have H1 : Keeps P 0x80 := H.mono rfl
  unfold State.tagFetch
  with_reducible repeat' first
    | assumption | intro _ | refine keeps_upSto H1 ?_ | refine keeps_remoteIssue H ?_ | split | dsimp only

theorem keeps_drainSealed {P : State → Prop} {s : State} {n : Ns} {w : WbBlock} {rest : List WbBlock} (H : Keeps P 0x7c40dd3) (h0 : P s) : P
    (State.drainSealed s n w rest) := by
  have H1 : Keeps P 0x80 := H.mono rfl
  have H2 : Keeps P 0x81 := H.mono rfl
  have H3 : Keeps P 0x7c405d3 := H.mono rfl
  have H4 : Keeps P 0x800 := H.mono rfl
  have H5 : Keeps P 0x881 := H.mono rfl
  unfold State.drainSealed
  with_reducible repeat' first
    | assumption | intro _ | exact opt_none | refine opt_some ?_ | refine opt_bindS ?_ ?_ | refine opt_bind ?_ | refine opt_ite ?_ ?_
    | refine keeps_foldl ?_ ?_ | refine keeps_foldl_fst ?_ ?_ | refine keeps_foldl_snd ?_ ?_ | refine opt_foldl ?_ ?_
    | refine keeps_upSto H1 ?_ | refine keeps_tagFetch H2 ?_ | refine keeps_stick H1 ?_ | refine keeps_writeFailed H3 ?_
    | refine keeps_putTagRec H4 ?_ | refine keeps_upWb H1 ?_ | refine keeps_tagWrite H5 ?_ | refine keeps_tagBusy H4 ?_
    | refine opt_get ‹_ = some _› (keeps_submit H4 ?_) | refine keeps_submit H4 ?_ | refine keeps_noKey H4 ?_
    | refine opt_get ‹_ = some _› ?_ | refine opt_foldl ?_ ?_ | refine opt_some ?_ | refine opt_bindS ?_ ?_ | split | dsimp only

theorem keeps_drainIssue {P : State → Prop} {s : State} {n : Ns} {zero : Nat} {first : Nat} {count : Nat} {l : List (Nat × Nat)} (H : Keeps
    P 0x81) (h0 : P s) : P (State.drainIssue s n zero first count l) := by
  have H1 : Keeps P 0x80 := H.mono rfl
  unfold State.drainIssue
  with_reducible repeat' first
    | assumption | intro _ | refine keeps_foldl ?_ ?_ | refine keeps_upSto H1 ?_ | refine keeps_upWb H1 ?_ | refine keeps_remoteIssue H ?_
    | split | dsimp only

theorem keeps_drainPlain {P : State → Prop} {s : State} {n : Ns} {w : WbBlock} (H : Keeps P 0x81) (h0 : P s) : P (State.drainPlain s n w) :=
    by
  unfold State.drainPlain
  with_reducible repeat' first
    | assumption | intro _ | refine keeps_foldl ?_ ?_ | refine keeps_foldl_fst ?_ ?_ | refine keeps_foldl_snd ?_ ?_
    | refine keeps_drainIssue H ?_ | split | dsimp only

theorem keeps_drainOne {P : State → Prop} {s : State} {w : WbBlock} (H : Keeps P 0x7c40dd3) (h0 : P s) : P (State.drainOne s w) := by
  have H1 : Keeps P 0x81 := H.mono rfl
  have H2 : Keeps P 0x7c405d3 := H.mono rfl
  unfold State.drainOne
  with_reducible repeat' first
    | assumption | intro _ | refine keeps_drainPlain H1 ?_ | refine keeps_drainSealed H ?_ | refine keeps_noLanes H2 ?_ | split
    | dsimp only

theorem keeps_execWbDrainStart {P : State → Prop} {s : State} (H : Keeps P 0x7c40dd3) (h0 : P s) : ResAll P (execWbDrainStart s) := by
  unfold execWbDrainStart
  with_reducible repeat' first
    | assumption | intro _ | refine res_next ?_ | refine keeps_foldl ?_ ?_ | refine keeps_drainOne H ?_
    | refine res_get ‹_ = Host.Outcome.next _› (keeps_onMainIf ?_ ?_) | refine keeps_onMainIf ?_ ?_ | split | dsimp only

theorem keeps_tagAck {P : State → Prop} {s : State} {n : Ns} {r : Remote} {ok : Bool} {flush : Bool} (H : Keeps P 0x881) (h0 : P s) : P
    (State.tagAck s n r ok flush) := by
  have H1 : Keeps P 0x800 := H.mono rfl
  unfold State.tagAck
  with_reducible repeat' first
    | assumption | intro _ | refine keeps_tagFlush H ?_ | refine keeps_upTag H1 ?_ | split | dsimp only

theorem keeps_wbPassed {P : State → Prop} {s : State} {w : WbBlock} (H : Keeps P 0x80) (h0 : P s) : P (State.wbPassed s w) := by
  unfold State.wbPassed
  with_reducible repeat' first
    | assumption | intro _ | refine keeps_upSto H ?_ | split | dsimp only

theorem keeps_wbAck {P : State → Prop} {s : State} {seq : Nat} {mask : Nat} (H : Keeps P 0x80) (h0 : P s) : P (State.wbAck s seq mask) := by
  unfold State.wbAck
  with_reducible repeat' first
    | assumption | intro _ | refine keeps_foldl ?_ ?_ | refine keeps_upSto H ?_ | refine keeps_wbPassed H ?_ | refine keeps_upWb H ?_
    | split | dsimp only

theorem keeps_execWbDrainComplete {P : State → Prop} {cid : Nat} {status : Nat} {s : State} (H : Keeps P 0x7c40dd3) (h2 : P s) : ResAll P
    (execWbDrainComplete cid status s) := by
  have H1 : Keeps P 0x80 := H.mono rfl
  have H2 : Keeps P 0x881 := H.mono rfl
  have H3 : Keeps P 0x7c405d3 := H.mono rfl
  have H4 : Keeps P 0x6c00dd3 := H.mono rfl
  unfold execWbDrainComplete
  with_reducible repeat' first
    | assumption | intro _ | refine res_next ?_ | refine keeps_foldl ?_ ?_ | refine keeps_upSto H1 ?_ | refine keeps_wbAck H1 ?_
    | refine keeps_tagAck H2 ?_ | refine res_get ‹_ = Host.Outcome.next _› (keeps_onMain ?_ ?_) | refine keeps_onMain ?_ ?_
    | refine keeps_stick H1 ?_ | refine keeps_writeFailed H3 ?_ | refine keeps_upWb H1 ?_ | refine keeps_sealedAck H2 ?_
    | refine keeps_stoSettle H4 ?_ | split | dsimp only

theorem keeps_openBlocks {P : State → Prop} {s : State} {x : Ns} {r : Remote} {data : Bytes} (H : Keeps P 0x6c00dd3) (h0 : P s) : P
    (State.openBlocks s x r data) := by
  have H1 : Keeps P 0x80 := H.mono rfl
  have H2 : Keeps P 0x800 := H.mono rfl
  unfold State.openBlocks
  with_reducible repeat' first
    | assumption | intro _ | refine keeps_foldl ?_ ?_ | refine opt_foldl ?_ ?_ | refine keeps_upSto H1 ?_ | refine keeps_openedAll H ?_
    | refine keeps_readEnd H ?_ | refine keeps_upTag H2 ?_ | refine opt_get ‹_ = some _› (keeps_submit H2 ?_) | refine keeps_submit H2 ?_
    | refine keeps_noKey H2 ?_ | split | dsimp only

theorem keeps_execRemoteReadComplete {P : State → Prop} {cid : Nat} {data : Bytes} {s : State} (H : Keeps P 0x6c00dd3) (h2 : P s) : ResAll P
    (execRemoteReadComplete cid data s) := by
  have H1 : Keeps P 0x80 := H.mono rfl
  have H2 : Keeps P 0x800 := H.mono rfl
  unfold execRemoteReadComplete
  with_reducible repeat' first
    | assumption | intro _ | refine res_next ?_ | refine keeps_foldl ?_ ?_ | refine keeps_foldl_fst ?_ ?_ | refine keeps_foldl_snd ?_ ?_
    | refine keeps_upSto H1 ?_ | refine keeps_openBlocks H ?_ | refine keeps_tagPut H2 ?_
    | refine res_get ‹_ = Host.Outcome.next _› (keeps_onMain ?_ ?_) | refine keeps_onMain ?_ ?_ | refine keeps_readDone H ?_ | split
    | dsimp only

theorem keeps_execRemoteCommandFail {P : State → Prop} {cid : Nat} {status : Nat} {s : State} (H : Keeps P 0x6c00dd3) (h2 : P s) : ResAll P
    (execRemoteCommandFail cid status s) := by
  have H1 : Keeps P 0x80 := H.mono rfl
  have H2 : Keeps P 0x81 := H.mono rfl
  unfold execRemoteCommandFail
  with_reducible repeat' first
    | assumption | intro _ | refine res_next ?_ | refine keeps_upSto H1 ?_ | refine keeps_stoReissue H2 ?_
    | refine res_get ‹_ = Host.Outcome.next _› (keeps_onMain ?_ ?_) | refine keeps_onMain ?_ ?_ | refine keeps_readEnd H ?_ | split
    | dsimp only

theorem keeps_execTargetAssociated {P : State → Prop} {target : Nat} {s : State} (H : Keeps P 0x6c005d3) (h1 : P s) : ResAll P
    (execTargetAssociated target s) := by
  have H1 : Keeps P 0x80 := H.mono rfl
  have H2 : Keeps P 0x81 := H.mono rfl
  have H3 : Keeps P 0x4400111 := H.mono rfl
  have H4 : Keeps P 0x6c00553 := H.mono rfl
  have H5 : Keeps P 0x100 := H.mono rfl
  unfold execTargetAssociated
  with_reducible repeat' first
    | assumption | intro _ | refine res_next ?_ | refine keeps_foldl ?_ ?_ | refine keeps_upSto H1 ?_ | refine keeps_stoRefresh H2 ?_
    | refine keeps_qpMove H3 ?_ | refine res_get ‹_ = Host.Outcome.next _› (keeps_onMain ?_ ?_) | refine keeps_onMain ?_ ?_
    | refine keeps_finishAll H4 ?_ | refine keeps_upQpn H5 ?_ | split | dsimp only

theorem keeps_execStoTargetUnreachable {P : State → Prop} {target : Nat} {s : State} (H : Keeps P 0x6c005d3) (h1 : P s) : ResAll P
    (execStoTargetUnreachable target s) := by
  have H1 : Keeps P 0x80 := H.mono rfl
  have H2 : Keeps P 0x500 := H.mono rfl
  have H3 : Keeps P 0x6c00553 := H.mono rfl
  unfold execStoTargetUnreachable
  with_reducible repeat' first
    | assumption | intro _ | refine res_next ?_ | refine keeps_foldl ?_ ?_ | refine keeps_upSto H1 ?_
    | refine res_get ‹_ = Host.Outcome.next _› (keeps_onMain ?_ ?_) | refine keeps_onMain ?_ ?_ | refine keeps_qpFree H2 ?_
    | refine keeps_finishAll H3 ?_ | split | dsimp only

theorem keeps_execQueueWaitExpiry {P : State → Prop} {queue : Nat} {s : State} (H : Keeps P 0x7c47557) (h1 : P s) : ResAll P
    (execQueueWaitExpiry queue s) := by
  have H1 : Keeps P 0x2000 := H.mono rfl
  have H2 : Keeps P 0x7c43117 := H.mono rfl
  unfold execQueueWaitExpiry
  with_reducible repeat' first
    | assumption | intro _ | refine res_next ?_ | refine res_get ‹_ = Host.Outcome.next _› (keeps_onMain ?_ ?_) | refine keeps_onMain ?_ ?_
    | refine keeps_tapKick H ?_ | refine keeps_queueRun H1 ?_ | refine keeps_queueSift H2 ?_ | split | dsimp only

theorem keeps_upJudge {P : State → Prop} {s : State} {tile : Nat} {f : Judge → Judge} (H : Keeps P 0x2000) (h0 : P s) : P (State.upJudge s
    tile f) := by
  unfold State.upJudge
  with_reducible repeat' first
    | assumption | intro _ | refine keeps_upTap H ?_ | split | dsimp only

theorem keeps_tapCombine {P : State → Prop} {s : State} {core : Nat} {it : TapItem} {rerun : Bool} (H : Keeps P 0x4c06151) (h0 : P s) : P
    (State.tapCombine s core it rerun) := by
  have H1 : Keeps P 0x2000 := H.mono rfl
  have H2 : Keeps P 0x4406111 := H.mono rfl
  have H3 : Keeps P 0x4802041 := H.mono rfl
  unfold State.tapCombine
  with_reducible repeat' first
    | assumption | intro _ | refine keeps_upTap H1 ?_ | refine keeps_repartition H2 ?_ | refine keeps_tapStart H3 ?_ | split | dsimp only

theorem keeps_upRep {P : State → Prop} {s : State} {v : Eval} {f : ChkRep → ChkRep} (H : Keeps P 0x2000) (h0 : P s) : P (State.upRep s v f)
    := by
  unfold State.upRep
  with_reducible repeat' first
    | assumption | intro _ | refine keeps_upRun H ?_ | split | dsimp only

theorem keeps_failRun {P : State → Prop} {s : State} {v : Eval} (H : Keeps P 0x7c43557) (h0 : P s) : P (State.failRun s v) := by
  have H1 : Keeps P 0x2000 := H.mono rfl
  have H2 : Keeps P 0x6c00553 := H.mono rfl
  have H3 : Keeps P 0x4400111 := H.mono rfl
  unfold State.failRun
  with_reducible repeat' first
    | assumption | intro _ | refine keeps_upTap H1 ?_ | refine keeps_replyRun H2 ?_ | refine keeps_queueRunDone H ?_
    | refine keeps_flag H3 ?_ ?_ | split | dsimp only

theorem keeps_tapDeliver {P : State → Prop} {s : State} {v : Eval} {tile : Nat} (H : Keeps P 0x480a004) (h0 : P s) : P (State.tapDeliver s v
    tile) := by
  unfold State.tapDeliver
  with_reducible repeat' first
    | assumption | intro _ | refine keeps_foldl ?_ ?_ | refine keeps_unitSend H ?_ | split | dsimp only

theorem keeps_tapCount {P : State → Prop} {s : State} {v : Eval} {core : Nat} {it : TapItem} (H : Keeps P 0x4406113) (h0 : P s) : P
    (State.tapCount s v core it) := by
  have H1 : Keeps P 0x4000 := H.mono rfl
  have H2 : Keeps P 0x4000112 := H.mono rfl
  have H3 : Keeps P 0x2000 := H.mono rfl
  have H4 : Keeps P 0x4400111 := H.mono rfl
  have H5 : Keeps P 0x4000000 := H.mono rfl
  unfold State.tapCount
  with_reducible repeat' first
    | assumption | intro _ | refine keeps_upTapc H1 ?_ | refine keeps_gctr H2 ?_ | refine keeps_upRun H3 ?_ | refine keeps_note H4 ?_
    | refine keeps_fnCtr H5 ?_ | refine keeps_withObs H4 ?_ ?_ | refine keeps_ao H5 ?_ | split | dsimp only

theorem keeps_putCells {P : State → Prop} {s : State} {v : Eval} {row : Nat} {c0 : Nat} {n : Nat} {cells : Bytes} (H : Keeps P 0x4802004)
    (h0 : P s) : P (State.putCells s v row c0 n cells) := by
  have H1 : Keeps P 0x2000 := H.mono rfl
  have H2 : Keeps P 0x4800004 := H.mono rfl
  unfold State.putCells
  with_reducible repeat' first
    | assumption | intro _ | refine keeps_upRun H1 ?_ | refine keeps_gWrite H2 ?_ | split | dsimp only

theorem keeps_tapWrite {P : State → Prop} {s : State} {v : Eval} {tile : Nat} {res : List Nat} (H : Keeps P 0x4802004) (h0 : P s) : P
    (State.tapWrite s v tile res) := by
  unfold State.tapWrite
  with_reducible repeat' first
    | assumption | intro _ | refine keeps_foldl ?_ ?_ | refine keeps_putCells H ?_ | split | dsimp only

theorem keeps_scratchUsed {P : State → Prop} {s : State} {v : Eval} (H : Keeps P 0x4800006) (h0 : P s) : P (State.scratchUsed s v) := by
  have H1 : Keeps P 0x4800004 := H.mono rfl
  have H2 : Keeps P 0x2 := H.mono rfl
  unfold State.scratchUsed
  with_reducible repeat' first
    | assumption | intro _ | refine keeps_gWrite H1 ?_ | refine keeps_spent H2 ?_ | split | dsimp only

theorem keeps_tapCommit {P : State → Prop} {s : State} {v : Eval} {core : Nat} {it : TapItem} {res : List Nat} {o : Option Outcome8} (H :
    Keeps P 0x4c06117) (h0 : P s) : P (State.tapCommit s v core it res o) := by
  have H1 : Keeps P 0x2000 := H.mono rfl
  have H2 : Keeps P 0x4800006 := H.mono rfl
  have H3 : Keeps P 0x4802004 := H.mono rfl
  have H4 : Keeps P 0x4406113 := H.mono rfl
  unfold State.tapCommit
  with_reducible repeat' first
    | assumption | intro _ | refine keeps_upTap H1 ?_ | refine keeps_scratchUsed H2 ?_ | refine keeps_tapWrite H3 ?_
    | refine keeps_tapCount H4 ?_ | refine keeps_upRep H1 ?_ | split | dsimp only

theorem keeps_tapFinish {P : State → Prop} {s : State} {v : Eval} {core : Nat} {it : TapItem} {res : List Nat} {o : Option Outcome8} (H :
    Keeps P 0x4c0e117) (h0 : P s) : P (State.tapFinish s v core it res o) := by
  have H1 : Keeps P 0x4c06117 := H.mono rfl
  have H2 : Keeps P 0x480a004 := H.mono rfl
  unfold State.tapFinish
  with_reducible repeat' first
    | assumption | intro _ | refine keeps_tapCommit H1 ?_ | refine keeps_tapDeliver H2 ?_ | split | dsimp only

theorem keeps_dataViolation {P : State → Prop} {s : State} {v : Eval} {core : Nat} {first : Nat} {it : TapItem} {o : Outcome8} (H : Keeps P
    0x7c4f557) (h0 : P s) : P (State.dataViolation s v core first it o) := by
  have H1 : Keeps P 0x2000 := H.mono rfl
  have H2 : Keeps P 0x4c0e117 := H.mono rfl
  have H3 : Keeps P 0x7c43557 := H.mono rfl
  have H4 : Keeps P 0x7c40113 := H.mono rfl
  have H5 : Keeps P 0x4400111 := H.mono rfl
  unfold State.dataViolation
  with_reducible repeat' first
    | assumption | intro _ | refine keeps_foldl ?_ ?_ | refine keeps_foldl_fst ?_ ?_ | refine keeps_foldl_snd ?_ ?_
    | refine opt_foldl ?_ ?_ | refine keeps_upTap H1 ?_ | refine keeps_tapFinish H2 ?_ | refine keeps_failRun H3 ?_
    | refine keeps_upRep H1 ?_ | refine keeps_upRun H1 ?_ | refine keeps_record H4 ?_ | refine keeps_flag H5 ?_ ?_ | split | dsimp only

theorem keeps_tapCharge {P : State → Prop} {s : State} {v : Eval} {core : Nat} (H : Keeps P 0x42000) (h0 : P s) : P (State.tapCharge s v
    core) := by
  have H1 : Keeps P 0x2000 := H.mono rfl
  have H2 : Keeps P 0x40000 := H.mono rfl
  unfold State.tapCharge
  with_reducible repeat' first
    | assumption | intro _ | refine keeps_upTap H1 ?_ | refine keeps_upRep H1 ?_ | refine keeps_charge H2 ?_ | split | dsimp only

theorem keeps_tapCharges {P : State → Prop} {s : State} {v : Eval} {l : List Nat} (H : Keeps P 0x42000) (h0 : P s) : P (State.tapCharges s v
    l) := by
  unfold State.tapCharges
  with_reducible repeat' first
    | assumption | intro _ | refine keeps_foldl ?_ ?_ | refine keeps_tapCharge H ?_ | split | dsimp only

theorem keeps_tapDecide {P : State → Prop} {s : State} {v : Eval} {j : Judge} {core : Nat} (H : Keeps P 0x7c4f557) (h0 : P s) : P
    (State.tapDecide s v j core) := by
  have H1 : Keeps P 0x2000 := H.mono rfl
  have H2 : Keeps P 0x42000 := H.mono rfl
  have H3 : Keeps P 0x4c0e117 := H.mono rfl
  have H4 : Keeps P 0x7c43557 := H.mono rfl
  unfold State.tapDecide
  with_reducible repeat' first
    | assumption | intro _ | refine keeps_upTap H1 ?_ | refine keeps_tapCharges H2 ?_ | refine keeps_dataViolation H ?_
    | refine keeps_tapFinish H3 ?_ | refine keeps_failRun H4 ?_ | refine keeps_upRep H1 ?_ | refine keeps_upJudge H1 ?_ | split
    | dsimp only

theorem keeps_tapAgain {P : State → Prop} {s : State} {v : Eval} {core : Nat} {it : TapItem} {res : List Nat} (H : Keeps P 0x7c4f557) (h0 :
    P s) : P (State.tapAgain s v core it res) := by
  have H1 : Keeps P 0x4000 := H.mono rfl
  have H2 : Keeps P 0x4c06151 := H.mono rfl
  have H3 : Keeps P 0x2000 := H.mono rfl
  unfold State.tapAgain
  with_reducible repeat' first
    | assumption | intro _ | refine keeps_foldl ?_ ?_ | refine keeps_foldl_fst ?_ ?_ | refine keeps_foldl_snd ?_ ?_
    | refine keeps_upTapc H1 ?_ | refine keeps_tapDecide H ?_ | refine keeps_tapCombine H2 ?_ | refine keeps_upJudge H3 ?_ | split
    | dsimp only

theorem keeps_tapViolate {P : State → Prop} {s : State} {v : Eval} {core : Nat} {it : TapItem} {o : Outcome8} (H : Keeps P 0x4402111) (h0 :
    P s) : P (State.tapViolate s v core it o) := by
  have H1 : Keeps P 0x2000 := H.mono rfl
  have H2 : Keeps P 0x4400111 := H.mono rfl
  unfold State.tapViolate
  with_reducible repeat' first
    | assumption | intro _ | refine keeps_upTap H1 ?_ | refine keeps_upRep H1 ?_ | refine keeps_flag H2 ?_ ?_ | split | dsimp only

theorem keeps_tapFirst {P : State → Prop} {s : State} {v : Eval} {core : Nat} {it : TapItem} {res : List Nat} (H : Keeps P 0x4c0e157) (h0 :
    P s) : P (State.tapFirst s v core it res) := by
  have H1 : Keeps P 0x2000 := H.mono rfl
  have H2 : Keeps P 0x4402111 := H.mono rfl
  have H3 : Keeps P 0x4c0e117 := H.mono rfl
  have H4 : Keeps P 0x4800006 := H.mono rfl
  have H5 : Keeps P 0x4406113 := H.mono rfl
  have H6 : Keeps P 0x4c06151 := H.mono rfl
  unfold State.tapFirst
  with_reducible repeat' first
    | assumption | intro _ | refine keeps_upTap H1 ?_ | refine keeps_tapViolate H2 ?_ | refine keeps_tapFinish H3 ?_
    | refine keeps_scratchUsed H4 ?_ | refine keeps_tapCount H5 ?_ | refine keeps_upRep H1 ?_ | refine keeps_tapCombine H6 ?_ | split
    | dsimp only

theorem keeps_tapSlice {P : State → Prop} {s : State} {core : Nat} {cycles : Nat} {ups : List (Nat × Nat)} (H : Keeps P 0x7c4f557) (h0 : P
    s) : P (State.tapSlice s core cycles ups) := by
  have H1 : Keeps P 0x2000 := H.mono rfl
  have H2 : Keeps P 0x4c0e157 := H.mono rfl
  have H3 : Keeps P 0x7c4b557 := H.mono rfl
  have H4 : Keeps P 0x4004000 := H.mono rfl
  have H5 : Keeps P 0x7c47557 := H.mono rfl
  have H6 : Keeps P 0x4802041 := H.mono rfl
  have H7 : Keeps P 0x2 := H.mono rfl
  unfold State.tapSlice
  with_reducible repeat' first
    | assumption | intro _ | refine keeps_upTap H1 ?_ | refine keeps_tapFirst H2 ?_ | refine keeps_tapAgain H ?_
    | refine keeps_opDone H3 ?_ | refine keeps_tapBusy H4 ?_ | refine keeps_tapLeaves H1 ?_ | refine keeps_tapKick H5 ?_
    | refine keeps_tapFill H6 ?_ | refine keeps_tapNext H6 ?_ | refine keeps_spent H7 ?_ | split | dsimp only

theorem keeps_execSliceComplete {P : State → Prop} {core : Nat} {cycles : Nat} {upsets : Upsets} {s : State} (H : Keeps P 0x7c4f557) (h3 : P
    s) : ResAll P (execSliceComplete core cycles upsets s) := by
  unfold execSliceComplete
  with_reducible repeat' first
    | assumption | intro _ | refine res_next ?_ | refine keeps_tapSlice H ?_
    | refine res_get ‹_ = Host.Outcome.next _› (keeps_onMain ?_ ?_) | refine keeps_onMain ?_ ?_ | split | dsimp only

theorem keeps_execSliceOverrun {P : State → Prop} {core : Nat} {s : State} (H : Keeps P 0x7c47557) (h1 : P s) : ResAll P (execSliceOverrun
    core s) := by
  have H1 : Keeps P 0x2000 := H.mono rfl
  have H2 : Keeps P 0x4006000 := H.mono rfl
  have H3 : Keeps P 0x4406111 := H.mono rfl
  have H4 : Keeps P 0x4802041 := H.mono rfl
  have H5 : Keeps P 0x40000 := H.mono rfl
  have H6 : Keeps P 0x4400111 := H.mono rfl
  unfold execSliceOverrun
  with_reducible repeat' first
    | assumption | intro _ | refine res_next ?_ | exact opt_none | refine opt_some ?_ | refine opt_map2 (P := P) ?_ ?_ | refine opt_map ?_
    | refine keeps_upTap H1 ?_ | refine eq_snd ‹_ = _› (keeps_tapAbandon H2 ?_) | refine keeps_tapAbandon H2 ?_
    | refine res_get ‹_ = Host.Outcome.next _› (keeps_onMainIf ?_ ?_) | refine keeps_onMainIf ?_ ?_ | refine keeps_tapLeaves H1 ?_
    | refine keeps_tapKick H ?_ | refine keeps_repartition H3 ?_ | refine keeps_tapFill H4 ?_ | refine keeps_charge H5 ?_
    | refine keeps_flag H6 ?_ ?_ | split | dsimp only

theorem keeps_execVfTrackStart {P : State → Prop} {h : Hdr} {p : Bytes} {s : State} (H : Keeps P 0x6c00557) (h2 : P s) : ResAll P
    (execVfTrackStart h p s) := by
  have H1 : Keeps P 0x800000 := H.mono rfl
  unfold execVfTrackStart
  with_reducible repeat' first
    | assumption | intro _ | refine res_next ?_ | refine keeps_opVfTrack H1
    | refine res_get ‹_ = Host.Outcome.next _› (keeps_runPkt H ?_ ?_) | refine keeps_runPkt H ?_ ?_ | split | dsimp only

theorem keeps_execVfTrackSync {P : State → Prop} {h : Hdr} {p : Bytes} {s : State} (H : Keeps P 0x6c00557) (h2 : P s) : ResAll P
    (execVfTrackSync h p s) := by
  have H1 : Keeps P 0x800000 := H.mono rfl
  unfold execVfTrackSync
  with_reducible repeat' first
    | assumption | intro _ | refine res_next ?_ | refine keeps_opVfTrack H1
    | refine res_get ‹_ = Host.Outcome.next _› (keeps_runPkt H ?_ ?_) | refine keeps_runPkt H ?_ ?_ | split | dsimp only

theorem keeps_execVfTrackStop {P : State → Prop} {h : Hdr} {p : Bytes} {s : State} (H : Keeps P 0x6c00557) (h2 : P s) : ResAll P
    (execVfTrackStop h p s) := by
  have H1 : Keeps P 0x800000 := H.mono rfl
  unfold execVfTrackStop
  with_reducible repeat' first
    | assumption | intro _ | refine res_next ?_ | refine keeps_opVfTrack H1
    | refine res_get ‹_ = Host.Outcome.next _› (keeps_runPkt H ?_ ?_) | refine keeps_runPkt H ?_ ?_ | split | dsimp only

theorem keeps_execVfFrozen {P : State → Prop} {vf : Nat} {s : State} (H : Keeps P 0x6c00553) (h1 : P s) : ResAll P (execVfFrozen vf s) := by
  have H1 : Keeps P 0x800000 := H.mono rfl
  unfold execVfFrozen
  with_reducible repeat' first
    | assumption | intro _ | refine res_next ?_ | refine res_get ‹_ = Host.Outcome.next _› (keeps_onMainIf ?_ ?_)
    | refine keeps_onMainIf ?_ ?_ | refine keeps_upVf H1 ?_ | refine keeps_finishAll H ?_ | split | dsimp only

theorem keeps_execVfFreezeDrainLimit {P : State → Prop} {vf : Nat} {s : State} (H : Keeps P 0x7c4f5d7) (h1 : P s) : ResAll P
    (execVfFreezeDrainLimit vf s) := by
  have H1 : Keeps P 0x6c00553 := H.mono rfl
  unfold execVfFreezeDrainLimit
  with_reducible repeat' first
    | assumption | intro _ | refine res_next ?_ | refine keeps_vfRelease H ?_
    | refine res_get ‹_ = Host.Outcome.next _› (keeps_onMainIf ?_ ?_) | refine keeps_onMainIf ?_ ?_ | refine keeps_finishAll H1 ?_ | split
    | dsimp only

theorem keeps_execVfSavePrecopy {P : State → Prop} {h : Hdr} {p : Bytes} {s : State} (H : Keeps P 0x6c00557) (h2 : P s) : ResAll P
    (execVfSavePrecopy h p s) := by
  have H1 : Keeps P 0x4800001 := H.mono rfl
  unfold execVfSavePrecopy
  with_reducible repeat' first
    | assumption | intro _ | refine res_next ?_ | refine keeps_opVfSave H1
    | refine res_get ‹_ = Host.Outcome.next _› (keeps_runPkt H ?_ ?_) | refine keeps_runPkt H ?_ ?_ | split | dsimp only

theorem keeps_execVfSaveFinal {P : State → Prop} {h : Hdr} {p : Bytes} {s : State} (H : Keeps P 0x6c00557) (h2 : P s) : ResAll P
    (execVfSaveFinal h p s) := by
  have H1 : Keeps P 0x4800001 := H.mono rfl
  unfold execVfSaveFinal
  with_reducible repeat' first
    | assumption | intro _ | refine res_next ?_ | refine keeps_opVfSave H1
    | refine res_get ‹_ = Host.Outcome.next _› (keeps_runPkt H ?_ ?_) | refine keeps_runPkt H ?_ ?_ | split | dsimp only

end Sys2Proof.Laws
end

