-- ==== Sys2Proof/Laws/Frames.lean ====
section
/-!
SUPPORT. Frames: an operation that changes the parts of a mask leaves every other part as it was.
-/
namespace Sys2Proof.Laws

open Sys2Proof Sys2Proof.Machine Sys2Proof.Safety

/-- The parts that a reset of the main domain, or of the always-on domain, reaches. -/
def resetParts : List Piece :=
  [.glb, .gddr, .aon, .cue, .cmd, .sto, .net, .hed, .ctx, .cip, .shu, .tap, .tapc, .loom, .feed, .lat, .ras, .ckp, .stg, .onb, .call,
   .host, .sm, .obs, .pwr]

/-- The parts that one elementary change reaches. -/
def effect : Nat → List Piece
  | 0 => [.out]
  | 1 => [.free]
  | 2 => [.gddr]
  | 3 => [.glb]
  | 4 => [.aon]
  | 5 => [.cue]
  | 6 => [.cmd]
  | 7 => [.sto]
  | 8 => [.net]
  | 9 => [.hed]
  | 10 => [.ctx]
  | 11 => [.cip]
  | 12 => [.shu]
  | 13 => [.tap]
  | 14 => [.tapc]
  | 15 => [.loom]
  | 16 => [.feed]
  | 17 => [.lat]
  | 18 => [.ras]
  | 19 => [.ckp]
  | 20 => [.stg]
  | 21 => [.onb]
  | 22 => [.call]
  | 23 => [.host]
  | 24 => [.flash]
  | 25 => [.sm]
  | 26 => [.obs]
  | 27 => [.pwr]
  | 28 => resetParts
  | 29 => resetParts
  | _ => []

theorem onlyChanges_refl (ps : List Piece) (s : State) : onlyChanges ps s s := ⟨rfl, fun p _ => by cases p <;> rfl⟩

theorem only_upGlb {ps : List Piece} {s t : State} {f} (hp : Piece.glb ∈ ps) (h : onlyChanges ps s t) : onlyChanges ps s (State.upGlb t f) :=
  ⟨h.1, fun p hq => by cases p <;> first | exact h.2 _ hq | exact absurd hp hq⟩
theorem only_upAon {ps : List Piece} {s t : State} {f} (hp : Piece.aon ∈ ps) (h : onlyChanges ps s t) : onlyChanges ps s (State.upAon t f) :=
  ⟨h.1, fun p hq => by cases p <;> first | exact h.2 _ hq | exact absurd hp hq⟩
theorem only_upCue {ps : List Piece} {s t : State} {f} (hp : Piece.cue ∈ ps) (h : onlyChanges ps s t) : onlyChanges ps s (State.upCue t f) :=
  ⟨h.1, fun p hq => by cases p <;> first | exact h.2 _ hq | exact absurd hp hq⟩
theorem only_upCmd {ps : List Piece} {s t : State} {f} (hp : Piece.cmd ∈ ps) (h : onlyChanges ps s t) : onlyChanges ps s (State.upCmd t f) :=
  ⟨h.1, fun p hq => by cases p <;> first | exact h.2 _ hq | exact absurd hp hq⟩
theorem only_upSto {ps : List Piece} {s t : State} {f} (hp : Piece.sto ∈ ps) (h : onlyChanges ps s t) : onlyChanges ps s (State.upSto t f) :=
  ⟨h.1, fun p hq => by cases p <;> first | exact h.2 _ hq | exact absurd hp hq⟩
theorem only_upNet {ps : List Piece} {s t : State} {f} (hp : Piece.net ∈ ps) (h : onlyChanges ps s t) : onlyChanges ps s (State.upNet t f) :=
  ⟨h.1, fun p hq => by cases p <;> first | exact h.2 _ hq | exact absurd hp hq⟩
theorem only_upHed {ps : List Piece} {s t : State} {f} (hp : Piece.hed ∈ ps) (h : onlyChanges ps s t) : onlyChanges ps s (State.upHed t f) :=
  ⟨h.1, fun p hq => by cases p <;> first | exact h.2 _ hq | exact absurd hp hq⟩
theorem only_upCtx {ps : List Piece} {s t : State} {f} (hp : Piece.ctx ∈ ps) (h : onlyChanges ps s t) : onlyChanges ps s (State.upCtx t f) :=
  ⟨h.1, fun p hq => by cases p <;> first | exact h.2 _ hq | exact absurd hp hq⟩
theorem only_upCip {ps : List Piece} {s t : State} {f} (hp : Piece.cip ∈ ps) (h : onlyChanges ps s t) : onlyChanges ps s (State.upCip t f) :=
  ⟨h.1, fun p hq => by cases p <;> first | exact h.2 _ hq | exact absurd hp hq⟩
theorem only_upShu {ps : List Piece} {s t : State} {f} (hp : Piece.shu ∈ ps) (h : onlyChanges ps s t) : onlyChanges ps s (State.upShu t f) :=
  ⟨h.1, fun p hq => by cases p <;> first | exact h.2 _ hq | exact absurd hp hq⟩
theorem only_upTap {ps : List Piece} {s t : State} {f} (hp : Piece.tap ∈ ps) (h : onlyChanges ps s t) : onlyChanges ps s (State.upTap t f) :=
  ⟨h.1, fun p hq => by cases p <;> first | exact h.2 _ hq | exact absurd hp hq⟩
theorem only_upTapc {ps : List Piece} {s t : State} {f} (hp : Piece.tapc ∈ ps) (h : onlyChanges ps s t) : onlyChanges ps s (State.upTapc t f) :=
  ⟨h.1, fun p hq => by cases p <;> first | exact h.2 _ hq | exact absurd hp hq⟩
theorem only_upLoom {ps : List Piece} {s t : State} {f} (hp : Piece.loom ∈ ps) (h : onlyChanges ps s t) : onlyChanges ps s (State.upLoom t f) :=
  ⟨h.1, fun p hq => by cases p <;> first | exact h.2 _ hq | exact absurd hp hq⟩
theorem only_upFeed {ps : List Piece} {s t : State} {f} (hp : Piece.feed ∈ ps) (h : onlyChanges ps s t) : onlyChanges ps s (State.upFeed t f) :=
  ⟨h.1, fun p hq => by cases p <;> first | exact h.2 _ hq | exact absurd hp hq⟩
theorem only_upLat {ps : List Piece} {s t : State} {f} (hp : Piece.lat ∈ ps) (h : onlyChanges ps s t) : onlyChanges ps s (State.upLat t f) :=
  ⟨h.1, fun p hq => by cases p <;> first | exact h.2 _ hq | exact absurd hp hq⟩
theorem only_upRas {ps : List Piece} {s t : State} {f} (hp : Piece.ras ∈ ps) (h : onlyChanges ps s t) : onlyChanges ps s (State.upRas t f) :=
  ⟨h.1, fun p hq => by cases p <;> first | exact h.2 _ hq | exact absurd hp hq⟩
theorem only_upCkp {ps : List Piece} {s t : State} {f} (hp : Piece.ckp ∈ ps) (h : onlyChanges ps s t) : onlyChanges ps s (State.upCkp t f) :=
  ⟨h.1, fun p hq => by cases p <;> first | exact h.2 _ hq | exact absurd hp hq⟩
theorem only_upStg {ps : List Piece} {s t : State} {f} (hp : Piece.stg ∈ ps) (h : onlyChanges ps s t) : onlyChanges ps s (State.upStg t f) :=
  ⟨h.1, fun p hq => by cases p <;> first | exact h.2 _ hq | exact absurd hp hq⟩
theorem only_upOnb {ps : List Piece} {s t : State} {f} (hp : Piece.onb ∈ ps) (h : onlyChanges ps s t) : onlyChanges ps s (State.upOnb t f) :=
  ⟨h.1, fun p hq => by cases p <;> first | exact h.2 _ hq | exact absurd hp hq⟩
theorem only_upCall {ps : List Piece} {s t : State} {f} (hp : Piece.call ∈ ps) (h : onlyChanges ps s t) : onlyChanges ps s (State.upCall t f) :=
  ⟨h.1, fun p hq => by cases p <;> first | exact h.2 _ hq | exact absurd hp hq⟩
theorem only_upHost {ps : List Piece} {s t : State} {f} (hp : Piece.host ∈ ps) (h : onlyChanges ps s t) : onlyChanges ps s (State.upHost t f) :=
  ⟨h.1, fun p hq => by cases p <;> first | exact h.2 _ hq | exact absurd hp hq⟩
theorem only_upFlash {ps : List Piece} {s t : State} {f} (hp : Piece.flash ∈ ps) (h : onlyChanges ps s t) : onlyChanges ps s (State.upFlash t f) :=
  ⟨h.1, fun p hq => by cases p <;> first | exact h.2 _ hq | exact absurd hp hq⟩
theorem only_upSm {ps : List Piece} {s t : State} {f} (hp : Piece.sm ∈ ps) (h : onlyChanges ps s t) : onlyChanges ps s (State.upSm t f) :=
  ⟨h.1, fun p hq => by cases p <;> first | exact h.2 _ hq | exact absurd hp hq⟩
theorem only_upObs {ps : List Piece} {s t : State} {f} (hp : Piece.obs ∈ ps) (h : onlyChanges ps s t) : onlyChanges ps s (State.upObs t f) :=
  ⟨h.1, fun p hq => by cases p <;> first | exact h.2 _ hq | exact absurd hp hq⟩
theorem only_upPwr {ps : List Piece} {s t : State} {f} (hp : Piece.pwr ∈ ps) (h : onlyChanges ps s t) : onlyChanges ps s (State.upPwr t f) :=
  ⟨h.1, fun p hq => by cases p <;> first | exact h.2 _ hq | exact absurd hp hq⟩
theorem only_upOut {ps : List Piece} {s t : State} {f} (hp : Piece.out ∈ ps) (h : onlyChanges ps s t) : onlyChanges ps s (State.upOut t f) :=
  ⟨h.1, fun p hq => by cases p <;> first | exact h.2 _ hq | exact absurd hp hq⟩
theorem only_upFree {ps : List Piece} {s t : State} {f} (hp : Piece.free ∈ ps) (h : onlyChanges ps s t) : onlyChanges ps s (State.upFree t f) :=
  ⟨h.1, fun p hq => by cases p <;> first | exact h.2 _ hq | exact absurd hp hq⟩
theorem only_upGddr {ps : List Piece} {s t : State} {f} (hp : Piece.gddr ∈ ps) (h : onlyChanges ps s t) : onlyChanges ps s (State.upGddr t f) :=
  ⟨h.1, fun p hq => by cases p <;> first | exact h.2 _ hq | exact absurd hp hq⟩
theorem only_mainFresh {ps : List Piece} {s t : State} (hp : ∀ p ∈ resetParts, p ∈ ps) (h : onlyChanges ps s t) : onlyChanges ps s t.mainFresh :=
  ⟨h.1, fun p hq => by cases p <;> first | exact h.2 _ hq | exact absurd (hp _ (by decide)) hq⟩
theorem only_allFresh {ps : List Piece} {s t : State} {on : Bool} (hp : ∀ p ∈ resetParts, p ∈ ps) (h : onlyChanges ps s t) :
    onlyChanges ps s (t.allFresh on) :=
  ⟨h.1, fun p hq => by cases p <;> first | exact h.2 _ hq | exact absurd (hp _ (by decide)) hq⟩

/-- The elementary changes of a mask reach the listed parts at most. -/
def reach (m : Nat) (ps : List Piece) : Bool := (List.range 30).all (fun k => !m.testBit k || (effect k).all (fun p => ps.contains p))

theorem closed_only {ps : List Piece} {s : State} {k : Nat} (h : ∀ p ∈ effect k, p ∈ ps) : Closed (onlyChanges ps s) k := by
  match k with
  | 0 => exact fun _ _ => only_upOut (h _ (by decide))
  | 1 => exact fun _ _ => only_upFree (h _ (by decide))
  | 2 => exact ⟨fun _ _ _ => only_upGddr (h _ (by decide)), fun _ _ _ => only_upGddr (h _ (by decide))⟩
  | 3 => exact fun _ _ => only_upGlb (h _ (by decide))
  | 4 => exact fun _ _ => only_upAon (h _ (by decide))
  | 5 => exact fun _ _ => only_upCue (h _ (by decide))
  | 6 => exact fun _ _ => only_upCmd (h _ (by decide))
  | 7 => exact fun _ _ => only_upSto (h _ (by decide))
  | 8 => exact fun _ _ => only_upNet (h _ (by decide))
  | 9 => exact fun _ _ => only_upHed (h _ (by decide))
  | 10 => exact fun _ _ => only_upCtx (h _ (by decide))
  | 11 => exact fun _ _ => only_upCip (h _ (by decide))
  | 12 => exact fun _ _ => only_upShu (h _ (by decide))
  | 13 => exact fun _ _ => only_upTap (h _ (by decide))
  | 14 => exact fun _ _ => only_upTapc (h _ (by decide))
  | 15 => exact fun _ _ => only_upLoom (h _ (by decide))
  | 16 => exact fun _ _ => only_upFeed (h _ (by decide))
  | 17 => exact fun _ _ => only_upLat (h _ (by decide))
  | 18 => exact fun _ _ => only_upRas (h _ (by decide))
  | 19 => exact fun _ _ => only_upCkp (h _ (by decide))
  | 20 => exact fun _ _ => only_upStg (h _ (by decide))
  | 21 => exact fun _ _ => only_upOnb (h _ (by decide))
  | 22 => exact fun _ _ => only_upCall (h _ (by decide))
  | 23 => exact fun _ _ => only_upHost (h _ (by decide))
  | 24 => exact fun _ _ => only_upFlash (h _ (by decide))
  | 25 => exact fun _ _ => only_upSm (h _ (by decide))
  | 26 => exact fun _ _ => only_upObs (h _ (by decide))
  | 27 => exact fun _ _ => only_upPwr (h _ (by decide))
  | 28 => exact fun _ => only_mainFresh h
  | 29 => exact fun _ _ => only_allFresh h
  | _ + 30 => trivial

theorem keeps_only {m : Nat} {ps : List Piece} {s : State} (hm : m < 2 ^ 30) (e : reach m ps = true) : Keeps (onlyChanges ps s) m := fun k hk => by
  have hk' : k < 30 := Decidable.byContradiction fun q => by
    rw [Nat.testBit_lt_two_pow (Nat.lt_of_lt_of_le hm (Nat.pow_le_pow_right (by decide) (Nat.not_lt.mp q)))] at hk
    cases hk
  have := List.all_eq_true.mp e k (List.mem_range.mpr hk')
  rw [hk] at this
  exact closed_only (by simpa using this)

/-- A command whose meaning keeps what the mask allows changes only the parts that the mask reaches. -/
theorem changes_of {f : State → Res} {m : Nat} {ps : List Piece} (hm : m < 2 ^ 30) (e : reach m ps = true)
    (h : ∀ (P : State → Prop) (s : State), Keeps P m → P s → ResAll P (f s)) : changesOnly f ps := fun s t ht =>
  (h (onlyChanges ps s) s (keeps_only hm e) (onlyChanges_refl ps s)).get t ht

end Sys2Proof.Laws
end

