-- ==== Sys2Proof/Laws/KeepsExec.lean ====
section
/-!
SUPPORT. What every command keeps: a property closed under every elementary change is kept by every command and by every step.
-/
namespace Sys2Proof.Laws

open Sys2Proof Sys2Proof.Machine Sys2Proof.Safety

/-- Every command keeps a property that is closed under the elementary changes. -/
theorem keeps_exec {P : State → Prop} {s : State} (H : Keeps P 0x3FFFFFFF) (h : P s) : ∀ i, ResAll P (exec i s)
  | .registerWrite _ => keeps_execRegisterWrite (H.mono rfl) h
  | .bar2Access _ => keeps_execBar2Access (H.mono rfl) h
  | .setPartitions _ _ => keeps_execSetPartitions (H.mono rfl) h
  | .setCueSource _ _ => keeps_execSetCueSource (H.mono rfl) h
  | .positionFrame _ _ => keeps_execPositionFrame (H.mono rfl) h
  | .epochFrame _ _ => keeps_execEpochFrame (H.mono rfl) h
  | .ethCueFrame _ => keeps_execEthCueFrame (H.mono rfl) h
  | .cueSwPosWrite _ => keeps_execCueSwPosWrite (H.mono rfl) h
  | .cueInterpolate _ => keeps_execCueInterpolate (H.mono rfl) h
  | .cueHoldoverTimeout => keeps_execCueHoldoverTimeout (H.mono rfl) h
  | .cueHoldExpiry => keeps_execCueHoldExpiry (H.mono rfl) h
  | .cueFrameEmit => keeps_execCueFrameEmit (H.mono rfl) h
  | .pathDelayEcho => keeps_execPathDelayEcho (H.mono rfl) h
  | .echoReadResponse => keeps_execEchoReadResponse (H.mono rfl) h
  | .cueEventSet _ _ => keeps_execCueEventSet (H.mono rfl) h
  | .cueEventClear _ _ => keeps_execCueEventClear (H.mono rfl) h
  | .cueEventFire => keeps_execCueEventFire (H.mono rfl) h
  | .ptmExchange _ => keeps_execPtmExchange (H.mono rfl) h
  | .sqTailWrite _ _ _ => keeps_execSqTailWrite (H.mono rfl) h
  | .cqHeadWrite _ _ _ => keeps_execCqHeadWrite (H.mono rfl) h
  | .cmdCtrlEnSet _ => keeps_execCmdCtrlEnSet (H.mono rfl) h
  | .cmdCtrlEnClear _ => keeps_execCmdCtrlEnClear (H.mono rfl) h
  | .nop _ _ => keeps_execNop (H.mono rfl) h
  | .openSession _ _ => keeps_execOpenSession (H.mono rfl) h
  | .closeSession _ _ => keeps_execCloseSession (H.mono rfl) h
  | .setRoleKey _ _ => keeps_execSetRoleKey (H.mono rfl) h
  | .createQueuePair _ _ => keeps_execCreateQueuePair (H.mono rfl) h
  | .deleteQueuePair _ _ => keeps_execDeleteQueuePair (H.mono rfl) h
  | .intermissionBegin _ _ => keeps_execIntermissionBegin (H.mono rfl) h
  | .intermissionDrained _ => keeps_execIntermissionDrained (H.mono rfl) h
  | .drainLimitExpiry _ => keeps_execDrainLimitExpiry (H.mono rfl) h
  | .intermissionEnd _ _ => keeps_execIntermissionEnd (H.mono rfl) h
  | .intermissionAtReached _ => keeps_execIntermissionAtReached (H.mono rfl) h
  | .getState _ _ => keeps_execGetState (H.mono rfl) h
  | .abort _ _ => keeps_execAbort (H.mono rfl) h
  | .lockoutExpiry _ => keeps_execLockoutExpiry (H.mono rfl) h
  | .forwardedCommand _ _ _ _ _ => keeps_execForwardedCommand (H.mono rfl) h
  | .troupeMemberReply _ _ => keeps_execTroupeMemberReply (H.mono rfl) h
  | .troupeTimeout _ => keeps_execTroupeTimeout (H.mono rfl) h
  | .nvmeCcEnable _ _ => keeps_execNvmeCcEnable (H.mono rfl) h
  | .nvmeCcDisable _ x1 => keeps_execNvmeCcDisable (x1 := x1) (H.mono rfl) h
  | .nvmeShutdown _ _ => keeps_execNvmeShutdown (H.mono rfl) h
  | .nvmeSqDoorbell _ _ _ => keeps_execNvmeSqDoorbell (H.mono rfl) h
  | .nvmeCqDoorbell _ _ _ => keeps_execNvmeCqDoorbell (H.mono rfl) h
  | .deleteIoSq _ => keeps_execDeleteIoSq (H.mono rfl) h
  | .createIoSq _ => keeps_execCreateIoSq (H.mono rfl) h
  | .getLogPage _ => keeps_execGetLogPage (H.mono rfl) h
  | .deleteIoCq _ => keeps_execDeleteIoCq (H.mono rfl) h
  | .createIoCq _ => keeps_execCreateIoCq (H.mono rfl) h
  | .identify _ => keeps_execIdentify (H.mono rfl) h
  | .nvmeAbort _ => keeps_execNvmeAbort (H.mono rfl) h
  | .setFeatures _ => keeps_execSetFeatures (H.mono rfl) h
  | .getFeatures _ => keeps_execGetFeatures (H.mono rfl) h
  | .asyncEventRequest _ => keeps_execAsyncEventRequest (H.mono rfl) h
  | .flush _ => keeps_execFlush (H.mono rfl) h
  | .write _ => keeps_execWrite (H.mono rfl) h
  | .read _ => keeps_execRead (H.mono rfl) h
  | .writeZeroes _ => keeps_execWriteZeroes (H.mono rfl) h
  | .datasetManagement _ => keeps_execDatasetManagement (H.mono rfl) h
  | .writeBufferAdmit => keeps_execWriteBufferAdmit (H.mono rfl) h
  | .wbDrainStart => keeps_execWbDrainStart (H.mono rfl) h
  | .wbDrainComplete _ _ => keeps_execWbDrainComplete (H.mono rfl) h
  | .remoteReadComplete _ _ => keeps_execRemoteReadComplete (H.mono rfl) h
  | .remoteCommandFail _ _ => keeps_execRemoteCommandFail (H.mono rfl) h
  | .connectTarget _ _ => keeps_execConnectTarget (H.mono rfl) h
  | .targetAssociated _ => keeps_execTargetAssociated (H.mono rfl) h
  | .disconnectTarget _ _ => keeps_execDisconnectTarget (H.mono rfl) h
  | .attachNamespace _ _ _ => keeps_execAttachNamespace (H.mono rfl) h
  | .detachNamespace _ _ => keeps_execDetachNamespace (H.mono rfl) h
  | .setNsMode _ _ => keeps_execSetNsMode (H.mono rfl) h
  | .setWbQuota _ _ => keeps_execSetWbQuota (H.mono rfl) h
  | .getNsStatus _ _ => keeps_execGetNsStatus (H.mono rfl) h
  | .discardDirty _ _ => keeps_execDiscardDirty (H.mono rfl) h
  | .linkUp _ => keeps_execLinkUp (H.mono rfl) h
  | .linkDown _ => keeps_execLinkDown (H.mono rfl) h
  | .fecDegrade _ _ => keeps_execFecDegrade (H.mono rfl) h
  | .frameReceived _ _ _ _ => keeps_execFrameReceived (H.mono rfl) h
  | .frameRecirculate _ => keeps_execFrameRecirculate (H.mono rfl) h
  | .rdmaWriteReceived _ => keeps_execRdmaWriteReceived (H.mono rfl) h
  | .rdmaReadRequest _ => keeps_execRdmaReadRequest (H.mono rfl) h
  | .rdmaReadResponse _ => keeps_execRdmaReadResponse (H.mono rfl) h
  | .ackReceived _ => keeps_execAckReceived (H.mono rfl) h
  | .cnpReceived _ => keeps_execCnpReceived (H.mono rfl) h
  | .qpAckTimeout _ => keeps_execQpAckTimeout (H.mono rfl) h
  | .sprayAckTimer _ => keeps_execSprayAckTimer (H.mono rfl) h
  | .qpRecoveryStart _ => keeps_execQpRecoveryStart (H.mono rfl) h
  | .recoverSendTimer _ => keeps_execRecoverSendTimer (H.mono rfl) h
  | .recoverReceived _ => keeps_execRecoverReceived (H.mono rfl) h
  | .recoveryAttemptTimeout _ => keeps_execRecoveryAttemptTimeout (H.mono rfl) h
  | .recoveryRetry _ => keeps_execRecoveryRetry (H.mono rfl) h
  | .pathDown _ _ => keeps_execPathDown (H.mono rfl) h
  | .pathProbe _ _ _ => keeps_execPathProbe (H.mono rfl) h
  | .netEvqHeadWrite _ => keeps_execNetEvqHeadWrite (H.mono rfl) h
  | .cmReqReceived _ _ => keeps_execCmReqReceived (H.mono rfl) h
  | .cmRepReceived _ _ => keeps_execCmRepReceived (H.mono rfl) h
  | .setPortMode _ _ => keeps_execSetPortMode (H.mono rfl) h
  | .getPortStatus _ _ => keeps_execGetPortStatus (H.mono rfl) h
  | .createQp _ _ => keeps_execCreateQp (H.mono rfl) h
  | .modifyQp _ _ => keeps_execModifyQp (H.mono rfl) h
  | .destroyQp _ _ => keeps_execDestroyQp (H.mono rfl) h
  | .queryQp _ _ => keeps_execQueryQp (H.mono rfl) h
  | .setEventQueue _ _ => keeps_execSetEventQueue (H.mono rfl) h
  | .registerRegion _ _ => keeps_execRegisterRegion (H.mono rfl) h
  | .deregisterRegion _ _ => keeps_execDeregisterRegion (H.mono rfl) h
  | .troupeAddMember _ _ => keeps_execTroupeAddMember (H.mono rfl) h
  | .troupeRemoveMember _ _ => keeps_execTroupeRemoveMember (H.mono rfl) h
  | .setContextReserve _ _ => keeps_execSetContextReserve (H.mono rfl) h
  | .hedLoadGraph _ _ => keeps_execHedLoadGraph (H.mono rfl) h
  | .hedSetTable _ _ => keeps_execHedSetTable (H.mono rfl) h
  | .hedAddEntry _ _ => keeps_execHedAddEntry (H.mono rfl) h
  | .hedDelEntry _ _ => keeps_execHedDelEntry (H.mono rfl) h
  | .setPacketRing _ _ => keeps_execSetPacketRing (H.mono rfl) h
  | .flowAgeExpiry _ => keeps_execFlowAgeExpiry (H.mono rfl) h
  | .contextError _ => keeps_execContextError (H.mono rfl) h
  | .cipAssignPages _ _ => keeps_execCipAssignPages (H.mono rfl) h
  | .cipLoadKey _ _ => keeps_execCipLoadKey (H.mono rfl) h
  | .cipClearPage _ _ => keeps_execCipClearPage (H.mono rfl) h
  | .cipCrypt _ _ => keeps_execCipCrypt (H.mono rfl) h
  | .cipherUnitDone _ _ => keeps_execCipherUnitDone (H.mono rfl) h
  | .espLaneTimeout _ => keeps_execEspLaneTimeout (H.mono rfl) h
  | .drbgReseed _ => keeps_execDrbgReseed (H.mono rfl) h
  | .shuOpenStream _ _ => keeps_execShuOpenStream (H.mono rfl) h
  | .shuCloseStream _ _ => keeps_execShuCloseStream (H.mono rfl) h
  | .shuFeed _ _ => keeps_execShuFeed (H.mono rfl) h
  | .shuGetStream _ _ => keeps_execShuGetStream (H.mono rfl) h
  | .shuSetPolicy _ _ => keeps_execShuSetPolicy (H.mono rfl) h
  | .shuReturnOutput _ _ => keeps_execShuReturnOutput (H.mono rfl) h
  | .shuSetMel _ _ => keeps_execShuSetMel (H.mono rfl) h
  | .streamInputRead _ _ _ => keeps_execStreamInputRead (H.mono rfl) h
  | .pictureDecoded _ _ => keeps_execPictureDecoded (H.mono rfl) h
  | .audioFrameDecoded _ _ => keeps_execAudioFrameDecoded (H.mono rfl) h
  | .captionChange _ _ => keeps_execCaptionChange (H.mono rfl) h
  | .sliceReparseDone _ _ _ => keeps_execSliceReparseDone (H.mono rfl) h
  | .containerTimeout _ => keeps_execContainerTimeout (H.mono rfl) h
  | .tapLoadProgram _ _ => keeps_execTapLoadProgram (H.mono rfl) h
  | .tapUnloadProgram _ _ => keeps_execTapUnloadProgram (H.mono rfl) h
  | .tapRun _ _ => keeps_execTapRun (H.mono rfl) h
  | .tapBindQueue _ _ => keeps_execTapBindQueue (H.mono rfl) h
  | .tapUnbindQueue _ _ => keeps_execTapUnbindQueue (H.mono rfl) h
  | .tapGetQueue _ _ => keeps_execTapGetQueue (H.mono rfl) h
  | .tapSetPolicy _ _ => keeps_execTapSetPolicy (H.mono rfl) h
  | .queueWaitExpiry _ => keeps_execQueueWaitExpiry (H.mono rfl) h
  | .sliceComplete _ _ _ => keeps_execSliceComplete (H.mono rfl) h
  | .sliceOverrun _ => keeps_execSliceOverrun (H.mono rfl) h
  | .coreJoin _ => keeps_execCoreJoin (H.mono rfl) h
  | .loomOpenJob _ _ => keeps_execLoomOpenJob (H.mono rfl) h
  | .loomCloseJob _ _ => keeps_execLoomCloseJob (H.mono rfl) h
  | .loomAddWarp _ _ => keeps_execLoomAddWarp (H.mono rfl) h
  | .loomSetLayout _ _ => keeps_execLoomSetLayout (H.mono rfl) h
  | .loomStart _ _ => keeps_execLoomStart (H.mono rfl) h
  | .loomGetCursor _ _ => keeps_execLoomGetCursor (H.mono rfl) h
  | .loomSetCursor _ _ => keeps_execLoomSetCursor (H.mono rfl) h
  | .loomGetOrder _ _ => keeps_execLoomGetOrder (H.mono rfl) h
  | .loomGetJob _ _ => keeps_execLoomGetJob (H.mono rfl) h
  | .loomSetShare _ _ => keeps_execLoomSetShare (H.mono rfl) h
  | .loomFetchStart _ => keeps_execLoomFetchStart (H.mono rfl) h
  | .indexEntryRead _ _ _ _ => keeps_execIndexEntryRead (H.mono rfl) h
  | .samplePayloadRead _ _ _ _ => keeps_execSamplePayloadRead (H.mono rfl) h
  | .sampleAdmit _ _ _ _ => keeps_execSampleAdmit (H.mono rfl) h
  | .exchangeNotice _ _ => keeps_execExchangeNotice (H.mono rfl) h
  | .rescueFetch _ _ _ => keeps_execRescueFetch (H.mono rfl) h
  | .weaveClose _ _ => keeps_execWeaveClose (H.mono rfl) h
  | .feedSetPort _ _ => keeps_execFeedSetPort (H.mono rfl) h
  | .feedAdmit _ _ => keeps_execFeedAdmit (H.mono rfl) h
  | .feedRelease _ _ => keeps_execFeedRelease (H.mono rfl) h
  | .latchAssign _ _ => keeps_execLatchAssign (H.mono rfl) h
  | .feedCreateRing _ _ => keeps_execFeedCreateRing (H.mono rfl) h
  | .feedDestroyRing _ _ => keeps_execFeedDestroyRing (H.mono rfl) h
  | .feedResetRing _ _ => keeps_execFeedResetRing (H.mono rfl) h
  | .feedGetRing _ _ => keeps_execFeedGetRing (H.mono rfl) h
  | .feedJoin _ _ => keeps_execFeedJoin (H.mono rfl) h
  | .accelPresence _ => keeps_execAccelPresence (H.mono rfl) h
  | .accelEnumerated _ _ _ _ _ _ _ => keeps_execAccelEnumerated (H.mono rfl) h
  | .linkTrainingTimeout _ => keeps_execLinkTrainingTimeout (H.mono rfl) h
  | .accelRetryTimer _ => keeps_execAccelRetryTimer (H.mono rfl) h
  | .accelDeparted _ => keeps_execAccelDeparted (H.mono rfl) h
  | .latchAdd _ _ _ _ => keeps_execLatchAdd (H.mono rfl) h
  | .latchPost _ _ _ _ => keeps_execLatchPost (H.mono rfl) h
  | .latchValWrite _ => keeps_execLatchValWrite (H.mono rfl) h
  | .latchThreshWrite _ => keeps_execLatchThreshWrite (H.mono rfl) h
  | .latchCfgWrite _ => keeps_execLatchCfgWrite (H.mono rfl) h
  | .upstreamAccess _ _ _ _ => keeps_execUpstreamAccess (H.mono rfl) h
  | .deliveryIssue _ => keeps_execDeliveryIssue (H.mono rfl) h
  | .deliveryLanded _ _ => keeps_execDeliveryLanded (H.mono rfl) h
  | .genReadResponse _ _ _ => keeps_execGenReadResponse (H.mono rfl) h
  | .ringResetReadDone _ => keeps_execRingResetReadDone (H.mono rfl) h
  | .creditMailboxEntry _ _ => keeps_execCreditMailboxEntry (H.mono rfl) h
  | .layoutNotice _ _ => keeps_execLayoutNotice (H.mono rfl) h
  | .layoutRoundTimeout _ _ => keeps_execLayoutRoundTimeout (H.mono rfl) h
  | .layoutRepropose _ _ => keeps_execLayoutRepropose (H.mono rfl) h
  | .detectedError _ _ _ _ => keeps_execDetectedError (H.mono rfl) h
  | .correctedError _ _ _ => keeps_execCorrectedError (H.mono rfl) h
  | .meshDegraded _ => keeps_execMeshDegraded (H.mono rfl) h
  | .patrolScrub _ _ => keeps_execPatrolScrub (H.mono rfl) h
  | .uncorrectableBurst _ _ _ _ _ => keeps_execUncorrectableBurst (H.mono rfl) h
  | .partitionResetEnd _ _ => keeps_execPartitionResetEnd (H.mono rfl) h
  | .channelRemoved => keeps_execChannelRemoved (H.mono rfl) h
  | .recordCoalesceExpiry _ _ _ => keeps_execRecordCoalesceExpiry (H.mono rfl) h
  | .iftDue _ => keeps_execIftDue (H.mono rfl) h
  | .iftComplete _ _ _ => keeps_execIftComplete (H.mono rfl) h
  | .rasSetErrorRing _ _ => keeps_execRasSetErrorRing (H.mono rfl) h
  | .rasErrorHead _ _ => keeps_execRasErrorHead (H.mono rfl) h
  | .rasGetUnit _ _ => keeps_execRasGetUnit (H.mono rfl) h
  | .rasFenceUnit _ _ => keeps_execRasFenceUnit (H.mono rfl) h
  | .rasSetTest _ _ => keeps_execRasSetTest (H.mono rfl) h
  | .ckpSetJob _ _ => keeps_execCkpSetJob (H.mono rfl) h
  | .ckpSetShards _ _ => keeps_execCkpSetShards (H.mono rfl) h
  | .ckpSetTrigger _ _ => keeps_execCkpSetTrigger (H.mono rfl) h
  | .ckpCapture _ _ => keeps_execCkpCapture (H.mono rfl) h
  | .ckpGetJob _ _ => keeps_execCkpGetJob (H.mono rfl) h
  | .ckpRestore _ _ => keeps_execCkpRestore (H.mono rfl) h
  | .ckpSetSigners _ _ => keeps_execCkpSetSigners (H.mono rfl) h
  | .ckpCloseJob _ _ => keeps_execCkpCloseJob (H.mono rfl) h
  | .ckpReadBank _ _ => keeps_execCkpReadBank (H.mono rfl) h
  | .captureDecision _ => keeps_execCaptureDecision (H.mono rfl) h
  | .bankZeroAck _ => keeps_execBankZeroAck (H.mono rfl) h
  | .captureStart _ => keeps_execCaptureStart (H.mono rfl) h
  | .shardCopied _ _ _ _ => keeps_execShardCopied (H.mono rfl) h
  | .shardStored _ _ => keeps_execShardStored (H.mono rfl) h
  | .captureCommit _ => keeps_execCaptureCommit (H.mono rfl) h
  | .pbWriteFail _ _ => keeps_execPbWriteFail (H.mono rfl) h
  | .checkpointNotice _ _ => keeps_execCheckpointNotice (H.mono rfl) h
  | .drainComplete _ => keeps_execDrainComplete (H.mono rfl) h
  | .restoreShardRead _ _ _ _ => keeps_execRestoreShardRead (H.mono rfl) h
  | .stgLoadGo _ => keeps_execStgLoadGo (H.mono rfl) h
  | .stgLoadDone _ _ => keeps_execStgLoadDone (H.mono rfl) h
  | .watchdogExpiry _ => keeps_execWatchdogExpiry (H.mono rfl) h
  | .stagehandRestarted _ => keeps_execStagehandRestarted (H.mono rfl) h
  | .fwGetInfo _ _ => keeps_execFwGetInfo (H.mono rfl) h
  | .fwStage _ _ => keeps_execFwStage (H.mono rfl) h
  | .fwVerify _ _ => keeps_execFwVerify (H.mono rfl) h
  | .fwActivate _ _ => keeps_execFwActivate (H.mono rfl) h
  | .handoverClearance => keeps_execHandoverClearance (H.mono rfl) h
  | .activateDeferTimeout => keeps_execActivateDeferTimeout (H.mono rfl) h
  | .handoverQuiesced => keeps_execHandoverQuiesced (H.mono rfl) h
  | .handoverQuiesceTimeout => keeps_execHandoverQuiesceTimeout (H.mono rfl) h
  | .handoverResumed => keeps_execHandoverResumed (H.mono rfl) h
  | .trialExpiry => keeps_execTrialExpiry (H.mono rfl) h
  | .fwCommit _ _ => keeps_execFwCommit (H.mono rfl) h
  | .fwRollback _ _ => keeps_execFwRollback (H.mono rfl) h
  | .fwLoadModule _ _ => keeps_execFwLoadModule (H.mono rfl) h
  | .fwUnloadModule _ _ => keeps_execFwUnloadModule (H.mono rfl) h
  | .fwSetModuleKey _ _ => keeps_execFwSetModuleKey (H.mono rfl) h
  | .add _ _ _ _ => keeps_execAdd (H.mono rfl) h
  | .sub _ _ _ _ => keeps_execSub (H.mono rfl) h
  | .andR _ _ _ _ => keeps_execAndR (H.mono rfl) h
  | .orR _ _ _ _ => keeps_execOrR (H.mono rfl) h
  | .xorR _ _ _ _ => keeps_execXorR (H.mono rfl) h
  | .shl _ _ _ _ => keeps_execShl (H.mono rfl) h
  | .shr _ _ _ _ => keeps_execShr (H.mono rfl) h
  | .sar _ _ _ _ => keeps_execSar (H.mono rfl) h
  | .mul _ _ _ _ => keeps_execMul (H.mono rfl) h
  | .mulhu _ _ _ _ => keeps_execMulhu (H.mono rfl) h
  | .divu _ _ _ _ => keeps_execDivu (H.mono rfl) h
  | .remu _ _ _ _ => keeps_execRemu (H.mono rfl) h
  | .minu _ _ _ _ => keeps_execMinu (H.mono rfl) h
  | .maxu _ _ _ _ => keeps_execMaxu (H.mono rfl) h
  | .movR _ _ _ => keeps_execMovR (H.mono rfl) h
  | .sltu _ _ _ _ => keeps_execSltu (H.mono rfl) h
  | .addi _ _ _ _ => keeps_execAddi (H.mono rfl) h
  | .andi _ _ _ _ => keeps_execAndi (H.mono rfl) h
  | .ori _ _ _ _ => keeps_execOri (H.mono rfl) h
  | .xori _ _ _ _ => keeps_execXori (H.mono rfl) h
  | .shiftiShl _ _ _ _ => keeps_execShiftiShl (H.mono rfl) h
  | .shiftiShr _ _ _ _ => keeps_execShiftiShr (H.mono rfl) h
  | .shiftiSar _ _ _ _ => keeps_execShiftiSar (H.mono rfl) h
  | .movz _ _ _ _ => keeps_execMovz (H.mono rfl) h
  | .movk _ _ _ _ => keeps_execMovk (H.mono rfl) h
  | .ld64 _ _ _ _ => keeps_execLd64 (H.mono rfl) h
  | .ld32u _ _ _ _ => keeps_execLd32u (H.mono rfl) h
  | .ld16u _ _ _ _ => keeps_execLd16u (H.mono rfl) h
  | .ld8u _ _ _ _ => keeps_execLd8u (H.mono rfl) h
  | .st64 _ _ _ _ => keeps_execSt64 (H.mono rfl) h
  | .st32 _ _ _ _ => keeps_execSt32 (H.mono rfl) h
  | .st16 _ _ _ _ => keeps_execSt16 (H.mono rfl) h
  | .st8 _ _ _ _ => keeps_execSt8 (H.mono rfl) h
  | .beq _ _ _ _ => keeps_execBeq (H.mono rfl) h
  | .bne _ _ _ _ => keeps_execBne (H.mono rfl) h
  | .blt _ _ _ _ => keeps_execBlt (H.mono rfl) h
  | .bge _ _ _ _ => keeps_execBge (H.mono rfl) h
  | .bltu _ _ _ _ => keeps_execBltu (H.mono rfl) h
  | .bgeu _ _ _ _ => keeps_execBgeu (H.mono rfl) h
  | .jal _ _ => keeps_execJal (H.mono rfl) h
  | .jr _ _ _ => keeps_execJr (H.mono rfl) h
  | .loop _ _ _ _ => keeps_execLoop (H.mono rfl) h
  | .loopi _ _ _ _ => keeps_execLoopi (H.mono rfl) h
  | .csrr _ _ _ => keeps_execCsrr (H.mono rfl) h
  | .csrw _ _ _ => keeps_execCsrw (H.mono rfl) h
  | .tagR _ _ _ => keeps_execTagR (H.mono rfl) h
  | .retag _ _ _ _ => keeps_execRetag (H.mono rfl) h
  | .trap _ _ => keeps_execTrap (H.mono rfl) h
  | .tret _ _ => keeps_execTret (H.mono rfl) h
  | .adr _ _ _ => keeps_execAdr (H.mono rfl) h
  | .wait _ _ _ => keeps_execWait (H.mono rfl) h
  | .waitReturn _ => keeps_execWaitReturn (H.mono rfl) h
  | .sha256Init _ => keeps_execSha256Init (H.mono rfl) h
  | .sha256Upd _ _ _ => keeps_execSha256Upd (H.mono rfl) h
  | .sha256Fin _ _ => keeps_execSha256Fin (H.mono rfl) h
  | .crc32c _ _ _ _ => keeps_execCrc32c (H.mono rfl) h
  | .crc64 _ _ _ _ => keeps_execCrc64 (H.mono rfl) h
  | .walk _ _ _ _ => keeps_execWalk (H.mono rfl) h
  | .ctxRd _ _ _ => keeps_execCtxRd (H.mono rfl) h
  | .ctxWr _ _ _ => keeps_execCtxWr (H.mono rfl) h
  | .ctxPin _ _ => keeps_execCtxPin (H.mono rfl) h
  | .ctxUnpin _ _ => keeps_execCtxUnpin (H.mono rfl) h
  | .cbRaise _ _ => keeps_execCbRaise (H.mono rfl) h
  | .cbPend _ _ => keeps_execCbPend (H.mono rfl) h
  | .cbDone _ _ => keeps_execCbDone (H.mono rfl) h
  | .ltRead _ _ _ => keeps_execLtRead (H.mono rfl) h
  | .ltAdd _ _ _ => keeps_execLtAdd (H.mono rfl) h
  | .ltThresh _ _ _ => keeps_execLtThresh (H.mono rfl) h
  | .dmaCopy _ _ _ _ _ => keeps_execDmaCopy (H.mono rfl) h
  | .dmaWin _ _ _ => keeps_execDmaWin (H.mono rfl) h
  | .moduleBudgetExpiry _ => keeps_execModuleBudgetExpiry (H.mono rfl) h
  | .callAssign _ _ => keeps_execCallAssign (H.mono rfl) h
  | .callMaskSet _ => keeps_execCallMaskSet (H.mono rfl) h
  | .callMaskClr _ => keeps_execCallMaskClr (H.mono rfl) h
  | .callPendSet _ => keeps_execCallPendSet (H.mono rfl) h
  | .callPendClr _ => keeps_execCallPendClr (H.mono rfl) h
  | .callVTake _ _ => keeps_execCallVTake (H.mono rfl) h
  | .callVDone _ _ _ => keeps_execCallVDone (H.mono rfl) h
  | .moderationExpiry _ _ => keeps_execModerationExpiry (H.mono rfl) h
  | .msixUnmask _ _ => keeps_execMsixUnmask (H.mono rfl) h
  | .flr _ => keeps_execFlr (H.mono rfl) h
  | .flrComplete _ => keeps_execFlrComplete (H.mono rfl) h
  | .vfEnableSet _ => keeps_execVfEnableSet (H.mono rfl) h
  | .vfEnableClear => keeps_execVfEnableClear (H.mono rfl) h
  | .barResize _ _ => keeps_execBarResize (H.mono rfl) h
  | .mboxSeqWrite _ => keeps_execMboxSeqWrite (H.mono rfl) h
  | .mboxAckWrite _ => keeps_execMboxAckWrite (H.mono rfl) h
  | .vfSetResources _ _ => keeps_execVfSetResources (H.mono rfl) h
  | .vfGetResources _ _ => keeps_execVfGetResources (H.mono rfl) h
  | .vfSetMbox _ _ => keeps_execVfSetMbox (H.mono rfl) h
  | .vfTrackStart _ _ => keeps_execVfTrackStart (H.mono rfl) h
  | .vfTrackSync _ _ => keeps_execVfTrackSync (H.mono rfl) h
  | .vfTrackStop _ _ => keeps_execVfTrackStop (H.mono rfl) h
  | .vfFreeze _ _ => keeps_execVfFreeze (H.mono rfl) h
  | .vfFrozen _ => keeps_execVfFrozen (H.mono rfl) h
  | .vfFreezeDrainLimit _ => keeps_execVfFreezeDrainLimit (H.mono rfl) h
  | .vfSavePrecopy _ _ => keeps_execVfSavePrecopy (H.mono rfl) h
  | .vfSaveFinal _ _ => keeps_execVfSaveFinal (H.mono rfl) h
  | .vfRestore _ _ _ => keeps_execVfRestore (H.mono rfl) h
  | .vfResume _ _ => keeps_execVfResume (H.mono rfl) h
  | .vfSetMigKey _ _ => keeps_execVfSetMigKey (H.mono rfl) h
  | .smBoot => keeps_execSmBoot (H.mono rfl) h
  | .smWatchdogExpiry => keeps_execSmWatchdogExpiry (H.mono rfl) h
  | .sensorSample _ _ => keeps_execSensorSample (H.mono rfl) h
  | .storeBankCompare _ => keeps_execStoreBankCompare (H.mono rfl) h
  | .getVersion _ _ => keeps_execGetVersion (H.mono rfl) h
  | .getCapabilities _ _ => keeps_execGetCapabilities (H.mono rfl) h
  | .negotiateAlgorithms _ _ => keeps_execNegotiateAlgorithms (H.mono rfl) h
  | .getDigests _ _ => keeps_execGetDigests (H.mono rfl) h
  | .getCertificate _ _ => keeps_execGetCertificate (H.mono rfl) h
  | .challenge _ _ => keeps_execChallenge (H.mono rfl) h
  | .getMeasurements _ _ => keeps_execGetMeasurements (H.mono rfl) h
  | .keyExchange _ _ => keeps_execKeyExchange (H.mono rfl) h
  | .finish _ _ _ => keeps_execFinish (H.mono rfl) h
  | .keyUpdate _ _ _ => keeps_execKeyUpdate (H.mono rfl) h
  | .endSession _ _ _ => keeps_execEndSession (H.mono rfl) h
  | .mctpControl _ _ => keeps_execMctpControl (H.mono rfl) h
  | .mgmtCommand _ _ _ => keeps_execMgmtCommand (H.mono rfl) h
  | .mgmtScanRequest _ _ => keeps_execMgmtScanRequest (H.mono rfl) h
  | .pldmBase _ _ => keeps_execPldmBase (H.mono rfl) h
  | .pldmPlatform _ _ => keeps_execPldmPlatform (H.mono rfl) h
  | .pldmFru _ _ => keeps_execPldmFru (H.mono rfl) h
  | .pldmFirmwareUpdate _ _ _ => keeps_execPldmFirmwareUpdate (H.mono rfl) h
  | .setEventReceiver _ _ => keeps_execSetEventReceiver (H.mono rfl) h
  | .healthResendTimer _ => keeps_execHealthResendTimer (H.mono rfl) h
  | .activateFirmware _ _ _ => keeps_execActivateFirmware (H.mono rfl) h
  | .smActivateClearance => keeps_execSmActivateClearance (H.mono rfl) h
  | .smActivateTimeout => keeps_execSmActivateTimeout (H.mono rfl) h
  | .smFwConfirm => keeps_execSmFwConfirm (H.mono rfl) h
  | .smTrialTimeout => keeps_execSmTrialTimeout (H.mono rfl) h
  | .smReadLog _ _ => keeps_execSmReadLog (H.mono rfl) h
  | .smSetOperatorKey _ _ => keeps_execSmSetOperatorKey (H.mono rfl) h
  | .smSetThreshold _ _ => keeps_execSmSetThreshold (H.mono rfl) h
  | .smSetFwKey _ _ => keeps_execSmSetFwKey (H.mono rfl) h
  | .smSetMgmt _ _ => keeps_execSmSetMgmt (H.mono rfl) h
  | .mgmtConfigApply => keeps_execMgmtConfigApply (H.mono rfl) h
  | .obsSetSnapArea _ _ => keeps_execObsSetSnapArea (H.mono rfl) h
  | .obsSnapHead _ _ => keeps_execObsSnapHead (H.mono rfl) h
  | .obsSetCounter _ _ => keeps_execObsSetCounter (H.mono rfl) h
  | .obsTraceCfg _ _ => keeps_execObsTraceCfg (H.mono rfl) h
  | .obsTraceStart _ _ => keeps_execObsTraceStart (H.mono rfl) h
  | .obsTraceStop _ _ => keeps_execObsTraceStop (H.mono rfl) h
  | .obsTrigger _ _ => keeps_execObsTrigger (H.mono rfl) h
  | .obsTraceRead _ _ => keeps_execObsTraceRead (H.mono rfl) h
  | .obsTableau _ _ => keeps_execObsTableau (H.mono rfl) h
  | .obsClearCounters _ _ => keeps_execObsClearCounters (H.mono rfl) h
  | .tableauStopped => keeps_execTableauStopped (H.mono rfl) h
  | .jtagAccess _ _ _ => keeps_execJtagAccess (H.mono rfl) h
  | .powerControlTick => keeps_execPowerControlTick (H.mono rfl) h
  | .thermalCapStep => keeps_execThermalCapStep (H.mono rfl) h
  | .pwrSetCap _ _ => keeps_execPwrSetCap (H.mono rfl) h
  | .pwrSetConfig _ _ => keeps_execPwrSetConfig (H.mono rfl) h
  | .eprNLow => keeps_execEprNLow (H.mono rfl) h
  | .eprNHigh => keeps_execEprNHigh (H.mono rfl) h
  | .eprHoldExpiry => keeps_execEprHoldExpiry (H.mono rfl) h
  | .aonPowerUp _ => keeps_execAonPowerUp (H.mono rfl) h
  | .aonPowerOff => keeps_execAonPowerOff (H.mono rfl) h
  | .inputOutOfRange => keeps_execInputOutOfRange (H.mono rfl) h
  | .inputRestored => keeps_execInputRestored (H.mono rfl) h
  | .pwrEnHigh => keeps_execPwrEnHigh (H.mono rfl) h
  | .pwrEnLow => keeps_execPwrEnLow (H.mono rfl) h
  | .mainPowerUp => keeps_execMainPowerUp (H.mono rfl) h
  | .mainDomainReady => keeps_execMainDomainReady (H.mono rfl) h
  | .sysRstAssert => keeps_execSysRstAssert (H.mono rfl) h
  | .sysRstRelease => keeps_execSysRstRelease (H.mono rfl) h
  | .hpPerstAssert => keeps_execHpPerstAssert (H.mono rfl) h
  | .perstResetHoldExpiry => keeps_execPerstResetHoldExpiry (H.mono rfl) h
  | .hpPerstRelease => keeps_execHpPerstRelease (H.mono rfl) h
  | .tableauNFall => keeps_execTableauNFall (H.mono rfl) h
  | .handoverStep4Timeout => keeps_execHandoverStep4Timeout (H.mono rfl) h
  | .stoTargetUnreachable _ => keeps_execStoTargetUnreachable (H.mono rfl) h
  | .rejReceived _ => keeps_execRejReceived (H.mono rfl) h
  | .rtuReceived _ => keeps_execRtuReceived (H.mono rfl) h
  | .netPeerUnreachable _ => keeps_execNetPeerUnreachable (H.mono rfl) h
  | .hostLinkUp => keeps_execHostLinkUp (H.mono rfl) h
  | .dynamicAddressAssigned _ => keeps_execDynamicAddressAssigned (H.mono rfl) h
  | .alertNAssert => keeps_execAlertNAssert (H.mono rfl) h

/-- Every step keeps a property that is closed under the elementary changes and does not speak of the queue. -/
theorem keeps_step {P : State → Prop} {s : State} (H : Keeps P 0x3FFFFFFF) (hq : ∀ l, P s → P { s with pending := l }) (h : P s) :
    ResAll P (step s) := by
  unfold step
  split
  · exact res_next h
  · exact keeps_exec H (hq _ h) _

end Sys2Proof.Laws
end

