-- ==== Sys2Proof/Laws/Memory.lean ====
section
/-!
SUPPORT. Laws of memory: every operation keeps the canonical form, a byte reads back as written, and every other byte is as it was.
-/
namespace Sys2Proof.Laws

open Sys2Proof Sys2Proof.Machine

/-- Every cell of a canonical memory lies above `k`. -/
def above (k : Nat) (m : List Host.Cell) : Prop := ∀ e ∈ m, k < e.1

theorem wf_cons {a : Nat} {b : Byte} {t : List Host.Cell} : Memory.wf ((a, b) :: t) = true ↔ b ≠ 0 ∧ above a t ∧ Memory.wf t = true := by
  simp only [Memory.wf, Bool.and_eq_true, decide_eq_true_eq, List.all_eq_true, above, and_assoc]

theorem above_aset {k a : Nat} {b : Byte} {m : List Host.Cell} (h : above k m) (ha : k < a) : above k (aset m a b) := by
  induction m with
  | nil => intro e he; simp only [aset, List.mem_singleton] at he; subst he; exact ha
  | cons x t ih =>
    obtain ⟨j, w⟩ := x
    have ht : above k t := fun e he => h e (List.mem_cons_of_mem _ he)
    have hj : k < j := h (j, w) List.mem_cons_self
    intro e he
    simp only [aset] at he
    split at he
    · rcases List.mem_cons.mp he with rfl | he
      · exact hj
      · exact ih ht e he
    · split at he
      · rcases List.mem_cons.mp he with rfl | he
        · exact ha
        · exact ht e he
      · rcases List.mem_cons.mp he with rfl | he
        · exact ha
        · exact h e he

theorem wf_aset {m : List Host.Cell} {a : Nat} {b : Byte} (h : Memory.wf m = true) (hb : b ≠ 0) : Memory.wf (aset m a b) = true := by
  induction m with
  | nil => exact wf_cons.mpr ⟨hb, (fun _ he => nomatch he), rfl⟩
  | cons x t ih =>
    obtain ⟨j, w⟩ := x
    obtain ⟨h1, h2, h3⟩ := wf_cons.mp h
    simp only [aset]
    split
    · rename_i q; exact wf_cons.mpr ⟨h1, above_aset h2 q, ih h3⟩
    · split
      · rename_i q; subst q; exact wf_cons.mpr ⟨hb, h2, h3⟩
      · rename_i q1 q2
        have q : a < j := by omega
        exact wf_cons.mpr ⟨hb, fun e he => by
          rcases List.mem_cons.mp he with rfl | he
          · exact q
          · exact Nat.lt_trans q (h2 e he), h⟩

theorem wf_filter {m : List Host.Cell} (p : Host.Cell → Bool) (h : Memory.wf m = true) : Memory.wf (m.filter p) = true := by
  induction m with
  | nil => rfl
  | cons x t ih =>
    obtain ⟨j, w⟩ := x
    obtain ⟨h1, h2, h3⟩ := wf_cons.mp h
    rw [List.filter_cons]
    split
    · exact wf_cons.mpr ⟨h1, fun e he => h2 e (List.mem_filter.mp he).1, ih h3⟩
    · exact ih h3

theorem wf_memSet {m : List Host.Cell} {a : Nat} {b : Byte} (h : Memory.wf m = true) : Memory.wf (memSet m a b) = true := by
  unfold memSet
  split
  · exact wf_filter _ h
  · rename_i q; exact wf_aset h q

theorem wf_memPut {m : List Host.Cell} {a : Nat} {l : Bytes} (h : Memory.wf m = true) : Memory.wf (memPut m a l) = true := by
  induction l generalizing m a with
  | nil => exact h
  | cons b t ih => exact ih (wf_memSet h)

theorem wf_memClear {m : List Host.Cell} {a n : Nat} (h : Memory.wf m = true) : Memory.wf (memClear m a n) = true := wf_filter _ h

theorem aget_aset_same {α : Type} {m : List (Nat × α)} {k : Nat} {v : α} : aget (aset m k v) k = some v := by
  induction m with
  | nil => simp [aset, aget]
  | cons x t ih =>
    obtain ⟨j, w⟩ := x
    simp only [aset]
    split
    · rename_i q; rw [aget, if_neg (by omega), ih]
    · split <;> simp [aget]

theorem aget_aset_other {α : Type} {m : List (Nat × α)} {k k' : Nat} {v : α} (h : k' ≠ k) : aget (aset m k v) k' = aget m k' := by
  induction m with
  | nil => simp [aset, aget, Ne.symm h]
  | cons x t ih =>
    obtain ⟨j, w⟩ := x
    simp only [aset]
    split
    · simp only [aget, ih]
    · split
      · rename_i q1 q2; subst q2; simp only [aget, if_neg (Ne.symm h)]
      · simp only [aget, if_neg (Ne.symm h)]

theorem aget_adel_same {α : Type} {m : List (Nat × α)} {k : Nat} : aget (adel m k) k = none := by
  induction m with
  | nil => rfl
  | cons x t ih =>
    obtain ⟨j, w⟩ := x
    unfold adel at ih ⊢
    rw [List.filter_cons]
    split
    · rename_i q; rw [aget, if_neg (by simpa using q), ih]
    · exact ih

theorem aget_filter {α : Type} {m : List (Nat × α)} {k : Nat} {p : Nat × α → Bool} (h : ∀ e ∈ m, e.1 = k → p e = true) :
    aget (m.filter p) k = aget m k := by
  induction m with
  | nil => rfl
  | cons x t ih =>
    obtain ⟨j, w⟩ := x
    have ht := ih (fun e he => h e (List.mem_cons_of_mem _ he))
    rw [List.filter_cons]
    split
    · simp only [aget, ht]
    · rename_i q
      rw [aget, if_neg (fun e => q (h (j, w) List.mem_cons_self e)), ht]

theorem memGet_memSet_same {m : List Host.Cell} {a : Nat} {b : Byte} : memGet (memSet m a b) a = b := by
  unfold memGet memSet agetD
  split
  · rename_i q; rw [aget_adel_same]; exact q.symm
  · rw [aget_aset_same]; rfl

theorem memGet_memSet_other {m : List Host.Cell} {a x : Nat} {b : Byte} (h : x ≠ a) : memGet (memSet m a b) x = memGet m x := by
  unfold memGet memSet agetD
  split
  · rw [adel, aget_filter (fun e _ hk => by simp [hk, h])]
  · rw [aget_aset_other h]

/-- Bytes outside what is written are as they were. -/
theorem memGet_memPut_other {m : List Host.Cell} {a x : Nat} {l : Bytes} (h : x < a ∨ a + l.length ≤ x) : memGet (memPut m a l) x = memGet m x := by
  induction l generalizing m a with
  | nil => rfl
  | cons b t ih =>
    simp only [List.length_cons] at h
    rw [memPut, ih (by omega), memGet_memSet_other (by omega)]

/-- Bytes written read back. -/
theorem memTake_memPut_same {m : List Host.Cell} {a : Nat} {l : Bytes} : memTake (memPut m a l) a l.length = l := by
  induction l generalizing m a with
  | nil => rfl
  | cons b t ih =>
    simp only [List.length_cons, memTake, memPut]
    rw [memGet_memPut_other (Or.inl (Nat.lt_succ_self a)), memGet_memSet_same, ih]

/-- A cleared range reads 0. -/
theorem memGet_memClear_in {m : List Host.Cell} {a n x : Nat} (h : a ≤ x ∧ x < a + n) : memGet (memClear m a n) x = 0 := by
  unfold memGet memClear agetD
  have : aget (m.filter (fun e => decide (e.1 < a ∨ a + n ≤ e.1))) x = none := by
    induction m with
    | nil => rfl
    | cons y t ih =>
      obtain ⟨j, w⟩ := y
      rw [List.filter_cons]
      split
      · rename_i q; rw [aget, if_neg (by rintro rfl; have := of_decide_eq_true q; simp only at this; omega), ih]
      · exact ih
  rw [this]; rfl

/-- Bytes outside a cleared range are as they were. -/
theorem memGet_memClear_other {m : List Host.Cell} {a n x : Nat} (h : x < a ∨ a + n ≤ x) : memGet (memClear m a n) x = memGet m x := by
  unfold memGet memClear agetD
  rw [aget_filter (fun e _ hk => by simp only [hk, decide_eq_true_eq]; exact h)]

end Sys2Proof.Laws
end

