-- ==== Sys2Proof/Laws/Onb.lean ====
section
/-!
SUPPORT. One lemma per shared operation of the Onbusyn cores: an instruction that meets no cause runs, and one that meets a cause traps.
-/
namespace Sys2Proof.Laws

open Sys2Proof Sys2Proof.Machine Sys2Proof.Safety

/-- Changing a core by two functions that agree on it gives one state. -/
theorem upCore_at {s : State} {n : Nat} {f g : OnbCore → OnbCore} (h : f (s.core n) = g (s.core n)) : s.upCore n f = s.upCore n g := by
  unfold State.core at h
  simp only [State.upCore, State.upOnb, amod, h]

/-- No cause is ranked first exactly where there is none. -/
theorem firstCause_none {l : List Cause} : firstCause l = none ↔ l = [] := by
  constructor
  · intro h
    cases l with
    | nil => rfl
    | cons x t => simp only [firstCause] at h; split at h <;> (try split at h) <;> simp at h
  · rintro rfl; rfl

/-- An instruction without a cause runs. -/
theorem onbRun_go {n : Nat} {s : State} {causes : OnbCore → List Cause} {run : OnbCore → State → State} (h : onbAt n s = true)
    (h0 : causes (s.core n) = []) : onbRun n s causes run = .next (run (s.core n) s) := by
  simp only [onbAt, Bool.and_eq_true, List.isEmpty_iff] at h
  simp only [onbRun, h.1, h.2, h0, firstCause, List.isEmpty_nil, if_true]

/-- An instruction with a cause takes the trap of the first of them, and does nothing else. -/
theorem onbRun_trap {n : Nat} {s : State} {causes : OnbCore → List Cause} {run : OnbCore → State → State} {k : Cause}
    (h : onbAt n s = true) (h0 : firstCause (causes (s.core n)) = some k) :
    onbRun n s causes run = .next (s.onbTrap n k 0 (s.core n).pc) := by
  simp only [onbAt, Bool.and_eq_true, List.isEmpty_iff] at h
  simp only [onbRun, h.1, h.2, List.isEmpty_nil, if_true, h0]

/-- A sequential instruction without a cause changes its core and goes on. -/
theorem onbSeq_go {n : Nat} {s : State} {causes : OnbCore → List Cause} {f g : OnbCore → OnbCore} (h : onbAt n s = true)
    (h0 : causes (s.core n) = []) (e : f (s.core n) = g (s.core n)) : onbSeq n s causes f = .next (onbNext n g s) := by
  rw [onbSeq, onbRun_go h h0, onbNext]
  rw [upCore_at (f := fun c => (f c).advance) (g := fun c => (g c).advance) (by simp only [e])]

/-- A source register that holds neither UNINIT nor POISON gives no cause. -/
theorem srcCause_nil {w : LWord} (h : srcOk w = true) : srcCause w = [] := by
  simp only [srcOk, bne, Bool.and_eq_true, Bool.not_eq_true'] at h
  simp [srcCause, whenC, h.1, h.2]

/-- A word of a tag other than UNINIT and POISON is a good source. -/
theorem srcOk_tag {w : LWord} {t : BitVec 4} (h : w.tag = t) (h1 : t ≠ tUninit) (h2 : t ≠ tPoison) : srcOk w = true := by
  simp [srcOk, h, h1, h2]

/-- A source of the tag that it must have gives no cause. -/
theorem needTag_nil {w : LWord} {t : BitVec 4} (h : w.tag = t) (h1 : t ≠ tUninit) (h2 : t ≠ tPoison) : needTag w t = [] := by
  simp [needTag, srcCause_nil (srcOk_tag h h1 h2), tagCause, whenC, h]

/-- A listed pair of operand tags gives no cause. -/
theorem pairCause_nil {a b : LWord} : pairCause true a b = [] := by simp [pairCause, whenC]

/-- An access that is aligned and in reach, through a PTR, gives no cause. -/
theorem accessCauses_nil {n ra imm len : Nat} {c : OnbCore} (h : accessOk n ra imm len c = true) : c.accessCauses n ra imm len = [] := by
  simp only [accessOk, Bool.and_eq_true, beq_iff_eq] at h
  simp [OnbCore.accessCauses, needTag_nil h.1.1 (by decide) (by decide), whenC, h.1.2, h.2]

/-- A coprocessor that may be used gives no cause. -/
theorem cpCauses_nil {n cp : Nat} {c : OnbCore} (h : cpOk n cp c = true) : c.cpCauses n cp = [] := by
  simp only [cpOk, Bool.and_eq_true, Bool.not_eq_true', Bool.or_eq_true] at h
  cases hp : c.priv <;> simp_all [OnbCore.cpCauses, whenC]

/-- A local operand that the core may reach gives no cause. -/
theorem localOk_nil {n len : Nat} {w : LWord} {c : OnbCore} (h : localOk n len w c = true) :
    needTag w tPtr = [] ∧ c.rangeCause n w len = [] := by
  simp only [localOk, Bool.and_eq_true, beq_iff_eq] at h
  exact ⟨needTag_nil h.1 (by decide) (by decide), by simp [OnbCore.rangeCause, whenC, h.2]⟩

/-- An operation on two registers of listed tags. -/
theorem aluR_go {n rd ra rb : Nat} {tag : BitVec 4 → BitVec 4 → Option (BitVec 4)} {extra : LWord → LWord → List Cause} {f : LWord → LWord → BitVec 64}
    {s : State} {t : BitVec 4} (h : onbAt n s = true) (ht : tag ((s.core n).reg ra).tag ((s.core n).reg rb).tag = some t)
    (ha : srcOk ((s.core n).reg ra) = true) (hb : srcOk ((s.core n).reg rb) = true)
    (he : extra ((s.core n).reg ra) ((s.core n).reg rb) = []) :
    aluR n rd ra rb tag extra f s =
      .next (onbPut n rd { val := f ((s.core n).reg ra) ((s.core n).reg rb), tag := t } s) :=
  onbSeq_go h (by simp [srcCause_nil ha, srcCause_nil hb, ht, pairCause_nil, he]) (by simp [ht])

/-- An operation on two INT registers. -/
theorem aluInt_go {n rd ra rb : Nat} {f : BitVec 64 → BitVec 64 → BitVec 64} {s : State} (h : onbAt n s = true)
    (ha : ((s.core n).reg ra).tag = tInt) (hb : ((s.core n).reg rb).tag = tInt) :
    aluInt n rd ra rb f s = .next (onbPut n rd (intW (f ((s.core n).reg ra).val ((s.core n).reg rb).val)) s) :=
  aluR_go h (by simp [intInt, ha, hb]) (srcOk_tag ha (by decide) (by decide)) (srcOk_tag hb (by decide) (by decide)) rfl

/-- An operation on a register and an immediate. -/
theorem aluImm_go {n rd ra : Nat} {tag : BitVec 4 → Option (BitVec 4)} {f : BitVec 64 → BitVec 64} {s : State} {t : BitVec 4} (h : onbAt n s = true)
    (ha : srcOk ((s.core n).reg ra) = true) (ht : tag ((s.core n).reg ra).tag = some t) :
    aluImm n rd ra tag f s = .next (onbPut n rd { val := f ((s.core n).reg ra).val, tag := t } s) :=
  onbSeq_go h (by simp [srcCause_nil ha, ht, tagCause, whenC]) (by simp [ht])

end Sys2Proof.Laws
end

