-- ==== Sys2Proof/Machine/CfgSpace.lean ====
section
/-!
DEFINITION. The constant fields of configuration space (R452, R453, R454, Tables 17.1 to 17.3). No row of the opcode table reads them (log
entry 65); the writable ones that rows change are state of the host port.
-/
namespace Sys2Proof.Machine

open Sys2Proof

/-- The identity a function reports (Table 17.1). -/
structure CfgIdentity where
  /-- Vendor ID. -/
  vendor : Nat
  /-- Device ID. -/
  device : Nat
  /-- Revision ID. -/
  revision : Nat
  /-- Class code. -/
  classCode : Nat
  /-- Subsystem vendor ID. -/
  subVendor : Nat
  /-- Subsystem ID: the part code. -/
  subSystem : Nat
  /-- Header type. -/
  header : Nat
  /-- Interrupt pin. -/
  intPin : Nat
deriving DecidableEq, Repr

/-- The identity of function `fn` of a part (R452): function 0 is the PF. -/
def cfgIdentity (p : Part) (fn : Nat) : CfgIdentity :=
  { vendor := if fn = 0 then 0x1E77 else 0xFFFF, device := if fn = 0 then 0xD900 else 0xFFFF, revision := 0xB0, classCode := 0x120000,
    subVendor := 0x1E77, subSystem := p.code, header := 0, intPin := 0 }

/-- One capability of a chain (Table 17.2). -/
structure Capability where
  /-- Its offset in configuration space. -/
  off : Nat
  /-- The offset of the next one, 0 at the end of a chain. -/
  next : Nat
  /-- The PF has it. -/
  pf : Bool
  /-- A VF has it. -/
  vf : Bool
deriving DecidableEq, Repr

/-- The capabilities in the order of Table 17.2: Power Management, MSI-X, PCI Express, then the extended ones from Advanced Error
Reporting to Data Object Exchange. -/
def capTable : List Capability :=
  [{ off := 0x040, next := 0x050, pf := true, vf := false }, { off := 0x050, next := 0x060, pf := true, vf := true },
   { off := 0x060, next := 0x000, pf := true, vf := true }, { off := 0x100, next := 0x148, pf := true, vf := true },
   { off := 0x148, next := 0x150, pf := true, vf := true }, { off := 0x150, next := 0x190, pf := true, vf := false },
   { off := 0x190, next := 0x1A0, pf := true, vf := false }, { off := 0x1A0, next := 0x1B0, pf := true, vf := false },
   { off := 0x1B0, next := 0x1C0, pf := true, vf := false }, { off := 0x1C0, next := 0x1D0, pf := true, vf := false },
   { off := 0x1D0, next := 0x1E0, pf := true, vf := false }, { off := 0x1E0, next := 0x210, pf := true, vf := false },
   { off := 0x210, next := 0x240, pf := true, vf := false }, { off := 0x240, next := 0x270, pf := true, vf := false },
   { off := 0x270, next := 0x290, pf := true, vf := false }, { off := 0x290, next := 0x2E0, pf := true, vf := false },
   { off := 0x2E0, next := 0x000, pf := true, vf := false }]

/-- The chains of function `fn`: its capabilities with their next pointers; a VF's chain ends at ARI (R453). -/
def capChain (fn : Nat) : List (Nat × Nat) :=
  (capTable.filter (fun c => if fn = 0 then c.pf else c.vf)).map (fun c => (c.off, if fn ≠ 0 ∧ c.off = 0x148 then 0 else c.next))

/-- What the SR-IOV capability reports (R453): TotalVFs, InitialVFs, First VF Offset, VF Stride, Supported Page Sizes and the VF Device ID
of Table 17.1. -/
def sriovReport : List Nat := [255, 255, 1, 1, 0x11, 0xD901]

end Sys2Proof.Machine
end

