-- ==== Sys2Proof/WellFormed.lean ====
section
/-!
DEFINITION. Which operands a command may carry: the widths and ranges of the fields the spec gives it. `exec` runs
every command; a command that is not well-formed is one that no sender of the spec can form.
-/
namespace Sys2Proof

/-- A command comes from a function, an SPDM session or a troupe link that the spec's numbering admits. -/
def Chan.wf (c : Chan) : Bool :=
  match c with
  | .host fn qp => decide (fn < 256) && decide (qp < 256)
  | .mgmt _ => true
  | .head peer _ _ _ _ _ => decide (peer < 65536)

/-- Every field of a header fits its width (Table 3.1). -/
def Hdr.wf (h : Hdr) : Bool :=
  h.chan.wf && decide (h.flags < 65536) && decide (h.session < 4294967296) && decide (h.hostTag < 4294967296) &&
  decide (h.pathLen < 256) && decide (h.version < 256) && decide (h.rsv < 65536) && decide (h.path.length = 8) &&
  h.path.all (fun m => decide (m < 65536)) && decide (h.unit < 4294967296) && decide (h.paramLen < 4294967296) &&
  decide (h.paramPtr < 2 ^ 64) && decide (h.memberBuf < 2 ^ 64) && decide (h.memberLen < 4294967296) &&
  decide (h.crc < 4294967296)

/-- A header is well-formed and the parameter bytes are as many as PARAM_LEN says. -/
def Hdr.paramsFit (h : Hdr) (p : Bytes) : Bool := h.wf && decide (p.length = h.paramLen)

/-- An access names a function and a BAR, and its value fits its size. -/
def Access.wf (a : Access) : Bool :=
  decide (a.fn < 256) && decide (a.bar < 6) && decide (a.val < 2 ^ (8 * a.size))

/-- Every field of an NVMe command fits its width. -/
def NvmeCmd.wf (n : NvmeCmd) : Bool :=
  decide (n.fn < 256) && decide (n.sqid < 65536) && decide (n.cid < 65536) && decide (n.nsid < 4294967296) &&
  decide (n.psdt < 4) && decide (n.cdw10 < 4294967296) && decide (n.cdw11 < 4294967296) &&
  decide (n.cdw12 < 4294967296) && decide (n.cdw13 < 4294967296)

/-- Every field of an RDMA packet fits its width. -/
def RdmaPkt.wf (k : RdmaPkt) : Bool :=
  decide (k.qpn < 16777216) && decide (k.psn < 16777216) && decide (k.msn < 16777216) &&
  decide (k.rkey < 4294967296) && decide (k.addr < 2 ^ 64) && decide (k.total < 4294967296)

/-- The fields of a picture lie within Table 7.8, or name what R189 does not support. -/
def Picture.wf (q : Picture) : Bool :=
  decide (q.codec < 256) && decide (q.ptype < 3) && decide (q.struct < 4) && decide (q.chroma < 4) && decide (q.depth < 256) &&
  decide (q.codedW < 65536) && decide (q.codedH < 65536) && decide (q.pts < 2 ^ 33) && decide (q.pts2 < 2 ^ 33) &&
  decide (q.crop.length = 4) && decide (q.planes.length ≤ 3)

/-- The fields of an audio frame lie within R208. -/
def AudioFrame.wf (a : AudioFrame) : Bool :=
  decide (a.track < 16) && decide (a.codec < 6) && decide (a.pts < 2 ^ 33)

/-- The fields of a caption lie within R208. -/
def Caption.wf (c : Caption) : Bool :=
  decide (1 ≤ c.service) && decide (c.service < 5) && decide (c.pts < 2 ^ 33) && decide (c.endPts < 2 ^ 33)

/-- A strap code fits its pins (R549). -/
def Straps.wf (x : Straps) : Bool := decide (x.i3c < 4)

/-- A function of an accelerator has at most six memory BARs, each of a power of two of bytes. -/
def accelFnOk (f : AccelFn) : Bool :=
  decide (f.bars.length ≤ 6) && f.bars.all (fun b => b == 0 || (decide (16 ≤ b) && decide (b < 2 ^ 64) && b == 2 ^ Nat.log2 b)) && decide (f.mps < 8)

/-- A window names a function or an accelerator that exists. -/
def Window.wf (w : Window) : Bool :=
  match w with
  | .bar0 fn => decide (fn < 256)
  | .bar4 fn => decide (fn < 256)
  | .feed a => decide (a < 8)

/-- Every operand of a command lies within what its spec table admits. -/
def Instr.wf (i : Instr) : Bool :=
  match i with
  | .registerWrite a => a.wf
  | .bar2Access a => a.wf
  | .setPartitions h p => h.wf && h.paramsFit p
  | .setCueSource h p => h.wf && h.paramsFit p
  | .positionFrame frame _ => decide (frame < 18446744073709551616)
  | .epochFrame frame _ => decide (frame < 18446744073709551616)
  | .ethCueFrame _ => true
  | .cueSwPosWrite a => a.wf
  | .cueInterpolate _ => true
  | .cueHoldoverTimeout => true
  | .cueHoldExpiry => true
  | .cueFrameEmit => true
  | .pathDelayEcho => true
  | .echoReadResponse => true
  | .cueEventSet h p => h.wf && h.paramsFit p
  | .cueEventClear h p => h.wf && h.paramsFit p
  | .cueEventFire => true
  | .ptmExchange _ => true
  | .sqTailWrite fn qp val =>
    decide (fn < 256) && decide (qp < 256) && decide (val.idx < 4294967296) &&
      val.other.all (fun c => decide (c.opcode < 65536) && c.hdr.wf && c.hdr.paramsFit c.params)
  | .cqHeadWrite fn qp val => decide (fn < 256) && decide (qp < 256) && decide (val < 4294967296)
  | .cmdCtrlEnSet fn => decide (fn < 256)
  | .cmdCtrlEnClear fn => decide (fn < 256)
  | .nop h p => h.wf && h.paramsFit p
  | .openSession h p => h.wf && h.paramsFit p
  | .closeSession h p => h.wf && h.paramsFit p
  | .setRoleKey h p => h.wf && h.paramsFit p
  | .createQueuePair h p => h.wf && h.paramsFit p
  | .deleteQueuePair h p => h.wf && h.paramsFit p
  | .intermissionBegin h p => h.wf && h.paramsFit p
  | .intermissionDrained scope => decide (scope < 4294967296)
  | .drainLimitExpiry scope => decide (scope < 4294967296)
  | .intermissionEnd h p => h.wf && h.paramsFit p
  | .intermissionAtReached scope => decide (scope < 4294967296)
  | .getState h p => h.wf && h.paramsFit p
  | .abort h p => h.wf && h.paramsFit p
  | .lockoutExpiry fn => decide (fn < 257)
  | .forwardedCommand member _ _ _ _ => decide (member < 65536)
  | .troupeMemberReply member _ => decide (member < 65536)
  | .troupeTimeout _ => true
  | .nvmeCcEnable fn cc => decide (fn < 256) && decide (cc < 4294967296)
  | .nvmeCcDisable fn cc => decide (fn < 256) && decide (cc < 4294967296)
  | .nvmeShutdown fn cc => decide (fn < 256) && decide (cc < 4294967296)
  | .nvmeSqDoorbell fn qid val =>
    decide (fn < 256) && decide (qid < 65536) && decide (val.idx < 65536) && val.other.all (fun c => decide (c.opcode < 256) && c.cmd.wf)
  | .nvmeCqDoorbell fn qid val => decide (fn < 256) && decide (qid < 65536) && decide (val < 65536)
  | .deleteIoSq n => n.wf
  | .createIoSq n => n.wf
  | .getLogPage n => n.wf
  | .deleteIoCq n => n.wf
  | .createIoCq n => n.wf
  | .identify n => n.wf
  | .nvmeAbort n => n.wf
  | .setFeatures n => n.wf
  | .getFeatures n => n.wf
  | .asyncEventRequest n => n.wf
  | .flush n => n.wf
  | .write n => n.wf
  | .read n => n.wf
  | .writeZeroes n => n.wf
  | .datasetManagement n => n.wf
  | .writeBufferAdmit => true
  | .wbDrainStart => true
  | .wbDrainComplete _ status => decide (status < 32768)
  | .remoteReadComplete _ _ => true
  | .remoteCommandFail _ status => decide (status < 32768)
  | .connectTarget h p => h.wf && h.paramsFit p
  | .targetAssociated _ => true
  | .disconnectTarget h p => h.wf && h.paramsFit p
  | .attachNamespace h p _ => h.wf && h.paramsFit p
  | .detachNamespace h p => h.wf && h.paramsFit p
  | .setNsMode h p => h.wf && h.paramsFit p
  | .setWbQuota h p => h.wf && h.paramsFit p
  | .getNsStatus h p => h.wf && h.paramsFit p
  | .discardDirty h p => h.wf && h.paramsFit p
  | .linkUp port => decide (port < 16)
  | .linkDown port => decide (port < 16)
  | .fecDegrade port _ => decide (port < 16)
  | .frameReceived port _ _ _ => decide (port < 16)
  | .frameRecirculate _ => true
  | .rdmaWriteReceived pkt => pkt.wf
  | .rdmaReadRequest pkt => pkt.wf
  | .rdmaReadResponse pkt => pkt.wf
  | .ackReceived pkt => pkt.wf
  | .cnpReceived qpn => decide (qpn < 16777216)
  | .qpAckTimeout qpn => decide (qpn < 16777216)
  | .sprayAckTimer qpn => decide (qpn < 16777216)
  | .qpRecoveryStart qpn => decide (qpn < 16777216)
  | .recoverSendTimer qpn => decide (qpn < 16777216)
  | .recoverReceived pkt => pkt.wf
  | .recoveryAttemptTimeout qpn => decide (qpn < 16777216)
  | .recoveryRetry qpn => decide (qpn < 16777216)
  | .pathDown qpn path => decide (qpn < 16777216) && decide (path < 64)
  | .pathProbe qpn path _ => decide (qpn < 16777216) && decide (path < 64)
  | .netEvqHeadWrite val => decide (val < 4294967296)
  | .cmReqReceived _ _ => true
  | .cmRepReceived member _ => decide (member < 65536)
  | .setPortMode h p => h.wf && h.paramsFit p
  | .getPortStatus h p => h.wf && h.paramsFit p
  | .createQp h p => h.wf && h.paramsFit p
  | .modifyQp h p => h.wf && h.paramsFit p
  | .destroyQp h p => h.wf && h.paramsFit p
  | .queryQp h p => h.wf && h.paramsFit p
  | .setEventQueue h p => h.wf && h.paramsFit p
  | .registerRegion h p => h.wf && h.paramsFit p
  | .deregisterRegion h p => h.wf && h.paramsFit p
  | .troupeAddMember h p => h.wf && h.paramsFit p
  | .troupeRemoveMember h p => h.wf && h.paramsFit p
  | .setContextReserve h p => h.wf && h.paramsFit p
  | .hedLoadGraph h p => h.wf && h.paramsFit p
  | .hedSetTable h p => h.wf && h.paramsFit p
  | .hedAddEntry h p => h.wf && h.paramsFit p
  | .hedDelEntry h p => h.wf && h.paramsFit p
  | .setPacketRing h p => h.wf && h.paramsFit p
  | .flowAgeExpiry ctx => decide (ctx < 1048576)
  | .contextError ctx => decide (ctx < 1048576)
  | .cipAssignPages h p => h.wf && h.paramsFit p
  | .cipLoadKey h p => h.wf && h.paramsFit p
  | .cipClearPage h p => h.wf && h.paramsFit p
  | .cipCrypt h p => h.wf && h.paramsFit p
  | .cipherUnitDone _ _ => true
  | .espLaneTimeout page => decide (page < 1024)
  | .drbgReseed lane => decide (lane < 16)
  | .shuOpenStream h p => h.wf && h.paramsFit p
  | .shuCloseStream h p => h.wf && h.paramsFit p
  | .shuFeed h p => h.wf && h.paramsFit p
  | .shuGetStream h p => h.wf && h.paramsFit p
  | .shuSetPolicy h p => h.wf && h.paramsFit p
  | .shuReturnOutput h p => h.wf && h.paramsFit p
  | .shuSetMel h p => h.wf && h.paramsFit p
  | .streamInputRead stream _ _ => decide (stream < 16384)
  | .pictureDecoded stream pic => decide (stream < 16384) && pic.wf
  | .audioFrameDecoded stream aud => decide (stream < 16384) && aud.wf
  | .captionChange stream cap => decide (stream < 16384) && cap.wf
  | .sliceReparseDone stream first _ => decide (stream < 16384) && decide (first < 64)
  | .containerTimeout stream => decide (stream < 16384)
  | .tapLoadProgram h p => h.wf && h.paramsFit p
  | .tapUnloadProgram h p => h.wf && h.paramsFit p
  | .tapRun h p => h.wf && h.paramsFit p
  | .tapBindQueue h p => h.wf && h.paramsFit p
  | .tapUnbindQueue h p => h.wf && h.paramsFit p
  | .tapGetQueue h p => h.wf && h.paramsFit p
  | .tapSetPolicy h p => h.wf && h.paramsFit p
  | .queueWaitExpiry queue => decide (queue < 256)
  | .sliceComplete core _ _ => decide (core < 64)
  | .sliceOverrun core => decide (core < 64)
  | .coreJoin core => decide (core < 64)
  | .loomOpenJob h p => h.wf && h.paramsFit p
  | .loomCloseJob h p => h.wf && h.paramsFit p
  | .loomAddWarp h p => h.wf && h.paramsFit p
  | .loomSetLayout h p => h.wf && h.paramsFit p
  | .loomStart h p => h.wf && h.paramsFit p
  | .loomGetCursor h p => h.wf && h.paramsFit p
  | .loomSetCursor h p => h.wf && h.paramsFit p
  | .loomGetOrder h p => h.wf && h.paramsFit p
  | .loomGetJob h p => h.wf && h.paramsFit p
  | .loomSetShare h p => h.wf && h.paramsFit p
  | .loomFetchStart job => decide (job < 64)
  | .indexEntryRead job warp _ _ => decide (job < 64) && decide (warp < 4096)
  | .samplePayloadRead job warp _ _ => decide (job < 64) && decide (warp < 4096)
  | .sampleAdmit job warp _ _ => decide (job < 64) && decide (warp < 4096)
  | .exchangeNotice job _ => decide (job < 64)
  | .rescueFetch job warp _ => decide (job < 64) && decide (warp < 4096)
  | .weaveClose job consumer => decide (job < 64) && decide (consumer < 8192)
  | .feedSetPort h p => h.wf && h.paramsFit p
  | .feedAdmit h p => h.wf && h.paramsFit p
  | .feedRelease h p => h.wf && h.paramsFit p
  | .latchAssign h p => h.wf && h.paramsFit p
  | .feedCreateRing h p => h.wf && h.paramsFit p
  | .feedDestroyRing h p => h.wf && h.paramsFit p
  | .feedResetRing h p => h.wf && h.paramsFit p
  | .feedGetRing h p => h.wf && h.paramsFit p
  | .feedJoin h p => h.wf && h.paramsFit p
  | .accelPresence accel => decide (accel < 8)
  | .accelEnumerated accel _ funcs speed width vendor device => decide (funcs.length ≤ 256) && funcs.all accelFnOk && decide (accel < 8) && decide (speed < 8) && decide (width < 8) && decide (vendor < 65536) && decide (device < 65536)
  | .linkTrainingTimeout accel => decide (accel < 8)
  | .accelRetryTimer accel => decide (accel < 8)
  | .accelDeparted accel => decide (accel < 8)
  | .latchAdd w latch size val => w.wf && decide (latch < 8192) && decide (size < 16) && decide (val < 18446744073709551616)
  | .latchPost w latch size val => w.wf && decide (latch < 8192) && decide (size < 16) && decide (val < 18446744073709551616)
  | .latchValWrite a => a.wf
  | .latchThreshWrite a => a.wf
  | .latchCfgWrite a => a.wf
  | .upstreamAccess accel addr size _ => decide (size ≤ 4096) && decide (accel < 8) && decide (addr < 18446744073709551616)
  | .deliveryIssue ring => decide (ring < 1024)
  | .deliveryLanded ring n => decide (ring < 1024) && decide (n < 4294967296)
  | .genReadResponse ring n gen => decide (ring < 1024) && decide (n < 4294967296) && decide (gen < 4294967296)
  | .ringResetReadDone ring => decide (ring < 1024)
  | .creditMailboxEntry rkey _ => decide (rkey < 4294967296)
  | .layoutNotice job _ => decide (job < 64)
  | .layoutRoundTimeout job ring => decide (job < 64) && decide (ring < 1024)
  | .layoutRepropose job ring => decide (job < 64) && decide (ring < 1024)
  | .detectedError unit _ _ _ => decide (unit < 176)
  | .correctedError unit _ _ => decide (unit < 176)
  | .meshDegraded _ => true
  | .patrolScrub channel _ => decide (channel < 16)
  | .uncorrectableBurst _ channel _ _ _ => decide (channel < 16)
  | .partitionResetEnd part _ => decide (part < 7)
  | .channelRemoved => true
  | .recordCoalesceExpiry unit code op => decide (unit < 4294967296) && decide (code < 65536) && decide (op < 4294967296)
  | .iftDue core => decide (core < 64)
  | .iftComplete core _ _ => decide (core < 64)
  | .rasSetErrorRing h p => h.wf && h.paramsFit p
  | .rasErrorHead h p => h.wf && h.paramsFit p
  | .rasGetUnit h p => h.wf && h.paramsFit p
  | .rasFenceUnit h p => h.wf && h.paramsFit p
  | .rasSetTest h p => h.wf && h.paramsFit p
  | .ckpSetJob h p => h.wf && h.paramsFit p
  | .ckpSetShards h p => h.wf && h.paramsFit p
  | .ckpSetTrigger h p => h.wf && h.paramsFit p
  | .ckpCapture h p => h.wf && h.paramsFit p
  | .ckpGetJob h p => h.wf && h.paramsFit p
  | .ckpRestore h p => h.wf && h.paramsFit p
  | .ckpSetSigners h p => h.wf && h.paramsFit p
  | .ckpCloseJob h p => h.wf && h.paramsFit p
  | .ckpReadBank h p => h.wf && h.paramsFit p
  | .captureDecision job => decide (job < 64)
  | .bankZeroAck job => decide (job < 64)
  | .captureStart job => decide (job < 64)
  | .shardCopied job index _ _ => decide (job < 64) && decide (index < 65536)
  | .shardStored job index => decide (job < 64) && decide (index < 65536)
  | .captureCommit job => decide (job < 64)
  | .pbWriteFail job _ => decide (job < 64)
  | .checkpointNotice job _ => decide (job < 64)
  | .drainComplete job => decide (job < 64)
  | .restoreShardRead job index _ _ => decide (job < 64) && decide (index < 65536)
  | .stgLoadGo a => a.wf
  | .stgLoadDone _ _ => true
  | .watchdogExpiry core => decide (core < 16)
  | .stagehandRestarted core => decide (core < 16)
  | .fwGetInfo h p => h.wf && h.paramsFit p
  | .fwStage h p => h.wf && h.paramsFit p
  | .fwVerify h p => h.wf && h.paramsFit p
  | .fwActivate h p => h.wf && h.paramsFit p
  | .handoverClearance => true
  | .activateDeferTimeout => true
  | .handoverQuiesced => true
  | .handoverQuiesceTimeout => true
  | .handoverResumed => true
  | .trialExpiry => true
  | .fwCommit h p => h.wf && h.paramsFit p
  | .fwRollback h p => h.wf && h.paramsFit p
  | .fwLoadModule h p => h.wf && h.paramsFit p
  | .fwUnloadModule h p => h.wf && h.paramsFit p
  | .fwSetModuleKey h p => h.wf && h.paramsFit p
  | .add core rd ra rb => decide (core < 17) && decide (rd < 32) && decide (ra < 32) && decide (rb < 32)
  | .sub core rd ra rb => decide (core < 17) && decide (rd < 32) && decide (ra < 32) && decide (rb < 32)
  | .andR core rd ra rb => decide (core < 17) && decide (rd < 32) && decide (ra < 32) && decide (rb < 32)
  | .orR core rd ra rb => decide (core < 17) && decide (rd < 32) && decide (ra < 32) && decide (rb < 32)
  | .xorR core rd ra rb => decide (core < 17) && decide (rd < 32) && decide (ra < 32) && decide (rb < 32)
  | .shl core rd ra rb => decide (core < 17) && decide (rd < 32) && decide (ra < 32) && decide (rb < 32)
  | .shr core rd ra rb => decide (core < 17) && decide (rd < 32) && decide (ra < 32) && decide (rb < 32)
  | .sar core rd ra rb => decide (core < 17) && decide (rd < 32) && decide (ra < 32) && decide (rb < 32)
  | .mul core rd ra rb => decide (core < 17) && decide (rd < 32) && decide (ra < 32) && decide (rb < 32)
  | .mulhu core rd ra rb => decide (core < 17) && decide (rd < 32) && decide (ra < 32) && decide (rb < 32)
  | .divu core rd ra rb => decide (core < 17) && decide (rd < 32) && decide (ra < 32) && decide (rb < 32)
  | .remu core rd ra rb => decide (core < 17) && decide (rd < 32) && decide (ra < 32) && decide (rb < 32)
  | .minu core rd ra rb => decide (core < 17) && decide (rd < 32) && decide (ra < 32) && decide (rb < 32)
  | .maxu core rd ra rb => decide (core < 17) && decide (rd < 32) && decide (ra < 32) && decide (rb < 32)
  | .movR core rd ra => decide (core < 17) && decide (rd < 32) && decide (ra < 32)
  | .sltu core rd ra rb => decide (core < 17) && decide (rd < 32) && decide (ra < 32) && decide (rb < 32)
  | .addi core rd ra imm => decide (core < 17) && decide (rd < 32) && decide (ra < 32) && decide (imm < 65536)
  | .andi core rd ra imm => decide (core < 17) && decide (rd < 32) && decide (ra < 32) && decide (imm < 65536)
  | .ori core rd ra imm => decide (core < 17) && decide (rd < 32) && decide (ra < 32) && decide (imm < 65536)
  | .xori core rd ra imm => decide (core < 17) && decide (rd < 32) && decide (ra < 32) && decide (imm < 65536)
  | .shiftiShl core rd ra amount => decide (core < 17) && decide (rd < 32) && decide (ra < 32) && decide (amount < 64)
  | .shiftiShr core rd ra amount => decide (core < 17) && decide (rd < 32) && decide (ra < 32) && decide (amount < 64)
  | .shiftiSar core rd ra amount => decide (core < 17) && decide (rd < 32) && decide (ra < 32) && decide (amount < 64)
  | .movz core rd k imm => decide (core < 17) && decide (rd < 32) && decide (k < 4) && decide (imm < 65536)
  | .movk core rd k imm => decide (core < 17) && decide (rd < 32) && decide (k < 4) && decide (imm < 65536)
  | .ld64 core rd ra imm => decide (core < 17) && decide (rd < 32) && decide (ra < 32) && decide (imm < 65536)
  | .ld32u core rd ra imm => decide (core < 17) && decide (rd < 32) && decide (ra < 32) && decide (imm < 65536)
  | .ld16u core rd ra imm => decide (core < 17) && decide (rd < 32) && decide (ra < 32) && decide (imm < 65536)
  | .ld8u core rd ra imm => decide (core < 17) && decide (rd < 32) && decide (ra < 32) && decide (imm < 65536)
  | .st64 core rs ra imm => decide (core < 17) && decide (rs < 32) && decide (ra < 32) && decide (imm < 65536)
  | .st32 core rs ra imm => decide (core < 17) && decide (rs < 32) && decide (ra < 32) && decide (imm < 65536)
  | .st16 core rs ra imm => decide (core < 17) && decide (rs < 32) && decide (ra < 32) && decide (imm < 65536)
  | .st8 core rs ra imm => decide (core < 17) && decide (rs < 32) && decide (ra < 32) && decide (imm < 65536)
  | .beq core rs ra imm => decide (core < 17) && decide (rs < 32) && decide (ra < 32) && decide (imm < 65536)
  | .bne core rs ra imm => decide (core < 17) && decide (rs < 32) && decide (ra < 32) && decide (imm < 65536)
  | .blt core rs ra imm => decide (core < 17) && decide (rs < 32) && decide (ra < 32) && decide (imm < 65536)
  | .bge core rs ra imm => decide (core < 17) && decide (rs < 32) && decide (ra < 32) && decide (imm < 65536)
  | .bltu core rs ra imm => decide (core < 17) && decide (rs < 32) && decide (ra < 32) && decide (imm < 65536)
  | .bgeu core rs ra imm => decide (core < 17) && decide (rs < 32) && decide (ra < 32) && decide (imm < 65536)
  | .jal core imm => decide (core < 17) && decide (imm < 67108864)
  | .jr core rd ra => decide (core < 17) && decide (rd < 32) && decide (ra < 32)
  | .loop core level rc fin => decide (core < 17) && decide (level < 4) && decide (rc < 32) && decide (fin < 524288)
  | .loopi core level count fin => decide (core < 17) && decide (level < 4) && decide (count < 4096) && decide (fin < 4096)
  | .csrr core rd imm => decide (core < 17) && decide (rd < 32) && decide (imm < 65536)
  | .csrw core rs imm => decide (core < 17) && decide (rs < 32) && decide (imm < 65536)
  | .tagR core rd ra => decide (core < 17) && decide (rd < 32) && decide (ra < 32)
  | .retag core rd ra tag => decide (core < 17) && decide (rd < 32) && decide (ra < 32) && decide (tag < 16)
  | .trap core imm => decide (core < 17) && decide (imm < 256)
  | .tret core cls => decide (core < 17) && decide (cls < 16)
  | .adr core rd imm => decide (core < 17) && decide (rd < 32) && decide (imm < 65536)
  | .wait core rd rb => decide (core < 17) && decide (rd < 32) && decide (rb < 32)
  | .waitReturn core => decide (core < 17)
  | .sha256Init core => decide (core < 17)
  | .sha256Upd core ra rb => decide (core < 17) && decide (ra < 32) && decide (rb < 32)
  | .sha256Fin core ra => decide (core < 17) && decide (ra < 32)
  | .crc32c core rd ra rb => decide (core < 17) && decide (rd < 32) && decide (ra < 32) && decide (rb < 32)
  | .crc64 core rd ra rb => decide (core < 17) && decide (rd < 32) && decide (ra < 32) && decide (rb < 32)
  | .walk core rd ra rb => decide (core < 17) && decide (rd < 32) && decide (ra < 32) && decide (rb < 32)
  | .ctxRd core ra rb => decide (core < 17) && decide (ra < 32) && decide (rb < 32)
  | .ctxWr core ra rb => decide (core < 17) && decide (ra < 32) && decide (rb < 32)
  | .ctxPin core ra => decide (core < 17) && decide (ra < 32)
  | .ctxUnpin core ra => decide (core < 17) && decide (ra < 32)
  | .cbRaise core ra => decide (core < 17) && decide (ra < 32)
  | .cbPend core rd => decide (core < 17) && decide (rd < 32)
  | .cbDone core ra => decide (core < 17) && decide (ra < 32)
  | .ltRead core rd ra => decide (core < 17) && decide (rd < 32) && decide (ra < 32)
  | .ltAdd core ra rb => decide (core < 17) && decide (ra < 32) && decide (rb < 32)
  | .ltThresh core ra rb => decide (core < 17) && decide (ra < 32) && decide (rb < 32)
  | .dmaCopy core rd ra _ err => decide (core < 17) && decide (rd < 32) && decide (ra < 32) && decide (err < 5)
  | .dmaWin core rd ra => decide (core < 17) && decide (rd < 32) && decide (ra < 32)
  | .moduleBudgetExpiry core => decide (core < 16)
  | .callAssign h p => h.wf && h.paramsFit p
  | .callMaskSet a => a.wf
  | .callMaskClr a => a.wf
  | .callPendSet a => a.wf
  | .callPendClr a => a.wf
  | .callVTake fn vec => decide (fn < 256) && decide (vec < 2048)
  | .callVDone fn vec src => decide (fn < 256) && decide (vec < 2048) && decide (src < 8192)
  | .moderationExpiry fn vec => decide (fn < 256) && decide (vec < 2048)
  | .msixUnmask fn vec => decide (fn < 256) && decide (vec < 2049)
  | .flr fn => decide (fn < 256)
  | .flrComplete fn => decide (fn < 256)
  | .vfEnableSet num => decide (num < 256)
  | .vfEnableClear => true
  | .barResize _ _ => true
  | .mboxSeqWrite a => a.wf
  | .mboxAckWrite a => a.wf
  | .vfSetResources h p => h.wf && h.paramsFit p
  | .vfGetResources h p => h.wf && h.paramsFit p
  | .vfSetMbox h p => h.wf && h.paramsFit p
  | .vfTrackStart h p => h.wf && h.paramsFit p
  | .vfTrackSync h p => h.wf && h.paramsFit p
  | .vfTrackStop h p => h.wf && h.paramsFit p
  | .vfFreeze h p => h.wf && h.paramsFit p
  | .vfFrozen vf => decide (vf < 256)
  | .vfFreezeDrainLimit vf => decide (vf < 256)
  | .vfSavePrecopy h p => h.wf && h.paramsFit p
  | .vfSaveFinal h p => h.wf && h.paramsFit p
  | .vfRestore h p _ => h.wf && h.paramsFit p
  | .vfResume h p => h.wf && h.paramsFit p
  | .vfSetMigKey h p => h.wf && h.paramsFit p
  | .smBoot => true
  | .smWatchdogExpiry => true
  | .sensorSample index _ => decide (index < 96)
  | .storeBankCompare _ => true
  | .getVersion medium _ => decide (medium < 3)
  | .getCapabilities medium _ => decide (medium < 3)
  | .negotiateAlgorithms medium _ => decide (medium < 3)
  | .getDigests medium _ => decide (medium < 3)
  | .getCertificate medium _ => decide (medium < 3)
  | .challenge medium _ => decide (medium < 3)
  | .getMeasurements medium _ => decide (medium < 3)
  | .keyExchange medium _ => decide (medium < 3)
  | .finish medium sess _ => decide (medium < 3) && decide (sess < 4294967296)
  | .keyUpdate medium sess _ => decide (medium < 3) && decide (sess < 4294967296)
  | .endSession medium sess _ => decide (medium < 3) && decide (sess < 4294967296)
  | .mctpControl medium _ => decide (medium < 3)
  | .mgmtCommand _ _ _ => true
  | .mgmtScanRequest _ _ => true
  | .pldmBase medium _ => decide (medium < 3)
  | .pldmPlatform medium _ => decide (medium < 3)
  | .pldmFru medium _ => decide (medium < 3)
  | .pldmFirmwareUpdate medium _ _ => decide (medium < 3)
  | .setEventReceiver medium eid => decide (medium < 3) && decide (eid < 256)
  | .healthResendTimer _ => true
  | .activateFirmware medium _ _ => decide (medium < 3)
  | .smActivateClearance => true
  | .smActivateTimeout => true
  | .smFwConfirm => true
  | .smTrialTimeout => true
  | .smReadLog h p => h.wf && h.paramsFit p
  | .smSetOperatorKey h p => h.wf && h.paramsFit p
  | .smSetThreshold h p => h.wf && h.paramsFit p
  | .smSetFwKey h p => h.wf && h.paramsFit p
  | .smSetMgmt h p => h.wf && h.paramsFit p
  | .mgmtConfigApply => true
  | .obsSetSnapArea h p => h.wf && h.paramsFit p
  | .obsSnapHead h p => h.wf && h.paramsFit p
  | .obsSetCounter h p => h.wf && h.paramsFit p
  | .obsTraceCfg h p => h.wf && h.paramsFit p
  | .obsTraceStart h p => h.wf && h.paramsFit p
  | .obsTraceStop h p => h.wf && h.paramsFit p
  | .obsTrigger h p => h.wf && h.paramsFit p
  | .obsTraceRead h p => h.wf && h.paramsFit p
  | .obsTableau h p => h.wf && h.paramsFit p
  | .obsClearCounters h p => h.wf && h.paramsFit p
  | .tableauStopped => true
  | .jtagAccess space _ _ => decide (space < 6)
  | .powerControlTick => true
  | .thermalCapStep => true
  | .pwrSetCap h p => h.wf && h.paramsFit p
  | .pwrSetConfig h p => h.wf && h.paramsFit p
  | .eprNLow => true
  | .eprNHigh => true
  | .eprHoldExpiry => true
  | .aonPowerUp straps => straps.wf
  | .aonPowerOff => true
  | .inputOutOfRange => true
  | .inputRestored => true
  | .pwrEnHigh => true
  | .pwrEnLow => true
  | .mainPowerUp => true
  | .mainDomainReady => true
  | .sysRstAssert => true
  | .sysRstRelease => true
  | .hpPerstAssert => true
  | .perstResetHoldExpiry => true
  | .hpPerstRelease => true
  | .tableauNFall => true
  | .handoverStep4Timeout => true
  | .stoTargetUnreachable _ => true
  | .rejReceived member => decide (member < 65536)
  | .rtuReceived member => decide (member < 65536)
  | .netPeerUnreachable member => decide (member < 65536)
  | .hostLinkUp => true
  | .dynamicAddressAssigned addr => decide (addr < 128)
  | .alertNAssert => true

end Sys2Proof
end

