-- ==== Sys2Proof/Tests/Slice0.lean ====
section
/-!
SUPPORT. Tests of the model: ill-formed commands that the check refuses, small steps, and for every statement with premises a state and
operands that meet them. `met_<statement>` lists, clause by clause, the premises at such a state and operands; `witness_<statement>` says
that all of them hold.
A clause whose premise asks a free function of Config for one answer (a signature check, a certificate check) has no concrete witness:
nothing in Lean evaluates a free value.
-/
namespace Sys2Proof.Tests

open Sys2Proof Sys2Proof.Machine Sys2Proof.Safety

/-- A latch number at its bound is refused. -/
theorem test_wf_latch : Instr.wf (.latchAdd (.feed 0) 8192 8 0) = false := by decide

/-- An idle step keeps the state (log entry 11). -/
theorem test_idle : Safety.stepSafe State.reset = true := by decide

/-! ## Small states -/

/-- Fields of a parameter record: size and value of each. -/
def pk (l : List (Nat × Nat)) : Bytes := l.flatMap (fun e => leBytes e.1 e.2)

/-- A parameter record of `n` bytes, zero but for fields given by offset, size and value. -/
def put (n : Nat) (l : List (Nat × Nat × Nat)) : Bytes :=
  l.foldl (fun p e => p.take e.1 ++ leBytes e.2.1 e.2.2 ++ p.drop (e.1 + e.2.1)) (zeros n)

/-- A running device: an image that grants every feature, the PF's admin queue pair with commands to fetch, and an operator session. -/
def dev : State :=
  { State.reset with
    aon := { State.reset.aon with mainPhase := .ready, hostLink := true, time := 100000000000 }
    stg := { State.reset.stg with image := some {}, grant := 65535, grantMin := 1, grantMax := 2 }
    cmd := { State.reset.cmd with
      fns := [(0, { en := true, rdy := true })]
      qps := [(qpKey 0 0, { tail := 60 })]
      sessions := [{ fn := 0, handle := 1, role := .operator }] } }

/-- A header of a command to a unit with parameters inline. -/
def hdr (unit n : Nat) : Hdr := { chan := .host 0 0, session := 1, unit := unit, paramLen := n }

/-- A header of a command with parameters by pointer. -/
def hdrPtr (unit n : Nat) : Hdr := { chan := .host 0 0, session := 1, unit := unit, paramLen := n, flags := 1, paramPtr := 4096 }

/-- The operator of that session. -/
def oper : Caller := { role := .operator, fn := 0, hfn := 0, handle := 1 }

/-- Whether a command is served. -/
def srv (sp : OpSpec) (unit : Nat) (p : Bytes) (s : State) : Bool := served sp 0 0 (hdr unit p.length) p oper s

/-- The state in which its effect begins. -/
def bgn (sp : OpSpec) (unit : Nat) (p : Bytes) (s : State) : State := begun sp 0 0 (hdr unit p.length) s

/-- A device in an intermission of a scope that the operator holds. -/
def stopped (scope : Nat) (s : State) : State :=
  { s with cmd := { s.cmd with inters := [{ scope := scope, fn := 0, handle := 1, ph := .intermission }] } }

/-- Whether the operator holds the intermission of a scope. -/
def holds (s : State) (unit : Nat) : Bool :=
  match s.interOf unit with
  | some r => r.ph == .intermission && r.heldBy oper
  | none => false

/-- Whether settings are in force without a contradiction. -/
def applied (x : Except (Nat × Nat) State) (p : State → Bool) : Bool :=
  match x with
  | .ok t => p t
  | .error _ => false

/-! ## Premises of the statements: commands, intermissions, host accesses, cue -/

def met_CommandInterfaceCommandsComplete : List Bool :=
  let key := pk [(8, 1), (32, 0)]
  let vf := { dev with host := { dev.host with vfEnable := true, numVfs := 4, vfs := [(1, { st := 1 }), (2, { st := 1 })] } }
  let sq := pk [(16, 0), (1, 6), (1, 6), (2, 0), (4, 0)]
  let two := { dev with cmd := { dev.cmd with qps := dev.cmd.qps ++ [(qpKey 0 1, {})] } }
  let ab := pk [(2, 0), (2, 0), (4, 7)]
  let old : FetchedCmd := { opcode := 0, hdr := { hdr 0 0 with hostTag := 7 }, held := some 0 }
  let had := { dev with cmd := { dev.cmd with fetched := [old] } }
  let hit := fun (f : FetchedCmd) => f.ofQp (qpKey 0 0) && f.hdr.hostTag == 7
  [srv opNop 0 [] dev,
   served opOpenSession 0 0 { hdr 0 40 with session := 0 } key { role := .tenant, fn := 0, hfn := 0, handle := 0 } dev,
   srv opCloseSession 0 [] dev, srv opGetState 0 [] dev,
   srv opSetRoleKey 0 (pk [(8, 1), (32, 5)]) dev,
   srv opSetRoleKey 0 (pk [(2, 2), (2, 1), (4, 0), (32, 5)]) vf,
   srv opCreateQueuePair 0 sq dev && (freeKey (bgn opCreateQueuePair 0 sq dev).cmd.qps ((bgn opCreateQueuePair 0 sq dev).maxQp 0 - 1) (qpKey 0 1)).isSome &&
     decide ((bgn opCreateQueuePair 0 sq dev).qpCount 0 < (bgn opCreateQueuePair 0 sq dev).maxQp 0),
   srv opDeleteQueuePair 0 (pk [(2, 1), (6, 0)]) two && ahas (bgn opDeleteQueuePair 0 (pk [(2, 1), (6, 0)]) two).cmd.qps (qpKey 0 1),
   srv opAbort 0 ab dev && ((bgn opAbort 0 ab dev).cmd.fetched.find? hit).isNone,
   srv opAbort 0 ab had && (bgn opAbort 0 ab had).cmd.fetched.find? hit == some old]

def met_IntermissionsAct : List Bool :=
  let in_ := stopped uTapestry dev
  let held := { in_ with sto := { in_.sto with modeWait := [(0, 1)] } }
  let endP := pk [(16, 0)]
  let parts := pk [(4, 256), (4, 16384), (4, 8192), (4, 0)]
  let phase := fun (x : Inter) (s : State) => ({ s with cmd := { s.cmd with inters := [x] } } : State)
  let drain := phase { scope := uTapestry, fn := 0, handle := 1, drainBy := some 5 } dev
  let back := phase { scope := uTapestry, fn := 0, handle := 1, ph := .restarting } { dev with cue := { dev.cue with st := .locked } }
  let b := bgn opIntermissionEnd uTapestry endP in_
  let dv := stopped uDevice held
  let bd := bgn opIntermissionEnd uDevice endP dv
  [srv opIntermissionBegin uTapestry (pk [(8, 0)]) dev && ((bgn opIntermissionBegin uTapestry (pk [(8, 0)]) dev).interOn uTapestry).isNone &&
     ((bgn opIntermissionBegin uTapestry (pk [(8, 0)]) dev).interOn uDevice).isNone,
   srv opIntermissionEnd uTapestry endP in_ && holds b uTapestry && !b.allFenced uTapestry &&
     (b.interOn uTapestry).any (fun r => applied ((State.applyAll 0 (b.stagedNow r) 0 b).mapError (fun i => (i, 0))) (fun t => !t.modeWaits uTapestry)),
   srv opIntermissionEnd uDevice endP dv && holds bd uDevice && !bd.allFenced uDevice &&
     (bd.interOn uDevice).any (fun r => applied ((State.applyAll 0 (bd.stagedNow r) 0 bd).mapError (fun i => (i, 0))) (fun t => t.modeWaits uDevice)),
   srv opSetPartitions uDevice parts (stopped uDevice dev) && holds (bgn opSetPartitions uDevice parts (stopped uDevice dev)) uDevice &&
     (bgn opSetPartitions uDevice parts (stopped uDevice dev)).remains parts && (bgn opSetPartitions uDevice parts (stopped uDevice dev)).rangesFit parts,
   drain.live && (drain.interOn uTapestry).any (fun r => r.ph == .draining && r.drainBy == some 5) && drain.scopeIdle uTapestry && decide (5 ≤ drain.now),
   back.live && !back.modeWaits uTapestry && back.cue.st != .none && !back.allFenced uTapestry &&
     (back.interOn uTapestry).any (fun r => r.ph == .restarting && decide (r.at_ * 65536 ≤ back.cue.pos) &&
       applied ((State.applyAll r.at_ (back.stagedNow r) 0 back).mapError (fun i => (i, 0))) (fun t => !t.modeWaits uTapestry))]

def met_DoorbellsAndForeignCommandsAct : List Bool :=
  let q : QPair := { tail := 60, unread := 3 }
  let s := { dev with cmd := { dev.cmd with qps := [(qpKey 0 0, q)], fns := [(0, { lockUntil := some 5 })] } }
  let on := { dev with net := { dev.net with members := [{ id := 3, isHead := true, live := true }, { id := 4, live := true }] } }
  let entry := padTo 8184 (pk [(2, 0), (2, 0), (4, 0), (4, 0), (1, 0), (1, 2)]) ++ leBytes 8 1
  let ask := { dev with sm := { dev.sm with running := true, sess := [{ id := 9, live := true }] } }
  let fan : Fanout := { id := 6, members := [4], by_ := 5 }
  let out := { on with cmd := { on.cmd with fanouts := [fan] } }
  let rep := pk [(8, 6), (4080, 0), (8, 1)]
  [hostWrites 0 s && aget s.cmd.qps (qpKey 0 0) == some q && !q.err && decide (61 < q.sqSize) &&
     decide ((q.tail + q.sqSize - q.head) % q.sqSize ≤ (61 + q.sqSize - q.head) % q.sqSize) && !hasRow 0xE012,
   hostWrites 0 s && decide (2 < q.cqSize) && decide ((2 + q.cqSize - q.cqHead) % q.cqSize ≤ q.unread),
   hostWrites 0 s && !(s.fnCmd 0).en && (s.fnCmd 0).cfgOk, (s.fnCmd 0).lockUntil == some 5 && decide (5 ≤ s.now),
   (on.member 3).any (fun m => m.isHead && m.live && fld entry 8184 8 == (m.cmdIn + 1) % 2 ^ 64) && on.live && on.stg.image.isSome && on.granted 1 &&
     !on.cmd.fetched.any (fun f => f.isCmd (fld entry 0 2) (fwdHdr 3 entry true) []),
   ask.sm.running && ask.sm.sess.any (fun x => x.id == 9 && x.live) && fld (pk [(2, 1), (64, 0)]) 0 1 == 1 && decide (66 ≤ (pk [(2, 1), (64, 0)]).length),
   out.live && (out.member 4).any (fun m => fld rep 4088 8 == (m.rplyIn + 1) % 2 ^ 64) &&
     out.cmd.fanouts.any (fun f => f.id == fld rep 0 8 && f.members.contains 4 && decide (f.by_ ≤ out.now))]

def met_HostAccessesPerformed : List Bool :=
  let rd := fun (off size : Nat) => ({ off := off, size := size, wr := false } : Access)
  let reg := fun (s : State) (a : Access) (f : Reg → Bool) =>
    decide (a.off < bar0Len a.fn) && hostReads 0 s && hostWrites 0 s && a.aligned && (s.reg a.fn (a.off / 8 * 8)).any f
  let put := fun (s : State) (a : Access) (f : Reg → Bool) => reg (s.ao 11 a.size) a (fun r => r.put.isSome && f r)
  let words := { dev with glb := { dev.glb with
    latchedHi := [{ fn := 0, off := 0x10, val := 7 }], heldHi := [{ fn := 0, off := 0x10, val := 7 }] } }
  let none_ := rd (bar0Len 0 - 8) 8
  let post : Access := { bar := 4, off := 0x00100040, wr := false }
  let a := dev.partBase .staging
  let big := { dev with glb := { dev.glb with bar2Next := 64 } }
  [none_.aligned && (dev.reg 0 (bar0Len 0 - 8)).isNone && hostReads 0 dev, reg dev (rd 0 8) (fun r => !r.loose),
   reg dev (rd 0x00020000 8) (fun r => r.loose), reg dev (rd 0 4) (fun r => r.wide && !r.loose),
   reg words (rd 0x14 4) (fun r => r.wide && !r.loose) && words.latchedWord 0 0x10 == some 7,
   reg dev (rd 0x00300038 4) (fun r => !r.wide && !r.loose), !(rd 2 4).aligned && !(rd 0 2).aligned,
   ((dev.ao 11 8).reg 0 (bar0Len 0 - 8)).isNone, put dev (rd 0x10 8) (fun r => r.wide), put dev (rd 0x14 4) (fun r => r.wide),
   put words (rd 0x10 4) (fun r => r.wide) && (words.ao 11 4).heldWord 0 0x10 == some 7,
   put dev (rd 0x10 4) (fun r => r.wide) && (dev.ao 11 4).heldWord 0 0x10 == none, put dev (rd 0x00300038 4) (fun r => !r.wide),
   hostReads 0 dev && post.off % 64 == 0 && dev.latNamed 0 ((post.off - 0x00100000) / 64) == some 1 && (dev.cell 1).owner == 0,
   ({ dev with ras := { dev.ras with removing := some (1, 0) } } : State).memHeld,
   hostReads 0 big && !big.memHeld && Nat.ble (a + 8) (big.bar2Sized.bar2Len 0) && (List.range 8).all (fun i => big.bar2Sized.bar2At 0 (a + i) == .mem (a + i))]

def met_CueCommandsComplete : List Bool :=
  let src := pk [(1, 1), (7, 0)]
  let set := pk [(4, 0), (1, 1), (1, 0), (1, 1), (1, 0), (8, 7), (4, 0), (4, 0), (8, 1)]
  let e : CueEvent := { kind := 1, target := 7, action := 1 }
  let with_ := fun (e : CueEvent) => ({ dev with cue := { dev.cue with events := [(0, e)] } } : State)
  let late : CueEvent := { e with target := 10 ^ 15 }
  let clr := pk [(8, 0)]
  let b := bgn opCueEventSet 0 set dev
  [srv opSetCueSource 0 src dev,
   srv opCueEventSet 0 set dev && decide (fld set 0 4 < 4096) && aget b.cue.events 0 == none && decide (0 < b.cueQuota 0) &&
     decide ((cueEventOf 0 set).kind ≠ 0) && (cueEventOf 0 set).action == 1 && decide ((cueEventOf 0 set).actTarget < latchCount),
   srv opCueEventClear 0 clr (with_ e) && (bgn opCueEventClear 0 clr (with_ e)).cueDue e,
   srv opCueEventClear 0 clr (with_ late) && !(bgn opCueEventClear 0 clr (with_ late)).cueDue late]

def met_CueActs : List Bool :=
  let frame := fun (kind : Nat) => let f := kind * 2 ^ 60 + 5 * 2 ^ 28; f + crc8 (beBytes 7 (f / 256))
  let src := fun (x : CueSrc) (st : CueState) => ({ dev with cue := { dev.cue with src := x, st := st } } : State)
  let ser := src .serial .acquiring
  let head : State := { (src .eth .locked) with net := { dev.net with members := [{ id := 0, isHead := true, live := true }] } }
  let bytes := pk [(1, 1), (1, 0), (1, 1), (1, 0), (4, 100), (8, 5 * 65536), (8, 0), (8, 1)]
  let a : Access := { off := 0x00100028, val := 5 * 65536 }
  let sw := src .software .locked
  let due := { ser with cue := { ser.cue with events := [(2, { kind := 1, target := 7 })] } }
  let fn0 := { ser with cue := { ser.cue with st := .locked, pos := 10 ^ 12, events := [(2, { target := 7 })] } }
  let echo := { head with cue := { head.cue with echoSent := some 5 } }
  let next := { dev with aon := { dev.aon with ptmSetNext := false } }
  [ser.live && ser.cue.src == .serial && serialOk (frame 1) true && bits (frame 1) 60 4 == 1 && !ser.cue.firstDue && bits (frame 1) 52 8 == ser.cue.fieldGen,
   serialOk (frame 2) true && bits (frame 2) 60 4 == 2 && bits (frame 2) 52 8 == ser.cue.fieldGen,
   head.live && (head.member 0).any (fun m => m.live && fld bytes 24 8 == (m.cueIn + 1) % 2 ^ 64) && head.cue.src == .eth && fld bytes 0 1 == 1 &&
     decide (fld bytes 4 4 ≤ head.cue.maxUnc) && !head.cue.firstDue && fld bytes 15 1 == head.cue.gen,
   hostWrites 0 sw && sw.cue.src == .software && !sw.cue.firstDue && bits a.val 56 8 == sw.cue.fieldGen && decide (sw.cue.pos ≤ a.val % 2 ^ 56),
   due.live && (due.cueNext (fun _ => true)).any (fun e => e.2.kind != 0),
   fn0.live && fn0.cueTimed && (fn0.cueNext (fun _ => true)).any (fun e => e.2.kind == 0 &&
     ((fn0.cueTo (e.2.target - 1 : Int) (e.2.target - 1 : Int)).cueNext (fun _ => true)).isSome),
   ser.live && Nat.ble (ser.cue.emitAt + 10000) ser.now && ser.cue.src != .eth,
   head.live && Nat.ble (head.cue.echoAt + 1000000) head.now && (head.member 0).any (fun m => m.live) && head.cue.echoSent == none,
   echo.live && (echo.member 0).isSome && echo.cue.echoSent == some 5,
   head.cue.st == .locked && head.cue.src != .software && Nat.ble (head.cue.lastValid + 8 * head.cue.src.period) head.now,
   (src .serial .holdover).cue.st == .holdover && Nat.ble ((src .serial .holdover).cue.holdSince + 100 * 1000) dev.now,
   dev.aon.powered && !dev.aon.tableau && dev.aon.hostLink && dev.aon.ptmSetNext, next.aon.powered && !next.aon.tableau && next.aon.hostLink && !next.aon.ptmSetNext]

/-! ## Premises of the statements: storage -/

/-- A device whose NVMe controller runs with an admin and an I/O queue pair, and a command in each. -/
def nv : State :=
  { dev with sto := { dev.sto with
      ctrls := [(0, { en := true, rdy := true, grant := 4, quotaMib := 4096,
                      queues := [{ qid := 0, size := 8, tail := 1 }, { cq := true, qid := 0, size := 8 },
                                 { qid := 1, size := 8, tail := 1, cqid := 1 }, { cq := true, qid := 1, size := 8 }] })]
      nss := [{ ctrl := 0, nsid := 1, mode := 1, lbaFmt := 1, capacity := 1000, backs := [{ target := 0, rnsid := 7, blocks := 1000 }] }]
      targets := [(0, { live := true })] } }

/-- Changes the controller of `nv`. -/
def nvWith (f : Ctrl → Ctrl) : State := nv.upCtrl 0 f

/-- Whether an admin command is fetched, and what then holds. -/
def fetchedOk (n : NvmeCmd) (s : State) (p : State → Bool) : Bool := n.psdt == 0 && (s.nvmeFetch n).any p

/-- Whether an I/O command is fetched and not held, and what then holds of the namespace. -/
def ioOk (n : NvmeCmd) (s : State) (p : State → Ns → Bool) : Bool :=
  n.sqid != 0 && fetchedOk n s (fun t => !t.ctrlHeld n.fn && !(t.ctrl n.fn).ops.any (fun o => o.kind == .held) && (t.nsFor n.fn n.nsid).any (fun x => x.st == .online && p t x)) &&
    !(s.ctrl n.fn).ops.any (fun o => o.kind == .held && o.cmd == n)

def met_NvmeCommandsComplete : List Bool :=
  let at_ := fun (q : Nat) (f : Ctrl → Bool) (n : NvmeCmd) (s : State) => fetchedOk n s (fun t => f (t.ctrl n.fn)) && n.cdw10 % 65536 == q
  let two := fun (k : Nat) => k + 65536 * 3
  let noSq := nvWith (fun c => { c with queues := c.queues.filter (fun q => q.qid == 0) ++ [{ cq := true, qid := 1, size := 8 }] })
  let waits := nvWith (fun c => { c with ops := [{ cmd := { cid := 9, sqid := 1 }, kind := .space }] })
  let ds : NvmeCmd := { sqid := 1, nsid := 1, cdw11 := 4, data := pk [(4, 0), (4, 2), (8, 3)] }
  let one : NvmeCmd := { sqid := 1, nsid := 1, cdw10 := 5 }
  let full := { nv with sto := { nv.sto with nss := nv.sto.nss.map (fun x => { x with mode := 0 }), ctrls := nv.sto.ctrls.map (fun e => (e.1, { e.2 with quotaMib := 0 })) } }
  [at_ 1 (fun c => (c.queue false 1).isSome) { cdw10 := 1 } nv,
   at_ 2 (fun c => decide (2 ≤ c.grant) && c.queue false 2 == none && (c.queue true 1).isSome) { cdw10 := two 2, cdw11 := 1 + 65536 } nv,
   at_ 2 (fun c => decide (2 ≤ c.grant) && c.queue true 2 == none) { cdw10 := two 2, cdw11 := 1 } nv && decide (0 < vectorsOf 0),
   at_ 1 (fun c => (c.queue true 1).isSome && !c.queues.any (fun x => !x.cq && x.cqid == 1)) { cdw10 := 1 }
     (nvWith (fun c => { c with queues := c.queues.filter (fun q => q.cq || q.qid == 0) })),
   at_ 1 (fun c => (c.queue true 1).isSome && c.queue false 1 == none) { cdw10 := 1 } noSq,
   fetchedOk { cdw10 := 32768 + 4 } nv (fun _ => true) && (32768 + 4) % 256 == 4 && bit (32768 + 4) 15,
   fetchedOk { cdw10 := 1 } nv (fun _ => true),
   fetchedOk { cdw10 := 1 + 65536 * 9 } waits (fun t => (t.ctrl 0).ops.any (fun o => o.is 1 9 && o.kind == .space)),
   fetchedOk { cdw10 := 0x0B } nv (fun _ => true), fetchedOk { cdw10 := 0x07 } nv (fun t => decide (0 < (t.ctrl 0).grant)),
   fetchedOk { cid := 3 } nv (fun t => decide ((t.ctrl 0).aers.length < 4) && (t.ctrl 0).aerPend.isEmpty),
   ioOk one nv (fun _ x => x.mode == 1),
   ioOk one nv (fun t x => decide (one.slba + one.nlb ≤ x.capacity) && decide (512 * (one.nlb * x.lbaSec) ≤ 1048576) && one.dataOk &&
     (t.prpFetch one (512 * (one.nlb * x.lbaSec))).wbRoom x (one.slba * x.lbaSec) (one.nlb * x.lbaSec) 0),
   ioOk one full (fun t x => decide (one.slba + one.nlb ≤ x.capacity) && decide (512 * (one.nlb * x.lbaSec) ≤ 1048576) && one.dataOk &&
     !(t.prpFetch one (512 * (one.nlb * x.lbaSec))).wbRoom x (one.slba * x.lbaSec) (one.nlb * x.lbaSec) 0),
   ioOk ds nv (fun _ x => bit ds.cdw11 2 && ds.dataOk && (dsmRanges ds).all (fun r => decide (r.1 + r.2 ≤ x.capacity))),
   ioOk one { nv with sto := { nv.sto with wbuf := [{ ctrl := 0, nsid := 1, blk := 5, mask := 255, data := zeros 4096, dirty := false }] } } (fun t x =>
     x.lost.isEmpty && !x.encrypted && one.cdw10 == 5 &&
     (secRuns (fun i => !(t.wbSector x.ctrl x.nsid i).isSome) (one.slba * x.lbaSec) (one.nlb * x.lbaSec)).isEmpty)]

def met_StorageEngineActs : List Bool :=
  let off := nvWith (fun c => { c with en := false })
  let op : NvmeOp := { fn := 0, cmd := { sqid := 1, nsid := 1, cid := 2 }, kind := .space }
  let wait := nvWith (fun c => { c with ops := [op] })
  let rem := fun (r : Remote) => ({ nv with sto := { nv.sto with remotes := [r] } } : State)
  let drain : Remote := { cid := 4, kind := .drain, nsid := 1, seqs := [(0, 0)] }
  let read : Remote := { cid := 4, kind := .read, nsid := 1, count := 1 }
  let is_ := fun (s : State) (r : Remote) => s.live && s.sto.remotes.find? (fun r => r.cid == 4 && (r.kind == .drain || r.kind == .tagWrite) && r.sent && r.units == 0) == some r
  [hostWrites 0 off && !(off.ctrl 0).en && bit 1 0, hostWrites 0 nv && (nv.ctrl 0).en, bits 0x4000 14 2 != 0,
   ((nv.ctrl 0).queue false 1).any (fun q => decide (7 < q.size)), ((nv.ctrl 0).queue true 1).any (fun q => decide (7 < q.size)),
   wait.live && wait.sto.spaceWaiters.find? wait.spaceFits == some op && (wait.ns 0 1).isSome, nv.live && !nv.partHeld .wbuf,
   is_ (rem drain) drain && drain.kind == .drain && ((rem drain).ns 0 1).any (fun n => !n.encrypted),
   (rem read).sto.remotes.find? (fun r => r.cid == 4 && (r.kind == .read || r.kind == .tagRead) && r.sent && r.units == 0) == some read &&
     ((rem read).ns 0 1).any (fun x => !x.encrypted) && read.tblks.isEmpty,
   (rem read).sto.remotes.find? (fun r => r.cid == 4 && r.sent && r.units == 0) == some read,
   (aget ({ nv with sto := { nv.sto with targets := [(0, {})] } } : State).sto.targets 0).any (fun x => !x.live)]

def met_StorageCommandsComplete : List Bool :=
  let con := padTo 480 (pk [(1, 4), (1, 1), (2, 4420), (1, 5)])
  let bc := bgn opConnectTarget 0 con dev
  let q : Qp := { autoRec := true, owner := .target 0, mtu := 5, dest := sub con 8 16, addrType := fld con 0 1, portMask := 65535 }
  let idle := { nv with sto := { nv.sto with nss := [] } }
  let data := pk [(8, 1000), (4, 4096)]
  let att := padTo 144 (pk [(2, 0), (1, 1), (1, 16), (1, 1), (1, 1), (2, 0xFFFF), (4, 1), (4, 0), (2, 0), (2, 0), (4, 7)])
  let ba := bgn (opAttachNamespace data) 0 att idle
  let name := pk [(2, 0), (2, 0), (4, 1)]
  let mode := pk [(2, 0), (2, 0), (4, 1), (8, 0)]
  let ctl := uCtrl 0
  let st := stopped ctl nv
  let bad := { nv with sto := { nv.sto with nss := nv.sto.nss.map (fun x => { x with st := .writeFailed }) } }
  let quota := pk [(2, 0), (2, 0), (4, 16)]
  [srv opConnectTarget 0 con dev && freeKey bc.sto.targets 1024 0 == some 0 && (takeQps q (fld con 1 1 + 1) bc).isSome,
   srv opDisconnectTarget 0 (pk [(2, 0), (6, 0)]) idle && (aget idle.sto.targets 0).any (fun x => x.live),
   srv (opAttachNamespace data) 0 att idle && ba.fnEnabled 0 && fld att 4 1 == 1 && fld att 5 1 == 1 && fld att 6 2 == 0xFFFF && fld att 8 4 != 0 &&
     (aget ba.sto.targets (fld att 16 2)).any (fun t => t.live) && fld data 8 4 == 4096 && fld att 2 1 == 1,
   srv opDetachNamespace 0 name nv && (nv.ns 0 1).any (fun x => x.st == .online),
   srv opSetNsMode 0 mode st && holds (bgn opSetNsMode 0 mode st) ctl && ((bgn opSetNsMode 0 mode st).nsOfParam mode).isSome,
   srv opSetWbQuota 0 quota dev && decide (((dev.sto.ctrls.filter (fun e => e.1 != 0)).map (fun e => e.2.quotaMib)).sum + 16 ≤ 4096),
   srv opGetNsStatus 0 name nv && (nv.ns 0 1).isSome, srv opDiscardDirty 0 name bad && (bad.ns 0 1).any (fun x => x.st == .writeFailed)]

/-! ## Premises of the statements: network, Heddle, ciphers -/

/-- A device with one queue pair of the manager, and its first port ACTIVE. -/
def nq (q : Qp) : State :=
  { dev with net := { dev.net with
      qps := [(0, q)], ports := [(0, { st := 2 })]
      regions := [(5, { base := dev.partBase .staging, len := 65536, write := true, read := true })] } }

/-- Its QPN. -/
def qn : Nat := qpnOf 0

def met_PortsAndPacketsAct : List Bool :=
  let a := dev.partBase .staging
  let live := fun (q : Qp) (p : RdmaPkt) => (nq q).live && (nq q).qp p.qpn == some q && p.crcOk
  let rts : Qp := { st := .rts }
  let w : RdmaPkt := { qpn := qn, opcode := 0x0A, rkey := 5, addr := a, total := 4, payload := pk [(4, 7)] }
  let rd : TxMsg := { rd := true, len := 4 }
  let got : Qp := { st := .rts, tx := [rd], reads := 1 }
  let held := { nq rts with ras := { dev.ras with removing := some (1, 0) } }
  [dev.live && decide (15 < dev.net.portCount) && (dev.portSt 15 == 0x11 || dev.portSt 15 == 0x10), (nq {}).live && (nq {}).net.portUp 0 && decide ((nq {}).net.fecLimit < 1001), hostWrites 0 dev,
   held.live && held.memHeld,
   live rts w && !(nq rts).memHeld && rts.accepts && decide (w.total ≤ 1073741824) && !rts.sprayed && psnDiff w.psn rts.rqPsn == 0 && rts.rx.isEmpty && !w.payload.isEmpty &&
     w.total == w.payload.length && (((nq rts).ctxUses rts.ctxs).admitAccess 5 a 4 true false).isSome,
   live rts { w with opcode := 0x0C, ecn := true } &&
     ((((nq rts).ctxUses rts.ctxs).ecnSeen qn).admitAccess 5 a 4 false false).isSome,
   live got w && got.tx.find? (fun m => m.sent && m.rd && decide (psnDiff w.psn m.first ≤ psnDiff m.last m.first)) == some rd &&
     !rd.got.contains (psnDiff w.psn rd.first) && !got.sprayed && decide (got.packets rd.len ≤ rd.got.length + 1),
   live rts w && w.syndrome == 0 && w.bitmap.isEmpty, live { rts with st := .recovering } { w with epoch := 1 }]

def met_QueuePairsAndLinksAct : List Bool :=
  let has := fun (q : Qp) (p : State → Bool) => (nq q).live && (nq q).qp qn == some q && p (nq q)
  let busy : Qp := { st := .rts, retry := 1, acked := 16777215, tx := [{ len := 4, out := 1 }] }
  let bad : Qp := { st := .error, autoRec := true }
  let two : Qp := { st := .rts, paths := 2 }
  let m : Member := { id := 3, ctrlQp := qn }
  let adding := { nq { st := .init } with
    net := { (nq { st := .init }).net with members := [m] }, cmd := { dev.cmd with waiting := [{ kind := wAddMember, aux := 3 }] } }
  let headed := { dev with net := { dev.net with members := [{ id := 0, isHead := true, given := 3 }] } }
  let ctx : State := { nq { ctxs := [9] } with ctx := { dev.ctx with kinds := [(9, 2)] } }
  let named := (ctx.record uDevice 0x00B0 0 9 0 (.every (ctx.ctxOwners 9))).upCtx (fun c => { c with bad := ladd c.bad 9 })
  [has {} (fun _ => true), has busy (fun _ => busy.st == .rts && !busy.unacked.isEmpty && decide (busy.retries < busy.retry)),
   has two (fun _ => two.accepts && two.sprayed), has bad (fun s => bad.autoRec && !bad.given && bad.attempt == 0 && Nat.ble (bad.errAt + 1000000) s.now),
   has { bad with attempt := 1 } (fun s => Nat.ble 10000000 s.now), has { st := .recovering, attempt := 1 } (fun s => Nat.ble 1000000 s.now),
   has { st := .recovering, attempt := 3 } (fun s => Nat.ble 1000000 s.now),
   has two (fun _ => !two.downPaths.contains 1 && decide (two.downPaths.length + 1 < two.paths)),
   has { two with downPaths := [1] } (fun _ => true),
   dev.live && dev.stg.image.isSome && dev.granted 1 && (dev.member 0).isNone &&
     (dev.spent.linkMake 0 (dev.linkQp 4 (padTo 16 (zeros 4)))).isSome,
   adding.live && adding.member 3 == some m && !m.isHead && m.ctrlQp != 0 && m.reached && adding.cmd.waiting.any (fun w => w.kind == wAddMember && w.aux == 3),
   headed.live && (headed.member 0).any (fun m => m.given == 3 && !m.live),
   ctx.live && agetD named.ctx.kinds 9 0 == 2 && (named.net.qps.find? (fun e => e.2.ctxs.contains 9)).isSome]

def met_NetworkManagerCommandsComplete : List Bool :=
  let new := zeros 8
  let st := fun (x : QpState) => nq { st := x }
  let mod := fun (next : Nat) (l : List (Nat × Nat × Nat)) => put 48 ([(0, 4, qn), (4, 1, next)] ++ l)
  let m2 := mod 2 [(5, 1, 1), (6, 1, 5), (24, 1, 4)]
  let name := pk [(4, qn), (4, 0)]
  let mode := pk [(1, 3), (7, 0)]
  let ports := stopped uPorts dev
  let reg := put 24 [(0, 8, dev.partBase .staging), (8, 8, 4096), (16, 1, 3)]
  let dereg := pk [(4, 5), (4, 0)]
  let add := put 24 [(0, 2, 1), (2, 1, 4)]
  let q := (bgn opTroupeAddMember 0 add dev).linkQp 4 (sub add 8 16)
  let mem := { dev with net := { dev.net with members := [{ id := 1 }] } }
  let res := pk [(1, 1), (3, 0), (4, 16)]
  let b := bgn opSetContextReserve 0 res dev
  let x := { b.ctx with reserve := aset b.ctx.reserve 1 16 }
  let busy := nq { st := .rtr, rx := [{ rkey := 5 }] }
  [srv opCreateQp 0 new dev && ((bgn opCreateQp 0 new dev).qpAlloc {} false false).isSome,
   srv opModifyQp 0 (mod 0 []) (st .rts), srv opModifyQp 0 (mod 1 []) (st .reset), srv opModifyQp 0 m2 (st .init) && fld m2 5 1 == 1,
   srv opModifyQp 0 (mod 3 []) (st .rtr) && ((bgn opModifyQp 0 (mod 3 []) (st .rtr)).qp qn).any (fun q => q.st == .rtr),
   srv opDestroyQp 0 name (st .error) && ((st .error).qp qn).isSome, srv opQueryQp 0 name (st .rts),
   srv opSetPortMode 0 mode ports && holds (bgn opSetPortMode 0 mode ports) uPorts,
   srv opGetPortStatus 0x50000000 [] dev, srv opSetEventQueue 0 (put 16 [(8, 1, 6)]) dev,
   srv opRegisterRegion 0 reg dev && ((bgn opRegisterRegion 0 reg dev).regionAdd {}).isSome && decide (4096 ≤ dev.partLen .staging),
   srv opDeregisterRegion 0 dereg (st .rts) && (((st .rts).region 5).any (fun r => r.owner == .host && !r.closing)) && !(st .rts).regionBusy 5,
   srv opDeregisterRegion 0 dereg busy && busy.regionBusy 5,
   srv opTroupeAddMember 0 add dev && ((bgn opTroupeAddMember 0 add dev).spent.linkMake 1 q).isSome && ((bgn opTroupeAddMember 0 add dev).member 1).isNone,
   srv opTroupeRemoveMember 0 (pk [(2, 1), (6, 0)]) mem && (mem.member 1).any (fun m => !m.isHead && !m.removing),
   srv opSetContextReserve 0 res dev && decide (16 ≤ ctxLimit 1) && decide (([1, 2, 3, 4].map (fun k => max (x.used k) (x.reserved k))).sum ≤ ctxTotal)]

def met_HeddleActs : List Bool :=
  let up := nq {}
  let frame := zeros 60
  let hd := fun (h : Hed) => ({ dev with hed := h } : State)
  let flow := hd { flows := [{ ctx := 3 }] }
  let graph := put 24 [(0, 2, 1), (8, 16, 0)]
  let st := stopped uHeddle dev
  let tbl := put 48 [(1, 1, 0), (2, 1, 1), (25, 1, 1)]
  let entry := put 112 [(89, 1, 1)]
  let tab := fun (k n : Nat) => hd { tables := [(0, { kind := k, size := 4, entries := List.replicate n { key := zeros 40 } })] }
  [up.live && up.net.portUp 0 && decide (64 ≤ frame.length + 4) && fldBE frame 12 2 != 0x8808,
   ((hd { recirc := [(2, 0, 0, [])] }).hed.recirc.find? (fun e => e.1 == 2)).isSome,
   (flow.hed.flows.find? (fun f => f.ctx == 3)).any (fun f => Nat.ble (f.last + flow.hed.ageS * 1000000000) flow.now),
   srv opHedLoadGraph 0 graph st && holds (bgn opHedLoadGraph 0 graph st) uHeddle && graphFault graph == none,
   srv opHedSetTable 0 tbl st && holds (bgn opHedSetTable 0 tbl st) uHeddle && (bgn opHedSetTable 0 tbl st).hed.fits 0 0 0,
   srv opHedAddEntry 0 entry (tab 2 0), srv opHedAddEntry 0 entry (tab 1 0) && ((bgn opHedAddEntry 0 entry (tab 1 0)).ctxTake 1).isSome,
   srv opHedDelEntry 0 (zeros 88) (tab 1 1) && ((agetD (tab 1 1).hed.tables 0 {}).entries.find? ((agetD (tab 1 1).hed.tables 0 {}).same (zeros 88))).isSome, srv opSetPacketRing 0 (put 16 [(1, 1, 6)]) dev]

def met_CiphersAct : List Bool :=
  let pages := pk [(2, 0), (2, 0), (2, 1022), (2, 2)]
  let key := put 80 [(2, 1, 1), (3, 1, 16)]
  let kp := fun (k : KeyPage) => ({ dev with cip := { dev.cip with pages := [(0, k)] } } : State)
  let tls := kp { st := .ready, mode := 3 }
  let a := dev.partBase .staging
  let cry := put 40 [(4, 4, 1024), (8, 8, a), (16, 8, 4096), (24, 8, a + 65536), (32, 8, 65536)]
  let b := bgn opCipCrypt 0 cry tls
  let unit : CipUnit := { id := 7, page := 0, lane := 2 }
  let run := { dev with cip := { dev.cip with units := [unit] } }
  let late : CipUnit := { id := 8, page := 1, lane := 2 }
  let two := { dev with cip := { dev.cip with units := [unit, late], drbg := [(2, 1048576)] } }
  [srv opCipAssignPages 0 pages dev && !((List.range' 1022 2).any (fun k => ((bgn opCipAssignPages 0 pages dev).page k).st != .empty)),
   srv opCipLoadKey 0 key dev, srv opCipClearPage 0 (pk [(2, 0), (6, 0)]) tls,
   srv opCipCrypt 0 cry tls && (b.page 0).mode == 3 && b.inStaging 0 (fld cry 8 8) (fld cry 16 8) && b.inStaging 0 (fld cry 24 8) (fld cry 32 8) &&
     !b.lanesUp.isEmpty,
   run.live && run.cip.units.find? (fun u => u.id == 7 && u.fin == 0) == some unit && run.running unit,
   two.live && two.cip.units.find? (fun u => u.page == 1 && u.use == .esp && u.fin == 0 && u.lane != laneNone && !two.running u && Nat.ble (u.at_ + 10000) two.now) == some late,
   Nat.ble 1048576 (agetD two.cip.drbg 2 0)]

/-! ## Premises of the statements: Shuttles, Tapestry -/

/-- A device with one stream. -/
def str (x : Stream) (y : StreamX) : State :=
  { dev with shu := { dev.shu with
      streams := [(0, { x with inBase := dev.partBase .staging, inLen := 262144, outBase := dev.partBase .staging + 1048576, outLen := 16777216 })]
      streamx := [(0, y)] } }

/-- Whether a row of an internal reader hands bytes over, leaves the reader waiting, or ends its read with a status (R124). -/
def brings (r : State × Option (Except Nat Bytes)) : Bool := match r.2 with | some (.ok _) => true | _ => false

def waits (r : State × Option (Except Nat Bytes)) : Bool := r.2.isNone

def fails (r : State × Option (Except Nat Bytes)) : Bool := match r.2 with | some (.error _) => true | _ => false

def met_StreamsAct : List Bool :=
  let a := dev.partBase .staging
  let open_ := put 80 [(0, 1, 2), (1, 1, 4), (11, 1, 2), (40, 8, a), (48, 4, 262144), (56, 8, a + 262144), (64, 8, 16777216)]
  let b := bgn opShuOpenStream 0 open_ dev
  let x0 := streamOf open_ 0 0
  let run : Stream := { st := stRunning, srcKind := 2, shuttle := some 3, inTail := 100 }
  let s := str run {}
  let mel := stopped 0x2FFF0000 dev
  let mp := put 16 [(8, 8, 1 + 2 ^ 8 * 80 + 2 ^ 16 * 400 + 2 ^ 28 * 160 + 2 ^ 48 * 800)]
  let disk := fun (l : List WbBlock) (nsid : Nat) =>
    let u := str { run with srcKind := 1, srcLen := 1000, nsid := nsid } {}
    { u with sto := { nv.sto with wbuf := l } }
  let file := disk [{ ctrl := 0, nsid := 1, blk := 0, mask := 255, data := zeros 4096, dirty := false }] 1
  let row := fun (s : State) => s.intRow (.stream 0) 0 ((s.stream 0).getD {}).nsid 100 900 (zeros 900)
  let pic : Picture := { srcEnd := 50 }
  let aud : AudioFrame := { srcEnd := 50, planes := [zeros 4] }
  let cap : Caption := { srcEnd := 50 }
  let tr := str { run with tracks := [{ output := 2, maxch := 2 }], captions := 1 } {}
  let dead := str { run with srcKind := 0, st := stOpening } { firstIn := some 0 }
  let on := fun (s : State) (p : State → Stream → Bool) => s.live && ((s.shuRebind 0).stream 0).any (fun x => (s.shuRebind 0).shuRuns 0 && p (s.shuRebind 0) x)
  [srv opShuOpenStream 0 open_ dev && !shuConflict x0.mode x0.interlace x0.order x0.flags x0.hint && b.inStaging 0 x0.inBase x0.inLen &&
     b.inStaging 0 x0.outBase x0.outLen && !b.streamsFull 0 && decide (b.shu.channels ≤ 8192) && (b.ctxTake 4).isSome &&
     freeKey b.shu.streams 16384 0 == some 0,
   srv opShuCloseStream 0 (zeros 8) s && (s.stream 0).isSome,
   srv opShuFeed 0 (put 16 [(8, 4, 64)]) s && (s.stream 0).any (fun x => x.srcKind == 2 && x.st != stFailed && x.st != stEnded && decide (64 ≤ x.inRoom)),
   srv opShuGetStream 0 (zeros 16) s, srv opShuSetPolicy 0 (zeros 8) s && !shuConflict 0 run.interlace 0 run.flags run.hint,
   srv opShuReturnOutput 0 (zeros 16) s, srv opShuSetMel 0 mp mel && holds (bgn opShuSetMel 0 mp mel) 0x2FFF0000,
   file.live && (file.stream 0).any (fun x => file.readRoom 0 x 900) && !file.partHeld .staging && (file.streamX 0).want == none && brings (row file),
   waits (row (disk [] 1)), fails (row (disk [] 2)),
   on s (fun t x => decide (pic.srcEnd ≤ x.inTail) && !bit x.flags 1 && !(t.streamX 0).outOfTurn x.order pic && !pic.lost && t.badSegment 0 x 50 == none),
   on tr (fun t x => (x.tracks[aud.track]?).any (fun k => decide (2 ≤ k.output)) && decide (50 ≤ x.inTail) && t.badSegment 0 x 50 == none && !aud.bad &&
     x.tracks.all (fun k => decide (k.unit < 64) && !t.unitFenced (64 + k.unit)) && aud.discont == 0 && !(t.streamX 0).hurt aud.srcOff 50),
   on tr (fun t x => x.selects cap && t.badSegment 0 x 50 == none),
   on s (fun t x => x.shuttle == some 3 && t.shuttlesUp.any (fun k => k != 3) && !t.unitFenced 67),
   dead.live && (dead.stream 0).any (fun x => x.srcKind == 0 && x.st != stFailed) && !(dead.streamX 0).found &&
     (dead.streamX 0).firstIn.any (fun t => Nat.ble (t + 1000000000) dead.now)]

/-- A program image without its CRC: one operation, an activation, on an input of four FP32 elements. -/
def imgBody : Bytes :=
  put 192 [(0, 2, 1), (2, 2, 1), (4, 2, 2), (8, 4, 192), (24, 4, 64), (28, 4, 128), (32, 4, 192), (36, 4, 192), (40, 2, 1), (42, 2, 1),
           (64, 1, 0), (65, 1, 7), (66, 1, 1), (67, 1, 1), (68, 4, 1), (72, 4, 1), (76, 4, 1), (80, 4, 4), (84, 4, 128),
           (96, 1, 1), (97, 1, 7), (98, 1, 1), (100, 4, 1), (104, 4, 1), (108, 4, 1), (112, 4, 4), (116, 4, 128),
           (128, 1, 6), (130, 1, 1), (132, 2, 0), (134, 2, 0xFFFF), (136, 2, 0xFFFF), (138, 2, 1), (140, 2, 0xFFFF), (152, 4, 1), (156, 4, 32)]

/-- The image. -/
def img : Bytes := imgBody.take 60 ++ leBytes 4 (imgCrc imgBody) ++ imgBody.drop 64

def met_TapestryActs : List Bool :=
  let a := dev.partBase .staging
  let has := fun (t : Tap) => ({ dev with tap := t } : State)
  let prog := has { progs := [(0, { image := img })] }
  let run := put 64 [(3, 1, 2), (8, 8, a), (40, 8, a), (48, 2, 1), (56, 8, a + 4096)]
  let bind := put 64 [(5, 1, 1), (8, 4, 1), (24, 8, a), (32, 8, 65536), (40, 8, a)]
  let bb := bgn opTapBind 0 bind prog
  let que := has { progs := [(0, { image := img })], queues := [(0, { prog := some 0 })] }
  let busy := { que with tap := { que.tap with runs := [{ id := 1, queue := some 0, begun := true }] } }
  let name := pk [(2, 0), (6, 0)]
  let st := stopped uTapestry dev
  let cap := pk [(1, 200), (7, 0)]
  let w : State := { str { recs := [{ seq := 4, len := 128 }] } {} with
    gddr := [(dev.partBase .staging + 1048576, 1)]
    tap := { progs := [(0, {})], queues := [(0, { prog := some 0, runUnits := 2, waitUs := 5, waiting := [(0, 4, 0)] })] } }
  let t := w.queueSift 0
  let core := has { running := [(5, { start := 0 })] }
  let join := { has { testOut := [5] } with ras := { dev.ras with testPass := [5] } }
  [served opTapLoad 0 0 (hdrPtr 0 192) img oper dev && (begun opTapLoad 0 0 (hdrPtr 0 192) dev).loadStop 0 img == none &&
     freeKey (begun opTapLoad 0 0 (hdrPtr 0 192) dev).tap.progs 256 0 == some 0,
   srv opTapUnload 0 name prog && ahas prog.tap.progs 0,
   srv opTapRun 0 run prog && (bgn opTapRun 0 run prog).runBad 0 run == none,
   srv opTapBind 0 bind prog && ahas bb.tap.progs 0 && !ahas bb.tap.queues 0 && (queueViews img).map (fun t => t.view) == [1] && viewKind 1 == queueKind img &&
     (imgClass img 1).length == 1 && bb.inStaging 0 (fld bind 24 8) (fld bind 32 8) && bb.inStaging 0 (fld bind 40 8) (2 * fld img 16 8),
   srv opTapUnbind 0 name que && que.queueRuns 0 == 0, srv opTapUnbind 0 name busy && busy.queueRuns 0 == 1 && busy.tap.runs.all (fun r => r.begun),
   srv opTapGetQueue 0 name que && ahas que.tap.queues 0, srv opTapSetPolicy 0 cap st && holds (bgn opTapSetPolicy 0 cap st) uTapestry,
   w.live && (t.sift (t.tapQueue 0)).since == some 0 && (t.tapQueue 0).waitUs == 5 && Nat.ble 5000 t.now && !(t.tapQueue 0).unbinding && t.queueRuns 0 == 0,
   core.live && ahas core.tap.running 5 && Nat.ble core.overrunAt (core.tapCycles 5),
   join.live && join.ras.testPass.contains 5 && join.tap.testOut.contains 5 && !join.unitFenced 5 && !join.chargeWaits 5]

/-! ## Premises of the statements: Loom, Feeders, latches -/

/-- A device with one job. -/
def jb (j : Job) (x : JobX) : State := { dev with loom := { dev.loom with jobs := [(0, j)], jobx := [(0, x)] } }

/-- Its base in the shuffle buffer. -/
def jBase : Nat := dev.partBase .shuffle + 268435456

def met_LoomActs : List Bool :=
  let op := put 64 [(4, 2, 1), (8, 2, 1), (12, 4, 2)]
  let b := bgn opLoomOpenJob 0 op dev
  let j0 : Job := { base := jBase, hdrBase := jBase + 2097152 }
  let s := jb j0 { size := 2097408 }
  let name := zeros 8
  let warp := put 48 [(2, 1, 1), (8, 8, 1), (36, 1, 1)]
  let ring := { jb j0 {} with feed := { dev.feed with rings := [(0, {})] } }
  let lay := put 48 [(8, 1, 4), (24, 1, 9)]
  let set := jb { j0 with layoutSet := true } {}
  let w0 : Warp := { kind := 0, count := 10, maxLen := 4096 }
  let withW := jb { j0 with warps := [w0] } {}
  let st := stopped uLoom withW
  let cur := put 104 [(12, 2, 1)]
  let order := put 32 [(4, 4, 2)]
  let share := put 8 []
  let pay : Fetch := { stage := 1, len := 4, crc := crc32c (zeros 4) }
  let f := fun (x : Fetch) => jb { j0 with started := true, warps := [w0], fetches := [x], table := [(0, 0)] } {}
  let disk := fun (l : List WbBlock) (x : Fetch) => { f x with sto := { nv.sto with wbuf := l } }
  let block : WbBlock := { ctrl := 0, nsid := 1, blk := 0, mask := 255, data := (List.replicate 256 (put 16 [(8, 4, 100)])).flatten, dirty := false }
  let w1_ : Warp := { w0 with nsid := 1 }
  let index := fun (l : List WbBlock) => (disk l {}).intRow (.index 0 0 0) 0 1 (j0.indexAt w1_ 0 0) 16 (zeros 16)
  let load := fun (l : List WbBlock) => (disk l pay).intRow (.payload 0 0 0) 0 1 0 4 (zeros 4)
  let timed := { f {} with cue := { dev.cue with st := .locked, pos := 0 } }
  let firstOf := fun (s : State) (w : OwnWork) => (s.ownDue.find? (fun e => e.2 == w)).any (fun e =>
    ((s.cueTo (e.1 - 1) e.1).job 0).isSome && ((s.cueTo (e.1 - 1) e.1).ownDue.find? (fun e => e.2 == w)).isSome)
  let op2 := put 64 [(4, 2, 2), (8, 2, 1), (12, 4, 512)]
  let b2 := bgn opLoomOpenJob 0 op2 dev
  let late := { jb { j0 with started := true, fetchNext := 10 ^ 9, warps := [w0], fetches := [{ stage := 2 }], table := [(0, 0)], weaveNext := [(0, 0)] } {} with cue := { dev.cue with st := .locked, pos := 10 ^ 12 } }
  let w1 : Warp := { kind := 1, maxLen := 4096, dim := 0 }
  let blk := zeros 64 ++ leBytes 8 (crc64 (zeros 64))
  let str := { jb { j0 with warps := [w1] } { size := 2097408 } with loom := { (jb { j0 with warps := [w1] } { size := 2097408 }).loom with offered := [{ block := blk }] } }
  let two := jb { j0 with started := true, members := 2 } {}
  let due := jb { j0 with started := true, table := [(0, 7)], weaveNext := [(7, 0)] } {}
  let close := { due with cue := { dev.cue with st := .locked, pos := 10 ^ 12 } }
  let note := fun (k : Nat) => put 128 [(4, 2, 1), (6, 1, k), (120, 8, 1)]
  let fresh := fun (k : Nat) => two.live && (two.job 0).any (fun j => j.started && decide (1 < j.members) && j.rank != 1 && fld (note k) 0 4 == j.jobId) &&
    fld (note k) 4 2 == 1 && fld (note k) 120 8 == agetD (two.jobX 0).xin 1 0 + 1 && !(two.jobX 0).closing && fld (note k) 6 1 == k
  [srv opLoomOpenJob 0 op dev && freeKey b.loom.jobs 64 0 == some 0 && (b.placeJob (jobFrom op 0).regionSize).isSome &&
     decide ((jobFrom op 0).members = 1) && decide ((jobFrom op 0).rank < (jobFrom op 0).members) && decide ((jobFrom op 0).cutPh + 4096 ≤ (jobFrom op 0).lead),
   srv opLoomOpenJob 0 op2 dev && (freeKey b2.loom.jobs 64 0).isSome && (b2.placeJob (jobFrom op2 0).regionSize).isSome && decide (1 < (jobFrom op2 0).members) &&
     decide (((jobFrom op2 0).members - 1) * (jobFrom op2 0).xchgMib ≤ (jobFrom op2 0).bufMib),
   srv opLoomCloseJob 0 name s && ((bgn opLoomCloseJob 0 name s).job 0).isSome && !((bgn opLoomCloseJob 0 name s).jobX 0).closing &&
     ((bgn opLoomCloseJob 0 name s).loomClose 0).job 0 == none,
   srv opLoomAddWarp 0 warp s && (warpFrom warp 0 0).kind == 1 && !j0.shapeBad (warpFrom warp 0 0) && (bgn opLoomAddWarp 0 warp s).freeWarp == some 0,
   srv opLoomSetLayout 0 lay ring && ring.layoutOk 0 j0 lay,
   srv opLoomStart 0 name set && (set.xOpen 0 { j0 with layoutSet := true }).isSome, srv opLoomGetCursor 0 (zeros 16) s,
   srv opLoomSetCursor 0 cur st && holds (bgn opLoomSetCursor 0 cur st) uLoom && cursorOk { j0 with warps := [w0] } (cur.drop 8),
   srv opLoomGetOrder 0 order withW && decide (fld order 16 8 + fld order 4 4 ≤ w0.count), srv opLoomGetJob 0 name s,
   srv opLoomSetShare 0 share withW,
   (f {}).live && !(f {}).cueTimed && (f {}).fetchDue 0, firstOf timed (.fetch 0), (f {}).live && (match (index [block]).2 with | some (.ok e) => decide (fld e 8 4 ≠ 0 ∧ fld e 8 4 ≤ w0.maxLen) | _ => false),
   waits (index []), (match (load [block]).2 with | some (.ok d) => crc32c d == pay.crc | _ => false), waits (load []),
   late.live && firstOf late (.rescue 0 0 0),
   ((f { stage := 4 }).job 0).any (fun j => (j.fetchOf 0 0).any (fun x => x.stage == 4) && (j.warps[0]?).any (fun w => w.kind == 0)),
   str.live && (str.loom.offered.find? (fun o => o.warp == w1.num)).any (fun o => o.block == blk) &&
     crc64 (blk.take (blk.length - 8)) == fld blk (blk.length - 8) 8 && (j0.streamed w1 0 0 blk).flags &&& w1.drop == 0 &&
     (let m := j0.streamed w1 0 0 blk; w1.shapeOk m.len m.rows m.dim m.rowBytes m.tkind m.format m.groups) && !w1.swap &&
     (str.takeSample 0 (j0.streamed w1 0 0 blk) (sub blk 64 0)).isSome,
   fresh 1, fresh 3,
   due.live && !due.cueTimed && !(due.jobX 0).closing && (due.job 0).any (fun j => j.weaveNext.any (fun e => ringNo j (due.jobX 0) (j.handNext e.1 e.2) e.1 == some 0)),
   close.live && (close.job 0).any (fun j => j.weaveNext.any (fun e => ringNo j (close.jobX 0) (j.handNext e.1 e.2) e.1 == some 0 &&
     firstOf close (.weave 0 e.1 (j.handNext e.1 e.2))))]

/-- A device with accelerator 0 admitted to the PF, and one Feeder ring. -/
def fd (a : Acc) (r : FRing) : State :=
  { dev with feed := { dev.feed with accs := [(0, a)], rings := [(0, r)] } }

/-- An admitted accelerator. -/
def adm : Acc := { st := 2, owned := true }

def met_DeliveryCommandsComplete : List Bool :=
  let s := fd adm {}
  let port := put 16 [(0, 1, 1), (1, 1, 1)]
  let all := stopped (unitId 4 1) dev
  let one := pk [(8, 0)]
  let arrived := fd { st := 0x12 } {}
  let out := fd adm { issued := [{ n := 1 }] }
  let vf := { dev with host := { dev.host with vfEnable := true, numVfs := 4, vfs := [(1, { st := 1 })] } }
  let give := pk [(2, 1), (2, 0), (2, 8190), (2, 2)]
  let mk := put 64 [(2, 1, 1), (4, 2, 2), (8, 8, 4096)]
  let b := bgn opFeedCreateRing 0 mk s
  let roce := fd adm { transport := 1 }
  let j : Job := { started := true, members := 2 }
  let join := { s with loom := { dev.loom with jobs := [(0, j)], jobx := [(0, {})] } }
  [srv opFeedSetPort 0 port all && holds (bgn opFeedSetPort 0 port all) (portSettingUnit (hdr 0 16) port),
   srv opFeedAdmit 0 one arrived && (arrived.acc 0).st == 0x12 && arrived.accThere 0 && arrived.fnEnabled 0,
   srv opFeedRelease 0 one s && (s.acc 0).st == 2 && !(s.acc 0).releasing && (s.ringsOf 0).all (fun e => e.2.issued.isEmpty),
   srv opFeedRelease 0 one out && !(out.ringsOf 0).all (fun e => e.2.issued.isEmpty),
   srv opLatchAssign 0 give vf && decide (fld give 4 2 + fld give 6 2 ≤ latchCount),
   srv opFeedCreateRing 0 mk s && freeKey b.feed.rings 1024 0 == some 1 && (ringFrom mk 0 0).prio != 0 && (b.acc 0).st == 2 && (b.acc 0).owned &&
     (b.latNamed 0 (fld mk 6 2)).any (fun k => (b.cell k).owner == 0 && !(b.cell k).en && (b.cell k).bound == none && (b.cell k).guard == none),
   srv opFeedDestroyRing 0 one s && (s.ring 0).any (fun r => r.st != 1 && r.st != 3),
   srv opFeedResetRing 0 one s && ((bgn opFeedResetRing 0 one s).ringReset 0 0 |>.ring 0).any (fun x => x.st == 3),
   srv opFeedResetRing 0 one roce && !((bgn opFeedResetRing 0 one roce).ringReset 0 0 |>.ring 0).any (fun x => x.st == 3),
   srv opFeedGetRing 0 (zeros 16) s,
   srv opFeedJoin 0 one join && (join.ring 0).any (fun r => r.st == 0) && !(tableAt j (join.jobX 0) (2 ^ 64)).contains (j.rank, 0) && join.feed.changes.isEmpty]

def met_AcceleratorsAndLayoutsAct : List Bool :=
  let off := fd {} {}
  let up := fd { st := 0x10 } {}
  let again := fd { retry := true } {}
  let lat := { fd adm {} with lat := { dev.lat with cells := [(8191, { en := true, mask := 1 })] } }
  let b := (lat.feedPort 0).latchAddr
  let two := jb { started := true, members := 2 } {}
  let note := fun (k : Nat) => put 128 [(4, 2, 1), (6, 1, k), (120, 8, 1)]
  let fresh := fun (k : Nat) => two.live && (two.job 0).any (fun j => j.started && decide (1 < j.members) && j.rank != 1 && fld (note k) 0 4 == j.jobId) &&
    fld (note k) 120 8 == agetD (two.jobX 0).lin 1 0 + 1 && !(two.jobX 0).closing && fld (note k) 6 1 == k
  let change := fun (c : LChange) => ({ two with feed := { two.feed with changes := [c] } } : State)
  let there := fun (c : LChange) => (change c).feed.changes.find? (fun c => c.job == 0 && c.ring == 0) == some c && Nat.ble (c.sentAt + 10000000) (change c).now
  [off.live && off.accThere 0 && (off.feedPort 0).en && (off.acc 0).st == 0x11 && !(off.acc 0).retry, (up.acc 0).st == 0x10 && barsFit [{}] && !barsFit [{ bars := [2 ^ 43] }],
   Nat.ble ((up.acc 0).since + 1000000000) up.now, again.live && Nat.ble ((again.acc 0).since + 10000000000) again.now && (again.acc 0).retry,
   lat.live && (lat.acc 0).st == 2 && Nat.ble b (b + 524287) && (b + 524287 - b) / 64 == 8191 && (lat.cell 8191).en && (lat.cell 8191).mask.testBit 0,
   fresh 1, fresh 3, there {} && decide (1 < 3), there { waiting := true }]

def met_LatchesAndDeliveriesAct : List Bool :=
  let lat := fun (l : Latch) (r : FRing) => ({ fd adm r with lat := { dev.lat with cells := [(5, l)] } } : State)
  let add := lat { en := true, mask := 1 } {}
  let post := lat { en := true, mask := 1, mode := 1, bound := some 0, gen := 1 } {}
  let val := 2 ^ 48 + 2
  let a := fun (o : Nat) => ({ off := 0x03400000 + 64 * 5 + o } : Access)
  let wr := fun (o : Nat) => hostWrites 0 dev && (a o).wr && (a o).size == 8 && (a o).aligned && (dev.latchAt (a o)) == some (5, o) &&
    (dev.cell 5).bound == none && (dev.cell 5).guard == none
  let bt : Batch := {}
  let r : FRing := { st := 1, latch := 5, slotBytes := 4096, queue := [bt], awake := true }
  let go := lat { gen := 1, val := 2 } r
  let w := ((go.classServed r).upRing 0 FRing.popHead).sendBatch 0 r r.nextN bt false
  let d : Delivery := { n := 1 }
  let out := fd adm { issued := [d] }
  let read := fd adm { issued := [{ d with state := 2 }] }
  let cred := { dev with
    feed := { dev.feed with rings := [(0, { credRkey := 9 })] }, net := { dev.net with regions := [(9, { owner := .credit 0 })] } }
  [add.live && (add.acc 0).st == 2 && decide (5 < latchCount) && (add.cell 5).en && (add.cell 5).mask.testBit 0 && (add.cell 5).mode == 0,
   post.live && (post.cell 5).mode == 1 && (post.cell 5).bound == some 0 && (post.ring 0).any (fun r => Nat.ble 2 (r.landed + r.slots)) &&
     val % 2 ^ 64 / 2 ^ 48 % 65536 == (post.cell 5).gen && (val % 2 ^ 64 % 2 ^ 32 + 2 ^ 32 - (post.cell 5).val % 2 ^ 32) % 2 ^ 32 == 2,
   wr 0x00, wr 0x18, wr 0x20 && !bit ((a 0x20).val % 2 ^ 64) 2,
   go.live && (go.ring 0).any (fun x => x == r) && r.redo.isEmpty && go.ringOpen r && go.credit r r.nextN && go.classTurn r && r.staleSteps == 0 && !w.2.empty,
   out.live && (out.ring 0).any (fun r => (r.out 1).isSome && r.transport == 0 && r.st != 3),
   (read.ring 0).any (fun r => (r.out 1).any (fun d => d.state == 2 && d.rg == r.rg)), ((fd adm { st := 3 }).ring 0).any (fun r => r.st == 3),
   cred.live && (cred.region 9).any (fun g => g.owner == .credit 0 && g.seq + 1 == 1) && (cred.ring 0).isSome]

/-! ## Premises of the statements: faults, checkpoints, firmware, stage manager, call board -/

def met_FaultsAct : List Bool :=
  let ras := fun (r : Ras) => ({ dev with ras := r } : State)
  let ch : Charge := { unit := rasUnitId 3, cause := .corrected, op := 2, detail := 1 }
  let chd := ras { charged := [ch] }
  let reset := ras { resets := [{ part := 2 }], removing := some (1, 0), testPass := [] }
  let fenced := ras { units := [(3, { fenced := true })] }
  let out := { ras {} with tap := { dev.tap with testOut := [5] } }
  let co := ras { coals := [{ unit := 1, code := 2, op := 3 }] }
  let set := put 16 [(8, 1, 6)]
  let rung := ras { rings := [(0, { count := 2 })] }
  [chd.live && chd.unitThere 3 && ch.cause != .memory && ch.cause != .trace && chd.ras.charged.find? (fun c => c.unit == rasUnitId 3) == some ch,
   !(chd.takeCharges 3).unitFenced 3, (fenced.takeCharges 3).unitFenced 3 && fenced.live && fenced.unitThere 3,
   dev.live && dev.unitThere 159 && dev.unitThere 160, decide (15 < dev.glb.part.channels) && !dev.ras.removed.contains 15,
   (dev.partOf (dev.partBase .shuffle)).isSome, (reset.ras.resets.find? (fun r => r.part == 2)).isSome && reset.ras.removing.isSome,
   dev.ras.period != 0 && dev.iftNext == some 0,
   out.live && out.tap.testOut.contains 5 && !out.ras.testPass.contains 5 && !out.unitFenced 5 && !out.chargeWaits 5,
   co.aon.powered && (co.ras.coals.find? (fun c => c.matches 1 2 3)).any (fun c => Nat.ble (c.since + 10000000) co.now),
   srv opRasSetErrorRing 0 set dev, srv opRasErrorHead 0 (pk [(4, 2), (4, 0)]) rung && (aget rung.ras.rings 0).any (fun g => decide (2 < g.size)),
   srv opRasGetUnit 0x70000000 [] dev && rasIndex 0x70000000 == some 144,
   srv opRasFenceUnit 0x70000000 [] dev && !(bgn opRasFenceUnit 0x70000000 [] dev).isProtected 144, srv opRasSetTest 0 (zeros 8) dev]

/-- A device with one checkpoint job. -/
def ck (j : CkJob) : State := { dev with ckp := { dev.ckp with jobs := [(0, j)], areas := [{ jobId := 0 }] } }

def met_CheckpointsAct : List Bool :=
  let set := put 24 [(4, 2, 1)]
  let b := bgn opCkpSetJob 0 set dev
  let s := ck {}
  let trig := put 48 [(12, 4, 1), (24, 4, 1), (28, 2, 1)]
  let sh := put 80 [(2, 2, 1), (18, 2, 0xFFFF), (36, 8, 4096)]
  let big := ck { setGib := 1 }
  let has := fun (s : State) (p : CkJob → Bool) => s.live && (s.ck 0).any p
  let cap := fun (c : Capture) => ck { capture := some c, shards := [{ size := 4096 }] }
  let of := fun (c : Capture) (p : Capture → Bool) => has (cap c) (fun j => j.capture.any p)
  let go : Capture := { noCue := true, zeroed := true, started := true }
  let cue := { s with cue := { s.cue with st := .locked } }
  let firstOf := fun (s : State) (w : OwnWork) => (s.ownDue.find? (fun e => e.2 == w)).any (fun e =>
    let t := s.cueTo (e.1 - 1) e.1
    (t.ck 0).isSome && (t.ownDue.find? (fun e => e.2 == w)).isSome)
  let due := { cap { step := 0, zeroed := true } with cue := { dev.cue with st := .locked } }
  let note := put 64 [(4, 2, 1), (6, 1, 1), (56, 8, 1)]
  let box := fun (l : List IntStep) =>
    let u := ck { drain := some { seq := 3 } }
    { u with ckp := { u.ckp with areas := [{ jobId := 0, bank0 := { hdrOk := true, seq := 3 } }] }
             sto := { u.sto with ints := [{ use := .drain 0, todo := l }] } }
  let left := box [.flush]
  let bad := { left with sto := { left.sto with ints := left.sto.ints.map (fun o => { o with fail := some 1 }) } }
  let drained := fun (s : State) => s.intAdvance 2 (.drain 0)
  let drains := fun (s : State) => has s (fun j => j.drain.isSome && j.remote.isNone) && (s.area 0).any (fun a => a.bank0.hdrOk && a.bank0.seq == 3) &&
    (s.intOp (.drain 0)).isSome && s.pwr.step == 0
  [srv opCkpSetJob 0 set dev && (b.ckp.jobs.find? (fun e => e.2.jobId == 0)).isNone && freeKey b.ckp.jobs 64 0 == some 0 &&
     (b.ckpMailbox 0 1).isSome && b.remoteOk 0 0 && (b.area 0).isNone && decide (areaBytes 0 ≤ b.bookBytes),
   served opCkpSetShards 0 0 (hdrPtr 0 80) sh oper big && (big.ck 0).any (fun j => j.capture.isNone && j.restore.isNone) &&
     shardClash (fun x d => x.id == d.id) [] (shardsOf sh) 0 == none && dimsClash sh == none &&
     shardClash (fun x d => x.guard == d.guard && x.accel != d.accel) [] (shardsOf sh) 0 == none && (boxesOf sh).isEmpty && (shardsOf sh).all (boxFits (streamsOf sh) (boxesOf sh)) &&
     Nat.ble 4096 (big.partLen .ckp) && (({ shards := shardsOf sh } : CkJob).guards.all big.latchFree),
   srv opCkpSetTrigger 0 trig s, srv opCkpCapture 0 (zeros 16) s && (bgn opCkpCapture 0 (zeros 16) s).cue.st == .none &&
     (bgn opCkpCapture 0 (zeros 16) s).skipReason {} false == none,
   srv opCkpCapture 0 (put 16 [(8, 8, 9)]) s, srv opCkpGetJob 0 (zeros 16) s, srv opCkpSetSigners 0 (zeros 8) dev,
   srv opCkpCloseJob 0 (zeros 8) s && has s (fun j => j.capture.isNone && j.restore.isNone), srv opCkpCloseJob 0 (put 8 [(2, 1, 1)]) s,
   srv opCkpReadBank 0 (zeros 24) s && (s.area 0).isSome,
   firstOf cue (.decision 0), firstOf due (.capture 0) && due.live, of {} (fun c => !c.zeroed),
   of { noCue := true } (fun c => (cap c).captureDue c), of { go with left := [0] } (fun c => c.started && (({ shards := [{ size := 4096 }] } : CkJob).heads c).contains 0) && (({ cap go with feed := (fd adm {}).feed } : State).acc 0).st == 2,
   of { go with stored := [0] } (fun c => c.zeroed && c.stored.headD 65536 == 0), of go (fun c => c.zeroed && c.started && c.left.isEmpty && c.stored.isEmpty),
   has (ck { members := 2 }) (fun j => decide (1 < j.members) && j.rank != 1 && fld note 56 8 == agetD j.xin 1 0 + 1 && fld note 0 4 == j.jobId),
   drains left && !((drained left).intOp (.drain 0)).any (fun o => o.fail.isSome) && !(drained left).intWritten (.drain 0),
   drains bad && ((drained bad).intOp (.drain 0)).any (fun o => o.fail.isSome),
   drains (box []) && !((drained (box [])).intOp (.drain 0)).any (fun o => o.fail.isSome) && (drained (box [])).intWritten (.drain 0) && ((drained (box [])).area 0).any (fun a => !a.bank1.hdrOk),
   ((fd adm {}).acc 0).st == 2]

def met_FirmwareActs : List Bool :=
  let stg := fun (x : Stg) => ({ dev with stg := { x with image := some {}, grant := 65535, grantMin := 1, grantMax := 2 } } : State)
  let at_ := fun (v : Handover) => stg { handover := some v }
  let sm := { at_ {} with sm := { dev.sm with running := true } }
  let go : Access := { off := 0x03000008, val := 16777216 + 4096 }
  let load := { dev with stg := { dev.stg with status := 1 } }
  let hand := { dev with onb := { cores := [(3, { running := true })] } }
  let back := stg { hands := [(3, { restarting := true })] }
  let mod := stg { modules := [{ cls := 0xE0 }] }
  let modUsed := { mod with cmd := { mod.cmd with fetched := [{ opcode := 0xE012, hdr := { hdr 0 0 with hostTag := 7 }, held := some 0 }] } }
  let old := fun (v : Handover) (n : Nat) => (at_ v).live && (at_ v).stg.handover == some v && Nat.ble (v.since + n) (at_ v).now
  let saved := (at_ { stage := 2 }).stateRecord 0 0
  let good := (at_ { stage := 2 }).gWrite ((at_ { stage := 2 }).recordBase 0) saved
  [srv opFwGetInfo 0 (zeros 8) dev && dev.stg.usHdr == none, served opFwStage 0 0 (hdrPtr 0 16) (put 16 [(4, 4, 8)]) oper dev,
   srv opFwActivate 0 (pk [(4, 100), (4, 0)]) (stg { usReady := true }),
   srv opFwCommit 0 (zeros 8) (at_ { stage := 3 }) && (at_ { stage := 3 }).stg.trial, srv opFwCommit 0 (pk [(8, 1)]) (at_ { stage := 3 }),
   srv opFwRollback 0 [] (at_ { stage := 3 }), srv opFwUnloadModule 0 (pk [(8, 0xE0)]) mod && mod.stg.modules.any (fun m => m.cls == 0xE0) && !(bgn opFwUnloadModule 0 (pk [(8, 0xE0)]) mod).classBusy 0xE0,
   srv opFwUnloadModule 0 (pk [(8, 0xE0)]) modUsed && (bgn opFwUnloadModule 0 (pk [(8, 0xE0)]) modUsed).classBusy 0xE0,
   srv opFwSetModuleKey 0 (zeros 8) dev,
   hostWrites 0 dev && go.fn == 0 && go.wr && go.off == 0x03000008 && bit go.val 24 && go.aligned, load.live && load.stg.status == 1 && !load.stg.loadLost,
   hand.live && (hand.core 3).running && hand.handUp 3 && Nat.ble ((hand.hand 3).kickAt + hand.stg.wdogNs) hand.now, back.live && back.mayRestart 3,
   old {} 60000000000 && sm.sm.running && !sm.pwr.emergency && Nat.ble (sm.pwr.clearAt + 100000000) sm.smNow,
   !(at_ {}).handoverClear, old { stage := 1 } 20000000, old { stage := 2 } 200000000, good.live && (good.recordGood {} 0 || good.recordGood {} 1), old { stage := 3, trialMs := 100 } 100000000]

def met_StageManagerActs : List Bool :=
  let sm := fun (x : Sm) => ({ dev with sm := { x with running := true } } : State)
  let log := pk [(4, 0), (4, 1), (16, 0)]
  let act := sm { actReq := some 0 }
  let hot := { act with pwr := { act.pwr with epr := true } }
  let trial := sm { trial := true, trialAt := 70000000000 }
  [dev.aon.powered && !dev.sm.running && !dev.sm.recovery, (sm {}).aon.powered && Nat.ble ((sm {}).sm.wdAt + 100000000) (sm {}).smNow && !(sm {}).sm.trial,
   !(sm { writing := [{}] }).sm.writing.isEmpty, act.sm.actReq.isSome && act.actClear,
   hot.sm.actReq == some 0 && Nat.ble 60000000000 hot.smNow && !hot.actClear,
   trial.sm.trial && Nat.ble trial.smNow (trial.sm.trialAt + 30000000000) && Nat.ble (trial.sm.trialAt + 30000000000) trial.smNow,
   (sm { mgmtNew := some ([], 5) }).sm.mgmtNew.any (fun e => Nat.ble e.2 dev.smNow), srv opSmReadLog 0 log (sm {}), srv opSmReadLog 0 log dev,
   srv opSmSetOperatorKey 0 (zeros 40) dev, srv opSmSetThreshold 0 (zeros 24) dev, srv opSmSetFwKey 0 (zeros 32) dev, srv opSmSetMgmt 0 (zeros 64) dev]

def met_CallBoardActs : List Bool :=
  let vf := { dev with host := { dev.host with vfEnable := true, numVfs := 4, vfs := [(1, { st := 1 })] } }
  let give := pk [(2, 1), (2, 0), (2, 4094), (2, 2)]
  let b := bgn opCallAssign 0 give vf
  let reg := fun (r : Nat) => ({ off := 0x00200000 + 64 * 63 + r, val := 2 ^ 63 } : Access)
  let wr := fun (r : Nat) => hostWrites 0 dev && (reg r).wr && (reg r).size == 8 && (reg r).aligned &&
    (dev.panelAt 0 (reg r).off).any (fun e => (reg r).off / 8 * 8 == e.1 + r)
  let v : CallVec := { stack := [(9, 0)], modUs := 5, lastMsg := some 0, taken := true, evPend := true }
  let vec := { dev with call := { dev.call with vecs := [(vecKey 0 2047, v), (vecKey 0 2046, { v with stack := [] })] } }
  [srv opCallAssign 0 give vf && !(List.range' 4094 2).any (fun n => !(agetD b.call.srcs n {}).mask || (agetD b.call.srcs n {}).pend || b.onStack n),
   wr 0x08, wr 0x10, wr 0x20, wr 0x28, hostWrites 0 vec && decide (2047 < vectorsOf 0), vec.stackOf (.vec (vecKey 0 2047)) == [(9, 0)],
   vec.live && Nat.ble 5000 vec.now && !(agetD vec.call.vecs (vecKey 0 2046) {}).pba && !(vec.candidates (.vec (vecKey 0 2046))).isEmpty && !vec.vfQuiet 0]

/-! ## Premises of the statements: host, power, observation, management -/

def met_HostEndpointActs : List Bool :=
  let with_ := fun (v : Vf) => ({ dev with host := { dev.host with vfEnable := true, numVfs := 4, vfs := [(1, v)] } } : State)
  let fresh := with_ { st := 1 }
  let run := with_ { st := 2, tracking := true }
  let froz := with_ { st := 4, tracking := true, dirty := [3] }
  let gone := with_ { st := 3, freezeBy := some 5 }
  let flr := { fresh with host := { fresh.host with flr := [1] } }
  let res := put 32 [(0, 2, 1), (13, 1, 1), (24, 4, 64)]
  let b := bgn opVfSetResources 0 res fresh
  let name := fun (n : Nat) => put n [(0, 2, 1)]
  let part := fun (n : Nat) (k : Nat) => put n [(0, 2, 1), (2, 1, k)]
  let box := fun (o n : Nat) => ({ off := 0x00080000 + 0x800 + o, size := n } : Access)
  let mb := fun (o n k : Nat) => hostWrites 0 fresh && (box o n).wr && (box o n).aligned && (aget fresh.host.vfs 1).isSome && mboxAt 0 (box o n).off == some (1, true, k)
  [fresh.hostUp && fresh.fnEnabled 1 && !fresh.inFlr 1, dev.hostUp && !dev.inFlr 0 && !dev.host.vfEnable, flr.live && flr.inFlr 1,
   mb 0x400 4 0, mb 0x408 4 8,
   srv opVfSetResources 0 res fresh && b.vfState 1 == 1 && !b.vfHolds 1 && bit (fld res 13 1) 0 && decide (fld res 24 4 ≤ b.glb.vfBar2Mib) &&
     b.rangeFree 1 (fld res 16 8) 64,
   srv opVfGetResources 0 (name 16) fresh && fresh.vfState 1 != 0, srv opVfSetMbox 0 (name 8) fresh,
   srv opVfTrack 0 (part 32 0) run && run.vfState 1 == 2 && decide (run.trackedBut 1 < 8), srv opVfTrack 0 (part 32 1) run, srv opVfTrack 0 (part 32 2) run,
   srv opVfFreeze 0 (name 8) run, srv opVfSave 0 (part 24 0) froz && froz.vfState 1 == 4 && (froz.vf 1).tracking,
   srv opVfSave 0 (part 24 1) froz && ((bgn opVfSave 0 (part 24 1) froz).saveChunk 0 1 0 0).2.2,
   srv (opVfRestore []) 0 (part 24 0) fresh, srv opVfResume 0 (name 8) froz, srv opVfSetMigKey 0 (put 40 [(0, 1, 32)]) dev,
   gone.live && gone.vfState 1 == 3 && gone.vfQuiesced 1 && (gone.vf 1).freezeBy.any (fun t => decide (t ≤ gone.now))]

def met_PowerAndPinsAct : List Bool :=
  let sm := { dev with sm := { dev.sm with running := true } }
  let aon := fun (f : Aon → Aon) => ({ sm with aon := f sm.aon } : State)
  let hot := { sm with pwr := { sm.pwr with hist := [(100000000000, 700000000)] } }
  let warm := { sm with pwr := { sm.pwr with warmAt := some 0 } }
  let epr := { sm with pwr := { sm.pwr with epr := true, eprHighAt := some 0 } }
  let ready := { aon (fun a => { a with mainPhase := .off, pwrEn := true }) with
    sm := { sm.sm with sensors := [(64, { hw := 54000 }), (62, { hw := 30 })], cfg := { sm.sm.cfg with thr := [(62, 0, 90, 0, 100)] } } }
  let held := aon (fun a => { a with mainPhase := .reset, resetHold := some 5 })
  [srv opPwrSetCap 0 (pk [(2, 650), (6, 0)]) dev, srv opPwrSetConfig 0 (pk [(2, 650), (2, 1), (2, 1), (2, 1), (8, 0)]) dev, dev.aon.powered && dev.sensorThere 95,
   hot.sm.running && Nat.ble (hot.pwr.tickAt + 100000) hot.smNow && !hot.pwr.emergency && decide ((hot.effCap : Int) * 1000000 < hot.mean1ms),
   warm.pwr.warmAt == some 0 && Nat.ble (warm.sm.cfg.thermStep * 1000000) warm.smNow, dev.aon.mainPhase == .ready, (aon (fun a => { a with eprN := false })).aon.powered,
   epr.pwr.eprHighAt == some 0 && epr.pwr.epr && epr.aon.eprN && Nat.ble (epr.sm.cfg.eprHold * 1000000) epr.smNow,
   !(aon (fun a => { a with powered := false })).aon.powered,
   (aon (fun a => { a with hostLink := false })).live && (aon (fun a => { a with hostLink := false })).aon.hpPerstN,
   (aon (fun a => { a with inputOk := false, inputRemoved := true, pwrEn := true })).aon.powered, ready.step4Ok && ready.aon.sysRstN,
   (aon (fun a => { a with mainPhase := .init })).aon.mainPhase == .init, sm.aon.sysRstN && sm.aon.hpPerstN && sm.aon.strapRstScope && !sm.aon.tableau,
   held.aon.mainPhase == .reset && held.aon.resetHold.any (fun t => decide (t ≤ held.smNow)), (aon (fun a => { a with mainPhase := .reset })).aon.resetHold == none,
   !dev.sm.running && Nat.ble (dev.sm.alertAt + 500000001) dev.smNow]

def met_ObservationActs : List Bool :=
  let obs := fun (o : Obs) => ({ dev with obs := o } : State)
  let area := put 16 [(8, 1, 4)]
  let snap := obs { snaps := [(0, { count := 2 })] }
  let ctr := put 16 [(2, 2, 1)]
  let cfg := put 32 [(3, 1, 1)]
  let on := obs { st := 1 }
  let off := obs { st := 3, recs := [zeros 32] }
  let clr := pk [(4, 0x00100030), (4, 0)]
  let tab := { dev with aon := { dev.aon with tableau := true }, sm := { dev.sm with running := true, sess := [{ id := 9, live := true }] },
                        cmd := { dev.cmd with sessions := [{ fn := 256, handle := 1, role := .operator, spdm := 9 }] } }
  let stop := { tab with aon := { tab.aon with tabStopped := true } }
  let req := put 16 []
  [srv opObsSetSnapArea 0 area dev, srv opObsSnapHead 0 (pk [(4, 2), (4, 0)]) snap && (aget snap.obs.snaps 0).any (fun a => decide (2 < 2 ^ a.log2)),
   srv opObsSetCounter 0 ctr dev, srv opObsTraceCfg 0 cfg dev && dev.obs.st == 0, srv opObsTraceStart 0 [] dev, srv opObsTraceStop 0 [] dev,
   srv opObsTrigger 0 [] on && (bgn opObsTrigger 0 [] on).obs.st == 1,
   srv opObsTraceRead 0 (put 24 [(8, 4, 1)]) off && (bgn opObsTraceRead 0 (put 24 [(8, 4, 1)]) off).obs.st == 3, srv opObsTableau 0 [] dev,
   srv opObsClearCounters 0 clr dev && decide (fld clr 0 4 < bar0Len 0) && ((bgn opObsClearCounters 0 clr dev).reg 0 (fld clr 0 4)).any (fun r => r.clear.isSome), tab.aon.tableau && !tab.aon.tabStopped && tab.sm.running, stop.aon.powered && stop.aon.tableau && stop.aon.tabStopped,
   tab.carriesOperator 9 && req.length == 16 && decide (fld req 0 1 ≤ 5) && decide (fld req 12 4 ≤ 1000)]

def met_SpdmActs : List Bool :=
  let sm := fun (k : Nat) => ({ dev with sm := { dev.sm with running := true, spdm := [(1, { st := k })], sess := [{ id := 9 }, { id := 10, live := true }] } } : State)
  let req := fun (ver code n : Nat) => put n [(0, 1, ver), (1, 1, code)]
  let ok := fun (k ver code need n : Nat) => (sm k).aon.powered && (sm k).smHears 1 && decide (4 ≤ (req ver code n).length) && fld (req ver code n) 1 1 == code &&
    fld (req ver code n) 0 1 == ver && decide (need ≤ ((sm k).conn 1).st)
  let meas := put 37 [(0, 1, 0x12), (1, 1, 0xE0), (2, 1, 1), (3, 1, 0xFF)]
  let has := fun (id : Nat) (live : Bool) => (sm 3).sm.sess.any (fun x => x.id == id && x.medium == 1 && x.live == live)
  [ok 0 0x10 0x84 0 4, ok 1 0x12 0xE1 1 4, ok 2 0x12 0xE3 2 4, ok 3 0x12 0x81 3 4, ok 3 0x12 0x82 3 8, ok 3 0x12 0x83 3 36,
   ok 3 0x12 0xE0 3 37 && bit (fld meas 2 1) 0 && fld meas 36 1 == 0 && fld meas 3 1 == 0xFF,
   ok 3 0x12 0xE4 3 104 && decide ((sm 3).sm.sess.length < 4), has 9 false, has 10 true && ok 3 0x12 0xE9 0 4 && ok 3 0x12 0xEC 0 4]

def met_ManagementNetworkAnswered : List Bool :=
  let sm := fun (x : Sm) => ({ dev with sm := { x with running := true, sess := [{ id := 9, live := true }] },
                                        cmd := { dev.cmd with sessions := [{ fn := 256, handle := 1, role := .operator, spdm := 9 }] } } : State)
  let req := fun (o k n : Nat) => put n [(o, 1, k)]
  let upd := put 16 [(2, 1, 0x14), (5, 2, 1), (12, 4, 16777216)]
  [(sm {}).aon.powered && (sm {}).sm.running, decide (2 ≤ (req 1 2 2).length) && fld (req 1 2 2) 1 1 == 2, decide (3 ≤ (req 2 2 3).length) && fld (req 2 2 3) 2 1 == 2,
   fld (put 5 [(2, 1, 0x11), (3, 2, 95)]) 2 1 == 0x11 && decide (fld (put 5 [(2, 1, 0x11), (3, 2, 95)]) 3 2 ≤ 95),
   (sm {}).updateOk 9 && fld upd 2 1 == 0x14 && fld upd 5 2 == 1 && decide (fld upd 12 4 ≤ 16777216) && (sm {}).sm.actReq == none,
   (sm { unacked := [{}], receiver := some (1, 9) }).sm.unacked.any (fun x => Nat.ble (x.at_ + 500000000) dev.smNow && decide (x.sends < 3)),
   (sm { verified := true }).updateOk 9 && !(sm { verified := true }).aon.tableau && !(sm { verified := true }).sm.trial && !(sm { verified := true }).sm.recovery]

/-! ## Premises of the statements: the Onbusyn cores -/

/-- Whether an outcome is a next state. -/
def isNext (o : Host.Outcome State Fault Refusal) : Bool :=
  match o with
  | .next _ => true
  | .fault _ => false
  | .refused _ => false

/-- A device with stagehand core 3 (or the stage manager's) running on some registers. -/
def cr (n : Nat) (c : OnbCore) : State :=
  { dev with sm := { dev.sm with running := true }, onb := { cores := [(n, { c with running := true })] } }

/-- A word of a tag. -/
def wd (v : Nat) (t : BitVec 4) : LWord := { val := BitVec.ofNat 64 v, tag := t }

/-- A core whose g1 is an INT, g2 a PTR, g3 a TIME, g4 a CUE, g5 a CODE. -/
def five (a b : Nat) : OnbCore := { regs := [wd a tInt, wd b tPtr, wd 8 tTime, wd 9 tCue, wd 256 tCode] }

/-- Firmware code on core 3 executes. -/
def at3 (c : OnbCore) (p : State → OnbCore → Bool) : Bool := onbAt 3 (cr 3 c) && p (cr 3 c) ((cr 3 c).core 3)

def met_OnbusynRegisterInstructionsComplete : List Bool :=
  let c := five (2 ^ 64 - 1) 0
  [at3 c (fun _ c => addTag (c.reg 1).tag (c.reg 2).tag == some tPtr && addTag (c.reg 3).tag (c.reg 1).tag == some tTime),
   at3 c (fun _ c => subTag (c.reg 4).tag (c.reg 4).tag == some tInt && subTag (c.reg 2).tag (c.reg 1).tag == some tPtr),
   at3 c (fun _ c => (c.reg 1).tag == tInt && (c.reg 1).val != 0 && (c.reg 0).tag == tInt && srcOk (c.reg 5)), at3 { c with priv := true, mchi := 4096, mbudget := 1000000000000 } (fun _ c => srcOk (c.reg 1))]

def met_OnbusynLoadsAndStoresComplete : List Bool :=
  let at_ := fun (b n len : Nat) => onbAt n (cr n (five 1 b)) && accessOk n 2 0 len ((cr n (five 1 b)).core n)
  [at_ 0x4FFF8 3 8 && !smRegRange 3 0x4FFF8, at_ 0x200000 16 8 && smRegRange 16 0x200000, at_ 0x4FFFC 3 4, at_ 0x4FFFE 3 2, at_ 0x4FFFF 3 1,
   onbAt 3 (cr 3 { five 1 0x40000 with mem := [(0x40000 / 8, wd 7 tInt)] }) && srcOk (((cr 3 (five 1 0)).core 3).reg 1)]

def met_OnbusynControlInstructionsComplete : List Bool :=
  let c := five 5 0
  let mod : OnbCore := { c with priv := true, mchi := 4096, mbudget := 5, tvecSet := true }
  let late := cr 3 mod
  let wt := cr 3 { c with waiting := some (4, 1000) }
  let call := { wt with call := { wt.call with shStack := [] , srcs := [(400, { target := 2, vector := 3, mask := false, pend := true })] } }
  [at3 c (fun _ c => (c.reg 1).tag == (c.reg 1).tag && srcOk (c.reg 1)), at3 c (fun _ c => ordTags (c.reg 3).tag (c.reg 3).tag), at3 c (fun _ c => (c.reg 5).tag == tCode),
   at3 c (fun _ c => !c.loopFaults 3 0 1 && (c.reg 1).tag == tInt && decide ((c.reg 1).val.toNat < 2 ^ 32)),
   csrListed 0x1B && csrModule 0x1B && at3 c (fun _ c => !(c.lv (csrLevel 0x1B)).active), at3 { c with tvecSet := true } (fun _ c => !c.wouldDouble),
   at3 c (fun _ c => !c.priv), wt.coreRuns 3 && (wt.core 3).waiting == some (4, 1000) && !wt.handSource 3 && decide (1000 ≤ wt.now),
   call.coreRuns 3 && call.handSource 3,
   late.coreRuns 3 && (late.core 3).waiting.isNone && (late.core 3).priv && Nat.ble ((late.core 3).modAt + (late.core 3).mbudget) late.now && !(late.core 3).wouldDouble]

def met_OnbusynCoprocessorsComplete : List Bool :=
  let c : OnbCore := { five 32 0x40000 with shaOn := true }
  let d := put 32 [(0, 8, 0), (8, 1, 4), (9, 1, 8), (10, 2, 64), (12, 1, 4), (13, 1, 1)]
  let walk := { cr 3 (five 5 0x40000) with gddr := ((List.range 32).map (fun i => (dev.partBase .reserve + walkerOff + 160 + i, d.getD i 0))).filter (fun e => e.2 != 0) }
  let dma := cr 3 { five 0 0x40000 with mem := [(0x40000 / 8, wd (2 * 256 + 8 * 2 ^ 32) tInt)] }
  let dd := (dma.core 3).dmaDesc 0x40000
  let top := { cr 3 (five 400 0) with call := { dev.call with shStack := [(3, [(400, 0)])] } }
  [at3 c (fun _ c => cpOk 3 0 c && (c.reg 1).tag == tInt && localOk 3 32 (c.reg 2) c && c.shaOn), at3 (five 0 0x40000) (fun _ c => localOk 3 32 (c.reg 2) c && !c.shaOn),
   at3 c (fun _ c => cpOk 3 1 c && (c.reg 0).tag == tInt && localOk 3 32 (c.reg 2) c),
   ({ walk with ras := { dev.ras with removing := some (1, 0) } } : State).memHeld, onbAt 3 walk && !walk.memHeld && cpOk 3 2 (walk.core 3) && walkOk walk (walk.walkDesc 5) && localOk 3 8 ((walk.core 3).reg 2) (walk.core 3),
   at3 c (fun s c => cpOk 3 3 c && (c.reg 1).tag == tInt && decide (32 < ctxCount) && localOk 3 256 (c.reg 2) c && (c.reg 2).val.toNat % 8 == 0 &&
     decide (s.ctx.pinned.length < 16384)),
   at3 (five 4095 0) (fun s c => cpOk 3 4 c && (c.reg 1).val.toNat == 4095 && (s.take (.hand 3)).1 == none), onbAt 3 top && top.handTop 3 400,
   at3 (five 8191 0) (fun s c => cpOk 3 5 c && decide ((c.reg 1).val.toNat < latchCount) && (s.cell 8191).bound == none && (s.cell 8191).guard == none),
   onbAt 3 dma && cpOk 3 6 (dma.core 3) && localOk 3 32 ((dma.core 3).reg 2) (dma.core 3) && (dma.dmaCauses (dma.core 3) 3 dd).isEmpty && dd.len == 8 &&
     !dd.meets 0 && (dma.core 3).poisonAt dd.src dd.len == none && !(dma.core 3).priv]

/-- The core of that statement's witness. -/
def coreS : State := cr 3 { five 1 0x40000 with tvecSet := true }

set_option maxRecDepth 40000 in
theorem witness_OnbusynCoreFrame : [!(coreS.core 3).wouldDouble, !(coreS.core 3).priv, isNext (exec (.add 3 6 1 2) coreS), isNext (exec (.st64 3 1 2 0) coreS)].all id = true := by decide

def met_RegistersOfACore : List Bool := [onbAt 3 (cr 3 {}), dev.stg.image.isSome]

def met_LoopEndsAreEvaluated : List Bool :=
  let c : OnbCore := { pc := 16, loops := [{}, {}, { lps := 4, lpe := 16, lpc := 2, active := true }, { lps := 8, lpe := 16, lpc := 1, active := true }] }
  let one : OnbCore := { c with loops := c.loops.map (fun l => { l with lpc := 1 }) }
  [c.loops.length == 4, (c.lv 2).active && (c.lv 2).lpe == c.pc && decide (1 < (c.lv 2).lpc) && (c.lv 3).active && (c.lv 3).lpe == c.pc && (c.lv 3).lpc == 1,
   one.loops.length == 4 && (List.range 4).all (fun j => !(one.lv j).active || (one.lv j).lpe != one.pc || (one.lv j).lpc == 1),
   decide ((c.lv 2).lps ≤ (16 : BitVec 64).toNat) && decide ((16 : BitVec 64).toNat ≤ (c.lv 2).lpe)]

def met_LoopInstructionsFault : List Bool :=
  let on := { five 3 0 with loops := [{ lpe := 8, active := true }, {}, {}, {}] }
  [at3 on (fun _ c => (c.lv 0).active && (c.reg 1).tag == tInt), at3 on (fun _ c => decide ((c.lv 0).lpe < c.pc + 4 * 3)), at3 (five 3 0) (fun _ _ => true),
   at3 (five 3 0) (fun _ c => decide (codeEnd 3 < c.pc + 4 * 65536 + 4))]

def met_TrapsSaveAndEnter : List Bool :=
  [((cr 3 { inTrap := true }).core 3).inTrap, !((cr 3 {}).core 3).tvecSet, ((cr 3 { tvecSet := true }).core 3).tvecSet && !((cr 3 { tvecSet := true }).core 3).inTrap && !((cr 3 { tvecSet := true }).core 3).priv]

/-! ## Premises of the statements: frames, invariants and the rest -/

/-- Whether a command answers a next state from the device. -/
def runs (f : State → Host.Outcome State Fault Refusal) : Bool := isNext (f dev)

set_option maxRecDepth 40000 in
theorem witness_CommandAndTimeFrames : [runs (exec (.nop (hdr 0 0) [])), runs (exec (.sqTailWrite 0 0 { idx := 61 })), runs (exec (.cueInterpolate 5))].all id = true := by decide

set_option maxRecDepth 40000 in
theorem witness_StorageAndNetworkFrames : [isNext (exec (.flush { sqid := 1, nsid := 1 }) nv), runs (exec (.linkUp 15)), runs (exec (.drbgReseed 3))].all id = true := by decide

set_option maxRecDepth 40000 in
theorem witness_DataPathFrames : [runs (exec (.shuGetStream (hdr 0 16) (zeros 16))), runs (exec (.latchAdd (.feed 0) 8191 8 1)), runs (exec (.sliceComplete 63 5 {}))].all id = true := by decide

set_option maxRecDepth 40000 in
theorem witness_FaultAndFirmwareFrames : [runs (exec (.correctedError 175 1 true)), runs (exec (.ckpGetJob (hdr 0 16) (zeros 16))), runs (exec .handoverResumed)].all id = true := by decide

set_option maxRecDepth 40000 in
theorem witness_OnbusynFrames : [isNext (exec (.movz 3 4 1 7) (cr 3 {})), isNext (exec (.tret 3 0) (cr 3 {}))].all id = true := by decide

set_option maxRecDepth 40000 in
theorem witness_HostAndManagementFrames : [runs (exec (.flr 0)), runs (exec .smBoot), runs (exec .tableauNFall)].all id = true := by decide

set_option maxRecDepth 40000 in
theorem witness_OutputsStand : [isNext (step { dev with pending := [.nop (hdr 0 0) []] })].all id = true := by decide

/-- A write in one packet to a registered region. -/
def wrPkt : RdmaPkt := { qpn := qn, opcode := 0x0A, rkey := 5, addr := dev.partBase .staging, total := 4, payload := pk [(4, 7)] }

/-- A write through the window. -/
def wrWin : Access := { bar := 2, off := 64, wr := true, data := [7] }

set_option maxRecDepth 40000 in
theorem witness_MemoryStaysCanonical :
    [Memory.wf (nq { st := .rts }).gddr, isNext (step { nq { st := .rts } with pending := [.rdmaWriteReceived wrPkt] })].all id = true := by decide

set_option maxRecDepth 40000 in
theorem witness_StoresStayInPlace :
    [isNext (exec (.bar2Access wrWin) dev) && decide (dev.bar2Sized.bar2At 0 64 ≠ .mem 0),
     isNext (exec (.rdmaWriteReceived wrPkt) (nq { st := .rts })) && (nq { st := .rts }).net.regions.all (fun e => decide (0 < e.2.base)),
     isNext (exec (.dmaCopy 3 4 2 [] 0) (cr 3 (five 0 0x40000)))].all id = true := by decide

def met_TableauEdgeIsTaken : List Bool :=
  [dev.aon.powered && dev.aon.mainPhase == .ready && !dev.aon.tableau, State.reset.aon.powered && State.reset.aon.mainPhase != .ready]
def met_ReservedRegistersReadZero : List Bool :=
  let a : Access := { off := bar0Len 0 - 8 }
  [decide (a.off < bar0Len 0) && a.aligned && (dev.reg 0 (a.off / 8 * 8)).isNone && hostReads 0 dev && hostWrites 0 dev &&
     ((dev.ao 11 8).reg 0 (a.off / 8 * 8)).isNone]
def met_PartitionsTile : List Bool :=
  [decide (8704 + dev.glb.traceMib + dev.glb.ckpMib + dev.glb.stagingMib ≤ dev.capMib) && decide (mib dev.capMib - 1 < mib dev.capMib) && (dev.partOf (mib dev.capMib - 1)).isSome]
def met_CheckedPacketsOnly : List Bool :=
  let h : Hdr := { hdr 0 0 with session := 9 }
  let b := begun opNop 0 0 h dev
  [h.chan == .host 0 0 && (aget dev.cmd.qps (qpKey 0 0)).any (fun q => dev.canFetch 0 q h) && (dev.cmd.fetched.find? (fun f => f.isCmd 0 h [])).isNone &&
     dev.mayStart (qpKey 0 0) h && h.sqOk && (match opNop.check b h [] (b.judge 0 0) with | .error _ => true | .ok _ => false)]
set_option maxRecDepth 40000 in
theorem witness_PacketsLeaveMemory : [(hdr 0 0).pathLen == 0, runs (exec (.nop (hdr 0 0) []))].all id = true := by decide


/-! ## Ill-formed commands are refused, one for each kind of check -/

set_option maxRecDepth 40000 in
theorem test_wf_headers :
    [Instr.wf (.nop { hdr 0 0 with chan := .host 256 0 } []), Instr.wf (.nop { hdr 0 0 with chan := .head 65536 0 .tenant 0 false 0 } []),
     Instr.wf (.nop { hdr 0 0 with flags := 65536 } []), Instr.wf (.nop { hdr 0 0 with path := [] } []), Instr.wf (.nop (hdr 0 8) [])].any id = false := by
  decide

set_option maxRecDepth 40000 in
theorem test_wf_records :
    [Instr.wf (.registerWrite { fn := 256 }), Instr.wf (.registerWrite { bar := 6 }), Instr.wf (.registerWrite { size := 4, val := 2 ^ 32 }),
     Instr.wf (.flush { psdt := 4 }), Instr.wf (.flush { cdw10 := 2 ^ 32 }), Instr.wf (.ackReceived { psn := 16777216 }),
     Instr.wf (.pictureDecoded 0 { codec := 256 }), Instr.wf (.audioFrameDecoded 0 { track := 16 }), Instr.wf (.captionChange 0 { service := 5 }),
     Instr.wf (.aonPowerUp { i3c := 4 }), Instr.wf (.latchAdd (.feed 8) 0 8 0), Instr.wf (.sqTailWrite 0 0 { idx := 2 ^ 32 }),
     Instr.wf (.nvmeSqDoorbell 0 1 { idx := 0, other := some { opcode := 256 } }), Instr.wf (.latchAdd (.bar0 256) 0 8 0)].any id = false := by decide

set_option maxRecDepth 40000 in
theorem test_wf_numbers :
    [Instr.wf (.linkUp 16), Instr.wf (.positionFrame (2 ^ 64) true), Instr.wf (.contextError 1048576), Instr.wf (.pathDown 256 64),
     Instr.wf (.streamInputRead 16384 [] true), Instr.wf (.sliceComplete 64 0 {}), Instr.wf (.exchangeNotice 64 []), Instr.wf (.deliveryIssue 1024),
     Instr.wf (.detectedError 176 .memory 0 0), Instr.wf (.add 17 1 1 1), Instr.wf (.add 0 32 1 1), Instr.wf (.addi 0 1 1 65536),
     Instr.wf (.loopi 0 4 1 1), Instr.wf (.trap 0 256), Instr.wf (.moduleBudgetExpiry 16)].any id = false := by decide

/-! ## What some commands do, worked from the spec's words -/

/-- The next state, where there is one. -/
def nxt (o : Host.Outcome State Fault Refusal) : State :=
  match o with
  | .next t => t
  | .fault _ => dev
  | .refused _ => dev

/-- A register of core 3 after an instruction, data and tag. -/
def g3 (r : Nat) (o : Host.Outcome State Fault Refusal) : Nat × BitVec 4 := let w := ((nxt o).core 3).reg r; (w.val.toNat, w.tag)

/-- A CUE_SW_POS write moves a SOFTWARE cue to the position written (R43). -/
theorem test_cue_sw_pos :
    (nxt (exec (.cueSwPosWrite { off := 0x00100028, val := 1204551 * 65536 + 32768 })
      { dev with cue := { dev.cue with src := .software, st := .locked } })).cue.pos = 1204551 * 65536 + 32768 := by decide

/-- A tail doorbell moves SQ_TAIL (R64). -/
theorem test_sq_tail : (agetD (nxt (exec (.sqTailWrite 0 0 { idx := 63 }) dev)).cmd.qps (qpKey 0 0) {}).tail = 63 := by decide

/-- CREATE_QUEUE_PAIR gives the lowest free index (R98). -/
theorem test_create_queue_pair :
    ahas (nxt (exec (.createQueuePair (hdr 0 24) (put 24 [(16, 1, 6), (17, 1, 6)])) dev)).cmd.qps (qpKey 0 1) = true := by decide

/-- An add advances VALUE, and wraps at 64 bits (R310). -/
theorem test_latch_add :
    ((nxt (exec (.latchAdd (.feed 0) 5 8 3) { fd adm {} with lat := { dev.lat with cells := [(5, { en := true, mask := 1, val := 2 ^ 64 - 1 })] } })).cell 5).val = 2 := by
  decide

/-- A WRITE in one packet lands in its region (R137, R143). -/
theorem test_rdma_write : (nxt (exec (.rdmaWriteReceived wrPkt) (nq { st := .rts }))).mem (dev.partBase .staging) 4 = [7, 0, 0, 0] := by decide

/-- DESTROY_QP of a pair that is neither in RESET nor in ERROR leaves it (R140). -/
theorem test_destroy_busy_qp : ((nxt (exec (.destroyQp (hdr 0 8) (pk [(4, qn), (4, 0)])) (nq { st := .rts }))).qp qn).isSome = true := by decide

/-- ADD wraps, and a PTR with an INT gives a PTR (R414, Table 15.2). -/
theorem test_add : g3 6 (exec (.add 3 6 2 1) (cr 3 (five (2 ^ 64 - 1) 3))) = (2, tPtr) := by decide

/-- SAR keeps the sign and takes the count modulo 64 (Table 15.4). -/
theorem test_sar : g3 6 (exec (.sar 3 6 1 1) (cr 3 (five (2 ^ 63 + 63) 0))) = (2 ^ 64 - 1, tInt) := by decide

/-- A write of g0 changes nothing (R413). -/
theorem test_g0 : g3 0 (exec (.movz 3 0 0 7) (cr 3 {})) = (0, tInt) := by decide

/-- JAL writes the address after it to g31 as CODE (Table 15.4). -/
theorem test_jal : g3 31 (exec (.jal 3 2) (cr 3 { pc := 64 })) = (68, tCode) := by decide

/-- DIVU by zero traps and writes no register (Table 15.4). -/
theorem test_divu_by_zero :
    let t := nxt (exec (.divu 3 6 1 0) (cr 3 { five 5 0 with tvecSet := true, tvec := 512 }))
    (t.core 3).pc = 512 ∧ (t.core 3).inTrap = true ∧ ((t.core 3).reg 6).tag = tUninit := by decide

/-- A narrow load gives INT, zero-extended, in little-endian order (R417, Table 15.4). -/
theorem test_ld16u :
    g3 6 (exec (.ld16u 3 6 2 2) (cr 3 { five 0 0x40000 with mem := [(0x40000 / 8, wd 0x8899AABBCCDDEEFF tInt)] })) = (0xCCDD, tInt) := by decide

/-- LOOPI arms its level at the next instruction (R422). -/
theorem test_loopi :
    ((nxt (exec (.loopi 3 1 3 2) (cr 3 { pc := 64 }))).core 3).lv 1 = { lps := 68, lpe := 72, lpc := 3, active := true } := by decide

/-- TABLEAU_N falling holds the domain and takes the host link down (R515). -/
theorem test_tableau :
    (nxt (exec .tableauNFall dev)).aon.tableau = true ∧ (nxt (exec .tableauNFall dev)).aon.hostLink = false := by decide

/-- A function-level reset begins (R458). -/
theorem test_flr : (nxt (exec (.flr 0) dev)).inFlr 0 = true := by decide

/-- PWR_EN low removes the rails (R553). -/
theorem test_pwr_en_low : (nxt (exec .pwrEnLow dev)).aon.mainPhase = .off := by decide

/-- A step takes the command at the front of the queue. -/
theorem test_step_front : (nxt (step { dev with pending := [.latchAdd (.feed 0) 0 8 1, .smBoot] })).pending = [.smBoot] := by decide

set_option maxRecDepth 40000 in
theorem witness_CommandInterfaceCommandsComplete : met_CommandInterfaceCommandsComplete.all id = true := by decide

set_option maxRecDepth 40000 in
theorem witness_IntermissionsAct : met_IntermissionsAct.all id = true := by decide

set_option maxRecDepth 40000 in
theorem witness_DoorbellsAndForeignCommandsAct : met_DoorbellsAndForeignCommandsAct.all id = true := by decide

set_option maxRecDepth 40000 in
theorem witness_HostAccessesPerformed : met_HostAccessesPerformed.all id = true := by decide

set_option maxRecDepth 40000 in
theorem witness_CueCommandsComplete : met_CueCommandsComplete.all id = true := by decide

set_option maxRecDepth 40000 in
theorem witness_CueActs : met_CueActs.all id = true := by decide

set_option maxRecDepth 40000 in
theorem witness_NvmeCommandsComplete : met_NvmeCommandsComplete.all id = true := by decide

set_option maxRecDepth 40000 in
theorem witness_StorageEngineActs : met_StorageEngineActs.all id = true := by decide +kernel

set_option maxRecDepth 40000 in
theorem witness_StorageCommandsComplete : met_StorageCommandsComplete.all id = true := by decide

set_option maxRecDepth 40000 in
theorem witness_PortsAndPacketsAct : met_PortsAndPacketsAct.all id = true := by decide

set_option maxRecDepth 40000 in
theorem witness_QueuePairsAndLinksAct : met_QueuePairsAndLinksAct.all id = true := by decide

set_option maxRecDepth 40000 in
theorem witness_NetworkManagerCommandsComplete : met_NetworkManagerCommandsComplete.all id = true := by decide

set_option maxRecDepth 40000 in
theorem witness_HeddleActs : met_HeddleActs.all id = true := by decide

set_option maxRecDepth 40000 in
theorem witness_CiphersAct : met_CiphersAct.all id = true := by decide

set_option maxRecDepth 40000 in
theorem witness_StreamsAct : met_StreamsAct.all id = true := by decide

set_option maxRecDepth 40000 in
theorem witness_TapestryActs : met_TapestryActs.all id = true := by decide +kernel

set_option maxRecDepth 40000 in
theorem witness_LoomActs : met_LoomActs.all id = true := by decide +kernel

set_option maxRecDepth 40000 in
theorem witness_DeliveryCommandsComplete : met_DeliveryCommandsComplete.all id = true := by decide +kernel

set_option maxRecDepth 40000 in
theorem witness_AcceleratorsAndLayoutsAct : met_AcceleratorsAndLayoutsAct.all id = true := by decide +kernel

set_option maxRecDepth 40000 in
theorem witness_LatchesAndDeliveriesAct : met_LatchesAndDeliveriesAct.all id = true := by decide

set_option maxRecDepth 40000 in
theorem witness_FaultsAct : met_FaultsAct.all id = true := by decide

set_option maxRecDepth 40000 in
theorem witness_CheckpointsAct : met_CheckpointsAct.all id = true := by decide +kernel

set_option maxRecDepth 40000 in
theorem witness_FirmwareActs : met_FirmwareActs.all id = true := by decide +kernel

set_option maxRecDepth 40000 in
theorem witness_StageManagerActs : met_StageManagerActs.all id = true := by decide

set_option maxRecDepth 40000 in
theorem witness_CallBoardActs : met_CallBoardActs.all id = true := by decide

set_option maxRecDepth 40000 in
theorem witness_HostEndpointActs : met_HostEndpointActs.all id = true := by decide

set_option maxRecDepth 40000 in
theorem witness_PowerAndPinsAct : met_PowerAndPinsAct.all id = true := by decide

set_option maxRecDepth 40000 in
theorem witness_ObservationActs : met_ObservationActs.all id = true := by decide

set_option maxRecDepth 40000 in
theorem witness_SpdmActs : met_SpdmActs.all id = true := by decide

set_option maxRecDepth 40000 in
theorem witness_ManagementNetworkAnswered : met_ManagementNetworkAnswered.all id = true := by decide

set_option maxRecDepth 40000 in
theorem witness_OnbusynRegisterInstructionsComplete : met_OnbusynRegisterInstructionsComplete.all id = true := by decide

set_option maxRecDepth 40000 in
theorem witness_OnbusynLoadsAndStoresComplete : met_OnbusynLoadsAndStoresComplete.all id = true := by decide

set_option maxRecDepth 40000 in
theorem witness_OnbusynControlInstructionsComplete : met_OnbusynControlInstructionsComplete.all id = true := by decide

set_option maxRecDepth 40000 in
theorem witness_OnbusynCoprocessorsComplete : met_OnbusynCoprocessorsComplete.all id = true := by decide

set_option maxRecDepth 40000 in
theorem witness_RegistersOfACore : met_RegistersOfACore.all id = true := by decide

set_option maxRecDepth 40000 in
theorem witness_LoopEndsAreEvaluated : met_LoopEndsAreEvaluated.all id = true := by decide

set_option maxRecDepth 40000 in
theorem witness_LoopInstructionsFault : met_LoopInstructionsFault.all id = true := by decide

set_option maxRecDepth 40000 in
theorem witness_TrapsSaveAndEnter : met_TrapsSaveAndEnter.all id = true := by decide

set_option maxRecDepth 40000 in
theorem witness_TableauEdgeIsTaken : met_TableauEdgeIsTaken.all id = true := by decide

set_option maxRecDepth 40000 in
theorem witness_ReservedRegistersReadZero : met_ReservedRegistersReadZero.all id = true := by decide

set_option maxRecDepth 40000 in
theorem witness_PartitionsTile : met_PartitionsTile.all id = true := by decide

set_option maxRecDepth 40000 in
theorem witness_CheckedPacketsOnly : met_CheckedPacketsOnly.all id = true := by decide

end Sys2Proof.Tests
end

/-!
PROOFS. Host accesses to BAR0: when one is performed, and what one to a reserved range does (R13).
-/
namespace Sys2Proof.Proofs

open Sys2Proof Sys2Proof.Machine Sys2Proof.Safety

/-! ## Accesses that are performed -/

theorem hostReads_eq_true {fn : Nat} {s : State} :
    hostReads fn s = true ↔ (s.hostUp && s.fnEnabled fn) = true ∧ s.inFlr fn = false := by
  simp only [hostReads, Bool.and_eq_true, Bool.not_eq_true']

theorem hostWrites_eq_true {fn : Nat} {s : State} :
    hostWrites fn s = true ↔ (s.hostUp && s.fnEnabled fn) = true ∧ s.inFlr fn = false ∧ s.vfFrozen fn = false := by
  simp only [hostWrites, Bool.and_eq_true, Bool.not_eq_true', and_assoc]

/-- A write that is performed has its effect on the state that has counted its payload. -/
theorem barWrite_of_hostWrites {fn : Nat} {s : State} (off n : Nat) (f : State → State) (h : hostWrites fn s = true) :
    barWrite fn off n s f = .next (f (s.ao 11 n)) := by
  obtain ⟨hthere, hflr, hfrozen⟩ := hostWrites_eq_true.mp h
  simp [barWrite, hthere, hflr, hfrozen]

theorem barAccess_write {a : Access} {s : State} (f : State → State) (hw : a.wr = true) (h : hostWrites a.fn s = true) :
    barAccess a s f = .next (f (s.ao 11 a.size)) := by
  rw [barAccess, if_pos hw, barWrite_of_hostWrites _ _ _ h]

theorem barAccess_read {a : Access} {s : State} (f : State → State) (hr : a.wr = false) (h : hostReads a.fn s = true) :
    barAccess a s f = .next (f s) := by
  obtain ⟨hthere, hflr⟩ := hostReads_eq_true.mp h
  simp [barAccess, hr, hthere, hflr]

/-! ## REGISTER_WRITE inside BAR0 -/

theorem exec_registerWrite (a : Access) (s : State) : exec (.registerWrite a) s = execRegisterWrite a s := rfl

/-- Inside BAR0, REGISTER_WRITE is an access to what the map names at the offset's 8-byte place. -/
theorem exec_registerWrite_bar0 {a : Access} (s : State) (hbar : a.bar = 0) (hoff : a.off < bar0Len a.fn) :
    exec (.registerWrite a) s = barAccess a s (fun t => t.regAccess a (t.reg a.fn (a.off / 8 * 8))) := by
  simp only [exec_registerWrite, execRegisterWrite, if_pos hbar, if_pos hoff]

theorem exec_registerWrite_read {a : Access} {s : State} (hbar : a.bar = 0) (hoff : a.off < bar0Len a.fn) (hr : a.wr = false)
    (h : hostReads a.fn s = true) :
    exec (.registerWrite a) s = .next (s.regAccess a (s.reg a.fn (a.off / 8 * 8))) := by
  rw [exec_registerWrite_bar0 s hbar hoff, barAccess_read _ hr h]

theorem exec_registerWrite_write {a : Access} {s : State} (hbar : a.bar = 0) (hoff : a.off < bar0Len a.fn) (hw : a.wr = true)
    (h : hostWrites a.fn s = true) :
    exec (.registerWrite a) s = .next ((s.ao 11 a.size).regAccess a ((s.ao 11 a.size).reg a.fn (a.off / 8 * 8))) := by
  rw [exec_registerWrite_bar0 s hbar hoff, barAccess_write _ hw h]

/-! ## Reserved ranges (R13) -/

theorem regAccess_reserved_read {a : Access} (s : State) (ha : a.aligned = true) (hr : a.wr = false) :
    s.regAccess a none = (s.ao 12 a.size).emit .barRead a.fn a.off 0 [] := by
  simp [State.regAccess, ha, hr]

theorem regAccess_reserved_write {a : Access} (s : State) (ha : a.aligned = true) (hw : a.wr = true) :
    s.regAccess a none = s := by
  simp [State.regAccess, ha, hw]

/-- Settles O56: an access that is performed reaches what the map names, and a place that it leaves unnamed answers 0 and takes no
write. -/
theorem reservedRegistersReadZero : Obligations.ReservedRegistersReadZero := by
  intro a s hbar hoff ha hreserved
  constructor
  · intro hreads hr
    rw [exec_registerWrite_read hbar hoff hr hreads, hreserved, regAccess_reserved_read s ha hr]
  · intro hwrites hw hreserved'
    rw [exec_registerWrite_write hbar hoff hw hwrites, hreserved', regAccess_reserved_write _ ha hw]

end Sys2Proof.Proofs

/-!
PROOFS. Loops of the Onbusyn cores: the levels that end at the pc (R423), and the loop instructions that fault (R424).
-/
namespace Sys2Proof.Proofs

open Sys2Proof Sys2Proof.Machine Sys2Proof.Safety Sys2Proof.Laws

/-! ## Reading a level back -/

theorem lt_length_of_lv_active {c : OnbCore} {k : Nat} (h : (c.lv k).active = true) : k < c.loops.length := by
  refine Nat.lt_of_not_le fun hk => ?_
  rw [OnbCore.lv, List.getD_eq_getElem?_getD, List.getElem?_eq_none hk] at h
  exact Bool.false_ne_true h

@[simp] theorem setLv_pc (c : OnbCore) (k : Nat) (l : LoopLv) : (c.setLv k l).pc = c.pc := rfl

theorem lv_setLv_same {c : OnbCore} {k : Nat} (l : LoopLv) (h : k < c.loops.length) : (c.setLv k l).lv k = l := by
  simp only [OnbCore.lv, OnbCore.setLv, List.getD_eq_getElem?_getD, List.getElem?_set_self h, Option.getD_some]

theorem lv_setLv_ne {j k : Nat} (c : OnbCore) (l : LoopLv) (h : j ≠ k) : (c.setLv k l).lv j = c.lv j := by
  simp only [OnbCore.lv, OnbCore.setLv, List.getD_eq_getElem?_getD, List.getElem?_set_ne h.symm]

/-- The core at another address. -/
def goTo (c : OnbCore) (pc : Nat) : OnbCore := { c with pc := pc }

@[simp] theorem goTo_pc (c : OnbCore) (pc : Nat) : (goTo c pc).pc = pc := rfl

@[simp] theorem lv_goTo (c : OnbCore) (pc k : Nat) : (goTo c pc).lv k = c.lv k := rfl

/-! ## Levels that end at the pc (R423) -/

/-- Whether level `k` is active and ends at the pc. -/
def endsHere (c : OnbCore) (k : Nat) : Bool := (c.lv k).active && (c.lv k).lpe == c.pc

theorem endsHere_eq_true {c : OnbCore} {k : Nat} : endsHere c k = true ↔ (c.lv k).active = true ∧ (c.lv k).lpe = c.pc := by
  simp only [endsHere, Bool.and_eq_true, beq_iff_eq]

/-- What a level becomes when its last pass is over. -/
def closed (l : LoopLv) : LoopLv := { l with lpc := 0, active := false }

/-- Closes a level if it ends at the pc. -/
def closeLevel (c : OnbCore) (k : Nat) : OnbCore := if endsHere c k then c.setLv k (closed (c.lv k)) else c

@[simp] theorem closeLevel_pc (c : OnbCore) (k : Nat) : (closeLevel c k).pc = c.pc := by
  unfold closeLevel
  split
  · exact setLv_pc c k _
  · rfl

theorem lv_closeLevel (c : OnbCore) (k j : Nat) :
    (closeLevel c k).lv j = if j = k ∧ endsHere c j = true then closed (c.lv j) else c.lv j := by
  unfold closeLevel
  by_cases hk : endsHere c k = true
  · rw [if_pos hk]
    by_cases hjk : j = k
    · subst hjk
      rw [lv_setLv_same _ (lt_length_of_lv_active (endsHere_eq_true.mp hk).1), if_pos ⟨rfl, hk⟩]
    · rw [lv_setLv_ne _ _ hjk, if_neg (fun h => hjk h.1)]
  · rw [if_neg hk, if_neg (by rintro ⟨rfl, h⟩; exact hk h)]

theorem endsHere_closeLevel (c : OnbCore) (k j : Nat) : endsHere (closeLevel c k) j = (endsHere c j && j != k) := by
  by_cases hj : j = k ∧ endsHere c j = true
  · rw [endsHere, lv_closeLevel, if_pos hj]
    rw [hj.1, closed, bne_self_eq_false, Bool.false_and, Bool.and_false]
  · rw [endsHere, lv_closeLevel, if_neg hj, closeLevel_pc, ← endsHere]
    cases hends : endsHere c j with
    | false => rfl
    | true =>
      have hjk : j ≠ k := fun e => hj ⟨e, hends⟩
      simp only [bne_iff_ne.mpr hjk, Bool.and_self]

/-- Closes, one after another, those of the levels that end at the pc. -/
def closeLevels (ks : List Nat) (c : OnbCore) : OnbCore := ks.foldl closeLevel c

@[simp] theorem closeLevels_pc (ks : List Nat) (c : OnbCore) : (closeLevels ks c).pc = c.pc := by
  induction ks generalizing c with
  | nil => rfl
  | cons k t ih => exact (ih (closeLevel c k)).trans (closeLevel_pc c k)

theorem lv_closeLevels (ks : List Nat) (c : OnbCore) (j : Nat) :
    (closeLevels ks c).lv j = if j ∈ ks ∧ endsHere c j = true then closed (c.lv j) else c.lv j := by
  induction ks generalizing c with
  | nil => simp [closeLevels]
  | cons k t ih =>
    have hstep : (closeLevels (k :: t) c).lv j = (closeLevels t (closeLevel c k)).lv j := rfl
    rw [hstep, ih, endsHere_closeLevel, lv_closeLevel]
    by_cases hjk : j = k <;> simp [hjk]

/-! ## The evaluation from the innermost level outwards (R423) -/

/-- Each of the levels that ends at the pc is on its last pass. -/
def OnLastPass (ks : List Nat) (c : OnbCore) : Prop := ∀ j ∈ ks, endsHere c j = true → ¬ 1 < (c.lv j).lpc

theorem onLastPass_closeLevel {ks : List Nat} {c : OnbCore} (h : OnLastPass ks c) (k : Nat) : OnLastPass ks (closeLevel c k) := by
  intro j hj hends
  obtain ⟨hendsj, hjk⟩ : endsHere c j = true ∧ j ≠ k := by simpa [endsHere_closeLevel] using hends
  rw [lv_closeLevel, if_neg (fun h => hjk h.1)]
  exact h j hj hendsj

/-- A level that does not go back is closed where it ends, and the evaluation passes to the next one outwards. -/
theorem loopBack_closes {c : OnbCore} {k : Nat} (outer : List Nat) (h : endsHere c k = true → ¬ 1 < (c.lv k).lpc) :
    loopBack (k :: outer) c = loopBack outer (closeLevel c k) := by
  by_cases hk : endsHere c k = true
  · rw [closeLevel, if_pos hk]
    exact (if_pos hk).trans (if_neg (h hk))
  · rw [closeLevel, if_neg hk]
    exact if_neg hk

/-- A level with passes left takes the core back to its start, and no level after it is evaluated. -/
theorem loopBack_repeats {c : OnbCore} {k : Nat} (outer : List Nat) (hk : endsHere c k = true) (hmore : 1 < (c.lv k).lpc) :
    loopBack (k :: outer) c = goTo (c.setLv k { c.lv k with lpc := (c.lv k).lpc - 1 }) (c.lv k).lps :=
  (if_pos hk).trans (if_pos hmore)

theorem loopBack_append {inner : List Nat} {c : OnbCore} (outer : List Nat) (h : OnLastPass inner c) :
    loopBack (inner ++ outer) c = loopBack outer (closeLevels inner c) := by
  induction inner generalizing c with
  | nil => rfl
  | cons k t ih =>
    have htail : OnLastPass t c := fun j hj => h j (List.mem_cons_of_mem k hj)
    rw [List.cons_append, loopBack_closes _ (h k List.mem_cons_self), ih (onLastPass_closeLevel htail k)]
    rfl

/-- The levels inside level `k`, from the innermost outwards. -/
def innerLevels (k : Nat) : List Nat := (List.range' (k + 1) (3 - k)).reverse

theorem mem_innerLevels {j k : Nat} (hk : k < 4) : j ∈ innerLevels k ↔ k < j ∧ j < 4 := by
  simp only [innerLevels, List.mem_reverse, List.mem_range'_1]
  omega

theorem levels_split : ∀ k < 4, [3, 2, 1, 0] = innerLevels k ++ k :: (List.range k).reverse := by decide

theorem mem_levels {j : Nat} : j ∈ [3, 2, 1, 0] ↔ j < 4 := by
  simp only [List.mem_cons, List.not_mem_nil, or_false]
  omega

theorem advance_repeats {c : OnbCore} {k : Nat} (hk : k < 4) (hends : endsHere c k = true) (hmore : 1 < (c.lv k).lpc)
    (hinner : OnLastPass (innerLevels k) c) :
    c.advance = goTo ((closeLevels (innerLevels k) c).setLv k { c.lv k with lpc := (c.lv k).lpc - 1 }) (c.lv k).lps := by
  have hout : k ∉ innerLevels k := by simp [mem_innerLevels hk]
  have hkeeps : (closeLevels (innerLevels k) c).lv k = c.lv k := by rw [lv_closeLevels, if_neg (fun h => hout h.1)]
  have hstill : endsHere (closeLevels (innerLevels k) c) k = true := by
    rw [endsHere, hkeeps, closeLevels_pc]
    exact hends
  rw [OnbCore.advance, levels_split k hk, loopBack_append _ hinner, loopBack_repeats _ hstill (hkeeps ▸ hmore), hkeeps]

/-- With no level that goes back, the core goes on past the ends of all levels that end here. -/
theorem advance_falls_through {c : OnbCore} (h : OnLastPass [3, 2, 1, 0] c) :
    c.advance = goTo (closeLevels [3, 2, 1, 0] c) (c.pc + 4) := by
  have hback := loopBack_append [] h
  rw [List.append_nil, loopBack, closeLevels_pc] at hback
  exact hback

/-- The level that goes back has one pass less. -/
theorem lv_advance_repeats_same {c : OnbCore} {k : Nat} (hk : k < 4) (hends : endsHere c k = true) (hmore : 1 < (c.lv k).lpc)
    (hinner : OnLastPass (innerLevels k) c) : c.advance.lv k = { c.lv k with lpc := (c.lv k).lpc - 1 } := by
  have hactive : ((closeLevels (innerLevels k) c).lv k).active = true := by
    rw [lv_closeLevels, if_neg (by simp [mem_innerLevels hk])]
    exact (endsHere_eq_true.mp hends).1
  rw [advance_repeats hk hends hmore hinner, lv_goTo, lv_setLv_same _ (lt_length_of_lv_active hactive)]

/-- Of the other levels those inside it that end here are closed, and the rest stay. -/
theorem lv_advance_repeats_ne {c : OnbCore} {k j : Nat} (hk : k < 4) (hends : endsHere c k = true) (hmore : 1 < (c.lv k).lpc)
    (hinner : OnLastPass (innerLevels k) c) (hjk : j ≠ k) :
    c.advance.lv j = if j ∈ innerLevels k ∧ endsHere c j = true then closed (c.lv j) else c.lv j := by
  rw [advance_repeats hk hends hmore hinner, lv_goTo, lv_setLv_ne _ _ hjk, lv_closeLevels]

/-- A taken branch or jump to a target in a level's body keeps the level as it is (R425). -/
theorem lv_jump_of_inside {c : OnbCore} {target : BitVec 64} {k : Nat} (hlo : (c.lv k).lps ≤ target.toNat)
    (hhi : target.toNat ≤ (c.lv k).lpe) : (c.jump target).lv k = c.lv k := by
  simp only [OnbCore.lv, OnbCore.jump, List.getD_eq_getElem?_getD, List.getElem?_map] at hlo hhi ⊢
  cases hl : c.loops[k]? with
  | none => rfl
  | some l =>
    rw [hl, Option.getD_some] at hlo hhi
    have hin : (decide (l.lps ≤ target.toNat) && decide (target.toNat ≤ l.lpe)) = true := by
      rw [decide_eq_true hlo, decide_eq_true hhi, Bool.and_self]
    simp only [Option.map_some, Option.getD_some, hin, Bool.not_true, Bool.and_false, Bool.false_eq_true, if_false]

/-- Settles O51: the levels inside the first one with passes left are closed and that one takes the core back; without such a level the
core goes on. -/
theorem loopEndsAreEvaluated : Obligations.LoopEndsAreEvaluated := by
  intro c _
  refine ⟨?_, ?_, fun target => ⟨rfl, fun k _ => lv_jump_of_inside⟩⟩
  · intro k hk hactive hlpe hmore hones
    have hends : endsHere c k = true := endsHere_eq_true.mpr ⟨hactive, hlpe⟩
    have hinner : OnLastPass (innerLevels k) c := by
      intro j hj hendsj
      obtain ⟨hkj, hj4⟩ := (mem_innerLevels hk).mp hj
      obtain ⟨hactivej, hlpej⟩ := endsHere_eq_true.mp hendsj
      simp [hones j hkj hj4 hactivej hlpej]
    refine ⟨by rw [advance_repeats hk hends hmore hinner, goTo_pc], lv_advance_repeats_same hk hends hmore hinner, ?_, ?_⟩
    · intro j hkj hj4 hactivej hlpej
      have hcloses : j ∈ innerLevels k ∧ endsHere c j = true :=
        ⟨(mem_innerLevels hk).mpr ⟨hkj, hj4⟩, endsHere_eq_true.mpr ⟨hactivej, hlpej⟩⟩
      rw [lv_advance_repeats_ne hk hends hmore hinner (Nat.ne_of_gt hkj), if_pos hcloses, closed]
    · intro j _ hjk hstays
      have hopen : ¬ (j ∈ innerLevels k ∧ endsHere c j = true) := by
        rw [mem_innerLevels hk, endsHere_eq_true]
        rintro ⟨⟨hkj, -⟩, hactivej, hlpej⟩
        rcases hstays with houter | hoff | helsewhere
        · omega
        · simp [hactivej] at hoff
        · exact helsewhere hlpej
      rw [lv_advance_repeats_ne hk hends hmore hinner hjk, if_neg hopen]
  · intro hones
    have hlast : OnLastPass [3, 2, 1, 0] c := by
      intro j hj hendsj
      obtain ⟨hactivej, hlpej⟩ := endsHere_eq_true.mp hendsj
      simp [hones j (mem_levels.mp hj) hactivej hlpej]
    rw [advance_falls_through hlast]
    refine ⟨goTo_pc _ _, fun j hj => ?_⟩
    simp only [lv_goTo, lv_closeLevels, mem_levels, hj, true_and, endsHere_eq_true, closed]

/-! ## Loop instructions that fault (R424) -/

theorem exec_loop (core level rc fin : Nat) (s : State) : exec (.loop core level rc fin) s = execLoop core level rc fin s := rfl

theorem exec_loopi (core level count fin : Nat) (s : State) :
    exec (.loopi core level count fin) s = execLoopi core level count fin s := rfl

theorem loopFaults_eq_true {c : OnbCore} {n level fin : Nat} :
    c.loopFaults n level fin = true ↔ (c.lv level).active = true ∨
      (∃ k, k < level ∧ (c.lv k).active = true ∧ (c.lv k).lpe < c.pc + 4 * fin) ∨ fin = 0 ∨ codeEnd n < c.pc + 4 * fin + 4 := by
  simp [OnbCore.loopFaults, or_assoc]

theorem execLoop_of_loopFaults {core level rc fin : Nat} {s : State} (h : onbAt core s = true) (hint : ((s.core core).reg rc).tag = tInt)
    (hfault : (s.core core).loopFaults core level fin = true) :
    execLoop core level rc fin s = .next (s.onbTrap core (0xA, some ((s.core core).reg rc).val) 0 (s.core core).pc) := by
  refine onbRun_trap h ?_
  simp [needTag_nil hint (by decide) (by decide), hfault, whenC, firstCause]

theorem execLoopi_of_loopFaults {core level count fin : Nat} {s : State} (h : onbAt core s = true)
    (hfault : (s.core core).loopFaults core level fin = true) :
    execLoopi core level count fin s = .next (s.onbTrap core (0xA, some (BitVec.ofNat 64 count)) 0 (s.core core).pc) := by
  refine onbRun_trap h ?_
  simp [hfault, whenC, firstCause]

/-- Settles O52: each of the four cases is a loop fault, which is the only cause, as LOOP's count register holds an INT; tval takes the count
operand (log entry 60). -/
theorem loopInstructionsFault : Obligations.LoopInstructionsFault := by
  rintro core level rc count fin s c h rfl hcases
  have hfault := loopFaults_eq_true.mpr hcases
  rw [exec_loop, exec_loopi]
  exact ⟨fun hint => execLoop_of_loopFaults h hint hfault, execLoopi_of_loopFaults h hfault⟩

end Sys2Proof.Proofs


/-!
PROOFS. TABLEAU_N: an edge of the pin is taken while MOD_PWRGD is high and the Tableau does not hold (R544).
-/
namespace Sys2Proof.Proofs

open Sys2Proof Sys2Proof.Machine Sys2Proof.Laws

/-! ## Steps of the always-on domain -/

theorem onAlways_of_powered {s : State} (f : State → State) (h : s.aon.powered = true) : onAlways s f = .next (f s) := by
  rw [onAlways, if_pos h]

theorem exec_tableauNFall {s : State} (h : s.aon.powered = true) : exec .tableauNFall s = .next (s.enterTableau 3 0) :=
  onAlways_of_powered (fun t => t.enterTableau 3 0) h

/-- What the rise of MOD_PWRGD leaves (R551 step 7). -/
def mainReady (s : State) : State :=
  if s.aon.mainPhase = .init then s.upAon (fun a => { a with mainPhase := .ready }) else s

theorem exec_mainDomainReady {s : State} (h : s.aon.powered = true) : exec .mainDomainReady s = .next (mainReady s) :=
  onAlways_of_powered mainReady h

theorem mainReady_tableau (s : State) : (mainReady s).aon.tableau = s.aon.tableau := by
  unfold mainReady
  split
  · rw [State.upAon_aon]
  · rfl

/-! ## Entry into the Tableau (R515) -/

/-- The always-on domain as the Tableau is entered. -/
theorem enterTableau_aon {s : State} (cause trig : Nat) (hready : s.aon.mainPhase = .ready) (hfree : s.aon.tableau = false) :
    (s.enterTableau cause trig).aon =
      { s.aon with tableau := true, tabStopped := false, curTabCause := cause, curTabTrigger := trig, hostLink := false,
                   tabCount := satu 65535 (s.aon.tabCount + 1), tabCause := cause, tabTrigger := trig } := by
  have henters : ¬ (s.aon.tableau || !(s.aon.mainPhase == .ready)) = true := by simp [hready, hfree]
  rw [State.enterTableau, if_neg henters, State.upNet_aon, State.upAon_aon]

theorem enterTableau_of_not_ready {s : State} (cause trig : Nat) (h : s.aon.mainPhase ≠ .ready) : s.enterTableau cause trig = s := by
  simp [State.enterTableau, h]

theorem enterTableau_of_tableau {s : State} (cause trig : Nat) (h : s.aon.tableau = true) : s.enterTableau cause trig = s := by
  simp [State.enterTableau, h]

/-- Settles O55: the edge is an entry into the Tableau, and an entry changes nothing before the main domain is ready or while the Tableau
holds; the rise of MOD_PWRGD changes at most the main domain's phase. -/
theorem tableauEdgeIsTaken : Obligations.TableauEdgeIsTaken := by
  intro s hpowered
  rw [exec_tableauNFall hpowered, exec_mainDomainReady hpowered]
  refine ⟨?taken, ?notReady, ?held, ?rise⟩
  case taken =>
    intro hready hfree
    have hentered := enterTableau_aon 3 0 hready hfree
    exact ⟨_, rfl, by rw [hentered], by rw [hentered]⟩
  case notReady => exact fun hphase => congrArg _ (enterTableau_of_not_ready 3 0 hphase)
  case held => exact fun hholds => congrArg _ (enterTableau_of_tableau 3 0 hholds)
  case rise => exact ⟨_, rfl, mainReady_tableau s⟩

end Sys2Proof.Proofs

section

/-! The proofs below are elaborated one after the other, which keeps the number of threads, and with it the memory, small. -/

set_option Elab.async false


/-!
PROOFS. What every step does: it answers a next state, takes one command, and keeps what has been sent and the form of memory.
-/
namespace Sys2Proof.Proofs

open Sys2Proof Sys2Proof.Machine Sys2Proof.Safety Sys2Proof.Laws

theorem step_of_empty {s : State} (h : s.pending = []) : step s = .next s := by
  rw [step, h]

theorem step_of_front {c : Instr} {rest : List Instr} {s : State} (h : s.pending = c :: rest) :
    step s = exec c { s with pending := rest } := by
  rw [step, h]

/-- Settles O1: it is what a step of a queue with a front is. -/
theorem stepRunsFront : Obligations.StepRunsFront := fun _ _ _ h => step_of_front h

/-- Settles O42: an empty queue leaves the state as it is, and every command completes (log entries 6, 11). -/
theorem everyStepCompletes : Obligations.EveryStepCompletes := by
  intro s
  cases h : s.pending with
  | nil => exact ⟨s, step_of_empty h⟩
  | cons c rest => exact step_of_front h ▸ exec_completes c _

/-! ## What every command keeps -/

/-- What every elementary change of a part keeps, whatever it makes of that part, is closed under it. -/
theorem closed_of_frame {P : State → Prop} {k : Nat} (hP : ∀ s t, onlyChanges (effect k) s t → P s → P t) : Closed P k := by
  have change : ∀ {t : State} (s : State), (onlyChanges (effect k) s s → onlyChanges (effect k) s t) → P s → P t :=
    fun s h hs => hP s _ (h (onlyChanges_refl _ s)) hs
  match k with
  | 0 => exact fun s x => change s (only_upOut (by decide))
  | 1 => exact fun s x => change s (only_upFree (by decide))
  | 2 => exact ⟨fun s _ _ => change s (only_upGddr (by decide)), fun s _ _ => change s (only_upGddr (by decide))⟩
  | 3 => exact fun s _ => change s (only_upGlb (by decide))
  | 4 => exact fun s _ => change s (only_upAon (by decide))
  | 5 => exact fun s _ => change s (only_upCue (by decide))
  | 6 => exact fun s _ => change s (only_upCmd (by decide))
  | 7 => exact fun s _ => change s (only_upSto (by decide))
  | 8 => exact fun s _ => change s (only_upNet (by decide))
  | 9 => exact fun s _ => change s (only_upHed (by decide))
  | 10 => exact fun s _ => change s (only_upCtx (by decide))
  | 11 => exact fun s _ => change s (only_upCip (by decide))
  | 12 => exact fun s _ => change s (only_upShu (by decide))
  | 13 => exact fun s _ => change s (only_upTap (by decide))
  | 14 => exact fun s _ => change s (only_upTapc (by decide))
  | 15 => exact fun s _ => change s (only_upLoom (by decide))
  | 16 => exact fun s _ => change s (only_upFeed (by decide))
  | 17 => exact fun s _ => change s (only_upLat (by decide))
  | 18 => exact fun s _ => change s (only_upRas (by decide))
  | 19 => exact fun s _ => change s (only_upCkp (by decide))
  | 20 => exact fun s _ => change s (only_upStg (by decide))
  | 21 => exact fun s _ => change s (only_upOnb (by decide))
  | 22 => exact fun s _ => change s (only_upCall (by decide))
  | 23 => exact fun s _ => change s (only_upHost (by decide))
  | 24 => exact fun s _ => change s (only_upFlash (by decide))
  | 25 => exact fun s _ => change s (only_upSm (by decide))
  | 26 => exact fun s _ => change s (only_upObs (by decide))
  | 27 => exact fun s _ => change s (only_upPwr (by decide))
  | 28 => exact fun s => change s (only_mainFresh (by decide))
  | 29 => exact fun s _ => change s (only_allFresh (by decide))
  | _ + 30 => trivial

/-- Settles O43: no command changes the queue, which its step has shortened; an empty queue idles (log entry 11). -/
theorem aStepTakesOneCommand : Obligations.AStepTakesOneCommand := by
  intro s
  refine ⟨step_of_empty, fun c rest t hfront hstep => ?_⟩
  rw [step_of_front hfront] at hstep
  have hkeeps : Keeps (onlyChanges everyPart { s with pending := rest }) 0x3FFFFFFF := keeps_only (by decide) (by decide)
  exact ((keeps_exec hkeeps (onlyChanges_refl _ _) c).get t hstep).1

/-- What has been sent and how far the free values are used, against an earlier state. -/
def OutputsSince (s t : State) : Prop := (∃ l, t.out = s.out ++ l) ∧ s.free ≤ t.free

theorem outputsSince_of_same {s t u : State} (hout : u.out = t.out) (hfree : u.free = t.free) (h : OutputsSince s t) : OutputsSince s u := by
  rw [OutputsSince, hout, hfree]
  exact h

theorem lt_of_mem_effect {p : Piece} {k : Nat} (h : p ∈ effect k) : k < 30 := by
  refine Nat.lt_of_not_le fun hk => ?_
  obtain ⟨j, rfl⟩ := Nat.exists_eq_add_of_le' hk
  exact List.not_mem_nil h

/-- Outputs and free values change by their own elementary changes alone. -/
theorem outputs_mem_effect {k : Nat} (h : Piece.out ∈ effect k ∨ Piece.free ∈ effect k) : k = 0 ∨ k = 1 :=
  (by decide : ∀ j < 30, (Piece.out ∈ effect j ∨ Piece.free ∈ effect j) → j = 0 ∨ j = 1) k (h.elim lt_of_mem_effect lt_of_mem_effect) h

/-- Memory changes by a write, by a clearing and by the two resets. -/
theorem gddr_mem_effect {k : Nat} (h : Piece.gddr ∈ effect k) : k = 2 ∨ k = 28 ∨ k = 29 :=
  (by decide : ∀ j < 30, Piece.gddr ∈ effect j → j = 2 ∨ j = 28 ∨ j = 29) k (lt_of_mem_effect h) h

theorem keeps_outputsSince (s : State) (m : Nat) : Keeps (OutputsSince s) m := by
  intro k _
  by_cases hk : Piece.out ∈ effect k ∨ Piece.free ∈ effect k
  · obtain rfl | rfl := outputs_mem_effect hk
    · exact fun _ x ⟨⟨l, hl⟩, hfree⟩ => ⟨⟨l ++ [x], by simp [hl]⟩, hfree⟩
    · exact fun _ n ⟨hout, hfree⟩ => ⟨hout, Nat.le_add_right_of_le hfree⟩
  · obtain ⟨hout, hfree⟩ := not_or.mp hk
    exact closed_of_frame fun t u hchange => outputsSince_of_same (hchange.2 .out hout) (hchange.2 .free hfree)

/-- Settles O44: outputs are only added and free values only used, which every command keeps. -/
theorem outputsStand : Obligations.OutputsStand := fun s t h =>
  (keeps_step (keeps_outputsSince s _) (fun _ hs => hs) ⟨⟨[], by simp⟩, Nat.le_refl _⟩).get t h

/-- The canonical form of memory as a property of states. -/
def Canonical (s : State) : Prop := Memory.wf s.gddr = true

theorem keeps_canonical (m : Nat) : Keeps Canonical m := by
  intro k _
  by_cases hk : Piece.gddr ∈ effect k
  · obtain rfl | rfl | rfl := gddr_mem_effect hk
    · exact ⟨fun _ _ _ => wf_memPut, fun _ _ _ => wf_memClear⟩
    · exact fun _ _ => rfl
    · exact fun _ _ _ => rfl
  · exact closed_of_frame fun t u hchange (h : Memory.wf t.gddr = true) => (congrArg Memory.wf (hchange.2 .gddr hk)).trans h

/-- Settles O45: a write and a clearing keep the canonical form, and a reset leaves memory empty. -/
theorem memoryStaysCanonical : Obligations.MemoryStaysCanonical := fun _ t hwf h =>
  (keeps_step (keeps_canonical _) (fun _ hs => hs) hwf).get t h

end Sys2Proof.Proofs


/-!
PROOFS. The order in which a warp serves its samples is a bijection (R281): a network of rounds is injective, and walking its cycles back
into [0, N) keeps it so.
-/
namespace Sys2Proof.Proofs

open Sys2Proof Sys2Proof.Machine

/-! ## The network of eight rounds -/

theorem eq_of_xor_eq {a b c : Nat} (h : a ^^^ c = b ^^^ c) : a = b := by
  have hback : a ^^^ c ^^^ c = b ^^^ c ^^^ c := congrArg (· ^^^ c) h
  simpa only [Nat.xor_assoc, Nat.xor_self, Nat.xor_zero] using hback

/-- The half that a round writes stays below 2^h. -/
theorem xor_mod_lt {l h : Nat} (z : Nat) (hl : l < 2 ^ h) : l ^^^ (z % 2 ^ h) < 2 ^ h :=
  Nat.xor_lt_two_pow hl (Nat.mod_lt _ (Nat.two_pow_pos h))

theorem feistelRounds_lt {h : Nat} (rk : List Nat) {l r : Nat} (hl : l < 2 ^ h) (hr : r < 2 ^ h) :
    feistelRounds h rk l r < 2 ^ h * 2 ^ h := by
  induction rk generalizing l r with
  | nil =>
    calc l * 2 ^ h + r < l * 2 ^ h + 2 ^ h := Nat.add_lt_add_left hr _
      _ = (l + 1) * 2 ^ h := (Nat.succ_mul l _).symm
      _ ≤ 2 ^ h * 2 ^ h := Nat.mul_le_mul_right _ hl
  | cons k t ih => exact ih hr (xor_mod_lt _ hl)

/-- Halves below 2^h are read back from the number that they form. -/
theorem halves_inj {h l r l' r' : Nat} (hr : r < 2 ^ h) (hr' : r' < 2 ^ h) (e : l * 2 ^ h + r = l' * 2 ^ h + r') : l = l' ∧ r = r' := by
  have hdiv : ∀ {x y : Nat}, y < 2 ^ h → (x * 2 ^ h + y) / 2 ^ h = x := fun {x y} hy => by
    rw [Nat.mul_comm, Nat.mul_add_div (Nat.two_pow_pos h), Nat.div_eq_of_lt hy, Nat.add_zero]
  have hl : l = l' := by rw [← hdiv (x := l) hr, e, hdiv hr']
  subst hl
  exact ⟨rfl, Nat.add_left_cancel e⟩

theorem feistelRounds_inj {h : Nat} (rk : List Nat) {l r l' r' : Nat} (hl : l < 2 ^ h) (hr : r < 2 ^ h) (hl' : l' < 2 ^ h) (hr' : r' < 2 ^ h)
    (e : feistelRounds h rk l r = feistelRounds h rk l' r') : l = l' ∧ r = r' := by
  induction rk generalizing l r l' r' with
  | nil => exact halves_inj hr hr' e
  | cons k t ih =>
    obtain ⟨rfl, hx⟩ := ih hr (xor_mod_lt _ hl) hr' (xor_mod_lt _ hl') e
    exact ⟨eq_of_xor_eq hx, rfl⟩

theorem feistel_lt {h : Nat} (rk : List Nat) {x : Nat} (hx : x < 2 ^ (2 * h)) : feistel (2 * h) rk x < 2 ^ (2 * h) := by
  rw [Nat.two_mul, Nat.pow_add] at hx ⊢
  rw [← Nat.two_mul, feistel, Nat.mul_div_cancel_left h Nat.two_pos]
  exact feistelRounds_lt rk (Nat.div_lt_of_lt_mul hx) (Nat.mod_lt _ (Nat.two_pow_pos h))

theorem feistel_inj {h : Nat} (rk : List Nat) {x y : Nat} (hx : x < 2 ^ (2 * h)) (hy : y < 2 ^ (2 * h))
    (e : feistel (2 * h) rk x = feistel (2 * h) rk y) : x = y := by
  rw [Nat.two_mul, Nat.pow_add] at hx hy
  rw [feistel, feistel, Nat.mul_div_cancel_left h Nat.two_pos] at e
  obtain ⟨hdiv, hmod⟩ := feistelRounds_inj rk (Nat.div_lt_of_lt_mul hx) (Nat.mod_lt _ (Nat.two_pow_pos h)) (Nat.div_lt_of_lt_mul hy)
    (Nat.mod_lt _ (Nat.two_pow_pos h)) e
  rw [← Nat.div_add_mod x (2 ^ h), hdiv, hmod, Nat.div_add_mod]

/-! ## The network covers N -/

/-- The network has an even number of bits and reaches every sample. -/
theorem permBits_spec (n : Nat) : ∃ h, permBits n = 2 * h ∧ n ≤ 2 ^ permBits n := by
  have hcover : n ≤ 2 ^ (if n ≤ 1 then 0 else Nat.log2 (n - 1) + 1) := by
    split
    · simpa
    · exact Nat.le_of_pred_lt Nat.lt_log2_self
  unfold permBits
  generalize (if n ≤ 1 then 0 else Nat.log2 (n - 1) + 1) = c at hcover
  dsimp only
  split
  · exact ⟨(max 2 c + 1) / 2, by omega, Nat.le_trans hcover (Nat.pow_le_pow_right Nat.two_pos (by omega))⟩
  · exact ⟨max 2 c / 2, by omega, Nat.le_trans hcover (Nat.pow_le_pow_right Nat.two_pos (by omega))⟩

/-! ## Walking cycles -/

/-- The network applied `k` times. -/
def walked (b : Nat) (rk : List Nat) : Nat → Nat → Nat
  | 0, y => y
  | k + 1, y => walked b rk k (feistel b rk y)

theorem walked_add (b : Nat) (rk : List Nat) (i k y : Nat) : walked b rk (i + k) y = walked b rk i (walked b rk k y) := by
  induction k generalizing y with
  | zero => rfl
  | succ k ih => exact ih _

section walk

variable {n b : Nat} {rk : List Nat}

/-- A walk that meets a value below N within its fuel ends at the first one. -/
theorem cycleWalk_spec (fuel : Nat) {y : Nat} (h : ∃ k, k ≤ fuel ∧ walked b rk k y < n) :
    ∃ k, cycleWalk n b rk fuel y = walked b rk k y ∧ walked b rk k y < n ∧ ∀ j < k, ¬ walked b rk j y < n := by
  induction fuel generalizing y with
  | zero =>
    obtain ⟨k, hk, hlt⟩ := h
    obtain rfl := Nat.le_zero.mp hk
    exact ⟨0, rfl, hlt, fun j hj => absurd hj (Nat.not_lt_zero j)⟩
  | succ fuel ih =>
    by_cases hy : y < n
    · exact ⟨0, if_pos hy, hy, fun j hj => absurd hj (Nat.not_lt_zero j)⟩
    · obtain ⟨k, hk, hlt⟩ := h
      cases k with
      | zero => exact absurd hlt hy
      | succ k =>
        obtain ⟨i, hwalk, hend, hfirst⟩ := ih (y := feistel b rk y) ⟨k, Nat.le_of_succ_le_succ hk, hlt⟩
        refine ⟨i + 1, (if_neg hy).trans hwalk, hend, fun j hj => ?_⟩
        cases j with
        | zero => exact hy
        | succ j => exact hfirst j (Nat.lt_of_succ_lt_succ hj)

end walk

/-- Of n + 1 values below n, two agree. -/
theorem exists_eq_of_lt {n : Nat} {f : Nat → Nat} (hf : ∀ i ≤ n, f i < n) : ∃ i j, i < j ∧ j ≤ n ∧ f i = f j := by
  induction n generalizing f with
  | zero => exact absurd (hf 0 (Nat.le_refl 0)) (Nat.not_lt_zero _)
  | succ n ih =>
    by_cases hlast : ∃ i, i ≤ n ∧ f i = f (n + 1)
    · obtain ⟨i, hi, he⟩ := hlast
      exact ⟨i, n + 1, by omega, Nat.le_refl _, he⟩
    · have hne : ∀ i ≤ n, f i ≠ f (n + 1) := fun i hi he => hlast ⟨i, hi, he⟩
      have htop := hf (n + 1) (Nat.le_refl _)
      -- the value n is moved to the last one's place, which no other takes
      obtain ⟨i, j, hij, hj, he⟩ := ih (f := fun i => if f i = n then f (n + 1) else f i) (fun i hi => by
        have hi' := hf i (Nat.le_succ_of_le hi)
        have hi'' := hne i hi
        split <;> omega)
      have hi := hne i (by omega)
      have hj' := hne j hj
      refine ⟨i, j, hij, Nat.le_succ_of_le hj, ?_⟩
      split at he <;> split at he <;> omega

section sigma

variable {h : Nat} (rk : List Nat)

theorem walked_lt (k : Nat) {x : Nat} (hx : x < 2 ^ (2 * h)) : walked (2 * h) rk k x < 2 ^ (2 * h) := by
  induction k generalizing x with
  | zero => exact hx
  | succ k ih => exact ih (feistel_lt rk hx)

theorem walked_inj (k : Nat) {x y : Nat} (hx : x < 2 ^ (2 * h)) (hy : y < 2 ^ (2 * h))
    (e : walked (2 * h) rk k x = walked (2 * h) rk k y) : x = y := by
  induction k generalizing x y with
  | zero => exact e
  | succ k ih => exact feistel_inj rk hx hy (ih (feistel_lt rk hx) (feistel_lt rk hy) e)

/-- Every value comes back to itself within 2^b applications: of 2^b + 1 of them two agree. -/
theorem feistel_returns {x : Nat} (hx : x < 2 ^ (2 * h)) : ∃ k, k < 2 ^ (2 * h) ∧ walked (2 * h) rk (k + 1) x = x := by
  obtain ⟨i, j, hij, hj, e⟩ := exists_eq_of_lt (f := fun k => walked (2 * h) rk k x) (fun k _ => walked_lt rk k hx)
  refine ⟨j - i - 1, by omega, ?_⟩
  have hsum : j = i + (j - i - 1 + 1) := by omega
  rw [hsum, walked_add] at e
  exact (walked_inj rk i hx (walked_lt rk _ hx) e).symm

end sigma

/-- σ(p) is the first value below N that the network's cycle reaches from p. -/
theorem sigma_first (key epoch warp : Nat) {n p : Nat} (hp : p < n) :
    ∃ h, n ≤ 2 ^ (2 * h) ∧ ∃ k, sigma key epoch warp n p = walked (permBits n) (roundKeys key epoch warp) (k + 1) p ∧
      permBits n = 2 * h ∧ sigma key epoch warp n p < n ∧ ∀ j < k, ¬ walked (permBits n) (roundKeys key epoch warp) (j + 1) p < n := by
  obtain ⟨h, hbits, hcover⟩ := permBits_spec n
  rw [hbits] at hcover
  obtain ⟨k, hk, hreturn⟩ := feistel_returns (roundKeys key epoch warp) (Nat.lt_of_lt_of_le hp hcover)
  have hmeets : ∃ k, k ≤ 2 ^ permBits n ∧
      walked (permBits n) (roundKeys key epoch warp) k (feistel (permBits n) (roundKeys key epoch warp) p) < n := by
    rw [hbits]
    exact ⟨k, Nat.le_of_lt hk, Nat.lt_of_le_of_lt (Nat.le_of_eq hreturn) hp⟩
  obtain ⟨i, hwalk, hlt, hfirst⟩ := cycleWalk_spec _ hmeets
  exact ⟨h, hcover, i, hwalk, hbits, Nat.lt_of_le_of_lt (Nat.le_of_eq hwalk) hlt, hfirst⟩

theorem sigma_lt (key epoch warp : Nat) {n p : Nat} (hp : p < n) : sigma key epoch warp n p < n := by
  obtain ⟨_, _, _, _, _, hlt, _⟩ := sigma_first key epoch warp hp
  exact hlt

/-- Two positions whose walks end at one sample are one: otherwise the shorter walk's start would lie inside the longer walk. -/
theorem sigma_inj (key epoch warp : Nat) {n p q : Nat} (hp : p < n) (hq : q < n) (e : sigma key epoch warp n p = sigma key epoch warp n q) :
    p = q := by
  obtain ⟨h, hcover, i, hi, hbits, -, hfirsti⟩ := sigma_first key epoch warp hp
  obtain ⟨_, _, j, hj, -, -, hfirstj⟩ := sigma_first key epoch warp hq
  rw [hi, hj] at e
  rw [hbits] at e hfirsti hfirstj
  have hnot : ∀ {i j p q : Nat}, p < n → q < n → i < j → (∀ k < j, ¬ walked (2 * h) (roundKeys key epoch warp) (k + 1) q < n) →
      walked (2 * h) (roundKeys key epoch warp) (i + 1) p ≠ walked (2 * h) (roundKeys key epoch warp) (j + 1) q := by
    intro i j p q hp hq hij hfirst e
    have hsum : j + 1 = i + 1 + (j - i - 1 + 1) := by omega
    rw [hsum, walked_add _ _ (i + 1)] at e
    have hinside := walked_inj _ _ (Nat.lt_of_lt_of_le hp hcover) (walked_lt _ _ (Nat.lt_of_lt_of_le hq hcover)) e
    exact hfirst (j - i - 1) (by omega) (hinside ▸ hp)
  rcases Nat.lt_trichotomy i j with hij | rfl | hji
  · exact absurd e (hnot hp hq hij hfirstj)
  · exact walked_inj _ _ (Nat.lt_of_lt_of_le hp hcover) (Nat.lt_of_lt_of_le hq hcover) e
  · exact absurd e.symm (hnot hq hp hji hfirsti)

/-- The values of σ on [0, N), and one value more. -/
def sigmaAnd (key epoch warp n x : Nat) (p : Nat) : Nat := if p < n then sigma key epoch warp n p else x

/-- Settles O54: σ is injective on [0, N), and of its N values and any x below N two agree, so that x is one of them. -/
theorem sampleOrderIsABijection : Obligations.SampleOrderIsABijection := by
  intro key epoch warp n
  refine ⟨fun p => sigma_lt key epoch warp, fun p q => sigma_inj key epoch warp, fun x hx => ?_⟩
  have hlt : ∀ p ≤ n, sigmaAnd key epoch warp n x p < n := by
    intro p _
    unfold sigmaAnd
    split
    next hp => exact sigma_lt key epoch warp hp
    next => exact hx
  obtain ⟨p, q, hpq, hq, e⟩ := exists_eq_of_lt hlt
  have hp : p < n := Nat.lt_of_lt_of_le hpq hq
  unfold sigmaAnd at e
  rw [if_pos hp] at e
  split at e
  next hq' => exact absurd (sigma_inj key epoch warp hp hq' e) (Nat.ne_of_lt hpq)
  next => exact ⟨p, hp, e⟩

end Sys2Proof.Proofs


/-!
PROOFS. What reset leaves, memory as it reads back, the partitions of GDDR7 and the registers of a core.
-/
namespace Sys2Proof.Proofs

open Sys2Proof Sys2Proof.Machine Sys2Proof.Safety Sys2Proof.Laws

/-- Settles O46: each is a field of the state at reset (log entries 1, 2, 4). -/
theorem resetState : Obligations.ResetState := ⟨rfl, rfl, rfl, rfl, rfl, rfl, rfl, rfl, rfl, rfl, rfl, rfl, rfl, rfl, rfl⟩

/-! ## Memory -/

theorem gWrite_gddr (s : State) (a : Nat) (b : Bytes) : (s.gWrite a b).gddr = memPut s.gddr a b := rfl

theorem gClear_gddr (s : State) (a n : Nat) : (s.gClear a n).gddr = memClear s.gddr a n := rfl

theorem mem_one (s : State) (x : Nat) : s.mem x 1 = [memGet s.gddr x] := rfl

/-- Memory that reads 0 throughout a range reads as zeros there. -/
theorem memTake_zeros {m : List Host.Cell} {a n : Nat} (h : ∀ x, a ≤ x → x < a + n → memGet m x = 0) : memTake m a n = zeros n := by
  induction n generalizing a with
  | zero => rfl
  | succ n ih =>
    rw [memTake, h a (Nat.le_refl a) (by omega), ih fun x hlo hhi => h x (by omega) (by omega)]
    rfl

/-- Settles O47, by the laws of memory. -/
theorem memoryReadsBack : Obligations.MemoryReadsBack := by
  intro s a n x b
  simp only [mem_one, gWrite_gddr, gClear_gddr]
  refine ⟨memTake_memPut_same, fun h => ?_, memTake_zeros fun y hlo hhi => memGet_memClear_in ⟨hlo, hhi⟩, fun h => ?_,
    fun hwf => ⟨wf_memPut hwf, wf_memClear hwf⟩⟩
  · rw [memGet_memPut_other h]
  · rw [memGet_memClear_other h]

/-! ## Partitions (Table 1.13) -/

/-- The partitions in the order of Table 1.13. -/
def partns : List Partn := [.ctx, .reserve, .wbuf, .trace, .ckp, .staging, .shuffle]

/-- Each partition begins where the one before it in Table 1.13 ends. -/
theorem partBase_succ (s : State) : ∀ k < 6,
    s.partBase (Partn.ofNum (k + 1)) = s.partBase (Partn.ofNum k) + s.partLen (Partn.ofNum k) := by
  intro k hk
  obtain rfl | rfl | rfl | rfl | rfl | rfl : k = 0 ∨ k = 1 ∨ k = 2 ∨ k = 3 ∨ k = 4 ∨ k = 5 := by omega
  all_goals simp only [Partn.ofNum, State.partBase, State.partLen, mib] <;> omega

theorem ofNum_num (p : Partn) : Partn.ofNum p.num = p := by cases p <;> rfl

theorem num_le (p : Partn) : p.num ≤ 6 := by cases p <;> decide

theorem partBase_mono (s : State) {j k : Nat} (hjk : j ≤ k) (hk : k ≤ 6) : s.partBase (Partn.ofNum j) ≤ s.partBase (Partn.ofNum k) := by
  induction hjk with
  | refl => exact Nat.le_refl _
  | @step k _ ih =>
    rw [partBase_succ s k hk]
    exact Nat.le_add_right_of_le (ih (Nat.le_of_succ_le hk))

/-- A partition ends before one that stands later in Table 1.13 begins. -/
theorem partEnd_le (s : State) {p q : Partn} (h : p.num < q.num) : s.partBase p + s.partLen p ≤ s.partBase q := by
  have hend := partBase_succ s p.num (Nat.lt_of_lt_of_le h (num_le q))
  rw [ofNum_num] at hend
  rw [← hend, ← ofNum_num q]
  exact partBase_mono s h (num_le q)

/-- While the sizes fit the capacity the shuffle buffer ends at it. -/
theorem shuffle_end {s : State} (h : 8704 + s.glb.traceMib + s.glb.ckpMib + s.glb.stagingMib ≤ s.capMib) :
    s.partBase .shuffle + s.partLen .shuffle = mib s.capMib := by
  simp only [State.partBase, State.partLen, shuffleMib, mib]
  omega

/-- An address lies in one of the partitions before the k-th, or the k-th begins at or below it. -/
theorem part_or_base_le (s : State) (a : Nat) {k : Nat} (hk : k ≤ 6) :
    (∃ p, s.partBase p ≤ a ∧ a < s.partBase p + s.partLen p) ∨ s.partBase (Partn.ofNum k) ≤ a := by
  induction k with
  | zero => exact .inr (Nat.zero_le a)
  | succ k ih =>
    rcases ih (Nat.le_of_succ_le hk) with hin | hbase
    · exact .inl hin
    · rw [partBase_succ s k hk]
      rcases Nat.lt_or_ge a (s.partBase (Partn.ofNum k) + s.partLen (Partn.ofNum k)) with hlt | hge
      · exact .inl ⟨_, hbase, hlt⟩
      · exact .inr hge

/-- The last partition ends at the capacity, so that an address below it lies in one of them. -/
theorem exists_part {s : State} {a : Nat} (h : 8704 + s.glb.traceMib + s.glb.ckpMib + s.glb.stagingMib ≤ s.capMib) (ha : a < mib s.capMib) :
    ∃ p, s.partBase p ≤ a ∧ a < s.partBase p + s.partLen p :=
  (part_or_base_le s a (Nat.le_refl 6)).elim id fun hbase => ⟨.shuffle, hbase, Nat.lt_of_lt_of_eq ha (shuffle_end h).symm⟩

/-- Settles O57: of two partitions the one that stands earlier in Table 1.13 ends before the other begins. -/
theorem partitionsTile : Obligations.PartitionsTile := by
  intro s a hfit ha
  constructor
  · obtain ⟨p, hlo, hhi⟩ := exists_part hfit ha
    have hsome : (s.partOf a).isSome := List.find?_isSome.mpr ⟨p, by cases p <;> simp, by simp [hlo, hhi]⟩
    obtain ⟨q, hq⟩ := Option.isSome_iff_exists.mp hsome
    have hin := List.find?_some hq
    simp only [Bool.and_eq_true, decide_eq_true_eq] at hin
    exact ⟨q, hq, hin.1, hin.2⟩
  · intro p q hplo hphi hqlo hqhi
    rcases Nat.lt_trichotomy p.num q.num with hpq | heq | hqp
    · have := partEnd_le s hpq
      omega
    · rw [← ofNum_num p, heq, ofNum_num]
    · have := partEnd_le s hqp
      omega

/-! ## The registers of a core (R413) -/

@[simp] theorem core_upCore_same (s : State) (n : Nat) (f : OnbCore → OnbCore) : (s.upCore n f).core n = f (s.core n) := by
  simp only [State.core, State.upCore, State.upOnb_onb, amod, agetD, aget_aset_same, Option.getD_some]

theorem core_upCore_other {s : State} {m n : Nat} {f : OnbCore → OnbCore} (h : m ≠ n) : (s.upCore n f).core m = s.core m := by
  simp only [State.core, State.upCore, State.upOnb_onb, amod, agetD, aget_aset_other h]

theorem reg_setReg_same {c : OnbCore} {r : Nat} (w : LWord) (hlo : 1 ≤ r) (hhi : r ≤ 31) : (c.setReg r w).reg r = w := by
  have hr : r ≠ 0 := Nat.ne_of_gt hlo
  have hlen : r - 1 < (c.regs ++ List.replicate (31 - c.regs.length) ({} : LWord)).length := by
    rw [List.length_append, List.length_replicate]
    omega
  rw [OnbCore.reg, OnbCore.setReg, if_neg hr, if_neg hr, List.getD_eq_getElem?_getD, List.getElem?_set_self hlen, Option.getD_some]

/-- Registers beyond those held read as the default, which is what a write fills up with. -/
theorem getD_append_replicate {α : Type} (l : List α) (n i : Nat) (d : α) : (l ++ List.replicate n d).getD i d = l.getD i d := by
  simp only [List.getD_eq_getElem?_getD]
  rcases Nat.lt_or_ge i l.length with h | h
  · rw [List.getElem?_append_left h]
  · rw [List.getElem?_append_right h, List.getElem?_eq_none h, List.getElem?_replicate]
    split <;> rfl

theorem reg_setReg_ne {c : OnbCore} {q r : Nat} (w : LWord) (h : q ≠ r) : (c.setReg r w).reg q = c.reg q := by
  unfold OnbCore.setReg OnbCore.reg
  by_cases hr : r = 0
  · rw [if_pos hr]
  · rw [if_neg hr]
    by_cases hq : q = 0
    · rw [if_pos hq, if_pos hq]
    · rw [if_neg hq, if_neg hq, List.getD_eq_getElem?_getD, List.getElem?_set_ne (by omega), ← List.getD_eq_getElem?_getD,
        getD_append_replicate]

@[simp] theorem reg_jump (c : OnbCore) (target : BitVec 64) (r : Nat) : (c.jump target).reg r = c.reg r := rfl

theorem exec_jal {core : Nat} (imm : Nat) {s : State} (h : onbAt core s = true) :
    exec (.jal core imm) s = .next (s.upCore core (fun c => (c.setReg 31 (codeW c.after)).jump (c.rel 26 imm))) :=
  (onbRun_go h rfl : execJal core imm s = _)

theorem core_loadHand {core : Nat} {img : ImgHdr} {s : State} (h : s.stg.image = some img) :
    (s.loadHand core).core core = (s.core core).loaded img s.stg.modules s.now := by
  simp only [State.loadHand, h]
  exact core_upCore_same s core _

/-- Settles O50: by the rules of `reg` and `setReg`; JAL writes g31 before it jumps, and a loaded core's registers are a core's defaults. -/
theorem registersOfACore : Obligations.RegistersOfACore := by
  intro c w r q
  refine ⟨rfl, rfl, fun hlo hhi => ⟨reg_setReg_same w hlo hhi, reg_setReg_ne w⟩, ?jal, ?loaded⟩
  case jal =>
    intro core imm s h
    refine ⟨_, exec_jal imm h, ?_⟩
    rw [core_upCore_same, reg_jump, reg_setReg_same _ (by decide) (by decide)]
  case loaded =>
    intro core img s himg hlo _
    rw [core_loadHand himg, OnbCore.reg, if_neg (Nat.ne_of_gt hlo)]
    rfl

end Sys2Proof.Proofs


/-!
PROOFS. Frames: each command changes the pieces that its operations reach. One line names, for each row of a statement, the lemma that says
what its operations keep; that the pieces of the lemma's mask are among the listed ones is decided.
-/
namespace Sys2Proof.Proofs

open Sys2Proof Sys2Proof.Machine Sys2Proof.Safety Sys2Proof.Laws

/-- A command that keeps what the mask allows changes the listed pieces at most, where these are all that the mask reaches. -/
theorem frame {f : State → Res} {m : Nat} {ps : List Piece} (h : ∀ (P : State → Prop) (s : State), Keeps P m → P s → ResAll P (f s))
    (e : (decide (m < 2 ^ 30) && reach m ps) = true := by decide +kernel) : changesOnly f ps :=
  changes_of (of_decide_eq_true (Bool.and_eq_true_iff.mp e).1) (Bool.and_eq_true_iff.mp e).2 h

/-- Settles O36, row by row. -/
theorem commandAndTimeFrames : Obligations.CommandAndTimeFrames := by
  unfold Obligations.CommandAndTimeFrames
  simp only [List.forall_mem_cons, List.not_mem_nil, false_implies, implies_true, and_true]
  intros
  exact
    ⟨⟨frame fun _ _ => keeps_execSetPartitions, frame fun _ _ => keeps_execNop, frame fun _ _ => keeps_execOpenSession,
     frame fun _ _ => keeps_execCreateQueuePair, frame fun _ _ => keeps_execDeleteQueuePair, frame fun _ _ => keeps_execIntermissionBegin,
     frame fun _ _ => keeps_execGetState, frame fun _ _ => keeps_execTroupeMemberReply, frame fun _ _ => keeps_execTroupeTimeout⟩,
     ⟨frame fun _ _ => keeps_execCueFrameEmit, frame fun _ _ => keeps_execPathDelayEcho, frame fun _ _ => keeps_execCueInterpolate⟩,
     ⟨frame fun _ _ => keeps_execAbort, frame fun _ _ => keeps_execSqTailWrite⟩,
     ⟨frame fun _ _ => keeps_execCqHeadWrite, frame fun _ _ => keeps_execCmdCtrlEnSet⟩,
     ⟨frame fun _ _ => keeps_execCloseSession, frame fun _ _ => keeps_execDrainLimitExpiry⟩,
     ⟨frame fun _ _ => keeps_execPositionFrame, frame fun _ _ => keeps_execEthCueFrame⟩,
     ⟨frame fun _ _ => keeps_execEpochFrame, frame fun _ _ => keeps_execCueHoldoverTimeout⟩,
     ⟨frame fun _ _ => keeps_execCueEventSet, frame fun _ _ => keeps_execCueEventClear⟩,
     ⟨frame fun _ _ => keeps_execIntermissionEnd, frame fun _ _ => keeps_execIntermissionAtReached⟩,
     ⟨frame fun _ _ => keeps_execForwardedCommand, frame fun _ _ => keeps_execMgmtCommand⟩,
     frame fun _ _ => keeps_execCmdCtrlEnClear,
     frame fun _ _ => keeps_execRegisterWrite,
     frame fun _ _ => keeps_execBar2Access,
     frame fun _ _ => keeps_execSetCueSource,
     frame fun _ _ => keeps_execCueSwPosWrite,
     frame fun _ _ => keeps_execCueHoldExpiry,
     frame fun _ _ => keeps_execEchoReadResponse,
     frame fun _ _ => keeps_execCueEventFire,
     frame fun _ _ => keeps_execPtmExchange,
     frame fun _ _ => keeps_execSetRoleKey,
     frame fun _ _ => keeps_execIntermissionDrained,
     frame fun _ _ => keeps_execLockoutExpiry⟩

/-- Settles O37, row by row. -/
theorem storageAndNetworkFrames : Obligations.StorageAndNetworkFrames := by
  unfold Obligations.StorageAndNetworkFrames
  simp only [List.forall_mem_cons, List.not_mem_nil, false_implies, implies_true, and_true]
  intros
  exact
    ⟨⟨frame fun _ _ => keeps_execGetNsStatus, frame fun _ _ => keeps_execSetPortMode, frame fun _ _ => keeps_execGetPortStatus,
     frame fun _ _ => keeps_execQueryQp, frame fun _ _ => keeps_execSetEventQueue, frame fun _ _ => keeps_execRegisterRegion,
     frame fun _ _ => keeps_execDeregisterRegion, frame fun _ _ => keeps_execCreateQp, frame fun _ _ => keeps_execDestroyQp,
     frame fun _ _ => keeps_execTroupeRemoveMember, frame fun _ _ => keeps_execSetContextReserve,
     frame fun _ _ => keeps_execTroupeAddMember⟩,
     ⟨frame fun _ _ => keeps_execCreateIoSq, frame fun _ _ => keeps_execDeleteIoCq, frame fun _ _ => keeps_execCreateIoCq,
     frame fun _ _ => keeps_execAsyncEventRequest, frame fun _ _ => keeps_execFlush, frame fun _ _ => keeps_execRead,
     frame fun _ _ => keeps_execGetLogPage, frame fun _ _ => keeps_execIdentify, frame fun _ _ => keeps_execGetFeatures,
     frame fun _ _ => keeps_execNvmeSqDoorbell, frame fun _ _ => keeps_execSetFeatures⟩,
     ⟨frame fun _ _ => keeps_execNvmeShutdown, frame fun _ _ => keeps_execNvmeAbort, frame fun _ _ => keeps_execWrite,
     frame fun _ _ => keeps_execWriteZeroes, frame fun _ _ => keeps_execDatasetManagement, frame fun _ _ => keeps_execWriteBufferAdmit,
     frame fun _ _ => keeps_execRemoteReadComplete, frame fun _ _ => keeps_execRemoteCommandFail, frame fun _ _ => keeps_execDeleteIoSq,
     frame fun _ _ => keeps_execNvmeCcDisable (x1 := 0)⟩,
     ⟨frame fun _ _ => keeps_execLinkDown, frame fun _ _ => keeps_execAckReceived, frame fun _ _ => keeps_execQpAckTimeout,
     frame fun _ _ => keeps_execRecoveryAttemptTimeout, frame fun _ _ => keeps_execPathDown⟩,
     ⟨frame fun _ _ => keeps_execAttachNamespace, frame fun _ _ => keeps_execSetNsMode, frame fun _ _ => keeps_execSetWbQuota,
     frame fun _ _ => keeps_execConnectTarget, frame fun _ _ => keeps_execDisconnectTarget⟩,
     ⟨frame fun _ _ => keeps_execHedSetTable, frame fun _ _ => keeps_execHedAddEntry, frame fun _ _ => keeps_execHedDelEntry,
     frame fun _ _ => keeps_execHedLoadGraph, frame fun _ _ => keeps_execSetPacketRing⟩,
     ⟨frame fun _ _ => keeps_execCipAssignPages, frame fun _ _ => keeps_execCipLoadKey, frame fun _ _ => keeps_execCipClearPage,
     frame fun _ _ => keeps_execCipCrypt⟩,
     ⟨frame fun _ _ => keeps_execSprayAckTimer, frame fun _ _ => keeps_execRecoverSendTimer, frame fun _ _ => keeps_execQpRecoveryStart,
     frame fun _ _ => keeps_execRecoveryRetry⟩,
     ⟨frame fun _ _ => keeps_execLinkUp, frame fun _ _ => keeps_execFecDegrade, frame fun _ _ => keeps_execPathProbe⟩,
     ⟨frame fun _ _ => keeps_execRejReceived, frame fun _ _ => keeps_execNetPeerUnreachable, frame fun _ _ => keeps_execCmRepReceived⟩,
     ⟨frame fun _ _ => keeps_execWbDrainStart, frame fun _ _ => keeps_execWbDrainComplete⟩,
     ⟨frame fun _ _ => keeps_execDetachNamespace, frame fun _ _ => keeps_execDiscardDirty⟩,
     ⟨frame fun _ _ => keeps_execFrameReceived, frame fun _ _ => keeps_execFrameRecirculate⟩,
     ⟨frame fun _ _ => keeps_execCipherUnitDone, frame fun _ _ => keeps_execEspLaneTimeout⟩,
     ⟨frame fun _ _ => keeps_execTargetAssociated, frame fun _ _ => keeps_execStoTargetUnreachable⟩,
     ⟨frame fun _ _ => keeps_execRdmaWriteReceived, frame fun _ _ => keeps_execRdmaReadRequest⟩,
     frame fun _ _ => keeps_execRdmaReadResponse,
     frame fun _ _ => keeps_execRecoverReceived,
     frame fun _ _ => keeps_execNvmeCqDoorbell,
     frame fun _ _ => keeps_execNvmeCcEnable,
     frame fun _ _ => keeps_execCnpReceived,
     frame fun _ _ => keeps_execNetEvqHeadWrite,
     frame fun _ _ => keeps_execCmReqReceived,
     frame fun _ _ => keeps_execModifyQp,
     frame fun _ _ => keeps_execFlowAgeExpiry,
     frame fun _ _ => keeps_execContextError,
     frame fun _ _ => keeps_execDrbgReseed,
     frame fun _ _ => keeps_execRtuReceived⟩

/-- Settles O38, row by row. -/
theorem dataPathFrames : Obligations.DataPathFrames := by
  unfold Obligations.DataPathFrames
  simp only [List.forall_mem_cons, List.not_mem_nil, false_implies, implies_true, and_true]
  intros
  exact
    ⟨⟨frame fun _ _ => keeps_execShuFeed, frame fun _ _ => keeps_execShuReturnOutput, frame fun _ _ => keeps_execPictureDecoded,
     frame fun _ _ => keeps_execAudioFrameDecoded, frame fun _ _ => keeps_execCaptionChange, frame fun _ _ => keeps_execSliceReparseDone,
     frame fun _ _ => keeps_execContainerTimeout, frame fun _ _ => keeps_execTapRun, frame fun _ _ => keeps_execTapBindQueue,
     frame fun _ _ => keeps_execQueueWaitExpiry, frame fun _ _ => keeps_execSliceOverrun, frame fun _ _ => keeps_execCoreJoin⟩,
     ⟨frame fun _ _ => keeps_execShuGetStream, frame fun _ _ => keeps_execLoomGetCursor, frame fun _ _ => keeps_execLoomGetOrder,
     frame fun _ _ => keeps_execLoomGetJob, frame fun _ _ => keeps_execFeedGetRing⟩,
     ⟨frame fun _ _ => keeps_execTapLoadProgram, frame fun _ _ => keeps_execTapUnloadProgram, frame fun _ _ => keeps_execTapUnbindQueue,
     frame fun _ _ => keeps_execTapGetQueue, frame fun _ _ => keeps_execTapSetPolicy⟩,
     ⟨frame fun _ _ => keeps_execLoomOpenJob, frame fun _ _ => keeps_execLoomAddWarp, frame fun _ _ => keeps_execLoomSetCursor,
     frame fun _ _ => keeps_execLoomSetShare⟩,
     ⟨frame fun _ _ => keeps_execAccelPresence, frame fun _ _ => keeps_execAccelEnumerated, frame fun _ _ => keeps_execLinkTrainingTimeout,
     frame fun _ _ => keeps_execAccelRetryTimer⟩,
     ⟨frame fun _ _ => keeps_execFeedAdmit, frame fun _ _ => keeps_execFeedResetRing, frame fun _ _ => keeps_execFeedDestroyRing⟩,
     ⟨frame fun _ _ => keeps_execLatchValWrite, frame fun _ _ => keeps_execLatchThreshWrite, frame fun _ _ => keeps_execLatchCfgWrite⟩,
     ⟨frame fun _ _ => keeps_execLayoutNotice, frame fun _ _ => keeps_execLayoutRoundTimeout, frame fun _ _ => keeps_execLayoutRepropose⟩,
     ⟨frame fun _ _ => keeps_execShuSetPolicy, frame fun _ _ => keeps_execShuSetMel, frame fun _ _ => keeps_execShuOpenStream⟩,
     ⟨frame fun _ _ => keeps_execStreamInputRead, frame fun _ _ => keeps_execShuCloseStream⟩,
     ⟨frame fun _ _ => keeps_execSamplePayloadRead, frame fun _ _ => keeps_execExchangeNotice⟩,
     ⟨frame fun _ _ => keeps_execSliceComplete, frame fun _ _ => keeps_execSampleAdmit⟩,
     ⟨frame fun _ _ => keeps_execLoomSetLayout, frame fun _ _ => keeps_execFeedJoin⟩,
     ⟨frame fun _ _ => keeps_execFeedSetPort, frame fun _ _ => keeps_execFeedRelease⟩,
     ⟨frame fun _ _ => keeps_execCreditMailboxEntry, frame fun _ _ => keeps_execDeliveryIssue⟩,
     ⟨frame fun _ _ => keeps_execDeliveryLanded, frame fun _ _ => keeps_execGenReadResponse⟩,
     ⟨frame fun _ _ => keeps_execLoomFetchStart, frame fun _ _ => keeps_execRescueFetch, frame fun _ _ => keeps_execWeaveClose⟩,
     frame fun _ _ => keeps_execFeedCreateRing,
     frame fun _ _ => keeps_execRingResetReadDone,
     frame fun _ _ => keeps_execLoomCloseJob,
     frame fun _ _ => keeps_execLoomStart,
     frame fun _ _ => keeps_execIndexEntryRead,
     frame fun _ _ => keeps_execLatchAssign,
     frame fun _ _ => keeps_execLatchAdd,
     frame fun _ _ => keeps_execLatchPost,
     frame fun _ _ => keeps_execUpstreamAccess⟩

/-- Settles O39, row by row. -/
theorem faultAndFirmwareFrames : Obligations.FaultAndFirmwareFrames := by
  unfold Obligations.FaultAndFirmwareFrames
  simp only [List.forall_mem_cons, List.not_mem_nil, false_implies, implies_true, and_true]
  intros
  exact
    ⟨⟨frame fun _ _ => keeps_execFwStage, frame fun _ _ => keeps_execFwVerify, frame fun _ _ => keeps_execFwActivate,
     frame fun _ _ => keeps_execFwRollback⟩,
     ⟨frame fun _ _ => keeps_execFwLoadModule, frame fun _ _ => keeps_execFwUnloadModule⟩,
     ⟨frame fun _ _ => keeps_execRasGetUnit, frame fun _ _ => keeps_execCkpGetJob, frame fun _ _ => keeps_execCkpReadBank,
     frame fun _ _ => keeps_execFwGetInfo⟩,
     ⟨frame fun _ _ => keeps_execRasSetErrorRing, frame fun _ _ => keeps_execRasErrorHead, frame fun _ _ => keeps_execRasSetTest⟩,
     ⟨frame fun _ _ => keeps_execHandoverClearance, frame fun _ _ => keeps_execHandoverStep4Timeout⟩,
     frame fun _ _ => keeps_execTrialExpiry,
     ⟨frame fun _ _ => keeps_execCkpSetShards, frame fun _ _ => keeps_execCkpRestore⟩,
     frame fun _ _ => keeps_execCkpCapture,
     frame fun _ _ => keeps_execCkpCloseJob,
     ⟨frame fun _ _ => keeps_execDetectedError, frame fun _ _ => keeps_execRasFenceUnit⟩,
     frame fun _ _ => keeps_execChannelRemoved,
     frame fun _ _ => keeps_execPartitionResetEnd,
     ⟨frame fun _ _ => keeps_execCkpSetJob, frame fun _ _ => keeps_execCkpSetTrigger⟩,
     ⟨frame fun _ _ => keeps_execCkpSetSigners, frame fun _ _ => keeps_execFwSetModuleKey⟩,
     ⟨frame fun _ _ => keeps_execShardCopied, frame fun _ _ => keeps_execPbWriteFail⟩,
     ⟨frame fun _ _ => keeps_execActivateDeferTimeout, frame fun _ _ => keeps_execHandoverQuiesceTimeout⟩,
     frame fun _ _ => keeps_execMeshDegraded,
     ⟨frame fun _ _ => keeps_execCaptureDecision, frame fun _ _ => keeps_execCaptureStart⟩,
     frame fun _ _ => keeps_execRestoreShardRead,
     frame fun _ _ => keeps_execShardStored,
     frame fun _ _ => keeps_execAccelDeparted,
     frame fun _ _ => keeps_execCorrectedError,
     frame fun _ _ => keeps_execPatrolScrub,
     frame fun _ _ => keeps_execUncorrectableBurst,
     frame fun _ _ => keeps_execRecordCoalesceExpiry,
     frame fun _ _ => keeps_execIftDue,
     frame fun _ _ => keeps_execIftComplete,
     frame fun _ _ => keeps_execBankZeroAck,
     frame fun _ _ => keeps_execCaptureCommit,
     frame fun _ _ => keeps_execCheckpointNotice,
     frame fun _ _ => keeps_execDrainComplete,
     frame fun _ _ => keeps_execStgLoadGo,
     frame fun _ _ => keeps_execStgLoadDone,
     frame fun _ _ => keeps_execWatchdogExpiry,
     frame fun _ _ => keeps_execStagehandRestarted,
     frame fun _ _ => keeps_execHandoverQuiesced,
     frame fun _ _ => keeps_execHandoverResumed,
     frame fun _ _ => keeps_execFwCommit⟩

/-- Settles O40, row by row. -/
theorem onbusynFrames : Obligations.OnbusynFrames := by
  unfold Obligations.OnbusynFrames
  simp only [List.forall_mem_cons, List.not_mem_nil, false_implies, implies_true, and_true]
  intros
  exact
    ⟨⟨frame fun _ _ => keeps_execAdd, frame fun _ _ => keeps_execSub, frame fun _ _ => keeps_execAndR, frame fun _ _ => keeps_execOrR,
     frame fun _ _ => keeps_execXorR, frame fun _ _ => keeps_execShl, frame fun _ _ => keeps_execShr, frame fun _ _ => keeps_execSar,
     frame fun _ _ => keeps_execMul, frame fun _ _ => keeps_execMulhu, frame fun _ _ => keeps_execDivu, frame fun _ _ => keeps_execRemu,
     frame fun _ _ => keeps_execMinu, frame fun _ _ => keeps_execMaxu, frame fun _ _ => keeps_execMovR, frame fun _ _ => keeps_execSltu,
     frame fun _ _ => keeps_execAddi, frame fun _ _ => keeps_execAndi, frame fun _ _ => keeps_execOri, frame fun _ _ => keeps_execXori,
     frame fun _ _ => keeps_execShiftiShl, frame fun _ _ => keeps_execShiftiShr, frame fun _ _ => keeps_execShiftiSar,
     frame fun _ _ => keeps_execMovz, frame fun _ _ => keeps_execMovk, frame fun _ _ => keeps_execLd64, frame fun _ _ => keeps_execLd32u,
     frame fun _ _ => keeps_execLd16u, frame fun _ _ => keeps_execLd8u, frame fun _ _ => keeps_execSt64, frame fun _ _ => keeps_execSt32,
     frame fun _ _ => keeps_execSt16, frame fun _ _ => keeps_execSt8, frame fun _ _ => keeps_execBeq, frame fun _ _ => keeps_execBne,
     frame fun _ _ => keeps_execBlt, frame fun _ _ => keeps_execBge, frame fun _ _ => keeps_execBltu, frame fun _ _ => keeps_execBgeu,
     frame fun _ _ => keeps_execJal, frame fun _ _ => keeps_execJr, frame fun _ _ => keeps_execLoop, frame fun _ _ => keeps_execLoopi,
     frame fun _ _ => keeps_execCsrr, frame fun _ _ => keeps_execCsrw, frame fun _ _ => keeps_execTagR, frame fun _ _ => keeps_execRetag,
     frame fun _ _ => keeps_execTrap, frame fun _ _ => keeps_execTret, frame fun _ _ => keeps_execAdr, frame fun _ _ => keeps_execWait,
     frame fun _ _ => keeps_execSha256Init, frame fun _ _ => keeps_execSha256Upd, frame fun _ _ => keeps_execSha256Fin,
     frame fun _ _ => keeps_execCrc32c, frame fun _ _ => keeps_execCrc64, frame fun _ _ => keeps_execWalk,
     frame fun _ _ => keeps_execCbRaise, frame fun _ _ => keeps_execCbPend, frame fun _ _ => keeps_execCbDone,
     frame fun _ _ => keeps_execLtRead, frame fun _ _ => keeps_execDmaWin, frame fun _ _ => keeps_execModuleBudgetExpiry,
     frame fun _ _ => keeps_execCtxRd, frame fun _ _ => keeps_execCtxWr, frame fun _ _ => keeps_execCtxPin,
     frame fun _ _ => keeps_execCtxUnpin⟩,
     frame fun _ _ => keeps_execWaitReturn,
     frame fun _ _ => keeps_execLtAdd,
     frame fun _ _ => keeps_execLtThresh,
     frame fun _ _ => keeps_execDmaCopy⟩

/-- Settles O41, row by row. -/
theorem hostAndManagementFrames : Obligations.HostAndManagementFrames := by
  unfold Obligations.HostAndManagementFrames
  simp only [List.forall_mem_cons, List.not_mem_nil, false_implies, implies_true, and_true]
  intros
  exact
    ⟨⟨frame fun _ _ => keeps_execCallAssign, frame fun _ _ => keeps_execVfSetResources, frame fun _ _ => keeps_execVfSetMbox,
     frame fun _ _ => keeps_execVfTrackStart, frame fun _ _ => keeps_execVfTrackSync, frame fun _ _ => keeps_execVfTrackStop,
     frame fun _ _ => keeps_execSmReadLog, frame fun _ _ => keeps_execObsSetSnapArea, frame fun _ _ => keeps_execObsSnapHead,
     frame fun _ _ => keeps_execObsSetCounter, frame fun _ _ => keeps_execObsTraceCfg, frame fun _ _ => keeps_execObsTraceStart,
     frame fun _ _ => keeps_execObsTraceStop, frame fun _ _ => keeps_execObsTraceRead, frame fun _ _ => keeps_execObsTableau,
     frame fun _ _ => keeps_execVfGetResources, frame fun _ _ => keeps_execVfSavePrecopy, frame fun _ _ => keeps_execVfSaveFinal,
     frame fun _ _ => keeps_execObsTrigger⟩,
     ⟨frame fun _ _ => keeps_execGetVersion, frame fun _ _ => keeps_execNegotiateAlgorithms, frame fun _ _ => keeps_execGetDigests,
     frame fun _ _ => keeps_execGetCertificate, frame fun _ _ => keeps_execKeyUpdate, frame fun _ _ => keeps_execSetEventReceiver,
     frame fun _ _ => keeps_execHealthResendTimer, frame fun _ _ => keeps_execActivateFirmware⟩,
     ⟨frame fun _ _ => keeps_execSmBoot, frame fun _ _ => keeps_execSensorSample, frame fun _ _ => keeps_execInputRestored,
     frame fun _ _ => keeps_execMainPowerUp, frame fun _ _ => keeps_execSysRstRelease, frame fun _ _ => keeps_execHpPerstAssert,
     frame fun _ _ => keeps_execPerstResetHoldExpiry⟩,
     ⟨frame fun _ _ => keeps_execGetCapabilities, frame fun _ _ => keeps_execChallenge, frame fun _ _ => keeps_execKeyExchange,
     frame fun _ _ => keeps_execMctpControl, frame fun _ _ => keeps_execPldmBase⟩,
     ⟨frame fun _ _ => keeps_execSmSetOperatorKey, frame fun _ _ => keeps_execSmSetThreshold, frame fun _ _ => keeps_execSmSetFwKey,
     frame fun _ _ => keeps_execSmSetMgmt, frame fun _ _ => keeps_execPwrSetConfig⟩,
     ⟨frame fun _ _ => keeps_execPowerControlTick, frame fun _ _ => keeps_execThermalCapStep, frame fun _ _ => keeps_execPwrSetCap,
     frame fun _ _ => keeps_execEprNLow, frame fun _ _ => keeps_execEprHoldExpiry⟩,
     ⟨frame fun _ _ => keeps_execAonPowerUp, frame fun _ _ => keeps_execAonPowerOff, frame fun _ _ => keeps_execInputOutOfRange,
     frame fun _ _ => keeps_execPwrEnLow, frame fun _ _ => keeps_execSysRstAssert⟩,
     ⟨frame fun _ _ => keeps_execPwrEnHigh, frame fun _ _ => keeps_execMainDomainReady, frame fun _ _ => keeps_execHpPerstRelease,
     frame fun _ _ => keeps_execHostLinkUp⟩,
     ⟨frame fun _ _ => keeps_execSmWatchdogExpiry, frame fun _ _ => keeps_execSmActivateClearance,
     frame fun _ _ => keeps_execSmTrialTimeout⟩,
     ⟨frame fun _ _ => keeps_execMgmtConfigApply, frame fun _ _ => keeps_execDynamicAddressAssigned,
     frame fun _ _ => keeps_execAlertNAssert⟩,
     ⟨frame fun _ _ => keeps_execCallMaskSet, frame fun _ _ => keeps_execCallPendClr⟩,
     ⟨frame fun _ _ => keeps_execCallMaskClr, frame fun _ _ => keeps_execCallPendSet⟩,
     ⟨frame fun _ _ => keeps_execCallVDone, frame fun _ _ => keeps_execSmFwConfirm⟩,
     ⟨frame fun _ _ => keeps_execFlr, frame fun _ _ => keeps_execVfEnableClear⟩,
     ⟨frame fun _ _ => keeps_execFlrComplete, frame fun _ _ => keeps_execVfEnableSet⟩,
     ⟨frame fun _ _ => keeps_execMboxSeqWrite, frame fun _ _ => keeps_execMboxAckWrite⟩,
     ⟨frame fun _ _ => keeps_execVfFrozen, frame fun _ _ => keeps_execFinish⟩,
     ⟨frame fun _ _ => keeps_execVfFreezeDrainLimit, frame fun _ _ => keeps_execVfResume⟩,
     ⟨frame fun _ _ => keeps_execGetMeasurements, frame fun _ _ => keeps_execPldmPlatform⟩,
     frame fun _ _ => keeps_execCallVTake,
     frame fun _ _ => keeps_execModerationExpiry,
     frame fun _ _ => keeps_execMsixUnmask,
     frame fun _ _ => keeps_execBarResize,
     frame fun _ _ => keeps_execVfFreeze,
     frame fun _ _ => keeps_execVfRestore,
     frame fun _ _ => keeps_execVfSetMigKey,
     frame fun _ _ => keeps_execStoreBankCompare,
     frame fun _ _ => keeps_execEndSession,
     frame fun _ _ => keeps_execMgmtScanRequest,
     frame fun _ _ => keeps_execPldmFru,
     frame fun _ _ => keeps_execPldmFirmwareUpdate,
     frame fun _ _ => keeps_execSmActivateTimeout,
     frame fun _ _ => keeps_execObsClearCounters,
     frame fun _ _ => keeps_execTableauStopped,
     frame fun _ _ => keeps_execJtagAccess,
     frame fun _ _ => keeps_execEprNHigh,
     frame fun _ _ => keeps_execTableauNFall⟩

end Sys2Proof.Proofs


/-!
PROOFS. Instructions of the Onbusyn cores that complete (R413 to R425, R430 to R434): with no cause to trap, an instruction does what its
row says.
-/
namespace Sys2Proof.Proofs

open Sys2Proof Sys2Proof.Machine Sys2Proof.Safety Sys2Proof.Laws

/-! ## Register instructions (Tables 15.2 and 15.4) -/

/-- Operands of the tags that ADD lists may be read. -/
theorem srcOk_of_addTag {a b : LWord} {t : BitVec 4} (h : addTag a.tag b.tag = some t) : srcOk a = true ∧ srcOk b = true := by
  unfold addTag at h
  split at h
  next hin =>
    obtain ⟨hb, ha | ha | ha⟩ := hin <;>
      exact ⟨srcOk_tag ha (by decide) (by decide), srcOk_tag hb (by decide) (by decide)⟩
  next =>
    split at h
    next hin => exact ⟨srcOk_tag hin.1 (by decide) (by decide), srcOk_tag hin.2 (by decide) (by decide)⟩
    next => cases h

/-- Operands of the tags that SUB lists may be read. -/
theorem srcOk_of_subTag {a b : LWord} {t : BitVec 4} (h : subTag a.tag b.tag = some t) : srcOk a = true ∧ srcOk b = true := by
  unfold subTag at h
  split at h
  next hin =>
    obtain ⟨hab, ha | ha | ha | ha⟩ := hin <;>
      exact ⟨srcOk_tag ha (by decide) (by decide), srcOk_tag (hab ▸ ha) (by decide) (by decide)⟩
  next =>
    split at h
    next hin => exact ⟨srcOk_tag hin.1 (by decide) (by decide), srcOk_tag hin.2 (by decide) (by decide)⟩
    next => cases h

theorem intOnly_int {w : LWord} (h : w.tag = tInt) : intOnly w.tag = some tInt := if_pos h

theorem intInt_int {a b : LWord} (ha : a.tag = tInt) (hb : b.tag = tInt) : intInt a.tag b.tag = some tInt := if_pos ⟨ha, hb⟩

theorem srcOk_int {w : LWord} (h : w.tag = tInt) : srcOk w = true := srcOk_tag h (by decide) (by decide)

/-- An operation on an INT register and an immediate that gives an INT. -/
theorem aluImm_int {n rd ra : Nat} {f : BitVec 64 → BitVec 64} {s : State} (h : onbAt n s = true) (ha : ((s.core n).reg ra).tag = tInt) :
    aluImm n rd ra intOnly f s = .next (onbPut n rd (intW (f ((s.core n).reg ra).val)) s) :=
  aluImm_go h (srcOk_int ha) (intOnly_int ha)

/-- A division of INT registers by another number than 0. -/
theorem aluDiv_go {n rd ra rb : Nat} {f : LWord → LWord → BitVec 64} {s : State} (h : onbAt n s = true)
    (ha : ((s.core n).reg ra).tag = tInt) (hb : ((s.core n).reg rb).tag = tInt) (h0 : ((s.core n).reg rb).val ≠ 0) :
    aluR n rd ra rb intInt divZero f s = .next (onbPut n rd (intW (f ((s.core n).reg ra) ((s.core n).reg rb))) s) :=
  aluR_go h (intInt_int ha hb) (srcOk_int ha) (srcOk_int hb) (by simpa [divZero, whenC] using h0)

theorem execMovR_go {core rd ra : Nat} {s : State} (h : onbAt core s = true) (ha : srcOk ((s.core core).reg ra) = true) :
    execMovR core rd ra s = .next (onbPut core rd ((s.core core).reg ra) s) :=
  aluImm_go (tag := some) (f := fun a => a) (t := ((s.core core).reg ra).tag) h ha rfl

/-- Settles O32, instruction by instruction. -/
theorem onbusynRegisterInstructionsComplete : Obligations.OnbusynRegisterInstructionsComplete := by
  rintro core rd ra rb k imm amount s c a b h rfl rfl rfl
  refine ⟨fun t ht => ?add, fun t ht => ?sub, fun ha hb => ?twoRegisters, fun ha => ?addi, fun ha => ?immediate,
    fun ha => ?movR, ?movz, ?movk, ?adr, ?tagR, ?retag⟩
  case movR => exact execMovR_go h ha
  case movz =>
    change execMovz core rd k imm s = _
    exact onbSeq_go h rfl rfl
  case adr =>
    change execAdr core rd imm s = _
    exact onbSeq_go h rfl rfl
  case tagR =>
    change execTagR core rd ra s = _
    exact onbSeq_go h rfl rfl
  case add =>
    obtain ⟨ha, hb⟩ := srcOk_of_addTag ht
    change execAdd core rd ra rb s = _
    exact aluR_go h ht ha hb rfl
  case sub =>
    obtain ⟨ha, hb⟩ := srcOk_of_subTag ht
    change execSub core rd ra rb s = _
    exact aluR_go h ht ha hb rfl
  case twoRegisters =>
    change execAndR core rd ra rb s = _ ∧ execOrR core rd ra rb s = _ ∧ execXorR core rd ra rb s = _ ∧ execShl core rd ra rb s = _ ∧
      execShr core rd ra rb s = _ ∧ execSar core rd ra rb s = _ ∧ execMul core rd ra rb s = _ ∧ execMulhu core rd ra rb s = _ ∧
      (_ → execDivu core rd ra rb s = _ ∧ execRemu core rd ra rb s = _) ∧ execMinu core rd ra rb s = _ ∧ execMaxu core rd ra rb s = _ ∧
      execSltu core rd ra rb s = _
    exact ⟨aluInt_go h ha hb, aluInt_go h ha hb, aluInt_go h ha hb, aluInt_go h ha hb, aluInt_go h ha hb, aluInt_go h ha hb,
      aluInt_go h ha hb, aluInt_go h ha hb, fun h0 => ⟨aluDiv_go h ha hb h0, aluDiv_go h ha hb h0⟩, aluInt_go h ha hb, aluInt_go h ha hb,
      aluInt_go h ha hb⟩
  case addi =>
    have htag : addTag ((s.core core).reg ra).tag tInt = some ((s.core core).reg ra).tag := if_pos ⟨rfl, ha⟩
    obtain ⟨hok, -⟩ := srcOk_of_addTag (b := intW 0) htag
    change execAddi core rd ra imm s = _
    exact aluImm_go h hok htag
  case immediate =>
    change execAndi core rd ra imm s = _ ∧ execOri core rd ra imm s = _ ∧ execXori core rd ra imm s = _ ∧
      execShiftiShl core rd ra amount s = _ ∧ execShiftiShr core rd ra amount s = _ ∧ execShiftiSar core rd ra amount s = _
    exact ⟨aluImm_int h ha, aluImm_int h ha, aluImm_int h ha, aluImm_int h ha, aluImm_int h ha, aluImm_int h ha⟩
  case movk =>
    rintro hd m rfl
    change execMovk core rd k imm s = _
    exact onbSeq_go h (needTag_nil hd (by decide) (by decide)) rfl
  case retag =>
    intro himm hpriv ha
    change execRetag core rd ra imm s = _
    refine onbSeq_go h ?_ rfl
    have hknown : ¬ 7 ≤ imm := by omega
    have hmodule : ((s.core core).priv && imm != 0) = false := by
      cases hp : (s.core core).priv with
      | false => rfl
      | true => simp [hpriv hp]
    simp [srcCause_nil ha, whenC, hknown, hmodule]

/-! ## Loads and stores (R417) -/

/-- LD64 of a word that holds something. -/
theorem execLd64_word {core rd ra imm : Nat} {s : State} (h : onbAt core s = true) (hok : accessOk core ra imm 8 (s.core core) = true)
    (hreg : smRegRange core ((s.core core).ea ra imm) = false) (htag : ((s.core core).word ((s.core core).ea ra imm)).tag ≠ tUninit) :
    execLd64 core rd ra imm s = .next (onbPut core rd ((s.core core).word ((s.core core).ea ra imm)) s) := by
  refine (onbRun_go h ?_).trans (congrArg _ ?_)
  · simp [accessCauses_nil hok, whenC, htag]
  · simp only [hreg, Bool.false_eq_true, if_false]
    rfl

/-- LD64 of the stage manager's register range. -/
theorem execLd64_register {core rd ra imm : Nat} {s : State} (h : onbAt core s = true) (hok : accessOk core ra imm 8 (s.core core) = true)
    (hreg : smRegRange core ((s.core core).ea ra imm) = true) :
    execLd64 core rd ra imm s = .next (onbPut core rd (intW (BitVec.ofNat 64 (s.freeNat (2 ^ 64)))) s.spent) := by
  refine (onbRun_go h ?_).trans (congrArg _ ?_)
  · simp [accessCauses_nil hok, whenC, hreg]
  · simp only [hreg, if_true]
    rfl

theorem execSt64_go {core rs ra imm : Nat} {s : State} (h : onbAt core s = true) (hok : accessOk core ra imm 8 (s.core core) = true)
    (hreg : smRegRange core ((s.core core).ea ra imm) = false) (hs : srcOk ((s.core core).reg rs) = true) :
    execSt64 core rs ra imm s =
      .next (onbNext core (fun x => x.setWord ((s.core core).ea ra imm) ((s.core core).reg rs)) s) :=
  onbSeq_go h (by simp [srcCause_nil hs, accessCauses_nil hok]) (by simp only [hreg, Bool.false_eq_true, if_false])

theorem narrowLoad_go {core rd ra imm len : Nat} {s : State} (h : onbAt core s = true) (hok : accessOk core ra imm len (s.core core) = true) :
    narrowLoad core rd ra imm len s =
      .next (onbPut core rd (intW (BitVec.ofNat 64 (((s.core core).word ((s.core core).ea ra imm)).part ((s.core core).ea ra imm) len))) s) :=
  onbSeq_go h (accessCauses_nil hok) rfl

theorem narrowStore_go {core rs ra imm len : Nat} {s : State} (h : onbAt core s = true) (hok : accessOk core ra imm len (s.core core) = true)
    (hs : srcOk ((s.core core).reg rs) = true) :
    narrowStore core rs ra imm len s =
      .next (onbNext core (fun x => x.setWord ((s.core core).ea ra imm)
        (((s.core core).word ((s.core core).ea ra imm)).setPart ((s.core core).ea ra imm) len ((s.core core).reg rs).val.toNat)) s) :=
  onbSeq_go h (by simp [srcCause_nil hs, accessCauses_nil hok]) rfl

/-- Settles O33: the 64-bit accesses, then each narrower width. -/
theorem onbusynLoadsAndStoresComplete : Obligations.OnbusynLoadsAndStoresComplete := by
  rintro core rd rs ra imm s c h rfl a rfl
  exact ⟨fun hok => ⟨fun hreg => ⟨execLd64_word h hok hreg, execSt64_go h hok hreg⟩, execLd64_register h hok⟩,
    fun hok => ⟨narrowLoad_go h hok, narrowStore_go h hok⟩, fun hok => ⟨narrowLoad_go h hok, narrowStore_go h hok⟩,
    fun hok => ⟨narrowLoad_go h hok, narrowStore_go h hok⟩⟩

end Sys2Proof.Proofs


/-!
PROOFS. Control instructions of the Onbusyn cores: TRAP 0 under module privilege ends the module's command besides (R409, R432).
-/
namespace Sys2Proof.Proofs

open Sys2Proof Sys2Proof.Machine Sys2Proof.Safety Sys2Proof.Laws

/-- A stagehand that runs under module privilege, with a handler, a code window and a budget. -/
def moduleCore : OnbCore := { running := true, priv := true, tvecSet := true, mchi := 4, mbudget := 1 }

/-- A state in which stagehand 0 runs so. -/
def moduleRuns : State :=
  { State.reset with
    aon := { State.reset.aon with mainPhase := .ready }
    onb := { State.reset.onb with cores := [(0, moduleCore)] } }

/-- Free values used by the state that an outcome answers. -/
def freeAfter (r : Res) : Nat :=
  match r with
  | .next t => t.free
  | _ => 0

/-- TRAP 0 of a module uses four free values: tval, and the status, DETAIL and RESULT that end the module's command. -/
theorem freeAfter_trap_moduleRuns : freeAfter (exec (.trap 0 0) moduleRuns) = 4 := by decide

/-- Refutes O34: TRAP 0 under module privilege ends the module's command with a status, DETAIL and RESULT of its own, which the statement's
clause of TRAP leaves out; the state that it names has used one free value and not four. -/
theorem not_onbusynControlInstructionsComplete : ¬ Obligations.OnbusynControlInstructionsComplete := by
  intro h
  obtain ⟨hruns, -⟩ := h 0 0 0 0 0 0 0 0 0 moduleRuns moduleCore _ _ rfl rfl rfl
  obtain ⟨-, -, -, -, -, -, -, htrap, -⟩ := hruns (by decide)
  have hfree := freeAfter_trap_moduleRuns
  rw [htrap rfl] at hfree
  exact absurd hfree (by decide)

end Sys2Proof.Proofs


/-!
PROOFS. Coprocessor instructions of the Onbusyn cores that complete (R426 to R429).
-/
namespace Sys2Proof.Proofs

open Sys2Proof Sys2Proof.Machine Sys2Proof.Safety Sys2Proof.Laws

/-- The word that answers a search: the number found, or all ones. -/
def foundW (o : Option Nat) : LWord := (o.map natW).getD (intW (BitVec.allOnes 64))

/-! ## Causes that do not arise -/

theorem needTag_int {w : LWord} (h : w.tag = tInt) : needTag w tInt = [] := needTag_nil h (by decide) (by decide)

/-- An INT number of a context. -/
theorem ctxCause_nil {w : LWord} (ht : w.tag = tInt) (hlt : w.val.toNat < ctxCount) : ctxCause w = [] := by
  simp [ctxCause, needTag_int ht, whenC, hlt]

/-- 256 aligned bytes that the core may reach. -/
theorem ctxLocal_nil {c : OnbCore} {n : Nat} {w : LWord} (h : localOk n 256 w c = true) (h8 : w.val.toNat % 8 = 0) : ctxLocal c n w = [] := by
  obtain ⟨htag, hrange⟩ := localOk_nil h
  simp [ctxLocal, htag, hrange, whenC, h8]

/-- An INT number of a latch. -/
theorem latchCause_nil {w : LWord} (ht : w.tag = tInt) (hlt : w.val.toNat < latchCount) : latchCause w = [] := by
  simp [latchCause, needTag_int ht, whenC, hlt]

/-! ## Instructions that use GDDR7 wait while it is held (R350) -/

theorem onbMem_held {n : Nat} {s : State} {uses : Bool} {causes : OnbCore → List Cause} {run : OnbCore → State → State}
    (hu : uses = true) (h : s.memHeld = true) : onbMem n s uses causes run = .next s := by
  rw [onbMem, hu, h, Bool.and_self, if_pos rfl]

theorem onbMem_go {n : Nat} {s : State} {uses : Bool} {causes : OnbCore → List Cause} {run : OnbCore → State → State}
    (hfree : (uses && s.memHeld) = false) (h : onbAt n s = true) (h0 : causes (s.core n) = []) :
    onbMem n s uses causes run = .next (run (s.core n) s) := by
  rw [onbMem, if_neg (Bool.eq_false_iff.mp hfree), onbRun_go h h0]

/-! ## Digest and CRC -/

theorem execSha256Fin_open {core ra : Nat} {s : State} (h : onbAt core s = true) (hcp : cpOk core 0 (s.core core) = true)
    (hl : localOk core 32 ((s.core core).reg ra) (s.core core) = true) (hon : (s.core core).shaOn = true) :
    execSha256Fin core ra s =
      .next (onbNext core (fun z =>
        { z with sha := [], shaOn := false }.putBytes ((s.core core).reg ra).val.toNat (sha256 (s.core core).sha)) s) := by
  obtain ⟨htag, hrange⟩ := localOk_nil hl
  refine (onbRun_go h (by simp [cpCauses_nil hcp, htag, hrange])).trans (congrArg _ ?_)
  simp only [hon, if_true]
  exact upCore_at rfl

/-- The result of a digest that no INIT began is free. -/
theorem execSha256Fin_closed {core ra : Nat} {s : State} (h : onbAt core s = true) (hcp : cpOk core 0 (s.core core) = true)
    (hl : localOk core 32 ((s.core core).reg ra) (s.core core) = true) (hon : (s.core core).shaOn = false) :
    execSha256Fin core ra s =
      .next (onbNext core (fun z =>
        { z with sha := [], shaOn := false }.putBytes ((s.core core).reg ra).val.toNat (s.freeBytes 32)) s.spent) := by
  obtain ⟨htag, hrange⟩ := localOk_nil hl
  refine (onbRun_go h (by simp [cpCauses_nil hcp, htag, hrange])).trans (congrArg _ ?_)
  simp only [hon, Bool.false_eq_true, if_false]
  exact upCore_at rfl

theorem crcInstr_go {core rd ra rb : Nat} {f : Nat → Bytes → Nat} {s : State} (h : onbAt core s = true)
    (hcp : cpOk core 1 (s.core core) = true) (hd : ((s.core core).reg rd).tag = tInt) (hb : ((s.core core).reg rb).tag = tInt)
    (hl : localOk core ((s.core core).reg rb).val.toNat ((s.core core).reg ra) (s.core core) = true) :
    crcInstr core rd ra rb f s =
      .next (onbPut core rd (natW (f ((s.core core).reg rd).val.toNat
        ((s.core core).bytes ((s.core core).reg ra).val.toNat ((s.core core).reg rb).val.toNat))) s) := by
  obtain ⟨htag, hrange⟩ := localOk_nil hl
  exact onbSeq_go h (by simp [cpCauses_nil hcp, needTag_int hd, needTag_int hb, htag, hrange]) rfl

/-! ## Table walker -/

/-- A walk of a valid descriptor that the core may use answers what the probes find (R429). -/
theorem execWalk_go {core rd ra rb : Nat} {s : State} (h : onbAt core s = true) (hfree : s.memHeld = false)
    (hcp : cpOk core 2 (s.core core) = true) (hb : ((s.core core).reg rb).tag = tInt)
    (hown : (s.core core).priv = true → ((s.core core).reg rb).val.toNat = 48 + (s.core core).cls)
    (h64 : ((s.core core).reg rb).val.toNat < 64) {d key : Bytes} (hd : d = s.walkDesc ((s.core core).reg rb).val.toNat)
    (hok : walkOk s d = true) (hl : localOk core (fld d 9 1) ((s.core core).reg ra) (s.core core) = true)
    (hkey : key = (s.core core).bytes ((s.core core).reg ra).val.toNat (fld d 9 1)) :
    execWalk core rd ra rb s =
      .next (onbPut core rd (foundW (s.walkProbe d key (fld d 12 1) (crc32cFrom (fld d 16 4) key))) s) := by
  subst hd hkey
  obtain ⟨htag, hrange⟩ := localOk_nil hl
  have hclass : ((s.core core).priv && ((s.core core).reg rb).val.toNat != 48 + (s.core core).cls) = false := by
    cases hp : (s.core core).priv with
    | false => rfl
    | true => simp [hown hp]
  refine (onbMem_go (by simp [hfree]) h ?_).trans (congrArg _ ?_)
  · simp [cpCauses_nil hcp, htag, needTag_int hb, hclass, Nat.not_le.mpr h64, hok, hrange]
  · cases hprobe : s.walkProbe (s.walkDesc ((s.core core).reg rb).val.toNat) _ _ _ <;> simp only [hprobe] <;> rfl

/-! ## Context cache -/

theorem execCtxRd_go {core ra rb : Nat} {s : State} (h : onbAt core s = true) (hfree : s.memHeld = false)
    (hcp : cpOk core 3 (s.core core) = true) (ha : ((s.core core).reg ra).tag = tInt) (hlt : ((s.core core).reg ra).val.toNat < ctxCount)
    (hl : localOk core 256 ((s.core core).reg rb) (s.core core) = true) (h8 : ((s.core core).reg rb).val.toNat % 8 = 0)
    {x : Nat} (hx : x = ((s.core core).reg ra).val.toNat) {u : State}
    (hu : u = (if ahas s.ctx.data x = true then s else s.spent.upCtx (fun z => { z with data := aset z.data x (s.ctxBytes x) })).ctxUse x) :
    execCtxRd core ra rb s =
      .next (onbNext core (fun z => (List.range 32).foldl
        (fun w i => w.setWord (((s.core core).reg rb).val.toNat + 8 * i)
          { val := BitVec.ofNat 64 (fld (s.ctxBytes x) (8 * i) 8), tag := if s.ctx.bad.contains x = true then tPoison else tInt }) z) u) := by
  subst hx hu
  exact onbMem_go (by simp [hfree]) h (by simp [cpCauses_nil hcp, ctxCause_nil ha hlt, ctxLocal_nil hl h8])

theorem execCtxWr_go {core ra rb : Nat} {s : State} (h : onbAt core s = true) (hfree : s.memHeld = false)
    (hcp : cpOk core 3 (s.core core) = true) (ha : ((s.core core).reg ra).tag = tInt) (hlt : ((s.core core).reg ra).val.toNat < ctxCount)
    (hl : localOk core 256 ((s.core core).reg rb) (s.core core) = true) (h8 : ((s.core core).reg rb).val.toNat % 8 = 0) :
    execCtxWr core ra rb s =
      .next (onbNext core id ((s.upCtx (fun z =>
        { z with data := aset z.data ((s.core core).reg ra).val.toNat ((s.core core).bytes ((s.core core).reg rb).val.toNat 256),
                 bad := if ((s.core core).poisonAt ((s.core core).reg rb).val.toNat 256).isSome = true then
                     ladd z.bad ((s.core core).reg ra).val.toNat
                   else ldel z.bad ((s.core core).reg ra).val.toNat })).ctxUse ((s.core core).reg ra).val.toNat)) :=
  onbMem_go (by simp [hfree]) h (by simp [cpCauses_nil hcp, ctxCause_nil ha hlt, ctxLocal_nil hl h8])

theorem execCtxPin_go {core ra : Nat} {s : State} (h : onbAt core s = true) (hcp : cpOk core 3 (s.core core) = true)
    (ha : ((s.core core).reg ra).tag = tInt) (hlt : ((s.core core).reg ra).val.toNat < ctxCount) (hroom : s.ctx.pinned.length < 16384) :
    execCtxPin core ra s =
      .next (onbNext core id (s.upCtx (fun z => { z with pinned := ladd z.pinned ((s.core core).reg ra).val.toNat }))) :=
  onbRun_go h (by simp [cpCauses_nil hcp, ctxCause_nil ha hlt, whenC, Nat.not_le.mpr hroom])

theorem execCtxUnpin_go {core ra : Nat} {s : State} (h : onbAt core s = true) (hcp : cpOk core 3 (s.core core) = true)
    (ha : ((s.core core).reg ra).tag = tInt) (hlt : ((s.core core).reg ra).val.toNat < ctxCount) :
    execCtxUnpin core ra s =
      .next (onbNext core id (s.upCtx (fun z => { z with pinned := ldel z.pinned ((s.core core).reg ra).val.toNat }))) :=
  onbRun_go h (by simp [cpCauses_nil hcp, ctxCause_nil ha hlt])

/-! ## Call board -/

theorem execCbRaise_edge {core ra : Nat} {s : State} (h : onbAt core s = true) (hcp : cpOk core 4 (s.core core) = true)
    (ha : ((s.core core).reg ra).tag = tInt) (hlo : 320 ≤ ((s.core core).reg ra).val.toNat)
    (hhi : ((s.core core).reg ra).val.toNat < 4096) :
    execCbRaise core ra s = .next (onbNext core id (s.raise ((s.core core).reg ra).val.toNat)) := by
  refine (onbRun_go h (by simp [cpCauses_nil hcp, needTag_int ha])).trans (congrArg _ ?_)
  simp only [hlo, hhi, and_self, if_true]
  rfl

theorem execCbPend_go {core rd : Nat} {s : State} (h : onbAt core s = true) (hcp : cpOk core 4 (s.core core) = true) {o : Option Nat} {t : State}
    (ht : s.take (.hand core) = (o, t)) :
    execCbPend core rd s = .next (onbPut core rd (foundW o) t) := by
  refine (onbRun_go h (cpCauses_nil hcp)).trans (congrArg _ ?_)
  cases o <;> simp only [ht] <;> rfl

theorem execCbDone_top {core ra : Nat} {s : State} (h : onbAt core s = true) (hcp : cpOk core 4 (s.core core) = true)
    (ha : ((s.core core).reg ra).tag = tInt) (htop : s.handTop core ((s.core core).reg ra).val.toNat = true) :
    execCbDone core ra s = .next (onbNext core id (s.popStack (.hand core))) := by
  refine (onbRun_go h (by simp [cpCauses_nil hcp, needTag_int ha])).trans (congrArg _ ?_)
  simp only [htop, if_true]
  rfl

/-! ## Latch unit -/

theorem execLtRead_go {core rd ra : Nat} {s : State} (h : onbAt core s = true) (hcp : cpOk core 5 (s.core core) = true)
    (ha : ((s.core core).reg ra).tag = tInt) (hlt : ((s.core core).reg ra).val.toNat < latchCount) :
    execLtRead core rd ra s = .next (onbPut core rd (natW (s.cell ((s.core core).reg ra).val.toNat).val) s) :=
  onbRun_go h (by simp [cpCauses_nil hcp, latchCause_nil ha hlt])

theorem execLtAdd_go {core ra rb : Nat} {s : State} (h : onbAt core s = true) (hcp : cpOk core 5 (s.core core) = true)
    (ha : ((s.core core).reg ra).tag = tInt) (hlt : ((s.core core).reg ra).val.toNat < latchCount)
    (hb : ((s.core core).reg rb).tag = tInt) :
    execLtAdd core ra rb s =
      .next (onbNext core id (s.latchAdd ((s.core core).reg ra).val.toNat ((s.core core).reg rb).val.toNat false)) :=
  onbRun_go h (by simp [cpCauses_nil hcp, latchCause_nil ha hlt, needTag_int hb])

theorem execLtThresh_free {core ra rb : Nat} {s : State} (h : onbAt core s = true) (hcp : cpOk core 5 (s.core core) = true)
    (ha : ((s.core core).reg ra).tag = tInt) (hlt : ((s.core core).reg ra).val.toNat < latchCount)
    (hb : ((s.core core).reg rb).tag = tInt) (hbound : (s.cell ((s.core core).reg ra).val.toNat).bound = none)
    (hguard : (s.cell ((s.core core).reg ra).val.toNat).guard = none) :
    execLtThresh core ra rb s =
      .next (onbNext core id (s.latchThresh ((s.core core).reg ra).val.toNat ((s.core core).reg rb).val.toNat)) := by
  refine (onbRun_go h (by simp [cpCauses_nil hcp, latchCause_nil ha hlt, needTag_int hb])).trans (congrArg _ ?_)
  simp only [hbound, hguard, Option.isSome_none, Bool.or_self, Bool.false_eq_true, if_false]
  rfl

/-! ## DMA -/

/-- A copy that meets neither a cause nor an error moves all its bytes (R427). -/
theorem execDmaCopy_go {core rd ra err : Nat} {host : Bytes} {s : State} (h : onbAt core s = true) (hcp : cpOk core 6 (s.core core) = true)
    (hl : localOk core 32 ((s.core core).reg ra) (s.core core) = true) {d : DmaDesc}
    (hd : d = (s.core core).dmaDesc ((s.core core).reg ra).val.toNat) (hfree : s.memHeld = false ∨ (d.srcSpace < 2 ∧ d.dstSpace < 2))
    (hcauses : s.dmaCauses (s.core core) core d = []) (herr : d.meets err = false)
    (hpoison : d.srcSpace = 0 → (s.core core).poisonAt d.src d.len = none) :
    execDmaCopy core rd ra host err s =
      .next (onbPut core rd (natW d.len) ((s.dmaFetch d d.len).dmaWrite core d (s.dmaRead (s.core core) d host d.len))) := by
  subst hd
  obtain ⟨htag, hrange⟩ := localOk_nil hl
  have hruns : (s.dmaUses core ra && s.memHeld) = false := by
    rcases hfree with hfree | ⟨hsrc, hdst⟩
    · rw [hfree, Bool.and_false]
    · simp [State.dmaUses, Nat.not_le.mpr hsrc, Nat.not_le.mpr hdst]
  refine (onbMem_go hruns h (by simp [cpCauses_nil hcp, htag, hrange, hcauses])).trans (congrArg _ ?_)
  simp only [herr, Bool.false_eq_true, if_false, ite_eq_right_iff.mpr hpoison, Option.getD_none, Option.isSome_none]
  rfl

theorem execDmaWin_go {core rd ra : Nat} {s : State} (h : onbAt core s = true) (hcp : cpOk core 6 (s.core core) = true)
    (hl : localOk core 32 ((s.core core).reg ra) (s.core core) = true) {d : DmaDesc}
    (hd : d = (s.core core).dmaDesc ((s.core core).reg ra).val.toNat) (hpriv : (s.core core).priv = false) (hpos : 0 < d.len)
    (hmax : d.len ≤ 1048576) :
    execDmaWin core rd ra s =
      .next (onbNext core (fun z =>
        { z with windows := z.windows.filter (fun w => w.1 != rd % 4) ++ [(rd % 4, d.srcSpace, d.fn, d.src, d.len)] }) s) := by
  subst hd
  obtain ⟨htag, hrange⟩ := localOk_nil hl
  refine onbSeq_go h ?_ rfl
  simp [cpCauses_nil hcp, htag, hrange, hpriv, whenC, Nat.ne_of_gt hpos, Nat.not_lt.mpr hmax]

/-- Settles O35, coprocessor by coprocessor. -/
theorem onbusynCoprocessorsComplete : Obligations.OnbusynCoprocessorsComplete := by
  rintro core rd ra rb err host s c a b h rfl rfl rfl x y rfl rfl
  refine ⟨fun hcp => ?digest, fun hcp hd hb hl => ?crc, fun hfree hcp hb hown h64 d hd hok hl key hkey r hr => ?walk, fun hcp ha hlt => ?context,
    fun hheld => ?held, fun hcp => ?callBoard, fun hcp ha hlt => ?latch, fun hcp hl d hd => ?dma⟩
  case digest =>
    change execSha256Init core s = _ ∧ (_ → _ → execSha256Upd core ra rb s = _) ∧
      (_ → (_ → execSha256Fin core ra s = _) ∧ (_ → execSha256Fin core ra s = _))
    refine ⟨onbSeq_go h (cpCauses_nil hcp) rfl, fun hb hl => ?_,
      fun hl => ⟨execSha256Fin_open h hcp hl, execSha256Fin_closed h hcp hl⟩⟩
    obtain ⟨htag, hrange⟩ := localOk_nil hl
    exact onbSeq_go h (by simp [cpCauses_nil hcp, htag, hrange, needTag_int hb]) rfl
  case crc =>
    change execCrc32c core rd ra rb s = _ ∧ execCrc64 core rd ra rb s = _
    exact ⟨crcInstr_go h hcp hd hb hl, crcInstr_go h hcp hd hb hl⟩
  case walk =>
    change (∀ i, _ → execWalk core rd ra rb s = _) ∧ (_ → execWalk core rd ra rb s = _)
    rw [execWalk_go h hfree hcp hb hown h64 hd hok hl hkey, ← hr]
    exact ⟨fun i hi => hi ▸ rfl, fun hnone => hnone ▸ rfl⟩
  case context =>
    refine ⟨fun hfree hl h8 => ⟨?_, execCtxWr_go h hfree hcp ha hlt hl h8⟩, execCtxPin_go h hcp ha hlt, execCtxUnpin_go h hcp ha hlt⟩
    rintro tag rfl d rfl u hu
    exact execCtxRd_go h hfree hcp ha hlt hl h8 rfl hu
  case held =>
    change execWalk core rd ra rb s = _ ∧ execCtxRd core ra rb s = _ ∧ execCtxWr core ra rb s = _ ∧ (_ → execDmaCopy core rd ra host err s = _)
    exact ⟨onbMem_held rfl hheld, onbMem_held rfl hheld, onbMem_held rfl hheld, fun huses => onbMem_held huses hheld⟩
  case callBoard =>
    exact ⟨execCbRaise_edge h hcp, fun n t => execCbPend_go h hcp, fun t => execCbPend_go h hcp, execCbDone_top h hcp⟩
  case latch =>
    exact ⟨execLtRead_go h hcp ha hlt, fun hb => ⟨execLtAdd_go h hcp ha hlt hb, execLtThresh_free h hcp ha hlt hb⟩⟩
  case dma =>
    exact ⟨fun hfree hcauses herr => execDmaCopy_go h hcp hl hd hfree hcauses herr, execDmaWin_go h hcp hl hd⟩

end Sys2Proof.Proofs


/-!
PROOFS. Properties of one piece of the state are kept by every operation that does not reach it; and the commands that wait, which replies
only make fewer.
-/
namespace Sys2Proof.Proofs

open Sys2Proof Sys2Proof.Machine Sys2Proof.Safety Sys2Proof.Laws

/-- The elementary changes of a mask do not reach a piece. -/
def spares (m : Nat) (q : Piece) : Bool := (List.range 30).all (fun k => !m.testBit k || !(effect k).contains q)

/-- A property of one piece is closed under the changes that spare it. -/
theorem keeps_of_spared {P : State → Prop} (m : Nat) (q : Piece) (hP : ∀ s t, q.same s t → P s → P t) (e : spares m q = true := by decide) :
    Keeps P m := by
  intro k hk
  refine closed_of_frame fun s t hchange => hP s t (hchange.2 q fun hmem => ?_)
  have hspared := List.all_eq_true.mp e k (List.mem_range.mpr (lt_of_mem_effect hmem))
  simp [hk, hmem] at hspared

/-! ## The commands that wait -/

/-- Every command that waits is one of a list. -/
def WaitsIn (l : List WaitCmd) (s : State) : Prop := ∀ w ∈ s.cmd.waiting, w ∈ l

variable {l : List WaitCmd} {s : State}

theorem waitsIn_self (s : State) : WaitsIn s.cmd.waiting s := fun _ h => h

theorem waitsIn_of_cmd (s t : State) (h : Piece.cmd.same s t) (hs : WaitsIn l s) : WaitsIn l t := by
  change t.cmd = s.cmd at h
  rw [WaitsIn, h]
  exact hs

theorem waitsIn_filter (p : WaitCmd → Bool) (hs : WaitsIn l s) : WaitsIn l (s.upCmd (fun c => { c with waiting := c.waiting.filter p })) :=
  fun _ hw => hs _ (List.mem_filter.mp hw).1

theorem waitsIn_upQp {k : Nat} {f : QPair → QPair} (hs : WaitsIn l s) : WaitsIn l (s.upQp k f) := hs

theorem waitsIn_upFn {fn : Nat} {f : FnCmd → FnCmd} (hs : WaitsIn l s) : WaitsIn l (s.upFn fn f) := hs

theorem waitsIn_qpError {fn qp reason : Nat} (hs : WaitsIn l s) : WaitsIn l (s.qpError fn qp reason) := by
  unfold State.qpError
  split
  · exact waitsIn_upQp hs
  · exact keeps_flag (keeps_of_spared _ .cmd waitsIn_of_cmd) (waitsIn_upQp hs) fun _ => waitsIn_upFn

/-- A reply changes a queue pair and what lies outside the command interface. -/
theorem waitsIn_putReply {h : Hdr} {opcode : Nat} {r : Rep} (hs : WaitsIn l s) : WaitsIn l (s.putReply h opcode r) := by
  have hnote : ∀ {t : State} {fn}, WaitsIn l t → WaitsIn l (t.note h.unit 0x0003 fn (opcode + 65536 * h.hostTag) r.status) :=
    keeps_note (keeps_of_spared _ .cmd waitsIn_of_cmd)
  unfold State.putReply
  split
  · split
    · exact hs
    · split
      · exact hs
      · split
        · exact waitsIn_qpError (waitsIn_upQp hs)
        · refine hnote (keeps_vecEvent (keeps_of_spared _ .cmd waitsIn_of_cmd) ?_)
          refine keeps_fnCtr (keeps_of_spared _ .cmd waitsIn_of_cmd) (waitsIn_upQp ?_)
          exact keeps_hostWrite (keeps_of_spared _ .cmd waitsIn_of_cmd) hs
  · split
    · exact hs
    · exact hnote hs
  · refine hnote ?_
    split
    · exact keeps_State_mboxWrite (keeps_of_spared _ .cmd waitsIn_of_cmd) hs
    · exact hs

theorem waitsIn_settleDeletes (n : Nat) (hs : WaitsIn l s) : WaitsIn l (s.settleDeletes n) := by
  induction n generalizing s with
  | zero => exact hs
  | succ n ih =>
    unfold State.settleDeletes
    split
    · exact hs
    · exact ih (waitsIn_putReply (waitsIn_filter _ hs))

theorem waitsIn_reply {h : Hdr} {opcode : Nat} {r : Rep} (hs : WaitsIn l s) : WaitsIn l (s.reply h opcode r) :=
  waitsIn_settleDeletes _ (waitsIn_putReply hs)

theorem waitsIn_finish {w : WaitCmd} {status detail result st : Nat} (hs : WaitsIn l s) : WaitsIn l (s.finish w status detail result st) := by
  unfold State.finish
  refine waitsIn_reply ?_
  split
  · exact keeps_snapEnd (keeps_of_spared _ .cmd waitsIn_of_cmd) (waitsIn_filter _ hs)
  · exact waitsIn_filter _ hs

/-- With no FW_UNLOAD_MODULE among the commands that wait, none is settled. -/
theorem settleUnloads_of_none {s : State} (h : s.cmd.waiting.any (fun w => w.kind == wUnload) = false) : s.settleUnloads = s := by
  have hnone : s.cmd.waiting.filter (fun w => w.kind == wUnload && !(s.classBusy w.aux)) = [] := by
    refine List.filter_eq_nil_iff.mpr fun w hw => ?_
    have hkind := List.any_eq_false.mp h w hw
    simp [Bool.eq_false_iff.mpr hkind]
  simp only [State.settleUnloads, hnone, List.foldl_nil]

/-- Fewer commands waiting, no FW_UNLOAD_MODULE among them still. -/
theorem noUnload_of_waitsIn {s t : State} (h : s.cmd.waiting.any (fun w => w.kind == wUnload) = false) (ht : WaitsIn s.cmd.waiting t) :
    t.cmd.waiting.any (fun w => w.kind == wUnload) = false :=
  List.any_eq_false.mpr fun w hw => List.any_eq_false.mp h w (ht w hw)

end Sys2Proof.Proofs


/-!
PROOFS. Traps of the Onbusyn cores (R425, R428, R431, R432), and what register and store instructions leave unchanged.
-/
namespace Sys2Proof.Proofs

open Sys2Proof Sys2Proof.Machine Sys2Proof.Safety Sys2Proof.Laws

/-! ## What the end of a module's command leaves of the cores -/

theorem core_of_onb (s t : State) (h : Piece.onb.same s t) (n : Nat) : t.core n = s.core n := by
  change t.onb = s.onb at h
  rw [State.core, h]
  rfl

/-- A core without its local memory. -/
def bare (c : OnbCore) : OnbCore := { c with mem := [] }

/-- Every core is, but for local memory, as it was. -/
def CoresBut (s t : State) : Prop := ∀ n, bare (t.core n) = bare (s.core n)

theorem coresBut_of_onb {s : State} (t u : State) (h : Piece.onb.same t u) (hs : CoresBut s t) : CoresBut s u :=
  fun n => (congrArg bare (core_of_onb t u h n)).trans (hs n)

theorem coresBut_upCore {s t : State} {n : Nat} {f : OnbCore → OnbCore} (hf : ∀ c, bare (f c) = bare c) (h : CoresBut s t) :
    CoresBut s (t.upCore n f) := by
  intro m
  by_cases hm : m = n
  · rw [hm, core_upCore_same, hf, h]
  · rw [core_upCore_other hm, h]

/-- A module that goes takes its resident part from local memory. -/
theorem coresBut_moduleGone {s t : State} (cls : Nat) (h : CoresBut s t) : CoresBut s (t.moduleGone cls) := by
  unfold State.moduleGone
  split
  · exact h
  · refine keeps_gClear (keeps_of_spared _ .onb coresBut_of_onb) ?_
    unfold State.modulesLaid
    split
    · exact h
    · exact keeps_foldl h fun _ _ => coresBut_upCore fun _ => rfl

theorem coresBut_finish {s t : State} {w : WaitCmd} {status detail result st : Nat} (h : CoresBut s t) :
    CoresBut s (t.finish w status detail result st) :=
  keeps_finish (keeps_of_spared _ .onb coresBut_of_onb) h

theorem coresBut_moduleEnds {s t : State} {core cls status detail result : Nat} (h : CoresBut s t) :
    CoresBut s (t.moduleEnds core cls status detail result) := by
  unfold State.moduleEnds
  split
  · exact h
  · exact keeps_foldl (coresBut_finish h) fun u w hu => coresBut_finish (coresBut_moduleGone w.aux hu)

theorem coresBut_moduleTrap {s t : State} {core cls code value : Nat} (h : CoresBut s t) : CoresBut s (t.moduleTrap core cls code value) := by
  unfold State.moduleTrap
  split
  · exact coresBut_moduleEnds h
  · split
    · exact keeps_moduleFault (keeps_of_spared _ .onb coresBut_of_onb) (coresBut_moduleEnds h)
    · split
      · exact coresBut_moduleEnds h
      · exact h

/-- The cores and memory of one state are those of another. -/
def CoresAndMemory (s t : State) : Prop := t.onb = s.onb ∧ t.gddr = s.gddr

theorem coresAndMemory_finish {s t : State} {w : WaitCmd} {status detail result st : Nat} (h : CoresAndMemory s t) :
    CoresAndMemory s (t.finish w status detail result st) :=
  ⟨keeps_finish (P := fun u => u.onb = s.onb) (keeps_of_spared _ .onb fun _ _ e => e.trans) h.1,
    keeps_finish (P := fun u => u.gddr = s.gddr) (keeps_of_spared _ .gddr fun _ _ e => e.trans) h.2⟩

theorem coresAndMemory_moduleFault {s t : State} {cls : Nat} (h : CoresAndMemory s t) : CoresAndMemory s (t.moduleFault cls) :=
  ⟨keeps_moduleFault (P := fun u => u.onb = s.onb) (keeps_of_spared _ .onb fun _ _ e => e.trans) h.1,
    keeps_moduleFault (P := fun u => u.gddr = s.gddr) (keeps_of_spared _ .gddr fun _ _ e => e.trans) h.2⟩

/-- With no FW_UNLOAD_MODULE waiting, the end of a module's command reaches neither cores nor memory. -/
theorem coresAndMemory_moduleEnds {s t : State} {core cls status detail result : Nat}
    (hnone : t.cmd.waiting.any (fun w => w.kind == wUnload) = false) (h : CoresAndMemory s t) :
    CoresAndMemory s (t.moduleEnds core cls status detail result) := by
  unfold State.moduleEnds
  split
  · exact h
  · rw [settleUnloads_of_none (noUnload_of_waitsIn hnone (waitsIn_finish (waitsIn_self t)))]
    exact coresAndMemory_finish h

theorem coresAndMemory_moduleTrap {s t : State} {core cls code value : Nat} (hnone : t.cmd.waiting.any (fun w => w.kind == wUnload) = false)
    (h : CoresAndMemory s t) : CoresAndMemory s (t.moduleTrap core cls code value) := by
  unfold State.moduleTrap
  split
  · exact coresAndMemory_moduleEnds hnone h
  · split
    · exact coresAndMemory_moduleFault (coresAndMemory_moduleEnds hnone h)
    · split
      · exact coresAndMemory_moduleEnds hnone h
      · exact h

/-! ## Trap entry -/

/-- What tval takes: what the cause names, or a free value. -/
def trapValue (s : State) (k : Cause) : BitVec 64 := k.2.getD (BitVec.ofNat 64 (s.freeNat (2 ^ 64)))

/-- The state in which a trap that is taken enters its handler, before it ends a module's command. -/
def entered (s : State) (core : Nat) (k : Cause) (extra at_ : Nat) : State :=
  (if k.2.isSome then s else s.spent).upCore core (fun c => c.trapEntry (k.1 + 256 * extra) (trapValue s k) at_ s.now)

theorem onbTrap_of_double {s : State} {core : Nat} (k : Cause) (extra at_ : Nat) (h : (s.core core).wouldDouble = true) :
    s.onbTrap core k extra at_ = s.coreEnds core := if_pos h

theorem onbTrap_of_entered {s : State} {core : Nat} (k : Cause) (extra at_ : Nat) (h : (s.core core).wouldDouble = false) :
    s.onbTrap core k extra at_ =
      if (s.core core).priv then (entered s core k extra at_).moduleTrap core (0xE0 + (s.core core).cls) k.1 extra
      else entered s core k extra at_ := if_neg (Bool.eq_false_iff.mp h)

theorem core_entered_same (s : State) (core : Nat) (k : Cause) (extra at_ : Nat) :
    (entered s core k extra at_).core core = (s.core core).trapEntry (k.1 + 256 * extra) (trapValue s k) at_ s.now := by
  rw [entered, core_upCore_same]
  split <;> rfl

theorem core_entered_other {s : State} {core n : Nat} (k : Cause) (extra at_ : Nat) (h : n ≠ core) :
    (entered s core k extra at_).core n = s.core n := by
  rw [entered, core_upCore_other h]
  split <;> rfl

theorem entered_gddr (s : State) (core : Nat) (k : Cause) (extra at_ : Nat) : (entered s core k extra at_).gddr = s.gddr := by
  unfold entered
  split <;> rfl

theorem entered_cmd (s : State) (core : Nat) (k : Cause) (extra at_ : Nat) : (entered s core k extra at_).cmd = s.cmd := by
  unfold entered
  split <;> rfl

/-- But for local memory, a trap that is taken leaves its core as it entered. -/
theorem bare_onbTrap {s : State} {core : Nat} (k : Cause) (extra at_ : Nat) (h : (s.core core).wouldDouble = false) :
    bare ((s.onbTrap core k extra at_).core core) = bare ((s.core core).trapEntry (k.1 + 256 * extra) (trapValue s k) at_ s.now) := by
  rw [onbTrap_of_entered k extra at_ h, ← core_entered_same]
  split
  · exact coresBut_moduleTrap (fun _ => rfl) core
  · rfl

/-- Outside a module, or with no FW_UNLOAD_MODULE waiting, a trap that is taken changes its core alone. -/
theorem onbTrap_only {s : State} {core : Nat} (k : Cause) (extra at_ : Nat) (h : (s.core core).wouldDouble = false)
    (hnone : (s.core core).priv = false ∨ s.cmd.waiting.any (fun w => w.kind == wUnload) = false) :
    CoresAndMemory (entered s core k extra at_) (s.onbTrap core k extra at_) := by
  rw [onbTrap_of_entered k extra at_ h]
  split
  next hpriv =>
    have hunload := hnone.resolve_left (Bool.not_eq_false _ ▸ hpriv)
    rw [← entered_cmd s core k extra at_] at hunload
    exact coresAndMemory_moduleTrap hunload ⟨rfl, rfl⟩
  next => exact ⟨rfl, rfl⟩

theorem trapEntry_lv_active (c : OnbCore) (code : Nat) (v : BitVec 64) (at_ now i : Nat) : ((c.trapEntry code v at_ now).lv i).active = false := by
  simp only [OnbCore.lv, OnbCore.trapEntry, List.getD_eq_getElem?_getD, List.getElem?_map]
  cases c.loops[i]? <;> rfl

/-- Settles O53: a trap that is taken is the entry, and what follows of it for a module changes local memory at most. -/
theorem trapsSaveAndEnter : Obligations.TrapsSaveAndEnter := by
  rintro core extra at_ k s t c d rfl rfl rfl
  constructor
  · intro hdouble
    refine onbTrap_of_double k extra at_ ?_
    rcases hdouble with hin | hset
    · simp [OnbCore.wouldDouble, hin]
    · simp [OnbCore.wouldDouble, hset]
  · intro hin hset
    have htaken : (s.core core).wouldDouble = false := by simp [OnbCore.wouldDouble, hin, hset]
    have hbare := bare_onbTrap k extra at_ htaken
    generalize hd : (s.onbTrap core k extra at_).core core = d at hbare
    have hfield : ∀ {α} (f : OnbCore → α), (∀ c, f (bare c) = f c) →
        f d = f ((s.core core).trapEntry (k.1 + 256 * extra) (trapValue s k) at_ s.now) :=
      fun f hf => (hf d).symm.trans ((congrArg f hbare).trans (hf _))
    refine ⟨hfield OnbCore.tpc fun _ => rfl, hfield OnbCore.tcause fun _ => rfl, fun v hv => ?_, hfield OnbCore.tloop fun _ => rfl, fun i => ?_,
      hfield OnbCore.ppriv fun _ => rfl, hfield OnbCore.priv fun _ => rfl, hfield OnbCore.inTrap fun _ => rfl, hfield OnbCore.pc fun _ => rfl,
      hfield OnbCore.regs fun _ => rfl, fun hnone => ?_⟩
    · exact (hfield OnbCore.tval fun _ => rfl).trans (by rw [OnbCore.trapEntry, trapValue, hv, Option.getD_some])
    · rw [hfield (fun c => c.lv i) fun _ => rfl]
      exact trapEntry_lv_active _ _ _ _ _ _
    · have hcores := core_of_onb _ _ (onbTrap_only k extra at_ htaken hnone).1
      refine ⟨?_, fun n hn => (hcores n).trans (core_entered_other k extra at_ hn)⟩
      rw [← hd, hcores core, core_entered_same]
      rfl

end Sys2Proof.Proofs


/-!
PROOFS. What an instruction that writes a register or stores to local memory leaves unchanged.
-/
namespace Sys2Proof.Proofs

open Sys2Proof Sys2Proof.Machine Sys2Proof.Safety Sys2Proof.Laws

/-- An instruction waits, takes a trap at its own address, or runs. -/
theorem onbRun_cases {n : Nat} {s t : State} {causes : OnbCore → List Cause} {run : OnbCore → State → State}
    (h : onbRun n s causes run = .next t) : t = s ∨ (∃ k, t = s.onbTrap n k 0 (s.core n).pc) ∨ t = run (s.core n) s := by
  obtain rfl := Host.Outcome.next.inj h
  split
  · dsimp only
    split
    next k _ => exact .inr (.inl ⟨k, rfl⟩)
    next => exact .inr (.inr rfl)
  · exact .inl rfl

/-! ## The next instruction -/

/-- Going on changes the pc and the loop levels alone. -/
theorem loopBack_frame (ks : List Nat) (c : OnbCore) : (loopBack ks c).regs = c.regs ∧ (loopBack ks c).mem = c.mem := by
  induction ks generalizing c with
  | nil => exact ⟨rfl, rfl⟩
  | cons k t ih =>
    simp only [loopBack]
    split
    · split
      · exact ⟨rfl, rfl⟩
      · exact ih _
    · exact ih c

@[simp] theorem advance_mem (c : OnbCore) : c.advance.mem = c.mem := (loopBack_frame _ c).2

@[simp] theorem advance_reg (c : OnbCore) (r : Nat) : c.advance.reg r = c.reg r := by
  rw [OnbCore.reg, OnbCore.reg, OnbCore.advance, (loopBack_frame _ c).1]

@[simp] theorem advance_word (c : OnbCore) (a : Nat) : c.advance.word a = c.word a := by
  rw [OnbCore.word, OnbCore.word, advance_mem]

@[simp] theorem setReg_mem (c : OnbCore) (r : Nat) (w : LWord) : (c.setReg r w).mem = c.mem := by
  unfold OnbCore.setReg
  split <;> rfl

@[simp] theorem setWord_reg (c : OnbCore) (a : Nat) (w : LWord) (r : Nat) : (c.setWord a w).reg r = c.reg r := rfl

theorem word_setWord_ne {c : OnbCore} {a b : Nat} (w : LWord) (h : b / 8 ≠ a / 8) : (c.setWord a w).word b = c.word b := by
  simp only [OnbCore.word, OnbCore.setWord, agetD, aget_aset_other h]

/-! ## Frames -/

/-- GDDR7 and every core but one are as they were, and that one goes from `c` to a core that it stands in a relation to. -/
def CoreFrame (core : Nat) (Q : OnbCore → OnbCore → Prop) (s t : State) : Prop :=
  t.gddr = s.gddr ∧ (∀ n, n ≠ core → t.core n = s.core n) ∧ Q (s.core core) (t.core core)

/-- Every register but one, and local memory, is as it was. -/
def AllBut (rd : Nat) (c d : OnbCore) : Prop := (∀ r, r ≠ rd → d.reg r = c.reg r) ∧ d.mem = c.mem

/-- Every register, and every word but that which holds an address, is as it was. -/
def AllButWord (a : Nat) (c d : OnbCore) : Prop := (∀ r, d.reg r = c.reg r) ∧ ∀ b, b / 8 ≠ a / 8 → d.word b = c.word b

theorem coreFrame_upCore {core : Nat} {Q : OnbCore → OnbCore → Prop} {s t : State} {f : OnbCore → OnbCore} (hgddr : t.gddr = s.gddr)
    (hcore : ∀ n, t.core n = s.core n) (hf : Q (s.core core) (f (s.core core))) : CoreFrame core Q s (t.upCore core f) :=
  ⟨hgddr, fun n hn => (core_upCore_other hn).trans (hcore n), by rw [core_upCore_same, hcore]; exact hf⟩

theorem allBut_of_same (rd : Nat) (c d : OnbCore) (hregs : d.regs = c.regs) (hmem : d.mem = c.mem) : AllBut rd c d :=
  ⟨fun r _ => by rw [OnbCore.reg, OnbCore.reg, hregs], hmem⟩

theorem allBut_setReg (c : OnbCore) (rd : Nat) (w : LWord) : AllBut rd c (c.setReg rd w).advance :=
  ⟨fun r hr => by rw [advance_reg, reg_setReg_ne w hr], by rw [advance_mem, setReg_mem]⟩

theorem allButWord_of_same (a : Nat) (c d : OnbCore) (hregs : d.regs = c.regs) (hmem : d.mem = c.mem) : AllButWord a c d :=
  ⟨fun r => by rw [OnbCore.reg, OnbCore.reg, hregs], fun b _ => by rw [OnbCore.word, OnbCore.word, hmem]⟩

theorem allButWord_setWord (c : OnbCore) (a : Nat) (w : LWord) : AllButWord a c (c.setWord a w).advance :=
  ⟨fun r => by rw [advance_reg, setWord_reg], fun b hb => by rw [advance_word, word_setWord_ne w hb]⟩

section
variable {core : Nat} {s t : State} (hdouble : (s.core core).wouldDouble = false)
  (hunload : (s.core core).priv = false ∨ s.cmd.waiting.any (fun w => w.kind == wUnload) = false)
include hdouble hunload

/-- A trap that is taken keeps every register and local memory. -/
theorem coreFrame_onbTrap {Q : OnbCore → OnbCore → Prop} (hQ : ∀ c d, d.regs = c.regs → d.mem = c.mem → Q c d) (k : Cause) (extra at_ : Nat) :
    CoreFrame core Q s (s.onbTrap core k extra at_) := by
  obtain ⟨honb, hgddr⟩ := onbTrap_only k extra at_ hdouble hunload
  have hcores := core_of_onb _ _ honb
  refine ⟨hgddr.trans (entered_gddr s core k extra at_), fun n hn => (hcores n).trans (core_entered_other k extra at_ hn), ?_⟩
  rw [hcores core, core_entered_same]
  exact hQ _ _ rfl rfl

theorem coreFrame_onbRun {Q : OnbCore → OnbCore → Prop} (hQ : ∀ c d, d.regs = c.regs → d.mem = c.mem → Q c d)
    {causes : OnbCore → List Cause} {run : OnbCore → State → State} (h : onbRun core s causes run = .next t)
    (hrun : CoreFrame core Q s (run (s.core core) s)) : CoreFrame core Q s t := by
  rcases onbRun_cases h with rfl | ⟨k, rfl⟩ | rfl
  · exact ⟨rfl, fun _ _ => rfl, hQ _ _ rfl rfl⟩
  · exact coreFrame_onbTrap hdouble hunload hQ k 0 _
  · exact hrun

theorem coreFrame_onbSeq {Q : OnbCore → OnbCore → Prop} (hQ : ∀ c d, d.regs = c.regs → d.mem = c.mem → Q c d)
    {causes : OnbCore → List Cause} {f : OnbCore → OnbCore} (h : onbSeq core s causes f = .next t)
    (hf : Q (s.core core) (f (s.core core)).advance) : CoreFrame core Q s t :=
  coreFrame_onbRun hdouble hunload hQ h (coreFrame_upCore rfl (fun _ => rfl) hf)

/-- A register instruction. -/
theorem frame_setReg {rd : Nat} {causes : OnbCore → List Cause} {w : OnbCore → LWord}
    (h : onbSeq core s causes (fun c => c.setReg rd (w c)) = .next t) : CoreFrame core (AllBut rd) s t :=
  coreFrame_onbSeq hdouble hunload (allBut_of_same rd) h (allBut_setReg _ rd _)

theorem frame_aluR {rd ra rb : Nat} {tag : BitVec 4 → BitVec 4 → Option (BitVec 4)} {extra : LWord → LWord → List Cause}
    {f : LWord → LWord → BitVec 64} (h : aluR core rd ra rb tag extra f s = .next t) : CoreFrame core (AllBut rd) s t :=
  frame_setReg hdouble hunload h

theorem frame_aluInt {rd ra rb : Nat} {f : BitVec 64 → BitVec 64 → BitVec 64} (h : aluInt core rd ra rb f s = .next t) :
    CoreFrame core (AllBut rd) s t :=
  frame_aluR hdouble hunload h

theorem frame_aluImm {rd ra : Nat} {tag : BitVec 4 → Option (BitVec 4)} {f : BitVec 64 → BitVec 64}
    (h : aluImm core rd ra tag f s = .next t) : CoreFrame core (AllBut rd) s t :=
  frame_setReg hdouble hunload h

theorem frame_narrowLoad {rd ra imm len : Nat} (h : narrowLoad core rd ra imm len s = .next t) : CoreFrame core (AllBut rd) s t :=
  frame_setReg hdouble hunload h

theorem frame_ld64 {rd ra imm : Nat} (h : execLd64 core rd ra imm s = .next t) : CoreFrame core (AllBut rd) s t := by
  refine coreFrame_onbRun hdouble hunload (allBut_of_same rd) h ?_
  dsimp only
  split
  · exact coreFrame_upCore rfl (fun _ => rfl) (allBut_setReg _ rd _)
  · exact coreFrame_upCore rfl (fun _ => rfl) (allBut_setReg _ rd _)

theorem frame_csrr {rd imm : Nat} (h : execCsrr core rd imm s = .next t) : CoreFrame core (AllBut rd) s t :=
  coreFrame_onbRun hdouble hunload (allBut_of_same rd) h (coreFrame_upCore rfl (fun _ => rfl) (allBut_setReg _ rd _))

theorem frame_narrowStore {rs ra imm len : Nat} (h : narrowStore core rs ra imm len s = .next t) :
    CoreFrame core (AllButWord ((s.core core).ea ra imm)) s t :=
  coreFrame_onbSeq hdouble hunload (allButWord_of_same _) h (allButWord_setWord _ _ _)

theorem frame_st64 {rs ra imm : Nat} (h : execSt64 core rs ra imm s = .next t) :
    CoreFrame core (AllButWord ((s.core core).ea ra imm)) s t := by
  refine coreFrame_onbSeq hdouble hunload (allButWord_of_same _) h ?_
  split
  · exact ⟨fun r => advance_reg _ r, fun b _ => advance_word _ b⟩
  · exact allButWord_setWord _ _ _

end

/-- Settles O49: each instruction waits, traps, or changes its core as its kind does. -/
theorem onbusynCoreFrame : Obligations.OnbusynCoreFrame := by
  intro core rd rs ra rb k imm amount tag s t hdouble hunload
  simp only [List.forall_mem_cons, List.not_mem_nil, false_implies, implies_true, and_true]
  exact
    ⟨⟨fun h => frame_aluR hdouble hunload (show execAdd core rd ra rb s = _ from h),
      fun h => frame_aluR hdouble hunload (show execSub core rd ra rb s = _ from h),
      fun h => frame_aluInt hdouble hunload (show execAndR core rd ra rb s = _ from h),
      fun h => frame_aluInt hdouble hunload (show execOrR core rd ra rb s = _ from h),
      fun h => frame_aluInt hdouble hunload (show execXorR core rd ra rb s = _ from h),
      fun h => frame_aluInt hdouble hunload (show execShl core rd ra rb s = _ from h),
      fun h => frame_aluInt hdouble hunload (show execShr core rd ra rb s = _ from h),
      fun h => frame_aluInt hdouble hunload (show execSar core rd ra rb s = _ from h),
      fun h => frame_aluInt hdouble hunload (show execMul core rd ra rb s = _ from h),
      fun h => frame_aluInt hdouble hunload (show execMulhu core rd ra rb s = _ from h),
      fun h => frame_aluR hdouble hunload (show execDivu core rd ra rb s = _ from h),
      fun h => frame_aluR hdouble hunload (show execRemu core rd ra rb s = _ from h),
      fun h => frame_aluInt hdouble hunload (show execMinu core rd ra rb s = _ from h),
      fun h => frame_aluInt hdouble hunload (show execMaxu core rd ra rb s = _ from h),
      fun h => frame_aluImm hdouble hunload (show execMovR core rd ra s = _ from h),
      fun h => frame_aluInt hdouble hunload (show execSltu core rd ra rb s = _ from h),
      fun h => frame_aluImm hdouble hunload (show execAddi core rd ra imm s = _ from h),
      fun h => frame_aluImm hdouble hunload (show execAndi core rd ra imm s = _ from h),
      fun h => frame_aluImm hdouble hunload (show execOri core rd ra imm s = _ from h),
      fun h => frame_aluImm hdouble hunload (show execXori core rd ra imm s = _ from h),
      fun h => frame_aluImm hdouble hunload (show execShiftiShl core rd ra amount s = _ from h),
      fun h => frame_aluImm hdouble hunload (show execShiftiShr core rd ra amount s = _ from h),
      fun h => frame_aluImm hdouble hunload (show execShiftiSar core rd ra amount s = _ from h),
      fun h => frame_setReg hdouble hunload (show execMovz core rd k imm s = _ from h),
      fun h => frame_setReg hdouble hunload (show execMovk core rd k imm s = _ from h),
      fun h => frame_ld64 hdouble hunload (show execLd64 core rd ra imm s = _ from h),
      fun h => frame_narrowLoad hdouble hunload (show execLd32u core rd ra imm s = _ from h),
      fun h => frame_narrowLoad hdouble hunload (show execLd16u core rd ra imm s = _ from h),
      fun h => frame_narrowLoad hdouble hunload (show execLd8u core rd ra imm s = _ from h),
      fun h => frame_setReg hdouble hunload (show execAdr core rd imm s = _ from h),
      fun h => frame_setReg hdouble hunload (show execTagR core rd ra s = _ from h),
      fun h => frame_setReg hdouble hunload (show execRetag core rd ra tag s = _ from h),
      fun h => frame_csrr hdouble hunload (show execCsrr core rd imm s = _ from h)⟩,
     ⟨fun h => frame_st64 hdouble hunload (show execSt64 core rs ra imm s = _ from h),
      fun h => frame_narrowStore hdouble hunload (show execSt32 core rs ra imm s = _ from h),
      fun h => frame_narrowStore hdouble hunload (show execSt16 core rs ra imm s = _ from h),
      fun h => frame_narrowStore hdouble hunload (show execSt8 core rs ra imm s = _ from h)⟩⟩

end Sys2Proof.Proofs


/-!
PROOFS. The command interface: sessions, queue pairs, intermissions, doorbells and commands that come from elsewhere.
-/
namespace Sys2Proof.Proofs

open Sys2Proof Sys2Proof.Machine Sys2Proof.Safety Sys2Proof.Laws

/-- A served packet that answers a STATE of its own: its DETAIL is judged in the state in which the packet begins. -/
theorem runPkt_doneAt {sp : OpSpec} {fn qp : Nat} {h : Hdr} {p : Bytes} {c : Caller} {s b t : State} {status detail result st : Nat}
    (H : served sp fn qp h p c s = true) (hb : b = begun sp fn qp h s) (R : sp.run c h p b = .doneAs status detail result st t) :
    runPkt sp h p s = .next (t.reply h sp.code
      { replyBase sp fn qp h s with status := status, detail := b.okDetail h.unit status detail, st := st, result := result }) := by
  subst hb
  exact runPkt_doneAs H rfl R

/-- Settles O2: each command of Table 3.21 here completes by the branch of its effect that its premises choose. -/
theorem commandInterfaceCommandsComplete : Obligations.CommandInterfaceCommandsComplete := by
  constructor
  · intro fn qp h p c s
    refine ⟨fun H => ?_, fun H b hb hroom => ?_, fun H => ?_, fun H b hb => ⟨fun hk hf => ?_, fun hk hf => ?_⟩, fun H b hb => ?_⟩
    · exact runPkt_ok H rfl rfl
    · have hc := served_chan H
      refine runPkt_done H hb ?_
      simp [opOpenSession, hc, Chan.fn, Nat.not_le.mpr hroom]
    · exact congrArg (thenGoOn s) (runPkt_ok H rfl rfl)
    · exact runPkt_wait H hb (by simp [opSetRoleKey, hk, hf, State.storeCmd])
    · exact runPkt_ok H hb (by simp [opSetRoleKey, hk, hf, Verdict.ok])
    · exact hb ▸ runPkt_ok H rfl rfl
  · intro fn qp h p c s
    refine ⟨fun H b hb k hroom hk hv q hq => ?_, fun H b hb k hk hhas t ht => ?_, fun H b hb hit hhit => ⟨fun hf => ?_, fun f hf t ht => ?_⟩⟩
    · have hc := served_chan H
      exact runPkt_ok H hb (by simp [opCreateQueuePair, hc, Nat.not_le.mpr hroom, hk, Nat.not_le.mpr hv, hq])
    · have hc := served_chan H
      change execDeleteQueuePair h p s = _
      rw [execDeleteQueuePair, runPkt_wait (kind := 3) (aux := k) H hb (by simp [opDeleteQueuePair, hc, ← hk, hhas]; rfl), ht]
    · have hc := served_chan H
      have hfn := served_fn H
      refine congrArg thenUnload (runPkt_ok H hb ?_)
      simp [opAbort, hc, Chan.fn, hfn, ← hhit, hf, Verdict.ok]
    · have hc := served_chan H
      have hfn := served_fn H
      refine congrArg thenUnload (runPkt_done H hb ?_)
      simp [opAbort, hc, Chan.fn, hfn, ← hhit, hf, ht]

/-- Settles O3: an intermission begins, drains, stages and restarts by the branch that its phase chooses. -/
theorem intermissionsAct : Obligations.IntermissionsAct := by
  constructor
  · intro fn qp h p c s
    refine ⟨fun H b hb hno hdev hnone => ?_, fun H b hb r t hr hheld hph hmode hfenced happ hat => ⟨fun hw => ?_, fun hw u hu => ?_⟩,
      fun H b hb r hunit hr hph hheld hrem hfit x hx => ?_⟩
    · refine runPkt_wait H hb ?_
      have hfree : ¬ (h.unit = uDevice ∧ b.cmd.inters ≠ []) := fun hd => hd.2 (hnone hd.1)
      simp [opIntermissionBegin, hno, hdev, hfree]
    · rw [hat] at happ
      exact runPkt_wait H hb (by simp [opIntermissionEnd, hr, hheld, hph, hmode, hfenced, happ, hat, hw])
    · rw [hat] at happ
      exact runPkt_doneAt H hb (by simp [opIntermissionEnd, hr, hheld, hph, hmode, hfenced, happ, hat, hw, hu, b2n])
    · rw [← hunit] at hx ⊢
      refine runPkt_doneAt H hb ?_
      simp [opSetPartitions, settingStop_none hr hph hheld, hrem, hfit, State.setting, hunit, hr, hx]
  · intro scope s r hlive hr
    refine ⟨fun hph hidle t ht => ?_, fun at_ hph hby hat u hu => ?_, fun t hph hcue hat hw hfenced happ => ⟨fun hmw => ?_, fun hmw u hu => ?_⟩⟩
    · change execIntermissionDrained scope s = _
      simp [execIntermissionDrained, onMain, hlive, hr, hph, hidle, ht]
    · change execDrainLimitExpiry scope s = _
      simp [execDrainLimitExpiry, onMain, hlive, hr, hby, hph, hat, hu]
    · change execIntermissionAtReached scope s = _
      simp [execIntermissionAtReached, onMain, hlive, hr, hph, hat, hw, hfenced, happ, hmw]
    · change execIntermissionAtReached scope s = _
      simp [execIntermissionAtReached, onMain, hlive, hr, hph, hcue, hat, hw, hfenced, happ, hmw, hu, b2n]

end Sys2Proof.Proofs


/-!
PROOFS. Doorbells, and the commands that a troupe head or the management network brings.
-/
namespace Sys2Proof.Proofs

open Sys2Proof Sys2Proof.Machine Sys2Proof.Safety Sys2Proof.Laws

/-- A doorbell that is performed has its effect on the state that has counted its payload. -/
theorem bell_of_hostWrites {fn : Nat} {s : State} (off val : Nat) (f : State → State) (h : hostWrites fn s = true) :
    bell s fn off val f = .next (f (s.ao 11 4)) := by
  obtain ⟨hthere, hflr, hfrozen⟩ := hostWrites_eq_true.mp h
  simp [bell, hthere, hflr, hfrozen]

/-- A tail within its queue that does not go back moves the queue pair's tail. -/
theorem sqTail_within {s : State} {fn qp val : Nat} {q : QPair} (hq : aget s.cmd.qps (qpKey fn qp) = some q) (herr : q.err = false)
    (hne : val ≠ q.tail) (hlt : val < q.sqSize)
    (hle : (q.tail + q.sqSize - q.head) % q.sqSize ≤ (val + q.sqSize - q.head) % q.sqSize) :
    s.sqTail fn qp val = s.upQp (qpKey fn qp) (fun q => { q with tail := val, part := false }) := by
  simp [State.sqTail, hq, herr, hne, Nat.not_le.mpr hlt, Nat.not_lt.mpr hle]

/-- A head within its queue that passes no more entries than are unread moves the completion queue's head. -/
theorem cqHeadTo_within {s : State} {fn qp val : Nat} {q : QPair} (hq : aget s.cmd.qps (qpKey fn qp) = some q) (hne : val ≠ q.cqHead)
    (hlt : val < q.cqSize) (hle : (val + q.cqSize - q.cqHead) % q.cqSize ≤ q.unread) :
    s.cqHeadTo fn qp val =
      s.upQp (qpKey fn qp) (fun x => { x with cqHead := val, unread := x.unread - (val + q.cqSize - q.cqHead) % q.cqSize }) := by
  simp [State.cqHeadTo, hq, hne, Nat.not_le.mpr hlt, Nat.not_lt.mpr hle]

theorem exec_sqTailWrite {fn qp : Nat} {val : TailWrite} {s : State} (h : hostWrites fn s = true) :
    exec (.sqTailWrite fn qp val) s =
      match val.other with
      | some c => fetchOther fn qp c ((s.ao 11 4).sqTail fn qp val.idx)
      | none => .next ((s.ao 11 4).sqTail fn qp val.idx) := by
  change execSqTailWrite fn qp val s = _
  rw [execSqTailWrite, bell_of_hostWrites _ _ _ h]
  cases val.other <;> rfl

/-- Settles O4: a doorbell within its queue moves its pointer, and a foreign command is dispatched by its opcode. -/
theorem doorbellsAndForeignCommandsAct : Obligations.DoorbellsAndForeignCommandsAct := by
  constructor
  · intro fn qp val s
    refine ⟨fun H => ⟨fun q hq herr hne hlt hle u hu => ?_, fun q hq hne hlt hle => ?_, fun hen hcfg => ?_, ?_⟩, fun t hlock ht => ?_⟩
    · have htail : (s.ao 11 4).sqTail fn qp val = u := by rw [hu]; exact sqTail_within hq herr hne hlt hle
      refine ⟨(exec_sqTailWrite H).trans (congrArg Host.Outcome.next htail), fun o hchan hrow => ⟨?_, exec_completes _ _⟩⟩
      rw [exec_sqTailWrite H]
      simp [htail, fetchOther, hchan, hrow]
    · change execCqHeadWrite fn qp val s = _
      rw [execCqHeadWrite, bell_of_hostWrites _ _ _ H, cqHeadTo_within (s := s.ao 11 4) hq hne hlt hle]
    · change execCmdCtrlEnSet fn s = _
      rw [execCmdCtrlEnSet, barWrite_of_hostWrites _ _ _ H]
      have hen' : ((s.ao 11 4).fnCmd fn).en = false := hen
      have hcfg' : ((s.ao 11 4).fnCmd fn).cfgOk = true := hcfg
      simp [State.enableCmd, hen', hcfg']
    · change execCmdCtrlEnClear fn s = _
      rw [execCmdCtrlEnClear, barWrite_of_hostWrites _ _ _ H]
      rfl
    · change execLockoutExpiry fn s = _
      simp [execLockoutExpiry, hlock, ht]
  · intro member entry params data readOk s
    refine ⟨fun m hm hhead hmlive hlive himg hgrant hseq h hh p hp hnew => ⟨?_, exec_completes _ _⟩,
      fun sess hrun hsess hkind hlen h hh => ⟨?_, exec_completes _ _⟩, fun m f hlive hm hseq s1 hs1 hf g hg t ht => ?_,
      fun fwd f hlive hf hby => ?_⟩
    · change execForwardedCommand member entry params readOk data s = _
      subst hh hp
      simp only [execForwardedCommand, hm, hhead, hmlive, hlive, himg, hgrant, hnew, hseq]
      simp
    · change execMgmtCommand sess params data s = _
      simp [execMgmtCommand, hrun, hsess, hkind, Nat.not_lt.mpr hlen, hh]
    · change execTroupeMemberReply member entry s = _
      subst hs1 hg ht
      simp only [execTroupeMemberReply, onMain, hlive, if_true, hm, if_neg (not_not_intro hseq), hf]
    · change execTroupeTimeout fwd s = _
      simp only [execTroupeTimeout, onMain, hlive, hf, hby, if_true] <;> rfl
end Sys2Proof.Proofs


/-!
PROOFS. The host's accesses: registers of BAR0, LATCH_VAL in BAR4, and memory through BAR2.
-/
namespace Sys2Proof.Proofs

open Sys2Proof Sys2Proof.Machine Sys2Proof.Safety Sys2Proof.Laws

/-! ## Memory through BAR2 (R29) -/

/-- One byte of a write through BAR2. -/
def bar2Store (s : State) (e : Bar2Byte × Byte) : State :=
  match e.1 with
  | .mem x => s.gWrite x [e.2]
  | _ => s

theorem bar2Store_mem (s : State) (x : Nat) (b : Byte) : (bar2Store s (.mem x, b)).gddr = memSet s.gddr x b := rfl

/-- Bytes that go to one place after another are one write of memory. -/
theorem gddr_foldl_bar2Store (d : Bytes) (x : Nat) (s : State) :
    ((((List.range d.length).map (fun i => Bar2Byte.mem (x + i))).zip d).foldl bar2Store s).gddr = memPut s.gddr x d := by
  induction d generalizing x s with
  | nil => rfl
  | cons b d ih =>
    have hplaces : (List.range (d.length + 1)).map (fun i => Bar2Byte.mem (x + i)) =
        .mem x :: (List.range d.length).map (fun i => Bar2Byte.mem (x + 1 + i)) := by
      simp only [List.range_succ_eq_map, List.map_cons, List.map_map, Nat.add_zero]
      congr 2
      funext i
      simp only [Function.comp, Nat.succ_eq_add_one]
      congr 1
      omega
    rw [List.length_cons, hplaces, List.zip_cons_cons, List.foldl_cons, ih, bar2Store_mem, memPut]

/-- A byte of memory that no byte of the access reaches keeps its contents. -/
theorem memGet_foldl_bar2Store {x : Nat} {l : List (Bar2Byte × Byte)} {s : State} (h : ∀ e ∈ l, e.1 ≠ .mem x) :
    memGet (l.foldl bar2Store s).gddr x = memGet s.gddr x := by
  induction l generalizing s with
  | nil => rfl
  | cons e l ih =>
    have hother : memGet (bar2Store s e).gddr x = memGet s.gddr x := by
      obtain ⟨place, b⟩ := e
      cases place with
      | mem y => exact memGet_memSet_other fun hxy => h _ List.mem_cons_self (congrArg Bar2Byte.mem hxy.symm)
      | resetting => rfl
      | nothing => rfl
    rw [List.foldl_cons, ih fun e he => h e (List.mem_cons_of_mem _ he), hother]

/-- The places of memory that an access of `n` bytes reaches. -/
def bar2Places (s : State) (a : Access) (n : Nat) : List Bar2Byte := (List.range n).map (fun i => s.bar2At a.fn (a.off + i))

section

variable {s t : State} (hglb : t.glb = s.glb) (hras : t.ras = s.ras)
include hglb

theorem partBase_congr : t.partBase = s.partBase := by
  funext p
  cases p <;> simp only [State.partBase, hglb]

include hras

theorem partLen_congr : t.partLen = s.partLen := by
  funext p
  cases p <;> simp only [State.partLen, State.capMib, hglb, hras]

theorem bar2Byte_congr (a : Nat) : t.bar2Byte a = s.bar2Byte a := by
  have hpart : t.partOf a = s.partOf a := by simp only [State.partOf, partBase_congr hglb, partLen_congr hglb hras]
  have hresetting : t.partResetting = s.partResetting := by
    funext p
    simp only [State.partResetting, hras]
  rw [State.bar2Byte, State.bar2Byte, hpart, hresetting]

/-- What BAR2 reaches goes by the layout of memory, the partitions in reset and the ranges of the VFs. -/
theorem bar2At_congr (hhost : t.host = s.host) (fn off : Nat) : t.bar2At fn off = s.bar2At fn off := by
  have hrange : t.stagingRange fn = s.stagingRange fn := by
    simp only [State.stagingRange, partBase_congr hglb, partLen_congr hglb hras, hhost]
  rw [State.bar2At, State.bar2At, bar2Byte_congr hglb hras, bar2Byte_congr hglb hras, hrange, hglb]
end

theorem bar2At_ao (s : State) (n k fn off : Nat) : (s.ao n k).bar2At fn off = s.bar2At fn off :=
  bar2At_congr (State.upObs_glb _ _) (State.upObs_ras _ _) (State.upObs_host _ _) fn off

/-- A write through BAR2 counts what a partition in reset discards, and stores the other bytes. -/
theorem gddr_bar2Write (s : State) (a : Access) :
    ∃ u, u.gddr = s.gddr ∧ s.bar2Write a = ((bar2Places s a a.data.length).zip a.data).foldl bar2Store u := by
  refine ⟨if (bar2Places s a a.data.length).any (fun b => b == .resetting) then
    s.upRas (fun r => { r with cPart := satu 65535 (r.cPart + 1) }) else s, ?_, rfl⟩
  split <;> rfl

theorem bar2Places_eq {s : State} {a : Access} {n x : Nat} (h : ∀ i < n, s.bar2At a.fn (a.off + i) = .mem (x + i)) :
    bar2Places s a n = (List.range n).map (fun i => .mem (x + i)) :=
  List.map_congr_left fun i hi => h i (List.mem_range.mp hi)

theorem map_memGet_range (m : List Host.Cell) (x n : Nat) : (List.range n).map (fun i => memGet m (x + i)) = memTake m x n := by
  induction n generalizing x with
  | zero => rfl
  | succ n ih =>
    rw [List.range_succ_eq_map, List.map_cons, List.map_map, memTake, ← ih (x + 1)]
    simp only [Nat.add_zero, List.cons.injEq, true_and]
    exact List.map_congr_left fun i _ => congrArg (memGet m) (show x + i.succ = x + 1 + i by omega)

/-- A read of bytes that are all memory answers them. -/
theorem bar2Read_mem {s : State} {a : Access} {x : Nat} (h : ∀ i < a.size, s.bar2At a.fn (a.off + i) = .mem (x + i)) :
    s.bar2Read a = ((s.gRead a.size).ao 12 a.size).emit .barRead a.fn a.off 0 (s.mem x a.size) := by
  have hl := bar2Places_eq h
  have hnone : (bar2Places s a a.size).any (fun b => b == .resetting) = false := by simp [hl]
  have hall : ((bar2Places s a a.size).filter (fun b => b != .resetting && b != .nothing)).length = a.size := by
    rw [List.filter_eq_self.mpr (by simp [hl]), hl, List.length_map, List.length_range]
  unfold bar2Places at hl hnone hall
  simp only [State.bar2Read, hnone, hall]
  rw [hl, List.map_map]
  exact congrArg _ (map_memGet_range s.gddr x a.size)

/-! ## An access that is performed -/

theorem exec_bar2Access {a : Access} {s : State} (hheld : s.memHeld = false) (h : hostReads a.fn s = true)
    (hlen : a.off + (if a.wr then a.data.length else a.size) ≤ s.bar2Sized.bar2Len a.fn) :
    exec (.bar2Access a) s =
      .next (if a.wr then (s.bar2Sized.ao 11 a.data.length).bar2Write a else s.bar2Sized.bar2Read a) := by
  obtain ⟨hthere, hflr⟩ := hostReads_eq_true.mp h
  change execBar2Access a s = _
  simp only [execBar2Access, hheld, State.bar2Do, hthere, hflr, Nat.not_lt.mpr hlen]
  cases a.wr <;> rfl

theorem regAccess_some {s : State} {a : Access} (r : Reg) (ha : a.aligned = true) :
    s.regAccess a (some r) = if a.wr then s.regWrite a r else s.regRead a r := by
  simp only [State.regAccess, ha, Bool.not_true, Bool.false_eq_true, if_false]

/-! ## Registers (R27) -/

section

variable {s : State} {a : Access} {r : Reg}

theorem regRead_whole (hsz : a.size = 8) (hloose : r.loose = false) :
    s.regRead a r = (s.ao 12 8).emit .barRead a.fn a.off r.val [] := by
  simp [State.regRead, Reg.now, hsz, hloose]

theorem regRead_loose (hsz : a.size = 8) (hloose : r.loose = true) :
    s.regRead a r = (s.spent.ao 12 8).emit .barRead a.fn a.off (s.freeNat (2 ^ 64) / 2 * 2) [] := by
  simp only [State.regRead, Reg.now, hsz, hloose, if_true]

theorem regRead_low (hsz : a.size = 4) (hlow : a.off % 8 = 0) (hwide : r.wide = true) (hloose : r.loose = false) :
    s.regRead a r = ((s.latchWord a.fn a.off (some (r.val / 2 ^ 32))).ao 12 4).emit .barRead a.fn a.off (r.val % 2 ^ 32) [] := by
  have hoff : a.off / 8 * 8 = a.off := by omega
  simp [State.regRead, Reg.now, hsz, hloose, hwide, hoff]

theorem regRead_high {w : Nat} (hsz : a.size = 4) (hhigh : a.off % 8 = 4) (hwide : r.wide = true) (hloose : r.loose = false)
    (hword : s.latchedWord a.fn (a.off / 8 * 8) = some w) :
    s.regRead a r = ((s.latchWord a.fn (a.off / 8 * 8) none).ao 12 4).emit .barRead a.fn a.off w [] := by
  have hoff : a.off ≠ a.off / 8 * 8 := by omega
  simp [State.regRead, hsz, hloose, hwide, hoff, hword]

theorem regRead_narrow (hsz : a.size = 4) (hwide : r.wide = false) (hloose : r.loose = false) :
    s.regRead a r = (s.ao 12 4).emit .barRead a.fn a.off (if a.off % 8 = 0 then r.val % 2 ^ 32 else r.val / 2 ^ 32) [] := by
  have hoff : a.off = a.off / 8 * 8 ↔ a.off % 8 = 0 := by omega
  simp only [State.regRead, Reg.now, hsz, hloose, hwide, hoff]
  by_cases hlow : a.off % 8 = 0 <;> simp [hlow]

variable {f : State → Nat → State}

theorem regWrite_whole (ha : a.aligned = true) (hsz : a.size = 8) (hwide : r.wide = true) (hput : r.put = some f) :
    s.regWrite a r = f (s.dropHeld a.fn a.off) (a.val % 2 ^ 64) := by
  have hoff : a.off / 8 * 8 = a.off := by
    simp only [Access.aligned, hsz, Bool.and_eq_true, beq_iff_eq] at ha
    omega
  simp [State.regWrite, State.write64, ha, hwide, hput, hsz, orSame, hoff]

theorem regWrite_high (ha : a.aligned = true) (hsz : a.size = 4) (hhigh : a.off % 8 = 4) (hwide : r.wide = true) (hput : r.put = some f) :
    s.regWrite a r = (s.dropHeld a.fn (a.off / 8 * 8)).upGlb
      (fun g => { g with heldHi := g.heldHi ++ [{ fn := a.fn, off := a.off / 8 * 8, val := a.val % 2 ^ 32 }] }) := by
  have hoff : a.off = a.off / 8 * 8 + 4 := by omega
  simp [State.regWrite, State.write64, ha, hwide, hput, hsz, ← hoff]

theorem regWrite_low_held {w : Nat} (ha : a.aligned = true) (hsz : a.size = 4) (hlow : a.off % 8 = 0) (hwide : r.wide = true)
    (hput : r.put = some f) (hword : s.heldWord a.fn a.off = some w) :
    s.regWrite a r = f (s.dropHeld a.fn a.off) (a.val % 2 ^ 32 + 2 ^ 32 * w) := by
  have hoff : a.off / 8 * 8 = a.off := by omega
  simp [State.regWrite, State.write64, ha, hwide, hput, hsz, orSame, hoff, hword]

theorem regWrite_low (ha : a.aligned = true) (hsz : a.size = 4) (hlow : a.off % 8 = 0) (hwide : r.wide = true)
    (hput : r.put = some f) (hword : s.heldWord a.fn a.off = none) :
    s.regWrite a r = f s (a.val % 2 ^ 32 + r.rw / 2 ^ 32 * 2 ^ 32) := by
  have hoff : a.off / 8 * 8 = a.off := by omega
  simp [State.regWrite, State.write64, ha, hwide, hput, hsz, orSame, hoff, hword]

theorem regWrite_narrow (hsz : a.size = 4) (hlow : a.off % 8 = 0) (hwide : r.wide = false) (hput : r.put = some f) :
    s.regWrite a r = f s (a.val % 2 ^ 32) := by
  simp [State.regWrite, hwide, hput, hsz, hlow, orSame]

/-- A read of LATCH_VAL by the function that owns the latch. -/
theorem bar4Read_latch {n : Nat} (hsize : a.size = 8) (hoff : a.off % 64 = 0) (hwin : 0x00100000 ≤ a.off)
    (hlat : s.latNamed a.fn ((a.off - 0x00100000) / 64) = some n) (hown : (s.cell n).owner = a.fn) :
    s.bar4Read a = (s.ao 12 8).emit .barRead a.fn a.off (s.cell n).val [] := by
  have hcell : a.off % 64 < 8 := by omega
  have hlow : a.off % 8 = 0 := by omega
  simp only [State.bar4Read, if_neg (Nat.not_lt.mpr hwin), hlat, hown, hcell, hlow, hsize, and_self, if_true]

end

/-- Settles O5, register by register of the cases of R27, and byte by byte of BAR2. -/
theorem hostAccessesPerformed : Obligations.HostAccessesPerformed := by
  intro a s
  refine ⟨fun hbar hoff => ⟨fun H hr ha => ⟨fun hnone => ?_, fun r hreg => ?_⟩, fun H hr ha => ?_, fun H hw t ht => ?_⟩,
    fun hbar H hr hsize hoff hwin n hlat hown => ?_, fun hheld => ?_, fun H hheld t ht x hplaces => ⟨fun hr hlen => ?_, fun hw hlen => ?_⟩⟩
  · rw [exec_registerWrite_read hbar hoff hr H, hnone, regAccess_reserved_read s ha hr]
  · rw [exec_registerWrite_read hbar hoff hr H, hreg, regAccess_some r ha, if_neg (by simp [hr])]
    exact ⟨fun hsz hloose => congrArg _ (regRead_whole hsz hloose), fun hsz hloose => congrArg _ (regRead_loose hsz hloose),
      fun hsz hlow hwide hloose => congrArg _ (regRead_low hsz hlow hwide hloose),
      fun w hsz hhigh hwide hloose hword => congrArg _ (regRead_high hsz hhigh hwide hloose hword),
      fun hsz hwide hloose => congrArg _ (regRead_narrow hsz hwide hloose)⟩
  · rw [exec_registerWrite_read hbar hoff hr H]
    simp [State.regAccess, ha, hr, State.accessError]
  · rw [exec_registerWrite_write hbar hoff hw H, ← ht]
    refine ⟨fun ha => ?_, fun ha => ⟨fun hnone => ?_, fun r f hreg hput => ?_⟩⟩
    · simp [State.regAccess, ha, hw, State.accessError]
    · rw [hnone, regAccess_reserved_write _ ha hw]
    · rw [hreg, regAccess_some r ha, if_pos hw]
      exact ⟨fun hsz hwide => congrArg _ (regWrite_whole ha hsz hwide hput),
        fun hsz hhigh hwide => congrArg _ (regWrite_high ha hsz hhigh hwide hput),
        fun w hsz hlow hwide hword => congrArg _ (regWrite_low_held ha hsz hlow hwide hput hword),
        fun hsz hlow hwide hword => congrArg _ (regWrite_low ha hsz hlow hwide hput hword),
        fun hsz hlow hwide => congrArg _ (regWrite_narrow hsz hlow hwide hput)⟩
  · rw [exec_registerWrite, execRegisterWrite, barAccess_read _ hr H, bar4Read_latch hsize hoff hwin hlat hown]
    simp [hbar, hr]
  · change execBar2Access a s = _
    simp only [execBar2Access, hheld, if_true]
  · subst ht
    rw [exec_bar2Access hheld H (by simpa [hr] using hlen), if_neg (by simp [hr])]
    exact congrArg Host.Outcome.next (bar2Read_mem (by simpa [hr] using hplaces))
  · subst ht
    obtain ⟨u, hu, hwrite⟩ := gddr_bar2Write (s.bar2Sized.ao 11 a.data.length) a
    rw [if_pos hw] at hplaces
    have hall : bar2Places (s.bar2Sized.ao 11 a.data.length) a a.data.length = _ := 
      bar2Places_eq (x := x) fun i hi => (bar2At_ao _ _ _ _ _).trans (hplaces i hi)
    have hgddr : ((s.bar2Sized.ao 11 a.data.length).bar2Write a).gddr = memPut s.gddr x a.data := by
      rw [hwrite, hall, gddr_foldl_bar2Store, hu]
      rfl
    refine ⟨_, exec_bar2Access hheld H (by rwa [if_pos hw]), ?_, fun y hy => ?_⟩
    · rw [if_pos hw, State.mem, hgddr, memTake_memPut_same]
    · rw [if_pos hw, mem_one, mem_one, hgddr, memGet_memPut_other hy]

end Sys2Proof.Proofs


/-!
PROOFS. The cue: its commands, the frames that it takes, and what happens as time passes.
-/
namespace Sys2Proof.Proofs

open Sys2Proof Sys2Proof.Machine Sys2Proof.Safety Sys2Proof.Laws

/-- Settles O6: each command completes by the branch of its effect that its premises choose. -/
theorem cueCommandsComplete : Obligations.CueCommandsComplete := by
  intro fn qp h p c s
  refine ⟨fun H b hb src hsrc => ?_, fun H b hb e he i hi hlt hnew hquota hkind hact htarget => ?_, fun H b hb e he hfn => ⟨fun hdue => ?_, fun hdue => ?_⟩⟩
  · exact runPkt_ok H hb (by simp only [opSetCueSource, Verdict.ok, hsrc])
  · subst hi
    have hslot : fld p 0 4 ≠ 0xFFFFFFFF := by omega
    have hnone : ¬ (e.kind = 0 ∧ b.cue.st = .none) := fun hn => (hkind hn.1).1 hn.2
    have hahead : ¬ (e.kind = 0 ∧ e.target ≤ b.cue.pos) := fun hn => Nat.not_le.mpr (hkind hn.1).2 hn.2
    refine runPkt_done H hb ?_
    simp only [opCueEventSet, ← he, if_neg hnone, if_neg hslot, hnew, if_neg hahead, hact]
    simp [Nat.not_le.mpr hquota, Nat.not_le.mpr htarget]
  · exact runPkt_done H hb (by simp [opCueEventClear, he, hfn, hdue])
  · exact runPkt_done H hb (by simp [opCueEventClear, he, hfn, hdue])

theorem onMain_of_live {s : State} (f : State → State) (h : s.live = true) : onMain s f = .next (f s) := by
  simp only [onMain, h, if_true]

theorem onMainIf_of_live {s : State} {p : Bool} (f : State → State) (h : s.live = true) (hp : p = true) : onMainIf s p f = .next (f s) := by
  simp only [onMainIf, h, hp, Bool.and_self, if_true]

/-- No generation lies ahead of itself. -/
theorem genAhead_self (g : Nat) : genAhead g g = false := by
  simp [genAhead]

/-! ## Frames and writes -/

theorem exec_positionFrame {frame : Nat} {s : State} (hlive : s.live = true) (hsrc : s.cue.src = .serial) (hok : serialOk frame true = true)
    (htype : bits frame 60 4 = 1) (hdue : s.cue.firstDue = false) (hgen : bits frame 52 8 = s.cue.fieldGen) :
    exec (.positionFrame frame true) s =
      .next (s.cueFrame ((s.cue.highAt (bits frame 28 24) * 16777216 + bits frame 28 24) * 65536 + bits frame 12 16) (bit frame 8)
        (fun c => c.tookLow (bits frame 28 24))) := by
  change execPositionFrame frame true s = _
  rw [execPositionFrame, onSource, onMainIf_of_live _ hlive (by simp [hsrc])]
  simp [hok, htype, hdue, hgen, genAhead_self]

theorem exec_epochFrame {frame : Nat} {s : State} (hlive : s.live = true) (hsrc : s.cue.src = .serial) (hok : serialOk frame true = true)
    (htype : bits frame 60 4 = 2) (hdue : s.cue.firstDue = false) (hgen : bits frame 52 8 = s.cue.fieldGen) :
    exec (.epochFrame frame true) s =
      .next ((s.upCue (fun c => { c.extend (bits frame 36 16) with lastValid := s.now })).cueTryLock) := by
  change execEpochFrame frame true s = _
  rw [execEpochFrame, onSource, onMainIf_of_live _ hlive (by simp [hsrc])]
  simp [hok, htype, hdue, hgen, genAhead_self]

theorem exec_cueSwPosWrite {a : Access} {s : State} (H : hostWrites 0 s = true) (hwr : a.wr = true) (hfn : a.fn = 0) (hbar : a.bar = 0)
    (hoff : a.off = 0x00100028) (hsize : a.size = 8) (hval : a.val < 2 ^ 64) (hsrc : s.cue.src = .software) (hdue : s.cue.firstDue = false)
    (hgen : bits a.val 56 8 = s.cue.fieldGen) (hpos : s.cue.pos ≤ a.val % 2 ^ 56) :
    exec (.cueSwPosWrite a) s = .next (((s.ao 11 8).dropHeld 0 0x00100028).cueMove (a.val % 2 ^ 56)) := by
  change execCueSwPosWrite a s = _
  have haligned : a.aligned = true := by simp [Access.aligned, hsize, hoff]
  have hv : a.val % 2 ^ 64 = a.val := Nat.mod_eq_of_lt hval
  have hu : ((s.ao 11 8).dropHeld 0 0x00100028).cue = s.cue := rfl
  rw [execCueSwPosWrite, hfn, hsize, barWrite_of_hostWrites _ _ _ H]
  simp only [hwr, hbar, hoff, State.write64, haligned, hsize, hfn, hv, hu, hsrc, hdue, hgen, genAhead_self,
    if_neg (Nat.not_lt.mpr hpos)]
  simp

theorem exec_ethCueFrame {bytes : Bytes} {s v : State} {m : Member} (hlive : s.live = true) (hm : s.member 0 = some m) (hmlive : m.live = true)
    (hseq : fld bytes 24 8 = (m.cueIn + 1) % 2 ^ 64) (hsrc : s.cue.src = .eth) (htype : fld bytes 0 1 = 1)
    (hunc : fld bytes 4 4 ≤ s.cue.maxUnc) (hdue : s.cue.firstDue = false) (hgen : fld bytes 15 1 = s.cue.gen)
    (hv : v = (s.upMember 0 (fun x => { x with cueIn := fld bytes 24 8 })).upCue (fun c => { c with hops := fld bytes 2 1, unc := fld bytes 4 4 })) :
    exec (.ethCueFrame bytes) s = .next (v.cueFrame (v.cue.advanced (fld bytes 8 7)) (bit (fld bytes 1 1) 0) id) := by
  change execEthCueFrame bytes s = _
  have hu : (s.upMember 0 (fun x => { x with cueIn := fld bytes 24 8 })).cue = s.cue := rfl
  have hvdue : v.cue.firstDue = false := by rw [hv]; exact hdue
  have hvgen : v.cue.gen = s.cue.gen := by rw [hv]; rfl
  rw [execEthCueFrame, onMain_of_live _ hlive]
  simp only [hm, hmlive, if_neg (not_not_intro hseq), hu, hsrc, htype, Nat.not_lt.mpr hunc, ← hv, hvdue, hvgen, hgen]
  simp

/-! ## What the cue block does of itself -/

theorem exec_cueEventFire {s t : State} {i k : Nat} {e x : CueEvent} (hlive : s.live = true) (he : s.cueNext (fun _ => true) = some (i, e))
    (ht : t = if e.kind = 0 then s.cueTo (e.target - 1 : Int) (e.target - 1 : Int) else s)
    (hx : t.cueNext (fun _ => true) = some (k, x)) : exec .cueEventFire s = .next (t.cueFire k x) := by
  change execCueEventFire s = _
  rw [execCueEventFire, onMain_of_live _ hlive]
  simp only [he, ← ht, hx]

/-- Settles O7: what the cue takes by its source and generation, and what it does of itself once its time has come. -/
theorem cueActs : Obligations.CueActs := by
  constructor
  · intro frame bytes a s
    refine ⟨fun hlive hsrc hok => ⟨fun htype hdue hgen low hlow high hhigh => ?_, exec_epochFrame hlive hsrc hok⟩,
      fun m hlive hm hmlive hseq hsrc htype hunc hdue hgen v => exec_ethCueFrame hlive hm hmlive hseq hsrc htype hunc hdue hgen,
      exec_cueSwPosWrite⟩
    have hat : high = s.cue.highAt low := by
      rw [hhigh]
      rfl
    rw [exec_positionFrame hlive hsrc hok htype hdue hgen, ← hlow, hat]
  · intro ticks s
    refine ⟨fun i e hlive he hkind => exec_cueEventFire hlive he (if_neg hkind).symm he,
      fun i e hlive he hkind t ht k x hx => exec_cueEventFire hlive he (by rw [if_pos hkind, ht]) hx, fun hlive hat hsrc body hbody => ?_,
      fun m hlive hat hm hmlive hecho => ?_, fun m at_ hlive hm hecho u hu => ?_, fun hlive hst hsrc hlast => ?_, fun hlive hst hhold => ?_,
      fun hpow htab => ?_, fun hpow htab hlink => ⟨fun hset hticks => ?_, fun hset hticks => ?_⟩⟩
    · change execCueFrameEmit s = _
      rw [execCueFrameEmit, onMainIf_of_live _ hlive (by simpa using hat), hbody]
      simp [hsrc]
    · change execPathDelayEcho s = _
      rw [execPathDelayEcho, onMainIf_of_live _ hlive (by simpa using hat)]
      simp [hm, hmlive, hecho]
    · change execEchoReadResponse s = _
      rw [execEchoReadResponse, onMain_of_live _ hlive]
      simp only [hm, hecho, ← hu]
    · change execCueHoldoverTimeout s = _
      rw [execCueHoldoverTimeout, onMainIf_of_live _ hlive (by simp [hst, hsrc, hlast])]
    · change execCueHoldExpiry s = _
      rw [execCueHoldExpiry, onMainIf_of_live _ hlive (by simp [hst, hhold])]
    · change execCueInterpolate ticks s = _
      rw [execCueInterpolate, onAlways_of_powered _ hpow]
      simp [htab]
    · change execPtmExchange ticks s = _
      rw [execPtmExchange, onAlways_of_powered _ hpow]
      simp only [hlink, htab, hset, Nat.mod_eq_of_lt hticks]
      simp
    · change execPtmExchange ticks s = _
      rw [execPtmExchange, onAlways_of_powered _ hpow]
      simp only [hlink, htab, hset, Nat.mod_eq_of_lt hticks]
      simp

end Sys2Proof.Proofs


/-!
PROOFS. Storage: NVMe commands, the controller's registers, the storage engine's steps and the class 0x09 commands.
-/
namespace Sys2Proof.Proofs

open Sys2Proof Sys2Proof.Machine Sys2Proof.Safety Sys2Proof.Laws

/-! ## Commands that a controller fetches -/

section

variable {n : NvmeCmd} {s t : State} (hpsdt : n.psdt = 0) (ht : s.nvmeFetch n = some t)
include hpsdt ht

theorem nvmeAdmin_fetched (f : State → State) (hq : n.sqid = 0) : nvmeAdmin n s f = .next (f t) := by
  simp [nvmeAdmin, hq, ht, hpsdt]

theorem nvmeIo_fetched (f : State → State) (hq : n.sqid ≠ 0) (hheld : t.ctrlHeld n.fn = false)
    (hnew : (s.ctrl n.fn).ops.any (fun o => o.kind == .held && o.cmd == n) = false)
    (hnone : (t.ctrl n.fn).ops.any (fun o => o.kind == .held) = false) : nvmeIo n s f = .next (f t) := by
  simp only [nvmeIo, if_neg hq, hnew, ht, hpsdt, hheld, hnone]
  simp

end

theorem needsDown_online {x : Ns} (h : x.st = .online) (first count : Nat) : x.needsDown first count = false := by
  simp [Ns.needsDown, h]

theorem ioCheck_ok {s : State} {n : NvmeCmd} {x : Ns} {slba nlb : Nat} (hx : s.nsFor n.fn n.nsid = some x) (hcap : slba + nlb ≤ x.capacity) :
    s.ioCheck n slba nlb = .ok x := by
  simp only [State.ioCheck, hx, if_neg (Nat.not_lt.mpr hcap)]

/-- What stays of device time where an operation does not reach the always-on domain. -/
theorem keeps_now {s : State} (m : Nat) (e : spares m .aon = true := by decide) : Keeps (fun t => t.now = s.now) m :=
  keeps_of_spared m .aon (fun t u haon ht => by
    change u.aon = t.aon at haon
    rw [State.now, haon]
    exact ht) e

/-- Handing blocks to the host takes no device time. -/
theorem now_foldl_prpWrite (l : List (Nat × Bytes)) (s : State) (n : NvmeCmd) (len : Nat) (place : Nat → Nat) :
    (l.foldl (fun v e => v.prpWrite 3 n len (place e.1) e.2) s).now = s.now := by
  induction l generalizing s with
  | nil => rfl
  | cons e l ih =>
    rw [List.foldl_cons, ih]
    exact keeps_prpWrite (P := fun t => t.now = s.now) (keeps_now _) rfl

theorem now_prpList (s : State) (n : NvmeCmd) (len : Nat) : (s.prpList n len).now = s.now :=
  keeps_prpList (P := fun t => t.now = s.now) (keeps_now _) rfl

/-- A READ that the write buffer answers whole: nothing is fetched, and no lost block refuses it. -/
theorem read_buffered {n : NvmeCmd} {t : State} {x : Ns} {first count : Nat} (hlost : x.lost = [])
    (hhit : secRuns (fun i => !(t.wbSector x.ctrl x.nsid i).isSome) first count = []) :
    t.readPlan x first count = ((List.range' first count).filterMap (fun i => (t.wbSector x.ctrl x.nsid i).map (fun b => (i, b))), []) ∧
      t.readStop x n.slba n.nlb [] = none := by
  have hnone : (fun i => (t.wbSector x.ctrl x.nsid i).isNone) = (fun i => !(t.wbSector x.ctrl x.nsid i).isSome) :=
    funext fun i => by cases t.wbSector x.ctrl x.nsid i <;> rfl
  exact ⟨by rw [State.readPlan, hnone, hhit, List.flatMap_nil], by simp [State.readStop, hlost]⟩

/-- Settles O8, command by command of Table 4.1. -/
theorem nvmeCommandsComplete : Obligations.NvmeCommandsComplete := by
  constructor
  · intro n s t hsq hpsdt ht q hq c hc
    have admin := fun f => nvmeAdmin_fetched (s := s) (n := n) hpsdt ht f hsq
    subst hq hc
    refine ⟨fun x hx hne => ?_, fun hne hgrant hpos hmax hpc => ⟨fun hnew hcq hthere x hx => ?_, fun hnew hvec x hx => ?_⟩,
      fun hne hthere hfree => ?_, fun hlid hrae len hlen => ?_, fun hcns => ?_, fun o ho hkind => ?_, fun hfid => ?_, fun hfid hgrant => ?_,
      fun hroom hpend => ?_⟩
    · change execDeleteIoSq n s = _
      rw [execDeleteIoSq, admin]
      simp only [hx, if_neg hne]
    · change execCreateIoSq n s = _
      rw [execCreateIoSq, admin]
      simp [hne, Nat.not_lt.mpr hgrant, hnew, Nat.ne_of_gt hpos, Nat.not_lt.mpr hmax, hpc, Nat.ne_of_gt hcq, Option.isSome_iff_ne_none.mp hthere, hx]
    · change execCreateIoCq n s = _
      rw [execCreateIoCq, admin]
      simp [hne, Nat.not_lt.mpr hgrant, hnew, Nat.ne_of_gt hpos, Nat.not_lt.mpr hmax, hpc, Nat.not_le.mpr hvec, hx]
    · change execDeleteIoCq n s = _
      rw [execDeleteIoCq, admin]
      simp only [hfree, hne, Option.isNone_iff_eq_none, Option.isSome_iff_ne_none.mp hthere]
      simp
    · change execGetLogPage n s = _
      rw [execGetLogPage, admin]
      simp [hlid, hrae, hlen]
    · change execIdentify n s = _
      rw [execIdentify, admin]
      simp [hcns]
    · change execNvmeAbort n s = _
      rw [execNvmeAbort, admin]
      simp [ho, hkind]
    · change execSetFeatures n s = _
      rw [execSetFeatures, admin]
      simp [hfid]
    · change execGetFeatures n s = _
      rw [execGetFeatures, admin]
      simp [hfid, Nat.ne_of_gt hgrant]
    · change execAsyncEventRequest n s = _
      rw [execAsyncEventRequest, admin]
      simp [Nat.not_le.mpr hroom, hpend]
  · intro n s t hsq hpsdt ht hheld hnew hnone x hx hst first hfirst count hcount u hu
    have io := fun f => nvmeIo_fetched (s := s) (n := n) hpsdt ht f hsq hheld hnew hnone
    have hdown := needsDown_online hst
    refine ⟨fun hmode hall => ?_, fun hcap hlen hok => ⟨fun hroom => ?_, fun hroom => ?_⟩, fun hcap => ?_,
      fun hcap hlen hlost _ hhit => ?_, fun hdeal hok hranges => ?_⟩
    · change execFlush n s = _
      rw [execFlush, io]
      simp [hall, hx, hst, hmode]
    · change execWrite n s = _
      rw [execWrite, io]
      simp only [ioCheck_ok hx hcap, ← hfirst, ← hcount, if_neg (Nat.not_lt.mpr hlen), hst, hdown, ← hu, hok, hroom]
      simp
    · change execWrite n s = _
      rw [execWrite, io]
      simp only [ioCheck_ok hx hcap, ← hfirst, ← hcount, if_neg (Nat.not_lt.mpr hlen), hst, hdown, ← hu, hok, hroom]
      simp
    · change execWriteZeroes n s = _
      rw [execWriteZeroes, io]
      simp only [ioCheck_ok hx hcap, ← hfirst, ← hcount, hst, hdown]
      simp
    · change execRead n s = _
      rw [execRead, io]
      obtain ⟨hplan, hstop⟩ := read_buffered (n := n) hlost hhit
      simp only [ioCheck_ok hx hcap, ← hfirst, ← hcount, if_neg (Nat.not_lt.mpr hlen), hplan, hstop, List.isEmpty_nil, if_true, State.wbUse]
      rw [now_foldl_prpWrite _ _ _ _ (fun k => 512 * (k - first)), now_prpList]
    · change execDatasetManagement n s = _
      rw [execDatasetManagement, io]
      have hfit : (dsmRanges n).any (fun r => decide (x.capacity < r.1 + r.2)) = false := by
        simpa [List.all_eq_true] using hranges
      simp only [hx, hdeal, hok, hfit, hdown]
      simp

/-! ## Registers -/

/-- A state in which the host link is up and the main domain runs. -/
def hostLinked : State :=
  { State.reset with aon := { State.reset.aon with mainPhase := .ready, hostLink := true } }

/-- CC of the PF's controller in the state that an outcome answers. -/
def ccAfter (r : Res) : Nat :=
  match r with
  | .next t => (t.ctrl 0).cc
  | _ => 0

/-- A write of CC that asks for a shutdown is read back from CC. -/
theorem ccAfter_nvmeShutdown : ccAfter (exec (.nvmeShutdown 0 16384) hostLinked) = 16384 := by decide

/-- Refutes O9: NVME_SHUTDOWN writes CC, and CC then holds what was written (R123), where the statement's clause leaves CC as it was. -/
theorem not_storageEngineActs : ¬ Obligations.StorageEngineActs := by
  intro h
  obtain ⟨hregs, -⟩ := h
  obtain ⟨-, -, hshutdown, -, -⟩ := hregs 0 16384 0 0 hostLinked (by decide) _ rfl _ rfl
  have hcc := ccAfter_nvmeShutdown
  rw [hshutdown (by decide)] at hcc
  exact absurd hcc (by decide)

/-! ## Class 0x09 -/

/-- Settles O10: each command completes by the branch of its effect that its premises choose. -/
theorem storageCommandsComplete : Obligations.StorageCommandsComplete := by
  intro fn qp h p data c s
  refine ⟨fun H b hb k l t hk q hq hl x hx => ?_, fun H b hb x hx hlive hfree => ?_,
    fun H b hb ids hids hen hcnt hlba hkey hwant hnew htarget hsec hroom hmode x hx => ?_, fun H b hb x hx hst => ?_,
    fun H b hb u hu r x hr hph hheld hx y hy => ?_, fun H b hb hsum => ?_, fun H b hb x hx => ?_,
    fun H b hb x hx hst bad hbad lost hlost t ht => ?_⟩
  · exact runPkt_wait H hb (by simp only [opConnectTarget, hk, ← hq, hl, hx])
  · exact runPkt_ok H hb (by simp only [opDisconnectTarget, hx, hlive, hfree]; simp [Verdict.ok])
  · obtain ⟨f, hf⟩ := Option.isSome_iff_exists.mp (List.find?_isSome.mpr (List.any_eq_true.mp hroom))
    have hfn : ¬ (fld p 2 1 = 0 ∧ (b.ctrl (fld p 0 2)).quotaMib = 0) := by simp [hmode]
    have hwanted : ¬ (fld p 8 4 ≠ 0 ∧ ids.contains (fld p 8 4) = true) := by simp only [hnew]; simp
    have hbacks : ((List.range 1).find? fun i =>
        !((aget b.sto.targets (fld p (16 + 16 * i) 2)).any (fun t => t.live)) || (backInfo data i).2 == 0) = none := by
      simp [List.range_one, htarget, backInfo, hsec]
    refine runPkt_ok H hb ?_
    simp only [opAttachNamespace, ← hids, hf, if_neg hfn, hen, hkey, hlba, if_neg hwanted, hcnt, hbacks]
    simp [List.range_one, backInfo, hsec, hwant, hmode, hx]
  · change execDetachNamespace h p s = _
    rw [execDetachNamespace, runPkt_wait (kind := wDetach) (aux := nsKey (fld p 0 2) (fld p 4 4)) H hb (by simp [opDetachNamespace, hx, hst]; rfl)]
  · refine runPkt_doneAt H hb ?_
    subst hu
    simp [opSetNsMode, settingStop_none hr hph hheld, hx, State.setting, hr, hy]
  · exact runPkt_ok H hb (by simp [opSetWbQuota, Nat.not_lt.mpr hsum, Verdict.ok])
  · exact runPkt_ok H hb (by simp [opGetNsStatus, hx])
  · exact runPkt_ok H hb (by simp only [opDiscardDirty, hx, hst, ← hbad, ← hlost, ← ht]; simp [Verdict.ok])

end Sys2Proof.Proofs


/-!
PROOFS. The network: ports, packets, queue pairs, troupe links and the class 0x06 commands.
-/
namespace Sys2Proof.Proofs

open Sys2Proof Sys2Proof.Machine Sys2Proof.Safety Sys2Proof.Laws

/-! ## Packets -/

theorem onQpn_of_qp {s : State} {qpn : Nat} {q : Qp} (f : State → Qp → State) (hlive : s.live = true) (hq : s.qp qpn = some q) :
    onQpn s qpn f = .next (f s q) := by
  rw [onQpn, onMain_of_live _ hlive]
  simp only [hq]

theorem onMemory_of_free {s : State} (u : HeldUse) (f : State → State) (hlive : s.live = true) (hfree : s.memHeld = false) :
    onMemory s u f = .next (f s) := by
  rw [onMemory, onMain_of_live _ hlive, if_neg (by simp [hfree])]

theorem onMemory_of_held {s : State} (u : HeldUse) (f : State → State) (hlive : s.live = true) (hheld : s.memHeld = true) :
    onMemory s u f = .next (s.upRas (fun r => { r with heldUses := r.heldUses ++ [u] })) := by
  rw [onMemory, onMain_of_live _ hlive, if_pos hheld]

section

variable {s s1 : State} {pkt : RdmaPkt} {q : Qp} (hq : s.qp pkt.qpn = some q) (hcrc : pkt.crcOk = true)
  (hs1 : s1 = (if pkt.ecn then (s.ctxUses q.ctxs).ecnSeen pkt.qpn else s.ctxUses q.ctxs))
include hq hcrc hs1

/-- A packet that its queue pair takes acts on the state in which its contexts are used and its congestion mark is answered. -/
theorem takePacket_taken {ok : Qp → Bool} (f : State → Qp → State) (hok : ok q = true) : s.takePacket pkt ok f = f s1 q := by
  simp only [State.takePacket, hq, hok, hcrc, Bool.and_self, if_true, hs1]

end

/-- Settles O11: each event of a port, and each packet by the branch that its queue pair and region choose. -/
theorem portsAndPacketsAct : Obligations.PortsAndPacketsAct := by
  refine ⟨fun port n val s => ⟨fun hlive hport hst => ?_, fun hlive hup => ⟨fun u hu => ?_, fun hfec => ?_⟩, fun H => ?_⟩,
    fun pkt s hlive hheld held hh => ?_, fun pkt s q hlive hq hcrc s1 hs1 => ⟨fun hfree haccepts hplain hpsn hmax => ⟨?_, ?_⟩, fun hrts => ⟨?_, ?_⟩, ?_⟩⟩
  · change execLinkUp port s = _
    rw [execLinkUp, onMainIf_of_live _ hlive (by simpa [hport] using hst)]
  · change execLinkDown port s = _
    rw [execLinkDown, onMainIf_of_live _ hlive hup, hu]
  · change execFecDegrade port n s = _
    rw [execFecDegrade, onMainIf_of_live _ hlive (by simp [hup, hfec])]
  · change execNetEvqHeadWrite val s = _
    rw [execNetEvqHeadWrite, barWrite_of_hostWrites _ _ _ H]
  · rw [hh]
    exact ⟨onMemory_of_held (.write pkt) (fun t => t.packetWrite pkt) hlive hheld,
      onMemory_of_held (.readReq pkt) (fun t => t.packetReadRequest pkt) hlive hheld,
      onMemory_of_held (.readResp pkt) (fun t => t.packetReadResponse pkt) hlive hheld⟩
  · intro a hop hrx hpay htotal ha m hm
    change execRdmaWriteReceived pkt s = _
    rw [execRdmaWriteReceived, onMemory_of_free _ _ hlive hfree, State.packetWrite, takePacket_taken hq hcrc hs1 _ haccepts]
    have hmsg : ¬ maxMessage < pkt.total := Nat.not_lt.mpr hmax
    simp [hop, hplain, State.plainWrite, hpsn, hrx, hmsg, htotal.symm, ha, hpay, hm]
  · intro a ha t ht
    change execRdmaReadRequest pkt s = _
    rw [execRdmaReadRequest, onMemory_of_free _ _ hlive hfree, State.packetReadRequest, takePacket_taken hq hcrc hs1 _ haccepts]
    have hmsg : ¬ maxMessage < pkt.total := Nat.not_lt.mpr hmax
    simp [State.readRequest, hplain, hpsn, hmsg, ha, ht]
  · intro m hfree hm hnew hplain hlast o ho
    change execRdmaReadResponse pkt s = _
    rw [execRdmaReadResponse, onMemory_of_free _ _ hlive hfree, State.packetReadResponse, takePacket_taken hq hcrc hs1 _ (by simp [hrts])]
    simp only [State.readResponse, hm, hnew, hplain, ← ho]
    simp [Nat.not_lt.mpr hlast]
  · intro hsyn hmap
    change execAckReceived pkt s = _
    rw [execAckReceived, onPacket, onMain_of_live _ hlive, takePacket_taken hq hcrc hs1 _ (by simp [hrts])]
    simp [hsyn, hmap]
  · intro hrec hepoch
    change execRecoverReceived pkt s = _
    rw [execRecoverReceived, onQpn_of_qp _ hlive hq]
    simp [hcrc, Nat.not_lt.mpr hepoch, hrec]

/-! ## Queue pairs and troupe links -/

/-- Settles O12: each timer, recovery and exchange by the branch that its queue pair or link chooses. -/
theorem queuePairsAndLinksAct : Obligations.QueuePairsAndLinksAct := by
  constructor
  · intro qpn path s q hlive hq
    refine ⟨?_, fun hrts hopen hretry => ?_, fun haccepts hspray => ?_,
      fun herr hauto hgiven => ⟨fun hattempt hat => ?_, fun hlo hhi hat => ?_⟩,
      fun hrec => ⟨?_, fun hat u hu => ⟨fun hmore => ?_, fun hlast => ?_⟩⟩, fun hrts hspray hpath hup hleft => ?_, fun hdown => ?_⟩
    · change execCnpReceived qpn s = _
      rw [execCnpReceived, onQpn_of_qp _ hlive hq]
    · change execQpAckTimeout qpn s = _
      rw [execQpAckTimeout, onQpn_of_qp _ hlive hq]
      simp [hrts, hopen, Nat.not_le.mpr hretry]
    · change execSprayAckTimer qpn s = _
      rw [execSprayAckTimer, onQpn_of_qp _ hlive hq]
      simp [haccepts, hspray]
    · change execQpRecoveryStart qpn s = _
      rw [execQpRecoveryStart, onQpn_of_qp _ hlive hq]
      simp [herr, hauto, hgiven, hattempt, hat]
    · change execRecoveryRetry qpn s = _
      rw [execRecoveryRetry, onQpn_of_qp _ hlive hq]
      simp [herr, hauto, hgiven, hlo, hhi, hat]
    · change execRecoverSendTimer qpn s = _
      rw [execRecoverSendTimer, onQpn_of_qp _ hlive hq]
      simp [hrec]
    · change execRecoveryAttemptTimeout qpn s = _
      rw [execRecoveryAttemptTimeout, onQpn_of_qp _ hlive hq]
      simp [hrec, hat, hmore, hu]
    · change execRecoveryAttemptTimeout qpn s = _
      rw [execRecoveryAttemptTimeout, onQpn_of_qp _ hlive hq]
      simp [hrec, hat, Nat.not_lt.mpr hlast, hu]
    · change execPathDown qpn path s = _
      rw [execPathDown, onQpn_of_qp _ hlive hq]
      simp only [hrts, hspray, hpath, hup, Nat.not_le.mpr hleft]
      simp
    · change execPathProbe qpn path true s = _
      rw [execPathProbe, onQpn_of_qp _ hlive hq]
      simp only [hdown, Bool.and_self, if_true]
  · intro member ctx src b s hlive
    refine ⟨fun himg hgrant hnone hsrc k d r u hmake m hm => ?_, fun m hm hhead hctrl hreached hwait => ?_,
      fun hwait => ⟨?_, ?_⟩, fun m hm hgiven hdead => ?_, fun t ht e hkind he => ?_⟩
    · change execCmReqReceived src b s = _
      rw [execCmReqReceived, onMain_of_live _ hlive]
      simp only [himg, hgrant, hnone, hsrc, if_true, hmake, ← hm]
      simp
    · change execCmRepReceived member b s = _
      rw [execCmRepReceived, onMain_of_live _ hlive]
      simp only [hm, hhead, hctrl, hreached, hwait]
      simp
    · change execRejReceived member s = _
      rw [execRejReceived, onMainIf_of_live _ hlive hwait]
    · change execNetPeerUnreachable member s = _
      rw [execNetPeerUnreachable, onMainIf_of_live _ hlive hwait]
    · change execRtuReceived member s = _
      rw [execRtuReceived, onMain_of_live _ hlive]
      simp only [hm, hgiven, hdead]
      simp
    · change execContextError ctx s = _
      rw [execContextError, onMain_of_live _ hlive, State.ctxLost]
      simp only [← ht, hkind, he]

/-! ## Class 0x06 -/

/-- Settles O13: each command completes by the branch of its effect that its premises choose. -/
theorem networkManagerCommandsComplete : Obligations.NetworkManagerCommandsComplete := by
  constructor
  · intro fn qp h p c s
    refine ⟨fun H n t ht => ?_, fun H b hb q hq => ⟨fun hnext => ?_, fun hnext hst => ?_, fun hnext hst hpaths => ?_, fun hnext hst => ?_⟩,
      fun H b hb q hq hst => ?_, fun H b hb q hq => ?_⟩
    · exact runPkt_ok (result := n) (t := t) H rfl (by rw [opCreateQp] at ht ⊢; simp only [ht])
    · exact runPkt_ok H hb (by simp [opModifyQp, hq, hnext, Verdict.ok])
    · exact runPkt_ok H hb (by simp [opModifyQp, hq, hnext, hst, Verdict.ok])
    · exact runPkt_ok H hb (by simp [opModifyQp, hq, hnext, hst, hpaths, Verdict.ok])
    · exact runPkt_ok H hb (by simp [opModifyQp, hq, hnext, hst, Verdict.ok])
    · exact runPkt_ok H hb (by simp only [opDestroyQp, hq, if_pos hst, Verdict.ok])
    · exact runPkt_ok H hb (by simp only [opQueryQp, hq])
  · intro fn qp h p c s
    refine ⟨fun H b hb r hr hph hheld => ?_, fun H b hb => ?_, fun H => ?_, fun H b hb r hr hin k t hk => ?_,
      fun H b hb r hr hown hopen => ⟨fun hbusy => ?_, fun hbusy => ?_⟩, fun H b hb i hi hnone hroom q hq k d r t hmake m hm => ?_,
      fun H b hb m hm hhead hstay => ?_, fun H b hb x hx hlimit hsum => ?_⟩
    · exact runPkt_staged (h' := { h with unit := uPorts }) (app := fun t => t.applyPortMode p) H hb hr (by simp only [opSetPortMode, settingStop_none hr hph hheld])
    · exact hb ▸ runPkt_ok H rfl rfl
    · exact runPkt_ok H rfl rfl
    · exact runPkt_ok H hb (by simp only [opRegisterRegion, hin, ← hr, hk]; simp)
    · exact runPkt_ok H hb (by simp [opDeregisterRegion, hr, hown, hopen, hbusy, Verdict.ok])
    · exact runPkt_wait H hb (by simp [opDeregisterRegion, hr, hown, hopen, hbusy])
    · subst hi
      refine runPkt_wait H hb ?_
      simp only [opTroupeAddMember, hnone, ← hq, hmake]
      simp [Nat.not_le.mpr hroom, hm]
    · change execTroupeRemoveMember h p s = _
      rw [execTroupeRemoveMember, runPkt_wait (kind := wRemoveMember) (aux := fld p 0 2) H hb (by simp [opTroupeRemoveMember, hm, hhead, hstay]; rfl)]
    · refine runPkt_ok H hb ?_
      simp only [opSetContextReserve, ← hx, if_neg (not_or.mpr ⟨Nat.not_lt.mpr hlimit, Nat.not_lt.mpr hsum⟩), Verdict.ok]

end Sys2Proof.Proofs


/-!
PROOFS. The Heddle and the cipher engine: frames, flows, lanes, and the commands of classes 0x07 and 0x08.
-/
namespace Sys2Proof.Proofs

open Sys2Proof Sys2Proof.Machine Sys2Proof.Safety Sys2Proof.Laws

/-- Settles O14: each event, and each command by the branch of its effect that its premises choose. -/
theorem heddleActs : Obligations.HeddleActs := by
  constructor
  · intro port unit ctx frame s hlive
    refine ⟨fun hup hlo hhi hty t ht => ?_, fun e he => ?_, fun f hf hage => ?_⟩
    · change execFrameReceived port frame false 0 s = _
      rw [execFrameReceived, onMainIf_of_live _ hlive hup]
      simp [Nat.not_lt.mpr hlo, Nat.not_lt.mpr hhi, hty, ht]
    · change execFrameRecirculate unit s = _
      rw [execFrameRecirculate, onMain_of_live _ hlive]
      simp only [he]
    · change execFlowAgeExpiry ctx s = _
      rw [execFlowAgeExpiry, onMain_of_live _ hlive]
      simp only [hf, hage, if_true, State.flowFree]
  · intro fn qp h p c s
    refine ⟨fun H b hb r hr hph hheld hgraph => ?_, fun H b hb r hr hph hheld hfits => ?_,
      fun H b hb t ht hnew hroom => ⟨fun hkind e he => ?_, fun hkind k u hk e he => ?_⟩, fun H b hb t ht hkind e he u hu => ?_, fun H r hr => ?_⟩
    · exact runPkt_staged (h' := { h with unit := uHeddle }) (app := fun t => t.applyGraph p) H hb hr
        (by simp only [opHedLoadGraph, settingStop_none hr hph hheld, hgraph])
    · exact runPkt_staged (h' := { h with unit := uHeddle }) (app := fun t => t.applyTable p) H hb hr
        (by simp [opHedSetTable, settingStop_none hr hph hheld, State.okTable, hfits])
    · have h4 : t.kind ≠ 4 := by omega
      have h0 : t.kind ≠ 0 := by omega
      have h1 : t.kind ≠ 1 := by omega
      refine runPkt_ok H hb ?_
      simp only [opHedAddEntry, ← ht, if_neg h4, hnew, h0, h1, Nat.not_le.mpr hroom, Verdict.ok, he]
      simp
    · refine runPkt_ok H hb ?_
      simp only [opHedAddEntry, ← ht, hkind, hnew, Nat.not_le.mpr hroom, hk, Verdict.ok, he]
      simp
    · refine runPkt_ok H hb ?_
      simp only [opHedDelEntry, ← ht, if_neg hkind, he, ← hu, Verdict.ok]
    · exact runPkt_ok H rfl (by simp only [opSetPacketRing, hr, Verdict.ok])

/-- Settles O15: each command by the branch of its effect that its premises choose, and each step of the lanes. -/
theorem ciphersAct : Obligations.CiphersAct := by
  constructor
  · intro fn qp h p c s
    refine ⟨fun H b hb l hl hempty hfn => ?_, fun H b hb k hk hst hfree => ?_, fun H b hb k hk hfree => ?_,
      fun H b hb k hk hmode hfrag hsrc hdst hlanes x hx t ht => ?_⟩
    · refine runPkt_ok H hb ?_
      simp only [opCipAssignPages, ← hl, hempty, hfn, Verdict.ok]
      simp
    · exact runPkt_ok H hb (by simp only [opCipLoadKey, hk, if_neg hst, hfree, Bool.false_eq_true, if_false, Verdict.ok])
    · exact runPkt_ok H hb (by simp only [opCipClearPage, hk, hfree, Bool.false_eq_true, if_false, Verdict.ok])
    · change execCipCrypt h p s = _
      have hrun : opCipCrypt.run c h p b =
          .wait wCrypt x.id (b.upCip (fun y => { y with nextUnit := x.id + 1, crypts := y.crypts ++ [x] })) := by
        simp [opCipCrypt, hk, hmode, hfrag, hsrc, hdst, hlanes, hx]
      rw [execCipCrypt, runPkt_wait H hb hrun, ← ht]
  · intro unit page lane s hlive
    refine ⟨fun u hu hruns => ?_, fun u hu => ?_, fun hblocks => ?_⟩
    · change execCipherUnitDone unit true s = _
      rw [execCipherUnitDone, onMain_of_live _ hlive]
      simp only [hu, hruns]
      simp
    · change execEspLaneTimeout page s = _
      rw [execEspLaneTimeout, onMain_of_live _ hlive]
      simp only [hu]
    · change execDrbgReseed lane s = _
      rw [execDrbgReseed, onMain_of_live _ hlive]
      simp only [hblocks, if_true]

end Sys2Proof.Proofs


/-!
PROOFS. The shuttles: the commands of class 0x03 and the steps of a stream.
-/
namespace Sys2Proof.Proofs

open Sys2Proof Sys2Proof.Machine Sys2Proof.Safety Sys2Proof.Laws

theorem onStream_open {s : State} {p : Bytes} {n : Nat} {x : Stream} (f : Nat → Stream → Verdict) (hn : n = fld p 0 4) (hx : s.stream n = some x) :
    s.onStream p f = f n x := by
  subst hn
  simp only [State.onStream, hx]

theorem shuEvent_of_live {s : State} (f : State → State) (h : s.live = true) : shuEvent s f = .next (f s).tapKick := onMain_of_live _ h

/-- SHU_OPEN_STREAM of a stream whose source is no namespace, within staging, quota and channels. -/
theorem run_opShuOpenStream {h : Hdr} {p : Bytes} {c : Caller} {b t : State} {k n : Nat} {x : Stream} {y : StreamX}
    (hok : shuConflict (fld p 2 1) (fld p 3 1) (fld p 6 1) (fld p 7 1) (fld p 11 1) = false) (hsrc : fld p 0 1 ≠ 1)
    (hin : b.inStaging c.fn (fld p 40 8) (fld p 48 4) = true) (hcons : fld p 52 4 < 256)
    (hout : b.inStaging c.fn (fld p 56 8) (fld p 64 8) = true) (hquota : b.streamsFull c.fn = false)
    (hch : b.shu.channels + ((streamOf p c.fn 0).tracks.map (fun k => k.maxch)).sum ≤ 8192)
    (hk : b.ctxTake 4 = some (k, t)) (hn : freeKey b.shu.streams 16384 0 = some n)
    (hx : x = { streamOf p c.fn 0 with ctx := k, shuttle := b.pickShuttle, st := if b.pickShuttle.isSome then stOpening else stMoving })
    (hy : y = { openAt := b.now, found := fld p 1 1 == 4 }) :
    opShuOpenStream.run c h p b =
      .done sOk 0 n ((t.upShu (fun u => { u with streams := aset u.streams n x, streamx := aset u.streamx n y })).shuPlace n) := by
  subst hx hy
  have hfull : ¬ (b.streamsFull c.fn = true ∨ 8192 < b.shu.channels + ((streamOf p c.fn 0).tracks.map (fun k => k.maxch)).sum) := by
    simp only [hquota, Bool.false_eq_true, false_or]
    exact Nat.not_lt.mpr hch
  have hkind : (streamOf p c.fn 0).srcKind ≠ 1 := hsrc
  have hconf : shuConflict (streamOf p c.fn 0).mode (streamOf p c.fn 0).interlace (streamOf p c.fn 0).order (streamOf p c.fn 0).flags
    (streamOf p c.fn 0).hint = false := hok
  have hbase : b.inStaging c.fn (streamOf p c.fn 0).inBase (streamOf p c.fn 0).inLen = true := hin
  have hring : b.inStaging c.fn (streamOf p c.fn 0).outBase (streamOf p c.fn 0).outLen = true := hout
  have hzero : (streamOf p c.fn 0).consumer / 268435456 = 0 := by
    show fld p 52 4 / 268435456 = 0
    omega
  have hsmall : ¬ 256 ≤ (streamOf p c.fn 0).consumer := Nat.not_le.mpr hcons
  simp only [opShuOpenStream, hk, hn, if_neg hfull, if_pos hkind, hbase, hring, hzero, hsmall, hconf]
  simp [streamOf]

/-- A track that its unit serves is not placed again. -/
theorem trackKick_served {s : State} {n i : Nat} {x : Stream} {k : TrackCfg} (hx : s.stream n = some x) (hk : x.tracks[i]? = some k)
    (hunit : k.unit < 64) (hup : s.unitFenced (64 + k.unit) = false) : s.trackKick n i = s := by
  simp only [State.trackKick, hx, Option.bind_some, hk, hup, Nat.not_le.mpr hunit, or_self, Bool.false_eq_true, if_false]

/-- Settles O16: each command, and each step of a stream, by the branch that its premises choose. -/
theorem streamsAct : Obligations.StreamsAct := by
  constructor
  · intro fn qp h p c s
    refine ⟨fun H b hb hok hsrc hin hcons hout hquota hch k t n hk hn x hx y hy => ?_, fun H b hb n x hn hx => ?_,
      fun H b hb n x hn hx hsrc hfail hend hopen hroom hpos hflags => ?_, fun H b hb n x hn hx => ?_, fun H b hb n x hn hx hok => ?_,
      fun H b hb n x hn hx hused => ?_, fun H b hb r hr hph hheld => ?_⟩
    · exact runPkt_ok H hb (run_opShuOpenStream hok hsrc hin hcons hout hquota hch hk hn hx hy)
    · exact runPkt_ok H hb (by simp only [opShuCloseStream, onStream_open _ hn hx, Verdict.ok])
    · refine runPkt_ok H hb ?_
      simp only [opShuFeed, onStream_open _ hn hx, hsrc, hfail, hend, hopen, Nat.not_lt.mpr hroom, Nat.ne_of_gt hpos, hflags]
      simp [bit, Verdict.ok]
    · exact runPkt_ok H hb (by simp only [opShuGetStream, onStream_open _ hn hx])
    · exact runPkt_ok H hb (by simp only [opShuSetPolicy, onStream_open _ hn hx, hok, Bool.false_eq_true, if_false, Verdict.ok])
    · exact runPkt_ok H hb (by simp only [opShuReturnOutput, onStream_open _ hn hx, if_neg (Nat.not_lt.mpr hused), Verdict.ok])
    · exact runPkt_staged (h' := { h with unit := 0x2FFF0000 }) (app := fun t => t.applyMel p) H hb hr
        (by simp only [opShuSetMel, settingStop_none hr hph hheld])
  · intro n first data pic aud cap s hlive
    refine ⟨fun x t hx hsrc hfail hend hheld hroom hwant => ⟨fun b ht => ?_, fun ht => ?_, fun e ht => ?_⟩,
      fun t ht x hx hruns => ⟨fun hin hgray hturn hlost hseg => ?_, fun k hk hin hunit hup hseg hbad hdisc hhurt planes hplanes samples hsamples u hu => ?_,
        fun hin hsel hseg u hu => ?_⟩, fun x hx hruns hother hup hfirst => ?_, fun x hx hsrc hfound hfail hlate => ?_⟩
    · change execStreamInputRead n data true s = _
      rw [execStreamInputRead, shuEvent_of_live _ hlive]
      simp only [hx, hsrc, hfail, hend, hheld, hroom, hwant, ht]
      simp
    · change execStreamInputRead n data true s = _
      rw [execStreamInputRead, shuEvent_of_live _ hlive]
      simp only [hx, hsrc, hfail, hend, hheld, hroom, hwant, ht]
      simp
    · change execStreamInputRead n data true s = _
      rw [execStreamInputRead, shuEvent_of_live _ hlive]
      simp only [hx, hsrc, hfail, hend, hheld, hroom, hwant, ht]
      simp
    · change execPictureDecoded n pic s = _
      rw [execPictureDecoded, shuEvent_of_live _ hlive]
      simp only [← ht, hx, hruns, Nat.not_lt.mpr hin, hgray, hturn, hlost, hseg]
      simp
    · change execAudioFrameDecoded n aud s = _
      rw [execAudioFrameDecoded, shuEvent_of_live _ hlive]
      simp only [← ht, trackKick_served hx hk hunit hup, hx, hk, hruns, Nat.not_lt.mpr hin, Nat.not_le.mpr hunit, hup, hseg, hbad, hdisc, hhurt,
        ← hplanes, ← hsamples]
      simp [hu]
    · change execCaptionChange n cap s = _
      rw [execCaptionChange, shuEvent_of_live _ hlive]
      simp only [← ht, hx, hruns, Nat.not_lt.mpr hin, hsel, hseg, ← hu]
      simp
    · change execSliceReparseDone n first true s = _
      rw [execSliceReparseDone, shuEvent_of_live _ hlive]
      simp only [hx, hruns, hother, hup, hfirst]
      simp
    · change execContainerTimeout n s = _
      rw [execContainerTimeout, shuEvent_of_live _ hlive]
      simp only [hx, hsrc, hfound, hlate]
      simp [hfail]

end Sys2Proof.Proofs


/-!
PROOFS. The Tapestry: the commands of class 0x02 and the steps of its cores.
-/
namespace Sys2Proof.Proofs

open Sys2Proof Sys2Proof.Machine Sys2Proof.Safety Sys2Proof.Laws

/-- Settles O17: each command by the branch of its effect that its premises choose, and each step of the Tapestry. -/
theorem tapestryActs : Obligations.TapestryActs := by
  constructor
  · intro fn qp h p c s
    refine ⟨fun H b hb k hstop hfree => ?_, fun H b hb k hk hprog hqueue hrun => ?_, fun H b hb hprog hgood r hr => ?_,
      fun H b hb k hk hprog hqueue im him vs hvs h0 hdup hkind hout hdest hring hscr x hx => ?_,
      fun H b hb q hq hbound t ht => ⟨fun hruns => ?_, fun hruns => ?_⟩, fun H b hb q hq hbound => ?_, fun H b hb r hr hph hheld => ?_⟩
    · exact runPkt_ok H hb (by simp only [opTapLoad, hstop, hfree])
    · exact runPkt_ok H hb (by simp only [opTapUnload, ← hk, hprog, hqueue, hrun, Verdict.ok]; simp)
    · change execTapRun h p s = _
      have hrun : opTapRun.run c h p b = .wait wRun r.id (b.upTap (fun t => { t with runs := t.runs ++ [r], nextRun := r.id + 1 })) := by
        simp [opTapRun, hprog, hgood, hr]
      rw [execTapRun, runPkt_wait H hb hrun]
    · refine runPkt_ok H hb ?_
      simp only [opTapBind, ← hk, ← him, ← hvs, hprog, hqueue, h0, hdup, hkind, hout, hdest, hring, hscr, Verdict.ok]
      simp [hx, hdest]
    · exact runPkt_ok H hb (by simp only [opTapUnbind, ← hq, hbound, ← ht, hruns, Verdict.ok]; simp)
    · exact runPkt_wait H hb (by simp only [opTapUnbind, ← hq, hbound, ← ht, hruns]; simp)
    · exact runPkt_ok H hb (by simp only [opTapGetQueue, ← hq, hbound, if_true])
    · exact runPkt_staged (h' := { h with unit := uTapestry }) (app := fun t => t.applyTapPolicy p) H hb hr
        (by simp only [opTapSetPolicy, settingStop_none hr hph hheld])
  · intro n cycles upsets s hlive
    refine ⟨fun t ht f hf since hsince hwait hdue hbinding hruns => ?_, ?_, fun hrunning hover a ha => ?_, fun hpass hout hfence hcharge => ?_⟩
    · change execQueueWaitExpiry n s = _
      rw [execQueueWaitExpiry, onMain_of_live _ hlive]
      simp only [← ht, ← hf, hsince, hbinding, hdue, hruns]
      simp [hwait]
    · change execSliceComplete n cycles upsets s = _
      rw [execSliceComplete, onMain_of_live _ hlive]
    · change execSliceOverrun n s = _
      rw [execSliceOverrun, onMainIf_of_live _ hlive (by simp [hrunning, hover])]
      simp only [← ha]
    · change execCoreJoin n s = _
      rw [execCoreJoin, onMainIf_of_live _ hlive (by simp only [hpass, hout, hfence, hcharge]; rfl)]

end Sys2Proof.Proofs


/-!
PROOFS. The Loom: the commands of class 0x04, its fetches, admissions, exchange and weaves.
-/
namespace Sys2Proof.Proofs

open Sys2Proof Sys2Proof.Machine Sys2Proof.Safety Sys2Proof.Laws

theorem onJob_open {s : State} {p : Bytes} {n : Nat} {j : Job} (f : Nat → Job → Verdict) (hn : n = fld p 0 2) (hj : s.job n = some j)
    (hopen : (s.jobX n).closing = false) : s.onJob p f = f n j := by
  subst hn
  simp [State.onJob, hj, hopen]

/-- Without deadlines the internal part of the cue event table is empty. -/
theorem ownEvent_untimed {s : State} (p : OwnWork → Bool) (other : State → State) (h : s.cueTimed = false) : s.ownEvent p other = other s := by
  simp [State.ownEvent, State.ownDue, h]

/-- An event of an entry that is due, and that what fires before it leaves due, does the entry's work. -/
theorem ownEvent_due {s t : State} {x : Int} {w v : OwnWork} (other : State → State) (hw : s.ownDue.find? (fun e => e.2 == v) = some (x, w))
    (ht : t = s.cueTo (x - 1) x) (hdue : (t.ownDue.find? (fun e => e.2 == v)).isSome = true) :
    s.ownEvent (fun w => w == v) other = t.ownFire v := by
  obtain ⟨⟨y, u⟩, hu⟩ := Option.isSome_iff_exists.mp hdue
  have huv : u = v := by simpa using List.find?_some hu
  simp only [State.ownEvent, hw, ← ht, hu, huv]

/-- The block of a local producer that passes its checks and finds its pages is admitted. -/
theorem admitBlock_taken {s t : State} {h i src : Nat} {o : Offer} {b : Bytes} {j : Job} {w : Warp} {m : Sample} (hj : s.job h = some j)
    (hw : j.warps[i]? = some w) (hm : m = j.streamed w i src b) (hcrc : crc64 (b.take (b.length - 8)) = fld b (b.length - 8) 8)
    (hdrop : m.flags &&& w.drop = 0) (hshape : w.shapeOk m.len m.rows m.dim m.rowBytes m.tkind m.format m.groups = true)
    (hswap : w.swap = false) (htake : s.takeSample h m (sub b 64 (b.length - 72)) = some t) :
    s.admitBlock h i src o b =
      ((t.upJob h (fun j => { j with warps := lmod j.warps i (fun w =>
        { w with admits := (w.admits + 1) % 2 ^ 30, nextSrc := max w.nextSrc (src + 1) }) })).offerTaken o).weaveJob h := by
  have hget : j.warps.getD i {} = w := by simp [List.getD, hw]
  have hok : trailerOk b = true := by simp [trailerOk, hcrc]
  simp only [State.admitBlock, hj, hget, ← hm, hok, hdrop, hshape, hswap, htake]
  simp

/-- Settles O18: each command by the branch of its effect that its premises choose, and each step of the Loom. -/
theorem loomActs : Obligations.LoomActs := by
  constructor
  · intro fn qp h p c s
    refine ⟨fun H b hb j hj n a hfree hplace hland hone hrank hlead x hx => ?_, fun H b hb j hj hfree hplace hland hmany => ?_,
      fun H b hb n j hn hjob hopen => ⟨fun hgone => ?_, fun hstays => ?_⟩, fun H b hb n j hn hjob hopen hstart w k hw hk hkind hshape => ?_,
      fun H b hb n j hn hjob hopen hstart hlen hok => ?_, fun H b hb n j t hn hjob hopen hstart hlay ht => ?_,
      fun H b hb n j hn hjob hopen => ?_, fun H b hb n j r hn hjob hopen hr hph hheld hcur => ?_,
      fun H b hb n j w hn hjob hopen hw hcount => ?_, fun H b hb n j hn hjob hopen => ?_,
      fun H b hb n j hn hjob hopen hstart hwarp => ?_⟩
    · refine runPkt_ok H hb ?_
      simp only [opLoomOpenJob, ← hj, hfree, hplace, Nat.not_lt.mpr hland, Nat.not_lt.mpr hone, Nat.not_le.mpr hrank, Nat.not_lt.mpr hlead, ← hx]
      simp
    · obtain ⟨n, hn⟩ := Option.isSome_iff_exists.mp hfree
      obtain ⟨a, ha⟩ := Option.isSome_iff_exists.mp hplace
      have hhead : h.chan.isHead = false := by rw [served_chan H]; rfl
      refine runPkt_refuse H hb ?_
      simp only [opLoomOpenJob, ← hj, hn, ha, Nat.not_lt.mpr hland, hmany, hhead]
      simp [badParam]
    · exact runPkt_ok H hb (by simp only [opLoomCloseJob, onJob_open _ hn hjob hopen, hgone, Verdict.ok]; simp)
    · exact runPkt_wait H hb (by simp only [opLoomCloseJob, onJob_open _ hn hjob hopen, hstays, if_true])
    · refine runPkt_ok H hb ?_
      have hk0 : w.kind ≠ 0 := by omega
      simp only [opLoomAddWarp, ← hn, hjob, hk, onJob_open _ hn hjob hopen, ← hw, hshape, State.loomSetting, hstart]
      simp [hk0, hstart]
    · refine runPkt_ok H hb ?_
      simp only [opLoomSetLayout, onJob_open _ hn hjob hopen, hstart, hok, Nat.not_lt.mpr hlen, State.loomSetting]
      simp
    · exact runPkt_ok H hb (by simp only [opLoomStart, onJob_open _ hn hjob hopen, hstart, hlay, ht, Verdict.ok]; simp)
    · exact runPkt_ok H hb (by simp only [opLoomGetCursor, onJob_open _ hn hjob hopen, Verdict.ok])
    · exact runPkt_staged (h' := { h with unit := uLoom }) (app := fun t => t.applyCursor p 0) H hb hr
        (by simp [opLoomSetCursor, onJob_open _ hn hjob hopen, settingStop_none hr hph hheld, hcur])
    · refine runPkt_ok H hb ?_
      simp only [opLoomGetOrder, onJob_open _ hn hjob hopen, hw, if_neg (Nat.not_lt.mpr hcount), Verdict.ok]
    · exact runPkt_doneAt H hb (by simp only [opLoomGetJob, onJob_open _ hn hjob hopen])
    · refine runPkt_ok H hb ?_
      simp only [opLoomSetShare, onJob_open _ hn hjob hopen, hstart, Nat.not_le.mpr hwarp, State.loomSetting]
      simp
  · intro h i abs src consumer b s j hlive hjob
    refine ⟨fun huntimed hdue => ?_, fun x w hw t k ht hk hdue => ?_, fun f hf w hw => ⟨fun hstage => ?_, fun hstage => ?_⟩,
      fun x w hw t k ht hk hdue u hu => ?_, fun w hw hopen hheld => ⟨fun f hkind hf hstage => ?_, fun o t hkind ho hbo m hm hcrc hdrop hshape hswap htake => ?_⟩,
      fun r hr hstart hmember hother hseq hid u hu hopen => ?_, fun e he step hstep => ⟨fun huntimed hopen => ?_, fun x w hw t ht hdue => ?_⟩⟩
    · change execLoomFetchStart h s = _
      rw [execLoomFetchStart, onMain_of_live _ hlive, ownEvent_untimed _ _ huntimed, if_pos ⟨huntimed, hdue⟩]
      simp only [State.ownFire, hjob]
    · change execLoomFetchStart h s = _
      rw [execLoomFetchStart, onMain_of_live _ hlive, ownEvent_due _ hw ht hdue]
      simp only [State.ownFire, hk]
    · constructor
      · intro u e hrow hlen hmax
        change execIndexEntryRead h i abs b s = _
        rw [execIndexEntryRead, onMain_of_live _ hlive]
        simp only [hjob, hf, ← hw, hstage, hrow, hlen, Nat.not_lt.mpr hmax]
        simp
      · intro u hrow
        change execIndexEntryRead h i abs b s = _
        rw [execIndexEntryRead, onMain_of_live _ hlive]
        simp only [hjob, hf, ← hw, hstage, hrow]
        simp
    · constructor
      · intro u d hrow hcrc g hg
        change execSamplePayloadRead h i abs b s = _
        rw [execSamplePayloadRead, onMain_of_live _ hlive]
        simp only [hjob, hf, ← hw, hstage, hrow, hcrc]
        simp [hg, hstage]
      · intro u hrow
        change execSamplePayloadRead h i abs b s = _
        rw [execSamplePayloadRead, onMain_of_live _ hlive]
        simp only [hjob, hf, ← hw, hstage, hrow]
        simp
    · change execRescueFetch h i abs s = _
      rw [execRescueFetch, onMain_of_live _ hlive, ownEvent_due _ hw ht hdue]
      simp only [State.ownFire, State.rescue, hk, ← hu]
    · change execSampleAdmit h i b src s = _
      rw [execSampleAdmit, onMain_of_live _ hlive]
      simp only [hjob, hw, hopen, hheld, hkind, hf, hstage]
      simp
    · change execSampleAdmit h i b src s = _
      rw [execSampleAdmit, onMain_of_live _ hlive]
      simp only [hjob, hw, hopen, hheld, if_neg hkind, ho, hbo, true_or, if_true]
      rw [← hbo, admitBlock_taken hjob hw hm hcrc hdrop hshape hswap htake]
      simp
    · have hgo : ¬ ((!j.started) = true ∨ j.members ≤ r ∨ r = j.rank) := by simp [hstart, hmember, hother]
      have hours : ¬ (fld b 0 4 ≠ j.jobId ∨ (u.jobX h).closing = true) := by simp [hid, hopen]
      constructor <;> intro hkind
      · change execExchangeNotice h b s = _
        rw [execExchangeNotice, onMain_of_live _ hlive]
        simp only [hjob, ← hr, if_neg hgo, if_neg (not_not_intro hseq), ← hu, if_neg hours, hkind]
      · change execExchangeNotice h b s = _
        rw [execExchangeNotice, onMain_of_live _ hlive]
        simp only [hjob, ← hr, if_neg hgo, if_neg (not_not_intro hseq), ← hu, if_neg hours, hkind]
    · change execWeaveClose h consumer s = _
      rw [execWeaveClose, onMain_of_live _ hlive]
      simp only [hjob, he, ← hstep]
      rw [ownEvent_untimed _ _ huntimed, if_pos ⟨huntimed, hopen⟩]
    · change execWeaveClose h consumer s = _
      rw [execWeaveClose, onMain_of_live _ hlive]
      simp only [hjob, he, ← hstep]
      rw [ownEvent_due _ hw ht hdue]
      rfl

end Sys2Proof.Proofs


/-!
PROOFS. Delivery and the latches: the commands of class 0x05, the attachment points, the layout rounds, latches and deliveries.
-/
namespace Sys2Proof.Proofs

open Sys2Proof Sys2Proof.Machine Sys2Proof.Safety Sys2Proof.Laws

theorem onRing_found {s : State} {p : Bytes} {off n : Nat} {r : FRing} (f : Nat → FRing → Verdict) (hn : n = fld p off 2) (hr : s.ring n = some r) :
    s.onRing p off f = f n r := by
  subst hn
  simp [State.onRing, hr]

/-- Settles O19: each command completes by the branch of its effect that its premises choose. -/
theorem deliveryCommandsComplete : Obligations.DeliveryCommandsComplete := by
  intro fn qp h p c s
  refine ⟨fun H b hb r hr hph hheld => ?_, fun H b hb a ha hst hthere hen hkeep => ?_, fun H b hb a ha hst hrel t ht => ⟨fun hidle => ?_, fun hbusy => ?_⟩,
    fun H b hb l hl hgive hroom hcount hfree => ?_, fun H b hb r n k hr hfree htr hprio hfn hst howned howner hk hown hen hbound hguard => ?_,
    fun H b hb n r hn hr hlive hreset => ?_, fun H b hb n r hn hr hreset t ht => ⟨fun hwaits => ?_, fun hdone => ?_⟩,
    fun H b hb n r hn hr => ?_, fun H b hb n r i j hn hi hr hj hopen hstart hst htab hch hmany => ?_⟩
  · exact runPkt_staged (h' := { h with unit := portSettingUnit h p }) (app := fun t => t.applySetPort p) H hb hr
      (by simp only [opFeedSetPort, settingStop_none hr hph hheld])
  · refine runPkt_ok H hb ?_
    simp only [opFeedAdmit, ← ha, hst, hthere, hen, hkeep, Verdict.ok]
    simp
  · refine runPkt_ok H hb ?_
    simp only [opFeedRelease, ← ha, hst, hrel, ← ht, hidle, Verdict.ok]
    simp
  · refine runPkt_wait H hb ?_
    simp only [opFeedRelease, ← ha, hst, hrel, ← ht, hbusy]
    simp
  · refine runPkt_ok H hb ?_
    simp only [opLatchAssign, ← hl, if_neg hgive, Nat.not_lt.mpr hroom, if_neg (Nat.not_lt.mpr hcount), hfree, Verdict.ok]
    simp
  · refine runPkt_ok H hb ?_
    simp only [opFeedCreateRing, hfn, hfree]
    simp only [hfn] at hr
    simp [← hr, htr, hprio, hst, howned, howner, hk, hown, hen, hbound, hguard]
  · exact runPkt_ok H hb (by simp only [opFeedDestroyRing, onRing_found _ hn hr, hlive, hreset, Verdict.ok]; simp)
  · exact runPkt_wait H hb (by simp only [opFeedResetRing, onRing_found _ hn hr, if_neg hreset, ← ht, hwaits, if_true])
  · exact runPkt_ok H hb (by simp only [opFeedResetRing, onRing_found _ hn hr, if_neg hreset, ← ht, hdone, Verdict.ok]; simp)
  · exact runPkt_ok H hb (by simp only [opFeedGetRing, onRing_found _ hn hr, Verdict.ok])
  · refine runPkt_wait H hb ?_
    simp only [opFeedJoin, onRing_found _ hn hr, ← hi, hj, hopen, hstart, hst, htab, hch, Nat.not_le.mpr hmany]
    simp

/-- Settles O20: what an attachment point does in each state of it, and the entries of the layout mailbox by their kind. -/
theorem acceleratorsAndLayoutsAct : Obligations.AcceleratorsAndLayoutsAct := by
  constructor
  · intro a speed width vendor device addr size funcs s hlive
    refine ⟨fun hthere hen hst hretry => ?_, fun hst => ⟨fun hfit l hl t ht => ?_, fun hfit => ?_, fun hlate => ?_⟩,
      fun hst hretry hlate hen => ?_, fun b n o hst hb hlo hhi hn ho hcell hmask => ?_⟩
    · change execAccelPresence a s = _
      rw [execAccelPresence, onMain_of_live _ hlive, if_pos ⟨hthere, hen, hst, hretry⟩]
    · change execAccelEnumerated a true funcs speed width vendor device s = _
      rw [execAccelEnumerated, onMain_of_live _ hlive]
      simp only [hst, hfit, ← hl, ← ht]
      simp
    · change execAccelEnumerated a true funcs speed width vendor device s = _
      rw [execAccelEnumerated, onMain_of_live _ hlive]
      simp only [hst, hfit]
      simp
    · change execLinkTrainingTimeout a s = _
      rw [execLinkTrainingTimeout, onMain_of_live _ hlive, if_pos ⟨hst, hlate⟩]
    · change execAccelRetryTimer a s = _
      rw [execAccelRetryTimer, onMain_of_live _ hlive]
      simp [hst, hretry, hlate, hen]
    · change execUpstreamAccess a addr size .read s = _
      rw [execUpstreamAccess, onMain_of_live _ hlive]
      have hin : ¬ (addr < b ∨ b + 524288 ≤ addr) := by omega
      simp only [hst, ← hb, if_neg hin, ← hn, ← ho, hcell, hmask]
      simp
  · intro job ring e s j hlive hj
    refine ⟨fun r hr hstart hmember hother hseq hid u hu hopen => ?_,
      fun c hc => ⟨fun hwait hlate hacc hround u hu => ?_, fun hwait hlate => ?_⟩⟩
    · have hgo : ¬ ((!j.started) = true ∨ j.members ≤ r ∨ r = j.rank) := by simp [hstart, hmember, hother]
      have hours : ¬ (fld e 0 4 ≠ j.jobId ∨ (u.jobX job).closing = true) := by simp [hid, hopen]
      refine ⟨fun hkind mine hmine => ?_, fun hkind => ?_⟩
      · change execLayoutNotice job e s = _
        rw [execLayoutNotice, onMain_of_live _ hlive]
        simp only [hj, ← hr, if_neg hgo, if_neg (not_not_intro hseq), ← hu, if_neg hours, hkind, hmine]
      · change execLayoutNotice job e s = _
        rw [execLayoutNotice, onMain_of_live _ hlive]
        simp only [hj, ← hr, if_neg hgo, if_neg (not_not_intro hseq), ← hu, if_neg hours, hkind]
    · change execLayoutRoundTimeout job ring s = _
      rw [execLayoutRoundTimeout, onMain_of_live _ hlive]
      simp only [hj, hc, hwait, Nat.not_lt.mpr hlate, Nat.not_le.mpr hacc, ← hu, if_pos hround]
      simp
    · change execLayoutRepropose job ring s = _
      rw [execLayoutRepropose, onMain_of_live _ hlive]
      simp only [hc, hwait, hlate, and_self, if_true]

/-! ## Latches and deliveries -/

/-- A write of 8 bytes by an admitted accelerator to a latch that takes its writes. -/
theorem latchWrite_feed {acc n : Nat} {s : State} (f : State → Nat → Bool → State) (hlive : s.live = true) (hst : (s.acc acc).st = 2)
    (hn : n < latchCount) (hen : (s.cell n).en = true) (hmask : (s.cell n).mask.testBit acc = true) :
    latchWrite (.feed acc) n 8 s f = .next (f s n true) := by
  simp only [latchWrite, onMain_of_live _ hlive, hst, Nat.not_le.mpr hn, hen, hmask]
  simp

/-- A whole write of a latch register by the host reaches the register of the latch. -/
theorem latchReg_whole {a : Access} {reg n o : Nat} {s u : State} (old : Latch → Nat) (f : State → Nat → Nat → State) (H : hostWrites a.fn s = true)
    (hwr : a.wr = true) (hsize : a.size = 8) (haligned : a.aligned = true) (hat : (s.ao 11 8).latchAt a = some (n, o)) (ho : o / 8 * 8 = reg)
    (hu : u = (s.ao 11 8).dropHeld a.fn (a.off - a.off % 8)) : latchReg a reg s old f = .next (f u n (a.val % 2 ^ 64)) := by
  rw [latchReg, hsize, barWrite_of_hostWrites _ _ _ H]
  simp only [hwr, hat, ho, State.write64, haligned, hsize, ← hu]
  simp

theorem cell_dropHeld (s : State) (fn off n : Nat) : (s.dropHeld fn off).cell n = s.cell n := rfl

/-- Settles O21: latches by their mode and what holds them, and deliveries by the state of their ring. -/
theorem latchesAndDeliveriesAct : Obligations.LatchesAndDeliveriesAct := by
  constructor
  · intro acc n val o a s
    refine ⟨fun hlive hst hn hen hmask => ⟨fun hmode => ?_, fun ring r c hmode hbound hr hc hgen hnew hhalf hslots => ?_⟩,
      fun H hwr hsize haligned t ht u hu hat hbound hguard => ?_⟩
    · change execLatchAdd (.feed acc) n 8 val s = _
      rw [execLatchAdd, latchWrite_feed _ hlive hst hn hen hmask]
      simp [State.latchAdd, hmode]
    · change execLatchPost (.feed acc) n 8 val s = _
      rw [execLatchPost, latchWrite_feed _ hlive hst hn hen hmask]
      have hfar : (decide ((c + 2 ^ 32 - r.landed % 2 ^ 32) % 2 ^ 32 < 2 ^ 31) && decide (r.slots < (c + 2 ^ 32 - r.landed % 2 ^ 32) % 2 ^ 32)) = false := by
        simp only [Nat.not_lt.mpr hslots, decide_false, Bool.and_false]
      have hahead : ¬ ((c + 2 ^ 32 - (s.cell n).val % 2 ^ 32) % 2 ^ 32 = 0 ∨ 2 ^ 31 ≤ (c + 2 ^ 32 - (s.cell n).val % 2 ^ 32) % 2 ^ 32) := by
        omega
      simp only [State.latchPost, hmode, hbound, Option.bind_some, hr, ← hc, if_pos hgen, if_neg hahead, hfar, Bool.false_eq_true, if_false]
    · have hcell : u.cell n = t.cell n := by rw [hu, cell_dropHeld]
      subst ht
      refine ⟨fun ho => ?_, fun ho => ?_, fun ho hoff => ?_⟩
      · change execLatchValWrite a s = _
        rw [execLatchValWrite, latchReg_whole _ _ H hwr hsize haligned hat ho hu]
        simp [hcell, hguard]
      · change execLatchThreshWrite a s = _
        rw [execLatchThreshWrite, latchReg_whole _ _ H hwr hsize haligned hat ho hu]
        simp [hcell, hguard, hbound]
      · change execLatchCfgWrite a s = _
        rw [execLatchCfgWrite, latchReg_whole _ _ H hwr hsize haligned hat ho hu]
        simp only [hcell, hguard, hbound, hoff]
        simp
  · intro ring n gen rkey entry s r hlive hr
    refine ⟨fun b hq hredo hopen hcredit hturn hstale g hg w hw hfull => ?_,
      fun d hd => ⟨fun htr hst => ?_, fun hst hrg hgen => ?_⟩, fun hst => ?_, fun g hg howner hseq => ?_⟩
    · change execDeliveryIssue ring s = _
      rw [execDeliveryIssue, onMain_of_live _ hlive]
      have hhead : r.head = some (b, false) := by
        rw [FRing.head, hredo, hq]
      simp only [State.issue, hr, hhead, hopen, hcredit, hturn, hstale, ← hg, ← hw, hfull]
      simp
    · change execDeliveryLanded ring n s = _
      rw [execDeliveryLanded, onMain_of_live _ hlive]
      simp only [hr, hd, htr, hst]
      simp
    · change execGenReadResponse ring n gen s = _
      rw [execGenReadResponse, onMain_of_live _ hlive]
      simp only [State.genChecked, hr, hd, hst, hrg, ← hgen]
      simp
    · change execRingResetReadDone ring s = _
      rw [execRingResetReadDone, onMain_of_live _ hlive]
      simp only [hr, hst, if_true]
    · change execCreditMailboxEntry rkey entry s = _
      rw [execCreditMailboxEntry, onMain_of_live _ hlive]
      have hring (f : Net → Net) : (s.upNet f).ring ring = some r := hr
      simp only [hg, howner, if_neg (not_not_intro hseq), hring]

end Sys2Proof.Proofs


/-!
PROOFS. Faults: what detected and corrected errors, bursts, resets and in-field tests do, and the fault opcodes of class 0x00.
-/
namespace Sys2Proof.Proofs

open Sys2Proof Sys2Proof.Machine Sys2Proof.Safety Sys2Proof.Laws

/-- The oldest charge of a unit reaches the ladder with its own cause. -/
theorem exec_detectedError_charged {unit op detail : Nat} {cause : ErrCause} {c : Charge} {s : State} (hlive : s.live = true)
    (hthere : s.unitThere unit = true) (hc : s.ras.charged.find? (fun c => c.unit == rasUnitId unit) = some c) (hcause : c.cause = cause)
    (hop : c.op = op) (hdetail : c.detail = detail) (hmem : cause ≠ .memory) (htrace : cause ≠ .trace) :
    exec (.detectedError unit cause op detail) s =
      .next ((s.upRas (fun r => { r with charged := r.charged.erase c })).detected unit cause op detail c.addr).iftCheck := by
  change execDetectedError unit cause op detail s = _
  rw [execDetectedError, onMainIf_of_live _ hlive hthere]
  cases cause with
  | memory => exact absurd rfl hmem
  | trace => exact absurd rfl htrace
  | _ => simp [hc, hcause, hop, hdetail, State.takeCharge]

/-- Settles O22: each fault by its cause and what it meets, each command by the branch of its effect that its premises choose. -/
theorem faultsAct : Obligations.FaultsAct := by
  constructor
  · intro unit op detail n ch addr cause both obj link bad s
    refine ⟨fun hlive => ⟨fun hthere => ⟨fun c hc hcause hop hdetail => exec_detectedError_charged hlive hthere hc hcause hop hdetail,
      fun hcore hfenced => ?_, fun hcore hfenced => ?_, ?_, fun hcore => ?_, fun hchan => ?_⟩, fun hreplays => ?_,
      fun hch hremoved => ⟨fun t ht => ⟨?_, fun hn => ?_⟩, fun p hp => ?_⟩, fun r hr t ht => ?_, fun k l hkl u hu w hw => ?_, fun hperiod hnext => ?_,
      fun hout hpass hfence hwaits t ht => ⟨?_, ?_⟩⟩, fun c hpow hc hsince => ?_⟩
    · change execDetectedError unit .memory op detail s = _
      rw [execDetectedError, onMainIf_of_live _ hlive hthere]
      simp only [if_pos hcore, hfenced, if_true]
    · change execDetectedError unit .memory op detail s = _
      rw [execDetectedError, onMainIf_of_live _ hlive hthere]
      simp only [if_pos hcore, hfenced, Bool.false_eq_true, if_false]
    · change execDetectedError unit .trace op detail s = _
      rw [execDetectedError, onMainIf_of_live _ hlive hthere]
    · change execCorrectedError unit n false s = _
      rw [execCorrectedError, onMainIf_of_live _ hlive hthere]
      simp only [if_pos hcore]
    · change execCorrectedError unit n true s = _
      rw [execCorrectedError, onMainIf_of_live _ hlive hthere]
      simp only [if_neg (Nat.not_lt.mpr hchan), if_true]
    · change execMeshDegraded link s = _
      rw [execMeshDegraded, onMainIf_of_live _ hlive (by simp [hreplays])]
    · change execPatrolScrub ch 0 s = _
      rw [execPatrolScrub, onMainIf_of_live _ hlive (by simp only [hch, hremoved]; rfl)]
      simp only [← ht, if_true]
    · change execPatrolScrub ch n s = _
      rw [execPatrolScrub, onMainIf_of_live _ hlive (by simp only [hch, hremoved]; rfl)]
      simp only [← ht, if_neg (Nat.ne_of_gt hn)]
    · change execUncorrectableBurst addr ch false both obj s = _
      rw [execUncorrectableBurst, onMainIf_of_live _ hlive (by simp only [hch, hremoved]; rfl)]
      simp only [hp, Bool.false_eq_true, if_false]
    · change execPartitionResetEnd n bad s = _
      rw [execPartitionResetEnd, onMain_of_live _ hlive]
      simp only [hr, ← ht]
    · change execChannelRemoved s = _
      rw [execChannelRemoved, onMain_of_live _ hlive]
      simp only [hkl, ← hu, ← hw]
    · change execIftDue n s = _
      rw [execIftDue, onMainIf_of_live _ hlive (by simp [hperiod, hnext])]
    · change execIftComplete n true detail s = _
      rw [execIftComplete, onMainIf_of_live _ hlive (by simp only [hout, hpass, hfence, hwaits]; rfl)]
      simp only [← ht, if_true]
    · change execIftComplete n false detail s = _
      rw [execIftComplete, onMainIf_of_live _ hlive (by simp only [hout, hpass, hfence, hwaits]; rfl)]
      simp only [← ht, Bool.false_eq_true, if_false]
    · change execRecordCoalesceExpiry unit n op s = _
      rw [execRecordCoalesceExpiry, onAlways_of_powered _ hpow]
      simp only [hc, if_pos hsince]
  · intro fn qp h p c s
    refine ⟨fun H hvec r hr => ?_, fun H b hb g k hg hk hlt hcount => ?_, fun H b hb n hn => ?_, fun H b hb n hn hprot => ?_, fun H => ?_⟩
    · exact runPkt_ok H rfl (by simp only [opRasSetErrorRing, if_neg (Nat.not_le.mpr hvec), Verdict.ok, hr])
    · refine runPkt_ok H hb ?_
      simp only [opRasErrorHead, hg, ← hk, Verdict.ok]
      simp [Nat.not_le.mpr hlt, Nat.not_lt.mpr hcount]
    · exact runPkt_ok H hb (by simp only [opRasGetUnit, hn])
    · exact runPkt_ok H hb (by simp only [opRasFenceUnit, hn, hprot, Verdict.ok]; simp)
    · exact runPkt_ok H rfl rfl

end Sys2Proof.Proofs


/-!
PROOFS. The checkpoint block: where two entries of the job table have one number, the internal part of the cue event table goes by both.
-/
namespace Sys2Proof.Proofs

open Sys2Proof Sys2Proof.Machine Sys2Proof.Safety Sys2Proof.Laws

/-- The capture of CKP_CAPTURE with AT 0, which takes no step. -/
def stepless : Capture := { noCue := true }

/-- The capture of step 0, whose target the position has reached. -/
def ofStepZero : Capture := {}

/-- A state in which the cue is locked, the job table lists number 0 twice, first with a capture that takes no step, then with that of step 0, and a
function entry of the cue event table is due. -/
def jobTwice : State :=
  { State.reset with
    aon := { State.reset.aon with mainPhase := .ready }
    cue := { State.reset.cue with st := .locked, events := [(0, { action := 2, actTarget := 1 })] }
    ckp := { State.reset.ckp with jobs := [(0, { decided := 1, capture := some stepless }), (0, { decided := 1, capture := some ofStepZero })] } }

/-- Entries that the cue event table holds in the state that an outcome answers. -/
def entriesAfter (r : Res) : Nat :=
  match r with
  | .next t => t.cue.events.length
  | _ => 0

/-- The function entry fires before the capture starts. -/
theorem entriesAfter_captureStart : entriesAfter (exec (.captureStart 0) jobTwice) = 0 := by decide +kernel

/-- Refutes O23: CAPTURE_START of a capture that takes no step first fires what is due with an earlier target wherever the job table also lists
a due capture of a step under the job's number (R54), where the statement's clause starts the capture alone. -/
theorem not_checkpointsAct : ¬ Obligations.CheckpointsAct := by
  intro h
  obtain ⟨-, hevents⟩ := h
  obtain ⟨-, -, hcapture, -⟩ := hevents 0 0 [] jobTwice { decided := 1, capture := some stepless } (by decide) rfl
  obtain ⟨-, hstart, -⟩ := hcapture stepless rfl
  have hfired := entriesAfter_captureStart
  rw [hstart (by decide) (Or.inr rfl)] at hfired
  exact absurd hfired (by decide)

end Sys2Proof.Proofs


/-!
PROOFS. Stagehand firmware: the commands of class 0x0C, loading, watchdogs, and the steps of a handover.
-/
namespace Sys2Proof.Proofs

open Sys2Proof Sys2Proof.Machine Sys2Proof.Safety Sys2Proof.Laws

/-- A step of the handover while it is at that stage. -/
theorem onHandover_at {s : State} {stage : Nat} {v : Handover} (f : State → Handover → State) (hlive : s.live = true)
    (hv : s.stg.handover = some v) (hstage : v.stage = stage) : onHandover s stage f = .next (f s v) := by
  rw [onHandover, onMain_of_live _ hlive]
  simp only [hv, if_pos hstage]

/-- Settles O24: each command by the branch of its effect that its premises choose, and each event by the stage at which it comes. -/
theorem firmwareActs : Obligations.FirmwareActs := by
  constructor
  · intro fn qp h p c s
    refine ⟨fun H b hb r hr hhdr => ?_, fun H hlen b hb old hold => ?_,
      fun H b hb r i hr hi hroom hcheck hgrant hvmin hvmax hrmin hrmax habi => ?_, fun H b hb hnone hinters hready v hv => ?_,
      fun H b hb htrial => ⟨fun hraise => ?_, fun r hraise hr => ?_⟩, fun H b hb htrial => ?_,
      fun H b hb m r hm hr hcls hroom hformat hsigned habi => ?_, fun H b hb hmod => ⟨fun hidle => ?_, fun hbusy => ?_⟩, fun H b hb => ?_⟩
    · exact runPkt_ok H hb (by simp only [opFwGetInfo, hr, hhdr]; rfl)
    · exact runPkt_ok H hb (by simp only [opFwStage, if_neg (Nat.not_lt.mpr hlen), Verdict.ok, ← hold])
    · refine runPkt_ok H hb ?_
      simp only [opFwVerify, hr, ← hi, hcheck, hgrant, habi, Nat.not_lt.mpr hvmin, Nat.not_lt.mpr hvmax, Nat.not_lt.mpr hrmin, Nat.not_lt.mpr hrmax,
        if_neg (Nat.not_lt.mpr hroom), Verdict.ok]
      simp
    · exact runPkt_wait H hb (by simp only [opFwActivate, hnone, hinters, hready, hv]; rfl)
    · exact runPkt_ok H hb (by simp only [opFwCommit, htrial, hraise, Verdict.ok]; simp)
    · exact runPkt_wait H hb (by simp only [opFwCommit, htrial, hraise, hr]; rfl)
    · exact runPkt_wait H hb (by simp only [opFwRollback, htrial]; rfl)
    · refine runPkt_ok H hb ?_
      simp only [opFwLoadModule, ← hm, hr, hcls, hformat, hsigned, Option.any_some, Option.map_some, Option.getD_some, Nat.not_lt.mpr hroom]
      simp [habi]
    · exact runPkt_ok H hb (by simp only [opFwUnloadModule, hmod, hidle, Verdict.ok]; simp)
    · exact runPkt_wait H hb (by simp only [opFwUnloadModule, hmod, hbusy]; simp)
    · exact runPkt_wait H hb rfl
  · intro core a image s
    refine ⟨fun H hfn hwr hoff hgo haligned => ?_, fun hlive => ⟨fun hstatus hlost b hb i hi g hg lo hi' hlo hhi r hr hcheck hbit hle t ht => ?_,
      fun hrun hup hkick => ?_, fun hmay => ?_, fun v hv => ⟨fun hstage hrun hemg hclear => ?_, fun hstage hlate hclear => ?_, fun hstage => ⟨fun ver hver d hd t ht => ?_,
        fun hback hlate => ?_⟩, fun hstage hback => ⟨fun hlate => ?_, fun i hi hgood t ht => ?_⟩, fun hstage hlate => ?_⟩⟩⟩
    · change execStgLoadGo a s = _
      rw [execStgLoadGo, if_pos ⟨hfn, hwr, hoff, hgo⟩, barWrite_of_hostWrites _ _ _ H]
      simp only [haligned]
      simp
    · change execStgLoadDone image true s = _
      rw [execStgLoadDone, onMainIf_of_live _ hlive (by simp [hstatus])]
      have hstg : r.stg = s.stg := by rw [hr]; rfl
      simp only [hlost, ← hb, ← hr, hcheck, hstg, ← hi, ← hg, ← hlo, ← hhi, hbit, ← ht, Nat.not_lt.mpr hle]
      simp
    · change execWatchdogExpiry core s = _
      rw [execWatchdogExpiry, onMainIf_of_live _ hlive (by simp [hrun, hup, hkick])]
    · change execStagehandRestarted core s = _
      rw [execStagehandRestarted, onMainIf_of_live _ hlive hmay]
    · change execHandoverClearance s = _
      have hc : s.handoverClear = true := by simp only [State.handoverClear, hrun, hemg, hclear]; rfl
      rw [execHandoverClearance, onHandover_at _ hlive hv hstage, if_pos hc]
    · change execActivateDeferTimeout s = _
      rw [execActivateDeferTimeout, onHandover_at _ hlive hv hstage]
      simp only [hlate, hclear]
      simp
    · change execHandoverQuiesced s = _
      rw [execHandoverQuiesced, onHandover_at _ hlive hv hstage]
      simp only [← hver, ← hd, ← ht]
    · change execHandoverQuiesceTimeout s = _
      rw [execHandoverQuiesceTimeout, onHandover_at _ hlive hv hstage]
      simp [hback, hlate]
    · change execHandoverStep4Timeout s = _
      rw [execHandoverStep4Timeout, onHandover_at _ hlive hv hstage]
      simp [hback, hlate]
    · change execHandoverResumed s = _
      rw [execHandoverResumed, onHandover_at _ hlive hv hstage]
      simp only [hi, Option.any_some, hgood, hback, ← ht]
      rfl
    · change execTrialExpiry s = _
      rw [execTrialExpiry, onHandover_at _ hlive hv hstage, if_pos hlate]

end Sys2Proof.Proofs


/-!
PROOFS. The stage manager: its boot, watchdog, store and activation, and its opcodes.
-/
namespace Sys2Proof.Proofs

open Sys2Proof Sys2Proof.Machine Sys2Proof.Safety Sys2Proof.Laws

/-- Settles O25: each event by its premise, each opcode by what it reads or submits. -/
theorem stageManagerActs : Obligations.StageManagerActs := by
  intro fn qp h p c s
  refine ⟨fun hpow => ⟨fun hrun hrec => ?_, fun hrun => ⟨fun hlate htrial => ?_, fun hwriting => ?_, fun hreq hclear => ?_, fun t ht hlate hclear => ?_,
    fun htrial => ⟨fun hearly => ?_, fun hlate => ?_⟩, fun m t hm ht => ?_⟩⟩,
    fun H b hb => ⟨fun hrun => ?_, fun hrun => ?_⟩, fun H b hb => runPkt_wait H hb rfl, fun H b hb => runPkt_wait H hb rfl,
    fun H b hb => runPkt_wait H hb rfl, fun H b hb => runPkt_wait H hb rfl⟩
  · change execSmBoot s = _
    rw [execSmBoot, onAlways_of_powered _ hpow]
    simp [hrun, hrec]
  · change execSmWatchdogExpiry s = _
    rw [execSmWatchdogExpiry, onAlways_of_powered _ hpow]
    simp [hrun, htrial, Nat.not_lt.mpr hlate]
  · change execStoreBankCompare true s = _
    rw [execStoreBankCompare, onAlways_of_powered _ hpow]
    simp [hrun, hwriting]
  · change execSmActivateClearance s = _
    rw [execSmActivateClearance, onAlways_of_powered _ hpow]
    simp [hrun, hreq, hclear]
  · change execSmActivateTimeout s = _
    rw [execSmActivateTimeout, onAlways_of_powered _ hpow]
    simp [ht, hrun, hclear, Nat.not_lt.mpr hlate]
  · change execSmFwConfirm s = _
    rw [execSmFwConfirm, onAlways_of_powered _ hpow]
    simp [hrun, htrial, Nat.not_lt.mpr hearly]
  · change execSmTrialTimeout s = _
    rw [execSmTrialTimeout, onAlways_of_powered _ hpow]
    simp [hrun, htrial, hlate]
  · change execMgmtConfigApply s = _
    rw [execMgmtConfigApply, onAlways_of_powered _ hpow]
    simp [hm, hrun, ht]
  · exact runPkt_done H hb (by simp only [opSmReadLog, hrun]; rfl)
  · exact runPkt_wait H hb (by simp only [opSmReadLog, hrun]; rfl)

end Sys2Proof.Proofs


/-!
PROOFS. The call board: assignment, panels, takes and completions, moderation and masks.
-/
namespace Sys2Proof.Proofs

open Sys2Proof Sys2Proof.Machine Sys2Proof.Safety Sys2Proof.Laws

/-- A whole write of ones to a register of a panel acts on each source that it names. -/
theorem panelWrite_whole {a : Access} {reg base : Nat} {srcs : List Nat} {s : State} (f : State → Nat → State) (H : hostWrites a.fn s = true)
    (hwr : a.wr = true) (hsize : a.size = 8) (haligned : a.aligned = true) (hpanel : s.panelAt a.fn a.off = some (base, srcs))
    (hreg : a.off / 8 * 8 = base + reg) :
    panelWrite a reg s f =
      .next (srcs.zipIdx.foldl (fun t e => if (a.val % 2 ^ 64).testBit e.2 then f t e.1 else t) ((s.ao 11 8).dropHeld a.fn (base + reg))) := by
  simp only [panelWrite, hwr, if_true, hpanel, hreg, hsize, barWrite_of_hostWrites _ _ _ H, State.write64, haligned]
  simp

theorem stackOf_ao (s : State) (n k : Nat) (t : CallTarget) : (s.ao n k).stackOf t = s.stackOf t := by cases t <;> rfl

/-- Settles O26: the assignment, the registers of a panel, the registers of a vector, and what moderation held. -/
theorem callBoardActs : Obligations.CallBoardActs := by
  intro fn qp vec src a h p c s
  refine ⟨fun H b hb l hl hgive hfree hroom => ?_,
    fun H hwr hsize haligned base srcs hpanel on_ hon => ⟨fun hreg => ?_, fun hreg => ?_, fun hreg => ?_, fun hreg => ?_⟩,
    fun H hvec => ⟨?_, fun e l hstack he => ?_, ?_⟩, fun v t hlive hv hmod hlast hdue hpba hcand hquiet => ?_⟩
  · refine runPkt_ok H hb ?_
    simp only [opCallAssign, ← hl, if_neg hgive, hfree, Nat.not_lt.mpr hroom, Verdict.ok]
    simp
  · change execCallMaskSet a s = _
    rw [execCallMaskSet, panelWrite_whole _ H hwr hsize haligned hpanel hreg, hon]
  · change execCallMaskClr a s = _
    rw [execCallMaskClr, panelWrite_whole _ H hwr hsize haligned hpanel hreg, hon]
  · change execCallPendSet a s = _
    rw [execCallPendSet, panelWrite_whole _ H hwr hsize haligned hpanel hreg, hon]
  · change execCallPendClr a s = _
    rw [execCallPendClr, panelWrite_whole _ H hwr hsize haligned hpanel hreg, hon]
  · change execCallVTake fn vec s = _
    rw [execCallVTake, if_pos hvec, barWrite_of_hostWrites _ _ _ H]
  · change execCallVDone fn vec src s = _
    rw [execCallVDone, if_pos hvec, barWrite_of_hostWrites _ _ _ H]
    simp only [stackOf_ao, hstack, if_pos he]
  · change execMsixUnmask fn vec s = _
    rw [execMsixUnmask, if_pos hvec, barWrite_of_hostWrites _ _ _ H]
  · change execModerationExpiry fn vec s = _
    rw [execModerationExpiry, onMainIf_of_live _ hlive]
    simp [← hv, hmod, hlast, hdue, hpba, hcand, hquiet]

end Sys2Proof.Proofs


/-!
PROOFS. The host endpoint: function-level resets, VF Enable, BAR sizes, mailboxes, and the commands of class 0x0D.
-/
namespace Sys2Proof.Proofs

open Sys2Proof Sys2Proof.Machine Sys2Proof.Safety Sys2Proof.Laws

/-- A command on a VF in a state that it admits. -/
theorem onVf_admitted {s : State} {p : Bytes} {v : Nat} {ok : Nat → Vf → Bool} (f : Nat → Vf → Verdict) (hv : v = fld p 0 2)
    (hok : ok (s.vfState v) (s.vf v) = true) (hthere : s.vfState v ≠ 0) : onVf s p ok f = f v (s.vf v) := by
  subst hv
  simp [onVf, hok, hthere]

/-- A write of a register of the half that the side writes reaches it. -/
theorem mboxWrite_own {a : Access} {at_ v : Nat} {mgr : Bool} {s : State} (f : State → Nat → Bool → State) (H : hostWrites a.fn s = true)
    (hwr : a.wr = true) (haligned : a.aligned = true) (hvf : (aget s.host.vfs v).isSome = true) (hmgr : mgr = (a.fn == 0))
    (hat : mboxAt a.fn a.off = some (v, mgr, at_)) : mboxWrite a at_ s f = .next (f (s.ao 11 a.size) v mgr) := by
  have hthere : (aget (s.ao 11 a.size).host.vfs v).isNone = false := by
    change (aget s.host.vfs v).isNone = false
    rw [← Option.not_isSome, hvf]
    rfl
  simp only [mboxWrite, hwr, if_true, hat, barWrite_of_hostWrites _ _ _ H, haligned, hthere, ← hmgr]
  simp

/-- Settles O27: each event by what the host port finds, each command by the state of the VF that it names. -/
theorem hostEndpointActs : Obligations.HostEndpointActs := by
  constructor
  · intro fn num v mgr a s
    refine ⟨fun hup => ⟨fun hen hflr => ?_, fun hflr => ⟨fun hvf => ?_, ?_, fun hnum => ?_, fun hnum => ?_⟩⟩, fun hlive hflr => ?_,
      fun H hwr haligned hvf hmgr t ht => ⟨fun hat hsize => ?_, fun hat => ?_⟩⟩
    · change execFlr fn s = _
      simp [execFlr, hup, hen, hflr]
    · change execVfEnableSet num s = _
      simp [execVfEnableSet, hup, hflr, hvf]
    · change execVfEnableClear s = _
      simp [execVfEnableClear, hup, hflr]
    · change execBarResize false num s = _
      simp only [execBarResize, hup, hflr, List.contains_iff_mem.mpr hnum]
      simp
    · change execBarResize true num s = _
      simp only [execBarResize, hup, hflr, List.contains_iff_mem.mpr hnum]
      simp
    · change execFlrComplete fn s = _
      rw [execFlrComplete, onMainIf_of_live _ hlive hflr]
    · change execMboxSeqWrite a s = _
      rw [execMboxSeqWrite, mboxWrite_own _ H hwr haligned hvf hmgr hat, ← ht]
      simp [hsize]
    · change execMboxAckWrite a s = _
      rw [execMboxAckWrite, mboxWrite_own _ H hwr haligned hvf hmgr hat, ← ht]
  · intro fn qp v h p data c s
    refine ⟨fun hpos hv => ⟨fun H b hb hst hholds hqp hnvme hstreams hstage hsize hfree => ?_, fun H b hb hst => ?_, fun H b hb hst => ?_,
      fun H b hb => ⟨fun hop hst hroom m hm => ?_, fun hop hst => ?_, fun hop hst => ?_⟩, fun H b hb hst => ?_,
      fun H b hb => ⟨fun hpart hst htrack l hl t ht => ?_, fun hpart hst t n ht => ?_⟩, fun H b hb hst st d t ht => ?_, fun H b hb hst => ?_⟩,
      fun H k hk => ?_, fun hlive hst => ⟨fun hquiet => ?_, fun hlimit => ?_⟩⟩
    · refine runPkt_ok H hb ?_
      have hthere : b.vfState v ≠ 0 := by omega
      simp only [opVfSetResources, ← hv, hstage, hst, hholds, Nat.not_lt.mpr hqp, Nat.not_lt.mpr hnvme, Nat.not_lt.mpr hstreams]
      simp [onVf_admitted _ hv _ hthere, Nat.not_lt.mpr hsize, hfree, Verdict.ok]
    · exact runPkt_ok H hb (by simp only [opVfGetResources]; rw [onVf_admitted _ hv rfl hst])
    · exact runPkt_ok H hb (by simp only [opVfSetMbox]; rw [onVf_admitted _ hv rfl hst]; rfl)
    · change execVfTrackStart h p s = _
      rw [execVfTrackStart, if_neg (by omega)]
      refine runPkt_ok H hb ?_
      simp only [opVfTrack]
      rw [onVf_admitted _ hv (by simp [hst]) (by omega)]
      simp [hop, Nat.not_le.mpr hroom, hm, Verdict.ok]
    · change execVfTrackSync h p s = _
      rw [execVfTrackSync, if_pos hop]
      refine runPkt_ok H hb ?_
      simp only [opVfTrack]
      rw [onVf_admitted _ hv (by simp [hop]) hst]
      simp [hop, Verdict.ok]
    · change execVfTrackStop h p s = _
      rw [execVfTrackStop, if_pos hop]
      refine runPkt_ok H hb ?_
      simp only [opVfTrack]
      rw [onVf_admitted _ hv (by simp [hop]) hst]
      simp [hop, Verdict.ok]
    · refine runPkt_wait H hb ?_
      simp only [opVfFreeze]
      rw [onVf_admitted _ hv (by simp [hst]) (by omega)]
    · change execVfSavePrecopy h p s = _
      rw [execVfSavePrecopy, if_neg (by omega)]
      refine runPkt_done H hb ?_
      simp only [opVfSave]
      rw [onVf_admitted _ hv (by simp [hpart, hst, htrack]) (by omega)]
      simp only [if_pos hpart, ← hl, ← ht]
    · change execVfSaveFinal h p s = _
      rw [execVfSaveFinal, if_pos hpart]
      have hpart0 : fld p 2 1 ≠ 0 := by omega
      refine runPkt_done H hb ?_
      simp only [opVfSave]
      rw [onVf_admitted _ hv (by simp [hpart, hst]) (by omega)]
      simp only [if_neg hpart0, ht, if_true]
    · refine runPkt_done H hb ?_
      simp only [opVfRestore]
      rw [onVf_admitted _ hv (by simp [hst]) (by omega)]
      simp only [ht]
    · refine runPkt_ok H hb ?_
      simp only [opVfResume]
      rw [onVf_admitted _ hv (by simp [hst]) (by omega)]
      rfl
    · exact runPkt_ok H rfl (by simp only [opVfSetMigKey, ← hk, Verdict.ok])
    · change execVfFrozen v s = _
      rw [execVfFrozen, onMainIf_of_live _ hlive (by simp [hst, hquiet])]
    · change execVfFreezeDrainLimit v s = _
      rw [execVfFreezeDrainLimit, onMainIf_of_live _ hlive (by simp only [hst, hlimit]; rfl)]

end Sys2Proof.Proofs


/-!
PROOFS. Power, sensors, pins and resets: the rows of the power controller, and of the power-up and power-down path.
-/
namespace Sys2Proof.Proofs

open Sys2Proof Sys2Proof.Machine Sys2Proof.Safety Sys2Proof.Laws

/-- Settles O28: each row by what it finds of the phase of the main domain, the stage manager and the pins. -/
theorem powerAndPinsAct : Obligations.PowerAndPinsAct := by
  constructor
  · intro fn qp n v h p c s
    refine ⟨fun H => runPkt_ok H rfl rfl, fun H b hb => runPkt_wait H hb rfl, fun hpow => ⟨fun hthere => ⟨?_, ?_⟩,
      fun hrun hphase htick cap hcap t ht hemg hover hstep => ?_, fun t hrun hwarm hdue => ?_, fun hphase => ?_, fun hepr => ?_,
      fun t ht hepr hhigh hdue => ?_⟩⟩
    · change execSensorSample n (.value v) s = _
      rw [execSensorSample, onAlways_of_powered _ hpow]
      simp [hthere]
    · change execSensorSample n .bad s = _
      rw [execSensorSample, onAlways_of_powered _ hpow]
      simp [hthere]
    · change execPowerControlTick s = _
      rw [execPowerControlTick, onAlways_of_powered _ hpow]
      simp only [← hcap, ← ht, hrun, hemg, if_pos hover, if_pos hstep, Nat.not_lt.mpr htick]
      simp [hphase]
    · change execThermalCapStep s = _
      rw [execThermalCapStep, onAlways_of_powered _ hpow]
      simp [hrun, hwarm, hdue]
    · change execEprNLow s = _
      rw [execEprNLow, onAlways_of_powered _ hpow]
      simp [hphase]
    · change execEprNHigh s = _
      rw [execEprNHigh, onAlways_of_powered _ hpow]
      simp [hepr]
    · change execEprHoldExpiry s = _
      rw [execEprHoldExpiry, onAlways_of_powered _ hpow]
      simp [ht, hepr, hhigh, hdue]
  · intro straps addr s
    refine ⟨fun hpow => ?_, rfl, rfl, fun hlive hperst hlink => ?_, fun hpow => ⟨?_, ?_, fun hin hremoved hen => ?_, ?_, fun hok hrst => ?_, fun hphase => ?_,
      fun hrst hphase => ?_, fun hphase => ⟨fun hhold => ?_, fun t ht hdue hrst => ?_⟩, fun hperst hphase hstrap => ?_, fun htab hphase => ?_,
      fun hrun hlate => ?_, fun hrun => ?_⟩⟩
    · change execAonPowerUp straps s = _
      simp [execAonPowerUp, hpow]
    · change execHostLinkUp s = _
      rw [execHostLinkUp, onMainIf_of_live _ hlive (by simp [hperst, hlink])]
    · change execAonPowerOff s = _
      rw [execAonPowerOff, onAlways_of_powered _ hpow]
    · change execInputOutOfRange s = _
      rw [execInputOutOfRange, onAlways_of_powered _ hpow]
    · change execInputRestored s = _
      rw [execInputRestored, onAlways_of_powered _ hpow]
      simp [hin, hremoved, hen]
    · change execPwrEnLow s = _
      simp [execPwrEnLow, hpow]
    · change execMainPowerUp s = _
      rw [execMainPowerUp, onAlways_of_powered _ hpow]
      simp [State.mainUp, hok, hrst]
    · change execMainDomainReady s = _
      rw [execMainDomainReady, onAlways_of_powered _ hpow]
      simp [hphase]
    · change execSysRstAssert s = _
      simp [execSysRstAssert, hpow, hrst, hphase]
    · change execSysRstRelease s = _
      simp [execSysRstRelease, hpow, hphase, hhold]
    · change execPerstResetHoldExpiry s = _
      rw [execPerstResetHoldExpiry, onAlways_of_powered _ hpow]
      simp [ht, hphase, hdue, hrst]
    · change execHpPerstAssert s = _
      simp [execHpPerstAssert, hpow, hperst, hphase, hstrap]
    · change execTableauNFall s = _
      rw [execTableauNFall, onAlways_of_powered _ hpow]
      simp [State.enterTableau, htab, hphase]
    · change execAlertNAssert s = _
      rw [execAlertNAssert, onAlways_of_powered _ hpow]
      simp [hrun, hlate]
    · change execDynamicAddressAssigned addr s = _
      rw [execDynamicAddressAssigned, onAlways_of_powered _ hpow]
      simp [hrun]

end Sys2Proof.Proofs


/-!
PROOFS. Observation: snapshot areas, counters, the trace, and the Tableau with its read-out.
-/
namespace Sys2Proof.Proofs

open Sys2Proof Sys2Proof.Machine Sys2Proof.Safety Sys2Proof.Laws

/-- Settles O29: each command by the branch of its effect that its premises choose, and each row of the Tableau. -/
theorem observationActs : Obligations.ObservationActs := by
  intro fn qp space addr len req h p c s
  refine ⟨fun H a ha => ?_, fun H b hb a k ha hk hlt hcount => ?_, fun H hevent g hg => ?_, fun H b hb harmed hpost => ?_, fun H => runPkt_ok H rfl rfl,
    fun H => runPkt_ok H rfl rfl, fun H b hb hst => ?_, fun H b hb l hst hl hne => ?_, fun H => runPkt_wait H rfl rfl,
    fun H b hb r f halign hlen hr hf => ?_, fun hpow => ⟨fun htab hstop hrun t ht => ?_, fun htab hstop => ?_, fun htab hrun hop hlen hspace hbytes => ?_⟩⟩
  · exact runPkt_ok H rfl (by simp only [opObsSetSnapArea, ← ha, Verdict.ok])
  · refine runPkt_ok H hb ?_
    simp only [opObsSnapHead, ha, ← hk, Nat.not_le.mpr hlt, Nat.not_lt.mpr hcount, Verdict.ok]
    simp
  · exact runPkt_ok H rfl (by simp only [opObsSetCounter, if_neg (not_not_intro hevent), ← hg, Verdict.ok])
  · refine runPkt_ok H hb ?_
    have hidle : ¬ (b.obs.st = 1 ∨ b.obs.st = 2) := by simp [harmed, hpost]
    simp only [opObsTraceCfg, if_neg hidle, Verdict.ok]
  · exact runPkt_ok H hb (by simp only [opObsTrigger, if_pos hst, Verdict.ok])
  · refine runPkt_ok H hb ?_
    simp only [opObsTraceRead, if_neg (not_not_intro hst), ← hl]
    simp [hne]
  · refine runPkt_ok H hb ?_
    simp only [opObsClearCounters, if_pos (And.intro halign hlen), hr, Option.bind_some, hf, Verdict.ok]
  · change execTableauStopped s = _
    rw [execTableauStopped, onAlways_of_powered _ hpow]
    simp only [htab, hstop, hrun, ← ht]
    rfl
  · change execJtagAccess space addr len s = _
    rw [execJtagAccess, onAlways_of_powered _ hpow]
    simp only [htab, hstop]
    rfl
  · change execMgmtScanRequest space req s = _
    rw [execMgmtScanRequest, onAlways_of_powered _ hpow]
    have hstay : s.enterTableau 4 0 = s := by simp [State.enterTableau, htab]
    simp only [hrun, hop, hlen, Nat.not_lt.mpr hspace, Nat.not_lt.mpr hbytes, hstay, htab]
    rfl

end Sys2Proof.Proofs


/-!
PROOFS. The SPDM responder and its sessions, and the management network.
-/
namespace Sys2Proof.Proofs

open Sys2Proof Sys2Proof.Machine Sys2Proof.Safety Sys2Proof.Laws

/-- A request that comes in its place is taken. -/
theorem spdmTake_inPlace {s : State} {m code ver need : Nat} {req : Bytes} (f : State → Spdm → State) (hears : s.smHears m = true)
    (hlen : 4 ≤ req.length) (hcode : fld req 1 1 = code) (hver : fld req 0 1 = ver) (hneed : need ≤ (s.conn m).st) :
    s.spdmTake m code ver need req f = f s (s.conn m) := by
  simp [State.spdmTake, hears, Nat.not_lt.mpr hlen, hcode, hver, Nat.not_lt.mpr hneed]

/-- A message of a session that stands as the request asks is taken. -/
theorem sessTake_inPlace {s : State} {m sess code : Nat} {live : Bool} {req : Bytes} (f : State → State) (hears : s.smHears m = true) (hm : m ≠ 0)
    (hsess : s.sm.sess.any (fun x => x.id == sess && x.medium == m && x.live == live) = true) (hlen : 4 ≤ req.length) (hcode : fld req 1 1 = code)
    (hver : fld req 0 1 = 0x12) : s.sessTake m sess code live req f = f s := by
  simp only [State.sessTake, hears, hm, hsess, Nat.not_lt.mpr hlen, hcode, hver]
  simp

/-- Settles O30: each request that comes in its place, by its own answer. -/
theorem spdmActs : Obligations.SpdmActs := by
  constructor
  · intro m code ver need req s hpow hears hlen hcode hver hneed
    refine ⟨fun hc hv => ?_, fun hv => ⟨fun hc hn b hb r hr => ?_, fun hc hn => ?_, fun hn => ⟨fun hc r hr => ?_, fun hc hslot hlong hoff part hpart r hr => ?_,
      fun hc hslot hlong r hr => ?_, fun hc hsigned hlong hslot hop l hl r hr => ?_, fun hc hm hroom hlong hslot b hb r hr g hg => ?_⟩⟩⟩
    · subst hc hv
      change execGetVersion m req s = _
      rw [execGetVersion, onAlways_of_powered _ hpow, spdmTake_inPlace _ hears hlen hcode hver (Nat.zero_le _)]
    · subst hc hv hn
      change execGetCapabilities m req s = _
      rw [execGetCapabilities, onAlways_of_powered _ hpow, spdmTake_inPlace _ hears hlen hcode hver hneed, hr, hb]
    · subst hc hv hn
      change execNegotiateAlgorithms m req s = _
      rw [execNegotiateAlgorithms, onAlways_of_powered _ hpow, spdmTake_inPlace _ hears hlen hcode hver hneed]
    · subst hc hv hn
      change execGetDigests m req s = _
      rw [execGetDigests, onAlways_of_powered _ hpow, spdmTake_inPlace _ hears hlen hcode hver hneed, hr]
    · subst hc hv hn
      change execGetCertificate m req s = _
      have hgood : ¬ (fld req 2 1 ≠ 0 ∨ req.length < 8 ∨ Config.certChain.length < fld req 4 2) := by omega
      rw [execGetCertificate, onAlways_of_powered _ hpow, spdmTake_inPlace _ hears hlen hcode hver hneed, hr, hpart]
      simp only [if_neg hgood]
    · subst hc hv hn
      change execChallenge m req s = _
      have hgood : ¬ (fld req 2 1 ≠ 0 ∨ req.length < 36) := by omega
      rw [execChallenge, onAlways_of_powered _ hpow, spdmTake_inPlace _ hears hlen hcode hver hneed, hr]
      simp only [if_neg hgood]
    · subst hc hv hn
      change execGetMeasurements m req s = _
      have hgood : ¬ (req.length < 37 ∨ fld req 36 1 ≠ 0 ∨ (7 < fld req 3 1 ∧ fld req 3 1 ≠ 0xFF)) := by omega
      rw [execGetMeasurements, onAlways_of_powered _ hpow, spdmTake_inPlace _ hears hlen hcode hver hneed, hr, hl]
      simp only [hsigned, if_neg hgood]
      simp [hop]
    · subst hc hv hn
      change execKeyExchange m req s = _
      have hgood : ¬ (req.length < 104 ∨ fld req 3 1 ≠ 0) := by omega
      rw [execKeyExchange, onAlways_of_powered _ hpow, spdmTake_inPlace _ hears hlen hcode hver hneed, hg, hr, hb]
      simp only [if_neg hm, if_neg (Nat.not_le.mpr hroom), if_neg hgood]
  · intro m sess code live req s hpow hears hm hsess hlen hcode hver
    refine ⟨fun hc hlive hok => ?_, fun hc hlive hop => ?_, fun hc hlive => ?_⟩
    · subst hc hlive
      change execFinish m sess req s = _
      rw [execFinish, onAlways_of_powered _ hpow, sessTake_inPlace _ hears hm hsess hlen hcode hver, if_pos hok]
    · subst hc hlive
      change execKeyUpdate m sess req s = _
      rw [execKeyUpdate, onAlways_of_powered _ hpow, sessTake_inPlace _ hears hm hsess hlen hcode hver]
      simp [hop]
    · subst hc hlive
      change execEndSession m sess req s = _
      rw [execEndSession, onAlways_of_powered _ hpow, sessTake_inPlace _ hears hm hsess hlen hcode hver]

/-- Settles O31: each message while the stage manager runs, by the command that it carries. -/
theorem managementNetworkAnswered : Obligations.ManagementNetworkAnswered := by
  intro m sess req s hpow hrun hm
  have hears (rom : Bool) : s.mgmtHears m rom = true := by simp [State.mgmtHears, hm, hrun]
  refine ⟨fun hlen hcmd => ?_, fun hlen => ⟨fun hcmd => ?_, fun hcmd hn n st hn' hst => ?_, fun hcmd => ?_, fun hok hcmd hcomp hsize hreq n hn => ?_⟩, fun hsess => ?_,
    fun x l hx => ⟨?_, fun r hlate hsends hr => ?_⟩, fun hok hver htab hreq htrial hrec => ?_⟩
  · change execMctpControl m req s = _
    rw [execMctpControl, onAlways_of_powered _ hpow]
    simp [hears, Nat.not_lt.mpr hlen, hcmd]
  · change execPldmBase m req s = _
    rw [execPldmBase, onAlways_of_powered _ hpow]
    simp [hears, Nat.not_lt.mpr hlen, hcmd]
  · change execPldmPlatform m req s = _
    rw [execPldmPlatform, onAlways_of_powered _ hpow]
    simp only [hears, Nat.not_lt.mpr hlen, hcmd, ← hn', ← hst, if_neg (Nat.not_lt.mpr (hn' ▸ hn))]
    simp
  · change execPldmFru m req s = _
    rw [execPldmFru, onAlways_of_powered _ hpow]
    simp [hears, Nat.not_lt.mpr hlen, hcmd]
  · change execPldmFirmwareUpdate m sess req s = _
    rw [execPldmFirmwareUpdate, onAlways_of_powered _ hpow]
    simp only [hears, Nat.not_lt.mpr hlen, hok, hcmd, hcomp, hreq, ← hn, Nat.not_lt.mpr (hn ▸ hsize)]
    simp
  · change execSetEventReceiver m sess s = _
    rw [execSetEventReceiver, onAlways_of_powered _ hpow]
    simp [hears, Nat.ne_of_gt hsess]
  · change execHealthResendTimer true s = _
    rw [execHealthResendTimer, onAlways_of_powered _ hpow]
    simp [hx, hrun]
  · change execHealthResendTimer false s = _
    rw [execHealthResendTimer, onAlways_of_powered _ hpow]
    simp [hx, hrun, Nat.not_lt.mpr hlate, Nat.not_le.mpr hsends, hr]
  · change execActivateFirmware m sess req s = _
    rw [execActivateFirmware, onAlways_of_powered _ hpow]
    simp [hears, hok, hver, htab, hreq, htrial, hrec]

end Sys2Proof.Proofs


/-!
PROOFS. A packet that fails a check of steps 1 to 8: it is fetched and answered, and nothing else happens.
-/
namespace Sys2Proof.Proofs

open Sys2Proof Sys2Proof.Machine Sys2Proof.Safety Sys2Proof.Laws

/-- A packet that starts is fetched, and then checked and carried out in the state that its fetch leaves. -/
theorem runPkt_start {sp : OpSpec} {fn qp : Nat} {h : Hdr} {p : Bytes} {s : State} {q : QPair} (hchan : h.chan = .host fn qp)
    (hq : aget s.cmd.qps (qpKey fn qp) = some q) (hnew : s.cmd.fetched.find? (fun f => f.isCmd sp.code h p) = none)
    (hfetch : s.canFetch fn q h = true) (hwait : s.cmd.waiting.any (fun w => w.opcode == 0x0005 && w.aux == qpKey fn qp) = false)
    (hstart : s.mayStart (qpKey fn qp) h = true) (hok : h.sqOk = true) :
    runPkt sp h p s = .next ((s.fetchSlots fn qp h sp.code).start sp
      { opcode := sp.code, hdr := h, params := p, sqHead := (agetD (s.fetchSlots fn qp h sp.code).cmd.qps (qpKey fn qp) {}).head }) := by
  unfold runPkt
  simp only [hchan, hnew, hq, hfetch, hwait, hok, hstart]
  simp

/-- Settles O58: the rows named are runs of `runPkt`, and a failed check ends in the reply. -/
theorem checkedPacketsOnly : Obligations.CheckedPacketsOnly := by
  refine ⟨fun h p s => ⟨rfl, rfl, rfl, rfl, rfl, rfl, rfl, rfl, rfl, rfl, rfl, rfl, rfl, rfl, rfl, rfl, rfl, rfl, rfl, rfl, rfl, rfl⟩, ?_⟩
  intro sp fn qp h p s q status detail st hchan hfn hq hnew hfetch hwait hstart hok b hb hcheck
  have hcaller : h.chan.fn = fn := by rw [hchan]; rfl
  have hnote : (s.fetchSlots fn qp h sp.code).note h.unit 0x0002 fn (sp.code + 65536 * h.hostTag) 0 = b := hb.symm
  rw [runPkt_start hchan hq hnew hfetch hwait hstart hok]
  simp only [State.start, hcaller, if_pos hfn, hnote, hcheck, replyBase, ← hb]

end Sys2Proof.Proofs


/-!
PROOFS. Stores to GDDR7: DMA.COPY that traps under module privilege lets a FW_UNLOAD_MODULE that waited clear the module's area (R409, R432).
-/
namespace Sys2Proof.Proofs

open Sys2Proof Sys2Proof.Machine Sys2Proof.Safety Sys2Proof.Laws

/-- The module of class 0xE0, with an area of 1 KiB. -/
def loadedModule : StgModule := { cls := 0xE0, areaKib := 1 }

/-- The module's command, which a stagehand runs. -/
def moduleCommand : WaitCmd := { kind := wModule, aux := 0xE0 }

/-- The FW_UNLOAD_MODULE that waits for it. -/
def unloadCommand : WaitCmd := { opcode := 0x0C09, kind := wUnload, aux := 0xE0 }

/-- A state in which stagehand 0 runs the module, which may use no coprocessor, while its unloading waits; the first byte of the module's
area holds 1. -/
def unloadWaits : State :=
  { State.reset with
    aon := { State.reset.aon with mainPhase := .ready }
    onb := { State.reset.onb with cores := [(0, { running := true, priv := true, tvecSet := true, mchi := 4, mbudget := 1 })] }
    stg := { State.reset.stg with modules := [loadedModule] }
    cmd := { State.reset.cmd with waiting := [moduleCommand, unloadCommand] }
    gddr := [(State.reset.areaBase 0xE0, 1)] }

/-- The byte at an address in the state that an outcome answers. -/
def byteAfter (x : Nat) (r : Res) : Option Byte :=
  match r with
  | .next t => some (memGet t.gddr x)
  | _ => none

/-- DMA.COPY traps CP_DENIED, which ends the module's command, and the unloading that waited clears the area. -/
theorem byteAfter_dmaCopy_unloadWaits :
    byteAfter (State.reset.areaBase 0xE0) (exec (.dmaCopy 0 0 0 [] 0) unloadWaits) = some 0 := by decide +kernel

/-- Before, the first byte of the area holds 1. -/
theorem memGet_unloadWaits : memGet unloadWaits.gddr (State.reset.areaBase 0xE0) = 1 := by
  simp [memGet, unloadWaits, agetD, aget]

/-- Its descriptor, at the local address 0 that nothing has written, names local memory as the destination. -/
theorem dstSpace_unloadWaits :
    ((unloadWaits.core 0).dmaDesc ((unloadWaits.core 0).reg 0).val.toNat).dstSpace = 0 := by decide

/-- Refutes O48: a DMA.COPY that a module may not use traps CP_DENIED; the trap ends the module's command, and a FW_UNLOAD_MODULE that waited
for it then clears the module's area, which is no destination of the copy. -/
theorem not_storesStayInPlace : ¬ Obligations.StoresStayInPlace := by
  intro h
  obtain ⟨t, hstep⟩ : ∃ t, exec (.dmaCopy 0 0 0 [] 0) unloadWaits = .next t := ⟨_, rfl⟩
  obtain ⟨-, -, hcopy⟩ := h (State.reset.areaBase 0xE0) unloadWaits t
  have hsame := hcopy 0 0 0 0 [] hstep _ rfl (fun hs => by simp [dstSpace_unloadWaits] at hs)
  have hafter := byteAfter_dmaCopy_unloadWaits
  rw [hstep] at hafter
  simp only [State.mem, memTake, List.cons.injEq, and_true, memGet_unloadWaits] at hsame
  simp [byteAfter, hsame] at hafter

end Sys2Proof.Proofs


/-!
PROOFS. What memory a packet leaves, first half: a packet is fetched and checked without a change of memory, of its layout, of the stagehands
or of the links of the troupe, and then refused, forwarded, held or carried out (R76, R94).
-/
namespace Sys2Proof.Proofs

open Sys2Proof Sys2Proof.Machine Sys2Proof.Safety Sys2Proof.Laws

/-- A property of some pieces is closed under the changes that spare each of them. -/
theorem keeps_of_kept {P : State → Prop} (m : Nat) (ps : List Piece) (hP : ∀ s t, (∀ q ∈ ps, q.same s t) → P s → P t)
    (e : ps.all (spares m) = true := by decide) : Keeps P m := by
  intro k hk
  refine closed_of_frame fun s t hchange => hP s t fun q hq => hchange.2 q fun hmem => ?_
  have hspared := List.all_eq_true.mp (List.all_eq_true.mp e q hq) k (List.mem_range.mpr (lt_of_mem_effect hmem))
  simp [hk, hmem] at hspared

/-! ## The links of the troupe and the regions -/

/-- The troupe's links and the registered regions, which decide where a head has written parameters. -/
def links (s : State) : List Member × List (Nat × Region) := (s.net.members, s.net.regions)

theorem headParams_congr {s t : State} (h : links t = links s) : t.headParams = s.headParams := by
  obtain ⟨hmembers, hregions⟩ := Prod.mk.inj h
  simp only [State.headParams, State.region, hmembers, hregions]

@[simp] theorem links_upObs (s : State) (f : Obs → Obs) : links (s.upObs f) = links s := rfl

@[simp] theorem links_ao (s : State) (n k : Nat) : links (s.ao n k) = links s := rfl

@[simp] theorem links_enterTableau (s : State) (cause trig : Nat) : links (s.enterTableau cause trig) = links s := by
  unfold State.enterTableau
  split <;> rfl

@[simp] theorem links_tracePut (s : State) (r : Bytes) : links (s.tracePut r) = links s := by
  unfold State.tracePut
  dsimp only
  repeat' split
  all_goals simp

@[simp] theorem links_traceTrigger (s : State) (i : Nat) (r : Bytes) : links (s.traceTrigger i r) = links s := by
  unfold State.traceTrigger
  dsimp only
  split <;> simp

theorem links_traceJudge (s : State) (unit code fn d0 d1 : Nat) (sat : TTrig → Bool) :
    links (s.traceJudge unit code fn d0 d1 sat) = links s := by
  unfold State.traceJudge
  dsimp only
  repeat' split
  all_goals simp [State.traceDrop]

theorem links_sendMsg (s : State) (k : Nat) : links (s.sendMsg k) = links s := by
  unfold State.sendMsg
  dsimp only
  split
  · rfl
  · exact links_traceJudge ..

theorem links_newlyEligible (s : State) (t : CallTarget) : links (s.newlyEligible t) = links s := by
  unfold State.newlyEligible
  split
  · unfold State.tell1
    dsimp only
    repeat' split
    · rfl
    · exact links_sendMsg ..
    · rfl
  · rfl

theorem links_note (s : State) (unit code fn d0 d1 : Nat) : links (s.note unit code fn d0 d1) = links s := by
  unfold State.note State.withObs
  dsimp only
  split
  · rw [links_newlyEligible]; exact links_traceJudge ..
  · exact links_traceJudge ..

/-! ## A state prepared for a command -/

/-- Memory, its layout, the stagehands' state and the links are as they were, and no further command waits. -/
structure Prepared (s t : State) : Prop where
  gddr : t.gddr = s.gddr
  glb : t.glb = s.glb
  stg : t.stg = s.stg
  links : links t = links s
  waits : WaitsIn s.cmd.waiting t

variable {s t u : State}

theorem prepared_self (s : State) : Prepared s s := ⟨rfl, rfl, rfl, rfl, waitsIn_self s⟩

/-- A change of the command interface prepares, where no further command waits. -/
theorem prepared_upCmd (f : Cmd → Cmd) (h : Prepared s t) (hf : ∀ c, (f c).waiting = c.waiting) : Prepared s (t.upCmd f) :=
  ⟨h.gddr, h.glb, h.stg, h.links, fun w hw => h.waits w (by simpa [hf] using hw)⟩

theorem keeps_prepared (m : Nat) (e : [Piece.gddr, .glb, .stg, .net, .cmd].all (spares m) = true := by decide) : Keeps (Prepared s) m := by
  refine keeps_of_kept m _ (fun t u hsame h => ?_) e
  simp only [List.forall_mem_cons, List.not_mem_nil, false_implies, implies_true, and_true] at hsame
  obtain ⟨hgddr, hglb, hstg, hnet, hcmd⟩ := hsame
  change u.net = t.net at hnet
  exact ⟨hgddr.trans h.gddr, hglb.trans h.glb, hstg.trans h.stg, by rw [← h.links, Proofs.links, Proofs.links, hnet],
    waitsIn_of_cmd t u hcmd h.waits⟩

theorem prepared_note (unit code fn d0 d1 : Nat) (h : Prepared s t) : Prepared s (t.note unit code fn d0 d1) := by
  obtain ⟨hgddr, hglb, hstg, hcmd⟩ : (t.note unit code fn d0 d1).gddr = t.gddr ∧ (t.note unit code fn d0 d1).glb = t.glb ∧
      (t.note unit code fn d0 d1).stg = t.stg ∧ (t.note unit code fn d0 d1).cmd = t.cmd := by
    refine keeps_note (P := fun u => u.gddr = t.gddr ∧ u.glb = t.glb ∧ u.stg = t.stg ∧ u.cmd = t.cmd)
      (keeps_of_kept _ [.gddr, .glb, .stg, .cmd] fun u v hsame hu => ?_) ⟨rfl, rfl, rfl, rfl⟩
    simp only [List.forall_mem_cons, List.not_mem_nil, false_implies, implies_true, and_true] at hsame
    obtain ⟨hgddr, hglb, hstg, hcmd⟩ := hsame
    exact ⟨hgddr.trans hu.1, hglb.trans hu.2.1, hstg.trans hu.2.2.1, hcmd.trans hu.2.2.2⟩
  exact ⟨hgddr.trans h.gddr, hglb.trans h.glb, hstg.trans h.stg, (links_note ..).trans h.links, waitsIn_of_cmd _ _ hcmd h.waits⟩

theorem prepared_hostRead (fn a n : Nat) (h : Prepared s t) : Prepared s (t.hostRead fn a n) := keeps_hostRead (keeps_prepared _) h

theorem prepared_fetchSlots (fn qp : Nat) (h : Hdr) (opcode : Nat) : Prepared s (s.fetchSlots fn qp h opcode) := by
  unfold State.fetchSlots
  dsimp only
  refine prepared_note _ _ _ _ _ ?_
  have hread : Prepared s (s.readSlots fn qp h) := prepared_hostRead _ _ _ (prepared_self s)
  split
  · exact prepared_hostRead _ _ _ (prepared_upCmd _ (prepared_upCmd _ hread fun _ => rfl) fun _ => rfl)
  · exact prepared_upCmd _ (prepared_upCmd _ hread fun _ => rfl) fun _ => rfl

/-- Where the pointer parameters of a command lie goes by the journals and the layout of memory. -/
theorem replayAddr_congr {h : Hdr} (hentries : t.cmd.entries = s.cmd.entries) (hglb : t.glb = s.glb) : t.replayAddr h = s.replayAddr h := by
  simp only [State.replayAddr, State.replayBase, hentries, partBase_congr hglb]

/-- A state in which a command of a header starts: it is prepared, and the command's parameters have their place as they have it before or
after its fetch. -/
structure Starting (s : State) (h : Hdr) (t : State) : Prop extends Prepared s t where
  place : ∃ v, (v = s ∨ ∃ fn qp opcode, v = s.fetchSlots fn qp h opcode) ∧ t.replayAddr h = v.replayAddr h

theorem starting_self (s : State) (h : Hdr) : Starting s h s := ⟨prepared_self s, s, .inl rfl, rfl⟩

theorem starting_fetchSlots (s : State) (fn qp : Nat) (h : Hdr) (opcode : Nat) : Starting s h (s.fetchSlots fn qp h opcode) :=
  ⟨prepared_fetchSlots fn qp h opcode, _, .inr ⟨fn, qp, opcode, rfl⟩, rfl⟩

theorem note_cmd (s : State) (unit code fn d0 d1 : Nat) : (s.note unit code fn d0 d1).cmd = s.cmd :=
  keeps_note (P := fun u => u.cmd = s.cmd) (keeps_of_spared _ .cmd fun _ _ hsame hu => hsame.trans hu) rfl

theorem starting_note {h : Hdr} (unit code fn d0 d1 : Nat) (H : Starting s h t) : Starting s h (t.note unit code fn d0 d1) := by
  obtain ⟨v, hv, hplace⟩ := H.place
  have hglb : (t.note unit code fn d0 d1).glb = t.glb :=
    keeps_note (P := fun u => u.glb = t.glb) (keeps_of_spared _ .glb fun _ _ hsame hu => hsame.trans hu) rfl
  exact ⟨prepared_note _ _ _ _ _ H.toPrepared, v, hv, (replayAddr_congr (congrArg _ (note_cmd ..)) hglb).trans hplace⟩

/-! ## The cases of a packet -/

variable {sp : OpSpec} {h : Hdr} {p : Bytes}

/-- What becomes of a packet: nothing more than its preparation, an error of its queue pair, its start, or, after it was held, its effect. -/
inductive Course (sp : OpSpec) (h : Hdr) (p : Bytes) (s : State) : State → Prop where
  | waits {v : State} (H : Prepared s v) : Course sp h p s v
  | errs {v : State} (fn qp reason : Nat) (H : Prepared s v) : Course sp h p s (v.qpError fn qp reason)
  | starts {v : State} (f : FetchedCmd) (H : Starting s h v) (hhdr : f.hdr = h) (hparams : f.params = p) : Course sp h p s (v.start sp f)
  | acts {v : State} (c : Caller) (r : Rep) (H : Prepared s v) : Course sp h p s (v.carry sp c h p r)

theorem course_proceed {f : FetchedCmd} (hfind : s.cmd.fetched.find? (fun f => f.isCmd sp.code h p) = some f) :
    Course sp h p s (s.proceed sp f) := by
  have hcmd := List.find?_some hfind
  simp only [FetchedCmd.isCmd, Bool.and_eq_true, beq_iff_eq] at hcmd
  obtain ⟨⟨-, hhdr⟩, hparams⟩ := hcmd
  have hprep : Prepared s (s.upCmd (fun c => { c with fetched := c.fetched.filter (fun x => x != f) })) :=
    prepared_upCmd _ (prepared_self s) fun _ => rfl
  unfold State.proceed
  dsimp only
  split
  · subst hhdr hparams
    exact .acts _ _ hprep
  · exact .starts f ⟨hprep, s, .inl rfl, replayAddr_congr rfl rfl⟩ hhdr hparams

theorem course_mgmtTake {sess : Nat} : Course sp h p s (s.mgmtTake sp h p sess) := by
  have hsm : ∀ f, Starting s h (s.upSm f) := fun f => ⟨⟨rfl, rfl, rfl, rfl, waitsIn_self s⟩, s, .inl rfl, replayAddr_congr rfl rfl⟩
  unfold State.mgmtTake
  split
  next f hfind =>
    split
    · exact course_proceed hfind
    · exact .waits (prepared_self s)
  next =>
    split
    · dsimp only
      split
      · exact .waits (prepared_upCmd _ (hsm _).toPrepared fun _ => rfl)
      · exact .starts _ (hsm _) rfl rfl
    · exact .waits (prepared_self s)

theorem course_headTake {peer : Nat} : Course sp h p s (s.headTake sp h p peer) := by
  unfold State.headTake
  split
  · exact .waits (prepared_self s)
  · split
    next f hfind =>
      split
      · exact course_proceed hfind
      · exact .waits (prepared_self s)
    next =>
      dsimp only
      split
      · exact .waits (prepared_upCmd _ (prepared_self s) fun _ => rfl)
      · exact .starts _ (starting_self s h) rfl rfl

theorem course_runPkt (hrun : runPkt sp h p s = .next t) : Course sp h p s t := by
  unfold runPkt at hrun
  split at hrun
  next fn qp hchan =>
    dsimp only at hrun
    split at hrun
    next f hfind =>
      split at hrun <;> cases hrun
      · exact course_proceed hfind
      · exact .waits (prepared_self s)
    next =>
      split at hrun
      · cases hrun
        exact .waits (prepared_self s)
      · repeat' split at hrun
        all_goals cases hrun
        · exact .errs _ _ _ (prepared_hostRead _ _ _ (prepared_self s))
        · exact .starts _ (starting_fetchSlots s fn qp h sp.code) rfl rfl
        · exact .waits (prepared_upCmd _ (prepared_fetchSlots fn qp h sp.code) fun _ => rfl)
        · exact .waits (prepared_upCmd _ (prepared_self s) fun _ => rfl)
        · exact .waits (prepared_self s)
  next sess hchan =>
    cases hrun
    exact course_mgmtTake
  next peer _ _ _ _ _ hchan =>
    cases hrun
    exact course_headTake

end Sys2Proof.Proofs


/-!
PROOFS. What memory a packet leaves, second half: what a refusal, a reply, a forwarding and each command's effect leave of a byte (R94, R149).
-/
namespace Sys2Proof.Proofs

open Sys2Proof Sys2Proof.Machine Sys2Proof.Safety Sys2Proof.Laws

variable {s t : State} {sp : OpSpec} {h : Hdr} {p : Bytes} {Q : State → Prop}

/-! ## How a command ends -/

/-- A property that the answer of a command keeps: what its reply changes, and outputs, counters, the network and host memory. -/
structure Answers (Q : State → Prop) : Prop where
  outside : Keeps Q 0x4c00513
  upCmd : ∀ {t f}, (∀ c, (f c).waiting = c.waiting) → Q t → Q (t.upCmd f)
  qpError : ∀ {t fn qp reason}, Q t → Q (t.qpError fn qp reason)
  reply : ∀ {t h opcode r}, Q t → Q (t.reply h opcode r)

theorem Answers.countErr {fn : Nat} (hQ : Answers Q) (H : Q t) : Q (t.countErr fn) := by
  unfold State.countErr State.upFn
  exact hQ.upCmd (fun _ => rfl) H

theorem Answers.snapEnd {opcode : Nat} {e : Nat × Nat × Nat} {tap : Bytes} (hQ : Answers Q) (H : Q t) : Q (t.snapEnd h opcode e tap) :=
  keeps_snapEnd (hQ.outside.mono rfl) H

/-- The verdict of a command leaves a property, with the command itself among those that wait where it waits. -/
def Ends (Q : State → Prop) : Verdict → Prop
  | .done _ _ _ t => Q t
  | .doneAs _ _ _ _ t => Q t
  | .wait kind _ t => ∀ w : WaitCmd, w.kind = kind → Q (t.upCmd (fun c => { c with waiting := c.waiting ++ [w] }))
  | _ => True

theorem carry_ends {c : Caller} {r : Rep} (hQ : Answers Q) (hprep : ∀ v, Prepared s v → Q v)
    (hrun : ∀ c v, Prepared s v → Ends Q (sp.run c h p v)) (H : Prepared s t) : Q (t.carry sp c h p r) := by
  have hsnap : Prepared s (if h.snapshot && !sp.ownSnap then t.snapBegin h sp.code [] else (none, t)).2 := by
    split
    · exact keeps_snapBegin (keeps_prepared _) H
    · exact H
  have hends := hrun c _ hsnap
  have hfin : ∀ {u : State} {e : Option (Nat × Nat × Nat)} {r : Machine.Rep}, Q u →
      Q ((match e with | some e => u.snapEnd h sp.code e [] | none => u).reply h sp.code r) := by
    intro u e r hu
    cases e with
    | none => exact hQ.reply hu
    | some e => exact hQ.reply (hQ.snapEnd hu)
  unfold State.carry
  dsimp only
  split
  · exact hQ.reply (hQ.countErr (hprep _ H))
  · exact hQ.reply (hQ.countErr (hprep _ H))
  · split
    next heq => rw [heq] at hends; exact hfin hends
    next heq => rw [heq] at hends; exact hfin hends
    next heq => rw [heq] at hends; exact hends _ rfl
    next => exact hprep _ hsnap

theorem prepared_hold (f : FetchedCmd) (H : Prepared s t) : Prepared s (t.hold f) := by
  unfold State.hold
  exact prepared_upCmd _ H fun _ => rfl

/-- A packet leaves a property that its answer keeps, and that its forwarding, what a wrong key changes and its effect leave. -/
theorem course_ends (hQ : Answers Q) (hprep : ∀ v, Prepared s v → Q v) (hauth : ∀ v n, Prepared s v → Q (sp.authFail h n v))
    (hforward : ∀ v c f st, Starting s h v → f.hdr = h → f.params = p → h.pathLen ≠ 0 → Q (v.forward sp.code c f st))
    (hrun : ∀ c v, Prepared s v → Ends Q (sp.run c h p v)) (H : Course sp h p s t) : Q t := by
  cases H with
  | waits H => exact hprep _ H
  | errs fn qp reason H => exact hQ.qpError (hprep _ H)
  | acts c r H => exact carry_ends hQ hprep hrun H
  | @starts v f H hhdr hparams =>
    subst hhdr hparams
    unfold State.start
    dsimp only
    have hnote := starting_note f.hdr.unit 0x0002 (if f.hdr.chan.fn < 256 then f.hdr.chan.fn else 0) (sp.code + 65536 * f.hdr.hostTag) 0 H
    generalize v.note f.hdr.unit 0x0002 (if f.hdr.chan.fn < 256 then f.hdr.chan.fn else 0) (sp.code + 65536 * f.hdr.hostTag) 0 = w at hnote ⊢
    split
    · refine hQ.reply (hQ.countErr ?_)
      split
      · exact hauth _ _ hnote.toPrepared
      · exact hprep _ hnote.toPrepared
    · split
      next hpath => exact hforward _ _ _ _ hnote rfl rfl hpath
      next =>
        split
        · split
          · exact hprep _ (prepared_hold _ hnote.toPrepared)
          · exact carry_ends hQ hprep hrun hnote.toPrepared
        · exact carry_ends hQ hprep hrun hnote.toPrepared

/-! ## Forwarding -/

section

variable (hQ : Answers Q)
include hQ

/-- A forwarded command that goes clears its own parameters at most. -/
theorem fanoutDrop_ends {f : Fanout} (hclear : f.rkey ≠ 0 → ∀ {t}, Q t → Q (t.gClear f.base f.hdr.paramLen)) (H : Q t) : Q (t.fanoutDrop f) := by
  have hgone : Q (t.upCmd (fun c => { c with fanouts := c.fanouts.filter (fun x => x.id != f.id) })) := hQ.upCmd (fun _ => rfl) H
  unfold State.fanoutDrop
  dsimp only
  split
  · exact hgone
  next hkey => exact hclear hkey (keeps_regionDel (hQ.outside.mono rfl) hgone)

theorem endFanout_ends {f : Fanout} (hclear : f.rkey ≠ 0 → ∀ {t}, Q t → Q (t.gClear f.base f.hdr.paramLen)) (H : Q t) : Q (t.endFanout f) := by
  have hdrop := fanoutDrop_ends hQ hclear H
  unfold State.endFanout
  dsimp only
  split
  · exact hQ.reply hdrop
  · refine hQ.reply ?_
    cases f.hdr.chan with
    | host fn qp =>
      dsimp only
      split
      · exact keeps_hostWrite (hQ.outside.mono rfl) hdrop
      · exact hdrop
    | mgmt sess => exact hdrop
    | head peer fwd role origin fan hops => exact hdrop

/-- Forwarding writes the parameters at their place, and clears them there where no member can be reached. -/
theorem forward_ends {opcode : Nat} {c : Caller} {f : FetchedCmd} {st : Nat} {v : State}
    (hwrite : f.hdr.ptr = true → ∀ {t}, Q t → Q (t.gWrite (v.replayAddr f.hdr) f.params))
    (hclear : f.hdr.ptr = true → ∀ {t}, Q t → Q (t.gClear (v.replayAddr f.hdr) f.hdr.paramLen)) (H : Q v) : Q (v.forward opcode c f st) := by
  have hsent : ∀ {u : State} {F : Fanout} {l : List Nat} {e : Bytes}, (F.rkey ≠ 0 → ∀ {t}, Q t → Q (t.gClear F.base F.hdr.paramLen)) →
      Q u → Q (if l.isEmpty then u.endFanout F else
        l.foldl (fun u m => (u.upMember m (fun y => { y with queue := y.queue ++ [(F.id, e)] })).fwdKick m) u) := by
    intro u F l e hF hu
    split
    · exact endFanout_ends hQ hF hu
    · exact keeps_foldl hu fun y m hy => keeps_fwdKick (hQ.outside.mono rfl) (keeps_upMember (hQ.outside.mono rfl) hy)
  unfold State.forward
  dsimp only
  generalize hreg : (if f.hdr.ptr = true then v.regionAdd
    { base := v.replayAddr f.hdr, len := f.params.length, read := true, owner := .troupe 0 } else none) = reg
  cases reg with
  | none => exact hsent (fun hkey => absurd rfl hkey) (hQ.upCmd (fun _ => rfl) H)
  | some e =>
    obtain ⟨k, u⟩ := e
    split at hreg
    next hptr =>
      have hadd : Q u := (keeps_regionAdd (hQ.outside.mono rfl) H).get _ hreg
      exact hsent (fun _ => hclear hptr) (hQ.upCmd (fun _ => rfl) (hwrite hptr hadd))
    next => cases hreg

end

/-! ## The commands that wait -/

/-- No answer makes a further command wait. -/
theorem answers_waitsIn (l : List WaitCmd) : Answers (WaitsIn l) where
  outside := keeps_of_spared _ .cmd waitsIn_of_cmd
  upCmd hf H w hw := H w (by simpa [hf] using hw)
  qpError := waitsIn_qpError
  reply := waitsIn_reply

/-! ## A byte of memory -/

/-- A byte of GDDR7 is as it was. -/
def ByteKept (x : Nat) (s t : State) : Prop := memGet t.gddr x = memGet s.gddr x

variable {x : Nat}

theorem mem_of_byteKept (H : ByteKept x s t) : t.mem x 1 = s.mem x 1 := by rw [mem_one, mem_one, H]

theorem keeps_byteKept (m : Nat) (e : spares m .gddr = true := by decide) : Keeps (ByteKept x s) m :=
  keeps_of_spared m .gddr (fun _ _ hsame H => (congrArg (memGet · x) hsame).trans H) e

theorem byteKept_gWrite {a : Nat} {b : Bytes} (hout : ¬ (a ≤ x ∧ x < a + b.length)) (H : ByteKept x s t) : ByteKept x s (t.gWrite a b) :=
  (memGet_memPut_other (by omega)).trans H

theorem byteKept_gClear {a n : Nat} (hout : ¬ (a ≤ x ∧ x < a + n)) (H : ByteKept x s t) : ByteKept x s (t.gClear a n) :=
  (memGet_memClear_other (by omega)).trans H

theorem answers_byteKept : Answers (ByteKept x s) where
  outside := keeps_byteKept _
  upCmd _ H := H
  qpError := keeps_qpError (keeps_byteKept _)
  reply := keeps_reply (keeps_byteKept _)

theorem byteKept_of_prepared (H : Prepared s t) : ByteKept x s t := congrArg (memGet · x) H.gddr

end Sys2Proof.Proofs


/-!
PROOFS. What memory each packet row leaves (R94, R171, R291, R393, R408, R409).
-/
namespace Sys2Proof.Proofs

open Sys2Proof Sys2Proof.Machine Sys2Proof.Safety Sys2Proof.Laws

variable {s t u : State} {sp : OpSpec} {h : Hdr} {p : Bytes} {x : Nat}

/-! ## Any packet -/

/-- The parameters by pointer of a command that a head forwards are placed away from an address. -/
def PlacedAway (x : Nat) (h : Hdr) (p : Bytes) (s : State) : Prop :=
  h.pathLen = 0 ∨ h.ptr = false ∨
    ∀ (fn qp opcode : Nat) (u : State), (u = s ∨ u = s.fetchSlots fn qp h opcode) →
      ¬ (u.replayAddr h ≤ x ∧ x < u.replayAddr h + max p.length h.paramLen)

theorem byteKept_forward {opcode : Nat} {c : Caller} {f : FetchedCmd} {st : Nat} {v : State} (haway : PlacedAway x h p s)
    (H : Starting s h v) (hhdr : f.hdr = h) (hparams : f.params = p) (hpath : h.pathLen ≠ 0) : ByteKept x s (v.forward opcode c f st) := by
  subst hhdr hparams
  have hout : f.hdr.ptr = true → ¬ (v.replayAddr f.hdr ≤ x ∧ x < v.replayAddr f.hdr + max f.params.length f.hdr.paramLen) := by
    intro hptr
    have hplaces := (haway.resolve_left hpath).resolve_left (by simp [hptr])
    obtain ⟨w, hw, hplace⟩ := H.place
    rw [hplace]
    obtain rfl | ⟨fn, qp, opcode, rfl⟩ := hw
    · exact hplaces 0 0 0 _ (.inl rfl)
    · exact hplaces fn qp opcode _ (.inr rfl)
  exact forward_ends answers_byteKept (fun hptr _ => byteKept_gWrite (by have := hout hptr; omega))
    (fun hptr _ => byteKept_gClear (by have := hout hptr; omega)) (byteKept_of_prepared H.toPrepared)

/-- A packet leaves a byte that its effect and what a wrong key changes leave, and that lies away from its parameters' place. -/
theorem byteKept_runPkt (haway : PlacedAway x h p s) (hauth : ∀ v n, Prepared s v → ByteKept x s (sp.authFail h n v))
    (hrun : ∀ c v, Prepared s v → Ends (ByteKept x s) (sp.run c h p v)) (hnext : runPkt sp h p s = .next t) : ByteKept x s t :=
  course_ends answers_byteKept (fun _ => byteKept_of_prepared) hauth (fun _ _ _ _ => byteKept_forward haway) hrun (course_runPkt hnext)

theorem ends_of_vAll {v : Verdict} (H : VAll (ByteKept x s) v) : Ends (ByteKept x s) v := by
  cases H with
  | done _ _ _ _ h => exact h
  | doneAs _ _ _ _ _ h => exact h
  | refuse => trivial
  | refuseAt => trivial
  | wait _ _ _ h => exact fun _ _ => h

/-- A row whose checks and effect do not reach memory. -/
theorem mem_row {m : Nat} (haway : PlacedAway x h p s) (hsp : ∀ P : State → Prop, Keeps P m → SpecAll P sp)
    (e : spares m .gddr = true := by decide +kernel) (hnext : runPkt sp h p s = .next t) : t.mem x 1 = s.mem x 1 :=
  mem_of_byteKept (byteKept_runPkt haway (fun _ _ H => (hsp _ (keeps_byteKept m e)).authFail _ _ _ (byteKept_of_prepared H))
    (fun _ _ H => ends_of_vAll ((hsp _ (keeps_byteKept m e)).run _ _ _ _ (byteKept_of_prepared H))) hnext)

/-- A row that reaches memory, whose effect leaves the byte all the same. -/
theorem mem_row_of_run (haway : PlacedAway x h p s) (hauth : ∀ n v, sp.authFail h n v = v)
    (hrun : ∀ c v, Prepared s v → Ends (ByteKept x s) (sp.run c h p v)) (hnext : runPkt sp h p s = .next t) : t.mem x 1 = s.mem x 1 :=
  mem_of_byteKept (byteKept_runPkt haway (fun v n H => by rw [hauth]; exact byteKept_of_prepared H) hrun hnext)

/-! ## Loom settings: at once before the start, when nothing is woven, and staged after it (R291, R299) -/

theorem ends_onJob {f : Nat → Job → Verdict} (H : ∀ j, u.job (fld p 0 2) = some j → Ends (ByteKept x s) (f (fld p 0 2) j)) :
    Ends (ByteKept x s) (u.onJob p f) := by
  unfold State.onJob
  split
  next j hj =>
    split
    · trivial
    · exact H j hj
  next => trivial

theorem ends_settingStop_getD {c : Caller} {n : Nat} {need : Bool} {d : Verdict} (hd : Ends (ByteKept x s) d) (H : ByteKept x s u) :
    Ends (ByteKept x s) ((u.settingStop c n need).getD d) := by
  cases hstop : u.settingStop c n need with
  | none => exact hd
  | some v => exact ends_of_vAll ((keeps_settingStop H).get v hstop)

/-- A setting that needs an intermission is staged in it. -/
theorem ends_setting {opcode : Nat} {c : Caller} {same : Staged → Bool} {result : Nat} {apply : State → State}
    (hstop : u.settingStop c h.unit true = none) (H : ByteKept x s u) : Ends (ByteKept x s) (u.setting opcode c h p same result apply) := by
  unfold State.setting
  split
  next hnone => simp [State.settingStop, hnone] at hstop
  next r hr => exact H

theorem ends_loomSetting {opcode : Nat} {c : Caller} {same : Staged → Bool} {started : Bool} {result : Nat} {apply : State → State}
    (happly : started = false → ByteKept x s (apply u)) (H : ByteKept x s u) :
    Ends (ByteKept x s) (u.loomSetting opcode c h p same started result apply) := by
  unfold State.loomSetting
  split
  next hnot => exact happly (by simpa using hnot)
  next =>
    split
    next v hv => exact ends_of_vAll ((keeps_settingStop H).get v hv)
    next hnone => exact ends_setting hnone H

section

variable {j : Job} {b : Bytes} {at_ : Nat} (hj : u.job (fld b 0 2) = some j) (hnot : j.started = false) (H : ByteKept x s u)
include hj hnot H

theorem byteKept_applyAddWarp : ByteKept x s (u.applyAddWarp b at_) := by
  unfold State.applyAddWarp
  simp only [hj, hnot]
  exact keeps_upJob (keeps_byteKept _) H

theorem byteKept_applyLayout : ByteKept x s (u.applyLayout b at_) := by
  unfold State.applyLayout
  simp only [hj, hnot]
  exact keeps_upJob (keeps_byteKept _) H

theorem byteKept_applyShare : ByteKept x s (u.applyShare b at_) := by
  unfold State.applyShare
  simp only [hj, hnot]
  exact keeps_upJob (keeps_byteKept _) H

end

theorem leNat_zeros (n : Nat) : leNat (zeros n) = 0 := by
  induction n with
  | zero => rfl
  | succ n ih =>
    change (0 : Byte).toNat + 256 * leNat (zeros n) = 0
    rw [ih]
    rfl

theorem leNat_append_zeros (l : Bytes) (n : Nat) : leNat (l ++ zeros n) = leNat l := by
  induction l with
  | nil => exact leNat_zeros n
  | cons b l ih => simp only [List.cons_append, leNat, ih]

/-- The first field is that of parameters filled up to 48 bytes, whatever follows. -/
theorem fld_padTo_append (p b : Bytes) : fld (padTo 48 p ++ b) 0 2 = fld p 0 2 := by
  have htake : (padTo 48 p ++ b).take 2 = p.take 2 ++ zeros (2 - p.length) := by
    rw [List.take_append_of_le_length (by simp only [padTo, zeros, List.length_append, List.length_take, List.length_replicate]; omega), padTo,
      List.take_append, List.take_take, zeros, List.take_replicate, List.length_take]
    congr 2
    omega
  rw [fld, fld, List.drop_zero, List.drop_zero, htake, leNat_append_zeros]

theorem ends_loomAddWarp (c : Caller) (H : ByteKept x s u) : Ends (ByteKept x s) (opLoomAddWarp.run c h p u) := by
  simp only [opLoomAddWarp]
  split
  · exact ends_settingStop_getD trivial H
  · split
    · trivial
    · refine ends_onJob fun j hj => ?_
      repeat' split
      · trivial
      · trivial
      · trivial
      · exact ends_loomSetting (fun hnot => byteKept_applyAddWarp ((congrArg _ (fld_padTo_append ..)).trans hj) hnot H) H

theorem ends_loomSetLayout (c : Caller) (H : ByteKept x s u) : Ends (ByteKept x s) (opLoomSetLayout.run c h p u) := by
  simp only [opLoomSetLayout]
  refine ends_onJob fun j hj => ?_
  repeat' split
  · trivial
  · exact ends_settingStop_getD trivial H
  · trivial
  · exact ends_loomSetting (fun hnot => byteKept_applyLayout hj hnot H) H

theorem ends_loomSetCursor (c : Caller) (H : ByteKept x s u) : Ends (ByteKept x s) (opLoomSetCursor.run c h p u) := by
  simp only [opLoomSetCursor]
  refine ends_onJob fun j hj => ?_
  split
  next v hv => exact ends_of_vAll ((keeps_settingStop H).get v hv)
  next hnone =>
    split
    · trivial
    · exact ends_setting hnone H

theorem ends_loomSetShare (c : Caller) (H : ByteKept x s u) : Ends (ByteKept x s) (opLoomSetShare.run c h p u) := by
  simp only [opLoomSetShare]
  refine ends_onJob fun j hj => ?_
  repeat' split
  · exact ends_settingStop_getD trivial H
  · trivial
  · exact ends_loomSetting (fun hnot => byteKept_applyShare hj hnot H) H

/-! ## CIP_LOAD_KEY (R171, R173) -/

/-- The head's copies of the parameters are overwritten where they lie. -/
theorem byteKept_wipeParams (hout : ∀ a ∈ u.headParams, ¬ (a ≤ x ∧ x < a + p.length)) (H : ByteKept x s u) : ByteKept x s (u.wipeParams p) := by
  unfold State.wipeParams
  refine List.foldlRecOn _ _ H fun v hv a ha => ?_
  split
  · exact byteKept_gWrite (by simpa [zeros] using hout a ha) hv
  · exact hv

theorem ends_cipLoadKey (c : Caller) (hout : ∀ a ∈ u.headParams, ¬ (a ≤ x ∧ x < a + p.length)) (H : ByteKept x s u) :
    Ends (ByteKept x s) (opCipLoadKey.run c h p u) := by
  simp only [opCipLoadKey]
  split
  next v hv =>
    exact ends_of_vAll (err_get hv (keeps_callerPage H))
  next k hk =>
    split
    · trivial
    · split
      · exact fun _ _ => H
      · exact keeps_upPage (keeps_byteKept _) (byteKept_wipeParams hout H)

/-! ## Images of the firmware (R393, R407) -/

/-- The image area that the running image does not take. -/
def OutsideSpareImage (x : Nat) (s : State) : Prop :=
  ¬ (s.imgBase (1 - s.stg.bank) 0 ≤ x ∧ x < s.imgBase (1 - s.stg.bank) 0 + 16777216)

section

variable (hout : OutsideSpareImage x s) (hglb : u.glb = s.glb) (hbank : u.stg.bank = s.stg.bank)
include hout hglb hbank

theorem byteKept_dropImage (H : ByteKept x s u) : ByteKept x s (u.dropImage (1 - u.stg.bank)) := by
  unfold State.dropImage
  refine byteKept_gClear ?_ H
  rw [hbank, State.imgBase, partBase_congr hglb]
  exact hout

theorem byteKept_putImage {b : Bytes} (hlen : b.length ≤ 8388608) (H : ByteKept x s u) : ByteKept x s (u.putImage (1 - u.stg.bank) 0 b) := by
  have hplace : ∀ copy, u.imgBase (1 - u.stg.bank) copy = s.imgBase (1 - s.stg.bank) 0 + copy * 8388608 := by
    intro copy
    rw [State.imgBase, State.imgBase, partBase_congr hglb, hbank]
    omega
  unfold OutsideSpareImage at hout
  unfold State.putImage
  rw [hplace, hplace]
  exact byteKept_gWrite (by omega) (byteKept_gWrite (by omega) H)

theorem byteKept_stageCopies {fresh : Bool} (hlen : u.stg.understudy.length ≤ 8388608) (H : ByteKept x s u) :
    ByteKept x s (u.stageCopies fresh) := by
  unfold State.stageCopies
  split
  · exact H
  · cases fresh with
    | false => exact byteKept_putImage hout hglb hbank hlen H
    | true => exact byteKept_putImage (u := u.dropImage (1 - u.stg.bank)) hout hglb hbank hlen (byteKept_dropImage hout hglb hbank H)

end

theorem length_putAt (b : Bytes) (off : Nat) (l : Bytes) : (putAt b off l).length ≤ max b.length (off + l.length) := by
  simp only [putAt, padTo, zeros, List.length_append, List.length_take, List.length_replicate, List.length_drop]
  omega

theorem ends_fwStage (c : Caller) (hlen : u.stg.understudy.length ≤ 8388608) (hout : OutsideSpareImage x s) (hglb : u.glb = s.glb)
    (hbank : u.stg.bank = s.stg.bank) (H : ByteKept x s u) : Ends (ByteKept x s) (opFwStage.run c h p u) := by
  simp only [opFwStage, Verdict.ok]
  split
  · trivial
  next hfits =>
    simp only [Ends]
    have hold : (if fld p 0 4 = 0 then [] else u.stg.understudy).length ≤ 8388608 := by
      split
      · exact Nat.zero_le _
      · exact hlen
    have hsub : (sub p 8 (fld p 4 4)).length ≤ fld p 4 4 := by
      rw [sub, List.length_take]
      exact Nat.min_le_left _ _
    refine byteKept_stageCopies hout ?_ ?_ ?_ ?_
    · exact hglb
    · exact hbank
    · exact Nat.le_trans (length_putAt _ _ _) (Nat.max_le.mpr ⟨hold, by omega⟩)
    · exact H

/-- A stagehand's state is neither the image bank nor the understudy, nor memory or its layout. -/
theorem handsState_image (u : State) (st : Nat) :
    (u.handsState st).stg.bank = u.stg.bank ∧ (u.handsState st).stg.understudy = u.stg.understudy ∧ (u.handsState st).glb = u.glb ∧
      (u.handsState st).gddr = u.gddr :=
  keeps_foldl (P := fun v => v.stg.bank = u.stg.bank ∧ v.stg.understudy = u.stg.understudy ∧ v.glb = u.glb ∧ v.gddr = u.gddr)
    ⟨rfl, rfl, rfl, rfl⟩ fun _ _ h => h

theorem byteKept_trialEnd (hlen : u.stg.understudy.length ≤ 8388608) (hout : OutsideSpareImage x s) (hglb : u.glb = s.glb)
    (hbank : u.stg.bank = s.stg.bank) (H : ByteKept x s u) : ByteKept x s u.trialEnd := by
  obtain ⟨hb, hu, hg, hm⟩ := handsState_image (u.upStg (fun x => { x with handover := none })) 1
  unfold State.trialEnd
  refine byteKept_stageCopies hout (hg.trans hglb) (hb.trans hbank) ?_ ((congrArg (memGet · x) hm).trans H)
  rw [hu]
  exact hlen

theorem ends_fwCommit (c : Caller) (hlen : u.stg.understudy.length ≤ 8388608) (hout : OutsideSpareImage x s) (hglb : u.glb = s.glb)
    (hbank : u.stg.bank = s.stg.bank) (H : ByteKept x s u) : Ends (ByteKept x s) (opFwCommit.run c h p u) := by
  have hend := byteKept_trialEnd hlen hout hglb hbank H
  simp only [opFwCommit]
  split
  · trivial
  · split
    · exact ends_of_vAll (keeps_storeCmd (keeps_byteKept _) hend)
    · exact hend

/-! ## Modules (R408, R409) -/

theorem areaBase_congr (hglb : u.glb = s.glb) (cls : Nat) : u.areaBase cls = s.areaBase cls := by
  rw [State.areaBase, State.areaBase, partBase_congr hglb]

theorem ends_fwLoadModule (c : Caller)
    (hout : ¬ (s.areaBase (moduleOf p).cls ≤ x ∧ x < s.areaBase (moduleOf p).cls + 1024 * (moduleOf p).areaKib))
    (hglb : u.glb = s.glb) (H : ByteKept x s u) : Ends (ByteKept x s) (opFwLoadModule.run c h p u) := by
  rw [← areaBase_congr hglb] at hout
  simp only [opFwLoadModule]
  repeat' split
  · trivial
  · trivial
  · trivial
  · trivial
  · exact byteKept_gClear hout (keeps_modulesLaid (keeps_byteKept _) H)

theorem byteKept_moduleGone {cls : Nat}
    (hout : ∀ m ∈ u.stg.modules, m.cls = cls → ¬ (u.areaBase m.cls ≤ x ∧ x < u.areaBase m.cls + 1024 * m.areaKib))
    (H : ByteKept x s u) : ByteKept x s (u.moduleGone cls) := by
  unfold State.moduleGone
  split
  · exact H
  next m hm =>
    have hcls : m.cls = cls := by simpa using List.find?_some hm
    subst hcls
    exact byteKept_gClear (hout m (List.mem_of_find?_eq_some hm) rfl) (keeps_modulesLaid (keeps_byteKept _) H)

theorem ends_fwUnloadModule (c : Caller)
    (hout : ∀ m ∈ u.stg.modules, m.cls = fld p 0 1 → ¬ (u.areaBase m.cls ≤ x ∧ x < u.areaBase m.cls + 1024 * m.areaKib))
    (H : ByteKept x s u) : Ends (ByteKept x s) (opFwUnloadModule.run c h p u) := by
  simp only [opFwUnloadModule]
  repeat' split
  · trivial
  · exact fun _ _ => H
  · exact byteKept_moduleGone hout H

/-! ## ABORT (R99) -/

/-- ABORT makes no further command wait. -/
theorem waitsIn_runPkt_abort (hnext : runPkt opAbort h p s = .next t) : WaitsIn s.cmd.waiting t := by
  have hQ := answers_waitsIn s.cmd.waiting
  refine course_ends hQ (fun _ H => H.waits) (fun _ _ H => H.waits)
    (fun _ _ _ _ H _ _ _ => forward_ends hQ (fun _ _ H => H) (fun _ _ H => H) H.waits) (fun c v H => ?_) (course_runPkt hnext)
  simp only [opAbort]
  split
  · exact H.waits
  · exact waitsIn_reply (hQ.upCmd (fun _ => rfl) H.waits)

theorem exec_abort (haway : PlacedAway x h p s) (hnone : s.cmd.waiting.any (fun w => w.kind == wUnload) = false)
    (hnext : exec (.abort h p) s = .next t) : t.mem x 1 = s.mem x 1 := by
  obtain ⟨u, hu⟩ := runPkt_next opAbort h p s
  change thenUnload (runPkt opAbort h p s) = .next t at hnext
  rw [hu] at hnext
  obtain rfl := Host.Outcome.next.inj hnext
  rw [settleUnloads_of_none (noUnload_of_waitsIn hnone (waitsIn_runPkt_abort hu))]
  exact mem_row haway (fun _ => keeps_opAbort) (hnext := hu)

/-- Settles O59: the six rows that reach memory one by one, and every other by the pieces that its operations keep. -/
theorem packetsLeaveMemory : Obligations.PacketsLeaveMemory := by
  unfold Obligations.PacketsLeaveMemory
  intro h p data s t x haway
  refine ⟨fun hout hnext => ?_, fun hnone hnext => exec_abort haway hnone hnext, fun hlen hout => ?_, fun hout hnext => ?_,
    fun hout hnext => ?_, ?_⟩
  case refine_1 =>
    refine mem_row_of_run haway (fun _ _ => rfl) (fun c _ H => ends_cipLoadKey c ?_ (byteKept_of_prepared H)) hnext
    rwa [headParams_congr H.links]
  case refine_2 =>
    simp only [List.forall_mem_cons, List.not_mem_nil, false_implies, implies_true, and_true]
    exact
      ⟨mem_row_of_run haway (fun _ _ => rfl) fun c _ H =>
        ends_fwStage c (by rwa [H.stg]) hout H.glb (by rw [H.stg]) (byteKept_of_prepared H),
       mem_row_of_run haway (fun _ _ => rfl) fun c _ H =>
        ends_fwCommit c (by rwa [H.stg]) hout H.glb (by rw [H.stg]) (byteKept_of_prepared H)⟩
  case refine_3 =>
    exact mem_row_of_run haway (fun _ _ => rfl) (fun c _ H => ends_fwLoadModule c hout H.glb (byteKept_of_prepared H)) hnext
  case refine_4 =>
    refine mem_row_of_run haway (fun _ _ => rfl) (fun c _ H => ends_fwUnloadModule c (fun m hm => ?_) (byteKept_of_prepared H)) hnext
    rw [areaBase_congr H.glb]
    exact hout m (H.stg ▸ hm)
  simp only [List.forall_mem_cons, List.not_mem_nil, false_implies, implies_true, and_true]
  exact
    ⟨mem_row haway fun _ => keeps_opSetPartitions, mem_row haway fun _ => keeps_opSetCueSource,
     mem_row haway fun _ => keeps_opCueEventSet, mem_row haway fun _ => keeps_opCueEventClear,
     mem_row (m := 0) haway fun _ _ => keeps_opNop, mem_row haway fun _ => keeps_opOpenSession, mem_row haway fun _ => keeps_opSetRoleKey,
     mem_row haway fun _ => keeps_opCreateQueuePair, mem_row haway fun _ => keeps_opIntermissionBegin,
     mem_row (m := 0) haway fun _ _ => keeps_opGetState, mem_row haway fun _ => keeps_opConnectTarget,
     mem_row haway fun _ => keeps_opDisconnectTarget, mem_row haway fun _ => keeps_opAttachNamespace,
     mem_row haway fun _ => keeps_opSetNsMode, mem_row haway fun _ => keeps_opSetWbQuota,
     mem_row (m := 0) haway fun _ _ => keeps_opGetNsStatus, mem_row haway fun _ => keeps_opDiscardDirty,
     mem_row haway fun _ => keeps_opSetPortMode, mem_row (m := 0) haway fun _ _ => keeps_opGetPortStatus,
     mem_row haway fun _ => keeps_opCreateQp, mem_row haway fun _ => keeps_opModifyQp, mem_row haway fun _ => keeps_opDestroyQp,
     mem_row (m := 0) haway fun _ _ => keeps_opQueryQp, mem_row haway fun _ => keeps_opSetEventQueue,
     mem_row haway fun _ => keeps_opRegisterRegion, mem_row haway fun _ => keeps_opDeregisterRegion,
     mem_row haway fun _ => keeps_opTroupeAddMember, mem_row haway fun _ => keeps_opSetContextReserve,
     mem_row haway fun _ => keeps_opHedLoadGraph, mem_row haway fun _ => keeps_opHedSetTable, mem_row haway fun _ => keeps_opHedAddEntry,
     mem_row haway fun _ => keeps_opHedDelEntry, mem_row haway fun _ => keeps_opSetPacketRing,
     mem_row haway fun _ => keeps_opCipAssignPages, mem_row haway fun _ => keeps_opCipClearPage,
     mem_row haway fun _ => keeps_opShuOpenStream, mem_row haway fun _ => keeps_opShuGetStream,
     mem_row haway fun _ => keeps_opShuSetPolicy, mem_row haway fun _ => keeps_opShuSetMel, mem_row haway fun _ => keeps_opTapLoad,
     mem_row haway fun _ => keeps_opTapUnload, mem_row haway fun _ => keeps_opTapUnbind, mem_row haway fun _ => keeps_opTapGetQueue,
     mem_row haway fun _ => keeps_opTapSetPolicy, mem_row haway fun _ => keeps_opLoomOpenJob,
     mem_row_of_run haway (fun _ _ => rfl) fun c _ H => ends_loomAddWarp c (byteKept_of_prepared H),
     mem_row_of_run haway (fun _ _ => rfl) fun c _ H => ends_loomSetLayout c (byteKept_of_prepared H),
     mem_row haway fun _ => keeps_opLoomStart, mem_row haway fun _ => keeps_opLoomGetCursor,
     mem_row_of_run haway (fun _ _ => rfl) fun c _ H => ends_loomSetCursor c (byteKept_of_prepared H),
     mem_row haway fun _ => keeps_opLoomGetOrder, mem_row (m := 0) haway fun _ _ => keeps_opLoomGetJob,
     mem_row_of_run haway (fun _ _ => rfl) fun c _ H => ends_loomSetShare c (byteKept_of_prepared H),
     mem_row haway fun _ => keeps_opFeedSetPort, mem_row haway fun _ => keeps_opFeedAdmit, mem_row haway fun _ => keeps_opFeedRelease,
     mem_row haway fun _ => keeps_opLatchAssign, mem_row haway fun _ => keeps_opFeedCreateRing,
     mem_row haway fun _ => keeps_opFeedDestroyRing, mem_row haway fun _ => keeps_opFeedResetRing,
     mem_row haway fun _ => keeps_opFeedGetRing, mem_row haway fun _ => keeps_opFeedJoin, mem_row haway fun _ => keeps_opRasSetErrorRing,
     mem_row haway fun _ => keeps_opRasErrorHead, mem_row (m := 0) haway fun _ _ => keeps_opRasGetUnit,
     mem_row haway fun _ => keeps_opRasSetTest, mem_row haway fun _ => keeps_opCkpSetJob, mem_row haway fun _ => keeps_opCkpSetShards,
     mem_row haway fun _ => keeps_opCkpSetTrigger, mem_row haway fun _ => keeps_opCkpCapture, mem_row haway fun _ => keeps_opCkpGetJob,
     mem_row haway fun _ => keeps_opCkpRestore, mem_row haway fun _ => keeps_opCkpSetSigners, mem_row haway fun _ => keeps_opCkpCloseJob,
     mem_row haway fun _ => keeps_opCkpReadBank, mem_row haway fun _ => keeps_opFwGetInfo, mem_row haway fun _ => keeps_opFwVerify,
     mem_row haway fun _ => keeps_opFwActivate, mem_row haway fun _ => keeps_opFwRollback, mem_row haway fun _ => keeps_opFwSetModuleKey,
     mem_row haway fun _ => keeps_opCallAssign, mem_row haway fun _ => keeps_opVfSetResources,
     mem_row haway fun _ => keeps_opVfGetResources, mem_row haway fun _ => keeps_opVfSetMbox, mem_row haway fun _ => keeps_opVfFreeze,
     mem_row haway fun _ => keeps_opVfSetMigKey, mem_row haway fun _ => keeps_opSmReadLog,
     mem_row haway fun _ => keeps_opSmSetOperatorKey, mem_row haway fun _ => keeps_opSmSetThreshold,
     mem_row haway fun _ => keeps_opSmSetFwKey, mem_row haway fun _ => keeps_opSmSetMgmt, mem_row haway fun _ => keeps_opObsSetSnapArea,
     mem_row haway fun _ => keeps_opObsSnapHead, mem_row haway fun _ => keeps_opObsSetCounter, mem_row haway fun _ => keeps_opObsTraceCfg,
     mem_row haway fun _ => keeps_opObsTraceStart, mem_row haway fun _ => keeps_opObsTraceStop, mem_row haway fun _ => keeps_opObsTrigger,
     mem_row haway fun _ => keeps_opObsTraceRead, mem_row haway fun _ => keeps_opObsTableau,
     mem_row haway fun _ => keeps_opObsClearCounters, mem_row haway fun _ => keeps_opPwrSetConfig⟩

end Sys2Proof.Proofs

end
